-- ==== Sys2Proof/Word.lean ====
section
/-! DEFINITION. The words the block stores: a byte of HBM or host memory, and a 32-bit register word (R376, R640). -/
namespace Sys2Proof

/-- A byte of HBM or host memory. -/
abbrev Byte := BitVec 8

/-- A 32-bit BAR0 register word (R640). -/
abbrev Word := BitVec 32

end Sys2Proof
end

