-- ==== Sys2Proof/Syntax.lean ====
section
/-! DEFINITION. The commands of the AMT-9620: one constructor of Instr for each row of spec/opcode_table.json,
with the operands the row's rule gives it, and the operand types. Data that comes from outside the part
(host memory, the sensor, a magazine, a meter) comes with the command that brings it. -/
namespace Sys2Proof

/-- An item of a stall chain: its value, and for an item of a packet whether it is the packet's first, last or abort
item (R50, R51). -/
structure ChainItem where
  value : Nat
  first : Bool
  last : Bool
  abort : Bool
  deriving DecidableEq, Repr

/-- One 66-bit block of a Barosh lane: its 2-bit header and its 64 payload bits as received (R87). -/
structure LinkBlock where
  header : Nat
  payload : BitVec 64
  deriving DecidableEq, Repr

/-- A descrambled block of a lane: its 2-bit header and its 8 payload bytes (R87, R89). -/
structure StripeBlock where
  header : Nat
  bytes : List Byte
  deriving DecidableEq, Repr

/-- A row stripe as a home half reads it out of its deskew buffers (R96): for each lane position, position 0 first, the block of each block
time of the stripe, none where the lane brought none. A marker that falls into the stripe is no block of it (R100). -/
structure RowStripe where
  lanes : List (List (Option StripeBlock))
  deriving DecidableEq, Repr

/-- The consumers that take settle notices (R153). -/
inductive Consumer where
  | ticket | column | stats | view | canvas | packer | magazine | barrow | sketch | raster | sender
  deriving DecidableEq, Repr

/-- The holders of a canvas slot part (R285). -/
inductive Holder where
  | packer | magazine | colour | barrow (c : Nat)
  deriving DecidableEq, Repr

/-- What the dies of a magazine answer at initialisation (R289, R293): the answers in the order of the requirements. -/
structure MagIdent where
  /-- READ ID gives the ONFI signature and a copy of the parameter page passes its CRC. -/
  signed : Bool
  /-- The IDs are in the media table of the firmware in force. -/
  listed : Bool
  /-- 16 channels with all 8 CEs, the same number of LUNs on each, identical dies. -/
  alike : Bool
  luns : Nat
  pageData : Nat
  pageSpare : Nat
  planes : Nat
  /-- The media table records one-shot programming and an SLC mode. -/
  oneShot : Bool
  shot : Nat
  tProg : Nat
  tSlc : Nat
  tErase : Nat
  segments : Nat
  /-- Blocks per die, word lines per block. -/
  blocks : Nat
  wl : Nat
  /-- Trained transfer rate of each channel in MT/s. -/
  mts : List Nat
  mfr : Nat
  device : Nat
  /-- The parameter page declares on-die termination (R288). -/
  odt : Bool
  deriving DecidableEq, Repr

/-- A reel ID (R335): roll identifier, reel number, PTP seconds of the format. -/
structure ReelId where
  roll : Nat
  reel : Nat
  secs : Nat
  deriving DecidableEq, Repr

/-- A reel header copy (R334). -/
structure ReelHeader where
  version : Nat
  encrypted : Bool
  sanitised : Bool
  generation : Nat
  id : ReelId
  blocks : Nat
  planes : Nat
  shot : Nat
  wl : Nat
  diesCh : Nat
  ledgerN : Nat
  ledger0 : List Nat
  keyId : Nat
  wrapped : List (BitVec 8)
  deriving DecidableEq, Repr

/-- A block of a die: die number channel + 16 × index, index 2 × CE + LUN. -/
abbrev BlockAt := Nat × Nat

/-- A retired block (R342): channel, index, block, cause. -/
structure Retired where
  ch : Nat
  index : Nat
  block : Nat
  cause : Nat
  deriving DecidableEq, Repr

/-- A WIP record (R370). -/
structure WipRec where
  op : Nat
  state : Nat
  generation : Nat
  next : Nat
  bad : List Retired
  deriving DecidableEq, Repr

/-- A take table entry (R343). -/
structure TakeEntry where
  take : Nat
  state : Nat
  placement : Nat
  packed : Bool
  easel : Nat
  format : Nat
  width : Nat
  height : Nat
  rate : Nat
  opened : Nat
  ended : Nat
  frames : Nat
  partner : ReelId
  serial0 : Nat
  deriving DecidableEq, Repr

/-- A frame entry of a COMMIT (R344). -/
structure FrameEntry where
  take : Nat
  index : Nat
  serial : Nat
  easel : Nat
  /-- 1 DRY, 2 DAMAGED. -/
  state : Nat
  gleaned : Bool
  fault : Nat
  segs : Nat
  secs : Nat
  nanos : Nat
  tiles : Nat
  check : Nat
  deriving DecidableEq, Repr

/-- A segment entry (R344). -/
structure SegEntry where
  serial : Nat
  start : Nat
  half : Nat
  packed : Bool
  last : Bool
  ordinal : Nat
  tiles : Nat
  deriving DecidableEq, Repr

/-- The entry of a sidecar file (R350). -/
structure SidecarEntry where
  name : List (BitVec 8)
  take : Nat
  length : Nat
  number : Nat
  secs : Nat
  deriving DecidableEq, Repr

/-- An entry of the reel ledger (R341, R342). -/
inductive LEntry where
  | format (hdr : ReelHeader) (ledger : List (List Nat))
  | set (id index state secs : Nat) (blocks counts : List Nat)
  | stripe (serial set wl : Nat)
  | detour (a b : Nat)
  | retire (r : Retired)
  | take (t : TakeEntry)
  | varnish (take serial easel state fault : Nat)
  | commit (scanFrom : Nat) (frames : List FrameEntry) (segs : List SegEntry)
  | reloc (seg start : Nat)
  | sidecar (x : SidecarEntry) (segs : List SegEntry)
  deriving DecidableEq, Repr

/-- A reel ledger record (R338): the entries that begin in it, and its body bytes. -/
structure LRecord where
  version : Nat
  kind : Nat
  seq : Nat
  first : Nat
  gcount : Nat
  last : Bool
  id : ReelId
  entries : List LEntry
  body : List (BitVec 8)
  deriving DecidableEq, Repr

/-- What a programmed SLC page holds in its codeword 0 (R330). -/
inductive SlcPage where
  | header (h : ReelHeader)
  | wip (w : WipRec)
  | ledger (copy : Nat) (r : LRecord)
  /-- Damaged: its magic or CRC is wrong. -/
  | bad
  deriving DecidableEq, Repr

/-- A segment as it stands on the media (R348 to R350): for tile data its Tile Records with their payloads, for a sidecar the
file's bytes. -/
structure Segment where
  version : Nat
  sidecar : Bool
  half : Nat
  packed : Bool
  last : Bool
  encrypted : Bool
  easel : Nat
  id : ReelId
  serial : Nat
  owner : Nat
  frame : Nat
  ordinal : Nat
  tseg : Nat
  tiles : List (List (BitVec 8) × List (BitVec 8))
  file : List (BitVec 8)
  deriving DecidableEq, Repr

/-- A page of a program unit: page k of a segment, a pad page, or a page of a parity unit. -/
inductive PageRef where
  | seg (serial k : Nat)
  | pad
  | parity
  deriving DecidableEq, Repr

/-- The place of a program unit: die, block, word line. -/
structure PuPlace where
  die : Nat
  block : Nat
  wl : Nat
  deriving DecidableEq, Repr

/-- What a magazine holds: its dies' answers, the factory bad-block marks, the programmed SLC pages as die, block, page, the
programmed units in page order, the segments, the codewords that need a later read step as place, page, codeword and the first
step of R300 that succeeds were the stripe closed, the codewords that corrected more than a number of bits, and the blocks
whose erase did not end. -/
structure Magazine where
  ident : MagIdent
  factory : List BlockAt
  slc : List (Nat × Nat × Nat × SlcPage)
  units : List (PuPlace × List PageRef)
  segs : List Segment
  weak : List (PuPlace × Nat × Nat × Nat)
  bits : List (PuPlace × Nat × Nat × Nat)
  torn : List BlockAt
  deriving DecidableEq, Repr

/-- How a die operation ends (R307): a program or an erase with its status, a page read with how the codewords of the page read
from now on: the step of R300 that each needs and the bits it corrects. -/
inductive DieResult where
  | ok
  | failed
  | read (cws : List (Nat × Nat))
  deriving DecidableEq, Repr
/-- An AES3 frame as a receiver decodes it (R508, R515, R516): the 24-bit samples, validity bits and channel status bits of subframes
A and B, whether A carries the Z preamble, whether the receiver runs at its group's reference rate, and the measured ratio of R509. -/
structure AesFrame where
  a : Nat
  b : Nat
  validA : Bool
  validB : Bool
  csA : Bool
  csB : Bool
  z : Bool
  rateOk : Bool
  ratio : Nat
  deriving DecidableEq, Repr, Inhabited

/-- What an Announce message of a master brings (R529, R543): its dataset in the order the default BMCA compares it, currentUtcOffset,
and the daily jam and local offset in seconds of the synchronization metadata TLV, when it carries one. -/
structure Announce where
  domain : Nat
  priority1 : Nat
  clockClass : Nat
  accuracy : Nat
  variance : Nat
  priority2 : Nat
  identity : Nat
  stepsRemoved : Nat
  utcOffset : Int
  tlv : Option (Nat × Int)
  deriving DecidableEq, Repr, Inhabited


/-- How a coding unit is split for prediction (R443: the encoder has no asymmetric split). -/
inductive ScSplit where
  | whole | across | down | quarters
  deriving DecidableEq, Repr

/-- A coding unit as a sketch core codes it (R443, R456, R461): its size, its split, the sizes of its transform blocks, whether it is intra and then
of mode DC, the merge index of a skip, whether it reads the short-term and the long-term reference, the first luma column right of every
reference sample it reads (interpolation taps included), and whether it has a residual. -/
structure ScCu where
  size : Nat
  split : ScSplit
  blocks : List Nat
  intra : Bool
  dc : Bool
  skip : Option Nat
  short : Bool
  long : Bool
  reach : Nat
  residual : Bool
  deriving DecidableEq, Repr

/-- A CTU as a sketch core codes it: its QP (R458), its coding units, its bytes in the bitstream. What H.265 leaves to the encoder is in the
operands. -/
structure ScCtu where
  qp : Nat
  units : List ScCu
  bytes : List Byte
  deriving DecidableEq, Repr

/-- The commands of the block: one constructor per row of the opcode table. -/
inductive Instr where
  /-- REGISTER_WRITE (R642): A host write to a BAR0 register that has no row of its own; a field that refuses it refuses the whole write and sets the block's refusal flag. -/
  | registerWrite (off v : Nat)
  /-- BAD_ACCESS (R640): A BAR0 access of the wrong size or alignment, or a write to an unassigned offset, is discarded, sets bad_access and is counted. -/
  | badAccess (read : Bool) (off size : Nat)
  /-- RC_FIELD_READ (R669): A read of a register holding RC fields returns each value and then clears it, or reloads a peak field with the current value. -/
  | rcFieldRead (off : Nat)
  /-- LATCHED_GROUP_READ (R643): A read of the first word of a read-only LO/HI pair or group copies the other words into the latch, and frees a fault latch where one exists. -/
  | latchedGroupRead (off : Nat)
  /-- W1C_FLAG_CLEAR (R9): A write of 1 to a W1C flag clears it, unless a hardware set in the same cycle wins. -/
  | w1cFlagClear (off v : Nat)
  /-- GLB_EV_TEST_WRITE (R648): A write to GLB_EV_TEST raises EV_GLB_TEST with the written value as its payload. -/
  | glbEvTestWrite (v : Nat)
  /-- CHAIN_WRITE (R45): A producer writes an item into a stall chain, and the write waits while the chain is full. -/
  | chainWrite (k : Nat) (item : ChainItem)
  /-- CHAIN_READ (R46): A consumer reads a stall chain item, and the read waits while the chain is empty. -/
  | chainRead (k : Nat)
  /-- CHAIN_RELEASE (R47): A consumer releases every item before its read position, which frees their stages and clears its mark. -/
  | chainRelease (k : Nat)
  /-- CHAIN_MARK (R48): A consumer sets its single mark at its current read position. -/
  | chainMark (k : Nat)
  /-- CHAIN_REWIND (R48): A consumer moves its read position back to its mark, or to the oldest unreleased item when no mark is set. -/
  | chainRewind (k : Nat)
  /-- CHAIN_ABORT_ITEM (R51): A consumer that reaches an abort item discards its work on the packet, rewinds and releases the whole packet. -/
  | chainAbortItem (k : Nat)
  /-- PACE_SAMPLE (R57): Every 10 ms each meter of a powered domain counts handshakes over a gate of 1,024 REF25 cycles, and each half publishes its slowest, fastest and mean step codes. -/
  | paceSample (west east : List (Option Nat))
  /-- LINK_BLOCK_RECEIVE (R87): A 66-bit block arrives on a Barosh data lane and is checked for a valid header. -/
  | linkBlockReceive (g m : Nat) (b : LinkBlock)
  /-- FORWARDED_RUN_RECEIVE (R103): A home half receives a run of blocks forwarded over the bridge with its run tag, and deskews and descrambles it. -/
  | forwardedRunReceive (h g m n : Nat)
  /-- LANE_BLOCK_LOCK (R90): A lane gains block lock after 64 consecutive valid headers, and the group moves from LOCK to SKEW once all its lanes are locked. -/
  | laneBlockLock (g m : Nat)
  /-- LANE_LOCK_LOSS (R90): A lane sees 32 invalid headers within 1,024 blocks and loses lock, and a group in UP returns to LOCK. -/
  | laneLockLoss (g m : Nat)
  /-- ALIGN_RECEIVE (R100): An ALIGN marker arrives on a lane and is taken by the deskew procedure of the home half. -/
  | alignReceive (h g m : Nat) (payload : List Byte) (t : Nat)
  /-- DESKEW_MARKER_CYCLE (R106): At a marker read cycle the home half checks that every lane read its ALIGN with the expected count. -/
  | deskewMarkerCycle (h g : Nat) (reads : List (Option Nat))
  /-- BRL_GRP_CFG_WRITE (R115): A write to BRL_GRP_CFG is checked for rate, mode and open easel, refused whole on failure, and otherwise moves the group between OFF and BC. -/
  | brlGrpCfgWrite (g v : Nat)
  /-- BRL_TRAIN (R123): A write of train starts group training from BC or FAIL, with the heritage pre-emphasis writes and then LINK_START. -/
  | brlTrain (g : Nat)
  /-- BRL_CK_MEASURED (R84): CK is measured against REF25 and reaches clock-good, and the group moves to ADAPT or, when CK is off by more than 1%, to FAIL. -/
  | brlCkMeasured (g khz : Nat)
  /-- BRL_ADAPT_DONE (R122): The adaptation period ends, and the group holds CTLE and moves to LOCK. -/
  | brlAdaptDone (g ctle : Nat) (taps : List Nat)
  /-- BRL_SLEEP_RECEIVE (R117): SLEEP arrives on all lanes of a group in one block time, and the group enters SLEEP and keeps its taps and offsets. -/
  | brlSleepReceive (g : Nat)
  /-- BRL_CK_RESTART (R119): CK restarts on a sleeping group, and the group recovers through CLK to LOCK. -/
  | brlCkRestart (g : Nat)
  /-- BRL_CK_LOSS (R122): No CK edge arrives for 2 REF25 cycles, the group returns to CLK, and EV_BRL_DOWN is raised. -/
  | brlCkLoss (g : Nat)
  /-- TRAINING_TIMEOUT (R122): The group's training timer passes BRL_TRAIN_TIMEOUT, the group moves to FAIL, and EV_BRL_TRAIN_FAIL is raised. -/
  | trainingTimeout (g : Nat)
  /-- BRL_TEST_MODE_SET (R121): test_mode is set on an UP group whose easel is closed, TEST is sent, and the lanes switch to PRBS. -/
  | brlTestModeSet (g : Nat)
  /-- BRL_TEST_MODE_CLEAR (R121): test_mode is cleared, LINK_START is sent, and the group relocks from LOCK. -/
  | brlTestModeClear (g : Nat)
  /-- BRL_BC_SLEEP (R120): bc_sleep is set, BC_SLEEP is sent, and the back-channel stops. -/
  | brlBcSleep (g : Nat)
  /-- BRL_BC_WAKE (R120): A new BC command, or clearing bc_sleep, wakes the back-channel, and 64 commas are sent. -/
  | brlBcWake (g : Nat)
  /-- BC_CMD_GO (R114): A write of BRL_BC_CMD.go sends a READ or WRITE back-channel command, or ends it at once with no_return or bad_code. -/
  | bcCmdGo (g v : Nat)
  /-- BC_REG_REPLY (R116): A REG_REPLY arrives on L00 and completes the command in flight with a matching tag, or is discarded as stray. -/
  | bcRegReply (g : Nat) (payload : List Byte) (late : Bool)
  /-- BC_CMD_TIMEOUT (R114): No REG_REPLY arrives within 100 µs, and the command ends with timeout. -/
  | bcCmdTimeout (g : Nat)
  /-- FRAME_START_RECEIVE (R109): A frame-start stripe arrives and is checked, and a frame opens for the easel or is refused. -/
  | frameStartReceive (e : Nat) (fs0 fs1 fs2 : Option (List Byte))
  /-- ROW_STRIPE_RECEIVE (R96): A row stripe arrives with its header, data and trailer, is checked, and is reported to the frame tracker. -/
  | rowStripeReceive (e : Nat) (stripe : RowStripe)
  /-- FRAME_END_RECEIVE (R108): FRAME_END is accepted, the frame is HELD and ended, and the row count and frame check are compared. -/
  | frameEndReceive (e : Nat) (payload : List Byte)
  /-- ROW_REPORT (R146): The West frame tracker takes a row report, marks the row and adds its check, and settles an ended frame once no report is pending. -/
  | rowReport
  /-- FRAME_END_TIMEOUT (R145): The frame-end timeout expires, the frame ends with fe_missing, and EV_INTAKE_FE_TIMEOUT is raised. -/
  | frameEndTimeout (e : Nat)
  /-- SETTLE_NOTICE (R153): A consumer receives the settle notice of a frame and releases, holds or discards that frame's results by the visibility rule. -/
  | settleNotice (c : Consumer) (e serial : Nat)
  /-- EASEL_OPEN (R128): A write of 1 to EASEL_CTRL.open puts a closed easel into opening. -/
  | easelOpen (e : Nat)
  /-- EASEL_ADMISSION_CHECK (R131): The admission check compares the combined required step period with T_plan and the offered modes, and the easel opens or returns to closed. -/
  | easelAdmissionCheck (e : Nat)
  /-- EASEL_CLOSE (R130): A write of 0 to EASEL_CTRL.open moves the easel to closing, or cancels an open in progress. -/
  | easelClose (e : Nat)
  /-- EASEL_ABORT (R130): A write of EASEL_CTRL.abort scrapes every unsettled frame and closes the easel. -/
  | easelAbort (e : Nat)
  /-- TICKET_POST (R136): The TICKET_POST command posts an exposure ticket, which becomes pending in the current window or completes at once with BAD_TICKET or EASEL_CLOSED. -/
  | ticketPost (id : Nat)
  /-- TICKET_WINDOW_CLOSE (R138): The ticket window of frame N closes at c(N). -/
  | ticketWindowClose (e : Nat)
  /-- BRUSH_BAND_START (R134): A brush takes the next ready band and loads that easel's conditioning parameters. -/
  | brushBandStart (h : Nat) (full : List Nat)
  /-- TILE_CLOSE (R23): A fused tile's last sample leaves the brush, and its Tile Record with its CRC-32C is completed. -/
  | tileClose (e serial tile : Nat) (seen : Option (List Byte))
  /-- CANVAS_WRITE_DONE (R70): A fused tile and its record become readable in the canvas slot. -/
  | canvasWriteDone (e serial tile : Nat)
  /-- BLACK_ESTIMATE_DONE (R169): The row-source black estimate is complete, and brushes waiting at row 0 proceed. -/
  | blackEstimateDone (e serial : Nat) (waited : Bool)
  /-- COND_COMMIT (R178): A write of COND_COMMIT.go starts the check of the conditioning shadows, or is refused while pending. -/
  | condCommit (e : Nat)
  /-- COND_COMMIT_CHECK_DONE (R178): The conditioning commit check ends, and the set is accepted and pending or refused with cfg_bad or map_bad. -/
  | condCommitCheckDone (e : Nat)
  /-- COND_CAL (R185): The COND_CAL command requests a calibration run of one kind, forced or not. -/
  | condCal (id : Nat)
  /-- CAL_RUN_START (R187): A calibration run starts once its kind finds its frame-start, blank, meter sample or idle brushes. -/
  | calRunStart (kind target : Nat)
  /-- CAL_RUN_END (R181): A calibration run ends, and its result replaces its table at the next frame-start. -/
  | calRunEnd (kind target : Nat) (values : List Int)
  /-- CAL_DEFER_TIMEOUT (R184): A run waits past defer_ms and is given up, as BUSY or as a skipped automatic run. -/
  | calDeferTimeout (kind target : Nat)
  /-- PAL_COMMIT (R222): A write of PAL_COMMIT.go starts the check of an easel's palette shadows. -/
  | palCommit (e : Nat)
  /-- VIEW_COMMIT (R222): A write of VIEW_COMMIT.go starts the check of a view's shadows. -/
  | viewCommit (v : Nat)
  /-- COLOUR_COMMIT_CHECK_DONE (R223): A palette or view commit check ends within 2 µs, and the set is pending or refused with cfg_bad, slot_empty or cfg_refused. -/
  | colourCommitCheckDone (view : Bool) (n : Nat)
  /-- PAL_LOAD (R209): The PAL_LOAD command starts loading a palette image into an easel or view slot. -/
  | palLoad (id : Nat)
  /-- PAL_LOAD_COMPLETE (R209): The image has been moved and verified, and the load completes with 0x0000 or PAL_IMAGE_BAD. -/
  | palLoadComplete (id : Nat) (image : List Byte)
  /-- VIEW_PICTURE_START (R220): A view takes the next free ring slot for a new picture, or drops the picture when every slot is held. -/
  | viewPictureStart (v serial : Nat)
  /-- VIEW_PICTURE_DONE (R219): A view finishes writing a picture and its record into the ring slot. -/
  | viewPictureDone (v : Nat)
  /-- STATS_RECORD_POST (R230): A settled frame's statistics record is written to the host ring with a completion record, or is dropped when the ring is full. -/
  | statsRecordPost (e : Nat)
  /-- PACKER_TILE_TAKE (R243): A tile of a packed take becomes readable in the canvas, is given a sequence number and goes to its lane. -/
  | packerTileTake (h : Nat)
  /-- PACKER_TILE_COMMIT (R250): A lane finishes encoding a tile, writes the payload and then the header, and advances its commit pointer. -/
  | packerTileCommit (h l : Nat)
  /-- LANE_RING_RESUME (R249): Space is released in the lane ring, and the stalled lane resumes at the same bit. -/
  | laneRingResume (h l : Nat)
  /-- TILE_DECODE (R257): A decode unit rebuilds a packed tile from its bitstream. -/
  | tileDecode (h e serial : Nat) (rec payload : List Byte)
  /-- FRAME_RATIO_COMPUTE (R261): Once a packed frame is dry and fully committed, its pack ratio is computed and written to LZP_EASEL_RATIO. -/
  | frameRatioCompute (e serial : Nat)
  /-- HBM_STACK_READY (R269): Stack loading ends, the stack becomes ready, and waiting requests proceed. -/
  | hbmStackReady (k : Nat) (temp : Int)
  /-- HBM_ALL_BANK_REFRESH (R269): A pseudo-channel takes over new band delays during its all-bank refresh. -/
  | hbmAllBankRefresh (k pc : Nat)
  /-- HBM_CA_ALERT (R270): A command/address parity alert stops issue and replays the commands in the retry buffer. -/
  | hbmCaAlert (k pc : Nat) (replaying : Bool)
  /-- HBM_UNCORR_READ (R272): A read that stays uncorrectable after one retry is counted and latched, and its reader handles the data as damaged. -/
  | hbmUncorrRead (addr : Nat)
  /-- HBM_ROW_ACTIVATE (R273): A row activation updates the pseudo-channel's activation table. -/
  | hbmRowActivate (k pc bank row : Nat)
  /-- HBM_RH_WINDOW_RESET (R273): At each 32 ms boundary every activation count returns to 0. -/
  | hbmRhWindowReset
  /-- HBM_PLAN_COMMIT (R278): A write of HBM_PLAN_COMMIT.go evaluates the barring conditions and starts the plan check. -/
  | hbmPlanCommit
  /-- HBM_PLAN_CHECK_DONE (R278): The plan check ends, the plan takes effect or is refused, and the writes that waited are acted on. -/
  | hbmPlanCheckDone
  /-- CANVAS_HOLD_RELEASE (R285): A holder releases a canvas slot part, and the slot becomes FREE when no hold remains. -/
  | canvasHoldRelease (e slot part : Nat) (h : Holder)
  /-- MAG_INSERTION (R291): Presence has been high for 50 ms, and an enabled port powers the magazine and enters POWER. -/
  | magInsertion (p : Nat) (m : Magazine)
  /-- MAG_REMOVAL (R325): Presence has been low for 16 REF25 cycles, and the port drops its outputs, fails its operations and ends its takes. -/
  | magRemoval (p : Nat)
  /-- MAG_RAMP_DONE (R292): ramp_ms has elapsed in POWER, and initialisation starts. -/
  | magRampDone (p : Nat)
  /-- MAG_INIT_DONE (R293): Initialisation ends, and the port enters READY or FAULT by R289. -/
  | magInitDone (p : Nat)
  /-- MAG_RETRY (R292): A write of MAG_PORT_CTRL.retry leaves FAULT by cycling the magazine rail. -/
  | magRetry (p : Nat)
  /-- MAG_PORT_DISABLE (R292): A write of enable 0 with no take open turns the port OFF, and is refused while a take is open. -/
  | magPortDisable (p : Nat)
  /-- PFW_N_FALL (R323): PFW_N is recognised, recording stops, erases are reset, and the power-fail sequence starts on both ports. -/
  | pfwNFall
  /-- PFW_PROGRAMS_DRAINED (R323): Every program in progress has ended, the commit records of eligible frames are programmed, and the port enters HALT. -/
  | pfwProgramsDrained (p finished us : Nat)
  /-- PFW_N_RECOVER (R292): PFW_N has been high for 10 ms, and a halted port returns to INIT. -/
  | pfwNRecover
  /-- DIE_OP_ISSUE (R308): A free die takes the highest-class operation waiting for it. -/
  | dieOpIssue (p die : Nat)
  /-- DIE_OP_COMPLETE (R307): A program, read or erase on a die ends with its status. -/
  | dieOpComplete (p die : Nat) (r : DieResult)
  /-- SEGMENT_CLOSE (R302): A half closes a 1 MiB segment of one frame and sends it to its destination port. -/
  | segmentClose (e serial h : Nat)
  /-- ELASTIC_SPILL (R312): Canvas or lane-ring pressure moves unprogrammed data into the elastic region and releases its source. -/
  | elasticSpill (h : Nat)
  /-- LEDGER_GROUP_ISSUE (R339): Once the previous group has passed, the port programs the next group of reel ledger records in two copies. -/
  | ledgerGroupIssue (p : Nat)
  /-- LEDGER_SNAPSHOT (R346): When few ledger blocks are free and no take is open, the port writes a snapshot and erases older ledger blocks. -/
  | ledgerSnapshot (p : Nat)
  /-- TAKE_OPEN (R415): The TAKE_OPEN command checks an easel's take and, when every check passes, opens it in OPENING. -/
  | takeOpen (id : Nat)
  /-- TAKE_CLOSE (R419): The TAKE_CLOSE command moves the take to CLOSING, or reports the ending of an ENDED take. -/
  | takeClose (id : Nat)
  /-- READ_TILES (R423): The READ_TILES command reads committed tiles and their Tile Records into host memory. -/
  | readTiles (id : Nat)
  /-- READ_RANGE (R424): The READ_RANGE command reads whole frames or sidecar bytes into host memory. -/
  | readRange (id : Nat)
  /-- WRITE_SIDECAR (R425): The WRITE_SIDECAR command records a host file as sidecar segments with a SIDECAR group. -/
  | writeSidecar (id : Nat) (data : List Byte)
  /-- FLUSH (R428): The FLUSH command holds its ring until earlier commands end and the settled frames and open stripes are committed. -/
  | flush (id : Nat)
  /-- ABORT (R431): The ABORT command stops a target command before its point of no return. -/
  | abort (id : Nat)
  /-- QUEUE_RESET (R432): The QUEUE_RESET command completes every outstanding command of the target ring with ABORTED_BY_RESET. -/
  | queueReset (id : Nat)
  /-- MOUNT (R436): The MOUNT command replays the reel ledger, gleans and reconciles recovered takes, and mounts the reel. -/
  | mount (id : Nat)
  /-- UNMOUNT (R437): The UNMOUNT command drains the port's work, discards the reel key and returns the port to READY. -/
  | unmount (id : Nat)
  /-- FORMAT (R438): The FORMAT command writes a new reel of the named version, running R371. -/
  | format (id : Nat)
  /-- SANITIZE (R438): The SANITIZE command erases every block of the magazine and writes a sanitised header. -/
  | sanitize (id : Nat)
  /-- IDENTIFY_REEL (R440): The IDENTIFY_REEL command writes 256 bytes describing the reel to host memory. -/
  | identifyReel (id : Nat)
  /-- GET_LOG (R441): The GET_LOG command writes entries of a reel log to host memory. -/
  | getLog (id : Nat)
  /-- DOORBELL_POLL (R380): Every RING_POLL interval the part issues the read of the doorbell page. -/
  | doorbellPoll
  /-- DOORBELL_PAGE_RETURN (R380): The doorbell page returns whole, and the part acts on every word that changed since the previous poll. -/
  | doorbellPageReturn (page : Option (List Nat))
  /-- RING_ENABLE (R382): A write of enable 1 to RING_SQ_CFG sets the ring's head to 0 and puts it in WAIT_SESSION. -/
  | ringEnable (r v : Nat)
  /-- RING_DISABLE (R411): A write of enable 0 to RING_SQ_CFG disables the ring and closes its session, and is refused while commands are outstanding. -/
  | ringDisable (r v : Nat)
  /-- CQ_ENABLE (R391): A write of enable 1 to RING_CQ_CFG enables a completion queue with its tail at 0. -/
  | cqEnable (q v : Nat)
  /-- CQ_DISABLE (R391): A write of enable 0 to RING_CQ_CFG disables a completion queue, and is refused while anything names it. -/
  | cqDisable (q v : Nat)
  /-- DESCRIPTOR_FETCH (R385): A ring-engine turn issues a fetch read of up to 512 bytes of descriptors. -/
  | descriptorFetch
  /-- DESCRIPTOR_FETCH_RETURN (R384): Fetched descriptors return, or an error completion halts the ring with host_err. -/
  | descriptorFetchReturn (r : Nat) (data : Option (List Byte))
  /-- DESCRIPTOR_DECODE (R388): The ring engine decodes a descriptor and checks its queue, opcode, reserved bits and role. -/
  | descriptorDecode
  /-- FENCE_RELEASE (R390): Every earlier descriptor of the ring has ended, the fenced command starts, and decoding resumes. -/
  | fenceRelease (id : Nat)
  /-- NOP (R389): The NOP command completes at once with the count of outstanding commands. -/
  | nop (id : Nat)
  /-- COMPLETION_RECORD_WRITE (R393): The ring engine writes a completion record to its queue slot, or holds it when the queue is full. -/
  | completionRecordWrite (q : Nat)
  /-- EVENT_RECORD_WRITE (R396): The ring engine writes an event record to the event queue. -/
  | eventRecordWrite
  /-- EVQ_ENABLE (R670): The first write of RING_EVQ_CFG.enable 1 after a device reset writes the held event records ahead of later events. -/
  | evqEnable (v : Nat)
  /-- MSIX_MESSAGE_SEND (R399): A queue's records reach coal_count, and its MSI-X message is sent or its pending bit set. -/
  | msixMessageSend (q : Nat)
  /-- MSIX_COALESCE_TIMEOUT (R399): coal_us passes after a queue's first unsignalled record, and its message is sent. -/
  | msixCoalesceTimeout (q : Nat)
  /-- MSIX_VECTOR_UNMASK (R399): A vector is unmasked, and one message is sent for all the records it covers. -/
  | msixVectorUnmask (v : Nat)
  /-- FUNCTION_LEVEL_RESET (R378): A PCIe function-level reset resets RING and BARROW, closes sessions and discards unsent records. -/
  | functionLevelReset (moved : List (Nat × List Byte))
  /-- BARROW_CHANNEL_ENABLE (R406): A write of enable 1 to BARROW_CH_CTRL starts the channel fetching at BARROW_CH_HEAD. -/
  | barrowChannelEnable (c v : Nat)
  /-- BARROW_CHANNEL_DISABLE (R406): A write of enable 0 to BARROW_CH_CTRL stops the channel, and a started descriptor completes with BARROW_STOPPED. -/
  | barrowChannelDisable (c v : Nat) (moved : Nat) (data : List Byte)
  /-- BARROW_CHANNEL_RESTART (R406): A write of restart takes a halted channel back to RUN at BARROW_CH_HEAD. -/
  | barrowChannelRestart (c v : Nat)
  /-- BARROW_DESC_FETCH (R401): A channel reads its next barrow descriptor whole and records the doorbell count. -/
  | barrowDescFetch (c : Nat) (data : Option (List Byte))
  /-- BARROW_DESC_END (R406): A barrow descriptor's transfer ends, a record is posted if asked, and the channel fetches its link or parks. -/
  | barrowDescEnd (c : Nat) (data : List Byte) (err : Bool)
  /-- BARROW_CTRL_REREAD (R408): A parked channel re-reads the noted control word once, after a doorbell change. -/
  | barrowCtrlReread (c : Nat) (word : Option Nat)
  /-- SKETCH_OPEN (R468): The SKETCH_OPEN command checks and opens a stream context and allocates its buffers. -/
  | sketchOpen (id : Nat)
  /-- SKETCH_CLOSE (R469): The SKETCH_CLOSE command stops a context taking pictures and closes it. -/
  | sketchClose (id : Nat)
  /-- SKETCH_REFRESH (R470): The SKETCH_REFRESH command asks for an IDR or a sweep restart at the next picture. -/
  | sketchRefresh (id : Nat)
  /-- RC_DECODE (R473): The RC_DECODE command decodes an HEVC buffer from host memory into output pictures. -/
  | rcDecode (id : Nat) (data : List Byte)
  /-- VCD_SC_COMMIT (R478): A write of VCD_SC_COMMIT.go checks a context's shadows, and an open context accepts only a QP change. -/
  | vcdScCommit (x : Nat)
  /-- SKETCH_PICTURE_START (R450): A free core takes the queued picture whose row 0 became available first. -/
  | sketchPictureStart (k : Nat)
  /-- SKETCH_ROW_START (R449): A partition starts CTB row j once the view has written the lines it needs. -/
  | sketchRowStart (k : Nat)
  /-- SKETCH_ROW_DONE (R460): A coded CTB row is kept, or it and every later row of the partition are coded in floor mode. -/
  | sketchRowDone (k : Nat) (row floor : List ScCtu)
  /-- SKETCH_NAL_COMMIT (R462): A complete NAL unit is committed to the bitstream ring and offered to live delivery. -/
  | sketchNalCommit (x : Nat) (head : List Byte) (part : Option Nat) (last : Bool)
  /-- SKETCH_RING_RESUME (R462): Space is released in the bitstream ring, and the stalled core resumes. -/
  | sketchRingResume (x : Nat)
  /-- SKETCH_PUBLISH (R465): A settled access unit whose earlier pictures are done is written to the host ring with a completion record. -/
  | sketchPublish (x : Nat)
  /-- RAS_OUT_COMMIT (R501): A write of RAS_OUT_COMMIT.go checks an output's shadows for its next select point. -/
  | rasOutCommit (o : Nat)
  /-- RAS_FRAME_START (R484): An output's frame starts, and its lock state advances by the phase error. -/
  | rasFrameStart (o : Nat) (err : Int)
  /-- VREF_PULSE (R483): A V pulse of the digital video reference arrives, and the outputs and audio master locked to it track it. -/
  | vrefPulse (period : Nat)
  /-- RAS_REFERENCE_LOSS (R484): The reference is lost for 2 frame periods, or goes off rate, and a LOCKED output enters HOLDOVER. -/
  | rasReferenceLoss (o : Nat)
  /-- RAS_SELECT_POINT (R487): In ring mode the output chooses the newest qualifying picture, takes its hold and issues the primer fetches. -/
  | rasSelectPoint (o : Nat)
  /-- RAS_LINE_FETCH_DONE (R492): A line fetch completes into the line buffer, or is discarded when its line is already due. -/
  | rasLineFetchDone (o n : Nat)
  /-- RAS_LINE_DUE (R493): A raster line is due, and it is sent, or sent black with an underflow count. -/
  | rasLineDue (o : Nat) (vanc : Bool)
  /-- RAS_LIVE_LINE_ARRIVE (R488): In live mode a view line reaches the line buffer, or is discarded when it is late. -/
  | rasLiveLineArrive (o n : Nat)
  /-- RAS_REGION_PUSH (R500): The RAS_REGION_PUSH command sends a pixel region to a DSI panel in COMMAND mode. -/
  | rasRegionPush (id : Nat) (pixels : List Byte)
  /-- RAS_DCS (R500): The RAS_DCS command sends a DCS write or read to a DSI panel. -/
  | rasDcs (id : Nat)
  /-- RAS_DCS_REPLY (R500): A DCS read reply arrives, and the command completes with the bytes. -/
  | rasDcsReply (o : Nat) (data : List Byte)
  /-- RAS_DCS_REPLY_TIMEOUT (R500): No DCS read reply arrives within 1 ms, and the command completes with RAS_NO_REPLY. -/
  | rasDcsReplyTimeout (o : Nat)
  /-- AUDIO_MASTER_SAMPLE (R512): At each master sample instant every port supplies one word per channel, and an audio frame is formed. -/
  | audioMasterSample (err : Int) (boundary : Bool)
  /-- AUD_TDM_FRAME_RECEIVE (R512): A TDM input frame arrives into the port FIFO, or is replaced by zeros when it is a frame error. -/
  | audTdmFrameReceive (p bits : Nat) (slots : List Nat) (ratio : Nat)
  /-- AUD_AES_FRAME_RECEIVE (R515): An AES3 frame arrives, and its channel status is captured and checked. -/
  | audAesFrameReceive (a : Nat) (f : AesFrame)
  /-- AUD_PORT_ENABLE (R510): A write of enable to an audio port moves it between OFF and UNLOCKED. -/
  | audPortEnable (u v : Nat)
  /-- AUD_MASK_ARM (R514): A write of arm schedules mask_next for the next input frame start. -/
  | audMaskArm (u v : Nat)
  /-- AUD_REC_RUN_START (R521): A write of run 1 starts recording at the next 256-period boundary. -/
  | audRecRunStart
  /-- AUD_REC_RUN_STOP (R521): A write of run 0 lets the block in progress complete as the last. -/
  | audRecRunStop
  /-- AUD_ZC_TIMEOUT (R523): No zero crossing comes within 5 ms, and the output slot switches anyway. -/
  | audZcTimeout (k slot : Nat)
  /-- AUD_MASTER_REFERENCE_LOSS (R505): The audio master loses its lock source and enters HOLDOVER. -/
  | audMasterReferenceLoss
  /-- PTP_SYNC_RECEIVE (R529): A Sync from the master gives an offset, which advances the time base's lock state or steps it once. -/
  | ptpSyncReceive (offset : Int)
  /-- PTP_ANNOUNCE_RECEIVE (R529): An Announce message feeds the BMCA's choice of master. -/
  | ptpAnnounceReceive (a : Announce)
  /-- PTP_ANNOUNCE_TIMEOUT (R529): The announce receipt timeout passes, or no Sync comes for 1 s, and the time base enters HOLDOVER. -/
  | ptpAnnounceTimeout
  /-- PTP_RESTEP (R530): A write of NET_PTP_CTRL.restep re-arms the step and returns to LISTEN, unless it is barred. -/
  | ptpRestep
  /-- NET_SEND (R532): The NET_SEND command queues a host frame for a port, with an optional launch time. -/
  | netSend (id : Nat) (data : List Byte)
  /-- NET_FRAME_LAUNCH (R533): A queued host frame's launch time arrives, and the frame starts on the wire. -/
  | netFrameLaunch (id : Nat) (late : Bool)
  /-- NET_FRAME_TX_DONE (R534): A host frame's last bit leaves, its transmit stamp is queued or dropped, and NET_SEND completes. -/
  | netFrameTxDone (id : Nat)
  /-- NET_TXTS_READ (R534): A read of NET_TXTS0 removes the oldest transmit stamp and latches the rest of it. -/
  | netTxtsRead
  /-- NET_FRAME_RECEIVE (R535): A received frame is stamped and goes to the receive ring with a completion record, or is dropped when the ring is full. -/
  | netFrameReceive (port : Nat) (data : List Byte)
  /-- NET_LINK_CHANGE (R546): A port's link changes, EV_NET_LINK is raised, and frames awaiting launch fail when it is lost. -/
  | netLinkChange (port : Nat) (up : Bool)
  /-- NET_SENDER_PACKET (R538): An ST 2110 sender packet reaches its launch time and is sent. -/
  | netSenderPacket (n : Nat)
  /-- NET_SND_COMMIT (R536): A write of NET_SND_COMMIT.go checks a sender's registers for the next frame alignment. -/
  | netSndCommit (n : Nat)
  /-- NET_LTC_FRAME_RECEIVE (R543): A valid LTC frame is received into the timecode count. -/
  | netLtcFrameReceive (count : Nat) (rateOk : Bool)
  /-- NET_LTC_FREEWHEEL_EXPIRE (R543): LTC has been absent for the freewheel count, the count holds, and ltc_lost is set. -/
  | netLtcFreewheelExpire
  /-- PWR_ON_WRITE (R550): A write to PWR_ON switches domains on or off, and is refused for busy domains. -/
  | pwrOnWrite (v : Nat)
  /-- PWR_SWITCH_OPEN (R551): 16 REF25 cycles after a domain's reset, its power switch opens. -/
  | pwrSwitchOpen (d : Nat)
  /-- RESET_SEQUENCE_STEP (R552): The count of a release step runs out, its domains are released, and the next step begins. -/
  | resetSequenceStep (src : Nat)
  /-- POWER_ON_RESET (R555): Power-on reset clears RST_CAUSE, sets por and resets every domain and the bell arbiter. -/
  | powerOnReset
  /-- RAIL_OUT_OF_RANGE (R658): A supply rail leaves its range, and the power-on reset asserts again. -/
  | railOutOfRange
  /-- RESET_N_ASSERT (R555): RESET_N goes low and resets the whole device. -/
  | resetNAssert
  /-- RESET_N_RELEASE (R561): RESET_N goes high, and the device release sequence runs. -/
  | resetNRelease
  /-- DIODE_COMPARATOR_READ (R592): Every 10 µs the trip and release comparators of the 16 diodes are read. -/
  | diodeComparatorRead (hot cool : List Bool)
  /-- THERMAL_TRIP_RELEASE (R592): Every release comparator has read below 95 °C for 1 s, and the trip is released. -/
  | thermalTripRelease
  /-- KEEPER_WATCHDOG_EXPIRE (R571): A keeper's watchdog expires without a restart and asserts that half's reset. -/
  | keeperWatchdogExpire (h : Nat)
  /-- HALF_RESET_REQUEST (R558): A write of RST_HALF_REQ latches a half reset request, or is refused. -/
  | halfResetRequest (v : Nat)
  /-- HALF_RESET_ASSERT (R18): A half reset asserts, scrapes open and held frames, and ends that half's commands and takes. -/
  | halfResetAssert (h : Nat)
  /-- HALF_RESET_RELEASE (R556): After 1,024 cycles the half reset ends, and the half's release sequence starts. -/
  | halfResetRelease (h : Nat)
  /-- RST_DOMAIN_WRITE (R559): A write to RST_DOMAIN holds domains in reset or releases them, and is refused for protected domains. -/
  | rstDomainWrite (v : Nat)
  /-- BLOCK_RESET_REQUEST (R565): A write of RST_BLOCK_CTRL.go sends an idle request to a block. -/
  | blockResetRequest (v : Nat)
  /-- BLOCK_IDLE_REPORT (R565): The block reports idle, and it is reset. -/
  | blockIdleReport
  /-- BLOCK_IDLE_TIMEOUT (R566): RST_IDLE_TIMEOUT passes without idle, the block is reset anyway, and its work completes with BLOCK_RESET. -/
  | blockIdleTimeout
  /-- BLOCK_RESET_RELEASE (R565): 16 REF25 cycles after its reset the block is released. -/
  | blockResetRelease
  /-- BLOCK_FORCE_RELEASE (R569): A write of RST_BLOCK_CTRL.force releases a block without clock-good, which enters HELD_FAULT when clock-good is low. -/
  | blockForceRelease (v : Nat)
  /-- CLOCK_GOOD_RISE (R568): A clocked edge block's clock has locked and counted 256 cycles, and a pending release takes effect. -/
  | clockGoodRise (b : Nat)
  /-- CLOCK_LOCK_LOSS (R568): A clocked edge block's source loses lock, and clock-good falls. -/
  | clockLockLoss (b : Nat)
  /-- KEEPER_HEARTBEAT_SEND (R571): Every 1 ms a keeper sends its heartbeat on both paths and restarts its watchdog. -/
  | keeperHeartbeatSend (h : Nat)
  /-- KEEPER_HEARTBEAT_RECEIVE (R575): A keeper receives the other half's heartbeat, which resets its absence count and may settle a half in quiet. -/
  | keeperHeartbeatReceive (h path : Nat)
  /-- HEARTBEAT_ABSENCE_TIMEOUT (R573): No heartbeat of the stallholder arrives on either path for 8 ms, or 30 ms after a reload notice, and the neighbour fences. -/
  | heartbeatAbsenceTimeout (h : Nat)
  /-- FENCE_RESET_RELEASE (R555): After 256 REF25 cycles the fenced keeper is released and restarts. -/
  | fenceResetRelease (h : Nat)
  /-- KEEPER_START (R572): A keeper starts and asks the arbiter who holds the bell, and becomes stallholder, neighbour or quiet. -/
  | keeperStart (h : Nat)
  /-- BELL_CONFIRM (R572): A keeper confirms the bell before an authority act, and a failed confirmation puts its half in quiet. -/
  | bellConfirm (h : Nat)
  /-- BELL_HANDOVER (R577): A write of AUTH_CTRL.handover moves the bell to the neighbour without a fence, unless it is barred. -/
  | bellHandover
  /-- THERMAL_SAMPLE (R586): Each thermal sample advances the model, checks the diodes, computes T_j and evaluates the stage table. -/
  | thermalSample (nodes diodes : List Int) (past : Option Int) (stackTemps halves : List Int) (recent : List Bool) (late : Bool)
  /-- THERMAL_GRACE_EXPIRE (R591): The grace time runs out, and the stage enters ENFORCE or a new grace time starts. -/
  | thermalGraceExpire
  /-- THERMAL_SHED_STEP_EXPIRE (R591): shed_step passes at or above 100 °C in ENFORCE, and the shed level rises by one. -/
  | thermalShedStepExpire
  /-- THERMAL_RELEASE_EXPIRE (R591): T_j has stayed below 95 °C for the release time, ENFORCE ends, and shed items return. -/
  | thermalReleaseExpire
  /-- SHED_COMMAND_RECEIVE (R596): A half receives a shed command from the bell holder and carries it out. -/
  | shedCommandReceive (h : Nat)
  /-- AGE_POWERED_HOUR (R597): Each powered hour the count advances, and the bell holder writes the hour and mark records. -/
  | agePoweredHour
  /-- AGE_SAMPLE (R598): A daily ageing sample normalises the meter period to the reference point and records the drift, or is skipped. -/
  | ageSample (h : Nat) (steady : Bool)
  /-- AGE_PLAN_RUN (R602): The margin plan sets the offered modes, the plan voltage and T_plan. -/
  | agePlanRun
  /-- AGE_MODE_WRITE (R601): A write to AGE_MODE records the entry in the device ledger and reruns the plan. -/
  | ageModeWrite (m v : Nat)
  /-- AGE_VOLTAGE_LOWER (R603): A lower plan voltage that waited is requested once no take is open. -/
  | ageVoltageLower
  /-- AGE_BOOST_END (R604): The period has stayed below 0.90 of the code for 1 s, and the voltage returns to the plan. -/
  | ageBoostEnd
  /-- AVS_VOLTAGE_REPORT (R660): The regulator reports the new core voltage in range, and it is in force with T_plan updated. -/
  | avsVoltageReport (mv : Nat)
  /-- AVS_REPORT_TIMEOUT (R662): A voltage write stays unreported, and a waiting admission check runs with the longer T_wc. -/
  | avsReportTimeout (e : Nat)
  /-- FRAME_DEADLINE (R607): D(F) passes with tiles of F not readable, the frame gets the deadline fault and becomes DAMAGED. -/
  | frameDeadline (e serial : Nat)
  /-- SES_CHALLENGE (R614): A write of SES_REQ.challenge issues a nonce for a ring and role, or gives a refusal result. -/
  | sesChallenge (v elapsed : Nat)
  /-- SES_ANSWER (R614): A write of SES_REQ.answer compares the MAC and opens the session or counts a failure. -/
  | sesAnswer (v : Nat) (late : Bool)
  /-- SES_CLOSE (R615): A write of SES_REQ.close closes the ring's session. -/
  | sesClose (v : Nat)
  /-- RNG_HEALTH_FAIL (R612): The entropy health tests fail, the random source stops, and EV_SES_RNG_FAIL is raised. -/
  | rngHealthFail
  /-- KEY_SET (R619): The KEY_SET command unwraps and stores a role or production key. -/
  | keySet (id : Nat)
  /-- KEY_ERASE (R620): The KEY_ERASE command erases a role or production key. -/
  | keyErase (id : Nat)
  /-- KEY_LIST (R620): The KEY_LIST command writes the production key IDs to host memory. -/
  | keyList (id : Nat)
  /-- FW_STAGE (R626): The FW_STAGE command checks an image and writes it to the inactive slot. -/
  | fwStage (id : Nat) (data nor : List Byte)
  /-- FW_ACTIVATE (R630): The FW_ACTIVATE command holds submissions and drains the device to activate the staged image. -/
  | fwActivate (id : Nat)
  /-- FW_DRAIN_DONE (R630): The drain completes, the boot record is written, and the keepers are reloaded. -/
  | fwDrainDone
  /-- FW_DRAIN_TIMEOUT (R630): The drain limit passes, and FW_ACTIVATE completes with DRAIN_TIMEOUT. -/
  | fwDrainTimeout
  /-- FW_CONFIRM (R632): The FW_CONFIRM command burns the rollback and revoke fuses and ends the trial. -/
  | fwConfirm (id : Nat)
  /-- LEDGER_READ (R620): The LEDGER_READ command writes device ledger records to host memory. -/
  | ledgerRead (id : Nat)
  /-- BOARD_CFG_WRITE (R623): The BOARD_CFG_WRITE command replaces the board configuration area. -/
  | boardCfgWrite (id : Nat) (data : List Byte)
  /-- FIRMWARE_BOOT (R628): After a device reset the boot procedure chooses a slot, falls back or enters recovery, and loads both keepers. -/
  | firmwareBoot (single bad : List Nat)
  /-- DEVICE_LEDGER_WRITE (R635): The stallholder writes a ledger record to both copy areas and verifies each copy. -/
  | deviceLedgerWrite (fail0 fail1 : Nat)
  /-- DEVICE_LEDGER_RECLAIM (R637): An area short of free sectors has its oldest sector rewritten and erased. -/
  | deviceLedgerReclaim
  /-- RAILS_IN_RANGE (R656): Every supply rail comes into range, the power-on reset ends, and step 1 of the release sequence is reached. -/
  | railsInRange
  /-- HBM_CA_ALERT_CLEAR (R270): The stack's parity alert clears, and the controller reissues in order every command in the retry buffer that the alert may cover. -/
  | hbmCaAlertClear (k pc : Nat) (covered : Nat)
  /-- LANE_PRBS_RECEIVE (R121): In test mode a lane's checker receives the raw PRBS pattern, synchronises within 64 bits and counts bit errors and bits checked. -/
  | lanePrbsReceive (g m : Nat) (bits : List Bool)
  /-- DSI_SETUP_SENT (R499): The keeper finishes sending the board-configured panel set-up with its delays, and the DSI port moves from INIT to COMMAND. -/
  | dsiSetupSent (o : Nat)
  /-- RAS_PUSH_DONE (R500): The last packet of a region push leaves the DSI port, the push completes, and a pending switch to VIDEO may proceed. -/
  | rasPushDone (o : Nat)
  /-- VCD_SC_COMMIT_CHECK_DONE (R478): The stream context commit check ends within 2 us, and the set takes effect for a closed context or is refused with cfg_bad. -/
  | vcdScCommitCheckDone (x : Nat)
  /-- RAS_OUT_COMMIT_CHECK_DONE (R501): The output commit check ends within 2 us, and an OFF output takes the set at once, or the set is refused with cfg_bad. -/
  | rasOutCommitCheckDone (o : Nat)
  /-- NET_SND_FRAME_ALIGNMENT (R537): A sender's frame alignment on the PTP grid arrives, and a kind 0 sender selects its picture and takes any pending commit. -/
  | netSndFrameAlignment (n : Nat)
  /-- LTC_OUT_FRAME_START (R544): At the alignment time plus ltc_ofs the LTC output starts sending bit 0 of the next LTC frame carrying the count. -/
  | ltcOutFrameStart
  deriving DecidableEq, Repr

end Sys2Proof
end

