-- ==== Sys2Proof/Decode.lean ====
section
/-! DEFINITION. The command a word spells. The block decodes no instruction words: the table gives no row any bits. -/
namespace Sys2Proof

/-- spec/opcode_table.json gives no row a word or a field, so no word spells a command. -/
def decodeTableWord (nbits w : Nat) : Option Instr :=
  let _ := nbits
  let _ := w
  none

end Sys2Proof
end

