-- ==== Sys2Proof/Machine/Operands.lean ====
section
/-! DEFINITION. Operand forms: bit fields, little-endian byte strings, signed fields, list places, rounding. -/
namespace Sys2Proof.Machine

/-- Bits hi down to lo of a number. -/
def bitsOf (n hi lo : Nat) : Nat := n / 2 ^ lo % 2 ^ (hi + 1 - lo)

/-- Bit k of a number. -/
def bitOf (n k : Nat) : Bool := n / 2 ^ k % 2 == 1

/-- 1 for true, 0 for false. -/
def b2n (b : Bool) : Nat := if b then 1 else 0

/-- A number with bit k set or cleared. -/
def setBit (n k : Nat) (v : Bool) : Nat := n - b2n (bitOf n k) * 2 ^ k + b2n v * 2 ^ k

/-- The k low bytes of n, least significant first: the byte order of every record of the manual (R28, R392). -/
def le (k n : Nat) : List Byte :=
  match k with
  | 0 => []
  | k + 1 => BitVec.ofNat 8 n :: le k (n / 256)

/-- The number a little-endian byte string spells. -/
def ofLe : List Byte → Nat
  | [] => 0
  | b :: bs => b.toNat + 256 * ofLe bs

/-- The number a big-endian byte string spells. -/
def ofBe (bs : List Byte) : Nat := ofLe bs.reverse

/-- The k bytes of n, most significant first. -/
def be (k n : Nat) : List Byte := (le k n).reverse

/-- Bytes a to a + k - 1 of a byte string, read past its end as zero. -/
def bytesAt (bs : List Byte) (a k : Nat) : List Byte :=
  (List.range k).map fun i => bs.getD (a + i) 0

/-- The little-endian field of k bytes at byte a (R387). -/
def fieldAt (bs : List Byte) (a k : Nat) : Nat := ofLe (bytesAt bs a k)

/-- True when every byte from a to b (b left out) is zero. -/
def zeroBytes (bs : List Byte) (a b : Nat) : Bool := (bytesAt bs a (b - a)).all (· == 0)

/-- A byte string with zero bytes after it up to length k. -/
def padTo (k : Nat) (bs : List Byte) : List Byte := bs ++ List.replicate (k - bs.length) 0

/-- The signed number in the w low bits of n (two's complement). -/
def toSigned (w n : Nat) : Int := if 2 * (n % 2 ^ w) < 2 ^ w then (n % 2 ^ w : Nat) else (n % 2 ^ w : Nat) - (2 ^ w : Nat)

/-- A signed number as the w bits that hold it. -/
def ofSigned (w : Nat) (v : Int) : Nat := (v % (2 ^ w : Nat)).toNat

/-- A number held within a range. -/
def clampInt (lo hi v : Int) : Int := if v < lo then lo else if hi < v then hi else v

/-- The quotient rounded up. -/
def ceilDiv (a b : Nat) : Nat := (a + b - 1) / b

/-- The quotient rounded to nearest, ties upward. -/
def roundDiv (a b : Nat) : Nat := (2 * a + b) / (2 * b)

/-- A list with entry k replaced by f of it. -/
def updAt {α : Type} (l : List α) (k : Nat) (f : α → α) : List α := l.modify k f

/-- Split a list into pieces of k entries. The first argument bounds the number of pieces. -/
def pieces {α : Type} : Nat → Nat → List α → List (List α)
  | 0, _, _ => []
  | n + 1, k, l => l.take k :: pieces n k (l.drop k)

/-- The entries of a list with their places. -/
def withIndex {α : Type} (l : List α) : List (Nat × α) := (List.range l.length).zip l

/-- The least number of a nonempty list, and 0 of the empty one. -/
def listMin : List Nat → Nat
  | [] => 0
  | x :: xs => xs.foldl min x

/-- The greatest number of a list, and 0 of the empty one. -/
def listMax (l : List Nat) : Nat := l.foldl max 0

/-- The middle of a sorted list: for an even count the mean of the two middle entries, doubled so that it stays whole. -/
def median2 (sorted : List Nat) : Nat :=
  let n := sorted.length
  if n = 0 then 0
  else if n % 2 = 1 then 2 * sorted.getD (n / 2) 0
  else sorted.getD (n / 2 - 1) 0 + sorted.getD (n / 2) 0

/-- Insert into a list in rising order. -/
def insertSorted (x : Nat) : List Nat → List Nat
  | [] => [x]
  | y :: ys => if x ≤ y then x :: y :: ys else y :: insertSorted x ys

/-- A list in rising order. -/
def sortNat (l : List Nat) : List Nat := l.foldr insertSorted []

/-- An exact quotient, kept as a numerator and a positive denominator: the manual's real-number formulas (R131, R598). -/
abbrev Frac := Int × Nat

def Frac.ofNat (n : Nat) : Frac := (n, 1)
def Frac.mk' (n d : Nat) : Frac := (n, d)
def Frac.add (a b : Frac) : Frac := (a.1 * b.2 + b.1 * a.2, a.2 * b.2)
def Frac.sub (a b : Frac) : Frac := (a.1 * b.2 - b.1 * a.2, a.2 * b.2)
def Frac.mul (a b : Frac) : Frac := (a.1 * b.1, a.2 * b.2)
/-- The quotient by a positive number. -/
def Frac.div (a b : Frac) : Frac := (a.1 * b.2, a.2 * b.1.toNat)
def Frac.lt (a b : Frac) : Bool := decide (a.1 * b.2 < b.1 * a.2)
def Frac.le (a b : Frac) : Bool := decide (a.1 * b.2 ≤ b.1 * a.2)
def Frac.min (a b : Frac) : Frac := if Frac.le a b then a else b
def Frac.max (a b : Frac) : Frac := if Frac.le a b then b else a
/-- The whole number at or below. -/
def Frac.floor (a : Frac) : Int := a.1 / a.2
/-- The whole number at or above. -/
def Frac.ceil (a : Frac) : Int := -((-a.1) / a.2)
/-- The nearest whole number, ties upward. -/
def Frac.round (a : Frac) : Int := (2 * a.1 + a.2) / (2 * a.2 : Nat)
def Frac.abs (a : Frac) : Frac := (a.1.natAbs, a.2)

/-- The same quotient in lowest terms. -/
def Frac.norm (a : Frac) : Frac := (a.1 / (Nat.gcd a.1.natAbs a.2 : Nat), a.2 / Nat.gcd a.1.natAbs a.2)
def Frac.neg (a : Frac) : Frac := (-a.1, a.2)
/-- Equal as quotients. -/
def Frac.eq (a b : Frac) : Bool := decide (a.1 * b.2 = b.1 * a.2)
/-- A quotient times or divided by a power of two. -/
def Frac.shr (a : Frac) (k : Nat) : Frac := (a.1, a.2 * 2 ^ k)

/-- A quotient of naturals rounded to nearest, ties to even. -/
def rneDiv (n d : Nat) : Nat :=
  let q := n / d
  let r := n % d
  if 2 * r < d then q else if d < 2 * r then q + 1 else q + q % 2

/-- The nearest whole number, ties to even. -/
def Frac.rne (a : Frac) : Int := if a.1 < 0 then -(rneDiv a.1.natAbs a.2 : Nat) else (rneDiv a.1.natAbs a.2 : Nat)

/-- The exponent e with 2^e ≤ n ÷ d < 2^(e + 1), for positive n and d. -/
def quotExp (n d : Nat) : Int :=
  let e : Int := (Nat.log2 n : Int) - Nat.log2 d
  let below := if 0 ≤ e then decide (n < d * 2 ^ e.toNat) else decide (n * 2 ^ (-e).toNat < d)
  if below then e - 1 else e

/-- A positive quotient rounded to 24 significant bits, ties to even, flushed to zero when subnormal (R159). -/
def fpMag (n d : Nat) : Nat × Nat :=
  let e := quotExp n d
  let k := 23 - e
  if e < -126 then (0, 1)
  else if 0 ≤ k then (rneDiv (n * 2 ^ k.toNat) d, 2 ^ k.toNat)
  else (rneDiv n (d * 2 ^ (-k).toNat) * 2 ^ (-k).toNat, 1)

/-- A quotient rounded to IEEE 754 binary32 as R159 sets it out. -/
def fp (a : Frac) : Frac :=
  if a.1 = 0 then (0, 1)
  else
    let m := fpMag a.1.natAbs a.2
    if a.1 < 0 then Frac.norm (-(m.1 : Int), m.2) else Frac.norm ((m.1 : Int), m.2)

/-- The value of a binary32 pattern; none for an infinity or a NaN. A subnormal pattern reads as zero (R159). -/
def fpOfBits (w : Nat) : Option Frac :=
  let e := bitsOf w 30 23
  let m := bitsOf w 22 0 + 2 ^ 23
  let sgn : Int := if bitOf w 31 then -1 else 1
  if e = 255 then none
  else if e = 0 then some (0, 1)
  else if 150 ≤ e then some (sgn * (m * 2 ^ (e - 150) : Nat), 1)
  else some (Frac.norm (sgn * (m : Nat), 2 ^ (150 - e)))

/-- The binary32 pattern of a value that has one. -/
def bitsOfFp (a : Frac) : Nat :=
  if a.1 = 0 then 0
  else
    let e := quotExp a.1.natAbs a.2
    let k := 23 - e
    let m := if 0 ≤ k then a.1.natAbs * 2 ^ k.toNat / a.2 else a.1.natAbs / (a.2 * 2 ^ (-k).toNat)
    (if a.1 < 0 then 2 ^ 31 else 0) + (e + 127).toNat * 2 ^ 23 + (m - 2 ^ 23)

/-- A binary32 gain within a range. -/
def fpWithin (w : Nat) (lo hi : Frac) : Bool :=
  match fpOfBits w with
  | some v => Frac.le lo v && Frac.le v hi
  | none => false

end Sys2Proof.Machine
end

