-- ==== Sys2Proof/Machine/Crypto.lean ====
section
/-! DEFINITION. The published algorithms the manual names: SHA-256 and HMAC (R613), AES-256 (R367), AES Key Wrap by RFC 3394
(R368, R617, R619), and AES-256-XTS by IEEE 1619 (R367). -/
namespace Sys2Proof.Machine

/-! ### SHA-256 and HMAC -/

/-- The greatest r with r ^ n at most v, its bits from k - 1 down found in turn. -/
def rootDown (n v : Nat) : Nat → Nat → Nat
  | 0, r => r
  | k + 1, r => rootDown n v k (if (r + 2 ^ k) ^ n ≤ v then r + 2 ^ k else r)

/-- The primes up to 311, of which there are 64. -/
def smallPrimes : List Nat := (List.range 312).filter fun p => decide (1 < p) && (List.range 18).all fun d => decide (d < 2) || d == p || p % d != 0

/-- The first 32 bits of the fractional part of the n-th root of a prime (FIPS 180-4, which the manual names). -/
def rootWord (n p : Nat) : BitVec 32 := BitVec.ofNat 32 (rootDown n (p * 2 ^ (32 * n)) 37 0)

/-- The constants of the rounds, from the cube roots of the first 64 primes. -/
def roundWords : List (BitVec 32) := smallPrimes.map (rootWord 3)

/-- The first hash value, from the square roots of the first 8 primes. -/
def shaStart : List (BitVec 32) := (smallPrimes.take 8).map (rootWord 2)

/-- The message schedule, newest word first. -/
def shaSchedule : Nat → List (BitVec 32) → List (BitVec 32)
  | 0, w => w
  | n + 1, w =>
    let a := w.getD 14 0
    let b := w.getD 1 0
    let s0 := a.rotateRight 7 ^^^ a.rotateRight 18 ^^^ (a >>> 3)
    let s1 := b.rotateRight 17 ^^^ b.rotateRight 19 ^^^ (b >>> 10)
    shaSchedule n ((w.getD 15 0 + s0 + w.getD 6 0 + s1) :: w)

/-- One round: the eight working words, and the constant plus the schedule word. -/
def shaRound (v : List (BitVec 32)) (kw : BitVec 32) : List (BitVec 32) :=
  let a := v.getD 0 0
  let e := v.getD 4 0
  let s1 := e.rotateRight 6 ^^^ e.rotateRight 11 ^^^ e.rotateRight 25
  let ch := (e &&& v.getD 5 0) ^^^ (~~~e &&& v.getD 6 0)
  let t1 := v.getD 7 0 + s1 + ch + kw
  let s0 := a.rotateRight 2 ^^^ a.rotateRight 13 ^^^ a.rotateRight 22
  let maj := (a &&& v.getD 1 0) ^^^ (a &&& v.getD 2 0) ^^^ (v.getD 1 0 &&& v.getD 2 0)
  [t1 + (s0 + maj), a, v.getD 1 0, v.getD 2 0, v.getD 3 0 + t1, e, v.getD 5 0, v.getD 6 0]

/-- One block of 64 bytes. -/
def shaBlock (h : List (BitVec 32)) (b : List Byte) : List (BitVec 32) :=
  let w0 := (pieces 16 4 b).map fun x => BitVec.ofNat 32 (ofBe x)
  let w := (shaSchedule 48 w0.reverse).reverse
  let v := (List.zipWith (fun k x => k + x) roundWords w).foldl shaRound h
  List.zipWith (fun x y => x + y) h v

/-- SHA-256. -/
def sha256 (m : List Byte) : List Byte :=
  let zeros := (119 - m.length % 64) % 64
  let p := m ++ [0x80#8] ++ List.replicate zeros (0 : Byte) ++ be 8 (8 * m.length)
  ((pieces (p.length / 64) 64 p).foldl shaBlock shaStart).flatMap fun x => be 4 x.toNat

/-- HMAC-SHA-256 under a key of at most 64 bytes. -/
def hmac (key m : List Byte) : List Byte :=
  let k := padTo 64 key
  sha256 (k.map (· ^^^ 0x5c#8) ++ sha256 (k.map (· ^^^ 0x36#8) ++ m))

/-! ### AES-256 -/

/-- The substitution box of FIPS 197 and its inverse, 16 bytes to a row. -/
def sboxRows : List Nat :=
  [0x637C777BF26B6FC53001672BFED7AB76, 0xCA82C97DFA5947F0ADD4A2AF9CA472C0, 0xB7FD9326363FF7CC34A5E5F171D83115, 0x04C723C31896059A071280E2EB27B275,
   0x09832C1A1B6E5AA0523BD6B329E32F84, 0x53D100ED20FCB15B6ACBBE394A4C58CF, 0xD0EFAAFB434D338545F9027F503C9FA8, 0x51A3408F929D38F5BCB6DA2110FFF3D2,
   0xCD0C13EC5F974417C4A77E3D645D1973, 0x60814FDC222A908846EEB814DE5E0BDB, 0xE0323A0A4906245CC2D3AC629195E479, 0xE7C8376D8DD54EA96C56F4EA657AAE08,
   0xBA78252E1CA6B4C6E8DD741F4BBD8B8A, 0x703EB5664803F60E613557B986C11D9E, 0xE1F8981169D98E949B1E87E9CE5528DF, 0x8CA1890DBFE6426841992D0FB054BB16]
def invSboxRows : List Nat :=
  [0x52096AD53036A538BF40A39E81F3D7FB, 0x7CE339829B2FFF87348E4344C4DEE9CB, 0x547B9432A6C2233DEE4C950B42FAC34E, 0x082EA16628D924B2765BA2496D8BD125,
   0x72F8F66486689816D4A45CCC5D65B692, 0x6C704850FDEDB9DA5E154657A78D9D84, 0x90D8AB008CBCD30AF7E45805B8B34506, 0xD02C1E8FCA3F0F02C1AFBD0301138A6B,
   0x3A9111414F67DCEA97F2CFCEF0B4E673, 0x96AC7422E7AD3585E2F937E81C75DF6E, 0x47F11A711D29C5896FB7620EAA18BE1B, 0xFC563E4BC6D279209ADBC0FE78CD5AF4,
   0x1FDDA8338807C731B11210592780EC5F, 0x60517FA919B54A0D2DE57A9F93C99CEF, 0xA0E03B4DAE2AF5B0C8EBBB3C83539961, 0x172B047EBA77D626E169146355210C7D]

/-- The byte of a box for a byte. -/
def boxAt (rows : List Nat) (a : Nat) : Nat := rows.getD (a / 16) 0 / 2 ^ (8 * (15 - a % 16)) % 256

/-- Multiplication by x in the field of AES. -/
def xtime (b : Nat) : Nat := if b < 128 then 2 * b else (2 * b) ^^^ 0x11B

/-- Multiplication in the field of AES by a factor of up to k bits. -/
def gmul : Nat → Nat → Nat → Nat
  | 0, _, _ => 0
  | k + 1, a, b => (if a % 2 = 1 then b else 0) ^^^ gmul k (a / 2) (xtime b)

/-- The XOR of two strings of bytes as numbers, of one length. -/
def xorNats (a b : List Nat) : List Nat := List.zipWith (fun x y => x ^^^ y) a b

/-- The key schedule of AES-256: 60 words, newest first. -/
def aesSchedule : Nat → Nat → Nat → List (List Nat) → List (List Nat)
  | 0, _, _, w => w
  | n + 1, i, rcon, w =>
    let t := w.getD 0 []
    let t1 := if i % 8 = 0 then xorNats ((t.drop 1 ++ t.take 1).map (boxAt sboxRows)) [rcon, 0, 0, 0]
      else if i % 8 = 4 then t.map (boxAt sboxRows) else t
    aesSchedule n (i + 1) (if i % 8 = 0 then xtime rcon else rcon) (xorNats (w.getD 7 []) t1 :: w)

/-- The 15 round keys. -/
def aesKeys (key : List Byte) : List (List Nat) :=
  pieces 15 16 ((aesSchedule 52 8 1 (pieces 8 4 (key.map BitVec.toNat)).reverse).reverse.flatten)

def shiftRows (s : List Nat) : List Nat := (List.range 16).map fun k => s.getD ((k + 4 * (k % 4)) % 16) 0
def invShiftRows (s : List Nat) : List Nat := (List.range 16).map fun k => s.getD ((k + 12 * (k % 4)) % 16) 0

/-- A column transform by a circulant of four factors below 16. -/
def mixWith (f s : List Nat) : List Nat :=
  (List.range 16).map fun k =>
    (List.range 4).foldl (fun r j => r ^^^ gmul 4 (f.getD ((j + 4 - k % 4) % 4) 0) (s.getD (k / 4 * 4 + j) 0)) 0

/-- One block of 16 bytes enciphered. -/
def aesBlock (key b : List Byte) : List Byte :=
  let ks := aesKeys key
  let mid := (List.range 13).foldl (fun s i => xorNats (mixWith [2, 3, 1, 1] (shiftRows (s.map (boxAt sboxRows)))) (ks.getD (i + 1) []))
    (xorNats (b.map BitVec.toNat) (ks.getD 0 []))
  (xorNats (shiftRows (mid.map (boxAt sboxRows))) (ks.getD 14 [])).map (BitVec.ofNat 8)

/-- One block of 16 bytes deciphered. -/
def aesInv (key b : List Byte) : List Byte :=
  let ks := aesKeys key
  let mid := (List.range 13).foldl (fun s i =>
      mixWith [14, 11, 13, 9] (xorNats ((invShiftRows s).map (boxAt invSboxRows)) (ks.getD (13 - i) [])))
    (xorNats (b.map BitVec.toNat) (ks.getD 14 []))
  (xorNats ((invShiftRows mid).map (boxAt invSboxRows)) (ks.getD 0 [])).map (BitVec.ofNat 8)

/-- The XOR of two byte strings of one length. -/
def xorBytes (a b : List Byte) : List Byte := List.zipWith (fun x y => x ^^^ y) a b

/-! ### AES Key Wrap -/

def wrapStart : List Byte := List.replicate 8 0xA6#8

/-- One step of RFC 3394 forwards: step t on the register A and the n blocks R. -/
def wrapStep (kek : List Byte) (n t : Nat) (x : List Byte × List (List Byte)) : List Byte × List (List Byte) :=
  let i := (t - 1) % n
  let b := aesBlock kek (x.1 ++ x.2.getD i [])
  (xorBytes (b.take 8) (be 8 t), x.2.set i (b.drop 8))

/-- That step backwards. -/
def unwrapStep (kek : List Byte) (n t : Nat) (x : List Byte × List (List Byte)) : List Byte × List (List Byte) :=
  let i := (t - 1) % n
  let b := aesInv kek (xorBytes x.1 (be 8 t) ++ x.2.getD i [])
  (b.take 8, x.2.set i (b.drop 8))

/-- The steps t down to 1 backwards. -/
def unwrapSteps (kek : List Byte) (n : Nat) : Nat → List Byte × List (List Byte) → List Byte × List (List Byte)
  | 0, x => x
  | t + 1, x => unwrapSteps kek n t (unwrapStep kek n (t + 1) x)

/-- RFC 3394: a key of n 8-byte blocks wrapped. -/
def keyWrap (kek key : List Byte) : List Byte :=
  let n := key.length / 8
  let r := (List.range (6 * n)).foldl (fun x k => wrapStep kek n (k + 1) x) (wrapStart, pieces n 8 key)
  r.1 ++ r.2.flatten

/-- RFC 3394: a key unwrapped, or none when the integrity check fails. -/
def keyUnwrap (kek w : List Byte) : Option (List Byte) :=
  let n := w.length / 8 - 1
  let r := unwrapSteps kek n (6 * n) (w.take 8, pieces n 8 (w.drop 8))
  if r.1 = wrapStart then some r.2.flatten else none

/-! ### AES-256-XTS -/

/-- Multiplication of a tweak by x: a 128-bit little-endian value. -/
def xtsNext (t : Nat) : Nat := let d := 2 * t; if d < 2 ^ 128 then d else (d - 2 ^ 128) ^^^ 0x87

/-- The blocks of a unit, each between two XORs of its tweak, by the block operation of the first key. -/
def xtsBlocks (op : List Byte → List Byte) : Nat → List (List Byte) → List (List Byte)
  | _, [] => []
  | t, b :: bs => xorBytes (op (xorBytes b (le 16 t))) (le 16 t) :: xtsBlocks op (xtsNext t) bs

/-- A data unit enciphered under a 64-byte key, its tweak given as a number (R367). -/
def xtsEncrypt (key : List Byte) (tweak : Nat) (unit : List Byte) : List Byte :=
  (xtsBlocks (aesBlock (key.take 32)) (ofLe (aesBlock (key.drop 32) (le 16 tweak))) (pieces (unit.length / 16) 16 unit)).flatten

end Sys2Proof.Machine
end

