-- ==== Sys2Proof/Machine/Codes.lean ====
section
/-! DEFINITION. Status codes (R650) and event codes (R652), as the code tables of the chapters assign them. -/
namespace Sys2Proof.Machine

/-- The only success value (R650). -/
def St.OK : Nat := 0
def St.BAD_OPCODE : Nat := 0x1001
def St.BAD_HEADER : Nat := 0x1002
def St.ROLE_DENIED : Nat := 0x1003
def St.ALIGN : Nat := 0x1010
def St.BARROW_ADDR : Nat := 0x1011
def St.BARROW_HOST_ERR : Nat := 0x1012
def St.BARROW_STOPPED : Nat := 0x1013
def St.BARROW_BAD_DESC : Nat := 0x1014
def St.BARROW_SCRAPED : Nat := 0x1015
def St.SUPERSEDED : Nat := 0x3001
def St.EASEL_CLOSED : Nat := 0x3002
def St.TARGET_LOST : Nat := 0x3003
def St.TARGET_DAMAGED : Nat := 0x3004
def St.BC_FAIL : Nat := 0x3005
def St.BAD_TICKET : Nat := 0x3006
def St.BUSY : Nat := 0x3010
def St.CAL_TAKE_OPEN : Nat := 0x3011
def St.CAL_BAD_REQ : Nat := 0x3012
def St.CAL_NO_SOURCE : Nat := 0x3013
def St.CAL_ABORTED : Nat := 0x3014
def St.SELFTEST_FAIL : Nat := 0x3015
def St.PAL_SLOT_ACTIVE : Nat := 0x4001
def St.PAL_IMAGE_BAD : Nat := 0x4002
def St.PAL_BAD_REQ : Nat := 0x4003
def St.PK_ILLEGAL_CODE : Nat := 0x5001
def St.PK_DISTANCE : Nat := 0x5002
def St.PK_LENGTH : Nat := 0x5003
def St.MAG_REMOVED : Nat := 0x7001
def St.MAG_NOT_READY : Nat := 0x7002
def St.ELASTIC_FULL : Nat := 0x7003
def St.MEDIA_FULL : Nat := 0x7004
def St.MAG_HALTED : Nat := 0x7005
def St.REEL_NO_HEADER : Nat := 0x7020
def St.REEL_VERSION : Nat := 0x7021
def St.REEL_KEY_MISSING : Nat := 0x7022
def St.REEL_KEY_BAD : Nat := 0x7023
def St.REEL_WIP_RESUMED : Nat := 0x7024
def St.REEL_READ_ONLY : Nat := 0x7025
def St.LEDGER_FULL : Nat := 0x7026
def St.REEL_SANITIZED : Nat := 0x7027
def St.TAKE_BUSY : Nat := 0x7040
def St.TAKE_UNKNOWN : Nat := 0x7041
def St.TAKE_RATE : Nat := 0x7042
def St.TAKE_NO_PACKER : Nat := 0x7043
def St.TAKE_ROLL_MISMATCH : Nat := 0x7044
def St.FRAME_UNKNOWN : Nat := 0x7045
def St.STOR_BAD_FIELD : Nat := 0x7046
def St.PORT_BUSY : Nat := 0x7047
def St.ABORTED : Nat := 0x7048
def St.ABORTED_BY_RESET : Nat := 0x7049
def St.ABORT_REFUSED : Nat := 0x704A
def St.HALF_RESET : Nat := 0x704B
def St.PARTNER_MISSING : Nat := 0x704C
def St.SIDECAR_UNKNOWN : Nat := 0x704D
def St.VC_STATE : Nat := 0x8001
def St.VC_CONFIG : Nat := 0x8002
def St.VC_LOAD : Nat := 0x8003
def St.VC_POOL_FULL : Nat := 0x8004
def St.VC_BAD_REQ : Nat := 0x8005
def St.VC_SYNTAX : Nat := 0x8010
def St.VC_UNSUPPORTED : Nat := 0x8011
def St.VC_REF_MISSING : Nat := 0x8012
def St.VC_HASH : Nat := 0x8013
def St.VC_CTX_FAULT : Nat := 0x8014
def St.VC_OUT_SMALL : Nat := 0x8015
def St.RAS_STATE : Nat := 0x9001
def St.RAS_BAD_REQ : Nat := 0x9002
def St.RAS_NO_REPLY : Nat := 0x9003
def St.NET_BAD_REQ : Nat := 0xB001
def St.NET_LINK_DOWN : Nat := 0xB002
def St.NET_TOO_FAR : Nat := 0xB003
def St.BLOCK_RESET : Nat := 0xC001
def St.DOMAIN_RESET : Nat := 0xC002
def St.THERMAL_SHED : Nat := 0xD001
def St.SES_BAD_REQ : Nat := 0xE001
def St.KEY_BAD : Nat := 0xE002
def St.KEY_FULL : Nat := 0xE003
def St.FW_IMAGE_BAD : Nat := 0xE004
def St.FW_ROLLBACK : Nat := 0xE005
def St.FW_BUSY : Nat := 0xE006
def St.FW_NOT_STAGED : Nat := 0xE007
def St.DRAIN_TIMEOUT : Nat := 0xE008
def St.AUTH_UNSETTLED : Nat := 0xE009
def St.FW_RECOVERY : Nat := 0xE00A

def Ev.GLB_PACE_FAULT : Nat := 0x0001
def Ev.GLB_PACE_SLOW : Nat := 0x0002
def Ev.GLB_TEST : Nat := 0x0003
def Ev.RING_TAIL_BAD : Nat := 0x1001
def Ev.RING_CQ_FULL : Nat := 0x1002
def Ev.RING_EVQ_LOST : Nat := 0x1003
def Ev.RING_BAD_CQ : Nat := 0x1004
def Ev.RING_HOST_ERR : Nat := 0x1005
def Ev.BARROW_HALT : Nat := 0x1010
def Ev.BRL_UP : Nat := 0x2001
def Ev.BRL_DOWN : Nat := 0x2002
def Ev.BRL_TRAIN_FAIL : Nat := 0x2003
def Ev.BRL_SKEW_LOSS : Nat := 0x2004
def Ev.BRL_GEOMETRY : Nat := 0x2005
def Ev.INTAKE_SCRAPE : Nat := 0x3001
def Ev.INTAKE_DAMAGED : Nat := 0x3002
def Ev.INTAKE_OVERRUN : Nat := 0x3003
def Ev.INTAKE_FE_TIMEOUT : Nat := 0x3004
def Ev.EASEL_ADMIT_FAIL : Nat := 0x3010
def Ev.EASEL_TICKET_ECHO : Nat := 0x3011
def Ev.EASEL_WINDOW_LATE : Nat := 0x3012
def Ev.COND_BLACK_WEAK : Nat := 0x3020
def Ev.COND_MAP_BAD : Nat := 0x3021
def Ev.COND_CAL_SKIPPED : Nat := 0x3022
def Ev.COND_SELFTEST_FAIL : Nat := 0x3023
def Ev.COND_CAL_DONE : Nat := 0x3024
def Ev.COND_BLACK_WAIT : Nat := 0x3025
def Ev.PAL_STATS_DROP : Nat := 0x4001
def Ev.PAL_CANVAS_FALLBACK : Nat := 0x4002
def Ev.VIEW_DROP : Nat := 0x4010
def Ev.LZP_RING_STALL : Nat := 0x5001
def Ev.LZP_INPUT_CRC : Nat := 0x5002
def Ev.LZP_DECODE_FAULT : Nat := 0x5003
def Ev.LZP_RATIO_LOW : Nat := 0x5004
def Ev.HBM_CA_ALERT : Nat := 0x6001
def Ev.HBM_CA_FAIL : Nat := 0x6002
def Ev.HBM_UNCORR : Nat := 0x6003
def Ev.HBM_BAND : Nat := 0x6004
def Ev.HBM_PLAN_BAD : Nat := 0x6005
def Ev.HBM_CANVAS_FULL : Nat := 0x6006
def Ev.HBM_CANVAS_NONE : Nat := 0x6007
def Ev.MAG_INSERTED : Nat := 0x7001
def Ev.MAG_REMOVED : Nat := 0x7002
def Ev.MAG_INIT_FAIL : Nat := 0x7003
def Ev.MAG_PFW : Nat := 0x7004
def Ev.MAG_PROG_FAIL : Nat := 0x7005
def Ev.MAG_ERASE_FAIL : Nat := 0x7006
def Ev.MAG_REBUILD : Nat := 0x7007
def Ev.MAG_UNCORR : Nat := 0x7008
def Ev.MAG_TILE_CRC : Nat := 0x7009
def Ev.MAG_ELASTIC_SPILL : Nat := 0x700A
def Ev.MAG_ELASTIC_FULL : Nat := 0x700B
def Ev.MAG_MEDIA_FULL : Nat := 0x700C
def Ev.MAG_SPARE_LOW : Nat := 0x700D
def Ev.MAG_SCRUB_DONE : Nat := 0x700E
def Ev.REEL_GLEANED : Nat := 0x7020
def Ev.REEL_LEDGER_GAP : Nat := 0x7021
def Ev.REEL_COPY_BAD : Nat := 0x7022
def Ev.REEL_RECONCILED : Nat := 0x7023
def Ev.REEL_WIP_RESUMED : Nat := 0x7024
def Ev.REEL_WIP_DONE : Nat := 0x7025
def Ev.REEL_LEDGER_LOW : Nat := 0x7026
def Ev.TAKE_ENDED : Nat := 0x7040
def Ev.VCD_SKIP : Nat := 0x8001
def Ev.VCD_FLOOR : Nat := 0x8002
def Ev.VCD_STALL : Nat := 0x8003
def Ev.VCD_SWEEP_REPEAT : Nat := 0x8004
def Ev.VCD_DECODE_FAULT : Nat := 0x8010
def Ev.RAS_UNDERFLOW : Nat := 0x9001
def Ev.RAS_LOCK_LOST : Nat := 0x9002
def Ev.RAS_LOCKED : Nat := 0x9003
def Ev.RAS_REPHASE : Nat := 0x9004
def Ev.RAS_DSI_MODE : Nat := 0x9005
def Ev.AUD_UNDERRUN : Nat := 0xA001
def Ev.AUD_OVERRUN : Nat := 0xA002
def Ev.AUD_UNLOCK : Nat := 0xA003
def Ev.AUD_NONAUDIO : Nat := 0xA004
def Ev.AUD_CS_CHANGE : Nat := 0xA005
def Ev.AUD_RING_DROP : Nat := 0xA006
def Ev.AUD_ZC_TIMEOUT : Nat := 0xA007
def Ev.AUD_MASTER_LOST : Nat := 0xA008
def Ev.PTP_STEP : Nat := 0xB001
def Ev.PTP_LOCKED : Nat := 0xB002
def Ev.PTP_OFFSET : Nat := 0xB003
def Ev.PTP_HOLDOVER : Nat := 0xB004
def Ev.NET_TXTS_OVERFLOW : Nat := 0xB010
def Ev.NET_RX_DROP : Nat := 0xB011
def Ev.NET_LINK : Nat := 0xB012
def Ev.NET_LTC_LOST : Nat := 0xB020
def Ev.RST_IDLE_TIMEOUT : Nat := 0xC001
def Ev.RST_CLK_UNSTABLE : Nat := 0xC002
def Ev.RST_HALF : Nat := 0xC003
def Ev.AUTH_CONFLICT : Nat := 0xC010
def Ev.AUTH_TRANSFER : Nat := 0xC011
def Ev.AUTH_SETTLED : Nat := 0xC012
def Ev.THM_WARN : Nat := 0xD001
def Ev.THM_REQUEST : Nat := 0xD002
def Ev.THM_ENFORCE : Nat := 0xD003
def Ev.THM_CLEAR : Nat := 0xD004
def Ev.THM_RISE : Nat := 0xD005
def Ev.THM_DIODE_FAULT : Nat := 0xD006
def Ev.AGE_FORECAST : Nat := 0xD010
def Ev.AGE_DEADLINE : Nat := 0xD011
def Ev.AGE_SAMPLE_SKIPPED : Nat := 0xD012
def Ev.AGE_WITHDRAWN : Nat := 0xD013
def Ev.AGE_VBOOST : Nat := 0xD014
def Ev.SES_OPEN_FAIL : Nat := 0xE001
def Ev.SES_LOCKOUT : Nat := 0xE002
def Ev.SES_RNG_FAIL : Nat := 0xE003
def Ev.FW_ACTIVATED : Nat := 0xE010
def Ev.FW_FALLBACK : Nat := 0xE011
def Ev.FW_LEDGER_REPAIR : Nat := 0xE012
def Ev.FW_BOARD_CFG_BAD : Nat := 0xE013

end Sys2Proof.Machine
end

