-- ==== Sys2Proof/Machine/Flags.lean ====
section
/-! DEFINITION. Checks over bytes: CRC-32C (R34) and the CRC-8 of the back-channel and the link. -/
namespace Sys2Proof.Machine

/-- One bit of the reflected CRC-32C register: the polynomial 0x1EDC6F41 reflected is 0x82F63B78 (R34). -/
def crc32cBit (c : BitVec 32) : BitVec 32 :=
  if c.getLsbD 0 then (c >>> 1) ^^^ 0x82F63B78#32 else c >>> 1

/-- One byte of CRC-32C. -/
def crc32cByte (c : BitVec 32) (b : Byte) : BitVec 32 :=
  let x := c ^^^ b.setWidth 32
  crc32cBit (crc32cBit (crc32cBit (crc32cBit (crc32cBit (crc32cBit (crc32cBit (crc32cBit x)))))))

/-- CRC-32C over a byte string: initial value and final XOR 0xFFFF_FFFF (R34). -/
def crc32c (bs : List Byte) : Nat := ((bs.foldl crc32cByte 0xFFFFFFFF#32) ^^^ 0xFFFFFFFF#32).toNat

/-- One byte of CRC-8 with polynomial 0x07, unreflected (R91). -/
def crc8Byte (c b : BitVec 8) : BitVec 8 :=
  (List.range 8).foldl (fun x _ => if x.getLsbD 7 then (x <<< 1) ^^^ 0x07#8 else x <<< 1) (c ^^^ b)

/-- CRC-8 over a byte string: initial value 0, no final XOR (R91). -/
def crc8 (bs : List Byte) : Byte := bs.foldl crc8Byte 0

/-- A control block whose byte 7 is the CRC-8 of bytes 0 to 6 (R91). -/
def crc8Good (payload : List Byte) : Bool := crc8 (payload.take 7) == payload.getD 7 0

/-- The descrambled payload and the next history, of 64 scrambled bits and the 58 before them (R88): with s the bits
in transmission order, d(i) = s(i) + s(i - 39) + s(i - 58). -/
def descramble (hist : BitVec 58) (s : BitVec 64) : BitVec 64 × BitVec 58 :=
  let x : BitVec 122 := (s.setWidth 122 <<< 58) ||| hist.setWidth 122
  (((x >>> 58) ^^^ (x >>> 19) ^^^ x).setWidth 64, (x >>> 64).setWidth 58)

/-- The 8 bytes of a payload, byte k holding bits 8k to 8k + 7 (R89). -/
def payloadBytes (p : BitVec 64) : List Byte := le 8 p.toNat

end Sys2Proof.Machine
end

