-- ==== Sys2Proof/Config.lean ====
section
/-! DEFINITION. What one part or one implementation fixes, and the free values the spec leaves open.
Every constant is opaque: no proof can see its value, so a theorem holds for every value. -/
namespace Sys2Proof

/-- GLB_ID.stepping of the part (R646). DESIGN CHOICE, log 18. -/
opaque Config.stepping : BitVec 8
/-- True on an ordering code with the -H memory fit, false on -M (R2). DESIGN CHOICE, log 18. -/
opaque Config.variantH : Bool
/-- GLB_CAP.hbm_gib: 48 or 32 by variant (R2). -/
def Config.hbmGib : Nat := if Config.variantH then 48 else 32
/-- HBM_STACK_STATUS.cap_mib of one stack: 24,576 or 16,384 by variant (R265). -/
def Config.capMib : Nat := if Config.variantH then 24576 else 16384
/-- GLB_UID_LO, from fuses. DESIGN CHOICE, log 18. -/
opaque Config.uidLo : BitVec 32
/-- GLB_UID_HI, from fuses. DESIGN CHOICE, log 18. -/
opaque Config.uidHi : BitVec 32
/-- The rollback fuses as FW_STATUS.fuse_sv reads them (R627). DESIGN CHOICE, log 18. -/
opaque Config.fuseSv : BitVec 8
/-- The revoke fuses as FW_STATUS.revoked reads them (R627). DESIGN CHOICE, log 18. -/
opaque Config.fuseRevoked : BitVec 4
/-- The FEC latency that NET_TS_CORR.rx holds at reset (R531). DESIGN CHOICE, log 18. -/
opaque Config.tsCorrRx : BitVec 16
/-- The FEC latency that NET_TS_CORR.tx holds at reset (R531). DESIGN CHOICE, log 18. -/
opaque Config.tsCorrTx : BitVec 16
/-- Nanoseconds the PTP time base counts up to the n-th moment the model reads it, from the one before: free. DESIGN CHOICE, log 2. -/
opaque Config.ptpElapsed : Nat → Nat
/-- The 4 KiB chunks of the barrow buffer that the n-th descriptor takes (R400): free, within the limits of the rule. DESIGN CHOICE, log 78. -/
opaque Config.barrowChunks : Nat → Nat
/-- The max read request size of the endpoint is 128 bytes, so that a doorbell poll takes two reads (R375, R380): set by the host in configuration
space, free. DESIGN CHOICE, log 123. -/
opaque Config.shortReads : Bool
/-- The stages of stall chain k beyond its first: no chapter gives the depth of a chain (R44). DESIGN CHOICE, log 11. -/
opaque Config.chainExtra : Nat → Nat
/-- The cut-through threshold of stall chain k in items (R50): not given. DESIGN CHOICE, log 11. -/
opaque Config.chainThreshold : Nat → Nat
/-- BRL_BC_STATUS.result for a sensor reply status above 2, which R113 does not define: free. DESIGN CHOICE, log 25. -/
opaque Config.replyResult : Nat → BitVec 3
/-- Bursts of the n-th HBM read that came back with an error the code corrected (R264, R272): free. DESIGN CHOICE, log 105. -/
opaque Config.hbmCorrected : Nat → Nat
/-- DFE taps 1 to 4 of a lane as the n-th adaptation leaves them (R85): free. DESIGN CHOICE, log 99. -/
opaque Config.dfeTaps : Nat → BitVec 32

/-- Where a rule gives a whole-number register an exact value between two codes and no rounding, true takes the upper one:
by place of the rounding, numerator and denominator of the exact value. DESIGN CHOICE, log 19. -/
opaque Config.roundUp : Nat → Int → Nat → Bool
/-- A FUSE column gain of R180 whose quotient has no 2.14 code: free, by the two sums. DESIGN CHOICE, log 37. -/
opaque Config.fuseGain : Int → Int → BitVec 16

/-- Bits [11:0] of the code of the event by which the colour path (0), a barrow (1) or playback (2) reports a failed tile (R30): no table
assigns one. DESIGN CHOICE, log 107. -/
opaque Config.tileEvent : Nat → BitVec 12
/-- The random source of the part (R612), by request and position: free. DESIGN CHOICE, log 21. -/
opaque Config.randomByte : Nat → Nat → Byte
/-- The bytes a read of an uncorrectable codeword gives (R300 step 5), by request and position: free. DESIGN CHOICE, log 21. -/
opaque Config.badByte : Nat → Nat → Byte
/-- The 512 parity bytes of the LDPC code over the 4,096 data bytes of a codeword (R294): the code itself is not stated, free by data and
place. DESIGN CHOICE, log 114. -/
opaque Config.ldpc : List Byte → Nat → Byte
/-- The read-retry levels of the media table (R300), and the level at which the n-th codeword read past step 1 succeeded in step 2: free.
DESIGN CHOICE, log 114. -/
opaque Config.retryLevels : Nat
opaque Config.retryLevel : Nat → Nat
/-- Whether the load test of R416 passes for a packed take whose alarm threshold is 0, which makes the quotient undefined: free. DESIGN CHOICE, log 76. -/
opaque Config.zeroThresholdPasses : Bool
/-- The status of a FORMAT whose request for a reel key fails (R612): none is stated. DESIGN CHOICE, log 21. -/
opaque Config.rngFailStatus : BitVec 16
/-- Whether a tap of the built-in Lanczos set takes the code above its exact value, by crop size, output size, phase and tap (R215): free.
DESIGN CHOICE, log 40. -/
opaque Config.lanczosUp : Nat → Nat → Nat → Nat → Bool

/-- A decoded picture (R474): POC as 32 bits, cropped size, chroma format code, bit depth, hash matched, IRAP, the payload of R463 if it
carries one, and the samples of its planes in lines. -/
structure HevcPic where
  poc : Nat
  width : Nat
  height : Nat
  chroma : Nat
  depth : Nat
  hash : Bool
  irap : Bool
  payload : Option (List Byte)
  planes : List (List (List Nat))
  deriving DecidableEq, Repr, Inhabited

/-- A picture in decoding order, with what the bumping process of H.265 (C.5.2) takes from its headers: the SPS activated with it if one is
(buffering, size, chroma format code), its output flag, whether it starts a coded video sequence, whether it drops prior pictures
unseen, the POCs its RPS keeps, the reorder, latency and buffer limits of its SPS, and the bytes consumed through its last NAL unit. -/
structure HevcStep where
  pic : HevcPic
  sps : Option (Nat × Nat × Nat × Nat)
  shown : Bool
  first : Bool
  noPrior : Bool
  keep : List Nat
  reorder : Nat
  latency : Option Nat
  buffers : Nat
  used : Nat
  deriving DecidableEq, Repr, Inhabited

/-- What decoding whole NAL units gives: the pictures in decoding order, and the first fault as its row in the table of R477 (modulo 4),
byte offset, CTU address, POC. -/
structure HevcOut where
  steps : List HevcStep
  fault : Option (Nat × Nat × Nat × Nat)
  deriving DecidableEq, Repr, Inhabited

/-- The decoding process of ITU-T H.265 (R443, R473) up to the decoded pictures, which the spec takes from that standard: by the bytes decoded
since the context's reset and the new NAL units. DESIGN CHOICE, log 61. -/
opaque Config.hevc : List Byte → List Byte → HevcOut

/-- Whether CTU 1 of the row before is coded, at the n-th moment the model asks (R446): free. DESIGN CHOICE, log 138. -/
opaque Config.rowAhead : Nat → Bool

/-- The ST 352 payload identifier of a link (R495), whose bytes that standard gives: by format, rate code and link. DESIGN CHOICE, log 64. -/
opaque Config.payloadId : Nat → Nat → Nat → BitVec 32
/-- The 16 user data bytes of an ST 12-2 packet (R495), which that standard gives: by rate code and timecode count. DESIGN CHOICE, log 64. -/
opaque Config.atcWords : Nat → Nat → List (BitVec 8)
/-- Timecode frames counted since the last LTC frame or preset, at the n-th moment the model takes a stamp (R543): free. DESIGN CHOICE, log 70. -/
opaque Config.tcElapsed : Nat → Nat

/-- A rate converter's output (R509), whose filter the spec does not give: by the ratio and the samples of its window, oldest first. DESIGN CHOICE, log 65. -/
opaque Config.audConvert : Nat → List Int → BitVec 24

/-- The RTP timestamp of audio sample j of the master (R519, R541): free. DESIGN CHOICE, log 69. -/
opaque Config.sampleTime : Nat → BitVec 32

/-- LEAD_SEL as the board straps it (R554). DESIGN CHOICE, log 10. -/
opaque Config.leadSel : Bool
/-- What the NOR holds when the model starts: firmware slots A and B and the board configuration area (R622). DESIGN CHOICE, log 10. -/
opaque Config.norSlotA : List (BitVec 8)
opaque Config.norSlotB : List (BitVec 8)
opaque Config.norBoard : List (BitVec 8)
/-- The key-encryption key derived from the part's fused secret, which no means reads (R617). DESIGN CHOICE, log 57. -/
opaque Config.kek : List (BitVec 8)
/-- The body of a device ledger record by kind, key and values, whose layout no chapter gives (R634). DESIGN CHOICE, log 42. -/
opaque Config.ledgerBody : Nat → Nat → List Nat → List (BitVec 8)
/-- The SHA-256 of the Ed25519 and ML-DSA public keys fused for a key pair (R625). DESIGN CHOICE, log 57. -/
opaque Config.pairHash : Nat → List (BitVec 8) × List (BitVec 8)
/-- Signature verification, which the spec takes from RFC 8032 and FIPS 204 (R625): public key, message, signature. DESIGN CHOICE, log 57. -/
opaque Config.ed25519 : List (BitVec 8) → List (BitVec 8) → List (BitVec 8) → Bool
opaque Config.mlDsa65 : List (BitVec 8) → List (BitVec 8) → List (BitVec 8) → Bool
/-- The fused speed table in 1/1000 at 0.62, 0.64, … 0.82 V (R598), the temperature coefficient in 10^-9 per °C, the halves' baseline
periods and T_base in fs (R598, R600). DESIGN CHOICE, log 18. -/
opaque Config.speed : Nat → Nat
opaque Config.tempCoeff : Int
opaque Config.baseFs : Nat → Nat
opaque Config.worstFs : Nat
/-- The fourth root of a number of hours (R599) to the precision the keeper computes it: free, in 10^-9. DESIGN CHOICE, log 53. -/
opaque Config.quarterRoot : Int × Nat → Nat
/-- The core voltage of rail 0 or 1 in mV as read back at AON release (R661), by the free values' count: free. DESIGN CHOICE, log 48. -/
opaque Config.railMv : Nat → Nat → Nat

end Sys2Proof
end

