-- ==== Sys2Proof/Machine/State.lean ====
section
/-! DEFINITION. The state of the AMT-9620: every register, queue, buffer, table, counter and mode the spec gives
the part, as plain data, the waiting commands, and the state after reset. -/
namespace Sys2Proof.Machine

/-- The access classes of register fields (R640 to R643, R669): read-only, read and write, read and write where a
command row of its own does the write, write 1 to clear, write-only, read-clear, and a read-clear peak field that
reloads from the field at (base, lo). -/
inductive Acc where
  | ro | rw | own | w1c | wo | rc | rcPeak (base lo : Nat)
  deriving DecidableEq, Repr

/-- A register field: its register's offset at instance 0, its lowest bit, width, access class and reset value. -/
structure Fld where
  base : Nat
  lo : Nat
  width : Nat
  acc : Acc
  reset : Nat
  deriving DecidableEq, Repr

/-- A register: its offset, its n instances one stride apart, and for a table m words per instance stride2 apart. -/
structure Reg where
  base : Nat
  n : Nat
  stride : Nat
  m : Nat
  stride2 : Nat
  fields : List Fld
  deriving DecidableEq, Repr

/-- The place of one field instance in the register store. -/
structure RegKey where
  base : Nat
  lo : Nat
  i : Nat
  j : Nat
  deriving DecidableEq, Repr

/-- Register contents by field. A field that is not listed holds its reset value. -/
abbrev RegStore := List (RegKey × Nat)

/-- HBM contents: addresses strictly rising, no entry equal to what an unlisted address reads as (zero). -/
abbrev Memory := List Host.Cell

/-- The consumers that check a tile they read (R29). -/
inductive TileReader where
  | colour | packer | magazine | barrow | playback
  deriving DecidableEq, Repr

/-- What the spec has counted where its register tables give the count no register: link tiles that failed their intake CRC (R24), blocks
that full intake chains discarded (R74), by easel; tiles whose CRC failed at a consumer (R30) and tiles that reached a consumer damaged
(R31). -/
inductive Counted where
  | intakeCrc (easel : Nat)
  | overrun (easel : Nat)
  | tileFailed (reader : TileReader)
  | tileDamaged (reader : TileReader)
  deriving DecidableEq, Repr

/-- A command of an HBM pseudo-channel (R270): an activation of a bank and row, a read or a write of the 32-byte burst at an address, or an
all-bank refresh. -/
inductive HbmCmd where
  | activate (bank row : Nat)
  | read (addr : Nat)
  | write (addr : Nat)
  | refresh
  deriving DecidableEq, Repr

/-- What a magazine port sends at initialisation and on a power-fail warning (R288, R293): RESET (FFh), READ ID, READ PARAMETER
PAGE, READ UNIQUE ID, the feature that selects NV-LPDDR4, GET FEATURES, the termination the parameter page declares, ZQ calibration, and DCC, read DQ and write DQ training. -/
inductive NandCmd where
  | reset | readId | parameterPage | uniqueId | selectLpddr4 | getFeatures | onDieTermination | zq | dcc | readDq | writeDq
  /-- SET FEATURES of a read-retry level, 0 for none (R300). -/
  | retryLevel (n : Nat)
  /-- SET FEATURES of SLC mode for the program that follows (R330). -/
  | slcMode (on : Bool)
  deriving DecidableEq, Repr

/-- What the headers of an RTP packet carry beside its sequence number, time stamp and marker (R536): addresses, ports, payload type, TTL, DSCP
and SSRC. -/
structure PacketHead where
  srcMac : Nat
  srcIp : Nat
  dstIp : Nat
  srcPort : Nat
  dstPort : Nat
  payloadType : Nat
  ttl : Nat
  dscp : Nat
  ssrc : Nat
  deriving DecidableEq, Repr

/-- What the part shows outside the package, newest first in State.out. -/
inductive Emit where
  /-- A NAND command of a magazine port to CE targets, channel + 16 × CE, or a training on channels (R288, R293, R323). -/
  | nand (port : Nat) (cmd : NandCmd) (targets : List Nat)
  /-- The answer of a BAR0 read. -/
  | readData (off value : Nat)
  /-- A memory write to host memory. -/
  | hostWrite (addr : Nat) (data : List Byte)
  /-- A memory read request to host memory. -/
  | hostRead (addr len : Nat)
  /-- An MSI-X message. -/
  | msix (vector : Nat)
  /-- A back-channel command on a Barosh group: the 9 data symbols after its comma (R112). -/
  | backChannel (group : Nat) (symbols : List Byte)
  /-- K28.5 commas on a back-channel that wakes, before its first command (R120). -/
  | commas (group n : Nat)
  /-- A core-voltage request over AVSBus in mV (R603). -/
  | avs (mv : Nat)
  /-- A targeted refresh of a row: stack, pseudo-channel, bank, row (R274). -/
  | rowRefresh (stack pc bank row : Nat)
  /-- An operation put on a die of a magazine port: port, die, class, block, word line or page, and the data of a program. -/
  | dieOp (port die cls block page : Nat) (data : List Byte)
  /-- An active line on a raster output: output, line, and its samples by plane (R485, R489, R490, R493). -/
  | rasterLine (out line : Nat) (samples : List (List Nat))
  /-- An ST 291-1 packet of an SDI link: link, VANC line, DID, SDID and the user data words (R495, R496). -/
  | anc (link line did sdid : Nat) (words : List Nat)
  /-- A command an HBM controller issues again after an alert: stack, pseudo-channel, command (R270). -/
  | hbmReissue (stack pc : Nat) (cmd : HbmCmd)
  /-- A DCS command on a DSI port: port, read or not, and its bytes (R500). -/
  | dsi (port : Nat) (read : Bool) (data : List Byte)
  /-- An Ethernet frame leaving a port. -/
  | netFrame (port : Nat) (data : List Byte)
  /-- An RTP packet of a sender on a port: destination MAC address, sequence number, timestamp, marker, and the payload after the RTP header
  (R536). -/
  | mediaPacket (snd port mac seq ts : Nat) (marker : Bool) (head : PacketHead) (data : List Byte)
  /-- A keeper heartbeat: sending half and count (R571). -/
  | heartbeat (half count : Nat)
  /-- An LTC frame on the output (R544). -/
  | ltcFrame (bcd : Nat)
  /-- A word on an audio output slot: output, slot, sample. -/
  | audioOut (out slot : Nat) (v : Int)
  /-- A board output pin: its name number and level (MAG PWR_EN of port A and B are 0 and 1). -/
  | pin (n : Nat) (level : Bool)
  deriving DecidableEq, Repr

/-- How far an outstanding command has come: decoded and waiting on its fence (R390), free to start, started, or
ended with its record waiting to be written (R385). -/
inductive Stage where
  | fenced | ready | running | ended
  deriving DecidableEq, Repr

/-- What a command holds of the moment of its decode: a read the frames its take had committed (R422) or the sidecar file it names (R426, R427); a
FLUSH the settled frames by easel and the open stripes by port it waits for (R428). -/
inductive AtDecode where
  | none
  | frames (n : Nat)
  | file (x : Option (SidecarEntry × List SegEntry))
  | flush (frames stripes : List (Nat × Nat))
  deriving DecidableEq, Repr

/-- An outstanding host command (R385, R386): the decoded copy of its descriptor and what became of it. -/
structure Cmd where
  /-- Decode order over all rings. -/
  id : Nat
  ring : Nat
  cq : Nat
  tag : Nat
  opcode : Nat
  /-- The 64 bytes of the descriptor (R387). -/
  desc : List Byte
  stage : Stage
  /-- Past its point of no return (R430). -/
  past : Bool
  /-- Units written, reported in spec1 by R431 and R432. -/
  units : Nat
  /-- Outstanding commands when this one was decoded, itself included (R389). -/
  count : Nat
  /-- Its record is discarded: a function-level reset came after the decode (R378), or a QUEUE_RESET has
  already posted its record (R432). -/
  mute : Bool
  /-- That record is written, so the command is outstanding no more while its work runs on (R385, R432). -/
  gone : Bool
  seen : AtDecode
  deriving DecidableEq, Repr

/-- A record raised and not yet written: a completion record (R392) or an event record (R396). -/
structure Rec where
  event : Bool
  /-- The half that raised it. -/
  half : Nat
  /-- Completion: queue. -/
  cq : Nat
  /-- Completion: bytes 0-1; event: the code. -/
  tag : Nat
  /-- Completion: byte 2 (R392); event: the origin byte. -/
  source : Nat
  /-- Completion: status; event: seq. -/
  status : Nat
  spec0 : Nat
  spec1 : Nat
  /-- Completion of a host command: its ring. -/
  ring : Option Nat
  /-- Completion of a host command: its decode order. -/
  cmd : Option Nat
  /-- Event payload, bytes 16-31. -/
  payload : List Byte
  /-- The stamp taken when it was raised: events (R396) and records held in quiet (R581). -/
  stamp : Option Nat
  /-- The step code taken when it was raised, for a record held in quiet. -/
  step : Nat
  /-- The time base was not LOCKED when the stamp was taken (R529). -/
  unlocked : Bool := false
  /-- Held in its half's held-record area while the half was in quiet (R579). -/
  quiet : Bool
  /-- Held on a full completion queue (R79). -/
  full : Bool
  deriving DecidableEq, Repr

/-- A submission ring beside its registers. -/
structure RingSt where
  /-- Tail word as last acted on (R380). -/
  tail : Nat
  /-- Descriptors asked for by fetch reads since the enable. -/
  asked : Nat
  /-- Descriptors of the fetch read in flight, if one is. -/
  inFlight : Option Nat
  /-- Descriptors fetched and not yet decoded, oldest first. -/
  fetched : List (List Byte)
  deriving DecidableEq, Repr

/-- A completion queue beside its registers. -/
structure QueueSt where
  /-- A full episode is running: EV_RING_CQ_FULL has been raised for it (R394). -/
  episode : Bool
  /-- Records written since the last message (R399). -/
  unsignalled : Nat
  deriving DecidableEq, Repr

/-- One MSI-X vector of BAR2 (R376, R399): masked, its pending bit, and the message address and data of its table entry. -/
structure MsixSt where
  mask : Bool
  pending : Bool
  addr : Nat
  data : Nat
  deriving DecidableEq, Repr

/-- A barrow descriptor as an engine copied it (R401). -/
structure BarrowDesc where
  addr : Nat
  ctl : Nat
  host : Nat
  hbm : Nat
  length : Nat
  tag : Nat
  op : Nat
  hbmRec : Nat
  hostRec : Nat
  deriving DecidableEq, Repr

/-- A barrow channel beside its registers (R406, R408). -/
structure BarrowSt where
  /-- A descriptor fetch at BARROW_CH_CUR is due. -/
  fetch : Bool
  /-- The descriptor in hand. -/
  cur : Option BarrowDesc
  /-- WET frames the descriptor waits for: easel and serial (R405). -/
  waits : List (Nat × Nat)
  /-- Canvas slot parts the descriptor holds: easel, slot, part (R285). -/
  holds : List (Nat × Nat × Nat)
  /-- Doorbell count recorded with the fetch in hand. -/
  recorded : Nat
  /-- Doorbell count known to the part. -/
  known : Nat
  /-- A re-read of the noted control word is due. -/
  reread : Bool
  /-- The channel holds an engine of its direction (R400). -/
  engine : Bool
  /-- Chunks of the buffer that the descriptor in hand holds (R400). -/
  chunks : Nat
  deriving DecidableEq, Repr

/-- The identity that the PCI Express function presents (R376). -/
structure PcieIdent where
  vendor : Nat
  device : Nat
  revision : Nat
  classCode : Nat
  deriving DecidableEq, Repr

/-- The ring engine and the barrows (spec/11). -/
structure HostSt where
  ident : PcieIdent
  rings : List RingSt
  queues : List QueueSt
  msix : List MsixSt
  barrows : List BarrowSt
  /-- Outstanding commands in decode order. -/
  cmds : List Cmd
  /-- The next decode number. -/
  nextId : Nat
  /-- Records raised and not yet written, oldest first. -/
  records : List Rec
  /-- The holding period of R670 is running. -/
  holding : Bool
  /-- Event records held in it, oldest first. -/
  held : List Rec
  /-- Event records dropped since the last EV_RING_EVQ_LOST (R398). -/
  lost : Nat
  /-- The polls in flight, oldest first, each with the rings whose words it acts on: those enabled when it started (R380, R411). -/
  polls : List (List Nat)
  /-- The words of the doorbell page as last acted on. -/
  page : List Nat
  /-- The ring in service and the descriptors decoded from it in this turn (R385). -/
  cursor : Nat
  served : Nat
  /-- The ring whose fetch was issued last. -/
  fetchCursor : Nat
  /-- The channel given an engine last, by direction (R400). -/
  barrowTurn : List Nat
  deriving DecidableEq, Repr

def RingSt.init : RingSt := { tail := 0, asked := 0, inFlight := none, fetched := [] }
def QueueSt.init : QueueSt := { episode := false, unsignalled := 0 }
/-- After reset every vector is masked, as the PCI Express layout of the MSI-X table gives it (PRESUMED, log 9). -/
def MsixSt.init : MsixSt := { mask := true, pending := false, addr := 0, data := 0 }
def BarrowSt.init : BarrowSt :=
  { fetch := false, cur := none, waits := [], holds := [], recorded := 0, known := 0, reread := false, engine := false, chunks := 0 }
/-- RING and BARROW right after reset. -/
def HostSt.init : HostSt :=
  { ident := { vendor := 0x4E4C, device := 0x9620, revision := Config.stepping.toNat, classCode := 0x048000 }
    rings := List.replicate 16 RingSt.init, queues := List.replicate 16 QueueSt.init,
    msix := List.replicate 64 MsixSt.init, barrows := List.replicate 32 BarrowSt.init,
    cmds := [], nextId := 0, records := [], holding := true, held := [], lost := 0, polls := [],
    page := List.replicate 64 0, cursor := 0, served := 0, fetchCursor := 15, barrowTurn := [31, 31] }

/-- A stall chain (R44 to R52): the unreleased items, oldest first, the read position counted from the oldest of them,
the consumer's one mark, the write or read that waits, the items of the latest packet written so far, and whether that packet
goes on (R49). -/
structure ChainSt where
  items : List ChainItem
  pos : Nat
  mark : Option Nat
  waitWrite : Option ChainItem
  waitRead : Bool
  run : Nat
  inPacket : Bool
  /-- The item the last completed read returned. -/
  got : Option ChainItem
  deriving DecidableEq, Repr

def ChainSt.init : ChainSt := { items := [], pos := 0, mark := none, waitWrite := none, waitRead := false, run := 0, inPacket := false, got := none }

/-- The place of a block in the row its set was receiving with it: the row, as type (true: optical black) and index, where a lane header
told it, and the block times since the lane header's. -/
structure BlockPlace where
  row : Option (Bool × Nat)
  time : Nat
  deriving DecidableEq, Repr

/-- A run of consecutive blocks of a lane on its way over the bridge, with its tag (R103): the lane position, the marker count of the
lane's latest ALIGN, the block index since it, and the 58 scrambled bits before the run. Each block stands with its
place in the row that the set was receiving with it, by which the home half tells a block it does not home (R104). -/
structure FwdRun where
  pos : Nat
  marker : Nat
  index : Nat
  hist : BitVec 58
  blocks : List (LinkBlock × BlockPlace)
  deriving DecidableEq, Repr

/-- A block in a deskew buffer of a home half (R105): marker count and block index of its lane, header, descrambled payload. -/
structure BufBlock where
  marker : Nat
  index : Nat
  header : Nat
  bytes : List Byte
  deriving DecidableEq, Repr

/-- One Barosh data lane in its receiving half (R88, R90, R100 to R105). -/
structure LaneSt where
  /-- Consecutive valid headers while hunting, and the bit offset they stand at. -/
  run : Nat
  offset : Nat
  /-- Blocks since each invalid header of the last 1,024 blocks, newest first. -/
  invalids : List Nat
  /-- The first block after lock is still to be discarded. -/
  first : Bool
  /-- The last 58 scrambled payload bits, the latest in bit 57. -/
  hist : BitVec 58
  /-- The row of the latest good lane header, whose home half it routes to, and whether the latest lane header was good (R102). -/
  row : Option (Bool × Nat)
  sure : Bool
  /-- A control block was missing since the latest known one, so the stripe that the next blocks belong to is not known (R109). -/
  unsure : Bool
  /-- Block times since the latest lane header, or since the missing control block. -/
  time : Nat
  /-- What the lane still carries of the stripe in progress: data blocks, and whether the trailer (R96). -/
  data : Nat
  tail : Bool
  /-- Marker count of the latest ALIGN and blocks since it. -/
  marker : Nat
  index : Nat
  /-- Runs on their way to the other half, oldest first, and whether the newest still grows. -/
  fwd : List FwdRun
  running : Bool
  /-- The deskew buffer of the lane on each half, newest block first, 8 at the most (R105). -/
  bufs : List (List BufBlock)
  /-- PRBS checker: bits taken in, and the last 31 of them, the latest in bit 0. -/
  prbsSeen : Nat
  prbs : BitVec 31
  /-- Sampling phase as moved by LINK calibrations, in 1/64 UI (R180). -/
  phase : Int
  deriving DecidableEq, Repr

/-- A back-channel command in flight (R114): the host's, or a ticket's register write. -/
structure BcFlight where
  tag : Nat
  code : Nat
  /-- Easel and ticket command of a ticket write. -/
  ticket : Option (Nat × Nat)
  deriving DecidableEq, Repr

/-- One lane group beside its registers. -/
structure GroupSt where
  lanes : List LaneSt
  flight : Option BcFlight
  /-- Tag of the previous command of the group (R116). -/
  lastTag : Nat
  /-- CLK was entered from SLEEP: LOCK follows clock-good directly, at the retained offsets (R119). -/
  wake : Bool
  /-- CTLE as adapted in native mode. -/
  ctle : Option Nat
  /-- Bits checked in test mode beyond the last whole 1,024. -/
  bits : Nat
  /-- It saw an invalid header in the row stripe in progress, or a lock loss or a deskew loss (R110). -/
  saw : Bool
  deriving DecidableEq, Repr

/-- The deskew procedure of one set on one home half (R106). -/
inductive Deskew where
  /-- Waiting for an ALIGN on every lane: lane position, marker count, arrival in 1/64 ps. -/
  | collect (got : List (Nat × Nat × Nat))
  /-- Confirming at the next markers: the count read last, checks made, all good so far. -/
  | confirm (count checks : Nat) (ok : Bool)
  /-- Waking with retained offsets: the first ALIGN decides (R119). -/
  | retained
  /-- In service: the count read last, and consecutive misses. -/
  | service (count misses : Nat)
  deriving DecidableEq, Repr

/-- A row report on its way to the frame tracker on West (R146). -/
structure RowReport where
  easel : Nat
  serial : Nat
  ob : Bool
  index : Nat
  /-- 0 ok, 1 check error, 2 discarded. -/
  result : Nat
  check : Option Nat
  /-- Intake discarded blocks of the row (R74, R149). -/
  spilt : Bool
  /-- Data blocks of the row (R98). -/
  blocks : Nat
  deriving DecidableEq, Repr

/-- A row the tile assembler has taken in (R151), with the photosites' payload bytes, optical-black columns first. -/
structure RowData where
  easel : Nat
  serial : Nat
  ob : Bool
  index : Nat
  /-- The row is bad: a check error or discarded (R152). -/
  bad : Bool
  data : List Byte
  /-- Blocks of it that the intake chains of its home half hold until the brushes take it (R74). -/
  held : Nat
  deriving DecidableEq, Repr

/-- The Barosh link and the intake (spec/03). -/
structure LinkSt where
  groups : List GroupSt
  /-- By lowest group of the set, then half: entry 2 g + h. -/
  deskew : List Deskew
  reports : List RowReport
  /-- Rows held for tiles and statistics. -/
  rows : List RowData
  /-- Blocks held in each half's intake chains (R74). -/
  intake : List Nat
  /-- By easel, the row of the latest good lane header on any lane of its set. -/
  rowNow : List (Option (Bool × Nat))
  deriving DecidableEq, Repr

def LaneSt.init : LaneSt :=
  { run := 0, offset := 0, invalids := [], first := false, hist := 0, row := none, sure := false, unsure := false, time := 0, data := 0, tail := false, marker := 0,
    index := 0, fwd := [], running := false, bufs := [[], []], prbsSeen := 0, prbs := 0, phase := 0 }
def GroupSt.init : GroupSt :=
  { lanes := List.replicate 12 LaneSt.init, flight := none, lastTag := 0, wake := false, ctle := none, bits := 0, saw := false }
def LinkSt.init : LinkSt :=
  { groups := List.replicate 16 GroupSt.init, deskew := List.replicate 32 (.collect []), reports := [], rows := [], intake := [0, 0],
    rowNow := List.replicate 4 none }

/-- The states of a frame (R145). -/
inductive FrameState where
  | opened | held | dry | damaged | scraped
  deriving DecidableEq, Repr

/-- A frame of an easel (R145 to R149). -/
structure Frame where
  serial : Nat
  st : FrameState
  /-- The 16-bit fault word (R149). -/
  fault : Nat
  /-- Active and optical-black rows reported, and the active rows among them that are bad. -/
  seen : List Nat
  seenOb : List Nat
  badRows : List Nat
  /-- Configured rows that were bad. -/
  bad : Nat
  /-- Row checks of the reported rows whose trailer arrived, in arrival order (R147). -/
  checks : List Nat
  ended : Bool
  /-- Policy at its frame-start (R127): on_short, on_error, max_bad_rows. -/
  onShort : Bool
  onError : Bool
  maxBad : Nat
  /-- Profile at its frame-start. -/
  width : Nat
  height : Nat
  obRows : Nat
  obCols : Nat
  fmt : Nat
  cfa : Nat
  /-- Its start time stamp (R72), in nanoseconds of the time base. -/
  stamp : Nat
  /-- The time base was not LOCKED at it. -/
  freeRun : Bool
  /-- Ticket named in its records (R141, R142). -/
  ticket : Nat
  /-- The colour path takes it (R68). -/
  taken : Bool
  /-- The canvas slot it was given. -/
  slot : Option Nat
  /-- The timecode count at its frame-start stamp (R544). -/
  tc : Nat
  /-- The take it belongs to records it: its index among the take's accepted frames is kept there. -/
  inTake : Bool
  /-- Real-time deadline missed (R607). -/
  deadline : Bool
  deriving DecidableEq, Repr

/-- A ticket bound to a frame (R139 to R143). -/
structure Bound where
  /-- The TICKET_POST command. -/
  id : Nat
  ticket : Nat
  frame : Nat
  target : Nat
  /-- Register writes not yet sent, address and data. -/
  writes : List (Nat × Nat)
  /-- A write is in flight. -/
  busy : Bool
  failed : Bool
  /-- ticket_late for its target frame. -/
  late : Bool
  /-- What became of the target: the status of R143 without BC_FAIL. -/
  outcome : Option Nat
  deriving DecidableEq, Repr

/-- One easel beside its registers (R125). -/
structure EaselSt where
  /-- Frames, newest first, settled ones kept. -/
  frames : List Frame
  /-- Rows up to the next frame-start are discarded (R109). -/
  discard : Bool
  lastRow : Option Nat
  lastOb : Option Nat
  /-- Blocks that the intake discarded by R74 and whose row stripe is not taken yet: place and lane position. -/
  spilt : List (BlockPlace × Nat)
  /-- A row stripe has begun on the set while it was UP and has not been received as a row (R110). -/
  stripe : Bool
  /-- Blocks of row stripes not yet received as rows that each half's intake chains hold. -/
  onWay : List Nat
  /-- Groups that slept while the current frame was OPEN: they deliver none of its remaining blocks (R118). -/
  slept : List Nat
  /-- Heritage serial: upper 16 bits and the last 32-bit value (R111). -/
  serialHi : Nat
  serial32 : Option Nat
  /-- The frame whose ticket window is open past its frame-start. -/
  window : Option Nat
  /-- Pending TICKET_POST commands of the window, oldest first. -/
  pending : List Nat
  bound : List Bound
  /-- Windows that bound a ticket: frame and ticket ID, newest first (R141). -/
  history : List (Nat × Nat)
  /-- Frame-starts accepted since the easel opened (R68). -/
  accepted : Nat
  /-- The serial of the first of them (R194). -/
  first : Nat
  /-- EV_GLB_PACE_SLOW has been raised for its mode (R64). -/
  slow : Bool
  deriving DecidableEq, Repr

def EaselSt.init : EaselSt :=
  { frames := [], discard := false, lastRow := none, lastOb := none, spilt := [], stripe := false, onWay := [0, 0], slept := [], serialHi := 0, serial32 := none,
    window := none, pending := [], bound := [], history := [], accepted := 0, first := 0, slow := false }

/-- A region of the memory plan in 4 KiB units (R276). -/
structure Region where
  entry : Nat
  base : Nat
  size : Nat
  kind : Nat
  owner : Nat
  deriving DecidableEq, Repr

/-- One pseudo-channel (R270 to R274). -/
structure PcSt where
  /-- The retry buffer: the last 64 issued commands, oldest first. -/
  retry : List HbmCmd
  /-- A parity alert stands. -/
  alert : Bool
  /-- Activation table: bank, row, count. -/
  table : List (Nat × Nat × Nat)
  deriving DecidableEq, Repr

/-- One HBM stack beside its registers. -/
structure StackSt where
  pcs : List PcSt
  /-- Consecutive alerts without a clean replay (R271). -/
  alerts : Nat
  /-- The band being taken over and the pseudo-channels that have it (R269). -/
  newBand : Option (Nat × List Nat)
  /-- HBM_UE_ADDR holds an unread address (R272). -/
  latched : Bool
  deriving DecidableEq, Repr

/-- The states of a canvas slot (R283). -/
inductive SlotState where
  | free | wet | settled | scraped
  deriving DecidableEq, Repr

/-- One canvas slot: its frame and the holds on its two parts (R285). -/
structure Slot where
  st : SlotState
  serial : Nat
  holds : List (Nat × Holder)
  deriving DecidableEq, Repr

/-- The canvas of an easel (R281 to R283): slot part size and region starts in bytes, tile columns, tiles per part. -/
structure CanvasSt where
  slots : List Slot
  next : Nat
  size : Nat
  base0 : Nat
  base1 : Nat
  cols : Nat
  tiles : Nat
  deriving DecidableEq, Repr

/-- HBM and canvases (spec/08). -/
structure HbmSt where
  stackSts : List StackSt
  /-- The plan in force. -/
  plan : List Region
  /-- The plan being checked and whether the write was barred (R278). -/
  check : Option (List Region × Bool)
  /-- Writes that wait for the plan check, in order. -/
  waits : List Instr
  canvases : List CanvasSt
  /-- Addresses whose data a read found uncorrectable (R272), until they are written again. -/
  poison : List Nat
  /-- Writes that wait for their stack to be ready or for an alert to clear, oldest first: address and bytes (R269, R270). -/
  held : List (Nat × List Byte)
  deriving DecidableEq, Repr

def PcSt.init : PcSt := { retry := [], alert := false, table := [] }
def StackSt.init : StackSt := { pcs := List.replicate 32 PcSt.init, alerts := 0, newBand := none, latched := false }
def CanvasSt.init : CanvasSt := { slots := [], next := 0, size := 0, base0 := 0, base1 := 0, cols := 0, tiles := 0 }
def HbmSt.init : HbmSt :=
  { stackSts := List.replicate 2 StackSt.init, plan := [], check := none, waits := [], canvases := List.replicate 4 CanvasSt.init, poison := [], held := [] }

/-- A conditioning set: the committed shadow registers, and the tables read for it (R164, R170, R176, R178). -/
structure CondSet where
  regs : RegStore
  /-- Defect map entries as R170 lays them out. -/
  map : List Nat
  /-- Column gains, unsigned 2.14, by active column. -/
  colgain : List Nat
  /-- Shading gains, unsigned 4.12, in the order of R176. -/
  shade : List Nat
  deriving DecidableEq, Repr

/-- What one frame gives a calibration run (R180): black sums by channel, column sums, fusion sums, detector hits. -/
structure CalSums where
  /-- By channel: sum and number of the optical-black samples. -/
  black : List (Int × Nat)
  /-- By column: a mean less black as an exact quotient, and frames. -/
  cols : List (Nat × (Int × Nat) × Nat)
  /-- By column: sum of h_m, sum of l_m × ratio, samples. -/
  fuse : List (Nat × Int × Int × Nat)
  /-- By map entry value [29:0]: frames with a hit. -/
  hits : List (Nat × Nat)
  deriving DecidableEq, Repr

/-- A calibration run (R180 to R190), waiting or running. -/
structure CalRun where
  kind : Nat
  /-- COND_CAL commands that complete with it. -/
  cmds : List Nat
  auto : Bool
  forced : Bool
  running : Bool
  /-- Frame-starts accepted when it was asked for, and the first serial it takes once it runs. -/
  since : Nat
  first : Nat
  need : Nat
  taken : Nat
  sums : CalSums
  /-- The last frame that contributed. -/
  last : Nat
  deriving DecidableEq, Repr

/-- The conditioning of one frame: its set, the filter state and column table at its frame-start, and what the brushes and
the black unit made of it. -/
structure CondFrame where
  serial : Nat
  set : CondSet
  filt : List (Int × Nat)
  src : Nat
  table : List Int
  /-- B(c) of the row source, once complete (R169). -/
  black : Option (List (Int × Nat))
  /-- Channels whose weak estimate has been reported. -/
  weak : List Nat
  waited : Bool
  fuse : List (Nat × Int × Int × Nat)
  hits : List Nat
  deriving DecidableEq, Repr

/-- Conditioning of one easel beside its registers. -/
structure CondSt where
  inForce : CondSet
  /-- The shadows a commit's check looks at. -/
  check : Option RegStore
  /-- A set that passed, with its map, waiting for its frame-start. -/
  ready : Option (RegStore × List Nat)
  /-- S(c) of the next frame, the serial it came from and the DRY frame it was last taken from (R166). -/
  filt : List (Int × Nat)
  src : Nat
  seen : Option Nat
  /-- Column table in 1/16 LSB (R174). -/
  table : List Int
  frames : List CondFrame
  runs : List CalRun
  /-- Ended runs whose result waits for a frame-start (R181). -/
  results : List CalRun
  /-- Trigger temperature at each kind's last completed run, in 0.01 °C (R183). -/
  temps : List (Option Int)
  /-- Kinds skipped, due again when the last open take closes (R184). -/
  skipped : List Nat
  /-- The trigger temperature at the latest thermal sample. -/
  trigger : Option Int
  /-- Thermal samples since COND_SENSOR_TEMP was written (R183). -/
  sensorAge : Option Nat
  deriving DecidableEq, Repr

/-- Half calibrations: runs of kinds 6 and 7, and the corrections of the 32 pace meters. -/
structure HalfCal where
  runs : List CalRun
  corr : List (Int × Nat)
  deriving DecidableEq, Repr

def CondSet.init : CondSet := { regs := [], map := [], colgain := [], shade := [] }
def CondSt.init : CondSt :=
  { inForce := CondSet.init, check := none, ready := none, filt := List.replicate 4 (0, 1), src := 0, seen := none, table := [],
    frames := [], runs := [], results := [], temps := List.replicate 5 none, skipped := [], trigger := none, sensorAge := none }
def HalfCal.init : HalfCal := { runs := [], corr := List.replicate 32 (0, 1) }

/-- A device ledger record (R634): its body as the values it holds. -/
structure LedgerRec where
  seq : Nat
  kind : Nat
  key : Nat
  vals : List Nat
  deriving DecidableEq, Repr

/-- A fused tile that has left its brush and is not yet in the canvas (R23). -/
structure FusedTile where
  easel : Nat
  serial : Nat
  tile : Nat
  record : List Byte
  data : List Byte
  deriving DecidableEq, Repr

/-- The brushes and the canvas writes (R133, R134): by half the ready bands as easel, serial and band, oldest first, and the
easel of the half's previous band; the bands the brushes have taken; the tiles on their way to the canvas, and as the live colour path has
them from the brushes (R192); the tiles closed, by easel, serial and tile; and those readable in the canvas. -/
structure BrushSt where
  ready : List (List (Nat × Nat × Nat))
  prev : List (Option Nat)
  taken : List (Nat × Nat × Nat)
  fused : List FusedTile
  live : List FusedTile
  closed : List (Nat × Nat × Nat)
  readable : List (Nat × Nat × Nat)
  deriving DecidableEq, Repr

def BrushSt.init : BrushSt := { ready := [[], []], prev := [none, none], taken := [], fused := [], live := [], closed := [], readable := [] }

/-- A palette slot (R204, R209): the HBM addresses of its verified image in stack 0 and stack 1, none when empty, and whether a load is in
progress. -/
structure PalSlot where
  place : Option (Nat × Nat)
  loading : Bool
  deriving DecidableEq, Repr

/-- The statistics of one frame (R226 to R229): histogram bins as 256 × channel + bin with their counts, clipped samples by
channel, zone sums as 4 × zone + channel with sum and count, present and damaged tiles. -/
structure StatFrame where
  serial : Nat
  pal : RegStore
  hist : List (Nat × Nat)
  clips : List Nat
  zones : List (Nat × Nat × Nat)
  present : Nat
  damaged : Nat
  /-- The VIEW sets in force when it opened (R222), the views whose crop does not fit it (R223), the bands that views read from the canvas as
  view and band (R76, R193), and the canvas tiles that the colour path has checked (R29). -/
  views : List RegStore
  noCrop : List Nat
  fallback : List (Nat × Nat)
  checked : List Nat
  deriving DecidableEq, Repr

/-- The colour path of an easel beside its registers: the set in force, the one being checked and the one waiting, the
palette slots, the frames, and settled frames whose statistics wait to be posted. -/
structure PalSt where
  inForce : RegStore
  check : Option RegStore
  ready : Option RegStore
  slots : List PalSlot
  frames : List StatFrame
  queue : List Nat
  deriving DecidableEq, Repr

/-- Who holds a view's ring slot (R220): a raster output, a stream context or a network sender. -/
inductive ViewHolder where
  | out (o : Nat) | ctx (x : Nat) | snd (n : Nat)
  deriving DecidableEq, Repr

/-- A slot of a view's picture ring (R219). -/
structure ViewSlot where
  /-- A picture stands in it or is being written. -/
  used : Bool
  writing : Bool
  serial : Nat
  easel : Nat
  wet : Bool
  /-- 0 unsettled, 1 DRY, 2 DAMAGED, 3 SCRAPED. -/
  state : Nat
  fault : Nat
  count : Nat
  /-- When the picture was begun, as a rising number. -/
  begun : Nat
  /-- Output lines delivered so far. -/
  lines : Nat
  /-- When its first 64 lines became available, as a rising number; 0 before. -/
  avail : Nat
  holders : List ViewHolder
  /-- The VIEW set of its picture, and the picture is flagged damaged because a palette could not be read (R222, R272). -/
  set : RegStore
  hurt : Bool
  deriving DecidableEq, Repr

/-- A picture ring: the set that laid it out, its slots and the next slot in ring order (R219, R220). -/
structure ViewRing where
  set : RegStore
  slots : List ViewSlot
  next : Nat
  deriving DecidableEq, Repr

/-- A view beside its registers. -/
structure ViewSt where
  inForce : RegStore
  check : Option RegStore
  ready : Option RegStore
  slots : List PalSlot
  ring : List ViewSlot
  next : Nat
  count : Nat
  /-- The ring of the set before, for pictures of frames opened under it (R222). -/
  before : Option ViewRing
  deriving DecidableEq, Repr

def PalSlot.init : PalSlot := { place := none, loading := false }
def PalSt.init : PalSt := { inForce := [], check := none, ready := none, slots := List.replicate 4 PalSlot.init, frames := [], queue := [] }
def ViewSt.init : ViewSt :=
  { inForce := [], check := none, ready := none, slots := List.replicate 2 PalSlot.init, ring := [], next := 0, count := 0, before := none }

/-- A tile in a packer lane (R243, R244). -/
structure PackTile where
  seq : Nat
  easel : Nat
  serial : Nat
  tile : Nat
  record : List Byte
  data : List Byte
  /-- Its frame was scraped: a void entry is due (R254). -/
  void : Bool
  deriving DecidableEq, Repr

/-- A committed lane-ring entry not yet freed (R247, R250): its size in bytes, and whether a segment has taken it and may
free it. -/
structure PackEntry where
  seq : Nat
  easel : Nat
  serial : Nat
  tile : Nat
  void : Bool
  record : List Byte
  payload : List Byte
  size : Nat
  /-- Its offset in the lane ring. -/
  off : Nat
  taken : Bool
  free : Bool
  deriving DecidableEq, Repr

/-- A packer lane: its tiles, oldest first, whether it is stalled (R249), the payload words of the entry in hand that are written and whether
that tile has fallen back to raw (R249, R251), and the entries of its ring, oldest first. -/
structure PackLane where
  tiles : List PackTile
  stalled : Bool
  words : Nat
  fell : Bool
  ring : List PackEntry
  deriving DecidableEq, Repr

/-- What the entries of a frame's half came to (R261): present tiles, payload bytes, entries committed. -/
structure PackSum where
  easel : Nat
  serial : Nat
  present : Nat
  bytes : Nat
  done : Nat
  deriving DecidableEq, Repr

/-- A half's packer beside its registers: the lanes, the tiles taken, the sums, and the tile a decode unit rebuilt last. -/
structure PackSt where
  lanes : List PackLane
  taken : List (Nat × Nat × Nat)
  sums : List PackSum
  decoded : Option (List Byte × List Byte)
  deriving DecidableEq, Repr

def PackLane.init : PackLane := { tiles := [], stalled := false, words := 0, fell := false, ring := [] }
def PackSt.init : PackSt := { lanes := List.replicate 48 PackLane.init, taken := [], sums := [], decoded := none }

/-- Where a segment's data is held until its programs have passed (R311, R312): the canvas slot part, lane-ring entries by
sequence number, the elastic region at an address, or the part itself (a sidecar of a command, a relocation). -/
inductive SegSource where
  | canvas
  | ring (seqs : List Nat)
  | elastic (addr : Nat)
  | inner
  deriving DecidableEq, Repr

/-- A segment on its way to the media (R302): the command of a sidecar, whether it is relocated, its start LPN and the pages
placed so far, once placement has begun. -/
structure SegTask where
  seg : Segment
  src : SegSource
  cmd : Option Nat
  reloc : Bool
  start : Option Nat
  put : Nat
  /-- Its frame was scraped or its take ended before it: never referenced. -/
  dead : Bool
  deriving DecidableEq, Repr

/-- How far a program unit has come. -/
inductive UnitStage where
  | filling | queued | passed | failed
  deriving DecidableEq, Repr

/-- A program unit of an open stripe (R295, R296): slots 0 to 14 carry data, slot 15 the parity. -/
structure ProgUnit where
  stripe : Nat
  slot : Nat
  place : PuPlace
  pages : List PageRef
  stage : UnitStage
  deriving DecidableEq, Repr

/-- A block set of a mounted reel (R296, R342): 1 formed, 2 closed, 3 freed; its blocks and erase counts by channel, the next
word line, the seconds of its forming, and whether it is to take no further stripe (R317). -/
structure BlockSet where
  id : Nat
  index : Nat
  state : Nat
  blocks : List Nat
  counts : List Nat
  nextWl : Nat
  secs : Nat
  stop : Bool
  deriving DecidableEq, Repr

/-- A stripe with its set and word line. -/
structure StripeAt where
  serial : Nat
  set : Nat
  wl : Nat
  deriving DecidableEq, Repr

/-- A reel's tables (R336, R358, R359): what replay of its ledger gives, kept as further groups pass. -/
structure Reel where
  hdr : ReelHeader
  readOnly : Bool
  /-- The key in the clear, held while the reel is mounted (R369). -/
  key : List Byte
  sets : List BlockSet
  stripes : List StripeAt
  detours : List (Nat × Nat)
  retired : List Retired
  takes : List TakeEntry
  varnish : List (Nat × Nat × Nat × Nat × Nat)
  frames : List FrameEntry
  /-- Committed segments, each with its take and frame serial. -/
  segs : List (Nat × Nat × SegEntry)
  sidecars : List (SidecarEntry × List SegEntry)
  /-- scan_from of the newest COMMIT (R344). -/
  scan : Nat
  ledger : List (List Nat)
  /-- Erase counts of the block table (R306). -/
  counts : List (BlockAt × Nat)
  /-- Oldest program times of the block table in PTP seconds (R306), of blocks programmed since the mount. -/
  times : List (BlockAt × Nat)
  /-- The next stripe serial (R331). -/
  top : Nat
  deriving DecidableEq, Repr

/-- What a die operation does (R307). -/
inductive OpKind where
  /-- Programs a unit of a stripe. -/
  | unit (stripe slot : Nat)
  /-- Programs a copy of a record of the ledger group in hand. -/
  | ledger (rec copy page : Nat)
  /-- Programs an SLC page of a format or sanitise. -/
  | slc (page : Nat) (content : SlcPage)
  /-- Erases a block, for a format or sanitise or for the erased pool. -/
  | erase (admin : Bool)
  /-- Reads a page of a segment to be relocated. -/
  | read (wl page serial : Nat)
  /-- Reads a page for a host command, by its decode number. -/
  | fetch (wl page cmd : Nat)
  /-- Reads an SLC page for a mount. -/
  | look (page : Nat)
  deriving DecidableEq, Repr

/-- A die operation, queued or running. -/
structure DieOp where
  die : Nat
  block : Nat
  cls : Nat
  kind : OpKind
  running : Bool
  deriving DecidableEq, Repr

/-- The ledger group being programmed (R339, R340): its records, the copies not yet passed, and whether it stands on reserve
pages (R347). -/
structure LedgerGroup where
  records : List LRecord
  waiting : List (Nat × Nat)
  reserve : Bool
  deriving DecidableEq, Repr

/-- The reel ledger of a port (R339 to R347): the next sequence number, the group in hand, entries waiting, the current block
and next page by ledger die, the free blocks by ledger die, the snapshot groups left to write with the first sequence number
of the snapshot, and whether the reserve holds an ending entry. -/
structure LedgerSt where
  seq : Nat
  group : Option LedgerGroup
  pend : List LEntry
  cur : List (Option (Nat × Nat))
  free : List (List Nat)
  snap : List (List LRecord)
  snapFirst : Option Nat
  reserved : Bool
  deriving DecidableEq, Repr

/-- Format or sanitise work (R371): the command, the step, the next block, the operations outstanding, and what it found. -/
structure AdminWork where
  cmd : Option Nat
  sanitise : Bool
  step : Nat
  next : Nat
  left : Nat
  wipPage : Nat
  hdr : ReelHeader
  /-- The control blocks the new generation is written to, by control die (R337); none where a die has no such block. -/
  ctl : List (Option Nat)
  bad : List Retired
  /-- Bad blocks of the span in hand. -/
  span : List Retired
  deriving DecidableEq, Repr

/-- A mount under way (R363, R436, R439): its command, whether it asks for a read-only reel, the phase (1 headers, 2 replay, 3 glean, 4 reconcile), the
page reads outstanding, the pages of segments read so far by port, and what it will answer. -/
structure MountWork where
  cmd : Nat
  ro : Bool
  phase : Nat
  left : Nat
  seen : List (Nat × PuPlace × Nat)
  status : Nat
  gleaned : Nat
  recovered : Nat
  deriving DecidableEq, Repr

/-- One magazine port beside its registers. -/
structure PortSt where
  mag : Option Magazine
  reel : Option Reel
  ledger : LedgerSt
  /-- Segments to program, in arrival order. -/
  tasks : List SegTask
  /-- Segments whose programs have passed and that no group references yet: take, frame serial, entry. -/
  done : List (Nat × Nat × SegEntry)
  /-- Segments of commands' sidecars that have passed: command and entry. -/
  sideDone : List (Nat × SegEntry)
  /-- Sidecar files being written: command, entry, segments. -/
  sides : List (Nat × SidecarEntry × Nat)
  /-- Units of open stripes. -/
  units : List ProgUnit
  /-- Pages of failed units waiting for the next stripe, with the LPN they began at (R317, R333). -/
  moves : List (Nat × List PageRef)
  /-- Stripes whose STRIPE entry has passed. -/
  begun : List Nat
  nextStripe : Nat
  nextSeg : Nat
  nextSet : Nat
  lastIndex : Nat
  /-- Segments placed and not referenced, nor freed: serial, start LPN (R344). -/
  loose : List (Nat × Nat)
  ops : List DieOp
  /-- Operations whose issuer waits for room in `ops` (R307, R45), in arrival order. -/
  held : List DieOp
  /-- Block sets queued for relocation (R301, R318, R319). -/
  reloc : List Nat
  /-- Segments being read for relocation: serial, pages still to read, and codewords of the segment found uncorrectable. -/
  moving : List (Nat × Nat × List Nat)
  /-- Page reads by block since its set was programmed (R318). -/
  reads : List (BlockAt × Nat)
  /-- The open stripes are to be filled with pad units (R298). -/
  pad : Bool
  spareTold : Bool
  lowTold : Bool
  /-- PFW_N is recognised and the sequence of R323 runs. -/
  pfw : Bool
  /-- Programs that have ended since. -/
  pfwEnded : Nat
  admin : Option AdminWork
  mount : Option MountWork
  /-- An UNMOUNT that drains. -/
  unmount : Option Nat
  deriving DecidableEq, Repr

/-- A frame of a take that is neither committed on every port nor dropped: DRY 1 or DAMAGED 2 once settled, its fault word and
time stamp, tiles put in segments by half, next ordinal by half, halves with their last segment closed, ports it is committed
on, and its index once given. -/
structure TakeFrame where
  serial : Nat
  settled : Option Nat
  fault : Nat
  stamp : Nat
  tiles : List Nat
  ords : List Nat
  closed : List Nat
  ports : List Nat
  index : Option Nat
  deriving DecidableEq, Repr

/-- The take of an easel beside its registers (R414). -/
structure TakeSt where
  limit : Nat
  accepted : Nat
  openCmd : Option Nat
  closeCmds : List Nat
  frames : List TakeFrame
  /-- Next frame index. -/
  next : Nat
  /-- Segments closed for the take by half (R303). -/
  tseg : List Nat
  /-- The ending cause: status and state of the ending TAKE entry (R421). -/
  ending : Option (Nat × Nat)
  /-- Ports whose opening or ending TAKE entry has still to pass. -/
  wait : List Nat
  /-- The ending entries have been given to the ledgers. -/
  ended : Bool
  /-- Ports of the take that still have their reel. -/
  ports : List Nat
  serial0 : Nat
  opened : Nat
  spilled : Bool
  /-- Stripes, by port, that were open when the last frame of a closing take had gone, whose parity it waits for (R419). -/
  drain : Option (List (Nat × Nat))
  /-- The reels of ports A and B when the take opened, for the partner field (R343). -/
  reels : List ReelId
  deriving DecidableEq, Repr

/-- A page that a read needs: port, segment, page in the segment, and where that page stands. -/
structure PageWant where
  port : Nat
  serial : Nat
  k : Nat
  place : PuPlace
  page : Nat
  deriving DecidableEq, Repr

/-- A READ_TILES or READ_RANGE in hand (R308 class 2, R423, R424, R430): the pages still unread, the codewords found lost as port, segment and
codeword in it, the units delivered, and the tiles counted present and damaged. -/
structure ReadWork where
  cmd : Nat
  unread : List PageWant
  lost : List (Nat × Nat × Nat)
  next : Nat
  present : Nat
  damaged : Nat
  deriving DecidableEq, Repr

/-- The magazines and takes. -/
structure StoreSt where
  ports : List PortSt
  takes : List TakeSt
  /-- Elastic space in use by half: address and size (R312). -/
  elastic : List (List (Nat × Nat))
  /-- The next take number by roll, as the device ledger holds it (R355). -/
  rolls : List (Nat × Nat)
  /-- Reels formatted under a roll: roll, reel number, PTP seconds (R335). -/
  formatted : List (Nat × Nat × Nat)
  /-- FLUSH commands that wait, with the settled frames by easel and the open stripes by port they wait for, and the frames
  committed meanwhile. -/
  flushes : List (Nat × List (Nat × Nat) × List (Nat × Nat) × Nat)
  /-- WRITE_SIDECAR commands: ports still to end, first failing status, and the sidecar number by port. -/
  sideCmds : List (Nat × List Nat × Nat × List Nat)
  reads : List ReadWork
  deriving DecidableEq, Repr

def LedgerSt.init : LedgerSt :=
  { seq := 0, group := none, pend := [], cur := List.replicate 16 none, free := List.replicate 16 [], snap := [], snapFirst := none,
    reserved := false }
def PortSt.init : PortSt :=
  { mag := none, reel := none, ledger := LedgerSt.init, tasks := [], done := [], sideDone := [], sides := [], units := [], moves := [], begun := [],
    nextStripe := 0, nextSeg := 1, nextSet := 0, lastIndex := 15, loose := [], ops := [], held := [], reloc := [], moving := [], reads := [],
    pad := false, spareTold := false, lowTold := false, pfw := false, pfwEnded := 0, admin := none, mount := none, unmount := none }
def TakeSt.init : TakeSt :=
  { limit := 0, accepted := 0, openCmd := none, closeCmds := [], frames := [], next := 0, tseg := [0, 0], ending := none, wait := [],
    ended := false, ports := [], serial0 := 0, opened := 0, spilled := false, drain := none, reels := [] }
def StoreSt.init : StoreSt :=
  { ports := List.replicate 2 PortSt.init, takes := List.replicate 4 TakeSt.init, elastic := [[], []], rolls := [], formatted := [], flushes := [], sideCmds := [], reads := [] }

/-- A buffer of a reference pool (R451, R452): its address and size, its holder (stream context 0 to 15, or 16 + decode context), its
mark (0 unused, 1 being written, 2 wet, 3 short-term, 4 long-term), and the picture in it. -/
structure PoolBuf where
  addr : Nat
  size : Nat
  owner : Nat
  mark : Nat
  easel : Nat
  serial : Nat
  poc : Nat
  sweep : Nat
  deriving DecidableEq, Repr

/-- What the parameter sets of a context say (R443, R444): profile, tier and level, chroma format, bit depth, coded size, conformance
window (right and bottom, in luma samples), range, colour codes, tile columns, wavefront. -/
structure ScParams where
  profile : Nat
  tier : Nat
  level : Nat
  c422 : Bool
  depth : Nat
  width : Nat
  height : Nat
  right : Nat
  bottom : Nat
  fullRange : Bool
  primaries : Nat
  transfer : Nat
  matrix : Nat
  tileColumns : Nat
  wavefront : Bool
  deriving DecidableEq, Repr

/-- What a NAL unit of an access unit says: the SEI of R463; a parameter set by its NAL unit type; the recovery point SEI with its
recovery_poc_cnt (R457); the slice of a partition, its first CTB in raster order, type IDR_N_LP or TRAIL_R, I or P, POC, RPS and
QP (R443, R453, R458); the picture hash SEI. -/
inductive NalSays where
  | user
  | params (type : Nat) (p : ScParams)
  | recovery (count : Nat)
  | slice (part first : Nat) (idr intra : Bool) (poc : Nat) (rps : List (Nat × Bool)) (qp : Nat)
  | hash
  deriving DecidableEq, Repr

/-- A partition of a picture (R446, R460): its first CTB column and row, CTB rows, CTUs per row, budget, bytes kept, the next row to decide, floor mode, the
rows started, rows coded ahead of their turn as row, bytes and floor bytes, the data kept, and whether its NAL unit is committed. -/
structure ScPart where
  left : Nat
  first : Nat
  rows : Nat
  ctus : Nat
  budget : Nat
  kept : Nat
  next : Nat
  floor : Bool
  started : List Nat
  ahead : List (Nat × List Byte × List Byte)
  data : List Byte
  sent : Bool
  deriving DecidableEq, Repr

/-- The picture a context codes. -/
structure ScPic where
  easel : Nat
  serial : Nat
  slot : Nat
  /-- The pool buffer it is written to. -/
  buf : Nat
  /-- Its frame-start time stamp. -/
  stamp : Nat
  /-- Its first CTU has started. -/
  begun : Bool
  idr : Bool
  intra : Bool
  wet : Bool
  recovery : Bool
  poc : Nat
  sweep : Nat
  step : Nat
  /-- The reference picture set (R453): the POC of each buffer listed, and whether the picture may use it. -/
  rps : List (Nat × Bool)
  /-- Cores still coding it. -/
  cores : List Nat
  scraped : Bool
  /-- Bytes and NAL units of its access unit committed. -/
  bytes : Nat
  nals : Nat
  parts : List ScPart
  deriving DecidableEq, Repr

/-- A NAL unit in a bitstream ring: its access unit, what it says, its bytes, first and last of it, the senders that have still to take it, and
whether the record delivery has still to. -/
structure ScNal where
  au : Nat
  what : NalSays
  data : List Byte
  stamp : Nat
  first : Bool
  last : Bool
  live : List Nat
  record : Bool
  deriving DecidableEq, Repr

/-- An access unit of the record delivery (R465): state 0 unsettled, 1 DRY, 2 DAMAGED, 3 scraped. -/
structure ScAu where
  id : Nat
  easel : Nat
  serial : Nat
  stamp : Nat
  flags : Nat
  poc : Nat
  step : Nat
  coded : Bool
  state : Nat
  fault : Nat
  data : List Byte
  deriving DecidableEq, Repr

/-- A stream context beside its registers. -/
structure ScSt where
  inForce : RegStore
  check : Option RegStore
  /-- A QP-only set that waits for the next picture's first CTU (R478). -/
  qp : Option RegStore
  /-- Pictures in the input queue: easel, serial, ring slot, stamp (R448). -/
  queue : List (Nat × Nat × Nat × Nat)
  pic : Option ScPic
  /-- Charges of the last coded pictures, newest first (R459). -/
  window : List Nat
  /-- Pictures since the last IDR, and the next POC. -/
  sinceIdr : Nat
  poc : Nat
  coded : Nat
  published : Nat
  /-- SKETCH_REFRESH commands that wait. -/
  refresh : List Nat
  /-- A picture was skipped since the last coded one. -/
  skipping : Bool
  /-- The last coded picture: easel, serial, sweep, and whether its frame was scraped (R457). -/
  last : Option (Nat × Nat × Nat × Bool)
  aus : List ScAu
  nals : List ScNal
  nextAu : Nat
  /-- Where the next NAL unit goes in the bitstream ring. -/
  put : Nat
  /-- A SKETCH_CLOSE that waits, with its discard flag. -/
  close : Option (Nat × Bool)
  /-- Stalled cores, each with the bytes it waits for (R462). -/
  stalled : List (Nat × Nat)
  deriving DecidableEq, Repr

/-- A picture in the decoded picture buffer (R473): wanted for output, kept for reference, its latency count. -/
structure DpbPic where
  pic : HevcPic
  wanted : Bool
  kept : Bool
  late : Nat
  deriving DecidableEq, Repr

/-- A RC_DECODE in hand (R471, R473): the command, the NAL units it decodes, the pictures still to decode, the fault that ends it, the bytes
consumed so far and in all, and the pictures written. -/
structure RcWork where
  cmd : Nat
  bytes : List Byte
  steps : List HevcStep
  fault : Option (Nat × Nat × Nat × Nat)
  done : Nat
  used : Nat
  written : Nat
  deriving DecidableEq, Repr

/-- A decode context (R472 to R477): the bitstream bytes consumed since its reset, its decoded picture buffer, pictures due for output that no
command has written, pictures output, FAULT, and the command in hand. -/
structure RcSt where
  history : List Byte
  dpb : List DpbPic
  held : List HevcPic
  count : Nat
  fault : Bool
  work : Option RcWork
  deriving DecidableEq, Repr

/-- Sketch and reading cores: what each sketch core codes (context, and the row in progress) and the source samples of its row, plane by plane (R444); the two
reference pools. -/
structure VcdSt where
  ctx : List ScSt
  cores : List (Option (Nat × Option Nat))
  source : List (List (List (List Nat)))
  pool : List (List PoolBuf)
  dec : List RcSt
  deriving DecidableEq, Repr

def ScSt.init : ScSt :=
  { inForce := [], check := none, qp := none, queue := [], pic := none, window := [], sinceIdr := 0, poc := 0, coded := 0, published := 0, refresh := [],
    skipping := false, last := none, aus := [], nals := [], nextAu := 0, put := 0, close := none, stalled := [] }
def RcSt.init : RcSt := { history := [], dpb := [], held := [], count := 0, fault := false, work := none }
def VcdSt.init : VcdSt :=
  { ctx := List.replicate 16 ScSt.init, cores := List.replicate 8 none, source := List.replicate 8 [], pool := [[], []], dec := List.replicate 8 RcSt.init }

/-- The picture an output or a sender carries: its ring slot, frame, wet mark, state (0 unsettled, 1 DRY, 2 DAMAGED) and fault word as
known when it was chosen, the timecode count of its frame (R544), whether it is a repeat, and whether the slot is still held. -/
structure OutPic where
  view : Nat
  slot : Nat
  easel : Nat
  serial : Nat
  wet : Bool
  state : Nat
  fault : Nat
  tc : Nat
  again : Bool
  held : Bool
  deriving DecidableEq, Repr

/-- A raster output beside its registers (R484 to R501). -/
structure OutSt where
  inForce : RegStore
  check : Option RegStore
  ready : Option RegStore
  /-- Consecutive frame starts in ACQUIRE with a phase error of at most 1 sample. -/
  starts : Nat
  /-- Half frame periods of V pulses at an accepted rate in a row while unlocked or in holdover. -/
  pulses : Nat
  /-- The period of the latest V pulses in ns, and 0 before one is known. -/
  period : Nat
  pic : Option OutPic
  /-- Picture sent last: view and picture count (R487). -/
  last : Option (Nat × Nat)
  /-- Picture lines whose fetch has been issued, and those in the line buffer with their samples by plane. -/
  issued : List Nat
  buffer : List (Nat × List (List Nat))
  /-- Next active line of the raster frame. -/
  line : Nat
  /-- The rest of the frame is black: its picture was scraped (R494). -/
  cut : Bool
  under : Bool
  prevCut : Bool
  prevUnder : Bool
  /-- DSI commands queued, oldest first, with the pixels of a push. -/
  queue : List (Nat × List Byte)
  /-- The DCS read that waits for its reply. -/
  reading : Option Nat
  deriving DecidableEq, Repr

def OutSt.init : OutSt :=
  { inForce := [], check := none, ready := none, starts := 0, pulses := 0, period := 0, pic := none, last := none, issued := [], buffer := [], line := 0,
    cut := false, under := false, prevCut := false, prevUnder := false, queue := [], reading := none }

/-- A sender beside its registers (R536 to R542). -/
structure SndSt where
  inForce : RegStore
  /-- A committed set that waits for the next frame alignment. -/
  ready : Option RegStore
  /-- Kind 0: the picture being sent, with the packets of it that have left. -/
  pic : Option OutPic
  packet : Nat
  /-- The picture was scraped: no further packet of it is sent (R539). -/
  cut : Bool
  /-- The time stamp of the frame's alignment time, or for kind 2 the first sample to send. -/
  stamp : Nat
  /-- RTP sequence number. -/
  seq : Nat
  /-- Kind 1: bytes of the NAL unit in hand that have left. -/
  sent : Nat
  /-- View and picture count sent last (R487). -/
  last : Option (Nat × Nat)
  deriving DecidableEq, Repr

/-- A host frame that awaits launch or is on the wire (R532, R533). -/
structure TxFrame where
  cmd : Nat
  port : Nat
  stamped : Bool
  stampId : Nat
  launch : Bool
  data : List Byte
  /-- It started on the wire, and more than 1 µs after its launch time. -/
  started : Bool
  late : Bool
  deriving DecidableEq, Repr

/-- The NET domain beside its registers. -/
structure NetSt where
  snds : List SndSt
  /-- Offsets measured since LISTEN or HOLDOVER began, in ns. -/
  offsets : List Int
  /-- Syncs in a row within the window (TRACK), or beyond four windows (LOCKED). -/
  syncs : Nat
  /-- The BMCA has chosen a master: its dataset as the comparison reads it. -/
  master : Option (List Nat)
  /-- The one step is armed (R529, R530). -/
  armed : Bool
  frames : List TxFrame
  /-- Transmit stamps: port, stamp_id, time stamp (R534). -/
  txts : List (Nat × Nat × Nat)
  /-- Slots written of the receive ring. -/
  rxCount : Nat
  /-- The timecode count of the last LTC frame or preset (R543), and whether it holds because LTC has stopped. -/
  tcCount : Nat
  tcHeld : Bool
  /-- currentUtcOffset of the master, and the daily jam and local offset in seconds of its metadata TLV. -/
  utc : Int
  tlv : Option (Nat × Int)
  deriving DecidableEq, Repr

def SndSt.init : SndSt := { inForce := [], ready := none, pic := none, packet := 0, cut := false, stamp := 0, seq := 0, sent := 0, last := none }
def NetSt.init : NetSt :=
  { snds := List.replicate 8 SndSt.init, offsets := [], syncs := 0, master := none, armed := true, frames := [], txts := [], rxCount := 0, tcCount := 0,
    tcHeld := false, utc := 0, tlv := none }

/-- A frame in a port's FIFO or converter window (R509, R512): signed samples and validity by source (a TDM slot, or 2 × receiver in
the group + channel), subst, and of an AES3 group the receivers in it, those with a Z preamble and those with a non-audio detection. -/
structure AudFrame where
  samples : List Int
  valid : List Bool
  subst : Bool
  here : List Nat
  z : List Nat
  na : List Nat
  deriving DecidableEq, Repr

/-- A port beside its registers (R509 to R511): TDM0 to TDM3, then AES3 groups A and B. -/
structure AudPort where
  state : Nat
  fifo : List AudFrame
  /-- The frames the converter has taken, of the last 32 master periods. -/
  window : List AudFrame
  /-- The gain in 1/64. -/
  gain : Nat
  /-- The last converted value of each source. -/
  last : List Int
  good : Nat
  bad : Nat
  /-- The fade that runs follows an unlock, an overrun or an underrun. -/
  unlock : Bool
  overrun : Bool
  under : Bool
  /-- Input frames owed to the converter, in 1/2^30. -/
  acc : Nat
  deriving DecidableEq, Repr

/-- A channel map owner: TDM0 to TDM3, then receivers AES0 to AES7 (R513 to R516). -/
structure AudUnit where
  /-- A mask change on its way: the mask that leaves, frames of the old mask still in front of the converter, and frames of it still in
  its window. -/
  old : Option (Nat × Nat × Nat)
  /-- The next sample carries mask_change. -/
  mark : Bool
  /-- Channel status bits collected for A and B, oldest first, and whether a Z preamble began them. -/
  csA : List Bool
  csB : List Bool
  inBlock : Bool
  /-- Bits [23:8] of the last subframe. -/
  prev : Nat
  /-- Input frames of the hold still to pass, and whether non-audio is in force at the input. -/
  naLeft : Nat
  na : Bool
  /-- The mute at the converter output, and its ramp back in 1/64. -/
  mute : Bool
  gain : Nat
  /-- The latest frame received: samples, validity, Z, non-audio; none while outside R508. -/
  frame : Option (List Int × List Bool × Bool × Bool)
  /-- A frame with a Z preamble has entered the converter's window at this sample (R515). -/
  zed : Bool
  deriving DecidableEq, Repr

/-- A block being recorded (R518): its words by sample, newest first, the time stamp of sample 0 and flags [3:0] so far. -/
structure AudBlock where
  frames : List (List Nat)
  stamp : Nat
  flags : Nat
  masks : List Nat
  ptpUnlocked : Bool
  deriving DecidableEq, Repr

/-- The AUD domain beside its registers. -/
structure AudSt where
  /-- Consecutive good sample instants in ACQUIRE, and half frames of V pulses. -/
  starts : Nat
  pulses : Nat
  /-- Master sample instants since the master started. -/
  count : Nat
  ports : List AudPort
  units : List AudUnit
  block : Option AudBlock
  /-- The channel each slot of OUT0 and OUT1 carries (R522, R523). -/
  outs : List (List (Option Nat))
  /-- What each slot of OUT0 and OUT1 has carried over the last 32 master periods, newest first, for the output converters (R522). -/
  lines : List (List (List Int))
  /-- Recorded words of the latest sample instants, newest first. -/
  hist : List (List Nat)
  /-- The first block of the recording has started (R521). -/
  live : Bool
  deriving DecidableEq, Repr

def AudPort.init : AudPort :=
  { state := 0, fifo := [], window := [], gain := 0, last := [], good := 0, bad := 0, unlock := false, overrun := false, under := false, acc := 0 }
def AudUnit.init : AudUnit :=
  { old := none, mark := false, csA := [], csB := [], inBlock := false, prev := 0, naLeft := 0, na := false, mute := false, gain := 64, frame := none, zed := false }
def AudSt.init : AudSt :=
  { starts := 0, pulses := 0, count := 0, ports := List.replicate 6 AudPort.init, units := List.replicate 12 AudUnit.init, block := none,
    outs := List.replicate 2 (List.replicate 16 none), lines := List.replicate 2 (List.replicate 16 []), hist := [], live := false }

/-- A keeper (R557, R571 to R575): it runs, it has sent its first heartbeat since its last reset or reload, a fence holds it, the
arbiter's record that a fence took the bell from its half, a reload notice has come, and, in quiet, whether a heartbeat of the
stallholder has come since, how many in a row, and the count of the last. -/
structure KeeperSt where
  up : Bool
  beaten : Bool
  held : Bool
  fenced : Bool
  notice : Bool
  heard : Bool
  run : Nat
  seen : Nat
  deriving DecidableEq, Repr

/-- A message of bridge traffic class 0 on its way (R21): a shed command (R596) or a heartbeat (R571), with the half it goes to. -/
inductive Class0 where
  | shed (half level : Nat)
  | beat (half count : Nat)
  deriving DecidableEq, Repr

/-- The half a message goes to. -/
def Class0.half : Class0 → Nat
  | .shed h _ => h
  | .beat h _ => h

/-- Power, reset, the bell, and the thermal controls beside their registers. -/
structure SysSt where
  keepers : List KeeperSt
  /-- The power-on reset, RESET_N and the thermal trip assert the device reach. -/
  por : Bool
  pin : Bool
  trip : Bool
  /-- The step of R552 a running release sequence completed last: of the device, of West, of East. -/
  seqs : List (Option Nat)
  /-- RST_CAUSE bit numbers of the sources that assert each half's reset. -/
  halves : List (List Nat)
  /-- Half reset requests latched (R558). -/
  reqs : List Nat
  /-- Domains whose power switch is to open, those whose switch is open, and those that await their release gap (R551, R559). -/
  opening : List Nat
  openSw : List Nat
  gaps : List Nat
  /-- Clocked blocks whose clock-good is high, blocks that wait for it, and blocks in HELD_FAULT (R568, R569). -/
  good : List Nat
  waiting : List Nat
  fault : List Nat
  /-- The block reset in progress: its block, and whether it is in reset yet (R565). -/
  block : Option (Nat × Bool)
  /-- Resets whose entry waits for the device ledger, by reach: 0 device, 1 half, 2 function, 3 domain, 4 block (R555, R564). -/
  causes : List Nat
  /-- Consecutive trip readings by diode (R592), whether all 16 release comparators read cool last, and consecutive samples a diode
  disagreed (R587). -/
  hot : List Nat
  cool : Bool
  odd : List Nat
  /-- The rise stood above its limit at the last sample. -/
  rising : Bool
  /-- A core voltage asked of the regulator and not yet reported, and a lower plan voltage that waits (R603). -/
  asked : Option Nat
  lower : Bool
  /-- The plan ran since power-up (R601), and the last device reset was a power-on (R661). -/
  planned : Bool
  cold : Bool
  /-- The shed level each half has carried out (R593), and the messages of bridge class 0 on their way, oldest first (R21). -/
  shed : List Nat
  class0 : List Class0
  /-- The wanted voltage: plan plus boost, in mV. -/
  boostMv : Nat
  /-- The ageing samples stored: powered hours and drift; the halves' samples of the day; failed tries. -/
  samples : List (Nat × (Int × Nat))
  daily : List (Option (Int × Nat))
  tries : List Nat
  /-- The fit of samples summarised by R637: Σ a·x, Σ x² and their number. -/
  fit : (Int × Nat) × (Int × Nat) × Nat
  /-- Powered-hour marks: hours and PTP seconds; the first-use time; the duty of the last plan run. -/
  marks : List (Nat × Nat)
  firstUse : Option Nat
  duty : Int × Nat
  /-- The plan horizon t_h of the last plan run, in hours (R600). -/
  horizon : Int × Nat
  /-- Offered bits last recorded in the device ledger, by mode table entry. -/
  offered : List (Nat × Bool)
  /-- The months named by the last EV_AGE_FORECAST of this power-up. -/
  told : Option Nat
  /-- An admission check that waits for the regulator, by easel. -/
  avsWait : List Nat
  deriving DecidableEq, Repr

/-- A boot record (R627). -/
structure BootRec where
  slot : Nat
  trial : Bool
  boots : Nat
  deriving DecidableEq, Repr

/-- What the NOR, the fuses and the session logic hold (spec/19). -/
structure SecSt where
  /-- Firmware slots A and B. -/
  slots : List (List Byte)
  board : List Byte
  /-- The two boot record copies, as bytes (R627). -/
  boots : List (List Byte)
  fuseSv : Nat
  revoked : Nat
  /-- Device ledger records written, oldest first, and the next sequence number. -/
  ledger : List LedgerRec
  seq : Nat
  /-- The sectors in use of each copy area, oldest first: the sequence number in each page written, none where a write failed (R635). -/
  areas : List (List (List (Option Nat)))
  /-- Role keys by role, and consecutive failures by role (R616). -/
  roleKeys : List (Nat × List Byte)
  fails : List Nat
  /-- The outstanding nonce with its ring and role. -/
  nonce : Option (List Byte × Nat × Nat)
  deriving DecidableEq, Repr

def KeeperSt.init : KeeperSt := { up := false, beaten := false, held := false, fenced := false, notice := false, heard := false, run := 0, seen := 0 }
/-- The power-on reset is asserted until every rail is in range (R656). -/
def SysSt.init : SysSt :=
  { keepers := List.replicate 2 KeeperSt.init, por := true, pin := false, trip := false, seqs := [none, none, none], halves := [[], []], reqs := [],
    opening := [], openSw := [], gaps := [], good := [], waiting := [], fault := [], block := none, causes := [], hot := List.replicate 16 0,
    cool := false, odd := List.replicate 16 0, rising := false, asked := none, lower := false, boostMv := 0, samples := [], daily := [none, none],
    tries := [0, 0], fit := ((0, 1), (0, 1), 0), planned := false, cold := true, shed := [0, 0], class0 := [], marks := [], firstUse := none, duty := (1, 1), horizon := (0, 1), offered := [], told := none, avsWait := [] }
/-- A part with a blank device ledger and the NOR as the board holds it (DESIGN CHOICE, log 10). -/
def SecSt.init : SecSt :=
  { slots := [Config.norSlotA, Config.norSlotB], board := Config.norBoard, boots := [[], []], fuseSv := Config.fuseSv.toNat, revoked := Config.fuseRevoked.toNat,
    ledger := [], seq := 0, areas := [[], []], roleKeys := [], fails := [0, 0, 0], nonce := none }



/-- Why a run stops. -/
inductive Fault where
  /-- Raised by no command: every command that names an HBM address outside the stacks (R265) has a status of its own for it,
  and no rule stops the part. The type needs a constructor. Safe. -/
  | hbmAddress (addr : Nat)
  deriving DecidableEq, Repr

/-- Why a command is refused. -/
inductive Refusal where
  /-- Raised by the dispatch for a command that has no meaning yet. Safe. -/
  | notModelled (mnemonic : String)
  deriving DecidableEq, Repr

/-- The state of the part, and the commands that wait to be carried out. -/
structure State where
  /-- The stall chains of the interior by number (R45). A chain not listed is empty. -/
  chains : List (Nat × ChainSt)
  /-- RW register fields, held in the AON domain of the block's half (R644). -/
  cfg : RegStore
  /-- RO, RC, W1C and peak register fields. -/
  sts : RegStore
  /-- The later words of latched register groups (R643), by offset. -/
  latch : RegStore
  /-- Counts the spec names and gives no register. One not listed is 0. -/
  tally : List (Counted × Nat)
  /-- HBM contents, both stacks in the address space of R265. -/
  mem : Memory
  /-- The Barosh link and the intake. -/
  link : LinkSt
  /-- The four easels. -/
  easels : List EaselSt
  /-- Settle notices on their way: consumer, easel, serial (R153). -/
  notices : List (Consumer × Nat × Nat)
  /-- HBM stacks, the memory plan and the canvases. -/
  hbm : HbmSt
  /-- Ring engine, queues, MSI-X and barrows. -/
  host : HostSt
  /-- Conditioning and easel calibrations. -/
  cond : List CondSt
  /-- Half calibrations. -/
  condHalf : List HalfCal
  /-- Device ledger records waiting to be written (R635). -/
  ledgerWait : List LedgerRec
  /-- Ready bands, bands in the brushes and tiles on their way to the canvas. -/
  brush : BrushSt
  /-- Colour path and statistics by easel. -/
  pal : List PalSt
  /-- The eight views. -/
  views : List ViewSt
  /-- The packers of the two halves. -/
  pack : List PackSt
  /-- The magazines, the takes and the elastic buffers. -/
  stor : StoreSt
  /-- Production keys by key ID (R617). -/
  prodKeys : List (Nat × List Byte)
  /-- Stream contexts, sketch cores, reference pools and decode contexts. -/
  vcd : VcdSt
  /-- The six raster outputs. -/
  outs : List OutSt
  /-- The network, the PTP time base, the senders and timecode. -/
  net : NetSt
  /-- The PTP time base in nanoseconds as last read (R527). -/
  clock : Nat
  /-- Audio master, ports, channel maps, recording and monitoring. -/
  aud : AudSt
  /-- Power, reset, the bell, heat and ageing. -/
  sys : SysSt
  /-- The NOR, the fuses, keys and the session in the making. -/
  sec : SecSt
  /-- Transactions the part has shown outside the package, newest first. -/
  out : List Emit
  /-- The next free value: a counter of the model, not of the spec. -/
  fresh : Nat
  /-- Commands waiting, first in first out. -/
  pending : List Instr
  deriving DecidableEq, Repr

/-- The state right after the power-on reset: every register at its reset value, no command waiting. -/
def State.reset : State where
  chains := []
  cfg := []
  sts := []
  latch := []
  tally := []
  mem := []
  link := LinkSt.init
  easels := List.replicate 4 EaselSt.init
  notices := []
  hbm := HbmSt.init
  host := HostSt.init
  cond := List.replicate 4 CondSt.init
  condHalf := List.replicate 2 HalfCal.init
  ledgerWait := []
  brush := BrushSt.init
  pal := List.replicate 4 PalSt.init
  views := List.replicate 8 ViewSt.init
  pack := List.replicate 2 PackSt.init
  stor := StoreSt.init
  prodKeys := []
  vcd := VcdSt.init
  outs := List.replicate 6 OutSt.init
  net := NetSt.init
  clock := 0
  aud := AudSt.init
  sys := SysSt.init
  sec := SecSt.init
  out := []
  fresh := 0
  pending := []

end Sys2Proof.Machine
end

