-- ==== Sys2Proof/Machine/Regs.lean ====
section
/-! DEFINITION. The BAR0 registers: every field of every register table of spec/03 to spec/20, with its place,
its access class and its reset value (R639). `F.<REGISTER>_<field>` names a field, `R.<REGISTER>` a register,
and `allRegs` is the register map. -/
namespace Sys2Proof.Machine

def F.GLB_ID_LO_stepping : Fld := ⟨0, 0, 8, .ro, Config.stepping.toNat⟩
/-- GLB_ID_LO, spec/20 R646. -/
def R.GLB_ID_LO : Reg := ⟨0, 1, 0, 1, 0, [F.GLB_ID_LO_stepping]⟩

def F.GLB_ID_HI_vendor : Fld := ⟨4, 16, 16, .ro, 20044⟩
def F.GLB_ID_HI_part : Fld := ⟨4, 0, 16, .ro, 38432⟩
/-- GLB_ID_HI, spec/20 R646. -/
def R.GLB_ID_HI : Reg := ⟨4, 1, 0, 1, 0, [F.GLB_ID_HI_vendor, F.GLB_ID_HI_part]⟩

def F.GLB_CAP_stacks : Fld := ⟨8, 16, 8, .ro, 2⟩
def F.GLB_CAP_hbm_gib : Fld := ⟨8, 0, 16, .ro, Config.hbmGib⟩
/-- GLB_CAP, spec/20 R2. -/
def R.GLB_CAP : Reg := ⟨8, 1, 0, 1, 0, [F.GLB_CAP_stacks, F.GLB_CAP_hbm_gib]⟩

def F.GLB_SCRATCH_value : Fld := ⟨12, 0, 32, .rw, 0⟩
/-- GLB_SCRATCH, spec/20. -/
def R.GLB_SCRATCH : Reg := ⟨12, 1, 0, 1, 0, [F.GLB_SCRATCH_value]⟩

def F.GLB_UID_LO_value : Fld := ⟨16, 0, 32, .ro, Config.uidLo.toNat⟩
/-- GLB_UID_LO, spec/20. -/
def R.GLB_UID_LO : Reg := ⟨16, 1, 0, 1, 0, [F.GLB_UID_LO_value]⟩

def F.GLB_UID_HI_value : Fld := ⟨20, 0, 32, .ro, Config.uidHi.toNat⟩
/-- GLB_UID_HI, spec/20. -/
def R.GLB_UID_HI : Reg := ⟨20, 1, 0, 1, 0, [F.GLB_UID_HI_value]⟩

def F.GLB_PACE_DEV_sample : Fld := ⟨64, 16, 16, .ro, 0⟩
def F.GLB_PACE_DEV_code : Fld := ⟨64, 0, 16, .ro, 0⟩
/-- GLB_PACE_DEV, spec/20 R647. -/
def R.GLB_PACE_DEV : Reg := ⟨64, 1, 0, 1, 0, [F.GLB_PACE_DEV_sample, F.GLB_PACE_DEV_code]⟩

def F.GLB_PACE_W_slow : Fld := ⟨68, 16, 16, .ro, 0⟩
def F.GLB_PACE_W_mean : Fld := ⟨68, 0, 16, .ro, 0⟩
/-- GLB_PACE_W, spec/20 R647. -/
def R.GLB_PACE_W : Reg := ⟨68, 1, 0, 1, 0, [F.GLB_PACE_W_slow, F.GLB_PACE_W_mean]⟩

def F.GLB_PACE_E_slow : Fld := ⟨72, 16, 16, .ro, 0⟩
def F.GLB_PACE_E_mean : Fld := ⟨72, 0, 16, .ro, 0⟩
/-- GLB_PACE_E, spec/20 R647. -/
def R.GLB_PACE_E : Reg := ⟨72, 1, 0, 1, 0, [F.GLB_PACE_E_slow, F.GLB_PACE_E_mean]⟩

def F.GLB_PACE_STATUS_stale_e : Fld := ⟨76, 31, 1, .ro, 0⟩
def F.GLB_PACE_STATUS_stale_w : Fld := ⟨76, 30, 1, .ro, 0⟩
def F.GLB_PACE_STATUS_counted_e : Fld := ⟨76, 16, 6, .ro, 0⟩
def F.GLB_PACE_STATUS_counted_w : Fld := ⟨76, 8, 6, .ro, 0⟩
/-- GLB_PACE_STATUS, spec/20 R60. -/
def R.GLB_PACE_STATUS : Reg := ⟨76, 1, 0, 1, 0, [F.GLB_PACE_STATUS_stale_e, F.GLB_PACE_STATUS_stale_w, F.GLB_PACE_STATUS_counted_e, F.GLB_PACE_STATUS_counted_w]⟩

def F.GLB_PACE_FAULT_W_faulty : Fld := ⟨80, 0, 32, .ro, 0⟩
/-- GLB_PACE_FAULT_W, spec/20 R59. -/
def R.GLB_PACE_FAULT_W : Reg := ⟨80, 1, 0, 1, 0, [F.GLB_PACE_FAULT_W_faulty]⟩

def F.GLB_PACE_FAULT_E_faulty : Fld := ⟨84, 0, 32, .ro, 0⟩
/-- GLB_PACE_FAULT_E, spec/20 R59. -/
def R.GLB_PACE_FAULT_E : Reg := ⟨84, 1, 0, 1, 0, [F.GLB_PACE_FAULT_E_faulty]⟩

def F.GLB_PACE_REQ_code : Fld := ⟨88, 0, 16, .ro, 0⟩
/-- GLB_PACE_REQ, spec/20 R64. -/
def R.GLB_PACE_REQ : Reg := ⟨88, 1, 0, 1, 0, [F.GLB_PACE_REQ_code]⟩

def F.GLB_PACE_FAST_fast_e : Fld := ⟨92, 16, 16, .ro, 0⟩
def F.GLB_PACE_FAST_fast_w : Fld := ⟨92, 0, 16, .ro, 0⟩
/-- GLB_PACE_FAST, spec/20 R647. -/
def R.GLB_PACE_FAST : Reg := ⟨92, 1, 0, 1, 0, [F.GLB_PACE_FAST_fast_e, F.GLB_PACE_FAST_fast_w]⟩

def F.GLB_FLAGS_pace_slow : Fld := ⟨96, 2, 1, .w1c, 0⟩
def F.GLB_FLAGS_pace_fault : Fld := ⟨96, 1, 1, .w1c, 0⟩
def F.GLB_FLAGS_bad_access : Fld := ⟨96, 0, 1, .w1c, 0⟩
/-- GLB_FLAGS, spec/20 R640. -/
def R.GLB_FLAGS : Reg := ⟨96, 1, 0, 1, 0, [F.GLB_FLAGS_pace_slow, F.GLB_FLAGS_pace_fault, F.GLB_FLAGS_bad_access]⟩

def F.GLB_CNT_bad_access : Fld := ⟨100, 16, 16, .rc, 0⟩
def F.GLB_CNT_pace_slow : Fld := ⟨100, 8, 8, .rc, 0⟩
def F.GLB_CNT_pace_fault : Fld := ⟨100, 0, 8, .rc, 0⟩
/-- GLB_CNT, spec/20 R640. -/
def R.GLB_CNT : Reg := ⟨100, 1, 0, 1, 0, [F.GLB_CNT_bad_access, F.GLB_CNT_pace_slow, F.GLB_CNT_pace_fault]⟩

def F.GLB_EV_SEQ_next : Fld := ⟨112, 0, 16, .ro, 0⟩
/-- GLB_EV_SEQ, spec/20 R396. -/
def R.GLB_EV_SEQ : Reg := ⟨112, 1, 0, 1, 0, [F.GLB_EV_SEQ_next]⟩

def F.GLB_EV_TEST_value : Fld := ⟨116, 0, 32, .wo, 0⟩
/-- GLB_EV_TEST, spec/20 R648. -/
def R.GLB_EV_TEST : Reg := ⟨116, 1, 0, 1, 0, [F.GLB_EV_TEST_value]⟩

def F.RING_DB_BASE_LO_value : Fld := ⟨1048576, 0, 32, .rw, 0⟩
/-- RING_DB_BASE_LO, spec/11 R379. -/
def R.RING_DB_BASE_LO : Reg := ⟨1048576, 1, 0, 1, 0, [F.RING_DB_BASE_LO_value]⟩

def F.RING_DB_BASE_HI_value : Fld := ⟨1048580, 0, 32, .rw, 0⟩
/-- RING_DB_BASE_HI, spec/11 R379. -/
def R.RING_DB_BASE_HI : Reg := ⟨1048580, 1, 0, 1, 0, [F.RING_DB_BASE_HI_value]⟩

def F.RING_POLL_interval : Fld := ⟨1048584, 0, 8, .rw, 4⟩
/-- RING_POLL, spec/11 R380. -/
def R.RING_POLL : Reg := ⟨1048584, 1, 0, 1, 0, [F.RING_POLL_interval]⟩

def F.RING_EVQ_CFG_cq : Fld := ⟨1048588, 4, 4, .rw, 0⟩
def F.RING_EVQ_CFG_enable : Fld := ⟨1048588, 0, 1, .own, 0⟩
/-- RING_EVQ_CFG, spec/11 R396. -/
def R.RING_EVQ_CFG : Reg := ⟨1048588, 1, 0, 1, 0, [F.RING_EVQ_CFG_cq, F.RING_EVQ_CFG_enable]⟩

def F.RING_OUTSTANDING_peak : Fld := ⟨1048592, 16, 16, .rcPeak 1048592 0, 0⟩
def F.RING_OUTSTANDING_now : Fld := ⟨1048592, 0, 13, .ro, 0⟩
/-- RING_OUTSTANDING, spec/11 R385. -/
def R.RING_OUTSTANDING : Reg := ⟨1048592, 1, 0, 1, 0, [F.RING_OUTSTANDING_peak, F.RING_OUTSTANDING_now]⟩

def F.RING_FLAGS_host_err : Fld := ⟨1048596, 5, 1, .w1c, 0⟩
def F.RING_FLAGS_bad_cq : Fld := ⟨1048596, 4, 1, .w1c, 0⟩
def F.RING_FLAGS_evq_lost : Fld := ⟨1048596, 3, 1, .w1c, 0⟩
def F.RING_FLAGS_cq_full : Fld := ⟨1048596, 2, 1, .w1c, 0⟩
def F.RING_FLAGS_tail_bad : Fld := ⟨1048596, 1, 1, .w1c, 0⟩
def F.RING_FLAGS_cfg_refused : Fld := ⟨1048596, 0, 1, .w1c, 0⟩
/-- RING_FLAGS, spec/11 R384. -/
def R.RING_FLAGS : Reg := ⟨1048596, 1, 0, 1, 0, [F.RING_FLAGS_host_err, F.RING_FLAGS_bad_cq, F.RING_FLAGS_evq_lost, F.RING_FLAGS_cq_full, F.RING_FLAGS_tail_bad, F.RING_FLAGS_cfg_refused]⟩

def F.RING_CNT_cq_full : Fld := ⟨1048600, 24, 8, .rc, 0⟩
def F.RING_CNT_host_err : Fld := ⟨1048600, 16, 8, .rc, 0⟩
def F.RING_CNT_tail_bad : Fld := ⟨1048600, 8, 8, .rc, 0⟩
def F.RING_CNT_bad_cq : Fld := ⟨1048600, 0, 8, .rc, 0⟩
/-- RING_CNT, spec/11 R384. -/
def R.RING_CNT : Reg := ⟨1048600, 1, 0, 1, 0, [F.RING_CNT_cq_full, F.RING_CNT_host_err, F.RING_CNT_tail_bad, F.RING_CNT_bad_cq]⟩

def F.RING_EVQ_LOST_count : Fld := ⟨1048604, 0, 32, .rc, 0⟩
/-- RING_EVQ_LOST, spec/11 R398. -/
def R.RING_EVQ_LOST : Reg := ⟨1048604, 1, 0, 1, 0, [F.RING_EVQ_LOST_count]⟩

def F.RING_SQ_BASE_LO_value : Fld := ⟨1052672, 0, 32, .rw, 0⟩
/-- RING_SQ_BASE_LO, spec/11 R382. -/
def R.RING_SQ_BASE_LO : Reg := ⟨1052672, 16, 64, 1, 0, [F.RING_SQ_BASE_LO_value]⟩

def F.RING_SQ_BASE_HI_value : Fld := ⟨1052676, 0, 32, .rw, 0⟩
/-- RING_SQ_BASE_HI, spec/11 R382. -/
def R.RING_SQ_BASE_HI : Reg := ⟨1052676, 16, 64, 1, 0, [F.RING_SQ_BASE_HI_value]⟩

def F.RING_SQ_CFG_depth_log2 : Fld := ⟨1052680, 4, 4, .rw, 4⟩
def F.RING_SQ_CFG_enable : Fld := ⟨1052680, 0, 1, .own, 0⟩
/-- RING_SQ_CFG, spec/11 R382. -/
def R.RING_SQ_CFG : Reg := ⟨1052680, 16, 64, 1, 0, [F.RING_SQ_CFG_depth_log2, F.RING_SQ_CFG_enable]⟩

def F.RING_SQ_STATUS_head : Fld := ⟨1052684, 16, 16, .ro, 0⟩
def F.RING_SQ_STATUS_role : Fld := ⟨1052684, 8, 2, .ro, 0⟩
def F.RING_SQ_STATUS_state : Fld := ⟨1052684, 0, 2, .ro, 0⟩
/-- RING_SQ_STATUS, spec/11 R383. -/
def R.RING_SQ_STATUS : Reg := ⟨1052684, 16, 64, 1, 0, [F.RING_SQ_STATUS_head, F.RING_SQ_STATUS_role, F.RING_SQ_STATUS_state]⟩

def F.RING_CQ_BASE_LO_value : Fld := ⟨1056768, 0, 32, .rw, 0⟩
/-- RING_CQ_BASE_LO, spec/11 R391. -/
def R.RING_CQ_BASE_LO : Reg := ⟨1056768, 16, 64, 1, 0, [F.RING_CQ_BASE_LO_value]⟩

def F.RING_CQ_BASE_HI_value : Fld := ⟨1056772, 0, 32, .rw, 0⟩
/-- RING_CQ_BASE_HI, spec/11 R391. -/
def R.RING_CQ_BASE_HI : Reg := ⟨1056772, 16, 64, 1, 0, [F.RING_CQ_BASE_HI_value]⟩

def F.RING_CQ_CFG_coal_us : Fld := ⟨1056776, 24, 8, .rw, 0⟩
def F.RING_CQ_CFG_coal_count : Fld := ⟨1056776, 16, 8, .rw, 1⟩
def F.RING_CQ_CFG_vector : Fld := ⟨1056776, 8, 6, .rw, 0⟩
def F.RING_CQ_CFG_depth_log2 : Fld := ⟨1056776, 4, 4, .rw, 4⟩
def F.RING_CQ_CFG_enable : Fld := ⟨1056776, 0, 1, .own, 0⟩
/-- RING_CQ_CFG, spec/11 R391. -/
def R.RING_CQ_CFG : Reg := ⟨1056776, 16, 64, 1, 0, [F.RING_CQ_CFG_coal_us, F.RING_CQ_CFG_coal_count, F.RING_CQ_CFG_vector, F.RING_CQ_CFG_depth_log2, F.RING_CQ_CFG_enable]⟩

def F.RING_CQ_STATUS_tail : Fld := ⟨1056780, 16, 16, .ro, 0⟩
def F.RING_CQ_STATUS_head : Fld := ⟨1056780, 0, 16, .ro, 0⟩
/-- RING_CQ_STATUS, spec/11 R391. -/
def R.RING_CQ_STATUS : Reg := ⟨1056780, 16, 64, 1, 0, [F.RING_CQ_STATUS_tail, F.RING_CQ_STATUS_head]⟩

def F.BARROW_CH_HEAD_LO_value : Fld := ⟨2097152, 0, 32, .rw, 0⟩
/-- BARROW_CH_HEAD_LO, spec/11 R406. -/
def R.BARROW_CH_HEAD_LO : Reg := ⟨2097152, 32, 64, 1, 0, [F.BARROW_CH_HEAD_LO_value]⟩

def F.BARROW_CH_HEAD_HI_value : Fld := ⟨2097156, 0, 32, .rw, 0⟩
/-- BARROW_CH_HEAD_HI, spec/11 R406. -/
def R.BARROW_CH_HEAD_HI : Reg := ⟨2097156, 32, 64, 1, 0, [F.BARROW_CH_HEAD_HI_value]⟩

def F.BARROW_CH_CTRL_restart : Fld := ⟨2097160, 16, 1, .wo, 0⟩
def F.BARROW_CH_CTRL_cq : Fld := ⟨2097160, 4, 4, .rw, 0⟩
def F.BARROW_CH_CTRL_dir : Fld := ⟨2097160, 1, 1, .rw, 0⟩
def F.BARROW_CH_CTRL_enable : Fld := ⟨2097160, 0, 1, .own, 0⟩
/-- BARROW_CH_CTRL, spec/11 R406. -/
def R.BARROW_CH_CTRL : Reg := ⟨2097160, 32, 64, 1, 0, [F.BARROW_CH_CTRL_restart, F.BARROW_CH_CTRL_cq, F.BARROW_CH_CTRL_dir, F.BARROW_CH_CTRL_enable]⟩

def F.BARROW_CH_STATUS_fault : Fld := ⟨2097164, 16, 16, .ro, 0⟩
def F.BARROW_CH_STATUS_state : Fld := ⟨2097164, 0, 2, .ro, 0⟩
/-- BARROW_CH_STATUS, spec/11 R406. -/
def R.BARROW_CH_STATUS : Reg := ⟨2097164, 32, 64, 1, 0, [F.BARROW_CH_STATUS_fault, F.BARROW_CH_STATUS_state]⟩

def F.BARROW_CH_CUR_LO_value : Fld := ⟨2097168, 0, 32, .ro, 0⟩
/-- BARROW_CH_CUR_LO, spec/11 R406. -/
def R.BARROW_CH_CUR_LO : Reg := ⟨2097168, 32, 64, 1, 0, [F.BARROW_CH_CUR_LO_value]⟩

def F.BARROW_CH_CUR_HI_value : Fld := ⟨2097172, 0, 32, .ro, 0⟩
/-- BARROW_CH_CUR_HI, spec/11 R406. -/
def R.BARROW_CH_CUR_HI : Reg := ⟨2097172, 32, 64, 1, 0, [F.BARROW_CH_CUR_HI_value]⟩

def F.BARROW_CH_BYTES_LO_value : Fld := ⟨2097176, 0, 32, .rc, 0⟩
/-- BARROW_CH_BYTES_LO, spec/11 R406. -/
def R.BARROW_CH_BYTES_LO : Reg := ⟨2097176, 32, 64, 1, 0, [F.BARROW_CH_BYTES_LO_value]⟩

def F.BARROW_CH_BYTES_HI_value : Fld := ⟨2097180, 0, 32, .rc, 0⟩
/-- BARROW_CH_BYTES_HI, spec/11 R406. -/
def R.BARROW_CH_BYTES_HI : Reg := ⟨2097180, 32, 64, 1, 0, [F.BARROW_CH_BYTES_HI_value]⟩

def F.BARROW_FLAGS_tile_crc : Fld := ⟨2101248, 4, 1, .w1c, 0⟩
def F.BARROW_FLAGS_stopped : Fld := ⟨2101248, 3, 1, .w1c, 0⟩
def F.BARROW_FLAGS_host_err : Fld := ⟨2101248, 2, 1, .w1c, 0⟩
def F.BARROW_FLAGS_halt : Fld := ⟨2101248, 1, 1, .w1c, 0⟩
def F.BARROW_FLAGS_cfg_refused : Fld := ⟨2101248, 0, 1, .w1c, 0⟩
/-- BARROW_FLAGS, spec/11 R403. -/
def R.BARROW_FLAGS : Reg := ⟨2101248, 1, 0, 1, 0, [F.BARROW_FLAGS_tile_crc, F.BARROW_FLAGS_stopped, F.BARROW_FLAGS_host_err, F.BARROW_FLAGS_halt, F.BARROW_FLAGS_cfg_refused]⟩

def F.BARROW_CNT_halt : Fld := ⟨2101252, 24, 8, .rc, 0⟩
def F.BARROW_CNT_host_err : Fld := ⟨2101252, 16, 8, .rc, 0⟩
def F.BARROW_CNT_stopped : Fld := ⟨2101252, 8, 8, .rc, 0⟩
def F.BARROW_CNT_tile_crc : Fld := ⟨2101252, 0, 8, .rc, 0⟩
/-- BARROW_CNT, spec/11 R403. -/
def R.BARROW_CNT : Reg := ⟨2101252, 1, 0, 1, 0, [F.BARROW_CNT_halt, F.BARROW_CNT_host_err, F.BARROW_CNT_stopped, F.BARROW_CNT_tile_crc]⟩

def F.BARROW_BUF_peak : Fld := ⟨2101256, 16, 16, .rcPeak 2101256 0, 0⟩
def F.BARROW_BUF_used : Fld := ⟨2101256, 0, 10, .ro, 0⟩
/-- BARROW_BUF, spec/11 R400. -/
def R.BARROW_BUF : Reg := ⟨2101256, 1, 0, 1, 0, [F.BARROW_BUF_peak, F.BARROW_BUF_used]⟩

def F.SES_REQ_close : Fld := ⟨3145728, 10, 1, .wo, 0⟩
def F.SES_REQ_answer : Fld := ⟨3145728, 9, 1, .wo, 0⟩
def F.SES_REQ_challenge : Fld := ⟨3145728, 8, 1, .wo, 0⟩
def F.SES_REQ_role : Fld := ⟨3145728, 4, 2, .rw, 0⟩
def F.SES_REQ_ring : Fld := ⟨3145728, 0, 4, .rw, 0⟩
/-- SES_REQ, spec/19 R613. -/
def R.SES_REQ : Reg := ⟨3145728, 1, 0, 1, 0, [F.SES_REQ_close, F.SES_REQ_answer, F.SES_REQ_challenge, F.SES_REQ_role, F.SES_REQ_ring]⟩

def F.SES_NONCE_value : Fld := ⟨3145744, 0, 32, .ro, 0⟩
/-- SES_NONCE, spec/19 R613. -/
def R.SES_NONCE : Reg := ⟨3145744, 8, 4, 1, 0, [F.SES_NONCE_value]⟩

def F.SES_MAC_value : Fld := ⟨3145776, 0, 32, .wo, 0⟩
/-- SES_MAC, spec/19 R613. -/
def R.SES_MAC : Reg := ⟨3145776, 8, 4, 1, 0, [F.SES_MAC_value]⟩

def F.SES_RESULT_result : Fld := ⟨3145808, 0, 4, .ro, 0⟩
/-- SES_RESULT, spec/19 R614. -/
def R.SES_RESULT : Reg := ⟨3145808, 1, 0, 1, 0, [F.SES_RESULT_result]⟩

def F.SES_LOCK_f : Fld := ⟨3145812, 24, 8, .ro, 0⟩
def F.SES_LOCK_remain_s : Fld := ⟨3145812, 0, 12, .ro, 0⟩
/-- SES_LOCK, spec/19 R616. -/
def R.SES_LOCK : Reg := ⟨3145812, 3, 4, 1, 0, [F.SES_LOCK_f, F.SES_LOCK_remain_s]⟩

def F.SES_STATUS_rng_fail : Fld := ⟨3145824, 8, 1, .ro, 0⟩
def F.SES_STATUS_prod_keys : Fld := ⟨3145824, 3, 5, .ro, 0⟩
def F.SES_STATUS_role_keys : Fld := ⟨3145824, 1, 2, .ro, 0⟩
def F.SES_STATUS_provisioned : Fld := ⟨3145824, 0, 1, .ro, 0⟩
/-- SES_STATUS, spec/19 R618. -/
def R.SES_STATUS : Reg := ⟨3145824, 1, 0, 1, 0, [F.SES_STATUS_rng_fail, F.SES_STATUS_prod_keys, F.SES_STATUS_role_keys, F.SES_STATUS_provisioned]⟩

def F.SES_FLAGS_cfg_refused : Fld := ⟨3145828, 2, 1, .w1c, 0⟩
def F.SES_FLAGS_lockout : Fld := ⟨3145828, 1, 1, .w1c, 0⟩
def F.SES_FLAGS_open_fail : Fld := ⟨3145828, 0, 1, .w1c, 0⟩
/-- SES_FLAGS, spec/19 R671. -/
def R.SES_FLAGS : Reg := ⟨3145828, 1, 0, 1, 0, [F.SES_FLAGS_cfg_refused, F.SES_FLAGS_lockout, F.SES_FLAGS_open_fail]⟩

def F.SES_CNT_open_fail : Fld := ⟨3145832, 16, 16, .rc, 0⟩
def F.SES_CNT_lockout : Fld := ⟨3145832, 0, 16, .rc, 0⟩
/-- SES_CNT, spec/19 R614. -/
def R.SES_CNT : Reg := ⟨3145832, 1, 0, 1, 0, [F.SES_CNT_open_fail, F.SES_CNT_lockout]⟩

def F.FW_STATUS_fuse_sv : Fld := ⟨3145984, 24, 8, .ro, Config.fuseSv.toNat⟩
def F.FW_STATUS_revoked : Fld := ⟨3145984, 20, 4, .ro, Config.fuseRevoked.toNat⟩
def F.FW_STATUS_sv : Fld := ⟨3145984, 8, 8, .ro, 0⟩
def F.FW_STATUS_state : Fld := ⟨3145984, 6, 2, .ro, 0⟩
def F.FW_STATUS_staged : Fld := ⟨3145984, 5, 1, .ro, 0⟩
def F.FW_STATUS_boots : Fld := ⟨3145984, 3, 2, .ro, 0⟩
def F.FW_STATUS_trial : Fld := ⟨3145984, 2, 1, .ro, 0⟩
def F.FW_STATUS_slot : Fld := ⟨3145984, 0, 1, .ro, 0⟩
/-- FW_STATUS, spec/19 R627. -/
def R.FW_STATUS : Reg := ⟨3145984, 1, 0, 1, 0, [F.FW_STATUS_fuse_sv, F.FW_STATUS_revoked, F.FW_STATUS_sv, F.FW_STATUS_state, F.FW_STATUS_staged, F.FW_STATUS_boots, F.FW_STATUS_trial, F.FW_STATUS_slot]⟩

def F.FW_BUILD_LO_value : Fld := ⟨3145988, 0, 32, .ro, 0⟩
/-- FW_BUILD_LO, spec/19 R624. -/
def R.FW_BUILD_LO : Reg := ⟨3145988, 1, 0, 1, 0, [F.FW_BUILD_LO_value]⟩

def F.FW_BUILD_HI_value : Fld := ⟨3145992, 0, 32, .ro, 0⟩
/-- FW_BUILD_HI, spec/19 R624. -/
def R.FW_BUILD_HI : Reg := ⟨3145992, 1, 0, 1, 0, [F.FW_BUILD_HI_value]⟩

def F.FW_CFG_drain_ms : Fld := ⟨3145996, 0, 16, .rw, 500⟩
/-- FW_CFG, spec/19 R630. -/
def R.FW_CFG : Reg := ⟨3145996, 1, 0, 1, 0, [F.FW_CFG_drain_ms]⟩

def F.FW_FLAGS_board_cfg_bad : Fld := ⟨3146000, 3, 1, .w1c, 0⟩
def F.FW_FLAGS_ledger_repair : Fld := ⟨3146000, 2, 1, .w1c, 0⟩
def F.FW_FLAGS_fallback : Fld := ⟨3146000, 1, 1, .w1c, 0⟩
def F.FW_FLAGS_cfg_refused : Fld := ⟨3146000, 0, 1, .w1c, 0⟩
/-- FW_FLAGS, spec/19 R623. -/
def R.FW_FLAGS : Reg := ⟨3146000, 1, 0, 1, 0, [F.FW_FLAGS_board_cfg_bad, F.FW_FLAGS_ledger_repair, F.FW_FLAGS_fallback, F.FW_FLAGS_cfg_refused]⟩

def F.FW_CNT_ledger_repair : Fld := ⟨3146004, 16, 16, .rc, 0⟩
def F.FW_CNT_fallback : Fld := ⟨3146004, 8, 8, .rc, 0⟩
def F.FW_CNT_activations : Fld := ⟨3146004, 0, 8, .rc, 0⟩
/-- FW_CNT, spec/19 R630. -/
def R.FW_CNT : Reg := ⟨3146004, 1, 0, 1, 0, [F.FW_CNT_ledger_repair, F.FW_CNT_fallback, F.FW_CNT_activations]⟩

def F.LEDGER_STATUS_free0 : Fld := ⟨3146240, 16, 16, .ro, 0⟩
def F.LEDGER_STATUS_free1 : Fld := ⟨3146240, 0, 16, .ro, 0⟩
/-- LEDGER_STATUS, spec/19 R637. -/
def R.LEDGER_STATUS : Reg := ⟨3146240, 1, 0, 1, 0, [F.LEDGER_STATUS_free0, F.LEDGER_STATUS_free1]⟩

def F.LEDGER_SEQ_LO_value : Fld := ⟨3146244, 0, 32, .ro, 0⟩
/-- LEDGER_SEQ_LO, spec/19 R634. -/
def R.LEDGER_SEQ_LO : Reg := ⟨3146244, 1, 0, 1, 0, [F.LEDGER_SEQ_LO_value]⟩

def F.LEDGER_SEQ_HI_value : Fld := ⟨3146248, 0, 32, .ro, 0⟩
/-- LEDGER_SEQ_HI, spec/19 R634. -/
def R.LEDGER_SEQ_HI : Reg := ⟨3146248, 1, 0, 1, 0, [F.LEDGER_SEQ_HI_value]⟩

def F.PWR_ON_on : Fld := ⟨4194304, 0, 32, .rw, 4294967295⟩
/-- PWR_ON, spec/17 R549. -/
def R.PWR_ON : Reg := ⟨4194304, 1, 0, 1, 0, [F.PWR_ON_on]⟩

def F.PWR_STATE_released : Fld := ⟨4194308, 0, 32, .ro, 0⟩
/-- PWR_STATE, spec/17 R548. -/
def R.PWR_STATE : Reg := ⟨4194308, 1, 0, 1, 0, [F.PWR_STATE_released]⟩

def F.PWR_SEQ_STATUS_busy : Fld := ⟨4194312, 8, 1, .ro, 0⟩
def F.PWR_SEQ_STATUS_step : Fld := ⟨4194312, 0, 5, .ro, 0⟩
/-- PWR_SEQ_STATUS, spec/17 R552. -/
def R.PWR_SEQ_STATUS : Reg := ⟨4194312, 1, 0, 1, 0, [F.PWR_SEQ_STATUS_busy, F.PWR_SEQ_STATUS_step]⟩

def F.RST_CAUSE_pwr_off : Fld := ⟨4194560, 14, 1, .w1c, 0⟩
def F.RST_CAUSE_pin : Fld := ⟨4194560, 13, 1, .w1c, 0⟩
def F.RST_CAUSE_clk_unstable : Fld := ⟨4194560, 12, 1, .w1c, 0⟩
def F.RST_CAUSE_idle_timeout : Fld := ⟨4194560, 11, 1, .w1c, 0⟩
def F.RST_CAUSE_block : Fld := ⟨4194560, 10, 1, .w1c, 0⟩
def F.RST_CAUSE_domain : Fld := ⟨4194560, 9, 1, .w1c, 0⟩
def F.RST_CAUSE_flr : Fld := ⟨4194560, 8, 1, .w1c, 0⟩
def F.RST_CAUSE_fence_e : Fld := ⟨4194560, 7, 1, .w1c, 0⟩
def F.RST_CAUSE_fence_w : Fld := ⟨4194560, 6, 1, .w1c, 0⟩
def F.RST_CAUSE_hreq_e : Fld := ⟨4194560, 5, 1, .w1c, 0⟩
def F.RST_CAUSE_hreq_w : Fld := ⟨4194560, 4, 1, .w1c, 0⟩
def F.RST_CAUSE_wdt_e : Fld := ⟨4194560, 3, 1, .w1c, 0⟩
def F.RST_CAUSE_wdt_w : Fld := ⟨4194560, 2, 1, .w1c, 0⟩
def F.RST_CAUSE_trip : Fld := ⟨4194560, 1, 1, .w1c, 0⟩
def F.RST_CAUSE_por : Fld := ⟨4194560, 0, 1, .w1c, 1⟩
/-- RST_CAUSE, spec/17 R563. -/
def R.RST_CAUSE : Reg := ⟨4194560, 1, 0, 1, 0, [F.RST_CAUSE_pwr_off, F.RST_CAUSE_pin, F.RST_CAUSE_clk_unstable, F.RST_CAUSE_idle_timeout, F.RST_CAUSE_block, F.RST_CAUSE_domain, F.RST_CAUSE_flr, F.RST_CAUSE_fence_e, F.RST_CAUSE_fence_w, F.RST_CAUSE_hreq_e, F.RST_CAUSE_hreq_w, F.RST_CAUSE_wdt_e, F.RST_CAUSE_wdt_w, F.RST_CAUSE_trip, F.RST_CAUSE_por]⟩

def F.RST_DOMAIN_hold : Fld := ⟨4194564, 0, 32, .rw, 0⟩
/-- RST_DOMAIN, spec/17 R559. -/
def R.RST_DOMAIN : Reg := ⟨4194564, 1, 0, 1, 0, [F.RST_DOMAIN_hold]⟩

def F.RST_BLOCK_CTRL_go : Fld := ⟨4194568, 31, 1, .wo, 0⟩
def F.RST_BLOCK_CTRL_force : Fld := ⟨4194568, 30, 1, .wo, 0⟩
def F.RST_BLOCK_CTRL_block : Fld := ⟨4194568, 0, 8, .rw, 0⟩
/-- RST_BLOCK_CTRL, spec/17 R565. -/
def R.RST_BLOCK_CTRL : Reg := ⟨4194568, 1, 0, 1, 0, [F.RST_BLOCK_CTRL_go, F.RST_BLOCK_CTRL_force, F.RST_BLOCK_CTRL_block]⟩

def F.RST_BLOCK_STATUS_held_fault : Fld := ⟨4194572, 8, 8, .ro, 0⟩
def F.RST_BLOCK_STATUS_fault : Fld := ⟨4194572, 1, 1, .ro, 0⟩
def F.RST_BLOCK_STATUS_busy : Fld := ⟨4194572, 0, 1, .ro, 0⟩
/-- RST_BLOCK_STATUS, spec/17 R569. -/
def R.RST_BLOCK_STATUS : Reg := ⟨4194572, 1, 0, 1, 0, [F.RST_BLOCK_STATUS_held_fault, F.RST_BLOCK_STATUS_fault, F.RST_BLOCK_STATUS_busy]⟩

def F.RST_IDLE_TIMEOUT_us : Fld := ⟨4194576, 0, 16, .rw, 100⟩
/-- RST_IDLE_TIMEOUT, spec/17 R566. -/
def R.RST_IDLE_TIMEOUT : Reg := ⟨4194576, 1, 0, 1, 0, [F.RST_IDLE_TIMEOUT_us]⟩

def F.RST_WDT_timeout_ms : Fld := ⟨4194580, 0, 7, .rw, 4⟩
/-- RST_WDT, spec/17 R571. -/
def R.RST_WDT : Reg := ⟨4194580, 2, 4, 1, 0, [F.RST_WDT_timeout_ms]⟩

def F.RST_HALF_REQ_east : Fld := ⟨4194588, 1, 1, .wo, 0⟩
def F.RST_HALF_REQ_west : Fld := ⟨4194588, 0, 1, .wo, 0⟩
/-- RST_HALF_REQ, spec/17 R558. -/
def R.RST_HALF_REQ : Reg := ⟨4194588, 1, 0, 1, 0, [F.RST_HALF_REQ_east, F.RST_HALF_REQ_west]⟩

def F.RST_FLAGS_pin : Fld := ⟨4194592, 3, 1, .ro, 0⟩
def F.RST_FLAGS_clk_unstable : Fld := ⟨4194592, 2, 1, .w1c, 0⟩
def F.RST_FLAGS_idle_timeout : Fld := ⟨4194592, 1, 1, .w1c, 0⟩
def F.RST_FLAGS_cfg_refused : Fld := ⟨4194592, 0, 1, .w1c, 0⟩
/-- RST_FLAGS, spec/17 R566. -/
def R.RST_FLAGS : Reg := ⟨4194592, 1, 0, 1, 0, [F.RST_FLAGS_pin, F.RST_FLAGS_clk_unstable, F.RST_FLAGS_idle_timeout, F.RST_FLAGS_cfg_refused]⟩

def F.RST_CNT_half : Fld := ⟨4194596, 24, 8, .rc, 0⟩
def F.RST_CNT_clk_unstable : Fld := ⟨4194596, 16, 8, .rc, 0⟩
def F.RST_CNT_idle_timeout : Fld := ⟨4194596, 8, 8, .rc, 0⟩
def F.RST_CNT_cfg_refused : Fld := ⟨4194596, 0, 8, .rc, 0⟩
/-- RST_CNT, spec/17 R566. -/
def R.RST_CNT : Reg := ⟨4194596, 1, 0, 1, 0, [F.RST_CNT_half, F.RST_CNT_clk_unstable, F.RST_CNT_idle_timeout, F.RST_CNT_cfg_refused]⟩

def F.THM_STATUS_tj : Fld := ⟨5242880, 16, 16, .ro, 0⟩
def F.THM_STATUS_level : Fld := ⟨5242880, 8, 4, .ro, 0⟩
def F.THM_STATUS_stage : Fld := ⟨5242880, 4, 2, .ro, 0⟩
def F.THM_STATUS_fast : Fld := ⟨5242880, 0, 1, .ro, 0⟩
/-- THM_STATUS, spec/18 R588. -/
def R.THM_STATUS : Reg := ⟨5242880, 1, 0, 1, 0, [F.THM_STATUS_tj, F.THM_STATUS_level, F.THM_STATUS_stage, F.THM_STATUS_fast]⟩

def F.THM_CFG_grace : Fld := ⟨5242884, 24, 8, .rw, 20⟩
def F.THM_CFG_rise : Fld := ⟨5242884, 16, 8, .rw, 30⟩
def F.THM_CFG_release : Fld := ⟨5242884, 8, 8, .rw, 10⟩
def F.THM_CFG_shed_step : Fld := ⟨5242884, 0, 8, .rw, 10⟩
/-- THM_CFG, spec/18 R590. -/
def R.THM_CFG : Reg := ⟨5242884, 1, 0, 1, 0, [F.THM_CFG_grace, F.THM_CFG_rise, F.THM_CFG_release, F.THM_CFG_shed_step]⟩

def F.THM_HOT_tj_peak : Fld := ⟨5242888, 16, 16, .rcPeak 5242880 16, 0⟩
def F.THM_HOT_node : Fld := ⟨5242888, 0, 6, .ro, 0⟩
/-- THM_HOT, spec/18 R588. -/
def R.THM_HOT : Reg := ⟨5242888, 1, 0, 1, 0, [F.THM_HOT_tj_peak, F.THM_HOT_node]⟩

def F.THM_FLAGS_diode_fault : Fld := ⟨5242892, 5, 1, .w1c, 0⟩
def F.THM_FLAGS_rise : Fld := ⟨5242892, 4, 1, .w1c, 0⟩
def F.THM_FLAGS_enforce : Fld := ⟨5242892, 3, 1, .w1c, 0⟩
def F.THM_FLAGS_request : Fld := ⟨5242892, 2, 1, .w1c, 0⟩
def F.THM_FLAGS_warn : Fld := ⟨5242892, 1, 1, .w1c, 0⟩
def F.THM_FLAGS_cfg_refused : Fld := ⟨5242892, 0, 1, .w1c, 0⟩
/-- THM_FLAGS, spec/18 R590. -/
def R.THM_FLAGS : Reg := ⟨5242892, 1, 0, 1, 0, [F.THM_FLAGS_diode_fault, F.THM_FLAGS_rise, F.THM_FLAGS_enforce, F.THM_FLAGS_request, F.THM_FLAGS_warn, F.THM_FLAGS_cfg_refused]⟩

def F.THM_CNT_enforce : Fld := ⟨5242896, 24, 8, .rc, 0⟩
def F.THM_CNT_request : Fld := ⟨5242896, 16, 8, .rc, 0⟩
def F.THM_CNT_rise : Fld := ⟨5242896, 8, 8, .rc, 0⟩
def F.THM_CNT_diode_fault : Fld := ⟨5242896, 0, 8, .rc, 0⟩
/-- THM_CNT, spec/18 R590. -/
def R.THM_CNT : Reg := ⟨5242896, 1, 0, 1, 0, [F.THM_CNT_enforce, F.THM_CNT_request, F.THM_CNT_rise, F.THM_CNT_diode_fault]⟩

def F.THM_DIODE_reading : Fld := ⟨5242944, 16, 16, .ro, 0⟩
def F.THM_DIODE_masked : Fld := ⟨5242944, 1, 1, .ro, 0⟩
def F.THM_DIODE_fault : Fld := ⟨5242944, 0, 1, .ro, 0⟩
/-- THM_DIODE, spec/18 R587. -/
def R.THM_DIODE : Reg := ⟨5242944, 16, 4, 1, 0, [F.THM_DIODE_reading, F.THM_DIODE_masked, F.THM_DIODE_fault]⟩

def F.AGE_PLAN_plan_code : Fld := ⟨5244928, 16, 16, .ro, 0⟩
def F.AGE_PLAN_plan_mv : Fld := ⟨5244928, 0, 16, .ro, 720⟩
/-- AGE_PLAN, spec/18 R602. -/
def R.AGE_PLAN : Reg := ⟨5244928, 1, 0, 1, 0, [F.AGE_PLAN_plan_code, F.AGE_PLAN_plan_mv]⟩

def F.AGE_VNOW_boost : Fld := ⟨5244932, 16, 1, .ro, 0⟩
def F.AGE_VNOW_mv : Fld := ⟨5244932, 0, 16, .ro, 720⟩
/-- AGE_VNOW, spec/18 R604. -/
def R.AGE_VNOW : Reg := ⟨5244932, 1, 0, 1, 0, [F.AGE_VNOW_boost, F.AGE_VNOW_mv]⟩

def F.AGE_TREND_k : Fld := ⟨5244936, 16, 16, .ro, 8153⟩
def F.AGE_TREND_a_last : Fld := ⟨5244936, 0, 16, .ro, 0⟩
/-- AGE_TREND, spec/18 R599. -/
def R.AGE_TREND : Reg := ⟨5244936, 1, 0, 1, 0, [F.AGE_TREND_k, F.AGE_TREND_a_last]⟩

def F.AGE_HOURS_hours : Fld := ⟨5244940, 0, 32, .ro, 0⟩
/-- AGE_HOURS, spec/18 R597. -/
def R.AGE_HOURS : Reg := ⟨5244940, 1, 0, 1, 0, [F.AGE_HOURS_hours]⟩

def F.AGE_FORECAST_months : Fld := ⟨5244944, 16, 16, .ro, 65535⟩
def F.AGE_FORECAST_duty : Fld := ⟨5244944, 0, 16, .ro, 1000⟩
/-- AGE_FORECAST, spec/18 R605. -/
def R.AGE_FORECAST : Reg := ⟨5244944, 1, 0, 1, 0, [F.AGE_FORECAST_months, F.AGE_FORECAST_duty]⟩

def F.AGE_FLAGS_withdrawn : Fld := ⟨5244948, 5, 1, .w1c, 0⟩
def F.AGE_FLAGS_boost : Fld := ⟨5244948, 4, 1, .w1c, 0⟩
def F.AGE_FLAGS_sample_skipped : Fld := ⟨5244948, 3, 1, .w1c, 0⟩
def F.AGE_FLAGS_forecast : Fld := ⟨5244948, 2, 1, .w1c, 0⟩
def F.AGE_FLAGS_deadline : Fld := ⟨5244948, 1, 1, .w1c, 0⟩
def F.AGE_FLAGS_cfg_refused : Fld := ⟨5244948, 0, 1, .w1c, 0⟩
/-- AGE_FLAGS, spec/18 R601. -/
def R.AGE_FLAGS : Reg := ⟨5244948, 1, 0, 1, 0, [F.AGE_FLAGS_withdrawn, F.AGE_FLAGS_boost, F.AGE_FLAGS_sample_skipped, F.AGE_FLAGS_forecast, F.AGE_FLAGS_deadline, F.AGE_FLAGS_cfg_refused]⟩

def F.AGE_CNT_deadline : Fld := ⟨5244952, 16, 16, .rc, 0⟩
def F.AGE_CNT_boost : Fld := ⟨5244952, 8, 8, .rc, 0⟩
def F.AGE_CNT_sample_skipped : Fld := ⟨5244952, 0, 8, .rc, 0⟩
/-- AGE_CNT, spec/18 R607. -/
def R.AGE_CNT : Reg := ⟨5244952, 1, 0, 1, 0, [F.AGE_CNT_deadline, F.AGE_CNT_boost, F.AGE_CNT_sample_skipped]⟩

def F.AGE_MODE0_offered : Fld := ⟨5244992, 31, 1, .ro, 0⟩
def F.AGE_MODE0_defined : Fld := ⟨5244992, 30, 1, .rw, 1⟩
def F.AGE_MODE0_req_code : Fld := ⟨5244992, 0, 16, .rw, 15360⟩
/-- AGE_MODE0, spec/18 R601. -/
def R.AGE_MODE0 : Reg := ⟨5244992, 1, 0, 1, 0, [F.AGE_MODE0_offered, F.AGE_MODE0_defined, F.AGE_MODE0_req_code]⟩

def F.AGE_MODE1_offered : Fld := ⟨5244996, 31, 1, .ro, 0⟩
def F.AGE_MODE1_defined : Fld := ⟨5244996, 30, 1, .rw, 1⟩
def F.AGE_MODE1_req_code : Fld := ⟨5244996, 0, 16, .rw, 26880⟩
/-- AGE_MODE1, spec/18 R601. -/
def R.AGE_MODE1 : Reg := ⟨5244996, 1, 0, 1, 0, [F.AGE_MODE1_offered, F.AGE_MODE1_defined, F.AGE_MODE1_req_code]⟩

def F.AGE_MODE2_offered : Fld := ⟨5245000, 31, 1, .ro, 0⟩
def F.AGE_MODE2_defined : Fld := ⟨5245000, 30, 1, .rw, 0⟩
def F.AGE_MODE2_req_code : Fld := ⟨5245000, 0, 16, .rw, 0⟩
/-- AGE_MODE2, spec/18 R601. -/
def R.AGE_MODE2 : Reg := ⟨5245000, 14, 4, 1, 0, [F.AGE_MODE2_offered, F.AGE_MODE2_defined, F.AGE_MODE2_req_code]⟩

def F.BRL_GRP_CFG_rate : Fld := ⟨6291456, 8, 7, .own, 64⟩
def F.BRL_GRP_CFG_easel : Fld := ⟨6291456, 4, 2, .own, 0⟩
def F.BRL_GRP_CFG_member : Fld := ⟨6291456, 3, 1, .own, 0⟩
def F.BRL_GRP_CFG_mode : Fld := ⟨6291456, 2, 1, .own, 0⟩
def F.BRL_GRP_CFG_enable : Fld := ⟨6291456, 0, 1, .own, 0⟩
/-- BRL_GRP_CFG, spec/03 R115. -/
def R.BRL_GRP_CFG : Reg := ⟨6291456, 16, 65536, 1, 0, [F.BRL_GRP_CFG_rate, F.BRL_GRP_CFG_easel, F.BRL_GRP_CFG_member, F.BRL_GRP_CFG_mode, F.BRL_GRP_CFG_enable]⟩

def F.BRL_GRP_CTRL_test_pattern : Fld := ⟨6291460, 4, 1, .rw, 0⟩
def F.BRL_GRP_CTRL_test_mode : Fld := ⟨6291460, 3, 1, .own, 0⟩
def F.BRL_GRP_CTRL_bc_sleep : Fld := ⟨6291460, 2, 1, .own, 0⟩
def F.BRL_GRP_CTRL_dfe_freeze : Fld := ⟨6291460, 1, 1, .rw, 0⟩
def F.BRL_GRP_CTRL_train : Fld := ⟨6291460, 0, 1, .wo, 0⟩
/-- BRL_GRP_CTRL, spec/03 R120-R123. -/
def R.BRL_GRP_CTRL : Reg := ⟨6291460, 16, 65536, 1, 0, [F.BRL_GRP_CTRL_test_pattern, F.BRL_GRP_CTRL_test_mode, F.BRL_GRP_CTRL_bc_sleep, F.BRL_GRP_CTRL_dfe_freeze, F.BRL_GRP_CTRL_train]⟩

def F.BRL_GRP_STATUS_lane_lock : Fld := ⟨6291464, 20, 12, .ro, 0⟩
def F.BRL_GRP_STATUS_state : Fld := ⟨6291464, 12, 4, .ro, 0⟩
def F.BRL_GRP_STATUS_bc_awake : Fld := ⟨6291464, 1, 1, .ro, 0⟩
def F.BRL_GRP_STATUS_ck_good : Fld := ⟨6291464, 0, 1, .ro, 0⟩
/-- BRL_GRP_STATUS, spec/03 R122. -/
def R.BRL_GRP_STATUS : Reg := ⟨6291464, 16, 65536, 1, 0, [F.BRL_GRP_STATUS_lane_lock, F.BRL_GRP_STATUS_state, F.BRL_GRP_STATUS_bc_awake, F.BRL_GRP_STATUS_ck_good]⟩

def F.BRL_GRP_EQ_ctle : Fld := ⟨6291468, 28, 4, .rw, 6⟩
def F.BRL_GRP_EQ_post : Fld := ⟨6291468, 16, 8, .rw, 0⟩
def F.BRL_GRP_EQ_main : Fld := ⟨6291468, 8, 8, .rw, 63⟩
def F.BRL_GRP_EQ_pre : Fld := ⟨6291468, 0, 8, .rw, 0⟩
/-- BRL_GRP_EQ, spec/03 R86. -/
def R.BRL_GRP_EQ : Reg := ⟨6291468, 16, 65536, 1, 0, [F.BRL_GRP_EQ_ctle, F.BRL_GRP_EQ_post, F.BRL_GRP_EQ_main, F.BRL_GRP_EQ_pre]⟩

def F.BRL_BC_CMD_go : Fld := ⟨6291472, 31, 1, .wo, 0⟩
def F.BRL_BC_CMD_code : Fld := ⟨6291472, 24, 3, .rw, 0⟩
def F.BRL_BC_CMD_tag : Fld := ⟨6291472, 16, 8, .rw, 0⟩
def F.BRL_BC_CMD_address : Fld := ⟨6291472, 0, 16, .rw, 0⟩
/-- BRL_BC_CMD, spec/03 R114. -/
def R.BRL_BC_CMD : Reg := ⟨6291472, 16, 65536, 1, 0, [F.BRL_BC_CMD_go, F.BRL_BC_CMD_code, F.BRL_BC_CMD_tag, F.BRL_BC_CMD_address]⟩

def F.BRL_BC_DATA_data : Fld := ⟨6291476, 0, 32, .rw, 0⟩
/-- BRL_BC_DATA, spec/03 R114. -/
def R.BRL_BC_DATA : Reg := ⟨6291476, 16, 65536, 1, 0, [F.BRL_BC_DATA_data]⟩

def F.BRL_BC_STATUS_result : Fld := ⟨6291480, 8, 3, .ro, 0⟩
def F.BRL_BC_STATUS_busy : Fld := ⟨6291480, 0, 1, .ro, 0⟩
/-- BRL_BC_STATUS, spec/03 R114. -/
def R.BRL_BC_STATUS : Reg := ⟨6291480, 16, 65536, 1, 0, [F.BRL_BC_STATUS_result, F.BRL_BC_STATUS_busy]⟩

def F.BRL_GRP_FLAGS_cfg_refused : Fld := ⟨6291488, 4, 1, .w1c, 0⟩
def F.BRL_GRP_FLAGS_train_fail : Fld := ⟨6291488, 3, 1, .w1c, 0⟩
def F.BRL_GRP_FLAGS_ck_loss : Fld := ⟨6291488, 2, 1, .w1c, 0⟩
def F.BRL_GRP_FLAGS_skew_loss : Fld := ⟨6291488, 1, 1, .w1c, 0⟩
def F.BRL_GRP_FLAGS_lock_loss : Fld := ⟨6291488, 0, 1, .w1c, 0⟩
/-- BRL_GRP_FLAGS, spec/03 R122. -/
def R.BRL_GRP_FLAGS : Reg := ⟨6291488, 16, 65536, 1, 0, [F.BRL_GRP_FLAGS_cfg_refused, F.BRL_GRP_FLAGS_train_fail, F.BRL_GRP_FLAGS_ck_loss, F.BRL_GRP_FLAGS_skew_loss, F.BRL_GRP_FLAGS_lock_loss]⟩

def F.BRL_GRP_ERR_row_chk : Fld := ⟨6291492, 24, 8, .rc, 0⟩
def F.BRL_GRP_ERR_lock_loss : Fld := ⟨6291492, 16, 8, .rc, 0⟩
def F.BRL_GRP_ERR_skew_loss : Fld := ⟨6291492, 8, 8, .rc, 0⟩
def F.BRL_GRP_ERR_ck_loss : Fld := ⟨6291492, 4, 4, .rc, 0⟩
def F.BRL_GRP_ERR_train_fail : Fld := ⟨6291492, 0, 4, .rc, 0⟩
/-- BRL_GRP_ERR, spec/03 R110. -/
def R.BRL_GRP_ERR : Reg := ⟨6291492, 16, 65536, 1, 0, [F.BRL_GRP_ERR_row_chk, F.BRL_GRP_ERR_lock_loss, F.BRL_GRP_ERR_skew_loss, F.BRL_GRP_ERR_ck_loss, F.BRL_GRP_ERR_train_fail]⟩

def F.BRL_GRP_BITS_bits_k : Fld := ⟨6291496, 0, 32, .rc, 0⟩
/-- BRL_GRP_BITS, spec/03 R121. -/
def R.BRL_GRP_BITS : Reg := ⟨6291496, 16, 65536, 1, 0, [F.BRL_GRP_BITS_bits_k]⟩

def F.BRL_GRP_BC_ERR_stray : Fld := ⟨6291500, 0, 8, .rc, 0⟩
/-- BRL_GRP_BC_ERR, spec/03 R116. -/
def R.BRL_GRP_BC_ERR : Reg := ⟨6291500, 16, 65536, 1, 0, [F.BRL_GRP_BC_ERR_stray]⟩

def F.BRL_LANE_ERR_prbs : Fld := ⟨6291712, 16, 16, .rc, 0⟩
def F.BRL_LANE_ERR_idle_err : Fld := ⟨6291712, 8, 8, .rc, 0⟩
def F.BRL_LANE_ERR_hdr_invalid : Fld := ⟨6291712, 0, 8, .rc, 0⟩
/-- BRL_LANE_ERR, spec/03 R109. -/
def R.BRL_LANE_ERR : Reg := ⟨6291712, 16, 65536, 12, 8, [F.BRL_LANE_ERR_prbs, F.BRL_LANE_ERR_idle_err, F.BRL_LANE_ERR_hdr_invalid]⟩

def F.BRL_LANE_DFE_taps : Fld := ⟨6291716, 0, 32, .ro, 0⟩
/-- BRL_LANE_DFE, spec/03 R85. -/
def R.BRL_LANE_DFE : Reg := ⟨6291716, 16, 65536, 12, 8, [F.BRL_LANE_DFE_taps]⟩

def F.BRL_EASEL_ERR_fs_err : Fld := ⟨7340032, 28, 4, .rc, 0⟩
def F.BRL_EASEL_ERR_geom_err : Fld := ⟨7340032, 24, 4, .rc, 0⟩
def F.BRL_EASEL_ERR_fe_err : Fld := ⟨7340032, 20, 4, .rc, 0⟩
def F.BRL_EASEL_ERR_order_err : Fld := ⟨7340032, 16, 4, .rc, 0⟩
def F.BRL_EASEL_ERR_hdr_err : Fld := ⟨7340032, 12, 4, .rc, 0⟩
def F.BRL_EASEL_ERR_lane_hdr_err : Fld := ⟨7340032, 8, 4, .rc, 0⟩
def F.BRL_EASEL_ERR_row_chk_err : Fld := ⟨7340032, 0, 8, .rc, 0⟩
/-- BRL_EASEL_ERR, spec/03 R109. -/
def R.BRL_EASEL_ERR : Reg := ⟨7340032, 4, 256, 1, 0, [F.BRL_EASEL_ERR_fs_err, F.BRL_EASEL_ERR_geom_err, F.BRL_EASEL_ERR_fe_err, F.BRL_EASEL_ERR_order_err, F.BRL_EASEL_ERR_hdr_err, F.BRL_EASEL_ERR_lane_hdr_err, F.BRL_EASEL_ERR_row_chk_err]⟩

def F.BRL_EASEL_ORPHAN_orphan : Fld := ⟨7340036, 0, 32, .rc, 0⟩
/-- BRL_EASEL_ORPHAN, spec/03 R104. -/
def R.BRL_EASEL_ORPHAN : Reg := ⟨7340036, 4, 256, 1, 0, [F.BRL_EASEL_ORPHAN_orphan]⟩

def F.BRL_TRAIN_TIMEOUT_timeout_ms : Fld := ⟨7405568, 0, 16, .rw, 50⟩
/-- BRL_TRAIN_TIMEOUT, spec/03 R122. -/
def R.BRL_TRAIN_TIMEOUT : Reg := ⟨7405568, 1, 0, 1, 0, [F.BRL_TRAIN_TIMEOUT_timeout_ms]⟩

def F.EASEL_CTRL_abort : Fld := ⟨8388608, 1, 1, .wo, 0⟩
def F.EASEL_CTRL_open : Fld := ⟨8388608, 0, 1, .own, 0⟩
/-- EASEL_CTRL, spec/04 R128. -/
def R.EASEL_CTRL : Reg := ⟨8388608, 4, 65536, 1, 0, [F.EASEL_CTRL_abort, F.EASEL_CTRL_open]⟩

def F.EASEL_STATUS_refuse_cause : Fld := ⟨8388612, 8, 4, .ro, 0⟩
def F.EASEL_STATUS_held : Fld := ⟨8388612, 5, 1, .ro, 0⟩
def F.EASEL_STATUS_open_frame : Fld := ⟨8388612, 4, 1, .ro, 0⟩
def F.EASEL_STATUS_state : Fld := ⟨8388612, 0, 2, .ro, 0⟩
/-- EASEL_STATUS, spec/04 R128. -/
def R.EASEL_STATUS : Reg := ⟨8388612, 4, 65536, 1, 0, [F.EASEL_STATUS_refuse_cause, F.EASEL_STATUS_held, F.EASEL_STATUS_open_frame, F.EASEL_STATUS_state]⟩

def F.EASEL_GEOM_height : Fld := ⟨8388616, 16, 16, .rw, 0⟩
def F.EASEL_GEOM_width : Fld := ⟨8388616, 0, 16, .rw, 0⟩
/-- EASEL_GEOM, spec/04 R126. -/
def R.EASEL_GEOM : Reg := ⟨8388616, 4, 65536, 1, 0, [F.EASEL_GEOM_height, F.EASEL_GEOM_width]⟩

def F.EASEL_FMT_cfa : Fld := ⟨8388620, 20, 2, .rw, 0⟩
def F.EASEL_FMT_latency : Fld := ⟨8388620, 18, 2, .rw, 1⟩
def F.EASEL_FMT_format : Fld := ⟨8388620, 16, 2, .rw, 3⟩
def F.EASEL_FMT_ob_cols : Fld := ⟨8388620, 8, 8, .rw, 0⟩
def F.EASEL_FMT_ob_rows : Fld := ⟨8388620, 0, 7, .rw, 0⟩
/-- EASEL_FMT, spec/04 R126. -/
def R.EASEL_FMT : Reg := ⟨8388620, 4, 65536, 1, 0, [F.EASEL_FMT_cfa, F.EASEL_FMT_latency, F.EASEL_FMT_format, F.EASEL_FMT_ob_cols, F.EASEL_FMT_ob_rows]⟩

def F.EASEL_RATE_pack : Fld := ⟨8388624, 31, 1, .rw, 0⟩
def F.EASEL_RATE_colour : Fld := ⟨8388624, 30, 1, .rw, 1⟩
def F.EASEL_RATE_rate_mfps : Fld := ⟨8388624, 0, 18, .rw, 0⟩
/-- EASEL_RATE, spec/04 R126. -/
def R.EASEL_RATE : Reg := ⟨8388624, 4, 65536, 1, 0, [F.EASEL_RATE_pack, F.EASEL_RATE_colour, F.EASEL_RATE_rate_mfps]⟩

def F.EASEL_POLICY_max_bad_rows : Fld := ⟨8388628, 16, 16, .rw, 0⟩
def F.EASEL_POLICY_on_error : Fld := ⟨8388628, 1, 1, .rw, 0⟩
def F.EASEL_POLICY_on_short : Fld := ⟨8388628, 0, 1, .rw, 0⟩
/-- EASEL_POLICY, spec/04 R148. -/
def R.EASEL_POLICY : Reg := ⟨8388628, 4, 65536, 1, 0, [F.EASEL_POLICY_max_bad_rows, F.EASEL_POLICY_on_error, F.EASEL_POLICY_on_short]⟩

def F.EASEL_TICKET_START_us : Fld := ⟨8388632, 0, 24, .rw, 0⟩
/-- EASEL_TICKET_START, spec/04 R138. -/
def R.EASEL_TICKET_START : Reg := ⟨8388632, 4, 65536, 1, 0, [F.EASEL_TICKET_START_us]⟩

def F.EASEL_TICKET_LEAD_us : Fld := ⟨8388636, 0, 24, .rw, 0⟩
/-- EASEL_TICKET_LEAD, spec/04 R138. -/
def R.EASEL_TICKET_LEAD : Reg := ⟨8388636, 4, 65536, 1, 0, [F.EASEL_TICKET_LEAD_us]⟩

def F.EASEL_FE_TIMEOUT_timeout_us : Fld := ⟨8388640, 0, 24, .rw, 100000⟩
/-- EASEL_FE_TIMEOUT, spec/04 R145. -/
def R.EASEL_FE_TIMEOUT : Reg := ⟨8388640, 4, 65536, 1, 0, [F.EASEL_FE_TIMEOUT_timeout_us]⟩

def F.EASEL_ADMIT_plan_code : Fld := ⟨8388644, 16, 16, .ro, 0⟩
def F.EASEL_ADMIT_req_code : Fld := ⟨8388644, 0, 16, .ro, 0⟩
/-- EASEL_ADMIT, spec/04 R131. -/
def R.EASEL_ADMIT : Reg := ⟨8388644, 4, 65536, 1, 0, [F.EASEL_ADMIT_plan_code, F.EASEL_ADMIT_req_code]⟩

def F.EASEL_FLAGS_fe_timeout : Fld := ⟨8388648, 7, 1, .w1c, 0⟩
def F.EASEL_FLAGS_window_late : Fld := ⟨8388648, 6, 1, .w1c, 0⟩
def F.EASEL_FLAGS_ticket_echo : Fld := ⟨8388648, 5, 1, .w1c, 0⟩
def F.EASEL_FLAGS_long : Fld := ⟨8388648, 4, 1, .w1c, 0⟩
def F.EASEL_FLAGS_damaged : Fld := ⟨8388648, 3, 1, .w1c, 0⟩
def F.EASEL_FLAGS_scrape : Fld := ⟨8388648, 2, 1, .w1c, 0⟩
def F.EASEL_FLAGS_cfg_refused : Fld := ⟨8388648, 1, 1, .w1c, 0⟩
def F.EASEL_FLAGS_admit_refused : Fld := ⟨8388648, 0, 1, .w1c, 0⟩
/-- EASEL_FLAGS, spec/04 R128. -/
def R.EASEL_FLAGS : Reg := ⟨8388648, 4, 65536, 1, 0, [F.EASEL_FLAGS_fe_timeout, F.EASEL_FLAGS_window_late, F.EASEL_FLAGS_ticket_echo, F.EASEL_FLAGS_long, F.EASEL_FLAGS_damaged, F.EASEL_FLAGS_scrape, F.EASEL_FLAGS_cfg_refused, F.EASEL_FLAGS_admit_refused]⟩

def F.EASEL_CNT_DRY_count : Fld := ⟨8388656, 0, 32, .rc, 0⟩
/-- EASEL_CNT_DRY, spec/04 R148. -/
def R.EASEL_CNT_DRY : Reg := ⟨8388656, 4, 65536, 1, 0, [F.EASEL_CNT_DRY_count]⟩

def F.EASEL_CNT_SCRAPE_count : Fld := ⟨8388660, 0, 32, .rc, 0⟩
/-- EASEL_CNT_SCRAPE, spec/04 R148. -/
def R.EASEL_CNT_SCRAPE : Reg := ⟨8388660, 4, 65536, 1, 0, [F.EASEL_CNT_SCRAPE_count]⟩

def F.EASEL_CNT_DAMAGED_count : Fld := ⟨8388664, 0, 32, .rc, 0⟩
/-- EASEL_CNT_DAMAGED, spec/04 R148. -/
def R.EASEL_CNT_DAMAGED : Reg := ⟨8388664, 4, 65536, 1, 0, [F.EASEL_CNT_DAMAGED_count]⟩

def F.EASEL_CNT_MISC_extra_rows : Fld := ⟨8388668, 16, 16, .rc, 0⟩
def F.EASEL_CNT_MISC_fe_timeout : Fld := ⟨8388668, 12, 4, .rc, 0⟩
def F.EASEL_CNT_MISC_window_late : Fld := ⟨8388668, 8, 4, .rc, 0⟩
def F.EASEL_CNT_MISC_ticket_echo : Fld := ⟨8388668, 4, 4, .rc, 0⟩
def F.EASEL_CNT_MISC_superseded : Fld := ⟨8388668, 0, 4, .rc, 0⟩
/-- EASEL_CNT_MISC, spec/04 R146. -/
def R.EASEL_CNT_MISC : Reg := ⟨8388668, 4, 65536, 1, 0, [F.EASEL_CNT_MISC_extra_rows, F.EASEL_CNT_MISC_fe_timeout, F.EASEL_CNT_MISC_window_late, F.EASEL_CNT_MISC_ticket_echo, F.EASEL_CNT_MISC_superseded]⟩

def F.EASEL_LAST_LO_serial_lo : Fld := ⟨8388672, 0, 32, .ro, 0⟩
/-- EASEL_LAST_LO, spec/04. -/
def R.EASEL_LAST_LO : Reg := ⟨8388672, 4, 65536, 1, 0, [F.EASEL_LAST_LO_serial_lo]⟩

def F.EASEL_LAST_HI_serial_hi : Fld := ⟨8388676, 0, 16, .ro, 0⟩
/-- EASEL_LAST_HI, spec/04. -/
def R.EASEL_LAST_HI : Reg := ⟨8388676, 4, 65536, 1, 0, [F.EASEL_LAST_HI_serial_hi]⟩

def F.COND_STAGES_wb : Fld := ⟨9437184, 9, 1, .rw, 0⟩
def F.COND_STAGES_shade : Fld := ⟨9437184, 8, 1, .rw, 0⟩
def F.COND_STAGES_colgain : Fld := ⟨9437184, 7, 1, .rw, 0⟩
def F.COND_STAGES_colfpn : Fld := ⟨9437184, 6, 1, .rw, 0⟩
def F.COND_STAGES_cold : Fld := ⟨9437184, 5, 1, .rw, 0⟩
def F.COND_STAGES_hot : Fld := ⟨9437184, 4, 1, .rw, 0⟩
def F.COND_STAGES_map : Fld := ⟨9437184, 3, 1, .rw, 0⟩
def F.COND_STAGES_rowcorr : Fld := ⟨9437184, 2, 1, .rw, 0⟩
def F.COND_STAGES_black : Fld := ⟨9437184, 1, 1, .rw, 1⟩
def F.COND_STAGES_fuse : Fld := ⟨9437184, 0, 1, .rw, 1⟩
/-- COND_STAGES, spec/05 R158. -/
def R.COND_STAGES : Reg := ⟨9437184, 4, 65536, 1, 0, [F.COND_STAGES_wb, F.COND_STAGES_shade, F.COND_STAGES_colgain, F.COND_STAGES_colfpn, F.COND_STAGES_cold, F.COND_STAGES_hot, F.COND_STAGES_map, F.COND_STAGES_rowcorr, F.COND_STAGES_black, F.COND_STAGES_fuse]⟩

def F.COND_FUSE_PED_ped_lo : Fld := ⟨9437188, 16, 16, .rw, 0⟩
def F.COND_FUSE_PED_ped_hi : Fld := ⟨9437188, 0, 16, .rw, 0⟩
/-- COND_FUSE_PED, spec/05 R161. -/
def R.COND_FUSE_PED : Reg := ⟨9437188, 4, 65536, 1, 0, [F.COND_FUSE_PED_ped_lo, F.COND_FUSE_PED_ped_hi]⟩

def F.COND_FUSE_SAT_sat_lo : Fld := ⟨9437192, 16, 16, .rw, 16383⟩
def F.COND_FUSE_SAT_sat_hi : Fld := ⟨9437192, 0, 16, .rw, 16383⟩
/-- COND_FUSE_SAT, spec/05 R161. -/
def R.COND_FUSE_SAT : Reg := ⟨9437192, 4, 65536, 1, 0, [F.COND_FUSE_SAT_sat_lo, F.COND_FUSE_SAT_sat_hi]⟩

def F.COND_FUSE_KNEE_slope : Fld := ⟨9437196, 16, 16, .rw, 256⟩
def F.COND_FUSE_KNEE_knee : Fld := ⟨9437196, 0, 16, .rw, 12288⟩
/-- COND_FUSE_KNEE, spec/05 R161. -/
def R.COND_FUSE_KNEE : Reg := ⟨9437196, 4, 65536, 1, 0, [F.COND_FUSE_KNEE_slope, F.COND_FUSE_KNEE_knee]⟩

def F.COND_FUSE_RATIO_ratio : Fld := ⟨9437200, 0, 16, .rw, 16384⟩
/-- COND_FUSE_RATIO, spec/05 R161. -/
def R.COND_FUSE_RATIO : Reg := ⟨9437200, 4, 65536, 1, 0, [F.COND_FUSE_RATIO_ratio]⟩

def F.COND_BLACK_CFG_window : Fld := ⟨9437204, 12, 12, .rw, 1024⟩
def F.COND_BLACK_CFG_shift : Fld := ⟨9437204, 8, 4, .rw, 2⟩
def F.COND_BLACK_CFG_min_k : Fld := ⟨9437204, 0, 8, .rw, 4⟩
/-- COND_BLACK_CFG, spec/05 R165. -/
def R.COND_BLACK_CFG : Reg := ⟨9437204, 4, 65536, 1, 0, [F.COND_BLACK_CFG_window, F.COND_BLACK_CFG_shift, F.COND_BLACK_CFG_min_k]⟩

def F.COND_HOT_CFG_t_rel : Fld := ⟨9437208, 24, 8, .rw, 32⟩
def F.COND_HOT_CFG_t_abs : Fld := ⟨9437208, 0, 16, .rw, 512⟩
/-- COND_HOT_CFG, spec/05 R172. -/
def R.COND_HOT_CFG : Reg := ⟨9437208, 4, 65536, 1, 0, [F.COND_HOT_CFG_t_rel, F.COND_HOT_CFG_t_abs]⟩

def F.COND_COLFPN_CFG_clamp : Fld := ⟨9437212, 16, 16, .rw, 1024⟩
def F.COND_COLFPN_CFG_shift : Fld := ⟨9437212, 0, 4, .rw, 4⟩
/-- COND_COLFPN_CFG, spec/05 R174. -/
def R.COND_COLFPN_CFG : Reg := ⟨9437212, 4, 65536, 1, 0, [F.COND_COLFPN_CFG_clamp, F.COND_COLFPN_CFG_shift]⟩

def F.COND_WB_value : Fld := ⟨9437216, 0, 32, .rw, 1065353216⟩
/-- COND_WB, spec/05 R177. -/
def R.COND_WB : Reg := ⟨9437216, 4, 65536, 4, 4, [F.COND_WB_value]⟩

def F.COND_OUT_GAIN_value : Fld := ⟨9437232, 0, 32, .rw, 1048576000⟩
/-- COND_OUT_GAIN, spec/05 R177. -/
def R.COND_OUT_GAIN : Reg := ⟨9437232, 4, 65536, 1, 0, [F.COND_OUT_GAIN_value]⟩

def F.COND_OUT_PED_out_ped : Fld := ⟨9437236, 0, 16, .rw, 256⟩
/-- COND_OUT_PED, spec/05 R177. -/
def R.COND_OUT_PED : Reg := ⟨9437236, 4, 65536, 1, 0, [F.COND_OUT_PED_out_ped]⟩

def F.COND_MAP_BASE_LO_value : Fld := ⟨9437240, 0, 32, .rw, 0⟩
/-- COND_MAP_BASE_LO, spec/05 R170. -/
def R.COND_MAP_BASE_LO : Reg := ⟨9437240, 4, 65536, 1, 0, [F.COND_MAP_BASE_LO_value]⟩

def F.COND_MAP_BASE_HI_value : Fld := ⟨9437244, 0, 32, .rw, 0⟩
/-- COND_MAP_BASE_HI, spec/05 R170. -/
def R.COND_MAP_BASE_HI : Reg := ⟨9437244, 4, 65536, 1, 0, [F.COND_MAP_BASE_HI_value]⟩

def F.COND_MAP_COUNT_value : Fld := ⟨9437248, 0, 32, .rw, 0⟩
/-- COND_MAP_COUNT, spec/05 R170. -/
def R.COND_MAP_COUNT : Reg := ⟨9437248, 4, 65536, 1, 0, [F.COND_MAP_COUNT_value]⟩

def F.COND_SHADE_BASE_LO_value : Fld := ⟨9437252, 0, 32, .rw, 0⟩
/-- COND_SHADE_BASE_LO, spec/05 R170. -/
def R.COND_SHADE_BASE_LO : Reg := ⟨9437252, 4, 65536, 1, 0, [F.COND_SHADE_BASE_LO_value]⟩

def F.COND_SHADE_BASE_HI_value : Fld := ⟨9437256, 0, 32, .rw, 0⟩
/-- COND_SHADE_BASE_HI, spec/05 R170. -/
def R.COND_SHADE_BASE_HI : Reg := ⟨9437256, 4, 65536, 1, 0, [F.COND_SHADE_BASE_HI_value]⟩

def F.COND_COLGAIN_BASE_LO_value : Fld := ⟨9437260, 0, 32, .rw, 0⟩
/-- COND_COLGAIN_BASE_LO, spec/05 R170. -/
def R.COND_COLGAIN_BASE_LO : Reg := ⟨9437260, 4, 65536, 1, 0, [F.COND_COLGAIN_BASE_LO_value]⟩

def F.COND_COLGAIN_BASE_HI_value : Fld := ⟨9437264, 0, 32, .rw, 0⟩
/-- COND_COLGAIN_BASE_HI, spec/05 R170. -/
def R.COND_COLGAIN_BASE_HI : Reg := ⟨9437264, 4, 65536, 1, 0, [F.COND_COLGAIN_BASE_HI_value]⟩

def F.COND_COMMIT_pending : Fld := ⟨9437268, 1, 1, .ro, 0⟩
def F.COND_COMMIT_go : Fld := ⟨9437268, 0, 1, .wo, 0⟩
/-- COND_COMMIT, spec/05 R178. -/
def R.COND_COMMIT : Reg := ⟨9437268, 4, 65536, 1, 0, [F.COND_COMMIT_pending, F.COND_COMMIT_go]⟩

def F.COND_BLACK_EST01_odd : Fld := ⟨9437272, 16, 16, .ro, 0⟩
def F.COND_BLACK_EST01_even : Fld := ⟨9437272, 0, 16, .ro, 0⟩
/-- COND_BLACK_EST01, spec/05 R168. -/
def R.COND_BLACK_EST01 : Reg := ⟨9437272, 4, 65536, 1, 0, [F.COND_BLACK_EST01_odd, F.COND_BLACK_EST01_even]⟩

def F.COND_BLACK_EST23_odd : Fld := ⟨9437276, 16, 16, .ro, 0⟩
def F.COND_BLACK_EST23_even : Fld := ⟨9437276, 0, 16, .ro, 0⟩
/-- COND_BLACK_EST23, spec/05 R168. -/
def R.COND_BLACK_EST23 : Reg := ⟨9437276, 4, 65536, 1, 0, [F.COND_BLACK_EST23_odd, F.COND_BLACK_EST23_even]⟩

def F.COND_FLAGS_cal_skipped : Fld := ⟨9437280, 4, 1, .w1c, 0⟩
def F.COND_FLAGS_black_weak : Fld := ⟨9437280, 3, 1, .w1c, 0⟩
def F.COND_FLAGS_cfg_bad : Fld := ⟨9437280, 2, 1, .w1c, 0⟩
def F.COND_FLAGS_map_bad : Fld := ⟨9437280, 1, 1, .w1c, 0⟩
def F.COND_FLAGS_cfg_refused : Fld := ⟨9437280, 0, 1, .w1c, 0⟩
/-- COND_FLAGS, spec/05 R165. -/
def R.COND_FLAGS : Reg := ⟨9437280, 4, 65536, 1, 0, [F.COND_FLAGS_cal_skipped, F.COND_FLAGS_black_weak, F.COND_FLAGS_cfg_bad, F.COND_FLAGS_map_bad, F.COND_FLAGS_cfg_refused]⟩

def F.COND_CNT_detected : Fld := ⟨9437284, 16, 16, .rc, 0⟩
def F.COND_CNT_uncorrectable : Fld := ⟨9437284, 8, 8, .rc, 0⟩
def F.COND_CNT_black_wait : Fld := ⟨9437284, 4, 4, .rc, 0⟩
def F.COND_CNT_black_weak : Fld := ⟨9437284, 0, 4, .rc, 0⟩
/-- COND_CNT, spec/05 R165. -/
def R.COND_CNT : Reg := ⟨9437284, 4, 65536, 1, 0, [F.COND_CNT_detected, F.COND_CNT_uncorrectable, F.COND_CNT_black_wait, F.COND_CNT_black_weak]⟩

def F.COND_CAL_CFG_defer_ms : Fld := ⟨9437288, 16, 16, .rw, 2000⟩
def F.COND_CAL_CFG_auto : Fld := ⟨9437288, 9, 5, .rw, 3⟩
def F.COND_CAL_CFG_src : Fld := ⟨9437288, 8, 1, .rw, 0⟩
def F.COND_CAL_CFG_threshold : Fld := ⟨9437288, 0, 7, .rw, 20⟩
/-- COND_CAL_CFG, spec/05 R183. -/
def R.COND_CAL_CFG : Reg := ⟨9437288, 4, 65536, 1, 0, [F.COND_CAL_CFG_defer_ms, F.COND_CAL_CFG_auto, F.COND_CAL_CFG_src, F.COND_CAL_CFG_threshold]⟩

def F.COND_SENSOR_TEMP_temp : Fld := ⟨9437292, 0, 16, .rw, 0⟩
/-- COND_SENSOR_TEMP, spec/05 R183. -/
def R.COND_SENSOR_TEMP : Reg := ⟨9437292, 4, 65536, 1, 0, [F.COND_SENSOR_TEMP_temp]⟩

def F.COND_CAL_RUNS_runs : Fld := ⟨9437440, 0, 32, .ro, 0⟩
/-- COND_CAL_RUNS, spec/05 R189. -/
def R.COND_CAL_RUNS : Reg := ⟨9437440, 4, 65536, 5, 16, [F.COND_CAL_RUNS_runs]⟩

def F.COND_CAL_LAST_S_LO_s_lo : Fld := ⟨9437444, 0, 32, .ro, 0⟩
/-- COND_CAL_LAST_S_LO, spec/05 R189. -/
def R.COND_CAL_LAST_S_LO : Reg := ⟨9437444, 4, 65536, 5, 16, [F.COND_CAL_LAST_S_LO_s_lo]⟩

def F.COND_CAL_LAST_S_HI_valid : Fld := ⟨9437448, 31, 1, .ro, 0⟩
def F.COND_CAL_LAST_S_HI_free_run : Fld := ⟨9437448, 30, 1, .ro, 0⟩
def F.COND_CAL_LAST_S_HI_s_hi : Fld := ⟨9437448, 0, 16, .ro, 0⟩
/-- COND_CAL_LAST_S_HI, spec/05 R189. -/
def R.COND_CAL_LAST_S_HI : Reg := ⟨9437448, 4, 65536, 5, 16, [F.COND_CAL_LAST_S_HI_valid, F.COND_CAL_LAST_S_HI_free_run, F.COND_CAL_LAST_S_HI_s_hi]⟩

def F.COND_CAL_LAST_NS_ns : Fld := ⟨9437452, 0, 32, .ro, 0⟩
/-- COND_CAL_LAST_NS, spec/05 R189. -/
def R.COND_CAL_LAST_NS : Reg := ⟨9437452, 4, 65536, 5, 16, [F.COND_CAL_LAST_NS_ns]⟩

def F.COND_HALF_STATUS_fail_brush : Fld := ⟨9699328, 8, 8, .ro, 0⟩
def F.COND_HALF_STATUS_fail : Fld := ⟨9699328, 1, 1, .ro, 0⟩
def F.COND_HALF_STATUS_running : Fld := ⟨9699328, 0, 1, .ro, 0⟩
/-- COND_HALF_STATUS, spec/05 R182. -/
def R.COND_HALF_STATUS : Reg := ⟨9699328, 2, 256, 1, 0, [F.COND_HALF_STATUS_fail_brush, F.COND_HALF_STATUS_fail, F.COND_HALF_STATUS_running]⟩

def F.COND_HCAL_RUNS_runs : Fld := ⟨9699360, 0, 32, .ro, 0⟩
/-- COND_HCAL_RUNS, spec/05 R189. -/
def R.COND_HCAL_RUNS : Reg := ⟨9699360, 2, 256, 2, 16, [F.COND_HCAL_RUNS_runs]⟩

def F.COND_HCAL_LAST_S_LO_s_lo : Fld := ⟨9699364, 0, 32, .ro, 0⟩
/-- COND_HCAL_LAST_S_LO, spec/05 R189. -/
def R.COND_HCAL_LAST_S_LO : Reg := ⟨9699364, 2, 256, 2, 16, [F.COND_HCAL_LAST_S_LO_s_lo]⟩

def F.COND_HCAL_LAST_S_HI_valid : Fld := ⟨9699368, 31, 1, .ro, 0⟩
def F.COND_HCAL_LAST_S_HI_free_run : Fld := ⟨9699368, 30, 1, .ro, 0⟩
def F.COND_HCAL_LAST_S_HI_s_hi : Fld := ⟨9699368, 0, 16, .ro, 0⟩
/-- COND_HCAL_LAST_S_HI, spec/05 R189. -/
def R.COND_HCAL_LAST_S_HI : Reg := ⟨9699368, 2, 256, 2, 16, [F.COND_HCAL_LAST_S_HI_valid, F.COND_HCAL_LAST_S_HI_free_run, F.COND_HCAL_LAST_S_HI_s_hi]⟩

def F.COND_HCAL_LAST_NS_ns : Fld := ⟨9699372, 0, 32, .ro, 0⟩
/-- COND_HCAL_LAST_NS, spec/05 R189. -/
def R.COND_HCAL_LAST_NS : Reg := ⟨9699372, 2, 256, 2, 16, [F.COND_HCAL_LAST_NS_ns]⟩

def F.PAL_CTRL_clip_desat : Fld := ⟨10485760, 15, 1, .rw, 1⟩
def F.PAL_CTRL_ot : Fld := ⟨10485760, 12, 3, .rw, 0⟩
def F.PAL_CTRL_cdl_clamp : Fld := ⟨10485760, 10, 1, .rw, 1⟩
def F.PAL_CTRL_cdl_space : Fld := ⟨10485760, 9, 1, .rw, 0⟩
def F.PAL_CTRL_cdl : Fld := ⟨10485760, 8, 1, .rw, 0⟩
def F.PAL_CTRL_lut : Fld := ⟨10485760, 5, 1, .rw, 0⟩
def F.PAL_CTRL_shaper : Fld := ⟨10485760, 4, 1, .rw, 0⟩
def F.PAL_CTRL_slot : Fld := ⟨10485760, 2, 2, .rw, 0⟩
def F.PAL_CTRL_space : Fld := ⟨10485760, 1, 1, .rw, 0⟩
def F.PAL_CTRL_source : Fld := ⟨10485760, 0, 1, .rw, 0⟩
/-- PAL_CTRL, spec/06 R192. -/
def R.PAL_CTRL : Reg := ⟨10485760, 4, 65536, 1, 0, [F.PAL_CTRL_clip_desat, F.PAL_CTRL_ot, F.PAL_CTRL_cdl_clamp, F.PAL_CTRL_cdl_space, F.PAL_CTRL_cdl, F.PAL_CTRL_lut, F.PAL_CTRL_shaper, F.PAL_CTRL_slot, F.PAL_CTRL_space, F.PAL_CTRL_source]⟩

def F.PAL_IN_PED_in_ped : Fld := ⟨10485764, 0, 16, .rw, 256⟩
/-- PAL_IN_PED, spec/06 R197. -/
def R.PAL_IN_PED : Reg := ⟨10485764, 4, 65536, 1, 0, [F.PAL_IN_PED_in_ped]⟩

def F.PAL_IN_GAIN_value : Fld := ⟨10485768, 0, 32, .rw, 1082130432⟩
/-- PAL_IN_GAIN, spec/06 R197. -/
def R.PAL_IN_GAIN : Reg := ⟨10485768, 4, 65536, 1, 0, [F.PAL_IN_GAIN_value]⟩

def F.PAL_WB_value : Fld := ⟨10485776, 0, 32, .rw, 1065353216⟩
/-- PAL_WB, spec/06 R197. -/
def R.PAL_WB : Reg := ⟨10485776, 4, 65536, 4, 4, [F.PAL_WB_value]⟩

def F.PAL_MTX0_value : Fld := ⟨10485792, 0, 32, .rw, 1065353216⟩
/-- PAL_MTX0, spec/06 R201. -/
def R.PAL_MTX0 : Reg := ⟨10485792, 4, 65536, 1, 0, [F.PAL_MTX0_value]⟩

def F.PAL_MTX1_value : Fld := ⟨10485796, 0, 32, .rw, 0⟩
/-- PAL_MTX1, spec/06 R201. -/
def R.PAL_MTX1 : Reg := ⟨10485796, 4, 65536, 1, 0, [F.PAL_MTX1_value]⟩

def F.PAL_MTX2_value : Fld := ⟨10485800, 0, 32, .rw, 0⟩
/-- PAL_MTX2, spec/06 R201. -/
def R.PAL_MTX2 : Reg := ⟨10485800, 4, 65536, 1, 0, [F.PAL_MTX2_value]⟩

def F.PAL_MTX3_value : Fld := ⟨10485804, 0, 32, .rw, 0⟩
/-- PAL_MTX3, spec/06 R201. -/
def R.PAL_MTX3 : Reg := ⟨10485804, 4, 65536, 1, 0, [F.PAL_MTX3_value]⟩

def F.PAL_MTX4_value : Fld := ⟨10485808, 0, 32, .rw, 1065353216⟩
/-- PAL_MTX4, spec/06 R201. -/
def R.PAL_MTX4 : Reg := ⟨10485808, 4, 65536, 1, 0, [F.PAL_MTX4_value]⟩

def F.PAL_MTX5_value : Fld := ⟨10485812, 0, 32, .rw, 0⟩
/-- PAL_MTX5, spec/06 R201. -/
def R.PAL_MTX5 : Reg := ⟨10485812, 4, 65536, 1, 0, [F.PAL_MTX5_value]⟩

def F.PAL_MTX6_value : Fld := ⟨10485816, 0, 32, .rw, 0⟩
/-- PAL_MTX6, spec/06 R201. -/
def R.PAL_MTX6 : Reg := ⟨10485816, 4, 65536, 1, 0, [F.PAL_MTX6_value]⟩

def F.PAL_MTX7_value : Fld := ⟨10485820, 0, 32, .rw, 0⟩
/-- PAL_MTX7, spec/06 R201. -/
def R.PAL_MTX7 : Reg := ⟨10485820, 4, 65536, 1, 0, [F.PAL_MTX7_value]⟩

def F.PAL_MTX8_value : Fld := ⟨10485824, 0, 32, .rw, 1065353216⟩
/-- PAL_MTX8, spec/06 R201. -/
def R.PAL_MTX8 : Reg := ⟨10485824, 4, 65536, 1, 0, [F.PAL_MTX8_value]⟩

def F.PAL_CDL0_value : Fld := ⟨10485840, 0, 32, .rw, 1065353216⟩
/-- PAL_CDL0, spec/06 R202. -/
def R.PAL_CDL0 : Reg := ⟨10485840, 4, 65536, 1, 0, [F.PAL_CDL0_value]⟩

def F.PAL_CDL1_value : Fld := ⟨10485844, 0, 32, .rw, 1065353216⟩
/-- PAL_CDL1, spec/06 R202. -/
def R.PAL_CDL1 : Reg := ⟨10485844, 4, 65536, 1, 0, [F.PAL_CDL1_value]⟩

def F.PAL_CDL2_value : Fld := ⟨10485848, 0, 32, .rw, 1065353216⟩
/-- PAL_CDL2, spec/06 R202. -/
def R.PAL_CDL2 : Reg := ⟨10485848, 4, 65536, 1, 0, [F.PAL_CDL2_value]⟩

def F.PAL_CDL3_value : Fld := ⟨10485852, 0, 32, .rw, 0⟩
/-- PAL_CDL3, spec/06 R202. -/
def R.PAL_CDL3 : Reg := ⟨10485852, 4, 65536, 1, 0, [F.PAL_CDL3_value]⟩

def F.PAL_CDL4_value : Fld := ⟨10485856, 0, 32, .rw, 0⟩
/-- PAL_CDL4, spec/06 R202. -/
def R.PAL_CDL4 : Reg := ⟨10485856, 4, 65536, 1, 0, [F.PAL_CDL4_value]⟩

def F.PAL_CDL5_value : Fld := ⟨10485860, 0, 32, .rw, 0⟩
/-- PAL_CDL5, spec/06 R202. -/
def R.PAL_CDL5 : Reg := ⟨10485860, 4, 65536, 1, 0, [F.PAL_CDL5_value]⟩

def F.PAL_CDL6_value : Fld := ⟨10485864, 0, 32, .rw, 1065353216⟩
/-- PAL_CDL6, spec/06 R202. -/
def R.PAL_CDL6 : Reg := ⟨10485864, 4, 65536, 1, 0, [F.PAL_CDL6_value]⟩

def F.PAL_CDL7_value : Fld := ⟨10485868, 0, 32, .rw, 1065353216⟩
/-- PAL_CDL7, spec/06 R202. -/
def R.PAL_CDL7 : Reg := ⟨10485868, 4, 65536, 1, 0, [F.PAL_CDL7_value]⟩

def F.PAL_CDL8_value : Fld := ⟨10485872, 0, 32, .rw, 1065353216⟩
/-- PAL_CDL8, spec/06 R202. -/
def R.PAL_CDL8 : Reg := ⟨10485872, 4, 65536, 1, 0, [F.PAL_CDL8_value]⟩

def F.PAL_CDL9_value : Fld := ⟨10485876, 0, 32, .rw, 1065353216⟩
/-- PAL_CDL9, spec/06 R202. -/
def R.PAL_CDL9 : Reg := ⟨10485876, 4, 65536, 1, 0, [F.PAL_CDL9_value]⟩

def F.PAL_OT_MTX0_value : Fld := ⟨10485888, 0, 32, .rw, 1065353216⟩
/-- PAL_OT_MTX0, spec/06 R210. -/
def R.PAL_OT_MTX0 : Reg := ⟨10485888, 4, 65536, 1, 0, [F.PAL_OT_MTX0_value]⟩

def F.PAL_OT_MTX1_value : Fld := ⟨10485892, 0, 32, .rw, 0⟩
/-- PAL_OT_MTX1, spec/06 R210. -/
def R.PAL_OT_MTX1 : Reg := ⟨10485892, 4, 65536, 1, 0, [F.PAL_OT_MTX1_value]⟩

def F.PAL_OT_MTX2_value : Fld := ⟨10485896, 0, 32, .rw, 0⟩
/-- PAL_OT_MTX2, spec/06 R210. -/
def R.PAL_OT_MTX2 : Reg := ⟨10485896, 4, 65536, 1, 0, [F.PAL_OT_MTX2_value]⟩

def F.PAL_OT_MTX3_value : Fld := ⟨10485900, 0, 32, .rw, 0⟩
/-- PAL_OT_MTX3, spec/06 R210. -/
def R.PAL_OT_MTX3 : Reg := ⟨10485900, 4, 65536, 1, 0, [F.PAL_OT_MTX3_value]⟩

def F.PAL_OT_MTX4_value : Fld := ⟨10485904, 0, 32, .rw, 1065353216⟩
/-- PAL_OT_MTX4, spec/06 R210. -/
def R.PAL_OT_MTX4 : Reg := ⟨10485904, 4, 65536, 1, 0, [F.PAL_OT_MTX4_value]⟩

def F.PAL_OT_MTX5_value : Fld := ⟨10485908, 0, 32, .rw, 0⟩
/-- PAL_OT_MTX5, spec/06 R210. -/
def R.PAL_OT_MTX5 : Reg := ⟨10485908, 4, 65536, 1, 0, [F.PAL_OT_MTX5_value]⟩

def F.PAL_OT_MTX6_value : Fld := ⟨10485912, 0, 32, .rw, 0⟩
/-- PAL_OT_MTX6, spec/06 R210. -/
def R.PAL_OT_MTX6 : Reg := ⟨10485912, 4, 65536, 1, 0, [F.PAL_OT_MTX6_value]⟩

def F.PAL_OT_MTX7_value : Fld := ⟨10485916, 0, 32, .rw, 0⟩
/-- PAL_OT_MTX7, spec/06 R210. -/
def R.PAL_OT_MTX7 : Reg := ⟨10485916, 4, 65536, 1, 0, [F.PAL_OT_MTX7_value]⟩

def F.PAL_OT_MTX8_value : Fld := ⟨10485920, 0, 32, .rw, 1065353216⟩
/-- PAL_OT_MTX8, spec/06 R210. -/
def R.PAL_OT_MTX8 : Reg := ⟨10485920, 4, 65536, 1, 0, [F.PAL_OT_MTX8_value]⟩

def F.PAL_OT_SCALE_value : Fld := ⟨10485924, 0, 32, .rw, 1065353216⟩
/-- PAL_OT_SCALE, spec/06 R210. -/
def R.PAL_OT_SCALE : Reg := ⟨10485924, 4, 65536, 1, 0, [F.PAL_OT_SCALE_value]⟩

def F.PAL_OT_PQ_NITS_value : Fld := ⟨10485928, 0, 32, .rw, 1120403456⟩
/-- PAL_OT_PQ_NITS, spec/06 R210. -/
def R.PAL_OT_PQ_NITS : Reg := ⟨10485928, 4, 65536, 1, 0, [F.PAL_OT_PQ_NITS_value]⟩

def F.PAL_STATS_CFG_depth_log2 : Fld := ⟨10485936, 16, 4, .rw, 2⟩
def F.PAL_STATS_CFG_cq : Fld := ⟨10485936, 4, 4, .rw, 0⟩
def F.PAL_STATS_CFG_hist_log : Fld := ⟨10485936, 1, 1, .rw, 0⟩
def F.PAL_STATS_CFG_enable : Fld := ⟨10485936, 0, 1, .rw, 1⟩
/-- PAL_STATS_CFG, spec/06 R226. -/
def R.PAL_STATS_CFG : Reg := ⟨10485936, 4, 65536, 1, 0, [F.PAL_STATS_CFG_depth_log2, F.PAL_STATS_CFG_cq, F.PAL_STATS_CFG_hist_log, F.PAL_STATS_CFG_enable]⟩

def F.PAL_STATS_BASE_LO_value : Fld := ⟨10485940, 0, 32, .rw, 0⟩
/-- PAL_STATS_BASE_LO, spec/06 R230. -/
def R.PAL_STATS_BASE_LO : Reg := ⟨10485940, 4, 65536, 1, 0, [F.PAL_STATS_BASE_LO_value]⟩

def F.PAL_STATS_BASE_HI_value : Fld := ⟨10485944, 0, 32, .rw, 0⟩
/-- PAL_STATS_BASE_HI, spec/06 R230. -/
def R.PAL_STATS_BASE_HI : Reg := ⟨10485944, 4, 65536, 1, 0, [F.PAL_STATS_BASE_HI_value]⟩

def F.PAL_STATS_HEAD_value : Fld := ⟨10485948, 0, 16, .rw, 0⟩
/-- PAL_STATS_HEAD, spec/06 R230. -/
def R.PAL_STATS_HEAD : Reg := ⟨10485948, 4, 65536, 1, 0, [F.PAL_STATS_HEAD_value]⟩

def F.PAL_STATS_TAIL_value : Fld := ⟨10485952, 0, 16, .ro, 0⟩
/-- PAL_STATS_TAIL, spec/06 R230. -/
def R.PAL_STATS_TAIL : Reg := ⟨10485952, 4, 65536, 1, 0, [F.PAL_STATS_TAIL_value]⟩

def F.PAL_COMMIT_pending : Fld := ⟨10485968, 1, 1, .ro, 0⟩
def F.PAL_COMMIT_go : Fld := ⟨10485968, 0, 1, .wo, 0⟩
/-- PAL_COMMIT, spec/06 R222. -/
def R.PAL_COMMIT : Reg := ⟨10485968, 4, 65536, 1, 0, [F.PAL_COMMIT_pending, F.PAL_COMMIT_go]⟩

def F.PAL_SLOTS_in_use : Fld := ⟨10485972, 4, 4, .ro, 0⟩
def F.PAL_SLOTS_loaded : Fld := ⟨10485972, 0, 4, .ro, 0⟩
/-- PAL_SLOTS, spec/06 R209. -/
def R.PAL_SLOTS : Reg := ⟨10485972, 4, 65536, 1, 0, [F.PAL_SLOTS_in_use, F.PAL_SLOTS_loaded]⟩

def F.PAL_FLAGS_canvas_fallback : Fld := ⟨10485976, 4, 1, .w1c, 0⟩
def F.PAL_FLAGS_stats_drop : Fld := ⟨10485976, 3, 1, .w1c, 0⟩
def F.PAL_FLAGS_slot_empty : Fld := ⟨10485976, 2, 1, .w1c, 0⟩
def F.PAL_FLAGS_cfg_bad : Fld := ⟨10485976, 1, 1, .w1c, 0⟩
def F.PAL_FLAGS_cfg_refused : Fld := ⟨10485976, 0, 1, .w1c, 0⟩
/-- PAL_FLAGS, spec/06 R223. -/
def R.PAL_FLAGS : Reg := ⟨10485976, 4, 65536, 1, 0, [F.PAL_FLAGS_canvas_fallback, F.PAL_FLAGS_stats_drop, F.PAL_FLAGS_slot_empty, F.PAL_FLAGS_cfg_bad, F.PAL_FLAGS_cfg_refused]⟩

def F.PAL_CNT_not_taken : Fld := ⟨10485980, 16, 16, .rc, 0⟩
def F.PAL_CNT_stats_drop : Fld := ⟨10485980, 8, 8, .rc, 0⟩
def F.PAL_CNT_canvas_fallback : Fld := ⟨10485980, 0, 8, .rc, 0⟩
/-- PAL_CNT, spec/06 R194. -/
def R.PAL_CNT : Reg := ⟨10485980, 4, 65536, 1, 0, [F.PAL_CNT_not_taken, F.PAL_CNT_stats_drop, F.PAL_CNT_canvas_fallback]⟩

def F.VIEW_CTRL_lut : Fld := ⟨11534336, 6, 1, .rw, 0⟩
def F.VIEW_CTRL_shaper : Fld := ⟨11534336, 5, 1, .rw, 0⟩
def F.VIEW_CTRL_slot : Fld := ⟨11534336, 4, 1, .rw, 0⟩
def F.VIEW_CTRL_easel : Fld := ⟨11534336, 1, 2, .rw, 0⟩
def F.VIEW_CTRL_enable : Fld := ⟨11534336, 0, 1, .rw, 0⟩
/-- VIEW_CTRL, spec/06 R216. -/
def R.VIEW_CTRL : Reg := ⟨11534336, 8, 65536, 1, 0, [F.VIEW_CTRL_lut, F.VIEW_CTRL_shaper, F.VIEW_CTRL_slot, F.VIEW_CTRL_easel, F.VIEW_CTRL_enable]⟩

def F.VIEW_CROP_ORG_y : Fld := ⟨11534340, 16, 16, .rw, 0⟩
def F.VIEW_CROP_ORG_x : Fld := ⟨11534340, 0, 16, .rw, 0⟩
/-- VIEW_CROP_ORG, spec/06 R213. -/
def R.VIEW_CROP_ORG : Reg := ⟨11534340, 8, 65536, 1, 0, [F.VIEW_CROP_ORG_y, F.VIEW_CROP_ORG_x]⟩

def F.VIEW_CROP_SIZE_y : Fld := ⟨11534344, 16, 16, .rw, 0⟩
def F.VIEW_CROP_SIZE_x : Fld := ⟨11534344, 0, 16, .rw, 0⟩
/-- VIEW_CROP_SIZE, spec/06 R213. -/
def R.VIEW_CROP_SIZE : Reg := ⟨11534344, 8, 65536, 1, 0, [F.VIEW_CROP_SIZE_y, F.VIEW_CROP_SIZE_x]⟩

def F.VIEW_OUT_SIZE_y : Fld := ⟨11534348, 16, 16, .rw, 0⟩
def F.VIEW_OUT_SIZE_x : Fld := ⟨11534348, 0, 16, .rw, 0⟩
/-- VIEW_OUT_SIZE, spec/06 R213. -/
def R.VIEW_OUT_SIZE : Reg := ⟨11534348, 8, 65536, 1, 0, [F.VIEW_OUT_SIZE_y, F.VIEW_OUT_SIZE_x]⟩

def F.VIEW_FMT_coef : Fld := ⟨11534352, 5, 1, .rw, 0⟩
def F.VIEW_FMT_range : Fld := ⟨11534352, 4, 1, .rw, 0⟩
def F.VIEW_FMT_matrix : Fld := ⟨11534352, 3, 1, .rw, 0⟩
def F.VIEW_FMT_depth : Fld := ⟨11534352, 2, 1, .rw, 0⟩
def F.VIEW_FMT_format : Fld := ⟨11534352, 0, 2, .rw, 1⟩
/-- VIEW_FMT, spec/06 R217. -/
def R.VIEW_FMT : Reg := ⟨11534352, 8, 65536, 1, 0, [F.VIEW_FMT_coef, F.VIEW_FMT_range, F.VIEW_FMT_matrix, F.VIEW_FMT_depth, F.VIEW_FMT_format]⟩

def F.VIEW_RING_BASE_LO_value : Fld := ⟨11534356, 0, 32, .rw, 0⟩
/-- VIEW_RING_BASE_LO, spec/06 R219. -/
def R.VIEW_RING_BASE_LO : Reg := ⟨11534356, 8, 65536, 1, 0, [F.VIEW_RING_BASE_LO_value]⟩

def F.VIEW_RING_BASE_HI_value : Fld := ⟨11534360, 0, 32, .rw, 0⟩
/-- VIEW_RING_BASE_HI, spec/06 R219. -/
def R.VIEW_RING_BASE_HI : Reg := ⟨11534360, 8, 65536, 1, 0, [F.VIEW_RING_BASE_HI_value]⟩

def F.VIEW_RING_CFG_depth : Fld := ⟨11534364, 0, 4, .rw, 2⟩
/-- VIEW_RING_CFG, spec/06 R219. -/
def R.VIEW_RING_CFG : Reg := ⟨11534364, 8, 65536, 1, 0, [F.VIEW_RING_CFG_depth]⟩

def F.VIEW_RING_SLOT_size : Fld := ⟨11534368, 0, 32, .ro, 0⟩
/-- VIEW_RING_SLOT, spec/06 R219. -/
def R.VIEW_RING_SLOT : Reg := ⟨11534368, 8, 65536, 1, 0, [F.VIEW_RING_SLOT_size]⟩

def F.VIEW_COMMIT_pending : Fld := ⟨11534372, 1, 1, .ro, 0⟩
def F.VIEW_COMMIT_go : Fld := ⟨11534372, 0, 1, .wo, 0⟩
/-- VIEW_COMMIT, spec/06 R222. -/
def R.VIEW_COMMIT : Reg := ⟨11534372, 8, 65536, 1, 0, [F.VIEW_COMMIT_pending, F.VIEW_COMMIT_go]⟩

def F.VIEW_SLOTS_in_use : Fld := ⟨11534376, 4, 2, .ro, 0⟩
def F.VIEW_SLOTS_loaded : Fld := ⟨11534376, 0, 2, .ro, 0⟩
/-- VIEW_SLOTS, spec/06 R209. -/
def R.VIEW_SLOTS : Reg := ⟨11534376, 8, 65536, 1, 0, [F.VIEW_SLOTS_in_use, F.VIEW_SLOTS_loaded]⟩

def F.VIEW_FLAGS_drop : Fld := ⟨11534380, 3, 1, .w1c, 0⟩
def F.VIEW_FLAGS_slot_empty : Fld := ⟨11534380, 2, 1, .w1c, 0⟩
def F.VIEW_FLAGS_cfg_bad : Fld := ⟨11534380, 1, 1, .w1c, 0⟩
def F.VIEW_FLAGS_cfg_refused : Fld := ⟨11534380, 0, 1, .w1c, 0⟩
/-- VIEW_FLAGS, spec/06 R223. -/
def R.VIEW_FLAGS : Reg := ⟨11534380, 8, 65536, 1, 0, [F.VIEW_FLAGS_drop, F.VIEW_FLAGS_slot_empty, F.VIEW_FLAGS_cfg_bad, F.VIEW_FLAGS_cfg_refused]⟩

def F.VIEW_CNT_pictures : Fld := ⟨11534384, 16, 16, .rc, 0⟩
def F.VIEW_CNT_drop : Fld := ⟨11534384, 8, 8, .rc, 0⟩
def F.VIEW_CNT_scraped : Fld := ⟨11534384, 0, 8, .rc, 0⟩
/-- VIEW_CNT, spec/06 R220. -/
def R.VIEW_CNT : Reg := ⟨11534384, 8, 65536, 1, 0, [F.VIEW_CNT_pictures, F.VIEW_CNT_drop, F.VIEW_CNT_scraped]⟩

def F.VIEW_COEF_H_tap_odd : Fld := ⟨11536384, 16, 16, .rw, 0⟩
def F.VIEW_COEF_H_tap_even : Fld := ⟨11536384, 0, 16, .rw, 0⟩
/-- VIEW_COEF_H, spec/06 R215. -/
def R.VIEW_COEF_H : Reg := ⟨11536384, 8, 65536, 256, 4, [F.VIEW_COEF_H_tap_odd, F.VIEW_COEF_H_tap_even]⟩

def F.VIEW_COEF_V_tap_odd : Fld := ⟨11537408, 16, 16, .rw, 0⟩
def F.VIEW_COEF_V_tap_even : Fld := ⟨11537408, 0, 16, .rw, 0⟩
/-- VIEW_COEF_V, spec/06 R215. -/
def R.VIEW_COEF_V : Reg := ⟨11537408, 8, 65536, 256, 4, [F.VIEW_COEF_V_tap_odd, F.VIEW_COEF_V_tap_even]⟩

def F.LZP_CTRL_ratio_event : Fld := ⟨12582912, 1, 1, .rw, 1⟩
def F.LZP_CTRL_enable : Fld := ⟨12582912, 0, 1, .rw, 0⟩
/-- LZP_CTRL, spec/07 R256. -/
def R.LZP_CTRL : Reg := ⟨12582912, 2, 65536, 1, 0, [F.LZP_CTRL_ratio_event, F.LZP_CTRL_enable]⟩

def F.LZP_RING_BASE_LO_value : Fld := ⟨12582916, 0, 32, .rw, 0⟩
/-- LZP_RING_BASE_LO, spec/07 R247. -/
def R.LZP_RING_BASE_LO : Reg := ⟨12582916, 2, 65536, 1, 0, [F.LZP_RING_BASE_LO_value]⟩

def F.LZP_RING_BASE_HI_value : Fld := ⟨12582920, 0, 32, .rw, 0⟩
/-- LZP_RING_BASE_HI, spec/07 R247. -/
def R.LZP_RING_BASE_HI : Reg := ⟨12582920, 2, 65536, 1, 0, [F.LZP_RING_BASE_HI_value]⟩

def F.LZP_RING_LANE_lane_4k : Fld := ⟨12582924, 0, 16, .rw, 16⟩
/-- LZP_RING_LANE, spec/07 R253. -/
def R.LZP_RING_LANE : Reg := ⟨12582924, 2, 65536, 1, 0, [F.LZP_RING_LANE_lane_4k]⟩

def F.LZP_STATUS_stalled : Fld := ⟨12582928, 16, 8, .ro, 0⟩
def F.LZP_STATUS_busy : Fld := ⟨12582928, 8, 8, .ro, 0⟩
def F.LZP_STATUS_running : Fld := ⟨12582928, 0, 1, .ro, 0⟩
/-- LZP_STATUS, spec/07 R249. -/
def R.LZP_STATUS : Reg := ⟨12582928, 2, 65536, 1, 0, [F.LZP_STATUS_stalled, F.LZP_STATUS_busy, F.LZP_STATUS_running]⟩

def F.LZP_SEQ_seq : Fld := ⟨12582932, 0, 32, .ro, 0⟩
/-- LZP_SEQ, spec/07 R243. -/
def R.LZP_SEQ : Reg := ⟨12582932, 2, 65536, 1, 0, [F.LZP_SEQ_seq]⟩

def F.LZP_FLAGS_ratio_low : Fld := ⟨12582936, 4, 1, .w1c, 0⟩
def F.LZP_FLAGS_decode_fault : Fld := ⟨12582936, 3, 1, .w1c, 0⟩
def F.LZP_FLAGS_input_crc : Fld := ⟨12582936, 2, 1, .w1c, 0⟩
def F.LZP_FLAGS_ring_stall : Fld := ⟨12582936, 1, 1, .w1c, 0⟩
def F.LZP_FLAGS_cfg_refused : Fld := ⟨12582936, 0, 1, .w1c, 0⟩
/-- LZP_FLAGS, spec/07 R259. -/
def R.LZP_FLAGS : Reg := ⟨12582936, 2, 65536, 1, 0, [F.LZP_FLAGS_ratio_low, F.LZP_FLAGS_decode_fault, F.LZP_FLAGS_input_crc, F.LZP_FLAGS_ring_stall, F.LZP_FLAGS_cfg_refused]⟩

def F.LZP_CNT_ring_stall : Fld := ⟨12582940, 16, 16, .rc, 0⟩
def F.LZP_CNT_input_crc : Fld := ⟨12582940, 8, 8, .rc, 0⟩
def F.LZP_CNT_decode_fault : Fld := ⟨12582940, 0, 8, .rc, 0⟩
/-- LZP_CNT, spec/07 R259. -/
def R.LZP_CNT : Reg := ⟨12582940, 2, 65536, 1, 0, [F.LZP_CNT_ring_stall, F.LZP_CNT_input_crc, F.LZP_CNT_decode_fault]⟩

def F.LZP_DEC_FAULT0_valid : Fld := ⟨12582944, 31, 1, .ro, 0⟩
def F.LZP_DEC_FAULT0_easel : Fld := ⟨12582944, 16, 2, .ro, 0⟩
def F.LZP_DEC_FAULT0_code : Fld := ⟨12582944, 0, 16, .ro, 0⟩
/-- LZP_DEC_FAULT0, spec/07 R259. -/
def R.LZP_DEC_FAULT0 : Reg := ⟨12582944, 2, 65536, 1, 0, [F.LZP_DEC_FAULT0_valid, F.LZP_DEC_FAULT0_easel, F.LZP_DEC_FAULT0_code]⟩

def F.LZP_DEC_FAULT1_tile_index : Fld := ⟨12582948, 0, 32, .ro, 0⟩
/-- LZP_DEC_FAULT1, spec/07 R259. -/
def R.LZP_DEC_FAULT1 : Reg := ⟨12582948, 2, 65536, 1, 0, [F.LZP_DEC_FAULT1_tile_index]⟩

def F.LZP_DEC_FAULT2_serial_lo : Fld := ⟨12582952, 0, 32, .ro, 0⟩
/-- LZP_DEC_FAULT2, spec/07 R259. -/
def R.LZP_DEC_FAULT2 : Reg := ⟨12582952, 2, 65536, 1, 0, [F.LZP_DEC_FAULT2_serial_lo]⟩

def F.LZP_DEC_FAULT3_serial_hi : Fld := ⟨12582956, 16, 16, .ro, 0⟩
def F.LZP_DEC_FAULT3_bit_offset : Fld := ⟨12582956, 0, 16, .ro, 0⟩
/-- LZP_DEC_FAULT3, spec/07 R259. -/
def R.LZP_DEC_FAULT3 : Reg := ⟨12582956, 2, 65536, 1, 0, [F.LZP_DEC_FAULT3_serial_hi, F.LZP_DEC_FAULT3_bit_offset]⟩

def F.LZP_LANE_COMMIT_offset : Fld := ⟨12583936, 0, 32, .ro, 0⟩
/-- LZP_LANE_COMMIT, spec/07 R250. -/
def R.LZP_LANE_COMMIT : Reg := ⟨12583936, 2, 65536, 48, 8, [F.LZP_LANE_COMMIT_offset]⟩

def F.LZP_LANE_RELEASE_offset : Fld := ⟨12583940, 0, 32, .ro, 0⟩
/-- LZP_LANE_RELEASE, spec/07 R250. -/
def R.LZP_LANE_RELEASE : Reg := ⟨12583940, 2, 65536, 48, 8, [F.LZP_LANE_RELEASE_offset]⟩

def F.LZP_EASEL_TILES_count : Fld := ⟨13107200, 0, 32, .rc, 0⟩
/-- LZP_EASEL_TILES, spec/07. -/
def R.LZP_EASEL_TILES : Reg := ⟨13107200, 4, 256, 1, 0, [F.LZP_EASEL_TILES_count]⟩

def F.LZP_EASEL_RAW_count : Fld := ⟨13107204, 0, 32, .rc, 0⟩
/-- LZP_EASEL_RAW, spec/07 R242. -/
def R.LZP_EASEL_RAW : Reg := ⟨13107204, 4, 256, 1, 0, [F.LZP_EASEL_RAW_count]⟩

def F.LZP_EASEL_BYTES_LO_value : Fld := ⟨13107208, 0, 32, .rc, 0⟩
/-- LZP_EASEL_BYTES_LO, spec/07. -/
def R.LZP_EASEL_BYTES_LO : Reg := ⟨13107208, 4, 256, 1, 0, [F.LZP_EASEL_BYTES_LO_value]⟩

def F.LZP_EASEL_BYTES_HI_value : Fld := ⟨13107212, 0, 32, .rc, 0⟩
/-- LZP_EASEL_BYTES_HI, spec/07. -/
def R.LZP_EASEL_BYTES_HI : Reg := ⟨13107212, 4, 256, 1, 0, [F.LZP_EASEL_BYTES_HI_value]⟩

def F.LZP_EASEL_RATIO_serial_lo : Fld := ⟨13107216, 16, 16, .ro, 0⟩
def F.LZP_EASEL_RATIO_ratio : Fld := ⟨13107216, 0, 16, .ro, 0⟩
/-- LZP_EASEL_RATIO, spec/07 R261. -/
def R.LZP_EASEL_RATIO : Reg := ⟨13107216, 4, 256, 1, 0, [F.LZP_EASEL_RATIO_serial_lo, F.LZP_EASEL_RATIO_ratio]⟩

def F.LZP_EASEL_ALARM_threshold : Fld := ⟨13107220, 0, 16, .rw, 454⟩
/-- LZP_EASEL_ALARM, spec/07 R262. -/
def R.LZP_EASEL_ALARM : Reg := ⟨13107220, 4, 256, 1, 0, [F.LZP_EASEL_ALARM_threshold]⟩

def F.HBM_STACK_STATUS_cap_mib : Fld := ⟨13631488, 16, 16, .ro, Config.capMib⟩
def F.HBM_STACK_STATUS_band : Fld := ⟨13631488, 5, 3, .ro, 0⟩
def F.HBM_STACK_STATUS_state : Fld := ⟨13631488, 0, 2, .ro, 0⟩
/-- HBM_STACK_STATUS, spec/08 R269. -/
def R.HBM_STACK_STATUS : Reg := ⟨13631488, 2, 65536, 1, 0, [F.HBM_STACK_STATUS_cap_mib, F.HBM_STACK_STATUS_band, F.HBM_STACK_STATUS_state]⟩

def F.HBM_RH_CFG_threshold : Fld := ⟨13631492, 16, 16, .rw, 2048⟩
def F.HBM_RH_CFG_reach : Fld := ⟨13631492, 0, 2, .rw, 1⟩
/-- HBM_RH_CFG, spec/08 R274. -/
def R.HBM_RH_CFG : Reg := ⟨13631492, 2, 65536, 1, 0, [F.HBM_RH_CFG_threshold, F.HBM_RH_CFG_reach]⟩

def F.HBM_FLAGS_band_change : Fld := ⟨13631496, 5, 1, .w1c, 0⟩
def F.HBM_FLAGS_rh_refresh : Fld := ⟨13631496, 4, 1, .w1c, 0⟩
def F.HBM_FLAGS_ue : Fld := ⟨13631496, 3, 1, .w1c, 0⟩
def F.HBM_FLAGS_ce : Fld := ⟨13631496, 2, 1, .w1c, 0⟩
def F.HBM_FLAGS_ca_fail : Fld := ⟨13631496, 1, 1, .w1c, 0⟩
def F.HBM_FLAGS_ca_alert : Fld := ⟨13631496, 0, 1, .w1c, 0⟩
/-- HBM_FLAGS, spec/08 R270. -/
def R.HBM_FLAGS : Reg := ⟨13631496, 2, 65536, 1, 0, [F.HBM_FLAGS_band_change, F.HBM_FLAGS_rh_refresh, F.HBM_FLAGS_ue, F.HBM_FLAGS_ce, F.HBM_FLAGS_ca_fail, F.HBM_FLAGS_ca_alert]⟩

def F.HBM_CNT_ca_alert : Fld := ⟨13631500, 24, 8, .rc, 0⟩
def F.HBM_CNT_ue : Fld := ⟨13631500, 16, 8, .rc, 0⟩
def F.HBM_CNT_ce : Fld := ⟨13631500, 0, 16, .rc, 0⟩
/-- HBM_CNT, spec/08 R270. -/
def R.HBM_CNT : Reg := ⟨13631500, 2, 65536, 1, 0, [F.HBM_CNT_ca_alert, F.HBM_CNT_ue, F.HBM_CNT_ce]⟩

def F.HBM_CNT_RH_count : Fld := ⟨13631504, 0, 32, .rc, 0⟩
/-- HBM_CNT_RH, spec/08 R274. -/
def R.HBM_CNT_RH : Reg := ⟨13631504, 2, 65536, 1, 0, [F.HBM_CNT_RH_count]⟩

def F.HBM_UE_ADDR_LO_value : Fld := ⟨13631508, 0, 32, .ro, 0⟩
/-- HBM_UE_ADDR_LO, spec/08 R272. -/
def R.HBM_UE_ADDR_LO : Reg := ⟨13631508, 2, 65536, 1, 0, [F.HBM_UE_ADDR_LO_value]⟩

def F.HBM_UE_ADDR_HI_value : Fld := ⟨13631512, 0, 32, .ro, 0⟩
/-- HBM_UE_ADDR_HI, spec/08 R272. -/
def R.HBM_UE_ADDR_HI : Reg := ⟨13631512, 2, 65536, 1, 0, [F.HBM_UE_ADDR_HI_value]⟩

def F.HBM_ELASTIC_peak_mib : Fld := ⟨13631516, 16, 16, .rcPeak 13631516 0, 0⟩
def F.HBM_ELASTIC_used_mib : Fld := ⟨13631516, 0, 16, .ro, 0⟩
/-- HBM_ELASTIC, spec/08 R314. -/
def R.HBM_ELASTIC : Reg := ⟨13631516, 2, 65536, 1, 0, [F.HBM_ELASTIC_peak_mib, F.HBM_ELASTIC_used_mib]⟩

def F.HBM_REGION_BASE_base_4k : Fld := ⟨14155776, 0, 32, .rw, 0⟩
/-- HBM_REGION_BASE, spec/08 R276. -/
def R.HBM_REGION_BASE : Reg := ⟨14155776, 64, 16, 1, 0, [F.HBM_REGION_BASE_base_4k]⟩

def F.HBM_REGION_SIZE_size_4k : Fld := ⟨14155780, 0, 32, .rw, 0⟩
/-- HBM_REGION_SIZE, spec/08 R276. -/
def R.HBM_REGION_SIZE : Reg := ⟨14155780, 64, 16, 1, 0, [F.HBM_REGION_SIZE_size_4k]⟩

def F.HBM_REGION_ATTR_owner : Fld := ⟨14155784, 8, 8, .rw, 0⟩
def F.HBM_REGION_ATTR_kind : Fld := ⟨14155784, 0, 4, .rw, 0⟩
/-- HBM_REGION_ATTR, spec/08 R276. -/
def R.HBM_REGION_ATTR : Reg := ⟨14155784, 64, 16, 1, 0, [F.HBM_REGION_ATTR_owner, F.HBM_REGION_ATTR_kind]⟩

def F.HBM_PLAN_COMMIT_entry : Fld := ⟨14156800, 16, 8, .ro, 0⟩
def F.HBM_PLAN_COMMIT_result : Fld := ⟨14156800, 8, 4, .ro, 0⟩
def F.HBM_PLAN_COMMIT_pending : Fld := ⟨14156800, 3, 1, .ro, 0⟩
def F.HBM_PLAN_COMMIT_plan_bad : Fld := ⟨14156800, 2, 1, .w1c, 0⟩
def F.HBM_PLAN_COMMIT_active : Fld := ⟨14156800, 1, 1, .ro, 0⟩
def F.HBM_PLAN_COMMIT_go : Fld := ⟨14156800, 0, 1, .wo, 0⟩
/-- HBM_PLAN_COMMIT, spec/08 R278. -/
def R.HBM_PLAN_COMMIT : Reg := ⟨14156800, 1, 0, 1, 0, [F.HBM_PLAN_COMMIT_entry, F.HBM_PLAN_COMMIT_result, F.HBM_PLAN_COMMIT_pending, F.HBM_PLAN_COMMIT_plan_bad, F.HBM_PLAN_COMMIT_active, F.HBM_PLAN_COMMIT_go]⟩

def F.HBM_CANVAS_STATUS_canvas_full : Fld := ⟨14417920, 31, 1, .w1c, 0⟩
def F.HBM_CANVAS_STATUS_free : Fld := ⟨14417920, 16, 8, .ro, 0⟩
def F.HBM_CANVAS_STATUS_slots : Fld := ⟨14417920, 0, 7, .ro, 0⟩
/-- HBM_CANVAS_STATUS, spec/08 R282. -/
def R.HBM_CANVAS_STATUS : Reg := ⟨14417920, 4, 256, 1, 0, [F.HBM_CANVAS_STATUS_canvas_full, F.HBM_CANVAS_STATUS_free, F.HBM_CANVAS_STATUS_slots]⟩

def F.HBM_CANVAS_SLOT_slot_4k : Fld := ⟨14417924, 0, 32, .ro, 0⟩
/-- HBM_CANVAS_SLOT, spec/08 R281. -/
def R.HBM_CANVAS_SLOT : Reg := ⟨14417924, 4, 256, 1, 0, [F.HBM_CANVAS_SLOT_slot_4k]⟩

def F.HBM_CANVAS_FULL_count : Fld := ⟨14417928, 0, 32, .rc, 0⟩
/-- HBM_CANVAS_FULL, spec/08 R284. -/
def R.HBM_CANVAS_FULL : Reg := ⟨14417928, 4, 256, 1, 0, [F.HBM_CANVAS_FULL_count]⟩

def F.MAG_PORT_CTRL_retry : Fld := ⟨14680064, 1, 1, .wo, 0⟩
def F.MAG_PORT_CTRL_enable : Fld := ⟨14680064, 0, 1, .rw, 1⟩
/-- MAG_PORT_CTRL, spec/09 R292. -/
def R.MAG_PORT_CTRL : Reg := ⟨14680064, 2, 524288, 1, 0, [F.MAG_PORT_CTRL_retry, F.MAG_PORT_CTRL_enable]⟩

def F.MAG_PORT_STATUS_refuse_code : Fld := ⟨14680068, 8, 4, .ro, 0⟩
def F.MAG_PORT_STATUS_pwr_en : Fld := ⟨14680068, 5, 1, .ro, 0⟩
def F.MAG_PORT_STATUS_pres : Fld := ⟨14680068, 4, 1, .ro, 0⟩
def F.MAG_PORT_STATUS_state : Fld := ⟨14680068, 0, 4, .ro, 0⟩
/-- MAG_PORT_STATUS, spec/09 R292. -/
def R.MAG_PORT_STATUS : Reg := ⟨14680068, 2, 524288, 1, 0, [F.MAG_PORT_STATUS_refuse_code, F.MAG_PORT_STATUS_pwr_en, F.MAG_PORT_STATUS_pres, F.MAG_PORT_STATUS_state]⟩

def F.MAG_GEOM_blocks : Fld := ⟨14680072, 16, 16, .ro, 0⟩
def F.MAG_GEOM_shot : Fld := ⟨14680072, 8, 4, .ro, 0⟩
def F.MAG_GEOM_planes : Fld := ⟨14680072, 5, 3, .ro, 0⟩
def F.MAG_GEOM_dies_ch : Fld := ⟨14680072, 0, 5, .ro, 0⟩
/-- MAG_GEOM, spec/09 R289. -/
def R.MAG_GEOM : Reg := ⟨14680072, 2, 524288, 1, 0, [F.MAG_GEOM_blocks, F.MAG_GEOM_shot, F.MAG_GEOM_planes, F.MAG_GEOM_dies_ch]⟩

def F.MAG_GEOM2_mts : Fld := ⟨14680076, 16, 16, .ro, 0⟩
def F.MAG_GEOM2_wl : Fld := ⟨14680076, 0, 16, .ro, 0⟩
/-- MAG_GEOM2, spec/09 R289. -/
def R.MAG_GEOM2 : Reg := ⟨14680076, 2, 524288, 1, 0, [F.MAG_GEOM2_mts, F.MAG_GEOM2_wl]⟩

def F.MAG_TIMING_t_prog : Fld := ⟨14680080, 16, 16, .ro, 0⟩
def F.MAG_TIMING_t_slc : Fld := ⟨14680080, 0, 16, .ro, 0⟩
/-- MAG_TIMING, spec/09 R289. -/
def R.MAG_TIMING : Reg := ⟨14680080, 2, 524288, 1, 0, [F.MAG_TIMING_t_prog, F.MAG_TIMING_t_slc]⟩

def F.MAG_RATE_rate : Fld := ⟨14680084, 0, 16, .ro, 0⟩
/-- MAG_RATE, spec/09 R309. -/
def R.MAG_RATE : Reg := ⟨14680084, 2, 524288, 1, 0, [F.MAG_RATE_rate]⟩

def F.MAG_SEGMENTS_segments : Fld := ⟨14680088, 0, 32, .ro, 0⟩
/-- MAG_SEGMENTS, spec/09 R289. -/
def R.MAG_SEGMENTS : Reg := ⟨14680088, 2, 524288, 1, 0, [F.MAG_SEGMENTS_segments]⟩

def F.MAG_OPS_peak : Fld := ⟨14680096, 16, 16, .rcPeak 14680096 0, 0⟩
def F.MAG_OPS_now : Fld := ⟨14680096, 0, 16, .ro, 0⟩
/-- MAG_OPS, spec/09 R307. -/
def R.MAG_OPS : Reg := ⟨14680096, 2, 524288, 1, 0, [F.MAG_OPS_peak, F.MAG_OPS_now]⟩

def F.MAG_ELASTIC_CFG_lane_pct : Fld := ⟨14680100, 8, 8, .rw, 50⟩
def F.MAG_ELASTIC_CFG_canvas_lo : Fld := ⟨14680100, 0, 8, .rw, 2⟩
/-- MAG_ELASTIC_CFG, spec/09 R312. -/
def R.MAG_ELASTIC_CFG : Reg := ⟨14680100, 2, 524288, 1, 0, [F.MAG_ELASTIC_CFG_lane_pct, F.MAG_ELASTIC_CFG_canvas_lo]⟩

def F.MAG_WEAR_CFG_spare_warn : Fld := ⟨14680104, 24, 8, .rw, 8⟩
def F.MAG_WEAR_CFG_erased_min : Fld := ⟨14680104, 16, 8, .rw, 32⟩
def F.MAG_WEAR_CFG_delta : Fld := ⟨14680104, 0, 16, .rw, 200⟩
/-- MAG_WEAR_CFG, spec/09 R315. -/
def R.MAG_WEAR_CFG : Reg := ⟨14680104, 2, 524288, 1, 0, [F.MAG_WEAR_CFG_spare_warn, F.MAG_WEAR_CFG_erased_min, F.MAG_WEAR_CFG_delta]⟩

def F.MAG_RD_CFG_refresh_bits : Fld := ⟨14680108, 16, 16, .rw, 96⟩
def F.MAG_RD_CFG_rd_limit : Fld := ⟨14680108, 0, 16, .rw, 100⟩
/-- MAG_RD_CFG, spec/09 R318. -/
def R.MAG_RD_CFG : Reg := ⟨14680108, 2, 524288, 1, 0, [F.MAG_RD_CFG_refresh_bits, F.MAG_RD_CFG_rd_limit]⟩

def F.MAG_SCRUB_CFG_enable : Fld := ⟨14680112, 31, 1, .rw, 1⟩
def F.MAG_SCRUB_CFG_age_days : Fld := ⟨14680112, 0, 16, .rw, 183⟩
/-- MAG_SCRUB_CFG, spec/09 R319. -/
def R.MAG_SCRUB_CFG : Reg := ⟨14680112, 2, 524288, 1, 0, [F.MAG_SCRUB_CFG_enable, F.MAG_SCRUB_CFG_age_days]⟩

def F.MAG_SCRUB_STATUS_running : Fld := ⟨14680116, 31, 1, .ro, 0⟩
def F.MAG_SCRUB_STATUS_pending : Fld := ⟨14680116, 0, 24, .ro, 0⟩
/-- MAG_SCRUB_STATUS, spec/09 R319. -/
def R.MAG_SCRUB_STATUS : Reg := ⟨14680116, 2, 524288, 1, 0, [F.MAG_SCRUB_STATUS_running, F.MAG_SCRUB_STATUS_pending]⟩

def F.MAG_WEAR_STATUS_high : Fld := ⟨14680120, 16, 16, .ro, 0⟩
def F.MAG_WEAR_STATUS_low : Fld := ⟨14680120, 0, 16, .ro, 0⟩
/-- MAG_WEAR_STATUS, spec/09 R315. -/
def R.MAG_WEAR_STATUS : Reg := ⟨14680120, 2, 524288, 1, 0, [F.MAG_WEAR_STATUS_high, F.MAG_WEAR_STATUS_low]⟩

def F.MAG_SPARE_high : Fld := ⟨14680124, 16, 16, .ro, 0⟩
def F.MAG_SPARE_low : Fld := ⟨14680124, 0, 16, .ro, 0⟩
/-- MAG_SPARE, spec/09 R317. -/
def R.MAG_SPARE : Reg := ⟨14680124, 2, 524288, 1, 0, [F.MAG_SPARE_high, F.MAG_SPARE_low]⟩

def F.MAG_FLAGS_scrub_done : Fld := ⟨14680128, 11, 1, .w1c, 0⟩
def F.MAG_FLAGS_spare_low : Fld := ⟨14680128, 10, 1, .w1c, 0⟩
def F.MAG_FLAGS_elastic_full : Fld := ⟨14680128, 9, 1, .w1c, 0⟩
def F.MAG_FLAGS_elastic_spill : Fld := ⟨14680128, 8, 1, .w1c, 0⟩
def F.MAG_FLAGS_tile_crc : Fld := ⟨14680128, 7, 1, .w1c, 0⟩
def F.MAG_FLAGS_uncorr : Fld := ⟨14680128, 6, 1, .w1c, 0⟩
def F.MAG_FLAGS_rebuild : Fld := ⟨14680128, 5, 1, .w1c, 0⟩
def F.MAG_FLAGS_erase_fail : Fld := ⟨14680128, 4, 1, .w1c, 0⟩
def F.MAG_FLAGS_prog_fail : Fld := ⟨14680128, 3, 1, .w1c, 0⟩
def F.MAG_FLAGS_pfw : Fld := ⟨14680128, 2, 1, .w1c, 0⟩
def F.MAG_FLAGS_init_fail : Fld := ⟨14680128, 1, 1, .w1c, 0⟩
def F.MAG_FLAGS_cfg_refused : Fld := ⟨14680128, 0, 1, .w1c, 0⟩
/-- MAG_FLAGS, spec/09 R294. -/
def R.MAG_FLAGS : Reg := ⟨14680128, 2, 524288, 1, 0, [F.MAG_FLAGS_scrub_done, F.MAG_FLAGS_spare_low, F.MAG_FLAGS_elastic_full, F.MAG_FLAGS_elastic_spill, F.MAG_FLAGS_tile_crc, F.MAG_FLAGS_uncorr, F.MAG_FLAGS_rebuild, F.MAG_FLAGS_erase_fail, F.MAG_FLAGS_prog_fail, F.MAG_FLAGS_pfw, F.MAG_FLAGS_init_fail, F.MAG_FLAGS_cfg_refused]⟩

def F.MAG_CNT_prog_fail : Fld := ⟨14680132, 24, 8, .rc, 0⟩
def F.MAG_CNT_erase_fail : Fld := ⟨14680132, 16, 8, .rc, 0⟩
def F.MAG_CNT_rebuild : Fld := ⟨14680132, 8, 8, .rc, 0⟩
def F.MAG_CNT_uncorr : Fld := ⟨14680132, 0, 8, .rc, 0⟩
/-- MAG_CNT, spec/09 R294. -/
def R.MAG_CNT : Reg := ⟨14680132, 2, 524288, 1, 0, [F.MAG_CNT_prog_fail, F.MAG_CNT_erase_fail, F.MAG_CNT_rebuild, F.MAG_CNT_uncorr]⟩

def F.MAG_CNT2_tile_crc : Fld := ⟨14680136, 16, 16, .rc, 0⟩
def F.MAG_CNT2_spill : Fld := ⟨14680136, 8, 8, .rc, 0⟩
def F.MAG_CNT2_retired : Fld := ⟨14680136, 0, 8, .rc, 0⟩
/-- MAG_CNT2, spec/09 R294. -/
def R.MAG_CNT2 : Reg := ⟨14680136, 2, 524288, 1, 0, [F.MAG_CNT2_tile_crc, F.MAG_CNT2_spill, F.MAG_CNT2_retired]⟩

def F.MAG_PFW_STATUS_finished : Fld := ⟨14680140, 16, 16, .ro, 0⟩
def F.MAG_PFW_STATUS_time_us : Fld := ⟨14680140, 0, 16, .ro, 0⟩
/-- MAG_PFW_STATUS, spec/09 R323. -/
def R.MAG_PFW_STATUS : Reg := ⟨14680140, 2, 524288, 1, 0, [F.MAG_PFW_STATUS_finished, F.MAG_PFW_STATUS_time_us]⟩

def F.MAG_ID_mfr : Fld := ⟨14680144, 24, 8, .ro, 0⟩
def F.MAG_ID_device : Fld := ⟨14680144, 0, 24, .ro, 0⟩
/-- MAG_ID, spec/09 R289. -/
def R.MAG_ID : Reg := ⟨14680144, 2, 524288, 1, 0, [F.MAG_ID_mfr, F.MAG_ID_device]⟩

def F.MAG_PWR_CFG_ramp_ms : Fld := ⟨14680148, 0, 8, .rw, 20⟩
/-- MAG_PWR_CFG, spec/09 R291. -/
def R.MAG_PWR_CFG : Reg := ⟨14680148, 2, 524288, 1, 0, [F.MAG_PWR_CFG_ramp_ms]⟩

def F.REEL_STATUS_pair_pending : Fld := ⟨14680320, 7, 1, .ro, 0⟩
def F.REEL_STATUS_wip : Fld := ⟨14680320, 6, 1, .ro, 0⟩
def F.REEL_STATUS_encrypted : Fld := ⟨14680320, 5, 1, .ro, 0⟩
def F.REEL_STATUS_read_only : Fld := ⟨14680320, 4, 1, .ro, 0⟩
def F.REEL_STATUS_mounted : Fld := ⟨14680320, 3, 1, .ro, 0⟩
def F.REEL_STATUS_version : Fld := ⟨14680320, 0, 3, .ro, 0⟩
/-- REEL_STATUS, spec/10 R359. -/
def R.REEL_STATUS : Reg := ⟨14680320, 2, 524288, 1, 0, [F.REEL_STATUS_pair_pending, F.REEL_STATUS_wip, F.REEL_STATUS_encrypted, F.REEL_STATUS_read_only, F.REEL_STATUS_mounted, F.REEL_STATUS_version]⟩

def F.REEL_EXPOSURE_pfw_loss : Fld := ⟨14680324, 16, 16, .ro, 0⟩
def F.REEL_EXPOSURE_cut_loss : Fld := ⟨14680324, 0, 16, .ro, 0⟩
/-- REEL_EXPOSURE, spec/10 R356. -/
def R.REEL_EXPOSURE : Reg := ⟨14680324, 2, 524288, 1, 0, [F.REEL_EXPOSURE_pfw_loss, F.REEL_EXPOSURE_cut_loss]⟩

def F.REEL_WIP_op : Fld := ⟨14680328, 30, 2, .ro, 0⟩
def F.REEL_WIP_done : Fld := ⟨14680328, 12, 12, .ro, 0⟩
def F.REEL_WIP_total : Fld := ⟨14680328, 0, 12, .ro, 0⟩
/-- REEL_WIP, spec/10 R370. -/
def R.REEL_WIP : Reg := ⟨14680328, 2, 524288, 1, 0, [F.REEL_WIP_op, F.REEL_WIP_done, F.REEL_WIP_total]⟩

def F.REEL_LEDGER_free_pct : Fld := ⟨14680332, 24, 8, .ro, 0⟩
/-- REEL_LEDGER, spec/10 R345. -/
def R.REEL_LEDGER : Reg := ⟨14680332, 2, 524288, 1, 0, [F.REEL_LEDGER_free_pct]⟩

def F.REEL_SEQ_LO_value : Fld := ⟨14680336, 0, 32, .ro, 0⟩
/-- REEL_SEQ_LO, spec/10 R338. -/
def R.REEL_SEQ_LO : Reg := ⟨14680336, 2, 524288, 1, 0, [F.REEL_SEQ_LO_value]⟩

def F.REEL_SEQ_HI_value : Fld := ⟨14680340, 0, 32, .ro, 0⟩
/-- REEL_SEQ_HI, spec/10 R338. -/
def R.REEL_SEQ_HI : Reg := ⟨14680340, 2, 524288, 1, 0, [F.REEL_SEQ_HI_value]⟩

def F.REEL_FLAGS_wip_done : Fld := ⟨14680344, 5, 1, .w1c, 0⟩
def F.REEL_FLAGS_ledger_low : Fld := ⟨14680344, 4, 1, .w1c, 0⟩
def F.REEL_FLAGS_reconciled : Fld := ⟨14680344, 3, 1, .w1c, 0⟩
def F.REEL_FLAGS_gleaned : Fld := ⟨14680344, 2, 1, .w1c, 0⟩
def F.REEL_FLAGS_copy_bad : Fld := ⟨14680344, 1, 1, .w1c, 0⟩
def F.REEL_FLAGS_ledger_gap : Fld := ⟨14680344, 0, 1, .w1c, 0⟩
/-- REEL_FLAGS, spec/10 R359. -/
def R.REEL_FLAGS : Reg := ⟨14680344, 2, 524288, 1, 0, [F.REEL_FLAGS_wip_done, F.REEL_FLAGS_ledger_low, F.REEL_FLAGS_reconciled, F.REEL_FLAGS_gleaned, F.REEL_FLAGS_copy_bad, F.REEL_FLAGS_ledger_gap]⟩

def F.REEL_CNT_gleaned : Fld := ⟨14680348, 16, 16, .rc, 0⟩
def F.REEL_CNT_lost : Fld := ⟨14680348, 8, 8, .rc, 0⟩
def F.REEL_CNT_copy_bad : Fld := ⟨14680348, 0, 8, .rc, 0⟩
/-- REEL_CNT, spec/10 R360. -/
def R.REEL_CNT : Reg := ⟨14680348, 2, 524288, 1, 0, [F.REEL_CNT_gleaned, F.REEL_CNT_lost, F.REEL_CNT_copy_bad]⟩

def F.STOR_ADMIN_STATUS_phase : Fld := ⟨14680576, 8, 4, .ro, 0⟩
def F.STOR_ADMIN_STATUS_op : Fld := ⟨14680576, 0, 3, .ro, 0⟩
/-- STOR_ADMIN_STATUS, spec/12 R439. -/
def R.STOR_ADMIN_STATUS : Reg := ⟨14680576, 2, 524288, 1, 0, [F.STOR_ADMIN_STATUS_phase, F.STOR_ADMIN_STATUS_op]⟩

def F.STOR_ADMIN_DONE_value : Fld := ⟨14680580, 0, 32, .ro, 0⟩
/-- STOR_ADMIN_DONE, spec/12 R439. -/
def R.STOR_ADMIN_DONE : Reg := ⟨14680580, 2, 524288, 1, 0, [F.STOR_ADMIN_DONE_value]⟩

def F.STOR_ADMIN_TOTAL_value : Fld := ⟨14680584, 0, 32, .ro, 0⟩
/-- STOR_ADMIN_TOTAL, spec/12 R439. -/
def R.STOR_ADMIN_TOTAL : Reg := ⟨14680584, 2, 524288, 1, 0, [F.STOR_ADMIN_TOTAL_value]⟩

def F.TAKE_STATUS_end_status : Fld := ⟨15728640, 16, 16, .ro, 0⟩
def F.TAKE_STATUS_packed : Fld := ⟨15728640, 6, 1, .ro, 0⟩
def F.TAKE_STATUS_placement : Fld := ⟨15728640, 4, 2, .ro, 0⟩
def F.TAKE_STATUS_state : Fld := ⟨15728640, 0, 3, .ro, 0⟩
/-- TAKE_STATUS, spec/12 R414. -/
def R.TAKE_STATUS : Reg := ⟨15728640, 4, 256, 1, 0, [F.TAKE_STATUS_end_status, F.TAKE_STATUS_packed, F.TAKE_STATUS_placement, F.TAKE_STATUS_state]⟩

def F.TAKE_NUMBER_value : Fld := ⟨15728644, 0, 32, .ro, 0⟩
/-- TAKE_NUMBER, spec/12 R414. -/
def R.TAKE_NUMBER : Reg := ⟨15728644, 4, 256, 1, 0, [F.TAKE_NUMBER_value]⟩

def F.TAKE_FRAMES_value : Fld := ⟨15728648, 0, 32, .ro, 0⟩
/-- TAKE_FRAMES, spec/12 R414. -/
def R.TAKE_FRAMES : Reg := ⟨15728648, 4, 256, 1, 0, [F.TAKE_FRAMES_value]⟩

def F.TAKE_SCRAPED_value : Fld := ⟨15728652, 0, 32, .ro, 0⟩
/-- TAKE_SCRAPED, spec/12 R414. -/
def R.TAKE_SCRAPED : Reg := ⟨15728652, 4, 256, 1, 0, [F.TAKE_SCRAPED_value]⟩

def F.VCD_SC_CTRL_record : Fld := ⟨16777216, 29, 1, .rw, 0⟩
def F.VCD_SC_CTRL_live : Fld := ⟨16777216, 28, 1, .rw, 0⟩
def F.VCD_SC_CTRL_lt : Fld := ⟨16777216, 27, 1, .rw, 0⟩
def F.VCD_SC_CTRL_refresh : Fld := ⟨16777216, 26, 1, .rw, 0⟩
def F.VCD_SC_CTRL_level_idc : Fld := ⟨16777216, 18, 8, .rw, 153⟩
def F.VCD_SC_CTRL_tier : Fld := ⟨16777216, 17, 1, .rw, 0⟩
def F.VCD_SC_CTRL_profile : Fld := ⟨16777216, 15, 2, .rw, 1⟩
def F.VCD_SC_CTRL_mode : Fld := ⟨16777216, 13, 2, .rw, 1⟩
def F.VCD_SC_CTRL_cores : Fld := ⟨16777216, 9, 4, .rw, 1⟩
def F.VCD_SC_CTRL_half : Fld := ⟨16777216, 8, 1, .rw, 0⟩
def F.VCD_SC_CTRL_view : Fld := ⟨16777216, 0, 3, .rw, 0⟩
/-- VCD_SC_CTRL, spec/13 R446. -/
def R.VCD_SC_CTRL : Reg := ⟨16777216, 16, 256, 1, 0, [F.VCD_SC_CTRL_record, F.VCD_SC_CTRL_live, F.VCD_SC_CTRL_lt, F.VCD_SC_CTRL_refresh, F.VCD_SC_CTRL_level_idc, F.VCD_SC_CTRL_tier, F.VCD_SC_CTRL_profile, F.VCD_SC_CTRL_mode, F.VCD_SC_CTRL_cores, F.VCD_SC_CTRL_half, F.VCD_SC_CTRL_view]⟩

def F.VCD_SC_QP_aq : Fld := ⟨16777220, 16, 3, .rw, 3⟩
def F.VCD_SC_QP_qp_p : Fld := ⟨16777220, 8, 6, .rw, 30⟩
def F.VCD_SC_QP_qp_i : Fld := ⟨16777220, 0, 6, .rw, 28⟩
/-- VCD_SC_QP, spec/13 R458. -/
def R.VCD_SC_QP : Reg := ⟨16777220, 16, 256, 1, 0, [F.VCD_SC_QP_aq, F.VCD_SC_QP_qp_p, F.VCD_SC_QP_qp_i]⟩

def F.VCD_SC_GOP_lt_interval : Fld := ⟨16777224, 24, 8, .rw, 60⟩
def F.VCD_SC_GOP_refresh_cols : Fld := ⟨16777224, 16, 4, .rw, 1⟩
def F.VCD_SC_GOP_idr_interval : Fld := ⟨16777224, 0, 16, .rw, 0⟩
/-- VCD_SC_GOP, spec/13 R454. -/
def R.VCD_SC_GOP : Reg := ⟨16777224, 16, 256, 1, 0, [F.VCD_SC_GOP_lt_interval, F.VCD_SC_GOP_refresh_cols, F.VCD_SC_GOP_idr_interval]⟩

def F.VCD_SC_CAP_PIC_bytes : Fld := ⟨16777228, 0, 32, .rw, 0⟩
/-- VCD_SC_CAP_PIC, spec/13 R459. -/
def R.VCD_SC_CAP_PIC : Reg := ⟨16777228, 16, 256, 1, 0, [F.VCD_SC_CAP_PIC_bytes]⟩

def F.VCD_SC_CAP_WIN_bytes : Fld := ⟨16777232, 0, 32, .rw, 0⟩
/-- VCD_SC_CAP_WIN, spec/13 R459. -/
def R.VCD_SC_CAP_WIN : Reg := ⟨16777232, 16, 256, 1, 0, [F.VCD_SC_CAP_WIN_bytes]⟩

def F.VCD_SC_WIN_cq : Fld := ⟨16777236, 16, 4, .rw, 0⟩
def F.VCD_SC_WIN_len : Fld := ⟨16777236, 0, 9, .rw, 1⟩
/-- VCD_SC_WIN, spec/13 R459. -/
def R.VCD_SC_WIN : Reg := ⟨16777236, 16, 256, 1, 0, [F.VCD_SC_WIN_cq, F.VCD_SC_WIN_len]⟩

def F.VCD_SC_VUI_matrix : Fld := ⟨16777240, 16, 8, .rw, 1⟩
def F.VCD_SC_VUI_transfer : Fld := ⟨16777240, 8, 8, .rw, 1⟩
def F.VCD_SC_VUI_primaries : Fld := ⟨16777240, 0, 8, .rw, 1⟩
/-- VCD_SC_VUI, spec/13. -/
def R.VCD_SC_VUI : Reg := ⟨16777240, 16, 256, 1, 0, [F.VCD_SC_VUI_matrix, F.VCD_SC_VUI_transfer, F.VCD_SC_VUI_primaries]⟩

def F.VCD_SC_BS_BASE_LO_value : Fld := ⟨16777244, 0, 32, .rw, 0⟩
/-- VCD_SC_BS_BASE_LO, spec/13 R462. -/
def R.VCD_SC_BS_BASE_LO : Reg := ⟨16777244, 16, 256, 1, 0, [F.VCD_SC_BS_BASE_LO_value]⟩

def F.VCD_SC_BS_BASE_HI_value : Fld := ⟨16777248, 0, 32, .rw, 0⟩
/-- VCD_SC_BS_BASE_HI, spec/13 R462. -/
def R.VCD_SC_BS_BASE_HI : Reg := ⟨16777248, 16, 256, 1, 0, [F.VCD_SC_BS_BASE_HI_value]⟩

def F.VCD_SC_BS_SIZE_value : Fld := ⟨16777252, 0, 32, .rw, 0⟩
/-- VCD_SC_BS_SIZE, spec/13 R462. -/
def R.VCD_SC_BS_SIZE : Reg := ⟨16777252, 16, 256, 1, 0, [F.VCD_SC_BS_SIZE_value]⟩

def F.VCD_SC_HOST_BASE_LO_value : Fld := ⟨16777256, 0, 32, .rw, 0⟩
/-- VCD_SC_HOST_BASE_LO, spec/13 R462. -/
def R.VCD_SC_HOST_BASE_LO : Reg := ⟨16777256, 16, 256, 1, 0, [F.VCD_SC_HOST_BASE_LO_value]⟩

def F.VCD_SC_HOST_BASE_HI_value : Fld := ⟨16777260, 0, 32, .rw, 0⟩
/-- VCD_SC_HOST_BASE_HI, spec/13 R462. -/
def R.VCD_SC_HOST_BASE_HI : Reg := ⟨16777260, 16, 256, 1, 0, [F.VCD_SC_HOST_BASE_HI_value]⟩

def F.VCD_SC_HOST_SIZE_value : Fld := ⟨16777264, 0, 32, .rw, 0⟩
/-- VCD_SC_HOST_SIZE, spec/13 R462. -/
def R.VCD_SC_HOST_SIZE : Reg := ⟨16777264, 16, 256, 1, 0, [F.VCD_SC_HOST_SIZE_value]⟩

def F.VCD_SC_HOST_HEAD_value : Fld := ⟨16777268, 0, 32, .rw, 0⟩
/-- VCD_SC_HOST_HEAD, spec/13 R462. -/
def R.VCD_SC_HOST_HEAD : Reg := ⟨16777268, 16, 256, 1, 0, [F.VCD_SC_HOST_HEAD_value]⟩

def F.VCD_SC_HOST_TAIL_value : Fld := ⟨16777272, 0, 32, .ro, 0⟩
/-- VCD_SC_HOST_TAIL, spec/13 R462. -/
def R.VCD_SC_HOST_TAIL : Reg := ⟨16777272, 16, 256, 1, 0, [F.VCD_SC_HOST_TAIL_value]⟩

def F.VCD_SC_COMMIT_pending : Fld := ⟨16777276, 1, 1, .ro, 0⟩
def F.VCD_SC_COMMIT_go : Fld := ⟨16777276, 0, 1, .wo, 0⟩
/-- VCD_SC_COMMIT, spec/13 R478. -/
def R.VCD_SC_COMMIT : Reg := ⟨16777276, 16, 256, 1, 0, [F.VCD_SC_COMMIT_pending, F.VCD_SC_COMMIT_go]⟩

def F.VCD_SC_STATUS_sweep : Fld := ⟨16777280, 24, 8, .ro, 0⟩
def F.VCD_SC_STATUS_buffers : Fld := ⟨16777280, 8, 4, .ro, 0⟩
def F.VCD_SC_STATUS_state : Fld := ⟨16777280, 0, 2, .ro, 0⟩
/-- VCD_SC_STATUS, spec/13 R478. -/
def R.VCD_SC_STATUS : Reg := ⟨16777280, 16, 256, 1, 0, [F.VCD_SC_STATUS_sweep, F.VCD_SC_STATUS_buffers, F.VCD_SC_STATUS_state]⟩

def F.VCD_SC_FLAGS_sweep_repeat : Fld := ⟨16777284, 5, 1, .w1c, 0⟩
def F.VCD_SC_FLAGS_stall : Fld := ⟨16777284, 4, 1, .w1c, 0⟩
def F.VCD_SC_FLAGS_floor : Fld := ⟨16777284, 3, 1, .w1c, 0⟩
def F.VCD_SC_FLAGS_skip : Fld := ⟨16777284, 2, 1, .w1c, 0⟩
def F.VCD_SC_FLAGS_cfg_bad : Fld := ⟨16777284, 1, 1, .w1c, 0⟩
def F.VCD_SC_FLAGS_cfg_refused : Fld := ⟨16777284, 0, 1, .w1c, 0⟩
/-- VCD_SC_FLAGS, spec/13 R478. -/
def R.VCD_SC_FLAGS : Reg := ⟨16777284, 16, 256, 1, 0, [F.VCD_SC_FLAGS_sweep_repeat, F.VCD_SC_FLAGS_stall, F.VCD_SC_FLAGS_floor, F.VCD_SC_FLAGS_skip, F.VCD_SC_FLAGS_cfg_bad, F.VCD_SC_FLAGS_cfg_refused]⟩

def F.VCD_SC_CNT_coded : Fld := ⟨16777288, 16, 16, .rc, 0⟩
def F.VCD_SC_CNT_skipped : Fld := ⟨16777288, 8, 8, .rc, 0⟩
def F.VCD_SC_CNT_floor : Fld := ⟨16777288, 0, 8, .rc, 0⟩
/-- VCD_SC_CNT, spec/13. -/
def R.VCD_SC_CNT : Reg := ⟨16777288, 16, 256, 1, 0, [F.VCD_SC_CNT_coded, F.VCD_SC_CNT_skipped, F.VCD_SC_CNT_floor]⟩

def F.VCD_SC_CNT2_stall : Fld := ⟨16777292, 16, 16, .rc, 0⟩
def F.VCD_SC_CNT2_sweep_repeat : Fld := ⟨16777292, 8, 8, .rc, 0⟩
def F.VCD_SC_CNT2_scraped : Fld := ⟨16777292, 0, 8, .rc, 0⟩
/-- VCD_SC_CNT2, spec/13. -/
def R.VCD_SC_CNT2 : Reg := ⟨16777292, 16, 256, 1, 0, [F.VCD_SC_CNT2_stall, F.VCD_SC_CNT2_sweep_repeat, F.VCD_SC_CNT2_scraped]⟩

def F.VCD_POOL_BASE_LO_value : Fld := ⟨16842752, 0, 32, .rw, 0⟩
/-- VCD_POOL_BASE_LO, spec/13 R451. -/
def R.VCD_POOL_BASE_LO : Reg := ⟨16842752, 2, 256, 1, 0, [F.VCD_POOL_BASE_LO_value]⟩

def F.VCD_POOL_BASE_HI_value : Fld := ⟨16842756, 0, 32, .rw, 0⟩
/-- VCD_POOL_BASE_HI, spec/13 R451. -/
def R.VCD_POOL_BASE_HI : Reg := ⟨16842756, 2, 256, 1, 0, [F.VCD_POOL_BASE_HI_value]⟩

def F.VCD_POOL_SIZE_value : Fld := ⟨16842760, 0, 32, .rw, 0⟩
/-- VCD_POOL_SIZE, spec/13 R451. -/
def R.VCD_POOL_SIZE : Reg := ⟨16842760, 2, 256, 1, 0, [F.VCD_POOL_SIZE_value]⟩

def F.VCD_POOL_STATUS_held : Fld := ⟨16842764, 24, 8, .ro, 0⟩
def F.VCD_POOL_STATUS_run_4k : Fld := ⟨16842764, 0, 24, .ro, 0⟩
/-- VCD_POOL_STATUS, spec/13 R451. -/
def R.VCD_POOL_STATUS : Reg := ⟨16842764, 2, 256, 1, 0, [F.VCD_POOL_STATUS_held, F.VCD_POOL_STATUS_run_4k]⟩

def F.VCD_RC_STATUS_fault : Fld := ⟨16908288, 4, 4, .ro, 0⟩
def F.VCD_RC_STATUS_active : Fld := ⟨16908288, 0, 4, .ro, 0⟩
/-- VCD_RC_STATUS, spec/13 R471. -/
def R.VCD_RC_STATUS : Reg := ⟨16908288, 2, 256, 1, 0, [F.VCD_RC_STATUS_fault, F.VCD_RC_STATUS_active]⟩

def F.VCD_RC_FAULT0_valid : Fld := ⟨16908292, 31, 1, .ro, 0⟩
def F.VCD_RC_FAULT0_context : Fld := ⟨16908292, 16, 3, .ro, 0⟩
def F.VCD_RC_FAULT0_code : Fld := ⟨16908292, 0, 16, .ro, 0⟩
/-- VCD_RC_FAULT0, spec/13 R477. -/
def R.VCD_RC_FAULT0 : Reg := ⟨16908292, 2, 256, 1, 0, [F.VCD_RC_FAULT0_valid, F.VCD_RC_FAULT0_context, F.VCD_RC_FAULT0_code]⟩

def F.VCD_RC_FAULT1_offset : Fld := ⟨16908296, 0, 32, .ro, 0⟩
/-- VCD_RC_FAULT1, spec/13 R477. -/
def R.VCD_RC_FAULT1 : Reg := ⟨16908296, 2, 256, 1, 0, [F.VCD_RC_FAULT1_offset]⟩

def F.VCD_RC_FAULT2_ctu : Fld := ⟨16908300, 0, 32, .ro, 0⟩
/-- VCD_RC_FAULT2, spec/13 R477. -/
def R.VCD_RC_FAULT2 : Reg := ⟨16908300, 2, 256, 1, 0, [F.VCD_RC_FAULT2_ctu]⟩

def F.VCD_RC_FAULT3_poc : Fld := ⟨16908304, 0, 32, .ro, 0⟩
/-- VCD_RC_FAULT3, spec/13 R477. -/
def R.VCD_RC_FAULT3 : Reg := ⟨16908304, 2, 256, 1, 0, [F.VCD_RC_FAULT3_poc]⟩

def F.RAS_OUT_CTRL_primer : Fld := ⟨17825792, 12, 4, .rw, 4⟩
def F.RAS_OUT_CTRL_dry_only : Fld := ⟨17825792, 11, 1, .rw, 0⟩
def F.RAS_OUT_CTRL_lock : Fld := ⟨17825792, 9, 2, .rw, 0⟩
def F.RAS_OUT_CTRL_source : Fld := ⟨17825792, 8, 1, .rw, 0⟩
def F.RAS_OUT_CTRL_view : Fld := ⟨17825792, 4, 3, .rw, 0⟩
def F.RAS_OUT_CTRL_quad : Fld := ⟨17825792, 1, 1, .rw, 0⟩
def F.RAS_OUT_CTRL_enable : Fld := ⟨17825792, 0, 1, .rw, 0⟩
/-- RAS_OUT_CTRL, spec/14 R501. -/
def R.RAS_OUT_CTRL : Reg := ⟨17825792, 6, 4096, 1, 0, [F.RAS_OUT_CTRL_primer, F.RAS_OUT_CTRL_dry_only, F.RAS_OUT_CTRL_lock, F.RAS_OUT_CTRL_source, F.RAS_OUT_CTRL_view, F.RAS_OUT_CTRL_quad, F.RAS_OUT_CTRL_enable]⟩

def F.RAS_OUT_FMT_rate : Fld := ⟨17825796, 4, 4, .rw, 6⟩
def F.RAS_OUT_FMT_format : Fld := ⟨17825796, 0, 4, .rw, 1⟩
/-- RAS_OUT_FMT, spec/14 R481. -/
def R.RAS_OUT_FMT : Reg := ⟨17825796, 6, 4096, 1, 0, [F.RAS_OUT_FMT_rate, F.RAS_OUT_FMT_format]⟩

def F.RAS_OUT_POS_y : Fld := ⟨17825800, 16, 16, .rw, 0⟩
def F.RAS_OUT_POS_x : Fld := ⟨17825800, 0, 16, .rw, 0⟩
/-- RAS_OUT_POS, spec/14 R488. -/
def R.RAS_OUT_POS : Reg := ⟨17825800, 6, 4096, 1, 0, [F.RAS_OUT_POS_y, F.RAS_OUT_POS_x]⟩

def F.RAS_OUT_LOCK_OFS_lines : Fld := ⟨17825804, 16, 16, .rw, 0⟩
def F.RAS_OUT_LOCK_OFS_samples : Fld := ⟨17825804, 0, 16, .rw, 0⟩
/-- RAS_OUT_LOCK_OFS, spec/14 R483. -/
def R.RAS_OUT_LOCK_OFS : Reg := ⟨17825804, 6, 4096, 1, 0, [F.RAS_OUT_LOCK_OFS_lines, F.RAS_OUT_LOCK_OFS_samples]⟩

def F.RAS_OUT_COMMIT_pending : Fld := ⟨17825808, 1, 1, .ro, 0⟩
def F.RAS_OUT_COMMIT_go : Fld := ⟨17825808, 0, 1, .wo, 0⟩
/-- RAS_OUT_COMMIT, spec/14 R501. -/
def R.RAS_OUT_COMMIT : Reg := ⟨17825808, 6, 4096, 1, 0, [F.RAS_OUT_COMMIT_pending, F.RAS_OUT_COMMIT_go]⟩

def F.RAS_OUT_STATUS_phase_err : Fld := ⟨17825812, 16, 16, .ro, 0⟩
def F.RAS_OUT_STATUS_wet : Fld := ⟨17825812, 8, 1, .ro, 0⟩
def F.RAS_OUT_STATUS_shed : Fld := ⟨17825812, 7, 1, .ro, 0⟩
def F.RAS_OUT_STATUS_dsi_mode : Fld := ⟨17825812, 5, 2, .ro, 0⟩
def F.RAS_OUT_STATUS_lock_state : Fld := ⟨17825812, 0, 3, .ro, 0⟩
/-- RAS_OUT_STATUS, spec/14 R484. -/
def R.RAS_OUT_STATUS : Reg := ⟨17825812, 6, 4096, 1, 0, [F.RAS_OUT_STATUS_phase_err, F.RAS_OUT_STATUS_wet, F.RAS_OUT_STATUS_shed, F.RAS_OUT_STATUS_dsi_mode, F.RAS_OUT_STATUS_lock_state]⟩

def F.RAS_OUT_FLAGS_cut : Fld := ⟨17825816, 5, 1, .w1c, 0⟩
def F.RAS_OUT_FLAGS_rephase : Fld := ⟨17825816, 4, 1, .w1c, 0⟩
def F.RAS_OUT_FLAGS_lock_lost : Fld := ⟨17825816, 3, 1, .w1c, 0⟩
def F.RAS_OUT_FLAGS_underflow : Fld := ⟨17825816, 2, 1, .w1c, 0⟩
def F.RAS_OUT_FLAGS_cfg_bad : Fld := ⟨17825816, 1, 1, .w1c, 0⟩
def F.RAS_OUT_FLAGS_cfg_refused : Fld := ⟨17825816, 0, 1, .w1c, 0⟩
/-- RAS_OUT_FLAGS, spec/14 R501. -/
def R.RAS_OUT_FLAGS : Reg := ⟨17825816, 6, 4096, 1, 0, [F.RAS_OUT_FLAGS_cut, F.RAS_OUT_FLAGS_rephase, F.RAS_OUT_FLAGS_lock_lost, F.RAS_OUT_FLAGS_underflow, F.RAS_OUT_FLAGS_cfg_bad, F.RAS_OUT_FLAGS_cfg_refused]⟩

def F.RAS_OUT_CNT_underflow : Fld := ⟨17825820, 16, 16, .rc, 0⟩
def F.RAS_OUT_CNT_repeat : Fld := ⟨17825820, 8, 8, .rc, 0⟩
def F.RAS_OUT_CNT_skip : Fld := ⟨17825820, 0, 8, .rc, 0⟩
/-- RAS_OUT_CNT, spec/14. -/
def R.RAS_OUT_CNT : Reg := ⟨17825820, 6, 4096, 1, 0, [F.RAS_OUT_CNT_underflow, F.RAS_OUT_CNT_repeat, F.RAS_OUT_CNT_skip]⟩

def F.RAS_OUT_CNT2_cut : Fld := ⟨17825824, 16, 16, .rc, 0⟩
def F.RAS_OUT_CNT2_rephase : Fld := ⟨17825824, 8, 8, .rc, 0⟩
def F.RAS_OUT_CNT2_lock_lost : Fld := ⟨17825824, 0, 8, .rc, 0⟩
/-- RAS_OUT_CNT2, spec/14. -/
def R.RAS_OUT_CNT2 : Reg := ⟨17825824, 6, 4096, 1, 0, [F.RAS_OUT_CNT2_cut, F.RAS_OUT_CNT2_rephase, F.RAS_OUT_CNT2_lock_lost]⟩

def F.RAS_SDI_ANC_wet_pkt : Fld := ⟨17826048, 15, 1, .rw, 1⟩
def F.RAS_SDI_ANC_atc : Fld := ⟨17826048, 14, 1, .rw, 1⟩
def F.RAS_SDI_ANC_line : Fld := ⟨17826048, 0, 6, .rw, 13⟩
/-- RAS_SDI_ANC, spec/14 R496. -/
def R.RAS_SDI_ANC : Reg := ⟨17826048, 4, 4096, 1, 0, [F.RAS_SDI_ANC_wet_pkt, F.RAS_SDI_ANC_atc, F.RAS_SDI_ANC_line]⟩

def F.RAS_DSI_CFG_lane_mbps : Fld := ⟨17842432, 16, 12, .rw, 1500⟩
def F.RAS_DSI_CFG_lanes : Fld := ⟨17842432, 8, 2, .rw, 3⟩
def F.RAS_DSI_CFG_clk_cont : Fld := ⟨17842432, 1, 1, .rw, 1⟩
def F.RAS_DSI_CFG_bpp : Fld := ⟨17842432, 0, 1, .rw, 0⟩
/-- RAS_DSI_CFG, spec/14 R497. -/
def R.RAS_DSI_CFG : Reg := ⟨17842432, 2, 4096, 1, 0, [F.RAS_DSI_CFG_lane_mbps, F.RAS_DSI_CFG_lanes, F.RAS_DSI_CFG_clk_cont, F.RAS_DSI_CFG_bpp]⟩

def F.RAS_DSI_HTIM0_active : Fld := ⟨17842436, 16, 16, .rw, 0⟩
def F.RAS_DSI_HTIM0_total : Fld := ⟨17842436, 0, 16, .rw, 0⟩
/-- RAS_DSI_HTIM0, spec/14 R497. -/
def R.RAS_DSI_HTIM0 : Reg := ⟨17842436, 2, 4096, 1, 0, [F.RAS_DSI_HTIM0_active, F.RAS_DSI_HTIM0_total]⟩

def F.RAS_DSI_HTIM1_sync : Fld := ⟨17842440, 16, 16, .rw, 0⟩
def F.RAS_DSI_HTIM1_back : Fld := ⟨17842440, 0, 16, .rw, 0⟩
/-- RAS_DSI_HTIM1, spec/14 R497. -/
def R.RAS_DSI_HTIM1 : Reg := ⟨17842440, 2, 4096, 1, 0, [F.RAS_DSI_HTIM1_sync, F.RAS_DSI_HTIM1_back]⟩

def F.RAS_DSI_VTIM0_active : Fld := ⟨17842444, 16, 16, .rw, 0⟩
def F.RAS_DSI_VTIM0_total : Fld := ⟨17842444, 0, 16, .rw, 0⟩
/-- RAS_DSI_VTIM0, spec/14 R497. -/
def R.RAS_DSI_VTIM0 : Reg := ⟨17842444, 2, 4096, 1, 0, [F.RAS_DSI_VTIM0_active, F.RAS_DSI_VTIM0_total]⟩

def F.RAS_DSI_VTIM1_sync : Fld := ⟨17842448, 16, 16, .rw, 0⟩
def F.RAS_DSI_VTIM1_back : Fld := ⟨17842448, 0, 16, .rw, 0⟩
/-- RAS_DSI_VTIM1, spec/14 R497. -/
def R.RAS_DSI_VTIM1 : Reg := ⟨17842448, 2, 4096, 1, 0, [F.RAS_DSI_VTIM1_sync, F.RAS_DSI_VTIM1_back]⟩

def F.AUD_MASTER_CFG_vrate : Fld := ⟨18874368, 4, 4, .rw, 6⟩
def F.AUD_MASTER_CFG_lock : Fld := ⟨18874368, 2, 2, .rw, 1⟩
def F.AUD_MASTER_CFG_rate : Fld := ⟨18874368, 0, 1, .rw, 0⟩
/-- AUD_MASTER_CFG, spec/15 R504. -/
def R.AUD_MASTER_CFG : Reg := ⟨18874368, 1, 0, 1, 0, [F.AUD_MASTER_CFG_vrate, F.AUD_MASTER_CFG_lock, F.AUD_MASTER_CFG_rate]⟩

def F.AUD_MASTER_STATUS_phase_err : Fld := ⟨18874372, 16, 16, .ro, 0⟩
def F.AUD_MASTER_STATUS_state : Fld := ⟨18874372, 0, 3, .ro, 0⟩
/-- AUD_MASTER_STATUS, spec/15 R505. -/
def R.AUD_MASTER_STATUS : Reg := ⟨18874372, 1, 0, 1, 0, [F.AUD_MASTER_STATUS_phase_err, F.AUD_MASTER_STATUS_state]⟩

def F.AUD_REC_CTRL_run : Fld := ⟨18874376, 0, 1, .rw, 0⟩
/-- AUD_REC_CTRL, spec/15 R521. -/
def R.AUD_REC_CTRL : Reg := ⟨18874376, 1, 0, 1, 0, [F.AUD_REC_CTRL_run]⟩

def F.AUD_REC_CFG_cq : Fld := ⟨18874380, 24, 8, .rw, 0⟩
def F.AUD_REC_CFG_channels : Fld := ⟨18874380, 0, 7, .rw, 64⟩
/-- AUD_REC_CFG, spec/15 R521. -/
def R.AUD_REC_CFG : Reg := ⟨18874380, 1, 0, 1, 0, [F.AUD_REC_CFG_cq, F.AUD_REC_CFG_channels]⟩

def F.AUD_RING_BASE_LO_value : Fld := ⟨18874384, 0, 32, .rw, 0⟩
/-- AUD_RING_BASE_LO, spec/15 R520. -/
def R.AUD_RING_BASE_LO : Reg := ⟨18874384, 1, 0, 1, 0, [F.AUD_RING_BASE_LO_value]⟩

def F.AUD_RING_BASE_HI_value : Fld := ⟨18874388, 0, 32, .rw, 0⟩
/-- AUD_RING_BASE_HI, spec/15 R520. -/
def R.AUD_RING_BASE_HI : Reg := ⟨18874388, 1, 0, 1, 0, [F.AUD_RING_BASE_HI_value]⟩

def F.AUD_RING_BLOCKS_value : Fld := ⟨18874392, 0, 32, .rw, 2⟩
/-- AUD_RING_BLOCKS, spec/15 R520. -/
def R.AUD_RING_BLOCKS : Reg := ⟨18874392, 1, 0, 1, 0, [F.AUD_RING_BLOCKS_value]⟩

def F.AUD_RING_HEAD_value : Fld := ⟨18874396, 0, 32, .rw, 0⟩
/-- AUD_RING_HEAD, spec/15 R520. -/
def R.AUD_RING_HEAD : Reg := ⟨18874396, 1, 0, 1, 0, [F.AUD_RING_HEAD_value]⟩

def F.AUD_RING_SERIAL_value : Fld := ⟨18874400, 0, 32, .ro, 0⟩
/-- AUD_RING_SERIAL, spec/15 R520. -/
def R.AUD_RING_SERIAL : Reg := ⟨18874400, 1, 0, 1, 0, [F.AUD_RING_SERIAL_value]⟩

def F.AUD_FLAGS_zc_timeout : Fld := ⟨18874404, 3, 1, .w1c, 0⟩
def F.AUD_FLAGS_master_lost : Fld := ⟨18874404, 2, 1, .w1c, 0⟩
def F.AUD_FLAGS_ring_drop : Fld := ⟨18874404, 1, 1, .w1c, 0⟩
def F.AUD_FLAGS_cfg_refused : Fld := ⟨18874404, 0, 1, .w1c, 0⟩
/-- AUD_FLAGS, spec/15 R523. -/
def R.AUD_FLAGS : Reg := ⟨18874404, 1, 0, 1, 0, [F.AUD_FLAGS_zc_timeout, F.AUD_FLAGS_master_lost, F.AUD_FLAGS_ring_drop, F.AUD_FLAGS_cfg_refused]⟩

def F.AUD_CNT_ring_drop : Fld := ⟨18874408, 16, 16, .rc, 0⟩
def F.AUD_CNT_zc_timeout : Fld := ⟨18874408, 8, 8, .rc, 0⟩
def F.AUD_CNT_master_lost : Fld := ⟨18874408, 0, 8, .rc, 0⟩
/-- AUD_CNT, spec/15 R523. -/
def R.AUD_CNT : Reg := ⟨18874408, 1, 0, 1, 0, [F.AUD_CNT_ring_drop, F.AUD_CNT_zc_timeout, F.AUD_CNT_master_lost]⟩

def F.AUD_TDM_CFG_mult : Fld := ⟨18874624, 16, 1, .rw, 0⟩
def F.AUD_TDM_CFG_master : Fld := ⟨18874624, 15, 1, .rw, 0⟩
def F.AUD_TDM_CFG_delay : Fld := ⟨18874624, 14, 1, .rw, 1⟩
def F.AUD_TDM_CFG_edge : Fld := ⟨18874624, 13, 1, .rw, 0⟩
def F.AUD_TDM_CFG_fs_pol : Fld := ⟨18874624, 12, 1, .rw, 0⟩
def F.AUD_TDM_CFG_word : Fld := ⟨18874624, 10, 2, .rw, 1⟩
def F.AUD_TDM_CFG_slot_bits : Fld := ⟨18874624, 8, 2, .rw, 2⟩
def F.AUD_TDM_CFG_slots : Fld := ⟨18874624, 4, 4, .rw, 7⟩
def F.AUD_TDM_CFG_format : Fld := ⟨18874624, 0, 2, .rw, 0⟩
/-- AUD_TDM_CFG, spec/15 R507. -/
def R.AUD_TDM_CFG : Reg := ⟨18874624, 4, 64, 1, 0, [F.AUD_TDM_CFG_mult, F.AUD_TDM_CFG_master, F.AUD_TDM_CFG_delay, F.AUD_TDM_CFG_edge, F.AUD_TDM_CFG_fs_pol, F.AUD_TDM_CFG_word, F.AUD_TDM_CFG_slot_bits, F.AUD_TDM_CFG_slots, F.AUD_TDM_CFG_format]⟩

def F.AUD_TPORT_MAP_span : Fld := ⟨18874628, 8, 6, .rw, 0⟩
def F.AUD_TPORT_MAP_base : Fld := ⟨18874628, 0, 6, .rw, 0⟩
/-- AUD_TPORT_MAP, spec/15 R513. -/
def R.AUD_TPORT_MAP : Reg := ⟨18874628, 4, 64, 1, 0, [F.AUD_TPORT_MAP_span, F.AUD_TPORT_MAP_base]⟩

def F.AUD_TPORT_MASK_mask : Fld := ⟨18874632, 16, 16, .ro, 0⟩
def F.AUD_TPORT_MASK_mask_next : Fld := ⟨18874632, 0, 16, .rw, 0⟩
/-- AUD_TPORT_MASK, spec/15 R514. -/
def R.AUD_TPORT_MASK : Reg := ⟨18874632, 4, 64, 1, 0, [F.AUD_TPORT_MASK_mask, F.AUD_TPORT_MASK_mask_next]⟩

def F.AUD_TPORT_CTRL_arm : Fld := ⟨18874636, 1, 1, .wo, 0⟩
def F.AUD_TPORT_CTRL_enable : Fld := ⟨18874636, 0, 1, .rw, 0⟩
/-- AUD_TPORT_CTRL, spec/15 R514. -/
def R.AUD_TPORT_CTRL : Reg := ⟨18874636, 4, 64, 1, 0, [F.AUD_TPORT_CTRL_arm, F.AUD_TPORT_CTRL_enable]⟩

def F.AUD_TPORT_STATUS_state : Fld := ⟨18874640, 0, 4, .ro, 0⟩
/-- AUD_TPORT_STATUS, spec/15 R506. -/
def R.AUD_TPORT_STATUS : Reg := ⟨18874640, 4, 64, 1, 0, [F.AUD_TPORT_STATUS_state]⟩

def F.AUD_TPORT_CNT_underrun : Fld := ⟨18874648, 24, 8, .rc, 0⟩
def F.AUD_TPORT_CNT_overrun : Fld := ⟨18874648, 16, 8, .rc, 0⟩
def F.AUD_TPORT_CNT_frame_err : Fld := ⟨18874648, 8, 8, .rc, 0⟩
def F.AUD_TPORT_CNT_unlock : Fld := ⟨18874648, 0, 8, .rc, 0⟩
/-- AUD_TPORT_CNT, spec/15 R512. -/
def R.AUD_TPORT_CNT : Reg := ⟨18874648, 4, 64, 1, 0, [F.AUD_TPORT_CNT_underrun, F.AUD_TPORT_CNT_overrun, F.AUD_TPORT_CNT_frame_err, F.AUD_TPORT_CNT_unlock]⟩

def F.AUD_TPORT_FLAGS_arm_pending : Fld := ⟨18874652, 7, 1, .ro, 0⟩
def F.AUD_TPORT_FLAGS_cs_crc : Fld := ⟨18874652, 6, 1, .w1c, 0⟩
def F.AUD_TPORT_FLAGS_cs_change : Fld := ⟨18874652, 5, 1, .w1c, 0⟩
def F.AUD_TPORT_FLAGS_nonaudio : Fld := ⟨18874652, 4, 1, .w1c, 0⟩
def F.AUD_TPORT_FLAGS_frame_err : Fld := ⟨18874652, 3, 1, .w1c, 0⟩
def F.AUD_TPORT_FLAGS_unlock : Fld := ⟨18874652, 2, 1, .w1c, 0⟩
def F.AUD_TPORT_FLAGS_overrun : Fld := ⟨18874652, 1, 1, .w1c, 0⟩
def F.AUD_TPORT_FLAGS_underrun : Fld := ⟨18874652, 0, 1, .w1c, 0⟩
/-- AUD_TPORT_FLAGS, spec/15 R512. -/
def R.AUD_TPORT_FLAGS : Reg := ⟨18874652, 4, 64, 1, 0, [F.AUD_TPORT_FLAGS_arm_pending, F.AUD_TPORT_FLAGS_cs_crc, F.AUD_TPORT_FLAGS_cs_change, F.AUD_TPORT_FLAGS_nonaudio, F.AUD_TPORT_FLAGS_frame_err, F.AUD_TPORT_FLAGS_unlock, F.AUD_TPORT_FLAGS_overrun, F.AUD_TPORT_FLAGS_underrun]⟩

def F.AUD_APORT_MAP_span : Fld := ⟨18875140, 8, 6, .rw, 0⟩
def F.AUD_APORT_MAP_base : Fld := ⟨18875140, 0, 6, .rw, 0⟩
/-- AUD_APORT_MAP, spec/15 R513. -/
def R.AUD_APORT_MAP : Reg := ⟨18875140, 8, 128, 1, 0, [F.AUD_APORT_MAP_span, F.AUD_APORT_MAP_base]⟩

def F.AUD_APORT_MASK_mask : Fld := ⟨18875144, 16, 2, .ro, 0⟩
def F.AUD_APORT_MASK_mask_next : Fld := ⟨18875144, 0, 2, .rw, 0⟩
/-- AUD_APORT_MASK, spec/15 R514. -/
def R.AUD_APORT_MASK : Reg := ⟨18875144, 8, 128, 1, 0, [F.AUD_APORT_MASK_mask, F.AUD_APORT_MASK_mask_next]⟩

def F.AUD_APORT_CTRL_arm : Fld := ⟨18875148, 1, 1, .wo, 0⟩
def F.AUD_APORT_CTRL_enable : Fld := ⟨18875148, 0, 1, .rw, 0⟩
/-- AUD_APORT_CTRL, spec/15 R514. -/
def R.AUD_APORT_CTRL : Reg := ⟨18875148, 8, 128, 1, 0, [F.AUD_APORT_CTRL_arm, F.AUD_APORT_CTRL_enable]⟩

def F.AUD_APORT_STATUS_state : Fld := ⟨18875152, 0, 4, .ro, 0⟩
/-- AUD_APORT_STATUS, spec/15 R506. -/
def R.AUD_APORT_STATUS : Reg := ⟨18875152, 8, 128, 1, 0, [F.AUD_APORT_STATUS_state]⟩

def F.AUD_APORT_CNT_underrun : Fld := ⟨18875160, 24, 8, .rc, 0⟩
def F.AUD_APORT_CNT_overrun : Fld := ⟨18875160, 16, 8, .rc, 0⟩
def F.AUD_APORT_CNT_frame_err : Fld := ⟨18875160, 8, 8, .rc, 0⟩
def F.AUD_APORT_CNT_cs_crc : Fld := ⟨18875160, 4, 4, .rc, 0⟩
def F.AUD_APORT_CNT_unlock : Fld := ⟨18875160, 0, 4, .rc, 0⟩
/-- AUD_APORT_CNT, spec/15 R512. -/
def R.AUD_APORT_CNT : Reg := ⟨18875160, 8, 128, 1, 0, [F.AUD_APORT_CNT_underrun, F.AUD_APORT_CNT_overrun, F.AUD_APORT_CNT_frame_err, F.AUD_APORT_CNT_cs_crc, F.AUD_APORT_CNT_unlock]⟩

def F.AUD_APORT_FLAGS_arm_pending : Fld := ⟨18875164, 7, 1, .ro, 0⟩
def F.AUD_APORT_FLAGS_cs_crc : Fld := ⟨18875164, 6, 1, .w1c, 0⟩
def F.AUD_APORT_FLAGS_cs_change : Fld := ⟨18875164, 5, 1, .w1c, 0⟩
def F.AUD_APORT_FLAGS_nonaudio : Fld := ⟨18875164, 4, 1, .w1c, 0⟩
def F.AUD_APORT_FLAGS_frame_err : Fld := ⟨18875164, 3, 1, .w1c, 0⟩
def F.AUD_APORT_FLAGS_unlock : Fld := ⟨18875164, 2, 1, .w1c, 0⟩
def F.AUD_APORT_FLAGS_overrun : Fld := ⟨18875164, 1, 1, .w1c, 0⟩
def F.AUD_APORT_FLAGS_underrun : Fld := ⟨18875164, 0, 1, .w1c, 0⟩
/-- AUD_APORT_FLAGS, spec/15 R512. -/
def R.AUD_APORT_FLAGS : Reg := ⟨18875164, 8, 128, 1, 0, [F.AUD_APORT_FLAGS_arm_pending, F.AUD_APORT_FLAGS_cs_crc, F.AUD_APORT_FLAGS_cs_change, F.AUD_APORT_FLAGS_nonaudio, F.AUD_APORT_FLAGS_frame_err, F.AUD_APORT_FLAGS_unlock, F.AUD_APORT_FLAGS_overrun, F.AUD_APORT_FLAGS_underrun]⟩

def F.AUD_TPORT_RATIO_ratio : Fld := ⟨18874644, 0, 32, .ro, 0⟩
/-- AUD_TPORT_RATIO, spec/15 R509. -/
def R.AUD_TPORT_RATIO : Reg := ⟨18874644, 4, 64, 1, 0, [F.AUD_TPORT_RATIO_ratio]⟩

def F.AUD_AES_CS_A_value : Fld := ⟨18875200, 0, 32, .ro, 0⟩
/-- AUD_AES_CS_A, spec/15 R515. -/
def R.AUD_AES_CS_A : Reg := ⟨18875200, 8, 128, 6, 4, [F.AUD_AES_CS_A_value]⟩

def F.AUD_AES_CS_B_value : Fld := ⟨18875232, 0, 32, .ro, 0⟩
/-- AUD_AES_CS_B, spec/15 R515. -/
def R.AUD_AES_CS_B : Reg := ⟨18875232, 8, 128, 6, 4, [F.AUD_AES_CS_B_value]⟩

def F.AUD_AES_NA_CFG_hold : Fld := ⟨18875168, 0, 16, .rw, 8192⟩
/-- AUD_AES_NA_CFG, spec/15 R516. -/
def R.AUD_AES_NA_CFG : Reg := ⟨18875168, 2, 128, 1, 0, [F.AUD_AES_NA_CFG_hold]⟩

def F.AUD_AES_GRP_CFG_mult : Fld := ⟨18876160, 4, 1, .rw, 0⟩
def F.AUD_AES_GRP_CFG_ref : Fld := ⟨18876160, 0, 2, .rw, 0⟩
/-- AUD_AES_GRP_CFG, spec/15 R508. -/
def R.AUD_AES_GRP_CFG : Reg := ⟨18876160, 2, 16, 1, 0, [F.AUD_AES_GRP_CFG_mult, F.AUD_AES_GRP_CFG_ref]⟩

def F.AUD_GRP_RATIO_ratio : Fld := ⟨18876164, 0, 32, .ro, 0⟩
/-- AUD_GRP_RATIO, spec/15 R509. -/
def R.AUD_GRP_RATIO : Reg := ⟨18876164, 2, 16, 1, 0, [F.AUD_GRP_RATIO_ratio]⟩

def F.AUD_OUT_CTRL_enable : Fld := ⟨18876416, 0, 1, .rw, 0⟩
/-- AUD_OUT_CTRL, spec/15 R523. -/
def R.AUD_OUT_CTRL : Reg := ⟨18876416, 2, 64, 1, 0, [F.AUD_OUT_CTRL_enable]⟩

def F.AUD_OUT_MAP_on3 : Fld := ⟨18876432, 31, 1, .rw, 0⟩
def F.AUD_OUT_MAP_ch3 : Fld := ⟨18876432, 24, 6, .rw, 0⟩
def F.AUD_OUT_MAP_on2 : Fld := ⟨18876432, 23, 1, .rw, 0⟩
def F.AUD_OUT_MAP_ch2 : Fld := ⟨18876432, 16, 6, .rw, 0⟩
def F.AUD_OUT_MAP_on1 : Fld := ⟨18876432, 15, 1, .rw, 0⟩
def F.AUD_OUT_MAP_ch1 : Fld := ⟨18876432, 8, 6, .rw, 0⟩
def F.AUD_OUT_MAP_on0 : Fld := ⟨18876432, 7, 1, .rw, 0⟩
def F.AUD_OUT_MAP_ch0 : Fld := ⟨18876432, 0, 6, .rw, 0⟩
/-- AUD_OUT_MAP, spec/15 R523. -/
def R.AUD_OUT_MAP : Reg := ⟨18876432, 2, 64, 4, 4, [F.AUD_OUT_MAP_on3, F.AUD_OUT_MAP_ch3, F.AUD_OUT_MAP_on2, F.AUD_OUT_MAP_ch2, F.AUD_OUT_MAP_on1, F.AUD_OUT_MAP_ch1, F.AUD_OUT_MAP_on0, F.AUD_OUT_MAP_ch0]⟩

def F.NET_PORT_CFG_fec : Fld := ⟨19922944, 1, 2, .rw, 1⟩
def F.NET_PORT_CFG_enable : Fld := ⟨19922944, 0, 1, .rw, 0⟩
/-- NET_PORT_CFG, spec/16 R531. -/
def R.NET_PORT_CFG : Reg := ⟨19922944, 2, 64, 1, 0, [F.NET_PORT_CFG_fec, F.NET_PORT_CFG_enable]⟩

def F.NET_PORT_MAC_LO_value : Fld := ⟨19922948, 0, 32, .rw, 0⟩
/-- NET_PORT_MAC_LO, spec/16 R531. -/
def R.NET_PORT_MAC_LO : Reg := ⟨19922948, 2, 64, 1, 0, [F.NET_PORT_MAC_LO_value]⟩

def F.NET_PORT_MAC_HI_value : Fld := ⟨19922952, 0, 16, .rw, 0⟩
/-- NET_PORT_MAC_HI, spec/16 R531. -/
def R.NET_PORT_MAC_HI : Reg := ⟨19922952, 2, 64, 1, 0, [F.NET_PORT_MAC_HI_value]⟩

def F.NET_PORT_IP_value : Fld := ⟨19922956, 0, 32, .rw, 0⟩
/-- NET_PORT_IP, spec/16 R531. -/
def R.NET_PORT_IP : Reg := ⟨19922956, 2, 64, 1, 0, [F.NET_PORT_IP_value]⟩

def F.NET_TS_CORR_rx : Fld := ⟨19922960, 16, 16, .rw, Config.tsCorrRx.toNat⟩
def F.NET_TS_CORR_tx : Fld := ⟨19922960, 0, 16, .rw, Config.tsCorrTx.toNat⟩
/-- NET_TS_CORR, spec/16 R531. -/
def R.NET_TS_CORR : Reg := ⟨19922960, 2, 64, 1, 0, [F.NET_TS_CORR_rx, F.NET_TS_CORR_tx]⟩

def F.NET_PORT_STATUS_link : Fld := ⟨19922964, 0, 1, .ro, 0⟩
/-- NET_PORT_STATUS, spec/16. -/
def R.NET_PORT_STATUS : Reg := ⟨19922964, 2, 64, 1, 0, [F.NET_PORT_STATUS_link]⟩

def F.NET_PTP_CFG_domain : Fld := ⟨19923200, 8, 8, .rw, 127⟩
def F.NET_PTP_CFG_port : Fld := ⟨19923200, 1, 1, .rw, 0⟩
def F.NET_PTP_CFG_enable : Fld := ⟨19923200, 0, 1, .rw, 0⟩
/-- NET_PTP_CFG, spec/16 R529. -/
def R.NET_PTP_CFG : Reg := ⟨19923200, 1, 0, 1, 0, [F.NET_PTP_CFG_domain, F.NET_PTP_CFG_port, F.NET_PTP_CFG_enable]⟩

def F.NET_PTP_SERVO_lock_ns : Fld := ⟨19923204, 16, 16, .rw, 1000⟩
def F.NET_PTP_SERVO_max_ppb : Fld := ⟨19923204, 0, 16, .rw, 50000⟩
/-- NET_PTP_SERVO, spec/16 R527. -/
def R.NET_PTP_SERVO : Reg := ⟨19923204, 1, 0, 1, 0, [F.NET_PTP_SERVO_lock_ns, F.NET_PTP_SERVO_max_ppb]⟩

def F.NET_PTP_CTRL_restep : Fld := ⟨19923208, 0, 1, .wo, 0⟩
/-- NET_PTP_CTRL, spec/16 R530. -/
def R.NET_PTP_CTRL : Reg := ⟨19923208, 1, 0, 1, 0, [F.NET_PTP_CTRL_restep]⟩

def F.NET_PTP_STATUS_stepped : Fld := ⟨19923212, 3, 1, .ro, 0⟩
def F.NET_PTP_STATUS_state : Fld := ⟨19923212, 0, 3, .ro, 0⟩
/-- NET_PTP_STATUS, spec/16 R529. -/
def R.NET_PTP_STATUS : Reg := ⟨19923212, 1, 0, 1, 0, [F.NET_PTP_STATUS_stepped, F.NET_PTP_STATUS_state]⟩

def F.NET_PTP_OFFSET_value : Fld := ⟨19923216, 0, 32, .ro, 0⟩
/-- NET_PTP_OFFSET, spec/16 R529. -/
def R.NET_PTP_OFFSET : Reg := ⟨19923216, 1, 0, 1, 0, [F.NET_PTP_OFFSET_value]⟩

def F.NET_PTP_TIME_S_LO_value : Fld := ⟨19923220, 0, 32, .ro, 0⟩
/-- NET_PTP_TIME_S_LO, spec/16 R527. -/
def R.NET_PTP_TIME_S_LO : Reg := ⟨19923220, 1, 0, 1, 0, [F.NET_PTP_TIME_S_LO_value]⟩

def F.NET_PTP_TIME_S_HI_value : Fld := ⟨19923224, 0, 16, .ro, 0⟩
/-- NET_PTP_TIME_S_HI, spec/16 R527. -/
def R.NET_PTP_TIME_S_HI : Reg := ⟨19923224, 1, 0, 1, 0, [F.NET_PTP_TIME_S_HI_value]⟩

def F.NET_PTP_TIME_NS_value : Fld := ⟨19923228, 0, 32, .ro, 0⟩
/-- NET_PTP_TIME_NS, spec/16 R527. -/
def R.NET_PTP_TIME_NS : Reg := ⟨19923228, 1, 0, 1, 0, [F.NET_PTP_TIME_NS_value]⟩

def F.NET_TXTS0_valid : Fld := ⟨19923232, 31, 1, .ro, 0⟩
def F.NET_TXTS0_port : Fld := ⟨19923232, 16, 1, .ro, 0⟩
def F.NET_TXTS0_stamp_id : Fld := ⟨19923232, 0, 16, .ro, 0⟩
/-- NET_TXTS0, spec/16 R534. -/
def R.NET_TXTS0 : Reg := ⟨19923232, 1, 0, 1, 0, [F.NET_TXTS0_valid, F.NET_TXTS0_port, F.NET_TXTS0_stamp_id]⟩

def F.NET_TXTS1_value : Fld := ⟨19923236, 0, 32, .ro, 0⟩
/-- NET_TXTS1, spec/16 R534. -/
def R.NET_TXTS1 : Reg := ⟨19923236, 1, 0, 1, 0, [F.NET_TXTS1_value]⟩

def F.NET_TXTS2_value : Fld := ⟨19923240, 0, 16, .ro, 0⟩
/-- NET_TXTS2, spec/16 R534. -/
def R.NET_TXTS2 : Reg := ⟨19923240, 1, 0, 1, 0, [F.NET_TXTS2_value]⟩

def F.NET_TXTS3_value : Fld := ⟨19923244, 0, 32, .ro, 0⟩
/-- NET_TXTS3, spec/16 R534. -/
def R.NET_TXTS3 : Reg := ⟨19923244, 1, 0, 1, 0, [F.NET_TXTS3_value]⟩

def F.NET_RX_BASE_LO_value : Fld := ⟨19923248, 0, 32, .rw, 0⟩
/-- NET_RX_BASE_LO, spec/16 R535. -/
def R.NET_RX_BASE_LO : Reg := ⟨19923248, 1, 0, 1, 0, [F.NET_RX_BASE_LO_value]⟩

def F.NET_RX_BASE_HI_value : Fld := ⟨19923252, 0, 32, .rw, 0⟩
/-- NET_RX_BASE_HI, spec/16 R535. -/
def R.NET_RX_BASE_HI : Reg := ⟨19923252, 1, 0, 1, 0, [F.NET_RX_BASE_HI_value]⟩

def F.NET_RX_CFG_enable : Fld := ⟨19923256, 31, 1, .rw, 0⟩
def F.NET_RX_CFG_cq : Fld := ⟨19923256, 16, 4, .rw, 0⟩
def F.NET_RX_CFG_slots : Fld := ⟨19923256, 0, 16, .rw, 0⟩
/-- NET_RX_CFG, spec/16 R535. -/
def R.NET_RX_CFG : Reg := ⟨19923256, 1, 0, 1, 0, [F.NET_RX_CFG_enable, F.NET_RX_CFG_cq, F.NET_RX_CFG_slots]⟩

def F.NET_RX_HEAD_value : Fld := ⟨19923260, 0, 32, .rw, 0⟩
/-- NET_RX_HEAD, spec/16 R535. -/
def R.NET_RX_HEAD : Reg := ⟨19923260, 1, 0, 1, 0, [F.NET_RX_HEAD_value]⟩

def F.NET_TC_CFG_ltc_ofs : Fld := ⟨19923264, 16, 16, .rw, 0⟩
def F.NET_TC_CFG_freewheel : Fld := ⟨19923264, 8, 8, .rw, 0⟩
def F.NET_TC_CFG_src : Fld := ⟨19923264, 4, 2, .rw, 0⟩
def F.NET_TC_CFG_rate : Fld := ⟨19923264, 0, 4, .rw, 6⟩
/-- NET_TC_CFG, spec/16 R543. -/
def R.NET_TC_CFG : Reg := ⟨19923264, 1, 0, 1, 0, [F.NET_TC_CFG_ltc_ofs, F.NET_TC_CFG_freewheel, F.NET_TC_CFG_src, F.NET_TC_CFG_rate]⟩

def F.NET_TC_OFS_jam_s : Fld := ⟨19923268, 16, 16, .rw, 0⟩
def F.NET_TC_OFS_local_s : Fld := ⟨19923268, 0, 16, .rw, 0⟩
/-- NET_TC_OFS, spec/16 R544. -/
def R.NET_TC_OFS : Reg := ⟨19923268, 1, 0, 1, 0, [F.NET_TC_OFS_jam_s, F.NET_TC_OFS_local_s]⟩

def F.NET_TC_PRESET_value : Fld := ⟨19923272, 0, 32, .rw, 0⟩
/-- NET_TC_PRESET, spec/16 R543. -/
def R.NET_TC_PRESET : Reg := ⟨19923272, 1, 0, 1, 0, [F.NET_TC_PRESET_value]⟩

def F.NET_FLAGS_ltc_lost : Fld := ⟨19923328, 5, 1, .w1c, 0⟩
def F.NET_FLAGS_link_change : Fld := ⟨19923328, 4, 1, .w1c, 0⟩
def F.NET_FLAGS_rx_drop : Fld := ⟨19923328, 3, 1, .w1c, 0⟩
def F.NET_FLAGS_txts_overflow : Fld := ⟨19923328, 2, 1, .w1c, 0⟩
def F.NET_FLAGS_step : Fld := ⟨19923328, 1, 1, .w1c, 0⟩
def F.NET_FLAGS_cfg_refused : Fld := ⟨19923328, 0, 1, .w1c, 0⟩
/-- NET_FLAGS, spec/16. -/
def R.NET_FLAGS : Reg := ⟨19923328, 1, 0, 1, 0, [F.NET_FLAGS_ltc_lost, F.NET_FLAGS_link_change, F.NET_FLAGS_rx_drop, F.NET_FLAGS_txts_overflow, F.NET_FLAGS_step, F.NET_FLAGS_cfg_refused]⟩

def F.NET_CNT_rx_drop : Fld := ⟨19923332, 16, 16, .rc, 0⟩
def F.NET_CNT_txts_overflow : Fld := ⟨19923332, 8, 8, .rc, 0⟩
def F.NET_CNT_link_change : Fld := ⟨19923332, 4, 4, .rc, 0⟩
def F.NET_CNT_ltc_lost : Fld := ⟨19923332, 0, 4, .rc, 0⟩
/-- NET_CNT, spec/16. -/
def R.NET_CNT : Reg := ⟨19923332, 1, 0, 1, 0, [F.NET_CNT_rx_drop, F.NET_CNT_txts_overflow, F.NET_CNT_link_change, F.NET_CNT_ltc_lost]⟩

def F.NET_SND_CTRL_source : Fld := ⟨19927040, 8, 8, .rw, 0⟩
def F.NET_SND_CTRL_pacing : Fld := ⟨19927040, 7, 1, .rw, 0⟩
def F.NET_SND_CTRL_live : Fld := ⟨19927040, 6, 1, .rw, 0⟩
def F.NET_SND_CTRL_ports : Fld := ⟨19927040, 4, 2, .rw, 1⟩
def F.NET_SND_CTRL_kind : Fld := ⟨19927040, 1, 3, .rw, 0⟩
def F.NET_SND_CTRL_enable : Fld := ⟨19927040, 0, 1, .rw, 0⟩
/-- NET_SND_CTRL, spec/16 R536. -/
def R.NET_SND_CTRL : Reg := ⟨19927040, 8, 64, 1, 0, [F.NET_SND_CTRL_source, F.NET_SND_CTRL_pacing, F.NET_SND_CTRL_live, F.NET_SND_CTRL_ports, F.NET_SND_CTRL_kind, F.NET_SND_CTRL_enable]⟩

def F.NET_SND_DST_value : Fld := ⟨19927044, 0, 32, .rw, 0⟩
/-- NET_SND_DST, spec/16 R538. -/
def R.NET_SND_DST : Reg := ⟨19927044, 8, 64, 1, 0, [F.NET_SND_DST_value]⟩

def F.NET_SND_UDP_value : Fld := ⟨19927048, 0, 32, .rw, 0⟩
/-- NET_SND_UDP, spec/16 R538. -/
def R.NET_SND_UDP : Reg := ⟨19927048, 8, 64, 1, 0, [F.NET_SND_UDP_value]⟩

def F.NET_SND_RTP_value : Fld := ⟨19927052, 0, 32, .rw, 0⟩
/-- NET_SND_RTP, spec/16 R538. -/
def R.NET_SND_RTP : Reg := ⟨19927052, 8, 64, 1, 0, [F.NET_SND_RTP_value]⟩

def F.NET_SND_SSRC_value : Fld := ⟨19927056, 0, 32, .rw, 0⟩
/-- NET_SND_SSRC, spec/16 R538. -/
def R.NET_SND_SSRC : Reg := ⟨19927056, 8, 64, 1, 0, [F.NET_SND_SSRC_value]⟩

def F.NET_SND_FMT_value : Fld := ⟨19927060, 0, 32, .rw, 0⟩
/-- NET_SND_FMT, spec/16 R538. -/
def R.NET_SND_FMT : Reg := ⟨19927060, 8, 64, 1, 0, [F.NET_SND_FMT_value]⟩

def F.NET_SND_PKT_value : Fld := ⟨19927064, 0, 32, .rw, 0⟩
/-- NET_SND_PKT, spec/16 R538. -/
def R.NET_SND_PKT : Reg := ⟨19927064, 8, 64, 1, 0, [F.NET_SND_PKT_value]⟩

def F.NET_SND_TRO_value : Fld := ⟨19927068, 0, 32, .rw, 0⟩
/-- NET_SND_TRO, spec/16 R538. -/
def R.NET_SND_TRO : Reg := ⟨19927068, 8, 64, 1, 0, [F.NET_SND_TRO_value]⟩

def F.NET_SND_COMMIT_pending : Fld := ⟨19927072, 1, 1, .ro, 0⟩
def F.NET_SND_COMMIT_go : Fld := ⟨19927072, 0, 1, .wo, 0⟩
/-- NET_SND_COMMIT, spec/16. -/
def R.NET_SND_COMMIT : Reg := ⟨19927072, 8, 64, 1, 0, [F.NET_SND_COMMIT_pending, F.NET_SND_COMMIT_go]⟩

def F.NET_SND_STATUS_unlocked : Fld := ⟨19927076, 2, 1, .ro, 0⟩
def F.NET_SND_STATUS_shed : Fld := ⟨19927076, 1, 1, .ro, 0⟩
def F.NET_SND_STATUS_running : Fld := ⟨19927076, 0, 1, .ro, 0⟩
/-- NET_SND_STATUS, spec/16 R541. -/
def R.NET_SND_STATUS : Reg := ⟨19927076, 8, 64, 1, 0, [F.NET_SND_STATUS_unlocked, F.NET_SND_STATUS_shed, F.NET_SND_STATUS_running]⟩

def F.NET_SND_CNT_frames : Fld := ⟨19927080, 16, 16, .rc, 0⟩
def F.NET_SND_CNT_wet : Fld := ⟨19927080, 8, 8, .rc, 0⟩
def F.NET_SND_CNT_cut : Fld := ⟨19927080, 0, 8, .rc, 0⟩
/-- NET_SND_CNT, spec/16 R539. -/
def R.NET_SND_CNT : Reg := ⟨19927080, 8, 64, 1, 0, [F.NET_SND_CNT_frames, F.NET_SND_CNT_wet, F.NET_SND_CNT_cut]⟩

def F.AUTH_STATUS_hb_side_e : Fld := ⟨20971520, 7, 1, .ro, 0⟩
def F.AUTH_STATUS_hb_brg_e : Fld := ⟨20971520, 6, 1, .ro, 0⟩
def F.AUTH_STATUS_hb_side_w : Fld := ⟨20971520, 5, 1, .ro, 0⟩
def F.AUTH_STATUS_hb_brg_w : Fld := ⟨20971520, 4, 1, .ro, 0⟩
def F.AUTH_STATUS_quiet_e : Fld := ⟨20971520, 3, 1, .ro, 0⟩
def F.AUTH_STATUS_quiet_w : Fld := ⟨20971520, 2, 1, .ro, 0⟩
def F.AUTH_STATUS_lead_sel : Fld := ⟨20971520, 1, 1, .ro, 0⟩
def F.AUTH_STATUS_holder : Fld := ⟨20971520, 0, 1, .ro, 0⟩
/-- AUTH_STATUS, spec/17 R574. -/
def R.AUTH_STATUS : Reg := ⟨20971520, 1, 0, 1, 0, [F.AUTH_STATUS_hb_side_e, F.AUTH_STATUS_hb_brg_e, F.AUTH_STATUS_hb_side_w, F.AUTH_STATUS_hb_brg_w, F.AUTH_STATUS_quiet_e, F.AUTH_STATUS_quiet_w, F.AUTH_STATUS_lead_sel, F.AUTH_STATUS_holder]⟩

def F.AUTH_CTRL_handover : Fld := ⟨20971524, 0, 1, .wo, 0⟩
/-- AUTH_CTRL, spec/17 R577. -/
def R.AUTH_CTRL : Reg := ⟨20971524, 1, 0, 1, 0, [F.AUTH_CTRL_handover]⟩

def F.AUTH_FLAGS_transfer : Fld := ⟨20971528, 2, 1, .w1c, 0⟩
def F.AUTH_FLAGS_conflict : Fld := ⟨20971528, 1, 1, .w1c, 0⟩
def F.AUTH_FLAGS_cfg_refused : Fld := ⟨20971528, 0, 1, .w1c, 0⟩
/-- AUTH_FLAGS, spec/17 R577. -/
def R.AUTH_FLAGS : Reg := ⟨20971528, 1, 0, 1, 0, [F.AUTH_FLAGS_transfer, F.AUTH_FLAGS_conflict, F.AUTH_FLAGS_cfg_refused]⟩

def F.AUTH_CNT_transfer : Fld := ⟨20971532, 16, 16, .rc, 0⟩
def F.AUTH_CNT_conflict : Fld := ⟨20971532, 8, 8, .rc, 0⟩
def F.AUTH_CNT_cfg_refused : Fld := ⟨20971532, 0, 8, .rc, 0⟩
/-- AUTH_CNT, spec/17 R577. -/
def R.AUTH_CNT : Reg := ⟨20971532, 1, 0, 1, 0, [F.AUTH_CNT_transfer, F.AUTH_CNT_conflict, F.AUTH_CNT_cfg_refused]⟩

def F.AUTH_HB_COUNT_count : Fld := ⟨20971536, 0, 32, .ro, 0⟩
/-- AUTH_HB_COUNT, spec/17 R571. -/
def R.AUTH_HB_COUNT : Reg := ⟨20971536, 2, 4, 1, 0, [F.AUTH_HB_COUNT_count]⟩

/-- Part 0 of the register map. -/
def regPart0 : List Reg :=
  [R.GLB_ID_LO, R.GLB_ID_HI, R.GLB_CAP, R.GLB_SCRATCH, R.GLB_UID_LO, R.GLB_UID_HI,
   R.GLB_PACE_DEV, R.GLB_PACE_W, R.GLB_PACE_E, R.GLB_PACE_STATUS, R.GLB_PACE_FAULT_W, R.GLB_PACE_FAULT_E,
   R.GLB_PACE_REQ, R.GLB_PACE_FAST, R.GLB_FLAGS, R.GLB_CNT, R.GLB_EV_SEQ, R.GLB_EV_TEST,
   R.RING_DB_BASE_LO, R.RING_DB_BASE_HI, R.RING_POLL, R.RING_EVQ_CFG, R.RING_OUTSTANDING, R.RING_FLAGS,
   R.RING_CNT, R.RING_EVQ_LOST, R.RING_SQ_BASE_LO, R.RING_SQ_BASE_HI, R.RING_SQ_CFG, R.RING_SQ_STATUS,
   R.RING_CQ_BASE_LO, R.RING_CQ_BASE_HI, R.RING_CQ_CFG, R.RING_CQ_STATUS, R.BARROW_CH_HEAD_LO, R.BARROW_CH_HEAD_HI,
   R.BARROW_CH_CTRL, R.BARROW_CH_STATUS, R.BARROW_CH_CUR_LO, R.BARROW_CH_CUR_HI]

/-- Part 1 of the register map. -/
def regPart1 : List Reg :=
  [R.BARROW_CH_BYTES_LO, R.BARROW_CH_BYTES_HI, R.BARROW_FLAGS, R.BARROW_CNT, R.BARROW_BUF, R.SES_REQ,
   R.SES_NONCE, R.SES_MAC, R.SES_RESULT, R.SES_LOCK, R.SES_STATUS, R.SES_FLAGS,
   R.SES_CNT, R.FW_STATUS, R.FW_BUILD_LO, R.FW_BUILD_HI, R.FW_CFG, R.FW_FLAGS,
   R.FW_CNT, R.LEDGER_STATUS, R.LEDGER_SEQ_LO, R.LEDGER_SEQ_HI, R.PWR_ON, R.PWR_STATE,
   R.PWR_SEQ_STATUS, R.RST_CAUSE, R.RST_DOMAIN, R.RST_BLOCK_CTRL, R.RST_BLOCK_STATUS, R.RST_IDLE_TIMEOUT,
   R.RST_WDT, R.RST_HALF_REQ, R.RST_FLAGS, R.RST_CNT, R.THM_STATUS, R.THM_CFG,
   R.THM_HOT, R.THM_FLAGS, R.THM_CNT, R.THM_DIODE]

/-- Part 2 of the register map. -/
def regPart2 : List Reg :=
  [R.AGE_PLAN, R.AGE_VNOW, R.AGE_TREND, R.AGE_HOURS, R.AGE_FORECAST, R.AGE_FLAGS,
   R.AGE_CNT, R.AGE_MODE0, R.AGE_MODE1, R.AGE_MODE2, R.BRL_GRP_CFG, R.BRL_GRP_CTRL,
   R.BRL_GRP_STATUS, R.BRL_GRP_EQ, R.BRL_BC_CMD, R.BRL_BC_DATA, R.BRL_BC_STATUS, R.BRL_GRP_FLAGS,
   R.BRL_GRP_ERR, R.BRL_GRP_BITS, R.BRL_GRP_BC_ERR, R.BRL_LANE_ERR, R.BRL_LANE_DFE, R.BRL_EASEL_ERR,
   R.BRL_EASEL_ORPHAN, R.BRL_TRAIN_TIMEOUT, R.EASEL_CTRL, R.EASEL_STATUS, R.EASEL_GEOM, R.EASEL_FMT,
   R.EASEL_RATE, R.EASEL_POLICY, R.EASEL_TICKET_START, R.EASEL_TICKET_LEAD, R.EASEL_FE_TIMEOUT, R.EASEL_ADMIT,
   R.EASEL_FLAGS, R.EASEL_CNT_DRY, R.EASEL_CNT_SCRAPE, R.EASEL_CNT_DAMAGED]

/-- Part 3 of the register map. -/
def regPart3 : List Reg :=
  [R.EASEL_CNT_MISC, R.EASEL_LAST_LO, R.EASEL_LAST_HI, R.COND_STAGES, R.COND_FUSE_PED, R.COND_FUSE_SAT,
   R.COND_FUSE_KNEE, R.COND_FUSE_RATIO, R.COND_BLACK_CFG, R.COND_HOT_CFG, R.COND_COLFPN_CFG, R.COND_WB,
   R.COND_OUT_GAIN, R.COND_OUT_PED, R.COND_MAP_BASE_LO, R.COND_MAP_BASE_HI, R.COND_MAP_COUNT, R.COND_SHADE_BASE_LO,
   R.COND_SHADE_BASE_HI, R.COND_COLGAIN_BASE_LO, R.COND_COLGAIN_BASE_HI, R.COND_COMMIT, R.COND_BLACK_EST01, R.COND_BLACK_EST23,
   R.COND_FLAGS, R.COND_CNT, R.COND_CAL_CFG, R.COND_SENSOR_TEMP, R.COND_CAL_RUNS, R.COND_CAL_LAST_S_LO,
   R.COND_CAL_LAST_S_HI, R.COND_CAL_LAST_NS, R.COND_HALF_STATUS, R.COND_HCAL_RUNS, R.COND_HCAL_LAST_S_LO, R.COND_HCAL_LAST_S_HI,
   R.COND_HCAL_LAST_NS, R.PAL_CTRL, R.PAL_IN_PED, R.PAL_IN_GAIN]

/-- Part 4 of the register map. -/
def regPart4 : List Reg :=
  [R.PAL_WB, R.PAL_MTX0, R.PAL_MTX1, R.PAL_MTX2, R.PAL_MTX3, R.PAL_MTX4,
   R.PAL_MTX5, R.PAL_MTX6, R.PAL_MTX7, R.PAL_MTX8, R.PAL_CDL0, R.PAL_CDL1,
   R.PAL_CDL2, R.PAL_CDL3, R.PAL_CDL4, R.PAL_CDL5, R.PAL_CDL6, R.PAL_CDL7,
   R.PAL_CDL8, R.PAL_CDL9, R.PAL_OT_MTX0, R.PAL_OT_MTX1, R.PAL_OT_MTX2, R.PAL_OT_MTX3,
   R.PAL_OT_MTX4, R.PAL_OT_MTX5, R.PAL_OT_MTX6, R.PAL_OT_MTX7, R.PAL_OT_MTX8, R.PAL_OT_SCALE,
   R.PAL_OT_PQ_NITS, R.PAL_STATS_CFG, R.PAL_STATS_BASE_LO, R.PAL_STATS_BASE_HI, R.PAL_STATS_HEAD, R.PAL_STATS_TAIL,
   R.PAL_COMMIT, R.PAL_SLOTS, R.PAL_FLAGS, R.PAL_CNT]

/-- Part 5 of the register map. -/
def regPart5 : List Reg :=
  [R.VIEW_CTRL, R.VIEW_CROP_ORG, R.VIEW_CROP_SIZE, R.VIEW_OUT_SIZE, R.VIEW_FMT, R.VIEW_RING_BASE_LO,
   R.VIEW_RING_BASE_HI, R.VIEW_RING_CFG, R.VIEW_RING_SLOT, R.VIEW_COMMIT, R.VIEW_SLOTS, R.VIEW_FLAGS,
   R.VIEW_CNT, R.VIEW_COEF_H, R.VIEW_COEF_V, R.LZP_CTRL, R.LZP_RING_BASE_LO, R.LZP_RING_BASE_HI,
   R.LZP_RING_LANE, R.LZP_STATUS, R.LZP_SEQ, R.LZP_FLAGS, R.LZP_CNT, R.LZP_DEC_FAULT0,
   R.LZP_DEC_FAULT1, R.LZP_DEC_FAULT2, R.LZP_DEC_FAULT3, R.LZP_LANE_COMMIT, R.LZP_LANE_RELEASE, R.LZP_EASEL_TILES,
   R.LZP_EASEL_RAW, R.LZP_EASEL_BYTES_LO, R.LZP_EASEL_BYTES_HI, R.LZP_EASEL_RATIO, R.LZP_EASEL_ALARM, R.HBM_STACK_STATUS,
   R.HBM_RH_CFG, R.HBM_FLAGS, R.HBM_CNT, R.HBM_CNT_RH]

/-- Part 6 of the register map. -/
def regPart6 : List Reg :=
  [R.HBM_UE_ADDR_LO, R.HBM_UE_ADDR_HI, R.HBM_ELASTIC, R.HBM_REGION_BASE, R.HBM_REGION_SIZE, R.HBM_REGION_ATTR,
   R.HBM_PLAN_COMMIT, R.HBM_CANVAS_STATUS, R.HBM_CANVAS_SLOT, R.HBM_CANVAS_FULL, R.MAG_PORT_CTRL, R.MAG_PORT_STATUS,
   R.MAG_GEOM, R.MAG_GEOM2, R.MAG_TIMING, R.MAG_RATE, R.MAG_SEGMENTS, R.MAG_OPS,
   R.MAG_ELASTIC_CFG, R.MAG_WEAR_CFG, R.MAG_RD_CFG, R.MAG_SCRUB_CFG, R.MAG_SCRUB_STATUS, R.MAG_WEAR_STATUS,
   R.MAG_SPARE, R.MAG_FLAGS, R.MAG_CNT, R.MAG_CNT2, R.MAG_PFW_STATUS, R.MAG_ID,
   R.MAG_PWR_CFG, R.REEL_STATUS, R.REEL_EXPOSURE, R.REEL_WIP, R.REEL_LEDGER, R.REEL_SEQ_LO,
   R.REEL_SEQ_HI, R.REEL_FLAGS, R.REEL_CNT, R.STOR_ADMIN_STATUS]

/-- Part 7 of the register map. -/
def regPart7 : List Reg :=
  [R.STOR_ADMIN_DONE, R.STOR_ADMIN_TOTAL, R.TAKE_STATUS, R.TAKE_NUMBER, R.TAKE_FRAMES, R.TAKE_SCRAPED,
   R.VCD_SC_CTRL, R.VCD_SC_QP, R.VCD_SC_GOP, R.VCD_SC_CAP_PIC, R.VCD_SC_CAP_WIN, R.VCD_SC_WIN,
   R.VCD_SC_VUI, R.VCD_SC_BS_BASE_LO, R.VCD_SC_BS_BASE_HI, R.VCD_SC_BS_SIZE, R.VCD_SC_HOST_BASE_LO, R.VCD_SC_HOST_BASE_HI,
   R.VCD_SC_HOST_SIZE, R.VCD_SC_HOST_HEAD, R.VCD_SC_HOST_TAIL, R.VCD_SC_COMMIT, R.VCD_SC_STATUS, R.VCD_SC_FLAGS,
   R.VCD_SC_CNT, R.VCD_SC_CNT2, R.VCD_POOL_BASE_LO, R.VCD_POOL_BASE_HI, R.VCD_POOL_SIZE, R.VCD_POOL_STATUS,
   R.VCD_RC_STATUS, R.VCD_RC_FAULT0, R.VCD_RC_FAULT1, R.VCD_RC_FAULT2, R.VCD_RC_FAULT3, R.RAS_OUT_CTRL,
   R.RAS_OUT_FMT, R.RAS_OUT_POS, R.RAS_OUT_LOCK_OFS, R.RAS_OUT_COMMIT]

/-- Part 8 of the register map. -/
def regPart8 : List Reg :=
  [R.RAS_OUT_STATUS, R.RAS_OUT_FLAGS, R.RAS_OUT_CNT, R.RAS_OUT_CNT2, R.RAS_SDI_ANC, R.RAS_DSI_CFG,
   R.RAS_DSI_HTIM0, R.RAS_DSI_HTIM1, R.RAS_DSI_VTIM0, R.RAS_DSI_VTIM1, R.AUD_MASTER_CFG, R.AUD_MASTER_STATUS,
   R.AUD_REC_CTRL, R.AUD_REC_CFG, R.AUD_RING_BASE_LO, R.AUD_RING_BASE_HI, R.AUD_RING_BLOCKS, R.AUD_RING_HEAD,
   R.AUD_RING_SERIAL, R.AUD_FLAGS, R.AUD_CNT, R.AUD_TDM_CFG, R.AUD_TPORT_MAP, R.AUD_TPORT_MASK,
   R.AUD_TPORT_CTRL, R.AUD_TPORT_STATUS, R.AUD_TPORT_CNT, R.AUD_TPORT_FLAGS, R.AUD_APORT_MAP, R.AUD_APORT_MASK,
   R.AUD_APORT_CTRL, R.AUD_APORT_STATUS, R.AUD_APORT_CNT, R.AUD_APORT_FLAGS, R.AUD_TPORT_RATIO, R.AUD_AES_CS_A,
   R.AUD_AES_CS_B, R.AUD_AES_NA_CFG, R.AUD_AES_GRP_CFG, R.AUD_GRP_RATIO]

/-- Part 9 of the register map. -/
def regPart9 : List Reg :=
  [R.AUD_OUT_CTRL, R.AUD_OUT_MAP, R.NET_PORT_CFG, R.NET_PORT_MAC_LO, R.NET_PORT_MAC_HI, R.NET_PORT_IP,
   R.NET_TS_CORR, R.NET_PORT_STATUS, R.NET_PTP_CFG, R.NET_PTP_SERVO, R.NET_PTP_CTRL, R.NET_PTP_STATUS,
   R.NET_PTP_OFFSET, R.NET_PTP_TIME_S_LO, R.NET_PTP_TIME_S_HI, R.NET_PTP_TIME_NS, R.NET_TXTS0, R.NET_TXTS1,
   R.NET_TXTS2, R.NET_TXTS3, R.NET_RX_BASE_LO, R.NET_RX_BASE_HI, R.NET_RX_CFG, R.NET_RX_HEAD,
   R.NET_TC_CFG, R.NET_TC_OFS, R.NET_TC_PRESET, R.NET_FLAGS, R.NET_CNT, R.NET_SND_CTRL,
   R.NET_SND_DST, R.NET_SND_UDP, R.NET_SND_RTP, R.NET_SND_SSRC, R.NET_SND_FMT, R.NET_SND_PKT,
   R.NET_SND_TRO, R.NET_SND_COMMIT, R.NET_SND_STATUS, R.NET_SND_CNT]

/-- Part 10 of the register map. -/
def regPart10 : List Reg :=
  [R.AUTH_STATUS, R.AUTH_CTRL, R.AUTH_FLAGS, R.AUTH_CNT, R.AUTH_HB_COUNT]

/-- The register map of BAR0 (R639). -/
def allRegs : List Reg :=
  regPart0 ++ regPart1 ++ regPart2 ++ regPart3 ++ regPart4 ++ regPart5 ++ regPart6 ++ regPart7 ++ regPart8 ++ regPart9 ++ regPart10

end Sys2Proof.Machine
end

