-- ==== Sys2Proof/Machine/Ops.lean ====
section
/-! DEFINITION. The shared operations: register fields, HBM bytes, records and events, and the start and the end of a
host command. -/
namespace Sys2Proof.Machine

/-- The outcome of a command. -/
abbrev Out := Host.Outcome State Fault Refusal

/-! ### Register fields -/

/-- The value a store holds at a key, or the default. -/
def RegStore.get (l : RegStore) (k : RegKey) (d : Nat) : Nat :=
  match l with
  | [] => d
  | e :: l => if e.1 = k then e.2 else RegStore.get l k d

/-- A store with one key's value replaced. -/
def RegStore.set (l : RegStore) (k : RegKey) (v : Nat) : RegStore := (k, v) :: l.filter (fun e => e.1 ≠ k)

/-- RW fields stand in the store that resets narrower than a device reset leave alone (R644). -/
def Acc.isCfg : Acc → Bool
  | .rw => true
  | .own => true
  | _ => false

/-- The value of a register field of one instance. -/
def State.rd (s : State) (f : Fld) (i : Nat := 0) (j : Nat := 0) : Nat :=
  if f.acc.isCfg then s.cfg.get ⟨f.base, f.lo, i, j⟩ f.reset else s.sts.get ⟨f.base, f.lo, i, j⟩ f.reset

/-- A register field set by the part. -/
def State.wr (s : State) (f : Fld) (v : Nat) (i : Nat := 0) (j : Nat := 0) : State :=
  if f.acc.isCfg then { s with cfg := s.cfg.set ⟨f.base, f.lo, i, j⟩ (v % 2 ^ f.width) }
  else { s with sts := s.sts.set ⟨f.base, f.lo, i, j⟩ (v % 2 ^ f.width) }

/-- A field that holds 1. -/
def State.on (s : State) (f : Fld) (i : Nat := 0) (j : Nat := 0) : Bool := s.rd f i j == 1

/-- A counter field counted up, staying at its maximum (R9, R410). -/
def State.bump (s : State) (f : Fld) (i : Nat := 0) (j : Nat := 0) (n : Nat := 1) : State :=
  s.wr f (min (2 ^ f.width - 1) (s.rd f i j + n)) i j

/-- A flag set together with its companion count (R10). -/
def State.flagCount (s : State) (flag cnt : Fld) (i : Nat := 0) : State := (s.wr flag 1 i).bump cnt i

/-- The RW fields of instance i of the registers from one base to below another: what a commit of shadows takes. -/
def State.shadow (s : State) (lo hi i : Nat) : RegStore :=
  s.cfg.filter fun x => decide (lo ≤ x.1.base) && decide (x.1.base < hi) && x.1.i == i

/-- A field of a set of shadows. -/
def regOf (r : RegStore) (f : Fld) (i : Nat) (j : Nat := 0) : Nat := r.get ⟨f.base, f.lo, i, j⟩ f.reset

/-- A 1-bit field of a set. -/
def regOn (r : RegStore) (f : Fld) (i : Nat) : Bool := regOf r f i == 1

/-- A 64-bit address of a LO and HI pair (R643). -/
def State.pair (s : State) (lo hi : Fld) (i : Nat := 0) : Nat := s.rd lo i + 4294967296 * s.rd hi i

/-- A peak field raised to a value it has not yet reached. -/
def State.peak (s : State) (f : Fld) (v : Nat) (i : Nat := 0) : State := s.wr f (max (s.rd f i) v) i

/-- Domain n is powered and out of reset (R36, R548). -/
def State.released (s : State) (n : Nat) : Bool := bitOf (s.rd F.PWR_STATE_released) n

/-- A half is in quiet (R572). -/
def State.quiet (s : State) (h : Nat) : Bool :=
  if h = 0 then s.on F.AUTH_STATUS_quiet_w else s.on F.AUTH_STATUS_quiet_e

/-- A half's keeper. -/
def State.keeper (s : State) (h : Nat) : KeeperSt := s.sys.keepers.getD h KeeperSt.init

/-- The half that holds the bell: 0 West, 1 East. -/
def State.holder (s : State) : Nat := s.rd F.AUTH_STATUS_holder

/-- A block is not in a block reset, waiting for clock-good or in HELD_FAULT (R565, R568, R569). -/
def State.blockUp (s : State) (b : Nat) : Bool :=
  s.sys.block != some (b, true) && !s.sys.waiting.contains b && !s.sys.fault.contains b

/-- A block takes new work: it is up, and no idle request stands at it (R565). -/
def State.takesWork (s : State) (b : Nat) : Bool := s.blockUp b && s.sys.block != some (b, false)

/-- Do the work of a block only while its domain is powered and released. -/
def State.whenUp (s : State) (dom : Nat) (f : State → State) : State := if s.released dom then f s else s

/-- Do the work only when the condition holds. -/
def State.whenB (s : State) (b : Bool) (f : State → State) : State := if b then f s else s

/-- Apply a state change for each entry of a list, in order. -/
def State.each {α : Type} (s : State) (l : List α) (f : State → α → State) : State := l.foldl f s

/-! ### What the part shows and free values -/

/-- Show a transaction outside the package. -/
def State.emit (s : State) (e : Emit) : State := { s with out := e :: s.out }

/-- The PTP time base in nanoseconds (R527): it counts from 0 when the NET domain and its block are released, and reads 0 before. -/
def State.now (s : State) : Nat := if s.released 30 && s.blockUp 0x7A then s.clock + Config.ptpElapsed s.fresh else 0

/-- Seconds and nanoseconds of a time stamp: 48 and 32 bits (R527). -/
def ptpSeconds (t : Nat) : Nat := t / 1000000000 % 281474976710656
def ptpNanos (t : Nat) : Nat := t % 1000000000

/-- Take the next free value's number; the time base goes on. -/
def State.tick (s : State) : State := { s with clock := s.now, fresh := s.fresh + 1 }

/-- The time base set: by its reset or its one step (R527, R529). -/
def State.setClock (s : State) (n : Nat) : State := { s with clock := n }

/-- An exact value brought to a whole number where the rule gives no rounding: the code below or above, free. -/
def openRound (site : Nat) (q : Frac) : Int :=
  if q.1 % q.2 = 0 then Frac.floor q else Frac.floor q + (if Config.roundUp site q.1 q.2 then 1 else 0)

/-- A device ledger record handed to the stallholder (R635). -/
def State.ledgerAdd (s : State) (kind key : Nat) (vals : List Nat) : State :=
  { s with ledgerWait := s.ledgerWait ++ [{ seq := 0, kind := kind, key := key, vals := vals }] }

/-- A count the spec names and gives no register. -/
def State.counted (s : State) (k : Counted) : Nat := ((s.tally.find? fun x => x.1 == k).map Prod.snd).getD 0

/-- Such a count counted up. -/
def State.countUp (s : State) (k : Counted) (n : Nat := 1) : State :=
  { s with tally := (k, s.counted k + n) :: s.tally.filter fun x => x.1 ≠ k }

/-! ### HBM bytes -/

/-- What an unlisted HBM address reads as: the spec gives no contents after power-on (DESIGN CHOICE, log 4). -/
def Memory.blank : Byte := 0

/-- The byte at an address. -/
def Memory.read : Memory → Nat → Byte
  | [], _ => Memory.blank
  | c :: m, a => if c.1 = a then c.2 else if a < c.1 then Memory.blank else Memory.read m a

/-- The entries above an address, with this one in front unless it is blank. -/
def Memory.consCell (a : Nat) (b : Byte) (m : Memory) : Memory := if b = Memory.blank then m else (a, b) :: m

/-- A byte stored, the canonical form kept. -/
def Memory.write : Memory → Nat → Byte → Memory
  | [], a, b => Memory.consCell a b []
  | c :: m, a, b =>
    if a < c.1 then Memory.consCell a b (c :: m)
    else if c.1 = a then Memory.consCell a b m
    else c :: Memory.write m a b

/-- Bytes stored at rising addresses. -/
def Memory.writeList (m : Memory) (a : Nat) : List Byte → Memory
  | [] => m
  | b :: bs => Memory.writeList (m.write a b) (a + 1) bs

/-- n bytes read from rising addresses. -/
def Memory.readList (m : Memory) (a : Nat) : Nat → List Byte
  | 0 => []
  | n + 1 => m.read a :: Memory.readList m (a + 1) n

/-- Every address of a memory lies above a bound, rising, and no entry is blank. -/
def Memory.wfFrom : Option Nat → Memory → Bool
  | _, [] => true
  | none, c :: m => c.2 != Memory.blank && Memory.wfFrom (some c.1) m
  | some b, c :: m => decide (b < c.1) && c.2 != Memory.blank && Memory.wfFrom (some c.1) m

/-- The canonical form: addresses strictly rising, no entry equal to what an unlisted address reads as. -/
def Memory.wf (m : Memory) : Bool := Memory.wfFrom none m

/-- HBM bytes stored. -/
def State.store (s : State) (a : Nat) (bs : List Byte) : State := { s with mem := s.mem.writeList a bs }

/-- HBM as a request issued now finds it: writes that still wait go before it (R269, R270). -/
def State.hbmNow (s : State) : Memory := s.hbm.held.foldl (fun m w => m.writeList w.1 w.2) s.mem

/-- HBM bytes read. -/
def State.load (s : State) (a n : Nat) : List Byte := s.hbmNow.readList a n

/-- The size of one stack in bytes. -/
def stackBytes : Nat := Config.capMib * 1048576

/-- An HBM range that lies within one stack (R265). -/
def hbmValid (a n : Nat) : Bool := decide (a + n ≤ stackBytes) || (decide (0x1000000000 ≤ a) && decide (a + n ≤ 0x1000000000 + stackBytes))

/-! ### Records and events -/

/-- The time base is not LOCKED: flag bit [2] of every record (R392). -/
def State.ptpUnlocked (s : State) : Bool := s.rd F.NET_PTP_STATUS_state != 3

/-- A change of the ring engine's state. -/
def State.updHost (s : State) (f : HostSt → HostSt) : State := { s with host := f s.host }

/-- The records a half holds while in quiet (R579). -/
def State.heldCount (s : State) (h : Nat) : Nat := (s.host.records.filter fun r => r.quiet && r.half == h).length

/-- A half's held-record area holds 2,097,152 records (R579). -/
def heldArea : Nat := 2097152

/-- A dropped event or unsolicited record (R398, R579). -/
def State.dropRecord (s : State) : State :=
  ((s.wr F.RING_FLAGS_evq_lost 1).bump F.RING_EVQ_LOST_count).updHost fun h => { h with lost := h.lost + 1 }

/-- Raise an event (R396): it takes the next seq and the time stamp of now, and waits for the ring engine to write it.
On a half in quiet it goes to the held-record area, or is dropped when that is full (R579). -/
def State.raise (s : State) (half code : Nat) (payload : List Byte) : State :=
  let q := s.quiet half
  let r : Rec := { event := true, half := half, cq := 0, tag := code, source := half, status := s.rd F.GLB_EV_SEQ_next,
                   spec0 := 0, spec1 := 0, ring := none, cmd := none, payload := padTo 16 payload, stamp := some s.now,
                   step := 0, unlocked := s.ptpUnlocked, quiet := q, full := false }
  let t := (s.wr F.GLB_EV_SEQ_next (s.rd F.GLB_EV_SEQ_next + 1)).tick
  if q && decide (heldArea ≤ s.heldCount half) then t.dropRecord
  else t.updHost fun h => { h with records := h.records ++ [r] }

/-- The payload of an event that names a frame (R397). -/
def framePayload (easel serial word : Nat) (more : List Byte := []) : List Byte :=
  le 1 easel ++ le 1 0 ++ le 6 serial ++ le 2 word ++ more

/-- Queue a completion record (R392). On a half in quiet it keeps the step code and time of now (R581). -/
def State.post (s : State) (r : Rec) : State :=
  let q := s.quiet r.half
  let r' := { r with quiet := q, stamp := if q then some s.now else none,
                     step := if q then s.rd F.GLB_PACE_DEV_code else 0, unlocked := q && s.ptpUnlocked }
  let t := if q then s.tick else s
  if q && r.cmd.isNone && decide (r.source / 64 = 2) && decide (heldArea ≤ s.heldCount r.half) then t.dropRecord
  else t.updHost fun h => { h with records := h.records ++ [r'] }

/-- An unsolicited completion record of a producer (R392). -/
def State.postUnsolicited (s : State) (half cq producer status spec0 spec1 : Nat) : State :=
  s.post { event := false, half := half, cq := cq, tag := 0, source := 128 + producer, status := status, spec0 := spec0,
           spec1 := spec1, ring := none, cmd := none, payload := [], stamp := none, step := 0, quiet := false, full := false }

/-! ### Host commands -/

/-- The outstanding command with a decode number. -/
def State.cmd (s : State) (id : Nat) : Option Cmd := s.host.cmds.find? fun c => c.id == id

/-- A change of one outstanding command. -/
def State.updCmd (s : State) (id : Nat) (f : Cmd → Cmd) : State :=
  s.updHost fun h => { h with cmds := h.cmds.map fun c => if c.id = id then f c else c }

/-- The outstanding commands in decode order (R385). -/
def State.outstanding (s : State) : List Cmd := s.host.cmds.filter fun c => !c.gone

/-- RING_OUTSTANDING follows the outstanding commands (R385). -/
def State.countOutstanding (s : State) : State :=
  (s.wr F.RING_OUTSTANDING_now s.outstanding.length).peak F.RING_OUTSTANDING_peak s.outstanding.length

/-- A command ended without a record is outstanding no more (R385). -/
def State.dropCmd (s : State) (id : Nat) : State :=
  (s.updHost fun h => { h with cmds := h.cmds.filter fun c => c.id ≠ id }).countOutstanding

/-- A command's record is written, and it is outstanding no more (R385). One whose record a QUEUE_RESET posted works on (R432). -/
def State.cmdRecorded (s : State) (id : Nat) : State :=
  match s.cmd id with
  | some c => if c.mute && c.stage != .ended then (s.updCmd id fun c => { c with gone := true }).countOutstanding else s.dropCmd id
  | none => s

/-- A command ends: its completion record is raised on a half, and it stays outstanding until the record is written.
A muted command ends without one (R378, R432). -/
def State.complete (s : State) (id status : Nat) (spec0 : Nat := 0) (spec1 : Nat := 0) (half : Nat := 0) : State :=
  match s.cmd id with
  | none => s
  | some c =>
    if c.stage = .ended then s
    else if c.mute then
      if s.host.records.any fun r => r.cmd == some id then s.updCmd id fun c => { c with stage := .ended } else s.dropCmd id
    else (s.updCmd id fun c => { c with stage := .ended }).post
      { event := false, half := half, cq := c.cq, tag := c.tag, source := c.ring, status := status, spec0 := spec0,
        spec1 := spec1, ring := some c.ring, cmd := some c.id, payload := [], stamp := none, step := 0, quiet := false,
        full := false }

/-- A command starts: it is outstanding, carries this opcode and waits on nothing (R390). It is marked running. -/
def State.startCmd (s : State) (id opcode : Nat) (f : Cmd → State → State) : State :=
  match s.cmd id with
  | none => s
  | some c =>
    if c.opcode = opcode ∧ c.stage = .ready then f c (s.updCmd id fun c => { c with stage := .running }) else s

/-- A running command, for the events that carry it on. -/
def State.withCmd (s : State) (id : Nat) (f : Cmd → State → State) : State :=
  match s.cmd id with
  | none => s
  | some c => if c.stage = .running then f c s else s

/-- Mark a command past its point of no return (R430). -/
def State.passPoint (s : State) (id : Nat) : State := s.updCmd id fun c => { c with past := true }

/-- Byte, 16-bit, 32-bit and 64-bit fields of a command's descriptor. -/
def Cmd.b (c : Cmd) (a : Nat) : Nat := fieldAt c.desc a 1
def Cmd.h (c : Cmd) (a : Nat) : Nat := fieldAt c.desc a 2
def Cmd.w (c : Cmd) (a : Nat) : Nat := fieldAt c.desc a 4
def Cmd.d (c : Cmd) (a : Nat) : Nat := fieldAt c.desc a 8

end Sys2Proof.Machine
end

