-- ==== Sys2Proof/Machine/Link.lean ====
section
/-! DEFINITION. The Barosh sensor link (spec/03): lanes, deskew, the group state machine, the back-channel and test
patterns. -/
namespace Sys2Proof.Machine

/-! ### Shared parts -/

/-- A group beside its registers. -/
def State.group (s : State) (g : Nat) : GroupSt := s.link.groups.getD g GroupSt.init

/-- A change of one group. -/
def State.updGroup (s : State) (g : Nat) (f : GroupSt → GroupSt) : State :=
  { s with link := { s.link with groups := updAt s.link.groups g f } }

/-- A lane of a group. -/
def State.lane (s : State) (g m : Nat) : LaneSt := (s.group g).lanes.getD m LaneSt.init

/-- A change of one lane. -/
def State.updLane (s : State) (g m : Nat) (f : LaneSt → LaneSt) : State :=
  s.updGroup g fun x => { x with lanes := updAt x.lanes m f }

/-- A group's half: G00 to G07 West, G08 to G15 East (R15). -/
def groupHalf (g : Nat) : Nat := if g < 8 then 0 else 1

/-- A group's state in the codes of BRL_GRP_STATUS (R122). -/
def State.grpState (s : State) (g : Nat) : Nat := s.rd F.BRL_GRP_STATUS_state g

/-- Enter a state. -/
def State.setGrp (s : State) (g v : Nat) : State := s.wr F.BRL_GRP_STATUS_state v g

/-- The groups of a group's set, in rising order (R93). A group that is no member stands alone. -/
def State.setOf (s : State) (g : Nat) : List Nat :=
  if s.on F.BRL_GRP_CFG_member g then
    (List.range 16).filter fun k => s.on F.BRL_GRP_CFG_member k && s.rd F.BRL_GRP_CFG_easel k == s.rd F.BRL_GRP_CFG_easel g
  else [g]

/-- The group set of an easel (R93). -/
def State.easelGroups (s : State) (e : Nat) : List Nat :=
  (List.range 16).filter fun k => s.on F.BRL_GRP_CFG_member k && s.rd F.BRL_GRP_CFG_easel k == e

/-- The lowest group of a set, where its deskew state is kept. -/
def State.setHead (s : State) (g : Nat) : Nat := (s.setOf g).headD g

/-- Every group of an easel's set is UP, and there is one (R123). -/
def State.setUp (s : State) (e : Nat) : Bool :=
  !(s.easelGroups e).isEmpty && (s.easelGroups e).all fun g => s.grpState g == 6

/-- A forced LINK calibration has the lanes of an easel's set out of service (R186). -/
def State.lanesOut (s : State) (e : Nat) : Bool := (s.cond.getD e CondSt.init).runs.any fun r => r.kind == 5 && r.forced && r.running

/-- An easel beside its registers. -/
def State.easel (s : State) (e : Nat) : EaselSt := s.easels.getD e EaselSt.init

/-- A change of one easel. -/
def State.updEasel (s : State) (e : Nat) (f : EaselSt → EaselSt) : State := { s with easels := updAt s.easels e f }

/-- A frame that is OPEN or HELD (R145). -/
def Frame.unsettled (f : Frame) : Bool := f.st == .opened || f.st == .held

/-- The frame that still takes rows: unsettled and not ended (R145). -/
def State.current (s : State) (e : Nat) : Option Frame := (s.easel e).frames.find? fun f => f.unsettled && !f.ended

/-- A group of an easel's set slept while the easel's current frame was OPEN (R118). -/
def State.slept (s : State) (e g : Nat) : Bool := (s.easel e).slept.contains g

/-- A block of a frame-start or frame-end stripe, which travels on the lanes of the set's lowest group: missing while that group is not UP
(R97, R124). -/
def State.onLowest (s : State) (e : Nat) (p : Option (List Byte)) : Option (List Byte) :=
  if s.grpState ((s.easelGroups e).headD 0) = 6 ∧ s.lanesOut e = false then p else none

/-- A set in heritage mode. -/
def State.heritage (s : State) (e : Nat) : Bool := (s.easelGroups e).any fun g => s.on F.BRL_GRP_CFG_mode g

/-- The deskew procedure of the set headed by g0 on half h. -/
def State.deskewOf (s : State) (g0 h : Nat) : Deskew := s.link.deskew.getD (2 * g0 + h) (.collect [])

def State.setDeskew (s : State) (g0 h : Nat) (d : Deskew) : State :=
  { s with link := { s.link with deskew := s.link.deskew.set (2 * g0 + h) d } }

/-- The set's deskew starts over on both halves. -/
def State.restartDeskew (s : State) (g : Nat) (d : Deskew) : State :=
  (s.setDeskew (s.setHead g) 0 d).setDeskew (s.setHead g) 1 d

/-- The 8 payload bytes spell a control block of a type with a good check (R92). -/
def isControl (type : Nat) (p : Option (List Byte)) : Bool :=
  match p with
  | some b => fieldAt b 0 1 == type && crc8Good b
  | none => false

/-- The home half of a row: by band for active rows, by index for optical-black rows (R16, R101). -/
def homeHalf (ob : Bool) (index : Nat) : Nat := if ob then (if index < 32 then 0 else 1) else index / 32 % 2

/-- Blocks the intake chains of a half hold at most: 2 MiB of 8 payload bytes (R74). -/
def intakeBlocks : Nat := 262144

/-- Bits per photosite of a sample format (R92). -/
def formatBits (fmt : Nat) : Nat := if fmt = 0 then 12 else if fmt = 1 then 14 else if fmt = 2 then 24 else 28

/-- Data blocks of a row (R98). -/
def rowBlocks (obCols width fmt : Nat) : Nat := ceilDiv ((obCols + width) * formatBits fmt) 64

/-- The lane positions of a set (R93). -/
def State.setLanes (s : State) (g : Nat) : Nat := 12 * (s.setOf g).length

/-- The lane position of lane m of group g in its set (R93). -/
def State.lanePos (s : State) (g m : Nat) : Nat := 12 * ((s.setOf g).filter (· < g)).length + m

/-- Data blocks of a row of an easel's sensor profile (R98). -/
def State.rowLength (s : State) (e : Nat) : Nat :=
  rowBlocks (s.rd F.EASEL_FMT_ob_cols e) (s.rd F.EASEL_GEOM_width e) (s.rd F.EASEL_FMT_format e)

/-- Blocks that leave a half's intake chains. -/
def State.intakeFree (s : State) (h n : Nat) : State := { s with link := { s.link with intake := updAt s.link.intake h (· - n) } }

/-- The set of an easel leaves UP: a row stripe in progress on it fails its check (R106), which counts once for the easel and once for each
group that saw an invalid header, a lock loss or a deskew loss during it, else for the group that carries the trailer (R110). -/
def State.stripeCut (s : State) (e : Nat) : State :=
  if (s.easel e).stripe then
    let t := ((s.intakeFree 0 ((s.easel e).onWay.getD 0 0)).intakeFree 1 ((s.easel e).onWay.getD 1 0)).updEasel e fun x =>
      { x with stripe := false, onWay := [0, 0] }
    let gs := s.easelGroups e
    let saw := gs.filter fun g => (s.group g).saw
    let blame := if saw.isEmpty then [gs.getD (s.rowLength e % max 1 (12 * gs.length) / 12) 0] else saw
    (t.whenB ((s.current e).isSome && !(s.easel e).discard) fun s =>
      (s.bump F.BRL_EASEL_ERR_row_chk_err e).each blame fun s g => s.bump F.BRL_GRP_ERR_row_chk g).each gs fun s g =>
        s.updGroup g fun x => { x with saw := false }
  else s

/-- A group that leaves UP cuts the row stripe of its set. -/
def State.groupCut (s : State) (g : Nat) : State :=
  s.whenB (s.on F.BRL_GRP_CFG_member g) fun s => s.stripeCut (s.rd F.BRL_GRP_CFG_easel g)

/-! ### Blocks on a lane -/

/-- An intake chain takes a block of a lane position, or the block is discarded and counted, and EV_INTAKE_OVERRUN raised for the easel's
current frame (R74). -/
def State.intakeBlock (s : State) (h e : Nat) (x : BlockPlace) (pos : Nat) : State :=
  if s.link.intake.getD h 0 < intakeBlocks then 
    ({ s with link := { s.link with intake := updAt s.link.intake h (· + 1) } }).updEasel e fun y => { y with onWay := updAt y.onWay h (· + 1) }
  else
    let f := (s.easel e).frames.head?
    let t := s.updEasel e fun y => { y with spilt := y.spilt ++ [(x, pos)] }
    (t.countUp (.overrun e)).raise h Ev.INTAKE_OVERRUN
      (framePayload e (match f with | some f => f.serial | none => 0) (match f with | some f => f.fault | none => 0))

/-- Header 2 and a type of lane header (R92). -/
def isLaneHeader (header type : Nat) : Bool := header == 2 && (type == 0x55 || type == 0x56 || type == 0x57)

/-- A block takes intake room (R101): lane headers, trailers and what is no control block. -/
def takesRoom (header : Nat) (p : List Byte) : Bool :=
  header != 2 || isLaneHeader header (fieldAt p 0 1) || fieldAt p 0 1 == 0x5A

/-- What a lane expects at the next block of its stripe (R96): data, the trailer, a control block, or, once a control block is missing and
no known one has come since, either of them. -/
inductive LanePlace where
  | data | trailer | control | unknown
  deriving DecidableEq, Repr

def LaneSt.place (l : LaneSt) : LanePlace :=
  if 0 < l.data then .data else if l.tail then .trailer else if l.unsure then .unknown else .control

/-- The home half the latest good lane header of a lane routes to (R102). -/
def LaneSt.route (l : LaneSt) : Option Nat := l.row.map fun r => homeHalf r.1 r.2

/-- A block with a control header and a type of R92. -/
def knownControl (header type : Nat) : Bool :=
  header == 2 && [0x1E, 0x2D, 0x40, 0x41, 0x42, 0x55, 0x56, 0x57, 0x5A, 0x66, 0x6C, 0x78].contains type

/-- The lane after a block that is no marker and no lane header: one position of its stripe is used up. What is no known control block in a
control position is a missing one, and may have been a lane header: until a known control block comes the lane does not know its stripe
(R109; log 132). -/
def LaneSt.advance (l : LaneSt) (known : Bool) : LaneSt :=
  let l1 := { l with time := l.time + 1 }
  if 0 < l.data then { l1 with data := l.data - 1 }
  else if l.tail then { l1 with tail := false }
  else if known then { l1 with unsure := false }
  else if l.unsure then l1
  else { l1 with unsure := true, sure := false, time := 0 }

/-- The lane after a lane header (R96, R102): a good one routes what follows, and the lane has its share of the row's items before it. -/
def LaneSt.startStripe (l : LaneSt) (p : List Byte) (pos lanes n : Nat) : LaneSt :=
  let type := fieldAt p 0 1
  let d := { l with data := if pos < n then (n - pos + lanes - 1) / max 1 lanes else 0, tail := n % max 1 lanes == pos,
                    sure := crc8Good p, unsure := false, time := 0 }
  if crc8Good p then { d with row := some (if type = 0x57 then fieldAt p 4 1 == 1 else type == 0x56, fieldAt p 2 2) } else d

/-- The halves a block goes to (R101): data, lane headers and trailers to the home half by the lane's routing; ALIGN, FS0 to FS2 and
FRAME_END to both; IDLE, REG_REPLY and what does not belong at its position to none. -/
def blockHalves (l : LaneSt) (place : LanePlace) (header : Nat) (p : List Byte) : List Nat :=
  let type := fieldAt p 0 1
  if header = 2 then
    if type = 0x2D ∨ type = 0x40 ∨ type = 0x41 ∨ type = 0x42 ∨ type = 0x66 then [0, 1]
    else if isLaneHeader header type || type == 0x5A then l.route.toList else []
  else if place = .data ∨ place = .unknown then l.route.toList else []

/-- What is counted on a lane for a block at a position (R109): an invalid header, or a data block where a control block belongs, in
hdr_invalid; a malformed IDLE, or an invalid type in an idle position, in idle_err. An invalid header while a row stripe is in progress is
seen by the group (R110). -/
def State.blockErrors (s : State) (g m : Nat) (place : LanePlace) (header : Nat) (p : List Byte) : State :=
  let type := fieldAt p 0 1
  if header = 1 then s.whenB (place != .data && place != .unknown) fun s => s.bump F.BRL_LANE_ERR_hdr_invalid g m
  else if header = 2 then
    s.whenB (type == 0x1E && !zeroBytes p 1 8 || !knownControl header type && place == .control) fun s =>
      s.bump F.BRL_LANE_ERR_idle_err g m
  else (s.bump F.BRL_LANE_ERR_hdr_invalid g m).whenB (s.easel (s.rd F.BRL_GRP_CFG_easel g)).stripe fun s =>
    s.updGroup g fun x => { x with saw := true }

/-- A block joins the deskew buffer of its lane on a half (R105). -/
def State.toBuffer (s : State) (h g m : Nat) (x : BufBlock) : State :=
  s.updLane g m fun l => { l with bufs := updAt l.bufs h fun b => (x :: b).take 8 }

/-- A block reaches a half it was routed to (R104, R105, R123): it enters the deskew buffer, and from a set that is UP a block of a row goes on
into the intake chains, or is discarded as an orphan where this half does not home the row. A group that slept in the frame delivers none
of its blocks (R118). -/
def State.linkDeliver (s : State) (h g m : Nat) (place : BlockPlace) (x : BufBlock) : State :=
  let e := s.rd F.BRL_GRP_CFG_easel g
  (s.toBuffer h g m x).whenB (takesRoom x.header x.bytes && s.on F.BRL_GRP_CFG_member g && s.setUp e && !s.slept e g) fun s =>
    if (place.row.map fun r => homeHalf r.1 r.2) = some h then s.intakeBlock h e place (s.lanePos g m) else s.bump F.BRL_EASEL_ORPHAN_orphan e

/-- A block goes over the bridge as received, behind its lane's earlier ones (R17, R21, R103): it lengthens the run in hand, or begins one
with its tag. -/
def LaneSt.forward (l : LaneSt) (pos : Nat) (hist : BitVec 58) (b : LinkBlock) (place : BlockPlace) : LaneSt :=
  match l.running, l.fwd.reverse with
  | true, r :: older => { l with fwd := (({ r with blocks := r.blocks ++ [(b, place)] }) :: older).reverse }
  | _, _ => { l with fwd := l.fwd ++ [{ pos := pos, marker := l.marker, index := l.index, hist := hist, blocks := [(b, place)] }], running := true }

/-- The place of a block on a lane in its row: by the lane's own header when that was good, else by the set's other lanes. -/
def State.placeOf (s : State) (e : Nat) (l : LaneSt) : BlockPlace :=
  { row := if l.sure then l.row else s.link.rowNow.getD e none, time := l.time }

/-- What the lane monitor makes of a descrambled block (R100 to R104): hist is the 58 scrambled bits before it. -/
def State.laneMonitor (s : State) (g m : Nat) (hist : BitVec 58) (b : LinkBlock) (p : List Byte) : State :=
  let e := s.rd F.BRL_GRP_CFG_easel g
  let type := fieldAt p 0 1
  let place := (s.lane g m).place
  let align := b.header == 2 && type == 0x2D
  let starts := isLaneHeader b.header type
  let on := s.on F.BRL_GRP_CFG_member g && s.setUp e
  let t := (s.blockErrors g m place b.header p).updLane g m fun l =>
    let l1 := if align && crc8Good p then { l with marker := fieldAt p 3 3, index := 0 } else { l with index := l.index + 1 }
    if align then l1 else if starts then l1.startStripe p (s.lanePos g m) (s.setLanes g) (s.rowLength e)
    else l1.advance (knownControl b.header type)
  let t0 := t.whenB (starts && on) fun s => s.updEasel e fun x => { x with stripe := true }
  let t1 := if starts && crc8Good p then { t0 with link := { t0.link with rowNow := t0.link.rowNow.set e (t0.lane g m).row } } else t0
  let l := t1.lane g m
  let home := t1.placeOf e l
  let halves := blockHalves l place b.header p
  let own := groupHalf g
  let t2 := t1.whenB (halves.contains own) fun s =>
    s.linkDeliver own g m home { marker := l.marker, index := l.index, header := b.header, bytes := p }
  if halves.contains (1 - own) then t2.updLane g m fun l => l.forward (s.lanePos g m) hist b home
  else t2.updLane g m fun l => { l with running := false }

/-- The group leaves LOCK for SKEW once all 12 lanes are locked and their descramblers synchronised (R122); the set's deskew starts over,
on a waking group from the retained offsets (R119). -/
def State.lockCheck (s : State) (g : Nat) : State :=
  if s.grpState g = 4 ∧ s.rd F.BRL_GRP_STATUS_lane_lock g = 4095 ∧ ((s.group g).lanes.all fun l => !l.first) = true then
    (((s.setGrp g 5).updGroup g fun x => { x with wake := false }).restartDeskew g
      (if (s.group g).wake then .retained else .collect []))
  else s

/-- In native mode the DFE of a lane adapts while its group is UP, unless it is frozen (R85): the taps are a free value. -/
def State.adaptTaps (s : State) (g m : Nat) : State :=
  if s.grpState g = 6 ∧ s.on F.BRL_GRP_CFG_mode g = false ∧ s.on F.BRL_GRP_CTRL_dfe_freeze g = false then
    (s.wr F.BRL_LANE_DFE_taps (Config.dfeTaps s.fresh).toNat g m).tick
  else s

/-- LINK_BLOCK_RECEIVE (R85, R87, R88, R90, R101, R186): the header is checked, the hunt or loss counters advance, and on a locked lane the block is
descrambled and taken by the lane monitor, but for the first after lock. -/
def execLinkBlockReceive (g m : Nat) (b : LinkBlock) (s : State) : Out :=
  let st := s.grpState g
  if (st ≠ 4 ∧ st ≠ 5 ∧ st ≠ 6) ∨ (s.on F.BRL_GRP_CFG_member g && s.lanesOut (s.rd F.BRL_GRP_CFG_easel g)) = true then .next s
  else
    let l := s.lane g m
    let valid := b.header == 1 || b.header == 2
    let (d, hist) := descramble l.hist b.payload
    if !bitOf (s.rd F.BRL_GRP_STATUS_lane_lock g) m then
      .next (s.updLane g m fun l =>
        if valid then { l with run := l.run + 1, hist := hist } else { l with run := 0, offset := (l.offset + 1) % 66, hist := hist })
    else
      let ages := (l.invalids.map (· + 1)).filter (· < 1024)
      let s1 := (s.updLane g m fun l =>
        { l with invalids := if valid then ages else 0 :: ages, hist := hist, first := false }).adaptTaps g m
      if l.first then .next ((s1.whenB (!valid) fun s =>
        s.bump F.BRL_LANE_ERR_hdr_invalid g m).lockCheck g)
      else .next (s1.laneMonitor g m l.hist b (payloadBytes d))

/-- The blocks of a run descrambled from the 58 bits of its tag, counted on from its marker and index (R103). -/
def FwdRun.read : BitVec 58 → Nat → Nat → List (LinkBlock × BlockPlace) → List (BlockPlace × BufBlock)
  | _, _, _, [] => []
  | h, k, i, b :: rest =>
    let d := descramble h b.1.payload
    let p := payloadBytes d.1
    let align := b.1.header == 2 && fieldAt p 0 1 == 0x2D && crc8Good p
    let k' := if align then fieldAt p 3 3 else k
    let i' := if align then 0 else i
    (b.2, { marker := k', index := i', header := b.1.header, bytes := p }) :: FwdRun.read d.2 k' (i' + 1) rest

/-- A run without its first block, its tag moved on by that block (R103). -/
def FwdRun.next (r : FwdRun) : FwdRun :=
  match r.blocks, FwdRun.read r.hist r.marker r.index r.blocks with
  | b :: rest, x :: _ =>
    { r with marker := x.2.marker, index := x.2.index + 1, hist := (descramble r.hist b.1.payload).2, blocks := rest }
  | _, _ => r

/-- A run without its first n blocks. -/
def FwdRun.past : Nat → FwdRun → FwdRun
  | 0, r => r
  | n + 1, r => FwdRun.past n r.next

/-- FORWARDED_RUN_RECEIVE (R17, R21, R103, R104): half h, which does not receive the lane, takes the next n blocks of the lane's oldest run off
the bridge and descrambles them from its tag; each block enters the deskew buffer there and goes on as one received on that half's own lanes.
What is left of the run keeps a tag for its first block. -/
def execForwardedRunReceive (h g m n : Nat) (s : State) : Out :=
  match (s.lane g m).fwd with
  | [] => .next s
  | r :: rest =>
    if h + groupHalf g ≠ 1 then .next s
    else
      let left := if n < r.blocks.length then r.past n :: rest else rest
      let t := s.updLane g m fun l => { l with fwd := left, running := l.running && !left.isEmpty }
      .next (t.each (FwdRun.read r.hist r.marker r.index (r.blocks.take n)) fun s x => s.linkDeliver h g m x.1 x.2)

/-! ### Group states -/

/-- The data symbols of a back-channel command (R112): code, tag, 16-bit address, 32-bit data and the CRC-8 over those 8. That the
address and the data go least significant byte first is a DESIGN CHOICE (log 97). -/
def bcSymbols (code tag addr data : Nat) : List Byte :=
  let x := le 1 code ++ le 1 tag ++ le 2 addr ++ le 4 data
  x ++ [crc8 x]

/-- A sleeping back-channel wakes, with 64 commas before its first command (R120). -/
def State.bcAwake (s : State) (g : Nat) : State :=
  if s.on F.BRL_GRP_STATUS_bc_awake g then s else (s.wr F.BRL_GRP_STATUS_bc_awake 1 g).emit (.commas g 64)

/-- A back-channel command leaves on the BC lane; a sleeping back-channel wakes first (R112, R120). -/
def State.bcSend (s : State) (g code tag addr data : Nat) : State :=
  (s.bcAwake g).emit (.backChannel g (bcSymbols code tag addr data))

/-- A command the part sends itself, with the next tag (R116). -/
def State.bcOwn (s : State) (g code addr data : Nat) : State :=
  let tag := ((s.group g).lastTag + 1) % 256
  (s.updGroup g fun x => { x with lastTag := tag }).bcSend g code tag addr data

/-- LINK_START with the group's rate (R112). -/
def State.linkStart (s : State) (g : Nat) : State := s.bcOwn g 3 0 (s.rd F.BRL_GRP_CFG_rate g)

/-- The group goes OFF (R114, R122): BC stops, and a command in flight ends with no_return. -/
def State.groupOff (s : State) (g : Nat) : State :=
  let t := s.whenB (s.group g).flight.isSome fun s => (s.wr F.BRL_BC_STATUS_busy 0 g).wr F.BRL_BC_STATUS_result 4 g
  ((((t.setGrp g 0).wr F.BRL_GRP_STATUS_ck_good 0 g).wr F.BRL_GRP_STATUS_lane_lock 0 g).wr F.BRL_GRP_STATUS_bc_awake 0 g).updGroup g
    fun x => { x with flight := none, wake := false, saw := false, lanes := List.replicate 12 LaneSt.init }

/-- OFF to BC: enabled with the RX domain released (R122). With bc_sleep still 1 the back-channel starts asleep: no commas, bc_awake 0 and
no BC_SLEEP sent (R120 against the table's "commas sent": DESIGN CHOICE, log 133). -/
def State.groupStart (s : State) (g : Nat) : State :=
  if s.on F.BRL_GRP_CFG_enable g && s.released (2 + g / 2) && s.grpState g == 0 then
    (s.setGrp g 1).wr F.BRL_GRP_STATUS_bc_awake (b2n (!s.on F.BRL_GRP_CTRL_bc_sleep g)) g
  else s

/-- A group enters LOCK: its lanes hunt. -/
def State.toLock (s : State) (g : Nat) : State :=
  ((s.setGrp g 4).wr F.BRL_GRP_STATUS_lane_lock 0 g).updGroup g fun x =>
    { x with lanes := x.lanes.map fun l =>
        { l with run := 0, invalids := [], first := false, data := 0, tail := false, sure := false, unsure := true, running := false } }

/-- A group enters FAIL (R122). -/
def State.groupFail (s : State) (g : Nat) : State :=
  ((s.setGrp g 9).flagCount F.BRL_GRP_FLAGS_train_fail F.BRL_GRP_ERR_train_fail g).raise (groupHalf g) Ev.BRL_TRAIN_FAIL
    (le 1 g ++ le 1 (s.grpState g))

/-- LANE_BLOCK_LOCK (R90, R122): after 64 consecutive valid headers at one offset the lane locks, and the block after them is to be
discarded. With that block, the last lane's descrambler is synchronised and the group moves on (lockCheck). -/
def execLaneBlockLock (g m : Nat) (s : State) : Out :=
  let mask := s.rd F.BRL_GRP_STATUS_lane_lock g
  if (s.grpState g = 4 ∨ s.grpState g = 5 ∨ s.grpState g = 6) ∧ bitOf mask m = false ∧ 64 ≤ (s.lane g m).run then
    .next ((s.wr F.BRL_GRP_STATUS_lane_lock (setBit mask m true) g).updLane g m fun l =>
      { l with first := true, run := 0, invalids := [], data := 0, tail := false, sure := false, unsure := true, running := false })
  else .next s

/-- LANE_LOCK_LOSS (R90, R110, R122): 32 invalid headers within 1,024 blocks; a group in UP returns to LOCK. In LOCK and SKEW, where the table
has no such move, the lane hunts and the group stays. -/
def execLaneLockLoss (g m : Nat) (s : State) : Out :=
  let mask := s.rd F.BRL_GRP_STATUS_lane_lock g
  if bitOf mask m = true ∧ 32 ≤ (s.lane g m).invalids.length then
    let s1 := (((s.wr F.BRL_GRP_STATUS_lane_lock (setBit mask m false) g).flagCount F.BRL_GRP_FLAGS_lock_loss
      F.BRL_GRP_ERR_lock_loss g).updLane g m fun l => { l with run := 0, invalids := [], first := false }).updGroup g fun x => { x with saw := true }
    .next (s1.whenB (s.grpState g == 6) fun s => (s.setGrp g 4).groupCut g)
  else .next s

/-! ### Deskew -/

/-- The spread of the arrivals passes the deskew range of 128 UI + 20 st + 1 cyc@RXGnn (R105), in 1/64 ps: a unit interval
is 512,000 ÷ rate of them, a cycle 66 UI. -/
def State.skewTooWide (s : State) (g spread : Nat) : Bool :=
  let rate := s.rd F.BRL_GRP_CFG_rate g
  decide (194 * 512000 + 20 * s.rd F.GLB_PACE_DEV_code * rate < spread * rate)

/-- The marker count of the newest block in a lane's deskew buffer on a half that is the good ALIGN with this payload (R100, R105). -/
def State.markerIn (s : State) (h g m : Nat) (payload : List Byte) : Option Nat :=
  (((s.lane g m).bufs.getD h []).find? fun x => x.header == 2 && x.bytes == payload && isControl 0x2D (some payload)).map BufBlock.marker

/-- ALIGN_RECEIVE (R105, R106): the marker with this payload that a lane has brought to a home half at time t joins the deskew procedure
there; with a marker of every lane the counts must agree and the arrivals lie within the range. A range_err of a set counts for its lowest group alone, the group its
event names (DESIGN CHOICE, log 98). -/
def execAlignReceive (h g m : Nat) (payload : List Byte) (t : Nat) (s : State) : Out :=
  match s.markerIn h g m payload with
  | none => .next s
  | some count =>
    if s.grpState g ≠ 5 ∧ s.grpState g ≠ 6 then .next s
    else
      let g0 := s.setHead g
      match s.deskewOf g0 h with
      | .collect got =>
        let p := s.lanePos g m
        let got' := (p, count, t) :: got.filter fun x => x.1 ≠ p
        if got'.length < s.setLanes g then .next (s.setDeskew g0 h (.collect got'))
        else
          let top := listMax (got'.map fun x => x.2.1)
          if got'.any (fun x => x.2.1 != top) then
            .next (s.setDeskew g0 h (.collect (got'.filter fun x => x.2.1 == top)))
          else if s.skewTooWide g (listMax (got'.map fun x => x.2.2) - listMin (got'.map fun x => x.2.2)) then
            .next (((s.setDeskew g0 h (.collect [])).bump F.BRL_GRP_ERR_skew_loss g0).raise (groupHalf g0) Ev.BRL_SKEW_LOSS (le 1 g0 ++ le 1 2))
          else .next (s.setDeskew g0 h (.confirm top 0 true))
      | _ => .next s

/-- A group in SKEW enters UP (R122). -/
def State.groupUp (s : State) (g : Nat) : State :=
  if s.grpState g = 5 then ((s.setGrp g 6).updGroup g fun x => { x with saw := false }).raise (groupHalf g) Ev.BRL_UP (le 1 g) else s

/-- The set is confirmed on a home half; with both halves confirmed its groups enter UP (R106, R123). -/
def State.confirmSet (s : State) (g0 h count : Nat) : State :=
  let t := s.setDeskew g0 h (.service count 0)
  match t.deskewOf g0 (1 - h) with
  | .service _ _ => t.each (t.setOf g0) State.groupUp
  | _ => t

/-- What the lanes of a set read at a marker cycle, with an unlocked lane's marker missed (R124). -/
def State.lockedReads (s : State) (g : Nat) (reads : List (Option Nat)) : List (Option Nat) :=
  (withIndex reads).map fun x =>
    if bitOf (s.rd F.BRL_GRP_STATUS_lane_lock ((s.setOf g).getD (x.1 / 12) g)) (x.1 % 12) then x.2 else none

/-- DESKEW_MARKER_CYCLE (R106, R119, R124): the marker counts the lanes of the set read in one cycle of a home half's buffers. -/
def execDeskewMarkerCycle (h g : Nat) (read : List (Option Nat)) (s : State) : Out :=
  let g0 := s.setHead g
  let reads := s.lockedReads g read
  let full := reads.length == s.setLanes g
  match s.deskewOf g0 h with
  | .collect _ => .next s
  | .confirm count checks ok =>
    let want := (count + 1) % 16777216
    let ok' := ok && full && reads.all (· == some want)
    if checks = 0 then .next (s.setDeskew g0 h (.confirm want 1 ok'))
    else if ok' then .next (s.confirmSet g0 h want) else .next (s.setDeskew g0 h (.collect []))
  | .retained =>
    match reads.headD none with
    | some c => if full && reads.all (· == some c) then .next (s.confirmSet g0 h c) else .next (s.setDeskew g0 h (.collect []))
    | none => .next (s.setDeskew g0 h (.collect []))
  | .service count misses =>
    let want := (count + 1) % 16777216
    if full && reads.all (· == some want) then .next (s.setDeskew g0 h (.service want 0))
    else if misses = 0 then .next (s.setDeskew g0 h (.service want 1))
    else
      let t := (s.restartDeskew g (.collect [])).each (s.setOf g) fun s k =>
        if s.grpState k = 6 then ((s.setGrp k 5).flagCount F.BRL_GRP_FLAGS_skew_loss F.BRL_GRP_ERR_skew_loss k).updGroup k fun x => { x with saw := true }
        else s
      .next ((t.groupCut g).raise (groupHalf g0) Ev.BRL_SKEW_LOSS (le 1 g0 ++ le 1 1))

/-! ### Register writes and training -/

/-- BRL_TRAIN (R86, R122, R123): from BC or FAIL with the easel closed, the heritage pre-emphasis writes and LINK_START. The easel of a group
is the one its easel field names, whether or not the group is a member of the set (DESIGN CHOICE, log 98); an opening or closing easel
refuses the write as an open one does (DESIGN CHOICE, log 133). -/
def execBrlTrain (g : Nat) (s : State) : Out :=
  let st := s.grpState g
  let closed := s.rd F.EASEL_STATUS_state (s.rd F.BRL_GRP_CFG_easel g) == 0
  if (st = 1 ∨ st = 9) ∧ closed = true then
    let t := (s.setGrp g 2).updGroup g fun x => { x with wake := false }
    .next ((t.whenB (s.on F.BRL_GRP_CFG_mode g) fun s =>
      ((s.bcOwn g 1 0x0120 (s.rd F.BRL_GRP_EQ_pre g)).bcOwn g 1 0x0121 (s.rd F.BRL_GRP_EQ_main g)).bcOwn g 1 0x0122
        (s.rd F.BRL_GRP_EQ_post g)).linkStart g)
  else if st = 0 ∧ closed = true then .next s
  else .next (s.wr F.BRL_GRP_FLAGS_cfg_refused 1 g)

/-- BRL_CK_MEASURED (R84, R119, R122): CK within 1% of rate × 62,500 kHz reaches clock-good and moves the group to ADAPT,
or to LOCK when it wakes; otherwise training fails. -/
def execBrlCkMeasured (g khz : Nat) (s : State) : Out :=
  if s.grpState g = 2 then
    let want := s.rd F.BRL_GRP_CFG_rate g * 62500
    if want < (max khz want - min khz want) * 100 then .next (s.groupFail g)
    else
      let t := s.wr F.BRL_GRP_STATUS_ck_good 1 g
      .next (if (s.group g).wake then t.toLock g else t.setGrp g 3)
  else .next s

/-- BRL_ADAPT_DONE (R85, R122): the adaptation period ends, CTLE is held and the group hunts for lock. In native mode the
adapted CTLE and the DFE taps become readable; taps that are frozen are held (R85). -/
def execBrlAdaptDone (g ctle : Nat) (taps : List Nat) (s : State) : Out :=
  if s.grpState g = 3 then
    let t := s.toLock g
    .next (if s.on F.BRL_GRP_CFG_mode g then t.updGroup g fun x => { x with ctle := none }
      else (t.updGroup g fun x => { x with ctle := some (ctle % 16) }).each (List.range 12) fun s m =>
        s.whenB (!s.on F.BRL_GRP_CTRL_dfe_freeze g) fun s => s.wr F.BRL_LANE_DFE_taps (taps.getD m 0) g m)
  else .next s

/-- A group sleeps in a frame of its easel that is OPEN: it delivers none of that frame's remaining blocks (R118). -/
def State.sleepMark (s : State) (g : Nat) : State :=
  let e := s.rd F.BRL_GRP_CFG_easel g
  let opened := match s.current e with | some f => f.st == .opened | none => false
  s.whenB (s.on F.BRL_GRP_CFG_member g && opened) fun s => s.updEasel e fun x => { x with slept := g :: x.slept }

/-- BRL_SLEEP_RECEIVE (R117, R118, R122): a group in UP sleeps; taps, CTLE and offsets are kept. -/
def execBrlSleepReceive (g : Nat) (s : State) : Out :=
  if s.grpState g = 6 then
    .next (((((s.setGrp g 7).wr F.BRL_GRP_STATUS_ck_good 0 g).wr F.BRL_GRP_STATUS_lane_lock 0 g).groupCut g).sleepMark g)
  else .next s

/-- BRL_CK_RESTART (R119, R122). -/
def execBrlCkRestart (g : Nat) (s : State) : Out :=
  if s.grpState g = 7 then .next ((s.setGrp g 2).updGroup g fun x => { x with wake := true }) else .next s

/-- TRAINING_TIMEOUT (R122): the timer runs in CLK, ADAPT, LOCK and SKEW. -/
def execTrainingTimeout (g : Nat) (s : State) : Out :=
  let st := s.grpState g
  if st = 2 ∨ st = 3 ∨ st = 4 ∨ st = 5 then .next (s.groupFail g) else .next s

/-- BRL_TEST_MODE_SET (R121): only while the group is UP and its easel closed. -/
def execBrlTestModeSet (g : Nat) (s : State) : Out :=
  if s.grpState g = 6 ∧ s.rd F.EASEL_STATUS_state (s.rd F.BRL_GRP_CFG_easel g) = 0 then
    .next ((((s.wr F.BRL_GRP_CTRL_test_mode 1 g).setGrp g 8).bcOwn g 5 0 (s.rd F.BRL_GRP_CTRL_test_pattern g)).updGroup g fun x =>
      { x with lanes := x.lanes.map fun l => { l with prbsSeen := 0 } })
  else .next (s.wr F.BRL_GRP_FLAGS_cfg_refused 1 g)

/-- BRL_TEST_MODE_CLEAR (R121): LINK_START, and the group relocks from LOCK. -/
def execBrlTestModeClear (g : Nat) (s : State) : Out :=
  let t := s.wr F.BRL_GRP_CTRL_test_mode 0 g
  if s.grpState g = 8 then .next ((t.linkStart g).toLock g) else .next t

/-- The PRBS bit the register expects next: PRBS31 is x^31 + x^28 + 1, PRBS15 is x^15 + x^14 + 1 (R121). -/
def prbsNext (p15 : Bool) (r : BitVec 31) : Bool :=
  if p15 then r.getLsbD 14 ^^ r.getLsbD 13 else r.getLsbD 30 ^^ r.getLsbD 27

/-- One received PRBS bit: the checker fills its register from the pattern, then runs it freely and compares. -/
def prbsBit (p15 : Bool) (a : LaneSt × Nat) (b : Bool) : LaneSt × Nat :=
  let l := a.1
  if l.prbsSeen < (if p15 then 15 else 31) then
    ({ l with prbsSeen := l.prbsSeen + 1, prbs := (l.prbs <<< 1) ||| BitVec.ofNat 31 (b2n b) }, a.2)
  else
    let x := prbsNext p15 l.prbs
    ({ l with prbs := (l.prbs <<< 1) ||| BitVec.ofNat 31 (b2n x) }, if b = x then a.2 else a.2 + 1)

/-- LANE_PRBS_RECEIVE (R121): bit errors count per lane, bits checked per group in units of 1,024. The pattern is the register's as it
stands: one rewritten in TEST switches the checker at once, and no new TEST is sent (DESIGN CHOICE, log 133). -/
def execLanePrbsReceive (g m : Nat) (bits : List Bool) (s : State) : Out :=
  if s.grpState g = 8 then
    let p15 := s.on F.BRL_GRP_CTRL_test_pattern g
    let l := s.lane g m
    let r := bits.foldl (prbsBit p15) (l, 0)
    let n := bits.length - ((if p15 then 15 else 31) - l.prbsSeen)
    let total := (s.group g).bits + n
    .next ((((s.updLane g m fun _ => r.1).bump F.BRL_LANE_ERR_prbs g m r.2).updGroup g fun x => { x with bits := total % 1024 }).bump
      F.BRL_GRP_BITS_bits_k g 0 (total / 1024))
  else .next s

/-! ### The back-channel -/

/-- BRL_BC_SLEEP (R120): BC_SLEEP is sent, then BC stops. -/
def execBrlBcSleep (g : Nat) (s : State) : Out :=
  let t := s.wr F.BRL_GRP_CTRL_bc_sleep 1 g
  if s.on F.BRL_GRP_STATUS_bc_awake g then .next ((t.bcOwn g 4 0 0).wr F.BRL_GRP_STATUS_bc_awake 0 g) else .next t

/-- BRL_BC_WAKE (R120): bc_sleep is cleared, and 64 commas are sent before the first command. -/
def execBrlBcWake (g : Nat) (s : State) : Out :=
  let t := s.wr F.BRL_GRP_CTRL_bc_sleep 0 g
  .next (if s.grpState g = 0 then t else t.bcAwake g)

/-- BC_CMD_GO (R112, R114, R115): the data symbols of a READ hold BRL_BC_DATA too, which the table leaves open (DESIGN CHOICE, log 133). A code other than READ and WRITE ends with bad_code, a group not UP with no_return; go is
ignored while a command is in flight. -/
def execBcCmdGo (g v : Nat) (s : State) : Out :=
  let code := bitsOf v 26 24
  let tag := bitsOf v 23 16
  let t := ((s.wr F.BRL_BC_CMD_code code g).wr F.BRL_BC_CMD_tag tag g).wr F.BRL_BC_CMD_address (bitsOf v 15 0) g
  if (s.group g).flight.isSome then .next t
  else if code ≠ 1 ∧ code ≠ 2 then .next (t.wr F.BRL_BC_STATUS_result 6 g)
  else if s.grpState g ≠ 6 then .next (t.wr F.BRL_BC_STATUS_result 4 g)
  else .next (((t.wr F.BRL_BC_STATUS_busy 1 g).updGroup g fun x =>
      { x with flight := some { tag := tag, code := code, ticket := none }, lastTag := tag }).bcSend g
        (if code = 1 then 1 else 2) tag (bitsOf v 15 0) (s.rd F.BRL_BC_DATA_data g))

end Sys2Proof.Machine
end

