-- ==== Sys2Proof/Machine/Cond.lean ====
section
/-! DEFINITION. Raw conditioning (spec/05): fusion, black level, defects, column pattern, shading and output of one row,
and the black unit. -/
namespace Sys2Proof.Machine

/-! ### Shared parts -/

/-- The conditioning of an easel beside its registers. -/
def State.condOf (s : State) (e : Nat) : CondSt := s.cond.getD e CondSt.init

def State.updCond (s : State) (e : Nat) (f : CondSt → CondSt) : State := { s with cond := updAt s.cond e f }

/-- The conditioning of a frame. -/
def State.condFrame (s : State) (e serial : Nat) : Option CondFrame := (s.condOf e).frames.find? fun f => f.serial == serial

def State.updCondFrame (s : State) (e serial : Nat) (f : CondFrame → CondFrame) : State :=
  s.updCond e fun c => { c with frames := c.frames.map fun x => if x.serial = serial then f x else x }

/-- A field of a committed set. -/
def CondSet.rd (c : CondSet) (f : Fld) (e : Nat) (j : Nat := 0) : Nat := c.regs.get ⟨f.base, f.lo, e, j⟩ f.reset

def CondSet.on (c : CondSet) (f : Fld) (e : Nat) : Bool := c.rd f e == 1

/-- The shadow registers of an easel, COND_STAGES to COND_COLGAIN_BASE_HI (R178). -/
def State.condShadow (s : State) (e : Nat) : RegStore :=
  s.cfg.filter fun x => decide (F.COND_STAGES_wb.base ≤ x.1.base) && decide (x.1.base ≤ F.COND_COLGAIN_BASE_HI_value.base)
    && x.1.i == e

/-- The channel of a position (R160). -/
def channel (x y : Nat) : Nat := 2 * (y % 2) + x % 2

/-- The photosites of a row payload, optical-black columns first (R98). -/
def photosites (fmt n : Nat) (data : List Byte) : List Nat :=
  let v := ofLe data
  (List.range n).map fun k => v / 2 ^ (formatBits fmt * k) % 2 ^ formatBits fmt

/-! ### Stage 2: fusion -/

/-- A product with k fraction bits rounded to an integer, ties away from zero (R161). -/
def roundAway (n : Int) (k : Nat) : Int :=
  if n < 0 then -(((n.natAbs + 2 ^ (k - 1)) / 2 ^ k : Nat) : Int) else ((n.natAbs + 2 ^ (k - 1)) / 2 ^ k : Nat)

/-- The gain of the low-gain sample with 24 fraction bits (R161): an optical-black column has no column gain. -/
def CondSet.lowGain (c : CondSet) (e : Nat) (col : Option Nat) : Nat :=
  let ratio := c.rd F.COND_FUSE_RATIO_ratio e
  match col with
  | some x => if c.on F.COND_STAGES_colgain e then ratio * c.colgain.getD x 16384 else ratio * 16384
  | none => ratio * 16384

/-- The weight of the high-gain sample (R161). -/
def CondSet.weight (c : CondSet) (e h : Nat) : Nat :=
  let knee := c.rd F.COND_FUSE_KNEE_knee e
  if !c.on F.COND_STAGES_fuse e then 256
  else if c.rd F.COND_FUSE_SAT_sat_hi e ≤ h then 0
  else if h ≤ knee then 256
  else 256 - (h - knee) * c.rd F.COND_FUSE_KNEE_slope e / 256

/-- Stage 2 of a photosite word (R161 to R163): the fused value F, or none when it is clipped. -/
def CondSet.fuse (c : CondSet) (e fmt : Nat) (col : Option Nat) (w : Nat) : Option Int :=
  let pedHi := c.rd F.COND_FUSE_PED_ped_hi e
  if fmt < 2 then (if c.rd F.COND_FUSE_SAT_sat_hi e ≤ w then none else some ((w : Int) - pedHi))
  else
    let b := formatBits fmt / 2
    let l := w % 2 ^ b
    let h := w / 2 ^ b % 2 ^ b
    if c.rd F.COND_FUSE_SAT_sat_lo e ≤ l then none
    else
      let hm := (h : Int) - pedHi
      let ls := roundAway (((l : Int) - c.rd F.COND_FUSE_PED_ped_lo e) * c.lowGain e col) 24
      let k : Int := c.weight e h
      some ((k * hm + (256 - k) * ls + 128) / 256)

/-! ### Black level -/

/-- The optical-black source of a frame (R165): 1 rows, 2 columns, 0 none. -/
def Frame.blackSource (f : Frame) : Nat := if 4 ≤ f.obRows then 1 else if 16 ≤ f.obCols then 2 else 0

/-- Rows of a frame the tile assembler holds with their payload. -/
def State.rowsOf (s : State) (e serial : Nat) (ob : Bool) : List RowData :=
  s.link.rows.filter fun r => r.easel == e && r.serial == serial && r.ob == ob && !r.data.isEmpty

/-- The fused samples of an optical-black row with their positions, clipped ones left out. -/
def CondSet.obRow (c : CondSet) (e : Nat) (f : Frame) (r : RowData) : List (Nat × Int) :=
  (withIndex (photosites f.fmt (f.obCols + f.width) r.data)).filterMap fun p =>
    (c.fuse e f.fmt (if f.obCols ≤ p.1 then some (p.1 - f.obCols) else none) p.2).map fun v => (p.1, v)

/-- Channel c of the samples of optical-black rows: their grid runs on from the active area (R160). -/
def CondSet.obSamples (c : CondSet) (e : Nat) (f : Frame) (rows : List RowData) (ch : Nat) : List Int :=
  rows.flatMap fun r => (c.obRow e f r).filterMap fun p =>
    if channel (p.1 + f.obCols) (r.index + f.obRows) = ch then some p.2 else none

/-- Channel c of the optical-black columns of active rows. -/
def CondSet.colSamples (c : CondSet) (e : Nat) (f : Frame) (rows : List RowData) (ch : Nat) : List Int :=
  rows.flatMap fun r => (withIndex (photosites f.fmt f.obCols r.data)).filterMap fun p =>
    if channel (p.1 + f.obCols) r.index = ch then c.fuse e f.fmt none p.2 else none

/-- The sum of whole numbers. -/
def sumInt (l : List Int) : Int := l.foldl (· + ·) 0

/-- The samples within the window of S(c) (R165). -/
def CondSet.inWindow (c : CondSet) (e : Nat) (filt : Frac) (l : List Int) : List Int :=
  l.filter fun v => Frac.le (Frac.abs (Frac.sub (v, 1) filt)) (Frac.ofNat (c.rd F.COND_BLACK_CFG_window e))

/-- E(c) and whether it is weak (R165). -/
def CondSet.estimate (c : CondSet) (e : Nat) (filt : Frac) (l : List Int) : Frac × Bool :=
  let kept := c.inWindow e filt l
  if kept.length < 64 * c.rd F.COND_BLACK_CFG_min_k e then (filt, true)
  else if kept.isEmpty then (filt, false)
  else (fp (sumInt kept, kept.length), false)

/-- B(c) = S(c) + (E(c) − S(c)) × 2^−k (R166). -/
def CondSet.filter (c : CondSet) (e : Nat) (filt est : Frac) : Frac :=
  fp (Frac.add filt (fp (Frac.shr (fp (Frac.sub est filt)) (c.rd F.COND_BLACK_CFG_shift e))))

/-- The rows of the column source at row y: y and up to 15 preceding rows of the same parity (R165). -/
def colWindow (rows : List RowData) (y : Nat) : List RowData :=
  rows.filter fun r => decide (r.index ≤ y) && r.index % 2 == y % 2 && decide (y - r.index ≤ 30)

/-- The raw estimate of channel ch at row y, and whether it is weak (R165). -/
def State.rawBlack (s : State) (e : Nat) (f : Frame) (cf : CondFrame) (y ch : Nat) : Frac × Bool :=
  let filt := cf.filt.getD ch (0, 1)
  if f.blackSource = 1 then cf.set.estimate e filt (cf.set.obSamples e f (s.rowsOf e f.serial true) ch)
  else if f.blackSource = 2 then
    cf.set.estimate e filt (cf.set.colSamples e f (colWindow (s.rowsOf e f.serial false) y) ch)
  else (filt, false)

/-- B(c) of the four channels at row y (R165, R166). A channel of the other row parity keeps S(c) in the column source. -/
def State.blacks (s : State) (e : Nat) (f : Frame) (cf : CondFrame) (y : Nat) : List Frac :=
  match cf.black with
  | some l => l
  | none => (List.range 4).map fun ch => cf.set.filter e (cf.filt.getD ch (0, 1)) (s.rawBlack e f cf y ch).1

/-- The channels whose estimate is weak at row y. -/
def State.weakChannels (s : State) (e : Nat) (f : Frame) (cf : CondFrame) (y : Nat) : List Nat :=
  (List.range 4).filter fun ch => (f.blackSource == 1 || ch / 2 == y % 2) && f.blackSource != 0 && (s.rawBlack e f cf y ch).2

/-- Weak channels are reported once a frame: flag, count and event (R165). -/
def State.reportWeak (s : State) (e : Nat) (cf : CondFrame) (weak : List Nat) : State :=
  let new := weak.filter fun c => !cf.weak.contains c
  (s.each new fun s _ => (s.flagCount F.COND_FLAGS_black_weak F.COND_CNT_black_weak e).raise 0 Ev.COND_BLACK_WEAK []).updCondFrame e
    cf.serial fun x => { x with weak := x.weak ++ new }

/-- The last row index of a parity whose payload came in. -/
def lastRowOf (rows : List RowData) (parity : Nat) : Nat := listMax ((rows.filter fun r => r.index % 2 == parity).map RowData.index)

/-- B(c) as a frame's records name it (R168): with the column source that of its last row of each parity. -/
def State.frameBlack (s : State) (e : Nat) (f : Frame) (cf : CondFrame) : List Frac :=
  if f.blackSource = 2 then
    let rows := s.rowsOf e f.serial false
    let even := s.blacks e f cf (lastRowOf rows 0)
    let odd := s.blacks e f cf (lastRowOf rows 1)
    [even.getD 0 (0, 1), even.getD 1 (0, 1), odd.getD 2 (0, 1), odd.getD 3 (0, 1)]
  else s.blacks e f cf 0

/-- A black in 1/16 LSB as registers and records hold it: 16 bits, signed. -/
def blackCode (b : Frac) : Nat := ofSigned 16 (clampInt (-32768) 32767 (openRound 0 (Frac.mul b (16, 1))))

/-- An entry of a column table (R174): limited to ±clamp and to signed 16 bits. -/
def columnEntry (lim : Nat) (v : Int) : Int := clampInt (-(min lim 32768 : Nat) : Int) (min lim 32767 : Nat) v

/-- The row offset of channel ch (R167): the mean of the row's optical-black column samples less B(c), within ±clamp. -/
def CondSet.rowOffset (c : CondSet) (e : Nat) (f : Frame) (r : Option RowData) (black : Frac) (ch : Nat) : Frac :=
  match r with
  | none => (0, 1)
  | some r =>
    let l := c.colSamples e f [r] ch
    let lim := Frac.mk' (c.rd F.COND_COLFPN_CFG_clamp e) 16
    if l.isEmpty then (0, 1)
    else Frac.max (Frac.neg lim) (Frac.min lim (fp (Frac.sub (fp (sumInt l, l.length)) black)))

/-! ### Stages 4 to 9 of one row -/

/-- What a brush works on in one row: the set, the frame's profile, its column table, B(c) and row offsets by channel, and the
photosites, zero where the row was not received (R152). -/
structure BrushRow where
  set : CondSet
  easel : Nat
  frame : Frame
  table : List Int
  black : List Frac
  offset : List Frac
  y : Nat
  sites : List Nat

/-- Stage 4 (R167): none for a clipped photosite. -/
def BrushRow.level (r : BrushRow) (x : Nat) : Option Frac :=
  (r.set.fuse r.easel r.frame.fmt (some x) (r.sites.getD (r.frame.obCols + x) 0)).map fun v =>
    let ch := channel x r.y
    let a := if r.set.on F.COND_STAGES_black r.easel then fp (Frac.sub (v, 1) (r.black.getD ch (0, 1))) else (v, 1)
    if r.offset.isEmpty then a else fp (Frac.sub a (r.offset.getD ch (0, 1)))

/-- A photosite the defect map lists, with stage map enabled (R170). -/
def BrushRow.listed (r : BrushRow) (x : Nat) : Bool :=
  r.set.on F.COND_STAGES_map r.easel && r.set.map.any fun m =>
    m % 32768 == x && (if bitsOf m 31 30 = 1 then decide (bitsOf m 29 15 ≤ r.y) else bitsOf m 29 15 == r.y)

/-- A neighbour value that is available: inside the row, neither listed nor clipped (R172). -/
def BrushRow.avail (r : BrushRow) (x : Nat) : Option Frac :=
  if x < r.frame.width ∧ r.listed x = false then r.level x else none

/-- The available neighbours at columns −4, −2, +2 and +4 of the same channel. -/
def BrushRow.near (r : BrushRow) (x : Nat) : List (Option Frac) :=
  [if 4 ≤ x then r.avail (x - 4) else none, if 2 ≤ x then r.avail (x - 2) else none, r.avail (x + 2), r.avail (x + 4)]

/-- t_abs + t_rel × |m| (R172). -/
def BrushRow.threshold (r : BrushRow) (m : Frac) : Frac :=
  fp (Frac.add (Frac.ofNat (r.set.rd F.COND_HOT_CFG_t_abs r.easel))
    (fp (Frac.mul (Frac.mk' (r.set.rd F.COND_HOT_CFG_t_rel r.easel) 256) (Frac.abs m))))

/-- The live detector (R172). -/
def BrushRow.detect (r : BrushRow) (x : Nat) (v : Frac) : Bool :=
  match (r.near x).filterMap id with
  | a :: b :: l =>
    let hi := (b :: l).foldl Frac.max a
    let lo := (b :: l).foldl Frac.min a
    (r.set.on F.COND_STAGES_hot r.easel && Frac.lt (r.threshold hi) (fp (Frac.sub v hi)))
      || (r.set.on F.COND_STAGES_cold r.easel && Frac.lt (r.threshold lo) (fp (Frac.sub lo v)))
  | _ => false

/-- The replacement of a defect (R173): none when no neighbour is available. -/
def BrushRow.replace (r : BrushRow) (x : Nat) : Option Frac :=
  let n := r.near x
  let left := (n.getD 1 none).orElse fun _ => n.getD 0 none
  let right := (n.getD 2 none).orElse fun _ => n.getD 3 none
  match left, right with
  | some a, some b => some (fp (Frac.shr (fp (Frac.add a b)) 1))
  | some a, none => some a
  | none, some b => some b
  | none, none => none

/-- A shading gain node (R176). -/
def CondSet.node (c : CondSet) (ch i j : Nat) : Frac := Frac.mk' (c.shade.getD ((ch * 33 + j) * 65 + i) 0) 4096

/-- The shading gain at a position (R159, R176): the bilinear blend of four nodes, every operation in binary32. The order of the operations,
columns before rows, is not given (DESIGN CHOICE, log 36). -/
def BrushRow.shade (r : BrushRow) (x : Nat) : Frac :=
  let u := fp (Frac.mk' (64 * x) r.frame.width)
  let v := fp (Frac.mk' (32 * r.y) r.frame.height)
  let i := (Frac.floor u).toNat
  let j := (Frac.floor v).toNat
  let fx := fp (Frac.sub u (Frac.ofNat i))
  let fy := fp (Frac.sub v (Frac.ofNat j))
  let g := r.set.node (channel x r.y)
  let blend := fun t a b : Frac => fp (Frac.add (fp (Frac.mul (fp (Frac.sub (1, 1) t)) a)) (fp (Frac.mul t b)))
  blend fy (blend fx (g i j) (g (i + 1) j)) (blend fx (g i (j + 1)) (g (i + 1) (j + 1)))

/-- A register gain in binary32. -/
def CondSet.gain (c : CondSet) (f : Fld) (e j : Nat) : Frac := (fpOfBits (c.rd f e j)).getD (0, 1)

/-- Stages 6 to 9 (R174, R176, R177). -/
def BrushRow.output (r : BrushRow) (x : Nat) (v : Frac) : Nat :=
  let a := if r.set.on F.COND_STAGES_colfpn r.easel then fp (Frac.sub v (r.table.getD x 0, 16)) else v
  let b := if r.set.on F.COND_STAGES_shade r.easel then fp (Frac.mul a (r.shade x)) else a
  let c := if r.set.on F.COND_STAGES_wb r.easel then fp (Frac.mul b (r.set.gain F.COND_WB_value r.easel (channel x r.y))) else b
  let d := fp (Frac.add (fp (Frac.mul c (r.set.gain F.COND_OUT_GAIN_value r.easel 0)))
    (Frac.ofNat (r.set.rd F.COND_OUT_PED_out_ped r.easel)))
  (clampInt 0 65535 (Frac.rne d)).toNat

/-- One photosite through stages 2 to 9: its sample, whether the live detector found it, and whether it was kept
uncorrected (R162, R172, R173). -/
def BrushRow.site (r : BrushRow) (x : Nat) : Nat × Bool × Bool :=
  match r.level x with
  | none => (65535, false, false)
  | some v =>
    let listed := r.listed x
    let hit := !listed && r.detect x v
    if listed || hit then
      match r.replace x with
      | some w => (r.output x w, hit, false)
      | none => (r.output x v, hit, true)
    else (r.output x v, false, false)

/-- The FUSE sums of a photosite (R180): h_m and l_m × ratio where knee − 1,024 ≤ h < knee and l < sat_lo. -/
def BrushRow.fuseSite (r : BrushRow) (x : Nat) : Option (Int × Int) :=
  let c := r.set
  let e := r.easel
  let b := formatBits r.frame.fmt / 2
  let w := r.sites.getD (r.frame.obCols + x) 0
  let l := w % 2 ^ b
  let h := w / 2 ^ b % 2 ^ b
  let knee := c.rd F.COND_FUSE_KNEE_knee e
  if 2 ≤ r.frame.fmt ∧ knee ≤ h + 1024 ∧ h < knee ∧ l < c.rd F.COND_FUSE_SAT_sat_lo e then
    some ((h : Int) - c.rd F.COND_FUSE_PED_ped_hi e, ((l : Int) - c.rd F.COND_FUSE_PED_ped_lo e) * c.rd F.COND_FUSE_RATIO_ratio e)
  else none

/-- The brush's view of row y of a frame. -/
def State.brushRow (s : State) (e : Nat) (f : Frame) (cf : CondFrame) (y : Nat) : BrushRow :=
  let r := (s.rowsOf e f.serial false).find? fun r => r.index == y
  let black := s.blacks e f cf y
  let corr := cf.set.on F.COND_STAGES_rowcorr e && f.blackSource == 1 && decide (16 ≤ f.obCols) && cf.set.on F.COND_STAGES_black e
  { set := cf.set, easel := e, frame := f, table := cf.table, black := black,
    offset := if corr then (List.range 4).map fun ch => cf.set.rowOffset e f r (black.getD ch (0, 1)) ch else [],
    y := y, sites := match r with | some r => photosites f.fmt (f.obCols + f.width) r.data | none => [] }

/-! ### Ends of runs -/

/-- Calibration runs of an easel that closes end unfinished (R190). -/
def State.condClosed (s : State) (e : Nat) : State :=
  let c := s.condOf e
  (s.each ((c.runs ++ c.results).flatMap CalRun.cmds) fun s id => s.complete id St.EASEL_CLOSED).updCond e fun c =>
    { c with runs := [], results := [] }

end Sys2Proof.Machine
end

