-- ==== Sys2Proof/Machine/ViewSets.lean ====
section
/-! DEFINITION. The views' sets and their picture rings (spec/06, R219, R222, R225). -/
namespace Sys2Proof.Machine

def State.view (s : State) (v : Nat) : ViewSt := s.views.getD v ViewSt.init

def State.updView (s : State) (v : Nat) (f : ViewSt → ViewSt) : State := { s with views := updAt s.views v f }

def viewUses (r : RegStore) (v : Nat) : Option Nat :=
  if regOn r F.VIEW_CTRL_shaper v || regOn r F.VIEW_CTRL_lut v then some (regOf r F.VIEW_CTRL_slot v) else none

/-- The slots selected in the sets in force, checked or waiting, as a bit mask. -/
def slotMask (l : List (Option Nat)) : Nat := (l.filterMap id).foldl (fun m k => setBit m k true) 0

def State.viewSlots (s : State) (v : Nat) : State :=
  let p := s.view v
  let loaded := (withIndex p.slots).foldl (fun m k => if k.2.place.isSome && !k.2.loading then setBit m k.1 true else m) 0
  (s.wr F.VIEW_SLOTS_loaded loaded v).wr F.VIEW_SLOTS_in_use
    (slotMask [viewUses p.inForce v, p.check.bind fun r => viewUses r v, p.ready.bind fun r => viewUses r v]) v

/-- A slot that holds a verified image. -/
def slotLoaded (l : List PalSlot) (k : Nat) : Bool :=
  match l[k]? with
  | some x => x.place.isSome && !x.loading
  | none => false

/-- Plane sizes of a picture (R218, R219): width and height of each plane in order. -/
def planeSizes (fmt w h : Nat) : List (Nat × Nat) :=
  if fmt = 1 then [(w, h), (w / 2, h), (w / 2, h)]
  else if fmt = 2 then [(w, h), (w / 2, h / 2), (w / 2, h / 2)]
  else [(w, h), (w, h), (w, h)]

/-- The pitch of a plane line (R219). -/
def pitch (w : Nat) : Nat := ceilDiv (2 * w) 64 * 64

/-- The size of a ring slot (R219). -/
def viewSlotSize (r : RegStore) (v : Nat) : Nat :=
  let planes := planeSizes (regOf r F.VIEW_FMT_format v) (regOf r F.VIEW_OUT_SIZE_x v) (regOf r F.VIEW_OUT_SIZE_y v)
  ceilDiv (64 + (planes.map fun p => pitch p.1 * p.2).foldl (· + ·) 0) 4096 * 4096

/-- A set changes the picture that consumers see (R224). -/
def pictureChanges (a b : RegStore) (v : Nat) : Bool :=
  [F.VIEW_OUT_SIZE_x, F.VIEW_OUT_SIZE_y, F.VIEW_FMT_coef, F.VIEW_FMT_range, F.VIEW_FMT_matrix, F.VIEW_FMT_depth,
    F.VIEW_FMT_format, F.VIEW_RING_CFG_depth].any fun f => regOf a f v != regOf b f v

/-- A ring of free slots. -/
def freshRing (depth : Nat) : List ViewSlot :=
  List.replicate depth { used := false, writing := false, serial := 0, easel := 0, wet := false, state := 0, fault := 0, count := 0,
                         begun := 0, lines := 0, avail := 0, holders := [], set := [], hurt := false }

/-- Two sets lay out the same ring (R219). -/
def sameRing (a b : RegStore) (v : Nat) : Bool :=
  [F.VIEW_RING_BASE_LO_value, F.VIEW_RING_BASE_HI_value, F.VIEW_RING_CFG_depth].all (fun f => regOf a f v == regOf b f v)
    && viewSlotSize a v == viewSlotSize b v

/-- A view set takes effect (R222): a new ring layout starts with free slots, while the frames opened before it keep the old ring, and an
enable restarts the picture count. -/
def State.viewApply (s : State) (v : Nat) (r : RegStore) : State :=
  let old := (s.view v).inForce
  let relay := pictureChanges old r v || (s.view v).ring.isEmpty
    || [F.VIEW_RING_BASE_LO_value, F.VIEW_RING_BASE_HI_value].any fun f => regOf old f v != regOf r f v
  let rise := regOn r F.VIEW_CTRL_enable v && !regOn old F.VIEW_CTRL_enable v
  let t := s.updView v fun p => { p with inForce := r, ready := none, ring := if relay then freshRing (regOf r F.VIEW_RING_CFG_depth v) else p.ring,
                                         next := if relay then 0 else p.next, count := if rise then 0 else p.count,
                                         before := if relay then some { set := old, slots := p.ring, next := p.next } else p.before }
  ((t.wr F.VIEW_RING_SLOT_size (viewSlotSize r v) v).wr F.VIEW_COMMIT_pending 0 v).viewSlots v

/-- Waiting sets of the views that serve an easel take effect as it closes (R225). -/
def State.viewsClosed (s : State) (e : Nat) : State :=
  s.each (List.range 8) fun s v => match (s.view v).ready with
    | some r => if regOf (s.view v).inForce F.VIEW_CTRL_easel v = e then s.viewApply v r else s
    | none => s

end Sys2Proof.Machine
end

