-- ==== Sys2Proof/Machine/Easel.lean ====
section
/-! DEFINITION. Easels, exposure tickets and the frame tracker (spec/04). -/
namespace Sys2Proof.Machine

/-! ### Shared parts -/


/-- Settled DRY or DAMAGED: dry in the sense of R153. -/
def Frame.isDry (f : Frame) : Bool := f.st == .dry || f.st == .damaged

/-- The newest frame of an easel with a serial. -/
def State.frame (s : State) (e serial : Nat) : Option Frame := (s.easel e).frames.find? fun f => f.serial == serial

/-- A change of a frame. -/
def State.updFrame (s : State) (e serial : Nat) (f : Frame → Frame) : State :=
  s.updEasel e fun x => { x with frames := x.frames.map fun y => if y.serial = serial then f y else y }


/-- The easel has an unsettled frame. -/
def State.anyUnsettled (s : State) (e : Nat) : Bool := (s.easel e).frames.any Frame.unsettled

/-- EASEL_STATUS.held and open_frame follow the frames. -/
def State.frameStatus (s : State) (e : Nat) : State :=
  (s.wr F.EASEL_STATUS_held (b2n ((s.easel e).frames.any fun f => f.st == .held)) e).wr F.EASEL_STATUS_open_frame
    (b2n ((s.easel e).frames.any fun f => f.st == .opened)) e

/-- A take of the easel is open: OPENING, RECORDING or CLOSING (R414). -/
def State.takeOpen (s : State) (e : Nat) : Bool :=
  s.rd F.TAKE_STATUS_state e == 1 || s.rd F.TAKE_STATUS_state e == 2 || s.rd F.TAKE_STATUS_state e == 3

/-- Any take is open. -/
def State.anyTakeOpen (s : State) : Bool := (List.range 4).any s.takeOpen

/-- An easel in state open or closing (R131). -/
def State.easelRuns (s : State) (e : Nat) : Bool :=
  s.rd F.EASEL_STATUS_state e == 1 || s.rd F.EASEL_STATUS_state e == 2

/-- The fault word bits of R149. -/
def faultBit : Nat → Nat := fun k => 2 ^ k

/-- A fault bit set in a fault word. -/
def setFault (w k : Nat) : Nat := setBit w k true

/-- A fault bit set once a frame may have settled (R149): its word, and the word its ledger entry takes. -/
def State.lateFault (s : State) (e serial k : Nat) : State :=
  let t := s.updFrame e serial fun f => { f with fault := setFault f.fault k }
  { t with stor := { t.stor with takes := updAt t.stor.takes e fun x => { x with frames := x.frames.map fun y =>
      if y.serial = serial then { y with fault := setFault y.fault k } else y } } }

/-- A fused tile of a frame that is not scraped carries damaged (R24, R30, R149): its informative bit. -/
def State.tileHurt (s : State) (e serial : Nat) : State :=
  match s.frame e serial with
  | some f => s.whenB (f.st != .scraped) fun s => s.lateFault e serial 8
  | none => s

/-! ### Tickets -/

/-- A change of one bound ticket. -/
def State.updBound (s : State) (e id : Nat) (f : Bound → Bound) : State :=
  s.updEasel e fun x => { x with bound := x.bound.map fun b => if b.id = id then f b else b }

/-- A ticket command completes: spec0 its ticket ID (R137, R139, R143). -/
def State.ticketDone (s : State) (id ticket status spec1 : Nat) : State := s.complete id status ticket spec1

/-- Bound tickets whose target is decided and whose writes have ended complete (R143): BC_FAIL first. -/
def State.ticketCheck (s : State) (e : Nat) : State :=
  let done := fun b : Bound => b.outcome.isSome && !b.busy && (b.failed || b.writes.isEmpty)
  let t := s.each ((s.easel e).bound.filter done) fun s b =>
    let st := b.outcome.getD 0
    s.ticketDone b.id b.ticket (if b.failed then St.BC_FAIL else st)
      (if (st = 0 ∨ st = St.TARGET_DAMAGED) then b.target % 4294967296 else 0)
  t.updEasel e fun x => { x with bound := x.bound.filter fun b => !done b }

/-- A bound ticket's target frame gains ticket_late while it is unsettled (R140). -/
def State.ticketLate (s : State) (e id : Nat) : State :=
  match (s.easel e).bound.find? (fun b => b.id == id) with
  | none => s
  | some b => (s.updBound e id fun b => { b with late := true }).updFrame e b.target fun f =>
      if f.unsettled then { f with fault := setFault f.fault 9 } else f

/-- A write of a bound ticket ended without a reply: the remaining ones are not sent (R140). -/
def State.ticketFail (s : State) (e id : Nat) : State :=
  ((s.updBound e id fun b => { b with writes := [], failed := true }).ticketLate e id).ticketCheck e

/-- The bound tickets with register writes left, oldest first. -/
def State.ticketsToSend (s : State) (e : Nat) : List Bound := (s.easel e).bound.filter fun b => !b.writes.isEmpty

/-- The next register write of the oldest bound ticket with writes left is sent on the lowest group of the set; writes of
two tickets never interleave (R140, R144). Writes on a group whose lanes are not UP, and those of a set without a group, end at once, the
former with no_return (R114), ticket by ticket. -/
def State.ticketSend (s : State) (e : Nat) : State :=
  if (s.easel e).bound.any Bound.busy then s
  else match s.ticketsToSend e, s.easelGroups e with
  | [], _ => s
  | l, [] => s.each l fun s b => s.ticketFail e b.id
  | b :: l, g :: _ =>
    if (s.group g).flight.isSome then s
    else if s.grpState g ≠ 6 then (s.wr F.BRL_BC_STATUS_result 4 g).each (b :: l) fun s b => s.ticketFail e b.id
    else
      let w := b.writes.headD (0, 0)
      let tag := ((s.group g).lastTag + 1) % 256
      (((s.updBound e b.id fun b => { b with writes := b.writes.tail, busy := true }).wr F.BRL_BC_STATUS_busy 1 g).updGroup g fun x =>
        { x with flight := some { tag := tag, code := 1, ticket := some (e, b.id) }, lastTag := tag }).bcSend g 1 tag w.1 w.2

/-- The register writes of a ticket: entries below nwrites (R136). -/
def ticketWrites (c : Cmd) : List (Nat × Nat) := (List.range (c.b 21)).map fun k => (c.h (36 + 6 * k), c.w (38 + 6 * k))

/-- The tickets pending in the window are replaced by a later one (R139): they complete at once. -/
def State.supersede (s : State) (e : Nat) : State :=
  (s.each (s.easel e).pending fun s k =>
    match s.cmd k with
    | some c => (s.ticketDone k (c.w 16) St.SUPERSEDED 0).bump F.EASEL_CNT_MISC_superseded e
    | none => s).updEasel e fun x => { x with pending := [] }

/-- The ticket window of frame n closes (R138, R139): the latest pending ticket binds to it. -/
def State.windowClose (s : State) (e n : Nat) : State :=
  let t := s.updEasel e fun x => { x with window := none, pending := [] }
  match (s.easel e).pending.getLast?.bind s.cmd with
  | none => t
  | some c =>
    let b : Bound := { id := c.id, ticket := c.w 16, frame := n, target := n + s.rd F.EASEL_FMT_latency e, writes := ticketWrites c,
                       busy := false, failed := false, late := false, outcome := none }
    (t.updEasel e fun x => { x with bound := x.bound ++ [b], history := (n, c.w 16) :: x.history }).ticketSend e

/-- The ticket in effect for a frame (R141): the one bound most recently at a window of a frame no later than F - L. -/
def State.ticketInEffect (s : State) (e serial : Nat) : Nat :=
  match (s.easel e).history.find? (fun h => decide (h.1 + s.rd F.EASEL_FMT_latency e ≤ serial)) with
  | some h => h.2
  | none => 0

/-- TICKET_POST (R136, R137, R139): BAD_TICKET, then EASEL_CLOSED, else pending in the current window in place of an earlier one. -/
def execTicketPost (id : Nat) (s : State) : Out :=
  .next (s.startCmd id 0x01 fun c s =>
    let e := c.b 20 % 4
    if c.w 16 = 0 ∨ 4 < c.b 21 ∨ c.h 22 ≠ 0 ∨ c.h 34 ≠ 0 ∨ c.w 60 ≠ 0 ∨ 4 ≤ c.b 20 then s.ticketDone id (c.w 16) St.BAD_TICKET 0
    else if s.rd F.EASEL_STATUS_state e ≠ 1 then s.ticketDone id (c.w 16) St.EASEL_CLOSED 0
    else (s.supersede e).updEasel e fun x => { x with pending := [id] })

/-- TICKET_WINDOW_CLOSE (R138): c(N) is reached for the frame whose window is open. -/
def execTicketWindowClose (e : Nat) (s : State) : Out :=
  match (s.easel e).window with
  | some n => .next (s.windowClose e n)
  | none => .next s

/-- Pending tickets complete with EASEL_CLOSED when the easel leaves open (R144). -/
def State.dropPending (s : State) (e : Nat) : State :=
  (s.each (s.easel e).pending fun s k =>
    match s.cmd k with
    | some c => s.ticketDone k (c.w 16) St.EASEL_CLOSED 0
    | none => s).updEasel e fun x => { x with pending := [] }

/-! ### Back-channel replies -/

/-- A ticket write has ended (R140). -/
def State.ticketReply (s : State) (e id : Nat) (ok late : Bool) : State :=
  let t := s.updBound e id fun b => { b with busy := false }
  let t1 := if ok then t else (t.updBound e id fun b => { b with writes := [], failed := true }).ticketLate e id
  let last := match (t1.easel e).bound.find? (fun b => b.id == id) with
    | some b => b.writes.isEmpty
    | none => true
  let t2 := t1.whenB (ok && last && late) fun s => s.ticketLate e id
  (t2.ticketCheck e).ticketSend e

/-- The command in flight of a group, the host's or a ticket's write, ends with a result (R114, R116, R140). The reply data are those of
the host's own commands. -/
def State.bcEnd (s : State) (g result : Nat) (data : Option Nat) (late : Bool) : State :=
  match (s.group g).flight with
  | none => s
  | some x =>
    let t := (s.updGroup g fun x => { x with flight := none }).wr F.BRL_BC_STATUS_busy 0 g
    let t1 := t.wr F.BRL_BC_STATUS_result result g
    match x.ticket with
    | some (e, id) => t1.ticketReply e id (result == 0) late
    | none =>
      let t2 := match data with | some d => t1.wr F.BRL_BC_DATA_data d g | none => t1
      t2.ticketSend (s.rd F.BRL_GRP_CFG_easel g)

/-- BC_REG_REPLY (R113, R116): a reply with a bad check ends the command with result 5; a good one is matched by its tag;
the others are stray. late: it arrived after the ticket's latch point t_FS(N) + S. -/
def execBcRegReply (g : Nat) (payload : List Byte) (late : Bool) (s : State) : Out :=
  match (s.group g).flight with
  | none => .next (s.bump F.BRL_GRP_BC_ERR_stray g)
  | some x =>
    if !crc8Good payload then .next (s.bcEnd g 5 none late)
    else if fieldAt payload 1 1 ≠ x.tag then .next (s.bump F.BRL_GRP_BC_ERR_stray g)
    else
      let st := fieldAt payload 6 1
      .next (s.bcEnd g (if st < 3 then st else (Config.replyResult st).toNat) (if st = 0 then some (fieldAt payload 2 4) else none) late)

/-- BC_CMD_TIMEOUT (R114): no REG_REPLY within 100 µs. -/
def execBcCmdTimeout (g : Nat) (s : State) : Out := .next (s.bcEnd g 3 none true)

/-- BRL_CK_LOSS (R122, R124): no CK edge for 80 ns in UP, LOCK, SKEW or TEST. A command whose reply is awaited ends with timeout, at once
(DESIGN CHOICE, log 132). test_mode keeps its 1 when the group leaves TEST in this way or by going OFF, and its later clearing outside TEST
sends nothing (DESIGN CHOICE, log 98). -/
def execBrlCkLoss (g : Nat) (s : State) : Out :=
  let st := s.grpState g
  if st = 4 ∨ st = 5 ∨ st = 6 ∨ st = 8 then
    let t := (((((s.setGrp g 2).wr F.BRL_GRP_STATUS_ck_good 0 g).wr F.BRL_GRP_STATUS_lane_lock 0 g).updGroup g fun x =>
      { x with wake := false }).flagCount F.BRL_GRP_FLAGS_ck_loss F.BRL_GRP_ERR_ck_loss g).raise (groupHalf g) Ev.BRL_DOWN (le 1 g)
    .next ((t.whenB (st == 6) fun s => s.groupCut g).bcEnd g 3 none true)
  else .next s

/-- A group goes OFF; a ticket write in flight on it has failed, and one that waited behind a command of the host's is issued, and fails
(R114, R140). -/
def State.groupDown (s : State) (g : Nat) : State :=
  let cut := fun t : State => t.whenB (s.grpState g == 6) fun t => t.groupCut g
  match (s.group g).flight with
  | some x => match x.ticket with
    | some (e, id) => (cut (s.groupOff g)).ticketReply e id false true
    | none => (cut (s.groupOff g)).ticketSend (s.rd F.BRL_GRP_CFG_easel g)
  | none => cut (s.groupOff g)

/-- BRL_GRP_CFG_WRITE (R94, R115, R122): refused whole when the rate does not fit the mode, or when member, easel, mode or
rate would change while the named easel is not closed: the easel named before and the one the write names must both be closed (DESIGN CHOICE,
log 133). -/
def execBrlGrpCfgWrite (g v : Nat) (s : State) : Out :=
  let rate := bitsOf v 14 8
  let easel := bitsOf v 5 4
  let mode := bitsOf v 2 2
  let badRate := decide (rate < 8) || decide (64 < rate) || (mode == 1 && decide (32 < rate))
  let changes := rate != s.rd F.BRL_GRP_CFG_rate g || easel != s.rd F.BRL_GRP_CFG_easel g
    || bitsOf v 3 3 != s.rd F.BRL_GRP_CFG_member g || mode != s.rd F.BRL_GRP_CFG_mode g
  let busy := s.rd F.EASEL_STATUS_state easel != 0 || s.rd F.EASEL_STATUS_state (s.rd F.BRL_GRP_CFG_easel g) != 0
  if badRate || (changes && busy) then .next (s.wr F.BRL_GRP_FLAGS_cfg_refused 1 g)
  else
    let t := ((((s.wr F.BRL_GRP_CFG_rate rate g).wr F.BRL_GRP_CFG_easel easel g).wr F.BRL_GRP_CFG_member (bitsOf v 3 3) g).wr
      F.BRL_GRP_CFG_mode mode g).wr F.BRL_GRP_CFG_enable (v % 2) g
    .next (if v % 2 = 1 then t.groupStart g else t.groupDown g)

/-! ### Settling -/

/-- Every consumer is to take the settle notice of a frame (R153). -/
def allConsumers : List Consumer :=
  [.ticket, .column, .stats, .view, .canvas, .packer, .magazine, .barrow, .sketch, .raster, .sender]

/-- The easel is closed (R130): bound tickets whose target has not settled take EASEL_CLOSED; the notice of one that has is still to come
(R143). -/
def State.easelClosed (s : State) (e : Nat) : State :=
  let t := (s.wr F.EASEL_STATUS_state 0 e).wr F.EASEL_CTRL_open 0 e
  ((((((t.condClosed e).dropPending e).viewsClosed e)).updEasel e fun x =>
    { x with window := none, discard := true, bound := x.bound.map fun b =>
        if b.outcome.isNone && !s.notices.contains (Consumer.ticket, e, b.target) then { b with outcome := some St.EASEL_CLOSED } else b }).ticketCheck e)

/-- A closing easel with no unsettled frame is closed. -/
def State.closeIfDone (s : State) (e : Nat) : State :=
  if s.rd F.EASEL_STATUS_state e = 2 ∧ s.anyUnsettled e = false then s.easelClosed e else s

/-- A frame settles to a state (R148): its count, flag and event, EASEL_LAST, and the settle notice to every consumer. -/
def State.settleTo (s : State) (e : Nat) (f : Frame) (st : FrameState) (fault : Nat) : State :=
  let t := s.updFrame e f.serial fun x => { x with st := st, fault := fault, ended := true }
  let t1 := match st with
    | .scraped => (t.flagCount F.EASEL_FLAGS_scrape F.EASEL_CNT_SCRAPE_count e).raise 0 Ev.INTAKE_SCRAPE (framePayload e f.serial fault)
    | .damaged => (t.flagCount F.EASEL_FLAGS_damaged F.EASEL_CNT_DAMAGED_count e).raise 0 Ev.INTAKE_DAMAGED (framePayload e f.serial fault)
    | _ => t.bump F.EASEL_CNT_DRY_count e
  let t2 := (t1.wr F.EASEL_LAST_LO_serial_lo f.serial e).wr F.EASEL_LAST_HI_serial_hi (f.serial / 4294967296) e
  let t3 := { t2 with notices := t2.notices ++ allConsumers.map fun c => (c, e, f.serial) }
  (t3.frameStatus e).closeIfDone e

/-- Configured rows of a frame not reported. -/
def Frame.missing (f : Frame) : Nat :=
  ((List.range f.height).filter fun k => !f.seen.contains k).length + ((List.range f.obRows).filter fun k => !f.seenOb.contains k).length

/-- The procedure settle of R148. -/
def State.settle (s : State) (e : Nat) (f : Frame) : State :=
  let fault := if bitOf f.fault 0 = false ∧ 0 < f.missing then setFault f.fault 2 else f.fault
  let bad := f.bad + f.missing
  if (bitOf fault 0 && f.onShort) || ((bitOf fault 2 || bitOf fault 3 || bitOf fault 4) && f.onError)
      || (decide (0 < f.maxBad) && decide (f.maxBad < bad)) then s.settleTo e f .scraped fault
  else if fault % 128 ≠ 0 then s.settleTo e f .damaged fault
  else s.settleTo e f .dry fault

/-- A report of a frame is still on its way to the tracker. -/
def State.reportPending (s : State) (e serial : Nat) : Bool :=
  s.link.reports.any fun r => r.easel == e && r.serial == serial

/-- An ended frame with no report pending settles. -/
def State.settleIfDone (s : State) (e serial : Nat) : State :=
  match s.frame e serial with
  | some f => if f.unsettled && f.ended && !s.reportPending e serial then s.settle e f else s
  | none => s

/-- The frame check over the row checks in arrival order (R147). -/
def Frame.check (f : Frame) : Nat := crc32c (f.checks.flatMap (le 4))

/-- A frame becomes HELD: of an easel's frames at most one is, so an ended one still waiting for reports settles at once, and those count as
never reported (R145, R150). -/
def State.heldAlone (s : State) (e serial : Nat) : State :=
  s.each (((s.easel e).frames.filter fun x => x.serial != serial && x.unsettled && x.ended).reverse) fun s x => s.settle e x

/-- How a frame ends (R145): by FRAME_END with its count and check, by one whose CRC-8 failed, implicitly or by timeout. -/
inductive FrameEnd where
  | fe (count check : Nat)
  | feBad
  | missing
  deriving DecidableEq, Repr

/-- The procedure frame_end of R146. A FRAME_END with a bad CRC-8 ends the frame with its check taken as mismatched
(R109) and its row count not looked at. Blocks discarded since the last stripe are an overrun of the frame (R74, R149). -/
def State.frameEnd (s : State) (e : Nat) (f : Frame) (how : FrameEnd) : State :=
  let configured := f.height + f.obRows
  let fault := match how with
    | .fe count check =>
      let a := if count < configured then setFault f.fault 0 else f.fault
      let b := if configured < count then setFault a 1 else a
      if check ≠ f.check then setFault b 3 else b
    | .feBad => setFault f.fault 3
    | .missing =>
      let a := setFault f.fault 4
      if 0 < f.missing then setFault a 0 else a
  let spilt := if (s.easel e).spilt.isEmpty then fault else setFault (setFault fault 2) 5
  let t := (s.heldAlone e f.serial).updEasel e fun x => { x with spilt := [] }
  ((t.updFrame e f.serial fun x => { x with st := .held, ended := true, fault := spilt }).frameStatus e).settleIfDone e f.serial

/-- A row report is of no row of its frame's profile (R146). -/
def Frame.extraRow (f : Frame) (r : RowReport) : Bool := if r.ob then decide (f.obRows ≤ r.index) else decide (f.height ≤ r.index)

/-- An unsettled frame after a row report (R146, R150). -/
def Frame.reported (f : Frame) (r : RowReport) : Frame :=
  let checks := match r.check with | some c => f.checks ++ [c] | none => f.checks
  let f1 : Frame :=
    if f.extraRow r then { f with fault := setFault f.fault 1, checks := checks }
    else
      let w := if r.result = 0 then f.fault else setFault f.fault 2
      { f with fault := if r.spilt then setFault (setFault w 2) 5 else w, checks := checks,
               bad := if r.result = 0 then f.bad else f.bad + 1,
               seen := if r.ob then f.seen else r.index :: f.seen,
               seenOb := if r.ob then r.index :: f.seenOb else f.seenOb,
               badRows := if r.ob ∨ r.result = 0 then f.badRows else r.index :: f.badRows }
  if f1.st = .opened ∧ f1.missing = 0 then { f1 with st := .held } else f1

/-- The tracker takes a report of an unsettled frame (R146, R150). -/
def State.rowTaken (s : State) (r : RowReport) (f : Frame) : State :=
  let g := f.reported r
  let t := ((s.whenB (g.st == .held) fun s => s.heldAlone r.easel r.serial).updFrame r.easel r.serial fun _ => g).frameStatus r.easel
  (t.whenB (f.extraRow r) fun s => s.flagCount F.EASEL_FLAGS_long F.EASEL_CNT_MISC_extra_rows r.easel).settleIfDone r.easel r.serial

/-- ROW_REPORT (R146, R150): the tracker takes the oldest report, or counts its blocks as orphans when its frame is
already settled. -/
def execRowReport (s : State) : Out :=
  match s.link.reports with
  | [] => .next s
  | r :: rest =>
    let t := { s with link := { s.link with reports := rest } }
    match t.frame r.easel r.serial with
    | none => .next (t.bump F.BRL_EASEL_ORPHAN_orphan r.easel 0 r.blocks)
    | some f => .next (if f.unsettled then t.rowTaken r f else t.bump F.BRL_EASEL_ORPHAN_orphan r.easel 0 r.blocks)

/-- FRAME_END_RECEIVE (R97, R108, R109, R145): a frame still taking rows ends by it; without one, and after a refused frame-start,
its block is an orphan. It comes on the set's lowest group, and is lost while that group is not UP, or where it slept in the frame (R118). -/
def execFrameEndReceive (e : Nat) (payload : List Byte) (s : State) : Out :=
  if (s.onLowest e (some payload)).isNone || s.slept e ((s.easelGroups e).headD 0) then .next s
  else if (s.easel e).discard then .next (s.bump F.BRL_EASEL_ORPHAN_orphan e)
  else match s.current e with
    | none => .next (s.bump F.BRL_EASEL_ORPHAN_orphan e)
    | some f =>
      if isControl 0x66 (some payload) then .next (s.frameEnd e f (.fe (fieldAt payload 1 2) (fieldAt payload 3 4)))
      else .next ((s.bump F.BRL_EASEL_ERR_fe_err e).frameEnd e f .feBad)

/-- FRAME_END_TIMEOUT (R145): the frame ends with fe_missing. -/
def execFrameEndTimeout (e : Nat) (s : State) : Out :=
  match s.current e with
  | none => .next s
  | some f =>
    .next (((s.flagCount F.EASEL_FLAGS_fe_timeout F.EASEL_CNT_MISC_fe_timeout e).raise 0 Ev.INTAKE_FE_TIMEOUT
      (framePayload e f.serial f.fault)).frameEnd e f .missing)

/-! ### Opening and closing -/

/-- EASEL_OPEN (R128, R130): a closed easel enters opening; the write is refused while closing. -/
def execEaselOpen (e : Nat) (s : State) : Out :=
  let st := s.rd F.EASEL_STATUS_state e
  if st = 0 then .next ((s.wr F.EASEL_CTRL_open 1 e).wr F.EASEL_STATUS_state 3 e)
  else if st = 2 then .next (s.wr F.EASEL_FLAGS_cfg_refused 1 e)
  else .next s

/-- EASEL_CLOSE (R128, R130): cancels an open in progress; refused while a take of the easel is open; else closing. -/
def execEaselClose (e : Nat) (s : State) : Out :=
  let st := s.rd F.EASEL_STATUS_state e
  if st = 3 then .next ((s.wr F.EASEL_CTRL_open 0 e).wr F.EASEL_STATUS_state 0 e)
  else if st = 1 then
    if s.takeOpen e then .next (s.wr F.EASEL_FLAGS_cfg_refused 1 e)
    else .next ((((s.wr F.EASEL_CTRL_open 0 e).wr F.EASEL_STATUS_state 2 e).dropPending e).closeIfDone e)
  else .next s

/-- Every unsettled frame of an easel is scraped, without a varnish (R19, R130). -/
def State.scrapeAll (s : State) (e : Nat) : State :=
  s.each ((s.easel e).frames.filter Frame.unsettled).reverse fun s f => s.settleTo e f .scraped f.fault

/-! ### Admission arithmetic -/

/-- A domain counts as powered: its PWR_ON bit is 1 and it is out of reset (R36). -/
def State.powered (s : State) (d : Nat) : Bool := bitOf (s.rd F.PWR_ON_on) d && s.released d

/-- Brushes, and colour units, of a half's powered PX domains: 16 each (R67, R131). -/
def State.brushes (s : State) (h : Nat) : Nat := 16 * ((List.range 4).filter fun k => s.powered (10 + 4 * h + k)).length

/-- Bands whose contents a reset has taken: their tiles are closed without one. -/
def State.bandsLost (s : State) (bands : List (Nat × Nat × Nat)) : State :=
  let tiles := bands.flatMap fun b => match s.frame b.1 b.2.1 with
    | some f => ((List.range (f.width / 64)).map fun x => (b.1, b.2.1, b.2.2 * (f.width / 64) + x)).filter fun t => !s.brush.closed.contains t
    | none => []
  { s with brush := { s.brush with taken := s.brush.taken.filter (fun b => !bands.contains b), closed := tiles ++ s.brush.closed } }

/-- The last powered PX domain of a half has gone: what its brushes held is lost (R36). -/
def State.brushesDown (s : State) (h : Nat) : State :=
  s.whenB (s.brushes h == 0) fun s => s.bandsLost (s.brush.taken.filter fun b => b.2.2 % 2 == h)

/-- Packer lanes of a half's powered LZ domain. -/
def State.packLanes (s : State) (h : Nat) : Nat := if s.powered (18 + h) then 48 else 0

/-- The photosite load of an easel per 1,000 s: W × H × rate_mfps. -/
def State.photoLoad (s : State) (e : Nat) : Nat :=
  s.rd F.EASEL_GEOM_width e * s.rd F.EASEL_GEOM_height e * s.rd F.EASEL_RATE_rate_mfps e

/-- The frames of R68: k = ceil(f ÷ 120). -/
def State.colourEvery (s : State) (e : Nat) : Nat := max 1 (ceilDiv (s.rd F.EASEL_RATE_rate_mfps e) 120000)

/-- The sum of a load over easels. -/
def sumOver (l : List Nat) (f : Nat → Nat) : Nat := l.foldl (fun a e => a + f e) 0

/-- req_code over a set of easels (R131): the smallest bound in 1/64 ps, rounded down, limited to 65,535. A bound whose
load is zero is left out. -/
def State.reqCode (s : State) (es : List Nat) : Nat :=
  let n := min (s.brushes 0) (s.brushes 1)
  let p := min (s.packLanes 0) (s.packLanes 1)
  let link := sumOver es fun e => s.photoLoad e * formatBits (s.rd F.EASEL_FMT_format e)
  let photo := sumOver es s.photoLoad
  let colour := sumOver (es.filter fun e => s.on F.EASEL_RATE_colour e) fun e => 6 * s.photoLoad e / s.colourEvery e
  let pack := sumOver (es.filter fun e => s.on F.EASEL_RATE_pack e) s.photoLoad
  let c := 64000000000000
  let bounds := (if link = 0 then [] else [c * 32 * 64 * 1000000 / (7 * 1025 * link)])
    ++ (if photo = 0 then [] else [c * 2 * n * 1000000 / (10840 * photo)])
    ++ (if colour = 0 then [] else [c * 2 * n * 6000 * 2048 / (12 * 2448 * colour)])
    ++ (if pack = 0 then [] else [c * 2 * p * 1000 / (8 * pack)])
  bounds.foldl min 65535

/-- A valid sensor profile (R126). -/
def State.profileOk (s : State) (e : Nat) : Bool :=
  let w := s.rd F.EASEL_GEOM_width e
  let h := s.rd F.EASEL_GEOM_height e
  let r := s.rd F.EASEL_RATE_rate_mfps e
  decide (w % 64 = 0 ∧ 64 ≤ w ∧ w ≤ 20480) && decide (h % 32 = 0 ∧ 32 ≤ h ∧ h ≤ 8640)
    && decide (s.rd F.EASEL_FMT_ob_rows e ≤ 64) && decide (s.rd F.EASEL_FMT_ob_cols e ≤ 128)
    && s.rd F.EASEL_FMT_latency e != 0 && decide (1 ≤ r ∧ r ≤ 240000)

/-- The req_codes of the offered entries of the mode table (R601). -/
def State.offeredCodes (s : State) : List Nat :=
  ((if s.on F.AGE_MODE0_offered then [s.rd F.AGE_MODE0_req_code] else [])
    ++ (if s.on F.AGE_MODE1_offered then [s.rd F.AGE_MODE1_req_code] else []))
    ++ ((List.range 14).filter fun k => s.on F.AGE_MODE2_offered k).map fun k => s.rd F.AGE_MODE2_req_code k

/-- The first failed condition of the table of R128, or 0. -/
def State.admitCause (s : State) (e plan req : Nat) : Nat :=
  let gs := s.easelGroups e
  let same := gs.all fun g => s.rd F.BRL_GRP_CFG_mode g == s.rd F.BRL_GRP_CFG_mode (gs.headD 0)
    && s.rd F.BRL_GRP_CFG_rate g == s.rd F.BRL_GRP_CFG_rate (gs.headD 0)
  if !s.profileOk e then 1
  else if gs.isEmpty || !same then 2
  else if s.rd F.EASEL_TICKET_START_us e < s.rd F.EASEL_TICKET_LEAD_us e then 3
  else if s.brushes 0 = 0 ∨ s.brushes 1 = 0 then 4
  else if req * 93 < plan * 100 then 5
  else match s.offeredCodes with
    | [] => 6
    | c :: cs => if req < listMin (c :: cs) then 6 else 0

end Sys2Proof.Machine
end

