-- ==== Sys2Proof/Machine/Hbm.lean ====
section
/-! DEFINITION. HBM stacks, the memory plan and the canvases (spec/08). -/
namespace Sys2Proof.Machine

/-! ### Stacks -/

/-- Stack k beside its registers. -/
def State.stack (s : State) (k : Nat) : StackSt := s.hbm.stackSts.getD k StackSt.init

def State.updHbm (s : State) (f : HbmSt → HbmSt) : State := { s with hbm := f s.hbm }

def State.updStack (s : State) (k : Nat) (f : StackSt → StackSt) : State :=
  s.updHbm fun h => { h with stackSts := updAt h.stackSts k f }

def State.updPc (s : State) (k pc : Nat) (f : PcSt → PcSt) : State :=
  s.updStack k fun x => { x with pcs := updAt x.pcs pc f }

/-- The stack of an HBM address (R265). -/
def stackOf (addr : Nat) : Nat := if addr < 0x1000000000 then 0 else 1

/-- The stack is in fault: its reads are uncorrectable and its writes dropped (R271). -/
def State.stackFault (s : State) (k : Nat) : Bool := s.rd F.HBM_STACK_STATUS_state k == 3

/-- The pseudo-channel of an address within its stack (R267): bits [16:12] folded with bits [21:17]. -/
def pcOf (a : Nat) : Nat := bitsOf a 16 12 ^^^ bitsOf a 21 17

/-- The channel of an address: two pseudo-channels each (R267). -/
def channelOf (a : Nat) : Nat := pcOf a / 2

/-- The 32-byte bursts that n bytes from an address lie in (R264). -/
def bursts (a n : Nat) : List Nat := if n = 0 then [] else (List.range (ceilDiv (a % 32 + n) 32)).map fun i => a - a % 32 + 32 * i

/-- Commands issued on a pseudo-channel join its retry buffer (R270). -/
def PcSt.issue (p : PcSt) (l : List HbmCmd) : PcSt := { p with retry := (p.retry ++ l).drop ((p.retry ++ l).length - 64) }

/-- The commands of n bytes from an address, issued each on the pseudo-channel of its burst (R267, R270). -/
def State.issue (s : State) (c : Nat → HbmCmd) (a n : Nat) : State :=
  let mine := fun pc => ((bursts a n).filter fun b => pcOf b == pc).map c
  s.updStack (stackOf a) fun x => { x with pcs := (withIndex x.pcs).map fun p => p.2.issue (mine p.1) }

/-- A parity alert stands on a pseudo-channel of a stack: its controller issues nothing new (R270). -/
def State.alertOn (s : State) (k : Nat) : Bool := (s.stack k).pcs.any PcSt.alert

/-- A stack's controller takes no request: it is not yet ready, is asked to go idle, or waits for an alert to clear (R269, R270, R565). -/
def State.stackWaits (s : State) (k : Nat) : Bool :=
  decide (s.rd F.HBM_STACK_STATUS_state k < 2) || !s.takesWork (0x50 + k) || s.alertOn k

/-- A request for n bytes from an address waits (R45, R269, R270, R565). -/
def State.hbmWaits (s : State) (a n : Nat) : Bool := n != 0 && s.stackWaits (stackOf a)

/-- Bytes written: good data again where a read had failed (R272). -/
def State.hbmWrite (s : State) (a : Nat) (bs : List Byte) : State :=
  ((s.issue .write a bs.length).store a bs).updHbm fun h =>
    { h with poison := h.poison.filter fun x => decide (x < a) || decide (a + bs.length ≤ x) }

/-- HBM bytes written by an engine: dropped in a stack in fault (R271), waiting while the controller takes no request, behind what waits
already (R269, R270). -/
def State.put (s : State) (a : Nat) (bs : List Byte) : State :=
  if s.stackFault (stackOf a) then s
  else if s.hbmWaits a bs.length || s.hbm.held.any (fun w => stackOf w.1 == stackOf a) then s.updHbm fun h => { h with held := h.held ++ [(a, bs)] }
  else s.hbmWrite a bs

/-- The writes that waited are carried out in their order, those apart whose stack still takes no request (R269, R270). -/
def State.hbmFlush (s : State) : State :=
  (s.updHbm fun h => { h with held := [] }).each s.hbm.held fun s w => s.put w.1 w.2

/-- The writes waiting for a stack are dropped (R271). -/
def State.hbmDrop (s : State) (k : Nat) : State := s.updHbm fun h => { h with held := h.held.filter fun w => stackOf w.1 != k }

/-- A read of n bytes is issued (R264, R270, R272): how many of its bursts came back corrected is a free value, counted in ce. -/
def State.hbmRead (s : State) (a n : Nat) : State :=
  let k := stackOf a
  if s.stackFault k || s.hbmWaits a n then s
  else
    let c := min (Config.hbmCorrected s.fresh) (bursts a n).length
    ((s.issue .read a n).whenB (decide (0 < c)) fun s => (s.wr F.HBM_FLAGS_ce 1 k).bump F.HBM_CNT_ce k 0 c).tick

/-- A read of n bytes comes back whole (R271, R272). -/
def State.readable (s : State) (a n : Nat) : Bool :=
  !s.stackFault (stackOf a) && !(s.hbm.poison.any fun x => decide (a ≤ x) && decide (x < a + n))

/-- The bytes of a read that failed: free. -/
def State.badBytes (s : State) (n : Nat) : List Byte := (List.range n).map (Config.badByte s.fresh)

/-- n bytes as a read brings them (R271, R272): what the stack holds, or free where the read is marked uncorrectable (log 105). -/
def State.fetch (s : State) (a n : Nat) : List Byte := if s.readable a n then s.load a n else s.badBytes n

/-- The lower boundaries of bands 1 to 7 in 0.1 °C (R268). -/
def bandBounds : List Int := [0, 200, 400, 550, 700, 850, 1000]

/-- The band of a temperature in 0.1 °C (R268). -/
def bandOf (t : Int) : Nat := (bandBounds.filter fun b => decide (b ≤ t)).length

/-- The band after a reading: it changes only when the boundary is passed by at least 2 °C (R268). -/
def bandAfter (cur : Nat) (t : Int) : Nat :=
  let up := (bandBounds.filter fun b => decide (b + 20 ≤ t)).length
  let down := (bandBounds.filter fun b => decide (b - 20 < t)).length
  if cur < up then up else if down < cur then down else cur

/-- HBM_STACK_READY (R269): loading ends with the band of the first temperature reading in every pseudo-channel, and the requests that waited
are taken. -/
def execHbmStackReady (k : Nat) (temp : Int) (s : State) : Out :=
  if s.rd F.HBM_STACK_STATUS_state k = 1 then
    .next ((s.wr F.HBM_STACK_STATUS_state 2 k).wr F.HBM_STACK_STATUS_band (bandOf temp) k).hbmFlush
  else .next s

/-- A reading of the stack temperature in service: a band change starts, its delays in the shadows (R268, R269). A reading that gives the
band in force again while a change is under way ends that change, and a reading of a third band starts over: the pseudo-channels that had
taken the delays given up take others at their next refresh (DESIGN CHOICE, log 103). -/
def State.bandReading (s : State) (k : Nat) (t : Int) : State :=
  let cur := s.rd F.HBM_STACK_STATUS_band k
  let nb := bandAfter cur t
  if s.rd F.HBM_STACK_STATUS_state k = 2 then
    if nb = cur then s.updStack k fun x => { x with newBand := none }
    else s.updStack k fun x =>
      { x with newBand := match x.newBand with | some (b, done) => if b = nb then some (b, done) else some (nb, []) | none => some (nb, []) }
  else s

/-- HBM_ALL_BANK_REFRESH (R269, R270, R286): the refresh is a command of its pseudo-channel, and under a standing alert of the stack it is not issued. A
pseudo-channel takes the new delays with it; with all 32 changed the band is in force. -/
def execHbmAllBankRefresh (k pc : Nat) (s : State) : Out :=
  if s.alertOn k then .next s
  else
    let t := s.updPc k pc fun p => p.issue [.refresh]
    match (s.stack k).newBand with
    | none => .next t
    | some (b, done) =>
      let done' := pc :: done.filter (· ≠ pc)
      if (List.range 32).all done'.contains then
        .next ((((t.updStack k fun x => { x with newBand := none }).wr F.HBM_STACK_STATUS_band b k).wr F.HBM_FLAGS_band_change 1 k).raise k
          Ev.HBM_BAND [])
      else .next (t.updStack k fun x => { x with newBand := some (b, done') })

/-- The n-th consecutive alert of a stack comes from a pseudo-channel (R270); the fourth is the stack's fault (R271). -/
def State.caAlert (s : State) (k pc n : Nat) : State :=
  let t := (((s.updPc k pc fun p => { p with alert := true }).updStack k fun x => { x with alerts := n }).flagCount
    F.HBM_FLAGS_ca_alert F.HBM_CNT_ca_alert k).raise k Ev.HBM_CA_ALERT []
  if 4 ≤ n then (((t.wr F.HBM_STACK_STATUS_state 3 k).wr F.HBM_FLAGS_ca_fail 1 k).raise k Ev.HBM_CA_FAIL []).hbmDrop k else t

/-- HBM_CA_ALERT (R270, R271): issue stops; the fourth consecutive alert without a clean replay is a stack fault, and what waits to be
written is dropped. replaying: the alert met a replay of an earlier one; one that comes while another stands has no clean replay before it
either. -/
def execHbmCaAlert (k pc : Nat) (replaying : Bool) (s : State) : Out :=
  .next (if s.rd F.HBM_STACK_STATUS_state k = 2 then
    s.caAlert k pc (if replaying || s.alertOn k then (s.stack k).alerts + 1 else 1)
  else s)

/-- HBM_CA_ALERT_CLEAR (R270): the commands the alert may cover, the newest `covered` of the retry buffer, are issued
again in their original order, and then what waited. -/
def execHbmCaAlertClear (k pc : Nat) (covered : Nat) (s : State) : Out :=
  let p := (s.stack k).pcs.getD pc PcSt.init
  if p.alert then
    .next ((s.updPc k pc fun p => { p with alert := false }).each (p.retry.drop (p.retry.length - covered)) fun s c =>
      s.emit (.hbmReissue k pc c)).hbmFlush
  else .next s

/-- HBM_UNCORR_READ (R272): the second read failed too; the address is latched unless an earlier one is unread. -/
def execHbmUncorrRead (addr : Nat) (s : State) : Out :=
  let k := stackOf addr
  let t := (s.updHbm fun h => { h with poison := addr :: h.poison.filter (· ≠ addr) }).flagCount F.HBM_FLAGS_ue F.HBM_CNT_ue k
  let t1 := if (s.stack k).latched then t
    else ((t.wr F.HBM_UE_ADDR_LO_value addr k).wr F.HBM_UE_ADDR_HI_value (addr / 4294967296) k).updStack k fun x => { x with latched := true }
  .next (t1.raise k Ev.HBM_UNCORR [])

/-- The activation table after an activation (R273): the row counts, or replaces the entry with the lowest count and takes
that count plus 1. Of several entries of the lowest count the first in the list gives way (DESIGN CHOICE, log 104). -/
def activate (table : List (Nat × Nat × Nat)) (bank row : Nat) : List (Nat × Nat × Nat) :=
  if table.any (fun e => e.1 == bank && e.2.1 == row) then
    table.map fun e => if e.1 = bank ∧ e.2.1 = row then (bank, row, e.2.2 + 1) else e
  else if table.length < 32 then table ++ [(bank, row, 1)]
  else
    let low := listMin (table.map fun e => e.2.2)
    let i := (table.findIdx? fun e => e.2.2 == low).getD 0
    table.set i (bank, row, low + 1)

/-- The rows within reach of a row, below and above it (R274). -/
def nearRows (row reach : Nat) : List Nat :=
  ((List.range (min reach row)).map fun k => row - (k + 1)) ++ (List.range reach).map fun k => row + (k + 1)

/-- HBM_ROW_ACTIVATE (R270, R273, R274): issued only while no alert stands; at the threshold the neighbours are refreshed by activations, which
are commands of the pseudo-channel too, and the count returns to 0. -/
def execHbmRowActivate (k pc bank row : Nat) (s : State) : Out :=
  let p := (s.stack k).pcs.getD pc PcSt.init
  if s.rd F.HBM_STACK_STATUS_state k ≠ 2 ∨ s.alertOn k = true then .next s
  else
    let tab := activate p.table bank row
    let hit := tab.any fun e => e.1 == bank && e.2.1 == row && decide (s.rd F.HBM_RH_CFG_threshold k ≤ e.2.2)
    let tab' := if hit then tab.map fun e => if e.1 = bank ∧ e.2.1 = row then (bank, row, 0) else e else tab
    let t := s.updPc k pc fun p => { p.issue [.activate bank row] with table := tab' }
    let near := nearRows row (s.rd F.HBM_RH_CFG_reach k)
    if hit then
      .next (((t.updPc k pc fun p => p.issue (near.map (.activate bank))).each near fun s r => s.emit (.rowRefresh k pc bank r)).flagCount F.HBM_FLAGS_rh_refresh
        F.HBM_CNT_RH_count k)
    else .next t

/-- HBM_RH_WINDOW_RESET (R273): every count returns to 0. -/
def execHbmRhWindowReset (s : State) : Out :=
  .next (s.updHbm fun h => { h with stackSts := h.stackSts.map fun x =>
    { x with pcs := x.pcs.map fun p => { p with table := p.table.map fun e => (e.1, e.2.1, 0) } } })

/-! ### The memory plan -/

/-- A plan check is pending (R278). -/
def State.planPending (s : State) : Bool := s.on F.HBM_PLAN_COMMIT_pending

/-- A command that needs a plan waits for the check in progress (R278). -/
def State.waitPlan (s : State) (i : Instr) : State := s.updHbm fun h => { h with waits := h.waits.filter (· ≠ i) ++ [i] }

/-- The region entries with nonzero size as the registers hold them. -/
def State.planEntries (s : State) : List Region :=
  ((List.range 64).map fun n => Region.mk n (s.rd F.HBM_REGION_BASE_base_4k n) (s.rd F.HBM_REGION_SIZE_size_4k n)
    (s.rd F.HBM_REGION_ATTR_kind n) (s.rd F.HBM_REGION_ATTR_owner n)).filter fun r => r.size ≠ 0

/-- Plannable 4 KiB units of a stack (R266). -/
def plannable : Nat := Config.capMib * 256 - 32768

/-- The stack a region lies in. -/
def Region.stack (r : Region) : Nat := if r.base < 0x1000000 then 0 else 1

/-- Rule 1 (R276, R277). -/
def Region.kindOk (r : Region) : Bool :=
  if r.kind = 1 then decide (r.owner < 4)
  else if r.kind = 3 ∨ r.kind = 6 then decide (r.owner < 2)
  else if r.kind = 4 then decide (r.owner < 8)
  else (r.kind == 2 || r.kind == 5 || r.kind == 7 || r.kind == 8) && r.owner == 0

/-- Rule 2. -/
def Region.placeOk (r : Region) : Bool :=
  decide (r.base + r.size ≤ plannable) || (decide (0x1000000 ≤ r.base) && decide (r.base + r.size ≤ 0x1000000 + plannable))

def Region.overlaps (a b : Region) : Bool := decide (a.base < b.base + b.size) && decide (b.base < a.base + a.size)

/-- Entries numbered below one. -/
def earlier (l : List Region) (r : Region) : List Region := l.filter fun x => decide (x.entry < r.entry)

/-- Rule 4, one entry: a second PIPE region of its stack, or one under 1 GiB. -/
def pipeBad (l : List Region) (r : Region) : Bool :=
  r.kind == 5 && (decide (r.size < 262144) || (earlier l r).any fun x => x.kind == 5 && x.stack == r.stack)

/-- Rule 5, one entry: a surplus region or one in the wrong stack. -/
def placeBad (l : List Region) (r : Region) : Bool :=
  (r.kind == 2 && (earlier l r).any fun x => x.kind == 2 && x.stack == r.stack)
    || (r.kind == 1 && (earlier l r).any fun x => x.kind == 1 && x.owner == r.owner && x.stack == r.stack)
    || (r.kind == 4 && (earlier l r).any fun x => x.kind == 4 && x.owner == r.owner)
    || ((r.kind == 3 || r.kind == 6) && r.stack != r.owner)
    || (r.kind == 8 && (r.stack == 0 || (earlier l r).any fun x => x.kind == 8))

/-- The result code and the entry at fault of a plan (R277): 0 when it passes. -/
def planResult (l : List Region) (barred : Bool) : Nat × Nat :=
  match l.find? (fun r => !r.kindOk) with
  | some r => (1, r.entry)
  | none => match l.find? (fun r => !r.placeOk) with
    | some r => (2, r.entry)
    | none => match l.find? (fun r => (earlier l r).any r.overlaps) with
      | some r => (3, r.entry)
      | none => match l.find? (pipeBad l) with
        | some r => (4, r.entry)
        | none =>
          if !((l.any fun r => r.kind == 5 && r.stack == 0) && l.any fun r => r.kind == 5 && r.stack == 1) then (4, 255)
          else match l.find? (placeBad l) with
            | some r => (5, r.entry)
            | none => if barred then (6, 255) else (0, 255)

/-- The conditions that bar a plan change (R278). -/
def State.planBarred (s : State) : Bool :=
  (List.range 4).any s.easelRuns || (withIndex s.views).any (fun v => regOn v.2.inForce F.VIEW_CTRL_enable v.1)
    || s.on F.LZP_CTRL_enable 0 || s.on F.LZP_CTRL_enable 1 || s.anyTakeOpen
    || (List.range 16).any (fun x => s.rd F.VCD_SC_STATUS_state x != 0) || s.on F.AUD_REC_CTRL_run

/-- HBM_PLAN_COMMIT (R278): the barring conditions are evaluated at the write; a go while pending is ignored. -/
def execHbmPlanCommit (s : State) : Out :=
  if s.planPending then .next s
  else .next ((s.wr F.HBM_PLAN_COMMIT_pending 1).updHbm fun h => { h with check := some (s.planEntries, s.planBarred) })

/-- The plan check ends (R278): a plan that passes is in force, a refused one leaves the old plan. -/
def State.planDecide (s : State) : State :=
  match s.hbm.check with
  | none => s
  | some (l, barred) =>
    let r := planResult l barred
    let t := (((s.wr F.HBM_PLAN_COMMIT_pending 0).updHbm fun h => { h with check := none }).wr F.HBM_PLAN_COMMIT_result r.1).wr
      F.HBM_PLAN_COMMIT_entry r.2
    if r.1 = 0 then (t.wr F.HBM_PLAN_COMMIT_active 1).updHbm fun h => { h with plan := l }
    else (t.wr F.HBM_PLAN_COMMIT_plan_bad 1).raise 0 Ev.HBM_PLAN_BAD []

/-- A structure of n bytes lies inside one region of a kind and owner of the plan in force (R279). -/
def State.inRegion (s : State) (a n kind owner : Nat) : Bool :=
  s.hbm.plan.any fun r => r.kind == kind && r.owner == owner && decide (r.base * 4096 ≤ a) && decide (a + n ≤ (r.base + r.size) * 4096)

/-- The start and size in bytes of the region of a kind and owner in a stack. -/
def State.regionIn (s : State) (kind owner k : Nat) : Option (Nat × Nat) :=
  (s.hbm.plan.find? fun r => r.kind == kind && r.owner == owner && r.stack == k).map fun r => (r.base * 4096, r.size * 4096)

/-- An address range that a barrow may read (R265, R266, R280). -/
def barrowReadable (a n : Nat) : Bool :=
  decide (a + n ≤ plannable * 4096) || (decide (0x1000000000 ≤ a) && decide (a + n ≤ 0x1000000000 + plannable * 4096))

/-! ### Canvases -/

/-- An easel's canvas. -/
def State.canvas (s : State) (e : Nat) : CanvasSt := s.hbm.canvases.getD e CanvasSt.init

def State.updCanvas (s : State) (e : Nat) (f : CanvasSt → CanvasSt) : State :=
  s.updHbm fun h => { h with canvases := updAt h.canvases e f }

/-- HBM_CANVAS_STATUS.free follows the slots. -/
def State.canvasCount (s : State) (e : Nat) : State :=
  s.wr F.HBM_CANVAS_STATUS_free ((s.canvas e).slots.filter fun x => x.st == .free).length e

/-- A change of one slot. -/
def State.updSlot (s : State) (e k : Nat) (f : Slot → Slot) : State :=
  (s.updCanvas e fun c => { c with slots := updAt c.slots k f }).canvasCount e

/-- The canvas is laid out when an easel opens (R281, R282). -/
def State.canvasOpen (s : State) (e : Nat) : State :=
  let cols := s.rd F.EASEL_GEOM_width e / 64
  let t := ceilDiv (s.rd F.EASEL_GEOM_height e / 32) 2 * cols
  let size := t * 4096 + ceilDiv (16 * t) 4096 * 4096
  let r0 := s.regionIn 1 e 0
  let r1 := s.regionIn 1 e 1
  let n := match r0, r1 with
    | some a, some b => min 64 (min (a.2 / size) (b.2 / size))
    | _, _ => 0
  let c : CanvasSt := { slots := List.replicate n { st := .free, serial := 0, holds := [] }, next := 0, size := size,
                        base0 := (r0.getD (0, 0)).1, base1 := (r1.getD (0, 0)).1, cols := cols, tiles := t }
  let s1 := (((s.updCanvas e fun _ => c).wr F.HBM_CANVAS_STATUS_slots n e).wr F.HBM_CANVAS_SLOT_slot_4k (size / 4096) e).canvasCount e
  if n = 0 then s1.raise 0 Ev.HBM_CANVAS_NONE [] else s1

/-- The start of slot k's part in a stack (R281). -/
def CanvasSt.part (c : CanvasSt) (k stack : Nat) : Nat := (if stack = 0 then c.base0 else c.base1) + k * c.size

/-- The address of a tile's data, by tile index (R27, R281). -/
def CanvasSt.tileAddr (c : CanvasSt) (k tile : Nat) : Nat :=
  let b := tile / max 1 c.cols
  c.part k (b % 2) + (b / 2 * c.cols + tile % max 1 c.cols) * 4096

/-- The address of a tile's Tile Record (R281). -/
def CanvasSt.recAddr (c : CanvasSt) (k tile : Nat) : Nat :=
  let b := tile / max 1 c.cols
  c.part k (b % 2) + c.tiles * 4096 + (b / 2 * c.cols + tile % max 1 c.cols) * 16

/-- A slot with nothing left to hold it is FREE: settled, or scraped with every reader gone (R283, R285). -/
def State.slotCheck (s : State) (e k : Nat) : State :=
  s.updSlot e k fun x => if x.holds.isEmpty && (x.st == .settled || x.st == .scraped) then { x with st := .free } else x

/-- A holder's hold on a slot part. -/
def State.takeHold (s : State) (e k part : Nat) (h : Holder) : State :=
  s.updSlot e k fun x => { x with holds := (part, h) :: x.holds.filter (· ≠ (part, h)) }

/-- A holder releases a slot part (R285). -/
def State.releaseHold (s : State) (e k part : Nat) (h : Holder) : State :=
  (s.updSlot e k fun x => { x with holds := x.holds.filter (· ≠ (part, h)) }).slotCheck e k

/-- CANVAS_HOLD_RELEASE (R285). -/
def execCanvasHoldRelease (e slot part : Nat) (h : Holder) (s : State) : Out := .next (s.releaseHold e slot part h)

/-- The next FREE slot in ring order (R283). -/
def State.freeSlot (s : State) (e : Nat) : Option Nat :=
  let c := s.canvas e
  ((List.range c.slots.length).map fun i => (c.next + i) % c.slots.length).find? fun k =>
    match c.slots[k]? with
    | some x => x.st == .free
    | none => false

/-- A slot goes to a frame (R283): WET, its Tile Records zero, with the recording holds of its take on both parts. The hold of a barrow that
still reads it lasts (R285). -/
def State.takeSlot (s : State) (e k serial : Nat) (holders : List Holder) : State :=
  let c := s.canvas e
  let t := (s.updSlot e k fun x =>
      { st := .wet, serial := serial, holds := (holders.flatMap fun h => [(0, h), (1, h)]) ++ x.holds }).updCanvas e fun c =>
    { c with next := (k + 1) % max 1 c.slots.length }
  let zero := List.replicate (16 * c.tiles) (0 : Byte)
  ((t.put (c.part k 0 + c.tiles * 4096) zero).put (c.part k 1 + c.tiles * 4096) zero)

/-- The slot a frame holds, if it still does. -/
def State.slotOf (s : State) (e serial : Nat) : Option Nat :=
  (s.canvas e).slots.findIdx? fun x => x.serial == serial && x.st != .free

/-- The canvas slot part an HBM address lies in: easel, slot and stack. -/
def State.slotAt (s : State) (a : Nat) : Option (Nat × Nat) :=
  (List.range 4).findSome? fun e =>
    let c := s.canvas e
    ((List.range c.slots.length).find? fun k =>
      (decide (c.part k 0 ≤ a) && decide (a < c.part k 0 + c.size)) || (decide (c.part k 1 ≤ a) && decide (a < c.part k 1 + c.size))).map fun k => (e, k)

end Sys2Proof.Machine
end

