-- ==== Sys2Proof/Machine/Calib.lean ====
section
/-! DEFINITION. Conditioning commits, the black estimate, and calibration runs (spec/05). -/
namespace Sys2Proof.Machine

/-! ### Commits -/

/-- COND_COMMIT (R178, R179): the check of the shadows starts; a go while pending is refused. -/
def execCondCommit (e : Nat) (s : State) : Out :=
  if s.on F.COND_COMMIT_pending e then .next (s.wr F.COND_FLAGS_cfg_refused 1 e)
  else .next ((s.wr F.COND_COMMIT_pending 1 e).updCond e fun c => { c with check := some (s.condShadow e) })

/-- A set of shadow registers with no tables. -/
def bareSet (r : RegStore) : CondSet := { regs := r, map := [], colgain := [], shade := [] }

/-- A 64-bit address held by a LO and HI pair of a set. -/
def CondSet.addr (c : CondSet) (lo hi : Fld) (e : Nat) : Nat := c.rd lo e + 4294967296 * c.rd hi e

/-- A table of n bytes of a set: its address is a multiple of 64 and lies in a TABLE region (R279). -/
def State.tableOk (s : State) (c : CondSet) (lo hi : Fld) (e n : Nat) : Bool :=
  c.addr lo hi e % 64 == 0 && s.inRegion (c.addr lo hi e) n 7 0

/-- The defect map a set names is empty, or lies in a TABLE region (R279). -/
def State.mapPlaced (s : State) (e : Nat) (c : CondSet) : Bool :=
  c.rd F.COND_MAP_COUNT_value e == 0
    || s.tableOk c F.COND_MAP_BASE_LO_value F.COND_MAP_BASE_HI_value e (4 * c.rd F.COND_MAP_COUNT_value e)

/-- The values of a set lie in their stated ranges, and the tables of its enabled stages in TABLE regions (R177, R178, R279). -/
def State.condRanges (s : State) (e : Nat) (c : CondSet) : Bool :=
  decide (0x400 ≤ c.rd F.COND_FUSE_RATIO_ratio e) && decide (c.rd F.COND_BLACK_CFG_shift e ≤ 8)
    && decide (c.rd F.COND_COLFPN_CFG_shift e ≤ 8)
    && ((List.range 4).all fun k => fpWithin (c.rd F.COND_WB_value e k) (1, 4) (16, 1))
    && fpWithin (c.rd F.COND_OUT_GAIN_value e) (1, 256) (16, 1)
    && (!c.on F.COND_STAGES_colgain e || s.tableOk c F.COND_COLGAIN_BASE_LO_value F.COND_COLGAIN_BASE_HI_value e
        (2 * s.rd F.EASEL_GEOM_width e))
    && (!c.on F.COND_STAGES_shade e || s.tableOk c F.COND_SHADE_BASE_LO_value F.COND_SHADE_BASE_HI_value e 17160)
    && (decide (262144 < c.rd F.COND_MAP_COUNT_value e) || s.mapPlaced e c)

/-- The defect map a set names, an entry free where its read is uncorrectable (R272). -/
def State.mapOf (s : State) (e : Nat) (c : CondSet) : List Nat :=
  (List.range (c.rd F.COND_MAP_COUNT_value e)).map fun k =>
    ofLe (s.fetch (c.addr F.COND_MAP_BASE_LO_value F.COND_MAP_BASE_HI_value e + 4 * k) 4)

/-- The first entry of a defect map that fails R171, counting from a place and the value of the entry before. -/
def mapFault (w h : Nat) : Nat → Option Nat → List Nat → Option Nat
  | _, _, [] => none
  | k, prev, m :: rest =>
    let good := decide (bitsOf m 29 15 < h) && decide (bitsOf m 14 0 < w) && decide (bitsOf m 31 30 < 2)
      && (match prev with | some p => decide (p < bitsOf m 29 0) | none => true)
    if good then mapFault w h (k + 1) (some (bitsOf m 29 0)) rest else some k

/-- The map of the shadows being checked cannot be read yet (R269, R270). -/
def State.mapWaits (s : State) (e : Nat) : Bool :=
  match (s.condOf e).check with
  | none => false
  | some r =>
    let c := bareSet r
    c.rd F.COND_MAP_COUNT_value e != 0 && s.mapPlaced e c
      && s.hbmWaits (c.addr F.COND_MAP_BASE_LO_value F.COND_MAP_BASE_HI_value e) (4 * c.rd F.COND_MAP_COUNT_value e)

/-- COND_COMMIT_CHECK_DONE (R171, R177, R178): the set waits for its frame-start, or is refused with cfg_bad or map_bad. The map is checked
whatever the other shadows hold, unless it lies outside every TABLE region. EV_COND_MAP_BAD of a count above 262,144 names 262144, the first
index that cannot stand (DESIGN CHOICE, log 134). -/
def execCondCommitCheckDone (e : Nat) (s : State) : Out :=
  if s.planPending || s.mapWaits e then .next s
  else match (s.condOf e).check with
    | none => .next s
    | some r =>
      let c := bareSet r
      let big := decide (262144 < c.rd F.COND_MAP_COUNT_value e)
      let t := (s.hbmRead (c.addr F.COND_MAP_BASE_LO_value F.COND_MAP_BASE_HI_value e) (if big ∨ s.mapPlaced e c = false then 0
        else 4 * c.rd F.COND_MAP_COUNT_value e)).updCond e fun c => { c with check := none }
      let ranges := s.condRanges e c
      let map := if big ∨ s.mapPlaced e c = false then [] else s.mapOf e c
      let bad := if big then some 262144 else mapFault (s.rd F.EASEL_GEOM_width e) (s.rd F.EASEL_GEOM_height e) 0 none map
      let t1 := t.whenB (!ranges) fun s => s.wr F.COND_FLAGS_cfg_bad 1 e
      match bad with
      | some k => .next (((t1.wr F.COND_FLAGS_map_bad 1 e).raise 0 Ev.COND_MAP_BAD (le 4 k)).wr F.COND_COMMIT_pending 0 e)
      | none =>
        if ranges then .next (t1.updCond e fun c => { c with ready := some (r, map) })
        else .next (t1.wr F.COND_COMMIT_pending 0 e)

/-! ### The black estimate -/

/-- BLACK_ESTIMATE_DONE (R165, R166, R169): the row source's B(c) is complete. waited: a brush reached row 0 before. -/
def execBlackEstimateDone (e serial : Nat) (waited : Bool) (s : State) : Out :=
  match s.frame e serial, s.condFrame e serial with
  | some f, some cf =>
    if f.blackSource = 1 ∧ cf.black = none then
      let t := (s.updCondFrame e serial fun x => { x with black := some (s.blacks e f cf 0), waited := waited }).reportWeak e cf
        (s.weakChannels e f cf 0)
      .next (t.whenB waited fun s => (s.bump F.COND_CNT_black_wait e).raise 0 Ev.COND_BLACK_WAIT [])
    else .next s
  | _, _ => .next s

/-! ### Calibration runs -/

/-- No sums. -/
def CalSums.zero : CalSums := { black := List.replicate 4 (0, 0), cols := [], fuse := [], hits := [] }

/-- Easel kinds are 1 to 5, half kinds 6 and 7 (R180). -/
def easelKind (kind : Nat) : Bool := decide (kind ≤ 5)

/-- The runs of a scope. -/
def State.calRuns (s : State) (kind target : Nat) : List CalRun :=
  if easelKind kind then (s.condOf target).runs else (s.condHalf.getD target HalfCal.init).runs

def State.setRuns (s : State) (kind target : Nat) (f : List CalRun → List CalRun) : State :=
  if easelKind kind then s.updCond target fun c => { c with runs := f c.runs }
  else { s with condHalf := updAt s.condHalf target fun c => { c with runs := f c.runs } }

/-- A change of the run of a kind. -/
def State.updRun (s : State) (kind target : Nat) (f : CalRun → CalRun) : State :=
  s.setRuns kind target fun l => l.map fun r => if r.kind = kind then f r else r

/-- A half kind is running (COND_HALF_STATUS). -/
def State.halfRunning (s : State) (kind target : Nat) : State :=
  if easelKind kind then s
  else s.wr F.COND_HALF_STATUS_running (b2n ((s.calRuns kind target).any CalRun.running)) target

/-- The frames a run of a kind takes (R180, R185): the requested count, and 256 for 0. -/
def calFrames (kind n : Nat) : Nat :=
  if kind = 1 then 8 else if kind = 2 then 64 else if kind = 3 ∨ kind = 4 then (if n = 0 then 256 else n) else 0

/-- A new run of a kind. -/
def State.newRun (s : State) (kind target frames : Nat) (cmds : List Nat) (auto forced : Bool) : CalRun :=
  let acc := if easelKind kind then (s.easels.getD target EaselSt.init).accepted else 0
  let next := match (s.easels.getD target EaselSt.init).frames with | f :: _ => f.serial + 1 | [] => 0
  { kind := kind, cmds := cmds, auto := auto, forced := forced, running := forced, since := acc,
    first := if easelKind kind then next else 0, need := calFrames kind frames, taken := 0, sums := CalSums.zero, last := 0 }

/-- The easel lacks what a kind draws on (R184): no optical-black source, no optical-black rows, a single-gain format. -/
def State.calNoSource (s : State) (kind target : Nat) : Bool :=
  let rows := s.rd F.EASEL_FMT_ob_rows target
  if kind = 1 then decide (rows < 4) && decide (s.rd F.EASEL_FMT_ob_cols target < 16)
  else if kind = 2 then rows == 0
  else if kind = 3 then decide (s.rd F.EASEL_FMT_format target < 2)
  else false

/-- A malformed COND_CAL (R185, R186), or a SELFTEST on a session of another role than Service (R191; log 110). -/
def calBad (c : Cmd) (role : Nat) : Bool :=
  let kind := c.b 16
  let n := c.h 20
  decide (kind < 1) || decide (7 < kind) || decide ((if kind ≤ 5 then 4 else 2) ≤ c.b 17) || decide (2 ≤ c.b 18)
    || c.b 19 != 0 || !zeroBytes c.desc 36 64
    || (kind == 3 && n != 0 && (decide (n < 16) || decide (256 < n)))
    || (kind == 4 && n != 0 && (decide (n < 16) || decide (4096 < n)))
    || (kind == 4 && c.d 24 % 64 != 0) || (kind == 7 && role != 3)

/-- COND_CAL (R185 to R187): refused, joined to the run of its kind, or a run of its own. A forced request without its source ends with
CAL_NO_SOURCE while a take is open too (DESIGN CHOICE, log 134). -/
def execCondCal (id : Nat) (s : State) : Out :=
  .next (s.startCmd id 0x02 fun c s =>
    let kind := c.b 16
    let target := c.b 17
    let forced := c.b 18 == 1
    if calBad c (s.rd F.RING_SQ_STATUS_role c.ring) then s.complete id St.CAL_BAD_REQ
    else if easelKind kind && s.calNoSource kind target then s.complete id St.CAL_NO_SOURCE
    else if forced && s.anyTakeOpen then s.complete id St.CAL_TAKE_OPEN
    else match (s.calRuns kind target).find? (fun r => r.kind == kind) with
      | none => (s.setRuns kind target fun l => l ++ [s.newRun kind target (c.h 20) [id] false forced]).halfRunning kind target
      | some _ => (s.updRun kind target fun r =>
          if forced then { s.newRun kind target (c.h 20) (r.cmds ++ [id]) r.auto true with auto := r.auto }
          else { r with cmds := r.cmds ++ [id] }).halfRunning kind target)

/-- A kind becomes due (R183, R184): an automatic run joins the one that waits, which is then both a request and automatic, or is served by
the one that runs; else it waits to start. -/
def State.calDue (s : State) (e kind : Nat) : State :=
  if s.calNoSource kind e then s
  else if (s.calRuns kind e).any (fun r => r.kind == kind) then s.updRun kind e fun r => if r.running then r else { r with auto := true }
  else s.setRuns kind e fun l => l ++ [s.newRun kind e 0 [] true false]

/-- The kinds 1 to 5 whose auto bit is set (R183). -/
def State.autoKinds (s : State) (e : Nat) : List Nat :=
  (List.range 5).filterMap fun k => if bitOf (s.rd F.COND_CAL_CFG_auto e) k then some (k + 1) else none

/-- A half's brushes are at work on a band they have taken (R180, R182). -/
def State.brushBusy (s : State) (h : Nat) : Bool :=
  s.brush.taken.any fun b => b.2.2 % 2 == h && match s.frame b.1 b.2.1 with
    | some f => f.st != .scraped && (List.range (f.width / 64)).any fun x => !s.brush.closed.contains (b.1, b.2.1, b.2.2 * (f.width / 64) + x)
    | none => false

/-- The easel is in a vertical blank: no frame of it takes rows (R180, R187). That the blank lasts 20 µs is what the command says (log 134). -/
def State.inBlank (s : State) (e : Nat) : Bool := (s.current e).isNone

/-- CAL_RUN_START (R180, R182, R187): a waiting run starts. A frame kind starts at a frame-start accepted since the request, and
takes that frame; LINK starts only in a vertical blank; SELFTEST only while no band is ready on its half and its brushes are idle. -/
def execCalRunStart (kind target : Nat) (s : State) : Out :=
  match (s.calRuns kind target).find? (fun r => r.kind == kind) with
  | none => .next s
  | some r =>
    let x := s.easels.getD target EaselSt.init
    if r.running then .next s
    else if kind ≤ 4 then
      match (x.frames.take (x.accepted - r.since)).reverse with
      | f :: _ => .next (s.updRun kind target fun r => { r with running := true, first := f.serial })
      | [] => .next s
    else if kind = 5 ∧ s.inBlank target = false then .next s
    else if kind = 7 ∧ (!(s.brush.ready.getD target []).isEmpty || s.brushBusy target) = true then .next s
    else .next ((s.updRun kind target fun r => { r with running := true }).halfRunning kind target)

/-! ### What a DRY frame gives a run -/

/-- Sums by column added together. -/
def addFuse (a b : List (Nat × Int × Int × Nat)) : List (Nat × Int × Int × Nat) :=
  b.foldl (fun l x => if l.any (fun y => y.1 == x.1) then
      l.map fun y => if y.1 = x.1 then (y.1, y.2.1 + x.2.1, y.2.2.1 + x.2.2.1, y.2.2.2 + x.2.2.2) else y
    else l ++ [x]) a

/-- A column mean added to the sum of its column. -/
def addCol (a : List (Nat × Frac × Nat)) (b : List (Nat × Frac)) : List (Nat × Frac × Nat) :=
  b.foldl (fun l x => if l.any (fun y => y.1 == x.1) then
      l.map fun y => if y.1 = x.1 then (y.1, Frac.norm (Frac.add y.2.1 x.2), y.2.2 + 1) else y
    else l ++ [(x.1, x.2, 1)]) a

/-- A hit counted for each entry. -/
def addHits (a : List (Nat × Nat)) (b : List Nat) : List (Nat × Nat) :=
  b.foldl (fun l x => if l.any (fun y => y.1 == x) then l.map fun y => if y.1 = x then (y.1, y.2 + 1) else y
    else l ++ [(x, 1)]) a

/-- The mean of each column's optical-black row samples less B(c) of the sample's channel (R174). -/
def State.columnMeans (s : State) (e : Nat) (f : Frame) (cf : CondFrame) : List (Nat × Frac) :=
  let black := s.frameBlack e f cf
  let rows := (s.rowsOf e f.serial true).map fun r => (r.index, cf.set.obRow e f r)
  (List.range f.width).filterMap fun x =>
    let l := rows.flatMap fun r => (r.2.filter fun p => p.1 == f.obCols + x).map fun p =>
      Frac.sub (p.2, 1) (black.getD (channel x (r.1 + f.obRows)) (0, 1))
    match l with
    | [] => none
    | _ => some (x, Frac.norm (Frac.mul (l.foldl (fun a b => Frac.norm (Frac.add a b)) (0, 1)) (1, l.length)))

/-- The black samples of a frame within their window by channel: sum and number (R165, R180). -/
def State.blackSums (s : State) (e : Nat) (f : Frame) (cf : CondFrame) : List (Int × Nat) :=
  (List.range 4).map fun ch =>
    let l := if f.blackSource = 1 then cf.set.obSamples e f (s.rowsOf e f.serial true) ch
      else cf.set.colSamples e f (s.rowsOf e f.serial false) ch
    let kept := cf.set.inWindow e (cf.filt.getD ch (0, 1)) l
    (sumInt kept, kept.length)

/-- The sums of a run with a frame's part added (R180, R181). -/
def State.addFrame (s : State) (e : Nat) (f : Frame) (cf : CondFrame) (r : CalRun) : CalRun :=
  let a := r.sums
  let sums : CalSums :=
    if r.kind = 1 then { a with black := (a.black.zip (s.blackSums e f cf)).map fun p => (p.1.1 + p.2.1, p.1.2 + p.2.2) }
    else if r.kind = 2 then { a with cols := addCol a.cols (s.columnMeans e f cf) }
    else if r.kind = 3 then { a with fuse := addFuse a.fuse cf.fuse }
    else { a with hits := addHits a.hits cf.hits }
  { r with sums := sums, taken := r.taken + 1, last := f.serial }

/-- Running frame kinds take a frame that settled DRY (R181, R187). -/
def State.calFrame (s : State) (e : Nat) (f : Frame) (cf : CondFrame) : State :=
  let add := fun r : CalRun =>
    if r.running && decide (r.kind ≤ 4) && decide (r.first ≤ f.serial) && decide (r.taken < r.need) then s.addFrame e f cf r else r
  s.updCond e fun c => { c with runs := c.runs.map add }

/-- The column table after a DRY frame that used the row source (R174). -/
def State.columnUpdate (s : State) (e : Nat) (f : Frame) (cf : CondFrame) : State :=
  if f.blackSource ≠ 1 then s
  else
    let means := s.columnMeans e f cf
    let lim := cf.set.rd F.COND_COLFPN_CFG_clamp e
    let k := cf.set.rd F.COND_COLFPN_CFG_shift e
    let old := (s.condOf e).table
    let entry := fun x : Nat =>
      let a := old.getD x 0
      match means.find? (fun m => m.1 == x) with
      | some m => columnEntry lim (a + openRound 1 (Frac.shr (Frac.sub (Frac.mul m.2 (16, 1)) (a, 1)) k))
      | none => a
    s.updCond e fun c => { c with table := (List.range f.width).map entry }

/-- What the black unit shows of a frame that settled DRY or DAMAGED: COND_BLACK_EST. -/
def State.showBlack (s : State) (e : Nat) (f : Frame) (cf : CondFrame) : State :=
  let b := (s.frameBlack e f cf).map blackCode
  (((s.wr F.COND_BLACK_EST01_even (b.getD 0 0) e).wr F.COND_BLACK_EST01_odd (b.getD 1 0) e).wr F.COND_BLACK_EST23_even (b.getD 2 0) e).wr
    F.COND_BLACK_EST23_odd (b.getD 3 0) e

/-- The settle notice of a frame at the column tables and calibrations (R153, R174, R181). -/
def State.columnNotice (s : State) (e serial : Nat) : State :=
  match s.frame e serial, s.condFrame e serial with
  | some f, some cf =>
    let t := s.whenB f.isDry fun s => s.showBlack e f cf
    if f.st = .dry then (t.columnUpdate e f cf).calFrame e f cf else t
  | _, _ => s

/-! ### The pace meters -/

/-- The domain a meter of a half stands beside (R56). -/
def meterDomain (h m : Nat) : Nat :=
  if m < 16 then 10 + 4 * h + m / 4
  else if m < 20 then 18 + h
  else if m < 24 then 20 + h
  else if m < 26 then 22 + h
  else if m < 28 then 24 + h
  else if m < 30 then 26 + h
  else if h = 0 then 28 else 30

/-- The faulty meters of a half. -/
def faultyFld (h : Nat) : Fld := if h = 0 then F.GLB_PACE_FAULT_W_faulty else F.GLB_PACE_FAULT_E_faulty

/-- The gate of 40.96 µs in units of 1/64 ps (R61). -/
def paceGate : Nat := 2621440000

/-- The meters of a half counted in a sample, with their counts: domain powered and released, not faulty, and a count (R57 to R59). -/
def State.metersCounted (s : State) (h : Nat) (counts : List (Option Nat)) : List (Nat × Nat) :=
  (withIndex (counts.take 32)).filterMap fun p =>
    match p.2 with
    | some c => if s.released (meterDomain h p.1) && !bitOf (s.rd (faultyFld h)) p.1 && decide (0 < c) then some (p.1, c) else none
    | none => none

/-- Periods in rising order: counts in falling order. -/
def insertFrac (x : Frac) : List Frac → List Frac
  | [] => [x]
  | y :: ys => if Frac.le x y then x :: y :: ys else y :: insertFrac x ys

/-- The median of exact periods (R59). -/
def paceMedian (l : List Frac) : Frac :=
  let a := l.foldr insertFrac []
  let n := a.length
  if n % 2 = 1 then a.getD (n / 2) (0, 1)
  else Frac.mul (Frac.add (a.getD (n / 2 - 1) (0, 1)) (a.getD (n / 2) (0, 1))) (1, 2)

/-! ### Ends of runs -/

/-- A completed run counts, with the time it ended, in its registers and in the device ledger (R189). -/
def State.calStamp (s : State) (kind target : Nat) : State :=
  let sec := ptpSeconds s.now
  let ns := ptpNanos s.now
  let free := b2n s.ptpUnlocked
  let t := if easelKind kind then
      (((((s.bump F.COND_CAL_RUNS_runs target (kind - 1)).wr F.COND_CAL_LAST_S_LO_s_lo sec target (kind - 1)).wr
        F.COND_CAL_LAST_S_HI_s_hi (sec / 4294967296) target (kind - 1)).wr F.COND_CAL_LAST_S_HI_valid 1 target (kind - 1)).wr
        F.COND_CAL_LAST_S_HI_free_run free target (kind - 1)).wr F.COND_CAL_LAST_NS_ns ns target (kind - 1)
    else
      (((((s.bump F.COND_HCAL_RUNS_runs target (kind - 6)).wr F.COND_HCAL_LAST_S_LO_s_lo sec target (kind - 6)).wr
        F.COND_HCAL_LAST_S_HI_s_hi (sec / 4294967296) target (kind - 6)).wr F.COND_HCAL_LAST_S_HI_valid 1 target (kind - 6)).wr
        F.COND_HCAL_LAST_S_HI_free_run free target (kind - 6)).wr F.COND_HCAL_LAST_NS_ns ns target (kind - 6)
  let runs := if easelKind kind then t.rd F.COND_CAL_RUNS_runs target (kind - 1) else t.rd F.COND_HCAL_RUNS_runs target (kind - 6)
  (t.tick).ledgerAdd 3 (8 * kind + target) [runs, sec, ns, free]

/-- A run's result has taken effect: its commands complete and EV_COND_CAL_DONE is raised. -/
def State.calDone (s : State) (kind target status : Nat) (cmds : List Nat) : State :=
  (s.each cmds fun s id => s.complete id status).raise (if easelKind kind then 0 else target) Ev.COND_CAL_DONE []

/-- The map entries DPC lists: those hit in at least min_hits frames, half of the frames for 0 (R185, R188). -/
def dpcList (r : CalRun) (minHits : Nat) : List Nat :=
  let need := if minHits = 0 then r.need / 2 else minHits
  sortNat ((r.sums.hits.filter fun h => decide (need ≤ h.2)).map fun h => h.1)

/-- A DPC request's candidates written to its buffer, and its completion (R188). -/
def State.dpcReply (s : State) (r : CalRun) (id : Nat) : State :=
  match s.cmd id with
  | none => s
  | some c =>
    let found := dpcList r (c.h 22)
    let out := found.take (c.w 32)
    let t := if out.isEmpty then s else s.emit (.hostWrite (c.d 24) (out.flatMap (le 4)))
    t.complete id St.OK found.length

/-- A LINK result moves the sampling phase of each lane of the set by at most 1/64 UI (R180). -/
def State.movePhases (s : State) (e : Nat) (moves : List Int) : State :=
  s.each (withIndex ((s.easelGroups e).flatMap fun g => (List.range 12).map fun m => (g, m))) fun s p =>
    s.updLane p.2.1 p.2.2 fun l => { l with phase := l.phase + clampInt (-1) 1 (moves.getD p.1 0) }

/-- The correction of a pace meter (R180): its half's median less its period over the gate, in 1/64 ps; a meter that is not counted keeps
its own (DESIGN CHOICE, log 108). -/
def State.paceCorrections (s : State) (h : Nat) (counts : List (Option Nat)) : List Frac :=
  let got := s.metersCounted h counts
  let med := paceMedian (got.map fun p => Frac.mk' paceGate p.2)
  (withIndex (s.condHalf.getD h HalfCal.init).corr).map fun p =>
    match got.find? fun g => g.1 == p.1 with
    | some g => Frac.norm (Frac.sub med (Frac.mk' paceGate g.2))
    | none => p.2

/-- The trigger temperature is kept at a kind's completed run (R183). -/
def State.keepTrigger (s : State) (kind e : Nat) : State :=
  s.updCond e fun c => { c with temps := c.temps.set (kind - 1) c.trigger }

/-- A run that has taken what it needs ends with its result (R180, R181, R187 to R189). -/
def State.calEnded (s : State) (kind target : Nat) (values : List Int) (r : CalRun) : State :=
  let t := ((s.setRuns kind target fun l => l.filter fun x => x.kind ≠ kind).halfRunning kind target).calStamp kind target
  let t := if easelKind kind then t.keepTrigger kind target else t
  if kind ≤ 3 then t.updCond target fun c => { c with results := c.results ++ [r] }
  else if kind = 4 then (t.each r.cmds fun s id => s.dpcReply r id).raise 0 Ev.COND_CAL_DONE []
  else if kind = 5 then (t.movePhases target values).calDone kind target St.OK r.cmds
  else if kind = 6 then
    let corr := s.paceCorrections target (values.map fun v => if 0 < v then some v.toNat else none)
    ({ t with condHalf := updAt t.condHalf target fun c => { c with corr := corr } }).calDone kind target St.OK r.cmds
  else if values.isEmpty then (t.wr F.COND_HALF_STATUS_fail 0 target).calDone kind target St.OK r.cmds
  else (((t.wr F.COND_HALF_STATUS_fail 1 target).wr F.COND_HALF_STATUS_fail_brush (listMin (values.map Int.toNat)) target).raise
    target Ev.COND_SELFTEST_FAIL []).calDone kind target St.SELFTEST_FAIL r.cmds

/-- CAL_RUN_END (R180, R181, R187 to R189). values: LINK phase moves by lane, the counts of a half's pace meters over one gate (0 for a meter
without one), or the brushes that failed SELFTEST. A LINK or PACE result takes effect as its run ends (DESIGN CHOICE, log 108). -/
def execCalRunEnd (kind target : Nat) (values : List Int) (s : State) : Out :=
  match (s.calRuns kind target).find? (fun r => r.kind == kind) with
  | none => .next s
  | some r =>
    if r.running = false ∨ (kind ≤ 4 ∧ r.taken < r.need) then .next s else .next (s.calEnded kind target values r)

/-- CAL_DEFER_TIMEOUT (R184): a run that still waits for a blank or idle brushes is given up. -/
def execCalDeferTimeout (kind target : Nat) (s : State) : Out :=
  match (s.calRuns kind target).find? (fun r => r.kind == kind) with
  | none => .next s
  | some r =>
    if r.running ∨ (kind ≠ 5 ∧ kind ≠ 7) then .next s
    else
      let t := (s.setRuns kind target fun l => l.filter fun x => x.kind ≠ kind).each r.cmds fun s id => s.complete id St.BUSY
      if r.auto then
        .next (((t.wr F.COND_FLAGS_cal_skipped 1 target).updCond target fun c => { c with skipped := c.skipped ++ [kind] }).raise 0
          Ev.COND_CAL_SKIPPED [])
      else .next t

/-- The skipped kinds are due again when the last open take closes (R184). -/
def State.calTakesClosed (s : State) : State :=
  if s.anyTakeOpen then s
  else s.each (List.range 4) fun s e =>
    let l := (s.condOf e).skipped
    (s.updCond e fun c => { c with skipped := [] }).each l fun s k => s.calDue e k

/-! ### Frame-starts -/

/-- The result of a BLACK run: the mean of each channel, or S(c) where too few samples came (R165, R180). -/
def calBlack (c : CondSet) (e : Nat) (r : CalRun) (filt : List Frac) : List Frac :=
  (withIndex r.sums.black).map fun p =>
    if p.2.2 < 64 * c.rd F.COND_BLACK_CFG_min_k e ∨ p.2.2 = 0 then filt.getD p.1 (0, 1) else fp (p.2.1, p.2.2)

/-- A column gain from its sums, in 2.14 (R180). -/
def calGain (hm lm : Int) : Nat :=
  if 0 < lm ∧ 0 ≤ hm then
    let v := openRound 2 (hm * 1024 * 16384, lm.toNat)
    if v < 65536 then v.toNat else (Config.fuseGain hm lm).toNat
  else (Config.fuseGain hm lm).toNat

/-- A run's result replaces its part (R180, R181, R190). The serial that later records name as the source of a BLACK run's S is that of the
last frame that contributed (DESIGN CHOICE, log 109). -/
def State.calApply (s : State) (e : Nat) (r : CalRun) : State :=
  let t := s.updCond e fun c =>
    if r.kind = 1 then { c with filt := calBlack c.inForce e r c.filt, src := r.last }
    else if r.kind = 2 then
      let lim := c.inForce.rd F.COND_COLFPN_CFG_clamp e
      let n := max c.table.length (listMax (r.sums.cols.map fun p => p.1 + 1))
      let entry := fun x : Nat => match r.sums.cols.find? (fun p => p.1 == x) with
        | some p => columnEntry lim (openRound 3 (Frac.mul (Frac.mul p.2.1 (16, 1)) (1, p.2.2)))
        | none => c.table.getD x 0
      { c with table := (List.range n).map entry }
    else
      let n := max c.inForce.colgain.length (listMax (r.sums.fuse.map fun p => p.1 + 1))
      let gains := (List.range n).map fun x => match r.sums.fuse.find? (fun p => p.1 == x) with
        | some p => if 64 ≤ p.2.2.2 then calGain p.2.1 p.2.2.1 else c.inForce.colgain.getD x 16384
        | none => c.inForce.colgain.getD x 16384
      { c with inForce := { c.inForce with colgain := gains } }
  t.calDone r.kind e St.OK r.cmds

/-- 2-byte entries read from HBM, free where the read is uncorrectable (R272). -/
def State.loadTable (s : State) (a n : Nat) : List Nat := (List.range n).map fun k => ofLe (s.fetch (a + 2 * k) 2)

/-- The tables of the enabled stages of a set cannot be read yet (R269, R270). -/
def State.tablesWait (s : State) (e : Nat) (c : CondSet) : Bool :=
  (c.on F.COND_STAGES_colgain e && s.hbmWaits (c.addr F.COND_COLGAIN_BASE_LO_value F.COND_COLGAIN_BASE_HI_value e) 2)
    || (c.on F.COND_STAGES_shade e && s.hbmWaits (c.addr F.COND_SHADE_BASE_LO_value F.COND_SHADE_BASE_HI_value e) 17160)

/-- A pending set takes effect (R164, R178, R279). Its tables are held against the plan then in force, and a set that fails is given up with
cfg_bad; one whose tables no stack takes a read of yet stays pending (log 135). -/
def State.condTake (s : State) (e : Nat) : State :=
  match (s.condOf e).ready with
  | none => s
  | some (r, map) =>
    let c := bareSet r
    if !s.condRanges e c then ((s.updCond e fun x => { x with ready := none }).wr F.COND_FLAGS_cfg_bad 1 e).wr F.COND_COMMIT_pending 0 e
    else if s.tablesWait e c then s
    else
    let old := (s.condOf e).inForce
    let gains := if c.on F.COND_STAGES_colgain e then
      s.loadTable (c.addr F.COND_COLGAIN_BASE_LO_value F.COND_COLGAIN_BASE_HI_value e) (s.rd F.EASEL_GEOM_width e) else old.colgain
    let shade := if c.on F.COND_STAGES_shade e then
      s.loadTable (c.addr F.COND_SHADE_BASE_LO_value F.COND_SHADE_BASE_HI_value e) 8580 else old.shade
    let t := (s.whenB (c.on F.COND_STAGES_colgain e) fun s =>
      s.hbmRead (c.addr F.COND_COLGAIN_BASE_LO_value F.COND_COLGAIN_BASE_HI_value e) (2 * s.rd F.EASEL_GEOM_width e)).whenB
        (c.on F.COND_STAGES_shade e) fun s => s.hbmRead (c.addr F.COND_SHADE_BASE_LO_value F.COND_SHADE_BASE_HI_value e) 17160
    (t.updCond e fun x => { x with ready := none, inForce := { regs := r, map := map, colgain := gains, shade := shade } }).wr
      F.COND_COMMIT_pending 0 e

/-- S(c) follows the newest frame that has settled DRY (R166). -/
def State.condFilter (s : State) (e : Nat) : State :=
  match (s.easel e).frames.find? (fun f => f.st == .dry) with
  | none => s
  | some f =>
    if (s.condOf e).seen = some f.serial then s
    else match s.condFrame e f.serial with
      | none => s
      | some cf =>
        let b := s.frameBlack e f cf
        s.updCond e fun c => { c with filt := b, src := f.serial, seen := some f.serial }

/-- The conditioning of a frame that opens (R166, R175, R178, R190). -/
def State.condFrameStart (s : State) (e serial : Nat) : State :=
  let t := (s.condTake e).condFilter e
  let results := (t.condOf e).results
  let t1 := (t.updCond e fun c => { c with results := [] }).each results fun s r => s.calApply e r
  t1.updCond e fun c =>
    let cf : CondFrame := { serial := serial, set := c.inForce, filt := c.filt, src := c.src, table := c.table, black := none,
                            weak := [], waited := false, fuse := [], hits := [] }
    { c with frames := (cf :: c.frames).take 6 }

/-- An easel opens: no frame of it has dried (R166), and its automatic kinds are due (R183). -/
def State.condOpen (s : State) (e : Nat) : State :=
  (s.updCond e fun c => { c with filt := List.replicate 4 (0, 1), src := 0, seen := none, frames := [] }).each (s.autoKinds e) fun s k =>
    s.calDue e k

end Sys2Proof.Machine
end

