-- ==== Sys2Proof/Machine/Rings.lean ====
section
/-! DEFINITION. The ring engine (spec/11): doorbell polls, submission rings, decoding, completion and event records,
and MSI-X. -/
namespace Sys2Proof.Machine

/-! ### Shared parts -/

/-- The ring beside its registers. -/
def State.ring (s : State) (r : Nat) : RingSt := s.host.rings.getD r RingSt.init

/-- A change of one ring. -/
def State.updRing (s : State) (r : Nat) (f : RingSt → RingSt) : State :=
  s.updHost fun h => { h with rings := updAt h.rings r f }

/-- The queue beside its registers. -/
def State.queue (s : State) (q : Nat) : QueueSt := s.host.queues.getD q QueueSt.init

/-- A change of one queue. -/
def State.updQueue (s : State) (q : Nat) (f : QueueSt → QueueSt) : State :=
  s.updHost fun h => { h with queues := updAt h.queues q f }

/-- The slots of a ring (R382). -/
def State.ringDepth (s : State) (r : Nat) : Nat := 2 ^ s.rd F.RING_SQ_CFG_depth_log2 r

/-- The slots of a queue (R391). -/
def State.queueDepth (s : State) (q : Nat) : Nat := 2 ^ s.rd F.RING_CQ_CFG_depth_log2 q

/-- A count of one free-running 16-bit count above another. -/
def ahead (a b : Nat) : Nat := (a + 65536 - b % 65536) % 65536

/-- A queue is full when tail - head, modulo 65,536, equals its depth (R391). -/
def State.queueFull (s : State) (q : Nat) : Bool :=
  decide (s.queueDepth q ≤ ahead (s.rd F.RING_CQ_STATUS_tail q) (s.rd F.RING_CQ_STATUS_head q))

/-- A queue that is enabled and has a free slot. -/
def State.queueRoom (s : State) (q : Nat) : Bool := s.on F.RING_CQ_CFG_enable q && !s.queueFull q

/-- Any ring, queue or channel is enabled (R380). -/
def State.anyEnabled (s : State) : Bool :=
  (List.range 16).any (fun r => s.on F.RING_SQ_CFG_enable r) || (List.range 16).any (fun q => s.on F.RING_CQ_CFG_enable q)
    || (List.range 32).any (fun c => s.on F.BARROW_CH_CTRL_enable c)

/-- A ring enters HALTED (R384): its undecoded descriptors are discarded. -/
def State.haltRing (s : State) (r : Nat) : State :=
  (s.wr F.RING_SQ_STATUS_state 3 r).updRing r fun x => { x with fetched := [], inFlight := none }

/-! ### Writing records -/

/-- The 32 bytes of a record written at tail count t of a queue (R392, R396), stamped n; the not-locked flag is that of the moment of its stamp
(R529, R581). -/
def recordBytes (s : State) (r : Rec) (t depth n : Nat) : List Byte :=
  let phase := b2n (t / depth % 2 == 0)
  let flags := phase + 2 * b2n r.event + 4 * b2n (if r.stamp.isSome then r.unlocked else s.ptpUnlocked)
  if r.event then
    le 2 r.tag ++ le 1 r.source ++ le 1 flags ++ le 2 r.status ++ le 6 (ptpSeconds n)
      ++ le 4 (ptpNanos n) ++ padTo 16 r.payload
  else
    le 2 r.tag ++ le 1 r.source ++ le 1 flags ++ le 2 r.status
      ++ le 2 (match r.ring with | some k => s.rd F.RING_SQ_STATUS_head k | none => 0)
      ++ le 4 r.spec0 ++ le 4 r.spec1 ++ le 2 (match r.stamp with | some _ => r.step | none => s.rd F.GLB_PACE_DEV_code)
      ++ le 6 (ptpSeconds n) ++ le 4 (ptpNanos n) ++ le 4 0

/-- A record written to the next slot of a queue (R393): the host command it answers has ended (R385). -/
def State.writeRecord (s : State) (q : Nat) (r : Rec) : State :=
  let t := s.rd F.RING_CQ_STATUS_tail q
  let n := r.stamp.getD s.now
  let a := s.pair F.RING_CQ_BASE_LO_value F.RING_CQ_BASE_HI_value q + t % s.queueDepth q * 32
  let s1 := (s.emit (.hostWrite a (recordBytes s r t (s.queueDepth q) n))).whenB r.stamp.isNone State.tick
  let s2 := (s1.wr F.RING_CQ_STATUS_tail (t + 1) q).updQueue q fun x => { x with unsignalled := x.unsignalled + 1 }
  match r.cmd with
  | some id => s2.cmdRecorded id
  | none => s2

/-- Take the first record that a test wants and that may be written now: its half is not in quiet, and no earlier
record held in quiet by its half waits ahead of it, one waiting on a full queue apart (R581, R583). -/
def pickRecord (s : State) (want : Rec → Bool) : List Nat → List Rec → List Rec → Option (Rec × List Rec)
  | _, _, [] => none
  | blocked, past, r :: rs =>
    if want r && !s.quiet r.half then
      if blocked.contains r.half then none else some (r, past.reverse ++ rs)
    else pickRecord s want (if r.quiet && !r.full && !s.quiet r.half then r.half :: blocked else blocked) (r :: past) rs

/-- A completion record that waits to be written to a queue. -/
def State.waitsOn (s : State) (q : Nat) (r : Rec) : Bool := !r.event && r.cq == q && !s.quiet r.half

/-- A completion record of queue q is held on the full queue. -/
def State.queueHolds (s : State) (q : Nat) : Bool := s.host.records.any fun r => s.waitsOn q r && r.full

/-- A full queue holds the records that wait for it (R79): with the first of them cq_full is set and EV_RING_CQ_FULL raised, once until the queue
has held none for one poll (R394). -/
def State.holdQueue (s : State) (q : Nat) : State :=
  if s.queueFull q && s.host.records.any (s.waitsOn q) then
    let t := s.updHost fun h => { h with records := h.records.map fun r => if s.waitsOn q r then { r with full := true } else r }
    if (s.queue q).episode then t
    else ((t.updQueue q fun x => { x with episode := true }).flagCount F.RING_FLAGS_cq_full F.RING_CNT_cq_full).raise 0 Ev.RING_CQ_FULL (le 1 q)
  else s

/-- A QUEUE_RESET completes once every record it waited for is written (R432). -/
def State.finishQueueResets (s : State) : State :=
  s.each s.host.cmds fun s c =>
    if c.opcode = 0x17 ∧ c.stage = .running ∧
        ¬ (s.outstanding.any fun o => o.ring == c.b 16 % 16 && decide (o.id < c.id)) then s.complete c.id St.OK c.units else s

/-- The next completion record of a queue is written, or held when the queue is full (R79, R394). A record whose
queue has been disabled ends unwritten. -/
def State.writeCompletion (s : State) (q : Nat) : State :=
  match pickRecord s (fun r => !r.event && r.cq == q) [] [] s.host.records with
  | none => s
  | some (r, rest) =>
    if !s.on F.RING_CQ_CFG_enable q then
      let t := s.updHost fun h => { h with records := rest }
      (match r.cmd with | some id => t.cmdRecorded id | none => t).finishQueueResets
    else if s.queueFull q then s.holdQueue q
    else ((s.updHost fun h => { h with records := rest }).writeRecord q r).finishQueueResets

/-- The event queue of RING_EVQ_CFG takes an event now (R398): enabled, room, no completion record waiting for it. -/
def State.eventRoom (s : State) : Bool :=
  s.on F.RING_EVQ_CFG_enable && s.queueRoom (s.rd F.RING_EVQ_CFG_cq) && !s.queueHolds (s.rd F.RING_EVQ_CFG_cq)

/-- An event record meets the event queue: written, or dropped when the queue is full or disabled (R398). -/
def State.deliverEvent (s : State) (r : Rec) : State :=
  if s.eventRoom then s.writeRecord (s.rd F.RING_EVQ_CFG_cq) r else s.dropRecord

/-- When the queue next has room after drops, EV_RING_EVQ_LOST is written with the number dropped since the last (R398). -/
def State.checkLost (s : State) : State :=
  if s.host.lost ≠ 0 ∧ s.eventRoom = true ∧ s.quiet 0 = false then
    let r : Rec := { event := true, half := 0, cq := 0, tag := Ev.RING_EVQ_LOST, source := 0, status := s.rd F.GLB_EV_SEQ_next,
                     spec0 := 0, spec1 := 0, ring := none, cmd := none, payload := padTo 16 (le 4 s.host.lost), stamp := some s.now,
                     step := 0, unlocked := s.ptpUnlocked, quiet := false, full := false }
    (((s.wr F.GLB_EV_SEQ_next (s.rd F.GLB_EV_SEQ_next + 1)).tick).updHost fun h => { h with lost := 0 }).writeRecord (s.rd F.RING_EVQ_CFG_cq) r
  else s

/-- The next event record: held in the period of R670, else written or dropped. -/
def State.writeEvent (s : State) : State :=
  match pickRecord s (fun r => r.event) [] [] s.host.records with
  | none => s.checkLost
  | some (r, rest) =>
    let t := s.updHost fun h => { h with records := rest }
    if s.host.holding then
      if s.host.held.length < 256 then t.updHost fun h => { h with held := h.held ++ [r] } else t.dropRecord
    else (t.deliverEvent r).checkLost

/-- Completion records held on a full queue are written while slots are free (R79, R411). -/
def State.writeHeld (s : State) (q : Nat) : Nat → State
  | 0 => s
  | n + 1 => if s.queueHolds q && s.queueRoom q then (s.writeCompletion q).writeHeld q n else s

/-! ### Register writes with rows of their own -/

/-- GLB_EV_TEST_WRITE (R648): EV_GLB_TEST carries the value written. -/
def execGlbEvTestWrite (v : Nat) (s : State) : Out := .next (s.raise 0 Ev.GLB_TEST (le 4 v))

/-- A write of RING_SQ_CFG that changes depth_log2 while enabled, or sets it outside 4 to 12, is refused (R382). -/
def State.sqDepthBad (s : State) (r v : Nat) : Bool :=
  let d := bitsOf v 7 4
  decide (d < 4) || decide (12 < d) || (s.on F.RING_SQ_CFG_enable r && d != s.rd F.RING_SQ_CFG_depth_log2 r)

/-- RING_ENABLE (R382, R383): head 0, no session, state WAIT_SESSION; a poll in flight does not act on its words (R411). -/
def execRingEnable (r v : Nat) (s : State) : Out :=
  if s.sqDepthBad r v then .next (s.wr F.RING_FLAGS_cfg_refused 1)
  else if s.on F.RING_SQ_CFG_enable r then .next s
  else .next (((((((s.wr F.RING_SQ_CFG_depth_log2 (bitsOf v 7 4) r).wr F.RING_SQ_CFG_enable 1 r).wr F.RING_SQ_STATUS_head 0 r).wr
    F.RING_SQ_STATUS_role 0 r).wr F.RING_SQ_STATUS_state 1 r).updRing r fun _ => RingSt.init).updHost
    fun h => { h with page := h.page.set r 0, polls := h.polls.map fun l => l.filter (· ≠ r) })

/-- RING_DISABLE (R411): refused while commands of the ring are outstanding, else the ring is OFF and its session closed. -/
def execRingDisable (r v : Nat) (s : State) : Out :=
  if s.sqDepthBad r v || s.outstanding.any (fun c => c.ring == r) then .next (s.wr F.RING_FLAGS_cfg_refused 1)
  else .next (((((s.wr F.RING_SQ_CFG_depth_log2 (bitsOf v 7 4) r).wr F.RING_SQ_CFG_enable 0 r).wr F.RING_SQ_STATUS_role 0 r).wr
    F.RING_SQ_STATUS_state 0 r).updRing r fun _ => RingSt.init)

/-- A write of RING_CQ_CFG that any field refuses: coal_count 0, depth_log2 outside 4 to 12, or changed while enabled. -/
def State.cqCfgBad (s : State) (q v : Nat) : Bool :=
  let d := bitsOf v 7 4
  bitsOf v 23 16 == 0 || decide (d < 4) || decide (12 < d)
    || (s.on F.RING_CQ_CFG_enable q && d != s.rd F.RING_CQ_CFG_depth_log2 q)

/-- The fields of RING_CQ_CFG beside enable. -/
def State.cqFields (s : State) (q v : Nat) : State :=
  (((s.wr F.RING_CQ_CFG_coal_us (bitsOf v 31 24) q).wr F.RING_CQ_CFG_coal_count (bitsOf v 23 16) q).wr
    F.RING_CQ_CFG_vector (bitsOf v 13 8) q).wr F.RING_CQ_CFG_depth_log2 (bitsOf v 7 4) q

/-- CQ_ENABLE (R391): tail count 0. -/
def execCqEnable (q v : Nat) (s : State) : Out :=
  if s.cqCfgBad q v then .next (s.wr F.RING_FLAGS_cfg_refused 1)
  else if s.on F.RING_CQ_CFG_enable q then .next (s.cqFields q v)
  else .next ((((((s.cqFields q v).wr F.RING_CQ_CFG_enable 1 q).wr F.RING_CQ_STATUS_tail 0 q).wr F.RING_CQ_STATUS_head 0 q).updQueue q
    fun _ => QueueSt.init).updHost fun h => { h with page := h.page.set (16 + q) 0 })

/-- A queue that something names (R391). -/
def State.queueNamed (s : State) (q : Nat) : Bool :=
  s.queueHolds q || s.outstanding.any (fun c => c.cq == q)
    || (List.range 32).any (fun c => s.on F.BARROW_CH_CTRL_enable c && s.rd F.BARROW_CH_CTRL_cq c == q)
    || (withIndex s.pal).any (fun p => regOn p.2.inForce F.PAL_STATS_CFG_enable p.1 && regOf p.2.inForce F.PAL_STATS_CFG_cq p.1 == q)
    || (withIndex s.vcd.ctx).any (fun x => s.rd F.VCD_SC_STATUS_state x.1 != 0 && regOn x.2.inForce F.VCD_SC_CTRL_record x.1
        && regOf x.2.inForce F.VCD_SC_WIN_cq x.1 == q)
    || (s.on F.AUD_REC_CTRL_run && s.rd F.AUD_REC_CFG_cq == q) || (s.on F.NET_RX_CFG_enable && s.rd F.NET_RX_CFG_cq == q)
    || (s.on F.RING_EVQ_CFG_enable && s.rd F.RING_EVQ_CFG_cq == q)

/-- CQ_DISABLE (R391): refused while anything names the queue. -/
def execCqDisable (q v : Nat) (s : State) : Out :=
  if s.cqCfgBad q v || (s.on F.RING_CQ_CFG_enable q && s.queueNamed q) then .next (s.wr F.RING_FLAGS_cfg_refused 1)
  else .next ((s.cqFields q v).wr F.RING_CQ_CFG_enable 0 q)

/-- EVQ_ENABLE (R670): the first write of enable 1 after a device reset ends the holding, and the held event records meet
the event queue ahead of any later event. -/
def execEvqEnable (v : Nat) (s : State) : Out :=
  let t := (s.wr F.RING_EVQ_CFG_cq (bitsOf v 7 4)).wr F.RING_EVQ_CFG_enable (bitsOf v 0 0)
  if bitsOf v 0 0 = 0 then .next t else
  .next (((t.updHost fun h => { h with holding := false, held := [] }).each s.host.held State.deliverEvent).checkLost)

/-! ### Polls and fetches -/

/-- DOORBELL_POLL (R380): while anything is enabled, bytes 0 to 255 of the page are read, by one request or two, whether or not an earlier read has
returned. -/
def execDoorbellPoll (s : State) : Out :=
  if s.anyEnabled && s.released 28 then
    let t := s.updHost fun h => { h with polls := h.polls ++ [(List.range 16).filter fun r => s.on F.RING_SQ_CFG_enable r] }
    let a := s.pair F.RING_DB_BASE_LO_value F.RING_DB_BASE_HI_value
    .next (if Config.shortReads then (t.emit (.hostRead a 128)).emit (.hostRead (a + 128) 128) else t.emit (.hostRead a 256))
  else .next s

/-- The head word of a queue acted on: it frees slots, and held records are written first (R394, R411). -/
def State.pollQueue (page : List Nat) (s : State) (q : Nat) : State :=
  if s.on F.RING_CQ_CFG_enable q then
    let s := s.holdQueue q
    let none := !s.queueHolds q
    let t := s.wr F.RING_CQ_STATUS_head (page.getD (16 + q) 0 % 65536) q
    (t.whenB none fun t => t.updQueue q fun x => { x with episode := false }).writeHeld q t.host.records.length
  else s

/-- The tail word of a ring acted on: beyond the depth it halts the ring (R384). -/
def State.pollRing (page : List Nat) (s : State) (r : Nat) : State :=
  let t := page.getD r 0 % 65536
  if s.on F.RING_SQ_CFG_enable r && s.rd F.RING_SQ_STATUS_state r != 3 && t != s.host.page.getD r 0 % 65536 then
    if s.ringDepth r < ahead t (s.rd F.RING_SQ_STATUS_head r) then
      ((s.haltRing r).flagCount F.RING_FLAGS_tail_bad F.RING_CNT_tail_bad).raise 0 Ev.RING_TAIL_BAD (le 1 r ++ le 2 t)
    else s.updRing r fun x => { x with tail := t }
  else s

/-- The doorbell word of a barrow channel acted on: a PARKED channel re-reads its noted control word (R408). -/
def State.pollBarrow (page : List Nat) (s : State) (c : Nat) : State :=
  let d := page.getD (32 + c) 0 % 65536
  let old := (s.host.barrows.getD c BarrowSt.init).known
  if d != old then
    s.updHost fun h => { h with barrows := updAt h.barrows c fun b =>
      { b with known := d, reread := b.reread || s.rd F.BARROW_CH_STATUS_state c == 2 } }
  else s

/-- The first number after a cursor, in cyclic ascending order below n, that passes a test. -/
def nextCyclic (n cur : Nat) (p : Nat → Bool) : Option Nat :=
  ((List.range n).map fun k => (cur + 1 + k) % n).find? p

/-- A ring with descriptors to fetch and no fetch in flight. -/
def State.fetchable (s : State) (r : Nat) : Bool :=
  s.on F.RING_SQ_CFG_enable r && s.rd F.RING_SQ_STATUS_state r == 2 && (s.ring r).inFlight.isNone
    && (s.ring r).asked != (s.ring r).tail

/-- DESCRIPTOR_FETCH (R385): the next ring with unfetched descriptors, in ascending cyclic order, is read, up to 512 bytes
and not past the end of its slots. -/
def execDescriptorFetch (s : State) : Out :=
  match nextCyclic 16 s.host.fetchCursor s.fetchable with
  | none => .next s
  | some r =>
    let x := s.ring r
    let slot := x.asked % s.ringDepth r
    let n := min (min 8 (ahead x.tail x.asked)) (s.ringDepth r - slot)
    .next (((s.updRing r fun x => { x with asked := (x.asked + n) % 65536, inFlight := some n }).updHost fun h =>
      { h with fetchCursor := r }).emit
      (.hostRead (s.pair F.RING_SQ_BASE_LO_value F.RING_SQ_BASE_HI_value r + slot * 64) (n * 64)))

/-- DESCRIPTOR_FETCH_RETURN (R384): the descriptors queue for decoding, or an error completion halts the ring. -/
def execDescriptorFetchReturn (r : Nat) (data : Option (List Byte)) (s : State) : Out :=
  match (s.ring r).inFlight, data with
  | none, _ => .next s
  | some _, none =>
    .next (((s.haltRing r).flagCount F.RING_FLAGS_host_err F.RING_CNT_host_err).raise 0 Ev.RING_HOST_ERR (le 1 r))
  | some n, some bs => .next (s.updRing r fun x => { x with inFlight := none, fetched := x.fetched ++ pieces n 64 (padTo (64 * n) bs) })

/-! ### Decoding -/

/-- The roles that may issue an opcode (R389): Operator, Custodian, Service as 1, 2, 3. An unassigned opcode has none. -/
def opcodeRoles (op : Nat) : Option (List Nat) :=
  if op = 0x00 ∨ op = 0x16 ∨ op = 0x17 ∨ op = 0x1C ∨ op = 0x1D then some [0, 1, 2, 3]
  else if op = 0x01 ∨ (0x10 ≤ op ∧ op ≤ 0x15) ∨ (0x20 ≤ op ∧ op ≤ 0x22) then some [1]
  else if op = 0x02 then some [1, 2, 3]
  else if op = 0x03 ∨ op = 0x18 ∨ op = 0x19 then some [1, 2]
  else if op = 0x1A ∨ op = 0x1B ∨ (0x40 ≤ op ∧ op ≤ 0x42) ∨ (0x44 ≤ op ∧ op ≤ 0x46) ∨ op = 0x49 then some [2]
  else if op = 0x28 ∨ op = 0x30 ∨ op = 0x31 ∨ op = 0x38 then some [1, 3]
  else if op = 0x48 then some [2, 3]
  else none

/-- Bits of bytes 1 and 4 to 15 that are defined as zero are zero (R387, R388). -/
def headerZero (d : List Byte) : Bool := decide (fieldAt d 1 1 < 2) && decide (fieldAt d 4 1 < 16) && zeroBytes d 5 16

/-- The checks of R388 after the queue check, in order: the status of the first that fails, or 0x0000. The role is that of the opcode; that
SELFTEST is for Service only is a check of COND_CAL's own (R191; DEDUCED, log 110). -/
def headerStatus (d : List Byte) (role : Nat) : Nat :=
  match opcodeRoles (fieldAt d 0 1) with
  | none => St.BAD_OPCODE
  | some roles =>
    if !headerZero d then St.BAD_HEADER
    else if roles.contains role then St.OK else St.ROLE_DENIED

/-- A ring the engine may decode from (R383, R390, R428, R432): a session is open, a descriptor is fetched, and no
fence, FLUSH or QUEUE_RESET holds it. -/
def State.decodable (s : State) (r : Nat) : Bool :=
  s.on F.RING_SQ_CFG_enable r && s.rd F.RING_SQ_STATUS_state r == 2 && !(s.ring r).fetched.isEmpty
    && !(s.outstanding.any fun c => (c.ring == r && (c.stage == .fenced || (c.opcode == 0x15 && c.stage != .ended)))
        || (c.opcode == 0x17 && (c.stage == .running) && c.b 16 % 16 == r))

/-- The ring to decode from: the one in service while fewer than 8 of its descriptors were taken, else the next (R385). -/
def State.decodeRing (s : State) : Option Nat :=
  if s.decodable s.host.cursor && decide (s.host.served < 8) then some s.host.cursor
  else nextCyclic 16 s.host.cursor s.decodable

/-- What a command that passed R388 may still be refused for at its decode: in recovery all but FW_STAGE and FW_ACTIVATE (R629); on an
unprovisioned part a Custodian session issues only KEY_SET of the Custodian key (R618). -/
def State.decodeStatus (s : State) (d : List Byte) (role : Nat) : Nat :=
  let op := fieldAt d 0 1
  if headerStatus d role ≠ St.OK then headerStatus d role
  else if s.rd F.FW_STATUS_state = 2 then (if op = 0x44 ∨ op = 0x45 then St.OK else St.FW_RECOVERY)
  else if role = 2 ∧ s.rd F.SES_STATUS_provisioned = 0 ∧ ¬ (op = 0x40 ∧ fieldAt d 16 1 = 1 ∧ fieldAt d 17 1 = 2) then St.ROLE_DENIED
  else St.OK

/-- One descriptor of a ring decoded (R386 to R390). -/
def State.decodeOne (s : State) (r : Nat) (d : List Byte) : State :=
  let same := r == s.host.cursor && decide (s.host.served < 8)
  let cq := fieldAt d 4 1 % 16
  let s1 := (s.wr F.RING_SQ_STATUS_head (s.rd F.RING_SQ_STATUS_head r + 1) r).updRing r fun x => { x with fetched := x.fetched.tail }
  let s2 := s1.updHost fun h => { h with cursor := r, served := if same then h.served + 1 else 1 }
  if !s.on F.RING_CQ_CFG_enable cq then
    (s2.flagCount F.RING_FLAGS_bad_cq F.RING_CNT_bad_cq).raise 0 Ev.RING_BAD_CQ (le 1 r ++ le 2 (fieldAt d 2 2) ++ le 1 cq)
  else
    let st := s.decodeStatus d (s.rd F.RING_SQ_STATUS_role r)
    let fenced := st == 0 && fieldAt d 1 1 % 2 == 1
    let c : Cmd := { id := s.host.nextId, ring := r, cq := cq, tag := fieldAt d 2 2, opcode := fieldAt d 0 1, desc := d,
                     stage := if fenced then .fenced else .ready, past := false, units := 0,
                     count := s.outstanding.length + 1, mute := false, gone := false, seen := .none }
    let s3 := (s2.updHost fun h => { h with cmds := h.cmds ++ [c], nextId := h.nextId + 1 }).countOutstanding
    if st == 0 then s3 else s3.complete c.id st

/-- FENCE_RELEASE (R390): every earlier descriptor of the ring has ended, and the fenced command may start. -/
def execFenceRelease (id : Nat) (s : State) : Out :=
  match s.cmd id with
  | none => .next s
  | some c =>
    if c.stage = .fenced ∧ ¬ (s.outstanding.any fun o => o.ring == c.ring && decide (o.id < id)) then
      .next (s.updCmd id fun c => { c with stage := .ready })
    else .next s

/-- NOP (R389): completes at once with the commands outstanding when it was decoded. -/
def execNop (id : Nat) (s : State) : Out := .next (s.startCmd id 0x00 fun c s => s.complete id St.OK c.count)

/-! ### Record rows -/

/-- EVENT_RECORD_WRITE (R396, R398, R670). -/
def execEventRecordWrite (s : State) : Out := .next s.writeEvent

/-- A queue's message sent, or its vector's pending bit set when masked (R399). -/
def State.signal (s : State) (q : Nat) : State :=
  let v := s.rd F.RING_CQ_CFG_vector q
  let t := s.updQueue q fun x => { x with unsignalled := 0 }
  if (s.host.msix.getD v MsixSt.init).mask then
    t.updHost fun h => { h with msix := updAt h.msix v fun m => { m with pending := true } }
  else t.emit (.msix v)

/-- MSIX_MESSAGE_SEND (R399): the records since the last message have reached coal_count. -/
def execMsixMessageSend (q : Nat) (s : State) : Out :=
  if s.rd F.RING_CQ_CFG_coal_count q ≤ (s.queue q).unsignalled then .next (s.signal q) else .next s

/-- MSIX_COALESCE_TIMEOUT (R399): coal_us, nonzero, has passed since the first unsignalled record. -/
def execMsixCoalesceTimeout (q : Nat) (s : State) : Out :=
  if (s.queue q).unsignalled ≠ 0 ∧ s.rd F.RING_CQ_CFG_coal_us q ≠ 0 then .next (s.signal q) else .next s

/-- MSIX_VECTOR_UNMASK (R399): one message for all the records its pending bit covers. -/
def execMsixVectorUnmask (v : Nat) (s : State) : Out :=
  let m := s.host.msix.getD v MsixSt.init
  let t := s.updHost fun h => { h with msix := updAt h.msix v fun m => { m with mask := false, pending := false } }
  .next (if m.pending then t.emit (.msix v) else t)

end Sys2Proof.Machine
end

