-- ==== Sys2Proof/Machine/Colour.lean ====
section
/-! DEFINITION. Palettes, the shadow sets of the colour path and the views, and statistics (spec/06). -/
namespace Sys2Proof.Machine

/-! ### Shared parts -/

def State.palOf (s : State) (e : Nat) : PalSt := s.pal.getD e PalSt.init

def State.updPal (s : State) (e : Nat) (f : PalSt → PalSt) : State := { s with pal := updAt s.pal e f }

/-- A set uses a palette slot: its shaper or LUT stage is enabled. -/
def palUses (r : RegStore) (e : Nat) : Option Nat :=
  if regOn r F.PAL_CTRL_shaper e || regOn r F.PAL_CTRL_lut e then some (regOf r F.PAL_CTRL_slot e) else none

/-- PAL_SLOTS and VIEW_SLOTS follow the slots. -/
def State.palSlots (s : State) (e : Nat) : State :=
  let p := s.palOf e
  let loaded := (withIndex p.slots).foldl (fun m k => if k.2.place.isSome && !k.2.loading then setBit m k.1 true else m) 0
  (s.wr F.PAL_SLOTS_loaded loaded e).wr F.PAL_SLOTS_in_use
    (slotMask [palUses p.inForce e, p.check.bind fun r => palUses r e, p.ready.bind fun r => palUses r e]) e

/-- A view feeds pictures: enabled in the set in force. -/
def State.viewOn (s : State) (v : Nat) : Bool := regOn (s.view v).inForce F.VIEW_CTRL_enable v

/-- The easel of the view's set in force. -/
def State.viewEasel (s : State) (v : Nat) : Nat := regOf (s.view v).inForce F.VIEW_CTRL_easel v

/-! ### Commits -/

/-- The PAL shadows, PAL_STATS_HEAD apart (R222). -/
def State.palShadow (s : State) (e : Nat) : RegStore :=
  (s.shadow 0xA00000 0xA10000 e).filter fun x => x.1.base != F.PAL_STATS_HEAD_value.base

/-- The VIEW shadows. -/
def State.viewShadow (s : State) (v : Nat) : RegStore := s.shadow 0xB00000 0xB10000 v

/-- PAL_COMMIT (R222): the check starts; a go while pending is refused. -/
def execPalCommit (e : Nat) (s : State) : Out :=
  if s.on F.PAL_COMMIT_pending e then .next (s.wr F.PAL_FLAGS_cfg_refused 1 e)
  else .next (((s.wr F.PAL_COMMIT_pending 1 e).updPal e fun p => { p with check := some (s.palShadow e) }).palSlots e)

/-- VIEW_COMMIT (R222). -/
def execViewCommit (v : Nat) (s : State) : Out :=
  if s.on F.VIEW_COMMIT_pending v then .next (s.wr F.VIEW_FLAGS_cfg_refused 1 v)
  else .next (((s.wr F.VIEW_COMMIT_pending 1 v).updView v fun p => { p with check := some (s.viewShadow v) }).viewSlots v)

/-- A binary32 register within ±16.0. -/
def within16 (w : Nat) : Bool := fpWithin w (-16, 1) (16, 1)

/-- The values of a PAL set lie in their stated ranges (R197, R201, R202, R210, R230). -/
def palRanges (r : RegStore) (e : Nat) : Bool :=
  let g := fun f : Fld => regOf r f e
  fpWithin (g F.PAL_IN_GAIN_value) (1, 256) (256, 1)
    && ((List.range 4).all fun k => fpWithin (regOf r F.PAL_WB_value e k) (1, 4) (16, 1))
    && ([F.PAL_MTX0_value, F.PAL_MTX1_value, F.PAL_MTX2_value, F.PAL_MTX3_value, F.PAL_MTX4_value, F.PAL_MTX5_value,
        F.PAL_MTX6_value, F.PAL_MTX7_value, F.PAL_MTX8_value].all fun f => within16 (g f))
    && ([F.PAL_CDL0_value, F.PAL_CDL1_value, F.PAL_CDL2_value].all fun f => fpWithin (g f) (0, 1) (16, 1))
    && ([F.PAL_CDL3_value, F.PAL_CDL4_value, F.PAL_CDL5_value].all fun f => within16 (g f))
    && ([F.PAL_CDL6_value, F.PAL_CDL7_value, F.PAL_CDL8_value].all fun f => fpWithin (g f) (1, 10) (4, 1))
    && fpWithin (g F.PAL_CDL9_value) (0, 1) (4, 1)
    && ([F.PAL_OT_MTX0_value, F.PAL_OT_MTX1_value, F.PAL_OT_MTX2_value, F.PAL_OT_MTX3_value, F.PAL_OT_MTX4_value,
        F.PAL_OT_MTX5_value, F.PAL_OT_MTX6_value, F.PAL_OT_MTX7_value, F.PAL_OT_MTX8_value, F.PAL_OT_SCALE_value].all
        fun f => (fpOfBits (g f)).isSome)
    && fpWithin (g F.PAL_OT_PQ_NITS_value) (1, 1) (10000, 1)
    && decide (g F.PAL_CTRL_ot ≤ 4)
    && decide (1 ≤ g F.PAL_STATS_CFG_depth_log2) && decide (g F.PAL_STATS_CFG_depth_log2 ≤ 8)
    && g F.PAL_STATS_BASE_LO_value % 64 == 0

/-- The crop of a set lies inside its easel's active area (R213, R223). -/
def State.cropFits (s : State) (r : RegStore) (v : Nat) : Bool :=
  let e := regOf r F.VIEW_CTRL_easel v
  decide (regOf r F.VIEW_CROP_ORG_x v + regOf r F.VIEW_CROP_SIZE_x v ≤ s.rd F.EASEL_GEOM_width e)
    && decide (regOf r F.VIEW_CROP_ORG_y v + regOf r F.VIEW_CROP_SIZE_y v ≤ s.rd F.EASEL_GEOM_height e)

/-- The limits of R213 along one axis. -/
def axisOk (org size out lo hi : Nat) : Bool :=
  org % 2 == 0 && size % 2 == 0 && out % 2 == 0 && decide (lo ≤ out) && decide (out ≤ hi) && decide (out ≤ 2 * size)
    && decide (size ≤ 8 * out)

/-- The taps of a phase of a coefficient table (R215). -/
def tapsOf (r : RegStore) (even odd : Fld) (v phase : Nat) : List Int :=
  (List.range 8).map fun t => toSigned 16 (regOf r (if t % 2 = 0 then even else odd) v (4 * phase + t / 2))

/-- Every phase of a table sums to 16,384 (R215). -/
def tapsOk (r : RegStore) (even odd : Fld) (v : Nat) : Bool :=
  (List.range 64).all fun p => sumInt (tapsOf r even odd v p) == 16384

/-- Powered PX domains of a half (R36). -/
def State.pxDomains (s : State) (h : Nat) : Nat := s.brushes h / 16

/-- The output rate of a view (R221), exactly, T_plan being plan_code ÷ 64 ps. -/
def State.viewRateOk (s : State) (r : RegStore) (v : Nat) : Bool :=
  let e := regOf r F.VIEW_CTRL_easel v
  let n := min (s.pxDomains 0) (s.pxDomains 1)
  decide (regOf r F.VIEW_OUT_SIZE_x v * regOf r F.VIEW_OUT_SIZE_y v * s.rd F.EASEL_RATE_rate_mfps e * 3 * s.rd F.AGE_PLAN_plan_code * 100
    ≤ 93 * n * s.colourEvery e * 64000000000000000)

/-- The values of a VIEW set pass R213, R215, R217, R221 and R279. -/
def State.viewRanges (s : State) (r : RegStore) (v : Nat) : Bool :=
  let base := regOf r F.VIEW_RING_BASE_LO_value v + 4294967296 * regOf r F.VIEW_RING_BASE_HI_value v
  let depth := regOf r F.VIEW_RING_CFG_depth v
  s.cropFits r v
    && axisOk (regOf r F.VIEW_CROP_ORG_x v) (regOf r F.VIEW_CROP_SIZE_x v) (regOf r F.VIEW_OUT_SIZE_x v) 64 8192
    && axisOk (regOf r F.VIEW_CROP_ORG_y v) (regOf r F.VIEW_CROP_SIZE_y v) (regOf r F.VIEW_OUT_SIZE_y v) 32 4320
    && (!regOn r F.VIEW_FMT_coef v || (tapsOk r F.VIEW_COEF_H_tap_even F.VIEW_COEF_H_tap_odd v
        && tapsOk r F.VIEW_COEF_V_tap_even F.VIEW_COEF_V_tap_odd v))
    && !(regOf r F.VIEW_FMT_format v == 3 && !regOn r F.VIEW_FMT_depth v)
    && decide (2 ≤ depth) && decide (depth ≤ 8) && s.viewRateOk r v
    && base % 4096 == 0 && s.inRegion base (depth * viewSlotSize r v) 4 v

/-- An output or stream context takes from a view (R224). -/
def State.viewTaken (s : State) (v : Nat) : Bool :=
  (s.view v).ring.any fun x => x.holders.any fun h => match h with | .snd _ => false | _ => true

/-- Raster outputs, live or from the ring, and open stream contexts whose sets in force take from a view (R224). -/
def State.viewNamed (s : State) (v : Nat) : Bool :=
  s.viewTaken v
    || (withIndex s.outs).any (fun o => regOn o.2.inForce F.RAS_OUT_CTRL_enable o.1 && regOf o.2.inForce F.RAS_OUT_CTRL_view o.1 == v)
    || (withIndex s.vcd.ctx).any (fun x => s.rd F.VCD_SC_STATUS_state x.1 != 0 && regOf x.2.inForce F.VCD_SC_CTRL_view x.1 == v)

/-- A PAL set takes effect (R222, R230). -/
def State.palApply (s : State) (e : Nat) (r : RegStore) : State :=
  let old := (s.palOf e).inForce
  let moved := [F.PAL_STATS_BASE_LO_value, F.PAL_STATS_BASE_HI_value, F.PAL_STATS_CFG_depth_log2].any fun f => regOf old f e != regOf r f e
  let t := ((s.updPal e fun p => { p with inForce := r, ready := none }).wr F.PAL_COMMIT_pending 0 e).palSlots e
  if moved then (t.wr F.PAL_STATS_HEAD_value 0 e).wr F.PAL_STATS_TAIL_value 0 e else t

/-- The check of a PAL set ends (R223). -/
def State.palChecked (s : State) (e : Nat) (r : RegStore) : State :=
  let ranges := palRanges r e
  let empty := match palUses r e with | some k => !slotLoaded (s.palOf e).slots k | none => false
  let t := s.updPal e fun p => { p with check := none }
  if ranges && !empty then (t.updPal e fun p => { p with ready := some r }).palSlots e
  else (((t.whenB (!ranges) fun s => s.wr F.PAL_FLAGS_cfg_bad 1 e).whenB empty fun s => s.wr F.PAL_FLAGS_slot_empty 1 e).wr
    F.PAL_COMMIT_pending 0 e).palSlots e

/-- The check of a VIEW set ends (R222 to R224): it takes effect at once where the easel the view serves is closed, else at the first frame-start
of the easel it names. -/
def State.viewChecked (s : State) (v : Nat) (r : RegStore) : State :=
  let ranges := s.viewRanges r v
  let empty := match viewUses r v with | some k => !slotLoaded (s.view v).slots k | none => false
  let barred := pictureChanges (s.view v).inForce r v && s.viewNamed v
  let t := s.updView v fun p => { p with check := none }
  if ranges && !empty && !barred then
    if s.rd F.EASEL_STATUS_state (s.viewEasel v) = 0 then t.viewApply v r
    else (t.updView v fun p => { p with ready := some r }).viewSlots v
  else ((((t.whenB (!ranges) fun s => s.wr F.VIEW_FLAGS_cfg_bad 1 v).whenB empty fun s => s.wr F.VIEW_FLAGS_slot_empty 1 v).whenB barred
    fun s => s.wr F.VIEW_FLAGS_cfg_refused 1 v).wr F.VIEW_COMMIT_pending 0 v).viewSlots v

/-- COLOUR_COMMIT_CHECK_DONE (R222, R223): the check of a view's or an easel's shadows ends. A view's waits for a plan check
in progress (R278). -/
def execColourCommitCheckDone (view : Bool) (i : Nat) (s : State) : Out :=
  if view then
    if s.planPending then .next s
    else match (s.view i).check with | some r => .next (s.viewChecked i r) | none => .next s
  else match (s.palOf i).check with | some r => .next (s.palChecked i r) | none => .next s

/-! ### Palettes -/

/-- A malformed PAL_LOAD (R208). -/
def palBad (c : Cmd) : Bool :=
  let t := c.b 16
  let view := bitOf t 7
  bitsOf t 6 3 != 0 || (!view && decide (4 ≤ t % 8)) || decide ((if view then 2 else 4) ≤ c.b 17) || !zeroBytes c.desc 18 24
    || c.d 24 % 64 != 0 || c.w 32 != 1672448 || !zeroBytes c.desc 36 64

/-- The palette slots a PAL_LOAD names, and the slots in use there. -/
def State.loadTarget (s : State) (c : Cmd) : List PalSlot × Nat :=
  let i := c.b 16 % 8
  if bitOf (c.b 16) 7 then ((s.view i).slots, (s.viewSlots i).rd F.VIEW_SLOTS_in_use i)
  else ((s.palOf i).slots, (s.palSlots i).rd F.PAL_SLOTS_in_use i)

/-- A change of the slot a PAL_LOAD names. -/
def State.updSlotOf (s : State) (c : Cmd) (f : PalSlot → PalSlot) : State :=
  let i := c.b 16 % 8
  if bitOf (c.b 16) 7 then (s.updView i fun p => { p with slots := updAt p.slots (c.b 17) f }).viewSlots i
  else (s.updPal i fun p => { p with slots := updAt p.slots (c.b 17) f }).palSlots i

/-- The number of the palette slot a PAL_LOAD names: 4 for each easel, then 2 for each view (R204). -/
def slotNumber (c : Cmd) : Nat := if bitOf (c.b 16) 7 then 16 + 2 * (c.b 16 % 8) + c.b 17 else 4 * (c.b 16 % 8) + c.b 17

/-- The bytes a palette slot takes in the PIPE region of a stack: its image in whole 4 KiB units. -/
def slotBytes : Nat := 1675264

/-- The addresses of palette slot n in the PIPE regions of stack 0 and stack 1 (R204, R209, R276): one behind the other, above the first
64 MiB that R579 takes (DESIGN CHOICE, log 102). None without a plan in force. -/
def State.slotPlaces (s : State) (n : Nat) : Option (Nat × Nat) :=
  match s.regionIn 5 0 0, s.regionIn 5 0 1 with
  | some a, some b => some (a.1 + 67108864 + n * slotBytes, b.1 + 67108864 + n * slotBytes)
  | _, _ => none

/-- PAL_LOAD (R208, R209, R278): it waits for a plan check in progress, and is refused, or the image is fetched and the slot reads not loaded. Without a plan in force no slot exists, and the
command ends as one whose fields are out of range (DESIGN CHOICE, log 102). -/
def execPalLoad (id : Nat) (s : State) : Out :=
  if s.planPending then .next (s.waitPlan (.palLoad id))
  else .next (s.startCmd id 0x03 fun c s =>
    if palBad c || (s.slotPlaces (slotNumber c)).isNone then s.complete id St.PAL_BAD_REQ
    else
      let t := s.loadTarget c
      if bitOf t.2 (c.b 17) || (t.1.getD (c.b 17) PalSlot.init).loading then s.complete id St.PAL_SLOT_ACTIVE
      else (s.updSlotOf c fun x => { x with loading := true }).emit (.hostRead (c.d 24) 1672448))

/-- A binary16 pattern that is finite. -/
def halfFinite (w : Nat) : Bool := bitsOf w 14 10 != 31

/-- A palette image that passes R207 and R209. -/
def imageOk (b : List Byte) : Bool :=
  let range := fun k : Nat => fpOfBits (fieldAt b (8 + 4 * k) 4)
  let pair := fun k : Nat => match range (2 * k), range (2 * k + 1) with | some lo, some hi => Frac.lt lo hi | _, _ => false
  b.length == 1672448 && fieldAt b 0 4 == 0x4C41504E && fieldAt b 4 2 == 1 && decide (fieldAt b 6 2 < 4)
    && pair 0 && pair 1 && pair 2 && fieldAt b 32 4 == crc32c (b.drop 64)
    && ((List.range 836163).all fun k => halfFinite (fieldAt b (64 + 2 * k) 2))

/-- PAL_LOAD_COMPLETE (R204, R209): the image is verified and copied to both stacks and the slot is loaded, or the slot is left empty. -/
def execPalLoadComplete (id : Nat) (image : List Byte) (s : State) : Out :=
  .next (s.withCmd id fun c s =>
    if c.opcode = 0x03 then
      match s.slotPlaces (slotNumber c), imageOk image with
      | some a, true => (((s.put a.1 image).put a.2 image).updSlotOf c fun _ => { place := some a, loading := false }).complete id St.OK
      | _, _ => (s.updSlotOf c fun _ => PalSlot.init).complete id St.PAL_IMAGE_BAD
    else s)

/-! ### Statistics -/

/-- The statistics of a frame being gathered. -/
def State.statFrame (s : State) (e serial : Nat) : Option StatFrame := (s.palOf e).frames.find? fun f => f.serial == serial

/-- Statistics and colour start for a frame (R222, R223, R226): it keeps the sets in force, and a view whose crop no longer fits gets no
picture of it. A disabled view is not looked at (DESIGN CHOICE, log 134). -/
def State.palFrameStart (s : State) (e serial : Nat) : State :=
  let t := match (s.palOf e).ready with
    | some r => s.palApply e r
    | none => s
  let t1 := t.each (List.range 8) fun s v => match (s.view v).ready with
    | some r => if regOf r F.VIEW_CTRL_easel v = e then s.viewApply v r else s
    | none => s
  let unfit := (List.range 8).filter fun v => t1.viewOn v && t1.viewEasel v == e && !t1.cropFits (t1.view v).inForce v
  let sets := (List.range 8).map fun v => (t1.view v).inForce
  (t1.each unfit fun s v => s.wr F.VIEW_FLAGS_cfg_bad 1 v).updPal e fun p =>
    let f : StatFrame := { serial := serial, pal := p.inForce, hist := [], clips := [0, 0, 0, 0], zones := [], present := 0, damaged := 0,
                           views := sets, noCrop := unfit, fallback := [], checked := [] }
    { p with frames := (f :: p.frames).take 6 }

/-- A histogram bin (R227). -/
def histBin (log : Bool) (v : Nat) : Nat :=
  if log then
    if v < 16 then v
    else
      let e := Nat.log2 v
      16 * (e - 3) + v / 2 ^ (e - 4) % 16
  else v / 256

/-- The part of n a position lies in: the greatest i with floor(i × size ÷ n) at or below it (R228). -/
def zoneOf (n size p : Nat) : Nat := ((List.range n).filter fun i => decide (i * size / n ≤ p)).length - 1

/-- A count raised in a keyed list. -/
def countKey (l : List (Nat × Nat)) (k : Nat) : List (Nat × Nat) :=
  if l.any (fun x => x.1 == k) then l.map fun x => if x.1 = k then (x.1, x.2 + 1) else x else l ++ [(k, 1)]

/-- A value added to a keyed sum. -/
def sumKey (l : List (Nat × Nat × Nat)) (k v : Nat) : List (Nat × Nat × Nat) :=
  if l.any (fun x => x.1 == k) then l.map fun x => if x.1 = k then (x.1, x.2.1 + v, x.2.2 + 1) else x else l ++ [(k, v, 1)]

/-- One sample in the statistics (R226 to R228). -/
def StatFrame.add (f : StatFrame) (e w h x y v : Nat) : StatFrame :=
  let c := channel x y
  let bin := 256 * c + histBin (regOn f.pal F.PAL_STATS_CFG_hist_log e) v
  let zone := 4 * (32 * zoneOf 18 h y + zoneOf 32 w x) + c
  { f with hist := countKey f.hist bin, clips := if v = 65535 then updAt f.clips c (· + 1) else f.clips,
           zones := if v = 65535 then f.zones else sumKey f.zones zone v }

/-- A tile in the statistics of its frame: samples in row order from a column and row. -/
def State.statTile (s : State) (e serial w h x0 y0 : Nat) (samples : List Nat) (damaged : Bool) : State :=
  s.updPal e fun p => { p with frames := p.frames.map fun f =>
    if f.serial = serial then
      let g := if regOn f.pal F.PAL_STATS_CFG_enable e then
        (withIndex samples).foldl (fun f k => f.add e w h (x0 + k.1 % 64) (y0 + k.1 / 64) k.2) f else f
      { g with present := g.present + 1, damaged := g.damaged + b2n damaged }
    else f }

/-- A serial put among others in rising order. -/
def insertSerial (n : Nat) : List Nat → List Nat
  | [] => [n]
  | x :: l => if n < x then n :: x :: l else x :: insertSerial n l

/-- The settle notice at the statistics units (R153, R230): a record waits for its posting in serial order, or is discarded. -/
def State.statsNotice (s : State) (e serial : Nat) : State :=
  match s.frame e serial, s.statFrame e serial with
  | some f, some g =>
    if f.isDry && regOn g.pal F.PAL_STATS_CFG_enable e then s.updPal e fun p =>
      { p with queue := if p.queue.contains serial then p.queue else insertSerial serial p.queue }
    else s
  | _, _ => s

/-- A zone mean in binary32: −1.0 with no sample (R228). -/
def zoneMean (l : List (Nat × Nat × Nat)) (k : Nat) : Nat :=
  match l.find? (fun x => x.1 == k) with
  | some x => bitsOfFp (fp (x.2.1, x.2.2))
  | none => 0xBF800000

/-- The statistics record (R229). -/
def State.statsRecord (s : State) (e : Nat) (f : Frame) (g : StatFrame) : List Byte :=
  let cf := s.condFrame e f.serial
  let black := match cf with | some c => (s.frameBlack e f c).map blackCode | none => []
  let src := match cf with | some c => c.src | none => 0
  let total := f.width / 64 * (f.height / 32)
  le 6 f.serial ++ le 1 e ++ le 1 (if f.st = .dry then 1 else 2) ++ le 2 f.fault ++ le 2 0 ++ le 4 f.ticket
    ++ le 6 (ptpSeconds f.stamp) ++ le 4 (ptpNanos f.stamp)
    ++ le 1 (b2n f.freeRun + 2 * b2n (regOn g.pal F.PAL_STATS_CFG_hist_log e)) ++ le 1 0
    ++ (List.range 4).flatMap (fun c => le 2 (black.getD c 0)) ++ le 6 src ++ le 2 0
    ++ (List.range 4).flatMap (fun c => le 4 (g.clips.getD c 0)) ++ le 4 g.damaged ++ le 4 (total - g.present)
    ++ List.replicate 188 (0 : Byte)
    ++ (List.range 1024).flatMap (fun k => le 4 (match g.hist.find? (fun x => x.1 == k) with | some x => x.2 | none => 0))
    ++ (List.range 2304).flatMap (fun k => le 4 (zoneMean g.zones k))
    ++ List.replicate 2816 (0 : Byte)

/-- The statistics record of a frame goes to the next slot of the easel's host ring with a record, or is dropped where the ring is full (R230). -/
def State.statsPost (s : State) (e : Nat) (f : Frame) (g : StatFrame) : State :=
  let r := (s.palOf e).inForce
  let depth := 2 ^ regOf r F.PAL_STATS_CFG_depth_log2 e
  let tail := s.rd F.PAL_STATS_TAIL_value e
  let slot := tail % depth
  let base := regOf r F.PAL_STATS_BASE_LO_value e + 4294967296 * regOf r F.PAL_STATS_BASE_HI_value e
  if ahead tail (s.rd F.PAL_STATS_HEAD_value e) = depth then
    (s.flagCount F.PAL_FLAGS_stats_drop F.PAL_CNT_stats_drop e).raise 0 Ev.PAL_STATS_DROP []
  else
    ((s.emit (.hostWrite (base + slot * 16384) (s.statsRecord e f g))).wr F.PAL_STATS_TAIL_value (tail + 1) e).postUnsolicited 0
      (regOf r F.PAL_STATS_CFG_cq e) e St.OK slot 0

/-- STATS_RECORD_POST (R230): the oldest settled frame's record is written to the host ring and announced, or dropped when the
ring is full. It waits for the notice of an earlier frame of the easel. -/
def execStatsRecordPost (e : Nat) (s : State) : Out :=
  match (s.palOf e).queue with
  | [] => .next s
  | serial :: rest =>
    if s.notices.any fun n => n.1 == Consumer.stats && n.2.1 == e && decide (n.2.2 < serial) then .next s else
    let t := s.updPal e fun p => { p with queue := rest }
    match t.frame e serial, t.statFrame e serial with
    | some f, some g => .next (t.statsPost e f g)
    | _, _ => .next t

end Sys2Proof.Machine
end

