-- ==== Sys2Proof/Machine/Pack.lean ====
section
/-! DEFINITION. The packed bitstream (spec/07): tokens, items, the phrase dictionary, encoding and decoding of a tile. -/
namespace Sys2Proof.Machine

/-! ### Tokens -/

/-- The prediction of a sample from its same-colour neighbours (R232). -/
def predict (s : List Nat) (q : Nat) : Int :=
  let x := q % 64
  let y := q / 64
  let a : Int := s.getD (q - 2) 0
  let b : Int := s.getD (q - 128) 0
  let c : Int := s.getD (q - 130) 0
  if x < 2 ∧ y < 2 then 0
  else if y < 2 then a
  else if x < 2 then b
  else if max a b ≤ c then min a b
  else if c ≤ min a b then max a b
  else a + b - c

/-- A token (R233): a symbol up to 510, or 512 plus the sample's value for an escape. -/
def tokenOf (s : List Nat) (q : Nat) : Nat :=
  let r : Int := (s.getD q 0 : Nat) - predict s q
  let u := if 0 ≤ r then (2 * r).toNat else (-2 * r - 1).toNat
  if u ≤ 510 then u else 512 + s.getD q 0

/-- The tokens of a tile. -/
def tokens (s : List Nat) : List Nat := (List.range 2048).map (tokenOf s)

/-- The residual of a symbol (R233). -/
def unmap (u : Nat) : Int := if u % 2 = 0 then (u / 2 : Nat) else -(((u + 1) / 2 : Nat) : Int)

/-- The samples a token list gives (R257, R258): n samples built in order, the newest last. -/
def rebuild : List Nat → List Nat → List Nat
  | [], s => s
  | t :: ts, s =>
    let v := if 512 ≤ t then t - 512 else ((predict s s.length + unmap t) % 65536).toNat
    rebuild ts (s ++ [v])

/-! ### Items -/

/-- The width of a code word with N dictionary entries (R237). -/
def codeWidth (n : Nat) : Nat := if n ≤ 512 then 9 else if n ≤ 1024 then 10 else if n ≤ 2048 then 11 else 12

/-- A stream of bits: its value, bit k of the stream being bit k, and its length (R236). -/
abbrev Bits := Nat × Nat

/-- A field put after a stream. -/
def Bits.put (b : Bits) (v n : Nat) : Bits := (b.1 + v % 2 ^ n * 2 ^ b.2, b.2 + n)

/-- The length of the common start of two lists. -/
def common : List Nat → List Nat → Nat
  | x :: xs, y :: ys => if x = y then common xs ys + 1 else 0
  | _, _ => 0

/-- The longest phrase entry that matches at q, lowest code first: code and length (R241). -/
def longestPhrase (tok : List Nat) (q : Nat) (entries : List (Nat × Nat)) : Nat × Nat :=
  let rest := tok.drop q
  (withIndex entries).foldl (fun best e =>
    if best.2 < e.2.2 ∧ e.2.2 ≤ common (tok.drop e.2.1) rest then (259 + e.1, e.2.2) else best) (0, 0)

/-- The longer self-matching run at distance 128 or 64, 128 on a tie: distance and length (R241). -/
def longestCopy (tok : List Nat) (q : Nat) : Nat × Nat :=
  let run := fun d => if d ≤ q then common (tok.drop (q - d)) (tok.drop q) else 0
  if run 64 ≤ run 128 then (128, run 128) else (64, run 64)

/-- The items from position q on (R241): the bits written, and whether they stand; they are abandoned for the raw tile as soon as they exceed
32,760 (R242). fuel bounds the items. -/
def encodeFrom (tok : List Nat) : Nat → Nat → Option (Nat × Nat) → List (Nat × Nat) → Bits → Bits × Bool
  | 0, _, _, _, b => (b, true)
  | fuel + 1, q, prev, entries, b =>
    if 2048 ≤ q then (b, true)
    else
      let entries := match prev with | some p => entries ++ [(p.1, p.2 + 1)] | none => entries
      let w := codeWidth (259 + entries.length)
      let ph := longestPhrase tok q entries
      let cp := longestCopy tok q
      let t := tok.getD q 0
      let r : Bits × Nat :=
        if 8 ≤ cp.2 ∧ ph.2 < cp.2 then (((b.put 257 w).put (cp.1 - 1) 7).put (cp.2 - 1) 11, cp.2)
        else if 2 ≤ ph.2 then (b.put ph.1 w, ph.2)
        else if t < 256 then (b.put t w, 1)
        else if t ≤ 510 then ((b.put 256 w).put (t - 256) 8, 1)
        else (((b.put 256 w).put 255 8).put (t - 512) 16, 1)
      if 32760 < r.1.2 then (r.1, false)
      else encodeFrom tok fuel (q + r.2) (some (q, r.2)) entries r.1

/-- The samples of a fused tile's 4,096 bytes (R27). -/
def tileSamples (data : List Byte) : List Nat := (List.range 2048).map fun k => fieldAt data (2 * k) 2

/-- The bytes of a tile's samples. -/
def tileBytes (s : List Nat) : List Byte := s.flatMap (le 2)

/-- The bits a lane writes for a tile, and whether they stand (R242). -/
def packBits (data : List Byte) : Bits × Bool := encodeFrom (tokens (tileSamples data)) 2048 0 none [] (0, 0)

/-- A packed payload, or none for a tile stored raw (R236, R242). -/
def packTile (data : List Byte) : Option (List Byte) :=
  let b := packBits data
  if b.2 then some (le (ceilDiv b.1.2 8) b.1.1) else none

/-- The whole 64-byte words a lane has written when it falls back to the raw tile (R249, R251): the word in hand is the 64th. -/
def abandoned (data : List Byte) : List Byte := le 4032 (packBits data).1.1

/-- How decoding ends: the tokens decoded, and a fault's status code and bit offset. -/
abbrev Decoded := List Nat × Option (Nat × Nat)

/-- n tokens copied from a start place onto a token list, overlapping itself where it must (R238). -/
def copyTokens : Nat → Nat → List Nat → List Nat
  | 0, _, tok => tok
  | n + 1, p, tok => copyTokens n (p + 1) (tok ++ [tok.getD p 0])

/-- The decode procedure of R257 from a bit on. -/
def decodeFrom (v limit : Nat) : Nat → Nat → Option (Nat × Nat) → List (Nat × Nat) → List Nat → Decoded
  | 0, _, _, _, tok => (tok, none)
  | fuel + 1, bit, prev, entries, tok =>
    let q := tok.length
    if 2048 ≤ q then (if v / 2 ^ bit = 0 then (tok, none) else (tok, some (St.PK_ILLEGAL_CODE, bit)))
    else
      let entries := match prev with | some p => entries ++ [(p.1, p.2 + 1)] | none => entries
      let n := 259 + entries.length
      let w := codeWidth n
      let field := fun a k => v / 2 ^ a % 2 ^ k
      let past : Decoded := (tok, some (St.PK_ILLEGAL_CODE, limit))
      if limit < bit + w then past
      else
        let c := field bit w
        let bit1 := bit + w
        let go := fun bit2 len tok2 => decodeFrom v limit fuel bit2 (some (q, len)) entries tok2
        if c < 256 then go bit1 1 (tok ++ [c])
        else if c = 256 then
          if limit < bit1 + 8 then past
          else
            let e := field bit1 8
            if e < 255 then go (bit1 + 8) 1 (tok ++ [256 + e])
            else if limit < bit1 + 24 then past
            else go (bit1 + 24) 1 (tok ++ [512 + field (bit1 + 8) 16])
        else if c = 257 then
          if limit < bit1 + 18 then past
          else
            let d := field bit1 7 + 1
            let len := field (bit1 + 7) 11 + 1
            if q < d then (tok, some (St.PK_DISTANCE, bit))
            else if 2048 < q + len then (tok, some (St.PK_LENGTH, bit))
            else go (bit1 + 18) len (copyTokens len (q - d) tok)
        else if c = 258 ∨ n ≤ c then (tok, some (St.PK_ILLEGAL_CODE, bit))
        else match entries[c - 259]? with
          | none => (tok, some (St.PK_ILLEGAL_CODE, bit))
          | some (p, len) =>
            if q ≤ p then (tok, some (St.PK_DISTANCE, bit))
            else if 2048 < q + len then (tok, some (St.PK_LENGTH, bit))
            else go bit1 len (copyTokens len p tok)

/-- A packed tile decoded: its 4,096 bytes, positions after a fault zero (R259), and the fault. -/
def unpackTile (payload : List Byte) (len : Nat) : List Byte × Option (Nat × Nat) :=
  let r := decodeFrom (ofLe (payload.take len)) (8 * len) 2049 0 none [] []
  let s := rebuild r.1 []
  (tileBytes (s ++ List.replicate (2048 - s.length) 0), r.2)

/-! ### Tile Records -/

/-- A Tile Record (R28). -/
def tileRecord (crc flags index len : Nat) : List Byte := le 4 crc ++ le 2 flags ++ le 4 index ++ le 3 len ++ le 3 0

/-- The fields of a Tile Record. -/
def recCrc (r : List Byte) : Nat := fieldAt r 0 4
def recFlags (r : List Byte) : Nat := fieldAt r 4 2
def recIndex (r : List Byte) : Nat := fieldAt r 6 4
def recLen (r : List Byte) : Nat := fieldAt r 10 3
def recPresent (r : List Byte) : Bool := bitOf (recFlags r) 0
def recDamaged (r : List Byte) : Bool := bitOf (recFlags r) 1
def recRaw (r : List Byte) : Bool := bitOf (recFlags r) 2
def recPacked (r : List Byte) : Bool := bitOf (recFlags r) 3

/-- A record with other flags and length, its other bytes kept (R33). -/
def setRecord (r : List Byte) (flags len : Nat) : List Byte := r.take 4 ++ le 2 flags ++ bytesAt r 6 4 ++ le 3 len ++ bytesAt r 13 3

/-- A record keeps R32. -/
def recLegal (r : List Byte) : Bool :=
  if recPresent r then (recRaw r != recPacked r) && (recRaw r == (recLen r == 0))
  else bitsOf (recFlags r) 4 1 == 0 && recCrc r == 0 && recLen r == 0

/-- The flags after a consumer's check (R29, R30): verified on a match, damaged and not verified on a mismatch. -/
def checkedFlags (flags : Nat) (ok : Bool) : Nat := if ok then setBit flags 4 true else setBit (setBit flags 1 true) 4 false
/-- A consumer's check of a tile (R29 to R31): the changed record, and whether it failed the comparison. -/
def checkTile (rec data : List Byte) (whole : Bool) : List Byte × Bool :=
  if !recPresent rec || recDamaged rec then (rec, false)
  else
    let ok := whole && crc32c data == recCrc rec
    (setRecord rec (checkedFlags (recFlags rec) ok) (recLen rec), !ok)

/-- The event code of a failed tile at the colour path (0), a barrow (1) or playback (2): bits [15:12] name the subsystem of the colour path,
of the barrows, and of the decode units (R12, R652). -/
def tileEventCode (site : Nat) : Nat := [4, 1, 5].getD site 0 * 4096 + (Config.tileEvent site).toNat

/-- What a tile counts as it passes a consumer (R30, R31): a failed comparison where the consumer has no register for it, with the
consumer's event, whose code no table assigns (log 107); else a tile that came damaged already. -/
def State.tileSeen (s : State) (r : TileReader) (half : Nat) (payload rec : List Byte) (failed : Bool) : State :=
  if failed then
    let site := match r with | .colour => some 0 | .barrow => some 1 | .playback => some 2 | .packer => none | .magazine => none
    match site with
    | some k => (s.countUp (.tileFailed r)).raise half (tileEventCode k) payload
    | none => s
  else s.whenB (recPresent rec && recDamaged rec) fun s => s.countUp (.tileDamaged r)

end Sys2Proof.Machine
end

