-- ==== Sys2Proof/Machine/Views.lean ====
section
/-! DEFINITION. The colour units, the view scalers and the picture rings (spec/06). -/
namespace Sys2Proof.Machine

/-! ### Binary32 steps -/

def fadd (a b : Frac) : Frac := fp (Frac.add a b)
def fsub (a b : Frac) : Frac := fp (Frac.sub a b)
def fmul (a b : Frac) : Frac := fp (Frac.mul a b)
/-- The quotient by a positive value. -/
def fdiv (a b : Frac) : Frac := fp (Frac.div a b)
/-- A decimal constant in binary32. -/
def dec (n : Int) (d : Nat) : Frac := fp (n, d)
/-- A value limited to 0 to 1. -/
def limit01 (a : Frac) : Frac := Frac.max (0, 1) (Frac.min (1, 1) a)

/-! ### Powers, logarithms and roots

Every result is the binary32 value nearest to the exact one, ties to even, a subnormal one zero (R159, R196). As with the other operations no
upper limit stands (log 20). -/

/-- The value of a pattern without a sign, its exponent field 10 bits wide so that what lies past the largest binary32 value has one. -/
def fpValue (w : Nat) : Frac :=
  let e := w / 2 ^ 23
  let m := w % 2 ^ 23 + 2 ^ 23
  if e = 0 then (0, 1) else if 150 ≤ e then (m * 2 ^ (e - 150) : Nat) |> fun n : Nat => ((n : Int), 1) else Frac.norm (m, 2 ^ (150 - e))

/-- The greatest pattern at or above w, within its k low bits, whose value passes a test that small values pass. -/
def fpBelow (ok : Frac → Bool) : Nat → Nat → Nat
  | 0, w => w
  | k + 1, w => fpBelow ok k (if ok (fpValue (w + 2 ^ k)) then w + 2 ^ k else w)

/-- The binary32 value nearest to a magnitude, which is given by two tests: a value lies at or below it, and a value equals it. -/
def fpNearest (below exact : Frac → Bool) : Frac :=
  let w := fpBelow below 33 0
  let mid := Frac.shr (Frac.add (fpValue w) (fpValue (w + 1))) 1
  if below mid && !(exact mid && w % 2 == 0) then fpValue (w + 1) else fpValue w

/-- A value raised to a whole power. -/
def Frac.pow (a : Frac) (n : Nat) : Frac := (a.1 ^ n, a.2 ^ n)

/-- x^p for x at or above 0 and p above 0 (R202, R210): y is at or below it when y^d ≤ x^n, p being n ÷ d. -/
def fpow (x p : Frac) : Frac :=
  if Frac.eq x (0, 1) then (0, 1)
  else
    let q := Frac.norm p
    let power := Frac.pow x q.1.toNat
    fpNearest (fun y => Frac.le (Frac.pow y q.2) power) fun y => Frac.eq (Frac.pow y q.2) power

/-- 2^y for y at or above 0 against x: with y = n ÷ d, 2^n against x^d. -/
def exp2Le (y x : Frac) : Bool := Frac.le (Frac.pow (2, 1) y.1.toNat) (Frac.pow x y.2)
def exp2Eq (y x : Frac) : Bool := Frac.eq (Frac.pow (2, 1) y.1.toNat) (Frac.pow x y.2)

/-- log2(x) for x above 0 (R203): below 1 it is less that of 1 ÷ x. -/
def flog2 (x : Frac) : Frac :=
  if Frac.le (1, 1) x then fpNearest (fun y => exp2Le y x) fun y => exp2Eq y x
  else Frac.neg (fpNearest (fun y => exp2Le y (Frac.div (1, 1) x)) fun y => exp2Eq y (Frac.div (1, 1) x))

/-- Terms k, k + 1, … of the series of e^y, n of them, the k-th being t. -/
def expTerms (y : Frac) : Nat → Nat → Frac → Frac
  | 0, _, _ => (0, 1)
  | n + 1, k, t => Frac.add t (expTerms y n (k + 1) (Frac.div (Frac.mul t y) (Frac.ofNat (k + 1))))

/-- e^y for y from 0 to 89, to 10^-70 of its value: 512 terms of its series. -/
def expOf (y : Frac) : Frac := expTerms y 512 0 (1, 1)

/-- ln(x) for x above 0 (R210): below 1 it is less that of 1 ÷ x. -/
def fln (x : Frac) : Frac :=
  let mag := fun v : Frac => fpNearest (fun y => Frac.lt y (90, 1) && Frac.le (expOf y) v) fun y => Frac.eq y (0, 1) && Frac.eq v (1, 1)
  if Frac.le (1, 1) x then mag x else Frac.neg (mag (Frac.div (1, 1) x))

/-- The square root, correctly rounded (R159, R210). -/
def fsqrt (x : Frac) : Frac :=
  fpNearest (fun y => Frac.le (Frac.mul y y) x) fun y => Frac.eq (Frac.mul y y) x

/-- The value of a binary16 pattern (R207). -/
def halfValue (w : Nat) : Frac :=
  let e := bitsOf w 14 10
  let m := bitsOf w 9 0
  let v : Frac := if e = 0 then (m, 16777216) else ((m + 1024) * 2 ^ e, 33554432)
  Frac.norm (if bitOf w 15 then Frac.neg v else v)

/-! ### Fused samples -/

/-- The Tile Record of a canvas tile as its reader takes it (R272): one that cannot be read counts as present, stored raw and damaged, with
crc 0 and its place as index. -/
def State.recordAt (s : State) (e k tile : Nat) : List Byte :=
  let a := (s.canvas e).recAddr k tile
  if s.readable a 16 then s.load a 16 else tileRecord 0 7 tile 0

/-- A canvas tile as a consumer reads it (R29, R272): its record and data, and whether the data came back whole. -/
def State.canvasTile (s : State) (e k tile : Nat) : List Byte × List Byte × Bool :=
  let a := (s.canvas e).tileAddr k tile
  (s.recordAt e k tile, s.fetch a 4096, s.readable a 4096)

/-- A tile and its record are read from a canvas slot (R264, R272), and whether that has to wait (R269, R270). -/
def State.canvasRead (s : State) (e k tile : Nat) : State :=
  (s.hbmRead ((s.canvas e).recAddr k tile) 16).hbmRead ((s.canvas e).tileAddr k tile) 4096
def State.canvasWaits (s : State) (e k tile : Nat) : Bool :=
  s.hbmWaits ((s.canvas e).recAddr k tile) 16 || s.hbmWaits ((s.canvas e).tileAddr k tile) 4096

/-- A view reads a tile of a frame from the canvas: its easel is in canvas mode, or the band fell back (R76, R192). -/
def StatFrame.fromCanvas (g : StatFrame) (e v band : Nat) : Bool := regOn g.pal F.PAL_CTRL_source e || g.fallback.contains (v, band)

/-- A fused sample of a frame as a view's picture reads it: live from the brush, or from the canvas slot; none where the tile is absent. -/
def State.fusedSample (s : State) (e v : Nat) (g : StatFrame) (w x y : Nat) : Option Nat :=
  let tile := y / 32 * (w / 64) + x / 64
  let off := 2 * (64 * (y % 32) + x % 64)
  if g.fromCanvas e v (y / 32) then
    match s.slotOf e g.serial with
    | none => none
    | some k => if recPresent (s.recordAt e k tile) then some (fieldAt (s.fetch ((s.canvas e).tileAddr k tile) 4096) off 2) else none
  else (s.brush.live.find? fun t => t.easel == e && t.serial == g.serial && t.tile == tile).map fun t => fieldAt t.data off 2

/-- The colour path's check of a canvas tile (R29 to R31): a failure counts and is reported under a code that no table assigns, and a tile
already damaged counts as received so. -/
def State.colourCheck (s : State) (e k : Nat) (f : Frame) (tile : Nat) : State :=
  let r := s.canvasTile e k tile
  let h := tile / max 1 (f.width / 64) % 2
  let failed := (checkTile r.1 r.2.1 r.2.2).2
  ((s.canvasRead e k tile).tileSeen .colour h (framePayload e f.serial f.fault) r.1 failed).whenB failed fun s =>
    s.tileHurt e f.serial

/-- The canvas tiles of a frame that a view's picture reads. -/
def canvasTiles (e v : Nat) (f : Frame) (g : StatFrame) : List Nat :=
  (List.range (f.height / 32 * (f.width / 64))).filter fun t => g.fromCanvas e v (t / max 1 (f.width / 64))

/-- They are checked, each once for the frame (R29). -/
def State.colourChecks (s : State) (e v : Nat) (f : Frame) (g : StatFrame) : State :=
  match s.slotOf e f.serial with
  | none => s
  | some k =>
    let l := (canvasTiles e v f g).filter fun t => !g.checked.contains t
    (s.each l fun s t => s.colourCheck e k f t).updPal e fun p =>
      { p with frames := p.frames.map fun y => if y.serial = g.serial then { y with checked := l ++ y.checked } else y }

/-- What the colour units read of a frame: the easel's set, geometry, filter and samples. -/
structure ColourCtx where
  pal : RegStore
  easel : Nat
  cfa : Nat
  w : Nat
  h : Nat
  get : Nat → Nat → Option Nat

/-- The colour of a channel: 0 red, 1 green, 2 blue (EASEL_FMT.cfa). -/
def cfaColour (cfa c : Nat) : Nat :=
  (if cfa = 0 then [0, 1, 1, 2] else if cfa = 1 then [1, 0, 2, 1] else if cfa = 2 then [1, 2, 0, 1] else [2, 1, 1, 0]).getD c 0

/-- A position beyond an edge mirrored about the edge photosite (R199). -/
def mirror (n : Nat) (v : Int) : Nat := if v < 0 then (-v).toNat else if (n : Int) ≤ v then (2 * ((n : Int) - 1) - v).toNat else v.toNat

/-- A position in an absent tile mirrored about the boundary of the output pixel's tile of size n (R199). -/
def tileMirror (n c p : Nat) : Nat := if c < p then 2 * (c / n * n + n - 1) - p else 2 * (c / n * n) - p

/-- The position a window place reads (R199). In an absent tile across a corner, with the tiles beside it present, the column stays and the
row is mirrored (DESIGN CHOICE, log 106). -/
def ColourCtx.place (k : ColourCtx) (cx cy : Nat) (dx dy : Int) : Nat × Nat :=
  let x := mirror k.w (cx + dx)
  let y := mirror k.h (cy + dy)
  if (k.get x y).isSome then (x, y)
  else
    let x' := if (k.get x cy).isSome then x else tileMirror 64 cx x
    if (k.get x' y).isSome then (x', y) else (x', tileMirror 32 cy y)

/-- Stage 1 (R197): the linear sample at a window place, and its clip mark. -/
def ColourCtx.stage1 (k : ColourCtx) (cx cy : Nat) (dx dy : Int) : Frac × Bool :=
  let p := k.place cx cy dx dy
  let v := (k.get p.1 p.2).getD 0
  let gain := (fpOfBits (regOf k.pal F.PAL_IN_GAIN_value k.easel)).getD (0, 1)
  let wb := (fpOfBits (regOf k.pal F.PAL_WB_value k.easel (channel p.1 p.2))).getD (0, 1)
  (fmul (fmul ((v : Int) - regOf k.pal F.PAL_IN_PED_in_ped k.easel, 1) gain) wb, v == 65535)

/-! ### Demosaic -/

/-- The colour at a place of the window. -/
def ColourCtx.siteColour (k : ColourCtx) (cx cy : Nat) (dx dy : Int) : Nat :=
  cfaColour k.cfa (channel (cx + (dx + 4).toNat) (cy + (dy + 4).toNat))

/-- The mean of the four direct neighbours. -/
def ColourCtx.green4 (k : ColourCtx) (cx cy : Nat) (dx dy : Int) : Frac :=
  let g := fun a b => (k.stage1 cx cy a b).1
  Frac.shr (fadd (fadd (fadd (g (dx - 1) dy) (g (dx + 1) dy)) (g dx (dy - 1))) (g dx (dy + 1))) 2

/-- The colour difference at a place of the window (R198). -/
def ColourCtx.diff (k : ColourCtx) (cx cy : Nat) (dx dy : Int) : Frac :=
  fsub (k.stage1 cx cy dx dy).1 (k.green4 cx cy dx dy)

/-- Green at an output position (R198). -/
def ColourCtx.green (k : ColourCtx) (cx cy : Nat) : Frac :=
  let g := fun a b => (k.stage1 cx cy a b).1
  if k.siteColour cx cy 0 0 = 1 then g 0 0
  else
    let two := fmul (2, 1) (g 0 0)
    let ch := fsub (fsub two (g (-2) 0)) (g 2 0)
    let cv := fsub (fsub two (g 0 (-2))) (g 0 2)
    let gh := fadd (Frac.shr (fadd (g (-1) 0) (g 1 0)) 1) (Frac.shr ch 2)
    let gv := fadd (Frac.shr (fadd (g 0 (-1)) (g 0 1)) 1) (Frac.shr cv 2)
    let dh := fadd (Frac.abs (fsub (g (-1) 0) (g 1 0))) (Frac.abs ch)
    let dv := fadd (Frac.abs (fsub (g 0 (-1)) (g 0 1))) (Frac.abs cv)
    if Frac.lt (fmul (4, 1) dh) (fmul (3, 1) dv) then gh
    else if Frac.lt (fmul (4, 1) dv) (fmul (3, 1) dh) then gv
    else if Frac.eq (fadd dh dv) (0, 1) then Frac.shr (fadd gh gv) 1
    else fdiv (fadd (fmul gh dv) (fmul gv dh)) (fadd dh dv)

/-- Red (0) or blue (2) at an output position (R198). -/
def ColourCtx.chroma (k : ColourCtx) (cx cy : Nat) (want : Nat) (green : Frac) : Frac :=
  let site := k.siteColour cx cy 0 0
  let d := k.diff cx cy
  if site = want then (k.stage1 cx cy 0 0).1
  else if site ≠ 1 then
    fadd green (Frac.shr (fadd (fadd (fadd (d (-1) (-1)) (d 1 (-1))) (d (-1) 1)) (d 1 1)) 2)
  else if k.siteColour cx cy 1 0 = want then fadd green (Frac.shr (fadd (d (-1) 0) (d 1 0)) 1)
  else fadd green (Frac.shr (fadd (d 0 (-1)) (d 0 1)) 1)

/-- Stage 2 (R198, R200). -/
def ColourCtx.demosaic (k : ColourCtx) (cx cy : Nat) : List Frac :=
  let g := k.green cx cy
  let r := k.chroma cx cy 0 g
  let b := k.chroma cx cy 2 g
  let near : List Int := [-1, 0, 1]
  let clip := near.any fun dx => near.any fun dy => (k.stage1 cx cy dx dy).2
  if clip && regOn k.pal F.PAL_CTRL_clip_desat k.easel then
    let m := Frac.max r (Frac.max g b)
    [m, m, m]
  else [r, g, b]

/-! ### Grading -/

/-- A 3 × 3 matrix of binary32 registers, row-major (R201). Each product and each sum is rounded, from left to right (DESIGN CHOICE, log 134). -/
def matrix (r : RegStore) (e : Nat) (fs : List Fld) (v : List Frac) : List Frac :=
  (List.range 3).map fun i =>
    let m := fun j => (fpOfBits (regOf r (fs.getD (3 * i + j) F.PAL_MTX0_value) e)).getD (0, 1)
    fadd (fadd (fmul (m 0) (v.getD 0 (0, 1))) (fmul (m 1) (v.getD 1 (0, 1)))) (fmul (m 2) (v.getD 2 (0, 1)))

def mtxFields : List Fld :=
  [F.PAL_MTX0_value, F.PAL_MTX1_value, F.PAL_MTX2_value, F.PAL_MTX3_value, F.PAL_MTX4_value, F.PAL_MTX5_value, F.PAL_MTX6_value,
    F.PAL_MTX7_value, F.PAL_MTX8_value]
def otFields : List Fld :=
  [F.PAL_OT_MTX0_value, F.PAL_OT_MTX1_value, F.PAL_OT_MTX2_value, F.PAL_OT_MTX3_value, F.PAL_OT_MTX4_value, F.PAL_OT_MTX5_value,
    F.PAL_OT_MTX6_value, F.PAL_OT_MTX7_value, F.PAL_OT_MTX8_value]
def cdlFields : List Fld :=
  [F.PAL_CDL0_value, F.PAL_CDL1_value, F.PAL_CDL2_value, F.PAL_CDL3_value, F.PAL_CDL4_value, F.PAL_CDL5_value, F.PAL_CDL6_value,
    F.PAL_CDL7_value, F.PAL_CDL8_value, F.PAL_CDL9_value]

/-- Luma by three weights, each product and each sum rounded, from left to right (DESIGN CHOICE, log 134). -/
def luma (kr kg kb : Frac) (v : List Frac) : Frac :=
  fadd (fadd (fmul kr (v.getD 0 (0, 1))) (fmul kg (v.getD 1 (0, 1)))) (fmul kb (v.getD 2 (0, 1)))

/-- The ACEScct curve (R203). -/
def acescct (x : Frac) : Frac :=
  if Frac.le x (1, 128) then fadd (fmul (dec 105402377416545 10000000000000) x) (dec 729055341958355 10000000000000000)
  else fdiv (fadd (flog2 x) (dec 972 100)) (dec 1752 100)

/-- Stage 4 (R202, R203). -/
def cdl (r : RegStore) (e : Nat) (v : List Frac) : List Frac :=
  let v := if regOn r F.PAL_CTRL_cdl_space e then v.map acescct else v
  if regOn r F.PAL_CTRL_cdl e then
    let p := fun i => (fpOfBits (regOf r (cdlFields.getD i F.PAL_CDL0_value) e)).getD (0, 1)
    let clamp := regOn r F.PAL_CTRL_cdl_clamp e
    let a := (List.range 3).map fun i =>
      let x := fadd (fmul (v.getD i (0, 1)) (p i)) (p (3 + i))
      fpow (if clamp then limit01 x else Frac.max (0, 1) x) (p (6 + i))
    let y := luma (dec 2126 10000) (dec 7152 10000) (dec 722 10000) a
    a.map fun x =>
      let z := fadd y (fmul (p 9) (fsub x y))
      if clamp then limit01 z else z
  else v

/-- A palette image as a stage reads it: the k bytes at an offset, none where neither copy can be read (R204, R272). -/
abbrev PalImage := Nat → Nat → Option Nat

/-- The copies of a palette slot in the order they are read: the one in stack 1 first while stack 0 takes no request (log 135). -/
def State.palCopies (s : State) (a : Nat × Nat) : Nat × Nat := if s.stackWaits 0 && !s.stackWaits 1 then (a.2, a.1) else a

/-- The image of a palette slot, read from the copy in either stack; none for an empty slot. -/
def State.palImage (s : State) (p : PalSlot) : Option PalImage :=
  p.place.map fun a => fun off k =>
    let b := s.palCopies a
    if s.readable (b.1 + off) k then some (ofLe (s.load (b.1 + off) k))
    else if s.readable (b.2 + off) k then some (ofLe (s.load (b.2 + off) k)) else none

/-- The image of a slot that a stage uses is read for a picture (R264, R272), and whether that has to wait. -/
def State.palRead (s : State) (p : PalSlot) : State :=
  match p.place with | some a => s.hbmRead (s.palCopies a).1 1672448 | none => s
def State.palWaits (s : State) (p : PalSlot) : Bool :=
  match p.place with | some a => s.hbmWaits (s.palCopies a).1 1672448 | none => false

/-- The shaper of an image (R205, R207): none where an entry it needs cannot be read. -/
def shaper (b : PalImage) (q : Nat) (x : Frac) : Option Frac := do
  let lo := fpValueOf (← b (8 + 8 * q) 4) (0, 1)
  let hi := fpValueOf (← b (12 + 8 * q) 4) (1, 1)
  let u := Frac.max (0, 1) (Frac.min (4095, 1) (fdiv (fmul (fsub x lo) (4095, 1)) (fsub hi lo)))
  let i := min (Frac.floor u).toNat 4094
  let y0 := halfValue (← b (64 + 8192 * q + 2 * i) 2)
  let y1 := halfValue (← b (64 + 8192 * q + 2 * (i + 1)) 2)
  return limit01 (fadd y0 (fmul (fsub u (Frac.ofNat i)) (fsub y1 y0)))
where
  fpValueOf (w : Nat) (d : Frac) : Frac := (fpOfBits w).getD d

/-- The corners and weights of the tetrahedron a position lies in (R206), the corner C000 first and C111 last. -/
def lutCorners (fr fg fb : Frac) : List (Frac × Nat × Nat × Nat) :=
  let one := fun x => fsub (1, 1) x
  let four := fun (w0 w1 : Frac) (a1 c1 d1 : Nat) (w2 : Frac) (a2 c2 d2 : Nat) (w3 : Frac) =>
    [(w0, 0, 0, 0), (w1, a1, c1, d1), (w2, a2, c2, d2), (w3, 1, 1, 1)]
  if Frac.lt fg fr then
    if Frac.lt fb fg then four (one fr) (fsub fr fg) 1 0 0 (fsub fg fb) 1 1 0 fb
    else if Frac.lt fb fr then four (one fr) (fsub fr fb) 1 0 0 (fsub fb fg) 1 0 1 fg
    else four (one fb) (fsub fb fr) 0 0 1 (fsub fr fg) 1 0 1 fg
  else
    if Frac.lt fg fb then four (one fb) (fsub fb fg) 0 0 1 (fsub fg fr) 0 1 1 fr
    else if Frac.lt fr fb then four (one fg) (fsub fg fb) 0 1 0 (fsub fb fr) 0 1 1 fr
    else four (one fg) (fsub fg fr) 0 1 0 (fsub fr fb) 1 1 0 fb

/-- Tetrahedral interpolation in the LUT of an image (R206): none where a node it needs cannot be read. -/
def lut (b : PalImage) (v : List Frac) : Option (List Frac) :=
  let u := v.map fun x => fmul (64, 1) x
  let n := u.map fun x => min (Frac.floor x).toNat 63
  let f := (List.range 3).map fun k => fsub (u.getD k (0, 1)) (Frac.ofNat (n.getD k 0))
  let node := fun (a c d q : Nat) => (b (24640 + 6 * (((n.getD 2 0 + d) * 65 + n.getD 1 0 + c) * 65 + n.getD 0 0 + a) + 2 * q) 2).map halfValue
  (List.range 3).mapM fun q =>
    ((lutCorners (f.getD 0 (0, 1)) (f.getD 1 (0, 1)) (f.getD 2 (0, 1))).mapM fun p => (node p.2.1 p.2.2.1 p.2.2.2 q).map (fmul p.1)).map fun l =>
      match l with
      | x :: rest => rest.foldl fadd x
      | [] => (0, 1)

/-- A palette's two stages (R205, R206, R272): without a shaper the value is limited to 0 to 1, without a LUT it stays, and a pixel whose
entries cannot be read passes through the stage unchanged. With the values, whether that happened. -/
def palette (image : Option PalImage) (useShaper useLut : Bool) (v : List Frac) : List Frac × Bool :=
  let flags := image.map fun b => b 6 2
  let has := fun k => match flags with | some (some w) => bitOf w k | _ => false
  let lost := (useShaper || useLut) && flags == some none
  let plain := v.map limit01
  let y := if !useShaper || !(has 0) then (plain, false)
    else match image.bind fun b => (List.range 3).mapM fun q => shaper b q (v.getD q (0, 1)) with
      | some y => (y, false)
      | none => (v, true)
  if lost then (v, true)
  else if !useLut || !(has 1) then y
  else match image.bind fun b => lut b y.1 with
    | some z => (z, y.2)
    | none => (y.1, true)

/-- The output transform's curve (R210). -/
def curve (ot : Nat) (scale nits : Frac) (l : Frac) : Frac :=
  let e := fmul l scale
  if ot = 1 ∨ ot = 2 then
    let a := if ot = 1 then dec 1099 1000 else dec 109929682680944 100000000000000
    let b := if ot = 1 then dec 18 1000 else dec 18053968510807 1000000000000000
    if Frac.lt e b then fmul (dec 45 10) e else fsub (fmul a (fpow e (dec 45 100))) (if ot = 1 then dec 99 1000 else dec 9929682680944 100000000000000)
  else if ot = 3 then
    let y := fdiv (fmul l nits) (10000, 1)
    let ym := fpow y (dec 2610 16384)
    let num := fadd (dec 3424 4096) (fmul (dec 77216 4096) ym)
    let den := fadd (1, 1) (fmul (dec 76544 4096) ym)
    fpow (fdiv num den) (dec 322944 4096)
  else
    if Frac.le e (1, 12) then fsqrt (fmul (3, 1) e)
    else fadd (fmul (dec 17883277 100000000) (fln (fsub (fmul (12, 1) e) (dec 28466892 100000000)))) (dec 55991073 100000000)

/-- Stage 7 (R210). -/
def outTransform (r : RegStore) (e : Nat) (v : List Frac) : List Frac :=
  let ot := regOf r F.PAL_CTRL_ot e
  if ot = 0 then v
  else
    let scale := (fpOfBits (regOf r F.PAL_OT_SCALE_value e)).getD (0, 1)
    let nits := (fpOfBits (regOf r F.PAL_OT_PQ_NITS_value e)).getD (0, 1)
    (matrix r e otFields v).map fun x => limit01 (curve ot scale nits (Frac.max (0, 1) x))

/-- The colour unit's output at a position (R196, R199): zero inside an absent tile. With it, whether a palette could not be read. -/
def ColourCtx.pixel (k : ColourCtx) (image : Option PalImage) (x y : Nat) : List Frac × Bool :=
  if (k.get x y).isNone then ([(0, 1), (0, 1), (0, 1)], false)
  else
    let g := cdl k.pal k.easel (matrix k.pal k.easel mtxFields (k.demosaic x y))
    let p := palette image (regOn k.pal F.PAL_CTRL_shaper k.easel) (regOn k.pal F.PAL_CTRL_lut k.easel) g
    (outTransform k.pal k.easel p.1, p.2)

/-! ### Scaling -/

/-- The base and phase of an output position (R214). -/
def tapBase (crop out i : Nat) : Int × Nat :=
  let q : Int := (64 * ((2 * i + 1) * crop : Nat) - 64 * (out : Int) + out) / (2 * out : Nat)
  (q / 64, (q % 64).toNat)

/-- Fixed point with 40 decimals, and π in it. -/
def fixOne : Int := 10 ^ 40
def piFix : Int := 31415926535897932384626433832795028841972

/-- The series of sin(x) ÷ x from term k on, y the square of x and t the term: 48 terms for |x| at most 4π. -/
def sincTerms (y : Int) : Nat → Nat → Int → Int
  | 0, _, _ => 0
  | n + 1, k, t => t + sincTerms y n (k + 1) (-(t * y / fixOne) / ((2 * k + 2) * (2 * k + 3) : Nat))

/-- sin(πd) ÷ πd in fixed point, exact at whole numbers. -/
def sinc (d : Frac) : Int :=
  if d.1 % (d.2 : Int) = 0 then (if d.1 = 0 then fixOne else 0)
  else
    let x := piFix * d.1 / d.2
    sincTerms (x * x / fixOne) 48 0 fixOne

/-- The Lanczos kernel with a = 4 (R215): sinc(d) × sinc(d ÷ 4) within 4 of its centre. -/
def lanczos4 (d : Frac) : Int := if Frac.lt (Frac.abs d) (4, 1) then sinc d * sinc (d.1, 4 * d.2) / fixOne else 0

/-- The built-in taps of a phase (R215): the kernel at tap distance × min(1, O ÷ C), normalised to a sum of 16,384. How a tap is rounded is
not given: a tap that is not a whole code takes the one below or above, free, and tap 3 makes the sum (DESIGN CHOICE, log 40). -/
def builtInTaps (crop out phase : Nat) : List Int :=
  let w := (List.range 8).map fun (t : Nat) =>
    lanczos4 (Frac.mul ((64 * (t : Int) - 192 - phase), 64) (Frac.min (1, 1) (Frac.mk' out (max 1 crop))))
  let raw := (withIndex w).map fun p => 16384 * p.2 / sumInt w + (if 16384 * p.2 % sumInt w ≠ 0 ∧ Config.lanczosUp crop out phase p.1 = true then 1 else 0)
  raw.set 3 (16384 - sumInt (raw.eraseIdx 3))

/-- The 8 taps of a phase along an axis (R215). -/
def viewTaps (r : RegStore) (v : Nat) (vert : Bool) (crop out phase : Nat) : List Int :=
  if regOn r F.VIEW_FMT_coef v then
    (if vert then tapsOf r F.VIEW_COEF_V_tap_even F.VIEW_COEF_V_tap_odd v phase
      else tapsOf r F.VIEW_COEF_H_tap_even F.VIEW_COEF_H_tap_odd v phase)
  else builtInTaps crop out phase

/-- The crop positions an output position reads with their taps (R214). -/
def tapList (r : RegStore) (v : Nat) (vert : Bool) (crop out i : Nat) : List (Nat × Int) :=
  let b := tapBase crop out i
  (withIndex (viewTaps r v vert crop out b.2)).map fun p => ((clampInt 0 ((crop : Int) - 1) (b.1 - 3 + p.1)).toNat, p.2)

/-- A sum of values by taps in 2.14. The view stage rounds to FP32 after each tap and each Y′CbCr operation, as the colour unit does, and is
exact in the quantiser (DESIGN CHOICE, log 134). -/
def tapSum (l : List (Frac × Int)) : Frac := l.foldl (fun a p => fadd a (fmul p.1 (p.2, 16384))) (0, 1)

/-- The scaled R′G′B′ at an output position: horizontally first, then vertically (R212, R214). With it, whether a pixel under it is
marked. -/
def scaled (r : RegStore) (v : Nat) (get : Nat → Nat → List Frac × Bool) (ox oy : Nat) : List Frac × Bool :=
  let hx := tapList r v false (regOf r F.VIEW_CROP_SIZE_x v) (regOf r F.VIEW_OUT_SIZE_x v) ox
  let vy := tapList r v true (regOf r F.VIEW_CROP_SIZE_y v) (regOf r F.VIEW_OUT_SIZE_y v) oy
  let at' := fun a b : Nat => get (regOf r F.VIEW_CROP_ORG_x v + a) (regOf r F.VIEW_CROP_ORG_y v + b)
  ((List.range 3).map fun q => tapSum (vy.map fun p => (tapSum (hx.map fun t => ((at' t.1 p.1).1.getD q (0, 1), t.2)), p.2)),
    vy.any fun p => hx.any fun t => (at' t.1 p.1).2)

/-! ### Formats -/

/-- A code of R217: scaled, offset, rounded to nearest with ties upward, limited. -/
def quantise (range depth : Nat) (chromaPlane : Bool) (x : Frac) : Nat :=
  let k : Nat := if depth = 0 then 1 else 4
  if range = 0 then
    let v := if chromaPlane then Frac.add (Frac.mul x ((896 * k : Nat), 1)) ((512 * k : Nat), 1)
      else Frac.add (Frac.mul x ((876 * k : Nat), 1)) ((64 * k : Nat), 1)
    (clampInt (4 * k : Nat) (if depth = 0 then 1019 else 4079) (Frac.round v)).toNat
  else
    let top : Int := if depth = 0 then 1023 else 4095
    let v := if chromaPlane then Frac.add (Frac.mul x (top, 1)) (if depth = 0 then (512, 1) else (2048, 1)) else Frac.mul x (top, 1)
    (clampInt 0 top (Frac.round v)).toNat

/-- Y′, Cb and Cr of limited R′G′B′ (R217). -/
def ycc (bt2020 : Bool) (v : List Frac) : List Frac :=
  let kr := if bt2020 then dec 2627 10000 else dec 2126 10000
  let kg := if bt2020 then dec 6780 10000 else dec 7152 10000
  let kb := if bt2020 then dec 593 10000 else dec 722 10000
  let y := luma kr kg kb v
  [y, fdiv (fsub (v.getD 2 (0, 1)) y) (fmul (2, 1) (fsub (1, 1) kb)), fdiv (fsub (v.getD 0 (0, 1)) y) (fmul (2, 1) (fsub (1, 1) kr))]

/-- Chroma co-sited with even columns (R218). -/
def cosite (w : Nat) (get : Nat → Frac) (j : Nat) : Frac :=
  let l := get (2 * j - 1)
  let r := get (min (2 * j + 1) (w - 1))
  Frac.shr (fadd (fadd (if j = 0 then get 0 else l) (fmul (2, 1) (get (2 * j)))) r) 2

/-- The samples of a picture by plane and line (R217, R218): get is the view's E′ at an output position, limited. -/
def planes (r : RegStore) (v : Nat) (get : Nat → Nat → List Frac) : List (List (List Nat)) :=
  let w := regOf r F.VIEW_OUT_SIZE_x v
  let h := regOf r F.VIEW_OUT_SIZE_y v
  let fmt := regOf r F.VIEW_FMT_format v
  let q := quantise (regOf r F.VIEW_FMT_range v) (regOf r F.VIEW_FMT_depth v)
  let lines := fun (h w : Nat) (f : Nat → Nat → Nat) => (List.range h).map fun y => (List.range w).map fun x => f x y
  if fmt = 3 then (List.range 3).map fun p => lines h w fun x y => q false ((get x y).getD p (0, 1))
  else
    let c := fun x y => ycc (regOn r F.VIEW_FMT_matrix v) (get x y)
    let comp := fun p x y => (c x y).getD p (0, 1)
    let yl := lines h w fun x y => q false (comp 0 x y)
    if fmt = 0 then [yl, lines h w fun x y => q true (comp 1 x y), lines h w fun x y => q true (comp 2 x y)]
    else
      let half := fun p j y => cosite w (fun x => comp p x y) j
      if fmt = 1 then [yl, lines h (w / 2) fun j y => q true (half 1 j y), lines h (w / 2) fun j y => q true (half 2 j y)]
      else
        let m := fun p j y => Frac.shr (fadd (half p j (2 * y)) (half p j (2 * y + 1))) 1
        [yl, lines (h / 2) (w / 2) fun j y => q true (m 1 j y), lines (h / 2) (w / 2) fun j y => q true (m 2 j y)]

/-- A plane in memory: 16-bit samples, lines padded to the pitch (R219). -/
def planeBytes (lines : List (List Nat)) : List Byte :=
  lines.flatMap fun l => padTo (pitch l.length) (l.flatMap (le 2))

/-! ### Pictures -/

/-- The state a picture record gives (R219): a picture flagged damaged under R272 reads DAMAGED where its frame is DRY (DESIGN CHOICE, log
102). -/
def ViewSlot.shownState (x : ViewSlot) : Nat := if x.hurt && x.state == 1 then 2 else x.state

/-- The picture record (R219). -/
def pictureRecord (v : Nat) (x : ViewSlot) : List Byte :=
  le 6 x.serial ++ le 1 x.easel ++ le 1 v ++ le 1 (b2n x.wet + 2 * x.shownState) ++ le 1 0 ++ le 2 (if x.state = 0 then 0 else x.fault)
    ++ le 4 x.count ++ List.replicate 48 (0 : Byte)

/-- The base of a ring in a view set. -/
def ringBase (r : RegStore) (v : Nat) : Nat := regOf r F.VIEW_RING_BASE_LO_value v + 4294967296 * regOf r F.VIEW_RING_BASE_HI_value v

/-- The base of a view's ring in the set in force. -/
def State.viewBase (s : State) (v : Nat) : Nat := ringBase (s.view v).inForce v

/-- The address of a ring slot (R219). -/
def slotAddr (r : RegStore) (v k : Nat) : Nat := ringBase r v + k * viewSlotSize r v
def State.viewSlotAddr (s : State) (v k : Nat) : Nat := slotAddr (s.view v).inForce v k

def State.updViewSlot (s : State) (v k : Nat) (f : ViewSlot → ViewSlot) : State :=
  s.updView v fun p => { p with ring := updAt p.ring k f }

/-- The next slot in ring order that no consumer holds and no picture is being written to (R220). -/
def nextFree (ring : List ViewSlot) (next : Nat) : Option Nat :=
  ((List.range ring.length).map fun i => (next + i) % ring.length).find? fun k =>
    match ring[k]? with
    | some x => x.holders.isEmpty && !x.writing
    | none => false

def State.freeViewSlot (s : State) (v : Nat) : Option Nat := nextFree (s.view v).ring (s.view v).next

/-- The VIEW set a frame keeps for a view (R222). -/
def State.viewSet (s : State) (v e serial : Nat) : RegStore :=
  match s.statFrame e serial with
  | some g => g.views.getD v (s.view v).inForce
  | none => (s.view v).inForce

/-- The easel whose frame of a serial a view takes: that of the set in force, or of the set the frame keeps (R222). -/
def State.viewEaselOf (s : State) (v serial : Nat) : Nat :=
  let fits := fun e => (s.frame e serial).isSome && regOf (s.viewSet v e serial) F.VIEW_CTRL_easel v == e
  if fits (s.viewEasel v) then s.viewEasel v else ((List.range 4).find? fits).getD (s.viewEasel v)

/-- A tile of a frame may still come from the brushes: it is not closed, and its band has rows or may still have them. -/
def State.tileComing (s : State) (e : Nat) (f : Frame) (tile : Nat) : Bool :=
  let band := tile / max 1 (f.width / 64)
  !s.brush.closed.contains (e, f.serial, tile)
    && (!f.ended || s.link.rows.any fun r => r.easel == e && r.serial == f.serial && !r.ob && r.index / 32 == band)

/-- The tiles of a frame's first bands as a picture reads them are at hand (R76, R192): passed by the brushes, and in the canvas where they are
read from there. -/
def State.bandsIn (s : State) (e v : Nat) (f : Frame) (g : StatFrame) (bands : Nat) : Bool :=
  (List.range (min bands (f.height / 32) * (f.width / 64))).all fun t =>
    !s.tileComing e f t && (!(g.fromCanvas e v (t / max 1 (f.width / 64)))
      || !(s.brush.fused.any fun x => x.easel == e && x.serial == f.serial && x.tile == t))

/-- Every tile a picture of a frame reads is at hand. -/
def State.tilesIn (s : State) (e v : Nat) (f : Frame) (g : StatFrame) : Bool := s.bandsIn e v f g (f.height / 32)

/-- Every tile an output line of a picture reads is at hand: the rows its taps reach (R214), and 2 below them (R199). -/
def State.lineIn (s : State) (v : Nat) (x : ViewSlot) (f : Frame) (g : StatFrame) (n : Nat) : Bool :=
  let b := tapBase (regOf x.set F.VIEW_CROP_SIZE_y v) (regOf x.set F.VIEW_OUT_SIZE_y v) n
  s.bandsIn x.easel v f g ((regOf x.set F.VIEW_CROP_ORG_y v + (b.1 + 6).toNat) / 32 + 1)

/-- The capacity of an output's line buffer in bytes (R492). -/
def bufferBytes (r : RegStore) (o : Nat) : Nat := if 4 ≤ o then 65536 else if regOn r F.RAS_OUT_CTRL_quad o then 524288 else 131072

/-- Bytes of a line of a view in a line buffer (R492). -/
def lineBytes (fmt w : Nat) : Nat := if fmt = 0 ∨ fmt = 3 then 6 * w else 4 * w

/-- The line buffer of an output in live mode is full: it holds its view stage (R77, R486). -/
def State.bufferFull (s : State) (o v : Nat) : Bool :=
  let x := s.outs.getD o OutSt.init
  let r := (s.view v).inForce
  regOn x.inForce F.RAS_OUT_CTRL_enable o && regOn x.inForce F.RAS_OUT_CTRL_source o && regOf x.inForce F.RAS_OUT_CTRL_view o == v
    && decide (bufferBytes x.inForce o < ((x.buffer.filter fun b => decide (x.line ≤ regOf x.inForce F.RAS_OUT_POS_y o + b.1)).length + 1) * lineBytes (regOf r F.VIEW_FMT_format v) (regOf r F.VIEW_OUT_SIZE_x v))

/-- A live output holds the stage of a view (R77). -/
def State.viewHeld (s : State) (v : Nat) : Bool := (List.range 6).any fun o => s.bufferFull o v

/-- A view serves a live output: its lines go on with those of the output (R77, R488). -/
def State.liveViewed (s : State) (v : Nat) : Bool := (List.range 6).any fun o =>
  let x := s.outs.getD o OutSt.init
  regOn x.inForce F.RAS_OUT_CTRL_enable o && regOn x.inForce F.RAS_OUT_CTRL_source o && regOf x.inForce F.RAS_OUT_CTRL_view o == v

/-- Lines of a picture its view has written (R449): with no live output, those whose tiles are at hand. -/
def State.linesOf (s : State) (v : Nat) (x : ViewSlot) : Nat :=
  match s.frame x.easel x.serial, s.statFrame x.easel x.serial with
  | some f, some g =>
    if !x.writing || s.liveViewed v then x.lines
    else max x.lines ((List.range (regOf x.set F.VIEW_OUT_SIZE_y v)).takeWhile fun n => s.lineIn v x f g n).length
  | _, _ => x.lines

/-- The lines of pictures in progress go on as tiles come, and each learns when its CTB row 0 was written (R449, R450). -/
def State.viewsRun (s : State) : State :=
  (s.each (List.range 8) fun s v => s.updView v fun p => { p with ring := p.ring.map fun x =>
    if x.writing then
      let n := s.linesOf v x
      { x with lines := n, avail := if x.avail = 0 ∧ min 64 (regOf x.set F.VIEW_OUT_SIZE_y v) ≤ n then s.fresh + 1 else x.avail }
    else x }).tick

/-- A view may start a picture of a frame (R192, R194, R222, R223): by the set the frame keeps enabled and of its easel, the crop inside it,
taken, not scraped, and settled in canvas mode. From shed level 5 on views V1 to V7 start none (R593). -/
def State.viewMay (s : State) (v e : Nat) (f : Frame) : Bool :=
  let r := s.viewSet v e f.serial
  let busy := fun x : ViewSlot => x.writing && x.serial == f.serial && x.easel == e
  !(decide (1 ≤ v) && s.sys.shed.any fun n => decide (5 ≤ n)) && regOn r F.VIEW_CTRL_enable v && regOf r F.VIEW_CTRL_easel v == e
    && f.taken && f.st != .scraped && !(s.view v).ring.any busy
    && !(match (s.view v).before with | some b => b.slots.any busy | none => false)
    && (match s.statFrame e f.serial with
      | some g => !g.noCrop.contains v && (!regOn g.pal F.PAL_CTRL_source e || f.isDry)
      | none => false)

/-- A picture being written. -/
def State.newPicture (s : State) (v e : Nat) (f : Frame) : ViewSlot :=
  { used := true, writing := true, serial := f.serial, easel := e, wet := f.unsettled,
    state := if f.st = .dry then 1 else if f.st = .damaged then 2 else 0, fault := f.fault, count := 0,
    begun := s.fresh, lines := 0, avail := 0, holders := [], set := s.viewSet v e f.serial, hurt := false }

/-- A picture dropped for want of a slot (R220). -/
def State.pictureDrop (s : State) (v : Nat) : State := (s.flagCount F.VIEW_FLAGS_drop F.VIEW_CNT_drop v).raise 0 Ev.VIEW_DROP []

/-- A new picture of a frame takes a ring slot, or is dropped (R156, R220): the slot it took. A frame that keeps a set with another ring
writes into the ring of that set, from which nothing takes (R222, R224). -/
def State.pictureStart (s : State) (v e : Nat) (f : Frame) : State × Option Nat :=
  let x := s.newPicture v e f
  if sameRing x.set (s.view v).inForce v then
    match s.freeViewSlot v with
    | none => (s.pictureDrop v, none)
    | some k => (((s.updViewSlot v k fun _ => x).updView v fun p => { p with next := (k + 1) % max 1 p.ring.length }).tick, some k)
  else
    match (s.view v).before with
    | some b =>
      match nextFree b.slots b.next with
      | some k =>
        if sameRing x.set b.set v then
          ((s.updView v fun p =>
            { p with before := some { b with slots := updAt b.slots k fun _ => x, next := (k + 1) % max 1 b.slots.length } }).tick, none)
        else (s.pictureDrop v, none)
      | none => (s.pictureDrop v, none)
    | none => (s.pictureDrop v, none)

/-- The E′ of a picture at its output positions (R216), and whether a palette under it could not be read (R272). -/
def State.viewPixels (s : State) (v : Nat) (x : ViewSlot) (f : Frame) (ox oy : Nat) : List Frac × Bool :=
  match s.statFrame x.easel x.serial with
  | none => ([(0, 1), (0, 1), (0, 1)], false)
  | some g =>
    let k : ColourCtx := { pal := g.pal, easel := x.easel, cfa := f.cfa, w := f.width, h := f.height, get := s.fusedSample x.easel v g f.width }
    let image := s.palImage ((s.palOf x.easel).slots.getD (regOf g.pal F.PAL_CTRL_slot x.easel) PalSlot.init)
    let vimage := s.palImage ((s.view v).slots.getD (regOf x.set F.VIEW_CTRL_slot v) PalSlot.init)
    let a := scaled x.set v (k.pixel image) ox oy
    let b := palette vimage (regOn x.set F.VIEW_CTRL_shaper v) (regOn x.set F.VIEW_CTRL_lut v) a.1
    (b.1.map limit01, a.2 || b.2)

/-- A picture as it is finished: its record's fields and its planes. -/
def State.pictureOf (s : State) (v : Nat) (x : ViewSlot) (f : Frame) : ViewSlot × List Byte :=
  let w := regOf x.set F.VIEW_OUT_SIZE_x v
  let h := regOf x.set F.VIEW_OUT_SIZE_y v
  let hurt := (List.range h).any fun oy => (List.range w).any fun ox => (s.viewPixels v x f ox oy).2
  ({ x with writing := false, count := (s.view v).count + 1, lines := h, avail := if x.avail = 0 then s.fresh + 1 else x.avail, hurt := hurt },
    (planes x.set v fun ox oy => (s.viewPixels v x f ox oy).1).flatMap planeBytes)

/-- The palette slots a picture uses: its easel's and its view's, where a stage of theirs is enabled (R204). -/
def State.palettesOf (s : State) (v : Nat) (x : ViewSlot) (g : StatFrame) : List PalSlot :=
  ((palUses g.pal x.easel).map fun k => (s.palOf x.easel).slots.getD k PalSlot.init).toList
    ++ ((viewUses x.set v).map fun k => (s.view v).slots.getD k PalSlot.init).toList

/-- What a picture reads from HBM waits for its stack (R269, R270). -/
def State.pictureWaits (s : State) (v : Nat) (x : ViewSlot) (f : Frame) (g : StatFrame) : Bool :=
  (s.palettesOf v x g).any s.palWaits
    || match s.slotOf x.easel f.serial with | some k => (canvasTiles x.easel v f g).any (s.canvasWaits x.easel k) | none => false

/-- A picture is complete in its slot, with its record (R219). -/
def State.pictureEnd (s : State) (v k : Nat) (x : ViewSlot) (f : Frame) (g : StatFrame) (old : Bool) : State :=
  let y := s.pictureOf v x f
  let a := slotAddr x.set v k
  let t := (s.updView v fun p =>
    { p with count := p.count + 1, ring := if old then p.ring else updAt p.ring k fun _ => y.1,
             before := if old then p.before.map fun b => { b with slots := updAt b.slots k fun _ => y.1 } else p.before }).bump F.VIEW_CNT_pictures v
  ((((t.colourChecks x.easel v f g).each (s.palettesOf v x g) State.palRead).put a (pictureRecord v y.1)).put (a + 64) y.2).tick

/-- The picture of a ring that is being written and was begun first, with its slot. -/
def oldestWriting (ring : List ViewSlot) : Option (Nat × ViewSlot) :=
  (withIndex ring).foldl (fun best p =>
    if !p.2.writing then best else match best with | some b => if b.2.begun ≤ p.2.begun then some b else some p | none => some p) none

/-- The picture a view finishes next: one of the ring before first, and its slot. -/
def State.writingPicture (s : State) (v : Nat) : Option (Bool × Nat × ViewSlot) :=
  match (s.view v).before.bind fun b => oldestWriting b.slots with
  | some p => some (true, p)
  | none => (oldestWriting (s.view v).ring).map fun p => (false, p)

/-- VIEW_PICTURE_DONE (R77, R192, R196 to R219): the picture being written is complete in its slot, with its record. It waits for tiles of its
frame that the brushes have still to pass on, while a live output's full line buffer holds the view stage, and for a stack of HBM that takes no
request. -/
def execViewPictureDone (v : Nat) (s : State) : Out :=
  match s.writingPicture v with
  | none => .next s
  | some (old, k, x) =>
    match s.frame x.easel x.serial, s.statFrame x.easel x.serial with
    | some f, some g => if s.tilesIn x.easel v f g && !s.viewHeld v && !s.pictureWaits v x f g then .next (s.pictureEnd v k x f g old) else .next s
    | _, _ => .next s

/-- The settle notice at one picture (R195, R219): state and fault are written to a slot not reused, and a picture in progress of a scraped
frame is abandoned, its slot free. -/
def State.pictureNotice (s : State) (v k : Nat) (x : ViewSlot) (f : Frame) (put : State → ViewSlot → State) : State :=
  let st := if f.st = .dry then 1 else if f.st = .damaged then 2 else 3
  let y := { x with state := st, fault := f.fault }
  let a := slotAddr x.set v k
  if st = 3 && x.writing then
    ((put s { y with used := false, writing := false, holders := [] }).bump F.VIEW_CNT_scraped v).put a (pictureRecord v y)
  else (put s y).whenB (!x.writing) fun s => s.put a (pictureRecord v y)

/-- The settle notice at the views (R195, R219). -/
def State.viewNotice (s : State) (e serial : Nat) : State :=
  match s.frame e serial with
  | none => s
  | some f => s.each (List.range 8) fun s v =>
    let mine := fun x : ViewSlot => x.used && x.easel == e && x.serial == serial
    let t := s.each ((withIndex (s.view v).ring).filter fun p => mine p.2) fun s p =>
      s.pictureNotice v p.1 p.2 f fun s y => s.updViewSlot v p.1 fun _ => y
    match (t.view v).before with
    | none => t
    | some b => t.each ((withIndex b.slots).filter fun p => mine p.2) fun s p =>
        s.pictureNotice v p.1 p.2 f fun s y => s.updView v fun z =>
          { z with before := z.before.map fun b => { b with slots := updAt b.slots p.1 fun _ => y } }

/-- A consumer lets a ring slot go. -/
def State.dropViewHold (s : State) (v k : Nat) (h : ViewHolder) : State :=
  s.updViewSlot v k fun x => { x with holders := x.holders.filter (· ≠ h) }

/-- A consumer takes hold of a ring slot. -/
def State.takeViewHold (s : State) (v k : Nat) (h : ViewHolder) : State :=
  s.updViewSlot v k fun x => { x with holders := h :: x.holders.filter (· ≠ h) }

end Sys2Proof.Machine
end

