-- ==== Sys2Proof/Machine/Packer.lean ====
section
/-! DEFINITION. The packer lanes, the lane rings, the decode units and the ratio watch (spec/07). -/
namespace Sys2Proof.Machine

/-- A half's packer beside its registers. -/
def State.packOf (s : State) (h : Nat) : PackSt := s.pack.getD h PackSt.init

def State.updPack (s : State) (h : Nat) (f : PackSt → PackSt) : State := { s with pack := updAt s.pack h f }

def State.updPackLane (s : State) (h l : Nat) (f : PackLane → PackLane) : State :=
  s.updPack h fun p => { p with lanes := updAt p.lanes l f }

def State.packLane (s : State) (h l : Nat) : PackLane := (s.packOf h).lanes.getD l PackLane.init

/-- LZP_STATUS follows the lanes. -/
def State.packStatus (s : State) (h : Nat) : State :=
  let ls := (s.packOf h).lanes
  ((s.wr F.LZP_STATUS_stalled (ls.filter PackLane.stalled).length h).wr F.LZP_STATUS_busy
    (ls.filter fun l => !l.tiles.isEmpty).length h).wr F.LZP_STATUS_running (b2n (s.on F.LZP_CTRL_enable h && s.powered (18 + h))) h

/-- A lane ring's size in bytes (R247). -/
def State.laneSize (s : State) (h : Nat) : Nat := s.rd F.LZP_RING_LANE_lane_4k h * 4096

/-- The start of lane ring l (R247). -/
def State.laneBase (s : State) (h l : Nat) : Nat :=
  s.pair F.LZP_RING_BASE_LO_value F.LZP_RING_BASE_HI_value h + l * s.laneSize h

/-- Bytes of a lane ring between its release and commit pointers. -/
def PackLane.used (x : PackLane) : Nat := sumOver (x.ring.map PackEntry.size) id

/-- The home half of a tile is that of its band (R20). -/
def State.tileHalf (s : State) (e tile : Nat) : Nat := tile / max 1 (s.canvas e).cols % 2

/-- The tile indexes of a frame that a half homes, ascending. -/
def State.halfTiles (s : State) (e h : Nat) (f : Frame) : List Nat :=
  (List.range (f.height / 32 * (f.width / 64))).filter fun t => s.tileHalf e t == h

/-- A frame that a take records packed. -/
def State.packedFrame (s : State) (e serial : Nat) : Bool :=
  match s.frame e serial with
  | some f => f.inTake && s.on F.TAKE_STATUS_packed e
  | none => false

/-- A tile of a settled frame that never came into the canvas and will not (R152): its record stays absent. -/
def State.tileAbsent (s : State) (e : Nat) (f : Frame) (t : Nat) : Bool :=
  f.isDry && !s.brush.readable.contains (e, f.serial, t) && !s.tileComing e f t
    && !(s.brush.fused.any fun x => x.easel == e && x.serial == f.serial && x.tile == t)

/-- The next tile a half's packer takes (R243, R252): the untaken tile of a packed take's frame, still in its slot, that became readable first,
else an absent tile of a settled one. -/
def State.nextPackTile (s : State) (h : Nat) : Option (Nat × Nat × Nat) :=
  let free := fun x : Nat × Nat × Nat => !(s.packOf h).taken.contains x
  match s.brush.readable.find? (fun x => s.tileHalf x.1 x.2.2 == h && s.packedFrame x.1 x.2.1 && (s.slotOf x.1 x.2.1).isSome && free x) with
  | some x => some x
  | none => (List.range 4).findSome? fun e =>
      ((s.easel e).frames.reverse.filter fun f => f.isDry && s.packedFrame e f.serial && (s.slotOf e f.serial).isSome).findSome? fun f =>
        (((s.halfTiles e h f).filter (s.tileAbsent e f)).map fun t => (e, f.serial, t)).find? free

/-- The packer's hold on a half's slot part goes once every tile of the half is taken (R285). -/
def State.packHold (s : State) (h e serial : Nat) : State :=
  match s.frame e serial, s.slotOf e serial with
  | some f, some k =>
    if (s.halfTiles e h f).all fun t => (s.packOf h).taken.contains (e, serial, t) then s.releaseHold e k h .packer else s
  | _, _ => s

/-- A tile the packer takes from canvas slot k has the next sequence number and goes to its lane (R243, R244, R246). -/
def State.packTake (s : State) (h k : Nat) (x : Nat × Nat × Nat) : State :=
  let n := s.rd F.LZP_SEQ_seq h
  let r := if s.brush.readable.contains x then s.canvasTile x.1 k x.2.2 else (tileRecord 0 0 x.2.2 0, [], true)
  let c := checkTile r.1 r.2.1 r.2.2
  let seen := (s.whenB (s.brush.readable.contains x) fun s => s.canvasRead x.1 k x.2.2).tileSeen .packer h [] r.1 c.2
  let t := seen.whenB c.2 fun s => ((s.tileHurt x.1 x.2.1).flagCount F.LZP_FLAGS_input_crc F.LZP_CNT_input_crc h).raise h Ev.LZP_INPUT_CRC []
  let p : PackTile := { seq := n, easel := x.1, serial := x.2.1, tile := x.2.2, record := c.1, data := r.2.1, void := false }
  let t1 := (t.updPackLane h (n % 48) fun y => { y with tiles := y.tiles ++ [p] }).updPack h fun y => { y with taken := x :: y.taken }
  ((t1.wr F.LZP_SEQ_seq (n + 1) h).packHold h x.1 x.2.1).packStatus h

/-- The packer of a half may take a tile: enabled, powered, with room in the lane that takes the next. -/
def State.packFree (s : State) (h : Nat) : Bool :=
  s.on F.LZP_CTRL_enable h && s.powered (18 + h) && s.takesWork (0x30 + h) && decide ((s.packLane h (s.rd F.LZP_SEQ_seq h % 48)).tiles.length < 2)

/-- PACKER_TILE_TAKE (R243, R244, R246): the half's next tile takes the next sequence number and goes to lane s mod 48, which
holds at most two tiles. Its CRC-32C is checked as it is read (R246). -/
def execPackerTileTake (h : Nat) (s : State) : Out :=
  if !s.packFree h then .next s
  else match s.nextPackTile h with
    | none => .next s
    | some x =>
      match s.slotOf x.1 x.2.1 with
      | none => .next s
      | some k => .next (if s.brush.readable.contains x && s.canvasWaits x.1 k x.2.2 then s else s.packTake h k x)

/-- The record and payload of a tile's entry (R242, R252, R254). -/
def packOutput (p : PackTile) : List Byte × List Byte :=
  if p.void then (tileRecord 0 0 p.tile 0, [])
  else if !recPresent p.record then (p.record, [])
  else match packTile p.data with
    | some b => (setRecord p.record (setBit (setBit (recFlags p.record) 2 false) 3 true) b.length, b)
    | none => (setRecord p.record (setBit (setBit (recFlags p.record) 2 true) 3 false) 0, p.data)

/-- The bytes of an entry (R247, R248). -/
def entryBytes (p : PackTile) (rec payload : List Byte) : List Byte :=
  let head := rec ++ le 6 p.serial ++ le 1 p.easel ++ le 1 (b2n p.void) ++ le 4 p.seq ++ le 4 payload.length
  padTo 64 (head ++ le 4 (crc32c head)) ++ padTo (ceilDiv payload.length 64 * 64) payload

/-- Bytes written to a ring of a size from an offset on, going on from its start past its end. -/
def State.putRing (s : State) (base size off : Nat) (bs : List Byte) : State :=
  let n := size - off
  (s.put (base + off) (bs.take n)).put base (bs.drop n)

/-- The sums of a frame's half after one more entry. -/
def addSum (l : List PackSum) (p : PackTile) (present bytes : Nat) : List PackSum :=
  if l.any fun x => x.easel == p.easel && x.serial == p.serial then
    l.map fun x => if x.easel = p.easel ∧ x.serial = p.serial then
      { x with present := x.present + present, bytes := x.bytes + bytes, done := x.done + 1 } else x
  else l ++ [{ easel := p.easel, serial := p.serial, present := present, bytes := bytes, done := 1 }]

/-- The 64-bit byte count of an easel, which saturates. -/
def State.addBytes (s : State) (e n : Nat) : State :=
  let v := min (2 ^ 64 - 1) (s.pair F.LZP_EASEL_BYTES_LO_value F.LZP_EASEL_BYTES_HI_value e + n)
  (s.wr F.LZP_EASEL_BYTES_LO_value v e).wr F.LZP_EASEL_BYTES_HI_value (v / 4294967296) e

/-- A lane stalls (R249): the event only when no other lane of the half is stalled. Its payload, which no rule gives, names the lane in byte
16 (DESIGN CHOICE, log 112). -/
def State.stallLane (s : State) (h l : Nat) : State :=
  let first := !((s.packOf h).lanes.any PackLane.stalled)
  let t := (s.updPackLane h l fun y => { y with stalled := true }).flagCount F.LZP_FLAGS_ring_stall F.LZP_CNT_ring_stall h
  (t.whenB first fun s => s.raise h Ev.LZP_RING_STALL (le 1 l)).packStatus h

/-- The payload words a lane writes for the tile in hand, and whether the entry ends with them (R249, R251): a tile that does not pack is
first written packed, as far as it goes, and then raw from the entry's start. -/
def laneStream (y : PackLane) (p : PackTile) : List Byte × Bool :=
  let raw := !p.void && recPresent p.record && (packTile p.data).isNone && !y.fell
  if raw then (abandoned p.data, false)
  else
    let n := (packOutput p).2
    (padTo (ceilDiv n.length 64 * 64) n, true)

/-- Payload words of the entry in hand that the space up to the release pointer holds behind its header. -/
def State.laneRoom (s : State) (h l : Nat) : Nat := (s.laneSize h - (s.packLane h l).used) / 64 - 1

/-- A lane's entry can go on: its next word, or with the payload written its header, does not pass the release pointer (R249). -/
def State.laneMoves (s : State) (h l : Nat) (p : PackTile) : Bool :=
  let y := s.packLane h l
  decide (y.used + 64 ≤ s.laneSize h) && (decide (y.words < s.laneRoom h l) || decide ((laneStream y p).1.length ≤ 64 * y.words))

/-- A lane writes what it can of the words of its tile, from where it held (R249): whether all of them are written. -/
def State.lanePass (s : State) (h l : Nat) (p : PackTile) : State × Bool :=
  let y := s.packLane h l
  let bs := (laneStream y p).1
  let k := max y.words (min (bs.length / 64) (s.laneRoom h l))
  let off := (s.rd F.LZP_LANE_COMMIT_offset h l + 64 + 64 * y.words) % max 1 (s.laneSize h)
  (((s.putRing (s.laneBase h l) (s.laneSize h) off ((bs.take (64 * k)).drop (64 * y.words))).updPackLane h l fun z => { z with words := k }),
    decide (bs.length ≤ 64 * k) && decide (y.used + 64 ≤ s.laneSize h))

/-- A lane writes the words of its tile, going over to the raw tile at the fall-back (R251), until they are all written or it holds. -/
def State.laneWrite (s : State) (h l : Nat) (p : PackTile) : State × Bool :=
  let r := s.lanePass h l p
  if r.2 && !(laneStream (s.packLane h l) p).2 then
    (r.1.updPackLane h l fun z => { z with words := 0, fell := true }).lanePass h l p
  else r

/-- A tile's entry is complete in its lane ring (R247, R248, R250): its header is written and the commit pointer advances. -/
def State.laneCommit (s : State) (h l : Nat) (p : PackTile) : State :=
  let r := packOutput p
  let bs := entryBytes p r.1 r.2
  let off := s.rd F.LZP_LANE_COMMIT_offset h l
  let freed := p.void && !s.notices.contains (Consumer.magazine, p.easel, p.serial)
  let ent : PackEntry := { seq := p.seq, easel := p.easel, serial := p.serial, tile := p.tile, void := p.void, record := r.1,
                           payload := r.2, size := bs.length, off := off, taken := p.void, free := freed }
  let t := (s.putRing (s.laneBase h l) (s.laneSize h) off (bs.take 64)).updPackLane h l fun z =>
    { z with tiles := z.tiles.tail, ring := z.ring ++ [ent], words := 0, fell := false }
  let t1 := t.wr F.LZP_LANE_COMMIT_offset ((off + bs.length) % max 1 (s.laneSize h)) h l
  let present := b2n (recPresent r.1)
  let t2 := t1.updPack h fun z => { z with sums := addSum z.sums p present r.2.length }
  let t3 := if p.void then t2.packHold h p.easel p.serial
    else if present = 0 then t2
    else (t2.bump (if recPacked r.1 then F.LZP_EASEL_TILES_count else F.LZP_EASEL_RAW_count) p.easel).addBytes p.easel r.2.length
  t3.packStatus h

/-- PACKER_TILE_COMMIT (R242, R247 to R252, R254): the lane's oldest tile becomes an entry, payload first and header last, or
the lane stalls at the word that would pass the release pointer. -/
def execPackerTileCommit (h l : Nat) (s : State) : Out :=
  let y := s.packLane h l
  match y.tiles with
  | [] => .next s
  | p :: _ =>
    if y.stalled || !s.powered (18 + h) then .next s
    else
      let r := s.laneWrite h l p
      .next (if r.2 then r.1.laneCommit h l p else r.1.stallLane h l)

/-- The entries at the old end of a lane ring that are free leave it, and the release pointer advances (R311). -/
def State.releaseLane (s : State) (h l : Nat) : State :=
  let y := s.packLane h l
  let gone := y.ring.takeWhile PackEntry.free
  let n := sumOver (gone.map PackEntry.size) id
  (s.updPackLane h l fun z => { z with ring := z.ring.drop gone.length }).wr F.LZP_LANE_RELEASE_offset
    ((s.rd F.LZP_LANE_RELEASE_offset h l + n) % max 1 (s.laneSize h)) h l

/-- Entries of a half's lane rings freed by a test, and the release pointers advanced (R311). -/
def State.freeEntries (s : State) (h : Nat) (p : PackEntry → Bool) : State :=
  let t := s.updPack h fun z => { z with lanes := z.lanes.map fun y => { y with ring := y.ring.map fun x =>
    { x with free := x.free || p x, taken := x.taken || p x } } }
  t.each (List.range 48) fun s l => s.releaseLane h l

/-- LANE_RING_RESUME (R249): space is released, and the stalled lane goes on at the word it held; it stalls again where that space ends, and
with all its words written its entry is ready to be committed. -/
def execLaneRingResume (h l : Nat) (s : State) : Out :=
  let y := s.packLane h l
  match y.tiles with
  | [] => .next s
  | p :: _ =>
    if y.stalled && s.laneMoves h l p then
      let r := (s.updPackLane h l fun z => { z with stalled := false }).laneWrite h l p
      .next (if r.2 then r.1.packStatus h else r.1.stallLane h l)
    else .next s

/-- The entry in hand of a lane starts over when its tile becomes void (R254, R256). -/
def PackLane.voided (y : PackLane) (mine : PackTile → Bool) : PackLane :=
  let spilt := y.tiles.head?.any fun x => mine x && !x.void
  { y with tiles := y.tiles.map fun x => { x with void := x.void || mine x },
           words := if spilt then 0 else y.words, fell := y.fell && !spilt }

/-- The lanes abandon a frame (R254): its tiles in the lanes become void entries and its untaken tiles are not taken. Its committed entries
stay for the magazine writer to discard. -/
def State.packDrop (s : State) (e : Nat) (f : Frame) : State :=
  let serial := f.serial
  s.each [0, 1] fun s h =>
    let mine := fun x : PackTile => x.easel == e && x.serial == serial
    let busy := (s.packOf h).lanes.any fun y => y.tiles.any mine
    let t := s.updPack h fun z => { z with
      taken := (s.halfTiles e h f).map (fun t => (e, serial, t)) ++ z.taken.filter (fun x => !(x.1 == e && x.2.1 == serial)),
      sums := z.sums.filter (fun x => !(x.easel == e && x.serial == serial)),
      lanes := z.lanes.map fun y => y.voided mine }
    if busy then t else t.packHold h e serial

/-- The magazine writer discards the committed entries of a frame (R153, R254). -/
def State.packDiscard (s : State) (e serial : Nat) : State :=
  s.each [0, 1] fun s h => s.freeEntries h fun x => x.easel == e && x.serial == serial

/-- A frame opens under a serial: nothing the packer took of an earlier frame of that serial stands against its tiles. -/
def State.packForget (s : State) (e serial : Nat) : State :=
  s.each [0, 1] fun s h => s.updPack h fun z => { z with
    taken := z.taken.filter (fun x => !(x.1 == e && x.2.1 == serial)), sums := z.sums.filter fun x => !(x.easel == e && x.serial == serial) }

/-- A settle notice of the packer: a scraped frame leaves it. -/
def State.packNotice (s : State) (e serial : Nat) : State :=
  match s.frame e serial with
  | some f => if f.st = .scraped then s.packDrop e f else s
  | none => s

/-- A half reset empties the half's lane rings (R255): pointers and sequence number return to zero. -/
def State.packReset (s : State) (h : Nat) : State :=
  let t := (s.updPack h fun _ => PackSt.init).wr F.LZP_SEQ_seq 0 h
  (t.each (List.range 48) fun s l => (s.wr F.LZP_LANE_COMMIT_offset 0 h l).wr F.LZP_LANE_RELEASE_offset 0 h l).packStatus h

/-- The sums of a frame on a half. -/
def State.packSum (s : State) (h e serial : Nat) : Option PackSum :=
  (s.packOf h).sums.find? fun x => x.easel == e && x.serial == serial

/-- What the packer of a half has counted of a frame. -/
def State.packSumOf (s : State) (h e serial : Nat) : PackSum :=
  (s.packSum h e serial).getD { easel := e, serial := serial, present := 0, bytes := 0, done := 0 }

/-- Every tile of a DRY or DAMAGED frame that any packer took is packed (R261). -/
def State.ratioReady (s : State) (e : Nat) (f : Frame) : Bool :=
  let a := s.packSumOf 0 e f.serial
  let b := s.packSumOf 1 e f.serial
  decide (0 < a.done + b.done) && f.isDry && a.done == (s.halfTiles e 0 f).length && b.done == (s.halfTiles e 1 f).length

/-- The packing ratio of a frame (R261, R262): written where a tile was present, with the event where it lies below the alarm threshold. -/
def State.ratioDone (s : State) (e : Nat) (f : Frame) : State :=
  let a := s.packSumOf 0 e f.serial
  let b := s.packSumOf 1 e f.serial
  let present := a.present + b.present
  let t := s.each [0, 1] fun s h => s.updPack h fun z =>
    { z with sums := z.sums.filter fun x => !(x.easel == e && x.serial == f.serial),
             taken := z.taken.filter fun x => !(x.1 == e && x.2.1 == f.serial) || (s.slotOf e f.serial).isSome }
  if present = 0 then t
  else
    let ratio := min 0xFFFF (4096 * present * 256 / max 1 (a.bytes + b.bytes))
    let t1 := (t.wr F.LZP_EASEL_RATIO_serial_lo f.serial e).wr F.LZP_EASEL_RATIO_ratio ratio e
    let hs := [0, 1].filter fun h => s.on F.LZP_CTRL_ratio_event h
    if ratio < s.rd F.LZP_EASEL_ALARM_threshold e ∧ hs ≠ [] then
      (t1.each hs fun s h => s.wr F.LZP_FLAGS_ratio_low 1 h).raise (hs.headD 0) Ev.LZP_RATIO_LOW (framePayload e f.serial f.fault (le 2 ratio))
    else t1

/-- FRAME_RATIO_COMPUTE (R261, R262): the frame is dry and committed whole on both halves, one of which may home none of its tiles; its ratio
is written. One below the threshold sets ratio_low on each half whose ratio_event is 1 and raises one event, on the lower of them (DESIGN
CHOICE, log 43). -/
def execFrameRatioCompute (e serial : Nat) (s : State) : Out :=
  match s.frame e serial with
  | some f => .next (if s.ratioReady e f then s.ratioDone e f else s)
  | none => .next s

/-- A decode fault counted and latched (R259). -/
def State.decodeFault (s : State) (h e serial tile code bit : Nat) : State :=
  let t := s.flagCount F.LZP_FLAGS_decode_fault F.LZP_CNT_decode_fault h
  let t1 := if s.on F.LZP_DEC_FAULT0_valid h then t
    else (((((((t.wr F.LZP_DEC_FAULT0_valid 1 h).wr F.LZP_DEC_FAULT0_easel e h).wr F.LZP_DEC_FAULT0_code code h).wr
      F.LZP_DEC_FAULT1_tile_index tile h).wr F.LZP_DEC_FAULT2_serial_lo serial h).wr F.LZP_DEC_FAULT3_serial_hi (serial / 4294967296) h).wr
      F.LZP_DEC_FAULT3_bit_offset bit h)
  t1.raise h Ev.LZP_DECODE_FAULT (framePayload e serial code (le 4 tile ++ le 2 bit))

/-- A tile from the media through a decode unit (R257 to R260) and the comparison of R29: record, 4,096 bytes, and the fault's
code and bit offset. A record that breaks R32 makes a damaged tile without a code, an absent one with flags, length, CRC or payload too. -/
def decodeTile (rec payload : List Byte) : List Byte × List Byte × Option (Nat × Nat) :=
  if recPresent rec = false ∧ recLegal rec ∧ payload = [] then (rec, [], none)
  else if recPresent rec = false ∨ recLegal rec = false then (setRecord rec (checkedFlags (recFlags rec) false) (recLen rec), padTo 4096 (payload.take 4096), none)
  else if recRaw rec then ((checkTile rec payload true).1, padTo 4096 payload, none)
  else
    let d := unpackTile payload (recLen rec)
    match d.2 with
    | some x => (setRecord rec (checkedFlags (recFlags rec) false) (recLen rec), d.1, some x)
    | none => ((checkTile rec d.1 true).1, d.1, none)

/-- What playback counts of a tile it has decoded (R29 to R31): a failed comparison, or a tile that came damaged. -/
def State.playbackSeen (s : State) (h e serial : Nat) (rec out : List Byte) : State :=
  s.tileSeen .playback h (framePayload e serial 0) rec (recPresent rec && !recDamaged rec && recDamaged out)

/-- What playback makes of a tile that went through a decode unit (R29 to R31, R259): a fault is counted and latched, of a tile that came
damaged too. -/
def State.playbackTile (s : State) (h e serial : Nat) (rec : List Byte) (d : List Byte × List Byte × Option (Nat × Nat)) : State :=
  match d.2.2 with
  | some x => (s.decodeFault h e serial (recIndex rec) x.1 x.2).whenB (recDamaged rec) fun s => s.countUp (.tileDamaged .playback)
  | none => s.playbackSeen h e serial rec d.1

/-- TILE_DECODE (R29 to R31, R257 to R260): a decode unit of a half rebuilds a tile of an easel's frame from its record and payload. -/
def execTileDecode (h e serial : Nat) (rec payload : List Byte) (s : State) : Out :=
  if !s.takesWork (0x32 + h) then .next s
  else
  let d := decodeTile rec payload
  .next ((s.updPack h fun z => { z with decoded := some (d.1, d.2.1) }).playbackTile h e serial rec d)

end Sys2Proof.Machine
end

