-- ==== Sys2Proof/Machine/Media.lean ====
section
/-! DEFINITION. What stands on a magazine, byte by byte (spec/10): headers, WIP records, ledger records, segments, and reads
of codewords. -/
namespace Sys2Proof.Machine

/-! ### Ports -/

def State.port (s : State) (p : Nat) : PortSt := s.stor.ports.getD p PortSt.init

def State.updStor (s : State) (f : StoreSt → StoreSt) : State := { s with stor := f s.stor }

def State.updPort (s : State) (p : Nat) (f : PortSt → PortSt) : State :=
  s.updStor fun x => { x with ports := updAt x.ports p f }

def State.updLedger (s : State) (p : Nat) (f : LedgerSt → LedgerSt) : State := s.updPort p fun x => { x with ledger := f x.ledger }

def State.updReel (s : State) (p : Nat) (f : Reel → Reel) : State := s.updPort p fun x => { x with reel := x.reel.map f }

def State.updMag (s : State) (p : Nat) (f : Magazine → Magazine) : State := s.updPort p fun x => { x with mag := x.mag.map f }

def State.take (s : State) (e : Nat) : TakeSt := s.stor.takes.getD e TakeSt.init

def State.updTake (s : State) (e : Nat) (f : TakeSt → TakeSt) : State :=
  s.updStor fun x => { x with takes := updAt x.takes e f }

def State.updTakeFrame (s : State) (e serial : Nat) (f : TakeFrame → TakeFrame) : State :=
  s.updTake e fun x => { x with frames := x.frames.map fun y => if y.serial = serial then f y else y }

/-- MAG_PORT_STATUS.state (R292): 0 OFF, 1 POWER, 2 INIT, 3 READY, 4 MOUNTED, 5 ADMIN, 6 HALT, 7 FAULT. -/
def State.portState (s : State) (p : Nat) : Nat := s.rd F.MAG_PORT_STATUS_state p

def State.setPort (s : State) (p v : Nat) : State := s.wr F.MAG_PORT_STATUS_state v p

end Sys2Proof.Machine

namespace Sys2Proof
open Sys2Proof.Machine

/-- An empty reel ID. -/
def ReelId.zero : ReelId := { roll := 0, reel := 0, secs := 0 }

/-! ### Layouts -/

/-- R335. -/
def ReelId.bytes (r : ReelId) : List Byte := le 8 r.roll ++ le 2 r.reel ++ le 6 r.secs

/-- A codeword of 4,096 bytes that ends in a CRC-32C of the bytes before it. -/
def sealed (b : List Byte) : List Byte := let x := padTo 4092 b; x ++ le 4 (crc32c x)

/-- A header copy (R334). -/
def ReelHeader.bytes (h : ReelHeader) : List Byte :=
  sealed ("MBRH".toList.map (fun c => BitVec.ofNat 8 c.toNat) ++ le 2 h.version ++ le 2 (b2n h.encrypted + 2 * b2n h.sanitised)
    ++ le 4 h.generation ++ h.id.bytes ++ le 2 h.blocks ++ le 1 h.planes ++ le 1 h.shot ++ le 2 h.wl ++ le 1 h.diesCh ++ le 1 h.ledgerN
    ++ padTo 32 (h.ledger0.flatMap (le 2)) ++ le 4 h.keyId ++ padTo 72 h.wrapped)

/-- R342. -/
def Retired.bytes (r : Retired) : List Byte := le 1 r.ch ++ le 1 r.index ++ le 2 r.block ++ le 1 r.cause ++ le 3 0

/-- A WIP record (R370). -/
def WipRec.bytes (w : WipRec) : List Byte :=
  sealed (padTo 64 ("MWIP".toList.map (fun c => BitVec.ofNat 8 c.toNat) ++ le 1 w.op ++ le 1 w.state ++ le 4 w.generation ++ le 2 w.next
    ++ le 2 w.bad.length) ++ w.bad.flatMap Retired.bytes)

/-- A take table entry (R343). -/
def TakeEntry.bytes (t : TakeEntry) : List Byte :=
  padTo 64 (le 4 t.take ++ le 1 t.state ++ le 1 (t.placement + 4 * b2n t.packed) ++ le 1 t.easel ++ le 1 t.format ++ le 2 t.width
    ++ le 2 t.height ++ le 4 t.rate ++ le 6 t.opened ++ le 6 t.ended ++ le 4 t.frames ++ t.partner.bytes ++ le 6 t.serial0)

/-- A frame entry (R344). -/
def FrameEntry.bytes (f : FrameEntry) : List Byte :=
  padTo 48 (le 4 f.take ++ le 4 f.index ++ le 6 f.serial ++ le 1 (f.easel + 4 * f.state + 16 * b2n f.gleaned) ++ le 1 0 ++ le 2 f.fault
    ++ le 2 f.segs ++ le 6 f.secs ++ le 4 f.nanos ++ le 4 f.tiles ++ le 4 f.check)

/-- A segment entry (R344). -/
def SegEntry.bytes (x : SegEntry) : List Byte :=
  le 4 x.serial ++ le 5 x.start ++ le 1 (x.half + 2 * b2n x.packed + 4 * b2n x.last) ++ le 2 x.ordinal ++ le 2 x.tiles ++ le 2 0

/-- The 64-byte entry of a sidecar (R350). -/
def SidecarEntry.bytes (x : SidecarEntry) (segs : Nat) : List Byte :=
  padTo 64 (padTo 32 x.name ++ le 4 x.take ++ le 8 x.length ++ le 4 x.number ++ le 2 segs ++ le 6 x.secs)

/-- The record kind of an entry (R341). -/
def LEntry.kind : LEntry → Nat
  | .format _ _ => 1
  | .set _ _ _ _ _ _ => 2
  | .stripe _ _ _ => 3
  | .detour _ _ => 4
  | .retire _ => 5
  | .take _ => 6
  | .varnish _ _ _ _ _ => 7
  | .commit _ _ _ => 8
  | .reloc _ _ => 9
  | .sidecar _ _ => 10

/-- The bytes of an entry or body (R341 to R344, R350). -/
def LEntry.bytes : LEntry → List Byte
  | .format h ledger => le 2 h.blocks ++ le 1 h.planes ++ le 1 h.shot ++ le 2 h.wl ++ le 1 h.diesCh ++ le 1 h.ledgerN
      ++ ledger.flatMap fun l => l.flatMap (le 2)
  | .set id index st secs blocks counts => padTo 80 (le 2 id ++ le 1 index ++ le 1 st ++ le 6 secs ++ le 2 0
      ++ padTo 32 (blocks.flatMap (le 2)) ++ padTo 32 (counts.flatMap (le 2)))
  | .stripe serial bs wl => le 4 serial ++ le 2 bs ++ le 2 wl
  | .detour a b => padTo 16 (le 5 a ++ le 5 b)
  | .retire r => r.bytes
  | .take t => t.bytes
  | .varnish tk serial easel st fault => le 4 tk ++ le 6 serial ++ le 1 (easel + 4 * st) ++ le 1 0 ++ le 2 fault ++ le 2 0
  | .commit scan frames segs => padTo 8 (le 5 scan ++ le 2 frames.length) ++ frames.flatMap FrameEntry.bytes ++ segs.flatMap SegEntry.bytes
  | .reloc seg start => padTo 16 (le 4 seg ++ le 5 start)
  | .sidecar x segs => x.bytes segs.length ++ segs.flatMap SegEntry.bytes

/-- A ledger record's page (R338). -/
def LRecord.bytes (r : LRecord) (copy : Nat) : List Byte :=
  let head := padTo 60 ("MLDG".toList.map (fun c => BitVec.ofNat 8 c.toNat) ++ le 1 r.version ++ le 1 r.kind ++ le 1 (copy + 2 * b2n r.last)
    ++ le 1 r.gcount ++ le 8 r.seq ++ le 8 r.first ++ le 2 r.entries.length ++ le 2 0 ++ r.id.bytes)
  let body := padTo 4032 r.body
  head ++ le 4 (crc32c (head ++ body)) ++ body

/-- What a programmed SLC page holds. -/
def SlcPage.bytes : SlcPage → List Byte
  | .header h => h.bytes
  | .wip w => w.bytes
  | .ledger copy r => r.bytes copy
  | .bad => []

/-- The payload bytes of a segment. -/
def Segment.payload (g : Segment) : Nat := if g.sidecar then g.file.length else sumOver (g.tiles.map fun t => t.2.length) fun n => n

/-- A version 3 segment has a directory of its Tile Records; a version 2 segment has none (R349, R364). -/
def Segment.dir (g : Segment) : List Byte := if g.version = 3 then g.tiles.flatMap Prod.fst else []

/-- A segment header (R348, R364). -/
def Segment.header (g : Segment) : List Byte :=
  let v3 := g.version == 3
  let idx := g.tiles.map fun t => recIndex t.1
  let h := "MSEG".toList.map (fun c => BitVec.ofNat 8 c.toNat) ++ le 1 g.version ++ le 1 (b2n g.sidecar)
    ++ le 1 (g.half + 2 * b2n (v3 && g.packed) + 4 * b2n g.last + 8 * b2n (v3 && g.encrypted)) ++ le 1 g.easel ++ g.id.bytes ++ le 4 g.serial
    ++ le 4 g.owner ++ le 6 g.frame ++ le 2 g.ordinal ++ le 4 g.tseg ++ le 2 (if v3 then g.tiles.length else 0) ++ le 3 (listMin idx)
    ++ le 3 (listMax idx) ++ le 4 g.payload ++ le 4 (if v3 && !g.sidecar then crc32c g.dir else 0)
  h ++ le 4 (crc32c h)

/-- The 1 MiB of a segment in the clear (R349, R350). -/
def Segment.plain (g : Segment) : List Byte :=
  padTo 1048576 (g.header ++ g.dir ++ (if g.sidecar then g.file else g.tiles.flatMap Prod.snd))

/-- The bytes programmed (R367): bytes 64 to 4,095 are unit 0, each further 4,096 bytes a unit of its own. -/
def Segment.bytes (g : Segment) (key : List Byte) : List Byte :=
  let b := g.plain
  if !g.encrypted then b
  else b.take 64 ++ xtsEncrypt key (g.serial * 256) ((b.take 4096).drop 64)
    ++ ((withIndex (pieces 255 4096 (b.drop 4096))).flatMap fun u => xtsEncrypt key (g.serial * 256 + u.1 + 1) u.2)

/-- Where a segment's payloads begin. -/
def Segment.bodyAt (g : Segment) : Nat := 64 + g.dir.length

/-! ### Geometry -/

/-- Pages of one program unit. -/
def MagIdent.unitPages (m : MagIdent) : Nat := m.planes * m.shot

/-- Dies per channel. -/
def MagIdent.diesCh (m : MagIdent) : Nat := 8 * m.luns

/-- The CE and LUN indexes of a magazine, as 2 × CE + LUN. -/
def MagIdent.indexes (m : MagIdent) : List Nat := if m.luns = 1 then (List.range 8).map (2 * ·) else List.range 16

/-- The die numbers of a magazine. -/
def MagIdent.dies (m : MagIdent) : List Nat := m.indexes.flatMap fun i => (List.range 16).map fun c => c + 16 * i

/-- Pages of a block in SLC mode: one on each word line. -/
def MagIdent.slcPages (m : MagIdent) : Nat := m.wl

/-- A codeword as programmed (R294): its data and the LDPC parity. -/
def codeword (data : List Byte) : List Byte := data ++ (List.range 512).map (Config.ldpc data)

/-- The 18,432 bytes of a page's four codewords (R294). -/
def pageCode (data : List Byte) : List Byte := (pieces 4 4096 data).flatMap codeword

/-- The spare bytes after the codewords of a page, written 0xFF (R294). -/
def MagIdent.spare (m : MagIdent) : List Byte := List.replicate (m.pageData + m.pageSpare - 18432) 0xFF

/-- The step of R300 that a codeword's read ends at: rebuilding is for closed stripes only. -/
def Magazine.cwStep (m : Magazine) (place : PuPlace) (page cw : Nat) (closed : Bool) : Nat :=
  match m.weak.find? (fun w => w.1 == place && w.2.1 == page && w.2.2.1 == cw) with
  | none => 1
  | some w => if w.2.2.2 = 4 ∧ closed = false then 5 else w.2.2.2

/-- Bits corrected in a codeword. -/
def Magazine.cwBits (m : Magazine) (place : PuPlace) (page cw : Nat) : Nat :=
  match m.bits.find? (fun w => w.1 == place && w.2.1 == page && w.2.2.1 == cw) with
  | some w => w.2.2.2
  | none => 0

/-- How the codewords of a page read from now on: step and corrected bits of each. -/
def Magazine.condition (m : Magazine) (place : PuPlace) (page : Nat) (l : List (Nat × Nat)) : Magazine :=
  let other := fun w : PuPlace × Nat × Nat × Nat => !(w.1 == place && w.2.1 == page)
  { m with weak := m.weak.filter other ++ ((withIndex l).filter fun c => decide (2 ≤ c.2.1)).map fun c => (place, page, c.1, c.2.1),
           bits := m.bits.filter other ++ (withIndex l).map fun c => (place, page, c.1, c.2.2) }

/-- What page a unit holds at a place. -/
def Magazine.pageAt (m : Magazine) (place : PuPlace) (page : Nat) : Option PageRef :=
  match m.units.find? (fun u => u.1 == place) with
  | some u => u.2[page]?
  | none => none

end Sys2Proof

namespace Sys2Proof.Machine

/-- The data pages of a port's PU and stripe (R331). -/
def State.unitPages (s : State) (p : Nat) : Nat := match (s.port p).mag with | some m => m.ident.unitPages | none => 1
def State.stripePages (s : State) (p : Nat) : Nat := 15 * s.unitPages p

/-- The channel of a data slot of a stripe at a word line (R296, R331). -/
def slotChannel (wl slot : Nat) : Nat := if slot < wl % 16 then slot else slot + 1

/-- An LPN after the DETOUR entries (R331, R333). -/
def Reel.resolve (r : Reel) (unitPages q : Nat) : Nat :=
  match r.detours.find? (fun d => decide (d.1 ≤ q) && decide (q < d.1 + unitPages)) with | some d => d.2 + (q - d.1) | none => q

/-- The unit and the page in it of an LPN (R331). -/
def Reel.locate (r : Reel) (unitPages q : Nat) : Option (PuPlace × Nat) :=
  let q' := r.resolve unitPages q
  match r.stripes.find? (fun x => x.serial == q' / (15 * unitPages)) with
  | none => none
  | some st => match r.sets.find? (fun b => b.id == st.set) with
    | none => none
    | some b =>
      let o := q' % (15 * unitPages)
      let ch := slotChannel st.wl (o / unitPages)
      some ({ die := ch + 16 * b.index, block := b.blocks.getD ch 0, wl := st.wl }, o % unitPages)

/-- A reel with empty tables. -/
def Reel.blank (h : ReelHeader) (key : List Byte) : Reel :=
  { hdr := h, readOnly := false, key := key, sets := [], stripes := [], detours := [], retired := [], takes := [], varnish := [], frames := [], segs := [],
    sidecars := [], scan := 0, ledger := [], counts := [], times := [], top := 0 }

/-! ### Codeword reads -/

/-- The block set that a block is a member of. -/
def Reel.setAt (r : Reel) (die block : Nat) : Option BlockSet :=
  r.sets.find? fun b => b.index == die / 16 && b.blocks.getD (die % 16) 0 == block && b.state != 3

/-- The stripe of a unit is closed: its parity unit stands programmed (R298). -/
def Reel.closedAt (r : Reel) (m : Magazine) (z : PuPlace) : Bool :=
  match r.setAt z.die z.block with
  | some b => m.pageAt { die := z.wl % 16 + 16 * b.index, block := b.blocks.getD (z.wl % 16) 0, wl := z.wl } 0 == some .parity
  | none => false

/-- A stripe with a unit still open. -/
def PortSt.stripeOpen (x : PortSt) (serial : Nat) : Bool := x.units.any fun u => u.stripe == serial

/-- A block set marked for relocation (R301, R317, R318). -/
def State.markSet (s : State) (p set : Nat) : State :=
  let t := s.updPort p fun x => { x with reloc := if x.reloc.contains set then x.reloc else x.reloc ++ [set] }
  t.wr F.MAG_SCRUB_STATUS_pending (t.port p).reloc.length p

/-- A codeword read (R300, R301): rebuilds and uncorrectable codewords counted and reported, the latter by channel, CE and LUN, block, page and
codeword; weak ones mark the block set. -/
def State.readCw (s : State) (p : Nat) (place : PuPlace) (page cw step bits : Nat) : State :=
  let pay := le 1 (place.die % 16) ++ le 1 (place.die / 16) ++ le 2 place.block ++ le 4 (place.wl * s.unitPages p + page) ++ le 4 cw
  let t := if step = 4 then (s.flagCount F.MAG_FLAGS_rebuild F.MAG_CNT_rebuild p).raise p Ev.MAG_REBUILD []
    else if step = 5 then (s.flagCount F.MAG_FLAGS_uncorr F.MAG_CNT_uncorr p).raise p Ev.MAG_UNCORR pay else s
  if 2 ≤ step ∨ s.rd F.MAG_RD_CFG_refresh_bits p < bits then
    match (s.port p).reel.bind fun r => r.setAt place.die place.block with
    | some b => t.markSet p b.id
    | none => t
  else t

/-- Page reads of a block counted (R318): at the limit its set is marked. -/
def State.countReads (s : State) (p die block n : Nat) : State :=
  let key : BlockAt := (die, block)
  let t := s.updPort p fun y => { y with
    reads := if y.reads.any (fun z => z.1 == key) then y.reads.map (fun z => if z.1 = key then (z.1, z.2 + n) else z) else (key, n) :: y.reads }
  if ((t.port p).reads.find? fun z => z.1 == key).elim 0 Prod.snd < s.rd F.MAG_RD_CFG_rd_limit p * 1000 then t
  else match (s.port p).reel.bind fun r => r.setAt die block with
    | some b => t.markSet p b.id
    | none => t

/-- One page of a unit read (R300, R301, R318): the further page reads its codewords need are counted, a reread at each level tried, two for the
soft decode, and one of each other unit of a closed stripe for a rebuild; the levels are set by SET FEATURES (R288); and each codeword is
reported once. -/
def State.pageRead (s : State) (p : Nat) (z : PuPlace) (page : Nat) : State :=
  match (s.port p).reel, (s.port p).mag with
  | some r, some m =>
    let step := fun c => m.cwStep z page c (r.closedAt m z)
    let worst := listMax ((List.range 4).map step)
    let levels := min 15 Config.retryLevels
    let tried := if worst ≤ 1 then 0 else if worst = 2 then 1 + Config.retryLevel s.fresh % max 1 levels else levels
    let ce := [z.die % 16 + 16 * (z.die / 32)]
    let t := (if worst ≤ 1 then s else s.tick).countReads p z.die z.block (1 + tried + (if 3 ≤ worst then 2 else 0))
    let t1 := t.whenB (decide (0 < tried)) fun s =>
      (s.each ((List.range tried).map (· + 1)) fun s k => s.emit (.nand p (.retryLevel k) ce)).emit (.nand p (.retryLevel 0) ce)
    let t2 := match r.setAt z.die z.block with
      | some b => if 4 ≤ worst ∧ r.closedAt m z = true then
          ((withIndex b.blocks).filter fun c => decide (c.1 ≠ z.die % 16)).foldl (fun s c => s.countReads p (c.1 + 16 * b.index) c.2 1) t1
        else t1
      | none => t1
    (List.range 4).foldl (fun s c => s.readCw p z page c (step c) (m.cwBits z page c)) t2
  | _, _ => s

/-- Page k of a segment stands at a place of a magazine. -/
def pageThere (m : Magazine) (z : PuPlace) (page serial k : Nat) : Bool :=
  match m.pageAt z page with | some (.seg n j) => n == serial && j == k | _ => false

/-- The codewords of a segment, numbered in it, that a read of its page k from a place does not bring (R300 step 5): all four where the page is
not there. -/
def State.lostCws (s : State) (p serial k : Nat) (z : PuPlace) (page : Nat) : List Nat :=
  match (s.port p).reel, (s.port p).mag with
  | some r, some m => ((List.range 4).filter fun c => !pageThere m z page serial k || decide (5 ≤ m.cwStep z page c (r.closedAt m z))).map (4 * k + ·)
  | _, _ => []

/-- The start LPN of a segment on a port: from the group that references it, or while it is in hand. -/
def PortSt.startOf (x : PortSt) (serial : Nat) : Option Nat :=
  match x.reel with
  | none => none
  | some r =>
    match (r.segs.map fun y => y.2.2).find? (fun y => y.serial == serial) with
    | some y => some y.start
    | none => match (r.sidecars.flatMap Prod.snd).find? (fun y => y.serial == serial) with
      | some y => some y.start
      | none => (x.loose.find? fun y => y.1 == serial).map Prod.snd

/-- The codewords of a segment's bytes from a to b, b left out: page in the segment and codeword. -/
def codewords (a b : Nat) : List (Nat × Nat) :=
  (List.range (ceilDiv b 4096 - a / 4096)).map fun k => ((a / 4096 + k) / 4, (a / 4096 + k) % 4)

/-- The pages that hold bytes a to b of a segment that starts at an LPN, b left out. -/
def State.segPages (s : State) (p serial start a b : Nat) : List PageWant :=
  match (s.port p).reel with
  | some r => ((codewords a b).map Prod.fst).eraseDups.filterMap fun k =>
      (r.locate (s.unitPages p) (start + k)).map fun z => { port := p, serial := serial, k := k, place := z.1, page := z.2 }
  | none => []

/-- Bytes a to b of a segment came back whole: none of their codewords is among the lost ones. -/
def cwsWhole (lost : List (Nat × Nat × Nat)) (p serial a b : Nat) : Bool :=
  (codewords a b).all fun c => !lost.contains (p, serial, 4 * c.1 + c.2)

/-- The segment with a serial on a port's magazine. -/
def State.segment (s : State) (p serial : Nat) : Option Segment :=
  match (s.port p).mag with
  | some m => m.segs.find? fun g => g.serial == serial
  | none => none

end Sys2Proof.Machine
end

