-- ==== Sys2Proof/Machine/Store.lean ====
section
/-! DEFINITION. The reel tables, the reel ledger, and the life of a take (spec/10, spec/12). -/
namespace Sys2Proof.Machine

/-! ### Reel tables -/

/-- Block sets with one replaced or added. -/
def putSet (l : List BlockSet) (b : BlockSet) : List BlockSet := l.filter (fun x => x.id ≠ b.id) ++ [b]

/-- Frame and segment entries of a COMMIT: each frame's segments in turn (R344). -/
def dealSegs : List FrameEntry → List SegEntry → List (Nat × Nat × SegEntry)
  | [], _ => []
  | f :: fs, l => (l.take f.segs).map (fun x => (f.take, f.serial, x)) ++ dealSegs fs (l.drop f.segs)

/-- Erase counts set from a SET entry (R306, R342). -/
def putCounts (l : List (BlockAt × Nat)) (index : Nat) (blocks counts : List Nat) : List (BlockAt × Nat) :=
  (withIndex blocks).foldl (fun l c =>
    let key : BlockAt := (c.1 + 16 * index, c.2)
    (key, counts.getD c.1 0) :: l.filter (fun x => x.1 ≠ key)) l

/-- A reel with the frames of a take at and beyond a length unreferenced (R361). -/
def Reel.cut (r : Reel) (t : TakeEntry) (n : Nat) : Reel :=
  let gone := (r.frames.filter fun f => f.take == t.take && decide (n ≤ f.index)).map FrameEntry.serial
  { r with frames := r.frames.filter (fun f => !(f.take == t.take && gone.contains f.serial)),
           segs := r.segs.filter fun y => !(y.1 == t.take && gone.contains y.2.1) }

/-- An entry of a passed group applied to the tables (R342 to R344, R350, R359). The newest STRIPE entry stays live when its set is freed, for the
stripe serials to go on from it (R331; log 120); the entry that ends a take leaves no frame at or beyond its length (R361). -/
def Reel.apply (r : Reel) : LEntry → Reel
  | .format _ ledger => { r with ledger := ledger }
  | .set id index st secs blocks counts =>
    let r1 := { r with counts := putCounts r.counts index blocks counts }
    if st = 3 then { r1 with sets := r.sets.filter (fun x => x.id ≠ id), stripes := r.stripes.filter fun x => decide (x.set ≠ id) || x.serial + 1 == r.top }
    else
      let old := r.sets.find? fun x => x.id == id
      let b : BlockSet :=
        { id := id, index := index, state := max st (old.elim 0 BlockSet.state), blocks := blocks, counts := counts, nextWl := old.elim 0 BlockSet.nextWl,
          secs := secs, stop := old.elim false BlockSet.stop }
      { r1 with sets := putSet r.sets b }
  | .stripe serial b wl =>
    let up := fun x : BlockSet => if x.id = b then { x with nextWl := max x.nextWl (wl + 1) } else x
    { r with stripes := r.stripes.filter (fun x => decide (x.serial ≠ serial) && r.sets.any fun y => y.id == x.set) ++ [⟨serial, b, wl⟩], sets := r.sets.map up,
             top := max r.top (serial + 1) }
  | .detour a b => { r with detours := r.detours.filter (fun d => d.1 ≠ a) ++ [(a, b)] }
  | .retire x => { r with retired := r.retired.filter (fun y => !(y.ch == x.ch && y.index == x.index && y.block == x.block)) ++ [x] }
  | .take t =>
    let r1 := if t.state = 0 then r else r.cut t t.frames
    { r1 with takes := r.takes.filter (fun x => x.take ≠ t.take) ++ [t] }
  | .varnish tk serial easel st fault =>
    { r with varnish := r.varnish.filter (fun v => v ≠ (tk, serial, easel, st, fault)) ++ [(tk, serial, easel, st, fault)] }
  | .commit scan frames segs =>
    { r with frames := r.frames.filter (fun f => !frames.contains f) ++ frames,
             segs := r.segs.filter (fun x => !(segs.any fun g => g.serial == x.2.2.serial)) ++ dealSegs frames segs, scan := scan,
             varnish := r.varnish.filter fun v => !(frames.any fun f => f.take == v.1 && f.serial == v.2.1) }
  | .reloc seg start =>
    let mv := fun x : SegEntry => if x.serial = seg then { x with start := start } else x
    { r with segs := r.segs.map (fun x => (x.1, x.2.1, mv x.2.2)), sidecars := r.sidecars.map fun x => (x.1, x.2.map mv) }
  | .sidecar x segs => { r with sidecars := r.sidecars.filter (fun y => y.1.name ≠ x.name) ++ [(x, segs)] }

/-- Blocks that never join a block set: control blocks and their neighbours, and ledger blocks (R329, R330). -/
def Reel.kept (r : Reel) (die block : Nat) : Bool :=
  decide (die < 16) && ((die % 4 == 0 && decide (block < 16)) || (r.ledger.getD die []).contains block)

/-- A retired block is in a list. -/
def listsBlock (l : List Retired) (die block : Nat) : Bool := l.any fun x => x.ch == die % 16 && x.index == die / 16 && x.block == block

/-- A retired block. -/
def Reel.retiredAt (r : Reel) (die block : Nat) : Bool := listsBlock r.retired die block

/-- A block of a live block set. -/
def Reel.inSet (r : Reel) (die block : Nat) : Bool :=
  r.sets.any fun b => b.index == die / 16 && b.blocks.getD (die % 16) 0 == block

/-- The erase count of a block: one, the erase of the FORMAT, until a SET entry tells it. DEDUCED, log 119. -/
def Reel.count (r : Reel) (die block : Nat) : Nat :=
  match r.counts.find? (fun x => x.1 == (die, block)) with | some x => x.2 | none => 1

/-! ### Entries for the ledgers -/

/-- A reel is mounted on the port. -/
def State.mounted (s : State) (p : Nat) : Bool := s.portState p == 4

/-- The version of the mounted reel. -/
def State.reelVersion (s : State) (p : Nat) : Nat := match (s.port p).reel with | some r => r.hdr.version | none => 0

/-- A mounted reel that is read-only. -/
def State.reelReadOnly (s : State) (p : Nat) : Bool := match (s.port p).reel with | some r => r.readOnly | none => false

/-- Entries given to a port's ledger. -/
def State.ledgerPut (s : State) (p : Nat) (l : List LEntry) : State := s.updLedger p fun x => { x with pend := x.pend ++ l }

/-- The seconds of now. -/
def State.nowSecs (s : State) : Nat := ptpSeconds s.now

/-- The reel ID of a mounted reel. -/
def State.reelId (s : State) (p : Nat) : ReelId := match (s.port p).reel with | some r => r.hdr.id | none => ReelId.zero

/-- The ports of a placement (R303). -/
def placePorts (placement : Nat) : List Nat := if placement = 0 then [0] else if placement = 1 then [1] else [0, 1]

/-- The TAKE entry of an easel's take for a port (R343). -/
def State.takeEntry (s : State) (e p st : Nat) : LEntry :=
  let t := s.take e
  let placement := s.rd F.TAKE_STATUS_placement e
  let opening := st == 0
  .take { take := s.rd F.TAKE_NUMBER_value e, state := st, placement := placement, packed := s.on F.TAKE_STATUS_packed e, easel := e,
          format := s.rd F.EASEL_FMT_format e, width := s.rd F.EASEL_GEOM_width e, height := s.rd F.EASEL_GEOM_height e,
          rate := s.rd F.EASEL_RATE_rate_mfps e, opened := t.opened, ended := if opening then 0 else s.nowSecs,
          frames := if opening then 0 else s.rd F.TAKE_FRAMES_value e,
          partner := if placement = 2 then t.reels.getD (1 - p) ReelId.zero else ReelId.zero, serial0 := if opening then 0 else t.serial0 }

/-! ### Holds and dropped frames -/

/-- The magazine writer's hold on a half's slot part goes once every tile of it is programmed or moved (R285, R311). -/
def State.magHold (s : State) (e serial h : Nat) : State :=
  let left := fun x : SegTask => x.seg.easel == e && x.seg.frame == serial && x.seg.half == h && x.src == .canvas && !x.reloc
  let closed := match (s.take e).frames.find? (fun f => f.serial == serial) with
    | some f => f.closed.contains h
    | none => true
  match s.slotOf e serial with
  | some k => if closed && !(s.stor.ports.any fun p => p.tasks.any left) then s.releaseHold e k h .magazine else s
  | none => s

/-- HBM_ELASTIC.used_mib follows the elastic buffer (R314). -/
def State.elasticStatus (s : State) (h : Nat) : State :=
  let n := (s.stor.elastic.getD h []).length
  (s.wr F.HBM_ELASTIC_used_mib n h).peak F.HBM_ELASTIC_peak_mib n h

/-- Elastic space freed. -/
def State.freeElastic (s : State) (h addr : Nat) : State :=
  (s.updStor fun x => { x with elastic := updAt x.elastic h fun l => l.filter fun y => y.1 ≠ addr }).elasticStatus h

/-- A segment's source let go (R311). -/
def State.freeSource (s : State) (x : SegTask) : State :=
  match x.src with
  | .canvas => s.magHold x.seg.easel x.seg.frame x.seg.half
  | .ring seqs => s.freeEntries x.seg.half fun y => seqs.contains y.seq
  | .elastic a => s.freeElastic x.seg.half a
  | .inner => s

/-- A unit whose program has not begun. -/
def PortSt.unissued (x : PortSt) (u : ProgUnit) : Bool :=
  (u.stage == .filling || u.stage == .queued) && !(x.ops.any fun o => o.running && o.kind == .unit u.stripe u.slot)

/-- Pad pages in place of the pages of segments that are no longer to be programmed. -/
def padOut (serials : List Nat) (l : List PageRef) : List PageRef :=
  l.map fun g => match g with | .seg n _ => if serials.contains n then .pad else g | _ => g

/-- Segments of elastic space are taken out of a port: what no program has begun on is never programmed, pad pages standing in its place (R327). -/
def PortSt.unplace (x : PortSt) (serials : List Nat) : PortSt :=
  let left := x.units.map fun u => if x.unissued u then { u with pages := padOut serials u.pages } else u
  let stands := fun n => left.any fun u => u.pages.any fun g => match g with | .seg k _ => k == n | _ => false
  { x with units := left, moves := x.moves.map (fun m => (m.1, padOut serials m.2)),
           loose := x.loose.filter fun d => !serials.contains d.1 || stands d.1,
           tasks := x.tasks.filter fun t => !(t.start.isSome && serials.contains t.seg.serial) }

/-- A frame leaves a take: its segments not yet in placement are taken out, and so are those in elastic space; others in placement are never
referenced; its sources and holds are let go (R313, R320, R325, R327). -/
def State.dropTakeFrame (s : State) (e serial : Nat) : State :=
  let mine := fun x : SegTask => x.seg.easel == e && x.seg.frame == serial && !x.seg.sidecar && !x.reloc && !x.dead
  let spilled := fun x : SegTask => match x.src with | .elastic _ => true | _ => false
  let out := fun x : SegTask => mine x && (x.start.isNone || spilled x)
  let gone := s.stor.ports.flatMap fun p => p.tasks.filter out
  let t := s.updTake e fun x => { x with frames := x.frames.filter fun f => f.serial ≠ serial }
  let t1 := t.updStor fun x => { x with ports := x.ports.map fun p =>
    let q := p.unplace ((p.tasks.filter fun x => mine x && x.start.isSome && spilled x).map fun x => x.seg.serial)
    { q with tasks := (q.tasks.filter fun x => !out x).map fun x => if mine x then { x with dead := true } else x,
             done := q.done.filter fun d => !(d.1 == s.rd F.TAKE_NUMBER_value e && d.2.1 == serial) } }
  let t2 := t1.each gone State.freeSource
  let t3 := match t2.slotOf e serial with
    | some k => (t2.releaseHold e k 0 .magazine).releaseHold e k 1 .magazine
    | none => t2
  let t4 := match t3.frame e serial with
    | some f => if f.inTake then (t3.packDrop e f).packDiscard e serial else t3
    | none => t3
  t4.updFrame e serial fun f => { f with inTake := false }

/-! ### Exposure -/

/-- A unit that has passed, or whose program runs. -/
def PortSt.programming (x : PortSt) (u : ProgUnit) : Bool :=
  u.stage == .passed || (x.ops.any fun o => o.running && o.kind == .unit u.stripe u.slot)

/-- Whether a segment's pages all stand in units that pass a test. -/
def PortSt.segAll (x : PortSt) (t : SegTask) (p : ProgUnit → Bool) : Bool :=
  t.put == 64 && x.units.all (fun u => p u || !(u.pages.any fun g => match g with | .seg n _ => n == t.seg.serial | _ => false))
    && x.moves.all fun m => !(m.2.any fun g => match g with | .seg n _ => n == t.seg.serial | _ => false)

/-- Whether every segment of a frame stands on the ports of its take in units that pass a test. -/
def State.frameStands (s : State) (e serial : Nat) (ok : PortSt → SegTask → Bool) : Bool :=
  (s.take e).ports.all fun p => ((s.port p).tasks.filter fun t => t.seg.easel == e && t.seg.frame == serial && !t.reloc && !t.seg.sidecar).all (ok (s.port p))

/-- REEL_EXPOSURE of a port (R356). -/
def State.exposureOf (s : State) (p : Nat) : State :=
  let x := s.port p
  let all := (List.range 4).flatMap fun e => if (s.take e).ports.contains p then (s.take e).frames.map fun f => (e, f) else []
  let open' := all.filter fun y => !y.2.ports.contains p
  let whole := fun y : Nat × TakeFrame => y.2.settled.isSome && y.2.closed.length == 2
  let pfw := open'.filter fun y => !(whole y && s.frameStands y.1 y.2.serial fun q t => q.segAll t q.programming)
  let varnished := fun y : Nat × TakeFrame => match x.reel with
    | some r => r.varnish.any fun v => v.1 == s.rd F.TAKE_NUMBER_value y.1 && v.2.1 == y.2.serial
    | none => false
  let cut := open'.filter fun y => !(whole y && s.frameStands y.1 y.2.serial (fun _ _ => false) && varnished y)
  (s.wr F.REEL_EXPOSURE_pfw_loss (min 0xFFFF pfw.length) p).wr F.REEL_EXPOSURE_cut_loss (min 0xFFFF cut.length) p

/-- REEL_EXPOSURE of both ports after a change on one: a striped take's frames stand on both. -/
def State.exposure (s : State) (p : Nat) : State := (s.exposureOf p).exposureOf (1 - p)

/-! ### Open takes and the operations of a port -/

/-- The takes that record to a port and are open. -/
def State.takesOn (s : State) (p : Nat) : List Nat :=
  (List.range 4).filter fun e => s.takeOpen e && (s.take e).ports.contains p

/-- A take of the port is open. -/
def State.portTakeOpen (s : State) (p : Nat) : Bool := !(s.takesOn p).isEmpty

/-- Relocation issues on a port: its work is in hand and no take is open there (R308, R319). -/
def State.scrubRuns (s : State) (p : Nat) : Bool :=
  let x := s.port p
  !s.portTakeOpen p && (!x.moving.isEmpty || x.tasks.any SegTask.reloc || x.ops.any fun o => o.cls == 4)

/-- MAG_OPS and MAG_SCRUB_STATUS follow a port's operations and its queue of block sets. -/
def State.opsStatus (s : State) (p : Nat) : State :=
  let n := (s.port p).ops.length
  (((s.wr F.MAG_OPS_now n p).peak F.MAG_OPS_peak n p).wr F.MAG_SCRUB_STATUS_running (b2n (s.scrubRuns p)) p).wr F.MAG_SCRUB_STATUS_pending
    (s.port p).reloc.length p

/-! ### The end of a take -/

/-- TAKE_CLOSE commands that wait complete, and the take is NONE (R419, R420). -/
def State.closeTake (s : State) (e status : Nat) : State :=
  let t := s.take e
  let s1 := s.each t.closeCmds fun s id => s.complete id status (s.rd F.TAKE_FRAMES_value e) (s.rd F.TAKE_SCRAPED_value e)
  (((s1.wr F.TAKE_STATUS_state 0 e).wr F.TAKE_STATUS_end_status status e).updTake e fun _ => TakeSt.init).each t.ports State.opsStatus

/-- A take whose last frames are committed or dropped: with an ending cause it becomes ENDED, its entries are given to the
ledgers of the ports that have their reel, and EV_TAKE_ENDED is raised (R421); closed by TAKE_CLOSE it waits for the
stripes open then, and after them for its ending entries (R419). -/
def State.takeCheck (s : State) (e : Nat) : State :=
  let t := s.take e
  let st := s.rd F.TAKE_STATUS_state e
  let full := st == 2 && t.limit != 0 && t.accepted == t.limit && t.ending.isNone
  let ending := if full then some (0, 1) else t.ending
  if !(st == 2 || st == 3) || !t.frames.isEmpty || t.ended then s
  else match ending with
    | some (status, code) =>
      let s1 := s.each t.ports fun s p => s.ledgerPut p [s.takeEntry e p code]
      let s2 := ((s1.wr F.TAKE_STATUS_state 4 e).wr F.TAKE_STATUS_end_status status e).updTake e fun x => { x with ending := some (status, code), ended := true }
      let s3 := s2.raise 0 Ev.TAKE_ENDED (le 1 e ++ le 4 (s.rd F.TAKE_NUMBER_value e) ++ le 2 status ++ le 4 (s.rd F.TAKE_FRAMES_value e))
      let s4 := if t.closeCmds.isEmpty then s3.each t.ports State.opsStatus else s3.closeTake e status
      s4.calTakesClosed
    | none =>
      if st ≠ 3 then s
      else
        let wait := (t.drain.getD (t.ports.flatMap fun p => ((s.port p).units.map ProgUnit.stripe).eraseDups.map fun n => (p, n))).filter fun y =>
          (s.port y.1).stripeOpen y.2
        if !wait.isEmpty then
          (s.updTake e fun x => { x with drain := some wait }).each t.ports fun s p => s.updPort p fun x => { x with pad := true }
        else (s.each t.ports fun s p => s.ledgerPut p [s.takeEntry e p 1]).updTake e fun x => { x with ended := true, wait := t.ports }

/-- The device ledger's record of a roll (R335, R355, R634): its take counter, then the reels formatted under it. -/
def State.rollRecord (s : State) (roll : Nat) : State :=
  let n := match s.stor.rolls.find? (fun r => r.1 == roll) with | some r => r.2 | none => 1
  s.ledgerAdd 8 roll (n :: ((s.stor.formatted.filter fun r => r.1 == roll).flatMap fun r => [r.2.1, r.2.2]))

/-- A take is ended by a cause (R421): frames it keeps are still committed, the others leave it. The first cause stands. A take
that is OPENING is not created. One whose ending entries are on their way is ended over again by the loss of a port or of its ledger, the
entries not issued yet taken back (log 121). -/
def State.endTake (s : State) (e status code : Nat) (keep : TakeFrame → Bool) : State :=
  let st := s.rd F.TAKE_STATUS_state e
  let t := s.take e
  if st = 1 then
    let s1 := match t.openCmd with | some id => s.complete id status | none => s
    let s2 := s1.each t.closeCmds fun s id => s.complete id St.TAKE_UNKNOWN
    (((s2.wr F.TAKE_STATUS_state 0 e).updTake e fun _ => TakeSt.init).each t.ports State.opsStatus).calTakesClosed
  else if st = 2 ∨ (st = 3 ∧ (t.ended = false ∨ code = 4 ∨ code = 5 ∨ code = 7)) then
    let s0 := s.each t.ports fun s p => s.updLedger p fun y => { y with pend := y.pend.filter fun x => match x with
      | .take k => !(k.take == s.rd F.TAKE_NUMBER_value e && k.state != 0)
      | _ => true }
    let s1 := s0.each (t.frames.filter fun f => !keep f) fun s f => s.dropTakeFrame e f.serial
    let s2 := s1.updTake e fun x => { x with ending := if x.ending.isNone then some (status, code) else x.ending, ended := false, wait := [] }
    ((s2.wr F.TAKE_STATUS_state 3 e).takeCheck e).each t.ports State.exposure
  else s

/-- No frame beyond the committed ones is kept. -/
def keepNone : TakeFrame → Bool := fun _ => false

/-! ### Frames -/

/-- An accepted frame-start of an easel whose take records (R418): the frame belongs to the take. -/
def State.takeFrameStart (s : State) (e serial stamp : Nat) : State :=
  let t := s.take e
  if s.rd F.TAKE_STATUS_state e = 2 ∧ t.ending.isNone ∧ (t.limit = 0 ∨ t.accepted < t.limit) then
    let f : TakeFrame := { serial := serial, settled := none, fault := 0, stamp := stamp, tiles := [0, 0], ords := [0, 0], closed := [],
                           ports := [], index := none }
    ((s.updTake e fun x => { x with accepted := x.accepted + 1, frames := x.frames ++ [f] }).updFrame e serial fun y =>
      { y with inTake := true }).each t.ports State.exposure
  else s

/-- The recording holds of a frame's slot (R285). -/
def State.recordHolds (s : State) (e : Nat) : List Holder :=
  let t := s.take e
  if s.rd F.TAKE_STATUS_state e = 2 ∧ t.ending.isNone ∧ (t.limit = 0 ∨ t.accepted < t.limit) then
    (if s.on F.TAKE_STATUS_packed e then [.packer] else [.magazine])
  else []

/-- A scraped frame leaves its take, and is counted. -/
def State.scrapedOut (s : State) (e serial : Nat) : State :=
  if (s.take e).frames.any fun f => f.serial == serial then (s.dropTakeFrame e serial).bump F.TAKE_SCRAPED_value e else s

/-- A settle notice of the magazine writer (R153, R351): a frame of a take that dries gets its VARNISH entry on every port with
a version 3 reel; a scraped one leaves the take. -/
def State.storeNotice (s : State) (e serial : Nat) : State :=
  match s.frame e serial, (s.take e).frames.find? (fun f => f.serial == serial) with
  | some f, some _ =>
    if f.st = .scraped then
      ((s.scrapedOut e serial).takeCheck e).each (s.take e).ports State.exposure
    else if f.isDry then
      let code := if f.st = .dry then 1 else 2
      let t := s.updTakeFrame e serial fun x => { x with settled := some code, fault := f.fault }
      (t.each ((s.take e).ports.filter fun p => s.reelVersion p == 3) fun s p =>
        s.ledgerPut p [.varnish (s.rd F.TAKE_NUMBER_value e) serial e code f.fault]).each (s.take e).ports State.exposure
    else s
  | some f, none => if f.st = .scraped then s.packDiscard e serial else s
  | _, _ => s

/-- A frame's COMMIT group has passed on a port (R353): with every port of the take it counts as committed. -/
def State.frameCommitted (s : State) (p e serial : Nat) : State :=
  let t := s.updTakeFrame e serial fun f => { f with ports := p :: f.ports }
  match (t.take e).frames.find? (fun f => f.serial == serial) with
  | none => t
  | some f =>
    if (t.take e).ports.all f.ports.contains then
      let t1 := (t.updTake e fun x => { x with frames := x.frames.filter fun f => f.serial ≠ serial }).bump F.TAKE_FRAMES_value e
      let up := fun w : Nat × List (Nat × Nat) × List (Nat × Nat) × Nat =>
        if w.2.1.contains (e, serial) then (w.1, w.2.1.filter (fun y => y ≠ (e, serial)), w.2.2.1, w.2.2.2 + 1) else w
      let t2 := t1.updStor fun x => { x with flushes := x.flushes.map up }
      t2.takeCheck e
    else t

/-- FLUSH commands whose frames are committed or dropped and whose stripes have their parity complete (R428). -/
def State.flushCheck (s : State) : State :=
  let live := fun w : Nat × Nat => (s.take w.1).frames.any fun f => f.serial == w.2
  let t := s.updStor fun x => { x with flushes := x.flushes.map fun w =>
    (w.1, w.2.1.filter live, w.2.2.1.filter (fun y => (s.port y.1).stripeOpen y.2), w.2.2.2) }
  let ready := t.stor.flushes.filter fun w =>
    w.2.1.isEmpty && w.2.2.1.isEmpty && !(t.outstanding.any fun o =>
      match t.cmd w.1 with | some c => o.ring == c.ring && decide (o.id < c.id) | none => false)
  (t.each ready fun s w => s.complete w.1 St.OK w.2.2.2).updStor fun x =>
    { x with flushes := x.flushes.filter fun w => !(ready.any fun r => r.1 == w.1) }

end Sys2Proof.Machine
end

