-- ==== Sys2Proof/Machine/Ledger.lean ====
section
/-! DEFINITION. The reel ledger's groups and snapshots, and what a passed group brings about (spec/10 R338 to R356). -/
namespace Sys2Proof.Machine

/-! ### Operations -/

/-- A die has room for an operation within the limits of R307. -/
def PortSt.opFits (x : PortSt) (o : DieOp) : Bool :=
  decide (x.ops.length < 6144) && decide ((x.ops.filter fun y => y.die == o.die).length < 24)

/-- The operations that wait for room are queued in arrival order as far as there is room (R307, R45). One that may not be issued now waits, and
gives its place back where it had one (R308; DESIGN CHOICE, log 115). -/
def PortSt.refill (x : PortSt) (may : DieOp → Bool) : PortSt :=
  ((x.ops.filter fun o => !o.running && !may o) ++ x.held).foldl
    (fun y o => if may o && y.opFits o then { y with ops := y.ops ++ [o] } else { y with held := y.held ++ [o] })
    { x with ops := x.ops.filter (fun o => o.running || may o), held := [] }

/-- A take close or a FLUSH waits for the open stripes of a port (R298). -/
def State.draining (s : State) (p : Nat) : Bool :=
  ((s.takesOn p).any fun e => s.rd F.TAKE_STATUS_state e == 3) || s.stor.flushes.any fun w => w.2.2.1.any fun y => y.1 == p

/-- An operation may be issued: one of class 4 only while no take is open on the port, but for the units that an open stripe needs for the
parity a take close or a FLUSH asks for (R308; log 116). -/
def State.mayIssue (s : State) (p : Nat) (o : DieOp) : Bool :=
  o.cls != 4 || !s.portTakeOpen p || (s.draining p && match o.kind with | .unit _ _ => true | _ => false)

/-- A port's operations queued as far as they may be. -/
def State.refill (s : State) (p : Nat) : State := (s.updPort p fun x => x.refill (s.mayIssue p)).opsStatus p

/-- An operation that programs. -/
def DieOp.programs (o : DieOp) : Bool := match o.kind with | .unit _ _ => true | .ledger _ _ _ => true | .slc _ _ => true | _ => false

/-- Every operation of a port: queued, running, or waiting for room. -/
def PortSt.allOps (x : PortSt) : List DieOp := x.ops ++ x.held

/-- Operations given to a port's dies; beyond the limits of R307 they wait. -/
def State.addOps (s : State) (p : Nat) (l : List DieOp) : State :=
  (s.updPort p fun x => { x with held := x.held ++ l }).refill p

/-- The SLC pages of one block. -/
def State.slcPages (s : State) (p : Nat) : Nat := match (s.port p).mag with | some m => m.ident.slcPages | none => 1

/-! ### Ledger pages -/

/-- Unprogrammed ledger pages of the ledger die of a channel. -/
def LedgerSt.pagesLeft (x : LedgerSt) (pages ch : Nat) : Nat :=
  (match x.cur.getD ch none with | some c => pages - c.2 | none => 0) + (x.free.getD ch []).length * pages

/-- The next ledger page of a die (R339): of its current block, else of the lowest free one. -/
def LedgerSt.page (x : LedgerSt) (pages ch : Nat) : Option (Nat × Nat × LedgerSt) :=
  let fresh := match x.free.getD ch [] with
    | [] => none
    | b :: bs => some (b, 0, { x with cur := x.cur.set ch (some (b, 1)), free := x.free.set ch bs })
  match x.cur.getD ch none with
  | some c => if c.2 < pages then some (c.1, c.2, { x with cur := x.cur.set ch (some (c.1, c.2 + 1)) }) else fresh
  | none => fresh

/-- Room for a group of n records beside the reserve of R347: two pages of each die stay free. -/
def LedgerSt.room (x : LedgerSt) (pages n : Nat) (reserve : Bool) : Bool :=
  (List.range n).all fun i => [0, 8].all fun c =>
    decide ((if reserve then 0 else 2) < x.pagesLeft pages ((x.seq + i) % 8 + c))

/-- REEL_LEDGER and REEL_SEQ follow the ledger; a quarter or less of free blocks while a take is open is reported once. -/
def State.ledgerStatus (s : State) (p : Nat) : State :=
  let x := s.port p
  let total := match x.reel with | some r => sumOver (r.ledger.map List.length) fun n => n | none => 0
  let free := sumOver (x.ledger.free.map List.length) fun n => n
  let t := ((s.wr F.REEL_LEDGER_free_pct (free * 100 / max 1 total) p).wr F.REEL_SEQ_LO_value x.ledger.seq p).wr
    F.REEL_SEQ_HI_value (x.ledger.seq / 4294967296) p
  if free * 4 < total ∧ x.lowTold = false ∧ s.portTakeOpen p = true then
    ((t.updPort p fun x => { x with lowTold := true }).wr F.REEL_FLAGS_ledger_low 1 p).raise p Ev.REEL_LEDGER_LOW []
  else if free * 4 < total then t else t.updPort p fun x => { x with lowTold := false }

/-! ### Records -/

/-- A body cut into records of 4,032 bytes, the entries named in the first. -/
def bodyRecords (es : List LEntry) (b : List Byte) : List (List LEntry × List Byte) :=
  (withIndex (pieces (max 1 (ceilDiv b.length 4032)) 4032 b)).map fun c => (if c.1 = 0 then es else [], c.2)

/-- Entries packed into records in order: an entry goes on in the record in hand while it fits. -/
def packRecords : List LEntry → List LEntry → List Byte → List (List LEntry × List Byte)
  | [], es, b => if es.isEmpty then [] else bodyRecords es b
  | x :: xs, es, b =>
    if es.isEmpty then packRecords xs [x] x.bytes
    else if b.length + x.bytes.length ≤ 4032 then packRecords xs (es ++ [x]) (b ++ x.bytes)
    else bodyRecords es b ++ packRecords xs [x] x.bytes

/-- The entries of a list with the first n that pass a test left out. -/
def dropFirst (p : LEntry → Bool) : Nat → List LEntry → List LEntry
  | _, [] => []
  | 0, l => l
  | n + 1, x :: xs => if p x then dropFirst p n xs else x :: dropFirst p (n + 1) xs

/-- The records of a group with sequence numbers (R338, R339). -/
def numberRecords (seq version : Nat) (id : ReelId) (last : Bool) (l : List (Nat × List LEntry × List Byte)) : List LRecord :=
  (withIndex l).map fun c =>
    { version := version, kind := c.2.1, seq := seq + c.1, first := seq, gcount := l.length, last := last && c.1 + 1 == l.length, id := id,
      entries := c.2.2.1, body := c.2.2.2 }

/-- A group goes to the dies: both copies of every record at once (R339). -/
def State.issueGroup (s : State) (p : Nat) (rs : List LRecord) (reserve : Bool) : State :=
  let pages := s.slcPages p
  let places := rs.flatMap fun r => [0, 1].map fun c => (r.seq - r.first, c, r.seq % 8 + 8 * c)
  let go := places.foldl (fun (a : LedgerSt × List DieOp) x =>
    match a.1.page pages x.2.2 with
    | some (b, n, l) => (l, a.2 ++ [{ die := x.2.2, block := b, cls := 0, kind := .ledger x.1 x.2.1 n, running := false }])
    | none => a) ((s.port p).ledger, [])
  (s.updLedger p fun _ => { go.1 with group := some { records := rs, waiting := places.map fun x => (x.1, x.2.1), reserve := reserve } }).addOps
    p go.2

/-! ### Commits -/

/-- No segment of a frame is still on its way to a port. -/
def PortSt.frameIn (x : PortSt) (e serial : Nat) : Bool :=
  !(x.tasks.any fun t => t.seg.easel == e && t.seg.frame == serial && !t.reloc && !t.seg.sidecar && !t.dead)

/-- Frames of a take a port may commit now (R352): the leading ones that are settled, closed on both halves and programmed. -/
def State.committable (s : State) (p e : Nat) : List TakeFrame :=
  let x := s.port p
  ((s.take e).frames.filter fun f => !f.ports.contains p).takeWhile fun f =>
    f.settled.isSome && f.closed.length == 2 && x.frameIn e f.serial

/-- Segment entries in ascending half and ordinal (R344). -/
def sortSegs (l : List SegEntry) : List SegEntry :=
  let ins := fun (y : SegEntry) (l : List SegEntry) =>
    l.takeWhile (fun z => z.half * 65536 + z.ordinal < y.half * 65536 + y.ordinal) ++ [y]
      ++ l.dropWhile (fun z => z.half * 65536 + z.ordinal < y.half * 65536 + y.ordinal)
  l.foldr ins []

/-- The segments of a frame that stand on a port and await their commit. -/
def PortSt.frameSegs (x : PortSt) (take serial : Nat) : List SegEntry :=
  sortSegs ((x.done.filter fun d => d.1 == take && d.2.1 == serial).map fun d => d.2.2)

/-- The frame check (R344): CRC-32C over the crc fields of the Tile Records in ascending tile index. -/
def frameCheck (segs : List Segment) : Nat :=
  crc32c ((sortNat ((segs.flatMap Segment.tiles).map fun t => recIndex t.1 * 4294967296 + recCrc t.1)).flatMap fun v => le 4 v)

/-- A frame's entry for a port (R344). -/
def State.frameEntry (s : State) (p e : Nat) (f : TakeFrame) (index : Nat) (gleaned : Bool) : FrameEntry × List SegEntry :=
  let take := s.rd F.TAKE_NUMBER_value e
  let segs := (s.port p).frameSegs take f.serial
  let full := segs.filterMap fun x => s.segment p x.serial
  ({ take := take, index := index, serial := f.serial, easel := e, state := f.settled.getD 1, gleaned := gleaned, fault := f.fault,
     segs := segs.length, secs := (ptpSeconds f.stamp), nanos := (ptpNanos f.stamp),
     tiles := sumOver (segs.map SegEntry.tiles) (fun n => n), check := frameCheck full }, segs)

/-- The LPN after the last page placed. -/
def State.nextLpn (s : State) (p : Nat) : Nat :=
  let x := s.port p
  let u := s.unitPages p
  let last := (x.units.filter fun y => y.slot < 15).getLast?
  match last with
  | some y => if y.stage = .filling then y.stripe * 15 * u + y.slot * u + y.pages.length
      else if y.slot = 14 then x.nextStripe * 15 * u else y.stripe * 15 * u + (y.slot + 1) * u
  | none => x.nextStripe * 15 * u

/-- The serials of the segments that a committed frame or a sidecar references. -/
def Reel.refs (r : Reel) : List Nat := r.segs.map (fun y => y.2.2.serial) ++ (r.sidecars.flatMap Prod.snd).map SegEntry.serial

/-- scan_from of a COMMIT (R344): a relocated copy of a referenced segment does not count. -/
def State.scanFrom (s : State) (p : Nat) (segs : List SegEntry) : Nat :=
  let refs := match (s.port p).reel with | some r => r.refs | none => []
  match ((s.port p).loose.filter fun y => !(segs.any fun g => g.serial == y.1) && !refs.contains y.1).map Prod.snd with
  | [] => s.nextLpn p
  | a :: l => listMin (a :: l)

/-- The commit of a port: up to 32 frames, its body within n records. -/
def State.commitBody (s : State) (p n : Nat) : Option (LEntry × State) :=
  let all := (s.takesOn p).flatMap fun e => (s.committable p e).map fun f => (e, f)
  let r := all.foldl (fun (a : State × List FrameEntry × List SegEntry × Bool) x =>
    let index := x.2.index.getD (a.1.take x.1).next
    let f := a.1.frameEntry p x.1 x.2 index false
    let size := 8 + 48 * (a.2.1.length + 1) + 16 * (a.2.2.1.length + f.2.length)
    if a.2.2.2 || decide (32 ≤ a.2.1.length) || decide (n * 4032 < size) then (a.1, a.2.1, a.2.2.1, true)
    else
      let first := x.2.index.isNone
      let t := (a.1.updTakeFrame x.1 x.2.serial fun y => { y with index := some index }).updTake x.1 fun y =>
        { y with next := if first then y.next + 1 else y.next, serial0 := if index = 0 then x.2.serial else y.serial0 }
      (t, a.2.1 ++ [f.1], a.2.2.1 ++ f.2, false)) (s, [], [], false)
  if r.2.1.isEmpty then none else some (.commit (s.scanFrom p r.2.2.1) r.2.1 r.2.2.1, r.1)

/-! ### LEDGER_GROUP_ISSUE -/

/-- Entries a half in quiet may still issue (R354). -/
def quietKind (k : Nat) : Bool := k == 2 || k == 3 || k == 4 || k == 5 || k == 9 || k == 1

/-- TAKE entries may be issued: authority is settled, and the stallholder's keeper runs (R355, R417). -/
def State.takesMay (s : State) : Bool := !s.quiet 0 && !s.quiet 1 && (s.keeper s.holder).up

/-- A kind of entry that a port may issue now (R354, R355, R578). -/
def State.kindMay (s : State) (p k : Nat) : Bool := if k = 6 then s.takesMay else !s.quiet p || quietKind k

/-- The port's ledger may be written: a mounted reel, or one whose mount waits for its groups, or a format's records; never a read-only
reel (R359). -/
def State.ledgerLive (s : State) (p : Nat) : Bool :=
  let x := s.port p
  (match x.reel with | some r => !r.readOnly | none => false) && !x.pfw && (s.mounted p || x.mount.isSome || x.admin.isSome)

/-- A pending entry may go in the next ordinary group: the TAKE entry that ends a take only once no COMMIT waits (R345), one with state 7 in a
group of its own (R347). -/
def LedgerSt.ready (x : LedgerSt) (y : LEntry) : Bool :=
  match y with
  | .take t => t.state != 7 && (t.state == 0 || !(x.pend.any fun z => z.kind == 8))
  | _ => true

/-- The ordinary group of a port: records, entries left, and the state with frame indexes given. -/
def State.nextGroup (s : State) (p : Nat) : List (Nat × List LEntry × List Byte) × List LEntry × State :=
  let x := s.port p
  let may := s.kindMay p
  let first := x.ledger.pend.filter fun y => y.kind == 1
  if !first.isEmpty then
    (((packRecords (first.take 1) [] []).map fun r => (1, r.1, r.2)), dropFirst (fun y => y.kind == 1) 1 x.ledger.pend, s)
  else
    let goes := fun (k : Nat) (y : LEntry) => y.kind == k && x.ledger.ready y
    let simple := ([2, 3, 4, 5, 9, 6, 7].filter may).filterMap fun k =>
      (packRecords (x.ledger.pend.filter (goes k)) [] []).head?.map fun r => (k, r.1, r.2)
    let left := simple.foldl (fun l r => dropFirst (goes r.1) r.2.1.length l) x.ledger.pend
    let n := 8 - simple.length
    let detour := x.ledger.pend.any fun y => y.kind == 4
    let own := if may 8 then x.ledger.pend.find? fun y => y.kind == 8 else none
    let commit := match own with
      | some y => some (y, s)
      | none => if may 8 && !detour then s.commitBody p n else none
    let left := dropFirst (fun y => y.kind == 8) (b2n own.isSome) left
    let cr := match commit with | some c => (bodyRecords [c.1] c.1.bytes).map fun r => (8, r.1, r.2) | none => []
    let side := if may 10 ∧ cr.length < n then (left.filter fun y => y.kind == 10).take 1 else []
    let sr := match side with | y :: _ => (bodyRecords [y] y.bytes).map fun r => (10, r.1, r.2) | [] => []
    let fits := simple.length + cr.length + sr.length ≤ 8
    (simple ++ cr ++ (if fits then sr else []), if fits then dropFirst (fun y => y.kind == 10) side.length left else left,
      match commit with | some c => c.2 | none => s)

/-- The entries of takes that ended because the ledger is full (R347). -/
def LedgerSt.fullEnds (x : LedgerSt) : List LEntry := x.pend.filter fun y => match y with | .take t => t.state == 7 | _ => false

/-- A snapshot under way is given up: another group goes first, and it is to be written anew (R346; log 120). -/
def State.dropSnap (s : State) (p : Nat) : State := s.updLedger p fun y => { y with snap := [], snapFirst := none }

/-- The next group of a port beside a snapshot (R338 to R340, R345 to R347, R354): the ending entry of a take that found the ledger full, in
a group of its own on the reserve; else the ordinary group within the pages outside the reserve, or the end of the port's takes with
LEDGER_FULL where there are none. -/
def State.ownGroup (s : State) (p : Nat) (r : Reel) : State :=
  let x := s.port p
  let full := x.ledger.fullEnds.take 1
  if !full.isEmpty && s.takesMay then
    (((s.dropSnap p).updLedger p fun y => { y with pend := y.pend.filter fun z => !full.contains z, reserved := true }).issueGroup p
      (numberRecords x.ledger.seq r.hdr.version r.hdr.id true ((packRecords full [] []).map fun q => (6, q.1, q.2))) true)
  else
    let g := s.nextGroup p
    if g.1.isEmpty then s
    else if !x.ledger.room (s.slcPages p) g.1.length false then (s.takesOn p).foldl (fun s e => s.endTake e St.LEDGER_FULL 7 keepNone) s
    else ((g.2.2.dropSnap p).updLedger p fun y => { y with pend := g.2.1 }).issueGroup p (numberRecords x.ledger.seq r.hdr.version r.hdr.id true g.1) false

/-- LEDGER_GROUP_ISSUE (R338 to R340, R345 to R347, R354): the next group of a snapshot under way, unless it must wait; else the next other group
of the port. -/
def execLedgerGroupIssue (p : Nat) (s : State) : Out :=
  let x := s.port p
  match x.reel with
  | none => .next s
  | some r =>
    if !s.ledgerLive p || x.ledger.group.isSome then .next s
    else match x.ledger.snap with
      | g :: gs =>
        if s.quiet p || !x.ledger.room (s.slcPages p) g.length false || !x.ledger.fullEnds.isEmpty then .next (s.ownGroup p r)
        else .next ((s.updLedger p fun y => { y with snap := gs }).issueGroup p
          (g.map fun q => { q with seq := x.ledger.seq + (q.seq - q.first), first := x.ledger.seq }) false)
      | [] => .next (s.ownGroup p r)

/-! ### Snapshots -/

/-- The entries that restate a reel (R346). -/
def Reel.restate (r : Reel) : List LEntry :=
  r.sets.map (fun b => .set b.id b.index b.state b.secs b.blocks b.counts) ++ r.stripes.map (fun x => .stripe x.serial x.set x.wl)
    ++ (r.detours.filter fun d => r.stripes.any fun x => x.serial == d.2 / (15 * (r.hdr.planes * r.hdr.shot))).map (fun d => .detour d.1 d.2) ++ r.retired.map .retire ++ r.takes.map .take
    ++ r.varnish.map (fun v => .varnish v.1 v.2.1 v.2.2.1 v.2.2.2.1 v.2.2.2.2)
    ++ r.frames.map (fun f => .commit r.scan [f] ((r.segs.filter fun x => x.1 == f.take && x.2.1 == f.serial).map fun x => x.2.2))
    ++ r.sidecars.map (fun x => .sidecar x.1 x.2)

/-- Records in groups of at most 8, a continued body within one group. -/
def packGroups : List (List (List LEntry × List Byte)) → List (List LEntry × List Byte) → List (List (List LEntry × List Byte))
  | [], g => if g.isEmpty then [] else [g]
  | b :: bs, g => if g.length + b.length ≤ 8 then packGroups bs (g ++ b) else g :: packGroups bs b

/-- Each kind of entry packed by itself, a body of several records kept together. -/
def snapBodies (l : List LEntry) : List (List (List LEntry × List Byte)) :=
  [2, 3, 4, 5, 6, 7].flatMap (fun k => (packRecords (l.filter fun y => y.kind == k) [] []).map fun r => [r])
    ++ (l.filter fun y => y.kind == 8 || y.kind == 10).map fun y => bodyRecords [y] y.bytes

/-- LEDGER_SNAPSHOT (R346): fewer than a quarter of a version 3 reel's ledger blocks are free and no take is open. -/
def execLedgerSnapshot (p : Nat) (s : State) : Out :=
  let x := s.port p
  match x.reel with
  | none => .next s
  | some r =>
    let total := sumOver (r.ledger.map List.length) fun n => n
    let free := sumOver (x.ledger.free.map List.length) fun n => n
    if s.mounted p && r.hdr.version == 3 && !r.readOnly && !s.portTakeOpen p && decide (free * 4 < total) && x.ledger.snap.isEmpty
        && x.ledger.snapFirst.isNone && x.ledger.group.isNone && !s.quiet p then
      let gs := packGroups (snapBodies r.restate) []
      let made := (withIndex gs).map fun g =>
        numberRecords 0 3 r.hdr.id (g.1 + 1 == gs.length) (g.2.map fun q => (11, q.1, q.2))
      .next (s.updLedger p fun y => { y with snap := made, snapFirst := some y.seq })
    else .next s

/-- The snapshot is whole: ledger blocks that hold only older records are erased (R346), retired ones apart (R316). -/
def State.snapDone (s : State) (p : Nat) : State :=
  let x := s.port p
  match x.reel, x.mag, x.ledger.snapFirst with
  | some r, some m, some first =>
    let old := fun ch b =>
      let pages := m.slc.filterMap fun y => if y.1 = ch ∧ y.2.1 = b then some y.2.2.2 else none
      !pages.isEmpty && pages.all fun g => match g with | .ledger _ q => decide (q.seq < first) | _ => true
    let cur := fun ch b => match x.ledger.cur.getD ch none with | some c => c.1 == b | none => false
    let ops := (withIndex r.ledger).flatMap fun c => (c.2.filter fun b => old c.1 b && !cur c.1 b && !r.retiredAt c.1 b).map fun b =>
      { die := c.1, block := b, cls := 0, kind := .erase false, running := false }
    (s.updLedger p fun y => { y with snapFirst := none, reserved := false }).addOps p ops
  | _, _, _ => s

/-! ### What a passed entry brings about -/

/-- The easel whose open take has a number on a port. -/
def State.takeByNumber (s : State) (p n : Nat) : Option Nat :=
  (s.takesOn p).find? fun e => s.rd F.TAKE_NUMBER_value e == n

/-- A port's part of a WRITE_SIDECAR ends; the command completes with the last (R425). -/
def State.sidePart (s : State) (id p status number : Nat) : State :=
  let up := fun w : Nat × List Nat × Nat × List Nat =>
    if w.1 = id then (w.1, w.2.1.filter (fun q => q ≠ p), (if w.2.2.1 = 0 then status else w.2.2.1), w.2.2.2.set p number) else w
  let t := s.updStor fun x => { x with sideCmds := x.sideCmds.map up }
  match t.stor.sideCmds.find? (fun w => w.1 == id) with
  | some w =>
    if w.2.1.isEmpty then
      let c := s.cmd id
      let only := c.elim 0 fun c => c.b 16
      let n0 := if only = 1 then w.2.2.2.getD 1 0 else w.2.2.2.getD 0 0
      let n1 := if only = 2 then w.2.2.2.getD 1 0 else 0
      (t.complete id w.2.2.1 n0 n1).updStor fun x => { x with sideCmds := x.sideCmds.filter fun y => y.1 ≠ id }
    else t
  | none => t

/-- TAKE_CLOSE acts on a take in RECORDING (R419, R420). -/
def State.startClose (s : State) (e : Nat) : State := (s.wr F.TAKE_STATUS_state 3 e).takeCheck e

/-- The opening TAKE entry passed on a port (R417). -/
def State.openPassed (s : State) (p e : Nat) : State :=
  let t := s.updTake e fun x => { x with wait := x.wait.filter fun q => q ≠ p }
  if (t.take e).wait.isEmpty ∧ s.rd F.TAKE_STATUS_state e = 1 then
    let t1 := match (t.take e).openCmd with
      | some id => t.complete id St.OK (s.rd F.TAKE_NUMBER_value e)
      | none => t
    let t2 := (t1.wr F.TAKE_STATUS_state 2 e).updTake e fun x => { x with openCmd := none }
    if (t2.take e).closeCmds.isEmpty then t2 else t2.startClose e
  else t

/-- The ending TAKE entry of a closed take passed on a port (R419). -/
def State.endPassed (s : State) (p e : Nat) : State :=
  let t := s.updTake e fun x => { x with wait := x.wait.filter fun q => q ≠ p }
  if (t.take e).wait.isEmpty ∧ s.rd F.TAKE_STATUS_state e = 3 then (t.closeTake e St.OK).calTakesClosed else t

/-- The hooks of one passed entry. -/
def State.entryPassed (s : State) (p : Nat) (x : LEntry) : State :=
  match x with
  | .format _ _ => s
  | .set _ index st _ blocks _ =>
    let gone := fun die b => match (s.port p).reel with | some r => r.retiredAt die b | none => false
    if st = 3 then s.addOps p (((withIndex blocks).filter fun b => !gone (b.1 + 16 * index) b.2).map fun b =>
      { die := b.1 + 16 * index, block := b.2, cls := 3, kind := .erase false, running := false }) else s
  | .stripe serial _ _ => s.updPort p fun y => { y with begun := y.begun ++ [serial] }
  | .detour _ _ => s
  | .retire _ => s
  | .take t => match s.takeByNumber p t.take with
    | some e => if t.state = 0 then s.openPassed p e else if (s.take e).ended then s.endPassed p e else s
    | none => s
  | .varnish _ _ _ _ _ => s.exposure p
  | .commit _ frames segs =>
    let t := s.updPort p fun y => { y with
      done := y.done.filter (fun d => !(segs.any fun g => g.serial == d.2.2.serial)),
      loose := y.loose.filter (fun d => !(segs.any fun g => g.serial == d.1)) }
    (frames.foldl (fun s f => match s.takeByNumber p f.take with
      | some e => s.frameCommitted p e f.serial
      | none => s) t).exposure p
  | .reloc seg start =>
    let used := match (s.port p).reel with | some r => r.refs.contains seg | none => false
    s.updPort p fun y => { y with loose := y.loose.filter (fun d => d.1 ≠ seg) ++ if used || !(y.loose.any fun d => d.1 == seg && d.2 != start) then [] else [(seg, start)] }
  | .sidecar e segs =>
    let t := s.updPort p fun y => { y with
      loose := y.loose.filter (fun d => !(segs.any fun g => g.serial == d.1)), sides := y.sides.filter (fun w => w.2.1.number ≠ e.number) }
    match (s.port p).sides.find? (fun w => w.2.1.number == e.number) with
    | some w => (t.passPoint w.1).sidePart w.1 p St.OK e.number
    | none => t

/-- The group in hand has passed (R340): its entries are in the tables, and the next group may go. -/
def State.groupPassed (s : State) (p : Nat) : State :=
  match (s.port p).ledger.group with
  | none => s
  | some g =>
    let es := g.records.flatMap LRecord.entries
    let snap := g.records.any fun r => r.kind == 11
    let t := s.updLedger p fun y => { y with group := none, seq := y.seq + g.records.length }
    let t1 := if snap then t else es.foldl (fun s x => (s.updReel p fun r => r.apply x).entryPassed p x) t
    let t2 := if snap && g.records.any LRecord.last then t1.snapDone p else t1
    ((t2.ledgerStatus p).flushCheck)

end Sys2Proof.Machine
end

