-- ==== Sys2Proof/Machine/Segs.lean ====
section
/-! DEFINITION. Segments, stripes, die operations, relocation and the elastic buffer (spec/09, spec/10). -/
namespace Sys2Proof.Machine

/-! ### Blocks -/

/-- A block that holds nothing and whose erase ended. -/
def blockErased (m : Magazine) (die block : Nat) : Bool :=
  !(m.units.any fun u => u.1.die == die && u.1.block == block) && !m.torn.contains (die, block)

/-- The free good blocks of a die. -/
def freeBlocks (m : Magazine) (r : Reel) (die : Nat) : List Nat :=
  (List.range m.ident.blocks).filter fun b => !r.kept die b && !r.retiredAt die b && !r.inSet die b

/-- The block a die gives to a new set (R315): erased, of the lowest erase count, then the lowest number. -/
def pickBlock (m : Magazine) (r : Reel) (ops : List DieOp) (die : Nat) : Option Nat :=
  let l := (freeBlocks m r die).filter fun b => blockErased m die b && !(ops.any fun o => o.die == die && o.block == b)
  match l.map (fun b => r.count die b * 65536 + b) with
  | [] => none
  | a :: as => some (listMin (a :: as) % 65536)

/-- A block set that takes stripes. -/
def BlockSet.openOn (b : BlockSet) (m : Magazine) : Bool := b.state == 1 && !b.stop && decide (b.nextWl < m.ident.wl)

/-- The blocks of a new set at an index, by channel, or none where a die has no block left. -/
def formBlocks (m : Magazine) (r : Reel) (ops : List DieOp) (index : Nat) : Option (List Nat) :=
  (List.range 16).foldr (fun c acc => match acc, pickBlock m r ops (c + 16 * index) with
    | some l, some b => some (b :: l)
    | _, _ => none) (some [])

/-- MAG_WEAR_STATUS and MAG_SPARE follow the block table; a die short of free good blocks is reported once a mount (R321). -/
def State.wearStatus (s : State) (p : Nat) : State :=
  match (s.port p).mag, (s.port p).reel with
  | some m, some r =>
    let counts := m.ident.dies.flatMap fun d => (List.range m.ident.blocks).filterMap fun b => if r.kept d b then none else some (r.count d b)
    let spare := listMin (m.ident.dies.map fun d => (freeBlocks m r d).length)
    let t := (((s.wr F.MAG_WEAR_STATUS_high (listMax counts) p).wr F.MAG_WEAR_STATUS_low (listMin counts) p).wr F.MAG_SPARE_high
      r.retired.length p).wr F.MAG_SPARE_low spare p
    if spare < s.rd F.MAG_WEAR_CFG_spare_warn p ∧ (s.port p).spareTold = false then
      ((t.updPort p fun x => { x with spareTold := true }).wr F.MAG_FLAGS_spare_low 1 p).raise p Ev.MAG_SPARE_LOW []
    else t
  | _, _ => s

/-- A block retired in service (R316, R317). -/
def State.retireBlock (s : State) (p die block cause : Nat) : State :=
  let x : Retired := { ch := die % 16, index := die / 16, block := block, cause := cause }
  match (s.port p).reel with
  | none => s
  | some _ => (((s.updReel p fun r => r.apply (.retire x)).ledgerPut p [.retire x]).bump F.MAG_CNT2_retired p).wearStatus p

/-! ### Stripes and units -/

/-- A block set formed at an index that has no open one and can form one (R297, R315). -/
def State.formSet (s : State) (p i : Nat) : State :=
  let x := s.port p
  match x.mag, x.reel with
  | some m, some r =>
    if r.sets.any fun b => b.index == i && b.openOn m then s
    else match formBlocks m r x.allOps i with
      | none => s
      | some bl =>
        let counts := (withIndex bl).map fun c => r.count (c.1 + 16 * i) c.2
        let b : BlockSet := { id := x.nextSet, index := i, state := 1, blocks := bl, counts := counts, nextWl := 0, secs := s.nowSecs, stop := false }
        ((((s.updPort p fun y => { y with nextSet := y.nextSet + 1 }).updReel p fun r => { r with sets := r.sets ++ [b] }).ledgerPut p
          [.set b.id i 1 b.secs bl counts]).tick).wearStatus p
  | _, _ => s

/-- One open block set for each CE and LUN index that can form one (R297). -/
def State.formSets (s : State) (p : Nat) : State :=
  match (s.port p).mag with
  | some m => s.each m.ident.indexes fun s i => s.formSet p i
  | none => s

/-- The block set of the next stripe (R297): of the next index, in ascending cyclic order, that has an open set. -/
def State.stripeSet (s : State) (p : Nat) : Option BlockSet :=
  let x := s.port p
  match x.mag, x.reel with
  | some m, some r =>
    let ix := m.ident.indexes
    let order := ix.filter (fun i => decide (x.lastIndex < i)) ++ ix.filter fun i => decide (i ≤ x.lastIndex)
    order.findSome? fun i => r.sets.find? fun b => b.index == i && b.openOn m
  | _, _ => none

/-- A set takes no further stripe (R317, R342). -/
def State.closeSet (s : State) (p id : Nat) : State :=
  match (s.port p).reel with
  | none => s
  | some r => match r.sets.find? (fun b => b.id == id) with
    | some b => if b.state ≠ 1 then s
        else (s.updReel p fun r => { r with sets := r.sets.map fun x => if x.id = id then { x with state := 2 } else x }).ledgerPut p
          [.set b.id b.index 2 b.secs b.blocks b.counts]
    | none => s

/-- Pages of relocated segments, with or without pad pages: class 4. Recorded data, pad units and parity are class 1 (R308). -/
def PortSt.relocUnit (x : PortSt) (pages : List PageRef) : Bool :=
  let moved := fun g : PageRef => match g with | .seg n _ => x.tasks.any fun t => t.reloc && t.seg.serial == n | _ => false
  pages.any moved && pages.all fun g => moved g || g == .pad

/-- A unit added to a stripe. -/
def State.addUnit (s : State) (p serial slot : Nat) (pages : List PageRef) (stage : UnitStage) : State :=
  match (s.port p).reel with
  | none => s
  | some r => match r.stripes.find? (fun x => x.serial == serial) with
    | none => s
    | some st => match r.sets.find? (fun b => b.id == st.set) with
      | none => s
      | some b =>
        let ch := if slot = 15 then st.wl % 16 else slotChannel st.wl slot
        let place : PuPlace := { die := ch + 16 * b.index, block := b.blocks.getD ch 0, wl := st.wl }
        let t := s.updPort p fun x => { x with units := x.units ++ [{ stripe := serial, slot := slot, place := place, pages := pages, stage := stage }] }
        if stage = .queued then
          t.addOps p [{ die := place.die, block := place.block, cls := if (s.port p).relocUnit pages then 4 else 1, kind := .unit serial slot,
                        running := false }]
        else t

/-- A new stripe (R297, R333): its SET and STRIPE entries go to the ledger, and data moved from a failed unit is its first. -/
def State.newStripe (s : State) (p : Nat) : Option State :=
  let t := s.formSets p
  match t.stripeSet p with
  | none => none
  | some b =>
    let serial := (t.port p).nextStripe
    let wls := match (t.port p).mag with | some m => m.ident.wl | none => 0
    let t1 := (t.updPort p fun x => { x with nextStripe := serial + 1, lastIndex := b.index }).updReel p fun r =>
      r.apply (.stripe serial b.id b.nextWl)
    let t2 := t1.ledgerPut p [.stripe serial b.id b.nextWl]
    let t3 := if wls ≤ b.nextWl + 1 then t2.closeSet p b.id else t2
    match (t3.port p).moves with
    | [] => some (t3.addUnit p serial 0 [] .filling)
    | mv :: rest =>
      let d : LEntry := .detour mv.1 (serial * 15 * s.unitPages p)
      some ((((t3.updPort p fun x => { x with moves := rest }).updReel p fun r => r.apply d).ledgerPut p [d]).addUnit p serial 0 mv.2 .queued)

/-- The unit pages go to next, made when there is none. -/
def State.openUnit (s : State) (p : Nat) : Option State :=
  let x := s.port p
  if x.units.any fun u => u.stage == .filling then some s
  else
    let last := x.nextStripe - 1
    let n := (x.units.filter fun u => u.stripe == last && decide (u.slot < 15)).length
    if 0 < n ∧ n < 15 ∧ 0 < x.nextStripe then some (s.addUnit p last n [] .filling)
    else match s.newStripe p with
      | none => none
      | some t => if (t.port p).units.any fun u => u.stage == .filling then some t
          else some (t.addUnit p ((t.port p).nextStripe - 1) 1 [] .filling)

/-- A filled unit becomes an operation of its die: class 1, or class 4 when it holds relocated data only. -/
def State.queueUnit (s : State) (p : Nat) (u : ProgUnit) : State :=
  let up := fun y : ProgUnit => if y.stripe = u.stripe ∧ y.slot = u.slot then { y with stage := .queued } else y
  (s.updPort p fun x => { x with units := x.units.map up }).addOps p
    [{ die := u.place.die, block := u.place.block, cls := if (s.port p).relocUnit u.pages then 4 else 1, kind := .unit u.stripe u.slot, running := false }]

/-- Pages put in the open unit, units made as they are needed. -/
def State.putPages (s : State) (p : Nat) : List PageRef → Option State
  | [] => some s
  | g :: gs =>
    match s.openUnit p with
    | none => none
    | some t =>
      let add := fun y : ProgUnit => if y.stage = .filling then { y with pages := y.pages ++ [g] } else y
      let t1 := t.updPort p fun x => { x with units := x.units.map add }
      match (t1.port p).units.find? (fun u => u.stage == .filling) with
      | some u => (if s.unitPages p ≤ u.pages.length then t1.queueUnit p u else t1).putPages p gs
      | none => t1.putPages p gs

/-- Pad pages up to the end of the open unit (R299). -/
def State.padUnit (s : State) (p : Nat) : State :=
  match (s.port p).units.find? (fun u => u.stage == .filling) with
  | some u => (s.putPages p (List.replicate (s.unitPages p - u.pages.length) .pad)).getD s
  | none => s

/-- The open stripe of a port filled with pad units (R298). -/
def State.fillStripe (s : State) (p : Nat) : Nat → State
  | 0 => s
  | n + 1 =>
    let t := s.padUnit p
    let x := t.port p
    let last := x.nextStripe - 1
    let c := (x.units.filter fun u => u.stripe == last && decide (u.slot < 15)).length
    if 0 < c ∧ c < 15 then (t.addUnit p last c (List.replicate (s.unitPages p) .pad) .queued).fillStripe p n else t

/-- Data pages left in the stripe that pages go to next. -/
def State.stripeRoom (s : State) (p : Nat) : Nat := (s.stripePages p - s.nextLpn p % s.stripePages p) % s.stripePages p

/-- While data of a failed unit waits for the next stripe, a segment that would run over into it begins there instead, after the moved
data, so that its 64 pages stay consecutive (R302, R317, R332, R333; DEDUCED, log 117). -/
def State.moveFirst (s : State) (p : Nat) : Nat → Option State
  | 0 => some s
  | n + 1 =>
    if (s.port p).moves.isEmpty || decide (64 ≤ s.stripeRoom p) then some s
    else match (s.fillStripe p 16).newStripe p with
      | none => none
      | some t => t.moveFirst p n

/-- A tile handed to a port: record, payload as stored, and whether it fails its check (R304, R365). -/
def segTile (rec payload : List Byte) (whole : Bool) : (List Byte × List Byte) × Bool :=
  if !recPresent rec then ((rec, []), false)
  else if recPacked rec then
    let d := unpackTile payload (recLen rec)
    if recDamaged rec then ((rec, payload), false)
    else
      let ok := whole && d.2.isNone && crc32c d.1 == recCrc rec
      ((setRecord rec (checkedFlags (recFlags rec) ok) (recLen rec), payload), !ok)
  else let c := checkTile rec payload whole; ((c.1, payload), c.2)

/-- Bad tiles of a port's checkers counted and reported (R304). -/
def State.tileCrc (s : State) (p n : Nat) : State :=
  (List.replicate n ()).foldl (fun s _ => (s.flagCount F.MAG_FLAGS_tile_crc F.MAG_CNT2_tile_crc p).raise p Ev.MAG_TILE_CRC []) s

/-- Where a segment of a take stands in HBM: for each tile the bytes of its record and of its payload as address and length, a length of 0
for none. -/
def State.srcPlaces (s : State) (x : SegTask) : List ((Nat × Nat) × (Nat × Nat)) :=
  let g := x.seg
  match x.src with
  | .canvas => match s.slotOf g.easel g.frame with
    | some k => g.tiles.map fun t =>
        let i := recIndex t.1
        if recPresent t.1 then (((s.canvas g.easel).recAddr k i, 16), ((s.canvas g.easel).tileAddr k i, 4096)) else ((0, 0), (0, 0))
    | none => g.tiles.map fun _ => ((0, 0), (0, 0))
  | .ring seqs => seqs.map fun n =>
      match (s.packLane g.half (n % 48)).ring.find? fun y => y.seq == n with
      | some y => ((0, 0), (s.laneBase g.half (n % 48) + y.off, min y.size (s.laneSize g.half - y.off)))
      | none => ((0, 0), (0, 0))
  | .elastic a => (g.tiles.foldl (fun (l : List ((Nat × Nat) × (Nat × Nat)) × Nat) t =>
      (l.1 ++ [(if g.version = 3 then (a + 64 + 16 * l.1.length, 16) else (0, 0), (a + l.2, t.2.length))], l.2 + t.2.length)) ([], g.bodyAt)).1
  | .inner => g.tiles.map fun _ => ((0, 0), (0, 0))

/-- A read of a segment's source has to wait (R269, R270). -/
def State.srcWaits (s : State) (x : SegTask) : Bool :=
  (s.srcPlaces x).any fun y => s.hbmWaits y.1.1 y.1.2 || s.hbmWaits y.2.1 y.2.2

/-- A segment's tiles as its source gives them now: record, payload, and whether both reads came back whole (R271, R272). -/
def State.srcTiles (s : State) (x : SegTask) : List ((List Byte × List Byte) × Bool) :=
  (x.seg.tiles.zip (s.srcPlaces x)).map fun y =>
    let t := y.1
    match x.src with
    | .canvas => match s.slotOf x.seg.easel x.seg.frame with
      | some k => if recPresent t.1 then
          let c := s.canvasTile x.seg.easel k (recIndex t.1)
          ((c.1, c.2.1), c.2.2)
        else (t, true)
      | none => (t, true)
    | .inner => (t, true)
    | .ring _ =>
      let ok := s.readable y.2.2.1 y.2.2.2
      ((t.1, if ok then t.2 else s.badBytes t.2.length), ok)
    | .elastic _ =>
      let ok := s.readable y.2.1.1 y.2.1.2 && s.readable y.2.2.1 y.2.2.2
      ((t.1, if ok then s.load y.2.2.1 y.2.2.2 else s.badBytes t.2.length), ok)

/-- The reads of a segment's source (R264). -/
def State.srcRead (s : State) (x : SegTask) : State :=
  (s.srcPlaces x).foldl (fun s y =>
    (s.whenB (y.1.2 != 0) fun s => s.hbmRead y.1.1 y.1.2).whenB (y.2.2 != 0) fun s => s.hbmRead y.2.1 y.2.2) s

/-- The tiles of a segment go on with what a reader found (R29 to R31): they are counted, and a frame with a tile that fails carries its bit. -/
def State.tilesPass (s : State) (p : Nat) (g : Segment) (l : List ((List Byte × List Byte) × Bool)) : State × Segment :=
  let s1 := (s.each l fun s t => s.tileSeen .magazine g.half [] t.1.1 t.2).whenB (l.any Prod.snd) fun s => s.tileHurt g.easel g.frame
  (s1.tileCrc p (l.filter Prod.snd).length, { g with tiles := l.map Prod.fst })

/-- A segment of a take leaves its source for the dies of a port: every tile is read and checked (R29, R304). -/
def State.segLeaves (s : State) (p : Nat) (x : SegTask) : State × Segment :=
  if x.reloc || x.seg.sidecar then (s, x.seg)
  else ((s.srcRead x).tilesPass p x.seg ((s.srcTiles x).map fun y => if recPresent y.1.1 then segTile y.1.1 y.1.2 y.2 else (y.1, false)))

/-- The next unplaced segment given its serial and its 64 pages (R302, R305, R332), its tiles checked as they leave (R304). -/
def State.placeSeg (s : State) (p : Nat) (k : Nat) (x : SegTask) : Option State :=
  match (s.moveFirst p ((s.port p).moves.length + 1)).bind fun s => s.openUnit p with
  | none => none
  | some t0 =>
    let t := (t0.segLeaves p x).1
    let serial := if x.reloc then x.seg.serial else (t.port p).nextSeg
    let start := t.nextLpn p
    let g := { (t0.segLeaves p x).2 with serial := serial }
    let t1 := t.updPort p fun y => { y with
      nextSeg := if x.reloc then y.nextSeg else y.nextSeg + 1, loose := y.loose ++ [(serial, start)],
      tasks := y.tasks.set k { x with seg := g, start := some start, put := 64 } }
    let t2 := t1.updMag p fun m => { m with segs := if x.reloc then m.segs.map fun y => if y.serial = serial then g else y else m.segs ++ [g] }
    t2.putPages p ((List.range 64).map fun n => .seg serial n)

/-- No block set can be formed (R314): the takes of the port end at their last frame wholly programmed, and sidecars stop. -/
def State.mediaFull (s : State) (p : Nat) : State :=
  let keep := fun e (f : TakeFrame) => f.closed.length == 2 && (s.take e).ports.all fun q => (s.port q).frameIn e f.serial
  let es := s.takesOn p
  let t := if es.isEmpty then s else (s.wr F.MAG_FLAGS_elastic_full 1 p).raise p Ev.MAG_MEDIA_FULL []
  let t1 := es.foldl (fun s e =>
    let lead := ((s.take e).frames.takeWhile (keep e)).map TakeFrame.serial
    s.endTake e St.MEDIA_FULL 3 fun f => lead.contains f.serial) t
  let ids := ((t1.port p).tasks.filter fun x => x.start.isNone).filterMap SegTask.cmd
  let t2 := t1.updPort p fun x => { x with tasks := x.tasks.filter fun y => !(y.start.isNone && (y.cmd.isSome || y.reloc)),
                                           sides := x.sides.filter fun w => !ids.contains w.1 }
  ids.eraseDups.foldl (fun s id => s.sidePart id p St.MEDIA_FULL 0) t2

/-- No program of the port waits for room (R307): its placement may go on. -/
def PortSt.opRoom (x : PortSt) : Bool := !(x.held.any fun o => o.cls == 1)

/-- Segments placed in order while there is room (R297, R305, R307), each once its source can be read. -/
def State.feed (s : State) (p : Nat) : Nat → State
  | 0 => s
  | n + 1 =>
    let x := s.port p
    if !x.opRoom then s
    else match (withIndex x.tasks).find? (fun t => t.2.start.isNone && !(t.2.reloc && s.portTakeOpen p)) with
      | none => s
      | some (k, t) =>
        if s.srcWaits t then s
        else match s.placeSeg p k t with
          | some s1 => s1.feed p n
          | none => s.mediaFull p

/-- Data of a failed unit waits for the port's next stripe, and no take of the port can bring more that would begin it (R298, R317; log 117). -/
def State.movesWait (s : State) (p : Nat) : Bool :=
  !(s.port p).moves.isEmpty && (s.takesOn p).all fun e =>
    s.rd F.TAKE_STATUS_state e == 3 && (s.take e).frames.all fun f => f.closed.length == 2

/-- The open stripe filled with pad units, and with it a stripe for each unit still to be moved (R298, R317). -/
def State.padStripe (s : State) (p : Nat) : Nat → State
  | 0 => s
  | n + 1 =>
    let t := s.fillStripe p 16
    if (t.port p).moves.isEmpty then t.updPort p fun x => { x with pad := false }
    else match t.newStripe p with
      | some t1 => t1.padStripe p n
      | none => t

/-! ### Relocation -/

/-- Segments that count as valid (R320, R362): referenced, in hand, or awaiting the partner reel. -/
def PortSt.valid (x : PortSt) (pairPending : Bool) : List (Nat × Nat) :=
  match x.reel with
  | none => []
  | some r =>
    let refs := r.segs.map (fun y => (y.2.2.serial, y.2.2.start)) ++ (r.sidecars.flatMap Prod.snd).map fun y => (y.serial, y.start)
    let hand := fun n => x.tasks.any (fun t => t.seg.serial == n && !t.dead) || x.done.any (fun d => d.2.2.serial == n)
      || x.sideDone.any fun d => d.2.serial == n
    refs ++ x.loose.filter fun y => hand y.1 || (pairPending && decide (r.scan ≤ y.2))

/-- The segments of a list with a page in a block set. -/
def Reel.inBlockSet (r : Reel) (unitPages : Nat) (b : BlockSet) (l : List (Nat × Nat)) : List (Nat × Nat) :=
  l.filter fun y => (List.range 64).any fun k => match r.locate unitPages (y.2 + k) with
    | some z => z.1.die / 16 == b.index && b.blocks.getD (z.1.die % 16) 0 == z.1.block
    | none => false

/-- The sidecar segments that reads in hand were decoded for (R426, R427). -/
def State.reading (s : State) (p : Nat) : List (Nat × Nat) :=
  s.host.cmds.flatMap fun c => match c.seen with
    | .file (some x) => if c.b 16 = p ∧ c.stage ≠ .ended then x.2.map fun y => (y.serial, y.start) else []
    | _ => []

/-- Closed block sets of a mounted reel that may be written, without a valid segment, are freed (R320, R359), once nothing is read from them; the erase counts of their entry are those after the erase to come (R342). -/
def State.reclaim (s : State) (p : Nat) : State :=
  let x := s.port p
  match x.reel with
  | none => s
  | some r =>
    let pair := s.on F.REEL_STATUS_pair_pending p
    let u := s.unitPages p
    let busy := fun b : BlockSet => x.allOps.any fun o => o.die / 16 == b.index && b.blocks.getD (o.die % 16) 0 == o.block
    let live := !r.readOnly && (s.mounted p || x.mount.any fun w => w.phase == 4)
    let free := r.sets.filter fun b => live && b.state == 2 && !busy b && !(x.units.any fun y => y.place.die / 16 == b.index && b.blocks.getD (y.place.die % 16) 0 == y.place.block)
      && (r.inBlockSet u b (x.valid pair ++ s.reading p)).isEmpty
    let t := free.foldl (fun s b =>
      (s.updReel p fun r => { r with sets := r.sets.map fun y => if y.id = b.id then { y with state := 3 } else y }).ledgerPut p
        [.set b.id b.index 3 b.secs b.blocks (b.counts.map (· + 1))]) s
    let was := !(t.port p).reloc.isEmpty
    let gone := free.flatMap fun b => (r.inBlockSet u b x.loose).map Prod.fst
    let t1 := t.updPort p fun y => { y with
      reloc := y.reloc.filter (fun i => !(free.any fun b => b.id == i)), loose := y.loose.filter fun d => !gone.contains d.1 }
    let t2 := t1.wr F.MAG_SCRUB_STATUS_pending (t1.port p).reloc.length p
    if was && (t1.port p).reloc.isEmpty then (t2.wr F.MAG_FLAGS_scrub_done 1 p).raise p Ev.MAG_SCRUB_DONE []
    else t2

/-- Wear levelling (R315): the set that holds the block of the lowest count is relocated when the spread passes delta. -/
def State.wearLevel (s : State) (p : Nat) : State :=
  let x := s.port p
  if s.rd F.MAG_WEAR_STATUS_high p ≤ s.rd F.MAG_WEAR_STATUS_low p + s.rd F.MAG_WEAR_CFG_delta p ∨ x.reloc ≠ [] then s
  else match x.reel with
    | some r => match r.sets.find? (fun b => b.state != 3 && listMin b.counts == s.rd F.MAG_WEAR_STATUS_low p) with
      | some b => s.markSet p b.id
      | none => s
    | none => s

/-- Class 4 work begins for the next queued set while no take is open on the port (R308, R319): its valid segments are read. -/
def State.relocate (s : State) (p : Nat) : State :=
  let s := if s.portTakeOpen p then s else s.wearLevel p
  let x := s.port p
  match x.reel, x.mag, x.reloc with
  | some r, some m, id :: _ =>
    if s.portTakeOpen p || r.readOnly || !x.moving.isEmpty || x.tasks.any SegTask.reloc || x.unmount.isSome then s
    else match r.sets.find? (fun b => b.id == id) with
      | none => s.updPort p fun y => { y with reloc := y.reloc.tail }
      | some b =>
        let t := s.closeSet p id
        let segs := r.inBlockSet m.ident.unitPages b (x.valid (s.on F.REEL_STATUS_pair_pending p))
        let free := segs.filter fun y => !(x.tasks.any fun t => t.seg.serial == y.1)
        let ops := free.flatMap fun y => (List.range 64).filterMap fun k => (r.locate m.ident.unitPages (y.2 + k)).map fun z =>
          { die := z.1.die, block := z.1.block, cls := 4, kind := OpKind.read z.1.wl z.2 y.1, running := false }
        (t.updPort p fun y => { y with moving := free.map fun z => (z.1, 64, []) }).addOps p ops
  | _, _, _ => s

/-! ### DIE_OP_ISSUE -/

/-- The four codewords of a data or pad page (R294, R299). -/
def State.pageBytes (s : State) (p : Nat) (g : PageRef) : List Byte :=
  pageCode (match g with
    | .seg n k => match s.segment p n with
      | some x => bytesAt (x.bytes (match (s.port p).reel with | some r => r.key | none => [])) (16384 * k) 16384
      | none => []
    | _ => List.replicate 16384 0)

/-- The spare bytes of a port's pages (R294). -/
def State.spare (s : State) (p : Nat) : List Byte := match (s.port p).mag with | some m => m.ident.spare | none => []

/-- The pages of a unit as programmed, each with its spare bytes: a data unit's own, or for the parity the XOR of the codewords of the
stripe's data units that passed, LDPC parity included (R294, R296, R317). -/
def State.unitBytes (s : State) (p : Nat) (u : ProgUnit) : List Byte :=
  if u.slot < 15 then u.pages.flatMap fun g => s.pageBytes p g ++ s.spare p
  else
    let us := (s.port p).units.filter fun y => y.stripe == u.stripe && decide (y.slot < 15) && y.stage == .passed
    let code := fun k => us.foldl (fun a y => xorBytes a (s.pageBytes p (y.pages.getD k .pad))) (List.replicate 18432 0)
    (List.range (s.unitPages p)).flatMap fun k => code k ++ s.spare p

/-- The data of an operation; an SLC page carries codeword 0 alone (R334, R338, R370). -/
def State.opBytes (s : State) (p : Nat) (o : DieOp) : List Byte :=
  match o.kind with
  | .unit st sl => match (s.port p).units.find? (fun u => u.stripe == st && u.slot == sl) with
    | some u => s.unitBytes p u
    | none => []
  | .ledger rec copy _ => match (s.port p).ledger.group with
    | some g => (g.records[rec]?).elim [] fun r => codeword (r.bytes copy)
    | none => []
  | .slc _ c => codeword c.bytes
  | _ => []

/-- The page or word line an operation names. -/
def OpKind.page : OpKind → Nat
  | .ledger _ _ n => n
  | .slc n _ => n
  | .read wl _ _ => wl
  | .fetch wl _ _ => wl
  | _ => 0

/-- An operation a port may issue to its die now: a unit of a stripe only once its STRIPE entry has passed (R345). -/
def State.issuable (s : State) (p : Nat) (o : DieOp) : Bool :=
  !o.running && s.mayIssue p o && match o.kind with
    | .unit st _ => (s.port p).begun.contains st
    | _ => true

/-- SET FEATURES puts the die's target in the mode of a program: SLC for control and ledger blocks, one-shot for units (R288, R330). -/
def State.programMode (s : State) (p : Nat) (o : DieOp) : State :=
  let mode := fun v => s.emit (.nand p (.slcMode v) [o.die % 16 + 16 * (o.die / 32)])
  match o.kind with
  | .ledger _ _ _ => mode true
  | .slc _ _ => mode true
  | .unit _ _ => mode false
  | _ => s

/-- What a port does before a die takes its next operation (R297, R299, R307, R315): operations that wait for a place are held on their dies,
on a mounted reel block sets are formed and segments placed, and an end of segment that waits is padded when no segment is ready. -/
def State.dieReady (s : State) (p die : Nat) : State :=
  let ro := match (s.port p).reel with | some r => r.readOnly | none => true
  let s0 := s.refill p
  let s1 := if s.portState p = 4 ∧ ro = false then
      let f := (s0.formSets p).relocate p
      f.feed p (f.port p).tasks.length
    else s0
  let idle := !((s1.port p).tasks.any fun t => t.start.isNone && !(t.reloc && s1.portTakeOpen p))
  if idle && ((s1.port p).pad || (s.portState p == 4 && s1.movesWait p)) then s1.padStripe p 64
  else if idle && (s1.port p).units.any (fun u => u.stage == .filling && u.place.die == die && !u.pages.isEmpty && (s1.port p).begun.contains u.stripe)
    && !((s1.port p).ops.any fun o => o.die == die && s1.issuable p o) then s1.padUnit p
  else s1

/-- A die that may take an operation: its magazine works, no warning stands, and nothing runs on it. -/
def State.dieFree (s : State) (p die : Nat) : Bool :=
  (s.port p).mag.isSome && !(s.port p).pfw && s.takesWork (0x48 + p) && (s.portState p == 3 || s.portState p == 4 || s.portState p == 5)
    && !((s.port p).ops.any fun o => o.die == die && o.running)

/-- The operation a die runs next, with its place in the queue (R308): of the highest class waiting, the oldest. -/
def State.dieNext (s : State) (p die : Nat) : Option (Nat × DieOp) :=
  let l := (withIndex (s.port p).ops).filter fun o => o.2.die == die && s.issuable p o.2
  l.find? fun o => o.2.cls == listMin (l.map fun o => o.2.cls)

/-- An operation starts on its die (R288, R330, R356). -/
def State.dieStart (s : State) (p k : Nat) (o : DieOp) : State :=
  (((s.updPort p fun x => { x with ops := x.ops.set k { o with running := true } }).programMode p o).emit
    (.dieOp p o.die o.cls o.block o.kind.page (s.opBytes p o))).exposure p

/-- DIE_OP_ISSUE (R297, R299, R308, R315, R356): the free die takes its waiting operation of the highest class, the oldest of equals. -/
def execDieOpIssue (p die : Nat) (s : State) : Out :=
  if !s.dieFree p die then .next s
  else match (s.dieReady p die).dieNext p die with
    | none => .next (s.dieReady p die)
    | some x => .next ((s.dieReady p die).dieStart p x.1 x.2)

/-! ### SEGMENT_CLOSE -/

/-- The leading packed entries that fit in one segment (R349). -/
def fitEntries : Nat → List PackEntry → List PackEntry
  | _, [] => []
  | room, x :: xs => if 16 + x.payload.length ≤ room then x :: fitEntries (room - 16 - x.payload.length) xs else []

/-- The destination of a half's segment (R303). -/
def State.segPort (s : State) (e h : Nat) : Nat :=
  let placement := s.rd F.TAKE_STATUS_placement e
  if placement < 2 then placement else if (s.take e).tseg.getD h 0 % 2 = 0 then h else 1 - h

/-- A closed segment goes to its destination port (R303). -/
def State.sendSeg (s : State) (e h : Nat) (f : TakeFrame) (src : SegSource) (last : Bool) (tiles : List (List Byte × List Byte)) : State :=
  let p := s.segPort e h
  let t := s.take e
  let v := s.reelVersion p
  let n := tiles.length
  let g : Segment :=
    { version := v, sidecar := false, half := h, packed := s.on F.TAKE_STATUS_packed e, last := last,
      encrypted := (match (s.port p).reel with | some r => r.hdr.encrypted | none => false), easel := e, id := s.reelId p, serial := 0,
      owner := s.rd F.TAKE_NUMBER_value e, frame := f.serial, ordinal := f.ords.getD h 0, tseg := t.tseg.getD h 0,
      tiles := tiles, file := [] }
  let x : SegTask := { seg := g, src := src, cmd := none, reloc := false, start := none, put := 0, dead := false }
  let s1 := s.updPort p fun y => { y with tasks := y.tasks ++ [x] }
  let s2 := s1.updTake e fun y => { y with tseg := updAt y.tseg h (· + 1) }
  let up := fun y : TakeFrame => { y with
    tiles := updAt y.tiles h (· + n), ords := updAt y.ords h (· + 1), closed := if last then h :: y.closed else y.closed }
  (s2.updTakeFrame e f.serial up).exposure p

/-- A half closes its next segment of a frame of a take, when there is one (R302, R303, R305, R349, R364): an uncompressed run in tile order, or
packed entries in sequence order up to the first that a lane has not committed yet. -/
def State.segmentClose (s : State) (e serial h : Nat) : State :=
  match s.frame e serial, (s.take e).frames.find? (fun f => f.serial == serial) with
  | some f, some tf =>
    if tf.closed.contains h || !s.takeOpen e || !((s.take e).ports.all s.mounted) then s
    else if s.on F.TAKE_STATUS_packed e then
      let all := (s.halfTiles e h f).length
      let lanes := (s.packOf h).lanes
      let coming := (lanes.flatMap PackLane.tiles).filterMap fun x => if x.easel = e ∧ x.serial = serial ∧ x.void = false then some x.seq else none
      let mine := lanes.flatMap fun y => y.ring.filter fun x => x.easel == e && x.serial == serial && !x.taken && !x.void
      let seqs := (sortNat (mine.map PackEntry.seq)).filter fun n => coming.all fun k => decide (n < k)
      let order := seqs.filterMap fun n => mine.find? fun x => x.seq == n
      let run := fitEntries 1048512 order
      let last := run.length == all - tf.tiles.getD h 0
      if run.isEmpty || !(last || decide (run.length < order.length)) then s
      else
        let nums := run.map PackEntry.seq
        let up := fun x : PackEntry => if nums.contains x.seq then { x with taken := true } else x
        (s.updPack h fun z => { z with lanes := z.lanes.map fun y => { y with ring := y.ring.map up } }).sendSeg e h tf (.ring nums) last
          (run.map fun x => (x.record, x.payload))
    else match s.slotOf e serial with
      | none => s
      | some k =>
        let v := s.reelVersion (s.segPort e h)
        let rest := (s.halfTiles e h f).drop (tf.tiles.getD h 0)
        let run := rest.take (if v = 2 then 255 else 254)
        let here := run.all fun t => s.brush.readable.contains (e, serial, t) || s.tileAbsent e f t
        if !here || run.isEmpty then s
        else s.sendSeg e h tf .canvas (run.length == rest.length) (run.map fun t =>
          if s.brush.readable.contains (e, serial, t) then let c := s.canvasTile e k t; (c.1, c.2.1)
          else (tileRecord 0 0 t 0, if v = 2 then List.replicate 4096 (0 : Byte) else []))
  | _, _ => s

/-- SEGMENT_CLOSE (R302). -/
def execSegmentClose (e serial h : Nat) (s : State) : Out := .next (s.segmentClose e serial h)

/-! ### DIE_OP_COMPLETE -/

/-- A segment's programs have all passed (R290, R311). -/
def State.segPassed (s : State) (p : Nat) (x : SegTask) : State :=
  let entry : SegEntry :=
    { serial := x.seg.serial, start := x.start.getD 0, half := x.seg.half, packed := x.seg.packed, last := x.seg.last, ordinal := x.seg.ordinal,
      tiles := x.seg.tiles.length }
  let t := s.updPort p fun y => { y with tasks := y.tasks.filter fun z => z ≠ x }
  let t1 :=
    if x.reloc then t.ledgerPut p [.reloc x.seg.serial entry.start]
    else if x.dead then t
    else match x.cmd with
      | some id =>
        let t2 := t.updPort p fun y => { y with sideDone := y.sideDone ++ [(id, entry)] }
        match (t2.port p).sides.find? (fun w => w.1 == id) with
        | some w =>
          let l := ((t2.port p).sideDone.filter fun d => d.1 == id).map Prod.snd
          if l.length = w.2.2 then
            t2.ledgerPut p [.sidecar w.2.1 ((List.range w.2.2).filterMap fun k => l.find? fun y => y.ordinal == k)]
          else t2
        | none => t2
      | none => t.updPort p fun y => { y with done := y.done ++ [(x.seg.owner, x.seg.frame, entry)] }
  (t1.freeSource x).exposure p

/-- Segments that have passed leave the port. -/
def State.segCheck (s : State) (p : Nat) : State :=
  let x := s.port p
  let ok := fun u : ProgUnit => u.stage == .passed || u.stage == .failed
  (x.tasks.filter fun t => t.start.isSome && x.segAll t ok).foldl (fun s t => s.segPassed p t) s

/-- The unit of a stripe that ended: the parity goes out after 15 data units, and a stripe with its parity is closed (R298). -/
def State.stripeCheck (s : State) (p serial : Nat) : State :=
  let us := (s.port p).units.filter fun u => u.stripe == serial
  let ended := fun u : ProgUnit => u.stage == .passed || u.stage == .failed
  let data := us.filter fun u => decide (u.slot < 15)
  if us.any fun u => u.slot == 15 && ended u then
    let t := s.segCheck p
    let t1 := t.updPort p fun x => { x with units := x.units.filter fun u => u.stripe ≠ serial }
    ((t1.takesOn p).foldl State.takeCheck t1).flushCheck
  else if data.length = 15 ∧ data.all ended = true ∧ us.length = 15 then
    (s.addUnit p serial 15 (List.replicate (s.unitPages p) .parity) .queued).segCheck p
  else s.segCheck p

/-- A program failure (R317). Data that was moved before keeps the LPN it had first, so that one DETOUR entry places it (R331, R333). -/
def State.unitFailed (s : State) (p : Nat) (u : ProgUnit) : State :=
  let t := ((s.flagCount F.MAG_FLAGS_prog_fail F.MAG_CNT_prog_fail p).raise p Ev.MAG_PROG_FAIL []).retireBlock p u.place.die u.place.block 3
  let lpn := u.stripe * 15 * s.unitPages p + u.slot * s.unitPages p
  let first := match (s.port p).reel.bind fun r => r.detours.find? fun d => d.2 == lpn with | some d => d.1 | none => lpn
  let t1 := if u.slot < 15 then t.updPort p fun x => { x with moves := x.moves ++ [(first, u.pages)] } else t
  match (t1.port p).reel with
  | some r => match r.sets.find? (fun b => b.index == u.place.die / 16 && b.blocks.getD (u.place.die % 16) 0 == u.place.block) with
    | some b => ((t1.updReel p fun r => { r with sets := r.sets.map fun y => if y.id = b.id then { y with stop := true } else y }).closeSet p b.id).markSet p b.id
    | none => t1
  | none => t1

/-- The block table notes the first program of a block since its erase (R306). -/
def State.programmed (s : State) (p : Nat) (z : PuPlace) : State :=
  s.updReel p fun r => { r with
    times := if r.times.any fun y => y.1 == (z.die, z.block) then r.times else ((z.die, z.block), s.nowSecs) :: r.times }

/-- A unit's program ended. -/
def State.unitEnded (s : State) (p st sl : Nat) (ok : Bool) : State :=
  match (s.port p).units.find? (fun u => u.stripe == st && u.slot == sl) with
  | none => s
  | some u =>
    let up := fun y : ProgUnit => if y.stripe = st ∧ y.slot = sl then { y with stage := if ok then .passed else .failed } else y
    let t := s.updPort p fun x => { x with units := x.units.map up }
    let t1 := if ok then (t.updMag p fun m => { m with units := m.units ++ [(u.place, u.pages)] }).programmed p u.place else t.unitFailed p u
    t1.stripeCheck p st

/-- A copy of a ledger record ended (R340): on a failure its block is retired and the copy goes to the lane's next block. -/
def State.ledgerEnded (s : State) (p die block rec copy page : Nat) (ok : Bool) : State :=
  match (s.port p).ledger.group with
  | none => s
  | some g =>
    let r := g.records[rec]?
    let put := fun c => s.updMag p fun m => { m with slc := m.slc ++ [(die, block, page, c)] }
    if ok then
      let t := put (r.elim .bad fun r => .ledger copy r)
      let t1 := t.updLedger p fun y => { y with group := y.group.map fun g => { g with waiting := g.waiting.filter fun w => w ≠ (rec, copy) } }
      match (t1.port p).ledger.group with
      | some g1 => if g1.waiting.isEmpty then t1.groupPassed p else t1
      | none => t1
    else
      let t := (((put .bad).flagCount F.MAG_FLAGS_prog_fail F.MAG_CNT_prog_fail p).raise p Ev.MAG_PROG_FAIL []).retireBlock p die block 3
      let t1 := t.updLedger p fun y => { y with cur := y.cur.set die none }
      match (t1.port p).ledger.page (s.slcPages p) die with
      | some (b, n, l) => (t1.updLedger p fun _ => l).addOps p [{ die := die, block := b, cls := 0, kind := .ledger rec copy n, running := false }]
      | none => (t1.takesOn p).foldl (fun s e => s.endTake e St.LEDGER_FULL 7 keepNone) t1

/-- A block's contents gone. A ledger block is free again, its erase count up by one; the count of a data block took its erase in with the SET
entry that freed it (R342). -/
def State.blockGone (s : State) (p die block : Nat) : State :=
  let t := s.updMag p fun m => { m with
    units := m.units.filter (fun u => !(u.1.die == die && u.1.block == block)), slc := m.slc.filter (fun y => !(y.1 == die && y.2.1 == block)),
    weak := m.weak.filter (fun w => !(w.1.die == die && w.1.block == block)), bits := m.bits.filter (fun w => !(w.1.die == die && w.1.block == block)),
    torn := m.torn.filter (fun b => b ≠ (die, block)) }
  let t1 := t.updPort p fun x => { x with reads := x.reads.filter fun z => z.1 ≠ (die, block) }
  let t2 := t1.updReel p fun r => { r with times := r.times.filter fun c => c.1 ≠ (die, block) }
  match (s.port p).reel with
  | some r => if decide (die < 16) && (r.ledger.getD die []).contains block && !r.retiredAt die block then
      (t2.updReel p fun r => { r with
        counts := ((die, block), r.count die block + 1) :: r.counts.filter (fun c => c.1 ≠ (die, block)) }).updLedger p fun y =>
          { y with free := updAt y.free die fun l => sortNat (block :: l.filter (· ≠ block)) }
    else t2
  | none => t2

/-- Bytes from a place of a segment on as they are read when codewords of it are lost: those of a lost codeword are free. -/
def State.lostBytes (s : State) (cws : List Nat) (at_ : Nat) (b : List Byte) : List Byte :=
  (withIndex b).map fun y => if cws.contains ((at_ + y.1) / 4096) then Config.badByte s.fresh (at_ + y.1) else y.2

/-- A segment read for relocation as it is passed on (R30, R300 step 5): a present tile whose record or data touches a lost codeword is
damaged. -/
def State.lostSeg (s : State) (g : Segment) (cws : List Nat) : Segment :=
  if cws.isEmpty then g
  else
    let go := g.tiles.foldl (fun (a : List (List Byte × List Byte) × Nat × Nat) t =>
      let n := t.2.length
      let dir := 64 + 16 * a.2.1
      let hurt := cws.any fun c => (n != 0 && decide (a.2.2 / 4096 ≤ c) && decide (c ≤ (a.2.2 + n - 1) / 4096))
        || (g.version == 3 && decide (dir / 4096 ≤ c) && decide (c ≤ (dir + 15) / 4096))
      let rec' := if hurt && recPresent t.1 then setRecord t.1 (checkedFlags (recFlags t.1) false) (recLen t.1) else t.1
      (a.1 ++ [(rec', s.lostBytes cws a.2.2 t.2)], a.2.1 + 1, a.2.2 + n)) ([], 0, g.bodyAt)
    { g with tiles := go.1, file := s.lostBytes cws 64 g.file }

/-- Tiles that became damaged on the way. -/
def lostTiles (a b : Segment) : Nat := ((a.tiles.zip b.tiles).filter fun x => !recDamaged x.1.1 && recDamaged x.2.1).length

/-- A page read for relocation ended (R30, R300, R301): its codewords reported, and with its last page the segment goes to be programmed anew. -/
def State.readEnded (s : State) (p die block wl page serial : Nat) : State :=
  let z : PuPlace := { die := die, block := block, wl := wl }
  match (s.port p).reel, (s.port p).mag with
  | some r, some m =>
    let k := match m.pageAt z page with | some (.seg n k) => if n = serial then k else 0 | _ => 0
    let t := s.pageRead p z page
    let lost := ((List.range 4).filter fun c => decide (5 ≤ m.cwStep z page c (r.closedAt m z))).map (4 * k + ·)
    let t1 := t.updPort p fun x => { x with moving := x.moving.map fun y => if y.1 = serial then (y.1, y.2.1 - 1, y.2.2 ++ lost) else y }
    match (t1.port p).moving.find? (fun y => y.1 == serial && y.2.1 == 0), s.segment p serial with
    | some y, some g =>
      let seg := t1.lostSeg g y.2.2
      ((t1.updPort p fun x => { x with
        moving := x.moving.filter (fun y => y.1 ≠ serial),
        tasks := x.tasks ++ [{ seg := seg, src := .inner, cmd := none, reloc := true, start := none, put := 0, dead := false }] }).tileCrc p
          (lostTiles g seg)).tick
    | _, _ => t1
  | _, _ => s

end Sys2Proof.Machine
end

