-- ==== Sys2Proof/Machine/Reels.lean ====
section
/-! DEFINITION. Mount and recovery, format and sanitise, the ends of die operations, and spills (spec/09, spec/10). -/
namespace Sys2Proof.Machine

/-! ### Headers -/

/-- The control blocks C0 and C1 of a control die (R329). -/
def controlBlocks (m : Magazine) (bad : List Retired) (die : Nat) : List Nat :=
  ((List.range 16).filter fun b => !m.factory.contains (die, b) && !listsBlock bad die b).take 2

/-- The control dies (R329). -/
def controlDies : List Nat := [0, 4, 8, 12]

/-- The valid header copies of a magazine: die, block, header (R336). -/
def headerCopies (m : Magazine) : List (Nat × Nat × ReelHeader) :=
  m.slc.filterMap fun y => match y.2.2.2 with
    | .header h => if controlDies.contains y.1 && y.2.2.1 == 0 && (h.version == 2 || h.version == 3) then some (y.1, y.2.1, h) else none
    | _ => none

/-- The header in force (R336). -/
def headerInForce (m : Magazine) : Option (Nat × Nat × ReelHeader) :=
  (headerCopies m).foldl (fun a h => match a with
    | none => some h
    | some x => if x.2.2.generation < h.2.2.generation then some h else a) none

/-- The control block of a die for a new generation (R337): one that does not hold the generation in force. -/
def freshControl (m : Magazine) (bad : List Retired) (generation die : Nat) : Option Nat :=
  (controlBlocks m bad die).find? fun b => !((headerCopies m).any fun h => h.1 == die && h.2.1 == b && h.2.2.generation == generation)

/-- The newest WIP record of a generation, with its page (R370). -/
def newestWip (m : Magazine) (generation : Nat) : Option (Nat × WipRec) :=
  (m.slc.filterMap fun y => match y.2.2.2 with
    | .wip w => if w.generation = generation then some (y.2.2.1, w) else none
    | _ => none).foldl (fun a w => match a with
      | none => some w
      | some x => if x.1 ≤ w.1 then some w else a) none

/-- The bad blocks that the WIP records of a generation list: those its format carried forward or found (R370, R371). -/
def wipBad (m : Magazine) (generation : Nat) : List Retired :=
  (m.slc.flatMap fun y => match y.2.2.2 with | .wip x => if x.generation = generation then x.bad else [] | _ => []).eraseDups

/-- The ledger blocks of a ledger die: the lowest good blocks from 16 upward (R330). -/
def ledgerBlocks (m : Magazine) (bad : List Retired) (n die : Nat) : List Nat :=
  ((List.range m.ident.blocks).filter fun b => decide (16 ≤ b) && !m.factory.contains (die, b)
    && !listsBlock bad die b).take n

/-! ### Format and sanitise -/

/-- The spans of 64 blocks per die that are erased: a span counts once its last erase has ended (R439). -/
def AdminWork.spans (a : AdminWork) (blocks : Nat) : Nat :=
  if a.step = 4 then (a.next - 1) / 64 else if blocks ≤ a.next then ceilDiv blocks 64 else a.next / 64

/-- STOR_ADMIN and REEL_WIP follow the work (R439). -/
def State.adminStatus (s : State) (p : Nat) : State :=
  match (s.port p).admin, (s.port p).mag with
  | some a, some m =>
    let total := ceilDiv m.ident.blocks 64
    let t := (((s.wr F.STOR_ADMIN_STATUS_op (if a.sanitise then 4 else 3) p).wr F.STOR_ADMIN_STATUS_phase a.step p).wr F.STOR_ADMIN_DONE_value
      (a.spans m.ident.blocks) p).wr F.STOR_ADMIN_TOTAL_value total p
    (((t.wr F.REEL_WIP_op (if a.sanitise then 2 else 1) p).wr F.REEL_WIP_done (a.spans m.ident.blocks) p).wr F.REEL_WIP_total total p).wr F.REEL_STATUS_wip 1 p
  | _, _ => ((((((s.wr F.STOR_ADMIN_STATUS_op 0 p).wr F.STOR_ADMIN_STATUS_phase 0 p).wr F.REEL_WIP_op 0 p).wr F.REEL_STATUS_wip 0 p).wr
      F.STOR_ADMIN_DONE_value 0 p).wr F.STOR_ADMIN_TOTAL_value 0 p)

def State.updAdmin (s : State) (p : Nat) (f : AdminWork → AdminWork) : State := s.updPort p fun x => { x with admin := x.admin.map f }

/-- Operations of a step, counted. -/
def State.adminOps (s : State) (p step : Nat) (l : List DieOp) : State :=
  ((s.updAdmin p fun a => { a with step := step, left := l.length }).addOps p l).adminStatus p

/-- The blocks of the generation being written, as die and block. -/
def AdminWork.blocks (a : AdminWork) : List (Nat × Nat) := (controlDies.zip a.ctl).filterMap fun c => c.2.map fun b => (c.1, b)

/-- The control blocks that are not those of the generation being written (R371 step 3). -/
def AdminWork.others (a : AdminWork) (m : Magazine) : List (Nat × Nat) :=
  controlDies.flatMap fun d => ((controlBlocks m a.bad d).map fun b => (d, b)).filter fun x => !a.blocks.contains x

/-- Erases of a step. -/
def adminErases (l : List (Nat × Nat)) : List DieOp :=
  l.map fun x => { die := x.1, block := x.2, cls := 0, kind := .erase true, running := false }

/-- The bad blocks that one WIP record can list: from byte 64 up to its CRC at byte 4,092 (R370). -/
def wipRoom : Nat := 503

/-- A WIP record for every control die: of the bad blocks found as many as fit, the next ones in the next record. -/
def wipOps (st : Nat) (a : AdminWork) : List DieOp :=
  a.blocks.map fun x =>
    { die := x.1, block := x.2, cls := 0, running := false,
      kind := .slc a.wipPage (.wip { op := if a.sanitise then 2 else 1, state := st, generation := a.hdr.generation, next := a.next, bad := a.span.take wipRoom }) }

/-- A WIP record of a state is written on the next page, as a step. -/
def State.wipStep (s : State) (p step st : Nat) (a : AdminWork) : State :=
  (s.updAdmin p fun a => { a with wipPage := a.wipPage + 1, span := a.span.drop wipRoom }).adminOps p step (wipOps st a)

/-- The work is whole (R371 step 7): the port is READY, and the command completes (R438). -/
def State.adminDone (s : State) (p : Nat) (a : AdminWork) : State :=
  let t := ((s.updPort p fun x => { x with admin := none, reel := none, ledger := LedgerSt.init }).setPort p 3).adminStatus p
  let t1 := (t.wr F.REEL_FLAGS_wip_done 1 p).raise p Ev.REEL_WIP_DONE []
  let t2 := if a.sanitise then t1 else
    (t1.updStor fun x => { x with formatted := x.formatted ++ [(a.hdr.id.roll, a.hdr.id.reel, a.hdr.id.secs)] }).rollRecord a.hdr.id.roll
  match a.cmd with
  | some id => t2.complete id St.OK a.bad.length a.hdr.generation
  | none => t2

/-- Steps 4 and 5 of R371 from a block on: the next block with anything to erase, a WIP record after each 64 blocks, then step 6
or 7. -/
def State.adminErase (s : State) (p : Nat) : Nat → State
  | 0 => s
  | n + 1 =>
    match (s.port p).admin, (s.port p).mag with
    | some a, some m =>
      if m.ident.blocks ≤ a.next then
        let s := s.updMag p fun m => { m with segs := [] }
        if wipRoom < a.span.length then s.wipStep p 5 1 a
        else if a.sanitise then s.wipStep p 7 2 a
        else
          let ledger := (List.range 16).map (ledgerBlocks m a.bad a.hdr.ledgerN)
          let reel := { Reel.blank a.hdr [] with ledger := ledger }
          let led : LedgerSt := { LedgerSt.init with pend := .format a.hdr ledger :: a.bad.map .retire, free := ledger }
          ((s.updPort p fun x => { x with reel := some reel, ledger := led }).updAdmin p fun a => { a with step := 6, left := 0 }).adminStatus p
      else
        let b := a.next
        let used := fun d => controlDies.contains d && (controlBlocks m a.bad d).contains b
        let isBad := fun d => listsBlock a.bad d b
        let marks := (m.ident.dies.filter fun d => !used d && !isBad d && m.factory.contains (d, b)).map fun d =>
          ({ ch := d % 16, index := d / 16, block := b, cause := 1 } : Retired)
        let ops := adminErases ((m.ident.dies.filter fun d => !used d && !isBad d && !m.factory.contains (d, b)).map fun d => (d, b))
        let t := s.updAdmin p fun a => { a with bad := a.bad ++ marks, span := a.span ++ marks, next := b + 1 }
        if ops.isEmpty then
          if (b + 1) % 64 = 0 then
            match (t.port p).admin with
            | some a1 => t.wipStep p 5 1 a1
            | none => t
          else t.adminErase p n
        else t.adminOps p 4 ops
    | _, _ => s

/-- The next step once the operations of one have ended (R371). -/
def State.adminNext (s : State) (p : Nat) : State :=
  match (s.port p).admin, (s.port p).mag with
  | some a, some m =>
    if a.left ≠ 0 then s
    else if a.step = 1 then
      let hdrs := a.blocks.map fun x => ({ die := x.1, block := x.2, cls := 0, kind := .slc 0 (.header a.hdr), running := false } : DieOp)
      (s.updAdmin p fun a => { a with wipPage := 2, span := a.span.drop wipRoom }).adminOps p 2 (hdrs ++ wipOps 0 { a with wipPage := 1 })
    else if a.step = 2 then s.adminOps p 3 (adminErases (a.others m))
    else if a.step = 3 ∨ a.step = 5 then s.adminErase p (m.ident.blocks + 1)
    else if a.step = 4 then
      if a.next % 64 = 0 then s.wipStep p 5 1 a
      else s.adminErase p (m.ident.blocks + 1)
    else if a.step = 6 then
      if (s.port p).ledger.pend.isEmpty && (s.port p).ledger.group.isNone then
        s.wipStep p 7 2 a
      else s
    else s.adminDone p a
  | _, _ => s

/-- A format or sanitise begins (R371 step 1) on a READY port. Its first WIP record lists the bad blocks carried forward, for a resumption
(R372; log 122). -/
def State.adminStart (s : State) (p id : Nat) (sanitise : Bool) (hdr : ReelHeader) (m : Magazine) (bad : List Retired) : State :=
  let ctl := controlDies.map (freshControl m bad (hdr.generation - 1))
  let a : AdminWork := { cmd := some id, sanitise := sanitise, step := 1, next := 0, left := 0, wipPage := 1, hdr := hdr, ctl := ctl, bad := bad, span := bad }
  ((s.updPort p fun x => { x with admin := some a }).setPort p 5).adminOps p 1 (adminErases a.blocks)

/-- Unfinished work is resumed (R372): the port enters ADMIN and goes on from the recorded block. -/
def State.wipResume (s : State) (p : Nat) (m : Magazine) (h : Nat × Nat × ReelHeader) (w : Nat × WipRec) : State :=
  let bad := wipBad m w.2.generation
  let ctl := controlDies.map fun d => match (headerCopies m).find? fun c => c.1 == d && c.2.2.generation == h.2.2.generation with
    | some c => some c.2.1
    | none => freshControl m bad (h.2.2.generation - 1) d
  let a : AdminWork := { cmd := none, sanitise := w.2.op == 2, step := 3, next := w.2.next, left := 0, wipPage := w.1 + 1, hdr := h.2.2, ctl := ctl, bad := bad, span := [] }
  let t := ((s.updPort p fun x => { x with admin := some a }).setPort p 5).raise p Ev.REEL_WIP_RESUMED []
  if w.2.state = 0 then t.adminOps p 3 (adminErases (a.others m))
  else t.adminErase p (m.ident.blocks + 1)

/-! ### Replay -/

/-- The ledger records of a reel that read correct: die, copy, record. -/
def ledgerPages (m : Magazine) (id : ReelId) : List (Nat × Nat × LRecord) :=
  m.slc.filterMap fun y => match y.2.2.2 with
    | .ledger copy r => if r.id = id then some (y.1, copy, r) else none
    | _ => none

/-- The first sequence number of the snapshot a group belongs to, walking back over its groups (R346). -/
def snapStart (rs : List LRecord) : Nat → Nat → Nat
  | 0, q => q
  | n + 1, q => match rs.find? (fun r => r.kind == 11 && !r.last && r.seq + 1 == q) with
    | some r => snapStart rs n r.first
    | none => q

/-- Where replay begins: the newest snapshot whose last group is present, else the FORMAT record. -/
def replayStart (rs : List LRecord) : Nat :=
  match (rs.filter fun r => r.kind == 11 && r.last).foldl (fun (a : Option LRecord) r => match a with
      | none => some r
      | some x => if x.seq < r.seq then some r else a) none with
  | some r => snapStart rs rs.length r.first
  | none => match rs.find? (fun r => r.kind == 1) with
    | some r => r.seq
    | none => 0

/-- Replay (R359): groups applied in order up to the first that lacks a valid copy of a record; the tables, the next sequence
number, the records read from one copy only, and the groups applied. Where an unfinished group was ignored before and its sequence numbers used
anew, the group programmed last is taken. -/
def replay (l : List (Nat × Nat × LRecord)) : Nat → Nat → Reel → Nat → Nat → Reel × Nat × Nat × Nat
  | 0, q, r, c, k => (r, q, c, k)
  | n + 1, q, r, c, k =>
    match (l.filter fun y => y.2.2.first == q).getLast? with
    | none => (r, q, c, k)
    | some y =>
      let found := (List.range y.2.2.gcount).map fun i =>
        let at_ := l.filter fun z => z.2.2.first == q && z.2.2.seq == q + i && z.2.2.gcount == y.2.2.gcount
        match at_.getLast? with | some z => at_.filter fun (y : Nat × Nat × LRecord) => y.2.2 == z.2.2 | none => []
      if found.all fun f => !f.isEmpty then
        let es := found.flatMap fun f => match f with | z :: _ => z.2.2.entries | [] => []
        let single := (found.filter fun f => f.length == 1).length
        replay l n (q + y.2.2.gcount) (es.foldl Reel.apply r) (c + single) (k + 1)
      else (r, q, c, k)

/-! ### Gleaning -/

/-- The scan of R360: the pages read from an LPN on, and for a valid segment header its serial and start. -/
def scanSegs (m : Magazine) (r : Reel) : Nat → Nat → List ((PuPlace × Nat) × Option (Nat × Nat))
  | 0, _ => []
  | n + 1, q =>
    match r.locate m.ident.unitPages q with
    | none => []
    | some l => match m.pageAt l.1 l.2 with
      | none => [(l, none)]
      | some g =>
        if 5 ≤ m.cwStep l.1 l.2 0 (r.closedAt m l.1) then [(l, none)]
        else match g with
          | .seg k 0 => (l, some (k, q)) :: scanSegs m r n (q + 64)
          | _ => (l, none) :: scanSegs m r n (q + 1)

/-- How many LPNs a reel's stripes span. -/
def Reel.span (r : Reel) (unitPages : Nat) : Nat := r.top * 15 * unitPages

/-- The 64 pages of a segment on a port, as place and page. -/
def State.wholeSeg (s : State) (p : Nat) (g : Segment) : List PageWant :=
  match (s.port p).startOf g.serial with | some a => s.segPages p g.serial a 0 1048576 | none => []

/-- A tile of a noted segment as a decode unit finds it (R257, R360): sound, and its fault. A tile that came damaged is decoded too, and not
compared. -/
def tileVerdict (t : List Byte × List Byte) : Bool × Option (Nat × Nat) :=
  let d := decodeTile t.1 t.2
  (d.2.2.isNone && (!recPresent t.1 || recDamaged t.1 || !recDamaged d.1), d.2.2)

/-- No codeword of a noted segment is uncorrectable, and its pages are there. -/
def State.segWhole (s : State) (p : Nat) (g : Segment) : Bool :=
  let l := s.wholeSeg p g
  l.length == 64 && l.all fun y => (s.lostCws p g.serial y.k y.place y.page).isEmpty

/-- A noted segment whose pages have been read is found sound or not (R360); each decode fault is counted and latched (R259). -/
def State.segSound (s : State) (p : Nat) (g : Segment) : State × Bool :=
  if !s.segWhole p g then (s, false)
  else
    (s.each g.tiles fun s t => match (tileVerdict t).2 with
      | some x => s.decodeFault p g.easel g.frame (recIndex t.1) x.1 x.2
      | none => s, g.tiles.all fun t => (tileVerdict t).1)

/-- The segments of a frame noted on a port or committed there. -/
def State.frameParts (s : State) (p take serial : Nat) : List Segment :=
  let x := s.port p
  let com := match x.reel with | some r => (r.segs.filter fun y => y.1 == take && y.2.1 == serial).map fun y => y.2.2.serial | none => []
  (com ++ x.loose.map Prod.fst).filterMap fun n => match s.segment p n with
    | some g => if g.owner = take ∧ g.frame = serial ∧ g.sidecar = false then some g else none
    | none => none

/-- A frame's segments are whole on its ports: every ordinal of both halves up to the last, each tile once (R360). -/
def partsWhole (t : TakeEntry) (l : List Segment) : Bool :=
  let half := fun h => l.filter fun g => g.half == h
  let done := fun h => match (half h).find? Segment.last with
    | some g => (List.range (g.ordinal + 1)).all fun k => (half h).any fun y => y.ordinal == k
    | none => false
  let idx := sortNat ((l.flatMap Segment.tiles).map fun t => recIndex t.1)
  done 0 && done 1 && idx == List.range (t.width / 64 * (t.height / 32))

/-- The VARNISH entries of a take that some of its ports has not committed, ascending serial. -/
def State.varnished (s : State) (take : Nat) (ports : List Nat) : List (Nat × Nat × Nat × Nat × Nat) :=
  let l := ports.flatMap fun p => match (s.port p).reel with | some r => r.varnish.filter fun v => v.1 == take | none => []
  (sortNat (l.map fun v => v.2.1)).eraseDups.filterMap fun n => l.find? fun v => v.2.1 == n

/-- A frame of a take is committed on a port. -/
def State.frameOn (s : State) (p take serial : Nat) : Bool :=
  match (s.port p).reel with | some r => r.frames.any fun f => f.take == take && f.serial == serial | none => true

/-- The pages that the gleaning of a take reads next (R360): those not read yet of the first segment to be checked, frame by frame up to the first
that fails. -/
def State.gleanWants (s : State) (seen : List (Nat × PuPlace × Nat)) (t : TakeEntry) (ports : List Nat) :
    List (Nat × Nat × Nat × Nat × Nat) → List PageWant
  | [] => []
  | v :: vs =>
    let parts := ports.map fun p => (p, s.frameParts p t.take v.2.1)
    let segs := (parts.filter fun x => !s.frameOn x.1 t.take v.2.1).flatMap fun x => x.2.map fun g => (x.1, g)
    let unread := fun x : Nat × Segment => (s.wholeSeg x.1 x.2).filter fun y => !seen.contains (y.port, y.place, y.page)
    let good := fun x : Nat × Segment => s.segWhole x.1 x.2 && x.2.tiles.all fun y => (tileVerdict y).1
    if !partsWhole t (parts.flatMap Prod.snd) then []
    else match segs.find? fun x => !(unread x).isEmpty || !good x with
      | some x => unread x
      | none => s.gleanWants seen t ports vs

/-- glean (R360): frames with a VARNISH entry and no COMMIT on a port, in ascending serial, until one fails. Answers the frames
committed and lost. -/
def State.glean (s : State) (t : TakeEntry) (ports : List Nat) : Nat → List (Nat × Nat × Nat × Nat × Nat) → State × Nat × Nat
  | _, [] => (s, 0, 0)
  | 0, l => (s, 0, l.length)
  | n + 1, v :: vs =>
    let parts := ports.map fun p => (p, s.frameParts p t.take v.2.1)
    let all := parts.flatMap Prod.snd
    let has := fun p => s.frameOn p t.take v.2.1
    let check := (parts.filter fun x => !has x.1).foldl (fun (a : State × Bool) x => x.2.foldl (fun a g =>
      if a.2 then let r := a.1.segSound x.1 g; (r.1, r.2) else a) a) (s, partsWhole t all)
    if !check.2 then (check.1, 0, (v :: vs).length)
    else
      let index := fun p => match (check.1.port p).reel with | some r => (r.frames.filter fun f => f.take == t.take).length | none => 0
      let ix := listMax (ports.map fun p => if has p then index p - 1 else index p)
      let s1 := (parts.filter fun x => !has x.1).foldl (fun s x =>
        let segs := sortSegs <| x.2.filterMap fun g => ((s.port x.1).startOf g.serial).map fun a =>
          ({ serial := g.serial, start := a, half := g.half, packed := g.packed, last := g.last, ordinal := g.ordinal, tiles := g.tiles.length } : SegEntry)
        let f : FrameEntry :=
          { take := t.take, index := ix, serial := v.2.1, easel := v.2.2.1, state := v.2.2.2.1, gleaned := true, fault := v.2.2.2.2, segs := segs.length,
            secs := 0, nanos := 0, tiles := sumOver (segs.map SegEntry.tiles) (fun n => n), check := frameCheck x.2 }
        let c : LEntry := .commit (s.scanFrom x.1 segs) [f] segs
        ((s.ledgerPut x.1 [c]).updReel x.1 fun r => r.apply c).updPort x.1 fun y =>
          { y with loose := y.loose.filter fun d => !(segs.any fun g => g.serial == d.1) }) check.1
      let r := s1.glean t ports n vs
      (r.1, r.2.1 + 1, r.2.2)

/-- A take's entry, committed length and first serial on a reel. -/
def Reel.entryOf (r : Reel) (t : TakeEntry) : TakeEntry := (r.takes.find? fun x => x.take == t.take).getD t
def Reel.lenOf (r : Reel) (t : TakeEntry) : Nat := (r.frames.filter fun f => f.take == t.take).length
def Reel.firstOf (r : Reel) (t : TakeEntry) : Nat := (r.frames.find? fun f => f.take == t.take && f.index == 0).elim 0 FrameEntry.serial

/-- A recovering take is ended on its ports with state 6 (R360, R361): its length, the frames beyond it unreferenced. -/
def State.endRecovered (s : State) (t : TakeEntry) (ports : List Nat) : State :=
  let n := listMin (ports.map fun p => match (s.port p).reel with | some r => r.lenOf t | none => 0)
  s.each ports fun s p => match (s.port p).reel with
    | none => s
    | some r =>
      let x : LEntry := .take { r.entryOf t with state := 6, ended := s.nowSecs, frames := n, serial0 := r.firstOf t }
      (s.ledgerPut p [x]).updReel p fun r => r.apply x

/-- The gleaning of one take over its ports, counted and reported. -/
def State.recover (s : State) (p : Nat) (t : TakeEntry) (ports : List Nat) : State × Nat :=
  let l := s.varnished t.take ports
  let v2 := s.reelVersion p == 2
  let g := if v2 then (s, 0, 0) else s.glean t ports l.length l
  let s1 := ((g.1.bump F.REEL_CNT_gleaned p 0 g.2.1).bump F.REEL_CNT_lost p 0 g.2.2)
  let s2 := if g.2.1 = 0 then s1 else (s1.wr F.REEL_FLAGS_gleaned 1 p).raise p Ev.REEL_GLEANED (le 4 t.take ++ le 4 g.2.1)
  (s2.endRecovered t ports, g.2.1)

/-! ### Mount -/

/-- REEL_STATUS follows the mounted reel. -/
def State.reelStatus (s : State) (p : Nat) : State :=
  match (s.port p).reel with
  | some r => (((s.wr F.REEL_STATUS_version r.hdr.version p).wr F.REEL_STATUS_mounted 1 p).wr F.REEL_STATUS_read_only (b2n r.readOnly) p).wr
      F.REEL_STATUS_encrypted (b2n r.hdr.encrypted) p
  | none => ((((s.wr F.REEL_STATUS_version 0 p).wr F.REEL_STATUS_mounted 0 p).wr F.REEL_STATUS_read_only 0 p).wr F.REEL_STATUS_encrypted 0 p).wr
      F.REEL_STATUS_pair_pending 0 p

/-- The oldest program time of a block set (R306, R319): of its blocks by the block table, else that of its SET entry. -/
def Reel.oldest (r : Reel) (b : BlockSet) : Nat :=
  listMin ((withIndex b.blocks).map fun c => match r.times.find? fun y => y.1 == (c.1 + 16 * b.index, c.2) with
    | some y => y.2
    | none => b.secs)

/-- The block sets a mount queues for relocation (R319): old ones, and those with an open stripe. -/
def State.queueScrub (s : State) (p : Nat) : State :=
  match (s.port p).mag, (s.port p).reel with
  | some m, some r =>
    let old := fun b : BlockSet => s.on F.MAG_SCRUB_CFG_enable p && decide (r.oldest b + s.rd F.MAG_SCRUB_CFG_age_days p * 86400 < s.nowSecs)
    let openStripe := fun b : BlockSet => r.stripes.any fun x => x.set == b.id &&
      !r.closedAt m { die := x.wl % 16 + 16 * b.index, block := b.blocks.getD (x.wl % 16) 0, wl := x.wl }
    (r.sets.filter fun b => openStripe b || old b).foldl (fun s b => s.markSet p b.id) s
  | _, _ => s

/-- Free blocks that still hold data, or whose erase did not end, are erased (R310). -/
def State.erasePool (s : State) (p : Nat) : State :=
  match (s.port p).mag, (s.port p).reel with
  | some m, some r =>
    s.addOps p (m.ident.dies.flatMap fun d => ((freeBlocks m r d).filter fun b => !blockErased m d b).map fun b =>
      { die := d, block := b, cls := 3, kind := .erase false, running := false })
  | _, _ => s

/-- The ledger blocks of a replayed reel (R330): as its FORMAT record tells them, else, once a snapshot has outlived that record, the lowest
good ones by the bad blocks that the WIP records of the format list (DEDUCED, log 120). -/
def Reel.withLedger (r : Reel) (m : Magazine) (l : List (Nat × Nat × LRecord)) : Reel :=
  match l.findSome? fun y => y.2.2.entries.findSome? fun e => match e with | .format _ x => some x | _ => none with
  | some x => { r with ledger := x }
  | none => { r with ledger := (List.range 16).map (ledgerBlocks m (wipBad m r.hdr.generation) r.hdr.ledgerN) }

/-- The state of a port whose reel has been replayed (R358, R359): the reserve is in use while an ending entry with state 7 stands after the
newest snapshot (R347). -/
def portMounted (x : PortSt) (m : Magazine) (r : Reel) (q start : Nat) (l : List (Nat × Nat × LRecord)) : PortSt :=
  let pageOf := fun ch b => (m.slc.filter fun y => y.1 == ch && y.2.1 == b).map fun y => y.2.2.1 + 1
  let blockOf := fun ch => match (l.filter fun y => y.1 == ch).foldl (fun (a : Option (Nat × Nat × LRecord)) y => match a with
      | none => some y
      | some z => if z.2.2.seq < y.2.2.seq then some y else a) none with
    | some y => (m.slc.find? fun (z : Nat × Nat × Nat × SlcPage) => z.1 == ch && z.2.2.2 == SlcPage.ledger y.2.1 y.2.2).map fun (z : Nat × Nat × Nat × SlcPage) => z.2.1
    | none => none
  let led : LedgerSt :=
    { LedgerSt.init with
      reserved := l.any fun y => decide (start ≤ y.2.2.seq) && y.2.2.kind != 11 && y.2.2.entries.any fun e => match e with | .take t => t.state == 7 | _ => false
      seq := q, cur := (List.range 16).map fun ch => (blockOf ch).map fun b => (b, listMax (pageOf ch b)),
      free := (List.range 16).map fun ch => (r.ledger.getD ch []).filter fun b => (pageOf ch b).isEmpty && !r.retiredAt ch b }
  { PortSt.init with
    mag := some m, reel := some r, ledger := led, nextStripe := r.top,
    nextSeg := listMax ((m.segs.filter fun g => g.id == r.hdr.id).map Segment.serial) + 1,
    nextSet := (r.sets.map (fun (b : BlockSet) => b.id + 1) ++ r.stripes.map fun (x : StripeAt) => x.set + 1).foldl max 0, ops := x.ops, held := x.held, mount := x.mount }

/-- The other port mounts the partner of a striped take. -/
def State.partnerHere (s : State) (p : Nat) (t : TakeEntry) : Bool :=
  s.mounted (1 - p) && s.reelId (1 - p) == t.partner && t.partner != ReelId.zero

/-- The takes of a port's reel that recover: open in its tables, and not a take in hand (R360 to R362). -/
def State.recovering (s : State) (p : Nat) : List TakeEntry :=
  match (s.port p).reel with
  | some r => r.takes.filter fun t => t.state == 0 && (s.takeByNumber p t.take).isNone
  | none => []

/-- The striped takes that a mount on a port reconciles (R361): those that recover on either of two partner reels, both of which may be written. -/
def State.pairs (s : State) (p : Nat) : List TakeEntry :=
  let q := 1 - p
  let rw := fun k => match (s.port k).reel with | some r => !r.readOnly | none => false
  if !s.mounted q || !rw p || !rw q then []
  else
    let own := (s.recovering p).filter fun t => t.placement == 2 && t.partner == s.reelId q
    own ++ (s.recovering q).filter fun t => t.placement == 2 && t.partner == s.reelId p && !(own.any fun x => x.take == t.take)

/-- REEL_STATUS.pair_pending: a striped take of the reel is not reconciled yet (R362). -/
def State.pairStatus (s : State) (p : Nat) : State := s.wr F.REEL_STATUS_pair_pending (b2n ((s.recovering p).any fun t => t.placement == 2)) p

/-- STOR_ADMIN of a mount (R439). -/
def State.mountStatus (s : State) (p phase done total : Nat) : State :=
  (((s.wr F.STOR_ADMIN_STATUS_op 1 p).wr F.STOR_ADMIN_STATUS_phase phase p).wr F.STOR_ADMIN_DONE_value done p).wr F.STOR_ADMIN_TOTAL_value total p

/-- A mount changed. -/
def State.updMount (s : State) (p : Nat) (f : MountWork → MountWork) : State := s.updPort p fun x => { x with mount := x.mount.map f }

/-- Class 0 reads of a phase of a mount (R308). -/
def State.mountLooks (s : State) (p phase : Nat) (l : List (Nat × Nat × Nat)) : State :=
  ((s.updMount p fun w => { w with phase := phase, left := l.length }).mountStatus p phase 0 0).addOps p (l.map fun y =>
    { die := y.1, block := y.2.1, cls := 0, kind := .look y.2.2, running := false })

/-- The pages of the control dies that a mount reads: page 0 of both control blocks, and every programmed one (R329, R337). -/
def controlPages (m : Magazine) : List (Nat × Nat × Nat) :=
  (controlDies.flatMap fun d => (controlBlocks m [] d).map (fun b => (d, b, 0)) ++
    (m.slc.filter fun y => y.1 == d && decide (y.2.1 < 16)).map fun y => (d, y.2.1, y.2.2.1)).eraseDups

/-- The programmed pages of the ledger dies from block 16 upward (R330). -/
def ledgerReads (m : Magazine) : List (Nat × Nat × Nat) :=
  ((m.slc.filter fun y => decide (y.1 < 16) && decide (16 ≤ y.2.1)).map fun y => (y.1, y.2.1, y.2.2.1)).eraseDups

/-- A mount ends in an error: nothing of the reel is touched. -/
def State.mountFail (s : State) (p : Nat) (w : MountWork) (status : Nat) : State :=
  ((s.updPort p fun x => { x with mount := none }).adminStatus p).complete w.cmd status

/-- The scan of a mounted reel with a recovering take (R360). -/
def State.scan (s : State) (p : Nat) : List ((PuPlace × Nat) × Option (Nat × Nat)) :=
  match (s.port p).reel, (s.port p).mag with
  | some r, some m => if r.readOnly || (s.recovering p).isEmpty then [] else scanSegs m r (r.span m.ident.unitPages) r.scan
  | _, _ => []

/-- The takes a mount gleans, with their ports. -/
def State.gleaned (s : State) (p : Nat) : List (TakeEntry × List Nat) :=
  (if s.reelReadOnly p then [] else ((s.recovering p).filter fun t => t.placement != 2).map fun t => (t, [p])) ++ (s.pairs p).map fun t => (t, [p, 1 - p])

/-- The pages a mount reads next (R360): of its scan, then of the segments it checks. -/
def State.mountWants (s : State) (p : Nat) (seen : List (Nat × PuPlace × Nat)) : List PageWant :=
  let scan := ((s.scan p).map fun y => ({ port := p, serial := 0, k := 0, place := y.1.1, page := y.1.2 } : PageWant)).filter fun y =>
    !seen.contains (y.port, y.place, y.page)
  if !scan.isEmpty then scan
  else if s.reelVersion p = 2 then []
  else (((s.gleaned p).map fun x => s.gleanWants seen x.1 x.2 (s.varnished x.1.take x.2)).find? fun l => !l.isEmpty).getD []

/-- Gleaning and reconciling have all they need (R360, R361): what can be committed is, and the takes end. The mount then waits for its groups. -/
def State.mountEnd (s : State) (p : Nat) : State :=
  let l := s.gleaned p
  let g := l.foldl (fun (a : State × Nat) x =>
    let q := a.1.recover p x.1 x.2
    let s1 := q.1.whenB (x.2.length == 2) fun s => (s.wr F.REEL_FLAGS_reconciled 1 p).raise p Ev.REEL_RECONCILED []
    (s1, a.2 + q.2)) (s, 0)
  let t := (g.1.pairStatus 0).pairStatus 1
  let t1 := (t.updMount p fun w => { w with phase := 4, gleaned := g.2, recovered := l.length }).wr F.STOR_ADMIN_STATUS_phase 4 p
  let t2 := if t1.reelReadOnly p then t1 else (t1.queueScrub p).erasePool p
  (t2.wearStatus p).opsStatus p

/-- A mount in its gleaning goes on (R360): the segments the scan notes stand, and the pages it needs are read in class 2. -/
def State.mountGlean (s : State) (p : Nat) : State :=
  match (s.port p).mount, (s.port p).reel with
  | some w, some r =>
    let refs := r.refs
    let notes := ((s.scan p).filterMap Prod.snd).filter fun y => !refs.contains y.1
    let t := s.updPort p fun x => { x with loose := notes }
    let l := t.mountWants p w.seen
    let checked := (notes.filterMap fun y => t.segment p y.1).filter fun g => (t.wholeSeg p g).all fun y => w.seen.contains (y.port, y.place, y.page)
    if l.isEmpty then t.mountEnd p
    else ((t.updMount p fun w => { w with left := l.length }).mountStatus p 3 checked.length notes.length).each [0, 1] fun s q =>
      s.addOps q ((l.filter fun y => y.port == q).map fun y =>
        { die := y.place.die, block := y.place.block, cls := 2, kind := .fetch y.place.wl y.page w.cmd, running := false })
  | _, _ => s

/-- A replayed mount goes on to its gleaning, after that of its partner reel on the other port (R363). -/
def State.mountEnter (s : State) (p : Nat) : State :=
  match (s.port p).mount, (s.port p).reel with
  | some w, some r =>
    let q := 1 - p
    let mates := r.takes.any (fun t => t.placement == 2 && t.partner == s.reelId q) ||
      match (s.port q).reel with | some y => y.takes.any fun t => t.placement == 2 && t.partner == s.reelId p | none => false
    if w.phase != 2 || w.left != 0 || (mates && (s.port q).mount.any fun y => decide (3 ≤ y.phase)) then s
    else (s.updMount p fun w => { w with phase := 3 }).mountGlean p
  | _, _ => s

/-- The ledger has been read: the reel's tables stand (R346, R347, R358, R359). -/
def State.mountReplay (s : State) (p : Nat) (m : Magazine) (h : ReelHeader) (w : MountWork) : State :=
  let kek := (s.prodKeys.find? fun k => k.1 == h.keyId).map Prod.snd
  let key := match kek with | some k => keyUnwrap k h.wrapped | none => none
  let l := ledgerPages m h.id
  let start := replayStart (l.map fun y => y.2.2)
  let r := replay l (l.length + 1) start (Reel.blank h (if h.encrypted then key.getD [] else [])) 0 0
  let gap := l.any fun y => decide (r.2.1 < y.2.2.first)
  let reel := { r.1.withLedger m l with readOnly := w.ro || gap }
  let t := s.updPort p fun x => portMounted x m reel r.2.1 start l
  let t1 := (List.replicate r.2.2.1 ()).foldl (fun s _ => (s.flagCount F.REEL_FLAGS_copy_bad F.REEL_CNT_copy_bad p).raise p Ev.REEL_COPY_BAD []) t
  let t2 := if gap then (t1.wr F.REEL_FLAGS_ledger_gap 1 p).raise p Ev.REEL_LEDGER_GAP [] else t1
  (((t2.updMount p fun w => { w with left := 0, status := if gap then St.REEL_READ_ONLY else St.OK }).mountStatus p 2 r.2.2.2 0).ledgerStatus p).mountEnter p

/-- The headers have been read (R336, R369, R372, R373): unfinished work is resumed, or the reel can not be mounted, or its ledger is read. -/
def State.mountHeaders (s : State) (p : Nat) (m : Magazine) (w : MountWork) : State :=
  match headerInForce m with
  | none => s.mountFail p w St.REEL_NO_HEADER
  | some h =>
    let x := h.2.2
    let kek := (s.prodKeys.find? fun k => k.1 == x.keyId).map Prod.snd
    let key := match kek with | some k => keyUnwrap k x.wrapped | none => none
    match (newestWip m x.generation).filter fun w => w.2.state != 2 with
    | some v => ((s.updPort p fun x => { x with mount := none }).wipResume p m h v).complete w.cmd St.REEL_WIP_RESUMED
    | none =>
      if x.sanitised then s.mountFail p w St.REEL_SANITIZED
      else if x.encrypted && kek.isNone then s.mountFail p w St.REEL_KEY_MISSING
      else if x.encrypted && (key.isNone || (match key with | some k => k.take 32 == k.drop 32 | none => true)) then s.mountFail p w St.REEL_KEY_BAD
      else if (ledgerReads m).isEmpty then (s.updMount p fun w => { w with phase := 2, left := 0 }).mountReplay p m x w
      else s.mountLooks p 2 (ledgerReads m)

/-- The next step of a mount whose reads have ended. -/
def State.mountNext (s : State) (p : Nat) : State :=
  match (s.port p).mount, (s.port p).mag with
  | some w, some m =>
    if w.left ≠ 0 then s
    else if w.phase = 1 then s.mountHeaders p m w
    else if w.phase = 2 then match headerInForce m with | some h => s.mountReplay p m h.2.2 w | none => s.mountFail p w St.REEL_NO_HEADER
    else if w.phase = 3 then s.mountGlean p
    else s
  | _, _ => s

/-- The mount procedure begins (R336, R358 to R363, R369, R372, R373): the control dies are read. -/
def State.mountRun (s : State) (p id : Nat) (ro : Bool) : State :=
  match (s.port p).mag with
  | none => s.complete id St.MAG_NOT_READY
  | some m =>
    let l := controlPages m
    let t := (s.updPort p fun x => { x with
      mount := some { cmd := id, ro := ro, phase := 1, left := 0, seen := [], status := St.OK, gleaned := 0, recovered := 0 } }).mountLooks p 1 l
    if l.isEmpty then t.mountNext p else t

/-- One SLC page of a mount has been read. -/
def State.lookEnded (s : State) (p : Nat) : State := (s.updMount p fun w => { w with left := w.left - 1 }).mountNext p

/-- One page of a segment has been read for a mount, on either port. -/
def State.mountPart (s : State) (p id : Nat) (z : PuPlace) (page : Nat) : State :=
  match [0, 1].find? fun q => (s.port q).mount.any fun w => w.cmd == id with
  | some q => (s.updMount q fun w => { w with left := w.left - 1, seen := (p, z, page) :: w.seen }).mountNext q
  | none => s

/-- A mount whose ledger groups have passed completes, and the port is MOUNTED (R436); the partner's mount may go on (R363). -/
def State.mountCheck (s : State) (p : Nat) : State :=
  match (s.port p).mount with
  | some w =>
    if w.phase = 4 ∧ (s.port p).ledger.pend.isEmpty && (s.port p).ledger.group.isNone then
      (((((s.updPort p fun x => { x with mount := none }).setPort p 4).reelStatus p).adminStatus p).complete w.cmd w.status w.gleaned w.recovered).mountEnter
        (1 - p)
    else s
  | none => s

/-- The mounts of both ports complete as far as they can. -/
def State.mountChecks (s : State) : State := ((s.mountCheck 0).mountCheck 1).mountCheck 0

/-! ### DIE_OP_COMPLETE -/

/-- A storage command names a port (R413, R434): by its port field or placement, or as a read of a striped take. -/
def State.namesPort (s : State) (c : Cmd) (p : Nat) : Bool :=
  let striped := (s.port (c.b 16)).reel.any fun r => r.takes.any fun t => t.take == c.w 20 && t.placement == 2
  if c.opcode = 0x10 then (placePorts (c.b 17 % 4)).contains p
  else if c.opcode = 0x12 ∨ c.opcode = 0x13 then c.b 16 == p || (striped && (c.opcode == 0x12 || c.b 17 == 0))
  else if c.opcode = 0x14 then (placePorts (c.b 16)).contains p
  else if c.opcode = 0x15 then (if c.b 16 = 0 then s.mounted p else bitOf (c.b 16) p)
  else decide (0x18 ≤ c.opcode) && decide (c.opcode ≤ 0x1D) && c.b 16 == p

/-- An UNMOUNT whose work is drained completes (R437): the key is discarded and the port is READY. -/
def State.unmountCheck (s : State) (p : Nat) : State :=
  let x := s.port p
  match x.unmount with
  | some id =>
    let busy := s.host.cmds.any fun c => decide (c.id < id) && c.opcode != 0x10 && s.namesPort c p
    let fixed := x.allOps.filter fun o => o.cls != 4 && o.cls != 3
    if busy || !fixed.isEmpty || (x.ops.any DieOp.running) || !x.ledger.pend.isEmpty || x.ledger.group.isSome || !x.tasks.isEmpty then s
    else (((((s.updPort p fun y => { PortSt.init with mag := y.mag }).opsStatus p).setPort p 3).reelStatus p).adminStatus p).complete id St.OK
  | none => s

/-- A block of a format or sanitise fails (R316, R371): it is among the bad blocks. A control block of the generation being written gives way to
the die's next one, which is erased and takes what was meant for it: again, and what still waits (R329, R337; log 122). left operations have ended. -/
def State.adminFails (s : State) (p die block cause left : Nat) (again : List DieOp) : State :=
  let x : Retired := { ch := die % 16, index := die / 16, block := block, cause := cause }
  let t := s.updAdmin p fun a => { a with bad := a.bad ++ [x], span := a.span ++ [x] }
  match (t.port p).admin, (t.port p).mag with
  | some a, some m =>
    if !a.blocks.contains (die, block) then (t.updAdmin p fun a => { a with left := a.left - left }).adminNext p
    else
      let mine := fun o : DieOp => !o.running && o.die == die && o.block == block
      let waits := ((t.port p).allOps).filter mine
      let next := freshControl m a.bad (a.hdr.generation - 1) die
      let go := match next with | some b => adminErases [(die, b)] ++ (again ++ waits).map fun o => { o with block := b } | none => []
      let t1 := (t.updAdmin p fun a => { a with ctl := a.ctl.set (die / 4) next, left := a.left + go.length - left - waits.length }).updPort p fun y =>
        { y with ops := y.ops.filter (fun o => !mine o), held := y.held.filter fun o => !mine o }
      (t1.addOps p go).adminNext p
  | _, _ => t

/-- An SLC program of a format or sanitise ended (R316, R317, R371). On a block that fails, its page and the header are programmed again. -/
def State.slcEnded (s : State) (p die block page : Nat) (c : SlcPage) (ok : Bool) : State :=
  let t := s.updMag p fun m => { m with slc := m.slc ++ [(die, block, page, if ok then c else .bad)] }
  if ok then (t.updAdmin p fun a => { a with left := a.left - 1 }).adminNext p
  else
    let op := fun n c => ({ die := die, block := block, cls := 0, kind := .slc n c, running := false } : DieOp)
    let hdr := match (t.port p).admin with | some a => if page = 0 then [] else [op 0 (.header a.hdr)] | none => []
    ((t.flagCount F.MAG_FLAGS_prog_fail F.MAG_CNT_prog_fail p).raise p Ev.MAG_PROG_FAIL []).adminFails p die block 3 1 (hdr ++ [op page c])

/-- An erase ended (R316). -/
def State.eraseEnded (s : State) (p die block : Nat) (admin ok : Bool) : State :=
  let t := if ok then s.blockGone p die block else (s.flagCount F.MAG_FLAGS_erase_fail F.MAG_CNT_erase_fail p).raise p Ev.MAG_ERASE_FAIL []
  if admin then
    if ok then (t.updAdmin p fun a => { a with left := a.left - 1 }).adminNext p else t.adminFails p die block 2 1 []
  else (if ok then t else t.retireBlock p die block 2).wearStatus p

/-- Step 6 of a format goes on when its groups have passed. -/
def State.adminGroups (s : State) (p : Nat) : State :=
  match (s.port p).admin with
  | some a => if a.step = 6 then s.adminNext p else s
  | none => s

/-! ### ELASTIC_SPILL -/

/-- A free 1 MiB of a half's elastic region. -/
def State.elasticRoom (s : State) (h : Nat) : Option Nat :=
  match s.regionIn 2 0 h with
  | none => none
  | some (base, size) =>
    ((List.range (size / 1048576)).map fun k => base + k * 1048576).find? fun a => !((s.stor.elastic.getD h []).any fun y => y.1 == a)

/-- A segment moved to the elastic region, its source let go; false when there is no room (R312). A tile whose read is uncorrectable is passed on
damaged (R272). -/
def State.spillSeg (s : State) (h p : Nat) (x : SegTask) : State × Bool :=
  match s.elasticRoom h with
  | none => (s, false)
  | some a =>
    let r := (s.srcRead x).tilesPass p x.seg ((s.srcTiles x).map fun y =>
      if y.2 || !recPresent y.1.1 || recDamaged y.1.1 then (y.1, false) else ((setRecord y.1.1 (checkedFlags (recFlags y.1.1) false) (recLen y.1.1), y.1.2), true))
    let t := (r.1.put a r.2.plain).updStor fun y => { y with elastic := updAt y.elastic h (· ++ [(a, 1048576)]) }
    let t1 := t.updPort p fun y => { y with tasks := y.tasks.map fun z => if z = x then { z with src := .elastic a, seg := r.2 } else z }
    ((t1.elasticStatus h).freeSource x, true)

/-- The first spill of a take (R312). -/
def State.firstSpill (s : State) (h e : Nat) : State :=
  if (s.take e).spilled then s
  else ((s.updTake e fun x => { x with spilled := true }).flagCount F.MAG_FLAGS_elastic_spill F.MAG_CNT2_spill h).raise h Ev.MAG_ELASTIC_SPILL []

/-- Segments spilled in order; where one finds no room its take ends before the frame it belongs to (R313). -/
def State.spillAll (s : State) (h : Nat) : List (Nat × SegTask) → State
  | [] => s
  | (p, x) :: l =>
    let e := x.seg.easel
    let r := (s.firstSpill h e).spillSeg h p x
    if !(s.port p).tasks.contains x then s.spillAll h l
    else if r.2 then r.1.spillAll h l
    else
      let serial := listMin (x.seg.frame :: (l.filter fun y => y.2.seg.easel == e).map fun y => y.2.seg.frame)
      let t := ((s.take e).ports.foldl (fun s q => s.wr F.MAG_FLAGS_elastic_full 1 q) r.1).raise h Ev.MAG_ELASTIC_FULL []
      (t.endTake e St.ELASTIC_FULL 2 fun f => decide (f.serial < serial)).spillAll h l

/-- The oldest slot part of an easel that the writer holds in a half (R312). -/
def State.oldestPart (s : State) (h e : Nat) : Option Nat :=
  let l := (s.take e).frames.filter fun f => match s.slotOf e f.serial with
    | some k => ((s.canvas e).slots.getD k { st := .free, serial := 0, holds := [] }).holds.contains (h, .magazine)
    | none => false
  match l.map TakeFrame.serial with
  | [] => none
  | a :: as => some (listMin (a :: as))

/-- A half closes the segments of a frame that it can close now, n at most. -/
def State.closeSegs (s : State) (e serial h : Nat) : Nat → State
  | 0 => s
  | n + 1 =>
    let put := fun s : State => ((s.take e).frames.find? fun f => f.serial == serial).map fun f => (f.ords.getD h 0, f.closed.contains h)
    let t := s.segmentClose e serial h
    if put t == put s then t else t.closeSegs e serial h n

/-- The half's segments that have not passed, with their port. -/
def State.halfTasks (s : State) (h : Nat) : List (Nat × SegTask) :=
  [0, 1].flatMap fun p => ((s.port p).tasks.filter fun x => x.seg.half == h && !x.reloc && !x.dead && !x.seg.sidecar).map fun x => (p, x)

/-- A segment whose source is a lane's ring. -/
def SegTask.onLane (x : SegTask) (lane : Nat) : Bool := match x.src with | .ring q => q.any fun n => n % 48 == lane | _ => false

/-- The frames of takes with committed entries in a lane's ring that no segment carries yet: easel and serial, each once. -/
def State.laneFrames (s : State) (h lane : Nat) : List (Nat × Nat) :=
  (((s.packLane h lane).ring.filter fun x => !x.taken && !x.void).map fun x => (x.easel, x.serial)).eraseDups

/-- What of an easel's oldest slot part can be spilled: the state with its segments cut, and they (R312). -/
def State.partSpill (s : State) (h e : Nat) : Option (State × List (Nat × SegTask)) :=
  match s.oldestPart h e with
  | none => none
  | some serial =>
    let t := s.closeSegs e serial h 86400
    let l := (t.halfTasks h).filter fun x => x.2.seg.easel == e && x.2.seg.frame == serial && x.2.src == .canvas && !t.srcWaits x.2
    if l.isEmpty then none else some (t, l)

/-- What of a lane ring's committed entries can be spilled, in whole segments (R312). -/
def State.laneSpill (s : State) (h l : Nat) : Option (State × List (Nat × SegTask)) :=
  let t := s.each (s.laneFrames h l) fun s f => s.closeSegs f.1 f.2 h 86400
  let l := (t.halfTasks h).filter fun x => x.2.onLane l && !t.srcWaits x.2
  if l.isEmpty then none else some (t, l)

/-- What a half spills now (R312): the oldest slot part of an easel with few FREE slots, else a lane ring filled to its threshold. -/
def State.spillParts (s : State) (h : Nat) : Option (State × List (Nat × SegTask)) :=
  match (List.range 4).findSome? (fun e =>
    if s.rd F.HBM_CANVAS_STATUS_free e ≤ s.rd F.MAG_ELASTIC_CFG_canvas_lo h ∧ s.takeOpen e = true ∧ s.on F.TAKE_STATUS_packed e = false then s.partSpill h e
    else none) with
  | some x => some x
  | none => (List.range 48).findSome? fun l =>
    if s.laneSize h * s.rd F.MAG_ELASTIC_CFG_lane_pct h ≤ (s.packLane h l).used * 100 then s.laneSpill h l else none

/-- ELASTIC_SPILL (R312, R313): what can be cut into segments is cut, and the segments move to the elastic region in close order. -/
def execElasticSpill (h : Nat) (s : State) : Out :=
  match s.spillParts h with
  | some x => .next (x.1.spillAll h x.2)
  | none => .next s

end Sys2Proof.Machine
end

