-- ==== Sys2Proof/Machine/Mag.lean ====
section
/-! DEFINITION. Magazine ports: presence, bring-up, power-fail warning and removal (spec/09). -/
namespace Sys2Proof.Machine

/-- MAG_x_PWR_EN driven. -/
def State.pwrEn (s : State) (p : Nat) (v : Bool) : State := (s.wr F.MAG_PORT_STATUS_pwr_en (b2n v) p).emit (.pin p v)

/-- A page read of a command. -/
def DieOp.fetches (o : DieOp) (id : Nat) : Bool := match o.kind with | .fetch _ _ k => k == id | _ => false

/-- A read is given up after the unit it last wrote (R430): what of it no die has begun is taken out. -/
def State.dropRead (s : State) (id : Nat) : State :=
  (s.updStor fun x => { x with reads := x.reads.filter fun y => y.cmd ≠ id }).each [0, 1] fun s p =>
    (s.updPort p fun x => { x with
      ops := x.ops.filter (fun o => o.running || !o.fetches id), held := x.held.filter fun o => !o.fetches id }).refill p

/-! ### The point of no return -/

/-- Opcodes whose point of no return lies after their start (R430, R471, R630). -/
def lateOpcode (op : Nat) : Bool :=
  op == 0x10 || (decide (0x12 ≤ op) && decide (op ≤ 0x15)) || (decide (0x1A ≤ op) && decide (op ≤ 0x1D)) || op == 0x22 || op == 0x28 || op == 0x45

/-- The easel a TAKE_OPEN opens a take of, while it is OPENING. -/
def State.openingOf (s : State) (id : Nat) : Option Nat :=
  (List.range 4).find? fun e => s.rd F.TAKE_STATUS_state e == 1 && (s.take e).openCmd == some id

/-- The port a FORMAT or SANITIZE works on. -/
def State.adminOf (s : State) (id : Nat) : Option Nat :=
  [0, 1].find? fun p => match (s.port p).admin with | some a => a.cmd == some id | none => false

/-- The SIDECAR entry of a command's file on a port. -/
def PortSt.sideEntry (x : PortSt) (id : Nat) (e : LEntry) : Bool :=
  match e with
  | .sidecar y _ => x.sides.any fun w => w.1 == id && w.2.1.number == y.number
  | _ => false

/-- A SIDECAR group of a WRITE_SIDECAR is being programmed. -/
def State.sideIssued (s : State) (id : Nat) : Bool :=
  s.stor.ports.any fun x => match x.ledger.group with
    | some g => (g.records.flatMap LRecord.entries).any (x.sideEntry id)
    | none => false

/-- A command is past its point of no return (R430): a TAKE_OPEN once an opening entry has been issued, a WRITE_SIDECAR once a
SIDECAR group has, a FORMAT or SANITIZE once its first erase has; a command that waits to start, only when that point is its decode. -/
def State.pastPoint (s : State) (c : Cmd) : Bool :=
  if c.past || !lateOpcode c.opcode then true
  else if c.stage != .running then false
  else if c.opcode = 0x10 then
    match s.openingOf c.id with
    | some e => !(s.take e).ports.all fun p => (s.port p).ledger.pend.contains (s.takeEntry e p 0)
    | none => true
  else if c.opcode = 0x1A ∨ c.opcode = 0x1B then
    match s.adminOf c.id with
    | some p => match (s.port p).admin with
      | some a => decide (1 < a.step) || decide (((s.port p).ops.filter fun o => o.kind == .erase true && !o.running).length < 4)
      | none => true
    | none => true
  else if c.opcode = 0x14 then s.sideIssued c.id
  else false

/-- A storage command stopped before its point of no return (R430): what it has put in hand is withdrawn. -/
def State.storStop (s : State) (c : Cmd) (status : Nat) : State :=
  let id := c.id
  if c.stage != .running then s
  else if c.opcode = 0x10 then
    match s.openingOf id with
    | some e =>
      (s.each (s.take e).ports fun s p => s.updPort p fun x =>
        { x with ledger := { x.ledger with pend := x.ledger.pend.erase (s.takeEntry e p 0) } }).endTake e status 1 keepNone
    | none => s
  else if c.opcode = 0x12 ∨ c.opcode = 0x13 then s.dropRead id
  else if c.opcode = 0x14 then
    (s.each [0, 1] fun s p => s.updPort p fun x => { x with
      ledger := { x.ledger with pend := x.ledger.pend.filter fun e => !x.sideEntry id e }
      tasks := (x.tasks.filter fun t => !(t.cmd == some id && t.start.isNone)).map fun t => if t.cmd = some id then { t with cmd := none, dead := true } else t
      sides := x.sides.filter fun w => w.1 ≠ id
      sideDone := x.sideDone.filter fun w => w.1 ≠ id }).updStor fun x => { x with sideCmds := x.sideCmds.filter fun w => w.1 ≠ id }
  else if c.opcode = 0x15 then s.updStor fun x => { x with flushes := x.flushes.filter fun w => w.1 ≠ id }
  else if c.opcode = 0x1A ∨ c.opcode = 0x1B then
    match s.adminOf id with
    | some p => (((s.updPort p fun x => { x with
        admin := none
        ops := x.ops.filter fun o => o.kind != .erase true
        held := x.held.filter fun o => o.kind != .erase true }).refill p).setPort p 3).adminStatus p
    | none => s
  else s

/-- The commands that use a port end with a status: its reads, its sidecars, its format, mount or unmount. -/
def State.endPortCmds (s : State) (p status : Nat) : State :=
  let x := s.port p
  let ids := (x.allOps.filterMap fun o => match o.kind with | .fetch _ _ k => some k | _ => none).eraseDups
  let s0 := s.each ids fun s id => if s.stor.reads.any fun y => y.cmd == id then (s.complete id status).dropRead id else s
  let s1 := (x.sides.map Prod.fst).foldl (fun s id => s.sidePart id p status 0) s0
  let s2 := match x.admin with | some a => (match a.cmd with | some id => s1.complete id status | none => s1) | none => s1
  let s3 := match x.mount with | some w => s2.complete w.cmd status w.gleaned w.recovered | none => s2
  match x.unmount with | some id => s3.complete id status | none => s3

/-- The port's work is gone: sources and elastic space of its segments are let go, operations and tables cleared. -/
def State.clearPort (s : State) (p : Nat) (mag : Option Magazine) : State :=
  let t := s.each (s.port p).tasks State.freeSource
  let t1 := t.updPort p fun _ => { PortSt.init with mag := mag }
  (((t1.opsStatus p).reelStatus p).adminStatus p).exposure p

/-- The takes of a port end at their last committed frame, and the port's reel is taken out of them (R325, R421). -/
def State.endPortTakes (s : State) (p status code : Nat) : State :=
  s.each (s.takesOn p) fun s e =>
    (s.updTake e fun x => { x with ports := x.ports.filter fun q => q ≠ p }).endTake e status code keepNone

/-- A port goes OFF with its work ended. -/
def State.portOff (s : State) (p status code : Nat) (mag : Option Magazine) : State :=
  let t := ((s.endPortTakes p status code).endPortCmds p status).clearPort p mag
  ((t.setPort p 0).pwrEn p false).flushCheck

/-- A seated magazine powers up on an enabled port (R292), except in recovery (R629). -/
def State.portPower (s : State) (p : Nat) : State :=
  if s.portState p = 0 ∧ s.rd F.FW_STATUS_state ≠ 2 ∧ s.on F.MAG_PORT_STATUS_pres p ∧ s.on F.MAG_PORT_CTRL_enable p ∧ s.released (22 + p) = true ∧ s.blockUp (0x48 + p) = true then
    ((s.setPort p 1).pwrEn p true).raise p Ev.MAG_INSERTED []
  else s

/-- MAG_INSERTION (R291, R292): presence is recognised, and an enabled port enters POWER. -/
def execMagInsertion (p : Nat) (m : Magazine) (s : State) : Out :=
  if s.on F.MAG_PORT_STATUS_pres p then .next s
  else .next (((s.updPort p fun x => { x with mag := some m }).wr F.MAG_PORT_STATUS_pres 1 p).portPower p)

/-- MAG_REMOVAL (R292, R325 to R327): outputs and PWR_EN drop, operations end with MAG_REMOVED, takes end at their last committed
frame. -/
def execMagRemoval (p : Nat) (s : State) : Out :=
  if !s.on F.MAG_PORT_STATUS_pres p then .next s
  else
    let t := s.wr F.MAG_PORT_STATUS_pres 0 p
    if s.portState p = 0 then .next (t.updPort p fun _ => PortSt.init)
    else .next (((t.portOff p St.MAG_REMOVED 4 none).wr F.MAG_PORT_STATUS_refuse_code 0 p).raise p Ev.MAG_REMOVED [])

/-- A port enters INIT (R293 step 2): its outputs are driven, and RESET goes to all 128 CE targets in SDR mode 0. -/
def State.nandInit (s : State) (p : Nat) : State := (s.setPort p 2).emit (.nand p .reset (List.range 128))

/-- MAG_RAMP_DONE (R292, R293): POWER to INIT. -/
def execMagRampDone (p : Nat) (s : State) : Out := .next (if s.portState p = 1 then s.nandInit p else s)

/-- R293 steps 3 and 4: every target is identified, NV-LPDDR4 is selected, on-die termination is set where the parameter page declares it, and the
channels are calibrated and trained (R288; the order within a step is log 136). -/
def State.nandTrain (s : State) (p : Nat) (odt : Bool) : State :=
  s.each ([(.readId, 128), (.parameterPage, 128), (.uniqueId, 128), (.selectLpddr4, 128), (.getFeatures, 128)] ++ (if odt then [(.onDieTermination, 128)] else []) ++
      [(.zq, 16), (.dcc, 16), (.readDq, 16), (.writeDq, 16)] : List (NandCmd × Nat))
    fun s c => s.emit (.nand p c.1 (List.range c.2))

/-- The transfer rate a port uses (R288): the highest that the magazine trains at on every channel and the port supports. -/
def trainedRate (m : MagIdent) : Nat := min 3600 (listMin m.mts)

/-- The first requirement of R289 that a magazine fails, or 0. -/
def refuseCode (m : MagIdent) : Nat :=
  if !m.signed then 1
  else if !m.listed then 2
  else if !m.alike || !(m.luns == 1 || m.luns == 2) then 3
  else if m.pageData ≠ 16384 ∨ m.pageSpare < 2048 ∨ !(m.planes == 2 || m.planes == 4) = true then 4
  else if !m.oneShot || !(m.shot == 3 || m.shot == 4) then 5
  else if 2000 < m.tProg ∨ 500 < m.tSlc ∨ 10000 < m.tErase then 6
  else if 15728640 < m.segments ∨ 1048576 < 16 * m.diesCh * m.blocks then 7
  else if m.mts.any fun r => decide (r < 800) then 8
  else 0

/-- The sustained rate in whole MB/s (R309): 0.95 × 15/16 of the lesser of program and bus rate. -/
def magRate (m : MagIdent) : Nat :=
  let prog : Frac := ((16 * m.diesCh * m.planes * m.shot * 16384 : Nat), max 1 m.tProg)
  let bus : Frac := ((16 * trainedRate m * 16384 : Nat), 18432)
  (Frac.floor (Frac.mul (57, 64) (Frac.min prog bus))).toNat

/-- The initialisation of a port ends with what its magazine answers (R289, R292, R293, R309): refused with its code, or ready with its geometry
and rates readable. -/
def State.magReady (s : State) (p : Nat) (m : MagIdent) : State :=
  let c := refuseCode m
  let s1 := (s.nandTrain p m.odt).wr F.MAG_PORT_STATUS_refuse_code c p
  if c ≠ 0 then ((s1.setPort p 7).wr F.MAG_FLAGS_init_fail 1 p).raise p Ev.MAG_INIT_FAIL []
  else
    let s2 := ((((s1.wr F.MAG_GEOM_blocks m.blocks p).wr F.MAG_GEOM_shot m.shot p).wr F.MAG_GEOM_planes m.planes p).wr
      F.MAG_GEOM_dies_ch m.diesCh p).wr F.MAG_GEOM2_mts (trainedRate m) p
    let s3 := (((s2.wr F.MAG_GEOM2_wl m.wl p).wr F.MAG_TIMING_t_prog m.tProg p).wr F.MAG_TIMING_t_slc m.tSlc p).wr F.MAG_RATE_rate (magRate m) p
    (((s3.wr F.MAG_SEGMENTS_segments m.segments p).wr F.MAG_ID_mfr m.mfr p).wr F.MAG_ID_device m.device p).setPort p 3

/-- MAG_INIT_DONE (R289, R292, R293, R309): READY with geometry, timing and rate published, or FAULT with the refuse code. -/
def execMagInitDone (p : Nat) (s : State) : Out :=
  if s.portState p ≠ 2 then .next s
  else match (s.port p).mag with
    | none => .next s
    | some g =>
      .next (s.magReady p g.ident)

/-- MAG_RETRY (R292): a port in FAULT cycles its rail. -/
def execMagRetry (p : Nat) (s : State) : Out :=
  .next (if s.portState p = 7 then ((s.pwrEn p false).pwrEn p true).setPort p 1 else s)

/-- MAG_PORT_DISABLE (R292): refused while a take is open on the port, else the port is OFF. -/
def execMagPortDisable (p : Nat) (s : State) : Out :=
  if s.portTakeOpen p then .next (s.wr F.MAG_FLAGS_cfg_refused 1 p)
  else
    let t := s.wr F.MAG_PORT_CTRL_enable 0 p
    .next (if s.portState p = 0 then t else t.portOff p St.MAG_NOT_READY 4 (s.port p).mag)

/-! ### Power-fail warning -/

/-- A frame that is dry with every segment passed or in programming on every port of its take (R357). -/
def State.pfwKeep (s : State) (e : Nat) (f : TakeFrame) : Bool :=
  f.settled.isSome && f.closed.length == 2 && s.frameStands e f.serial fun q t => q.segAll t q.programming

/-- The ports a fall of PFW_N concerns (R323, R324): ready, mounted or in ADMIN, and not flagged. -/
def State.pfwPorts (s : State) : List Nat :=
  [0, 1].filter fun p => (s.portState p == 3 || s.portState p == 4 || s.portState p == 5) && !(s.port p).pfw

/-- Steps 1 and 2 of R323 on a port: its flag and event, no new operation, and the erases on its dies cut short. -/
def State.pfwStart (s : State) (p : Nat) : State :=
  let er := (s.port p).ops.filter fun o => o.running && (match o.kind with | .erase _ => true | _ => false)
  let s1 := (s.updMag p fun m => { m with torn := m.torn ++ er.map fun o => (o.die, o.block) }).updPort p fun x =>
    { x with pfw := true, pfwEnded := 0, ops := x.ops.filter fun o => !er.contains o }
  let s2 := if er.isEmpty then s1 else s1.emit (.nand p .reset (er.map fun o => o.die % 16 + 16 * (o.die / 32)))
  ((s2.opsStatus p).wr F.MAG_FLAGS_pfw 1 p).raise p Ev.MAG_PFW []

/-- PFW_N_FALL (R323 steps 1 and 2, R324): on each port in READY, MOUNTED or ADMIN no program is issued any more, erases are
ended by RESET, and takes end. One whose ending entries are on their way may still close with them. -/
def execPfwNFall (s : State) : Out :=
  let t := s.each s.pfwPorts State.pfwStart
  .next (t.each ((s.pfwPorts.flatMap t.takesOn).filter fun e => !(t.take e).ended) fun s e => s.endTake e St.MAG_HALTED 5 (s.pfwKeep e))

/-- The ledger group in hand passes whole (R323 step 4, R363). -/
def State.passGroup (s : State) (p : Nat) : State :=
  match (s.port p).ledger.group with
  | none => s
  | some g =>
    let led := (s.port p).allOps.filterMap fun o => match o.kind with
      | .ledger rec copy page => (g.records[rec]?).map fun r => (o.die, o.block, page, SlcPage.ledger copy r)
      | _ => none
    let isLed := fun o : DieOp => match o.kind with | .ledger _ _ _ => true | _ => false
    ((s.updMag p fun m => { m with slc := m.slc ++ led }).updPort p fun x => { x with ops := x.ops.filter (fun o => !isLed o), held := x.held.filter fun o => !isLed o }).groupPassed p

/-- The commit records of step 4, group by group. -/
def State.stepFour (s : State) (p : Nat) : Nat → State
  | 0 => s
  | n + 1 =>
    match (s.port p).reel with
    | none => s
    | some r =>
      let g := s.nextGroup p
      if g.1.isEmpty || !(s.port p).ledger.room (s.slcPages p) g.1.length false then s
      else (((g.2.2.updLedger p fun y => { y with pend := g.2.1 }).issueGroup p
        (numberRecords (s.port p).ledger.seq r.hdr.version r.hdr.id true g.1) false).passGroup p).stepFour p n

/-- Steps 4 and 5 of R323 on a port whose programs have drained: its last ledger group, then HALT with the counts readable. -/
def State.pfwHalt (s : State) (p us : Nat) : State :=
  let finished := (s.port p).pfwEnded
  let t0 := s.passGroup p
  let t := t0.stepFour p ((t0.port p).ledger.pend.length + sumOver ((List.range 4).map fun e => (t0.take e).frames.length) id + 1)
  let es := t.takesOn p
  let t1 := (t.endPortCmds p St.MAG_HALTED).clearPort p (t.port p).mag
  let t2 := ((t1.setPort p 6).wr F.MAG_PFW_STATUS_finished finished p).wr F.MAG_PFW_STATUS_time_us us p
  (t2.each es fun s e => if (s.take e).ports.any fun q => (s.port q).pfw then s else s.endTake e St.MAG_HALTED 5 keepNone).flushCheck

/-- PFW_PROGRAMS_DRAINED (R323 steps 3 to 5, R357): once no program runs, the commit records of dry frames wholly programmed are programmed, what
was never issued ends with MAG_HALTED, and the port is in HALT. MAG_PFW_STATUS.finished counts the programs that ended in step 3, which the
port has seen end; us is the time taken. -/
def execPfwProgramsDrained (p _finished us : Nat) (s : State) : Out :=
  .next (if !(s.port p).pfw || (s.port p).ops.any (fun o => o.running && o.programs) then s else s.pfwHalt p us)

/-- PFW_N_RECOVER (R292, R293): a halted port initialises again. -/
def execPfwNRecover (s : State) : Out :=
  .next (s.each [0, 1] fun s p => if s.portState p = 6 then s.nandInit p else s)

/-- The port of a half that is reset (R434, R566): the commands that name it, and its takes, end with a status, and it is OFF. -/
def State.portReset (s : State) (p status : Nat) : State :=
  let t := s.each (s.outstanding.filter fun c => c.stage != .ended && s.namesPort c p) fun s c =>
    if s.pastPoint c then s.complete c.id status 1 c.units else (s.storStop c status).complete c.id status 0 c.units
  if t.portState p = 0 then t else t.portOff p status 4 (t.port p).mag

end Sys2Proof.Machine
end

