-- ==== Sys2Proof/Machine/Takes.lean ====
section
/-! DEFINITION. The storage commands: takes, reads, sidecars, flush, mounts and formats (spec/12). -/
namespace Sys2Proof.Machine

/-! ### Shared parts -/

/-- An UNMOUNT decoded before a command, of a port that the command names, has still to act (R437). -/
def State.afterUnmount (s : State) (id : Nat) : Bool :=
  match s.cmd id with
  | some c => s.host.cmds.any fun o => o.opcode == 0x19 && decide (o.id < id) && (o.stage == .ready || o.stage == .fenced) && s.namesPort c (o.b 16)
  | none => false

/-- A storage command starts, once an earlier UNMOUNT of its port has acted: fields outside R413 complete it with STOR_BAD_FIELD before anything
runs. -/
def State.storCmd (s : State) (id opcode : Nat) (ok : Cmd → Bool) (f : Cmd → State → State) : State :=
  if s.afterUnmount id then s
  else s.startCmd id opcode fun c s => if ok c then f c s else s.complete id St.STOR_BAD_FIELD

/-- The port is MOUNTED and no UNMOUNT drains it (R437, R433). -/
def State.portUsable (s : State) (p : Nat) : Bool := s.mounted p && (s.port p).unmount.isNone

/-- The port is MOUNTED for a command: no UNMOUNT decoded before it drains it (R437). -/
def State.portFor (s : State) (id p : Nat) : Bool := s.mounted p && (s.port p).unmount.all fun u => decide (id < u)

/-- The port is READY and no mount runs on it. -/
def State.portReady (s : State) (p : Nat) : Bool := s.portState p == 3 && (s.port p).mount.isNone

/-- Random bytes (R612). -/
def State.random (s : State) (n : Nat) : List Byte := (List.range n).map (Config.randomByte s.fresh)

/-- The word of a register as its fields read. -/
def State.regWord (s : State) (r : Reg) (i : Nat) (j : Nat := 0) : Nat := sumOver (r.fields.map fun f => s.rd f i j * 2 ^ f.lo) id

/-- Earlier TAKE_OPEN and TAKE_CLOSE commands of the same easel and ring have acted (R427). -/
def State.takeTurn (s : State) (id : Nat) : Bool :=
  match s.cmd id with
  | none => false
  | some c => !(s.host.cmds.any fun o => o.ring == c.ring && decide (o.id < id) && (o.opcode == 0x10 || o.opcode == 0x11)
      && o.b 16 == c.b 16 && (o.stage == .ready || o.stage == .fenced))

/-! ### TAKE_OPEN -/

/-- The demand of a take on each port of its placement in bytes/s (R416). -/
def State.takeDemand (s : State) (e placement : Nat) (packed : Bool) : Frac :=
  let d : Frac := Frac.mul ((s.rd F.EASEL_GEOM_width e * s.rd F.EASEL_GEOM_height e * 2 * s.rd F.EASEL_RATE_rate_mfps e : Nat), 1000) (4112, 4096)
  let d1 := if packed then Frac.mul d (256, max 1 (s.rd F.LZP_EASEL_ALARM_threshold e)) else d
  if placement = 2 then Frac.mul d1 (1, 2) else d1

/-- The load test of R416. -/
def State.loadTest (s : State) (e placement : Nat) (packed : Bool) : Bool :=
  let all := (e, placement, packed) :: ((List.range 4).filter s.takeOpen).map fun k => (k, s.rd F.TAKE_STATUS_placement k, s.on F.TAKE_STATUS_packed k)
  let zero := all.any fun x => x.2.2 && s.rd F.LZP_EASEL_ALARM_threshold x.1 == 0
  if zero then Config.zeroThresholdPasses
  else [0, 1].all fun p =>
    Frac.le ((all.filter fun x => (placePorts x.2.1).contains p).foldl (fun a x => Frac.norm (Frac.add a (s.takeDemand x.1 x.2.1 x.2.2))) (0, 1))
      (Frac.ofNat (s.rd F.MAG_RATE_rate p * 1000000))

/-- A reel has ledger room outside the reserve for a record (R347, R415). -/
def State.ledgerRoom (s : State) (p : Nat) : Bool :=
  let x := (s.port p).ledger
  !x.reserved && x.room (s.slcPages p) 1 false

/-- The checks 2 to 10 of R415 in order, with that of R594 after row 8. -/
def State.openStatus (s : State) (e placement : Nat) (packed : Bool) : Nat :=
  let ps := placePorts placement
  let reel := fun p => (s.reelId p).roll
  if s.rd F.EASEL_STATUS_state e ≠ 1 then St.EASEL_CLOSED
  else if s.rd F.TAKE_STATUS_state e ≠ 0 then St.TAKE_BUSY
  else if !ps.all s.portUsable then St.MAG_NOT_READY
  else if ps.any s.reelReadOnly then St.REEL_READ_ONLY
  else if (packed && ps.any fun p => s.reelVersion p != 3) || (placement == 2 && s.reelVersion 0 != s.reelVersion 1) then St.REEL_VERSION
  else if placement = 2 ∧ reel 0 ≠ reel 1 then St.TAKE_ROLL_MISMATCH
  else if packed && !(s.on F.EASEL_RATE_pack e && s.on F.LZP_CTRL_enable 0 && s.on F.LZP_CTRL_enable 1) then St.TAKE_NO_PACKER
  else if s.rd F.THM_STATUS_level = 6 then St.THERMAL_SHED
  else if !s.loadTest e placement packed then St.TAKE_RATE
  else if !ps.all s.ledgerRoom then St.LEDGER_FULL
  else St.OK

/-- A take enters OPENING (R417): it takes the roll's next number, and its opening entries go to the ledgers. -/
def State.openTake (s : State) (id e placement : Nat) (packed : Bool) (limit : Nat) : State :=
  let ps := placePorts placement
  let roll := (s.reelId (ps.headD 0)).roll
  let n := match s.stor.rolls.find? (fun r => r.1 == roll) with | some r => r.2 | none => 1
  let s1 := (s.updStor fun x => { x with rolls := (roll, n + 1) :: x.rolls.filter fun r => r.1 ≠ roll }).rollRecord roll
  let s2 := ((((((s1.wr F.TAKE_STATUS_state 1 e).wr F.TAKE_STATUS_placement placement e).wr F.TAKE_STATUS_packed (b2n packed) e).wr
    F.TAKE_NUMBER_value n e).wr F.TAKE_FRAMES_value 0 e).wr F.TAKE_SCRAPED_value 0 e)
  let s3 := s2.updTake e fun _ => { TakeSt.init with limit := limit, openCmd := some id, wait := ps, ports := ps, opened := s.nowSecs, reels := [s.reelId 0, s.reelId 1] }
  (ps.foldl (fun (s : State) p => (s.ledgerPut p [s.takeEntry e p 0]).refill p) s3).tick

/-- The fields of TAKE_OPEN are in range (R413). -/
def takeOpenOk (c : Cmd) : Bool :=
  decide (c.b 16 < 4) && decide (c.b 17 < 8) && c.b 17 % 4 != 3 && zeroBytes c.desc 18 20
    && zeroBytes c.desc 24 64

/-- TAKE_OPEN (R415 to R417). It waits for a plan check in progress (R278). -/
def execTakeOpen (id : Nat) (s : State) : Out :=
  if !s.takeTurn id then .next s
  else if s.planPending then .next (s.waitPlan (.takeOpen id))
  else .next (s.storCmd id 0x10 takeOpenOk fun c s =>
    let e := c.b 16
    let placement := c.b 17 % 4
    let packed := bitOf (c.b 17) 2
    let st := s.openStatus e placement packed
    if st = St.OK then s.openTake id e placement packed (c.w 20) else s.complete id st)

/-! ### TAKE_CLOSE -/

/-- The fields of TAKE_CLOSE are in range (R413). -/
def takeCloseOk (c : Cmd) : Bool :=
  decide (c.b 16 < 4) && zeroBytes c.desc 17 20 && zeroBytes c.desc 24 64

/-- TAKE_CLOSE (R419, R420): one that acted at its decode only waits. -/
def execTakeClose (id : Nat) (s : State) : Out :=
  if !s.takeTurn id then .next s
  else .next (s.storCmd id 0x11 takeCloseOk fun c s =>
    let e := c.b 16
    let st := s.rd F.TAKE_STATUS_state e
    if st = 0 ∨ s.rd F.TAKE_NUMBER_value e ≠ c.w 20 then s.complete id St.TAKE_UNKNOWN
    else if (s.take e).closeCmds.contains id then s
    else
      let t := s.updTake e fun x => { x with closeCmds := x.closeCmds ++ [id] }
      if st = 2 then t.startClose e
      else if st = 4 then t.closeTake e (s.rd F.TAKE_STATUS_end_status e)
      else t)

/-! ### Reads -/

/-- A tile of a frame as the reels hold it: port, segment, place in it. -/
def State.findTile (s : State) (ports : List Nat) (take serial tile : Nat) : Option (Nat × Segment × Nat) :=
  ports.findSome? fun p => match (s.port p).reel with
    | none => none
    | some r => (r.segs.filter fun y => y.1 == take && y.2.1 == serial).findSome? fun y => match s.segment p y.2.2.serial with
      | none => none
      | some g => ((withIndex g.tiles).find? fun t => recIndex t.2.1 == tile).map fun t => (p, g, t.1)

/-- The Tile Record a version 2 tile is read with (R365). -/
def recordOfData (tile : Nat) (data : List Byte) : List Byte := tileRecord (crc32c data) 5 tile 0

/-- The bytes of a segment that a stored tile takes: its record in a version 3 directory, and its payload. -/
def tileRanges (g : Segment) (k : Nat) : List (Nat × Nat) :=
  let at_ := g.bodyAt + sumOver ((g.tiles.take k).map fun x => x.2.length) id
  let n := (g.tiles.getD k ([], [])).2.length
  (if g.version = 3 then [(64 + 16 * k, 80 + 16 * k)] else []) ++ if n = 0 then [] else [(at_, at_ + n)]

/-- A stored tile read: record, payload, and whether its codewords came back; lost are the codewords that did not. -/
def State.loadTile (s : State) (lost : List (Nat × Nat × Nat)) (p : Nat) (g : Segment) (k : Nat) : List Byte × List Byte × Bool :=
  let t := g.tiles.getD k ([], [])
  if (tileRanges g k).all fun x => cwsWhole lost p g.serial x.1 x.2 then (t.1, t.2, true) else (t.1, s.badBytes t.2.length, false)

/-- A version 2 frame's check on a port fails (R365). -/
def State.frameCheckBad (s : State) (lost : List (Nat × Nat × Nat)) (p take serial : Nat) : Bool :=
  match (s.port p).reel with
  | none => false
  | some r => match r.frames.find? (fun f => f.take == take && f.serial == serial) with
    | none => false
    | some f =>
      let segs := (r.segs.filter fun y => y.1 == take && y.2.1 == serial).filterMap fun y => s.segment p y.2.2.serial
      let l := segs.flatMap fun g => (List.range g.tiles.length).map fun k =>
        let x := s.loadTile lost p g k
        recIndex x.1 * 4294967296 + crc32c x.2.1
      crc32c ((sortNat l).flatMap fun v => le 4 v) != f.check

/-- A tile of a committed frame as a reader takes it (R365, R423): its record after the check, the 4,096-byte tile, and the payload
as stored. A tile whose data touches an uncorrectable codeword is passed on, counted and reported as one that failed its check (R30, R300);
one on a port whose version 2 frame check failed, which bad holds, is damaged. -/
def State.readTile (s : State) (lost : List (Nat × Nat × Nat)) (ports bad : List Nat) (take serial tile : Nat) :
    State × List Byte × List Byte × List Byte :=
  match s.findTile ports take serial tile with
  | none => (s, tileRecord 0 0 tile 0, [], [])
  | some (p, g, k) =>
    let x := s.loadTile lost p g k
    if g.version = 2 then
      let rec0 := recordOfData tile x.2.1
      let rec1 := setRecord rec0 (checkedFlags (recFlags rec0) (x.2.2 && !bad.contains p)) 0
      ((s.whenB (!x.2.2) fun s => s.tick.playbackSeen p g.easel serial rec0 rec1), rec1, x.2.1, x.2.1)
    else if x.2.2 || !recPresent x.1 then
      let d := decodeTile x.1 x.2.1
      (s.playbackTile p g.easel serial x.1 d, d.1, d.2.1, x.2.1)
    else
      let rec1 := setRecord x.1 (checkedFlags (recFlags x.1) false) (recLen x.1)
      (s.tick.playbackSeen p g.easel serial x.1 rec1, rec1, s.tick.badBytes 4096, x.2.1)

/-- A take of a reel. -/
def State.takeOf (s : State) (p n : Nat) : Option TakeEntry :=
  match (s.port p).reel with
  | some r => r.takes.find? fun t => t.take == n
  | none => none

/-- The ports a take is read from: a striped one needs both reels (R422). -/
def takePorts (p : Nat) (t : TakeEntry) : List Nat := if t.placement = 2 then [0, 1] else [p]

/-- The partner of a striped take is missing (R422). -/
def State.partnerGone (s : State) (p : Nat) (t : TakeEntry) : Bool := t.placement == 2 && !s.partnerHere p t

/-- The committed frames of a take: those every reel at hand has. -/
def State.committed (s : State) (p : Nat) (t : TakeEntry) : Nat :=
  let ps := if s.partnerGone p t then [p] else takePorts p t
  listMin (ps.map fun q => match (s.port q).reel with | some r => r.lenOf t | none => 0)

/-- The serial of a frame index. -/
def State.frameSerial (s : State) (p : Nat) (t : TakeEntry) (index : Nat) : Nat :=
  match (s.port p).reel with
  | some r => (r.frames.find? fun f => f.take == t.take && f.index == index).elim 0 FrameEntry.serial
  | none => 0

/-- The tiles of a geometry. -/
def entryTiles (t : TakeEntry) : Nat := t.width / 64 * (t.height / 32)

/-- The fields of READ_TILES are in range (R413). -/
def readTilesOk (c : Cmd) : Bool :=
  decide (c.b 16 < 2) && decide (c.b 17 < 2) && zeroBytes c.desc 18 20 && decide (1 ≤ c.w 32)
    && decide (c.w 32 ≤ 86400) && c.d 36 % 64 == 0 && c.d 44 % 64 == 0 && zeroBytes c.desc 52 64

/-- The pages read for a tile of a frame. The frame check of a version 2 reel takes every tile of the frame there (R365). -/
def State.tilePages (s : State) (ports : List Nat) (take serial tile : Nat) : List PageWant :=
  let part := fun p (g : Segment) k => match (s.port p).startOf g.serial with
    | some a => (tileRanges g k).flatMap fun x => s.segPages p g.serial a x.1 x.2
    | none => []
  let own := match s.findTile ports take serial tile with | some (p, g, k) => part p g k | none => []
  let all := (ports.filter fun p => s.reelVersion p == 2).flatMap fun p => match (s.port p).reel with
    | some r => (r.segs.filter fun y => y.1 == take && y.2.1 == serial).flatMap fun y => match s.segment p y.2.2.serial with
      | some g => (List.range g.tiles.length).flatMap (part p g)
      | none => []
    | none => []
  own ++ all

/-- The segments of a sidecar file that hold the bytes a READ_RANGE asks for, and how many bytes it writes (R424). -/
def sidecarPart (c : Cmd) (x : SidecarEntry × List SegEntry) : List SegEntry × Nat :=
  let n := min (c.w 28) (ceilDiv (x.1.length - c.w 24) 64 * 64)
  let first := c.w 24 / 1048512
  ((x.2.drop first).take (ceilDiv (c.w 24 + n) 1048512 - first), n)

/-- The sidecar a READ_RANGE names. -/
def State.sidecarOf (s : State) (c : Cmd) : Option (SidecarEntry × List SegEntry) :=
  (s.port (c.b 16)).reel.bind fun r => r.sidecars.find? fun x => x.1.number == c.w 20

/-- The file that a READ_RANGE had found at its decode (R426, R427). -/
def Cmd.file (c : Cmd) : Option (SidecarEntry × List SegEntry) := match c.seen with | .file x => x | _ => none

/-- One unit of a read, in the order of delivery (R423, R424): a tile of a frame with its place in host memory, or 64 bytes of a file. -/
inductive ReadUnit where
  | tile (serial tile data rec : Nat)
  | bytes (off host : Nat)
  deriving DecidableEq, Repr

/-- The units of a read. -/
def State.readUnits (s : State) (c : Cmd) : List ReadUnit :=
  let p := c.b 16
  if c.opcode = 0x13 ∧ c.b 17 = 1 then
    match c.file with
    | some x => (List.range ((sidecarPart c x).2 / 64)).map fun i => .bytes (c.w 24 + 64 * i) (c.d 36 + 64 * i)
    | none => []
  else match s.takeOf p (c.w 20) with
    | none => []
    | some t =>
      if c.opcode = 0x12 then
        let f := s.frameSerial p t (c.w 24)
        (List.range (c.w 32)).map fun i => .tile f (c.w 28 + i) (c.d 36 + 4096 * i) (c.d 44 + 16 * i)
      else
        let n := entryTiles t
        (List.range (c.w 28)).flatMap fun k =>
          let f := s.frameSerial p t (c.w 24 + k)
          (List.range n).map fun i => .tile f i (c.d 36 + (k * c.w 32 + i) * 4096) (c.d 44 + (k * n + i) * 16)

/-- The ports of the take a read names. -/
def State.readPorts (s : State) (c : Cmd) : List Nat :=
  match s.takeOf (c.b 16) (c.w 20) with | some t => takePorts (c.b 16) t | none => []

/-- The pages of one unit. -/
def State.unitPagesOf (s : State) (c : Cmd) (u : ReadUnit) : List PageWant :=
  match u with
  | .tile f i _ _ => s.tilePages (s.readPorts c) (c.w 20) f i
  | .bytes off _ => match c.file.bind fun x => x.2[off / 1048512]? with
    | some g => s.segPages (c.b 16) g.serial g.start (64 + off % 1048512) (128 + off % 1048512)
    | none => []

/-- One unit written to host memory (R423, R424): of an absent tile the record alone; beyond the end of a file zeros. -/
def State.deliver (s : State) (c : Cmd) (w : ReadWork) (u : ReadUnit) : State × ReadWork :=
  match u with
  | .tile f i data rec =>
    let ports := s.readPorts c
    let bad := ports.filter fun p => s.reelVersion p == 2 && s.frameCheckBad w.lost p (c.w 20) f
    let r := s.readTile w.lost ports bad (c.w 20) f i
    let t := r.1.emit (.hostWrite rec r.2.1)
    if !recPresent r.2.1 then (t, { w with next := w.next + 1 })
    else (t.emit (.hostWrite data (if c.opcode = 0x13 ∨ bitOf (c.b 17) 0 = true then r.2.2.1 else r.2.2.2)),
      { w with next := w.next + 1, present := w.present + 1, damaged := w.damaged + b2n (recDamaged r.2.1) })
  | .bytes off host =>
    let p := c.b 16
    let at_ := off % 1048512
    let b := match c.file.bind fun x => x.2[off / 1048512]? with
      | some g =>
        let there := bytesAt ((s.segment p g.serial).elim [] Segment.file) at_ 64
        if cwsWhole w.lost p g.serial (64 + at_) (128 + at_) then there else s.badBytes 64
      | none => []
    let left := match c.file with | some x => x.1.length - off | none => 0
    ((s.emit (.hostWrite host (padTo 64 (b.take left)))).tick, { w with next := w.next + 1 })

/-- A read in hand. -/
def State.readWork (s : State) (id : Nat) : Option ReadWork := s.stor.reads.find? fun w => w.cmd == id

/-- The units a read has written so far, counted as its spec0 counts them: present tiles, whole frames, or bytes (R413, R431; log 118). -/
def State.readCount (s : State) (c : Cmd) (w : ReadWork) : Nat :=
  if c.opcode = 0x12 then w.present
  else if c.b 17 = 0 then w.next / max 1 ((s.takeOf (c.b 16) (c.w 20)).elim 1 entryTiles)
  else 64 * w.next

/-- A read goes on as far as the pages of its units have been read, each unit in turn, and completes after the last (R423, R424, R430). -/
def State.readOn (s : State) (c : Cmd) (l : List ReadUnit) : State :=
  match l, s.readWork c.id with
  | _, none => s
  | [], some w =>
    (s.complete c.id St.OK (s.readCount c w) w.damaged).updStor fun x => { x with reads := x.reads.filter fun y => y.cmd ≠ c.id }
  | u :: us, some w =>
    if (s.unitPagesOf c u).any fun g => w.unread.any fun y => y.port == g.port && y.serial == g.serial && y.k == g.k then s
    else
      let r := s.deliver c w u
      (((r.1.updStor fun x => { x with reads := x.reads.map fun y => if y.cmd = c.id then r.2 else y }).updCmd c.id fun c =>
        { c with units := s.readCount c r.2 })).readOn c us

/-- A read goes to the dies in class 2 (R308): each page its units need is read once. -/
def State.startRead (s : State) (c : Cmd) : State :=
  let l := ((s.readUnits c).flatMap (s.unitPagesOf c)).eraseDups
  let t := s.updStor fun x => { x with reads := x.reads ++ [{ cmd := c.id, unread := l, lost := [], next := 0, present := 0, damaged := 0 }] }
  (t.each [0, 1] fun s p => s.addOps p ((l.filter fun y => y.port == p).map fun y =>
    { die := y.place.die, block := y.place.block, cls := 2, kind := .fetch y.place.wl y.page c.id, running := false })).readOn c (s.readUnits c)

/-- One page of a read has been read: what of it is lost is noted, and the read goes on. -/
def State.readPart (s : State) (p id : Nat) (z : PuPlace) (page : Nat) : State :=
  s.withCmd id fun c s => match s.readWork id with
    | none => s
    | some w =>
      let here := fun y : PageWant => y.port == p && y.place == z && y.page == page
      let lost := (w.unread.filter here).flatMap fun y => (s.lostCws p y.serial y.k z page).map fun n => (p, y.serial, n)
      let w1 := { w with unread := w.unread.filter fun y => !here y, lost := w.lost ++ lost }
      (s.updStor fun x => { x with reads := x.reads.map fun y => if y.cmd = id then w1 else y }).readOn c ((s.readUnits c).drop w.next)

/-- The frames a read's take had committed at its decode (R422). -/
def Cmd.framesSeen (c : Cmd) : Nat := match c.seen with | .frames n => n | _ => 0

/-- READ_TILES (R422, R423). -/
def execReadTiles (id : Nat) (s : State) : Out :=
  .next (s.storCmd id 0x12 readTilesOk fun c s =>
    let p := c.b 16
    if !s.portFor id p then s.complete id St.MAG_NOT_READY
    else match s.takeOf p (c.w 20) with
      | none => s.complete id St.TAKE_UNKNOWN
      | some t =>
        if c.framesSeen ≤ c.w 24 then s.complete id St.FRAME_UNKNOWN
        else if entryTiles t < c.w 28 + c.w 32 then s.complete id St.STOR_BAD_FIELD
        else if s.partnerGone p t then s.complete id St.PARTNER_MISSING
        else s.startRead c)

/-- READ_RANGE of sidecar bytes (R422, R424). -/
def State.readSidecar (s : State) (id : Nat) (c : Cmd) : State :=
  match c.file with
  | none => s.complete id St.SIDECAR_UNKNOWN
  | some x => if x.1.length ≤ c.w 24 then s.complete id St.STOR_BAD_FIELD else s.startRead c

/-- READ_RANGE of whole frames (R422, R424). -/
def State.readFrames (s : State) (id : Nat) (c : Cmd) : State :=
  let p := c.b 16
  match s.takeOf p (c.w 20) with
  | none => s.complete id St.TAKE_UNKNOWN
  | some t =>
    if c.framesSeen < c.w 24 + c.w 28 then s.complete id St.FRAME_UNKNOWN
    else if c.w 32 < entryTiles t then s.complete id St.STOR_BAD_FIELD
    else if s.partnerGone p t then s.complete id St.PARTNER_MISSING
    else s.startRead c

/-- The fields of READ_RANGE are in range (R413). -/
def readRangeOk (c : Cmd) : Bool :=
  decide (c.b 16 < 2) && decide (c.b 17 < 2) && zeroBytes c.desc 18 20 && c.d 36 % 64 == 0
    && zeroBytes c.desc 52 64 && (if c.b 17 = 0 then decide (1 ≤ c.w 28) && decide (c.w 28 ≤ 256) && c.d 44 % 64 == 0
    else c.w 24 % 64 == 0 && c.w 28 != 0 && c.w 28 % 64 == 0 && zeroBytes c.desc 32 36 && zeroBytes c.desc 44 52)

/-- READ_RANGE (R422, R424). -/
def execReadRange (id : Nat) (s : State) : Out :=
  .next (s.storCmd id 0x13 readRangeOk fun c s =>
    if !s.portFor id (c.b 16) then s.complete id St.MAG_NOT_READY
    else if c.b 17 = 0 then s.readFrames id c else s.readSidecar id c)

/-! ### DIE_OP_COMPLETE -/

/-- An operation of a die has ended with a result: it leaves the queue, whose places the waiting ones take, and its kind says what follows. -/
def State.opEnded (s : State) (p : Nat) (o : DieOp) (r : DieResult) : State :=
  let ok := r ≠ .failed
  let t := (s.updPort p fun x => { x with
    ops := x.ops.filter (fun y => !(y.die == o.die && y.running)), pfwEnded := x.pfwEnded + b2n (x.pfw && o.programs) }).refill p
  let read := fun wl page => match r with
    | .read l => t.updMag p fun m => m.condition { die := o.die, block := o.block, wl := wl } page l
    | _ => t
  let t1 := match o.kind with
    | .unit st sl => t.unitEnded p st sl ok
    | .ledger rec copy page => t.ledgerEnded p o.die o.block rec copy page ok
    | .slc page c => t.slcEnded p o.die o.block page c ok
    | .erase admin => t.eraseEnded p o.die o.block admin ok
    | .read wl page serial => (read wl page).readEnded p o.die o.block wl page serial
    | .fetch wl page id =>
      let z : PuPlace := { die := o.die, block := o.block, wl := wl }
      ((((read wl page).pageRead p z page).readPart p id z page).mountPart p id z page)
    | .look _ => t.lookEnded p
  let t2 := (t1.adminGroups p).whenB (s.port p).unmount.isSome fun t => t.bump F.STOR_ADMIN_DONE_value p
  (((t2.reclaim p).mountChecks).unmountCheck p).opsStatus p

/-- The operation that runs on a die of a port. -/
def State.runningOp (s : State) (p die : Nat) : Option DieOp := (s.port p).ops.find? fun o => o.die == die && o.running

/-- DIE_OP_COMPLETE (R307): the running operation of a die ends with its status, and one that waited for room joins the queue. -/
def execDieOpComplete (p die : Nat) (r : DieResult) (s : State) : Out :=
  match s.runningOp p die with
  | none => .next s
  | some o => .next (s.opEnded p o r)

/-! ### WRITE_SIDECAR -/

/-- The ports a WRITE_SIDECAR names. -/
def sidePorts (c : Cmd) : List Nat := placePorts (c.b 16)

/-- The checks of R425 on a reel. -/
def State.sideStatus (s : State) (id p take : Nat) : Nat :=
  if !s.portFor id p then St.MAG_NOT_READY
  else if s.reelReadOnly p then St.REEL_READ_ONLY
  else if s.reelVersion p ≠ 3 then St.REEL_VERSION
  else if take ≠ 0 ∧ (s.takeOf p take).isNone then St.TAKE_UNKNOWN
  else St.OK

/-- A sidecar goes to a port as segments of its own (R350, R425). -/
def State.sideStart (s : State) (id p : Nat) (c : Cmd) (file : List Byte) : State :=
  let x := s.port p
  match x.reel with
  | none => s
  | some r =>
    let number := listMax (r.sidecars.map (fun y => y.1.number) ++ x.sides.map fun w => w.2.1.number) + 1
    let parts := pieces (ceilDiv file.length 1048512) 1048512 file
    let e : SidecarEntry := { name := bytesAt c.desc 36 28, take := c.w 20, length := file.length, number := number, secs := s.nowSecs }
    let tasks := (withIndex parts).map fun y =>
      let g : Segment :=
        { version := 3, sidecar := true, half := p, packed := false, last := y.1 + 1 == parts.length, encrypted := r.hdr.encrypted, easel := 0,
          id := r.hdr.id, serial := 0, owner := number, frame := 0, ordinal := y.1, tseg := 0, tiles := [], file := y.2 }
      ({ seg := g, src := .inner, cmd := some id, reloc := false, start := none, put := 0, dead := false } : SegTask)
    s.updPort p fun x => { x with tasks := x.tasks ++ tasks, sides := x.sides ++ [(id, e, parts.length)] }

/-- The next byte of UTF-8: the bytes that still follow, and the range the next of them lies in. -/
def utf8Step (st : Option (Nat × Nat × Nat)) (b : Byte) : Option (Nat × Nat × Nat) :=
  let v := b.toNat
  match st with
  | none => none
  | some (n + 1, lo, hi) => if lo ≤ v ∧ v ≤ hi then some (n, 0x80, 0xBF) else none
  | some (0, _, _) =>
    if v < 0x80 then some (0, 0x80, 0xBF)
    else if 0xC2 ≤ v ∧ v ≤ 0xDF then some (1, 0x80, 0xBF)
    else if 0xE0 ≤ v ∧ v ≤ 0xEF then some (2, if v = 0xE0 then 0xA0 else 0x80, if v = 0xED then 0x9F else 0xBF)
    else if 0xF0 ≤ v ∧ v ≤ 0xF4 then some (3, if v = 0xF0 then 0x90 else 0x80, if v = 0xF4 then 0x8F else 0xBF)
    else none

/-- A name: one or more bytes of UTF-8, then zeros. -/
def nameOk (l : List Byte) : Bool :=
  let n := l.takeWhile (· ≠ 0)
  !n.isEmpty && (l.drop n.length).all (· == 0) && (match n.foldl utf8Step (some (0, 0x80, 0xBF)) with | some (0, _, _) => true | _ => false)

/-- The fields of WRITE_SIDECAR are in range (R413). -/
def sidecarOk (c : Cmd) : Bool :=
  decide (c.b 16 < 3) && zeroBytes c.desc 17 20 && c.d 24 % 64 == 0 && decide (1 ≤ c.w 32)
    && decide (c.w 32 ≤ 67104768) && nameOk (bytesAt c.desc 36 28)

/-- WRITE_SIDECAR (R425): data is the file as read from host memory. -/
def execWriteSidecar (id : Nat) (data : List Byte) (s : State) : Out :=
  .next (s.storCmd id 0x14 sidecarOk fun c s =>
    let ps := sidePorts c
    let file := padTo (c.w 32) (data.take (c.w 32))
    let any := ps.any fun p => s.sideStatus id p (c.w 20) = St.OK
    let s1 := (s.whenB any fun s => s.emit (.hostRead (c.d 24) (c.w 32))).updStor fun x => { x with sideCmds := x.sideCmds ++ [(id, ps, 0, [0, 0])] }
    (ps.foldl (fun (t : State) p =>
      let st := s.sideStatus id p (c.w 20)
      if st = St.OK then t.sideStart id p c file else t.sidePart id p st 0) s1).tick)

/-! ### FLUSH -/

/-- The fields of FLUSH are in range (R413). -/
def flushOk (c : Cmd) : Bool :=
  decide (c.b 16 < 4) && zeroBytes c.desc 17 64

/-- FLUSH (R428). -/
def execFlush (id : Nat) (s : State) : Out :=
  .next (((s.storCmd id 0x15 flushOk fun c s =>
    let ps := [0, 1].filter fun p => if c.b 16 = 0 then s.mounted p else bitOf (c.b 16) p
    if !ps.all (s.portFor id) then s.complete id St.MAG_NOT_READY
    else
      let w := match c.seen with | .flush f n => (f, n) | _ => ([], [])
      (s.updStor fun x => { x with
        flushes := x.flushes ++ [(id, w.1, w.2, 0)],
        ports := (withIndex x.ports).map fun y => if ps.contains y.1 then { y.2 with pad := true } else y.2 }))).flushCheck)

/-! ### MOUNT, UNMOUNT, FORMAT, SANITIZE -/

/-- The fields of MOUNT are in range (R413). -/
def mountOk (c : Cmd) : Bool :=
  decide (c.b 16 < 2) && decide (c.b 17 < 2) && zeroBytes c.desc 18 64

/-- MOUNT (R436). -/
def execMount (id : Nat) (s : State) : Out :=
  .next (s.storCmd id 0x18 mountOk fun c s =>
    let p := c.b 16
    if s.portReady p then (s.mountRun p id (bitOf (c.b 17) 0)).mountChecks else s.complete id St.MAG_NOT_READY)

/-- The fields of UNMOUNT are in range (R413). -/
def unmountOk (c : Cmd) : Bool :=
  decide (c.b 16 < 2) && zeroBytes c.desc 17 64

/-- UNMOUNT (R437). -/
def execUnmount (id : Nat) (s : State) : Out :=
  .next (s.storCmd id 0x19 unmountOk fun c s =>
    let p := c.b 16
    if !s.portUsable p then s.complete id St.MAG_NOT_READY
    else if s.portTakeOpen p then s.complete id St.PORT_BUSY
    else
      let t := ((((s.updPort p fun x => { x with unmount := some id }).wr F.STOR_ADMIN_STATUS_op 2 p).wr F.STOR_ADMIN_STATUS_phase 1 p).wr
        F.STOR_ADMIN_DONE_value 0 p).wr F.STOR_ADMIN_TOTAL_value (s.port p).allOps.length p
      t.unmountCheck p)

/-- What a FORMAT or SANITIZE finds on the magazine: the generation in force and the bad blocks its reel lists (R371). -/
def formatBase (m : Magazine) : Nat × List Retired :=
  match headerInForce m with
  | none => (0, [])
  | some h =>
    let l := ledgerPages m h.2.2.id
    (h.2.2.generation, (replay l (l.length + 1) (replayStart (l.map fun y => y.2.2)) (Reel.blank h.2.2 []) 0 0).1.retired)

/-- The header a FORMAT or SANITIZE writes (R334). -/
def newHeader (m : Magazine) (version generation : Nat) (enc san : Bool) (rid : ReelId) (n : Nat) (bad : List Retired) (kid : Nat)
    (wrapped : List Byte) : ReelHeader :=
  { version := version, encrypted := enc, sanitised := san, generation := generation, id := rid, blocks := m.ident.blocks, planes := m.ident.planes,
    shot := m.ident.shot, wl := m.ident.wl, diesCh := m.ident.diesCh, ledgerN := n,
    ledger0 := (List.range 16).map fun d => (ledgerBlocks m bad n d).headD 0, keyId := kid, wrapped := wrapped }

/-- The fields of FORMAT are in range (R413). -/
def formatOk (c : Cmd) : Bool :=
  decide (c.b 16 < 2) && decide (c.b 17 < 4) && !(bitOf (c.b 17) 0 && c.w 28 == 0)
    && (c.b 32 == 0 || (decide (16 ≤ c.b 32) && decide (c.b 32 ≤ 64))) && zeroBytes c.desc 33 64

/-- FORMAT (R366, R368, R371, R438). -/
def execFormat (id : Nat) (s : State) : Out :=
  .next (s.storCmd id 0x1A formatOk fun c s =>
    let p := c.b 16
    let enc := bitOf (c.b 17) 0
    let v2 := bitOf (c.b 17) 1
    let kek := (s.prodKeys.find? fun k => k.1 == c.w 28).map Prod.snd
    match (s.port p).mag with
    | none => s.complete id St.MAG_NOT_READY
    | some m =>
      if !s.portReady p then s.complete id St.MAG_NOT_READY
      else if (enc && v2) || (v2 && c.d 20 != 0) || (!v2 && c.d 20 == 0) then s.complete id St.STOR_BAD_FIELD
      else if enc && kek.isNone then s.complete id St.REEL_KEY_MISSING
      else if enc && s.on F.SES_STATUS_rng_fail then s.complete id Config.rngFailStatus.toNat
      else
        let base := formatBase m
        let wrapped := if enc then keyWrap (kek.getD []) (s.random 64) else []
        let hdr := newHeader m (if v2 then 2 else 3) (base.1 + 1) enc false { roll := c.d 20, reel := c.h 18, secs := s.nowSecs }
          (if c.b 32 = 0 then 32 else c.b 32) base.2 (if enc then c.w 28 else 0) wrapped
        s.tick.adminStart p id false hdr m base.2)

/-- The fields of SANITIZE are in range (R413). -/
def sanitizeOk (c : Cmd) : Bool :=
  decide (c.b 16 < 2) && zeroBytes c.desc 17 64

/-- SANITIZE (R371, R373, R438). -/
def execSanitize (id : Nat) (s : State) : Out :=
  .next (s.storCmd id 0x1B sanitizeOk fun c s =>
    let p := c.b 16
    match (s.port p).mag with
    | none => s.complete id St.MAG_NOT_READY
    | some m =>
      if !s.portReady p then s.complete id St.MAG_NOT_READY
      else
        let base := formatBase m
        let old := (headerInForce m).map fun h => h.2.2
        let hdr := newHeader m 3 (base.1 + 1) false true ReelId.zero (old.elim 32 ReelHeader.ledgerN) base.2 0 []
        s.adminStart p id true hdr m base.2)

/-! ### IDENTIFY_REEL and GET_LOG -/

/-- The 256 bytes of IDENTIFY_REEL (R440). -/
def State.identify (s : State) (p : Nat) (h : ReelHeader) : List Byte :=
  let x := s.port p
  let live := s.mounted p
  let r := if live then x.reel else none
  let used := match r with | some _ => (x.valid (s.on F.REEL_STATUS_pair_pending p)).length | none => 0
  padTo 256 (h.id.bytes ++ le 2 h.version ++ le 2 (b2n h.encrypted + 2 * b2n h.sanitised) ++ le 4 h.generation ++ le 1 (s.portState p)
    ++ le 1 (s.regWord R.REEL_STATUS p) ++ le 2 0 ++ le 4 h.keyId ++ le 4 (r.elim 0 fun r => r.takes.length) ++ le 4 (r.elim 0 fun r => r.sidecars.length)
    ++ le 4 (s.rd F.MAG_SEGMENTS_segments p) ++ le 4 (if live then s.rd F.MAG_SEGMENTS_segments p - used else 0)
    ++ le 8 (if live then x.ledger.seq else 0))

/-- The fields of IDENTIFY_REEL are in range (R413). -/
def identifyOk (c : Cmd) : Bool :=
  decide (c.b 16 < 2) && zeroBytes c.desc 17 24 && c.d 24 % 64 == 0 && zeroBytes c.desc 32 64

/-- IDENTIFY_REEL (R440): a port that resumes unfinished work answers no other command (R372), and one that an earlier UNMOUNT drains none
decoded later (R437). -/
def execIdentifyReel (id : Nat) (s : State) : Out :=
  .next (s.storCmd id 0x1C identifyOk fun c s =>
    let p := c.b 16
    match (s.port p).mag with
    | none => s.complete id St.MAG_NOT_READY
    | some m =>
      if !(s.portState p == 3 || s.portState p == 4 || s.portState p == 5) || (s.port p).admin.any (fun a => a.cmd.isNone)
          || !(s.port p).unmount.all fun u => decide (id < u) then s.complete id St.MAG_NOT_READY
      else match headerInForce m with
        | none => s.complete id St.REEL_NO_HEADER
        | some h => (s.emit (.hostWrite (c.d 24) (s.identify p h.2.2))).complete id St.OK)

/-- A list put in ascending order of a key. -/
def byKey {α : Type} (key : α → Nat) (l : List α) : List α :=
  (sortNat ((l.map key).eraseDups)).flatMap fun k => l.filter fun x => key x == k

/-- The entries of a log (R441). -/
def Reel.log (r : Reel) (kind take : Nat) : List (List Byte) :=
  if kind = 1 then (byKey TakeEntry.take r.takes).map TakeEntry.bytes
  else if kind = 2 then (byKey (fun x => x.1.number) r.sidecars).map fun x => x.1.bytes x.2.length
  else if kind = 3 then (byKey FrameEntry.index (r.frames.filter fun f => f.take == take)).map FrameEntry.bytes
  else r.retired.map Retired.bytes

/-- The size of a log's entry. -/
def logSize (kind : Nat) : Nat := if kind = 3 then 48 else if kind = 4 then 8 else 64

/-- The fields of GET_LOG are in range (R413). -/
def getLogOk (c : Cmd) : Bool :=
  decide (c.b 16 < 2) && decide (1 ≤ c.b 17) && decide (c.b 17 ≤ 4) && zeroBytes c.desc 18 20
    && c.d 32 % 64 == 0 && c.w 40 != 0 && c.w 40 % 64 == 0 && zeroBytes c.desc 44 64

/-- GET_LOG (R441). -/
def execGetLog (id : Nat) (s : State) : Out :=
  .next (s.storCmd id 0x1D getLogOk fun c s =>
    let p := c.b 16
    match (s.port p).reel with
    | none => s.complete id St.MAG_NOT_READY
    | some r =>
      if !s.portFor id p then s.complete id St.MAG_NOT_READY
      else
        let rest := (r.log (c.b 17) (c.w 20)).drop (c.w 24)
        let n := min (c.w 28) (min (c.w 40 / logSize (c.b 17)) rest.length)
        let bs := (rest.take n).flatten
        (s.emit (.hostWrite (c.d 32) (padTo (ceilDiv bs.length 64 * 64) bs))).complete id St.OK n rest.length)

/-! ### What a decode brings about -/

/-- What a storage command sees at its decode: a read the committed frames of its take, or the sidecar file it names (R422, R426, R427); a FLUSH what
it waits for (R428). -/
def State.seenBy (s : State) (c : Cmd) : AtDecode :=
  if c.opcode = 0x12 ∨ (c.opcode = 0x13 ∧ c.b 17 = 0) then
    match s.takeOf (c.b 16) (c.w 20) with | some t => .frames (s.committed (c.b 16) t) | none => .none
  else if c.opcode = 0x13 then .file (s.sidecarOf c)
  else if c.opcode = 0x15 then
    let ps := [0, 1].filter fun p => if c.b 16 = 0 then s.mounted p else bitOf (c.b 16) p
    let es := (List.range 4).filter fun e => s.takeOpen e && (s.take e).ports.any ps.contains
    let dry := fun e (f : TakeFrame) => f.settled.isSome || match s.frame e f.serial with | some y => y.isDry | none => false
    .flush (es.flatMap fun e => ((s.take e).frames.filter (dry e)).map fun f => (e, f.serial))
      (ps.flatMap fun p => ((s.port p).units.map ProgUnit.stripe).eraseDups.map fun n => (p, n))
  else .none

/-- The take of a TAKE_CLOSE goes on to its end at the decode, unless an earlier TAKE_OPEN or TAKE_CLOSE of the easel must act first (R419, R420,
R427). -/
def State.closeAtDecode (s : State) (c : Cmd) : State :=
  let e := c.b 16
  let st := s.rd F.TAKE_STATUS_state e
  if c.opcode = 0x11 ∧ c.stage = .ready ∧ takeCloseOk c = true ∧ s.takeTurn c.id = true ∧ s.rd F.TAKE_NUMBER_value e = c.w 20 ∧ 1 ≤ st ∧ st ≤ 3 then
    let t := s.updTake e fun x => { x with closeCmds := x.closeCmds ++ [c.id] }
    if st = 2 then t.startClose e else t
  else s

/-- A command has been decoded. -/
def State.atDecode (s : State) (id : Nat) : State :=
  match s.cmd id with
  | some c => if c.stage = .ended then s else (s.updCmd id fun c => { c with seen := s.seenBy c }).closeAtDecode c
  | none => s

/-- DESCRIPTOR_DECODE (R385, R388): nothing is decoded while 4,096 commands are outstanding, while West is in quiet, or
while a firmware activation drains the device (R435, R579). -/
def execDescriptorDecode (s : State) : Out :=
  if 4096 ≤ s.outstanding.length ∨ s.quiet 0 = true ∨ s.host.cmds.any (fun c => c.opcode == 0x45 && c.stage == .running) = true then .next s
  else match s.decodeRing with
    | none => .next s
    | some r => match (s.ring r).fetched with
      | [] => .next s
      | d :: _ => .next ((s.decodeOne r d).atDecode s.host.nextId)

/-! ### Records that end commands -/

/-- Records have been written: what waits for earlier commands to end goes on (R428, R437). -/
def State.recordsWritten (s : State) : State := ((s.unmountCheck 0).unmountCheck 1).flushCheck

/-- DOORBELL_PAGE_RETURN (R380, R381): of the oldest poll in flight (log 137) the page is acted on whole, queue heads first; an error completion is counted. -/
def execDoorbellPageReturn (page : Option (List Nat)) (s : State) : Out :=
  match s.host.polls, page with
  | [], _ => .next s
  | _ :: l, none => .next ((s.flagCount F.RING_FLAGS_host_err F.RING_CNT_host_err).updHost fun h => { h with polls := l })
  | rings :: l, some p =>
    let s1 := (s.updHost fun h => { h with polls := l }).each (List.range 16) (State.pollQueue p)
    let s2 := s1.each rings (State.pollRing p)
    let s3 := s2.each (List.range 32) (State.pollBarrow p)
    let page' := (List.range 64).map fun k =>
      if decide (k < 16) && !rings.contains k then s3.host.page.getD k 0 else p.getD k 0 % 65536
    .next (((s3.updHost fun h => { h with page := page' }).checkLost).recordsWritten)

/-- COMPLETION_RECORD_WRITE (R393). -/
def execCompletionRecordWrite (q : Nat) (s : State) : Out := .next (s.whenUp 28 fun s => (s.writeCompletion q).recordsWritten)

end Sys2Proof.Machine
end

