-- ==== Sys2Proof/Machine/Barrows.lean ====
section
/-! DEFINITION. The barrows (spec/11 R400 to R410). -/
namespace Sys2Proof.Machine

/-! ### Channels -/

def State.barrow (s : State) (c : Nat) : BarrowSt := s.host.barrows.getD c BarrowSt.init

def State.updBarrow (s : State) (c : Nat) (f : BarrowSt → BarrowSt) : State :=
  s.updHost fun h => { h with barrows := updAt h.barrows c f }

/-- The address of the descriptor in hand or noted. -/
def State.barrowAt (s : State) (c : Nat) : Nat := s.pair F.BARROW_CH_CUR_LO_value F.BARROW_CH_CUR_HI_value c

/-- A fetch at an address is due. -/
def State.barrowGo (s : State) (c a : Nat) : State :=
  (((s.wr F.BARROW_CH_CUR_LO_value a c).wr F.BARROW_CH_CUR_HI_value (a / 4294967296) c).wr F.BARROW_CH_STATUS_state 1 c).updBarrow c fun b =>
    { b with fetch := true, cur := none, waits := [], reread := false }

/-- A fetch at BARROW_CH_HEAD is due (R406). -/
def State.barrowBegin (s : State) (c : Nat) : State :=
  s.barrowGo c (s.pair F.BARROW_CH_HEAD_LO_value F.BARROW_CH_HEAD_HI_value c)

/-- BARROW_BUF follows the chunks held (R400). -/
def State.barrowBuf (s : State) : State :=
  let n := sumOver (s.host.barrows.map BarrowSt.chunks) id
  (s.wr F.BARROW_BUF_used n).peak F.BARROW_BUF_peak n

/-- The slot parts and the chunks a descriptor holds are released (R285, R400). -/
def State.barrowRelease (s : State) (c : Nat) : State :=
  (((s.barrow c).holds.foldl (fun (s : State) h => s.releaseHold h.1 h.2.1 h.2.2 (.barrow c)) s).updBarrow c fun b =>
    { b with holds := [], engine := false, chunks := 0 }).barrowBuf

/-- A descriptor takes chunks: at most 64, of the 512 that no other holds (R400). -/
def State.barrowTake (s : State) (c : Nat) : State :=
  let free := 512 - sumOver (s.host.barrows.map BarrowSt.chunks) id
  ((s.updBarrow c fun b => { b with chunks := min free (min 64 (Config.barrowChunks s.fresh)) }).barrowBuf).tick

/-- A completion record of a channel (R392). -/
def State.barrowPost (s : State) (c tag status spec0 spec1 : Nat) : State :=
  s.post { event := false, half := 0, cq := s.rd F.BARROW_CH_CTRL_cq c, tag := tag, source := 64 + c, status := status,
           spec0 := spec0 % 4294967296, spec1 := spec1 % 4294967296, ring := none, cmd := none, payload := [], stamp := none, step := 0,
           quiet := false, full := false }

/-- A channel halts (R402, R403): its halt record, flags and event. -/
def State.barrowHalt (s : State) (c status : Nat) : State :=
  let a := s.barrowAt c
  let tag := (s.barrow c).cur.elim 0 BarrowDesc.tag
  let t := ((s.barrowRelease c).updBarrow c fun b => { b with fetch := false, cur := none, waits := [], reread := false }).flagCount
    F.BARROW_FLAGS_halt F.BARROW_CNT_halt
  let t1 := if status = St.BARROW_HOST_ERR then t.flagCount F.BARROW_FLAGS_host_err F.BARROW_CNT_host_err else t
  (((t1.wr F.BARROW_CH_STATUS_state 3 c).wr F.BARROW_CH_STATUS_fault status c).barrowPost c tag status a (a / 4294967296)).raise 0 Ev.BARROW_HALT
    (le 1 c ++ le 2 status ++ le 8 a)

/-- Bytes moved, counted in a 64-bit pair that saturates. -/
def State.barrowBytes (s : State) (c n : Nat) : State :=
  let v := min (2 ^ 64 - 1) (s.pair F.BARROW_CH_BYTES_LO_value F.BARROW_CH_BYTES_HI_value c + n)
  (s.wr F.BARROW_CH_BYTES_LO_value v c).wr F.BARROW_CH_BYTES_HI_value (v / 4294967296) c

/-! ### Descriptors -/

/-- A descriptor from its 64 bytes (R401). -/
def barrowDesc (addr : Nat) (b : List Byte) : BarrowDesc :=
  { addr := addr, ctl := fieldAt b 0 8, host := fieldAt b 8 8, hbm := fieldAt b 16 8, length := fieldAt b 24 4, tag := fieldAt b 28 2,
    op := fieldAt b 30 1, hbmRec := fieldAt b 32 8, hostRec := fieldAt b 40 8 }

/-- The Tile Records an op 1 descriptor reads. -/
def BarrowDesc.recBytes (d : BarrowDesc) : Nat := 16 * (d.length / 4096)

/-- A descriptor moves tiles. -/
def BarrowDesc.tiles (d : BarrowDesc) : Bool := d.op % 4 == 1

/-- The checks of R402 and R403 in the order structure, alignment, address: the status, or 0. -/
def State.barrowBad (s : State) (c : Nat) (b : List Byte) (d : BarrowDesc) : Nat :=
  let toHost := s.on F.BARROW_CH_CTRL_dir c
  if bitsOf d.ctl 5 1 ≠ 0 ∨ 8 ≤ d.op ∨ 2 ≤ d.op % 4 ∨ (fieldAt b 31 1 ≠ 0) ∨ zeroBytes b 48 64 = false ∨ (d.tiles = true ∧ toHost = false) then
    St.BARROW_BAD_DESC
  else if d.host % 64 ≠ 0 ∨ d.hbm % 64 ≠ 0 ∨ d.length = 0 ∨ d.length % 64 ≠ 0 then St.ALIGN
  else if d.tiles = true ∧ (d.hbmRec % 16 ≠ 0 ∨ d.hostRec % 16 ≠ 0 ∨ d.hbm % 4096 ≠ 0 ∨ d.length % 4096 ≠ 0) then St.ALIGN
  else if toHost then
    (if barrowReadable d.hbm d.length && (!d.tiles || barrowReadable d.hbmRec d.recBytes) then St.OK else St.BARROW_ADDR)
  else if hbmValid d.hbm d.length && s.inRegion d.hbm d.length 7 0 then St.OK
  else St.BARROW_ADDR

/-- The slot parts a range of HBM touches: easel, slot, part. -/
def State.partsIn (s : State) (a n : Nat) : List (Nat × Nat × Nat) :=
  (List.range 4).flatMap fun e =>
    let c := s.canvas e
    (List.range c.slots.length).flatMap fun k => [0, 1].filterMap fun p =>
      if c.size ≠ 0 ∧ a < c.part k p + c.size ∧ c.part k p < a + n then some (e, k, p) else none

/-- The channels of a direction that hold an engine (R400). -/
def State.barrowEngines (s : State) (dir : Bool) : List Nat :=
  (List.range 32).filter fun c => (s.barrow c).engine && s.on F.BARROW_CH_CTRL_dir c == dir

/-- A channel has work and no engine: a fetch is due, or its descriptor gave the engine up after 1 MiB (R400). -/
def BarrowSt.waiting (b : BarrowSt) : Bool := b.fetch || b.cur.isSome && !b.engine

/-- The channel of a direction that takes the next free engine, in ascending cyclic order (R400). -/
def State.barrowNext (s : State) (dir : Bool) : Option Nat :=
  nextCyclic 32 (s.host.barrowTurn.getD (b2n dir) 31) fun c => (s.barrow c).waiting && s.on F.BARROW_CH_CTRL_dir c == dir

/-- Channel c is given an engine in its turn (R400), and chunks. With all 8 held, it is the engine of a descriptor of more than 1 MiB that has
moved 1 MiB, which then waits for a free one again: the moment is not seen, and the model has it come when another channel needs the engine
(log 123). -/
def State.barrowEngine (s : State) (c : Nat) : Option State :=
  let dir := s.on F.BARROW_CH_CTRL_dir c
  let long := fun k => match (s.barrow k).cur with | some d => decide (1048576 < d.length) && (s.barrow k).waits.isEmpty | none => false
  let give := fun t : State =>
    ((t.updHost fun h => { h with barrowTurn := h.barrowTurn.set (b2n dir) c }).updBarrow c fun b => { b with engine := true }).barrowTake c
  if s.barrowNext dir != some c then none
  else if (s.barrowEngines dir).length < 8 then some (give s)
  else match (s.barrowEngines dir).find? long with
    | some k => some (give (s.updBarrow k fun b => { b with engine := false, chunks := 0 }))
    | none => none

/-- A frame that a barrow treats as wet (R153, R405): it has not settled, or the notice of it is still to come to the barrows. -/
def State.barrowWet (s : State) (e serial : Nat) : Bool :=
  match s.frame e serial with
  | some f => f.unsettled || s.notices.contains (Consumer.barrow, e, serial)
  | none => false

/-- A frame that was scraped, the barrows knowing it. -/
def State.barrowGone (s : State) (e serial : Nat) : Bool :=
  match s.frame e serial with
  | some f => f.st == .scraped && !s.barrowWet e serial
  | none => false

/-- The descriptor in hand ends (R406): the link is fetched, or the channel parks and compares its doorbell counts (R408). -/
def State.barrowNextDesc (s : State) (c : Nat) (d : BarrowDesc) : State :=
  let t := s.barrowRelease c
  if d.ctl % 2 = 0 then t.barrowGo c (d.ctl / 64 * 64)
  else (t.wr F.BARROW_CH_STATUS_state 2 c).updBarrow c fun b =>
    { b with fetch := false, cur := none, waits := [], reread := b.known != b.recorded }

/-- A descriptor whose canvas frame was scraped (R286): its record is posted whatever its complete bit holds. -/
def State.barrowScraped (s : State) (c : Nat) (d : BarrowDesc) : State :=
  (s.barrowRelease c |>.barrowPost c d.tag St.BARROW_SCRAPED 0 0).barrowNextDesc c d

/-- A descriptor that its channel has read whole (R401 to R403, R405): it halts the channel, or takes its holds and waits for its frames. -/
def State.barrowRead (s : State) (c : Nat) (bs : List Byte) : State :=
  let dir := s.on F.BARROW_CH_CTRL_dir c
  let b := padTo 64 bs
  let d := barrowDesc (s.barrowAt c) b
  let t := s.updBarrow c fun x => { x with cur := some d }
  let bad := t.barrowBad c b d
  if bad ≠ 0 then t.barrowHalt c bad
  else
    let parts := if dir then (t.partsIn d.hbm d.length ++ (if d.tiles then t.partsIn d.hbmRec d.recBytes else [])).eraseDups else []
    let slot := fun e k => (t.canvas e).slots.getD k { st := .free, serial := 0, holds := [] }
    let frames := ((parts.filter fun y => (slot y.1 y.2.1).st != .free).map fun y => (y.1, (slot y.1 y.2.1).serial)).eraseDups
    let t1 := (parts.foldl (fun (s : State) x => s.takeHold x.1 x.2.1 x.2.2 (.barrow c)) t).updBarrow c fun x =>
      { x with holds := parts, waits := frames.filter fun y => t.barrowWet y.1 y.2 }
    if frames.any fun y => t.barrowGone y.1 y.2 then t1.barrowScraped c d else t1

/-- BARROW_DESC_FETCH (R400 to R403, R405, R408): a channel given an engine reads its next descriptor whole. -/
def execBarrowDescFetch (c : Nat) (data : Option (List Byte)) (s : State) : Out :=
  if !s.released 28 || !s.takesWork 0x60 || !(s.barrow c).fetch then .next s
  else match s.barrowEngine c with
    | none => .next s
    | some s1 =>
      let t := (s1.emit (.hostRead (s.barrowAt c) 64)).updBarrow c fun b => { b with fetch := false, recorded := b.known }
      match data with
      | none => .next (t.barrowHalt c St.BARROW_HOST_ERR)
      | some bs => .next (t.barrowRead c bs)

/-- A settle notice of the barrows (R405): descriptors that waited for the frame run on, or end with BARROW_SCRAPED. -/
def State.barrowNotice (s : State) (e serial : Nat) : State :=
  s.each (List.range 32) fun s c =>
    match (s.barrow c).cur, s.frame e serial with
    | some d, some f =>
      if !(s.barrow c).waits.contains (e, serial) then s
      else if f.st = .scraped then s.barrowScraped c d
      else s.updBarrow c fun b => { b with waits := b.waits.filter fun w => w ≠ (e, serial) }
    | _, _ => s

/-- The easel and the tile whose record stands at an HBM address in a canvas slot: the place of a record that cannot be read (R272, R281). -/
def State.tileAt (s : State) (a : Nat) : Option Nat :=
  (List.range 4).findSome? fun e => (List.range (s.canvas e).slots.length).findSome? fun k =>
    (List.range (2 * (s.canvas e).tiles)).find? fun t => (s.canvas e).recAddr k t == a

/-- The easel and the frame whose canvas slot an HBM address lies in. -/
def State.ownerAt (s : State) (a : Nat) : Option (Nat × Nat) :=
  (s.partsIn a 1).head?.bind fun x => ((s.canvas x.1).slots[x.2.1]?).bind fun y => if y.st = .free then none else some (x.1, y.serial)

/-- A Tile Record as a barrow reads it (R272): one that cannot be read counts as present, stored raw and damaged. -/
def State.barrowRecord (s : State) (a : Nat) : List Byte :=
  if s.readable a 16 then s.load a 16 else tileRecord 0 7 ((s.tileAt a).getD 0) 0

/-- One tile moved to host memory (R29 to R31, R272, R404): checked, its record updated. -/
def State.barrowTile (s : State) (d : BarrowDesc) (a : State × Nat) (i : Nat) : State × Nat :=
  let data := s.fetch (d.hbm + 4096 * i) 4096
  let rec0 := s.barrowRecord (d.hbmRec + 16 * i)
  let c := checkTile rec0 data (s.readable (d.hbm + 4096 * i) 4096)
  let seen := ((a.1.hbmRead (d.hbmRec + 16 * i) 16).hbmRead (d.hbm + 4096 * i) 4096).tileSeen .barrow 0 [] rec0 c.2
  let owner := s.ownerAt (d.hbm + 4096 * i)
  let hurt := seen.whenB c.2 fun s => match owner with | some y => s.tileHurt y.1 y.2 | none => s
  let t := hurt.whenB c.2 fun s => s.flagCount F.BARROW_FLAGS_tile_crc F.BARROW_CNT_tile_crc
  ((t.emit (.hostWrite (d.host + 4096 * i) data)).emit (.hostWrite (d.hostRec + 16 * i) c.1), a.2 + b2n (recPresent c.1 && recDamaged c.1))

/-- The first n bytes of a descriptor moved: the state, and the spec words of its record (R404). -/
def State.barrowMove (s : State) (c : Nat) (d : BarrowDesc) (n : Nat) (data : List Byte) : State × Nat × Nat :=
  let up := fun (t : State) (m : Nat) => t.barrowBytes c m
  if d.tiles then
    let r := (List.range (n / 4096)).foldl (s.barrowTile d) (s, 0)
    (up r.1 (n / 4096 * 4096), n / 4096, r.2)
  else if s.on F.BARROW_CH_CTRL_dir c then (up ((s.hbmRead d.hbm n).emit (.hostWrite d.host (s.fetch d.hbm n))) n, n, 0)
  else (up (s.put d.hbm (padTo n (data.take n))) n, n, 0)

/-- What a descriptor reads from HBM waits for its stack (R269, R270). -/
def State.barrowWaits (s : State) (c : Nat) (d : BarrowDesc) : Bool :=
  s.on F.BARROW_CH_CTRL_dir c && (s.hbmWaits d.hbm d.length || d.tiles && s.hbmWaits d.hbmRec d.recBytes)

/-- BARROW_DESC_END (R400, R403, R404, R406, R408): the transfer of the descriptor in hand ends; a channel that gave its engine up takes one
again first. data is what host memory gave; err an error completion after it. -/
def execBarrowDescEnd (c : Nat) (data : List Byte) (err : Bool) (s0 : State) : Out :=
  match (s0.barrow c).cur, (if (s0.barrow c).engine then some s0 else s0.barrowEngine c) with
  | none, _ => .next s0
  | _, none => .next s0
  | some d, some s =>
    if !(s.barrow c).waits.isEmpty || s.barrowWaits c d then .next s0
    else if err && !s.on F.BARROW_CH_CTRL_dir c then
      .next ((s.barrowMove c d (min d.length data.length) data).1.barrowHalt c St.BARROW_HOST_ERR)
    else
      let r := s.barrowMove c d d.length data
      .next ((r.1.whenB (bitOf d.op 2) fun t => t.barrowPost c d.tag St.OK r.2.1 r.2.2).barrowNextDesc c d)

/-- BARROW_CTRL_REREAD (R408): a parked channel re-reads its noted control word once. -/
def execBarrowCtrlReread (c : Nat) (word : Option Nat) (s : State) : Out :=
  if s.rd F.BARROW_CH_STATUS_state c ≠ 2 ∨ (s.barrow c).reread = false then .next s
  else
    let t := (s.emit (.hostRead (s.barrowAt c) 8)).updBarrow c fun b => { b with reread := false, recorded := b.known }
    match word with
    | none => .next (t.barrowHalt c St.BARROW_HOST_ERR)
    | some w => if w % 2 = 1 then .next t else .next (t.barrowGo c (w % 2 ^ 64 / 64 * 64))

/-! ### Writes of BARROW_CH_CTRL -/

/-- A write that changes cq or dir while the channel is enabled is refused. -/
def State.barrowCtrlBad (s : State) (c v : Nat) : Bool :=
  s.on F.BARROW_CH_CTRL_enable c && (bitsOf v 7 4 != s.rd F.BARROW_CH_CTRL_cq c || bitsOf v 1 1 != s.rd F.BARROW_CH_CTRL_dir c)

/-- The fields of a write of BARROW_CH_CTRL. -/
def State.barrowCtrl (s : State) (c v : Nat) : State :=
  ((s.wr F.BARROW_CH_CTRL_cq (bitsOf v 7 4) c).wr F.BARROW_CH_CTRL_dir (bitsOf v 1 1) c).wr F.BARROW_CH_CTRL_enable (v % 2) c

/-- BARROW_CHANNEL_ENABLE (R406): IDLE to RUN. -/
def execBarrowChannelEnable (c v : Nat) (s : State) : Out :=
  if s.barrowCtrlBad c v then .next (s.wr F.BARROW_FLAGS_cfg_refused 1)
  else
    let t := s.barrowCtrl c (setBit v 0 true)
    .next (if s.rd F.BARROW_CH_STATUS_state c = 0 then t.barrowBegin c else t)

/-- A started descriptor stops with what it has moved and completes with BARROW_STOPPED (R406). -/
def State.barrowStop (s : State) (c moved : Nat) (data : List Byte) : State :=
  let t := match (s.barrow c).cur with
    | none => s
    | some d =>
      let r := if (s.barrow c).waits.isEmpty && !s.barrowWaits c d then s.barrowMove c d (min moved d.length) data else (s, 0, 0)
      ((r.1.barrowRelease c).flagCount F.BARROW_FLAGS_stopped F.BARROW_CNT_stopped).barrowPost c d.tag St.BARROW_STOPPED r.2.1 r.2.2
  (t.wr F.BARROW_CH_STATUS_state 0 c).updBarrow c fun b => { BarrowSt.init with known := b.known }

/-- BARROW_CHANNEL_DISABLE (R406): the channel is IDLE. moved and data say how far the current descriptor had come. -/
def execBarrowChannelDisable (c v moved : Nat) (data : List Byte) (s : State) : Out :=
  if s.barrowCtrlBad c v then .next (s.wr F.BARROW_FLAGS_cfg_refused 1)
  else .next ((s.barrowStop c moved data).barrowCtrl c (setBit v 0 false))

/-- BARROW_CHANNEL_RESTART (R406): HALTED to RUN. The same write clears or sets enable as it would without the restart bit. -/
def execBarrowChannelRestart (c v : Nat) (s : State) : Out :=
  if s.barrowCtrlBad c v then .next (s.wr F.BARROW_FLAGS_cfg_refused 1)
  else if v % 2 = 0 then .next ((s.barrowStop c 0 []).barrowCtrl c v)
  else
    let t := s.barrowCtrl c v
    .next (if s.rd F.BARROW_CH_STATUS_state c = 3 ∨ s.rd F.BARROW_CH_STATUS_state c = 0 then t.barrowBegin c else t)

end Sys2Proof.Machine
end

