-- ==== Sys2Proof/Machine/Sketch.lean ====
section
/-! DEFINITION. Stream contexts, sketch cores and reading cores (spec/13). What the HEVC encoder chooses comes with the commands as
coded CTUs and header bits; the rules of the spec on what they may be, which of them are kept, where they go and when are the meaning here. -/
namespace Sys2Proof.Machine

/-! ### Contexts -/

def State.sc (s : State) (x : Nat) : ScSt := s.vcd.ctx.getD x ScSt.init

def State.updVcd (s : State) (f : VcdSt → VcdSt) : State := { s with vcd := f s.vcd }

def State.updSc (s : State) (x : Nat) (f : ScSt → ScSt) : State := s.updVcd fun v => { v with ctx := updAt v.ctx x f }

def State.updPic (s : State) (x : Nat) (f : ScPic → ScPic) : State := s.updSc x fun c => { c with pic := c.pic.map f }

/-- The set of context x in force, its half, view and cores. -/
def State.scView (s : State) (x : Nat) : Nat := regOf (s.sc x).inForce F.VCD_SC_CTRL_view x
def State.scHalf (s : State) (x : Nat) : Nat := regOf (s.sc x).inForce F.VCD_SC_CTRL_half x

/-- The core numbers 0 to 7 of a set, ascending. -/
def scCores (r : RegStore) (x : Nat) : List Nat :=
  ((List.range 4).filter fun k => bitOf (regOf r F.VCD_SC_CTRL_cores x) k).map fun k => k + 4 * regOf r F.VCD_SC_CTRL_half x

/-- A size rounded up to a multiple. -/
def roundUpTo (n m : Nat) : Nat := ceilDiv n m * m

/-- The size of one pool buffer (R451) for a coded size, 4:2:0 or 4:2:2. -/
def poolSize (w h : Nat) (c422 : Bool) : Nat :=
  let n := roundUpTo w 64 * roundUpTo h 64
  roundUpTo (if c422 then 4 * n else 3 * n) 4096

/-- Output size of a view in force, and its 4:2:2. -/
def State.viewWidth (s : State) (v : Nat) : Nat := regOf (s.view v).inForce F.VIEW_OUT_SIZE_x v
def State.viewHeight (s : State) (v : Nat) : Nat := regOf (s.view v).inForce F.VIEW_OUT_SIZE_y v
def State.view422 (s : State) (v : Nat) : Bool := regOf (s.view v).inForce F.VIEW_FMT_format v == 1

/-- CTB columns and rows of a view's coded picture (R444, R446). -/
def State.ctbCols (s : State) (v : Nat) : Nat := ceilDiv (roundUpTo (s.viewWidth v) 8) 64
def State.ctbRows (s : State) (v : Nat) : Nat := ceilDiv (roundUpTo (s.viewHeight v) 8) 64

/-- The partitions of a picture for rate control (R446). -/
def scParts (r : RegStore) (x : Nat) : Nat := if regOf r F.VCD_SC_CTRL_mode x = 2 then 1 else (scCores r x).length

/-- The floor size F of R459. -/
def State.floorSize (s : State) (r : RegStore) (x : Nat) : Nat :=
  let v := regOf r F.VCD_SC_CTRL_view x
  192 + 64 * scParts r x + 6 * (s.ctbCols v * s.ctbRows v)

/-! ### Commits -/

/-- The shadows of a context: every writable register of it but VCD_SC_HOST_HEAD. -/
def State.scShadow (s : State) (x : Nat) : RegStore :=
  (s.shadow 0x01000000 0x0100003C x).filter fun y => y.1.base ≠ F.VCD_SC_HOST_HEAD_value.base

/-- R459, R462 and R465 hold for a set at the view's present size. -/
def State.scCaps (s : State) (r : RegStore) (x : Nat) : Bool :=
  let f := s.floorSize r x
  let cap := regOf r F.VCD_SC_CAP_PIC_bytes x
  let bs := regOf r F.VCD_SC_BS_BASE_LO_value x + 4294967296 * regOf r F.VCD_SC_BS_BASE_HI_value x
  let size := regOf r F.VCD_SC_BS_SIZE_value x * 4096
  decide (f ≤ cap) && decide (regOf r F.VCD_SC_WIN_len x * f ≤ regOf r F.VCD_SC_CAP_WIN_bytes x) && decide (cap + 16384 ≤ size)
    && s.inRegion bs size 6 (regOf r F.VCD_SC_CTRL_half x)
    && (!regOn r F.VCD_SC_CTRL_record x || decide (cap + 4096 ≤ regOf r F.VCD_SC_HOST_SIZE_value x * 4096))

/-- A set with another's QP fields. -/
def withQp (r q : RegStore) : RegStore :=
  r.filter (fun y => y.1.base ≠ F.VCD_SC_QP_aq.base) ++ q.filter fun y => y.1.base = F.VCD_SC_QP_aq.base

/-- Two sets read alike but for the QP. -/
def sameButQp (a b : RegStore) (x : Nat) : Bool :=
  [F.VCD_SC_CTRL_record, F.VCD_SC_CTRL_live, F.VCD_SC_CTRL_lt, F.VCD_SC_CTRL_refresh, F.VCD_SC_CTRL_level_idc, F.VCD_SC_CTRL_tier,
    F.VCD_SC_CTRL_profile, F.VCD_SC_CTRL_mode, F.VCD_SC_CTRL_cores, F.VCD_SC_CTRL_half, F.VCD_SC_CTRL_view, F.VCD_SC_GOP_lt_interval,
    F.VCD_SC_GOP_refresh_cols, F.VCD_SC_GOP_idr_interval, F.VCD_SC_CAP_PIC_bytes, F.VCD_SC_CAP_WIN_bytes, F.VCD_SC_WIN_cq, F.VCD_SC_WIN_len,
    F.VCD_SC_VUI_matrix, F.VCD_SC_VUI_transfer, F.VCD_SC_VUI_primaries, F.VCD_SC_BS_BASE_LO_value, F.VCD_SC_BS_BASE_HI_value,
    F.VCD_SC_BS_SIZE_value, F.VCD_SC_HOST_BASE_LO_value, F.VCD_SC_HOST_BASE_HI_value, F.VCD_SC_HOST_SIZE_value].all fun f =>
      regOf a f x == regOf b f x

/-- VCD_SC_COMMIT (R478): go ignored while one is pending; an open context accepts only a QP change. -/
def execVcdScCommit (x : Nat) (s : State) : Out :=
  let r := s.scShadow x
  if s.on F.VCD_SC_COMMIT_pending x then .next (s.wr F.VCD_SC_FLAGS_cfg_refused 1 x)
  else if s.rd F.VCD_SC_STATUS_state x ≠ 0 then
    if sameButQp r (s.sc x).inForce x then .next (s.updSc x fun c => { c with qp := some r })
    else .next (s.wr F.VCD_SC_FLAGS_cfg_refused 1 x)
  else .next ((s.wr F.VCD_SC_COMMIT_pending 1 x).updSc x fun c => { c with check := some r })

/-- VCD_SC_COMMIT_CHECK_DONE (R278, R459, R462, R465, R478): the set takes effect, or is refused with cfg_bad. It waits for a plan check in
progress. -/
def execVcdScCommitCheckDone (x : Nat) (s : State) : Out :=
  if s.planPending then .next s
  else match (s.sc x).check with
  | none => .next s
  | some r =>
    let old := (s.sc x).inForce
    let t := (s.wr F.VCD_SC_COMMIT_pending 0 x).updSc x fun c => { c with check := none }
    if s.scCaps r x then
      let moved := [F.VCD_SC_HOST_BASE_LO_value, F.VCD_SC_HOST_BASE_HI_value, F.VCD_SC_HOST_SIZE_value].any fun f => regOf old f x != regOf r f x
      let t1 := t.updSc x fun c => { c with inForce := r }
      .next (if moved then (t1.wr F.VCD_SC_HOST_HEAD_value 0 x).wr F.VCD_SC_HOST_TAIL_value 0 x else t1)
    else .next (t.wr F.VCD_SC_FLAGS_cfg_bad 1 x)

/-! ### The reference pools -/

def State.poolOf (s : State) (h : Nat) : List PoolBuf := s.vcd.pool.getD h []

/-- The free runs of a pool: start and size, ascending. -/
def freeRuns (base size : Nat) (l : List PoolBuf) : List (Nat × Nat) :=
  let starts := base :: sortNat (l.map fun b => b.addr + b.size)
  starts.eraseDups.filterMap fun a =>
    let next := listMin ((base + size) :: ((l.map PoolBuf.addr).filter fun b => decide (a ≤ b)))
    if a < next then some (a, next - a) else none

/-- VCD_POOL_STATUS and the contexts' buffer counts follow the pool. -/
def State.poolStatus (s : State) (h : Nat) : State :=
  let l := s.poolOf h
  let runs := freeRuns (s.pair F.VCD_POOL_BASE_LO_value F.VCD_POOL_BASE_HI_value h) (s.rd F.VCD_POOL_SIZE_value h * 4096) l
  let t := (s.wr F.VCD_POOL_STATUS_held l.length h).wr F.VCD_POOL_STATUS_run_4k (listMax (runs.map Prod.snd) / 4096) h
  t.each (List.range 16) fun s x =>
    if s.scHalf x = h then s.wr F.VCD_SC_STATUS_buffers (l.filter fun b => b.owner == x).length x else s

def State.updPool (s : State) (h : Nat) (f : List PoolBuf → List PoolBuf) : State :=
  (s.updVcd fun v => { v with pool := updAt v.pool h f }).poolStatus h

/-- n buffers placed first fit in ascending address (R451), or none. -/
def placeBufs (base size : Nat) (owner need : Nat) : Nat → List PoolBuf → Option (List PoolBuf)
  | 0, l => some l
  | n + 1, l =>
    if 64 ≤ l.length then none
    else match (freeRuns base size l).find? fun r => decide (need ≤ r.2) with
      | none => none
      | some r => placeBufs base size owner need n
          (l ++ [{ addr := r.1, size := need, owner := owner, mark := 0, easel := 0, serial := 0, poc := 0, sweep := 0 }])

/-- The pool of a half lies in a SKETCH region of the half (R279, R451). -/
def State.poolPlaced (s : State) (h : Nat) : Bool :=
  s.inRegion (s.pair F.VCD_POOL_BASE_LO_value F.VCD_POOL_BASE_HI_value h) (s.rd F.VCD_POOL_SIZE_value h * 4096) 6 h

/-- The pool of a half with n more buffers, or none where they do not fit in its SKETCH region. -/
def State.poolTake (s : State) (h owner need n : Nat) : Option (List PoolBuf) :=
  let base := s.pair F.VCD_POOL_BASE_LO_value F.VCD_POOL_BASE_HI_value h
  let size := s.rd F.VCD_POOL_SIZE_value h * 4096
  if s.poolPlaced h then placeBufs base size owner need n (s.poolOf h) else none

/-- The buffers of a context. -/
def State.scBufs (s : State) (x : Nat) : List PoolBuf := (s.poolOf (s.scHalf x)).filter fun b => b.owner == x

/-- A change of one buffer of a context. -/
def State.updBuf (s : State) (x addr : Nat) (f : PoolBuf → PoolBuf) : State :=
  s.updPool (s.scHalf x) fun l => l.map fun b => if b.owner = x ∧ b.addr = addr then f b else b

/-- A buffer becomes short-term (R452, R454): the previous short-term buffer becomes long-term or unused. -/
def State.markShort (s : State) (x addr : Nat) : State :=
  let bs := s.scBufs x
  let r := (s.sc x).inForce
  let long := bs.find? fun b => b.mark == 4
  let keep := fun b : PoolBuf => regOn r F.VCD_SC_CTRL_lt x &&
    match long with | none => true | some l => decide (l.poc + regOf r F.VCD_SC_GOP_lt_interval x ≤ b.poc)
  let t := match bs.find? (fun b => b.mark == 3) with
    | none => s
    | some b =>
      if keep b then
        let t := match long with | some l => s.updBuf x l.addr fun y => { y with mark := 0 } | none => s
        t.updBuf x b.addr fun y => { y with mark := 4 }
      else s.updBuf x b.addr fun y => { y with mark := 0 }
  t.updBuf x addr fun y => { y with mark := 3 }

/-! ### SKETCH_OPEN -/

/-- The level limits of H.265 Annex A: largest luma picture size, luma sample rate, tile columns (PRESUMED, log 60). -/
def levelLimits (idc : Nat) : Option (Nat × Nat × Nat) :=
  if idc = 30 then some (36864, 552960, 1)
  else if idc = 60 then some (122880, 3686400, 1)
  else if idc = 63 then some (245760, 7372800, 1)
  else if idc = 90 then some (552960, 16588800, 2)
  else if idc = 93 then some (983040, 33177600, 3)
  else if idc = 120 then some (2228224, 66846720, 5)
  else if idc = 123 then some (2228224, 133693440, 5)
  else if idc = 150 then some (8912896, 267386880, 10)
  else if idc = 153 then some (8912896, 534773760, 10)
  else if idc = 156 then some (8912896, 1069547520, 10)
  else if idc = 180 then some (35651584, 1069547520, 20)
  else if idc = 183 then some (35651584, 2139095040, 20)
  else none

/-- The picture rate of a view as mHz × 1 and the divisor of R68. -/
def State.viewRate (s : State) (v : Nat) : Nat × Nat := (s.rd F.EASEL_RATE_rate_mfps (s.viewEasel v), s.colourEvery (s.viewEasel v))

/-- The view is enabled and suits the profile (R444). -/
def State.viewSuits (s : State) (r : RegStore) (x : Nat) : Bool :=
  let v := regOf r F.VCD_SC_CTRL_view x
  let f := (s.view v).inForce
  s.viewOn v && regOf f F.VIEW_FMT_depth v == 0
    && regOf f F.VIEW_FMT_format v == (if regOf r F.VCD_SC_CTRL_profile x = 2 then 1 else 2)

/-- The level's limits hold, and tiles meet R446. -/
def State.levelOk (s : State) (r : RegStore) (x : Nat) : Bool :=
  let v := regOf r F.VCD_SC_CTRL_view x
  let w := roundUpTo (s.viewWidth v) 8
  let h := roundUpTo (s.viewHeight v) 8
  let c := (scCores r x).length
  let cols := s.ctbCols v
  match levelLimits (regOf r F.VCD_SC_CTRL_level_idc x) with
  | none => false
  | some l =>
    decide (w * h ≤ l.1) && decide (w * w ≤ 8 * l.1) && decide (h * h ≤ 8 * l.1)
      && decide (w * h * (s.viewRate v).1 ≤ l.2.1 * 1000 * (s.viewRate v).2)
      && (regOf r F.VCD_SC_CTRL_mode x != 0 || (decide (c ≤ l.2.2) &&
          (List.range c).all fun k => decide (4 ≤ (k + 1) * cols / c - k * cols / c)))

/-- The load of a context on each of its cores in st × mHz over k, exactly. -/
def State.coreLoad (s : State) (r : RegStore) (x : Nat) : Frac :=
  let v := regOf r F.VCD_SC_CTRL_view x
  let n := s.ctbCols v * s.ctbRows v
  let t := if s.view422 v then 10240 else 8192
  ((((ceilDiv n (max 1 (scCores r x).length) + s.ctbCols v) * t + 2048) * (s.viewRate v).1 : Nat), max 1 (s.viewRate v).2)

/-- The load test of R447: T_plan is plan_code ÷ 64 ps. -/
def State.sketchLoadOk (s : State) (x : Nat) : Bool :=
  let r := (s.sc x).inForce
  let open' := (List.range 16).filter fun y => y == x || s.rd F.VCD_SC_STATUS_state y != 0
  (scCores r x).all fun k =>
    let sum := (open'.filter fun y => (scCores (s.sc y).inForce y).contains k).foldl (fun a y => Frac.norm (Frac.add a (s.coreLoad (s.sc y).inForce y))) (0, 1)
    Frac.le (Frac.mul sum (s.rd F.AGE_PLAN_plan_code, 1)) (59520000000000000, 1)

/-- The fields of a stream command (R468 to R470). -/
def streamBad (c : Cmd) (flags : Nat) : Bool := decide (16 ≤ c.b 16) || decide (flags < c.b 17) || !zeroBytes c.desc 18 64

/-- SKETCH_OPEN (R468). It waits for a plan check in progress (R278). A pool outside the plan in force also sets the context's cfg_bad (R279;
DEDUCED, log 113). -/
def execSketchOpen (id : Nat) (s : State) : Out :=
  if s.planPending then .next (s.waitPlan (.sketchOpen id))
  else .next (s.startCmd id 0x20 fun c s =>
    let x := c.b 16
    let r := (s.sc x).inForce
    let v := regOf r F.VCD_SC_CTRL_view x
    let h := regOf r F.VCD_SC_CTRL_half x
    let n := 3 + regOf r F.VCD_SC_CTRL_lt x
    let size := poolSize (roundUpTo (s.viewWidth v) 8) (roundUpTo (s.viewHeight v) 8) (s.view422 v)
    if streamBad c 0 then s.complete id St.VC_BAD_REQ
    else if s.rd F.VCD_SC_STATUS_state x ≠ 0 ∨ s.on F.VCD_SC_COMMIT_pending x = true then s.complete id St.VC_STATE
    else if !(s.viewSuits r x && s.levelOk r x && s.scCaps r x) then s.complete id St.VC_CONFIG
    else if !s.sketchLoadOk x then s.complete id St.VC_LOAD
    else match s.poolTake h x size n with
      | none => (s.whenB (!s.poolPlaced h) fun s => s.wr F.VCD_SC_FLAGS_cfg_bad 1 x).complete id St.VC_POOL_FULL
      | some l =>
        let t := (s.updSc x fun c => { ScSt.init with inForce := c.inForce }).wr F.VCD_SC_STATUS_state 1 x
        (t.updPool h fun _ => l).complete id St.OK n)

/-! ### Ring space -/

/-- Bytes of NAL units in a bitstream ring. -/
def ScSt.used (c : ScSt) : Nat := sumOver (c.nals.map fun n => n.data.length) id

/-- Leading NAL units that every delivery has taken leave the ring (R464). -/
def State.scRelease (s : State) (x : Nat) : State :=
  s.updSc x fun c => { c with nals := c.nals.dropWhile fun n => n.live.isEmpty && !n.record }

/-- The record delivery is done with an access unit. -/
def State.auDone (s : State) (x au : Nat) : State :=
  (s.updSc x fun c => { c with
    aus := c.aus.filter (fun a => a.id ≠ au),
    nals := c.nals.map fun n => if n.au = au then { n with record := false } else n }).scRelease x

/-- A core stalls at a CTU boundary (R462), waiting for room for so many bytes. -/
def State.scStall (s : State) (x k need : Nat) : State :=
  ((s.updSc x fun c => { c with stalled := c.stalled ++ [(k, need)] }).flagCount F.VCD_SC_FLAGS_stall F.VCD_SC_CNT2_stall x).raise (s.scHalf x)
    Ev.VCD_STALL (le 1 x)

/-- A core of a context is stalled. -/
def ScSt.halted (c : ScSt) (k : Nat) : Bool := c.stalled.any fun y => y.1 == k

/-- Room in a bitstream ring for so many bytes beside the NAL units not released. -/
def ScSt.fits (c : ScSt) (x n : Nat) : Bool := decide (c.used + n ≤ regOf c.inForce F.VCD_SC_BS_SIZE_value x * 4096)

/-- SKETCH_RING_RESUME (R462): each stalled core for whose bytes the released space has room resumes. -/
def execSketchRingResume (x : Nat) (s : State) : Out :=
  let t := s.scRelease x
  .next (t.updSc x fun c => { c with stalled := c.stalled.filter fun y => !c.fits x y.2 })

/-! ### Closing -/

/-- A slot of a view's ring. -/
def State.ringSlot (s : State) (v k : Nat) : ViewSlot :=
  (s.view v).ring.getD k { used := false, writing := false, serial := 0, easel := 0, wet := false, state := 0, fault := 0, count := 0, begun := 0, lines := 0,
                           avail := 0, holders := [], set := [], hurt := false }

/-- The slot of its view's ring from which a context takes the picture of a frame, while that picture stands in it. -/
def State.scSlot (s : State) (x slot e serial : Nat) : Option ViewSlot :=
  let y := s.ringSlot (s.scView x) slot
  if y.easel = e ∧ y.serial = serial then some y else none

/-- A context lets the slot of a picture go, where that picture still stands in it. -/
def State.scDrop (s : State) (x slot e serial : Nat) : State :=
  s.whenB (s.scSlot x slot e serial).isSome fun s => s.dropViewHold (s.scView x) slot (.ctx x)

/-- A context closes: its buffers go back to the pool and its ring empties. -/
def State.scClosed (s : State) (x : Nat) : State :=
  let h := s.scHalf x
  let t := (s.sc x).queue.foldl (fun (s : State) q => s.scDrop x q.2.2.1 q.1 q.2.1) s
  let t1 := match (s.sc x).pic with | some p => t.scDrop x p.slot p.easel p.serial | none => t
  let t2 := (t1.updSc x fun c => { ScSt.init with inForce := c.inForce }).updVcd fun v =>
    { v with cores := v.cores.map fun k => match k with | some y => if y.1 = x then none else k | none => none }
  ((t2.wr F.VCD_SC_STATUS_state 0 x).wr F.VCD_SC_STATUS_sweep 0 x).updPool h fun l => l.filter fun b => b.owner ≠ x

/-- A close whose pictures are done completes (R469). -/
def State.closeCheck (s : State) (x : Nat) : State :=
  let c := s.sc x
  match c.close with
  | some (id, _) => if c.pic.isNone && c.aus.isEmpty then (s.complete id St.OK c.coded c.published).scClosed x else s
  | none => s

/-- SKETCH_CLOSE (R469). Queued pictures that no core has begun are let go, and refreshes that wait end with VC_STATE (DEDUCED, log 124). -/
def execSketchClose (id : Nat) (s : State) : Out :=
  .next (s.startCmd id 0x21 fun c s =>
    let x := c.b 16
    if streamBad c 1 then s.complete id St.VC_BAD_REQ
    else if s.rd F.VCD_SC_STATUS_state x ≠ 1 then s.complete id St.VC_STATE
    else
      let k := s.sc x
      let discard := c.b 17 == 1
      let t := k.queue.foldl (fun (s : State) q => s.scDrop x q.2.2.1 q.1 q.2.1) s
      let t0 := k.refresh.foldl (fun (s : State) r => s.complete r St.VC_STATE) t
      let t1 := (t0.wr F.VCD_SC_STATUS_state 2 x).updSc x fun c => { c with queue := [], refresh := [], close := some (id, discard) }
      let t2 := if discard then (k.aus.filter ScAu.coded).foldl (fun (s : State) a => s.auDone x a.id) t1 else t1
      t2.closeCheck x)

/-- SKETCH_REFRESH (R470): it waits for the next picture's first CTU. -/
def execSketchRefresh (id : Nat) (s : State) : Out :=
  .next (s.startCmd id 0x22 fun c s =>
    let x := c.b 16
    if streamBad c 0 then s.complete id St.VC_BAD_REQ
    else if s.rd F.VCD_SC_STATUS_state x ≠ 1 then s.complete id St.VC_STATE
    else s.updSc x fun c => { c with refresh := c.refresh ++ [id] })

/-! ### Pictures -/

/-- A picture is skipped (R448). -/
def State.scSkip (s : State) (x : Nat) : State :=
  let first := !(s.sc x).skipping
  let t := (s.flagCount F.VCD_SC_FLAGS_skip F.VCD_SC_CNT_skipped x).updSc x fun c => { c with skipping := true }
  t.whenB first fun s => s.raise (s.scHalf x) Ev.VCD_SKIP (le 1 x)

/-- The slots of its view's ring that a context holds: those of its queue, and that of the picture in hand until its last row is read. It
holds at most 2 (R449; DEDUCED, log 139). -/
def State.scHolds (s : State) (x : Nat) : List ViewSlot := (s.view (s.scView x)).ring.filter fun y => y.holders.contains (.ctx x)

/-- A view starts to write a picture into slot k (R448): each open context of it takes a hold, or skips the
picture. From shed level 4 on a context takes none (R593). -/
def State.sketchOffer (s : State) (v k e : Nat) (f : Frame) : State :=
  s.each ((List.range 16).filter fun x => s.rd F.VCD_SC_STATUS_state x == 1 && s.scView x == v
      && decide (s.sys.shed.getD (s.scHalf x) 0 < 4)) fun s x =>
    if (s.scHolds x).length < 2 ∧ (s.scBufs x).any (fun b => b.mark == 0) = true then
      (s.takeViewHold v k (.ctx x)).updSc x fun c => { c with queue := c.queue ++ [(e, f.serial, k, f.stamp)] }
    else s.scSkip x

/-- The partitions of a picture of a context (R446), their budgets set with the first CTU. -/
def State.newParts (s : State) (x : Nat) : List ScPart :=
  let r := (s.sc x).inForce
  let v := s.scView x
  let cols := s.ctbCols v
  let rows := s.ctbRows v
  let c := (scCores r x).length
  let part := fun left first n ctus : Nat =>
    ({ left := left, first := first, rows := n, ctus := ctus, budget := 0, kept := 0, next := 0, floor := false, started := [], ahead := [], data := [], sent := false } : ScPart)
  if regOf r F.VCD_SC_CTRL_mode x = 0 then (List.range c).map fun k => part (k * cols / c) 0 rows ((k + 1) * cols / c - k * cols / c)
  else if regOf r F.VCD_SC_CTRL_mode x = 1 then (List.range c).map fun k => part 0 (k * rows / c) ((k + 1) * rows / c - k * rows / c) cols
  else [part 0 0 rows cols]

/-- The cores that code rows of a picture (R446): a core whose slice is empty, or whose number among the cores of a wavefront no row bears,
takes no part. -/
def State.busyCores (s : State) (x : Nat) : List Nat :=
  let r := (s.sc x).inForce
  ((withIndex (scCores r x)).filter fun y =>
    if regOf r F.VCD_SC_CTRL_mode x = 2 then decide (y.1 < s.ctbRows (s.scView x))
    else match (s.newParts x)[y.1]? with | some q => decide (0 < q.rows) | none => false).map Prod.snd

/-- When row 0 of the picture a core would take of a context became available (R449, R450): the one in hand, or the next queued. -/
def State.scReady (s : State) (x k : Nat) : Option Nat :=
  let c := s.sc x
  if s.rd F.VCD_SC_STATUS_state x = 0 ∨ !(s.busyCores x).contains k = true then none
  else match c.pic with
    | some p => if p.cores.contains k then some (match s.scSlot x p.slot p.easel p.serial with | some y => y.avail | none => 0) else none
    | none => match c.queue with
      | q :: _ => match s.scSlot x q.2.2.1 q.1 q.2.1 with
        | some y => if y.avail = 0 then none else some y.avail
        | none => none
      | [] => none

/-- The context whose picture a free core takes (R445, R450): the one whose row 0 became available first, of equals the lower. -/
def State.scPick (s : State) (k : Nat) : Option Nat :=
  match (List.range 16).filterMap fun x => (s.scReady x k).map fun a => a * 16 + x with
  | [] => none
  | a :: as => some (listMin (a :: as) % 16)

/-- A core joins a context's picture, or begins its next one in a free buffer, or finds none free and skips it (R451). -/
def State.pictureTaken (s : State) (k x : Nat) : State :=
  let t := s.updVcd fun v => { v with cores := v.cores.set k (some (x, none)) }
  match (s.sc x).pic, (s.sc x).queue, (s.scBufs x).find? (fun b => b.mark == 0) with
  | some _, _, _ => t
  | none, q :: rest, some b =>
    let p : ScPic :=
      { easel := q.1, serial := q.2.1, slot := q.2.2.1, buf := b.addr, stamp := q.2.2.2, begun := false, idr := false, intra := false, wet := false,
        recovery := false, poc := 0, sweep := 0, step := 0, rps := [], cores := s.busyCores x, scraped := false, bytes := 0,
        nals := 0, parts := s.newParts x }
    (t.updBuf x b.addr fun y => { y with mark := 1, easel := q.1, serial := q.2.1 }).updSc x fun c => { c with queue := rest, pic := some p }
  | none, q :: rest, none => ((s.updSc x fun c => { c with queue := rest }).scDrop x q.2.2.1 q.1 q.2.1).scSkip x
  | none, [], _ => s

/-- SKETCH_PICTURE_START (R445, R450): a free core takes the picture whose row 0 became available first; of equals the lower context. One that
finds no free buffer is skipped (R451). -/
def execSketchPictureStart (k : Nat) (s : State) : Out :=
  if (s.vcd.cores.getD k none).isSome || !s.powered (20 + k / 4) || !s.takesWork (0x38 + k) then .next s
  else match s.scPick k with
    | none => .next s
    | some x => .next (s.pictureTaken k x)

/-- The source of a frame as it stands: 0 unsettled, 1 DRY, 2 DAMAGED, 3 scraped. -/
def State.sourceState (s : State) (e serial : Nat) : Nat × Nat :=
  match s.frame e serial with
  | some f => (if f.st = .dry then 1 else if f.st = .damaged then 2 else if f.st = .scraped then 3 else 0, f.fault)
  | none => (3, 0)

/-- The first CTU of a picture starts (R453 to R460, R470): its type, references, sweep position and budget are fixed, a QP change
takes effect, and waiting refreshes complete. -/
def State.picBegin (s : State) (x : Nat) (p : ScPic) : State :=
  let s := s.updSc x fun c => { c with inForce := match c.qp with | some q => withQp c.inForce q | none => c.inForce, qp := none }
  let c := s.sc x
  let r := c.inForce
  let v := s.scView x
  let bs := s.scBufs x
  let short := bs.find? fun b => b.mark == 3
  let used := bs.filter fun b => b.mark == 3 || b.mark == 4
  let asked := !c.refresh.isEmpty
  let gradual := regOn r F.VCD_SC_CTRL_refresh x
  let interval := regOf r F.VCD_SC_GOP_idr_interval x
  let idr := c.nextAu == 0 || (!gradual && (asked || (interval != 0 && decide (interval ≤ c.sinceIdr))))
  let intra := idr || used.isEmpty
  let period := ceilDiv (s.ctbCols v) (max 1 (regOf r F.VCD_SC_GOP_refresh_cols x))
  let sweep := if !gradual || idr || asked || used.isEmpty then 0
    else match short with | some b => if b.sweep + 1 = period then 0 else b.sweep + 1 | none => 0
  let again := gradual && !idr && !asked && (match c.last with | some l => l.2.2.2 && l.2.2.1 == sweep | none => false)
  let poc := if idr then 0 else c.poc
  let n := s.ctbCols v * s.ctbRows v
  let len := regOf r F.VCD_SC_WIN_len x
  let budget := min (regOf r F.VCD_SC_CAP_PIC_bytes x) (regOf r F.VCD_SC_CAP_WIN_bytes x - sumOver (c.window.take (len - 1)) id)
  let head := 192 + 64 * scParts r x
  let src := s.sourceState p.easel p.serial
  let own := fun q : ScPart => (if regOf r F.VCD_SC_CTRL_mode x = 2 then n else q.rows * q.ctus)
  let p1 : ScPic := { p with
    begun := true, idr := idr, intra := intra, wet := src.1 == 0, recovery := gradual && sweep == 0, poc := poc, sweep := sweep,
    step := s.rd F.GLB_PACE_DEV_code, rps := if idr then [] else (bs.filter fun b => decide (2 ≤ b.mark)).map fun b => (b.poc, b.mark != 2),
    parts := p.parts.map fun q => { q with budget := (budget - head) * own q / max 1 n } }
  let a : ScAu :=
    { id := c.nextAu, easel := p.easel, serial := p.serial, stamp := p.stamp, poc := poc, step := p1.step, coded := false, state := src.1, fault := src.2,
      flags := b2n idr + 2 * b2n intra + 8 * b2n p1.wet + 16 * b2n p1.recovery, data := [] }
  let t := c.refresh.foldl (fun (s : State) id => s.complete id St.OK (p.serial % 4294967296)) s
  let t1 := t.updSc x fun c => { c with
    pic := some p1, refresh := [], poc := poc + 1, sinceIdr := if idr then 1 else c.sinceIdr + 1, nextAu := c.nextAu + 1, aus := c.aus ++ [a],
    last := some (p.easel, p.serial, sweep, false) }
  let t2 := (t1.wr F.VCD_SC_STATUS_sweep sweep x).updBuf x p.buf fun b => { b with poc := poc, sweep := sweep }
  if again then (t2.flagCount F.VCD_SC_FLAGS_sweep_repeat F.VCD_SC_CNT2_sweep_repeat x).raise (s.scHalf x) Ev.VCD_SWEEP_REPEAT (le 1 x) else t2

/-- The partition of a core in a picture, and the next row it may start (R446). In wavefront mode a row starts once the row before it is coded,
or CTU 1 of that row, where another follows it, is: that moment is free (log 138). -/
def State.coreRow (s : State) (x k : Nat) (p : ScPic) : Option (Nat × Nat) :=
  let r := (s.sc x).inForce
  let cs := scCores r x
  let i := (cs.filter fun c => decide (c < k)).length
  if regOf r F.VCD_SC_CTRL_mode x = 2 then
    match p.parts with
    | q :: _ => ((List.range q.rows).find? fun j => j % max 1 cs.length == i && !q.started.contains j).bind fun j =>
        if j ≤ q.next ∨ (q.started.contains (j - 1) && decide (2 < q.ctus) && Config.rowAhead s.fresh) = true then some (0, j) else none
    | [] => none
  else match p.parts[i]? with
    | some q => if q.started.length < q.rows then some (i, q.started.length) else none
    | none => none

/-- A partition changed. -/
def ScPic.updPart (p : ScPic) (i : Nat) (f : ScPart → ScPart) : ScPic := { p with parts := updAt p.parts i f }

/-- A sample of the picture a core codes (R444): that of the view's ring, the last column and row repeated past its edge, and of the Main profile
reduced to 8 bits. -/
def scSample (eight : Bool) (plane : List (List Nat)) (a b : Nat) : Nat :=
  let l := plane.getD (min b (plane.length - 1)) []
  let v := l.getD (min a (l.length - 1)) 0
  if eight then min 255 ((v + 2) / 4) else v

/-- The source samples of CTB row j of a partition of the picture in hand, by plane and line (R444, R449). -/
def State.scSource (s : State) (x : Nat) (p : ScPic) (q : ScPart) (j : Nat) : List (List (List Nat)) :=
  let v := s.scView x
  let y := s.ringSlot v p.slot
  match s.frame y.easel y.serial with
  | none => []
  | some f =>
    let eight := regOf (s.sc x).inForce F.VCD_SC_CTRL_profile x == 0
    let high := if s.view422 v then 64 else 32
    (withIndex (planes y.set v fun ox oy => (s.viewPixels v y f ox oy).1)).map fun pl =>
      let cw := if pl.1 = 0 then 64 else 32
      let ch := if pl.1 = 0 then 64 else high
      let wide := roundUpTo (s.viewWidth v) 8 * cw / 64
      let tall := roundUpTo (s.viewHeight v) 8 * ch / 64
      (List.range (min ch (tall - (q.first + j) * ch))).map fun b =>
        (List.range (min (q.ctus * cw) (wide - q.left * cw))).map fun a => scSample eight pl.2 (q.left * cw + a) ((q.first + j) * ch + b)

/-- The view has written the lines that row j of a partition needs, or the picture is given up (R449, R466). -/
def State.rowWritten (s : State) (x : Nat) (p : ScPic) (q : ScPart) (j : Nat) : Bool :=
  let written := match s.scSlot x p.slot p.easel p.serial with | some y => s.linesOf (s.scView x) y | none => 0
  p.scraped || decide (min (64 * (q.first + j) + 64) (s.viewHeight (s.scView x)) ≤ written)

/-- A core starts row j of partition i and reads its samples; the picture's first row begins it (R453). -/
def State.rowStarted (s : State) (x k i j : Nat) (p : ScPic) (q : ScPart) : State :=
  ((if p.begun then s else s.picBegin x p).updPic x fun p => p.updPart i fun q => { q with started := q.started ++ [j] }).updVcd fun v =>
    { v with cores := v.cores.set k (some (x, some j)), source := v.source.set k (s.scSource x p q j) }

/-- SKETCH_ROW_START (R444, R446, R449): core k starts the next CTB row of its partition once the view has written the lines it needs, and reads
their samples. -/
def execSketchRowStart (k : Nat) (s : State) : Out :=
  match s.vcd.cores.getD k none with
  | some (x, none) => match (s.sc x).pic with
    | some p => match s.coreRow x k p with
      | some (i, j) => match p.parts[i]? with
        | some q => .next (if s.rowWritten x p q j then s.rowStarted x k i j p q else s)
        | none => .next s
      | none => .next s.tick
    | none => .next s
  | _ => .next s

/-! ### Coding units and CTUs -/

/-- A coding unit is one the cores code (R443): sizes, splits, and references that exist. -/
def cuKnown (u : ScCu) (p : ScPic) (short long : Bool) : Bool :=
  [8, 16, 32, 64].contains u.size && u.blocks.all [4, 8, 16, 32].contains
    && (if u.intra then !u.short && !u.long && u.skip.isNone && (u.split == .whole || (u.split == .quarters && u.size == 8))
        else !p.intra && !u.dc && u.split != .quarters && (u.short || u.long) && (!u.short || short) && (!u.long || long)
          && (u.skip.isNone || (u.split == .whole && !u.residual)))

/-- The units of a floor-mode CTU (R461): in a P slice a skip of merge index 0, 64 × 64 where the CTU is whole; in an I slice and in the refresh
columns intra DC; no residual. -/
def floorUnits (intra whole : Bool) (l : List ScCu) : Bool :=
  if intra then l.all fun u => u.intra && u.dc && !u.residual
  else l.all fun u => u.skip == some 0 && !u.residual && (!whole || u.size == 64)

/-- A CTU a core may code in column i of a row (R443, R456, R458, R461): its units cover it, its QP is the slice's and at most aq to either side, a
refresh column is intra, and in the refreshed region a unit reads the short-term reference alone, 8 luma samples inside the region
refreshed there. -/
def State.ctuOk (s : State) (x : Nat) (p : ScPic) (row i : Nat) (low : Bool) (c : ScCtu) : Bool :=
  let r := (s.sc x).inForce
  let v := s.scView x
  let bs := s.scBufs x
  let w := min 64 (roundUpTo (s.viewWidth v) 8 - 64 * i)
  let h := min 64 (roundUpTo (s.viewHeight v) 8 - 64 * row)
  let base := if p.intra then regOf r F.VCD_SC_QP_qp_i x else regOf r F.VCD_SC_QP_qp_p x
  let aq := regOf r F.VCD_SC_QP_aq x
  let cols := regOf r F.VCD_SC_GOP_refresh_cols x
  let gradual := regOn r F.VCD_SC_CTRL_refresh x
  let fresh := gradual && decide (p.sweep * cols ≤ i) && decide (i < (p.sweep + 1) * cols)
  let inside := gradual && decide (i < (p.sweep + 1) * cols)
  sumOver (c.units.map fun u => u.size * u.size) id == w * h
    && c.units.all (fun u => cuKnown u p (bs.any fun b => b.mark == 3) (bs.any fun b => b.mark == 4))
    && (if low then decide (c.bytes.length ≤ 6) && floorUnits (p.intra || fresh) (w == 64 && h == 64) c.units
        else decide (c.qp ≤ base + aq) && decide (base ≤ c.qp + aq)
          && c.units.all fun u => u.intra || (!fresh && (!inside || (!u.long && decide (u.reach + 8 ≤ 64 * p.sweep * cols)))))

/-- The CTUs of a row of a partition are ones the core may code. -/
def State.rowOk (s : State) (x : Nat) (p : ScPic) (q : ScPart) (j : Nat) (low : Bool) (l : List ScCtu) : Bool :=
  l.length == q.ctus && (withIndex l).all fun c => s.ctuOk x p (q.first + j) (q.left + c.1) low c.2

/-- The bytes of a row. -/
def rowBytes (l : List ScCtu) : List Byte := l.flatMap ScCtu.bytes

/-- Where the CTUs of a row, put behind n bytes, first pass the room of the ring: the bytes up to the end of that CTU (R462). -/
def pastRoom (fits : Nat → Bool) : Nat → List ScCtu → Option Nat
  | _, [] => none
  | n, c :: cs => if fits (n + c.bytes.length) then pastRoom fits (n + c.bytes.length) cs else some (n + c.bytes.length)

/-- The rows at the head of a partition's wait are decided in turn (R460): kept whole, or it and every later row in floor mode. -/
def ScPart.decide (q : ScPart) (scraped : Bool) : Nat → ScPart
  | 0 => q
  | n + 1 => match q.ahead.find? (fun a => a.1 == q.next) with
    | none => q
    | some a =>
      let fl := a.2.2.take (6 * q.ctus)
      let m := q.rows - q.next - 1
      let floor := q.floor || scraped || !(q.kept + a.2.1.length + 6 * q.ctus * m ≤ q.budget : Bool)
      let bytes := if floor then fl else a.2.1
      ScPart.decide { q with
        kept := q.kept + bytes.length, next := q.next + 1, floor := floor, data := q.data ++ bytes, ahead := q.ahead.filter fun y => y.1 ≠ a.1 }
        scraped n

/-- Bytes coded and not yet in a committed NAL unit. -/
def ScPic.loose (p : ScPic) : Nat := sumOver ((p.parts.filter fun q => !q.sent).map fun q => q.data.length) id

/-- The partition a core codes, by its number. -/
def State.partOf (s : State) (x k : Nat) : Nat :=
  let r := (s.sc x).inForce
  if regOf r F.VCD_SC_CTRL_mode x = 2 then 0 else ((scCores r x).filter fun c => decide (c < k)).length

/-- A core has rows of its picture still to start (R446). -/
def State.rowsLeft (s : State) (x k : Nat) (p : ScPic) : Bool :=
  let r := (s.sc x).inForce
  let cs := scCores r x
  match p.parts[s.partOf x k]? with
  | some q => (List.range q.rows).any fun y => !q.started.contains y
      && (regOf r F.VCD_SC_CTRL_mode x != 2 || y % max 1 cs.length == (cs.filter fun c => decide (c < k)).length)
  | none => false

/-- A row of a partition has its bytes: the core is free of it, or of the picture, and the slot goes back with the last row (R449). -/
def State.rowEnd (s : State) (x k i : Nat) (p : ScPic) (f : ScPart → ScPart) : State :=
  let p1 := p.updPart i f
  let t := s.updSc x fun c => { c with pic := some p1 }
  let more := t.rowsLeft x k p1
  let t1 := t.updVcd fun v => { v with cores := v.cores.set k (if more then some (x, none) else none), source := v.source.set k [] }
  let t2 := if more then t1 else t1.updPic x fun p => { p with cores := p.cores.filter fun c => c ≠ k }
  t2.whenB (p1.parts.all fun q => q.next == q.rows) fun s => s.scDrop x p.slot p.easel p.serial

/-- A coded row that core k can end (R443, R446, R456, R458, R460, R461): its turn has come, the core is not stalled, and its CTUs are such
as the rules allow. -/
def State.rowLegal (s : State) (x k j : Nat) (p : ScPic) (q : ScPart) (row floor : List ScCtu) : Bool :=
  !(s.sc x).halted k && (regOf (s.sc x).inForce F.VCD_SC_CTRL_mode x != 2 || q.next == j) && s.rowOk x p q j true floor
    && (q.floor || p.scraped || s.rowOk x p q j false row)

/-- A row ends, or its core stalls at the first CTU that finds no room in the ring (R462). -/
def State.rowCoded (s : State) (x k i j : Nat) (p : ScPic) (q : ScPart) (row floor : List ScCtu) : State :=
  let c := s.sc x
  let f := fun q : ScPart => ScPart.decide { q with ahead := q.ahead ++ [(j, rowBytes row, rowBytes floor)] } p.scraped q.rows
  match if q.floor || p.scraped then none else pastRoom (c.fits x) p.loose row, if (f q).floor then pastRoom (c.fits x) p.loose floor else none with
  | some need, _ => s.scStall x k need
  | none, some need => s.scStall x k need
  | none, none => s.rowEnd x k i p f

/-- SKETCH_ROW_DONE (R460 to R462, R466): core k's row is coded. row are its CTUs coded normally, floor its CTUs in floor mode; neither may be
what R443, R456, R458 and R461 do not allow. In wavefront mode a row ends after the row before it (R446). The core stalls where the next
CTU's bits would pass the release pointer: of the row coded normally, and where that is given up or not made, of the row in floor mode. -/
def execSketchRowDone (k : Nat) (row floor : List ScCtu) (s : State) : Out :=
  match s.vcd.cores.getD k none with
  | some (x, some j) => match (s.sc x).pic with
    | some p => match p.parts[s.partOf x k]? with
      | some q => .next (if s.rowLegal x k j p q row floor then s.rowCoded x k (s.partOf x k) j p q row floor else s)
      | none => .next s
    | none => .next s
  | _ => .next s

/-! ### NAL units -/

/-- Emulation prevention of H.265: a 3 before a byte of 0 to 3 that follows two zero bytes. -/
def escapeNal : Nat → List Byte → List Byte
  | _, [] => []
  | z, b :: bs => if 2 ≤ z ∧ b.toNat ≤ 3 then 3 :: b :: escapeNal (if b = 0 then 1 else 0) bs else b :: escapeNal (if b = 0 then z + 1 else 0) bs

/-- The user data SEI of R463 as an Annex B NAL unit (prefix SEI, payload type 5, 35 bytes). -/
def userSei (v : Nat) (p : ScPic) : List Byte :=
  let uuid := "NELERI-SKETCH-01".toList.map fun c => BitVec.ofNat 8 c.toNat
  let body := uuid ++ le 6 p.serial ++ le 1 p.easel ++ le 1 v ++ le 1 (b2n p.wet) ++ le 6 (ptpSeconds p.stamp)
    ++ le 4 (ptpNanos p.stamp)
  [0, 0, 0, 1, 0x4E, 0x01] ++ escapeNal 0 ([5, 35] ++ body ++ [0x80])

/-- The senders that send a context live (R464, R536), none from shed level 4 on (R593). -/
def State.liveSenders (s : State) (x : Nat) : List Nat :=
  (if decide (4 ≤ s.sys.shed.getD (s.scHalf x) 0) then [] else List.range 8).filter fun n => match s.net.snds[n]? with
    | some d => s.on F.NET_SND_STATUS_running n && regOf d.inForce F.NET_SND_CTRL_kind n == 1 && regOf d.inForce F.NET_SND_CTRL_source n == x
    | none => false

/-- The coding of a picture ends (R452, R454, R459, R461, R466). -/
def State.picEnd (s : State) (x : Nat) (p : ScPic) (au : ScAu) : State :=
  let r := (s.sc x).inForce
  let floor := p.parts.any ScPart.floor
  let size := au.data.length
  let st := if p.scraped then 3 else au.state
  let t := s.updSc x fun c => { c with
    pic := none, window := (max size (s.floorSize r x) :: c.window).take 256, coded := c.coded + 1, skipping := false,
    aus := c.aus.map fun a => if a.id = au.id then { a with coded := true, state := st, flags := a.flags + 4 * b2n floor } else a }
  let t1 := t.bump F.VCD_SC_CNT_coded x
  let t2 := if floor then (t1.flagCount F.VCD_SC_FLAGS_floor F.VCD_SC_CNT_floor x).raise (s.scHalf x) Ev.VCD_FLOOR (le 1 x) else t1
  let t3 := if p.scraped then t2.bump F.VCD_SC_CNT2_scraped x else t2
  let t4 := if st = 3 then t3.updBuf x p.buf fun b => { b with mark := 0 }
    else if st = 0 then t3.updBuf x p.buf fun b => { b with mark := 2 }
    else t3.markShort x p.buf
  let drop := !regOn r F.VCD_SC_CTRL_record x || (match (s.sc x).close with | some c => c.2 | none => false)
  (if drop then t4.auDone x au.id else t4).closeCheck x

/-- Bytes written to the bitstream ring of a context, wrapping. -/
def State.scPut (s : State) (x : Nat) (bs : List Byte) : State :=
  let r := (s.sc x).inForce
  let base := regOf r F.VCD_SC_BS_BASE_LO_value x + 4294967296 * regOf r F.VCD_SC_BS_BASE_HI_value x
  let size := regOf r F.VCD_SC_BS_SIZE_value x * 4096
  let off := (s.sc x).put
  ((s.put (base + off) (bs.take (size - off))).put base (bs.drop (size - off))).updSc x fun c => { c with put := (off + bs.length) % max 1 size }

/-- What the parameter sets of a context say (R443, R444). -/
def State.scParams (s : State) (x : Nat) : ScParams :=
  let r := (s.sc x).inForce
  let v := s.scView x
  let profile := regOf r F.VCD_SC_CTRL_profile x
  let mode := regOf r F.VCD_SC_CTRL_mode x
  let w := roundUpTo (s.viewWidth v) 8
  let h := roundUpTo (s.viewHeight v) 8
  { profile := profile, tier := regOf r F.VCD_SC_CTRL_tier x, level := regOf r F.VCD_SC_CTRL_level_idc x, c422 := s.view422 v,
    depth := if profile = 0 then 8 else 10, width := w, height := h, right := w - s.viewWidth v, bottom := h - s.viewHeight v,
    fullRange := regOn (s.view v).inForce F.VIEW_FMT_range v, primaries := regOf r F.VCD_SC_VUI_primaries x,
    transfer := regOf r F.VCD_SC_VUI_transfer x, matrix := regOf r F.VCD_SC_VUI_matrix x,
    tileColumns := if mode = 0 then (scCores r x).length else 1, wavefront := mode == 2 }

/-- The NAL units of an access unit in their order (R443, R457, R463): the user data SEI first; with an IDR the parameter sets, VPS, SPS and PPS
(DESIGN CHOICE, log 140); with s = 0 of a gradual refresh the recovery point SEI; the slices, one for each partition in slices mode
and one in the other modes; the picture hash SEI. -/
def State.nalPlan (s : State) (x : Nat) (p : ScPic) : List NalSays :=
  let r := (s.sc x).inForce
  let v := s.scView x
  let period := ceilDiv (s.ctbCols v) (max 1 (regOf r F.VCD_SC_GOP_refresh_cols x))
  let qp := if p.intra then regOf r F.VCD_SC_QP_qp_i x else regOf r F.VCD_SC_QP_qp_p x
  let slices := if regOf r F.VCD_SC_CTRL_mode x = 1 then (withIndex p.parts).filter fun q => decide (0 < q.2.rows) else (withIndex p.parts).take 1
  [.user] ++ (if p.idr then [32, 33, 34].map fun n => .params n (s.scParams x) else []) ++ (if p.recovery then [.recovery (period - 1)] else [])
    ++ (slices.map fun q => .slice q.1 (q.2.first * s.ctbCols v) p.idr p.intra p.poc p.rps qp) ++ [.hash]

/-- A NAL unit with its 4-byte start code and 2-byte header (R443): type in bits 6 to 1 of the first byte, layer 0, temporal identifier 0. -/
def nalUnit (type : Nat) (body : List Byte) : List Byte := [0, 0, 0, 1, BitVec.ofNat 8 (2 * type), 1] ++ body

/-- The bits of a number, most significant first, without leading zeros. -/
def binary (n : Nat) : List Bool := ((List.range 33).reverse.map n.testBit).dropWhile fun b => !b

/-- The signed Exp-Golomb code of a number not below 0. -/
def expGolomb (n : Nat) : List Bool :=
  let b := binary (if n = 0 then 1 else 2 * n)
  List.replicate (b.length - 1) false ++ b

/-- Bits in bytes, the last one filled with zeros. -/
def bitBytes (l : List Bool) : List Byte :=
  (List.range (ceilDiv l.length 8)).map fun i =>
    BitVec.ofNat 8 (((List.range 8).map fun j => b2n (l.getD (8 * i + j) false)).foldl (fun a b => 2 * a + b) 0)

/-- The recovery point SEI message (R457): recovery_poc_cnt, then exact_match_flag and broken_link_flag, which the spec does not give (bits 0 and 1
of a byte that comes with the command, log 140), and the payload's trailing bits. -/
def recoverySei (count : Nat) (flags : Byte) : List Byte :=
  let bits := expGolomb count ++ [flags.toNat.testBit 0, flags.toNat.testBit 1]
  let body := bitBytes (if bits.length % 8 = 0 then bits else bits ++ [true])
  [6, BitVec.ofNat 8 body.length] ++ body

/-- The bytes of a NAL unit: head are the bits of its header or parameter set as H.265 codes what it says, the flags of a recovery point, or the
three CRCs of the hash; data the rows of its slice. -/
def nalBytes (v : Nat) (p : ScPic) (n : NalSays) (head data : List Byte) : List Byte :=
  match n with
  | .user => userSei v p
  | .params type _ => nalUnit type head
  | .recovery count => nalUnit 39 (escapeNal 0 (recoverySei count (head.getD 0 0) ++ [0x80]))
  | .slice _ _ idr _ _ _ _ => nalUnit (if idr then 20 else 1) (head ++ data ++ [0x80])
  | .hash => nalUnit 40 (escapeNal 0 ([132, 7, 1] ++ padTo 6 (head.take 6) ++ [0x80]))

/-- The partitions whose rows a NAL unit carries: in slices mode its own, in the other modes all. -/
def NalSays.carries (n : NalSays) (slices : Bool) (i : Nat) : Bool :=
  match n with
  | .slice k _ _ _ _ _ _ => !slices || i == k
  | _ => false

/-- The partition a NAL unit is named by. -/
def NalSays.part (n : NalSays) : Option Nat := match n with | .slice k _ _ _ _ _ _ => some k | _ => none

/-- The partitions whose rows a NAL unit carries, and the unit's bytes in the ring (R463, R464). -/
def State.nalParts (s : State) (x : Nat) (p : ScPic) (n : NalSays) : List ScPart :=
  ((withIndex p.parts).filter fun q => n.carries (regOf (s.sc x).inForce F.VCD_SC_CTRL_mode x == 1) q.1).map Prod.snd

def State.nalBytesOf (s : State) (x : Nat) (p : ScPic) (n : NalSays) (head : List Byte) : List Byte :=
  nalBytes (s.scView x) p n head ((s.nalParts x p n).flatMap ScPart.data)

/-- A NAL unit that can be committed: it is the next of its access unit, its rows are coded, what is not rows stays within H, and the ring has
room for it. -/
def State.nalLegal (s : State) (x : Nat) (p : ScPic) (n : NalSays) (head : List Byte) (part : Option Nat) (last : Bool) : Bool :=
  let data := s.nalBytesOf x p n head
  let rows := (s.nalParts x p n).flatMap ScPart.data
  let sliceBytes := sumOver ((p.parts.filter ScPart.sent).map fun q => q.data.length) id
  p.begun && part == n.part && last == (p.nals + 1 == (s.nalPlan x p).length) && ((s.nalParts x p n).all fun q => q.next == q.rows)
    && decide (p.bytes - sliceBytes + (data.length - rows.length) ≤ 192 + 64 * p.parts.length) && (s.sc x).fits x data.length

/-- The unit stands in the ring and in its access unit, which the last one ends. -/
def State.nalCommitted (s : State) (x : Nat) (p : ScPic) (au : ScAu) (n : NalSays) (head : List Byte) (last : Bool) : State :=
  let r := (s.sc x).inForce
  let data := s.nalBytesOf x p n head
  let p1 := { p with parts := (withIndex p.parts).map (fun q => if n.carries (regOf r F.VCD_SC_CTRL_mode x == 1) q.1 then { q.2 with sent := true } else q.2),
                     bytes := p.bytes + data.length, nals := p.nals + 1 }
  let live := if regOn r F.VCD_SC_CTRL_live x then s.liveSenders x else []
  let u : ScNal := { au := au.id, what := n, data := data, stamp := p.stamp, first := p.nals == 0, last := last, live := live,
                     record := regOn r F.VCD_SC_CTRL_record x }
  let au1 := { au with data := au.data ++ data }
  let t := (s.scPut x data).updSc x fun c => { c with
    pic := some p1, nals := c.nals ++ [u], aus := c.aus.map fun a => if a.id = au.id then au1 else a }
  (if last then t.picEnd x p1 au1 else t).scRelease x

/-- SKETCH_NAL_COMMIT (R443, R459, R462 to R464): the next NAL unit of the access unit, complete, goes into the ring. part names the partition of
a slice and is none of the others, last says that the unit ends the access unit. What is not rows stays within H. It waits for its rows,
and for room in the ring (R45). -/
def execSketchNalCommit (x : Nat) (head : List Byte) (part : Option Nat) (last : Bool) (s : State) : Out :=
  match (s.sc x).pic, (s.sc x).aus.getLast? with
  | some p, some au => match (s.nalPlan x p)[p.nals]? with
    | none => .next s
    | some n => .next (if s.nalLegal x p n head part last then s.nalCommitted x p au n head last else s)
  | _, _ => .next s

/-! ### Record delivery -/

/-- The picture header of R465. -/
def auHeader (x : Nat) (a : ScAu) : List Byte :=
  padTo 64 (le 6 a.serial ++ le 1 x ++ le 1 a.state ++ le 2 a.fault ++ le 1 a.flags ++ le 1 0 ++ le 4 a.poc ++ le 4 a.data.length
    ++ le 6 (ptpSeconds a.stamp) ++ le 4 (ptpNanos a.stamp) ++ le 2 a.step)

/-- Bytes written to a host ring from an offset, going on at its start past its end. -/
def State.hostRing (s : State) (base size off : Nat) (bs : List Byte) : State :=
  let t := s.emit (.hostWrite (base + off) (bs.take (size - off)))
  if (bs.drop (size - off)).isEmpty then t else t.emit (.hostWrite base (bs.drop (size - off)))

/-- The scraped access units at the head of a context are gone (R465). -/
def State.scDead (s : State) (x : Nat) : State :=
  (((s.sc x).aus.takeWhile fun a => a.coded && a.state == 3).map ScAu.id).foldl (fun (s : State) a => s.auDone x a) s

/-- An access unit with its header in the host ring, and whether the ring has room for it. -/
def auBytes (x : Nat) (a : ScAu) : List Byte := auHeader x a ++ padTo (roundUpTo a.data.length 64) a.data

def State.auRoom (s : State) (x : Nat) (a : ScAu) : Bool :=
  let size := regOf (s.sc x).inForce F.VCD_SC_HOST_SIZE_value x * 4096
  let used := (s.rd F.VCD_SC_HOST_TAIL_value x + size - s.rd F.VCD_SC_HOST_HEAD_value x % max 1 size) % max 1 size
  decide (used + (auBytes x a).length < size)

/-- An access unit goes to the host ring with its record (R465, R466). -/
def State.auPublished (s : State) (x : Nat) (a : ScAu) : State :=
  let r := (s.sc x).inForce
  let size := regOf r F.VCD_SC_HOST_SIZE_value x * 4096
  let tail := s.rd F.VCD_SC_HOST_TAIL_value x
  let bs := auBytes x a
  let base := regOf r F.VCD_SC_HOST_BASE_LO_value x + 4294967296 * regOf r F.VCD_SC_HOST_BASE_HI_value x
  let t := ((s.hostRing base size tail bs).wr F.VCD_SC_HOST_TAIL_value ((tail + bs.length) % max 1 size) x).postUnsolicited (s.scHalf x)
    (regOf r F.VCD_SC_WIN_cq x) (8 + x) St.OK tail bs.length
  ((t.updSc x fun c => { c with published := c.published + 1 }).auDone x a.id).closeCheck x

/-- SKETCH_PUBLISH (R465): scraped access units at the head are discarded, and the first one settled goes to the host ring. -/
def execSketchPublish (x : Nat) (s : State) : Out :=
  match ((s.scDead x).sc x).aus with
  | [] => .next ((s.scDead x).closeCheck x)
  | a :: _ => .next (if a.coded && a.state != 0 && (s.scDead x).auRoom x a then (s.scDead x).auPublished x a else s.scDead x)

/-- A settle notice of the sketch contexts (R452, R465, R466): buffers, access units and pictures of the frame follow it. -/
def State.sketchNotice (s : State) (e serial : Nat) : State :=
  let src := s.sourceState e serial
  if src.1 = 0 then s
  else s.each (List.range 16) fun s x =>
    let c := s.sc x
    let mine := fun (q : Nat × Nat × Nat × Nat) => q.1 == e && q.2.1 == serial
    let t := s.updSc x fun c => { c with
      aus := c.aus.map fun a => if a.easel = e ∧ a.serial = serial then { a with state := src.1, fault := src.2 } else a,
      pic := c.pic.map fun p => if p.easel = e ∧ p.serial = serial ∧ src.1 = 3 then { p with scraped := true } else p,
      last := c.last.map fun l => if l.1 = e ∧ l.2.1 = serial ∧ src.1 = 3 then (l.1, l.2.1, l.2.2.1, true) else l }
    let gone := if src.1 = 3 then c.queue.filter mine else []
    let t1 := (gone.foldl (fun (s : State) q => s.scDrop x q.2.2.1 q.1 q.2.1) t).updSc x fun c =>
      { c with queue := c.queue.filter fun q => !gone.contains q }
    (((s.scBufs x).filter fun b => b.mark == 2 && b.easel == e && b.serial == serial).foldl (fun (s : State) b =>
      if src.1 = 3 then s.updBuf x b.addr fun y => { y with mark := 0 } else s.markShort x b.addr) t1)

/-! ### Reading cores -/

/-- The fields of RC_DECODE (R472). -/
def rcBad (c : Cmd) : Bool :=
  decide (8 ≤ c.b 16) || decide (4 ≤ c.b 17) || c.h 18 == 0 || c.w 20 == 0 || c.d 24 % 64 != 0 || c.d 32 % 64 != 0 || c.w 40 % 64 != 0
    || !zeroBytes c.desc 44 64

/-- The 64-byte record of an output picture (R474). -/
def rcRecord (p : HevcPic) (n : Nat) : List Byte :=
  padTo 64 (le 4 p.poc ++ le 2 p.width ++ le 2 p.height ++ le 1 p.chroma ++ le 1 p.depth ++ le 1 (b2n p.hash + 2 * b2n p.irap + 4 * b2n p.payload.isSome)
    ++ le 1 0 ++ le 4 n ++ padTo 19 ((p.payload.getD []).take 19))

/-- The planes of an output picture in the slot layout of R219: 4:2:0 or 4:2:2 planes of the cropped size, in 16-bit samples of the bit depth. -/
def rcPlanes (p : HevcPic) : List Byte :=
  (withIndex (planeSizes (if p.chroma = 2 then 1 else 2) p.width p.height)).flatMap fun z =>
    planeBytes ((List.range z.2.2).map fun b => (List.range z.2.1).map fun a => (((p.planes.getD z.1 []).getD b []).getD a 0) % 2 ^ p.depth)

/-- VCD_RC_STATUS follows the decode contexts. -/
def State.rcStatus (s : State) (core : Nat) : State :=
  let bits := fun f : RcSt → Bool => sumOver (List.range 4) fun k => b2n (f (s.vcd.dec.getD (4 * core + k) RcSt.init)) * 2 ^ k
  (s.wr F.VCD_RC_STATUS_fault (bits RcSt.fault) core).wr F.VCD_RC_STATUS_active (bits fun d => !d.history.isEmpty || !d.held.isEmpty) core

def State.updDec (s : State) (d : Nat) (f : RcSt → RcSt) : State := (s.updVcd fun v => { v with dec := updAt v.dec d f }).rcStatus (d / 4)

/-- A decode context is reset: its state and buffers are gone. -/
def State.rcReset (s : State) (d : Nat) : State :=
  (s.updDec d fun _ => RcSt.init).updPool (d / 4) fun l => l.filter fun b => b.owner ≠ 16 + d

/-- Pictures put out in order (R473, R474): how many were written, whether one did not fit, and those left. -/
def State.rcOutput (s : State) (d slot : Nat) : Nat → Nat → List HevcPic → State × Nat × Bool × List HevcPic
  | 0, _, l => (s, 0, false, l)
  | _, _, [] => (s, 0, false, [])
  | n + 1, a, p :: ps =>
    let bs := rcRecord p ((s.vcd.dec.getD d RcSt.init).count + 1) ++ rcPlanes p
    if slot < bs.length then (s, 0, true, p :: ps)
    else
      let r := ((s.emit (.hostWrite a bs)).updDec d fun x => { x with count := x.count + 1 }).rcOutput d slot n (a + slot) ps
      (r.1, r.2.1 + 1, r.2.2.1, r.2.2.2)

/-- One picture bumped: the wanted one of lowest POC, as a signed number (R473). -/
def bumpOne (l : List DpbPic) : List DpbPic × List HevcPic :=
  let key := fun x : DpbPic => (x.pic.poc + 2147483648) % 4294967296
  match l.filter DpbPic.wanted with
  | [] => (l, [])
  | a :: as =>
    let b := as.foldl (fun b y => if key y < key b then y else b) a
    ((l.map fun y => if y = b then { y with wanted := false } else y).filter fun y => y.wanted || y.kept, [b.pic])

/-- Pictures bumped while a condition holds. -/
def bumpWhile (c : List DpbPic → Bool) : Nat → List DpbPic → List DpbPic × List HevcPic
  | 0, l => (l, [])
  | n + 1, l =>
    if c l && l.any DpbPic.wanted then
      let a := bumpOne l
      let b := bumpWhile c n a.1
      (b.1, a.2 ++ b.2)
    else (l, [])

/-- More pictures wait for output, or longer, than the SPS lets wait. -/
def hevcCrowded (d : HevcStep) (l : List DpbPic) : Bool :=
  decide (d.reorder < (l.filter DpbPic.wanted).length)
    || (match d.latency with | some n => l.any fun y => y.wanted && decide (n ≤ y.late) | none => false)

/-- A picture enters the decoded picture buffer by the bumping process of H.265, C.5.2 (R473): the buffer after it, and the pictures due for
output. PRESUMED, log 61. -/
def hevcEnter (d : HevcStep) (l : List DpbPic) : List DpbPic × List HevcPic :=
  let n := l.length
  let a := if d.first then (if d.noPrior then ([], []) else ([], (bumpWhile (fun _ => true) n l).2))
    else
      let m := (l.map fun y => { y with kept := d.keep.contains y.pic.poc }).filter fun y => y.wanted || y.kept
      bumpWhile (fun y => hevcCrowded d y || decide (d.buffers ≤ y.length)) n m
  let m := (a.1.map fun y => if d.shown && y.wanted then { y with late := y.late + 1 } else y)
    ++ [{ pic := d.pic, wanted := d.shown, kept := true, late := 0 }]
  let b := bumpWhile (hevcCrowded d) (n + 1) m
  (b.1, a.2 ++ b.2)

/-- The status of a fault by its row in the table of R477. -/
def faultStatus (k : Nat) : Nat := St.VC_SYNTAX + k % 4

/-- A bitstream fault (R477), its status first: counted by its event and latched until VCD_RC_FAULT0 is read. -/
def State.rcFault (s : State) (d : Nat) (f : Nat × Nat × Nat × Nat) : State :=
  let core := d / 4
  let t := s.updDec d fun x => { x with fault := true }
  let t1 := if s.on F.VCD_RC_FAULT0_valid core then t
    else (((((t.wr F.VCD_RC_FAULT0_valid 1 core).wr F.VCD_RC_FAULT0_context d core).wr F.VCD_RC_FAULT0_code f.1 core).wr F.VCD_RC_FAULT1_offset f.2.1
      core).wr F.VCD_RC_FAULT2_ctu f.2.2.1 core).wr F.VCD_RC_FAULT3_poc f.2.2.2 core
  t1.raise core Ev.VCD_DECODE_FAULT (le 2 f.1 ++ le 1 d ++ le 4 f.2.1 ++ le 4 f.2.2.1 ++ le 4 f.2.2.2)

/-- Where the last start code of a buffer ends, or 0 (R473; DEDUCED, log 125). -/
def startsEnd (bs : List Byte) : Nat :=
  (bs.foldl (fun (a : Nat × Nat × Nat) b =>
    (a.1 + 1, if b = 0 then a.2.1 + 1 else 0, if b = 1 ∧ 2 ≤ a.2.1 then a.1 + 1 else a.2.2)) (0, 0, 0)).2.2

/-- The command in hand of a decode context ends: the bytes it consumed stay consumed (R471, R473). -/
def State.rcEnd (s : State) (d : Nat) : State :=
  s.updDec d fun x => match x.work with
    | some w => { x with history := x.history ++ w.bytes.take w.done, work := none }
    | none => x

/-- Pictures due for output are written, as far as max_pics allows (R473, R474); whether one did not fit. -/
def State.rcWrite (s : State) (d : Nat) (c : Cmd) (w : RcWork) : State × Bool :=
  let x := s.vcd.dec.getD d RcSt.init
  let r := s.rcOutput d (c.w 40) (c.h 18 - w.written) (c.d 32 + w.written * c.w 40) x.held
  (r.1.updDec d fun x => { x with held := r.2.2.2, work := x.work.map fun w => { w with written := w.written + r.2.1 } }, r.2.2.1)

/-- The next picture of a RC_DECODE is decoded (R473, R475); false where the pool has too little room for it. -/
def State.rcPicture (s : State) (d : Nat) (a : HevcStep) : State × Bool :=
  let h := d / 4
  let got := match a.sps with
    | none => some s
    | some q =>
      let t := s.updPool h fun l => l.filter fun b => b.owner ≠ 16 + d
      (t.poolTake h (16 + d) (poolSize q.2.1 q.2.2.1 (q.2.2.2 == 2)) (q.1 + 1)).map fun l => t.updPool h fun _ => l
  match got with
  | none => ((s.updDec d fun x => { x with fault := true }), false)
  | some t =>
    (t.updDec d fun x =>
      let e := hevcEnter a x.dpb
      { x with dpb := e.1, held := x.held ++ e.2, work := x.work.map fun w => { w with steps := w.steps.drop 1, done := a.used } }, true)

/-- A RC_DECODE goes on by one picture (R471, R473 to R477), and after the last it ends: with the fault that stopped it, or with the pictures
written and the bytes consumed. At an end = 1 the pictures left come out in order. -/
def State.rcGo (s : State) (c : Cmd) (d : Nat) (w : RcWork) : State :=
  let a := match w.steps with
    | [] => (s, true)
    | y :: _ => s.rcPicture d y
  if !a.2 then (a.1.rcEnd d).complete c.id St.VC_POOL_FULL
  else
    let ends := decide (w.steps.length ≤ 1)
    let t := a.1.whenB (ends && w.fault.isNone && bitOf (c.b 17) 1) fun s => s.updDec d fun x =>
      { x with dpb := [], held := x.held ++ (bumpWhile (fun _ => true) x.dpb.length x.dpb).2 }
    let t1 := t.whenB (ends && w.fault.isNone) fun s => s.updDec d fun x => { x with work := x.work.map fun w => { w with done := w.used } }
    let r := t1.rcWrite d c w
    match (r.1.vcd.dec.getD d RcSt.init).work with
    | none => r.1
    | some v =>
      if r.2 then (r.1.rcEnd d).complete c.id St.VC_OUT_SMALL v.written v.done
      else if !ends then r.1
      else match w.fault with
        | some f => (((r.1.rcEnd d).rcFault d (faultStatus f.1, f.2)).complete c.id (faultStatus f.1) f.2.1 f.2.2.1)
        | none => (r.1.rcEnd d).complete c.id St.OK v.written v.done

/-- A RC_DECODE begins (R472, R473, R477): with its reset bit the context is made new, a faulted context answers VC_CTX_FAULT, and else the
buffer is read and the first picture decoded. -/
def State.rcBegin (s0 : State) (c : Cmd) (data : List Byte) : State :=
  let d := c.b 16
  let s := if bitOf (c.b 17) 0 then s0.rcReset d else s0
  let x := s.vcd.dec.getD d RcSt.init
  if x.fault then s.complete c.id St.VC_CTX_FAULT
  else
    let bs := padTo (c.w 20) (data.take (c.w 20))
    let used := if bitOf (c.b 17) 1 then bs.length else startsEnd bs
    let o := Config.hevc x.history (bs.take used)
    let w : RcWork := { cmd := c.id, bytes := bs, steps := o.steps, fault := o.fault, done := 0, used := used, written := 0 }
    ((s.emit (.hostRead (c.d 24) (c.w 20))).updDec d fun x => { x with work := some w }).rcGo c d w

/-- RC_DECODE (R471 to R477): data are the bitstream bytes read from host memory. It waits for a plan check in progress (R278), for a core whose
block reset is under way (R565) and for an earlier RC_DECODE of its context. A RC_DECODE of one in hand carries it on by a picture
(DESIGN CHOICE, log 61). -/
def execRcDecode (id : Nat) (data : List Byte) (s : State) : Out :=
  match s.cmd id with
  | none => .next s
  | some c =>
    match (s.vcd.dec.getD (c.b 16) RcSt.init).work with
    | some w => if w.cmd = id ∧ c.opcode = 0x28 ∧ c.stage = .running then .next (s.rcGo c (c.b 16) w)
        else .next (if rcBad c then s.startCmd id 0x28 fun _ s => s.complete id St.VC_BAD_REQ else s)
    | none =>
      if s.planPending then .next (s.waitPlan (.rcDecode id data))
      else if !rcBad c && !s.takesWork (0x40 + c.b 16 / 4) then .next s
      else .next (s.startCmd id 0x28 fun c s => if rcBad c then s.complete id St.VC_BAD_REQ else s.rcBegin c data)

/-- A half reset of the cores' half, or their domain held or off (R478, R550): contexts close at once, decode contexts are reset, and
the commands of the half end with a status. -/
def State.vcdReset (s : State) (h status : Nat) : State :=
  let mine := fun c : Cmd => c.stage != .ended &&
    (((c.opcode == 0x20 || c.opcode == 0x21 || c.opcode == 0x22) && s.scHalf (c.b 16 % 16) == h) || (c.opcode == 0x28 && c.b 16 % 8 / 4 == h))
  let t := (s.host.cmds.filter mine).foldl (fun (s : State) c => s.complete c.id status) s
  let t1 := t.each ((List.range 16).filter fun x => s.scHalf x == h && s.rd F.VCD_SC_STATUS_state x != 0) State.scClosed
  t1.each ((List.range 8).filter fun d => d / 4 == h) State.rcReset

end Sys2Proof.Machine
end

