-- ==== Sys2Proof/Machine/Raster.lean ====
section
/-! DEFINITION. Raster outputs and viewfinder ports (spec/14). Output o is SDI o for 0 to 3 and DSI o - 4 for 4 and 5. -/
namespace Sys2Proof.Machine

/-! ### Shared parts -/

def State.outp (s : State) (o : Nat) : OutSt := s.outs.getD o OutSt.init

def State.updOut (s : State) (o : Nat) (f : OutSt → OutSt) : State := { s with outs := updAt s.outs o f }

/-- The output is a DSI port. -/
def isDsi (o : Nat) : Bool := decide (4 ≤ o)

def State.lockState (s : State) (o : Nat) : Nat := s.rd F.RAS_OUT_STATUS_lock_state o

/-- The lock states in which an output sends pictures (R485). -/
def State.sending (s : State) (o : Nat) : Bool :=
  let l := s.lockState o
  (l == 3 || l == 4 || l == 5) && (!isDsi o || s.rd F.RAS_OUT_STATUS_dsi_mode o == 3)

/-- A rate code as frames per second (R481). -/
def rateOf (code : Nat) : Nat × Nat :=
  [(24000, 1001), (24, 1), (25, 1), (30000, 1001), (30, 1), (50, 1), (60000, 1001), (60, 1)].getD code (60, 1)

/-- Active width, active lines and total lines of an SDI format (R481). -/
def formatOf (f : Nat) : Nat × Nat × Nat :=
  if f = 0 then (1920, 1080, 1125) else if f = 1 then (3840, 2160, 2250) else (7680, 4320, 4500)

/-- Active width, active lines and total lines of an output's set. -/
def rasterOf (r : RegStore) (o : Nat) : Nat × Nat × Nat :=
  if isDsi o then
    (regOf r F.RAS_DSI_HTIM0_active (o - 4), regOf r F.RAS_DSI_VTIM0_active (o - 4), regOf r F.RAS_DSI_VTIM0_total (o - 4))
  else formatOf (regOf r F.RAS_OUT_FMT_format o)

/-- The fields of an output's set in force. -/
def State.outView (s : State) (o : Nat) : Nat := regOf (s.outp o).inForce F.RAS_OUT_CTRL_view o
def State.outLive (s : State) (o : Nat) : Bool := regOn (s.outp o).inForce F.RAS_OUT_CTRL_source o
def State.outLock (s : State) (o : Nat) : Nat := regOf (s.outp o).inForce F.RAS_OUT_CTRL_lock o
def State.outPrimer (s : State) (o : Nat) : Nat := regOf (s.outp o).inForce F.RAS_OUT_CTRL_primer o

/-- A picture's slot let go. -/
def State.outRelease (s : State) (o : Nat) : State :=
  match (s.outp o).pic with
  | none => s
  | some p => if p.held then (s.dropViewHold p.view p.slot (.out o)).updOut o fun x => { x with pic := some { p with held := false } } else s

/-! ### Lock states -/

/-- An output goes OFF (R484). -/
def State.outOff (s : State) (o : Nat) : State :=
  (((s.outRelease o).wr F.RAS_OUT_STATUS_lock_state 0 o).updOut o fun x =>
    { x with starts := 0, pulses := 0, pic := none, issued := [], buffer := [], line := 0, cut := false, under := false, prevCut := false,
             prevUnder := false }).wr F.RAS_OUT_STATUS_wet 0 o

/-- An output enters ACQUIRE: a phase error beyond 1 sample is taken out by one jump (R484, R485). -/
def State.outAcquire (s : State) (o : Nat) : State :=
  let t := (s.wr F.RAS_OUT_STATUS_lock_state 2 o).updOut o fun x => { x with starts := 0, pulses := 0 }
  if (toSigned 16 (s.rd F.RAS_OUT_STATUS_phase_err o)).natAbs ≤ 1 then t
  else (t.flagCount F.RAS_OUT_FLAGS_rephase F.RAS_OUT_CNT2_rephase o).raise 0 Ev.RAS_REPHASE (le 1 o)

/-- An OFF output that is enabled, not shed and out of reset starts (R484). A quad group is shed from level 3 on (R593, R595). -/
def State.outOn (s : State) (o : Nat) : State :=
  if o = 0 ∧ regOn (s.outp o).inForce F.RAS_OUT_CTRL_quad o = true ∧ 3 ≤ s.sys.shed.getD 0 0 then (s.outOff 0).wr F.RAS_OUT_STATUS_shed 1 0
  else if s.lockState o = 0 ∧ regOn (s.outp o).inForce F.RAS_OUT_CTRL_enable o = true ∧ s.rd F.RAS_OUT_STATUS_shed o = 0 ∧ s.released 29 = true ∧ s.blockUp (0x70 + o) = true then
    if s.outLock o = 2 then s.wr F.RAS_OUT_STATUS_lock_state 5 o
    else
      let t := s.wr F.RAS_OUT_STATUS_lock_state 1 o
      if s.outLock o = 1 ∧ s.ptpUnlocked = false then t.outAcquire o else t
  else s

/-- A LOCKED output loses its source (R484). -/
def State.outLost (s : State) (o : Nat) : State :=
  if s.lockState o = 3 then
    ((s.wr F.RAS_OUT_STATUS_lock_state 4 o).flagCount F.RAS_OUT_FLAGS_lock_lost F.RAS_OUT_CNT2_lock_lost o).raise 0 Ev.RAS_LOCK_LOST (le 1 o)
  else s

/-- The PTP time base becomes locked or unlocked: the outputs locked to it follow (R484). -/
def State.rasPtp (s : State) (locked : Bool) : State :=
  s.each ((List.range 6).filter fun o => s.outLock o == 1) fun s o =>
    if locked then (if s.lockState o = 1 ∨ s.lockState o = 4 then s.outAcquire o else s) else s.outLost o

/-- A V pulse period against an output's rate (R483, R484): 2 half frames at the output's rate, 1 at twice it, 0 off nominal by
more than 0.1%. -/
def pulseHalves (rate period : Nat) : Nat :=
  let q := rateOf rate
  let near := fun (n : Nat) => decide (1000 * ((n * period * q.1 : Nat) - (1000000000 * q.2 : Nat) : Int).natAbs ≤ 1000000000 * q.2)
  if near 1 then 2 else if near 2 then 1 else 0

/-- A V pulse at the outputs locked to VREF (R483, R484): period is the time since the last pulse in ns. -/
def State.rasPulse (s : State) (period : Nat) : State :=
  (List.range 6).foldl (fun (s : State) o =>
    let s := s.updOut o fun x => { x with period := period }
    if s.outLock o = 0 then
      let k := pulseHalves (regOf (s.outp o).inForce F.RAS_OUT_FMT_rate o) period
      let l := s.lockState o
      if k = 0 then (s.updOut o fun x => { x with pulses := 0 }).outLost o
      else if l = 1 ∨ l = 4 then
        let t := s.updOut o fun x => { x with pulses := x.pulses + k }
        if 4 ≤ (t.outp o).pulses then t.outAcquire o else t
      else s
    else s) s

/-- RAS_REFERENCE_LOSS (R484): no V pulse for 2 frame periods, or one off rate. -/
def execRasReferenceLoss (o : Nat) (s : State) : Out :=
  .next (if s.outLock o = 0 then (s.updOut o fun x => { x with pulses := 0 }).outLost o else s)

/-! ### DSI modes -/

/-- A view that is enabled and whose easel is open (R499). -/
def State.viewValid (s : State) (v : Nat) : Bool := s.viewOn v && s.rd F.EASEL_STATUS_state (s.viewEasel v) != 0

/-- A DSI port takes a mode (R499). -/
def State.dsiMode (s : State) (o m : Nat) : State := (s.wr F.RAS_OUT_STATUS_dsi_mode m o).raise 0 Ev.RAS_DSI_MODE (le 1 o)

/-- A region push is outstanding on a port. -/
def State.pushing (s : State) (o : Nat) : Bool :=
  (s.outp o).queue.any fun q => match s.cmd q.1 with | some c => c.opcode == 0x30 | none => false

/-- The switch at a frame boundary (R499). -/
def State.dsiSwitch (s : State) (o : Nat) : State :=
  let l := s.lockState o
  let run := regOn (s.outp o).inForce F.RAS_OUT_CTRL_enable o && s.viewValid (s.outView o) && (l == 3 || l == 4 || l == 5)
  let m := s.rd F.RAS_OUT_STATUS_dsi_mode o
  if m = 2 ∧ run = true ∧ s.pushing o = false then s.dsiMode o 3
  else if m = 3 ∧ run = false then
    ((s.outRelease o).updOut o fun x => { x with pic := none, line := 0, issued := [], buffer := [] }).dsiMode o 2
  else s

/-- RAS_FRAME_START (R484, R499): the phase error in samples is read, an output in ACQUIRE locks after 16 starts within 1 sample,
and a DSI port switches its mode. -/
def execRasFrameStart (o : Nat) (err : Int) (s : State) : Out :=
  let l := s.lockState o
  let s1 := if l = 0 then s else s.wr F.RAS_OUT_STATUS_phase_err (ofSigned 16 err) o
  let s2 :=
    if l = 2 then
      let n := if err.natAbs ≤ 1 then (s1.outp o).starts + 1 else 0
      let t := s1.updOut o fun x => { x with starts := n }
      if 16 ≤ n then (t.wr F.RAS_OUT_STATUS_lock_state 3 o).raise 0 Ev.RAS_LOCKED (le 1 o) else t
    else s1
  .next (if isDsi o then s2.dsiSwitch o else s2)

/-! ### Commits -/

/-- The shadows of an output (R501). -/
def State.outShadow (s : State) (o : Nat) : RegStore :=
  s.shadow 0x1100000 0x1100100 o ++ (if isDsi o then s.shadow 0x1104100 0x1104114 (o - 4) else s.shadow 0x1100100 0x1100104 o)

/-- RAS_OUT_COMMIT (R501): go is refused while one is pending, and a change of format, rate, lock or source while enabled. -/
def execRasOutCommit (o : Nat) (s : State) : Out :=
  let r := s.outShadow o
  let old := (s.outp o).inForce
  let moved := [F.RAS_OUT_FMT_format, F.RAS_OUT_FMT_rate, F.RAS_OUT_CTRL_lock, F.RAS_OUT_CTRL_source].any fun f => regOf r f o != regOf old f o
  if s.on F.RAS_OUT_COMMIT_pending o || (regOn old F.RAS_OUT_CTRL_enable o && moved) then .next (s.wr F.RAS_OUT_FLAGS_cfg_refused 1 o)
  else .next ((s.wr F.RAS_OUT_COMMIT_pending 1 o).updOut o fun x => { x with check := some r })

/-- The rules a set must meet on an SDI output beside its view (R482), and on a DSI port (R501). -/
def State.outLink (s : State) (r : RegStore) (o : Nat) : Bool :=
  let rate := rateOf (regOf r F.RAS_OUT_FMT_rate o)
  decide (regOf r F.RAS_OUT_FMT_rate o ≤ 7) &&
  if isDsi o then
    let d := o - 4
    let vt := regOf r F.RAS_DSI_VTIM0_total d
    let bpp := if regOn r F.RAS_DSI_CFG_bpp d then 30 else 24
    (regOf r F.RAS_OUT_CTRL_lock o != 0 || pulseHalves (regOf r F.RAS_OUT_FMT_rate o) (s.outp o).period == 2)
      && decide (regOf r F.RAS_DSI_HTIM0_total d * vt * rate.1 ≤ 600000000 * rate.2)
      && decide (10 * (bpp * regOf r F.RAS_DSI_HTIM0_active d * vt * rate.1)
          ≤ 9 * ((regOf r F.RAS_DSI_CFG_lanes d + 1) * (regOf r F.RAS_DSI_CFG_lane_mbps d * 1000000)) * rate.2)
  else
    let f := regOf r F.RAS_OUT_FMT_format o
    decide (f < 2) || (f == 2 && o == 0 && regOn r F.RAS_OUT_CTRL_quad o)

/-- The rules a set must meet with its view (R489, R490, R492). -/
def State.outFits (s : State) (r : RegStore) (o : Nat) : Bool :=
  let v := regOf r F.RAS_OUT_CTRL_view o
  let vr := (s.view v).inForce
  let w := regOf vr F.VIEW_OUT_SIZE_x v
  let h := regOf vr F.VIEW_OUT_SIZE_y v
  let fmt := regOf vr F.VIEW_FMT_format v
  let g := rasterOf r o
  let x0 := regOf r F.RAS_OUT_POS_x o
  let y0 := regOf r F.RAS_OUT_POS_y o
  let q := rateOf (regOf r F.RAS_OUT_FMT_rate o)
  let tf := if stackOf (s.viewBase v) = 0 then 2000 else 2500
  let p := regOf r F.RAS_OUT_CTRL_primer o
  x0 % 2 == 0 && y0 % 2 == 0 && decide (x0 + w ≤ g.1) && decide (y0 + h ≤ g.2.1)
    && (if isDsi o then fmt == 3 && regOf vr F.VIEW_FMT_depth v == 1 else fmt != 3)
    && decide (ceilDiv (tf * (q.1 * g.2.2)) (q.2 * 1000000000) + 1 ≤ p) && decide (p * lineBytes fmt w ≤ bufferBytes r o)

/-- A set takes effect: an output that it disables goes OFF, one that it enables starts. -/
def State.outApply (s : State) (o : Nat) (r : RegStore) : State :=
  let t := (s.wr F.RAS_OUT_COMMIT_pending 0 o).updOut o fun x => { x with inForce := r, ready := none }
  if regOn r F.RAS_OUT_CTRL_enable o then t.outOn o else t.outOff o

/-- RAS_OUT_COMMIT_CHECK_DONE (R501): an OFF output takes the set at once, others at the next select point. -/
def execRasOutCommitCheckDone (o : Nat) (s : State) : Out :=
  match (s.outp o).check with
  | none => .next s
  | some r =>
    let t := s.updOut o fun x => { x with check := none }
    if s.outLink r o && s.outFits r o then
      .next (if s.lockState o = 0 then t.outApply o r else t.updOut o fun x => { x with ready := some r })
    else .next ((t.wr F.RAS_OUT_FLAGS_cfg_bad 1 o).wr F.RAS_OUT_COMMIT_pending 0 o)

/-! ### Pictures and lines -/

/-- The state of a picture's frame as its consumers know it (R153): 0 unsettled, 1 DRY, 2 DAMAGED, 3 SCRAPED; of a frame no longer kept, the
slot's. -/
def State.picState (s : State) (x : ViewSlot) : Nat :=
  match s.frame x.easel x.serial with
  | some f => if f.st = .dry then 1 else if f.st = .damaged then 2 else if f.st = .scraped then 3 else 0
  | none => x.state

/-- The picture in a ring slot as a consumer carries it. -/
def State.picOf (s : State) (v k : Nat) (again held : Bool) : OutPic :=
  let x := s.ringSlot v k
  { view := v, slot := k, easel := x.easel, serial := x.serial, wet := x.wet, state := s.picState x,
    fault := if s.picState x = 0 then 0 else match s.frame x.easel x.serial with | some f => f.fault | none => x.fault,
    tc := match s.frame x.easel x.serial with | some f => f.tc | none => 0, again := again, held := held }

/-- The slots of a view that qualify in ring mode (R487), with their picture counts. -/
def State.qualifying (s : State) (v : Nat) (dryOnly : Bool) : List (Nat × Nat) :=
  (withIndex (s.view v).ring).filterMap fun p =>
    let st := s.picState p.2
    if p.2.used && !p.2.writing && st != 3 && (!dryOnly || st == 1 || st == 2) then some (p.1, p.2.count) else none

/-- The newest qualifying slot of a view (R487): the slot, its count, a repeat of the last one sent, pictures passed over. One
passed over whose slot has been written again counts as having qualified (DEDUCED, log 126). -/
def State.chooseSlot (s : State) (v : Nat) (dryOnly : Bool) (last : Option (Nat × Nat)) : Option (Nat × Nat × Bool × Nat) :=
  let l := s.qualifying v dryOnly
  let top := listMax (l.map Prod.snd)
  let before := match last with | some b => if b.1 = v then some b.2 else none | none => none
  let unfit := fun b : Nat => ((s.view v).ring.filter fun x => decide (b < x.count) && decide (x.count < top) && !l.any fun q => q.2 == x.count).length
  match l.find? (fun p => p.2 == top) with
  | none => none
  | some p =>
    let passed := match before with | some b => top - b - 1 - unfit b | none => 0
    some (p.1, top, before == some top, passed)

/-- The slot of the picture a view is writing. -/
def State.writingSlot (s : State) (v : Nat) : Option Nat := (oldestWriting (s.view v).ring).map Prod.fst

/-- The picture of an output in live mode: the one the view stage is producing (R488, R496). No hold is taken. -/
def State.livePick (s : State) (o : Nat) : State :=
  match (s.outp o).pic, s.writingSlot (s.outView o) with
  | none, some k =>
    let p := s.picOf (s.outView o) k false false
    if p.state = 3 then s else (s.updOut o fun x => { x with pic := some p }).wr F.RAS_OUT_STATUS_wet (b2n p.wet) o
  | _, _ => s

/-- The picture of an output in live mode as it is known at the start of the VANC line (R496). -/
def State.liveKnown (s : State) (o : Nat) : State :=
  match (s.outp o).pic with
  | some p =>
    let x := s.ringSlot p.view p.slot
    if x.easel = p.easel ∧ x.serial = p.serial then s.updOut o fun y => { y with pic := some (s.picOf p.view p.slot p.again p.held) } else s
  | none => s.livePick o

/-- The choice at a ring-mode select point (R487, R491). -/
def State.ringPick (s : State) (o : Nat) : State :=
  let v := s.outView o
  let s0 := (s.outRelease o).updOut o fun x => { x with pic := none, issued := [], buffer := [] }
  match s0.chooseSlot v (regOn (s.outp o).inForce F.RAS_OUT_CTRL_dry_only o) (s.outp o).last with
  | none => s0.wr F.RAS_OUT_STATUS_wet 0 o
  | some (k, count, again, passed) =>
    let p := s0.picOf v k again true
    let t := (s0.takeViewHold v k (.out o)).updOut o fun x =>
      { x with pic := some p, last := some (v, count), issued := List.range (min (s.outPrimer o) (s.viewHeight v)) }
    let t1 := (t.wr F.RAS_OUT_STATUS_wet (b2n p.wet) o).bump F.RAS_OUT_CNT_skip o 0 passed
    if again then t1.bump F.RAS_OUT_CNT_repeat o else t1

/-- RAS_SELECT_POINT (R487, R501): a set that waits takes effect, then the picture of the coming frame is chosen. -/
def execRasSelectPoint (o : Nat) (s : State) : Out :=
  let t := match (s.outp o).ready with | some r => s.outApply o r | none => s
  .next (if t.sending o && t.takesWork (0x70 + o) && t.viewOn (t.outView o) then (if t.outLive o then t.livePick o else t.ringPick o) else t)

/-- The planes of a view in force. -/
def State.viewPlanes (s : State) (v : Nat) : List (Nat × Nat) :=
  let r := (s.view v).inForce
  planeSizes (regOf r F.VIEW_FMT_format v) (regOf r F.VIEW_OUT_SIZE_x v) (regOf r F.VIEW_OUT_SIZE_y v)

/-- The address of a line of a plane of a ring slot (R219). -/
def State.slotLineAddr (s : State) (v k plane n : Nat) : Nat :=
  let sizes := s.viewPlanes v
  s.viewSlotAddr v k + 64 + sumOver ((sizes.take plane).map fun p => pitch p.1 * p.2) id + n * pitch (sizes.getD plane (0, 0)).1

/-- A line of a plane of a ring slot, a sample free where its read is uncorrectable (R219, R272). -/
def State.slotLine (s : State) (v k plane n : Nat) : List Nat :=
  (List.range ((s.viewPlanes v).getD plane (0, 0)).1).map fun x => ofLe (s.fetch (s.slotLineAddr v k plane n + 2 * x) 2)

/-- The samples a fetch of a picture line brings: a 4:2:0 chroma line comes with its even line (R490). -/
def State.fetchLine (s : State) (v k n : Nat) : List (List Nat) :=
  if regOf (s.view v).inForce F.VIEW_FMT_format v = 2 then
    if n % 2 = 0 then [s.slotLine v k 0 n, s.slotLine v k 1 (n / 2), s.slotLine v k 2 (n / 2)] else [s.slotLine v k 0 n]
  else [s.slotLine v k 0 n, s.slotLine v k 1 n, s.slotLine v k 2 n]

/-- The raster line that carries a picture line (R488). -/
def State.rasterLine (s : State) (o n : Nat) : Nat := regOf (s.outp o).inForce F.RAS_OUT_POS_y o + n

/-- A line is put into the line buffer unless it was due already (R488, R493). -/
def State.bufferLine (s : State) (o n : Nat) (data : List (List Nat)) : State :=
  if s.rasterLine o n < (s.outp o).line then s else s.updOut o fun x => { x with buffer := (n, data) :: x.buffer }

/-- RAS_LINE_FETCH_DONE (R492, R493, R502): the line reaches the buffer unless its stack's domain is in reset, and the last one
of the picture ends the hold (R487). The read waits for a stack that takes no request (R269, R270). -/
def execRasLineFetchDone (o n : Nat) (s : State) : Out :=
  match (s.outp o).pic with
  | none => .next s
  | some p =>
    if s.released (24 + stackOf (s.viewBase p.view)) && s.stackWaits (stackOf (s.viewBase p.view)) then .next s
    else if (s.outp o).issued.contains n then
      let t := s.updOut o fun x => { x with issued := x.issued.filter (· ≠ n) }
      let t1 := if s.released (24 + stackOf (s.viewBase p.view)) then
        (t.hbmRead (s.slotLineAddr p.view p.slot 0 n) (2 * s.viewWidth p.view)).bufferLine o n (s.fetchLine p.view p.slot n) else t
      .next (if n + 1 = s.viewHeight p.view then t1.outRelease o else t1)
    else .next s

/-- A line of the view stage's picture in slot k is made: it stands in the slot, lets the views go on, and joins the output's buffer while
the output sends (R77, R491, R494). -/
def State.liveLine (s : State) (o n k : Nat) (f : Frame) : State :=
  let v := s.outView o
  let x := s.ringSlot v k
  let t := (s.updViewSlot v k fun x => { x with lines := max x.lines (n + 1) }).viewsRun
  let ps := planes x.set v fun ox oy => (s.viewPixels v x f ox oy).1
  let row := fun p i => ((ps.getD p []).getD i [])
  let data := if regOf x.set F.VIEW_FMT_format v = 2 then
      (if n % 2 = 0 then [row 0 n, row 1 (n / 2), row 2 (n / 2)] else [row 0 n])
    else [row 0 n, row 1 n, row 2 n]
  if t.sending o then (t.livePick o).bufferLine o n data else t

/-- RAS_LIVE_LINE_ARRIVE (R77, R486, R488): the view stage writes output line n of the picture it produces into the line buffer, once the tiles
under it are at hand. A full buffer of any of the view's live outputs holds the stage, and with it the lines to the others; a line that the
stage has already written goes into the buffers that still lack it. -/
def execRasLiveLineArrive (o n : Nat) (s : State) : Out :=
  let v := s.outView o
  match s.writingSlot v with
  | none => .next s
  | some k =>
    let x := s.ringSlot v k
    match s.frame x.easel x.serial, s.statFrame x.easel x.serial with
    | some f, some g =>
      .next (if s.outLive o && decide (n < s.viewHeight v) && s.lineIn v x f g n && !s.bufferFull o v && (decide (n < x.lines) || !s.viewHeld v)
        then s.liveLine o n k f else s)
    | _, _ => .next s

/-- A sample brought to the output's depth (R490): 12-bit views rounded, full-range SDI values limited. -/
def outSample (sdi full twelve bits30 : Bool) (v : Nat) : Nat :=
  if sdi then
    let x := if twelve then min 1023 ((v + 2) / 4) else v
    if full then min 1019 (max 4 x) else x
  else if bits30 then min 1023 ((v + 2) / 4) else min 255 ((v + 8) / 16)

/-- Chroma of a 4:4:4 line on even columns (R218, R490). -/
def evenChroma (l : List Nat) : List Nat :=
  let w := l.length
  (List.range (w / 2)).map fun j => (Frac.round (cosite w (fun x => ((l.getD x 0 : Nat), 1)) j)).toNat

/-- A picture line as the output sends it (R490), when all of it is in the buffer. -/
def State.sendLine (s : State) (o n : Nat) (p : OutPic) : Option (List (List Nat)) :=
  let r := (s.view p.view).inForce
  let fmt := regOf r F.VIEW_FMT_format p.view
  let get := fun i => ((s.outp o).buffer.find? fun e => e.1 == i).map Prod.snd
  let conv := fun (l : List Nat) => l.map (outSample (!isDsi o) (regOf r F.VIEW_FMT_range p.view == 1)
    (regOf r F.VIEW_FMT_depth p.view == 1) (regOn (s.outp o).inForce F.RAS_DSI_CFG_bpp (o - 4)))
  match get n, get (n - n % 2) with
  | some l, some e =>
    if fmt = 2 then some ([l.getD 0 [], e.getD 1 [], e.getD 2 []].map conv)
    else if fmt = 0 then some ([l.getD 0 [], evenChroma (l.getD 1 []), evenChroma (l.getD 2 [])].map conv)
    else some (l.map conv)
  | some l, none => if fmt = 2 then none else if fmt = 0 then some ([l.getD 0 [], evenChroma (l.getD 1 []), evenChroma (l.getD 2 [])].map conv)
    else some (l.map conv)
  | none, _ => none

/-- The user data bytes of the picture packet (R496). -/
def State.picturePacket (s : State) (o : Nat) : List Byte :=
  let x := s.outp o
  let late := 32 * b2n x.prevCut + 64 * b2n x.prevUnder + 128 * b2n (s.lockState o == 4)
  match x.pic with
  | none => le 6 0 ++ le 1 (4 * s.outView o) ++ le 1 (6 + 16 + late) ++ le 2 0 ++ le 1 o ++ List.replicate 5 (0 : Byte)
  | some p => le 6 p.serial ++ le 1 (p.easel + 4 * p.view) ++ le 1 (b2n p.wet + 2 * p.state + 8 * b2n p.again + 16 * b2n x.cut + late)
      ++ le 2 p.fault ++ le 1 o ++ List.replicate 5 (0 : Byte)

/-- A word of an ancillary packet (R496): even parity over the value in bit 8, and its inverse in bit 9. -/
def ancWord (v : Nat) : Nat :=
  let odd := ((List.range 8).filter fun k => bitOf v k).length % 2
  v % 256 + 256 * odd + 512 * (1 - odd)

/-- A type 2 packet inserted on a link. -/
def State.anc (s : State) (link line did sdid : Nat) (data : List Byte) : State :=
  s.emit (.anc link line did sdid (data.map fun b => ancWord b.toNat))

/-- The packets of the VANC line on each link of an output (R495). -/
def State.ancLine (s : State) (o : Nat) : State :=
  let s := if s.outLive o && s.sending o then s.liveKnown o else s
  let r := (s.outp o).inForce
  let line := regOf r F.RAS_SDI_ANC_line o
  s.each (if regOn r F.RAS_OUT_CTRL_quad o then [0, 1, 2, 3] else [o]) fun s k =>
    let fmt := regOf r F.RAS_OUT_FMT_format o
    let rate := regOf r F.RAS_OUT_FMT_rate o
    let t := s.anc k line 0x41 0x01 (le 4 (Config.payloadId fmt rate k).toNat)
    let t1 := match (s.outp o).pic with
      | some p => if regOn r F.RAS_SDI_ANC_atc o then t.anc k line 0x60 0x60 (Config.atcWords rate p.tc) else t
      | none => t
    if regOn r F.RAS_SDI_ANC_wet_pkt o then t1.anc k line 0x51 0x4E (s.picturePacket o) else t1

/-- The raster frame ends with its last active line. -/
def State.outFrameEnd (s : State) (o : Nat) : State :=
  (s.outRelease o).updOut o fun x =>
    { x with line := 0, pic := none, issued := [], buffer := [], prevCut := x.cut, prevUnder := x.under, cut := false, under := false }

/-- A whole active line: the samples of a picture line from the picture's origin on, black beside them (R485, R489). -/
def State.activeLine (s : State) (o : Nat) (l : List (List Nat)) : List (List Nat) :=
  let r := (s.outp o).inForce
  (List.range 3).map fun i =>
    let part := if i ≠ 0 ∧ isDsi o = false then 2 else 1
    let black := if isDsi o then 0 else if i = 0 then 64 else 512
    let w := (rasterOf r o).1 / part
    let x0 := if l.isEmpty then 0 else regOf r F.RAS_OUT_POS_x o / part
    let line := List.replicate x0 black ++ l.getD i []
    (line ++ List.replicate (w - line.length) black).take w

/-- A picture line that is due and not wholly in the buffer (R493): it goes out black and is counted, and the first of a raster frame is reported. -/
def State.lineMissing (s : State) (o : Nat) : State :=
  let t := (((s.emit (.rasterLine o (s.outp o).line (s.activeLine o []))).flagCount F.RAS_OUT_FLAGS_underflow F.RAS_OUT_CNT_underflow o).updOut o
    fun x => { x with under := true })
  if (s.outp o).under then t else t.raise 0 Ev.RAS_UNDERFLOW (le 1 o)

/-- The active line that is due (R485, R491, R493). In live mode a line of the picture's rows for which no picture has come is missing, as one of
a picture is. -/
def State.dueLine (s : State) (o : Nat) : State :=
  let x := s.outp o
  let r := x.line
  let y0 := regOf x.inForce F.RAS_OUT_POS_y o
  let n := r - y0
  let black := s.emit (.rasterLine o r (s.activeLine o []))
  let t := match x.pic with
    | none =>
      if s.outLive o && s.sending o && !x.cut && decide (y0 ≤ r) && decide (r < y0 + s.viewHeight (s.outView o)) then s.lineMissing o else black
    | some p =>
      let h := s.viewHeight p.view
      if !s.sending o || x.cut || decide (r < y0) || decide (y0 + h ≤ r) then black
      else
        let t := match s.sendLine o n p with
          | some l => s.emit (.rasterLine o r (s.activeLine o l))
          | none => s.lineMissing o
        let next := n + s.outPrimer o
        if !s.outLive o && decide (next < h) then t.updOut o fun x => { x with issued := x.issued ++ [next] } else t
  let t1 := t.updOut o fun x => { x with line := r + 1, buffer := x.buffer.filter fun e => decide (n < e.1 + 2) }
  if (rasterOf x.inForce o).2.1 ≤ r + 1 then t1.outFrameEnd o else t1

/-- RAS_LINE_DUE (R485, R493 to R496): the VANC line of the ancillary packets, or the next active line. A DSI port outside VIDEO and
an OFF output send nothing. -/
def execRasLineDue (o : Nat) (vanc : Bool) (s : State) : Out :=
  if s.lockState o = 0 ∨ (isDsi o = true ∧ s.rd F.RAS_OUT_STATUS_dsi_mode o ≠ 3) then .next s
  else if vanc then .next (if isDsi o then s else s.ancLine o)
  else .next (s.dueLine o)

/-- The settle notice at the outputs (R494, R502): a scraped picture's hold is let go and the rest of its frame is black. -/
def State.rasterNotice (s : State) (e serial : Nat) : State :=
  match s.frame e serial with
  | none => s
  | some f =>
    if f.st = .scraped then
      (List.range 6).foldl (fun (s : State) o => match (s.outp o).pic with
        | some p => if p.easel = e ∧ p.serial = serial ∧ (s.outp o).cut = false then
            ((s.outRelease o).updOut o fun x => { x with cut := true, issued := [] }).flagCount F.RAS_OUT_FLAGS_cut F.RAS_OUT_CNT2_cut o
          else s
        | none => s) s
    else s

/-! ### DSI commands -/

/-- The fields of RAS_REGION_PUSH are in range and the region lies in the panel's active area (R500). -/
def State.pushOk (s : State) (c : Cmd) : Bool :=
  let d := c.b 16
  let r := (s.outp (4 + d)).inForce
  decide (d ≤ 1) && c.b 17 == 0 && decide (1 ≤ c.h 22) && decide (c.h 22 ≤ 4095) && decide (1 ≤ c.h 24) && decide (c.h 24 ≤ 4095)
    && c.h 26 % 64 == 0 && c.d 28 % 64 == 0 && zeroBytes c.desc 36 64
    && decide (c.h 18 + c.h 22 ≤ regOf r F.RAS_DSI_HTIM0_active d) && decide (c.h 20 + c.h 24 ≤ regOf r F.RAS_DSI_VTIM0_active d)

/-- The fields of RAS_DCS are in range (R500). -/
def dcsOk (c : Cmd) : Bool :=
  decide (c.b 16 ≤ 1) && decide (c.b 17 ≤ 1) && decide (1 ≤ c.h 18) && decide (c.h 18 ≤ 28)
    && (if c.b 17 = 1 then decide (1 ≤ c.h 20) && decide (c.h 20 ≤ 4) else c.h 20 == 0) && zeroBytes c.desc 22 36

/-- The DCS commands of a push (R497, R500): column, page, then one memory write for each line. -/
def pushCommands (c : Cmd) (pixels : List Byte) : List (List Byte) :=
  let range := fun (k a n : Nat) => BitVec.ofNat 8 k :: (be 2 a ++ be 2 (a + n - 1))
  range 0x2A (c.h 18) (c.h 22) :: range 0x2B (c.h 20) (c.h 24)
    :: (List.range (c.h 24)).map fun y => (if y = 0 then 0x2C else 0x3C : Byte) :: bytesAt pixels (y * c.h 26) (3 * c.h 22)

/-- The commands of a port run in order of arrival up to the first that has to wait (R500). -/
def State.dsiRun (s : State) (o : Nat) : List (Nat × List Byte) → State
  | [] => s.updOut o fun x => { x with queue := [] }
  | q :: rest =>
    match s.cmd q.1 with
    | none => s.dsiRun o rest
    | some c =>
      if c.opcode = 0x30 then
        (s.each (pushCommands c q.2) fun s b => s.emit (.dsi (o - 4) false b)).updOut o fun x => { x with queue := q :: rest }
      else
        let t := s.emit (.dsi (o - 4) (c.b 17 == 1) (bytesAt c.desc 36 (c.h 18)))
        if c.b 17 = 1 then t.updOut o fun x => { x with queue := q :: rest, reading := some q.1 }
        else (t.complete q.1 St.OK).dsiRun o rest

/-- A command joins the queue of its port, and runs when the port is free. -/
def State.dsiJoin (s : State) (id o : Nat) (pixels : List Byte) : State :=
  let q := (s.outp o).queue
  if q.isEmpty then s.dsiRun o [(id, pixels)] else s.updOut o fun x => { x with queue := q ++ [(id, pixels)] }

/-- RAS_REGION_PUSH (R500): the pixels are read from host memory and sent in COMMAND mode. -/
def execRasRegionPush (id : Nat) (pixels : List Byte) (s : State) : Out :=
  .next (s.startCmd id 0x30 fun c s =>
    if !s.pushOk c then s.complete id St.RAS_BAD_REQ
    else if s.rd F.RAS_OUT_STATUS_dsi_mode (4 + c.b 16) ≠ 2 then s.complete id St.RAS_STATE
    else s.dsiJoin id (4 + c.b 16) pixels)

/-- RAS_DCS (R500). -/
def execRasDcs (id : Nat) (s : State) : Out :=
  .next (s.startCmd id 0x31 fun c s =>
    if !dcsOk c then s.complete id St.RAS_BAD_REQ
    else if s.rd F.RAS_OUT_STATUS_dsi_mode (4 + c.b 16) ≠ 2 then s.complete id St.RAS_STATE
    else s.dsiJoin id (4 + c.b 16) [])

/-- The read that waits on a port ends, and the queue goes on. -/
def State.dcsEnd (s : State) (o status spec0 : Nat) : State :=
  match (s.outp o).reading with
  | none => s
  | some id => ((s.complete id status spec0).updOut o fun x => { x with reading := none }).dsiRun o (s.outp o).queue.tail

/-- RAS_DCS_REPLY (R500): the bytes returned, the first in the low byte of spec0. -/
def execRasDcsReply (o : Nat) (data : List Byte) (s : State) : Out := .next (s.dcsEnd o St.OK (ofLe (data.take 4)))

/-- RAS_DCS_REPLY_TIMEOUT (R500). -/
def execRasDcsReplyTimeout (o : Nat) (s : State) : Out := .next (s.dcsEnd o St.RAS_NO_REPLY 0)

/-- RAS_PUSH_DONE (R500, R502): the push in hand completes, and the queue goes on. A switch to VIDEO that waited for it comes at the
next frame start. -/
def execRasPushDone (o : Nat) (s : State) : Out :=
  match (s.outp o).queue with
  | [] => .next s
  | q :: rest =>
    if (s.outp o).reading.isSome then .next s
    else .next ((s.complete q.1 St.OK).dsiRun o rest)

/-! ### Shedding and reset -/

/-- An output is shed, or its shedding ends (R502). -/
def State.outShed (s : State) (o : Nat) (shed : Bool) : State :=
  if shed then (s.outOff o).wr F.RAS_OUT_STATUS_shed 1 o else (s.wr F.RAS_OUT_STATUS_shed 0 o).outOn o

/-- The DISP domain goes into reset (R484, R502): outputs are OFF, DSI ports have no mode, and the commands they held end with a status.
The sets in force stay (R644). -/
def State.rasReset (s : State) (status : Nat) : State :=
  (List.range 6).foldl (fun (s : State) o =>
    let t := (s.outp o).queue.foldl (fun (s : State) q => s.complete q.1 status) s
    (t.outOff o).updOut o fun x => { OutSt.init with inForce := x.inForce }) s

end Sys2Proof.Machine
end

