-- ==== Sys2Proof/Machine/Audio.lean ====
section
/-! DEFINITION. The audio master, the ports and their converters, channel maps, recording and monitoring (spec/15). Ports are TDM0 to
TDM3, then AES3 groups A and B. Map owners ("units") are TDM0 to TDM3, then receivers AES0 to AES7. -/
namespace Sys2Proof.Machine

/-! ### Shared parts -/

def State.updAud (s : State) (f : AudSt → AudSt) : State := { s with aud := f s.aud }
def State.aport (s : State) (p : Nat) : AudPort := s.aud.ports.getD p AudPort.init
def State.updAport (s : State) (p : Nat) (f : AudPort → AudPort) : State := s.updAud fun a => { a with ports := updAt a.ports p f }
def State.aunit (s : State) (u : Nat) : AudUnit := s.aud.units.getD u AudUnit.init
def State.updAunit (s : State) (u : Nat) (f : AudUnit → AudUnit) : State := s.updAud fun a => { a with units := updAt a.units u f }

/-- The port of a unit, and the units of a port. -/
def unitPort (u : Nat) : Nat := if u < 4 then u else 4 + (u - 4) / 4
def portUnits (p : Nat) : List Nat := if p < 4 then [p] else (List.range 4).map fun k => 4 + 4 * (p - 4) + k

/-- Base, span and mask in force of a unit. -/
def State.unitBase (s : State) (u : Nat) : Nat := if u < 4 then s.rd F.AUD_TPORT_MAP_base u else s.rd F.AUD_APORT_MAP_base (u - 4)
def State.unitSpan (s : State) (u : Nat) : Nat := if u < 4 then s.rd F.AUD_TPORT_MAP_span u else s.rd F.AUD_APORT_MAP_span (u - 4)
def State.unitMask (s : State) (u : Nat) : Nat := if u < 4 then s.rd F.AUD_TPORT_MASK_mask u else s.rd F.AUD_APORT_MASK_mask (u - 4)
def State.unitNext (s : State) (u : Nat) : Nat := if u < 4 then s.rd F.AUD_TPORT_MASK_mask_next u else s.rd F.AUD_APORT_MASK_mask_next (u - 4)
def State.unitOn (s : State) (u : Nat) : Bool := if u < 4 then s.on F.AUD_TPORT_CTRL_enable u else s.on F.AUD_APORT_CTRL_enable (u - 4)
def State.armPending (s : State) (u : Nat) : Bool :=
  if u < 4 then s.on F.AUD_TPORT_FLAGS_arm_pending u else s.on F.AUD_APORT_FLAGS_arm_pending (u - 4)
def State.setArm (s : State) (u : Nat) (v : Bool) : State :=
  if u < 4 then s.wr F.AUD_TPORT_FLAGS_arm_pending (b2n v) u else s.wr F.AUD_APORT_FLAGS_arm_pending (b2n v) (u - 4)
def State.setMask (s : State) (u m : Nat) : State :=
  if u < 4 then s.wr F.AUD_TPORT_MASK_mask m u else s.wr F.AUD_APORT_MASK_mask m (u - 4)

/-- The reference receiver of an AES3 group, as a unit (R508). -/
def State.refUnit (s : State) (p : Nat) : Nat := 4 + 4 * (p - 4) + s.rd F.AUD_AES_GRP_CFG_ref (p - 4)

/-- A port is enabled: an AES3 group with its reference receiver. -/
def State.portOn (s : State) (p : Nat) : Bool := if p < 4 then s.unitOn p else s.unitOn (s.refUnit p)

/-- The nominal ratio of a port (R509). -/
def State.portMult (s : State) (p : Nat) : Nat :=
  1 + (if p < 4 then s.rd F.AUD_TDM_CFG_mult p else s.rd F.AUD_AES_GRP_CFG_mult (p - 4))

/-- The port drives its own clock from the master: no conversion (R507). -/
def State.portMaster (s : State) (p : Nat) : Bool := decide (p < 4) && s.on F.AUD_TDM_CFG_master p

/-- The ratio a port publishes. -/
def State.portRatio (s : State) (p : Nat) : Nat := if p < 4 then s.rd F.AUD_TPORT_RATIO_ratio p else s.rd F.AUD_GRP_RATIO_ratio (p - 4)

/-- The status registers of a port's units follow its state: a receiver reads 1 while R508 fails, and 0 when it is not enabled. -/
def State.portShow (s : State) (p : Nat) : State :=
  let st := (s.aport p).state
  if p < 4 then s.wr F.AUD_TPORT_STATUS_state st p
  else s.each (portUnits p) fun s u =>
    s.wr F.AUD_APORT_STATUS_state (if s.unitOn u then (if st = 0 ∨ (s.aunit u).frame.isSome then st else 1) else 0) (u - 4)

/-- A port takes a state. -/
def State.portTo (s : State) (p st : Nat) : State := (s.updAport p fun x => { x with state := st }).portShow p

/-- A fault of a port: its flag and count, on the enabled receivers of a group, and its event. -/
def State.portFault (s : State) (p : Nat) (ft ct fa ca : Fld) (ev : Nat) : State :=
  let t := if p < 4 then s.flagCount ft ct p
    else s.each ((portUnits p).filter s.unitOn) fun s u => s.flagCount fa ca (u - 4)
  t.raise 1 ev (le 1 p)

/-- The sample rate of the master in Hz. -/
def State.masterRate (s : State) : Nat := if s.on F.AUD_MASTER_CFG_rate then 96000 else 48000

/-! ### The audio master -/

def State.masterState (s : State) : Nat := s.rd F.AUD_MASTER_STATUS_state

/-- The master starts, or restarts on a new lock source (R505). -/
def State.masterStart (s : State) : State :=
  let t := s.updAud fun a => { a with starts := 0, pulses := 0, count := 0 }
  if s.rd F.AUD_MASTER_CFG_lock = 2 then t.wr F.AUD_MASTER_STATUS_state 5
  else if s.rd F.AUD_MASTER_CFG_lock = 1 ∧ s.ptpUnlocked = false then t.wr F.AUD_MASTER_STATUS_state 2
  else t.wr F.AUD_MASTER_STATUS_state 1

/-- The lock source is present (R484, R505). -/
def State.masterFound (s : State) : State :=
  if s.masterState = 1 ∨ s.masterState = 4 then (s.wr F.AUD_MASTER_STATUS_state 2).updAud fun a => { a with starts := 0, pulses := 0 } else s

/-- A LOCKED master loses its source (R505). -/
def State.masterLost (s : State) : State :=
  if s.masterState = 3 then
    ((s.wr F.AUD_MASTER_STATUS_state 4).flagCount F.AUD_FLAGS_master_lost F.AUD_CNT_master_lost).raise 1 Ev.AUD_MASTER_LOST []
  else s

/-- The PTP time base becomes locked or unlocked. -/
def State.audPtp (s : State) (locked : Bool) : State :=
  if s.rd F.AUD_MASTER_CFG_lock = 1 then (if locked then s.masterFound else s.masterLost) else s

/-- A V pulse at a master locked to VREF. -/
def State.audPulse (s : State) (period : Nat) : State :=
  if s.rd F.AUD_MASTER_CFG_lock = 0 then
    let k := pulseHalves (s.rd F.AUD_MASTER_CFG_vrate) period
    if k = 2 then
      let t := s.updAud fun a => { a with pulses := a.pulses + 2 }
      if 4 ≤ t.aud.pulses then t.masterFound else t
    else (s.updAud fun a => { a with pulses := 0 }).masterLost
  else s

/-- VREF_PULSE (R483, R484, R504, R505): period is the time since the last V pulse in ns. -/
def execVrefPulse (period : Nat) (s : State) : Out := .next ((s.rasPulse period).audPulse period)

/-- AUD_MASTER_REFERENCE_LOSS (R505). -/
def execAudMasterReferenceLoss (s : State) : Out := .next (s.updAud fun a => { a with pulses := 0 }).masterLost

/-- The lock state at a sample instant with a phase error in ns (R505). -/
def State.masterLock (s : State) (err : Int) : State :=
  let t := s.wr F.AUD_MASTER_STATUS_phase_err (ofSigned 16 err)
  if s.masterState = 2 then
    let n := if err.natAbs * s.masterRate ≤ 1000000000 then s.aud.starts + 1 else 0
    let t1 := t.updAud fun a => { a with starts := n }
    if 16 ≤ n then t1.wr F.AUD_MASTER_STATUS_state 3 else t1
  else t

/-! ### Ports -/

/-- A measured ratio in 1/2^30 within 0.95 to 1.05 (R509). -/
def ratioOk (r : Nat) : Bool := decide (95 * 1073741824 ≤ 100 * r) && decide (100 * r ≤ 105 * 1073741824)

/-- A mask change of one unit marks every channel of its port (R514). -/
def State.markPort (s : State) (p : Nat) : State :=
  if (portUnits p).any fun u => (s.aunit u).mark then s.each (portUnits p) fun s u => s.updAunit u fun y => { y with mark := true } else s

/-- A port in FILL goes on to RAMP with 32 frames, after an overrun discarding down to 32 (R510); an armed mask applies as data
resumes (R524). -/
def State.fillCheck (s : State) (p : Nat) : State :=
  let x := s.aport p
  if x.state = 2 ∧ 32 ≤ x.fifo.length then
    let f := if x.overrun then x.fifo.drop (x.fifo.length - 32) else x.fifo
    let t := (s.updAport p fun x => { x with fifo := f, overrun := false, gain := 0, acc := 0 }).portTo p 3
    (t.each ((portUnits p).filter t.armPending) fun s u =>
      ((s.setMask u (s.unitNext u)).setArm u false).updAunit u fun y => { y with old := none, mark := true }).markPort p
  else s

/-- A port loses its input (R510). -/
def State.portUnlock (s : State) (p : Nat) : State :=
  let st := (s.aport p).state
  if st = 2 ∨ st = 3 ∨ st = 4 then
    let t := s.portFault p F.AUD_TPORT_FLAGS_unlock F.AUD_TPORT_CNT_unlock F.AUD_APORT_FLAGS_unlock F.AUD_APORT_CNT_unlock Ev.AUD_UNLOCK
    let t1 := t.updAport p fun x => { x with unlock := decide (st ≠ 2), good := 0, bad := 0 }
    t1.portTo p (if st = 2 then 1 else 5)
  else s

/-- Armed masks apply at an input frame start while data runs (R514). -/
def State.applyArms (s : State) (p : Nat) : State :=
  let x := s.aport p
  if x.state = 3 ∨ x.state = 4 then
    s.each ((portUnits p).filter s.armPending) fun s u =>
      ((s.setMask u (s.unitNext u)).setArm u false).updAunit u fun y =>
        { y with old := some (s.unitMask u, x.fifo.length, x.window.length) }
  else s

/-- An input frame at a port (R510, R512): ok says its frame sync came at the configured length. -/
def State.portFrame (s : State) (p : Nat) (f : AudFrame) (ok : Bool) (ratio : Nat) : State :=
  let r := if s.portMaster p then 1073741824 else ratio
  let s0 := if p < 4 then s.wr F.AUD_TPORT_RATIO_ratio r p else s.wr F.AUD_GRP_RATIO_ratio r (p - 4)
  let s1 := (s0.applyArms p).updAport p fun x => { x with good := if ok then x.good + 1 else 0, bad := if ok then 0 else x.bad + 1 }
  let x := s1.aport p
  if x.state = 0 then s
  else if x.state = 1 then
    if 64 ≤ x.good ∧ ratioOk r = true then (s1.updAport p fun x => { x with fifo := [], window := [] }).portTo p 2 else s1
  else
    let s2 := if x.fifo.length < 64 then s1.updAport p fun x => { x with fifo := x.fifo ++ [f] } else s1
    if 4 ≤ x.bad ∨ ratioOk r = false then s2.portUnlock p
    else if (x.state = 3 ∨ x.state = 4) ∧ 60 ≤ (s2.aport p).fifo.length then
      ((s2.portFault p F.AUD_TPORT_FLAGS_overrun F.AUD_TPORT_CNT_overrun F.AUD_APORT_FLAGS_overrun F.AUD_APORT_CNT_overrun
        Ev.AUD_OVERRUN).updAport p fun x => { x with overrun := true }).portTo p 5
    else s2.fillCheck p

/-- The bits of a TDM slot and the signed 24-bit sample of its raw content (R506, R517). -/
def State.slotBits (s : State) (p : Nat) : Nat := [16, 24, 32].getD (s.rd F.AUD_TDM_CFG_slot_bits p) 32
def State.slotSample (s : State) (p raw : Nat) : Int :=
  let n := s.slotBits p
  let top := raw % 2 ^ n * 2 ^ (32 - n) / 256
  toSigned 24 (if s.rd F.AUD_TDM_CFG_word p = 0 then top / 256 * 256 else top)

/-- AUD_TDM_FRAME_RECEIVE (R510, R512): bits is the bit count to the next frame sync, ratio the measured r in 1/2^30. -/
def execAudTdmFrameReceive (p bits : Nat) (slots : List Nat) (ratio : Nat) (s : State) : Out :=
  if s.released 31 && s.portOn p then
    let n := s.rd F.AUD_TDM_CFG_slots p + 1
    let ok := bits == n * s.slotBits p
    let f : AudFrame := { samples := (List.range n).map fun k => if ok then s.slotSample p (slots.getD k 0) else 0, valid := [],
                          subst := !ok, here := [], z := [], na := [] }
    let t := if ok then s else s.flagCount F.AUD_TPORT_FLAGS_frame_err F.AUD_TPORT_CNT_frame_err p
    .next (t.portFrame p f ok ratio)
  else .next s

/-- The CRCC of an AES3 channel status block (R515; its polynomial from AES3, PRESUMED, log 67): bits in order of transmission. -/
def crccBit (c : BitVec 8) (b : Bool) : BitVec 8 := if (c.getLsbD 0) != b then (c >>> 1) ^^^ 0xB8#8 else c >>> 1
def crcc (bits : List Bool) : Nat := (bits.foldl crccBit 0xFF#8).toNat

/-- A byte of a list of bits, the first bit least significant. -/
def byteOf : List Bool → Nat
  | [] => 0
  | b :: bs => b2n b + 2 * byteOf bs

/-- Channel status byte 0 bit 1 in force on a receiver (R516). -/
def State.csNonAudio (s : State) (a : Nat) : Bool := bitOf (s.rd F.AUD_AES_CS_A_value a 0) 1 || bitOf (s.rd F.AUD_AES_CS_B_value a 0) 1

/-- A captured channel status block of a subframe channel (R515). -/
def State.csBlock (s : State) (a : Nat) (reg : Fld) (bits : List Bool) : State :=
  if bits.length ≠ 192 then s
  else if crcc (bits.take 184) ≠ byteOf (bits.drop 184) then s.flagCount F.AUD_APORT_FLAGS_cs_crc F.AUD_APORT_CNT_cs_crc a
  else
    let words := (pieces 6 32 bits).map byteOf
    let held := (List.range 6).map fun j => s.rd reg a j
    let t := (withIndex words).foldl (fun (s : State) w => s.wr reg w.2 a w.1) s
    if words = held then t else (t.wr F.AUD_APORT_FLAGS_cs_change 1 a).raise 1 Ev.AUD_CS_CHANGE (le 1 a)

/-- Channel status capture at a frame: a Z preamble ends one block and begins the next. -/
def State.csCapture (s : State) (a : Nat) (f : AesFrame) : State :=
  let u := 4 + a
  let x := s.aunit u
  let t := if f.z && x.inBlock then (s.csBlock a F.AUD_AES_CS_A_value x.csA).csBlock a F.AUD_AES_CS_B_value x.csB else s
  t.updAunit u fun y =>
    if f.z then { y with inBlock := true, csA := [f.csA], csB := [f.csB] }
    else if y.inBlock then { y with csA := y.csA ++ [f.csA], csB := y.csB ++ [f.csB] } else y

/-- Non-audio detection on AES0 and AES1 (R516): the first detection after audio sets nonaudio. The frame is marked as one with a detection, and
so are the two after it, of which the group's converter may pass over one. -/
def State.naDetect (s : State) (a : Nat) (f : AesFrame) : State × Bool :=
  let u := 4 + a
  let x := s.aunit u
  let sync := (x.prev == 0xF872 && f.a / 256 == 0x4E1F) || (f.a / 256 == 0xF872 && f.b / 256 == 0x4E1F)
  if 2 ≤ a then (s, false)
  else
    let hit := sync || s.csNonAudio a
    let left := if sync || (hit && !x.na) then s.rd F.AUD_AES_NA_CFG_hold a else x.naLeft - 1
    let still := hit || (x.na && left != 0)
    let t := s.updAunit u fun y => { y with prev := f.b / 256, naLeft := left, na := still }
    let near := hit || (still && decide (s.rd F.AUD_AES_NA_CFG_hold a ≤ left + 2))
    if hit && !x.na then ((t.wr F.AUD_APORT_FLAGS_nonaudio 1 a).raise 1 Ev.AUD_NONAUDIO (le 1 a), near) else (t, near)

/-- The frame of an AES3 group: the latest frame of each receiver in it. -/
def State.groupFrame (s : State) (p : Nat) : AudFrame :=
  let us := portUnits p
  let get := fun u => (s.aunit u).frame
  { samples := us.flatMap fun u => match get u with | some f => f.1 | none => [0, 0]
    valid := us.flatMap fun u => match get u with | some f => f.2.1 | none => [false, false]
    subst := false
    here := us.filter fun u => (get u).isSome
    z := us.filter fun u => match get u with | some f => f.2.2.1 | none => false
    na := us.filter fun u => match get u with | some f => f.2.2.2 | none => false }

/-- An AES3 input takes a frame (R508, R510, R515, R516): its channel status and non-audio detection, the frame itself, and the lock of its port. -/
def State.aesTaken (s : State) (a : Nat) (f : AesFrame) : State :=
  let u := 4 + a
  let d := (s.csCapture a f).naDetect a f
  let here := if f.rateOk then some ([toSigned 24 f.a, toSigned 24 f.b], [f.validA, f.validB], f.z, d.2) else none
  let t := d.1.updAunit u fun x => { x with frame := here }
  let p := unitPort u
  (if u = t.refUnit p then t.portFrame p (t.groupFrame p) f.rateOk f.ratio else t).portShow p

/-- AUD_AES_FRAME_RECEIVE (R508, R510, R515, R516): the group's input frame forms with that of its reference receiver. -/
def execAudAesFrameReceive (a : Nat) (f : AesFrame) (s : State) : Out :=
  .next (if s.released 31 && s.unitOn (4 + a) then s.aesTaken a f else s)

/-- AUD_PORT_ENABLE (R510): enable moves a port between OFF and UNLOCKED. -/
def execAudPortEnable (u v : Nat) (s : State) : Out :=
  let on := v % 2 == 1
  let t := if u < 4 then s.wr F.AUD_TPORT_CTRL_enable (v % 2) u else s.wr F.AUD_APORT_CTRL_enable (v % 2) (u - 4)
  let p := unitPort u
  let t1 := if on || u < 4 then t else t.updAunit u fun x => { x with frame := none, inBlock := false, na := false, naLeft := 0, mute := false }
  .next (if t1.portOn p = true ∧ (t1.aport p).state = 0 ∧ t1.released 31 = true ∧ t1.takesWork (0x80 + p) = true then (t1.updAport p fun _ => AudPort.init).portTo p 1
    else if t1.portOn p then t1.portShow p
    else (t1.updAport p fun _ => AudPort.init).portTo p 0)

/-- Set bits of a mask below n, ascending. -/
def maskBits (n m : Nat) : List Nat := (List.range n).filter fun k => bitOf m k

/-- Spans that overlap, pass C, or a mask beyond its span (R513). -/
def State.mapBad (s : State) : Bool :=
  let spans := (List.range 12).map fun u => (s.unitBase u, s.unitSpan u)
  spans.any (fun x => decide (x.2 ≠ 0) && decide (s.rd F.AUD_REC_CFG_channels < x.1 + x.2))
    || (withIndex spans).any (fun x => (withIndex spans).any fun y =>
        decide (x.1 < y.1) && decide (x.2.1 < y.2.1 + y.2.2) && decide (y.2.1 < x.2.1 + x.2.2))

/-- AUD_MASK_ARM (R513, R514): refused while an arm is pending, when the mask selects more than its span, or the spans are bad. -/
def execAudMaskArm (u v : Nat) (s : State) : Out :=
  let _ := v
  let n := if u < 4 then 16 else 2
  if s.armPending u || decide (s.unitSpan u < (maskBits n (s.unitNext u)).length) || s.mapBad then .next (s.wr F.AUD_FLAGS_cfg_refused 1)
  else .next (s.setArm u true)

/-! ### The converters -/

/-- The samples of one source over the window of a port. -/
def AudPort.line (x : AudPort) (i : Nat) : List Int := x.window.map fun f => f.samples.getD i 0

/-- A converted value (R507, R509): without conversion the sample of 16 periods before; until the window reaches that far, free as well. -/
def State.converted (s : State) (p : Nat) (x : AudPort) (i : Nat) : Int :=
  if s.portMaster p && decide (16 < x.window.length) then (x.line i).getD (x.window.length - 1 - 16) 0
  else (Config.audConvert (s.portRatio p) (x.line i)).toInt

/-- The input frame of an output sample: that of the fixed group delay of 16 master periods before (R509; DEDUCED, log 127). -/
def State.inputFrame (s : State) (p : Nat) : Option AudFrame :=
  let w := (s.aport p).window
  w[w.length - 1 - 16 * s.portMult p]?

/-- Mask changes on their way advance by n frames taken (R514). -/
def advanceMask (n : Nat) (y : AudUnit) : AudUnit :=
  match y.old with
  | none => y
  | some (m, lead, tail) =>
    if n ≤ lead then { y with old := some (m, lead - n, tail) }
    else if n - lead < tail then { y with old := some (m, 0, tail - (n - lead)) }
    else { y with old := none, mark := true }

/-- A mute at the converter output follows the detections in the window, and its ramp the sample instants (R516). -/
def muteStep (window : List AudFrame) (u : Nat) (y : AudUnit) : AudUnit :=
  if window.any fun f => f.na.contains u then { y with mute := true, gain := 0 }
  else if y.na then y
  else if y.mute then { y with mute := false, gain := 1 } else { y with gain := min 64 (y.gain + 1) }

/-- One master sample at a port (R509 to R511): input frames are taken, or the port fades on an underrun; then the gain moves. -/
def State.portSample (s : State) (p : Nat) : State :=
  let x := s.aport p
  if x.state = 0 ∨ x.state = 1 ∨ x.state = 2 then s.fillCheck p
  else
    let owed := x.acc + s.portMult p * s.portRatio p
    let n := owed / 1073741824
    let starve := (x.state == 3 || x.state == 4) && decide (x.fifo.length < n)
    let s1 :=
      if starve then
        ((s.portFault p F.AUD_TPORT_FLAGS_underrun F.AUD_TPORT_CNT_underrun F.AUD_APORT_FLAGS_underrun F.AUD_APORT_CNT_underrun
          Ev.AUD_UNDERRUN).updAport p fun x => { x with under := true }).portTo p 5
      else s
    let k := if starve || x.under then 0 else min n x.fifo.length
    let width := 32 * s.portMult p
    let s2 := (s1.updAport p fun x =>
      let w := x.window ++ x.fifo.take k
      { x with fifo := x.fifo.drop k, window := w.drop (w.length - width), acc := owed % 1073741824 })
    let s3 := (s2.each (portUnits p) fun s u => s.updAunit u fun y =>
      { muteStep (s2.aport p).window u (advanceMask k y) with zed := (x.fifo.take k).any fun f => f.z.contains u }).markPort p
    let y := s3.aport p
    if y.state = 5 then
      let t := s3.updAport p fun x => { x with gain := x.gain - 1 }
      if y.gain ≤ 1 then
        if y.unlock then (t.updAport p fun x => { x with unlock := false, overrun := false, under := false, fifo := [], window := [] }).portTo p 1
        else ((t.updAport p fun x => { x with under := false }).portTo p 2).fillCheck p
      else t
    else
      let t := s3.updAport p fun x => { x with gain := min 64 (x.gain + 1), last := (List.range 16).map fun i => s3.converted p x i }
      if y.state = 3 ∧ 63 ≤ y.gain then t.portTo p 4 else t

/-! ### Words -/

/-- A recorded word (R517). -/
def audWord (v : Int) (validity muted subst change cs unused : Bool) : Nat :=
  ofSigned 24 v * 256 + 128 * b2n validity + 64 * b2n muted + 32 * b2n subst + 16 * b2n change + 8 * b2n cs + 4 * b2n unused

/-- The signed sample of a word. -/
def wordSample (w : Nat) : Int := toSigned 24 (w / 256)

/-- The source a unit's mask gives its span channel k. -/
def maskSource (u m k : Nat) : Option Nat := (maskBits (if u < 4 then 16 else 2) m)[k]?

/-- The word of a channel (R511 to R516). -/
def State.channelWord (s : State) (c : Nat) : Nat :=
  match (List.range 12).find? fun u => decide (s.unitBase u ≤ c) && decide (c < s.unitBase u + s.unitSpan u) with
  | none => audWord 0 false false false false false true
  | some u =>
    let k := c - s.unitBase u
    let p := unitPort u
    let x := s.aport p
    let y := s.aunit u
    let now := maskSource u (s.unitMask u) k
    let change := y.mark
    let frame := s.inputFrame p
    let z := y.zed
    let word := fun (i : Nat) =>
      let j := if u < 4 then i else 2 * ((u - 4) % 4) + i
      let live := x.state == 3 || x.state == 4 || x.state == 5
      if !live then audWord 0 false false true change z false
      else if y.mute then audWord 0 ((frame.map fun f => f.valid.getD j false).getD false) true false change z false
      else match frame with
        | none => audWord 0 false false true change z false
        | some f =>
          let absent := decide (4 ≤ u) && !f.here.contains u
          let v := if x.under ∨ x.state = 5 then (if x.under then x.last.getD j 0 else s.converted p x j) else x.last.getD j 0
          let g := x.gain * y.gain
          if absent then audWord 0 false false true change z false
          else audWord (openRound 7 (Frac.norm (v * (g : Int), 4096))) (f.valid.getD j false) false (f.subst || decide (g < 4096)) change z false
    match y.old with
    | some (m, lead, _) =>
      let before := maskSource u m k
      if before = now then (match now with | some i => word i | none => audWord 0 false false false change z true)
      else if lead = 0 then audWord 0 false false true false false false
      else match before with | some i => word i | none => audWord 0 false false false change z true
    | none => match now with | some i => word i | none => audWord 0 false false false change z true

/-! ### Monitoring -/

/-- The channel an output slot is set to carry (R522). -/
def State.slotWant (s : State) (k i : Nat) : Option Nat :=
  let w := i / 4
  let fs := [(F.AUD_OUT_MAP_on0, F.AUD_OUT_MAP_ch0), (F.AUD_OUT_MAP_on1, F.AUD_OUT_MAP_ch1), (F.AUD_OUT_MAP_on2, F.AUD_OUT_MAP_ch2),
    (F.AUD_OUT_MAP_on3, F.AUD_OUT_MAP_ch3)].getD (i % 4) (F.AUD_OUT_MAP_on0, F.AUD_OUT_MAP_ch0)
  if s.on fs.1 k w then some (s.rd fs.2 k w) else none

/-- A channel's source is disabled: no port in operation feeds it. -/
def State.channelOff (s : State) (c : Nat) : Bool :=
  match (List.range 12).find? fun u => decide (s.unitBase u ≤ c) && decide (c < s.unitBase u + s.unitSpan u) with
  | none => true
  | some u => (s.aport (unitPort u)).state == 0

/-- A zero crossing of a channel at the newest words (R523). -/
def State.zeroCross (s : State) (now before : List Nat) (c : Nat) : Bool :=
  let a := wordSample (now.getD c 0)
  let b := wordSample (before.getD c 0)
  s.channelOff c || a == 0 || (decide (a < 0) && decide (0 < b)) || (decide (0 < a) && decide (b < 0))

/-- One sample of the output slots (R522, R523). The output of a follower is what its converter makes of the last 32 samples of the slot. -/
def State.monitor (s : State) (now before : List Nat) : State :=
  (List.range 2).foldl (fun (s : State) k =>
    (List.range 16).foldl (fun (s : State) i =>
      let cur := ((s.aud.outs.getD k []).getD i none)
      let want := s.slotWant k i
      let watch := match cur with | some c => some c | none => want
      let go := decide (cur ≠ want) && (match watch with | some c => s.zeroCross now before c | none => true)
      let next := if go then want else cur
      let t := if go then s.updAud fun a => { a with outs := updAt a.outs k fun l => updAt l i fun _ => want } else s
      let line := (match next with | some c => wordSample (now.getD c 0) | none => 0) :: ((s.aud.lines.getD k []).getD i []).take 31
      let t := t.updAud fun a => { a with lines := updAt a.lines k fun l => updAt l i fun _ => line }
      let v := if (s.aport k).state ≠ 4 then 0 else if s.portMaster k then line.headD 0 else (Config.audConvert (s.portRatio k) line).toInt
      let word := if s.rd F.AUD_TDM_CFG_word k = 0 then v / 256 * 256 else v
      if s.on F.AUD_OUT_CTRL_enable k && decide (i ≤ s.rd F.AUD_TDM_CFG_slots k) then t.emit (.audioOut k i word) else t) s) s

/-- AUD_ZC_TIMEOUT (R523): no crossing within 5 ms, and the slot switches. -/
def execAudZcTimeout (k slot : Nat) (s : State) : Out :=
  let cur := (s.aud.outs.getD k []).getD slot none
  if cur = s.slotWant k slot then .next s
  else .next (((s.updAud fun a => { a with outs := updAt a.outs k fun l => updAt l slot fun _ => s.slotWant k slot }).flagCount
    F.AUD_FLAGS_zc_timeout F.AUD_CNT_zc_timeout).raise 1 Ev.AUD_ZC_TIMEOUT (le 1 k ++ le 1 slot))

/-! ### Recording -/

/-- The bytes of a block (R518). -/
def State.blockBytes (s : State) : Nat := 64 + 1024 * s.rd F.AUD_REC_CFG_channels

/-- A stamp less 16 master periods, as seconds and nanoseconds (R519). -/
def State.audStamp (s : State) (t : Nat) : Nat × Nat :=
  let r := s.masterRate
  let a := openRound 8 (Frac.norm ((t * r : Nat) - 16000000000, r))
  (ptpSeconds a.toNat, ptpNanos a.toNat)

/-- The header of a block (R518). -/
def State.blockHeader (s : State) (serial : Nat) (b : AudBlock) : List Byte :=
  let t := s.audStamp b.stamp
  [0x4E, 0x41, 0x55, 0x44] ++ le 4 serial ++ le 6 t.1 ++ le 4 t.2 ++ le 1 (s.rd F.AUD_MASTER_CFG_rate) ++ le 1 b.flags
    ++ le 2 (s.rd F.AUD_REC_CFG_channels) ++ le 2 0 ++ (b.masks.take 4).flatMap (le 2)
    ++ le 2 ((withIndex (b.masks.drop 4)).foldl (fun a m => a + m.2 % 4 * 4 ^ m.1) 0) ++ List.replicate 30 (0 : Byte)

/-- A complete block is written with its completion record, or dropped at a full ring (R520). -/
def State.blockDone (s : State) (b : AudBlock) : State :=
  let n := s.rd F.AUD_RING_SERIAL_value
  let blocks := s.rd F.AUD_RING_BLOCKS_value
  let t := (s.wr F.AUD_RING_SERIAL_value (n + 1)).updAud fun a => { a with block := none }
  if blocks ≤ (n + 4294967296 - s.rd F.AUD_RING_HEAD_value) % 4294967296 then
    (t.flagCount F.AUD_FLAGS_ring_drop F.AUD_CNT_ring_drop).raise 1 Ev.AUD_RING_DROP (le 4 n)
  else
    let off := n % blocks * s.blockBytes
    let data := s.blockHeader n b ++ b.frames.reverse.flatMap fun f => f.flatMap (le 4)
    (t.put (s.pair F.AUD_RING_BASE_LO_value F.AUD_RING_BASE_HI_value + off) data).postUnsolicited 1 (s.rd F.AUD_REC_CFG_cq) 31 St.OK n off

/-- One sample of the recording: the first block starts at a boundary, and while run is 1 each next one as its predecessor is complete
(R518, R521). -/
def State.record (s : State) (words : List Nat) (start : Bool) : State :=
  let s1 := match s.aud.block with
    | some _ => s
    | none =>
      if s.on F.AUD_REC_CTRL_run && (start || s.aud.live) then
        ((s.whenB (!s.aud.live) fun s => s.wr F.AUD_RING_SERIAL_value 0).updAud fun a =>
          { a with live := true
                   block := some { frames := [], stamp := s.now, flags := 0, masks := (List.range 12).map s.unitMask,
                                   ptpUnlocked := s.ptpUnlocked } }).tick
      else s
  match s1.aud.block with
  | none => s1
  | some b =>
    let flags := b2n (bitOf b.flags 0 || s.masterState != 3) + 2 * b2n (bitOf b.flags 1 || b.ptpUnlocked || s.ptpUnlocked)
      + 4 * b2n (bitOf b.flags 2 || words.any fun w => bitOf w 4) + 8 * b2n (bitOf b.flags 3 || words.any fun w => bitOf w 5)
    let b' := { b with frames := words :: b.frames, flags := flags }
    if b'.frames.length = 256 then s1.blockDone b' else s1.updAud fun a => { a with block := some b' }

/-- AUD_REC_RUN_START (R278, R279, R518, R521): refused when the ring does not lie within the AUDIO region. Serials start at 0, after the last
block of an earlier run. -/
def execAudRecRunStart (s : State) : Out :=
  let base := s.pair F.AUD_RING_BASE_LO_value F.AUD_RING_BASE_HI_value
  if s.on F.AUD_REC_CTRL_run then .next s
  else if s.planPending then .next (s.waitPlan .audRecRunStart)
  else if base % 64 == 0 && s.inRegion base (s.rd F.AUD_RING_BLOCKS_value * s.blockBytes) 8 0 then
    .next (((s.wr F.AUD_REC_CTRL_run 1).whenB s.aud.block.isNone fun s => s.wr F.AUD_RING_SERIAL_value 0).updAud fun a => { a with live := false })
  else .next (s.wr F.AUD_FLAGS_cfg_refused 1)

/-- AUD_REC_RUN_STOP (R521): the block in progress is the last. -/
def execAudRecRunStop (s : State) : Out := .next (s.wr F.AUD_REC_CTRL_run 0)

/-- A sample of the running master (R505, R510 to R523): the ports take it, the channels' words are monitored and recorded. -/
def State.masterSample (s : State) (err : Int) (boundary : Bool) : State :=
  let s2 := (List.range 6).foldl State.portSample (s.masterLock err)
  let words := (List.range (s2.rd F.AUD_REC_CFG_channels)).map s2.channelWord
  let start := if s.rd F.AUD_MASTER_CFG_lock = 1 then boundary else s.aud.count % 256 == 0
  ((s2.monitor words (s2.aud.hist.headD [])).record words start).updAud fun a => { a with
    count := a.count + 1, hist := (words :: a.hist).take 1024, units := a.units.map fun y => { y with mark := false, zed := false } }

/-- AUDIO_MASTER_SAMPLE (R505, R510 to R523): err is the phase error in ns, boundary says that the instant is a whole multiple of 256
periods counted from the PTP epoch. -/
def execAudioMasterSample (err : Int) (boundary : Bool) (s : State) : Out :=
  .next (if s.masterState = 0 ∨ s.released 31 = false then s else s.masterSample err boundary)

/-- The AUD domain goes into reset, or East does (R510, R524): ports OFF, run 0, serial and head 0. -/
def State.audReset (s : State) : State :=
  let t := ((s.wr F.AUD_REC_CTRL_run 0).wr F.AUD_RING_HEAD_value 0).wr F.AUD_RING_SERIAL_value 0
  { t with aud := AudSt.init }

end Sys2Proof.Machine
end

