-- ==== Sys2Proof/Machine/Net.lean ====
section
/-! DEFINITION. The PTP time base, host frames, ST 2110 senders and timecode (spec/16). -/
namespace Sys2Proof.Machine

def State.updNet (s : State) (f : NetSt → NetSt) : State := { s with net := f s.net }
def State.snd (s : State) (n : Nat) : SndSt := s.net.snds.getD n SndSt.init
def State.updSnd (s : State) (n : Nat) (f : SndSt → SndSt) : State := s.updNet fun x => { x with snds := updAt x.snds n f }

/-! ### The time base -/

def State.ptpState (s : State) : Nat := s.rd F.NET_PTP_STATUS_state

/-- The time base takes a state; outputs and the audio master follow a change of "PTP time base locked" (R484, R505, R529). -/
def State.ptpTo (s : State) (st : Nat) : State :=
  let t := (s.wr F.NET_PTP_STATUS_state st).updNet fun x => { x with offsets := [], syncs := 0 }
  if (s.ptpState == 3) == (st == 3) then t else (t.rasPtp (st == 3)).audPtp (st == 3)

/-- A write of NET_PTP_CFG.enable (R529): an enable re-arms the step. -/
def State.ptpEnable (s : State) (on : Bool) : State :=
  if on then (if s.ptpState = 0 ∧ s.blockUp 0x7A = true then ((s.updNet fun x => { x with armed := true, master := none }).wr F.NET_PTP_STATUS_stepped 0).ptpTo 1 else s)
  else s.ptpTo 0

/-- The median of four offsets, doubled: what is left of their sum without the largest and the smallest. -/
def middle2 (l : List Int) : Int := sumInt l - l.foldl max (l.headD 0) - l.foldl min (l.headD 0)

/-- The one step of the time base by an offset from the master (R529): towards the master's time (DEDUCED, log 2). -/
def State.ptpStep (s : State) (offset : Int) : State := s.setClock ((s.clock : Int) - offset).toNat

/-- PTP_SYNC_RECEIVE (R529, R530): offset is the offset from master in ns. -/
def execPtpSyncReceive (offset : Int) (s : State) : Out :=
  let st := s.ptpState
  let w := s.rd F.NET_PTP_SERVO_lock_ns
  if st = 0 then .next s
  else
    let s1 := s.wr F.NET_PTP_OFFSET_value (ofSigned 32 offset)
    if st = 1 ∨ st = 4 then
      if s.net.master.isNone then .next s1
      else
        let l := s.net.offsets ++ [offset]
        if l.length < 4 then .next (s1.updNet fun x => { x with offsets := l })
        else if st = 1 ∧ s.net.armed = true ∧ 2000 < (middle2 l).natAbs then
          .next ((((((s1.ptpStep (openRound 15 (middle2 l, 2))).updNet fun x => { x with armed := false }).wr F.NET_PTP_STATUS_stepped 1).wr F.NET_FLAGS_step 1).raise 1
            Ev.PTP_STEP []).ptpTo 2)
        else .next (s1.ptpTo 2)
    else if st = 2 then
      let n := if offset.natAbs ≤ w then s.net.syncs + 1 else 0
      if 16 ≤ n then .next ((s1.ptpTo 3).raise 1 Ev.PTP_LOCKED []) else .next (s1.updNet fun x => { x with syncs := n })
    else
      let n := if 4 * w < offset.natAbs then s.net.syncs + 1 else 0
      if 4 ≤ n then .next ((s1.ptpTo 2).raise 1 Ev.PTP_OFFSET []) else .next (s1.updNet fun x => { x with syncs := n })

/-- A dataset in the order of comparison. -/
def dataset (a : Announce) : List Nat :=
  [a.priority1, a.clockClass, a.accuracy, a.variance, a.priority2, a.identity, a.stepsRemoved]

/-- A dataset comes before another. -/
def better : List Nat → List Nat → Bool
  | [], _ => false
  | _, [] => false
  | x :: xs, y :: ys => decide (x < y) || (x == y && better xs ys)

/-- PTP_ANNOUNCE_RECEIVE (R529, R543): the better dataset becomes the master; the master in force renews its own. -/
def execPtpAnnounceReceive (a : Announce) (s : State) : Out :=
  if s.ptpState = 0 ∨ a.domain ≠ s.rd F.NET_PTP_CFG_domain then .next s
  else
    let take := match s.net.master with | none => true | some m => m.getD 5 0 == a.identity || better (dataset a) m
    if take then .next (s.updNet fun x => { x with master := some (dataset a), utc := a.utcOffset, tlv := a.tlv }) else .next s

/-- PTP_ANNOUNCE_TIMEOUT (R529). -/
def execPtpAnnounceTimeout (s : State) : Out :=
  let t := s.updNet fun x => { x with master := none, tlv := none }
  if s.ptpState = 2 ∨ s.ptpState = 3 then .next ((t.ptpTo 4).raise 1 Ev.PTP_HOLDOVER [])
  else .next (t.updNet fun x => { x with offsets := [] })

/-- PTP_RESTEP (R530): refused while a take is open, an output that is not OFF is locked to PTP, or the audio master is. -/
def execPtpRestep (s : State) : Out :=
  if s.anyTakeOpen || (List.range 6).any (fun o => s.outLock o == 1 && s.lockState o != 0) || s.rd F.AUD_MASTER_CFG_lock == 1 then
    .next (s.wr F.NET_FLAGS_cfg_refused 1)
  else
    let t := (s.updNet fun x => { x with armed := true }).wr F.NET_PTP_STATUS_stepped 0
    .next (if s.ptpState = 0 then t else t.ptpTo 1)

/-- The seconds and nanoseconds of a stamp with a correction in 1/16 ns (R531). -/
def stampAt (t : Nat) (corr : Int) : Nat × Nat :=
  let a := openRound 9 (Frac.norm (16 * (t : Int) + corr, 16))
  (ptpSeconds a.toNat, ptpNanos a.toNat)

/-! ### Timecode -/

/-- Nominal frames per second and the labels dropped each minute but every tenth (R543), by rate code. -/
def tcRate (code : Nat) : Nat × Nat :=
  [(24, 0), (24, 0), (25, 0), (30, 2), (30, 0), (50, 0), (60, 4), (60, 0)].getD code (60, 0)

/-- Frames of a day. -/
def tcDay (code : Nat) : Nat := (tcRate code).1 * 86400 - (tcRate code).2 * 1296

/-- The count whose label is a time of day at frame 0. -/
def tcAt (code secs : Nat) : Nat := (tcRate code).1 * secs - (tcRate code).2 * (secs / 60 - secs / 600)

/-- The label of a count: hours, minutes, seconds, frames. -/
def tcLabel (code count : Nat) : Nat × Nat × Nat × Nat :=
  let f := (tcRate code).1
  let d := (tcRate code).2
  let ten := 600 * f - 9 * d
  let minute := 60 * f - d
  let r := count % ten
  let n := if d = 0 then count else count / ten * 600 * f + (if r < 60 * f then r else r + d * (1 + (r - 60 * f) / minute))
  (n / (3600 * f) % 24, n / (60 * f) % 60, n / f % 60, n % f)

/-- A label as BCD hh:mm:ss:ff. -/
def tcBcd (l : Nat × Nat × Nat × Nat) : Nat :=
  let b := fun n => n / 10 * 16 + n % 10
  ((b l.1 * 256 + b l.2.1) * 256 + b l.2.2.1) * 256 + b l.2.2.2

/-- The count of a BCD label. -/
def tcOfBcd (code v : Nat) : Nat :=
  let n := fun k => bitsOf v (8 * k + 7) (8 * k + 4) * 10 + bitsOf v (8 * k + 3) (8 * k)
  let secs := n 3 * 3600 + n 2 * 60 + n 1
  tcAt code secs + n 0

/-- The timecode count from PTP time t (R543). -/
def State.tcPtp (s : State) (t : Nat) : Nat :=
  let code := s.rd F.NET_TC_CFG_rate
  let q := rateOf code
  let jl := s.net.tlv.getD (2 * s.rd F.NET_TC_OFS_jam_s, 60 * toSigned 16 (s.rd F.NET_TC_OFS_local_s))
  let ns : Int := (t : Int) + (jl.2 - s.net.utc) * 1000000000
  if (tcRate code).2 = 0 then (ns * (q.1 : Int) / (1000000000 * q.2 : Nat) % (tcDay code : Nat)).toNat
  else
    let since := ((ns - (jl.1 : Int) * 1000000000) % 86400000000000).toNat
    (tcAt code (jl.1 % 86400) + since * q.1 / (1000000000 * q.2)) % tcDay code

/-- The timecode count now (R543, R544). -/
def State.timecode (s : State) : Nat :=
  let code := s.rd F.NET_TC_CFG_rate
  let src := s.rd F.NET_TC_CFG_src
  if src = 0 then s.tcPtp s.now
  else if src = 1 then
    let f := s.rd F.NET_TC_CFG_freewheel
    (s.net.tcCount + (if s.net.tcHeld then f else min f (Config.tcElapsed s.fresh))) % tcDay code
  else (s.net.tcCount + Config.tcElapsed s.fresh) % tcDay code

/-- NET_LTC_FRAME_RECEIVE (R543, R544): a valid LTC frame at the selected rate within 10% gives the count; the block lies in
AUD (R649). -/
def execNetLtcFrameReceive (count : Nat) (rateOk : Bool) (s : State) : Out :=
  if s.rd F.NET_TC_CFG_src = 1 ∧ rateOk = true ∧ s.released 31 = true ∧ s.takesWork 0x86 = true then .next (s.updNet fun x => { x with tcCount := count % tcDay (s.rd F.NET_TC_CFG_rate), tcHeld := false })
  else .next s

/-- NET_LTC_FREEWHEEL_EXPIRE (R543): the count holds. -/
def execNetLtcFreewheelExpire (s : State) : Out :=
  if s.rd F.NET_TC_CFG_src = 1 ∧ s.net.tcHeld = false then
    .next (((s.updNet fun x => { x with tcHeld := true }).flagCount F.NET_FLAGS_ltc_lost F.NET_CNT_ltc_lost).raise 1 Ev.NET_LTC_LOST [])
  else .next s

/-- LTC_OUT_FRAME_START (R544): bit 0 of the next LTC frame starts, with the count's label. -/
def execLtcOutFrameStart (s : State) : Out :=
  if s.released 31 && s.takesWork 0x86 then .next ((s.emit (.ltcFrame (tcBcd (tcLabel (s.rd F.NET_TC_CFG_rate) (s.timecode))))).tick) else .next s

/-! ### Host frames -/

/-- The frame check sequence of IEEE 802.3. -/
def fcsBit (c : BitVec 32) : BitVec 32 := if c.getLsbD 0 then (c >>> 1) ^^^ 0xEDB88320#32 else c >>> 1
def fcs (bs : List Byte) : Nat :=
  ((bs.foldl (fun c b => (List.range 8).foldl (fun c _ => fcsBit c) (c ^^^ b.setWidth 32)) 0xFFFFFFFF#32) ^^^ 0xFFFFFFFF#32).toNat

/-- The fields of NET_SEND are well formed (R532). -/
def sendOk (c : Cmd) : Bool :=
  decide (c.b 16 ≤ 1) && decide (c.b 17 ≤ 3) && decide (60 ≤ c.w 20) && decide (c.w 20 ≤ 1514) && c.d 24 % 64 == 0 && zeroBytes c.desc 42 64

/-- The launch time of a NET_SEND in ns. -/
def Cmd.launch (c : Cmd) : Nat := fieldAt c.desc 32 6 * 1000000000 + c.w 38

/-- The frames of a port that await launch. -/
def State.awaiting (s : State) (port : Nat) : List TxFrame := s.net.frames.filter fun f => f.port == port && !f.started

/-- NET_SEND (R532, R533): data is the frame read from host memory. A port that holds 64 frames leaves the command waiting. -/
def execNetSend (id : Nat) (data : List Byte) (s : State) : Out :=
  let far := fun c : Cmd =>
    bitOf (c.b 17) 1 && decide (s.now + 1000000000 < c.launch)
  let wait := match s.cmd id with
    | some c => sendOk c && !far c && s.on F.NET_PORT_STATUS_link (c.b 16) && decide (64 ≤ (s.awaiting (c.b 16)).length)
    | none => false
  if wait then .next s
  else .next (s.startCmd id 0x38 fun c s =>
    if !sendOk c then s.complete id St.NET_BAD_REQ 0 0 1
    else if !s.on F.NET_PORT_STATUS_link (c.b 16) then s.complete id St.NET_LINK_DOWN 0 0 1
    else if far c then s.tick.complete id St.NET_TOO_FAR 0 0 1
    else s.tick.updNet fun x => { x with frames := x.frames ++
      [{ cmd := id, port := c.b 16, stamped := bitOf (c.b 17) 0, stampId := c.h 18, launch := bitOf (c.b 17) 1,
         data := bytesAt data 0 (c.w 20), started := false, late := false }] })

/-- NET_FRAME_LAUNCH (R533): the frame starts on an idle port; frames without a launch time leave in arrival order. -/
def execNetFrameLaunch (id : Nat) (late : Bool) (s : State) : Out :=
  match s.net.frames.find? (fun f => f.cmd == id && !f.started) with
  | none => .next s
  | some f =>
    let busy := s.net.frames.any fun g => g.port == f.port && g.started
    let first := f.launch || ((s.awaiting f.port).find? fun g => !g.launch).map TxFrame.cmd == some id
    if busy || !first || !s.takesWork (0x78 + f.port) then .next s
    else .next ((s.updNet fun x => { x with frames := x.frames.map fun g => if g.cmd = id then { g with started := true, late := late && f.launch } else g }).emit
      (.netFrame f.port (f.data ++ le 4 (fcs f.data))))

/-- A frame has left a port (R531, R533, R534): its stamp joins the log or is lost, and its command ends. -/
def State.frameSent (s : State) (f : TxFrame) : State :=
  let t := s.updNet fun x => { x with frames := x.frames.filter fun g => g.cmd ≠ f.cmd }
  let t1 := if !f.stamped then t
    else if t.net.txts.length < 64 then (t.updNet fun x => { x with txts := x.txts ++ [(f.port, f.stampId, s.now)] }).tick
    else (t.flagCount F.NET_FLAGS_txts_overflow F.NET_CNT_txts_overflow).raise 1 Ev.NET_TXTS_OVERFLOW (le 1 f.port ++ le 2 f.stampId)
  t1.complete f.cmd St.OK (b2n f.late) 0 1

/-- NET_FRAME_TX_DONE (R531, R533, R534): the transmit stamp is queued or dropped, and the command completes. -/
def execNetFrameTxDone (id : Nat) (s : State) : Out :=
  match s.net.frames.find? (fun f => f.cmd == id && f.started) with
  | none => .next s
  | some f => .next (s.frameSent f)

/-- A later word of a latched group (R643). -/
def State.latchSet (s : State) (off v : Nat) : State := { s with latch := s.latch.set ⟨off, 0, 0, 0⟩ v }

/-- NET_TXTS_READ (R534): the oldest entry is removed and its words are latched. -/
def execNetTxtsRead (s : State) : Out :=
  let off := F.NET_TXTS0_valid.base
  match s.net.txts with
  | [] => .next ((((s.latchSet (off + 4) 0).latchSet (off + 8) 0).latchSet (off + 12) 0).emit (.readData off 0))
  | e :: rest =>
    let t := stampAt e.2.2 (s.rd F.NET_TS_CORR_tx e.1)
    .next (((((s.updNet fun x => { x with txts := rest }).latchSet (off + 4) (t.1 % 4294967296)).latchSet (off + 8) (t.1 / 4294967296 % 65536)).latchSet
      (off + 12) t.2).emit (.readData off (2147483648 + 65536 * e.1 + e.2.1 % 65536)))

/-- A PTP message of a domain: IPv4, UDP to port 319 or 320 (R526, R535). -/
def isPtp (data : List Byte) (domain : Nat) : Bool :=
  let h := 14 + (fieldAt data 14 1 % 16) * 4
  let port := ofBe (bytesAt data (h + 2) 2)
  ofBe (bytesAt data 12 2) == 0x0800 && fieldAt data 23 1 == 17 && (port == 319 || port == 320) && fieldAt data (h + 12) 1 == domain

/-- A frame addressed to a port or to broadcast. -/
def State.addressed (s : State) (port : Nat) (data : List Byte) : Bool :=
  let dst := ofBe (bytesAt data 0 6)
  dst == 281474976710655 || dst == s.rd F.NET_PORT_MAC_LO_value port + 4294967296 * s.rd F.NET_PORT_MAC_HI_value port

/-- A received frame is for the host ring (R526, R535): the link is up, it is no PTP message, it passes the filter, reception is enabled, and it is of an
Ethernet frame's length. -/
def State.rxTakes (s : State) (port : Nat) (data : List Byte) : Bool :=
  s.on F.NET_PORT_STATUS_link port && !isPtp data (s.rd F.NET_PTP_CFG_domain) && s.addressed port data && s.on F.NET_RX_CFG_enable
    && decide (data.length ≤ 1518)

/-- A received frame goes to the next slot of the host ring, stamped, with a record, or is dropped where the ring is full (R531, R535). -/
def State.rxFrame (s : State) (port : Nat) (data : List Byte) : State :=
  let n := s.net.rxCount
  let slots := s.rd F.NET_RX_CFG_slots
  if slots ≤ (n + 4294967296 - s.rd F.NET_RX_HEAD_value) % 4294967296 then
    (s.flagCount F.NET_FLAGS_rx_drop F.NET_CNT_rx_drop).raise 1 Ev.NET_RX_DROP (le 1 port)
  else
    let t := stampAt s.now (-(s.rd F.NET_TS_CORR_rx port : Int))
    let head := le 2 data.length ++ le 1 port ++ le 1 (b2n s.ptpUnlocked) ++ le 6 t.1 ++ le 4 t.2 ++ List.replicate 50 (0 : Byte)
    let a := s.pair F.NET_RX_BASE_LO_value F.NET_RX_BASE_HI_value + n % slots * 2048
    (((s.tick.updNet fun x => { x with rxCount := (n + 1) % 4294967296 }).emit (.hostWrite a (head ++ data)))).postUnsolicited 1
      (s.rd F.NET_RX_CFG_cq) 30 St.OK (n % slots) 0

/-- NET_FRAME_RECEIVE (R526, R531, R535): data is the frame with its FCS, at most 1,518 bytes. -/
def execNetFrameReceive (port : Nat) (data : List Byte) (s : State) : Out :=
  .next (if s.rxTakes port data then s.rxFrame port data else s)

/-- The link of a port changes (R546): its flag, count and event; a link that goes down ends the frames that wait for it. -/
def State.linkChanged (s : State) (port : Nat) (up : Bool) : State :=
  let t := ((s.wr F.NET_PORT_STATUS_link (b2n up) port).flagCount F.NET_FLAGS_link_change F.NET_CNT_link_change).raise 1 Ev.NET_LINK (le 1 port ++ le 1 (b2n up))
  if up then t
  else (s.awaiting port).foldl (fun (s : State) f => s.complete f.cmd St.NET_LINK_DOWN 0 0 1)
    (t.updNet fun x => { x with frames := x.frames.filter fun f => f.port ≠ port || f.started })

/-- NET_LINK_CHANGE (R546): frames awaiting launch fail when the link is lost. -/
def execNetLinkChange (port : Nat) (up : Bool) (s : State) : Out :=
  .next (if s.on F.NET_PORT_STATUS_link port == up || (up && !(s.on F.NET_PORT_CFG_enable port && s.takesWork (0x78 + port))) then s
    else s.linkChanged port up)

/-! ### Senders -/

def sndFormat (r : RegStore) (n : Nat) : Nat := regOf r F.NET_SND_FMT_value n % 16
def sndRate (r : RegStore) (n : Nat) : Nat := bitsOf (regOf r F.NET_SND_FMT_value n) 7 4
def sndChannels (r : RegStore) (n : Nat) : Nat := bitsOf (regOf r F.NET_SND_FMT_value n) 14 8
/-- Samples of one packet of a kind 2 sender at 48 kHz: 1 ms or 125 µs. -/
def sndSamples (r : RegStore) (n : Nat) : Nat := if bitOf (regOf r F.NET_SND_FMT_value n) 15 then 6 else 48

/-- Bytes of one line of a kind 0 sender, and its packets (R538). -/
def sndLineBytes (r : RegStore) (n : Nat) : Nat := (formatOf (sndFormat r n)).1 / 2 * 5
def sndLinePackets (r : RegStore) (n : Nat) : Nat := ceilDiv (sndLineBytes r n) (max 1 (regOf r F.NET_SND_PKT_value n))

/-- The wire bytes per second of a sender's set, as a quotient (R542): each packet adds 20 bytes of preamble and gap, Ethernet, IPv4, UDP,
RTP headers and FCS, and kind 0 a row data header. -/
def State.wireRate (s : State) (r : RegStore) (n : Nat) : Frac :=
  if !regOn r F.NET_SND_CTRL_enable n then (0, 1)
  else
    let kind := regOf r F.NET_SND_CTRL_kind n
    let src := regOf r F.NET_SND_CTRL_source n
    if kind = 0 then
      let q := rateOf (sndRate r n)
      Frac.norm (((formatOf (sndFormat r n)).2.1 * (sndLineBytes r n + 86 * sndLinePackets r n) * q.1 : Nat), q.2)
    else if kind = 1 then
      let cap := regOf (s.sc src).inForce F.VCD_SC_CAP_PIC_bytes src
      let q := s.viewRate (s.scView src)
      Frac.norm (((cap + 81 * ceilDiv cap (max 1 (regOf r F.NET_SND_PKT_value n - 3))) * q.1 : Nat), 1000 * q.2)
    else
      let m := sndSamples r n
      Frac.norm (((sndChannels r n * 3 * m + 78) * 48000 : Nat), m)

/-- The summed wire rates of the ports a set uses are within 22.5 Gb/s (R542). -/
def State.wireOk (s : State) (r : RegStore) (n : Nat) : Bool :=
  [0, 1].all fun p =>
    if bitOf (regOf r F.NET_SND_CTRL_ports n) p then
      let others := (List.range 8).filter fun k => k != n && bitOf (regOf (s.snd k).inForce F.NET_SND_CTRL_ports k) p
      let sum := others.foldl (fun a k => Frac.add a (s.wireRate (s.snd k).inForce k)) (s.wireRate r n)
      Frac.le sum (2812500000, 1)
    else true

/-- The condition of R536 for a kind, and the packet size of R538. -/
def State.sourceOk (s : State) (r : RegStore) (n : Nat) : Bool :=
  let kind := regOf r F.NET_SND_CTRL_kind n
  let src := regOf r F.NET_SND_CTRL_source n
  let pkt := regOf r F.NET_SND_PKT_value n
  if kind = 0 then
    let vr := (s.view src).inForce
    let g := formatOf (sndFormat r n)
    decide (src < 8) && regOf vr F.VIEW_FMT_format src == 1 && regOf vr F.VIEW_FMT_depth src == 0 && decide (sndFormat r n ≤ 2)
      && decide (sndRate r n ≤ 7) && decide (regOf vr F.VIEW_OUT_SIZE_x src ≤ g.1) && decide (regOf vr F.VIEW_OUT_SIZE_y src ≤ g.2.1)
      && pkt % 5 == 0 && decide (500 ≤ pkt) && decide (pkt ≤ 1400)
  else if kind = 1 then
    decide (src < 16) && s.rd F.VCD_SC_STATUS_state src == 1 && regOn (s.sc src).inForce F.VCD_SC_CTRL_live src && decide (4 ≤ pkt)
  else
    let c := sndChannels r n
    s.rd F.AUD_MASTER_CFG_lock == 1 && decide (1 ≤ c) && decide (c ≤ (if sndSamples r n = 48 then 8 else 64))

/-- The slot of the picture a sender carries is let go. -/
def State.sndRelease (s : State) (n : Nat) : State :=
  match (s.snd n).pic with
  | none => s
  | some p => if p.held then (s.dropViewHold p.view p.slot (.snd n)).updSnd n fun x => { x with pic := some { p with held := false } } else s

/-- A sender stops: nothing is sent, and a context's NAL units wait for it no more. -/
def State.sndStop (s : State) (n : Nat) : State :=
  let x := regOf (s.snd n).inForce F.NET_SND_CTRL_source n
  let t := ((s.sndRelease n).wr F.NET_SND_STATUS_running 0 n).updSnd n fun d => { d with pic := none, packet := 0, cut := false, sent := 0 }
  if regOf (s.snd n).inForce F.NET_SND_CTRL_kind n = 1 then
    (t.updSc x fun c => { c with nals := c.nals.map fun u => { u with live := u.live.filter (· ≠ n) } }).scRelease x
  else t

/-- A set takes effect at a sender. One with live = 1 is shed from level 1 on (R542, R593, R595). -/
def State.sndApply (s : State) (n : Nat) (r : RegStore) : State :=
  let held := regOn r F.NET_SND_CTRL_live n && decide (1 ≤ s.sys.shed.getD 1 0)
  let s := s.wr F.NET_SND_STATUS_shed (b2n held) n
  let t := ((s.sndStop n).wr F.NET_SND_COMMIT_pending 0 n).updSnd n fun d => { d with inForce := r, ready := none, last := none, stamp := s.aud.count }
  if regOn r F.NET_SND_CTRL_enable n && !s.on F.NET_SND_STATUS_shed n && s.released 30 then t.wr F.NET_SND_STATUS_running 1 n else t

/-- A commit of a sender is refused (R536): one is pending, the wire form does not hold, or an enabled one has no source. -/
def State.sndRefused (s : State) (n : Nat) : Bool :=
  let r := s.shadow 0x1301000 0x1301020 n
  s.on F.NET_SND_COMMIT_pending n || !(s.wireOk r n && (!regOn r F.NET_SND_CTRL_enable n || s.sourceOk r n))

/-- NET_SND_COMMIT (R501, R536, R542): go is refused while one is pending. A sender that is not running takes a set that passes at
once, another at its next frame alignment. The block has no cfg_bad, so a bad set sets cfg_refused (R279). -/
def execNetSndCommit (n : Nat) (s : State) : Out :=
  let r := s.shadow 0x1301000 0x1301020 n
  .next (if s.sndRefused n then s.wr F.NET_FLAGS_cfg_refused 1
    else if s.on F.NET_SND_STATUS_running n then (s.wr F.NET_SND_COMMIT_pending 1 n).updSnd n fun d => { d with ready := some r }
    else s.sndApply n r)

/-- NET_SND_FRAME_ALIGNMENT (R537, R539): a waiting set takes effect, and a kind 0 sender chooses its picture. -/
def execNetSndFrameAlignment (n : Nat) (s : State) : Out :=
  let t := match (s.snd n).ready with | some r => s.sndApply n r | none => s
  let r := (t.snd n).inForce
  if !t.on F.NET_SND_STATUS_running n || regOf r F.NET_SND_CTRL_kind n != 0 then .next t
  else
    let v := regOf r F.NET_SND_CTRL_source n
    let t0 := ((t.sndRelease n).updSnd n fun d => { d with pic := none, packet := 0, cut := false, stamp := t.now }).tick
    match t0.chooseSlot v (!regOn r F.NET_SND_CTRL_live n) (t.snd n).last with
    | none => .next t0
    | some (k, count, again, _) =>
      let p := t0.picOf v k again true
      let t1 := (t0.takeViewHold v k (.snd n)).updSnd n fun d => { d with pic := some p, last := some (v, count) }
      .next (if p.wet then t1.bump F.NET_SND_CNT_wet n else t1)

/-- The MAC address of an IPv4 multicast group (R536, RFC 1112): 01-00-5E and its low 23 bits. -/
def groupMac (ip : Nat) : Nat := 0x01005E000000 + ip % 8388608

/-- What the headers of a sender's packets on a port carry beside the RTP sequence number, time and marker, by the set in force (R536). -/
def State.packetHead (s : State) (n p : Nat) : PacketHead :=
  let r := (s.snd n).inForce
  let udp := regOf r F.NET_SND_UDP_value n
  let rtp := regOf r F.NET_SND_RTP_value n
  { srcMac := s.rd F.NET_PORT_MAC_LO_value p + 4294967296 * s.rd F.NET_PORT_MAC_HI_value p, srcIp := s.rd F.NET_PORT_IP_value p,
    dstIp := regOf r F.NET_SND_DST_value n, srcPort := udp % 65536, dstPort := udp / 65536, payloadType := rtp % 128, ttl := bitsOf rtp 15 8,
    dscp := bitsOf rtp 21 16, ssrc := regOf r F.NET_SND_SSRC_value n }

/-- An RTP packet on the ports of a sender. -/
def State.sendPacket (s : State) (n ts : Nat) (marker : Bool) (data : List Byte) : State :=
  let seq := (s.snd n).seq
  let t := s.each ([0, 1].filter fun p => bitOf (regOf (s.snd n).inForce F.NET_SND_CTRL_ports n) p) fun s p =>
    s.emit (.mediaPacket n p (groupMac (regOf (s.snd n).inForce F.NET_SND_DST_value n)) (seq % 65536) ts marker (s.packetHead n p) data)
  t.updSnd n fun d => { d with seq := seq + 1 }

/-- A stamp in 90 kHz units modulo 2^32 (R537, R540). -/
def ts90 (t : Nat) : Nat := t * 9 / 100000 % 4294967296

/-- The pgroups of a line: Cb, Y, Cr, Y of 10 bits each, black outside the picture. -/
def State.pgroups (s : State) (p : Option OutPic) (y w : Nat) : List Byte :=
  let row := match p with
    | some q => if y < s.viewHeight q.view then some (s.slotLine q.view q.slot 0 y, s.slotLine q.view q.slot 1 y, s.slotLine q.view q.slot 2 y) else none
    | none => none
  (List.range (w / 2)).flatMap fun j =>
    let y0 := match row with | some l => l.1.getD (2 * j) 64 | none => 64
    let y1 := match row with | some l => l.1.getD (2 * j + 1) 64 | none => 64
    let cb := match row with | some l => l.2.1.getD j 512 | none => 512
    let cr := match row with | some l => l.2.2.getD j 512 | none => 512
    be 5 (cb % 1024 * 1073741824 + y0 % 1024 * 1048576 + cr % 1024 * 1024 + y1 % 1024)

/-- A packet of a kind 0 sender (R538): a row data header, then whole pgroups of one line. -/
def State.videoPacket (s : State) (n : Nat) : State :=
  let d := s.snd n
  let r := d.inForce
  let g := formatOf (sndFormat r n)
  let per := sndLinePackets r n
  let pkt := regOf r F.NET_SND_PKT_value n
  let total := g.2.1 * per
  let k := d.packet
  if total ≤ k ∨ d.cut = true then s
  else
    let y := k / max 1 per
    let off := k % max 1 per * pkt
    let body := ((s.pgroups d.pic y g.1).drop off).take pkt
    let head := be 2 (d.seq / 65536 % 65536) ++ be 2 body.length ++ be 2 y ++ be 2 (off / 5 * 2)
    let t := (s.sendPacket n (ts90 d.stamp) (k + 1 == total) (head ++ body)).updSnd n fun d => { d with packet := k + 1 }
    if k + 1 = total then (t.bump F.NET_SND_CNT_frames n).sndRelease n else t

/-- A packet of a kind 1 sender (R540): a single NAL unit, or the next FU of one. -/
def State.nalPacket (s : State) (n : Nat) : State :=
  let d := s.snd n
  let x := regOf d.inForce F.NET_SND_CTRL_source n
  let pkt := regOf d.inForce F.NET_SND_PKT_value n
  match (s.sc x).nals.find? (fun u => u.live.contains n) with
  | none => s
  | some u =>
    let nal := u.data.drop 4
    let single := decide (nal.length ≤ pkt)
    let body := nal.drop 2
    let piece := (body.drop d.sent).take (pkt - 3)
    let fin := single || decide (body.length ≤ d.sent + piece.length)
    let kind := fieldAt nal 0 1 / 2 % 64
    let fu := le 1 (fieldAt nal 0 1 / 128 * 128 + 98 + fieldAt nal 0 1 % 2) ++ le 1 (fieldAt nal 1 1) ++ le 1 (128 * b2n (d.sent == 0) + 64 * b2n fin + kind)
    let t := s.sendPacket n (ts90 u.stamp) (fin && u.last) (if single then nal else fu ++ piece)
    if fin then
      let t1 := ((t.updSnd n fun d => { d with sent := 0 }).updSc x fun c =>
        { c with nals := c.nals.map fun w => if w.au = u.au ∧ w.data = u.data then { w with live := w.live.filter (· ≠ n) } else w }).scRelease x
      if u.last then t1.bump F.NET_SND_CNT_frames n else t1
    else t.updSnd n fun d => { d with sent := d.sent + piece.length }

/-- A packet of a kind 2 sender (R541): L24 samples, sent once the last of them is 16 master periods old. -/
def State.soundPacket (s : State) (n : Nat) : State :=
  let d := s.snd n
  let r := d.inForce
  let m := sndSamples r n
  let t := s.wr F.NET_SND_STATUS_unlocked (b2n (s.masterState != 3)) n
  if d.stamp + m + 16 ≤ s.aud.count then
    let data := (List.range m).flatMap fun i =>
      let words := s.aud.hist.getD (s.aud.count - 1 - (d.stamp + i)) []
      (List.range (sndChannels r n)).flatMap fun c => be 3 (words.getD (regOf r F.NET_SND_CTRL_source n + c) 0 / 256)
    (t.sendPacket n (Config.sampleTime d.stamp).toNat false data).updSnd n fun d => { d with stamp := d.stamp + m }
  else t

/-- NET_SENDER_PACKET (R538 to R542): the next packet of a running sender reaches its launch time. -/
def execNetSenderPacket (n : Nat) (s : State) : Out :=
  if !s.on F.NET_SND_STATUS_running n || !s.released 30 || !s.takesWork 0x7B then .next s
  else
    let kind := regOf (s.snd n).inForce F.NET_SND_CTRL_kind n
    .next (if kind = 0 then s.videoPacket n else if kind = 1 then s.nalPacket n else s.soundPacket n)

/-- The settle notice at the senders (R539): no further packet of a scraped frame is sent. -/
def State.senderNotice (s : State) (e serial : Nat) : State :=
  match s.frame e serial with
  | none => s
  | some f =>
    if f.st = .scraped then
      (List.range 8).foldl (fun (s : State) n => match (s.snd n).pic with
        | some p => if p.easel = e ∧ p.serial = serial ∧ p.held = true then
            ((s.sndRelease n).updSnd n fun d => { d with cut := true }).bump F.NET_SND_CNT_cut n
          else s
        | none => s) s
    else s

/-- A sender is shed, or its shedding ends (R542). -/
def State.sndShed (s : State) (n : Nat) (shed : Bool) : State :=
  if shed then (s.sndStop n).wr F.NET_SND_STATUS_shed 1 n
  else
    let t := s.wr F.NET_SND_STATUS_shed 0 n
    if regOn (s.snd n).inForce F.NET_SND_CTRL_enable n && s.released 30 then t.wr F.NET_SND_STATUS_running 1 n else t

/-- The NET domain goes into reset, or East does (R527, R546): the time base is OFF, senders are disabled, the queues are emptied, and
outstanding NET_SEND commands complete with a status. -/
def State.netReset (s : State) (status : Nat) : State :=
  let t := (List.range 8).foldl State.sndStop s
  let t1 := (t.host.cmds.filter fun c => c.opcode == 0x38 && c.stage != .ended && c.stage != .fenced).foldl (fun (s : State) c => s.complete c.id status 0 0 1) t
  { ((t1.ptpTo 0).setClock 0) with net := NetSt.init }

/-- The NET domain is released: an enabled time base listens. -/
def State.netRelease (s : State) : State := if s.on F.NET_PTP_CFG_enable then s.ptpEnable true else s

end Sys2Proof.Machine
end

