-- ==== Sys2Proof/Machine/Age.lean ====
section
/-! DEFINITION. The admission check of an easel, and the ageing measurement, the margin plan, the core voltage and the frame deadlines
of spec/18 and spec/21. Periods are in femtoseconds, voltages in mV. -/
namespace Sys2Proof.Machine

def State.updSys (s : State) (f : SysSt → SysSt) : State := { s with sys := f s.sys }
def State.updKeeper (s : State) (h : Nat) (f : KeeperSt → KeeperSt) : State := s.updSys fun x => { x with keepers := updAt x.keepers h f }

/-! ### Admission -/

/-- The open easels: those open or closing (R131). -/
def State.openEasels (s : State) : List Nat := (List.range 4).filter s.easelRuns

/-- The admission check of an easel against a planned step code (R128 to R131). -/
def State.admission (s : State) (e plan : Nat) : State :=
  if s.rd F.EASEL_STATUS_state e ≠ 3 then s
  else
    let req := s.reqCode (s.openEasels ++ [e])
    let cause := s.admitCause e plan req
    let t := (s.wr F.EASEL_ADMIT_plan_code plan e).wr F.EASEL_ADMIT_req_code req e
    if cause = 0 then
      (((t.wr F.EASEL_STATUS_state 1 e).updEasel e fun x => { x with accepted := 0, discard := true, slow := false, history := [] }).condOpen e).canvasOpen e
    else
      ((((t.wr F.EASEL_STATUS_state 0 e).wr F.EASEL_CTRL_open 0 e).wr F.EASEL_STATUS_refuse_cause cause e).wr F.EASEL_FLAGS_admit_refused 1 e).raise
        0 Ev.EASEL_ADMIT_FAIL (le 1 e ++ le 1 cause)

/-- EASEL_ADMISSION_CHECK (R128, R131, R278, R662): it waits for a plan check in progress, and while a core voltage written is not
yet reported. -/
def execEaselAdmissionCheck (e : Nat) (s : State) : Out :=
  if s.rd F.EASEL_STATUS_state e ≠ 3 then .next s
  else if s.planPending then .next (s.waitPlan (.easelAdmissionCheck e))
  else if s.sys.asked.isSome then .next (s.updSys fun x => { x with avsWait := x.avsWait.filter (· ≠ e) ++ [e] })
  else .next (s.admission e (s.rd F.AGE_PLAN_plan_code))

/-! ### Drift and the predicted step period -/

/-- s(V): the fused speed table, linear between its points (R598). -/
def speedAt (mv : Nat) : Frac :=
  let m := min 820 (max 620 mv) - 620
  Frac.mk' (Config.speed (m / 20) * (20 - m % 20) + Config.speed (m / 20 + 1) * (m % 20)) 20000

/-- t to the power 0.25 for t hours. -/
def quarter (t : Frac) : Frac := Frac.mk' (Config.quarterRoot t) 1000000000

/-- The slope k of the ageing trend (R599): the design allowance until 8 samples are stored. -/
def SysSt.trend (x : SysSt) : Frac :=
  if x.fit.2.2 + x.samples.length < 8 then (7775, 1000000)
  else
    let ax := x.samples.foldl (fun a p => Frac.norm (Frac.add a (Frac.mul p.2 (quarter (Frac.ofNat p.1))))) x.fit.1
    let xx := x.samples.foldl (fun a p => Frac.norm (Frac.add a (Frac.mul (quarter (Frac.ofNat p.1)) (quarter (Frac.ofNat p.1))))) x.fit.2.1
    Frac.div ax xx

/-- T_wc(V, t) in fs (R600). -/
def SysSt.worst (x : SysSt) (mv : Nat) (t : Frac) : Frac :=
  Frac.div (Frac.mul (Frac.ofNat Config.worstFs) (Frac.add (1, 1) (Frac.mul x.trend (quarter t)))) (speedAt mv)

/-- T_wc at a voltage at the plan's horizon as a step code, rounded up (R602). -/
def State.planCode (s : State) (mv : Nat) : Nat :=
  min 65535 (Frac.ceil (Frac.mul (s.sys.worst mv s.sys.horizon) (64, 1000))).toNat

/-- A period meets 0.93 of a required step code (R601, R602). -/
def withinCode (t : Frac) (code : Nat) : Bool := Frac.le t (Frac.mk' (code * 930) 64)

/-! ### The mode table -/

def State.modeOffered (s : State) (m : Nat) : Bool :=
  if m = 0 then s.on F.AGE_MODE0_offered else if m = 1 then s.on F.AGE_MODE1_offered else s.on F.AGE_MODE2_offered (m - 2)
def State.modeDefined (s : State) (m : Nat) : Bool :=
  if m = 0 then s.on F.AGE_MODE0_defined else if m = 1 then s.on F.AGE_MODE1_defined else s.on F.AGE_MODE2_defined (m - 2)
def State.modeReq (s : State) (m : Nat) : Nat :=
  if m = 0 then s.rd F.AGE_MODE0_req_code else if m = 1 then s.rd F.AGE_MODE1_req_code else s.rd F.AGE_MODE2_req_code (m - 2)
def State.setOffered (s : State) (m : Nat) (b : Bool) : State :=
  if m = 0 then s.wr F.AGE_MODE0_offered (b2n b) else if m = 1 then s.wr F.AGE_MODE1_offered (b2n b) else s.wr F.AGE_MODE2_offered (b2n b) (m - 2)
def State.setMode (s : State) (m : Nat) (defined : Bool) (req : Nat) : State :=
  if m = 0 then (s.wr F.AGE_MODE0_defined (b2n defined)).wr F.AGE_MODE0_req_code req
  else if m = 1 then (s.wr F.AGE_MODE1_defined (b2n defined)).wr F.AGE_MODE1_req_code req
  else (s.wr F.AGE_MODE2_defined (b2n defined) (m - 2)).wr F.AGE_MODE2_req_code req (m - 2)

/-- The device ledger's record of a mode table entry (R601, R634). -/
def State.modeRecord (s : State) (m : Nat) : State :=
  (s.ledgerAdd 7 m [b2n (s.modeDefined m), s.modeReq m, b2n (s.modeOffered m)]).updSys fun x =>
    { x with offered := (m, s.modeOffered m) :: x.offered.filter fun o => o.1 ≠ m }

/-- Offered bits at a power-up (R601): each defined entry that meets the plan at 0.82 V; one that loses its bit is withdrawn. -/
def State.offer (s : State) : State :=
  s.each (List.range 16) fun s m =>
    let old := match s.sys.offered.find? (fun o => o.1 == m) with | some o => o.2 | none => false
    let new := s.modeDefined m && withinCode (s.sys.worst 820 s.sys.horizon) (s.modeReq m)
    let t := s.setOffered m new
    let t1 := if old == new then t else t.modeRecord m
    if old && !new then (t1.wr F.AGE_FLAGS_withdrawn 1).raise s.holder Ev.AGE_WITHDRAWN (le 1 m) else t1

/-! ### The core voltage -/

/-- A core voltage is requested of the regulator (R603, R660). -/
def State.voltWrite (s : State) (mv : Nat) : State :=
  (s.updSys fun x => { x with asked := some mv, lower := false }).emit (.avs mv)

/-- The voltage the plan and a boost ask for (R603, R608): the higher of the two. -/
def State.voltWanted (s : State) : Nat := max (s.rd F.AGE_PLAN_plan_mv) s.sys.boostMv

/-- The voltage last asked for. -/
def State.voltAsked (s : State) : Nat := s.sys.asked.getD (s.rd F.AGE_VNOW_mv)

/-- A higher voltage is requested at once, a lower one once no take is open (R603). -/
def State.voltFollow (s : State) : State :=
  if s.voltAsked < s.voltWanted then s.voltWrite s.voltWanted
  else if s.voltWanted < s.voltAsked then
    if s.anyTakeOpen then s.updSys fun x => { x with lower := true } else s.voltWrite s.voltWanted
  else s.updSys fun x => { x with lower := false }

/-- AGE_VOLTAGE_LOWER (R603). -/
def execAgeVoltageLower (s : State) : Out := .next (if s.sys.lower && !s.anyTakeOpen then s.voltFollow else s)

/-- The smallest req_code in EASEL_ADMIT of the open easels (R604). -/
def State.openCode (s : State) : Option Nat :=
  match s.openEasels.map fun e => s.rd F.EASEL_ADMIT_req_code e with
  | [] => none
  | l => some (listMin l)

/-- A boost raise at a meter sample (R604): 10 mV while the device step period exceeds 0.97 of the smallest required code. -/
def State.boostRaise (s : State) : State :=
  match s.openCode with
  | none => s
  | some req =>
    if req * 97 < s.rd F.GLB_PACE_DEV_code * 100 ∧ s.voltAsked < 820 then
      let t := if s.on F.AGE_VNOW_boost then s
        else ((s.wr F.AGE_VNOW_boost 1).flagCount F.AGE_FLAGS_boost F.AGE_CNT_boost).raise s.holder Ev.AGE_VBOOST []
      (t.updSys fun x => { x with boostMv := min 820 (s.voltAsked + 10) }).voltFollow
    else s

/-- AGE_BOOST_END (R604): the period has stayed below 0.90 of the code for 1 s, and the voltage returns to the plan. -/
def execAgeBoostEnd (s : State) : Out :=
  let low := match s.openCode with | some req => decide (s.rd F.GLB_PACE_DEV_code * 100 < req * 90) | none => true
  if s.on F.AGE_VNOW_boost && low then .next ((s.wr F.AGE_VNOW_boost 0).updSys fun x => { x with boostMv := 0 }).voltFollow
  else .next s

/-- AVS_VOLTAGE_REPORT (R603, R660, R662): both rails report a voltage in range; it is in force, T_plan follows, and admission checks
that waited run. -/
def execAvsVoltageReport (mv : Nat) (s : State) : Out :=
  if s.sys.asked = some mv then
    let t := (s.wr F.AGE_VNOW_mv mv).updSys fun x => { x with asked := none, avsWait := [] }
    let t1 := t.wr F.AGE_PLAN_plan_code (t.planCode mv)
    .next (t1.each s.sys.avsWait fun s e =>
      if s.planPending then s.waitPlan (.easelAdmissionCheck e) else s.admission e (s.rd F.AGE_PLAN_plan_code))
  else .next s

/-- AVS_REPORT_TIMEOUT (R278, R662): a waiting check runs with the longer T_wc, after a plan check in progress. -/
def execAvsReportTimeout (e : Nat) (s : State) : Out :=
  if s.sys.avsWait.contains e then
    let t := s.updSys fun x => { x with avsWait := x.avsWait.filter (· ≠ e) }
    if s.planPending then .next (s.waitPlan (.avsReportTimeout e))
    else .next (t.admission e (max (s.rd F.AGE_PLAN_plan_code) (s.planCode s.voltAsked)))
  else .next s

/-! ### The plan -/

/-- The duty d over the 90 days before a plan run (R600), from 0.05 to 1; now is the PTP time in seconds, none while not LOCKED. -/
def SysSt.dutyAt (x : SysSt) (hours : Nat) (now : Option Nat) : Frac :=
  match now with
  | none => x.duty
  | some n =>
    match x.firstUse with
    | none => (1, 1)
    | some first =>
      if n < first + 7776000 then (1, 1)
      else match x.marks.find? (fun m => decide (n ≤ m.2 + 7776000) && decide (m.2 < n)) with
        | none => x.duty
        | some m => Frac.max (5, 100) (Frac.min (1, 1) (Frac.mk' ((hours - m.1) * 3600) (n - m.2)))

/-- The forecast (R605): months until the offered entry with the smallest requirement reaches its limit. -/
def State.forecast (s : State) (req : Nat) : Nat :=
  let k := s.sys.trend
  let lim := Frac.sub (Frac.div (Frac.mul (Frac.mk' (req * 930) 64) (speedAt 820)) (Frac.ofNat Config.worstFs)) (1, 1)
  if lim.1 ≤ 0 then 0
  else if k.1 ≤ 0 then 65535
  else
    let q := Frac.div lim k
    let t := Frac.mul (Frac.mul q q) (Frac.mul q q)
    let m := Frac.floor (Frac.div (Frac.sub t (Frac.ofNat (s.rd F.AGE_HOURS_hours))) (Frac.mul (730, 1) s.sys.duty))
    (clampInt 0 65535 m).toNat

/-- AGE_FORECAST and its event (R605): below 18 months first, each further fall by 3, and at each power-up. -/
def State.forecastShow (s : State) : State :=
  match (List.range 16).filter s.modeOffered with
  | [] => s
  | ms =>
    let months := s.forecast (listMin (ms.map s.modeReq))
    let t := s.wr F.AGE_FORECAST_months months
    let due := decide (months < 18) && (match s.sys.told with | some o => decide (months + 3 ≤ o) | none => true)
    if due then
      ((t.updSys fun x => { x with told := some months }).wr F.AGE_FLAGS_forecast 1).raise s.holder Ev.AGE_FORECAST (le 2 months)
    else t

/-- The plan voltage (R602): the lowest step that meets the smallest offered requirement, or 240 ps when none is offered. -/
def State.planVoltage (s : State) : Nat :=
  let req := match (List.range 16).filter s.modeOffered with
    | [] => 15360
    | ms => listMin (ms.map s.modeReq)
  (((List.range 41).map fun k => 620 + 5 * k).find? fun mv => withinCode (s.sys.worst mv s.sys.horizon) req).getD 820

/-- The margin plan (R600 to R605). -/
def State.planRun (s : State) : State :=
  let now := if s.ptpUnlocked then none else some (ptpSeconds s.now)
  let hours := s.rd F.AGE_HOURS_hours
  let d := Frac.norm (s.sys.dutyAt hours now)
  let t := s.tick.updSys fun x => { x with duty := d, horizon := Frac.norm (Frac.add (Frac.ofNat hours) (Frac.mul (2160, 1) d)), planned := true }
  let t1 := (t.wr F.AGE_FORECAST_duty (openRound 10 (Frac.mul d (1000, 1))).toNat).wr F.AGE_TREND_k
    (clampInt 0 65535 (openRound 11 (Frac.mul t.sys.trend (1048576, 1)))).toNat
  let t2 := if s.sys.planned then t1 else t1.offer
  let t3 := t2.wr F.AGE_PLAN_plan_mv t2.planVoltage
  (t3.wr F.AGE_PLAN_plan_code (t3.planCode (t3.rd F.AGE_VNOW_mv))).voltFollow.forecastShow

/-- AGE_PLAN_RUN (R601 to R605): at a power-up, after an ageing sample and after a write to the mode table. -/
def execAgePlanRun (s : State) : Out := .next (if (s.keeper s.holder).up then s.planRun else s)

/-- AGE_MODE_WRITE (R601, R603): v is the word written to entry m. A newly defined entry reads offered 0. -/
def execAgeModeWrite (m v : Nat) (s : State) : Out :=
  let fresh := bitOf v 30 && !s.modeDefined m
  let t := s.setMode m (bitOf v 30) (v % 65536)
  .next ((if fresh then t.setOffered m false else t).modeRecord m).planRun

/-! ### Hours and samples -/

/-- AGE_POWERED_HOUR (R597): the hour counts; the marks and records go to the device ledger. -/
def execAgePoweredHour (s : State) : Out :=
  let hours := min 4294967295 (s.rd F.AGE_HOURS_hours + 1)
  let sec := ptpSeconds s.now
  let t := s.wr F.AGE_HOURS_hours hours
  let first := match s.sys.firstUse with | some f => f + 1 | none => 0
  let t1 := t.ledgerAdd 1 0 [hours, first, s.sys.duty.1.toNat, s.sys.duty.2]
  if s.ptpUnlocked then .next t1
  else
    .next ((t1.tick.ledgerAdd 11 0 [hours, sec, ptpNanos s.now]).updSys fun x =>
      { x with marks := x.marks ++ [(hours, sec)], firstUse := if x.firstUse.isNone then some sec else x.firstUse })

/-- The values a ledger record keeps of a fraction. -/
def fracVals (a : Frac) : List Nat := [a.1.natAbs, b2n (decide (a.1 < 0)), a.2]

/-- The halves' samples of a day become the device's (R598): the larger drift, written once no half is in quiet. -/
def State.sampleSettle (s : State) : State :=
  match s.sys.daily with
  | [some w, some e] =>
    if s.quiet 0 || s.quiet 1 then s
    else
      let a := Frac.max w e
      let hours := s.rd F.AGE_HOURS_hours
      let t := (s.ledgerAdd 2 0 (hours :: fracVals a)).updSys fun x => { x with samples := x.samples ++ [(hours, a)], daily := [none, none] }
      (t.wr F.AGE_TREND_a_last (ofSigned 16 (clampInt (-32768) 32767 (openRound 12 (Frac.mul a (65536, 1)))))).wr F.AGE_TREND_k
        (clampInt 0 65535 (openRound 11 (Frac.mul t.sys.trend (1048576, 1)))).toNat
  | _ => s

/-- A half's mean meter period in 1/64 ps as the ageing measurement takes it: the published mean, brought by the PACE corrections of the
meters that count (R180, R598; DEDUCED, log 24). -/
def State.meterMean (s : State) (h : Nat) : Frac :=
  let code := if h = 0 then s.rd F.GLB_PACE_W_mean else s.rd F.GLB_PACE_E_mean
  let l := (withIndex (s.condHalf.getD h HalfCal.init).corr).filter fun p => s.released (meterDomain h p.1) && !bitOf (s.rd (faultyFld h)) p.1
  let sum := l.foldl (fun a p => Frac.norm (Frac.add a p.2)) (0, 1)
  Frac.norm (Frac.add (Frac.ofNat code) (Frac.div sum (Frac.ofNat (max 1 l.length))))

/-- A half's drift (R598): its mean meter period brought to 0.72 V and 60 °C, against its fused baseline. -/
def State.drift (s : State) (h : Nat) : Frac :=
  let tj := toSigned 16 (s.rd F.THM_STATUS_tj)
  let heat := Frac.add (1, 1) (Frac.mul (Config.tempCoeff, 1000000000) (Frac.sub (tj, 10) (60, 1)))
  let ref := Frac.div (Frac.mul (Frac.mul (s.meterMean h) (1000, 64)) (speedAt (s.rd F.AGE_VNOW_mv))) heat
  Frac.norm (Frac.sub (Frac.div ref (Frac.ofNat (Config.baseFs h))) (1, 1))

/-- AGE_SAMPLE (R597, R598): a half's daily sample, tried again each hour and skipped after 24 failed tries. steady: the core voltage
has not changed for 1 s. -/
def execAgeSample (h : Nat) (steady : Bool) (s : State) : Out :=
  let tj := toSigned 16 (s.rd F.THM_STATUS_tj)
  let counted := if h = 0 then s.rd F.GLB_PACE_STATUS_counted_w else s.rd F.GLB_PACE_STATUS_counted_e
  if !(s.keeper h).up then .next s
  else if steady && decide (400 ≤ tj) && decide (tj ≤ 900) && decide (8 ≤ counted) then
    .next (s.updSys fun x => { x with daily := updAt x.daily h fun _ => some (s.drift h), tries := updAt x.tries h fun _ => 0 }).sampleSettle
  else
    let n := s.sys.tries.getD h 0 + 1
    if n < 24 then .next (s.updSys fun x => { x with tries := updAt x.tries h fun _ => n })
    else .next (((s.updSys fun x => { x with tries := updAt x.tries h fun _ => 0, daily := [none, none] }).flagCount F.AGE_FLAGS_sample_skipped
      F.AGE_CNT_sample_skipped).raise s.holder Ev.AGE_SAMPLE_SKIPPED [])

/-! ### Deadlines -/

/-- Every tile of every band of a frame that produces tiles is readable in the canvas (R152, R606). A frame that still takes rows may
produce more. -/
def State.onTime (s : State) (e : Nat) (f : Frame) : Bool :=
  let cols := f.width / 64
  let bands := (List.range (f.height / 32)).filter fun b => (List.range 32).any fun k => f.seen.contains (32 * b + k)
  (f.ended || f.missing == 0) && bands.all fun b => (List.range cols).all fun x => s.brush.readable.contains (e, f.serial, b * cols + x)

/-- A frame has missed its deadline (R606, R607): fault bit 6, the flag and the event; a DRY frame becomes DAMAGED with a second settle notice. -/
def State.deadlineMissed (s : State) (e : Nat) (f : Frame) : State :=
  let word := setFault f.fault 6
  let t := (s.lateFault e f.serial 6).updFrame e f.serial fun x => { x with deadline := true }
  let t1 := (t.flagCount F.AGE_FLAGS_deadline F.AGE_CNT_deadline).raise s.holder Ev.AGE_DEADLINE (framePayload e f.serial word)
  if f.st = .dry then
    let t2 := (t1.updFrame e f.serial fun x => { x with st := .damaged }).flagCount F.EASEL_FLAGS_damaged F.EASEL_CNT_DAMAGED_count e
    let t3 := t2.raise 0 Ev.INTAKE_DAMAGED (framePayload e f.serial word)
    { t3 with notices := t3.notices ++ allConsumers.map fun c => (c, e, f.serial) }
  else t1

/-- FRAME_DEADLINE (R606, R607): D(F) of a frame passes. -/
def execFrameDeadline (e serial : Nat) (s : State) : Out :=
  match s.frame e serial with
  | none => .next s
  | some f => .next (if f.st = .scraped ∨ f.deadline ∨ s.onTime e f then s else s.deadlineMissed e f)

/-! ### What is shed -/

/-- Outputs of a shed level (R593): DSI at 2; SDI1 to SDI3, and a quad group on SDI0, at 3. -/
def State.shedOuts (s : State) (n : Nat) : List Nat :=
  if n = 2 then [4, 5]
  else if n = 3 then (if regOn (s.outp 0).inForce F.RAS_OUT_CTRL_quad 0 then [0, 1, 2, 3] else [1, 2, 3])
  else []

/-- The senders with live = 1. -/
def State.liveOnes (s : State) : List Nat := (List.range 8).filter fun n => regOn (s.snd n).inForce F.NET_SND_CTRL_live n

/-- After a reset of their domain, what is shed reads so again (R595). -/
def State.shedMarks (s : State) : State :=
  let w := s.sys.shed.getD 0 0
  let outs := (if 2 ≤ w then s.shedOuts 2 else []) ++ (if 3 ≤ w then s.shedOuts 3 else [])
  let t := s.each outs fun s o => s.wr F.RAS_OUT_STATUS_shed 1 o
  t.each (if 1 ≤ s.sys.shed.getD 1 0 then s.liveOnes else []) fun s n => s.wr F.NET_SND_STATUS_shed 1 n

end Sys2Proof.Machine
end

