-- ==== Sys2Proof/Machine/Reset.lean ====
section
/-! DEFINITION. Power domains, resets of every reach, clock-good, and the bell (spec/17). Domains are numbered as R548 numbers them,
blocks as R649, halves 0 West and 1 East. -/
namespace Sys2Proof.Machine

/-- Either half is in quiet. -/
def State.anyQuiet (s : State) : Bool := s.quiet 0 || s.quiet 1

/-! ### Domains and blocks -/

/-- The half of a domain (R548). -/
def halfOf (d : Nat) : Nat :=
  if d < 2 then d else if d < 10 then (d - 2) / 4 else if d < 18 then (d - 10) / 4
  else if d = 28 ∨ d = 29 then 0 else if d = 30 ∨ d = 31 then 1 else d % 2

/-- Domains in the reach of a half reset (R18). -/
def halfDomains (h : Nat) : List Nat := (List.range 32).filter fun d => decide (2 ≤ d) && d != 28 && halfOf d == h

/-- The domains a step of R552 releases. -/
def stepDomains (n : Nat) : List Nat :=
  if n = 2 then [0, 1] else if n = 3 then [26, 27] else if n = 4 then [24, 25] else if n = 5 then [28] else if n = 6 then [22, 23]
  else if n = 7 then [30] else if n = 8 then [31] else if n = 9 then [29] else if n = 10 then [18, 19] else if n = 11 then [20, 21]
  else if 12 ≤ n ∧ n ≤ 15 then [n - 2, n + 2] else if 16 ≤ n ∧ n ≤ 19 then [n - 14, n - 10] else []

/-- The blocks of a domain (R649). -/
def domainBlocks (d : Nat) : List Nat :=
  if 2 ≤ d ∧ d < 10 then [2 * (d - 2) + 1, 2 * (d - 2) + 2]
  else if 10 ≤ d ∧ d < 18 then [0x20 + (d - 10)]
  else if d = 18 ∨ d = 19 then [0x30 + (d - 18), 0x32 + (d - 18)]
  else if d = 20 ∨ d = 21 then (List.range 4).map (fun k => 0x38 + 4 * (d - 20) + k) ++ [0x40 + (d - 20)]
  else if d = 22 ∨ d = 23 then [0x48 + (d - 22)] else if d = 24 ∨ d = 25 then [0x50 + (d - 24)]
  else if d = 28 then [0x60] else if d = 29 then [0x70, 0x71, 0x72, 0x73, 0x74, 0x75] else if d = 30 then [0x78, 0x79, 0x7A, 0x7B]
  else if d = 31 then [0x80, 0x81, 0x82, 0x83, 0x84, 0x85, 0x86] else []

/-- The domain of a block that RST_BLOCK_CTRL may name (R567, R649). -/
def blockDomain (b : Nat) : Option Nat := (List.range 32).find? fun d => (domainBlocks d).contains b

/-- The blocks gated by clock-good (R649). -/
def clocked (b : Nat) : Bool :=
  (decide (1 ≤ b) && decide (b ≤ 0x10)) || b == 0x48 || b == 0x49 || b == 0x50 || b == 0x51 || (decide (0x70 ≤ b) && decide (b ≤ 0x75))
    || b == 0x78 || b == 0x79 || b == 0x7A || (decide (0x80 ≤ b) && decide (b ≤ 0x86))

/-- The domain whose reset clears a register's RO, RC and W1C fields, by its place in the register map (R639, R644). -/
def regDomain (k : RegKey) : Option Nat :=
  if 0xC00000 ≤ k.base ∧ k.base < 0xC80000 then some (18 + k.i)
  else if 0xD00000 ≤ k.base ∧ k.base < 0xD80000 then some (24 + k.i)
  else if 0x1010000 ≤ k.base ∧ k.base < 0x1020000 then some (20 + k.i)
  else if 0x1100000 ≤ k.base ∧ k.base < 0x1200000 then some 29
  else if 0x1200000 ≤ k.base ∧ k.base < 0x1300000 then some 31
  else if 0x1300000 ≤ k.base ∧ k.base < 0x1400000 then some 30
  else none

/-- The cause bits as the keeper finds them set in RST_CAUSE (R563). -/
def State.causeWord (s : State) : Nat :=
  ([F.RST_CAUSE_por, F.RST_CAUSE_trip, F.RST_CAUSE_wdt_w, F.RST_CAUSE_wdt_e, F.RST_CAUSE_hreq_w, F.RST_CAUSE_hreq_e, F.RST_CAUSE_fence_w,
    F.RST_CAUSE_fence_e, F.RST_CAUSE_flr, F.RST_CAUSE_domain, F.RST_CAUSE_block, F.RST_CAUSE_idle_timeout, F.RST_CAUSE_clk_unstable, F.RST_CAUSE_pin,
    F.RST_CAUSE_pwr_off] : List Fld).foldl (fun a f => a + s.rd f * 2 ^ f.lo) 0

/-- An entry for each reset is written to the device ledger once the stallholder's keeper runs and is not in quiet (R564): cause bits,
reach, powered hours, PTP time, time base not LOCKED. -/
def State.causesDue (s : State) : State :=
  if (s.keeper s.holder).up && !s.quiet s.holder then
    (s.sys.causes.foldl (fun (s : State) c =>
      s.tick.ledgerAdd 4 0 [s.causeWord, c, s.rd F.AGE_HOURS_hours, ptpSeconds s.now, ptpNanos s.now, b2n s.ptpUnlocked]) s).updSys
      fun x => { x with causes := [] }
  else s

/-- A reset of some reach has ended: its entry is due. -/
def State.resetDone (s : State) (reach : Nat) : State := (s.updSys fun x => { x with causes := x.causes ++ [reach] }).causesDue

/-- The read-only fields of a domain return to their reset values. -/
def State.clearSts (s : State) (d : Nat) : State := { s with sts := s.sts.filter fun x => regDomain x.1 ≠ some d }

/-- A field of a set of outstanding commands ends. -/
def State.endCmds (s : State) (mine : Cmd → Bool) (status half : Nat) : State :=
  (s.host.cmds.filter fun c => c.stage != .ended && c.stage != .fenced && mine c).foldl (fun (s : State) c => s.complete c.id status 0 0 half) s

/-- A stream context that a sketch core codes for closes (R566). -/
def State.coreReset (s : State) (k status : Nat) : State :=
  let xs := (List.range 16).filter fun x => s.rd F.VCD_SC_STATUS_state x != 0 && (scCores (s.sc x).inForce x).contains k
  let t := s.endCmds (fun c => (c.opcode == 0x20 || c.opcode == 0x21 || c.opcode == 0x22) && xs.contains (c.b 16 % 16)) status (k / 4)
  (t.each xs State.scClosed).updVcd fun v => { v with cores := updAt v.cores k fun _ => none }

/-- A block goes into reset: what it holds ends with a status (R565, R566). A stack in fault stays so until its domain is reset (R271). -/
def State.blockStop (s : State) (b status : Nat) : State :=
  if 1 ≤ b ∧ b ≤ 0x10 then s.groupDown (b - 1)
  else if b = 0x30 ∨ b = 0x31 then s.packReset (b - 0x30)
  else if b = 0x32 ∨ b = 0x33 then s.updPack (b - 0x32) fun x => { x with decoded := none }
  else if 0x38 ≤ b ∧ b ≤ 0x3F then s.coreReset (b - 0x38) status
  else if b = 0x40 ∨ b = 0x41 then
    (s.endCmds (fun c => c.opcode == 0x28 && c.b 16 % 8 / 4 == b - 0x40) status (b - 0x40)).each
      ((List.range 8).filter fun d => d / 4 == b - 0x40) State.rcReset
  else if b = 0x48 ∨ b = 0x49 then
    s.portReset (b - 0x48) status
  else if b = 0x50 ∨ b = 0x51 then
    ((s.whenB (!s.stackFault (b - 0x50)) fun s => s.wr F.HBM_STACK_STATUS_state 0 (b - 0x50)).updHbm fun x => { x with stackSts := updAt x.stackSts (b - 0x50) fun _ => StackSt.init }).hbmDrop
      (b - 0x50)
  else if b = 0x60 then s.each ((List.range 32).filter fun c => s.on F.BARROW_CH_CTRL_enable c) fun s c => s.barrowHalt c status
  else if 0x70 ≤ b ∧ b ≤ 0x75 then
    let o := b - 0x70
    let t := (s.outp o).queue.foldl (fun (s : State) q => s.complete q.1 status) s
    ((t.outOff o).updOut o fun x => { OutSt.init with inForce := x.inForce }).wr F.RAS_OUT_STATUS_dsi_mode 0 o
  else if b = 0x78 ∨ b = 0x79 then
    let mine := s.net.frames.filter fun f => f.port == b - 0x78
    (mine.foldl (fun (s : State) f => s.complete f.cmd status 0 0 1) (s.updNet fun x => { x with frames := x.frames.filter fun f => f.port ≠ b - 0x78 })).wr
      F.NET_PORT_STATUS_link 0 (b - 0x78)
  else if b = 0x7A then ((s.ptpTo 0).setClock 0).updNet fun x => { x with armed := true, master := none, txts := [] }
  else if b = 0x7B then (List.range 8).foldl State.sndStop s
  else if 0x80 ≤ b ∧ b ≤ 0x85 then (s.updAport (b - 0x80) fun _ => AudPort.init).portShow (b - 0x80)
  else s

/-- A block is released and starts as its registers ask. -/
def State.blockStart (s : State) (b : Nat) : State :=
  if b = 0x48 ∨ b = 0x49 then s.portPower (b - 0x48)
  else if b = 0x50 ∨ b = 0x51 then s.whenB (!s.stackFault (b - 0x50)) fun s => s.wr F.HBM_STACK_STATUS_state 1 (b - 0x50)
  else if 0x70 ≤ b ∧ b ≤ 0x75 then
    let o := b - 0x70
    (if isDsi o then s.wr F.RAS_OUT_STATUS_dsi_mode 1 o else s).outOn o
  else if b = 0x7A then s.netRelease
  else if b = 0x7B then (List.range 8).foldl (fun (s : State) n =>
    if regOn (s.snd n).inForce F.NET_SND_CTRL_enable n && !s.on F.NET_SND_STATUS_shed n then s.wr F.NET_SND_STATUS_running 1 n else s) s
  else if 0x80 ≤ b ∧ b ≤ 0x85 then (if s.portOn (b - 0x80) then s.portTo (b - 0x80) 1 else s)
  else s

/-- A release takes effect on a block once clock-good is high (R568). The state machine of a link group does not wait for it: with its RX
domain released an enabled group goes from OFF to BC, whence comes the clock that its block waits for (R122). -/
def State.blockRelease (s : State) (b : Nat) : State :=
  let t0 := s.updSys fun x => { x with fault := x.fault.filter (· ≠ b), waiting := x.waiting.filter (· ≠ b) }
  let t := t0.whenB (decide (1 ≤ b ∧ b ≤ 0x10)) fun s => s.groupStart (b - 1)
  if clocked b && !s.sys.good.contains b then t.updSys fun x => { x with waiting := x.waiting ++ [b] } else t.blockStart b

/-- RST_BLOCK_STATUS follows the blocks in HELD_FAULT. -/
def State.blockStatus (s : State) : State := s.wr F.RST_BLOCK_STATUS_fault (b2n (!s.sys.fault.isEmpty))

/-- A domain goes into reset: its blocks take their reset state, and what they hold ends with a status. -/
def State.domainDown (s : State) (d status : Nat) : State :=
  if s.released d then
    let t := s.wr F.PWR_STATE_released (setBit (s.rd F.PWR_STATE_released) d false)
    let t1 :=
      if d = 20 ∨ d = 21 then t.vcdReset (d - 20) status
      else if d = 29 then t.rasReset status
      else if d = 30 then t.netReset status
      else if d = 31 then t.audReset
      else if 10 ≤ d ∧ d < 18 then t.brushesDown (halfOf d)
      else (domainBlocks d).foldl (fun (s : State) b => s.blockStop b status) t
    ((t1.clearSts d).updSys fun x => { x with waiting := x.waiting.filter fun b => blockDomain b ≠ some d,
                                              fault := x.fault.filter fun b => blockDomain b ≠ some d }).blockStatus
  else s

/-- The device reach is asserted. -/
def State.deviceHeld (s : State) : Bool := s.sys.por || s.sys.pin || s.sys.trip

/-- A source whose reach includes a domain is asserted (R560). -/
def State.domainHeld (s : State) (d : Nat) : Bool :=
  s.deviceHeld || !bitOf (s.rd F.PWR_ON_on) d || bitOf (s.rd F.RST_DOMAIN_hold) d
    || (!(s.sys.halves.getD (halfOf d) []).isEmpty && (halfDomains (halfOf d)).contains d)

/-- A domain is released unless a source holds it. -/
def State.domainUp (s : State) (d : Nat) : State :=
  if s.released d || s.domainHeld d then s
  else
    let t := s.wr F.PWR_STATE_released (setBit (s.rd F.PWR_STATE_released) d true)
    let t1 := if d = 31 then t.masterStart else if d = 29 ∨ d = 30 then t.shedMarks else t
    (domainBlocks d).foldl State.blockRelease t1

/-! ### The power-up order -/

/-- The next step after n with domains that pass a test, up to 19. -/
def nextStep (p : Nat → Bool) (n : Nat) : Option Nat := ((List.range 20).filter fun k => decide (n < k)).find? fun k => (stepDomains k).any p

/-- The domains a release sequence covers: all of a device's, or a half's. -/
def seqCovers (src d : Nat) : Bool := src == 0 || (halfDomains (src - 1)).contains d

/-- Step k of a release sequence (R551 to R554, R556, R661): its domains are released, and at step 2 the holder is read and a warm device's voltage measured. -/
def State.seqStep (s : State) (src k : Nat) : State :=
  let done := (nextStep (seqCovers src) k).isNone
  let t := (s.updSys fun x => { x with seqs := updAt x.seqs src fun _ => if done then none else some k }).wr F.PWR_SEQ_STATUS_step k
  let t1 := t.wr F.PWR_SEQ_STATUS_busy (b2n (t.sys.seqs.any Option.isSome))
  let t2 := if k = 2 then (t1.wr F.AUTH_STATUS_lead_sel (b2n Config.leadSel)).wr F.AUTH_STATUS_holder (b2n Config.leadSel) else t1
  let t3 := if k = 2 ∧ src = 0 ∧ s.sys.cold = false then
      (t2.wr F.AGE_VNOW_mv (min (Config.railMv t2.fresh 0) (Config.railMv t2.fresh 1))).tick
    else t2
  ((stepDomains k).filter (seqCovers src)).foldl State.domainUp t3

/-- RESET_SEQUENCE_STEP (R551 to R554, R556, R559, R561, R661): the count of a step runs out; at step 2 of a reset other
than power-on the rails' voltage is read back; src is 0 for the device sequence, 1 + h for a
half's, and 3 + d for the gap of a single domain. -/
def execResetSequenceStep (src : Nat) (s : State) : Out :=
  if s.deviceHeld then .next s
  else if 3 ≤ src then
    let d := src - 3
    .next (if s.sys.gaps.contains d then ((s.updSys fun x => { x with gaps := x.gaps.filter (· ≠ d) }).domainUp d).resetDone 3 else s)
  else match (s.sys.seqs.getD src none).bind (nextStep (seqCovers src)) with
    | none => .next s
    | some k => .next (s.seqStep src k)

/-- The device release sequence starts from step 1 once no source of the device reach is asserted (R552, R656). -/
def State.deviceRelease (s : State) : State :=
  if s.deviceHeld then s
  else ((s.updSys fun x => { x with seqs := updAt x.seqs 0 fun _ => some 1 }).wr F.PWR_SEQ_STATUS_step 1).wr F.PWR_SEQ_STATUS_busy 1

/-! ### The device reach -/

/-- Every domain and the bell arbiter take their reset state (R555): registers return to their reset values, RST_CAUSE and the lasting
contents of NOR and fuses apart; what the device ledger keeps is read back at the boot (R636). Magazines stay in their bays, and HBM
contents are left unless power was lost. -/
def State.deviceReset (s : State) (por : Bool) : State :=
  let r := State.reset
  let causes := s.sts.filter fun x => x.1.base == F.RST_CAUSE_por.base
  let keep : State :=
   { r with
    sts := (if por then [] else causes)
    mem := (if por then [] else s.mem)
    out := s.out
    fresh := s.fresh
    pending := s.pending
    stor := { r.stor with ports := s.stor.ports.map fun (p : PortSt) => { PortSt.init with mag := p.mag } }
    sec := { s.sec with nonce := none, roleKeys := [], fails := [0, 0, 0] }
    sys := { r.sys with
      por := s.sys.por
      pin := s.sys.pin
      trip := s.sys.trip
      halves := s.sys.halves
      good := s.sys.good
      cold := por
      causes := s.sys.causes ++ [0] } }
  let fuses := (keep.wr F.FW_STATUS_fuse_sv s.sec.fuseSv).wr F.FW_STATUS_revoked s.sec.revoked
  fuses.each [0, 1] fun (t : State) (p : Nat) => if ((t.stor.ports.getD p PortSt.init).mag).isSome then t.wr F.MAG_PORT_STATUS_pres 1 p else t

/-- POWER_ON_RESET (R555, R563): every cause bit is cleared, then por is set. -/
def execPowerOnReset (s : State) : Out :=
  .next (((s.updSys fun x => { x with por := true }).deviceReset true).wr F.RST_CAUSE_por 1)

/-- RAIL_OUT_OF_RANGE (R658): the power-on reset asserts again. -/
def execRailOutOfRange (s : State) : Out :=
  .next (((s.updSys fun x => { x with por := true }).deviceReset true).wr F.RST_CAUSE_por 1)

/-- RAILS_IN_RANGE (R656): the power-on reset ends and step 1 is reached. -/
def execRailsInRange (s : State) : Out :=
  if s.sys.por then .next (s.updSys fun x => { x with por := false }).deviceRelease else .next s

/-- RESET_N_ASSERT (R555, R563). -/
def execResetNAssert (s : State) : Out :=
  .next ((((s.updSys fun x => { x with pin := true }).deviceReset false).wr F.RST_CAUSE_pin 1).wr F.RST_FLAGS_pin 1)

/-- RESET_N_RELEASE (R561). -/
def execResetNRelease (s : State) : Out :=
  if s.sys.pin then .next (s.updSys fun x => { x with pin := false }).deviceRelease else .next s

/-- A thermal trip asserts (R555, R592). -/
def State.thermalTrip (s : State) : State :=
  ((s.updSys fun x => { x with trip := true }).deviceReset false).wr F.RST_CAUSE_trip 1

/-- DIODE_COMPARATOR_READ (R592): trip comparators at or above 110 °C and release comparators below 95 °C, by diode. -/
def execDiodeComparatorRead (hot cool : List Bool) (s : State) : Out :=
  let n := (List.range 16).map fun d => if hot.getD d false && !s.on F.THM_DIODE_masked d then s.sys.hot.getD d 0 + 1 else 0
  let t := s.updSys fun x => { x with hot := n, cool := (List.range 16).all fun d => cool.getD d false }
  .next (if n.any (fun k => decide (2 ≤ k)) && !s.deviceHeld then t.thermalTrip else t)

/-- THERMAL_TRIP_RELEASE (R592): every release comparator has read below 95 °C for 1 s. -/
def execThermalTripRelease (s : State) : Out :=
  if s.sys.trip && s.sys.cool then .next (s.updSys fun x => { x with trip := false }).deviceRelease else .next s

/-! ### Half resets -/

/-- The activation in hand ends without effect (R633). -/
def State.dropActivation (s : State) (status : Nat) : State := s.endCmds (fun c => c.opcode == 0x45 && c.stage == .running && !c.past) status 0

/-- Calibrations of a half end (R189, R190). -/
def State.calAborted (s : State) (h : Nat) : State :=
  let c := s.condHalf.getD h HalfCal.init
  let t := s.each (c.runs.flatMap CalRun.cmds) fun s id => s.complete id St.CAL_ABORTED 0 0 h
  ({ t with condHalf := updAt t.condHalf h fun c => { c with runs := [] } }).halfRunning 6 h

/-- What a half's intake chains, its ready bands, its brushes and its tiles on their way to the canvas hold is lost with it (R555). -/
def State.intakeReset (s : State) (h : Nat) : State :=
  let t := s.bandsLost (s.brush.ready.getD h [] ++ s.brush.taken.filter fun b => b.2.2 % 2 == h)
  { t with
    link := { t.link with intake := t.link.intake.set h 0,
                          rows := t.link.rows.map fun r => if homeHalf r.ob r.index = h then { r with held := 0 } else r }
    brush := { t.brush with ready := t.brush.ready.set h [], prev := t.brush.prev.set h none,
                            fused := t.brush.fused.filter fun x => t.tileHalf x.easel x.tile != h } }

/-- A half reset asserts from a source, a bit number of RST_CAUSE (R18, R19, R434): open and held frames of every easel are scraped
first, then the half's domains and its keeper are reset. -/
def State.halfAssert (s : State) (h cause : Nat) : State :=
  let t := s.updSys fun x => { x with halves := updAt x.halves h fun l => l ++ [cause] }
  let flag := [F.RST_CAUSE_wdt_w, F.RST_CAUSE_wdt_e, F.RST_CAUSE_hreq_w, F.RST_CAUSE_hreq_e].getD (cause - 2) F.RST_CAUSE_wdt_w
  let t1 := (t.wr flag 1).bump F.RST_CNT_half
  let t2 := t1.each (List.range 4) fun s e => (s.scrapeAll e).closeIfDone e
  let t3 := ((t2.dropActivation St.HALF_RESET).calAborted h).intakeReset h
  let t4 := t3.each (halfDomains h) fun s d => s.domainDown d St.HALF_RESET
  (t4.updKeeper h fun k => { k with up := false, beaten := false, notice := false }).updSys fun x =>
    { x with seqs := updAt x.seqs (h + 1) fun _ => none }

/-- KEEPER_WATCHDOG_EXPIRE (R571): it runs from the keeper's first heartbeat. -/
def execKeeperWatchdogExpire (h : Nat) (s : State) : Out :=
  if (s.keeper h).up && (s.keeper h).beaten && !s.deviceHeld then .next (s.halfAssert h (2 + h)) else .next s

/-- HALF_RESET_REQUEST (R558): a write of RST_HALF_REQ is latched, or refused. -/
def execHalfResetRequest (v : Nat) (s : State) : Out :=
  let k := s.keeper s.holder
  if v % 4 = 0 then .next s
  else if s.anyQuiet || !k.up || !k.beaten then .next (s.flagCount F.RST_FLAGS_cfg_refused F.RST_CNT_cfg_refused)
  else .next (s.updSys fun x => { x with reqs := x.reqs ++ ([0, 1].filter fun h => bitOf v h) })

/-- HALF_RESET_ASSERT (R18, R558, R578): the stallholder's keeper carries out a latched request. -/
def execHalfResetAssert (h : Nat) (s : State) : Out :=
  let k := s.keeper s.holder
  if s.sys.reqs.contains h && k.up && k.beaten && !s.quiet s.holder && !s.deviceHeld then
    .next ((s.updSys fun x => { x with reqs := x.reqs.filter (· ≠ h) }).halfAssert h (4 + h))
  else .next s

/-- HALF_RESET_RELEASE (R555, R556): after 1,024 cycles the release sequence of the half starts. -/
def execHalfResetRelease (h : Nat) (s : State) : Out :=
  match s.sys.halves.getD h [] with
  | [] => .next s
  | l =>
    let t := s.updSys fun x => { x with halves := updAt x.halves h fun _ => [] }
    if s.deviceHeld then .next t
    else
      let t1 := (t.updSys fun x => { x with seqs := updAt x.seqs (h + 1) fun _ => some 2, causes := x.causes ++ [1] }).wr
        F.PWR_SEQ_STATUS_busy 1
      .next (t1.raise h Ev.RST_HALF (le 1 h ++ le 1 (listMin l))).causesDue

/-! ### Domain and block resets -/

/-- Bits of PWR_ON that are read-only (R549). -/
def fixedDomains : List Nat := [0, 1, 26, 27, 28]

/-- RX, PX, LZ, HBM and MAG domains (R550). -/
def busyDomain (d : Nat) : Bool := (decide (2 ≤ d) && decide (d < 20)) || (decide (22 ≤ d) && decide (d < 26))

/-- An easel is open or closing, or a take is open. -/
def State.capturing (s : State) : Bool := (List.range 4).any s.easelRuns || s.anyTakeOpen

/-- The status with which the work of a domain that PWR_ON takes off ends (R550, R559): VC, DISP, NET and AUD act as under a half reset. -/
def downStatus (d : Nat) : Nat := if d = 20 ∨ d = 21 ∨ 29 ≤ d then St.HALF_RESET else St.DOMAIN_RESET

/-- The domains that a write of PWR_ON takes off (R550). -/
def State.pwrGone (s : State) (v : Nat) : List Nat :=
  let new := fixedDomains.foldl (fun a d => setBit a d true) (v % 4294967296)
  (List.range 32).filter fun d => bitOf (s.rd F.PWR_ON_on) d && !bitOf new d

/-- A write of PWR_ON is taken (R549 to R551): the domains taken off go down with their switches, those put on come up after their gap. -/
def State.pwrOn (s : State) (v : Nat) : State :=
  let new := fixedDomains.foldl (fun a d => setBit a d true) (v % 4294967296)
  let off := s.pwrGone v
  let on := (List.range 32).filter fun d => !bitOf (s.rd F.PWR_ON_on) d && bitOf new d
  let t := (s.wr F.PWR_ON_on new).whenB (!off.isEmpty) fun s => s.wr F.RST_CAUSE_pwr_off 1
  (off.foldl (fun (s : State) d => s.domainDown d (downStatus d)) t).updSys fun x => { x with
    opening := x.opening.filter (fun d => !on.contains d) ++ off, openSw := x.openSw.filter fun d => !on.contains d,
    gaps := (x.gaps.filter fun d => !off.contains d) ++ on }

/-- PWR_ON_WRITE (R549 to R551): read-only bits stay 1. -/
def execPwrOnWrite (v : Nat) (s : State) : Out :=
  .next (if (s.pwrGone v).any busyDomain && s.capturing then s.flagCount F.RST_FLAGS_cfg_refused F.RST_CNT_cfg_refused else s.pwrOn v)

/-- PWR_SWITCH_OPEN (R551). -/
def execPwrSwitchOpen (d : Nat) (s : State) : Out :=
  if s.sys.opening.contains d then
    .next (s.updSys fun x => { x with opening := x.opening.filter (· ≠ d), openSw := x.openSw ++ [d] })
  else .next s

/-- The domains that a write of RST_DOMAIN newly holds (R559). -/
def State.heldNow (s : State) (v : Nat) : List Nat := (List.range 32).filter fun d => bitOf v d && !bitOf (s.rd F.RST_DOMAIN_hold) d

/-- A write of RST_DOMAIN is taken (R559): the domains newly held go down, those let go come up after their gap. -/
def State.domainHold (s : State) (v : Nat) : State :=
  let set := s.heldNow v
  let clear := (List.range 32).filter fun d => !bitOf v d && bitOf (s.rd F.RST_DOMAIN_hold) d
  let t := (s.wr F.RST_DOMAIN_hold v).whenB (!set.isEmpty) fun s => s.wr F.RST_CAUSE_domain 1
  (set.foldl (fun (s : State) d => s.domainDown d St.DOMAIN_RESET) t).updSys fun x =>
    { x with gaps := (x.gaps.filter fun d => !set.contains d) ++ clear }

/-- RST_DOMAIN_WRITE (R559). -/
def execRstDomainWrite (v : Nat) (s : State) : Out :=
  .next (if (List.range 32).any (fun d => bitOf v d && fixedDomains.contains d) || ((s.heldNow v).any busyDomain && s.capturing) then
    s.flagCount F.RST_FLAGS_cfg_refused F.RST_CNT_cfg_refused
  else s.domainHold v)

/-- BLOCK_RESET_REQUEST (R562, R565, R567): v is the word written to RST_BLOCK_CTRL with go. -/
def execBlockResetRequest (v : Nat) (s : State) : Out :=
  let b := v % 256
  match blockDomain b with
  | none => .next (s.flagCount F.RST_FLAGS_cfg_refused F.RST_CNT_cfg_refused)
  | some d =>
    if s.sys.block.isSome then .next (s.flagCount F.RST_FLAGS_cfg_refused F.RST_CNT_cfg_refused)
    else
      let t := s.wr F.RST_BLOCK_CTRL_block b
      if s.released d then
        .next (((t.wr F.RST_BLOCK_STATUS_busy 1).wr F.RST_CAUSE_block 1).updSys fun x => { x with block := some (b, false) })
      else .next t

/-- The block in hand goes into reset. -/
def State.blockReset (s : State) (b : Nat) : State := (s.blockStop b St.BLOCK_RESET).updSys fun x => { x with block := some (b, true) }

/-- BLOCK_IDLE_REPORT (R565). -/
def execBlockIdleReport (s : State) : Out :=
  match s.sys.block with
  | some (b, false) => .next (s.blockReset b)
  | _ => .next s

/-- BLOCK_IDLE_TIMEOUT (R566). -/
def execBlockIdleTimeout (s : State) : Out :=
  match s.sys.block with
  | some (b, false) =>
    let h := match blockDomain b with | some d => halfOf d | none => 0
    .next ((((s.wr F.RST_CAUSE_idle_timeout 1).flagCount F.RST_FLAGS_idle_timeout F.RST_CNT_idle_timeout).raise h Ev.RST_IDLE_TIMEOUT (le 1 b)).blockReset b)
  | _ => .next s

/-- BLOCK_RESET_RELEASE (R565, R568). -/
def execBlockResetRelease (s : State) : Out :=
  match s.sys.block with
  | some (b, true) =>
    let t := (s.updSys fun x => { x with block := none }).wr F.RST_BLOCK_STATUS_busy 0
    let up := match blockDomain b with | some d => t.released d | none => false
    .next ((if up then (t.blockRelease b).blockStatus else t).resetDone 4)
  | _ => .next s

/-- A forced release of block b of domain d, which waits for clock-good (R569): it starts with clock-good, and faults without. -/
def State.forceRelease (s : State) (b d : Nat) : State :=
  let t1 := s.updSys fun x => { x with waiting := x.waiting.filter (· ≠ b) }
  if s.sys.good.contains b then t1.blockStart b
  else
    ((((t1.updSys fun x => { x with fault := x.fault ++ [b] }).blockStatus.wr F.RST_BLOCK_STATUS_held_fault b).wr
      F.RST_CAUSE_clk_unstable 1).flagCount F.RST_FLAGS_clk_unstable F.RST_CNT_clk_unstable).raise (halfOf d) Ev.RST_CLK_UNSTABLE (le 1 b)

/-- BLOCK_FORCE_RELEASE (R569): v is the word written to RST_BLOCK_CTRL with force. -/
def execBlockForceRelease (v : Nat) (s : State) : Out :=
  let b := v % 256
  match blockDomain b with
  | none => .next (s.flagCount F.RST_FLAGS_cfg_refused F.RST_CNT_cfg_refused)
  | some d =>
    let t := s.wr F.RST_BLOCK_CTRL_block b
    .next (if s.sys.waiting.contains b && s.released d then t.forceRelease b d else t)

/-- CLOCK_GOOD_RISE (R568). -/
def execClockGoodRise (b : Nat) (s : State) : Out :=
  let t := s.updSys fun x => { x with good := b :: x.good.filter (· ≠ b) }
  .next (if s.sys.waiting.contains b then t.blockRelease b else t)

/-- CLOCK_LOCK_LOSS (R568). -/
def execClockLockLoss (b : Nat) (s : State) : Out := .next (s.updSys fun x => { x with good := x.good.filter (· ≠ b) })

/-! ### The bell -/

/-- The quiet bit of a half. -/
def quietFld (h : Nat) : Fld := if h = 0 then F.AUTH_STATUS_quiet_w else F.AUTH_STATUS_quiet_e

/-- The heartbeat bits of AUTH_STATUS for what half h receives: on the bridge, on the sideband. -/
def beatFld (h path : Nat) : Fld :=
  if h = 0 then (if path = 0 then F.AUTH_STATUS_hb_brg_e else F.AUTH_STATUS_hb_side_e)
  else (if path = 0 then F.AUTH_STATUS_hb_brg_w else F.AUTH_STATUS_hb_side_w)

/-- A half enters quiet (R572): EV_AUTH_CONFLICT, and a draining activation ends (R633). -/
def State.enterQuiet (s : State) (h : Nat) : State :=
  if s.quiet h then s
  else
    let t := (s.wr (quietFld h) 1).updKeeper h fun k => { k with heard := false, run := 0 }
    ((t.flagCount F.AUTH_FLAGS_conflict F.AUTH_CNT_conflict).raise h Ev.AUTH_CONFLICT (le 1 h)).dropActivation St.AUTH_UNSETTLED

/-- A half leaves quiet (R575). -/
def State.leaveQuiet (s : State) (h : Nat) : State :=
  if s.quiet h then ((s.wr (quietFld h) 0).raise h Ev.AUTH_SETTLED (le 1 h)).causesDue.sampleSettle else s

/-- The bell moves to a half. -/
def State.bellTo (s : State) (h : Nat) : State :=
  ((s.wr F.AUTH_STATUS_holder h).flagCount F.AUTH_FLAGS_transfer F.AUTH_CNT_transfer).raise h Ev.AUTH_TRANSFER (le 1 h)

/-- The oldest class 0 message on its way to a half (R21). -/
def State.class0To (s : State) (h : Nat) : Option Class0 := s.sys.class0.find? fun m => m.half == h

/-- That message taken off the bridge. -/
def State.class0Take (s : State) (h : Nat) : State :=
  s.updSys fun x => { x with class0 := x.class0.eraseP fun m => m.half == h }

/-- KEEPER_HEARTBEAT_SEND (R571): on the bridge it queues in class 0 (R21). -/
def execKeeperHeartbeatSend (h : Nat) (s : State) : Out :=
  if (s.keeper h).up then
    let n := (s.rd F.AUTH_HB_COUNT_count h + 1) % 4294967296
    .next ((((s.wr F.AUTH_HB_COUNT_count n h).updKeeper h fun k => { k with beaten := true }).updSys fun x =>
      { x with class0 := x.class0 ++ [.beat (1 - h) n] }).emit (.heartbeat h n))
  else .next s

/-- The heartbeat that comes to half h on a path: on the bridge the oldest class 0 message if it is one, on the sideband the latest sent. -/
def State.beatTo (s : State) (h path : Nat) : Option Nat :=
  if path = 0 then match s.class0To h with | some (.beat _ n) => some n | _ => none
  else some (s.rd F.AUTH_HB_COUNT_count (1 - h))

/-- Heartbeats of the other half in a row at half h with the one it receives, of count c, and the latest count heard (R571, R575): one that
the other path has brought before counts once. -/
def State.beatRun (s : State) (h c : Nat) : Nat × Nat :=
  let k := s.keeper h
  if k.run = 0 then (1, c)
  else if c = (k.seen + 1) % 4294967296 then (k.run + 1, c)
  else if (k.seen + 4294967296 - c) % 4294967296 < 2147483648 then (k.run, k.seen)
  else (1, c)

/-- A keeper takes a heartbeat with this count (R575); one in quiet that has heard three in a row of the holder leaves it. -/
def State.beatTaken (s : State) (h path c : Nat) : State :=
  let n := s.beatRun h c
  let t := (s.wr (beatFld h path) 1).updKeeper h fun k => { k with notice := false, heard := true, run := n.1, seen := n.2 }
  if s.quiet h && decide (3 ≤ n.1) && s.holder != h then t.leaveQuiet h else t

/-- KEEPER_HEARTBEAT_RECEIVE (R21, R575): half h receives a heartbeat of the other half on the bridge (0) or the sideband (1); a keeper that
does not run hears nothing. -/
def execKeeperHeartbeatReceive (h path : Nat) (s : State) : Out :=
  match s.beatTo h path with
  | none => .next s
  | some c =>
    let t := s.whenB (path == 0) fun s => s.class0Take h
    .next (if (s.keeper h).up then t.beatTaken h path c else t)

/-- A keeper that no longer hears the holder's fences it, takes the bell and goes on as the holder (R573, R575). -/
def State.fencePartner (s : State) (h : Nat) : State :=
  let o := 1 - h
  let t := (s.updKeeper o fun k => { k with up := false, beaten := false, held := true, fenced := true, notice := false }).wr
    (if o = 0 then F.RST_CAUSE_fence_w else F.RST_CAUSE_fence_e) 1
  (((t.bellTo h).updKeeper h fun k => { k with notice := false }).leaveQuiet h).causesDue

/-- HEARTBEAT_ABSENCE_TIMEOUT (R573, R575): half h fences the stallholder's keeper and takes the bell, unless it is in quiet and has
heard nothing since. -/
def execHeartbeatAbsenceTimeout (h : Nat) (s : State) : Out :=
  let t := ((s.wr (beatFld h 0) 0).wr (beatFld h 1) 0).updKeeper h fun k => { k with run := 0 }
  .next (if !(s.keeper h).up || s.holder == h || (s.quiet h && !(s.keeper h).heard) then t else t.fencePartner h)

/-- FENCE_RESET_RELEASE (R555): the fenced keeper is released. -/
def execFenceResetRelease (h : Nat) (s : State) : Out :=
  if (s.keeper h).held then .next ((s.updKeeper h fun k => { k with held := false }).resetDone 4) else .next s

/-- A keeper may start (R557, R572): its reset released, no half reset under way, the firmware running and the keeper not up. -/
def State.keeperMay (s : State) (h : Nat) : Bool :=
  !(s.keeper h).held && (s.sys.halves.getD h []).isEmpty && s.released h && !(s.keeper h).up && s.rd F.FW_STATUS_state != 0

/-- A keeper starts (R557, R572): the holder's leaves quiet, a fenced one enters it, another goes on as its half stands. -/
def State.keeperUp (s : State) (h : Nat) : State :=
  let t := s.updKeeper h fun k => { KeeperSt.init with up := true, heard := k.heard && s.quiet h }
  if s.holder = h then (t.leaveQuiet h).causesDue
  else if (s.keeper h).fenced then t.enterQuiet h
  else if s.quiet h then (t.wr (quietFld h) 0).causesDue.sampleSettle else t

/-- KEEPER_START (R557, R572): with its code loaded the keeper asks the arbiter; a half that lost the bell to a fence enters quiet. -/
def execKeeperStart (h : Nat) (s : State) : Out := .next (if s.keeperMay h then s.keeperUp h else s)

/-- BELL_CONFIRM (R572): it fails only when the other half holds the bell. -/
def execBellConfirm (h : Nat) (s : State) : Out := .next (if s.holder = h ∨ (s.keeper h).up = false then s else s.enterQuiet h)

/-- BELL_HANDOVER (R577). -/
def execBellHandover (s : State) : Out :=
  if s.anyTakeOpen || [0, 1].any (fun p => s.portState p == 5) || s.anyQuiet then
    .next (s.flagCount F.AUTH_FLAGS_cfg_refused F.AUTH_CNT_cfg_refused)
  else .next ((s.bellTo (1 - s.holder)).causesDue)

end Sys2Proof.Machine
end

