-- ==== Sys2Proof/Machine/Thermal.lean ====
section
/-! DEFINITION. The thermal sample, the stages and the shedding of spec/18. Temperatures are in 0.1 °C. -/
namespace Sys2Proof.Machine

/-! ### Shedding -/

/-- Live NAL units of the contexts of a half stop at shed level 4 (R593): none waits for a sender any more. -/
def State.liveStop (s : State) (h : Nat) : State :=
  let xs := (List.range 16).filter fun x => s.scHalf x == h
  let t := s.each xs fun s x => (s.updSc x fun c => { c with nals := c.nals.map fun u => { u with live := [] } }).scRelease x
  t.each ((List.range 8).filter fun n => regOf (s.snd n).inForce F.NET_SND_CTRL_kind n == 1 && xs.contains (regOf (s.snd n).inForce F.NET_SND_CTRL_source n))
    fun s n => s.updSnd n fun d => { d with sent := 0 }

/-- Half h carries out shed level n (R593, R595, R596): each level it had not reached adds its reduction; at 0 the items return in the
reverse order. Levels 4 and 5 bar pictures by themselves, and level 4 stops live NAL units. -/
def State.shedTo (s : State) (h n : Nat) : State :=
  let old := s.sys.shed.getD h 0
  let t := s.updSys fun x => { x with shed := updAt x.shed h fun _ => n }
  if n = 0 then
    if h = 0 then t.each ((if 3 ≤ old then s.shedOuts 3 else []) ++ (if 2 ≤ old then s.shedOuts 2 else [])) fun s o => s.outShed o false
    else t.each (if 1 ≤ old then (List.range 8).filter fun k => s.on F.NET_SND_STATUS_shed k else []) fun s k => s.sndShed k false
  else
    t.each ((List.range 7).filter fun k => decide (old < k) && decide (k ≤ n)) fun s k =>
      if k = 4 then s.liveStop h
      else if h = 0 then s.each (s.shedOuts k) fun s o => s.outShed o true
      else if k = 1 then s.each s.liveOnes fun s k => s.sndShed k true
      else s

/-- The bell holder sets the shed level (R593, R594, R596): its half carries it out, the other half is told, and at level 6 the takes
RECORDING end at their last accepted frame. -/
def State.shedLevel (s : State) (n : Nat) : State :=
  let h := s.holder
  let t := ((s.wr F.THM_STATUS_level n).shedTo h n).updSys fun x => { x with class0 := x.class0 ++ [.shed (1 - h) n] }
  if n = 6 then
    t.each ((List.range 4).filter fun e => s.rd F.TAKE_STATUS_state e == 2) fun s e => s.endTake e St.THERMAL_SHED 1 fun _ => true
  else t

/-- SHED_COMMAND_RECEIVE (R21, R596): half h carries out the shed command that is the oldest class 0 message on its way to it. -/
def execShedCommandReceive (h : Nat) (s : State) : Out :=
  match s.class0To h with
  | some (.shed _ n) => .next ((s.class0Take h).shedTo h n)
  | _ => .next s

/-! ### Stages -/

/-- T_j as published. -/
def State.tj (s : State) : Int := toSigned 16 (s.rd F.THM_STATUS_tj)

/-- ENFORCE is entered: shed level 1 (R591). -/
def State.enforce (s : State) : State :=
  ((((s.wr F.THM_STATUS_stage 3).flagCount F.THM_FLAGS_enforce F.THM_CNT_enforce).shedLevel 1)).raise s.holder Ev.THM_ENFORCE (le 1 1)

/-- The rows of R591 that a sample decides, in table order: the stage they leave, their condition by T_j and the rise, what they do. -/
def stageRows (tj : Int) (steep : Bool) : List (Nat × Bool × (State → State)) :=
  [(0, decide (950 ≤ tj), fun s => ((s.wr F.THM_STATUS_stage 1).wr F.THM_FLAGS_warn 1).raise s.holder Ev.THM_WARN []),
   (1, decide (tj < 920), fun s => s.wr F.THM_STATUS_stage 0),
   (1, decide (1000 ≤ tj) || (steep && decide (950 ≤ tj)), fun s =>
      ((s.wr F.THM_STATUS_stage 2).flagCount F.THM_FLAGS_request F.THM_CNT_request).raise s.holder Ev.THM_REQUEST (le 2 (ofSigned 16 tj))),
   (2, decide (tj < 970), fun s => (s.wr F.THM_STATUS_stage 1).raise s.holder Ev.THM_CLEAR []),
   (2, decide (1030 ≤ tj), State.enforce)]

/-- Row after row from the stage in force, each at most once (R591): used are the rows taken, and the number bounds them. -/
def State.stages (s : State) (tj : Int) (steep : Bool) (used : List Nat) : Nat → State
  | 0 => s
  | n + 1 =>
    match (withIndex (stageRows tj steep)).find? fun r => r.2.1 == s.rd F.THM_STATUS_stage && r.2.2.1 && !used.contains r.1 with
    | none => s
    | some r => (r.2.2.2 s).stages tj steep (r.1 :: used) n

/-- THERMAL_GRACE_EXPIRE (R591): at 100 °C or above ENFORCE is entered; below it a new grace time starts. -/
def execThermalGraceExpire (s : State) : Out :=
  .next (if s.rd F.THM_STATUS_stage = 2 ∧ 1000 ≤ s.tj then s.enforce else s)

/-- THERMAL_SHED_STEP_EXPIRE (R591): the next shed level, up to 6. -/
def execThermalShedStepExpire (s : State) : Out :=
  let n := s.rd F.THM_STATUS_level + 1
  .next (if s.rd F.THM_STATUS_stage = 3 ∧ 1000 ≤ s.tj ∧ n ≤ 6 then (s.shedLevel n).raise s.holder Ev.THM_ENFORCE (le 1 n) else s)

/-- THERMAL_RELEASE_EXPIRE (R591, R595): NORMAL again, and the shed items return. -/
def execThermalReleaseExpire (s : State) : Out :=
  .next (if s.rd F.THM_STATUS_stage = 3 ∧ s.tj < 950 then
    ((s.wr F.THM_STATUS_stage 0).shedLevel 0).raise s.holder Ev.THM_CLEAR []
  else s)

/-! ### The sample -/

/-- The node of a diode (R585). -/
def diodeNode (d : Nat) : Nat := d / 8 * 32 + d % 8 * 4

/-- The neighbours of a diode (R585). -/
def diodeNear (d : Nat) : List Nat := [d / 8 * 8 + (d % 8 + 1) % 8, d / 8 * 8 + (d % 8 + 7) % 8]

/-- What the model's nodes of a half are moved by (R586): the mean difference to its valid diodes, rounded as the keeper rounds. -/
def State.modelShift (s : State) (nodes diodes : List Int) (h : Nat) : Int :=
  match ((List.range 8).map fun i => 8 * h + i).filter fun d => !s.on F.THM_DIODE_fault d with
  | [] => 0
  | ds => openRound 13 (sumInt (ds.map fun d => diodes.getD d 0 - nodes.getD (diodeNode d) 0), ds.length)

/-- A diode is declared faulty (R587): its trip comparator is masked. -/
def State.diodeFault (s : State) (d : Nat) : State :=
  ((((s.wr F.THM_DIODE_fault 1 d).wr F.THM_DIODE_masked 1 d).flagCount F.THM_FLAGS_diode_fault F.THM_CNT_diode_fault).updSys fun x =>
    { x with hot := updAt x.hot d fun _ => 0 }).raise s.holder Ev.THM_DIODE_FAULT (le 1 d)

/-- The calibration kinds of an open easel whose trigger temperature, in 0.01 °C, has moved are due (R183); one that was skipped waits for the last open take to close (R184). -/
def State.calTriggers (s : State) (halves : List Int) (recent : List Bool) (e : Nat) : State :=
  if s.rd F.EASEL_STATUS_state e ≠ 1 then s
  else
    let sensor := s.on F.COND_CAL_CFG_src e && (s.condOf e).sensorAge.isSome && recent.getD e false
    let t := if sensor then toSigned 16 (s.rd F.COND_SENSOR_TEMP_temp e) else halves.getD (groupHalf (listMin (s.easelGroups e))) 0
    let lim : Int := 10 * s.rd F.COND_CAL_CFG_threshold e
    (s.updCond e fun c => { c with trigger := some t }).each ((s.autoKinds e).filter fun k => !(s.condOf e).skipped.contains k) fun s k =>
      match (s.condOf e).temps.getD (k - 1) none with
      | some v => if lim < (t - v).natAbs then s.calDue e k else s
      | none => s

/-- A thermal sample is taken (R586 to R592, R183, R268, R662): the diodes are judged against the model, the readings and Tj shown, the trip taken, and
otherwise the rise, the stages, the bands of the stacks and the calibration triggers follow. -/
def State.thermalRead (s : State) (nodes diodes : List Int) (past : Option Int) (stackTemps halves : List Int) (recent : List Bool) (late : Bool) :
    State :=
  let model := (List.range 64).map fun k => nodes.getD k 0 + s.modelShift nodes diodes (k / 32)
  let at' := fun d => model.getD (diodeNode d) 0
  let stood := fun d => if s.on F.THM_DIODE_fault d then at' d else diodes.getD d 0
  let far := fun d => !s.on F.THM_DIODE_fault d && (at' d :: (diodeNear d).map stood).all fun v => decide (40 < (diodes.getD d 0 - v).natAbs)
  let odd := (List.range 16).map fun d => if far d then s.sys.odd.getD d 0 + 1 else 0
  let s1 := (s.updSys fun x => { x with odd := odd }).each ((List.range 16).filter fun d => decide (3 ≤ odd.getD d 0)) State.diodeFault
  let shown := fun d => if s1.on F.THM_DIODE_fault d then at' d else diodes.getD d 0
  let all := model ++ (List.range 16).map shown
  let tj := all.foldl max (all.headD 0)
  let s2 := (s1.each (List.range 16) fun s d => s.wr F.THM_DIODE_reading (ofSigned 16 (shown d)) d).wr F.THM_STATUS_tj (ofSigned 16 tj)
  let top := model.foldl max (model.headD 0)
  let s3 := (s2.wr F.THM_STATUS_fast (b2n (decide (890 ≤ tj)))).wr F.THM_HOT_node (((List.range 64).find? fun k => model.getD k 0 == top).getD 0)
  let s4 := if toSigned 16 (s.rd F.THM_HOT_tj_peak) < tj then s3.wr F.THM_HOT_tj_peak (ofSigned 16 tj) else s3
  if 1100 ≤ tj ∧ s.deviceHeld = false then s4.thermalTrip
  else
    let steep := match past with | some p => decide ((s.rd F.THM_CFG_rise : Int) < tj - p) | none => false
    let s5 := if steep && !s.sys.rising then (s4.flagCount F.THM_FLAGS_rise F.THM_CNT_rise).raise s.holder Ev.THM_RISE [] else s4
    let s6 := (s5.updSys fun x => { x with rising := steep }).stages tj steep [] 5
    let s7 := s6.each [0, 1] fun s k => s.bandReading k (stackTemps.getD k 0)
    let s8 := s7.each (List.range 4) fun s e => s.calTriggers halves recent e
    match s8.sys.asked with | some mv => if late then s8.emit (.avs mv) else s8 | none => s8

/-- THERMAL_SAMPLE (R586 to R592, R183, R268, R662). nodes are the 64 model values before the correction of R586, diodes the 16 readings,
past T_j of 1 s ago where there is one; stackTemps the stack temperatures; halves the model's estimates for West and East in 0.01 °C; recent:
COND_SENSOR_TEMP of an easel was written within the last 10 s; late: a core voltage written has stayed unreported for 1 ms. -/
def execThermalSample (nodes diodes : List Int) (past : Option Int) (stackTemps halves : List Int) (recent : List Bool) (late : Bool) (s : State) : Out :=
  .next (if (s.keeper s.holder).up then s.thermalRead nodes diodes past stackTemps halves recent late else s)

end Sys2Proof.Machine
end

