-- ==== Sys2Proof/Machine/Session.lean ====
section
/-! DEFINITION. Sessions, lockout, keys and the random source (spec/19). Roles are 1 Operator, 2 Custodian, 3 Service. -/
namespace Sys2Proof.Machine

def State.updSec (s : State) (f : SecSt → SecSt) : State := { s with sec := f s.sec }

/-! ### Keys -/

/-- A role key the device ledger holds (R617). -/
def State.roleKey (s : State) (role : Nat) : Option (List Byte) := (s.sec.roleKeys.find? fun k => k.1 == role).map Prod.snd

/-- 32 zero bytes. -/
def zeroKey : List Byte := List.replicate 32 0

/-- The key a session of a role opens under (R613, R618): the zero key for a Custodian of an unprovisioned part. -/
def State.sessionKey (s : State) (role : Nat) : Option (List Byte) :=
  match s.roleKey role with
  | some k => some k
  | none => if role = 2 then some zeroKey else none

/-- SES_STATUS follows the keys stored. -/
def State.keyStatus (s : State) : State :=
  ((s.wr F.SES_STATUS_prod_keys s.prodKeys.length).wr F.SES_STATUS_role_keys
    (b2n (s.roleKey 1).isSome + 2 * b2n (s.roleKey 3).isSome)).wr F.SES_STATUS_provisioned (b2n (s.roleKey 2).isSome)

/-- A ring's session closes (R383, R615): a ring in RUN waits for the next session. -/
def State.closeSession (s : State) (r : Nat) : State :=
  let t := s.wr F.RING_SQ_STATUS_role 0 r
  if s.rd F.RING_SQ_STATUS_state r = 2 then t.wr F.RING_SQ_STATUS_state 1 r else t

/-! ### Opening -/

/-- The lock time of a role in s (R616): 0 below 5 failures. -/
def lockSeconds (f : Nat) : Nat := if f < 5 then 0 else min (2 ^ (f - 5)) 3600

/-- A role's failure count in the register, the state and the device ledger (R616). -/
def State.setFails (s : State) (role f : Nat) : State :=
  ((((s.updSec fun x => { x with fails := updAt x.fails (role - 1) fun _ => f }).wr F.SES_LOCK_f f (role - 1)).wr F.SES_LOCK_remain_s
    (lockSeconds f) (role - 1))).ledgerAdd 9 role [f]

/-- The fields of a SES_REQ write, and its refusal when it sets more than one act (R671). -/
def State.sesWrite (s : State) (v : Nat) (f : State → Nat → Nat → State) : State :=
  if 1 < b2n (bitOf v 8) + b2n (bitOf v 9) + b2n (bitOf v 10) then s.wr F.SES_FLAGS_cfg_refused 1
  else
    let ring := v % 16
    let role := bitsOf v 5 4
    f ((s.wr F.SES_REQ_ring ring).wr F.SES_REQ_role role) ring role

/-- Words of a byte list. -/
def wordAt (bs : List Byte) (w : Nat) : Nat := fieldAt bs (4 * w) 4

/-- A challenge for a ring and a role (R613, R614): refused with its result, or answered with a fresh nonce. -/
def State.challenge (s : State) (elapsed ring role : Nat) : State :=
  let t := s.updSec fun x => { x with nonce := none }
  let left := lockSeconds (s.sec.fails.getD (role - 1) 0) - elapsed
  if s.on F.RING_SQ_CFG_enable ring = false ∨ s.rd F.RING_SQ_STATUS_role ring ≠ 0 ∨ role = 0 then t.wr F.SES_RESULT_result 7
  else if (s.sessionKey role).isNone then t.wr F.SES_RESULT_result 5
  else if 0 < left then (t.wr F.SES_LOCK_remain_s left (role - 1)).wr F.SES_RESULT_result 4
  else if s.on F.SES_STATUS_rng_fail then t.wr F.SES_RESULT_result 8
  else
    let n := s.random 32
    let t1 := ((t.wr F.SES_LOCK_remain_s 0 (role - 1)).updSec fun x => { x with nonce := some (n, ring, role) }).tick
    (t1.each (List.range 8) fun s w => s.wr F.SES_NONCE_value (wordAt n w) w).wr F.SES_RESULT_result 1

/-- SES_CHALLENGE (R613, R614): v is the word written to SES_REQ; elapsed the whole seconds of powered time since the role's latest
failure, or since the release of AON. The previous nonce is discarded. -/
def execSesChallenge (v elapsed : Nat) (s : State) : Out := .next (s.sesWrite v fun s ring role => s.challenge elapsed ring role)

/-- The answer bytes in SES_MAC0 to SES_MAC7. -/
def State.macBytes (s : State) : List Byte := (List.range 8).flatMap fun w => le 4 (s.rd F.SES_MAC_value w)

/-- An answer to the challenge in force (R613, R614, R616): the session opens where the code verifies; a wrong one counts towards the lockout. -/
def State.answer (s : State) (late : Bool) (ring role : Nat) : State :=
  let t := s.updSec fun x => { x with nonce := none }
  match s.sec.nonce with
  | none => t.wr F.SES_RESULT_result 7
  | some (n, r, k) =>
    if ring ≠ r ∨ role ≠ k ∨ s.on F.RING_SQ_CFG_enable r = false ∨ s.rd F.RING_SQ_STATUS_role r ≠ 0 then t.wr F.SES_RESULT_result 7
    else if late then t.wr F.SES_RESULT_result 6
    else match s.sessionKey k with
      | none => t.wr F.SES_RESULT_result 5
      | some key =>
        let f := s.sec.fails.getD (k - 1) 0
        if hmac key (n ++ le 1 r ++ le 1 k) = s.macBytes then
          let t1 := (t.wr F.SES_RESULT_result 2).wr F.RING_SQ_STATUS_role k r
          let t2 := if s.rd F.RING_SQ_STATUS_state r = 1 then t1.wr F.RING_SQ_STATUS_state 2 r else t1
          if f = 0 then t2 else t2.setFails k 0
        else
          let t1 := ((t.wr F.SES_RESULT_result 3).setFails k (min 255 (f + 1))).flagCount F.SES_FLAGS_open_fail F.SES_CNT_open_fail
          let t2 := t1.raise 0 Ev.SES_OPEN_FAIL (le 1 r ++ le 1 k)
          if f + 1 = 5 then (t2.flagCount F.SES_FLAGS_lockout F.SES_CNT_lockout).raise 0 Ev.SES_LOCKOUT (le 1 k) else t2

/-- SES_ANSWER (R613, R614, R616): late is an answer more than 10 s after its nonce. -/
def execSesAnswer (v : Nat) (late : Bool) (s : State) : Out := .next (s.sesWrite v fun s ring role => s.answer late ring role)

/-- SES_CLOSE (R615). -/
def execSesClose (v : Nat) (s : State) : Out := .next (s.sesWrite v fun s ring _ => s.closeSession ring)

/-- RNG_HEALTH_FAIL (R612): the random source stops until the next device reset. -/
def execRngHealthFail (s : State) : Out :=
  .next (if s.on F.SES_STATUS_rng_fail then s else (s.wr F.SES_STATUS_rng_fail 1).raise 0 Ev.SES_RNG_FAIL [])

/-! ### The key commands -/

/-- A key command runs only while authority is settled; otherwise it waits (R578, R621). -/
def State.keyCmd (s : State) (id opcode : Nat) (f : Cmd → State → State) : State :=
  if s.anyQuiet then s else s.startCmd id opcode f

/-- The fields that KEY_SET and KEY_ERASE share (R620). -/
def keyFields (c : Cmd) (roles : List Nat) : Bool :=
  (c.b 16 == 1 && roles.contains (c.b 17) && c.w 20 == 0 || c.b 16 == 2 && c.b 17 == 0 && c.w 20 != 0) && c.h 18 == 0

/-- A key as the device ledger keeps it: wrapped under the key-encryption key of the part (R617). -/
def storedKey (key : List Byte) : List Nat := (keyWrap Config.kek key).map BitVec.toNat

/-- A role key is replaced (R615): every session of the role but the issuing one closes. -/
def State.putRoleKey (s : State) (role ring : Nat) (key : List Byte) : State :=
  let had := (s.sessionKey role).isSome
  let t := ((s.updSec fun x => { x with roleKeys := (role, key) :: x.roleKeys.filter fun k => k.1 ≠ role }).ledgerAdd 5 role (storedKey key)).keyStatus
  if had then t.each ((List.range 16).filter fun r => s.rd F.RING_SQ_STATUS_role r == role && r != ring) State.closeSession else t

/-- KEY_SET (R617 to R620). -/
def execKeySet (id : Nat) (s : State) : Out :=
  .next (s.keyCmd id 0x40 fun c s =>
    if !keyFields c [1, 2, 3] then s.complete id St.SES_BAD_REQ
    else match keyUnwrap ((s.sessionKey 2).getD zeroKey) (bytesAt c.desc 24 40) with
      | none => s.complete id St.KEY_BAD
      | some key =>
        if c.b 16 = 1 then (s.putRoleKey (c.b 17) c.ring key).complete id St.OK
        else
          let others := s.prodKeys.filter fun k => k.1 ≠ c.w 20
          if 16 ≤ others.length then s.complete id St.KEY_FULL
          else ((({ s with prodKeys := others ++ [(c.w 20, key)] }).ledgerAdd 6 (c.w 20) (storedKey key)).keyStatus).complete id St.OK)

/-- KEY_ERASE of a role key or a production key (R619, R620): its answer says whether there was one. -/
def State.eraseKey (s : State) (c : Cmd) : State :=
  if !keyFields c [1, 3] || !zeroBytes c.desc 24 64 then s.complete c.id St.SES_BAD_REQ
  else if c.b 16 = 1 then
    if (s.roleKey (c.b 17)).isNone then s.complete c.id St.OK 0
    else
      (((s.updSec fun x => { x with roleKeys := x.roleKeys.filter fun k => k.1 ≠ c.b 17 }).ledgerAdd 5 (c.b 17) []).keyStatus).complete c.id St.OK 1
  else if s.prodKeys.any fun k => k.1 == c.w 20 then
    ((({ s with prodKeys := s.prodKeys.filter fun k => k.1 ≠ c.w 20 }).ledgerAdd 6 (c.w 20) []).keyStatus).complete c.id St.OK 1
  else s.complete c.id St.OK 0

/-- KEY_ERASE (R619, R620): spec0 is 1 for a key erased, 0 for one that was absent. -/
def execKeyErase (id : Nat) (s : State) : Out := .next (s.keyCmd id 0x41 fun c s => s.eraseKey c)

/-- KEY_LIST (R620). -/
def execKeyList (id : Nat) (s : State) : Out :=
  .next (s.startCmd id 0x42 fun c s =>
    if c.d 24 % 64 ≠ 0 ∨ zeroBytes c.desc 16 24 = false ∨ zeroBytes c.desc 32 64 = false then s.complete id St.SES_BAD_REQ
    else
      let entries := s.prodKeys.flatMap fun k => le 4 k.1 ++ le 4 1
      (s.emit (.hostWrite (c.d 24) (padTo 128 entries))).complete id St.OK s.prodKeys.length)

end Sys2Proof.Machine
end

