-- ==== Sys2Proof/Machine/Firmware.lean ====
section
/-! DEFINITION. The NOR: the device ledger, firmware images, boot, activation and confirmation, and the board configuration area
(spec/19). -/
namespace Sys2Proof.Machine

/-! ### The device ledger -/

/-- A record of the device ledger in bytes (R634). -/
def LedgerRec.bytes (r : LedgerRec) (blind : Bool) : List Byte :=
  let body := (Config.ledgerBody r.kind r.key r.vals).take 232
  let shown := if blind then List.replicate body.length 0 else body
  let head := [0x4E, 0x44, 0x4C, 0x47] ++ le 8 r.seq ++ le 1 r.kind ++ le 1 0 ++ le 2 body.length ++ padTo 232 shown ++ le 4 0
  head ++ le 4 (crc32c head)

/-- Kinds whose newest record of each key governs (R634). -/
def stateKind (k : Nat) : Bool := k == 1 || k == 3 || (decide (5 ≤ k) && decide (k ≤ 9))

/-- LEDGER_STATUS and LEDGER_SEQ follow the ledger: each area has 64 sectors. -/
def State.norStatus (s : State) : State :=
  (((s.wr F.LEDGER_STATUS_free0 (64 - (s.sec.areas.getD 0 []).length)).wr F.LEDGER_STATUS_free1 (64 - (s.sec.areas.getD 1 []).length)).wr
    F.LEDGER_SEQ_LO_value s.sec.seq).wr F.LEDGER_SEQ_HI_value (s.sec.seq / 4294967296)

/-- A page written at the head of an area: 256 pages to a sector. -/
def pushPage (l : List (List (Option Nat))) (x : Option Nat) : List (List (Option Nat)) :=
  match l.getLast? with
  | some p => if p.length < 256 then l.dropLast ++ [p ++ [x]] else l ++ [[x]]
  | none => [[x]]

/-- A record written to both areas under the next sequence number (R635): each copy whose read-back fails is repeated at the next page. -/
def State.ledgerPutNor (s : State) (r : LedgerRec) (fail : List Nat) : State :=
  let n := s.sec.seq
  let put := fun k (l : List (List (Option Nat))) => pushPage ((List.range (fail.getD k 0)).foldl (fun a _ => pushPage a none) l) (some n)
  (s.updSec fun x => { x with
    ledger := x.ledger ++ [{ r with seq := n }], seq := n + 1, areas := [put 0 (x.areas.getD 0 []), put 1 (x.areas.getD 1 [])] }).norStatus

/-- The stallholder may write the NOR (R570, R578). -/
def State.norOpen (s : State) : Bool := (s.keeper s.holder).up && !s.quiet s.holder

/-- The record of a calibration run is held by the half it ended on while that half is in quiet (R189): for a half kind its own half, for an
easel kind West. -/
def State.norHeld (s : State) (r : LedgerRec) : Bool := r.kind == 3 && s.quiet (if 48 ≤ r.key then r.key % 8 else 0)

/-- DEVICE_LEDGER_WRITE (R189, R635): the next record that no half holds; fail0 and fail1 are the read-backs that fail in each area first. -/
def execDeviceLedgerWrite (fail0 fail1 : Nat) (s : State) : Out :=
  match s.ledgerWait.find? fun r => !s.norHeld r with
  | none => .next s
  | some r => .next (if s.norOpen then ({ s with ledgerWait := s.ledgerWait.erase r }).ledgerPutNor r [fail0, fail1] else s)

/-- The drift a sample record keeps. -/
def fracOf (l : List Nat) : Frac := ((if l.getD 1 0 = 1 then -(l.getD 0 0 : Int) else (l.getD 0 0 : Int)), l.getD 2 1)

/-- The ageing samples records hold (R598, R637): the newest fit over dropped ones, and the samples. -/
def agesOf (l : List LedgerRec) : ((Frac × Frac × Nat) × List (Nat × Frac)) :=
  let fit := match (l.filter fun r => r.kind == 2 && r.key == 1).getLast? with
    | some r => (fracOf (r.vals.take 3), fracOf ((r.vals.drop 3).take 3), r.vals.getD 6 0)
    | none => ((0, 1), (0, 1), 0)
  (fit, (l.filter fun r => r.kind == 2 && r.key == 0).map fun r => (r.vals.getD 0 0, fracOf (r.vals.drop 1)))

/-- A summary record of ageing samples (R637). -/
def fitRecord (x : SysSt) (l : List (Nat × Frac)) : LedgerRec :=
  let ax := l.foldl (fun a p => Frac.norm (Frac.add a (Frac.mul p.2 (quarter (Frac.ofNat p.1))))) x.fit.1
  let xx := l.foldl (fun a p => Frac.norm (Frac.add a (Frac.mul (quarter (Frac.ofNat p.1)) (quarter (Frac.ofNat p.1))))) x.fit.2.1
  { seq := 0, kind := 2, key := 1, vals := fracVals ax ++ fracVals xx ++ [x.fit.2.2 + l.length] }

/-- The oldest sector of the device ledger is reclaimed (R637): what still governs is written again, then it is erased. -/
def State.ledgerReclaim (s : State) : State :=
  let seqs := ((s.sec.areas.getD 0 []).headD []).filterMap id
  let old := s.sec.ledger.filter fun r => seqs.contains r.seq
  let governs := fun r : LedgerRec => stateKind r.kind && !(s.sec.ledger.any fun o => o.kind == r.kind && o.key == r.key && decide (r.seq < o.seq))
  let ages := (agesOf old).2
  let fit := if ages.isEmpty && !(old.any fun r => r.kind == 2 && r.key == 1) then [] else [fitRecord s.sys ages]
  let t := (fit ++ old.filter governs).foldl (fun (s : State) r => s.ledgerPutNor r []) s
  let t1 := t.updSec fun x => { x with
    ledger := x.ledger.filter (fun r => !seqs.contains r.seq), areas := x.areas.map List.tail }
  let a := agesOf (t1.sec.ledger ++ t1.ledgerWait)
  (t1.updSys fun x => { x with fit := a.1, samples := a.2 }).norStatus

/-- DEVICE_LEDGER_RECLAIM (R637): with fewer than 4 free sectors in an area, the oldest sector's governing records and the fit of its
ageing samples are rewritten at the head, and the sector is erased in both areas. -/
def execDeviceLedgerReclaim (s : State) : Out :=
  .next (if !s.norOpen || (s.sec.areas.all fun l => decide (l.length ≤ 60)) then s else s.ledgerReclaim)

/-- A stored key unwrapped under the key-encryption key (R617). -/
def unstoreKey (l : List Nat) : List Byte := (keyUnwrap Config.kek (l.map fun n => BitVec.ofNat 8 n)).getD []

/-- A record replayed after a device reset (R636). -/
def State.replayRec (s : State) (r : LedgerRec) : State :=
  let v := fun k => r.vals.getD k 0
  match r.kind with
  | 1 => (s.wr F.AGE_HOURS_hours (v 0)).updSys fun x =>
      { x with firstUse := if v 1 = 0 then x.firstUse else some (v 1 - 1), duty := (v 2, v 3) }
  | 3 =>
    let kind := r.key / 8
    let e := r.key % 8
    let hi := v 1 / 4294967296
    if kind ≤ 5 then
      (((((s.wr F.COND_CAL_RUNS_runs (v 0) e (kind - 1)).wr F.COND_CAL_LAST_S_LO_s_lo (v 1) e (kind - 1)).wr F.COND_CAL_LAST_S_HI_s_hi hi e (kind - 1)).wr
        F.COND_CAL_LAST_S_HI_valid 1 e (kind - 1)).wr F.COND_CAL_LAST_S_HI_free_run (v 3) e (kind - 1)).wr F.COND_CAL_LAST_NS_ns (v 2) e (kind - 1)
    else
      (((((s.wr F.COND_HCAL_RUNS_runs (v 0) e (kind - 6)).wr F.COND_HCAL_LAST_S_LO_s_lo (v 1) e (kind - 6)).wr F.COND_HCAL_LAST_S_HI_s_hi hi e (kind - 6)).wr
        F.COND_HCAL_LAST_S_HI_valid 1 e (kind - 6)).wr F.COND_HCAL_LAST_S_HI_free_run (v 3) e (kind - 6)).wr F.COND_HCAL_LAST_NS_ns (v 2) e (kind - 6)
  | 5 => s.updSec fun x => { x with roleKeys :=
      (x.roleKeys.filter fun k => k.1 ≠ r.key) ++ if r.vals.isEmpty then [] else [(r.key, unstoreKey r.vals)] }
  | 6 => { s with prodKeys :=
      (s.prodKeys.filter fun k => k.1 ≠ r.key) ++ if r.vals.isEmpty then [] else [(r.key, unstoreKey r.vals)] }
  | 7 => ((s.setMode r.key (v 0 == 1) (v 1)).setOffered r.key (v 2 == 1)).updSys fun x =>
      { x with offered := (r.key, v 2 == 1) :: x.offered.filter fun o => o.1 ≠ r.key }
  | 8 => s.updStor fun x => { x with
      rolls := (r.key, v 0) :: x.rolls.filter (fun k => k.1 ≠ r.key),
      formatted := (x.formatted.filter fun k => k.1 ≠ r.key) ++ (pieces (r.vals.length / 2) 2 r.vals.tail).map fun p => (r.key, p.getD 0 0, p.getD 1 0) }
  | 9 => ((s.updSec fun x => { x with fails := updAt x.fails (r.key - 1) fun _ => v 0 }).wr F.SES_LOCK_f (v 0) (r.key - 1)).wr
      F.SES_LOCK_remain_s (lockSeconds (v 0)) (r.key - 1)
  | 11 => s.updSys fun x => { x with marks := x.marks ++ [(v 0, v 1)], firstUse := if x.firstUse.isNone then some (v 1) else x.firstUse }
  | _ => s

/-- The replay of both areas (R636): up to the first sequence number with no valid copy; a single copy is repaired. -/
def State.ledgerReplay (s : State) (single bad : List Nat) : State :=
  let l := s.sec.ledger.takeWhile fun r => !bad.contains r.seq
  let t := l.foldl State.replayRec (s.updSec fun x => { x with
    ledger := l, seq := match l.getLast? with | some r => r.seq + 1 | none => (s.sec.ledger.head?.map LedgerRec.seq).getD x.seq })
  let a := agesOf l
  let t1 := (t.updSys fun x => { x with fit := a.1, samples := a.2 })
  let t2 := match a.2.getLast? with
    | some p => t1.wr F.AGE_TREND_a_last (ofSigned 16 (clampInt (-32768) 32767 (openRound 12 (Frac.mul p.2 (65536, 1)))))
    | none => t1
  (t2.each (l.filter fun r => single.contains r.seq) fun s r =>
    (s.flagCount F.FW_FLAGS_ledger_repair F.FW_CNT_ledger_repair).raise s.holder Ev.FW_LEDGER_REPAIR (le 8 r.seq)).keyStatus.norStatus

/-- LEDGER_READ (R620): whole records, the body of key records as zero. -/
def execLedgerRead (id : Nat) (s : State) : Out :=
  .next (s.startCmd id 0x48 fun c s =>
    if 11 < c.b 16 ∨ zeroBytes c.desc 17 20 = false ∨ c.w 40 % 256 ≠ 0 ∨ zeroBytes c.desc 44 64 = false then s.complete id St.SES_BAD_REQ
    else
      let l := s.sec.ledger.filter fun r => (c.b 16 == 0 || r.kind == c.b 16) && decide (c.d 20 ≤ r.seq)
      let out := l.take (min (c.w 28) (c.w 40 / 256))
      let t := if out.isEmpty then s else s.emit (.hostWrite (c.d 32) (out.flatMap fun r => r.bytes (r.kind == 5 || r.kind == 6)))
      t.complete id St.OK out.length)

/-! ### Firmware images -/

/-- An image of n body bytes: the fields of its header (R624). -/
def imageBody (img : List Byte) : Nat := fieldAt img 8 4

/-- R625 but for sv and the image's own length: magic and fields, steppings, body check, key pair and both signatures. -/
def imageSound (img : List Byte) (revoked : Nat) : Bool :=
  let n := imageBody img
  let body := bytesAt img 8192 n
  let pair := fieldAt img 13 1
  let msg := bytesAt img 0 2240 ++ body
  img.take 4 == [0x4E, 0x46, 0x57, 0x49] && fieldAt img 4 2 == 1 && zeroBytes img 6 8 && n % 64 == 0 && decide (n ≤ 25157632)
    && decide (fieldAt img 12 1 ≤ 64) && decide (pair ≤ 3) && decide (fieldAt img 14 1 < 16) && zeroBytes img 15 16
    && decide (fieldAt img 16 1 ≤ Config.stepping.toNat) && decide (Config.stepping.toNat ≤ fieldAt img 17 1) && zeroBytes img 18 20
    && zeroBytes img 32 256 && zeroBytes img 5613 8192 && decide (8192 + n ≤ img.length) && fieldAt img 28 4 == crc32c body
    && !bitOf revoked pair && sha256 (bytesAt img 256 32) == (Config.pairHash pair).1 && sha256 (bytesAt img 288 1952) == (Config.pairHash pair).2
    && Config.ed25519 (bytesAt img 256 32) msg (bytesAt img 2240 64) && Config.mlDsa65 (bytesAt img 288 1952) msg (bytesAt img 2304 3309)

/-- The check of R625: 0x0000, FW_IMAGE_BAD, or FW_ROLLBACK when sv alone fails. -/
def State.imageStatus (s : State) (img : List Byte) : Nat :=
  if !imageSound img s.sec.revoked then St.FW_IMAGE_BAD
  else if fieldAt img 12 1 < s.sec.fuseSv then St.FW_ROLLBACK
  else St.OK

/-- The image in a slot. -/
def State.slot (s : State) (k : Nat) : List Byte := s.sec.slots.getD k []

/-- A firmware event for the device ledger (R634): its code and the build ID. -/
def State.fwRecord (s : State) (code : Nat) (img : List Byte) : State := s.ledgerAdd 10 0 [code, fieldAt img 20 8]

/-- A firmware command starts (R620, R621): fields, then authority, then no other of them decoded earlier may be outstanding. -/
def State.fwCmd (s : State) (id opcode : Nat) (ok : Cmd → Bool) (f : Cmd → State → State) : State :=
  s.startCmd id opcode fun c s =>
    if !ok c then s.complete id St.SES_BAD_REQ
    else if s.anyQuiet then s.complete id St.AUTH_UNSETTLED
    else if s.outstanding.any fun o => decide (o.id < id) && o.stage != .ended && (o.opcode == 0x44 || o.opcode == 0x45 || o.opcode == 0x46 || o.opcode == 0x49) then
      s.complete id St.FW_BUSY
    else f c s

/-- FW_STAGE (R620, R626): data is the image read from host memory, nor what the inactive slot reads back as once written. -/
def execFwStage (id : Nat) (data nor : List Byte) (s : State) : Out :=
  .next (s.fwCmd id 0x44
    (fun c => zeroBytes c.desc 16 24 && c.d 24 % 64 == 0 && c.w 32 % 64 == 0 && decide (8256 ≤ c.w 32) && decide (c.w 32 ≤ 25165824) && zeroBytes c.desc 36 64)
    fun c s =>
      let img := data.take (c.w 32)
      let read := s.emit (.hostRead (c.d 24) (c.w 32))
      if s.on F.FW_STATUS_trial then s.complete id St.FW_BUSY
      else if 8192 + imageBody img ≠ img.length then read.complete id St.FW_IMAGE_BAD
      else if s.imageStatus img ≠ St.OK then read.complete id (s.imageStatus img)
      else
        let t := (read.updSec fun x => { x with slots := updAt x.slots (1 - s.rd F.FW_STATUS_slot) fun _ => nor }).wr F.FW_STATUS_staged 0
        if t.imageStatus nor = St.OK then ((t.wr F.FW_STATUS_staged 1).fwRecord 1 nor).complete id St.OK (fieldAt nor 20 4)
        else t.complete id (t.imageStatus nor))

/-! ### The boot record -/

/-- The 64 bytes of a boot record copy (R627). -/
def BootRec.bytes (r : BootRec) (seq : Nat) : List Byte :=
  let head := [0x4E, 0x42, 0x52, 0x43] ++ le 8 seq ++ le 1 r.slot ++ le 1 (b2n r.trial) ++ le 1 r.boots ++ List.replicate 45 0
  head ++ le 4 (crc32c head)

/-- The sequence number and record of a valid copy (R627). -/
def bootCopy (b : List Byte) : Option (Nat × BootRec) :=
  if b.length == 64 && b.take 4 == [0x4E, 0x42, 0x52, 0x43] && zeroBytes b 15 60 && fieldAt b 60 4 == crc32c (b.take 60) then
    some (fieldAt b 4 8, { slot := fieldAt b 12 1, trial := fieldAt b 13 1 == 1, boots := fieldAt b 14 1 })
  else none

/-- The boot record in force (R627): the valid copy with the highest sequence number. -/
def State.bootRecord (s : State) : Option (Nat × BootRec) :=
  (s.sec.boots.filterMap bootCopy).foldl (fun a c => match a with
    | some x => if x.1 < c.1 then some c else some x
    | none => some c) none

/-- The sequence number of the next boot record (R627). -/
def State.bootSeq (s : State) : Nat := (match s.bootRecord with | some x => x.1 | none => 0) + 1

/-- A new boot record in copy 0 and then in copy 1, one sequence number on (R627). -/
def State.bootWrite (s : State) (r : BootRec) : State :=
  s.updSec fun x => { x with boots := List.replicate 2 (r.bytes s.bootSeq) }

/-! ### Activation and confirmation -/

/-- FW_STATUS and FW_BUILD show the image that runs. -/
def State.fwShow (s : State) (k : Nat) (trial : Bool) (boots : Nat) : State :=
  let img := s.slot k
  ((((((s.wr F.FW_STATUS_state 1).wr F.FW_STATUS_slot k).wr F.FW_STATUS_trial (b2n trial)).wr F.FW_STATUS_boots boots).wr
    F.FW_STATUS_sv (fieldAt img 12 1)).wr F.FW_BUILD_LO_value (fieldAt img 20 4)).wr F.FW_BUILD_HI_value (fieldAt img 24 4)

/-- FW_ACTIVATE (R630): submissions are held from its decode. Its drain limit is the one it carries, or FW_CFG.drain_ms for 0. -/
def execFwActivate (id : Nat) (s : State) : Out :=
  .next (s.fwCmd id 0x45 (fun c => decide (c.h 16 ≤ 60000) && zeroBytes c.desc 18 64)
    fun _ s => if s.on F.FW_STATUS_staged then s else s.complete id St.FW_NOT_STAGED)

/-- The activation in hand. -/
def State.activation (s : State) : Option Cmd := s.host.cmds.find? fun c => c.opcode == 0x45 && c.stage == .running

/-- Drained (R630): every other command has ended, no take is open and no port is in ADMIN. In recovery no drain is needed (R629). -/
def State.drained (s : State) (id : Nat) : Bool :=
  s.rd F.FW_STATUS_state == 2
    || (s.outstanding.all (fun c => c.id == id) && !s.anyTakeOpen && [0, 1].all fun p => s.portState p != 5)

/-- A keeper that runs is reloaded and restarted (R557, R631). -/
def State.reload (s : State) (h : Nat) : State :=
  s.updKeeper h fun k => if k.up then { k with beaten := false, notice := false } else k

/-- A drained activation takes effect (R630, R631): the other slot becomes the trial slot, both keepers reload from it, and the command ends. -/
def State.activated (s : State) (c : Cmd) : State :=
  let k := 1 - s.rd F.FW_STATUS_slot
  let h := s.holder
  let t := (s.passPoint c.id).bootWrite { slot := k, trial := true, boots := 0 }
  let t1 := ((t.reload (1 - h)).reload h).updKeeper (1 - h) fun x => { x with notice := true }
  let t2 := (((t1.wr F.FW_STATUS_staged 0).fwShow k true 0).bump F.FW_CNT_activations).fwRecord 2 (s.slot k)
  let t3 := if s.rd F.FW_STATUS_state = 2 then t2.each [0, 1] State.portPower else t2
  (t3.raise h Ev.FW_ACTIVATED (le 8 (fieldAt (s.slot k) 20 8))).complete c.id St.OK (fieldAt (s.slot k) 20 4)

/-- FW_DRAIN_DONE (R630, R631): steps 2 to 5. The neighbour's keeper is reloaded first; it has the stallholder's reload notice. -/
def execFwDrainDone (s : State) : Out :=
  match s.activation with
  | none => .next s
  | some c => .next (if s.drained c.id then s.activated c else s)

/-- FW_DRAIN_TIMEOUT (R630): nothing changes, and decoding resumes. -/
def execFwDrainTimeout (s : State) : Out :=
  match s.activation with
  | none => .next s
  | some c => .next (if c.past then s else s.complete c.id St.DRAIN_TIMEOUT)

/-- The trial image is confirmed (R632): its security version and its revocations are burnt, and it boots without trial from here on. -/
def State.trialConfirmed (s : State) : State :=
  let k := s.rd F.FW_STATUS_slot
  let img := s.slot k
  let burn := (List.range 4).filter fun p => bitOf (fieldAt img 14 1) p && p != fieldAt img 13 1
  let t := s.updSec fun x => { x with
    fuseSv := max x.fuseSv (fieldAt img 12 1), revoked := burn.foldl (fun r p => setBit r p true) x.revoked }
  let t1 := ((((t.bootWrite { slot := k, trial := false, boots := 0 }).wr F.FW_STATUS_fuse_sv t.sec.fuseSv).wr F.FW_STATUS_revoked t.sec.revoked).wr
    F.FW_STATUS_trial 0).wr F.FW_STATUS_boots 0
  t1.fwRecord 3 img

/-- FW_CONFIRM (R632): rollback and revoke fuses are burnt, and the boot record loses its trial. -/
def execFwConfirm (id : Nat) (s : State) : Out :=
  .next (s.fwCmd id 0x46 (fun c => zeroBytes c.desc 16 64) fun _ s =>
    if s.rd F.FW_STATUS_trial = 0 then s.complete id St.OK 0 else s.trialConfirmed.complete id St.OK 1)

/-- A fallback of the boot (R628): noted in the registers, an event and the device ledger. -/
def State.fallback (s : State) (k : Nat) : State :=
  ((((s.bootWrite { slot := k, trial := false, boots := 0 }).flagCount F.FW_FLAGS_fallback F.FW_CNT_fallback).raise
    s.holder Ev.FW_FALLBACK (le 1 k))).fwRecord 4 (s.slot k)

/-- The boot of the firmware (R628, R636): the device ledger is replayed, the slot of the boot record chosen or fallen back from, and the image that
verifies runs; with none the part stays without. -/
def State.fwBoot (s : State) (single bad : List Nat) : State :=
  let r := match s.bootRecord with | some x => x.2 | none => { slot := 0, trial := false, boots := 0 }
  let t := s.ledgerReplay single bad
  let spent := r.trial && decide (3 ≤ r.boots)
  let k := if spent then 1 - r.slot else r.slot
  let t1 := if spent then t.fallback k
    else if r.trial then t.bootWrite { r with boots := r.boots + 1 } else t
  if t1.imageStatus (t1.slot k) = St.OK then
    t1.fwShow k (r.trial && !spent) (if spent then 0 else if r.trial then r.boots + 1 else 0)
  else if t1.imageStatus (t1.slot (1 - k)) = St.OK then (t1.fallback (1 - k)).fwShow (1 - k) false 0
  else t1.wr F.FW_STATUS_state 2

/-- FIRMWARE_BOOT (R628, R636): the ledger is replayed and a slot chosen. single and bad are the sequence numbers with one valid copy and
with none. -/
def execFirmwareBoot (single bad : List Nat) (s : State) : Out :=
  .next (if s.rd F.FW_STATUS_state ≠ 0 ∨ s.released (b2n Config.leadSel) = false then s else s.fwBoot single bad)

/-! ### The board configuration area -/

/-- BOARD_CFG_WRITE (R620, R623): data is the area as read from host memory. -/
def execBoardCfgWrite (id : Nat) (data : List Byte) (s : State) : Out :=
  .next (s.fwCmd id 0x49
    (fun c => zeroBytes c.desc 16 24 && decide (64 ≤ c.w 32) && decide (c.w 32 ≤ 4190208) && zeroBytes c.desc 36 64)
    fun c s => ((s.emit (.hostRead (c.d 24) (c.w 32))).updSec fun x => { x with board := padTo (c.w 32) (data.take (c.w 32)) }).complete id St.OK)

/-- The area passes its check (R623). -/
def boardOk (b : List Byte) : Bool :=
  b.take 4 == [0x4E, 0x42, 0x43, 0x46] && zeroBytes b 12 64 && decide (64 + fieldAt b 4 4 ≤ b.length)
    && fieldAt b 8 4 == crc32c (bytesAt b 64 (fieldAt b 4 4))

/-- The entries of the area, type and body, up to type 0 (R623). -/
def boardEntries : Nat → List Byte → List (Nat × List Byte)
  | 0, _ => []
  | n + 1, bs =>
    if bs.length < 4 ∨ fieldAt bs 0 2 = 0 then []
    else (fieldAt bs 0 2, bytesAt bs 4 (fieldAt bs 2 2)) :: boardEntries n (bs.drop (4 + fieldAt bs 2 2))

/-- The DCS commands of a DSI port's set-up (R623): the body carries port, 16-bit delay, then the DCS bytes. -/
def boardDsi (b : List Byte) (port : Nat) : List (List Byte) :=
  let l := bytesAt b 64 (fieldAt b 4 4)
  (boardEntries l.length l).filterMap fun x => if x.1 = 1 ∧ fieldAt x.2 0 1 = port then some (x.2.drop 3) else none

/-- DSI_SETUP_SENT (R499, R623): the port in INIT has had its set-up and is in COMMAND. An area that fails its check is not used. -/
def execDsiSetupSent (o : Nat) (s : State) : Out :=
  if isDsi o && s.rd F.RAS_OUT_STATUS_dsi_mode o == 1 && s.blockUp (0x70 + o) then
    let t := if boardOk s.sec.board then (boardDsi s.sec.board (o - 4)).foldl (fun (s : State) d => s.emit (.dsi (o - 4) false d)) s
      else (s.wr F.FW_FLAGS_board_cfg_bad 1).raise s.holder Ev.FW_BOARD_CFG_BAD []
    .next (t.dsiMode o 2)
  else .next s

end Sys2Proof.Machine
end

