-- ==== Sys2Proof/Machine/Aborts.lean ====
section
/-! DEFINITION. ABORT and QUEUE_RESET (R429 to R433), and the function-level reset (R378). -/
namespace Sys2Proof.Machine

/-- A command may target a ring (R429): its own, one whose session has the same role, or any for a Custodian. A ring that is not enabled
is refused first. -/
def State.targetStatus (s : State) (c : Cmd) : Nat :=
  let t := c.b 16
  let mine := s.rd F.RING_SQ_STATUS_role c.ring
  if s.on F.RING_SQ_CFG_enable t = false then St.STOR_BAD_FIELD
  else if t = c.ring ∨ mine = 2 ∨ (mine ≠ 0 ∧ s.rd F.RING_SQ_STATUS_role t = mine) then St.OK
  else St.ROLE_DENIED

/-- A command stopped before its point of no return (R430, R471): what it has put in hand is withdrawn. -/
def State.stopWork (s : State) (c : Cmd) (status : Nat) : State :=
  if c.stage == .running && c.opcode == 0x22 then s.each (List.range 16) fun s x => s.updSc x fun k => { k with refresh := k.refresh.filter (· ≠ c.id) }
  else if c.stage == .running && c.opcode == 0x28 then
    s.each ((List.range 8).filter fun d => match (s.vcd.dec.getD d RcSt.init).work with | some w => w.cmd == c.id | none => false) State.rcEnd
  else s.storStop c status

/-- ABORT (R429 to R431). -/
def execAbort (id : Nat) (s : State) : Out :=
  .next (s.storCmd id 0x16 (fun c => decide (c.b 16 < 16) && c.b 17 == 0 && zeroBytes c.desc 20 64) fun c s =>
    let t := c.b 16
    if s.targetStatus c ≠ St.OK then s.complete id (s.targetStatus c)
    else if 256 < s.ringDepth t then s.complete id St.ABORT_REFUSED
    else match s.outstanding.find? fun o => o.ring == t && decide (o.id < id) && o.tag == c.h 18 with
      | none => s.complete id St.OK 0
      | some o =>
        if o.stage == .ended || o.mute || s.pastPoint o then s.complete id St.OK 0
        else ((s.stopWork o St.ABORTED).complete o.id St.ABORTED 0 o.units).complete id St.OK 1)

/-- A command of a ring that is reset (R432): caught before its point of no return it stops; past it, its record is posted and it works on
without another. -/
def State.resetCmd (s : State) (o : Cmd) : State :=
  if s.pastPoint o then
    (s.updCmd o.id fun x => { x with mute := true }).post
      { event := false, half := 0, cq := o.cq, tag := o.tag, source := o.ring, status := St.ABORTED_BY_RESET, spec0 := 1, spec1 := o.units,
        ring := some o.ring, cmd := some o.id, payload := [], stamp := none, step := 0, quiet := false, full := false }
  else (s.stopWork o St.ABORTED_BY_RESET).complete o.id St.ABORTED_BY_RESET 0 o.units

/-- QUEUE_RESET (R429, R432, R433): it waits for an earlier one of its target. -/
def execQueueReset (id : Nat) (s : State) : Out :=
  match s.cmd id with
  | none => .next s
  | some q =>
    if s.outstanding.any fun o => o.opcode == 0x17 && o.stage != .ended && decide (o.id < id) && o.b 16 % 16 == q.b 16 % 16 then .next s
    else .next ((s.storCmd id 0x17 (fun c => decide (c.b 16 < 16) && zeroBytes c.desc 17 64) fun c s =>
      if s.targetStatus c ≠ St.OK then s.complete id (s.targetStatus c)
      else
        let l := s.outstanding.filter fun o => o.ring == c.b 16 && decide (o.id < id) && o.stage != .ended && !o.mute
        (s.each (l.map Cmd.id) fun s k => match s.cmd k with
          | some o => if o.stage == .ended || o.mute then s else s.resetCmd o
          | none => s).updCmd id fun c => { c with units := l.length }).finishQueueResets)

/-- The RING and BARROW registers (R639). -/
def hostReg (k : RegKey) : Bool := decide (0x100000 ≤ k.base) && decide (k.base < 0x300000)

/-- Every barrow channel stops where it stands (R378): what it had moved of its descriptor is moved. -/
def State.barrowsCut (s : State) (moved : List (Nat × List Byte)) : State :=
  s.each (List.range 32) fun s c =>
    let m := moved.getD c (0, [])
    let t := match (s.barrow c).cur with
      | some d => if (s.barrow c).waits.isEmpty && m.1 != 0 then (s.barrowMove c d (min m.1 d.length) m.2).1 else s
      | none => s
    t.barrowRelease c

/-- RING and BARROW at their reset values (R378): outstanding commands go on without a record. -/
def State.hostCleared (s : State) : State :=
  let cmds := (s.host.cmds.filter fun c => c.stage != .ended).map fun c => { c with mute := true }
  { s with
    cfg := s.cfg.filter fun x => !hostReg x.1
    sts := s.sts.filter fun x => !hostReg x.1
    latch := s.latch.filter fun x => !hostReg x.1
    host := { HostSt.init with cmds := cmds, nextId := s.host.nextId, holding := false } }

/-- FUNCTION_LEVEL_RESET (R378, R563, R564): moved are the bytes each channel had moved when its transfer stopped, with the data that came from the
host. Commands decoded before run on and post nothing. -/
def execFunctionLevelReset (moved : List (Nat × List Byte)) (s : State) : Out :=
  .next (((((s.barrowsCut moved).hostCleared.updSec fun x => { x with nonce := none }).countOutstanding).wr F.RST_CAUSE_flr 1).resetDone 2)

end Sys2Proof.Machine
end

