-- ==== Sys2Proof/Machine/Chains.lean ====
section
/-! DEFINITION. Stall chains (spec/02, R44 to R52): writes, reads, releases, marks, rewinds and abort items. -/
namespace Sys2Proof.Machine

/-- The depth of chain k: at least one stage, its size not given by the spec. -/
def chainDepth (k : Nat) : Nat := Config.chainExtra k + 1

/-- The chain with a number. -/
def State.chain (s : State) (k : Nat) : ChainSt :=
  match s.chains.find? (fun e => e.1 == k) with
  | some e => e.2
  | none => ChainSt.init

/-- A chain replaced. -/
def State.setChain (s : State) (k : Nat) (c : ChainSt) : State :=
  { s with chains := (k, c) :: s.chains.filter (fun e => e.1 ≠ k) }

/-- Items of the packet at the read position that have arrived, and whether its end has. -/
def packetArrived : List ChainItem → Nat × Bool
  | [] => (0, false)
  | x :: xs =>
    if x.last || x.abort then (1, true)
    else match xs with
      | y :: _ => if y.first then (1, false) else ((packetArrived xs).1 + 1, (packetArrived xs).2)
      | [] => (1, false)

/-- A read may complete: an item stands at the read position, and a packet is started only once its threshold or its
last item has arrived (R46, R50). -/
def ChainSt.readable (k : Nat) (c : ChainSt) : Bool :=
  match c.items.drop c.pos with
  | [] => false
  | x :: xs => !x.first || (let r := packetArrived (x :: xs); r.2 || decide (Config.chainThreshold k ≤ r.1))

/-- A waiting read completes when its item has arrived (R46). The read position does not pass an abort item: the consumer sees that it
has reached one (R51). -/
def ChainSt.settleRead (k : Nat) (c : ChainSt) : ChainSt :=
  if c.waitRead && c.readable k then
    { c with got := c.items[c.pos]?, pos := c.pos + (if (c.items[c.pos]?).any (·.abort) then 0 else 1), waitRead := false }
  else c

/-- An item comes into the chain. An abort item whose packet the consumer has not started releases that packet unread (R52). -/
def ChainSt.arrive (c : ChainSt) (x : ChainItem) : ChainSt :=
  let items := c.items ++ [x]
  let start := items.length - max 1 c.run
  if x.abort && decide (c.run ≤ items.length) && decide (c.pos ≤ start) then { c with items := items.take start }
  else { c with items := items }

/-- A waiting write completes when a stage is free (R45). -/
def ChainSt.settleWrite (k : Nat) (c : ChainSt) : ChainSt :=
  match c.waitWrite with
  | some x => if c.items.length < chainDepth k then { c.arrive x with waitWrite := none } else c
  | none => c

/-- The place in its packet that an item takes, the first item taking place 1: 0 for an item of no packet. -/
def ChainSt.place (c : ChainSt) (x : ChainItem) : Nat := if x.first then 1 else if c.inPacket then c.run + 1 else 0

/-- An item as the chain carries it (R49, R51): no packet is longer than the chain, so one that is not complete at the chain's depth ends
there in an abort item. -/
def ChainSt.carried (k : Nat) (c : ChainSt) (x : ChainItem) : ChainItem :=
  if c.place x = chainDepth k && !x.last then { x with abort := true } else x

/-- CHAIN_WRITE (R45, R49): the write completes, or waits while the chain is full. A producer whose write waits makes no other. What is
left of a packet that has ended at the chain's depth is carried no further (DEDUCED from R49 and R51, log 96). -/
def execChainWrite (k : Nat) (item : ChainItem) (s : State) : Out :=
  let c := s.chain k
  if c.waitWrite.isSome then .next s
  else
    let n := c.place item
    let d := { c with run := n, inPacket := decide (0 < n) && !(item.last || item.abort) }
    if chainDepth k < n then .next (s.setChain k d)
    else .next (s.setChain k (({ d with waitWrite := some (c.carried k item) }.settleWrite k).settleRead k))

/-- CHAIN_READ (R46, R47): the read completes and its stage stays taken, or it waits while no item is there. -/
def execChainRead (k : Nat) (s : State) : Out :=
  .next (s.setChain k ({ s.chain k with waitRead := true }.settleRead k))

/-- CHAIN_RELEASE (R47, R48): every item before the read position is freed and the mark cleared; a waiting write then
completes in the same step (R52). -/
def execChainRelease (k : Nat) (s : State) : Out :=
  let c := s.chain k
  .next (s.setChain k (({ c with items := c.items.drop c.pos, pos := 0, mark := none }.settleWrite k).settleRead k))

/-- CHAIN_MARK (R48, R52): the one mark goes to the read position, the awaited item's place when a read waits. -/
def execChainMark (k : Nat) (s : State) : Out :=
  let c := s.chain k
  .next (s.setChain k { c with mark := some c.pos })

/-- CHAIN_REWIND (R48): the read position goes back to the mark, or to the oldest unreleased item. -/
def execChainRewind (k : Nat) (s : State) : Out :=
  let c := s.chain k
  .next (s.setChain k { c with pos := c.mark.getD 0 })

/-- CHAIN_ABORT_ITEM (R51): the consumer that has reached the abort item rewinds to its packet's first item and releases the whole packet.
One that has not reached it has nothing to abort; a packet it has not started goes by itself (R52). -/
def execChainAbortItem (k : Nat) (s : State) : Out :=
  let c := s.chain k
  if (c.items[c.pos]?).any (·.abort) then
    .next (s.setChain k (({ c with items := c.items.drop (c.pos + 1), pos := 0, mark := none }.settleWrite k).settleRead k))
  else .next s

end Sys2Proof.Machine
end

