-- ==== Sys2Proof/Machine/Intake.lean ====
section
/-! DEFINITION. Frames as they come in over the link (spec/03 and spec/04): frame-starts, row stripes, the brushes' bands and tiles,
canvas writes, view pictures, settle notices and the abort of an easel. -/
namespace Sys2Proof.Machine

/-! ### Frame-starts -/

/-- Field a of a frame-start block, k bytes. -/
def blockField (p : Option (List Byte)) (a k : Nat) : Nat := fieldAt (p.getD []) a k

/-- Frame-start blocks that reached the part. -/
def blocksPresent (l : List (Option (List Byte))) : Nat := (l.filter Option.isSome).length

/-- Blocks discarded by R104, R109 or R150. -/
def State.orphans (s : State) (e n : Nat) : State := s.bump F.BRL_EASEL_ORPHAN_orphan e 0 n

/-- A frame-start is faulty (R109, R111): a block missing or with a bad check, or an FS1 easel that is not the set's. -/
def State.fsBad (s : State) (e : Nat) (fs0 fs1 fs2 : Option (List Byte)) : Bool :=
  !isControl 0x40 fs0 || !isControl 0x42 fs2 || (!s.heritage e && (!isControl 0x41 fs1 || blockField fs1 5 1 % 4 != e))

/-- FS2, or the FS1 format in native mode, differs from the sensor profile (R109). -/
def State.fsGeometry (s : State) (e : Nat) (fs1 fs2 : Option (List Byte)) : Bool :=
  blockField fs2 1 2 != s.rd F.EASEL_GEOM_width e || blockField fs2 3 2 != s.rd F.EASEL_GEOM_height e
    || blockField fs2 5 1 != s.rd F.EASEL_FMT_ob_rows e || blockField fs2 6 1 != s.rd F.EASEL_FMT_ob_cols e
    || (!s.heritage e && blockField fs1 6 1 % 4 != s.rd F.EASEL_FMT_format e)

/-- The serial of a frame-start (R111): a heritage serial is extended by one in its upper bits when its 32 bits wrap. -/
def State.fsSerial (s : State) (e : Nat) (fs0 : Option (List Byte)) : Nat :=
  if s.heritage e then
    let v := blockField fs0 1 4
    let hi := match (s.easel e).serial32 with
      | some old => if v < old then (((s.easel e).serialHi + 1) % 65536) else (s.easel e).serialHi
      | none => (s.easel e).serialHi
    hi * 4294967296 + v
  else blockField fs0 1 6

/-- The frames before an accepted frame-start (R109, R150): the frame still taking rows ends implicitly; when another is HELD, that
one settles at once. -/
def State.endBefore (s : State) (e : Nat) : State :=
  match s.current e with
  | none => s
  | some f => s.frameEnd e f .missing

/-- Bound tickets whose target was passed over: a frame with a higher serial opens, and the target never did (R143). -/
def State.targetsLost (s : State) (e serial : Nat) : State :=
  let live := fun n : Nat => ((s.easel e).frames.any fun f => f.serial == n && f.unsettled) || s.notices.contains (Consumer.ticket, e, n)
  (s.updEasel e fun x => { x with bound := x.bound.map fun b =>
    if (b.outcome.isNone && decide (b.target < serial) && !live b.target) = true then { b with outcome := some St.TARGET_LOST } else b }).ticketCheck e

/-- The window of the frame before, still open, closes at the acceptance (R138). -/
def State.windowLate (s : State) (e : Nat) : State :=
  match (s.easel e).window with
  | none => s
  | some n =>
    let w := match s.frame e n with | some f => f.fault | none => 0
    ((s.flagCount F.EASEL_FLAGS_window_late F.EASEL_CNT_MISC_window_late e).raise 0 Ev.EASEL_WINDOW_LATE (framePayload e n w)).windowClose e n

/-- The frame an accepted frame-start opens, with the policy and the profile in force (R68, R72, R127, R194). -/
def State.newFrame (s : State) (e serial : Nat) : Frame :=
  let x := s.easel e
  let first := if x.accepted = 0 then serial else x.first
  { serial := serial, st := .opened,
    fault := if x.bound.any (fun b => b.target == serial && b.late) then setFault 0 9 else 0,
    seen := [], seenOb := [], badRows := [], bad := 0, checks := [], ended := false,
    onShort := s.on F.EASEL_POLICY_on_short e, onError := s.on F.EASEL_POLICY_on_error e, maxBad := s.rd F.EASEL_POLICY_max_bad_rows e,
    width := s.rd F.EASEL_GEOM_width e, height := s.rd F.EASEL_GEOM_height e, obRows := s.rd F.EASEL_FMT_ob_rows e,
    obCols := s.rd F.EASEL_FMT_ob_cols e, fmt := s.rd F.EASEL_FMT_format e, cfa := s.rd F.EASEL_FMT_cfa e,
    stamp := s.now, freeRun := s.ptpUnlocked, ticket := s.ticketInEffect e serial,
    taken := s.on F.EASEL_RATE_colour e && (serial - first) % s.colourEvery e == 0,
    slot := none, tc := s.timecode, inTake := false, deadline := false }

/-- The FS1 echo against the ticket in effect, in native mode (R142). Its payload ends at byte 33 of the event record (R396): the model
writes it whole, a record of 34 bytes (DESIGN CHOICE, log 111). -/
def State.echoCheck (s : State) (e serial echo : Nat) : State :=
  match s.frame e serial with
  | none => s
  | some f =>
    if s.heritage e || f.ticket == echo then s
    else
      let w := setFault f.fault 10
      ((s.updFrame e serial fun x => { x with fault := w, ticket := echo }).flagCount F.EASEL_FLAGS_ticket_echo
        F.EASEL_CNT_MISC_ticket_echo e).raise 0 Ev.EASEL_TICKET_ECHO (framePayload e serial w (le 4 echo ++ le 4 f.ticket))

/-- The frame takes the next FREE canvas slot (R283), or is scraped at once (R284). -/
def State.frameSlot (s : State) (e serial : Nat) : State :=
  match s.freeSlot e with
  | some k => (s.takeSlot e k serial (s.recordHolds e)).updFrame e serial fun f => { f with slot := some k }
  | none => (s.wr F.HBM_CANVAS_STATUS_canvas_full 1 e).bump F.HBM_CANVAS_FULL_count e

/-- A frame that found no slot is scraped, once its start has been taken note of (R284). -/
def State.fullScrape (s : State) (e serial : Nat) : State :=
  match s.frame e serial with
  | some f => if f.slot.isSome then s
    else (s.raise 0 Ev.HBM_CANVAS_FULL (framePayload e serial f.fault)).settleTo e f .scraped f.fault
  | none => s

/-- Rows leave the intake chains of their home halves, and their blocks make room there (R74). -/
def State.releaseRows (s : State) (which : RowData → Bool) : State :=
  let t := s.each (s.link.rows.filter which) fun s r => s.intakeFree (homeHalf r.ob r.index) r.held
  { t with link := { t.link with rows := t.link.rows.map fun r => if which r then { r with held := 0 } else r } }

/-- A view is still writing a picture of a frame. -/
def State.pictured (s : State) (e serial : Nat) : Bool :=
  let mine := fun x : ViewSlot => x.writing && x.easel == e && x.serial == serial
  (List.range 8).any fun v => (s.view v).ring.any mine || (match (s.view v).before with | some b => b.slots.any mine | none => false)

/-- What the intake keeps of earlier frames: rows, bands and tiles of the newest frames, and of frames still in their slots;
and the tiles of frames of which a picture is still being written (R192). -/
def State.dropOld (s : State) (e : Nat) : State :=
  let near := (s.condOf e).frames.map CondFrame.serial
  let kept := fun x : Nat × Nat × Nat => x.1 != e || near.contains x.2.1 || (s.slotOf e x.2.1).isSome
  let here := fun r : RowData => r.easel != e || near.contains r.serial
  let s := s.releaseRows fun r => !here r
  { s with link := { s.link with rows := s.link.rows.filter here },
           brush := { s.brush with taken := s.brush.taken.filter kept, closed := s.brush.closed.filter kept,
                                   live := s.brush.live.filter fun x => kept (x.easel, x.serial, x.tile) || s.pictured e x.serial,
                                   readable := s.brush.readable.filter kept } }

/-- What the brushes and the canvas know of an earlier frame with the same serial is forgotten. -/
def State.brushForget (s : State) (e serial : Nat) : State :=
  let other := fun x : Nat × Nat × Nat => !(x.1 == e && x.2.1 == serial)
  let b := s.brush
  { s with brush := { b with ready := b.ready.map fun l => l.filter other, taken := b.taken.filter other, closed := b.closed.filter other,
                             fused := b.fused.filter (fun x => other (x.easel, x.serial, x.tile)),
                             live := b.live.filter (fun x => other (x.easel, x.serial, x.tile)), readable := b.readable.filter other } }

/-- An accepted frame-start (R109, R138 to R143, R150, R178, R222, R283, R284, R418). -/
def State.frameOpen (s : State) (e serial echo : Nat) : State :=
  let t := ((s.endBefore e).windowLate e).targetsLost e serial
  let f := t.newFrame e serial
  let her := t.heritage e
  let t1 := t.updEasel e fun x =>
    { x with frames := f :: x.frames.filter (fun y => y.unsettled || y.serial != serial), accepted := x.accepted + 1,
             first := if x.accepted = 0 then serial else x.first, discard := false, lastRow := none, lastOb := none, spilt := [], slept := [],
             window := some serial, serialHi := if her then serial / 4294967296 else x.serialHi,
             serial32 := if her then some (serial % 4294967296) else x.serial32 }
  let t2 := ((t1.whenB (!f.taken) fun s => s.bump F.PAL_CNT_not_taken e).tick.frameStatus e).echoCheck e serial echo
  let t3 := ((((t2.packForget e serial).brushForget e serial).condFrameStart e serial).palFrameStart e serial).frameSlot e serial
  ((t3.takeFrameStart e serial f.stamp).dropOld e).fullScrape e serial

/-- A checked frame-start of an easel that is open or closing (R97, R109, R111, R129, R130). -/
def State.frameStart (s : State) (e : Nat) (fs0 fs1 fs2 : Option (List Byte)) : State :=
  let st := s.rd F.EASEL_STATUS_state e
  let n := blocksPresent (if s.heritage e then [fs0, fs2] else [fs0, fs1, fs2])
  if st = 0 ∨ st = 3 then s.orphans e n
  else if s.fsBad e fs0 fs1 fs2 then (s.bump F.BRL_EASEL_ERR_fs_err e).updEasel e fun x => { x with discard := true }
  else if s.fsGeometry e fs1 fs2 then
    let g := (s.easelGroups e).headD 0
    ((s.bump F.BRL_EASEL_ERR_geom_err e).updEasel e fun x => { x with discard := true }).raise (groupHalf g) Ev.BRL_GEOMETRY
      (le 1 g ++ le 1 e ++ le 2 (blockField fs2 1 2) ++ le 2 (blockField fs2 3 2))
  else if st = 2 then ((s.endBefore e).updEasel e fun x => { x with discard := true }).orphans e n
  else s.frameOpen e (s.fsSerial e fs0) (blockField fs1 1 4)

/-- FRAME_START_RECEIVE (R97, R109, R111, R124, R129, R130): the stripe is checked, and a frame opens or is refused. Each block is its 8
descrambled payload bytes, none where it is missing; on a group that is not UP all of them are. -/
def execFrameStartReceive (e : Nat) (fs0 fs1 fs2 : Option (List Byte)) (s : State) : Out :=
  if s.lanesOut e || (s.easelGroups e).isEmpty then .next s
  else .next (s.frameStart e (s.onLowest e fs0) (s.onLowest e fs1) (s.onLowest e fs2))

/-! ### Row stripes -/

/-- The block of a lane position in a block time of a stripe. -/
def stripeAt (r : RowStripe) (p t : Nat) : Option StripeBlock := (r.lanes.getD p []).getD t none

/-- The payload of a block with a control header: any other block in a control position is a missing one (R109). -/
def controlOf (b : Option StripeBlock) : Option (List Byte) := b.bind fun x => if x.header = 2 then some x.bytes else none

/-- The payload of a block in a data position: an invalid header passes as data (R109). -/
def dataOf (b : Option StripeBlock) : Option (List Byte) := b.bind fun x => if x.header = 2 then none else some (padTo 8 x.bytes)

/-- The lane header of a position (R96). -/
def stripeLaneHeader (r : RowStripe) (p : Nat) : Option (List Byte) := controlOf (stripeAt r p 0)

/-- Item k of the data blocks and the trailer, on a set of so many lanes (R96). -/
def stripeItem (r : RowStripe) (lanes k : Nat) : Option StripeBlock := stripeAt r (k % max 1 lanes) (1 + k / max 1 lanes)

/-- The n data blocks of a stripe in item order. -/
def stripeData (r : RowStripe) (lanes n : Nat) : List (Option (List Byte)) := (List.range n).map fun k => dataOf (stripeItem r lanes k)

/-- The row's payload as received, zero where a block is missing. -/
def stripePayload (r : RowStripe) (lanes n : Nat) : List Byte := (stripeData r lanes n).flatMap fun d => d.getD (List.replicate 8 0)

/-- The ROW_TRAILER of a stripe. -/
def stripeTrailer (r : RowStripe) (lanes n : Nat) : Option (List Byte) := controlOf (stripeItem r lanes n)

/-- What the headers of a row stripe say (R92, R109): its type and index, from a good ROW_HEADER, or from a good ROW_LANE where the
header is lost. -/
def stripePlace (r : RowStripe) (lanes : Nat) : Option (Bool × Nat) :=
  let hdr := stripeLaneHeader r 0
  if isControl 0x55 hdr || isControl 0x56 hdr then some (blockField hdr 0 1 == 0x56, blockField hdr 2 2)
  else (((List.range lanes).drop 1).find? fun p => isControl 0x57 (stripeLaneHeader r p)).map fun p =>
    (blockField (stripeLaneHeader r p) 4 1 == 1, blockField (stripeLaneHeader r p) 2 2)

/-- The ROW_HEADER fails (R109): lost or a bad check, another easel in native mode, another serial, or a length that differs from R98. -/
def State.headerBad (s : State) (e : Nat) (f : Frame) (r : RowStripe) : Bool :=
  let hdr := stripeLaneHeader r 0
  !(isControl 0x55 hdr || isControl 0x56 hdr) || (!s.heritage e && blockField hdr 1 1 % 4 != e) || blockField hdr 6 1 != f.serial % 256
    || blockField hdr 4 2 != rowBlocks f.obCols f.width f.fmt

/-- The lanes whose ROW_LANE fails (R109): lost or a bad check, or index, type or position that differ. Each counts. -/
def laneHeadersBad (r : RowStripe) (lanes : Nat) (place : Option (Bool × Nat)) : List Nat :=
  ((List.range lanes).drop 1).filter fun p =>
    let h := stripeLaneHeader r p
    !isControl 0x57 h || blockField h 5 1 != p
      || (match place with | some (ob, index) => blockField h 2 2 != index || blockField h 4 1 != b2n ob | none => false)

/-- The row check over the header and the data blocks that came (R107). -/
def stripeCheck (r : RowStripe) (lanes n : Nat) : Nat := crc32c ((stripeLaneHeader r 0).getD [] ++ ((stripeData r lanes n).filterMap id).flatten)

/-- The trailer fails (R109), or a data block is missing under it. -/
def trailerBad (r : RowStripe) (lanes n index : Nat) : Bool :=
  let t := stripeTrailer r lanes n
  !isControl 0x5A t || blockField t 5 2 != index || blockField t 1 4 != stripeCheck r lanes n || (stripeData r lanes n).any Option.isNone

/-- A lane position of a stripe brought a block with an invalid header. -/
def stripeInvalidOn (r : RowStripe) (p : Nat) : Bool :=
  (r.lanes.getD p []).any fun b => match b with | some x => x.header != 1 && x.header != 2 | none => false

/-- The groups a row check error counts for (R110): those that saw an invalid header, a lock loss or a deskew loss, else the one that
carried the trailer. -/
def State.rowBlame (s : State) (e n : Nat) (r : RowStripe) : List Nat :=
  let gs := s.easelGroups e
  let bad := ((withIndex gs).filter fun g => (s.group g.2).saw || (List.range 12).any fun m => stripeInvalidOn r (12 * g.1 + m)).map Prod.snd
  if bad.isEmpty then [gs.getD (n % max 1 (12 * gs.length) / 12) 0] else bad

/-- The row stripe in progress is over, its blocks a row's: what the groups of the set saw in it is told once (R110). -/
def State.sawClear (s : State) (e : Nat) : State :=
  (s.updEasel e fun x => { x with stripe := false, onWay := [0, 0] }).each (s.easelGroups e) fun s g => s.updGroup g fun x => { x with saw := false }

/-- A row check error counts in the easel and in the groups at fault (R110). -/
def State.rowCheckError (s : State) (e n : Nat) (r : RowStripe) : State :=
  (s.bump F.BRL_EASEL_ERR_row_chk_err e).each (s.rowBlame e n r) fun s g => s.bump F.BRL_GRP_ERR_row_chk g

/-- Blocks of a stripe that reached the part: its lane headers, data blocks and trailer, the fill apart (R96, R101). -/
def stripeBlocks (r : RowStripe) (lanes n : Nat) : Nat :=
  ((List.range lanes).filter fun p => (stripeAt r p 0).isSome).length + ((List.range (n + 1)).filter fun k => (stripeItem r lanes k).isSome).length

/-- A stripe without the blocks that the intake discarded (R74), and without those of groups that slept in the frame (R118). -/
def stripeWithout (r : RowStripe) (lost : List (BlockPlace × Nat)) (asleep : List Nat) : RowStripe :=
  { r with lanes := (withIndex r.lanes).map fun l => (withIndex l.2).map fun b =>
      if asleep.contains (l.1 / 12) || lost.any (fun x => x.2 == l.1 && x.1.time == b.1) then none else b.2 }

/-- The discarded blocks of a row (R74): by its type and index; of a stripe that no header tells, all that are not taken yet. -/
def State.rowSpilt (s : State) (e : Nat) (place : Option (Bool × Nat)) : List (BlockPlace × Nat) :=
  match place with
  | some _ => (s.easel e).spilt.filter fun x => x.1.row == place
  | none => (s.easel e).spilt

/-- They are taken with their row. -/
def State.spiltTaken (s : State) (e : Nat) (lost : List (BlockPlace × Nat)) : State :=
  s.updEasel e fun x => { x with spilt := x.spilt.filter fun y => !lost.contains y }

/-- SELFTEST stops when a band becomes ready (R182): a run that was not forced waits for the next blank. -/
def State.selftestStop (s : State) (h : Nat) : State :=
  if (s.calRuns 7 h).any (fun r => r.kind == 7 && r.running && !r.forced) then
    (s.updRun 7 h fun r => { r with running := false }).halfRunning 7 h
  else s

/-- A band among the ready ones: behind those of other frames, and among those of its own frame by index (R133). -/
def insertBand (b : Nat × Nat × Nat) : List (Nat × Nat × Nat) → List (Nat × Nat × Nat)
  | [] => [b]
  | x :: l => if x.1 = b.1 ∧ x.2.1 = b.2.1 ∧ b.2.2 < x.2.2 then b :: x :: l else x :: insertBand b l

/-- The brushes have taken this band or a later one of its frame on its half. -/
def State.bandPassed (s : State) (e serial band : Nat) : Bool :=
  s.brush.taken.any fun x => x.1 == e && x.2.1 == serial && decide (band ≤ x.2.2) && x.2.2 % 2 == band % 2

/-- A band is ready when the first block of the first of its rows to come enters the assembler (R133). A band below one of its frame that
the brushes have already taken is not taken any more (DESIGN CHOICE, log 100). -/
def State.bandReady (s : State) (e serial index : Nat) : State :=
  let h := index / 32 % 2
  let b := (e, serial, index / 32)
  if (s.brush.ready.getD h []).contains b || s.bandPassed e serial (index / 32) then s
  else ({ s with brush := { s.brush with ready := updAt s.brush.ready h (insertBand b) } }).selftestStop h

/-- A row of a frame in the assembler: what it holds of an earlier stripe of that row makes way, but a discarded stripe leaves the earlier
samples and marks the row bad. -/
def State.keepRow (s : State) (row : RowData) (gone : Bool) : State :=
  let same := fun y : RowData => y.easel == row.easel && y.serial == row.serial && y.ob == row.ob && y.index == row.index
  match s.link.rows.find? same with
  | some old =>
    let t := s.whenB (!gone) fun s => s.releaseRows same
    let new := if gone then { old with bad := true } else row
    { t with link := { t.link with rows := new :: t.link.rows.filter fun y => !same y } }
  | none => { s with link := { s.link with rows := row :: s.link.rows } }

/-- A stripe of a row of known type and index is reported to the tracker and taken by the assembler (R101, R109, R146, R151, R152). Its
blocks stay in the intake chains while its band waits for the brushes. spilt: the intake discarded blocks of it. -/
def State.rowTake (s : State) (e : Nat) (f : Frame) (r : RowStripe) (ob : Bool) (index : Nat) (spilt : Bool) : State :=
  let x := s.easel e
  let lanes := 12 * (s.easelGroups e).length
  let n := rowBlocks f.obCols f.width f.fmt
  let hdrErr := s.headerBad e f r
  let last := if ob then x.lastOb else x.lastRow
  let order := !hdrErr && (match last with | some n => decide (index ≤ n) | none => false)
  let gone := hdrErr || order
  let badLanes := laneHeadersBad r lanes (some (ob, index))
  let chk := trailerBad r lanes n index
  let result := if gone then 2 else if !badLanes.isEmpty || chk || spilt then 1 else 0
  let trailer := stripeTrailer r lanes n
  let check := if isControl 0x5A trailer then some (blockField trailer 1 4) else none
  let t := (((s.whenB hdrErr fun s => s.bump F.BRL_EASEL_ERR_hdr_err e).whenB order fun s => s.bump F.BRL_EASEL_ERR_order_err e).bump
    F.BRL_EASEL_ERR_lane_hdr_err e 0 badLanes.length).whenB (result != 0) fun s => s.rowCheckError e n r
  let t1 := (t.sawClear e).updEasel e fun x =>
    { x with lastOb := if ob && !gone then some index else x.lastOb,
             lastRow := if !ob && !gone then some index else x.lastRow }
  let report : RowReport :=
    { easel := e, serial := f.serial, ob := ob, index := index, result := result, check := check, spilt := spilt, blocks := n }
  let mine := if ob then decide (index < f.obRows) else decide (index < f.height)
  let waits := mine && !ob && !gone && !s.bandPassed e f.serial (index / 32)
  let blocks := stripeBlocks r lanes n
  let row : RowData := { easel := e, serial := f.serial, ob := ob, index := index, bad := result != 0,
                         data := if gone then [] else stripePayload r lanes n, held := if waits then blocks else 0 }
  let t2 : State := { t1 with link := { t1.link with reports := t1.link.reports ++ [report] } }
  ((t2.whenB (!waits) fun s => s.intakeFree (homeHalf ob index) blocks).whenB mine fun s => s.keepRow row gone).whenB (mine && !ob) fun s =>
    s.bandReady e f.serial index

/-- A stripe none of whose lane headers is good (R109, R110): its row cannot be reported; the frame has a row check error, and an overrun
where blocks of it were discarded (R149). -/
def State.rowUnread (s : State) (e : Nat) (f : Frame) (r : RowStripe) (spilt : Bool) : State :=
  let lanes := 12 * (s.easelGroups e).length
  let n := rowBlocks f.obCols f.width f.fmt
  let t := ((s.bump F.BRL_EASEL_ERR_hdr_err e).bump F.BRL_EASEL_ERR_lane_hdr_err e 0 (laneHeadersBad r lanes none).length).rowCheckError e n r
  (t.sawClear e).whenB spilt fun s =>
    s.updFrame e f.serial fun y => { y with fault := setFault (setFault y.fault 2) 5 }

/-- The places in a set of its groups that slept in the current frame (R118). -/
def State.sleepers (s : State) (e : Nat) : List Nat := ((withIndex (s.easelGroups e)).filter fun g => s.slept e g.2).map Prod.fst

/-- The discarded blocks among those of a stripe that came (R74), and the stripe without them and without what sleeping groups carried
(R118). -/
def State.stripeLost (s : State) (e : Nat) (stripe : RowStripe) : List (BlockPlace × Nat) :=
  s.rowSpilt e (stripePlace (stripeWithout stripe [] (s.sleepers e)) (12 * (s.easelGroups e).length))

def State.stripeKept (s : State) (e : Nat) (stripe : RowStripe) : RowStripe :=
  stripeWithout (stripeWithout stripe [] (s.sleepers e)) (s.stripeLost e stripe) []

/-- The half that took a stripe's blocks in: the home half of its row, or of the row the set was receiving where no header tells it. -/
def State.stripeHome (s : State) (e : Nat) (place : Option (Bool × Nat)) : Nat :=
  match place with
  | some p => homeHalf p.1 p.2
  | none => ((s.link.rowNow.getD e none).map fun p => homeHalf p.1 p.2).getD 0

/-- A stripe of no frame that takes rows (R109): its blocks leave the intake as orphans. -/
def State.stripeDropped (s : State) (e : Nat) (stripe : RowStripe) : State :=
  let r := s.stripeKept e stripe
  let lanes := 12 * (s.easelGroups e).length
  let n := stripeBlocks r lanes (s.rowLength e)
  ((((s.spiltTaken e (s.stripeLost e stripe)).intakeFree (s.stripeHome e (stripePlace r lanes)) n).orphans e n).sawClear e)

/-- A stripe whose row no lane header tells (R109): its blocks leave the intake, and its errors count. -/
def State.stripeUnread (s : State) (e : Nat) (f : Frame) (stripe : RowStripe) : State :=
  let r := s.stripeKept e stripe
  let lanes := 12 * (s.easelGroups e).length
  (((s.spiltTaken e (s.stripeLost e stripe)).intakeFree (s.stripeHome e none) (stripeBlocks r lanes (rowBlocks f.obCols f.width f.fmt))).rowUnread
    e f r !(s.stripeLost e stripe).isEmpty)

/-- ROW_STRIPE_RECEIVE (R74, R96, R101, R109, R110, R118, R151): the stripe leaves the deskew buffers, without the blocks that the intake
discarded, is checked and reported. Without a frame that takes rows its blocks are orphans. -/
def execRowStripeReceive (e : Nat) (stripe : RowStripe) (s : State) : Out :=
  if !s.setUp e || s.lanesOut e then .next s
  else if (s.easel e).discard then .next (s.stripeDropped e stripe)
  else match s.current e, stripePlace (s.stripeKept e stripe) (12 * (s.easelGroups e).length) with
    | none, _ => .next (s.stripeDropped e stripe)
    | some f, some p =>
      .next ((s.spiltTaken e (s.stripeLost e stripe)).rowTake e f (s.stripeKept e stripe) p.1 p.2 !(s.stripeLost e stripe).isEmpty)
    | some f, none => .next (s.stripeUnread e f stripe)

/-! ### Brushes -/

/-- A view takes bands of a frame from the brushes: by the set the frame keeps it is enabled, of the easel, its crop inside the set, and the
frame's colour path live (R192, R222, R223). -/
def State.liveView (s : State) (v e : Nat) (f : Frame) (g : StatFrame) : Bool :=
  let r := s.viewSet v e f.serial
  f.taken && f.st != .scraped && !regOn g.pal F.PAL_CTRL_source e && regOn r F.VIEW_CTRL_enable v && regOf r F.VIEW_CTRL_easel v == e
    && !g.noCrop.contains v

/-- The live views whose input chain was full read a band from the canvas (R76, R193, R285). The band counts once; the first of a frame
raises the event. -/
def State.bandFallback (s : State) (h e serial band : Nat) (full : List Nat) : State :=
  match s.frame e serial, s.statFrame e serial with
  | some f, some g =>
    let l := (List.range 8).filter fun v => full.contains v && s.liveView v e f g
    if l.isEmpty then s
    else
      let t := ((s.flagCount F.PAL_FLAGS_canvas_fallback F.PAL_CNT_canvas_fallback e).whenB g.fallback.isEmpty fun s =>
        s.raise 0 Ev.PAL_CANVAS_FALLBACK (framePayload e serial f.fault)).updPal e fun p =>
          { p with frames := p.frames.map fun y =>
              if y.serial = serial then { y with fallback := y.fallback ++ l.map fun v => (v, band) } else y }
      match t.slotOf e serial with
      | some k => t.takeHold e k h .colour
      | none => t
  | _, _ => s

/-- A forced SELFTEST has a half's brushes out of service (R186). -/
def State.brushesOut (s : State) (h : Nat) : Bool :=
  (s.condHalf.getD h HalfCal.init).runs.any fun r => r.kind == 7 && r.forced && r.running

/-- BRUSH_BAND_START (R74, R133, R134): the half's brushes take its oldest ready band, whose rows make room in the intake. full: the live
views whose input chain is full at it (R76). -/
def execBrushBandStart (h : Nat) (full : List Nat) (s : State) : Out :=
  match s.brush.ready.getD h [] with
  | [] => .next s
  | b :: rest =>
    if s.brushes h = 0 ∨ s.brushesOut h = true then .next s
    else
      let t : State := { s with brush := { s.brush with ready := s.brush.ready.set h rest, prev := s.brush.prev.set h (some b.1),
                                                        taken := b :: s.brush.taken } }
      let mine := fun r : RowData => r.easel == b.1 && r.serial == b.2.1 && !r.ob && r.index / 32 == b.2.2
      .next ((t.releaseRows mine).bandFallback h b.1 b.2.1 b.2.2 full)

/-- The 32 rows of a band as a brush sees them. -/
def State.bandRows (s : State) (e : Nat) (f : Frame) (cf : CondFrame) (band : Nat) : List BrushRow :=
  (List.range 32).map fun j => s.brushRow e f cf (32 * band + j)

/-- The photosites of a tile through the brush, row by row, with their place. -/
def tileSites (rows : List BrushRow) (x0 : Nat) : List (Nat × Nat × Nat × Bool × Bool) :=
  rows.flatMap fun r => (List.range 64).map fun i => (x0 + i, r.y, r.site (x0 + i))

/-- The FUSE sums of a tile by column (R180). -/
def tileFuse (rows : List BrushRow) (x0 : Nat) : List (Nat × Int × Int × Nat) :=
  rows.flatMap fun r => (List.range 64).filterMap fun i => (r.fuseSite (x0 + i)).map fun p => (x0 + i, p.1, p.2, 1)

/-- A link tile (R151): 32 rows of 64 photosites as packed on the link, zero where a row is discarded or not reported (R152). -/
def State.linkTile (s : State) (e : Nat) (f : Frame) (tile : Nat) : List Byte :=
  let b := formatBits f.fmt
  let cols := max 1 (f.width / 64)
  (List.range 32).flatMap fun j =>
    match (s.rowsOf e f.serial false).find? fun r => r.index == 32 * (tile / cols) + j with
    | some r => le (8 * b) (ofLe r.data / 2 ^ (b * (f.obCols + 64 * (tile % cols))) % 2 ^ (64 * b))
    | none => List.replicate (8 * b) 0

/-- Row j of a band with the photosites of a tile as its brush read them. -/
def BrushRow.reads (r : BrushRow) (tile j : Nat) (seen : List Byte) : BrushRow :=
  let b := formatBits r.frame.fmt
  let a := r.frame.obCols + 64 * (tile % max 1 (r.frame.width / 64))
  { r with sites := (r.sites ++ List.replicate (a - r.sites.length) 0).take a
      ++ photosites r.frame.fmt 64 (bytesAt seen (8 * b * j) (8 * b)) ++ r.sites.drop (a + 64) }

/-- The rows of a tile's band with the tile as its brush read it. -/
def readRows (rows : List BrushRow) (tile : Nat) : Option (List Byte) → List BrushRow
  | none => rows
  | some seen => (withIndex rows).map fun p => p.2.reads tile p.1 seen

/-- A tile of a band leaves the brush with its record (R23, R28, R32, R158 to R177). -/
def State.tileClose (s : State) (e : Nat) (f : Frame) (cf : CondFrame) (tile : Nat) (rows : List BrushRow) (damaged : Bool) : State :=
  let cols := max 1 (f.width / 64)
  let x0 := 64 * (tile % cols)
  let band := tile / cols
  let sites := tileSites rows x0
  let samples := sites.map fun p => p.2.2.1
  let data := samples.flatMap (le 2)
  let hits := (sites.filter fun p => p.2.2.2.1).map fun p => p.1 + 32768 * p.2.1
  let kept := (sites.filter fun p => p.2.2.2.2).length
  let out : FusedTile := { easel := e, serial := f.serial, tile := tile,
                           record := tileRecord (crc32c data) (5 + 2 * b2n damaged) tile 0, data := data }
  let t := (s.bump F.COND_CNT_detected e 0 hits.length).bump F.COND_CNT_uncorrectable e 0 kept
  let t1 := t.updCondFrame e f.serial fun c => { c with hits := c.hits ++ hits, fuse := addFuse c.fuse (tileFuse rows x0) }
  let t2 := t1.statTile e f.serial f.width f.height x0 (32 * band) samples damaged
  let t3 := t2.whenB damaged fun s => s.tileHurt e f.serial
  let weak := ((List.range 32).flatMap fun j => s.weakChannels e f cf (32 * band + j)).eraseDups
  let t4 := t3.whenB (f.blackSource == 2) fun s => s.reportWeak e cf weak
  { t4 with brush := { t4.brush with fused := t4.brush.fused ++ [out], live := out :: t4.brush.live,
                                     closed := (e, f.serial, tile) :: t4.brush.closed } }

/-- TILE_CLOSE (R23, R24, R36, R151, R152, R169): brushes of the half are powered; a band of which no row came in makes no tile, and with the row source the tile waits for
B(c). seen: what the brush read in place of the link tile, none for the tile as it was formed. A link tile whose intake CRC fails counts
in the easel's intake and is damaged. -/
def execTileClose (e serial tile : Nat) (seen : Option (List Byte)) (s : State) : Out :=
  match s.frame e serial, s.condFrame e serial with
  | some f, some cf =>
    let band := tile / max 1 (f.width / 64)
    let here := s.link.rows.filter fun r => r.easel == e && r.serial == serial && !r.ob && r.index / 32 == band
    if !s.brush.taken.contains (e, serial, band) || s.brush.closed.contains (e, serial, tile) || here.isEmpty
        || decide (f.height / 32 ≤ band) || (f.blackSource == 1 && cf.black.isNone) || s.brushesOut (band % 2) || s.brushes (band % 2) == 0 then .next s
    else
      let whole := (List.range 32).all fun j => here.any fun r => r.index == 32 * band + j && !r.bad
      let crcOk := match seen with | none => true | some l => crc32c l == crc32c (s.linkTile e f tile)
      let t := s.whenB (!crcOk) fun s => s.countUp (.intakeCrc e)
      .next (t.tileClose e f cf tile (readRows (s.bandRows e f cf band) tile seen) (!whole || !crcOk)).viewsRun
  | _, _ => .next s

/-- CANVAS_WRITE_DONE (R70, R281): the tile and its record are readable in the frame's slot, and the pictures in progress go on (R449). -/
def execCanvasWriteDone (e serial tile : Nat) (s : State) : Out :=
  let mine := fun x : FusedTile => x.easel == e && x.serial == serial && x.tile == tile
  match s.brush.fused.find? mine with
  | none => .next s
  | some x =>
    let t : State := { s with brush := { s.brush with fused := s.brush.fused.filter fun y => !mine y } }
    match t.slotOf e serial with
    | none => .next t
    | some k =>
      let c := t.canvas e
      let t1 := (t.put (c.tileAddr k tile) x.data).put (c.recAddr k tile) x.record
      .next ({ t1 with brush := { t1.brush with readable := t1.brush.readable ++ [(e, serial, tile)] } } : State).viewsRun

/-! ### View pictures -/

/-- VIEW_PICTURE_START (R192, R220, R222, R285, R448): a view takes the next free ring slot for a picture of a frame and offers it to the
stream contexts, or drops it. In canvas mode the colour path holds the frame's slot. -/
def execViewPictureStart (v serial : Nat) (s : State) : Out :=
  let e := s.viewEaselOf v serial
  match s.frame e serial with
  | none => .next s
  | some f =>
    let canvas := match s.statFrame e serial with | some g => regOn g.pal F.PAL_CTRL_source e | none => false
    let slot := s.slotOf e serial
    if !s.viewMay v e f || (canvas && slot.isNone) then .next s
    else
      let r := s.pictureStart v e f
      let t := match r.2 with | some k => r.1.sketchOffer v k e f | none => r.1
      match slot with
      | some k => .next (t.whenB (canvas && t.pictured e serial) fun s => (s.takeHold e k 0 .colour).takeHold e k 1 .colour).viewsRun
      | none => .next t.viewsRun

/-! ### Settle notices -/

/-- Bound tickets learn what became of their target (R143). -/
def State.ticketNotice (s : State) (e serial : Nat) : State :=
  match s.frame e serial with
  | none => s
  | some f =>
    let st := if f.st = .scraped then St.TARGET_LOST else if f.st = .damaged then St.TARGET_DAMAGED else 0
    (s.updEasel e fun x => { x with bound := x.bound.map fun b =>
      if b.target = serial ∧ b.outcome.isNone then { b with outcome := some st } else b }).ticketCheck e

/-- The canvas slot of a frame (R153, R283): SETTLED, or SCRAPED with the colour path's reads given up. -/
def State.canvasNotice (s : State) (e serial : Nat) : State :=
  match s.frame e serial, s.slotOf e serial with
  | some f, some k =>
    if f.st = .scraped then
      let t := s.updSlot e k fun x => { x with st := .scraped, holds := x.holds.filter fun y => y.2 ≠ .colour }
      ({ t with brush := { t.brush with fused := t.brush.fused.filter fun y => !(y.easel == e && y.serial == serial) } }).slotCheck e k
    else (s.updSlot e k fun x => { x with st := .settled }).slotCheck e k
  | _, _ => s

/-- What a consumer does with a settle notice (R153). -/
def State.notice (s : State) (c : Consumer) (e serial : Nat) : State :=
  match c with
  | .ticket => s.ticketNotice e serial
  | .column => s.columnNotice e serial
  | .stats => s.statsNotice e serial
  | .view => s.viewNotice e serial
  | .canvas => s.canvasNotice e serial
  | .packer => s.packNotice e serial
  | .magazine => s.storeNotice e serial
  | .barrow => s.barrowNotice e serial
  | .sketch => s.sketchNotice e serial
  | .raster => s.rasterNotice e serial
  | .sender => s.senderNotice e serial

/-- SETTLE_NOTICE (R153): the consumer takes the notice of a frame that was broadcast to it. -/
def execSettleNotice (c : Consumer) (e serial : Nat) (s : State) : Out :=
  if s.notices.contains (c, e, serial) then
    .next (({ s with notices := s.notices.erase (c, e, serial) }).notice c e serial)
  else .next s

/-! ### Abort -/

/-- EASEL_ABORT (R128, R130, R421): every unsettled frame is scraped and counted for its take, the take then ends, and the easel is closed; an open in progress
is cancelled; a closed easel is left as it is. -/
def execEaselAbort (e : Nat) (s : State) : Out :=
  let st := s.rd F.EASEL_STATUS_state e
  if st = 0 then .next s
  else if st = 3 then .next ((s.wr F.EASEL_CTRL_open 0 e).wr F.EASEL_STATUS_state 0 e)
  else
    let wet := ((s.easel e).frames.filter Frame.unsettled).map Frame.serial
    let t := ((s.scrapeAll e).each wet fun s k => s.scrapedOut e k).endTake e St.EASEL_CLOSED 1 keepNone
    .next (if t.rd F.EASEL_STATUS_state e = 0 then t else t.easelClosed e)

end Sys2Proof.Machine
end

