-- ==== Sys2Proof/Machine/Pace.lean ====
section
/-! DEFINITION. The pace meters and the published step codes (spec/02 R56 to R64). -/
namespace Sys2Proof.Machine

/-- The fields of one half. -/
def slowFld (h : Nat) : Fld := if h = 0 then F.GLB_PACE_W_slow else F.GLB_PACE_E_slow
def meanFld (h : Nat) : Fld := if h = 0 then F.GLB_PACE_W_mean else F.GLB_PACE_E_mean
def fastFld (h : Nat) : Fld := if h = 0 then F.GLB_PACE_FAST_fast_w else F.GLB_PACE_FAST_fast_e
def staleFld (h : Nat) : Fld := if h = 0 then F.GLB_PACE_STATUS_stale_w else F.GLB_PACE_STATUS_stale_e
def countedFld (h : Nat) : Fld := if h = 0 then F.GLB_PACE_STATUS_counted_w else F.GLB_PACE_STATUS_counted_e

/-- The greatest step code (R61). -/
def stepCap (v : Nat) : Nat := min 65535 v

/-- A period more than 15% from the median (R59). -/
def paceOff (med p : Frac) : Bool := Frac.lt (Frac.mul med (15, 100)) (Frac.abs (Frac.sub p med))

/-- A meter is declared faulty (R59). -/
def State.meterFault (s : State) (h m count : Nat) : State :=
  ((s.wr (faultyFld h) (setBit (s.rd (faultyFld h)) m true)).flagCount F.GLB_FLAGS_pace_fault F.GLB_CNT_pace_fault).raise h Ev.GLB_PACE_FAULT
    (le 1 h ++ le 1 m ++ le 2 (stepCap (openRound 14 (Frac.mk' paceGate count)).toNat))

/-- What a half publishes of its counted meters (R60, R61): with fewer than 8 it keeps its values and is stale. -/
def State.pacePublish (s : State) (h : Nat) (counts : List Nat) : State :=
  let t := s.wr (countedFld h) counts.length
  if counts.length < 8 then t.wr (staleFld h) 1
  else
    let sum := counts.foldl (fun a c => Frac.norm (Frac.add a (Frac.mk' paceGate c))) (0, 1)
    let mean := (Frac.round (Frac.mul sum (Frac.mk' 1 counts.length))).toNat
    (((t.wr (staleFld h) 0).wr (slowFld h) (stepCap (ceilDiv paceGate (listMin counts)))).wr (fastFld h)
      (stepCap (paceGate / listMax counts))).wr (meanFld h) (stepCap mean)

/-- The sample of one half: nothing while its AON domain is held in reset (R57). -/
def State.paceHalf (s : State) (h : Nat) (counts : List (Option Nat)) : State :=
  if !s.released h then s
  else
    let got := s.metersCounted h counts
    let med := paceMedian (got.map fun p => Frac.mk' paceGate p.2)
    let bad := got.filter fun p => paceOff med (Frac.mk' paceGate p.2)
    let t := s.each bad fun s p => s.meterFault h p.1 p.2
    t.pacePublish h ((got.filter fun p => !bad.contains p).map Prod.snd)

/-- EV_GLB_PACE_SLOW of an open easel (R64): raised when the device period exceeds its required one, and armed again below 97% of it. -/
def State.paceSlow (s : State) (e : Nat) : State :=
  let code := s.rd F.GLB_PACE_DEV_code
  let req := s.rd F.EASEL_ADMIT_req_code e
  let x := s.easel e
  if code * 100 < req * 97 then s.updEasel e fun x => { x with slow := false }
  else if req < code ∧ x.slow = false then
    ((s.updEasel e fun x => { x with slow := true }).flagCount F.GLB_FLAGS_pace_slow F.GLB_CNT_pace_slow).raise s.holder Ev.GLB_PACE_SLOW
      (le 2 code ++ le 2 req ++ le 1 e)
  else s

/-- PACE_SAMPLE (R57 to R64, R604): the counts of the meters of each half in the gate, none for a meter left out by R58. The device code
is the larger slowest code; the sample count goes up. -/
def execPaceSample (west east : List (Option Nat)) (s : State) : Out :=
  if !s.released 0 && !s.released 1 then .next s
  else
    let t := (s.paceHalf 0 west).paceHalf 1 east
    let t1 := (t.wr F.GLB_PACE_DEV_code (max (t.rd F.GLB_PACE_W_slow) (t.rd F.GLB_PACE_E_slow))).wr F.GLB_PACE_DEV_sample
      (t.rd F.GLB_PACE_DEV_sample + 1)
    .next ((t1.each t1.openEasels State.paceSlow).boostRaise)

end Sys2Proof.Machine
end

