-- ==== Sys2Proof/Machine/RegWrite.lean ====
section
/-! DEFINITION. BAR0 writes and reads (spec/20 R639 to R645): finding a register, the writes that a field refuses, what a write sets off,
reads with their latches, and the accesses that are no good. -/
namespace Sys2Proof.Machine

/-! ### The register map -/

/-- The instance of a register that an offset names. -/
def Reg.instanceAt (r : Reg) (off : Nat) : Option (Nat × Nat) :=
  if off < r.base then none
  else
    let d := off - r.base
    let i := if r.stride = 0 then 0 else d / r.stride
    let rem := if r.stride = 0 then d else d % r.stride
    let j := if r.stride2 = 0 then 0 else rem / r.stride2
    if i < r.n ∧ j < r.m ∧ rem = j * r.stride2 then some (i, j) else none

/-- The register at an offset of BAR0, with its instance (R639). -/
def findReg (off : Nat) : Option (Reg × Nat × Nat) := allRegs.findSome? fun r => (r.instanceAt off).map fun p => (r, p.1, p.2)

/-- The field of a register word. -/
def Fld.of (f : Fld) (v : Nat) : Nat := v / 2 ^ f.lo % 2 ^ f.width

/-- A field whose place another field's access names. -/
def fieldFor (base lo : Nat) : Option Fld := allRegs.findSome? fun r => r.fields.find? fun f => f.base == base && f.lo == lo

/-! ### Refused writes -/

/-- Registers whose writes have command rows of their own. -/
def ownRows : List Nat :=
  [F.GLB_EV_TEST_value.base, F.RING_SQ_CFG_enable.base, F.RING_CQ_CFG_enable.base, F.BARROW_CH_CTRL_enable.base,
   F.PWR_ON_on.base, F.RST_DOMAIN_hold.base, F.AGE_MODE0_req_code.base,
   F.AGE_MODE1_req_code.base, F.AGE_MODE2_req_code.base, F.BRL_GRP_CFG_enable.base, F.EASEL_CTRL_open.base, F.AUD_REC_CTRL_run.base,
   F.AUD_TPORT_CTRL_enable.base, F.AUD_APORT_CTRL_enable.base]

/-- Anything that uses the doorbell page is enabled. -/
def State.anyRing (s : State) : Bool :=
  (List.range 16).any (fun r => s.on F.RING_SQ_CFG_enable r || s.on F.RING_CQ_CFG_enable r)
    || (List.range 32).any (fun c => s.on F.BARROW_CH_CTRL_enable c) || s.on F.RING_EVQ_CFG_enable

/-- A value outside a range. -/
def outside (lo hi v : Nat) : Bool := decide (v < lo) || decide (hi < v)

/-- RING, BARROW, FW, RST and THM registers. -/
def State.refusesA (s : State) (b i v : Nat) : Bool :=
  if b = F.RING_DB_BASE_LO_value.base ∨ b = F.RING_DB_BASE_HI_value.base then s.anyRing
  else if b = F.RING_POLL_interval.base then outside 1 128 (F.RING_POLL_interval.of v)
  else if b = F.RING_SQ_BASE_LO_value.base ∨ b = F.RING_SQ_BASE_HI_value.base then s.on F.RING_SQ_CFG_enable i
  else if b = F.RING_CQ_BASE_LO_value.base ∨ b = F.RING_CQ_BASE_HI_value.base then s.on F.RING_CQ_CFG_enable i
  else if b = F.BARROW_CH_HEAD_LO_value.base ∨ b = F.BARROW_CH_HEAD_HI_value.base then
    s.rd F.BARROW_CH_STATUS_state i == 1 || s.rd F.BARROW_CH_STATUS_state i == 2
  else if b = F.FW_CFG_drain_ms.base then outside 1 60000 (F.FW_CFG_drain_ms.of v)
  else if b = F.RST_IDLE_TIMEOUT_us.base then F.RST_IDLE_TIMEOUT_us.of v == 0
  else if b = F.RST_WDT_timeout_ms.base then outside 1 64 (F.RST_WDT_timeout_ms.of v)
  else if b = F.THM_CFG_grace.base then
    outside 5 100 (F.THM_CFG_grace.of v) || outside 5 100 (F.THM_CFG_rise.of v) || outside 1 255 (F.THM_CFG_release.of v)
      || outside 1 100 (F.THM_CFG_shed_step.of v)
  else false

/-- The registers of a reference pool. -/
def isPoolReg (b : Nat) : Bool := b == F.VCD_POOL_BASE_LO_value.base || b == F.VCD_POOL_BASE_HI_value.base || b == F.VCD_POOL_SIZE_value.base

/-- A write that would leave a pool of nonzero size outside the half's SKETCH regions (R279; DEDUCED, log 113). -/
def State.poolOutside (s : State) (b i v : Nat) : Bool :=
  let f := if b = F.VCD_POOL_BASE_LO_value.base then F.VCD_POOL_BASE_LO_value
    else if b = F.VCD_POOL_BASE_HI_value.base then F.VCD_POOL_BASE_HI_value else F.VCD_POOL_SIZE_value
  let t := s.wr f v i
  t.rd F.VCD_POOL_SIZE_value i != 0 && !t.poolPlaced i

/-- EASEL, COND, LZP, HBM, MAG and VCD registers. -/
def State.refusesB (s : State) (b i v : Nat) : Bool :=
  if b = F.EASEL_GEOM_width.base ∨ b = F.EASEL_FMT_format.base ∨ b = F.EASEL_RATE_rate_mfps.base ∨ b = F.EASEL_TICKET_START_us.base
      ∨ b = F.EASEL_TICKET_LEAD_us.base then s.rd F.EASEL_STATUS_state i != 0
  else if b = F.COND_CAL_CFG_threshold.base then outside 5 80 (F.COND_CAL_CFG_threshold.of v)
  else if b = F.COND_BLACK_CFG_shift.base then outside 0 8 (F.COND_BLACK_CFG_shift.of v)
  else if b = F.LZP_CTRL_enable.base then
    let en := F.LZP_CTRL_enable.of v
    let base := s.pair F.LZP_RING_BASE_LO_value F.LZP_RING_BASE_HI_value i
    (en == 0 && s.on F.LZP_CTRL_enable i && (List.range 4).any (fun e => s.takeOpen e && s.on F.TAKE_STATUS_packed e))
      || (en == 1 && !s.on F.LZP_CTRL_enable i && !(base % 4096 == 0 && s.inRegion base (48 * s.laneSize i) 3 i))
  else if b = F.LZP_RING_BASE_LO_value.base ∨ b = F.LZP_RING_BASE_HI_value.base then s.on F.LZP_CTRL_enable i
  else if b = F.LZP_RING_LANE_lane_4k.base then s.on F.LZP_CTRL_enable i || outside 2 65535 (F.LZP_RING_LANE_lane_4k.of v)
  else if b = F.HBM_RH_CFG_threshold.base then
    outside 256 65535 (F.HBM_RH_CFG_threshold.of v) || outside 1 2 (F.HBM_RH_CFG_reach.of v)
  else if b = F.MAG_ELASTIC_CFG_lane_pct.base then outside 10 90 (F.MAG_ELASTIC_CFG_lane_pct.of v)
  else if b = F.MAG_PWR_CFG_ramp_ms.base then outside 5 255 (F.MAG_PWR_CFG_ramp_ms.of v)
  else if b = F.VCD_SC_CTRL_mode.base then
    F.VCD_SC_CTRL_profile.of v == 3 || F.VCD_SC_CTRL_mode.of v == 3 || F.VCD_SC_CTRL_cores.of v == 0
  else if isPoolReg b then !(s.poolOf i).isEmpty || s.poolOutside b i v
  else false

/-- Bits of a TDM slot by slot_bits code (R506). -/
def tdmSlotBits (c : Nat) : Nat := if c = 0 then 16 else if c = 1 then 24 else 32

/-- Slots, slot bits and frame rate beyond 24.576 MHz (R506), by the register codes and the master's rate. -/
def tdmTooFast (slots bits mult rate : Nat) : Bool := decide (24576000 < (slots + 1) * tdmSlotBits bits * (rate * (mult + 1)))

/-- RAS, AUD and NET registers. -/
def State.refusesC (s : State) (b i v : Nat) : Bool :=
  let run := s.on F.AUD_REC_CTRL_run
  if b = F.RAS_OUT_CTRL_enable.base then
    F.RAS_OUT_CTRL_lock.of v == 3
      || (decide (1 ≤ i ∧ i < 4) && s.on F.RAS_OUT_CTRL_quad && F.RAS_OUT_CTRL_enable.of v != s.rd F.RAS_OUT_CTRL_enable i)
      || (i == 0 && F.RAS_OUT_CTRL_quad.of v == 1 && [1, 2, 3].any (fun o => s.on F.RAS_OUT_CTRL_enable o))
  else if b = F.AUD_MASTER_CFG_lock.base then
    F.AUD_MASTER_CFG_lock.of v == 3 || (run && F.AUD_MASTER_CFG_rate.of v != s.rd F.AUD_MASTER_CFG_rate)
      || (List.range 4).any (fun p => tdmTooFast (s.rd F.AUD_TDM_CFG_slots p) (s.rd F.AUD_TDM_CFG_slot_bits p) (s.rd F.AUD_TDM_CFG_mult p)
          (if F.AUD_MASTER_CFG_rate.of v = 1 then 96000 else 48000))
  else if b = F.AUD_REC_CFG_channels.base then
    outside 1 64 (F.AUD_REC_CFG_channels.of v)
      || (s.wr F.AUD_REC_CFG_channels (F.AUD_REC_CFG_channels.of v)).mapBad || (run && F.AUD_REC_CFG_channels.of v != s.rd F.AUD_REC_CFG_channels)
  else if b = F.AUD_RING_BASE_LO_value.base ∨ b = F.AUD_RING_BASE_HI_value.base then run
  else if b = F.AUD_RING_BLOCKS_value.base then run || outside 2 65535 (F.AUD_RING_BLOCKS_value.of v)
  else if b = F.AUD_TDM_CFG_slots.base then
    s.on F.AUD_TPORT_CTRL_enable i || F.AUD_TDM_CFG_slot_bits.of v == 3 || F.AUD_TDM_CFG_slots.of v == 0 || F.AUD_TDM_CFG_format.of v == 3
      || tdmTooFast (F.AUD_TDM_CFG_slots.of v) (F.AUD_TDM_CFG_slot_bits.of v) (F.AUD_TDM_CFG_mult.of v) s.masterRate
  else if b = F.AUD_TPORT_MAP_span.base then
    run || decide (F.AUD_TPORT_MAP_span.of v < (maskBits 16 (s.unitMask i)).length)
      || ((s.wr F.AUD_TPORT_MAP_span (F.AUD_TPORT_MAP_span.of v) i).wr F.AUD_TPORT_MAP_base (F.AUD_TPORT_MAP_base.of v) i).mapBad
  else if b = F.AUD_APORT_MAP_span.base then
    run || decide (F.AUD_APORT_MAP_span.of v < (maskBits 2 (s.unitMask (4 + i))).length)
      || ((s.wr F.AUD_APORT_MAP_span (F.AUD_APORT_MAP_span.of v) i).wr F.AUD_APORT_MAP_base (F.AUD_APORT_MAP_base.of v) i).mapBad
  else if b = F.AUD_AES_NA_CFG_hold.base then outside 256 65535 (F.AUD_AES_NA_CFG_hold.of v)
  else if b = F.NET_PORT_CFG_fec.base then F.NET_PORT_CFG_fec.of v == 3
  else if b = F.NET_PTP_CFG_domain.base then outside 0 127 (F.NET_PTP_CFG_domain.of v)
  else if b = F.NET_PTP_SERVO_lock_ns.base then outside 50 65535 (F.NET_PTP_SERVO_lock_ns.of v)
  else if b = F.NET_RX_CFG_slots.base then outside 16 4096 (F.NET_RX_CFG_slots.of v)
  else if b = F.NET_SND_CTRL_ports.base then F.NET_SND_CTRL_ports.of v == 0 || outside 0 2 (F.NET_SND_CTRL_kind.of v)
  else false

/-- The flag a refused write of a block sets (R642), by the place of the register, with the flag's instance. -/
def State.refuseFlag (s : State) (b i : Nat) : State :=
  if b < 0x200000 then s.wr F.RING_FLAGS_cfg_refused 1
  else if b < 0x300000 then s.wr F.BARROW_FLAGS_cfg_refused 1
  else if b < 0x400000 then s.wr F.FW_FLAGS_cfg_refused 1
  else if b < 0x500000 then s.flagCount F.RST_FLAGS_cfg_refused F.RST_CNT_cfg_refused
  else if b < 0x600000 then s.wr F.THM_FLAGS_cfg_refused 1
  else if b < 0x800000 then s.wr F.BRL_GRP_FLAGS_cfg_refused 1 i
  else if b < 0x900000 then s.wr F.EASEL_FLAGS_cfg_refused 1 i
  else if b < 0xA00000 then s.wr F.COND_FLAGS_cfg_refused 1 i
  else if b < 0xD00000 then s.wr F.LZP_FLAGS_cfg_refused 1 i
  else if b < 0xE00000 then s
  else if b < 0x1000000 then s.wr F.MAG_FLAGS_cfg_refused 1 i
  else if b < 0x1010000 then s.wr F.VCD_SC_FLAGS_cfg_refused 1 i
  else if b < 0x1100000 then s
  else if b < 0x1200000 then s.wr F.RAS_OUT_FLAGS_cfg_refused 1 i
  else if b < 0x1300000 then s.wr F.AUD_FLAGS_cfg_refused 1
  else s.wr F.NET_FLAGS_cfg_refused 1

/-! ### Accepted writes -/

/-- The fields a write sets: RW ones, the enable of the event queue, and the WO words of SES_MAC, which its block keeps. SDI0 alone has a quad field (R482). -/
def State.writeFields (s : State) (r : Reg) (i j v : Nat) : State :=
  s.each r.fields fun s f =>
    if f.acc = .rw then (if f = F.RAS_OUT_CTRL_quad ∧ i ≠ 0 then s else s.wr f (f.of v) i j)
    else if f = F.RING_EVQ_CFG_enable ∨ f = F.SES_MAC_value then s.wr f (f.of v) i j
    else s

/-- What a write sets off beside its fields. -/
def State.writeActs (old s : State) (b i v : Nat) : State :=
  if b = F.MAG_PORT_CTRL_enable.base then s.portPower i
  else if b = F.LZP_CTRL_enable.base then s.packStatus i
  else if b = F.VCD_POOL_SIZE_value.base ∨ b = F.VCD_POOL_BASE_LO_value.base ∨ b = F.VCD_POOL_BASE_HI_value.base then s.poolStatus i
  else if b = F.NET_PTP_CFG_enable.base then
    let on := F.NET_PTP_CFG_enable.of v
    if on = old.rd F.NET_PTP_CFG_enable then s else s.whenUp 30 fun s => s.ptpEnable (on == 1)
  else if b = F.NET_TC_PRESET_value.base then
    s.updNet fun x => { x with tcCount := tcOfBcd (s.rd F.NET_TC_CFG_rate) v, tcHeld := false }
  else if b = F.AUD_MASTER_CFG_lock.base then
    if s.rd F.AUD_MASTER_CFG_lock = old.rd F.AUD_MASTER_CFG_lock then s else s.whenUp 31 State.masterStart
  else if b = F.COND_SENSOR_TEMP_temp.base then s.updCond i fun c => { c with sensorAge := some 0 }
  else s

/-- A write to a register field group that is this row's own: refused whole (R642), or its fields set with what follows. -/
def State.regWrite (s : State) (r : Reg) (i j v : Nat) : State :=
  let b := r.base
  if s.refusesA b i v || s.refusesB b i v || s.refusesC b i v then s.refuseFlag b i
  else s.writeActs (s.writeFields r i j v) b i v

/-- A write that another row carries out: of a register in ownRows, or one that performs the action of another row: a BC command with
go, a block reset with go or force, a session request, the enable of the event queue, or the disable of a magazine port. Without that
action such a write only sets fields (R9). -/
def rowOfItsOwn (b v : Nat) : Bool :=
  ownRows.contains b || (b == F.BRL_BC_CMD_go.base && F.BRL_BC_CMD_go.of v == 1)
    || (b == F.MAG_PORT_CTRL_enable.base && F.MAG_PORT_CTRL_enable.of v == 0)
    || (b == F.RING_EVQ_CFG_enable.base && F.RING_EVQ_CFG_enable.of v == 1)
    || (b == F.RST_BLOCK_CTRL_go.base && (F.RST_BLOCK_CTRL_go.of v == 1 || F.RST_BLOCK_CTRL_force.of v == 1))
    || (b == F.SES_REQ_role.base && (F.SES_REQ_close.of v == 1 || F.SES_REQ_answer.of v == 1 || F.SES_REQ_challenge.of v == 1))

/-- A bad access (R640, R641). -/
def State.badAccess (s : State) : State := s.flagCount F.GLB_FLAGS_bad_access F.GLB_CNT_bad_access

/-- A write that needs a plan (R278, R279): the enable of a packer, and one to the place of a reference pool. -/
def State.needsPlan (s : State) (b i v : Nat) : Bool :=
  (b == F.LZP_CTRL_enable.base && F.LZP_CTRL_enable.of v == 1 && !s.on F.LZP_CTRL_enable i) || isPoolReg b

/-- REGISTER_WRITE (R278, R640 to R644): a 4-byte write at an offset. One to an unassigned offset is a bad access; one that needs a plan
waits for a plan check. -/
def execRegisterWrite (off v : Nat) (s : State) : Out :=
  match findReg off with
  | none => .next s.badAccess
  | some (r, i, j) =>
    if rowOfItsOwn r.base v then .next s
    else if s.needsPlan r.base i v && s.planPending then
      .next (s.waitPlan (.registerWrite off v))
    else .next (s.regWrite r i j v)

/-- BAD_ACCESS (R640, R641): an access of another size than 4 bytes or not aligned, or a write to an unassigned offset, is discarded and
counted; such a read returns ones. -/
def execBadAccess (read : Bool) (off size : Nat) (s : State) : Out :=
  if size ≠ 4 ∨ off % 4 ≠ 0 then .next (s.badAccess.whenB read fun s => s.emit (.readData off (2 ^ (8 * size) - 1)))
  else if read = false ∧ findReg off = none then .next s.badAccess
  else .next s

/-! ### Reads -/

/-- A domain whose reset state a register's RO, RC and W1C fields read while it is not released (R644). -/
def State.regLive (s : State) (base i : Nat) : Bool :=
  match regDomain ⟨base, 0, i, 0⟩ with
  | some d => s.released d
  | none =>
    if 0x600000 ≤ base ∧ base < 0x700000 ∧ base ≠ F.BRL_BC_STATUS_busy.base then s.released (2 + i / 2)
    else if 0xE00000 ≤ base ∧ base < 0x1000000 then s.released (22 + i)
    else true

/-- A field as a read returns it (R641, R644): a WO field reads 0; CTLE in native mode reads as adapted; GLB_PACE_REQ is computed. -/
def State.readField (s : State) (f : Fld) (i j : Nat) : Nat :=
  if f.acc = .wo then 0
  else if f = F.GLB_PACE_REQ_code then (s.openCode).getD 0
  else if f = F.BRL_GRP_EQ_ctle then ((s.group i).ctle).getD (s.rd f i)
  else if f.acc.isCfg || s.regLive f.base i then s.rd f i j
  else f.reset

/-- A register word as a read returns it. -/
def State.readWord (s : State) (r : Reg) (i j : Nat) : Nat := r.fields.foldl (fun a f => a + s.readField f i j * 2 ^ f.lo) 0

/-- RC fields of a register cleared by a read; a peak field reloads with the current value (R669). -/
def State.clearRc (s : State) (r : Reg) (i j : Nat) : State :=
  s.each r.fields fun s f =>
    match f.acc with
    | .rc => s.wr f 0 i j
    | .rcPeak base lo => s.wr f (match fieldFor base lo with | some g => s.rd g i j | none => 0) i j
    | _ => s

/-- The first words of the latched groups, with the offsets of their later words from them (R643, R647). -/
def latchGroups : List (Nat × List Nat) :=
  [(F.GLB_UID_LO_value.base, [4]), (F.GLB_PACE_DEV_code.base, [4, 8, 28]), (F.EASEL_LAST_LO_serial_lo.base, [4]),
   (F.COND_BLACK_EST01_even.base, [4]), (F.COND_CAL_RUNS_runs.base, [4, 8, 12]), (F.COND_HCAL_RUNS_runs.base, [4, 8, 12]),
   (F.LZP_DEC_FAULT0_valid.base, [4, 8, 12]), (F.LZP_EASEL_BYTES_LO_value.base, [4]), (F.HBM_UE_ADDR_LO_value.base, [4]),
   (F.REEL_SEQ_LO_value.base, [4]), (F.BARROW_CH_CUR_LO_value.base, [4]), (F.BARROW_CH_BYTES_LO_value.base, [4]),
   (F.VCD_RC_FAULT0_valid.base, [4, 8, 12]), (F.NET_PTP_TIME_S_LO_value.base, [4, 8]), (F.FW_BUILD_LO_value.base, [4]),
   (F.LEDGER_SEQ_LO_value.base, [4]), (F.NET_TXTS0_valid.base, [4, 8, 12])]

/-- A later word of a latched group. -/
def isLater (base : Nat) : Bool := latchGroups.any fun g => g.2.any fun k => g.1 + k == base

/-- RC_FIELD_READ (R9, R641, R643, R669): a 4-byte read that is no first word of a latched group returns the word and clears its RC
fields. A later word of a group comes from the latch, an unassigned offset reads 0. -/
def execRcFieldRead (off : Nat) (s : State) : Out :=
  match findReg off with
  | none => .next (s.emit (.readData off 0))
  | some (r, i, j) =>
    if latchGroups.any (fun g => g.1 == r.base) then .next s
    else if isLater r.base then .next (s.emit (.readData off (s.latch.get ⟨off, 0, 0, 0⟩ 0)))
    else .next ((s.emit (.readData off (s.readWord r i j))).clearRc r i j)

/-- What the read of a first word frees (R259, R272, R477): the fault latches, and the address of an uncorrectable read. -/
def State.freeLatch (s : State) (base i : Nat) : State :=
  if base = F.LZP_DEC_FAULT0_valid.base then s.wr F.LZP_DEC_FAULT0_valid 0 i
  else if base = F.VCD_RC_FAULT0_valid.base then s.wr F.VCD_RC_FAULT0_valid 0 i
  else if base = F.HBM_UE_ADDR_LO_value.base then s.updStack i fun x => { x with latched := false }
  else s

/-- The words of a group after its first, latched at their offsets; their RC fields are cleared with the first word's. -/
def State.latchWords (s : State) (off : Nat) (later : List Nat) : State :=
  s.each later fun s k =>
    match findReg (off + k) with
    | some (r, i, j) => (s.latchSet (off + k) (s.readWord r i j)).clearRc r i j
    | none => s

/-- LATCHED_GROUP_READ (R643, R647): the first word is read, the later words go into the latch, and a fault latch is freed. The time base
is read as the free time of now (R526). -/
def execLatchedGroupRead (off : Nat) (s : State) : Out :=
  match findReg off with
  | none => .next s
  | some (r, i, j) =>
    match latchGroups.find? (fun g => g.1 == r.base) with
    | none => .next s
    | some g =>
      if r.base = F.NET_TXTS0_valid.base then .next s
      else if r.base = F.NET_PTP_TIME_S_LO_value.base then
        let secs := ptpSeconds s.now
        .next ((((s.latchSet (off + 4) (secs / 4294967296 % 65536)).latchSet (off + 8) (ptpNanos s.now)).emit
          (.readData off (secs % 4294967296))).tick)
      else
        let t := (s.emit (.readData off (s.readWord r i j))).latchWords off g.2
        .next ((t.clearRc r i j).freeLatch r.base i)

/-- W1C_FLAG_CLEAR (R9, R644): the bits written as 1 are cleared; a block whose domain is not released ignores the write. -/
def execW1cFlagClear (off v : Nat) (s : State) : Out :=
  match findReg off with
  | none => .next s
  | some (r, i, j) =>
    if !s.regLive r.base i then .next s
    else .next (s.each r.fields fun s f =>
      if f.acc = .w1c then s.wr f (s.rd f i j - (s.rd f i j).land (f.of v)) i j else s)

/-! ### The plan check -/

/-- The state a command leaves. -/
def Out.stateOr (o : Out) (s : State) : State :=
  match o with
  | .next t => t
  | _ => s

/-- A write that waited for the plan check is acted on (R278). -/
def State.actWaiting (s : State) (i : Instr) : State :=
  match i with
  | .easelAdmissionCheck e => Out.stateOr (execEaselAdmissionCheck e s) s
  | .takeOpen id => Out.stateOr (execTakeOpen id s) s
  | .sketchOpen id => Out.stateOr (execSketchOpen id s) s
  | .rcDecode id data => Out.stateOr (execRcDecode id data s) s
  | .audRecRunStart => Out.stateOr (execAudRecRunStart s) s
  | .palLoad id => Out.stateOr (execPalLoad id s) s
  | .avsReportTimeout e => Out.stateOr (execAvsReportTimeout e s) s
  | .registerWrite off v => Out.stateOr (execRegisterWrite off v s) s
  | _ => s

/-- HBM_PLAN_CHECK_DONE (R277, R278): the plan is in force or refused, and the writes that waited are acted on in their order. -/
def execHbmPlanCheckDone (s : State) : Out :=
  if !s.planPending then .next s
  else
    let t := s.planDecide
    .next ((t.updHbm fun h => { h with waits := [] }).each t.hbm.waits State.actWaiting)

end Sys2Proof.Machine
end

