-- ==== Sys2Proof/Machine/Dispatch.lean ====
section
/-! DEFINITION. The dispatch: one arm for each command, one direct call of its meaning. -/

namespace Sys2Proof.Machine

def exec (i : Instr) (s : State) : Host.Outcome State Fault Refusal :=
  match i with
  | .registerWrite off v => Sys2Proof.Machine.execRegisterWrite off v s
  | .badAccess read off size => Sys2Proof.Machine.execBadAccess read off size s
  | .rcFieldRead off => Sys2Proof.Machine.execRcFieldRead off s
  | .latchedGroupRead off => Sys2Proof.Machine.execLatchedGroupRead off s
  | .w1cFlagClear off v => Sys2Proof.Machine.execW1cFlagClear off v s
  | .glbEvTestWrite v => Sys2Proof.Machine.execGlbEvTestWrite v s
  | .chainWrite k item => Sys2Proof.Machine.execChainWrite k item s
  | .chainRead k => Sys2Proof.Machine.execChainRead k s
  | .chainRelease k => Sys2Proof.Machine.execChainRelease k s
  | .chainMark k => Sys2Proof.Machine.execChainMark k s
  | .chainRewind k => Sys2Proof.Machine.execChainRewind k s
  | .chainAbortItem k => Sys2Proof.Machine.execChainAbortItem k s
  | .paceSample west east => Sys2Proof.Machine.execPaceSample west east s
  | .linkBlockReceive g m b => Sys2Proof.Machine.execLinkBlockReceive g m b s
  | .forwardedRunReceive h g m n => Sys2Proof.Machine.execForwardedRunReceive h g m n s
  | .laneBlockLock g m => Sys2Proof.Machine.execLaneBlockLock g m s
  | .laneLockLoss g m => Sys2Proof.Machine.execLaneLockLoss g m s
  | .alignReceive h g m payload t => Sys2Proof.Machine.execAlignReceive h g m payload t s
  | .deskewMarkerCycle h g reads => Sys2Proof.Machine.execDeskewMarkerCycle h g reads s
  | .brlGrpCfgWrite g v => Sys2Proof.Machine.execBrlGrpCfgWrite g v s
  | .brlTrain g => Sys2Proof.Machine.execBrlTrain g s
  | .brlCkMeasured g khz => Sys2Proof.Machine.execBrlCkMeasured g khz s
  | .brlAdaptDone g ctle taps => Sys2Proof.Machine.execBrlAdaptDone g ctle taps s
  | .brlSleepReceive g => Sys2Proof.Machine.execBrlSleepReceive g s
  | .brlCkRestart g => Sys2Proof.Machine.execBrlCkRestart g s
  | .brlCkLoss g => Sys2Proof.Machine.execBrlCkLoss g s
  | .trainingTimeout g => Sys2Proof.Machine.execTrainingTimeout g s
  | .brlTestModeSet g => Sys2Proof.Machine.execBrlTestModeSet g s
  | .brlTestModeClear g => Sys2Proof.Machine.execBrlTestModeClear g s
  | .brlBcSleep g => Sys2Proof.Machine.execBrlBcSleep g s
  | .brlBcWake g => Sys2Proof.Machine.execBrlBcWake g s
  | .bcCmdGo g v => Sys2Proof.Machine.execBcCmdGo g v s
  | .bcRegReply g payload late => Sys2Proof.Machine.execBcRegReply g payload late s
  | .bcCmdTimeout g => Sys2Proof.Machine.execBcCmdTimeout g s
  | .frameStartReceive e fs0 fs1 fs2 => Sys2Proof.Machine.execFrameStartReceive e fs0 fs1 fs2 s
  | .rowStripeReceive e stripe => Sys2Proof.Machine.execRowStripeReceive e stripe s
  | .frameEndReceive e payload => Sys2Proof.Machine.execFrameEndReceive e payload s
  | .rowReport => Sys2Proof.Machine.execRowReport s
  | .frameEndTimeout e => Sys2Proof.Machine.execFrameEndTimeout e s
  | .settleNotice c e serial => Sys2Proof.Machine.execSettleNotice c e serial s
  | .easelOpen e => Sys2Proof.Machine.execEaselOpen e s
  | .easelAdmissionCheck e => Sys2Proof.Machine.execEaselAdmissionCheck e s
  | .easelClose e => Sys2Proof.Machine.execEaselClose e s
  | .easelAbort e => Sys2Proof.Machine.execEaselAbort e s
  | .ticketPost id => Sys2Proof.Machine.execTicketPost id s
  | .ticketWindowClose e => Sys2Proof.Machine.execTicketWindowClose e s
  | .brushBandStart h full => Sys2Proof.Machine.execBrushBandStart h full s
  | .tileClose e serial tile seen => Sys2Proof.Machine.execTileClose e serial tile seen s
  | .canvasWriteDone e serial tile => Sys2Proof.Machine.execCanvasWriteDone e serial tile s
  | .blackEstimateDone e serial waited => Sys2Proof.Machine.execBlackEstimateDone e serial waited s
  | .condCommit e => Sys2Proof.Machine.execCondCommit e s
  | .condCommitCheckDone e => Sys2Proof.Machine.execCondCommitCheckDone e s
  | .condCal id => Sys2Proof.Machine.execCondCal id s
  | .calRunStart kind target => Sys2Proof.Machine.execCalRunStart kind target s
  | .calRunEnd kind target values => Sys2Proof.Machine.execCalRunEnd kind target values s
  | .calDeferTimeout kind target => Sys2Proof.Machine.execCalDeferTimeout kind target s
  | .palCommit e => Sys2Proof.Machine.execPalCommit e s
  | .viewCommit v => Sys2Proof.Machine.execViewCommit v s
  | .colourCommitCheckDone view n => Sys2Proof.Machine.execColourCommitCheckDone view n s
  | .palLoad id => Sys2Proof.Machine.execPalLoad id s
  | .palLoadComplete id image => Sys2Proof.Machine.execPalLoadComplete id image s
  | .viewPictureStart v serial => Sys2Proof.Machine.execViewPictureStart v serial s
  | .viewPictureDone v => Sys2Proof.Machine.execViewPictureDone v s
  | .statsRecordPost e => Sys2Proof.Machine.execStatsRecordPost e s
  | .packerTileTake h => Sys2Proof.Machine.execPackerTileTake h s
  | .packerTileCommit h l => Sys2Proof.Machine.execPackerTileCommit h l s
  | .laneRingResume h l => Sys2Proof.Machine.execLaneRingResume h l s
  | .tileDecode h e serial rec payload => Sys2Proof.Machine.execTileDecode h e serial rec payload s
  | .frameRatioCompute e serial => Sys2Proof.Machine.execFrameRatioCompute e serial s
  | .hbmStackReady k temp => Sys2Proof.Machine.execHbmStackReady k temp s
  | .hbmAllBankRefresh k pc => Sys2Proof.Machine.execHbmAllBankRefresh k pc s
  | .hbmCaAlert k pc replaying => Sys2Proof.Machine.execHbmCaAlert k pc replaying s
  | .hbmUncorrRead addr => Sys2Proof.Machine.execHbmUncorrRead addr s
  | .hbmRowActivate k pc bank row => Sys2Proof.Machine.execHbmRowActivate k pc bank row s
  | .hbmRhWindowReset => Sys2Proof.Machine.execHbmRhWindowReset s
  | .hbmPlanCommit => Sys2Proof.Machine.execHbmPlanCommit s
  | .hbmPlanCheckDone => Sys2Proof.Machine.execHbmPlanCheckDone s
  | .canvasHoldRelease e slot part h => Sys2Proof.Machine.execCanvasHoldRelease e slot part h s
  | .magInsertion p m => Sys2Proof.Machine.execMagInsertion p m s
  | .magRemoval p => Sys2Proof.Machine.execMagRemoval p s
  | .magRampDone p => Sys2Proof.Machine.execMagRampDone p s
  | .magInitDone p => Sys2Proof.Machine.execMagInitDone p s
  | .magRetry p => Sys2Proof.Machine.execMagRetry p s
  | .magPortDisable p => Sys2Proof.Machine.execMagPortDisable p s
  | .pfwNFall => Sys2Proof.Machine.execPfwNFall s
  | .pfwProgramsDrained p finished us => Sys2Proof.Machine.execPfwProgramsDrained p finished us s
  | .pfwNRecover => Sys2Proof.Machine.execPfwNRecover s
  | .dieOpIssue p die => Sys2Proof.Machine.execDieOpIssue p die s
  | .dieOpComplete p die r => Sys2Proof.Machine.execDieOpComplete p die r s
  | .segmentClose e serial h => Sys2Proof.Machine.execSegmentClose e serial h s
  | .elasticSpill h => Sys2Proof.Machine.execElasticSpill h s
  | .ledgerGroupIssue p => Sys2Proof.Machine.execLedgerGroupIssue p s
  | .ledgerSnapshot p => Sys2Proof.Machine.execLedgerSnapshot p s
  | .takeOpen id => Sys2Proof.Machine.execTakeOpen id s
  | .takeClose id => Sys2Proof.Machine.execTakeClose id s
  | .readTiles id => Sys2Proof.Machine.execReadTiles id s
  | .readRange id => Sys2Proof.Machine.execReadRange id s
  | .writeSidecar id data => Sys2Proof.Machine.execWriteSidecar id data s
  | .flush id => Sys2Proof.Machine.execFlush id s
  | .abort id => Sys2Proof.Machine.execAbort id s
  | .queueReset id => Sys2Proof.Machine.execQueueReset id s
  | .mount id => Sys2Proof.Machine.execMount id s
  | .unmount id => Sys2Proof.Machine.execUnmount id s
  | .format id => Sys2Proof.Machine.execFormat id s
  | .sanitize id => Sys2Proof.Machine.execSanitize id s
  | .identifyReel id => Sys2Proof.Machine.execIdentifyReel id s
  | .getLog id => Sys2Proof.Machine.execGetLog id s
  | .doorbellPoll => Sys2Proof.Machine.execDoorbellPoll s
  | .doorbellPageReturn page => Sys2Proof.Machine.execDoorbellPageReturn page s
  | .ringEnable r v => Sys2Proof.Machine.execRingEnable r v s
  | .ringDisable r v => Sys2Proof.Machine.execRingDisable r v s
  | .cqEnable q v => Sys2Proof.Machine.execCqEnable q v s
  | .cqDisable q v => Sys2Proof.Machine.execCqDisable q v s
  | .descriptorFetch => Sys2Proof.Machine.execDescriptorFetch s
  | .descriptorFetchReturn r data => Sys2Proof.Machine.execDescriptorFetchReturn r data s
  | .descriptorDecode => Sys2Proof.Machine.execDescriptorDecode s
  | .fenceRelease id => Sys2Proof.Machine.execFenceRelease id s
  | .nop id => Sys2Proof.Machine.execNop id s
  | .completionRecordWrite q => Sys2Proof.Machine.execCompletionRecordWrite q s
  | .eventRecordWrite => Sys2Proof.Machine.execEventRecordWrite s
  | .evqEnable v => Sys2Proof.Machine.execEvqEnable v s
  | .msixMessageSend q => Sys2Proof.Machine.execMsixMessageSend q s
  | .msixCoalesceTimeout q => Sys2Proof.Machine.execMsixCoalesceTimeout q s
  | .msixVectorUnmask v => Sys2Proof.Machine.execMsixVectorUnmask v s
  | .functionLevelReset moved => Sys2Proof.Machine.execFunctionLevelReset moved s
  | .barrowChannelEnable c v => Sys2Proof.Machine.execBarrowChannelEnable c v s
  | .barrowChannelDisable c v moved data => Sys2Proof.Machine.execBarrowChannelDisable c v moved data s
  | .barrowChannelRestart c v => Sys2Proof.Machine.execBarrowChannelRestart c v s
  | .barrowDescFetch c data => Sys2Proof.Machine.execBarrowDescFetch c data s
  | .barrowDescEnd c data err => Sys2Proof.Machine.execBarrowDescEnd c data err s
  | .barrowCtrlReread c word => Sys2Proof.Machine.execBarrowCtrlReread c word s
  | .sketchOpen id => Sys2Proof.Machine.execSketchOpen id s
  | .sketchClose id => Sys2Proof.Machine.execSketchClose id s
  | .sketchRefresh id => Sys2Proof.Machine.execSketchRefresh id s
  | .rcDecode id data => Sys2Proof.Machine.execRcDecode id data s
  | .vcdScCommit x => Sys2Proof.Machine.execVcdScCommit x s
  | .sketchPictureStart k => Sys2Proof.Machine.execSketchPictureStart k s
  | .sketchRowStart k => Sys2Proof.Machine.execSketchRowStart k s
  | .sketchRowDone k row floor => Sys2Proof.Machine.execSketchRowDone k row floor s
  | .sketchNalCommit x head part last => Sys2Proof.Machine.execSketchNalCommit x head part last s
  | .sketchRingResume x => Sys2Proof.Machine.execSketchRingResume x s
  | .sketchPublish x => Sys2Proof.Machine.execSketchPublish x s
  | .rasOutCommit o => Sys2Proof.Machine.execRasOutCommit o s
  | .rasFrameStart o err => Sys2Proof.Machine.execRasFrameStart o err s
  | .vrefPulse period => Sys2Proof.Machine.execVrefPulse period s
  | .rasReferenceLoss o => Sys2Proof.Machine.execRasReferenceLoss o s
  | .rasSelectPoint o => Sys2Proof.Machine.execRasSelectPoint o s
  | .rasLineFetchDone o n => Sys2Proof.Machine.execRasLineFetchDone o n s
  | .rasLineDue o vanc => Sys2Proof.Machine.execRasLineDue o vanc s
  | .rasLiveLineArrive o n => Sys2Proof.Machine.execRasLiveLineArrive o n s
  | .rasRegionPush id pixels => Sys2Proof.Machine.execRasRegionPush id pixels s
  | .rasDcs id => Sys2Proof.Machine.execRasDcs id s
  | .rasDcsReply o data => Sys2Proof.Machine.execRasDcsReply o data s
  | .rasDcsReplyTimeout o => Sys2Proof.Machine.execRasDcsReplyTimeout o s
  | .audioMasterSample err boundary => Sys2Proof.Machine.execAudioMasterSample err boundary s
  | .audTdmFrameReceive p bits slots ratio => Sys2Proof.Machine.execAudTdmFrameReceive p bits slots ratio s
  | .audAesFrameReceive a f => Sys2Proof.Machine.execAudAesFrameReceive a f s
  | .audPortEnable u v => Sys2Proof.Machine.execAudPortEnable u v s
  | .audMaskArm u v => Sys2Proof.Machine.execAudMaskArm u v s
  | .audRecRunStart => Sys2Proof.Machine.execAudRecRunStart s
  | .audRecRunStop => Sys2Proof.Machine.execAudRecRunStop s
  | .audZcTimeout k slot => Sys2Proof.Machine.execAudZcTimeout k slot s
  | .audMasterReferenceLoss => Sys2Proof.Machine.execAudMasterReferenceLoss s
  | .ptpSyncReceive offset => Sys2Proof.Machine.execPtpSyncReceive offset s
  | .ptpAnnounceReceive a => Sys2Proof.Machine.execPtpAnnounceReceive a s
  | .ptpAnnounceTimeout => Sys2Proof.Machine.execPtpAnnounceTimeout s
  | .ptpRestep => Sys2Proof.Machine.execPtpRestep s
  | .netSend id data => Sys2Proof.Machine.execNetSend id data s
  | .netFrameLaunch id late => Sys2Proof.Machine.execNetFrameLaunch id late s
  | .netFrameTxDone id => Sys2Proof.Machine.execNetFrameTxDone id s
  | .netTxtsRead => Sys2Proof.Machine.execNetTxtsRead s
  | .netFrameReceive port data => Sys2Proof.Machine.execNetFrameReceive port data s
  | .netLinkChange port up => Sys2Proof.Machine.execNetLinkChange port up s
  | .netSenderPacket n => Sys2Proof.Machine.execNetSenderPacket n s
  | .netSndCommit n => Sys2Proof.Machine.execNetSndCommit n s
  | .netLtcFrameReceive count rateOk => Sys2Proof.Machine.execNetLtcFrameReceive count rateOk s
  | .netLtcFreewheelExpire => Sys2Proof.Machine.execNetLtcFreewheelExpire s
  | .pwrOnWrite v => Sys2Proof.Machine.execPwrOnWrite v s
  | .pwrSwitchOpen d => Sys2Proof.Machine.execPwrSwitchOpen d s
  | .resetSequenceStep src => Sys2Proof.Machine.execResetSequenceStep src s
  | .powerOnReset => Sys2Proof.Machine.execPowerOnReset s
  | .railOutOfRange => Sys2Proof.Machine.execRailOutOfRange s
  | .resetNAssert => Sys2Proof.Machine.execResetNAssert s
  | .resetNRelease => Sys2Proof.Machine.execResetNRelease s
  | .diodeComparatorRead hot cool => Sys2Proof.Machine.execDiodeComparatorRead hot cool s
  | .thermalTripRelease => Sys2Proof.Machine.execThermalTripRelease s
  | .keeperWatchdogExpire h => Sys2Proof.Machine.execKeeperWatchdogExpire h s
  | .halfResetRequest v => Sys2Proof.Machine.execHalfResetRequest v s
  | .halfResetAssert h => Sys2Proof.Machine.execHalfResetAssert h s
  | .halfResetRelease h => Sys2Proof.Machine.execHalfResetRelease h s
  | .rstDomainWrite v => Sys2Proof.Machine.execRstDomainWrite v s
  | .blockResetRequest v => Sys2Proof.Machine.execBlockResetRequest v s
  | .blockIdleReport => Sys2Proof.Machine.execBlockIdleReport s
  | .blockIdleTimeout => Sys2Proof.Machine.execBlockIdleTimeout s
  | .blockResetRelease => Sys2Proof.Machine.execBlockResetRelease s
  | .blockForceRelease v => Sys2Proof.Machine.execBlockForceRelease v s
  | .clockGoodRise b => Sys2Proof.Machine.execClockGoodRise b s
  | .clockLockLoss b => Sys2Proof.Machine.execClockLockLoss b s
  | .keeperHeartbeatSend h => Sys2Proof.Machine.execKeeperHeartbeatSend h s
  | .keeperHeartbeatReceive h path => Sys2Proof.Machine.execKeeperHeartbeatReceive h path s
  | .heartbeatAbsenceTimeout h => Sys2Proof.Machine.execHeartbeatAbsenceTimeout h s
  | .fenceResetRelease h => Sys2Proof.Machine.execFenceResetRelease h s
  | .keeperStart h => Sys2Proof.Machine.execKeeperStart h s
  | .bellConfirm h => Sys2Proof.Machine.execBellConfirm h s
  | .bellHandover => Sys2Proof.Machine.execBellHandover s
  | .thermalSample nodes diodes past stackTemps halves recent late => Sys2Proof.Machine.execThermalSample nodes diodes past stackTemps halves recent late s
  | .thermalGraceExpire => Sys2Proof.Machine.execThermalGraceExpire s
  | .thermalShedStepExpire => Sys2Proof.Machine.execThermalShedStepExpire s
  | .thermalReleaseExpire => Sys2Proof.Machine.execThermalReleaseExpire s
  | .shedCommandReceive h => Sys2Proof.Machine.execShedCommandReceive h s
  | .agePoweredHour => Sys2Proof.Machine.execAgePoweredHour s
  | .ageSample h steady => Sys2Proof.Machine.execAgeSample h steady s
  | .agePlanRun => Sys2Proof.Machine.execAgePlanRun s
  | .ageModeWrite m v => Sys2Proof.Machine.execAgeModeWrite m v s
  | .ageVoltageLower => Sys2Proof.Machine.execAgeVoltageLower s
  | .ageBoostEnd => Sys2Proof.Machine.execAgeBoostEnd s
  | .avsVoltageReport mv => Sys2Proof.Machine.execAvsVoltageReport mv s
  | .avsReportTimeout e => Sys2Proof.Machine.execAvsReportTimeout e s
  | .frameDeadline e serial => Sys2Proof.Machine.execFrameDeadline e serial s
  | .sesChallenge v elapsed => Sys2Proof.Machine.execSesChallenge v elapsed s
  | .sesAnswer v late => Sys2Proof.Machine.execSesAnswer v late s
  | .sesClose v => Sys2Proof.Machine.execSesClose v s
  | .rngHealthFail => Sys2Proof.Machine.execRngHealthFail s
  | .keySet id => Sys2Proof.Machine.execKeySet id s
  | .keyErase id => Sys2Proof.Machine.execKeyErase id s
  | .keyList id => Sys2Proof.Machine.execKeyList id s
  | .fwStage id data nor => Sys2Proof.Machine.execFwStage id data nor s
  | .fwActivate id => Sys2Proof.Machine.execFwActivate id s
  | .fwDrainDone => Sys2Proof.Machine.execFwDrainDone s
  | .fwDrainTimeout => Sys2Proof.Machine.execFwDrainTimeout s
  | .fwConfirm id => Sys2Proof.Machine.execFwConfirm id s
  | .ledgerRead id => Sys2Proof.Machine.execLedgerRead id s
  | .boardCfgWrite id data => Sys2Proof.Machine.execBoardCfgWrite id data s
  | .firmwareBoot single bad => Sys2Proof.Machine.execFirmwareBoot single bad s
  | .deviceLedgerWrite fail0 fail1 => Sys2Proof.Machine.execDeviceLedgerWrite fail0 fail1 s
  | .deviceLedgerReclaim => Sys2Proof.Machine.execDeviceLedgerReclaim s
  | .railsInRange => Sys2Proof.Machine.execRailsInRange s
  | .hbmCaAlertClear k pc covered => Sys2Proof.Machine.execHbmCaAlertClear k pc covered s
  | .lanePrbsReceive g m bits => Sys2Proof.Machine.execLanePrbsReceive g m bits s
  | .dsiSetupSent o => Sys2Proof.Machine.execDsiSetupSent o s
  | .rasPushDone o => Sys2Proof.Machine.execRasPushDone o s
  | .vcdScCommitCheckDone x => Sys2Proof.Machine.execVcdScCommitCheckDone x s
  | .rasOutCommitCheckDone o => Sys2Proof.Machine.execRasOutCommitCheckDone o s
  | .netSndFrameAlignment n => Sys2Proof.Machine.execNetSndFrameAlignment n s
  | .ltcOutFrameStart => Sys2Proof.Machine.execLtcOutFrameStart s

end Sys2Proof.Machine
end

