-- ==== Sys2Proof/Safety.lean ====
section
/-! DEFINITION. What claims call a sound state and a sound step, and the terms in which they say what a command does. -/
namespace Sys2Proof.Machine

/-- A register store lists each field of each instance at most once: every register field has one home (R640). -/
def RegStore.wf (l : RegStore) : Bool := decide (l.map fun e => e.1).Nodup

/-- The canonical form of a state: HBM as Memory.wf says, and each register store with each field at most once. -/
def State.wf (s : State) : Bool := s.mem.wf && RegStore.wf s.cfg && RegStore.wf s.sts && RegStore.wf s.latch

/-- What a command leaves of what stands around it: the queue of waiting commands is not touched, what the part has shown outside stays
shown, and no free value is taken twice. -/
structure State.Carries (s t : State) : Prop where
  queue : t.pending = s.pending
  shown : s.out <:+ t.out
  fresh : s.fresh ≤ t.fresh

/-- The command answers a next state of which P holds. -/
def Does (i : Instr) (s : State) (P : State → Prop) : Prop := ∃ t, exec i s = .next t ∧ P t

/-- The frame of a command over the registers and HBM: every byte of HBM is unchanged, and every register field but the listed fields of
the listed instances reads as before. -/
def State.Only (s t : State) (l : List (Fld × Nat)) : Prop :=
  t.mem = s.mem ∧ ∀ (f : Fld) (i j : Nat), (∀ x ∈ l, ¬ (x.1.base = f.base ∧ x.1.lo = f.lo ∧ x.2 = i)) → t.rd f i j = s.rd f i j

/-- The fields an event or an unsolicited record touches: the next seq, and the loss of a half in quiet whose area is full (R396, R579). -/
def eventFields : List (Fld × Nat) := [(F.GLB_EV_SEQ_next, 0), (F.RING_EVQ_LOST_count, 0), (F.RING_FLAGS_evq_lost, 0)]

/-- Outside quiet the event with this code and payload is the newest record waiting (R396). -/
def State.Raised (s t : State) (half code : Nat) (payload : List Byte) : Prop :=
  s.quiet half = false → ∃ r, t.host.records = s.host.records ++ [r] ∧ r.event = true ∧ r.tag = code ∧ r.half = half
    ∧ r.payload = padTo 16 payload

/-- A host command with this opcode is outstanding and has not begun: it waits on nothing (R390). -/
def State.Waits (s : State) (id opcode : Nat) (c : Cmd) : Prop := s.cmd id = some c ∧ c.opcode = opcode ∧ c.stage = .ready

/-- A host command with this opcode has begun and not ended. -/
def State.Runs (s : State) (id opcode : Nat) (c : Cmd) : Prop := s.cmd id = some c ∧ c.opcode = opcode ∧ c.stage = .running

/-- The completion record of a command waits to be written, with its ring, queue, tag, status and command-specific words (R392). -/
def State.Answered (t : State) (c : Cmd) (status spec0 spec1 : Nat) : Prop :=
  ∃ r ∈ t.host.records, r.event = false ∧ r.cmd = some c.id ∧ r.cq = c.cq ∧ r.tag = c.tag ∧ r.source = c.ring ∧ r.status = status
    ∧ r.spec0 = spec0 ∧ r.spec1 = spec1

end Sys2Proof.Machine
end

