-- ==== Sys2Proof/Certificates/Slice0/Obligations.lean ====
section
/-! DEFINITION. The statements about the model: what the commands do, by the rules of the spec. -/
open Sys2Proof Sys2Proof.Machine

/-- O1 (spec/95_what_each_step_holds.md). For every command c and state s whose queue is c followed by rest, step s is exec c on s with the
queue rest. On an empty queue the step leaves the state as it is; the idle step is the model's choice (log 1). -/
def Obligations.StepTakesTheOldestCommand : Prop :=
  (∀ (c : Instr) (s : State) (rest : List Instr), s.pending = c :: rest → step s = exec c { s with pending := rest })
    ∧ ∀ s : State, s.pending = [] → step s = .next s

/-- O2 (spec/20_register_map.md; spec/11_host_rings_and_barrows.md). For every command and every state, exec answers a next state: the spec
answers a bad access, a bad descriptor and an event that finds nothing to act on with a flag, a status or nothing, and never with a stop
of the part. -/
def Obligations.NoCommandStopsThePart : Prop :=
  ∀ (c : Instr) (s : State), ∃ t, exec c s = .next t

/-- O3 (spec/08_hbm_memory.md; spec/20_register_map.md). If the HBM bytes of s are listed at strictly rising addresses with no blank entry,
and each register store lists each field of each instance at most once, then the same holds after any step, whatever command is at the
front of the queue. -/
def Obligations.EveryStepKeepsTheCanonicalForm : Prop :=
  ∀ s t : State, s.wf = true → step s = .next t → t.wf = true

/-- O4 (spec/95_what_each_step_holds.md). Whatever the command at the front, the queue after the step is the rest of the queue, what the part
has shown outside the package before the step stays shown in its order, and the count of free values does not fall. The queue, the record
of what was shown and the count are the model's own fields. -/
def Obligations.EveryCommandCarriesItsSurroundings : Prop :=
  ∀ (s t : State) (c : Instr) (rest : List Instr), s.pending = c :: rest → step s = .next t → State.Carries { s with pending := rest } t

/-- O5 (spec/17_power_reset_authority.md; spec/20_register_map.md). State.reset has the canonical form that every step keeps, its queue is
empty, HBM lists no byte, and the part has shown nothing outside. -/
def Obligations.ResetIsCanonical : Prop :=
  State.reset.wf = true ∧ State.reset.pending = [] ∧ State.reset.mem = [] ∧ State.reset.out = []

/-- O6 (spec/20_register_map.md). In State.reset every field of every instance reads the reset value that the register tables give it. -/
def Obligations.EveryRegisterFieldReadsItsResetValue : Prop :=
  ∀ (f : Fld) (i j : Nat), State.reset.rd f i j = f.reset

/-- O7 (spec/08_hbm_memory.md). After bytes are stored at an address of a canonical memory, a read of as many bytes at that address gives
them; every byte outside them reads as before; and the memory stays canonical. That a byte nothing has written reads 0 is the model's
choice (log 4). -/
def Obligations.HbmReadsBackWhatWasStored : Prop :=
  ∀ (m : Memory) (a : Nat) (bs : List Byte), m.wf = true →
    (m.writeList a bs).readList a bs.length = bs ∧ (m.writeList a bs).wf = true
      ∧ ∀ x, x < a ∨ a + bs.length ≤ x → (m.writeList a bs).read x = m.read x

/-- O8 (spec/20_register_map.md). Setting a field of one instance makes that field read the value modulo 2 to its width; every field at
another place and every other instance reads as before; a counter counts up and stays at its maximum. -/
def Obligations.FieldsReadBackWhatWasSet : Prop :=
  ∀ (s : State) (f : Fld) (v i j : Nat),
    (s.wr f v i j).rd f i j = v % 2 ^ f.width
      ∧ (s.bump f i j v).rd f i j = min (2 ^ f.width - 1) (s.rd f i j + v)
      ∧ ∀ (g : Fld) (k l : Nat), ¬ (g.base = f.base ∧ g.lo = f.lo ∧ k = i ∧ l = j) → (s.wr f v i j).rd g k l = s.rd g k l

/-- O9 (R45). CHAIN_WRITE of an item that is no abort item, on a chain with no waiting write and no waiting read, where the packet is complete
or still shorter than the chain: with a free stage the item queues behind the newest; on a full chain the write waits and every item
stays. A release that frees a stage completes the waiting write. Nothing but that chain changes. Abort items and packets that reach the
chain's depth are stated in ChainAbortReleasesThePacket. -/
def Obligations.ChainWriteLosesNoItem : Prop :=
  ∀ (k : Nat) (x : ChainItem) (s : State), (s.chain k).waitRead = false → x.abort = false →
    (x.last = true ∧ (s.chain k).place x ≤ chainDepth k ∨ (s.chain k).place x < chainDepth k) →
    ((s.chain k).waitWrite = none → (s.chain k).items.length < chainDepth k →
      exec (.chainWrite k x) s = .next (s.setChain k { s.chain k with
        items := (s.chain k).items ++ [x], run := (s.chain k).place x, inPacket := decide (0 < (s.chain k).place x) && !x.last }))
    ∧ ((s.chain k).waitWrite = none → chainDepth k ≤ (s.chain k).items.length →
      exec (.chainWrite k x) s = .next (s.setChain k { s.chain k with
        waitWrite := some x, run := (s.chain k).place x, inPacket := decide (0 < (s.chain k).place x) && !x.last }))
    ∧ ((s.chain k).waitWrite = some x → (s.chain k).items.length = chainDepth k → 0 < (s.chain k).pos →
      Does (.chainRelease k) s fun t =>
        (t.chain k).items = (s.chain k).items.drop (s.chain k).pos ++ [x] ∧ (t.chain k).waitWrite = none)

/-- O10 (R46; R47). CHAIN_READ with a readable item returns it, moves the read position on, or with an abort item leaves it there, and leaves
every item in its stage; with no item at the read position it waits, and the write that brings the item completes it in the same step.
CHAIN_RELEASE frees every item before the read position. -/
def Obligations.ChainReadLeavesItsStage : Prop :=
  ∀ (k : Nat) (x : ChainItem) (s : State),
    ((s.chain k).readable k = true → (s.chain k).items[(s.chain k).pos]? = some x →
      exec (.chainRead k) s = .next (s.setChain k
        { s.chain k with got := some x, pos := (s.chain k).pos + (if x.abort then 0 else 1), waitRead := false }))
    ∧ ((s.chain k).items.length ≤ (s.chain k).pos →
      exec (.chainRead k) s = .next (s.setChain k { s.chain k with waitRead := true }))
    ∧ ((s.chain k).waitRead = true → (s.chain k).waitWrite = none → (s.chain k).items.length < chainDepth k →
      (s.chain k).pos = (s.chain k).items.length → x.first = false → x.abort = false → (s.chain k).place x < chainDepth k →
      Does (.chainWrite k x) s fun t => (t.chain k).got = some x ∧ (t.chain k).waitRead = false ∧ (t.chain k).items = (s.chain k).items ++ [x])
    ∧ ((s.chain k).waitWrite = none → (s.chain k).waitRead = false →
      exec (.chainRelease k) s = .next (s.setChain k
        { s.chain k with items := (s.chain k).items.drop (s.chain k).pos, pos := 0, mark := none }))

/-- O11 (R48). CHAIN_MARK sets the one mark at the read position; CHAIN_REWIND moves the read position to the mark, or with none to the oldest
unreleased item; CHAIN_RELEASE leaves no mark. Nothing else of the chain changes by a mark or a rewind. -/
def Obligations.ChainMarkAndRewind : Prop :=
  ∀ (k : Nat) (s : State),
    exec (.chainMark k) s = .next (s.setChain k { s.chain k with mark := some (s.chain k).pos })
    ∧ exec (.chainRewind k) s = .next (s.setChain k { s.chain k with pos := (s.chain k).mark.getD 0 })
    ∧ Does (.chainRelease k) s fun t => (t.chain k).mark = none

/-- O12 (spec/02_steps_and_latency.md). CHAIN_ABORT_ITEM at an abort item frees every item up to and with it and clears the mark; away from
one it changes nothing (R51). An abort item that arrives for a packet the consumer has not started takes the packet out of the chain
unread (R52). An item that would take the last place of a chain-long packet without completing it is carried as an abort item, and what
follows of that packet is not carried (R49; that the chain itself ends such a packet is the model's reading, log 96). -/
def Obligations.ChainAbortReleasesThePacket : Prop :=
  ∀ (k : Nat) (x : ChainItem) (s : State), (s.chain k).waitWrite = none → (s.chain k).waitRead = false →
    ((s.chain k).items[(s.chain k).pos]? = some x → x.abort = true →
      exec (.chainAbortItem k) s = .next (s.setChain k
        { s.chain k with items := (s.chain k).items.drop ((s.chain k).pos + 1), pos := 0, mark := none }))
    ∧ ((s.chain k).items[(s.chain k).pos]? = some x → x.abort = false → exec (.chainAbortItem k) s = .next s)
    ∧ (x.first = false → x.abort = true → (s.chain k).inPacket = true → (s.chain k).run < chainDepth k →
        (s.chain k).items.length < chainDepth k → (s.chain k).pos + (s.chain k).run ≤ (s.chain k).items.length →
        Does (.chainWrite k x) s fun t =>
          (t.chain k).items = (s.chain k).items.take ((s.chain k).items.length - (s.chain k).run) ∧ (t.chain k).waitWrite = none)
    ∧ (x.last = false → (s.chain k).place x = chainDepth k → (s.chain k).items.length < chainDepth k →
        ((s.chain k).items.length + 1 < chainDepth k ∨ 0 < (s.chain k).pos) →
        Does (.chainWrite k x) s fun t => (t.chain k).items = (s.chain k).items ++ [{ x with abort := true }])
    ∧ (x.first = false → (s.chain k).inPacket = true → chainDepth k ≤ (s.chain k).run →
        Does (.chainWrite k x) s fun t => (t.chain k).items = (s.chain k).items ∧ (t.chain k).waitWrite = none)

/-- O13 (spec/03_barosh_link.md). Parts of R90, R101 to R105, R109 and R122. In LOCK, SKEW or UP a valid header on an unlocked lane lengthens
its run, and an invalid one ends it and moves the bit offset on; after 64 LANE_BLOCK_LOCK locks the lane. The first block after lock is
discarded, and with it the last of 12 locked lanes takes the group to SKEW. On a locked lane a data block of a row enters the deskew
buffer and the intake of its home half, or joins the run that goes over the bridge when the other half homes the row; an invalid header
counts. With 32 invalid headers within 1,024 blocks LANE_LOCK_LOSS clears the lock bit and sets lock_loss, and a group in UP returns to
LOCK. -/
def Obligations.LaneBlockLock : Prop :=
  ∀ (g m : Nat) (b : LinkBlock) (s : State), s.grpState g = 4 ∨ s.grpState g = 5 ∨ s.grpState g = 6 → m < 12 →
    (s.on F.BRL_GRP_CFG_member g && s.lanesOut (s.rd F.BRL_GRP_CFG_easel g)) = false → g < s.link.groups.length → m < (s.group g).lanes.length →
    (bitOf (s.rd F.BRL_GRP_STATUS_lane_lock g) m = false →
      Does (.linkBlockReceive g m b) s fun t =>
        (t.lane g m).run = (if b.header = 1 ∨ b.header = 2 then (s.lane g m).run + 1 else 0)
          ∧ (t.lane g m).offset = (if b.header = 1 ∨ b.header = 2 then (s.lane g m).offset else ((s.lane g m).offset + 1) % 66) ∧ s.Only t [])
    ∧ (bitOf (s.rd F.BRL_GRP_STATUS_lane_lock g) m = true → b.header ≠ 1 → b.header ≠ 2 →
      Does (.linkBlockReceive g m b) s fun t =>
        t.rd F.BRL_LANE_ERR_hdr_invalid g m = min (2 ^ F.BRL_LANE_ERR_hdr_invalid.width - 1) (s.rd F.BRL_LANE_ERR_hdr_invalid g m + 1))
    ∧ (bitOf (s.rd F.BRL_GRP_STATUS_lane_lock g) m = true → (s.lane g m).first = true → b.header = 1 ∨ b.header = 2 →
      Does (.linkBlockReceive g m b) s fun t => (t.lane g m).first = false ∧ t.link.intake = s.link.intake
        ∧ (s.grpState g = 4 → s.rd F.BRL_GRP_STATUS_lane_lock g = 4095 → (∀ k, k ≠ m → (s.lane g k).first = false) → t.grpState g = 5))
    ∧ (∀ h, bitOf (s.rd F.BRL_GRP_STATUS_lane_lock g) m = true → (s.lane g m).first = false → 0 < (s.lane g m).data → b.header = 1 →
      (s.lane g m).sure = true → (s.lane g m).route = some h → s.on F.BRL_GRP_CFG_member g = true →
      s.setUp (s.rd F.BRL_GRP_CFG_easel g) = true → s.slept (s.rd F.BRL_GRP_CFG_easel g) g = false →
      (h = groupHalf g → (s.lane g m).bufs.length = 2 → s.link.intake.length = 2 → s.link.intake.getD h 0 < intakeBlocks →
        Does (.linkBlockReceive g m b) s fun t => t.link.intake.getD h 0 = s.link.intake.getD h 0 + 1 ∧ (t.lane g m).fwd = (s.lane g m).fwd
          ∧ ((t.lane g m).bufs.getD h []).head? = some
            { marker := (s.lane g m).marker, index := (s.lane g m).index + 1, header := 1,
              bytes := payloadBytes (descramble (s.lane g m).hist b.payload).1 }
          ∧ s.Only t [(F.BRL_LANE_DFE_taps, g)])
      ∧ (h = 1 - groupHalf g → (s.lane g m).fwd = [] →
        Does (.linkBlockReceive g m b) s fun t => t.link.intake = s.link.intake ∧ s.Only t [(F.BRL_LANE_DFE_taps, g)]
          ∧ (t.lane g m).fwd = [{ pos := s.lanePos g m, marker := (s.lane g m).marker, index := (s.lane g m).index + 1,
                                  hist := (s.lane g m).hist, blocks := [(b, { row := (s.lane g m).row, time := (s.lane g m).time + 1 })] }]))
    ∧ (bitOf (s.rd F.BRL_GRP_STATUS_lane_lock g) m = false → 64 ≤ (s.lane g m).run →
      Does (.laneBlockLock g m) s fun t =>
        bitOf (t.rd F.BRL_GRP_STATUS_lane_lock g) m = true ∧ (t.lane g m).first = true ∧ s.Only t [(F.BRL_GRP_STATUS_lane_lock, g)])
    ∧ (bitOf (s.rd F.BRL_GRP_STATUS_lane_lock g) m = true → 32 ≤ (s.lane g m).invalids.length →
      Does (.laneLockLoss g m) s fun t =>
        bitOf (t.rd F.BRL_GRP_STATUS_lane_lock g) m = false ∧ t.rd F.BRL_GRP_FLAGS_lock_loss g = 1
          ∧ t.grpState g = (if s.grpState g = 6 then 4 else s.grpState g)
          ∧ s.Only t [(F.BRL_GRP_STATUS_lane_lock, g), (F.BRL_GRP_FLAGS_lock_loss, g), (F.BRL_GRP_ERR_lock_loss, g), (F.BRL_GRP_STATUS_state, g)])

/-- O14 (spec/03_barosh_link.md). Parts of R119, R121 and R122, with the group states by their codes: BRL_TRAIN takes a group in BC or FAIL
with its easel closed to CLK; a measured CK within 1% takes CLK to ADAPT, and out of it to FAIL; the end of adaptation takes ADAPT to
LOCK; a training timeout takes CLK, ADAPT, LOCK and SKEW to FAIL; loss of CK takes LOCK, SKEW, UP and TEST to CLK with ck_good 0; SLEEP
takes UP to SLEEP, and a restart of CK takes that to CLK; test_mode takes UP to TEST with the easel closed, and its clearing takes TEST to
LOCK. The whole next state of BRL_ADAPT_DONE in ADAPT, of BRL_CK_LOSS, of BRL_TEST_MODE_SET and BRL_TEST_MODE_CLEAR, and of
BRL_CK_MEASURED outside 1% and on waking is given as well. -/
def Obligations.LinkGroupStates : Prop :=
  (∀ (g : Nat) (s : State),
    ((s.grpState g = 1 ∨ s.grpState g = 9) → s.rd F.EASEL_STATUS_state (s.rd F.BRL_GRP_CFG_easel g) = 0 →
      Does (.brlTrain g) s fun t => t.grpState g = 2 ∧ s.Only t [(F.BRL_GRP_STATUS_state, g), (F.BRL_GRP_STATUS_bc_awake, g)])
    ∧ (∀ khz, s.grpState g = 2 → (s.group g).wake = false →
      (max khz (s.rd F.BRL_GRP_CFG_rate g * 62500) - min khz (s.rd F.BRL_GRP_CFG_rate g * 62500)) * 100 ≤ s.rd F.BRL_GRP_CFG_rate g * 62500 →
      Does (.brlCkMeasured g khz) s fun t => t.grpState g = 3 ∧ t.rd F.BRL_GRP_STATUS_ck_good g = 1
        ∧ s.Only t [(F.BRL_GRP_STATUS_state, g), (F.BRL_GRP_STATUS_ck_good, g)])
    ∧ (∀ khz, s.grpState g = 2 →
      s.rd F.BRL_GRP_CFG_rate g * 62500 < (max khz (s.rd F.BRL_GRP_CFG_rate g * 62500) - min khz (s.rd F.BRL_GRP_CFG_rate g * 62500)) * 100 →
      Does (.brlCkMeasured g khz) s fun t => t.grpState g = 9 ∧ t.rd F.BRL_GRP_FLAGS_train_fail g = 1)
    ∧ (∀ ctle taps, s.grpState g = 3 → Does (.brlAdaptDone g ctle taps) s fun t => t.grpState g = 4 ∧ t.mem = s.mem)
    ∧ (s.grpState g = 2 ∨ s.grpState g = 3 ∨ s.grpState g = 4 ∨ s.grpState g = 5 →
      Does (.trainingTimeout g) s fun t => t.grpState g = 9 ∧ t.rd F.BRL_GRP_FLAGS_train_fail g = 1
        ∧ s.Only t ([(F.BRL_GRP_STATUS_state, g), (F.BRL_GRP_FLAGS_train_fail, g), (F.BRL_GRP_ERR_train_fail, g)] ++ eventFields))
    ∧ (s.grpState g = 4 ∨ s.grpState g = 5 ∨ s.grpState g = 6 ∨ s.grpState g = 8 →
      Does (.brlCkLoss g) s fun t => t.grpState g = 2 ∧ t.rd F.BRL_GRP_STATUS_ck_good g = 0 ∧ t.rd F.BRL_GRP_STATUS_lane_lock g = 0
        ∧ t.rd F.BRL_GRP_FLAGS_ck_loss g = 1 ∧ s.Raised t (groupHalf g) Ev.BRL_DOWN (le 1 g))
    ∧ (s.grpState g = 6 → Does (.brlSleepReceive g) s fun t => t.grpState g = 7
        ∧ s.Only t [(F.BRL_GRP_STATUS_state, g), (F.BRL_GRP_STATUS_ck_good, g), (F.BRL_GRP_STATUS_lane_lock, g)])
    ∧ (s.grpState g = 7 → Does (.brlCkRestart g) s fun t => t.grpState g = 2 ∧ s.Only t [(F.BRL_GRP_STATUS_state, g)])
    ∧ (s.grpState g = 6 → s.rd F.EASEL_STATUS_state (s.rd F.BRL_GRP_CFG_easel g) = 0 →
      Does (.brlTestModeSet g) s fun t => t.grpState g = 8 ∧ t.rd F.BRL_GRP_CTRL_test_mode g = 1)
    ∧ (s.grpState g = 8 → Does (.brlTestModeClear g) s fun t => t.grpState g = 4 ∧ t.rd F.BRL_GRP_CTRL_test_mode g = 0))
    ∧ (∀ (g khz ctle : Nat) (taps : List Nat) (s : State),
    (s.grpState g = 3 → exec (.brlAdaptDone g ctle taps) s = .next (
      if s.on F.BRL_GRP_CFG_mode g then (s.toLock g).updGroup g fun x => { x with ctle := none }
      else ((s.toLock g).updGroup g fun x => { x with ctle := some (ctle % 16) }).each (List.range 12) fun t m =>
        if t.on F.BRL_GRP_CTRL_dfe_freeze g then t else t.wr F.BRL_LANE_DFE_taps (taps.getD m 0) g m))
    ∧ (s.grpState g = 4 ∨ s.grpState g = 5 ∨ s.grpState g = 6 ∨ s.grpState g = 8 →
      exec (.brlCkLoss g) s = .next (
        let t := ((((s.setGrp g 2).wr F.BRL_GRP_STATUS_ck_good 0 g).wr F.BRL_GRP_STATUS_lane_lock 0 g).updGroup g fun x => { x with wake := false }).flagCount
          F.BRL_GRP_FLAGS_ck_loss F.BRL_GRP_ERR_ck_loss g
        ((t.raise (groupHalf g) Ev.BRL_DOWN (le 1 g)).whenB (s.grpState g == 6) fun t => t.groupCut g).bcEnd g 3 none true))
    ∧ (s.grpState g = 6 → s.rd F.EASEL_STATUS_state (s.rd F.BRL_GRP_CFG_easel g) = 0 →
      exec (.brlTestModeSet g) s = .next ((((s.wr F.BRL_GRP_CTRL_test_mode 1 g).setGrp g 8).bcOwn g 5 0
        (s.rd F.BRL_GRP_CTRL_test_pattern g)).updGroup g fun x => { x with lanes := x.lanes.map fun l => { l with prbsSeen := 0 } }))
    ∧ (s.grpState g = 8 → exec (.brlTestModeClear g) s = .next (((s.wr F.BRL_GRP_CTRL_test_mode 0 g).linkStart g).toLock g))
    ∧ (s.grpState g ≠ 8 → exec (.brlTestModeClear g) s = .next (s.wr F.BRL_GRP_CTRL_test_mode 0 g))
    ∧ (s.grpState g = 2 → (max khz (s.rd F.BRL_GRP_CFG_rate g * 62500) - min khz (s.rd F.BRL_GRP_CFG_rate g * 62500)) * 100 ≤ s.rd F.BRL_GRP_CFG_rate g * 62500 →
      (s.group g).wake = true → exec (.brlCkMeasured g khz) s = .next ((s.wr F.BRL_GRP_STATUS_ck_good 1 g).toLock g))
    ∧ (s.grpState g = 2 →
      s.rd F.BRL_GRP_CFG_rate g * 62500 < (max khz (s.rd F.BRL_GRP_CFG_rate g * 62500) - min khz (s.rd F.BRL_GRP_CFG_rate g * 62500)) * 100 →
      exec (.brlCkMeasured g khz) s = .next (s.groupFail g)))

/-- O15 (spec/03_barosh_link.md). Parts of R94 and R122. BRL_GRP_CFG_WRITE with a rate from 8 to 64, at most 32 in heritage mode, and the old
and the new easel closed writes every field and starts an enabled group that is OFF in the released RX domain as BC; a bad rate changes no
field and sets cfg_refused. A write that changes nothing but the enable bit is taken with any easel state: the group then starts, or goes
OFF. -/
def Obligations.LinkGroupConfiguration : Prop :=
  (∀ (g v : Nat) (s : State),
    (8 ≤ bitsOf v 14 8 → bitsOf v 14 8 ≤ (if bitsOf v 2 2 = 1 then 32 else 64) → s.rd F.EASEL_STATUS_state (bitsOf v 5 4) = 0 →
      s.rd F.EASEL_STATUS_state (s.rd F.BRL_GRP_CFG_easel g) = 0 → v % 2 = 1 → s.released (2 + g / 2) = true → s.grpState g = 0 →
      Does (.brlGrpCfgWrite g v) s fun t => t.rd F.BRL_GRP_CFG_rate g = bitsOf v 14 8 ∧ t.rd F.BRL_GRP_CFG_easel g = bitsOf v 5 4
        ∧ t.rd F.BRL_GRP_CFG_member g = bitsOf v 3 3 ∧ t.rd F.BRL_GRP_CFG_mode g = bitsOf v 2 2 ∧ t.rd F.BRL_GRP_CFG_enable g = 1
        ∧ t.grpState g = 1)
    ∧ (bitsOf v 14 8 < 8 ∨ 64 < bitsOf v 14 8 ∨ (bitsOf v 2 2 = 1 ∧ 32 < bitsOf v 14 8) →
      Does (.brlGrpCfgWrite g v) s fun t => t.rd F.BRL_GRP_FLAGS_cfg_refused g = 1 ∧ s.Only t [(F.BRL_GRP_FLAGS_cfg_refused, g)]))
    ∧ (∀ (g v : Nat) (s : State), 8 ≤ bitsOf v 14 8 → bitsOf v 14 8 ≤ (if bitsOf v 2 2 = 1 then 32 else 64) →
    (s.rd F.EASEL_STATUS_state (bitsOf v 5 4) = 0 ∧ s.rd F.EASEL_STATUS_state (s.rd F.BRL_GRP_CFG_easel g) = 0
      ∨ bitsOf v 14 8 = s.rd F.BRL_GRP_CFG_rate g ∧ bitsOf v 5 4 = s.rd F.BRL_GRP_CFG_easel g ∧ bitsOf v 3 3 = s.rd F.BRL_GRP_CFG_member g
        ∧ bitsOf v 2 2 = s.rd F.BRL_GRP_CFG_mode g) →
    exec (.brlGrpCfgWrite g v) s = .next (
      let t := ((((s.wr F.BRL_GRP_CFG_rate (bitsOf v 14 8) g).wr F.BRL_GRP_CFG_easel (bitsOf v 5 4) g).wr F.BRL_GRP_CFG_member (bitsOf v 3 3) g).wr
        F.BRL_GRP_CFG_mode (bitsOf v 2 2) g).wr F.BRL_GRP_CFG_enable (v % 2) g
      if v % 2 = 1 then t.groupStart g else t.groupDown g))

/-- O16 (spec/03_barosh_link.md). Parts of R113 to R116 and R120. BC_CMD_GO with READ or WRITE and no command in flight on a group in UP shows
its symbols with their CRC-8 on BC, after 64 commas on a sleeping one, and sets busy; another code ends at once with bad_code, and a group
not in UP with no_return. A good REG_REPLY with the tag in flight ends a host command with its status, and with status 0 its data;
BC_CMD_TIMEOUT ends it with timeout. BRL_BC_SLEEP shows BC_SLEEP and stops BC; BRL_BC_WAKE of a group not OFF starts it with 64 commas.
The whole next state of BRL_BC_SLEEP is given for BC awake and asleep. -/
def Obligations.BackChannelCommands : Prop :=
  (∀ (g v : Nat) (s : State),
    ((s.group g).flight = none → bitsOf v 26 24 = 1 ∨ bitsOf v 26 24 = 2 → s.grpState g = 6 →
      Does (.bcCmdGo g v) s fun t => t.rd F.BRL_BC_STATUS_busy g = 1
        ∧ t.out = .backChannel g (bcSymbols (bitsOf v 26 24) (bitsOf v 23 16) (bitsOf v 15 0) (s.rd F.BRL_BC_DATA_data g))
            :: (if s.on F.BRL_GRP_STATUS_bc_awake g then s.out else .commas g 64 :: s.out)
        ∧ s.Only t [(F.BRL_BC_CMD_code, g), (F.BRL_BC_CMD_tag, g), (F.BRL_BC_CMD_address, g), (F.BRL_BC_STATUS_busy, g),
          (F.BRL_GRP_STATUS_bc_awake, g)])
    ∧ ((s.group g).flight = none → bitsOf v 26 24 ≠ 1 → bitsOf v 26 24 ≠ 2 →
      Does (.bcCmdGo g v) s fun t => t.rd F.BRL_BC_STATUS_result g = 6 ∧ t.out = s.out)
    ∧ ((s.group g).flight = none → bitsOf v 26 24 = 1 ∨ bitsOf v 26 24 = 2 → s.grpState g ≠ 6 →
      Does (.bcCmdGo g v) s fun t => t.rd F.BRL_BC_STATUS_result g = 4 ∧ t.out = s.out)
    ∧ (∀ x payload late, (s.group g).flight = some x → x.ticket = none → crc8Good payload = true → fieldAt payload 1 1 = x.tag →
      fieldAt payload 6 1 = 0 → (s.easel (s.rd F.BRL_GRP_CFG_easel g)).bound = [] →
      Does (.bcRegReply g payload late) s fun t => t.rd F.BRL_BC_STATUS_busy g = 0 ∧ t.rd F.BRL_BC_STATUS_result g = 0
        ∧ t.rd F.BRL_BC_DATA_data g = fieldAt payload 2 4
        ∧ s.Only t [(F.BRL_BC_STATUS_busy, g), (F.BRL_BC_STATUS_result, g), (F.BRL_BC_DATA_data, g)])
    ∧ (∀ x, (s.group g).flight = some x → x.ticket = none → (s.easel (s.rd F.BRL_GRP_CFG_easel g)).bound = [] →
      Does (.bcCmdTimeout g) s fun t => t.rd F.BRL_BC_STATUS_busy g = 0 ∧ t.rd F.BRL_BC_STATUS_result g = 3
        ∧ s.Only t [(F.BRL_BC_STATUS_busy, g), (F.BRL_BC_STATUS_result, g)])
    ∧ (s.on F.BRL_GRP_STATUS_bc_awake g = true →
      Does (.brlBcSleep g) s fun t => t.rd F.BRL_GRP_CTRL_bc_sleep g = 1 ∧ t.rd F.BRL_GRP_STATUS_bc_awake g = 0
        ∧ t.out = .backChannel g (bcSymbols 4 (((s.group g).lastTag + 1) % 256) 0 0) :: s.out)
    ∧ (s.grpState g ≠ 0 →
      Does (.brlBcWake g) s fun t => t.rd F.BRL_GRP_CTRL_bc_sleep g = 0 ∧ t.rd F.BRL_GRP_STATUS_bc_awake g = 1
        ∧ t.out = (if s.on F.BRL_GRP_STATUS_bc_awake g then s.out else .commas g 64 :: s.out)
        ∧ s.Only t [(F.BRL_GRP_CTRL_bc_sleep, g), (F.BRL_GRP_STATUS_bc_awake, g)]))
    ∧ (∀ (g : Nat) (s : State),
    (s.on F.BRL_GRP_STATUS_bc_awake g = true →
      exec (.brlBcSleep g) s = .next (((s.wr F.BRL_GRP_CTRL_bc_sleep 1 g).bcOwn g 4 0 0).wr F.BRL_GRP_STATUS_bc_awake 0 g))
    ∧ (s.on F.BRL_GRP_STATUS_bc_awake g = false → exec (.brlBcSleep g) s = .next (s.wr F.BRL_GRP_CTRL_bc_sleep 1 g)))

/-- O17 (spec/03_barosh_link.md). Parts of R103 to R106, R119, R121 and R124. A good ALIGN in the buffer of a lane of a group in SKEW or UP
joins the markers collected while some lane of the set is still missing; the first marker cycle after a full set is remembered; in service
a cycle with every lane locked and at the next count keeps service. FORWARDED_RUN_RECEIVE takes the lane's oldest run off the bridge: a
data block of a row this half homes, of a set that is UP, enters the deskew buffer and the intake here, and one of a row it does not home
counts as an orphan of its easel. In TEST the bits received after the checker has filled count in units of 1,024. In TEST the lane's
checker takes every bit received, the errors and the checked bits are counted, and nothing else changes. -/
def Obligations.DeskewAndTestPatterns : Prop :=
  (∀ (h g m : Nat) (s : State),
    (∀ payload count at' got, s.grpState g = 5 ∨ s.grpState g = 6 → s.markerIn h g m payload = some count →
      s.deskewOf (s.setHead g) h = .collect got → (got.filter fun x => x.1 ≠ s.lanePos g m).length + 1 < s.setLanes g →
      exec (.alignReceive h g m payload at') s = .next (s.setDeskew (s.setHead g) h
        (.collect ((s.lanePos g m, count, at') :: got.filter fun x => x.1 ≠ s.lanePos g m))))
    ∧ (∀ reads count ok, s.deskewOf (s.setHead g) h = .confirm count 0 ok →
      exec (.deskewMarkerCycle h g reads) s = .next (s.setDeskew (s.setHead g) h (.confirm ((count + 1) % 16777216) 1
        (ok && (s.lockedReads g reads).length == s.setLanes g && (s.lockedReads g reads).all (· == some ((count + 1) % 16777216))))))
    ∧ (∀ count misses, s.deskewOf (s.setHead g) h = .service count misses → (∀ k ∈ s.setOf g, s.rd F.BRL_GRP_STATUS_lane_lock k = 4095) →
      exec (.deskewMarkerCycle h g (List.replicate (s.setLanes g) (some ((count + 1) % 16777216)))) s
        = .next (s.setDeskew (s.setHead g) h (.service ((count + 1) % 16777216) 0)))
    ∧ (∀ r rest b (home : BlockPlace) n, (s.lane g m).fwd = r :: rest → r.blocks = [(b, home)] → 0 < n → h + groupHalf g = 1 → b.header = 1 → s.on F.BRL_GRP_CFG_member g = true →
      s.setUp (s.rd F.BRL_GRP_CFG_easel g) = true → s.slept (s.rd F.BRL_GRP_CFG_easel g) g = false →
      g < s.link.groups.length → m < (s.group g).lanes.length →
      ((home.row.map fun r => homeHalf r.1 r.2) = some h → s.link.intake.length = 2 → s.link.intake.getD h 0 < intakeBlocks →
        (s.lane g m).bufs.length = 2 →
        Does (.forwardedRunReceive h g m n) s fun t => (t.lane g m).fwd = rest
          ∧ t.link.intake.getD h 0 = s.link.intake.getD h 0 + 1
          ∧ ((t.lane g m).bufs.getD h []).head? = some
            { marker := r.marker, index := r.index, header := 1, bytes := payloadBytes (descramble r.hist b.payload).1 }
          ∧ s.Only t [])
      ∧ ((home.row.map fun r => homeHalf r.1 r.2) ≠ some h →
        Does (.forwardedRunReceive h g m n) s fun t => (t.lane g m).fwd = rest ∧ t.link.intake = s.link.intake
          ∧ t.rd F.BRL_EASEL_ORPHAN_orphan (s.rd F.BRL_GRP_CFG_easel g)
            = min (2 ^ F.BRL_EASEL_ORPHAN_orphan.width - 1) (s.rd F.BRL_EASEL_ORPHAN_orphan (s.rd F.BRL_GRP_CFG_easel g) + 1)
          ∧ s.Only t [(F.BRL_EASEL_ORPHAN_orphan, s.rd F.BRL_GRP_CFG_easel g)]))
    ∧ (∀ bits : List Bool, s.grpState g = 8 → 31 ≤ (s.lane g m).prbsSeen →
      Does (.lanePrbsReceive g m bits) s fun t =>
        t.rd F.BRL_GRP_BITS_bits_k g = min (2 ^ F.BRL_GRP_BITS_bits_k.width - 1)
          (s.rd F.BRL_GRP_BITS_bits_k g + ((s.group g).bits + bits.length) / 1024)))
    ∧ (∀ (g m : Nat) (bits : List Bool) (s : State), s.grpState g = 8 →
    exec (.lanePrbsReceive g m bits) s = .next (
      let run := bits.foldl (prbsBit (s.on F.BRL_GRP_CTRL_test_pattern g)) (s.lane g m, 0)
      let total := (s.group g).bits + (bits.length - ((if s.on F.BRL_GRP_CTRL_test_pattern g then 15 else 31) - (s.lane g m).prbsSeen))
      (((s.updLane g m fun _ => run.1).bump F.BRL_LANE_ERR_prbs g m run.2).updGroup g fun x => { x with bits := total % 1024 }).bump
        F.BRL_GRP_BITS_bits_k g 0 (total / 1024)))

/-- O18 (spec/04_easels_and_intake.md). Parts of R128 to R131. EASEL_OPEN of a closed easel makes it opening; the write is refused while
closing. The admission check of an opening easel with no plan check and no voltage report awaited writes plan_code and req_code, then
opens it when no cause holds, or closes it with the first cause, admit_refused and EV_EASEL_ADMIT_FAIL. EASEL_CLOSE cancels an open in
progress, is refused while a take of the easel is open, and otherwise makes an open easel closing. EASEL_ABORT cancels an open in
progress, and of an open or closing easel scrapes every unsettled frame, then ends the take and closes the easel. An admission check with
no plan check and no voltage report awaited runs the admission with the plan code in force. -/
def Obligations.EaselOpensAndCloses : Prop :=
  (∀ (e : Nat) (s : State),
    (s.rd F.EASEL_STATUS_state e = 0 → Does (.easelOpen e) s fun t => t.rd F.EASEL_CTRL_open e = 1 ∧ t.rd F.EASEL_STATUS_state e = 3
      ∧ s.Only t [(F.EASEL_CTRL_open, e), (F.EASEL_STATUS_state, e)])
    ∧ (s.rd F.EASEL_STATUS_state e = 2 → Does (.easelOpen e) s fun t => t.rd F.EASEL_FLAGS_cfg_refused e = 1
      ∧ s.Only t [(F.EASEL_FLAGS_cfg_refused, e)])
    ∧ (s.rd F.EASEL_STATUS_state e = 3 → s.planPending = false → s.sys.asked = none →
      s.admitCause e (s.rd F.AGE_PLAN_plan_code) (s.reqCode (s.openEasels ++ [e])) = 0 →
      Does (.easelAdmissionCheck e) s fun t => t.rd F.EASEL_STATUS_state e = 1
        ∧ t.rd F.EASEL_ADMIT_plan_code e = s.rd F.AGE_PLAN_plan_code % 2 ^ F.EASEL_ADMIT_plan_code.width
        ∧ t.rd F.EASEL_ADMIT_req_code e = s.reqCode (s.openEasels ++ [e]) % 2 ^ F.EASEL_ADMIT_req_code.width)
    ∧ (∀ cause, s.rd F.EASEL_STATUS_state e = 3 → s.planPending = false → s.sys.asked = none → cause ≠ 0 →
      s.admitCause e (s.rd F.AGE_PLAN_plan_code) (s.reqCode (s.openEasels ++ [e])) = cause →
      Does (.easelAdmissionCheck e) s fun t => t.rd F.EASEL_STATUS_state e = 0 ∧ t.rd F.EASEL_CTRL_open e = 0
        ∧ t.rd F.EASEL_STATUS_refuse_cause e = cause ∧ t.rd F.EASEL_FLAGS_admit_refused e = 1
        ∧ s.Raised t 0 Ev.EASEL_ADMIT_FAIL (le 1 e ++ le 1 cause))
    ∧ (s.rd F.EASEL_STATUS_state e = 3 → Does (.easelClose e) s fun t => t.rd F.EASEL_CTRL_open e = 0 ∧ t.rd F.EASEL_STATUS_state e = 0
      ∧ s.Only t [(F.EASEL_CTRL_open, e), (F.EASEL_STATUS_state, e)])
    ∧ (s.rd F.EASEL_STATUS_state e = 1 → s.takeOpen e = true → Does (.easelClose e) s fun t => t.rd F.EASEL_FLAGS_cfg_refused e = 1
      ∧ s.Only t [(F.EASEL_FLAGS_cfg_refused, e)])
    ∧ (s.rd F.EASEL_STATUS_state e = 1 → s.takeOpen e = false → (s.easel e).pending = [] → s.anyUnsettled e = true → e < s.easels.length →
      Does (.easelClose e) s fun t => t.rd F.EASEL_CTRL_open e = 0 ∧ t.rd F.EASEL_STATUS_state e = 2
        ∧ s.Only t [(F.EASEL_CTRL_open, e), (F.EASEL_STATUS_state, e)])
    ∧ (s.rd F.EASEL_STATUS_state e = 3 → Does (.easelAbort e) s fun t => t.rd F.EASEL_CTRL_open e = 0 ∧ t.rd F.EASEL_STATUS_state e = 0
      ∧ s.Only t [(F.EASEL_CTRL_open, e), (F.EASEL_STATUS_state, e)])
    ∧ (s.rd F.EASEL_STATUS_state e ≠ 0 → s.rd F.EASEL_STATUS_state e ≠ 3 →
      exec (.easelAbort e) s = .next (
        let wet := ((s.easel e).frames.filter Frame.unsettled).map Frame.serial
        let t := ((s.scrapeAll e).each wet fun s k => s.scrapedOut e k).endTake e St.EASEL_CLOSED 1 keepNone
        if t.rd F.EASEL_STATUS_state e = 0 then t else t.easelClosed e)))
    ∧ (∀ (e : Nat) (s : State), s.rd F.EASEL_STATUS_state e = 3 → s.planPending = false → s.sys.asked = none →
    exec (.easelAdmissionCheck e) s = .next (s.admission e (s.rd F.AGE_PLAN_plan_code)))

/-- O19 (spec/03_barosh_link.md; spec/04_easels_and_intake.md). Parts of R109, R111 and R150, over a set that is UP with its lanes in service.
With the easel open and every check good, FRAME_START_RECEIVE opens the frame with the serial and echo of the blocks. A faulty frame-start
counts in fs_err, one that differs from the sensor profile in geom_err with EV_BRL_GEOMETRY, and no frame opens; the blocks of a frame-
start of a closed or opening easel count as orphans. With one block or more lost on the way to the set's first lane the frame-start is
judged by what came. -/
def Obligations.FrameStarts : Prop :=
  (∀ (e : Nat) (fs0 fs1 fs2 : Option (List Byte)) (s : State), s.setUp e = true → s.lanesOut e = false →
    (s.rd F.EASEL_STATUS_state e = 1 → s.fsBad e fs0 fs1 fs2 = false → s.fsGeometry e fs1 fs2 = false →
      exec (.frameStartReceive e fs0 fs1 fs2) s = .next (s.frameOpen e (s.fsSerial e fs0) (blockField fs1 1 4)))
    ∧ (s.rd F.EASEL_STATUS_state e = 1 → s.fsBad e fs0 fs1 fs2 = true → Does (.frameStartReceive e fs0 fs1 fs2) s fun t =>
      t.rd F.BRL_EASEL_ERR_fs_err e = min (2 ^ F.BRL_EASEL_ERR_fs_err.width - 1) (s.rd F.BRL_EASEL_ERR_fs_err e + 1)
        ∧ s.Only t [(F.BRL_EASEL_ERR_fs_err, e)])
    ∧ (s.rd F.EASEL_STATUS_state e = 1 → s.fsBad e fs0 fs1 fs2 = false → s.fsGeometry e fs1 fs2 = true →
      Does (.frameStartReceive e fs0 fs1 fs2) s fun t =>
        t.rd F.BRL_EASEL_ERR_geom_err e = min (2 ^ F.BRL_EASEL_ERR_geom_err.width - 1) (s.rd F.BRL_EASEL_ERR_geom_err e + 1)
          ∧ s.Only t ((F.BRL_EASEL_ERR_geom_err, e) :: eventFields))
    ∧ (s.rd F.EASEL_STATUS_state e = 0 ∨ s.rd F.EASEL_STATUS_state e = 3 → Does (.frameStartReceive e fs0 fs1 fs2) s fun t =>
      t.rd F.BRL_EASEL_ORPHAN_orphan e = min (2 ^ F.BRL_EASEL_ORPHAN_orphan.width - 1)
          (s.rd F.BRL_EASEL_ORPHAN_orphan e + blocksPresent (if s.heritage e then [fs0, fs2] else [fs0, fs1, fs2]))
        ∧ s.Only t [(F.BRL_EASEL_ORPHAN_orphan, e)]))
    ∧ (∀ (e : Nat) (fs0 fs1 fs2 : Option (List Byte)) (s : State), s.lanesOut e = false → s.easelGroups e ≠ [] →
    exec (.frameStartReceive e fs0 fs1 fs2) s = .next (s.frameStart e (s.onLowest e fs0) (s.onLowest e fs1) (s.onLowest e fs2)))

/-- O20 (spec/03_barosh_link.md; spec/04_easels_and_intake.md). Parts of R107, R109, R145, R146 and R150. A stripe of a row of known type and
index, with a frame taking rows, adds one report of that row; without such a frame its blocks are orphans. A good row in range reported to
an OPEN frame with more rows to come joins the rows seen; the blocks of a row of a settled frame are orphans. FRAME_END ends the frame
taking rows with its count and check, and is an orphan without one; its absence ends the frame with fe_timeout. The whole next state of
ROW_REPORT and of ROW_STRIPE_RECEIVE is given for a set that is UP; a FRAME_END whose own check fails ends the frame with its fault and
counts in fe_err. -/
def Obligations.RowsAndFrameEnds : Prop :=
  (∀ (e : Nat) (s : State),
    (∀ stripe p f, s.setUp e = true → s.lanesOut e = false → (s.easel e).discard = false → s.current e = some f →
      stripePlace (s.stripeKept e stripe) (12 * (s.easelGroups e).length) = some p →
      Does (.rowStripeReceive e stripe) s fun t => (∃ r : RowReport, t.link.reports = s.link.reports ++ [r] ∧ r.easel = e
        ∧ r.serial = f.serial ∧ r.ob = p.1 ∧ r.index = p.2) ∧ t.mem = s.mem)
    ∧ (∀ stripe, s.setUp e = true → s.lanesOut e = false → s.current e = none →
      Does (.rowStripeReceive e stripe) s fun t => t.rd F.BRL_EASEL_ORPHAN_orphan e =
        min (2 ^ F.BRL_EASEL_ORPHAN_orphan.width - 1)
          (s.rd F.BRL_EASEL_ORPHAN_orphan e + stripeBlocks (s.stripeKept e stripe) (12 * (s.easelGroups e).length) (s.rowLength e))
          ∧ s.Only t [(F.BRL_EASEL_ORPHAN_orphan, e)])
    ∧ (∀ r rest f, s.link.reports = r :: rest → r.easel < s.easels.length → s.frame r.easel r.serial = some f → f.st = .opened →
      f.ended = false → r.ob = false → r.index < f.height → r.result = 0 → r.spilt = false →
      Does .rowReport s fun t => ∃ g, t.frame r.easel r.serial = some g ∧ g.seen = r.index :: f.seen ∧ g.bad = f.bad ∧ g.fault = f.fault
        ∧ t.mem = s.mem)
    ∧ (∀ r rest f, s.link.reports = r :: rest → s.frame r.easel r.serial = some f → f.unsettled = false →
      Does .rowReport s fun t => t.link.reports = rest ∧ t.rd F.BRL_EASEL_ORPHAN_orphan r.easel =
        min (2 ^ F.BRL_EASEL_ORPHAN_orphan.width - 1) (s.rd F.BRL_EASEL_ORPHAN_orphan r.easel + r.blocks))
    ∧ (∀ payload f, s.setUp e = true → s.lanesOut e = false → s.slept e ((s.easelGroups e).headD 0) = false → (s.easel e).discard = false → s.current e = some f → isControl 0x66 (some payload) = true →
      exec (.frameEndReceive e payload) s = .next (s.frameEnd e f (.fe (fieldAt payload 1 2) (fieldAt payload 3 4))))
    ∧ (∀ payload, s.setUp e = true → s.lanesOut e = false → s.slept e ((s.easelGroups e).headD 0) = false → (s.easel e).discard = false → s.current e = none →
      Does (.frameEndReceive e payload) s fun t => t.rd F.BRL_EASEL_ORPHAN_orphan e =
        min (2 ^ F.BRL_EASEL_ORPHAN_orphan.width - 1) (s.rd F.BRL_EASEL_ORPHAN_orphan e + 1) ∧ s.Only t [(F.BRL_EASEL_ORPHAN_orphan, e)])
    ∧ (∀ f, s.current e = some f → exec (.frameEndTimeout e) s = .next
      (((s.flagCount F.EASEL_FLAGS_fe_timeout F.EASEL_CNT_MISC_fe_timeout e).raise 0 Ev.INTAKE_FE_TIMEOUT
        (framePayload e f.serial f.fault)).frameEnd e f .missing)))
    ∧ ((∀ (s : State) (r : RowReport) (rest : List RowReport), s.link.reports = r :: rest →
    exec .rowReport s = .next (
      let t := { s with link := { s.link with reports := rest } }
      match t.frame r.easel r.serial with
      | some f => if f.unsettled then t.rowTaken r f else t.bump F.BRL_EASEL_ORPHAN_orphan r.easel 0 r.blocks
      | none => t.bump F.BRL_EASEL_ORPHAN_orphan r.easel 0 r.blocks))
    ∧ (∀ (e : Nat) (stripe : RowStripe) (s : State), s.setUp e = true → s.lanesOut e = false →
      ((s.easel e).discard = true ∨ s.current e = none → exec (.rowStripeReceive e stripe) s = .next (s.stripeDropped e stripe))
      ∧ (∀ f p, (s.easel e).discard = false → s.current e = some f →
        stripePlace (s.stripeKept e stripe) (12 * (s.easelGroups e).length) = some p →
        exec (.rowStripeReceive e stripe) s = .next ((s.spiltTaken e (s.stripeLost e stripe)).rowTake e f (s.stripeKept e stripe) p.1 p.2
          !(s.stripeLost e stripe).isEmpty))
      ∧ (∀ f, (s.easel e).discard = false → s.current e = some f →
        stripePlace (s.stripeKept e stripe) (12 * (s.easelGroups e).length) = none →
        exec (.rowStripeReceive e stripe) s = .next (s.stripeUnread e f stripe)))
    ∧ (∀ (e : Nat) (payload : List Byte) (f : Frame) (s : State), s.setUp e = true → s.lanesOut e = false →
      s.slept e ((s.easelGroups e).headD 0) = false → (s.easel e).discard = false → s.current e = some f → isControl 0x66 (some payload) = false →
      exec (.frameEndReceive e payload) s = .next ((s.bump F.BRL_EASEL_ERR_fe_err e).frameEnd e f .feBad)))

/-- O21 (spec/04_easels_and_intake.md). Parts of R148 and R149. Settling a frame of an easel that is not closing: by the policy the frame is
scraped, else with a fault among bits 0 to 6 it is DAMAGED, else DRY; the count of that outcome goes up, a scrape or damage sets its flag,
and EASEL_LAST names the frame. A notice goes to each of the eleven consumers. -/
def Obligations.SettledStateFollowsTheFaultWord : Prop :=
  ∀ (e : Nat) (s : State) (f : Frame) (fault : Nat), s.rd F.EASEL_STATUS_state e ≠ 2 →
    ((s.settleTo e f .dry fault).rd F.EASEL_CNT_DRY_count e = min (2 ^ F.EASEL_CNT_DRY_count.width - 1) (s.rd F.EASEL_CNT_DRY_count e + 1))
    ∧ ((s.settleTo e f .damaged fault).rd F.EASEL_FLAGS_damaged e = 1
      ∧ (s.settleTo e f .damaged fault).rd F.EASEL_CNT_DAMAGED_count e =
        min (2 ^ F.EASEL_CNT_DAMAGED_count.width - 1) (s.rd F.EASEL_CNT_DAMAGED_count e + 1))
    ∧ ((s.settleTo e f .scraped fault).rd F.EASEL_FLAGS_scrape e = 1
      ∧ (s.settleTo e f .scraped fault).rd F.EASEL_CNT_SCRAPE_count e =
        min (2 ^ F.EASEL_CNT_SCRAPE_count.width - 1) (s.rd F.EASEL_CNT_SCRAPE_count e + 1))
    ∧ (∀ st, (s.settleTo e f st fault).rd F.EASEL_LAST_LO_serial_lo e = f.serial % 2 ^ F.EASEL_LAST_LO_serial_lo.width
      ∧ (s.settleTo e f st fault).notices = s.notices ++ allConsumers.map fun c => (c, e, f.serial))
    ∧ (bitOf f.fault 0 = false → f.missing = 0 → f.fault % 128 = 0 → f.bad = 0 → s.settle e f = s.settleTo e f .dry f.fault)
    ∧ (bitOf f.fault 0 = true → f.onShort = true → s.settle e f = s.settleTo e f .scraped f.fault)

/-- O22 (spec/04_easels_and_intake.md). Parts of R136 to R139. TICKET_POST with ticket ID 0 ends with BAD_TICKET; a good one for an easel that
is not open ends with EASEL_CLOSED; a good one for an open easel waits in the window, and one that waited there completes SUPERSEDED and
counts. TICKET_WINDOW_CLOSE with nothing posted closes the window and changes nothing else; otherwise the ticket that waits binds. -/
def Obligations.Tickets : Prop :=
  ∀ (id e : Nat) (c : Cmd) (s : State),
    (s.Waits id 0x01 c → c.mute = false → c.w 16 = 0 → Does (.ticketPost id) s fun t => t.Answered c St.BAD_TICKET 0 0 ∧ s.Only t [])
    ∧ (s.Waits id 0x01 c → c.mute = false → c.w 16 ≠ 0 → c.b 21 ≤ 4 → c.h 22 = 0 → c.h 34 = 0 → c.w 60 = 0 → c.b 20 = e → e < 4 →
      s.rd F.EASEL_STATUS_state e ≠ 1 → Does (.ticketPost id) s fun t => t.Answered c St.EASEL_CLOSED (c.w 16) 0 ∧ s.Only t [])
    ∧ (s.Waits id 0x01 c → c.w 16 ≠ 0 → c.b 21 ≤ 4 → c.h 22 = 0 → c.h 34 = 0 → c.w 60 = 0 → c.b 20 = e → e < 4 → e < s.easels.length →
      s.rd F.EASEL_STATUS_state e = 1 → (s.easel e).pending = [] →
      Does (.ticketPost id) s fun t => (t.easel e).pending = [id] ∧ t.host.records = s.host.records ∧ s.Only t [])
    ∧ (∀ k d, s.Waits id 0x01 c → c.w 16 ≠ 0 → c.b 21 ≤ 4 → c.h 22 = 0 → c.h 34 = 0 → c.w 60 = 0 → c.b 20 = e → e < 4 →
      e < s.easels.length → s.rd F.EASEL_STATUS_state e = 1 → (s.easel e).pending = [k] → k ≠ id → s.Runs k 0x01 d → d.mute = false →
      Does (.ticketPost id) s fun t => (t.easel e).pending = [id] ∧ t.Answered d St.SUPERSEDED (d.w 16) 0
        ∧ t.rd F.EASEL_CNT_MISC_superseded e = min (2 ^ F.EASEL_CNT_MISC_superseded.width - 1) (s.rd F.EASEL_CNT_MISC_superseded e + 1)
        ∧ s.Only t [(F.EASEL_CNT_MISC_superseded, e)])
    ∧ (∀ n, (s.easel e).window = some n → (s.easel e).pending = [] → e < s.easels.length →
      Does (.ticketWindowClose e) s fun t => (t.easel e).window = none ∧ s.Only t [])
    ∧ (∀ n, (s.easel e).window = some n → exec (.ticketWindowClose e) s = .next (s.windowClose e n))

/-- O23 (spec/01_architecture.md; spec/04_easels_and_intake.md; spec/08_hbm_memory.md). Parts of R24, R133, R134 and R281. With brushes
powered and in service BRUSH_BAND_START takes the oldest ready band of its half. TILE_CLOSE of a tile of a taken band makes the tile from
what the brush read, damaged when a row of its band is missing or bad or the CRC-32C of the link tile formed at the intake differs, which
counts. CANVAS_WRITE_DONE stores a fused tile and its record at their addresses in the frame's slot, of stacks that take requests, and no
other byte of HBM changes. SETTLE_NOTICE hands the frame's notice to its consumer, once. The whole next state of BRUSH_BAND_START and of
CANVAS_WRITE_DONE, which lets the views go on, is given too; a tile of a frame without a slot is stored nowhere. -/
def Obligations.BandsTilesAndCanvasWrites : Prop :=
  (∀ (h e serial tile : Nat) (s : State),
    (∀ b rest, s.brush.ready.getD h [] = b :: rest → s.brushes h ≠ 0 → s.brushesOut h = false →
      ∀ full, Does (.brushBandStart h full) s fun t =>
        t.brush.taken = b :: s.brush.taken ∧ t.brush.ready = s.brush.ready.set h rest ∧ (full = [] → s.Only t []))
    ∧ (∀ f cf seen, s.frame e serial = some f → s.condFrame e serial = some cf → (f.blackSource = 1 → cf.black.isSome = true) →
      tile / max 1 (f.width / 64) < f.height / 32 → s.brushesOut (tile / max 1 (f.width / 64) % 2) = false →
      s.brushes (tile / max 1 (f.width / 64) % 2) ≠ 0 → s.brush.taken.contains (e, serial, tile / max 1 (f.width / 64)) = true → s.brush.closed.contains (e, serial, tile) = false →
      (s.link.rows.any fun r => r.easel == e && r.serial == serial && !r.ob && r.index / 32 == tile / max 1 (f.width / 64)) = true →
      exec (.tileClose e serial tile seen) s = .next
        (((s.whenB (!seen.all fun l => crc32c l == crc32c (s.linkTile e f tile)) fun s => s.countUp (.intakeCrc e)).tileClose e f cf tile
          (readRows (s.bandRows e f cf (tile / max 1 (f.width / 64))) tile seen)
          (!((List.range 32).all fun j => (s.link.rows.filter fun r => r.easel == e && r.serial == serial && !r.ob
            && r.index / 32 == tile / max 1 (f.width / 64)).any fun r => r.index == 32 * (tile / max 1 (f.width / 64)) + j && !r.bad)
            || !seen.all fun l => crc32c l == crc32c (s.linkTile e f tile))).viewsRun))
    ∧ (∀ x k, s.brush.fused.find? (fun x => x.easel == e && x.serial == serial && x.tile == tile) = some x → s.slotOf e serial = some k →
      s.stackFault (stackOf ((s.canvas e).tileAddr k tile)) = false → s.stackFault (stackOf ((s.canvas e).recAddr k tile)) = false → s.hbm.held = [] →
      s.hbmWaits ((s.canvas e).tileAddr k tile) x.data.length = false → s.hbmWaits ((s.canvas e).recAddr k tile) x.record.length = false →
      Does (.canvasWriteDone e serial tile) s fun t =>
        t.mem = (s.mem.writeList ((s.canvas e).tileAddr k tile) x.data).writeList ((s.canvas e).recAddr k tile) x.record
        ∧ t.brush.readable = s.brush.readable ++ [(e, serial, tile)] ∧ ∀ f i j, t.rd f i j = s.rd f i j)
    ∧ (∀ c, s.notices.contains (c, e, serial) = true →
      exec (.settleNotice c e serial) s = .next (({ s with notices := s.notices.erase (c, e, serial) } : State).notice c e serial)))
    ∧ ((∀ (h : Nat) (full : List Nat) (b : Nat × Nat × Nat) (rest : List (Nat × Nat × Nat)) (s : State), s.brush.ready.getD h [] = b :: rest →
    s.brushes h ≠ 0 → s.brushesOut h = false →
    exec (.brushBandStart h full) s = .next (
      let t : State := { s with brush := { s.brush with
        ready := s.brush.ready.set h rest, prev := s.brush.prev.set h (some b.1), taken := b :: s.brush.taken } }
      (t.releaseRows fun r => r.easel == b.1 && r.serial == b.2.1 && !r.ob && r.index / 32 == b.2.2).bandFallback h b.1 b.2.1 b.2.2 full))
    ∧ (∀ (e serial tile : Nat) (x : FusedTile) (s : State),
      s.brush.fused.find? (fun x => x.easel == e && x.serial == serial && x.tile == tile) = some x →
      exec (.canvasWriteDone e serial tile) s = .next (
        let t : State := { s with brush := { s.brush with
          fused := s.brush.fused.filter fun y => !(y.easel == e && y.serial == serial && y.tile == tile) } }
        match t.slotOf e serial with
        | none => t
        | some k =>
          let t1 := (t.put ((t.canvas e).tileAddr k tile) x.data).put ((t.canvas e).recAddr k tile) x.record
          let t2 : State := { t1 with brush := { t1.brush with readable := t1.brush.readable ++ [(e, serial, tile)] } }
          t2.viewsRun)))

/-- O24 (spec/08_hbm_memory.md). Parts of R283 and R285. CANVAS_HOLD_RELEASE takes one holder's hold from one part of a slot. When no hold
remains and the slot's frame has settled, the slot is FREE; while another hold remains, or its frame is WET, it keeps its state. -/
def Obligations.CanvasHolds : Prop :=
  ∀ (e k part : Nat) (h : Holder) (s : State) (x : Slot), e < s.hbm.canvases.length → (s.canvas e).slots[k]? = some x →
    Does (.canvasHoldRelease e k part h) s fun t =>
      (∃ y, (t.canvas e).slots[k]? = some y ∧ y.serial = x.serial ∧ y.holds = x.holds.filter (· ≠ (part, h))
        ∧ y.st = if (x.holds.filter (· ≠ (part, h))).isEmpty ∧ (x.st = .settled ∨ x.st = .scraped) then .free else x.st)
      ∧ (∀ k', k' ≠ k → (t.canvas e).slots[k']? = (s.canvas e).slots[k']?)
      ∧ s.Only t [(F.HBM_CANVAS_STATUS_free, e)]

/-- O25 (spec/05_raw_conditioning.md; spec/06_colour_and_views.md). Parts of R178, R222 and R223. COND_COMMIT, PAL_COMMIT and VIEW_COMMIT with
none pending set pending and start the check of the shadows; with one pending they set cfg_refused and change nothing else. The end of a
conditioning check of values in range with a good defect map makes the set wait for its frame-start, one out of range sets cfg_bad, one
with too large a defect map sets map_bad with its event, and neither is pending any longer. A passed colour or view set waits for its
frame-start; one out of range sets cfg_bad and is no longer pending. The end of a colour or view check decides the set that was taken,
whatever it holds. -/
def Obligations.SettingsCommits : Prop :=
  (∀ (e v : Nat) (s : State),
    (s.on F.COND_COMMIT_pending e = false → e < s.cond.length → Does (.condCommit e) s fun t => t.rd F.COND_COMMIT_pending e = 1
      ∧ (t.condOf e).check = some (s.condShadow e) ∧ s.Only t [(F.COND_COMMIT_pending, e)])
    ∧ (s.on F.COND_COMMIT_pending e = true → Does (.condCommit e) s fun t => t.rd F.COND_FLAGS_cfg_refused e = 1
      ∧ s.Only t [(F.COND_FLAGS_cfg_refused, e)])
    ∧ (s.on F.PAL_COMMIT_pending e = false → e < s.pal.length → Does (.palCommit e) s fun t => t.rd F.PAL_COMMIT_pending e = 1
      ∧ (t.palOf e).check = some (s.palShadow e) ∧ s.Only t [(F.PAL_COMMIT_pending, e), (F.PAL_SLOTS_loaded, e), (F.PAL_SLOTS_in_use, e)])
    ∧ (s.on F.PAL_COMMIT_pending e = true → Does (.palCommit e) s fun t => t.rd F.PAL_FLAGS_cfg_refused e = 1
      ∧ s.Only t [(F.PAL_FLAGS_cfg_refused, e)])
    ∧ (s.on F.VIEW_COMMIT_pending v = false → v < s.views.length → Does (.viewCommit v) s fun t => t.rd F.VIEW_COMMIT_pending v = 1
      ∧ (t.view v).check = some (s.viewShadow v) ∧ s.Only t [(F.VIEW_COMMIT_pending, v), (F.VIEW_SLOTS_loaded, v), (F.VIEW_SLOTS_in_use, v)])
    ∧ (s.on F.VIEW_COMMIT_pending v = true → Does (.viewCommit v) s fun t => t.rd F.VIEW_FLAGS_cfg_refused v = 1
      ∧ s.Only t [(F.VIEW_FLAGS_cfg_refused, v)])
    ∧ (∀ r, s.planPending = false → s.mapWaits e = false → e < s.cond.length → (s.condOf e).check = some r → (bareSet r).rd F.COND_MAP_COUNT_value e = 0 →
      s.condRanges e (bareSet r) = true →
      Does (.condCommitCheckDone e) s fun t => (t.condOf e).ready = some (r, []) ∧ (t.condOf e).check = none ∧ s.Only t [])
    ∧ (∀ r, s.planPending = false → s.mapWaits e = false → (s.condOf e).check = some r → s.condRanges e (bareSet r) = false →
      Does (.condCommitCheckDone e) s fun t => t.rd F.COND_FLAGS_cfg_bad e = 1 ∧ t.rd F.COND_COMMIT_pending e = 0)
    ∧ (∀ r, s.planPending = false → s.mapWaits e = false → (s.condOf e).check = some r → 262144 < (bareSet r).rd F.COND_MAP_COUNT_value e →
      Does (.condCommitCheckDone e) s fun t => t.rd F.COND_FLAGS_map_bad e = 1 ∧ t.rd F.COND_COMMIT_pending e = 0
        ∧ s.Raised t 0 Ev.COND_MAP_BAD (le 4 262144))
    ∧ (∀ r, e < s.pal.length → (s.palOf e).check = some r → palRanges r e = true → palUses r e = none →
      Does (.colourCommitCheckDone false e) s fun t => (t.palOf e).ready = some r ∧ (t.palOf e).check = none)
    ∧ (∀ r, (s.palOf e).check = some r → palRanges r e = false →
      Does (.colourCommitCheckDone false e) s fun t => t.rd F.PAL_FLAGS_cfg_bad e = 1 ∧ t.rd F.PAL_COMMIT_pending e = 0)
    ∧ (∀ r, s.planPending = false → v < s.views.length → (s.view v).check = some r → s.viewRanges r v = true → viewUses r v = none →
      (pictureChanges (s.view v).inForce r v && s.viewNamed v) = false → s.rd F.EASEL_STATUS_state (s.viewEasel v) ≠ 0 →
      Does (.colourCommitCheckDone true v) s fun t => (t.view v).ready = some r ∧ (t.view v).check = none)
    ∧ (∀ r, s.planPending = false → (s.view v).check = some r → s.viewRanges r v = false →
      Does (.colourCommitCheckDone true v) s fun t => t.rd F.VIEW_FLAGS_cfg_bad v = 1 ∧ t.rd F.VIEW_COMMIT_pending v = 0))
    ∧ (∀ (i : Nat) (r : RegStore) (s : State),
    ((s.palOf i).check = some r → exec (.colourCommitCheckDone false i) s = .next (s.palChecked i r))
    ∧ (s.planPending = false → (s.view i).check = some r → exec (.colourCommitCheckDone true i) s = .next (s.viewChecked i r)))

/-- O26 (spec/05_raw_conditioning.md). Parts of R165, R169 and R184 to R189. BLACK_ESTIMATE_DONE with the row source gives the frame its B(c).
A malformed COND_CAL ends with CAL_BAD_REQ; a forced one while a take is open ends with CAL_TAKE_OPEN; a good one with no run of its kind
makes one that names it. A frame kind starts at the oldest frame-start accepted since its request, and at its end its result waits for a
frame-start. SELFTEST waiting with no band ready and idle brushes starts, and ending with no brush failing clears fail and is gone; a run
that waits for idle brushes too long ends its commands with BUSY. The end of a run that runs and has the frames it needs has the whole
effect of its kind. -/
def Obligations.BlackEstimateAndCalibration : Prop :=
  (∀ (e id : Nat) (c : Cmd) (s : State),
    (∀ serial f cf, s.frame e serial = some f → s.condFrame e serial = some cf → f.blackSource = 1 → cf.black = none →
      exec (.blackEstimateDone e serial false) s = .next
        ((s.updCondFrame e serial fun x => { x with black := some (s.blacks e f cf 0), waited := false }).reportWeak e cf
          (s.weakChannels e f cf 0)))
    ∧ (s.Waits id 0x02 c → c.mute = false → calBad c (s.rd F.RING_SQ_STATUS_role c.ring) = true → Does (.condCal id) s fun t => t.Answered c St.CAL_BAD_REQ 0 0 ∧ s.Only t [])
    ∧ (s.Waits id 0x02 c → c.mute = false → calBad c (s.rd F.RING_SQ_STATUS_role c.ring) = false → c.b 16 = 7 → c.b 18 = 1 → s.anyTakeOpen = true →
      Does (.condCal id) s fun t => t.Answered c St.CAL_TAKE_OPEN 0 0)
    ∧ (s.Waits id 0x02 c → calBad c (s.rd F.RING_SQ_STATUS_role c.ring) = false → c.b 16 = 7 → c.b 17 = e → c.b 18 = 0 → e < s.condHalf.length → s.calRuns 7 e = [] →
      Does (.condCal id) s fun t => ∃ r, t.calRuns 7 e = [r] ∧ r.kind = 7 ∧ r.cmds = [id] ∧ r.running = false ∧ r.forced = false)
    ∧ (∀ r, s.calRuns 7 e = [r] → r.kind = 7 → r.running = false → e < s.condHalf.length → s.brush.ready.getD e [] = [] → s.brushBusy e = false →
      Does (.calRunStart 7 e) s fun t => t.calRuns 7 e = [{ r with running := true }] ∧ t.rd F.COND_HALF_STATUS_running e = 1
        ∧ s.Only t [(F.COND_HALF_STATUS_running, e)])
    ∧ (∀ kind r f, 1 ≤ kind → kind ≤ 4 → (s.calRuns kind e).find? (fun r => r.kind == kind) = some r → r.running = false →
      ((s.easel e).frames.take ((s.easel e).accepted - r.since)).reverse.head? = some f →
      exec (.calRunStart kind e) s = .next (s.updRun kind e fun r => { r with running := true, first := f.serial }))
    ∧ (∀ kind r values, 1 ≤ kind → kind ≤ 3 → s.calRuns kind e = [r] → r.kind = kind → r.running = true → r.need ≤ r.taken → e < s.cond.length →
      Does (.calRunEnd kind e values) s fun t => t.calRuns kind e = [] ∧ (t.condOf e).results = (s.condOf e).results ++ [r])
    ∧ (∀ r, s.calRuns 7 e = [r] → r.kind = 7 → r.running = true → r.cmds = [] → e < s.condHalf.length →
      Does (.calRunEnd 7 e []) s fun t => t.calRuns 7 e = [] ∧ t.rd F.COND_HALF_STATUS_running e = 0 ∧ t.rd F.COND_HALF_STATUS_fail e = 0)
    ∧ (∀ r, s.calRuns 7 e = [r] → r.kind = 7 → r.running = false → r.auto = false → r.cmds = [id] → e < s.condHalf.length →
      s.cmd id = some c → c.stage = .running → c.mute = false →
      Does (.calDeferTimeout 7 e) s fun t => t.calRuns 7 e = [] ∧ t.Answered c St.BUSY 0 0 ∧ s.Only t []))
    ∧ (∀ (kind e : Nat) (values : List Int) (r : CalRun) (s : State), (s.calRuns kind e).find? (fun r => r.kind == kind) = some r → r.running = true →
    (kind ≤ 4 → r.need ≤ r.taken) → exec (.calRunEnd kind e values) s = .next (s.calEnded kind e values r))

/-- O27 (spec/06_colour_and_views.md). Parts of R204 and R207 to R209. A malformed PAL_LOAD ends with PAL_BAD_REQ. One that names a slot of
the plan neither in use nor loading reads the image from host memory, and the slot reads not loaded. PAL_LOAD_COMPLETE with an image that
verifies writes it to the slot's places in both stacks, where they take requests, and ends with OK; with another it ends with
PAL_IMAGE_BAD. Where the slots lie in the PIPE regions, and that no slot exists without a plan, is the model's choice (log 102). The whole
next state of PAL_LOAD_COMPLETE is given; a load met by a plan check waits for it. -/
def Obligations.Palettes : Prop :=
  (∀ (id : Nat) (c : Cmd) (s : State),
    (s.planPending = false → s.Waits id 0x03 c → c.mute = false → palBad c = true → Does (.palLoad id) s fun t => t.Answered c St.PAL_BAD_REQ 0 0 ∧ s.Only t [])
    ∧ (s.planPending = false → s.Waits id 0x03 c → palBad c = false → (s.slotPlaces (slotNumber c)).isSome = true → bitOf (s.loadTarget c).2 (c.b 17) = false →
      ((s.loadTarget c).1.getD (c.b 17) PalSlot.init).loading = false → c.b 17 < (s.loadTarget c).1.length →
      Does (.palLoad id) s fun t => t.out = .hostRead (c.d 24) 1672448 :: s.out ∧ t.host.records = s.host.records ∧ t.mem = s.mem
        ∧ ((t.loadTarget c).1.getD (c.b 17) PalSlot.init).loading = true)
    ∧ (∀ image a, s.Runs id 0x03 c → c.mute = false → imageOk image = true → s.slotPlaces (slotNumber c) = some a →
      s.hbm.held = [] → s.stackFault (stackOf a.1) = false → s.stackFault (stackOf a.2) = false → s.hbmWaits a.1 image.length = false →
      s.hbmWaits a.2 image.length = false →
      Does (.palLoadComplete id image) s fun t => t.Answered c St.OK 0 0 ∧ t.mem = (s.mem.writeList a.1 image).writeList a.2 image)
    ∧ (∀ image, s.Runs id 0x03 c → c.mute = false → imageOk image = false →
      Does (.palLoadComplete id image) s fun t => t.Answered c St.PAL_IMAGE_BAD 0 0 ∧ t.mem = s.mem))
    ∧ (∀ (id : Nat) (c : Cmd) (image : List Byte) (s : State),
    (∀ a, s.Runs id 0x03 c → imageOk image = true → s.slotPlaces (slotNumber c) = some a →
      exec (.palLoadComplete id image) s = .next
        ((((s.put a.1 image).put a.2 image).updSlotOf c fun _ => { place := some a, loading := false }).complete id St.OK))
    ∧ (s.Runs id 0x03 c → imageOk image = false →
      exec (.palLoadComplete id image) s = .next ((s.updSlotOf c fun _ => PalSlot.init).complete id St.PAL_IMAGE_BAD))
    ∧ (s.planPending = true → exec (.palLoad id) s = .next (s.waitPlan (.palLoad id))))

/-- O28 (spec/06_colour_and_views.md). Parts of R192, R219, R220, R222 and R230. VIEW_PICTURE_START of a frame the view may take, whose set
the frame keeps with the ring in force, starts its picture in a free slot, or with none sets drop, counts it and raises EV_VIEW_DROP.
VIEW_PICTURE_DONE, once every tile the picture reads is at hand, ends the picture in hand in its slot and counts it. STATS_RECORD_POST
writes the oldest settled frame's record to its slot of the host ring and moves the tail on, or with a full ring sets stats_drop. The
whole next state of VIEW_PICTURE_DONE and of STATS_RECORD_POST of the oldest settled frame is given. -/
def Obligations.ViewPicturesAndStatistics : Prop :=
  (∀ (v e : Nat) (s : State),
    (∀ serial f, s.viewEaselOf v serial = e → s.frame e serial = some f → s.viewMay v e f = true →
      (∀ g, s.statFrame e serial = some g → regOn g.pal F.PAL_CTRL_source e = false) →
      sameRing (s.viewSet v e f.serial) (s.view v).inForce v = true → s.freeViewSlot v = none →
      Does (.viewPictureStart v serial) s fun t => t.rd F.VIEW_FLAGS_drop v = 1
        ∧ t.rd F.VIEW_CNT_drop v = min (2 ^ F.VIEW_CNT_drop.width - 1) (s.rd F.VIEW_CNT_drop v + 1)
        ∧ s.Raised t 0 Ev.VIEW_DROP [] ∧ s.Only t ([(F.VIEW_FLAGS_drop, v), (F.VIEW_CNT_drop, v)] ++ eventFields))
    ∧ (∀ serial f k, s.viewEaselOf v serial = e → s.frame e serial = some f → s.viewMay v e f = true →
      (∀ g, s.statFrame e serial = some g → regOn g.pal F.PAL_CTRL_source e = false) →
      sameRing (s.viewSet v e f.serial) (s.view v).inForce v = true → s.freeViewSlot v = some k →
      exec (.viewPictureStart v serial) s = .next ((s.pictureStart v e f).1.sketchOffer v k e f).viewsRun)
    ∧ (∀ old k x f g, s.writingPicture v = some (old, k, x) → s.frame x.easel x.serial = some f → s.statFrame x.easel x.serial = some g →
      s.tilesIn x.easel v f g = true → s.viewHeld v = false → s.pictureWaits v x f g = false →
      Does (.viewPictureDone v) s fun t => t.rd F.VIEW_CNT_pictures v = min (2 ^ F.VIEW_CNT_pictures.width - 1) (s.rd F.VIEW_CNT_pictures v + 1)
        ∧ t = s.pictureEnd v k x f g old)
    ∧ (∀ serial rest f g, (s.palOf e).queue = serial :: rest →
      (s.notices.any fun n => n.1 == Consumer.stats && n.2.1 == e && decide (n.2.2 < serial)) = false →
      s.frame e serial = some f → s.statFrame e serial = some g → e < s.pal.length →
      ahead (s.rd F.PAL_STATS_TAIL_value e) (s.rd F.PAL_STATS_HEAD_value e) ≠ 2 ^ regOf (s.palOf e).inForce F.PAL_STATS_CFG_depth_log2 e →
      Does (.statsRecordPost e) s fun t => (t.palOf e).queue = rest
        ∧ t.rd F.PAL_STATS_TAIL_value e = (s.rd F.PAL_STATS_TAIL_value e + 1) % 2 ^ F.PAL_STATS_TAIL_value.width
        ∧ ∃ bs, t.out = .hostWrite (regOf (s.palOf e).inForce F.PAL_STATS_BASE_LO_value e
            + 4294967296 * regOf (s.palOf e).inForce F.PAL_STATS_BASE_HI_value e
            + s.rd F.PAL_STATS_TAIL_value e % 2 ^ regOf (s.palOf e).inForce F.PAL_STATS_CFG_depth_log2 e * 16384) bs :: s.out)
    ∧ (∀ serial rest f g, (s.palOf e).queue = serial :: rest →
      (s.notices.any fun n => n.1 == Consumer.stats && n.2.1 == e && decide (n.2.2 < serial)) = false →
      s.frame e serial = some f → s.statFrame e serial = some g → e < s.pal.length →
      ahead (s.rd F.PAL_STATS_TAIL_value e) (s.rd F.PAL_STATS_HEAD_value e) = 2 ^ regOf (s.palOf e).inForce F.PAL_STATS_CFG_depth_log2 e →
      Does (.statsRecordPost e) s fun t => t.rd F.PAL_FLAGS_stats_drop e = 1 ∧ t.out = s.out))
    ∧ (∀ (v e serial k : Nat) (old : Bool) (x : ViewSlot) (rest : List Nat) (f : Frame) (g : StatFrame) (s : State),
    (s.writingPicture v = some (old, k, x) → s.frame x.easel x.serial = some f → s.statFrame x.easel x.serial = some g →
      s.tilesIn x.easel v f g = true → s.viewHeld v = false → s.pictureWaits v x f g = false →
      exec (.viewPictureDone v) s = .next (s.pictureEnd v k x f g old))
    ∧ ((s.palOf e).queue = serial :: rest → (s.notices.any fun n => n.1 == Consumer.stats && n.2.1 == e && decide (n.2.2 < serial)) = false →
      (s.updPal e fun p => { p with queue := rest }).frame e serial = some f → (s.updPal e fun p => { p with queue := rest }).statFrame e serial = some g →
      exec (.statsRecordPost e) s = .next ((s.updPal e fun p => { p with queue := rest }).statsPost e f g)))

/-- O29 (spec/07_lossless_packer.md). Parts of R243 to R249. PACKER_TILE_TAKE gives the half's next tile the next sequence number and its
lane. PACKER_TILE_COMMIT of a lane whose ring has no room for the rest of the entry writes what fits and stalls the lane; with room the
commit pointer passes the entry, modulo the ring's size. LANE_RING_RESUME of a stalled lane with room again goes on at the word it held,
the entry still to be committed. The whole next state of the three commands is given for every tile and lane. -/
def Obligations.PackerLanes : Prop :=
  (∀ (h l : Nat) (s : State), s.powered (18 + h) = true → h < s.pack.length →
    (∀ x k, s.on F.LZP_CTRL_enable h = true → (s.packLane h (s.rd F.LZP_SEQ_seq h % 48)).tiles.length < 2 → s.nextPackTile h = some x →
      s.slotOf x.1 x.2.1 = some k → s.takesWork (0x30 + h) = true → (s.brush.readable.contains x && s.canvasWaits x.1 k x.2.2) = false →
      Does (.packerTileTake h) s fun t => t.rd F.LZP_SEQ_seq h = (s.rd F.LZP_SEQ_seq h + 1) % 2 ^ F.LZP_SEQ_seq.width
        ∧ (t.packOf h).taken = x :: (s.packOf h).taken ∧ t.mem = s.mem)
    ∧ (∀ p rest, (s.packLane h l).tiles = p :: rest → (s.packLane h l).stalled = false → l < (s.packOf h).lanes.length →
      s.laneSize h < (s.packLane h l).used + (entryBytes p (packOutput p).1 (packOutput p).2).length →
      64 * (s.packLane h l).words < (laneStream (s.packLane h l) p).1.length → (laneStream (s.packLane h l) p).2 = true →
      Does (.packerTileCommit h l) s fun t => (t.packLane h l).stalled = true ∧ (t.packLane h l).tiles = p :: rest
        ∧ (s.packLane h l).words ≤ (t.packLane h l).words ∧ t.rd F.LZP_FLAGS_ring_stall h = 1
        ∧ t.rd F.LZP_LANE_COMMIT_offset h l = s.rd F.LZP_LANE_COMMIT_offset h l)
    ∧ (∀ p rest, (s.packLane h l).tiles = p :: rest → (s.packLane h l).stalled = false →
      (s.packLane h l).used + (entryBytes p (packOutput p).1 (packOutput p).2).length ≤ s.laneSize h →
      Does (.packerTileCommit h l) s fun t =>
        t.rd F.LZP_LANE_COMMIT_offset h l = (s.rd F.LZP_LANE_COMMIT_offset h l + (entryBytes p (packOutput p).1 (packOutput p).2).length)
          % max 1 (s.laneSize h) % 2 ^ F.LZP_LANE_COMMIT_offset.width)
    ∧ (∀ p rest, (s.packLane h l).tiles = p :: rest → (s.packLane h l).stalled = true → l < (s.packOf h).lanes.length →
      (s.packLane h l).used + (entryBytes p (packOutput p).1 (packOutput p).2).length ≤ s.laneSize h →
      Does (.laneRingResume h l) s fun t => (t.packLane h l).stalled = false ∧ (t.packLane h l).tiles = p :: rest
        ∧ (t.packLane h l).ring = (s.packLane h l).ring ∧ t.rd F.LZP_LANE_COMMIT_offset h l = s.rd F.LZP_LANE_COMMIT_offset h l
        ∧ ((laneStream (s.packLane h l) p).2 = true → (s.packLane h l).words ≤ (t.packLane h l).words)))
    ∧ (∀ (h l : Nat) (s : State),
    (∀ x k, s.packFree h = true → s.nextPackTile h = some x → s.slotOf x.1 x.2.1 = some k →
      (s.brush.readable.contains x && s.canvasWaits x.1 k x.2.2) = false → exec (.packerTileTake h) s = .next (s.packTake h k x))
    ∧ (∀ p rest, (s.packLane h l).tiles = p :: rest → (s.packLane h l).stalled = false → s.powered (18 + h) = true →
      exec (.packerTileCommit h l) s = .next
        (if (s.laneWrite h l p).2 then (s.laneWrite h l p).1.laneCommit h l p else (s.laneWrite h l p).1.stallLane h l))
    ∧ (∀ p rest, (s.packLane h l).tiles = p :: rest → (s.packLane h l).stalled = true → s.laneMoves h l p = true →
      exec (.laneRingResume h l) s = .next (
        let r := (s.updPackLane h l fun z => { z with stalled := false }).laneWrite h l p
        if r.2 then r.1.packStatus h else r.1.stallLane h l)))

/-- O30 (spec/07_lossless_packer.md). Parts of R257 to R262. TILE_DECODE of a record and payload that decode leaves the record and the 4,096
bytes in the unit and changes no register but those of an event; one with a fault sets decode_fault and, with the latch free, latches the
easel and the code. FRAME_RATIO_COMPUTE of a dry frame committed whole on both halves, one of which may home none of its tiles, writes
4,096 × present × 256 ÷ bytes, at most 0xFFFF. The whole next state of FRAME_RATIO_COMPUTE is given; a frame not committed whole waits. -/
def Obligations.DecodingAndRatio : Prop :=
  (∀ (h e serial : Nat) (s : State),
    (∀ rec payload, (decodeTile rec payload).2.2 = none → h < s.pack.length → s.takesWork (0x32 + h) = true →
      Does (.tileDecode h e serial rec payload) s fun t =>
        (t.packOf h).decoded = some ((decodeTile rec payload).1, (decodeTile rec payload).2.1) ∧ s.Only t eventFields)
    ∧ (∀ rec payload x, (decodeTile rec payload).2.2 = some x → s.takesWork (0x32 + h) = true → s.on F.LZP_DEC_FAULT0_valid h = false →
      Does (.tileDecode h e serial rec payload) s fun t => t.rd F.LZP_FLAGS_decode_fault h = 1 ∧ t.rd F.LZP_DEC_FAULT0_valid h = 1
        ∧ t.rd F.LZP_DEC_FAULT0_easel h = e % 2 ^ F.LZP_DEC_FAULT0_easel.width ∧ t.rd F.LZP_DEC_FAULT0_code h = x.1 % 2 ^ F.LZP_DEC_FAULT0_code.width
        ∧ t.mem = s.mem)
    ∧ (∀ f a b z, s.frame e serial = some f → z = PackSum.mk e serial 0 0 0 → (s.packSum 0 e serial).getD z = a →
      (s.packSum 1 e serial).getD z = b → 0 < a.done + b.done → f.isDry = true →
      a.done = (s.halfTiles e 0 f).length → b.done = (s.halfTiles e 1 f).length → a.present + b.present ≠ 0 →
      Does (.frameRatioCompute e serial) s fun t => t.rd F.LZP_EASEL_RATIO_ratio e =
        min 0xFFFF (4096 * (a.present + b.present) * 256 / max 1 (a.bytes + b.bytes)) % 2 ^ F.LZP_EASEL_RATIO_ratio.width ∧ t.mem = s.mem))
    ∧ (∀ (e serial : Nat) (f : Frame) (s : State), s.frame e serial = some f →
    (s.ratioReady e f = true → exec (.frameRatioCompute e serial) s = .next (s.ratioDone e f))
    ∧ (s.ratioReady e f = false → exec (.frameRatioCompute e serial) s = .next s))

/-- O31 (spec/08_hbm_memory.md). Parts of R268 to R274. A loading stack with its first temperature, no request waiting, is in service with
that band; the last pseudo-channel's all-bank refresh puts a new band in force, and under a standing alert none is issued; an alert in
service stops its pseudo-channel and counts, and the fourth consecutive one puts the stack in fault; the end of an alert, with no request
waiting, lets it issue again; an uncorrectable read is flagged and its address latched when no earlier one is unread; an activation below
the threshold in service changes no register and one at it counts a targeted refresh; the window reset returns every count to 0. The whole
next state of an alert in service, consecutive or not, and of an uncorrectable read is given. -/
def Obligations.HbmStacks : Prop :=
  (∀ (k pc : Nat) (s : State),
    (∀ temp, s.rd F.HBM_STACK_STATUS_state k = 1 → s.hbm.held = [] → Does (.hbmStackReady k temp) s fun t => t.rd F.HBM_STACK_STATUS_state k = 2
      ∧ t.rd F.HBM_STACK_STATUS_band k = bandOf temp ∧ s.Only t [(F.HBM_STACK_STATUS_state, k), (F.HBM_STACK_STATUS_band, k)])
    ∧ (∀ b done, (s.stack k).newBand = some (b, done) → b < 8 → s.alertOn k = false →
      (List.range 32).all (pc :: done.filter (· ≠ pc)).contains = true → k < s.hbm.stackSts.length →
      Does (.hbmAllBankRefresh k pc) s fun t => t.rd F.HBM_STACK_STATUS_band k = b ∧ t.rd F.HBM_FLAGS_band_change k = 1
        ∧ (t.stack k).newBand = none ∧ s.Raised t k Ev.HBM_BAND [])
    ∧ (∀ b done, (s.stack k).newBand = some (b, done) → s.alertOn k = false →
      (List.range 32).all (pc :: done.filter (· ≠ pc)).contains = false → k < s.hbm.stackSts.length →
      Does (.hbmAllBankRefresh k pc) s fun t => (t.stack k).newBand = some (b, pc :: done.filter (· ≠ pc)) ∧ s.Only t [])
    ∧ (s.alertOn k = true → exec (.hbmAllBankRefresh k pc) s = .next s)
    ∧ (s.rd F.HBM_STACK_STATUS_state k = 2 → s.alertOn k = false → k < s.hbm.stackSts.length → Does (.hbmCaAlert k pc false) s fun t =>
      t.rd F.HBM_STACK_STATUS_state k = 2 ∧ t.rd F.HBM_FLAGS_ca_alert k = 1 ∧ (t.stack k).alerts = 1)
    ∧ (s.rd F.HBM_STACK_STATUS_state k = 2 → (s.stack k).alerts = 3 → Does (.hbmCaAlert k pc true) s fun t =>
      t.rd F.HBM_STACK_STATUS_state k = 3 ∧ t.rd F.HBM_FLAGS_ca_fail k = 1)
    ∧ (∀ covered, ((s.stack k).pcs.getD pc PcSt.init).alert = true → k < s.hbm.stackSts.length → pc < (s.stack k).pcs.length → s.hbm.held = [] →
      Does (.hbmCaAlertClear k pc covered) s fun t => ((t.stack k).pcs.getD pc PcSt.init).alert = false ∧ s.Only t [])
    ∧ (∀ addr, (s.stack (stackOf addr)).latched = false → Does (.hbmUncorrRead addr) s fun t =>
      t.rd F.HBM_FLAGS_ue (stackOf addr) = 1 ∧ t.rd F.HBM_UE_ADDR_LO_value (stackOf addr) = addr % 2 ^ F.HBM_UE_ADDR_LO_value.width
        ∧ addr ∈ t.hbm.poison ∧ t.mem = s.mem)
    ∧ (∀ bank row, s.rd F.HBM_STACK_STATUS_state k = 2 → s.alertOn k = false →
      ((activate ((s.stack k).pcs.getD pc PcSt.init).table bank row).any fun e => e.1 == bank && e.2.1 == row
        && decide (s.rd F.HBM_RH_CFG_threshold k ≤ e.2.2)) = false →
      Does (.hbmRowActivate k pc bank row) s fun t => t.out = s.out ∧ s.Only t [])
    ∧ (∀ bank row, s.rd F.HBM_STACK_STATUS_state k = 2 → s.alertOn k = false →
      ((activate ((s.stack k).pcs.getD pc PcSt.init).table bank row).any fun e => e.1 == bank && e.2.1 == row
        && decide (s.rd F.HBM_RH_CFG_threshold k ≤ e.2.2)) = true →
      Does (.hbmRowActivate k pc bank row) s fun t => t.rd F.HBM_FLAGS_rh_refresh k = 1
        ∧ s.Only t [(F.HBM_FLAGS_rh_refresh, k), (F.HBM_CNT_RH_count, k)])
    ∧ Does .hbmRhWindowReset s fun t => (∀ x ∈ t.hbm.stackSts, ∀ p ∈ x.pcs, ∀ e ∈ p.table, e.2.2 = 0) ∧ s.Only t [])
    ∧ (∀ (k pc addr : Nat) (replaying : Bool) (s : State),
    (s.rd F.HBM_STACK_STATUS_state k = 2 →
      exec (.hbmCaAlert k pc replaying) s = .next (s.caAlert k pc (if replaying || s.alertOn k then (s.stack k).alerts + 1 else 1)))
    ∧ exec (.hbmUncorrRead addr) s = .next (
      let t := (s.updHbm fun h => { h with poison := addr :: h.poison.filter (· ≠ addr) }).flagCount F.HBM_FLAGS_ue F.HBM_CNT_ue (stackOf addr)
      let latch := ((t.wr F.HBM_UE_ADDR_LO_value addr (stackOf addr)).wr F.HBM_UE_ADDR_HI_value (addr / 4294967296) (stackOf addr)).updStack
        (stackOf addr) fun x => { x with latched := true }
      (if (s.stack (stackOf addr)).latched then t else latch).raise (stackOf addr) Ev.HBM_UNCORR []))

/-- O32 (spec/08_hbm_memory.md). Parts of R276 to R278. HBM_PLAN_COMMIT with none pending takes the region entries and the conditions that bar
it; while one is pending go is ignored. The check of a plan that passes, with no write waiting, makes it the plan in force with result 0;
one that fails keeps the old plan, writes the number of the first rule that fails, sets plan_bad and raises EV_HBM_PLAN_BAD. An entry
whose kind or owner is not one of R276 fails rule 1 whatever else is wrong. At the end of a check everything that waited for it, in its
order, is carried out. -/
def Obligations.PlanCommit : Prop :=
  (∀ (s : State),
    (s.planPending = false → Does .hbmPlanCommit s fun t => t.rd F.HBM_PLAN_COMMIT_pending = 1 ∧ t.hbm.check = some (s.planEntries, s.planBarred)
      ∧ s.Only t [(F.HBM_PLAN_COMMIT_pending, 0)])
    ∧ (s.planPending = true → exec .hbmPlanCommit s = .next s)
    ∧ (∀ l barred, s.planPending = true → s.hbm.check = some (l, barred) → s.hbm.waits = [] → (planResult l barred).1 = 0 →
      Does .hbmPlanCheckDone s fun t => t.hbm.plan = l ∧ t.rd F.HBM_PLAN_COMMIT_active = 1 ∧ t.rd F.HBM_PLAN_COMMIT_pending = 0
        ∧ t.rd F.HBM_PLAN_COMMIT_result = 0)
    ∧ (∀ l barred, s.planPending = true → s.hbm.check = some (l, barred) → s.hbm.waits = [] → (planResult l barred).1 ≠ 0 →
      Does .hbmPlanCheckDone s fun t => t.hbm.plan = s.hbm.plan ∧ t.rd F.HBM_PLAN_COMMIT_plan_bad = 1
        ∧ t.rd F.HBM_PLAN_COMMIT_result = (planResult l barred).1 ∧ s.Raised t 0 Ev.HBM_PLAN_BAD [])
    ∧ (∀ (l : List Region) barred, (∃ r ∈ l, r.kindOk = false) → (planResult l barred).1 = 1)
    ∧ (∀ (l : List Region) barred, (planResult l barred).1 = 0 → ∀ r ∈ l, r.kindOk = true ∧ r.placeOk = true
      ∧ ∀ x ∈ l, x.entry < r.entry → r.overlaps x = false))
    ∧ (∀ s : State, s.planPending = true →
    exec .hbmPlanCheckDone s = .next ((s.planDecide.updHbm fun h => { h with waits := [] }).each s.planDecide.hbm.waits State.actWaiting))

/-- O33 (spec/09_magazine_media.md). Parts of R289 to R293. A seated magazine on an enabled port that is OFF, released and out of recovery
enters POWER with EV_MAG_INSERTED; the ramp takes POWER to INIT, where RESET goes to all 128 CE targets; a magazine that meets every
requirement takes INIT to READY with its geometry and rate published, and one that does not goes to FAULT with the number of the first
requirement it fails; retry takes FAULT to POWER; the end of the power-fail warning takes HALT to INIT; a removal from a port that is OFF
only clears presence, and from an idle READY port it also turns the port OFF with EV_MAG_REMOVED; the disable is refused while a take is
open on the port and otherwise clears enable and turns the port OFF. The end of an initialisation has its whole effect for every magazine. -/
def Obligations.MagazineBringUp : Prop :=
  (∀ (p : Nat) (s : State),
    (∀ m, s.on F.MAG_PORT_STATUS_pres p = false → s.portState p = 0 → s.rd F.FW_STATUS_state ≠ 2 → s.on F.MAG_PORT_CTRL_enable p = true →
      s.released (22 + p) = true → s.blockUp (0x48 + p) = true →
      Does (.magInsertion p m) s fun t => t.rd F.MAG_PORT_STATUS_pres p = 1 ∧ t.portState p = 1 ∧ t.rd F.MAG_PORT_STATUS_pwr_en p = 1
        ∧ s.Raised t p Ev.MAG_INSERTED [] ∧ s.Only t ([(F.MAG_PORT_STATUS_pres, p), (F.MAG_PORT_STATUS_state, p), (F.MAG_PORT_STATUS_pwr_en, p)]
          ++ eventFields))
    ∧ (s.on F.MAG_PORT_STATUS_pres p = true → s.portState p = 0 → Does (.magRemoval p) s fun t => t.rd F.MAG_PORT_STATUS_pres p = 0
      ∧ s.Only t [(F.MAG_PORT_STATUS_pres, p)])
    ∧ (s.on F.MAG_PORT_STATUS_pres p = true → s.portState p = 3 → s.takesOn p = [] → (s.port p).allOps = [] → (s.port p).sides = [] →
      (s.port p).admin = none → (s.port p).mount = none → (s.port p).unmount = none → (s.port p).tasks = [] → s.stor.flushes = [] →
      Does (.magRemoval p) s fun t => t.rd F.MAG_PORT_STATUS_pres p = 0 ∧ t.portState p = 0 ∧ t.rd F.MAG_PORT_STATUS_pwr_en p = 0
        ∧ t.rd F.MAG_PORT_STATUS_refuse_code p = 0 ∧ (t.port p).mag = none ∧ s.Raised t p Ev.MAG_REMOVED [] ∧ t.mem = s.mem)
    ∧ (s.portState p = 1 → Does (.magRampDone p) s fun t => t.portState p = 2
      ∧ t.out = .nand p .reset (List.range 128) :: s.out ∧ s.Only t [(F.MAG_PORT_STATUS_state, p)])
    ∧ (∀ g, s.portState p = 2 → (s.port p).mag = some g → refuseCode g.ident = 0 →
      Does (.magInitDone p) s fun t => t.portState p = 3 ∧ t.rd F.MAG_PORT_STATUS_refuse_code p = 0
        ∧ t.rd F.MAG_RATE_rate p = magRate g.ident % 2 ^ F.MAG_RATE_rate.width
        ∧ t.rd F.MAG_GEOM_blocks p = g.ident.blocks % 2 ^ F.MAG_GEOM_blocks.width)
    ∧ (∀ g, s.portState p = 2 → (s.port p).mag = some g → refuseCode g.ident ≠ 0 →
      Does (.magInitDone p) s fun t => t.portState p = 7 ∧ t.rd F.MAG_PORT_STATUS_refuse_code p = refuseCode g.ident
        ∧ t.rd F.MAG_FLAGS_init_fail p = 1 ∧ s.Raised t p Ev.MAG_INIT_FAIL [])
    ∧ (s.portState p = 7 → Does (.magRetry p) s fun t => t.portState p = 1 ∧ t.rd F.MAG_PORT_STATUS_pwr_en p = 1
      ∧ s.Only t [(F.MAG_PORT_STATUS_state, p), (F.MAG_PORT_STATUS_pwr_en, p)])
    ∧ (p < 2 → s.portState p = 6 → Does .pfwNRecover s fun t => t.portState p = 2)
    ∧ (s.portTakeOpen p = true → Does (.magPortDisable p) s fun t => t.rd F.MAG_FLAGS_cfg_refused p = 1
      ∧ s.Only t [(F.MAG_FLAGS_cfg_refused, p)])
    ∧ (s.portTakeOpen p = false → s.portState p = 0 → Does (.magPortDisable p) s fun t => t.rd F.MAG_PORT_CTRL_enable p = 0
      ∧ s.Only t [(F.MAG_PORT_CTRL_enable, p)])
    ∧ (s.portState p = 3 → s.takesOn p = [] → (s.port p).allOps = [] → (s.port p).sides = [] →
      (s.port p).admin = none → (s.port p).mount = none → (s.port p).unmount = none → (s.port p).tasks = [] → s.stor.flushes = [] →
      Does (.magPortDisable p) s fun t => t.rd F.MAG_PORT_CTRL_enable p = 0 ∧ t.portState p = 0 ∧ t.rd F.MAG_PORT_STATUS_pwr_en p = 0
        ∧ t.mem = s.mem))
    ∧ ((∀ (p : Nat) (g : Magazine) (s : State), s.portState p = 2 → (s.port p).mag = some g → exec (.magInitDone p) s = .next (s.magReady p g.ident))
    ∧ (∀ s : State, exec .pfwNRecover s = .next (s.each [0, 1] fun t p => if t.portState p = 6 then t.nandInit p else t)))

/-- O34 (spec/09_magazine_media.md). Parts of R323. On PFW_N_FALL with port 0 in READY and port 1 OFF, and no take open, port 0 issues no more
programs, sets its pfw flag and raises EV_MAG_PFW. PFW_PROGRAMS_DRAINED of a port in the warning with no program running, no reel and no
command of its own leaves it in HALT with the count of the programs that ended in the warning and the time; the count the command brings
is not used. PFW_N_FALL begins the warning on every port in READY, MOUNTED or ADMIN and ends the takes on them with MAG_HALTED; a drained
port halts with its ledger brought up to date. -/
def Obligations.PowerFailWarning : Prop :=
  (∀ (s : State), 0 < s.stor.ports.length →
    (s.portState 0 = 3 → s.portState 1 = 0 → (s.port 0).pfw = false → s.takesOn 0 = [] →
      Does .pfwNFall s fun t => (t.port 0).pfw = true ∧ t.rd F.MAG_FLAGS_pfw 0 = 1 ∧ t.mem = s.mem)
    ∧ (∀ finished us, (s.port 0).pfw = true → ((s.port 0).ops.any fun o => o.running && o.programs) = false → (s.port 0).reel = none →
      (s.port 0).ledger.group = none → s.takesOn 0 = [] → (s.port 0).sides = [] → (s.port 0).admin = none → (s.port 0).mount = none →
      (s.port 0).unmount = none → s.stor.flushes = [] →
      Does (.pfwProgramsDrained 0 finished us) s fun t => t.portState 0 = 6
        ∧ t.rd F.MAG_PFW_STATUS_finished 0 = (s.port 0).pfwEnded % 2 ^ F.MAG_PFW_STATUS_finished.width
        ∧ t.rd F.MAG_PFW_STATUS_time_us 0 = us % 2 ^ F.MAG_PFW_STATUS_time_us.width))
    ∧ ((∀ s : State, exec .pfwNFall s = .next (
      let t := s.each s.pfwPorts State.pfwStart
      t.each ((s.pfwPorts.flatMap t.takesOn).filter fun e => !(t.take e).ended) fun s' e => s'.endTake e St.MAG_HALTED 5 (s'.pfwKeep e)))
    ∧ (∀ (p finished us : Nat) (s : State), (s.port p).pfw = true → ((s.port p).ops.any fun o => o.running && o.programs) = false →
      exec (.pfwProgramsDrained p finished us) s = .next (s.pfwHalt p us)))

/-- O35 (spec/09_magazine_media.md; spec/10_reel_format_and_recovery.md). Parts of R297, R302, R308, R312, R339, R340 and R346. On a READY
port with one operation waiting for a free die DIE_OP_ISSUE shows that operation on the die, after the SLC mode a program needs; on any
free die it starts the operation that R308 picks; its end takes it from the queue. SEGMENT_CLOSE of a frame whose half has closed does
nothing more. With a snapshot group waiting and none in hand LEDGER_GROUP_ISSUE issues it with the next sequence numbers. LEDGER_SNAPSHOT
of a mounted version 3 reel with fewer than a quarter of its ledger blocks free and no take open restates the reel. SEGMENT_CLOSE of an
uncompressed take hands the next run of a half's tiles to its port once each of them can be read or will never come. With a snapshot group
waiting and room for it, none in hand and the half not quiet, it is issued; with none waiting the next group of the pending entries is.
ELASTIC_SPILL with a canvas short of slots cuts its oldest held part into segments and spills those. The end of an operation has its whole
effect by its kind. A group that finds no room ends the takes of its port with LEDGER_FULL, and the TAKE group of such an end goes first,
from the reserve. -/
def Obligations.DieOperationsAndSegments : Prop :=
  (∀ (p die : Nat) (s : State), p < s.stor.ports.length →
    (∀ o, s.portState p = 3 → (s.port p).mag.isSome = true → (s.port p).pfw = false → (s.port p).tasks = [] → (s.port p).pad = false →
      (s.port p).units = [] → (s.port p).held = [] → (s.port p).ops = [o] → o.die = die → o.running = false → s.issuable p o = true →
      s.takesWork (0x48 + p) = true →
      Does (.dieOpIssue p die) s fun t => (t.port p).ops = [{ o with running := true }]
        ∧ (∃ bs, t.out = .dieOp p die o.cls o.block o.kind.page bs :: (s.programMode p o).out)
        ∧ s.Only t [(F.MAG_OPS_now, p), (F.MAG_OPS_peak, p), (F.MAG_SCRUB_STATUS_running, p), (F.MAG_SCRUB_STATUS_pending, p),
          (F.REEL_EXPOSURE_pfw_loss, p), (F.REEL_EXPOSURE_cut_loss, p), (F.REEL_EXPOSURE_pfw_loss, 1 - p), (F.REEL_EXPOSURE_cut_loss, 1 - p)])
    ∧ (∀ k o, s.dieFree p die = true → (s.dieReady p die).dieNext p die = some (k, o) →
      exec (.dieOpIssue p die) s = .next ((s.dieReady p die).dieStart p k o))
    ∧ (∀ o r, (s.port p).ops.find? (fun o => o.die == die && o.running) = some o → o.kind = .erase true → (s.port p).admin = none →
      (s.port p).reel = none → (s.port p).mount = none → (s.port p).unmount = none → (s.port p).held = [] → ((s.port p).ops.all fun x => s.mayIssue p x) = true →
      Does (.dieOpComplete p die r) s fun t => (t.port p).ops = (s.port p).ops.filter fun o => !(o.die == die && o.running))
    ∧ (∀ e serial h f tf, s.frame e serial = some f → (s.take e).frames.find? (fun f => f.serial == serial) = some tf →
      tf.closed.contains h = true → exec (.segmentClose e serial h) s = .next s)
    ∧ (∀ e serial h f tf k run, s.frame e serial = some f → (s.take e).frames.find? (fun f => f.serial == serial) = some tf →
      tf.closed.contains h = false → s.takeOpen e = true → ((s.take e).ports.all s.mounted) = true → s.on F.TAKE_STATUS_packed e = false →
      s.slotOf e serial = some k →
      run = ((s.halfTiles e h f).drop (tf.tiles.getD h 0)).take (if s.reelVersion (s.segPort e h) = 2 then 255 else 254) → run ≠ [] →
      (run.all fun t => s.brush.readable.contains (e, serial, t) || s.tileAbsent e f t) = true →
      exec (.segmentClose e serial h) s = .next (s.sendSeg e h tf .canvas
        (run.length == ((s.halfTiles e h f).drop (tf.tiles.getD h 0)).length)
        (run.map fun t => if s.brush.readable.contains (e, serial, t) then ((s.canvasTile e k t).1, (s.canvasTile e k t).2.1)
          else (tileRecord 0 0 t 0, if s.reelVersion (s.segPort e h) = 2 then List.replicate 4096 (0 : Byte) else []))))
    ∧ (∀ r g gs, (s.port p).reel = some r → s.ledgerLive p = true → (s.port p).ledger.group = none → (s.port p).ledger.snap = g :: gs → s.quiet p = false →
      (s.port p).ledger.room (s.slcPages p) g.length false = true → (s.port p).ledger.fullEnds = [] →
      exec (.ledgerGroupIssue p) s = .next ((s.updLedger p fun y => { y with snap := gs }).issueGroup p
        (g.map fun q => { q with seq := (s.port p).ledger.seq + (q.seq - q.first), first := (s.port p).ledger.seq }) false))
    ∧ (∀ r g, (s.port p).reel = some r → s.ledgerLive p = true → (s.port p).ledger.group = none → (s.port p).ledger.snap = [] →
      (s.port p).ledger.fullEnds = [] → g = s.nextGroup p → g.1 ≠ [] →
      (s.port p).ledger.room (s.slcPages p) g.1.length false = true →
      exec (.ledgerGroupIssue p) s = .next (((g.2.2.dropSnap p).updLedger p fun y => { y with pend := g.2.1 }).issueGroup p
        (numberRecords (s.port p).ledger.seq r.hdr.version r.hdr.id true g.1) false))
    ∧ (∀ r, (s.port p).reel = some r → s.mounted p = true → r.hdr.version = 3 → r.readOnly = false → s.portTakeOpen p = false →
      (sumOver ((s.port p).ledger.free.map List.length) fun n => n) * 4 < (sumOver (r.ledger.map List.length) fun n => n) →
      (s.port p).ledger.snap = [] → (s.port p).ledger.snapFirst = none → (s.port p).ledger.group = none → s.quiet p = false →
      Does (.ledgerSnapshot p) s fun t => (t.port p).ledger.snapFirst = some (s.port p).ledger.seq
        ∧ (t.port p).ledger.snap.length = (packGroups (snapBodies r.restate) []).length ∧ s.Only t [])
    ∧ (∀ h e x, (List.range 4).find? (fun e => decide (s.rd F.HBM_CANVAS_STATUS_free e ≤ s.rd F.MAG_ELASTIC_CFG_canvas_lo h) && s.takeOpen e
        && !s.on F.TAKE_STATUS_packed e && (s.partSpill h e).isSome) = some e → s.partSpill h e = some x →
      exec (.elasticSpill h) s = .next (x.1.spillAll h x.2)))
    ∧ ((∀ (p die : Nat) (o : DieOp) (r : DieResult) (s : State), s.runningOp p die = some o → exec (.dieOpComplete p die r) s = .next (s.opEnded p o r))
    ∧ (∀ (p : Nat) (r : Reel) (s : State), (s.port p).reel = some r → s.ledgerLive p = true → (s.port p).ledger.group = none →
      ((s.port p).ledger.snap = [] ∨ s.quiet p = true ∨ (s.port p).ledger.fullEnds ≠ []) →
      exec (.ledgerGroupIssue p) s = .next (s.ownGroup p r)))

/-- O36 (R648). GLB_EV_TEST_WRITE with value v raises EV_GLB_TEST, which carries v as 4 bytes; beside the event nothing changes. -/
def Obligations.EventTestWrite : Prop :=
  ∀ (v : Nat) (s : State), Does (.glbEvTestWrite v) s fun t => s.Raised t 0 Ev.GLB_TEST (le 4 v) ∧ s.Only t eventFields

/-- O37 (R640). BAD_ACCESS of another size or alignment: a read returns ones in every byte and clears no RC field, a write is discarded;
either sets GLB_FLAGS.bad_access and counts. -/
def Obligations.BadAccessesAreCounted : Prop :=
  ∀ (read : Bool) (off size : Nat) (s : State), (size ≠ 4 ∨ off % 4 ≠ 0) →
    Does (.badAccess read off size) s fun t =>
      t.rd F.GLB_FLAGS_bad_access = 1
        ∧ t.rd F.GLB_CNT_bad_access = min (2 ^ F.GLB_CNT_bad_access.width - 1) (s.rd F.GLB_CNT_bad_access + 1)
        ∧ t.out = (if read then [.readData off (2 ^ (8 * size) - 1)] else []) ++ s.out
        ∧ s.Only t [(F.GLB_FLAGS_bad_access, 0), (F.GLB_CNT_bad_access, 0)]

/-- O38 (spec/20_register_map.md). Parts of R9, R640 to R643 and R669. A write to an unassigned offset is a bad access. A write that a field
refuses changes only the refusal flag. An accepted write sets each RW field to its bits. A W1C write clears the flags written as 1 and
leaves the others. A plain read shows the word, clears the RC fields and changes nothing else; an unassigned offset reads 0; a read of a
latched group's first word latches the later words. The whole next state of a write, of a plain read, of a first-word read and of a W1C
write is given for every assigned register. -/
def Obligations.RegistersAreReadAndWritten : Prop :=
  (∀ (off v i j : Nat) (r : Reg) (s : State),
    (findReg off = none → exec (.registerWrite off v) s = .next s.badAccess ∧ exec (.rcFieldRead off) s = .next (s.emit (.readData off 0)))
    ∧ (findReg off = some (r, i, j) → rowOfItsOwn r.base v = false → (s.needsPlan r.base i v = true → s.planPending = false) →
      (s.refusesA r.base i v || s.refusesB r.base i v || s.refusesC r.base i v) = true →
      exec (.registerWrite off v) s = .next (s.refuseFlag r.base i))
    ∧ (findReg off = some (r, i, j) → off = F.GLB_PACE_REQ_code.base → exec (.registerWrite off v) s = .next s)
    ∧ (∀ f ∈ r.fields, findReg off = some (r, i, j) → rowOfItsOwn r.base v = false → (s.needsPlan r.base i v = true → s.planPending = false) →
      (s.refusesA r.base i v || s.refusesB r.base i v || s.refusesC r.base i v) = false → f.acc = .rw → f ≠ F.RAS_OUT_CTRL_quad →
      Does (.registerWrite off v) s fun t => t.rd f i j = f.of v ∧ t.mem = s.mem)
    ∧ (∀ f ∈ r.fields, findReg off = some (r, i, j) → s.regLive r.base i = true → f.acc = .w1c → f.width = 1 → s.rd f i j < 2 →
      Does (.w1cFlagClear off v) s fun t => t.rd f i j = (if f.of v = 1 then 0 else s.rd f i j) ∧ t.mem = s.mem ∧ t.cfg = s.cfg)
    ∧ (findReg off = some (r, i, j) → latchGroups.any (fun g => g.1 == r.base) = false → isLater r.base = false →
      Does (.rcFieldRead off) s fun t => t.out = .readData off (s.readWord r i j) :: s.out ∧ t.mem = s.mem ∧ t.cfg = s.cfg
        ∧ ∀ f ∈ r.fields, f.acc = .rc → t.rd f i j = 0)
    ∧ (∀ g, findReg off = some (r, i, j) → latchGroups.find? (fun g => g.1 == r.base) = some g → r.base ≠ F.NET_TXTS0_valid.base →
      r.base ≠ F.NET_PTP_TIME_S_LO_value.base →
      Does (.latchedGroupRead off) s fun t => t.out = .readData off (s.readWord r i j) :: s.out ∧ t.mem = s.mem ∧ t.cfg = s.cfg))
    ∧ (∀ (off v i j : Nat) (r : Reg) (s : State), findReg off = some (r, i, j) →
    (rowOfItsOwn r.base v = false → (s.needsPlan r.base i v = true → s.planPending = false) →
      exec (.registerWrite off v) s = .next (s.regWrite r i j v))
    ∧ (rowOfItsOwn r.base v = false → s.needsPlan r.base i v = true → s.planPending = true →
      exec (.registerWrite off v) s = .next (s.waitPlan (.registerWrite off v)))
    ∧ (latchGroups.any (fun g => g.1 == r.base) = false → isLater r.base = false →
      exec (.rcFieldRead off) s = .next ((s.emit (.readData off (s.readWord r i j))).clearRc r i j))
    ∧ (isLater r.base = true → latchGroups.any (fun g => g.1 == r.base) = false →
      exec (.rcFieldRead off) s = .next (s.emit (.readData off (s.latch.get ⟨off, 0, 0, 0⟩ 0))))
    ∧ (∀ g, latchGroups.find? (fun g => g.1 == r.base) = some g → r.base ≠ F.NET_TXTS0_valid.base → r.base ≠ F.NET_PTP_TIME_S_LO_value.base →
      exec (.latchedGroupRead off) s = .next
        ((((s.emit (.readData off (s.readWord r i j))).latchWords off g.2).clearRc r i j).freeLatch r.base i))
    ∧ (r.base = F.NET_PTP_TIME_S_LO_value.base →
      exec (.latchedGroupRead off) s = .next ((((s.latchSet (off + 4) (ptpSeconds s.now / 4294967296 % 65536)).latchSet (off + 8) (ptpNanos s.now)).emit
        (.readData off (ptpSeconds s.now % 4294967296))).tick))
    ∧ (s.regLive r.base i = true →
      exec (.w1cFlagClear off v) s = .next (s.each r.fields fun t f =>
        if f.acc = .w1c then t.wr f (t.rd f i j - (t.rd f i j).land (f.of v)) i j else t))
    ∧ (s.regLive r.base i = false → exec (.w1cFlagClear off v) s = .next s))

/-- O39 (spec/02_steps_and_latency.md). Parts of R57, R60 and R61. With an AON domain released a sample advances the sample count and sets the
device code to the larger of the two halves' slowest codes; a half with fewer than 8 meters counted keeps its values and is stale. The
whole next state is given: both halves' meters, the device code, the slowing of open easels and the request to raise the voltage. -/
def Obligations.PaceSamplesPublish : Prop :=
  (∀ (west east : List (Option Nat)) (s : State), (s.released 0 = true ∨ s.released 1 = true) → s.openEasels = [] → s.openCode = none →
    Does (.paceSample west east) s fun t =>
      t.rd F.GLB_PACE_DEV_code = max (t.rd F.GLB_PACE_W_slow) (t.rd F.GLB_PACE_E_slow) % 65536
        ∧ t.rd F.GLB_PACE_DEV_sample = (s.rd F.GLB_PACE_DEV_sample + 1) % 2 ^ F.GLB_PACE_DEV_sample.width
        ∧ (s.released 0 = true → s.metersCounted 0 west = [] → t.rd F.GLB_PACE_STATUS_stale_w = 1 ∧ t.rd F.GLB_PACE_W_slow = s.rd F.GLB_PACE_W_slow)
        ∧ (s.released 1 = true → s.metersCounted 1 east = [] → t.rd F.GLB_PACE_STATUS_stale_e = 1 ∧ t.rd F.GLB_PACE_E_slow = s.rd F.GLB_PACE_E_slow)
        ∧ (s.released 0 = false → t.rd F.GLB_PACE_W_slow = s.rd F.GLB_PACE_W_slow) ∧ t.mem = s.mem)
    ∧ (∀ (west east : List (Option Nat)) (s : State), (s.released 0 = true ∨ s.released 1 = true) →
    exec (.paceSample west east) s = .next (
      let t := (s.paceHalf 0 west).paceHalf 1 east
      let t1 := (t.wr F.GLB_PACE_DEV_code (max (t.rd F.GLB_PACE_W_slow) (t.rd F.GLB_PACE_E_slow))).wr F.GLB_PACE_DEV_sample
        (t.rd F.GLB_PACE_DEV_sample + 1)
      (t1.each t1.openEasels State.paceSlow).boostRaise))

/-- O40 (spec/11_host_rings_and_barrows.md). Parts of R382, R383, R391 and R411. A good RING_SQ_CFG write of enable 1 to a disabled ring sets
depth, head 0, no session and WAIT_SESSION; a bad depth only sets cfg_refused; a disable is refused while commands of the ring are
outstanding, else the ring is OFF with its session closed. A good RING_CQ_CFG write of enable 1 sets the queue's fields and counts 0; a
disable is refused while anything names the queue. A write of the event queue's enable sets it as written, and the first enable ends the
holding of events (R670). An accepted write of an enabled queue sets its fields, and the whole next state of each write of a queue's
enable is given. -/
def Obligations.RingsAndQueuesOpenAndClose : Prop :=
  (∀ (n v : Nat) (s : State),
    (s.sqDepthBad n v = true → exec (.ringEnable n v) s = .next (s.wr F.RING_FLAGS_cfg_refused 1))
    ∧ (s.sqDepthBad n v = false → s.on F.RING_SQ_CFG_enable n = false →
      Does (.ringEnable n v) s fun t => t.rd F.RING_SQ_CFG_enable n = 1 ∧ t.rd F.RING_SQ_CFG_depth_log2 n = bitsOf v 7 4
        ∧ t.rd F.RING_SQ_STATUS_head n = 0 ∧ t.rd F.RING_SQ_STATUS_role n = 0 ∧ t.rd F.RING_SQ_STATUS_state n = 1
        ∧ s.Only t [(F.RING_SQ_CFG_enable, n), (F.RING_SQ_CFG_depth_log2, n), (F.RING_SQ_STATUS_head, n), (F.RING_SQ_STATUS_role, n),
          (F.RING_SQ_STATUS_state, n)])
    ∧ (s.outstanding.any (fun c => c.ring == n) = true → exec (.ringDisable n v) s = .next (s.wr F.RING_FLAGS_cfg_refused 1))
    ∧ (s.sqDepthBad n v = false → s.outstanding.any (fun c => c.ring == n) = false →
      Does (.ringDisable n v) s fun t => t.rd F.RING_SQ_CFG_enable n = 0 ∧ t.rd F.RING_SQ_STATUS_role n = 0 ∧ t.rd F.RING_SQ_STATUS_state n = 0
        ∧ s.Only t [(F.RING_SQ_CFG_enable, n), (F.RING_SQ_CFG_depth_log2, n), (F.RING_SQ_STATUS_role, n), (F.RING_SQ_STATUS_state, n)])
    ∧ (s.cqCfgBad n v = true → exec (.cqEnable n v) s = .next (s.wr F.RING_FLAGS_cfg_refused 1))
    ∧ (s.cqCfgBad n v = false → s.on F.RING_CQ_CFG_enable n = false →
      Does (.cqEnable n v) s fun t => t.rd F.RING_CQ_CFG_enable n = 1 ∧ t.rd F.RING_CQ_CFG_depth_log2 n = bitsOf v 7 4
        ∧ t.rd F.RING_CQ_CFG_vector n = bitsOf v 13 8 ∧ t.rd F.RING_CQ_CFG_coal_count n = bitsOf v 23 16
        ∧ t.rd F.RING_CQ_CFG_coal_us n = bitsOf v 31 24 ∧ t.rd F.RING_CQ_STATUS_tail n = 0 ∧ t.rd F.RING_CQ_STATUS_head n = 0)
    ∧ (s.on F.RING_CQ_CFG_enable n = true → s.queueNamed n = true → exec (.cqDisable n v) s = .next (s.wr F.RING_FLAGS_cfg_refused 1))
    ∧ (s.cqCfgBad n v = false → s.queueNamed n = false → Does (.cqDisable n v) s fun t => t.rd F.RING_CQ_CFG_enable n = 0 ∧ t.mem = s.mem)
    ∧ (v % 2 = 1 → Does (.evqEnable v) s fun t => t.rd F.RING_EVQ_CFG_enable = 1 ∧ t.rd F.RING_EVQ_CFG_cq = bitsOf v 7 4 ∧ t.host.holding = false
      ∧ t.host.held = [] ∧ t.mem = s.mem)
    ∧ (v % 2 = 0 → Does (.evqEnable v) s fun t => t.rd F.RING_EVQ_CFG_enable = 0 ∧ t.rd F.RING_EVQ_CFG_cq = bitsOf v 7 4
      ∧ s.Only t [(F.RING_EVQ_CFG_enable, 0), (F.RING_EVQ_CFG_cq, 0)]))
    ∧ (∀ (n v : Nat) (s : State), s.cqCfgBad n v = false →
    (s.on F.RING_CQ_CFG_enable n = false →
      exec (.cqEnable n v) s = .next ((((((s.cqFields n v).wr F.RING_CQ_CFG_enable 1 n).wr F.RING_CQ_STATUS_tail 0 n).wr F.RING_CQ_STATUS_head 0 n).updQueue n
        fun _ => QueueSt.init).updHost fun h => { h with page := h.page.set (16 + n) 0 }))
    ∧ (s.on F.RING_CQ_CFG_enable n = true → exec (.cqEnable n v) s = .next (s.cqFields n v))
    ∧ (s.queueNamed n = false ∨ s.on F.RING_CQ_CFG_enable n = false →
      exec (.cqDisable n v) s = .next ((s.cqFields n v).wr F.RING_CQ_CFG_enable 0 n)))

/-- O41 (spec/11_host_rings_and_barrows.md). Parts of R380, R381, R384 and R385. A poll reads 256 bytes at RING_DB_BASE, in one request or two
of 128, and may be out beside others. The page of the oldest poll moves a queue's head and a ring's tail; a poll that fails counts
host_err. The next ring with descriptors is read from its slots, up to 8 of them; they queue for decoding, or an error completion halts
the ring with its event. -/
def Obligations.DoorbellsAndFetches : Prop :=
  ∀ (r q : Nat) (s : State),
    (s.anyEnabled = true → s.released 28 = true →
      Does .doorbellPoll s fun t => t.host.polls = s.host.polls ++ [(List.range 16).filter fun r => s.on F.RING_SQ_CFG_enable r] ∧ s.Only t []
        ∧ t.out = (if Config.shortReads = true then
            [.hostRead (s.pair F.RING_DB_BASE_LO_value F.RING_DB_BASE_HI_value + 128) 128,
             .hostRead (s.pair F.RING_DB_BASE_LO_value F.RING_DB_BASE_HI_value) 128]
          else [.hostRead (s.pair F.RING_DB_BASE_LO_value F.RING_DB_BASE_HI_value) 256]) ++ s.out)
    ∧ (∀ rings l, s.host.polls = rings :: l →
      Does (.doorbellPageReturn none) s fun t => t.host.polls = l ∧ t.rd F.RING_FLAGS_host_err = 1
        ∧ s.Only t [(F.RING_FLAGS_host_err, 0), (F.RING_CNT_host_err, 0)])
    ∧ (∀ l p, s.host.polls = [] :: l → s.host.records = [] → s.host.lost = 0 → q < 16 → s.on F.RING_CQ_CFG_enable q = true →
      Does (.doorbellPageReturn (some p)) s fun t => t.rd F.RING_CQ_STATUS_head q = p.getD (16 + q) 0 % 65536 ∧ t.host.polls = l ∧ t.mem = s.mem)
    ∧ (∀ l p, s.host.polls = [r] :: l → s.host.records = [] → s.host.lost = 0 → r < s.host.rings.length → s.on F.RING_SQ_CFG_enable r = true →
      s.rd F.RING_SQ_STATUS_state r = 2 → p.getD r 0 % 65536 ≠ s.host.page.getD r 0 % 65536 →
      ahead (p.getD r 0 % 65536) (s.rd F.RING_SQ_STATUS_head r) ≤ s.ringDepth r →
      Does (.doorbellPageReturn (some p)) s fun t => (t.ring r).tail = p.getD r 0 % 65536 ∧ t.mem = s.mem)
    ∧ (∀ n, nextCyclic 16 s.host.fetchCursor s.fetchable = some r → r < s.host.rings.length →
      n = min (min 8 (ahead (s.ring r).tail (s.ring r).asked)) (s.ringDepth r - (s.ring r).asked % s.ringDepth r) →
      Does .descriptorFetch s fun t => (t.ring r).inFlight = some n ∧ s.Only t []
        ∧ t.out = .hostRead (s.pair F.RING_SQ_BASE_LO_value F.RING_SQ_BASE_HI_value r + (s.ring r).asked % s.ringDepth r * 64) (n * 64) :: s.out)
    ∧ (∀ n bs, (s.ring r).inFlight = some n → r < s.host.rings.length →
      Does (.descriptorFetchReturn r (some bs)) s fun t => (t.ring r).inFlight = none ∧ s.Only t []
        ∧ (t.ring r).fetched = (s.ring r).fetched ++ pieces n 64 (padTo (64 * n) bs))
    ∧ (∀ n, (s.ring r).inFlight = some n →
      Does (.descriptorFetchReturn r none) s fun t => t.rd F.RING_SQ_STATUS_state r = 3 ∧ t.rd F.RING_FLAGS_host_err = 1
        ∧ s.Raised t 0 Ev.RING_HOST_ERR (le 1 r) ∧ t.mem = s.mem)

/-- O42 (spec/11_host_rings_and_barrows.md). Parts of R385 and R388 to R390. Decoding takes the ring's oldest descriptor and moves its head
on. With every check passed the command, when it is no TAKE_CLOSE, is the newest outstanding one, waiting behind a fence only when its
fence bit is set; with a failed check it is answered with that status; with its queue not enabled nothing runs and EV_RING_BAD_CQ is
raised. A fenced command with nothing of its ring outstanding before it becomes ready. NOP completes at once with the count taken at its
decode. A TAKE_CLOSE takes hold at its decode, and a command keeps what its decode saw (R419, R422, R426, R428). -/
def Obligations.DecodingAndFences : Prop :=
  (∀ (r : Nat) (d : List Byte) (ds : List (List Byte)) (s : State),
    (s.outstanding.length < 4096 → s.quiet 0 = false → s.host.cmds.any (fun c => c.opcode == 0x45 && c.stage == .running) = false →
      s.decodeRing = some r → (s.ring r).fetched = d :: ds → r < s.host.rings.length →
      (s.on F.RING_CQ_CFG_enable (fieldAt d 4 1 % 16) = true → s.decodeStatus d (s.rd F.RING_SQ_STATUS_role r) = St.OK →
        s.cmd s.host.nextId = none → fieldAt d 0 1 ≠ 0x11 →
        Does .descriptorDecode s fun t => (t.ring r).fetched = ds ∧ t.rd F.RING_SQ_STATUS_head r = (s.rd F.RING_SQ_STATUS_head r + 1) % 65536
          ∧ s.Only t [(F.RING_SQ_STATUS_head, r), (F.RING_OUTSTANDING_now, 0), (F.RING_OUTSTANDING_peak, 0)]
          ∧ ∃ c, t.host.cmds = s.host.cmds ++ [c] ∧ c.id = s.host.nextId ∧ c.ring = r ∧ c.opcode = fieldAt d 0 1 ∧ c.tag = fieldAt d 2 2
            ∧ c.cq = fieldAt d 4 1 % 16 ∧ c.desc = d ∧ (c.stage = .fenced ↔ fieldAt d 1 1 % 2 = 1) ∧ (c.stage = .ready ↔ fieldAt d 1 1 % 2 = 0))
      ∧ (∀ st, s.on F.RING_CQ_CFG_enable (fieldAt d 4 1 % 16) = true → s.decodeStatus d (s.rd F.RING_SQ_STATUS_role r) = st → st ≠ St.OK →
        s.cmd s.host.nextId = none →
        Does .descriptorDecode s fun t => ∃ c, c.ring = r ∧ c.tag = fieldAt d 2 2 ∧ c.cq = fieldAt d 4 1 % 16 ∧ t.Answered c st 0 0 ∧ t.mem = s.mem)
      ∧ (s.on F.RING_CQ_CFG_enable (fieldAt d 4 1 % 16) = false →
        Does .descriptorDecode s fun t => t.host.cmds = s.host.cmds ∧ t.rd F.RING_FLAGS_bad_cq = 1
          ∧ s.Raised t 0 Ev.RING_BAD_CQ (le 1 r ++ le 2 (fieldAt d 2 2) ++ le 1 (fieldAt d 4 1 % 16)) ∧ t.mem = s.mem))
    ∧ (∀ (id : Nat) (c : Cmd), s.cmd id = some c → c.stage = .fenced → (s.outstanding.any fun o => o.ring == c.ring && decide (o.id < id)) = false →
      Does (.fenceRelease id) s fun t => t.cmd id = some { c with stage := .ready } ∧ s.Only t [])
    ∧ (∀ (id : Nat) (c : Cmd), s.Waits id 0x00 c → c.mute = false → Does (.nop id) s fun t => t.Answered c St.OK c.count 0 ∧ s.Only t []))
    ∧ (∀ (r : Nat) (d : List Byte) (ds : List (List Byte)) (s : State), s.outstanding.length < 4096 → s.quiet 0 = false →
    s.host.cmds.any (fun c => c.opcode == 0x45 && c.stage == .running) = false → s.decodeRing = some r → (s.ring r).fetched = d :: ds →
    exec .descriptorDecode s = .next ((s.decodeOne r d).atDecode s.host.nextId))

/-- O43 (spec/11_host_rings_and_barrows.md). Parts of R79, R391 to R399 and R670. The first completion record of an enabled queue with room is
written at the tail slot and the tail moves on; on a full queue it is held, and the first time cq_full and its event report it. An event
is written to the event queue, dropped with a count when that queue is disabled, or held before the first enable. A queue's message is
sent at coal_count or at the coalescing time, or its vector's pending bit set while masked; an unmask sends one message for a pending bit.
The whole next state of COMPLETION_RECORD_WRITE is given for a queue with room, a full queue and one that is not enabled. -/
def Obligations.RecordsAndMessages : Prop :=
  (∀ (q : Nat) (r : Rec) (rest : List Rec) (s : State),
    (s.released 28 = true → pickRecord s (fun r => !r.event && r.cq == q) [] [] s.host.records = some (r, rest) →
      s.on F.RING_CQ_CFG_enable q = true → s.queueFull q = false →
      Does (.completionRecordWrite q) s fun t => t.rd F.RING_CQ_STATUS_tail q = (s.rd F.RING_CQ_STATUS_tail q + 1) % 65536
        ∧ ∃ bs, t.out = .hostWrite (s.pair F.RING_CQ_BASE_LO_value F.RING_CQ_BASE_HI_value q
            + s.rd F.RING_CQ_STATUS_tail q % s.queueDepth q * 32) bs :: s.out)
    ∧ (s.released 28 = true → pickRecord s (fun r => !r.event && r.cq == q) [] [] s.host.records = some (r, rest) →
      s.on F.RING_CQ_CFG_enable q = true → s.queueFull q = true → s.host.records.any (s.waitsOn q) = true → (s.queue q).episode = false → s.quiet 0 = false →
      (s.port 0).unmount = none → (s.port 1).unmount = none → s.stor.flushes = [] →
      Does (.completionRecordWrite q) s fun t => t.out = s.out ∧ t.rd F.RING_FLAGS_cq_full = 1
        ∧ ∃ e, t.host.records = (s.host.records.map fun r => if s.waitsOn q r then { r with full := true } else r) ++ [e] ∧ e.event = true ∧ e.tag = Ev.RING_CQ_FULL)
    ∧ (pickRecord s (fun r => r.event) [] [] s.host.records = some (r, rest) → s.host.holding = false → s.host.lost = 0 → s.eventRoom = true →
      r.cmd = none →
      Does .eventRecordWrite s fun t => t.host.records = rest
        ∧ t.rd F.RING_CQ_STATUS_tail (s.rd F.RING_EVQ_CFG_cq) = (s.rd F.RING_CQ_STATUS_tail (s.rd F.RING_EVQ_CFG_cq) + 1) % 65536)
    ∧ (pickRecord s (fun r => r.event) [] [] s.host.records = some (r, rest) → s.host.holding = false → s.on F.RING_EVQ_CFG_enable = false →
      Does .eventRecordWrite s fun t => t.host.records = rest ∧ t.out = s.out ∧ t.rd F.RING_FLAGS_evq_lost = 1 ∧ t.host.lost = s.host.lost + 1
        ∧ s.Only t [(F.RING_FLAGS_evq_lost, 0), (F.RING_EVQ_LOST_count, 0)])
    ∧ (pickRecord s (fun r => r.event) [] [] s.host.records = some (r, rest) → s.host.holding = true → s.host.held.length < 256 →
      Does .eventRecordWrite s fun t => t.host.records = rest ∧ t.host.held = s.host.held ++ [r] ∧ s.Only t [])
    ∧ (q < s.host.queues.length →
      (s.rd F.RING_CQ_CFG_coal_count q ≤ (s.queue q).unsignalled → (s.host.msix.getD (s.rd F.RING_CQ_CFG_vector q) MsixSt.init).mask = false →
        Does (.msixMessageSend q) s fun t => t.out = .msix (s.rd F.RING_CQ_CFG_vector q) :: s.out ∧ (t.queue q).unsignalled = 0 ∧ s.Only t [])
      ∧ (s.rd F.RING_CQ_CFG_coal_count q ≤ (s.queue q).unsignalled → (s.host.msix.getD (s.rd F.RING_CQ_CFG_vector q) MsixSt.init).mask = true →
        s.rd F.RING_CQ_CFG_vector q < s.host.msix.length →
        Does (.msixMessageSend q) s fun t => t.out = s.out ∧ (t.host.msix.getD (s.rd F.RING_CQ_CFG_vector q) MsixSt.init).pending = true ∧ s.Only t [])
      ∧ ((s.queue q).unsignalled ≠ 0 → s.rd F.RING_CQ_CFG_coal_us q ≠ 0 → (s.host.msix.getD (s.rd F.RING_CQ_CFG_vector q) MsixSt.init).mask = false →
        Does (.msixCoalesceTimeout q) s fun t => t.out = .msix (s.rd F.RING_CQ_CFG_vector q) :: s.out ∧ (t.queue q).unsignalled = 0 ∧ s.Only t []))
    ∧ (q < s.host.msix.length →
      Does (.msixVectorUnmask q) s fun t => t.host.msix.getD q MsixSt.init = { s.host.msix.getD q MsixSt.init with mask := false, pending := false }
        ∧ t.out = (if (s.host.msix.getD q MsixSt.init).pending then [.msix q] else []) ++ s.out ∧ s.Only t []))
    ∧ (∀ (q : Nat) (r : Rec) (rest : List Rec) (s : State), s.released 28 = true →
    pickRecord s (fun r => !r.event && r.cq == q) [] [] s.host.records = some (r, rest) →
    (s.on F.RING_CQ_CFG_enable q = true → s.queueFull q = false →
      exec (.completionRecordWrite q) s = .next
        (((s.updHost fun h => { h with records := rest }).writeRecord q r).finishQueueResets.recordsWritten))
    ∧ (s.on F.RING_CQ_CFG_enable q = true → s.queueFull q = true → exec (.completionRecordWrite q) s = .next (s.holdQueue q).recordsWritten)
    ∧ (s.on F.RING_CQ_CFG_enable q = false →
      exec (.completionRecordWrite q) s = .next (
        let t := s.updHost fun h => { h with records := rest }
        (match r.cmd with | some id => t.cmdRecorded id | none => t).finishQueueResets.recordsWritten)))

/-- O44 (spec/11_host_rings_and_barrows.md). Parts of R400 to R408. Enabling an IDLE channel or restarting a HALTED one puts it in RUN with a
fetch due; a write that changes cq or dir while enabled is refused. A fetched good descriptor is in hand with at most 64 chunks; a fetch
that fails halts the channel with BARROW_HOST_ERR. A finished descriptor has written its HBM bytes to the host or the host's bytes to HBM,
and the channel fetches the link or parks. A parked channel re-reads its control word once. Disabling a channel with no descriptor in hand
makes it IDLE. The whole next state of each channel command is given as well, for a descriptor of any kind, a transfer that fails and a
word that cannot be read. -/
def Obligations.BarrowChannels : Prop :=
  (∀ (c v : Nat) (s : State), c < s.host.barrows.length →
    (s.barrowCtrlBad c v = true → exec (.barrowChannelEnable c v) s = .next (s.wr F.BARROW_FLAGS_cfg_refused 1))
    ∧ (s.barrowCtrlBad c v = false → s.rd F.BARROW_CH_STATUS_state c = 0 →
      Does (.barrowChannelEnable c v) s fun t => t.rd F.BARROW_CH_STATUS_state c = 1 ∧ t.rd F.BARROW_CH_CTRL_enable c = 1
        ∧ t.rd F.BARROW_CH_CTRL_cq c = bitsOf v 7 4 ∧ t.rd F.BARROW_CH_CTRL_dir c = bitsOf v 1 1 ∧ (t.barrow c).fetch = true ∧ t.mem = s.mem)
    ∧ (s.barrowCtrlBad c v = false → (s.barrow c).cur = none →
      Does (.barrowChannelDisable c v 0 []) s fun t => t.rd F.BARROW_CH_STATUS_state c = 0 ∧ t.rd F.BARROW_CH_CTRL_enable c = 0
        ∧ (t.barrow c).fetch = false ∧ t.mem = s.mem)
    ∧ (∀ d, s.barrowCtrlBad c v = false → (s.barrow c).cur = some d →
      Does (.barrowChannelDisable c v 0 []) s fun t => t.rd F.BARROW_FLAGS_stopped = 1 ∧ t.rd F.BARROW_CH_STATUS_state c = 0
        ∧ (t.barrow c).cur = none)
    ∧ (s.barrowCtrlBad c v = false → s.rd F.BARROW_CH_STATUS_state c = 3 → v % 2 = 1 →
      Does (.barrowChannelRestart c v) s fun t => t.rd F.BARROW_CH_STATUS_state c = 1 ∧ (t.barrow c).fetch = true ∧ t.mem = s.mem)
    ∧ (∀ bs, s.released 28 = true → s.on F.BARROW_CH_CTRL_dir c = false → s.takesWork 0x60 = true → (s.barrow c).fetch = true →
      s.barrowNext false = some c → (s.barrowEngines false).length < 8 →
      s.barrowBad c (padTo 64 bs) (barrowDesc (s.barrowAt c) (padTo 64 bs)) = St.OK →
      Does (.barrowDescFetch c (some bs)) s fun t => (t.barrow c).cur = some (barrowDesc (s.barrowAt c) (padTo 64 bs))
        ∧ (t.barrow c).waits = [] ∧ (t.barrow c).fetch = false ∧ (t.barrow c).chunks ≤ 64 ∧ t.out = .hostRead (s.barrowAt c) 64 :: s.out
        ∧ s.Only t [(F.BARROW_BUF_used, 0), (F.BARROW_BUF_peak, 0)])
    ∧ (s.released 28 = true → s.takesWork 0x60 = true → (s.barrow c).fetch = true →
      s.barrowNext (s.on F.BARROW_CH_CTRL_dir c) = some c → (s.barrowEngines (s.on F.BARROW_CH_CTRL_dir c)).length < 8 →
      Does (.barrowDescFetch c none) s fun t => t.rd F.BARROW_CH_STATUS_state c = 3 ∧ t.rd F.BARROW_CH_STATUS_fault c = St.BARROW_HOST_ERR
        ∧ t.rd F.BARROW_FLAGS_host_err = 1 ∧ t.mem = s.mem)
    ∧ (∀ d data, (s.barrow c).cur = some d → (s.barrow c).engine = true → s.barrowWaits c d = false → (s.barrow c).waits = [] → (s.barrow c).holds = [] → s.on F.BARROW_CH_CTRL_dir c = true → d.tiles = false →
      bitOf d.op 2 = false → d.ctl % 2 = 1 →
      Does (.barrowDescEnd c data false) s fun t => t.out = .hostWrite d.host (s.fetch d.hbm d.length) :: s.out ∧ t.mem = s.mem
        ∧ t.rd F.BARROW_CH_STATUS_state c = 2 ∧ (t.barrow c).cur = none)
    ∧ (∀ d data, (s.barrow c).cur = some d → (s.barrow c).engine = true → s.barrowWaits c d = false → (s.barrow c).waits = [] → (s.barrow c).holds = [] → s.on F.BARROW_CH_CTRL_dir c = false → d.tiles = false →
      bitOf d.op 2 = false → d.ctl % 2 = 0 →
      Does (.barrowDescEnd c data false) s fun t => t.mem = (s.put d.hbm (padTo d.length (data.take d.length))).mem
        ∧ t.hbm.held = (s.put d.hbm (padTo d.length (data.take d.length))).hbm.held
        ∧ t.rd F.BARROW_CH_STATUS_state c = 1 ∧ (t.barrow c).fetch = true)
    ∧ (∀ w, s.rd F.BARROW_CH_STATUS_state c = 2 → (s.barrow c).reread = true →
      Does (.barrowCtrlReread c (some w)) s fun t => t.rd F.BARROW_CH_STATUS_state c = (if w % 2 = 1 then 2 else 1) ∧ (t.barrow c).reread = false
        ∧ (w % 2 = 0 → (t.barrow c).fetch = true) ∧ t.out = .hostRead (s.barrowAt c) 8 :: s.out ∧ t.mem = s.mem))
    ∧ (∀ (c v moved : Nat) (data : List Byte) (s : State),
    (s.barrowCtrlBad c v = false →
      exec (.barrowChannelEnable c v) s = .next
        (if s.rd F.BARROW_CH_STATUS_state c = 0 then (s.barrowCtrl c (setBit v 0 true)).barrowBegin c else s.barrowCtrl c (setBit v 0 true))
      ∧ exec (.barrowChannelDisable c v moved data) s = .next ((s.barrowStop c moved data).barrowCtrl c (setBit v 0 false))
      ∧ (v % 2 = 1 → exec (.barrowChannelRestart c v) s = .next
        (if s.rd F.BARROW_CH_STATUS_state c = 3 ∨ s.rd F.BARROW_CH_STATUS_state c = 0 then (s.barrowCtrl c v).barrowBegin c else s.barrowCtrl c v))
      ∧ (v % 2 = 0 → exec (.barrowChannelRestart c v) s = .next ((s.barrowStop c 0 []).barrowCtrl c v)))
    ∧ (∀ d err, (s.barrow c).cur = some d → (s.barrow c).engine = true → (s.barrow c).waits = [] → s.barrowWaits c d = false →
      (err = true → s.on F.BARROW_CH_CTRL_dir c = false → exec (.barrowDescEnd c data err) s = .next
        ((s.barrowMove c d (min d.length data.length) data).1.barrowHalt c St.BARROW_HOST_ERR))
      ∧ (err = false ∨ s.on F.BARROW_CH_CTRL_dir c = true → exec (.barrowDescEnd c data err) s = .next (
        let r := s.barrowMove c d d.length data
        (r.1.whenB (bitOf d.op 2) fun t => t.barrowPost c d.tag St.OK r.2.1 r.2.2).barrowNextDesc c d)))
    ∧ (∀ word, s.rd F.BARROW_CH_STATUS_state c = 2 → (s.barrow c).reread = true →
      exec (.barrowCtrlReread c word) s = .next (
        let t := (s.emit (.hostRead (s.barrowAt c) 8)).updBarrow c fun b => { b with reread := false, recorded := b.known }
        match word with
        | none => t.barrowHalt c St.BARROW_HOST_ERR
        | some w => if w % 2 = 1 then t else t.barrowGo c (w % 2 ^ 64 / 64 * 64))))

/-- O45 (spec/11_host_rings_and_barrows.md; spec/12_storage_commands.md). Parts of R378 and R429 to R433. ABORT of no such command completes
with spec word 0; of a command not begun, that command ends with ABORTED and the ABORT with spec word 1. QUEUE_RESET with nothing
outstanding before it on its ring completes with count 0; a command caught not begun ends with ABORTED_BY_RESET. A function-level reset
leaves every RING and BARROW field at its reset value but the outstanding counts, and no record. A QUEUE_RESET that no earlier one of its
ring holds up ends every outstanding command of the ring by R433, and the whole next state of a function-level reset is given. -/
def Obligations.AbortsAndHostResets : Prop :=
  (∀ (id : Nat) (c : Cmd) (s : State), c.mute = false → s.afterUnmount id = false →
    (s.Waits id 0x16 c → c.b 16 < 16 → c.b 17 = 0 → zeroBytes c.desc 20 64 = true → s.targetStatus c = St.OK → s.ringDepth (c.b 16) ≤ 256 →
      (s.outstanding.find? (fun o => o.ring == c.b 16 && decide (o.id < id) && o.tag == c.h 18) = none →
        Does (.abort id) s fun t => t.Answered c St.OK 0 0 ∧ s.Only t [])
      ∧ (∀ o, s.outstanding.find? (fun o => o.ring == c.b 16 && decide (o.id < id) && o.tag == c.h 18) = some o → s.cmd o.id = some o →
        o.mute = false → o.stage = .ready → o.past = false → lateOpcode o.opcode = true →
        Does (.abort id) s fun t => t.Answered o St.ABORTED 0 o.units ∧ t.Answered c St.OK 1 0 ∧ s.Only t []))
    ∧ (s.Waits id 0x17 c → c.b 16 < 16 → zeroBytes c.desc 17 64 = true → s.targetStatus c = St.OK →
      (s.outstanding.any fun o => o.opcode == 0x17 && o.stage != .ended && decide (o.id < id) && o.b 16 % 16 == c.b 16 % 16) = false →
      (s.outstanding.any (fun o => o.ring == c.b 16 && decide (o.id < id)) = false →
        Does (.queueReset id) s fun t => t.Answered c St.OK 0 0)
      ∧ (∀ o, s.outstanding.filter (fun o => o.ring == c.b 16 && decide (o.id < id)) = [o] → s.cmd o.id = some o → o.opcode ≠ 0x17 → o.mute = false →
        o.stage = .ready → o.past = false → lateOpcode o.opcode = true →
        Does (.queueReset id) s fun t => t.Answered o St.ABORTED_BY_RESET 0 o.units))
    ∧ (∀ moved, Does (.functionLevelReset moved) s fun t => t.host.records = [] ∧ t.host.rings = HostSt.init.rings ∧ t.sec.nonce = none
        ∧ ∀ (f : Fld) (i j : Nat), 0x100000 ≤ f.base → f.base < 0x300000 → f.base ≠ F.RING_OUTSTANDING_now.base → t.rd f i j = f.reset))
    ∧ ((∀ (id : Nat) (c : Cmd) (s : State), s.Waits id 0x17 c → s.afterUnmount id = false → c.b 16 < 16 → zeroBytes c.desc 17 64 = true →
    s.targetStatus c = St.OK →
    (s.outstanding.any fun o => o.opcode == 0x17 && o.stage != .ended && decide (o.id < id) && o.b 16 % 16 == c.b 16 % 16) = false →
    exec (.queueReset id) s = .next (
      let t := s.updCmd id fun c => { c with stage := .running }
      let l := t.outstanding.filter fun o => o.ring == c.b 16 && decide (o.id < id) && o.stage != .ended && !o.mute
      ((t.each (l.map Cmd.id) fun s k => match s.cmd k with
        | some o => if o.stage == .ended || o.mute then s else s.resetCmd o
        | none => s).updCmd id fun c => { c with units := l.length }).finishQueueResets))
    ∧ (∀ (moved : List (Nat × List Byte)) (s : State), exec (.functionLevelReset moved) s = .next
      (((((s.barrowsCut moved).hostCleared.updSec fun x => { x with nonce := none }).countOutstanding).wr F.RST_CAUSE_flr 1).resetDone 2)))

/-- O46 (spec/12_storage_commands.md). Parts of R413. READ_TILES, READ_RANGE, WRITE_SIDECAR, MOUNT, UNMOUNT, FORMAT, SANITIZE, IDENTIFY_REEL
and GET_LOG with a field out of range, and TAKE_OPEN and TAKE_CLOSE in their turn with no plan check pending, end with STOR_BAD_FIELD when
no earlier UNMOUNT of their port waits to begin; no register and no byte of HBM changes. -/
def Obligations.StorageCommandsCheckTheirFields : Prop :=
  ∀ (id : Nat) (c : Cmd) (s : State), c.mute = false → s.afterUnmount id = false →
    (s.Waits id 0x10 c → s.takeTurn id = true → s.planPending = false → takeOpenOk c = false →
      Does (.takeOpen id) s fun t => t.Answered c St.STOR_BAD_FIELD 0 0 ∧ s.Only t [])
    ∧ (s.Waits id 0x11 c → s.takeTurn id = true → takeCloseOk c = false →
      Does (.takeClose id) s fun t => t.Answered c St.STOR_BAD_FIELD 0 0 ∧ s.Only t [])
    ∧ (s.Waits id 0x12 c → readTilesOk c = false → Does (.readTiles id) s fun t => t.Answered c St.STOR_BAD_FIELD 0 0 ∧ s.Only t [])
    ∧ (s.Waits id 0x13 c → readRangeOk c = false → Does (.readRange id) s fun t => t.Answered c St.STOR_BAD_FIELD 0 0 ∧ s.Only t [])
    ∧ (∀ data, s.Waits id 0x14 c → sidecarOk c = false →
      Does (.writeSidecar id data) s fun t => t.Answered c St.STOR_BAD_FIELD 0 0 ∧ s.Only t [])
    ∧ (s.Waits id 0x18 c → mountOk c = false → Does (.mount id) s fun t => t.Answered c St.STOR_BAD_FIELD 0 0 ∧ s.Only t [])
    ∧ (s.Waits id 0x19 c → unmountOk c = false → Does (.unmount id) s fun t => t.Answered c St.STOR_BAD_FIELD 0 0 ∧ s.Only t [])
    ∧ (s.Waits id 0x1A c → formatOk c = false → Does (.format id) s fun t => t.Answered c St.STOR_BAD_FIELD 0 0 ∧ s.Only t [])
    ∧ (s.Waits id 0x1B c → sanitizeOk c = false → Does (.sanitize id) s fun t => t.Answered c St.STOR_BAD_FIELD 0 0 ∧ s.Only t [])
    ∧ (s.Waits id 0x1C c → identifyOk c = false → Does (.identifyReel id) s fun t => t.Answered c St.STOR_BAD_FIELD 0 0 ∧ s.Only t [])
    ∧ (s.Waits id 0x1D c → getLogOk c = false → Does (.getLog id) s fun t => t.Answered c St.STOR_BAD_FIELD 0 0 ∧ s.Only t [])

/-- O47 (spec/12_storage_commands.md). Parts of R415 to R419. TAKE_OPEN in its turn with good fields and every check passed enters OPENING
with its placement; with the first failing check it ends with that check's status. TAKE_CLOSE of an easel with no take, or of another
number, ends with TAKE_UNKNOWN; of a take in OPENING it waits; of a take in RECORDING with frames still to commit the take is CLOSING; of
a take that has ENDED it closes it with the take's status. -/
def Obligations.TakesOpenAndClose : Prop :=
  ∀ (id e : Nat) (c : Cmd) (s : State), s.takeTurn id = true → s.afterUnmount id = false → c.b 16 = e → (s.take e).closeCmds.contains id = false →
    (s.Waits id 0x10 c → s.planPending = false → takeOpenOk c = true → s.openStatus e (c.b 17 % 4) (bitOf (c.b 17) 2) = St.OK →
      Does (.takeOpen id) s fun t => t.rd F.TAKE_STATUS_state e = 1 ∧ t.rd F.TAKE_STATUS_placement e = c.b 17 % 4
        ∧ t.rd F.TAKE_STATUS_packed e = b2n (bitOf (c.b 17) 2) ∧ t.rd F.TAKE_FRAMES_value e = 0 ∧ t.rd F.TAKE_SCRAPED_value e = 0
        ∧ t.mem = s.mem)
    ∧ (∀ st, s.Waits id 0x10 c → c.mute = false → s.planPending = false → takeOpenOk c = true →
      s.openStatus e (c.b 17 % 4) (bitOf (c.b 17) 2) = st → st ≠ St.OK →
      Does (.takeOpen id) s fun t => t.Answered c st 0 0 ∧ s.Only t [])
    ∧ (s.Waits id 0x11 c → c.mute = false → takeCloseOk c = true → s.rd F.TAKE_STATUS_state e = 0 ∨ s.rd F.TAKE_NUMBER_value e ≠ c.w 20 →
      Does (.takeClose id) s fun t => t.Answered c St.TAKE_UNKNOWN 0 0 ∧ s.Only t [])
    ∧ (s.Waits id 0x11 c → takeCloseOk c = true → s.rd F.TAKE_STATUS_state e = 1 → s.rd F.TAKE_NUMBER_value e = c.w 20 →
      e < s.stor.takes.length →
      Does (.takeClose id) s fun t => (t.take e).closeCmds = (s.take e).closeCmds ++ [id] ∧ t.host.records = s.host.records ∧ s.Only t [])
    ∧ (s.Waits id 0x11 c → takeCloseOk c = true → s.rd F.TAKE_STATUS_state e = 2 → s.rd F.TAKE_NUMBER_value e = c.w 20 →
      e < s.stor.takes.length → (s.take e).frames ≠ [] →
      Does (.takeClose id) s fun t => t.rd F.TAKE_STATUS_state e = 3 ∧ (t.take e).closeCmds = (s.take e).closeCmds ++ [id]
        ∧ t.host.records = s.host.records ∧ s.Only t [(F.TAKE_STATUS_state, e)])
    ∧ (s.Waits id 0x11 c → c.mute = false → takeCloseOk c = true → s.rd F.TAKE_STATUS_state e = 4 → s.rd F.TAKE_NUMBER_value e = c.w 20 →
      e < s.stor.takes.length → (s.take e).closeCmds = [] →
      Does (.takeClose id) s fun t => t.rd F.TAKE_STATUS_state e = 0
        ∧ t.Answered c (s.rd F.TAKE_STATUS_end_status e) (s.rd F.TAKE_FRAMES_value e) (s.rd F.TAKE_SCRAPED_value e)
        ∧ s.Only t ([(F.TAKE_STATUS_state, e), (F.TAKE_STATUS_end_status, e)] ++ (s.take e).ports.flatMap fun p =>
          [(F.MAG_OPS_now, p), (F.MAG_OPS_peak, p), (F.MAG_SCRUB_STATUS_running, p), (F.MAG_SCRUB_STATUS_pending, p)]))

/-- O48 (spec/12_storage_commands.md). Parts of R422 to R425, R440 and R441. With good fields and a port that is not mounted, or that an
UNMOUNT decoded earlier drains, READ_TILES, READ_RANGE and GET_LOG end with MAG_NOT_READY. READ_TILES of frames not committed at its
decode ends with FRAME_UNKNOWN; of a committed frame it gives the pages that hold the tiles to the dies in class 2 and waits for them, and
with no page to read it ends with OK and the counts of present and damaged tiles. READ_RANGE reads whole frames, or the bytes of a
sidecar. GET_LOG writes the entries that fit to the buffer and ends with OK and their number. IDENTIFY_REEL writes 256 bytes.
WRITE_SIDECAR reads the file and starts it on each port that can take it; with none that can it reads nothing. -/
def Obligations.ReelReadsAndLogs : Prop :=
  ∀ (id p : Nat) (c : Cmd) (s : State), c.b 16 = p → c.mute = false → s.afterUnmount id = false →
    (s.Waits id 0x12 c → readTilesOk c = true → s.portFor id p = false →
      Does (.readTiles id) s fun t => t.Answered c St.MAG_NOT_READY 0 0 ∧ s.Only t [])
    ∧ (∀ x, s.Waits id 0x12 c → readTilesOk c = true → s.portFor id p = true → s.takeOf p (c.w 20) = some x → c.framesSeen ≤ c.w 24 →
      Does (.readTiles id) s fun t => t.Answered c St.FRAME_UNKNOWN 0 0 ∧ s.Only t [])
    ∧ (∀ x u pages, u = s.updCmd id (fun c => { c with stage := .running }) →
      pages = ((u.readUnits c).flatMap (u.unitPagesOf c)).eraseDups →
      s.Waits id 0x12 c → readTilesOk c = true → s.portFor id p = true → s.takeOf p (c.w 20) = some x → c.w 24 < c.framesSeen →
      c.w 28 + c.w 32 ≤ entryTiles x → s.partnerGone p x = false →
      exec (.readTiles id) s = .next (u.startRead c)
        ∧ (pages = [] → s.readWork id = none → ∃ present damaged, Does (.readTiles id) s fun t => t.Answered c St.OK present damaged
          ∧ damaged ≤ present ∧ present ≤ c.w 32 ∧ t.mem = s.mem)
        ∧ (∀ v us, u.readUnits c = v :: us → u.unitPagesOf c v ≠ [] → s.readWork id = none →
          (u.startRead c).stor.reads = s.stor.reads ++ [{ cmd := id, unread := pages, lost := [], next := 0, present := 0, damaged := 0 }]
          ∧ s.Only (u.startRead c) ([0, 1].flatMap fun p => [(F.MAG_OPS_now, p), (F.MAG_OPS_peak, p), (F.MAG_SCRUB_STATUS_running, p),
            (F.MAG_SCRUB_STATUS_pending, p)])))
    ∧ (s.Waits id 0x13 c → readRangeOk c = true → s.portFor id p = false →
      Does (.readRange id) s fun t => t.Answered c St.MAG_NOT_READY 0 0 ∧ s.Only t [])
    ∧ (s.Waits id 0x13 c → readRangeOk c = true → s.portFor id p = true → c.b 17 = 0 →
      exec (.readRange id) s = .next ((s.updCmd id fun c => { c with stage := .running }).readFrames id c))
    ∧ (s.Waits id 0x13 c → readRangeOk c = true → s.portFor id p = true → c.b 17 = 1 →
      exec (.readRange id) s = .next ((s.updCmd id fun c => { c with stage := .running }).readSidecar id c))
    ∧ (s.Waits id 0x1D c → getLogOk c = true → s.portFor id p = false →
      Does (.getLog id) s fun t => t.Answered c St.MAG_NOT_READY 0 0 ∧ s.Only t [])
    ∧ (∀ r n, s.Waits id 0x1D c → getLogOk c = true → s.portFor id p = true → (s.port p).reel = some r →
      n = min (c.w 28) (min (c.w 40 / logSize (c.b 17)) ((r.log (c.b 17) (c.w 20)).drop (c.w 24)).length) →
      Does (.getLog id) s fun t => t.Answered c St.OK n ((r.log (c.b 17) (c.w 20)).drop (c.w 24)).length ∧ s.Only t []
        ∧ ∃ bs, t.out = .hostWrite (c.d 32) bs :: s.out)
    ∧ (∀ m h, s.Waits id 0x1C c → identifyOk c = true → (s.port p).mag = some m → s.portState p = 3 ∨ s.portState p = 4 ∨ s.portState p = 5 →
      (s.port p).admin.any (fun a => a.cmd.isNone) = false → (s.port p).unmount.all (fun u => decide (id < u)) = true → headerInForce m = some h →
      Does (.identifyReel id) s fun t => t.Answered c St.OK 0 0 ∧ s.Only t [] ∧ ∃ bs, t.out = .hostWrite (c.d 24) bs :: s.out)
    ∧ (∀ data, s.Waits id 0x14 c → sidecarOk c = true → p = 0 → s.portFor id 0 = false → s.stor.sideCmds = [] →
      Does (.writeSidecar id data) s fun t => t.out = s.out ∧ t.Answered c St.MAG_NOT_READY 0 0 ∧ t.mem = s.mem)
    ∧ (∀ data, s.Waits id 0x14 c → sidecarOk c = true → (∀ q ∈ placePorts p, s.sideStatus id q (c.w 20) = St.OK ∧ (s.port q).reel.isSome = true
        ∧ q < s.stor.ports.length) →
      Does (.writeSidecar id data) s fun t => t.out = .hostRead (c.d 24) (c.w 32) :: s.out ∧ t.host.records = s.host.records ∧ s.Only t []
        ∧ ∀ q ∈ placePorts p, ∃ e n, (t.port q).sides = (s.port q).sides ++ [(id, e, n)])

/-- O49 (spec/10_reel_format_and_recovery.md; spec/12_storage_commands.md). Parts of R428 and R436 to R438. MOUNT of a READY port runs on it,
and of another ends with MAG_NOT_READY; UNMOUNT with a take open on the port ends with PORT_BUSY, and without one drains the port, which
is READY with OK once nothing of it is left; FORMAT without a key of its own and SANITIZE of a READY port with a magazine put it in ADMIN;
FLUSH that names a port not mounted for it ends with MAG_NOT_READY, and of mounted ports with nothing to wait for ends with OK. -/
def Obligations.MountsFormatsAndFlushes : Prop :=
  ∀ (id p : Nat) (c : Cmd) (s : State), c.b 16 = p → c.mute = false → s.afterUnmount id = false → p < s.stor.ports.length →
    (s.Waits id 0x18 c → mountOk c = true → s.portReady p = false →
      Does (.mount id) s fun t => t.Answered c St.MAG_NOT_READY 0 0 ∧ s.Only t [])
    ∧ (s.Waits id 0x18 c → mountOk c = true → s.portReady p = true →
      exec (.mount id) s = .next ((s.updCmd id fun c => { c with stage := .running }).mountRun p id (bitOf (c.b 17) 0)).mountChecks)
    ∧ (s.Waits id 0x19 c → unmountOk c = true → s.portUsable p = true → s.portTakeOpen p = true →
      Does (.unmount id) s fun t => t.Answered c St.PORT_BUSY 0 0 ∧ s.Only t [])
    ∧ (∀ o ops, s.Waits id 0x19 c → unmountOk c = true → s.portUsable p = true → s.portTakeOpen p = false → (s.port p).ops = o :: ops →
      o.running = true →
      Does (.unmount id) s fun t => (t.port p).unmount = some id ∧ t.rd F.STOR_ADMIN_STATUS_op p = 2 ∧ t.mem = s.mem)
    ∧ (s.Waits id 0x19 c → unmountOk c = true → s.portUsable p = true → s.portTakeOpen p = false → (s.port p).allOps = [] →
      (s.port p).ledger.pend = [] → (s.port p).ledger.group = none → (s.port p).tasks = [] → s.host.cmds = [c] →
      Does (.unmount id) s fun t => t.Answered c St.OK 0 0 ∧ t.portState p = 3 ∧ (t.port p).reel = none ∧ (t.port p).mag = (s.port p).mag
        ∧ t.mem = s.mem)
    ∧ (∀ m, s.Waits id 0x1A c → formatOk c = true → (s.port p).mag = some m → s.portReady p = true → c.b 17 = 0 → c.d 20 ≠ 0 →
      Does (.format id) s fun t => t.portState p = 5 ∧ (t.port p).admin.isSome = true ∧ t.mem = s.mem)
    ∧ (∀ m, s.Waits id 0x1B c → sanitizeOk c = true → (s.port p).mag = some m → s.portReady p = true →
      Does (.sanitize id) s fun t => t.portState p = 5 ∧ (t.port p).admin.isSome = true ∧ t.mem = s.mem)
    ∧ (s.Waits id 0x15 c → flushOk c = true → c.b 16 = 1 → s.portFor id 0 = false → s.stor.flushes = [] →
      Does (.flush id) s fun t => t.Answered c St.MAG_NOT_READY 0 0 ∧ s.Only t [])
    ∧ (s.Waits id 0x15 c → flushOk c = true → c.b 16 = 1 → s.portFor id 0 = true → s.stor.flushes = [] → s.host.cmds = [c] →
      c.seen = .flush [] [] →
      Does (.flush id) s fun t => t.Answered c St.OK 0 0 ∧ s.Only t [])

/-- O50 (spec/13_sketch_coding.md). Parts of R468 to R470 and R478. A commit of a closed context with none pending is checked, and of an open
one takes only a QP change; a set that meets R459, R462 and R465 takes effect, another sets cfg_bad. SKETCH_OPEN with bad fields ends with
VC_BAD_REQ, of a context not closed with VC_STATE, and with every check passed opens the context and answers its buffer count.
SKETCH_CLOSE of a context not open ends with VC_STATE; with no picture in hand and none unpublished the context closes with its counts.
SKETCH_REFRESH of an open context waits for the next picture. -/
def Obligations.SketchContexts : Prop :=
  ∀ (id x : Nat) (c : Cmd) (s : State), x < s.vcd.ctx.length → x < 16 →
    (s.on F.VCD_SC_COMMIT_pending x = true → exec (.vcdScCommit x) s = .next (s.wr F.VCD_SC_FLAGS_cfg_refused 1 x))
    ∧ (s.on F.VCD_SC_COMMIT_pending x = false → s.rd F.VCD_SC_STATUS_state x = 0 →
      Does (.vcdScCommit x) s fun t => t.rd F.VCD_SC_COMMIT_pending x = 1 ∧ (t.sc x).check = some (s.scShadow x)
        ∧ s.Only t [(F.VCD_SC_COMMIT_pending, x)])
    ∧ (s.on F.VCD_SC_COMMIT_pending x = false → s.rd F.VCD_SC_STATUS_state x ≠ 0 → sameButQp (s.scShadow x) (s.sc x).inForce x = true →
      Does (.vcdScCommit x) s fun t => (t.sc x).qp = some (s.scShadow x) ∧ s.Only t [])
    ∧ (∀ r, s.planPending = false → (s.sc x).check = some r → s.scCaps r x = true →
      Does (.vcdScCommitCheckDone x) s fun t => (t.sc x).inForce = r ∧ (t.sc x).check = none ∧ t.rd F.VCD_SC_COMMIT_pending x = 0
        ∧ s.Only t [(F.VCD_SC_COMMIT_pending, x), (F.VCD_SC_HOST_HEAD_value, x), (F.VCD_SC_HOST_TAIL_value, x)])
    ∧ (∀ r, s.planPending = false → (s.sc x).check = some r → s.scCaps r x = false →
      Does (.vcdScCommitCheckDone x) s fun t => (t.sc x).inForce = (s.sc x).inForce ∧ t.rd F.VCD_SC_FLAGS_cfg_bad x = 1
        ∧ s.Only t [(F.VCD_SC_COMMIT_pending, x), (F.VCD_SC_FLAGS_cfg_bad, x)])
    ∧ (s.Waits id 0x20 c → c.mute = false → s.planPending = false → streamBad c 0 = true →
      Does (.sketchOpen id) s fun t => t.Answered c St.VC_BAD_REQ 0 0 ∧ s.Only t [])
    ∧ (s.Waits id 0x20 c → c.mute = false → s.planPending = false → streamBad c 0 = false → c.b 16 = x → s.rd F.VCD_SC_STATUS_state x ≠ 0 →
      Does (.sketchOpen id) s fun t => t.Answered c St.VC_STATE 0 0 ∧ s.Only t [])
    ∧ (∀ r l, s.Waits id 0x20 c → c.mute = false → s.planPending = false → streamBad c 0 = false → c.b 16 = x →
      s.rd F.VCD_SC_STATUS_state x = 0 → s.on F.VCD_SC_COMMIT_pending x = false → r = (s.sc x).inForce →
      (s.viewSuits r x && s.levelOk r x && s.scCaps r x) = true → s.sketchLoadOk x = true →
      s.poolTake (regOf r F.VCD_SC_CTRL_half x) x (poolSize (roundUpTo (s.viewWidth (regOf r F.VCD_SC_CTRL_view x)) 8)
        (roundUpTo (s.viewHeight (regOf r F.VCD_SC_CTRL_view x)) 8) (s.view422 (regOf r F.VCD_SC_CTRL_view x))) (3 + regOf r F.VCD_SC_CTRL_lt x) = some l →
      Does (.sketchOpen id) s fun t => t.Answered c St.OK (3 + regOf r F.VCD_SC_CTRL_lt x) 0 ∧ t.rd F.VCD_SC_STATUS_state x = 1 ∧ t.mem = s.mem)
    ∧ (s.Waits id 0x21 c → c.mute = false → streamBad c 1 = false → c.b 16 = x → s.rd F.VCD_SC_STATUS_state x ≠ 1 →
      Does (.sketchClose id) s fun t => t.Answered c St.VC_STATE 0 0 ∧ s.Only t [])
    ∧ (s.Waits id 0x21 c → c.mute = false → streamBad c 1 = false → c.b 16 = x → s.rd F.VCD_SC_STATUS_state x = 1 → (s.sc x).queue = [] →
      (s.sc x).refresh = [] → (s.sc x).pic = none → (s.sc x).aus = [] →
      Does (.sketchClose id) s fun t => t.Answered c St.OK (s.sc x).coded (s.sc x).published ∧ t.rd F.VCD_SC_STATUS_state x = 0 ∧ t.mem = s.mem)
    ∧ (s.Waits id 0x22 c → streamBad c 0 = false → c.b 16 = x → s.rd F.VCD_SC_STATUS_state x = 1 →
      Does (.sketchRefresh id) s fun t => (t.sc x).refresh = (s.sc x).refresh ++ [id] ∧ t.host.records = s.host.records ∧ s.Only t [])

/-- O51 (spec/13_sketch_coding.md). Parts of R445 to R466 and R472 to R477. A free powered core takes the picture whose row 0 was available
first, the lower context of equals. It starts a row when the view has written its lines. A coded row that the rules allow and whose bits
pass the release pointer of the ring stalls the core, and one that fits ends the row. The next NAL unit of an access unit, complete and
with room, is stored in the ring. A stalled core resumes when the released space holds what it needs. The first settled access unit goes
to the host ring with a record. RC_DECODE answers bad fields with VC_BAD_REQ, a faulted context with VC_CTX_FAULT, and else reads its
buffer and goes on by one picture at each command until it answers, with OK and no picture where the bytes decode to none. A free powered
core takes the picture that R450 picks, and the whole next state of SKETCH_PUBLISH is given. -/
def Obligations.SketchPicturesAndDecoding : Prop :=
  (∀ (k x : Nat) (s : State), x < 16 → x < s.vcd.ctx.length → k < s.vcd.cores.length →
    (∀ a q rest b, s.vcd.cores.getD k none = none → s.powered (20 + k / 4) = true → s.takesWork (0x38 + k) = true → s.scReady x k = some a →
      (∀ y a', y < 16 → s.scReady y k = some a' → a * 16 + x ≤ a' * 16 + y) → (s.sc x).pic = none → (s.sc x).queue = q :: rest →
      (s.scBufs x).find? (fun b => b.mark == 0) = some b →
      Does (.sketchPictureStart k) s fun t => t.vcd.cores.getD k none = some (x, none) ∧ (t.sc x).queue = rest
        ∧ (∃ p, (t.sc x).pic = some p ∧ p.easel = q.1 ∧ p.serial = q.2.1 ∧ p.buf = b.addr ∧ p.begun = false) ∧ t.mem = s.mem)
    ∧ (∀ p i j q, s.vcd.cores.getD k none = some (x, none) → (s.sc x).pic = some p → s.coreRow x k p = some (i, j) → p.parts[i]? = some q →
      s.rowWritten x p q j = true →
      exec (.sketchRowStart k) s = .next (s.rowStarted x k i j p q)
        ∧ (s.rowStarted x k i j p q).vcd.cores.getD k none = some (x, some j) ∧ (s.rowStarted x k i j p q).mem = s.mem)
    ∧ (∀ p j q row floor, s.vcd.cores.getD k none = some (x, some j) → (s.sc x).pic = some p → p.parts[s.partOf x k]? = some q →
      s.rowLegal x k j p q row floor = true →
      exec (.sketchRowDone k row floor) s = .next (s.rowCoded x k (s.partOf x k) j p q row floor)
      ∧ (∀ need, q.floor = false → p.scraped = false → pastRoom ((s.sc x).fits x) p.loose row = some need →
        Does (.sketchRowDone k row floor) s fun t => (t.sc x).stalled = (s.sc x).stalled ++ [(k, need)] ∧ t.vcd.cores = s.vcd.cores
          ∧ t.rd F.VCD_SC_FLAGS_stall x = 1 ∧ s.Raised t (s.scHalf x) Ev.VCD_STALL (le 1 x) ∧ t.mem = s.mem)
      ∧ (q.floor = false → p.scraped = false → pastRoom ((s.sc x).fits x) p.loose row = none → pastRoom ((s.sc x).fits x) p.loose floor = none →
        Does (.sketchRowDone k row floor) s fun t => (t.vcd.cores.getD k none = none ∨ t.vcd.cores.getD k none = some (x, none)) ∧ s.Only t []))
    ∧ (∀ p au n head part last, (s.sc x).pic = some p → (s.sc x).aus.getLast? = some au → (s.nalPlan x p)[p.nals]? = some n →
      s.nalLegal x p n head part last = true →
      exec (.sketchNalCommit x head part last) s = .next (s.nalCommitted x p au n head last)
        ∧ (last = false → Does (.sketchNalCommit x head part last) s fun t => t.mem = (s.scPut x (s.nalBytesOf x p n head)).mem
          ∧ (t.sc x).put = ((s.scPut x (s.nalBytesOf x p n head)).sc x).put))
    ∧ Does (.sketchRingResume x) s (fun t =>
      (t.sc x).stalled = (s.sc x).stalled.filter (fun y => !((s.scRelease x).sc x).fits x y.2) ∧ s.Only t [])
    ∧ (∀ a as, (s.sc x).aus = a :: as → a.coded = true → (a.state = 1 ∨ a.state = 2) → s.auRoom x a = true → s.quiet (s.scHalf x) = false →
      Does (.sketchPublish x) s fun t =>
        t.rd F.VCD_SC_HOST_TAIL_value x = (s.rd F.VCD_SC_HOST_TAIL_value x + (auBytes x a).length)
          % max 1 (regOf (s.sc x).inForce F.VCD_SC_HOST_SIZE_value x * 4096) % 2 ^ F.VCD_SC_HOST_TAIL_value.width ∧ t.mem = s.mem
        ∧ ∃ q ∈ t.host.records, q.event = false ∧ q.source = 136 + x ∧ q.status = St.OK ∧ q.spec0 = s.rd F.VCD_SC_HOST_TAIL_value x
          ∧ q.spec1 = (auBytes x a).length ∧ q.cq = regOf (s.sc x).inForce F.VCD_SC_WIN_cq x)
    ∧ (∀ id c data, s.Waits id 0x28 c → c.mute = false → s.planPending = false → (s.vcd.dec.getD (c.b 16) RcSt.init).work = none →
      (rcBad c = true → Does (.rcDecode id data) s fun t => t.Answered c St.VC_BAD_REQ 0 0 ∧ s.Only t [])
      ∧ (rcBad c = false → s.takesWork (0x40 + c.b 16 / 4) = true → bitOf (c.b 17) 0 = false → (s.vcd.dec.getD (c.b 16) RcSt.init).fault = true →
        Does (.rcDecode id data) s fun t => t.Answered c St.VC_CTX_FAULT 0 0 ∧ s.Only t [])
      ∧ (rcBad c = false → s.takesWork (0x40 + c.b 16 / 4) = true →
        exec (.rcDecode id data) s = .next ((s.updCmd id fun c => { c with stage := .running }).rcBegin c data))
      ∧ (∀ x bs used o, rcBad c = false → s.takesWork (0x40 + c.b 16 / 4) = true → bitOf (c.b 17) 0 = false → x = s.vcd.dec.getD (c.b 16) RcSt.init →
        x.fault = false → x.dpb = [] → x.held = [] → c.b 16 < s.vcd.dec.length → bs = padTo (c.w 20) (data.take (c.w 20)) →
        used = (if bitOf (c.b 17) 1 = true then bs.length else startsEnd bs) → o = Config.hevc x.history (bs.take used) →
        Does (.rcDecode id data) s fun t => o.steps = [] → o.fault = none →
          t.Answered c St.OK 0 used ∧ .hostRead (c.d 24) (c.w 20) ∈ t.out ∧ t.mem = s.mem))
    ∧ (∀ id c data w, s.Runs id 0x28 c → (s.vcd.dec.getD (c.b 16) RcSt.init).work = some w → w.cmd = id →
      exec (.rcDecode id data) s = .next (s.rcGo c (c.b 16) w)))
    ∧ (∀ (k x : Nat) (s : State),
    (s.vcd.cores.getD k none = none → s.powered (20 + k / 4) = true → s.takesWork (0x38 + k) = true → s.scPick k = some x →
      exec (.sketchPictureStart k) s = .next (s.pictureTaken k x))
    ∧ (∀ a as, ((s.scDead x).sc x).aus = a :: as → a.coded = true → a.state ≠ 0 → (s.scDead x).auRoom x a = true →
      exec (.sketchPublish x) s = .next ((s.scDead x).auPublished x a))
    ∧ (((s.scDead x).sc x).aus = [] → exec (.sketchPublish x) s = .next ((s.scDead x).closeCheck x)))

/-- O52 (spec/14_raster_outputs.md). Parts of R483 to R494 and R501. A commit is refused while one is pending, else checked; a good set takes
effect at once on an OFF output and else waits for the select point; a bad one sets cfg_bad. An output in ACQUIRE is LOCKED at the 16th
frame start within 1 sample; V pulses at its rate bring an UNLOCKED or HOLDOVER output to ACQUIRE; a LOCKED one without its reference is
in HOLDOVER. At a ring-mode select point the newest qualifying picture is taken with the primer lines issued. A fetched line in time is
buffered. A line that is due is sent, or sent black; a line missing from the buffer counts an underflow. A live line whose tiles are at
hand is written to the view's slot when the output's line buffer has room. The whole next state of a select point, of a V pulse, of the
loss of a reference, and of the last line of a picture's fetch is given. -/
def Obligations.RasterOutputs : Prop :=
  (∀ (o n : Nat) (s : State), o < 6 → o < s.outs.length →
    (s.on F.RAS_OUT_COMMIT_pending o = true → exec (.rasOutCommit o) s = .next (s.wr F.RAS_OUT_FLAGS_cfg_refused 1 o))
    ∧ (s.on F.RAS_OUT_COMMIT_pending o = false → regOn (s.outp o).inForce F.RAS_OUT_CTRL_enable o = false →
      Does (.rasOutCommit o) s fun t => t.rd F.RAS_OUT_COMMIT_pending o = 1 ∧ (t.outp o).check = some (s.outShadow o)
        ∧ s.Only t [(F.RAS_OUT_COMMIT_pending, o)])
    ∧ (∀ r, (s.outp o).check = some r → (s.outLink r o && s.outFits r o) = true → s.lockState o = 0 →
      Does (.rasOutCommitCheckDone o) s fun t => (t.outp o).inForce = r ∧ t.rd F.RAS_OUT_COMMIT_pending o = 0 ∧ t.mem = s.mem)
    ∧ (∀ r, (s.outp o).check = some r → (s.outLink r o && s.outFits r o) = true → s.lockState o ≠ 0 →
      Does (.rasOutCommitCheckDone o) s fun t => (t.outp o).ready = some r ∧ (t.outp o).inForce = (s.outp o).inForce ∧ s.Only t [])
    ∧ (∀ r, (s.outp o).check = some r → (s.outLink r o && s.outFits r o) = false →
      Does (.rasOutCommitCheckDone o) s fun t => t.rd F.RAS_OUT_FLAGS_cfg_bad o = 1 ∧ t.rd F.RAS_OUT_COMMIT_pending o = 0
        ∧ (t.outp o).inForce = (s.outp o).inForce ∧ s.Only t [(F.RAS_OUT_FLAGS_cfg_bad, o), (F.RAS_OUT_COMMIT_pending, o)])
    ∧ (∀ err : Int, o < 4 → s.lockState o = 2 → err.natAbs ≤ 1 → 15 ≤ (s.outp o).starts →
      Does (.rasFrameStart o err) s fun t => t.lockState o = 3 ∧ s.Raised t 0 Ev.RAS_LOCKED (le 1 o) ∧ t.mem = s.mem)
    ∧ (∀ err : Int, o < 4 → s.lockState o = 2 → err.natAbs ≤ 1 → (s.outp o).starts < 15 →
      Does (.rasFrameStart o err) s fun t => t.lockState o = 2 ∧ (t.outp o).starts = (s.outp o).starts + 1 ∧ s.Only t [(F.RAS_OUT_STATUS_phase_err, o)])
    ∧ (∀ period, s.outLock o = 0 → (s.lockState o = 1 ∨ s.lockState o = 4) →
      pulseHalves (regOf (s.outp o).inForce F.RAS_OUT_FMT_rate o) period ≠ 0 →
      4 ≤ (s.outp o).pulses + pulseHalves (regOf (s.outp o).inForce F.RAS_OUT_FMT_rate o) period →
      Does (.vrefPulse period) s fun t => t.lockState o = 2 ∧ t.mem = s.mem)
    ∧ (s.outLock o = 0 → s.lockState o = 3 →
      Does (.rasReferenceLoss o) s fun t => t.lockState o = 4 ∧ t.rd F.RAS_OUT_FLAGS_lock_lost o = 1 ∧ s.Raised t 0 Ev.RAS_LOCK_LOST (le 1 o)
        ∧ t.mem = s.mem)
    ∧ (∀ k count again passed, (s.outp o).ready = none → (s.outp o).pic = none → s.sending o = true → s.takesWork (0x70 + o) = true → s.viewOn (s.outView o) = true →
      s.outLive o = false →
      s.chooseSlot (s.outView o) (regOn (s.outp o).inForce F.RAS_OUT_CTRL_dry_only o) (s.outp o).last = some (k, count, again, passed) →
      Does (.rasSelectPoint o) s fun t => (t.outp o).pic = some (s.picOf (s.outView o) k again true) ∧ (t.outp o).last = some (s.outView o, count)
        ∧ (t.outp o).issued = List.range (min (s.outPrimer o) (s.viewHeight (s.outView o))) ∧ t.mem = s.mem)
    ∧ (∀ p, (s.outp o).pic = some p → (s.outp o).issued.contains n = true → s.released (24 + stackOf (s.viewBase p.view)) = true →
      s.stackWaits (stackOf (s.viewBase p.view)) = false → n + 1 ≠ s.viewHeight p.view → (s.outp o).line ≤ s.rasterLine o n →
      Does (.rasLineFetchDone o n) s fun t => (t.outp o).buffer = (n, s.fetchLine p.view p.slot n) :: (s.outp o).buffer
        ∧ (t.outp o).issued = (s.outp o).issued.filter (· ≠ n)
        ∧ s.Only t [(F.HBM_FLAGS_ce, stackOf (s.slotLineAddr p.view p.slot 0 n)), (F.HBM_CNT_ce, stackOf (s.slotLineAddr p.view p.slot 0 n))])
    ∧ (o < 4 → s.lockState o ≠ 0 → (s.outp o).pic = none → s.outLive o = true → s.sending o = true → (s.outp o).cut = false →
      regOf (s.outp o).inForce F.RAS_OUT_POS_y o ≤ (s.outp o).line →
      (s.outp o).line < regOf (s.outp o).inForce F.RAS_OUT_POS_y o + s.viewHeight (s.outView o) →
      Does (.rasLineDue o false) s fun t => t.out = .rasterLine o (s.outp o).line (s.activeLine o []) :: s.out ∧ t.rd F.RAS_OUT_FLAGS_underflow o = 1
        ∧ t.mem = s.mem)
    ∧ (o < 4 → s.lockState o ≠ 0 → (s.outp o).pic = none → s.outLive o = false ∨ s.sending o = false →
      Does (.rasLineDue o false) s fun t => t.out = .rasterLine o (s.outp o).line (s.activeLine o []) :: s.out ∧ s.Only t [])
    ∧ (∀ p l, o < 4 → s.lockState o ≠ 0 → (s.outp o).pic = some p → s.sending o = true → (s.outp o).cut = false →
      regOf (s.outp o).inForce F.RAS_OUT_POS_y o ≤ (s.outp o).line →
      (s.outp o).line < regOf (s.outp o).inForce F.RAS_OUT_POS_y o + s.viewHeight p.view →
      s.sendLine o ((s.outp o).line - regOf (s.outp o).inForce F.RAS_OUT_POS_y o) p = some l →
      Does (.rasLineDue o false) s fun t => t.out = .rasterLine o (s.outp o).line (s.activeLine o l) :: s.out ∧ s.Only t [])
    ∧ (∀ p, o < 4 → s.lockState o ≠ 0 → (s.outp o).pic = some p → s.sending o = true → (s.outp o).cut = false →
      regOf (s.outp o).inForce F.RAS_OUT_POS_y o ≤ (s.outp o).line →
      (s.outp o).line < regOf (s.outp o).inForce F.RAS_OUT_POS_y o + s.viewHeight p.view →
      s.sendLine o ((s.outp o).line - regOf (s.outp o).inForce F.RAS_OUT_POS_y o) p = none →
      Does (.rasLineDue o false) s fun t => t.out = .rasterLine o (s.outp o).line (s.activeLine o []) :: s.out ∧ t.rd F.RAS_OUT_FLAGS_underflow o = 1
        ∧ t.mem = s.mem)
    ∧ (∀ k f g, s.outLive o = true → n < s.viewHeight (s.outView o) → s.writingSlot (s.outView o) = some k →
      s.frame (s.ringSlot (s.outView o) k).easel (s.ringSlot (s.outView o) k).serial = some f →
      s.statFrame (s.ringSlot (s.outView o) k).easel (s.ringSlot (s.outView o) k).serial = some g →
      s.lineIn (s.outView o) (s.ringSlot (s.outView o) k) f g n = true → s.bufferFull o (s.outView o) = false →
      n < (s.ringSlot (s.outView o) k).lines ∨ s.viewHeld (s.outView o) = false →
      exec (.rasLiveLineArrive o n) s = .next (s.liveLine o n k f) ∧ (s.liveLine o n k f).mem = s.mem))
    ∧ (∀ (o n period : Nat) (s : State),
    exec (.rasSelectPoint o) s = .next (
      let t := match (s.outp o).ready with | some r => s.outApply o r | none => s
      if t.sending o && t.takesWork (0x70 + o) && t.viewOn (t.outView o) then (if t.outLive o then t.livePick o else t.ringPick o) else t)
    ∧ exec (.vrefPulse period) s = .next ((s.rasPulse period).audPulse period)
    ∧ (s.outLock o = 0 → exec (.rasReferenceLoss o) s = .next ((s.updOut o fun x => { x with pulses := 0 }).outLost o))
    ∧ (∀ p, (s.outp o).pic = some p → (s.outp o).issued.contains n = true → s.released (24 + stackOf (s.viewBase p.view)) = true →
      s.stackWaits (stackOf (s.viewBase p.view)) = false →
      exec (.rasLineFetchDone o n) s = .next (
        let t := ((s.updOut o fun x => { x with issued := x.issued.filter (· ≠ n) }).hbmRead (s.slotLineAddr p.view p.slot 0 n)
          (2 * s.viewWidth p.view)).bufferLine o n (s.fetchLine p.view p.slot n)
        if n + 1 = s.viewHeight p.view then t.outRelease o else t)))

/-- O53 (spec/14_raster_outputs.md). Parts of R499 and R500. A push or a DCS command with bad fields ends with RAS_BAD_REQ; on a port not in
COMMAND mode with RAS_STATE. On an idle port a push is sent and waits for its end, a DCS write is sent and completes with OK, and a DCS
read waits for its reply; a reply completes it with its bytes, none within 1 ms with RAS_NO_REPLY. A port in INIT whose set-up has been
sent is in COMMAND. The set-up sent to a panel is that of a board configuration that holds; without one the port comes up with
board_cfg_bad and its event. -/
def Obligations.ViewfinderPanels : Prop :=
  (∀ (id d : Nat) (c : Cmd) (s : State), d < 2 → 4 + d < s.outs.length → c.mute = false →
    (∀ px, s.Waits id 0x30 c → s.pushOk c = false → Does (.rasRegionPush id px) s fun t => t.Answered c St.RAS_BAD_REQ 0 0 ∧ s.Only t [])
    ∧ (∀ px, s.Waits id 0x30 c → s.pushOk c = true → c.b 16 = d → s.rd F.RAS_OUT_STATUS_dsi_mode (4 + d) ≠ 2 →
      Does (.rasRegionPush id px) s fun t => t.Answered c St.RAS_STATE 0 0 ∧ s.Only t [])
    ∧ (∀ px, s.Waits id 0x30 c → s.pushOk c = true → c.b 16 = d → s.rd F.RAS_OUT_STATUS_dsi_mode (4 + d) = 2 →
      (s.outp (4 + d)).queue = [] →
      Does (.rasRegionPush id px) s fun t => (t.outp (4 + d)).queue = [(id, px)] ∧ t.out.length = s.out.length + (pushCommands c px).length
        ∧ s.Only t [])
    ∧ (s.Waits id 0x31 c → dcsOk c = false → Does (.rasDcs id) s fun t => t.Answered c St.RAS_BAD_REQ 0 0 ∧ s.Only t [])
    ∧ (s.Waits id 0x31 c → dcsOk c = true → c.b 16 = d → s.rd F.RAS_OUT_STATUS_dsi_mode (4 + d) = 2 → (s.outp (4 + d)).queue = [] → c.b 17 = 0 →
      Does (.rasDcs id) s fun t => t.Answered c St.OK 0 0 ∧ t.out = .dsi d false (bytesAt c.desc 36 (c.h 18)) :: s.out ∧ s.Only t [])
    ∧ (s.Waits id 0x31 c → dcsOk c = true → c.b 16 = d → s.rd F.RAS_OUT_STATUS_dsi_mode (4 + d) = 2 → (s.outp (4 + d)).queue = [] → c.b 17 = 1 →
      Does (.rasDcs id) s fun t => (t.outp (4 + d)).reading = some id ∧ t.host.records = s.host.records
        ∧ t.out = .dsi d true (bytesAt c.desc 36 (c.h 18)) :: s.out ∧ s.Only t [])
    ∧ (∀ data, s.Runs id 0x31 c → (s.outp (4 + d)).reading = some id → (s.outp (4 + d)).queue.tail = [] →
      Does (.rasDcsReply (4 + d) data) s fun t => t.Answered c St.OK (ofLe (data.take 4)) 0 ∧ (t.outp (4 + d)).reading = none ∧ s.Only t [])
    ∧ (s.Runs id 0x31 c → (s.outp (4 + d)).reading = some id → (s.outp (4 + d)).queue.tail = [] →
      Does (.rasDcsReplyTimeout (4 + d)) s fun t => t.Answered c St.RAS_NO_REPLY 0 0 ∧ (t.outp (4 + d)).reading = none ∧ s.Only t [])
    ∧ (∀ px, s.Runs id 0x30 c → (s.outp (4 + d)).reading = none → (s.outp (4 + d)).queue = [(id, px)] →
      Does (.rasPushDone (4 + d)) s fun t => t.Answered c St.OK 0 0 ∧ (t.outp (4 + d)).queue = [] ∧ s.Only t [])
    ∧ (s.rd F.RAS_OUT_STATUS_dsi_mode (4 + d) = 1 → s.blockUp (0x74 + d) = true →
      Does (.dsiSetupSent (4 + d)) s fun t => t.rd F.RAS_OUT_STATUS_dsi_mode (4 + d) = 2 ∧ t.mem = s.mem))
    ∧ (∀ (o : Nat) (s : State), isDsi o = true → s.rd F.RAS_OUT_STATUS_dsi_mode o = 1 → s.blockUp (0x70 + o) = true →
    exec (.dsiSetupSent o) s = .next ((if boardOk s.sec.board then
        (boardDsi s.sec.board (o - 4)).foldl (fun (t : State) d => t.emit (.dsi (o - 4) false d)) s
      else (s.wr F.FW_FLAGS_board_cfg_bad 1).raise s.holder Ev.FW_BOARD_CFG_BAD []).dsiMode o 2))

/-- O54 (spec/15_audio.md). Parts of R505 and R510 to R523. A port enabled while OFF is UNLOCKED, one disabled is OFF; 64 good frames at a
ratio in range take an UNLOCKED TDM port to FILL, and a frame of another length is a frame error. An AES3 frame is held by its receiver
when its rate is right. An arm is refused while one is pending, else waits for the next frame start. Recording starts in the AUDIO region
with serial 0, is refused elsewhere, and stops at run 0. A sample instant forms a word for each channel, counts on and locks a master
after 16 instants within one period. A LOCKED master without its source is in HOLDOVER. An output slot switches at the zero-crossing time-
out. The whole next state of a master sample, of an AES3 frame, of a zero-crossing time-out and of the loss of the master's reference is
given. -/
def Obligations.AudioPortsAndRecording : Prop :=
  (∀ (u p : Nat) (s : State), u < 12 → u < s.aud.units.length → unitPort u < s.aud.ports.length → p < 4 → p < s.aud.ports.length →
    (∀ v, u < 4 → v % 2 = 1 → (s.aport u).state = 0 → s.released 31 = true →
      s.takesWork (0x80 + u) = true →
      Does (.audPortEnable u v) s fun t => t.rd F.AUD_TPORT_CTRL_enable u = 1 ∧ t.rd F.AUD_TPORT_STATUS_state u = 1 ∧ (t.aport u).state = 1
        ∧ s.Only t [(F.AUD_TPORT_CTRL_enable, u), (F.AUD_TPORT_STATUS_state, u)])
    ∧ (∀ v, u < 4 → v % 2 = 0 →
      Does (.audPortEnable u v) s fun t => t.rd F.AUD_TPORT_CTRL_enable u = 0 ∧ t.rd F.AUD_TPORT_STATUS_state u = 0 ∧ (t.aport u).state = 0
        ∧ s.Only t [(F.AUD_TPORT_CTRL_enable, u), (F.AUD_TPORT_STATUS_state, u)])
    ∧ (∀ v, 4 ≤ u → Does (.audPortEnable u v) s fun t => t.rd F.AUD_APORT_CTRL_enable (u - 4) = v % 2 ∧ t.mem = s.mem)
    ∧ (∀ v, s.armPending u = true → exec (.audMaskArm u v) s = .next (s.wr F.AUD_FLAGS_cfg_refused 1))
    ∧ (∀ v, s.armPending u = false → (maskBits (if u < 4 then 16 else 2) (s.unitNext u)).length ≤ s.unitSpan u → s.mapBad = false →
      Does (.audMaskArm u v) s fun t => t.armPending u = true ∧ s.Only t [(F.AUD_TPORT_FLAGS_arm_pending, u), (F.AUD_APORT_FLAGS_arm_pending, u - 4)])
    ∧ (∀ bits slots ratio, s.released 31 = true → s.portOn p = true → s.portMaster p = false → (s.aport p).state = 1 → 63 ≤ (s.aport p).good →
      bits = (s.rd F.AUD_TDM_CFG_slots p + 1) * s.slotBits p → ratioOk ratio = true →
      Does (.audTdmFrameReceive p bits slots ratio) s fun t => (t.aport p).state = 2 ∧ t.rd F.AUD_TPORT_STATUS_state p = 2
        ∧ s.Only t [(F.AUD_TPORT_RATIO_ratio, p), (F.AUD_TPORT_STATUS_state, p)])
    ∧ (∀ bits slots ratio, s.released 31 = true → s.portOn p = true → (s.aport p).state ≠ 0 → bits ≠ (s.rd F.AUD_TDM_CFG_slots p + 1) * s.slotBits p →
      Does (.audTdmFrameReceive p bits slots ratio) s fun t => t.rd F.AUD_TPORT_FLAGS_frame_err p = 1 ∧ t.mem = s.mem)
    ∧ (∀ f, 4 ≤ u → s.released 31 = true → s.unitOn u = true →
      Does (.audAesFrameReceive (u - 4) f) s fun t => (t.aunit u).frame.isSome = f.rateOk ∧ t.mem = s.mem)
    ∧ (s.on F.AUD_REC_CTRL_run = false → s.planPending = false → s.pair F.AUD_RING_BASE_LO_value F.AUD_RING_BASE_HI_value % 64 = 0 →
      s.inRegion (s.pair F.AUD_RING_BASE_LO_value F.AUD_RING_BASE_HI_value) (s.rd F.AUD_RING_BLOCKS_value * s.blockBytes) 8 0 = true →
      Does .audRecRunStart s fun t => t.rd F.AUD_REC_CTRL_run = 1 ∧ (s.aud.block = none → t.rd F.AUD_RING_SERIAL_value = 0)
        ∧ s.Only t [(F.AUD_REC_CTRL_run, 0), (F.AUD_RING_SERIAL_value, 0)])
    ∧ (s.on F.AUD_REC_CTRL_run = false → s.planPending = false →
      s.inRegion (s.pair F.AUD_RING_BASE_LO_value F.AUD_RING_BASE_HI_value) (s.rd F.AUD_RING_BLOCKS_value * s.blockBytes) 8 0 = false →
      exec .audRecRunStart s = .next (s.wr F.AUD_FLAGS_cfg_refused 1))
    ∧ Does .audRecRunStop s (fun t => t.rd F.AUD_REC_CTRL_run = 0 ∧ s.Only t [(F.AUD_REC_CTRL_run, 0)])
    ∧ (∀ err boundary, s.masterState ≠ 0 → s.released 31 = true →
      Does (.audioMasterSample err boundary) s fun t => t.aud.count = s.aud.count + 1
        ∧ t.rd F.AUD_MASTER_STATUS_phase_err = ofSigned 16 err % 2 ^ F.AUD_MASTER_STATUS_phase_err.width
        ∧ (∃ w, w.length = s.rd F.AUD_REC_CFG_channels ∧ t.aud.hist = (w :: s.aud.hist).take 1024)
        ∧ (s.masterState = 2 → err.natAbs * s.masterRate ≤ 1000000000 → 15 ≤ s.aud.starts → t.masterState = 3)
        ∧ (s.masterState ≠ 2 → t.masterState = s.masterState))
    ∧ (s.masterState = 3 →
      Does .audMasterReferenceLoss s fun t => t.masterState = 4 ∧ t.rd F.AUD_FLAGS_master_lost = 1 ∧ s.Raised t 1 Ev.AUD_MASTER_LOST []
        ∧ t.mem = s.mem)
    ∧ (∀ k slot l, s.aud.outs[k]? = some l → slot < l.length → (s.aud.outs.getD k []).getD slot none ≠ s.slotWant k slot →
      Does (.audZcTimeout k slot) s fun t => (t.aud.outs.getD k []).getD slot none = s.slotWant k slot ∧ t.rd F.AUD_FLAGS_zc_timeout = 1
        ∧ s.Raised t 1 Ev.AUD_ZC_TIMEOUT (le 1 k ++ le 1 slot) ∧ t.mem = s.mem))
    ∧ (∀ (a k slot : Nat) (f : AesFrame) (err : Int) (boundary : Bool) (s : State),
    (s.masterState ≠ 0 → s.released 31 = true → exec (.audioMasterSample err boundary) s = .next (s.masterSample err boundary))
    ∧ (s.released 31 = true → s.unitOn (4 + a) = true → exec (.audAesFrameReceive a f) s = .next (s.aesTaken a f))
    ∧ ((s.aud.outs.getD k []).getD slot none ≠ s.slotWant k slot →
      exec (.audZcTimeout k slot) s = .next (((s.updAud fun a => { a with
        outs := updAt a.outs k fun l => updAt l slot fun _ => s.slotWant k slot }).flagCount F.AUD_FLAGS_zc_timeout F.AUD_CNT_zc_timeout).raise 1
          Ev.AUD_ZC_TIMEOUT (le 1 k ++ le 1 slot)))
    ∧ exec .audMasterReferenceLoss s = .next (s.updAud fun a => { a with pulses := 0 }).masterLost)

/-- O55 (spec/16_time_and_network.md). Parts of R529, R530, R543 and R544. With a master, the fourth offset of LISTEN or HOLDOVER takes the
time base to TRACK; the 16th Sync in a row within the window to LOCKED with EV_PTP_LOCKED; the 4th in a row beyond four windows from
LOCKED to TRACK. A first announce of the domain gives the master; an announce timeout in TRACK or LOCKED is HOLDOVER with its event. A
restep is refused where R530 bars it and else re-arms the step and listens. An LTC frame at its rate gives the count, its absence holds it
with ltc_lost; a started LTC output frame is shown. The whole next state of an announce timeout, of a restep that nothing bars, and of the
loss of LTC is given. -/
def Obligations.TimeBaseAndTimecode : Prop :=
  (∀ (s : State),
    (∀ offset : Int, (s.ptpState = 1 ∨ s.ptpState = 4) → s.net.master.isSome = true → 3 ≤ s.net.offsets.length →
      Does (.ptpSyncReceive offset) s fun t => t.ptpState = 2 ∧ t.rd F.NET_PTP_OFFSET_value = ofSigned 32 offset % 2 ^ F.NET_PTP_OFFSET_value.width
        ∧ t.mem = s.mem)
    ∧ (∀ offset : Int, s.ptpState = 1 → s.net.master.isSome = true → 3 ≤ s.net.offsets.length → s.net.armed = true →
      2000 < (middle2 (s.net.offsets ++ [offset])).natAbs → s.net.offsets.length = 3 →
      Does (.ptpSyncReceive offset) s fun t => t.rd F.NET_PTP_STATUS_stepped = 1 ∧ t.rd F.NET_FLAGS_step = 1 ∧ t.net.armed = false)
    ∧ (∀ offset : Int, s.ptpState = 2 → offset.natAbs ≤ s.rd F.NET_PTP_SERVO_lock_ns → 15 ≤ s.net.syncs → s.quiet 1 = false →
      Does (.ptpSyncReceive offset) s fun t => t.ptpState = 3 ∧ (∃ r ∈ t.host.records, r.event = true ∧ r.tag = Ev.PTP_LOCKED) ∧ t.mem = s.mem)
    ∧ (∀ offset : Int, s.ptpState = 2 → s.rd F.NET_PTP_SERVO_lock_ns < offset.natAbs →
      Does (.ptpSyncReceive offset) s fun t => t.ptpState = 2 ∧ t.net.syncs = 0 ∧ s.Only t [(F.NET_PTP_OFFSET_value, 0)])
    ∧ (∀ offset : Int, s.ptpState = 3 → 4 * s.rd F.NET_PTP_SERVO_lock_ns < offset.natAbs → 3 ≤ s.net.syncs →
      Does (.ptpSyncReceive offset) s fun t => t.ptpState = 2 ∧ t.mem = s.mem)
    ∧ (∀ a, s.ptpState ≠ 0 → a.domain = s.rd F.NET_PTP_CFG_domain → s.net.master = none →
      Does (.ptpAnnounceReceive a) s fun t => t.net.master = some (dataset a) ∧ t.net.utc = a.utcOffset ∧ t.net.tlv = a.tlv ∧ s.Only t [])
    ∧ (∀ a m, s.ptpState ≠ 0 → a.domain = s.rd F.NET_PTP_CFG_domain → s.net.master = some m → m.getD 5 0 ≠ a.identity → better (dataset a) m = false →
      exec (.ptpAnnounceReceive a) s = .next s)
    ∧ ((s.ptpState = 2 ∨ s.ptpState = 3) → s.quiet 1 = false →
      Does .ptpAnnounceTimeout s fun t => t.ptpState = 4 ∧ t.net.master = none ∧ (∃ r ∈ t.host.records, r.event = true ∧ r.tag = Ev.PTP_HOLDOVER)
        ∧ t.mem = s.mem)
    ∧ (s.anyTakeOpen = true → exec .ptpRestep s = .next (s.wr F.NET_FLAGS_cfg_refused 1))
    ∧ (s.anyTakeOpen = false → (List.range 6).any (fun o => s.outLock o == 1 && s.lockState o != 0) = false → s.rd F.AUD_MASTER_CFG_lock ≠ 1 →
      s.ptpState ≠ 0 →
      Does .ptpRestep s fun t => t.ptpState = 1 ∧ t.net.armed = true ∧ t.rd F.NET_PTP_STATUS_stepped = 0 ∧ t.mem = s.mem)
    ∧ (∀ count, s.rd F.NET_TC_CFG_src = 1 → s.released 31 = true → s.takesWork 0x86 = true →
      Does (.netLtcFrameReceive count true) s fun t => t.net.tcCount = count % tcDay (s.rd F.NET_TC_CFG_rate) ∧ t.net.tcHeld = false ∧ s.Only t [])
    ∧ (s.rd F.NET_TC_CFG_src = 1 → s.net.tcHeld = false →
      Does .netLtcFreewheelExpire s fun t => t.net.tcHeld = true ∧ t.rd F.NET_FLAGS_ltc_lost = 1 ∧ s.Raised t 1 Ev.NET_LTC_LOST [] ∧ t.mem = s.mem)
    ∧ (s.released 31 = true → s.takesWork 0x86 = true →
      Does .ltcOutFrameStart s fun t => t.out = .ltcFrame (tcBcd (tcLabel (s.rd F.NET_TC_CFG_rate) s.timecode)) :: s.out ∧ s.Only t []))
    ∧ (∀ s : State,
    (s.ptpState = 2 ∨ s.ptpState = 3 →
      exec .ptpAnnounceTimeout s = .next (((s.updNet fun x => { x with master := none, tlv := none }).ptpTo 4).raise 1 Ev.PTP_HOLDOVER []))
    ∧ (s.ptpState ≠ 2 → s.ptpState ≠ 3 →
      exec .ptpAnnounceTimeout s = .next (s.updNet fun x => { x with master := none, tlv := none, offsets := [] }))
    ∧ (s.anyTakeOpen = false → (List.range 6).any (fun o => s.outLock o == 1 && s.lockState o != 0) = false → s.rd F.AUD_MASTER_CFG_lock ≠ 1 →
      exec .ptpRestep s = .next (
        let t := (s.updNet fun x => { x with armed := true }).wr F.NET_PTP_STATUS_stepped 0
        if s.ptpState = 0 then t else t.ptpTo 1))
    ∧ (s.rd F.NET_TC_CFG_src = 1 → s.net.tcHeld = false →
      exec .netLtcFreewheelExpire s = .next (((s.updNet fun x => { x with tcHeld := true }).flagCount F.NET_FLAGS_ltc_lost
        F.NET_CNT_ltc_lost).raise 1 Ev.NET_LTC_LOST [])))

/-- O56 (spec/16_time_and_network.md). Parts of R531 to R546. NET_SEND with bad fields ends with NET_BAD_REQ, on a port without link with
NET_LINK_DOWN, and else its frame awaits launch; a launched frame is on the wire; a frame that has left completes its command. A read of
the stamp queue removes the oldest. A received frame goes to the next ring slot, or is dropped with rx_drop on a full ring. A link change
is recorded with its event and fails the frames awaiting launch. A sender's good set takes effect at once when it is not running, else at
its next alignment; an aligned view sender chooses its picture; a running sender's next packet takes the next sequence number. The whole
next state of a frame that has left, of a received frame, of a link change and of a sender's commit is given. -/
def Obligations.NetworkFramesAndSenders : Prop :=
  (∀ (id n port : Nat) (c : Cmd) (s : State), c.mute = false → n < s.net.snds.length →
    (∀ data, s.Waits id 0x38 c → sendOk c = false → Does (.netSend id data) s fun t => t.Answered c St.NET_BAD_REQ 0 0 ∧ s.Only t [])
    ∧ (∀ data, s.Waits id 0x38 c → sendOk c = true → s.on F.NET_PORT_STATUS_link (c.b 16) = false →
      Does (.netSend id data) s fun t => t.Answered c St.NET_LINK_DOWN 0 0 ∧ s.Only t [])
    ∧ (∀ data, s.Waits id 0x38 c → sendOk c = true → s.on F.NET_PORT_STATUS_link (c.b 16) = true → (s.awaiting (c.b 16)).length < 64 →
      bitOf (c.b 17) 1 = false →
      Does (.netSend id data) s fun t => (∃ f, t.net.frames = s.net.frames ++ [f] ∧ f.cmd = id ∧ f.port = c.b 16 ∧ f.started = false
        ∧ f.data = bytesAt data 0 (c.w 20)) ∧ t.host.records = s.host.records ∧ s.Only t [])
    ∧ (∀ f late, s.net.frames.find? (fun f => f.cmd == id && !f.started) = some f → s.net.frames.any (fun g => g.port == f.port && g.started) = false →
      f.launch = true → s.takesWork (0x78 + f.port) = true →
      Does (.netFrameLaunch id late) s fun t => t.out = .netFrame f.port (f.data ++ le 4 (fcs f.data)) :: s.out ∧ s.Only t [])
    ∧ (∀ f late, s.net.frames.find? (fun f => f.cmd == id && !f.started) = some f → s.net.frames.any (fun g => g.port == f.port && g.started) = false →
      ((s.awaiting f.port).find? fun g => !g.launch).map TxFrame.cmd = some id → s.takesWork (0x78 + f.port) = true →
      Does (.netFrameLaunch id late) s fun t => t.out = .netFrame f.port (f.data ++ le 4 (fcs f.data)) :: s.out ∧ s.Only t [])
    ∧ (∀ f, s.net.frames.find? (fun f => f.cmd == id && f.started) = some f → s.Runs id 0x38 c →
      Does (.netFrameTxDone id) s fun t => t.Answered c St.OK (b2n f.late) 0 ∧ t.net.frames = s.net.frames.filter (fun g => g.cmd ≠ id) ∧ t.mem = s.mem)
    ∧ (∀ e rest, s.net.txts = e :: rest →
      Does .netTxtsRead s fun t => t.net.txts = rest ∧ t.out = .readData F.NET_TXTS0_valid.base (2147483648 + 65536 * e.1 + e.2.1 % 65536) :: s.out
        ∧ s.Only t [])
    ∧ (s.net.txts = [] → Does .netTxtsRead s fun t => t.net.txts = [] ∧ t.out = .readData F.NET_TXTS0_valid.base 0 :: s.out ∧ s.Only t [])
    ∧ (∀ data, s.on F.NET_PORT_STATUS_link port = true → isPtp data (s.rd F.NET_PTP_CFG_domain) = false → s.addressed port data = true →
      s.on F.NET_RX_CFG_enable = true → data.length ≤ 1518 →
      (s.rd F.NET_RX_CFG_slots ≤ (s.net.rxCount + 4294967296 - s.rd F.NET_RX_HEAD_value) % 4294967296 →
        Does (.netFrameReceive port data) s fun t => t.net.rxCount = s.net.rxCount ∧ t.rd F.NET_FLAGS_rx_drop = 1
          ∧ s.Raised t 1 Ev.NET_RX_DROP (le 1 port) ∧ t.mem = s.mem)
      ∧ ((s.net.rxCount + 4294967296 - s.rd F.NET_RX_HEAD_value) % 4294967296 < s.rd F.NET_RX_CFG_slots →
        Does (.netFrameReceive port data) s fun t => t.net.rxCount = (s.net.rxCount + 1) % 4294967296 ∧ t.mem = s.mem
          ∧ ∃ head, t.out = .hostWrite (s.pair F.NET_RX_BASE_LO_value F.NET_RX_BASE_HI_value + s.net.rxCount % s.rd F.NET_RX_CFG_slots * 2048)
              (head ++ data) :: s.out))
    ∧ (∀ up, s.on F.NET_PORT_STATUS_link port ≠ up →
      (up = true → s.on F.NET_PORT_CFG_enable port = true ∧ s.takesWork (0x78 + port) = true) →
      Does (.netLinkChange port up) s fun t => t.rd F.NET_PORT_STATUS_link port = b2n up ∧ t.rd F.NET_FLAGS_link_change = 1
        ∧ (up = false → t.net.frames = s.net.frames.filter fun f => f.port ≠ port || f.started) ∧ t.mem = s.mem)
    ∧ (s.on F.NET_SND_COMMIT_pending n = true → exec (.netSndCommit n) s = .next (s.wr F.NET_FLAGS_cfg_refused 1))
    ∧ (s.on F.NET_SND_COMMIT_pending n = false → s.wireOk (s.shadow 0x1301000 0x1301020 n) n = true →
      regOn (s.shadow 0x1301000 0x1301020 n) F.NET_SND_CTRL_enable n = false →
      Does (.netSndCommit n) s fun t =>
        (s.on F.NET_SND_STATUS_running n = false → (t.snd n).inForce = s.shadow 0x1301000 0x1301020 n ∧ t.rd F.NET_SND_STATUS_running n = 0)
        ∧ (s.on F.NET_SND_STATUS_running n = true → (t.snd n).ready = some (s.shadow 0x1301000 0x1301020 n) ∧ t.rd F.NET_SND_COMMIT_pending n = 1)
        ∧ t.mem = s.mem)
    ∧ (∀ k count again passed, (s.snd n).ready = none → s.on F.NET_SND_STATUS_running n = true → (s.snd n).pic = none →
      regOf (s.snd n).inForce F.NET_SND_CTRL_kind n = 0 →
      s.chooseSlot (regOf (s.snd n).inForce F.NET_SND_CTRL_source n) (!regOn (s.snd n).inForce F.NET_SND_CTRL_live n) (s.snd n).last
        = some (k, count, again, passed) →
      Does (.netSndFrameAlignment n) s fun t => (t.snd n).pic = some (s.picOf (regOf (s.snd n).inForce F.NET_SND_CTRL_source n) k again true)
        ∧ (t.snd n).packet = 0 ∧ (t.snd n).cut = false ∧ s.Only t [(F.NET_SND_CNT_wet, n)])
    ∧ (s.on F.NET_SND_STATUS_running n = true → s.released 30 = true → s.takesWork 0x7B = true →
      (regOf (s.snd n).inForce F.NET_SND_CTRL_kind n = 0 → (s.snd n).cut = false →
        (s.snd n).packet < (formatOf (sndFormat (s.snd n).inForce n)).2.1 * sndLinePackets (s.snd n).inForce n →
        Does (.netSenderPacket n) s fun t => (t.snd n).packet = (s.snd n).packet + 1 ∧ (t.snd n).seq = (s.snd n).seq + 1
          ∧ s.Only t [(F.NET_SND_CNT_frames, n)])
      ∧ (∀ u, regOf (s.snd n).inForce F.NET_SND_CTRL_kind n = 1 →
        (s.sc (regOf (s.snd n).inForce F.NET_SND_CTRL_source n)).nals.find? (fun u => u.live.contains n) = some u →
        Does (.netSenderPacket n) s fun t => (t.snd n).seq = (s.snd n).seq + 1 ∧ s.Only t [(F.NET_SND_CNT_frames, n)])
      ∧ (regOf (s.snd n).inForce F.NET_SND_CTRL_kind n = 2 → (s.snd n).stamp + sndSamples (s.snd n).inForce n + 16 ≤ s.aud.count →
        Does (.netSenderPacket n) s fun t => (t.snd n).seq = (s.snd n).seq + 1 ∧ (t.snd n).stamp = (s.snd n).stamp + sndSamples (s.snd n).inForce n
          ∧ s.Only t [(F.NET_SND_STATUS_unlocked, n)])))
    ∧ (∀ (id port n : Nat) (s : State),
    (∀ f, s.net.frames.find? (fun f => f.cmd == id && f.started) = some f → exec (.netFrameTxDone id) s = .next (s.frameSent f))
    ∧ (∀ data, s.rxTakes port data = true → exec (.netFrameReceive port data) s = .next (s.rxFrame port data))
    ∧ (∀ up, s.on F.NET_PORT_STATUS_link port ≠ up → (up = true → s.on F.NET_PORT_CFG_enable port = true ∧ s.takesWork (0x78 + port) = true) →
      exec (.netLinkChange port up) s = .next (s.linkChanged port up))
    ∧ (s.sndRefused n = false → s.on F.NET_SND_STATUS_running n = false →
      exec (.netSndCommit n) s = .next (s.sndApply n (s.shadow 0x1301000 0x1301020 n)))
    ∧ (s.sndRefused n = false → s.on F.NET_SND_STATUS_running n = true →
      exec (.netSndCommit n) s = .next ((s.wr F.NET_SND_COMMIT_pending 1 n).updSnd n fun d => { d with ready := some (s.shadow 0x1301000 0x1301020 n) })))

/-- O57 (spec/17_power_reset_authority.md). Parts of R549 to R563, R592 and R656. A power-on or a rail out of range clears every cause and
sets por; RESET_N and the thermal trip set theirs and keep HBM. When the last source of the device reach goes, step 1 begins; each
sequence step releases the domains no source holds. A latched half reset request and an expired watchdog put every domain of the half in
reset with its keeper, and the release starts the half's sequence. A PWR_ON or RST_DOMAIN write is refused where R549, R550 or R559 say
so, else it stands, and its domains go down or await their gap. The whole next state of the device's, the halves' and the domains' resets
and of a sequence step is given too. -/
def Obligations.PowerAndReset : Prop :=
  (∀ (h v : Nat) (s : State), h < 2 → h < s.sys.halves.length → h + 1 < s.sys.seqs.length → h < s.sys.keepers.length →
    (Does .powerOnReset s fun t => t.sys.por = true ∧ t.rd F.RST_CAUSE_por = 1 ∧ t.rd F.RST_CAUSE_pin = 0 ∧ t.rd F.RST_CAUSE_trip = 0 ∧ t.mem = []
      ∧ t.host.cmds = [])
    ∧ (Does .railOutOfRange s fun t => t.sys.por = true ∧ t.rd F.RST_CAUSE_por = 1 ∧ t.rd F.RST_CAUSE_pin = 0 ∧ t.mem = [] ∧ t.host.cmds = [])
    ∧ (s.sys.por = true → s.sys.pin = false → s.sys.trip = false →
      Does .railsInRange s fun t => t.sys.por = false ∧ t.sys.seqs.getD 0 none = some 1 ∧ t.rd F.PWR_SEQ_STATUS_step = 1 ∧ t.rd F.PWR_SEQ_STATUS_busy = 1
        ∧ s.Only t [(F.PWR_SEQ_STATUS_step, 0), (F.PWR_SEQ_STATUS_busy, 0)])
    ∧ (Does .resetNAssert s fun t => t.sys.pin = true ∧ t.rd F.RST_CAUSE_pin = 1 ∧ t.rd F.RST_CAUSE_por = s.rd F.RST_CAUSE_por ∧ t.host.cmds = []
      ∧ t.mem = s.mem)
    ∧ (s.sys.pin = true → s.sys.por = false → s.sys.trip = false →
      Does .resetNRelease s fun t => t.sys.pin = false ∧ t.sys.seqs.getD 0 none = some 1 ∧ t.rd F.PWR_SEQ_STATUS_step = 1
        ∧ s.Only t [(F.PWR_SEQ_STATUS_step, 0), (F.PWR_SEQ_STATUS_busy, 0)])
    ∧ (∀ cool, Does (.diodeComparatorRead [] cool) s fun t => t.sys.hot = List.replicate 16 0 ∧ s.Only t [])
    ∧ (∀ hot cool d, d < 16 → hot.getD d false = true → s.on F.THM_DIODE_masked d = false → 1 ≤ s.sys.hot.getD d 0 → s.deviceHeld = false →
      Does (.diodeComparatorRead hot cool) s fun t => t.sys.trip = true ∧ t.rd F.RST_CAUSE_trip = 1 ∧ t.mem = s.mem)
    ∧ (s.sys.trip = true → s.sys.cool = true → s.sys.por = false → s.sys.pin = false →
      Does .thermalTripRelease s fun t => t.sys.trip = false ∧ t.sys.seqs.getD 0 none = some 1 ∧ t.rd F.PWR_SEQ_STATUS_step = 1
        ∧ s.Only t [(F.PWR_SEQ_STATUS_step, 0), (F.PWR_SEQ_STATUS_busy, 0)])
    ∧ (∀ n k, s.deviceHeld = false → s.sys.seqs.getD 0 none = some n → nextStep (fun _ => true) n = some k →
      Does (.resetSequenceStep 0) s fun t => t.rd F.PWR_SEQ_STATUS_step = k
        ∧ ∀ d ∈ stepDomains k, s.domainHeld d = false → t.released d = true)
    ∧ (∀ d, d < 32 → s.deviceHeld = false → s.sys.gaps.contains d = true → s.domainHeld d = false →
      Does (.resetSequenceStep (3 + d)) s fun t => t.released d = true ∧ t.sys.gaps.contains d = false)
    ∧ (v % 4 ≠ 0 → s.anyQuiet = true → exec (.halfResetRequest v) s = .next (s.flagCount F.RST_FLAGS_cfg_refused F.RST_CNT_cfg_refused))
    ∧ (v % 4 ≠ 0 → s.anyQuiet = false → (s.keeper s.holder).up = true → (s.keeper s.holder).beaten = true →
      Does (.halfResetRequest v) s fun t => t.sys.reqs = s.sys.reqs ++ ([0, 1].filter fun h => bitOf v h) ∧ s.Only t [])
    ∧ (s.sys.reqs.contains h = true → (s.keeper s.holder).up = true → (s.keeper s.holder).beaten = true → s.quiet s.holder = false →
      s.deviceHeld = false →
      Does (.halfResetAssert h) s fun t => (t.keeper h).up = false ∧ t.sys.reqs.contains h = false ∧ (∀ d ∈ halfDomains h, t.released d = false)
        ∧ (t.sys.halves.getD h []).contains (4 + h) = true ∧ (if h = 0 then t.rd F.RST_CAUSE_hreq_w else t.rd F.RST_CAUSE_hreq_e) = 1)
    ∧ ((s.keeper h).up = true → (s.keeper h).beaten = true → s.deviceHeld = false →
      Does (.keeperWatchdogExpire h) s fun t => (t.keeper h).up = false ∧ (∀ d ∈ halfDomains h, t.released d = false)
        ∧ (if h = 0 then t.rd F.RST_CAUSE_wdt_w else t.rd F.RST_CAUSE_wdt_e) = 1)
    ∧ (s.sys.halves.getD h [] ≠ [] → s.deviceHeld = false →
      Does (.halfResetRelease h) s fun t => t.sys.halves.getD h [] = [] ∧ t.sys.seqs.getD (h + 1) none = some 2 ∧ t.rd F.PWR_SEQ_STATUS_busy = 1
        ∧ t.mem = s.mem)
    ∧ (∀ d, s.capturing = true → busyDomain d = true → d < 32 → bitOf (s.rd F.PWR_ON_on) d = true → bitOf v d = false → fixedDomains.contains d = false →
      exec (.pwrOnWrite v) s = .next (s.flagCount F.RST_FLAGS_cfg_refused F.RST_CNT_cfg_refused))
    ∧ (s.capturing = false →
      Does (.pwrOnWrite v) s fun t => ∀ d, d < 32 → bitOf (t.rd F.PWR_ON_on) d = (fixedDomains.contains d || bitOf v d))
    ∧ (∀ d, s.capturing = false → d < 32 → bitOf (s.rd F.PWR_ON_on) d = true → bitOf v d = false → fixedDomains.contains d = false →
      Does (.pwrOnWrite v) s fun t => t.released d = false ∧ t.rd F.RST_CAUSE_pwr_off = 1 ∧ t.sys.opening.contains d = true)
    ∧ (∀ d, s.sys.opening.contains d = true →
      Does (.pwrSwitchOpen d) s fun t => t.sys.opening.contains d = false ∧ t.sys.openSw.contains d = true ∧ s.Only t [])
    ∧ (∀ d, fixedDomains.contains d = true → bitOf v d = true →
      exec (.rstDomainWrite v) s = .next (s.flagCount F.RST_FLAGS_cfg_refused F.RST_CNT_cfg_refused))
    ∧ (∀ d, s.capturing = false → (List.range 32).any (fun d => bitOf v d && fixedDomains.contains d) = false → d < 32 → bitOf v d = true →
      bitOf (s.rd F.RST_DOMAIN_hold) d = false →
      Does (.rstDomainWrite v) s fun t => t.released d = false ∧ t.rd F.RST_DOMAIN_hold = v % 4294967296 ∧ t.rd F.RST_CAUSE_domain = 1))
    ∧ (∀ (h v : Nat) (s : State),
    (s.capturing = false → exec (.pwrOnWrite v) s = .next (s.pwrOn v))
    ∧ (s.capturing = false → (List.range 32).any (fun d => bitOf v d && fixedDomains.contains d) = false →
      exec (.rstDomainWrite v) s = .next (s.domainHold v))
    ∧ (∀ k, h < 3 → s.deviceHeld = false → (s.sys.seqs.getD h none).bind (nextStep (seqCovers h)) = some k →
      exec (.resetSequenceStep h) s = .next (s.seqStep h k))
    ∧ (s.deviceHeld = false → s.sys.gaps.contains h = true →
      exec (.resetSequenceStep (3 + h)) s = .next (((s.updSys fun x => { x with gaps := x.gaps.filter (· ≠ h) }).domainUp h).resetDone 3))
    ∧ exec .powerOnReset s = .next (((s.updSys fun x => { x with por := true }).deviceReset true).wr F.RST_CAUSE_por 1)
    ∧ exec .railOutOfRange s = .next (((s.updSys fun x => { x with por := true }).deviceReset true).wr F.RST_CAUSE_por 1)
    ∧ exec .resetNAssert s = .next ((((s.updSys fun x => { x with pin := true }).deviceReset false).wr F.RST_CAUSE_pin 1).wr F.RST_FLAGS_pin 1)
    ∧ ((s.keeper h).up = true → (s.keeper h).beaten = true → s.deviceHeld = false →
      exec (.keeperWatchdogExpire h) s = .next (s.halfAssert h (2 + h)))
    ∧ (s.sys.reqs.contains h = true → (s.keeper s.holder).up = true → (s.keeper s.holder).beaten = true → s.quiet s.holder = false →
      s.deviceHeld = false →
      exec (.halfResetAssert h) s = .next ((s.updSys fun x => { x with reqs := x.reqs.filter (· ≠ h) }).halfAssert h (4 + h)))
    ∧ (∀ c l, s.sys.halves.getD h [] = c :: l → s.deviceHeld = false →
      exec (.halfResetRelease h) s = .next (
        let t := (s.updSys fun x => { x with halves := updAt x.halves h fun _ => [] })
        let t1 := (t.updSys fun x => { x with seqs := updAt x.seqs (h + 1) fun _ => some 2, causes := x.causes ++ [1] }).wr
          F.PWR_SEQ_STATUS_busy 1
        (t1.raise h Ev.RST_HALF (le 1 h ++ le 1 (listMin (c :: l)))).causesDue)))

/-- O58 (spec/17_power_reset_authority.md). Parts of R562 to R577. A block reset is refused while another runs or for a block it may not name,
completes at once in a held domain, and else is busy until the block reports idle or times out; its release ends it. A forced block
without clock-good is HELD_FAULT. A keeper sends and hears heartbeats; the neighbour that misses the stallholder fences its keeper and
takes the bell; a keeper that starts is stallholder, neighbour or in quiet; a half that hears 3 heartbeats in a row, each counted once,
settles; the bell is handed over or the request refused. The whole next state of a block's idle report and timeout, of its release, of a
heartbeat, a fence, a keeper's start and of both moves of the bell is given too. -/
def Obligations.BlocksAndTheBell : Prop :=
  (∀ (h b d : Nat) (s : State), h < 2 → h < s.sys.keepers.length → 1 - h < s.sys.keepers.length → b < 256 →
    (blockDomain b = none → exec (.blockResetRequest b) s = .next (s.flagCount F.RST_FLAGS_cfg_refused F.RST_CNT_cfg_refused))
    ∧ (s.sys.block.isSome = true → exec (.blockResetRequest b) s = .next (s.flagCount F.RST_FLAGS_cfg_refused F.RST_CNT_cfg_refused))
    ∧ (blockDomain b = some d → s.sys.block = none → s.released d = true →
      Does (.blockResetRequest b) s fun t => t.sys.block = some (b, false) ∧ t.rd F.RST_BLOCK_STATUS_busy = 1 ∧ t.rd F.RST_CAUSE_block = 1
        ∧ s.Only t [(F.RST_BLOCK_CTRL_block, 0), (F.RST_BLOCK_STATUS_busy, 0), (F.RST_CAUSE_block, 0)])
    ∧ (blockDomain b = some d → s.sys.block = none → s.released d = false →
      exec (.blockResetRequest b) s = .next (s.wr F.RST_BLOCK_CTRL_block b))
    ∧ (s.sys.block = some (b, false) → Does .blockIdleReport s fun t => t.sys.block = some (b, true))
    ∧ (s.sys.block = some (b, false) →
      Does .blockIdleTimeout s fun t => t.sys.block = some (b, true) ∧ t.rd F.RST_CAUSE_idle_timeout = 1 ∧ t.rd F.RST_FLAGS_idle_timeout = 1)
    ∧ (s.sys.block = some (b, true) → Does .blockResetRelease s fun t => t.sys.block = none ∧ t.rd F.RST_BLOCK_STATUS_busy = 0 ∧ t.mem = s.mem)
    ∧ (blockDomain b = some d → s.sys.waiting.contains b = true → s.released d = true → s.sys.good.contains b = false →
      Does (.blockForceRelease b) s fun t => t.sys.fault.contains b = true ∧ t.sys.waiting.contains b = false ∧ t.rd F.RST_BLOCK_STATUS_held_fault = b
        ∧ t.rd F.RST_CAUSE_clk_unstable = 1 ∧ t.rd F.RST_FLAGS_clk_unstable = 1 ∧ t.mem = s.mem)
    ∧ (Does (.clockGoodRise b) s fun t => t.sys.good.contains b = true ∧ t.sys.waiting.contains b = false)
    ∧ (Does (.clockLockLoss b) s fun t => t.sys.good.contains b = false ∧ s.Only t [])
    ∧ ((s.keeper h).up = true →
      Does (.keeperHeartbeatSend h) s fun t => t.rd F.AUTH_HB_COUNT_count h = (s.rd F.AUTH_HB_COUNT_count h + 1) % 4294967296
        ∧ (t.keeper h).beaten = true ∧ t.out = .heartbeat h ((s.rd F.AUTH_HB_COUNT_count h + 1) % 4294967296) :: s.out
        ∧ s.Only t [(F.AUTH_HB_COUNT_count, h)])
    ∧ (∀ path c, (s.keeper h).up = true → s.beatTo h path = some c →
      Does (.keeperHeartbeatReceive h path) s fun t => (t.keeper h).heard = true ∧ t.rd (beatFld h path) = 1
        ∧ ((s.keeper h).run = 0 → (t.keeper h).run = 1)
        ∧ (0 < (s.keeper h).run → c = (s.keeper h).seen → (t.keeper h).run = (s.keeper h).run)
        ∧ (0 < (s.keeper h).run → c = ((s.keeper h).seen + 1) % 2 ^ 32 → (s.keeper h).seen < 2 ^ 32 → (t.keeper h).run = (s.keeper h).run + 1)
        ∧ (s.quiet h = true → s.holder ≠ h → 3 ≤ (t.keeper h).run → t.quiet h = false)
        ∧ (s.quiet h = true → (t.keeper h).run < 3 → t.quiet h = true) ∧ t.mem = s.mem)
    ∧ ((s.keeper h).up = true → s.holder = 1 - h → s.quiet h = false →
      Does (.heartbeatAbsenceTimeout h) s fun t => t.holder = h ∧ (t.keeper (1 - h)).up = false ∧ (t.keeper (1 - h)).held = true
        ∧ (if h = 0 then t.rd F.RST_CAUSE_fence_e else t.rd F.RST_CAUSE_fence_w) = 1 ∧ t.rd F.AUTH_FLAGS_transfer = 1 ∧ t.mem = s.mem)
    ∧ ((s.keeper h).held = true → Does (.fenceResetRelease h) s fun t => (t.keeper h).held = false ∧ t.mem = s.mem)
    ∧ ((s.keeper h).held = false → s.sys.halves.getD h [] = [] → s.released h = true → (s.keeper h).up = false → s.rd F.FW_STATUS_state ≠ 0 →
      Does (.keeperStart h) s fun t => (t.keeper h).up = true ∧ (s.holder = h → t.quiet h = false)
        ∧ (s.holder ≠ h → (s.keeper h).fenced = true → t.quiet h = true) ∧ (s.holder ≠ h → (s.keeper h).fenced = false → t.quiet h = false)
        ∧ t.mem = s.mem)
    ∧ (s.holder ≠ h → (s.keeper h).up = true → Does (.bellConfirm h) s fun t => t.quiet h = true ∧ t.mem = s.mem)
    ∧ (s.anyTakeOpen = true → exec .bellHandover s = .next (s.flagCount F.AUTH_FLAGS_cfg_refused F.AUTH_CNT_cfg_refused))
    ∧ (s.anyTakeOpen = false → [0, 1].any (fun p => s.portState p == 5) = false → s.anyQuiet = false →
      Does .bellHandover s fun t => t.holder = 1 - s.holder ∧ t.rd F.AUTH_FLAGS_transfer = 1 ∧ t.mem = s.mem))
    ∧ (∀ (h b d : Nat) (s : State),
    (s.sys.block = some (b, false) → exec .blockIdleReport s = .next (s.blockReset b))
    ∧ (s.sys.block = some (b, false) → blockDomain b = some d →
      exec .blockIdleTimeout s = .next ((((s.wr F.RST_CAUSE_idle_timeout 1).flagCount F.RST_FLAGS_idle_timeout F.RST_CNT_idle_timeout).raise (halfOf d)
        Ev.RST_IDLE_TIMEOUT (le 1 b)).blockReset b))
    ∧ (s.sys.block = some (b, true) → blockDomain b = some d →
      exec .blockResetRelease s = .next (
        let t := (s.updSys fun x => { x with block := none }).wr F.RST_BLOCK_STATUS_busy 0
        (if t.released d then (t.blockRelease b).blockStatus else t).resetDone 4))
    ∧ (b < 256 → blockDomain b = some d → s.sys.waiting.contains b = true → s.released d = true →
      exec (.blockForceRelease b) s = .next ((s.wr F.RST_BLOCK_CTRL_block b).forceRelease b d))
    ∧ exec (.clockGoodRise b) s = .next (
        let t := s.updSys fun x => { x with good := b :: x.good.filter (· ≠ b) }
        if s.sys.waiting.contains b then t.blockRelease b else t)
    ∧ (∀ path c, (s.keeper h).up = true → s.beatTo h path = some c →
      exec (.keeperHeartbeatReceive h path) s = .next ((s.whenB (path == 0) fun s => s.class0Take h).beatTaken h path c))
    ∧ ((s.keeper h).up = true → s.holder ≠ h → s.quiet h = false →
      exec (.heartbeatAbsenceTimeout h) s = .next ((((s.wr (beatFld h 0) 0).wr (beatFld h 1) 0).updKeeper h fun k => { k with run := 0 }).fencePartner h))
    ∧ ((s.keeper h).held = true → exec (.fenceResetRelease h) s = .next ((s.updKeeper h fun k => { k with held := false }).resetDone 4))
    ∧ (s.keeperMay h = true → exec (.keeperStart h) s = .next (s.keeperUp h))
    ∧ (s.holder ≠ h → (s.keeper h).up = true → exec (.bellConfirm h) s = .next (s.enterQuiet h))
    ∧ (s.anyTakeOpen = false → [0, 1].any (fun p => s.portState p == 5) = false → s.anyQuiet = false →
      exec .bellHandover s = .next ((s.bellTo (1 - s.holder)).causesDue)))

/-- O59 (spec/18_thermal_ageing_margins.md). Parts of R586 to R607, R660 and R662. A sample whose readings all agree publishes that
temperature; below 95 °C NORMAL stays, from 95 °C it is WARN, at 110 °C the part trips. At 100 °C the grace time's end is ENFORCE at shed
level 1 and each shed step raises the level; below 95 °C the release ends the shedding. A shed command is carried out by its half. The
powered hours count; a half's sample is kept, tried again or skipped; a mode table write stands; a plan run chooses a voltage from 620 to
820 mV in steps of 5. A reported voltage is in force; a lower one waits for no take; a boost ends; an admission check that waited is
settled. A frame not readable at its deadline is marked and reported. The whole next state of a sample, of the three thermal timers, of a
shed command, of a plan run and a mode write, of both ends of a voltage request and of a missed deadline is given too. -/
def Obligations.HeatAndAgeing : Prop :=
  (∀ (h : Nat) (s : State), h < 2 →
    (∀ v : Int, -2000 ≤ v → v < 950 → s.rd F.THM_STATUS_stage = 0 → (s.keeper s.holder).up = true →
      Does (.thermalSample (List.replicate 64 v) (List.replicate 16 v) none [] [] [] false) s fun t =>
        t.rd F.THM_STATUS_tj = ofSigned 16 v ∧ t.rd F.THM_STATUS_stage = 0 ∧ t.rd F.THM_STATUS_fast = b2n (decide (890 ≤ v)) ∧ t.mem = s.mem)
    ∧ (∀ v : Int, 950 ≤ v → v < 1000 → s.rd F.THM_STATUS_stage = 0 → (s.keeper s.holder).up = true →
      Does (.thermalSample (List.replicate 64 v) (List.replicate 16 v) none [] [] [] false) s fun t =>
        t.rd F.THM_STATUS_tj = ofSigned 16 v ∧ t.rd F.THM_STATUS_stage = 1 ∧ t.rd F.THM_FLAGS_warn = 1)
    ∧ (∀ v : Int, 1100 ≤ v → v < 2000 → (s.keeper s.holder).up = true → s.deviceHeld = false →
      Does (.thermalSample (List.replicate 64 v) (List.replicate 16 v) none [] [] [] false) s fun t => t.sys.trip = true ∧ t.rd F.RST_CAUSE_trip = 1)
    ∧ (s.rd F.THM_STATUS_stage = 2 → 1000 ≤ s.tj →
      Does .thermalGraceExpire s fun t => t.rd F.THM_STATUS_stage = 3 ∧ t.rd F.THM_STATUS_level = 1 ∧ t.mem = s.mem)
    ∧ (s.rd F.THM_STATUS_stage = 2 → s.tj < 1000 → exec .thermalGraceExpire s = .next s)
    ∧ (s.rd F.THM_STATUS_stage = 3 → 1000 ≤ s.tj → s.rd F.THM_STATUS_level < 6 →
      Does .thermalShedStepExpire s fun t => t.rd F.THM_STATUS_level = s.rd F.THM_STATUS_level + 1 ∧ t.rd F.THM_STATUS_stage = 3)
    ∧ (s.rd F.THM_STATUS_stage = 3 → s.tj < 950 →
      Does .thermalReleaseExpire s fun t => t.rd F.THM_STATUS_stage = 0 ∧ t.rd F.THM_STATUS_level = 0 ∧ t.mem = s.mem)
    ∧ (∀ n, h < s.sys.shed.length → s.class0To h = some (.shed h n) →
      Does (.shedCommandReceive h) s fun t => t.sys.shed.getD h 0 = n ∧ t.sys.class0 = s.sys.class0.eraseP (fun m => m.half == h) ∧ t.mem = s.mem)
    ∧ (Does .agePoweredHour s fun t => t.rd F.AGE_HOURS_hours = min 4294967295 (s.rd F.AGE_HOURS_hours + 1) ∧ s.Only t [(F.AGE_HOURS_hours, 0)])
    ∧ (s.sys.daily = [none, none] → (s.keeper h).up = true → 400 ≤ s.tj → s.tj ≤ 900 →
      8 ≤ (if h = 0 then s.rd F.GLB_PACE_STATUS_counted_w else s.rd F.GLB_PACE_STATUS_counted_e) →
      Does (.ageSample h true) s fun t => t.sys.daily.getD h none = some (s.drift h) ∧ s.Only t [])
    ∧ (h < s.sys.tries.length → (s.keeper h).up = true → s.sys.tries.getD h 0 < 23 →
      Does (.ageSample h false) s fun t => t.sys.tries.getD h 0 = s.sys.tries.getD h 0 + 1 ∧ s.Only t [])
    ∧ ((s.keeper h).up = true → 23 ≤ s.sys.tries.getD h 0 →
      Does (.ageSample h false) s fun t => t.sys.daily = [none, none] ∧ t.rd F.AGE_FLAGS_sample_skipped = 1
        ∧ s.Raised t s.holder Ev.AGE_SAMPLE_SKIPPED [] ∧ t.mem = s.mem)
    ∧ ((s.keeper s.holder).up = true →
      Does .agePlanRun s fun t => 620 ≤ t.rd F.AGE_PLAN_plan_mv ∧ t.rd F.AGE_PLAN_plan_mv ≤ 820 ∧ t.rd F.AGE_PLAN_plan_mv % 5 = 0
        ∧ t.sys.planned = true ∧ t.mem = s.mem)
    ∧ (∀ m v, m < 16 → Does (.ageModeWrite m v) s fun t => t.modeDefined m = bitOf v 30 ∧ t.modeReq m = v % 65536 ∧ t.mem = s.mem)
    ∧ (s.sys.lower = true → s.anyTakeOpen = false → s.voltWanted < s.voltAsked →
      Does .ageVoltageLower s fun t => t.sys.asked = some s.voltWanted ∧ t.sys.lower = false ∧ t.out = .avs s.voltWanted :: s.out ∧ s.Only t [])
    ∧ (s.on F.AGE_VNOW_boost = true → s.openEasels = [] →
      Does .ageBoostEnd s fun t => t.rd F.AGE_VNOW_boost = 0 ∧ t.sys.boostMv = 0 ∧ s.Only t [(F.AGE_VNOW_boost, 0)])
    ∧ (∀ mv, s.sys.asked = some mv →
      Does (.avsVoltageReport mv) s fun t => t.rd F.AGE_VNOW_mv = mv % 2 ^ F.AGE_VNOW_mv.width ∧ t.sys.asked = none ∧ t.mem = s.mem)
    ∧ (∀ e, s.sys.avsWait.contains e = true → s.planPending = false → s.rd F.EASEL_STATUS_state e = 3 →
      Does (.avsReportTimeout e) s fun t => t.sys.avsWait.contains e = false ∧ (t.rd F.EASEL_STATUS_state e = 0 ∨ t.rd F.EASEL_STATUS_state e = 1)
        ∧ t.mem = s.mem)
    ∧ (∀ e serial f, s.frame e serial = some f → f.st ≠ .scraped → f.deadline = false → s.onTime e f = false →
      Does (.frameDeadline e serial) s fun t => t.rd F.AGE_FLAGS_deadline = 1 ∧ t.mem = s.mem
        ∧ ∃ g, t.frame e serial = some g ∧ g.deadline = true ∧ g.fault = setFault f.fault 6 ∧ g.st = (if f.st = .dry then .damaged else f.st)))
    ∧ (∀ (h m v : Nat) (s : State),
    (∀ nodes diodes past hbms halves recent late, (s.keeper s.holder).up = true →
      exec (.thermalSample nodes diodes past hbms halves recent late) s = .next (s.thermalRead nodes diodes past hbms halves recent late))
    ∧ (s.rd F.THM_STATUS_stage = 2 → 1000 ≤ s.tj → exec .thermalGraceExpire s = .next s.enforce)
    ∧ (s.rd F.THM_STATUS_stage = 3 → 1000 ≤ s.tj → s.rd F.THM_STATUS_level < 6 →
      exec .thermalShedStepExpire s = .next ((s.shedLevel (s.rd F.THM_STATUS_level + 1)).raise s.holder Ev.THM_ENFORCE
        (le 1 (s.rd F.THM_STATUS_level + 1))))
    ∧ (s.rd F.THM_STATUS_stage = 3 → s.tj < 950 →
      exec .thermalReleaseExpire s = .next (((s.wr F.THM_STATUS_stage 0).shedLevel 0).raise s.holder Ev.THM_CLEAR []))
    ∧ (∀ h' n, s.class0To h = some (.shed h' n) → exec (.shedCommandReceive h) s = .next ((s.class0Take h).shedTo h n))
    ∧ ((s.keeper s.holder).up = true → exec .agePlanRun s = .next s.planRun)
    ∧ exec (.ageModeWrite m v) s = .next (
        let t := s.setMode m (bitOf v 30) (v % 65536)
        ((if bitOf v 30 && !s.modeDefined m then t.setOffered m false else t).modeRecord m).planRun)
    ∧ (s.sys.asked = some v →
      exec (.avsVoltageReport v) s = .next (
        let t := (s.wr F.AGE_VNOW_mv v).updSys fun x => { x with asked := none, avsWait := [] }
        let t1 := t.wr F.AGE_PLAN_plan_code (t.planCode v)
        t1.each s.sys.avsWait fun s e =>
          if s.planPending then s.waitPlan (.easelAdmissionCheck e) else s.admission e (s.rd F.AGE_PLAN_plan_code)))
    ∧ (∀ e, s.sys.avsWait.contains e = true → s.planPending = false →
      exec (.avsReportTimeout e) s = .next (
        let t := s.updSys fun x => { x with avsWait := x.avsWait.filter (· ≠ e) }
        t.admission e (max (s.rd F.AGE_PLAN_plan_code) (s.planCode s.voltAsked))))
    ∧ (∀ e, s.sys.avsWait.contains e = true → s.planPending = true → exec (.avsReportTimeout e) s = .next (s.waitPlan (.avsReportTimeout e)))
    ∧ (∀ e serial f, s.frame e serial = some f → f.st ≠ .scraped → f.deadline = false → s.onTime e f = false →
      exec (.frameDeadline e serial) s = .next (s.deadlineMissed e f)))

/-- O60 (spec/19_sessions_and_firmware.md). Parts of R612 to R637 and R671. A challenge the rules allow gives a nonce and result 1, a locked
role result 4; the right answer opens the session, a wrong one counts a failure, a late one gives 6; a close leaves the ring waiting. A
key is set from its wrapped form, erased with spec word 1, or listed. An image that passes its check is staged; a staged image is
activated once drained, or times out; a confirm ends the trial. A ledger read answers its records; the board area is replaced; the boot
runs a slot that passes its check or is in recovery. The first ledger record that no half in quiet holds is written under the next number;
a reclaim drops the oldest sector and keeps the rest. The whole next state of a session's three writes, of a key erase, a drain done, a
confirm, a boot, and of the ledger's write and reclaim is given too. -/
def Obligations.SessionsAndFirmware : Prop :=
  (∀ (id : Nat) (c : Cmd) (s : State), c.mute = false →
    (∀ v elapsed, b2n (bitOf v 8) + b2n (bitOf v 9) + b2n (bitOf v 10) ≤ 1 → s.on F.RING_SQ_CFG_enable (v % 16) = true →
      s.rd F.RING_SQ_STATUS_role (v % 16) = 0 → bitsOf v 5 4 ≠ 0 → (s.sessionKey (bitsOf v 5 4)).isSome = true →
      (lockSeconds (s.sec.fails.getD (bitsOf v 5 4 - 1) 0) ≤ elapsed → s.on F.SES_STATUS_rng_fail = false →
        Does (.sesChallenge v elapsed) s fun t => t.rd F.SES_RESULT_result = 1 ∧ t.sec.nonce = some (s.random 32, v % 16, bitsOf v 5 4) ∧ t.mem = s.mem)
      ∧ (elapsed < lockSeconds (s.sec.fails.getD (bitsOf v 5 4 - 1) 0) →
        Does (.sesChallenge v elapsed) s fun t => t.rd F.SES_RESULT_result = 4 ∧ t.sec.nonce = none ∧ t.mem = s.mem))
    ∧ (∀ v n r k key, b2n (bitOf v 8) + b2n (bitOf v 9) + b2n (bitOf v 10) ≤ 1 → s.sec.nonce = some (n, r, k) → v % 16 = r → bitsOf v 5 4 = k →
      s.on F.RING_SQ_CFG_enable r = true → s.rd F.RING_SQ_STATUS_role r = 0 → s.sessionKey k = some key →
      (Does (.sesAnswer v true) s fun t => t.rd F.SES_RESULT_result = 6 ∧ t.sec.nonce = none ∧ t.mem = s.mem)
      ∧ (hmac key (n ++ le 1 r ++ le 1 k) = s.macBytes →
        Does (.sesAnswer v false) s fun t => t.rd F.SES_RESULT_result = 2 ∧ t.rd F.RING_SQ_STATUS_role r = k ∧ t.sec.nonce = none
          ∧ (s.rd F.RING_SQ_STATUS_state r = 1 → t.rd F.RING_SQ_STATUS_state r = 2) ∧ t.mem = s.mem)
      ∧ (hmac key (n ++ le 1 r ++ le 1 k) ≠ s.macBytes → 0 < k → k - 1 < s.sec.fails.length →
        Does (.sesAnswer v false) s fun t => t.rd F.SES_RESULT_result = 3 ∧ t.rd F.RING_SQ_STATUS_role r = 0 ∧ t.rd F.SES_FLAGS_open_fail = 1
          ∧ t.sec.fails.getD (k - 1) 0 = min 255 (s.sec.fails.getD (k - 1) 0 + 1) ∧ t.mem = s.mem))
    ∧ (∀ v, b2n (bitOf v 8) + b2n (bitOf v 9) + b2n (bitOf v 10) ≤ 1 → s.rd F.RING_SQ_STATUS_state (v % 16) = 2 →
      Does (.sesClose v) s fun t => t.rd F.RING_SQ_STATUS_role (v % 16) = 0 ∧ t.rd F.RING_SQ_STATUS_state (v % 16) = 1 ∧ t.mem = s.mem)
    ∧ (s.on F.SES_STATUS_rng_fail = false →
      Does .rngHealthFail s fun t => t.rd F.SES_STATUS_rng_fail = 1 ∧ s.Raised t 0 Ev.SES_RNG_FAIL [] ∧ t.mem = s.mem)
    ∧ (s.anyQuiet = false →
      (s.Waits id 0x40 c → keyFields c [1, 2, 3] = false → Does (.keySet id) s fun t => t.Answered c St.SES_BAD_REQ 0 0 ∧ s.Only t [])
      ∧ (s.Waits id 0x40 c → keyFields c [1, 2, 3] = true → keyUnwrap ((s.sessionKey 2).getD zeroKey) (bytesAt c.desc 24 40) = none →
        Does (.keySet id) s fun t => t.Answered c St.KEY_BAD 0 0 ∧ s.Only t [])
      ∧ (∀ key, s.Waits id 0x40 c → keyFields c [1, 2, 3] = true → keyUnwrap ((s.sessionKey 2).getD zeroKey) (bytesAt c.desc 24 40) = some key →
        (c.b 16 = 1 → Does (.keySet id) s fun t => t.Answered c St.OK 0 0 ∧ t.roleKey (c.b 17) = some key ∧ t.mem = s.mem)
        ∧ (c.b 16 = 2 → (s.prodKeys.filter fun k => k.1 ≠ c.w 20).length < 16 →
          Does (.keySet id) s fun t => t.Answered c St.OK 0 0 ∧ (c.w 20, key) ∈ t.prodKeys ∧ t.mem = s.mem))
      ∧ (s.Waits id 0x41 c → keyFields c [1, 3] = true → zeroBytes c.desc 24 64 = true → c.b 16 = 1 →
        Does (.keyErase id) s fun t => t.Answered c St.OK (b2n (s.roleKey (c.b 17)).isSome) 0 ∧ t.roleKey (c.b 17) = none ∧ t.mem = s.mem)
      ∧ (s.Waits id 0x41 c → keyFields c [1, 3] = true → zeroBytes c.desc 24 64 = true → c.b 16 = 2 →
        Does (.keyErase id) s fun t => t.Answered c St.OK (b2n (s.prodKeys.any fun k => k.1 == c.w 20)) 0
          ∧ t.prodKeys = s.prodKeys.filter (fun k => k.1 ≠ c.w 20) ∧ t.mem = s.mem))
    ∧ (s.Waits id 0x42 c → c.d 24 % 64 = 0 → zeroBytes c.desc 16 24 = true → zeroBytes c.desc 32 64 = true →
      Does (.keyList id) s fun t => t.Answered c St.OK s.prodKeys.length 0 ∧ s.Only t []
        ∧ t.out = .hostWrite (c.d 24) (padTo 128 (s.prodKeys.flatMap fun k => le 4 k.1 ++ le 4 1)) :: s.out)
    ∧ (s.anyQuiet = false →
      (s.outstanding.any fun o => decide (o.id < id) && o.stage != .ended && (o.opcode == 0x44 || o.opcode == 0x45 || o.opcode == 0x46 || o.opcode == 0x49))
        = false →
      (∀ data nor, s.Waits id 0x44 c → zeroBytes c.desc 16 24 = true → c.d 24 % 64 = 0 → c.w 32 % 64 = 0 → 8256 ≤ c.w 32 → c.w 32 ≤ 25165824 →
        zeroBytes c.desc 36 64 = true → s.on F.FW_STATUS_trial = false → 8192 + imageBody (data.take (c.w 32)) = (data.take (c.w 32)).length →
        Does (.fwStage id data nor) s fun t => t.mem = s.mem ∧ .hostRead (c.d 24) (c.w 32) ∈ t.out ∧
          (if s.imageStatus (data.take (c.w 32)) ≠ St.OK then t.Answered c (s.imageStatus (data.take (c.w 32))) 0 0 ∧ s.Only t []
           else if s.imageStatus nor = St.OK then t.Answered c St.OK (fieldAt nor 20 4) 0 ∧ t.rd F.FW_STATUS_staged = 1
           else t.Answered c (s.imageStatus nor) 0 0 ∧ t.rd F.FW_STATUS_staged = 0))
      ∧ (s.Waits id 0x45 c → c.h 16 ≤ 60000 → zeroBytes c.desc 18 64 = true → s.on F.FW_STATUS_staged = true →
        exec (.fwActivate id) s = .next (s.updCmd id fun c => { c with stage := .running }))
      ∧ (s.Waits id 0x45 c → c.h 16 ≤ 60000 → zeroBytes c.desc 18 64 = true → s.on F.FW_STATUS_staged = false →
        Does (.fwActivate id) s fun t => t.Answered c St.FW_NOT_STAGED 0 0 ∧ s.Only t [])
      ∧ (s.Waits id 0x46 c → zeroBytes c.desc 16 64 = true → s.rd F.FW_STATUS_trial = 1 →
        Does (.fwConfirm id) s fun t => t.Answered c St.OK 1 0 ∧ t.rd F.FW_STATUS_trial = 0
          ∧ t.sec.fuseSv = max s.sec.fuseSv (fieldAt (s.slot (s.rd F.FW_STATUS_slot)) 12 1)
          ∧ t.sec.boots = List.replicate 2 (BootRec.bytes { slot := s.rd F.FW_STATUS_slot, trial := false, boots := 0 } s.bootSeq) ∧ t.mem = s.mem)
      ∧ (∀ data, s.Waits id 0x49 c → zeroBytes c.desc 16 24 = true → 64 ≤ c.w 32 → c.w 32 ≤ 4190208 → zeroBytes c.desc 36 64 = true →
        Does (.boardCfgWrite id data) s fun t => t.Answered c St.OK 0 0 ∧ t.sec.board = padTo (c.w 32) (data.take (c.w 32))
          ∧ t.out = .hostRead (c.d 24) (c.w 32) :: s.out ∧ s.Only t []))
    ∧ (s.activation = some c → s.cmd c.id = some c → s.drained c.id = true →
      Does .fwDrainDone s fun t => t.Answered c St.OK (fieldAt (s.slot (1 - s.rd F.FW_STATUS_slot)) 20 4) 0
        ∧ t.rd F.FW_STATUS_slot = 1 - s.rd F.FW_STATUS_slot ∧ t.rd F.FW_STATUS_trial = 1 ∧ t.rd F.FW_STATUS_staged = 0
        ∧ t.sec.boots = List.replicate 2 (BootRec.bytes { slot := 1 - s.rd F.FW_STATUS_slot, trial := true, boots := 0 } s.bootSeq) ∧ t.mem = s.mem)
    ∧ (s.activation = some c → s.cmd c.id = some c → c.past = false →
      Does .fwDrainTimeout s fun t => t.Answered c St.DRAIN_TIMEOUT 0 0 ∧ s.Only t [])
    ∧ (s.Waits id 0x48 c → c.b 16 ≤ 11 → zeroBytes c.desc 17 20 = true → c.w 40 % 256 = 0 → zeroBytes c.desc 44 64 = true →
      Does (.ledgerRead id) s fun t => t.Answered c St.OK (min (min (c.w 28) (c.w 40 / 256))
        (s.sec.ledger.filter fun r => (c.b 16 == 0 || r.kind == c.b 16) && decide (c.d 20 ≤ r.seq)).length) 0 ∧ s.Only t [])
    ∧ (∀ single bad, s.rd F.FW_STATUS_state = 0 → s.released 0 = true → s.released 1 = true → s.bootRecord = none →
      Does (.firmwareBoot single bad) s fun t => t.mem = s.mem ∧
        (if s.imageStatus (s.slot 0) = St.OK then t.rd F.FW_STATUS_state = 1 ∧ t.rd F.FW_STATUS_slot = 0
         else if s.imageStatus (s.slot 1) = St.OK then t.rd F.FW_STATUS_state = 1 ∧ t.rd F.FW_STATUS_slot = 1 ∧ t.rd F.FW_FLAGS_fallback = 1
         else t.rd F.FW_STATUS_state = 2))
    ∧ (∀ r fail0 fail1, s.ledgerWait.find? (fun r => !s.norHeld r) = some r → s.norOpen = true →
      Does (.deviceLedgerWrite fail0 fail1) s fun t => t.ledgerWait = s.ledgerWait.erase r ∧ t.sec.ledger = s.sec.ledger ++ [{ r with seq := s.sec.seq }]
        ∧ t.sec.seq = s.sec.seq + 1 ∧ t.mem = s.mem)
    ∧ (∀ seqs, s.norOpen = true → (s.sec.areas.all fun l => decide (l.length ≤ 60)) = false →
      seqs = ((s.sec.areas.getD 0 []).headD []).filterMap (fun x => x) →
      Does .deviceLedgerReclaim s fun t => (∀ r ∈ t.sec.ledger, r.seq ∉ seqs) ∧ (∀ r ∈ s.sec.ledger, r.seq ∉ seqs → r ∈ t.sec.ledger) ∧ t.mem = s.mem))
    ∧ (∀ (id v : Nat) (c : Cmd) (s : State),
    (∀ elapsed, b2n (bitOf v 8) + b2n (bitOf v 9) + b2n (bitOf v 10) ≤ 1 →
      exec (.sesChallenge v elapsed) s = .next (((s.wr F.SES_REQ_ring (v % 16)).wr F.SES_REQ_role (bitsOf v 5 4)).challenge elapsed (v % 16) (bitsOf v 5 4)))
    ∧ (∀ late, b2n (bitOf v 8) + b2n (bitOf v 9) + b2n (bitOf v 10) ≤ 1 →
      exec (.sesAnswer v late) s = .next (((s.wr F.SES_REQ_ring (v % 16)).wr F.SES_REQ_role (bitsOf v 5 4)).answer late (v % 16) (bitsOf v 5 4)))
    ∧ (b2n (bitOf v 8) + b2n (bitOf v 9) + b2n (bitOf v 10) ≤ 1 →
      exec (.sesClose v) s = .next (((s.wr F.SES_REQ_ring (v % 16)).wr F.SES_REQ_role (bitsOf v 5 4)).closeSession (v % 16)))
    ∧ (s.on F.SES_STATUS_rng_fail = false → exec .rngHealthFail s = .next ((s.wr F.SES_STATUS_rng_fail 1).raise 0 Ev.SES_RNG_FAIL []))
    ∧ (s.Waits id 0x41 c → s.anyQuiet = false →
      exec (.keyErase id) s = .next ((s.updCmd id fun c => { c with stage := .running }).eraseKey c))
    ∧ (s.Waits id 0x46 c → zeroBytes c.desc 16 64 = true → s.anyQuiet = false →
      (s.outstanding.any fun o => decide (o.id < id) && o.stage != .ended && (o.opcode == 0x44 || o.opcode == 0x45 || o.opcode == 0x46 || o.opcode == 0x49))
        = false → s.rd F.FW_STATUS_trial = 1 →
      exec (.fwConfirm id) s = .next ((s.updCmd id fun c => { c with stage := .running }).trialConfirmed.complete id St.OK 1))
    ∧ (s.activation = some c → s.drained c.id = true → exec .fwDrainDone s = .next (s.activated c))
    ∧ (∀ single bad, s.rd F.FW_STATUS_state = 0 → s.released (b2n Config.leadSel) = true →
      exec (.firmwareBoot single bad) s = .next (s.fwBoot single bad))
    ∧ (∀ r fail0 fail1, s.ledgerWait.find? (fun r => !s.norHeld r) = some r → s.norOpen = true →
      exec (.deviceLedgerWrite fail0 fail1) s = .next (({ s with ledgerWait := s.ledgerWait.erase r }).ledgerPutNor r [fail0, fail1]))
    ∧ (s.norOpen = true → (s.sec.areas.all fun l => decide (l.length ≤ 60)) = false → exec .deviceLedgerReclaim s = .next s.ledgerReclaim))
end

