-- ==== Sys2Proof/Laws/Memory.lean ====
section
/-! SUPPORT. The HBM memory: what a byte reads after a write, and that every memory operation keeps the canonical form. -/
namespace Sys2Proof.Machine

/-- The bound below which a canonical memory lists nothing may fall. -/
theorem Memory.wfFrom_some_of_lt {b : Nat} {m : Memory} {a : Nat} (h : Memory.wfFrom (some b) m = true) (hab : a ≤ b) :
    Memory.wfFrom (some a) m = true := by
  cases m with
  | nil => rfl
  | cons c m => simp only [Memory.wfFrom, Bool.and_eq_true, decide_eq_true_eq] at h ⊢; exact ⟨⟨by omega, h.1.2⟩, h.2⟩

/-- A memory canonical above a bound is canonical. -/
theorem Memory.wfFrom_none {b : Option Nat} {m : Memory} (h : Memory.wfFrom b m = true) : Memory.wfFrom none m = true := by
  cases m with
  | nil => rfl
  | cons c m =>
    cases b with
    | none => exact h
    | some b => simp only [Memory.wfFrom, Bool.and_eq_true] at h ⊢; exact ⟨h.1.2, h.2⟩

/-- A canonical memory with a listed byte put in front above its bound. -/
theorem Memory.consCell_wfFrom {b : Option Nat} {a : Nat} {v : Byte} {m : Memory} (hm : Memory.wfFrom (some a) m = true)
    (hb : ∀ x, b = some x → x < a) : Memory.wfFrom b (Memory.consCell a v m) = true := by
  unfold Memory.consCell
  split
  · cases b with
    | none => exact Memory.wfFrom_none hm
    | some x => exact Memory.wfFrom_some_of_lt hm (Nat.le_of_lt (hb x rfl))
  · cases b with
    | none => simp [Memory.wfFrom, *]
    | some x => simp [Memory.wfFrom, hb x rfl, *]

/-- One byte stored keeps the canonical form above a bound below its address. -/
theorem Memory.write_wfFrom (m : Memory) : ∀ (b : Option Nat) (a : Nat) (v : Byte), Memory.wfFrom b m = true →
    (∀ x, b = some x → x < a) → Memory.wfFrom b (m.write a v) = true := by
  induction m with
  | nil => intro b a v _ hb; exact Memory.consCell_wfFrom rfl hb
  | cons c m ih =>
    intro b a v h hb
    have hc : Memory.wfFrom (some c.1) m = true ∧ c.2 != Memory.blank ∧ ∀ x, b = some x → x < c.1 := by
      cases b with
      | none => simp only [Memory.wfFrom, Bool.and_eq_true] at h; exact ⟨h.2, h.1, by simp⟩
      | some y => simp only [Memory.wfFrom, Bool.and_eq_true, decide_eq_true_eq] at h; exact ⟨h.2, h.1.2, by simpa using h.1.1⟩
    unfold Memory.write
    split
    · refine Memory.consCell_wfFrom ?_ hb
      simp only [Memory.wfFrom, Bool.and_eq_true, decide_eq_true_eq]
      exact ⟨⟨by omega, hc.2.1⟩, hc.1⟩
    · split
      · subst_vars; exact Memory.consCell_wfFrom hc.1 hc.2.2
      · have hr := ih (some c.1) a v hc.1 (by intro x hx; cases hx; omega)
        cases b with
        | none => simp only [Memory.wfFrom, Bool.and_eq_true]; exact ⟨hc.2.1, hr⟩
        | some y =>
          simp only [Memory.wfFrom, Bool.and_eq_true, decide_eq_true_eq]; exact ⟨⟨hc.2.2 y rfl, hc.2.1⟩, hr⟩

/-- One byte stored keeps the canonical form. -/
theorem Memory.write_wf {m : Memory} (h : m.wf = true) (a : Nat) (v : Byte) : (m.write a v).wf = true :=
  Memory.write_wfFrom m none a v h (by simp)

/-- Bytes stored keep the canonical form. -/
theorem Memory.writeList_wf {m : Memory} (h : m.wf = true) (a : Nat) (bs : List Byte) : (m.writeList a bs).wf = true := by
  induction bs generalizing m a with
  | nil => exact h
  | cons b bs ih => exact ih (Memory.write_wf h a b) (a + 1)

/-- Below its bound a canonical memory reads blank. -/
theorem Memory.read_of_le {b x : Nat} {m : Memory} (h : Memory.wfFrom (some b) m = true) (hx : x ≤ b) : m.read x = Memory.blank := by
  cases m with
  | nil => rfl
  | cons c m =>
    simp only [Memory.wfFrom, Bool.and_eq_true, decide_eq_true_eq] at h
    unfold Memory.read
    rw [if_neg (by omega), if_pos (by omega)]

/-- A byte put in front of a memory that lists nothing up to its address. -/
theorem Memory.consCell_read {a x : Nat} {v : Byte} {m : Memory} (h : Memory.wfFrom (some a) m = true) :
    (Memory.consCell a v m).read x = if x = a then v else m.read x := by
  unfold Memory.consCell
  split
  · split
    · subst_vars; exact Memory.read_of_le h (Nat.le_refl _)
    · rfl
  · rw [Memory.read]
    by_cases hx : a = x
    · simp [hx]
    · rw [if_neg hx, if_neg (Ne.symm hx)]
      split
      · exact (Memory.read_of_le h (by omega)).symm
      · rfl

/-- One byte stored in a canonical memory is read back there, and every other address reads as before. -/
theorem Memory.read_write {m : Memory} (h : m.wf = true) (a x : Nat) (v : Byte) :
    (m.write a v).read x = if x = a then v else m.read x := by
  suffices H : ∀ (m : Memory) (b : Option Nat), Memory.wfFrom b m = true → (m.write a v).read x = if x = a then v else m.read x from
    H m none h
  intro m
  induction m with
  | nil => intro b _; exact Memory.consCell_read rfl
  | cons c m ih =>
    intro b h
    have hc : Memory.wfFrom (some c.1) m = true ∧ c.2 != Memory.blank := by
      cases b with
      | none => simp only [Memory.wfFrom, Bool.and_eq_true] at h; exact ⟨h.2, h.1⟩
      | some y => simp only [Memory.wfFrom, Bool.and_eq_true] at h; exact ⟨h.2, h.1.2⟩
    unfold Memory.write
    split
    · refine Memory.consCell_read ?_
      simp only [Memory.wfFrom, Bool.and_eq_true, decide_eq_true_eq]
      exact ⟨⟨by omega, hc.2⟩, hc.1⟩
    · split
      · subst_vars
        rw [Memory.consCell_read hc.1]
        split
        · rfl
        · rw [Memory.read, if_neg (by omega)]
          split
          · exact Memory.read_of_le hc.1 (by omega)
          · rfl
      · rw [Memory.read, ih _ hc.1, Memory.read]
        split
        · rw [if_neg (by omega)]
        · split
          · rw [if_neg (by omega)]
          · rfl

/-- A read of no byte. -/
@[simp] theorem Memory.readList_zero (m : Memory) (a : Nat) : m.readList a 0 = [] := rfl

/-- A read gives as many bytes as it asks for. -/
@[simp] theorem Memory.readList_length (m : Memory) (a n : Nat) : (m.readList a n).length = n := by
  induction n generalizing a with
  | zero => rfl
  | succ n ih => simp [Memory.readList, ih]

end Sys2Proof.Machine
end

