-- ==== Sys2Proof/Laws/State.lean ====
section
/-! SUPPORT. What each update of one part of the state leaves of the other parts. -/
namespace Sys2Proof.Machine

/-! ### A register field set by the part -/

@[simp] theorem State.wr_chains (s : State) (f : Fld) (v i j : Nat) : (s.wr f v i j).chains = s.chains := by unfold State.wr; split <;> rfl
@[simp] theorem State.wr_latch (s : State) (f : Fld) (v i j : Nat) : (s.wr f v i j).latch = s.latch := by unfold State.wr; split <;> rfl
@[simp] theorem State.wr_tally (s : State) (f : Fld) (v i j : Nat) : (s.wr f v i j).tally = s.tally := by unfold State.wr; split <;> rfl
@[simp] theorem State.wr_mem (s : State) (f : Fld) (v i j : Nat) : (s.wr f v i j).mem = s.mem := by unfold State.wr; split <;> rfl
@[simp] theorem State.wr_link (s : State) (f : Fld) (v i j : Nat) : (s.wr f v i j).link = s.link := by unfold State.wr; split <;> rfl
@[simp] theorem State.wr_easels (s : State) (f : Fld) (v i j : Nat) : (s.wr f v i j).easels = s.easels := by unfold State.wr; split <;> rfl
@[simp] theorem State.wr_notices (s : State) (f : Fld) (v i j : Nat) : (s.wr f v i j).notices = s.notices := by unfold State.wr; split <;> rfl
@[simp] theorem State.wr_hbm (s : State) (f : Fld) (v i j : Nat) : (s.wr f v i j).hbm = s.hbm := by unfold State.wr; split <;> rfl
@[simp] theorem State.wr_host (s : State) (f : Fld) (v i j : Nat) : (s.wr f v i j).host = s.host := by unfold State.wr; split <;> rfl
@[simp] theorem State.wr_cond (s : State) (f : Fld) (v i j : Nat) : (s.wr f v i j).cond = s.cond := by unfold State.wr; split <;> rfl
@[simp] theorem State.wr_condHalf (s : State) (f : Fld) (v i j : Nat) : (s.wr f v i j).condHalf = s.condHalf := by unfold State.wr; split <;> rfl
@[simp] theorem State.wr_ledgerWait (s : State) (f : Fld) (v i j : Nat) : (s.wr f v i j).ledgerWait = s.ledgerWait := by unfold State.wr; split <;> rfl
@[simp] theorem State.wr_brush (s : State) (f : Fld) (v i j : Nat) : (s.wr f v i j).brush = s.brush := by unfold State.wr; split <;> rfl
@[simp] theorem State.wr_pal (s : State) (f : Fld) (v i j : Nat) : (s.wr f v i j).pal = s.pal := by unfold State.wr; split <;> rfl
@[simp] theorem State.wr_views (s : State) (f : Fld) (v i j : Nat) : (s.wr f v i j).views = s.views := by unfold State.wr; split <;> rfl
@[simp] theorem State.wr_pack (s : State) (f : Fld) (v i j : Nat) : (s.wr f v i j).pack = s.pack := by unfold State.wr; split <;> rfl
@[simp] theorem State.wr_stor (s : State) (f : Fld) (v i j : Nat) : (s.wr f v i j).stor = s.stor := by unfold State.wr; split <;> rfl
@[simp] theorem State.wr_prodKeys (s : State) (f : Fld) (v i j : Nat) : (s.wr f v i j).prodKeys = s.prodKeys := by unfold State.wr; split <;> rfl
@[simp] theorem State.wr_vcd (s : State) (f : Fld) (v i j : Nat) : (s.wr f v i j).vcd = s.vcd := by unfold State.wr; split <;> rfl
@[simp] theorem State.wr_outs (s : State) (f : Fld) (v i j : Nat) : (s.wr f v i j).outs = s.outs := by unfold State.wr; split <;> rfl
@[simp] theorem State.wr_net (s : State) (f : Fld) (v i j : Nat) : (s.wr f v i j).net = s.net := by unfold State.wr; split <;> rfl
@[simp] theorem State.wr_clock (s : State) (f : Fld) (v i j : Nat) : (s.wr f v i j).clock = s.clock := by unfold State.wr; split <;> rfl
@[simp] theorem State.wr_aud (s : State) (f : Fld) (v i j : Nat) : (s.wr f v i j).aud = s.aud := by unfold State.wr; split <;> rfl
@[simp] theorem State.wr_sys (s : State) (f : Fld) (v i j : Nat) : (s.wr f v i j).sys = s.sys := by unfold State.wr; split <;> rfl
@[simp] theorem State.wr_sec (s : State) (f : Fld) (v i j : Nat) : (s.wr f v i j).sec = s.sec := by unfold State.wr; split <;> rfl
@[simp] theorem State.wr_out (s : State) (f : Fld) (v i j : Nat) : (s.wr f v i j).out = s.out := by unfold State.wr; split <;> rfl
@[simp] theorem State.wr_fresh (s : State) (f : Fld) (v i j : Nat) : (s.wr f v i j).fresh = s.fresh := by unfold State.wr; split <;> rfl
@[simp] theorem State.wr_pending (s : State) (f : Fld) (v i j : Nat) : (s.wr f v i j).pending = s.pending := by unfold State.wr; split <;> rfl

/-! ### State.emit -/

@[simp] theorem State.emit_chains (s : State) (e : Emit) : (s.emit e).chains = s.chains := rfl
@[simp] theorem State.emit_cfg (s : State) (e : Emit) : (s.emit e).cfg = s.cfg := rfl
@[simp] theorem State.emit_sts (s : State) (e : Emit) : (s.emit e).sts = s.sts := rfl
@[simp] theorem State.emit_latch (s : State) (e : Emit) : (s.emit e).latch = s.latch := rfl
@[simp] theorem State.emit_tally (s : State) (e : Emit) : (s.emit e).tally = s.tally := rfl
@[simp] theorem State.emit_mem (s : State) (e : Emit) : (s.emit e).mem = s.mem := rfl
@[simp] theorem State.emit_link (s : State) (e : Emit) : (s.emit e).link = s.link := rfl
@[simp] theorem State.emit_easels (s : State) (e : Emit) : (s.emit e).easels = s.easels := rfl
@[simp] theorem State.emit_notices (s : State) (e : Emit) : (s.emit e).notices = s.notices := rfl
@[simp] theorem State.emit_hbm (s : State) (e : Emit) : (s.emit e).hbm = s.hbm := rfl
@[simp] theorem State.emit_host (s : State) (e : Emit) : (s.emit e).host = s.host := rfl
@[simp] theorem State.emit_cond (s : State) (e : Emit) : (s.emit e).cond = s.cond := rfl
@[simp] theorem State.emit_condHalf (s : State) (e : Emit) : (s.emit e).condHalf = s.condHalf := rfl
@[simp] theorem State.emit_ledgerWait (s : State) (e : Emit) : (s.emit e).ledgerWait = s.ledgerWait := rfl
@[simp] theorem State.emit_brush (s : State) (e : Emit) : (s.emit e).brush = s.brush := rfl
@[simp] theorem State.emit_pal (s : State) (e : Emit) : (s.emit e).pal = s.pal := rfl
@[simp] theorem State.emit_views (s : State) (e : Emit) : (s.emit e).views = s.views := rfl
@[simp] theorem State.emit_pack (s : State) (e : Emit) : (s.emit e).pack = s.pack := rfl
@[simp] theorem State.emit_stor (s : State) (e : Emit) : (s.emit e).stor = s.stor := rfl
@[simp] theorem State.emit_prodKeys (s : State) (e : Emit) : (s.emit e).prodKeys = s.prodKeys := rfl
@[simp] theorem State.emit_vcd (s : State) (e : Emit) : (s.emit e).vcd = s.vcd := rfl
@[simp] theorem State.emit_outs (s : State) (e : Emit) : (s.emit e).outs = s.outs := rfl
@[simp] theorem State.emit_net (s : State) (e : Emit) : (s.emit e).net = s.net := rfl
@[simp] theorem State.emit_clock (s : State) (e : Emit) : (s.emit e).clock = s.clock := rfl
@[simp] theorem State.emit_aud (s : State) (e : Emit) : (s.emit e).aud = s.aud := rfl
@[simp] theorem State.emit_sys (s : State) (e : Emit) : (s.emit e).sys = s.sys := rfl
@[simp] theorem State.emit_sec (s : State) (e : Emit) : (s.emit e).sec = s.sec := rfl
@[simp] theorem State.emit_out (s : State) (e : Emit) : (s.emit e).out = e :: s.out := rfl
@[simp] theorem State.emit_fresh (s : State) (e : Emit) : (s.emit e).fresh = s.fresh := rfl
@[simp] theorem State.emit_pending (s : State) (e : Emit) : (s.emit e).pending = s.pending := rfl
@[simp] theorem State.emit_rd (s : State) (e : Emit) (g : Fld) (i j : Nat) : (s.emit e).rd g i j = s.rd g i j := rfl

/-! ### State.tick -/

@[simp] theorem State.tick_chains (s : State) : s.tick.chains = s.chains := rfl
@[simp] theorem State.tick_cfg (s : State) : s.tick.cfg = s.cfg := rfl
@[simp] theorem State.tick_sts (s : State) : s.tick.sts = s.sts := rfl
@[simp] theorem State.tick_latch (s : State) : s.tick.latch = s.latch := rfl
@[simp] theorem State.tick_tally (s : State) : s.tick.tally = s.tally := rfl
@[simp] theorem State.tick_mem (s : State) : s.tick.mem = s.mem := rfl
@[simp] theorem State.tick_link (s : State) : s.tick.link = s.link := rfl
@[simp] theorem State.tick_easels (s : State) : s.tick.easels = s.easels := rfl
@[simp] theorem State.tick_notices (s : State) : s.tick.notices = s.notices := rfl
@[simp] theorem State.tick_hbm (s : State) : s.tick.hbm = s.hbm := rfl
@[simp] theorem State.tick_host (s : State) : s.tick.host = s.host := rfl
@[simp] theorem State.tick_cond (s : State) : s.tick.cond = s.cond := rfl
@[simp] theorem State.tick_condHalf (s : State) : s.tick.condHalf = s.condHalf := rfl
@[simp] theorem State.tick_ledgerWait (s : State) : s.tick.ledgerWait = s.ledgerWait := rfl
@[simp] theorem State.tick_brush (s : State) : s.tick.brush = s.brush := rfl
@[simp] theorem State.tick_pal (s : State) : s.tick.pal = s.pal := rfl
@[simp] theorem State.tick_views (s : State) : s.tick.views = s.views := rfl
@[simp] theorem State.tick_pack (s : State) : s.tick.pack = s.pack := rfl
@[simp] theorem State.tick_stor (s : State) : s.tick.stor = s.stor := rfl
@[simp] theorem State.tick_prodKeys (s : State) : s.tick.prodKeys = s.prodKeys := rfl
@[simp] theorem State.tick_vcd (s : State) : s.tick.vcd = s.vcd := rfl
@[simp] theorem State.tick_outs (s : State) : s.tick.outs = s.outs := rfl
@[simp] theorem State.tick_net (s : State) : s.tick.net = s.net := rfl
@[simp] theorem State.tick_clock (s : State) : s.tick.clock = s.now := rfl
@[simp] theorem State.tick_aud (s : State) : s.tick.aud = s.aud := rfl
@[simp] theorem State.tick_sys (s : State) : s.tick.sys = s.sys := rfl
@[simp] theorem State.tick_sec (s : State) : s.tick.sec = s.sec := rfl
@[simp] theorem State.tick_out (s : State) : s.tick.out = s.out := rfl
@[simp] theorem State.tick_fresh (s : State) : s.tick.fresh = s.fresh + 1 := rfl
@[simp] theorem State.tick_pending (s : State) : s.tick.pending = s.pending := rfl
@[simp] theorem State.tick_rd (s : State) (g : Fld) (i j : Nat) : s.tick.rd g i j = s.rd g i j := rfl

/-! ### State.setClock -/

@[simp] theorem State.setClock_chains (s : State) (n : Nat) : (s.setClock n).chains = s.chains := rfl
@[simp] theorem State.setClock_cfg (s : State) (n : Nat) : (s.setClock n).cfg = s.cfg := rfl
@[simp] theorem State.setClock_sts (s : State) (n : Nat) : (s.setClock n).sts = s.sts := rfl
@[simp] theorem State.setClock_latch (s : State) (n : Nat) : (s.setClock n).latch = s.latch := rfl
@[simp] theorem State.setClock_tally (s : State) (n : Nat) : (s.setClock n).tally = s.tally := rfl
@[simp] theorem State.setClock_mem (s : State) (n : Nat) : (s.setClock n).mem = s.mem := rfl
@[simp] theorem State.setClock_link (s : State) (n : Nat) : (s.setClock n).link = s.link := rfl
@[simp] theorem State.setClock_easels (s : State) (n : Nat) : (s.setClock n).easels = s.easels := rfl
@[simp] theorem State.setClock_notices (s : State) (n : Nat) : (s.setClock n).notices = s.notices := rfl
@[simp] theorem State.setClock_hbm (s : State) (n : Nat) : (s.setClock n).hbm = s.hbm := rfl
@[simp] theorem State.setClock_host (s : State) (n : Nat) : (s.setClock n).host = s.host := rfl
@[simp] theorem State.setClock_cond (s : State) (n : Nat) : (s.setClock n).cond = s.cond := rfl
@[simp] theorem State.setClock_condHalf (s : State) (n : Nat) : (s.setClock n).condHalf = s.condHalf := rfl
@[simp] theorem State.setClock_ledgerWait (s : State) (n : Nat) : (s.setClock n).ledgerWait = s.ledgerWait := rfl
@[simp] theorem State.setClock_brush (s : State) (n : Nat) : (s.setClock n).brush = s.brush := rfl
@[simp] theorem State.setClock_pal (s : State) (n : Nat) : (s.setClock n).pal = s.pal := rfl
@[simp] theorem State.setClock_views (s : State) (n : Nat) : (s.setClock n).views = s.views := rfl
@[simp] theorem State.setClock_pack (s : State) (n : Nat) : (s.setClock n).pack = s.pack := rfl
@[simp] theorem State.setClock_stor (s : State) (n : Nat) : (s.setClock n).stor = s.stor := rfl
@[simp] theorem State.setClock_prodKeys (s : State) (n : Nat) : (s.setClock n).prodKeys = s.prodKeys := rfl
@[simp] theorem State.setClock_vcd (s : State) (n : Nat) : (s.setClock n).vcd = s.vcd := rfl
@[simp] theorem State.setClock_outs (s : State) (n : Nat) : (s.setClock n).outs = s.outs := rfl
@[simp] theorem State.setClock_net (s : State) (n : Nat) : (s.setClock n).net = s.net := rfl
@[simp] theorem State.setClock_clock (s : State) (n : Nat) : (s.setClock n).clock = n := rfl
@[simp] theorem State.setClock_aud (s : State) (n : Nat) : (s.setClock n).aud = s.aud := rfl
@[simp] theorem State.setClock_sys (s : State) (n : Nat) : (s.setClock n).sys = s.sys := rfl
@[simp] theorem State.setClock_sec (s : State) (n : Nat) : (s.setClock n).sec = s.sec := rfl
@[simp] theorem State.setClock_out (s : State) (n : Nat) : (s.setClock n).out = s.out := rfl
@[simp] theorem State.setClock_fresh (s : State) (n : Nat) : (s.setClock n).fresh = s.fresh := rfl
@[simp] theorem State.setClock_pending (s : State) (n : Nat) : (s.setClock n).pending = s.pending := rfl
@[simp] theorem State.setClock_rd (s : State) (n : Nat) (g : Fld) (i j : Nat) : (s.setClock n).rd g i j = s.rd g i j := rfl

/-! ### State.store -/

@[simp] theorem State.store_chains (s : State) (a : Nat) (bs : List Byte) : (s.store a bs).chains = s.chains := rfl
@[simp] theorem State.store_cfg (s : State) (a : Nat) (bs : List Byte) : (s.store a bs).cfg = s.cfg := rfl
@[simp] theorem State.store_sts (s : State) (a : Nat) (bs : List Byte) : (s.store a bs).sts = s.sts := rfl
@[simp] theorem State.store_latch (s : State) (a : Nat) (bs : List Byte) : (s.store a bs).latch = s.latch := rfl
@[simp] theorem State.store_tally (s : State) (a : Nat) (bs : List Byte) : (s.store a bs).tally = s.tally := rfl
@[simp] theorem State.store_mem (s : State) (a : Nat) (bs : List Byte) : (s.store a bs).mem = s.mem.writeList a bs := rfl
@[simp] theorem State.store_link (s : State) (a : Nat) (bs : List Byte) : (s.store a bs).link = s.link := rfl
@[simp] theorem State.store_easels (s : State) (a : Nat) (bs : List Byte) : (s.store a bs).easels = s.easels := rfl
@[simp] theorem State.store_notices (s : State) (a : Nat) (bs : List Byte) : (s.store a bs).notices = s.notices := rfl
@[simp] theorem State.store_hbm (s : State) (a : Nat) (bs : List Byte) : (s.store a bs).hbm = s.hbm := rfl
@[simp] theorem State.store_host (s : State) (a : Nat) (bs : List Byte) : (s.store a bs).host = s.host := rfl
@[simp] theorem State.store_cond (s : State) (a : Nat) (bs : List Byte) : (s.store a bs).cond = s.cond := rfl
@[simp] theorem State.store_condHalf (s : State) (a : Nat) (bs : List Byte) : (s.store a bs).condHalf = s.condHalf := rfl
@[simp] theorem State.store_ledgerWait (s : State) (a : Nat) (bs : List Byte) : (s.store a bs).ledgerWait = s.ledgerWait := rfl
@[simp] theorem State.store_brush (s : State) (a : Nat) (bs : List Byte) : (s.store a bs).brush = s.brush := rfl
@[simp] theorem State.store_pal (s : State) (a : Nat) (bs : List Byte) : (s.store a bs).pal = s.pal := rfl
@[simp] theorem State.store_views (s : State) (a : Nat) (bs : List Byte) : (s.store a bs).views = s.views := rfl
@[simp] theorem State.store_pack (s : State) (a : Nat) (bs : List Byte) : (s.store a bs).pack = s.pack := rfl
@[simp] theorem State.store_stor (s : State) (a : Nat) (bs : List Byte) : (s.store a bs).stor = s.stor := rfl
@[simp] theorem State.store_prodKeys (s : State) (a : Nat) (bs : List Byte) : (s.store a bs).prodKeys = s.prodKeys := rfl
@[simp] theorem State.store_vcd (s : State) (a : Nat) (bs : List Byte) : (s.store a bs).vcd = s.vcd := rfl
@[simp] theorem State.store_outs (s : State) (a : Nat) (bs : List Byte) : (s.store a bs).outs = s.outs := rfl
@[simp] theorem State.store_net (s : State) (a : Nat) (bs : List Byte) : (s.store a bs).net = s.net := rfl
@[simp] theorem State.store_clock (s : State) (a : Nat) (bs : List Byte) : (s.store a bs).clock = s.clock := rfl
@[simp] theorem State.store_aud (s : State) (a : Nat) (bs : List Byte) : (s.store a bs).aud = s.aud := rfl
@[simp] theorem State.store_sys (s : State) (a : Nat) (bs : List Byte) : (s.store a bs).sys = s.sys := rfl
@[simp] theorem State.store_sec (s : State) (a : Nat) (bs : List Byte) : (s.store a bs).sec = s.sec := rfl
@[simp] theorem State.store_out (s : State) (a : Nat) (bs : List Byte) : (s.store a bs).out = s.out := rfl
@[simp] theorem State.store_fresh (s : State) (a : Nat) (bs : List Byte) : (s.store a bs).fresh = s.fresh := rfl
@[simp] theorem State.store_pending (s : State) (a : Nat) (bs : List Byte) : (s.store a bs).pending = s.pending := rfl
@[simp] theorem State.store_rd (s : State) (a : Nat) (bs : List Byte) (g : Fld) (i j : Nat) : (s.store a bs).rd g i j = s.rd g i j := rfl

/-! ### State.ledgerAdd -/

@[simp] theorem State.ledgerAdd_chains (s : State) (k y : Nat) (v : List Nat) : (s.ledgerAdd k y v).chains = s.chains := rfl
@[simp] theorem State.ledgerAdd_cfg (s : State) (k y : Nat) (v : List Nat) : (s.ledgerAdd k y v).cfg = s.cfg := rfl
@[simp] theorem State.ledgerAdd_sts (s : State) (k y : Nat) (v : List Nat) : (s.ledgerAdd k y v).sts = s.sts := rfl
@[simp] theorem State.ledgerAdd_latch (s : State) (k y : Nat) (v : List Nat) : (s.ledgerAdd k y v).latch = s.latch := rfl
@[simp] theorem State.ledgerAdd_tally (s : State) (k y : Nat) (v : List Nat) : (s.ledgerAdd k y v).tally = s.tally := rfl
@[simp] theorem State.ledgerAdd_mem (s : State) (k y : Nat) (v : List Nat) : (s.ledgerAdd k y v).mem = s.mem := rfl
@[simp] theorem State.ledgerAdd_link (s : State) (k y : Nat) (v : List Nat) : (s.ledgerAdd k y v).link = s.link := rfl
@[simp] theorem State.ledgerAdd_easels (s : State) (k y : Nat) (v : List Nat) : (s.ledgerAdd k y v).easels = s.easels := rfl
@[simp] theorem State.ledgerAdd_notices (s : State) (k y : Nat) (v : List Nat) : (s.ledgerAdd k y v).notices = s.notices := rfl
@[simp] theorem State.ledgerAdd_hbm (s : State) (k y : Nat) (v : List Nat) : (s.ledgerAdd k y v).hbm = s.hbm := rfl
@[simp] theorem State.ledgerAdd_host (s : State) (k y : Nat) (v : List Nat) : (s.ledgerAdd k y v).host = s.host := rfl
@[simp] theorem State.ledgerAdd_cond (s : State) (k y : Nat) (v : List Nat) : (s.ledgerAdd k y v).cond = s.cond := rfl
@[simp] theorem State.ledgerAdd_condHalf (s : State) (k y : Nat) (v : List Nat) : (s.ledgerAdd k y v).condHalf = s.condHalf := rfl
@[simp] theorem State.ledgerAdd_ledgerWait (s : State) (k y : Nat) (v : List Nat) : (s.ledgerAdd k y v).ledgerWait = s.ledgerWait ++ [{ seq := 0, kind := k, key := y, vals := v }] := rfl
@[simp] theorem State.ledgerAdd_brush (s : State) (k y : Nat) (v : List Nat) : (s.ledgerAdd k y v).brush = s.brush := rfl
@[simp] theorem State.ledgerAdd_pal (s : State) (k y : Nat) (v : List Nat) : (s.ledgerAdd k y v).pal = s.pal := rfl
@[simp] theorem State.ledgerAdd_views (s : State) (k y : Nat) (v : List Nat) : (s.ledgerAdd k y v).views = s.views := rfl
@[simp] theorem State.ledgerAdd_pack (s : State) (k y : Nat) (v : List Nat) : (s.ledgerAdd k y v).pack = s.pack := rfl
@[simp] theorem State.ledgerAdd_stor (s : State) (k y : Nat) (v : List Nat) : (s.ledgerAdd k y v).stor = s.stor := rfl
@[simp] theorem State.ledgerAdd_prodKeys (s : State) (k y : Nat) (v : List Nat) : (s.ledgerAdd k y v).prodKeys = s.prodKeys := rfl
@[simp] theorem State.ledgerAdd_vcd (s : State) (k y : Nat) (v : List Nat) : (s.ledgerAdd k y v).vcd = s.vcd := rfl
@[simp] theorem State.ledgerAdd_outs (s : State) (k y : Nat) (v : List Nat) : (s.ledgerAdd k y v).outs = s.outs := rfl
@[simp] theorem State.ledgerAdd_net (s : State) (k y : Nat) (v : List Nat) : (s.ledgerAdd k y v).net = s.net := rfl
@[simp] theorem State.ledgerAdd_clock (s : State) (k y : Nat) (v : List Nat) : (s.ledgerAdd k y v).clock = s.clock := rfl
@[simp] theorem State.ledgerAdd_aud (s : State) (k y : Nat) (v : List Nat) : (s.ledgerAdd k y v).aud = s.aud := rfl
@[simp] theorem State.ledgerAdd_sys (s : State) (k y : Nat) (v : List Nat) : (s.ledgerAdd k y v).sys = s.sys := rfl
@[simp] theorem State.ledgerAdd_sec (s : State) (k y : Nat) (v : List Nat) : (s.ledgerAdd k y v).sec = s.sec := rfl
@[simp] theorem State.ledgerAdd_out (s : State) (k y : Nat) (v : List Nat) : (s.ledgerAdd k y v).out = s.out := rfl
@[simp] theorem State.ledgerAdd_fresh (s : State) (k y : Nat) (v : List Nat) : (s.ledgerAdd k y v).fresh = s.fresh := rfl
@[simp] theorem State.ledgerAdd_pending (s : State) (k y : Nat) (v : List Nat) : (s.ledgerAdd k y v).pending = s.pending := rfl
@[simp] theorem State.ledgerAdd_rd (s : State) (k y : Nat) (v : List Nat) (g : Fld) (i j : Nat) : (s.ledgerAdd k y v).rd g i j = s.rd g i j := rfl

/-! ### State.latchSet -/

@[simp] theorem State.latchSet_chains (s : State) (o v : Nat) : (s.latchSet o v).chains = s.chains := rfl
@[simp] theorem State.latchSet_cfg (s : State) (o v : Nat) : (s.latchSet o v).cfg = s.cfg := rfl
@[simp] theorem State.latchSet_sts (s : State) (o v : Nat) : (s.latchSet o v).sts = s.sts := rfl
@[simp] theorem State.latchSet_latch (s : State) (o v : Nat) : (s.latchSet o v).latch = s.latch.set ⟨o, 0, 0, 0⟩ v := rfl
@[simp] theorem State.latchSet_tally (s : State) (o v : Nat) : (s.latchSet o v).tally = s.tally := rfl
@[simp] theorem State.latchSet_mem (s : State) (o v : Nat) : (s.latchSet o v).mem = s.mem := rfl
@[simp] theorem State.latchSet_link (s : State) (o v : Nat) : (s.latchSet o v).link = s.link := rfl
@[simp] theorem State.latchSet_easels (s : State) (o v : Nat) : (s.latchSet o v).easels = s.easels := rfl
@[simp] theorem State.latchSet_notices (s : State) (o v : Nat) : (s.latchSet o v).notices = s.notices := rfl
@[simp] theorem State.latchSet_hbm (s : State) (o v : Nat) : (s.latchSet o v).hbm = s.hbm := rfl
@[simp] theorem State.latchSet_host (s : State) (o v : Nat) : (s.latchSet o v).host = s.host := rfl
@[simp] theorem State.latchSet_cond (s : State) (o v : Nat) : (s.latchSet o v).cond = s.cond := rfl
@[simp] theorem State.latchSet_condHalf (s : State) (o v : Nat) : (s.latchSet o v).condHalf = s.condHalf := rfl
@[simp] theorem State.latchSet_ledgerWait (s : State) (o v : Nat) : (s.latchSet o v).ledgerWait = s.ledgerWait := rfl
@[simp] theorem State.latchSet_brush (s : State) (o v : Nat) : (s.latchSet o v).brush = s.brush := rfl
@[simp] theorem State.latchSet_pal (s : State) (o v : Nat) : (s.latchSet o v).pal = s.pal := rfl
@[simp] theorem State.latchSet_views (s : State) (o v : Nat) : (s.latchSet o v).views = s.views := rfl
@[simp] theorem State.latchSet_pack (s : State) (o v : Nat) : (s.latchSet o v).pack = s.pack := rfl
@[simp] theorem State.latchSet_stor (s : State) (o v : Nat) : (s.latchSet o v).stor = s.stor := rfl
@[simp] theorem State.latchSet_prodKeys (s : State) (o v : Nat) : (s.latchSet o v).prodKeys = s.prodKeys := rfl
@[simp] theorem State.latchSet_vcd (s : State) (o v : Nat) : (s.latchSet o v).vcd = s.vcd := rfl
@[simp] theorem State.latchSet_outs (s : State) (o v : Nat) : (s.latchSet o v).outs = s.outs := rfl
@[simp] theorem State.latchSet_net (s : State) (o v : Nat) : (s.latchSet o v).net = s.net := rfl
@[simp] theorem State.latchSet_clock (s : State) (o v : Nat) : (s.latchSet o v).clock = s.clock := rfl
@[simp] theorem State.latchSet_aud (s : State) (o v : Nat) : (s.latchSet o v).aud = s.aud := rfl
@[simp] theorem State.latchSet_sys (s : State) (o v : Nat) : (s.latchSet o v).sys = s.sys := rfl
@[simp] theorem State.latchSet_sec (s : State) (o v : Nat) : (s.latchSet o v).sec = s.sec := rfl
@[simp] theorem State.latchSet_out (s : State) (o v : Nat) : (s.latchSet o v).out = s.out := rfl
@[simp] theorem State.latchSet_fresh (s : State) (o v : Nat) : (s.latchSet o v).fresh = s.fresh := rfl
@[simp] theorem State.latchSet_pending (s : State) (o v : Nat) : (s.latchSet o v).pending = s.pending := rfl
@[simp] theorem State.latchSet_rd (s : State) (o v : Nat) (g : Fld) (i j : Nat) : (s.latchSet o v).rd g i j = s.rd g i j := rfl

/-! ### State.updHost -/

@[simp] theorem State.updHost_chains (s : State) (f : HostSt → HostSt) : (s.updHost f).chains = s.chains := rfl
@[simp] theorem State.updHost_cfg (s : State) (f : HostSt → HostSt) : (s.updHost f).cfg = s.cfg := rfl
@[simp] theorem State.updHost_sts (s : State) (f : HostSt → HostSt) : (s.updHost f).sts = s.sts := rfl
@[simp] theorem State.updHost_latch (s : State) (f : HostSt → HostSt) : (s.updHost f).latch = s.latch := rfl
@[simp] theorem State.updHost_tally (s : State) (f : HostSt → HostSt) : (s.updHost f).tally = s.tally := rfl
@[simp] theorem State.updHost_mem (s : State) (f : HostSt → HostSt) : (s.updHost f).mem = s.mem := rfl
@[simp] theorem State.updHost_link (s : State) (f : HostSt → HostSt) : (s.updHost f).link = s.link := rfl
@[simp] theorem State.updHost_easels (s : State) (f : HostSt → HostSt) : (s.updHost f).easels = s.easels := rfl
@[simp] theorem State.updHost_notices (s : State) (f : HostSt → HostSt) : (s.updHost f).notices = s.notices := rfl
@[simp] theorem State.updHost_hbm (s : State) (f : HostSt → HostSt) : (s.updHost f).hbm = s.hbm := rfl
@[simp] theorem State.updHost_host (s : State) (f : HostSt → HostSt) : (s.updHost f).host = f s.host := rfl
@[simp] theorem State.updHost_cond (s : State) (f : HostSt → HostSt) : (s.updHost f).cond = s.cond := rfl
@[simp] theorem State.updHost_condHalf (s : State) (f : HostSt → HostSt) : (s.updHost f).condHalf = s.condHalf := rfl
@[simp] theorem State.updHost_ledgerWait (s : State) (f : HostSt → HostSt) : (s.updHost f).ledgerWait = s.ledgerWait := rfl
@[simp] theorem State.updHost_brush (s : State) (f : HostSt → HostSt) : (s.updHost f).brush = s.brush := rfl
@[simp] theorem State.updHost_pal (s : State) (f : HostSt → HostSt) : (s.updHost f).pal = s.pal := rfl
@[simp] theorem State.updHost_views (s : State) (f : HostSt → HostSt) : (s.updHost f).views = s.views := rfl
@[simp] theorem State.updHost_pack (s : State) (f : HostSt → HostSt) : (s.updHost f).pack = s.pack := rfl
@[simp] theorem State.updHost_stor (s : State) (f : HostSt → HostSt) : (s.updHost f).stor = s.stor := rfl
@[simp] theorem State.updHost_prodKeys (s : State) (f : HostSt → HostSt) : (s.updHost f).prodKeys = s.prodKeys := rfl
@[simp] theorem State.updHost_vcd (s : State) (f : HostSt → HostSt) : (s.updHost f).vcd = s.vcd := rfl
@[simp] theorem State.updHost_outs (s : State) (f : HostSt → HostSt) : (s.updHost f).outs = s.outs := rfl
@[simp] theorem State.updHost_net (s : State) (f : HostSt → HostSt) : (s.updHost f).net = s.net := rfl
@[simp] theorem State.updHost_clock (s : State) (f : HostSt → HostSt) : (s.updHost f).clock = s.clock := rfl
@[simp] theorem State.updHost_aud (s : State) (f : HostSt → HostSt) : (s.updHost f).aud = s.aud := rfl
@[simp] theorem State.updHost_sys (s : State) (f : HostSt → HostSt) : (s.updHost f).sys = s.sys := rfl
@[simp] theorem State.updHost_sec (s : State) (f : HostSt → HostSt) : (s.updHost f).sec = s.sec := rfl
@[simp] theorem State.updHost_out (s : State) (f : HostSt → HostSt) : (s.updHost f).out = s.out := rfl
@[simp] theorem State.updHost_fresh (s : State) (f : HostSt → HostSt) : (s.updHost f).fresh = s.fresh := rfl
@[simp] theorem State.updHost_pending (s : State) (f : HostSt → HostSt) : (s.updHost f).pending = s.pending := rfl
@[simp] theorem State.updHost_rd (s : State) (f : HostSt → HostSt) (g : Fld) (i j : Nat) : (s.updHost f).rd g i j = s.rd g i j := rfl

/-! ### State.updHbm -/

@[simp] theorem State.updHbm_chains (s : State) (f : HbmSt → HbmSt) : (s.updHbm f).chains = s.chains := rfl
@[simp] theorem State.updHbm_cfg (s : State) (f : HbmSt → HbmSt) : (s.updHbm f).cfg = s.cfg := rfl
@[simp] theorem State.updHbm_sts (s : State) (f : HbmSt → HbmSt) : (s.updHbm f).sts = s.sts := rfl
@[simp] theorem State.updHbm_latch (s : State) (f : HbmSt → HbmSt) : (s.updHbm f).latch = s.latch := rfl
@[simp] theorem State.updHbm_tally (s : State) (f : HbmSt → HbmSt) : (s.updHbm f).tally = s.tally := rfl
@[simp] theorem State.updHbm_mem (s : State) (f : HbmSt → HbmSt) : (s.updHbm f).mem = s.mem := rfl
@[simp] theorem State.updHbm_link (s : State) (f : HbmSt → HbmSt) : (s.updHbm f).link = s.link := rfl
@[simp] theorem State.updHbm_easels (s : State) (f : HbmSt → HbmSt) : (s.updHbm f).easels = s.easels := rfl
@[simp] theorem State.updHbm_notices (s : State) (f : HbmSt → HbmSt) : (s.updHbm f).notices = s.notices := rfl
@[simp] theorem State.updHbm_hbm (s : State) (f : HbmSt → HbmSt) : (s.updHbm f).hbm = f s.hbm := rfl
@[simp] theorem State.updHbm_host (s : State) (f : HbmSt → HbmSt) : (s.updHbm f).host = s.host := rfl
@[simp] theorem State.updHbm_cond (s : State) (f : HbmSt → HbmSt) : (s.updHbm f).cond = s.cond := rfl
@[simp] theorem State.updHbm_condHalf (s : State) (f : HbmSt → HbmSt) : (s.updHbm f).condHalf = s.condHalf := rfl
@[simp] theorem State.updHbm_ledgerWait (s : State) (f : HbmSt → HbmSt) : (s.updHbm f).ledgerWait = s.ledgerWait := rfl
@[simp] theorem State.updHbm_brush (s : State) (f : HbmSt → HbmSt) : (s.updHbm f).brush = s.brush := rfl
@[simp] theorem State.updHbm_pal (s : State) (f : HbmSt → HbmSt) : (s.updHbm f).pal = s.pal := rfl
@[simp] theorem State.updHbm_views (s : State) (f : HbmSt → HbmSt) : (s.updHbm f).views = s.views := rfl
@[simp] theorem State.updHbm_pack (s : State) (f : HbmSt → HbmSt) : (s.updHbm f).pack = s.pack := rfl
@[simp] theorem State.updHbm_stor (s : State) (f : HbmSt → HbmSt) : (s.updHbm f).stor = s.stor := rfl
@[simp] theorem State.updHbm_prodKeys (s : State) (f : HbmSt → HbmSt) : (s.updHbm f).prodKeys = s.prodKeys := rfl
@[simp] theorem State.updHbm_vcd (s : State) (f : HbmSt → HbmSt) : (s.updHbm f).vcd = s.vcd := rfl
@[simp] theorem State.updHbm_outs (s : State) (f : HbmSt → HbmSt) : (s.updHbm f).outs = s.outs := rfl
@[simp] theorem State.updHbm_net (s : State) (f : HbmSt → HbmSt) : (s.updHbm f).net = s.net := rfl
@[simp] theorem State.updHbm_clock (s : State) (f : HbmSt → HbmSt) : (s.updHbm f).clock = s.clock := rfl
@[simp] theorem State.updHbm_aud (s : State) (f : HbmSt → HbmSt) : (s.updHbm f).aud = s.aud := rfl
@[simp] theorem State.updHbm_sys (s : State) (f : HbmSt → HbmSt) : (s.updHbm f).sys = s.sys := rfl
@[simp] theorem State.updHbm_sec (s : State) (f : HbmSt → HbmSt) : (s.updHbm f).sec = s.sec := rfl
@[simp] theorem State.updHbm_out (s : State) (f : HbmSt → HbmSt) : (s.updHbm f).out = s.out := rfl
@[simp] theorem State.updHbm_fresh (s : State) (f : HbmSt → HbmSt) : (s.updHbm f).fresh = s.fresh := rfl
@[simp] theorem State.updHbm_pending (s : State) (f : HbmSt → HbmSt) : (s.updHbm f).pending = s.pending := rfl
@[simp] theorem State.updHbm_rd (s : State) (f : HbmSt → HbmSt) (g : Fld) (i j : Nat) : (s.updHbm f).rd g i j = s.rd g i j := rfl

/-! ### State.updSys -/

@[simp] theorem State.updSys_chains (s : State) (f : SysSt → SysSt) : (s.updSys f).chains = s.chains := rfl
@[simp] theorem State.updSys_cfg (s : State) (f : SysSt → SysSt) : (s.updSys f).cfg = s.cfg := rfl
@[simp] theorem State.updSys_sts (s : State) (f : SysSt → SysSt) : (s.updSys f).sts = s.sts := rfl
@[simp] theorem State.updSys_latch (s : State) (f : SysSt → SysSt) : (s.updSys f).latch = s.latch := rfl
@[simp] theorem State.updSys_tally (s : State) (f : SysSt → SysSt) : (s.updSys f).tally = s.tally := rfl
@[simp] theorem State.updSys_mem (s : State) (f : SysSt → SysSt) : (s.updSys f).mem = s.mem := rfl
@[simp] theorem State.updSys_link (s : State) (f : SysSt → SysSt) : (s.updSys f).link = s.link := rfl
@[simp] theorem State.updSys_easels (s : State) (f : SysSt → SysSt) : (s.updSys f).easels = s.easels := rfl
@[simp] theorem State.updSys_notices (s : State) (f : SysSt → SysSt) : (s.updSys f).notices = s.notices := rfl
@[simp] theorem State.updSys_hbm (s : State) (f : SysSt → SysSt) : (s.updSys f).hbm = s.hbm := rfl
@[simp] theorem State.updSys_host (s : State) (f : SysSt → SysSt) : (s.updSys f).host = s.host := rfl
@[simp] theorem State.updSys_cond (s : State) (f : SysSt → SysSt) : (s.updSys f).cond = s.cond := rfl
@[simp] theorem State.updSys_condHalf (s : State) (f : SysSt → SysSt) : (s.updSys f).condHalf = s.condHalf := rfl
@[simp] theorem State.updSys_ledgerWait (s : State) (f : SysSt → SysSt) : (s.updSys f).ledgerWait = s.ledgerWait := rfl
@[simp] theorem State.updSys_brush (s : State) (f : SysSt → SysSt) : (s.updSys f).brush = s.brush := rfl
@[simp] theorem State.updSys_pal (s : State) (f : SysSt → SysSt) : (s.updSys f).pal = s.pal := rfl
@[simp] theorem State.updSys_views (s : State) (f : SysSt → SysSt) : (s.updSys f).views = s.views := rfl
@[simp] theorem State.updSys_pack (s : State) (f : SysSt → SysSt) : (s.updSys f).pack = s.pack := rfl
@[simp] theorem State.updSys_stor (s : State) (f : SysSt → SysSt) : (s.updSys f).stor = s.stor := rfl
@[simp] theorem State.updSys_prodKeys (s : State) (f : SysSt → SysSt) : (s.updSys f).prodKeys = s.prodKeys := rfl
@[simp] theorem State.updSys_vcd (s : State) (f : SysSt → SysSt) : (s.updSys f).vcd = s.vcd := rfl
@[simp] theorem State.updSys_outs (s : State) (f : SysSt → SysSt) : (s.updSys f).outs = s.outs := rfl
@[simp] theorem State.updSys_net (s : State) (f : SysSt → SysSt) : (s.updSys f).net = s.net := rfl
@[simp] theorem State.updSys_clock (s : State) (f : SysSt → SysSt) : (s.updSys f).clock = s.clock := rfl
@[simp] theorem State.updSys_aud (s : State) (f : SysSt → SysSt) : (s.updSys f).aud = s.aud := rfl
@[simp] theorem State.updSys_sys (s : State) (f : SysSt → SysSt) : (s.updSys f).sys = f s.sys := rfl
@[simp] theorem State.updSys_sec (s : State) (f : SysSt → SysSt) : (s.updSys f).sec = s.sec := rfl
@[simp] theorem State.updSys_out (s : State) (f : SysSt → SysSt) : (s.updSys f).out = s.out := rfl
@[simp] theorem State.updSys_fresh (s : State) (f : SysSt → SysSt) : (s.updSys f).fresh = s.fresh := rfl
@[simp] theorem State.updSys_pending (s : State) (f : SysSt → SysSt) : (s.updSys f).pending = s.pending := rfl
@[simp] theorem State.updSys_rd (s : State) (f : SysSt → SysSt) (g : Fld) (i j : Nat) : (s.updSys f).rd g i j = s.rd g i j := rfl

/-! ### State.updSec -/

@[simp] theorem State.updSec_chains (s : State) (f : SecSt → SecSt) : (s.updSec f).chains = s.chains := rfl
@[simp] theorem State.updSec_cfg (s : State) (f : SecSt → SecSt) : (s.updSec f).cfg = s.cfg := rfl
@[simp] theorem State.updSec_sts (s : State) (f : SecSt → SecSt) : (s.updSec f).sts = s.sts := rfl
@[simp] theorem State.updSec_latch (s : State) (f : SecSt → SecSt) : (s.updSec f).latch = s.latch := rfl
@[simp] theorem State.updSec_tally (s : State) (f : SecSt → SecSt) : (s.updSec f).tally = s.tally := rfl
@[simp] theorem State.updSec_mem (s : State) (f : SecSt → SecSt) : (s.updSec f).mem = s.mem := rfl
@[simp] theorem State.updSec_link (s : State) (f : SecSt → SecSt) : (s.updSec f).link = s.link := rfl
@[simp] theorem State.updSec_easels (s : State) (f : SecSt → SecSt) : (s.updSec f).easels = s.easels := rfl
@[simp] theorem State.updSec_notices (s : State) (f : SecSt → SecSt) : (s.updSec f).notices = s.notices := rfl
@[simp] theorem State.updSec_hbm (s : State) (f : SecSt → SecSt) : (s.updSec f).hbm = s.hbm := rfl
@[simp] theorem State.updSec_host (s : State) (f : SecSt → SecSt) : (s.updSec f).host = s.host := rfl
@[simp] theorem State.updSec_cond (s : State) (f : SecSt → SecSt) : (s.updSec f).cond = s.cond := rfl
@[simp] theorem State.updSec_condHalf (s : State) (f : SecSt → SecSt) : (s.updSec f).condHalf = s.condHalf := rfl
@[simp] theorem State.updSec_ledgerWait (s : State) (f : SecSt → SecSt) : (s.updSec f).ledgerWait = s.ledgerWait := rfl
@[simp] theorem State.updSec_brush (s : State) (f : SecSt → SecSt) : (s.updSec f).brush = s.brush := rfl
@[simp] theorem State.updSec_pal (s : State) (f : SecSt → SecSt) : (s.updSec f).pal = s.pal := rfl
@[simp] theorem State.updSec_views (s : State) (f : SecSt → SecSt) : (s.updSec f).views = s.views := rfl
@[simp] theorem State.updSec_pack (s : State) (f : SecSt → SecSt) : (s.updSec f).pack = s.pack := rfl
@[simp] theorem State.updSec_stor (s : State) (f : SecSt → SecSt) : (s.updSec f).stor = s.stor := rfl
@[simp] theorem State.updSec_prodKeys (s : State) (f : SecSt → SecSt) : (s.updSec f).prodKeys = s.prodKeys := rfl
@[simp] theorem State.updSec_vcd (s : State) (f : SecSt → SecSt) : (s.updSec f).vcd = s.vcd := rfl
@[simp] theorem State.updSec_outs (s : State) (f : SecSt → SecSt) : (s.updSec f).outs = s.outs := rfl
@[simp] theorem State.updSec_net (s : State) (f : SecSt → SecSt) : (s.updSec f).net = s.net := rfl
@[simp] theorem State.updSec_clock (s : State) (f : SecSt → SecSt) : (s.updSec f).clock = s.clock := rfl
@[simp] theorem State.updSec_aud (s : State) (f : SecSt → SecSt) : (s.updSec f).aud = s.aud := rfl
@[simp] theorem State.updSec_sys (s : State) (f : SecSt → SecSt) : (s.updSec f).sys = s.sys := rfl
@[simp] theorem State.updSec_sec (s : State) (f : SecSt → SecSt) : (s.updSec f).sec = f s.sec := rfl
@[simp] theorem State.updSec_out (s : State) (f : SecSt → SecSt) : (s.updSec f).out = s.out := rfl
@[simp] theorem State.updSec_fresh (s : State) (f : SecSt → SecSt) : (s.updSec f).fresh = s.fresh := rfl
@[simp] theorem State.updSec_pending (s : State) (f : SecSt → SecSt) : (s.updSec f).pending = s.pending := rfl
@[simp] theorem State.updSec_rd (s : State) (f : SecSt → SecSt) (g : Fld) (i j : Nat) : (s.updSec f).rd g i j = s.rd g i j := rfl

/-! ### State.updNet -/

@[simp] theorem State.updNet_chains (s : State) (f : NetSt → NetSt) : (s.updNet f).chains = s.chains := rfl
@[simp] theorem State.updNet_cfg (s : State) (f : NetSt → NetSt) : (s.updNet f).cfg = s.cfg := rfl
@[simp] theorem State.updNet_sts (s : State) (f : NetSt → NetSt) : (s.updNet f).sts = s.sts := rfl
@[simp] theorem State.updNet_latch (s : State) (f : NetSt → NetSt) : (s.updNet f).latch = s.latch := rfl
@[simp] theorem State.updNet_tally (s : State) (f : NetSt → NetSt) : (s.updNet f).tally = s.tally := rfl
@[simp] theorem State.updNet_mem (s : State) (f : NetSt → NetSt) : (s.updNet f).mem = s.mem := rfl
@[simp] theorem State.updNet_link (s : State) (f : NetSt → NetSt) : (s.updNet f).link = s.link := rfl
@[simp] theorem State.updNet_easels (s : State) (f : NetSt → NetSt) : (s.updNet f).easels = s.easels := rfl
@[simp] theorem State.updNet_notices (s : State) (f : NetSt → NetSt) : (s.updNet f).notices = s.notices := rfl
@[simp] theorem State.updNet_hbm (s : State) (f : NetSt → NetSt) : (s.updNet f).hbm = s.hbm := rfl
@[simp] theorem State.updNet_host (s : State) (f : NetSt → NetSt) : (s.updNet f).host = s.host := rfl
@[simp] theorem State.updNet_cond (s : State) (f : NetSt → NetSt) : (s.updNet f).cond = s.cond := rfl
@[simp] theorem State.updNet_condHalf (s : State) (f : NetSt → NetSt) : (s.updNet f).condHalf = s.condHalf := rfl
@[simp] theorem State.updNet_ledgerWait (s : State) (f : NetSt → NetSt) : (s.updNet f).ledgerWait = s.ledgerWait := rfl
@[simp] theorem State.updNet_brush (s : State) (f : NetSt → NetSt) : (s.updNet f).brush = s.brush := rfl
@[simp] theorem State.updNet_pal (s : State) (f : NetSt → NetSt) : (s.updNet f).pal = s.pal := rfl
@[simp] theorem State.updNet_views (s : State) (f : NetSt → NetSt) : (s.updNet f).views = s.views := rfl
@[simp] theorem State.updNet_pack (s : State) (f : NetSt → NetSt) : (s.updNet f).pack = s.pack := rfl
@[simp] theorem State.updNet_stor (s : State) (f : NetSt → NetSt) : (s.updNet f).stor = s.stor := rfl
@[simp] theorem State.updNet_prodKeys (s : State) (f : NetSt → NetSt) : (s.updNet f).prodKeys = s.prodKeys := rfl
@[simp] theorem State.updNet_vcd (s : State) (f : NetSt → NetSt) : (s.updNet f).vcd = s.vcd := rfl
@[simp] theorem State.updNet_outs (s : State) (f : NetSt → NetSt) : (s.updNet f).outs = s.outs := rfl
@[simp] theorem State.updNet_net (s : State) (f : NetSt → NetSt) : (s.updNet f).net = f s.net := rfl
@[simp] theorem State.updNet_clock (s : State) (f : NetSt → NetSt) : (s.updNet f).clock = s.clock := rfl
@[simp] theorem State.updNet_aud (s : State) (f : NetSt → NetSt) : (s.updNet f).aud = s.aud := rfl
@[simp] theorem State.updNet_sys (s : State) (f : NetSt → NetSt) : (s.updNet f).sys = s.sys := rfl
@[simp] theorem State.updNet_sec (s : State) (f : NetSt → NetSt) : (s.updNet f).sec = s.sec := rfl
@[simp] theorem State.updNet_out (s : State) (f : NetSt → NetSt) : (s.updNet f).out = s.out := rfl
@[simp] theorem State.updNet_fresh (s : State) (f : NetSt → NetSt) : (s.updNet f).fresh = s.fresh := rfl
@[simp] theorem State.updNet_pending (s : State) (f : NetSt → NetSt) : (s.updNet f).pending = s.pending := rfl
@[simp] theorem State.updNet_rd (s : State) (f : NetSt → NetSt) (g : Fld) (i j : Nat) : (s.updNet f).rd g i j = s.rd g i j := rfl

/-! ### State.updAud -/

@[simp] theorem State.updAud_chains (s : State) (f : AudSt → AudSt) : (s.updAud f).chains = s.chains := rfl
@[simp] theorem State.updAud_cfg (s : State) (f : AudSt → AudSt) : (s.updAud f).cfg = s.cfg := rfl
@[simp] theorem State.updAud_sts (s : State) (f : AudSt → AudSt) : (s.updAud f).sts = s.sts := rfl
@[simp] theorem State.updAud_latch (s : State) (f : AudSt → AudSt) : (s.updAud f).latch = s.latch := rfl
@[simp] theorem State.updAud_tally (s : State) (f : AudSt → AudSt) : (s.updAud f).tally = s.tally := rfl
@[simp] theorem State.updAud_mem (s : State) (f : AudSt → AudSt) : (s.updAud f).mem = s.mem := rfl
@[simp] theorem State.updAud_link (s : State) (f : AudSt → AudSt) : (s.updAud f).link = s.link := rfl
@[simp] theorem State.updAud_easels (s : State) (f : AudSt → AudSt) : (s.updAud f).easels = s.easels := rfl
@[simp] theorem State.updAud_notices (s : State) (f : AudSt → AudSt) : (s.updAud f).notices = s.notices := rfl
@[simp] theorem State.updAud_hbm (s : State) (f : AudSt → AudSt) : (s.updAud f).hbm = s.hbm := rfl
@[simp] theorem State.updAud_host (s : State) (f : AudSt → AudSt) : (s.updAud f).host = s.host := rfl
@[simp] theorem State.updAud_cond (s : State) (f : AudSt → AudSt) : (s.updAud f).cond = s.cond := rfl
@[simp] theorem State.updAud_condHalf (s : State) (f : AudSt → AudSt) : (s.updAud f).condHalf = s.condHalf := rfl
@[simp] theorem State.updAud_ledgerWait (s : State) (f : AudSt → AudSt) : (s.updAud f).ledgerWait = s.ledgerWait := rfl
@[simp] theorem State.updAud_brush (s : State) (f : AudSt → AudSt) : (s.updAud f).brush = s.brush := rfl
@[simp] theorem State.updAud_pal (s : State) (f : AudSt → AudSt) : (s.updAud f).pal = s.pal := rfl
@[simp] theorem State.updAud_views (s : State) (f : AudSt → AudSt) : (s.updAud f).views = s.views := rfl
@[simp] theorem State.updAud_pack (s : State) (f : AudSt → AudSt) : (s.updAud f).pack = s.pack := rfl
@[simp] theorem State.updAud_stor (s : State) (f : AudSt → AudSt) : (s.updAud f).stor = s.stor := rfl
@[simp] theorem State.updAud_prodKeys (s : State) (f : AudSt → AudSt) : (s.updAud f).prodKeys = s.prodKeys := rfl
@[simp] theorem State.updAud_vcd (s : State) (f : AudSt → AudSt) : (s.updAud f).vcd = s.vcd := rfl
@[simp] theorem State.updAud_outs (s : State) (f : AudSt → AudSt) : (s.updAud f).outs = s.outs := rfl
@[simp] theorem State.updAud_net (s : State) (f : AudSt → AudSt) : (s.updAud f).net = s.net := rfl
@[simp] theorem State.updAud_clock (s : State) (f : AudSt → AudSt) : (s.updAud f).clock = s.clock := rfl
@[simp] theorem State.updAud_aud (s : State) (f : AudSt → AudSt) : (s.updAud f).aud = f s.aud := rfl
@[simp] theorem State.updAud_sys (s : State) (f : AudSt → AudSt) : (s.updAud f).sys = s.sys := rfl
@[simp] theorem State.updAud_sec (s : State) (f : AudSt → AudSt) : (s.updAud f).sec = s.sec := rfl
@[simp] theorem State.updAud_out (s : State) (f : AudSt → AudSt) : (s.updAud f).out = s.out := rfl
@[simp] theorem State.updAud_fresh (s : State) (f : AudSt → AudSt) : (s.updAud f).fresh = s.fresh := rfl
@[simp] theorem State.updAud_pending (s : State) (f : AudSt → AudSt) : (s.updAud f).pending = s.pending := rfl
@[simp] theorem State.updAud_rd (s : State) (f : AudSt → AudSt) (g : Fld) (i j : Nat) : (s.updAud f).rd g i j = s.rd g i j := rfl

/-! ### State.updVcd -/

@[simp] theorem State.updVcd_chains (s : State) (f : VcdSt → VcdSt) : (s.updVcd f).chains = s.chains := rfl
@[simp] theorem State.updVcd_cfg (s : State) (f : VcdSt → VcdSt) : (s.updVcd f).cfg = s.cfg := rfl
@[simp] theorem State.updVcd_sts (s : State) (f : VcdSt → VcdSt) : (s.updVcd f).sts = s.sts := rfl
@[simp] theorem State.updVcd_latch (s : State) (f : VcdSt → VcdSt) : (s.updVcd f).latch = s.latch := rfl
@[simp] theorem State.updVcd_tally (s : State) (f : VcdSt → VcdSt) : (s.updVcd f).tally = s.tally := rfl
@[simp] theorem State.updVcd_mem (s : State) (f : VcdSt → VcdSt) : (s.updVcd f).mem = s.mem := rfl
@[simp] theorem State.updVcd_link (s : State) (f : VcdSt → VcdSt) : (s.updVcd f).link = s.link := rfl
@[simp] theorem State.updVcd_easels (s : State) (f : VcdSt → VcdSt) : (s.updVcd f).easels = s.easels := rfl
@[simp] theorem State.updVcd_notices (s : State) (f : VcdSt → VcdSt) : (s.updVcd f).notices = s.notices := rfl
@[simp] theorem State.updVcd_hbm (s : State) (f : VcdSt → VcdSt) : (s.updVcd f).hbm = s.hbm := rfl
@[simp] theorem State.updVcd_host (s : State) (f : VcdSt → VcdSt) : (s.updVcd f).host = s.host := rfl
@[simp] theorem State.updVcd_cond (s : State) (f : VcdSt → VcdSt) : (s.updVcd f).cond = s.cond := rfl
@[simp] theorem State.updVcd_condHalf (s : State) (f : VcdSt → VcdSt) : (s.updVcd f).condHalf = s.condHalf := rfl
@[simp] theorem State.updVcd_ledgerWait (s : State) (f : VcdSt → VcdSt) : (s.updVcd f).ledgerWait = s.ledgerWait := rfl
@[simp] theorem State.updVcd_brush (s : State) (f : VcdSt → VcdSt) : (s.updVcd f).brush = s.brush := rfl
@[simp] theorem State.updVcd_pal (s : State) (f : VcdSt → VcdSt) : (s.updVcd f).pal = s.pal := rfl
@[simp] theorem State.updVcd_views (s : State) (f : VcdSt → VcdSt) : (s.updVcd f).views = s.views := rfl
@[simp] theorem State.updVcd_pack (s : State) (f : VcdSt → VcdSt) : (s.updVcd f).pack = s.pack := rfl
@[simp] theorem State.updVcd_stor (s : State) (f : VcdSt → VcdSt) : (s.updVcd f).stor = s.stor := rfl
@[simp] theorem State.updVcd_prodKeys (s : State) (f : VcdSt → VcdSt) : (s.updVcd f).prodKeys = s.prodKeys := rfl
@[simp] theorem State.updVcd_vcd (s : State) (f : VcdSt → VcdSt) : (s.updVcd f).vcd = f s.vcd := rfl
@[simp] theorem State.updVcd_outs (s : State) (f : VcdSt → VcdSt) : (s.updVcd f).outs = s.outs := rfl
@[simp] theorem State.updVcd_net (s : State) (f : VcdSt → VcdSt) : (s.updVcd f).net = s.net := rfl
@[simp] theorem State.updVcd_clock (s : State) (f : VcdSt → VcdSt) : (s.updVcd f).clock = s.clock := rfl
@[simp] theorem State.updVcd_aud (s : State) (f : VcdSt → VcdSt) : (s.updVcd f).aud = s.aud := rfl
@[simp] theorem State.updVcd_sys (s : State) (f : VcdSt → VcdSt) : (s.updVcd f).sys = s.sys := rfl
@[simp] theorem State.updVcd_sec (s : State) (f : VcdSt → VcdSt) : (s.updVcd f).sec = s.sec := rfl
@[simp] theorem State.updVcd_out (s : State) (f : VcdSt → VcdSt) : (s.updVcd f).out = s.out := rfl
@[simp] theorem State.updVcd_fresh (s : State) (f : VcdSt → VcdSt) : (s.updVcd f).fresh = s.fresh := rfl
@[simp] theorem State.updVcd_pending (s : State) (f : VcdSt → VcdSt) : (s.updVcd f).pending = s.pending := rfl
@[simp] theorem State.updVcd_rd (s : State) (f : VcdSt → VcdSt) (g : Fld) (i j : Nat) : (s.updVcd f).rd g i j = s.rd g i j := rfl

/-! ### State.updStor -/

@[simp] theorem State.updStor_chains (s : State) (f : StoreSt → StoreSt) : (s.updStor f).chains = s.chains := rfl
@[simp] theorem State.updStor_cfg (s : State) (f : StoreSt → StoreSt) : (s.updStor f).cfg = s.cfg := rfl
@[simp] theorem State.updStor_sts (s : State) (f : StoreSt → StoreSt) : (s.updStor f).sts = s.sts := rfl
@[simp] theorem State.updStor_latch (s : State) (f : StoreSt → StoreSt) : (s.updStor f).latch = s.latch := rfl
@[simp] theorem State.updStor_tally (s : State) (f : StoreSt → StoreSt) : (s.updStor f).tally = s.tally := rfl
@[simp] theorem State.updStor_mem (s : State) (f : StoreSt → StoreSt) : (s.updStor f).mem = s.mem := rfl
@[simp] theorem State.updStor_link (s : State) (f : StoreSt → StoreSt) : (s.updStor f).link = s.link := rfl
@[simp] theorem State.updStor_easels (s : State) (f : StoreSt → StoreSt) : (s.updStor f).easels = s.easels := rfl
@[simp] theorem State.updStor_notices (s : State) (f : StoreSt → StoreSt) : (s.updStor f).notices = s.notices := rfl
@[simp] theorem State.updStor_hbm (s : State) (f : StoreSt → StoreSt) : (s.updStor f).hbm = s.hbm := rfl
@[simp] theorem State.updStor_host (s : State) (f : StoreSt → StoreSt) : (s.updStor f).host = s.host := rfl
@[simp] theorem State.updStor_cond (s : State) (f : StoreSt → StoreSt) : (s.updStor f).cond = s.cond := rfl
@[simp] theorem State.updStor_condHalf (s : State) (f : StoreSt → StoreSt) : (s.updStor f).condHalf = s.condHalf := rfl
@[simp] theorem State.updStor_ledgerWait (s : State) (f : StoreSt → StoreSt) : (s.updStor f).ledgerWait = s.ledgerWait := rfl
@[simp] theorem State.updStor_brush (s : State) (f : StoreSt → StoreSt) : (s.updStor f).brush = s.brush := rfl
@[simp] theorem State.updStor_pal (s : State) (f : StoreSt → StoreSt) : (s.updStor f).pal = s.pal := rfl
@[simp] theorem State.updStor_views (s : State) (f : StoreSt → StoreSt) : (s.updStor f).views = s.views := rfl
@[simp] theorem State.updStor_pack (s : State) (f : StoreSt → StoreSt) : (s.updStor f).pack = s.pack := rfl
@[simp] theorem State.updStor_stor (s : State) (f : StoreSt → StoreSt) : (s.updStor f).stor = f s.stor := rfl
@[simp] theorem State.updStor_prodKeys (s : State) (f : StoreSt → StoreSt) : (s.updStor f).prodKeys = s.prodKeys := rfl
@[simp] theorem State.updStor_vcd (s : State) (f : StoreSt → StoreSt) : (s.updStor f).vcd = s.vcd := rfl
@[simp] theorem State.updStor_outs (s : State) (f : StoreSt → StoreSt) : (s.updStor f).outs = s.outs := rfl
@[simp] theorem State.updStor_net (s : State) (f : StoreSt → StoreSt) : (s.updStor f).net = s.net := rfl
@[simp] theorem State.updStor_clock (s : State) (f : StoreSt → StoreSt) : (s.updStor f).clock = s.clock := rfl
@[simp] theorem State.updStor_aud (s : State) (f : StoreSt → StoreSt) : (s.updStor f).aud = s.aud := rfl
@[simp] theorem State.updStor_sys (s : State) (f : StoreSt → StoreSt) : (s.updStor f).sys = s.sys := rfl
@[simp] theorem State.updStor_sec (s : State) (f : StoreSt → StoreSt) : (s.updStor f).sec = s.sec := rfl
@[simp] theorem State.updStor_out (s : State) (f : StoreSt → StoreSt) : (s.updStor f).out = s.out := rfl
@[simp] theorem State.updStor_fresh (s : State) (f : StoreSt → StoreSt) : (s.updStor f).fresh = s.fresh := rfl
@[simp] theorem State.updStor_pending (s : State) (f : StoreSt → StoreSt) : (s.updStor f).pending = s.pending := rfl
@[simp] theorem State.updStor_rd (s : State) (f : StoreSt → StoreSt) (g : Fld) (i j : Nat) : (s.updStor f).rd g i j = s.rd g i j := rfl

/-! ### State.updEasel -/

@[simp] theorem State.updEasel_chains (s : State) (n : Nat) (f : EaselSt → EaselSt) : (s.updEasel n f).chains = s.chains := rfl
@[simp] theorem State.updEasel_cfg (s : State) (n : Nat) (f : EaselSt → EaselSt) : (s.updEasel n f).cfg = s.cfg := rfl
@[simp] theorem State.updEasel_sts (s : State) (n : Nat) (f : EaselSt → EaselSt) : (s.updEasel n f).sts = s.sts := rfl
@[simp] theorem State.updEasel_latch (s : State) (n : Nat) (f : EaselSt → EaselSt) : (s.updEasel n f).latch = s.latch := rfl
@[simp] theorem State.updEasel_tally (s : State) (n : Nat) (f : EaselSt → EaselSt) : (s.updEasel n f).tally = s.tally := rfl
@[simp] theorem State.updEasel_mem (s : State) (n : Nat) (f : EaselSt → EaselSt) : (s.updEasel n f).mem = s.mem := rfl
@[simp] theorem State.updEasel_link (s : State) (n : Nat) (f : EaselSt → EaselSt) : (s.updEasel n f).link = s.link := rfl
@[simp] theorem State.updEasel_easels (s : State) (n : Nat) (f : EaselSt → EaselSt) : (s.updEasel n f).easels = updAt s.easels n f := rfl
@[simp] theorem State.updEasel_notices (s : State) (n : Nat) (f : EaselSt → EaselSt) : (s.updEasel n f).notices = s.notices := rfl
@[simp] theorem State.updEasel_hbm (s : State) (n : Nat) (f : EaselSt → EaselSt) : (s.updEasel n f).hbm = s.hbm := rfl
@[simp] theorem State.updEasel_host (s : State) (n : Nat) (f : EaselSt → EaselSt) : (s.updEasel n f).host = s.host := rfl
@[simp] theorem State.updEasel_cond (s : State) (n : Nat) (f : EaselSt → EaselSt) : (s.updEasel n f).cond = s.cond := rfl
@[simp] theorem State.updEasel_condHalf (s : State) (n : Nat) (f : EaselSt → EaselSt) : (s.updEasel n f).condHalf = s.condHalf := rfl
@[simp] theorem State.updEasel_ledgerWait (s : State) (n : Nat) (f : EaselSt → EaselSt) : (s.updEasel n f).ledgerWait = s.ledgerWait := rfl
@[simp] theorem State.updEasel_brush (s : State) (n : Nat) (f : EaselSt → EaselSt) : (s.updEasel n f).brush = s.brush := rfl
@[simp] theorem State.updEasel_pal (s : State) (n : Nat) (f : EaselSt → EaselSt) : (s.updEasel n f).pal = s.pal := rfl
@[simp] theorem State.updEasel_views (s : State) (n : Nat) (f : EaselSt → EaselSt) : (s.updEasel n f).views = s.views := rfl
@[simp] theorem State.updEasel_pack (s : State) (n : Nat) (f : EaselSt → EaselSt) : (s.updEasel n f).pack = s.pack := rfl
@[simp] theorem State.updEasel_stor (s : State) (n : Nat) (f : EaselSt → EaselSt) : (s.updEasel n f).stor = s.stor := rfl
@[simp] theorem State.updEasel_prodKeys (s : State) (n : Nat) (f : EaselSt → EaselSt) : (s.updEasel n f).prodKeys = s.prodKeys := rfl
@[simp] theorem State.updEasel_vcd (s : State) (n : Nat) (f : EaselSt → EaselSt) : (s.updEasel n f).vcd = s.vcd := rfl
@[simp] theorem State.updEasel_outs (s : State) (n : Nat) (f : EaselSt → EaselSt) : (s.updEasel n f).outs = s.outs := rfl
@[simp] theorem State.updEasel_net (s : State) (n : Nat) (f : EaselSt → EaselSt) : (s.updEasel n f).net = s.net := rfl
@[simp] theorem State.updEasel_clock (s : State) (n : Nat) (f : EaselSt → EaselSt) : (s.updEasel n f).clock = s.clock := rfl
@[simp] theorem State.updEasel_aud (s : State) (n : Nat) (f : EaselSt → EaselSt) : (s.updEasel n f).aud = s.aud := rfl
@[simp] theorem State.updEasel_sys (s : State) (n : Nat) (f : EaselSt → EaselSt) : (s.updEasel n f).sys = s.sys := rfl
@[simp] theorem State.updEasel_sec (s : State) (n : Nat) (f : EaselSt → EaselSt) : (s.updEasel n f).sec = s.sec := rfl
@[simp] theorem State.updEasel_out (s : State) (n : Nat) (f : EaselSt → EaselSt) : (s.updEasel n f).out = s.out := rfl
@[simp] theorem State.updEasel_fresh (s : State) (n : Nat) (f : EaselSt → EaselSt) : (s.updEasel n f).fresh = s.fresh := rfl
@[simp] theorem State.updEasel_pending (s : State) (n : Nat) (f : EaselSt → EaselSt) : (s.updEasel n f).pending = s.pending := rfl
@[simp] theorem State.updEasel_rd (s : State) (n : Nat) (f : EaselSt → EaselSt) (g : Fld) (i j : Nat) : (s.updEasel n f).rd g i j = s.rd g i j := rfl

/-! ### State.updPal -/

@[simp] theorem State.updPal_chains (s : State) (n : Nat) (f : PalSt → PalSt) : (s.updPal n f).chains = s.chains := rfl
@[simp] theorem State.updPal_cfg (s : State) (n : Nat) (f : PalSt → PalSt) : (s.updPal n f).cfg = s.cfg := rfl
@[simp] theorem State.updPal_sts (s : State) (n : Nat) (f : PalSt → PalSt) : (s.updPal n f).sts = s.sts := rfl
@[simp] theorem State.updPal_latch (s : State) (n : Nat) (f : PalSt → PalSt) : (s.updPal n f).latch = s.latch := rfl
@[simp] theorem State.updPal_tally (s : State) (n : Nat) (f : PalSt → PalSt) : (s.updPal n f).tally = s.tally := rfl
@[simp] theorem State.updPal_mem (s : State) (n : Nat) (f : PalSt → PalSt) : (s.updPal n f).mem = s.mem := rfl
@[simp] theorem State.updPal_link (s : State) (n : Nat) (f : PalSt → PalSt) : (s.updPal n f).link = s.link := rfl
@[simp] theorem State.updPal_easels (s : State) (n : Nat) (f : PalSt → PalSt) : (s.updPal n f).easels = s.easels := rfl
@[simp] theorem State.updPal_notices (s : State) (n : Nat) (f : PalSt → PalSt) : (s.updPal n f).notices = s.notices := rfl
@[simp] theorem State.updPal_hbm (s : State) (n : Nat) (f : PalSt → PalSt) : (s.updPal n f).hbm = s.hbm := rfl
@[simp] theorem State.updPal_host (s : State) (n : Nat) (f : PalSt → PalSt) : (s.updPal n f).host = s.host := rfl
@[simp] theorem State.updPal_cond (s : State) (n : Nat) (f : PalSt → PalSt) : (s.updPal n f).cond = s.cond := rfl
@[simp] theorem State.updPal_condHalf (s : State) (n : Nat) (f : PalSt → PalSt) : (s.updPal n f).condHalf = s.condHalf := rfl
@[simp] theorem State.updPal_ledgerWait (s : State) (n : Nat) (f : PalSt → PalSt) : (s.updPal n f).ledgerWait = s.ledgerWait := rfl
@[simp] theorem State.updPal_brush (s : State) (n : Nat) (f : PalSt → PalSt) : (s.updPal n f).brush = s.brush := rfl
@[simp] theorem State.updPal_pal (s : State) (n : Nat) (f : PalSt → PalSt) : (s.updPal n f).pal = updAt s.pal n f := rfl
@[simp] theorem State.updPal_views (s : State) (n : Nat) (f : PalSt → PalSt) : (s.updPal n f).views = s.views := rfl
@[simp] theorem State.updPal_pack (s : State) (n : Nat) (f : PalSt → PalSt) : (s.updPal n f).pack = s.pack := rfl
@[simp] theorem State.updPal_stor (s : State) (n : Nat) (f : PalSt → PalSt) : (s.updPal n f).stor = s.stor := rfl
@[simp] theorem State.updPal_prodKeys (s : State) (n : Nat) (f : PalSt → PalSt) : (s.updPal n f).prodKeys = s.prodKeys := rfl
@[simp] theorem State.updPal_vcd (s : State) (n : Nat) (f : PalSt → PalSt) : (s.updPal n f).vcd = s.vcd := rfl
@[simp] theorem State.updPal_outs (s : State) (n : Nat) (f : PalSt → PalSt) : (s.updPal n f).outs = s.outs := rfl
@[simp] theorem State.updPal_net (s : State) (n : Nat) (f : PalSt → PalSt) : (s.updPal n f).net = s.net := rfl
@[simp] theorem State.updPal_clock (s : State) (n : Nat) (f : PalSt → PalSt) : (s.updPal n f).clock = s.clock := rfl
@[simp] theorem State.updPal_aud (s : State) (n : Nat) (f : PalSt → PalSt) : (s.updPal n f).aud = s.aud := rfl
@[simp] theorem State.updPal_sys (s : State) (n : Nat) (f : PalSt → PalSt) : (s.updPal n f).sys = s.sys := rfl
@[simp] theorem State.updPal_sec (s : State) (n : Nat) (f : PalSt → PalSt) : (s.updPal n f).sec = s.sec := rfl
@[simp] theorem State.updPal_out (s : State) (n : Nat) (f : PalSt → PalSt) : (s.updPal n f).out = s.out := rfl
@[simp] theorem State.updPal_fresh (s : State) (n : Nat) (f : PalSt → PalSt) : (s.updPal n f).fresh = s.fresh := rfl
@[simp] theorem State.updPal_pending (s : State) (n : Nat) (f : PalSt → PalSt) : (s.updPal n f).pending = s.pending := rfl
@[simp] theorem State.updPal_rd (s : State) (n : Nat) (f : PalSt → PalSt) (g : Fld) (i j : Nat) : (s.updPal n f).rd g i j = s.rd g i j := rfl

/-! ### State.updCond -/

@[simp] theorem State.updCond_chains (s : State) (n : Nat) (f : CondSt → CondSt) : (s.updCond n f).chains = s.chains := rfl
@[simp] theorem State.updCond_cfg (s : State) (n : Nat) (f : CondSt → CondSt) : (s.updCond n f).cfg = s.cfg := rfl
@[simp] theorem State.updCond_sts (s : State) (n : Nat) (f : CondSt → CondSt) : (s.updCond n f).sts = s.sts := rfl
@[simp] theorem State.updCond_latch (s : State) (n : Nat) (f : CondSt → CondSt) : (s.updCond n f).latch = s.latch := rfl
@[simp] theorem State.updCond_tally (s : State) (n : Nat) (f : CondSt → CondSt) : (s.updCond n f).tally = s.tally := rfl
@[simp] theorem State.updCond_mem (s : State) (n : Nat) (f : CondSt → CondSt) : (s.updCond n f).mem = s.mem := rfl
@[simp] theorem State.updCond_link (s : State) (n : Nat) (f : CondSt → CondSt) : (s.updCond n f).link = s.link := rfl
@[simp] theorem State.updCond_easels (s : State) (n : Nat) (f : CondSt → CondSt) : (s.updCond n f).easels = s.easels := rfl
@[simp] theorem State.updCond_notices (s : State) (n : Nat) (f : CondSt → CondSt) : (s.updCond n f).notices = s.notices := rfl
@[simp] theorem State.updCond_hbm (s : State) (n : Nat) (f : CondSt → CondSt) : (s.updCond n f).hbm = s.hbm := rfl
@[simp] theorem State.updCond_host (s : State) (n : Nat) (f : CondSt → CondSt) : (s.updCond n f).host = s.host := rfl
@[simp] theorem State.updCond_cond (s : State) (n : Nat) (f : CondSt → CondSt) : (s.updCond n f).cond = updAt s.cond n f := rfl
@[simp] theorem State.updCond_condHalf (s : State) (n : Nat) (f : CondSt → CondSt) : (s.updCond n f).condHalf = s.condHalf := rfl
@[simp] theorem State.updCond_ledgerWait (s : State) (n : Nat) (f : CondSt → CondSt) : (s.updCond n f).ledgerWait = s.ledgerWait := rfl
@[simp] theorem State.updCond_brush (s : State) (n : Nat) (f : CondSt → CondSt) : (s.updCond n f).brush = s.brush := rfl
@[simp] theorem State.updCond_pal (s : State) (n : Nat) (f : CondSt → CondSt) : (s.updCond n f).pal = s.pal := rfl
@[simp] theorem State.updCond_views (s : State) (n : Nat) (f : CondSt → CondSt) : (s.updCond n f).views = s.views := rfl
@[simp] theorem State.updCond_pack (s : State) (n : Nat) (f : CondSt → CondSt) : (s.updCond n f).pack = s.pack := rfl
@[simp] theorem State.updCond_stor (s : State) (n : Nat) (f : CondSt → CondSt) : (s.updCond n f).stor = s.stor := rfl
@[simp] theorem State.updCond_prodKeys (s : State) (n : Nat) (f : CondSt → CondSt) : (s.updCond n f).prodKeys = s.prodKeys := rfl
@[simp] theorem State.updCond_vcd (s : State) (n : Nat) (f : CondSt → CondSt) : (s.updCond n f).vcd = s.vcd := rfl
@[simp] theorem State.updCond_outs (s : State) (n : Nat) (f : CondSt → CondSt) : (s.updCond n f).outs = s.outs := rfl
@[simp] theorem State.updCond_net (s : State) (n : Nat) (f : CondSt → CondSt) : (s.updCond n f).net = s.net := rfl
@[simp] theorem State.updCond_clock (s : State) (n : Nat) (f : CondSt → CondSt) : (s.updCond n f).clock = s.clock := rfl
@[simp] theorem State.updCond_aud (s : State) (n : Nat) (f : CondSt → CondSt) : (s.updCond n f).aud = s.aud := rfl
@[simp] theorem State.updCond_sys (s : State) (n : Nat) (f : CondSt → CondSt) : (s.updCond n f).sys = s.sys := rfl
@[simp] theorem State.updCond_sec (s : State) (n : Nat) (f : CondSt → CondSt) : (s.updCond n f).sec = s.sec := rfl
@[simp] theorem State.updCond_out (s : State) (n : Nat) (f : CondSt → CondSt) : (s.updCond n f).out = s.out := rfl
@[simp] theorem State.updCond_fresh (s : State) (n : Nat) (f : CondSt → CondSt) : (s.updCond n f).fresh = s.fresh := rfl
@[simp] theorem State.updCond_pending (s : State) (n : Nat) (f : CondSt → CondSt) : (s.updCond n f).pending = s.pending := rfl
@[simp] theorem State.updCond_rd (s : State) (n : Nat) (f : CondSt → CondSt) (g : Fld) (i j : Nat) : (s.updCond n f).rd g i j = s.rd g i j := rfl

/-! ### State.updView -/

@[simp] theorem State.updView_chains (s : State) (n : Nat) (f : ViewSt → ViewSt) : (s.updView n f).chains = s.chains := rfl
@[simp] theorem State.updView_cfg (s : State) (n : Nat) (f : ViewSt → ViewSt) : (s.updView n f).cfg = s.cfg := rfl
@[simp] theorem State.updView_sts (s : State) (n : Nat) (f : ViewSt → ViewSt) : (s.updView n f).sts = s.sts := rfl
@[simp] theorem State.updView_latch (s : State) (n : Nat) (f : ViewSt → ViewSt) : (s.updView n f).latch = s.latch := rfl
@[simp] theorem State.updView_tally (s : State) (n : Nat) (f : ViewSt → ViewSt) : (s.updView n f).tally = s.tally := rfl
@[simp] theorem State.updView_mem (s : State) (n : Nat) (f : ViewSt → ViewSt) : (s.updView n f).mem = s.mem := rfl
@[simp] theorem State.updView_link (s : State) (n : Nat) (f : ViewSt → ViewSt) : (s.updView n f).link = s.link := rfl
@[simp] theorem State.updView_easels (s : State) (n : Nat) (f : ViewSt → ViewSt) : (s.updView n f).easels = s.easels := rfl
@[simp] theorem State.updView_notices (s : State) (n : Nat) (f : ViewSt → ViewSt) : (s.updView n f).notices = s.notices := rfl
@[simp] theorem State.updView_hbm (s : State) (n : Nat) (f : ViewSt → ViewSt) : (s.updView n f).hbm = s.hbm := rfl
@[simp] theorem State.updView_host (s : State) (n : Nat) (f : ViewSt → ViewSt) : (s.updView n f).host = s.host := rfl
@[simp] theorem State.updView_cond (s : State) (n : Nat) (f : ViewSt → ViewSt) : (s.updView n f).cond = s.cond := rfl
@[simp] theorem State.updView_condHalf (s : State) (n : Nat) (f : ViewSt → ViewSt) : (s.updView n f).condHalf = s.condHalf := rfl
@[simp] theorem State.updView_ledgerWait (s : State) (n : Nat) (f : ViewSt → ViewSt) : (s.updView n f).ledgerWait = s.ledgerWait := rfl
@[simp] theorem State.updView_brush (s : State) (n : Nat) (f : ViewSt → ViewSt) : (s.updView n f).brush = s.brush := rfl
@[simp] theorem State.updView_pal (s : State) (n : Nat) (f : ViewSt → ViewSt) : (s.updView n f).pal = s.pal := rfl
@[simp] theorem State.updView_views (s : State) (n : Nat) (f : ViewSt → ViewSt) : (s.updView n f).views = updAt s.views n f := rfl
@[simp] theorem State.updView_pack (s : State) (n : Nat) (f : ViewSt → ViewSt) : (s.updView n f).pack = s.pack := rfl
@[simp] theorem State.updView_stor (s : State) (n : Nat) (f : ViewSt → ViewSt) : (s.updView n f).stor = s.stor := rfl
@[simp] theorem State.updView_prodKeys (s : State) (n : Nat) (f : ViewSt → ViewSt) : (s.updView n f).prodKeys = s.prodKeys := rfl
@[simp] theorem State.updView_vcd (s : State) (n : Nat) (f : ViewSt → ViewSt) : (s.updView n f).vcd = s.vcd := rfl
@[simp] theorem State.updView_outs (s : State) (n : Nat) (f : ViewSt → ViewSt) : (s.updView n f).outs = s.outs := rfl
@[simp] theorem State.updView_net (s : State) (n : Nat) (f : ViewSt → ViewSt) : (s.updView n f).net = s.net := rfl
@[simp] theorem State.updView_clock (s : State) (n : Nat) (f : ViewSt → ViewSt) : (s.updView n f).clock = s.clock := rfl
@[simp] theorem State.updView_aud (s : State) (n : Nat) (f : ViewSt → ViewSt) : (s.updView n f).aud = s.aud := rfl
@[simp] theorem State.updView_sys (s : State) (n : Nat) (f : ViewSt → ViewSt) : (s.updView n f).sys = s.sys := rfl
@[simp] theorem State.updView_sec (s : State) (n : Nat) (f : ViewSt → ViewSt) : (s.updView n f).sec = s.sec := rfl
@[simp] theorem State.updView_out (s : State) (n : Nat) (f : ViewSt → ViewSt) : (s.updView n f).out = s.out := rfl
@[simp] theorem State.updView_fresh (s : State) (n : Nat) (f : ViewSt → ViewSt) : (s.updView n f).fresh = s.fresh := rfl
@[simp] theorem State.updView_pending (s : State) (n : Nat) (f : ViewSt → ViewSt) : (s.updView n f).pending = s.pending := rfl
@[simp] theorem State.updView_rd (s : State) (n : Nat) (f : ViewSt → ViewSt) (g : Fld) (i j : Nat) : (s.updView n f).rd g i j = s.rd g i j := rfl

/-! ### State.updPack -/

@[simp] theorem State.updPack_chains (s : State) (n : Nat) (f : PackSt → PackSt) : (s.updPack n f).chains = s.chains := rfl
@[simp] theorem State.updPack_cfg (s : State) (n : Nat) (f : PackSt → PackSt) : (s.updPack n f).cfg = s.cfg := rfl
@[simp] theorem State.updPack_sts (s : State) (n : Nat) (f : PackSt → PackSt) : (s.updPack n f).sts = s.sts := rfl
@[simp] theorem State.updPack_latch (s : State) (n : Nat) (f : PackSt → PackSt) : (s.updPack n f).latch = s.latch := rfl
@[simp] theorem State.updPack_tally (s : State) (n : Nat) (f : PackSt → PackSt) : (s.updPack n f).tally = s.tally := rfl
@[simp] theorem State.updPack_mem (s : State) (n : Nat) (f : PackSt → PackSt) : (s.updPack n f).mem = s.mem := rfl
@[simp] theorem State.updPack_link (s : State) (n : Nat) (f : PackSt → PackSt) : (s.updPack n f).link = s.link := rfl
@[simp] theorem State.updPack_easels (s : State) (n : Nat) (f : PackSt → PackSt) : (s.updPack n f).easels = s.easels := rfl
@[simp] theorem State.updPack_notices (s : State) (n : Nat) (f : PackSt → PackSt) : (s.updPack n f).notices = s.notices := rfl
@[simp] theorem State.updPack_hbm (s : State) (n : Nat) (f : PackSt → PackSt) : (s.updPack n f).hbm = s.hbm := rfl
@[simp] theorem State.updPack_host (s : State) (n : Nat) (f : PackSt → PackSt) : (s.updPack n f).host = s.host := rfl
@[simp] theorem State.updPack_cond (s : State) (n : Nat) (f : PackSt → PackSt) : (s.updPack n f).cond = s.cond := rfl
@[simp] theorem State.updPack_condHalf (s : State) (n : Nat) (f : PackSt → PackSt) : (s.updPack n f).condHalf = s.condHalf := rfl
@[simp] theorem State.updPack_ledgerWait (s : State) (n : Nat) (f : PackSt → PackSt) : (s.updPack n f).ledgerWait = s.ledgerWait := rfl
@[simp] theorem State.updPack_brush (s : State) (n : Nat) (f : PackSt → PackSt) : (s.updPack n f).brush = s.brush := rfl
@[simp] theorem State.updPack_pal (s : State) (n : Nat) (f : PackSt → PackSt) : (s.updPack n f).pal = s.pal := rfl
@[simp] theorem State.updPack_views (s : State) (n : Nat) (f : PackSt → PackSt) : (s.updPack n f).views = s.views := rfl
@[simp] theorem State.updPack_pack (s : State) (n : Nat) (f : PackSt → PackSt) : (s.updPack n f).pack = updAt s.pack n f := rfl
@[simp] theorem State.updPack_stor (s : State) (n : Nat) (f : PackSt → PackSt) : (s.updPack n f).stor = s.stor := rfl
@[simp] theorem State.updPack_prodKeys (s : State) (n : Nat) (f : PackSt → PackSt) : (s.updPack n f).prodKeys = s.prodKeys := rfl
@[simp] theorem State.updPack_vcd (s : State) (n : Nat) (f : PackSt → PackSt) : (s.updPack n f).vcd = s.vcd := rfl
@[simp] theorem State.updPack_outs (s : State) (n : Nat) (f : PackSt → PackSt) : (s.updPack n f).outs = s.outs := rfl
@[simp] theorem State.updPack_net (s : State) (n : Nat) (f : PackSt → PackSt) : (s.updPack n f).net = s.net := rfl
@[simp] theorem State.updPack_clock (s : State) (n : Nat) (f : PackSt → PackSt) : (s.updPack n f).clock = s.clock := rfl
@[simp] theorem State.updPack_aud (s : State) (n : Nat) (f : PackSt → PackSt) : (s.updPack n f).aud = s.aud := rfl
@[simp] theorem State.updPack_sys (s : State) (n : Nat) (f : PackSt → PackSt) : (s.updPack n f).sys = s.sys := rfl
@[simp] theorem State.updPack_sec (s : State) (n : Nat) (f : PackSt → PackSt) : (s.updPack n f).sec = s.sec := rfl
@[simp] theorem State.updPack_out (s : State) (n : Nat) (f : PackSt → PackSt) : (s.updPack n f).out = s.out := rfl
@[simp] theorem State.updPack_fresh (s : State) (n : Nat) (f : PackSt → PackSt) : (s.updPack n f).fresh = s.fresh := rfl
@[simp] theorem State.updPack_pending (s : State) (n : Nat) (f : PackSt → PackSt) : (s.updPack n f).pending = s.pending := rfl
@[simp] theorem State.updPack_rd (s : State) (n : Nat) (f : PackSt → PackSt) (g : Fld) (i j : Nat) : (s.updPack n f).rd g i j = s.rd g i j := rfl

/-! ### State.updOut -/

@[simp] theorem State.updOut_chains (s : State) (n : Nat) (f : OutSt → OutSt) : (s.updOut n f).chains = s.chains := rfl
@[simp] theorem State.updOut_cfg (s : State) (n : Nat) (f : OutSt → OutSt) : (s.updOut n f).cfg = s.cfg := rfl
@[simp] theorem State.updOut_sts (s : State) (n : Nat) (f : OutSt → OutSt) : (s.updOut n f).sts = s.sts := rfl
@[simp] theorem State.updOut_latch (s : State) (n : Nat) (f : OutSt → OutSt) : (s.updOut n f).latch = s.latch := rfl
@[simp] theorem State.updOut_tally (s : State) (n : Nat) (f : OutSt → OutSt) : (s.updOut n f).tally = s.tally := rfl
@[simp] theorem State.updOut_mem (s : State) (n : Nat) (f : OutSt → OutSt) : (s.updOut n f).mem = s.mem := rfl
@[simp] theorem State.updOut_link (s : State) (n : Nat) (f : OutSt → OutSt) : (s.updOut n f).link = s.link := rfl
@[simp] theorem State.updOut_easels (s : State) (n : Nat) (f : OutSt → OutSt) : (s.updOut n f).easels = s.easels := rfl
@[simp] theorem State.updOut_notices (s : State) (n : Nat) (f : OutSt → OutSt) : (s.updOut n f).notices = s.notices := rfl
@[simp] theorem State.updOut_hbm (s : State) (n : Nat) (f : OutSt → OutSt) : (s.updOut n f).hbm = s.hbm := rfl
@[simp] theorem State.updOut_host (s : State) (n : Nat) (f : OutSt → OutSt) : (s.updOut n f).host = s.host := rfl
@[simp] theorem State.updOut_cond (s : State) (n : Nat) (f : OutSt → OutSt) : (s.updOut n f).cond = s.cond := rfl
@[simp] theorem State.updOut_condHalf (s : State) (n : Nat) (f : OutSt → OutSt) : (s.updOut n f).condHalf = s.condHalf := rfl
@[simp] theorem State.updOut_ledgerWait (s : State) (n : Nat) (f : OutSt → OutSt) : (s.updOut n f).ledgerWait = s.ledgerWait := rfl
@[simp] theorem State.updOut_brush (s : State) (n : Nat) (f : OutSt → OutSt) : (s.updOut n f).brush = s.brush := rfl
@[simp] theorem State.updOut_pal (s : State) (n : Nat) (f : OutSt → OutSt) : (s.updOut n f).pal = s.pal := rfl
@[simp] theorem State.updOut_views (s : State) (n : Nat) (f : OutSt → OutSt) : (s.updOut n f).views = s.views := rfl
@[simp] theorem State.updOut_pack (s : State) (n : Nat) (f : OutSt → OutSt) : (s.updOut n f).pack = s.pack := rfl
@[simp] theorem State.updOut_stor (s : State) (n : Nat) (f : OutSt → OutSt) : (s.updOut n f).stor = s.stor := rfl
@[simp] theorem State.updOut_prodKeys (s : State) (n : Nat) (f : OutSt → OutSt) : (s.updOut n f).prodKeys = s.prodKeys := rfl
@[simp] theorem State.updOut_vcd (s : State) (n : Nat) (f : OutSt → OutSt) : (s.updOut n f).vcd = s.vcd := rfl
@[simp] theorem State.updOut_outs (s : State) (n : Nat) (f : OutSt → OutSt) : (s.updOut n f).outs = updAt s.outs n f := rfl
@[simp] theorem State.updOut_net (s : State) (n : Nat) (f : OutSt → OutSt) : (s.updOut n f).net = s.net := rfl
@[simp] theorem State.updOut_clock (s : State) (n : Nat) (f : OutSt → OutSt) : (s.updOut n f).clock = s.clock := rfl
@[simp] theorem State.updOut_aud (s : State) (n : Nat) (f : OutSt → OutSt) : (s.updOut n f).aud = s.aud := rfl
@[simp] theorem State.updOut_sys (s : State) (n : Nat) (f : OutSt → OutSt) : (s.updOut n f).sys = s.sys := rfl
@[simp] theorem State.updOut_sec (s : State) (n : Nat) (f : OutSt → OutSt) : (s.updOut n f).sec = s.sec := rfl
@[simp] theorem State.updOut_out (s : State) (n : Nat) (f : OutSt → OutSt) : (s.updOut n f).out = s.out := rfl
@[simp] theorem State.updOut_fresh (s : State) (n : Nat) (f : OutSt → OutSt) : (s.updOut n f).fresh = s.fresh := rfl
@[simp] theorem State.updOut_pending (s : State) (n : Nat) (f : OutSt → OutSt) : (s.updOut n f).pending = s.pending := rfl
@[simp] theorem State.updOut_rd (s : State) (n : Nat) (f : OutSt → OutSt) (g : Fld) (i j : Nat) : (s.updOut n f).rd g i j = s.rd g i j := rfl

/-! ### State.setChain -/

@[simp] theorem State.setChain_cfg (s : State) (k : Nat) (c : ChainSt) : (s.setChain k c).cfg = s.cfg := rfl
@[simp] theorem State.setChain_sts (s : State) (k : Nat) (c : ChainSt) : (s.setChain k c).sts = s.sts := rfl
@[simp] theorem State.setChain_latch (s : State) (k : Nat) (c : ChainSt) : (s.setChain k c).latch = s.latch := rfl
@[simp] theorem State.setChain_tally (s : State) (k : Nat) (c : ChainSt) : (s.setChain k c).tally = s.tally := rfl
@[simp] theorem State.setChain_mem (s : State) (k : Nat) (c : ChainSt) : (s.setChain k c).mem = s.mem := rfl
@[simp] theorem State.setChain_link (s : State) (k : Nat) (c : ChainSt) : (s.setChain k c).link = s.link := rfl
@[simp] theorem State.setChain_easels (s : State) (k : Nat) (c : ChainSt) : (s.setChain k c).easels = s.easels := rfl
@[simp] theorem State.setChain_notices (s : State) (k : Nat) (c : ChainSt) : (s.setChain k c).notices = s.notices := rfl
@[simp] theorem State.setChain_hbm (s : State) (k : Nat) (c : ChainSt) : (s.setChain k c).hbm = s.hbm := rfl
@[simp] theorem State.setChain_host (s : State) (k : Nat) (c : ChainSt) : (s.setChain k c).host = s.host := rfl
@[simp] theorem State.setChain_cond (s : State) (k : Nat) (c : ChainSt) : (s.setChain k c).cond = s.cond := rfl
@[simp] theorem State.setChain_condHalf (s : State) (k : Nat) (c : ChainSt) : (s.setChain k c).condHalf = s.condHalf := rfl
@[simp] theorem State.setChain_ledgerWait (s : State) (k : Nat) (c : ChainSt) : (s.setChain k c).ledgerWait = s.ledgerWait := rfl
@[simp] theorem State.setChain_brush (s : State) (k : Nat) (c : ChainSt) : (s.setChain k c).brush = s.brush := rfl
@[simp] theorem State.setChain_pal (s : State) (k : Nat) (c : ChainSt) : (s.setChain k c).pal = s.pal := rfl
@[simp] theorem State.setChain_views (s : State) (k : Nat) (c : ChainSt) : (s.setChain k c).views = s.views := rfl
@[simp] theorem State.setChain_pack (s : State) (k : Nat) (c : ChainSt) : (s.setChain k c).pack = s.pack := rfl
@[simp] theorem State.setChain_stor (s : State) (k : Nat) (c : ChainSt) : (s.setChain k c).stor = s.stor := rfl
@[simp] theorem State.setChain_prodKeys (s : State) (k : Nat) (c : ChainSt) : (s.setChain k c).prodKeys = s.prodKeys := rfl
@[simp] theorem State.setChain_vcd (s : State) (k : Nat) (c : ChainSt) : (s.setChain k c).vcd = s.vcd := rfl
@[simp] theorem State.setChain_outs (s : State) (k : Nat) (c : ChainSt) : (s.setChain k c).outs = s.outs := rfl
@[simp] theorem State.setChain_net (s : State) (k : Nat) (c : ChainSt) : (s.setChain k c).net = s.net := rfl
@[simp] theorem State.setChain_clock (s : State) (k : Nat) (c : ChainSt) : (s.setChain k c).clock = s.clock := rfl
@[simp] theorem State.setChain_aud (s : State) (k : Nat) (c : ChainSt) : (s.setChain k c).aud = s.aud := rfl
@[simp] theorem State.setChain_sys (s : State) (k : Nat) (c : ChainSt) : (s.setChain k c).sys = s.sys := rfl
@[simp] theorem State.setChain_sec (s : State) (k : Nat) (c : ChainSt) : (s.setChain k c).sec = s.sec := rfl
@[simp] theorem State.setChain_out (s : State) (k : Nat) (c : ChainSt) : (s.setChain k c).out = s.out := rfl
@[simp] theorem State.setChain_fresh (s : State) (k : Nat) (c : ChainSt) : (s.setChain k c).fresh = s.fresh := rfl
@[simp] theorem State.setChain_pending (s : State) (k : Nat) (c : ChainSt) : (s.setChain k c).pending = s.pending := rfl
@[simp] theorem State.setChain_rd (s : State) (k : Nat) (c : ChainSt) (g : Fld) (i j : Nat) : (s.setChain k c).rd g i j = s.rd g i j := rfl

end Sys2Proof.Machine
end

