-- ==== Sys2Proof/Laws/Regs.lean ====
section
/-! SUPPORT. The register stores: what a field reads after a field was set, and that each field keeps its one home. -/
namespace Sys2Proof.Machine

/-- A key without an entry reads the default. -/
theorem RegStore.get_of_forall_ne {l : RegStore} {k : RegKey} {d : Nat} (h : ∀ e ∈ l, e.1 ≠ k) : RegStore.get l k d = d := by
  induction l with
  | nil => rfl
  | cons e l ih =>
    unfold RegStore.get
    rw [if_neg (h e (by simp))]
    exact ih fun x hx => h x (by simp [hx])

/-- Dropping another key's entries changes nothing at a key. -/
theorem RegStore.get_filter_ne (l : RegStore) {k k' : RegKey} (d : Nat) (h : k' ≠ k) :
    RegStore.get (l.filter fun e => e.1 ≠ k) k' d = RegStore.get l k' d := by
  induction l with
  | nil => rfl
  | cons e l ih =>
    by_cases he : e.1 = k
    · rw [List.filter_cons_of_neg (by simp [he]), ih, RegStore.get, if_neg (by rw [he]; exact Ne.symm h)]
    · rw [List.filter_cons_of_pos (by simp [he]), RegStore.get, RegStore.get, ih]

/-- A key that was set reads its value. -/
@[simp] theorem RegStore.get_set_self (l : RegStore) (k : RegKey) (v d : Nat) : RegStore.get (l.set k v) k d = v := by
  simp [RegStore.set, RegStore.get]

/-- Every other key reads as before. -/
theorem RegStore.get_set_ne (l : RegStore) {k k' : RegKey} (v d : Nat) (h : k' ≠ k) :
    RegStore.get (l.set k v) k' d = RegStore.get l k' d := by
  rw [RegStore.set, RegStore.get, if_neg (Ne.symm h), RegStore.get_filter_ne l d h]

/-- The field that was set reads its value modulo 2 to its width. -/
@[simp] theorem State.rd_wr_self (s : State) (f : Fld) (v i j : Nat) : (s.wr f v i j).rd f i j = v % 2 ^ f.width := by
  unfold State.wr State.rd
  split <;> simp

/-- A field at another place, or of another instance, reads as before. -/
theorem State.rd_wr_ne (s : State) (f g : Fld) (v i j k l : Nat) (h : ¬ (g.base = f.base ∧ g.lo = f.lo ∧ k = i ∧ l = j)) :
    (s.wr f v i j).rd g k l = s.rd g k l := by
  have hk : (⟨g.base, g.lo, k, l⟩ : RegKey) ≠ ⟨f.base, f.lo, i, j⟩ := by
    intro e; injection e with a b c d; exact h ⟨a, b, c, d⟩
  unfold State.wr State.rd
  split <;> split <;> simp [RegStore.get_set_ne _ _ _ hk]

/-- A field of another register base reads as before. -/
theorem State.rd_wr_base (s : State) (f g : Fld) (v i j k l : Nat) (h : g.base ≠ f.base) : (s.wr f v i j).rd g k l = s.rd g k l :=
  s.rd_wr_ne f g v i j k l fun e => h e.1

/-- A store in which each field stands at most once keeps that when a field is set. -/
theorem RegStore.wf_set {l : RegStore} (h : RegStore.wf l = true) (k : RegKey) (v : Nat) : RegStore.wf (l.set k v) = true := by
  simp only [RegStore.wf, decide_eq_true_eq, RegStore.set, List.map_cons, List.nodup_cons] at h ⊢
  refine ⟨?_, h.sublist (List.filter_sublist.map _)⟩
  simp only [List.mem_map, List.mem_filter, decide_eq_true_eq, not_exists, not_and, and_imp]
  exact fun _ _ hx he => hx he

/-- Entries taken away leave each field standing at most once. -/
theorem RegStore.wf_filter {l : RegStore} (h : RegStore.wf l = true) (p : RegKey × Nat → Bool) : RegStore.wf (l.filter p) = true := by
  simp only [RegStore.wf, decide_eq_true_eq] at h ⊢
  exact h.sublist (List.filter_sublist.map _)

end Sys2Proof.Machine
end

