-- ==== Sys2Proof/Laws/Ops.lean ====
section
/-! SUPPORT. The shared operations: once each, everything the operation can do. -/
namespace Sys2Proof.Machine

/-! ### Fields that count, hold a flag or hold a peak -/

/-- A counter counts up and stays at its maximum. -/
@[simp] theorem State.rd_bump_self (s : State) (f : Fld) (i j n : Nat) :
    (s.bump f i j n).rd f i j = min (2 ^ f.width - 1) (s.rd f i j + n) := by
  rw [State.bump, State.rd_wr_self]
  have : 0 < 2 ^ f.width := Nat.two_pow_pos _
  exact Nat.mod_eq_of_lt (by omega)

/-- A counter of one field leaves every field at another place. -/
theorem State.rd_bump_ne (s : State) (f g : Fld) (i j n k l : Nat) (h : ¬ (g.base = f.base ∧ g.lo = f.lo ∧ k = i ∧ l = j)) :
    (s.bump f i j n).rd g k l = s.rd g k l := s.rd_wr_ne f g _ i j k l h

/-- A peak leaves every field at another place. -/
theorem State.rd_peak_ne (s : State) (f g : Fld) (v i k l : Nat) (h : ¬ (g.base = f.base ∧ g.lo = f.lo ∧ k = i ∧ l = 0)) :
    (s.peak f v i).rd g k l = s.rd g k l := s.rd_wr_ne f g _ i 0 k l h

/-- A flag with its companion count leaves every field that is neither. -/
theorem State.rd_flagCount_ne (s : State) (a b g : Fld) (i k l : Nat) (ha : ¬ (g.base = a.base ∧ g.lo = a.lo ∧ k = i ∧ l = 0))
    (hb : ¬ (g.base = b.base ∧ g.lo = b.lo ∧ k = i ∧ l = 0)) : (s.flagCount a b i).rd g k l = s.rd g k l := by
  rw [State.flagCount, State.rd_bump_ne _ _ _ _ _ _ _ _ hb, State.rd_wr_ne _ _ _ _ _ _ _ _ ha]

@[simp] theorem State.bump_mem (s : State) (f : Fld) (i j n : Nat) : (s.bump f i j n).mem = s.mem := by simp [State.bump]
@[simp] theorem State.bump_out (s : State) (f : Fld) (i j n : Nat) : (s.bump f i j n).out = s.out := by simp [State.bump]
@[simp] theorem State.bump_fresh (s : State) (f : Fld) (i j n : Nat) : (s.bump f i j n).fresh = s.fresh := by simp [State.bump]
@[simp] theorem State.bump_host (s : State) (f : Fld) (i j n : Nat) : (s.bump f i j n).host = s.host := by simp [State.bump]
@[simp] theorem State.bump_pending (s : State) (f : Fld) (i j n : Nat) : (s.bump f i j n).pending = s.pending := by simp [State.bump]
@[simp] theorem State.peak_mem (s : State) (f : Fld) (v i : Nat) : (s.peak f v i).mem = s.mem := by simp [State.peak]
@[simp] theorem State.peak_out (s : State) (f : Fld) (v i : Nat) : (s.peak f v i).out = s.out := by simp [State.peak]
@[simp] theorem State.peak_fresh (s : State) (f : Fld) (v i : Nat) : (s.peak f v i).fresh = s.fresh := by simp [State.peak]
@[simp] theorem State.peak_host (s : State) (f : Fld) (v i : Nat) : (s.peak f v i).host = s.host := by simp [State.peak]
@[simp] theorem State.peak_pending (s : State) (f : Fld) (v i : Nat) : (s.peak f v i).pending = s.pending := by simp [State.peak]
@[simp] theorem State.flagCount_mem (s : State) (a b : Fld) (i : Nat) : (s.flagCount a b i).mem = s.mem := by simp [State.flagCount]
@[simp] theorem State.flagCount_host (s : State) (a b : Fld) (i : Nat) : (s.flagCount a b i).host = s.host := by simp [State.flagCount]

/-! ### A change of one entry of a list -/

/-- Changing an entry keeps the length. -/
@[simp] theorem updAt_length {α : Type} (l : List α) (n : Nat) (f : α → α) : (updAt l n f).length = l.length := List.length_modify ..

/-- The changed entry. -/
theorem updAt_getD_self {α : Type} (l : List α) (n : Nat) (f : α → α) (d : α) (h : n < l.length) :
    (updAt l n f).getD n d = f (l.getD n d) := by
  simp [updAt, List.getD_eq_getElem?_getD, h]

/-- Every other entry. -/
theorem updAt_getD_ne {α : Type} (l : List α) (n m : Nat) (f : α → α) (d : α) (h : m ≠ n) :
    (updAt l n f).getD m d = l.getD m d := by
  simp [updAt, List.getD_eq_getElem?_getD, Ne.symm h]

/-! ### Records and events -/

/-- A dropped record sets evq_lost, counts, and leaves the waiting records. -/
theorem State.dropRecord_frame (s : State) : s.dropRecord.mem = s.mem ∧ s.dropRecord.out = s.out ∧ s.dropRecord.fresh = s.fresh
    ∧ s.dropRecord.pending = s.pending ∧ s.dropRecord.host = { s.host with lost := s.host.lost + 1 } := by
  simp [State.dropRecord]

/-- The record of an event raised now. -/
theorem State.raise_eq (s : State) (half code : Nat) (payload : List Byte) : ∃ r : Rec,
    (r.event = true ∧ r.tag = code ∧ r.half = half ∧ r.payload = padTo 16 payload ∧ r.status = s.rd F.GLB_EV_SEQ_next ∧ r.quiet = s.quiet half)
    ∧ s.raise half code payload = if s.quiet half && decide (heldArea ≤ s.heldCount half)
        then (s.wr F.GLB_EV_SEQ_next (s.rd F.GLB_EV_SEQ_next + 1)).tick.dropRecord
        else (s.wr F.GLB_EV_SEQ_next (s.rd F.GLB_EV_SEQ_next + 1)).tick.updHost fun h => { h with records := h.records ++ [r] } :=
  ⟨{ event := true, half := half, cq := 0, tag := code, source := half, status := s.rd F.GLB_EV_SEQ_next, spec0 := 0, spec1 := 0,
     ring := none, cmd := none, payload := padTo 16 payload, stamp := some s.now, step := 0, unlocked := s.ptpUnlocked, quiet := s.quiet half,
     full := false },
    ⟨rfl, rfl, rfl, rfl, rfl, rfl⟩, rfl⟩

/-- Raising an event outside quiet: the event waits as the newest record. -/
theorem State.raise_awake (s : State) (half code : Nat) (payload : List Byte) (h : s.quiet half = false) :
    ∃ r, (s.raise half code payload).host.records = s.host.records ++ [r] ∧ r.event = true ∧ r.tag = code ∧ r.half = half
      ∧ r.payload = padTo 16 payload := by
  obtain ⟨r, hr, he⟩ := s.raise_eq half code payload
  exact ⟨r, by simp [he, h], hr.1, hr.2.1, hr.2.2.1, hr.2.2.2.1⟩

/-- Raising an event touches no HBM byte, shows nothing, and takes one free value. -/
theorem State.raise_frame (s : State) (half code : Nat) (payload : List Byte) :
    (s.raise half code payload).mem = s.mem ∧ (s.raise half code payload).out = s.out
      ∧ (s.raise half code payload).fresh = s.fresh + 1 ∧ (s.raise half code payload).pending = s.pending := by
  obtain ⟨r, -, he⟩ := s.raise_eq half code payload
  rw [he]
  split <;> simp [State.dropRecord_frame]

/-- Raising an event leaves every register field but the three of an event. -/
theorem State.raise_rd (s : State) (half code : Nat) (payload : List Byte) (g : Fld) (i j : Nat)
    (h1 : ¬ (g.base = F.GLB_EV_SEQ_next.base ∧ g.lo = F.GLB_EV_SEQ_next.lo ∧ i = 0 ∧ j = 0))
    (h2 : ¬ (g.base = F.RING_EVQ_LOST_count.base ∧ g.lo = F.RING_EVQ_LOST_count.lo ∧ i = 0 ∧ j = 0))
    (h3 : ¬ (g.base = F.RING_FLAGS_evq_lost.base ∧ g.lo = F.RING_FLAGS_evq_lost.lo ∧ i = 0 ∧ j = 0)) :
    (s.raise half code payload).rd g i j = s.rd g i j := by
  obtain ⟨r, -, he⟩ := s.raise_eq half code payload
  rw [he]
  split
  · rw [State.dropRecord, State.updHost_rd, State.rd_bump_ne _ _ _ _ _ _ _ _ h2, State.rd_wr_ne _ _ _ _ _ _ _ _ h3, State.tick_rd,
      State.rd_wr_ne _ _ _ _ _ _ _ _ h1]
  · rw [State.updHost_rd, State.tick_rd, State.rd_wr_ne _ _ _ _ _ _ _ _ h1]

/-- What a completion record does: on a half in quiet it takes a free value for its stamp, and it waits, or is dropped when unsolicited
with the held area full. -/
theorem State.post_eq (s : State) (r : Rec) : ∃ (t : State) (r' : Rec),
    (t = s ∨ t = s.tick) ∧ (s.quiet r.half = false → t = s ∧ r' = { r with quiet := false, stamp := none, step := 0, unlocked := false })
    ∧ (r'.event = r.event ∧ r'.cmd = r.cmd ∧ r'.cq = r.cq ∧ r'.tag = r.tag ∧ r'.source = r.source ∧ r'.status = r.status
      ∧ r'.spec0 = r.spec0 ∧ r'.spec1 = r.spec1)
    ∧ s.post r = if s.quiet r.half && r.cmd.isNone && decide (r.source / 64 = 2) && decide (heldArea ≤ s.heldCount r.half) then t.dropRecord
        else t.updHost fun h => { h with records := h.records ++ [r'] } := by
  refine ⟨if s.quiet r.half then s.tick else s, { r with
    quiet := s.quiet r.half
    stamp := if s.quiet r.half then some s.now else none
    step := if s.quiet r.half then s.rd F.GLB_PACE_DEV_code else 0
    unlocked := s.quiet r.half && s.ptpUnlocked }, ?_, ?_, ⟨rfl, rfl, rfl, rfl, rfl, rfl, rfl, rfl⟩, rfl⟩
  · split
    · exact Or.inr rfl
    · exact Or.inl rfl
  · intro h
    simp [h]

/-- A completion record outside quiet waits as the newest record, and nothing else changes. -/
theorem State.post_awake (s : State) (r : Rec) (h : s.quiet r.half = false) :
    s.post r = s.updHost fun x => { x with records := x.records ++ [{ r with quiet := false, stamp := none, step := 0, unlocked := false }] } := by
  obtain ⟨t, r', -, ha, -, he⟩ := s.post_eq r
  obtain ⟨rfl, rfl⟩ := ha h
  rw [he, h]
  simp

/-- A record of a command waits as the newest record, whether or not its half is in quiet. -/
theorem State.post_cmd (s : State) (r : Rec) (h : r.cmd.isNone = false) :
    ∃ r', (s.post r).host.records = s.host.records ++ [r'] ∧ r'.event = r.event ∧ r'.cmd = r.cmd ∧ r'.cq = r.cq ∧ r'.tag = r.tag
      ∧ r'.source = r.source ∧ r'.status = r.status ∧ r'.spec0 = r.spec0 ∧ r'.spec1 = r.spec1 := by
  obtain ⟨t, r', ht, -, hr, he⟩ := s.post_eq r
  refine ⟨r', ?_, hr⟩
  rw [he, h]
  rcases ht with rfl | rfl <;> simp

/-- A record touches no HBM byte, shows nothing, and takes no free value twice. -/
theorem State.post_frame (s : State) (r : Rec) :
    (s.post r).mem = s.mem ∧ (s.post r).out = s.out ∧ s.fresh ≤ (s.post r).fresh ∧ (s.post r).pending = s.pending := by
  obtain ⟨t, r', ht, -, -, he⟩ := s.post_eq r
  rw [he]
  rcases ht with rfl | rfl <;> split <;> simp [State.dropRecord_frame]

/-! ### Host commands -/

/-- A change of one command touches the ring engine alone. -/
@[simp] theorem State.updCmd_rd (s : State) (id : Nat) (f : Cmd → Cmd) (g : Fld) (i j : Nat) : (s.updCmd id f).rd g i j = s.rd g i j := rfl
@[simp] theorem State.updCmd_mem (s : State) (id : Nat) (f : Cmd → Cmd) : (s.updCmd id f).mem = s.mem := rfl
@[simp] theorem State.updCmd_out (s : State) (id : Nat) (f : Cmd → Cmd) : (s.updCmd id f).out = s.out := rfl
@[simp] theorem State.updCmd_fresh (s : State) (id : Nat) (f : Cmd → Cmd) : (s.updCmd id f).fresh = s.fresh := rfl
@[simp] theorem State.updCmd_pending (s : State) (id : Nat) (f : Cmd → Cmd) : (s.updCmd id f).pending = s.pending := rfl
@[simp] theorem State.updCmd_records (s : State) (id : Nat) (f : Cmd → Cmd) : (s.updCmd id f).host.records = s.host.records := rfl

/-- A command that waits on nothing starts. -/
theorem State.startCmd_of_waits {s : State} {id opcode : Nat} {c : Cmd} (f : Cmd → State → State) (h : s.Waits id opcode c) :
    s.startCmd id opcode f = f c (s.updCmd id fun c => { c with stage := .running }) := by
  simp [State.startCmd, h.1, h.2.1, h.2.2]

/-- A running command is carried on. -/
theorem State.withCmd_of_runs {s : State} {id opcode : Nat} {c : Cmd} (f : Cmd → State → State) (h : s.Runs id opcode c) :
    s.withCmd id f = f c s := by
  simp [State.withCmd, h.1, h.2.2]

/-- The end of a command that is neither ended nor muted queues its completion record. -/
theorem State.complete_answered {s : State} {id : Nat} {c : Cmd} (status spec0 spec1 half : Nat) (h : s.cmd id = some c)
    (he : c.stage ≠ .ended) (hm : c.mute = false) : (s.complete id status spec0 spec1 half).Answered c status spec0 spec1 := by
  simp only [State.complete, h, if_neg he, hm, Bool.false_eq_true, if_false]
  obtain ⟨r, hr, h1, h2, h3, h4, h5, h6, h7, h8⟩ := State.post_cmd (s.updCmd id fun c => { c with stage := .ended })
    { event := false, half := half, cq := c.cq, tag := c.tag, source := c.ring, status := status, spec0 := spec0, spec1 := spec1,
      ring := some c.ring, cmd := some c.id, payload := [], stamp := none, step := 0, quiet := false, full := false } rfl
  exact ⟨r, by rw [hr]; simp, h1, h2, h3, h4, h5, h6, h7, h8⟩

end Sys2Proof.Machine
end

