-- ==== Sys2Proof/Laws/Keeps.lean ====
section
/-! SUPPORT. What every command keeps, in a form that composes: the canonical form of a state, and what stands around a command. Each
lemma takes a state that keeps what stood before and says that one operation more still keeps it. -/
namespace Sys2Proof.Machine

/-- From s to t the queue, what was shown and the free values are carried on, and the canonical form is kept. -/
structure State.Keeps (s t : State) : Prop where
  carries : s.Carries t
  wf : s.wf = true → t.wf = true

/-- The parts of the canonical form. -/
theorem State.wf_iff (s : State) :
    s.wf = true ↔ s.mem.wf = true ∧ RegStore.wf s.cfg = true ∧ RegStore.wf s.sts = true ∧ RegStore.wf s.latch = true := by
  simp [State.wf, and_assoc]

theorem State.Keeps.refl (s : State) : s.Keeps s := ⟨⟨rfl, List.suffix_refl _, Nat.le_refl _⟩, id⟩

theorem State.Keeps.trans {s t u : State} (h : s.Keeps t) (k : t.Keeps u) : s.Keeps u :=
  ⟨⟨k.carries.queue.trans h.carries.queue, h.carries.shown.trans k.carries.shown, Nat.le_trans h.carries.fresh k.carries.fresh⟩,
    fun w => k.wf (h.wf w)⟩

/-- A state that differs in none of the seven parts the relation speaks of. -/
theorem State.Keeps.same {s₀ s t : State} (h : s₀.Keeps s) (h1 : t.pending = s.pending := by rfl) (h2 : t.out = s.out := by rfl)
    (h3 : t.fresh = s.fresh := by rfl) (h4 : t.mem = s.mem := by rfl) (h5 : t.cfg = s.cfg := by rfl) (h6 : t.sts = s.sts := by rfl)
    (h7 : t.latch = s.latch := by rfl) : s₀.Keeps t := by
  refine h.trans ⟨⟨h1, h2 ▸ List.suffix_refl _, Nat.le_of_eq h3.symm⟩, ?_⟩
  rw [State.wf, State.wf, h4, h5, h6, h7]
  exact id

/-! ### One update -/

theorem State.wr_keeps {s₀ s : State} (h : s₀.Keeps s) (f : Fld) (v i j : Nat) : s₀.Keeps (s.wr f v i j) := by
  refine h.trans ⟨⟨by simp, by simp, by simp⟩, ?_⟩
  simp only [State.wf_iff]
  rintro ⟨a, b, c, d⟩
  refine ⟨by simpa using a, ?_, ?_, by simpa using d⟩ <;> unfold State.wr <;> split
  · exact RegStore.wf_set b _ _
  · exact b
  · exact c
  · exact RegStore.wf_set c _ _

theorem State.emit_keeps {s₀ s : State} (h : s₀.Keeps s) (e : Emit) : s₀.Keeps (s.emit e) :=
  h.trans ⟨⟨rfl, List.suffix_cons _ _, Nat.le_refl _⟩, id⟩

theorem State.tick_keeps {s₀ s : State} (h : s₀.Keeps s) : s₀.Keeps s.tick :=
  h.trans ⟨⟨rfl, List.suffix_refl _, Nat.le_succ _⟩, id⟩

theorem State.store_keeps {s₀ s : State} (h : s₀.Keeps s) (a : Nat) (bs : List Byte) : s₀.Keeps (s.store a bs) := by
  refine h.trans ⟨⟨rfl, List.suffix_refl _, Nat.le_refl _⟩, ?_⟩
  simp only [State.wf_iff]
  exact fun w => ⟨Memory.writeList_wf w.1 _ _, w.2⟩

theorem State.latchSet_keeps {s₀ s : State} (h : s₀.Keeps s) (o v : Nat) : s₀.Keeps (s.latchSet o v) := by
  refine h.trans ⟨⟨rfl, List.suffix_refl _, Nat.le_refl _⟩, ?_⟩
  simp only [State.wf_iff]
  exact fun w => ⟨w.1, w.2.1, w.2.2.1, RegStore.wf_set w.2.2.2 _ _⟩

theorem State.clearSts_keeps {s₀ s : State} (h : s₀.Keeps s) (d : Nat) : s₀.Keeps (s.clearSts d) := by
  refine h.trans ⟨⟨rfl, List.suffix_refl _, Nat.le_refl _⟩, ?_⟩
  simp only [State.wf_iff]
  exact fun w => ⟨w.1, w.2.1, RegStore.wf_filter w.2.2.1 _, w.2.2.2⟩

theorem State.updHost_keeps {s₀ s : State} (h : s₀.Keeps s) (f : HostSt → HostSt) : s₀.Keeps (s.updHost f) := h.same

theorem State.ledgerAdd_keeps {s₀ s : State} (h : s₀.Keeps s) (k y : Nat) (v : List Nat) : s₀.Keeps (s.ledgerAdd k y v) := h.same

/-! ### Updates in order -/

theorem State.foldl_keeps {α : Type} {s₀ s : State} (h : s₀.Keeps s) (f : State → α → State) (l : List α)
    (hf : ∀ t a, s₀.Keeps t → s₀.Keeps (f t a)) : s₀.Keeps (l.foldl f s) := by
  induction l generalizing s with
  | nil => exact h
  | cons a l ih => exact ih (hf _ _ h)

theorem State.foldl_fst_keeps {α β : Type} {s₀ : State} (f : State × β → α → State × β) (l : List α)
    (hf : ∀ p a, s₀.Keeps p.1 → s₀.Keeps (f p a).1) (p : State × β) (h : s₀.Keeps p.1) : s₀.Keeps (l.foldl f p).1 := by
  induction l generalizing p with
  | nil => exact h
  | cons a l ih => exact ih _ (hf _ _ h)

theorem State.each_keeps {α : Type} {s₀ s : State} (h : s₀.Keeps s) (l : List α) (f : State → α → State)
    (hf : ∀ t a, s₀.Keeps t → s₀.Keeps (f t a)) : s₀.Keeps (s.each l f) := State.foldl_keeps h f l hf

theorem State.whenUp_keeps {s₀ s : State} (h : s₀.Keeps s) (d : Nat) (f : State → State) (hf : ∀ t, s₀.Keeps t → s₀.Keeps (f t)) :
    s₀.Keeps (s.whenUp d f) := by
  unfold State.whenUp
  split
  · exact hf s h
  · exact h

theorem State.whenB_keeps {s₀ s : State} (h : s₀.Keeps s) (b : Bool) (f : State → State) (hf : ∀ t, s₀.Keeps t → s₀.Keeps (f t)) :
    s₀.Keeps (s.whenB b f) := by
  unfold State.whenB
  split
  · exact hf s h
  · exact h

/-! ### Fields, records and host commands -/

theorem State.bump_keeps {s₀ s : State} (h : s₀.Keeps s) (f : Fld) (i j n : Nat) : s₀.Keeps (s.bump f i j n) := State.wr_keeps h ..

theorem State.peak_keeps {s₀ s : State} (h : s₀.Keeps s) (f : Fld) (v i : Nat) : s₀.Keeps (s.peak f v i) := State.wr_keeps h ..

theorem State.flagCount_keeps {s₀ s : State} (h : s₀.Keeps s) (a b : Fld) (i : Nat) : s₀.Keeps (s.flagCount a b i) :=
  State.bump_keeps (State.wr_keeps h ..) ..

theorem State.dropRecord_keeps {s₀ s : State} (h : s₀.Keeps s) : s₀.Keeps s.dropRecord :=
  State.updHost_keeps (State.bump_keeps (State.wr_keeps h ..) ..) _

theorem State.raise_keeps {s₀ s : State} (h : s₀.Keeps s) (half code : Nat) (p : List Byte) : s₀.Keeps (s.raise half code p) := by
  obtain ⟨r, -, e⟩ := s.raise_eq half code p
  rw [e]
  split
  · exact State.dropRecord_keeps (State.tick_keeps (State.wr_keeps h ..))
  · exact State.updHost_keeps (State.tick_keeps (State.wr_keeps h ..)) _

theorem State.post_keeps {s₀ s : State} (h : s₀.Keeps s) (r : Rec) : s₀.Keeps (s.post r) := by
  obtain ⟨t, r', ht, -, -, e⟩ := s.post_eq r
  have k : s₀.Keeps t := by
    rcases ht with rfl | rfl
    · exact h
    · exact State.tick_keeps h
  rw [e]
  split
  · exact State.dropRecord_keeps k
  · exact State.updHost_keeps k _

theorem State.postUnsolicited_keeps {s₀ s : State} (h : s₀.Keeps s) (half cq producer status a b : Nat) :
    s₀.Keeps (s.postUnsolicited half cq producer status a b) := State.post_keeps h _

theorem State.updCmd_keeps {s₀ s : State} (h : s₀.Keeps s) (id : Nat) (f : Cmd → Cmd) : s₀.Keeps (s.updCmd id f) := h.same

theorem State.passPoint_keeps {s₀ s : State} (h : s₀.Keeps s) (id : Nat) : s₀.Keeps (s.passPoint id) := h.same

theorem State.countOutstanding_keeps {s₀ s : State} (h : s₀.Keeps s) : s₀.Keeps s.countOutstanding :=
  State.peak_keeps (State.wr_keeps h ..) ..

theorem State.dropCmd_keeps {s₀ s : State} (h : s₀.Keeps s) (id : Nat) : s₀.Keeps (s.dropCmd id) :=
  State.countOutstanding_keeps (State.updHost_keeps h _)

theorem State.cmdRecorded_keeps {s₀ s : State} (h : s₀.Keeps s) (id : Nat) : s₀.Keeps (s.cmdRecorded id) := by
  unfold State.cmdRecorded
  split
  · split
    · exact State.countOutstanding_keeps (State.updCmd_keeps h ..)
    · exact State.dropCmd_keeps h id
  · exact h

theorem State.complete_keeps {s₀ s : State} (h : s₀.Keeps s) (id status a b half : Nat) : s₀.Keeps (s.complete id status a b half) := by
  unfold State.complete
  split
  · exact h
  · split
    · exact h
    · split
      · split
        · exact State.updCmd_keeps h ..
        · exact State.dropCmd_keeps h id
      · exact State.post_keeps (State.updCmd_keeps h ..) _

theorem State.startCmd_keeps {s₀ s : State} (h : s₀.Keeps s) (id opcode : Nat) (f : Cmd → State → State)
    (hf : ∀ c t, s₀.Keeps t → s₀.Keeps (f c t)) : s₀.Keeps (s.startCmd id opcode f) := by
  unfold State.startCmd
  split
  · exact h
  · split
    · exact hf _ _ (State.updCmd_keeps h ..)
    · exact h

theorem State.withCmd_keeps {s₀ s : State} (h : s₀.Keeps s) (id : Nat) (f : Cmd → State → State)
    (hf : ∀ c t, s₀.Keeps t → s₀.Keeps (f c t)) : s₀.Keeps (s.withCmd id f) := by
  unfold State.withCmd
  split
  · exact h
  · split
    · exact hf _ _ h
    · exact h

end Sys2Proof.Machine
end

