-- ==== Sys2Proof/Laws/Frames.lean ====
section
/-! SUPPORT. The frame of a command over register fields and HBM, composed update by update; and a chain after it was set. -/
namespace Sys2Proof.Machine

/-- A change that leaves HBM and every register store leaves every field. -/
theorem State.Only.same {s t u : State} {l : List (Fld × Nat)} (h : s.Only t l) (h1 : u.mem = t.mem := by rfl)
    (h2 : u.cfg = t.cfg := by rfl) (h3 : u.sts = t.sts := by rfl) : s.Only u l := by
  refine ⟨h1.trans h.1, fun f i j hf => ?_⟩
  rw [← h.2 f i j hf]
  unfold State.rd
  rw [h2, h3]

theorem State.Only.refl (s : State) (l : List (Fld × Nat)) : s.Only s l := ⟨rfl, fun _ _ _ _ => rfl⟩

/-- A frame with more fields listed says less. -/
theorem State.Only.mono {s t : State} {l m : List (Fld × Nat)} (h : s.Only t l) (hm : ∀ x ∈ l, x ∈ m) : s.Only t m :=
  ⟨h.1, fun f i j hf => h.2 f i j fun x hx => hf x (hm x hx)⟩

theorem State.Only.trans {s t u : State} {l : List (Fld × Nat)} (h : s.Only t l) (k : t.Only u l) : s.Only u l :=
  ⟨k.1.trans h.1, fun f i j hf => (k.2 f i j hf).trans (h.2 f i j hf)⟩

/-- A field set is within a frame that lists it. -/
theorem State.Only.wr {s t : State} {l : List (Fld × Nat)} (h : s.Only t l) (f : Fld) (v i j : Nat) (hf : (f, i) ∈ l) :
    s.Only (t.wr f v i j) l := by
  refine ⟨(State.wr_mem ..).trans h.1, fun g k m hg => ?_⟩
  rw [State.rd_wr_ne, h.2 g k m hg]
  exact fun e => hg _ hf ⟨e.1.symm, e.2.1.symm, e.2.2.1.symm⟩

theorem State.Only.bump {s t : State} {l : List (Fld × Nat)} (h : s.Only t l) (f : Fld) (i j n : Nat) (hf : (f, i) ∈ l) :
    s.Only (t.bump f i j n) l := h.wr f _ i j hf

theorem State.Only.flagCount {s t : State} {l : List (Fld × Nat)} (h : s.Only t l) (a b : Fld) (i : Nat) (ha : (a, i) ∈ l)
    (hb : (b, i) ∈ l) : s.Only (t.flagCount a b i) l := (h.wr a 1 i 0 ha).bump b i 0 1 hb

/-- Raising an event is within a frame that lists the fields of an event. -/
theorem State.Only.raise {s t : State} {l : List (Fld × Nat)} (h : s.Only t l) (half code : Nat) (p : List Byte)
    (he : ∀ x ∈ eventFields, x ∈ l) : s.Only (t.raise half code p) l := by
  obtain ⟨r, -, e⟩ := t.raise_eq half code p
  have k : s.Only (t.wr F.GLB_EV_SEQ_next (t.rd F.GLB_EV_SEQ_next + 1)).tick l :=
    (h.wr F.GLB_EV_SEQ_next _ 0 0 (he _ (by simp [eventFields]))).same
  rw [e]
  split
  · have k' := (k.wr F.RING_FLAGS_evq_lost 1 0 0 (he _ (by simp [eventFields]))).bump F.RING_EVQ_LOST_count 0 0 1
      (he _ (by simp [eventFields]))
    exact k'.same
  · exact k.same

/-- The chain that was set. -/
@[simp] theorem State.chain_setChain_self (s : State) (k : Nat) (c : ChainSt) : (s.setChain k c).chain k = c := by
  simp [State.chain, State.setChain]

end Sys2Proof.Machine
end

