-- ==== Sys2Proof/WellFormed.lean ====
section
/-! DEFINITION. When a command is well formed: every unit, field and register number it names exists in the part. -/
namespace Sys2Proof

/-- The numbers a command names, each with its count or limit. The counts are those of spec/01 (2 halves, stacks and magazine ports, 4 easels,
16 link groups of at most 12 lanes, 8 views, 48 packer lanes a half), R264 (32 pseudo-channels a stack), R382 (16 rings), spec/11 (16 queues,
64 vectors), R400 (32 barrow channels), spec/13 (16 stream contexts, 8 cores), spec/14 (6 outputs), spec/15 (4 TDM ports, 8 AES3
receivers, 2 outputs) and spec/16 (2 network ports, 8 senders); serials have 48 bits and register words 32; BAR0 is 64 MiB (R376). -/
def Instr.bounds : Instr → List (Nat × Nat)
  | .registerWrite off v => [(off, 2 ^ 26), (v, 2 ^ 32)]
  | .badAccess _ off _ => [(off, 2 ^ 26)]
  | .rcFieldRead off => [(off, 2 ^ 26)]
  | .latchedGroupRead off => [(off, 2 ^ 26)]
  | .w1cFlagClear off v => [(off, 2 ^ 26), (v, 2 ^ 32)]
  | .glbEvTestWrite v => [(v, 2 ^ 32)]
  | .chainWrite _ _ => []
  | .chainRead _ => []
  | .chainRelease _ => []
  | .chainMark _ => []
  | .chainRewind _ => []
  | .chainAbortItem _ => []
  | .paceSample _ _ => []
  | .linkBlockReceive g m _ => [(g, 16), (m, 12)]
  | .forwardedRunReceive h g m _ => [(h, 2), (g, 16), (m, 12)]
  | .laneBlockLock g m => [(g, 16), (m, 12)]
  | .laneLockLoss g m => [(g, 16), (m, 12)]
  | .alignReceive h g m _ _ => [(h, 2), (g, 16), (m, 12)]
  | .deskewMarkerCycle h g _ => [(h, 2), (g, 16)]
  | .brlGrpCfgWrite g v => [(g, 16), (v, 2 ^ 32)]
  | .brlTrain g => [(g, 16)]
  | .brlCkMeasured g _ => [(g, 16)]
  | .brlAdaptDone g _ _ => [(g, 16)]
  | .brlSleepReceive g => [(g, 16)]
  | .brlCkRestart g => [(g, 16)]
  | .brlCkLoss g => [(g, 16)]
  | .trainingTimeout g => [(g, 16)]
  | .brlTestModeSet g => [(g, 16)]
  | .brlTestModeClear g => [(g, 16)]
  | .brlBcSleep g => [(g, 16)]
  | .brlBcWake g => [(g, 16)]
  | .bcCmdGo g v => [(g, 16), (v, 2 ^ 32)]
  | .bcRegReply g _ _ => [(g, 16)]
  | .bcCmdTimeout g => [(g, 16)]
  | .frameStartReceive e _ _ _ => [(e, 4)]
  | .rowStripeReceive e _ => [(e, 4)]
  | .frameEndReceive e _ => [(e, 4)]
  | .rowReport => []
  | .frameEndTimeout e => [(e, 4)]
  | .settleNotice _ e serial => [(e, 4), (serial, 2 ^ 48)]
  | .easelOpen e => [(e, 4)]
  | .easelAdmissionCheck e => [(e, 4)]
  | .easelClose e => [(e, 4)]
  | .easelAbort e => [(e, 4)]
  | .ticketPost _ => []
  | .ticketWindowClose e => [(e, 4)]
  | .brushBandStart h _ => [(h, 2)]
  | .tileClose e serial _ _ => [(e, 4), (serial, 2 ^ 48)]
  | .canvasWriteDone e serial _ => [(e, 4), (serial, 2 ^ 48)]
  | .blackEstimateDone e serial _ => [(e, 4), (serial, 2 ^ 48)]
  | .condCommit e => [(e, 4)]
  | .condCommitCheckDone e => [(e, 4)]
  | .condCal _ => []
  | .calRunStart kind target => [(kind, 8), (target, 4)]
  | .calRunEnd kind target _ => [(kind, 8), (target, 4)]
  | .calDeferTimeout kind target => [(kind, 8), (target, 4)]
  | .palCommit e => [(e, 4)]
  | .viewCommit v => [(v, 8)]
  | .colourCommitCheckDone _ n => [(n, 8)]
  | .palLoad _ => []
  | .palLoadComplete _ _ => []
  | .viewPictureStart v serial => [(v, 8), (serial, 2 ^ 48)]
  | .viewPictureDone v => [(v, 8)]
  | .statsRecordPost e => [(e, 4)]
  | .packerTileTake h => [(h, 2)]
  | .packerTileCommit h l => [(h, 2), (l, 48)]
  | .laneRingResume h l => [(h, 2), (l, 48)]
  | .tileDecode h e serial _ _ => [(h, 2), (e, 4), (serial, 2 ^ 48)]
  | .frameRatioCompute e serial => [(e, 4), (serial, 2 ^ 48)]
  | .hbmStackReady k _ => [(k, 2)]
  | .hbmAllBankRefresh k pc => [(k, 2), (pc, 32)]
  | .hbmCaAlert k pc _ => [(k, 2), (pc, 32)]
  | .hbmUncorrRead _ => []
  | .hbmRowActivate k pc _ _ => [(k, 2), (pc, 32)]
  | .hbmRhWindowReset => []
  | .hbmPlanCommit => []
  | .hbmPlanCheckDone => []
  | .canvasHoldRelease e _ part _ => [(e, 4), (part, 2)]
  | .magInsertion p _ => [(p, 2)]
  | .magRemoval p => [(p, 2)]
  | .magRampDone p => [(p, 2)]
  | .magInitDone p => [(p, 2)]
  | .magRetry p => [(p, 2)]
  | .magPortDisable p => [(p, 2)]
  | .pfwNFall => []
  | .pfwProgramsDrained p _ _ => [(p, 2)]
  | .pfwNRecover => []
  | .dieOpIssue p _ => [(p, 2)]
  | .dieOpComplete p _ _ => [(p, 2)]
  | .segmentClose e serial h => [(e, 4), (serial, 2 ^ 48), (h, 2)]
  | .elasticSpill h => [(h, 2)]
  | .ledgerGroupIssue p => [(p, 2)]
  | .ledgerSnapshot p => [(p, 2)]
  | .takeOpen _ => []
  | .takeClose _ => []
  | .readTiles _ => []
  | .readRange _ => []
  | .writeSidecar _ _ => []
  | .flush _ => []
  | .abort _ => []
  | .queueReset _ => []
  | .mount _ => []
  | .unmount _ => []
  | .format _ => []
  | .sanitize _ => []
  | .identifyReel _ => []
  | .getLog _ => []
  | .doorbellPoll => []
  | .doorbellPageReturn _ => []
  | .ringEnable r v => [(r, 16), (v, 2 ^ 32)]
  | .ringDisable r v => [(r, 16), (v, 2 ^ 32)]
  | .cqEnable q v => [(q, 16), (v, 2 ^ 32)]
  | .cqDisable q v => [(q, 16), (v, 2 ^ 32)]
  | .descriptorFetch => []
  | .descriptorFetchReturn r _ => [(r, 16)]
  | .descriptorDecode => []
  | .fenceRelease _ => []
  | .nop _ => []
  | .completionRecordWrite q => [(q, 16)]
  | .eventRecordWrite => []
  | .evqEnable v => [(v, 2 ^ 32)]
  | .msixMessageSend q => [(q, 16)]
  | .msixCoalesceTimeout q => [(q, 16)]
  | .msixVectorUnmask v => [(v, 64)]
  | .functionLevelReset _ => []
  | .barrowChannelEnable c v => [(c, 32), (v, 2 ^ 32)]
  | .barrowChannelDisable c v _ _ => [(c, 32), (v, 2 ^ 32)]
  | .barrowChannelRestart c v => [(c, 32), (v, 2 ^ 32)]
  | .barrowDescFetch c _ => [(c, 32)]
  | .barrowDescEnd c _ _ => [(c, 32)]
  | .barrowCtrlReread c _ => [(c, 32)]
  | .sketchOpen _ => []
  | .sketchClose _ => []
  | .sketchRefresh _ => []
  | .rcDecode _ _ => []
  | .vcdScCommit x => [(x, 16)]
  | .sketchPictureStart k => [(k, 8)]
  | .sketchRowStart k => [(k, 8)]
  | .sketchRowDone k _ _ => [(k, 8)]
  | .sketchNalCommit x _ _ _ => [(x, 16)]
  | .sketchRingResume x => [(x, 16)]
  | .sketchPublish x => [(x, 16)]
  | .rasOutCommit o => [(o, 6)]
  | .rasFrameStart o _ => [(o, 6)]
  | .vrefPulse _ => []
  | .rasReferenceLoss o => [(o, 6)]
  | .rasSelectPoint o => [(o, 6)]
  | .rasLineFetchDone o _ => [(o, 6)]
  | .rasLineDue o _ => [(o, 6)]
  | .rasLiveLineArrive o _ => [(o, 6)]
  | .rasRegionPush _ _ => []
  | .rasDcs _ => []
  | .rasDcsReply o _ => [(o, 6)]
  | .rasDcsReplyTimeout o => [(o, 6)]
  | .audioMasterSample _ _ => []
  | .audTdmFrameReceive p _ _ _ => [(p, 4)]
  | .audAesFrameReceive a _ => [(a, 8)]
  | .audPortEnable u v => [(u, 12), (v, 2 ^ 32)]
  | .audMaskArm u v => [(u, 12), (v, 2 ^ 32)]
  | .audRecRunStart => []
  | .audRecRunStop => []
  | .audZcTimeout k slot => [(k, 2), (slot, 16)]
  | .audMasterReferenceLoss => []
  | .ptpSyncReceive _ => []
  | .ptpAnnounceReceive _ => []
  | .ptpAnnounceTimeout => []
  | .ptpRestep => []
  | .netSend _ _ => []
  | .netFrameLaunch _ _ => []
  | .netFrameTxDone _ => []
  | .netTxtsRead => []
  | .netFrameReceive port _ => [(port, 2)]
  | .netLinkChange port _ => [(port, 2)]
  | .netSenderPacket n => [(n, 8)]
  | .netSndCommit n => [(n, 8)]
  | .netLtcFrameReceive _ _ => []
  | .netLtcFreewheelExpire => []
  | .pwrOnWrite v => [(v, 2 ^ 32)]
  | .pwrSwitchOpen d => [(d, 32)]
  | .resetSequenceStep _ => []
  | .powerOnReset => []
  | .railOutOfRange => []
  | .resetNAssert => []
  | .resetNRelease => []
  | .diodeComparatorRead _ _ => []
  | .thermalTripRelease => []
  | .keeperWatchdogExpire h => [(h, 2)]
  | .halfResetRequest v => [(v, 2 ^ 32)]
  | .halfResetAssert h => [(h, 2)]
  | .halfResetRelease h => [(h, 2)]
  | .rstDomainWrite v => [(v, 2 ^ 32)]
  | .blockResetRequest v => [(v, 2 ^ 32)]
  | .blockIdleReport => []
  | .blockIdleTimeout => []
  | .blockResetRelease => []
  | .blockForceRelease v => [(v, 2 ^ 32)]
  | .clockGoodRise b => [(b, 256)]
  | .clockLockLoss b => [(b, 256)]
  | .keeperHeartbeatSend h => [(h, 2)]
  | .keeperHeartbeatReceive h path => [(h, 2), (path, 2)]
  | .heartbeatAbsenceTimeout h => [(h, 2)]
  | .fenceResetRelease h => [(h, 2)]
  | .keeperStart h => [(h, 2)]
  | .bellConfirm h => [(h, 2)]
  | .bellHandover => []
  | .thermalSample _ _ _ _ _ _ _ => []
  | .thermalGraceExpire => []
  | .thermalShedStepExpire => []
  | .thermalReleaseExpire => []
  | .shedCommandReceive h => [(h, 2)]
  | .agePoweredHour => []
  | .ageSample h _ => [(h, 2)]
  | .agePlanRun => []
  | .ageModeWrite m v => [(m, 16), (v, 2 ^ 32)]
  | .ageVoltageLower => []
  | .ageBoostEnd => []
  | .avsVoltageReport _ => []
  | .avsReportTimeout e => [(e, 4)]
  | .frameDeadline e serial => [(e, 4), (serial, 2 ^ 48)]
  | .sesChallenge v _ => [(v, 2 ^ 32)]
  | .sesAnswer v _ => [(v, 2 ^ 32)]
  | .sesClose v => [(v, 2 ^ 32)]
  | .rngHealthFail => []
  | .keySet _ => []
  | .keyErase _ => []
  | .keyList _ => []
  | .fwStage _ _ _ => []
  | .fwActivate _ => []
  | .fwDrainDone => []
  | .fwDrainTimeout => []
  | .fwConfirm _ => []
  | .ledgerRead _ => []
  | .boardCfgWrite _ _ => []
  | .firmwareBoot _ _ => []
  | .deviceLedgerWrite _ _ => []
  | .deviceLedgerReclaim => []
  | .railsInRange => []
  | .hbmCaAlertClear k pc _ => [(k, 2), (pc, 32)]
  | .lanePrbsReceive g m _ => [(g, 16), (m, 12)]
  | .dsiSetupSent o => [(o, 6)]
  | .rasPushDone o => [(o, 6)]
  | .vcdScCommitCheckDone x => [(x, 16)]
  | .rasOutCommitCheckDone o => [(o, 6)]
  | .netSndFrameAlignment n => [(n, 8)]
  | .ltcOutFrameStart => []

/-- Every number a command names is within its limit. -/
def Instr.wf (i : Instr) : Bool := i.bounds.all fun u => decide (u.1 < u.2)

end Sys2Proof
end

