-- ==== Sys2Proof/Laws/PerInstr.lean ====
section
/-! SUPPORT. What well-formedness gives for each command: every number it names is within its limit. -/
namespace Sys2Proof.Laws.Ranged

/-- A well-formed command names only units the part has. -/
def Statement (i : Instr) : Prop := i.wf = true → ∀ u ∈ i.bounds, u.1 < u.2

/-- The statement from the definition of the check. -/
theorem of_wf (i : Instr) : Statement i := by
  intro h u hu
  simpa using (List.all_eq_true.mp h) u hu

theorem registerWrite (x0 : Nat) (x1 : Nat) : Statement (.registerWrite x0 x1) := of_wf _
theorem badAccess (x0 : Bool) (x1 : Nat) (x2 : Nat) : Statement (.badAccess x0 x1 x2) := of_wf _
theorem rcFieldRead (x0 : Nat) : Statement (.rcFieldRead x0) := of_wf _
theorem latchedGroupRead (x0 : Nat) : Statement (.latchedGroupRead x0) := of_wf _
theorem w1cFlagClear (x0 : Nat) (x1 : Nat) : Statement (.w1cFlagClear x0 x1) := of_wf _
theorem glbEvTestWrite (x0 : Nat) : Statement (.glbEvTestWrite x0) := of_wf _
theorem chainWrite (x0 : Nat) (x1 : ChainItem) : Statement (.chainWrite x0 x1) := of_wf _
theorem chainRead (x0 : Nat) : Statement (.chainRead x0) := of_wf _
theorem chainRelease (x0 : Nat) : Statement (.chainRelease x0) := of_wf _
theorem chainMark (x0 : Nat) : Statement (.chainMark x0) := of_wf _
theorem chainRewind (x0 : Nat) : Statement (.chainRewind x0) := of_wf _
theorem chainAbortItem (x0 : Nat) : Statement (.chainAbortItem x0) := of_wf _
theorem paceSample (x0 : List (Option Nat)) (x1 : List (Option Nat)) : Statement (.paceSample x0 x1) := of_wf _
theorem linkBlockReceive (x0 : Nat) (x1 : Nat) (x2 : LinkBlock) : Statement (.linkBlockReceive x0 x1 x2) := of_wf _
theorem forwardedRunReceive (x0 : Nat) (x1 : Nat) (x2 : Nat) (x3 : Nat) : Statement (.forwardedRunReceive x0 x1 x2 x3) := of_wf _
theorem laneBlockLock (x0 : Nat) (x1 : Nat) : Statement (.laneBlockLock x0 x1) := of_wf _
theorem laneLockLoss (x0 : Nat) (x1 : Nat) : Statement (.laneLockLoss x0 x1) := of_wf _
theorem alignReceive (x0 : Nat) (x1 : Nat) (x2 : Nat) (x3 : List Byte) (x4 : Nat) : Statement (.alignReceive x0 x1 x2 x3 x4) := of_wf _
theorem deskewMarkerCycle (x0 : Nat) (x1 : Nat) (x2 : List (Option Nat)) : Statement (.deskewMarkerCycle x0 x1 x2) := of_wf _
theorem brlGrpCfgWrite (x0 : Nat) (x1 : Nat) : Statement (.brlGrpCfgWrite x0 x1) := of_wf _
theorem brlTrain (x0 : Nat) : Statement (.brlTrain x0) := of_wf _
theorem brlCkMeasured (x0 : Nat) (x1 : Nat) : Statement (.brlCkMeasured x0 x1) := of_wf _
theorem brlAdaptDone (x0 : Nat) (x1 : Nat) (x2 : List Nat) : Statement (.brlAdaptDone x0 x1 x2) := of_wf _
theorem brlSleepReceive (x0 : Nat) : Statement (.brlSleepReceive x0) := of_wf _
theorem brlCkRestart (x0 : Nat) : Statement (.brlCkRestart x0) := of_wf _
theorem brlCkLoss (x0 : Nat) : Statement (.brlCkLoss x0) := of_wf _
theorem trainingTimeout (x0 : Nat) : Statement (.trainingTimeout x0) := of_wf _
theorem brlTestModeSet (x0 : Nat) : Statement (.brlTestModeSet x0) := of_wf _
theorem brlTestModeClear (x0 : Nat) : Statement (.brlTestModeClear x0) := of_wf _
theorem brlBcSleep (x0 : Nat) : Statement (.brlBcSleep x0) := of_wf _
theorem brlBcWake (x0 : Nat) : Statement (.brlBcWake x0) := of_wf _
theorem bcCmdGo (x0 : Nat) (x1 : Nat) : Statement (.bcCmdGo x0 x1) := of_wf _
theorem bcRegReply (x0 : Nat) (x1 : List Byte) (x2 : Bool) : Statement (.bcRegReply x0 x1 x2) := of_wf _
theorem bcCmdTimeout (x0 : Nat) : Statement (.bcCmdTimeout x0) := of_wf _
theorem frameStartReceive (x0 : Nat) (x1 : Option (List Byte)) (x2 : Option (List Byte)) (x3 : Option (List Byte)) : Statement (.frameStartReceive x0 x1 x2 x3) := of_wf _
theorem rowStripeReceive (x0 : Nat) (x1 : RowStripe) : Statement (.rowStripeReceive x0 x1) := of_wf _
theorem frameEndReceive (x0 : Nat) (x1 : List Byte) : Statement (.frameEndReceive x0 x1) := of_wf _
theorem rowReport : Statement (.rowReport) := of_wf _
theorem frameEndTimeout (x0 : Nat) : Statement (.frameEndTimeout x0) := of_wf _
theorem settleNotice (x0 : Consumer) (x1 : Nat) (x2 : Nat) : Statement (.settleNotice x0 x1 x2) := of_wf _
theorem easelOpen (x0 : Nat) : Statement (.easelOpen x0) := of_wf _
theorem easelAdmissionCheck (x0 : Nat) : Statement (.easelAdmissionCheck x0) := of_wf _
theorem easelClose (x0 : Nat) : Statement (.easelClose x0) := of_wf _
theorem easelAbort (x0 : Nat) : Statement (.easelAbort x0) := of_wf _
theorem ticketPost (x0 : Nat) : Statement (.ticketPost x0) := of_wf _
theorem ticketWindowClose (x0 : Nat) : Statement (.ticketWindowClose x0) := of_wf _
theorem brushBandStart (x0 : Nat) (x1 : List Nat) : Statement (.brushBandStart x0 x1) := of_wf _
theorem tileClose (x0 : Nat) (x1 : Nat) (x2 : Nat) (x3 : Option (List Byte)) : Statement (.tileClose x0 x1 x2 x3) := of_wf _
theorem canvasWriteDone (x0 : Nat) (x1 : Nat) (x2 : Nat) : Statement (.canvasWriteDone x0 x1 x2) := of_wf _
theorem blackEstimateDone (x0 : Nat) (x1 : Nat) (x2 : Bool) : Statement (.blackEstimateDone x0 x1 x2) := of_wf _
theorem condCommit (x0 : Nat) : Statement (.condCommit x0) := of_wf _
theorem condCommitCheckDone (x0 : Nat) : Statement (.condCommitCheckDone x0) := of_wf _
theorem condCal (x0 : Nat) : Statement (.condCal x0) := of_wf _
theorem calRunStart (x0 : Nat) (x1 : Nat) : Statement (.calRunStart x0 x1) := of_wf _
theorem calRunEnd (x0 : Nat) (x1 : Nat) (x2 : List Int) : Statement (.calRunEnd x0 x1 x2) := of_wf _
theorem calDeferTimeout (x0 : Nat) (x1 : Nat) : Statement (.calDeferTimeout x0 x1) := of_wf _
theorem palCommit (x0 : Nat) : Statement (.palCommit x0) := of_wf _
theorem viewCommit (x0 : Nat) : Statement (.viewCommit x0) := of_wf _
theorem colourCommitCheckDone (x0 : Bool) (x1 : Nat) : Statement (.colourCommitCheckDone x0 x1) := of_wf _
theorem palLoad (x0 : Nat) : Statement (.palLoad x0) := of_wf _
theorem palLoadComplete (x0 : Nat) (x1 : List Byte) : Statement (.palLoadComplete x0 x1) := of_wf _
theorem viewPictureStart (x0 : Nat) (x1 : Nat) : Statement (.viewPictureStart x0 x1) := of_wf _
theorem viewPictureDone (x0 : Nat) : Statement (.viewPictureDone x0) := of_wf _
theorem statsRecordPost (x0 : Nat) : Statement (.statsRecordPost x0) := of_wf _
theorem packerTileTake (x0 : Nat) : Statement (.packerTileTake x0) := of_wf _
theorem packerTileCommit (x0 : Nat) (x1 : Nat) : Statement (.packerTileCommit x0 x1) := of_wf _
theorem laneRingResume (x0 : Nat) (x1 : Nat) : Statement (.laneRingResume x0 x1) := of_wf _
theorem tileDecode (x0 : Nat) (x1 : Nat) (x2 : Nat) (x3 : List Byte) (x4 : List Byte) : Statement (.tileDecode x0 x1 x2 x3 x4) := of_wf _
theorem frameRatioCompute (x0 : Nat) (x1 : Nat) : Statement (.frameRatioCompute x0 x1) := of_wf _
theorem hbmStackReady (x0 : Nat) (x1 : Int) : Statement (.hbmStackReady x0 x1) := of_wf _
theorem hbmAllBankRefresh (x0 : Nat) (x1 : Nat) : Statement (.hbmAllBankRefresh x0 x1) := of_wf _
theorem hbmCaAlert (x0 : Nat) (x1 : Nat) (x2 : Bool) : Statement (.hbmCaAlert x0 x1 x2) := of_wf _
theorem hbmUncorrRead (x0 : Nat) : Statement (.hbmUncorrRead x0) := of_wf _
theorem hbmRowActivate (x0 : Nat) (x1 : Nat) (x2 : Nat) (x3 : Nat) : Statement (.hbmRowActivate x0 x1 x2 x3) := of_wf _
theorem hbmRhWindowReset : Statement (.hbmRhWindowReset) := of_wf _
theorem hbmPlanCommit : Statement (.hbmPlanCommit) := of_wf _
theorem hbmPlanCheckDone : Statement (.hbmPlanCheckDone) := of_wf _
theorem canvasHoldRelease (x0 : Nat) (x1 : Nat) (x2 : Nat) (x3 : Holder) : Statement (.canvasHoldRelease x0 x1 x2 x3) := of_wf _
theorem magInsertion (x0 : Nat) (x1 : Magazine) : Statement (.magInsertion x0 x1) := of_wf _
theorem magRemoval (x0 : Nat) : Statement (.magRemoval x0) := of_wf _
theorem magRampDone (x0 : Nat) : Statement (.magRampDone x0) := of_wf _
theorem magInitDone (x0 : Nat) : Statement (.magInitDone x0) := of_wf _
theorem magRetry (x0 : Nat) : Statement (.magRetry x0) := of_wf _
theorem magPortDisable (x0 : Nat) : Statement (.magPortDisable x0) := of_wf _
theorem pfwNFall : Statement (.pfwNFall) := of_wf _
theorem pfwProgramsDrained (x0 : Nat) (x1 : Nat) (x2 : Nat) : Statement (.pfwProgramsDrained x0 x1 x2) := of_wf _
theorem pfwNRecover : Statement (.pfwNRecover) := of_wf _
theorem dieOpIssue (x0 : Nat) (x1 : Nat) : Statement (.dieOpIssue x0 x1) := of_wf _
theorem dieOpComplete (x0 : Nat) (x1 : Nat) (x2 : DieResult) : Statement (.dieOpComplete x0 x1 x2) := of_wf _
theorem segmentClose (x0 : Nat) (x1 : Nat) (x2 : Nat) : Statement (.segmentClose x0 x1 x2) := of_wf _
theorem elasticSpill (x0 : Nat) : Statement (.elasticSpill x0) := of_wf _
theorem ledgerGroupIssue (x0 : Nat) : Statement (.ledgerGroupIssue x0) := of_wf _
theorem ledgerSnapshot (x0 : Nat) : Statement (.ledgerSnapshot x0) := of_wf _
theorem takeOpen (x0 : Nat) : Statement (.takeOpen x0) := of_wf _
theorem takeClose (x0 : Nat) : Statement (.takeClose x0) := of_wf _
theorem readTiles (x0 : Nat) : Statement (.readTiles x0) := of_wf _
theorem readRange (x0 : Nat) : Statement (.readRange x0) := of_wf _
theorem writeSidecar (x0 : Nat) (x1 : List Byte) : Statement (.writeSidecar x0 x1) := of_wf _
theorem flush (x0 : Nat) : Statement (.flush x0) := of_wf _
theorem abort (x0 : Nat) : Statement (.abort x0) := of_wf _
theorem queueReset (x0 : Nat) : Statement (.queueReset x0) := of_wf _
theorem mount (x0 : Nat) : Statement (.mount x0) := of_wf _
theorem unmount (x0 : Nat) : Statement (.unmount x0) := of_wf _
theorem format (x0 : Nat) : Statement (.format x0) := of_wf _
theorem sanitize (x0 : Nat) : Statement (.sanitize x0) := of_wf _
theorem identifyReel (x0 : Nat) : Statement (.identifyReel x0) := of_wf _
theorem getLog (x0 : Nat) : Statement (.getLog x0) := of_wf _
theorem doorbellPoll : Statement (.doorbellPoll) := of_wf _
theorem doorbellPageReturn (x0 : Option (List Nat)) : Statement (.doorbellPageReturn x0) := of_wf _
theorem ringEnable (x0 : Nat) (x1 : Nat) : Statement (.ringEnable x0 x1) := of_wf _
theorem ringDisable (x0 : Nat) (x1 : Nat) : Statement (.ringDisable x0 x1) := of_wf _
theorem cqEnable (x0 : Nat) (x1 : Nat) : Statement (.cqEnable x0 x1) := of_wf _
theorem cqDisable (x0 : Nat) (x1 : Nat) : Statement (.cqDisable x0 x1) := of_wf _
theorem descriptorFetch : Statement (.descriptorFetch) := of_wf _
theorem descriptorFetchReturn (x0 : Nat) (x1 : Option (List Byte)) : Statement (.descriptorFetchReturn x0 x1) := of_wf _
theorem descriptorDecode : Statement (.descriptorDecode) := of_wf _
theorem fenceRelease (x0 : Nat) : Statement (.fenceRelease x0) := of_wf _
theorem nop (x0 : Nat) : Statement (.nop x0) := of_wf _
theorem completionRecordWrite (x0 : Nat) : Statement (.completionRecordWrite x0) := of_wf _
theorem eventRecordWrite : Statement (.eventRecordWrite) := of_wf _
theorem evqEnable (x0 : Nat) : Statement (.evqEnable x0) := of_wf _
theorem msixMessageSend (x0 : Nat) : Statement (.msixMessageSend x0) := of_wf _
theorem msixCoalesceTimeout (x0 : Nat) : Statement (.msixCoalesceTimeout x0) := of_wf _
theorem msixVectorUnmask (x0 : Nat) : Statement (.msixVectorUnmask x0) := of_wf _
theorem functionLevelReset (x0 : List (Nat × List Byte)) : Statement (.functionLevelReset x0) := of_wf _
theorem barrowChannelEnable (x0 : Nat) (x1 : Nat) : Statement (.barrowChannelEnable x0 x1) := of_wf _
theorem barrowChannelDisable (x0 : Nat) (x1 : Nat) (x2 : Nat) (x3 : List Byte) : Statement (.barrowChannelDisable x0 x1 x2 x3) := of_wf _
theorem barrowChannelRestart (x0 : Nat) (x1 : Nat) : Statement (.barrowChannelRestart x0 x1) := of_wf _
theorem barrowDescFetch (x0 : Nat) (x1 : Option (List Byte)) : Statement (.barrowDescFetch x0 x1) := of_wf _
theorem barrowDescEnd (x0 : Nat) (x1 : List Byte) (x2 : Bool) : Statement (.barrowDescEnd x0 x1 x2) := of_wf _
theorem barrowCtrlReread (x0 : Nat) (x1 : Option Nat) : Statement (.barrowCtrlReread x0 x1) := of_wf _
theorem sketchOpen (x0 : Nat) : Statement (.sketchOpen x0) := of_wf _
theorem sketchClose (x0 : Nat) : Statement (.sketchClose x0) := of_wf _
theorem sketchRefresh (x0 : Nat) : Statement (.sketchRefresh x0) := of_wf _
theorem rcDecode (x0 : Nat) (x1 : List Byte) : Statement (.rcDecode x0 x1) := of_wf _
theorem vcdScCommit (x0 : Nat) : Statement (.vcdScCommit x0) := of_wf _
theorem sketchPictureStart (x0 : Nat) : Statement (.sketchPictureStart x0) := of_wf _
theorem sketchRowStart (x0 : Nat) : Statement (.sketchRowStart x0) := of_wf _
theorem sketchRowDone (x0 : Nat) (x1 : List ScCtu) (x2 : List ScCtu) : Statement (.sketchRowDone x0 x1 x2) := of_wf _
theorem sketchNalCommit (x0 : Nat) (x1 : List Byte) (x2 : Option Nat) (x3 : Bool) : Statement (.sketchNalCommit x0 x1 x2 x3) := of_wf _
theorem sketchRingResume (x0 : Nat) : Statement (.sketchRingResume x0) := of_wf _
theorem sketchPublish (x0 : Nat) : Statement (.sketchPublish x0) := of_wf _
theorem rasOutCommit (x0 : Nat) : Statement (.rasOutCommit x0) := of_wf _
theorem rasFrameStart (x0 : Nat) (x1 : Int) : Statement (.rasFrameStart x0 x1) := of_wf _
theorem vrefPulse (x0 : Nat) : Statement (.vrefPulse x0) := of_wf _
theorem rasReferenceLoss (x0 : Nat) : Statement (.rasReferenceLoss x0) := of_wf _
theorem rasSelectPoint (x0 : Nat) : Statement (.rasSelectPoint x0) := of_wf _
theorem rasLineFetchDone (x0 : Nat) (x1 : Nat) : Statement (.rasLineFetchDone x0 x1) := of_wf _
theorem rasLineDue (x0 : Nat) (x1 : Bool) : Statement (.rasLineDue x0 x1) := of_wf _
theorem rasLiveLineArrive (x0 : Nat) (x1 : Nat) : Statement (.rasLiveLineArrive x0 x1) := of_wf _
theorem rasRegionPush (x0 : Nat) (x1 : List Byte) : Statement (.rasRegionPush x0 x1) := of_wf _
theorem rasDcs (x0 : Nat) : Statement (.rasDcs x0) := of_wf _
theorem rasDcsReply (x0 : Nat) (x1 : List Byte) : Statement (.rasDcsReply x0 x1) := of_wf _
theorem rasDcsReplyTimeout (x0 : Nat) : Statement (.rasDcsReplyTimeout x0) := of_wf _
theorem audioMasterSample (x0 : Int) (x1 : Bool) : Statement (.audioMasterSample x0 x1) := of_wf _
theorem audTdmFrameReceive (x0 : Nat) (x1 : Nat) (x2 : List Nat) (x3 : Nat) : Statement (.audTdmFrameReceive x0 x1 x2 x3) := of_wf _
theorem audAesFrameReceive (x0 : Nat) (x1 : AesFrame) : Statement (.audAesFrameReceive x0 x1) := of_wf _
theorem audPortEnable (x0 : Nat) (x1 : Nat) : Statement (.audPortEnable x0 x1) := of_wf _
theorem audMaskArm (x0 : Nat) (x1 : Nat) : Statement (.audMaskArm x0 x1) := of_wf _
theorem audRecRunStart : Statement (.audRecRunStart) := of_wf _
theorem audRecRunStop : Statement (.audRecRunStop) := of_wf _
theorem audZcTimeout (x0 : Nat) (x1 : Nat) : Statement (.audZcTimeout x0 x1) := of_wf _
theorem audMasterReferenceLoss : Statement (.audMasterReferenceLoss) := of_wf _
theorem ptpSyncReceive (x0 : Int) : Statement (.ptpSyncReceive x0) := of_wf _
theorem ptpAnnounceReceive (x0 : Announce) : Statement (.ptpAnnounceReceive x0) := of_wf _
theorem ptpAnnounceTimeout : Statement (.ptpAnnounceTimeout) := of_wf _
theorem ptpRestep : Statement (.ptpRestep) := of_wf _
theorem netSend (x0 : Nat) (x1 : List Byte) : Statement (.netSend x0 x1) := of_wf _
theorem netFrameLaunch (x0 : Nat) (x1 : Bool) : Statement (.netFrameLaunch x0 x1) := of_wf _
theorem netFrameTxDone (x0 : Nat) : Statement (.netFrameTxDone x0) := of_wf _
theorem netTxtsRead : Statement (.netTxtsRead) := of_wf _
theorem netFrameReceive (x0 : Nat) (x1 : List Byte) : Statement (.netFrameReceive x0 x1) := of_wf _
theorem netLinkChange (x0 : Nat) (x1 : Bool) : Statement (.netLinkChange x0 x1) := of_wf _
theorem netSenderPacket (x0 : Nat) : Statement (.netSenderPacket x0) := of_wf _
theorem netSndCommit (x0 : Nat) : Statement (.netSndCommit x0) := of_wf _
theorem netLtcFrameReceive (x0 : Nat) (x1 : Bool) : Statement (.netLtcFrameReceive x0 x1) := of_wf _
theorem netLtcFreewheelExpire : Statement (.netLtcFreewheelExpire) := of_wf _
theorem pwrOnWrite (x0 : Nat) : Statement (.pwrOnWrite x0) := of_wf _
theorem pwrSwitchOpen (x0 : Nat) : Statement (.pwrSwitchOpen x0) := of_wf _
theorem resetSequenceStep (x0 : Nat) : Statement (.resetSequenceStep x0) := of_wf _
theorem powerOnReset : Statement (.powerOnReset) := of_wf _
theorem railOutOfRange : Statement (.railOutOfRange) := of_wf _
theorem resetNAssert : Statement (.resetNAssert) := of_wf _
theorem resetNRelease : Statement (.resetNRelease) := of_wf _
theorem diodeComparatorRead (x0 : List Bool) (x1 : List Bool) : Statement (.diodeComparatorRead x0 x1) := of_wf _
theorem thermalTripRelease : Statement (.thermalTripRelease) := of_wf _
theorem keeperWatchdogExpire (x0 : Nat) : Statement (.keeperWatchdogExpire x0) := of_wf _
theorem halfResetRequest (x0 : Nat) : Statement (.halfResetRequest x0) := of_wf _
theorem halfResetAssert (x0 : Nat) : Statement (.halfResetAssert x0) := of_wf _
theorem halfResetRelease (x0 : Nat) : Statement (.halfResetRelease x0) := of_wf _
theorem rstDomainWrite (x0 : Nat) : Statement (.rstDomainWrite x0) := of_wf _
theorem blockResetRequest (x0 : Nat) : Statement (.blockResetRequest x0) := of_wf _
theorem blockIdleReport : Statement (.blockIdleReport) := of_wf _
theorem blockIdleTimeout : Statement (.blockIdleTimeout) := of_wf _
theorem blockResetRelease : Statement (.blockResetRelease) := of_wf _
theorem blockForceRelease (x0 : Nat) : Statement (.blockForceRelease x0) := of_wf _
theorem clockGoodRise (x0 : Nat) : Statement (.clockGoodRise x0) := of_wf _
theorem clockLockLoss (x0 : Nat) : Statement (.clockLockLoss x0) := of_wf _
theorem keeperHeartbeatSend (x0 : Nat) : Statement (.keeperHeartbeatSend x0) := of_wf _
theorem keeperHeartbeatReceive (x0 : Nat) (x1 : Nat) : Statement (.keeperHeartbeatReceive x0 x1) := of_wf _
theorem heartbeatAbsenceTimeout (x0 : Nat) : Statement (.heartbeatAbsenceTimeout x0) := of_wf _
theorem fenceResetRelease (x0 : Nat) : Statement (.fenceResetRelease x0) := of_wf _
theorem keeperStart (x0 : Nat) : Statement (.keeperStart x0) := of_wf _
theorem bellConfirm (x0 : Nat) : Statement (.bellConfirm x0) := of_wf _
theorem bellHandover : Statement (.bellHandover) := of_wf _
theorem thermalSample (x0 : List Int) (x1 : List Int) (x2 : Option Int) (x3 : List Int) (x4 : List Int) (x5 : List Bool) (x6 : Bool) : Statement (.thermalSample x0 x1 x2 x3 x4 x5 x6) := of_wf _
theorem thermalGraceExpire : Statement (.thermalGraceExpire) := of_wf _
theorem thermalShedStepExpire : Statement (.thermalShedStepExpire) := of_wf _
theorem thermalReleaseExpire : Statement (.thermalReleaseExpire) := of_wf _
theorem shedCommandReceive (x0 : Nat) : Statement (.shedCommandReceive x0) := of_wf _
theorem agePoweredHour : Statement (.agePoweredHour) := of_wf _
theorem ageSample (x0 : Nat) (x1 : Bool) : Statement (.ageSample x0 x1) := of_wf _
theorem agePlanRun : Statement (.agePlanRun) := of_wf _
theorem ageModeWrite (x0 : Nat) (x1 : Nat) : Statement (.ageModeWrite x0 x1) := of_wf _
theorem ageVoltageLower : Statement (.ageVoltageLower) := of_wf _
theorem ageBoostEnd : Statement (.ageBoostEnd) := of_wf _
theorem avsVoltageReport (x0 : Nat) : Statement (.avsVoltageReport x0) := of_wf _
theorem avsReportTimeout (x0 : Nat) : Statement (.avsReportTimeout x0) := of_wf _
theorem frameDeadline (x0 : Nat) (x1 : Nat) : Statement (.frameDeadline x0 x1) := of_wf _
theorem sesChallenge (x0 : Nat) (x1 : Nat) : Statement (.sesChallenge x0 x1) := of_wf _
theorem sesAnswer (x0 : Nat) (x1 : Bool) : Statement (.sesAnswer x0 x1) := of_wf _
theorem sesClose (x0 : Nat) : Statement (.sesClose x0) := of_wf _
theorem rngHealthFail : Statement (.rngHealthFail) := of_wf _
theorem keySet (x0 : Nat) : Statement (.keySet x0) := of_wf _
theorem keyErase (x0 : Nat) : Statement (.keyErase x0) := of_wf _
theorem keyList (x0 : Nat) : Statement (.keyList x0) := of_wf _
theorem fwStage (x0 : Nat) (x1 : List Byte) (x2 : List Byte) : Statement (.fwStage x0 x1 x2) := of_wf _
theorem fwActivate (x0 : Nat) : Statement (.fwActivate x0) := of_wf _
theorem fwDrainDone : Statement (.fwDrainDone) := of_wf _
theorem fwDrainTimeout : Statement (.fwDrainTimeout) := of_wf _
theorem fwConfirm (x0 : Nat) : Statement (.fwConfirm x0) := of_wf _
theorem ledgerRead (x0 : Nat) : Statement (.ledgerRead x0) := of_wf _
theorem boardCfgWrite (x0 : Nat) (x1 : List Byte) : Statement (.boardCfgWrite x0 x1) := of_wf _
theorem firmwareBoot (x0 : List Nat) (x1 : List Nat) : Statement (.firmwareBoot x0 x1) := of_wf _
theorem deviceLedgerWrite (x0 : Nat) (x1 : Nat) : Statement (.deviceLedgerWrite x0 x1) := of_wf _
theorem deviceLedgerReclaim : Statement (.deviceLedgerReclaim) := of_wf _
theorem railsInRange : Statement (.railsInRange) := of_wf _
theorem hbmCaAlertClear (x0 : Nat) (x1 : Nat) (x2 : Nat) : Statement (.hbmCaAlertClear x0 x1 x2) := of_wf _
theorem lanePrbsReceive (x0 : Nat) (x1 : Nat) (x2 : List Bool) : Statement (.lanePrbsReceive x0 x1 x2) := of_wf _
theorem dsiSetupSent (x0 : Nat) : Statement (.dsiSetupSent x0) := of_wf _
theorem rasPushDone (x0 : Nat) : Statement (.rasPushDone x0) := of_wf _
theorem vcdScCommitCheckDone (x0 : Nat) : Statement (.vcdScCommitCheckDone x0) := of_wf _
theorem rasOutCommitCheckDone (x0 : Nat) : Statement (.rasOutCommitCheckDone x0) := of_wf _
theorem netSndFrameAlignment (x0 : Nat) : Statement (.netSndFrameAlignment x0) := of_wf _
theorem ltcOutFrameStart : Statement (.ltcOutFrameStart) := of_wf _

end Sys2Proof.Laws.Ranged
end

