-- ==== Sys2Proof/Tests/Slice0.lean ====
section
/-! SUPPORT. The tests of this model: one ill-formed command for each check, known answers from the spec and the standards it names, and
for each obligation states and operands that meet the hypotheses of its clauses together. -/
namespace Sys2Proof.Tests
open Sys2Proof Sys2Proof.Machine

set_option Elab.async false

/-! ### Small states -/

/-- The reset state with some register fields set: field, value, instance. -/
def regs (l : List (Fld × Nat × Nat)) : State := l.foldl (fun (s : State) x => s.wr x.1 x.2.1 x.2.2) State.reset

/-- A 64-byte descriptor with some bytes set: offset, value. -/
def desc (l : List (Nat × Nat)) : List Byte :=
  (List.range 64).map fun a => BitVec.ofNat 8 (((l.find? fun x => x.1 == a).getD (0, 0)).2)

/-- A command of ring 0 and queue 0 with decode number 7 that waits on nothing. -/
def cmdOf (opcode : Nat) (l : List (Nat × Nat)) (stage : Stage := .ready) : Cmd :=
  { id := 7, ring := 0, cq := 0, tag := 0, opcode := opcode, desc := desc l, stage := stage, past := false, units := 0, count := 1,
    mute := false, gone := false, seen := .none }

/-- That command outstanding in a state. -/
def withCmd (s : State) (c : Cmd) : State := s.updHost fun h => { h with cmds := h.cmds ++ [c] }

/-- An open frame of 64 × 64 photosites with serial 5. -/
def frame5 : Frame :=
  { serial := 5, st := .opened, fault := 0, seen := [], seenOb := [], badRows := [], bad := 0, checks := [], ended := false, onShort := false,
    onError := false, maxBad := 0, width := 64, height := 64, obRows := 0, obCols := 0, fmt := 0, cfa := 0, stamp := 0, freeRun := false,
    ticket := 0, taken := true, slot := some 0, tc := 0, inTake := false, deadline := false }

def withFrame (s : State) (f : Frame) : State := s.updEasel 0 fun x => { x with frames := [f] }

/-- One free canvas slot of easel 0 holding serial 5. -/
def withSlot (s : State) (st : SlotState) (holds : List (Nat × Holder)) : State :=
  s.updCanvas 0 fun c => { c with slots := [{ st := st, serial := 5, holds := holds }], size := 4096, base0 := 0, base1 := 0x1000000000, cols := 1, tiles := 1 }

def rec0 : Rec :=
  { event := false, half := 0, cq := 0, tag := 0, source := 0, status := 0, spec0 := 0, spec1 := 0, ring := none, cmd := none, payload := [],
    stamp := none, step := 0, quiet := false, full := false }

/-- A region of the memory plan. -/
def region (entry base size kind owner : Nat) : Region := { entry := entry, base := base, size := size, kind := kind, owner := owner }

/-- A state whose two HBM stacks take requests. -/
def ready (s : State) : State := (s.wr F.HBM_STACK_STATUS_state 2 0).wr F.HBM_STACK_STATUS_state 2 1

/-! ### Ill-formed commands -/

/-- One command for each kind of number a command names, the number at its limit. -/
def ill : List Instr :=
  [.registerWrite (2 ^ 26) 0, .registerWrite 0 (2 ^ 32), .badAccess true (2 ^ 26) 4, .glbEvTestWrite (2 ^ 32), .laneBlockLock 16 0, .laneBlockLock 0 12,
   .forwardedRunReceive 2 0 0 1, .forwardedRunReceive 1 16 0 1, .forwardedRunReceive 1 0 12 1, .frameEndReceive 4 [], .settleNotice .view 4 0, .settleNotice .view 0 (2 ^ 48), .calRunStart 8 0, .calRunStart 0 4]
  ++ [.viewCommit 8, .packerTileCommit 2 0, .packerTileCommit 0 48, .hbmAllBankRefresh 2 0, .hbmAllBankRefresh 0 32, .canvasHoldRelease 0 0 2 .packer,
   .magRemoval 2, .ringEnable 16 0, .cqEnable 16 0, .msixVectorUnmask 64, .barrowDescFetch 32 none, .vcdScCommit 16, .sketchPictureStart 8]
  ++ [.rasFrameStart 6 0, .audTdmFrameReceive 4 0 [] 0, .audPortEnable 12 0, .audZcTimeout 2 0, .audZcTimeout 0 16, .netLinkChange 2 true,
   .netSndCommit 8, .pwrSwitchOpen 32, .clockGoodRise 256, .keeperHeartbeatReceive 0 2, .ageModeWrite 16 0]

theorem test_wf_refuses_each : (ill.all fun i => !i.wf) = true := by decide
theorem test_wf_accepts_the_last_in_range :
    ([.registerWrite 0x3FFFFFF 4294967295, .laneBlockLock 15 11, .settleNotice .view 3 281474976710655, .packerTileCommit 1 47, .ringEnable 15 0,
      .barrowDescFetch 31 none, .rasFrameStart 5 (-1), .clockGoodRise 255] : List Instr).all Instr.wf = true := by decide

/-! ### The queue -/

theorem test_witness_Steps :
    ({ State.reset with pending := [.powerOnReset] } : State).pending = [.powerOnReset] ∧ State.reset.pending = [] ∧ State.reset.wf = true
      ∧ Memory.wf [] = true := by decide +kernel
theorem test_step_takes_the_command : ∃ t, step { State.reset with pending := [.railsInRange, .bellHandover] } = .next t ∧ t.pending = [.bellHandover]
    ∧ t.rd F.PWR_SEQ_STATUS_step = 1 := by
  refine ⟨_, rfl, ?_⟩; decide +kernel

/-! ### Known answers -/

/-- The check values of the CRC catalogues for the string 123456789. -/
theorem test_crc32c : crc32c (be 9 0x313233343536373839) = 0xE3069283 := by decide +kernel
theorem test_crc8 : crc8 (be 9 0x313233343536373839) = 0xF4 := by decide +kernel
/-- FIPS 180-4 example: SHA-256 of abc. -/
theorem test_sha256 : sha256 (be 3 0x616263) = be 32 0xBA7816BF8F01CFEA414140DE5DAE2223B00361A396177A9CB410FF61F20015AD := by decide +kernel
/-- The check value of the Ethernet CRC-32. -/
theorem test_fcs : fcs (be 9 0x313233343536373839) = 0xCBF43926 := by decide +kernel

/-- The worked example of spec/03: 9,016 data blocks to a row. -/
theorem test_rowBlocks : rowBlocks 128 20480 3 = 9016 := by decide

/-- The worked example of spec/04: easels 0 and 1, then with PX7 powered down. -/
def rig (released : Nat) : State := regs
  [(F.PWR_ON_on, 4294967295, 0), (F.PWR_STATE_released, released, 0), (F.EASEL_GEOM_width, 20480, 0), (F.EASEL_GEOM_height, 8640, 0),
   (F.EASEL_RATE_rate_mfps, 120000, 0), (F.EASEL_RATE_colour, 1, 0), (F.EASEL_FMT_format, 3, 0), (F.EASEL_GEOM_width, 4096, 1),
   (F.EASEL_GEOM_height, 2304, 1), (F.EASEL_RATE_rate_mfps, 60000, 1), (F.EASEL_RATE_colour, 1, 1), (F.EASEL_FMT_format, 3, 1)]
theorem test_reqCode : (rig 4294967295).reqCode [0, 1] = 26198 ∧ (rig (4294967295 - 2 ^ 17)).reqCode [0, 1] = 19648 := by decide +kernel

/-- The worked example of spec/05: a green photosite of a dual-gain sensor through stages 2 to 9. -/
def condSet : CondSet :=
  { CondSet.init with
    regs := [(F.COND_FUSE_PED_ped_hi, 256), (F.COND_FUSE_PED_ped_lo, 256), (F.COND_FUSE_RATIO_ratio, 0x4000), (F.COND_FUSE_KNEE_knee, 12000),
      (F.COND_FUSE_KNEE_slope, 128), (F.COND_FUSE_SAT_sat_hi, 16000), (F.COND_FUSE_SAT_sat_lo, 16300), (F.COND_OUT_GAIN_value, 0x3E800000),
      (F.COND_OUT_PED_out_ped, 256), (F.COND_STAGES_fuse, 1), (F.COND_STAGES_colgain, 1), (F.COND_STAGES_black, 1), (F.COND_STAGES_colfpn, 1),
      (F.COND_STAGES_wb, 1)].map fun x => (⟨x.1.base, x.1.lo, 0, 0⟩, x.2)
    colgain := [16384, 16589] }
def greenRow : BrushRow :=
  { set := condSet, easel := 0, frame := { frame5 with fmt := 3 }, table := [0, -8], black := [(0, 1), (13, 4), (0, 1), (0, 1)], offset := [], y := 0,
    sites := [0, 12200 * 16384 + 1013] }
theorem test_conditioning :
    condSet.weight 0 12200 = 156 ∧ condSet.fuse 0 3 (some 1) (12200 * 16384 + 1013) = some 12069
      ∧ (greenRow.level 1).map (fun v => Frac.eq v (48263, 4)) = some true := by decide +kernel
/-- The shaded value 15,082.8125 of that example is sample 4,027. -/
theorem test_conditioning_output :
    BrushRow.output { greenRow with set := { condSet with regs := (⟨F.COND_STAGES_colfpn.base, F.COND_STAGES_colfpn.lo, 0, 0⟩, 0) :: condSet.regs } }
      1 (241325, 16) = 4027 := by decide +kernel

/-- The worked example of spec/06: bases and phases of columns 0 and 1, and the codes of a flat area. -/
theorem test_tapBase : tapBase 15360 3840 0 = (1, 32) ∧ tapBase 15360 3840 1 = (5, 32) := by decide
theorem test_quantise :
    (let v := ycc false [fp (8, 10), fp (4, 10), fp (2, 10)]
     [quantise 0 0 false (v.getD 0 (0, 1)), quantise 0 0 true (v.getD 1 (0, 1)), quantise 0 0 true (v.getD 2 (0, 1))]) = [476, 381, 699] := by decide +kernel
theorem test_viewSlotSize : viewSlotSize [(⟨F.VIEW_OUT_SIZE_x.base, F.VIEW_OUT_SIZE_x.lo, 1, 0⟩, 3840), (⟨F.VIEW_OUT_SIZE_y.base, F.VIEW_OUT_SIZE_y.lo, 1, 0⟩, 2160),
    (⟨F.VIEW_FMT_format.base, F.VIEW_FMT_format.lo, 1, 0⟩, 1)] 1 = 33181696 := by decide +kernel

/-- The worked example of spec/07: the tokens of a row's first thirteen samples, and the first eleven items. -/
def packSamples : List Nat := [1200, 2100, 1204, 2098, 1204, 2098, 1210, 2100, 1204, 2098, 1204, 2098, 1206]
def packTokens : List Nat := [512 + 1200, 512 + 2100, 8, 3, 0, 0, 12, 4, 11, 3, 0, 0, 4]
theorem test_tokens : (List.range 13).map (tokenOf packSamples) = packTokens := by decide +kernel
theorem test_items : (let b := (encodeFrom packTokens 11 0 none [] (0, 0)).1
    (b.1 % 2 ^ 32, b.2)) = (0x0961FF00, 147) := by decide +kernel

/-- The worked example of spec/09: the published rate. -/
theorem test_magRate :
    magRate { signed := true, listed := true, alike := true, luns := 2, pageData := 16384, pageSpare := 2048, planes := 4, oneShot := true,
              shot := 3, tProg := 1800, tSlc := 400, tErase := 5000, segments := 15258790, blocks := 1000, wl := 100,
              mts := List.replicate 16 3600, mfr := 0, device := 0, odt := true } = 24903 := by decide +kernel

/-- The worked example of spec/19: five failures lock for 1 s, seventeen for 3,600 s. -/
theorem test_lockSeconds : lockSeconds 4 = 0 ∧ lockSeconds 5 = 1 ∧ lockSeconds 16 = 2048 ∧ lockSeconds 17 = 3600 := by decide
/-- Drop-frame labels: 1 minute at 29.97 is 1,800 frames less none, and the next label skips 00 and 01. -/
theorem test_tcLabel : tcLabel 3 1799 = (0, 0, 59, 29) ∧ tcLabel 3 1800 = (0, 1, 0, 2) ∧ tcLabel 3 17982 = (0, 10, 0, 0) := by decide

/-! ### Witnesses: chains -/

def item0 : ChainItem := { value := 1, first := false, last := false, abort := false }
def abort0 : ChainItem := { value := 0, first := false, last := true, abort := true }

/-- A chain whose stages all hold an item. -/
def fullChain (pos : Nat) (w : Option ChainItem) : State :=
  State.reset.setChain 0 { ChainSt.init with items := List.replicate (chainDepth 0) item0, pos := pos, waitWrite := w }

theorem test_witness_ChainWriteLosesNoItem :
    ((State.reset.chain 0).waitRead = false ∧ item0.abort = false ∧ (State.reset.chain 0).place item0 < chainDepth 0
      ∧ (State.reset.chain 0).waitWrite = none ∧ (State.reset.chain 0).items.length < chainDepth 0)
    ∧ (((fullChain 0 none).chain 0).waitRead = false ∧ ((fullChain 0 none).chain 0).waitWrite = none
      ∧ chainDepth 0 ≤ ((fullChain 0 none).chain 0).items.length)
    ∧ (((fullChain 1 (some item0)).chain 0).waitRead = false ∧ ((fullChain 1 (some item0)).chain 0).waitWrite = some item0
      ∧ ((fullChain 1 (some item0)).chain 0).items.length = chainDepth 0 ∧ 0 < ((fullChain 1 (some item0)).chain 0).pos) :=
  ⟨⟨rfl, rfl, Nat.succ_pos _, rfl, Nat.succ_pos _⟩, ⟨rfl, rfl, Nat.le_of_eq (List.length_replicate ..).symm⟩, rfl, rfl, List.length_replicate .., Nat.one_pos⟩

theorem test_witness_ChainReadLeavesItsStage :
    (State.chain (State.reset.setChain 0 { ChainSt.init with items := [abort0] }) 0).readable 0 = true
    ∧ (State.chain (State.reset.setChain 0 { ChainSt.init with items := [abort0] }) 0).items[0]? = some abort0
    ∧ (State.reset.chain 0).items.length ≤ (State.reset.chain 0).pos
    ∧ (let s := State.reset.setChain 0 { ChainSt.init with waitRead := true }
       (s.chain 0).waitRead = true ∧ (s.chain 0).waitWrite = none ∧ (s.chain 0).items.length < chainDepth 0
         ∧ (s.chain 0).pos = (s.chain 0).items.length ∧ item0.first = false ∧ item0.abort = false ∧ (s.chain 0).place item0 < chainDepth 0)
    ∧ (State.reset.chain 0).waitWrite = none ∧ (State.reset.chain 0).waitRead = false :=
  ⟨by decide +kernel, by decide +kernel, by decide, ⟨rfl, rfl, Nat.succ_pos _, rfl, rfl, rfl, Nat.succ_pos _⟩, rfl, rfl⟩

/-- A chain with a packet of the given items so far, all but its last in the chain. -/
def packetChain (run pos : Nat) : State :=
  State.reset.setChain 0 { ChainSt.init with items := List.replicate (run - 1) item0, run := run - 1, inPacket := true, pos := pos }

theorem test_witness_ChainAbortReleasesThePacket :
    (let s := State.reset.setChain 0 { ChainSt.init with items := [item0, abort0], pos := 1 }
     (s.chain 0).waitWrite = none ∧ (s.chain 0).waitRead = false ∧ (s.chain 0).items[(s.chain 0).pos]? = some abort0 ∧ abort0.abort = true)
    ∧ (State.chain (State.reset.setChain 0 { ChainSt.init with items := [item0, abort0] }) 0).items[0]? = some item0 ∧ item0.abort = false
    ∧ (let s := packetChain (chainDepth 0) 0
       abort0.first = false ∧ abort0.abort = true ∧ (s.chain 0).inPacket = true ∧ (s.chain 0).run < chainDepth 0
         ∧ (s.chain 0).items.length < chainDepth 0 ∧ (s.chain 0).pos + (s.chain 0).run ≤ (s.chain 0).items.length)
    ∧ (let s := State.reset.setChain 0 { ChainSt.init with run := chainDepth 0 - 1, inPacket := true, pos := 1 }
       item0.last = false ∧ (s.chain 0).place item0 = chainDepth 0 ∧ (s.chain 0).items.length < chainDepth 0 ∧ 0 < (s.chain 0).pos)
    ∧ (let s := State.reset.setChain 0 { ChainSt.init with run := chainDepth 0, inPacket := true }
       (s.chain 0).inPacket = true ∧ chainDepth 0 ≤ (s.chain 0).run) :=
  ⟨by decide +kernel, by decide +kernel, rfl, ⟨rfl, rfl, rfl, Nat.lt_succ_self _, by
    show (List.replicate (chainDepth 0 - 1) item0).length < chainDepth 0
    rw [List.length_replicate]; exact Nat.lt_succ_self _, by
    show 0 + (chainDepth 0 - 1) ≤ (List.replicate (chainDepth 0 - 1) item0).length
    exact Nat.le_of_eq (by rw [List.length_replicate, Nat.zero_add])⟩, ⟨rfl, rfl, Nat.succ_pos _, Nat.one_pos⟩, rfl, Nat.le_refl _⟩
/-! ### Witnesses: the link -/

/-- Group 0, member of an easel whose set is UP, with its lane 11 locked and the data of a row of half h to come on it. -/
def rowLane (h : Nat) : State :=
  (regs [(F.BRL_GRP_CFG_member, 1, 0), (F.BRL_GRP_STATUS_state, 6, 0), (F.BRL_GRP_STATUS_lane_lock, 4095, 0)]).updLane 0 11 fun x =>
    { x with first := false, data := 1, sure := true, row := some (false, 32 * h) }

theorem test_witness_LaneBlockLock :
    (let s := regs [(F.BRL_GRP_STATUS_state, 4, 0)]
     s.grpState 0 = 4 ∧ (s.on F.BRL_GRP_CFG_member 0 && s.lanesOut (s.rd F.BRL_GRP_CFG_easel 0)) = false
       ∧ bitOf (s.rd F.BRL_GRP_STATUS_lane_lock 0) 11 = false ∧ 0 < s.link.groups.length ∧ 11 < (s.group 0).lanes.length)
    ∧ (let s := (regs [(F.BRL_GRP_STATUS_state, 6, 15), (F.BRL_GRP_STATUS_lane_lock, 2048, 15)]).updLane 15 11 fun x =>
         { x with invalids := List.replicate 32 0 }
       s.grpState 15 = 6 ∧ (s.on F.BRL_GRP_CFG_member 15 && s.lanesOut (s.rd F.BRL_GRP_CFG_easel 15)) = false
         ∧ bitOf (s.rd F.BRL_GRP_STATUS_lane_lock 15) 11 = true ∧ (3 : Nat) ≠ 1 ∧ 32 ≤ (s.lane 15 11).invalids.length
         ∧ 15 < s.link.groups.length ∧ 11 < (s.group 15).lanes.length)
    ∧ (let s := (regs [(F.BRL_GRP_STATUS_state, 4, 0), (F.BRL_GRP_STATUS_lane_lock, 4095, 0)]).updLane 0 11 fun x => { x with first := true }
       s.grpState 0 = 4 ∧ bitOf (s.rd F.BRL_GRP_STATUS_lane_lock 0) 11 = true ∧ (s.lane 0 11).first = true
         ∧ s.rd F.BRL_GRP_STATUS_lane_lock 0 = 4095)
    ∧ (∀ h ∈ [0, 1], let s := rowLane h
       s.grpState 0 = 6 ∧ (s.on F.BRL_GRP_CFG_member 0 && s.lanesOut (s.rd F.BRL_GRP_CFG_easel 0)) = false
         ∧ bitOf (s.rd F.BRL_GRP_STATUS_lane_lock 0) 11 = true ∧ (s.lane 0 11).first = false ∧ 0 < (s.lane 0 11).data ∧ (s.lane 0 11).sure = true
         ∧ (s.lane 0 11).route = some h ∧ s.on F.BRL_GRP_CFG_member 0 = true ∧ s.setUp (s.rd F.BRL_GRP_CFG_easel 0) = true ∧ groupHalf 0 = 0
         ∧ s.slept (s.rd F.BRL_GRP_CFG_easel 0) 0 = false ∧ (s.lane 0 11).bufs.length = 2 ∧ s.link.intake.length = 2 ∧ s.link.intake.getD h 0 < intakeBlocks ∧ (s.lane 0 11).fwd = [])
    ∧ (let s := (regs [(F.BRL_GRP_STATUS_state, 4, 0)]).updLane 0 0 fun x => { x with run := 64 }
       s.grpState 0 = 4 ∧ bitOf (s.rd F.BRL_GRP_STATUS_lane_lock 0) 0 = false ∧ 64 ≤ (s.lane 0 0).run) := by decide +kernel

theorem test_lane_first_elsewhere :
    (let s := (regs [(F.BRL_GRP_STATUS_state, 4, 0), (F.BRL_GRP_STATUS_lane_lock, 4095, 0)]).updLane 0 11 fun x => { x with first := true }
     ∀ k ∈ List.range 11, (s.lane 0 k).first = false) := by decide +kernel

theorem test_witness_LinkGroupStates :
    (∀ x ∈ [1, 9], (regs [(F.BRL_GRP_STATUS_state, x, 0)]).grpState 0 = x
      ∧ (regs [(F.BRL_GRP_STATUS_state, x, 0)]).rd F.EASEL_STATUS_state ((regs [(F.BRL_GRP_STATUS_state, x, 0)]).rd F.BRL_GRP_CFG_easel 0) = 0)
    ∧ (let s := regs [(F.BRL_GRP_STATUS_state, 2, 0), (F.BRL_GRP_CFG_rate, 8, 0)]
       s.grpState 0 = 2 ∧ (s.group 0).wake = false
       ∧ (max 505000 (s.rd F.BRL_GRP_CFG_rate 0 * 62500) - min 505000 (s.rd F.BRL_GRP_CFG_rate 0 * 62500)) * 100 ≤ s.rd F.BRL_GRP_CFG_rate 0 * 62500
       ∧ s.rd F.BRL_GRP_CFG_rate 0 * 62500 < (max 505001 (s.rd F.BRL_GRP_CFG_rate 0 * 62500) - min 505001 (s.rd F.BRL_GRP_CFG_rate 0 * 62500)) * 100)
    ∧ (∀ x ∈ [3, 4, 5, 6, 7, 8], (regs [(F.BRL_GRP_STATUS_state, x, 15)]).grpState 15 = x
      ∧ (regs [(F.BRL_GRP_STATUS_state, x, 15)]).rd F.EASEL_STATUS_state ((regs [(F.BRL_GRP_STATUS_state, x, 15)]).rd F.BRL_GRP_CFG_easel 15) = 0) := by
  decide +kernel

theorem test_witness_LinkGroupConfiguration :
    (let s := regs [(F.PWR_STATE_released, 4, 0)]
     let v := 1 + 2 ^ 8 * 64
     8 ≤ bitsOf v 14 8 ∧ bitsOf v 14 8 ≤ (if bitsOf v 2 2 = 1 then 32 else 64) ∧ s.rd F.EASEL_STATUS_state (bitsOf v 5 4) = 0
       ∧ s.rd F.EASEL_STATUS_state (s.rd F.BRL_GRP_CFG_easel 0) = 0 ∧ v % 2 = 1 ∧ s.released (2 + 0 / 2) = true ∧ s.grpState 0 = 0)
    ∧ bitsOf (2 ^ 8 * 7) 14 8 < 8 ∧ 64 < bitsOf (2 ^ 8 * 65) 14 8 ∧ (bitsOf (4 + 2 ^ 8 * 33) 2 2 = 1 ∧ 32 < bitsOf (4 + 2 ^ 8 * 33) 14 8) := by
  decide +kernel

def flight0 : BcFlight := { tag := 3, code := 2, ticket := none }
/-- A control block of 7 bytes closed with its check. -/
def closed (l : List Byte) : List Byte := l ++ [crc8 l]

theorem test_witness_BackChannelCommands :
    (let s := regs [(F.BRL_GRP_STATUS_state, 6, 0), (F.BRL_GRP_STATUS_bc_awake, 1, 0)]
     (s.group 0).flight = none ∧ bitsOf (2 ^ 24) 26 24 = 1 ∧ bitsOf (2 ^ 25) 26 24 = 2 ∧ s.grpState 0 = 6 ∧ s.on F.BRL_GRP_STATUS_bc_awake 0 = true)
    ∧ (bitsOf (7 * 2 ^ 24) 26 24 ≠ 1 ∧ bitsOf (7 * 2 ^ 24) 26 24 ≠ 2 ∧ (State.reset.group 0).flight = none ∧ State.reset.grpState 0 ≠ 6)
    ∧ (let s := State.reset.updGroup 0 fun x => { x with flight := some flight0 }
       (s.group 0).flight = some flight0 ∧ crc8Good (closed [0x78, 3, 9, 0, 0, 0, 0]) = true
         ∧ fieldAt (closed [0x78, 3, 9, 0, 0, 0, 0]) 1 1 = flight0.tag ∧ fieldAt (closed [0x78, 3, 9, 0, 0, 0, 0]) 6 1 = 0 ∧ flight0.ticket = none ∧ (s.easel (s.rd F.BRL_GRP_CFG_easel 0)).bound = []) := by decide +kernel

/-- Lane 0 of group 0 with a run of one data block on its way over the bridge, its row homed on half h. -/
def bridged (h : Nat) : State :=
  (rowLane 0).updLane 0 0 fun x =>
    { x with fwd := [{ pos := 0, marker := 0, index := 1, hist := 0, blocks := [({ header := 1, payload := 0 }, { row := some (false, 32 * h), time := 1 })] }] }

theorem test_witness_DeskewAndTestPatterns :
    (let s := (regs [(F.BRL_GRP_STATUS_state, 5, 0), (F.BRL_GRP_CFG_enable, 1, 0)]).updLane 0 0 fun x =>
       { x with bufs := [[{ marker := 0, index := 0, header := 2, bytes := closed [0x2D, 0, 0, 255, 255, 255, 0] }], []] }
     s.grpState 0 = 5 ∧ (s.markerIn 0 0 0 (closed [0x2D, 0, 0, 255, 255, 255, 0])).isSome = true ∧ s.deskewOf (s.setHead 0) 0 = .collect []
       ∧ (([] : List (Nat × Nat × Nat)).filter fun x => x.1 ≠ s.lanePos 0 0).length + 1 < s.setLanes 0)
    ∧ (let s := State.reset.setDeskew 0 1 (.confirm 9 0 true)
       s.deskewOf (s.setHead 0) 1 = .confirm 9 0 true)
    ∧ (let s := (regs [(F.BRL_GRP_STATUS_lane_lock, 4095, 0)]).setDeskew 0 0 (.service 16777215 1)
       s.deskewOf (s.setHead 0) 0 = .service 16777215 1 ∧ ∀ k ∈ s.setOf 0, s.rd F.BRL_GRP_STATUS_lane_lock k = 4095)
    ∧ (∀ h ∈ [0, 1], let s := bridged h
       (s.lane 0 0).fwd.length = 1 ∧ (some (homeHalf false (32 * h)) = some 1 ↔ h = 1) ∧ s.slept (s.rd F.BRL_GRP_CFG_easel 0) 0 = false ∧ s.on F.BRL_GRP_CFG_member 0 = true ∧ s.setUp (s.rd F.BRL_GRP_CFG_easel 0) = true
         ∧ 0 < s.link.groups.length ∧ 0 < (s.group 0).lanes.length ∧ groupHalf 0 = 0 ∧ s.link.intake.length = 2
         ∧ s.link.intake.getD 1 0 < intakeBlocks ∧ (s.lane 0 0).bufs.length = 2)
    ∧ (let s := (regs [(F.BRL_GRP_STATUS_state, 8, 0)]).updLane 0 0 fun x => { x with prbsSeen := 31 }
       s.grpState 0 = 8 ∧ 31 ≤ (s.lane 0 0).prbsSeen) := by decide +kernel

theorem test_witness_link_whole :
    (let s := regs [(F.BRL_GRP_STATUS_state, 3, 0), (F.BRL_GRP_CFG_mode, 1, 0), (F.BRL_GRP_CTRL_dfe_freeze, 1, 0)]
     s.grpState 0 = 3 ∧ s.on F.BRL_GRP_CFG_mode 0 = true)
    ∧ (let s := (regs [(F.BRL_GRP_STATUS_state, 2, 0), (F.BRL_GRP_CFG_rate, 8, 0)]).updGroup 0 fun x => { x with wake := true }
       s.grpState 0 = 2 ∧ (s.group 0).wake = true
       ∧ (max 495000 (s.rd F.BRL_GRP_CFG_rate 0 * 62500) - min 495000 (s.rd F.BRL_GRP_CFG_rate 0 * 62500)) * 100 ≤ s.rd F.BRL_GRP_CFG_rate 0 * 62500)
    ∧ (let s := regs [(F.EASEL_STATUS_state, 1, 0), (F.BRL_GRP_CFG_rate, 64, 0)]
       let v := 1 + 2 ^ 8 * 64
       8 ≤ bitsOf v 14 8 ∧ bitsOf v 14 8 ≤ (if bitsOf v 2 2 = 1 then 32 else 64) ∧ bitsOf v 14 8 = s.rd F.BRL_GRP_CFG_rate 0
         ∧ bitsOf v 5 4 = s.rd F.BRL_GRP_CFG_easel 0 ∧ bitsOf v 3 3 = s.rd F.BRL_GRP_CFG_member 0 ∧ bitsOf v 2 2 = s.rd F.BRL_GRP_CFG_mode 0)
    ∧ ((regs [(F.BRL_GRP_STATUS_bc_awake, 1, 0)]).on F.BRL_GRP_STATUS_bc_awake 0 = true ∧ State.reset.on F.BRL_GRP_STATUS_bc_awake 0 = false) := by
  decide +kernel
/-! ### Witnesses: easels, frames and tickets -/

/-- Easel 0 opening with the smallest profile over group 0, every domain released and mode 0 offered. -/
def opening : State := regs
  [(F.EASEL_STATUS_state, 3, 0), (F.EASEL_GEOM_width, 64, 0), (F.EASEL_GEOM_height, 32, 0), (F.EASEL_RATE_rate_mfps, 1, 0),
   (F.BRL_GRP_CFG_member, 1, 0), (F.PWR_STATE_released, 4294967295, 0), (F.AGE_MODE0_offered, 1, 0)]

theorem test_witness_EaselOpensAndCloses :
    (∀ x ∈ [0, 1, 2, 3], (regs [(F.EASEL_STATUS_state, x, 3)]).rd F.EASEL_STATUS_state 3 = x)
    ∧ (opening.rd F.EASEL_STATUS_state 0 = 3 ∧ opening.planPending = false ∧ opening.sys.asked = none
      ∧ opening.admitCause 0 (opening.rd F.AGE_PLAN_plan_code) (opening.reqCode (opening.openEasels ++ [0])) = 0)
    ∧ (let s := regs [(F.EASEL_STATUS_state, 3, 3)]
       s.planPending = false ∧ s.sys.asked = none ∧ s.admitCause 3 (s.rd F.AGE_PLAN_plan_code) (s.reqCode (s.openEasels ++ [3])) = 1 ∧ (1 : Nat) ≠ 0)
    ∧ (let s := regs [(F.EASEL_STATUS_state, 1, 3), (F.TAKE_STATUS_state, 2, 3)]
       s.rd F.EASEL_STATUS_state 3 = 1 ∧ s.takeOpen 3 = true)
    ∧ (let s := withFrame (regs [(F.EASEL_STATUS_state, 1, 0)]) frame5
       s.rd F.EASEL_STATUS_state 0 = 1 ∧ s.takeOpen 0 = false ∧ (s.easel 0).pending = [] ∧ s.anyUnsettled 0 = true ∧ 0 < s.easels.length)
    ∧ (let s := regs [(F.EASEL_STATUS_state, 1, 3)]
       ((s.endTake 3 St.EASEL_CLOSED 1 keepNone).scrapeAll 3).rd F.EASEL_STATUS_state 3 ≠ 0) := by
  decide +kernel

/-- A set of one native group that is UP for easel 0, and its profile. -/
def up (state : Nat) : State := regs
  [(F.BRL_GRP_STATUS_state, 6, 0), (F.BRL_GRP_CFG_member, 1, 0), (F.EASEL_STATUS_state, state, 0), (F.EASEL_GEOM_width, 64, 0),
   (F.EASEL_GEOM_height, 64, 0), (F.EASEL_FMT_format, 0, 0)]

def fs0 : Option (List Byte) := some (closed [0x40, 5, 0, 0, 0, 0, 0])
def fs1 : Option (List Byte) := some (closed [0x41, 0, 0, 0, 0, 0, 0])
def fs2 (h : Byte) : Option (List Byte) := some (closed [0x42, 64, 0, h, 0, 0, 0])

theorem test_witness_FrameStarts :
    ((up 1).setUp 0 = true ∧ (up 1).lanesOut 0 = false ∧ (up 1).rd F.EASEL_STATUS_state 0 = 1 ∧ (up 1).fsBad 0 fs0 fs1 (fs2 64) = false
      ∧ (up 1).fsGeometry 0 fs1 (fs2 64) = false ∧ (up 1).fsBad 0 none fs1 (fs2 64) = true
      ∧ (up 1).fsBad 0 fs0 fs1 (fs2 32) = false ∧ (up 1).fsGeometry 0 fs1 (fs2 32) = true)
    ∧ ((up 0).setUp 0 = true ∧ (up 0).lanesOut 0 = false ∧ (up 0).rd F.EASEL_STATUS_state 0 = 0 ∧ (up 0).heritage 0 = false) := by decide +kernel

def report (index : Nat) : RowReport := { easel := 0, serial := 5, ob := false, index := index, result := 0, check := none, blocks := 12, spilt := false }
def stripe0 : RowStripe := { lanes := [[some { header := 2, bytes := closed [0x55, 0, 63, 0, 12, 0, 5] }]] }

theorem test_witness_RowsAndFrameEnds :
    (let s := withFrame (up 1) frame5
     s.setUp 0 = true ∧ s.lanesOut 0 = false ∧ (s.easel 0).discard = false ∧ s.current 0 = some frame5
       ∧ stripePlace (s.stripeKept 0 stripe0) (12 * (s.easelGroups 0).length) = some (false, 63)
       ∧ s.slept 0 ((s.easelGroups 0).headD 0) = false
       ∧ isControl 0x66 (some (closed [0x66, 0, 0, 0, 0, 0, 0])) = true)
    ∧ ((up 1).setUp 0 = true ∧ (up 1).lanesOut 0 = false ∧ (up 1).slept 0 (((up 1).easelGroups 0).headD 0) = false ∧ (up 1).current 0 = none
      ∧ ((up 1).easel 0).discard = false)
    ∧ (let s := withFrame { State.reset with link := { State.reset.link with reports := [report 63] } } frame5
       s.link.reports = [report 63] ∧ 0 < s.easels.length ∧ s.frame 0 5 = some frame5 ∧ frame5.st = .opened ∧ frame5.ended = false
         ∧ (report 63).index < frame5.height ∧ (report 63).result = 0 ∧ (report 63).spilt = false)
    ∧ (let f := { frame5 with st := .dry }
       let s := withFrame { State.reset with link := { State.reset.link with reports := [report 63] } } f
       s.link.reports = [report 63] ∧ s.frame 0 5 = some f ∧ f.unsettled = false) := by decide +kernel

theorem test_witness_SettledStateFollowsTheFaultWord :
    State.reset.rd F.EASEL_STATUS_state 0 ≠ 2 ∧ (bitOf frame5.fault 0 = false ∧ frame5.fault % 128 = 0 ∧ frame5.bad = 0)
    ∧ (let f := { frame5 with seen := List.range 64 }
       bitOf f.fault 0 = false ∧ f.missing = 0 ∧ f.fault % 128 = 0 ∧ f.bad = 0)
    ∧ (let f := { frame5 with fault := 1, onShort := true }
       bitOf f.fault 0 = true ∧ f.onShort = true) := by decide +kernel

def ticket (easel : Nat) : Cmd := cmdOf 0x01 [(16, 9), (20, easel), (21, 4)]

theorem test_witness_Tickets :
    (let s := withCmd State.reset (cmdOf 0x01 [])
     s.Waits 7 0x01 (cmdOf 0x01 []) ∧ (cmdOf 0x01 []).mute = false ∧ (cmdOf 0x01 []).w 16 = 0)
    ∧ (let s := withCmd State.reset (ticket 3)
       s.Waits 7 0x01 (ticket 3) ∧ (ticket 3).w 16 ≠ 0 ∧ (ticket 3).b 21 ≤ 4 ∧ (ticket 3).h 22 = 0 ∧ (ticket 3).h 34 = 0 ∧ (ticket 3).w 60 = 0
         ∧ (ticket 3).b 20 = 3 ∧ 3 < s.easels.length ∧ s.rd F.EASEL_STATUS_state 3 ≠ 1)
    ∧ (let s := withCmd (regs [(F.EASEL_STATUS_state, 1, 3)]) (ticket 3)
       s.Waits 7 0x01 (ticket 3) ∧ s.rd F.EASEL_STATUS_state 3 = 1)
    ∧ (let d := { ticket 3 with id := 6, stage := .running }
       let s := (withCmd (withCmd (regs [(F.EASEL_STATUS_state, 1, 3)]) d) (ticket 3)).updEasel 3 fun x => { x with pending := [6] }
       s.Waits 7 0x01 (ticket 3) ∧ s.rd F.EASEL_STATUS_state 3 = 1 ∧ (s.easel 3).pending = [6] ∧ (6 : Nat) ≠ 7 ∧ s.Runs 6 0x01 d ∧ d.mute = false)
    ∧ (let s := State.reset.updEasel 3 fun x => { x with window := some 5 }
       (s.easel 3).window = some 5 ∧ (s.easel 3).pending = []) := by
  simp only [State.Waits, State.Runs]; decide +kernel

def condFrame5 (black : Option (List (Int × Nat))) : CondFrame :=
  { serial := 5, set := CondSet.init, filt := List.replicate 4 (0, 1), src := 0, table := [], black := black, weak := [], waited := false, fuse := [], hits := [] }

def row5 : RowData := { easel := 0, serial := 5, ob := false, index := 63, bad := false, data := [], held := 0 }
def fused5 : FusedTile := { easel := 0, serial := 5, tile := 1, record := [], data := [1] }

theorem test_witness_BandsTilesAndCanvasWrites :
    (let s := { opening with brush := { BrushSt.init with ready := [[], [(0, 5, 1)]] } }
     s.brush.ready.getD 1 [] = [(0, 5, 1)] ∧ s.brushes 1 ≠ 0 ∧ s.brushesOut 1 = false)
    ∧ (let s := (withFrame { opening with brush := { BrushSt.init with taken := [(0, 5, 1)] }, link := { State.reset.link with rows := [row5] } }
         frame5).updCond 0 fun c => { c with frames := [condFrame5 none] }
       s.frame 0 5 = some frame5 ∧ s.condFrame 0 5 = some (condFrame5 none) ∧ (frame5.blackSource = 1 → (condFrame5 none).black.isSome = true)
         ∧ 1 / max 1 (frame5.width / 64) < frame5.height / 32 ∧ s.brushesOut (1 / max 1 (frame5.width / 64) % 2) = false ∧ s.brushes (1 / max 1 (frame5.width / 64) % 2) ≠ 0
         ∧ s.brush.taken.contains (0, 5, 1 / max 1 (frame5.width / 64)) = true
         ∧ s.brush.closed.contains (0, 5, 1) = false
         ∧ (s.link.rows.any fun r => r.easel == 0 && r.serial == 5 && !r.ob && r.index / 32 == 1 / max 1 (frame5.width / 64)) = true)
    ∧ (let s := withSlot { regs [(F.HBM_STACK_STATUS_state, 2, 0), (F.HBM_STACK_STATUS_state, 2, 1)] with brush := { BrushSt.init with fused := [fused5] } } .wet []
       s.brush.fused.find? (fun x => x.easel == 0 && x.serial == 5 && x.tile == 1) = some fused5 ∧ s.slotOf 0 5 = some 0 ∧ s.hbm.held = []
         ∧ s.stackFault (stackOf ((s.canvas 0).tileAddr 0 1)) = false ∧ s.stackFault (stackOf ((s.canvas 0).recAddr 0 1)) = false
         ∧ s.hbmWaits ((s.canvas 0).tileAddr 0 1) fused5.data.length = false ∧ s.hbmWaits ((s.canvas 0).recAddr 0 1) fused5.record.length = false)
    ∧ ({ State.reset with notices := [(.view, 3, 5)] } : State).notices.contains (.view, 3, 5) = true := by decide +kernel

theorem test_witness_CanvasHolds :
    let s := withSlot State.reset .settled [(0, .packer), (1, .barrow 3)]
    0 < s.hbm.canvases.length ∧ (s.canvas 0).slots[0]? = some { st := .settled, serial := 5, holds := [(0, .packer), (1, .barrow 3)] } := by decide +kernel


theorem test_witness_easels_whole :
    ((up 1).lanesOut 0 = false ∧ (up 1).easelGroups 0 ≠ [] ∧ (up 1).setUp 0 = true
      ∧ ((up 1).updEasel 0 fun x => { x with discard := true }).setUp 0 = true
      ∧ (((up 1).updEasel 0 fun x => { x with discard := true }).easel 0).discard = true)
    ∧ (let s := withFrame (up 1) frame5
       let none5 : RowStripe := { lanes := [[none]] }
       s.setUp 0 = true ∧ s.lanesOut 0 = false ∧ (s.easel 0).discard = false ∧ s.current 0 = some frame5
         ∧ stripePlace (s.stripeKept 0 none5) (12 * (s.easelGroups 0).length) = none
         ∧ s.slept 0 ((s.easelGroups 0).headD 0) = false ∧ isControl 0x66 (some [0x66, 0, 0, 0, 0, 0, 0, 0]) = false) := by decide +kernel
/-! ### Witnesses: conditioning and colour -/

/-- A set of view 7 that passes: a crop of 64 × 32 at its own size. -/
def viewSet7 : RegStore :=
  [(F.VIEW_CROP_SIZE_x, 64), (F.VIEW_CROP_SIZE_y, 32), (F.VIEW_OUT_SIZE_x, 64), (F.VIEW_OUT_SIZE_y, 32), (F.VIEW_RING_CFG_depth, 2)].map fun x =>
    (⟨x.1.base, x.1.lo, 7, 0⟩, x.2)

theorem test_witness_SettingsCommits :
    (State.reset.on F.COND_COMMIT_pending 3 = false ∧ State.reset.on F.PAL_COMMIT_pending 3 = false ∧ State.reset.on F.VIEW_COMMIT_pending 7 = false
      ∧ 3 < State.reset.cond.length ∧ 3 < State.reset.pal.length ∧ 7 < State.reset.views.length)
    ∧ ((regs [(F.COND_COMMIT_pending, 1, 3)]).on F.COND_COMMIT_pending 3 = true ∧ (regs [(F.PAL_COMMIT_pending, 1, 3)]).on F.PAL_COMMIT_pending 3 = true
      ∧ (regs [(F.VIEW_COMMIT_pending, 1, 7)]).on F.VIEW_COMMIT_pending 7 = true)
    ∧ (let s := State.reset.updCond 0 fun c => { c with check := some [] }
       s.planPending = false ∧ s.mapWaits 0 = false ∧ (s.condOf 0).check = some [] ∧ (bareSet []).rd F.COND_MAP_COUNT_value 0 = 0 ∧ s.condRanges 0 (bareSet []) = true)
    ∧ (let r : RegStore := [(⟨F.COND_MAP_COUNT_value.base, F.COND_MAP_COUNT_value.lo, 0, 0⟩, 262145)]
       let s := State.reset.updCond 0 fun c => { c with check := some r }
       s.planPending = false ∧ s.mapWaits 0 = false ∧ (s.condOf 0).check = some r ∧ 262144 < (bareSet r).rd F.COND_MAP_COUNT_value 0)
    ∧ (let r : RegStore := [(⟨F.COND_FUSE_RATIO_ratio.base, F.COND_FUSE_RATIO_ratio.lo, 0, 0⟩, 0)]
       let s := State.reset.updCond 0 fun c => { c with check := some r }
       s.planPending = false ∧ s.mapWaits 0 = false ∧ (s.condOf 0).check = some r ∧ s.condRanges 0 (bareSet r) = false)
    ∧ (let s := State.reset.updPal 0 fun c => { c with check := some [] }
       (s.palOf 0).check = some [] ∧ palRanges [] 0 = true ∧ palUses [] 0 = none)
    ∧ (let r : RegStore := [(⟨F.PAL_STATS_CFG_depth_log2.base, F.PAL_STATS_CFG_depth_log2.lo, 0, 0⟩, 9)]
       palRanges r 0 = false)
    ∧ (let s := (regs [(F.EASEL_STATUS_state, 1, 0), (F.EASEL_GEOM_width, 64, 0), (F.EASEL_GEOM_height, 32, 0)]).updView 7 fun c =>
         { c with check := some viewSet7 }
       let s := s.updHbm fun h => { h with plan := [region 0 0 256 4 7] }
       s.planPending = false ∧ 7 < s.views.length ∧ (s.view 7).check = some viewSet7 ∧ s.viewRanges viewSet7 7 = true ∧ viewUses viewSet7 7 = none
         ∧ (pictureChanges (s.view 7).inForce viewSet7 7 && s.viewNamed 7) = false ∧ s.rd F.EASEL_STATUS_state (s.viewEasel 7) ≠ 0)
    ∧ (let s := State.reset.updView 7 fun c => { c with check := some [] }
       s.planPending = false ∧ (s.view 7).check = some [] ∧ s.viewRanges [] 7 = false) := by
  refine ⟨?_, ?_, ?_, ?_, ?_, ?_, ?_, ?_, ?_⟩ <;> decide +kernel

def cal (kind target forced : Nat) : Cmd := cmdOf 0x02 [(16, kind), (17, target), (18, forced)]
def runOf (kind : Nat) (cmds : List Nat) (running : Bool) : CalRun :=
  { kind := kind, cmds := cmds, auto := false, forced := false, running := running, since := 0, first := 0, need := 0, taken := 0,
    sums := { black := [], cols := [], fuse := [], hits := [] }, last := 0 }
def run7 (cmds : List Nat) (running : Bool) : CalRun := runOf 7 cmds running
def withRun (r : CalRun) : State := State.reset.setRuns 7 1 fun _ => [r]

theorem test_witness_BlackEstimateAndCalibration :
    (let f := { frame5 with obRows := 4 }
     let s := (withFrame State.reset f).updCond 0 fun c => { c with frames := [condFrame5 none] }
     s.frame 0 5 = some f ∧ s.condFrame 0 5 = some (condFrame5 none) ∧ f.blackSource = 1 ∧ (condFrame5 none).black = none)
    ∧ (let s := withCmd State.reset (cal 0 0 0)
       s.Waits 7 0x02 (cal 0 0 0) ∧ (cal 0 0 0).mute = false ∧ calBad (cal 0 0 0) (s.rd F.RING_SQ_STATUS_role (cal 0 0 0).ring) = true)
    ∧ (let s := withCmd State.reset (cal 7 1 0)
       s.Waits 7 0x02 (cal 7 1 0) ∧ s.rd F.RING_SQ_STATUS_role (cal 7 1 0).ring ≠ 3 ∧ calBad (cal 7 1 0) (s.rd F.RING_SQ_STATUS_role (cal 7 1 0).ring) = true)
    ∧ (let s := withCmd (regs [(F.TAKE_STATUS_state, 1, 3), (F.RING_SQ_STATUS_role, 3, 0)]) (cal 7 1 1)
       s.Waits 7 0x02 (cal 7 1 1) ∧ calBad (cal 7 1 1) (s.rd F.RING_SQ_STATUS_role (cal 7 1 1).ring) = false ∧ (cal 7 1 1).b 16 = 7
         ∧ (cal 7 1 1).b 18 = 1 ∧ s.anyTakeOpen = true)
    ∧ (let s := withCmd (regs [(F.RING_SQ_STATUS_role, 3, 0)]) (cal 7 1 0)
       s.Waits 7 0x02 (cal 7 1 0) ∧ calBad (cal 7 1 0) (s.rd F.RING_SQ_STATUS_role (cal 7 1 0).ring) = false ∧ (cal 7 1 0).b 16 = 7
         ∧ (cal 7 1 0).b 17 = 1 ∧ (cal 7 1 0).b 18 = 0 ∧ 1 < s.condHalf.length ∧ s.calRuns 7 1 = [])
    ∧ ((withRun (run7 [] false)).calRuns 7 1 = [run7 [] false] ∧ (run7 [] false).kind = 7 ∧ (run7 [] false).running = false
      ∧ 1 < (withRun (run7 [] false)).condHalf.length ∧ (withRun (run7 [] false)).brush.ready.getD 1 [] = []
      ∧ (withRun (run7 [] false)).brushBusy 1 = false)
    ∧ (let s := withFrame (State.reset.setRuns 4 0 fun _ => [runOf 4 [] false]) frame5
       let s := s.updEasel 0 fun x => { x with accepted := 1 }
       (s.calRuns 4 0).find? (fun r => r.kind == 4) = some (runOf 4 [] false) ∧ (runOf 4 [] false).running = false
         ∧ ((s.easel 0).frames.take ((s.easel 0).accepted - (runOf 4 [] false).since)).reverse.head? = some frame5)
    ∧ (let s := State.reset.setRuns 3 0 fun _ => [runOf 3 [] true]
       s.calRuns 3 0 = [runOf 3 [] true] ∧ (runOf 3 [] true).kind = 3 ∧ (runOf 3 [] true).running = true ∧ (runOf 3 [] true).need ≤ (runOf 3 [] true).taken
         ∧ 0 < s.cond.length)
    ∧ ((withRun (run7 [] true)).calRuns 7 1 = [run7 [] true] ∧ (run7 [] true).running = true ∧ (run7 [] true).cmds = [])
    ∧ (let c := cmdOf 0x02 [(16, 7)] .running
       let s := withCmd (withRun (run7 [7] false)) c
       s.calRuns 7 1 = [run7 [7] false] ∧ (run7 [7] false).auto = false ∧ s.cmd 7 = some c ∧ c.stage = .running ∧ c.mute = false) := by
  simp only [State.Waits]; decide +kernel

def palLoad (slot : Nat) : Cmd := cmdOf 0x03 [(16, 0), (17, slot), (33, 0x85), (34, 0x19)]

/-- A palette image of zeros: its head with a CRC, and the body the CRC covers. -/
def palHead (crc : Nat) : List Byte :=
  le 4 0x4C41504E ++ le 2 1 ++ le 2 0 ++ (List.range 3).flatMap (fun _ => le 4 0 ++ le 4 0x3F800000) ++ le 4 crc ++ List.replicate 28 0
def palBody : List Byte := List.replicate 1672384 0

theorem palHead_field (crc : Nat) (body : List Byte) (h : crc < 4294967296) :
    (palHead crc).length = 64 ∧ fieldAt (palHead crc ++ body) 32 4 = crc ∧ fieldAt (palHead crc ++ body) 0 4 = 0x4C41504E
      ∧ fieldAt (palHead crc ++ body) 4 2 = 1 ∧ fieldAt (palHead crc ++ body) 6 2 = 0
      ∧ (∀ k < 3, fieldAt (palHead crc ++ body) (8 + 4 * (2 * k)) 4 = 0 ∧ fieldAt (palHead crc ++ body) (8 + 4 * (2 * k + 1)) 4 = 0x3F800000) := by
  refine ⟨rfl, ?_, ?_, ?_, ?_, ?_⟩
  · simp [fieldAt, bytesAt, palHead, le, ofLe, List.range_succ]; omega
  · simp [fieldAt, bytesAt, palHead, le, ofLe, List.range_succ]
  · simp [fieldAt, bytesAt, palHead, le, ofLe, List.range_succ]
  · simp [fieldAt, bytesAt, palHead, le, ofLe, List.range_succ]
  · intro k hk
    match k, hk with
    | 0, _ | 1, _ | 2, _ => simp [fieldAt, bytesAt, palHead, le, ofLe, List.range_succ]

theorem palBody_field (head : List Byte) (h : head.length = 64) (k : Nat) (hk : k < 836163) : fieldAt (head ++ palBody) (64 + 2 * k) 2 = 0 := by
  have g : ∀ i < 2, (head ++ palBody).getD (64 + 2 * k + i) 0 = (0 : Byte) := by
    intro i hi
    rw [List.getD_eq_getElem?_getD, List.getElem?_append_right (by omega), palBody, List.getElem?_replicate]
    split <;> rfl
  simp [fieldAt, bytesAt, List.range_succ, ofLe] at g ⊢
  have a := g 0 (by omega); have b := g 1 (by omega)
  simp at a b
  simp [a, b]

theorem image_exists : ∃ image, imageOk image = true ∧ image.length = 1672448 := by
  refine ⟨palHead (crc32c palBody) ++ palBody, ?_, ?_⟩
  case refine_2 => rw [List.length_append, palBody, List.length_replicate]; rfl
  have hc : crc32c palBody < 4294967296 := by unfold crc32c; exact BitVec.isLt _
  generalize hn : crc32c palBody = n at hc ⊢
  obtain ⟨l, a, b, c, d, e⟩ := palHead_field n palBody hc
  have e0 := e 0 (by decide); have e1 := e 1 (by decide); have e2 := e 2 (by decide)
  have hd : (palHead n ++ palBody).drop 64 = palBody := by rw [← l]; exact List.drop_left
  have hl : (palHead n ++ palBody).length = 1672448 := by rw [List.length_append, l, palBody, List.length_replicate]
  simp only [imageOk, hd, hl, hn, a, b, c, d, e0.1, e0.2, e1.1, e1.2, e2.1, e2.2, Bool.and_eq_true, List.all_eq_true, List.mem_range]
  refine ⟨⟨by decide, by simp⟩, fun k hk => ?_⟩
  rw [palBody_field _ l k hk]; decide

/-- A PIPE region in each stack that holds the palette slots. -/
def piped : State := (ready (regs [(F.PWR_STATE_released, 4294967295, 0)])).updHbm fun h => { h with plan := [region 0 0 65536 5 0, region 1 0x1000000 65536 5 0] }

theorem test_witness_Palettes :
    (let s := withCmd State.reset (palLoad 200)
     s.planPending = false ∧ s.Waits 7 0x03 (palLoad 200) ∧ (palLoad 200).mute = false ∧ palBad (palLoad 200) = true)
    ∧ (let s := withCmd piped (palLoad 3)
       s.planPending = false ∧ s.Waits 7 0x03 (palLoad 3) ∧ palBad (palLoad 3) = false ∧ (s.slotPlaces (slotNumber (palLoad 3))).isSome = true ∧ bitOf (s.loadTarget (palLoad 3)).2 ((palLoad 3).b 17) = false
         ∧ ((s.loadTarget (palLoad 3)).1.getD ((palLoad 3).b 17) PalSlot.init).loading = false ∧ (palLoad 3).b 17 < (s.loadTarget (palLoad 3)).1.length)
    ∧ (let c := cmdOf 0x03 [(17, 3)] .running
       (withCmd State.reset c).Runs 7 0x03 c ∧ c.mute = false ∧ imageOk [] = false)
    ∧ (let c := cmdOf 0x03 [(17, 3)] .running
       let s := withCmd piped c
       s.Runs 7 0x03 c ∧ s.hbm.held = [] ∧ s.slotPlaces (slotNumber c) = some (72134656, 68791611392)
         ∧ s.stackFault (stackOf 72134656) = false ∧ s.stackFault (stackOf 68791611392) = false ∧ s.hbmWaits 72134656 1672448 = false
         ∧ s.hbmWaits 68791611392 1672448 = false)
    ∧ ∃ image, imageOk image = true ∧ image.length = 1672448 := by
  simp only [State.Waits, State.Runs]
  refine ⟨?_, ?_, ?_, ?_, image_exists⟩ <;> decide +kernel

/-- A frame of easel 0 with its statistics, which views may take. -/
def pictured : State :=
  (withFrame (regs [(F.VIEW_CTRL_enable, 1, 7)]) frame5).updPal 0 fun p =>
    { p with frames := [{ serial := 5, pal := [], hist := [], clips := [], zones := [], present := 0, damaged := 0, views := [], noCrop := [], fallback := [], checked := [] }], queue := [5] }

def viewOf (l : List ViewSlot) : State :=
  pictured.updView 7 fun x => { x with inForce := [(⟨F.VIEW_CTRL_enable.base, F.VIEW_CTRL_enable.lo, 7, 0⟩, 1)], ring := l }
def slot7 (writing : Bool) : ViewSlot :=
  { used := true, writing := writing, serial := 5, easel := 0, wet := false, state := 0, fault := 0, count := 0, lines := 0, avail := 0, holders := [], set := [], hurt := false, begun := 0 }

theorem test_witness_ViewPicturesAndStatistics :
    ((viewOf []).viewEaselOf 7 5 = 0 ∧ (viewOf []).frame 0 5 = some frame5 ∧ (viewOf []).viewMay 7 0 frame5 = true
      ∧ (∀ g ∈ (viewOf []).statFrame 0 5, regOn g.pal F.PAL_CTRL_source 0 = false)
      ∧ sameRing ((viewOf []).viewSet 7 0 5) ((viewOf []).view 7).inForce 7 = true ∧ (viewOf []).freeViewSlot 7 = none)
    ∧ ((viewOf [slot7 false]).viewMay 7 0 frame5 = true ∧ (viewOf [slot7 false]).freeViewSlot 7 = some 0)
    ∧ (let f := { frame5 with ended := true }
       let s := (viewOf [slot7 true]).updEasel 0 fun x => { x with frames := [f] }
       s.writingPicture 7 = some (false, 0, slot7 true) ∧ s.frame 0 5 = some f ∧ (s.statFrame 0 5).isSome = true
         ∧ (∀ g ∈ s.statFrame 0 5, s.tilesIn 0 7 f g = true ∧ s.pictureWaits 7 (slot7 true) f g = false) ∧ s.viewHeld 7 = false)
    ∧ ((pictured.palOf 0).queue = [5] ∧ pictured.notices = [] ∧ (pictured.statFrame 0 5).isSome = true ∧ 0 < pictured.pal.length
      ∧ ahead (pictured.rd F.PAL_STATS_TAIL_value 0) (pictured.rd F.PAL_STATS_HEAD_value 0) ≠ 2 ^ regOf (pictured.palOf 0).inForce F.PAL_STATS_CFG_depth_log2 0)
    ∧ (let s := pictured.wr F.PAL_STATS_TAIL_value (2 ^ regOf (pictured.palOf 0).inForce F.PAL_STATS_CFG_depth_log2 0)
       (s.palOf 0).queue = [5] ∧ s.notices = []
         ∧ ahead (s.rd F.PAL_STATS_TAIL_value 0) (s.rd F.PAL_STATS_HEAD_value 0) = 2 ^ regOf (s.palOf 0).inForce F.PAL_STATS_CFG_depth_log2 0) := by decide +kernel

theorem test_witness_Palettes_waits :
    (regs [(F.HBM_PLAN_COMMIT_pending, 1, 0)]).planPending = true := by decide +kernel
/-! ### A palette image that verifies -/

theorem bytesAt_left (h t : List Byte) (a k : Nat) (hk : a + k ≤ h.length) : bytesAt (h ++ t) a k = bytesAt h a k := by
  unfold bytesAt
  refine List.map_congr_left fun i hi => ?_
  have : a + i < h.length := by have := List.mem_range.mp hi; omega
  simp [List.getD_eq_getElem?_getD, List.getElem?_append_left this]

theorem bytesAt_zeros (h : List Byte) (n a k : Nat) (hk : h.length ≤ a) : bytesAt (h ++ List.replicate n 0) a k = bytesAt [] 0 k := by
  unfold bytesAt
  refine List.map_congr_left fun i _ => ?_
  have : h.length ≤ a + i := by omega
  simp only [List.getD_eq_getElem?_getD, List.getElem?_append_right this, List.getElem?_replicate]
  split <;> rfl

/-- The header of an image without tables: ranges 0 to 1, and the check of its data. -/
def imageFront : List Byte :=
  le 4 0x4C41504E ++ [1, 0, 0, 0] ++ [0, 0, 0, 0, 0, 0, 0x80, 0x3F] ++ [0, 0, 0, 0, 0, 0, 0x80, 0x3F] ++ [0, 0, 0, 0, 0, 0, 0x80, 0x3F]
def imageHead (crc : Nat) : List Byte := imageFront ++ (le 4 crc ++ List.replicate 28 0)

theorem fieldAt_le4 (l t : List Byte) (n : Nat) (h : n < 4294967296) : fieldAt (l ++ (le 4 n ++ t)) l.length 4 = n := by
  have e : bytesAt (l ++ (le 4 n ++ t)) l.length 4 = le 4 n := by
    simp [bytesAt, List.range, List.range.loop, List.getD_eq_getElem?_getD, List.getElem?_append_right, le]
  rw [fieldAt, e]
  simp [le, ofLe]
  omega

theorem test_witness_Palettes_image : ∃ image, imageOk image = true := by
  refine ⟨imageHead (crc32c (List.replicate 1672384 0)) ++ List.replicate 1672384 0, ?_⟩
  generalize hc : crc32c (List.replicate 1672384 0) = c
  have hb : c < 4294967296 := by rw [← hc, crc32c]; exact BitVec.isLt _
  have hl : (imageHead c).length = 64 := by simp [imageHead, imageFront, le]
  have f : ∀ a k, a + k ≤ 64 → fieldAt (imageHead c ++ List.replicate 1672384 0) a k = fieldAt (imageHead c) a k := fun a k h => by
    rw [fieldAt, fieldAt, bytesAt_left _ _ _ _ (by omega)]
  have g : ∀ k, fieldAt (imageHead c ++ List.replicate 1672384 0) (64 + 2 * k) 2 = 0 := fun k => by
    rw [fieldAt, bytesAt_zeros _ _ _ _ (by omega)]; decide
  have h32 : fieldAt (imageHead c) 32 4 = c := fieldAt_le4 imageFront _ c hb
  have hd : (imageHead c ++ List.replicate 1672384 0).drop 64 = List.replicate 1672384 0 := by rw [← hl, List.drop_left]
  have hh : halfFinite 0 = true := by decide
  have hz : ∀ a k, a + k ≤ 32 → fieldAt (imageHead c) a k = fieldAt imageFront a k := fun a k h => by
    rw [fieldAt, fieldAt, imageHead, bytesAt_left _ _ _ _ h]
  have hlen : (imageHead c ++ List.replicate 1672384 (0 : Byte)).length = 1672448 := by rw [List.length_append, hl, List.length_replicate]
  have h1 : ∀ k < 6, fieldAt (imageHead c ++ List.replicate 1672384 0) (8 + 4 * k) 4 = fieldAt imageFront (8 + 4 * k) 4 := fun k h => by
    rw [f _ _ (by omega), hz _ _ (by omega)]
  have a0 : fieldAt (imageHead c ++ List.replicate 1672384 0) 0 4 = 0x4C41504E := by rw [f _ _ (by omega), hz _ _ (by omega)]; decide
  have a4 : fieldAt (imageHead c ++ List.replicate 1672384 0) 4 2 = 1 := by rw [f _ _ (by omega), hz _ _ (by omega)]; decide
  have a6 : fieldAt (imageHead c ++ List.replicate 1672384 0) 6 2 = 0 := by rw [f _ _ (by omega), hz _ _ (by omega)]; decide
  have a32 : fieldAt (imageHead c ++ List.replicate 1672384 0) 32 4 = c := by rw [f _ _ (by omega), h32]
  have al : ((List.range 836163).all fun k => halfFinite (fieldAt (imageHead c ++ List.replicate 1672384 0) (64 + 2 * k) 2)) = true := by
    rw [List.all_eq_true]; intro k _; rw [g, hh]
  simp only [imageOk, hlen, a0, a4, a6, a32, hd, hc, al, h1 (2 * 0) (by omega), h1 (2 * 0 + 1) (by omega), h1 (2 * 1) (by omega), h1 (2 * 1 + 1) (by omega),
    h1 (2 * 2) (by omega), h1 (2 * 2 + 1) (by omega), beq_self_eq_true, Bool.and_true]
  decide +kernel

/-! ### Witnesses: packer and HBM -/

def packTile5 : PackTile := { seq := 0, easel := 0, serial := 5, tile := 1, record := List.replicate 16 0, data := [], void := true }

/-- The packer of half 1 powered, its lanes with the given ring size in 4 KiB units, and a tile in lane 47. -/
def packing (size : Nat) (stalled : Bool) : State :=
  (regs [(F.PWR_STATE_released, 4294967295, 0), (F.LZP_CTRL_enable, 1, 1), (F.LZP_RING_LANE_lane_4k, size, 1), (F.TAKE_STATUS_packed, 1, 0)]).updPack 1
    fun z => { z with lanes := updAt z.lanes 47 fun l => { l with tiles := [packTile5], stalled := stalled } }

/-- The bits after one item (R241), as encodeFrom writes them. -/
def itemBits (tok : List Nat) (q : Nat) (entries : List (Nat × Nat)) (b : Bits) : Bits × Nat :=
  if 8 ≤ (longestCopy tok q).2 ∧ (longestPhrase tok q entries).2 < (longestCopy tok q).2 then
    (((b.put 257 (codeWidth (259 + entries.length))).put ((longestCopy tok q).1 - 1) 7).put ((longestCopy tok q).2 - 1) 11, (longestCopy tok q).2)
  else if 2 ≤ (longestPhrase tok q entries).2 then
    (b.put (longestPhrase tok q entries).1 (codeWidth (259 + entries.length)), (longestPhrase tok q entries).2)
  else if tok.getD q 0 < 256 then (b.put (tok.getD q 0) (codeWidth (259 + entries.length)), 1)
  else if tok.getD q 0 ≤ 510 then ((b.put 256 (codeWidth (259 + entries.length))).put (tok.getD q 0 - 256) 8, 1)
  else (((b.put 256 (codeWidth (259 + entries.length))).put 255 8).put (tok.getD q 0 - 512) 16, 1)

theorem itemBits_grows (tok : List Nat) (q : Nat) (entries : List (Nat × Nat)) (b : Bits) : b.2 < (itemBits tok q entries b).1.2 := by
  have w : 0 < codeWidth (259 + entries.length) := by unfold codeWidth; (repeat' split) <;> omega
  unfold itemBits
  generalize codeWidth (259 + entries.length) = n at w
  (repeat' split) <;> simp only [Bits.put] <;> omega

theorem encode_step (tok : List Nat) (n q : Nat) (prev : Option (Nat × Nat)) (e : List (Nat × Nat)) (b : Bits) (h : ¬2048 ≤ q) :
    ∃ entries, encodeFrom tok (n + 1) q prev e b = if 32760 < (itemBits tok q entries b).1.2 then ((itemBits tok q entries b).1, false)
      else encodeFrom tok n (q + (itemBits tok q entries b).2) (some (q, (itemBits tok q entries b).2)) entries (itemBits tok q entries b).1 := by
  exact ⟨_, if_neg h⟩

theorem encode_grows (tok : List Nat) (fuel : Nat) : ∀ q prev e (b : Bits), b.2 ≤ (encodeFrom tok fuel q prev e b).1.2 := by
  induction fuel with
  | zero => intro q prev e b; exact Nat.le_refl _
  | succ n ih =>
    intro q prev e b
    by_cases h : 2048 ≤ q
    · have k : encodeFrom tok (n + 1) q prev e b = (b, true) := if_pos h
      exact Nat.le_of_eq (congrArg (fun x => x.1.2) k).symm
    · obtain ⟨entries, k⟩ := encode_step tok n q prev e b h
      have g := itemBits_grows tok q entries b
      rw [k]
      split
      · exact Nat.le_of_lt g
      · exact Nat.le_trans (Nat.le_of_lt g) (ih _ _ _ _)

theorem encode_writes (tok : List Nat) (n : Nat) : 0 < (encodeFrom tok (n + 1) 0 none [] (0, 0)).1.2 := by
  obtain ⟨entries, k⟩ := encode_step tok n 0 none [] (0, 0) (by omega)
  have g := itemBits_grows tok 0 entries (0, 0)
  rw [k]
  split
  · exact g
  · exact Nat.lt_of_lt_of_le g (encode_grows _ _ _ _ _ _)

theorem packBits_writes (data : List Byte) : 0 < (packBits data).1.2 := by
  have h : ∀ k, k = 2047 + 1 → 0 < (encodeFrom (tokens (tileSamples data)) k 0 none [] (0, 0)).1.2 := by
    intro k e; rw [e]; exact encode_writes _ _
  unfold packBits; generalize e : 2048 = k; exact h k e.symm

theorem packOutput_writes (p : PackTile) (v : p.void = false) (r : recPresent p.record = true) (d : 0 < p.data.length) : 0 < (packOutput p).2.length := by
  have g := packBits_writes p.data
  have k : ∀ n v, (le n v).length = n := by intro n; induction n with | zero => intro v; rfl | succ n ih => intro v; simp [le, ih]
  simp only [packOutput, v, r, packTile]
  split <;> rename_i h
  · cases h
  · split <;> rename_i h
    · cases h
    · split <;> rename_i b h
      · split at h
        · cases h; simp only [k, ceilDiv]; omega
        · cases h
      · exact d

/-- A present tile of zeros, which a lane writes as it packs, or raw. -/
def fullTile5 : PackTile := { seq := 0, easel := 0, serial := 5, tile := 1, record := tileRecord 0 5 1 0, data := List.replicate 4096 0, void := false }
def packingFull : State := (packing 0 false).updPack 1 fun z => { z with lanes := updAt z.lanes 47 fun l => { l with tiles := [fullTile5], fell := true } }

theorem test_witness_PackerLanes_stalls :
    (packingFull.packLane 1 47).tiles = [fullTile5] ∧ (packingFull.packLane 1 47).stalled = false ∧ 47 < (packingFull.packOf 1).lanes.length
      ∧ packingFull.laneSize 1 < (packingFull.packLane 1 47).used + (entryBytes fullTile5 (packOutput fullTile5).1 (packOutput fullTile5).2).length
      ∧ 64 * (packingFull.packLane 1 47).words < (laneStream (packingFull.packLane 1 47) fullTile5).1.length
      ∧ (laneStream (packingFull.packLane 1 47) fullTile5).2 = true := by
  have n := packOutput_writes fullTile5 rfl (by decide +kernel) (by rw [fullTile5, List.length_replicate]; omega)
  have z : packingFull.laneSize 1 = 0 ∧ (packingFull.packLane 1 47).words = 0 ∧ (packingFull.packLane 1 47).fell = true := by decide +kernel
  refine ⟨rfl, by decide +kernel, by decide +kernel, ?_, ?_, ?_⟩
  · rw [z.1]; simp only [entryBytes, padTo, List.length_append, List.length_replicate]; omega
  · simp only [laneStream, z.2.1, z.2.2, Bool.not_true, Bool.and_false, Bool.false_eq_true, if_false, padTo, List.length_append, List.length_replicate]; omega
  · simp only [laneStream, z.2.2, Bool.not_true, Bool.and_false, Bool.false_eq_true, if_false]

theorem test_witness_PackerLanes :
    ((packing 0 false).powered (18 + 1) = true ∧ 1 < (packing 0 false).pack.length)
    ∧ (let f := { frame5 with st := .dry, ended := true, inTake := true }
       let s := withSlot (withFrame (packing 1 false) f) .settled []
       s.on F.LZP_CTRL_enable 1 = true ∧ (s.packLane 1 (s.rd F.LZP_SEQ_seq 1 % 48)).tiles.length < 2 ∧ s.nextPackTile 1 = some (0, 5, 1)
         ∧ s.slotOf 0 5 = some 0 ∧ s.takesWork (0x30 + 1) = true
         ∧ (s.brush.readable.contains (0, 5, 1) && s.canvasWaits 0 0 1) = false ∧ s.packFree 1 = true)
    ∧ (let s := packing 1 false
       (s.packLane 1 47).tiles = [packTile5] ∧ (s.packLane 1 47).stalled = false
         ∧ (s.packLane 1 47).used + (entryBytes packTile5 (packOutput packTile5).1 (packOutput packTile5).2).length ≤ s.laneSize 1)
    ∧ (let s := packing 1 true
       (s.packLane 1 47).tiles = [packTile5] ∧ (s.packLane 1 47).stalled = true ∧ s.laneMoves 1 47 packTile5 = true ∧ 47 < (s.packOf 1).lanes.length
         ∧ (s.packLane 1 47).used + (entryBytes packTile5 (packOutput packTile5).1 (packOutput packTile5).2).length ≤ s.laneSize 1) := by decide +kernel

theorem test_witness_DecodingAndRatio :
    ((decodeTile (List.replicate 16 0) []).2.2 = none ∧ 1 < State.reset.pack.length ∧ (packing 0 false).takesWork (0x32 + 1) = true)
    ∧ ((decodeTile (tileRecord 0 9 0 1) [0xFF]).2.2.isSome = true ∧ (packing 0 false).on F.LZP_DEC_FAULT0_valid 1 = false)
    ∧ (let f := { frame5 with st := .dry, width := 64, height := 32 }
       let sum := fun n => ({ easel := 0, serial := 5, present := n, bytes := 0, done := n } : PackSum)
       let s := ((withFrame State.reset f).updPack 0 fun z => { z with sums := [sum 1] }).updPack 1 fun z => { z with sums := [sum 0] }
       s.frame 0 5 = some f ∧ s.packSum 0 0 5 = some (sum 1) ∧ s.packSum 1 0 5 = some (sum 0) ∧ f.isDry = true ∧ 0 < (sum 1).done + (sum 0).done
         ∧ (sum 1).done = (s.halfTiles 0 0 f).length ∧ (sum 0).done = (s.halfTiles 0 1 f).length ∧ (sum 1).present + (sum 0).present ≠ 0
         ∧ s.ratioReady 0 f = true ∧ (withFrame State.reset f).frame 0 5 = some f ∧ (withFrame State.reset f).ratioReady 0 f = false) := by decide +kernel

def withStack (f : StackSt → StackSt) (state : Nat) : State :=
  (regs [(F.HBM_STACK_STATUS_state, state, 1)]).updHbm fun h => { h with stackSts := updAt h.stackSts 1 f }
def withPc (f : PcSt → PcSt) : State := withStack (fun x => { x with pcs := updAt x.pcs 31 f }) 2

theorem test_witness_HbmStacks :
    ((withStack id 1).rd F.HBM_STACK_STATUS_state 1 = 1 ∧ (withStack id 1).hbm.held = [])
    ∧ (let s := withStack (fun x => { x with newBand := some (7, List.range 31) }) 2
       (s.stack 1).newBand = some (7, List.range 31) ∧ s.alertOn 1 = false ∧ ((s.stack 1).pcs.getD 31 PcSt.init).alert = false ∧ (List.range 32).all (31 :: (List.range 31).filter (· ≠ 31)).contains = true
         ∧ (List.range 32).all (30 :: (List.range 31).filter (· ≠ 30)).contains = false ∧ 1 < s.hbm.stackSts.length)
    ∧ ((withStack id 2).rd F.HBM_STACK_STATUS_state 1 = 2 ∧ (withStack id 2).alertOn 1 = false ∧ ((withStack (fun x => { x with alerts := 3 }) 2).stack 1).alerts = 3)
    ∧ (let s := withPc fun p => { p with alert := true }
       ((s.stack 1).pcs.getD 31 PcSt.init).alert = true ∧ s.alertOn 1 = true ∧ 31 < (s.stack 1).pcs.length ∧ s.hbm.held = [])
    ∧ (State.reset.stack (stackOf 0x1000000000)).latched = false
    ∧ (let s := withPc id
       s.rd F.HBM_STACK_STATUS_state 1 = 2 ∧ s.alertOn 1 = false
       ∧ ((activate ((s.stack 1).pcs.getD 31 PcSt.init).table 3 9).any fun e => e.1 == 3 && e.2.1 == 9 && decide (s.rd F.HBM_RH_CFG_threshold 1 ≤ e.2.2)) = false)
    ∧ (let s := withPc fun p => { p with table := [(3, 9, 65535)] }
       s.rd F.HBM_STACK_STATUS_state 1 = 2 ∧ s.alertOn 1 = false
       ∧ ((activate ((s.stack 1).pcs.getD 31 PcSt.init).table 3 9).any fun e => e.1 == 3 && e.2.1 == 9 && decide (s.rd F.HBM_RH_CFG_threshold 1 ≤ e.2.2)) = true) := by
  decide +kernel

def planning (l : List Region) : State := (regs [(F.HBM_PLAN_COMMIT_pending, 1, 0)]).updHbm fun h => { h with check := some (l, false) }

theorem test_witness_PlanCommit :
    State.reset.planPending = false
    ∧ ((planning [region 0 0 1 15 0]).planPending = true ∧ (planning [region 0 0 1 15 0]).hbm.check = some ([region 0 0 1 15 0], false)
      ∧ (planning [region 0 0 1 15 0]).hbm.waits = [] ∧ (planResult [region 0 0 1 15 0] false).1 ≠ 0)
    ∧ (∃ r ∈ [region 0 0 1 15 0], r.kindOk = false) := by decide +kernel

/-- One PIPE region of 1 GiB in each stack. -/
def pipes : List Region := [region 0 0 262144 5 0, region 1 0x1000000 262144 5 0]

theorem placeOk_of_west (r : Region) (h : r.base + r.size ≤ plannable) : r.placeOk = true := by simp [Region.placeOk, h]
theorem placeOk_of_east (r : Region) (h : 0x1000000 ≤ r.base) (k : r.base + r.size - 0x1000000 ≤ plannable) : r.placeOk = true := by
  have : r.base + r.size ≤ 0x1000000 + plannable := by omega
  simp [Region.placeOk, h, this]
theorem plannable_ge : 262144 ≤ plannable := by unfold plannable Config.capMib; split <;> omega
theorem placed_pair (a b : Region) (h : a.placeOk = true) (k : b.placeOk = true) : [a, b].find? (fun r => !r.placeOk) = none := by
  simp [List.find?, h, k]
theorem plan_passes (l : List Region) (k : l.find? (fun r => !r.kindOk) = none) (p : l.find? (fun r => !r.placeOk) = none)
    (o : l.find? (fun r => (earlier l r).any r.overlaps) = none) (b : l.find? (pipeBad l) = none) (q : l.find? (placeBad l) = none)
    (a : ((l.any fun r => r.kind == 5 && r.stack == 0) && l.any fun r => r.kind == 5 && r.stack == 1) = true) : (planResult l false).1 = 0 := by
  simp only [planResult, k, p, o, b, q, a, Bool.not_true, Bool.false_eq_true, if_false]

theorem test_witness_PlanCommit_passes : (planResult pipes false).1 = 0 :=
  plan_passes pipes (by decide +kernel)
    (placed_pair _ _ (placeOk_of_west _ (show 0 + 262144 ≤ plannable by have := plannable_ge; omega))
      (placeOk_of_east _ (show 0x1000000 ≤ 0x1000000 from Nat.le_refl _)
        (show 0x1000000 + 262144 - 0x1000000 ≤ plannable by have := plannable_ge; omega)))
    (by decide +kernel) (by decide +kernel) (by decide +kernel) (by decide +kernel)

/-! ### Witnesses: magazines, power-fail and segments -/

def ident0 : MagIdent :=
  { signed := true, listed := true, alike := true, luns := 1, pageData := 16384, pageSpare := 2048, planes := 2, oneShot := true, shot := 3,
    tProg := 2000, tSlc := 500, tErase := 10000, segments := 1000, blocks := 512, wl := 100, mts := List.replicate 16 800, mfr := 1, device := 1, odt := true }
def mag0 (i : MagIdent := ident0) : Magazine :=
  { ident := i, factory := [], slc := [], units := [], segs := [], weak := [], bits := [], torn := [] }
def withMag (s : State) (p : Nat) (i : MagIdent := ident0) : State := s.updPort p fun x => { x with mag := some (mag0 i) }
def mport (state : Nat) (p : Nat) : State := regs [(F.MAG_PORT_STATUS_state, state, p)]
/-- A take of easel 0 that records on port 1. -/
def taking (s : State) : State := (s.wr F.TAKE_STATUS_state 2 0).updTake 0 fun x => { x with ports := [1] }

theorem test_witness_MagazineBringUp :
    (let s := regs [(F.MAG_PORT_CTRL_enable, 1, 1), (F.PWR_STATE_released, 2 ^ 23, 0)]
     s.on F.MAG_PORT_STATUS_pres 1 = false ∧ s.portState 1 = 0 ∧ s.rd F.FW_STATUS_state ≠ 2 ∧ s.on F.MAG_PORT_CTRL_enable 1 = true
       ∧ s.released (22 + 1) = true ∧ s.blockUp (0x48 + 1) = true)
    ∧ (let s := regs [(F.MAG_PORT_STATUS_pres, 1, 1)]
       s.on F.MAG_PORT_STATUS_pres 1 = true ∧ s.portState 1 = 0)
    ∧ (let s := withMag (regs [(F.MAG_PORT_STATUS_pres, 1, 1), (F.MAG_PORT_STATUS_state, 3, 1)]) 1
       s.on F.MAG_PORT_STATUS_pres 1 = true ∧ s.portState 1 = 3 ∧ s.takesOn 1 = [] ∧ (s.port 1).allOps = [] ∧ (s.port 1).sides = [] ∧ (s.port 1).admin = none
         ∧ (s.port 1).mount = none ∧ (s.port 1).unmount = none ∧ (s.port 1).tasks = [] ∧ s.stor.flushes = [])
    ∧ (∀ x ∈ [0, 1, 2, 6, 7], (mport x 1).portState 1 = x)
    ∧ (((withMag (mport 2 1) 1).port 1).mag = some (mag0 ident0) ∧ refuseCode ident0 = 0)
    ∧ (((withMag (mport 2 1) 1 { ident0 with mts := [799] }).port 1).mag = some (mag0 { ident0 with mts := [799] })
      ∧ refuseCode { ident0 with mts := [799] } = 8)
    ∧ ((taking State.reset).portTakeOpen 1 = true ∧ State.reset.portTakeOpen 1 = false ∧ State.reset.portState 1 = 0) := by decide +kernel

theorem test_witness_PowerFailWarning :
    (let s := mport 3 0
     0 < s.stor.ports.length ∧ s.portState 0 = 3 ∧ s.portState 1 = 0 ∧ (s.port 0).pfw = false ∧ s.takesOn 0 = [])
    ∧ (let s := State.reset.updPort 0 fun x => { x with pfw := true }
       (s.port 0).pfw = true ∧ ((s.port 0).ops.any fun o => o.running && o.cls != 0) = false ∧ (s.port 0).reel = none ∧ (s.port 0).ledger.group = none
         ∧ s.takesOn 0 = [] ∧ (s.port 0).sides = [] ∧ (s.port 0).admin = none ∧ (s.port 0).mount = none ∧ (s.port 0).unmount = none
         ∧ s.stor.flushes = []) := by decide +kernel

def reelId0 : ReelId := { roll := 1, reel := 1, secs := 0 }
def hdr0 : ReelHeader :=
  { version := 3, encrypted := false, sanitised := false, generation := 1, id := reelId0, blocks := 512, planes := 2, shot := 3, wl := 100, diesCh := 8,
    ledgerN := 8, ledger0 := List.range 8, keyId := 0, wrapped := [] }
def reel0 : Reel :=
  { hdr := hdr0, readOnly := false, key := [], sets := [], stripes := [], detours := [], retired := [], takes := [], varnish := [], frames := [], segs := [],
    sidecars := [], scan := 0, ledger := [[1]], counts := [], times := [], top := 0 }
def mounted (r : Reel := reel0) : State := (withMag (mport 4 1) 1).updPort 1 fun x => { x with reel := some r }
def erase5 : DieOp := { die := 5, block := 9, cls := 3, kind := .erase true, running := false }
def takeFrame5 (closed : List Nat) : TakeFrame :=
  { serial := 5, settled := some 1, fault := 0, stamp := 0, tiles := [0, 0], ords := [0, 0], closed := closed, ports := [], index := none }
/-- A take of easel 0 on port 1 with a dry frame of 64 × 64. -/
def recording (closed : List Nat) : State :=
  ((withSlot (withFrame ((taking (mounted)).wr F.TAKE_STATUS_placement 1) { frame5 with st := .dry, ended := true, inTake := true }) .settled [(1, .magazine)])).updTake 0
    fun x => { x with frames := [takeFrame5 closed] }
def lrec0 : LRecord := { version := 3, kind := 11, seq := 0, first := 0, gcount := 1, last := true, id := reelId0, entries := [], body := [] }

theorem test_witness_DieOperationsAndSegments :
    (let s := (withMag (regs [(F.MAG_PORT_STATUS_state, 3, 1), (F.PWR_STATE_released, 4294967295, 0)]) 1).updPort 1 fun x => { x with ops := [erase5] }
     s.portState 1 = 3 ∧ (s.port 1).mag.isSome = true ∧ (s.port 1).pfw = false ∧ (s.port 1).tasks = [] ∧ (s.port 1).pad = false ∧ (s.port 1).units = []
       ∧ (s.port 1).held = [] ∧ s.dieFree 1 5 = true ∧ ((s.dieReady 1 5).dieNext 1 5).isSome = true ∧ (s.port 1).ops = [erase5] ∧ erase5.die = 5 ∧ erase5.running = false ∧ s.issuable 1 erase5 = true ∧ s.takesWork (0x48 + 1) = true ∧ 1 < s.stor.ports.length)
    ∧ (let o := { erase5 with running := true }
       let s := State.reset.updPort 1 fun x => { x with ops := [o] }
       (s.port 1).ops.find? (fun o => o.die == 5 && o.running) = some o ∧ o.kind = .erase true ∧ (s.port 1).admin = none ∧ (s.port 1).reel = none
         ∧ (s.port 1).mount = none ∧ (s.port 1).unmount = none ∧ (s.port 1).held = []
         ∧ ((s.port 1).ops.all fun x => s.mayIssue 1 x) = true ∧ (s.runningOp 1 5).isSome = true)
    ∧ (let s := recording [1]
       s.frame 0 5 = some { frame5 with st := .dry, ended := true, inTake := true } ∧ (s.take 0).frames.find? (fun f => f.serial == 5) = some (takeFrame5 [1])
         ∧ (takeFrame5 [1]).closed.contains 1 = true)
    ∧ (let s := recording []
       let f := { frame5 with st := .dry, ended := true, inTake := true }
       let run := ((s.halfTiles 0 1 f).drop ((takeFrame5 []).tiles.getD 1 0)).take (if s.reelVersion (s.segPort 0 1) = 2 then 255 else 254)
       (takeFrame5 []).closed.contains 1 = false ∧ s.takeOpen 0 = true ∧ ((s.take 0).ports.all s.mounted) = true ∧ s.on F.TAKE_STATUS_packed 0 = false
         ∧ s.slotOf 0 5 = some 0 ∧ run ≠ [] ∧ (run.all fun t => s.brush.readable.contains (0, 5, t) || s.tileAbsent 0 f t) = true)
    ∧ (let s := mounted.updLedger 1 fun x => { x with snap := [[lrec0]], free := List.replicate 16 [1] }
       (s.port 1).reel = some reel0 ∧ s.ledgerLive 1 = true ∧ (s.port 1).ledger.group = none ∧ (s.port 1).ledger.snap = [[lrec0]] ∧ s.quiet 1 = false ∧ (s.port 1).ledger.fullEnds = []
         ∧ (s.port 1).ledger.room (s.slcPages 1) 1 false = true)
    ∧ (let s := mounted.updLedger 1 fun x => { x with pend := [.varnish 0 0 0 0 0], free := List.replicate 16 [1] }
       (s.port 1).reel = some reel0 ∧ s.ledgerLive 1 = true ∧ (s.port 1).ledger.group = none ∧ (s.port 1).ledger.snap = []
         ∧ (s.port 1).ledger.fullEnds = [] ∧ (s.nextGroup 1).1 ≠ []
         ∧ (s.port 1).ledger.room (s.slcPages 1) (s.nextGroup 1).1.length false = true)
    ∧ ((mounted.port 1).reel = some reel0 ∧ mounted.mounted 1 = true ∧ reel0.hdr.version = 3 ∧ reel0.readOnly = false ∧ mounted.portTakeOpen 1 = false
      ∧ (sumOver ((mounted.port 1).ledger.free.map List.length) fun n => n) * 4 < (sumOver (reel0.ledger.map List.length) fun n => n)
      ∧ (mounted.port 1).ledger.snap = [] ∧ (mounted.port 1).ledger.snapFirst = none ∧ (mounted.port 1).ledger.group = none ∧ mounted.quiet 1 = false)
    ∧ (let s := (recording []).wr F.MAG_ELASTIC_CFG_canvas_lo 8 1
       (List.range 4).find? (fun e => decide (s.rd F.HBM_CANVAS_STATUS_free e ≤ s.rd F.MAG_ELASTIC_CFG_canvas_lo 1) && s.takeOpen e
         && !s.on F.TAKE_STATUS_packed e && (s.partSpill 1 e).isSome) = some 0 ∧ (s.partSpill 1 0).isSome = true) := by
  refine ⟨?_, ?_, ?_, ?_, ?_, ?_, ?_, ?_⟩ <;> decide +kernel


def takeFull : TakeEntry := TakeEntry.mk 1 7 1 false 0 0 64 64 0 0 0 0 reelId0 0

theorem test_witness_LedgerGroup_own :
    (let s := mounted.updLedger 1 fun x => { x with snap := [[lrec0]], pend := [.take takeFull] }
     (s.port 1).reel = some reel0 ∧ s.ledgerLive 1 = true ∧ (s.port 1).ledger.group = none ∧ (s.port 1).ledger.fullEnds ≠ [])
    ∧ (let s := (mounted.updLedger 1 fun x => { x with snap := [[lrec0]] }).wr F.AUTH_STATUS_quiet_e 1
       (s.port 1).reel = some reel0 ∧ s.ledgerLive 1 = true ∧ (s.port 1).ledger.group = none ∧ s.quiet 1 = true) := by decide +kernel
/-! ### Witnesses: registers, rings, queues and barrows -/

/-- A property of the register at an offset. -/
def regAt (off : Nat) (p : Reg → Nat → Nat → Bool) : Bool := match findReg off with | some (r, i, j) => p r i j | none => false

theorem test_witness_RegistersAreReadAndWritten :
    findReg 2 = none
    ∧ regAt F.GLB_SCRATCH_value.base (fun r i _ => decide (rowOfItsOwn r.base 7 = false ∧ State.reset.needsPlan r.base i 7 = false ∧ r.base ≠ F.LZP_CTRL_enable.base
      ∧ (State.reset.refusesA r.base i 7 || State.reset.refusesB r.base i 7 || State.reset.refusesC r.base i 7) = false
      ∧ F.GLB_SCRATCH_value ∈ r.fields ∧ F.GLB_SCRATCH_value.acc = .rw ∧ F.GLB_SCRATCH_value ≠ F.RAS_OUT_CTRL_quad
      ∧ latchGroups.any (fun g => g.1 == r.base) = false ∧ isLater r.base = false)) = true
    ∧ regAt F.GLB_FLAGS_bad_access.base (fun r i j => decide (State.reset.regLive r.base i = true ∧ F.GLB_FLAGS_bad_access ∈ r.fields
      ∧ F.GLB_FLAGS_bad_access.acc = .w1c ∧ F.GLB_FLAGS_bad_access.width = 1 ∧ State.reset.rd F.GLB_FLAGS_bad_access i j < 2)) = true
    ∧ (findReg F.GLB_PACE_REQ_code.base).isSome = true
    ∧ regAt F.VCD_SC_CTRL_half.base (fun r i _ => decide (rowOfItsOwn r.base 0xFFFFFFFF = false ∧ State.reset.planPending = false
      ∧ (State.reset.refusesA r.base i 0xFFFFFFFF || State.reset.refusesB r.base i 0xFFFFFFFF || State.reset.refusesC r.base i 0xFFFFFFFF) = true)) = true
    ∧ regAt F.HBM_UE_ADDR_LO_value.base (fun r _ _ => decide ((latchGroups.find? (fun g => g.1 == r.base)).isSome = true
      ∧ r.base ≠ F.NET_TXTS0_valid.base ∧ r.base ≠ F.NET_PTP_TIME_S_LO_value.base)) = true := by
  decide +kernel

theorem test_witness_PaceSamplesPublish :
    let s := regs [(F.PWR_STATE_released, 1, 0)]
    s.released 0 = true ∧ s.openEasels = [] ∧ s.openCode = none ∧ s.metersCounted 0 [] = [] ∧ s.released 1 = false := by decide +kernel

theorem test_witness_RingsAndQueuesOpenAndClose :
    (State.reset.sqDepthBad 15 (3 * 16) = true ∧ State.reset.sqDepthBad 15 (13 * 16) = true ∧ State.reset.sqDepthBad 15 (12 * 16) = false
      ∧ State.reset.on F.RING_SQ_CFG_enable 15 = false ∧ State.reset.outstanding.any (fun c => c.ring == 15) = false)
    ∧ (withCmd State.reset (cmdOf 0 [])).outstanding.any (fun c => c.ring == 0) = true
    ∧ (State.reset.cqCfgBad 15 (4 * 16) = true ∧ State.reset.cqCfgBad 15 (4 * 16 + 65536) = false ∧ State.reset.on F.RING_CQ_CFG_enable 15 = false
      ∧ State.reset.queueNamed 15 = false)
    ∧ (let s := withCmd (regs [(F.RING_CQ_CFG_enable, 1, 0)]) (cmdOf 0 [])
       s.on F.RING_CQ_CFG_enable 0 = true ∧ s.queueNamed 0 = true) := by decide +kernel

/-- Ring 3 with depth 16, in RUN, and what the ring engine knows of it. -/
def ring3 (f : RingSt → RingSt) : State :=
  (regs [(F.RING_SQ_CFG_enable, 1, 3), (F.RING_SQ_CFG_depth_log2, 4, 3), (F.RING_SQ_STATUS_state, 2, 3), (F.RING_CQ_CFG_enable, 1, 0),
    (F.PWR_STATE_released, 4294967295, 0)]).updHost fun h => { h with rings := updAt h.rings 3 f }
def polled (l : List Nat) : State := (ring3 id).updHost fun h => { h with polls := [l] }

theorem test_witness_DoorbellsAndFetches :
    ((ring3 id).anyEnabled = true ∧ (ring3 id).released 28 = true)
    ∧ ((polled []).host.polls = [[]] ∧ (polled []).host.records = [] ∧ (polled []).host.lost = 0 ∧ (polled []).on F.RING_CQ_CFG_enable 0 = true)
    ∧ (let p := List.replicate 3 0 ++ [16]
       (polled [3]).host.polls = [[3]] ∧ 3 < (polled [3]).host.rings.length ∧ (polled [3]).on F.RING_SQ_CFG_enable 3 = true
         ∧ (polled [3]).rd F.RING_SQ_STATUS_state 3 = 2 ∧ p.getD 3 0 % 65536 ≠ (polled [3]).host.page.getD 3 0 % 65536
         ∧ ahead (p.getD 3 0 % 65536) ((polled [3]).rd F.RING_SQ_STATUS_head 3) ≤ (polled [3]).ringDepth 3)
    ∧ (let s := ring3 fun x => { x with tail := 16, asked := 10 }
       nextCyclic 16 s.host.fetchCursor s.fetchable = some 3
         ∧ 6 = min (min 8 (ahead (s.ring 3).tail (s.ring 3).asked)) (s.ringDepth 3 - (s.ring 3).asked % s.ringDepth 3))
    ∧ ((ring3 fun x => { x with inFlight := some 6 }).ring 3).inFlight = some 6 := by decide +kernel

/-- A fetched descriptor in ring 3, in the session of a role. -/
def decoding (role : Nat) (l : List (Nat × Nat)) (enable : Nat) : State :=
  ((((ring3 fun x => { x with fetched := [desc l] }).wr F.RING_SQ_STATUS_role role 3).wr F.RING_CQ_CFG_enable enable 0)).wr F.FW_STATUS_state 1

theorem test_witness_DecodingAndFences :
    (let s := decoding 1 [] 1
     s.outstanding.length < 4096 ∧ s.quiet 0 = false ∧ s.host.cmds.any (fun c => c.opcode == 0x45 && c.stage == .running) = false
       ∧ s.decodeRing = some 3 ∧ (s.ring 3).fetched = [desc []] ∧ 3 < s.host.rings.length
       ∧ s.on F.RING_CQ_CFG_enable (fieldAt (desc []) 4 1 % 16) = true ∧ s.decodeStatus (desc []) (s.rd F.RING_SQ_STATUS_role 3) = St.OK
       ∧ s.cmd s.host.nextId = none ∧ fieldAt (desc []) 0 1 ≠ 0x11)
    ∧ (let s := decoding 1 [(0, 0xFF)] 1
       s.decodeRing = some 3 ∧ s.decodeStatus (desc [(0, 0xFF)]) (s.rd F.RING_SQ_STATUS_role 3) ≠ St.OK ∧ s.cmd s.host.nextId = none)
    ∧ (let s := decoding 1 [] 0
       s.decodeRing = some 3 ∧ s.on F.RING_CQ_CFG_enable (fieldAt (desc []) 4 1 % 16) = false)
    ∧ (let c := cmdOf 0 [] .fenced
       let s := withCmd State.reset c
       s.cmd 7 = some c ∧ c.stage = .fenced ∧ (s.outstanding.any fun o => o.ring == c.ring && decide (o.id < 7)) = false)
    ∧ ((withCmd State.reset (cmdOf 0 [])).Waits 7 0x00 (cmdOf 0 []) ∧ (cmdOf 0 []).mute = false) := by
  simp only [State.Waits]; decide +kernel

def event0 : Rec := { rec0 with event := true }
/-- Queue 2 with 16 slots enabled, a record waiting, and the event queue on it. -/
def recorded (r : Rec) (tail evq : Nat) (holding : Bool) : State :=
  (regs [(F.RING_CQ_CFG_enable, 1, 2), (F.RING_CQ_CFG_depth_log2, 4, 2), (F.RING_CQ_STATUS_tail, tail, 2), (F.PWR_STATE_released, 4294967295, 0),
    (F.RING_EVQ_CFG_enable, evq, 0), (F.RING_EVQ_CFG_cq, 2, 0)]).updHost fun h => { h with records := [r], holding := holding }
def unsignalled (mask : Bool) (us : Nat) : State :=
  (regs [(F.RING_CQ_CFG_coal_count, 4, 2), (F.RING_CQ_CFG_coal_us, us, 2), (F.RING_CQ_CFG_vector, 63, 2)]).updHost fun h =>
    { h with queues := updAt h.queues 2 fun q => { q with unsignalled := 4 }, msix := h.msix.set 63 { mask := mask, pending := false, addr := 0, data := 0 } }

theorem test_witness_RecordsAndMessages :
    (let r := { rec0 with cq := 2 }
     let s := recorded r 15 0 false
     s.released 28 = true ∧ pickRecord s (fun r => !r.event && r.cq == 2) [] [] s.host.records = some (r, []) ∧ s.on F.RING_CQ_CFG_enable 2 = true
       ∧ s.queueFull 2 = false)
    ∧ (let r := { rec0 with cq := 2 }
       let s := recorded r 16 0 false
       s.released 28 = true ∧ pickRecord s (fun r => !r.event && r.cq == 2) [] [] s.host.records = some (r, []) ∧ s.on F.RING_CQ_CFG_enable 2 = true
         ∧ s.queueFull 2 = true ∧ s.host.records.any (s.waitsOn 2) = true ∧ (s.queue 2).episode = false ∧ s.quiet 0 = false ∧ (s.port 0).unmount = none ∧ (s.port 1).unmount = none
         ∧ s.stor.flushes = [])
    ∧ (let s := recorded event0 15 1 false
       pickRecord s (fun r => r.event) [] [] s.host.records = some (event0, []) ∧ s.host.holding = false ∧ s.host.lost = 0 ∧ s.eventRoom = true
         ∧ event0.cmd = none)
    ∧ (let s := recorded event0 0 0 false
       pickRecord s (fun r => r.event) [] [] s.host.records = some (event0, []) ∧ s.host.holding = false ∧ s.on F.RING_EVQ_CFG_enable = false)
    ∧ (let s := recorded event0 0 0 true
       pickRecord s (fun r => r.event) [] [] s.host.records = some (event0, []) ∧ s.host.holding = true ∧ s.host.held.length < 256)
    ∧ ((∀ m ∈ [true, false], 2 < (unsignalled m 1).host.queues.length
        ∧ (unsignalled m 1).rd F.RING_CQ_CFG_coal_count 2 ≤ ((unsignalled m 1).queue 2).unsignalled
        ∧ ((unsignalled m 1).host.msix.getD ((unsignalled m 1).rd F.RING_CQ_CFG_vector 2) MsixSt.init).mask = m)
      ∧ (unsignalled false 1).rd F.RING_CQ_CFG_vector 2 < (unsignalled false 1).host.msix.length
      ∧ ((unsignalled false 1).queue 2).unsignalled ≠ 0 ∧ (unsignalled false 1).rd F.RING_CQ_CFG_coal_us 2 ≠ 0) := by decide +kernel

def bdesc (ctl : Nat) : BarrowDesc := { addr := 0, ctl := ctl, host := 0, hbm := 0, length := 64, tag := 0, op := 0, hbmRec := 0, hostRec := 0 }
/-- Channel 31 in a state, in a direction, with what its engine holds. -/
def channel (state dir enable : Nat) (f : BarrowSt → BarrowSt) : State :=
  (regs [(F.BARROW_CH_STATUS_state, state, 31), (F.BARROW_CH_CTRL_dir, dir, 31), (F.BARROW_CH_CTRL_enable, enable, 31),
    (F.PWR_STATE_released, 4294967295, 0), (F.HBM_STACK_STATUS_state, 2, 0), (F.HBM_STACK_STATUS_state, 2, 1)]).updHost fun h =>
      { h with barrows := updAt h.barrows 31 f, barrowTurn := [30, 30] }

theorem test_witness_BarrowChannels :
    31 < State.reset.host.barrows.length
    ∧ ((channel 1 0 1 id).barrowCtrlBad 31 3 = true ∧ (channel 0 0 0 id).barrowCtrlBad 31 3 = false ∧ (channel 0 0 0 id).rd F.BARROW_CH_STATUS_state 31 = 0
      ∧ ((channel 0 0 0 id).barrow 31).cur = none)
    ∧ ((channel 3 0 1 id).barrowCtrlBad 31 1 = false ∧ (channel 3 0 1 id).rd F.BARROW_CH_STATUS_state 31 = 3)
    ∧ (∀ d ∈ [0, 1], let s := channel 1 d 1 fun b => { b with fetch := true }
        s.released 28 = true ∧ s.takesWork 0x60 = true ∧ s.on F.BARROW_CH_CTRL_dir 31 = (d == 1) ∧ s.barrowNext (s.on F.BARROW_CH_CTRL_dir 31) = some 31
          ∧ (s.barrowEngines (s.on F.BARROW_CH_CTRL_dir 31)).length < 8 ∧ (s.barrow 31).fetch = true)
    ∧ (∀ d ∈ [0, 1], let s := channel 1 d 1 fun b => { b with cur := some (bdesc d), engine := true }
        s.barrowCtrlBad 31 (1 + 2 * d) = false ∧ (s.barrow 31).cur = some (bdesc d) ∧ (s.barrow 31).engine = true ∧ s.barrowWaits 31 (bdesc d) = false ∧ (s.barrow 31).waits = [] ∧ (s.barrow 31).holds = []
          ∧ s.on F.BARROW_CH_CTRL_dir 31 = (d == 1) ∧ (bdesc d).tiles = false ∧ bitOf (bdesc d).op 2 = false ∧ (bdesc d).ctl % 2 = d)
    ∧ (let s := channel 2 0 1 fun b => { b with reread := true }
       s.rd F.BARROW_CH_STATUS_state 31 = 2 ∧ (s.barrow 31).reread = true) := by decide +kernel

/-- A buffer region of 1 MiB at the start of stack 0. -/
def buffered : State := (channel 1 0 1 fun b => { b with fetch := true }).updHbm fun h => { h with plan := [region 0 0 256 7 0] }

theorem hbmValid_small : hbmValid 0 64 = true := by
  have h : 0 + 64 ≤ stackBytes := by unfold stackBytes Config.capMib; split <;> omega
  unfold hbmValid
  rw [decide_eq_true h, Bool.true_or]

theorem test_witness_BarrowChannels_fetch :
    buffered.barrowBad 31 (padTo 64 (desc [(24, 64)])) (barrowDesc (buffered.barrowAt 31) (padTo 64 (desc [(24, 64)]))) = St.OK := by
  have h1 : (barrowDesc (buffered.barrowAt 31) (padTo 64 (desc [(24, 64)]))).hbm = 0 := by decide +kernel
  have h2 : (barrowDesc (buffered.barrowAt 31) (padTo 64 (desc [(24, 64)]))).length = 64 := by decide +kernel
  have h3 : buffered.inRegion 0 64 7 0 = true := by decide +kernel
  have h4 : buffered.on F.BARROW_CH_CTRL_dir 31 = false := by decide +kernel
  have h5 : (barrowDesc (buffered.barrowAt 31) (padTo 64 (desc [(24, 64)]))).tiles = false := by decide +kernel
  unfold State.barrowBad
  rw [h1, h2, h4, h5, if_neg (by decide +kernel), if_neg (by decide +kernel), if_neg (by decide), if_neg (by decide), hbmValid_small, h3]
  rfl

theorem test_witness_AbortsAndHostResets :
    (let c := cmdOf 0x16 [(16, 0), (18, 9)]
     let s := withCmd (regs [(F.RING_SQ_CFG_enable, 1, 0)]) c
     c.mute = false ∧ s.afterUnmount 7 = false ∧ s.Waits 7 0x16 c ∧ c.b 16 < 16 ∧ c.b 17 = 0 ∧ zeroBytes c.desc 20 64 = true ∧ s.targetStatus c = St.OK
       ∧ s.ringDepth (c.b 16) ≤ 256 ∧ s.outstanding.find? (fun o => o.ring == c.b 16 && decide (o.id < 7) && o.tag == c.h 18) = none)
    ∧ (let c := cmdOf 0x16 [(16, 0), (18, 9)]
       let o := { cmdOf 0x12 [] with id := 6, tag := 9 }
       let s := withCmd (withCmd (regs [(F.RING_SQ_CFG_enable, 1, 0)]) o) c
       s.Waits 7 0x16 c ∧ s.afterUnmount 7 = false ∧ s.outstanding.find? (fun o => o.ring == c.b 16 && decide (o.id < 7) && o.tag == c.h 18) = some o ∧ s.cmd o.id = some o
         ∧ o.mute = false ∧ o.stage = .ready ∧ o.past = false ∧ lateOpcode o.opcode = true)
    ∧ (let c := cmdOf 0x17 []
       let s := withCmd (regs [(F.RING_SQ_CFG_enable, 1, 0)]) c
       s.Waits 7 0x17 c ∧ s.afterUnmount 7 = false ∧ c.b 16 < 16 ∧ zeroBytes c.desc 17 64 = true ∧ s.targetStatus c = St.OK
         ∧ (s.outstanding.any fun o => o.opcode == 0x17 && o.stage != .ended && decide (o.id < 7) && o.b 16 % 16 == c.b 16 % 16) = false
         ∧ s.outstanding.any (fun o => o.ring == c.b 16 && decide (o.id < 7)) = false)
    ∧ (let c := cmdOf 0x17 []
       let o := { cmdOf 0x12 [] with id := 6 }
       let s := withCmd (withCmd (regs [(F.RING_SQ_CFG_enable, 1, 0)]) o) c
       s.afterUnmount 7 = false ∧ (s.outstanding.any fun o => o.opcode == 0x17 && o.stage != .ended && decide (o.id < 7) && o.b 16 % 16 == c.b 16 % 16) = false
         ∧ s.outstanding.filter (fun o => o.ring == c.b 16 && decide (o.id < 7)) = [o] ∧ s.cmd o.id = some o ∧ o.opcode ≠ 0x17 ∧ o.mute = false
         ∧ o.stage = .ready ∧ o.past = false ∧ lateOpcode o.opcode = true) := by
  simp only [State.Waits]; decide +kernel


theorem test_witness_host_whole :
    regAt F.LZP_CTRL_enable.base (fun r i _ => decide (rowOfItsOwn r.base 1 = false ∧ State.reset.needsPlan r.base i 1 = true
      ∧ (regs [(F.HBM_PLAN_COMMIT_pending, 1, 0)]).needsPlan r.base i 1 = true ∧ (regs [(F.HBM_PLAN_COMMIT_pending, 1, 0)]).planPending = true)) = true
    ∧ regAt F.EASEL_LAST_LO_serial_lo.base (fun r i j => (findReg F.EASEL_LAST_LO_serial_lo.base).isSome && decide (r.base = F.EASEL_LAST_LO_serial_lo.base ∧ i = 0 ∧ j = 0)) = true
    ∧ regAt (F.EASEL_LAST_LO_serial_lo.base + 4) (fun r _ _ => isLater r.base && !latchGroups.any (fun g => g.1 == r.base)) = true
    ∧ regAt F.NET_PTP_TIME_S_LO_value.base (fun r _ _ => r.base == F.NET_PTP_TIME_S_LO_value.base) = true
    ∧ regAt F.BRL_GRP_FLAGS_ck_loss.base (fun r i _ => !State.reset.regLive r.base i) = true
    ∧ (let s := recorded { rec0 with cq := 3 } 0 0 false
       s.released 28 = true ∧ pickRecord s (fun r => !r.event && r.cq == 3) [] [] s.host.records = some ({ rec0 with cq := 3 }, [])
         ∧ s.on F.RING_CQ_CFG_enable 3 = false)
    ∧ ((regs [(F.RING_CQ_CFG_enable, 1, 15), (F.RING_CQ_CFG_depth_log2, 4, 15)]).cqCfgBad 15 (65536 + 4 * 16) = false
      ∧ (regs [(F.RING_CQ_CFG_enable, 1, 15), (F.RING_CQ_CFG_depth_log2, 4, 15)]).on F.RING_CQ_CFG_enable 15 = true)
    ∧ ((channel 3 0 1 id).barrowCtrlBad 31 0 = false)
    ∧ (∀ d ∈ [0, 1], let s := channel 1 d 1 fun b => { b with cur := some { bdesc d with op := 4 }, engine := true }
        (s.barrow 31).cur = some { bdesc d with op := 4 } ∧ (s.barrow 31).engine = true ∧ (s.barrow 31).waits = []
          ∧ s.barrowWaits 31 { bdesc d with op := 4 } = false ∧ s.on F.BARROW_CH_CTRL_dir 31 = (d == 1) ∧ bitOf ({ bdesc d with op := 4 } : BarrowDesc).op 2 = true)
    ∧ (let s := decoding 1 [(0, 0x11)] 1
       s.outstanding.length < 4096 ∧ s.quiet 0 = false ∧ s.host.cmds.any (fun c => c.opcode == 0x45 && c.stage == .running) = false
         ∧ s.decodeRing = some 3 ∧ (s.ring 3).fetched = [desc [(0, 0x11)]]) := by
  refine ⟨?_, ?_, ?_, ?_, ?_, ?_, ?_, ?_, ?_, ?_⟩ <;> decide +kernel
/-! ### Witnesses: takes, reels and ports -/

/-- Every storage command below with a field out of range: byte 16 names no port, easel, placement or set. -/
theorem test_witness_StorageCommandsCheckTheirFields :
    (∀ op ∈ [0x10, 0x11, 0x12, 0x13, 0x14, 0x18, 0x19, 0x1A, 0x1B, 0x1C, 0x1D],
      let c := cmdOf op [(16, 4)]
      let s := withCmd State.reset c
      c.mute = false ∧ (s.cmd 7 = some c ∧ c.opcode = op ∧ c.stage = .ready) ∧ s.takeTurn 7 = true ∧ s.planPending = false ∧ s.afterUnmount 7 = false)
    ∧ takeOpenOk (cmdOf 0x10 [(16, 4)]) = false ∧ takeCloseOk (cmdOf 0x11 [(16, 4)]) = false ∧ readTilesOk (cmdOf 0x12 [(16, 4)]) = false
    ∧ readRangeOk (cmdOf 0x13 [(16, 4)]) = false ∧ sidecarOk (cmdOf 0x14 [(16, 4)]) = false ∧ mountOk (cmdOf 0x18 [(16, 4)]) = false
    ∧ unmountOk (cmdOf 0x19 [(16, 4)]) = false ∧ formatOk (cmdOf 0x1A [(16, 4)]) = false ∧ sanitizeOk (cmdOf 0x1B [(16, 4)]) = false
    ∧ identifyOk (cmdOf 0x1C [(16, 4)]) = false ∧ getLogOk (cmdOf 0x1D [(16, 4)]) = false := by decide +kernel

def takeCmd (op : Nat) : Cmd := cmdOf op [(16, 3), (17, 1), (20, 9)]
/-- Easel 3 open beside a mounted port 1 with free ledger blocks. -/
def ready3 : State :=
  ((mounted.updLedger 1 fun x => { x with free := List.replicate 16 [1, 2, 3, 4], cur := List.replicate 16 (some (0, 0)) }).wr F.EASEL_STATUS_state 1 3).wr
    F.MAG_RATE_rate 1000 1

theorem test_witness_TakesOpenAndClose :
    (let s := withCmd ready3 (takeCmd 0x10)
     s.takeTurn 7 = true ∧ s.afterUnmount 7 = false ∧ (s.take 3).closeCmds.contains 7 = false ∧ (takeCmd 0x10).b 16 = 3 ∧ s.Waits 7 0x10 (takeCmd 0x10) ∧ s.planPending = false ∧ takeOpenOk (takeCmd 0x10) = true
       ∧ s.openStatus 3 ((takeCmd 0x10).b 17 % 4) (bitOf ((takeCmd 0x10).b 17) 2) = St.OK)
    ∧ (let s := withCmd State.reset (takeCmd 0x10)
       s.Waits 7 0x10 (takeCmd 0x10) ∧ s.openStatus 3 ((takeCmd 0x10).b 17 % 4) (bitOf ((takeCmd 0x10).b 17) 2) = St.EASEL_CLOSED
         ∧ St.EASEL_CLOSED ≠ St.OK)
    ∧ (let c := cmdOf 0x11 [(16, 3), (20, 9)]
       (∀ x ∈ [0, 1, 4], let s := withCmd (regs [(F.TAKE_STATUS_state, x, 3), (F.TAKE_NUMBER_value, 9, 3)]) c
          s.takeTurn 7 = true ∧ s.afterUnmount 7 = false ∧ s.Waits 7 0x11 c ∧ takeCloseOk c = true ∧ s.rd F.TAKE_STATUS_state 3 = x ∧ s.rd F.TAKE_NUMBER_value 3 = c.w 20
            ∧ 3 < s.stor.takes.length ∧ (s.take 3).closeCmds = []))
    ∧ (let c := cmdOf 0x11 [(16, 0), (20, 9)]
       let s := withCmd ((recording []).wr F.TAKE_NUMBER_value 9 0) c
       s.takeTurn 7 = true ∧ s.afterUnmount 7 = false ∧ s.Waits 7 0x11 c ∧ takeCloseOk c = true ∧ s.rd F.TAKE_STATUS_state 0 = 2 ∧ s.rd F.TAKE_NUMBER_value 0 = c.w 20
         ∧ 0 < s.stor.takes.length ∧ (s.take 0).frames ≠ [] ∧ (s.take 0).closeCmds.contains 7 = false) := by
  simp only [State.Waits]; decide +kernel

def tiles1 : Cmd := cmdOf 0x12 [(16, 1), (20, 9), (32, 1)]
/-- The read of a take that had committed one frame at the read's decode. -/
def seen1 : Cmd := { tiles1 with seen := .frames 1 }
def range1 (kind : Nat) : Cmd := cmdOf 0x13 ([(16, 1), (17, kind)] ++ if kind = 0 then [(28, 1)] else [(28, 64)])
def getlog1 : Cmd := cmdOf 0x1D [(16, 1), (17, 1), (28, 1), (40, 64)]
def side (p : Nat) : Cmd := cmdOf 0x14 [(16, p), (32, 1), (36, 65)]
def take9 : TakeEntry :=
  { take := 9, state := 1, placement := 1, packed := false, easel := 0, format := 0, width := 64, height := 32, rate := 1, opened := 0, ended := 0, frames := 1,
    partner := reelId0, serial0 := 5 }
def entry5 : FrameEntry :=
  { take := 9, index := 0, serial := 5, easel := 0, state := 1, gleaned := false, fault := 0, segs := 0, secs := 0, nanos := 0, tiles := 1, check := 0 }
/-- A stored tile, in a version 3 segment of frame 5. -/
def seg1 : Segment :=
  { version := 3, sidecar := false, half := 0, packed := false, last := true, encrypted := false, easel := 0, id := reelId0, serial := 1, owner := 9, frame := 5,
    ordinal := 0, tseg := 0, tiles := [(tileRecord 0 5 0 0, [])], file := [] }
def set1 : BlockSet := { id := 1, index := 0, state := 2, blocks := List.replicate 16 9, counts := List.replicate 16 1, nextWl := 1, secs := 0, stop := false }
def reel9 (l : List FrameEntry) : Reel := { reel0 with takes := [take9], frames := l }
def segEntry1 : SegEntry := { serial := 1, start := 0, half := 0, packed := false, last := true, ordinal := 0, tiles := 1 }
def reel1 : Reel := { reel9 [entry5] with segs := [(9, 5, segEntry1)], stripes := [{ serial := 0, set := 1, wl := 0 }], sets := [set1] }

theorem test_witness_ReelReadsAndLogs :
    (∀ c ∈ [tiles1, range1 0, range1 1, getlog1],
      let s := withCmd State.reset c
      c.b 16 = 1 ∧ c.mute = false ∧ (s.cmd 7 = some c ∧ c.stage = .ready) ∧ s.portFor 7 1 = false ∧ s.afterUnmount 7 = false)
    ∧ (tiles1.opcode = 0x12 ∧ (range1 0).opcode = 0x13 ∧ getlog1.opcode = 0x1D ∧ readTilesOk tiles1 = true ∧ readRangeOk (range1 0) = true
      ∧ readRangeOk (range1 1) = true ∧ getLogOk getlog1 = true ∧ (range1 0).b 17 = 0 ∧ (range1 1).b 17 = 1)
    ∧ (∀ c ∈ [tiles1, range1 0, range1 1, getlog1],
      let s := withCmd (mounted (reel9 [])) c
      (s.cmd 7 = some c ∧ c.stage = .ready) ∧ s.portFor 7 1 = true ∧ s.afterUnmount 7 = false ∧ (s.port 1).reel = some (reel9 []))
    ∧ (let s := withCmd (mounted (reel9 [])) tiles1
       s.takeOf 1 (tiles1.w 20) = some take9 ∧ tiles1.framesSeen ≤ tiles1.w 24)
    ∧ (let s := withCmd (mounted (reel9 [entry5])) seen1
       let u := s.updCmd 7 fun c => { c with stage := .running }
       s.cmd 7 = some seen1 ∧ s.takeOf 1 (seen1.w 20) = some take9 ∧ seen1.w 24 < seen1.framesSeen ∧ seen1.w 28 + seen1.w 32 ≤ entryTiles take9
         ∧ s.partnerGone 1 take9 = false ∧ s.readWork 7 = none ∧ ((u.readUnits seen1).flatMap (u.unitPagesOf seen1)).eraseDups = [])
    ∧ (let s := withCmd ((mounted reel1).updPort 1 fun x => { x with mag := some { mag0 with segs := [seg1] } }) seen1
       let u := s.updCmd 7 fun c => { c with stage := .running }
       s.takeOf 1 (seen1.w 20) = some take9 ∧ seen1.w 24 < seen1.framesSeen ∧ s.partnerGone 1 take9 = false ∧ s.readWork 7 = none
         ∧ (u.readUnits seen1).length = 1 ∧ ((u.readUnits seen1).map fun v => (u.unitPagesOf seen1 v).isEmpty) = [false])
    ∧ (let c := cmdOf 0x1C [(16, 1)]
       let m := { mag0 with slc := [(0, 0, 0, .header hdr0)] }
       let s := withCmd ((mport 3 1).updPort 1 fun x => { x with mag := some m }) c
       s.Waits 7 0x1C c ∧ identifyOk c = true ∧ (s.port 1).mag = some m ∧ s.portState 1 = 3 ∧ s.afterUnmount 7 = false
         ∧ (s.port 1).admin.any (fun a => a.cmd.isNone) = false ∧ (s.port 1).unmount.all (fun u => decide (7 < u)) = true)
    ∧ (let s := withCmd State.reset (side 0)
       s.Waits 7 0x14 (side 0) ∧ sidecarOk (side 0) = true ∧ (side 0).b 16 = 0 ∧ s.portFor 7 0 = false ∧ s.stor.sideCmds = [])
    ∧ (let s := withCmd mounted (side 1)
       s.Waits 7 0x14 (side 1) ∧ sidecarOk (side 1) = true ∧ (∀ q ∈ placePorts 1, s.sideStatus 7 q ((side 1).w 20) = St.OK
         ∧ (s.port q).reel.isSome = true ∧ q < s.stor.ports.length)) := by
  simp only [State.Waits]
  refine ⟨?_, ?_, ?_, ?_, ?_, ?_, ?_, ?_, ?_⟩ <;> decide +kernel

/-- A magazine whose first control block carries a header. -/
theorem test_witness_ReelReadsAndLogs_header : (headerInForce { mag0 with slc := [(0, 0, 0, .header hdr0)] }).isSome = true := by decide +kernel

theorem test_witness_MountsFormatsAndFlushes :
    (let c := cmdOf 0x18 [(16, 1)]
     (let s := withCmd State.reset c
      c.b 16 = 1 ∧ c.mute = false ∧ 1 < s.stor.ports.length ∧ s.Waits 7 0x18 c ∧ mountOk c = true ∧ s.portReady 1 = false ∧ s.afterUnmount 7 = false)
       ∧ (withCmd (mport 3 1) c).portReady 1 = true)
    ∧ (let c := cmdOf 0x19 [(16, 1)]
       (let s := withCmd (taking mounted) c
        s.Waits 7 0x19 c ∧ unmountOk c = true ∧ s.afterUnmount 7 = false ∧ s.portUsable 1 = true ∧ s.portTakeOpen 1 = true)
       ∧ (let o := { erase5 with running := true }
          let s := withCmd (mounted.updPort 1 fun x => { x with ops := [o] }) c
          s.portUsable 1 = true ∧ s.portTakeOpen 1 = false ∧ (s.port 1).ops = [o] ∧ o.running = true)
       ∧ (let s := withCmd mounted c
          s.portUsable 1 = true ∧ s.portTakeOpen 1 = false ∧ (s.port 1).allOps = [] ∧ (s.port 1).ledger.pend = [] ∧ (s.port 1).ledger.group = none
            ∧ (s.port 1).tasks = [] ∧ s.host.cmds = [c]))
    ∧ (let c := cmdOf 0x1A [(16, 1), (20, 1)]
       let s := withCmd (withMag (mport 3 1) 1) c
       s.Waits 7 0x1A c ∧ formatOk c = true ∧ (s.port 1).mag = some mag0 ∧ s.portReady 1 = true ∧ c.b 17 = 0 ∧ c.d 20 ≠ 0)
    ∧ (let c := cmdOf 0x1B [(16, 1)]
       let s := withCmd (withMag (mport 3 1) 1) c
       s.Waits 7 0x1B c ∧ sanitizeOk c = true ∧ (s.port 1).mag = some mag0 ∧ s.portReady 1 = true)
    ∧ (let c := cmdOf 0x15 [(16, 1)]
       (let s := withCmd State.reset c
        s.Waits 7 0x15 c ∧ flushOk c = true ∧ c.b 16 = 1 ∧ s.portFor 7 0 = false ∧ s.stor.flushes = [])
       ∧ (let c := { c with seen := .flush [] [] }
          let s := withCmd (mport 4 0) c
          (s.cmd 7 = some c ∧ c.opcode = 0x15 ∧ c.stage = .ready) ∧ s.afterUnmount 7 = false ∧ s.portFor 7 0 = true ∧ s.stor.flushes = [] ∧ s.host.cmds = [c] ∧ c.seen = .flush [] [])) := by
  simp only [State.Waits]
  refine ⟨⟨?_, ?_⟩, ⟨?_, ?_, ?_⟩, ?_, ?_, ?_, ?_⟩ <;> decide +kernel
/-! ### Witnesses: sketch coding -/

/-- A committed set of instance i with some fields set. -/
def setOf (i : Nat) (l : List (Fld × Nat)) : RegStore := l.map fun x => (⟨x.1.base, x.1.lo, i, 0⟩, x.2)

/-- A set of context 15 on core 0 of West that meets R459 and R462, with the ring of 32 KiB at 4 MiB. -/
def sketchSet (mode : Nat) : RegStore := setOf 15
  [(F.VCD_SC_CTRL_mode, mode), (F.VCD_SC_CTRL_cores, 1), (F.VCD_SC_CTRL_level_idc, 30), (F.VCD_SC_CAP_PIC_bytes, 4096), (F.VCD_SC_CAP_WIN_bytes, 4096),
   (F.VCD_SC_WIN_len, 1), (F.VCD_SC_BS_SIZE_value, 8), (F.VCD_SC_BS_BASE_LO_value, 0x400000), (F.VCD_SC_HOST_SIZE_value, 1)]
/-- View 0 at 64 × 64, a VCD region of 16 MiB in stack 0, and context 15 with a set. -/
def sketching (r : RegStore) (f : ScSt → ScSt) : State :=
  ((((regs [(F.VCD_POOL_SIZE_value, 1024, 0), (F.EASEL_RATE_rate_mfps, 1, 0), (F.PWR_STATE_released, 4294967295, 0)]).updHbm fun h =>
      { h with plan := [region 0 0 4096 6 0] }).updView 0 fun x =>
        { x with inForce := setOf 0 [(F.VIEW_CTRL_enable, 1), (F.VIEW_OUT_SIZE_x, 64), (F.VIEW_OUT_SIZE_y, 64), (F.VIEW_FMT_format, 2), (F.VIEW_FMT_depth, 0)],
                 ring := [{ slot7 true with avail := 3, lines := 64 }] }).updSc 15 fun c => f { c with inForce := r })
def streamCmd (op : Nat) : Cmd := cmdOf op [(16, 15)]

theorem test_witness_SketchContexts :
    (15 < State.reset.vcd.ctx.length ∧ (regs [(F.VCD_SC_COMMIT_pending, 1, 15)]).on F.VCD_SC_COMMIT_pending 15 = true
      ∧ State.reset.on F.VCD_SC_COMMIT_pending 15 = false ∧ State.reset.rd F.VCD_SC_STATUS_state 15 = 0)
    ∧ (let s := regs [(F.VCD_SC_STATUS_state, 1, 15)]
       s.rd F.VCD_SC_STATUS_state 15 ≠ 0 ∧ sameButQp (s.scShadow 15) (s.sc 15).inForce 15 = true)
    ∧ (let s := sketching [] fun c => { c with check := some (sketchSet 1) }
       s.planPending = false ∧ (s.sc 15).check = some (sketchSet 1) ∧ s.scCaps (sketchSet 1) 15 = true)
    ∧ (let s := sketching [] fun c => { c with check := some [] }
       s.planPending = false ∧ (s.sc 15).check = some [] ∧ s.scCaps [] 15 = false)
    ∧ (let c := cmdOf 0x20 [(16, 16)]
       let s := withCmd State.reset c
       s.Waits 7 0x20 c ∧ c.mute = false ∧ s.planPending = false ∧ streamBad c 0 = true)
    ∧ (let s := withCmd (regs [(F.VCD_SC_STATUS_state, 1, 15)]) (streamCmd 0x20)
       s.Waits 7 0x20 (streamCmd 0x20) ∧ streamBad (streamCmd 0x20) 0 = false ∧ (streamCmd 0x20).b 16 = 15 ∧ s.rd F.VCD_SC_STATUS_state 15 ≠ 0)
    ∧ (let r := sketchSet 1
       let s := withCmd (sketching r id) (streamCmd 0x20)
       s.Waits 7 0x20 (streamCmd 0x20) ∧ s.planPending = false ∧ s.rd F.VCD_SC_STATUS_state 15 = 0 ∧ s.on F.VCD_SC_COMMIT_pending 15 = false
         ∧ r = (s.sc 15).inForce ∧ (s.viewSuits r 15 && s.levelOk r 15 && s.scCaps r 15) = true ∧ s.sketchLoadOk 15 = true
         ∧ (s.poolTake (regOf r F.VCD_SC_CTRL_half 15) 15 (poolSize (roundUpTo (s.viewWidth (regOf r F.VCD_SC_CTRL_view 15)) 8)
           (roundUpTo (s.viewHeight (regOf r F.VCD_SC_CTRL_view 15)) 8) (s.view422 (regOf r F.VCD_SC_CTRL_view 15))) (3 + regOf r F.VCD_SC_CTRL_lt 15)).isSome = true)
    ∧ (let s := withCmd State.reset (streamCmd 0x21)
       s.Waits 7 0x21 (streamCmd 0x21) ∧ streamBad (streamCmd 0x21) 1 = false ∧ s.rd F.VCD_SC_STATUS_state 15 ≠ 1)
    ∧ (∀ op ∈ [0x21, 0x22], let s := withCmd (regs [(F.VCD_SC_STATUS_state, 1, 15)]) (streamCmd op)
        s.Waits 7 op (streamCmd op) ∧ s.rd F.VCD_SC_STATUS_state 15 = 1 ∧ (s.sc 15).queue = [] ∧ (s.sc 15).refresh = [] ∧ (s.sc 15).pic = none
          ∧ (s.sc 15).aus = []) := by
  simp only [State.Waits]; refine ⟨?_, ?_, ?_, ?_, ?_, ?_, ?_, ?_, ?_⟩ <;> decide +kernel

def part0 : ScPart :=
  { left := 0, first := 0, rows := 1, ctus := 1, budget := 0, kept := 0, next := 0, floor := false, started := [], ahead := [], data := [], sent := false }
def pic0 (scraped : Bool) : ScPic :=
  { easel := 0, serial := 5, slot := 0, buf := 0, stamp := 0, begun := true, idr := true, intra := true, wet := false, recovery := false, poc := 0, sweep := 0,
    step := 0, rps := [], cores := [0], scraped := scraped, bytes := 0, nals := 0, parts := [part0] }
/-- An intra DC unit of 64 × 64 without residual, and the row of one CTU that holds it in so many bytes. -/
def unit0 : ScCu :=
  { size := 64, split := .whole, blocks := [32], intra := true, dc := true, skip := none, short := false, long := false, reach := 0, residual := false }
def row0 (n : Nat) : List ScCtu := [{ qp := 28, units := [unit0], bytes := List.replicate n 0 }]
def au0 (coded : Bool) (state : Nat) : ScAu :=
  { id := 0, easel := 0, serial := 5, stamp := 0, flags := 0, poc := 0, step := 0, coded := coded, state := state, fault := 0, data := [] }
/-- Core 0 codes context 15, in a row or between rows. -/
def coding (row : Option Nat) (f : ScSt → ScSt) : State :=
  (sketching (sketchSet 1) f).updVcd fun v => { v with cores := v.cores.set 0 (some (15, row)) }
def nal0 (n : Nat) (record : Bool) : ScNal :=
  { au := 0, what := .user, data := List.replicate n 0, stamp := 0, first := true, last := true, live := [], record := record }

def rcCmd (l : List (Nat × Nat)) : Cmd := cmdOf 0x28 l

theorem test_witness_SketchPictures_Start :
    (let s := ((sketching (sketchSet 1) fun c => { c with queue := [(0, 5, 0, 0)] }).wr F.VCD_SC_STATUS_state 1 15).updVcd fun v =>
        { v with pool := [[{ addr := 0, size := 4096, owner := 15, mark := 0, easel := 0, serial := 0, poc := 0, sweep := 0 }], []] }
     s.vcd.cores.getD 0 none = none ∧ s.powered (20 + 0 / 4) = true ∧ s.takesWork (0x38 + 0) = true ∧ s.scReady 15 0 = some 3 ∧ (List.range 15).all (fun y => (s.scReady y 0).isNone) = true
       ∧ s.scPick 0 = some 15
       ∧ (s.sc 15).pic = none ∧ (s.sc 15).queue = [(0, 5, 0, 0)] ∧ ((s.scBufs 15).find? (fun b => b.mark == 0)).isSome = true ∧ 0 < s.vcd.cores.length) := by
  decide +kernel

theorem test_witness_SketchPictures_RowStart :
      (∀ scraped ∈ [true, false], let s := coding none fun c => { c with pic := some (pic0 scraped) }
        s.vcd.cores.getD 0 none = some (15, none) ∧ (s.sc 15).pic = some (pic0 scraped) ∧ s.coreRow 15 0 (pic0 scraped) = some (0, 0)
          ∧ (pic0 scraped).scraped = scraped ∧ (pic0 scraped).parts[0]? = some part0 ∧ s.rowWritten 15 (pic0 scraped) part0 0 = true) := by
  decide +kernel

theorem test_witness_SketchPictures_RowDone :
      (let s := coding (some 0) fun c => { c with pic := some (pic0 false) }
       s.vcd.cores.getD 0 none = some (15, some 0) ∧ (s.sc 15).pic = some (pic0 false) ∧ (pic0 false).parts[s.partOf 15 0]? = some part0
         ∧ (∀ n ∈ [0, 32769], s.rowLegal 15 0 0 (pic0 false) part0 (row0 n) (row0 0) = true) ∧ part0.floor = false ∧ (pic0 false).scraped = false
         ∧ pastRoom ((s.sc 15).fits 15) (pic0 false).loose (row0 32769) = some 32769 ∧ pastRoom ((s.sc 15).fits 15) (pic0 false).loose (row0 0) = none) := by
  decide +kernel

theorem test_witness_SketchPictures_Decode :
      ((let s := withCmd (sketching [] id) (rcCmd [(18, 1), (20, 1)])
        let x := s.vcd.dec.getD ((rcCmd [(18, 1), (20, 1)]).b 16) RcSt.init
        s.takesWork (0x40 + (rcCmd [(18, 1), (20, 1)]).b 16 / 4) = true ∧ s.planPending = false ∧ x.held = [] ∧ x.dpb = [] ∧ x.fault = false ∧ x.work = none
          ∧ (rcCmd [(18, 1), (20, 1)]).b 16 < s.vcd.dec.length)
         ∧ (withCmd State.reset (rcCmd [])).cmd 7 = some (rcCmd []) ∧ (rcCmd []).opcode = 0x28 ∧ (rcCmd []).stage = .ready ∧ (rcCmd []).mute = false ∧ rcBad (rcCmd []) = true
         ∧ rcBad (rcCmd [(18, 1), (20, 1)]) = false ∧ bitOf ((rcCmd [(18, 1), (20, 1)]).b 17) 0 = false
         ∧ ((State.reset.updDec 0 fun d => { d with fault := true }).vcd.dec.getD ((rcCmd [(18, 1), (20, 1)]).b 16) RcSt.init).fault = true
         ∧ ((State.reset.updDec 0 fun d => { d with fault := true }).vcd.dec.getD ((rcCmd [(18, 1), (20, 1)]).b 16) RcSt.init).work = none)
      ∧ (let c := { rcCmd [(18, 1), (20, 1)] with stage := .running }
         let w : RcWork := { cmd := 7, bytes := [0], steps := [], fault := none, done := 0, used := 1, written := 0 }
         let s := (withCmd State.reset c).updDec 0 fun d => { d with work := some w }
         (s.cmd 7 = some c ∧ c.opcode = 0x28 ∧ c.stage = .running) ∧ (s.vcd.dec.getD (c.b 16) RcSt.init).work = some w ∧ w.cmd = 7) := by
  decide +kernel

theorem test_witness_SketchPublish :
    let s := sketching (sketchSet 1) fun c => { c with aus := [au0 true 1] }
    (s.sc 15).aus = [au0 true 1] ∧ (au0 true 1).coded = true ∧ (au0 true 1).state = 1 ∧ s.quiet (s.scHalf 15) = false ∧ s.auRoom 15 (au0 true 1) = true
      ∧ ((s.scDead 15).sc 15).aus = [au0 true 1] ∧ (s.scDead 15).auRoom 15 (au0 true 1) = true
      ∧ (((sketching (sketchSet 1) id).scDead 15).sc 15).aus = [] := by
  have h : (auBytes 15 (au0 true 1)).length = 64 := by simp [auBytes, auHeader, padTo, le, au0, roundUpTo, ceilDiv]
  refine ⟨by decide +kernel, rfl, rfl, by decide +kernel, ?_, by decide +kernel, ?_, by decide +kernel⟩ <;>
    (unfold State.auRoom; rw [h]; decide +kernel)

theorem escapeNal_length (z : Nat) (l : List Byte) : (escapeNal z l).length ≤ 2 * l.length := by
  induction l generalizing z with
  | nil => simp [escapeNal]
  | cons b bs ih =>
    simp only [escapeNal]
    split <;> simp only [List.length_cons]
    · have := ih (if b = 0 then 1 else 0)
      omega
    · have := ih (if b = 0 then z + 1 else 0)
      omega

theorem userSei_length (v : Nat) (p : ScPic) : (userSei v p).length ≤ 200 := by
  have h := escapeNal_length 0 ([5, 35] ++ ("NELERI-SKETCH-01".toList.map (fun c => BitVec.ofNat 8 c.toNat) ++ le 6 p.serial ++ le 1 p.easel ++ le 1 v
    ++ le 1 (b2n p.wet) ++ le 6 (ptpSeconds p.stamp) ++ le 4 (ptpNanos p.stamp)) ++ [0x80])
  have e : ∀ n x : Nat, (le n x).length = n := by
    intro n; induction n with
    | zero => intro x; rfl
    | succ n ih => intro x; simp [le, ih]
  have u : ("NELERI-SKETCH-01".toList.map (fun c => BitVec.ofNat 8 c.toNat)).length = 16 := by decide
  simp only [List.length_append, List.length_cons, List.length_nil, e, u] at h
  simp only [userSei, List.length_append, List.length_cons, List.length_nil]
  omega

theorem test_witness_SketchPictures_Nal :
    let s := sketching (sketchSet 1) fun c => { c with pic := some (pic0 false), aus := [au0 false 0] }
    (s.sc 15).pic = some (pic0 false) ∧ (s.sc 15).aus.getLast? = some (au0 false 0) ∧ (s.nalPlan 15 (pic0 false))[(pic0 false).nals]? = some .user
      ∧ s.nalLegal 15 (pic0 false) .user [] none false = true := by
  refine ⟨by decide +kernel, by decide +kernel, by decide +kernel, ?_⟩
  decide +kernel

/-! ### Witnesses: raster outputs and viewfinders -/

/-- View 0 at 64 × 64, output 3 with a set of format 0 at 30 frames per second that shows it, and its lock state. -/
def outSet : RegStore := setOf 3
  [(F.RAS_OUT_CTRL_enable, 1), (F.RAS_OUT_FMT_rate, 4), (F.RAS_OUT_CTRL_primer, 2), (F.RAS_OUT_CTRL_view, 0), (F.RAS_OUT_POS_y, 2)]
def showing (lock : Nat) (f : OutSt → OutSt) : State :=
  (((regs [(F.EASEL_STATUS_state, 1, 0), (F.PWR_STATE_released, 4294967295, 0), (F.RAS_OUT_STATUS_lock_state, lock, 3)]).updView 0 fun x =>
    { x with inForce := setOf 0 [(F.VIEW_CTRL_enable, 1), (F.VIEW_OUT_SIZE_x, 64), (F.VIEW_OUT_SIZE_y, 64), (F.VIEW_FMT_format, 2)],
             ring := [{ slot7 false with count := 9 }] }).updOut 3 fun x => f { x with inForce := outSet })
def vpic : OutPic := { view := 0, slot := 0, easel := 0, serial := 5, wet := true, state := 0, fault := 0, tc := 0, again := false, held := false }

theorem test_witness_RasterCommits :
    (3 < State.reset.outs.length ∧ (regs [(F.RAS_OUT_COMMIT_pending, 1, 3)]).on F.RAS_OUT_COMMIT_pending 3 = true
      ∧ State.reset.on F.RAS_OUT_COMMIT_pending 3 = false ∧ regOn (State.reset.outp 3).inForce F.RAS_OUT_CTRL_enable 3 = false)
    ∧ (∀ l ∈ [0, 3], let s := showing l fun x => { x with check := some outSet }
        (s.outp 3).check = some outSet ∧ (s.outLink outSet 3 && s.outFits outSet 3) = true ∧ s.lockState 3 = l)
    ∧ (let r := setOf 3 [(F.RAS_OUT_CTRL_primer, 1)]
       let s := showing 0 fun x => { x with check := some r }
       (s.outp 3).check = some r ∧ (s.outLink r 3 && s.outFits r 3) = false) := by decide +kernel

theorem test_witness_RasterLock :
    (∀ n ∈ [14, 15], let s := showing 2 fun x => { x with starts := n }
      s.lockState 3 = 2 ∧ (s.outp 3).starts = n ∧ (-1 : Int).natAbs ≤ 1)
    ∧ (∀ l ∈ [1, 4], let s := showing l fun x => { x with pulses := 2 }
        s.outLock 3 = 0 ∧ s.lockState 3 = l ∧ pulseHalves (regOf (s.outp 3).inForce F.RAS_OUT_FMT_rate 3) 33333333 ≠ 0
          ∧ 4 ≤ (s.outp 3).pulses + pulseHalves (regOf (s.outp 3).inForce F.RAS_OUT_FMT_rate 3) 33333333)
    ∧ (showing 3 id).outLock 3 = 0 ∧ (showing 3 id).lockState 3 = 3 := by decide +kernel

theorem test_witness_RasterPictures :
    (let s := showing 3 id
     (s.outp 3).ready = none ∧ (s.outp 3).pic = none ∧ s.sending 3 = true ∧ s.takesWork (0x70 + 3) = true ∧ s.viewOn (s.outView 3) = true ∧ s.outLive 3 = false
       ∧ s.chooseSlot (s.outView 3) (regOn (s.outp 3).inForce F.RAS_OUT_CTRL_dry_only 3) (s.outp 3).last = some (0, 9, false, 0))
    ∧ (let s := ready (showing 3 fun x => { x with pic := some vpic, issued := [62, 63], line := 64 })
       (s.outp 3).pic = some vpic ∧ (s.outp 3).issued.contains 63 = true ∧ (s.outp 3).issued.contains 62 = true
         ∧ s.stackWaits (stackOf (s.viewBase vpic.view)) = false ∧ 62 + 1 ≠ s.viewHeight vpic.view ∧ (s.outp 3).line ≤ s.rasterLine 3 62 ∧ s.released (24 + stackOf (s.viewBase vpic.view)) = true
         ∧ (s.outp 3).line ≤ s.rasterLine 3 63)
    ∧ (∀ l ∈ [[], [(63, [[1], [2], [3]]), (62, [[1], [2], [3]])]], let s := showing 3 fun x => { x with pic := some vpic, buffer := l, line := 65 }
        s.lockState 3 ≠ 0 ∧ (s.outp 3).pic = some vpic ∧ s.sending 3 = true ∧ (s.outp 3).cut = false
          ∧ regOf (s.outp 3).inForce F.RAS_OUT_POS_y 3 ≤ (s.outp 3).line
          ∧ (s.outp 3).line < regOf (s.outp 3).inForce F.RAS_OUT_POS_y 3 + s.viewHeight vpic.view
          ∧ (s.sendLine 3 ((s.outp 3).line - regOf (s.outp 3).inForce F.RAS_OUT_POS_y 3) vpic).isSome = !l.isEmpty)
    ∧ (let s := ((showing 3 fun x => { x with inForce := (⟨F.RAS_OUT_CTRL_source.base, F.RAS_OUT_CTRL_source.lo, 3, 0⟩, 1) :: outSet }).updView 0 fun x =>
         { x with ring := [slot7 true] })
       let f := { frame5 with ended := true }
       let s := (withFrame s f).updPal 0 fun p =>
         { p with frames := [{ serial := 5, pal := [], hist := [], clips := [], zones := [], present := 0, damaged := 0, views := [], noCrop := [], fallback := [], checked := [] }] }
       s.outLive 3 = true ∧ 63 < s.viewHeight (s.outView 3) ∧ s.writingSlot (s.outView 3) = some 0
         ∧ (s.ringSlot (s.outView 3) 0).easel = 0 ∧ (s.ringSlot (s.outView 3) 0).serial = 5 ∧ s.frame 0 5 = some f ∧ (s.statFrame 0 5).isSome = true
         ∧ (∀ g ∈ s.statFrame 0 5, s.lineIn (s.outView 3) (s.ringSlot (s.outView 3) 0) f g 63 = true) ∧ s.bufferFull 3 (s.outView 3) = false ∧ s.viewHeld (s.outView 3) = false) := by decide +kernel

def dcs (rw len : Nat) : Cmd := cmdOf 0x31 ([(16, 1), (17, rw), (18, len), (20, 2 * rw)])
def push : Cmd := cmdOf 0x30 [(16, 1), (22, 16), (24, 1), (26, 64)]
/-- Viewfinder port 1 in a mode, with an active area of 64 × 64. -/
def panel (mode : Nat) (f : OutSt → OutSt) : State :=
  (regs [(F.RAS_OUT_STATUS_dsi_mode, mode, 5), (F.PWR_STATE_released, 4294967295, 0)]).updOut 5 fun x =>
    f { x with inForce := setOf 1 [(F.RAS_DSI_HTIM0_active, 64), (F.RAS_DSI_VTIM0_active, 64)] }

theorem test_witness_ViewfinderPanels :
    (let s := withCmd State.reset (cmdOf 0x30 [])
     s.Waits 7 0x30 (cmdOf 0x30 []) ∧ s.pushOk (cmdOf 0x30 []) = false ∧ (cmdOf 0x30 []).mute = false ∧ 4 + 1 < s.outs.length)
    ∧ (∀ m ∈ [1, 2], let s := withCmd (panel m id) push
        s.Waits 7 0x30 push ∧ s.pushOk push = true ∧ push.b 16 = 1 ∧ s.rd F.RAS_OUT_STATUS_dsi_mode (4 + 1) = m ∧ (s.outp (4 + 1)).queue = [])
    ∧ (let s := withCmd State.reset (cmdOf 0x31 [])
       s.Waits 7 0x31 (cmdOf 0x31 []) ∧ dcsOk (cmdOf 0x31 []) = false)
    ∧ (∀ rw ∈ [0, 1], let s := withCmd (panel 2 id) (dcs rw 28)
        s.Waits 7 0x31 (dcs rw 28) ∧ dcsOk (dcs rw 28) = true ∧ (dcs rw 28).b 16 = 1 ∧ s.rd F.RAS_OUT_STATUS_dsi_mode (4 + 1) = 2
          ∧ (s.outp (4 + 1)).queue = [] ∧ (dcs rw 28).b 17 = rw)
    ∧ (let c : Cmd := { dcs 1 1 with stage := .running }
       let s := withCmd (panel 2 fun x => { x with reading := some 7, queue := [(7, [])] }) c
       s.Runs 7 0x31 c ∧ (s.outp (4 + 1)).reading = some 7 ∧ (s.outp (4 + 1)).queue.tail = [])
    ∧ (let c : Cmd := { push with stage := .running }
       let s := withCmd (panel 2 fun x => { x with queue := [(7, [])] }) c
       s.Runs 7 0x30 c ∧ (s.outp (4 + 1)).reading = none ∧ (s.outp (4 + 1)).queue = [(7, [])])
    ∧ ((panel 1 id).rd F.RAS_OUT_STATUS_dsi_mode (4 + 1) = 1 ∧ (panel 1 id).blockUp (0x74 + 1) = true ∧ isDsi 5 = true) := by
  simp only [State.Waits, State.Runs]; decide +kernel

/-! ### Witnesses: audio -/

/-- The audio domain released with a port in a state. -/
def sounding (p st : Nat) (f : AudPort → AudPort) (l : List (Fld × Nat × Nat)) : State :=
  (regs ((F.PWR_STATE_released, 4294967295, 0) :: l)).updAport p fun x => f { x with state := st }
def aes (ok : Bool) : AesFrame :=
  { a := 0, b := 0, validA := false, validB := false, csA := false, csB := false, z := false, rateOk := ok, ratio := 1073741824 }

theorem test_witness_AudioPorts :
    (let s := sounding 3 0 id []
     11 < s.aud.units.length ∧ unitPort 3 < s.aud.ports.length ∧ unitPort 11 < s.aud.ports.length ∧ 1 % 2 = 1 ∧ (s.aport 3).state = 0
       ∧ s.released 31 = true ∧ s.takesWork (0x80 + 3) = true)
    ∧ (regs [(F.AUD_TPORT_FLAGS_arm_pending, 1, 3)]).armPending 3 = true
    ∧ (let s := sounding 3 0 id [(F.AUD_REC_CFG_channels, 16, 0), (F.AUD_TPORT_MAP_span, 16, 3), (F.AUD_TPORT_MASK_mask_next, 65535, 3)]
       s.armPending 3 = false ∧ (maskBits (if 3 < 4 then 16 else 2) (s.unitNext 3)).length ≤ s.unitSpan 3 ∧ s.mapBad = false)
    ∧ (let s := sounding 3 1 (fun x => { x with good := 63 }) [(F.AUD_TPORT_CTRL_enable, 1, 3)]
       s.released 31 = true ∧ s.portOn 3 = true ∧ s.portMaster 3 = false ∧ (s.aport 3).state = 1 ∧ 63 ≤ (s.aport 3).good
         ∧ ratioOk 1073741824 = true ∧ ratioOk 1127428915 = true ∧ 0 ≠ (s.rd F.AUD_TDM_CFG_slots 3 + 1) * s.slotBits 3)
    ∧ (∀ ok ∈ [true, false], let s := sounding 5 1 id [(F.AUD_APORT_CTRL_enable, 1, 7)]
        s.released 31 = true ∧ s.unitOn 11 = true ∧ (aes ok).rateOk = ok) := by decide +kernel

/-- The AUDIO region of 16 MiB at the start of stack 0. -/
def recordingTo (blocks : Nat) : State := (regs [(F.AUD_RING_BLOCKS_value, blocks, 0)]).updHbm fun h => { h with plan := [region 0 0 4096 8 0] }

theorem test_witness_AudioRecording :
    (∀ n ∈ [8, 16777216], (recordingTo n).on F.AUD_REC_CTRL_run = false ∧ (recordingTo n).planPending = false
      ∧ (recordingTo n).pair F.AUD_RING_BASE_LO_value F.AUD_RING_BASE_HI_value % 64 = 0
      ∧ (recordingTo n).inRegion ((recordingTo n).pair F.AUD_RING_BASE_LO_value F.AUD_RING_BASE_HI_value)
          ((recordingTo n).rd F.AUD_RING_BLOCKS_value * (recordingTo n).blockBytes) 8 0 = decide (n = 8))
    ∧ (∀ st ∈ [2, 3], let s := (sounding 0 0 id [(F.AUD_MASTER_STATUS_state, st, 0)]).updAud fun a => { a with starts := 15 }
        s.masterState = st ∧ s.masterState ≠ 0 ∧ s.released 31 = true ∧ (-20 : Int).natAbs * s.masterRate ≤ 1000000000 ∧ 15 ≤ s.aud.starts) := by decide +kernel

/-- Slot 0 of OUT1 carries a channel it is no longer set to carry. -/
theorem test_witness_AudioZeroCrossing :
    let s := State.reset.updAud fun a => { a with outs := [[], [some 1]] }
    s.aud.outs[1]? = some [some 1] ∧ 0 < [some 1].length ∧ (s.aud.outs.getD 1 []).getD 0 none ≠ s.slotWant 1 0 := by decide +kernel

/-! ### Witnesses: time and network -/

def ptp (st : Nat) (f : NetSt → NetSt) : State := (regs [(F.NET_PTP_STATUS_state, st, 0), (F.NET_PTP_SERVO_lock_ns, 100, 0), (F.AUD_MASTER_CFG_lock, 0, 0)]).updNet f
def announce (priority : Nat) : Announce :=
  { domain := 127, priority1 := priority, clockClass := 6, accuracy := 33, variance := 0, priority2 := 128, identity := 9, stepsRemoved := 0,
    utcOffset := 37, tlv := none }

theorem test_witness_TimeBase :
    (∀ st ∈ [1, 4], let s := ptp st fun x => { x with master := some [], offsets := [1, 2, 3] }
      s.ptpState = st ∧ s.net.master.isSome = true ∧ 3 ≤ s.net.offsets.length)
    ∧ (let s := ptp 1 fun x => { x with master := some [], offsets := [1000, 1001, 1002] }
       s.net.armed = true ∧ 2000 < (middle2 (s.net.offsets ++ [5000])).natAbs ∧ s.net.offsets.length = 3)
    ∧ (let s := ptp 2 fun x => { x with syncs := 15 }
       s.ptpState = 2 ∧ (-100 : Int).natAbs ≤ s.rd F.NET_PTP_SERVO_lock_ns ∧ 15 ≤ s.net.syncs ∧ s.quiet 1 = false
         ∧ s.rd F.NET_PTP_SERVO_lock_ns < (101 : Int).natAbs)
    ∧ (let s := ptp 3 fun x => { x with syncs := 3 }
       s.ptpState = 3 ∧ 4 * s.rd F.NET_PTP_SERVO_lock_ns < (-401 : Int).natAbs ∧ 3 ≤ s.net.syncs)
    ∧ (let s := ptp 1 id
       s.ptpState ≠ 0 ∧ (announce 1).domain = s.rd F.NET_PTP_CFG_domain ∧ s.net.master = none)
    ∧ (let m := [0, 6, 33, 0, 128, 8, 0]
       let s := ptp 3 fun x => { x with master := some m }
       s.net.master = some m ∧ m.getD 5 0 ≠ (announce 1).identity ∧ better (dataset (announce 1)) m = false)
    ∧ (regs [(F.TAKE_STATUS_state, 2, 3)]).anyTakeOpen = true
    ∧ (let s := ptp 3 id
       s.anyTakeOpen = false ∧ (List.range 6).any (fun o => s.outLock o == 1 && s.lockState o != 0) = false ∧ s.rd F.AUD_MASTER_CFG_lock ≠ 1
         ∧ s.ptpState ≠ 0)
    ∧ (let s := regs [(F.NET_TC_CFG_src, 1, 0), (F.PWR_STATE_released, 4294967295, 0)]
       s.rd F.NET_TC_CFG_src = 1 ∧ s.net.tcHeld = false ∧ s.released 31 = true ∧ s.takesWork 0x86 = true) := by decide +kernel

def sendCmd (l : List (Nat × Nat)) : Cmd := cmdOf 0x38 l
def send : Cmd := sendCmd [(16, 1), (20, 64)]
def frame7 (launch started : Bool) : TxFrame :=
  { cmd := 7, port := 1, stamped := false, stampId := 0, launch := launch, data := [1], started := started, late := false }

theorem test_witness_HostFrames :
    (let s := withCmd State.reset (sendCmd [])
     s.Waits 7 0x38 (sendCmd []) ∧ sendOk (sendCmd []) = false ∧ send.mute = false)
    ∧ (let s := withCmd State.reset send
       s.Waits 7 0x38 send ∧ sendOk send = true ∧ s.on F.NET_PORT_STATUS_link (send.b 16) = false)
    ∧ (let s := withCmd (regs [(F.NET_PORT_STATUS_link, 1, 1)]) send
       s.Waits 7 0x38 send ∧ s.on F.NET_PORT_STATUS_link (send.b 16) = true ∧ (s.awaiting (send.b 16)).length < 64 ∧ bitOf (send.b 17) 1 = false)
    ∧ (∀ launch ∈ [true, false], let s := (regs [(F.PWR_STATE_released, 4294967295, 0)]).updNet fun x => { x with frames := [frame7 launch false] }
        s.net.frames.find? (fun f => f.cmd == 7 && !f.started) = some (frame7 launch false)
          ∧ s.net.frames.any (fun g => g.port == (frame7 launch false).port && g.started) = false ∧ s.takesWork (0x78 + (frame7 launch false).port) = true
          ∧ (launch = false → ((s.awaiting (frame7 launch false).port).find? fun g => !g.launch).map TxFrame.cmd = some 7))
    ∧ (let c : Cmd := { send with stage := .running }
       let s := withCmd (State.reset.updNet fun x => { x with frames := [frame7 true true] }) c
       s.net.frames.find? (fun f => f.cmd == 7 && f.started) = some (frame7 true true) ∧ s.Runs 7 0x38 c)
    ∧ ((State.reset.updNet fun x => { x with txts := [(1, 2, 3)] }).net.txts = [(1, 2, 3)] ∧ State.reset.net.txts = [])
    ∧ (∀ n ∈ [0, 4], let s := (regs [(F.NET_PORT_STATUS_link, 1, 1), (F.NET_RX_CFG_enable, 1, 0), (F.NET_RX_CFG_slots, 4, 0)]).updNet fun x =>
         { x with rxCount := n }
        s.on F.NET_PORT_STATUS_link 1 = true ∧ isPtp (List.replicate 64 0xFF) (s.rd F.NET_PTP_CFG_domain) = false
          ∧ s.addressed 1 (List.replicate 64 0xFF) = true ∧ s.on F.NET_RX_CFG_enable = true ∧ (List.replicate 64 (0xFF : Byte)).length ≤ 1518
          ∧ decide (s.rd F.NET_RX_CFG_slots ≤ (s.net.rxCount + 4294967296 - s.rd F.NET_RX_HEAD_value) % 4294967296) = decide (n = 4))
    ∧ (let s := regs [(F.NET_PORT_CFG_enable, 1, 1), (F.PWR_STATE_released, 4294967295, 0)]
       s.on F.NET_PORT_STATUS_link 1 ≠ true ∧ s.on F.NET_PORT_CFG_enable 1 = true ∧ s.takesWork (0x78 + 1) = true) := by
  simp only [State.Waits, State.Runs]; decide +kernel

/-- Sender 7 runs with a set of a kind. -/
def sender (l : List (Fld × Nat)) (f : SndSt → SndSt) : State :=
  ((showing 0 id).wr F.NET_SND_STATUS_running 1 7).updSnd 7 fun d => f { d with inForce := setOf 7 l }

theorem test_witness_Senders :
    (7 < State.reset.net.snds.length ∧ (regs [(F.NET_SND_COMMIT_pending, 1, 7)]).on F.NET_SND_COMMIT_pending 7 = true)
    ∧ (∀ run ∈ [0, 1], let s := regs [(F.NET_SND_STATUS_running, run, 7)]
        s.on F.NET_SND_COMMIT_pending 7 = false ∧ s.wireOk (s.shadow 0x1301000 0x1301020 7) 7 = true
          ∧ regOn (s.shadow 0x1301000 0x1301020 7) F.NET_SND_CTRL_enable 7 = false ∧ s.on F.NET_SND_STATUS_running 7 = decide (run = 1))
    ∧ (let s := sender [(F.NET_SND_CTRL_live, 1)] id
       (s.snd 7).ready = none ∧ s.on F.NET_SND_STATUS_running 7 = true ∧ (s.snd 7).pic = none ∧ regOf (s.snd 7).inForce F.NET_SND_CTRL_kind 7 = 0
         ∧ s.chooseSlot (regOf (s.snd 7).inForce F.NET_SND_CTRL_source 7) (!regOn (s.snd 7).inForce F.NET_SND_CTRL_live 7) (s.snd 7).last
           = some (0, 9, false, 0))
    ∧ (let s := sender [] fun d => { d with packet := 1079 }
       s.on F.NET_SND_STATUS_running 7 = true ∧ s.released 30 = true ∧ s.takesWork 0x7B = true ∧ regOf (s.snd 7).inForce F.NET_SND_CTRL_kind 7 = 0 ∧ (s.snd 7).cut = false
         ∧ (s.snd 7).packet < (formatOf (sndFormat (s.snd 7).inForce 7)).2.1 * sndLinePackets (s.snd 7).inForce 7)
    ∧ (let u : ScNal := { nal0 9 false with live := [7] }
       let s := (sender [(F.NET_SND_CTRL_kind, 1)] id).updSc 0 fun c => { c with nals := [u] }
       regOf (s.snd 7).inForce F.NET_SND_CTRL_kind 7 = 1
         ∧ (s.sc (regOf (s.snd 7).inForce F.NET_SND_CTRL_source 7)).nals.find? (fun u => u.live.contains 7) = some u)
    ∧ (let s := (sender [(F.NET_SND_CTRL_kind, 2)] id).updAud fun a => { a with count := 64 }
       regOf (s.snd 7).inForce F.NET_SND_CTRL_kind 7 = 2 ∧ (s.snd 7).stamp + sndSamples (s.snd 7).inForce 7 + 16 ≤ s.aud.count) := by decide +kernel

theorem test_witness_network_whole :
    (let s := regs [(F.NET_PORT_STATUS_link, 1, 1), (F.NET_RX_CFG_enable, 1, 0)]
     s.rxTakes 1 (List.replicate 64 0xFF) = true)
    ∧ (∀ run ∈ [0, 1], let s := regs [(F.NET_SND_STATUS_running, run, 7)]
        s.sndRefused 7 = false ∧ s.on F.NET_SND_STATUS_running 7 = decide (run = 1)) := by decide +kernel

/-! ### Witnesses: power, reset and the bell -/

def sys (f : SysSt → SysSt) (l : List (Fld × Nat × Nat) := []) : State := (regs l).updSys f
/-- Out of every reset of the device reach, the keepers running. -/
def awake (f : SysSt → SysSt) (l : List (Fld × Nat × Nat) := []) : State :=
  sys (fun x => f { x with por := false, keepers := List.replicate 2 { KeeperSt.init with up := true, beaten := true } })
    ((F.PWR_STATE_released, 4294967295, 0) :: l)

theorem test_witness_PowerAndReset_Device :
    (0 < State.reset.sys.halves.length ∧ 1 < State.reset.sys.halves.length ∧ 1 + 1 < State.reset.sys.seqs.length ∧ 1 < State.reset.sys.keepers.length)
    ∧ (State.reset.sys.por = true ∧ State.reset.sys.pin = false ∧ State.reset.sys.trip = false)
    ∧ (let s := sys fun x => { x with por := false, pin := true }
       s.sys.pin = true ∧ s.sys.por = false ∧ s.sys.trip = false)
    ∧ (let s := awake fun x => { x with hot := List.replicate 16 1 }
       (List.replicate 16 true).getD 15 false = true ∧ s.on F.THM_DIODE_masked 15 = false ∧ 1 ≤ s.sys.hot.getD 15 0 ∧ s.deviceHeld = false)
    ∧ (let s := sys fun x => { x with por := false, trip := true, cool := true }
       s.sys.trip = true ∧ s.sys.cool = true ∧ s.sys.por = false ∧ s.sys.pin = false)
    ∧ (let s := awake fun x => { x with seqs := [some 18, none, none] }
       s.deviceHeld = false ∧ s.sys.seqs.getD 0 none = some 18 ∧ nextStep (fun _ => true) 18 = some 19)
    ∧ (let s := awake fun x => { x with gaps := [31] }
       s.sys.gaps.contains 31 = true ∧ s.domainHeld 31 = !bitOf (s.rd F.PWR_ON_on) 31)
    ∧ (let s := awake (fun x => { x with gaps := [0] })
       s.sys.gaps.contains 0 = true ∧ s.domainHeld 0 = false) := by decide +kernel

theorem test_witness_PowerAndReset_Halves :
    (3 % 4 ≠ 0 ∧ (regs [(F.AUTH_STATUS_quiet_e, 1, 0)]).anyQuiet = true)
    ∧ (let s := awake id
       s.anyQuiet = false ∧ (s.keeper s.holder).up = true ∧ (s.keeper s.holder).beaten = true)
    ∧ (let s := awake fun x => { x with reqs := [0, 1] }
       s.sys.reqs.contains 1 = true ∧ (s.keeper s.holder).up = true ∧ (s.keeper s.holder).beaten = true ∧ s.quiet s.holder = false
         ∧ s.deviceHeld = false)
    ∧ (let s := awake fun x => { x with halves := [[2], [3]] }
       s.sys.halves.getD 1 [] ≠ [] ∧ s.deviceHeld = false) := by decide +kernel

theorem test_witness_PowerAndReset_Domains :
    (let s := awake id [(F.EASEL_STATUS_state, 1, 3), (F.PWR_ON_on, 4294967295, 0)]
     s.capturing = true ∧ busyDomain 25 = true ∧ bitOf (s.rd F.PWR_ON_on) 25 = true ∧ bitOf 0 25 = false ∧ fixedDomains.contains 25 = false)
    ∧ (let s := awake id [(F.PWR_ON_on, 4294967295, 0)]
       s.capturing = false ∧ bitOf (s.rd F.PWR_ON_on) 31 = true ∧ bitOf 0 31 = false ∧ fixedDomains.contains 31 = false)
    ∧ (sys fun x => { x with opening := [5] }).sys.opening.contains 5 = true
    ∧ (fixedDomains.contains 28 = true ∧ bitOf 0x10000000 28 = true)
    ∧ (State.reset.capturing = false ∧ (List.range 32).any (fun d => bitOf 0x80000000 d && fixedDomains.contains d) = false
       ∧ bitOf 0x80000000 31 = true ∧ bitOf (State.reset.rd F.RST_DOMAIN_hold) 31 = false) := by decide +kernel

theorem test_witness_Blocks :
    (blockDomain 0 = none ∧ blockDomain 255 = none)
    ∧ (sys fun x => { x with block := some (1, false) }).sys.block.isSome = true
    ∧ (blockDomain 0x86 = some 31 ∧ (awake id).sys.block = none ∧ (awake id).released 31 = true)
    ∧ (blockDomain 1 = some 2 ∧ State.reset.sys.block = none ∧ State.reset.released 2 = false)
    ∧ ((sys fun x => { x with block := some (1, false) }).sys.block = some (1, false)
       ∧ (sys fun x => { x with block := some (1, true) }).sys.block = some (1, true))
    ∧ (let s := awake fun x => { x with waiting := [0x86] }
       blockDomain 0x86 = some 31 ∧ s.sys.waiting.contains 0x86 = true ∧ s.released 31 = true ∧ s.sys.good.contains 0x86 = false) := by decide +kernel

theorem test_witness_TheBell :
    (0 < State.reset.sys.keepers.length ∧ 1 - 1 < State.reset.sys.keepers.length ∧ 1 < State.reset.sys.keepers.length ∧ (1 : Nat) - 0 = 1)
    ∧ ((awake id).keeper 0).up = true ∧ ((awake id).keeper 1).up = true
    ∧ (∀ n ∈ [1, 2], let s := awake (fun x => { x with keepers := List.replicate 2 { KeeperSt.init with up := true, run := n } }) [(F.AUTH_STATUS_quiet_e, 1, 0)]
       (s.keeper 1).up = true ∧ s.quiet 1 = true ∧ s.holder ≠ 1 ∧ (s.keeper 1).run = n ∧ s.beatTo 1 1 = some (s.keeper 1).seen)
    ∧ (∀ n ∈ [1, 2], let s := awake (fun x => { x with keepers := List.replicate 2 { KeeperSt.init with up := true, run := n } }) [(F.AUTH_STATUS_quiet_e, 1, 0), (F.AUTH_HB_COUNT_count, 1, 0)]
       (s.keeper 1).up = true ∧ s.quiet 1 = true ∧ s.holder ≠ 1 ∧ s.beatTo 1 1 = some (((s.keeper 1).seen + 1) % 2 ^ 32) ∧ (s.keeper 1).run = n)
    ∧ (let s := awake id
       (s.keeper 1).up = true ∧ s.holder = 1 - 1 ∧ s.quiet 1 = false ∧ s.holder ≠ 1)
    ∧ ((sys fun x => { x with keepers := List.replicate 2 { KeeperSt.init with held := true } }).keeper 1).held = true
    ∧ (∀ f ∈ [true, false], let s := sys (fun x => { x with por := false, keepers := List.replicate 2 { KeeperSt.init with fenced := f } }) [(F.PWR_STATE_released, 3, 0), (F.FW_STATUS_state, 2, 0)]
       (s.keeper 1).held = false ∧ s.sys.halves.getD 1 [] = [] ∧ s.released 1 = true ∧ (s.keeper 1).up = false ∧ s.rd F.FW_STATUS_state ≠ 0
         ∧ s.holder ≠ 1 ∧ (s.keeper 1).fenced = f)
    ∧ (regs [(F.TAKE_STATUS_state, 2, 3)]).anyTakeOpen = true
    ∧ (State.reset.anyTakeOpen = false ∧ [0, 1].any (fun p => State.reset.portState p == 5) = false ∧ State.reset.anyQuiet = false) := by decide +kernel

theorem test_witness_power_whole :
    (let s := awake fun x => { x with seqs := [some 18, none, some 2] }
     s.deviceHeld = false ∧ ((s.sys.seqs.getD 2 none).bind (nextStep (seqCovers 2))).isSome = true)
    ∧ (let s := awake id
       (s.keeper 1).up = true ∧ (s.keeper 1).beaten = true ∧ s.deviceHeld = false)
    ∧ (blockDomain 1 = some 2)
    ∧ (let s := sys (fun x => { x with por := false, keepers := List.replicate 2 KeeperSt.init }) [(F.PWR_STATE_released, 3, 0), (F.FW_STATUS_state, 2, 0)]
       s.keeperMay 1 = true)
    ∧ (let s := awake fun x => { x with class0 := [.beat 1 7] }
       (s.keeper 1).up = true ∧ s.beatTo 1 0 = some 7) := by decide +kernel

/-! ### Witnesses: heat and ageing -/

theorem test_witness_Heat :
    (∀ v ∈ [(-2000 : Int), 949, 950, 999, 1100, 1999], let s := awake id
        (-2000 ≤ v ∧ v < 2000) ∧ s.rd F.THM_STATUS_stage = 0 ∧ (s.keeper s.holder).up = true ∧ s.deviceHeld = false)
    ∧ (∀ tj ∈ [999, 1000], let s := regs [(F.THM_STATUS_stage, 2, 0), (F.THM_STATUS_tj, tj, 0)]
        s.rd F.THM_STATUS_stage = 2 ∧ s.tj = (tj : Nat))
    ∧ (let s := regs [(F.THM_STATUS_stage, 3, 0), (F.THM_STATUS_tj, 1000, 0), (F.THM_STATUS_level, 5, 0)]
       s.rd F.THM_STATUS_stage = 3 ∧ 1000 ≤ s.tj ∧ s.rd F.THM_STATUS_level < 6)
    ∧ (let s := regs [(F.THM_STATUS_stage, 3, 0), (F.THM_STATUS_tj, 949, 0)]
       s.rd F.THM_STATUS_stage = 3 ∧ s.tj < 950)
    ∧ (let s := awake fun x => { x with class0 := [.shed 0 1, .shed 1 6, .beat 1 4] }
       1 < s.sys.shed.length ∧ s.class0To 1 = some (.shed 1 6)) := by decide +kernel

theorem test_witness_Ageing :
    (∀ tj ∈ [400, 900], let s := awake id [(F.THM_STATUS_tj, tj, 0), (F.GLB_PACE_STATUS_counted_w, 8, 0), (F.GLB_PACE_STATUS_counted_e, 8, 0)]
        s.sys.daily = [none, none] ∧ (s.keeper 1).up = true ∧ 400 ≤ s.tj ∧ s.tj ≤ 900
        ∧ 8 ≤ (if 1 = 0 then s.rd F.GLB_PACE_STATUS_counted_w else s.rd F.GLB_PACE_STATUS_counted_e))
    ∧ (∀ n ∈ [22, 23], let s := awake fun x => { x with tries := [0, n] }
        1 < s.sys.tries.length ∧ (s.keeper 1).up = true ∧ s.sys.tries.getD 1 0 = n)
    ∧ (let s := awake (fun x => { x with lower := true }) [(F.AGE_PLAN_plan_mv, 700, 0), (F.AGE_VNOW_mv, 720, 0)]
       s.sys.lower = true ∧ s.anyTakeOpen = false ∧ s.voltWanted < s.voltAsked)
    ∧ (let s := regs [(F.AGE_VNOW_boost, 1, 0)]
       s.on F.AGE_VNOW_boost = true ∧ s.openEasels = [])
    ∧ (awake fun x => { x with asked := some 820 }).sys.asked = some 820
    ∧ (let s := awake (fun x => { x with avsWait := [3] }) [(F.EASEL_STATUS_state, 3, 3)]
       s.sys.avsWait.contains 3 = true ∧ s.planPending = false ∧ s.rd F.EASEL_STATUS_state 3 = 3)
    ∧ (∀ st ∈ [FrameState.opened, .dry], let s := withFrame State.reset { frame5 with st := st }
        s.frame 0 5 = some { frame5 with st := st } ∧ st ≠ .scraped ∧ frame5.deadline = false ∧ s.onTime 0 { frame5 with st := st } = false) := by
  decide +kernel

theorem test_witness_HeatAndAgeing_waits :
    let s := awake (fun x => { x with avsWait := [3] }) [(F.HBM_PLAN_COMMIT_pending, 1, 0)]
    s.sys.avsWait.contains 3 = true ∧ s.planPending = true := by decide +kernel

/-! ### Witnesses: sessions and firmware -/

def words (f : Fld) (l : List Nat) : List (Fld × Nat × Nat) := (List.range l.length).map fun k => (f, l.getD k 0, k)
/-- Ring 15 enabled, with the answer of the zero key to the nonce of 32 ones for ring 15 and role 2. -/
def answering (f : SecSt → SecSt) : State :=
  (regs ((F.RING_SQ_CFG_enable, 1, 15) :: words F.SES_MAC_value
    [3676363763, 2605766484, 2501812120, 3671296438, 3680393871, 2186229121, 1525347848, 199677291])).updSec f
def nonced (x : SecSt) : SecSt := { x with nonce := some (List.replicate 32 1, 15, 2) }

theorem test_witness_Sessions :
    (∀ n ∈ [0, 5], let s := answering fun x => { x with fails := [0, n, 0] }
      b2n (bitOf 0x12F 8) + b2n (bitOf 0x12F 9) + b2n (bitOf 0x12F 10) ≤ 1 ∧ s.on F.RING_SQ_CFG_enable (0x12F % 16) = true
        ∧ s.rd F.RING_SQ_STATUS_role (0x12F % 16) = 0 ∧ bitsOf 0x12F 5 4 = 2 ∧ (s.sessionKey 2).isSome = true
        ∧ lockSeconds (s.sec.fails.getD (2 - 1) 0) = n / 5 ∧ s.on F.SES_STATUS_rng_fail = false)
    ∧ (let s := answering nonced
       b2n (bitOf 0x22F 8) + b2n (bitOf 0x22F 9) + b2n (bitOf 0x22F 10) ≤ 1 ∧ s.sec.nonce = some (List.replicate 32 1, 15, 2) ∧ 0x22F % 16 = 15
         ∧ bitsOf 0x22F 5 4 = 2 ∧ s.on F.RING_SQ_CFG_enable 15 = true ∧ s.rd F.RING_SQ_STATUS_role 15 = 0 ∧ s.sessionKey 2 = some zeroKey
         ∧ 0 < 2 ∧ 2 - 1 < s.sec.fails.length)
    ∧ (let s := regs [(F.RING_SQ_STATUS_state, 2, 15)]
       b2n (bitOf 0x40F 8) + b2n (bitOf 0x40F 9) + b2n (bitOf 0x40F 10) ≤ 1 ∧ s.rd F.RING_SQ_STATUS_state (0x40F % 16) = 2) := by decide +kernel

/-- The answer of the zero key, computed by hand from RFC 2104 and FIPS 180-4. -/
def mac : List Byte := be 32 0xF3DB20DB54D7509B989F1E95B689D3DA8F5A5EDB81354F8208F6EA5A6BD5E60B
theorem test_hmac_answer : hmac zeroKey (List.replicate 32 1 ++ le 1 15 ++ le 1 2) = mac := by decide +kernel
theorem test_witness_Sessions_Answer : (answering nonced).macBytes = mac ∧ mac ≠ (State.reset.updSec nonced).macBytes := by decide +kernel

/-- RFC 3394, section 4.6: the key encryption key, the wrapped key and the key. -/
def kek : List Byte := (List.range 32).map (BitVec.ofNat 8)
def wrapped : List Byte := be 40 0x28C9F404C4B810F4CBCCB35CFB87F8263F5786E2D80ED326CBC7F0E71A99F43BFB988B9B7A02DD21
def plain : List Byte := be 32 0x00112233445566778899AABBCCDDEEFF000102030405060708090A0B0C0D0E0F

/-- The first and the last of the 24 steps that unwrap it, from the registers that AES-256 in OpenSSL gives between them. -/
theorem test_unwrap_first_rfc3394 : unwrapStep kek 4 24 (wrapped.take 8, pieces 4 8 (wrapped.drop 8))
    = (be 8 0x0AEB82AE3146A90C, pieces 4 8 (be 32 0xCBCCB35CFB87F8263F5786E2D80ED326CBC7F0E71A99F43B07DFE775B9687E73)) := by decide +kernel
theorem test_unwrap_last_rfc3394 : unwrapStep kek 4 1 (be 8 0x794314D454E3FDE0, pieces 4 8 (be 32 0xF661BD9F31FBFA318899AABBCCDDEEFF000102030405060708090A0B0C0D0E0F))
    = (wrapStart, pieces 4 8 plain) := by decide +kernel
theorem test_keyUnwrap_without_a_key : keyUnwrap [] wrapped = none := by decide +kernel
theorem test_aes_fips197 : aesBlock kek (be 16 0x00112233445566778899AABBCCDDEEFF) = be 16 0x8EA2B7CA516745BFEAFC49904B496089 := by decide +kernel

def keyed (kind role keyId : Nat) : Cmd :=
  { cmdOf 0x40 [] with desc := List.replicate 16 (0 : Byte) ++ le 1 kind ++ le 1 role ++ le 2 0 ++ le 4 keyId ++ wrapped }

theorem test_witness_KeyCommands :
    (let s := withCmd State.reset (cmdOf 0x40 [])
     s.anyQuiet = false ∧ s.Waits 7 0x40 (cmdOf 0x40 []) ∧ keyFields (cmdOf 0x40 []) [1, 2, 3] = false ∧ (cmdOf 0x40 []).mute = false)
    ∧ (∀ key ∈ [kek, []], ∀ c ∈ [keyed 1 3 0, keyed 2 0 9], let s := withCmd (State.reset.updSec fun x => { x with roleKeys := [(2, key)] }) c
      s.Waits 7 0x40 c ∧ keyFields c [1, 2, 3] = true ∧ (s.sessionKey 2).getD zeroKey = key ∧ bytesAt c.desc 24 40 = wrapped
        ∧ (s.prodKeys.filter fun k => k.1 ≠ c.w 20).length < 16)
    ∧ (∀ k ∈ [1, 2], let c := cmdOf 0x41 [(16, k), (17, if k = 1 then 3 else 0), (20, if k = 1 then 0 else 9)]
      let s := withCmd State.reset c
      s.Waits 7 0x41 c ∧ keyFields c [1, 3] = true ∧ zeroBytes c.desc 24 64 = true ∧ c.b 16 = k)
    ∧ (let s := withCmd State.reset (cmdOf 0x42 [])
       s.Waits 7 0x42 (cmdOf 0x42 []) ∧ (cmdOf 0x42 []).d 24 % 64 = 0 ∧ zeroBytes (cmdOf 0x42 []).desc 16 24 = true
         ∧ zeroBytes (cmdOf 0x42 []).desc 32 64 = true) := by
  simp only [State.Waits]; decide +kernel

def fw (op : Nat) (l : List (Nat × Nat)) (stage : Stage := .ready) : Cmd := cmdOf op l stage
def others (s : State) : Bool :=
  s.outstanding.any fun o => decide (o.id < 7) && o.stage != .ended && (o.opcode == 0x44 || o.opcode == 0x45 || o.opcode == 0x46 || o.opcode == 0x49)
/-- The header of an image of 64 body bytes, cut short behind its body length. -/
def image : List Byte := padTo 8 [] ++ le 4 64 ++ List.replicate 8244 (0 : Byte)

theorem test_witness_Firmware :
    (let c := fw 0x44 [(32, 0x40), (33, 0x20)]
     let s := withCmd State.reset c
     s.anyQuiet = false ∧ others s = false ∧ s.Waits 7 0x44 c ∧ zeroBytes c.desc 16 24 = true ∧ c.d 24 % 64 = 0 ∧ c.w 32 % 64 = 0 ∧ 8256 ≤ c.w 32
       ∧ c.w 32 ≤ 25165824 ∧ zeroBytes c.desc 36 64 = true ∧ s.on F.FW_STATUS_trial = false
       ∧ 8192 + imageBody (image.take (c.w 32)) = (image.take (c.w 32)).length)
    ∧ (∀ st ∈ [0, 1], let s := withCmd (regs [(F.FW_STATUS_staged, st, 0)]) (fw 0x45 [])
      s.anyQuiet = false ∧ others s = false ∧ s.Waits 7 0x45 (fw 0x45 []) ∧ (fw 0x45 []).h 16 ≤ 60000 ∧ zeroBytes (fw 0x45 []).desc 18 64 = true
        ∧ s.on F.FW_STATUS_staged = decide (st = 1))
    ∧ (let s := withCmd (regs [(F.FW_STATUS_trial, 1, 0)]) (fw 0x46 [])
       others s = false ∧ s.Waits 7 0x46 (fw 0x46 []) ∧ zeroBytes (fw 0x46 []).desc 16 64 = true ∧ s.rd F.FW_STATUS_trial = 1)
    ∧ (let c := fw 0x49 [(32, 64)]
       let s := withCmd State.reset c
       others s = false ∧ s.Waits 7 0x49 c ∧ zeroBytes c.desc 16 24 = true ∧ 64 ≤ c.w 32 ∧ c.w 32 ≤ 4190208 ∧ zeroBytes c.desc 36 64 = true)
    ∧ (let s := withCmd State.reset (fw 0x45 [] .running)
       s.activation = some (fw 0x45 [] .running) ∧ s.cmd 7 = some (fw 0x45 [] .running) ∧ s.drained 7 = true ∧ (fw 0x45 []).past = false)
    ∧ (let s := withCmd State.reset (fw 0x48 [(16, 11)])
       s.Waits 7 0x48 (fw 0x48 [(16, 11)]) ∧ (fw 0x48 [(16, 11)]).b 16 ≤ 11 ∧ zeroBytes (fw 0x48 [(16, 11)]).desc 17 20 = true
         ∧ (fw 0x48 [(16, 11)]).w 40 % 256 = 0 ∧ zeroBytes (fw 0x48 [(16, 11)]).desc 44 64 = true)
    ∧ (let s := regs [(F.PWR_STATE_released, 3, 0)]
       s.rd F.FW_STATUS_state = 0 ∧ s.released 0 = true ∧ s.released 1 = true ∧ s.bootRecord = none) := by
  simp only [State.Waits]; decide +kernel

def rec9 : LedgerRec := { seq := 0, kind := 4, key := 0, vals := [] }

theorem test_witness_DeviceLedger :
    (let s := { awake id with ledgerWait := [rec9] }
     s.ledgerWait.find? (fun r => !s.norHeld r) = some rec9 ∧ s.norOpen = true)
    ∧ (let s := (awake id).updSec fun x => { x with areas := [List.replicate 61 [some 4], List.replicate 60 [some 4]] }
       s.norOpen = true ∧ (s.sec.areas.all fun l => decide (l.length ≤ 60)) = false) := by decide +kernel

theorem test_witness_boot_whole :
    (regs [(F.PWR_STATE_released, 3, 0)]).rd F.FW_STATUS_state = 0 ∧ (regs [(F.PWR_STATE_released, 3, 0)]).released (b2n Config.leadSel) = true := by
  refine ⟨by decide +kernel, ?_⟩
  have h : ∀ b, (regs [(F.PWR_STATE_released, 3, 0)]).released (b2n b) = true := by decide +kernel
  exact h _

end Sys2Proof.Tests
end

section
/-! PROOFS. Stall chains (spec/02, R44 to R52): when a waiting write and a waiting read settle, and the statements about writes, reads,
releases, marks and rewinds. -/
namespace Sys2Proof.Machine

/-! ### Settling the waiting read -/

theorem ChainSt.settleRead_of_idle {k : Nat} {c : ChainSt} (h : c.waitRead = false) : c.settleRead k = c := by
  simp [ChainSt.settleRead, h]

theorem ChainSt.settleRead_of_not_readable {k : Nat} {c : ChainSt} (h : c.readable k = false) : c.settleRead k = c := by
  simp [ChainSt.settleRead, h]

/-- The read that settles returns the item at the read position, and passes it if it is no abort item (R46, R51). -/
theorem ChainSt.settleRead_of_readable {k : Nat} {c : ChainSt} {x : ChainItem} (hw : c.waitRead = true) (hr : c.readable k = true)
    (hx : c.items[c.pos]? = some x) :
    c.settleRead k = { c with got := some x, pos := c.pos + (if x.abort then 0 else 1), waitRead := false } := by
  simp [ChainSt.settleRead, hw, hr, hx]

@[simp] theorem ChainSt.settleRead_mark (k : Nat) (c : ChainSt) : (c.settleRead k).mark = c.mark := by
  unfold ChainSt.settleRead; split <;> rfl

theorem ChainSt.readable_eq_false_of_length_le {k : Nat} {c : ChainSt} (h : c.items.length ≤ c.pos) : c.readable k = false := by
  simp [ChainSt.readable, List.drop_eq_nil_of_le h]

/-- An item that starts no packet needs no threshold (R50). -/
theorem ChainSt.readable_of_not_first {k : Nat} {c : ChainSt} {x : ChainItem} {xs : List ChainItem} (h : c.items.drop c.pos = x :: xs)
    (hf : x.first = false) : c.readable k = true := by
  simp [ChainSt.readable, h, hf]

/-! ### Settling the waiting write -/

theorem ChainSt.arrive_of_not_abort {c : ChainSt} {x : ChainItem} (h : x.abort = false) :
    c.arrive x = { c with items := c.items ++ [x] } := by
  simp [ChainSt.arrive, h]

/-- The chain with an item queued behind the newest and no write waiting. -/
def ChainSt.queued (c : ChainSt) (x : ChainItem) : ChainSt := { c with items := c.items ++ [x], waitWrite := none }

@[simp] theorem ChainSt.arrive_mark (c : ChainSt) (x : ChainItem) : (c.arrive x).mark = c.mark := by
  unfold ChainSt.arrive; dsimp only; split <;> rfl

theorem ChainSt.settleWrite_of_none {k : Nat} {c : ChainSt} (h : c.waitWrite = none) : c.settleWrite k = c := by
  simp [ChainSt.settleWrite, h]

theorem ChainSt.settleWrite_of_full {k : Nat} {c : ChainSt} (h : chainDepth k ≤ c.items.length) : c.settleWrite k = c := by
  unfold ChainSt.settleWrite
  split
  · exact if_neg (Nat.not_lt.mpr h)
  · rfl

/-- With a free stage the waiting item queues behind the newest (R45). -/
theorem ChainSt.settleWrite_of_free {k : Nat} {c : ChainSt} {x : ChainItem} (hw : c.waitWrite = some x) (hx : x.abort = false)
    (hl : c.items.length < chainDepth k) : c.settleWrite k = c.queued x := by
  simp [ChainSt.settleWrite, ChainSt.queued, hw, hl, ChainSt.arrive_of_not_abort hx]

@[simp] theorem ChainSt.settleWrite_mark (k : Nat) (c : ChainSt) : (c.settleWrite k).mark = c.mark := by
  unfold ChainSt.settleWrite
  split
  · split
    · exact ChainSt.arrive_mark ..
    · rfl
  · rfl

/-! ### The commands -/

/-- The item completes its packet within the chain's depth, or leaves room for the rest of it (R49). -/
def ChainSt.Fits (k : Nat) (c : ChainSt) (x : ChainItem) : Prop :=
  x.last = true ∧ c.place x ≤ chainDepth k ∨ c.place x < chainDepth k

theorem ChainSt.Fits.place_le {k : Nat} {c : ChainSt} {x : ChainItem} (h : c.Fits k x) : c.place x ≤ chainDepth k :=
  h.elim And.right Nat.le_of_lt

theorem ChainSt.Fits.carried_eq {k : Nat} {c : ChainSt} {x : ChainItem} (h : c.Fits k x) : c.carried k x = x := by
  rcases h with ⟨hlast, -⟩ | hlt
  · simp [ChainSt.carried, hlast]
  · simp [ChainSt.carried, Nat.ne_of_lt hlt]

/-- The chain once a write of an item has been asked for: the packet it belongs to is counted on, and the item waits for a stage. -/
def ChainSt.offered (c : ChainSt) (x : ChainItem) : ChainSt :=
  { c with run := c.place x, inPacket := decide (0 < c.place x) && !x.last, waitWrite := some x }

/-- A write of an item that fits offers it to the chain and settles the chain (R45, R46). -/
theorem exec_chainWrite_of_fits {k : Nat} {x : ChainItem} {s : State} (hw : (s.chain k).waitWrite = none) (hx : x.abort = false)
    (hfit : (s.chain k).Fits k x) :
    exec (.chainWrite k x) s = .next (s.setChain k ((((s.chain k).offered x).settleWrite k).settleRead k)) := by
  change execChainWrite k x s = _
  simp [execChainWrite, hw, hx, Nat.not_lt.mpr hfit.place_le, hfit.carried_eq, ChainSt.offered]

/-- A write of an item that fits, on a chain with a free stage: the item is in the chain before the waiting read settles. -/
theorem exec_chainWrite_of_free {k : Nat} {x : ChainItem} {s : State} (hw : (s.chain k).waitWrite = none) (hx : x.abort = false)
    (hfit : (s.chain k).Fits k x) (hl : (s.chain k).items.length < chainDepth k) :
    exec (.chainWrite k x) s = .next (s.setChain k ((((s.chain k).offered x).queued x).settleRead k)) := by
  rw [exec_chainWrite_of_fits hw hx hfit, ChainSt.settleWrite_of_free (c := (s.chain k).offered x) rfl hx hl]

/-- The chain with the items before the read position freed and the mark cleared (R47, R48). -/
def ChainSt.freed (c : ChainSt) : ChainSt := { c with items := c.items.drop c.pos, pos := 0, mark := none }

theorem exec_chainRelease (k : Nat) (s : State) :
    exec (.chainRelease k) s = .next (s.setChain k (((s.chain k).freed.settleWrite k).settleRead k)) := rfl

theorem exec_chainRead (k : Nat) (s : State) :
    exec (.chainRead k) s = .next (s.setChain k ({ s.chain k with waitRead := true }.settleRead k)) := rfl

/-- A release that frees at least one stage of a full chain leaves one free. -/
theorem ChainSt.length_freed_lt {k : Nat} {c : ChainSt} (hl : c.items.length = chainDepth k) (hp : 0 < c.pos) :
    c.freed.items.length < chainDepth k := by
  have hd : 0 < chainDepth k := Nat.succ_pos _
  simp only [ChainSt.freed, List.length_drop]
  omega

/-! ### The statements -/

/-- Settles O9: the item that was offered settles into a free stage, on a full chain it stays waiting, and a release settles it. -/
theorem chainWriteLosesNoItem : Obligations.ChainWriteLosesNoItem := by
  intro k x s hread hx hfit
  refine ⟨fun hw hl => ?_, fun hw hl => ?_, fun hw hl hp => ⟨_, exec_chainRelease k s, ?_⟩⟩
  · rw [exec_chainWrite_of_free hw hx hfit hl, ChainSt.settleRead_of_idle (c := ((s.chain k).offered x).queued x) hread]
    simp only [ChainSt.offered, ChainSt.queued, hw]
  · rw [exec_chainWrite_of_fits hw hx hfit, ChainSt.settleWrite_of_full (c := (s.chain k).offered x) hl,
      ChainSt.settleRead_of_idle (c := (s.chain k).offered x) hread]
    rfl
  · simp only [State.chain_setChain_self]
    rw [ChainSt.settleWrite_of_free (c := (s.chain k).freed) hw hx (ChainSt.length_freed_lt hl hp),
      ChainSt.settleRead_of_idle (c := (s.chain k).freed.queued x) hread]
    exact ⟨rfl, rfl⟩

/-- Settles O10: each clause is the settling of the waiting read, at once, not yet, with the write that brings its item, or not asked. -/
theorem chainReadLeavesItsStage : Obligations.ChainReadLeavesItsStage := by
  intro k x s
  refine ⟨fun hr hx => ?_, fun hl => ?_, fun hread hw hl hp hf hx hplace => ?_, fun hw hread => ?_⟩
  · rw [exec_chainRead, ChainSt.settleRead_of_readable (c := { s.chain k with waitRead := true }) rfl hr hx]
  · rw [exec_chainRead, ChainSt.settleRead_of_not_readable]
    exact ChainSt.readable_eq_false_of_length_le hl
  · refine ⟨_, exec_chainWrite_of_free hw hx (.inr hplace) hl, ?_⟩
    have hnext : ((s.chain k).items ++ [x]).drop (s.chain k).pos = [x] := by rw [hp, List.drop_left]
    have hitem : ((s.chain k).items ++ [x])[(s.chain k).pos]? = some x := by rw [hp, List.getElem?_concat_length]
    simp only [State.chain_setChain_self]
    rw [ChainSt.settleRead_of_readable (c := ((s.chain k).offered x).queued x) hread (ChainSt.readable_of_not_first hnext hf) hitem]
    exact ⟨rfl, rfl, rfl⟩
  · rw [exec_chainRelease, ChainSt.settleWrite_of_none (c := (s.chain k).freed) hw,
      ChainSt.settleRead_of_idle (c := (s.chain k).freed) hread]
    rfl

/-- Settles O11: a release clears the mark, and neither settling sets one. -/
theorem chainMarkAndRewind : Obligations.ChainMarkAndRewind := by
  intro k s
  refine ⟨rfl, rfl, _, exec_chainRelease k s, ?_⟩
  simp only [State.chain_setChain_self, ChainSt.settleRead_mark, ChainSt.settleWrite_mark]
  rfl

end Sys2Proof.Machine
end

section
/-! PROOFS. Registers of the GLB block (spec/20, R639 to R648): what a flag with its companion count reads, the access that is not a
single aligned one, and the statements about GLB_EV_TEST and bad accesses. -/
namespace Sys2Proof.Machine

/-! ### A flag with its companion count -/

/-- The flag reads 1, cut to its width: counting at another place leaves it set (R10). -/
theorem State.rd_flagCount_flag (s : State) (flag cnt : Fld) (i : Nat) (h : ¬ (flag.base = cnt.base ∧ flag.lo = cnt.lo)) :
    (s.flagCount flag cnt i).rd flag i = 1 % 2 ^ flag.width := by
  rw [State.flagCount, State.rd_bump_ne _ _ _ _ _ _ _ _ fun e => h ⟨e.1, e.2.1⟩, State.rd_wr_self]

/-- The count is one higher, or at its maximum: setting a flag at another place leaves what it counts on from (R9, R10). -/
theorem State.rd_flagCount_count (s : State) (flag cnt : Fld) (i : Nat) (h : ¬ (cnt.base = flag.base ∧ cnt.lo = flag.lo)) :
    (s.flagCount flag cnt i).rd cnt i = min (2 ^ cnt.width - 1) (s.rd cnt i + 1) := by
  rw [State.flagCount, State.rd_bump_self, State.rd_wr_ne _ _ _ _ _ _ _ _ fun e => h ⟨e.1, e.2.1⟩]

@[simp] theorem State.flagCount_out (s : State) (flag cnt : Fld) (i : Nat) : (s.flagCount flag cnt i).out = s.out := by
  simp [State.flagCount]

/-! ### The bad access -/

@[simp] theorem State.badAccess_out (s : State) : s.badAccess.out = s.out := State.flagCount_out ..

@[simp] theorem State.rd_badAccess_flag (s : State) : s.badAccess.rd F.GLB_FLAGS_bad_access = 1 :=
  State.rd_flagCount_flag s F.GLB_FLAGS_bad_access F.GLB_CNT_bad_access 0 (by decide)

@[simp] theorem State.rd_badAccess_count (s : State) :
    s.badAccess.rd F.GLB_CNT_bad_access = min (2 ^ F.GLB_CNT_bad_access.width - 1) (s.rd F.GLB_CNT_bad_access + 1) :=
  State.rd_flagCount_count s F.GLB_FLAGS_bad_access F.GLB_CNT_bad_access 0 (by decide)

theorem State.only_badAccess (s : State) : s.Only s.badAccess [(F.GLB_FLAGS_bad_access, 0), (F.GLB_CNT_bad_access, 0)] :=
  (State.Only.refl s _).flagCount _ _ 0 (by simp) (by simp)

/-- An access of another size or alignment only counts; a read shows ones beside that (R640). -/
theorem exec_badAccess_of_misaligned {read : Bool} {off size : Nat} {s : State} (h : size ≠ 4 ∨ off % 4 ≠ 0) :
    exec (.badAccess read off size) s =
      .next (if read then s.badAccess.emit (.readData off (2 ^ (8 * size) - 1)) else s.badAccess) :=
  if_pos h

/-! ### The statements -/

/-- Settles O36: the command raises the event and does nothing else. -/
theorem eventTestWrite : Obligations.EventTestWrite := by
  intro v s
  exact ⟨_, rfl, s.raise_awake 0 Ev.GLB_TEST (le 4 v), (State.Only.refl s _).raise 0 Ev.GLB_TEST (le 4 v) fun _ hx => hx⟩

/-- Settles O37: a write is the counted bad access alone, and a read shows its ones beside it, which touches no field. -/
theorem badAccessesAreCounted : Obligations.BadAccessesAreCounted := by
  intro read off size s h
  refine ⟨_, exec_badAccess_of_misaligned h, ?_⟩
  cases read with
  | false => exact ⟨s.rd_badAccess_flag, s.rd_badAccess_count, s.badAccess_out, s.only_badAccess⟩
  | true => exact ⟨s.rd_badAccess_flag, s.rd_badAccess_count, congrArg (_ :: ·) s.badAccess_out, s.only_badAccess.same⟩

end Sys2Proof.Machine
end

section
/-! PROOFS. Framed properties: a property of a state that no write of a field outside the registers of sessions, power and reset, heat and
authority can end, and no change beside the registers, HBM and the part's own state, is kept by every function of the model that makes only
such changes. Proved once for any such property, in the order of the model's files. -/
namespace Sys2Proof.Machine

set_option Elab.async false

/-- A field of the registers of sessions and firmware, power and reset, heat and ageing, or authority (the register map's chapters 17 to 19). -/
abbrev Fld.Central (f : Fld) : Prop := f.base / 0x100000 ∈ [3, 4, 5, 20]

/-- A property that the changes of the other registers and of the rest of the state cannot end. -/
structure State.Framed (P : State → Prop) : Prop where
  wr : ∀ {s : State}, P s → ∀ (f : Fld) (v i j : Nat), (hf : ¬ f.Central := by decide) → P (s.wr f v i j)
  emit : ∀ {s : State}, P s → ∀ e : Emit, P (s.emit e)
  tick : ∀ {s : State}, P s → P s.tick
  same : ∀ {s t : State}, P s → (h1 : t.pending = s.pending := by rfl) → (h2 : t.out = s.out := by rfl) → (h3 : t.fresh = s.fresh := by rfl) →
    (h4 : t.mem = s.mem := by rfl) → (h5 : t.cfg = s.cfg := by rfl) → (h6 : t.sts = s.sts := by rfl) → (h7 : t.latch = s.latch := by rfl) →
    (h8 : t.sys = s.sys := by rfl) → (h9 : t.sec = s.sec := by rfl) → P t

section
variable {P : State → Prop} (fr : State.Framed P)
include fr

/-! ### The shared operations -/

omit fr in
theorem State.Framed.ite {s t : State} {c : Prop} [Decidable c] (_ : State.Framed P) (hs : P s) (ht : P t) : P (if c then s else t) := by
  split
  · exact hs
  · exact ht

theorem State.Framed.updHost {s : State} (h : P s) (f : HostSt → HostSt) : P (s.updHost f) := fr.same h

theorem State.Framed.setClock {s : State} (h : P s) (n : Nat) : P (s.setClock n) := fr.same h

theorem State.Framed.ledgerAdd {s : State} (h : P s) (a y : Nat) (v : List Nat) : P (s.ledgerAdd a y v) := fr.same h

omit fr in
theorem State.Framed.foldl {α : Type} {s : State} (_ : State.Framed P) (h : P s) (f : State → α → State) (l : List α)
    (hf : ∀ t a, P t → P (f t a)) : P (l.foldl f s) := by
  induction l generalizing s with
  | nil => exact h
  | cons a l ih => exact ih (hf _ _ h)

theorem State.Framed.each {α : Type} {s : State} (h : P s) (l : List α) (f : State → α → State) (hf : ∀ t a, P t → P (f t a)) : P (s.each l f) :=
  fr.foldl h f l hf

omit fr in
theorem State.Framed.whenB {s : State} (_ : State.Framed P) (h : P s) (b : Bool) (f : State → State) (hf : ∀ t, P t → P (f t)) :
    P (s.whenB b f) := by
  cases b
  · exact h
  · exact hf s h

theorem State.Framed.bump {s : State} (h : P s) (f : Fld) (i j n : Nat) (hf : ¬ f.Central := by decide) : P (s.bump f i j n) := fr.wr h _ _ _ _ hf

theorem State.Framed.peak {s : State} (h : P s) (f : Fld) (v i : Nat) (hf : ¬ f.Central := by decide) : P (s.peak f v i) := fr.wr h _ _ _ _ hf

theorem State.Framed.flagCount {s : State} (h : P s) (a b : Fld) (i : Nat) (ha : ¬ a.Central := by decide) (hb : ¬ b.Central := by decide) :
    P (s.flagCount a b i) := fr.bump (fr.wr h _ _ _ _ ha) _ _ _ _ hb

theorem State.Framed.dropRecord {s : State} (h : P s) : P s.dropRecord := fr.updHost (fr.bump (fr.wr h ..) ..) _

theorem State.Framed.raise {s : State} (h : P s) (half code : Nat) (p : List Byte) : P (s.raise half code p) := by
  obtain ⟨r, -, e⟩ := s.raise_eq half code p
  rw [e]
  split
  · exact fr.dropRecord (fr.tick (fr.wr h ..))
  · exact fr.updHost (fr.tick (fr.wr h ..)) _

theorem State.Framed.post {s : State} (h : P s) (r : Rec) : P (s.post r) := by
  obtain ⟨t, r', ht, -, -, e⟩ := s.post_eq r
  have hk : P t := by
    rcases ht with rfl | rfl
    · exact h
    · exact fr.tick h
  rw [e]
  split
  · exact fr.dropRecord hk
  · exact fr.updHost hk _

theorem State.Framed.postUnsolicited {s : State} (h : P s) (half cq producer status a b : Nat) : P (s.postUnsolicited half cq producer status a b) :=
  fr.post h _

theorem State.Framed.updCmd {s : State} (h : P s) (id : Nat) (f : Cmd → Cmd) : P (s.updCmd id f) := fr.same h

theorem State.Framed.dropCmd {s : State} (h : P s) (id : Nat) : P (s.dropCmd id) := by
  unfold State.dropCmd State.countOutstanding
  exact fr.peak (fr.wr (fr.updHost h _) ..) ..

theorem State.Framed.complete {s : State} (h : P s) (id status a b half : Nat) : P (s.complete id status a b half) := by
  unfold State.complete
  split
  · exact h
  · exact fr.ite h (fr.ite (fr.ite (fr.updCmd h ..) (fr.dropCmd h id)) (fr.post (fr.updCmd h ..) _))

/-! ### What the functions of Machine/Link.lean keep under every frame. Their subject: The Barosh sensor link
(spec/03): lanes, deskew, the group state machine, the back-channel and test patterns. -/

theorem State.Framed.updGroup {s : State} (h : P s) (g : Nat) (f : GroupSt → GroupSt) : P (s.updGroup g f) :=
  fr.same h

theorem State.Framed.setGrp {s : State} (h : P s) (g v : Nat) : P (s.setGrp g v) :=
  fr.wr h ..

theorem State.Framed.updEasel {s : State} (h : P s) (e : Nat) (f : EaselSt → EaselSt) : P (s.updEasel e f) :=
  fr.same h

theorem State.Framed.intakeFree {s : State} (h : P s) (half n : Nat) : P (s.intakeFree half n) :=
  fr.same h

theorem State.Framed.stripeCut {s : State} (h : P s) (e : Nat) : P (s.stripeCut e) :=
  fr.ite (fr.each (fr.whenB (fr.updEasel (fr.intakeFree
    (fr.intakeFree h ..) ..) ..) _ _ fun _ ht => fr.each
    (fr.bump ht ..) _ _ fun _ _ hu => fr.bump hu ..) _ _ fun _ _ ht => fr.updGroup ht ..) h

theorem State.Framed.groupCut {s : State} (h : P s) (g : Nat) : P (s.groupCut g) :=
  fr.whenB h _ _ fun _ ht => fr.stripeCut ht _

theorem State.Framed.bcAwake {s : State} (h : P s) (g : Nat) : P (s.bcAwake g) :=
  fr.ite h (fr.emit (fr.wr h ..) _)

theorem State.Framed.bcSend {s : State} (h : P s) (g code tag addr data : Nat) : P (s.bcSend g code tag addr data) :=
  fr.emit (fr.bcAwake h _) _

theorem State.Framed.groupOff {s : State} (h : P s) (g : Nat) : P (s.groupOff g) :=
  fr.updGroup (fr.wr (fr.wr (fr.wr (fr.setGrp
    (fr.whenB h _ _ fun _ ht => fr.wr (fr.wr ht ..) ..) ..) ..) ..) ..) ..

theorem State.Framed.groupStart {s : State} (h : P s) (g : Nat) : P (s.groupStart g) :=
  fr.ite (fr.wr (fr.setGrp h ..) ..) h

/-! ### What the functions of Machine/Cond.lean keep under every frame. Their subject: Raw conditioning
(spec/05): fusion, black level, defects, column pattern, shading and output of one row, and the black unit. -/

theorem State.Framed.updCond {s : State} (h : P s) (e : Nat) (f : CondSt → CondSt) : P (s.updCond e f) :=
  fr.same h

theorem State.Framed.condClosed {s : State} (h : P s) (e : Nat) : P (s.condClosed e) :=
  fr.updCond (fr.each h _ _ fun _ _ ht => fr.complete ht ..) ..

/-! ### What the functions of Machine/ViewSets.lean keep under every frame. Their subject: The views' sets and their picture rings
(spec/06, R219, R222, R225). -/

theorem State.Framed.updView {s : State} (h : P s) (v : Nat) (f : ViewSt → ViewSt) : P (s.updView v f) :=
  fr.same h

theorem State.Framed.viewSlots {s : State} (h : P s) (v : Nat) : P (s.viewSlots v) :=
  fr.wr (fr.wr h ..) ..

theorem State.Framed.viewApply {s : State} (h : P s) (v : Nat) (r : RegStore) : P (s.viewApply v r) :=
  fr.viewSlots (fr.wr (fr.wr (fr.updView h ..) ..) ..) _

theorem State.Framed.viewsClosed {s : State} (h : P s) (e : Nat) : P (s.viewsClosed e) := by
  unfold State.viewsClosed
  refine fr.each h _ _ ?_
  intro t _ ht
  split
  · exact fr.ite (fr.viewApply ht ..) ht
  · exact ht

/-! ### What the functions of Machine/Easel.lean keep under every frame. Their subject: Easels, exposure tickets and the frame tracker (spec/04). -/

theorem State.Framed.updFrame {s : State} (h : P s) (e serial : Nat) (f : Frame → Frame) : P (s.updFrame e serial f) :=
  fr.updEasel h ..

theorem State.Framed.frameStatus {s : State} (h : P s) (e : Nat) : P (s.frameStatus e) :=
  fr.wr (fr.wr h ..) ..

theorem State.Framed.updBound {s : State} (h : P s) (e id : Nat) (f : Bound → Bound) : P (s.updBound e id f) :=
  fr.updEasel h ..

theorem State.Framed.ticketDone {s : State} (h : P s) (id ticket status spec1 : Nat) :
    P (s.ticketDone id ticket status spec1) :=
  fr.complete h ..

theorem State.Framed.ticketCheck {s : State} (h : P s) (e : Nat) : P (s.ticketCheck e) :=
  fr.updEasel (fr.each h _ _ fun _ _ ht => fr.ticketDone ht ..) ..

theorem State.Framed.ticketLate {s : State} (h : P s) (e id : Nat) : P (s.ticketLate e id) := by
  unfold State.ticketLate
  split
  · exact h
  · exact fr.updFrame (fr.updBound h ..) ..

theorem State.Framed.ticketFail {s : State} (h : P s) (e id : Nat) : P (s.ticketFail e id) :=
  fr.ticketCheck (fr.ticketLate (fr.updBound h ..) ..) _

theorem State.Framed.ticketSend {s : State} (h : P s) (e : Nat) : P (s.ticketSend e) := by
  unfold State.ticketSend
  refine fr.ite h ?_
  split
  · exact h
  · exact fr.each h _ _ fun _ _ ht => fr.ticketFail ht ..
  · exact fr.ite h (fr.ite (fr.each (fr.wr h ..) _ _ fun _ _ ht => fr.ticketFail ht ..)
      (fr.bcSend (fr.updGroup (fr.wr (fr.updBound h ..) ..) ..) ..))

theorem State.Framed.dropPending {s : State} (h : P s) (e : Nat) : P (s.dropPending e) := by
  unfold State.dropPending
  refine fr.updEasel (fr.each h _ _ ?_) ..
  intro t _ ht
  split
  · exact fr.ticketDone ht ..
  · exact ht

theorem State.Framed.ticketReply {s : State} (h : P s) (e id : Nat) (ok late : Bool) : P (s.ticketReply e id ok late) :=
  fr.ticketSend (fr.ticketCheck (fr.whenB (fr.ite (fr.updBound h ..)
    (fr.ticketLate (fr.updBound (fr.updBound h ..) ..) ..)) _ _ fun _ ht => fr.ticketLate ht ..) _) _

theorem State.Framed.groupDown {s : State} (h : P s) (g : Nat) : P (s.groupDown g) := by
  unfold State.groupDown
  extract_lets +onlyGivenNames _
  split
  · split
    · exact fr.ticketReply (fr.whenB (fr.groupOff h _) _ _ fun _ ht => fr.groupCut ht _) ..
    · exact fr.ticketSend (fr.whenB (fr.groupOff h _) _ _ fun _ ht => fr.groupCut ht _) _
  · exact fr.whenB (fr.groupOff h _) _ _ fun _ ht => fr.groupCut ht _

theorem State.Framed.easelClosed {s : State} (h : P s) (e : Nat) : P (s.easelClosed e) :=
  fr.ticketCheck (fr.updEasel (fr.viewsClosed (fr.dropPending (fr.condClosed
    (fr.wr (fr.wr h ..) ..) _) _) _) ..) _

theorem State.Framed.closeIfDone {s : State} (h : P s) (e : Nat) : P (s.closeIfDone e) :=
  fr.ite (fr.easelClosed h _) h

theorem State.Framed.settleTo {s : State} (h : P s) (e : Nat) (f : Frame) (st : FrameState) (fault : Nat) :
    P (s.settleTo e f st fault) := by
  unfold State.settleTo
  extract_lets t t1 t2 t3
  have ht1 : P t1 := by
    simp only [t1]
    split
    · exact fr.raise (fr.flagCount (fr.updFrame h ..) ..) ..
    · exact fr.raise (fr.flagCount (fr.updFrame h ..) ..) ..
    · exact fr.bump (fr.updFrame h ..) ..
  have ht2 : P t2 := fr.wr (fr.wr ht1 ..) ..
  exact fr.closeIfDone (fr.frameStatus (fr.same ht2) _) _

theorem State.Framed.scrapeAll {s : State} (h : P s) (e : Nat) : P (s.scrapeAll e) :=
  fr.each h _ _ fun _ _ ht => fr.settleTo ht ..

theorem State.Framed.bandsLost {s : State} (h : P s) (bands : List (Nat × Nat × Nat)) : P (s.bandsLost bands) :=
  fr.same h

theorem State.Framed.brushesDown {s : State} (h : P s) (half : Nat) : P (s.brushesDown half) :=
  fr.whenB h _ _ fun _ ht => fr.bandsLost ht _

/-! ### What the functions of Machine/Hbm.lean keep under every frame. Their subject: HBM stacks, the memory plan and the canvases (spec/08). -/

theorem State.Framed.updHbm {s : State} (h : P s) (f : HbmSt → HbmSt) : P (s.updHbm f) :=
  fr.same h

theorem State.Framed.hbmDrop {s : State} (h : P s) (k : Nat) : P (s.hbmDrop k) :=
  fr.updHbm h _

theorem State.Framed.updCanvas {s : State} (h : P s) (e : Nat) (f : CanvasSt → CanvasSt) : P (s.updCanvas e f) :=
  fr.updHbm h _

theorem State.Framed.canvasCount {s : State} (h : P s) (e : Nat) : P (s.canvasCount e) :=
  fr.wr h ..

theorem State.Framed.updSlot {s : State} (h : P s) (e k : Nat) (f : Slot → Slot) : P (s.updSlot e k f) :=
  fr.canvasCount (fr.updCanvas h ..) _

theorem State.Framed.canvasOpen {s : State} (h : P s) (e : Nat) : P (s.canvasOpen e) := by
  unfold State.canvasOpen
  extract_lets +onlyGivenNames _ _ _ _ _ _ _ s1
  have hs1 : P s1 := fr.canvasCount (fr.wr (fr.wr (fr.updCanvas h ..) ..) ..) _
  exact fr.ite (fr.raise hs1 ..) hs1

theorem State.Framed.slotCheck {s : State} (h : P s) (e k : Nat) : P (s.slotCheck e k) :=
  fr.updSlot h ..

theorem State.Framed.releaseHold {s : State} (h : P s) (e k part : Nat) (half : Holder) :
    P (s.releaseHold e k part half) :=
  fr.slotCheck (fr.updSlot h ..) ..

/-! ### What the functions of Machine/Calib.lean keep under every frame. Their subject: Conditioning commits, the black estimate, and calibration runs
(spec/05). -/

theorem State.Framed.setRuns {s : State} (h : P s) (kind target : Nat) (f : List CalRun → List CalRun) :
    P (s.setRuns kind target f) :=
  fr.ite (fr.updCond h ..) (fr.same h)

theorem State.Framed.updRun {s : State} (h : P s) (kind target : Nat) (f : CalRun → CalRun) :
    P (s.updRun kind target f) :=
  fr.setRuns h ..

theorem State.Framed.halfRunning {s : State} (h : P s) (kind target : Nat) : P (s.halfRunning kind target) :=
  fr.ite h (fr.wr h ..)

theorem State.Framed.calDue {s : State} (h : P s) (e kind : Nat) : P (s.calDue e kind) :=
  fr.ite h (fr.ite (fr.updRun h ..) (fr.setRuns h ..))

theorem State.Framed.calTakesClosed {s : State} (h : P s) : P s.calTakesClosed :=
  fr.ite h (fr.each h _ _ fun _ _ ht => fr.each
    (fr.updCond ht ..) _ _ fun _ _ hu => fr.calDue hu ..)

theorem State.Framed.condOpen {s : State} (h : P s) (e : Nat) : P (s.condOpen e) :=
  fr.each (fr.updCond h ..) _ _ fun _ _ ht => fr.calDue ht ..

/-! ### What the functions of Machine/Views.lean keep under every frame. Their subject: The colour units, the view scalers and the picture rings
(spec/06). -/

theorem State.Framed.updViewSlot {s : State} (h : P s) (v k : Nat) (f : ViewSlot → ViewSlot) : P (s.updViewSlot v k f) :=
  fr.updView h ..

theorem State.Framed.dropViewHold {s : State} (h : P s) (v k : Nat) (half : ViewHolder) : P (s.dropViewHold v k half) :=
  fr.updViewSlot h ..

/-! ### What the functions of Machine/Packer.lean keep under every frame. Their subject: The packer lanes, the lane rings, the decode units and the
ratio watch (spec/07). -/

theorem State.Framed.updPack {s : State} (h : P s) (half : Nat) (f : PackSt → PackSt) : P (s.updPack half f) :=
  fr.same h

theorem State.Framed.updPackLane {s : State} (h : P s) (half l : Nat) (f : PackLane → PackLane) :
    P (s.updPackLane half l f) :=
  fr.updPack h ..

theorem State.Framed.packStatus {s : State} (h : P s) (half : Nat) : P (s.packStatus half) :=
  fr.wr (fr.wr (fr.wr h ..) ..) ..

theorem State.Framed.packHold {s : State} (h : P s) (half e serial : Nat) : P (s.packHold half e serial) := by
  unfold State.packHold
  split
  · exact fr.ite (fr.releaseHold h ..) h
  · exact h

theorem State.Framed.releaseLane {s : State} (h : P s) (half l : Nat) : P (s.releaseLane half l) :=
  fr.wr (fr.updPackLane h ..) ..

theorem State.Framed.freeEntries {s : State} (h : P s) (half : Nat) (p : PackEntry → Bool) : P (s.freeEntries half p) :=
  fr.each (fr.updPack h ..) _ _ fun _ _ ht => fr.releaseLane ht ..

theorem State.Framed.packDrop {s : State} (h : P s) (e : Nat) (f : Frame) : P (s.packDrop e f) :=
  fr.each h _ _ fun _ _ ht => fr.ite (fr.updPack ht ..) (fr.packHold (fr.updPack ht ..) ..)

theorem State.Framed.packDiscard {s : State} (h : P s) (e serial : Nat) : P (s.packDiscard e serial) :=
  fr.each h _ _ fun _ _ ht => fr.freeEntries ht ..

theorem State.Framed.packReset {s : State} (h : P s) (half : Nat) : P (s.packReset half) :=
  fr.packStatus (fr.each (fr.wr (fr.updPack h ..) ..) _ _ fun _ _ ht => fr.wr
    (fr.wr ht ..) ..) _

/-! ### What the functions of Machine/Media.lean keep under every frame. Their subject: What stands on a magazine, byte by byte
(spec/10): headers, WIP records, ledger records, segments, and reads of codewords. -/

theorem State.Framed.updStor {s : State} (h : P s) (f : StoreSt → StoreSt) : P (s.updStor f) :=
  fr.same h

theorem State.Framed.updPort {s : State} (h : P s) (p : Nat) (f : PortSt → PortSt) : P (s.updPort p f) :=
  fr.updStor h _

theorem State.Framed.updLedger {s : State} (h : P s) (p : Nat) (f : LedgerSt → LedgerSt) : P (s.updLedger p f) :=
  fr.updPort h ..

theorem State.Framed.updTake {s : State} (h : P s) (e : Nat) (f : TakeSt → TakeSt) : P (s.updTake e f) :=
  fr.updStor h _

theorem State.Framed.setPort {s : State} (h : P s) (p v : Nat) : P (s.setPort p v) :=
  fr.wr h ..

/-! ### What the functions of Machine/Store.lean keep under every frame. Their subject: The reel tables, the reel ledger, and the life of a take
(spec/10, spec/12). -/

theorem State.Framed.ledgerPut {s : State} (h : P s) (p : Nat) (l : List LEntry) : P (s.ledgerPut p l) :=
  fr.updLedger h ..

theorem State.Framed.magHold {s : State} (h : P s) (e serial half : Nat) : P (s.magHold e serial half) := by
  unfold State.magHold
  extract_lets +onlyGivenNames _ _
  split
  · exact fr.ite (fr.releaseHold h ..) h
  · exact h

theorem State.Framed.elasticStatus {s : State} (h : P s) (half : Nat) : P (s.elasticStatus half) :=
  fr.peak (fr.wr h ..) ..

theorem State.Framed.freeElastic {s : State} (h : P s) (half addr : Nat) : P (s.freeElastic half addr) :=
  fr.elasticStatus (fr.updStor h _) _

theorem State.Framed.freeSource {s : State} (h : P s) (x : SegTask) : P (s.freeSource x) := by
  unfold State.freeSource
  split
  · exact fr.magHold h ..
  · exact fr.freeEntries h ..
  · exact fr.freeElastic h ..
  · exact h

theorem State.Framed.dropTakeFrame {s : State} (h : P s) (e serial : Nat) : P (s.dropTakeFrame e serial) := by
  unfold State.dropTakeFrame
  refine fr.updFrame ?_ ..
  split
  · refine fr.ite (fr.packDiscard (fr.packDrop ?_ ..) ..) ?_
    · split
      · exact fr.releaseHold (fr.releaseHold (fr.each (fr.updStor
          (fr.updTake h ..) _) _ _ fun _ _ ht => fr.freeSource ht _) ..) ..
      · exact fr.each (fr.updStor (fr.updTake h ..) _) _ _ fun _ _ ht => fr.freeSource ht _
    · split
      · exact fr.releaseHold (fr.releaseHold (fr.each (fr.updStor
          (fr.updTake h ..) _) _ _ fun _ _ ht => fr.freeSource ht _) ..) ..
      · exact fr.each (fr.updStor (fr.updTake h ..) _) _ _ fun _ _ ht => fr.freeSource ht _
  · split
    · exact fr.releaseHold (fr.releaseHold (fr.each (fr.updStor
        (fr.updTake h ..) _) _ _ fun _ _ ht => fr.freeSource ht _) ..) ..
    · exact fr.each (fr.updStor (fr.updTake h ..) _) _ _ fun _ _ ht => fr.freeSource ht _

theorem State.Framed.exposureOf {s : State} (h : P s) (p : Nat) : P (s.exposureOf p) :=
  fr.wr (fr.wr h ..) ..

theorem State.Framed.exposure {s : State} (h : P s) (p : Nat) : P (s.exposure p) :=
  fr.exposureOf (fr.exposureOf h _) _

theorem State.Framed.opsStatus {s : State} (h : P s) (p : Nat) : P (s.opsStatus p) :=
  fr.wr (fr.wr (fr.peak (fr.wr h ..) ..) ..) ..

theorem State.Framed.closeTake {s : State} (h : P s) (e status : Nat) : P (s.closeTake e status) :=
  fr.each (fr.updTake (fr.wr (fr.wr
    (fr.each h _ _ fun _ _ ht => fr.complete ht ..) ..) ..) ..) _ _ fun _ _ ht => fr.opsStatus ht _

theorem State.Framed.takeCheck {s : State} (h : P s) (e : Nat) : P (s.takeCheck e) := by
  unfold State.takeCheck
  extract_lets +onlyGivenNames t _ _ ending
  refine fr.ite h ?_
  clear_value ending
  split
  · exact fr.calTakesClosed (fr.ite (fr.each (fr.raise (fr.updTake (fr.wr
      (fr.wr
      (fr.each h _ _ fun _ _ ht => fr.ledgerPut ht ..) ..) ..) ..) ..) _ _ fun _ _ ht => fr.opsStatus ht _)
      (fr.closeTake (fr.raise (fr.updTake (fr.wr (fr.wr
      (fr.each h _ _ fun _ _ ht => fr.ledgerPut ht ..) ..) ..) ..) ..) ..))
  · exact fr.ite h (fr.ite (fr.each (fr.updTake h ..) _ _ fun _ _ ht => fr.updPort ht ..)
      (fr.updTake (fr.each h _ _ fun _ _ ht => fr.ledgerPut ht ..) ..))

theorem State.Framed.endTake {s : State} (h : P s) (e status code : Nat) (keep : TakeFrame → Bool) :
    P (s.endTake e status code keep) := by
  unfold State.endTake
  extract_lets +onlyGivenNames _ t
  refine fr.ite (fr.calTakesClosed (fr.each (fr.updTake (fr.wr
    (fr.each ?_ _ _ fun _ _ ht => fr.complete ht ..) ..) ..) _ _ fun _ _ ht => fr.opsStatus ht _))
    (fr.ite (fr.each (fr.takeCheck (fr.wr (fr.updTake (fr.each
    (fr.each h _ _ fun _ _ ht => fr.updLedger ht ..) _ _ fun _ _ ht => fr.dropTakeFrame ht ..) ..) ..) _) _ _
    fun _ _ ht => fr.exposure ht _) h)
  split
  · exact fr.complete h ..
  · exact h

theorem State.Framed.flushCheck {s : State} (h : P s) : P s.flushCheck := by
  unfold State.flushCheck
  exact fr.updStor (fr.each (fr.updStor h _) _ _ fun _ _ ht => fr.complete ht ..) _

/-! ### What the functions of Machine/Ledger.lean keep under every frame. Their subject: The reel ledger's groups and snapshots, and what a passed
group brings about (spec/10 R338 to R356). -/

theorem State.Framed.refill {s : State} (h : P s) (p : Nat) : P (s.refill p) :=
  fr.opsStatus (fr.updPort h ..) _

theorem State.Framed.sidePart {s : State} (h : P s) (id p status number : Nat) : P (s.sidePart id p status number) := by
  unfold State.sidePart
  extract_lets +onlyGivenNames _ t
  have ht : P t := fr.updStor h _
  split
  · exact fr.ite (fr.updStor (fr.complete ht ..) _) ht
  · exact ht

/-! ### What the functions of Machine/Reels.lean keep under every frame. Their subject: Mount and recovery, format and sanitise, the ends of die
operations, and spills (spec/09, spec/10). -/

theorem State.Framed.adminStatus {s : State} (h : P s) (p : Nat) : P (s.adminStatus p) := by
  unfold State.adminStatus
  split
  · exact fr.wr (fr.wr (fr.wr (fr.wr (fr.wr (fr.wr (fr.wr
      (fr.wr h ..) ..) ..) ..) ..) ..) ..) ..
  · exact fr.wr (fr.wr (fr.wr (fr.wr (fr.wr (fr.wr h ..) ..) ..) ..) ..) ..

theorem State.Framed.reelStatus {s : State} (h : P s) (p : Nat) : P (s.reelStatus p) := by
  unfold State.reelStatus
  split
  · exact fr.wr (fr.wr (fr.wr (fr.wr h ..) ..) ..) ..
  · exact fr.wr (fr.wr (fr.wr (fr.wr (fr.wr h ..) ..) ..) ..) ..

/-! ### What the functions of Machine/Mag.lean keep under every frame. Their subject: Magazine ports: presence, bring-up, power-fail warning and
removal (spec/09). -/

theorem State.Framed.pwrEn {s : State} (h : P s) (p : Nat) (v : Bool) : P (s.pwrEn p v) :=
  fr.emit (fr.wr h ..) _

theorem State.Framed.dropRead {s : State} (h : P s) (id : Nat) : P (s.dropRead id) :=
  fr.each (fr.updStor h _) _ _ fun _ _ ht => fr.refill (fr.updPort ht ..) _

theorem State.Framed.storStop {s : State} (h : P s) (c : Cmd) (status : Nat) : P (s.storStop c status) := by
  unfold State.storStop
  extract_lets +onlyGivenNames _
  refine fr.ite h (fr.ite ?_ (fr.ite (fr.dropRead h _) (fr.ite (fr.updStor
    (fr.each h _ _ fun _ _ ht => fr.updPort ht ..) _) (fr.ite (fr.updStor h _)
    (fr.ite ?_ h)))))
  · split
    · exact fr.endTake (fr.each h _ _ fun _ _ ht => fr.updPort ht ..) ..
    · exact h
  · split
    · exact fr.adminStatus (fr.setPort (fr.refill (fr.updPort h ..) _) ..) _
    · exact h

theorem State.Framed.endPortCmds {s : State} (h : P s) (p status : Nat) : P (s.endPortCmds p status) := by
  unfold State.endPortCmds
  extract_lets +onlyGivenNames _ _ s0 s1 s2 s3
  have hs0 : P s0 := fr.each h _ _ fun _ _ ht => fr.ite (fr.dropRead (fr.complete ht ..) _) ht
  have hs1 : P s1 := fr.foldl hs0 _ _ fun _ _ ht => fr.sidePart ht ..
  have hs2 : P s2 := by
    unfold s2
    split
    · split
      · exact fr.complete hs1 ..
      · exact hs1
    · exact hs1
  have hs3 : P s3 := by
    unfold s3
    split
    · exact fr.complete hs2 ..
    · exact hs2
  split
  · exact fr.complete hs3 ..
  · exact hs3

theorem State.Framed.clearPort {s : State} (h : P s) (p : Nat) (mag : Option Magazine) : P (s.clearPort p mag) :=
  fr.exposure (fr.adminStatus (fr.reelStatus (fr.opsStatus (fr.updPort
    (fr.each h _ _ fun _ _ ht => fr.freeSource ht _) ..) _) _) _) _

theorem State.Framed.endPortTakes {s : State} (h : P s) (p status code : Nat) : P (s.endPortTakes p status code) :=
  fr.each h _ _ fun _ _ ht => fr.endTake (fr.updTake ht ..) ..

theorem State.Framed.portOff {s : State} (h : P s) (p status code : Nat) (mag : Option Magazine) :
    P (s.portOff p status code mag) :=
  fr.flushCheck (fr.pwrEn (fr.setPort (fr.clearPort (fr.endPortCmds
    (fr.endPortTakes h ..) ..) ..) ..) ..)

theorem State.Framed.portPower {s : State} (h : P s) (p : Nat) : P (s.portPower p) :=
  fr.ite (fr.raise (fr.pwrEn (fr.setPort h ..) ..) ..) h

theorem State.Framed.portReset {s : State} (h : P s) (p status : Nat) : P (s.portReset p status) := by
  unfold State.portReset
  extract_lets +onlyGivenNames t
  have ht : P t := fr.each h _ _ fun _ _ ht => fr.ite (fr.complete ht ..) (fr.complete
    (fr.storStop ht ..) ..)
  exact fr.ite ht (fr.portOff ht ..)

/-! ### What the functions of Machine/Barrows.lean keep under every frame. Their subject: The barrows (spec/11 R400 to R410). -/

theorem State.Framed.updBarrow {s : State} (h : P s) (c : Nat) (f : BarrowSt → BarrowSt) : P (s.updBarrow c f) :=
  fr.updHost h _

theorem State.Framed.barrowBuf {s : State} (h : P s) : P s.barrowBuf :=
  fr.peak (fr.wr h ..) ..

theorem State.Framed.barrowRelease {s : State} (h : P s) (c : Nat) : P (s.barrowRelease c) :=
  fr.barrowBuf (fr.updBarrow (fr.foldl h _ _ fun _ _ ht => fr.releaseHold ht ..) ..)

theorem State.Framed.barrowPost {s : State} (h : P s) (c tag status spec0 spec1 : Nat) :
    P (s.barrowPost c tag status spec0 spec1) :=
  fr.post h _

theorem State.Framed.barrowHalt {s : State} (h : P s) (c status : Nat) : P (s.barrowHalt c status) :=
  fr.raise (fr.barrowPost (fr.wr (fr.wr (fr.ite (fr.flagCount
    (fr.flagCount (fr.updBarrow (fr.barrowRelease h _) ..) ..) ..) (fr.flagCount
    (fr.updBarrow (fr.barrowRelease h _) ..) ..)) ..) ..) ..) ..

/-! ### What the functions of Machine/Sketch.lean keep under every frame. Their subject: Stream contexts, sketch cores and reading cores (spec/13). -/

theorem State.Framed.updVcd {s : State} (h : P s) (f : VcdSt → VcdSt) : P (s.updVcd f) :=
  fr.same h

theorem State.Framed.updSc {s : State} (h : P s) (x : Nat) (f : ScSt → ScSt) : P (s.updSc x f) :=
  fr.updVcd h _

theorem State.Framed.poolStatus {s : State} (h : P s) (half : Nat) : P (s.poolStatus half) :=
  fr.each (fr.wr (fr.wr h ..) ..) _ _ fun _ _ ht => fr.ite (fr.wr ht ..) ht

theorem State.Framed.updPool {s : State} (h : P s) (half : Nat) (f : List PoolBuf → List PoolBuf) :
    P (s.updPool half f) :=
  fr.poolStatus (fr.updVcd h _) _

theorem State.Framed.scRelease {s : State} (h : P s) (x : Nat) : P (s.scRelease x) :=
  fr.updSc h ..

theorem State.Framed.scDrop {s : State} (h : P s) (x slot e serial : Nat) : P (s.scDrop x slot e serial) :=
  fr.whenB h _ _ fun _ ht => fr.dropViewHold ht ..

theorem State.Framed.scClosed {s : State} (h : P s) (x : Nat) : P (s.scClosed x) := by
  unfold State.scClosed
  refine fr.updPool (fr.wr (fr.wr (fr.updVcd (fr.updSc ?_ ..) _) ..) ..) ..
  split
  · exact fr.scDrop (fr.foldl h _ _ fun _ _ ht => fr.scDrop ht ..) ..
  · exact fr.foldl h _ _ fun _ _ ht => fr.scDrop ht ..

theorem State.Framed.rcStatus {s : State} (h : P s) (core : Nat) : P (s.rcStatus core) :=
  fr.wr (fr.wr h ..) ..

theorem State.Framed.updDec {s : State} (h : P s) (d : Nat) (f : RcSt → RcSt) : P (s.updDec d f) :=
  fr.rcStatus (fr.updVcd h _) _

theorem State.Framed.rcReset {s : State} (h : P s) (d : Nat) : P (s.rcReset d) :=
  fr.updPool (fr.updDec h ..) ..

theorem State.Framed.vcdReset {s : State} (h : P s) (half status : Nat) : P (s.vcdReset half status) :=
  fr.each (fr.each
    (fr.foldl h _ _ fun _ _ ht => fr.complete ht ..) _ _ fun _ _ ht => fr.scClosed ht _) _ _ fun _ _ ht =>
    fr.rcReset ht _

/-! ### What the functions of Machine/Raster.lean keep under every frame. Their subject: Raster outputs and viewfinder ports (spec/14). -/

theorem State.Framed.updOut {s : State} (h : P s) (o : Nat) (f : OutSt → OutSt) : P (s.updOut o f) :=
  fr.same h

theorem State.Framed.outRelease {s : State} (h : P s) (o : Nat) : P (s.outRelease o) := by
  unfold State.outRelease
  split
  · exact h
  · exact fr.ite (fr.updOut (fr.dropViewHold h ..) ..) h

theorem State.Framed.outOff {s : State} (h : P s) (o : Nat) : P (s.outOff o) :=
  fr.wr (fr.updOut (fr.wr (fr.outRelease h _) ..) ..) ..

theorem State.Framed.outAcquire {s : State} (h : P s) (o : Nat) : P (s.outAcquire o) := by
  unfold State.outAcquire
  extract_lets +onlyGivenNames t
  have ht : P t := fr.updOut (fr.wr h ..) ..
  exact fr.ite ht (fr.raise (fr.flagCount ht ..) ..)

theorem State.Framed.outOn {s : State} (h : P s) (o : Nat) : P (s.outOn o) :=
  fr.ite (fr.wr (fr.outOff h _) ..) (fr.ite (fr.ite (fr.wr h ..) (fr.ite
    (fr.outAcquire (fr.wr h ..) _) (fr.wr h ..))) h)

theorem State.Framed.outLost {s : State} (h : P s) (o : Nat) : P (s.outLost o) :=
  fr.ite (fr.raise (fr.flagCount (fr.wr h ..) ..) ..) h

theorem State.Framed.rasPtp {s : State} (h : P s) (locked : Bool) : P (s.rasPtp locked) :=
  fr.each h _ _ fun _ _ ht => fr.ite (fr.ite (fr.outAcquire ht _) ht) (fr.outLost ht _)

theorem State.Framed.rasReset {s : State} (h : P s) (status : Nat) : P (s.rasReset status) :=
  fr.foldl h _ _ fun _ _ ht => fr.updOut (fr.outOff
    (fr.foldl ht _ _ fun _ _ hu => fr.complete hu ..) _) ..

/-! ### What the functions of Machine/Audio.lean keep under every frame. Their subject: The audio master, ports and their converters, channel maps,
recording and monitoring (spec/15). -/

theorem State.Framed.updAud {s : State} (h : P s) (f : AudSt → AudSt) : P (s.updAud f) :=
  fr.same h

theorem State.Framed.updAport {s : State} (h : P s) (p : Nat) (f : AudPort → AudPort) : P (s.updAport p f) :=
  fr.updAud h _

theorem State.Framed.portShow {s : State} (h : P s) (p : Nat) : P (s.portShow p) := by
  unfold State.portShow
  extract_lets +onlyGivenNames _
  exact fr.ite (fr.wr h ..) (fr.each h _ _ fun _ _ ht => fr.wr ht ..)

theorem State.Framed.portTo {s : State} (h : P s) (p st : Nat) : P (s.portTo p st) :=
  fr.portShow (fr.updAport h ..) _

theorem State.Framed.masterStart {s : State} (h : P s) : P s.masterStart := by
  unfold State.masterStart
  extract_lets +onlyGivenNames t
  have ht : P t := fr.updAud h _
  exact fr.ite (fr.wr ht ..) (fr.ite (fr.wr ht ..) (fr.wr ht ..))

theorem State.Framed.masterFound {s : State} (h : P s) : P s.masterFound :=
  fr.ite (fr.updAud (fr.wr h ..) _) h

theorem State.Framed.masterLost {s : State} (h : P s) : P s.masterLost :=
  fr.ite (fr.raise (fr.flagCount (fr.wr h ..) ..) ..) h

theorem State.Framed.audPtp {s : State} (h : P s) (locked : Bool) : P (s.audPtp locked) :=
  fr.ite (fr.ite (fr.masterFound h) (fr.masterLost h)) h

theorem State.Framed.audReset {s : State} (h : P s) : P s.audReset := by
  have ht : P (((s.wr F.AUD_REC_CTRL_run 0).wr F.AUD_RING_HEAD_value 0).wr F.AUD_RING_SERIAL_value 0) := fr.wr (fr.wr (fr.wr h ..) ..) ..
  exact fr.same ht

/-! ### What the functions of Machine/Net.lean keep under every frame. Their subject: The PTP time base, host frames, ST 2110 senders and timecode
(spec/16). -/

theorem State.Framed.updNet {s : State} (h : P s) (f : NetSt → NetSt) : P (s.updNet f) :=
  fr.same h

theorem State.Framed.updSnd {s : State} (h : P s) (n : Nat) (f : SndSt → SndSt) : P (s.updSnd n f) :=
  fr.updNet h _

theorem State.Framed.ptpTo {s : State} (h : P s) (st : Nat) : P (s.ptpTo st) := by
  unfold State.ptpTo
  extract_lets +onlyGivenNames t
  have ht : P t := fr.updNet (fr.wr h ..) _
  exact fr.ite ht (fr.audPtp (fr.rasPtp ht _) _)

theorem State.Framed.ptpEnable {s : State} (h : P s) (on : Bool) : P (s.ptpEnable on) :=
  fr.ite (fr.ite (fr.ptpTo (fr.wr (fr.updNet h _) ..) _) h) (fr.ptpTo h _)

theorem State.Framed.sndRelease {s : State} (h : P s) (n : Nat) : P (s.sndRelease n) := by
  unfold State.sndRelease
  split
  · exact h
  · exact fr.ite (fr.updSnd (fr.dropViewHold h ..) ..) h

theorem State.Framed.sndStop {s : State} (h : P s) (n : Nat) : P (s.sndStop n) := by
  unfold State.sndStop
  extract_lets +onlyGivenNames _ t
  have ht : P t := fr.updSnd (fr.wr (fr.sndRelease h _) ..) ..
  exact fr.ite (fr.scRelease (fr.updSc ht ..) _) ht

theorem State.Framed.netReset {s : State} (h : P s) (status : Nat) : P (s.netReset status) := by
  have hnet : ∀ {t : State}, P t → P { t with net := NetSt.init } := fun ht => fr.same ht
  exact hnet (fr.setClock (fr.ptpTo (fr.foldl (fr.foldl h _ _ fun _ _ ht =>
    fr.sndStop ht _) _ _ fun _ _ ht => fr.complete ht ..) _) _)

theorem State.Framed.netRelease {s : State} (h : P s) : P s.netRelease :=
  fr.ite (fr.ptpEnable h _) h

/-! ### What the functions of Machine/Age.lean keep under every frame. Their subject: The admission check of an easel, and the ageing measurement, the
margin plan, the core voltage and the frame deadlines of spec/18 and spec/21. -/

theorem State.Framed.admission {s : State} (h : P s) (e plan : Nat) : P (s.admission e plan) :=
  fr.ite h (fr.ite (fr.canvasOpen (fr.condOpen (fr.updEasel (fr.wr (fr.wr
    (fr.wr h ..) ..) ..) ..) _) _) (fr.raise (fr.wr (fr.wr (fr.wr (fr.wr
    (fr.wr (fr.wr h ..) ..) ..) ..) ..) ..) ..))

theorem State.Framed.shedMarks {s : State} (h : P s) : P s.shedMarks :=
  fr.each (fr.each h _ _ fun _ _ ht => fr.wr ht ..) _ _ fun _ _ ht => fr.wr ht ..

/-! ### What the functions of Machine/Reset.lean keep under every frame. Their subject: Power domains, resets of every reach, clock-good, and the bell
(spec/17). -/

theorem State.Framed.endCmds {s : State} (h : P s) (mine : Cmd → Bool) (status half : Nat) :
    P (s.endCmds mine status half) :=
  fr.foldl h _ _ fun _ _ ht => fr.complete ht ..

theorem State.Framed.coreReset {s : State} (h : P s) (k status : Nat) : P (s.coreReset k status) := by
  unfold State.coreReset
  exact fr.updVcd (fr.each (fr.endCmds h ..) _ _ fun _ _ ht => fr.scClosed ht _) _

theorem State.Framed.blockStop {s : State} (h : P s) (b status : Nat) : P (s.blockStop b status) :=
  fr.ite (fr.groupDown h ..) <|
  fr.ite (fr.packReset h ..) <|
  fr.ite (fr.updPack h ..) <|
  fr.ite (fr.coreReset h ..) <|
  fr.ite (fr.each (fr.endCmds h ..) _ _ fun _ _ ht => fr.rcReset ht _) <|
  fr.ite (fr.portReset h ..) <|
  fr.ite (fr.hbmDrop (fr.updHbm (fr.whenB h _ _ fun _ ht => fr.wr ht ..) _) _) <|
  fr.ite (fr.each h _ _ fun _ _ ht => fr.barrowHalt ht ..) <|
  fr.ite (fr.wr (fr.updOut (fr.outOff
    (fr.foldl h _ _ fun _ _ ht => fr.complete ht ..) _) ..) ..) <|
  fr.ite (fr.wr (fr.foldl (fr.updNet h _) _ _ fun _ _ ht => fr.complete ht ..) ..) <|
  fr.ite (fr.updNet (fr.setClock (fr.ptpTo h _) _) _) <|
  fr.ite (fr.foldl h _ _ fun _ _ ht => fr.sndStop ht _) <|
  fr.ite (fr.portShow (fr.updAport h ..) _) h

theorem State.Framed.blockStart {s : State} (h : P s) (b : Nat) : P (s.blockStart b) :=
  fr.ite (fr.portPower h _) (fr.ite (fr.whenB h _ _ fun _ ht => fr.wr ht ..)
    (fr.ite (fr.outOn (fr.ite (fr.wr h ..) h) _) (fr.ite (fr.netRelease h)
    (fr.ite (fr.foldl h _ _ fun _ _ ht => fr.ite (fr.wr ht ..) ht) (fr.ite (fr.ite
    (fr.portTo h ..) h) h)))))

theorem State.Framed.dropActivation {s : State} (h : P s) (status : Nat) : P (s.dropActivation status) :=
  fr.endCmds h ..

theorem State.Framed.calAborted {s : State} (h : P s) (half : Nat) : P (s.calAborted half) := by
  unfold State.calAborted
  extract_lets c t
  have ht : P t := fr.each h _ _ fun _ _ ht => fr.complete ht ..
  exact fr.halfRunning (fr.same ht) ..

theorem State.Framed.intakeReset {s : State} (h : P s) (half : Nat) : P (s.intakeReset half) := by
  unfold State.intakeReset
  extract_lets +onlyGivenNames t
  have ht : P t := fr.bandsLost h _
  exact fr.same ht

end

theorem State.Keeps.frame (s₀ : State) : State.Framed s₀.Keeps :=
  ⟨fun h f v i j _ => State.wr_keeps h f v i j, fun h e => State.emit_keeps h e, State.tick_keeps,
    fun h h1 h2 h3 h4 h5 h6 h7 _ _ => h.same h1 h2 h3 h4 h5 h6 h7⟩

end Sys2Proof.Machine
end

section
/-! PROOFS. What every command keeps (spec/08, spec/20, spec/95): when a command's outcome keeps what stood before, and how a choice between
two states does; then, in the order of the model's files, one lemma for each function that answers a state. -/
namespace Sys2Proof.Machine

/- The theorems are elaborated one after another: side by side, so many of them would need more threads than the memory limit has room for. -/
set_option Elab.async false

/-- The command answers a next state, and what stood before is kept. -/
def Out.Keeps (s₀ : State) (o : Out) : Prop := ∃ t, o = .next t ∧ s₀.Keeps t

theorem Out.next_keeps {s₀ t : State} (h : s₀.Keeps t) : Out.Keeps s₀ (.next t) := ⟨t, rfl, h⟩

/-- The state a function answered beside another value. -/
theorem State.Keeps.fst {α : Type} {s₀ t : State} {p : State × α} {b : α} (hf : p = (t, b)) (h : s₀.Keeps p.1) : s₀.Keeps t := by
  rwa [hf] at h

theorem State.ite_keeps {s₀ t u : State} {c : Prop} [Decidable c] (ht : s₀.Keeps t) (hu : s₀.Keeps u) :
    s₀.Keeps (if c then t else u) := by
  split
  · exact ht
  · exact hu

theorem Out.ite_keeps {s₀ : State} {o p : Out} {c : Prop} [Decidable c] (ho : Out.Keeps s₀ o) (hp : Out.Keeps s₀ p) :
    Out.Keeps s₀ (if c then o else p) := by
  split
  · exact ho
  · exact hp

/-! ### What the functions of Machine/Ops.lean keep. Their subject: The shared operations: register fields, HBM bytes, records and
events, and the start and the end of a host command. -/

theorem State.setClock_keeps {s₀ s : State} (h : s₀.Keeps s) (n : Nat) : s₀.Keeps (s.setClock n) :=
  h.same

theorem State.countUp_keeps {s₀ s : State} (h : s₀.Keeps s) (k : Counted) (n : Nat) : s₀.Keeps (s.countUp k n) :=
  h.same

/-! ### What the functions of Machine/Link.lean keep. Their subject: The Barosh sensor link
(spec/03): lanes, deskew, the group state machine, the back-channel and test patterns. -/

theorem State.updLane_keeps {s₀ s : State} (h : s₀.Keeps s) (g m : Nat) (f : LaneSt → LaneSt) : s₀.Keeps (s.updLane g m f) :=
  (State.Keeps.frame _).updGroup h ..

theorem State.setDeskew_keeps {s₀ s : State} (h : s₀.Keeps s) (g0 half : Nat) (d : Deskew) : s₀.Keeps (s.setDeskew g0 half d) :=
  h.same

theorem State.restartDeskew_keeps {s₀ s : State} (h : s₀.Keeps s) (g : Nat) (d : Deskew) : s₀.Keeps (s.restartDeskew g d) :=
  State.setDeskew_keeps (State.setDeskew_keeps h ..) ..

theorem State.intakeBlock_keeps {s₀ s : State} (h : s₀.Keeps s) (half e : Nat) (x : BlockPlace) (pos : Nat) :
    s₀.Keeps (s.intakeBlock half e x pos) :=
  State.ite_keeps ((State.Keeps.frame _).updEasel h.same ..) (State.raise_keeps (State.countUp_keeps ((State.Keeps.frame _).updEasel h ..) ..) ..)

theorem State.blockErrors_keeps {s₀ s : State} (h : s₀.Keeps s) (g m : Nat) (place : LanePlace) (header : Nat) (p : List Byte) :
    s₀.Keeps (s.blockErrors g m place header p) := by
  unfold State.blockErrors
  extract_lets +onlyGivenNames _
  exact State.ite_keeps (State.whenB_keeps h _ _ fun _ ht => State.bump_keeps ht ..) (State.ite_keeps
    (State.whenB_keeps h _ _ fun _ ht => State.bump_keeps ht ..) (State.whenB_keeps
    (State.bump_keeps h ..) _ _ fun _ ht => (State.Keeps.frame _).updGroup ht ..))

theorem State.toBuffer_keeps {s₀ s : State} (h : s₀.Keeps s) (half g m : Nat) (x : BufBlock) : s₀.Keeps (s.toBuffer half g m x) :=
  State.updLane_keeps h ..

theorem State.linkDeliver_keeps {s₀ s : State} (h : s₀.Keeps s) (half g m : Nat) (place : BlockPlace) (x : BufBlock) :
    s₀.Keeps (s.linkDeliver half g m place x) :=
  State.whenB_keeps (State.toBuffer_keeps h ..) _ _ fun _ ht => State.ite_keeps (State.intakeBlock_keeps ht ..) (State.bump_keeps ht ..)

theorem State.laneMonitor_keeps {s₀ s : State} (h : s₀.Keeps s) (g m : Nat) (hist : BitVec 58) (b : LinkBlock) (p : List Byte) :
    s₀.Keeps (s.laneMonitor g m hist b p) := by
  unfold State.laneMonitor
  extract_lets +onlyGivenNames _ _ _ _ _ _ t t0 _ l _ _ _ t2
  have ht : s₀.Keeps t := State.updLane_keeps (State.blockErrors_keeps h ..) ..
  have ht0 : s₀.Keeps t0 := State.whenB_keeps ht _ _ fun _ ht => (State.Keeps.frame _).updEasel ht ..
  have hl : s₀.Keeps l := State.ite_keeps ht0.same ht0
  extract_lets +onlyGivenNames t2
  have ht2 : s₀.Keeps t2 := State.whenB_keeps hl _ _ fun _ ht => State.linkDeliver_keeps ht ..
  exact State.ite_keeps (State.updLane_keeps ht2 ..) (State.updLane_keeps ht2 ..)

theorem State.lockCheck_keeps {s₀ s : State} (h : s₀.Keeps s) (g : Nat) : s₀.Keeps (s.lockCheck g) :=
  State.ite_keeps (State.restartDeskew_keeps ((State.Keeps.frame _).updGroup ((State.Keeps.frame _).setGrp h ..) ..) ..) h

theorem State.adaptTaps_keeps {s₀ s : State} (h : s₀.Keeps s) (g m : Nat) : s₀.Keeps (s.adaptTaps g m) :=
  State.ite_keeps (State.tick_keeps (State.wr_keeps h ..)) h

theorem execLinkBlockReceive_keeps {s₀ s : State} (h :
    s₀.Keeps s) (g m : Nat) (b : LinkBlock) : Out.Keeps s₀ (execLinkBlockReceive g m b s) := by
  unfold execLinkBlockReceive
  extract_lets +onlyGivenNames _
  split
  · exact Out.next_keeps h
  · extract_lets +onlyGivenNames _ _
    split
    · split
      · exact Out.next_keeps (State.updLane_keeps h ..)
      · extract_lets +onlyGivenNames _ s1
        have hs1 : s₀.Keeps s1 := State.adaptTaps_keeps (State.updLane_keeps h ..) ..
        split
        · exact Out.next_keeps (State.lockCheck_keeps (State.whenB_keeps hs1 _ _ fun _ ht => State.bump_keeps ht ..) _)
        · exact Out.next_keeps (State.laneMonitor_keeps hs1 ..)

theorem execForwardedRunReceive_keeps {s₀ s : State} (h :
    s₀.Keeps s) (half g m n : Nat) : Out.Keeps s₀ (execForwardedRunReceive half g m n s) := by
  unfold execForwardedRunReceive
  split
  · exact Out.next_keeps h
  · exact Out.ite_keeps (Out.next_keeps h) (Out.next_keeps (State.each_keeps
      (State.updLane_keeps h ..) _ _ fun _ _ ht => State.linkDeliver_keeps ht ..))

theorem State.bcOwn_keeps {s₀ s : State} (h : s₀.Keeps s) (g code addr data : Nat) : s₀.Keeps (s.bcOwn g code addr data) :=
  (State.Keeps.frame _).bcSend ((State.Keeps.frame _).updGroup h ..) ..

theorem State.linkStart_keeps {s₀ s : State} (h : s₀.Keeps s) (g : Nat) : s₀.Keeps (s.linkStart g) :=
  State.bcOwn_keeps h ..

theorem State.toLock_keeps {s₀ s : State} (h : s₀.Keeps s) (g : Nat) : s₀.Keeps (s.toLock g) :=
  (State.Keeps.frame _).updGroup (State.wr_keeps ((State.Keeps.frame _).setGrp h ..) ..) ..

theorem State.groupFail_keeps {s₀ s : State} (h : s₀.Keeps s) (g : Nat) : s₀.Keeps (s.groupFail g) :=
  State.raise_keeps (State.flagCount_keeps ((State.Keeps.frame _).setGrp h ..) ..) ..

theorem execLaneBlockLock_keeps {s₀ s : State} (h : s₀.Keeps s) (g m : Nat) : Out.Keeps s₀ (execLaneBlockLock g m s) := by
  unfold execLaneBlockLock
  extract_lets +onlyGivenNames _
  exact Out.ite_keeps (Out.next_keeps (State.updLane_keeps (State.wr_keeps h ..) ..)) (Out.next_keeps h)

theorem execLaneLockLoss_keeps {s₀ s : State} (h : s₀.Keeps s) (g m : Nat) : Out.Keeps s₀ (execLaneLockLoss g m s) := by
  unfold execLaneLockLoss
  extract_lets +onlyGivenNames _
  exact Out.ite_keeps (Out.next_keeps (State.whenB_keeps ((State.Keeps.frame _).updGroup (State.updLane_keeps (State.flagCount_keeps
    (State.wr_keeps h ..) ..) ..) ..) _ _ fun _ ht => (State.Keeps.frame _).groupCut ((State.Keeps.frame _).setGrp ht ..) _)) (Out.next_keeps h)

theorem execAlignReceive_keeps {s₀ s : State} (h :
    s₀.Keeps s) (half g m : Nat) (payload : List Byte) (t : Nat) : Out.Keeps s₀ (execAlignReceive half g m payload t s) := by
  unfold execAlignReceive
  split
  · exact Out.next_keeps h
  · split
    · exact Out.next_keeps h
    · extract_lets +onlyGivenNames _
      split
      · extract_lets +onlyGivenNames _ _
        split
        · exact Out.next_keeps (State.setDeskew_keeps h ..)
        · extract_lets +onlyGivenNames _
          split
          · exact Out.next_keeps (State.setDeskew_keeps h ..)
          · split
            · exact Out.next_keeps (State.raise_keeps (State.bump_keeps (State.setDeskew_keeps h ..) ..) ..)
            · exact Out.next_keeps (State.setDeskew_keeps h ..)
      · exact Out.next_keeps h

theorem State.groupUp_keeps {s₀ s : State} (h : s₀.Keeps s) (g : Nat) : s₀.Keeps (s.groupUp g) :=
  State.ite_keeps (State.raise_keeps ((State.Keeps.frame _).updGroup ((State.Keeps.frame _).setGrp h ..) ..) ..) h

theorem State.confirmSet_keeps {s₀ s : State} (h : s₀.Keeps s) (g0 half count : Nat) : s₀.Keeps (s.confirmSet g0 half count) := by
  unfold State.confirmSet
  extract_lets +onlyGivenNames t
  have ht : s₀.Keeps t := State.setDeskew_keeps h ..
  split
  · exact State.each_keeps ht _ _ fun _ _ ht => State.groupUp_keeps ht _
  · exact ht

theorem execDeskewMarkerCycle_keeps {s₀ s : State} (h :
    s₀.Keeps s) (half g : Nat) (read : List (Option Nat)) : Out.Keeps s₀ (execDeskewMarkerCycle half g read s) := by
  unfold execDeskewMarkerCycle
  extract_lets +onlyGivenNames _ _ _
  split
  · exact Out.next_keeps h
  · extract_lets +onlyGivenNames want _
    exact Out.ite_keeps (Out.next_keeps (State.setDeskew_keeps h ..)) (Out.ite_keeps (Out.next_keeps (State.confirmSet_keeps h ..))
      (Out.next_keeps (State.setDeskew_keeps h ..)))
  · split
    · exact Out.ite_keeps (Out.next_keeps (State.confirmSet_keeps h ..)) (Out.next_keeps (State.setDeskew_keeps h ..))
    · exact Out.next_keeps (State.setDeskew_keeps h ..)
  · extract_lets +onlyGivenNames _
    exact Out.ite_keeps (Out.next_keeps (State.setDeskew_keeps h ..)) (Out.ite_keeps (Out.next_keeps (State.setDeskew_keeps h ..))
      (Out.next_keeps (State.raise_keeps ((State.Keeps.frame _).groupCut (State.each_keeps
      (State.restartDeskew_keeps h ..) _ _ fun _ _ ht => State.ite_keeps ((State.Keeps.frame _).updGroup (State.flagCount_keeps
      ((State.Keeps.frame _).setGrp ht ..) ..) ..) ht) _) ..)))

theorem execBrlTrain_keeps {s₀ s : State} (h : s₀.Keeps s) (g : Nat) : Out.Keeps s₀ (execBrlTrain g s) := by
  unfold execBrlTrain
  extract_lets +onlyGivenNames _ _
  exact Out.ite_keeps (Out.next_keeps (State.linkStart_keeps (State.whenB_keeps ((State.Keeps.frame _).updGroup
    ((State.Keeps.frame _).setGrp h ..) ..) _ _ fun _ ht => State.bcOwn_keeps (State.bcOwn_keeps (State.bcOwn_keeps ht ..) ..) ..) _))
    (Out.ite_keeps (Out.next_keeps h) (Out.next_keeps (State.wr_keeps h ..)))

theorem execBrlCkMeasured_keeps {s₀ s : State} (h : s₀.Keeps s) (g khz : Nat) : Out.Keeps s₀ (execBrlCkMeasured g khz s) :=
  Out.ite_keeps (Out.ite_keeps (Out.next_keeps (State.groupFail_keeps h _)) (Out.next_keeps (State.ite_keeps (State.toLock_keeps
    (State.wr_keeps h ..) _) ((State.Keeps.frame _).setGrp (State.wr_keeps h ..) ..)))) (Out.next_keeps h)

theorem execBrlAdaptDone_keeps {s₀ s : State} (h :
    s₀.Keeps s) (g ctle : Nat) (taps : List Nat) : Out.Keeps s₀ (execBrlAdaptDone g ctle taps s) :=
  Out.ite_keeps (Out.next_keeps (State.ite_keeps ((State.Keeps.frame _).updGroup (State.toLock_keeps h _) ..) (State.each_keeps
    ((State.Keeps.frame _).updGroup (State.toLock_keeps h _) ..) _ _ fun _ _ ht => State.whenB_keeps ht _ _ fun _ hu => State.wr_keeps hu ..)))
    (Out.next_keeps h)

theorem State.sleepMark_keeps {s₀ s : State} (h : s₀.Keeps s) (g : Nat) : s₀.Keeps (s.sleepMark g) :=
  State.whenB_keeps h _ _ fun _ ht => (State.Keeps.frame _).updEasel ht ..

theorem execBrlSleepReceive_keeps {s₀ s : State} (h : s₀.Keeps s) (g : Nat) : Out.Keeps s₀ (execBrlSleepReceive g s) :=
  Out.ite_keeps (Out.next_keeps (State.sleepMark_keeps ((State.Keeps.frame _).groupCut (State.wr_keeps (State.wr_keeps
    ((State.Keeps.frame _).setGrp h ..) ..) ..) _) _)) (Out.next_keeps h)

theorem execBrlCkRestart_keeps {s₀ s : State} (h : s₀.Keeps s) (g : Nat) : Out.Keeps s₀ (execBrlCkRestart g s) :=
  Out.ite_keeps (Out.next_keeps ((State.Keeps.frame _).updGroup ((State.Keeps.frame _).setGrp h ..) ..)) (Out.next_keeps h)

theorem execTrainingTimeout_keeps {s₀ s : State} (h : s₀.Keeps s) (g : Nat) : Out.Keeps s₀ (execTrainingTimeout g s) := by
  unfold execTrainingTimeout
  extract_lets +onlyGivenNames _
  exact Out.ite_keeps (Out.next_keeps (State.groupFail_keeps h _)) (Out.next_keeps h)

theorem execBrlTestModeSet_keeps {s₀ s : State} (h : s₀.Keeps s) (g : Nat) : Out.Keeps s₀ (execBrlTestModeSet g s) :=
  Out.ite_keeps (Out.next_keeps ((State.Keeps.frame _).updGroup (State.bcOwn_keeps ((State.Keeps.frame _).setGrp (State.wr_keeps h ..) ..) ..) ..))
    (Out.next_keeps (State.wr_keeps h ..))

theorem execBrlTestModeClear_keeps {s₀ s : State} (h : s₀.Keeps s) (g : Nat) : Out.Keeps s₀ (execBrlTestModeClear g s) := by
  unfold execBrlTestModeClear
  extract_lets +onlyGivenNames t
  have ht : s₀.Keeps t := State.wr_keeps h ..
  exact Out.ite_keeps (Out.next_keeps (State.toLock_keeps (State.linkStart_keeps ht _) _)) (Out.next_keeps ht)

theorem execLanePrbsReceive_keeps {s₀ s : State} (h :
    s₀.Keeps s) (g m : Nat) (bits : List Bool) : Out.Keeps s₀ (execLanePrbsReceive g m bits s) :=
  Out.ite_keeps (Out.next_keeps (State.bump_keeps ((State.Keeps.frame _).updGroup (State.bump_keeps (State.updLane_keeps h ..) ..) ..) ..))
    (Out.next_keeps h)

theorem execBrlBcSleep_keeps {s₀ s : State} (h : s₀.Keeps s) (g : Nat) : Out.Keeps s₀ (execBrlBcSleep g s) := by
  unfold execBrlBcSleep
  extract_lets +onlyGivenNames t
  have ht : s₀.Keeps t := State.wr_keeps h ..
  exact Out.ite_keeps (Out.next_keeps (State.wr_keeps (State.bcOwn_keeps ht ..) ..)) (Out.next_keeps ht)

theorem execBrlBcWake_keeps {s₀ s : State} (h : s₀.Keeps s) (g : Nat) : Out.Keeps s₀ (execBrlBcWake g s) := by
  unfold execBrlBcWake
  extract_lets +onlyGivenNames t
  have ht : s₀.Keeps t := State.wr_keeps h ..
  exact Out.next_keeps (State.ite_keeps ht ((State.Keeps.frame _).bcAwake ht _))

theorem execBcCmdGo_keeps {s₀ s : State} (h : s₀.Keeps s) (g v : Nat) : Out.Keeps s₀ (execBcCmdGo g v s) := by
  unfold execBcCmdGo
  extract_lets +onlyGivenNames _ _ t
  have ht : s₀.Keeps t := State.wr_keeps (State.wr_keeps (State.wr_keeps h ..) ..) ..
  exact Out.ite_keeps (Out.next_keeps ht) (Out.ite_keeps (Out.next_keeps (State.wr_keeps ht ..)) (Out.ite_keeps (Out.next_keeps
    (State.wr_keeps ht ..)) (Out.next_keeps ((State.Keeps.frame _).bcSend ((State.Keeps.frame _).updGroup (State.wr_keeps ht ..) ..) ..))))

/-! ### What the functions of Machine/Cond.lean keep. Their subject: Raw conditioning
(spec/05): fusion, black level, defects, column pattern, shading and output of one row, and the black unit. -/

theorem State.updCondFrame_keeps {s₀ s : State} (h : s₀.Keeps s) (e serial : Nat) (f : CondFrame → CondFrame) :
    s₀.Keeps (s.updCondFrame e serial f) :=
  (State.Keeps.frame _).updCond h ..

theorem State.reportWeak_keeps {s₀ s : State} (h : s₀.Keeps s) (e : Nat) (cf : CondFrame) (weak : List Nat) :
    s₀.Keeps (s.reportWeak e cf weak) :=
  State.updCondFrame_keeps (State.each_keeps h _ _ fun _ _ ht => State.raise_keeps (State.flagCount_keeps ht ..) ..) ..

/-! ### What the functions of Machine/Easel.lean keep. Their subject: Easels, exposure tickets and the frame tracker (spec/04). -/

theorem State.lateFault_keeps {s₀ s : State} (h : s₀.Keeps s) (e serial k : Nat) : s₀.Keeps (s.lateFault e serial k) := by
  unfold State.lateFault
  extract_lets +onlyGivenNames t
  have ht : s₀.Keeps t := (State.Keeps.frame _).updFrame h ..
  exact ht.same

theorem State.tileHurt_keeps {s₀ s : State} (h : s₀.Keeps s) (e serial : Nat) : s₀.Keeps (s.tileHurt e serial) := by
  unfold State.tileHurt
  split
  · exact State.whenB_keeps h _ _ fun _ ht => State.lateFault_keeps ht ..
  · exact h

theorem State.supersede_keeps {s₀ s : State} (h : s₀.Keeps s) (e : Nat) : s₀.Keeps (s.supersede e) := by
  unfold State.supersede
  refine (State.Keeps.frame _).updEasel (State.each_keeps h _ _ ?_) ..
  intro t _ ht
  split
  · exact State.bump_keeps ((State.Keeps.frame _).ticketDone ht ..) ..
  · exact ht

theorem State.windowClose_keeps {s₀ s : State} (h : s₀.Keeps s) (e n : Nat) : s₀.Keeps (s.windowClose e n) := by
  unfold State.windowClose
  extract_lets +onlyGivenNames t
  have ht : s₀.Keeps t := (State.Keeps.frame _).updEasel h ..
  split
  · exact ht
  · exact (State.Keeps.frame _).ticketSend ((State.Keeps.frame _).updEasel ht ..) _

theorem execTicketPost_keeps {s₀ s : State} (h : s₀.Keeps s) (id : Nat) : Out.Keeps s₀ (execTicketPost id s) :=
  Out.next_keeps (State.startCmd_keeps h _ _ _ fun _ _ ht => State.ite_keeps ((State.Keeps.frame _).ticketDone ht ..) (State.ite_keeps
    ((State.Keeps.frame _).ticketDone ht ..) ((State.Keeps.frame _).updEasel (State.supersede_keeps ht _) ..)))

theorem execTicketWindowClose_keeps {s₀ s : State} (h : s₀.Keeps s) (e : Nat) : Out.Keeps s₀ (execTicketWindowClose e s) := by
  unfold execTicketWindowClose
  split
  · exact Out.next_keeps (State.windowClose_keeps h ..)
  · exact Out.next_keeps h

theorem State.bcEnd_keeps {s₀ s : State} (h : s₀.Keeps s) (g result : Nat) (data : Option Nat) (late : Bool) :
    s₀.Keeps (s.bcEnd g result data late) := by
  unfold State.bcEnd
  split
  · exact h
  · extract_lets +onlyGivenNames t t1
    have ht : s₀.Keeps t := State.wr_keeps ((State.Keeps.frame _).updGroup h ..) ..
    have ht1 : s₀.Keeps t1 := State.wr_keeps ht ..
    split
    · exact (State.Keeps.frame _).ticketReply ht1 ..
    · refine (State.Keeps.frame _).ticketSend ?_ _
      split
      · exact State.wr_keeps ht1 ..
      · exact ht1

theorem execBcRegReply_keeps {s₀ s : State} (h :
    s₀.Keeps s) (g : Nat) (payload : List Byte) (late : Bool) : Out.Keeps s₀ (execBcRegReply g payload late s) := by
  unfold execBcRegReply
  split
  · exact Out.next_keeps (State.bump_keeps h ..)
  · exact Out.ite_keeps (Out.next_keeps (State.bcEnd_keeps h ..)) (Out.ite_keeps (Out.next_keeps (State.bump_keeps h ..))
      (Out.next_keeps (State.bcEnd_keeps h ..)))

theorem execBcCmdTimeout_keeps {s₀ s : State} (h : s₀.Keeps s) (g : Nat) : Out.Keeps s₀ (execBcCmdTimeout g s) :=
  Out.next_keeps (State.bcEnd_keeps h ..)

theorem execBrlCkLoss_keeps {s₀ s : State} (h : s₀.Keeps s) (g : Nat) : Out.Keeps s₀ (execBrlCkLoss g s) := by
  unfold execBrlCkLoss
  extract_lets +onlyGivenNames _
  exact Out.ite_keeps (Out.next_keeps (State.bcEnd_keeps (State.whenB_keeps (State.raise_keeps (State.flagCount_keeps
    ((State.Keeps.frame _).updGroup (State.wr_keeps (State.wr_keeps
    ((State.Keeps.frame _).setGrp h ..) ..) ..) ..) ..) ..) _ _ fun _ ht => (State.Keeps.frame _).groupCut ht _) ..)) (Out.next_keeps h)

theorem execBrlGrpCfgWrite_keeps {s₀ s : State} (h : s₀.Keeps s) (g v : Nat) : Out.Keeps s₀ (execBrlGrpCfgWrite g v s) := by
  unfold execBrlGrpCfgWrite
  extract_lets +onlyGivenNames _ _ _ _ _ _
  exact Out.ite_keeps (Out.next_keeps (State.wr_keeps h ..)) (Out.next_keeps (State.ite_keeps ((State.Keeps.frame _).groupStart (State.wr_keeps
    (State.wr_keeps (State.wr_keeps (State.wr_keeps (State.wr_keeps h ..) ..) ..) ..) ..) _) ((State.Keeps.frame _).groupDown (State.wr_keeps
    (State.wr_keeps (State.wr_keeps (State.wr_keeps (State.wr_keeps h ..) ..) ..) ..) ..) _)))

theorem State.settle_keeps {s₀ s : State} (h : s₀.Keeps s) (e : Nat) (f : Frame) : s₀.Keeps (s.settle e f) := by
  unfold State.settle
  extract_lets +onlyGivenNames _ _
  exact State.ite_keeps ((State.Keeps.frame _).settleTo h ..) (State.ite_keeps ((State.Keeps.frame _).settleTo h ..) ((State.Keeps.frame _).settleTo h ..))

theorem State.settleIfDone_keeps {s₀ s : State} (h : s₀.Keeps s) (e serial : Nat) : s₀.Keeps (s.settleIfDone e serial) := by
  unfold State.settleIfDone
  split
  · exact State.ite_keeps (State.settle_keeps h ..) h
  · exact h

theorem State.heldAlone_keeps {s₀ s : State} (h : s₀.Keeps s) (e serial : Nat) : s₀.Keeps (s.heldAlone e serial) :=
  State.each_keeps h _ _ fun _ _ ht => State.settle_keeps ht ..

theorem State.frameEnd_keeps {s₀ s : State} (h : s₀.Keeps s) (e : Nat) (f : Frame) (how : FrameEnd) : s₀.Keeps (s.frameEnd e f how) :=
  State.settleIfDone_keeps ((State.Keeps.frame _).frameStatus ((State.Keeps.frame _).updFrame ((State.Keeps.frame _).updEasel (State.heldAlone_keeps h ..) ..) ..) _) ..

theorem State.rowTaken_keeps {s₀ s : State} (h : s₀.Keeps s) (r : RowReport) (f : Frame) : s₀.Keeps (s.rowTaken r f) :=
  State.settleIfDone_keeps (State.whenB_keeps ((State.Keeps.frame _).frameStatus ((State.Keeps.frame _).updFrame
    (State.whenB_keeps h _ _ fun _ ht => State.heldAlone_keeps ht ..) ..) _) _ _ fun _ ht => State.flagCount_keeps ht ..) ..

theorem execRowReport_keeps {s₀ s : State} (h : s₀.Keeps s) : Out.Keeps s₀ (execRowReport s) := by
  unfold execRowReport
  split
  · exact Out.next_keeps h
  · extract_lets +onlyGivenNames t
    extract_lets +onlyGivenNames t
    have ht : s₀.Keeps t := h.same
    split
    · exact Out.next_keeps (State.bump_keeps ht ..)
    · exact Out.next_keeps (State.ite_keeps (State.rowTaken_keeps ht ..) (State.bump_keeps ht ..))

theorem execFrameEndReceive_keeps {s₀ s : State} (h :
    s₀.Keeps s) (e : Nat) (payload : List Byte) : Out.Keeps s₀ (execFrameEndReceive e payload s) := by
  unfold execFrameEndReceive
  refine Out.ite_keeps (Out.next_keeps h) (Out.ite_keeps (Out.next_keeps (State.bump_keeps h ..)) ?_)
  split
  · exact Out.next_keeps (State.bump_keeps h ..)
  · exact Out.ite_keeps (Out.next_keeps (State.frameEnd_keeps h ..)) (Out.next_keeps (State.frameEnd_keeps (State.bump_keeps h ..) ..))

theorem execFrameEndTimeout_keeps {s₀ s : State} (h : s₀.Keeps s) (e : Nat) : Out.Keeps s₀ (execFrameEndTimeout e s) := by
  unfold execFrameEndTimeout
  split
  · exact Out.next_keeps h
  · exact Out.next_keeps (State.frameEnd_keeps (State.raise_keeps (State.flagCount_keeps h ..) ..) ..)

theorem execEaselOpen_keeps {s₀ s : State} (h : s₀.Keeps s) (e : Nat) : Out.Keeps s₀ (execEaselOpen e s) := by
  unfold execEaselOpen
  extract_lets +onlyGivenNames _
  exact Out.ite_keeps (Out.next_keeps (State.wr_keeps (State.wr_keeps h ..) ..)) (Out.ite_keeps (Out.next_keeps (State.wr_keeps h ..))
    (Out.next_keeps h))

theorem execEaselClose_keeps {s₀ s : State} (h : s₀.Keeps s) (e : Nat) : Out.Keeps s₀ (execEaselClose e s) := by
  unfold execEaselClose
  extract_lets +onlyGivenNames _
  exact Out.ite_keeps (Out.next_keeps (State.wr_keeps (State.wr_keeps h ..) ..)) (Out.ite_keeps (Out.ite_keeps (Out.next_keeps
    (State.wr_keeps h ..)) (Out.next_keeps ((State.Keeps.frame _).closeIfDone ((State.Keeps.frame _).dropPending (State.wr_keeps
    (State.wr_keeps h ..) ..) _) _))) (Out.next_keeps h))

/-! ### What the functions of Machine/Hbm.lean keep. Their subject: HBM stacks, the memory plan and the canvases (spec/08). -/

theorem State.updStack_keeps {s₀ s : State} (h : s₀.Keeps s) (k : Nat) (f : StackSt → StackSt) : s₀.Keeps (s.updStack k f) :=
  (State.Keeps.frame _).updHbm h _

theorem State.updPc_keeps {s₀ s : State} (h : s₀.Keeps s) (k pc : Nat) (f : PcSt → PcSt) : s₀.Keeps (s.updPc k pc f) :=
  State.updStack_keeps h ..

theorem State.issue_keeps {s₀ s : State} (h : s₀.Keeps s) (c : Nat → HbmCmd) (a n : Nat) : s₀.Keeps (s.issue c a n) :=
  State.updStack_keeps h ..

theorem State.hbmWrite_keeps {s₀ s : State} (h : s₀.Keeps s) (a : Nat) (bs : List Byte) : s₀.Keeps (s.hbmWrite a bs) :=
  (State.Keeps.frame _).updHbm (State.store_keeps (State.issue_keeps h ..) ..) _

theorem State.put_keeps {s₀ s : State} (h : s₀.Keeps s) (a : Nat) (bs : List Byte) : s₀.Keeps (s.put a bs) :=
  State.ite_keeps h (State.ite_keeps ((State.Keeps.frame _).updHbm h _) (State.hbmWrite_keeps h ..))

theorem State.hbmFlush_keeps {s₀ s : State} (h : s₀.Keeps s) : s₀.Keeps s.hbmFlush :=
  State.each_keeps ((State.Keeps.frame _).updHbm h _) _ _ fun _ _ ht => State.put_keeps ht ..

theorem State.hbmRead_keeps {s₀ s : State} (h : s₀.Keeps s) (a n : Nat) : s₀.Keeps (s.hbmRead a n) := by
  unfold State.hbmRead
  extract_lets +onlyGivenNames _
  exact State.ite_keeps h (State.tick_keeps (State.whenB_keeps (State.issue_keeps h ..) _ _ fun _ ht => State.bump_keeps
    (State.wr_keeps ht ..) ..))

theorem execHbmStackReady_keeps {s₀ s : State} (h : s₀.Keeps s) (k : Nat) (temp : Int) : Out.Keeps s₀ (execHbmStackReady k temp s) :=
  Out.ite_keeps (Out.next_keeps (State.hbmFlush_keeps (State.wr_keeps (State.wr_keeps h ..) ..))) (Out.next_keeps h)

theorem State.bandReading_keeps {s₀ s : State} (h : s₀.Keeps s) (k : Nat) (t : Int) : s₀.Keeps (s.bandReading k t) := by
  unfold State.bandReading
  extract_lets +onlyGivenNames _ _
  exact State.ite_keeps (State.ite_keeps (State.updStack_keeps h ..) (State.updStack_keeps h ..)) h

theorem execHbmAllBankRefresh_keeps {s₀ s : State} (h : s₀.Keeps s) (k pc : Nat) : Out.Keeps s₀ (execHbmAllBankRefresh k pc s) := by
  unfold execHbmAllBankRefresh
  refine Out.ite_keeps (Out.next_keeps h) ?_
  split
  · exact Out.next_keeps (State.updPc_keeps h ..)
  · extract_lets +onlyGivenNames _
    exact Out.ite_keeps (Out.next_keeps (State.raise_keeps (State.wr_keeps (State.wr_keeps (State.updStack_keeps
      (State.updPc_keeps h ..) ..) ..) ..) ..)) (Out.next_keeps (State.updStack_keeps (State.updPc_keeps h ..) ..))

theorem State.caAlert_keeps {s₀ s : State} (h : s₀.Keeps s) (k pc n : Nat) : s₀.Keeps (s.caAlert k pc n) := by
  unfold State.caAlert
  extract_lets +onlyGivenNames t
  have ht : s₀.Keeps t := State.raise_keeps (State.flagCount_keeps (State.updStack_keeps (State.updPc_keeps h ..) ..) ..) ..
  exact State.ite_keeps ((State.Keeps.frame _).hbmDrop (State.raise_keeps (State.wr_keeps (State.wr_keeps ht ..) ..) ..) _) ht

theorem execHbmCaAlert_keeps {s₀ s : State} (h :
    s₀.Keeps s) (k pc : Nat) (replaying : Bool) : Out.Keeps s₀ (execHbmCaAlert k pc replaying s) :=
  Out.next_keeps (State.ite_keeps (State.caAlert_keeps h ..) h)

theorem execHbmCaAlertClear_keeps {s₀ s : State} (h :
    s₀.Keeps s) (k pc covered : Nat) : Out.Keeps s₀ (execHbmCaAlertClear k pc covered s) := by
  unfold execHbmCaAlertClear
  extract_lets +onlyGivenNames _
  exact Out.ite_keeps (Out.next_keeps (State.hbmFlush_keeps (State.each_keeps
    (State.updPc_keeps h ..) _ _ fun _ _ ht => State.emit_keeps ht _))) (Out.next_keeps h)

theorem execHbmUncorrRead_keeps {s₀ s : State} (h : s₀.Keeps s) (addr : Nat) : Out.Keeps s₀ (execHbmUncorrRead addr s) :=
  Out.next_keeps (State.raise_keeps (State.ite_keeps (State.flagCount_keeps ((State.Keeps.frame _).updHbm h _) ..) (State.updStack_keeps
    (State.wr_keeps (State.wr_keeps (State.flagCount_keeps ((State.Keeps.frame _).updHbm h _) ..) ..) ..) ..)) ..)

theorem execHbmRowActivate_keeps {s₀ s : State} (h :
    s₀.Keeps s) (k pc bank row : Nat) : Out.Keeps s₀ (execHbmRowActivate k pc bank row s) := by
  unfold execHbmRowActivate
  extract_lets +onlyGivenNames _
  exact Out.ite_keeps (Out.next_keeps h) (Out.ite_keeps (Out.next_keeps (State.flagCount_keeps (State.each_keeps (State.updPc_keeps
    (State.updPc_keeps h ..) ..) _ _ fun _ _ ht => State.emit_keeps ht _) ..)) (Out.next_keeps (State.updPc_keeps h ..)))

theorem execHbmRhWindowReset_keeps {s₀ s : State} (h : s₀.Keeps s) : Out.Keeps s₀ (execHbmRhWindowReset s) :=
  Out.next_keeps ((State.Keeps.frame _).updHbm h _)

theorem State.waitPlan_keeps {s₀ s : State} (h : s₀.Keeps s) (i : Instr) : s₀.Keeps (s.waitPlan i) :=
  (State.Keeps.frame _).updHbm h _

theorem execHbmPlanCommit_keeps {s₀ s : State} (h : s₀.Keeps s) : Out.Keeps s₀ (execHbmPlanCommit s) :=
  Out.ite_keeps (Out.next_keeps h) (Out.next_keeps ((State.Keeps.frame _).updHbm (State.wr_keeps h ..) _))

theorem State.planDecide_keeps {s₀ s : State} (h : s₀.Keeps s) : s₀.Keeps s.planDecide := by
  unfold State.planDecide
  split
  · exact h
  · extract_lets +onlyGivenNames _ t
    have ht : s₀.Keeps t := State.wr_keeps (State.wr_keeps ((State.Keeps.frame _).updHbm (State.wr_keeps h ..) _) ..) ..
    exact State.ite_keeps ((State.Keeps.frame _).updHbm (State.wr_keeps ht ..) _) (State.raise_keeps (State.wr_keeps ht ..) ..)

theorem State.takeHold_keeps {s₀ s : State} (h : s₀.Keeps s) (e k part : Nat) (half : Holder) : s₀.Keeps (s.takeHold e k part half) :=
  (State.Keeps.frame _).updSlot h ..

theorem execCanvasHoldRelease_keeps {s₀ s : State} (h :
    s₀.Keeps s) (e slot part : Nat) (half : Holder) : Out.Keeps s₀ (execCanvasHoldRelease e slot part half s) :=
  Out.next_keeps ((State.Keeps.frame _).releaseHold h ..)

theorem State.takeSlot_keeps {s₀ s : State} (h : s₀.Keeps s) (e k serial : Nat) (holders : List Holder) :
    s₀.Keeps (s.takeSlot e k serial holders) :=
  State.put_keeps (State.put_keeps ((State.Keeps.frame _).updCanvas ((State.Keeps.frame _).updSlot h ..) ..) ..) ..

/-! ### What the functions of Machine/Calib.lean keep. Their subject: Conditioning commits, the black estimate, and calibration runs
(spec/05). -/

theorem execCondCommit_keeps {s₀ s : State} (h : s₀.Keeps s) (e : Nat) : Out.Keeps s₀ (execCondCommit e s) :=
  Out.ite_keeps (Out.next_keeps (State.wr_keeps h ..)) (Out.next_keeps ((State.Keeps.frame _).updCond (State.wr_keeps h ..) ..))

theorem execCondCommitCheckDone_keeps {s₀ s : State} (h : s₀.Keeps s) (e : Nat) : Out.Keeps s₀ (execCondCommitCheckDone e s) := by
  unfold execCondCommitCheckDone
  refine Out.ite_keeps (Out.next_keeps h) ?_
  split
  · exact Out.next_keeps h
  · extract_lets +onlyGivenNames _ _ t _ _ bad t1
    have ht : s₀.Keeps t := (State.Keeps.frame _).updCond (State.hbmRead_keeps h ..) ..
    have ht1 : s₀.Keeps t1 := State.whenB_keeps ht _ _ fun _ ht => State.wr_keeps ht ..
    clear_value bad
    split
    · exact Out.next_keeps (State.wr_keeps (State.raise_keeps (State.wr_keeps ht1 ..) ..) ..)
    · exact Out.ite_keeps (Out.next_keeps ((State.Keeps.frame _).updCond ht1 ..)) (Out.next_keeps (State.wr_keeps ht1 ..))

theorem execBlackEstimateDone_keeps {s₀ s : State} (h :
    s₀.Keeps s) (e serial : Nat) (waited : Bool) : Out.Keeps s₀ (execBlackEstimateDone e serial waited s) := by
  unfold execBlackEstimateDone
  split
  · exact Out.ite_keeps (Out.next_keeps (State.whenB_keeps (State.reportWeak_keeps
      (State.updCondFrame_keeps h ..) ..) _ _ fun _ ht => State.raise_keeps (State.bump_keeps ht ..) ..)) (Out.next_keeps h)
  · exact Out.next_keeps h

theorem execCondCal_keeps {s₀ s : State} (h : s₀.Keeps s) (id : Nat) : Out.Keeps s₀ (execCondCal id s) := by
  unfold execCondCal
  refine Out.next_keeps (State.startCmd_keeps h _ _ _ ?_)
  intro _ t ht
  extract_lets +onlyGivenNames _ _ _
  refine State.ite_keeps (State.complete_keeps ht ..) (State.ite_keeps (State.complete_keeps ht ..) (State.ite_keeps
    (State.complete_keeps ht ..) ?_))
  split
  · exact (State.Keeps.frame _).halfRunning ((State.Keeps.frame _).setRuns ht ..) ..
  · exact (State.Keeps.frame _).halfRunning ((State.Keeps.frame _).updRun ht ..) ..

theorem execCalRunStart_keeps {s₀ s : State} (h : s₀.Keeps s) (kind target : Nat) : Out.Keeps s₀ (execCalRunStart kind target s) := by
  unfold execCalRunStart
  split
  · exact Out.next_keeps h
  · extract_lets +onlyGivenNames _
    refine Out.ite_keeps (Out.next_keeps h) (Out.ite_keeps ?_ (Out.ite_keeps (Out.next_keeps h) (Out.ite_keeps (Out.next_keeps h)
      (Out.next_keeps ((State.Keeps.frame _).halfRunning ((State.Keeps.frame _).updRun h ..) ..)))))
    split
    · exact Out.next_keeps ((State.Keeps.frame _).updRun h ..)
    · exact Out.next_keeps h

theorem State.calFrame_keeps {s₀ s : State} (h : s₀.Keeps s) (e : Nat) (f : Frame) (cf : CondFrame) : s₀.Keeps (s.calFrame e f cf) :=
  (State.Keeps.frame _).updCond h ..

theorem State.columnUpdate_keeps {s₀ s : State} (h : s₀.Keeps s) (e : Nat) (f : Frame) (cf : CondFrame) :
    s₀.Keeps (s.columnUpdate e f cf) :=
  State.ite_keeps h ((State.Keeps.frame _).updCond h ..)

theorem State.showBlack_keeps {s₀ s : State} (h : s₀.Keeps s) (e : Nat) (f : Frame) (cf : CondFrame) : s₀.Keeps (s.showBlack e f cf) :=
  State.wr_keeps (State.wr_keeps (State.wr_keeps (State.wr_keeps h ..) ..) ..) ..

theorem State.columnNotice_keeps {s₀ s : State} (h : s₀.Keeps s) (e serial : Nat) : s₀.Keeps (s.columnNotice e serial) := by
  unfold State.columnNotice
  split
  · extract_lets +onlyGivenNames t
    have ht : s₀.Keeps t := State.whenB_keeps h _ _ fun _ ht => State.showBlack_keeps ht ..
    exact State.ite_keeps (State.calFrame_keeps (State.columnUpdate_keeps ht ..) ..) ht
  · exact h

theorem State.calStamp_keeps {s₀ s : State} (h : s₀.Keeps s) (kind target : Nat) : s₀.Keeps (s.calStamp kind target) :=
  State.ledgerAdd_keeps (State.tick_keeps (State.ite_keeps (State.wr_keeps (State.wr_keeps (State.wr_keeps (State.wr_keeps
    (State.wr_keeps (State.bump_keeps h ..) ..) ..) ..) ..) ..) (State.wr_keeps (State.wr_keeps (State.wr_keeps (State.wr_keeps
    (State.wr_keeps (State.bump_keeps h ..) ..) ..) ..) ..) ..))) ..

theorem State.calDone_keeps {s₀ s : State} (h : s₀.Keeps s) (kind target status : Nat) (cmds : List Nat) :
    s₀.Keeps (s.calDone kind target status cmds) :=
  State.raise_keeps (State.each_keeps h _ _ fun _ _ ht => State.complete_keeps ht ..) ..

theorem State.dpcReply_keeps {s₀ s : State} (h : s₀.Keeps s) (r : CalRun) (id : Nat) : s₀.Keeps (s.dpcReply r id) := by
  unfold State.dpcReply
  split
  · exact h
  · exact State.complete_keeps (State.ite_keeps h (State.emit_keeps h _)) ..

theorem State.movePhases_keeps {s₀ s : State} (h : s₀.Keeps s) (e : Nat) (moves : List Int) : s₀.Keeps (s.movePhases e moves) :=
  State.each_keeps h _ _ fun _ _ ht => State.updLane_keeps ht ..

theorem State.keepTrigger_keeps {s₀ s : State} (h : s₀.Keeps s) (kind e : Nat) : s₀.Keeps (s.keepTrigger kind e) :=
  (State.Keeps.frame _).updCond h ..

theorem State.calEnded_keeps {s₀ s : State} (h : s₀.Keeps s) (kind target : Nat) (values : List Int) (r : CalRun) :
    s₀.Keeps (s.calEnded kind target values r) := by
  unfold State.calEnded
  extract_lets +onlyGivenNames t t1
  have ht : s₀.Keeps t := State.calStamp_keeps ((State.Keeps.frame _).halfRunning ((State.Keeps.frame _).setRuns h ..) ..) ..
  have ht1 : s₀.Keeps t1 := State.ite_keeps (State.keepTrigger_keeps ht ..) ht
  refine State.ite_keeps ((State.Keeps.frame _).updCond ht1 ..) <| State.ite_keeps ?_ <|
    State.ite_keeps (State.calDone_keeps (State.movePhases_keeps ht1 ..) ..) <| State.ite_keeps ?_ <|
    State.ite_keeps (State.calDone_keeps (State.wr_keeps ht1 ..) ..)
      (State.calDone_keeps (State.raise_keeps (State.wr_keeps (State.wr_keeps ht1 ..) ..) ..) ..)
  · exact State.raise_keeps (State.each_keeps ht1 _ _ fun _ _ hu => State.dpcReply_keeps hu ..) ..
  · exact State.calDone_keeps ht1.same ..

theorem execCalRunEnd_keeps {s₀ s : State} (h :
    s₀.Keeps s) (kind target : Nat) (values : List Int) : Out.Keeps s₀ (execCalRunEnd kind target values s) := by
  unfold execCalRunEnd
  split
  · exact Out.next_keeps h
  · exact Out.ite_keeps (Out.next_keeps h) (Out.next_keeps (State.calEnded_keeps h ..))

theorem execCalDeferTimeout_keeps {s₀ s : State} (h :
    s₀.Keeps s) (kind target : Nat) : Out.Keeps s₀ (execCalDeferTimeout kind target s) := by
  unfold execCalDeferTimeout
  split
  · exact Out.next_keeps h
  · exact Out.ite_keeps (Out.next_keeps h) (Out.ite_keeps (Out.next_keeps (State.raise_keeps ((State.Keeps.frame _).updCond (State.wr_keeps
      (State.each_keeps ((State.Keeps.frame _).setRuns h ..) _ _ fun _ _ ht => State.complete_keeps ht ..) ..) ..) ..)) (Out.next_keeps
      (State.each_keeps ((State.Keeps.frame _).setRuns h ..) _ _ fun _ _ ht => State.complete_keeps ht ..)))

theorem State.calApply_keeps {s₀ s : State} (h : s₀.Keeps s) (e : Nat) (r : CalRun) : s₀.Keeps (s.calApply e r) :=
  State.calDone_keeps ((State.Keeps.frame _).updCond h ..) ..

theorem State.condTake_keeps {s₀ s : State} (h : s₀.Keeps s) (e : Nat) : s₀.Keeps (s.condTake e) := by
  unfold State.condTake
  split
  · exact h
  · extract_lets +onlyGivenNames _
    exact State.ite_keeps (State.wr_keeps (State.wr_keeps ((State.Keeps.frame _).updCond h ..) ..) ..) (State.ite_keeps h (State.wr_keeps
      ((State.Keeps.frame _).updCond (State.whenB_keeps
      (State.whenB_keeps h _ _ fun _ ht => State.hbmRead_keeps ht ..) _ _ fun _ ht => State.hbmRead_keeps ht ..) ..) ..))

theorem State.condFilter_keeps {s₀ s : State} (h : s₀.Keeps s) (e : Nat) : s₀.Keeps (s.condFilter e) := by
  unfold State.condFilter
  split
  · exact h
  · refine State.ite_keeps h ?_
    split
    · exact h
    · exact (State.Keeps.frame _).updCond h ..

theorem State.condFrameStart_keeps {s₀ s : State} (h : s₀.Keeps s) (e serial : Nat) : s₀.Keeps (s.condFrameStart e serial) :=
  (State.Keeps.frame _).updCond (State.each_keeps ((State.Keeps.frame _).updCond (State.condFilter_keeps
    (State.condTake_keeps h _) _) ..) _ _ fun _ _ ht => State.calApply_keeps ht ..) ..

/-! ### What the functions of Machine/Rings.lean keep. Their subject: The ring engine
(spec/11): doorbell polls, submission rings, decoding, completion and event records, and MSI-X. -/

theorem State.updRing_keeps {s₀ s : State} (h : s₀.Keeps s) (r : Nat) (f : RingSt → RingSt) : s₀.Keeps (s.updRing r f) :=
  State.updHost_keeps h _

theorem State.updQueue_keeps {s₀ s : State} (h : s₀.Keeps s) (q : Nat) (f : QueueSt → QueueSt) : s₀.Keeps (s.updQueue q f) :=
  State.updHost_keeps h _

theorem State.haltRing_keeps {s₀ s : State} (h : s₀.Keeps s) (r : Nat) : s₀.Keeps (s.haltRing r) :=
  State.updRing_keeps (State.wr_keeps h ..) ..

theorem State.writeRecord_keeps {s₀ s : State} (h : s₀.Keeps s) (q : Nat) (r : Rec) : s₀.Keeps (s.writeRecord q r) := by
  unfold State.writeRecord
  extract_lets +onlyGivenNames t _ _ s1 s2
  have hs1 : s₀.Keeps s1 := State.whenB_keeps (State.emit_keeps h _) _ _ fun _ ht => State.tick_keeps ht
  have hs2 : s₀.Keeps s2 := State.updQueue_keeps (State.wr_keeps hs1 ..) ..
  split
  · exact State.cmdRecorded_keeps hs2 _
  · exact hs2

theorem State.holdQueue_keeps {s₀ s : State} (h : s₀.Keeps s) (q : Nat) : s₀.Keeps (s.holdQueue q) :=
  State.ite_keeps (State.ite_keeps (State.updHost_keeps h _) (State.raise_keeps (State.flagCount_keeps (State.updQueue_keeps
    (State.updHost_keeps h _) ..) ..) ..)) h

theorem State.finishQueueResets_keeps {s₀ s : State} (h : s₀.Keeps s) : s₀.Keeps s.finishQueueResets :=
  State.each_keeps h _ _ fun _ _ ht => State.ite_keeps (State.complete_keeps ht ..) ht

theorem State.writeCompletion_keeps {s₀ s : State} (h : s₀.Keeps s) (q : Nat) : s₀.Keeps (s.writeCompletion q) := by
  unfold State.writeCompletion
  split
  · exact h
  · refine State.ite_keeps (State.finishQueueResets_keeps ?_) (State.ite_keeps (State.holdQueue_keeps h _)
      (State.finishQueueResets_keeps (State.writeRecord_keeps (State.updHost_keeps h _) ..)))
    split
    · exact State.cmdRecorded_keeps (State.updHost_keeps h _) _
    · exact State.updHost_keeps h _

theorem State.deliverEvent_keeps {s₀ s : State} (h : s₀.Keeps s) (r : Rec) : s₀.Keeps (s.deliverEvent r) :=
  State.ite_keeps (State.writeRecord_keeps h ..) (State.dropRecord_keeps h)

theorem State.checkLost_keeps {s₀ s : State} (h : s₀.Keeps s) : s₀.Keeps s.checkLost :=
  State.ite_keeps (State.writeRecord_keeps (State.updHost_keeps (State.tick_keeps (State.wr_keeps h ..)) _) ..) h

theorem State.writeEvent_keeps {s₀ s : State} (h : s₀.Keeps s) : s₀.Keeps s.writeEvent := by
  unfold State.writeEvent
  split
  · exact State.checkLost_keeps h
  · extract_lets +onlyGivenNames t
    have ht : s₀.Keeps t := State.updHost_keeps h _
    exact State.ite_keeps (State.ite_keeps (State.updHost_keeps ht _) (State.dropRecord_keeps ht)) (State.checkLost_keeps
      (State.deliverEvent_keeps ht _))

theorem State.writeHeld_keeps {s₀ s : State} (h : s₀.Keeps s) (q n : Nat) : s₀.Keeps (s.writeHeld q n) := by
  induction n generalizing s with
  | zero => exact h
  | succ n ih => exact State.ite_keeps (ih (State.writeCompletion_keeps h _)) h

theorem execGlbEvTestWrite_keeps {s₀ s : State} (h : s₀.Keeps s) (v : Nat) : Out.Keeps s₀ (execGlbEvTestWrite v s) :=
  Out.next_keeps (State.raise_keeps h ..)

theorem execRingEnable_keeps {s₀ s : State} (h : s₀.Keeps s) (r v : Nat) : Out.Keeps s₀ (execRingEnable r v s) :=
  Out.ite_keeps (Out.next_keeps (State.wr_keeps h ..)) (Out.ite_keeps (Out.next_keeps h) (Out.next_keeps (State.updHost_keeps
    (State.updRing_keeps (State.wr_keeps (State.wr_keeps (State.wr_keeps (State.wr_keeps (State.wr_keeps h ..) ..) ..) ..) ..) ..) _)))

theorem execRingDisable_keeps {s₀ s : State} (h : s₀.Keeps s) (r v : Nat) : Out.Keeps s₀ (execRingDisable r v s) :=
  Out.ite_keeps (Out.next_keeps (State.wr_keeps h ..)) (Out.next_keeps (State.updRing_keeps (State.wr_keeps (State.wr_keeps
    (State.wr_keeps (State.wr_keeps h ..) ..) ..) ..) ..))

theorem State.cqFields_keeps {s₀ s : State} (h : s₀.Keeps s) (q v : Nat) : s₀.Keeps (s.cqFields q v) :=
  State.wr_keeps (State.wr_keeps (State.wr_keeps (State.wr_keeps h ..) ..) ..) ..

theorem execCqEnable_keeps {s₀ s : State} (h : s₀.Keeps s) (q v : Nat) : Out.Keeps s₀ (execCqEnable q v s) :=
  Out.ite_keeps (Out.next_keeps (State.wr_keeps h ..)) (Out.ite_keeps (Out.next_keeps (State.cqFields_keeps h ..)) (Out.next_keeps
    (State.updHost_keeps (State.updQueue_keeps (State.wr_keeps (State.wr_keeps (State.wr_keeps
    (State.cqFields_keeps h ..) ..) ..) ..) ..) _)))

theorem execCqDisable_keeps {s₀ s : State} (h : s₀.Keeps s) (q v : Nat) : Out.Keeps s₀ (execCqDisable q v s) :=
  Out.ite_keeps (Out.next_keeps (State.wr_keeps h ..)) (Out.next_keeps (State.wr_keeps (State.cqFields_keeps h ..) ..))

theorem execEvqEnable_keeps {s₀ s : State} (h : s₀.Keeps s) (v : Nat) : Out.Keeps s₀ (execEvqEnable v s) := by
  unfold execEvqEnable
  extract_lets +onlyGivenNames t
  have ht : s₀.Keeps t := State.wr_keeps (State.wr_keeps h ..) ..
  exact Out.ite_keeps (Out.next_keeps ht) (Out.next_keeps (State.checkLost_keeps (State.each_keeps
    (State.updHost_keeps ht _) _ _ fun _ _ ht => State.deliverEvent_keeps ht _)))

theorem execDoorbellPoll_keeps {s₀ s : State} (h : s₀.Keeps s) : Out.Keeps s₀ (execDoorbellPoll s) :=
  Out.ite_keeps (Out.next_keeps (State.ite_keeps (State.emit_keeps (State.emit_keeps (State.updHost_keeps h _) _) _) (State.emit_keeps
    (State.updHost_keeps h _) _))) (Out.next_keeps h)

theorem State.pollQueue_keeps {s₀ s : State} (h : s₀.Keeps s) (page : List Nat) (q : Nat) : s₀.Keeps (State.pollQueue page s q) :=
  State.ite_keeps (State.writeHeld_keeps (State.whenB_keeps (State.wr_keeps
    (State.holdQueue_keeps h _) ..) _ _ fun _ ht => State.updQueue_keeps ht ..) ..) h

theorem State.pollRing_keeps {s₀ s : State} (h : s₀.Keeps s) (page : List Nat) (r : Nat) : s₀.Keeps (State.pollRing page s r) := by
  unfold State.pollRing
  extract_lets +onlyGivenNames _
  exact State.ite_keeps (State.ite_keeps (State.raise_keeps (State.flagCount_keeps (State.haltRing_keeps h _) ..) ..)
    (State.updRing_keeps h ..)) h

theorem State.pollBarrow_keeps {s₀ s : State} (h : s₀.Keeps s) (page : List Nat) (c : Nat) : s₀.Keeps (State.pollBarrow page s c) := by
  unfold State.pollBarrow
  extract_lets +onlyGivenNames _ _
  exact State.ite_keeps (State.updHost_keeps h _) h

theorem execDescriptorFetch_keeps {s₀ s : State} (h : s₀.Keeps s) : Out.Keeps s₀ (execDescriptorFetch s) := by
  unfold execDescriptorFetch
  split
  · exact Out.next_keeps h
  · exact Out.next_keeps (State.emit_keeps (State.updHost_keeps (State.updRing_keeps h ..) _) _)

theorem execDescriptorFetchReturn_keeps {s₀ s : State} (h :
    s₀.Keeps s) (r : Nat) (data : Option (List Byte)) : Out.Keeps s₀ (execDescriptorFetchReturn r data s) := by
  unfold execDescriptorFetchReturn
  split
  · exact Out.next_keeps h
  · exact Out.next_keeps (State.raise_keeps (State.flagCount_keeps (State.haltRing_keeps h _) ..) ..)
  · exact Out.next_keeps (State.updRing_keeps h ..)

theorem State.decodeOne_keeps {s₀ s : State} (h : s₀.Keeps s) (r : Nat) (d : List Byte) : s₀.Keeps (s.decodeOne r d) := by
  unfold State.decodeOne
  extract_lets +onlyGivenNames _ _ s1 s2
  have hs1 : s₀.Keeps s1 := State.updRing_keeps (State.wr_keeps h ..) ..
  have hs2 : s₀.Keeps s2 := State.updHost_keeps hs1 _
  exact State.ite_keeps (State.raise_keeps (State.flagCount_keeps hs2 ..) ..) (State.ite_keeps (State.countOutstanding_keeps
    (State.updHost_keeps hs2 _)) (State.complete_keeps (State.countOutstanding_keeps (State.updHost_keeps hs2 _)) ..))

theorem execFenceRelease_keeps {s₀ s : State} (h : s₀.Keeps s) (id : Nat) : Out.Keeps s₀ (execFenceRelease id s) := by
  unfold execFenceRelease
  split
  · exact Out.next_keeps h
  · exact Out.ite_keeps (Out.next_keeps (State.updCmd_keeps h ..)) (Out.next_keeps h)

theorem execNop_keeps {s₀ s : State} (h : s₀.Keeps s) (id : Nat) : Out.Keeps s₀ (execNop id s) :=
  Out.next_keeps (State.startCmd_keeps h _ _ _ fun _ _ ht => State.complete_keeps ht ..)

theorem execEventRecordWrite_keeps {s₀ s : State} (h : s₀.Keeps s) : Out.Keeps s₀ (execEventRecordWrite s) :=
  Out.next_keeps (State.writeEvent_keeps h)

theorem State.signal_keeps {s₀ s : State} (h : s₀.Keeps s) (q : Nat) : s₀.Keeps (s.signal q) := by
  unfold State.signal
  extract_lets +onlyGivenNames _ t
  have ht : s₀.Keeps t := State.updQueue_keeps h ..
  exact State.ite_keeps (State.updHost_keeps ht _) (State.emit_keeps ht _)

theorem execMsixMessageSend_keeps {s₀ s : State} (h : s₀.Keeps s) (q : Nat) : Out.Keeps s₀ (execMsixMessageSend q s) :=
  Out.ite_keeps (Out.next_keeps (State.signal_keeps h _)) (Out.next_keeps h)

theorem execMsixCoalesceTimeout_keeps {s₀ s : State} (h : s₀.Keeps s) (q : Nat) : Out.Keeps s₀ (execMsixCoalesceTimeout q s) :=
  Out.ite_keeps (Out.next_keeps (State.signal_keeps h _)) (Out.next_keeps h)

theorem execMsixVectorUnmask_keeps {s₀ s : State} (h : s₀.Keeps s) (v : Nat) : Out.Keeps s₀ (execMsixVectorUnmask v s) := by
  unfold execMsixVectorUnmask
  extract_lets +onlyGivenNames _ t
  have ht : s₀.Keeps t := State.updHost_keeps h _
  exact Out.next_keeps (State.ite_keeps (State.emit_keeps ht _) ht)

/-! ### What the functions of Machine/Colour.lean keep. Their subject: Palettes, the shadow sets of the colour path and the views,
and statistics (spec/06). -/

theorem State.updPal_keeps {s₀ s : State} (h : s₀.Keeps s) (e : Nat) (f : PalSt → PalSt) : s₀.Keeps (s.updPal e f) :=
  h.same

theorem State.palSlots_keeps {s₀ s : State} (h : s₀.Keeps s) (e : Nat) : s₀.Keeps (s.palSlots e) :=
  State.wr_keeps (State.wr_keeps h ..) ..

theorem execPalCommit_keeps {s₀ s : State} (h : s₀.Keeps s) (e : Nat) : Out.Keeps s₀ (execPalCommit e s) :=
  Out.ite_keeps (Out.next_keeps (State.wr_keeps h ..)) (Out.next_keeps (State.palSlots_keeps (State.updPal_keeps
    (State.wr_keeps h ..) ..) _))

theorem execViewCommit_keeps {s₀ s : State} (h : s₀.Keeps s) (v : Nat) : Out.Keeps s₀ (execViewCommit v s) :=
  Out.ite_keeps (Out.next_keeps (State.wr_keeps h ..)) (Out.next_keeps ((State.Keeps.frame _).viewSlots ((State.Keeps.frame _).updView
    (State.wr_keeps h ..) ..) _))

theorem State.palApply_keeps {s₀ s : State} (h : s₀.Keeps s) (e : Nat) (r : RegStore) : s₀.Keeps (s.palApply e r) := by
  unfold State.palApply
  extract_lets +onlyGivenNames _ _ t
  have ht : s₀.Keeps t := State.palSlots_keeps (State.wr_keeps (State.updPal_keeps h ..) ..) _
  exact State.ite_keeps (State.wr_keeps (State.wr_keeps ht ..) ..) ht

theorem State.palChecked_keeps {s₀ s : State} (h : s₀.Keeps s) (e : Nat) (r : RegStore) : s₀.Keeps (s.palChecked e r) := by
  unfold State.palChecked
  extract_lets +onlyGivenNames _ _ t
  have ht : s₀.Keeps t := State.updPal_keeps h ..
  exact State.ite_keeps (State.palSlots_keeps (State.updPal_keeps ht ..) _) (State.palSlots_keeps (State.wr_keeps (State.whenB_keeps
    (State.whenB_keeps ht _ _ fun _ ht => State.wr_keeps ht ..) _ _ fun _ ht => State.wr_keeps ht ..) ..) _)

theorem State.viewChecked_keeps {s₀ s : State} (h : s₀.Keeps s) (v : Nat) (r : RegStore) : s₀.Keeps (s.viewChecked v r) := by
  unfold State.viewChecked
  extract_lets +onlyGivenNames _ _ _ t
  have ht : s₀.Keeps t := (State.Keeps.frame _).updView h ..
  exact State.ite_keeps (State.ite_keeps ((State.Keeps.frame _).viewApply ht ..) ((State.Keeps.frame _).viewSlots ((State.Keeps.frame _).updView ht ..) _))
    ((State.Keeps.frame _).viewSlots (State.wr_keeps (State.whenB_keeps (State.whenB_keeps
    (State.whenB_keeps ht _ _ fun _ ht => State.wr_keeps ht ..) _ _ fun _ ht => State.wr_keeps ht ..) _ _ fun _ ht => State.wr_keeps ht
    ..) ..) _)

theorem execColourCommitCheckDone_keeps {s₀ s : State} (h :
    s₀.Keeps s) (view : Bool) (i : Nat) : Out.Keeps s₀ (execColourCommitCheckDone view i s) := by
  unfold execColourCommitCheckDone
  refine Out.ite_keeps (Out.ite_keeps (Out.next_keeps h) ?_) ?_
  · split
    · exact Out.next_keeps (State.viewChecked_keeps h ..)
    · exact Out.next_keeps h
  · split
    · exact Out.next_keeps (State.palChecked_keeps h ..)
    · exact Out.next_keeps h

theorem State.updSlotOf_keeps {s₀ s : State} (h : s₀.Keeps s) (c : Cmd) (f : PalSlot → PalSlot) : s₀.Keeps (s.updSlotOf c f) := by
  unfold State.updSlotOf
  extract_lets +onlyGivenNames _
  exact State.ite_keeps ((State.Keeps.frame _).viewSlots ((State.Keeps.frame _).updView h ..) _) (State.palSlots_keeps (State.updPal_keeps h ..) _)

theorem execPalLoad_keeps {s₀ s : State} (h : s₀.Keeps s) (id : Nat) : Out.Keeps s₀ (execPalLoad id s) :=
  Out.ite_keeps (Out.next_keeps (State.waitPlan_keeps h _)) (Out.next_keeps (State.startCmd_keeps h _ _ _ fun _ _ ht => State.ite_keeps
    (State.complete_keeps ht ..) (State.ite_keeps (State.complete_keeps ht ..) (State.emit_keeps (State.updSlotOf_keeps ht ..) _))))

theorem execPalLoadComplete_keeps {s₀ s : State} (h :
    s₀.Keeps s) (id : Nat) (image : List Byte) : Out.Keeps s₀ (execPalLoadComplete id image s) := by
  unfold execPalLoadComplete
  refine Out.next_keeps (State.withCmd_keeps h _ _ ?_)
  intro _ t ht
  refine State.ite_keeps ?_ ht
  split
  · exact State.complete_keeps (State.updSlotOf_keeps (State.put_keeps (State.put_keeps ht ..) ..) ..) ..
  · exact State.complete_keeps (State.updSlotOf_keeps ht ..) ..

theorem State.palFrameStart_keeps {s₀ s : State} (h : s₀.Keeps s) (e serial : Nat) : s₀.Keeps (s.palFrameStart e serial) := by
  unfold State.palFrameStart
  refine State.updPal_keeps (State.each_keeps (State.each_keeps ?_ _ _ ?_) _ _ fun t _ ht => State.wr_keeps ht ..) ..
  · split
    · exact State.palApply_keeps h ..
    · exact h
  · intro t _ ht
    split
    · exact State.ite_keeps ((State.Keeps.frame _).viewApply ht ..) ht
    · exact ht

theorem State.statTile_keeps {s₀ s : State} (h : s₀.Keeps s) (e serial w half x0 y0 : Nat) (samples : List Nat) (damaged : Bool) :
    s₀.Keeps (s.statTile e serial w half x0 y0 samples damaged) :=
  State.updPal_keeps h ..

theorem State.statsNotice_keeps {s₀ s : State} (h : s₀.Keeps s) (e serial : Nat) : s₀.Keeps (s.statsNotice e serial) := by
  unfold State.statsNotice
  split
  · exact State.ite_keeps (State.updPal_keeps h ..) h
  · exact h

theorem State.statsPost_keeps {s₀ s : State} (h : s₀.Keeps s) (e : Nat) (f : Frame) (g : StatFrame) : s₀.Keeps (s.statsPost e f g) := by
  unfold State.statsPost
  extract_lets +onlyGivenNames _ _ _ _ _
  exact State.ite_keeps (State.raise_keeps (State.flagCount_keeps h ..) ..) (State.postUnsolicited_keeps (State.wr_keeps
    (State.emit_keeps h _) ..) ..)

theorem execStatsRecordPost_keeps {s₀ s : State} (h : s₀.Keeps s) (e : Nat) : Out.Keeps s₀ (execStatsRecordPost e s) := by
  unfold execStatsRecordPost
  split
  · exact Out.next_keeps h
  · split
    · exact Out.next_keeps h
    · extract_lets +onlyGivenNames t
      have ht : s₀.Keeps t := State.updPal_keeps h ..
      split
      · exact Out.next_keeps (State.statsPost_keeps ht ..)
      · exact Out.next_keeps ht

/-! ### What the functions of Machine/Pack.lean keep. Their subject: The packed bitstream
(spec/07): tokens, items, the phrase dictionary, encoding and decoding of a tile. -/

theorem State.tileSeen_keeps {s₀ s : State} (h : s₀.Keeps s) (r : TileReader) (half : Nat) (payload rec : List Byte) (failed : Bool) :
    s₀.Keeps (s.tileSeen r half payload rec failed) := by
  unfold State.tileSeen
  split
  · extract_lets +onlyGivenNames site
    clear_value site
    split
    · exact State.raise_keeps (State.countUp_keeps h ..) ..
    · exact h
  · exact State.whenB_keeps h _ _ fun _ ht => State.countUp_keeps ht ..

/-! ### What the functions of Machine/Views.lean keep. Their subject: The colour units, the view scalers and the picture rings
(spec/06). -/

theorem State.canvasRead_keeps {s₀ s : State} (h : s₀.Keeps s) (e k tile : Nat) : s₀.Keeps (s.canvasRead e k tile) :=
  State.hbmRead_keeps (State.hbmRead_keeps h ..) ..

theorem State.colourCheck_keeps {s₀ s : State} (h : s₀.Keeps s) (e k : Nat) (f : Frame) (tile : Nat) :
    s₀.Keeps (s.colourCheck e k f tile) :=
  State.whenB_keeps (State.tileSeen_keeps (State.canvasRead_keeps h ..) ..) _ _ fun _ ht => State.tileHurt_keeps ht ..

theorem State.colourChecks_keeps {s₀ s : State} (h : s₀.Keeps s) (e v : Nat) (f : Frame) (g : StatFrame) :
    s₀.Keeps (s.colourChecks e v f g) := by
  unfold State.colourChecks
  split
  · exact h
  · exact State.updPal_keeps (State.each_keeps h _ _ fun _ _ ht => State.colourCheck_keeps ht ..) ..

theorem State.palRead_keeps {s₀ s : State} (h : s₀.Keeps s) (p : PalSlot) : s₀.Keeps (s.palRead p) := by
  unfold State.palRead
  split
  · exact State.hbmRead_keeps h ..
  · exact h

theorem State.viewsRun_keeps {s₀ s : State} (h : s₀.Keeps s) : s₀.Keeps s.viewsRun :=
  State.tick_keeps (State.each_keeps h _ _ fun _ _ ht => (State.Keeps.frame _).updView ht ..)

theorem State.pictureDrop_keeps {s₀ s : State} (h : s₀.Keeps s) (v : Nat) : s₀.Keeps (s.pictureDrop v) :=
  State.raise_keeps (State.flagCount_keeps h ..) ..

theorem State.pictureStart_keeps {s₀ s : State} (h : s₀.Keeps s) (v e : Nat) (f : Frame) : s₀.Keeps (s.pictureStart v e f).1 := by
  unfold State.pictureStart
  extract_lets +onlyGivenNames _
  split
  · split
    · exact State.pictureDrop_keeps h _
    · exact State.tick_keeps ((State.Keeps.frame _).updView ((State.Keeps.frame _).updViewSlot h ..) ..)
  · split
    · split
      · split
        · exact State.tick_keeps ((State.Keeps.frame _).updView h ..)
        · exact State.pictureDrop_keeps h _
      · exact State.pictureDrop_keeps h _
    · exact State.pictureDrop_keeps h _

theorem State.pictureEnd_keeps {s₀ s : State} (h : s₀.Keeps s) (v k : Nat) (x : ViewSlot) (f : Frame) (g : StatFrame) (old : Bool) :
    s₀.Keeps (s.pictureEnd v k x f g old) :=
  State.tick_keeps (State.put_keeps (State.put_keeps (State.each_keeps (State.colourChecks_keeps (State.bump_keeps
    ((State.Keeps.frame _).updView h ..) ..) ..) _ _ fun _ _ ht => State.palRead_keeps ht _) ..) ..)

theorem execViewPictureDone_keeps {s₀ s : State} (h : s₀.Keeps s) (v : Nat) : Out.Keeps s₀ (execViewPictureDone v s) := by
  unfold execViewPictureDone
  split
  · exact Out.next_keeps h
  · split
    · exact Out.ite_keeps (Out.next_keeps (State.pictureEnd_keeps h ..)) (Out.next_keeps h)
    · exact Out.next_keeps h

theorem State.pictureNotice_keeps {s₀ s : State} (h : s₀.Keeps s) (v k : Nat) (x : ViewSlot) (f : Frame)
    (put : State → ViewSlot → State) (hput : ∀ t y, s₀.Keeps t → s₀.Keeps (put t y)) : s₀.Keeps (s.pictureNotice v k x f put) :=
  State.ite_keeps (State.put_keeps (State.bump_keeps (hput _ _ h) ..) ..)
    (State.whenB_keeps (hput _ _ h) _ _ fun _ ht => State.put_keeps ht ..)

theorem State.viewNotice_keeps {s₀ s : State} (h : s₀.Keeps s) (e serial : Nat) : s₀.Keeps (s.viewNotice e serial) := by
  unfold State.viewNotice
  split
  · exact h
  · refine State.each_keeps h _ _ ?_
    intro t _ ht
    extract_lets +onlyGivenNames _ t
    have ht : s₀.Keeps t := State.each_keeps ht _ _ fun _ _ hu => State.pictureNotice_keeps hu _ _ _ _ _ fun _ _ hv =>
      (State.Keeps.frame _).updViewSlot hv ..
    split
    · exact ht
    · exact State.each_keeps ht _ _ fun _ _ hu => State.pictureNotice_keeps hu _ _ _ _ _ fun _ _ hv => (State.Keeps.frame _).updView hv ..

theorem State.takeViewHold_keeps {s₀ s : State} (h : s₀.Keeps s) (v k : Nat) (half : ViewHolder) : s₀.Keeps (s.takeViewHold v k half) :=
  (State.Keeps.frame _).updViewSlot h ..

/-! ### What the functions of Machine/Packer.lean keep. Their subject: The packer lanes, the lane rings, the decode units and the
ratio watch (spec/07). -/

theorem State.packTake_keeps {s₀ s : State} (h : s₀.Keeps s) (half k : Nat) (x : Nat × Nat × Nat) : s₀.Keeps (s.packTake half k x) :=
  (State.Keeps.frame _).packStatus ((State.Keeps.frame _).packHold (State.wr_keeps ((State.Keeps.frame _).updPack ((State.Keeps.frame _).updPackLane (State.whenB_keeps
    (State.tileSeen_keeps (State.whenB_keeps h _ _ fun _ ht => State.canvasRead_keeps ht ..) ..) _ _ fun _ ht => State.raise_keeps
    (State.flagCount_keeps (State.tileHurt_keeps ht ..) ..) ..) ..) ..) ..) ..) _

theorem execPackerTileTake_keeps {s₀ s : State} (h : s₀.Keeps s) (half : Nat) : Out.Keeps s₀ (execPackerTileTake half s) := by
  unfold execPackerTileTake
  refine Out.ite_keeps (Out.next_keeps h) ?_
  split
  · exact Out.next_keeps h
  · split
    · exact Out.next_keeps h
    · exact Out.next_keeps (State.ite_keeps h (State.packTake_keeps h ..))

theorem State.putRing_keeps {s₀ s : State} (h : s₀.Keeps s) (base size off : Nat) (bs : List Byte) :
    s₀.Keeps (s.putRing base size off bs) :=
  State.put_keeps (State.put_keeps h ..) ..

theorem State.addBytes_keeps {s₀ s : State} (h : s₀.Keeps s) (e n : Nat) : s₀.Keeps (s.addBytes e n) :=
  State.wr_keeps (State.wr_keeps h ..) ..

theorem State.stallLane_keeps {s₀ s : State} (h : s₀.Keeps s) (half l : Nat) : s₀.Keeps (s.stallLane half l) :=
  (State.Keeps.frame _).packStatus (State.whenB_keeps (State.flagCount_keeps
    ((State.Keeps.frame _).updPackLane h ..) ..) _ _ fun _ ht => State.raise_keeps ht ..) _

theorem State.lanePass_keeps {s₀ s : State} (h : s₀.Keeps s) (half l : Nat) (p : PackTile) : s₀.Keeps (s.lanePass half l p).1 :=
  (State.Keeps.frame _).updPackLane (State.putRing_keeps h ..) ..

theorem State.laneWrite_keeps {s₀ s : State} (h : s₀.Keeps s) (half l : Nat) (p : PackTile) : s₀.Keeps (s.laneWrite half l p).1 := by
  unfold State.laneWrite
  extract_lets +onlyGivenNames _
  split
  · exact State.lanePass_keeps ((State.Keeps.frame _).updPackLane (State.lanePass_keeps h ..) ..) ..
  · exact State.lanePass_keeps h ..

theorem State.laneCommit_keeps {s₀ s : State} (h : s₀.Keeps s) (half l : Nat) (p : PackTile) : s₀.Keeps (s.laneCommit half l p) :=
  (State.Keeps.frame _).packStatus (State.ite_keeps ((State.Keeps.frame _).packHold ((State.Keeps.frame _).updPack (State.wr_keeps ((State.Keeps.frame _).updPackLane
    (State.putRing_keeps h ..) ..) ..) ..) ..) (State.ite_keeps ((State.Keeps.frame _).updPack (State.wr_keeps ((State.Keeps.frame _).updPackLane
    (State.putRing_keeps h ..) ..) ..) ..) (State.addBytes_keeps (State.bump_keeps ((State.Keeps.frame _).updPack (State.wr_keeps
    ((State.Keeps.frame _).updPackLane (State.putRing_keeps h ..) ..) ..) ..) ..) ..))) _

theorem execPackerTileCommit_keeps {s₀ s : State} (h : s₀.Keeps s) (half l : Nat) : Out.Keeps s₀ (execPackerTileCommit half l s) := by
  unfold execPackerTileCommit
  extract_lets +onlyGivenNames _
  split
  · exact Out.next_keeps h
  · exact Out.ite_keeps (Out.next_keeps h) (Out.next_keeps (State.ite_keeps (State.laneCommit_keeps (State.laneWrite_keeps h ..) ..)
      (State.stallLane_keeps (State.laneWrite_keeps h ..) ..)))

theorem execLaneRingResume_keeps {s₀ s : State} (h : s₀.Keeps s) (half l : Nat) : Out.Keeps s₀ (execLaneRingResume half l s) := by
  unfold execLaneRingResume
  extract_lets +onlyGivenNames _
  split
  · exact Out.next_keeps h
  · exact Out.ite_keeps (Out.next_keeps (State.ite_keeps ((State.Keeps.frame _).packStatus (State.laneWrite_keeps
      ((State.Keeps.frame _).updPackLane h ..) ..) _) (State.stallLane_keeps (State.laneWrite_keeps ((State.Keeps.frame _).updPackLane h ..) ..) ..)))
      (Out.next_keeps h)

theorem State.packForget_keeps {s₀ s : State} (h : s₀.Keeps s) (e serial : Nat) : s₀.Keeps (s.packForget e serial) :=
  State.each_keeps h _ _ fun _ _ ht => (State.Keeps.frame _).updPack ht ..

theorem State.packNotice_keeps {s₀ s : State} (h : s₀.Keeps s) (e serial : Nat) : s₀.Keeps (s.packNotice e serial) := by
  unfold State.packNotice
  split
  · exact State.ite_keeps ((State.Keeps.frame _).packDrop h ..) h
  · exact h

theorem State.ratioDone_keeps {s₀ s : State} (h : s₀.Keeps s) (e : Nat) (f : Frame) : s₀.Keeps (s.ratioDone e f) := by
  unfold State.ratioDone
  extract_lets +onlyGivenNames _ _ _ t
  have ht : s₀.Keeps t := State.each_keeps h _ _ fun _ _ ht => (State.Keeps.frame _).updPack ht ..
  exact State.ite_keeps ht (State.ite_keeps (State.raise_keeps (State.each_keeps (State.wr_keeps
    (State.wr_keeps ht ..) ..) _ _ fun _ _ ht => State.wr_keeps ht ..) ..) (State.wr_keeps (State.wr_keeps ht ..) ..))

theorem execFrameRatioCompute_keeps {s₀ s : State} (h :
    s₀.Keeps s) (e serial : Nat) : Out.Keeps s₀ (execFrameRatioCompute e serial s) := by
  unfold execFrameRatioCompute
  split
  · exact Out.next_keeps (State.ite_keeps (State.ratioDone_keeps h ..) h)
  · exact Out.next_keeps h

theorem State.decodeFault_keeps {s₀ s : State} (h : s₀.Keeps s) (half e serial tile code bit : Nat) :
    s₀.Keeps (s.decodeFault half e serial tile code bit) :=
  State.raise_keeps (State.ite_keeps (State.flagCount_keeps h ..) (State.wr_keeps (State.wr_keeps (State.wr_keeps (State.wr_keeps
    (State.wr_keeps (State.wr_keeps (State.wr_keeps (State.flagCount_keeps h ..) ..) ..) ..) ..) ..) ..) ..)) ..

theorem State.playbackSeen_keeps {s₀ s : State} (h : s₀.Keeps s) (half e serial : Nat) (rec out : List Byte) :
    s₀.Keeps (s.playbackSeen half e serial rec out) :=
  State.tileSeen_keeps h ..

theorem State.playbackTile_keeps {s₀ s : State} (h : s₀.Keeps s) (half e serial : Nat) (rec : List Byte)
    (d : List Byte × List Byte × Option (Nat × Nat)) : s₀.Keeps (s.playbackTile half e serial rec d) := by
  unfold State.playbackTile
  split
  · exact State.whenB_keeps (State.decodeFault_keeps h ..) _ _ fun _ ht => State.countUp_keeps ht ..
  · exact State.playbackSeen_keeps h ..

theorem execTileDecode_keeps {s₀ s : State} (h :
    s₀.Keeps s) (half e serial : Nat) (rec payload : List Byte) : Out.Keeps s₀ (execTileDecode half e serial rec payload s) :=
  Out.ite_keeps (Out.next_keeps h) (Out.next_keeps (State.playbackTile_keeps ((State.Keeps.frame _).updPack h ..) ..))

/-! ### What the functions of Machine/Media.lean keep. Their subject: What stands on a magazine, byte by byte
(spec/10): headers, WIP records, ledger records, segments, and reads of codewords. -/

theorem State.updReel_keeps {s₀ s : State} (h : s₀.Keeps s) (p : Nat) (f : Reel → Reel) : s₀.Keeps (s.updReel p f) :=
  (State.Keeps.frame _).updPort h ..

theorem State.updMag_keeps {s₀ s : State} (h : s₀.Keeps s) (p : Nat) (f : Magazine → Magazine) : s₀.Keeps (s.updMag p f) :=
  (State.Keeps.frame _).updPort h ..

theorem State.updTakeFrame_keeps {s₀ s : State} (h : s₀.Keeps s) (e serial : Nat) (f : TakeFrame → TakeFrame) :
    s₀.Keeps (s.updTakeFrame e serial f) :=
  (State.Keeps.frame _).updTake h ..

theorem State.markSet_keeps {s₀ s : State} (h : s₀.Keeps s) (p set : Nat) : s₀.Keeps (s.markSet p set) :=
  State.wr_keeps ((State.Keeps.frame _).updPort h ..) ..

theorem State.readCw_keeps {s₀ s : State} (h : s₀.Keeps s) (p : Nat) (place : PuPlace) (page cw step bits : Nat) :
    s₀.Keeps (s.readCw p place page cw step bits) := by
  unfold State.readCw
  extract_lets +onlyGivenNames _ t
  have ht : s₀.Keeps t := State.ite_keeps (State.raise_keeps (State.flagCount_keeps h ..) ..) (State.ite_keeps (State.raise_keeps
    (State.flagCount_keeps h ..) ..) h)
  refine State.ite_keeps ?_ ht
  split
  · exact State.markSet_keeps ht ..
  · exact ht

theorem State.countReads_keeps {s₀ s : State} (h : s₀.Keeps s) (p die block n : Nat) : s₀.Keeps (s.countReads p die block n) := by
  unfold State.countReads
  extract_lets +onlyGivenNames _ t
  have ht : s₀.Keeps t := (State.Keeps.frame _).updPort h ..
  refine State.ite_keeps ht ?_
  split
  · exact State.markSet_keeps ht ..
  · exact ht

theorem State.pageRead_keeps {s₀ s : State} (h : s₀.Keeps s) (p : Nat) (z : PuPlace) (page : Nat) : s₀.Keeps (s.pageRead p z page) := by
  unfold State.pageRead
  split
  · refine State.foldl_keeps ?_ _ _ fun _ _ ht => State.readCw_keeps ht ..
    split
    · exact State.ite_keeps (State.foldl_keeps (State.whenB_keeps (State.countReads_keeps (State.ite_keeps h
        (State.tick_keeps h)) ..) _ _ fun _ ht => State.emit_keeps
        (State.each_keeps ht _ _ fun _ _ hu => State.emit_keeps hu _) _) _ _ fun _ _ ht => State.countReads_keeps ht ..)
        (State.whenB_keeps (State.countReads_keeps (State.ite_keeps h (State.tick_keeps h)) ..) _ _ fun _ ht => State.emit_keeps
        (State.each_keeps ht _ _ fun _ _ hu => State.emit_keeps hu _) _)
    · exact State.whenB_keeps (State.countReads_keeps (State.ite_keeps h (State.tick_keeps h)) ..) _ _ fun _ ht => State.emit_keeps
        (State.each_keeps ht _ _ fun _ _ hu => State.emit_keeps hu _) _
  · exact h

/-! ### What the functions of Machine/Store.lean keep. Their subject: The reel tables, the reel ledger, and the life of a take
(spec/10, spec/12). -/

theorem State.rollRecord_keeps {s₀ s : State} (h : s₀.Keeps s) (roll : Nat) : s₀.Keeps (s.rollRecord roll) :=
  State.ledgerAdd_keeps h ..

theorem State.takeFrameStart_keeps {s₀ s : State} (h : s₀.Keeps s) (e serial stamp : Nat) :
    s₀.Keeps (s.takeFrameStart e serial stamp) := by
  unfold State.takeFrameStart
  extract_lets +onlyGivenNames t
  exact State.ite_keeps (State.each_keeps ((State.Keeps.frame _).updFrame
    ((State.Keeps.frame _).updTake h ..) ..) _ _ fun _ _ ht => (State.Keeps.frame _).exposure ht _) h

theorem State.scrapedOut_keeps {s₀ s : State} (h : s₀.Keeps s) (e serial : Nat) : s₀.Keeps (s.scrapedOut e serial) :=
  State.ite_keeps (State.bump_keeps ((State.Keeps.frame _).dropTakeFrame h ..) ..) h

theorem State.storeNotice_keeps {s₀ s : State} (h : s₀.Keeps s) (e serial : Nat) : s₀.Keeps (s.storeNotice e serial) := by
  unfold State.storeNotice
  split
  · exact State.ite_keeps (State.each_keeps ((State.Keeps.frame _).takeCheck
      (State.scrapedOut_keeps h ..) _) _ _ fun _ _ ht => (State.Keeps.frame _).exposure ht _) (State.ite_keeps (State.each_keeps (State.each_keeps
      (State.updTakeFrame_keeps h ..) _ _ fun _ _ ht => (State.Keeps.frame _).ledgerPut ht ..) _ _ fun _ _ ht => (State.Keeps.frame _).exposure ht _) h)
  · exact State.ite_keeps ((State.Keeps.frame _).packDiscard h ..) h
  · exact h

theorem State.frameCommitted_keeps {s₀ s : State} (h : s₀.Keeps s) (p e serial : Nat) : s₀.Keeps (s.frameCommitted p e serial) := by
  unfold State.frameCommitted
  extract_lets +onlyGivenNames t
  have ht : s₀.Keeps t := State.updTakeFrame_keeps h ..
  split
  · exact ht
  · exact State.ite_keeps ((State.Keeps.frame _).takeCheck ((State.Keeps.frame _).updStor (State.bump_keeps ((State.Keeps.frame _).updTake ht ..) ..) _) _) ht

/-! ### What the functions of Machine/Ledger.lean keep. Their subject: The reel ledger's groups and snapshots, and what a passed
group brings about (spec/10 R338 to R356). -/

theorem State.addOps_keeps {s₀ s : State} (h : s₀.Keeps s) (p : Nat) (l : List DieOp) : s₀.Keeps (s.addOps p l) :=
  (State.Keeps.frame _).refill ((State.Keeps.frame _).updPort h ..) _

theorem State.ledgerStatus_keeps {s₀ s : State} (h : s₀.Keeps s) (p : Nat) : s₀.Keeps (s.ledgerStatus p) := by
  unfold State.ledgerStatus
  extract_lets +onlyGivenNames _ _ _ t
  have ht : s₀.Keeps t := State.wr_keeps (State.wr_keeps (State.wr_keeps h ..) ..) ..
  exact State.ite_keeps (State.raise_keeps (State.wr_keeps ((State.Keeps.frame _).updPort ht ..) ..) ..) (State.ite_keeps ht
    ((State.Keeps.frame _).updPort ht ..))

theorem State.issueGroup_keeps {s₀ s : State} (h : s₀.Keeps s) (p : Nat) (rs : List LRecord) (reserve : Bool) :
    s₀.Keeps (s.issueGroup p rs reserve) :=
  State.addOps_keeps ((State.Keeps.frame _).updLedger h ..) ..

theorem State.commitBody_keeps {s₀ s : State} (h : s₀.Keeps s) {p n : Nat} {c : LEntry × State} (hc : s.commitBody p n = some c) :
    s₀.Keeps c.2 := by
  unfold State.commitBody at hc
  extract_lets _ _ at hc
  split at hc
  · cases hc
  · cases hc
    refine State.foldl_fst_keeps _ _ (fun q x hq => ?_) _ h
    dsimp only
    split
    · exact hq
    · exact (State.Keeps.frame _).updTake (State.updTakeFrame_keeps hq ..) ..

theorem State.nextGroup_keeps {s₀ s : State} (h : s₀.Keeps s) (p : Nat) : s₀.Keeps (s.nextGroup p).2.2 := by
  unfold State.nextGroup
  extract_lets +onlyGivenNames _ _ _
  split
  · exact h
  · extract_lets +onlyGivenNames _ _ _ _ _ own commit
    have hcommit : ∀ c, commit = some c → s₀.Keeps c.2 := by
      intro c hc
      unfold commit at hc
      clear_value own
      split at hc
      · cases hc
        exact h
      · split at hc
        · exact State.commitBody_keeps h hc
        · cases hc
    clear_value commit
    dsimp only
    split
    · exact hcommit _ rfl
    · exact h

theorem State.dropSnap_keeps {s₀ s : State} (h : s₀.Keeps s) (p : Nat) : s₀.Keeps (s.dropSnap p) :=
  (State.Keeps.frame _).updLedger h ..

theorem State.ownGroup_keeps {s₀ s : State} (h : s₀.Keeps s) (p : Nat) (r : Reel) : s₀.Keeps (s.ownGroup p r) :=
  State.ite_keeps (State.issueGroup_keeps ((State.Keeps.frame _).updLedger (State.dropSnap_keeps h _) ..) ..) <| State.ite_keeps h <|
  State.ite_keeps (State.foldl_keeps h _ _ fun _ _ ht => (State.Keeps.frame _).endTake ht ..)
    (State.issueGroup_keeps ((State.Keeps.frame _).updLedger (State.dropSnap_keeps (State.nextGroup_keeps h _) _) ..) ..)

theorem execLedgerGroupIssue_keeps {s₀ s : State} (h : s₀.Keeps s) (p : Nat) : Out.Keeps s₀ (execLedgerGroupIssue p s) := by
  unfold execLedgerGroupIssue
  extract_lets +onlyGivenNames _
  split
  · exact Out.next_keeps h
  · refine Out.ite_keeps (Out.next_keeps h) ?_
    split
    · exact Out.ite_keeps (Out.next_keeps (State.ownGroup_keeps h ..)) (Out.next_keeps (State.issueGroup_keeps
        ((State.Keeps.frame _).updLedger h ..) ..))
    · exact Out.next_keeps (State.ownGroup_keeps h ..)

theorem execLedgerSnapshot_keeps {s₀ s : State} (h : s₀.Keeps s) (p : Nat) : Out.Keeps s₀ (execLedgerSnapshot p s) := by
  unfold execLedgerSnapshot
  extract_lets +onlyGivenNames _
  split
  · exact Out.next_keeps h
  · extract_lets +onlyGivenNames _ _
    exact Out.ite_keeps (Out.next_keeps ((State.Keeps.frame _).updLedger h ..)) (Out.next_keeps h)

theorem State.snapDone_keeps {s₀ s : State} (h : s₀.Keeps s) (p : Nat) : s₀.Keeps (s.snapDone p) := by
  unfold State.snapDone
  extract_lets +onlyGivenNames _
  split
  · exact State.addOps_keeps ((State.Keeps.frame _).updLedger h ..) ..
  · exact h

theorem State.startClose_keeps {s₀ s : State} (h : s₀.Keeps s) (e : Nat) : s₀.Keeps (s.startClose e) :=
  (State.Keeps.frame _).takeCheck (State.wr_keeps h ..) _

theorem State.openPassed_keeps {s₀ s : State} (h : s₀.Keeps s) (p e : Nat) : s₀.Keeps (s.openPassed p e) := by
  unfold State.openPassed
  extract_lets +onlyGivenNames t
  have ht : s₀.Keeps t := (State.Keeps.frame _).updTake h ..
  refine State.ite_keeps (State.ite_keeps ((State.Keeps.frame _).updTake (State.wr_keeps ?_ ..) ..) (State.startClose_keeps ((State.Keeps.frame _).updTake
    (State.wr_keeps ?_ ..) ..) _)) ht
  · split
    · exact State.complete_keeps ht ..
    · exact ht
  · split
    · exact State.complete_keeps ht ..
    · exact ht

theorem State.endPassed_keeps {s₀ s : State} (h : s₀.Keeps s) (p e : Nat) : s₀.Keeps (s.endPassed p e) := by
  unfold State.endPassed
  extract_lets +onlyGivenNames t
  have ht : s₀.Keeps t := (State.Keeps.frame _).updTake h ..
  exact State.ite_keeps ((State.Keeps.frame _).calTakesClosed ((State.Keeps.frame _).closeTake ht ..)) ht

theorem State.entryPassed_keeps {s₀ s : State} (h : s₀.Keeps s) (p : Nat) (x : LEntry) : s₀.Keeps (s.entryPassed p x) := by
  unfold State.entryPassed
  split
  · exact h
  · extract_lets +onlyGivenNames _
    exact State.ite_keeps (State.addOps_keeps h ..) h
  · exact (State.Keeps.frame _).updPort h ..
  · exact h
  · exact h
  · split
    · exact State.ite_keeps (State.openPassed_keeps h ..) (State.ite_keeps (State.endPassed_keeps h ..) h)
    · exact h
  · exact (State.Keeps.frame _).exposure h _
  · refine (State.Keeps.frame _).exposure (State.foldl_keeps ((State.Keeps.frame _).updPort h ..) _ _ ?_) _
    intro t _ ht
    split
    · exact State.frameCommitted_keeps ht ..
    · exact ht
  · exact (State.Keeps.frame _).updPort h ..
  · extract_lets +onlyGivenNames t
    have ht : s₀.Keeps t := (State.Keeps.frame _).updPort h ..
    split
    · exact (State.Keeps.frame _).sidePart (State.passPoint_keeps ht _) ..
    · exact ht

theorem State.groupPassed_keeps {s₀ s : State} (h : s₀.Keeps s) (p : Nat) : s₀.Keeps (s.groupPassed p) := by
  unfold State.groupPassed
  split
  · exact h
  · exact (State.Keeps.frame _).flushCheck (State.ledgerStatus_keeps (State.ite_keeps (State.snapDone_keeps (State.ite_keeps
      ((State.Keeps.frame _).updLedger h ..) (State.foldl_keeps ((State.Keeps.frame _).updLedger h ..) _ _ fun _ _ ht => State.entryPassed_keeps
      (State.updReel_keeps ht ..) ..)) _) (State.ite_keeps ((State.Keeps.frame _).updLedger h ..) (State.foldl_keeps
      ((State.Keeps.frame _).updLedger h ..) _ _ fun _ _ ht => State.entryPassed_keeps (State.updReel_keeps ht ..) ..))) _)

/-! ### What the functions of Machine/Segs.lean keep. Their subject: Segments, stripes, die operations, relocation and the elastic
buffer (spec/09, spec/10). -/

theorem State.wearStatus_keeps {s₀ s : State} (h : s₀.Keeps s) (p : Nat) : s₀.Keeps (s.wearStatus p) := by
  unfold State.wearStatus
  split
  · extract_lets +onlyGivenNames _ _ t
    have ht : s₀.Keeps t := State.wr_keeps (State.wr_keeps (State.wr_keeps (State.wr_keeps h ..) ..) ..) ..
    exact State.ite_keeps (State.raise_keeps (State.wr_keeps ((State.Keeps.frame _).updPort ht ..) ..) ..) ht
  · exact h

theorem State.retireBlock_keeps {s₀ s : State} (h : s₀.Keeps s) (p die block cause : Nat) :
    s₀.Keeps (s.retireBlock p die block cause) := by
  unfold State.retireBlock
  extract_lets +onlyGivenNames _
  split
  · exact h
  · exact State.wearStatus_keeps (State.bump_keeps ((State.Keeps.frame _).ledgerPut (State.updReel_keeps h ..) ..) ..) _

theorem State.formSet_keeps {s₀ s : State} (h : s₀.Keeps s) (p i : Nat) : s₀.Keeps (s.formSet p i) := by
  unfold State.formSet
  extract_lets +onlyGivenNames _
  split
  · refine State.ite_keeps h ?_
    split
    · exact h
    · exact State.wearStatus_keeps (State.tick_keeps ((State.Keeps.frame _).ledgerPut (State.updReel_keeps ((State.Keeps.frame _).updPort h ..) ..) ..)) _
  · exact h

theorem State.formSets_keeps {s₀ s : State} (h : s₀.Keeps s) (p : Nat) : s₀.Keeps (s.formSets p) := by
  unfold State.formSets
  split
  · exact State.each_keeps h _ _ fun _ _ ht => State.formSet_keeps ht ..
  · exact h

theorem State.closeSet_keeps {s₀ s : State} (h : s₀.Keeps s) (p id : Nat) : s₀.Keeps (s.closeSet p id) := by
  unfold State.closeSet
  split
  · exact h
  · split
    · exact State.ite_keeps h ((State.Keeps.frame _).ledgerPut (State.updReel_keeps h ..) ..)
    · exact h

theorem State.addUnit_keeps {s₀ s : State} (h : s₀.Keeps s) (p serial slot : Nat) (pages : List PageRef) (stage : UnitStage) :
    s₀.Keeps (s.addUnit p serial slot pages stage) := by
  unfold State.addUnit
  split
  · exact h
  · split
    · exact h
    · split
      · exact h
      · extract_lets +onlyGivenNames _ _ t
        have ht : s₀.Keeps t := (State.Keeps.frame _).updPort h ..
        exact State.ite_keeps (State.addOps_keeps ht ..) ht

theorem State.newStripe_keeps {s₀ s t : State} (h : s₀.Keeps s) {p : Nat} (hs : s.newStripe p = some t) : s₀.Keeps t := by
  unfold State.newStripe at hs
  extract_lets +onlyGivenNames u at hs
  have hu : s₀.Keeps u := State.formSets_keeps h _
  clear_value u
  split at hs
  · cases hs
  · extract_lets +onlyGivenNames _ _ _ t2 t3 at hs
    have ht2 : s₀.Keeps t2 := (State.Keeps.frame _).ledgerPut (State.updReel_keeps ((State.Keeps.frame _).updPort hu ..) ..) ..
    have ht3 : s₀.Keeps t3 := State.ite_keeps (State.closeSet_keeps ht2 ..) ht2
    split at hs
    · cases hs
      exact State.addUnit_keeps ht3 ..
    · cases hs
      exact State.addUnit_keeps ((State.Keeps.frame _).ledgerPut (State.updReel_keeps ((State.Keeps.frame _).updPort ht3 ..) ..) ..) ..

theorem State.openUnit_keeps {s₀ s t : State} (h : s₀.Keeps s) {p : Nat} (hs : s.openUnit p = some t) : s₀.Keeps t := by
  unfold State.openUnit at hs
  extract_lets _ _ _ at hs
  split at hs
  · cases hs
    exact h
  · split at hs
    · cases hs
      exact State.addUnit_keeps h ..
    · split at hs
      · cases hs
      · have hu := State.newStripe_keeps h ‹_›
        split at hs <;> cases hs
        · exact hu
        · exact State.addUnit_keeps hu ..

theorem State.queueUnit_keeps {s₀ s : State} (h : s₀.Keeps s) (p : Nat) (u : ProgUnit) : s₀.Keeps (s.queueUnit p u) :=
  State.addOps_keeps ((State.Keeps.frame _).updPort h ..) ..

theorem State.putPages_keeps {s₀ s t : State} (h : s₀.Keeps s) {p : Nat} {l : List PageRef} (hs : s.putPages p l = some t) :
    s₀.Keeps t := by
  induction l generalizing s with
  | nil =>
    cases hs
    exact h
  | cons g gs ih =>
    unfold State.putPages at hs
    split at hs
    · cases hs
    · extract_lets _ t1 at hs
      have ht1 : s₀.Keeps t1 := (State.Keeps.frame _).updPort (State.openUnit_keeps h ‹_›) ..
      split at hs
      · exact ih (State.ite_keeps (State.queueUnit_keeps ht1 ..) ht1) hs
      · exact ih ht1 hs

theorem State.getD_keeps {s₀ s : State} (h : s₀.Keeps s) {o : Option State} (ho : ∀ t, o = some t → s₀.Keeps t) :
    s₀.Keeps (o.getD s) := by
  cases o with
  | none => exact h
  | some t => exact ho t rfl

theorem State.padUnit_keeps {s₀ s : State} (h : s₀.Keeps s) (p : Nat) : s₀.Keeps (s.padUnit p) := by
  unfold State.padUnit
  split
  · exact State.getD_keeps h fun _ => State.putPages_keeps h
  · exact h

theorem State.fillStripe_keeps {s₀ s : State} (h : s₀.Keeps s) (p n : Nat) : s₀.Keeps (s.fillStripe p n) := by
  induction n generalizing s with
  | zero => exact h
  | succ n ih =>
    have ht := State.padUnit_keeps h p
    exact State.ite_keeps (ih (State.addUnit_keeps ht ..)) ht

theorem State.moveFirst_keeps {s₀ s t : State} (h : s₀.Keeps s) {p n : Nat} (hs : s.moveFirst p n = some t) : s₀.Keeps t := by
  induction n generalizing s with
  | zero =>
    cases hs
    exact h
  | succ n ih =>
    unfold State.moveFirst at hs
    split at hs
    · cases hs
      exact h
    · split at hs
      · cases hs
      · exact ih (State.newStripe_keeps (State.fillStripe_keeps h ..) ‹_›) hs

theorem State.tileCrc_keeps {s₀ s : State} (h : s₀.Keeps s) (p n : Nat) : s₀.Keeps (s.tileCrc p n) :=
  State.foldl_keeps h _ _ fun _ _ ht => State.raise_keeps (State.flagCount_keeps ht ..) ..

theorem State.srcRead_keeps {s₀ s : State} (h : s₀.Keeps s) (x : SegTask) : s₀.Keeps (s.srcRead x) :=
  State.foldl_keeps h _ _ fun _ _ ht => State.whenB_keeps
    (State.whenB_keeps ht _ _ fun _ hu => State.hbmRead_keeps hu ..) _ _ fun _ hu => State.hbmRead_keeps hu ..

theorem State.tilesPass_keeps {s₀ s : State} (h : s₀.Keeps s) (p : Nat) (g : Segment) (l : List ((List Byte × List Byte) × Bool)) :
    s₀.Keeps (s.tilesPass p g l).1 :=
  State.tileCrc_keeps (State.whenB_keeps
    (State.each_keeps h _ _ fun _ _ ht => State.tileSeen_keeps ht ..) _ _ fun _ ht => State.tileHurt_keeps ht ..) ..

theorem State.segLeaves_keeps {s₀ s : State} (h : s₀.Keeps s) (p : Nat) (x : SegTask) : s₀.Keeps (s.segLeaves p x).1 := by
  unfold State.segLeaves
  split
  · exact h
  · exact State.tilesPass_keeps (State.srcRead_keeps h _) ..

theorem State.placeSeg_keeps {s₀ s t : State} (h : s₀.Keeps s) {p k : Nat} {x : SegTask} (hs : s.placeSeg p k x = some t) :
    s₀.Keeps t := by
  unfold State.placeSeg at hs
  split at hs
  · cases hs
  · rename_i u hu
    obtain ⟨v, hv, hu⟩ := Option.bind_eq_some_iff.mp hu
    have hu : s₀.Keeps u := State.openUnit_keeps (State.moveFirst_keeps h hv) hu
    exact State.putPages_keeps (State.updMag_keeps ((State.Keeps.frame _).updPort (State.segLeaves_keeps hu ..) ..) ..) hs

theorem State.mediaFull_keeps {s₀ s : State} (h : s₀.Keeps s) (p : Nat) : s₀.Keeps (s.mediaFull p) :=
  State.foldl_keeps ((State.Keeps.frame _).updPort (State.foldl_keeps (State.ite_keeps h (State.raise_keeps
    (State.wr_keeps h ..) ..)) _ _ fun _ _ ht => (State.Keeps.frame _).endTake ht ..) ..) _ _ fun _ _ ht => (State.Keeps.frame _).sidePart ht ..

theorem State.feed_keeps {s₀ s : State} (h : s₀.Keeps s) (p n : Nat) : s₀.Keeps (s.feed p n) := by
  induction n generalizing s with
  | zero => exact h
  | succ n ih =>
    unfold State.feed
    dsimp only
    split
    · exact h
    · split
      · exact h
      · split
        · exact h
        · split
          · exact ih (State.placeSeg_keeps h ‹_›)
          · exact State.mediaFull_keeps h _

theorem State.padStripe_keeps {s₀ s : State} (h : s₀.Keeps s) (p n : Nat) : s₀.Keeps (s.padStripe p n) := by
  induction n generalizing s with
  | zero => exact h
  | succ n ih =>
    have ht := State.fillStripe_keeps h p 16
    refine State.ite_keeps ((State.Keeps.frame _).updPort ht ..) ?_
    split
    · exact ih (State.newStripe_keeps ht ‹_›)
    · exact ht

theorem State.reclaim_keeps {s₀ s : State} (h : s₀.Keeps s) (p : Nat) : s₀.Keeps (s.reclaim p) := by
  unfold State.reclaim
  extract_lets +onlyGivenNames _
  split
  · exact h
  · extract_lets +onlyGivenNames _ _ _ _ _ t _ _ t1 t2
    have ht : s₀.Keeps t := State.foldl_keeps h _ _ fun _ _ ht => (State.Keeps.frame _).ledgerPut (State.updReel_keeps ht ..) ..
    have ht1 : s₀.Keeps t1 := (State.Keeps.frame _).updPort ht ..
    have ht2 : s₀.Keeps t2 := State.wr_keeps ht1 ..
    exact State.ite_keeps (State.raise_keeps (State.wr_keeps ht2 ..) ..) ht2

theorem State.wearLevel_keeps {s₀ s : State} (h : s₀.Keeps s) (p : Nat) : s₀.Keeps (s.wearLevel p) := by
  unfold State.wearLevel
  extract_lets +onlyGivenNames _
  refine State.ite_keeps h ?_
  split
  · split
    · exact State.markSet_keeps h ..
    · exact h
  · exact h

theorem State.relocate_keeps {s₀ s : State} (h : s₀.Keeps s) (p : Nat) : s₀.Keeps (s.relocate p) := by
  unfold State.relocate
  extract_lets +onlyGivenNames s _
  have hs : s₀.Keeps s := State.ite_keeps h (State.wearLevel_keeps h _)
  split
  · refine State.ite_keeps hs ?_
    split
    · exact (State.Keeps.frame _).updPort hs ..
    · exact State.addOps_keeps ((State.Keeps.frame _).updPort (State.closeSet_keeps hs ..) ..) ..
  · exact hs

theorem State.programMode_keeps {s₀ s : State} (h : s₀.Keeps s) (p : Nat) (o : DieOp) : s₀.Keeps (s.programMode p o) := by
  unfold State.programMode
  extract_lets +onlyGivenNames _
  split
  · exact State.emit_keeps h _
  · exact State.emit_keeps h _
  · exact State.emit_keeps h _
  · exact h

theorem State.dieReady_keeps {s₀ s : State} (h : s₀.Keeps s) (p die : Nat) : s₀.Keeps (s.dieReady p die) := by
  unfold State.dieReady
  extract_lets +onlyGivenNames _ s0 s1 idle
  have hs0 : s₀.Keeps s0 := (State.Keeps.frame _).refill h _
  have hs1 : s₀.Keeps s1 := State.relocate_keeps (State.formSets_keeps hs0 _) _
  have hidle : s₀.Keeps idle := State.ite_keeps (State.feed_keeps hs1 ..) hs0
  extract_lets +onlyGivenNames _
  exact State.ite_keeps (State.padStripe_keeps hidle ..) (State.ite_keeps (State.padUnit_keeps hidle _) hidle)

theorem State.dieStart_keeps {s₀ s : State} (h : s₀.Keeps s) (p k : Nat) (o : DieOp) : s₀.Keeps (s.dieStart p k o) :=
  (State.Keeps.frame _).exposure (State.emit_keeps (State.programMode_keeps ((State.Keeps.frame _).updPort h ..) ..) _) _

theorem execDieOpIssue_keeps {s₀ s : State} (h : s₀.Keeps s) (p die : Nat) : Out.Keeps s₀ (execDieOpIssue p die s) := by
  unfold execDieOpIssue
  refine Out.ite_keeps (Out.next_keeps h) ?_
  split
  · exact Out.next_keeps (State.dieReady_keeps h ..)
  · exact Out.next_keeps (State.dieStart_keeps (State.dieReady_keeps h ..) ..)

theorem State.sendSeg_keeps {s₀ s : State} (h : s₀.Keeps s) (e half : Nat) (f : TakeFrame) (src : SegSource) (last : Bool) (tiles : List
    (List Byte × List Byte)) : s₀.Keeps (s.sendSeg e half f src last tiles) :=
  (State.Keeps.frame _).exposure (State.updTakeFrame_keeps ((State.Keeps.frame _).updTake ((State.Keeps.frame _).updPort h ..) ..) ..) _

theorem State.segmentClose_keeps {s₀ s : State} (h : s₀.Keeps s) (e serial half : Nat) : s₀.Keeps (s.segmentClose e serial half) := by
  unfold State.segmentClose
  split
  · refine State.ite_keeps h (State.ite_keeps (State.ite_keeps h (State.sendSeg_keeps ((State.Keeps.frame _).updPack h ..) ..)) ?_)
    split
    · exact h
    · extract_lets +onlyGivenNames _ _ _ _
      exact State.ite_keeps h (State.sendSeg_keeps h ..)
  · exact h

theorem execSegmentClose_keeps {s₀ s : State} (h : s₀.Keeps s) (e serial half : Nat) : Out.Keeps s₀ (execSegmentClose e serial half s) :=
  Out.next_keeps (State.segmentClose_keeps h ..)

theorem State.segPassed_keeps {s₀ s : State} (h : s₀.Keeps s) (p : Nat) (x : SegTask) : s₀.Keeps (s.segPassed p x) := by
  unfold State.segPassed
  refine (State.Keeps.frame _).exposure ((State.Keeps.frame _).freeSource (State.ite_keeps ((State.Keeps.frame _).ledgerPut ((State.Keeps.frame _).updPort h ..) ..)
    (State.ite_keeps ((State.Keeps.frame _).updPort h ..) ?_)) _) _
  split
  · extract_lets +onlyGivenNames t2
    have ht2 : s₀.Keeps t2 := (State.Keeps.frame _).updPort ((State.Keeps.frame _).updPort h ..) ..
    split
    · extract_lets +onlyGivenNames _
      exact State.ite_keeps ((State.Keeps.frame _).ledgerPut ht2 ..) ht2
    · exact ht2
  · exact (State.Keeps.frame _).updPort ((State.Keeps.frame _).updPort h ..) ..

theorem State.segCheck_keeps {s₀ s : State} (h : s₀.Keeps s) (p : Nat) : s₀.Keeps (s.segCheck p) :=
  State.foldl_keeps h _ _ fun _ _ ht => State.segPassed_keeps ht ..

theorem State.stripeCheck_keeps {s₀ s : State} (h : s₀.Keeps s) (p serial : Nat) : s₀.Keeps (s.stripeCheck p serial) := by
  unfold State.stripeCheck
  extract_lets +onlyGivenNames _ _ _
  exact State.ite_keeps ((State.Keeps.frame _).flushCheck (State.foldl_keeps ((State.Keeps.frame _).updPort
    (State.segCheck_keeps h _) ..) _ _ fun _ _ ht => (State.Keeps.frame _).takeCheck ht _)) (State.ite_keeps (State.segCheck_keeps
    (State.addUnit_keeps h ..) _) (State.segCheck_keeps h _))

theorem State.unitFailed_keeps {s₀ s : State} (h : s₀.Keeps s) (p : Nat) (u : ProgUnit) : s₀.Keeps (s.unitFailed p u) := by
  unfold State.unitFailed
  extract_lets +onlyGivenNames t _ _ t1
  have ht : s₀.Keeps t := State.retireBlock_keeps (State.raise_keeps (State.flagCount_keeps h ..) ..) ..
  have ht1 : s₀.Keeps t1 := State.ite_keeps ((State.Keeps.frame _).updPort ht ..) ht
  split
  · split
    · exact State.markSet_keeps (State.closeSet_keeps (State.updReel_keeps ht1 ..) ..) ..
    · exact ht1
  · exact ht1

theorem State.programmed_keeps {s₀ s : State} (h : s₀.Keeps s) (p : Nat) (z : PuPlace) : s₀.Keeps (s.programmed p z) :=
  State.updReel_keeps h ..

theorem State.unitEnded_keeps {s₀ s : State} (h : s₀.Keeps s) (p st sl : Nat) (ok : Bool) : s₀.Keeps (s.unitEnded p st sl ok) := by
  unfold State.unitEnded
  split
  · exact h
  · exact State.stripeCheck_keeps (State.ite_keeps (State.programmed_keeps (State.updMag_keeps ((State.Keeps.frame _).updPort h ..) ..) ..)
      (State.unitFailed_keeps ((State.Keeps.frame _).updPort h ..) ..)) ..

theorem State.ledgerEnded_keeps {s₀ s : State} (h : s₀.Keeps s) (p die block rec copy page : Nat) (ok : Bool) :
    s₀.Keeps (s.ledgerEnded p die block rec copy page ok) := by
  unfold State.ledgerEnded
  split
  · exact h
  · extract_lets +onlyGivenNames _ _
    split
    · extract_lets +onlyGivenNames t t1
      have ht : s₀.Keeps t := State.updMag_keeps h ..
      have ht1 : s₀.Keeps t1 := (State.Keeps.frame _).updLedger ht ..
      split
      · split
        · exact State.groupPassed_keeps ht1 _
        · exact ht1
      · exact ht1
    · extract_lets +onlyGivenNames t t1
      have ht : s₀.Keeps t := State.retireBlock_keeps (State.raise_keeps (State.flagCount_keeps (State.updMag_keeps h ..) ..) ..) ..
      have ht1 : s₀.Keeps t1 := (State.Keeps.frame _).updLedger ht ..
      split
      · exact State.addOps_keeps ((State.Keeps.frame _).updLedger ht1 ..) ..
      · exact State.foldl_keeps ht1 _ _ fun _ _ ht => (State.Keeps.frame _).endTake ht ..

theorem State.blockGone_keeps {s₀ s : State} (h : s₀.Keeps s) (p die block : Nat) : s₀.Keeps (s.blockGone p die block) := by
  unfold State.blockGone
  extract_lets +onlyGivenNames t t1 t2
  have ht : s₀.Keeps t := State.updMag_keeps h ..
  have ht1 : s₀.Keeps t1 := (State.Keeps.frame _).updPort ht ..
  have ht2 : s₀.Keeps t2 := State.updReel_keeps ht1 ..
  split
  · exact State.ite_keeps ((State.Keeps.frame _).updLedger (State.updReel_keeps ht2 ..) ..) ht2
  · exact ht2

theorem State.readEnded_keeps {s₀ s : State} (h : s₀.Keeps s) (p die block wl page serial : Nat) :
    s₀.Keeps (s.readEnded p die block wl page serial) := by
  unfold State.readEnded
  extract_lets +onlyGivenNames _
  split
  · extract_lets +onlyGivenNames _ t _ t1
    have ht : s₀.Keeps t := State.pageRead_keeps h ..
    have ht1 : s₀.Keeps t1 := (State.Keeps.frame _).updPort ht ..
    split
    · exact State.tick_keeps (State.tileCrc_keeps ((State.Keeps.frame _).updPort ht1 ..) ..)
    · exact ht1
  · exact h

/-! ### What the functions of Machine/Reels.lean keep. Their subject: Mount and recovery, format and sanitise, the ends of die
operations, and spills (spec/09, spec/10). -/

theorem State.updAdmin_keeps {s₀ s : State} (h : s₀.Keeps s) (p : Nat) (f : AdminWork → AdminWork) : s₀.Keeps (s.updAdmin p f) :=
  (State.Keeps.frame _).updPort h ..

theorem State.adminOps_keeps {s₀ s : State} (h : s₀.Keeps s) (p step : Nat) (l : List DieOp) : s₀.Keeps (s.adminOps p step l) :=
  (State.Keeps.frame _).adminStatus (State.addOps_keeps (State.updAdmin_keeps h ..) ..) _

theorem State.wipStep_keeps {s₀ s : State} (h : s₀.Keeps s) (p step st : Nat) (a : AdminWork) : s₀.Keeps (s.wipStep p step st a) :=
  State.adminOps_keeps (State.updAdmin_keeps h ..) ..

theorem State.adminDone_keeps {s₀ s : State} (h : s₀.Keeps s) (p : Nat) (a : AdminWork) : s₀.Keeps (s.adminDone p a) := by
  unfold State.adminDone
  extract_lets +onlyGivenNames t t1 t2
  have ht : s₀.Keeps t := (State.Keeps.frame _).adminStatus ((State.Keeps.frame _).setPort ((State.Keeps.frame _).updPort h ..) ..) _
  have ht1 : s₀.Keeps t1 := State.raise_keeps (State.wr_keeps ht ..) ..
  have ht2 : s₀.Keeps t2 := State.ite_keeps ht1 (State.rollRecord_keeps ((State.Keeps.frame _).updStor ht1 _) _)
  split
  · exact State.complete_keeps ht2 ..
  · exact ht2

theorem State.adminErase_keeps {s₀ s : State} (h : s₀.Keeps s) (p n : Nat) : s₀.Keeps (s.adminErase p n) := by
  induction n generalizing s with
  | zero => exact h
  | succ n ih =>
    unfold State.adminErase
    split
    · refine State.ite_keeps ?_ ?_
      · exact State.ite_keeps (State.wipStep_keeps (State.updMag_keeps h ..) ..) <| State.ite_keeps (State.wipStep_keeps
          (State.updMag_keeps h ..) ..)
          ((State.Keeps.frame _).adminStatus (State.updAdmin_keeps ((State.Keeps.frame _).updPort (State.updMag_keeps h ..) ..) ..) _)
      · refine State.ite_keeps (State.ite_keeps ?_ (ih (State.updAdmin_keeps h ..))) (State.adminOps_keeps (State.updAdmin_keeps h ..) ..)
        split
        · exact State.wipStep_keeps (State.updAdmin_keeps h ..) ..
        · exact State.updAdmin_keeps h ..
    · exact h

theorem State.adminNext_keeps {s₀ s : State} (h : s₀.Keeps s) (p : Nat) : s₀.Keeps (s.adminNext p) := by
  unfold State.adminNext
  split
  · exact State.ite_keeps h (State.ite_keeps (State.adminOps_keeps (State.updAdmin_keeps h ..) ..) (State.ite_keeps
      (State.adminOps_keeps h ..) (State.ite_keeps (State.adminErase_keeps h ..) (State.ite_keeps (State.ite_keeps
      (State.wipStep_keeps h ..) (State.adminErase_keeps h ..)) (State.ite_keeps (State.ite_keeps (State.wipStep_keeps h ..) h)
      (State.adminDone_keeps h ..))))))
  · exact h

theorem State.adminStart_keeps {s₀ s : State} (h : s₀.Keeps s) (p id : Nat) (sanitise : Bool) (hdr : ReelHeader) (m : Magazine)
    (bad : List Retired) : s₀.Keeps (s.adminStart p id sanitise hdr m bad) :=
  State.adminOps_keeps ((State.Keeps.frame _).setPort ((State.Keeps.frame _).updPort h ..) ..) ..

theorem State.wipResume_keeps {s₀ s : State} (h : s₀.Keeps s) (p : Nat) (m : Magazine) (half : Nat × Nat × ReelHeader)
    (w : Nat × WipRec) : s₀.Keeps (s.wipResume p m half w) := by
  unfold State.wipResume
  extract_lets +onlyGivenNames _ _ _ t
  have ht : s₀.Keeps t := State.raise_keeps ((State.Keeps.frame _).setPort ((State.Keeps.frame _).updPort h ..) ..) ..
  exact State.ite_keeps (State.adminOps_keeps ht ..) (State.adminErase_keeps ht ..)

theorem State.segSound_keeps {s₀ s : State} (h : s₀.Keeps s) (p : Nat) (g : Segment) : s₀.Keeps (s.segSound p g).1 := by
  unfold State.segSound
  split
  · exact h
  · refine State.each_keeps h _ _ ?_
    intro t _ ht
    split
    · exact State.decodeFault_keeps ht ..
    · exact ht

theorem State.segsSound_keeps {s₀ s : State} (h : s₀.Keeps s) (l : List (Nat × List Segment)) (b : Bool) :
    s₀.Keeps (l.foldl (fun (a : State × Bool) x => x.2.foldl (fun a g =>
      if a.2 then let r := a.1.segSound x.1 g; (r.1, r.2) else a) a) (s, b)).1 :=
  State.foldl_fst_keeps _ _ (fun q x hq => State.foldl_fst_keeps _ _ (fun r g hr => by
    split
    · exact State.segSound_keeps hr ..
    · exact hr) q hq) _ h

theorem State.glean_keeps {s₀ s : State} (h : s₀.Keeps s) (t : TakeEntry) (ports : List Nat) (n : Nat)
    (l : List (Nat × Nat × Nat × Nat × Nat)) : s₀.Keeps (s.glean t ports n l).1 := by
  induction n generalizing s l with
  | zero => cases l <;> exact h
  | succ n ih =>
    cases l with
    | nil => exact h
    | cons v vs =>
      unfold State.glean
      extract_lets _ _ _ check _ _ _ _
      have hcheck : s₀.Keeps check.1 := State.segsSound_keeps h ..
      split
      · exact hcheck
      · exact ih (State.foldl_keeps hcheck _ _ fun _ x ht =>
          (State.Keeps.frame _).updPort (State.updReel_keeps ((State.Keeps.frame _).ledgerPut ht ..) ..) ..) _

theorem State.endRecovered_keeps {s₀ s : State} (h : s₀.Keeps s) (t : TakeEntry) (ports : List Nat) :
    s₀.Keeps (s.endRecovered t ports) := by
  unfold State.endRecovered
  refine State.each_keeps h _ _ ?_
  intro t _ ht
  split
  · exact ht
  · exact State.updReel_keeps ((State.Keeps.frame _).ledgerPut ht ..) ..

theorem State.recover_keeps {s₀ s : State} (h : s₀.Keeps s) (p : Nat) (t : TakeEntry) (ports : List Nat) :
    s₀.Keeps (s.recover p t ports).1 := by
  unfold State.recover
  extract_lets _ _ g s1 _
  have hg : s₀.Keeps g.1 := by
    unfold g
    split
    · exact h
    · exact State.glean_keeps h ..
  have hs1 : s₀.Keeps s1 := State.bump_keeps (State.bump_keeps hg ..) ..
  exact State.endRecovered_keeps (State.ite_keeps hs1 (State.raise_keeps (State.wr_keeps hs1 ..) ..)) ..

theorem State.queueScrub_keeps {s₀ s : State} (h : s₀.Keeps s) (p : Nat) : s₀.Keeps (s.queueScrub p) := by
  unfold State.queueScrub
  split
  · exact State.foldl_keeps h _ _ fun _ _ ht => State.markSet_keeps ht ..
  · exact h

theorem State.erasePool_keeps {s₀ s : State} (h : s₀.Keeps s) (p : Nat) : s₀.Keeps (s.erasePool p) := by
  unfold State.erasePool
  split
  · exact State.addOps_keeps h ..
  · exact h

theorem State.pairStatus_keeps {s₀ s : State} (h : s₀.Keeps s) (p : Nat) : s₀.Keeps (s.pairStatus p) :=
  State.wr_keeps h ..

theorem State.mountStatus_keeps {s₀ s : State} (h : s₀.Keeps s) (p phase done total : Nat) :
    s₀.Keeps (s.mountStatus p phase done total) :=
  State.wr_keeps (State.wr_keeps (State.wr_keeps (State.wr_keeps h ..) ..) ..) ..

theorem State.updMount_keeps {s₀ s : State} (h : s₀.Keeps s) (p : Nat) (f : MountWork → MountWork) : s₀.Keeps (s.updMount p f) :=
  (State.Keeps.frame _).updPort h ..

theorem State.mountLooks_keeps {s₀ s : State} (h : s₀.Keeps s) (p phase : Nat) (l : List (Nat × Nat × Nat)) :
    s₀.Keeps (s.mountLooks p phase l) :=
  State.addOps_keeps (State.mountStatus_keeps (State.updMount_keeps h ..) ..) ..

theorem State.mountFail_keeps {s₀ s : State} (h : s₀.Keeps s) (p : Nat) (w : MountWork) (status : Nat) :
    s₀.Keeps (s.mountFail p w status) :=
  State.complete_keeps ((State.Keeps.frame _).adminStatus ((State.Keeps.frame _).updPort h ..) _) ..

theorem State.mountEnd_keeps {s₀ s : State} (h : s₀.Keeps s) (p : Nat) : s₀.Keeps (s.mountEnd p) := by
  unfold State.mountEnd
  extract_lets _ g t t1 t2
  have hg : s₀.Keeps g.1 := State.foldl_fst_keeps _ _ (fun q x hq =>
    State.whenB_keeps (State.recover_keeps hq ..) _ _ fun _ ht => State.raise_keeps (State.wr_keeps ht ..) ..) _ h
  have ht1 : s₀.Keeps t1 := State.wr_keeps (State.updMount_keeps (State.pairStatus_keeps (State.pairStatus_keeps hg _) _) ..) ..
  have ht2 : s₀.Keeps t2 := State.ite_keeps ht1 (State.erasePool_keeps (State.queueScrub_keeps ht1 _) _)
  exact (State.Keeps.frame _).opsStatus (State.wearStatus_keeps ht2 _) _

theorem State.mountGlean_keeps {s₀ s : State} (h : s₀.Keeps s) (p : Nat) : s₀.Keeps (s.mountGlean p) := by
  unfold State.mountGlean
  split
  · extract_lets +onlyGivenNames _ _ t _ _
    have ht : s₀.Keeps t := (State.Keeps.frame _).updPort h ..
    exact State.ite_keeps (State.mountEnd_keeps ht _) (State.each_keeps (State.mountStatus_keeps
      (State.updMount_keeps ht ..) ..) _ _ fun _ _ ht => State.addOps_keeps ht ..)
  · exact h

theorem State.mountEnter_keeps {s₀ s : State} (h : s₀.Keeps s) (p : Nat) : s₀.Keeps (s.mountEnter p) := by
  unfold State.mountEnter
  split
  · extract_lets +onlyGivenNames _ _
    exact State.ite_keeps h (State.mountGlean_keeps (State.updMount_keeps h ..) _)
  · exact h

theorem State.mountReplay_keeps {s₀ s : State} (h : s₀.Keeps s) (p : Nat) (m : Magazine) (half : ReelHeader) (w : MountWork) :
    s₀.Keeps (s.mountReplay p m half w) :=
  State.mountEnter_keeps (State.ledgerStatus_keeps (State.mountStatus_keeps (State.updMount_keeps (State.ite_keeps (State.raise_keeps
    (State.wr_keeps (State.foldl_keeps ((State.Keeps.frame _).updPort h ..) _ _ fun _ _ ht => State.raise_keeps
    (State.flagCount_keeps ht ..) ..) ..) ..) (State.foldl_keeps ((State.Keeps.frame _).updPort h ..) _ _ fun _ _ ht => State.raise_keeps
    (State.flagCount_keeps ht ..) ..)) ..) ..) _) _

theorem State.mountHeaders_keeps {s₀ s : State} (h : s₀.Keeps s) (p : Nat) (m : Magazine) (w : MountWork) :
    s₀.Keeps (s.mountHeaders p m w) := by
  unfold State.mountHeaders
  split
  · exact State.mountFail_keeps h ..
  · extract_lets _ _ _
    split
    · exact State.complete_keeps (State.wipResume_keeps ((State.Keeps.frame _).updPort h ..) ..) ..
    · exact State.ite_keeps (State.mountFail_keeps h ..) <| State.ite_keeps (State.mountFail_keeps h ..) <|
        State.ite_keeps (State.mountFail_keeps h ..) <| State.ite_keeps (State.mountReplay_keeps (State.updMount_keeps h ..) ..)
          (State.mountLooks_keeps h ..)

theorem State.mountNext_keeps {s₀ s : State} (h : s₀.Keeps s) (p : Nat) : s₀.Keeps (s.mountNext p) := by
  unfold State.mountNext
  split
  · refine State.ite_keeps h (State.ite_keeps (State.mountHeaders_keeps h ..) (State.ite_keeps ?_ (State.ite_keeps
      (State.mountGlean_keeps h _) h)))
    split
    · exact State.mountReplay_keeps h ..
    · exact State.mountFail_keeps h ..
  · exact h

theorem State.mountRun_keeps {s₀ s : State} (h : s₀.Keeps s) (p id : Nat) (ro : Bool) : s₀.Keeps (s.mountRun p id ro) := by
  unfold State.mountRun
  split
  · exact State.complete_keeps h ..
  · extract_lets +onlyGivenNames _ t
    have ht : s₀.Keeps t := State.mountLooks_keeps ((State.Keeps.frame _).updPort h ..) ..
    exact State.ite_keeps (State.mountNext_keeps ht _) ht

theorem State.lookEnded_keeps {s₀ s : State} (h : s₀.Keeps s) (p : Nat) : s₀.Keeps (s.lookEnded p) :=
  State.mountNext_keeps (State.updMount_keeps h ..) _

theorem State.mountPart_keeps {s₀ s : State} (h : s₀.Keeps s) (p id : Nat) (z : PuPlace) (page : Nat) :
    s₀.Keeps (s.mountPart p id z page) := by
  unfold State.mountPart
  split
  · exact State.mountNext_keeps (State.updMount_keeps h ..) _
  · exact h

theorem State.mountCheck_keeps {s₀ s : State} (h : s₀.Keeps s) (p : Nat) : s₀.Keeps (s.mountCheck p) := by
  unfold State.mountCheck
  split
  · exact State.ite_keeps (State.mountEnter_keeps (State.complete_keeps ((State.Keeps.frame _).adminStatus ((State.Keeps.frame _).reelStatus
      ((State.Keeps.frame _).setPort ((State.Keeps.frame _).updPort h ..) ..) _) _) ..) _) h
  · exact h

theorem State.mountChecks_keeps {s₀ s : State} (h : s₀.Keeps s) : s₀.Keeps s.mountChecks :=
  State.mountCheck_keeps (State.mountCheck_keeps (State.mountCheck_keeps h _) _) _

theorem State.unmountCheck_keeps {s₀ s : State} (h : s₀.Keeps s) (p : Nat) : s₀.Keeps (s.unmountCheck p) := by
  unfold State.unmountCheck
  extract_lets +onlyGivenNames _
  split
  · extract_lets +onlyGivenNames _ _
    exact State.ite_keeps h (State.complete_keeps ((State.Keeps.frame _).adminStatus ((State.Keeps.frame _).reelStatus ((State.Keeps.frame _).setPort
      ((State.Keeps.frame _).opsStatus ((State.Keeps.frame _).updPort h ..) _) ..) _) _) ..)
  · exact h

theorem State.adminFails_keeps {s₀ s : State} (h : s₀.Keeps s) (p die block cause left : Nat) (again : List DieOp) :
    s₀.Keeps (s.adminFails p die block cause left again) := by
  unfold State.adminFails
  extract_lets +onlyGivenNames _ t
  have ht : s₀.Keeps t := State.updAdmin_keeps h ..
  split
  · exact State.ite_keeps (State.adminNext_keeps (State.updAdmin_keeps ht ..) _) (State.adminNext_keeps (State.addOps_keeps
      ((State.Keeps.frame _).updPort (State.updAdmin_keeps ht ..) ..) ..) _)
  · exact ht

theorem State.slcEnded_keeps {s₀ s : State} (h : s₀.Keeps s) (p die block page : Nat) (c : SlcPage) (ok : Bool) :
    s₀.Keeps (s.slcEnded p die block page c ok) := by
  unfold State.slcEnded
  extract_lets +onlyGivenNames t
  have ht : s₀.Keeps t := State.updMag_keeps h ..
  exact State.ite_keeps (State.adminNext_keeps (State.updAdmin_keeps ht ..) _) (State.adminFails_keeps (State.raise_keeps
    (State.flagCount_keeps ht ..) ..) ..)

theorem State.eraseEnded_keeps {s₀ s : State} (h : s₀.Keeps s) (p die block : Nat) (admin ok : Bool) :
    s₀.Keeps (s.eraseEnded p die block admin ok) := by
  unfold State.eraseEnded
  extract_lets +onlyGivenNames t
  have ht : s₀.Keeps t := State.ite_keeps (State.blockGone_keeps h ..) (State.raise_keeps (State.flagCount_keeps h ..) ..)
  exact State.ite_keeps (State.ite_keeps (State.adminNext_keeps (State.updAdmin_keeps ht ..) _) (State.adminFails_keeps ht ..))
    (State.wearStatus_keeps (State.ite_keeps ht (State.retireBlock_keeps ht ..)) _)

theorem State.adminGroups_keeps {s₀ s : State} (h : s₀.Keeps s) (p : Nat) : s₀.Keeps (s.adminGroups p) := by
  unfold State.adminGroups
  split
  · exact State.ite_keeps (State.adminNext_keeps h _) h
  · exact h

theorem State.spillSeg_keeps {s₀ s : State} (h : s₀.Keeps s) (half p : Nat) (x : SegTask) : s₀.Keeps (s.spillSeg half p x).1 := by
  unfold State.spillSeg
  split
  · exact h
  · exact (State.Keeps.frame _).freeSource ((State.Keeps.frame _).elasticStatus ((State.Keeps.frame _).updPort ((State.Keeps.frame _).updStor (State.put_keeps
      (State.tilesPass_keeps (State.srcRead_keeps h _) ..) ..) _) ..) _) _

theorem State.firstSpill_keeps {s₀ s : State} (h : s₀.Keeps s) (half e : Nat) : s₀.Keeps (s.firstSpill half e) :=
  State.ite_keeps h (State.raise_keeps (State.flagCount_keeps ((State.Keeps.frame _).updTake h ..) ..) ..)

theorem State.spillAll_keeps {s₀ s : State} (h : s₀.Keeps s) (half : Nat) (l : List (Nat × SegTask)) : s₀.Keeps (s.spillAll half l) := by
  induction l generalizing s with
  | nil => exact h
  | cons y l ih =>
    have hr := State.spillSeg_keeps (State.firstSpill_keeps h half y.2.seg.easel) half y.1 y.2
    exact State.ite_keeps (ih h) <| State.ite_keeps (ih hr) <|
      ih ((State.Keeps.frame _).endTake (State.raise_keeps (State.foldl_keeps hr _ _ fun _ _ ht => State.wr_keeps ht ..) ..) ..)

theorem State.closeSegs_keeps {s₀ s : State} (h : s₀.Keeps s) (e serial half n : Nat) : s₀.Keeps (s.closeSegs e serial half n) := by
  induction n generalizing s with
  | zero => exact h
  | succ n ih => exact State.ite_keeps (State.segmentClose_keeps h ..) (ih (State.segmentClose_keeps h ..))

theorem State.partSpill_keeps {s₀ s : State} (h : s₀.Keeps s) {half e : Nat} {x : State × List (Nat × SegTask)}
    (hx : s.partSpill half e = some x) : s₀.Keeps x.1 := by
  unfold State.partSpill at hx
  split at hx
  · cases hx
  · extract_lets _ _ at hx
    split at hx <;> cases hx
    exact State.closeSegs_keeps h ..

theorem State.laneSpill_keeps {s₀ s : State} (h : s₀.Keeps s) {half l : Nat} {x : State × List (Nat × SegTask)}
    (hx : s.laneSpill half l = some x) : s₀.Keeps x.1 := by
  unfold State.laneSpill at hx
  extract_lets t _ at hx
  split at hx <;> cases hx
  exact State.each_keeps h _ _ fun _ _ ht => State.closeSegs_keeps ht ..

theorem State.spillParts_keeps {s₀ s : State} (h : s₀.Keeps s) {half : Nat} {x : State × List (Nat × SegTask)}
    (hx : s.spillParts half = some x) : s₀.Keeps x.1 := by
  unfold State.spillParts at hx
  split at hx
  · cases hx
    obtain ⟨e, -, he⟩ := List.exists_of_findSome?_eq_some ‹_›
    split at he
    · exact State.partSpill_keeps h he
    · cases he
  · obtain ⟨l, -, hl⟩ := List.exists_of_findSome?_eq_some hx
    split at hl
    · exact State.laneSpill_keeps h hl
    · cases hl

theorem execElasticSpill_keeps {s₀ s : State} (h : s₀.Keeps s) (half : Nat) : Out.Keeps s₀ (execElasticSpill half s) := by
  unfold execElasticSpill
  split
  · exact Out.next_keeps (State.spillAll_keeps (State.spillParts_keeps h ‹_›) ..)
  · exact Out.next_keeps h

/-! ### What the functions of Machine/Mag.lean keep. Their subject: Magazine ports: presence, bring-up, power-fail warning and
removal (spec/09). -/

theorem execMagInsertion_keeps {s₀ s : State} (h : s₀.Keeps s) (p : Nat) (m : Magazine) : Out.Keeps s₀ (execMagInsertion p m s) :=
  Out.ite_keeps (Out.next_keeps h) (Out.next_keeps ((State.Keeps.frame _).portPower (State.wr_keeps ((State.Keeps.frame _).updPort h ..) ..) _))

theorem execMagRemoval_keeps {s₀ s : State} (h : s₀.Keeps s) (p : Nat) : Out.Keeps s₀ (execMagRemoval p s) :=
  Out.ite_keeps (Out.next_keeps h) (Out.ite_keeps (Out.next_keeps ((State.Keeps.frame _).updPort (State.wr_keeps h ..) ..)) (Out.next_keeps
    (State.raise_keeps (State.wr_keeps ((State.Keeps.frame _).portOff (State.wr_keeps h ..) ..) ..) ..)))

theorem State.nandInit_keeps {s₀ s : State} (h : s₀.Keeps s) (p : Nat) : s₀.Keeps (s.nandInit p) :=
  State.emit_keeps ((State.Keeps.frame _).setPort h ..) _

theorem execMagRampDone_keeps {s₀ s : State} (h : s₀.Keeps s) (p : Nat) : Out.Keeps s₀ (execMagRampDone p s) :=
  Out.next_keeps (State.ite_keeps (State.nandInit_keeps h _) h)

theorem State.nandTrain_keeps {s₀ s : State} (h : s₀.Keeps s) (p : Nat) (odt : Bool) : s₀.Keeps (s.nandTrain p odt) :=
  State.each_keeps h _ _ fun _ _ ht => State.emit_keeps ht _

theorem State.magReady_keeps {s₀ s : State} (h : s₀.Keeps s) (p : Nat) (m : MagIdent) : s₀.Keeps (s.magReady p m) := by
  unfold State.magReady
  extract_lets +onlyGivenNames _ s1
  have hs1 : s₀.Keeps s1 := State.wr_keeps (State.nandTrain_keeps h ..) ..
  exact State.ite_keeps (State.raise_keeps (State.wr_keeps ((State.Keeps.frame _).setPort hs1 ..) ..) ..) ((State.Keeps.frame _).setPort (State.wr_keeps
    (State.wr_keeps (State.wr_keeps (State.wr_keeps (State.wr_keeps (State.wr_keeps (State.wr_keeps (State.wr_keeps (State.wr_keeps
    (State.wr_keeps (State.wr_keeps (State.wr_keeps hs1 ..) ..) ..) ..) ..) ..) ..) ..) ..) ..) ..) ..) ..)

theorem execMagInitDone_keeps {s₀ s : State} (h : s₀.Keeps s) (p : Nat) : Out.Keeps s₀ (execMagInitDone p s) := by
  unfold execMagInitDone
  refine Out.ite_keeps (Out.next_keeps h) ?_
  split
  · exact Out.next_keeps h
  · exact Out.next_keeps (State.magReady_keeps h ..)

theorem execMagRetry_keeps {s₀ s : State} (h : s₀.Keeps s) (p : Nat) : Out.Keeps s₀ (execMagRetry p s) :=
  Out.next_keeps (State.ite_keeps ((State.Keeps.frame _).setPort ((State.Keeps.frame _).pwrEn ((State.Keeps.frame _).pwrEn h ..) ..) ..) h)

theorem execMagPortDisable_keeps {s₀ s : State} (h : s₀.Keeps s) (p : Nat) : Out.Keeps s₀ (execMagPortDisable p s) :=
  Out.ite_keeps (Out.next_keeps (State.wr_keeps h ..)) (Out.next_keeps (State.ite_keeps (State.wr_keeps h ..) ((State.Keeps.frame _).portOff
    (State.wr_keeps h ..) ..)))

theorem State.pfwStart_keeps {s₀ s : State} (h : s₀.Keeps s) (p : Nat) : s₀.Keeps (s.pfwStart p) :=
  State.raise_keeps (State.wr_keeps ((State.Keeps.frame _).opsStatus (State.ite_keeps ((State.Keeps.frame _).updPort (State.updMag_keeps h ..) ..)
    (State.emit_keeps ((State.Keeps.frame _).updPort (State.updMag_keeps h ..) ..) _)) _) ..) ..

theorem execPfwNFall_keeps {s₀ s : State} (h : s₀.Keeps s) : Out.Keeps s₀ (execPfwNFall s) :=
  Out.next_keeps (State.each_keeps
    (State.each_keeps h _ _ fun _ _ ht => State.pfwStart_keeps ht _) _ _ fun _ _ ht => (State.Keeps.frame _).endTake ht ..)

theorem State.passGroup_keeps {s₀ s : State} (h : s₀.Keeps s) (p : Nat) : s₀.Keeps (s.passGroup p) := by
  unfold State.passGroup
  split
  · exact h
  · exact State.groupPassed_keeps ((State.Keeps.frame _).updPort (State.updMag_keeps h ..) ..) _

theorem State.stepFour_keeps {s₀ s : State} (h : s₀.Keeps s) (p n : Nat) : s₀.Keeps (s.stepFour p n) := by
  induction n generalizing s with
  | zero => exact h
  | succ n ih =>
    unfold State.stepFour
    split
    · exact h
    · exact State.ite_keeps h (ih (State.passGroup_keeps (State.issueGroup_keeps ((State.Keeps.frame _).updLedger
        (State.nextGroup_keeps h _) ..) ..) _))

theorem State.pfwHalt_keeps {s₀ s : State} (h : s₀.Keeps s) (p us : Nat) : s₀.Keeps (s.pfwHalt p us) :=
  (State.Keeps.frame _).flushCheck (State.each_keeps (State.wr_keeps (State.wr_keeps ((State.Keeps.frame _).setPort ((State.Keeps.frame _).clearPort
    ((State.Keeps.frame _).endPortCmds (State.stepFour_keeps
    (State.passGroup_keeps h _) ..) ..) ..) ..) ..) ..) _ _ fun _ _ ht => State.ite_keeps ht ((State.Keeps.frame _).endTake ht ..))

theorem execPfwProgramsDrained_keeps {s₀ s : State} (h :
    s₀.Keeps s) (p _finished us : Nat) : Out.Keeps s₀ (execPfwProgramsDrained p _finished us s) :=
  Out.next_keeps (State.ite_keeps h (State.pfwHalt_keeps h ..))

theorem execPfwNRecover_keeps {s₀ s : State} (h : s₀.Keeps s) : Out.Keeps s₀ (execPfwNRecover s) :=
  Out.next_keeps (State.each_keeps h _ _ fun _ _ ht => State.ite_keeps (State.nandInit_keeps ht _) ht)

/-! ### What the functions of Machine/Takes.lean keep. Their subject: The storage commands: takes, reads, sidecars, flush, mounts and
formats (spec/12). -/

theorem State.storCmd_keeps {s₀ s : State} (h : s₀.Keeps s) (id opcode : Nat) (ok : Cmd → Bool) (f : Cmd → State → State)
    (hf : ∀ c t, s₀.Keeps t → s₀.Keeps (f c t)) : s₀.Keeps (s.storCmd id opcode ok f) :=
  State.ite_keeps h <| State.startCmd_keeps h _ _ _ fun _ _ ht => State.ite_keeps (hf _ _ ht) (State.complete_keeps ht ..)

theorem State.openTake_keeps {s₀ s : State} (h : s₀.Keeps s) (id e placement : Nat) (packed : Bool) (limit : Nat) :
    s₀.Keeps (s.openTake id e placement packed limit) :=
  State.tick_keeps (State.foldl_keeps ((State.Keeps.frame _).updTake (State.wr_keeps (State.wr_keeps (State.wr_keeps (State.wr_keeps
    (State.wr_keeps (State.wr_keeps (State.rollRecord_keeps
    ((State.Keeps.frame _).updStor h _) _) ..) ..) ..) ..) ..) ..) ..) _ _ fun _ _ ht => (State.Keeps.frame _).refill ((State.Keeps.frame _).ledgerPut ht ..) _)

theorem execTakeOpen_keeps {s₀ s : State} (h : s₀.Keeps s) (id : Nat) : Out.Keeps s₀ (execTakeOpen id s) :=
  Out.ite_keeps (Out.next_keeps h) (Out.ite_keeps (Out.next_keeps (State.waitPlan_keeps h _)) (Out.next_keeps
    (State.storCmd_keeps h _ _ _ _ fun _ _ ht => State.ite_keeps (State.openTake_keeps ht ..) (State.complete_keeps ht ..))))

theorem execTakeClose_keeps {s₀ s : State} (h : s₀.Keeps s) (id : Nat) : Out.Keeps s₀ (execTakeClose id s) :=
  Out.ite_keeps (Out.next_keeps h) (Out.next_keeps (State.storCmd_keeps h _ _ _ _ fun _ _ ht => State.ite_keeps
    (State.complete_keeps ht ..) (State.ite_keeps ht (State.ite_keeps (State.startClose_keeps ((State.Keeps.frame _).updTake ht ..) _)
    (State.ite_keeps ((State.Keeps.frame _).closeTake ((State.Keeps.frame _).updTake ht ..) ..) ((State.Keeps.frame _).updTake ht ..))))))

theorem State.readTile_keeps {s₀ s : State} (h : s₀.Keeps s) (lost : List (Nat × Nat × Nat)) (ports bad : List Nat)
    (take serial tile : Nat) : s₀.Keeps (s.readTile lost ports bad take serial tile).1 := by
  unfold State.readTile
  split
  · exact h
  · extract_lets +onlyGivenNames _
    split
    · exact State.whenB_keeps h _ _ fun _ ht => State.playbackSeen_keeps (State.tick_keeps ht) ..
    · split
      · exact State.playbackTile_keeps h ..
      · exact State.playbackSeen_keeps (State.tick_keeps h) ..

theorem State.deliver_keeps {s₀ s : State} (h : s₀.Keeps s) (c : Cmd) (w : ReadWork) (u : ReadUnit) : s₀.Keeps (s.deliver c w u).1 := by
  unfold State.deliver
  split
  · extract_lets +onlyGivenNames _ _ _ t
    have ht : s₀.Keeps t := State.emit_keeps (State.readTile_keeps h ..) _
    split
    · exact ht
    · exact State.emit_keeps ht _
  · exact State.tick_keeps (State.emit_keeps h _)

theorem State.readOn_keeps {s₀ s : State} (h : s₀.Keeps s) (c : Cmd) (l : List ReadUnit) : s₀.Keeps (s.readOn c l) := by
  induction l generalizing s with
  | nil =>
    unfold State.readOn
    split
    · exact h
    · exact (State.Keeps.frame _).updStor (State.complete_keeps h ..) _
    · contradiction
  | cons u us ih =>
    unfold State.readOn
    split
    · exact h
    · contradiction
    · rename_i hl _
      obtain ⟨rfl, rfl⟩ := List.cons.inj hl
      exact State.ite_keeps h (ih (State.updCmd_keeps ((State.Keeps.frame _).updStor (State.deliver_keeps h ..) _) ..))

theorem State.startRead_keeps {s₀ s : State} (h : s₀.Keeps s) (c : Cmd) : s₀.Keeps (s.startRead c) :=
  State.readOn_keeps (State.each_keeps ((State.Keeps.frame _).updStor h _) _ _ fun _ _ ht => State.addOps_keeps ht ..) ..

theorem State.readPart_keeps {s₀ s : State} (h : s₀.Keeps s) (p id : Nat) (z : PuPlace) (page : Nat) :
    s₀.Keeps (s.readPart p id z page) := by
  unfold State.readPart
  refine State.withCmd_keeps h _ _ ?_
  intro _ t ht
  split
  · exact ht
  · exact State.readOn_keeps ((State.Keeps.frame _).updStor ht _) ..

theorem execReadTiles_keeps {s₀ s : State} (h : s₀.Keeps s) (id : Nat) : Out.Keeps s₀ (execReadTiles id s) := by
  unfold execReadTiles
  refine Out.next_keeps (State.storCmd_keeps h _ _ _ _ ?_)
  intro _ t ht
  extract_lets +onlyGivenNames _
  refine State.ite_keeps (State.complete_keeps ht ..) ?_
  split
  · exact State.complete_keeps ht ..
  · exact State.ite_keeps (State.complete_keeps ht ..) (State.ite_keeps (State.complete_keeps ht ..) (State.ite_keeps
      (State.complete_keeps ht ..) (State.startRead_keeps ht _)))

theorem State.readSidecar_keeps {s₀ s : State} (h : s₀.Keeps s) (id : Nat) (c : Cmd) : s₀.Keeps (s.readSidecar id c) := by
  unfold State.readSidecar
  split
  · exact State.complete_keeps h ..
  · exact State.ite_keeps (State.complete_keeps h ..) (State.startRead_keeps h _)

theorem State.readFrames_keeps {s₀ s : State} (h : s₀.Keeps s) (id : Nat) (c : Cmd) : s₀.Keeps (s.readFrames id c) := by
  unfold State.readFrames
  extract_lets +onlyGivenNames _
  split
  · exact State.complete_keeps h ..
  · exact State.ite_keeps (State.complete_keeps h ..) (State.ite_keeps (State.complete_keeps h ..) (State.ite_keeps
      (State.complete_keeps h ..) (State.startRead_keeps h _)))

theorem execReadRange_keeps {s₀ s : State} (h : s₀.Keeps s) (id : Nat) : Out.Keeps s₀ (execReadRange id s) :=
  Out.next_keeps (State.storCmd_keeps h _ _ _ _ fun _ _ ht => State.ite_keeps (State.complete_keeps ht ..) (State.ite_keeps
    (State.readFrames_keeps ht ..) (State.readSidecar_keeps ht ..)))

theorem State.opEnded_keeps {s₀ s : State} (h : s₀.Keeps s) (p : Nat) (o : DieOp) (r : DieResult) : s₀.Keeps (s.opEnded p o r) := by
  unfold State.opEnded
  extract_lets +onlyGivenNames _ t read
  have ht : s₀.Keeps t := (State.Keeps.frame _).refill ((State.Keeps.frame _).updPort h ..) _
  have hread : ∀ wl page, s₀.Keeps (read wl page) := by
    intro wl page
    dsimp only [read]
    split
    · exact State.updMag_keeps ht ..
    · exact ht
  clear_value t read
  extract_lets +onlyGivenNames t1 t2
  have ht1 : s₀.Keeps t1 := by
    unfold t1
    split
    · exact State.unitEnded_keeps ht ..
    · exact State.ledgerEnded_keeps ht ..
    · exact State.slcEnded_keeps ht ..
    · exact State.eraseEnded_keeps ht ..
    · exact State.readEnded_keeps (hread ..) ..
    · exact State.mountPart_keeps (State.readPart_keeps (State.pageRead_keeps (hread ..) ..) ..) ..
    · exact State.lookEnded_keeps ht _
  have ht2 : s₀.Keeps t2 := State.whenB_keeps (State.adminGroups_keeps ht1 _) _ _ fun _ hu => State.bump_keeps hu ..
  exact (State.Keeps.frame _).opsStatus (State.unmountCheck_keeps (State.mountChecks_keeps (State.reclaim_keeps ht2 _)) _) _

theorem execDieOpComplete_keeps {s₀ s : State} (h :
    s₀.Keeps s) (p die : Nat) (r : DieResult) : Out.Keeps s₀ (execDieOpComplete p die r s) := by
  unfold execDieOpComplete
  split
  · exact Out.next_keeps h
  · exact Out.next_keeps (State.opEnded_keeps h ..)

theorem State.sideStart_keeps {s₀ s : State} (h : s₀.Keeps s) (id p : Nat) (c : Cmd) (file : List Byte) :
    s₀.Keeps (s.sideStart id p c file) := by
  unfold State.sideStart
  extract_lets +onlyGivenNames _
  split
  · exact h
  · exact (State.Keeps.frame _).updPort h ..

theorem execWriteSidecar_keeps {s₀ s : State} (h :
    s₀.Keeps s) (id : Nat) (data : List Byte) : Out.Keeps s₀ (execWriteSidecar id data s) :=
  Out.next_keeps (State.storCmd_keeps h _ _ _ _ fun _ _ ht => State.tick_keeps (State.foldl_keeps ((State.Keeps.frame _).updStor
    (State.whenB_keeps ht _ _ fun _ hu => State.emit_keeps hu _) _) _ _ fun _ _ hu => State.ite_keeps (State.sideStart_keeps hu ..)
    ((State.Keeps.frame _).sidePart hu ..)))

theorem execFlush_keeps {s₀ s : State} (h : s₀.Keeps s) (id : Nat) : Out.Keeps s₀ (execFlush id s) :=
  Out.next_keeps ((State.Keeps.frame _).flushCheck (State.storCmd_keeps h _ _ _ _ fun _ _ ht => State.ite_keeps (State.complete_keeps ht ..)
    ((State.Keeps.frame _).updStor ht _)))

theorem execMount_keeps {s₀ s : State} (h : s₀.Keeps s) (id : Nat) : Out.Keeps s₀ (execMount id s) :=
  Out.next_keeps (State.storCmd_keeps h _ _ _ _ fun _ _ ht => State.ite_keeps (State.mountChecks_keeps (State.mountRun_keeps ht ..))
    (State.complete_keeps ht ..))

theorem execUnmount_keeps {s₀ s : State} (h : s₀.Keeps s) (id : Nat) : Out.Keeps s₀ (execUnmount id s) :=
  Out.next_keeps (State.storCmd_keeps h _ _ _ _ fun _ _ ht => State.ite_keeps (State.complete_keeps ht ..) (State.ite_keeps
    (State.complete_keeps ht ..) (State.unmountCheck_keeps (State.wr_keeps (State.wr_keeps (State.wr_keeps (State.wr_keeps
    ((State.Keeps.frame _).updPort ht ..) ..) ..) ..) ..) _)))

theorem execFormat_keeps {s₀ s : State} (h : s₀.Keeps s) (id : Nat) : Out.Keeps s₀ (execFormat id s) := by
  unfold execFormat
  refine Out.next_keeps (State.storCmd_keeps h _ _ _ _ ?_)
  intro _ t ht
  extract_lets +onlyGivenNames _ _ _ _
  split
  · exact State.complete_keeps ht ..
  · exact State.ite_keeps (State.complete_keeps ht ..) (State.ite_keeps (State.complete_keeps ht ..) (State.ite_keeps
      (State.complete_keeps ht ..) (State.ite_keeps (State.complete_keeps ht ..) (State.adminStart_keeps (State.tick_keeps ht) ..))))

theorem execSanitize_keeps {s₀ s : State} (h : s₀.Keeps s) (id : Nat) : Out.Keeps s₀ (execSanitize id s) := by
  unfold execSanitize
  refine Out.next_keeps (State.storCmd_keeps h _ _ _ _ ?_)
  intro _ t ht
  extract_lets +onlyGivenNames _
  split
  · exact State.complete_keeps ht ..
  · exact State.ite_keeps (State.complete_keeps ht ..) (State.adminStart_keeps ht ..)

theorem execIdentifyReel_keeps {s₀ s : State} (h : s₀.Keeps s) (id : Nat) : Out.Keeps s₀ (execIdentifyReel id s) := by
  unfold execIdentifyReel
  refine Out.next_keeps (State.storCmd_keeps h _ _ _ _ ?_)
  intro _ t ht
  extract_lets +onlyGivenNames _
  split
  · exact State.complete_keeps ht ..
  · refine State.ite_keeps (State.complete_keeps ht ..) ?_
    split
    · exact State.complete_keeps ht ..
    · exact State.complete_keeps (State.emit_keeps ht _) ..

theorem execGetLog_keeps {s₀ s : State} (h : s₀.Keeps s) (id : Nat) : Out.Keeps s₀ (execGetLog id s) := by
  unfold execGetLog
  refine Out.next_keeps (State.storCmd_keeps h _ _ _ _ ?_)
  intro _ t ht
  extract_lets +onlyGivenNames _
  split
  · exact State.complete_keeps ht ..
  · exact State.ite_keeps (State.complete_keeps ht ..) (State.complete_keeps (State.emit_keeps ht _) ..)

theorem State.closeAtDecode_keeps {s₀ s : State} (h : s₀.Keeps s) (c : Cmd) : s₀.Keeps (s.closeAtDecode c) := by
  unfold State.closeAtDecode
  extract_lets +onlyGivenNames _ _
  exact State.ite_keeps (State.ite_keeps (State.startClose_keeps ((State.Keeps.frame _).updTake h ..) _) ((State.Keeps.frame _).updTake h ..)) h

theorem State.atDecode_keeps {s₀ s : State} (h : s₀.Keeps s) (id : Nat) : s₀.Keeps (s.atDecode id) := by
  unfold State.atDecode
  split
  · exact State.ite_keeps h (State.closeAtDecode_keeps (State.updCmd_keeps h ..) _)
  · exact h

theorem execDescriptorDecode_keeps {s₀ s : State} (h : s₀.Keeps s) : Out.Keeps s₀ (execDescriptorDecode s) := by
  unfold execDescriptorDecode
  refine Out.ite_keeps (Out.next_keeps h) ?_
  split
  · exact Out.next_keeps h
  · split
    · exact Out.next_keeps h
    · exact Out.next_keeps (State.atDecode_keeps (State.decodeOne_keeps h ..) _)

theorem State.recordsWritten_keeps {s₀ s : State} (h : s₀.Keeps s) : s₀.Keeps s.recordsWritten :=
  (State.Keeps.frame _).flushCheck (State.unmountCheck_keeps (State.unmountCheck_keeps h _) _)

theorem execDoorbellPageReturn_keeps {s₀ s : State} (h :
    s₀.Keeps s) (page : Option (List Nat)) : Out.Keeps s₀ (execDoorbellPageReturn page s) := by
  unfold execDoorbellPageReturn
  split
  · exact Out.next_keeps h
  · exact Out.next_keeps (State.updHost_keeps (State.flagCount_keeps h ..) _)
  · exact Out.next_keeps (State.recordsWritten_keeps (State.checkLost_keeps (State.updHost_keeps (State.each_keeps (State.each_keeps
      (State.each_keeps
      (State.updHost_keeps h _) _ _ fun _ _ ht => State.pollQueue_keeps ht ..) _ _ fun _ _ ht => State.pollRing_keeps ht ..) _ _ fun _ _
      ht => State.pollBarrow_keeps ht ..) _)))

theorem execCompletionRecordWrite_keeps {s₀ s : State} (h : s₀.Keeps s) (q : Nat) : Out.Keeps s₀ (execCompletionRecordWrite q s) :=
  Out.next_keeps (State.whenUp_keeps h _ _ fun _ ht => State.recordsWritten_keeps (State.writeCompletion_keeps ht _))

/-! ### What the functions of Machine/Barrows.lean keep. Their subject: The barrows (spec/11 R400 to R410). -/

theorem State.barrowGo_keeps {s₀ s : State} (h : s₀.Keeps s) (c a : Nat) : s₀.Keeps (s.barrowGo c a) :=
  (State.Keeps.frame _).updBarrow (State.wr_keeps (State.wr_keeps (State.wr_keeps h ..) ..) ..) ..

theorem State.barrowBegin_keeps {s₀ s : State} (h : s₀.Keeps s) (c : Nat) : s₀.Keeps (s.barrowBegin c) :=
  State.barrowGo_keeps h ..

theorem State.barrowTake_keeps {s₀ s : State} (h : s₀.Keeps s) (c : Nat) : s₀.Keeps (s.barrowTake c) :=
  State.tick_keeps ((State.Keeps.frame _).barrowBuf ((State.Keeps.frame _).updBarrow h ..))

theorem State.barrowBytes_keeps {s₀ s : State} (h : s₀.Keeps s) (c n : Nat) : s₀.Keeps (s.barrowBytes c n) :=
  State.wr_keeps (State.wr_keeps h ..) ..

theorem State.barrowEngine_keeps {s₀ s t : State} (h : s₀.Keeps s) {c : Nat} (hs : s.barrowEngine c = some t) : s₀.Keeps t := by
  unfold State.barrowEngine at hs
  extract_lets _ _ give at hs
  have hgive : ∀ u, s₀.Keeps u → s₀.Keeps (give u) := fun _ hu =>
    State.barrowTake_keeps ((State.Keeps.frame _).updBarrow (State.updHost_keeps hu _) ..) _
  split at hs
  · cases hs
  · split at hs
    · cases hs
      exact hgive _ h
    · split at hs <;> cases hs
      exact hgive _ ((State.Keeps.frame _).updBarrow h ..)

theorem State.barrowNextDesc_keeps {s₀ s : State} (h : s₀.Keeps s) (c : Nat) (d : BarrowDesc) : s₀.Keeps (s.barrowNextDesc c d) := by
  unfold State.barrowNextDesc
  extract_lets +onlyGivenNames t
  have ht : s₀.Keeps t := (State.Keeps.frame _).barrowRelease h _
  exact State.ite_keeps (State.barrowGo_keeps ht ..) ((State.Keeps.frame _).updBarrow (State.wr_keeps ht ..) ..)

theorem State.barrowScraped_keeps {s₀ s : State} (h : s₀.Keeps s) (c : Nat) (d : BarrowDesc) : s₀.Keeps (s.barrowScraped c d) :=
  State.barrowNextDesc_keeps ((State.Keeps.frame _).barrowPost ((State.Keeps.frame _).barrowRelease h _) ..) ..

theorem State.barrowRead_keeps {s₀ s : State} (h : s₀.Keeps s) (c : Nat) (bs : List Byte) : s₀.Keeps (s.barrowRead c bs) := by
  unfold State.barrowRead
  extract_lets +onlyGivenNames _ _ _ t _
  have ht : s₀.Keeps t := (State.Keeps.frame _).updBarrow h ..
  exact State.ite_keeps ((State.Keeps.frame _).barrowHalt ht ..) (State.ite_keeps (State.barrowScraped_keeps ((State.Keeps.frame _).updBarrow
    (State.foldl_keeps ht _ _ fun _ _ ht => State.takeHold_keeps ht ..) ..) ..) ((State.Keeps.frame _).updBarrow
    (State.foldl_keeps ht _ _ fun _ _ ht => State.takeHold_keeps ht ..) ..))

theorem execBarrowDescFetch_keeps {s₀ s : State} (h : s₀.Keeps s) (c : Nat) (data : Option (List Byte)) :
    Out.Keeps s₀ (execBarrowDescFetch c data s) := by
  unfold execBarrowDescFetch
  split
  · exact Out.next_keeps h
  · split
    · exact Out.next_keeps h
    · extract_lets t
      have ht : s₀.Keeps t := (State.Keeps.frame _).updBarrow (State.emit_keeps (State.barrowEngine_keeps h ‹_›) _) ..
      split
      · exact Out.next_keeps ((State.Keeps.frame _).barrowHalt ht ..)
      · exact Out.next_keeps (State.barrowRead_keeps ht ..)

theorem State.barrowNotice_keeps {s₀ s : State} (h : s₀.Keeps s) (e serial : Nat) : s₀.Keeps (s.barrowNotice e serial) := by
  unfold State.barrowNotice
  refine State.each_keeps h _ _ ?_
  intro t _ ht
  split
  · exact State.ite_keeps ht (State.ite_keeps (State.barrowScraped_keeps ht ..) ((State.Keeps.frame _).updBarrow ht ..))
  · exact ht

theorem State.barrowTile_keeps {s₀ s : State} (d : BarrowDesc) {a : State × Nat} (ha : s₀.Keeps a.1) (i : Nat) :
    s₀.Keeps (s.barrowTile d a i).1 := by
  unfold State.barrowTile
  extract_lets +onlyGivenNames _ _ _ seen owner hurt t
  have hseen : s₀.Keeps seen := State.tileSeen_keeps (State.hbmRead_keeps (State.hbmRead_keeps ha ..) ..) ..
  have hhurt : s₀.Keeps hurt := by
    refine State.whenB_keeps hseen _ _ fun _ ht => ?_
    clear_value owner
    split
    · exact State.tileHurt_keeps ht ..
    · exact ht
  exact State.emit_keeps (State.emit_keeps (State.whenB_keeps hhurt _ _ fun _ ht => State.flagCount_keeps ht ..) _) _

theorem State.barrowMove_keeps {s₀ s : State} (h : s₀.Keeps s) (c : Nat) (d : BarrowDesc) (n : Nat) (data : List Byte) :
    s₀.Keeps (s.barrowMove c d n data).1 := by
  unfold State.barrowMove
  extract_lets _ _
  split
  · exact State.barrowBytes_keeps (State.foldl_fst_keeps _ _ (fun _ _ ha => State.barrowTile_keeps d ha _) _ h) ..
  · split
    · exact State.barrowBytes_keeps (State.emit_keeps (State.hbmRead_keeps h ..) _) ..
    · exact State.barrowBytes_keeps (State.put_keeps h ..) ..

theorem execBarrowDescEnd_keeps {s₀ s : State} (h : s₀.Keeps s) (c : Nat) (data : List Byte) (err : Bool) :
    Out.Keeps s₀ (execBarrowDescEnd c data err s) := by
  unfold execBarrowDescEnd
  split
  · exact Out.next_keeps h
  · exact Out.next_keeps h
  · rename_i d t _ ht
    have ht : s₀.Keeps t := by
      split at ht
      · cases ht
        exact h
      · exact State.barrowEngine_keeps h ht
    split
    · exact Out.next_keeps h
    · split
      · exact Out.next_keeps ((State.Keeps.frame _).barrowHalt (State.barrowMove_keeps ht ..) ..)
      · exact Out.next_keeps (State.barrowNextDesc_keeps (State.whenB_keeps (State.barrowMove_keeps ht ..) _ _ fun _ hu =>
          (State.Keeps.frame _).barrowPost hu ..) ..)

theorem execBarrowCtrlReread_keeps {s₀ s : State} (h :
    s₀.Keeps s) (c : Nat) (word : Option Nat) : Out.Keeps s₀ (execBarrowCtrlReread c word s) := by
  unfold execBarrowCtrlReread
  refine Out.ite_keeps (Out.next_keeps h) ?_
  split
  · exact Out.next_keeps ((State.Keeps.frame _).barrowHalt ((State.Keeps.frame _).updBarrow (State.emit_keeps h _) ..) ..)
  · exact Out.ite_keeps (Out.next_keeps ((State.Keeps.frame _).updBarrow (State.emit_keeps h _) ..)) (Out.next_keeps (State.barrowGo_keeps
      ((State.Keeps.frame _).updBarrow (State.emit_keeps h _) ..) ..))

theorem State.barrowCtrl_keeps {s₀ s : State} (h : s₀.Keeps s) (c v : Nat) : s₀.Keeps (s.barrowCtrl c v) :=
  State.wr_keeps (State.wr_keeps (State.wr_keeps h ..) ..) ..

theorem execBarrowChannelEnable_keeps {s₀ s : State} (h : s₀.Keeps s) (c v : Nat) : Out.Keeps s₀ (execBarrowChannelEnable c v s) :=
  Out.ite_keeps (Out.next_keeps (State.wr_keeps h ..)) (Out.next_keeps (State.ite_keeps (State.barrowBegin_keeps
    (State.barrowCtrl_keeps h ..) _) (State.barrowCtrl_keeps h ..)))

theorem State.barrowStop_keeps {s₀ s : State} (h : s₀.Keeps s) (c moved : Nat) (data : List Byte) :
    s₀.Keeps (s.barrowStop c moved data) := by
  unfold State.barrowStop
  refine (State.Keeps.frame _).updBarrow (State.wr_keeps ?_ ..) ..
  split
  · exact h
  · refine (State.Keeps.frame _).barrowPost (State.flagCount_keeps ((State.Keeps.frame _).barrowRelease ?_ _) ..) ..
    split
    · exact State.barrowMove_keeps h ..
    · exact h

theorem execBarrowChannelDisable_keeps {s₀ s : State} (h :
    s₀.Keeps s) (c v moved : Nat) (data : List Byte) : Out.Keeps s₀ (execBarrowChannelDisable c v moved data s) :=
  Out.ite_keeps (Out.next_keeps (State.wr_keeps h ..)) (Out.next_keeps (State.barrowCtrl_keeps (State.barrowStop_keeps h ..) ..))

theorem execBarrowChannelRestart_keeps {s₀ s : State} (h : s₀.Keeps s) (c v : Nat) : Out.Keeps s₀ (execBarrowChannelRestart c v s) :=
  Out.ite_keeps (Out.next_keeps (State.wr_keeps h ..)) (Out.ite_keeps (Out.next_keeps (State.barrowCtrl_keeps
    (State.barrowStop_keeps h ..) ..)) (Out.next_keeps (State.ite_keeps (State.barrowBegin_keeps (State.barrowCtrl_keeps h ..) _)
    (State.barrowCtrl_keeps h ..))))

/-! ### What the functions of Machine/Sketch.lean keep. Their subject: Stream contexts, sketch cores and reading cores (spec/13). -/

theorem State.updPic_keeps {s₀ s : State} (h : s₀.Keeps s) (x : Nat) (f : ScPic → ScPic) : s₀.Keeps (s.updPic x f) :=
  (State.Keeps.frame _).updSc h ..

theorem execVcdScCommit_keeps {s₀ s : State} (h : s₀.Keeps s) (x : Nat) : Out.Keeps s₀ (execVcdScCommit x s) := by
  unfold execVcdScCommit
  extract_lets +onlyGivenNames _
  exact Out.ite_keeps (Out.next_keeps (State.wr_keeps h ..)) (Out.ite_keeps (Out.ite_keeps (Out.next_keeps ((State.Keeps.frame _).updSc h ..))
    (Out.next_keeps (State.wr_keeps h ..))) (Out.next_keeps ((State.Keeps.frame _).updSc (State.wr_keeps h ..) ..)))

theorem execVcdScCommitCheckDone_keeps {s₀ s : State} (h : s₀.Keeps s) (x : Nat) : Out.Keeps s₀ (execVcdScCommitCheckDone x s) := by
  unfold execVcdScCommitCheckDone
  refine Out.ite_keeps (Out.next_keeps h) ?_
  split
  · exact Out.next_keeps h
  · extract_lets +onlyGivenNames _ t
    have ht : s₀.Keeps t := (State.Keeps.frame _).updSc (State.wr_keeps h ..) ..
    exact Out.ite_keeps (Out.next_keeps (State.ite_keeps (State.wr_keeps (State.wr_keeps ((State.Keeps.frame _).updSc ht ..) ..) ..)
      ((State.Keeps.frame _).updSc ht ..))) (Out.next_keeps (State.wr_keeps ht ..))

theorem State.updBuf_keeps {s₀ s : State} (h : s₀.Keeps s) (x addr : Nat) (f : PoolBuf → PoolBuf) : s₀.Keeps (s.updBuf x addr f) :=
  (State.Keeps.frame _).updPool h ..

theorem State.markShort_keeps {s₀ s : State} (h : s₀.Keeps s) (x addr : Nat) : s₀.Keeps (s.markShort x addr) := by
  unfold State.markShort
  refine State.updBuf_keeps ?_ ..
  split
  · exact h
  · refine State.ite_keeps (State.updBuf_keeps ?_ ..) (State.updBuf_keeps h ..)
    split
    · exact State.updBuf_keeps h ..
    · exact h

theorem execSketchOpen_keeps {s₀ s : State} (h : s₀.Keeps s) (id : Nat) : Out.Keeps s₀ (execSketchOpen id s) := by
  unfold execSketchOpen
  refine Out.ite_keeps (Out.next_keeps (State.waitPlan_keeps h _)) (Out.next_keeps (State.startCmd_keeps h _ _ _ ?_))
  intro _ t ht
  extract_lets +onlyGivenNames _ _ _ _ _ _
  refine State.ite_keeps (State.complete_keeps ht ..) (State.ite_keeps (State.complete_keeps ht ..) (State.ite_keeps
    (State.complete_keeps ht ..) (State.ite_keeps (State.complete_keeps ht ..) ?_)))
  split
  · exact State.complete_keeps (State.whenB_keeps ht _ _ fun _ hu => State.wr_keeps hu ..) ..
  · exact State.complete_keeps ((State.Keeps.frame _).updPool (State.wr_keeps ((State.Keeps.frame _).updSc ht ..) ..) ..) ..

theorem State.auDone_keeps {s₀ s : State} (h : s₀.Keeps s) (x au : Nat) : s₀.Keeps (s.auDone x au) :=
  (State.Keeps.frame _).scRelease ((State.Keeps.frame _).updSc h ..) _

theorem State.scStall_keeps {s₀ s : State} (h : s₀.Keeps s) (x k need : Nat) : s₀.Keeps (s.scStall x k need) :=
  State.raise_keeps (State.flagCount_keeps ((State.Keeps.frame _).updSc h ..) ..) ..

theorem execSketchRingResume_keeps {s₀ s : State} (h : s₀.Keeps s) (x : Nat) : Out.Keeps s₀ (execSketchRingResume x s) :=
  Out.next_keeps ((State.Keeps.frame _).updSc ((State.Keeps.frame _).scRelease h _) ..)

theorem State.closeCheck_keeps {s₀ s : State} (h : s₀.Keeps s) (x : Nat) : s₀.Keeps (s.closeCheck x) := by
  unfold State.closeCheck
  extract_lets +onlyGivenNames _
  split
  · exact State.ite_keeps ((State.Keeps.frame _).scClosed (State.complete_keeps h ..) _) h
  · exact h

theorem execSketchClose_keeps {s₀ s : State} (h : s₀.Keeps s) (id : Nat) : Out.Keeps s₀ (execSketchClose id s) :=
  Out.next_keeps (State.startCmd_keeps h _ _ _ fun _ _ ht => State.ite_keeps (State.complete_keeps ht ..) (State.ite_keeps
    (State.complete_keeps ht ..) (State.closeCheck_keeps (State.ite_keeps (State.foldl_keeps ((State.Keeps.frame _).updSc (State.wr_keeps
    (State.foldl_keeps
    (State.foldl_keeps ht _ _ fun _ _ hu => (State.Keeps.frame _).scDrop hu ..) _ _ fun _ _ hu => State.complete_keeps hu ..) ..) ..) _ _ fun _ _
    hu => State.auDone_keeps hu ..) ((State.Keeps.frame _).updSc (State.wr_keeps (State.foldl_keeps
    (State.foldl_keeps ht _ _ fun _ _ hu => (State.Keeps.frame _).scDrop hu ..) _ _ fun _ _ hu => State.complete_keeps hu ..) ..) ..)) _)))

theorem execSketchRefresh_keeps {s₀ s : State} (h : s₀.Keeps s) (id : Nat) : Out.Keeps s₀ (execSketchRefresh id s) :=
  Out.next_keeps (State.startCmd_keeps h _ _ _ fun _ _ ht => State.ite_keeps (State.complete_keeps ht ..) (State.ite_keeps
    (State.complete_keeps ht ..) ((State.Keeps.frame _).updSc ht ..)))

theorem State.scSkip_keeps {s₀ s : State} (h : s₀.Keeps s) (x : Nat) : s₀.Keeps (s.scSkip x) :=
  State.whenB_keeps ((State.Keeps.frame _).updSc (State.flagCount_keeps h ..) ..) _ _ fun _ ht => State.raise_keeps ht ..

theorem State.sketchOffer_keeps {s₀ s : State} (h : s₀.Keeps s) (v k e : Nat) (f : Frame) : s₀.Keeps (s.sketchOffer v k e f) :=
  State.each_keeps h _ _ fun _ _ ht => State.ite_keeps ((State.Keeps.frame _).updSc (State.takeViewHold_keeps ht ..) ..) (State.scSkip_keeps ht _)

theorem State.pictureTaken_keeps {s₀ s : State} (h : s₀.Keeps s) (k x : Nat) : s₀.Keeps (s.pictureTaken k x) := by
  unfold State.pictureTaken
  extract_lets +onlyGivenNames t
  have ht : s₀.Keeps t := (State.Keeps.frame _).updVcd h _
  split
  · exact ht
  · exact (State.Keeps.frame _).updSc (State.updBuf_keeps ht ..) ..
  · exact State.scSkip_keeps ((State.Keeps.frame _).scDrop ((State.Keeps.frame _).updSc h ..) ..) _
  · exact h

theorem execSketchPictureStart_keeps {s₀ s : State} (h : s₀.Keeps s) (k : Nat) : Out.Keeps s₀ (execSketchPictureStart k s) := by
  unfold execSketchPictureStart
  refine Out.ite_keeps (Out.next_keeps h) ?_
  split
  · exact Out.next_keeps h
  · exact Out.next_keeps (State.pictureTaken_keeps h ..)

theorem State.picBegin_keeps {s₀ s : State} (h : s₀.Keeps s) (x : Nat) (p : ScPic) : s₀.Keeps (s.picBegin x p) := by
  unfold State.picBegin
  extract_lets +onlyGivenNames s _ _ _ _ _ _ _ _ _ _ _ _ _ _ _ _ _ _ _ _ _ _ _ t t1 t2
  have hs : s₀.Keeps s := (State.Keeps.frame _).updSc h ..
  have ht : s₀.Keeps t := State.foldl_keeps hs _ _ fun _ _ ht => State.complete_keeps ht ..
  have ht1 : s₀.Keeps t1 := (State.Keeps.frame _).updSc ht ..
  have ht2 : s₀.Keeps t2 := State.updBuf_keeps (State.wr_keeps ht1 ..) ..
  exact State.ite_keeps (State.raise_keeps (State.flagCount_keeps ht2 ..) ..) ht2

theorem State.rowStarted_keeps {s₀ s : State} (h : s₀.Keeps s) (x k i j : Nat) (p : ScPic) (q : ScPart) :
    s₀.Keeps (s.rowStarted x k i j p q) :=
  (State.Keeps.frame _).updVcd (State.updPic_keeps (State.ite_keeps h (State.picBegin_keeps h ..)) ..) _

theorem execSketchRowStart_keeps {s₀ s : State} (h : s₀.Keeps s) (k : Nat) : Out.Keeps s₀ (execSketchRowStart k s) := by
  unfold execSketchRowStart
  split
  · split
    · split
      · split
        · exact Out.next_keeps (State.ite_keeps (State.rowStarted_keeps h ..) h)
        · exact Out.next_keeps h
      · exact Out.next_keeps (State.tick_keeps h)
    · exact Out.next_keeps h
  · exact Out.next_keeps h

theorem State.rowEnd_keeps {s₀ s : State} (h : s₀.Keeps s) (x k i : Nat) (p : ScPic) (f : ScPart → ScPart) :
    s₀.Keeps (s.rowEnd x k i p f) := by
  unfold State.rowEnd
  exact State.whenB_keeps (State.ite_keeps ((State.Keeps.frame _).updVcd ((State.Keeps.frame _).updSc h ..) _) (State.updPic_keeps ((State.Keeps.frame _).updVcd
    ((State.Keeps.frame _).updSc h ..) _) ..)) _ _ fun _ ht => (State.Keeps.frame _).scDrop ht ..

theorem State.rowCoded_keeps {s₀ s : State} (h : s₀.Keeps s) (x k i j : Nat) (p : ScPic) (q : ScPart) (row floor : List ScCtu) :
    s₀.Keeps (s.rowCoded x k i j p q row floor) := by
  unfold State.rowCoded
  extract_lets +onlyGivenNames _ _
  split
  · exact State.scStall_keeps h ..
  · exact State.scStall_keeps h ..
  · exact State.rowEnd_keeps h ..

theorem execSketchRowDone_keeps {s₀ s : State} (h :
    s₀.Keeps s) (k : Nat) (row floor : List ScCtu) : Out.Keeps s₀ (execSketchRowDone k row floor s) := by
  unfold execSketchRowDone
  split
  · split
    · split
      · exact Out.next_keeps (State.ite_keeps (State.rowCoded_keeps h ..) h)
      · exact Out.next_keeps h
    · exact Out.next_keeps h
  · exact Out.next_keeps h

theorem State.picEnd_keeps {s₀ s : State} (h : s₀.Keeps s) (x : Nat) (p : ScPic) (au : ScAu) : s₀.Keeps (s.picEnd x p au) :=
  State.closeCheck_keeps (State.ite_keeps (State.auDone_keeps (State.ite_keeps (State.updBuf_keeps (State.ite_keeps (State.bump_keeps
    (State.ite_keeps (State.raise_keeps (State.flagCount_keeps (State.bump_keeps ((State.Keeps.frame _).updSc h ..) ..) ..) ..) (State.bump_keeps
    ((State.Keeps.frame _).updSc h ..) ..)) ..) (State.ite_keeps (State.raise_keeps (State.flagCount_keeps (State.bump_keeps
    ((State.Keeps.frame _).updSc h ..) ..) ..) ..) (State.bump_keeps ((State.Keeps.frame _).updSc h ..) ..))) ..) (State.ite_keeps (State.updBuf_keeps
    (State.ite_keeps (State.bump_keeps (State.ite_keeps (State.raise_keeps (State.flagCount_keeps (State.bump_keeps
    ((State.Keeps.frame _).updSc h ..) ..) ..) ..) (State.bump_keeps ((State.Keeps.frame _).updSc h ..) ..)) ..) (State.ite_keeps (State.raise_keeps
    (State.flagCount_keeps (State.bump_keeps ((State.Keeps.frame _).updSc h ..) ..) ..) ..) (State.bump_keeps ((State.Keeps.frame _).updSc h ..) ..))) ..)
    (State.markShort_keeps (State.ite_keeps (State.bump_keeps (State.ite_keeps (State.raise_keeps (State.flagCount_keeps
    (State.bump_keeps ((State.Keeps.frame _).updSc h ..) ..) ..) ..) (State.bump_keeps ((State.Keeps.frame _).updSc h ..) ..)) ..) (State.ite_keeps
    (State.raise_keeps (State.flagCount_keeps (State.bump_keeps ((State.Keeps.frame _).updSc h ..) ..) ..) ..) (State.bump_keeps
    ((State.Keeps.frame _).updSc h ..) ..))) ..))) ..) (State.ite_keeps (State.updBuf_keeps (State.ite_keeps (State.bump_keeps (State.ite_keeps
    (State.raise_keeps (State.flagCount_keeps (State.bump_keeps ((State.Keeps.frame _).updSc h ..) ..) ..) ..) (State.bump_keeps
    ((State.Keeps.frame _).updSc h ..) ..)) ..) (State.ite_keeps (State.raise_keeps (State.flagCount_keeps (State.bump_keeps
    ((State.Keeps.frame _).updSc h ..) ..) ..) ..) (State.bump_keeps ((State.Keeps.frame _).updSc h ..) ..))) ..) (State.ite_keeps (State.updBuf_keeps
    (State.ite_keeps (State.bump_keeps (State.ite_keeps (State.raise_keeps (State.flagCount_keeps (State.bump_keeps
    ((State.Keeps.frame _).updSc h ..) ..) ..) ..) (State.bump_keeps ((State.Keeps.frame _).updSc h ..) ..)) ..) (State.ite_keeps (State.raise_keeps
    (State.flagCount_keeps (State.bump_keeps ((State.Keeps.frame _).updSc h ..) ..) ..) ..) (State.bump_keeps ((State.Keeps.frame _).updSc h ..) ..))) ..)
    (State.markShort_keeps (State.ite_keeps (State.bump_keeps (State.ite_keeps (State.raise_keeps (State.flagCount_keeps
    (State.bump_keeps ((State.Keeps.frame _).updSc h ..) ..) ..) ..) (State.bump_keeps ((State.Keeps.frame _).updSc h ..) ..)) ..) (State.ite_keeps
    (State.raise_keeps (State.flagCount_keeps (State.bump_keeps ((State.Keeps.frame _).updSc h ..) ..) ..) ..) (State.bump_keeps
    ((State.Keeps.frame _).updSc h ..) ..))) ..)))) _

theorem State.scPut_keeps {s₀ s : State} (h : s₀.Keeps s) (x : Nat) (bs : List Byte) : s₀.Keeps (s.scPut x bs) :=
  (State.Keeps.frame _).updSc (State.put_keeps (State.put_keeps h ..) ..) ..

theorem State.nalCommitted_keeps {s₀ s : State} (h : s₀.Keeps s) (x : Nat) (p : ScPic) (au : ScAu) (n : NalSays) (head : List Byte)
    (last : Bool) : s₀.Keeps (s.nalCommitted x p au n head last) :=
  (State.Keeps.frame _).scRelease (State.ite_keeps (State.picEnd_keeps ((State.Keeps.frame _).updSc (State.scPut_keeps h ..) ..) ..) ((State.Keeps.frame _).updSc
    (State.scPut_keeps h ..) ..)) _

theorem execSketchNalCommit_keeps {s₀ s : State} (h :
    s₀.Keeps s) (x : Nat) (head : List Byte) (part : Option Nat) (last : Bool) : Out.Keeps s₀
    (execSketchNalCommit x head part last s) := by
  unfold execSketchNalCommit
  split
  · split
    · exact Out.next_keeps h
    · exact Out.next_keeps (State.ite_keeps (State.nalCommitted_keeps h ..) h)
  · exact Out.next_keeps h

theorem State.hostRing_keeps {s₀ s : State} (h : s₀.Keeps s) (base size off : Nat) (bs : List Byte) :
    s₀.Keeps (s.hostRing base size off bs) := by
  unfold State.hostRing
  extract_lets +onlyGivenNames t
  have ht : s₀.Keeps t := State.emit_keeps h _
  exact State.ite_keeps ht (State.emit_keeps ht _)

theorem State.scDead_keeps {s₀ s : State} (h : s₀.Keeps s) (x : Nat) : s₀.Keeps (s.scDead x) :=
  State.foldl_keeps h _ _ fun _ _ ht => State.auDone_keeps ht ..

theorem State.auPublished_keeps {s₀ s : State} (h : s₀.Keeps s) (x : Nat) (a : ScAu) : s₀.Keeps (s.auPublished x a) :=
  State.closeCheck_keeps (State.auDone_keeps ((State.Keeps.frame _).updSc (State.postUnsolicited_keeps (State.wr_keeps
    (State.hostRing_keeps h ..) ..) ..) ..) ..) _

theorem execSketchPublish_keeps {s₀ s : State} (h : s₀.Keeps s) (x : Nat) : Out.Keeps s₀ (execSketchPublish x s) := by
  unfold execSketchPublish
  split
  · exact Out.next_keeps (State.closeCheck_keeps (State.scDead_keeps h _) _)
  · exact Out.next_keeps (State.ite_keeps (State.auPublished_keeps (State.scDead_keeps h _) ..) (State.scDead_keeps h _))

theorem State.sketchNotice_keeps {s₀ s : State} (h : s₀.Keeps s) (e serial : Nat) : s₀.Keeps (s.sketchNotice e serial) := by
  unfold State.sketchNotice
  extract_lets +onlyGivenNames _
  exact State.ite_keeps h (State.each_keeps h _ _ fun _ _ ht => State.foldl_keeps ((State.Keeps.frame _).updSc (State.foldl_keeps
    ((State.Keeps.frame _).updSc ht ..) _ _ fun _ _ hu => (State.Keeps.frame _).scDrop hu ..) ..) _ _ fun _ _ hu => State.ite_keeps
    (State.updBuf_keeps hu ..) (State.markShort_keeps hu ..))

theorem State.rcOutput_keeps {s₀ s : State} (h : s₀.Keeps s) (d slot n a : Nat) (l : List HevcPic) :
    s₀.Keeps (s.rcOutput d slot n a l).1 := by
  induction n generalizing s a l with
  | zero => exact h
  | succ n ih =>
    cases l with
    | nil => exact h
    | cons p ps =>
      unfold State.rcOutput
      extract_lets _ _
      split
      · exact h
      · exact ih ((State.Keeps.frame _).updDec (State.emit_keeps h _) ..) ..

theorem State.rcFault_keeps {s₀ s : State} (h : s₀.Keeps s) (d : Nat) (f : Nat × Nat × Nat × Nat) : s₀.Keeps (s.rcFault d f) :=
  State.raise_keeps (State.ite_keeps ((State.Keeps.frame _).updDec h ..) (State.wr_keeps (State.wr_keeps (State.wr_keeps (State.wr_keeps
    (State.wr_keeps (State.wr_keeps ((State.Keeps.frame _).updDec h ..) ..) ..) ..) ..) ..) ..)) ..

theorem State.rcEnd_keeps {s₀ s : State} (h : s₀.Keeps s) (d : Nat) : s₀.Keeps (s.rcEnd d) :=
  (State.Keeps.frame _).updDec h ..

theorem State.rcWrite_keeps {s₀ s : State} (h : s₀.Keeps s) (d : Nat) (c : Cmd) (w : RcWork) : s₀.Keeps (s.rcWrite d c w).1 :=
  (State.Keeps.frame _).updDec (State.rcOutput_keeps h ..) ..

theorem State.rcPicture_keeps {s₀ s : State} (h : s₀.Keeps s) (d : Nat) (a : HevcStep) : s₀.Keeps (s.rcPicture d a).1 := by
  unfold State.rcPicture
  extract_lets +onlyGivenNames _ _ got
  have hgot : ∀ u, got = some u → s₀.Keeps u := by
    intro u hu
    unfold got at hu
    split at hu
    · cases hu
      exact h
    · obtain ⟨l, -, rfl⟩ := Option.map_eq_some_iff.mp hu
      exact (State.Keeps.frame _).updPool ((State.Keeps.frame _).updPool h ..) ..
  clear_value got
  split
  · exact (State.Keeps.frame _).updDec h ..
  · exact (State.Keeps.frame _).updDec (hgot _ rfl) ..

theorem State.rcGo_keeps {s₀ s : State} (h : s₀.Keeps s) (c : Cmd) (d : Nat) (w : RcWork) : s₀.Keeps (s.rcGo c d w) := by
  unfold State.rcGo
  extract_lets +onlyGivenNames a
  have ha : s₀.Keeps a.1 := by
    unfold a
    split
    · exact h
    · exact State.rcPicture_keeps h ..
  clear_value a
  refine State.ite_keeps (State.complete_keeps (State.rcEnd_keeps ha _) ..) ?_
  extract_lets +onlyGivenNames _ t t1 r
  have ht : s₀.Keeps t := State.whenB_keeps ha _ _ fun _ hu => (State.Keeps.frame _).updDec hu ..
  have ht1 : s₀.Keeps t1 := State.whenB_keeps ht _ _ fun _ hu => (State.Keeps.frame _).updDec hu ..
  have hr : s₀.Keeps r.1 := State.rcWrite_keeps ht1 ..
  split
  · exact hr
  · refine State.ite_keeps (State.complete_keeps (State.rcEnd_keeps hr _) ..) <| State.ite_keeps hr ?_
    split
    · exact State.complete_keeps (State.rcFault_keeps (State.rcEnd_keeps hr _) ..) ..
    · exact State.complete_keeps (State.rcEnd_keeps hr _) ..

theorem State.rcBegin_keeps {s₀ s0 : State} (h : s₀.Keeps s0) (c : Cmd) (data : List Byte) : s₀.Keeps (s0.rcBegin c data) := by
  unfold State.rcBegin
  extract_lets +onlyGivenNames _ s _
  have hs : s₀.Keeps s := State.ite_keeps ((State.Keeps.frame _).rcReset h _) h
  exact State.ite_keeps (State.complete_keeps hs ..) (State.rcGo_keeps ((State.Keeps.frame _).updDec (State.emit_keeps hs _) ..) ..)

theorem execRcDecode_keeps {s₀ s : State} (h : s₀.Keeps s) (id : Nat) (data : List Byte) : Out.Keeps s₀ (execRcDecode id data s) := by
  unfold execRcDecode
  split
  · exact Out.next_keeps h
  · split
    · exact Out.ite_keeps (Out.next_keeps (State.rcGo_keeps h ..)) (Out.next_keeps (State.ite_keeps
        (State.startCmd_keeps h _ _ _ fun _ _ ht => State.complete_keeps ht ..) h))
    · exact Out.ite_keeps (Out.next_keeps (State.waitPlan_keeps h _)) (Out.ite_keeps (Out.next_keeps h) (Out.next_keeps
        (State.startCmd_keeps h _ _ _ fun _ _ ht => State.ite_keeps (State.complete_keeps ht ..) (State.rcBegin_keeps ht ..))))

/-! ### What the functions of Machine/Raster.lean keep. Their subject: Raster outputs and viewfinder ports (spec/14). -/

theorem State.rasPulse_keeps {s₀ s : State} (h : s₀.Keeps s) (period : Nat) : s₀.Keeps (s.rasPulse period) :=
  State.foldl_keeps h _ _ fun _ _ ht => State.ite_keeps (State.ite_keeps ((State.Keeps.frame _).outLost ((State.Keeps.frame _).updOut
    ((State.Keeps.frame _).updOut ht ..) ..) _) (State.ite_keeps (State.ite_keeps ((State.Keeps.frame _).outAcquire ((State.Keeps.frame _).updOut
    ((State.Keeps.frame _).updOut ht ..) ..) _) ((State.Keeps.frame _).updOut ((State.Keeps.frame _).updOut ht ..) ..)) ((State.Keeps.frame _).updOut ht ..)))
    ((State.Keeps.frame _).updOut ht ..)

theorem execRasReferenceLoss_keeps {s₀ s : State} (h : s₀.Keeps s) (o : Nat) : Out.Keeps s₀ (execRasReferenceLoss o s) :=
  Out.next_keeps (State.ite_keeps ((State.Keeps.frame _).outLost ((State.Keeps.frame _).updOut h ..) _) h)

theorem State.dsiMode_keeps {s₀ s : State} (h : s₀.Keeps s) (o m : Nat) : s₀.Keeps (s.dsiMode o m) :=
  State.raise_keeps (State.wr_keeps h ..) ..

theorem State.dsiSwitch_keeps {s₀ s : State} (h : s₀.Keeps s) (o : Nat) : s₀.Keeps (s.dsiSwitch o) := by
  unfold State.dsiSwitch
  extract_lets +onlyGivenNames _ _ _
  exact State.ite_keeps (State.dsiMode_keeps h ..) (State.ite_keeps (State.dsiMode_keeps ((State.Keeps.frame _).updOut
    ((State.Keeps.frame _).outRelease h _) ..) ..) h)

theorem execRasFrameStart_keeps {s₀ s : State} (h : s₀.Keeps s) (o : Nat) (err : Int) : Out.Keeps s₀ (execRasFrameStart o err s) := by
  unfold execRasFrameStart
  extract_lets +onlyGivenNames _ s1 s2
  have hs1 : s₀.Keeps s1 := State.ite_keeps h (State.wr_keeps h ..)
  extract_lets +onlyGivenNames s2
  have hs2 : s₀.Keeps s2 := (State.Keeps.frame _).updOut hs1 ..
  extract_lets +onlyGivenNames s2
  have hs2 : s₀.Keeps s2 := State.ite_keeps (State.ite_keeps (State.raise_keeps (State.wr_keeps hs2 ..) ..) hs2) hs1
  exact Out.next_keeps (State.ite_keeps (State.dsiSwitch_keeps hs2 _) hs2)

theorem execRasOutCommit_keeps {s₀ s : State} (h : s₀.Keeps s) (o : Nat) : Out.Keeps s₀ (execRasOutCommit o s) := by
  unfold execRasOutCommit
  extract_lets +onlyGivenNames _ _ _
  exact Out.ite_keeps (Out.next_keeps (State.wr_keeps h ..)) (Out.next_keeps ((State.Keeps.frame _).updOut (State.wr_keeps h ..) ..))

theorem State.outApply_keeps {s₀ s : State} (h : s₀.Keeps s) (o : Nat) (r : RegStore) : s₀.Keeps (s.outApply o r) := by
  unfold State.outApply
  extract_lets +onlyGivenNames t
  have ht : s₀.Keeps t := (State.Keeps.frame _).updOut (State.wr_keeps h ..) ..
  exact State.ite_keeps ((State.Keeps.frame _).outOn ht _) ((State.Keeps.frame _).outOff ht _)

theorem execRasOutCommitCheckDone_keeps {s₀ s : State} (h : s₀.Keeps s) (o : Nat) : Out.Keeps s₀ (execRasOutCommitCheckDone o s) := by
  unfold execRasOutCommitCheckDone
  split
  · exact Out.next_keeps h
  · extract_lets +onlyGivenNames t
    have ht : s₀.Keeps t := (State.Keeps.frame _).updOut h ..
    exact Out.ite_keeps (Out.next_keeps (State.ite_keeps (State.outApply_keeps ht ..) ((State.Keeps.frame _).updOut ht ..))) (Out.next_keeps
      (State.wr_keeps (State.wr_keeps ht ..) ..))

theorem State.livePick_keeps {s₀ s : State} (h : s₀.Keeps s) (o : Nat) : s₀.Keeps (s.livePick o) := by
  unfold State.livePick
  split
  · extract_lets +onlyGivenNames _
    exact State.ite_keeps h (State.wr_keeps ((State.Keeps.frame _).updOut h ..) ..)
  · exact h

theorem State.liveKnown_keeps {s₀ s : State} (h : s₀.Keeps s) (o : Nat) : s₀.Keeps (s.liveKnown o) := by
  unfold State.liveKnown
  split
  · extract_lets +onlyGivenNames _
    exact State.ite_keeps ((State.Keeps.frame _).updOut h ..) h
  · exact State.livePick_keeps h _

theorem State.ringPick_keeps {s₀ s : State} (h : s₀.Keeps s) (o : Nat) : s₀.Keeps (s.ringPick o) := by
  unfold State.ringPick
  extract_lets +onlyGivenNames _ s0
  have hs0 : s₀.Keeps s0 := (State.Keeps.frame _).updOut ((State.Keeps.frame _).outRelease h _) ..
  split
  · exact State.wr_keeps hs0 ..
  · extract_lets +onlyGivenNames _ t t1
    have ht : s₀.Keeps t := (State.Keeps.frame _).updOut (State.takeViewHold_keeps hs0 ..) ..
    have ht1 : s₀.Keeps t1 := State.bump_keeps (State.wr_keeps ht ..) ..
    exact State.ite_keeps (State.bump_keeps ht1 ..) ht1

theorem execRasSelectPoint_keeps {s₀ s : State} (h : s₀.Keeps s) (o : Nat) : Out.Keeps s₀ (execRasSelectPoint o s) := by
  unfold execRasSelectPoint
  extract_lets +onlyGivenNames t
  have ht : s₀.Keeps t := by
    unfold t
    split
    · exact State.outApply_keeps h ..
    · exact h
  exact Out.next_keeps (State.ite_keeps (State.ite_keeps (State.livePick_keeps ht _) (State.ringPick_keeps ht _)) ht)

theorem State.bufferLine_keeps {s₀ s : State} (h : s₀.Keeps s) (o n : Nat) (data : List (List Nat)) : s₀.Keeps (s.bufferLine o n data) :=
  State.ite_keeps h ((State.Keeps.frame _).updOut h ..)

theorem execRasLineFetchDone_keeps {s₀ s : State} (h : s₀.Keeps s) (o n : Nat) : Out.Keeps s₀ (execRasLineFetchDone o n s) := by
  unfold execRasLineFetchDone
  split
  · exact Out.next_keeps h
  · exact Out.ite_keeps (Out.next_keeps h) (Out.ite_keeps (Out.next_keeps (State.ite_keeps ((State.Keeps.frame _).outRelease (State.ite_keeps
      (State.bufferLine_keeps (State.hbmRead_keeps ((State.Keeps.frame _).updOut h ..) ..) ..) ((State.Keeps.frame _).updOut h ..)) _) (State.ite_keeps
      (State.bufferLine_keeps (State.hbmRead_keeps ((State.Keeps.frame _).updOut h ..) ..) ..) ((State.Keeps.frame _).updOut h ..)))) (Out.next_keeps h))

theorem State.liveLine_keeps {s₀ s : State} (h : s₀.Keeps s) (o n k : Nat) (f : Frame) : s₀.Keeps (s.liveLine o n k f) := by
  unfold State.liveLine
  extract_lets +onlyGivenNames _ _ t _ _ _
  have ht : s₀.Keeps t := State.viewsRun_keeps ((State.Keeps.frame _).updViewSlot h ..)
  exact State.ite_keeps (State.bufferLine_keeps (State.livePick_keeps ht _) ..) ht

theorem execRasLiveLineArrive_keeps {s₀ s : State} (h : s₀.Keeps s) (o n : Nat) : Out.Keeps s₀ (execRasLiveLineArrive o n s) := by
  unfold execRasLiveLineArrive
  extract_lets +onlyGivenNames _
  split
  · exact Out.next_keeps h
  · extract_lets +onlyGivenNames _
    split
    · exact Out.next_keeps (State.ite_keeps (State.liveLine_keeps h ..) h)
    · exact Out.next_keeps h

theorem State.anc_keeps {s₀ s : State} (h : s₀.Keeps s) (link line did sdid : Nat) (data : List Byte) :
    s₀.Keeps (s.anc link line did sdid data) :=
  State.emit_keeps h _

theorem State.ancLine_keeps {s₀ s : State} (h : s₀.Keeps s) (o : Nat) : s₀.Keeps (s.ancLine o) := by
  unfold State.ancLine
  refine State.each_keeps (State.ite_keeps (State.liveKnown_keeps h _) h) _ _ ?_
  intro t _ ht
  extract_lets +onlyGivenNames _ _ t t1
  have ht : s₀.Keeps t := State.anc_keeps ht ..
  have ht1 : s₀.Keeps t1 := by
    unfold t1
    split
    · exact State.ite_keeps (State.anc_keeps ht ..) ht
    · exact ht
  exact State.ite_keeps (State.anc_keeps ht1 ..) ht1

theorem State.outFrameEnd_keeps {s₀ s : State} (h : s₀.Keeps s) (o : Nat) : s₀.Keeps (s.outFrameEnd o) :=
  (State.Keeps.frame _).updOut ((State.Keeps.frame _).outRelease h _) ..

theorem State.lineMissing_keeps {s₀ s : State} (h : s₀.Keeps s) (o : Nat) : s₀.Keeps (s.lineMissing o) := by
  unfold State.lineMissing
  extract_lets +onlyGivenNames t
  have ht : s₀.Keeps t := (State.Keeps.frame _).updOut (State.flagCount_keeps (State.emit_keeps h _) ..) ..
  exact State.ite_keeps ht (State.raise_keeps ht ..)

theorem State.dueLine_keeps {s₀ s : State} (h : s₀.Keeps s) (o : Nat) : s₀.Keeps (s.dueLine o) := by
  unfold State.dueLine
  extract_lets +onlyGivenNames _ _ _ _ black _ t1
  have hblack : s₀.Keeps black := State.emit_keeps h _
  have ht1 : s₀.Keeps t1 := by
    unfold t1
    split
    · exact State.ite_keeps (State.lineMissing_keeps h _) hblack
    · extract_lets +onlyGivenNames _
      refine State.ite_keeps hblack (State.ite_keeps ((State.Keeps.frame _).updOut ?_ ..) ?_)
      · split
        · exact State.emit_keeps h _
        · exact State.lineMissing_keeps h _
      · split
        · exact State.emit_keeps h _
        · exact State.lineMissing_keeps h _
  extract_lets +onlyGivenNames t1
  have ht1 : s₀.Keeps t1 := (State.Keeps.frame _).updOut ht1 ..
  exact State.ite_keeps (State.outFrameEnd_keeps ht1 _) ht1

theorem execRasLineDue_keeps {s₀ s : State} (h : s₀.Keeps s) (o : Nat) (vanc : Bool) : Out.Keeps s₀ (execRasLineDue o vanc s) :=
  Out.ite_keeps (Out.next_keeps h) (Out.ite_keeps (Out.next_keeps (State.ite_keeps h (State.ancLine_keeps h _))) (Out.next_keeps
    (State.dueLine_keeps h _)))

theorem State.rasterNotice_keeps {s₀ s : State} (h : s₀.Keeps s) (e serial : Nat) : s₀.Keeps (s.rasterNotice e serial) := by
  unfold State.rasterNotice
  split
  · exact h
  · refine State.ite_keeps (State.foldl_keeps h _ _ ?_) h
    intro t _ ht
    split
    · exact State.ite_keeps (State.flagCount_keeps ((State.Keeps.frame _).updOut ((State.Keeps.frame _).outRelease ht _) ..) ..) ht
    · exact ht

theorem State.dsiRun_keeps {s₀ s : State} (h : s₀.Keeps s) (o : Nat) (l : List (Nat × List Byte)) : s₀.Keeps (s.dsiRun o l) := by
  induction l generalizing s with
  | nil => exact (State.Keeps.frame _).updOut h ..
  | cons q rest ih =>
    unfold State.dsiRun
    split
    · exact ih h
    · exact State.ite_keeps ((State.Keeps.frame _).updOut (State.each_keeps h _ _ fun _ _ ht => State.emit_keeps ht _) ..) <|
        State.ite_keeps ((State.Keeps.frame _).updOut (State.emit_keeps h _) ..) (ih (State.complete_keeps (State.emit_keeps h _) ..))

theorem State.dsiJoin_keeps {s₀ s : State} (h : s₀.Keeps s) (id o : Nat) (pixels : List Byte) : s₀.Keeps (s.dsiJoin id o pixels) := by
  unfold State.dsiJoin
  extract_lets +onlyGivenNames _
  exact State.ite_keeps (State.dsiRun_keeps h ..) ((State.Keeps.frame _).updOut h ..)

theorem execRasRegionPush_keeps {s₀ s : State} (h :
    s₀.Keeps s) (id : Nat) (pixels : List Byte) : Out.Keeps s₀ (execRasRegionPush id pixels s) :=
  Out.next_keeps (State.startCmd_keeps h _ _ _ fun _ _ ht => State.ite_keeps (State.complete_keeps ht ..) (State.ite_keeps
    (State.complete_keeps ht ..) (State.dsiJoin_keeps ht ..)))

theorem execRasDcs_keeps {s₀ s : State} (h : s₀.Keeps s) (id : Nat) : Out.Keeps s₀ (execRasDcs id s) :=
  Out.next_keeps (State.startCmd_keeps h _ _ _ fun _ _ ht => State.ite_keeps (State.complete_keeps ht ..) (State.ite_keeps
    (State.complete_keeps ht ..) (State.dsiJoin_keeps ht ..)))

theorem State.dcsEnd_keeps {s₀ s : State} (h : s₀.Keeps s) (o status spec0 : Nat) : s₀.Keeps (s.dcsEnd o status spec0) := by
  unfold State.dcsEnd
  split
  · exact h
  · exact State.dsiRun_keeps ((State.Keeps.frame _).updOut (State.complete_keeps h ..) ..) ..

theorem execRasDcsReply_keeps {s₀ s : State} (h : s₀.Keeps s) (o : Nat) (data : List Byte) : Out.Keeps s₀ (execRasDcsReply o data s) :=
  Out.next_keeps (State.dcsEnd_keeps h ..)

theorem execRasDcsReplyTimeout_keeps {s₀ s : State} (h : s₀.Keeps s) (o : Nat) : Out.Keeps s₀ (execRasDcsReplyTimeout o s) :=
  Out.next_keeps (State.dcsEnd_keeps h ..)

theorem execRasPushDone_keeps {s₀ s : State} (h : s₀.Keeps s) (o : Nat) : Out.Keeps s₀ (execRasPushDone o s) := by
  unfold execRasPushDone
  split
  · exact Out.next_keeps h
  · exact Out.ite_keeps (Out.next_keeps h) (Out.next_keeps (State.dsiRun_keeps (State.complete_keeps h ..) ..))

theorem State.outShed_keeps {s₀ s : State} (h : s₀.Keeps s) (o : Nat) (shed : Bool) : s₀.Keeps (s.outShed o shed) :=
  State.ite_keeps (State.wr_keeps ((State.Keeps.frame _).outOff h _) ..) ((State.Keeps.frame _).outOn (State.wr_keeps h ..) _)

/-! ### What the functions of Machine/Audio.lean keep. Their subject: The audio master, the ports and their converters, channel maps,
recording and monitoring (spec/15). -/

theorem State.updAunit_keeps {s₀ s : State} (h : s₀.Keeps s) (u : Nat) (f : AudUnit → AudUnit) : s₀.Keeps (s.updAunit u f) :=
  (State.Keeps.frame _).updAud h _

theorem State.setArm_keeps {s₀ s : State} (h : s₀.Keeps s) (u : Nat) (v : Bool) : s₀.Keeps (s.setArm u v) :=
  State.ite_keeps (State.wr_keeps h ..) (State.wr_keeps h ..)

theorem State.setMask_keeps {s₀ s : State} (h : s₀.Keeps s) (u m : Nat) : s₀.Keeps (s.setMask u m) :=
  State.ite_keeps (State.wr_keeps h ..) (State.wr_keeps h ..)

theorem State.portFault_keeps {s₀ s : State} (h : s₀.Keeps s) (p : Nat) (ft ct fa ca : Fld) (ev : Nat) :
    s₀.Keeps (s.portFault p ft ct fa ca ev) :=
  State.raise_keeps (State.ite_keeps (State.flagCount_keeps h ..) (State.each_keeps h _ _ fun _ _ ht => State.flagCount_keeps ht ..)) ..

theorem State.audPulse_keeps {s₀ s : State} (h : s₀.Keeps s) (period : Nat) : s₀.Keeps (s.audPulse period) :=
  State.ite_keeps (State.ite_keeps (State.ite_keeps ((State.Keeps.frame _).masterFound ((State.Keeps.frame _).updAud h _)) ((State.Keeps.frame _).updAud h _))
    ((State.Keeps.frame _).masterLost ((State.Keeps.frame _).updAud h _))) h

theorem execVrefPulse_keeps {s₀ s : State} (h : s₀.Keeps s) (period : Nat) : Out.Keeps s₀ (execVrefPulse period s) :=
  Out.next_keeps (State.audPulse_keeps (State.rasPulse_keeps h _) _)

theorem execAudMasterReferenceLoss_keeps {s₀ s : State} (h : s₀.Keeps s) : Out.Keeps s₀ (execAudMasterReferenceLoss s) :=
  Out.next_keeps ((State.Keeps.frame _).masterLost ((State.Keeps.frame _).updAud h _))

theorem State.masterLock_keeps {s₀ s : State} (h : s₀.Keeps s) (err : Int) : s₀.Keeps (s.masterLock err) := by
  unfold State.masterLock
  extract_lets +onlyGivenNames t
  have ht : s₀.Keeps t := State.wr_keeps h ..
  exact State.ite_keeps (State.ite_keeps (State.wr_keeps ((State.Keeps.frame _).updAud ht _) ..) ((State.Keeps.frame _).updAud ht _)) ht

theorem State.markPort_keeps {s₀ s : State} (h : s₀.Keeps s) (p : Nat) : s₀.Keeps (s.markPort p) :=
  State.ite_keeps (State.each_keeps h _ _ fun _ _ ht => State.updAunit_keeps ht ..) h

theorem State.fillCheck_keeps {s₀ s : State} (h : s₀.Keeps s) (p : Nat) : s₀.Keeps (s.fillCheck p) := by
  unfold State.fillCheck
  extract_lets +onlyGivenNames _
  exact State.ite_keeps (State.markPort_keeps (State.each_keeps ((State.Keeps.frame _).portTo
    ((State.Keeps.frame _).updAport h ..) ..) _ _ fun _ _ ht => State.updAunit_keeps (State.setArm_keeps (State.setMask_keeps ht ..) ..) ..) _) h

theorem State.portUnlock_keeps {s₀ s : State} (h : s₀.Keeps s) (p : Nat) : s₀.Keeps (s.portUnlock p) := by
  unfold State.portUnlock
  extract_lets +onlyGivenNames _
  exact State.ite_keeps ((State.Keeps.frame _).portTo ((State.Keeps.frame _).updAport (State.portFault_keeps h ..) ..) ..) h

theorem State.applyArms_keeps {s₀ s : State} (h : s₀.Keeps s) (p : Nat) : s₀.Keeps (s.applyArms p) := by
  unfold State.applyArms
  extract_lets +onlyGivenNames _
  exact State.ite_keeps (State.each_keeps h _ _ fun _ _ ht => State.updAunit_keeps (State.setArm_keeps
    (State.setMask_keeps ht ..) ..) ..) h

theorem State.portFrame_keeps {s₀ s : State} (h : s₀.Keeps s) (p : Nat) (f : AudFrame) (ok : Bool) (ratio : Nat) :
    s₀.Keeps (s.portFrame p f ok ratio) := by
  unfold State.portFrame
  extract_lets +onlyGivenNames _ s0 s1 _
  have hs0 : s₀.Keeps s0 := State.ite_keeps (State.wr_keeps h ..) (State.wr_keeps h ..)
  have hs1 : s₀.Keeps s1 := (State.Keeps.frame _).updAport (State.applyArms_keeps hs0 _) ..
  exact State.ite_keeps h (State.ite_keeps (State.ite_keeps ((State.Keeps.frame _).portTo ((State.Keeps.frame _).updAport hs1 ..) ..) hs1) (State.ite_keeps
    (State.portUnlock_keeps (State.ite_keeps ((State.Keeps.frame _).updAport hs1 ..) hs1) _) (State.ite_keeps ((State.Keeps.frame _).portTo
    ((State.Keeps.frame _).updAport (State.portFault_keeps (State.ite_keeps ((State.Keeps.frame _).updAport hs1 ..) hs1) ..) ..) ..) (State.fillCheck_keeps
    (State.ite_keeps ((State.Keeps.frame _).updAport hs1 ..) hs1) _))))

theorem execAudTdmFrameReceive_keeps {s₀ s : State} (h :
    s₀.Keeps s) (p bits : Nat) (slots : List Nat) (ratio : Nat) : Out.Keeps s₀ (execAudTdmFrameReceive p bits slots ratio s) :=
  Out.ite_keeps (Out.next_keeps (State.portFrame_keeps (State.ite_keeps h (State.flagCount_keeps h ..)) ..)) (Out.next_keeps h)

theorem State.csBlock_keeps {s₀ s : State} (h : s₀.Keeps s) (a : Nat) (reg : Fld) (bits : List Bool) : s₀.Keeps (s.csBlock a reg bits) :=
  State.ite_keeps h (State.ite_keeps (State.flagCount_keeps h ..) (State.ite_keeps
    (State.foldl_keeps h _ _ fun _ _ ht => State.wr_keeps ht ..) (State.raise_keeps (State.wr_keeps
    (State.foldl_keeps h _ _ fun _ _ ht => State.wr_keeps ht ..) ..) ..)))

theorem State.csCapture_keeps {s₀ s : State} (h : s₀.Keeps s) (a : Nat) (f : AesFrame) : s₀.Keeps (s.csCapture a f) :=
  State.updAunit_keeps (State.ite_keeps (State.csBlock_keeps (State.csBlock_keeps h ..) ..) h) ..

theorem State.naDetect_keeps {s₀ s : State} (h : s₀.Keeps s) (a : Nat) (f : AesFrame) : s₀.Keeps (s.naDetect a f).1 := by
  unfold State.naDetect
  extract_lets +onlyGivenNames _ _ _
  split
  · exact h
  · extract_lets +onlyGivenNames _ _ _ t _
    have ht : s₀.Keeps t := State.updAunit_keeps h ..
    split
    · exact State.raise_keeps (State.wr_keeps ht ..) ..
    · exact ht

theorem State.aesTaken_keeps {s₀ s : State} (h : s₀.Keeps s) (a : Nat) (f : AesFrame) : s₀.Keeps (s.aesTaken a f) :=
  (State.Keeps.frame _).portShow (State.ite_keeps (State.portFrame_keeps (State.updAunit_keeps (State.naDetect_keeps
    (State.csCapture_keeps h ..) ..) ..) ..) (State.updAunit_keeps (State.naDetect_keeps (State.csCapture_keeps h ..) ..) ..)) _

theorem execAudAesFrameReceive_keeps {s₀ s : State} (h :
    s₀.Keeps s) (a : Nat) (f : AesFrame) : Out.Keeps s₀ (execAudAesFrameReceive a f s) :=
  Out.next_keeps (State.ite_keeps (State.aesTaken_keeps h ..) h)

theorem execAudPortEnable_keeps {s₀ s : State} (h : s₀.Keeps s) (u v : Nat) : Out.Keeps s₀ (execAudPortEnable u v s) := by
  unfold execAudPortEnable
  extract_lets +onlyGivenNames _ t _ t1
  have ht : s₀.Keeps t := State.ite_keeps (State.wr_keeps h ..) (State.wr_keeps h ..)
  have ht1 : s₀.Keeps t1 := State.ite_keeps ht (State.updAunit_keeps ht ..)
  exact Out.next_keeps (State.ite_keeps ((State.Keeps.frame _).portTo ((State.Keeps.frame _).updAport ht1 ..) ..) (State.ite_keeps
    ((State.Keeps.frame _).portShow ht1 _) ((State.Keeps.frame _).portTo ((State.Keeps.frame _).updAport ht1 ..) ..)))

theorem execAudMaskArm_keeps {s₀ s : State} (h : s₀.Keeps s) (u v : Nat) : Out.Keeps s₀ (execAudMaskArm u v s) := by
  unfold execAudMaskArm
  extract_lets +onlyGivenNames _ _
  exact Out.ite_keeps (Out.next_keeps (State.wr_keeps h ..)) (Out.next_keeps (State.setArm_keeps h ..))

theorem State.portSample_keeps {s₀ s : State} (h : s₀.Keeps s) (p : Nat) : s₀.Keeps (s.portSample p) := by
  unfold State.portSample
  extract_lets +onlyGivenNames _
  exact State.ite_keeps (State.fillCheck_keeps h _) (State.ite_keeps (State.ite_keeps (State.ite_keeps ((State.Keeps.frame _).portTo
    ((State.Keeps.frame _).updAport ((State.Keeps.frame _).updAport (State.markPort_keeps (State.each_keeps ((State.Keeps.frame _).updAport (State.ite_keeps
    ((State.Keeps.frame _).portTo ((State.Keeps.frame _).updAport
    (State.portFault_keeps h ..) ..) ..) h) ..) _ _ fun _ _ ht => State.updAunit_keeps ht ..) _) ..) ..) ..) (State.fillCheck_keeps
    ((State.Keeps.frame _).portTo ((State.Keeps.frame _).updAport ((State.Keeps.frame _).updAport (State.markPort_keeps (State.each_keeps ((State.Keeps.frame _).updAport
    (State.ite_keeps ((State.Keeps.frame _).portTo ((State.Keeps.frame _).updAport
    (State.portFault_keeps h ..) ..) ..) h) ..) _ _ fun _ _ ht => State.updAunit_keeps ht ..) _) ..) ..) ..) _)) ((State.Keeps.frame _).updAport
    (State.markPort_keeps (State.each_keeps ((State.Keeps.frame _).updAport (State.ite_keeps ((State.Keeps.frame _).portTo ((State.Keeps.frame _).updAport
    (State.portFault_keeps h ..) ..) ..) h) ..) _ _ fun _ _ ht => State.updAunit_keeps ht ..) _) ..)) (State.ite_keeps
    ((State.Keeps.frame _).portTo ((State.Keeps.frame _).updAport (State.markPort_keeps (State.each_keeps ((State.Keeps.frame _).updAport (State.ite_keeps
    ((State.Keeps.frame _).portTo ((State.Keeps.frame _).updAport
    (State.portFault_keeps h ..) ..) ..) h) ..) _ _ fun _ _ ht => State.updAunit_keeps ht ..) _) ..) ..) ((State.Keeps.frame _).updAport
    (State.markPort_keeps (State.each_keeps ((State.Keeps.frame _).updAport (State.ite_keeps ((State.Keeps.frame _).portTo ((State.Keeps.frame _).updAport
    (State.portFault_keeps h ..) ..) ..) h) ..) _ _ fun _ _ ht => State.updAunit_keeps ht ..) _) ..)))

theorem State.monitor_keeps {s₀ s : State} (h : s₀.Keeps s) (now before : List Nat) : s₀.Keeps (s.monitor now before) := by
  refine State.foldl_keeps h _ _ fun t k ht => State.foldl_keeps ht _ _ fun t i ht => ?_
  have hgo : ∀ (b : Bool) (f : AudSt → AudSt), s₀.Keeps (if b then t.updAud f else t) := fun b f =>
    State.ite_keeps ((State.Keeps.frame _).updAud ht _) ht
  exact State.ite_keeps (State.emit_keeps ((State.Keeps.frame _).updAud (hgo ..) _) _) ((State.Keeps.frame _).updAud (hgo ..) _)

theorem execAudZcTimeout_keeps {s₀ s : State} (h : s₀.Keeps s) (k slot : Nat) : Out.Keeps s₀ (execAudZcTimeout k slot s) := by
  unfold execAudZcTimeout
  extract_lets +onlyGivenNames _
  exact Out.ite_keeps (Out.next_keeps h) (Out.next_keeps (State.raise_keeps (State.flagCount_keeps ((State.Keeps.frame _).updAud h _) ..) ..))

theorem State.blockDone_keeps {s₀ s : State} (h : s₀.Keeps s) (b : AudBlock) : s₀.Keeps (s.blockDone b) := by
  unfold State.blockDone
  extract_lets +onlyGivenNames _ _ t
  have ht : s₀.Keeps t := (State.Keeps.frame _).updAud (State.wr_keeps h ..) _
  exact State.ite_keeps (State.raise_keeps (State.flagCount_keeps ht ..) ..) (State.postUnsolicited_keeps (State.put_keeps ht ..) ..)

theorem State.record_keeps {s₀ s : State} (h : s₀.Keeps s) (words : List Nat) (start : Bool) : s₀.Keeps (s.record words start) := by
  unfold State.record
  extract_lets +onlyGivenNames s1
  have hs1 : s₀.Keeps s1 := by
    unfold s1
    split
    · exact h
    · exact State.ite_keeps (State.tick_keeps ((State.Keeps.frame _).updAud (State.whenB_keeps h _ _ fun _ ht => State.wr_keeps ht ..) _)) h
  split
  · exact hs1
  · extract_lets +onlyGivenNames _ _
    exact State.ite_keeps (State.blockDone_keeps hs1 _) ((State.Keeps.frame _).updAud hs1 _)

theorem execAudRecRunStart_keeps {s₀ s : State} (h : s₀.Keeps s) : Out.Keeps s₀ (execAudRecRunStart s) := by
  unfold execAudRecRunStart
  extract_lets +onlyGivenNames _
  exact Out.ite_keeps (Out.next_keeps h) (Out.ite_keeps (Out.next_keeps (State.waitPlan_keeps h _)) (Out.ite_keeps (Out.next_keeps
    ((State.Keeps.frame _).updAud (State.whenB_keeps (State.wr_keeps h ..) _ _ fun _ ht => State.wr_keeps ht ..) _)) (Out.next_keeps
    (State.wr_keeps h ..))))

theorem execAudRecRunStop_keeps {s₀ s : State} (h : s₀.Keeps s) : Out.Keeps s₀ (execAudRecRunStop s) :=
  Out.next_keeps (State.wr_keeps h ..)

theorem State.masterSample_keeps {s₀ s : State} (h : s₀.Keeps s) (err : Int) (boundary : Bool) :
    s₀.Keeps (s.masterSample err boundary) := by
  unfold State.masterSample
  exact (State.Keeps.frame _).updAud (State.record_keeps (State.monitor_keeps (State.foldl_keeps
    (State.masterLock_keeps h _) _ _ fun _ _ ht => State.portSample_keeps ht _) ..) ..) _

theorem execAudioMasterSample_keeps {s₀ s : State} (h :
    s₀.Keeps s) (err : Int) (boundary : Bool) : Out.Keeps s₀ (execAudioMasterSample err boundary s) :=
  Out.next_keeps (State.ite_keeps h (State.masterSample_keeps h ..))

/-! ### What the functions of Machine/Net.lean keep. Their subject: The PTP time base, host frames, ST 2110 senders and timecode
(spec/16). -/

theorem State.ptpStep_keeps {s₀ s : State} (h : s₀.Keeps s) (offset : Int) : s₀.Keeps (s.ptpStep offset) :=
  State.setClock_keeps h _

theorem execPtpSyncReceive_keeps {s₀ s : State} (h : s₀.Keeps s) (offset : Int) : Out.Keeps s₀ (execPtpSyncReceive offset s) := by
  unfold execPtpSyncReceive
  extract_lets +onlyGivenNames _ _
  exact Out.ite_keeps (Out.next_keeps h) (Out.ite_keeps (Out.ite_keeps (Out.next_keeps (State.wr_keeps h ..)) (Out.ite_keeps
    (Out.next_keeps ((State.Keeps.frame _).updNet (State.wr_keeps h ..) _)) (Out.ite_keeps (Out.next_keeps ((State.Keeps.frame _).ptpTo (State.raise_keeps
    (State.wr_keeps (State.wr_keeps ((State.Keeps.frame _).updNet (State.ptpStep_keeps (State.wr_keeps h ..) _) _) ..) ..) ..) _)) (Out.next_keeps
    ((State.Keeps.frame _).ptpTo (State.wr_keeps h ..) _))))) (Out.ite_keeps (Out.ite_keeps (Out.next_keeps (State.raise_keeps ((State.Keeps.frame _).ptpTo
    (State.wr_keeps h ..) _) ..)) (Out.next_keeps ((State.Keeps.frame _).updNet (State.wr_keeps h ..) _))) (Out.ite_keeps (Out.next_keeps
    (State.raise_keeps ((State.Keeps.frame _).ptpTo (State.wr_keeps h ..) _) ..)) (Out.next_keeps ((State.Keeps.frame _).updNet (State.wr_keeps h ..) _)))))

theorem execPtpAnnounceReceive_keeps {s₀ s : State} (h : s₀.Keeps s) (a : Announce) : Out.Keeps s₀ (execPtpAnnounceReceive a s) :=
  Out.ite_keeps (Out.next_keeps h) (Out.ite_keeps (Out.next_keeps ((State.Keeps.frame _).updNet h _)) (Out.next_keeps h))

theorem execPtpAnnounceTimeout_keeps {s₀ s : State} (h : s₀.Keeps s) : Out.Keeps s₀ (execPtpAnnounceTimeout s) := by
  unfold execPtpAnnounceTimeout
  extract_lets +onlyGivenNames t
  have ht : s₀.Keeps t := (State.Keeps.frame _).updNet h _
  exact Out.ite_keeps (Out.next_keeps (State.raise_keeps ((State.Keeps.frame _).ptpTo ht _) ..)) (Out.next_keeps ((State.Keeps.frame _).updNet ht _))

theorem execPtpRestep_keeps {s₀ s : State} (h : s₀.Keeps s) : Out.Keeps s₀ (execPtpRestep s) :=
  Out.ite_keeps (Out.next_keeps (State.wr_keeps h ..)) (Out.next_keeps (State.ite_keeps (State.wr_keeps ((State.Keeps.frame _).updNet h _) ..)
    ((State.Keeps.frame _).ptpTo (State.wr_keeps ((State.Keeps.frame _).updNet h _) ..) _)))

theorem execNetLtcFrameReceive_keeps {s₀ s : State} (h :
    s₀.Keeps s) (count : Nat) (rateOk : Bool) : Out.Keeps s₀ (execNetLtcFrameReceive count rateOk s) :=
  Out.ite_keeps (Out.next_keeps ((State.Keeps.frame _).updNet h _)) (Out.next_keeps h)

theorem execNetLtcFreewheelExpire_keeps {s₀ s : State} (h : s₀.Keeps s) : Out.Keeps s₀ (execNetLtcFreewheelExpire s) :=
  Out.ite_keeps (Out.next_keeps (State.raise_keeps (State.flagCount_keeps ((State.Keeps.frame _).updNet h _) ..) ..)) (Out.next_keeps h)

theorem execLtcOutFrameStart_keeps {s₀ s : State} (h : s₀.Keeps s) : Out.Keeps s₀ (execLtcOutFrameStart s) :=
  Out.ite_keeps (Out.next_keeps (State.tick_keeps (State.emit_keeps h _))) (Out.next_keeps h)

theorem execNetSend_keeps {s₀ s : State} (h : s₀.Keeps s) (id : Nat) (data : List Byte) : Out.Keeps s₀ (execNetSend id data s) := by
  unfold execNetSend
  extract_lets +onlyGivenNames _ _
  exact Out.ite_keeps (Out.next_keeps h) (Out.next_keeps (State.startCmd_keeps h _ _ _ fun _ _ ht => State.ite_keeps
    (State.complete_keeps ht ..) (State.ite_keeps (State.complete_keeps ht ..) (State.ite_keeps (State.complete_keeps
    (State.tick_keeps ht) ..) ((State.Keeps.frame _).updNet (State.tick_keeps ht) _)))))

theorem execNetFrameLaunch_keeps {s₀ s : State} (h :
    s₀.Keeps s) (id : Nat) (late : Bool) : Out.Keeps s₀ (execNetFrameLaunch id late s) := by
  unfold execNetFrameLaunch
  split
  · exact Out.next_keeps h
  · extract_lets +onlyGivenNames _ _
    exact Out.ite_keeps (Out.next_keeps h) (Out.next_keeps (State.emit_keeps ((State.Keeps.frame _).updNet h _) _))

theorem State.frameSent_keeps {s₀ s : State} (h : s₀.Keeps s) (f : TxFrame) : s₀.Keeps (s.frameSent f) :=
  State.complete_keeps (State.ite_keeps ((State.Keeps.frame _).updNet h _) (State.ite_keeps (State.tick_keeps ((State.Keeps.frame _).updNet
    ((State.Keeps.frame _).updNet h _) _)) (State.raise_keeps (State.flagCount_keeps ((State.Keeps.frame _).updNet h _) ..) ..))) ..

theorem execNetFrameTxDone_keeps {s₀ s : State} (h : s₀.Keeps s) (id : Nat) : Out.Keeps s₀ (execNetFrameTxDone id s) := by
  unfold execNetFrameTxDone
  split
  · exact Out.next_keeps h
  · exact Out.next_keeps (State.frameSent_keeps h _)

theorem execNetTxtsRead_keeps {s₀ s : State} (h : s₀.Keeps s) : Out.Keeps s₀ (execNetTxtsRead s) := by
  unfold execNetTxtsRead
  extract_lets +onlyGivenNames _
  split
  · exact Out.next_keeps (State.emit_keeps (State.latchSet_keeps (State.latchSet_keeps (State.latchSet_keeps h ..) ..) ..) _)
  · exact Out.next_keeps (State.emit_keeps (State.latchSet_keeps (State.latchSet_keeps (State.latchSet_keeps
      ((State.Keeps.frame _).updNet h _) ..) ..) ..) _)

theorem State.rxFrame_keeps {s₀ s : State} (h : s₀.Keeps s) (port : Nat) (data : List Byte) : s₀.Keeps (s.rxFrame port data) := by
  unfold State.rxFrame
  extract_lets +onlyGivenNames _ _
  exact State.ite_keeps (State.raise_keeps (State.flagCount_keeps h ..) ..) (State.postUnsolicited_keeps (State.emit_keeps
    ((State.Keeps.frame _).updNet (State.tick_keeps h) _) _) ..)

theorem execNetFrameReceive_keeps {s₀ s : State} (h :
    s₀.Keeps s) (port : Nat) (data : List Byte) : Out.Keeps s₀ (execNetFrameReceive port data s) :=
  Out.next_keeps (State.ite_keeps (State.rxFrame_keeps h ..) h)

theorem State.linkChanged_keeps {s₀ s : State} (h : s₀.Keeps s) (port : Nat) (up : Bool) : s₀.Keeps (s.linkChanged port up) := by
  unfold State.linkChanged
  extract_lets +onlyGivenNames t
  have ht : s₀.Keeps t := State.raise_keeps (State.flagCount_keeps (State.wr_keeps h ..) ..) ..
  exact State.ite_keeps ht (State.foldl_keeps ((State.Keeps.frame _).updNet ht _) _ _ fun _ _ ht => State.complete_keeps ht ..)

theorem execNetLinkChange_keeps {s₀ s : State} (h : s₀.Keeps s) (port : Nat) (up : Bool) : Out.Keeps s₀ (execNetLinkChange port up s) :=
  Out.next_keeps (State.ite_keeps h (State.linkChanged_keeps h ..))

theorem State.sndApply_keeps {s₀ s : State} (h : s₀.Keeps s) (n : Nat) (r : RegStore) : s₀.Keeps (s.sndApply n r) := by
  unfold State.sndApply
  extract_lets +onlyGivenNames _ s t
  have hs : s₀.Keeps s := State.wr_keeps h ..
  have ht : s₀.Keeps t := (State.Keeps.frame _).updSnd (State.wr_keeps ((State.Keeps.frame _).sndStop hs _) ..) ..
  exact State.ite_keeps (State.wr_keeps ht ..) ht

theorem execNetSndCommit_keeps {s₀ s : State} (h : s₀.Keeps s) (n : Nat) : Out.Keeps s₀ (execNetSndCommit n s) := by
  unfold execNetSndCommit
  extract_lets +onlyGivenNames _
  exact Out.next_keeps (State.ite_keeps (State.wr_keeps h ..) (State.ite_keeps ((State.Keeps.frame _).updSnd (State.wr_keeps h ..) ..)
    (State.sndApply_keeps h ..)))

theorem execNetSndFrameAlignment_keeps {s₀ s : State} (h : s₀.Keeps s) (n : Nat) : Out.Keeps s₀ (execNetSndFrameAlignment n s) := by
  unfold execNetSndFrameAlignment
  extract_lets +onlyGivenNames t _
  have ht : s₀.Keeps t := by
    unfold t
    split
    · exact State.sndApply_keeps h ..
    · exact h
  split
  · exact Out.next_keeps ht
  · extract_lets +onlyGivenNames _ t0
    have ht0 : s₀.Keeps t0 := State.tick_keeps ((State.Keeps.frame _).updSnd ((State.Keeps.frame _).sndRelease ht _) ..)
    split
    · exact Out.next_keeps ht0
    · extract_lets +onlyGivenNames _ t1
      have ht1 : s₀.Keeps t1 := (State.Keeps.frame _).updSnd (State.takeViewHold_keeps ht0 ..) ..
      refine Out.next_keeps ?_
      split
      · exact State.bump_keeps ht1 ..
      · exact ht1

theorem State.sendPacket_keeps {s₀ s : State} (h : s₀.Keeps s) (n ts : Nat) (marker : Bool) (data : List Byte) :
    s₀.Keeps (s.sendPacket n ts marker data) :=
  (State.Keeps.frame _).updSnd (State.each_keeps h _ _ fun _ _ ht => State.emit_keeps ht _) ..

theorem State.videoPacket_keeps {s₀ s : State} (h : s₀.Keeps s) (n : Nat) : s₀.Keeps (s.videoPacket n) := by
  unfold State.videoPacket
  extract_lets +onlyGivenNames _ _ _ _ _ _ _
  exact State.ite_keeps h (State.ite_keeps ((State.Keeps.frame _).sndRelease (State.bump_keeps ((State.Keeps.frame _).updSnd
    (State.sendPacket_keeps h ..) ..) ..) _) ((State.Keeps.frame _).updSnd (State.sendPacket_keeps h ..) ..))

theorem State.nalPacket_keeps {s₀ s : State} (h : s₀.Keeps s) (n : Nat) : s₀.Keeps (s.nalPacket n) := by
  unfold State.nalPacket
  extract_lets +onlyGivenNames _ _ _
  split
  · exact h
  · extract_lets +onlyGivenNames _ _ _ _ _ _ _ t
    have ht : s₀.Keeps t := State.sendPacket_keeps h ..
    exact State.ite_keeps (State.ite_keeps (State.bump_keeps ((State.Keeps.frame _).scRelease ((State.Keeps.frame _).updSc
      ((State.Keeps.frame _).updSnd ht ..) ..) _) ..) ((State.Keeps.frame _).scRelease ((State.Keeps.frame _).updSc ((State.Keeps.frame _).updSnd ht ..) ..) _))
      ((State.Keeps.frame _).updSnd ht ..)

theorem State.soundPacket_keeps {s₀ s : State} (h : s₀.Keeps s) (n : Nat) : s₀.Keeps (s.soundPacket n) := by
  unfold State.soundPacket
  extract_lets +onlyGivenNames _ _ _ t
  have ht : s₀.Keeps t := State.wr_keeps h ..
  exact State.ite_keeps ((State.Keeps.frame _).updSnd (State.sendPacket_keeps ht ..) ..) ht

theorem execNetSenderPacket_keeps {s₀ s : State} (h : s₀.Keeps s) (n : Nat) : Out.Keeps s₀ (execNetSenderPacket n s) :=
  Out.ite_keeps (Out.next_keeps h) (Out.next_keeps (State.ite_keeps (State.videoPacket_keeps h _) (State.ite_keeps
    (State.nalPacket_keeps h _) (State.soundPacket_keeps h _))))

theorem State.senderNotice_keeps {s₀ s : State} (h : s₀.Keeps s) (e serial : Nat) : s₀.Keeps (s.senderNotice e serial) := by
  unfold State.senderNotice
  split
  · exact h
  · refine State.ite_keeps (State.foldl_keeps h _ _ ?_) h
    intro t _ ht
    split
    · exact State.ite_keeps (State.bump_keeps ((State.Keeps.frame _).updSnd ((State.Keeps.frame _).sndRelease ht _) ..) ..) ht
    · exact ht

theorem State.sndShed_keeps {s₀ s : State} (h : s₀.Keeps s) (n : Nat) (shed : Bool) : s₀.Keeps (s.sndShed n shed) :=
  State.ite_keeps (State.wr_keeps ((State.Keeps.frame _).sndStop h _) ..) (State.ite_keeps (State.wr_keeps (State.wr_keeps h ..) ..)
    (State.wr_keeps h ..))

/-! ### What the functions of Machine/Age.lean keep. Their subject: The admission check of an easel, and the ageing measurement, the
margin plan, the core voltage and the frame deadlines of spec/18 and spec/21. -/

theorem State.updSys_keeps {s₀ s : State} (h : s₀.Keeps s) (f : SysSt → SysSt) : s₀.Keeps (s.updSys f) :=
  h.same

theorem State.updKeeper_keeps {s₀ s : State} (h : s₀.Keeps s) (half : Nat) (f : KeeperSt → KeeperSt) : s₀.Keeps (s.updKeeper half f) :=
  State.updSys_keeps h _

theorem execEaselAdmissionCheck_keeps {s₀ s : State} (h : s₀.Keeps s) (e : Nat) : Out.Keeps s₀ (execEaselAdmissionCheck e s) :=
  Out.ite_keeps (Out.next_keeps h) (Out.ite_keeps (Out.next_keeps (State.waitPlan_keeps h _)) (Out.ite_keeps (Out.next_keeps
    (State.updSys_keeps h _)) (Out.next_keeps ((State.Keeps.frame _).admission h ..))))

theorem State.setOffered_keeps {s₀ s : State} (h : s₀.Keeps s) (m : Nat) (b : Bool) : s₀.Keeps (s.setOffered m b) :=
  State.ite_keeps (State.wr_keeps h ..) (State.ite_keeps (State.wr_keeps h ..) (State.wr_keeps h ..))

theorem State.setMode_keeps {s₀ s : State} (h : s₀.Keeps s) (m : Nat) (defined : Bool) (req : Nat) : s₀.Keeps (s.setMode m defined req) :=
  State.ite_keeps (State.wr_keeps (State.wr_keeps h ..) ..) (State.ite_keeps (State.wr_keeps (State.wr_keeps h ..) ..) (State.wr_keeps
    (State.wr_keeps h ..) ..))

theorem State.modeRecord_keeps {s₀ s : State} (h : s₀.Keeps s) (m : Nat) : s₀.Keeps (s.modeRecord m) :=
  State.updSys_keeps (State.ledgerAdd_keeps h ..) _

theorem State.offer_keeps {s₀ s : State} (h : s₀.Keeps s) : s₀.Keeps s.offer :=
  State.each_keeps h _ _ fun _ _ ht => State.ite_keeps (State.raise_keeps (State.wr_keeps (State.ite_keeps
    (State.setOffered_keeps ht ..) (State.modeRecord_keeps (State.setOffered_keeps ht ..) _)) ..) ..) (State.ite_keeps
    (State.setOffered_keeps ht ..) (State.modeRecord_keeps (State.setOffered_keeps ht ..) _))

theorem State.voltWrite_keeps {s₀ s : State} (h : s₀.Keeps s) (mv : Nat) : s₀.Keeps (s.voltWrite mv) :=
  State.emit_keeps (State.updSys_keeps h _) _

theorem State.voltFollow_keeps {s₀ s : State} (h : s₀.Keeps s) : s₀.Keeps s.voltFollow :=
  State.ite_keeps (State.voltWrite_keeps h _) (State.ite_keeps (State.ite_keeps (State.updSys_keeps h _) (State.voltWrite_keeps h _))
    (State.updSys_keeps h _))

theorem execAgeVoltageLower_keeps {s₀ s : State} (h : s₀.Keeps s) : Out.Keeps s₀ (execAgeVoltageLower s) :=
  Out.next_keeps (State.ite_keeps (State.voltFollow_keeps h) h)

theorem State.boostRaise_keeps {s₀ s : State} (h : s₀.Keeps s) : s₀.Keeps s.boostRaise := by
  unfold State.boostRaise
  split
  · exact h
  · exact State.ite_keeps (State.voltFollow_keeps (State.updSys_keeps (State.ite_keeps h (State.raise_keeps (State.flagCount_keeps
      (State.wr_keeps h ..) ..) ..)) _)) h

theorem execAgeBoostEnd_keeps {s₀ s : State} (h : s₀.Keeps s) : Out.Keeps s₀ (execAgeBoostEnd s) := by
  unfold execAgeBoostEnd
  extract_lets +onlyGivenNames _
  exact Out.ite_keeps (Out.next_keeps (State.voltFollow_keeps (State.updSys_keeps (State.wr_keeps h ..) _))) (Out.next_keeps h)

theorem execAvsVoltageReport_keeps {s₀ s : State} (h : s₀.Keeps s) (mv : Nat) : Out.Keeps s₀ (execAvsVoltageReport mv s) :=
  Out.ite_keeps (Out.next_keeps (State.each_keeps (State.wr_keeps (State.updSys_keeps
    (State.wr_keeps h ..) _) ..) _ _ fun _ _ ht => State.ite_keeps (State.waitPlan_keeps ht _) ((State.Keeps.frame _).admission ht ..)))
    (Out.next_keeps h)

theorem execAvsReportTimeout_keeps {s₀ s : State} (h : s₀.Keeps s) (e : Nat) : Out.Keeps s₀ (execAvsReportTimeout e s) :=
  Out.ite_keeps (Out.ite_keeps (Out.next_keeps (State.waitPlan_keeps h _)) (Out.next_keeps ((State.Keeps.frame _).admission
    (State.updSys_keeps h _) ..))) (Out.next_keeps h)

theorem State.forecastShow_keeps {s₀ s : State} (h : s₀.Keeps s) : s₀.Keeps s.forecastShow := by
  unfold State.forecastShow
  split
  · exact h
  · extract_lets +onlyGivenNames _ t _
    have ht : s₀.Keeps t := State.wr_keeps h ..
    exact State.ite_keeps (State.raise_keeps (State.wr_keeps (State.updSys_keeps ht _) ..) ..) ht

theorem State.planRun_keeps {s₀ s : State} (h : s₀.Keeps s) : s₀.Keeps s.planRun :=
  State.forecastShow_keeps (State.voltFollow_keeps (State.wr_keeps (State.wr_keeps (State.ite_keeps (State.wr_keeps (State.wr_keeps
    (State.updSys_keeps (State.tick_keeps h) _) ..) ..) (State.offer_keeps (State.wr_keeps (State.wr_keeps (State.updSys_keeps
    (State.tick_keeps h) _) ..) ..))) ..) ..))

theorem execAgePlanRun_keeps {s₀ s : State} (h : s₀.Keeps s) : Out.Keeps s₀ (execAgePlanRun s) :=
  Out.next_keeps (State.ite_keeps (State.planRun_keeps h) h)

theorem execAgeModeWrite_keeps {s₀ s : State} (h : s₀.Keeps s) (m v : Nat) : Out.Keeps s₀ (execAgeModeWrite m v s) :=
  Out.next_keeps (State.planRun_keeps (State.modeRecord_keeps (State.ite_keeps (State.setOffered_keeps (State.setMode_keeps h ..) ..)
    (State.setMode_keeps h ..)) _))

theorem execAgePoweredHour_keeps {s₀ s : State} (h : s₀.Keeps s) : Out.Keeps s₀ (execAgePoweredHour s) := by
  unfold execAgePoweredHour
  extract_lets +onlyGivenNames _ _ t _ t1
  have ht : s₀.Keeps t := State.wr_keeps h ..
  have ht1 : s₀.Keeps t1 := State.ledgerAdd_keeps ht ..
  exact Out.ite_keeps (Out.next_keeps ht1) (Out.next_keeps (State.updSys_keeps (State.ledgerAdd_keeps (State.tick_keeps ht1) ..) _))

theorem State.sampleSettle_keeps {s₀ s : State} (h : s₀.Keeps s) : s₀.Keeps s.sampleSettle := by
  unfold State.sampleSettle
  split
  · exact State.ite_keeps h (State.wr_keeps (State.wr_keeps (State.updSys_keeps (State.ledgerAdd_keeps h ..) _) ..) ..)
  · exact h

theorem execAgeSample_keeps {s₀ s : State} (h :
    s₀.Keeps s) (half : Nat) (steady : Bool) : Out.Keeps s₀ (execAgeSample half steady s) := by
  unfold execAgeSample
  extract_lets +onlyGivenNames _ _
  exact Out.ite_keeps (Out.next_keeps h) (Out.ite_keeps (Out.next_keeps (State.sampleSettle_keeps (State.updSys_keeps h _)))
    (Out.ite_keeps (Out.next_keeps (State.updSys_keeps h _)) (Out.next_keeps (State.raise_keeps (State.flagCount_keeps
    (State.updSys_keeps h _) ..) ..))))

theorem State.deadlineMissed_keeps {s₀ s : State} (h : s₀.Keeps s) (e : Nat) (f : Frame) : s₀.Keeps (s.deadlineMissed e f) := by
  unfold State.deadlineMissed
  extract_lets +onlyGivenNames _ t t1
  have ht : s₀.Keeps t := (State.Keeps.frame _).updFrame (State.lateFault_keeps h ..) ..
  have ht1 : s₀.Keeps t1 := State.raise_keeps (State.flagCount_keeps ht ..) ..
  exact State.ite_keeps ((State.raise_keeps (State.flagCount_keeps ((State.Keeps.frame _).updFrame ht1 ..) ..) ..).same) ht1

theorem execFrameDeadline_keeps {s₀ s : State} (h : s₀.Keeps s) (e serial : Nat) : Out.Keeps s₀ (execFrameDeadline e serial s) := by
  unfold execFrameDeadline
  split
  · exact Out.next_keeps h
  · exact Out.next_keeps (State.ite_keeps h (State.deadlineMissed_keeps h ..))

/-! ### What the functions of Machine/Reset.lean keep. Their subject: Power domains, resets of every reach, clock-good, and the bell
(spec/17). -/

theorem State.causesDue_keeps {s₀ s : State} (h : s₀.Keeps s) : s₀.Keeps s.causesDue :=
  State.ite_keeps (State.updSys_keeps (State.foldl_keeps h _ _ fun _ _ ht => State.ledgerAdd_keeps (State.tick_keeps ht) ..) _) h

theorem State.resetDone_keeps {s₀ s : State} (h : s₀.Keeps s) (reach : Nat) : s₀.Keeps (s.resetDone reach) :=
  State.causesDue_keeps (State.updSys_keeps h _)

theorem State.blockRelease_keeps {s₀ s : State} (h : s₀.Keeps s) (b : Nat) : s₀.Keeps (s.blockRelease b) := by
  unfold State.blockRelease
  extract_lets +onlyGivenNames t0 t
  have ht0 : s₀.Keeps t0 := State.updSys_keeps h _
  have ht : s₀.Keeps t := State.whenB_keeps ht0 _ _ fun _ ht => (State.Keeps.frame _).groupStart ht _
  exact State.ite_keeps (State.updSys_keeps ht _) ((State.Keeps.frame _).blockStart ht _)

theorem State.blockStatus_keeps {s₀ s : State} (h : s₀.Keeps s) : s₀.Keeps s.blockStatus :=
  State.wr_keeps h ..

theorem State.domainDown_keeps {s₀ s : State} (h : s₀.Keeps s) (d status : Nat) : s₀.Keeps (s.domainDown d status) :=
  State.ite_keeps (State.blockStatus_keeps (State.updSys_keeps (State.clearSts_keeps (State.ite_keeps ((State.Keeps.frame _).vcdReset
    (State.wr_keeps h ..) ..) (State.ite_keeps ((State.Keeps.frame _).rasReset (State.wr_keeps h ..) _) (State.ite_keeps ((State.Keeps.frame _).netReset
    (State.wr_keeps h ..) _) (State.ite_keeps ((State.Keeps.frame _).audReset (State.wr_keeps h ..)) (State.ite_keeps ((State.Keeps.frame _).brushesDown
    (State.wr_keeps h ..) _) (State.foldl_keeps (State.wr_keeps h ..) _ _ fun _ _ ht => (State.Keeps.frame _).blockStop ht ..)))))) _) _)) h

theorem State.domainUp_keeps {s₀ s : State} (h : s₀.Keeps s) (d : Nat) : s₀.Keeps (s.domainUp d) :=
  State.ite_keeps h (State.foldl_keeps (State.ite_keeps ((State.Keeps.frame _).masterStart (State.wr_keeps h ..)) (State.ite_keeps
    ((State.Keeps.frame _).shedMarks (State.wr_keeps h ..)) (State.wr_keeps h ..))) _ _ fun _ _ ht => State.blockRelease_keeps ht _)

theorem State.seqStep_keeps {s₀ s : State} (h : s₀.Keeps s) (src k : Nat) : s₀.Keeps (s.seqStep src k) :=
  State.foldl_keeps (State.ite_keeps (State.tick_keeps (State.wr_keeps (State.ite_keeps (State.wr_keeps (State.wr_keeps (State.wr_keeps
    (State.wr_keeps (State.updSys_keeps h _) ..) ..) ..) ..) (State.wr_keeps (State.wr_keeps (State.updSys_keeps h _) ..) ..)) ..))
    (State.ite_keeps (State.wr_keeps (State.wr_keeps (State.wr_keeps (State.wr_keeps (State.updSys_keeps h _) ..) ..) ..) ..)
    (State.wr_keeps (State.wr_keeps (State.updSys_keeps h _) ..) ..))) _ _ fun _ _ ht => State.domainUp_keeps ht _

theorem execResetSequenceStep_keeps {s₀ s : State} (h : s₀.Keeps s) (src : Nat) : Out.Keeps s₀ (execResetSequenceStep src s) := by
  unfold execResetSequenceStep
  refine Out.ite_keeps (Out.next_keeps h) (Out.ite_keeps (Out.next_keeps (State.ite_keeps (State.resetDone_keeps (State.domainUp_keeps
    (State.updSys_keeps h _) _) _) h)) ?_)
  split
  · exact Out.next_keeps h
  · exact Out.next_keeps (State.seqStep_keeps h ..)

theorem State.deviceRelease_keeps {s₀ s : State} (h : s₀.Keeps s) : s₀.Keeps s.deviceRelease :=
  State.ite_keeps h (State.wr_keeps (State.wr_keeps (State.updSys_keeps h _) ..) ..)

theorem State.deviceReset_keeps {s₀ s : State} (h : s₀.Keeps s) (por : Bool) : s₀.Keeps (s.deviceReset por) := by
  refine State.each_keeps (State.wr_keeps (State.wr_keeps ?_ ..) ..) _ _ fun _ _ ht => State.ite_keeps (State.wr_keeps ht ..) ht
  refine h.trans ⟨⟨rfl, List.suffix_refl _, Nat.le_refl _⟩, ?_⟩
  simp only [State.wf_iff]
  rintro ⟨hmem, -, hsts, -⟩
  cases por
  · exact ⟨hmem, rfl, RegStore.wf_filter hsts _, rfl⟩
  · exact ⟨rfl, rfl, rfl, rfl⟩

theorem execPowerOnReset_keeps {s₀ s : State} (h : s₀.Keeps s) : Out.Keeps s₀ (execPowerOnReset s) :=
  Out.next_keeps (State.wr_keeps (State.deviceReset_keeps (State.updSys_keeps h _) _) ..)

theorem execRailOutOfRange_keeps {s₀ s : State} (h : s₀.Keeps s) : Out.Keeps s₀ (execRailOutOfRange s) :=
  Out.next_keeps (State.wr_keeps (State.deviceReset_keeps (State.updSys_keeps h _) _) ..)

theorem execRailsInRange_keeps {s₀ s : State} (h : s₀.Keeps s) : Out.Keeps s₀ (execRailsInRange s) :=
  Out.ite_keeps (Out.next_keeps (State.deviceRelease_keeps (State.updSys_keeps h _))) (Out.next_keeps h)

theorem execResetNAssert_keeps {s₀ s : State} (h : s₀.Keeps s) : Out.Keeps s₀ (execResetNAssert s) :=
  Out.next_keeps (State.wr_keeps (State.wr_keeps (State.deviceReset_keeps (State.updSys_keeps h _) _) ..) ..)

theorem execResetNRelease_keeps {s₀ s : State} (h : s₀.Keeps s) : Out.Keeps s₀ (execResetNRelease s) :=
  Out.ite_keeps (Out.next_keeps (State.deviceRelease_keeps (State.updSys_keeps h _))) (Out.next_keeps h)

theorem State.thermalTrip_keeps {s₀ s : State} (h : s₀.Keeps s) : s₀.Keeps s.thermalTrip :=
  State.wr_keeps (State.deviceReset_keeps (State.updSys_keeps h _) _) ..

theorem execDiodeComparatorRead_keeps {s₀ s : State} (h :
    s₀.Keeps s) (hot cool : List Bool) : Out.Keeps s₀ (execDiodeComparatorRead hot cool s) := by
  unfold execDiodeComparatorRead
  extract_lets +onlyGivenNames _ t
  have ht : s₀.Keeps t := State.updSys_keeps h _
  exact Out.next_keeps (State.ite_keeps (State.thermalTrip_keeps ht) ht)

theorem execThermalTripRelease_keeps {s₀ s : State} (h : s₀.Keeps s) : Out.Keeps s₀ (execThermalTripRelease s) :=
  Out.ite_keeps (Out.next_keeps (State.deviceRelease_keeps (State.updSys_keeps h _))) (Out.next_keeps h)

theorem State.halfAssert_keeps {s₀ s : State} (h : s₀.Keeps s) (half cause : Nat) : s₀.Keeps (s.halfAssert half cause) := by
  unfold State.halfAssert
  exact State.updSys_keeps (State.updKeeper_keeps (State.each_keeps ((State.Keeps.frame _).intakeReset ((State.Keeps.frame _).calAborted
    ((State.Keeps.frame _).dropActivation (State.each_keeps (State.bump_keeps (State.wr_keeps
    (State.updSys_keeps h _) ..) ..) _ _ fun _ _ ht => (State.Keeps.frame _).closeIfDone
    ((State.Keeps.frame _).scrapeAll ht _) _) _) _) _) _ _ fun _ _ ht => State.domainDown_keeps ht ..) ..) _

theorem execKeeperWatchdogExpire_keeps {s₀ s : State} (h : s₀.Keeps s) (half : Nat) : Out.Keeps s₀ (execKeeperWatchdogExpire half s) :=
  Out.ite_keeps (Out.next_keeps (State.halfAssert_keeps h ..)) (Out.next_keeps h)

theorem execHalfResetRequest_keeps {s₀ s : State} (h : s₀.Keeps s) (v : Nat) : Out.Keeps s₀ (execHalfResetRequest v s) := by
  unfold execHalfResetRequest
  extract_lets +onlyGivenNames _
  exact Out.ite_keeps (Out.next_keeps h) (Out.ite_keeps (Out.next_keeps (State.flagCount_keeps h ..)) (Out.next_keeps
    (State.updSys_keeps h _)))

theorem execHalfResetAssert_keeps {s₀ s : State} (h : s₀.Keeps s) (half : Nat) : Out.Keeps s₀ (execHalfResetAssert half s) := by
  unfold execHalfResetAssert
  extract_lets +onlyGivenNames _
  exact Out.ite_keeps (Out.next_keeps (State.halfAssert_keeps (State.updSys_keeps h _) ..)) (Out.next_keeps h)

theorem execHalfResetRelease_keeps {s₀ s : State} (h : s₀.Keeps s) (half : Nat) : Out.Keeps s₀ (execHalfResetRelease half s) := by
  unfold execHalfResetRelease
  split
  · exact Out.next_keeps h
  · extract_lets +onlyGivenNames t
    have ht : s₀.Keeps t := State.updSys_keeps h _
    exact Out.ite_keeps (Out.next_keeps ht) (Out.next_keeps (State.causesDue_keeps (State.raise_keeps (State.wr_keeps
      (State.updSys_keeps ht _) ..) ..)))

theorem State.pwrOn_keeps {s₀ s : State} (h : s₀.Keeps s) (v : Nat) : s₀.Keeps (s.pwrOn v) := by
  unfold State.pwrOn
  exact State.updSys_keeps (State.foldl_keeps (State.whenB_keeps
    (State.wr_keeps h ..) _ _ fun _ ht => State.wr_keeps ht ..) _ _ fun _ _ ht => State.domainDown_keeps ht ..) _

theorem execPwrOnWrite_keeps {s₀ s : State} (h : s₀.Keeps s) (v : Nat) : Out.Keeps s₀ (execPwrOnWrite v s) :=
  Out.next_keeps (State.ite_keeps (State.flagCount_keeps h ..) (State.pwrOn_keeps h _))

theorem execPwrSwitchOpen_keeps {s₀ s : State} (h : s₀.Keeps s) (d : Nat) : Out.Keeps s₀ (execPwrSwitchOpen d s) :=
  Out.ite_keeps (Out.next_keeps (State.updSys_keeps h _)) (Out.next_keeps h)

theorem State.domainHold_keeps {s₀ s : State} (h : s₀.Keeps s) (v : Nat) : s₀.Keeps (s.domainHold v) := by
  unfold State.domainHold
  exact State.updSys_keeps (State.foldl_keeps (State.whenB_keeps
    (State.wr_keeps h ..) _ _ fun _ ht => State.wr_keeps ht ..) _ _ fun _ _ ht => State.domainDown_keeps ht ..) _

theorem execRstDomainWrite_keeps {s₀ s : State} (h : s₀.Keeps s) (v : Nat) : Out.Keeps s₀ (execRstDomainWrite v s) :=
  Out.next_keeps (State.ite_keeps (State.flagCount_keeps h ..) (State.domainHold_keeps h _))

theorem execBlockResetRequest_keeps {s₀ s : State} (h : s₀.Keeps s) (v : Nat) : Out.Keeps s₀ (execBlockResetRequest v s) := by
  unfold execBlockResetRequest
  extract_lets +onlyGivenNames _
  split
  · exact Out.next_keeps (State.flagCount_keeps h ..)
  · exact Out.ite_keeps (Out.next_keeps (State.flagCount_keeps h ..)) (Out.ite_keeps (Out.next_keeps (State.updSys_keeps (State.wr_keeps
      (State.wr_keeps (State.wr_keeps h ..) ..) ..) _)) (Out.next_keeps (State.wr_keeps h ..)))

theorem State.blockReset_keeps {s₀ s : State} (h : s₀.Keeps s) (b : Nat) : s₀.Keeps (s.blockReset b) :=
  State.updSys_keeps ((State.Keeps.frame _).blockStop h ..) _

theorem execBlockIdleReport_keeps {s₀ s : State} (h : s₀.Keeps s) : Out.Keeps s₀ (execBlockIdleReport s) := by
  unfold execBlockIdleReport
  split
  · exact Out.next_keeps (State.blockReset_keeps h _)
  · exact Out.next_keeps h

theorem execBlockIdleTimeout_keeps {s₀ s : State} (h : s₀.Keeps s) : Out.Keeps s₀ (execBlockIdleTimeout s) := by
  unfold execBlockIdleTimeout
  split
  · exact Out.next_keeps (State.blockReset_keeps (State.raise_keeps (State.flagCount_keeps (State.wr_keeps h ..) ..) ..) _)
  · exact Out.next_keeps h

theorem execBlockResetRelease_keeps {s₀ s : State} (h : s₀.Keeps s) : Out.Keeps s₀ (execBlockResetRelease s) := by
  unfold execBlockResetRelease
  split
  · exact Out.next_keeps (State.resetDone_keeps (State.ite_keeps (State.blockStatus_keeps (State.blockRelease_keeps (State.wr_keeps
      (State.updSys_keeps h _) ..) _)) (State.wr_keeps (State.updSys_keeps h _) ..)) _)
  · exact Out.next_keeps h

theorem State.forceRelease_keeps {s₀ s : State} (h : s₀.Keeps s) (b d : Nat) : s₀.Keeps (s.forceRelease b d) := by
  unfold State.forceRelease
  extract_lets +onlyGivenNames t1
  have ht1 : s₀.Keeps t1 := State.updSys_keeps h _
  exact State.ite_keeps ((State.Keeps.frame _).blockStart ht1 _) (State.raise_keeps (State.flagCount_keeps (State.wr_keeps (State.wr_keeps
    (State.blockStatus_keeps (State.updSys_keeps ht1 _)) ..) ..) ..) ..)

theorem execBlockForceRelease_keeps {s₀ s : State} (h : s₀.Keeps s) (v : Nat) : Out.Keeps s₀ (execBlockForceRelease v s) := by
  unfold execBlockForceRelease
  extract_lets +onlyGivenNames _
  split
  · exact Out.next_keeps (State.flagCount_keeps h ..)
  · extract_lets +onlyGivenNames t
    have ht : s₀.Keeps t := State.wr_keeps h ..
    exact Out.next_keeps (State.ite_keeps (State.forceRelease_keeps ht ..) ht)

theorem execClockGoodRise_keeps {s₀ s : State} (h : s₀.Keeps s) (b : Nat) : Out.Keeps s₀ (execClockGoodRise b s) := by
  unfold execClockGoodRise
  extract_lets +onlyGivenNames t
  have ht : s₀.Keeps t := State.updSys_keeps h _
  exact Out.next_keeps (State.ite_keeps (State.blockRelease_keeps ht _) ht)

theorem execClockLockLoss_keeps {s₀ s : State} (h : s₀.Keeps s) (b : Nat) : Out.Keeps s₀ (execClockLockLoss b s) :=
  Out.next_keeps (State.updSys_keeps h _)

theorem State.enterQuiet_keeps {s₀ s : State} (h : s₀.Keeps s) (half : Nat) : s₀.Keeps (s.enterQuiet half) :=
  State.ite_keeps h ((State.Keeps.frame _).dropActivation (State.raise_keeps (State.flagCount_keeps (State.updKeeper_keeps
    (State.wr_keeps h ..) ..) ..) ..) _)

theorem State.leaveQuiet_keeps {s₀ s : State} (h : s₀.Keeps s) (half : Nat) : s₀.Keeps (s.leaveQuiet half) :=
  State.ite_keeps (State.sampleSettle_keeps (State.causesDue_keeps (State.raise_keeps (State.wr_keeps h ..) ..))) h

theorem State.bellTo_keeps {s₀ s : State} (h : s₀.Keeps s) (half : Nat) : s₀.Keeps (s.bellTo half) :=
  State.raise_keeps (State.flagCount_keeps (State.wr_keeps h ..) ..) ..

theorem State.class0Take_keeps {s₀ s : State} (h : s₀.Keeps s) (half : Nat) : s₀.Keeps (s.class0Take half) :=
  State.updSys_keeps h _

theorem execKeeperHeartbeatSend_keeps {s₀ s : State} (h : s₀.Keeps s) (half : Nat) : Out.Keeps s₀ (execKeeperHeartbeatSend half s) :=
  Out.ite_keeps (Out.next_keeps (State.emit_keeps (State.updSys_keeps (State.updKeeper_keeps (State.wr_keeps h ..) ..) _) _))
    (Out.next_keeps h)

theorem State.beatTaken_keeps {s₀ s : State} (h : s₀.Keeps s) (half path c : Nat) : s₀.Keeps (s.beatTaken half path c) := by
  unfold State.beatTaken
  extract_lets +onlyGivenNames _ t
  have ht : s₀.Keeps t := State.updKeeper_keeps (State.wr_keeps h ..) ..
  exact State.ite_keeps (State.leaveQuiet_keeps ht _) ht

theorem execKeeperHeartbeatReceive_keeps {s₀ s : State} (h :
    s₀.Keeps s) (half path : Nat) : Out.Keeps s₀ (execKeeperHeartbeatReceive half path s) := by
  unfold execKeeperHeartbeatReceive
  split
  · exact Out.next_keeps h
  · extract_lets +onlyGivenNames t
    have ht : s₀.Keeps t := State.whenB_keeps h _ _ fun _ ht => State.class0Take_keeps ht _
    exact Out.next_keeps (State.ite_keeps (State.beatTaken_keeps ht ..) ht)

theorem State.fencePartner_keeps {s₀ s : State} (h : s₀.Keeps s) (half : Nat) : s₀.Keeps (s.fencePartner half) :=
  State.causesDue_keeps (State.leaveQuiet_keeps (State.updKeeper_keeps (State.bellTo_keeps (State.wr_keeps
    (State.updKeeper_keeps h ..) ..) _) ..) _)

theorem execHeartbeatAbsenceTimeout_keeps {s₀ s : State} (h :
    s₀.Keeps s) (half : Nat) : Out.Keeps s₀ (execHeartbeatAbsenceTimeout half s) := by
  unfold execHeartbeatAbsenceTimeout
  extract_lets +onlyGivenNames t
  have ht : s₀.Keeps t := State.updKeeper_keeps (State.wr_keeps (State.wr_keeps h ..) ..) ..
  exact Out.next_keeps (State.ite_keeps ht (State.fencePartner_keeps ht _))

theorem execFenceResetRelease_keeps {s₀ s : State} (h : s₀.Keeps s) (half : Nat) : Out.Keeps s₀ (execFenceResetRelease half s) :=
  Out.ite_keeps (Out.next_keeps (State.resetDone_keeps (State.updKeeper_keeps h ..) _)) (Out.next_keeps h)

theorem State.keeperUp_keeps {s₀ s : State} (h : s₀.Keeps s) (half : Nat) : s₀.Keeps (s.keeperUp half) := by
  unfold State.keeperUp
  extract_lets +onlyGivenNames t
  extract_lets +onlyGivenNames t
  have ht : s₀.Keeps t := State.updKeeper_keeps h ..
  exact State.ite_keeps (State.causesDue_keeps (State.leaveQuiet_keeps ht _)) (State.ite_keeps (State.enterQuiet_keeps ht _)
    (State.ite_keeps (State.sampleSettle_keeps (State.causesDue_keeps (State.wr_keeps ht ..))) ht))

theorem execKeeperStart_keeps {s₀ s : State} (h : s₀.Keeps s) (half : Nat) : Out.Keeps s₀ (execKeeperStart half s) :=
  Out.next_keeps (State.ite_keeps (State.keeperUp_keeps h _) h)

theorem execBellConfirm_keeps {s₀ s : State} (h : s₀.Keeps s) (half : Nat) : Out.Keeps s₀ (execBellConfirm half s) :=
  Out.next_keeps (State.ite_keeps h (State.enterQuiet_keeps h _))

theorem execBellHandover_keeps {s₀ s : State} (h : s₀.Keeps s) : Out.Keeps s₀ (execBellHandover s) :=
  Out.ite_keeps (Out.next_keeps (State.flagCount_keeps h ..)) (Out.next_keeps (State.causesDue_keeps (State.bellTo_keeps h _)))

/-! ### What the functions of Machine/Thermal.lean keep. Their subject: The thermal sample, the stages and the shedding of spec/18. -/

theorem State.liveStop_keeps {s₀ s : State} (h : s₀.Keeps s) (half : Nat) : s₀.Keeps (s.liveStop half) :=
  State.each_keeps (State.each_keeps h _ _ fun _ _ ht => (State.Keeps.frame _).scRelease
    ((State.Keeps.frame _).updSc ht ..) _) _ _ fun _ _ ht => (State.Keeps.frame _).updSnd ht ..

theorem State.shedTo_keeps {s₀ s : State} (h : s₀.Keeps s) (half n : Nat) : s₀.Keeps (s.shedTo half n) := by
  unfold State.shedTo
  extract_lets +onlyGivenNames _ t
  have ht : s₀.Keeps t := State.updSys_keeps h _
  exact State.ite_keeps (State.ite_keeps (State.each_keeps ht _ _ fun _ _ ht => State.outShed_keeps ht ..)
    (State.each_keeps ht _ _ fun _ _ ht => State.sndShed_keeps ht ..)) (State.each_keeps ht _ _ fun _ _ ht => State.ite_keeps
    (State.liveStop_keeps ht _) (State.ite_keeps (State.each_keeps ht _ _ fun _ _ hu => State.outShed_keeps hu ..) (State.ite_keeps
    (State.each_keeps ht _ _ fun _ _ hu => State.sndShed_keeps hu ..) ht)))

theorem State.shedLevel_keeps {s₀ s : State} (h : s₀.Keeps s) (n : Nat) : s₀.Keeps (s.shedLevel n) := by
  unfold State.shedLevel
  extract_lets +onlyGivenNames _ t
  have ht : s₀.Keeps t := State.updSys_keeps (State.shedTo_keeps (State.wr_keeps h ..) ..) _
  exact State.ite_keeps (State.each_keeps ht _ _ fun _ _ ht => (State.Keeps.frame _).endTake ht ..) ht

theorem execShedCommandReceive_keeps {s₀ s : State} (h : s₀.Keeps s) (half : Nat) : Out.Keeps s₀ (execShedCommandReceive half s) := by
  unfold execShedCommandReceive
  split
  · exact Out.next_keeps (State.shedTo_keeps (State.class0Take_keeps h _) ..)
  · exact Out.next_keeps h

theorem State.enforce_keeps {s₀ s : State} (h : s₀.Keeps s) : s₀.Keeps s.enforce :=
  State.raise_keeps (State.shedLevel_keeps (State.flagCount_keeps (State.wr_keeps h ..) ..) _) ..

theorem stageRows_keeps {s₀ s : State} (h : s₀.Keeps s) {tj : Int} {steep : Bool} {r : Nat × Bool × (State → State)}
    (hr : r ∈ stageRows tj steep) : s₀.Keeps (r.2.2 s) := by
  simp only [stageRows, List.mem_cons, List.not_mem_nil, or_false] at hr
  rcases hr with rfl | rfl | rfl | rfl | rfl <;> dsimp only
  · exact State.raise_keeps (State.wr_keeps (State.wr_keeps h ..) ..) ..
  · exact State.wr_keeps h ..
  · exact State.raise_keeps (State.flagCount_keeps (State.wr_keeps h ..) ..) ..
  · exact State.raise_keeps (State.wr_keeps h ..) ..
  · exact State.enforce_keeps h

theorem snd_mem_of_mem_withIndex {α : Type} {l : List α} {x : Nat × α} (h : x ∈ withIndex l) : x.2 ∈ l := (List.of_mem_zip h).2

theorem State.stages_keeps {s₀ s : State} (h : s₀.Keeps s) (tj : Int) (steep : Bool) (used : List Nat) (n : Nat) :
    s₀.Keeps (s.stages tj steep used n) := by
  induction n generalizing s used with
  | zero => exact h
  | succ n ih =>
    unfold State.stages
    split
    · exact h
    · exact ih (stageRows_keeps h (snd_mem_of_mem_withIndex (List.mem_of_find?_eq_some ‹_›))) _

theorem execThermalGraceExpire_keeps {s₀ s : State} (h : s₀.Keeps s) : Out.Keeps s₀ (execThermalGraceExpire s) :=
  Out.next_keeps (State.ite_keeps (State.enforce_keeps h) h)

theorem execThermalShedStepExpire_keeps {s₀ s : State} (h : s₀.Keeps s) : Out.Keeps s₀ (execThermalShedStepExpire s) := by
  unfold execThermalShedStepExpire
  extract_lets +onlyGivenNames _
  exact Out.next_keeps (State.ite_keeps (State.raise_keeps (State.shedLevel_keeps h _) ..) h)

theorem execThermalReleaseExpire_keeps {s₀ s : State} (h : s₀.Keeps s) : Out.Keeps s₀ (execThermalReleaseExpire s) :=
  Out.next_keeps (State.ite_keeps (State.raise_keeps (State.shedLevel_keeps (State.wr_keeps h ..) _) ..) h)

theorem State.diodeFault_keeps {s₀ s : State} (h : s₀.Keeps s) (d : Nat) : s₀.Keeps (s.diodeFault d) :=
  State.raise_keeps (State.updSys_keeps (State.flagCount_keeps (State.wr_keeps (State.wr_keeps h ..) ..) ..) _) ..

theorem State.calTriggers_keeps {s₀ s : State} (h : s₀.Keeps s) (halves : List Int) (recent : List Bool) (e : Nat) :
    s₀.Keeps (s.calTriggers halves recent e) := by
  unfold State.calTriggers
  refine State.ite_keeps h (State.each_keeps ((State.Keeps.frame _).updCond h ..) _ _ ?_)
  intro t _ ht
  split
  · exact State.ite_keeps ((State.Keeps.frame _).calDue ht ..) ht
  · exact ht

theorem State.thermalRead_keeps {s₀ s : State} (h : s₀.Keeps s) (nodes diodes : List Int) (past : Option Int)
    (stackTemps halves : List Int) (recent : List Bool) (late : Bool) : s₀.Keeps
    (s.thermalRead nodes diodes past stackTemps halves recent late) := by
  unfold State.thermalRead
  extract_lets +onlyGivenNames _ _ _ _ _ s1 _ _ _ s2 _ s3 s4
  have hs1 : s₀.Keeps s1 := State.each_keeps (State.updSys_keeps h _) _ _ fun _ _ ht => State.diodeFault_keeps ht _
  have hs2 : s₀.Keeps s2 := State.wr_keeps (State.each_keeps hs1 _ _ fun _ _ ht => State.wr_keeps ht ..) ..
  have hs3 : s₀.Keeps s3 := State.wr_keeps (State.wr_keeps hs2 ..) ..
  have hs4 : s₀.Keeps s4 := by
    unfold s4
    split
    · exact State.wr_keeps hs3 ..
    · exact hs3
  split
  · exact State.thermalTrip_keeps hs4
  · extract_lets +onlyGivenNames _ s5 s6 s7 s8
    have hs5 : s₀.Keeps s5 := by
      unfold s5
      split
      · exact State.raise_keeps (State.flagCount_keeps hs4 ..) ..
      · exact hs4
    have hs6 : s₀.Keeps s6 := State.stages_keeps (State.updSys_keeps hs5 _) ..
    have hs7 : s₀.Keeps s7 := State.each_keeps hs6 _ _ fun _ _ ht => State.bandReading_keeps ht ..
    have hs8 : s₀.Keeps s8 := State.each_keeps hs7 _ _ fun _ _ ht => State.calTriggers_keeps ht ..
    split
    · split
      · exact State.emit_keeps hs8 _
      · exact hs8
    · exact hs8

theorem execThermalSample_keeps {s₀ s : State} (h :
    s₀.Keeps s) (nodes diodes : List Int) (past : Option Int) (stackTemps halves : List Int) (recent : List Bool)
    (late : Bool) : Out.Keeps s₀ (execThermalSample nodes diodes past stackTemps halves recent late s) :=
  Out.next_keeps (State.ite_keeps (State.thermalRead_keeps h ..) h)

/-! ### What the functions of Machine/Session.lean keep. Their subject: Sessions, lockout, keys and the random source (spec/19). -/

theorem State.updSec_keeps {s₀ s : State} (h : s₀.Keeps s) (f : SecSt → SecSt) : s₀.Keeps (s.updSec f) :=
  h.same

theorem State.keyStatus_keeps {s₀ s : State} (h : s₀.Keeps s) : s₀.Keeps s.keyStatus :=
  State.wr_keeps (State.wr_keeps (State.wr_keeps h ..) ..) ..

theorem State.closeSession_keeps {s₀ s : State} (h : s₀.Keeps s) (r : Nat) : s₀.Keeps (s.closeSession r) := by
  unfold State.closeSession
  extract_lets +onlyGivenNames t
  have ht : s₀.Keeps t := State.wr_keeps h ..
  exact State.ite_keeps (State.wr_keeps ht ..) ht

theorem State.setFails_keeps {s₀ s : State} (h : s₀.Keeps s) (role f : Nat) : s₀.Keeps (s.setFails role f) :=
  State.ledgerAdd_keeps (State.wr_keeps (State.wr_keeps (State.updSec_keeps h _) ..) ..) ..

theorem State.sesWrite_keeps {s₀ s : State} (h : s₀.Keeps s) (v : Nat) (f : State → Nat → Nat → State)
    (hf : ∀ t a b, s₀.Keeps t → s₀.Keeps (f t a b)) : s₀.Keeps (s.sesWrite v f) :=
  State.ite_keeps (State.wr_keeps h ..) (hf _ _ _ (State.wr_keeps (State.wr_keeps h ..) ..))

theorem State.challenge_keeps {s₀ s : State} (h : s₀.Keeps s) (elapsed ring role : Nat) : s₀.Keeps (s.challenge elapsed ring role) := by
  unfold State.challenge
  extract_lets +onlyGivenNames t _
  have ht : s₀.Keeps t := State.updSec_keeps h _
  exact State.ite_keeps (State.wr_keeps ht ..) (State.ite_keeps (State.wr_keeps ht ..) (State.ite_keeps (State.wr_keeps
    (State.wr_keeps ht ..) ..) (State.ite_keeps (State.wr_keeps ht ..) (State.wr_keeps (State.each_keeps (State.tick_keeps
    (State.updSec_keeps (State.wr_keeps ht ..) _)) _ _ fun _ _ ht => State.wr_keeps ht ..) ..))))

theorem execSesChallenge_keeps {s₀ s : State} (h : s₀.Keeps s) (v elapsed : Nat) : Out.Keeps s₀ (execSesChallenge v elapsed s) :=
  Out.next_keeps (State.sesWrite_keeps h _ _ fun _ _ _ ht => State.challenge_keeps ht ..)

theorem State.answer_keeps {s₀ s : State} (h : s₀.Keeps s) (late : Bool) (ring role : Nat) : s₀.Keeps (s.answer late ring role) := by
  unfold State.answer
  extract_lets +onlyGivenNames t
  have ht : s₀.Keeps t := State.updSec_keeps h _
  split
  · exact State.wr_keeps ht ..
  · refine State.ite_keeps (State.wr_keeps ht ..) (State.ite_keeps (State.wr_keeps ht ..) ?_)
    split
    · exact State.wr_keeps ht ..
    · extract_lets +onlyGivenNames _
      exact State.ite_keeps (State.ite_keeps (State.ite_keeps (State.wr_keeps (State.wr_keeps (State.wr_keeps ht ..) ..) ..)
        (State.wr_keeps (State.wr_keeps ht ..) ..)) (State.setFails_keeps (State.ite_keeps (State.wr_keeps (State.wr_keeps
        (State.wr_keeps ht ..) ..) ..) (State.wr_keeps (State.wr_keeps ht ..) ..)) ..)) (State.ite_keeps (State.raise_keeps
        (State.flagCount_keeps (State.raise_keeps (State.flagCount_keeps (State.setFails_keeps
        (State.wr_keeps ht ..) ..) ..) ..) ..) ..) (State.raise_keeps (State.flagCount_keeps (State.setFails_keeps
        (State.wr_keeps ht ..) ..) ..) ..))

theorem execSesAnswer_keeps {s₀ s : State} (h : s₀.Keeps s) (v : Nat) (late : Bool) : Out.Keeps s₀ (execSesAnswer v late s) :=
  Out.next_keeps (State.sesWrite_keeps h _ _ fun _ _ _ ht => State.answer_keeps ht ..)

theorem execSesClose_keeps {s₀ s : State} (h : s₀.Keeps s) (v : Nat) : Out.Keeps s₀ (execSesClose v s) :=
  Out.next_keeps (State.sesWrite_keeps h _ _ fun _ _ _ ht => State.closeSession_keeps ht _)

theorem execRngHealthFail_keeps {s₀ s : State} (h : s₀.Keeps s) : Out.Keeps s₀ (execRngHealthFail s) :=
  Out.next_keeps (State.ite_keeps h (State.raise_keeps (State.wr_keeps h ..) ..))

theorem State.keyCmd_keeps {s₀ s : State} (h : s₀.Keeps s) (id opcode : Nat) (f : Cmd → State → State)
    (hf : ∀ c t, s₀.Keeps t → s₀.Keeps (f c t)) : s₀.Keeps (s.keyCmd id opcode f) :=
  State.ite_keeps h (State.startCmd_keeps h _ _ _ hf)

theorem State.putRoleKey_keeps {s₀ s : State} (h : s₀.Keeps s) (role ring : Nat) (key : List Byte) :
    s₀.Keeps (s.putRoleKey role ring key) := by
  unfold State.putRoleKey
  extract_lets +onlyGivenNames _ t
  have ht : s₀.Keeps t := State.keyStatus_keeps (State.ledgerAdd_keeps (State.updSec_keeps h _) ..)
  exact State.ite_keeps (State.each_keeps ht _ _ fun _ _ ht => State.closeSession_keeps ht _) ht

theorem execKeySet_keeps {s₀ s : State} (h : s₀.Keeps s) (id : Nat) : Out.Keeps s₀ (execKeySet id s) := by
  unfold execKeySet
  refine Out.next_keeps (State.keyCmd_keeps h _ _ _ ?_)
  intro _ t ht
  refine State.ite_keeps (State.complete_keeps ht ..) ?_
  split
  · exact State.complete_keeps ht ..
  · exact State.ite_keeps (State.complete_keeps (State.putRoleKey_keeps ht ..) ..) (State.ite_keeps (State.complete_keeps ht ..)
      (State.complete_keeps (State.keyStatus_keeps (State.ledgerAdd_keeps ht.same ..)) ..))

theorem State.eraseKey_keeps {s₀ s : State} (h : s₀.Keeps s) (c : Cmd) : s₀.Keeps (s.eraseKey c) :=
  State.ite_keeps (State.complete_keeps h ..) (State.ite_keeps (State.ite_keeps (State.complete_keeps h ..) (State.complete_keeps
    (State.keyStatus_keeps (State.ledgerAdd_keeps (State.updSec_keeps h _) ..)) ..)) (State.ite_keeps (State.complete_keeps
    (State.keyStatus_keeps (State.ledgerAdd_keeps h.same ..)) ..) (State.complete_keeps h ..)))

theorem execKeyErase_keeps {s₀ s : State} (h : s₀.Keeps s) (id : Nat) : Out.Keeps s₀ (execKeyErase id s) :=
  Out.next_keeps (State.keyCmd_keeps h _ _ _ fun _ _ ht => State.eraseKey_keeps ht _)

theorem execKeyList_keeps {s₀ s : State} (h : s₀.Keeps s) (id : Nat) : Out.Keeps s₀ (execKeyList id s) :=
  Out.next_keeps (State.startCmd_keeps h _ _ _ fun _ _ ht => State.ite_keeps (State.complete_keeps ht ..) (State.complete_keeps
    (State.emit_keeps ht _) ..))

/-! ### What the functions of Machine/Firmware.lean keep. Their subject: The NOR: the device ledger, firmware images, boot,
activation and confirmation, and the board configuration area (spec/19). -/

theorem State.norStatus_keeps {s₀ s : State} (h : s₀.Keeps s) : s₀.Keeps s.norStatus :=
  State.wr_keeps (State.wr_keeps (State.wr_keeps (State.wr_keeps h ..) ..) ..) ..

theorem State.ledgerPutNor_keeps {s₀ s : State} (h : s₀.Keeps s) (r : LedgerRec) (fail : List Nat) : s₀.Keeps (s.ledgerPutNor r fail) :=
  State.norStatus_keeps (State.updSec_keeps h _)

theorem execDeviceLedgerWrite_keeps {s₀ s : State} (h :
    s₀.Keeps s) (fail0 fail1 : Nat) : Out.Keeps s₀ (execDeviceLedgerWrite fail0 fail1 s) := by
  unfold execDeviceLedgerWrite
  split
  · exact Out.next_keeps h
  · exact Out.next_keeps (State.ite_keeps (State.ledgerPutNor_keeps h.same ..) h)

theorem State.ledgerReclaim_keeps {s₀ s : State} (h : s₀.Keeps s) : s₀.Keeps s.ledgerReclaim :=
  State.norStatus_keeps (State.updSys_keeps (State.updSec_keeps
    (State.foldl_keeps h _ _ fun _ _ ht => State.ledgerPutNor_keeps ht ..) _) _)

theorem execDeviceLedgerReclaim_keeps {s₀ s : State} (h : s₀.Keeps s) : Out.Keeps s₀ (execDeviceLedgerReclaim s) :=
  Out.next_keeps (State.ite_keeps h (State.ledgerReclaim_keeps h))

theorem State.replayRec_keeps {s₀ s : State} (h : s₀.Keeps s) (r : LedgerRec) : s₀.Keeps (s.replayRec r) := by
  unfold State.replayRec
  extract_lets +onlyGivenNames _
  split
  · exact State.updSys_keeps (State.wr_keeps h ..) _
  · extract_lets +onlyGivenNames _ _ _
    exact State.ite_keeps (State.wr_keeps (State.wr_keeps (State.wr_keeps (State.wr_keeps (State.wr_keeps
      (State.wr_keeps h ..) ..) ..) ..) ..) ..) (State.wr_keeps (State.wr_keeps (State.wr_keeps (State.wr_keeps (State.wr_keeps
      (State.wr_keeps h ..) ..) ..) ..) ..) ..)
  · exact State.updSec_keeps h _
  · exact h.same
  · exact State.updSys_keeps (State.setOffered_keeps (State.setMode_keeps h ..) ..) _
  · exact (State.Keeps.frame _).updStor h _
  · exact State.wr_keeps (State.wr_keeps (State.updSec_keeps h _) ..) ..
  · exact State.updSys_keeps h _
  · exact h

theorem State.ledgerReplay_keeps {s₀ s : State} (h : s₀.Keeps s) (single bad : List Nat) : s₀.Keeps (s.ledgerReplay single bad) := by
  unfold State.ledgerReplay
  refine State.norStatus_keeps (State.keyStatus_keeps (State.each_keeps ?_ _ _ fun _ _ ht => State.raise_keeps
    (State.flagCount_keeps ht ..) ..))
  split
  · exact State.wr_keeps (State.updSys_keeps (State.foldl_keeps
      (State.updSec_keeps h _) _ _ fun _ _ ht => State.replayRec_keeps ht _) _) ..
  · exact State.updSys_keeps (State.foldl_keeps (State.updSec_keeps h _) _ _ fun _ _ ht => State.replayRec_keeps ht _) _

theorem execLedgerRead_keeps {s₀ s : State} (h : s₀.Keeps s) (id : Nat) : Out.Keeps s₀ (execLedgerRead id s) :=
  Out.next_keeps (State.startCmd_keeps h _ _ _ fun _ _ ht => State.ite_keeps (State.complete_keeps ht ..) (State.complete_keeps
    (State.ite_keeps ht (State.emit_keeps ht _)) ..))

theorem State.fwRecord_keeps {s₀ s : State} (h : s₀.Keeps s) (code : Nat) (img : List Byte) : s₀.Keeps (s.fwRecord code img) :=
  State.ledgerAdd_keeps h ..

theorem State.fwCmd_keeps {s₀ s : State} (h : s₀.Keeps s) (id opcode : Nat) (ok : Cmd → Bool) (f : Cmd → State → State)
    (hf : ∀ c t, s₀.Keeps t → s₀.Keeps (f c t)) : s₀.Keeps (s.fwCmd id opcode ok f) :=
  State.startCmd_keeps h _ _ _ fun _ _ ht => State.ite_keeps (State.complete_keeps ht ..) <| State.ite_keeps
    (State.complete_keeps ht ..) <|
    State.ite_keeps (State.complete_keeps ht ..) (hf _ _ ht)

theorem execFwStage_keeps {s₀ s : State} (h : s₀.Keeps s) (id : Nat) (data nor : List Byte) : Out.Keeps s₀ (execFwStage id data nor s) :=
  Out.next_keeps (State.fwCmd_keeps h _ _ _ _ fun _ _ ht => State.ite_keeps (State.complete_keeps ht ..) (State.ite_keeps
    (State.complete_keeps (State.emit_keeps ht _) ..) (State.ite_keeps (State.complete_keeps (State.emit_keeps ht _) ..)
    (State.ite_keeps (State.complete_keeps (State.fwRecord_keeps (State.wr_keeps (State.wr_keeps (State.updSec_keeps
    (State.emit_keeps ht _) _) ..) ..) ..) ..) (State.complete_keeps (State.wr_keeps (State.updSec_keeps
    (State.emit_keeps ht _) _) ..) ..)))))

theorem State.bootWrite_keeps {s₀ s : State} (h : s₀.Keeps s) (r : BootRec) : s₀.Keeps (s.bootWrite r) :=
  State.updSec_keeps h _

theorem State.fwShow_keeps {s₀ s : State} (h : s₀.Keeps s) (k : Nat) (trial : Bool) (boots : Nat) : s₀.Keeps (s.fwShow k trial boots) :=
  State.wr_keeps (State.wr_keeps (State.wr_keeps (State.wr_keeps (State.wr_keeps (State.wr_keeps
    (State.wr_keeps h ..) ..) ..) ..) ..) ..) ..

theorem execFwActivate_keeps {s₀ s : State} (h : s₀.Keeps s) (id : Nat) : Out.Keeps s₀ (execFwActivate id s) :=
  Out.next_keeps (State.fwCmd_keeps h _ _ _ _ fun _ _ ht => State.ite_keeps ht (State.complete_keeps ht ..))

theorem State.reload_keeps {s₀ s : State} (h : s₀.Keeps s) (half : Nat) : s₀.Keeps (s.reload half) :=
  State.updKeeper_keeps h ..

theorem State.activated_keeps {s₀ s : State} (h : s₀.Keeps s) (c : Cmd) : s₀.Keeps (s.activated c) :=
  State.complete_keeps (State.raise_keeps (State.ite_keeps (State.each_keeps (State.fwRecord_keeps (State.bump_keeps (State.fwShow_keeps
    (State.wr_keeps (State.updKeeper_keeps (State.reload_keeps (State.reload_keeps (State.bootWrite_keeps
    (State.passPoint_keeps h _) _) _) _) ..) ..) ..) ..) ..) _ _ fun _ _ ht => (State.Keeps.frame _).portPower ht _) (State.fwRecord_keeps
    (State.bump_keeps (State.fwShow_keeps (State.wr_keeps (State.updKeeper_keeps (State.reload_keeps (State.reload_keeps
    (State.bootWrite_keeps (State.passPoint_keeps h _) _) _) _) ..) ..) ..) ..) ..)) ..) ..

theorem execFwDrainDone_keeps {s₀ s : State} (h : s₀.Keeps s) : Out.Keeps s₀ (execFwDrainDone s) := by
  unfold execFwDrainDone
  split
  · exact Out.next_keeps h
  · exact Out.next_keeps (State.ite_keeps (State.activated_keeps h _) h)

theorem execFwDrainTimeout_keeps {s₀ s : State} (h : s₀.Keeps s) : Out.Keeps s₀ (execFwDrainTimeout s) := by
  unfold execFwDrainTimeout
  split
  · exact Out.next_keeps h
  · exact Out.next_keeps (State.ite_keeps h (State.complete_keeps h ..))

theorem State.trialConfirmed_keeps {s₀ s : State} (h : s₀.Keeps s) : s₀.Keeps s.trialConfirmed :=
  State.fwRecord_keeps (State.wr_keeps (State.wr_keeps (State.wr_keeps (State.wr_keeps (State.bootWrite_keeps
    (State.updSec_keeps h _) _) ..) ..) ..) ..) ..

theorem execFwConfirm_keeps {s₀ s : State} (h : s₀.Keeps s) (id : Nat) : Out.Keeps s₀ (execFwConfirm id s) :=
  Out.next_keeps (State.fwCmd_keeps h _ _ _ _ fun _ _ ht => State.ite_keeps (State.complete_keeps ht ..) (State.complete_keeps
    (State.trialConfirmed_keeps ht) ..))

theorem State.fallback_keeps {s₀ s : State} (h : s₀.Keeps s) (k : Nat) : s₀.Keeps (s.fallback k) :=
  State.fwRecord_keeps (State.raise_keeps (State.flagCount_keeps (State.bootWrite_keeps h _) ..) ..) ..

theorem State.fwBoot_keeps {s₀ s : State} (h : s₀.Keeps s) (single bad : List Nat) : s₀.Keeps (s.fwBoot single bad) := by
  unfold State.fwBoot
  extract_lets +onlyGivenNames _ t _ _ t1
  have ht : s₀.Keeps t := State.ledgerReplay_keeps h ..
  have ht1 : s₀.Keeps t1 := State.ite_keeps (State.fallback_keeps ht _) (State.ite_keeps (State.bootWrite_keeps ht _) ht)
  exact State.ite_keeps (State.fwShow_keeps ht1 ..) (State.ite_keeps (State.fwShow_keeps (State.fallback_keeps ht1 _) ..)
    (State.wr_keeps ht1 ..))

theorem execFirmwareBoot_keeps {s₀ s : State} (h : s₀.Keeps s) (single bad : List Nat) : Out.Keeps s₀ (execFirmwareBoot single bad s) :=
  Out.next_keeps (State.ite_keeps h (State.fwBoot_keeps h ..))

theorem execBoardCfgWrite_keeps {s₀ s : State} (h :
    s₀.Keeps s) (id : Nat) (data : List Byte) : Out.Keeps s₀ (execBoardCfgWrite id data s) :=
  Out.next_keeps (State.fwCmd_keeps h _ _ _ _ fun _ _ ht => State.complete_keeps (State.updSec_keeps (State.emit_keeps ht _) _) ..)

theorem execDsiSetupSent_keeps {s₀ s : State} (h : s₀.Keeps s) (o : Nat) : Out.Keeps s₀ (execDsiSetupSent o s) :=
  Out.ite_keeps (Out.next_keeps (State.dsiMode_keeps (State.ite_keeps (State.foldl_keeps h _ _ fun _ _ ht => State.emit_keeps ht _)
    (State.raise_keeps (State.wr_keeps h ..) ..)) ..)) (Out.next_keeps h)

/-! ### What the functions of Machine/Aborts.lean keep. Their subject: ABORT and QUEUE_RESET
(R429 to R433), and the function-level reset (R378). -/

theorem State.stopWork_keeps {s₀ s : State} (h : s₀.Keeps s) (c : Cmd) (status : Nat) : s₀.Keeps (s.stopWork c status) :=
  State.ite_keeps (State.each_keeps h _ _ fun _ _ ht => (State.Keeps.frame _).updSc ht ..) (State.ite_keeps
    (State.each_keeps h _ _ fun _ _ ht => State.rcEnd_keeps ht _) ((State.Keeps.frame _).storStop h ..))

theorem execAbort_keeps {s₀ s : State} (h : s₀.Keeps s) (id : Nat) : Out.Keeps s₀ (execAbort id s) := by
  unfold execAbort
  refine Out.next_keeps (State.storCmd_keeps h _ _ _ _ ?_)
  intro _ t ht
  extract_lets +onlyGivenNames _
  refine State.ite_keeps (State.complete_keeps ht ..) (State.ite_keeps (State.complete_keeps ht ..) ?_)
  split
  · exact State.complete_keeps ht ..
  · exact State.ite_keeps (State.complete_keeps ht ..) (State.complete_keeps (State.complete_keeps (State.stopWork_keeps ht ..) ..) ..)

theorem State.resetCmd_keeps {s₀ s : State} (h : s₀.Keeps s) (o : Cmd) : s₀.Keeps (s.resetCmd o) :=
  State.ite_keeps (State.post_keeps (State.updCmd_keeps h ..) _) (State.complete_keeps (State.stopWork_keeps h ..) ..)

theorem execQueueReset_keeps {s₀ s : State} (h : s₀.Keeps s) (id : Nat) : Out.Keeps s₀ (execQueueReset id s) := by
  unfold execQueueReset
  split
  · exact Out.next_keeps h
  · refine Out.ite_keeps (Out.next_keeps h) (Out.next_keeps (State.finishQueueResets_keeps (State.storCmd_keeps h _ _ _ _ ?_)))
    intro _ t ht
    refine State.ite_keeps (State.complete_keeps ht ..) (State.updCmd_keeps (State.each_keeps ht _ _ ?_) ..)
    intro u _ hu
    split
    · exact State.ite_keeps hu (State.resetCmd_keeps hu _)
    · exact hu

theorem State.barrowsCut_keeps {s₀ s : State} (h : s₀.Keeps s) (moved : List (Nat × List Byte)) : s₀.Keeps (s.barrowsCut moved) := by
  unfold State.barrowsCut
  refine State.each_keeps h _ _ ?_
  intro t _ ht
  refine (State.Keeps.frame _).barrowRelease ?_ _
  split
  · exact State.ite_keeps (State.barrowMove_keeps ht ..) ht
  · exact ht

theorem State.hostCleared_keeps {s₀ s : State} (h : s₀.Keeps s) : s₀.Keeps s.hostCleared := by
  refine h.trans ⟨⟨rfl, List.suffix_refl _, Nat.le_refl _⟩, ?_⟩
  simp only [State.wf_iff]
  rintro ⟨hmem, hcfg, hsts, hlatch⟩
  exact ⟨hmem, RegStore.wf_filter hcfg _, RegStore.wf_filter hsts _, RegStore.wf_filter hlatch _⟩

theorem execFunctionLevelReset_keeps {s₀ s : State} (h :
    s₀.Keeps s) (moved : List (Nat × List Byte)) : Out.Keeps s₀ (execFunctionLevelReset moved s) :=
  Out.next_keeps (State.resetDone_keeps (State.wr_keeps (State.countOutstanding_keeps (State.updSec_keeps (State.hostCleared_keeps
    (State.barrowsCut_keeps h _)) _)) ..) _)

/-! ### What the functions of Machine/Chains.lean keep. Their subject: Stall chains
(spec/02, R44 to R52): writes, reads, releases, marks, rewinds and abort items. -/

theorem State.setChain_keeps {s₀ s : State} (h : s₀.Keeps s) (k : Nat) (c : ChainSt) : s₀.Keeps (s.setChain k c) :=
  h.same

theorem execChainWrite_keeps {s₀ s : State} (h : s₀.Keeps s) (k : Nat) (item : ChainItem) : Out.Keeps s₀ (execChainWrite k item s) := by
  unfold execChainWrite
  extract_lets +onlyGivenNames _
  exact Out.ite_keeps (Out.next_keeps h) (Out.ite_keeps (Out.next_keeps (State.setChain_keeps h ..)) (Out.next_keeps
    (State.setChain_keeps h ..)))

theorem execChainRead_keeps {s₀ s : State} (h : s₀.Keeps s) (k : Nat) : Out.Keeps s₀ (execChainRead k s) :=
  Out.next_keeps (State.setChain_keeps h ..)

theorem execChainRelease_keeps {s₀ s : State} (h : s₀.Keeps s) (k : Nat) : Out.Keeps s₀ (execChainRelease k s) :=
  Out.next_keeps (State.setChain_keeps h ..)

theorem execChainMark_keeps {s₀ s : State} (h : s₀.Keeps s) (k : Nat) : Out.Keeps s₀ (execChainMark k s) :=
  Out.next_keeps (State.setChain_keeps h ..)

theorem execChainRewind_keeps {s₀ s : State} (h : s₀.Keeps s) (k : Nat) : Out.Keeps s₀ (execChainRewind k s) :=
  Out.next_keeps (State.setChain_keeps h ..)

theorem execChainAbortItem_keeps {s₀ s : State} (h : s₀.Keeps s) (k : Nat) : Out.Keeps s₀ (execChainAbortItem k s) := by
  unfold execChainAbortItem
  extract_lets +onlyGivenNames _
  exact Out.ite_keeps (Out.next_keeps (State.setChain_keeps h ..)) (Out.next_keeps h)

/-! ### What the functions of Machine/Intake.lean keep. Their subject: Frames as they come in over the link
(spec/03 and spec/04): frame-starts, row stripes, the brushes' bands and tiles, canvas writes, view pictures, settle notices and the
abort of an easel. -/

theorem State.orphans_keeps {s₀ s : State} (h : s₀.Keeps s) (e n : Nat) : s₀.Keeps (s.orphans e n) :=
  State.bump_keeps h ..

theorem State.endBefore_keeps {s₀ s : State} (h : s₀.Keeps s) (e : Nat) : s₀.Keeps (s.endBefore e) := by
  unfold State.endBefore
  split
  · exact h
  · exact State.frameEnd_keeps h ..

theorem State.targetsLost_keeps {s₀ s : State} (h : s₀.Keeps s) (e serial : Nat) : s₀.Keeps (s.targetsLost e serial) :=
  (State.Keeps.frame _).ticketCheck ((State.Keeps.frame _).updEasel h ..) _

theorem State.windowLate_keeps {s₀ s : State} (h : s₀.Keeps s) (e : Nat) : s₀.Keeps (s.windowLate e) := by
  unfold State.windowLate
  split
  · exact h
  · exact State.windowClose_keeps (State.raise_keeps (State.flagCount_keeps h ..) ..) ..

theorem State.echoCheck_keeps {s₀ s : State} (h : s₀.Keeps s) (e serial echo : Nat) : s₀.Keeps (s.echoCheck e serial echo) := by
  unfold State.echoCheck
  split
  · exact h
  · exact State.ite_keeps h (State.raise_keeps (State.flagCount_keeps ((State.Keeps.frame _).updFrame h ..) ..) ..)

theorem State.frameSlot_keeps {s₀ s : State} (h : s₀.Keeps s) (e serial : Nat) : s₀.Keeps (s.frameSlot e serial) := by
  unfold State.frameSlot
  split
  · exact (State.Keeps.frame _).updFrame (State.takeSlot_keeps h ..) ..
  · exact State.bump_keeps (State.wr_keeps h ..) ..

theorem State.fullScrape_keeps {s₀ s : State} (h : s₀.Keeps s) (e serial : Nat) : s₀.Keeps (s.fullScrape e serial) := by
  unfold State.fullScrape
  split
  · exact State.ite_keeps h ((State.Keeps.frame _).settleTo (State.raise_keeps h ..) ..)
  · exact h

theorem State.releaseRows_keeps {s₀ s : State} (h : s₀.Keeps s) (which : RowData → Bool) : s₀.Keeps (s.releaseRows which) :=
  (State.each_keeps h _ _ fun _ _ ht => (State.Keeps.frame _).intakeFree ht ..).same

theorem State.dropOld_keeps {s₀ s : State} (h : s₀.Keeps s) (e : Nat) : s₀.Keeps (s.dropOld e) :=
  (State.releaseRows_keeps h _).same

theorem State.brushForget_keeps {s₀ s : State} (h : s₀.Keeps s) (e serial : Nat) : s₀.Keeps (s.brushForget e serial) :=
  h.same

theorem State.frameOpen_keeps {s₀ s : State} (h : s₀.Keeps s) (e serial echo : Nat) : s₀.Keeps (s.frameOpen e serial echo) := by
  unfold State.frameOpen
  exact State.fullScrape_keeps (State.dropOld_keeps (State.takeFrameStart_keeps (State.frameSlot_keeps (State.palFrameStart_keeps
    (State.condFrameStart_keeps (State.brushForget_keeps (State.packForget_keeps (State.echoCheck_keeps ((State.Keeps.frame _).frameStatus
    (State.tick_keeps (State.whenB_keeps ((State.Keeps.frame _).updEasel (State.targetsLost_keeps (State.windowLate_keeps
    (State.endBefore_keeps h _) _) ..) ..) _ _ fun _ ht => State.bump_keeps ht ..)) _) ..) ..) ..) ..) ..) ..) ..) _) ..

theorem State.frameStart_keeps {s₀ s : State} (h : s₀.Keeps s) (e : Nat) (fs0 fs1 fs2 : Option (List Byte)) :
    s₀.Keeps (s.frameStart e fs0 fs1 fs2) := by
  unfold State.frameStart
  extract_lets +onlyGivenNames _ _
  exact State.ite_keeps (State.orphans_keeps h ..) (State.ite_keeps ((State.Keeps.frame _).updEasel (State.bump_keeps h ..) ..) (State.ite_keeps
    (State.raise_keeps ((State.Keeps.frame _).updEasel (State.bump_keeps h ..) ..) ..) (State.ite_keeps (State.orphans_keeps ((State.Keeps.frame _).updEasel
    (State.endBefore_keeps h _) ..) ..) (State.frameOpen_keeps h ..))))

theorem execFrameStartReceive_keeps {s₀ s : State} (h :
    s₀.Keeps s) (e : Nat) (fs0 fs1 fs2 : Option (List Byte)) : Out.Keeps s₀ (execFrameStartReceive e fs0 fs1 fs2 s) :=
  Out.ite_keeps (Out.next_keeps h) (Out.next_keeps (State.frameStart_keeps h ..))

theorem State.sawClear_keeps {s₀ s : State} (h : s₀.Keeps s) (e : Nat) : s₀.Keeps (s.sawClear e) :=
  State.each_keeps ((State.Keeps.frame _).updEasel h ..) _ _ fun _ _ ht => (State.Keeps.frame _).updGroup ht ..

theorem State.rowCheckError_keeps {s₀ s : State} (h : s₀.Keeps s) (e n : Nat) (r : RowStripe) : s₀.Keeps (s.rowCheckError e n r) :=
  State.each_keeps (State.bump_keeps h ..) _ _ fun _ _ ht => State.bump_keeps ht ..

theorem State.spiltTaken_keeps {s₀ s : State} (h : s₀.Keeps s) (e : Nat) (lost : List (BlockPlace × Nat)) :
    s₀.Keeps (s.spiltTaken e lost) :=
  (State.Keeps.frame _).updEasel h ..

theorem State.selftestStop_keeps {s₀ s : State} (h : s₀.Keeps s) (half : Nat) : s₀.Keeps (s.selftestStop half) :=
  State.ite_keeps ((State.Keeps.frame _).halfRunning ((State.Keeps.frame _).updRun h ..) ..) h

theorem State.bandReady_keeps {s₀ s : State} (h : s₀.Keeps s) (e serial index : Nat) : s₀.Keeps (s.bandReady e serial index) := by
  unfold State.bandReady
  extract_lets +onlyGivenNames _ _
  exact State.ite_keeps h (State.selftestStop_keeps h.same _)

theorem State.keepRow_keeps {s₀ s : State} (h : s₀.Keeps s) (row : RowData) (gone : Bool) : s₀.Keeps (s.keepRow row gone) := by
  unfold State.keepRow
  extract_lets +onlyGivenNames _
  split
  · exact (State.whenB_keeps h _ _ fun _ ht => State.releaseRows_keeps ht _).same
  · exact h.same

theorem State.rowTake_keeps {s₀ s : State} (h : s₀.Keeps s) (e : Nat) (f : Frame) (r : RowStripe) (ob : Bool) (index : Nat)
    (spilt : Bool) : s₀.Keeps (s.rowTake e f r ob index spilt) := by
  unfold State.rowTake
  extract_lets +onlyGivenNames _ _ _ _ _ _ _ _ _ _ _ _ t t1 _ _ _ _ _ t2
  have ht : s₀.Keeps t := State.whenB_keeps (State.bump_keeps (State.whenB_keeps
    (State.whenB_keeps h _ _ fun _ ht => State.bump_keeps ht ..) _ _ fun _ ht => State.bump_keeps ht ..) ..) _ _ fun _ ht =>
    State.rowCheckError_keeps ht ..
  have ht1 : s₀.Keeps t1 := (State.Keeps.frame _).updEasel (State.sawClear_keeps ht _) ..
  extract_lets +onlyGivenNames t2
  have ht2 : s₀.Keeps t2 := ht1.same
  exact State.whenB_keeps (State.whenB_keeps
    (State.whenB_keeps ht2 _ _ fun _ ht => (State.Keeps.frame _).intakeFree ht ..) _ _ fun _ ht => State.keepRow_keeps ht ..) _ _ fun _ ht =>
    State.bandReady_keeps ht ..

theorem State.rowUnread_keeps {s₀ s : State} (h : s₀.Keeps s) (e : Nat) (f : Frame) (r : RowStripe) (spilt : Bool) :
    s₀.Keeps (s.rowUnread e f r spilt) :=
  State.whenB_keeps (State.sawClear_keeps (State.rowCheckError_keeps (State.bump_keeps
    (State.bump_keeps h ..) ..) ..) _) _ _ fun _ ht => (State.Keeps.frame _).updFrame ht ..

theorem State.stripeDropped_keeps {s₀ s : State} (h : s₀.Keeps s) (e : Nat) (stripe : RowStripe) : s₀.Keeps (s.stripeDropped e stripe) :=
  State.sawClear_keeps (State.orphans_keeps ((State.Keeps.frame _).intakeFree (State.spiltTaken_keeps h ..) ..) ..) _

theorem State.stripeUnread_keeps {s₀ s : State} (h : s₀.Keeps s) (e : Nat) (f : Frame) (stripe : RowStripe) :
    s₀.Keeps (s.stripeUnread e f stripe) :=
  State.rowUnread_keeps ((State.Keeps.frame _).intakeFree (State.spiltTaken_keeps h ..) ..) ..

theorem execRowStripeReceive_keeps {s₀ s : State} (h :
    s₀.Keeps s) (e : Nat) (stripe : RowStripe) : Out.Keeps s₀ (execRowStripeReceive e stripe s) := by
  unfold execRowStripeReceive
  refine Out.ite_keeps (Out.next_keeps h) (Out.ite_keeps (Out.next_keeps (State.stripeDropped_keeps h ..)) ?_)
  split
  · exact Out.next_keeps (State.stripeDropped_keeps h ..)
  · exact Out.next_keeps (State.rowTake_keeps (State.spiltTaken_keeps h ..) ..)
  · exact Out.next_keeps (State.stripeUnread_keeps h ..)

theorem State.bandFallback_keeps {s₀ s : State} (h : s₀.Keeps s) (half e serial band : Nat) (full : List Nat) :
    s₀.Keeps (s.bandFallback half e serial band full) := by
  unfold State.bandFallback
  split
  · extract_lets +onlyGivenNames _
    split
    · exact h
    · extract_lets +onlyGivenNames t
      have ht : s₀.Keeps t := State.updPal_keeps (State.whenB_keeps
        (State.flagCount_keeps h ..) _ _ fun _ ht => State.raise_keeps ht ..) ..
      split
      · exact State.takeHold_keeps ht ..
      · exact ht
  · exact h

theorem execBrushBandStart_keeps {s₀ s : State} (h :
    s₀.Keeps s) (half : Nat) (full : List Nat) : Out.Keeps s₀ (execBrushBandStart half full s) := by
  unfold execBrushBandStart
  split
  · exact Out.next_keeps h
  · exact Out.ite_keeps (Out.next_keeps h) (Out.next_keeps (State.bandFallback_keeps (State.releaseRows_keeps h.same _) ..))

theorem State.tileClose_keeps {s₀ s : State} (h : s₀.Keeps s) (e : Nat) (f : Frame) (cf : CondFrame) (tile : Nat) (rows : List BrushRow)
    (damaged : Bool) : s₀.Keeps (s.tileClose e f cf tile rows damaged) :=
  (State.whenB_keeps (State.whenB_keeps (State.statTile_keeps (State.updCondFrame_keeps (State.bump_keeps
    (State.bump_keeps h ..) ..) ..) ..) _ _ fun _ ht => State.tileHurt_keeps ht ..) _ _ fun _ ht => State.reportWeak_keeps ht ..).same

theorem execTileClose_keeps {s₀ s : State} (h :
    s₀.Keeps s) (e serial tile : Nat) (seen : Option (List Byte)) : Out.Keeps s₀ (execTileClose e serial tile seen s) := by
  unfold execTileClose
  split
  · extract_lets +onlyGivenNames _ _
    exact Out.ite_keeps (Out.next_keeps h) (Out.next_keeps (State.viewsRun_keeps (State.tileClose_keeps
      (State.whenB_keeps h _ _ fun _ ht => State.countUp_keeps ht ..) ..)))
  · exact Out.next_keeps h

theorem execCanvasWriteDone_keeps {s₀ s : State} (h :
    s₀.Keeps s) (e serial tile : Nat) : Out.Keeps s₀ (execCanvasWriteDone e serial tile s) := by
  unfold execCanvasWriteDone
  extract_lets +onlyGivenNames _
  split
  · exact Out.next_keeps h
  · extract_lets +onlyGivenNames t
    extract_lets +onlyGivenNames t
    have ht : s₀.Keeps t := h.same
    split
    · exact Out.next_keeps ht
    · exact Out.next_keeps (State.viewsRun_keeps ((State.put_keeps (State.put_keeps ht ..) ..).same))

theorem execViewPictureStart_keeps {s₀ s : State} (h : s₀.Keeps s) (v serial : Nat) : Out.Keeps s₀ (execViewPictureStart v serial s) := by
  unfold execViewPictureStart
  extract_lets +onlyGivenNames _
  split
  · exact Out.next_keeps h
  · extract_lets +onlyGivenNames _ slot
    refine Out.ite_keeps (Out.next_keeps h) ?_
    clear_value slot
    split
    · refine Out.next_keeps (State.viewsRun_keeps (State.whenB_keeps ?_ _ _ fun _ ht => State.takeHold_keeps
        (State.takeHold_keeps ht ..) ..))
      split
      · exact State.sketchOffer_keeps (State.pictureStart_keeps h ..) ..
      · exact State.pictureStart_keeps h ..
    · refine Out.next_keeps (State.viewsRun_keeps ?_)
      split
      · exact State.sketchOffer_keeps (State.pictureStart_keeps h ..) ..
      · exact State.pictureStart_keeps h ..

theorem State.ticketNotice_keeps {s₀ s : State} (h : s₀.Keeps s) (e serial : Nat) : s₀.Keeps (s.ticketNotice e serial) := by
  unfold State.ticketNotice
  split
  · exact h
  · exact (State.Keeps.frame _).ticketCheck ((State.Keeps.frame _).updEasel h ..) _

theorem State.canvasNotice_keeps {s₀ s : State} (h : s₀.Keeps s) (e serial : Nat) : s₀.Keeps (s.canvasNotice e serial) := by
  unfold State.canvasNotice
  split
  · exact State.ite_keeps ((State.Keeps.frame _).slotCheck (((State.Keeps.frame _).updSlot h ..).same) ..) ((State.Keeps.frame _).slotCheck
      ((State.Keeps.frame _).updSlot h ..) ..)
  · exact h

theorem State.notice_keeps {s₀ s : State} (h : s₀.Keeps s) (c : Consumer) (e serial : Nat) : s₀.Keeps (s.notice c e serial) := by
  unfold State.notice
  split
  · exact State.ticketNotice_keeps h ..
  · exact State.columnNotice_keeps h ..
  · exact State.statsNotice_keeps h ..
  · exact State.viewNotice_keeps h ..
  · exact State.canvasNotice_keeps h ..
  · exact State.packNotice_keeps h ..
  · exact State.storeNotice_keeps h ..
  · exact State.barrowNotice_keeps h ..
  · exact State.sketchNotice_keeps h ..
  · exact State.rasterNotice_keeps h ..
  · exact State.senderNotice_keeps h ..

theorem execSettleNotice_keeps {s₀ s : State} (h :
    s₀.Keeps s) (c : Consumer) (e serial : Nat) : Out.Keeps s₀ (execSettleNotice c e serial s) :=
  Out.ite_keeps (Out.next_keeps (State.notice_keeps h.same ..)) (Out.next_keeps h)

theorem execEaselAbort_keeps {s₀ s : State} (h : s₀.Keeps s) (e : Nat) : Out.Keeps s₀ (execEaselAbort e s) := by
  unfold execEaselAbort
  extract_lets +onlyGivenNames _
  exact Out.ite_keeps (Out.next_keeps h) (Out.ite_keeps (Out.next_keeps (State.wr_keeps (State.wr_keeps h ..) ..)) (Out.next_keeps
    (State.ite_keeps ((State.Keeps.frame _).endTake (State.each_keeps
    ((State.Keeps.frame _).scrapeAll h _) _ _ fun _ _ ht => State.scrapedOut_keeps ht ..) ..) ((State.Keeps.frame _).easelClosed ((State.Keeps.frame _).endTake
    (State.each_keeps ((State.Keeps.frame _).scrapeAll h _) _ _ fun _ _ ht => State.scrapedOut_keeps ht ..) ..) _))))

/-! ### What the functions of Machine/Pace.lean keep. Their subject: The pace meters and the published step codes
(spec/02 R56 to R64). -/

theorem State.meterFault_keeps {s₀ s : State} (h : s₀.Keeps s) (half m count : Nat) : s₀.Keeps (s.meterFault half m count) :=
  State.raise_keeps (State.flagCount_keeps (State.wr_keeps h ..) ..) ..

theorem State.pacePublish_keeps {s₀ s : State} (h : s₀.Keeps s) (half : Nat) (counts : List Nat) :
    s₀.Keeps (s.pacePublish half counts) := by
  unfold State.pacePublish
  extract_lets +onlyGivenNames t
  have ht : s₀.Keeps t := State.wr_keeps h ..
  exact State.ite_keeps (State.wr_keeps ht ..) (State.wr_keeps (State.wr_keeps (State.wr_keeps (State.wr_keeps ht ..) ..) ..) ..)

theorem State.paceHalf_keeps {s₀ s : State} (h : s₀.Keeps s) (half : Nat) (counts : List (Option Nat)) :
    s₀.Keeps (s.paceHalf half counts) :=
  State.ite_keeps h (State.pacePublish_keeps (State.each_keeps h _ _ fun _ _ ht => State.meterFault_keeps ht ..) ..)

theorem State.paceSlow_keeps {s₀ s : State} (h : s₀.Keeps s) (e : Nat) : s₀.Keeps (s.paceSlow e) := by
  unfold State.paceSlow
  extract_lets +onlyGivenNames _ _ _
  exact State.ite_keeps ((State.Keeps.frame _).updEasel h ..) (State.ite_keeps (State.raise_keeps (State.flagCount_keeps
    ((State.Keeps.frame _).updEasel h ..) ..) ..) h)

theorem execPaceSample_keeps {s₀ s : State} (h :
    s₀.Keeps s) (west east : List (Option Nat)) : Out.Keeps s₀ (execPaceSample west east s) :=
  Out.ite_keeps (Out.next_keeps h) (Out.next_keeps (State.boostRaise_keeps (State.each_keeps (State.wr_keeps (State.wr_keeps
    (State.paceHalf_keeps (State.paceHalf_keeps h ..) ..) ..) ..) _ _ fun _ _ ht => State.paceSlow_keeps ht _)))

/-! ### What the functions of Machine/RegWrite.lean keep. Their subject: BAR0 writes and reads
(spec/20 R639 to R645): finding a register, the writes that a field refuses, what a write sets off, reads with their latches, and the
accesses that are no good. -/

theorem State.refuseFlag_keeps {s₀ s : State} (h : s₀.Keeps s) (b i : Nat) : s₀.Keeps (s.refuseFlag b i) :=
  State.ite_keeps (State.wr_keeps h ..) <| State.ite_keeps (State.wr_keeps h ..) <| State.ite_keeps
    (State.wr_keeps h ..) <| State.ite_keeps (State.flagCount_keeps h ..) <|
  State.ite_keeps (State.wr_keeps h ..) <| State.ite_keeps (State.wr_keeps h ..) <| State.ite_keeps
    (State.wr_keeps h ..) <| State.ite_keeps (State.wr_keeps h ..) <|
  State.ite_keeps (State.wr_keeps h ..) <| State.ite_keeps h <| State.ite_keeps (State.wr_keeps h ..) <| State.ite_keeps
    (State.wr_keeps h ..) <| State.ite_keeps h <|
  State.ite_keeps (State.wr_keeps h ..) <| State.ite_keeps (State.wr_keeps h ..) (State.wr_keeps h ..)

theorem State.writeFields_keeps {s₀ s : State} (h : s₀.Keeps s) (r : Reg) (i j v : Nat) : s₀.Keeps (s.writeFields r i j v) :=
  State.each_keeps h _ _ fun _ _ ht => State.ite_keeps (State.ite_keeps ht (State.wr_keeps ht ..)) (State.ite_keeps
    (State.wr_keeps ht ..) ht)

theorem State.writeActs_keeps {s₀ s : State} (old : State) (h : s₀.Keeps s) (b i v : Nat) : s₀.Keeps (old.writeActs s b i v) :=
  State.ite_keeps ((State.Keeps.frame _).portPower h _) <| State.ite_keeps ((State.Keeps.frame _).packStatus h _) <| State.ite_keeps
    ((State.Keeps.frame _).poolStatus h _) <|
  State.ite_keeps (State.ite_keeps h (State.whenUp_keeps h _ _ fun _ ht => (State.Keeps.frame _).ptpEnable ht _)) <| State.ite_keeps
    ((State.Keeps.frame _).updNet h _) <|
  State.ite_keeps (State.ite_keeps h (State.whenUp_keeps h _ _ fun _ ht => (State.Keeps.frame _).masterStart ht)) <| State.ite_keeps
    ((State.Keeps.frame _).updCond h ..) h

theorem State.regWrite_keeps {s₀ s : State} (h : s₀.Keeps s) (r : Reg) (i j v : Nat) : s₀.Keeps (s.regWrite r i j v) := by
  unfold State.regWrite
  extract_lets +onlyGivenNames _
  exact State.ite_keeps (State.refuseFlag_keeps h ..) (State.writeActs_keeps _ (State.writeFields_keeps h ..) ..)

theorem State.badAccess_keeps {s₀ s : State} (h : s₀.Keeps s) : s₀.Keeps s.badAccess :=
  State.flagCount_keeps h ..

theorem execRegisterWrite_keeps {s₀ s : State} (h : s₀.Keeps s) (off v : Nat) : Out.Keeps s₀ (execRegisterWrite off v s) := by
  unfold execRegisterWrite
  split
  · exact Out.next_keeps (State.badAccess_keeps h)
  · exact Out.ite_keeps (Out.next_keeps h) (Out.ite_keeps (Out.next_keeps (State.waitPlan_keeps h _)) (Out.next_keeps
      (State.regWrite_keeps h ..)))

theorem execBadAccess_keeps {s₀ s : State} (h :
    s₀.Keeps s) (read : Bool) (off size : Nat) : Out.Keeps s₀ (execBadAccess read off size s) :=
  Out.ite_keeps (Out.next_keeps (State.whenB_keeps (State.badAccess_keeps h) _ _ fun _ ht => State.emit_keeps ht _)) (Out.ite_keeps
    (Out.next_keeps (State.badAccess_keeps h)) (Out.next_keeps h))

theorem State.clearRc_keeps {s₀ s : State} (h : s₀.Keeps s) (r : Reg) (i j : Nat) : s₀.Keeps (s.clearRc r i j) := by
  unfold State.clearRc
  refine State.each_keeps h _ _ ?_
  intro t _ ht
  split
  · exact State.wr_keeps ht ..
  · exact State.wr_keeps ht ..
  · exact ht

theorem execRcFieldRead_keeps {s₀ s : State} (h : s₀.Keeps s) (off : Nat) : Out.Keeps s₀ (execRcFieldRead off s) := by
  unfold execRcFieldRead
  split
  · exact Out.next_keeps (State.emit_keeps h _)
  · exact Out.ite_keeps (Out.next_keeps h) (Out.ite_keeps (Out.next_keeps (State.emit_keeps h _)) (Out.next_keeps (State.clearRc_keeps
      (State.emit_keeps h _) ..)))

theorem State.freeLatch_keeps {s₀ s : State} (h : s₀.Keeps s) (base i : Nat) : s₀.Keeps (s.freeLatch base i) :=
  State.ite_keeps (State.wr_keeps h ..) (State.ite_keeps (State.wr_keeps h ..) (State.ite_keeps (State.updStack_keeps h ..) h))

theorem State.latchWords_keeps {s₀ s : State} (h : s₀.Keeps s) (off : Nat) (later : List Nat) : s₀.Keeps (s.latchWords off later) := by
  unfold State.latchWords
  refine State.each_keeps h _ _ ?_
  intro t _ ht
  split
  · exact State.clearRc_keeps (State.latchSet_keeps ht ..) ..
  · exact ht

theorem execLatchedGroupRead_keeps {s₀ s : State} (h : s₀.Keeps s) (off : Nat) : Out.Keeps s₀ (execLatchedGroupRead off s) := by
  unfold execLatchedGroupRead
  split
  · exact Out.next_keeps h
  · split
    · exact Out.next_keeps h
    · exact Out.ite_keeps (Out.next_keeps h) (Out.ite_keeps (Out.next_keeps (State.tick_keeps (State.emit_keeps (State.latchSet_keeps
        (State.latchSet_keeps h ..) ..) _))) (Out.next_keeps (State.freeLatch_keeps (State.clearRc_keeps (State.latchWords_keeps
        (State.emit_keeps h _) ..) ..) ..)))

theorem execW1cFlagClear_keeps {s₀ s : State} (h : s₀.Keeps s) (off v : Nat) : Out.Keeps s₀ (execW1cFlagClear off v s) := by
  unfold execW1cFlagClear
  split
  · exact Out.next_keeps h
  · exact Out.ite_keeps (Out.next_keeps h) (Out.next_keeps (State.each_keeps h _ _ fun _ _ ht => State.ite_keeps
      (State.wr_keeps ht ..) ht))

theorem Out.stateOr_keeps {s₀ s : State} {o : Out} (ho : Out.Keeps s₀ o) : s₀.Keeps (o.stateOr s) := by
  obtain ⟨t, rfl, ht⟩ := ho
  exact ht

theorem State.actWaiting_keeps {s₀ s : State} (h : s₀.Keeps s) (i : Instr) : s₀.Keeps (s.actWaiting i) := by
  unfold State.actWaiting
  split
  · exact Out.stateOr_keeps (execEaselAdmissionCheck_keeps h _)
  · exact Out.stateOr_keeps (execTakeOpen_keeps h _)
  · exact Out.stateOr_keeps (execSketchOpen_keeps h _)
  · exact Out.stateOr_keeps (execRcDecode_keeps h ..)
  · exact Out.stateOr_keeps (execAudRecRunStart_keeps h)
  · exact Out.stateOr_keeps (execPalLoad_keeps h _)
  · exact Out.stateOr_keeps (execAvsReportTimeout_keeps h _)
  · exact Out.stateOr_keeps (execRegisterWrite_keeps h ..)
  · exact h

theorem execHbmPlanCheckDone_keeps {s₀ s : State} (h : s₀.Keeps s) : Out.Keeps s₀ (execHbmPlanCheckDone s) :=
  Out.ite_keeps (Out.next_keeps h) (Out.next_keeps (State.each_keeps ((State.Keeps.frame _).updHbm
    (State.planDecide_keeps h) _) _ _ fun _ _ ht => State.actWaiting_keeps ht _))

end Sys2Proof.Machine
end

section
/-! PROOFS. Every command answers a next state and keeps what stood before, and the statements about every step (spec/95). -/
namespace Sys2Proof.Machine

set_option Elab.async false

/-- Every command answers a next state that carries on what stands around it and keeps the canonical form. -/
theorem exec_keeps (s : State) (i : Instr) : Out.Keeps s (exec i s) :=
  match i with
  | .registerWrite .. => execRegisterWrite_keeps (.refl s) ..
  | .badAccess .. => execBadAccess_keeps (.refl s) ..
  | .rcFieldRead .. => execRcFieldRead_keeps (.refl s) ..
  | .latchedGroupRead .. => execLatchedGroupRead_keeps (.refl s) ..
  | .w1cFlagClear .. => execW1cFlagClear_keeps (.refl s) ..
  | .glbEvTestWrite .. => execGlbEvTestWrite_keeps (.refl s) ..
  | .chainWrite .. => execChainWrite_keeps (.refl s) ..
  | .chainRead .. => execChainRead_keeps (.refl s) ..
  | .chainRelease .. => execChainRelease_keeps (.refl s) ..
  | .chainMark .. => execChainMark_keeps (.refl s) ..
  | .chainRewind .. => execChainRewind_keeps (.refl s) ..
  | .chainAbortItem .. => execChainAbortItem_keeps (.refl s) ..
  | .paceSample .. => execPaceSample_keeps (.refl s) ..
  | .linkBlockReceive .. => execLinkBlockReceive_keeps (.refl s) ..
  | .forwardedRunReceive .. => execForwardedRunReceive_keeps (.refl s) ..
  | .laneBlockLock .. => execLaneBlockLock_keeps (.refl s) ..
  | .laneLockLoss .. => execLaneLockLoss_keeps (.refl s) ..
  | .alignReceive .. => execAlignReceive_keeps (.refl s) ..
  | .deskewMarkerCycle .. => execDeskewMarkerCycle_keeps (.refl s) ..
  | .brlGrpCfgWrite .. => execBrlGrpCfgWrite_keeps (.refl s) ..
  | .brlTrain .. => execBrlTrain_keeps (.refl s) ..
  | .brlCkMeasured .. => execBrlCkMeasured_keeps (.refl s) ..
  | .brlAdaptDone .. => execBrlAdaptDone_keeps (.refl s) ..
  | .brlSleepReceive .. => execBrlSleepReceive_keeps (.refl s) ..
  | .brlCkRestart .. => execBrlCkRestart_keeps (.refl s) ..
  | .brlCkLoss .. => execBrlCkLoss_keeps (.refl s) ..
  | .trainingTimeout .. => execTrainingTimeout_keeps (.refl s) ..
  | .brlTestModeSet .. => execBrlTestModeSet_keeps (.refl s) ..
  | .brlTestModeClear .. => execBrlTestModeClear_keeps (.refl s) ..
  | .brlBcSleep .. => execBrlBcSleep_keeps (.refl s) ..
  | .brlBcWake .. => execBrlBcWake_keeps (.refl s) ..
  | .bcCmdGo .. => execBcCmdGo_keeps (.refl s) ..
  | .bcRegReply .. => execBcRegReply_keeps (.refl s) ..
  | .bcCmdTimeout .. => execBcCmdTimeout_keeps (.refl s) ..
  | .frameStartReceive .. => execFrameStartReceive_keeps (.refl s) ..
  | .rowStripeReceive .. => execRowStripeReceive_keeps (.refl s) ..
  | .frameEndReceive .. => execFrameEndReceive_keeps (.refl s) ..
  | .rowReport .. => execRowReport_keeps (.refl s) ..
  | .frameEndTimeout .. => execFrameEndTimeout_keeps (.refl s) ..
  | .settleNotice .. => execSettleNotice_keeps (.refl s) ..
  | .easelOpen .. => execEaselOpen_keeps (.refl s) ..
  | .easelAdmissionCheck .. => execEaselAdmissionCheck_keeps (.refl s) ..
  | .easelClose .. => execEaselClose_keeps (.refl s) ..
  | .easelAbort .. => execEaselAbort_keeps (.refl s) ..
  | .ticketPost .. => execTicketPost_keeps (.refl s) ..
  | .ticketWindowClose .. => execTicketWindowClose_keeps (.refl s) ..
  | .brushBandStart .. => execBrushBandStart_keeps (.refl s) ..
  | .tileClose .. => execTileClose_keeps (.refl s) ..
  | .canvasWriteDone .. => execCanvasWriteDone_keeps (.refl s) ..
  | .blackEstimateDone .. => execBlackEstimateDone_keeps (.refl s) ..
  | .condCommit .. => execCondCommit_keeps (.refl s) ..
  | .condCommitCheckDone .. => execCondCommitCheckDone_keeps (.refl s) ..
  | .condCal .. => execCondCal_keeps (.refl s) ..
  | .calRunStart .. => execCalRunStart_keeps (.refl s) ..
  | .calRunEnd .. => execCalRunEnd_keeps (.refl s) ..
  | .calDeferTimeout .. => execCalDeferTimeout_keeps (.refl s) ..
  | .palCommit .. => execPalCommit_keeps (.refl s) ..
  | .viewCommit .. => execViewCommit_keeps (.refl s) ..
  | .colourCommitCheckDone .. => execColourCommitCheckDone_keeps (.refl s) ..
  | .palLoad .. => execPalLoad_keeps (.refl s) ..
  | .palLoadComplete .. => execPalLoadComplete_keeps (.refl s) ..
  | .viewPictureStart .. => execViewPictureStart_keeps (.refl s) ..
  | .viewPictureDone .. => execViewPictureDone_keeps (.refl s) ..
  | .statsRecordPost .. => execStatsRecordPost_keeps (.refl s) ..
  | .packerTileTake .. => execPackerTileTake_keeps (.refl s) ..
  | .packerTileCommit .. => execPackerTileCommit_keeps (.refl s) ..
  | .laneRingResume .. => execLaneRingResume_keeps (.refl s) ..
  | .tileDecode .. => execTileDecode_keeps (.refl s) ..
  | .frameRatioCompute .. => execFrameRatioCompute_keeps (.refl s) ..
  | .hbmStackReady .. => execHbmStackReady_keeps (.refl s) ..
  | .hbmAllBankRefresh .. => execHbmAllBankRefresh_keeps (.refl s) ..
  | .hbmCaAlert .. => execHbmCaAlert_keeps (.refl s) ..
  | .hbmUncorrRead .. => execHbmUncorrRead_keeps (.refl s) ..
  | .hbmRowActivate .. => execHbmRowActivate_keeps (.refl s) ..
  | .hbmRhWindowReset .. => execHbmRhWindowReset_keeps (.refl s) ..
  | .hbmPlanCommit .. => execHbmPlanCommit_keeps (.refl s) ..
  | .hbmPlanCheckDone .. => execHbmPlanCheckDone_keeps (.refl s) ..
  | .canvasHoldRelease .. => execCanvasHoldRelease_keeps (.refl s) ..
  | .magInsertion .. => execMagInsertion_keeps (.refl s) ..
  | .magRemoval .. => execMagRemoval_keeps (.refl s) ..
  | .magRampDone .. => execMagRampDone_keeps (.refl s) ..
  | .magInitDone .. => execMagInitDone_keeps (.refl s) ..
  | .magRetry .. => execMagRetry_keeps (.refl s) ..
  | .magPortDisable .. => execMagPortDisable_keeps (.refl s) ..
  | .pfwNFall .. => execPfwNFall_keeps (.refl s) ..
  | .pfwProgramsDrained p n us => execPfwProgramsDrained_keeps (.refl s) p n us
  | .pfwNRecover .. => execPfwNRecover_keeps (.refl s) ..
  | .dieOpIssue .. => execDieOpIssue_keeps (.refl s) ..
  | .dieOpComplete .. => execDieOpComplete_keeps (.refl s) ..
  | .segmentClose .. => execSegmentClose_keeps (.refl s) ..
  | .elasticSpill .. => execElasticSpill_keeps (.refl s) ..
  | .ledgerGroupIssue .. => execLedgerGroupIssue_keeps (.refl s) ..
  | .ledgerSnapshot .. => execLedgerSnapshot_keeps (.refl s) ..
  | .takeOpen .. => execTakeOpen_keeps (.refl s) ..
  | .takeClose .. => execTakeClose_keeps (.refl s) ..
  | .readTiles .. => execReadTiles_keeps (.refl s) ..
  | .readRange .. => execReadRange_keeps (.refl s) ..
  | .writeSidecar .. => execWriteSidecar_keeps (.refl s) ..
  | .flush .. => execFlush_keeps (.refl s) ..
  | .abort .. => execAbort_keeps (.refl s) ..
  | .queueReset .. => execQueueReset_keeps (.refl s) ..
  | .mount .. => execMount_keeps (.refl s) ..
  | .unmount .. => execUnmount_keeps (.refl s) ..
  | .format .. => execFormat_keeps (.refl s) ..
  | .sanitize .. => execSanitize_keeps (.refl s) ..
  | .identifyReel .. => execIdentifyReel_keeps (.refl s) ..
  | .getLog .. => execGetLog_keeps (.refl s) ..
  | .doorbellPoll .. => execDoorbellPoll_keeps (.refl s) ..
  | .doorbellPageReturn .. => execDoorbellPageReturn_keeps (.refl s) ..
  | .ringEnable .. => execRingEnable_keeps (.refl s) ..
  | .ringDisable .. => execRingDisable_keeps (.refl s) ..
  | .cqEnable .. => execCqEnable_keeps (.refl s) ..
  | .cqDisable .. => execCqDisable_keeps (.refl s) ..
  | .descriptorFetch .. => execDescriptorFetch_keeps (.refl s) ..
  | .descriptorFetchReturn .. => execDescriptorFetchReturn_keeps (.refl s) ..
  | .descriptorDecode .. => execDescriptorDecode_keeps (.refl s) ..
  | .fenceRelease .. => execFenceRelease_keeps (.refl s) ..
  | .nop .. => execNop_keeps (.refl s) ..
  | .completionRecordWrite .. => execCompletionRecordWrite_keeps (.refl s) ..
  | .eventRecordWrite .. => execEventRecordWrite_keeps (.refl s) ..
  | .evqEnable .. => execEvqEnable_keeps (.refl s) ..
  | .msixMessageSend .. => execMsixMessageSend_keeps (.refl s) ..
  | .msixCoalesceTimeout .. => execMsixCoalesceTimeout_keeps (.refl s) ..
  | .msixVectorUnmask .. => execMsixVectorUnmask_keeps (.refl s) ..
  | .functionLevelReset .. => execFunctionLevelReset_keeps (.refl s) ..
  | .barrowChannelEnable .. => execBarrowChannelEnable_keeps (.refl s) ..
  | .barrowChannelDisable .. => execBarrowChannelDisable_keeps (.refl s) ..
  | .barrowChannelRestart .. => execBarrowChannelRestart_keeps (.refl s) ..
  | .barrowDescFetch .. => execBarrowDescFetch_keeps (.refl s) ..
  | .barrowDescEnd .. => execBarrowDescEnd_keeps (.refl s) ..
  | .barrowCtrlReread .. => execBarrowCtrlReread_keeps (.refl s) ..
  | .sketchOpen .. => execSketchOpen_keeps (.refl s) ..
  | .sketchClose .. => execSketchClose_keeps (.refl s) ..
  | .sketchRefresh .. => execSketchRefresh_keeps (.refl s) ..
  | .rcDecode .. => execRcDecode_keeps (.refl s) ..
  | .vcdScCommit .. => execVcdScCommit_keeps (.refl s) ..
  | .sketchPictureStart .. => execSketchPictureStart_keeps (.refl s) ..
  | .sketchRowStart .. => execSketchRowStart_keeps (.refl s) ..
  | .sketchRowDone .. => execSketchRowDone_keeps (.refl s) ..
  | .sketchNalCommit .. => execSketchNalCommit_keeps (.refl s) ..
  | .sketchRingResume .. => execSketchRingResume_keeps (.refl s) ..
  | .sketchPublish .. => execSketchPublish_keeps (.refl s) ..
  | .rasOutCommit .. => execRasOutCommit_keeps (.refl s) ..
  | .rasFrameStart .. => execRasFrameStart_keeps (.refl s) ..
  | .vrefPulse .. => execVrefPulse_keeps (.refl s) ..
  | .rasReferenceLoss .. => execRasReferenceLoss_keeps (.refl s) ..
  | .rasSelectPoint .. => execRasSelectPoint_keeps (.refl s) ..
  | .rasLineFetchDone .. => execRasLineFetchDone_keeps (.refl s) ..
  | .rasLineDue .. => execRasLineDue_keeps (.refl s) ..
  | .rasLiveLineArrive .. => execRasLiveLineArrive_keeps (.refl s) ..
  | .rasRegionPush .. => execRasRegionPush_keeps (.refl s) ..
  | .rasDcs .. => execRasDcs_keeps (.refl s) ..
  | .rasDcsReply .. => execRasDcsReply_keeps (.refl s) ..
  | .rasDcsReplyTimeout .. => execRasDcsReplyTimeout_keeps (.refl s) ..
  | .audioMasterSample .. => execAudioMasterSample_keeps (.refl s) ..
  | .audTdmFrameReceive .. => execAudTdmFrameReceive_keeps (.refl s) ..
  | .audAesFrameReceive .. => execAudAesFrameReceive_keeps (.refl s) ..
  | .audPortEnable .. => execAudPortEnable_keeps (.refl s) ..
  | .audMaskArm u v => execAudMaskArm_keeps (.refl s) u v
  | .audRecRunStart .. => execAudRecRunStart_keeps (.refl s) ..
  | .audRecRunStop .. => execAudRecRunStop_keeps (.refl s) ..
  | .audZcTimeout .. => execAudZcTimeout_keeps (.refl s) ..
  | .audMasterReferenceLoss .. => execAudMasterReferenceLoss_keeps (.refl s) ..
  | .ptpSyncReceive .. => execPtpSyncReceive_keeps (.refl s) ..
  | .ptpAnnounceReceive .. => execPtpAnnounceReceive_keeps (.refl s) ..
  | .ptpAnnounceTimeout .. => execPtpAnnounceTimeout_keeps (.refl s) ..
  | .ptpRestep .. => execPtpRestep_keeps (.refl s) ..
  | .netSend .. => execNetSend_keeps (.refl s) ..
  | .netFrameLaunch .. => execNetFrameLaunch_keeps (.refl s) ..
  | .netFrameTxDone .. => execNetFrameTxDone_keeps (.refl s) ..
  | .netTxtsRead .. => execNetTxtsRead_keeps (.refl s) ..
  | .netFrameReceive .. => execNetFrameReceive_keeps (.refl s) ..
  | .netLinkChange .. => execNetLinkChange_keeps (.refl s) ..
  | .netSenderPacket .. => execNetSenderPacket_keeps (.refl s) ..
  | .netSndCommit .. => execNetSndCommit_keeps (.refl s) ..
  | .netLtcFrameReceive .. => execNetLtcFrameReceive_keeps (.refl s) ..
  | .netLtcFreewheelExpire .. => execNetLtcFreewheelExpire_keeps (.refl s) ..
  | .pwrOnWrite .. => execPwrOnWrite_keeps (.refl s) ..
  | .pwrSwitchOpen .. => execPwrSwitchOpen_keeps (.refl s) ..
  | .resetSequenceStep .. => execResetSequenceStep_keeps (.refl s) ..
  | .powerOnReset .. => execPowerOnReset_keeps (.refl s) ..
  | .railOutOfRange .. => execRailOutOfRange_keeps (.refl s) ..
  | .resetNAssert .. => execResetNAssert_keeps (.refl s) ..
  | .resetNRelease .. => execResetNRelease_keeps (.refl s) ..
  | .diodeComparatorRead .. => execDiodeComparatorRead_keeps (.refl s) ..
  | .thermalTripRelease .. => execThermalTripRelease_keeps (.refl s) ..
  | .keeperWatchdogExpire .. => execKeeperWatchdogExpire_keeps (.refl s) ..
  | .halfResetRequest .. => execHalfResetRequest_keeps (.refl s) ..
  | .halfResetAssert .. => execHalfResetAssert_keeps (.refl s) ..
  | .halfResetRelease .. => execHalfResetRelease_keeps (.refl s) ..
  | .rstDomainWrite .. => execRstDomainWrite_keeps (.refl s) ..
  | .blockResetRequest .. => execBlockResetRequest_keeps (.refl s) ..
  | .blockIdleReport .. => execBlockIdleReport_keeps (.refl s) ..
  | .blockIdleTimeout .. => execBlockIdleTimeout_keeps (.refl s) ..
  | .blockResetRelease .. => execBlockResetRelease_keeps (.refl s) ..
  | .blockForceRelease .. => execBlockForceRelease_keeps (.refl s) ..
  | .clockGoodRise .. => execClockGoodRise_keeps (.refl s) ..
  | .clockLockLoss .. => execClockLockLoss_keeps (.refl s) ..
  | .keeperHeartbeatSend .. => execKeeperHeartbeatSend_keeps (.refl s) ..
  | .keeperHeartbeatReceive .. => execKeeperHeartbeatReceive_keeps (.refl s) ..
  | .heartbeatAbsenceTimeout .. => execHeartbeatAbsenceTimeout_keeps (.refl s) ..
  | .fenceResetRelease .. => execFenceResetRelease_keeps (.refl s) ..
  | .keeperStart .. => execKeeperStart_keeps (.refl s) ..
  | .bellConfirm .. => execBellConfirm_keeps (.refl s) ..
  | .bellHandover .. => execBellHandover_keeps (.refl s) ..
  | .thermalSample .. => execThermalSample_keeps (.refl s) ..
  | .thermalGraceExpire .. => execThermalGraceExpire_keeps (.refl s) ..
  | .thermalShedStepExpire .. => execThermalShedStepExpire_keeps (.refl s) ..
  | .thermalReleaseExpire .. => execThermalReleaseExpire_keeps (.refl s) ..
  | .shedCommandReceive .. => execShedCommandReceive_keeps (.refl s) ..
  | .agePoweredHour .. => execAgePoweredHour_keeps (.refl s) ..
  | .ageSample .. => execAgeSample_keeps (.refl s) ..
  | .agePlanRun .. => execAgePlanRun_keeps (.refl s) ..
  | .ageModeWrite .. => execAgeModeWrite_keeps (.refl s) ..
  | .ageVoltageLower .. => execAgeVoltageLower_keeps (.refl s) ..
  | .ageBoostEnd .. => execAgeBoostEnd_keeps (.refl s) ..
  | .avsVoltageReport .. => execAvsVoltageReport_keeps (.refl s) ..
  | .avsReportTimeout .. => execAvsReportTimeout_keeps (.refl s) ..
  | .frameDeadline .. => execFrameDeadline_keeps (.refl s) ..
  | .sesChallenge .. => execSesChallenge_keeps (.refl s) ..
  | .sesAnswer .. => execSesAnswer_keeps (.refl s) ..
  | .sesClose .. => execSesClose_keeps (.refl s) ..
  | .rngHealthFail .. => execRngHealthFail_keeps (.refl s) ..
  | .keySet .. => execKeySet_keeps (.refl s) ..
  | .keyErase .. => execKeyErase_keeps (.refl s) ..
  | .keyList .. => execKeyList_keeps (.refl s) ..
  | .fwStage .. => execFwStage_keeps (.refl s) ..
  | .fwActivate .. => execFwActivate_keeps (.refl s) ..
  | .fwDrainDone .. => execFwDrainDone_keeps (.refl s) ..
  | .fwDrainTimeout .. => execFwDrainTimeout_keeps (.refl s) ..
  | .fwConfirm .. => execFwConfirm_keeps (.refl s) ..
  | .ledgerRead .. => execLedgerRead_keeps (.refl s) ..
  | .boardCfgWrite .. => execBoardCfgWrite_keeps (.refl s) ..
  | .firmwareBoot .. => execFirmwareBoot_keeps (.refl s) ..
  | .deviceLedgerWrite .. => execDeviceLedgerWrite_keeps (.refl s) ..
  | .deviceLedgerReclaim .. => execDeviceLedgerReclaim_keeps (.refl s) ..
  | .railsInRange .. => execRailsInRange_keeps (.refl s) ..
  | .hbmCaAlertClear .. => execHbmCaAlertClear_keeps (.refl s) ..
  | .lanePrbsReceive .. => execLanePrbsReceive_keeps (.refl s) ..
  | .dsiSetupSent .. => execDsiSetupSent_keeps (.refl s) ..
  | .rasPushDone .. => execRasPushDone_keeps (.refl s) ..
  | .vcdScCommitCheckDone .. => execVcdScCommitCheckDone_keeps (.refl s) ..
  | .rasOutCommitCheckDone .. => execRasOutCommitCheckDone_keeps (.refl s) ..
  | .netSndFrameAlignment .. => execNetSndFrameAlignment_keeps (.refl s) ..
  | .ltcOutFrameStart .. => execLtcOutFrameStart_keeps (.refl s) ..

/-- The state a step answers, from the state with the rest of the queue. -/
theorem keeps_of_step {s t : State} {c : Instr} {rest : List Instr} (hq : s.pending = c :: rest) (h : step s = .next t) :
    { s with pending := rest }.Keeps t := by
  obtain ⟨u, hu, hk⟩ := exec_keeps { s with pending := rest } c
  rw [step, hq] at h
  cases hu.symm.trans h
  exact hk

/-- Settles O1: a step unfolds to the command at the front. -/
theorem stepTakesTheOldestCommand : Obligations.StepTakesTheOldestCommand := by
  refine ⟨fun c s rest hq => ?_, fun s hq => ?_⟩ <;> rw [step, hq]

/-- Settles O2: what every command keeps, it keeps in a next state. -/
theorem noCommandStopsThePart : Obligations.NoCommandStopsThePart := fun c s =>
  let ⟨t, ht, _⟩ := exec_keeps s c
  ⟨t, ht⟩

/-- Settles O3: the idle step leaves the state, and a command keeps the form of the state with the rest of the queue, which is the same. -/
theorem everyStepKeepsTheCanonicalForm : Obligations.EveryStepKeepsTheCanonicalForm := by
  intro s t hwf hstep
  cases hq : s.pending with
  | nil =>
    rw [step, hq] at hstep
    cases hstep
    exact hwf
  | cons c rest => exact (keeps_of_step hq hstep).wf hwf

/-- Settles O4: what a command carries on, the step carries on. -/
theorem everyCommandCarriesItsSurroundings : Obligations.EveryCommandCarriesItsSurroundings :=
  fun _ _ _ _ hq hstep => (keeps_of_step hq hstep).carries

/-- Settles O5: every store of the reset state is empty. -/
theorem resetIsCanonical : Obligations.ResetIsCanonical := ⟨rfl, rfl, rfl, rfl⟩

end Sys2Proof.Machine
end

section
/-! PROOFS. What HBM and a register field read after a write, and what every field reads after reset (spec/08, spec/20). -/
namespace Sys2Proof.Machine

set_option Elab.async false

theorem State.rd_reset (f : Fld) (i j : Nat) : State.reset.rd f i j = f.reset := by
  unfold State.rd
  split <;> rfl

/-- A byte outside the bytes stored reads as before. -/
theorem Memory.read_writeList_of_outside {m : Memory} {a x : Nat} {bs : List Byte} (h : m.wf = true) (hx : x < a ∨ a + bs.length ≤ x) :
    (m.writeList a bs).read x = m.read x := by
  induction bs generalizing m a with
  | nil => rfl
  | cons b bs ih =>
    rw [List.length_cons] at hx
    rw [Memory.writeList, ih (Memory.write_wf h a b) (by omega), Memory.read_write h, if_neg (by omega)]

theorem Memory.readList_writeList {m : Memory} (h : m.wf = true) (a : Nat) (bs : List Byte) :
    (m.writeList a bs).readList a bs.length = bs := by
  induction bs generalizing m a with
  | nil => rfl
  | cons b bs ih =>
    have hw := Memory.write_wf h a b
    have hhead : ((m.write a b).writeList (a + 1) bs).read a = b := by
      rw [Memory.read_writeList_of_outside hw (.inl (Nat.lt_succ_self a)), Memory.read_write h, if_pos rfl]
    rw [Memory.writeList, List.length_cons, Memory.readList, hhead, ih hw]

/-- Settles O6: no store of the reset state lists a field. -/
theorem everyRegisterFieldReadsItsResetValue : Obligations.EveryRegisterFieldReadsItsResetValue := State.rd_reset

/-- Settles O7, byte by byte along the bytes stored. -/
theorem hbmReadsBackWhatWasStored : Obligations.HbmReadsBackWhatWasStored := fun _ a bs h =>
  ⟨Memory.readList_writeList h a bs, Memory.writeList_wf h a bs, fun _ hx => Memory.read_writeList_of_outside h hx⟩

/-- Settles O8 by what a field reads after a write at its place and at another. -/
theorem fieldsReadBackWhatWasSet : Obligations.FieldsReadBackWhatWasSet := fun s f v i j =>
  ⟨State.rd_wr_self .., State.rd_bump_self .., fun g k l h => State.rd_wr_ne s f g v i j k l h⟩

end Sys2Proof.Machine
end

section
/-! PROOFS. Abort items and overlong packets of a stall chain (spec/02, R49, R51, R52). -/
namespace Sys2Proof.Machine

set_option Elab.async false

/-! ### An abort item that arrives -/

/-- A packet that the consumer has not started leaves the chain with its abort item (R52). -/
theorem ChainSt.arrive_of_unstarted {c : ChainSt} {x : ChainItem} (hx : x.abort = true) (hrun : 0 < c.run)
    (hpos : c.pos + c.run ≤ c.items.length + 1) :
    (c.arrive x).items = c.items.take (c.items.length + 1 - c.run) := by
  have hmax : max 1 c.run = c.run := by omega
  have hcond : c.run ≤ c.items.length + 1 ∧ c.pos ≤ c.items.length + 1 - c.run := by omega
  simp only [ChainSt.arrive, hx, hmax, List.length_append, List.length_cons, List.length_nil, Nat.zero_add, hcond, decide_true,
    Bool.and_self, if_true]
  exact List.take_append_of_le_length (by omega)

/-- A packet that the consumer has started, or part of which it has released, stays with its abort item (R51). -/
theorem ChainSt.arrive_of_started {c : ChainSt} {x : ChainItem} (h : c.items.length + 1 < c.run ∨ c.items.length + 1 - c.run < c.pos)
    (hrun : 0 < c.run) : (c.arrive x).items = c.items ++ [x] := by
  have hmax : max 1 c.run = c.run := by omega
  have hcond : ¬ (c.run ≤ c.items.length + 1 ∧ c.pos ≤ c.items.length + 1 - c.run) := by omega
  simp [ChainSt.arrive, hmax, hcond, and_assoc]

/-- The chain with an item come in and no write waiting. -/
def ChainSt.joined (c : ChainSt) (x : ChainItem) : ChainSt := { c.arrive x with waitWrite := none }

theorem ChainSt.settleWrite_of_room {k : Nat} {c : ChainSt} {x : ChainItem} (hw : c.waitWrite = some x)
    (hl : c.items.length < chainDepth k) : c.settleWrite k = c.joined x := by
  simp [ChainSt.settleWrite, ChainSt.joined, hw, hl]

@[simp] theorem ChainSt.joined_waitRead (c : ChainSt) (x : ChainItem) : (c.joined x).waitRead = c.waitRead := by
  unfold ChainSt.joined ChainSt.arrive; dsimp only; split <;> rfl

/-! ### The item as the chain carries it -/

theorem ChainSt.carried_of_abort {k : Nat} {c : ChainSt} {x : ChainItem} (h : x.abort = true) : c.carried k x = x := by
  cases x
  cases h
  exact ite_self _

theorem ChainSt.carried_of_unfinished {k : Nat} {c : ChainSt} {x : ChainItem} (hp : c.place x = chainDepth k) (hl : x.last = false) :
    c.carried k x = { x with abort := true } := by
  simp [ChainSt.carried, hp, hl]

theorem ChainSt.place_of_inPacket {c : ChainSt} {x : ChainItem} (hf : x.first = false) (hin : c.inPacket = true) :
    c.place x = c.run + 1 := by
  simp [ChainSt.place, hf, hin]

/-- The chain once a write of an item that ends its packet or goes on with it has been asked for. -/
def ChainSt.counted (c : ChainSt) (x : ChainItem) : ChainSt :=
  { c with run := c.place x, inPacket := decide (0 < c.place x) && !(x.last || x.abort) }

/-- That chain with an item waiting for a stage. -/
def ChainSt.asked (c : ChainSt) (x y : ChainItem) : ChainSt := { c.counted x with waitWrite := some y }

/-- A write within the chain's depth, on a chain with a free stage and no waiting read: the item as carried comes into the chain. -/
theorem exec_chainWrite_of_room {k : Nat} {x y : ChainItem} {s : State} (hw : (s.chain k).waitWrite = none)
    (hr : (s.chain k).waitRead = false) (hp : (s.chain k).place x ≤ chainDepth k) (hl : (s.chain k).items.length < chainDepth k)
    (hy : (s.chain k).carried k x = y) :
    exec (.chainWrite k x) s =
      .next (s.setChain k (((s.chain k).asked x y).joined y)) := by
  have hidle : (((s.chain k).asked x y).joined y).waitRead = false := by simpa [ChainSt.asked, ChainSt.counted] using hr
  rw [← ChainSt.settleRead_of_idle (k := k) hidle, ← ChainSt.settleWrite_of_room (c := (s.chain k).asked x y) rfl hl]
  change execChainWrite k x s = _
  simp only [execChainWrite, hw, Option.isSome_none, Bool.false_eq_true, if_false, Nat.not_lt.mpr hp, hy]
  rfl

theorem exec_chainWrite_of_overlong {k : Nat} {x : ChainItem} {s : State} (hw : (s.chain k).waitWrite = none)
    (hp : chainDepth k < (s.chain k).place x) : exec (.chainWrite k x) s = .next (s.setChain k ((s.chain k).counted x)) := by
  change execChainWrite k x s = _
  simp only [execChainWrite, hw, Option.isSome_none, Bool.false_eq_true, if_false, if_pos hp, ChainSt.counted]

/-- The chain with the packet freed whose abort item stands at the read position, and the mark cleared (R51). -/
def ChainSt.packetFreed (c : ChainSt) : ChainSt := { c with items := c.items.drop (c.pos + 1), pos := 0, mark := none }

theorem exec_chainAbortItem {k : Nat} {x : ChainItem} {s : State} (hx : (s.chain k).items[(s.chain k).pos]? = some x) :
    exec (.chainAbortItem k) s = if x.abort then .next (s.setChain k (((s.chain k).packetFreed.settleWrite k).settleRead k))
      else .next s := by
  change execChainAbortItem k s = _
  simp [execChainAbortItem, hx, ChainSt.packetFreed]

/-! ### The statement -/

/-- Settles O12: each clause is what the item that arrives, or the abort item reached, does to the packet. -/
theorem chainAbortReleasesThePacket : Obligations.ChainAbortReleasesThePacket := by
  intro k x s hw hr
  refine ⟨fun hx ha => ?_, fun hx ha => ?_, fun hf ha hin hrun hl hpos => ?_, fun hlast hp hl hstart => ?_, fun hf hin hrun => ?_⟩
  · rw [exec_chainAbortItem hx, if_pos ha, ChainSt.settleWrite_of_none (c := (s.chain k).packetFreed) hw,
      ChainSt.settleRead_of_idle (c := (s.chain k).packetFreed) hr]
    rfl
  · rw [exec_chainAbortItem hx, ha]
    rfl
  · have hp := ChainSt.place_of_inPacket hf hin
    refine ⟨_, exec_chainWrite_of_room hw hr (by omega) hl (ChainSt.carried_of_abort ha), ?_⟩
    simp only [State.chain_setChain_self]
    refine ⟨?_, rfl⟩
    have hrun : ((s.chain k).asked x x).run = (s.chain k).run + 1 := hp
    have hkept := ChainSt.arrive_of_unstarted (c := (s.chain k).asked x x) ha (by omega) (by rw [hrun]; exact Nat.succ_le_succ hpos)
    rwa [hrun, Nat.add_sub_add_right] at hkept
  · refine ⟨_, exec_chainWrite_of_room hw hr (by omega) hl (ChainSt.carried_of_unfinished hp hlast), ?_⟩
    simp only [State.chain_setChain_self]
    have hd : 0 < chainDepth k := Nat.succ_pos _
    have hrun : ((s.chain k).asked x { x with abort := true }).run = chainDepth k := hp
    refine ChainSt.arrive_of_started (c := (s.chain k).asked x { x with abort := true }) ?_ (by omega)
    rw [hrun]
    exact hstart.imp id fun h => Nat.lt_of_le_of_lt (Nat.le_of_eq (Nat.sub_eq_zero_of_le hl)) h
  · have hp := ChainSt.place_of_inPacket hf hin
    refine ⟨_, exec_chainWrite_of_overlong hw (by omega), ?_⟩
    simp only [State.chain_setChain_self]
    exact ⟨rfl, hw⟩

end Sys2Proof.Machine
end

section
/-! PROOFS. Rules of the register operations for fields at different places of the register map, and what an event or a record leaves. -/
namespace Sys2Proof.Machine

set_option Elab.async false

/-! ### Lists read with a default -/

theorem getD_of_lt {α : Type} {l : List α} {n : Nat} {d : α} (h : n < l.length) : l.getD n d = l[n] := by
  rw [List.getD_eq_getElem?_getD, List.getElem?_eq_getElem h, Option.getD_some]

theorem getD_of_ge {α : Type} {l : List α} {n : Nat} {d : α} (h : l.length ≤ n) : l.getD n d = d := by
  rw [List.getD_eq_getElem?_getD, List.getElem?_eq_none h, Option.getD_none]

theorem getD_map_of {α β : Type} {l : List α} {n : Nat} {d : α} (f : α → β) : (l.map f).getD n (f d) = f (l.getD n d) := by
  rw [List.getD_eq_getElem?_getD, List.getD_eq_getElem?_getD, List.getElem?_map, Option.getD_map]

/-! ### Fields at different places -/

theorem State.rd_wr_other (s : State) (f g : Fld) (v i j k l : Nat) (h : ¬ (g.base = f.base ∧ g.lo = f.lo)) :
    (s.wr f v i j).rd g k l = s.rd g k l :=
  s.rd_wr_ne f g v i j k l fun e => h ⟨e.1, e.2.1⟩

theorem State.rd_wr_inst (s : State) (f g : Fld) (v i j k l : Nat) (h : k ≠ i ∨ l ≠ j) : (s.wr f v i j).rd g k l = s.rd g k l :=
  s.rd_wr_ne f g v i j k l fun e => h.elim (fun n => n e.2.2.1) fun n => n e.2.2.2

theorem State.rd_bump_other (s : State) (f g : Fld) (n i j k l : Nat) (h : ¬ (g.base = f.base ∧ g.lo = f.lo)) :
    (s.bump f i j n).rd g k l = s.rd g k l :=
  s.rd_wr_other f g _ i j k l h

theorem State.rd_flagCount_other (s : State) (a b g : Fld) (i k l : Nat)
    (h : ¬ (g.base = a.base ∧ g.lo = a.lo) ∧ ¬ (g.base = b.base ∧ g.lo = b.lo)) : (s.flagCount a b i).rd g k l = s.rd g k l := by
  rw [State.flagCount, State.rd_bump_other _ _ _ _ _ _ _ _ h.2, State.rd_wr_other _ _ _ _ _ _ _ _ h.1]

/-- A field that is none of an event's reads as before once an event is raised. -/
theorem State.rd_raise_other (s : State) (half code : Nat) (p : List Byte) (g : Fld) (i j : Nat)
    (h : ∀ x ∈ eventFields, ¬ (g.base = x.1.base ∧ g.lo = x.1.lo)) : (s.raise half code p).rd g i j = s.rd g i j := by
  simp only [eventFields, List.forall_mem_cons] at h
  obtain ⟨h1, h2, h3, -⟩ := h
  exact s.raise_rd half code p g i j (fun e => h1 ⟨e.1, e.2.1⟩) (fun e => h2 ⟨e.1, e.2.1⟩) fun e => h3 ⟨e.1, e.2.1⟩

/-! ### What an event leaves

A part of the state that no field setting, no reading of the clock and no change of commands or records touches. -/

/-- The ring engine beside its commands, its records and the count of records that its queues have not told of. -/
def HostSt.beside (h : HostSt) : HostSt := { h with cmds := [], records := [], lost := 0, queues := [] }

/-- A part of the state that the register stores, the clock and the commands and records do not reach. -/
structure State.Apart {α : Type} (π : State → α) : Prop where
  wr : ∀ (s : State) (f : Fld) (v i j : Nat), π (s.wr f v i j) = π s
  tick : ∀ s : State, π s.tick = π s
  host : ∀ (s : State) (f : HostSt → HostSt), (∀ h, (f h).beside = h.beside) → π (s.updHost f) = π s

theorem State.Apart.dropRecord {α : Type} {π : State → α} (h : State.Apart π) (s : State) : π s.dropRecord = π s := by
  unfold State.dropRecord State.bump
  rw [h.host, h.wr, h.wr]
  exact fun _ => rfl

theorem State.Apart.raise {α : Type} {π : State → α} (h : State.Apart π) (s : State) (half code : Nat) (p : List Byte) :
    π (s.raise half code p) = π s := by
  obtain ⟨r, -, e⟩ := s.raise_eq half code p
  rw [e]
  split
  · rw [h.dropRecord, h.tick, h.wr]
  · rw [h.host, h.tick, h.wr]
    exact fun _ => rfl

theorem State.Apart.post {α : Type} {π : State → α} (h : State.Apart π) (s : State) (r : Rec) : π (s.post r) = π s := by
  obtain ⟨t, r', ht, -, -, e⟩ := s.post_eq r
  have hts : π t = π s := by
    rcases ht with rfl | rfl
    · rfl
    · exact h.tick s
  rw [e]
  split
  · rw [h.dropRecord, hts]
  · rw [h.host, hts]
    exact fun _ => rfl

theorem State.Apart.dropCmd {α : Type} {π : State → α} (h : State.Apart π) (s : State) (id : Nat) : π (s.dropCmd id) = π s := by
  unfold State.dropCmd State.countOutstanding State.peak
  rw [h.wr, h.wr, h.host]
  exact fun _ => rfl

theorem State.Apart.complete {α : Type} {π : State → α} (h : State.Apart π) (s : State) (id status a b half : Nat) :
    π (s.complete id status a b half) = π s := by
  unfold State.complete
  split
  · rfl
  · split
    · rfl
    · split
      · split
        · exact h.host _ _ fun _ => rfl
        · exact h.dropCmd ..
      · rw [h.post]
        exact h.host _ _ fun _ => rfl

theorem State.Apart.link : State.Apart State.link := ⟨State.wr_link, fun _ => rfl, fun _ _ _ => rfl⟩
theorem State.Apart.easels : State.Apart State.easels := ⟨State.wr_easels, fun _ => rfl, fun _ _ _ => rfl⟩
theorem State.Apart.mem : State.Apart State.mem := ⟨State.wr_mem, fun _ => rfl, fun _ _ _ => rfl⟩
theorem State.Apart.out : State.Apart State.out := ⟨State.wr_out, fun _ => rfl, fun _ _ _ => rfl⟩
theorem State.Apart.hbm : State.Apart State.hbm := ⟨State.wr_hbm, fun _ => rfl, fun _ _ _ => rfl⟩
theorem State.Apart.cond : State.Apart State.cond := ⟨State.wr_cond, fun _ => rfl, fun _ _ _ => rfl⟩
theorem State.Apart.views : State.Apart State.views := ⟨State.wr_views, fun _ => rfl, fun _ _ _ => rfl⟩
theorem State.Apart.stor : State.Apart State.stor := ⟨State.wr_stor, fun _ => rfl, fun _ _ _ => rfl⟩
theorem State.Apart.sys : State.Apart State.sys := ⟨State.wr_sys, fun _ => rfl, fun _ _ _ => rfl⟩

@[simp] theorem State.raise_mem (s : State) (half code : Nat) (p : List Byte) : (s.raise half code p).mem = s.mem := State.Apart.mem.raise ..
@[simp] theorem State.raise_out (s : State) (half code : Nat) (p : List Byte) : (s.raise half code p).out = s.out := State.Apart.out.raise ..
@[simp] theorem State.raise_link (s : State) (half code : Nat) (p : List Byte) : (s.raise half code p).link = s.link := State.Apart.link.raise ..
@[simp] theorem State.raise_easels (s : State) (half code : Nat) (p : List Byte) : (s.raise half code p).easels = s.easels :=
  State.Apart.easels.raise ..

/-- Outside quiet the event raised is the newest record, as Raised says. -/
theorem State.raised_raise (s : State) (half code : Nat) (p : List Byte) : s.Raised (s.raise half code p) half code p :=
  fun h => s.raise_awake half code p h

@[simp] theorem State.bump_link (s : State) (f : Fld) (i j n : Nat) : (s.bump f i j n).link = s.link := State.wr_link ..
@[simp] theorem State.bump_easels (s : State) (f : Fld) (i j n : Nat) : (s.bump f i j n).easels = s.easels := State.wr_easels ..
@[simp] theorem State.flagCount_link (s : State) (a b : Fld) (i : Nat) : (s.flagCount a b i).link = s.link := by simp [State.flagCount]
@[simp] theorem State.flagCount_easels (s : State) (a b : Fld) (i : Nat) : (s.flagCount a b i).easels = s.easels := by simp [State.flagCount]

/-! ### A change under a condition -/

@[simp] theorem State.whenB_true (s : State) (f : State → State) : s.whenB true f = f s := rfl
@[simp] theorem State.whenB_false (s : State) (f : State → State) : s.whenB false f = s := rfl

theorem State.Only.whenB {s t : State} {l : List (Fld × Nat)} {b : Bool} {f : State → State} (h : s.Only t l) (hf : s.Only (f t) l) :
    s.Only (t.whenB b f) l := by
  cases b
  · exact h
  · exact hf

theorem State.Only.ite {s t u : State} {l : List (Fld × Nat)} {c : Prop} [Decidable c] (ht : s.Only t l) (hu : s.Only u l) :
    s.Only (if c then t else u) l := by
  split
  · exact ht
  · exact hu

theorem State.Only.each {α : Type} {s : State} {l : List (Fld × Nat)} {f : State → α → State}
    (hf : ∀ t x, s.Only t l → s.Only (f t x) l) {t : State} (h : s.Only t l) (xs : List α) : s.Only (t.each xs f) l := by
  induction xs generalizing t with
  | nil => exact h
  | cons x xs ih => exact ih (hf t x h)

end Sys2Proof.Machine
end

section
/-! PROOFS. Rules of the link's state operations (spec/03): a group, a lane, the deskew state and the intake after each of them. -/
namespace Sys2Proof.Machine

set_option Elab.async false

/-! ### Groups, lanes and easels -/

theorem updAt_getD_of_kept {α β : Type} (π : α → β) (l : List α) (n m : Nat) (f : α → α) (d : α) (h : ∀ x, π (f x) = π x) :
    π ((updAt l n f).getD m d) = π (l.getD m d) := by
  by_cases hm : m = n
  · subst hm
    by_cases hl : m < l.length
    · rw [updAt_getD_self l m f d hl, h]
    · simp [List.getD_eq_getElem?_getD, hl]
  · rw [updAt_getD_ne l n m f d hm]

@[simp] theorem State.updGroup_rd (s : State) (g : Nat) (f : GroupSt → GroupSt) (a : Fld) (i j : Nat) :
    (s.updGroup g f).rd a i j = s.rd a i j := rfl
@[simp] theorem State.updGroup_mem (s : State) (g : Nat) (f : GroupSt → GroupSt) : (s.updGroup g f).mem = s.mem := rfl
@[simp] theorem State.updGroup_out (s : State) (g : Nat) (f : GroupSt → GroupSt) : (s.updGroup g f).out = s.out := rfl
@[simp] theorem State.updGroup_easels (s : State) (g : Nat) (f : GroupSt → GroupSt) : (s.updGroup g f).easels = s.easels := rfl
@[simp] theorem State.updGroup_cond (s : State) (g : Nat) (f : GroupSt → GroupSt) : (s.updGroup g f).cond = s.cond := rfl
@[simp] theorem State.updGroup_host (s : State) (g : Nat) (f : GroupSt → GroupSt) : (s.updGroup g f).host = s.host := rfl
@[simp] theorem State.updGroup_intake (s : State) (g : Nat) (f : GroupSt → GroupSt) : (s.updGroup g f).link.intake = s.link.intake := rfl
@[simp] theorem State.updGroup_groups_length (s : State) (g : Nat) (f : GroupSt → GroupSt) :
    (s.updGroup g f).link.groups.length = s.link.groups.length := updAt_length ..

@[simp] theorem State.updLane_rd (s : State) (g m : Nat) (f : LaneSt → LaneSt) (a : Fld) (i j : Nat) :
    (s.updLane g m f).rd a i j = s.rd a i j := rfl
@[simp] theorem State.updLane_mem (s : State) (g m : Nat) (f : LaneSt → LaneSt) : (s.updLane g m f).mem = s.mem := rfl
@[simp] theorem State.updLane_easels (s : State) (g m : Nat) (f : LaneSt → LaneSt) : (s.updLane g m f).easels = s.easels := rfl
@[simp] theorem State.updLane_intake (s : State) (g m : Nat) (f : LaneSt → LaneSt) : (s.updLane g m f).link.intake = s.link.intake := rfl
@[simp] theorem State.updLane_rowNow (s : State) (g m : Nat) (f : LaneSt → LaneSt) : (s.updLane g m f).link.rowNow = s.link.rowNow := rfl
@[simp] theorem State.updLane_groups_length (s : State) (g m : Nat) (f : LaneSt → LaneSt) :
    (s.updLane g m f).link.groups.length = s.link.groups.length := updAt_length ..

theorem State.group_updGroup_self {s : State} {g : Nat} (f : GroupSt → GroupSt) (h : g < s.link.groups.length) :
    (s.updGroup g f).group g = f (s.group g) := updAt_getD_self _ _ _ _ h

theorem State.group_updGroup_of_kept {β : Type} (π : GroupSt → β) (s : State) (g k : Nat) (f : GroupSt → GroupSt) (h : ∀ x, π (f x) = π x) :
    π ((s.updGroup g f).group k) = π (s.group k) := updAt_getD_of_kept π _ _ _ _ _ h

theorem State.lane_updGroup_of_kept (s : State) (g k m : Nat) (f : GroupSt → GroupSt) (h : ∀ x, (f x).lanes = x.lanes) :
    (s.updGroup g f).lane k m = s.lane k m :=
  congrArg (fun l : List LaneSt => l.getD m LaneSt.init) (State.group_updGroup_of_kept GroupSt.lanes s g k f h)

theorem State.lane_updLane_self {s : State} {g m : Nat} (f : LaneSt → LaneSt) (hg : g < s.link.groups.length)
    (hm : m < (s.group g).lanes.length) : (s.updLane g m f).lane g m = f (s.lane g m) := by
  unfold State.lane State.updLane
  rw [State.group_updGroup_self _ hg]
  exact updAt_getD_self _ _ _ _ hm

@[simp] theorem State.updLane_lanes_length (s : State) (g m k : Nat) (f : LaneSt → LaneSt) :
    ((s.updLane g m f).group k).lanes.length = (s.group k).lanes.length :=
  State.group_updGroup_of_kept (fun x => x.lanes.length) s g k _ fun _ => updAt_length ..

/-- A state with the same link keeps its groups and lanes. -/
theorem State.group_congr {s t : State} (h : t.link = s.link) (g : Nat) : t.group g = s.group g := by
  unfold State.group
  rw [h]

theorem State.lane_congr {s t : State} (h : t.link = s.link) (g m : Nat) : t.lane g m = s.lane g m := by
  unfold State.lane
  rw [State.group_congr h]

@[simp] theorem State.group_wr (s : State) (f : Fld) (v i j g : Nat) : (s.wr f v i j).group g = s.group g :=
  State.group_congr (State.wr_link ..) g
@[simp] theorem State.lane_wr (s : State) (f : Fld) (v i j g m : Nat) : (s.wr f v i j).lane g m = s.lane g m :=
  State.lane_congr (State.wr_link ..) g m
@[simp] theorem State.group_bump (s : State) (f : Fld) (i j n g : Nat) : (s.bump f i j n).group g = s.group g :=
  State.group_congr (State.bump_link ..) g
@[simp] theorem State.lane_bump (s : State) (f : Fld) (i j n g m : Nat) : (s.bump f i j n).lane g m = s.lane g m :=
  State.lane_congr (State.bump_link ..) g m
@[simp] theorem State.lane_updEasel (s : State) (e : Nat) (f : EaselSt → EaselSt) (g m : Nat) : (s.updEasel e f).lane g m = s.lane g m := rfl
@[simp] theorem State.group_flagCount (s : State) (a b : Fld) (i g : Nat) : (s.flagCount a b i).group g = s.group g :=
  State.group_congr (State.flagCount_link ..) g

/-! ### The deskew state and the intake -/

@[simp] theorem State.setDeskew_rd (s : State) (g h : Nat) (d : Deskew) (a : Fld) (i j : Nat) : (s.setDeskew g h d).rd a i j = s.rd a i j := rfl
@[simp] theorem State.setDeskew_mem (s : State) (g h : Nat) (d : Deskew) : (s.setDeskew g h d).mem = s.mem := rfl
@[simp] theorem State.restartDeskew_rd (s : State) (g : Nat) (d : Deskew) (a : Fld) (i j : Nat) :
    (s.restartDeskew g d).rd a i j = s.rd a i j := rfl
@[simp] theorem State.restartDeskew_lane (s : State) (g k m : Nat) (d : Deskew) : (s.restartDeskew g d).lane k m = s.lane k m := rfl
@[simp] theorem State.restartDeskew_intake (s : State) (g : Nat) (d : Deskew) : (s.restartDeskew g d).link.intake = s.link.intake := rfl


end Sys2Proof.Machine
end

section
/-! PROOFS. A group that leaves UP in the middle of a row stripe (spec/03, R106, R110): the easel's row-check count moves, which the frames
given for LANE_LOCK_LOSS and for SLEEP do not list. -/
namespace Sys2Proof.Machine

set_option Elab.async false

/-- An open frame that still takes rows. -/
def openFrame : Frame :=
  { serial := 0, st := .opened, fault := 0, seen := [], seenOb := [], badRows := [], bad := 0, checks := [], ended := false, onShort := false,
    onError := false, maxBad := 0, width := 64, height := 64, obRows := 0, obCols := 0, fmt := 0, cfa := 0, stamp := 0, freeRun := false,
    ticket := 0, taken := false, slot := none, tc := 0, inTake := false, deadline := false }

/-- Group 0 alone in the set of easel 0, in UP and with every lane locked, while a row stripe of an open frame is in progress; lane 0 has
seen 32 invalid headers. -/
def stripeInProgress : State :=
  ((((State.reset.wr F.BRL_GRP_CFG_member 1).wr F.BRL_GRP_STATUS_state 6).wr F.BRL_GRP_STATUS_lane_lock 4095).updEasel 0 fun x =>
    { x with frames := [openFrame], stripe := true }).updLane 0 0 fun l => { l with invalids := List.replicate 32 0 }

/-- A command that counts a failed row check leaves no frame in which that count is not listed. -/
theorem not_only_of_rd_ne {s t : State} {l : List (Fld × Nat)} {f : Fld} {i : Nat}
    (hl : ∀ x ∈ l, ¬ (x.1.base = f.base ∧ x.1.lo = f.lo ∧ x.2 = i)) (h : t.rd f i ≠ s.rd f i) : ¬ s.Only t l :=
  fun ho => h (ho.2 f i 0 hl)

/-- Refutes O13: with a row stripe in progress the lock loss of a lane of a group in UP also counts a failed row check of the easel
(R106, R110), a field outside the frame given. -/
theorem not_laneBlockLock : ¬ Obligations.LaneBlockLock := by
  intro h
  obtain ⟨-, -, -, -, -, hloss⟩ := h 0 0 { header := 0, payload := 0 } stripeInProgress (by decide) (by decide) (by decide) (by decide) (by decide)
  obtain ⟨t, ht, -, -, -, honly⟩ := hloss (by decide) (by decide)
  obtain rfl : _ = t := Host.Outcome.next.inj ht
  exact not_only_of_rd_ne (f := F.BRL_EASEL_ERR_row_chk_err) (i := 0) (by decide) (by decide +kernel) honly

/-- Refutes O14: a group that sleeps out of UP with a row stripe in progress counts a failed row check of the easel (R106, R110), a field
outside the frame given. -/
theorem not_linkGroupStates : ¬ Obligations.LinkGroupStates := by
  intro h
  obtain ⟨-, -, -, -, -, -, hsleep, -⟩ := h.1 0 stripeInProgress
  obtain ⟨t, ht, -, honly⟩ := hsleep (by decide)
  obtain rfl : _ = t := Host.Outcome.next.inj ht
  exact not_only_of_rd_ne (f := F.BRL_EASEL_ERR_row_chk_err) (i := 0) (by decide) (by decide +kernel) honly

end Sys2Proof.Machine
end

section
/-! PROOFS. A group's configuration and its back-channel (spec/03). -/
namespace Sys2Proof.Machine

set_option Elab.async false

/-! ### Numbers cut out of words and bytes -/

theorem bitsOf_lt (v hi lo : Nat) : bitsOf v hi lo < 2 ^ (hi + 1 - lo) := Nat.mod_lt _ (Nat.two_pow_pos _)

theorem ofLe_lt (bs : List Byte) : ofLe bs < 256 ^ bs.length := by
  induction bs with
  | nil => simp [ofLe]
  | cons b bs ih =>
    have := b.isLt
    simp only [ofLe, List.length_cons, Nat.pow_succ]
    omega

theorem fieldAt_lt (bs : List Byte) (a k : Nat) : fieldAt bs a k < 256 ^ k := by
  have h := ofLe_lt (bytesAt bs a k)
  rwa [bytesAt, List.length_map, List.length_range] at h

/-! ### The group's configuration -/

/-- The fields of BRL_GRP_CFG set from a word. -/
def State.grpCfgSet (s : State) (g v : Nat) : State :=
  ((((s.wr F.BRL_GRP_CFG_rate (bitsOf v 14 8) g).wr F.BRL_GRP_CFG_easel (bitsOf v 5 4) g).wr F.BRL_GRP_CFG_member (bitsOf v 3 3) g).wr
    F.BRL_GRP_CFG_mode (bitsOf v 2 2) g).wr F.BRL_GRP_CFG_enable (v % 2) g

theorem State.rd_grpCfgSet (s : State) (g v : Nat) (h : bitsOf v 14 8 < 128) :
    (s.grpCfgSet g v).rd F.BRL_GRP_CFG_rate g = bitsOf v 14 8 ∧ (s.grpCfgSet g v).rd F.BRL_GRP_CFG_easel g = bitsOf v 5 4
      ∧ (s.grpCfgSet g v).rd F.BRL_GRP_CFG_member g = bitsOf v 3 3 ∧ (s.grpCfgSet g v).rd F.BRL_GRP_CFG_mode g = bitsOf v 2 2
      ∧ (s.grpCfgSet g v).rd F.BRL_GRP_CFG_enable g = v % 2 := by
  have cut : ∀ {a : Nat} {f : Fld}, a < 2 ^ f.width → a % 2 ^ f.width = a := Nat.mod_eq_of_lt
  refine ⟨?_, ?_, ?_, ?_, ?_⟩ <;> simp (disch := decide) only [State.grpCfgSet, State.rd_wr_other, State.rd_wr_self]
  · exact cut h
  · exact cut (bitsOf_lt v 5 4)
  · exact cut (bitsOf_lt v 3 3)
  · exact cut (bitsOf_lt v 2 2)
  · exact cut (Nat.mod_lt v Nat.two_pos)

theorem State.rd_grpCfgSet_other (s : State) (g v : Nat) (f : Fld) (i j : Nat) (h : f.base ≠ F.BRL_GRP_CFG_rate.base) :
    (s.grpCfgSet g v).rd f i j = s.rd f i j := by
  have hw : ∀ (t : State) (k : Fld) (x : Nat), k.base = F.BRL_GRP_CFG_rate.base → (t.wr k x g).rd f i j = t.rd f i j :=
    fun t k x hk => State.rd_wr_base t k f x g 0 i j (hk ▸ h)
  rw [State.grpCfgSet, hw _ F.BRL_GRP_CFG_enable _ rfl, hw _ F.BRL_GRP_CFG_mode _ rfl, hw _ F.BRL_GRP_CFG_member _ rfl,
    hw _ F.BRL_GRP_CFG_easel _ rfl, hw _ F.BRL_GRP_CFG_rate _ rfl]

/-- The rate fits the mode (R94). -/
def rateFits (v : Nat) : Prop := 8 ≤ bitsOf v 14 8 ∧ bitsOf v 14 8 ≤ (if bitsOf v 2 2 = 1 then 32 else 64)

theorem rateFits.le {v : Nat} (h : rateFits v) : bitsOf v 14 8 ≤ 64 := by
  obtain ⟨-, h⟩ := h
  split at h <;> omega

theorem rateFits.accepted {v : Nat} (h : rateFits v) :
    (decide (bitsOf v 14 8 < 8) || decide (64 < bitsOf v 14 8) || (bitsOf v 2 2 == 1 && decide (32 < bitsOf v 14 8))) = false := by
  have h64 := h.le
  obtain ⟨h8, h⟩ := h
  simp only [Bool.or_eq_false_iff, Bool.and_eq_false_iff, decide_eq_false_iff_not, beq_eq_false_iff_ne]
  refine ⟨⟨by omega, by omega⟩, ?_⟩
  split at h
  · exact Or.inr (by omega)
  · exact Or.inl ‹_›

/-- The write needs no closed easel, or finds both closed (R94). -/
def State.CfgFree (s : State) (g v : Nat) : Prop :=
  s.rd F.EASEL_STATUS_state (bitsOf v 5 4) = 0 ∧ s.rd F.EASEL_STATUS_state (s.rd F.BRL_GRP_CFG_easel g) = 0
    ∨ bitsOf v 14 8 = s.rd F.BRL_GRP_CFG_rate g ∧ bitsOf v 5 4 = s.rd F.BRL_GRP_CFG_easel g ∧ bitsOf v 3 3 = s.rd F.BRL_GRP_CFG_member g
      ∧ bitsOf v 2 2 = s.rd F.BRL_GRP_CFG_mode g

theorem exec_brlGrpCfgWrite_of_accepted {g v : Nat} {s : State} (hv : rateFits v) (hs : s.CfgFree g v) :
    exec (.brlGrpCfgWrite g v) s = .next (if v % 2 = 1 then (s.grpCfgSet g v).groupStart g else (s.grpCfgSet g v).groupDown g) := by
  have hbusy : ((bitsOf v 14 8 != s.rd F.BRL_GRP_CFG_rate g || bitsOf v 5 4 != s.rd F.BRL_GRP_CFG_easel g
      || bitsOf v 3 3 != s.rd F.BRL_GRP_CFG_member g || bitsOf v 2 2 != s.rd F.BRL_GRP_CFG_mode g)
      && (s.rd F.EASEL_STATUS_state (bitsOf v 5 4) != 0 || s.rd F.EASEL_STATUS_state (s.rd F.BRL_GRP_CFG_easel g) != 0)) = false := by
    rcases hs with ⟨h1, h2⟩ | ⟨h1, h2, h3, h4⟩
    · simp [h1, h2]
    · simp [h1, h2, h3, h4]
  change execBrlGrpCfgWrite g v s = _
  simp only [execBrlGrpCfgWrite, hv.accepted, hbusy, Bool.or_false, Bool.false_eq_true, if_false]
  rfl

theorem exec_brlGrpCfgWrite_of_badRate {g v : Nat} {s : State}
    (h : bitsOf v 14 8 < 8 ∨ 64 < bitsOf v 14 8 ∨ (bitsOf v 2 2 = 1 ∧ 32 < bitsOf v 14 8)) :
    exec (.brlGrpCfgWrite g v) s = .next (s.wr F.BRL_GRP_FLAGS_cfg_refused 1 g) := by
  have hbad : (decide (bitsOf v 14 8 < 8) || decide (64 < bitsOf v 14 8) || (bitsOf v 2 2 == 1 && decide (32 < bitsOf v 14 8))) = true := by
    simpa [or_assoc] using h
  change execBrlGrpCfgWrite g v s = _
  simp only [execBrlGrpCfgWrite, hbad, Bool.true_or, if_true]

/-- A group that is OFF, enabled and released enters BC (R122). -/
theorem State.groupStart_of_off {s : State} {g : Nat} (he : s.rd F.BRL_GRP_CFG_enable g = 1) (hr : s.released (2 + g / 2) = true)
    (h0 : s.grpState g = 0) :
    s.groupStart g = (s.setGrp g 1).wr F.BRL_GRP_STATUS_bc_awake (b2n (!s.on F.BRL_GRP_CTRL_bc_sleep g)) g := by
  simp [State.groupStart, State.on, he, hr, h0]

/-- Settles O15: the accepted write is one equation, the refused write another. -/
theorem linkGroupConfiguration : Obligations.LinkGroupConfiguration := by
  refine ⟨fun g v s => ⟨fun h8 hmax hnew hold hen hrel hoff => ?_, fun hbad => ?_⟩, fun g v s h8 hmax hs => ?_⟩
  · have hv : rateFits v := ⟨h8, hmax⟩
    obtain ⟨hrate, heasel, hmember, hmode, henable⟩ := s.rd_grpCfgSet g v (Nat.lt_of_le_of_lt hv.le (by decide))
    have hst : (s.grpCfgSet g v).groupStart g = _ := State.groupStart_of_off (henable.trans hen)
      (by rw [State.released, State.rd_grpCfgSet_other _ _ _ _ _ _ (by decide)]; exact hrel)
      (by rw [State.grpState, State.rd_grpCfgSet_other _ _ _ _ _ _ (by decide)]; exact hoff)
    refine ⟨_, exec_brlGrpCfgWrite_of_accepted hv (Or.inl ⟨hnew, hold⟩), ?_⟩
    rw [if_pos hen, hst]
    simp (disch := decide) only [State.setGrp, State.grpState, State.rd_wr_other, State.rd_wr_self, hrate, heasel, hmember, hmode, henable, hen]
    decide
  · exact ⟨_, exec_brlGrpCfgWrite_of_badRate hbad, State.rd_wr_self .., (State.Only.refl s _).wr _ _ _ _ (by simp)⟩
  · exact exec_brlGrpCfgWrite_of_accepted ⟨h8, hmax⟩ hs

/-! ### Commands on the back-channel -/

theorem State.only_bcAwake (s : State) (g : Nat) : s.Only (s.bcAwake g) [(F.BRL_GRP_STATUS_bc_awake, g)] := by
  unfold State.bcAwake
  split
  · exact State.Only.refl s _
  · exact ((State.Only.refl s _).wr F.BRL_GRP_STATUS_bc_awake 1 g 0 (by simp)).same

theorem State.out_bcAwake (s : State) (g : Nat) :
    (s.bcAwake g).out = if s.on F.BRL_GRP_STATUS_bc_awake g then s.out else .commas g 64 :: s.out := by
  unfold State.bcAwake
  split <;> simp

theorem State.rd_bcAwake_other (s : State) (g : Nat) (f : Fld) (i j : Nat)
    (h : ¬ (f.base = F.BRL_GRP_STATUS_bc_awake.base ∧ f.lo = F.BRL_GRP_STATUS_bc_awake.lo)) : (s.bcAwake g).rd f i j = s.rd f i j := by
  unfold State.bcAwake
  split
  · rfl
  · exact State.rd_wr_other _ _ _ _ _ _ _ _ h

/-- The back-channel is awake after it was woken. -/
theorem State.rd_bcAwake_self (s : State) (g : Nat) : (s.bcAwake g).rd F.BRL_GRP_STATUS_bc_awake g = 1 := by
  unfold State.bcAwake
  split
  next h => exact eq_of_beq h
  next => exact State.rd_wr_self s F.BRL_GRP_STATUS_bc_awake 1 g 0

/-- The state in which BC_CMD_GO has set its fields. -/
def State.bcCmdSet (s : State) (g v : Nat) : State :=
  ((s.wr F.BRL_BC_CMD_code (bitsOf v 26 24) g).wr F.BRL_BC_CMD_tag (bitsOf v 23 16) g).wr F.BRL_BC_CMD_address (bitsOf v 15 0) g

/-- The command in flight, with busy set. -/
def State.bcInFlight (s : State) (g v : Nat) : State :=
  ((s.bcCmdSet g v).wr F.BRL_BC_STATUS_busy 1 g).updGroup g fun x =>
    { x with flight := some { tag := bitsOf v 23 16, code := bitsOf v 26 24, ticket := none }, lastTag := bitsOf v 23 16 }

theorem exec_bcCmdGo_of_free {g v : Nat} {s : State} (hf : (s.group g).flight = none) : exec (.bcCmdGo g v) s = .next (
    if bitsOf v 26 24 ≠ 1 ∧ bitsOf v 26 24 ≠ 2 then (s.bcCmdSet g v).wr F.BRL_BC_STATUS_result 6 g
    else if s.grpState g ≠ 6 then (s.bcCmdSet g v).wr F.BRL_BC_STATUS_result 4 g
    else (s.bcInFlight g v).bcSend g (if bitsOf v 26 24 = 1 then 1 else 2) (bitsOf v 23 16) (bitsOf v 15 0) (s.rd F.BRL_BC_DATA_data g)) := by
  change execBcCmdGo g v s = _
  simp only [execBcCmdGo, hf, Option.isSome_none, Bool.false_eq_true, if_false, ← apply_ite Host.Outcome.next]
  rfl

theorem State.only_bcInFlight (s : State) (g v : Nat) (l : List (Fld × Nat)) (h : ∀ f ∈ [F.BRL_BC_CMD_code, F.BRL_BC_CMD_tag,
    F.BRL_BC_CMD_address, F.BRL_BC_STATUS_busy], (f, g) ∈ l) : s.Only (s.bcInFlight g v) l := by
  have hw := (((State.Only.refl s l).wr F.BRL_BC_CMD_code (bitsOf v 26 24) g 0 (h _ (by simp))).wr F.BRL_BC_CMD_tag (bitsOf v 23 16) g 0
    (h _ (by simp))).wr F.BRL_BC_CMD_address (bitsOf v 15 0) g 0 (h _ (by simp))
  exact (hw.wr F.BRL_BC_STATUS_busy 1 g 0 (h _ (by simp))).same

theorem State.bcOwn_of_awake {s : State} {g : Nat} (h : s.on F.BRL_GRP_STATUS_bc_awake g = true) (code addr data : Nat) :
    s.bcOwn g code addr data = (s.updGroup g fun x => { x with lastTag := ((s.group g).lastTag + 1) % 256 }).emit
      (.backChannel g (bcSymbols code (((s.group g).lastTag + 1) % 256) addr data)) := by
  have h' : (s.updGroup g fun x => { x with lastTag := ((s.group g).lastTag + 1) % 256 }).on F.BRL_GRP_STATUS_bc_awake g = true := h
  simp only [State.bcOwn, State.bcSend, State.bcAwake, h', if_true]

/-- With no ticket bound on the easel a group's back-channel takes nothing up. -/
theorem State.ticketSend_of_none {s : State} {e : Nat} (h : (s.easel e).bound = []) : s.ticketSend e = s := by
  simp [State.ticketSend, State.ticketsToSend, h]

/-- A host command in flight, with no ticket waiting, ends with its result, and with its data when it has any (R114, R116). -/
theorem State.bcEnd_of_host {s : State} {g result : Nat} {data : Option Nat} {late : Bool} {x : BcFlight} (hf : (s.group g).flight = some x)
    (ht : x.ticket = none) (hb : (s.easel (s.rd F.BRL_GRP_CFG_easel g)).bound = []) :
    s.bcEnd g result data late =
      let t := ((s.updGroup g fun x => { x with flight := none }).wr F.BRL_BC_STATUS_busy 0 g).wr F.BRL_BC_STATUS_result result g
      match data with | some d => t.wr F.BRL_BC_DATA_data d g | none => t := by
  simp only [State.bcEnd, hf, ht]
  refine State.ticketSend_of_none ?_
  cases data <;> simpa [State.easel] using hb

theorem exec_bcRegReply_of_good {g : Nat} {payload : List Byte} {late : Bool} {s : State} {x : BcFlight} (hf : (s.group g).flight = some x)
    (hc : crc8Good payload = true) (ht : fieldAt payload 1 1 = x.tag) (hz : fieldAt payload 6 1 = 0) :
    exec (.bcRegReply g payload late) s = .next (s.bcEnd g 0 (some (fieldAt payload 2 4)) late) := by
  change execBcRegReply g payload late s = _
  simp [execBcRegReply, hf, hc, ht, hz]

theorem exec_brlBcSleep (g : Nat) (s : State) : exec (.brlBcSleep g) s = .next (if s.on F.BRL_GRP_STATUS_bc_awake g then
    ((s.wr F.BRL_GRP_CTRL_bc_sleep 1 g).bcOwn g 4 0 0).wr F.BRL_GRP_STATUS_bc_awake 0 g else s.wr F.BRL_GRP_CTRL_bc_sleep 1 g) :=
  (apply_ite Host.Outcome.next _ _ _).symm

/-- Settles O16: command by command; a go with a free back-channel is one equation in its code and the group's state. -/
theorem backChannelCommands : Obligations.BackChannelCommands := by
  refine ⟨fun g v s => ⟨fun hf hc h6 => ?_, fun hf h1 h2 => ?_, fun hf hc h6 => ?_, fun x payload late hf hx hcrc htag hz hb => ?_,
    fun x hf hx hb => ?_, fun hon => ?_, fun h0 => ?_⟩, fun g s => ⟨fun hon => ?_, fun hoff => ?_⟩⟩
  · have hgo : ¬ (bitsOf v 26 24 ≠ 1 ∧ bitsOf v 26 24 ≠ 2) := fun h => hc.elim h.1 h.2
    have hcode : (if bitsOf v 26 24 = 1 then 1 else 2) = bitsOf v 26 24 := by split <;> omega
    refine ⟨_, exec_bcCmdGo_of_free hf, ?_⟩
    rw [if_neg hgo, if_neg (not_not_intro h6), hcode]
    have hon : (s.bcInFlight g v).on F.BRL_GRP_STATUS_bc_awake g = s.on F.BRL_GRP_STATUS_bc_awake g := by
      simp (disch := decide) only [State.on, State.bcInFlight, State.bcCmdSet, State.updGroup_rd, State.rd_wr_other]
    have hout : (s.bcInFlight g v).out = s.out := by simp [State.bcInFlight, State.bcCmdSet]
    refine ⟨?_, ?_, ?_⟩
    · exact (State.rd_bcAwake_other _ _ _ _ _ (by decide)).trans (State.rd_wr_self _ F.BRL_BC_STATUS_busy 1 g 0)
    · rw [State.bcSend, State.emit_out, State.out_bcAwake, hon, hout]
    · exact ((s.only_bcInFlight g v _ (by simp)).trans ((State.only_bcAwake _ g).mono (by simp))).same
  · exact ⟨_, exec_bcCmdGo_of_free hf, by rw [if_pos ⟨h1, h2⟩]; exact State.rd_wr_self _ F.BRL_BC_STATUS_result 6 g 0,
      by rw [if_pos ⟨h1, h2⟩]; simp [State.bcCmdSet]⟩
  · refine ⟨_, exec_bcCmdGo_of_free hf, ?_⟩
    rw [if_neg fun h => hc.elim h.1 h.2, if_pos h6]
    exact ⟨State.rd_wr_self _ F.BRL_BC_STATUS_result 4 g 0, by simp [State.bcCmdSet]⟩
  · refine ⟨_, exec_bcRegReply_of_good hf hcrc htag hz, ?_⟩
    rw [State.bcEnd_of_host hf hx hb]
    simp (disch := decide) only [State.rd_wr_other, State.rd_wr_self, Nat.zero_mod, true_and]
    exact ⟨Nat.mod_eq_of_lt (fieldAt_lt payload 2 4), (((State.Only.same (State.Only.refl s _)).wr _ _ _ _ (by simp)).wr _ _ _ _ (by simp)).wr
      _ _ _ _ (by simp)⟩
  · refine ⟨_, rfl, ?_⟩
    rw [State.bcEnd_of_host hf hx hb]
    simp (disch := decide) only [State.rd_wr_other, State.rd_wr_self]
    exact ⟨by decide, by decide, ((State.Only.same (State.Only.refl s _)).wr _ _ _ _ (by simp)).wr _ _ _ _ (by simp)⟩
  · have hon' : (s.wr F.BRL_GRP_CTRL_bc_sleep 1 g).on F.BRL_GRP_STATUS_bc_awake g = true := by
      rwa [State.on, State.rd_wr_other _ _ _ _ _ _ _ _ (by decide)]
    refine ⟨_, exec_brlBcSleep g s, ?_⟩
    rw [if_pos hon, State.bcOwn_of_awake hon']
    refine ⟨?_, State.rd_wr_self .., ?_⟩
    · rw [State.rd_wr_other _ _ _ _ _ _ _ _ (by decide)]
      exact State.rd_wr_self s F.BRL_GRP_CTRL_bc_sleep 1 g 0
    · simp
  · refine ⟨_, rfl, ?_⟩
    rw [if_neg h0]
    refine ⟨(State.rd_bcAwake_other _ _ _ _ _ (by decide)).trans (State.rd_wr_self _ F.BRL_GRP_CTRL_bc_sleep 0 g 0), State.rd_bcAwake_self ..,
      ?_, ((State.Only.refl s _).wr _ _ _ _ (by simp)).trans ((State.only_bcAwake _ g).mono (by simp))⟩
    rw [State.out_bcAwake, State.wr_out, State.on, State.rd_wr_other _ _ _ _ _ _ _ _ (by decide)]
    rfl
  · rw [exec_brlBcSleep, if_pos hon]
  · rw [exec_brlBcSleep, hoff]
    rfl

end Sys2Proof.Machine
end

section
/-! PROOFS. Deskew, runs that come over the bridge, and the test patterns (spec/03). -/
namespace Sys2Proof.Machine

set_option Elab.async false

/-! ### A block that reaches a half -/

/-- The set of an easel delivers the rows that group g brings: it is a member, the set is UP, and the group has not slept (R118, R123). -/
structure State.Delivers (s : State) (g : Nat) : Prop where
  member : s.on F.BRL_GRP_CFG_member g = true
  up : s.setUp (s.rd F.BRL_GRP_CFG_easel g) = true
  awake : s.slept (s.rd F.BRL_GRP_CFG_easel g) g = false

/-- A half's intake chains with one more block, counted for the easel that sent it (R74). -/
def State.intakeTaken (s : State) (h e : Nat) : State :=
  ({ s with link := { s.link with intake := updAt s.link.intake h (· + 1) } }).updEasel e fun y => { y with onWay := updAt y.onWay h (· + 1) }

theorem State.linkDeliver_of_home {s : State} {h g m : Nat} {place : BlockPlace} {x : BufBlock} (hd : s.Delivers g)
    (hx : takesRoom x.header x.bytes = true) (hh : (place.row.map fun r => homeHalf r.1 r.2) = some h)
    (hr : s.link.intake.getD h 0 < intakeBlocks) :
    s.linkDeliver h g m place x = (s.toBuffer h g m x).intakeTaken h (s.rd F.BRL_GRP_CFG_easel g) := by
  have hr' : (s.toBuffer h g m x).link.intake.getD h 0 < intakeBlocks := hr
  simp only [State.linkDeliver, hx, hd.member, hd.up, hd.awake, Bool.not_false, Bool.and_self, State.whenB_true, if_pos hh,
    State.intakeBlock, if_pos hr']
  rfl

theorem State.linkDeliver_of_orphan {s : State} {h g m : Nat} {place : BlockPlace} {x : BufBlock} (hd : s.Delivers g)
    (hx : takesRoom x.header x.bytes = true) (hh : (place.row.map fun r => homeHalf r.1 r.2) ≠ some h) :
    s.linkDeliver h g m place x = (s.toBuffer h g m x).bump F.BRL_EASEL_ORPHAN_orphan (s.rd F.BRL_GRP_CFG_easel g) := by
  simp only [State.linkDeliver, hx, hd.member, hd.up, hd.awake, Bool.not_false, Bool.and_self, State.whenB_true, if_neg hh]

/-- The deskew buffer with a block put in front. -/
theorem LaneSt.head_bufs {l : LaneSt} {h : Nat} (x : BufBlock) (hh : h < l.bufs.length) :
    ((updAt l.bufs h fun b => (x :: b).take 8).getD h []).head? = some x := by
  rw [updAt_getD_self _ _ _ _ hh]
  rfl

theorem takesRoom_of_data (p : List Byte) : takesRoom 1 p = true := rfl

/-! ### A run taken off the bridge -/

/-- The block of a run of one data block, as it is read on the other half (R103). -/
def FwdRun.only (r : FwdRun) (b : LinkBlock) : BufBlock :=
  { marker := r.marker, index := r.index, header := 1, bytes := payloadBytes (descramble r.hist b.payload).1 }

theorem FwdRun.read_of_data {r : FwdRun} {b : LinkBlock} {home : BlockPlace} (hr : r.blocks = [(b, home)]) (hb : b.header = 1) :
    FwdRun.read r.hist r.marker r.index r.blocks = [(home, r.only b)] := by
  simp [hr, FwdRun.read, hb, FwdRun.only]

/-- The lane without its oldest run. -/
def State.runTaken (s : State) (g m : Nat) (rest : List FwdRun) : State :=
  s.updLane g m fun l => { l with fwd := rest, running := l.running && !rest.isEmpty }

theorem exec_forwardedRunReceive_of_one {h g m n : Nat} {s : State} {r : FwdRun} {rest : List FwdRun} {b : LinkBlock} {home : BlockPlace}
    (hf : (s.lane g m).fwd = r :: rest) (hr : r.blocks = [(b, home)]) (hn : 0 < n) (hh : h + groupHalf g = 1) (hb : b.header = 1) :
    exec (.forwardedRunReceive h g m n) s = .next ((s.runTaken g m rest).linkDeliver h g m home (r.only b)) := by
  have hlen : ¬ n < r.blocks.length := by simp [hr]; omega
  have htake : r.blocks.take n = r.blocks := List.take_of_length_le (Nat.le_of_not_lt hlen)
  change execForwardedRunReceive h g m n s = _
  simp only [execForwardedRunReceive, hf, hh, ne_eq, not_true, if_false, if_neg hlen, htake, FwdRun.read_of_data hr hb]
  rfl

/-! ### Markers -/

/-- Every lane of the set locked: a cycle in which each reads the same marker count is full and agrees. -/
theorem State.lockedReads_replicate {s : State} {g : Nat} (c : Nat) (hl : ∀ k ∈ s.setOf g, s.rd F.BRL_GRP_STATUS_lane_lock k = 4095) :
    (s.lockedReads g (List.replicate (s.setLanes g) (some c))).length = s.setLanes g
      ∧ (s.lockedReads g (List.replicate (s.setLanes g) (some c))).all (· == some c) = true := by
  have hbit : ∀ k < 12, bitOf 4095 k = true := by decide
  refine ⟨by simp [State.lockedReads, withIndex], ?_⟩
  simp only [State.lockedReads, withIndex, List.all_map, List.all_eq_true, Function.comp_apply, beq_iff_eq]
  intro x hx
  obtain ⟨hi, hc⟩ := List.of_mem_zip hx
  have hlt : x.1 / 12 < (s.setOf g).length := by
    simp only [List.length_replicate, State.setLanes, List.mem_range] at hi
    omega
  have hmem : (s.setOf g).getD (x.1 / 12) g ∈ s.setOf g := by
    simp [List.getD_eq_getElem?_getD, hlt]
  rw [hl _ hmem, hbit _ (Nat.mod_lt _ (by decide)), if_pos rfl, List.eq_of_mem_replicate hc]

/-! ### Test patterns -/

theorem exec_lanePrbsReceive {g m : Nat} {bits : List Bool} {s : State} (h : s.grpState g = 8) : exec (.lanePrbsReceive g m bits) s = .next (
    let run := bits.foldl (prbsBit (s.on F.BRL_GRP_CTRL_test_pattern g)) (s.lane g m, 0)
    let total := (s.group g).bits + (bits.length - ((if s.on F.BRL_GRP_CTRL_test_pattern g then 15 else 31) - (s.lane g m).prbsSeen))
    (((s.updLane g m fun _ => run.1).bump F.BRL_LANE_ERR_prbs g m run.2).updGroup g fun x => { x with bits := total % 1024 }).bump
      F.BRL_GRP_BITS_bits_k g 0 (total / 1024)) :=
  if_pos h

theorem exec_alignReceive_of_missing {h g m at' count : Nat} {payload : List Byte} {s : State} {got : List (Nat × Nat × Nat)}
    (hst : s.grpState g = 5 ∨ s.grpState g = 6) (hm : s.markerIn h g m payload = some count)
    (hd : s.deskewOf (s.setHead g) h = .collect got) (hlt : (got.filter fun x => x.1 ≠ s.lanePos g m).length + 1 < s.setLanes g) :
    exec (.alignReceive h g m payload at') s = .next (s.setDeskew (s.setHead g) h
      (.collect ((s.lanePos g m, count, at') :: got.filter fun x => x.1 ≠ s.lanePos g m))) := by
  have hst' : ¬ (s.grpState g ≠ 5 ∧ s.grpState g ≠ 6) := fun h => hst.elim h.1 h.2
  change execAlignReceive h g m payload at' s = _
  simp only [execAlignReceive, hm, if_neg hst', hd, List.length_cons, if_pos hlt]

/-- Settles O17: the marker cycles by the deskew state, a run of one block by the half that homes it, and the checker as one equation. -/
theorem deskewAndTestPatterns : Obligations.DeskewAndTestPatterns := by
  refine ⟨fun h g m s => ⟨fun payload count at' got hst hm hd hlt => exec_alignReceive_of_missing hst hm hd hlt, fun reads count ok hd => ?_,
    fun count misses hd hl => ?_, fun r rest b home n hf hr hn hh hb hmem hup hsl hg hm => ?_, fun bits hst hseen => ?_⟩,
    fun g m bits s hst => exec_lanePrbsReceive hst⟩
  · change execDeskewMarkerCycle h g reads s = _
    simp only [execDeskewMarkerCycle, hd, if_true]
  · obtain ⟨hlen, hall⟩ := State.lockedReads_replicate ((count + 1) % 16777216) hl
    change execDeskewMarkerCycle h g _ s = _
    simp only [execDeskewMarkerCycle, hd, hlen, hall, beq_self_eq_true, Bool.and_self, if_true]
  · have hdel : (s.runTaken g m rest).Delivers g := ⟨hmem, hup, hsl⟩
    have hl : (s.runTaken g m rest).lane g m = { s.lane g m with fwd := rest, running := (s.lane g m).running && !rest.isEmpty } :=
      State.lane_updLane_self _ hg hm
    have hg' : g < (s.runTaken g m rest).link.groups.length := by simpa [State.runTaken] using hg
    have hm' : m < ((s.runTaken g m rest).group g).lanes.length := by simpa [State.runTaken] using hm
    have hbuf : ((s.runTaken g m rest).toBuffer h g m (r.only b)).lane g m
        = { (s.runTaken g m rest).lane g m with bufs := updAt ((s.runTaken g m rest).lane g m).bufs h fun y => (r.only b :: y).take 8 } :=
      State.lane_updLane_self _ hg' hm'
    have hh2 : h < 2 := by omega
    refine ⟨fun hhome hil hroom hbl => ⟨_, exec_forwardedRunReceive_of_one hf hr hn hh hb, ?_⟩,
      fun hhome => ⟨_, exec_forwardedRunReceive_of_one hf hr hn hh hb, ?_⟩⟩
    · rw [State.linkDeliver_of_home hdel (takesRoom_of_data _) hhome hroom]
      refine ⟨?_, updAt_getD_self _ _ _ _ (by rw [← hil] at hh2; exact hh2), ?_, (State.Only.refl s _).same⟩
      · change (((s.runTaken g m rest).toBuffer h g m (r.only b)).lane g m).fwd = rest
        rw [hbuf, hl]
      · change ((((s.runTaken g m rest).toBuffer h g m (r.only b)).lane g m).bufs.getD h []).head? = _
        rw [hbuf, hl]
        exact LaneSt.head_bufs (r.only b) (hbl.symm ▸ hh2)
    · rw [State.linkDeliver_of_orphan hdel (takesRoom_of_data _) hhome]
      refine ⟨?_, ?_, State.rd_bump_self .., ?_⟩
      · rw [State.lane_bump, hbuf, hl]
      · rw [State.bump_link]
        rfl
      · exact (State.Only.same (State.Only.refl s _)).bump _ _ _ _ (List.mem_singleton.mpr rfl)
  · have hfill : (if s.on F.BRL_GRP_CTRL_test_pattern g then 15 else 31) - (s.lane g m).prbsSeen = 0 := by split <;> omega
    refine ⟨_, exec_lanePrbsReceive hst, ?_⟩
    simp only [hfill, Nat.sub_zero]
    rw [State.rd_bump_self, State.updGroup_rd, State.rd_bump_other _ _ _ _ _ _ _ _ (by decide), State.updLane_rd]

end Sys2Proof.Machine
end

section
/-! PROOFS. An easel's open, admission, close and abort (spec/04). -/
namespace Sys2Proof.Machine

set_option Elab.async false

/-! ### What the opening of an easel leaves of the registers -/

/-- A reading that every turn of a loop leaves. -/
theorem State.each_of_kept {α β : Type} (π : State → β) {f : State → α → State} (hf : ∀ t x, π (f t x) = π t) (s : State) (l : List α) :
    π (s.each l f) = π s := by
  induction l generalizing s with
  | nil => rfl
  | cons x l ih => exact (ih (f s x)).trans (hf s x)

theorem State.rd_setRuns (s : State) (k e : Nat) (f : List CalRun → List CalRun) (a : Fld) (i j : Nat) :
    (s.setRuns k e f).rd a i j = s.rd a i j := by
  unfold State.setRuns
  split <;> rfl

theorem State.rd_calDue (s : State) (e k : Nat) (a : Fld) (i j : Nat) : (s.calDue e k).rd a i j = s.rd a i j := by
  unfold State.calDue
  split
  · rfl
  · split
    · exact State.rd_setRuns ..
    · exact State.rd_setRuns ..

theorem State.rd_condOpen (s : State) (e : Nat) (a : Fld) (i j : Nat) : (s.condOpen e).rd a i j = s.rd a i j :=
  State.each_of_kept (fun t => t.rd a i j) (fun t k => t.rd_calDue e k a i j) _ _

theorem State.rd_canvasOpen_other (s : State) (e : Nat) (a : Fld) (i j : Nat)
    (h : ∀ x ∈ [(F.HBM_CANVAS_STATUS_slots, 0), (F.HBM_CANVAS_SLOT_slot_4k, 0), (F.HBM_CANVAS_STATUS_free, 0)] ++ eventFields,
      ¬ (a.base = x.1.base ∧ a.lo = x.1.lo)) : (s.canvasOpen e).rd a i j = s.rd a i j := by
  simp only [List.forall_mem_append, List.forall_mem_cons] at h
  obtain ⟨⟨h1, h2, h3, -⟩, h4⟩ := h
  unfold State.canvasOpen
  extract_lets cols n0 size r0 r1 n c s1
  have hs : s1.rd a i j = s.rd a i j := by
    unfold s1
    rw [State.canvasCount, State.rd_wr_other _ _ _ _ _ _ _ _ h3, State.rd_wr_other _ _ _ _ _ _ _ _ h2, State.rd_wr_other _ _ _ _ _ _ _ _ h1]
    rfl
  clear_value n
  split
  · rw [State.rd_raise_other _ _ _ _ _ _ _ h4, hs]
  · exact hs

theorem State.quiet_of_rd {s t : State} (h : ∀ f ∈ [F.AUTH_STATUS_quiet_w, F.AUTH_STATUS_quiet_e], t.rd f = s.rd f) (half : Nat) :
    t.quiet half = s.quiet half := by
  simp only [List.forall_mem_cons] at h
  obtain ⟨h1, h2, -⟩ := h
  unfold State.quiet State.on
  rw [h1, h2]

/-! ### The admission -/

theorem exec_easelAdmissionCheck_of_asked {e : Nat} {s : State} (h3 : s.rd F.EASEL_STATUS_state e = 3) (hp : s.planPending = false)
    (ha : s.sys.asked = none) : exec (.easelAdmissionCheck e) s = .next (s.admission e (s.rd F.AGE_PLAN_plan_code)) := by
  change execEaselAdmissionCheck e s = _
  simp [execEaselAdmissionCheck, h3, hp, ha]

/-- An opening easel with its plan and request codes published. -/
def State.codesShown (s : State) (e plan : Nat) : State :=
  (s.wr F.EASEL_ADMIT_plan_code plan e).wr F.EASEL_ADMIT_req_code (s.reqCode (s.openEasels ++ [e])) e

theorem State.admission_of_passed {s : State} {e plan : Nat} (h3 : s.rd F.EASEL_STATUS_state e = 3)
    (hc : s.admitCause e plan (s.reqCode (s.openEasels ++ [e])) = 0) : s.admission e plan =
      (((((s.codesShown e plan).wr F.EASEL_STATUS_state 1 e).updEasel e fun x => { x with accepted := 0, discard := true, slow := false, history := [] }).condOpen
        e).canvasOpen e) := by
  simp only [State.admission, h3, hc, ne_eq, not_true, if_false, if_true]
  rfl

/-- A refused easel, before the event. -/
def State.refused (s : State) (e plan cause : Nat) : State :=
  ((((s.codesShown e plan).wr F.EASEL_STATUS_state 0 e).wr F.EASEL_CTRL_open 0 e).wr F.EASEL_STATUS_refuse_cause cause e).wr
    F.EASEL_FLAGS_admit_refused 1 e

theorem State.admission_of_refused {s : State} {e plan cause : Nat} (h3 : s.rd F.EASEL_STATUS_state e = 3)
    (hc : s.admitCause e plan (s.reqCode (s.openEasels ++ [e])) = cause) (h0 : cause ≠ 0) : s.admission e plan =
      (s.refused e plan cause).raise 0 Ev.EASEL_ADMIT_FAIL (le 1 e ++ le 1 cause) := by
  simp only [State.admission, h3, hc, h0, ne_eq, not_true, if_false]
  rfl

theorem State.admitCause_le (s : State) (e plan req : Nat) : s.admitCause e plan req ≤ 6 := by
  unfold State.admitCause
  dsimp only
  repeat' split
  all_goals omega

theorem exec_easelAbort_of_running {e : Nat} {s : State} (h0 : s.rd F.EASEL_STATUS_state e ≠ 0) (h3 : s.rd F.EASEL_STATUS_state e ≠ 3) :
    exec (.easelAbort e) s = .next (
      let wet := ((s.easel e).frames.filter Frame.unsettled).map Frame.serial
      let t := ((s.scrapeAll e).each wet fun s k => s.scrapedOut e k).endTake e St.EASEL_CLOSED 1 keepNone
      if t.rd F.EASEL_STATUS_state e = 0 then t else t.easelClosed e) := by
  change execEaselAbort e s = _
  simp only [execEaselAbort, if_neg h0, if_neg h3]

theorem State.easel_updEasel_self {s : State} {e : Nat} (f : EaselSt → EaselSt) (h : e < s.easels.length) :
    (s.updEasel e f).easel e = f (s.easel e) := updAt_getD_self _ _ _ _ h

theorem State.easel_updEasel_of_kept {β : Type} (π : EaselSt → β) (s : State) (e k : Nat) (f : EaselSt → EaselSt) (h : ∀ x, π (f x) = π x) :
    π ((s.updEasel e f).easel k) = π (s.easel k) := updAt_getD_of_kept π _ _ _ _ _ h

theorem State.easel_congr {s t : State} (h : t.easels = s.easels) (e : Nat) : t.easel e = s.easel e := by
  unfold State.easel
  rw [h]

@[simp] theorem State.easel_wr (s : State) (f : Fld) (v i j e : Nat) : (s.wr f v i j).easel e = s.easel e :=
  State.easel_congr (State.wr_easels ..) e

theorem State.dropPending_of_none {s : State} {e : Nat} (h : (s.easel e).pending = []) :
    s.dropPending e = s.updEasel e fun x => { x with pending := [] } := by
  rw [State.dropPending, h]
  rfl

theorem State.closeIfDone_of_wet {s : State} {e : Nat} (h : s.anyUnsettled e = true) : s.closeIfDone e = s := by
  simp [State.closeIfDone, h]

/-- An open easel with unsettled frames and no ticket waiting is closing. -/
theorem exec_easelClose_of_wet {e : Nat} {s : State} (h1 : s.rd F.EASEL_STATUS_state e = 1) (ht : s.takeOpen e = false)
    (hp : (s.easel e).pending = []) (hw : s.anyUnsettled e = true) :
    exec (.easelClose e) s = .next (((s.wr F.EASEL_CTRL_open 0 e).wr F.EASEL_STATUS_state 2 e).updEasel e fun x => { x with pending := [] }) := by
  have hw' : ((((s.wr F.EASEL_CTRL_open 0 e).wr F.EASEL_STATUS_state 2 e).updEasel e fun x => { x with pending := [] }).anyUnsettled e) = true := by
    rw [State.anyUnsettled, State.easel_updEasel_of_kept EaselSt.frames _ e e (fun x => { x with pending := [] }) fun _ => rfl]
    simpa [State.anyUnsettled] using hw
  rw [← State.closeIfDone_of_wet hw', ← State.dropPending_of_none (by simpa using hp)]
  change execEaselClose e s = _
  simp [execEaselClose, h1, ht]

/-- The open in progress is cancelled, by a close or by an abort. -/
def State.openCancelled (s : State) (e : Nat) : State := (s.wr F.EASEL_CTRL_open 0 e).wr F.EASEL_STATUS_state 0 e

theorem State.openCancelled_spec (s : State) (e : Nat) : (s.openCancelled e).rd F.EASEL_CTRL_open e = 0
    ∧ (s.openCancelled e).rd F.EASEL_STATUS_state e = 0 ∧ s.Only (s.openCancelled e) [(F.EASEL_CTRL_open, e), (F.EASEL_STATUS_state, e)] := by
  refine ⟨?_, State.rd_wr_self .., ((State.Only.refl s _).wr _ _ _ _ (by simp)).wr _ _ _ _ (by simp)⟩
  rw [State.openCancelled, State.rd_wr_other _ _ _ _ _ _ _ _ (by decide)]
  exact State.rd_wr_self s F.EASEL_CTRL_open 0 e 0

/-- Settles O18: the admission by its cause, the close and the abort by the easel's state. -/
theorem easelOpensAndCloses : Obligations.EaselOpensAndCloses := by
  refine ⟨fun e s => ⟨fun h0 => ?_, fun h2 => ?_, fun h3 hp ha hc => ?_, fun cause h3 hp ha h0 hc => ?_, fun h3 => ?_, fun h1 ht => ?_,
    fun h1 ht hpend hw he => ?_, fun h3 => ?_, fun h0 h3 => exec_easelAbort_of_running h0 h3⟩,
    fun e s h3 hp ha => exec_easelAdmissionCheck_of_asked h3 hp ha⟩
  · refine ⟨_, if_pos h0, ?_, State.rd_wr_self .., ?_⟩
    · rw [State.rd_wr_other _ _ _ _ _ _ _ _ (by decide)]
      exact State.rd_wr_self s F.EASEL_CTRL_open 1 e 0
    · exact ((State.Only.refl s _).wr _ _ _ _ (by simp)).wr _ _ _ _ (by simp)
  · refine ⟨_, ?_, State.rd_wr_self s F.EASEL_FLAGS_cfg_refused 1 e 0, (State.Only.refl s _).wr _ _ _ _ (by simp)⟩
    change execEaselOpen e s = _
    simp only [execEaselOpen, h2]
    rfl
  · refine ⟨_, exec_easelAdmissionCheck_of_asked h3 hp ha, ?_⟩
    rw [State.admission_of_passed h3 hc]
    simp (disch := decide) only [State.rd_canvasOpen_other, State.rd_condOpen, State.updEasel_rd, State.codesShown, State.rd_wr_other,
      State.rd_wr_self]
    exact ⟨rfl, trivial, trivial⟩
  · have hle : cause ≤ 6 := hc ▸ s.admitCause_le ..
    have hcut : cause % 2 ^ F.EASEL_STATUS_refuse_cause.width = cause := Nat.mod_eq_of_lt (Nat.lt_of_le_of_lt hle (by decide))
    refine ⟨_, exec_easelAdmissionCheck_of_asked h3 hp ha, ?_⟩
    rw [State.admission_of_refused h3 hc h0]
    have hq : (s.refused e (s.rd F.AGE_PLAN_plan_code) cause).quiet 0 = s.quiet 0 := State.quiet_of_rd (by
      simp (disch := decide) [State.refused, State.codesShown, State.rd_wr_other]) 0
    have hr : (s.refused e (s.rd F.AGE_PLAN_plan_code) cause).host = s.host := by simp [State.refused, State.codesShown]
    refine ⟨?_, ?_, ?_, ?_, fun hs => ?_⟩
    · simp (disch := decide) [State.rd_raise_other, State.refused, State.rd_wr_other]
    · simp (disch := decide) [State.rd_raise_other, State.refused, State.rd_wr_other]
    · simp (disch := decide) only [State.rd_raise_other, State.refused, State.rd_wr_other, State.rd_wr_self, hcut]
    · rw [State.rd_raise_other _ _ _ _ _ _ _ (by decide)]
      exact State.rd_wr_self _ F.EASEL_FLAGS_admit_refused 1 e 0
    · rw [← hr]
      exact State.raise_awake _ 0 _ _ (hq.trans hs)
  · refine ⟨s.openCancelled e, ?_, s.openCancelled_spec e⟩
    change execEaselClose e s = _
    simp only [execEaselClose, h3]
    rfl
  · refine ⟨_, ?_, State.rd_wr_self s F.EASEL_FLAGS_cfg_refused 1 e 0, (State.Only.refl s _).wr _ _ _ _ (by simp)⟩
    change execEaselClose e s = _
    simp only [execEaselClose, h1, ht]
    rfl
  · refine ⟨_, exec_easelClose_of_wet h1 ht hpend hw, ?_, State.rd_wr_self _ F.EASEL_STATUS_state 2 e 0,
      (((State.Only.refl s _).wr F.EASEL_CTRL_open 0 e 0 (by simp)).wr F.EASEL_STATUS_state 2 e 0 (by simp)).same⟩
    rw [State.updEasel_rd, State.rd_wr_other _ _ _ _ _ _ _ _ (by decide)]
    exact State.rd_wr_self s F.EASEL_CTRL_open 0 e 0
  · refine ⟨s.openCancelled e, ?_, s.openCancelled_spec e⟩
    change execEaselAbort e s = _
    simp only [execEaselAbort, h3]
    rfl

end Sys2Proof.Machine
end

section
/-! PROOFS. Frame-starts, row stripes, row reports and frame-ends (spec/03, spec/04). -/
namespace Sys2Proof.Machine

set_option Elab.async false

/-! ### Frame-starts -/

theorem State.head_up {s : State} {e : Nat} (h : s.setUp e = true) : s.grpState ((s.easelGroups e).headD 0) = 6 := by
  simp only [State.setUp, Bool.and_eq_true, Bool.not_eq_true', List.isEmpty_eq_false_iff, List.all_eq_true, beq_iff_eq] at h
  obtain ⟨hne, hall⟩ := h
  obtain ⟨g, l, hl⟩ := List.exists_cons_of_ne_nil hne
  rw [hl] at hall ⊢
  exact hall g List.mem_cons_self

/-- On a set that is UP with its lanes in service the blocks of the lowest group reach the part (R97, R124). -/
theorem State.onLowest_of_up {s : State} {e : Nat} (h : s.setUp e = true) (ho : s.lanesOut e = false) (p : Option (List Byte)) :
    s.onLowest e p = p := if_pos ⟨State.head_up h, ho⟩

theorem State.easelGroups_ne_nil_of_up {s : State} {e : Nat} (h : s.setUp e = true) : s.easelGroups e ≠ [] := by
  intro hn
  simp [State.setUp, hn] at h

theorem exec_frameStartReceive {e : Nat} {fs0 fs1 fs2 : Option (List Byte)} {s : State} (ho : s.lanesOut e = false) (hg : s.easelGroups e ≠ []) :
    exec (.frameStartReceive e fs0 fs1 fs2) s = .next (s.frameStart e (s.onLowest e fs0) (s.onLowest e fs1) (s.onLowest e fs2)) := by
  change execFrameStartReceive e fs0 fs1 fs2 s = _
  simp [execFrameStartReceive, ho, hg]

theorem exec_frameStartReceive_of_up {e : Nat} {fs0 fs1 fs2 : Option (List Byte)} {s : State} (h : s.setUp e = true) (ho : s.lanesOut e = false) :
    exec (.frameStartReceive e fs0 fs1 fs2) s = .next (s.frameStart e fs0 fs1 fs2) := by
  rw [exec_frameStartReceive ho (State.easelGroups_ne_nil_of_up h), State.onLowest_of_up h ho, State.onLowest_of_up h ho,
    State.onLowest_of_up h ho]

/-- Rows up to the next frame-start are discarded. -/
def State.discarding (s : State) (e : Nat) : State := s.updEasel e fun x => { x with discard := true }

theorem State.frameStart_of_bad {s : State} {e : Nat} {fs0 fs1 fs2 : Option (List Byte)} (h1 : s.rd F.EASEL_STATUS_state e = 1)
    (hb : s.fsBad e fs0 fs1 fs2 = true) : s.frameStart e fs0 fs1 fs2 = (s.bump F.BRL_EASEL_ERR_fs_err e).discarding e := by
  simp [State.frameStart, h1, hb, State.discarding]

theorem State.frameStart_of_geometry {s : State} {e : Nat} {fs0 fs1 fs2 : Option (List Byte)} (h1 : s.rd F.EASEL_STATUS_state e = 1)
    (hb : s.fsBad e fs0 fs1 fs2 = false) (hg : s.fsGeometry e fs1 fs2 = true) : s.frameStart e fs0 fs1 fs2 =
      ((s.bump F.BRL_EASEL_ERR_geom_err e).discarding e).raise (groupHalf ((s.easelGroups e).headD 0)) Ev.BRL_GEOMETRY
        (le 1 ((s.easelGroups e).headD 0) ++ le 1 e ++ le 2 (blockField fs2 1 2) ++ le 2 (blockField fs2 3 2)) := by
  simp [State.frameStart, h1, hb, hg, State.discarding]

/-- Settles O19: the frame-start's outcome by the easel's state and the two checks. -/
theorem frameStarts : Obligations.FrameStarts := by
  refine ⟨fun e fs0 fs1 fs2 s hup ho => ⟨fun h1 hb hg => ?_, fun h1 hb => ?_, fun h1 hb hg => ?_, fun h03 => ?_⟩,
    fun e fs0 fs1 fs2 s ho hg => exec_frameStartReceive ho hg⟩
  · rw [exec_frameStartReceive_of_up hup ho]
    simp [State.frameStart, h1, hb, hg]
  · refine ⟨_, exec_frameStartReceive_of_up hup ho, ?_⟩
    rw [State.frameStart_of_bad h1 hb]
    exact ⟨State.rd_bump_self s F.BRL_EASEL_ERR_fs_err e 0 1, ((State.Only.refl s _).bump F.BRL_EASEL_ERR_fs_err e 0 1 (by simp)).same⟩
  · refine ⟨_, exec_frameStartReceive_of_up hup ho, ?_⟩
    rw [State.frameStart_of_geometry h1 hb hg]
    have ho' : s.Only ((s.bump F.BRL_EASEL_ERR_geom_err e).discarding e) ((F.BRL_EASEL_ERR_geom_err, e) :: eventFields) :=
      ((State.Only.refl s _).bump F.BRL_EASEL_ERR_geom_err e 0 1 List.mem_cons_self).same
    exact ⟨(State.rd_raise_other _ _ _ _ _ _ _ (by decide)).trans (State.rd_bump_self s F.BRL_EASEL_ERR_geom_err e 0 1),
      ho'.raise _ _ _ fun x hx => List.mem_cons_of_mem _ hx⟩
  · refine ⟨_, exec_frameStartReceive_of_up hup ho, ?_⟩
    simp only [State.frameStart, if_pos h03]
    exact ⟨State.rd_bump_self .., (State.Only.refl s _).bump _ _ _ _ (by simp)⟩

/-! ### Frames of an easel -/

/-- A change of the frames with one serial leaves the frame with another. -/
theorem State.frame_updFrame_ne (s : State) (e : Nat) {k serial : Nat} (f : Frame → Frame) (hk : k ≠ serial) (hf : ∀ x, (f x).serial = x.serial) :
    (s.updFrame e k f).frame e serial = s.frame e serial := by
  have hl : ∀ l : List Frame, (l.map fun y => if y.serial = k then f y else y).find? (fun y => y.serial == serial) = l.find? fun y => y.serial == serial := by
    intro l
    induction l with
    | nil => rfl
    | cons y l ih =>
      have hy : ((if y.serial = k then f y else y).serial == serial) = (y.serial == serial) := by split <;> simp [hf]
      rw [List.map_cons, List.find?_cons, List.find?_cons, hy, ih]
      by_cases hys : y.serial = serial
      · rw [if_neg fun h => hk (h.symm.trans hys)]
      · rw [beq_eq_false_iff_ne.mpr hys]
  exact updAt_getD_of_kept (fun x : EaselSt => x.frames.find? fun y => y.serial == serial) s.easels e e
    (fun x => { x with frames := x.frames.map fun y => if y.serial = k then f y else y }) _ fun x => hl x.frames

/-- The frame that stands with its serial in an easel, once it has been replaced. -/
theorem State.frame_updFrame_self {s : State} {e serial : Nat} {f g : Frame} (he : e < s.easels.length) (hf : s.frame e serial = some f)
    (hg : g.serial = serial) : (s.updFrame e serial fun _ => g).frame e serial = some g := by
  have hl : ∀ l : List Frame, l.find? (fun y => y.serial == serial) = some f →
      (l.map fun y => if y.serial = serial then g else y).find? (fun y => y.serial == serial) = some g := by
    intro l
    induction l with
    | nil => intro h; cases h
    | cons y l ih =>
      intro h
      by_cases hy : y.serial = serial
      · simp [hy, hg]
      · rw [List.find?_cons_of_neg (by simpa using hy)] at h
        rw [List.map_cons, if_neg hy, List.find?_cons_of_neg (by simpa using hy)]
        exact ih h
  rw [State.frame, State.updFrame, State.easel_updEasel_self _ he]
  exact hl _ hf

theorem State.frame_congr {s t : State} (h : t.easels = s.easels) (e serial : Nat) : t.frame e serial = s.frame e serial := by
  rw [State.frame, State.easel_congr h, State.frame]

theorem State.anyUnsettled_of_frame {s : State} {e serial : Nat} {f : Frame} (h : s.frame e serial = some f) (hu : f.unsettled = true) :
    s.anyUnsettled e = true :=
  List.any_eq_true.mpr ⟨f, List.mem_of_find?_eq_some h, hu⟩

/-- The state in which a settled frame is noted, before an easel that is closing is closed. -/
def State.settledNoted (s : State) (e : Nat) (f : Frame) (st : FrameState) (fault : Nat) : State :=
  let t := s.updFrame e f.serial fun x => { x with st := st, fault := fault, ended := true }
  let t1 := match st with
    | .scraped => (t.flagCount F.EASEL_FLAGS_scrape F.EASEL_CNT_SCRAPE_count e).raise 0 Ev.INTAKE_SCRAPE (framePayload e f.serial fault)
    | .damaged => (t.flagCount F.EASEL_FLAGS_damaged F.EASEL_CNT_DAMAGED_count e).raise 0 Ev.INTAKE_DAMAGED (framePayload e f.serial fault)
    | _ => t.bump F.EASEL_CNT_DRY_count e
  let t2 := (t1.wr F.EASEL_LAST_LO_serial_lo f.serial e).wr F.EASEL_LAST_HI_serial_hi (f.serial / 4294967296) e
  ({ t2 with notices := t2.notices ++ allConsumers.map fun c => (c, e, f.serial) } : State).frameStatus e

theorem State.settleTo_eq (s : State) (e : Nat) (f : Frame) (st : FrameState) (fault : Nat) :
    s.settleTo e f st fault = (s.settledNoted e f st fault).closeIfDone e := by
  cases st <;> rfl

@[simp] theorem State.frameStatus_easels (s : State) (e : Nat) : (s.frameStatus e).easels = s.easels := by simp [State.frameStatus]
@[simp] theorem State.frameStatus_mem (s : State) (e : Nat) : (s.frameStatus e).mem = s.mem := by simp [State.frameStatus]

theorem State.settledNoted_easels (s : State) (e : Nat) (f : Frame) (st : FrameState) (fault : Nat) : (s.settledNoted e f st fault).easels
    = (s.updFrame e f.serial fun x => { x with st := st, fault := fault, ended := true }).easels := by
  cases st <;> simp [State.settledNoted]

theorem State.settledNoted_mem (s : State) (e : Nat) (f : Frame) (st : FrameState) (fault : Nat) : (s.settledNoted e f st fault).mem = s.mem := by
  cases st <;> simp [State.settledNoted, State.updFrame]

/-- An unsettled frame stands in the easel. -/
structure State.Stands (s : State) (e serial : Nat) (f : Frame) : Prop where
  inEasel : e < s.easels.length
  frame : s.frame e serial = some f
  unsettled : f.unsettled = true

theorem State.Stands.congr {s t : State} {e serial : Nat} {f : Frame} (h : s.Stands e serial f) (ht : t.easels = s.easels) : t.Stands e serial f :=
  ⟨ht ▸ h.inEasel, (State.frame_congr ht e serial).trans h.frame, h.unsettled⟩

theorem State.Stands.updFrame {s : State} {e serial k : Nat} {f : Frame} (h : s.Stands e serial f) (hk : k ≠ serial) {u : Frame → Frame}
    (hu : ∀ x, (u x).serial = x.serial) : (s.updFrame e k u).Stands e serial f :=
  ⟨by simpa [State.updFrame] using h.inEasel, (s.frame_updFrame_ne e u hk hu).trans h.frame, h.unsettled⟩

/-- Settling another frame of the easel leaves an unsettled frame standing, and touches no byte of HBM. -/
theorem State.Stands.settleTo {s : State} {e serial : Nat} {f x : Frame} (h : s.Stands e serial f) (hx : x.serial ≠ serial) (st : FrameState)
    (fault : Nat) : (s.settleTo e x st fault).Stands e serial f ∧ (s.settleTo e x st fault).mem = s.mem := by
  have hu : (s.updFrame e x.serial fun y => { y with st := st, fault := fault, ended := true }).Stands e serial f := h.updFrame hx fun _ => rfl
  have hn : (s.settledNoted e x st fault).Stands e serial f := hu.congr (State.settledNoted_easels ..)
  rw [State.settleTo_eq, State.closeIfDone_of_wet (State.anyUnsettled_of_frame hn.frame hn.unsettled)]
  exact ⟨hn, State.settledNoted_mem ..⟩

theorem State.Stands.settle {s : State} {e serial : Nat} {f x : Frame} (h : s.Stands e serial f) (hx : x.serial ≠ serial) :
    (s.settle e x).Stands e serial f ∧ (s.settle e x).mem = s.mem := by
  unfold State.settle
  dsimp only
  repeat' split
  all_goals exact h.settleTo hx ..

/-- A frame left HELD alone stands, whatever other held frames settle (R150). -/
theorem State.Stands.heldAlone {s : State} {e serial : Nat} {f : Frame} (h : s.Stands e serial f) :
    (s.heldAlone e serial).Stands e serial f ∧ (s.heldAlone e serial).mem = s.mem := by
  have hl : ∀ (l : List Frame) (t : State), (∀ x ∈ l, x.serial ≠ serial) → t.Stands e serial f →
      (t.each l fun s x => s.settle e x).Stands e serial f ∧ (t.each l fun s x => s.settle e x).mem = t.mem := by
    intro l
    induction l with
    | nil => exact fun t _ ht => ⟨ht, rfl⟩
    | cons x l ih =>
      intro t hne ht
      obtain ⟨h1, h2⟩ := ht.settle (hne x List.mem_cons_self)
      obtain ⟨h3, h4⟩ := ih (t.settle e x) (fun y hy => hne y (List.mem_cons_of_mem _ hy)) h1
      exact ⟨h3, h4.trans h2⟩
  refine hl _ s (fun x hx => ?_) h
  have hx' := (List.mem_filter.mp (List.mem_reverse.mp hx)).2
  simp only [Bool.and_eq_true, bne_iff_ne] at hx'
  exact hx'.1.1

/-! ### Row reports -/

/-- A good active row of an open frame that is in range joins the rows seen, and the frame is HELD once none is missing (R146). -/
theorem Frame.reported_of_good {f : Frame} {r : RowReport} (hob : r.ob = false) (hi : r.index < f.height) (hr : r.result = 0)
    (hs : r.spilt = false) : (f.reported r).seen = r.index :: f.seen ∧ (f.reported r).bad = f.bad ∧ (f.reported r).fault = f.fault
      ∧ (f.reported r).serial = f.serial ∧ (f.reported r).ended = f.ended := by
  have hx : f.extraRow r = false := by simp [Frame.extraRow, hob, hi]
  have held : ∀ (x : Frame) (c : Prop) [Decidable c], (if c then { x with st := .held } else x).seen = x.seen
      ∧ (if c then { x with st := .held } else x).bad = x.bad ∧ (if c then { x with st := .held } else x).fault = x.fault
      ∧ (if c then { x with st := .held } else x).serial = x.serial ∧ (if c then { x with st := .held } else x).ended = x.ended := by
    intro x c hc
    split <;> exact ⟨rfl, rfl, rfl, rfl, rfl⟩
  simp only [Frame.reported, hx, hr, hs, hob, Bool.false_eq_true, or_true, if_false, if_true]
  exact held _ _

theorem State.settleIfDone_of_taking {s : State} {e serial : Nat} {f : Frame} (hf : s.frame e serial = some f) (he : f.ended = false) :
    s.settleIfDone e serial = s := by
  simp [State.settleIfDone, hf, he]

/-- The oldest report once it has been taken. -/
def State.reportTaken (s : State) (rest : List RowReport) : State := { s with link := { s.link with reports := rest } }

theorem exec_rowReport {s : State} {r : RowReport} {rest : List RowReport} (h : s.link.reports = r :: rest) : exec .rowReport s = .next (
    match (s.reportTaken rest).frame r.easel r.serial with
    | some f => if f.unsettled then (s.reportTaken rest).rowTaken r f else (s.reportTaken rest).bump F.BRL_EASEL_ORPHAN_orphan r.easel 0 r.blocks
    | none => (s.reportTaken rest).bump F.BRL_EASEL_ORPHAN_orphan r.easel 0 r.blocks) := by
  change execRowReport s = _
  simp only [execRowReport, h]
  change (match (s.reportTaken rest).frame r.easel r.serial with | none => _ | some f => _) = _
  cases (s.reportTaken rest).frame r.easel r.serial <;> rfl

/-- The tracker takes a good row of a frame that has more rows to come. -/
theorem State.rowTaken_of_good {s : State} {r : RowReport} {f : Frame} (h : s.Stands r.easel r.serial f) (he : f.ended = false)
    (hob : r.ob = false) (hi : r.index < f.height) (hr : r.result = 0) (hs : r.spilt = false) :
    (s.rowTaken r f).frame r.easel r.serial = some (f.reported r) ∧ (s.rowTaken r f).mem = s.mem := by
  obtain ⟨-, -, -, hserial, hended⟩ := Frame.reported_of_good hob hi hr hs
  have hx : f.extraRow r = false := by simp [Frame.extraRow, hob, hi]
  have hser : f.serial = r.serial := by
    have hp := List.find?_some (p := fun x : Frame => x.serial == r.serial) h.frame
    exact eq_of_beq hp
  obtain ⟨ht, hm⟩ : (s.whenB ((f.reported r).st == .held) fun s => s.heldAlone r.easel r.serial).Stands r.easel r.serial f
      ∧ (s.whenB ((f.reported r).st == .held) fun s => s.heldAlone r.easel r.serial).mem = s.mem := by
    cases (f.reported r).st == .held
    · exact ⟨h, rfl⟩
    · exact h.heldAlone
  have hf := State.frame_updFrame_self ht.inEasel ht.frame (hserial.trans hser)
  simp only [State.rowTaken, hx, State.whenB_false]
  have hf' := (State.frame_congr (State.frameStatus_easels ((s.whenB ((f.reported r).st == .held) fun s => s.heldAlone r.easel
    r.serial).updFrame r.easel r.serial fun _ => f.reported r) r.easel) r.easel r.serial).trans hf
  rw [State.settleIfDone_of_taking hf' (hended.trans he)]
  exact ⟨hf', (State.frameStatus_mem ..).trans hm⟩

/-! ### Row stripes -/

/-- The reports waiting for the tracker, and HBM. -/
def State.reportsMem (s : State) : List RowReport × Memory := (s.link.reports, s.mem)

@[simp] theorem State.reportsMem_wr (s : State) (f : Fld) (v i j : Nat) : (s.wr f v i j).reportsMem = s.reportsMem := by simp [State.reportsMem]
@[simp] theorem State.reportsMem_bump (s : State) (f : Fld) (i j n : Nat) : (s.bump f i j n).reportsMem = s.reportsMem := State.reportsMem_wr ..

theorem State.reportsMem_whenB {s : State} {c : Bool} {f : State → State} (h : ∀ t, (f t).reportsMem = t.reportsMem) :
    (s.whenB c f).reportsMem = s.reportsMem := by
  cases c
  · rfl
  · exact h s

theorem State.reportsMem_rowCheckError (s : State) (e n : Nat) (r : RowStripe) : (s.rowCheckError e n r).reportsMem = s.reportsMem :=
  (State.each_of_kept State.reportsMem (fun t g => State.reportsMem_bump t F.BRL_GRP_ERR_row_chk g 0 1) _ _).trans (State.reportsMem_bump ..)

theorem State.reportsMem_sawClear (s : State) (e : Nat) : (s.sawClear e).reportsMem = s.reportsMem :=
  State.each_of_kept State.reportsMem (f := fun s g => s.updGroup g fun x => { x with saw := false }) (fun _ _ => rfl)
    (s.updEasel e fun x => { x with stripe := false, onWay := [0, 0] }) _

theorem State.reportsMem_releaseRows (s : State) (which : RowData → Bool) : (s.releaseRows which).reportsMem = s.reportsMem :=
  State.each_of_kept State.reportsMem (f := fun (t : State) (r : RowData) => t.intakeFree (homeHalf r.ob r.index) r.held) (fun _ _ => rfl) s
    (s.link.rows.filter which)

theorem State.reportsMem_keepRow (s : State) (row : RowData) (gone : Bool) : (s.keepRow row gone).reportsMem = s.reportsMem := by
  unfold State.keepRow
  dsimp only
  split
  · exact State.reportsMem_whenB fun t => t.reportsMem_releaseRows _
  · rfl

theorem State.reportsMem_setRuns (s : State) (k e : Nat) (f : List CalRun → List CalRun) : (s.setRuns k e f).reportsMem = s.reportsMem := by
  unfold State.setRuns
  split <;> rfl

theorem State.reportsMem_selftestStop (s : State) (h : Nat) : (s.selftestStop h).reportsMem = s.reportsMem := by
  unfold State.selftestStop
  split
  · exact (State.reportsMem_wr (s.updRun 7 h fun r => { r with running := false }) F.COND_HALF_STATUS_running _ h 0).trans
      (State.reportsMem_setRuns s 7 h _)
  · rfl

theorem State.reportsMem_bandReady (s : State) (e serial index : Nat) : (s.bandReady e serial index).reportsMem = s.reportsMem := by
  unfold State.bandReady
  dsimp only
  split
  · rfl
  · exact State.reportsMem_selftestStop ..

/-- A stripe taken adds one report, of the row its headers name, and touches no byte of HBM. -/
theorem State.rowTake_reports (s : State) (e : Nat) (f : Frame) (r : RowStripe) (ob : Bool) (index : Nat) (spilt : Bool) :
    ∃ x : RowReport, (s.rowTake e f r ob index spilt).reportsMem = (s.link.reports ++ [x], s.mem) ∧ x.easel = e ∧ x.serial = f.serial
      ∧ x.ob = ob ∧ x.index = index := by
  unfold State.rowTake
  extract_lets +onlyGivenNames x lanes n hdrErr last order gone badLanes chk result trailer check t t1 report mine waits blocks row l2 t2
  refine ⟨report, ?_, rfl, rfl, rfl, rfl⟩
  have ht : t.reportsMem = s.reportsMem := by
    refine (State.reportsMem_whenB fun u => u.reportsMem_rowCheckError e n r).trans ?_
    refine (State.reportsMem_bump ..).trans ((State.reportsMem_whenB fun u => ?_).trans (State.reportsMem_whenB fun u => ?_))
    · exact u.reportsMem_bump F.BRL_EASEL_ERR_order_err e 0 1
    · exact u.reportsMem_bump F.BRL_EASEL_ERR_hdr_err e 0 1
  have h1 : t1.reportsMem = s.reportsMem := (State.reportsMem_sawClear t e).trans ht
  have h2 : t2.reportsMem = (s.link.reports ++ [report], s.mem) := by
    have hr : t1.link.reports = s.link.reports := congrArg Prod.fst h1
    have hm : t1.mem = s.mem := congrArg Prod.snd h1
    rw [← hr, ← hm]
    rfl
  rw [← h2]
  refine (State.reportsMem_whenB fun u => ?_).trans ((State.reportsMem_whenB fun u => ?_).trans (State.reportsMem_whenB fun u => rfl))
  · exact u.reportsMem_bandReady ..
  · exact u.reportsMem_keepRow ..

theorem exec_rowStripeReceive_of_none {e : Nat} {stripe : RowStripe} {s : State} (hup : s.setUp e = true) (ho : s.lanesOut e = false)
    (h : (s.easel e).discard = true ∨ s.current e = none) : exec (.rowStripeReceive e stripe) s = .next (s.stripeDropped e stripe) := by
  change execRowStripeReceive e stripe s = _
  rcases h with h | h
  · simp [execRowStripeReceive, hup, ho, h]
  · simp [execRowStripeReceive, hup, ho, h]

theorem exec_rowStripeReceive_of_some {e : Nat} {stripe : RowStripe} {s : State} {f : Frame} {p : Bool × Nat} (hup : s.setUp e = true)
    (ho : s.lanesOut e = false) (hd : (s.easel e).discard = false) (hf : s.current e = some f)
    (hp : stripePlace (s.stripeKept e stripe) (12 * (s.easelGroups e).length) = some p) :
    exec (.rowStripeReceive e stripe) s = .next ((s.spiltTaken e (s.stripeLost e stripe)).rowTake e f (s.stripeKept e stripe) p.1 p.2
      !(s.stripeLost e stripe).isEmpty) := by
  change execRowStripeReceive e stripe s = _
  simp [execRowStripeReceive, hup, ho, hd, hf, hp]

theorem exec_rowStripeReceive_of_unread {e : Nat} {stripe : RowStripe} {s : State} {f : Frame} (hup : s.setUp e = true)
    (ho : s.lanesOut e = false) (hd : (s.easel e).discard = false) (hf : s.current e = some f)
    (hp : stripePlace (s.stripeKept e stripe) (12 * (s.easelGroups e).length) = none) :
    exec (.rowStripeReceive e stripe) s = .next (s.stripeUnread e f stripe) := by
  change execRowStripeReceive e stripe s = _
  simp [execRowStripeReceive, hup, ho, hd, hf, hp]

theorem State.rd_sawClear (s : State) (e : Nat) (a : Fld) (i j : Nat) : (s.sawClear e).rd a i j = s.rd a i j :=
  State.each_of_kept (fun t => t.rd a i j) (f := fun s g => s.updGroup g fun x => { x with saw := false }) (fun _ _ => rfl)
    (s.updEasel e fun x => { x with stripe := false, onWay := [0, 0] }) _

theorem State.Only.sawClear {s t : State} {l : List (Fld × Nat)} (h : s.Only t l) (e : Nat) : s.Only (t.sawClear e) l :=
  State.Only.each (fun _ _ h => h.same) h.same _

/-- The orphans of a dropped stripe are counted, and nothing else is told of them (R109). -/
theorem State.stripeDropped_spec (s : State) (e : Nat) (stripe : RowStripe) :
    (s.stripeDropped e stripe).rd F.BRL_EASEL_ORPHAN_orphan e = min (2 ^ F.BRL_EASEL_ORPHAN_orphan.width - 1)
        (s.rd F.BRL_EASEL_ORPHAN_orphan e + stripeBlocks (s.stripeKept e stripe) (12 * (s.easelGroups e).length) (s.rowLength e))
      ∧ s.Only (s.stripeDropped e stripe) [(F.BRL_EASEL_ORPHAN_orphan, e)] := by
  refine ⟨?_, State.Only.sawClear (State.Only.bump (State.Only.same (State.Only.refl s _)) _ _ _ _ (by simp)) e⟩
  exact (State.rd_sawClear ..).trans (State.rd_bump_self _ F.BRL_EASEL_ORPHAN_orphan e 0 _)

/-! ### Frame-ends -/

theorem exec_frameEndReceive_of_up {e : Nat} {payload : List Byte} {s : State} (hup : s.setUp e = true) (ho : s.lanesOut e = false)
    (hs : s.slept e ((s.easelGroups e).headD 0) = false) (hd : (s.easel e).discard = false) : exec (.frameEndReceive e payload) s = .next (
      match s.current e with
      | none => s.bump F.BRL_EASEL_ORPHAN_orphan e
      | some f => if isControl 0x66 (some payload) then s.frameEnd e f (.fe (fieldAt payload 1 2) (fieldAt payload 3 4))
        else (s.bump F.BRL_EASEL_ERR_fe_err e).frameEnd e f .feBad) := by
  change execFrameEndReceive e payload s = _
  simp only [execFrameEndReceive, State.onLowest_of_up hup ho, hs, hd, Option.isNone_some, Bool.or_self, Bool.false_eq_true, if_false]
  cases s.current e with
  | none => rfl
  | some f => exact (apply_ite Host.Outcome.next _ _ _).symm

/-- Settles O20: the stripe by the frame that takes it, the report by the state of its frame, and the frame-end by the current frame. -/
theorem rowsAndFrameEnds : Obligations.RowsAndFrameEnds := by
  refine ⟨fun e s => ⟨fun stripe p f hup ho hd hf hp => ?_, fun stripe hup ho hf => ?_, fun r rest f hr he hf hst hend hob hi hres hsp => ?_,
    fun r rest f hr hf hu => ?_, fun payload f hup ho hs hd hf hc => ?_, fun payload hup ho hs hd hf => ?_, fun f hf => ?_⟩,
    fun s r rest hr => ?_, fun e stripe s hup ho => ⟨exec_rowStripeReceive_of_none hup ho, fun f p hd hf hp => exec_rowStripeReceive_of_some hup ho hd hf hp,
    fun f hd hf hp => exec_rowStripeReceive_of_unread hup ho hd hf hp⟩, fun e payload f s hup ho hs hd hf hc => ?_⟩
  · obtain ⟨x, hx, he, hser, hob, hi⟩ := (s.spiltTaken e (s.stripeLost e stripe)).rowTake_reports e f (s.stripeKept e stripe) p.1 p.2
      !(s.stripeLost e stripe).isEmpty
    exact ⟨_, exec_rowStripeReceive_of_some hup ho hd hf hp, ⟨x, congrArg Prod.fst hx, he, hser, hob, hi⟩, congrArg Prod.snd hx⟩
  · exact ⟨_, exec_rowStripeReceive_of_none hup ho (Or.inr hf), s.stripeDropped_spec e stripe⟩
  · have hu : f.unsettled = true := by simp [Frame.unsettled, hst]
    obtain ⟨hseen, hbad, hfault, -, -⟩ := Frame.reported_of_good hob hi hres hsp
    obtain ⟨hframe, hmem⟩ := State.rowTaken_of_good (s := s.reportTaken rest) ⟨he, hf, hu⟩ hend hob hi hres hsp
    refine ⟨_, exec_rowReport hr, ?_⟩
    have hf' : (s.reportTaken rest).frame r.easel r.serial = some f := hf
    simp only [hf', hu, if_true]
    exact ⟨_, hframe, hseen, hbad, hfault, hmem⟩
  · have hf' : (s.reportTaken rest).frame r.easel r.serial = some f := hf
    refine ⟨_, exec_rowReport hr, ?_⟩
    simp only [hf', hu, Bool.false_eq_true, if_false]
    exact ⟨by simp [State.reportTaken], State.rd_bump_self ..⟩
  · rw [exec_frameEndReceive_of_up hup ho hs hd, hf]
    exact congrArg Host.Outcome.next (if_pos hc)
  · refine ⟨_, exec_frameEndReceive_of_up hup ho hs hd, ?_⟩
    rw [hf]
    exact ⟨State.rd_bump_self .., (State.Only.refl s _).bump _ _ _ _ (by simp)⟩
  · change execFrameEndTimeout e s = _
    simp only [execFrameEndTimeout, hf]
  · exact exec_rowReport hr
  · rw [exec_frameEndReceive_of_up hup ho hs hd, hf]
    exact congrArg Host.Outcome.next (if_neg (by simp [hc]))

end Sys2Proof.Machine
end

section
/-! PROOFS. Host commands (spec/11): what starting and ending one leaves, and what an end answers. -/
namespace Sys2Proof.Machine

set_option Elab.async false

theorem State.rd_congr {s t : State} (hc : t.cfg = s.cfg) (hs : t.sts = s.sts) (f : Fld) (i j : Nat) : t.rd f i j = s.rd f i j := by
  unfold State.rd
  rw [hc, hs]

/-! ### Finding a command -/

theorem State.id_of_cmd {s : State} {id : Nat} {c : Cmd} (h : s.cmd id = some c) : c.id = id := by
  have hp := List.find?_some (p := fun c : Cmd => c.id == id) h
  exact eq_of_beq hp

/-- A change of one command that keeps its number changes what is found under that number alone. -/
theorem State.cmd_updCmd (s : State) (id k : Nat) (f : Cmd → Cmd) (hf : ∀ c, (f c).id = c.id) :
    (s.updCmd id f).cmd k = if k = id then (s.cmd k).map f else s.cmd k := by
  have hl : ∀ l : List Cmd, (l.map fun c => if c.id = id then f c else c).find? (fun c => c.id == k)
      = if k = id then (l.find? fun c => c.id == k).map f else l.find? fun c => c.id == k := by
    intro l
    induction l with
    | nil => simp
    | cons c l ih =>
      have hc : (if c.id = id then f c else c).id = c.id := by split <;> simp [hf]
      by_cases hk : c.id = k
      · rw [List.map_cons, List.find?_cons_of_pos (by rw [hc, hk]; exact beq_self_eq_true k), List.find?_cons_of_pos (by simp [hk]), hk]
        split <;> rfl
      · rw [List.map_cons, List.find?_cons_of_neg (by rw [hc]; simp [hk]), List.find?_cons_of_neg (by simp [hk]), ih]
  exact hl s.host.cmds

/-- A command that waited has begun. -/
def Cmd.begun (c : Cmd) : Cmd := { c with stage := .running }

/-- The state in which a command that waited has begun. -/
def State.begun (s : State) (id : Nat) : State := s.updCmd id Cmd.begun

@[simp] theorem State.begun_rd (s : State) (id : Nat) (f : Fld) (i j : Nat) : (s.begun id).rd f i j = s.rd f i j := rfl
@[simp] theorem State.begun_mem (s : State) (id : Nat) : (s.begun id).mem = s.mem := rfl
@[simp] theorem State.begun_records (s : State) (id : Nat) : (s.begun id).host.records = s.host.records := rfl

theorem State.startCmd_eq_begun {s : State} {id opcode : Nat} {c : Cmd} (f : Cmd → State → State) (h : s.Waits id opcode c) :
    s.startCmd id opcode f = f c (s.begun id) := State.startCmd_of_waits f h

theorem State.cmd_begun_self {s : State} {id opcode : Nat} {c : Cmd} (h : s.Waits id opcode c) :
    (s.begun id).cmd id = some c.begun := by
  rw [State.begun, State.cmd_updCmd _ _ _ Cmd.begun fun _ => rfl, if_pos rfl, h.1]
  rfl

theorem State.cmd_begun_ne (s : State) {id k : Nat} (h : k ≠ id) : (s.begun id).cmd k = s.cmd k := by
  rw [State.begun, State.cmd_updCmd _ _ _ Cmd.begun fun _ => rfl, if_neg h]

theorem State.only_begun (s : State) (id : Nat) (l : List (Fld × Nat)) : s.Only (s.begun id) l := (State.Only.refl s l).same

/-! ### The end of a command -/

theorem State.Only.updHost {s t : State} {l : List (Fld × Nat)} (h : s.Only t l) (f : HostSt → HostSt) : s.Only (t.updHost f) l := h.same

/-- The record of a command touches no register and no byte of HBM. -/
theorem State.Only.post_cmd {s t : State} {l : List (Fld × Nat)} (h : s.Only t l) (r : Rec) (hr : r.cmd.isNone = false) : s.Only (t.post r) l := by
  obtain ⟨u, r', hu, -, -, e⟩ := t.post_eq r
  rw [e, hr]
  rcases hu with rfl | rfl
  · simpa using h.updHost _
  · simpa using (State.Only.same h).updHost _

/-- The end of a command that is neither ended nor muted touches no register and no byte of HBM. -/
theorem State.Only.complete {s t : State} {l : List (Fld × Nat)} {id : Nat} {c : Cmd} (h : s.Only t l) (hc : t.cmd id = some c)
    (he : c.stage ≠ .ended) (hm : c.mute = false) (status a b half : Nat) : s.Only (t.complete id status a b half) l := by
  simp only [State.complete, hc, if_neg he, hm, Bool.false_eq_true, if_false]
  exact State.Only.post_cmd h.same _ rfl

/-- A command that has begun at once ends with its record, and nothing else is touched. -/
theorem State.complete_begun {s : State} {id opcode : Nat} {c : Cmd} (h : s.Waits id opcode c) (hm : c.mute = false) (status a b half : Nat) :
    ((s.begun id).complete id status a b half).Answered c status a b
      ∧ ∀ l, s.Only ((s.begun id).complete id status a b half) l := by
  have hc := State.cmd_begun_self h
  have hne : c.begun.stage ≠ .ended := by simp [Cmd.begun]
  exact ⟨State.complete_answered (c := c.begun) status a b half hc hne hm,
    fun l => (s.only_begun id l).complete hc hne hm status a b half⟩

/-- A command that runs ends with its record, and nothing else is touched. -/
theorem State.complete_running {s : State} {id opcode : Nat} {c : Cmd} (h : s.Runs id opcode c) (hm : c.mute = false) (status a b half : Nat) :
    (s.complete id status a b half).Answered c status a b ∧ ∀ l, s.Only (s.complete id status a b half) l := by
  have hne : c.stage ≠ .ended := by simp [h.2.2]
  exact ⟨State.complete_answered status a b half h.1 hne hm, fun l => (State.Only.refl s l).complete h.1 hne hm status a b half⟩

/-- What a later change leaves of the waiting records is answered still. -/
theorem State.Answered.congr {s t : State} {c : Cmd} {status a b : Nat} (h : s.Answered c status a b) (ht : t.host.records = s.host.records) :
    t.Answered c status a b := by
  unfold State.Answered
  rw [ht]
  exact h

theorem State.Answered.mono {s t : State} {c : Cmd} {status a b : Nat} (h : s.Answered c status a b) (ht : s.host.records ⊆ t.host.records) :
    t.Answered c status a b := by
  obtain ⟨r, hr, h⟩ := h
  exact ⟨r, ht hr, h⟩

end Sys2Proof.Machine
end

section
/-! PROOFS. Exposure tickets (spec/04, R136 to R139). -/
namespace Sys2Proof.Machine

set_option Elab.async false

/-- The fields of a TICKET_POST that R137 checks are good, and it names easel e. -/
structure Cmd.GoodTicket (c : Cmd) (e : Nat) : Prop where
  ticket : c.w 16 ≠ 0
  writes : c.b 21 ≤ 4
  zero22 : c.h 22 = 0
  zero34 : c.h 34 = 0
  zero60 : c.w 60 = 0
  easel : c.b 20 = e
  inRange : e < 4

theorem exec_ticketPost_of_zero {id : Nat} {c : Cmd} {s : State} (h : s.Waits id 0x01 c) (h0 : c.w 16 = 0) :
    exec (.ticketPost id) s = .next ((s.begun id).complete id St.BAD_TICKET 0 0) := by
  change execTicketPost id s = _
  rw [execTicketPost, State.startCmd_eq_begun _ h]
  simp [h0, State.ticketDone]

theorem exec_ticketPost_of_good {id e : Nat} {c : Cmd} {s : State} (h : s.Waits id 0x01 c) (hc : c.GoodTicket e) :
    exec (.ticketPost id) s = .next (if s.rd F.EASEL_STATUS_state e ≠ 1 then (s.begun id).complete id St.EASEL_CLOSED (c.w 16) 0
      else ((s.begun id).supersede e).updEasel e fun x => { x with pending := [id] }) := by
  obtain ⟨h16, h21, h22, h34, h60, rfl, h4⟩ := hc
  have hgood : ¬ (c.w 16 = 0 ∨ 4 < c.b 21 ∨ c.h 22 ≠ 0 ∨ c.h 34 ≠ 0 ∨ c.w 60 ≠ 0 ∨ 4 ≤ c.b 20) := by omega
  change execTicketPost id s = _
  rw [execTicketPost, State.startCmd_eq_begun _ h]
  simp only [if_neg hgood, Nat.mod_eq_of_lt h4]
  rfl

theorem State.supersede_of_none {s : State} {e : Nat} (h : (s.easel e).pending = []) :
    s.supersede e = s.updEasel e fun x => { x with pending := [] } := by
  rw [State.supersede, h]
  rfl

theorem State.supersede_of_one {s : State} {e k : Nat} {d : Cmd} (h : (s.easel e).pending = [k]) (hd : s.cmd k = some d) : s.supersede e
    = ((s.complete k St.SUPERSEDED (d.w 16) 0).bump F.EASEL_CNT_MISC_superseded e).updEasel e fun x => { x with pending := [] } := by
  rw [State.supersede, h]
  simp only [State.each, List.foldl_cons, List.foldl_nil, hd]
  rfl

@[simp] theorem State.complete_easels (s : State) (id status a b half : Nat) : (s.complete id status a b half).easels = s.easels :=
  State.Apart.easels.complete ..

theorem exec_ticketWindowClose {e n : Nat} {s : State} (h : (s.easel e).window = some n) :
    exec (.ticketWindowClose e) s = .next (s.windowClose e n) := by
  change execTicketWindowClose e s = _
  simp only [execTicketWindowClose, h]

theorem State.windowClose_of_none {s : State} {e n : Nat} (h : (s.easel e).pending = []) :
    s.windowClose e n = s.updEasel e fun x => { x with window := none, pending := [] } := by
  simp [State.windowClose, h]

/-- Settles O22: a ticket's answer by the easel's state and by what waits in the window. -/
theorem tickets : Obligations.Tickets := by
  intro id e c s
  refine ⟨fun h hm h0 => ?_, fun h hm h16 h21 h22 h34 h60 he h4 hst => ?_, fun h h16 h21 h22 h34 h60 he h4 hlen hst hp => ?_,
    fun k d h h16 h21 h22 h34 h60 he h4 hlen hst hp hk hd hdm => ?_, fun n hw hp hlen => ?_, fun n hw => exec_ticketWindowClose hw⟩
  · obtain ⟨ha, ho⟩ := State.complete_begun h hm St.BAD_TICKET 0 0 0
    exact ⟨_, exec_ticketPost_of_zero h h0, ha, ho []⟩
  · obtain ⟨ha, ho⟩ := State.complete_begun h hm St.EASEL_CLOSED (c.w 16) 0 0
    refine ⟨_, exec_ticketPost_of_good h ⟨h16, h21, h22, h34, h60, he, h4⟩, ?_⟩
    rw [if_pos hst]
    exact ⟨ha, ho []⟩
  · refine ⟨_, exec_ticketPost_of_good h ⟨h16, h21, h22, h34, h60, he, h4⟩, ?_⟩
    have hp' : ((s.begun id).easel e).pending = [] := hp
    have hlen' : e < ((s.begun id).updEasel e fun x => { x with pending := [] }).easels.length := by simpa [State.begun, State.updCmd] using hlen
    rw [if_neg (not_not_intro hst), State.supersede_of_none hp']
    exact ⟨congrArg EaselSt.pending (State.easel_updEasel_self _ hlen'), rfl, (s.only_begun id []).same⟩
  · refine ⟨_, exec_ticketPost_of_good h ⟨h16, h21, h22, h34, h60, he, h4⟩, ?_⟩
    have hp' : ((s.begun id).easel e).pending = [k] := hp
    have hd' : (s.begun id).Runs k 0x01 d := ⟨(State.cmd_begun_ne s hk).trans hd.1, hd.2⟩
    obtain ⟨ha, ho⟩ := State.complete_running hd' hdm St.SUPERSEDED (d.w 16) 0 0
    have hlen' : e < ((((s.begun id).complete k St.SUPERSEDED (d.w 16) 0).bump F.EASEL_CNT_MISC_superseded e).updEasel e fun x =>
        { x with pending := [] }).easels.length := by simpa [State.begun, State.updCmd] using hlen
    rw [if_neg (not_not_intro hst), State.supersede_of_one hp' hd'.1]
    have hcnt : (((s.begun id).complete k St.SUPERSEDED (d.w 16) 0)).rd F.EASEL_CNT_MISC_superseded e = s.rd F.EASEL_CNT_MISC_superseded e :=
      (ho []).2 _ _ _ (by simp)
    refine ⟨congrArg EaselSt.pending (State.easel_updEasel_self _ hlen'), ha.congr (by simp), ?_, ?_⟩
    · exact (State.rd_bump_self _ F.EASEL_CNT_MISC_superseded e 0 1).trans (by rw [hcnt])
    · exact (((s.only_begun id _).trans (ho [(F.EASEL_CNT_MISC_superseded, e)])).bump F.EASEL_CNT_MISC_superseded e 0 1 (by simp)).same
  · refine ⟨_, exec_ticketWindowClose hw, ?_⟩
    rw [State.windowClose_of_none hp]
    exact ⟨congrArg EaselSt.window (State.easel_updEasel_self _ hlen), (State.Only.refl s []).same⟩

end Sys2Proof.Machine
end

section
/-! PROOFS. Bands, tiles and canvas writes (spec/01, spec/04, spec/08), and the holds of a canvas slot (spec/08). -/
namespace Sys2Proof.Machine

set_option Elab.async false

/-! ### Writes to HBM -/

@[simp] theorem State.issue_rd (s : State) (c : Nat → HbmCmd) (a n : Nat) (f : Fld) (i j : Nat) : (s.issue c a n).rd f i j = s.rd f i j := rfl
@[simp] theorem State.hbmWrite_rd (s : State) (a : Nat) (bs : List Byte) (f : Fld) (i j : Nat) : (s.hbmWrite a bs).rd f i j = s.rd f i j := rfl
@[simp] theorem State.hbmWrite_mem (s : State) (a : Nat) (bs : List Byte) : (s.hbmWrite a bs).mem = s.mem.writeList a bs := rfl
@[simp] theorem State.hbmWrite_brush (s : State) (a : Nat) (bs : List Byte) : (s.hbmWrite a bs).brush = s.brush := rfl
@[simp] theorem State.hbmWrite_held (s : State) (a : Nat) (bs : List Byte) : (s.hbmWrite a bs).hbm.held = s.hbm.held := rfl

theorem withIndex_any {α : Type} (l : List α) (p : α → Bool) : (withIndex l).any (fun x => p x.2) = l.any p := by
  have h := congrArg (List.any · p) (List.map_snd_zip (l₁ := List.range l.length) (l₂ := l) (by simp))
  simpa [withIndex, List.any_map, Function.comp_def] using h

/-- Commands issued to a stack leave its alerts. -/
theorem State.alertOn_issue (s : State) (c : Nat → HbmCmd) (a n k : Nat) : (s.issue c a n).alertOn k = s.alertOn k := by
  have hx : ∀ x : StackSt, ((withIndex x.pcs).map fun p => p.2.issue (((bursts a n).filter fun b => pcOf b == p.1).map c)).any PcSt.alert
      = x.pcs.any PcSt.alert := by
    intro x
    rw [List.any_map]
    exact withIndex_any x.pcs PcSt.alert
  exact updAt_getD_of_kept (fun x : StackSt => x.pcs.any PcSt.alert) s.hbm.stackSts (stackOf a) k
    (fun x => { x with pcs := (withIndex x.pcs).map fun p => p.2.issue (((bursts a n).filter fun b => pcOf b == p.1).map c) }) _ hx

theorem State.hbmWaits_hbmWrite (s : State) (a : Nat) (bs : List Byte) (b n : Nat) : (s.hbmWrite a bs).hbmWaits b n = s.hbmWaits b n := by
  have h : (s.hbmWrite a bs).stackWaits (stackOf b) = s.stackWaits (stackOf b) := by
    unfold State.stackWaits
    rw [show (s.hbmWrite a bs).alertOn (stackOf b) = s.alertOn (stackOf b) from s.alertOn_issue .write a bs.length (stackOf b)]
    rfl
  unfold State.hbmWaits
  rw [h]

/-- A stack that takes requests is written at once. -/
theorem State.put_of_ready {s : State} {a : Nat} {bs : List Byte} (hf : s.stackFault (stackOf a) = false) (hw : s.hbmWaits a bs.length = false)
    (hh : s.hbm.held = []) : s.put a bs = s.hbmWrite a bs := by
  simp [State.put, hf, hw, hh]

/-! ### Canvas slots -/

theorem State.canvas_updCanvas_self {s : State} {e : Nat} (f : CanvasSt → CanvasSt) (h : e < s.hbm.canvases.length) :
    (s.updCanvas e f).canvas e = f (s.canvas e) := updAt_getD_self _ _ _ _ h

theorem State.canvas_wr (s : State) (f : Fld) (v i j e : Nat) : (s.wr f v i j).canvas e = s.canvas e := by
  unfold State.canvas
  rw [State.wr_hbm]

/-- A change of one slot changes that slot alone, of the fields only the count of free slots. -/
theorem State.updSlot_slots {s : State} {e k : Nat} (f : Slot → Slot) (h : e < s.hbm.canvases.length) :
    ((s.updSlot e k f).canvas e).slots = updAt (s.canvas e).slots k f := by
  unfold State.updSlot State.canvasCount
  rw [State.canvas_wr, State.canvas_updCanvas_self _ h]

theorem State.updSlot_length (s : State) (e k : Nat) (f : Slot → Slot) : (s.updSlot e k f).hbm.canvases.length = s.hbm.canvases.length := by
  simp [State.updSlot, State.canvasCount, State.updCanvas]

theorem State.only_updSlot (s : State) (e k : Nat) (f : Slot → Slot) : s.Only (s.updSlot e k f) [(F.HBM_CANVAS_STATUS_free, e)] :=
  State.Only.wr (State.Only.same (State.Only.refl s _)) _ _ _ _ (by simp)

theorem updAt_getElem? {α : Type} (l : List α) (k n : Nat) (f : α → α) : (updAt l k f)[n]? = if n = k then l[n]?.map f else l[n]? := by
  rw [updAt, List.getElem?_modify]
  by_cases h : n = k
  · simp [h]
  · simp [h, Ne.symm h]

/-- A slot once one holder's hold on one part has been let go, and once the slot has been looked at (R283). -/
def Slot.released (x : Slot) (part : Nat) (h : Holder) : Slot := { x with holds := x.holds.filter (· ≠ (part, h)) }
def Slot.checked (x : Slot) : Slot := if x.holds.isEmpty && (x.st == .settled || x.st == .scraped) then { x with st := .free } else x

theorem Slot.checked_released (x : Slot) (part : Nat) (h : Holder) : (x.released part h).checked.serial = x.serial
    ∧ (x.released part h).checked.holds = x.holds.filter (· ≠ (part, h)) ∧ (x.released part h).checked.st
      = if (x.holds.filter (· ≠ (part, h))).isEmpty ∧ (x.st = .settled ∨ x.st = .scraped) then .free else x.st := by
  simp only [Slot.checked, Slot.released, Bool.and_eq_true, Bool.or_eq_true, beq_iff_eq]
  split <;> exact ⟨rfl, rfl, rfl⟩

/-- Settles O24: two changes of one slot, the hold let go and the look at what is left. -/
theorem canvasHolds : Obligations.CanvasHolds := by
  intro e k part h s x he hx
  have he' : e < (s.updSlot e k fun x => x.released part h).hbm.canvases.length := by rwa [State.updSlot_length]
  have hslots : ∀ n, ((s.releaseHold e k part h).canvas e).slots[n]?
      = if n = k then (s.canvas e).slots[n]?.map fun x => (x.released part h).checked else (s.canvas e).slots[n]? := by
    intro n
    have hs : ((s.releaseHold e k part h).canvas e).slots = updAt (updAt (s.canvas e).slots k fun x => x.released part h) k Slot.checked :=
      (State.updSlot_slots Slot.checked he').trans (congrArg (updAt · k Slot.checked) (State.updSlot_slots (fun x => x.released part h) he))
    rw [hs, updAt_getElem?, updAt_getElem?]
    split
    · rw [Option.map_map]
      rfl
    · rfl
  obtain ⟨hserial, hholds, hst⟩ := x.checked_released part h
  refine ⟨s.releaseHold e k part h, rfl, ⟨(x.released part h).checked, ?_, hserial, hholds, hst⟩, fun k' hk => ?_, ?_⟩
  · rw [hslots, if_pos rfl, hx]
    rfl
  · rw [hslots, if_neg hk]
  · exact (s.only_updSlot e k _).trans (State.only_updSlot _ e k _)

/-! ### Bands -/

/-- The half's brushes have taken its oldest ready band (R133). -/
def State.bandTaken (s : State) (h : Nat) (b : Nat × Nat × Nat) (rest : List (Nat × Nat × Nat)) : State :=
  { s with brush := { s.brush with ready := s.brush.ready.set h rest, prev := s.brush.prev.set h (some b.1), taken := b :: s.brush.taken } }

/-- The rows of a band. -/
def inBand (b : Nat × Nat × Nat) (r : RowData) : Bool := r.easel == b.1 && r.serial == b.2.1 && !r.ob && r.index / 32 == b.2.2

theorem exec_brushBandStart {h : Nat} {full : List Nat} {b : Nat × Nat × Nat} {rest : List (Nat × Nat × Nat)} {s : State}
    (hr : s.brush.ready.getD h [] = b :: rest) (hb : s.brushes h ≠ 0) (ho : s.brushesOut h = false) : exec (.brushBandStart h full) s
      = .next (((s.bandTaken h b rest).releaseRows (inBand b)).bandFallback h b.1 b.2.1 b.2.2 full) := by
  change execBrushBandStart h full s = _
  have hfree : ¬ (s.brushes h = 0 ∨ s.brushesOut h = true) := by simp [hb, ho]
  simp only [execBrushBandStart, hr, if_neg hfree]
  rfl

theorem State.Only.releaseRows {s t : State} {l : List (Fld × Nat)} (h : s.Only t l) (which : RowData → Bool) : s.Only (t.releaseRows which) l :=
  (State.Only.each (fun (t : State) (r : RowData) (h : s.Only t l) => State.Only.same (u := t.intakeFree (homeHalf r.ob r.index) r.held) h) h
    (t.link.rows.filter which)).same

theorem State.brush_releaseRows (s : State) (which : RowData → Bool) : (s.releaseRows which).brush = s.brush :=
  State.each_of_kept State.brush (f := fun (t : State) (r : RowData) => t.intakeFree (homeHalf r.ob r.index) r.held) (fun _ _ => rfl) s _

theorem State.Apart.brush : State.Apart State.brush := ⟨State.wr_brush, fun _ => rfl, fun _ _ _ => rfl⟩

theorem State.brush_bandFallback (s : State) (h e serial band : Nat) (full : List Nat) : (s.bandFallback h e serial band full).brush = s.brush := by
  have hu : ∀ (u : State) (k : Nat) (f : Slot → Slot), (u.updSlot e k f).brush = u.brush := fun u k f => State.wr_brush ..
  unfold State.bandFallback
  split
  next f g _ _ =>
    extract_lets l t
    split
    · rfl
    · have hr : ∀ u : State, (u.whenB g.fallback.isEmpty fun s => s.raise 0 Ev.PAL_CANVAS_FALLBACK (framePayload e serial f.fault)).brush
          = u.brush := by
        intro u
        cases g.fallback.isEmpty
        · rfl
        · exact State.Apart.brush.raise ..
      have ht : t.brush = s.brush := (hr _).trans ((State.wr_brush ..).trans (State.wr_brush ..))
      clear_value t
      split
      · exact (hu ..).trans ht
      · exact ht
  · rfl

theorem State.bandFallback_nil (s : State) (h e serial band : Nat) : s.bandFallback h e serial band [] = s := by
  unfold State.bandFallback
  split
  · rw [show (List.range 8).filter (fun v => ([] : List Nat).contains v && _) = [] from List.filter_eq_nil_iff.mpr fun _ _ => by simp]
    rfl
  · rfl

/-! ### Tiles -/

theorem Option.all_eq_match {α : Type} (p : α → Bool) (o : Option α) : (match o with | none => true | some x => p x) = o.all p := by
  cases o <;> rfl

/-- A tile of a taken band leaves its brush (R133, R134, R152). -/
theorem exec_tileClose_of_taken {e serial tile : Nat} {f : Frame} {cf : CondFrame} {seen : Option (List Byte)} {s : State}
    (hf : s.frame e serial = some f) (hcf : s.condFrame e serial = some cf) (hblack : f.blackSource = 1 → cf.black.isSome = true)
    (hband : tile / max 1 (f.width / 64) < f.height / 32) (hout : s.brushesOut (tile / max 1 (f.width / 64) % 2) = false)
    (hon : s.brushes (tile / max 1 (f.width / 64) % 2) ≠ 0) (htaken : s.brush.taken.contains (e, serial, tile / max 1 (f.width / 64)) = true)
    (hclosed : s.brush.closed.contains (e, serial, tile) = false)
    (hhere : (s.link.rows.any fun r => r.easel == e && r.serial == serial && !r.ob && r.index / 32 == tile / max 1 (f.width / 64)) = true) :
    exec (.tileClose e serial tile seen) s = .next
      (((s.whenB (!seen.all fun l => crc32c l == crc32c (s.linkTile e f tile)) fun s => s.countUp (.intakeCrc e)).tileClose e f cf tile
        (readRows (s.bandRows e f cf (tile / max 1 (f.width / 64))) tile seen)
        (!((List.range 32).all fun j => (s.link.rows.filter fun r => r.easel == e && r.serial == serial && !r.ob
          && r.index / 32 == tile / max 1 (f.width / 64)).any fun r => r.index == 32 * (tile / max 1 (f.width / 64)) + j && !r.bad)
          || !seen.all fun l => crc32c l == crc32c (s.linkTile e f tile))).viewsRun) := by
  have hrows : (s.link.rows.filter fun r => r.easel == e && r.serial == serial && !r.ob && r.index / 32 == tile / max 1 (f.width / 64)).isEmpty
      = false := by
    rw [List.isEmpty_eq_false_iff, ne_eq, List.filter_eq_nil_iff]
    intro h
    obtain ⟨r, hr, hp⟩ := List.any_eq_true.mp hhere
    exact h r hr hp
  have hb : (f.blackSource == 1 && cf.black.isNone) = false := by
    cases hs : f.blackSource == 1
    · rfl
    · rw [Bool.true_and, ← Option.not_isSome, hblack (eq_of_beq hs)]
      rfl
  change execTileClose e serial tile seen s = _
  simp only [execTileClose, hf, hcf, htaken, hclosed, hrows, hb, hout, Nat.not_le.mpr hband, beq_eq_false_iff_ne.mpr hon, Bool.not_true, decide_false,
    Bool.or_self, Bool.false_eq_true, if_false]
  cases seen <;> rfl

/-! ### Canvas writes -/

/-- A fused tile has left the queue of tiles on their way to the canvas. -/
def State.writeLeft (s : State) (e serial tile : Nat) : State :=
  { s with brush := { s.brush with fused := s.brush.fused.filter fun y => !(y.easel == e && y.serial == serial && y.tile == tile) } }

theorem exec_canvasWriteDone {e serial tile : Nat} {x : FusedTile} {s : State}
    (hx : s.brush.fused.find? (fun x => x.easel == e && x.serial == serial && x.tile == tile) = some x) :
    exec (.canvasWriteDone e serial tile) s = .next (
      let t := s.writeLeft e serial tile
      match t.slotOf e serial with
      | none => t
      | some k =>
        let t1 := (t.put ((t.canvas e).tileAddr k tile) x.data).put ((t.canvas e).recAddr k tile) x.record
        let t2 : State := { t1 with brush := { t1.brush with readable := t1.brush.readable ++ [(e, serial, tile)] } }
        t2.viewsRun) := by
  change execCanvasWriteDone e serial tile s = _
  simp only [execCanvasWriteDone, hx]
  change (match (s.writeLeft e serial tile).slotOf e serial with | none => _ | some k => _) = _
  cases (s.writeLeft e serial tile).slotOf e serial <;> rfl

/-- A tile and its record at their places in slot k, and the tile readable, before the views go on. -/
def State.tileStored (t : State) (e serial tile k : Nat) (x : FusedTile) : State :=
  let t1 := (t.put ((t.canvas e).tileAddr k tile) x.data).put ((t.canvas e).recAddr k tile) x.record
  { t1 with brush := { t1.brush with readable := t1.brush.readable ++ [(e, serial, tile)] } }

theorem exec_canvasWriteDone_of_slot {e serial tile k : Nat} {x : FusedTile} {s : State}
    (hx : s.brush.fused.find? (fun x => x.easel == e && x.serial == serial && x.tile == tile) = some x) (hk : s.slotOf e serial = some k) :
    exec (.canvasWriteDone e serial tile) s = .next ((s.writeLeft e serial tile).tileStored e serial tile k x).viewsRun := by
  have hk' : (s.writeLeft e serial tile).slotOf e serial = some k := hk
  rw [exec_canvasWriteDone hx]
  simp only [hk']
  rfl

theorem State.rd_setBrush (s : State) (b : BrushSt) (f : Fld) (i j : Nat) : ({ s with brush := b } : State).rd f i j = s.rd f i j := rfl

/-- A tile stored in stacks that take requests is in HBM at once. -/
theorem State.tileStored_of_ready {t : State} {e serial tile k : Nat} {x : FusedTile}
    (hf1 : t.stackFault (stackOf ((t.canvas e).tileAddr k tile)) = false) (hf2 : t.stackFault (stackOf ((t.canvas e).recAddr k tile)) = false)
    (hh : t.hbm.held = []) (hw1 : t.hbmWaits ((t.canvas e).tileAddr k tile) x.data.length = false)
    (hw2 : t.hbmWaits ((t.canvas e).recAddr k tile) x.record.length = false) :
    (t.tileStored e serial tile k x).mem = (t.mem.writeList ((t.canvas e).tileAddr k tile) x.data).writeList ((t.canvas e).recAddr k tile) x.record
      ∧ (t.tileStored e serial tile k x).brush.readable = t.brush.readable ++ [(e, serial, tile)]
      ∧ ∀ f i j, (t.tileStored e serial tile k x).rd f i j = t.rd f i j := by
  have hput : (t.put ((t.canvas e).tileAddr k tile) x.data).put ((t.canvas e).recAddr k tile) x.record
      = (t.hbmWrite ((t.canvas e).tileAddr k tile) x.data).hbmWrite ((t.canvas e).recAddr k tile) x.record := by
    rw [State.put_of_ready hf1 hw1 hh]
    exact State.put_of_ready hf2 ((State.hbmWaits_hbmWrite ..).trans hw2) hh
  rw [State.tileStored, hput]
  refine ⟨rfl, rfl, fun f i j => (State.rd_setBrush ..).trans ?_⟩
  rw [State.hbmWrite_rd, State.hbmWrite_rd]

/-- The views going on touch no register, no byte of HBM and no brush. -/
theorem State.viewsRun_of_kept {β : Type} (π : State → β) (hv : ∀ (s : State) (v : Nat) (f : ViewSt → ViewSt), π (s.updView v f) = π s)
    (ht : ∀ s : State, π s.tick = π s) (s : State) : π s.viewsRun = π s := by
  unfold State.viewsRun
  rw [ht]
  exact State.each_of_kept π (fun t v => hv t v _) s (List.range 8)

theorem State.viewsRun_mem (s : State) : s.viewsRun.mem = s.mem := State.viewsRun_of_kept State.mem (fun _ _ _ => rfl) (fun _ => rfl) s
theorem State.viewsRun_brush (s : State) : s.viewsRun.brush = s.brush := State.viewsRun_of_kept State.brush (fun _ _ _ => rfl) (fun _ => rfl) s
theorem State.viewsRun_rd (s : State) (f : Fld) (i j : Nat) : s.viewsRun.rd f i j = s.rd f i j :=
  State.viewsRun_of_kept (fun t => t.rd f i j) (fun _ _ _ => rfl) (fun _ => rfl) s

/-- Settles O23: the band, the tile and the canvas write each as one equation. -/
theorem bandsTilesAndCanvasWrites : Obligations.BandsTilesAndCanvasWrites := by
  refine ⟨fun h e serial tile s => ⟨fun b rest hr hb ho full => ?_, fun f cf seen hf hcf hblack hband hout hon htaken hclosed hhere => ?_,
    fun x k hx hk hf1 hf2 hheld hw1 hw2 => ?_, fun c hc => ?_⟩, fun h full b rest s hr hb ho => exec_brushBandStart hr hb ho, fun e serial tile x s hx => ?_⟩
  · refine ⟨_, exec_brushBandStart hr hb ho, ?_⟩
    have hbr : (((s.bandTaken h b rest).releaseRows (inBand b)).bandFallback h b.1 b.2.1 b.2.2 full).brush = (s.bandTaken h b rest).brush :=
      (State.brush_bandFallback ..).trans (State.brush_releaseRows ..)
    refine ⟨congrArg BrushSt.taken hbr, congrArg BrushSt.ready hbr, fun hfull => ?_⟩
    rw [hfull, State.bandFallback_nil]
    exact State.Only.releaseRows ((State.Only.refl s _).same) _
  · exact exec_tileClose_of_taken hf hcf hblack hband hout hon htaken hclosed hhere
  · obtain ⟨hm, hr, hrd⟩ := State.tileStored_of_ready (t := s.writeLeft e serial tile) (serial := serial) hf1 hf2 hheld hw1 hw2
    exact ⟨_, exec_canvasWriteDone_of_slot hx hk, (State.viewsRun_mem _).trans hm, (congrArg BrushSt.readable (State.viewsRun_brush _)).trans hr,
      fun f i j => (State.viewsRun_rd _ f i j).trans (hrd f i j)⟩
  · change execSettleNotice c e serial s = _
    rw [execSettleNotice, if_pos hc]
  · exact exec_canvasWriteDone hx

end Sys2Proof.Machine
end

section
/-! PROOFS. The commits of conditioning, colour and view settings (spec/05, R178; spec/06, R222 and R223). -/
namespace Sys2Proof.Machine

set_option Elab.async false

/-- A command with a known next state has what that state has. -/
theorem Does.of_exec {i : Instr} {s t : State} {P : State → Prop} (h : exec i s = .next t) (hp : P t) : Does i s P := ⟨t, h, hp⟩

/-! ### The sets of an easel and of a view -/

@[simp] theorem State.updCond_cond_length (s : State) (e : Nat) (g : CondSt → CondSt) : (s.updCond e g).cond.length = s.cond.length := updAt_length ..
@[simp] theorem State.updPal_pal_length (s : State) (e : Nat) (g : PalSt → PalSt) : (s.updPal e g).pal.length = s.pal.length := updAt_length ..
@[simp] theorem State.updView_views_length (s : State) (v : Nat) (g : ViewSt → ViewSt) : (s.updView v g).views.length = s.views.length :=
  updAt_length ..

theorem State.condOf_updCond_self {s : State} {e : Nat} (g : CondSt → CondSt) (h : e < s.cond.length) :
    (s.updCond e g).condOf e = g (s.condOf e) := updAt_getD_self _ _ _ _ h
theorem State.palOf_updPal_self {s : State} {e : Nat} (g : PalSt → PalSt) (h : e < s.pal.length) :
    (s.updPal e g).palOf e = g (s.palOf e) := updAt_getD_self _ _ _ _ h
theorem State.view_updView_self {s : State} {v : Nat} (g : ViewSt → ViewSt) (h : v < s.views.length) :
    (s.updView v g).view v = g (s.view v) := updAt_getD_self _ _ _ _ h

theorem State.palSlots_pal (s : State) (e : Nat) : (s.palSlots e).pal = s.pal := by
  rw [State.palSlots, State.wr_pal, State.wr_pal]

theorem State.viewSlots_views (s : State) (v : Nat) : (s.viewSlots v).views = s.views := by
  rw [State.viewSlots, State.wr_views, State.wr_views]

/-- The slot masks shown are the only fields that showing them sets. -/
theorem State.rd_palSlots_other (s : State) (e : Nat) (f : Fld) (i j : Nat)
    (h : ∀ x ∈ [F.PAL_SLOTS_loaded, F.PAL_SLOTS_in_use], ¬ (f.base = x.base ∧ f.lo = x.lo)) : (s.palSlots e).rd f i j = s.rd f i j := by
  simp only [List.forall_mem_cons] at h
  obtain ⟨h1, h2, -⟩ := h
  rw [State.palSlots, State.rd_wr_other _ _ _ _ _ _ _ _ h2, State.rd_wr_other _ _ _ _ _ _ _ _ h1]

theorem State.rd_viewSlots_other (s : State) (v : Nat) (f : Fld) (i j : Nat)
    (h : ∀ x ∈ [F.VIEW_SLOTS_loaded, F.VIEW_SLOTS_in_use], ¬ (f.base = x.base ∧ f.lo = x.lo)) : (s.viewSlots v).rd f i j = s.rd f i j := by
  simp only [List.forall_mem_cons] at h
  obtain ⟨h1, h2, -⟩ := h
  rw [State.viewSlots, State.rd_wr_other _ _ _ _ _ _ _ _ h2, State.rd_wr_other _ _ _ _ _ _ _ _ h1]

theorem State.Only.palSlots {s t : State} {l : List (Fld × Nat)} (h : s.Only t l) (e : Nat) (h1 : (F.PAL_SLOTS_loaded, e) ∈ l)
    (h2 : (F.PAL_SLOTS_in_use, e) ∈ l) : s.Only (t.palSlots e) l :=
  State.Only.wr (State.Only.wr h F.PAL_SLOTS_loaded _ e 0 h1) F.PAL_SLOTS_in_use _ e 0 h2

theorem State.Only.viewSlots {s t : State} {l : List (Fld × Nat)} (h : s.Only t l) (v : Nat) (h1 : (F.VIEW_SLOTS_loaded, v) ∈ l)
    (h2 : (F.VIEW_SLOTS_in_use, v) ∈ l) : s.Only (t.viewSlots v) l :=
  State.Only.wr (State.Only.wr h F.VIEW_SLOTS_loaded _ v 0 h1) F.VIEW_SLOTS_in_use _ v 0 h2

/-! ### An event after changes that leave the records and the quiet halves -/

theorem State.Raised.of_same {s t u : State} {half code : Nat} {p : List Byte} (hr : t.host.records = s.host.records)
    (hq : ∀ f ∈ [F.AUTH_STATUS_quiet_w, F.AUTH_STATUS_quiet_e], t.rd f = s.rd f)
    (hu : u.host.records = (t.raise half code p).host.records) : s.Raised u half code p := by
  intro h
  rw [hu, ← hr]
  exact t.raise_awake half code p ((State.quiet_of_rd hq half).trans h)

/-! ### A read of no byte -/

/-- A read of no byte corrects nothing. -/
theorem State.hbmRead_zero (s : State) (a : Nat) : s.hbmRead a 0 = s ∨ s.hbmRead a 0 = (s.issue .read a 0).tick := by
  by_cases h : (s.stackFault (stackOf a) || s.hbmWaits a 0) = true
  · exact .inl (by simp only [State.hbmRead, h, if_true])
  · exact .inr (by simp [State.hbmRead, Bool.eq_false_iff.mpr h, bursts])

theorem State.only_hbmRead_zero (s : State) (a : Nat) (l : List (Fld × Nat)) : s.Only (s.hbmRead a 0) l := by
  rcases s.hbmRead_zero a with h | h
  · rw [h]
    exact State.Only.refl s l
  · rw [h]
    exact (State.Only.refl s l).same

theorem State.hbmRead_zero_records (s : State) (a : Nat) : (s.hbmRead a 0).host.records = s.host.records := by
  rcases s.hbmRead_zero a with h | h
  · rw [h]
  · rw [h]
    rfl

theorem State.hbmRead_cond (s : State) (a n : Nat) : (s.hbmRead a n).cond = s.cond := by
  by_cases h : (s.stackFault (stackOf a) || s.hbmWaits a n) = true
  · simp only [State.hbmRead, h, if_true]
  · simp only [State.hbmRead, h, Bool.false_eq_true, if_false]
    cases decide (0 < min (Config.hbmCorrected s.fresh) (bursts a n).length)
    · rfl
    · rw [State.tick_cond, State.whenB_true, State.bump, State.wr_cond, State.wr_cond]
      rfl

/-! ### The conditioning check -/

/-- The check has read n bytes of the defect map, holds no set any longer and has flagged a set out of range. -/
def State.condRead (s : State) (e : Nat) (c : CondSet) (n : Nat) : State :=
  ((s.hbmRead (c.addr F.COND_MAP_BASE_LO_value F.COND_MAP_BASE_HI_value e) n).updCond e fun c => { c with check := none }).whenB
    (!s.condRanges e c) fun s => s.wr F.COND_FLAGS_cfg_bad 1 e

theorem State.condRead_cond_of_ranges {s : State} {e n : Nat} {c : CondSet} (h : s.condRanges e c = true) (he : e < s.cond.length) :
    (s.condRead e c n).cond.length = s.cond.length ∧ (s.condRead e c n).condOf e = { s.condOf e with check := none } := by
  have hlen := congrArg List.length (s.hbmRead_cond (c.addr F.COND_MAP_BASE_LO_value F.COND_MAP_BASE_HI_value e) n)
  have hof : ∀ u : State, u.cond = s.cond → u.condOf e = s.condOf e := fun u hu => by rw [State.condOf, hu, State.condOf]
  rw [State.condRead, h]
  refine ⟨(State.updCond_cond_length ..).trans hlen, ?_⟩
  exact (State.condOf_updCond_self _ (hlen ▸ he)).trans (congrArg (fun c : CondSt => { c with check := none }) (hof _ (State.hbmRead_cond ..)))

theorem State.rd_condRead_flag {s : State} {e n : Nat} {c : CondSet} (h : s.condRanges e c = false) :
    (s.condRead e c n).rd F.COND_FLAGS_cfg_bad e = 1 := by
  rw [State.condRead, h]
  exact State.rd_wr_self ..

theorem State.condRead_records_zero (s : State) (e : Nat) (c : CondSet) : (s.condRead e c 0).host.records = s.host.records := by
  unfold State.condRead
  cases s.condRanges e c
  · simpa using s.hbmRead_zero_records _
  · simpa using s.hbmRead_zero_records _

theorem State.rd_condRead_zero (s : State) (e : Nat) (c : CondSet) (f : Fld) (i j : Nat)
    (h : ¬ (f.base = F.COND_FLAGS_cfg_bad.base ∧ f.lo = F.COND_FLAGS_cfg_bad.lo)) : (s.condRead e c 0).rd f i j = s.rd f i j := by
  have hr := (s.only_hbmRead_zero (c.addr F.COND_MAP_BASE_LO_value F.COND_MAP_BASE_HI_value e) []).2 f i j (by simp)
  unfold State.condRead
  cases s.condRanges e c
  · exact (State.rd_wr_other _ _ _ _ _ _ _ _ h).trans hr
  · exact hr

/-- The bytes of the defect map that the check reads: none of a map too large or misplaced. -/
def State.mapBytes (s : State) (e : Nat) (c : CondSet) : Nat :=
  if decide (262144 < c.rd F.COND_MAP_COUNT_value e) = true ∨ s.mapPlaced e c = false then 0 else 4 * c.rd F.COND_MAP_COUNT_value e

/-- The first word of the defect map at fault, with the map's words. -/
def State.mapJudged (s : State) (e : Nat) (c : CondSet) : Option Nat × List Nat :=
  let big := decide (262144 < c.rd F.COND_MAP_COUNT_value e)
  let map := if big ∨ s.mapPlaced e c = false then [] else s.mapOf e c
  (if big then some 262144 else mapFault (s.rd F.EASEL_GEOM_width e) (s.rd F.EASEL_GEOM_height e) 0 none map, map)

theorem exec_condCommitCheckDone {e : Nat} {r : RegStore} {s : State} (hp : s.planPending = false) (hm : s.mapWaits e = false)
    (hr : (s.condOf e).check = some r) : exec (.condCommitCheckDone e) s = .next
      (let t := s.condRead e (bareSet r) (s.mapBytes e (bareSet r))
      match (s.mapJudged e (bareSet r)).1 with
      | some k => ((t.wr F.COND_FLAGS_map_bad 1 e).raise 0 Ev.COND_MAP_BAD (le 4 k)).wr F.COND_COMMIT_pending 0 e
      | none => if s.condRanges e (bareSet r) then t.updCond e fun c => { c with ready := some (r, (s.mapJudged e (bareSet r)).2) }
        else t.wr F.COND_COMMIT_pending 0 e) := by
  change execCondCommitCheckDone e s = _
  simp only [execCondCommitCheckDone, hp, hm, hr, Bool.or_self, Bool.false_eq_true, if_false]
  change (match (s.mapJudged e (bareSet r)).1 with | some k => _ | none => _) = _
  cases (s.mapJudged e (bareSet r)).1 with
  | some k => rfl
  | none =>
    dsimp only
    split <;> rfl

/-- A set without a defect map has no fault in it. -/
theorem State.mapJudged_of_empty {s : State} {e : Nat} {c : CondSet} (h : c.rd F.COND_MAP_COUNT_value e = 0) :
    s.mapBytes e c = 0 ∧ s.mapJudged e c = (none, []) := by
  have hp : s.mapPlaced e c = true := by simp [State.mapPlaced, h]
  have hm : s.mapOf e c = [] := by simp [State.mapOf, h]
  simp [State.mapBytes, State.mapJudged, h, hp, hm, mapFault]

theorem State.mapJudged_of_large {s : State} {e : Nat} {c : CondSet} (h : 262144 < c.rd F.COND_MAP_COUNT_value e) :
    s.mapBytes e c = 0 ∧ s.mapJudged e c = (some 262144, []) := by
  simp [State.mapBytes, State.mapJudged, h]

/-- A set without a defect map and in range is the next to be taken. -/
theorem condCheck_of_good {e : Nat} {r : RegStore} {s : State} (hp : s.planPending = false) (hm : s.mapWaits e = false) (he : e < s.cond.length)
    (hr : (s.condOf e).check = some r) (h0 : (bareSet r).rd F.COND_MAP_COUNT_value e = 0) (hg : s.condRanges e (bareSet r) = true) :
    Does (.condCommitCheckDone e) s fun t => (t.condOf e).ready = some (r, []) ∧ (t.condOf e).check = none ∧ s.Only t [] := by
  obtain ⟨hb, hj⟩ := s.mapJudged_of_empty h0
  obtain ⟨hl, hc⟩ := State.condRead_cond_of_ranges (n := 0) hg he
  refine Does.of_exec (exec_condCommitCheckDone hp hm hr) ?_
  simp only [hb, hj, hg, if_true]
  have hof := State.condOf_updCond_self (fun c => { c with ready := some (r, []) }) (hl ▸ he)
  refine ⟨congrArg CondSt.ready hof, (congrArg CondSt.check hof).trans (congrArg CondSt.check hc), State.Only.same (t := s.condRead e (bareSet r) 0) ?_⟩
  rw [State.condRead, hg]
  exact (s.only_hbmRead_zero _ []).same

/-- A set out of range is refused, with its defect map good or not. -/
theorem condCheck_of_out_of_range {e : Nat} {r : RegStore} {s : State} (hp : s.planPending = false) (hm : s.mapWaits e = false)
    (hr : (s.condOf e).check = some r) (hg : s.condRanges e (bareSet r) = false) :
    Does (.condCommitCheckDone e) s fun t => t.rd F.COND_FLAGS_cfg_bad e = 1 ∧ t.rd F.COND_COMMIT_pending e = 0 := by
  have hf := State.rd_condRead_flag (n := s.mapBytes e (bareSet r)) hg
  refine Does.of_exec (exec_condCommitCheckDone hp hm hr) ?_
  simp only [hg, Bool.false_eq_true, if_false]
  cases (s.mapJudged e (bareSet r)).1 with
  | some k =>
    refine ⟨?_, State.rd_wr_self ..⟩
    dsimp only
    rw [State.rd_wr_other _ _ _ _ _ _ _ _ (by decide), State.rd_raise_other _ _ _ _ _ _ _ (by decide), State.rd_wr_other _ _ _ _ _ _ _ _ (by decide), hf]
  | none =>
    refine ⟨?_, State.rd_wr_self ..⟩
    dsimp only
    rw [State.rd_wr_other _ _ _ _ _ _ _ _ (by decide), hf]

/-- A defect map too large is reported. -/
theorem condCheck_of_large_map {e : Nat} {r : RegStore} {s : State} (hp : s.planPending = false) (hm : s.mapWaits e = false)
    (hr : (s.condOf e).check = some r) (hbig : 262144 < (bareSet r).rd F.COND_MAP_COUNT_value e) :
    Does (.condCommitCheckDone e) s fun t => t.rd F.COND_FLAGS_map_bad e = 1 ∧ t.rd F.COND_COMMIT_pending e = 0
      ∧ s.Raised t 0 Ev.COND_MAP_BAD (le 4 262144) := by
  obtain ⟨hb, hj⟩ := s.mapJudged_of_large hbig
  refine Does.of_exec (exec_condCommitCheckDone hp hm hr) ?_
  simp only [hb, hj]
  refine ⟨?_, State.rd_wr_self .., ?_⟩
  · rw [State.rd_wr_other _ _ _ _ _ _ _ _ (by decide), State.rd_raise_other _ _ _ _ _ _ _ (by decide), State.rd_wr_self]
    rfl
  · refine State.Raised.of_same ?_ (fun f hf => ?_) (by rw [State.wr_host])
    · rw [State.wr_host, State.condRead_records_zero]
    · rw [State.rd_wr_other _ _ _ _ _ _ _ _ (by revert f; decide), State.rd_condRead_zero _ _ _ _ _ _ (by revert f; decide)]

/-! ### The colour and view checks -/

theorem exec_colourCommitCheckDone_of_pal {e : Nat} {r : RegStore} {s : State} (hr : (s.palOf e).check = some r) :
    exec (.colourCommitCheckDone false e) s = .next (s.palChecked e r) := by
  change execColourCommitCheckDone false e s = _
  simp [execColourCommitCheckDone, hr]

theorem exec_colourCommitCheckDone_of_view {v : Nat} {r : RegStore} {s : State} (hp : s.planPending = false) (hr : (s.view v).check = some r) :
    exec (.colourCommitCheckDone true v) s = .next (s.viewChecked v r) := by
  change execColourCommitCheckDone true v s = _
  simp [execColourCommitCheckDone, hp, hr]

theorem State.palChecked_of_good {s : State} {e : Nat} {r : RegStore} (hg : palRanges r e = true) (hu : palUses r e = none) :
    s.palChecked e r = (((s.updPal e fun p => { p with check := none }).updPal e fun p => { p with ready := some r }).palSlots e) := by
  simp [State.palChecked, hg, hu]

/-- A colour set out of range is refused, whatever slot it uses. -/
theorem State.palChecked_of_out_of_range {s : State} {e : Nat} {r : RegStore} (hg : palRanges r e = false) :
    ∃ empty, s.palChecked e r = (((((s.updPal e fun p => { p with check := none }).wr F.PAL_FLAGS_cfg_bad 1 e).whenB empty fun s =>
      s.wr F.PAL_FLAGS_slot_empty 1 e).wr F.PAL_COMMIT_pending 0 e).palSlots e) :=
  ⟨_, by simp only [State.palChecked, hg, Bool.false_and, Bool.false_eq_true, if_false]; rfl⟩

theorem State.viewChecked_of_good {s : State} {v : Nat} {r : RegStore} (hg : s.viewRanges r v = true) (hu : viewUses r v = none)
    (hb : (pictureChanges (s.view v).inForce r v && s.viewNamed v) = false) (ho : s.rd F.EASEL_STATUS_state (s.viewEasel v) ≠ 0) :
    s.viewChecked v r = (((s.updView v fun p => { p with check := none }).updView v fun p => { p with ready := some r }).viewSlots v) := by
  simp [State.viewChecked, hg, hu, hb, ho]

/-- A view set out of range is refused, whatever slot it uses and whatever names it. -/
theorem State.viewChecked_of_out_of_range {s : State} {v : Nat} {r : RegStore} (hg : s.viewRanges r v = false) :
    ∃ empty barred, s.viewChecked v r = ((((((s.updView v fun p => { p with check := none }).wr F.VIEW_FLAGS_cfg_bad 1 v).whenB empty fun s =>
      s.wr F.VIEW_FLAGS_slot_empty 1 v).whenB barred fun s => s.wr F.VIEW_FLAGS_cfg_refused 1 v).wr F.VIEW_COMMIT_pending 0 v).viewSlots v) :=
  ⟨_, _, by simp only [State.viewChecked, hg, Bool.false_and, Bool.false_eq_true, if_false]; rfl⟩

/-- A flag under a condition leaves every other field. -/
theorem State.rd_whenB_wr_other (s : State) (b : Bool) (f g : Fld) (v i k l : Nat) (h : ¬ (g.base = f.base ∧ g.lo = f.lo)) :
    (s.whenB b fun s => s.wr f v i).rd g k l = s.rd g k l := by
  cases b
  · rfl
  · exact State.rd_wr_other _ _ _ _ _ _ _ _ h

/-! ### The commits -/

theorem exec_condCommit (e : Nat) (s : State) : exec (.condCommit e) s = .next (if s.on F.COND_COMMIT_pending e then
    s.wr F.COND_FLAGS_cfg_refused 1 e else (s.wr F.COND_COMMIT_pending 1 e).updCond e fun c => { c with check := some (s.condShadow e) }) := by
  change execCondCommit e s = _
  rw [execCondCommit]
  split <;> rfl

theorem exec_palCommit (e : Nat) (s : State) : exec (.palCommit e) s = .next (if s.on F.PAL_COMMIT_pending e then
    s.wr F.PAL_FLAGS_cfg_refused 1 e
    else ((s.wr F.PAL_COMMIT_pending 1 e).updPal e fun p => { p with check := some (s.palShadow e) }).palSlots e) := by
  change execPalCommit e s = _
  rw [execPalCommit]
  split <;> rfl

theorem exec_viewCommit (v : Nat) (s : State) : exec (.viewCommit v) s = .next (if s.on F.VIEW_COMMIT_pending v then
    s.wr F.VIEW_FLAGS_cfg_refused 1 v
    else ((s.wr F.VIEW_COMMIT_pending 1 v).updView v fun p => { p with check := some (s.viewShadow v) }).viewSlots v) := by
  change execViewCommit v s = _
  rw [execViewCommit]
  split <;> rfl

/-- A second commit is refused: the flag alone is set. -/
theorem State.refusal_flag (s : State) (f : Fld) (i : Nat) (h : 1 % 2 ^ f.width = 1) :
    (s.wr f 1 i).rd f i = 1 ∧ s.Only (s.wr f 1 i) [(f, i)] :=
  ⟨(State.rd_wr_self ..).trans h, (State.Only.refl s _).wr f 1 i 0 (by simp)⟩

/-- Settles O25: a second commit is refused, and each check's end is one equation by what the set holds. -/
theorem settingsCommits : Obligations.SettingsCommits := by
  refine ⟨fun e v s => ⟨fun hp he => ?_, fun hp => ?_, fun hp he => ?_, fun hp => ?_, fun hp hv => ?_, fun hp => ?_,
    fun r hp hm he hr h0 hg => condCheck_of_good hp hm he hr h0 hg, fun r hp hm hr hg => condCheck_of_out_of_range hp hm hr hg,
    fun r hp hm hr hbig => condCheck_of_large_map hp hm hr hbig, fun r he hr hg hu => ?_, fun r hr hg => ?_, fun r hp hv hr hg hu hb ho => ?_,
    fun r hp hr hg => ?_⟩, fun i r s => ⟨exec_colourCommitCheckDone_of_pal, exec_colourCommitCheckDone_of_view⟩⟩
  · refine Does.of_exec (exec_condCommit e s) ?_
    rw [if_neg (Bool.eq_false_iff.mp hp)]
    refine ⟨State.rd_wr_self _ F.COND_COMMIT_pending 1 e 0, ?_, State.Only.same ((State.Only.refl s _).wr F.COND_COMMIT_pending 1 e 0 (by simp))⟩
    exact congrArg CondSt.check (State.condOf_updCond_self _ (by simpa using he))
  · refine Does.of_exec (exec_condCommit e s) ?_
    rw [if_pos hp]
    exact s.refusal_flag _ e rfl
  · refine Does.of_exec (exec_palCommit e s) ?_
    rw [if_neg (Bool.eq_false_iff.mp hp)]
    refine ⟨(State.rd_palSlots_other _ _ _ _ _ (by decide)).trans (State.rd_wr_self _ F.PAL_COMMIT_pending 1 e 0), ?_, State.Only.palSlots (State.Only.same
      ((State.Only.refl s _).wr F.PAL_COMMIT_pending 1 e 0 (by simp))) e (by simp) (by simp)⟩
    exact (congrArg PalSt.check (congrArg (fun l : List PalSt => l.getD e PalSt.init) (State.palSlots_pal ..))).trans
      (congrArg PalSt.check (State.palOf_updPal_self _ (by simpa using he)))
  · refine Does.of_exec (exec_palCommit e s) ?_
    rw [if_pos hp]
    exact s.refusal_flag _ e rfl
  · refine Does.of_exec (exec_viewCommit v s) ?_
    rw [if_neg (Bool.eq_false_iff.mp hp)]
    refine ⟨(State.rd_viewSlots_other _ _ _ _ _ (by decide)).trans (State.rd_wr_self _ F.VIEW_COMMIT_pending 1 v 0), ?_, State.Only.viewSlots (State.Only.same
      ((State.Only.refl s _).wr F.VIEW_COMMIT_pending 1 v 0 (by simp))) v (by simp) (by simp)⟩
    exact (congrArg ViewSt.check (congrArg (fun l : List ViewSt => l.getD v ViewSt.init) (State.viewSlots_views ..))).trans
      (congrArg ViewSt.check (State.view_updView_self _ (by simpa using hv)))
  · refine Does.of_exec (exec_viewCommit v s) ?_
    rw [if_pos hp]
    exact s.refusal_flag _ v rfl
  · refine Does.of_exec (exec_colourCommitCheckDone_of_pal hr) ?_
    rw [State.palChecked_of_good hg hu]
    have hof : ∀ u : State, (u.palSlots e).palOf e = u.palOf e := fun u =>
      congrArg (fun l : List PalSt => l.getD e PalSt.init) (State.palSlots_pal ..)
    rw [hof, State.palOf_updPal_self _ (by simpa using he), State.palOf_updPal_self _ he]
    exact ⟨rfl, rfl⟩
  · obtain ⟨empty, he⟩ := State.palChecked_of_out_of_range (s := s) hg
    refine Does.of_exec (exec_colourCommitCheckDone_of_pal hr) ?_
    rw [he]
    constructor
    · rw [State.rd_palSlots_other _ _ _ _ _ (by decide), State.rd_wr_other _ _ _ _ _ _ _ _ (by decide),
        State.rd_whenB_wr_other _ _ _ _ _ _ _ _ (by decide), State.rd_wr_self]
      rfl
    · rw [State.rd_palSlots_other _ _ _ _ _ (by decide), State.rd_wr_self]
      rfl
  · refine Does.of_exec (exec_colourCommitCheckDone_of_view hp hr) ?_
    rw [State.viewChecked_of_good hg hu hb ho]
    have hof : ∀ u : State, (u.viewSlots v).view v = u.view v := fun u =>
      congrArg (fun l : List ViewSt => l.getD v ViewSt.init) (State.viewSlots_views ..)
    rw [hof, State.view_updView_self _ (by simpa using hv), State.view_updView_self _ hv]
    exact ⟨rfl, rfl⟩
  · obtain ⟨empty, barred, he⟩ := State.viewChecked_of_out_of_range (s := s) hg
    refine Does.of_exec (exec_colourCommitCheckDone_of_view hp hr) ?_
    rw [he]
    constructor
    · rw [State.rd_viewSlots_other _ _ _ _ _ (by decide), State.rd_wr_other _ _ _ _ _ _ _ _ (by decide),
        State.rd_whenB_wr_other _ _ _ _ _ _ _ _ (by decide), State.rd_whenB_wr_other _ _ _ _ _ _ _ _ (by decide), State.rd_wr_self]
      rfl
    · rw [State.rd_viewSlots_other _ _ _ _ _ (by decide), State.rd_wr_self]
      rfl

end Sys2Proof.Machine
end

section
/-! PROOFS. Palette loads (spec/06, R207): a state that lists no easel's colour settings has no slot to mark as loading. -/
namespace Sys2Proof.Machine

set_option Elab.async false

/-- PAL_LOAD of slot 0 of easel 0, ready to begin: its fields are good (R207). -/
def loadCommand : Cmd :=
  { id := 0, ring := 0, cq := 0, tag := 0, opcode := 0x03, desc := List.replicate 33 0 ++ [0x85, 0x19] ++ List.replicate 29 0, stage := .ready,
    past := false, units := 0, count := 1, mute := false, gone := false, seen := .none }

/-- A plan with a PIPE region in each stack, the command at hand, and no easel's colour settings listed. -/
def coloursUnlisted : State :=
  { State.reset with
    pal := []
    hbm := { State.reset.hbm with plan := [⟨0, 0, 65536, 5, 0⟩, ⟨1, 0x1000000, 65536, 5, 0⟩] }
    host := { State.reset.host with cmds := [loadCommand] } }

/-- Refutes O27: the statement bounds the slot by the easel's list of slots and not the easel by the list of easels; where that list is
empty the settings read as they are after reset and nothing can be marked in them. -/
theorem not_palettes : ¬ Obligations.Palettes := by
  intro h
  obtain ⟨-, hload, -, -⟩ := h.1 0 loadCommand coloursUnlisted
  obtain ⟨t, ht, -, -, -, hloading⟩ := hload (by decide) ⟨by decide, by decide, by decide⟩ (by decide +kernel) (by decide +kernel) (by decide +kernel)
    (by decide +kernel) (by decide +kernel)
  obtain rfl : _ = t := Host.Outcome.next.inj ht
  exact absurd hloading (by decide +kernel)

end Sys2Proof.Machine
end

section
/-! PROOFS. The memory plan's commit and check (spec/08, R276 to R278). -/
namespace Sys2Proof.Machine

set_option Elab.async false

/-! ### The result of a check -/

/-- The rules of R277 are tried in their order: a plan that passes has met each of the first three. -/
theorem planResult_eq_zero {l : List Region} {barred : Bool} (h : (planResult l barred).1 = 0) : l.find? (fun r => !r.kindOk) = none
    ∧ l.find? (fun r => !r.placeOk) = none ∧ l.find? (fun r => (earlier l r).any r.overlaps) = none := by
  unfold planResult at h
  split at h
  · exact absurd h (by simp)
  next hk =>
    split at h
    · exact absurd h (by simp)
    next hp =>
      split at h
      · exact absurd h (by simp)
      next ho => exact ⟨hk, hp, ho⟩

theorem planResult_of_kind {l : List Region} {barred : Bool} (h : ∃ r ∈ l, r.kindOk = false) : (planResult l barred).1 = 1 := by
  obtain ⟨r, hr, hk⟩ := h
  obtain ⟨x, hx⟩ := Option.isSome_iff_exists.mp (List.find?_isSome.mpr ⟨r, hr, by simp [hk]⟩ : (l.find? fun r => !r.kindOk).isSome = true)
  simp only [planResult, hx]

/-- The code of a result fits its field. -/
theorem planResult_lt (l : List Region) (barred : Bool) : (planResult l barred).1 < 7 := by
  unfold planResult
  repeat' split
  all_goals simp

theorem planResult_accepts {l : List Region} {barred : Bool} (h : (planResult l barred).1 = 0) (r : Region) (hr : r ∈ l) :
    r.kindOk = true ∧ r.placeOk = true ∧ ∀ x ∈ l, x.entry < r.entry → r.overlaps x = false := by
  obtain ⟨hk, hp, ho⟩ := planResult_eq_zero h
  rw [List.find?_eq_none] at hk hp ho
  refine ⟨by simpa using hk r hr, by simpa using hp r hr, fun x hx hlt => ?_⟩
  have hn := ho r hr
  rw [List.any_eq_true] at hn
  exact Bool.eq_false_iff.mpr fun h => hn ⟨x, List.mem_filter.mpr ⟨hx, decide_eq_true hlt⟩, h⟩

/-! ### The commit and the end of the check -/

theorem exec_hbmPlanCheckDone {s : State} (h : s.planPending = true) : exec .hbmPlanCheckDone s
    = .next ((s.planDecide.updHbm fun h => { h with waits := [] }).each s.planDecide.hbm.waits State.actWaiting) := by
  change execHbmPlanCheckDone s = _
  simp [execHbmPlanCheckDone, h]

/-- The state once the check's result is written. -/
def State.planJudged (s : State) (l : List Region) (barred : Bool) : State :=
  (((s.wr F.HBM_PLAN_COMMIT_pending 0).updHbm fun h => { h with check := none }).wr F.HBM_PLAN_COMMIT_result (planResult l barred).1).wr
    F.HBM_PLAN_COMMIT_entry (planResult l barred).2

theorem State.planDecide_eq {s : State} {l : List Region} {barred : Bool} (h : s.hbm.check = some (l, barred)) :
    s.planDecide = if (planResult l barred).1 = 0 then ((s.planJudged l barred).wr F.HBM_PLAN_COMMIT_active 1).updHbm fun h => { h with plan := l }
      else ((s.planJudged l barred).wr F.HBM_PLAN_COMMIT_plan_bad 1).raise 0 Ev.HBM_PLAN_BAD [] := by
  simp only [State.planDecide, h]
  rfl

theorem State.planJudged_hbm (s : State) (l : List Region) (barred : Bool) : (s.planJudged l barred).hbm = { s.hbm with check := none } := by
  simp [State.planJudged]

theorem State.rd_planJudged_result (s : State) (l : List Region) (barred : Bool) :
    (s.planJudged l barred).rd F.HBM_PLAN_COMMIT_result = (planResult l barred).1 := by
  rw [State.planJudged, State.rd_wr_other _ _ _ _ _ _ _ _ (by decide), State.rd_wr_self]
  exact Nat.mod_eq_of_lt (Nat.lt_of_lt_of_le (planResult_lt l barred) (by decide))

theorem State.rd_planJudged_pending (s : State) (l : List Region) (barred : Bool) : (s.planJudged l barred).rd F.HBM_PLAN_COMMIT_pending = 0 := by
  rw [State.planJudged, State.rd_wr_other _ _ _ _ _ _ _ _ (by decide), State.rd_wr_other _ _ _ _ _ _ _ _ (by decide), State.updHbm_rd,
    State.rd_wr_self]
  rfl

theorem State.rd_planJudged_other (s : State) (l : List Region) (barred : Bool) (f : Fld) (i j : Nat)
    (h : f.base ≠ F.HBM_PLAN_COMMIT_pending.base) : (s.planJudged l barred).rd f i j = s.rd f i j := by
  rw [State.planJudged, State.rd_wr_base _ F.HBM_PLAN_COMMIT_entry _ _ _ _ _ _ h, State.rd_wr_base _ F.HBM_PLAN_COMMIT_result _ _ _ _ _ _ h,
    State.updHbm_rd, State.rd_wr_base _ F.HBM_PLAN_COMMIT_pending _ _ _ _ _ _ h]

/-- With nothing waiting for the check its end is the decision alone. -/
theorem exec_hbmPlanCheckDone_of_idle {l : List Region} {barred : Bool} {s : State} (hp : s.planPending = true) (hc : s.hbm.check = some (l, barred))
    (hw : s.hbm.waits = []) : exec .hbmPlanCheckDone s = .next (s.planDecide.updHbm fun h => { h with waits := [] }) := by
  have hwaits : s.planDecide.hbm.waits = [] := by
    rw [State.planDecide_eq hc]
    split
    · rw [State.updHbm_hbm, State.wr_hbm, State.planJudged_hbm]
      exact hw
    · rw [State.Apart.hbm.raise, State.wr_hbm, State.planJudged_hbm]
      exact hw
  rw [exec_hbmPlanCheckDone hp, hwaits]
  rfl

/-- A plan that passes is the plan in force. -/
theorem planCheck_of_passed {l : List Region} {barred : Bool} {s : State} (hp : s.planPending = true) (hc : s.hbm.check = some (l, barred))
    (hw : s.hbm.waits = []) (h0 : (planResult l barred).1 = 0) : Does .hbmPlanCheckDone s fun t => t.hbm.plan = l
      ∧ t.rd F.HBM_PLAN_COMMIT_active = 1 ∧ t.rd F.HBM_PLAN_COMMIT_pending = 0 ∧ t.rd F.HBM_PLAN_COMMIT_result = 0 := by
  refine Does.of_exec (exec_hbmPlanCheckDone_of_idle hp hc hw) ?_
  rw [State.planDecide_eq hc, if_pos h0]
  simp only [State.updHbm_rd, State.updHbm_hbm, State.rd_wr_self, true_and]
  rw [State.rd_wr_other _ _ _ _ _ _ _ _ (by decide), State.rd_wr_other _ _ _ _ _ _ _ _ (by decide), State.rd_planJudged_pending,
    State.rd_planJudged_result]
  exact ⟨rfl, rfl, h0⟩

/-- A plan that fails leaves the plan in force and is reported. -/
theorem planCheck_of_failed {l : List Region} {barred : Bool} {s : State} (hp : s.planPending = true) (hc : s.hbm.check = some (l, barred))
    (hw : s.hbm.waits = []) (h0 : (planResult l barred).1 ≠ 0) : Does .hbmPlanCheckDone s fun t => t.hbm.plan = s.hbm.plan
      ∧ t.rd F.HBM_PLAN_COMMIT_plan_bad = 1 ∧ t.rd F.HBM_PLAN_COMMIT_result = (planResult l barred).1 ∧ s.Raised t 0 Ev.HBM_PLAN_BAD [] := by
  refine Does.of_exec (exec_hbmPlanCheckDone_of_idle hp hc hw) ?_
  rw [State.planDecide_eq hc, if_neg h0]
  refine ⟨?_, ?_, ?_, State.Raised.of_same (t := (s.planJudged l barred).wr F.HBM_PLAN_COMMIT_plan_bad 1) ?_ (fun f hf => ?_) rfl⟩
  · rw [State.updHbm_hbm, State.Apart.hbm.raise, State.wr_hbm, State.planJudged_hbm]
  · rw [State.updHbm_rd, State.rd_raise_other _ _ _ _ _ _ _ (by decide), State.rd_wr_self]
    rfl
  · rw [State.updHbm_rd, State.rd_raise_other _ _ _ _ _ _ _ (by decide), State.rd_wr_other _ _ _ _ _ _ _ _ (by decide), State.rd_planJudged_result]
  · simp [State.planJudged]
  · rw [State.rd_wr_other _ _ _ _ _ _ _ _ (by revert f; decide), State.rd_planJudged_other _ _ _ _ _ _ (by revert f; decide)]

/-- Settles O32: the commit takes the entries as they stand, and the check's end is the decision followed by what waited for it. -/
theorem planCommit : Obligations.PlanCommit := by
  refine ⟨fun s => ⟨fun hp => ?_, fun hp => ?_, fun l barred hp hc hw h0 => planCheck_of_passed hp hc hw h0,
    fun l barred hp hc hw h0 => planCheck_of_failed hp hc hw h0, fun l barred h => planResult_of_kind h, fun l barred h r hr => planResult_accepts h r hr⟩,
    fun s hp => exec_hbmPlanCheckDone hp⟩
  · refine ⟨(s.wr F.HBM_PLAN_COMMIT_pending 1).updHbm fun h => { h with check := some (s.planEntries, s.planBarred) }, ?_, State.rd_wr_self .., rfl,
      State.Only.same ((State.Only.refl s _).wr F.HBM_PLAN_COMMIT_pending 1 0 0 (by simp))⟩
    change execHbmPlanCommit s = _
    simp [execHbmPlanCommit, hp]
  · change execHbmPlanCommit s = _
    simp [execHbmPlanCommit, hp]

end Sys2Proof.Machine
end

section
/-! PROOFS. Storage commands (spec/12): a command whose fields are out of range (R413). -/
namespace Sys2Proof.Machine

set_option Elab.async false

/-- A storage command that has begun. -/
theorem State.storCmd_of_waits {s : State} {id opcode : Nat} {c : Cmd} {ok : Cmd → Bool} (f : Cmd → State → State) (hu : s.afterUnmount id = false)
    (h : s.Waits id opcode c) : s.storCmd id opcode ok f = if ok c then f c (s.begun id) else (s.begun id).complete id St.STOR_BAD_FIELD := by
  rw [State.storCmd, if_neg (Bool.eq_false_iff.mp hu), State.startCmd_eq_begun _ h]

/-- A storage command with a field out of range is answered with that status, and nothing else is touched. -/
theorem Does.storCmd_refused {i : Instr} {s : State} {id opcode : Nat} {c : Cmd} {ok : Cmd → Bool} {f : Cmd → State → State} (hm : c.mute = false)
    (hu : s.afterUnmount id = false) (he : exec i s = .next (s.storCmd id opcode ok f)) (h : s.Waits id opcode c) (hok : ok c = false) :
    Does i s fun t => t.Answered c St.STOR_BAD_FIELD 0 0 ∧ s.Only t [] := by
  obtain ⟨ha, ho⟩ := State.complete_begun h hm St.STOR_BAD_FIELD 0 0 0
  refine Does.of_exec he ?_
  rw [State.storCmd_of_waits f hu h, if_neg (Bool.eq_false_iff.mp hok)]
  exact ⟨ha, ho []⟩

/-- TAKE_OPEN with good fields: the take opens, or the first check that fails answers it (R416, R417). -/
def takeOpenBegun (id : Nat) (c : Cmd) (s : State) : State :=
  let st := s.openStatus (c.b 16) (c.b 17 % 4) (bitOf (c.b 17) 2)
  if st = St.OK then s.openTake id (c.b 16) (c.b 17 % 4) (bitOf (c.b 17) 2) (c.w 20) else s.complete id st

theorem exec_takeOpen_of_turn {id : Nat} {s : State} (ht : s.takeTurn id = true) (hp : s.planPending = false) :
    exec (.takeOpen id) s = .next (s.storCmd id 0x10 takeOpenOk (takeOpenBegun id)) := by
  change execTakeOpen id s = _
  rw [execTakeOpen, if_neg (by simp [ht]), if_neg (Bool.eq_false_iff.mp hp)]
  rfl

/-- TAKE_CLOSE with good fields (R419): an unknown take is answered, a known one takes note of the command. -/
def takeCloseBegun (id : Nat) (c : Cmd) (s : State) : State :=
  let e := c.b 16
  let st := s.rd F.TAKE_STATUS_state e
  if st = 0 ∨ s.rd F.TAKE_NUMBER_value e ≠ c.w 20 then s.complete id St.TAKE_UNKNOWN
  else if (s.take e).closeCmds.contains id then s
  else
    let t := s.updTake e fun x => { x with closeCmds := x.closeCmds ++ [id] }
    if st = 2 then t.startClose e else if st = 4 then t.closeTake e (s.rd F.TAKE_STATUS_end_status e) else t

theorem exec_takeClose_of_turn {id : Nat} {s : State} (ht : s.takeTurn id = true) :
    exec (.takeClose id) s = .next (s.storCmd id 0x11 takeCloseOk (takeCloseBegun id)) := by
  change execTakeClose id s = _
  rw [execTakeClose, if_neg (by simp [ht])]
  rfl

/-- Settles O46: each of the commands checks its fields before anything else, so the refusal is the same for all of them. -/
theorem storageCommandsCheckTheirFields : Obligations.StorageCommandsCheckTheirFields := by
  intro id c s hm hu
  exact ⟨fun h ht hp hok => Does.storCmd_refused hm hu (exec_takeOpen_of_turn ht hp) h hok,
    fun h ht hok => Does.storCmd_refused hm hu (exec_takeClose_of_turn ht) h hok,
    fun h hok => Does.storCmd_refused hm hu rfl h hok, fun h hok => Does.storCmd_refused hm hu rfl h hok,
    fun data h hok => Does.storCmd_refused hm hu rfl h hok, fun h hok => Does.storCmd_refused hm hu rfl h hok,
    fun h hok => Does.storCmd_refused hm hu rfl h hok, fun h hok => Does.storCmd_refused hm hu rfl h hok,
    fun h hok => Does.storCmd_refused hm hu rfl h hok, fun h hok => Does.storCmd_refused hm hu rfl h hok,
    fun h hok => Does.storCmd_refused hm hu rfl h hok⟩

end Sys2Proof.Machine
end

section
/-! PROOFS. Descriptor decoding (spec/11, R390): a descriptor of a queue that is not enabled, in a state whose next number a command bears. -/
namespace Sys2Proof.Machine

set_option Elab.async false

/-- A NOP outstanding under number 0, which still holds what an earlier decode saw. -/
def numberedCommand : Cmd :=
  { id := 0, ring := 0, cq := 0, tag := 0, opcode := 0x00, desc := List.replicate 64 0, stage := .running, past := false, units := 0, count := 1,
    mute := false, gone := false, seen := .frames 1 }

/-- Ring 0 runs with one descriptor fetched, of completion queue 0, which is not enabled; the next number, 0, is that of a command outstanding. -/
def numberTaken : State :=
  ((State.reset.wr F.RING_SQ_CFG_enable 1).wr F.RING_SQ_STATUS_state 2).updHost fun h =>
    { h with cmds := [numberedCommand], nextId := 0, cursor := 0, served := 0,
             rings := updAt h.rings 0 fun x => { x with fetched := [List.replicate 64 0] } }

/-- Refutes O42: the clause of a queue that is not enabled leaves out that no command bears the next number; such a command is taken for the
one decoded, and what it saw at its own decode is lost. -/
theorem not_decodingAndFences : ¬ Obligations.DecodingAndFences := by
  intro h
  obtain ⟨-, -, hbad⟩ := (h.1 0 (List.replicate 64 0) [] numberTaken).1 (by decide +kernel) (by decide +kernel) (by decide +kernel) (by decide +kernel)
    (by decide +kernel) (by decide +kernel)
  obtain ⟨t, ht, hcmds, -⟩ := hbad (by decide +kernel)
  obtain rfl : _ = t := Host.Outcome.next.inj ht
  exact absurd hcmds (by decide +kernel)

end Sys2Proof.Machine
end

section
/-! PROOFS. Register reads and writes (spec/20, R9, R640 to R643, R669). -/
namespace Sys2Proof.Machine

set_option Elab.async false

/-! ### Changes of status alone -/

/-- Nothing of HBM and no field that only the host sets differs. -/
structure State.StatusOnly (s t : State) : Prop where
  mem : t.mem = s.mem
  cfg : t.cfg = s.cfg

theorem State.StatusOnly.refl (s : State) : s.StatusOnly s := ⟨rfl, rfl⟩

theorem State.StatusOnly.same {s t u : State} (h : s.StatusOnly t) (hm : u.mem = t.mem := by rfl) (hc : u.cfg = t.cfg := by rfl) : s.StatusOnly u :=
  ⟨hm.trans h.mem, hc.trans h.cfg⟩

theorem State.StatusOnly.wr {s t : State} (h : s.StatusOnly t) {f : Fld} (hf : f.acc.isCfg = false) (v i j : Nat) : s.StatusOnly (t.wr f v i j) :=
  ⟨(State.wr_mem ..).trans h.mem, by
    rw [State.wr, if_neg (Bool.eq_false_iff.mp hf)]
    exact h.cfg⟩

theorem State.StatusOnly.ite {s t u : State} {c : Prop} [Decidable c] (ht : s.StatusOnly t) (hu : s.StatusOnly u) :
    s.StatusOnly (if c then t else u) := by
  split
  · exact ht
  · exact hu

theorem State.StatusOnly.each {α : Type} {s t : State} {f : State → α → State} (h : s.StatusOnly t) (l : List α)
    (hf : ∀ u x, s.StatusOnly u → s.StatusOnly (f u x)) : s.StatusOnly (t.each l f) := by
  induction l generalizing t with
  | nil => exact h
  | cons x l ih => exact ih (hf t x h)

theorem State.StatusOnly.flagCount {s t : State} (h : s.StatusOnly t) {a b : Fld} (ha : a.acc.isCfg = false) (hb : b.acc.isCfg = false) (i : Nat) :
    s.StatusOnly (t.flagCount a b i) := (h.wr ha 1 i 0).wr hb _ i 0

theorem State.StatusOnly.raise {s t : State} (h : s.StatusOnly t) (half code : Nat) (p : List Byte) : s.StatusOnly (t.raise half code p) := by
  obtain ⟨r, -, e⟩ := t.raise_eq half code p
  rw [e]
  have hn : s.StatusOnly (t.wr F.GLB_EV_SEQ_next (t.rd F.GLB_EV_SEQ_next + 1)).tick := (h.wr (f := F.GLB_EV_SEQ_next) rfl
    (t.rd F.GLB_EV_SEQ_next + 1) 0 0).same
  refine .ite ?_ hn.same
  exact (hn.flagCount (a := F.RING_FLAGS_evq_lost) (b := F.RING_EVQ_LOST_count) rfl rfl 0).same

/-- A field the host alone sets reads as before a change of status. -/
theorem State.StatusOnly.rd {s t : State} (h : s.StatusOnly t) {f : Fld} (hf : f.acc.isCfg = true) (i j : Nat) : t.rd f i j = s.rd f i j := by
  rw [State.rd, State.rd, if_pos hf, if_pos hf, h.cfg]

/-! ### What a write sets off -/

theorem State.statusOnly_outAcquire {s t : State} (h : s.StatusOnly t) (o : Nat) : s.StatusOnly (t.outAcquire o) := by
  have hs : s.StatusOnly ((t.wr F.RAS_OUT_STATUS_lock_state 2 o).updOut o fun x => { x with starts := 0, pulses := 0 }) :=
    (h.wr (f := F.RAS_OUT_STATUS_lock_state) rfl 2 o 0).same
  exact .ite hs ((hs.flagCount rfl rfl o).raise ..)

theorem State.statusOnly_outLost {s t : State} (h : s.StatusOnly t) (o : Nat) : s.StatusOnly (t.outLost o) :=
  .ite (((h.wr rfl 4 o 0).flagCount rfl rfl o).raise ..) h

theorem State.statusOnly_rasPtp {s t : State} (h : s.StatusOnly t) (locked : Bool) : s.StatusOnly (t.rasPtp locked) :=
  h.each _ fun _ o hu => .ite (.ite (State.statusOnly_outAcquire hu o) hu) (State.statusOnly_outLost hu o)

theorem State.statusOnly_audPtp {s t : State} (h : s.StatusOnly t) (locked : Bool) : s.StatusOnly (t.audPtp locked) := by
  refine .ite (.ite (.ite ?_ h) (.ite (((h.wr rfl 4 0 0).flagCount rfl rfl 0).raise ..) h)) h
  exact (h.wr (f := F.AUD_MASTER_STATUS_state) rfl 2 0 0).same

theorem State.statusOnly_ptpTo {s t : State} (h : s.StatusOnly t) (st : Nat) : s.StatusOnly (t.ptpTo st) := by
  have ht : s.StatusOnly ((t.wr F.NET_PTP_STATUS_state st).updNet fun x => { x with offsets := [], syncs := 0 }) :=
    (h.wr (f := F.NET_PTP_STATUS_state) rfl st 0 0).same
  exact .ite ht (State.statusOnly_audPtp (State.statusOnly_rasPtp ht _) _)

theorem State.statusOnly_masterStart {s t : State} (h : s.StatusOnly t) : s.StatusOnly t.masterStart := by
  have ht : s.StatusOnly (t.updAud fun a => { a with starts := 0, pulses := 0, count := 0 }) := h.same
  exact .ite (ht.wr rfl 5 0 0) (.ite (ht.wr rfl 2 0 0) (ht.wr rfl 1 0 0))

theorem State.statusOnly_ptpEnable {s t : State} (h : s.StatusOnly t) (on : Bool) : s.StatusOnly (t.ptpEnable on) := by
  refine .ite (.ite (State.statusOnly_ptpTo (State.StatusOnly.wr ?_ rfl 0 0 0) 1) h) (State.statusOnly_ptpTo h 0)
  exact h.same

theorem State.statusOnly_portPower {s t : State} (h : s.StatusOnly t) (p : Nat) : s.StatusOnly (t.portPower p) := by
  refine .ite (State.StatusOnly.raise (State.StatusOnly.same (t := (t.setPort p 1).wr F.MAG_PORT_STATUS_pwr_en (b2n true) p) ?_) _ _ _) h
  exact (h.wr (f := F.MAG_PORT_STATUS_state) rfl 1 p 0).wr rfl _ p 0

theorem State.statusOnly_packStatus {s t : State} (h : s.StatusOnly t) (k : Nat) : s.StatusOnly (t.packStatus k) :=
  ((h.wr rfl _ k 0).wr rfl _ k 0).wr rfl _ k 0

theorem State.statusOnly_poolStatus {s t : State} (h : s.StatusOnly t) (k : Nat) : s.StatusOnly (t.poolStatus k) := by
  have ht := (h.wr (f := F.VCD_POOL_STATUS_held) rfl (t.poolOf k).length k 0).wr (f := F.VCD_POOL_STATUS_run_4k) rfl (listMax ((freeRuns
    (t.pair F.VCD_POOL_BASE_LO_value F.VCD_POOL_BASE_HI_value k) (t.rd F.VCD_POOL_SIZE_value k * 4096) (t.poolOf k)).map Prod.snd) / 4096) k 0
  exact ht.each _ fun u x hu => .ite (hu.wr rfl _ x 0) hu

/-- Beside its fields a write sets status alone. -/
theorem State.statusOnly_writeActs (old s : State) (b i v : Nat) : s.StatusOnly (State.writeActs old s b i v) := by
  have h := State.StatusOnly.refl s
  unfold State.writeActs
  refine .ite (State.statusOnly_portPower h i) (.ite (State.statusOnly_packStatus h i) (.ite (State.statusOnly_poolStatus h i)
    (.ite ?_ (.ite h.same (.ite ?_ (.ite h.same h))))))
  · exact .ite h (.ite (State.statusOnly_ptpEnable h _) h)
  · exact .ite h (.ite (State.statusOnly_masterStart h) h)

/-! ### The fields of one register -/

/-- Every field of a register that the map assigns lies in that register, no two at the same place. -/
theorem allRegs_apart : ∀ r ∈ allRegs, r.fields.Pairwise fun x y => ¬ (x.base = y.base ∧ x.lo = y.lo) := by
  decide +kernel

theorem findReg_mem {off i j : Nat} {r : Reg} (h : findReg off = some (r, i, j)) : r ∈ allRegs := by
  obtain ⟨x, hx, hi⟩ := List.exists_of_findSome?_eq_some h
  obtain ⟨p, -, hp⟩ := Option.map_eq_some_iff.mp hi
  obtain rfl : x = r := congrArg Prod.fst hp
  exact hx

/-- In a loop over fields at different places whose turns each touch their own field alone, a field's last reading is that of its turn. -/
theorem State.rd_each_fields {g : State → Fld → State} {i j : Nat} (hg : ∀ t x a, ¬ (a.base = x.base ∧ a.lo = x.lo) → (g t x).rd a i j = t.rd a i j)
    (s : State) {l : List Fld} (hl : l.Pairwise fun x y => ¬ (x.base = y.base ∧ x.lo = y.lo)) {f : Fld} (hf : f ∈ l) :
    ∃ u : State, u.rd f i j = s.rd f i j ∧ (s.each l g).rd f i j = (g u f).rd f i j := by
  induction l generalizing s with
  | nil => cases hf
  | cons x l ih =>
    obtain ⟨hx, hl⟩ := List.pairwise_cons.mp hl
    rcases List.mem_cons.mp hf with rfl | hf
    · refine ⟨s, rfl, ?_⟩
      have hrest : ∀ (l : List Fld) (t : State), (∀ y ∈ l, ¬ (f.base = y.base ∧ f.lo = y.lo)) → (t.each l g).rd f i j = t.rd f i j := by
        intro l
        induction l with
        | nil => exact fun _ _ => rfl
        | cons y l ih => exact fun t h => (ih (g t y) fun z hz => h z (List.mem_cons_of_mem _ hz)).trans (hg t y f (h y (List.mem_cons_self ..)))
      exact hrest l (g s f) hx
    · obtain ⟨u, hu, he⟩ := ih (g s x) hl hf
      exact ⟨u, hu.trans (hg s x f fun e => hx f hf ⟨e.1.symm, e.2.symm⟩), he⟩

/-! ### Writes -/

theorem exec_registerWrite {off v i j : Nat} {r : Reg} {s : State} (h : findReg off = some (r, i, j)) (ho : rowOfItsOwn r.base v = false)
    (hp : s.needsPlan r.base i v = true → s.planPending = false) : exec (.registerWrite off v) s = .next (s.regWrite r i j v) := by
  have hn : (s.needsPlan r.base i v && s.planPending) = false := by
    cases hb : s.needsPlan r.base i v
    · rfl
    · exact hp hb
  change execRegisterWrite off v s = _
  simp only [execRegisterWrite, h, ho, hn, Bool.false_eq_true, if_false]

theorem findReg_paceReq : findReg F.GLB_PACE_REQ_code.base = some (R.GLB_PACE_REQ, 0, 0) := by decide +kernel

/-- GLB_PACE_REQ holds no field that a write sets, and a write of it sets nothing off. -/
theorem exec_registerWrite_paceReq (v : Nat) (s : State) : exec (.registerWrite F.GLB_PACE_REQ_code.base v) s = .next s := by
  rw [exec_registerWrite findReg_paceReq rfl fun h =>
    absurd h (Bool.eq_false_iff.mp (rfl : s.needsPlan R.GLB_PACE_REQ.base 0 v = false))]
  rfl

theorem State.regWrite_of_refused {s : State} {r : Reg} {i j v : Nat}
    (h : (s.refusesA r.base i v || s.refusesB r.base i v || s.refusesC r.base i v) = true) : s.regWrite r i j v = s.refuseFlag r.base i := by
  simp only [State.regWrite, h, if_true]

theorem State.regWrite_of_accepted {s : State} {r : Reg} {i j v : Nat}
    (h : (s.refusesA r.base i v || s.refusesB r.base i v || s.refusesC r.base i v) = false) :
    s.regWrite r i j v = State.writeActs s (s.writeFields r i j v) r.base i v := by
  simp only [State.regWrite, h, Bool.false_eq_true, if_false]

/-- The turn of one field in an accepted write (R9). -/
def State.writeField (i j v : Nat) (s : State) (f : Fld) : State :=
  if f.acc = .rw then (if f = F.RAS_OUT_CTRL_quad ∧ i ≠ 0 then s else s.wr f (f.of v) i j)
  else if f = F.RING_EVQ_CFG_enable ∨ f = F.SES_MAC_value then s.wr f (f.of v) i j
  else s

theorem State.writeFields_eq (s : State) (r : Reg) (i j v : Nat) : s.writeFields r i j v = s.each r.fields (State.writeField i j v) := rfl

/-- The turn of a field sets that field or nothing. -/
theorem State.writeField_cases (s : State) (i j v : Nat) (f : Fld) : s.writeField i j v f = s ∨ s.writeField i j v f = s.wr f (f.of v) i j := by
  unfold State.writeField
  split
  · split
    · exact .inl rfl
    · exact .inr rfl
  · split
    · exact .inr rfl
    · exact .inl rfl

theorem State.writeFields_mem (s : State) (r : Reg) (i j v : Nat) : (s.writeFields r i j v).mem = s.mem := by
  refine State.each_of_kept State.mem (fun t f => ?_) s r.fields
  rcases t.writeField_cases i j v f with h | h
  · exact congrArg State.mem h
  · exact (congrArg State.mem h).trans (State.wr_mem ..)

/-- An accepted write sets each RW field to its bits (R9). -/
theorem State.rd_writeFields {s : State} {r : Reg} {i j v : Nat} {f : Fld} (hr : r ∈ allRegs) (hf : f ∈ r.fields) (ha : f.acc = .rw)
    (hq : f ≠ F.RAS_OUT_CTRL_quad) : (s.writeFields r i j v).rd f i j = f.of v := by
  obtain ⟨u, -, he⟩ := State.rd_each_fields (i := i) (j := j) (g := State.writeField i j v) (fun t x a h => by
    rcases t.writeField_cases i j v x with e | e
    · rw [e]
    · rw [e, State.rd_wr_other _ _ _ _ _ _ _ _ h]) s (allRegs_apart r hr) hf
  rw [State.writeFields_eq, he, State.writeField, if_pos ha, if_neg fun e => hq e.1, State.rd_wr_self]
  exact Nat.mod_mod ..

/-! ### Reads -/

/-- The turn of one field in the clearing that a read does (R641). -/
def State.clearField (i j : Nat) (s : State) (f : Fld) : State :=
  match f.acc with
  | .rc => s.wr f 0 i j
  | .rcPeak base lo => s.wr f (match fieldFor base lo with | some g => s.rd g i j | none => 0) i j
  | _ => s

theorem State.clearRc_eq (s : State) (r : Reg) (i j : Nat) : s.clearRc r i j = s.each r.fields (State.clearField i j) := rfl

theorem State.statusOnly_clearField {s t : State} (h : s.StatusOnly t) (i j : Nat) (f : Fld) : s.StatusOnly (t.clearField i j f) := by
  unfold State.clearField
  split
  next ha => exact h.wr (by rw [ha]; rfl) 0 i j
  next ha => exact h.wr (by rw [ha]; rfl) _ i j
  next => exact h

theorem State.clearField_out (s : State) (i j : Nat) (f : Fld) : (s.clearField i j f).out = s.out := by
  unfold State.clearField
  split <;> simp

theorem State.rd_clearField_other (i j : Nat) (t : State) (x a : Fld) (h : ¬ (a.base = x.base ∧ a.lo = x.lo)) :
    (t.clearField i j x).rd a i j = t.rd a i j := by
  unfold State.clearField
  split
  · exact State.rd_wr_other _ _ _ _ _ _ _ _ h
  · exact State.rd_wr_other _ _ _ _ _ _ _ _ h
  · rfl

theorem State.statusOnly_clearRc {s t : State} (h : s.StatusOnly t) (r : Reg) (i j : Nat) : s.StatusOnly (t.clearRc r i j) :=
  h.each r.fields fun _ f hu => State.statusOnly_clearField hu i j f

theorem State.clearRc_out (s : State) (r : Reg) (i j : Nat) : (s.clearRc r i j).out = s.out :=
  State.each_of_kept State.out (fun t f => t.clearField_out i j f) s r.fields

/-- A read clears the RC fields of its register (R641). -/
theorem State.rd_clearRc {s : State} {r : Reg} {i j : Nat} {f : Fld} (hr : r ∈ allRegs) (hf : f ∈ r.fields) (ha : f.acc = .rc) :
    (s.clearRc r i j).rd f i j = 0 := by
  obtain ⟨u, -, he⟩ := State.rd_each_fields (State.rd_clearField_other i j) s (allRegs_apart r hr) hf
  rw [State.clearRc_eq, he, State.clearField, ha]
  exact (State.rd_wr_self ..).trans (Nat.zero_mod _)

theorem exec_rcFieldRead_of_plain {off i j : Nat} {r : Reg} {s : State} (h : findReg off = some (r, i, j))
    (hl : latchGroups.any (fun g => g.1 == r.base) = false) (hn : isLater r.base = false) :
    exec (.rcFieldRead off) s = .next ((s.emit (.readData off (s.readWord r i j))).clearRc r i j) := by
  change execRcFieldRead off s = _
  simp only [execRcFieldRead, h, hl, hn, Bool.false_eq_true, if_false]

/-- A later word of a latched group reads what its first word's read latched (R643). -/
theorem exec_rcFieldRead_of_later {off i j : Nat} {r : Reg} {s : State} (h : findReg off = some (r, i, j))
    (hl : latchGroups.any (fun g => g.1 == r.base) = false) (hn : isLater r.base = true) :
    exec (.rcFieldRead off) s = .next (s.emit (.readData off (s.latch.get ⟨off, 0, 0, 0⟩ 0))) := by
  change execRcFieldRead off s = _
  simp only [execRcFieldRead, h, hl, hn, Bool.false_eq_true, if_false, if_true]

theorem exec_latchedGroupRead_of_group {off i j : Nat} {r : Reg} {g : Nat × List Nat} {s : State} (h : findReg off = some (r, i, j))
    (hg : latchGroups.find? (fun g => g.1 == r.base) = some g) (h1 : r.base ≠ F.NET_TXTS0_valid.base) (h2 : r.base ≠ F.NET_PTP_TIME_S_LO_value.base) :
    exec (.latchedGroupRead off) s = .next
      ((((s.emit (.readData off (s.readWord r i j))).latchWords off g.2).clearRc r i j).freeLatch r.base i) := by
  change execLatchedGroupRead off s = _
  simp only [execLatchedGroupRead, h, hg, if_neg h1, if_neg h2]

theorem exec_latchedGroupRead_of_time {off i j : Nat} {r : Reg} {s : State} (h : findReg off = some (r, i, j))
    (h2 : r.base = F.NET_PTP_TIME_S_LO_value.base) : exec (.latchedGroupRead off) s = .next
      ((((s.latchSet (off + 4) (ptpSeconds s.now / 4294967296 % 65536)).latchSet (off + 8) (ptpNanos s.now)).emit
        (.readData off (ptpSeconds s.now % 4294967296))).tick) := by
  have hg : latchGroups.find? (fun g => g.1 == r.base) = some (F.NET_PTP_TIME_S_LO_value.base, [4, 8]) := by
    rw [h2]
    rfl
  change execLatchedGroupRead off s = _
  simp only [execLatchedGroupRead, h, hg]
  rw [if_neg (by rw [h2]; decide), if_pos h2]

theorem State.statusOnly_latchWords {s t : State} (h : s.StatusOnly t) (off : Nat) (l : List Nat) :
    s.StatusOnly (t.latchWords off l) ∧ (t.latchWords off l).out = t.out := by
  unfold State.latchWords
  constructor
  · refine h.each l fun u k hu => ?_
    split
    · exact State.statusOnly_clearRc (State.StatusOnly.same hu) _ _ _
    · exact hu
  · refine State.each_of_kept State.out (fun u k => ?_) t l
    split
    · exact State.clearRc_out ..
    · rfl

theorem State.statusOnly_freeLatch {s t : State} (h : s.StatusOnly t) (b i : Nat) :
    s.StatusOnly (t.freeLatch b i) ∧ (t.freeLatch b i).out = t.out := by
  unfold State.freeLatch
  constructor
  · exact .ite (h.wr rfl 0 i 0) (.ite (h.wr rfl 0 i 0) (.ite h.same h))
  · repeat' split
    all_goals simp [State.updStack]

/-! ### Flags cleared by writing one -/

/-- The turn of one field in a write of flags (R642). -/
def State.clearFlag (i j v : Nat) (s : State) (f : Fld) : State :=
  if f.acc = .w1c then s.wr f (s.rd f i j - (s.rd f i j).land (f.of v)) i j else s

theorem exec_w1cFlagClear {off v i j : Nat} {r : Reg} {s : State} (h : findReg off = some (r, i, j)) (hl : s.regLive r.base i = true) :
    exec (.w1cFlagClear off v) s = .next (s.each r.fields (State.clearFlag i j v)) := by
  change execW1cFlagClear off v s = _
  simp only [execW1cFlagClear, h, hl, Bool.not_true, Bool.false_eq_true, if_false]
  rfl

theorem State.statusOnly_clearFlags (s : State) (r : Reg) (i j v : Nat) : s.StatusOnly (s.each r.fields (State.clearFlag i j v)) := by
  refine (State.StatusOnly.refl s).each r.fields fun u f hu => ?_
  unfold State.clearFlag
  split
  next ha => exact hu.wr (by rw [ha]; rfl) _ i j
  next => exact hu

/-- A flag written as 1 is cleared, and one written as 0 stays. -/
theorem sub_land_mod {x b : Nat} (hx : x < 2) (hb : b < 2) : (x - x.land b) % 2 ^ 1 = if b = 1 then 0 else x := by
  obtain rfl | rfl : x = 0 ∨ x = 1 := by omega
  · rw [Nat.zero_sub]
    split <;> rfl
  · obtain rfl | rfl : b = 0 ∨ b = 1 := by omega
    · rfl
    · rfl

theorem State.rd_clearFlags {s : State} {r : Reg} {i j v : Nat} {f : Fld} (hr : r ∈ allRegs) (hf : f ∈ r.fields) (ha : f.acc = .w1c)
    (hw : f.width = 1) (hx : s.rd f i j < 2) : (s.each r.fields (State.clearFlag i j v)).rd f i j = if f.of v = 1 then 0 else s.rd f i j := by
  obtain ⟨u, hu, he⟩ := State.rd_each_fields (i := i) (j := j) (g := State.clearFlag i j v) (fun t x a h => by
    unfold State.clearFlag
    split
    · exact State.rd_wr_other _ _ _ _ _ _ _ _ h
    · rfl) s (allRegs_apart r hr) hf
  have hb : f.of v < 2 := by
    rw [Fld.of, hw]
    exact Nat.mod_lt _ (by decide)
  rw [he, State.clearFlag, if_pos ha, State.rd_wr_self, hu, hw]
  exact sub_land_mod hx hb

/-- Settles O38: a write is refused whole or sets its fields, and a read clears and latches, field by field of one register. -/
theorem registersAreReadAndWritten : Obligations.RegistersAreReadAndWritten := by
  refine ⟨fun off v i j r s => ⟨fun h => ⟨?_, ?_⟩, fun h ho hp href => ?_, fun _ hoff => hoff ▸ exec_registerWrite_paceReq v s,
    fun f hf h ho hp hacc ha hq => ?_, fun f hf h hl ha hw hx => ?_, fun h hl hn => ?_, fun g h hg h1 h2 => ?_⟩, fun off v i j r s h =>
    ⟨fun ho hp => exec_registerWrite h ho hp, fun ho hn hp => ?_, fun hl hn => exec_rcFieldRead_of_plain h hl hn,
      fun hn hl => exec_rcFieldRead_of_later h hl hn, fun g hg h1 h2 => exec_latchedGroupRead_of_group h hg h1 h2,
      fun h2 => exec_latchedGroupRead_of_time h h2, fun hl => exec_w1cFlagClear h hl, fun hl => ?_⟩⟩
  · change execRegisterWrite off v s = _
    simp only [execRegisterWrite, h]
  · change execRcFieldRead off s = _
    simp only [execRcFieldRead, h]
  · rw [exec_registerWrite h ho hp, State.regWrite_of_refused href]
  · refine Does.of_exec (exec_registerWrite h ho hp) ?_
    rw [State.regWrite_of_accepted hacc]
    have hst := State.statusOnly_writeActs s (s.writeFields r i j v) r.base i v
    exact ⟨(hst.rd (by rw [ha]; rfl) i j).trans (State.rd_writeFields (findReg_mem h) hf ha hq), hst.mem.trans (State.writeFields_mem ..)⟩
  · have hst := s.statusOnly_clearFlags r i j v
    exact Does.of_exec (exec_w1cFlagClear h hl) ⟨State.rd_clearFlags (findReg_mem h) hf ha hw hx, hst.mem, hst.cfg⟩
  · have hst := State.statusOnly_clearRc (s := s) (t := s.emit (.readData off (s.readWord r i j))) (State.StatusOnly.refl s).same r i j
    exact Does.of_exec (exec_rcFieldRead_of_plain h hl hn)
      ⟨State.clearRc_out .., hst.mem, hst.cfg, fun f hf ha => State.rd_clearRc (findReg_mem h) hf ha⟩
  · obtain ⟨hw, hwo⟩ := State.statusOnly_latchWords (s := s) (t := s.emit (.readData off (s.readWord r i j))) (State.StatusOnly.refl s).same off g.2
    obtain ⟨hst, hout⟩ := State.statusOnly_freeLatch (State.statusOnly_clearRc hw r i j) r.base i
    exact Does.of_exec (exec_latchedGroupRead_of_group h hg h1 h2) ⟨hout.trans ((State.clearRc_out ..).trans hwo), hst.mem, hst.cfg⟩
  · change execRegisterWrite off v s = _
    simp only [execRegisterWrite, h, ho, hn, hp, Bool.and_self, Bool.false_eq_true, if_false, if_true]
  · change execW1cFlagClear off v s = _
    simp only [execW1cFlagClear, h, hl, Bool.not_false, if_true]

end Sys2Proof.Machine
end

section
/-! PROOFS. The black estimate and the calibration runs (spec/05, R165, R169, R184 to R189). -/
namespace Sys2Proof.Machine

set_option Elab.async false

/-! ### The runs of a target -/

theorem State.calRuns_setRuns_easel {s : State} {kind e : Nat} (f : List CalRun → List CalRun) (hk : easelKind kind = true) (he : e < s.cond.length) :
    (s.setRuns kind e f).calRuns kind e = f (s.calRuns kind e) := by
  simp only [State.setRuns, State.calRuns, hk, if_true]
  rw [State.condOf_updCond_self _ he]

theorem State.calRuns_setRuns_half {s : State} {kind e : Nat} (f : List CalRun → List CalRun) (hk : easelKind kind = false)
    (he : e < s.condHalf.length) : (s.setRuns kind e f).calRuns kind e = f (s.calRuns kind e) := by
  simp only [State.setRuns, State.calRuns, hk, Bool.false_eq_true, if_false]
  rw [updAt_getD_self _ _ _ _ he]

/-- The runs are held with the settings of the easels and with the halves. -/
theorem State.calRuns_congr {s t : State} (hc : t.cond = s.cond) (hh : t.condHalf = s.condHalf) (kind e : Nat) : t.calRuns kind e = s.calRuns kind e := by
  simp only [State.calRuns, State.condOf, hc, hh]

theorem State.Apart.condHalf : State.Apart State.condHalf := ⟨State.wr_condHalf, fun _ => rfl, fun _ _ _ => rfl⟩

theorem State.only_setRuns (s : State) (kind e : Nat) (f : List CalRun → List CalRun) (l : List (Fld × Nat)) : s.Only (s.setRuns kind e f) l :=
  .ite (State.Only.refl s l).same (State.Only.refl s l).same

theorem State.setRuns_host (s : State) (kind e : Nat) (f : List CalRun → List CalRun) : (s.setRuns kind e f).host = s.host := by
  unfold State.setRuns
  split <;> rfl

theorem State.halfRunning_condHalf (s : State) (kind e : Nat) : (s.halfRunning kind e).condHalf = s.condHalf := by
  unfold State.halfRunning
  split
  · rfl
  · exact State.wr_condHalf ..

theorem State.halfRunning_cond (s : State) (kind e : Nat) : (s.halfRunning kind e).cond = s.cond := by
  unfold State.halfRunning
  split
  · rfl
  · exact State.wr_cond ..

theorem State.calRuns_halfRunning (s : State) (kind e k : Nat) : (s.halfRunning kind e).calRuns k e = s.calRuns k e :=
  State.calRuns_congr (State.halfRunning_cond ..) (State.halfRunning_condHalf ..) k e

/-- The running flag of a half follows its runs. -/
theorem State.halfRunning_of_half (s : State) {kind : Nat} (e : Nat) (hk : easelKind kind = false) :
    s.halfRunning kind e = s.wr F.COND_HALF_STATUS_running (b2n ((s.calRuns kind e).any CalRun.running)) e := by
  rw [State.halfRunning, if_neg (Bool.eq_false_iff.mp hk)]

theorem State.calStamp_kept {β : Type} (π : State → β) (h : State.Apart π) (hl : ∀ (s : State) (k n : Nat) (l : List Nat), π (s.ledgerAdd k n l) = π s)
    (s : State) (kind e : Nat) : π (s.calStamp kind e) = π s := by
  unfold State.calStamp
  extract_lets sec ns free t runs
  rw [hl, h.tick]
  unfold t State.bump
  split
  · simp only [h.wr]
  · simp only [h.wr]

/-! ### The end of a run -/

/-- A run has left its target, which is stamped. -/
def State.calLeft (s : State) (kind e : Nat) : State :=
  ((s.setRuns kind e fun l => l.filter fun x => x.kind ≠ kind).halfRunning kind e).calStamp kind e

theorem State.calLeft_cond (s : State) (kind e : Nat) : (s.calLeft kind e).cond = (s.setRuns kind e fun l => l.filter fun x => x.kind ≠ kind).cond :=
  (State.calStamp_kept State.cond State.Apart.cond (fun _ _ _ _ => rfl) _ _ _).trans (State.halfRunning_cond ..)

theorem State.calLeft_condHalf (s : State) (kind e : Nat) :
    (s.calLeft kind e).condHalf = (s.setRuns kind e fun l => l.filter fun x => x.kind ≠ kind).condHalf :=
  (State.calStamp_kept State.condHalf State.Apart.condHalf (fun _ _ _ _ => rfl) _ _ _).trans (State.halfRunning_condHalf ..)

theorem State.calEnded_of_sums {s : State} {kind e : Nat} {values : List Int} {r : CalRun} (hk : kind ≤ 3) : s.calEnded kind e values r
    = ((s.calLeft kind e).keepTrigger kind e).updCond e fun c => { c with results := c.results ++ [r] } := by
  have he : easelKind kind = true := decide_eq_true (by omega)
  simp only [State.calEnded, he, if_true, if_pos hk]
  rfl

theorem State.calEnded_of_selftest (s : State) (e : Nat) (r : CalRun) :
    s.calEnded 7 e [] r = ((s.calLeft 7 e).wr F.COND_HALF_STATUS_fail 0 e).calDone 7 e St.OK r.cmds := rfl

theorem State.filter_of_kind {r : CalRun} {kind : Nat} (h : r.kind = kind) : [r].filter (fun x => decide (x.kind ≠ kind)) = [] := by
  simp [h]

theorem find_of_kind {r : CalRun} {l : List CalRun} {kind : Nat} (hl : l = [r]) (h : r.kind = kind) :
    l.find? (fun r => r.kind == kind) = some r := by
  simp [hl, h]

theorem exec_calRunEnd {kind e : Nat} {values : List Int} {r : CalRun} {s : State} (hf : (s.calRuns kind e).find? (fun r => r.kind == kind) = some r)
    (hr : r.running = true) (hn : kind ≤ 4 → r.need ≤ r.taken) : exec (.calRunEnd kind e values) s = .next (s.calEnded kind e values r) := by
  have hgo : ¬ (r.running = false ∨ kind ≤ 4 ∧ r.taken < r.need) := by
    rintro (h | ⟨hk, hlt⟩)
    · simp [hr] at h
    · exact absurd (hn hk) (by omega)
  change execCalRunEnd kind e values s = _
  simp only [execCalRunEnd, hf, if_neg hgo]

/-- A run of sums leaves its easel, and its result waits for a frame-start (R187). -/
theorem calRunEnd_of_sums {kind e : Nat} {values : List Int} {r : CalRun} {s : State} (h3 : kind ≤ 3) (hl : s.calRuns kind e = [r])
    (hk : r.kind = kind) (hr : r.running = true) (hn : r.need ≤ r.taken) (he : e < s.cond.length) : Does (.calRunEnd kind e values) s fun t =>
      t.calRuns kind e = [] ∧ (t.condOf e).results = (s.condOf e).results ++ [r] := by
  have hek : easelKind kind = true := decide_eq_true (by omega)
  have hcond : (s.calLeft kind e).cond = (s.updCond e fun c => { c with runs := c.runs.filter fun x => x.kind ≠ kind }).cond := by
    rw [State.calLeft_cond, State.setRuns, if_pos hek]
  have hlen : (s.calLeft kind e).cond.length = s.cond.length := by rw [hcond, State.updCond_cond_length]
  have hof : (s.calLeft kind e).condOf e = { s.condOf e with runs := (s.condOf e).runs.filter fun x => x.kind ≠ kind } := by
    rw [State.condOf, hcond]
    exact State.condOf_updCond_self _ he
  refine Does.of_exec (exec_calRunEnd (find_of_kind hl hk) hr fun _ => hn) ?_
  rw [State.calEnded_of_sums h3, State.keepTrigger, State.calRuns, if_pos hek, State.condOf_updCond_self _ (by simpa [hlen] using he),
    State.condOf_updCond_self _ (hlen ▸ he), hof]
  rw [State.calRuns, if_pos hek] at hl
  exact ⟨by rw [hl]; exact State.filter_of_kind hk, rfl⟩

/-- A self-test in which no brush failed clears the flags of its half and is gone (R189). -/
theorem calRunEnd_of_selftest {e : Nat} {r : CalRun} {s : State} (hl : s.calRuns 7 e = [r]) (hk : r.kind = 7) (hr : r.running = true)
    (hc : r.cmds = []) (he : e < s.condHalf.length) : Does (.calRunEnd 7 e []) s fun t =>
      t.calRuns 7 e = [] ∧ t.rd F.COND_HALF_STATUS_running e = 0 ∧ t.rd F.COND_HALF_STATUS_fail e = 0 := by
  have hruns : (s.setRuns 7 e fun l => l.filter fun x => x.kind ≠ 7).calRuns 7 e = [] := by
    rw [State.calRuns_setRuns_half _ rfl he, hl]
    exact State.filter_of_kind hk
  refine Does.of_exec (exec_calRunEnd (find_of_kind hl hk) hr fun h => absurd h (by decide)) ?_
  rw [State.calEnded_of_selftest, hc]
  have hdone : ∀ t : State, t.calDone 7 e St.OK [] = t.raise e Ev.COND_CAL_DONE [] := fun _ => rfl
  rw [hdone]
  refine ⟨?_, ?_, ?_⟩
  · rw [State.calRuns_congr (State.Apart.cond.raise ..) (State.Apart.condHalf.raise ..),
      State.calRuns_congr (State.wr_cond ..) (State.wr_condHalf ..), State.calRuns_congr (State.calLeft_cond ..) (State.calLeft_condHalf ..), hruns]
  · rw [State.rd_raise_other _ _ _ _ _ _ _ (by decide), State.rd_wr_other _ _ _ _ _ _ _ _ (by decide), State.calLeft]
    have hst : ∀ t : State, (t.calStamp 7 e).rd F.COND_HALF_STATUS_running e = t.rd F.COND_HALF_STATUS_running e := by
      intro t
      simp (disch := decide) only [State.calStamp, State.ledgerAdd_rd, State.tick_rd, easelKind, State.rd_wr_other, State.rd_bump_other, decide_false,
        Bool.false_eq_true, if_false, Nat.reduceLeDiff]
    rw [hst, State.halfRunning_of_half _ e rfl, State.rd_wr_self, hruns]
    rfl
  · rw [State.rd_raise_other _ _ _ _ _ _ _ (by decide), State.rd_wr_self]
    rfl

/-! ### The start of a run -/

theorem exec_calRunStart_of_frames {kind e : Nat} {r : CalRun} {f : Frame} {s : State} (hk : kind ≤ 4)
    (hf : (s.calRuns kind e).find? (fun r => r.kind == kind) = some r) (hr : r.running = false)
    (hh : ((s.easel e).frames.take ((s.easel e).accepted - r.since)).reverse.head? = some f) :
    exec (.calRunStart kind e) s = .next (s.updRun kind e fun r => { r with running := true, first := f.serial }) := by
  obtain ⟨rest, hl⟩ := List.head?_eq_some_iff.mp hh
  have hl' : (((s.easels.getD e EaselSt.init).frames.take ((s.easels.getD e EaselSt.init).accepted - r.since)).reverse) = f :: rest := hl
  change execCalRunStart kind e s = _
  simp only [execCalRunStart, hf, hr, Bool.false_eq_true, if_false, if_pos hk, hl']

theorem exec_calRunStart_of_selftest {e : Nat} {r : CalRun} {s : State} (hf : (s.calRuns 7 e).find? (fun r => r.kind == 7) = some r)
    (hr : r.running = false) (hb : s.brush.ready.getD e [] = []) (hi : s.brushBusy e = false) :
    exec (.calRunStart 7 e) s = .next ((s.updRun 7 e fun r => { r with running := true }).halfRunning 7 e) := by
  change execCalRunStart 7 e s = _
  simp [execCalRunStart, hf, hr, hi, -List.getD_eq_getElem?_getD, hb]

/-- A self-test of idle brushes starts (R189). -/
theorem calRunStart_of_selftest {e : Nat} {r : CalRun} {s : State} (hl : s.calRuns 7 e = [r]) (hk : r.kind = 7) (hr : r.running = false)
    (he : e < s.condHalf.length) (hb : s.brush.ready.getD e [] = []) (hi : s.brushBusy e = false) : Does (.calRunStart 7 e) s fun t =>
      t.calRuns 7 e = [{ r with running := true }] ∧ t.rd F.COND_HALF_STATUS_running e = 1 ∧ s.Only t [(F.COND_HALF_STATUS_running, e)] := by
  have hruns : (s.updRun 7 e fun r => { r with running := true }).calRuns 7 e = [{ r with running := true }] := by
    rw [State.updRun, State.calRuns_setRuns_half _ rfl he, hl]
    simp [hk]
  refine Does.of_exec (exec_calRunStart_of_selftest (find_of_kind hl hk) hr hb hi) ⟨(State.calRuns_halfRunning ..).trans hruns, ?_, ?_⟩
  · rw [State.halfRunning_of_half _ e rfl, State.rd_wr_self, hruns]
    rfl
  · rw [State.halfRunning_of_half _ e rfl]
    exact (s.only_setRuns 7 e _ _).wr F.COND_HALF_STATUS_running _ e 0 (by simp)

/-! ### The request of a run, and its giving up -/

/-- COND_CAL once it has begun. -/
def condCalBegun (id : Nat) (c : Cmd) (s : State) : State :=
  let kind := c.b 16
  let target := c.b 17
  let forced := c.b 18 == 1
  if calBad c (s.rd F.RING_SQ_STATUS_role c.ring) then s.complete id St.CAL_BAD_REQ
  else if easelKind kind && s.calNoSource kind target then s.complete id St.CAL_NO_SOURCE
  else if forced && s.anyTakeOpen then s.complete id St.CAL_TAKE_OPEN
  else match (s.calRuns kind target).find? (fun r => r.kind == kind) with
    | none => (s.setRuns kind target fun l => l ++ [s.newRun kind target (c.h 20) [id] false forced]).halfRunning kind target
    | some _ => (s.updRun kind target fun r =>
        if forced then { s.newRun kind target (c.h 20) (r.cmds ++ [id]) r.auto true with auto := r.auto }
        else { r with cmds := r.cmds ++ [id] }).halfRunning kind target

theorem exec_condCal {id : Nat} {c : Cmd} {s : State} (h : s.Waits id 0x02 c) : exec (.condCal id) s = .next (condCalBegun id c (s.begun id)) := by
  change Host.Outcome.next (s.startCmd id 0x02 (condCalBegun id)) = _
  rw [State.startCmd_eq_begun _ h]

/-- A run given up while it waits: it is gone, and its one command ends with BUSY (R185). -/
theorem calDefer_of_one {id e : Nat} {c : Cmd} {r : CalRun} {s : State} (hl : s.calRuns 7 e = [r]) (hk : r.kind = 7) (hr : r.running = false)
    (ha : r.auto = false) (hc : r.cmds = [id]) (he : e < s.condHalf.length) (hid : s.cmd id = some c) (hst : c.stage = .running) (hm : c.mute = false) :
    Does (.calDeferTimeout 7 e) s fun t => t.calRuns 7 e = [] ∧ t.Answered c St.BUSY 0 0 ∧ s.Only t [] := by
  let u := s.setRuns 7 e fun l => l.filter fun x => x.kind ≠ 7
  have hu : u.cmd id = some c := by rw [State.cmd, State.setRuns_host]; exact hid
  have hex : exec (.calDeferTimeout 7 e) s = .next (u.complete id St.BUSY) := by
    change execCalDeferTimeout 7 e s = _
    simp only [execCalDeferTimeout, find_of_kind hl hk, hr, ha, hc]
    rfl
  have hne : c.stage ≠ .ended := by simp [hst]
  refine Does.of_exec hex ⟨?_, State.complete_answered _ _ _ _ hu hne hm, State.Only.complete (s.only_setRuns 7 e _ []) hu hne hm _ _ _ _⟩
  rw [State.calRuns_congr (State.Apart.cond.complete ..) (State.Apart.condHalf.complete ..), State.calRuns_setRuns_half _ rfl he, hl]
  exact State.filter_of_kind hk

/-- Settles O26: each command of a run acts on the runs of its own target, and the whole effect of an end is calEnded. -/
theorem blackEstimateAndCalibration : Obligations.BlackEstimateAndCalibration := by
  refine ⟨fun e id c s => ⟨fun serial f cf hf hcf h1 hb => ?_, fun h hm hbad => ?_, fun h hm hbad hk h1 hto => ?_, fun h hbad hk ht h0 he hl => ?_,
    fun r hl hk hr he hb hi => calRunStart_of_selftest hl hk hr he hb hi, fun kind r f _ h4 hf hr hh => exec_calRunStart_of_frames h4 hf hr hh,
    fun kind r values _ h3 hl hk hr hn he => calRunEnd_of_sums h3 hl hk hr hn he, fun r hl hk hr hc he => calRunEnd_of_selftest hl hk hr hc he,
    fun r hl hk hr ha hc he hid hst hm => calDefer_of_one hl hk hr ha hc he hid hst hm⟩, fun kind e values r s hf hr hn => exec_calRunEnd hf hr hn⟩
  · change execBlackEstimateDone e serial false s = _
    simp only [execBlackEstimateDone, hf, hcf, h1, hb, and_self, if_true]
    rfl
  · obtain ⟨ha, ho⟩ := State.complete_begun h hm St.CAL_BAD_REQ 0 0 0
    refine Does.of_exec (exec_condCal h) ?_
    rw [condCalBegun, State.begun_rd, if_pos hbad]
    exact ⟨ha, ho []⟩
  · refine Does.of_exec (exec_condCal h) ?_
    have hto' : (s.begun id).anyTakeOpen = true := hto
    simp only [condCalBegun, State.begun_rd, hbad, hk, h1, hto', easelKind]
    exact (State.complete_begun h hm St.CAL_TAKE_OPEN 0 0 0).1
  · refine Does.of_exec (exec_condCal h) ?_
    have hl' : (s.begun id).calRuns 7 e = [] := hl
    have hruns := State.calRuns_setRuns_half (s := s.begun id) (fun l => l ++ [(s.begun id).newRun 7 e (c.h 20) [id] false false]) (kind := 7) rfl he
    simp only [condCalBegun, State.begun_rd, hbad, hk, ht, h0, easelKind, hl', List.find?_nil, Nat.reduceLeDiff, Nat.reduceBEq, decide_false,
      Bool.false_and, Bool.false_eq_true, if_false]
    refine ⟨(s.begun id).newRun 7 e (c.h 20) [id] false false, ?_, rfl, rfl, rfl, rfl⟩
    refine (State.calRuns_halfRunning ..).trans (hruns.trans ?_)
    rw [hl']
    rfl

end Sys2Proof.Machine
end

section
/-! PROOFS. View pictures and statistics records (spec/06, R192, R219, R220, R222, R230). -/
namespace Sys2Proof.Machine

set_option Elab.async false

/-! ### What a read of HBM and its checks leave of the registers -/

/-- A read of HBM sets the corrected-error flag and count of its stack alone. -/
theorem State.rd_hbmRead_other (s : State) (a n : Nat) (f : Fld) (i j : Nat)
    (h : ∀ x ∈ [F.HBM_FLAGS_ce, F.HBM_CNT_ce], ¬ (f.base = x.base ∧ f.lo = x.lo)) : (s.hbmRead a n).rd f i j = s.rd f i j := by
  simp only [List.forall_mem_cons] at h
  obtain ⟨h1, h2, -⟩ := h
  by_cases hf : (s.stackFault (stackOf a) || s.hbmWaits a n) = true
  · simp only [State.hbmRead, hf, if_true]
  · simp only [State.hbmRead, hf, Bool.false_eq_true, if_false, State.tick_rd]
    cases decide (0 < min (Config.hbmCorrected s.fresh) (bursts a n).length)
    · rfl
    · rw [State.whenB_true, State.rd_bump_other _ _ _ _ _ _ _ _ h2, State.rd_wr_other _ _ _ _ _ _ _ _ h1, State.issue_rd]

theorem State.put_rd (s : State) (a : Nat) (bs : List Byte) (f : Fld) (i j : Nat) : (s.put a bs).rd f i j = s.rd f i j := by
  unfold State.put
  split
  · rfl
  · split <;> rfl

theorem State.palRead_rd (s : State) (p : PalSlot) (f : Fld) (i j : Nat)
    (h : ∀ x ∈ [F.HBM_FLAGS_ce, F.HBM_CNT_ce], ¬ (f.base = x.base ∧ f.lo = x.lo)) : (s.palRead p).rd f i j = s.rd f i j := by
  unfold State.palRead
  split
  · exact State.rd_hbmRead_other _ _ _ _ _ _ h
  · rfl

theorem State.rd_tileSeen_other (s : State) (r : TileReader) (half : Nat) (payload rec : List Byte) (failed : Bool) (f : Fld) (i j : Nat)
    (h : ∀ x ∈ eventFields, ¬ (f.base = x.1.base ∧ f.lo = x.1.lo)) : (s.tileSeen r half payload rec failed).rd f i j = s.rd f i j := by
  unfold State.tileSeen
  split
  · cases r with
    | colour => exact State.rd_raise_other _ _ _ _ _ _ _ h
    | barrow => exact State.rd_raise_other _ _ _ _ _ _ _ h
    | playback => exact State.rd_raise_other _ _ _ _ _ _ _ h
    | packer => rfl
    | magazine => rfl
  · cases recPresent rec && recDamaged rec <;> rfl

theorem State.tileHurt_rd (s : State) (e serial : Nat) (f : Fld) (i j : Nat) : (s.tileHurt e serial).rd f i j = s.rd f i j := by
  unfold State.tileHurt
  split
  next g _ => cases g.st != .scraped <;> rfl
  next => rfl

/-- The fields that a checked read of a canvas tile may set. -/
def checkFields : List (Fld × Nat) := [(F.HBM_FLAGS_ce, 0), (F.HBM_CNT_ce, 0)] ++ eventFields

theorem State.rd_colourCheck_other (s : State) (e k : Nat) (g : Frame) (tile : Nat) (f : Fld) (i j : Nat)
    (h : ∀ x ∈ checkFields, ¬ (f.base = x.1.base ∧ f.lo = x.1.lo)) : (s.colourCheck e k g tile).rd f i j = s.rd f i j := by
  have hr : ∀ x ∈ [F.HBM_FLAGS_ce, F.HBM_CNT_ce], ¬ (f.base = x.base ∧ f.lo = x.lo) := by
    simp only [checkFields, List.forall_mem_append, List.forall_mem_cons] at h ⊢
    exact ⟨h.1.1, h.1.2.1, by simp⟩
  have he : ∀ x ∈ eventFields, ¬ (f.base = x.1.base ∧ f.lo = x.1.lo) := fun x hx => h x (List.mem_append_right _ hx)
  unfold State.colourCheck
  extract_lets r hh failed
  have hs : ((s.canvasRead e k tile).tileSeen .colour hh (framePayload e g.serial g.fault) r.1 failed).rd f i j = s.rd f i j := by
    rw [State.rd_tileSeen_other _ _ _ _ _ _ _ _ _ he, State.canvasRead, State.rd_hbmRead_other _ _ _ _ _ _ hr, State.rd_hbmRead_other _ _ _ _ _ _ hr]
  clear_value failed
  cases failed
  · exact hs
  · exact (State.tileHurt_rd ..).trans hs

theorem State.rd_colourChecks_other (s : State) (e v : Nat) (g : Frame) (st : StatFrame) (f : Fld) (i j : Nat)
    (h : ∀ x ∈ checkFields, ¬ (f.base = x.1.base ∧ f.lo = x.1.lo)) : (s.colourChecks e v g st).rd f i j = s.rd f i j := by
  unfold State.colourChecks
  split
  · rfl
  · exact State.each_of_kept (fun t => t.rd f i j) (fun t x => t.rd_colourCheck_other e _ g x f i j h) s _

/-! ### Pictures -/

theorem State.serial_of_frame {s : State} {e serial : Nat} {f : Frame} (h : s.frame e serial = some f) : f.serial = serial := by
  have hp := List.find?_some (p := fun f : Frame => f.serial == serial) h
  exact eq_of_beq hp

/-- A picture that goes on in the ring in force takes the next free slot of it, or is dropped. -/
theorem State.pictureStart_of_none {s : State} {v e : Nat} {f : Frame} (hr : sameRing (s.viewSet v e f.serial) (s.view v).inForce v = true)
    (hn : s.freeViewSlot v = none) : s.pictureStart v e f = (s.pictureDrop v, none) := by
  have hr' : sameRing (s.newPicture v e f).set (s.view v).inForce v = true := hr
  simp only [State.pictureStart, hr', if_true, hn]

theorem State.pictureStart_snd {s : State} {v e k : Nat} {f : Frame} (hr : sameRing (s.viewSet v e f.serial) (s.view v).inForce v = true)
    (hn : s.freeViewSlot v = some k) : (s.pictureStart v e f).2 = some k := by
  have hr' : sameRing (s.newPicture v e f).set (s.view v).inForce v = true := hr
  simp only [State.pictureStart, hr', if_true, hn]

/-- A frame whose colour settings do not come from the canvas starts its picture and leaves the canvas alone. -/
theorem exec_viewPictureStart {v e serial : Nat} {f : Frame} {s : State} (he : s.viewEaselOf v serial = e) (hf : s.frame e serial = some f)
    (hm : s.viewMay v e f = true) (hc : ∀ g, s.statFrame e serial = some g → regOn g.pal F.PAL_CTRL_source e = false) :
    exec (.viewPictureStart v serial) s = .next
      (match (s.pictureStart v e f).2 with | some k => (s.pictureStart v e f).1.sketchOffer v k e f | none => (s.pictureStart v e f).1).viewsRun := by
  subst he
  change execViewPictureStart v serial s = _
  cases hg : s.statFrame (s.viewEaselOf v serial) serial with
  | none =>
    simp only [execViewPictureStart, hf, hg, hm, Bool.not_true, Bool.false_and, Bool.or_self, Bool.false_eq_true, if_false]
    cases s.slotOf (s.viewEaselOf v serial) serial <;> rfl
  | some g =>
    simp only [execViewPictureStart, hf, hg, hc g hg, hm, Bool.not_true, Bool.false_and, Bool.or_self, Bool.false_eq_true, if_false]
    cases s.slotOf (s.viewEaselOf v serial) serial <;> rfl

theorem State.Only.viewsRun {s t : State} {l : List (Fld × Nat)} (h : s.Only t l) : s.Only t.viewsRun l :=
  ⟨(State.viewsRun_mem t).trans h.1, fun f i j hf => (State.viewsRun_rd ..).trans (h.2 f i j hf)⟩

theorem State.viewsRun_records (s : State) : s.viewsRun.host.records = s.host.records :=
  State.viewsRun_of_kept (fun t => t.host.records) (fun _ _ _ => rfl) (fun _ => rfl) s

/-- A dropped picture is flagged, counted and reported (R220). -/
theorem State.pictureDrop_spec (s : State) (v : Nat) : (s.pictureDrop v).rd F.VIEW_FLAGS_drop v = 1
    ∧ (s.pictureDrop v).rd F.VIEW_CNT_drop v = min (2 ^ F.VIEW_CNT_drop.width - 1) (s.rd F.VIEW_CNT_drop v + 1)
    ∧ s.Only (s.pictureDrop v) ([(F.VIEW_FLAGS_drop, v), (F.VIEW_CNT_drop, v)] ++ eventFields) := by
  refine ⟨?_, ?_, ?_⟩
  · rw [State.pictureDrop, State.rd_raise_other _ _ _ _ _ _ _ (by decide), State.rd_flagCount_flag _ _ _ _ (by decide)]
    rfl
  · rw [State.pictureDrop, State.rd_raise_other _ _ _ _ _ _ _ (by decide), State.rd_flagCount_count _ _ _ _ (by decide)]
  · exact ((State.Only.refl s _).flagCount F.VIEW_FLAGS_drop F.VIEW_CNT_drop v (by simp) (by simp)).raise 0 Ev.VIEW_DROP []
      fun _ hx => List.mem_append_right _ hx

theorem exec_viewPictureDone {v k : Nat} {old : Bool} {x : ViewSlot} {f : Frame} {g : StatFrame} {s : State}
    (hw : s.writingPicture v = some (old, k, x)) (hf : s.frame x.easel x.serial = some f) (hg : s.statFrame x.easel x.serial = some g)
    (ht : s.tilesIn x.easel v f g = true) (hh : s.viewHeld v = false) (hp : s.pictureWaits v x f g = false) :
    exec (.viewPictureDone v) s = .next (s.pictureEnd v k x f g old) := by
  change execViewPictureDone v s = _
  simp [execViewPictureDone, hw, hf, hg, ht, hh, hp]

/-- The picture's end counts it. -/
theorem State.rd_pictureEnd_count (s : State) (v k : Nat) (x : ViewSlot) (f : Frame) (g : StatFrame) (old : Bool) :
    (s.pictureEnd v k x f g old).rd F.VIEW_CNT_pictures v = min (2 ^ F.VIEW_CNT_pictures.width - 1) (s.rd F.VIEW_CNT_pictures v + 1) := by
  unfold State.pictureEnd
  extract_lets y a t
  rw [State.tick_rd, State.put_rd, State.put_rd,
    State.each_of_kept (fun t => t.rd F.VIEW_CNT_pictures v) (fun t p => t.palRead_rd p F.VIEW_CNT_pictures v 0 (by decide)),
    State.rd_colourChecks_other _ _ _ _ _ _ _ _ (by decide)]
  exact State.rd_bump_self ..

/-! ### Statistics records -/

theorem exec_statsRecordPost {e serial : Nat} {rest : List Nat} {f : Frame} {g : StatFrame} {s : State} (hq : (s.palOf e).queue = serial :: rest)
    (hn : (s.notices.any fun n => n.1 == Consumer.stats && n.2.1 == e && decide (n.2.2 < serial)) = false)
    (hf : (s.updPal e fun p => { p with queue := rest }).frame e serial = some f)
    (hg : (s.updPal e fun p => { p with queue := rest }).statFrame e serial = some g) :
    exec (.statsRecordPost e) s = .next ((s.updPal e fun p => { p with queue := rest }).statsPost e f g) := by
  change execStatsRecordPost e s = _
  simp only [execStatsRecordPost, hq, hn, Bool.false_eq_true, if_false, hf, hg]

/-- Taking the oldest frame off the queue leaves everything else of the easel's colour settings. -/
theorem State.palOf_dequeued (s : State) (e : Nat) (rest : List Nat) :
    ((s.updPal e fun p => { p with queue := rest }).palOf e).inForce = (s.palOf e).inForce
      ∧ ((s.updPal e fun p => { p with queue := rest }).palOf e).frames = (s.palOf e).frames :=
  ⟨updAt_getD_of_kept PalSt.inForce _ _ _ (fun p => { p with queue := rest }) _ fun _ => rfl,
    updAt_getD_of_kept PalSt.frames _ _ _ (fun p => { p with queue := rest }) _ fun _ => rfl⟩

theorem State.Apart.pal : State.Apart State.pal := ⟨State.wr_pal, fun _ => rfl, fun _ _ _ => rfl⟩

theorem State.palOf_congr {s t : State} (h : t.pal = s.pal) (e : Nat) : t.palOf e = s.palOf e := by
  rw [State.palOf, State.palOf, h]

theorem State.statsPost_of_full {s : State} {e : Nat} {f : Frame} {g : StatFrame} (h : ahead (s.rd F.PAL_STATS_TAIL_value e) (s.rd F.PAL_STATS_HEAD_value e)
    = 2 ^ regOf (s.palOf e).inForce F.PAL_STATS_CFG_depth_log2 e) :
    s.statsPost e f g = (s.flagCount F.PAL_FLAGS_stats_drop F.PAL_CNT_stats_drop e).raise 0 Ev.PAL_STATS_DROP [] := by
  rw [State.statsPost]
  exact if_pos h

/-- The record of a frame is written to its slot, the tail moved on and the notice made (R230). -/
def State.statsStored (s : State) (e : Nat) (f : Frame) (g : StatFrame) : State :=
  let r := (s.palOf e).inForce
  let slot := s.rd F.PAL_STATS_TAIL_value e % 2 ^ regOf r F.PAL_STATS_CFG_depth_log2 e
  (s.emit (.hostWrite (regOf r F.PAL_STATS_BASE_LO_value e + 4294967296 * regOf r F.PAL_STATS_BASE_HI_value e + slot * 16384)
    (s.statsRecord e f g))).wr F.PAL_STATS_TAIL_value (s.rd F.PAL_STATS_TAIL_value e + 1) e

theorem State.statsPost_of_room {s : State} {e : Nat} {f : Frame} {g : StatFrame} (h : ahead (s.rd F.PAL_STATS_TAIL_value e) (s.rd F.PAL_STATS_HEAD_value e)
    ≠ 2 ^ regOf (s.palOf e).inForce F.PAL_STATS_CFG_depth_log2 e) :
    s.statsPost e f g = (s.statsStored e f g).postUnsolicited 0 (regOf (s.palOf e).inForce F.PAL_STATS_CFG_cq e) e St.OK
      (s.rd F.PAL_STATS_TAIL_value e % 2 ^ regOf (s.palOf e).inForce F.PAL_STATS_CFG_depth_log2 e) 0 := by
  rw [State.statsPost]
  exact if_neg h

/-- A record that is posted, or lost with a half in quiet, leaves every field but those of the loss. -/
theorem State.rd_post_other (s : State) (r : Rec) (f : Fld) (i j : Nat)
    (h : ∀ x ∈ [F.RING_FLAGS_evq_lost, F.RING_EVQ_LOST_count], ¬ (f.base = x.base ∧ f.lo = x.lo)) : (s.post r).rd f i j = s.rd f i j := by
  simp only [List.forall_mem_cons] at h
  obtain ⟨h1, h2, -⟩ := h
  obtain ⟨t, r', ht, -, -, e⟩ := s.post_eq r
  have hts : t.rd f i j = s.rd f i j := by
    rcases ht with rfl | rfl <;> rfl
  rw [e]
  split
  · rw [State.dropRecord, State.updHost_rd, State.rd_bump_other _ _ _ _ _ _ _ _ h2, State.rd_wr_other _ _ _ _ _ _ _ _ h1, hts]
  · rw [State.updHost_rd, hts]

/-- Settles O28: a picture starts, ends or is dropped in its view's ring, and the oldest frame's record goes to its slot or is dropped. -/
theorem viewPicturesAndStatistics : Obligations.ViewPicturesAndStatistics := by
  refine ⟨fun v e s => ⟨fun serial f he hf hm hc hr hn => ?_, fun serial f k he hf hm hc hr hn => ?_, fun old k x f g hw hf hg ht hh hp =>
      ⟨_, exec_viewPictureDone hw hf hg ht hh hp, State.rd_pictureEnd_count .., rfl⟩, fun serial rest f g hq hn hf hg he hroom => ?_,
    fun serial rest f g hq hn hf hg he hfull => ?_⟩, fun v e serial k old x rest f g s => ⟨exec_viewPictureDone, exec_statsRecordPost⟩⟩
  · have hr' : sameRing (s.viewSet v e f.serial) (s.view v).inForce v = true := hr
    refine Does.of_exec (exec_viewPictureStart he hf hm hc) ?_
    obtain ⟨hflag, hcnt, honly⟩ := s.pictureDrop_spec v
    simp only [State.pictureStart_of_none hr' hn, State.viewsRun_rd]
    exact ⟨hflag, hcnt, State.Raised.of_same (t := s.flagCount F.VIEW_FLAGS_drop F.VIEW_CNT_drop v) (by simp)
      (fun f hf => State.rd_flagCount_other _ _ _ _ _ _ _ (by revert f; decide)) (State.viewsRun_records _), honly.viewsRun⟩
  · rw [exec_viewPictureStart he hf hm hc, State.pictureStart_snd hr hn]
  · obtain ⟨hin, hfr⟩ := s.palOf_dequeued e rest
    have hg' : (s.updPal e fun p => { p with queue := rest }).statFrame e serial = some g := by rw [State.statFrame, hfr]; exact hg
    refine Does.of_exec (exec_statsRecordPost hq hn hf hg') ?_
    rw [State.statsPost_of_room (by rw [hin]; exact hroom)]
    refine ⟨?_, ?_, ?_⟩
    · rw [State.postUnsolicited, State.palOf_congr (State.Apart.pal.post ..), State.statsStored, State.palOf_congr (State.wr_pal ..)]
      exact congrArg PalSt.queue (State.palOf_updPal_self _ he)
    · rw [State.postUnsolicited, State.rd_post_other _ _ _ _ _ (by decide), State.statsStored, State.rd_wr_self]
      rfl
    · refine ⟨(s.updPal e fun p => { p with queue := rest }).statsRecord e f g, (State.Apart.out.post ..).trans ((State.wr_out ..).trans ?_)⟩
      rw [hin]
      rfl
  · obtain ⟨hin, hfr⟩ := s.palOf_dequeued e rest
    have hg' : (s.updPal e fun p => { p with queue := rest }).statFrame e serial = some g := by rw [State.statFrame, hfr]; exact hg
    refine Does.of_exec (exec_statsRecordPost hq hn hf hg') ?_
    rw [State.statsPost_of_full (by rw [hin]; exact hfull)]
    refine ⟨?_, by simp⟩
    rw [State.rd_raise_other _ _ _ _ _ _ _ (by decide), State.rd_flagCount_flag _ _ _ _ (by decide)]
    rfl

end Sys2Proof.Machine
end

section
/-! PROOFS. The packer lanes (spec/07, R242 to R251): a tile of fewer than 4,096 bytes that does not pack. -/
namespace Sys2Proof.Machine

set_option Elab.async false

/-! ### A token stream that does not pack

Where every token is an escape and no two are equal, no phrase and no run matches, and each item costs 33 bits or more (R237, R241). -/

/-- The first n tokens are escapes, no two of them equal. -/
structure Escapes (tok : List Nat) (n : Nat) : Prop where
  length : n ≤ tok.length
  escape : ∀ i < n, 510 < tok.getD i 0
  ne : ∀ i j, i < j → j < n → tok.getD i 0 ≠ tok.getD j 0

theorem Escapes.common_eq_zero {tok : List Nat} {n i j : Nat} (h : Escapes tok n) (hij : i < j) (hj : j < n) : common (tok.drop i) (tok.drop j) = 0 := by
  have hl := h.length
  have hne := h.ne i j hij hj
  rw [getD_of_lt (by omega), getD_of_lt (by omega)] at hne
  rw [List.drop_eq_getElem_cons (show i < tok.length by omega), List.drop_eq_getElem_cons (show j < tok.length by omega)]
  exact if_neg hne

theorem Escapes.no_phrase {tok : List Nat} {n q : Nat} (h : Escapes tok n) (hq : q < n) {entries : List (Nat × Nat)}
    (he : ∀ e ∈ entries, e.1 < q) : longestPhrase tok q entries = (0, 0) := by
  have hstay : ∀ l : List (Nat × Nat × Nat), (∀ e ∈ l, e.2.1 < q) → l.foldl (fun best e =>
      if best.2 < e.2.2 ∧ e.2.2 ≤ common (tok.drop e.2.1) (tok.drop q) then (259 + e.1, e.2.2) else best) (0, 0) = (0, 0) := by
    intro l hl
    induction l with
    | nil => rfl
    | cons e l ih =>
      have hc := h.common_eq_zero (hl e (List.mem_cons_self ..)) hq
      rw [List.foldl_cons, if_neg (by rw [hc]; omega)]
      exact ih fun x hx => hl x (List.mem_cons_of_mem _ hx)
  exact hstay _ fun e hmem => he e.2 (List.of_mem_zip hmem).2

theorem Escapes.no_copy {tok : List Nat} {n q : Nat} (h : Escapes tok n) (hq : q < n) : longestCopy tok q = (128, 0) := by
  have hrun : ∀ d, 0 < d → (if d ≤ q then common (tok.drop (q - d)) (tok.drop q) else 0) = 0 := by
    intro d hd
    split
    · exact h.common_eq_zero (by omega) hq
    · rfl
  simp only [longestCopy, hrun 64 (by decide), hrun 128 (by decide), Nat.le_refl, if_true]

theorem codeWidth_ge (n : Nat) : 9 ≤ codeWidth n := by
  unfold codeWidth
  repeat' split
  all_goals omega

/-- 993 such tokens exceed the bits a packed tile may have, so the tile is stored raw (R242). -/
theorem Escapes.abandoned {tok : List Nat} (h : Escapes tok 993) (fuel q : Nat) (prev : Option (Nat × Nat)) (entries : List (Nat × Nat)) (b : Bits)
    (hf : 993 ≤ fuel + q) (hb : 33 * q ≤ b.2) (hle : b.2 ≤ 32760) (he : ∀ e ∈ entries, e.1 < q) (hp : ∀ p ∈ prev, p.1 < q) :
    (encodeFrom tok fuel q prev entries b).2 = false := by
  induction fuel generalizing q prev entries b with
  | zero => omega
  | succ fuel ih =>
    have hq : q < 993 := by omega
    have ht := h.escape q hq
    unfold encodeFrom
    rw [if_neg (by omega)]
    extract_lets all w ph cp t r
    have hall : ∀ e ∈ all, e.1 < q := by
      unfold all
      cases prev with
      | none => exact he
      | some p =>
        intro e hmem
        rcases List.mem_append.mp hmem with hm | hm
        · exact he e hm
        · rw [List.mem_singleton.mp hm]
          exact hp p rfl
    have hw : 9 ≤ w := codeWidth_ge _
    have hr : r = (((b.put 256 w).put 255 8).put (t - 512) 16, 1) := by
      have hph : ph = (0, 0) := h.no_phrase hq hall
      have hcp : cp = (128, 0) := h.no_copy hq
      unfold r
      rw [hph, hcp, if_neg (by decide), if_neg (by decide), if_neg (by omega), if_neg (by omega)]
    have hr2 : r.1.2 = b.2 + w + 8 + 16 := by rw [hr]; rfl
    have hr1 : r.2 = 1 := by rw [hr]
    clear_value r all w
    split
    · rfl
    · rw [hr1]
      refine ih (q + 1) _ _ _ (by omega) (by omega) (by omega) (fun e hm => Nat.lt_succ_of_lt (hall e hm)) fun p hm => ?_
      obtain rfl := Option.some.inj hm
      exact Nat.lt_succ_self q

/-! ### Such a tile, in 1,986 bytes -/

/-- A checkerboard of 2 by 2 samples, with each sample's number in its low bits. -/
def checker (q : Nat) : Nat := q + 1024 * (1 + (q / 2 + q / 128) % 2)

def checkerBytes : List Byte := (List.range 1986).map fun i => BitVec.ofNat 8 (if i % 2 = 0 then checker (i / 2) else checker (i / 2) / 256)

theorem getD_map_range {α : Type} (n i : Nat) (f : Nat → α) (d : α) (h : i < n) : ((List.range n).map f).getD i d = f i := by
  rw [getD_of_lt (by simpa using h), List.getElem_map, List.getElem_range]

theorem checker_sample {q : Nat} (h : q < 993) : (tileSamples checkerBytes).getD q 0 = checker q := by
  have hc : checker q < 65536 := by unfold checker; omega
  have h0 : checkerBytes.getD (2 * q) 0 = BitVec.ofNat 8 (checker q) := by
    rw [checkerBytes, getD_map_range _ _ _ _ (by omega), if_pos (by omega), Nat.mul_div_cancel_left _ (by decide)]
  have h1 : checkerBytes.getD (2 * q + 1) 0 = BitVec.ofNat 8 (checker q / 256) := by
    rw [checkerBytes, getD_map_range _ _ _ _ (by omega), if_neg (by omega), show (2 * q + 1) / 2 = q by omega]
  rw [tileSamples, getD_map_range _ _ _ _ (by omega), fieldAt, bytesAt]
  simp only [List.range_succ, List.range_zero, List.nil_append, List.map_cons, List.map_nil, List.cons_append, Nat.add_zero, h0, h1,
    ofLe, BitVec.toNat_ofNat]
  omega

/-- A sample more than 255 from its prediction is an escape (R233). -/
theorem tokenOf_of_far {s : List Nat} {q : Nat} (h : 255 < (s.getD q 0 : Int) - predict s q ∨ (s.getD q 0 : Int) - predict s q < -255) :
    tokenOf s q = 512 + s.getD q 0 := by
  rw [tokenOf]
  generalize (s.getD q 0 : Int) - predict s q = r at h
  refine if_neg ?_
  split <;> omega

/-- The neighbours that a prediction uses, to the left and above, are of the other colour of the board, and the one diagonally of the same. -/
theorem checker_left {q : Nat} (h : 2 ≤ q % 64) : checker (q - 2) + checker q = 2 * q + 3070 := by
  have h2 : (q - 2) / 2 + 1 = q / 2 := by omega
  have h128 : (q - 2) / 128 = q / 128 := by omega
  unfold checker
  rw [h128, ← h2]
  omega

theorem checker_up {q : Nat} (h : 128 ≤ q) : checker (q - 128) + checker q = 2 * q + 2944 := by
  have h2 : (q - 128) / 2 + 64 = q / 2 := by omega
  have h128 : (q - 128) / 128 + 1 = q / 128 := by omega
  unfold checker
  rw [← h128, ← h2]
  omega

theorem checker_diagonal {q : Nat} (hx : 2 ≤ q % 64) (hy : 128 ≤ q) : checker (q - 130) + 130 = checker q := by
  have hu := checker_up (q := q - 2) (by omega)
  have hl := checker_left hx
  rw [show q - 2 - 128 = q - 130 by omega] at hu
  omega

/-- So every prediction misses by more than 255, and every token is an escape. -/
theorem checker_token {q : Nat} (h : q < 993) : (tokens (tileSamples checkerBytes)).getD q 0 = 512 + checker q := by
  have hs := fun (k : Nat) (hk : k ≤ q) => checker_sample (q := k) (by omega)
  have hq : checker q = q + 1024 ∨ checker q = q + 2048 := by unfold checker; omega
  rw [tokens, getD_map_range _ _ _ _ (by omega), tokenOf_of_far, hs q (Nat.le_refl q)]
  rw [predict, hs q (Nat.le_refl q), hs (q - 2) (by omega), hs (q - 128) (by omega), hs (q - 130) (by omega)]
  by_cases hx : q % 64 < 2
  · by_cases hy : q / 64 < 2
    · simp only [hx, hy, and_self, if_true]
      omega
    · have hu := checker_up (q := q) (by omega)
      simp only [hx, hy, and_false, if_false, if_true]
      omega
  · have hl := checker_left (q := q) (by omega)
    by_cases hy : q / 64 < 2
    · simp only [hx, hy, false_and, if_false, if_true]
      omega
    · have hu := checker_up (q := q) (by omega)
      have hd := checker_diagonal (q := q) (by omega) (by omega)
      simp only [hx, hy, false_and, if_false]
      split
      · omega
      · split <;> omega

theorem checker_escapes : Escapes (tokens (tileSamples checkerBytes)) 993 where
  length := by simp [tokens]
  escape i hi := by
    rw [checker_token hi]
    omega
  ne i j hij hj := by
    rw [checker_token (by omega), checker_token hj]
    unfold checker
    omega

theorem packTile_checker : packTile checkerBytes = none := by
  have h : (packBits checkerBytes).2 = false :=
    checker_escapes.abandoned 2048 0 none [] (0, 0) (by decide) (by decide) (by decide) (fun _ h => absurd h (List.not_mem_nil)) fun _ h => nomatch h
  simp [packTile, h]

/-! ### Lanes -/

theorem State.putRing_rd (s : State) (base size off : Nat) (bs : List Byte) (f : Fld) (i j : Nat) :
    (s.putRing base size off bs).rd f i j = s.rd f i j :=
  (State.put_rd ..).trans (State.put_rd ..)

theorem State.lanePass_rd (s : State) (h l : Nat) (p : PackTile) (f : Fld) (i j : Nat) : (s.lanePass h l p).1.rd f i j = s.rd f i j :=
  State.putRing_rd ..

/-- A lane that stalls reports it and leaves its commit pointer. -/
theorem State.rd_stallLane_commit (s : State) (h l : Nat) : (s.stallLane h l).rd F.LZP_LANE_COMMIT_offset h l = s.rd F.LZP_LANE_COMMIT_offset h l := by
  unfold State.stallLane
  extract_lets first t
  have ht : t.rd F.LZP_LANE_COMMIT_offset h l = s.rd F.LZP_LANE_COMMIT_offset h l := State.rd_flagCount_other _ _ _ _ _ _ _ (by decide)
  rw [State.packStatus, State.rd_wr_other _ _ _ _ _ _ _ _ (by decide), State.rd_wr_other _ _ _ _ _ _ _ _ (by decide),
    State.rd_wr_other _ _ _ _ _ _ _ _ (by decide)]
  cases first
  · exact ht
  · exact (State.rd_raise_other _ _ _ _ _ _ _ (by decide)).trans ht

/-- A lane whose words are not all written stalls. -/
theorem exec_packerTileCommit_of_held {h l : Nat} {p : PackTile} {rest : List PackTile} {s : State} (ht : (s.packLane h l).tiles = p :: rest)
    (hs : (s.packLane h l).stalled = false) (hp : s.powered (18 + h) = true) (hw : (s.lanePass h l p).2 = false) :
    exec (.packerTileCommit h l) s = .next ((s.lanePass h l p).1.stallLane h l) := by
  change execPackerTileCommit h l s = _
  simp only [execPackerTileCommit, ht, hs, hp, Bool.not_true, Bool.or_self, Bool.false_eq_true, if_false, State.laneWrite, hw, Bool.false_and]

theorem le_length (k n : Nat) : (le k n).length = k := by
  induction k generalizing n with
  | zero => rfl
  | succ k ih => simp [le, ih]

theorem padTo_length (k : Nat) (bs : List Byte) : (padTo k bs).length = max k bs.length := by
  rw [padTo, List.length_append, List.length_replicate]
  omega

/-! ### Such a tile in a lane -/

/-- A present tile with the given bytes. -/
def presentTile (data : List Byte) : PackTile :=
  { seq := 0, easel := 0, serial := 0, tile := 0, record := tileRecord 0 1 0 0, data := data, void := false }

/-- The packer of half 0 with lane rings of 4,096 bytes. -/
def smallRings : State :=
  ((State.reset.wr F.PWR_ON_on 4294967295).wr F.PWR_STATE_released 4294967295).wr F.LZP_RING_LANE_lane_4k 1

/-- The tile is the oldest of a lane whose ring has room for exactly an entry of 2,112 bytes. -/
def tileHeld (data : List Byte) : State :=
  smallRings.updPackLane 0 0 fun y =>
    { y with tiles := [presentTile data], ring := [{ seq := 0, easel := 0, serial := 0, tile := 0, void := false, record := [], payload := [],
                                                     size := 1984, off := 0, taken := false, free := false }] }

theorem tileHeld_rd (data : List Byte) (f : Fld) (i j : Nat) : (tileHeld data).rd f i j = smallRings.rd f i j := rfl

theorem tileHeld_powered (data : List Byte) : (tileHeld data).powered 18 = true := by
  have h : smallRings.powered 18 = true := by decide +kernel
  exact h

theorem tileHeld_laneSize (data : List Byte) : (tileHeld data).laneSize 0 = 4096 := by
  rw [State.laneSize, tileHeld_rd, smallRings, State.rd_wr_self]
  rfl

theorem tileHeld_used (data : List Byte) : ((tileHeld data).packLane 0 0).used = 1984 := rfl

theorem packOutput_presentTile {data : List Byte} (h : packTile data = none) :
    (packOutput (presentTile data)).1.length = 16 ∧ (packOutput (presentTile data)).2 = data := by
  have hp : recPresent (tileRecord 0 1 0 0) = true := by decide
  simp only [packOutput, presentTile, hp, h, Bool.not_true, Bool.false_eq_true, if_false, and_true]
  decide

theorem entryBytes_presentTile_length {data : List Byte} (h : packTile data = none) (hl : data.length = 1986) :
    (entryBytes (presentTile data) (packOutput (presentTile data)).1 (packOutput (presentTile data)).2).length = 2112 := by
  obtain ⟨h1, h2⟩ := packOutput_presentTile h
  rw [entryBytes, h2, List.length_append, padTo_length, padTo_length, hl]
  simp only [List.length_append, le_length, h1]
  rfl

/-- The bits abandoned for the raw tile are 63 words, and the ring has room for 32 (R249). -/
theorem lanePass_presentTile {data : List Byte} (h : packTile data = none) : ((tileHeld data).lanePass 0 0 (presentTile data)).2 = false := by
  have hs : laneStream ((tileHeld data).packLane 0 0) (presentTile data) = (abandoned data, false) := by
    have hp : recPresent (tileRecord 0 1 0 0) = true := by decide
    have hf : ((tileHeld data).packLane 0 0).fell = false := rfl
    simp only [laneStream, presentTile, hp, h, hf, Option.isNone_none, Bool.not_false, Bool.and_self, if_true]
  have hl : (abandoned data).length = 4032 := le_length ..
  have hw : ((tileHeld data).packLane 0 0).words = 0 := rfl
  have hr : (tileHeld data).laneRoom 0 0 = 32 := by rw [State.laneRoom, tileHeld_laneSize, tileHeld_used]
  simp only [State.lanePass, hs, hl, hw, hr, tileHeld_laneSize, tileHeld_used]
  decide

/-- With room for exactly its entry, such a tile stalls its lane. -/
theorem packerTileCommit_presentTile {data : List Byte} (h : packTile data = none) {t : State}
    (ht : exec (.packerTileCommit 0 0) (tileHeld data) = .next t) : t.rd F.LZP_LANE_COMMIT_offset 0 0 = 0 := by
  rw [exec_packerTileCommit_of_held (p := presentTile data) (rest := []) rfl rfl (tileHeld_powered data) (lanePass_presentTile h)] at ht
  obtain rfl := Host.Outcome.next.inj ht
  rw [State.rd_stallLane_commit, State.lanePass_rd]
  rfl

/-- Refutes O29: the clause of a commit with room for the entry takes any bytes for the tile in hand. Where they are fewer than 4,032 and do not
pack, the bits that the lane writes before it falls back to the raw tile (R249, R251) need more room than the entry, and the lane stalls. -/
theorem not_packerLanes : ¬ Obligations.PackerLanes := by
  intro h
  have hlen := entryBytes_presentTile_length packTile_checker (by simp [checkerBytes])
  obtain ⟨-, -, hcommit, -⟩ := h.1 0 0 (tileHeld checkerBytes) (tileHeld_powered _) (by decide +kernel)
  obtain ⟨t, ht, hmoved⟩ := hcommit (presentTile checkerBytes) [] rfl rfl 
    (Nat.le_of_eq (by rw [hlen, tileHeld_laneSize, tileHeld_used]))
  rw [packerTileCommit_presentTile packTile_checker ht, hlen, tileHeld_laneSize, tileHeld_rd] at hmoved
  exact absurd hmoved (by decide +kernel)

end Sys2Proof.Machine
end

section
/-! PROOFS. The decode units and the ratio of a frame (spec/07, R257 to R262). -/
namespace Sys2Proof.Machine

set_option Elab.async false

/-! ### Decoding a tile -/

/-- The decoded tile is at hand in the half's decode unit. -/
def State.tileDecoded (s : State) (h : Nat) (rec payload : List Byte) : State :=
  s.updPack h fun z => { z with decoded := some ((decodeTile rec payload).1, (decodeTile rec payload).2.1) }

theorem exec_tileDecode {h e serial : Nat} {rec payload : List Byte} {s : State} (hw : s.takesWork (0x32 + h) = true) :
    exec (.tileDecode h e serial rec payload) s = .next ((s.tileDecoded h rec payload).playbackTile h e serial rec (decodeTile rec payload)) := by
  change execTileDecode h e serial rec payload s = _
  rw [execTileDecode, if_neg (by simp [hw])]
  rfl

theorem State.Apart.pack : State.Apart State.pack := ⟨State.wr_pack, fun _ => rfl, fun _ _ _ => rfl⟩

/-- A reader that sees a tile leaves the packers, and sets no field but those of an event. -/
theorem State.tileSeen_spec (s : State) (r : TileReader) (half : Nat) (payload rec : List Byte) (failed : Bool) :
    (s.tileSeen r half payload rec failed).pack = s.pack ∧ s.Only (s.tileSeen r half payload rec failed) eventFields := by
  have hraise : ∀ n code, ((s.countUp n).raise half code payload).pack = s.pack ∧ s.Only ((s.countUp n).raise half code payload) eventFields :=
    fun n code => ⟨(State.Apart.pack.raise ..).trans rfl, State.Only.raise (State.Only.same (State.Only.refl s _)) half code payload fun _ hx => hx⟩
  unfold State.tileSeen
  split
  · cases r with
    | colour => exact hraise _ _
    | barrow => exact hraise _ _
    | playback => exact hraise _ _
    | packer => exact ⟨rfl, State.Only.refl s _⟩
    | magazine => exact ⟨rfl, State.Only.refl s _⟩
  · cases recPresent rec && recDamaged rec
    · exact ⟨rfl, State.Only.refl s _⟩
    · exact ⟨rfl, (State.Only.refl s _).same⟩

theorem State.playbackTile_of_good {s : State} {h e serial : Nat} {rec payload : List Byte} (hd : (decodeTile rec payload).2.2 = none) :
    s.playbackTile h e serial rec (decodeTile rec payload) = s.playbackSeen h e serial rec (decodeTile rec payload).1 := by
  simp only [State.playbackTile, hd]

theorem State.playbackTile_of_fault {s : State} {h e serial : Nat} {rec payload : List Byte} {x : Nat × Nat}
    (hd : (decodeTile rec payload).2.2 = some x) : s.playbackTile h e serial rec (decodeTile rec payload)
      = (s.decodeFault h e serial (recIndex rec) x.1 x.2).whenB (recDamaged rec) fun s => s.countUp (.tileDamaged .playback) := by
  simp only [State.playbackTile, hd]

/-- With the latch free the first fault is flagged and latched (R260). -/
theorem State.decodeFault_spec {s : State} {h : Nat} (e serial tile code bit : Nat) (hv : s.on F.LZP_DEC_FAULT0_valid h = false) :
    (s.decodeFault h e serial tile code bit).rd F.LZP_FLAGS_decode_fault h = 1 ∧ (s.decodeFault h e serial tile code bit).rd F.LZP_DEC_FAULT0_valid h = 1
      ∧ (s.decodeFault h e serial tile code bit).rd F.LZP_DEC_FAULT0_easel h = e % 2 ^ F.LZP_DEC_FAULT0_easel.width
      ∧ (s.decodeFault h e serial tile code bit).rd F.LZP_DEC_FAULT0_code h = code % 2 ^ F.LZP_DEC_FAULT0_code.width
      ∧ (s.decodeFault h e serial tile code bit).mem = s.mem := by
  simp (disch := decide) only [State.decodeFault, hv, Bool.false_eq_true, if_false, State.rd_raise_other, State.rd_wr_other, State.rd_wr_self,
    State.rd_flagCount_flag, State.raise_mem, State.wr_mem, State.flagCount_mem, and_true]
  exact ⟨rfl, rfl⟩

/-! ### The ratio of a frame -/

theorem exec_frameRatioCompute {e serial : Nat} {f : Frame} {s : State} (hf : s.frame e serial = some f) :
    exec (.frameRatioCompute e serial) s = .next (if s.ratioReady e f then s.ratioDone e f else s) := by
  change execFrameRatioCompute e serial s = _
  simp only [execFrameRatioCompute, hf]

/-- The sums of the frame have left both halves. -/
def State.sumsTaken (s : State) (e : Nat) (f : Frame) : State :=
  s.each [0, 1] fun s h => s.updPack h fun z =>
    { z with sums := z.sums.filter fun x => !(x.easel == e && x.serial == f.serial),
             taken := z.taken.filter fun x => !(x.1 == e && x.2.1 == f.serial) || (s.slotOf e f.serial).isSome }

/-- A frame with tiles present has its ratio written, whether or not it alarms (R262). -/
theorem State.ratioDone_spec {s : State} {e n : Nat} {f : Frame} (hn : (s.packSumOf 0 e f.serial).present + (s.packSumOf 1 e f.serial).present = n)
    (h0 : n ≠ 0) : (s.ratioDone e f).rd F.LZP_EASEL_RATIO_ratio e = min 0xFFFF (4096 * n * 256 / max 1 ((s.packSumOf 0 e f.serial).bytes
      + (s.packSumOf 1 e f.serial).bytes)) % 2 ^ F.LZP_EASEL_RATIO_ratio.width ∧ (s.ratioDone e f).mem = s.mem := by
  subst hn
  unfold State.ratioDone
  extract_lets a b present t ratio t1 hs
  rw [if_neg h0]
  have ht : t.mem = s.mem := rfl
  have ht1 : t1.rd F.LZP_EASEL_RATIO_ratio e = ratio % 2 ^ F.LZP_EASEL_RATIO_ratio.width ∧ t1.mem = s.mem :=
    ⟨State.rd_wr_self .., (State.wr_mem ..).trans ((State.wr_mem ..).trans ht)⟩
  clear_value t1
  split
  · rw [State.rd_raise_other _ _ _ _ _ _ _ (by decide), State.raise_mem]
    exact ⟨(State.each_of_kept (fun t => t.rd F.LZP_EASEL_RATIO_ratio e) (fun t h => State.rd_wr_other _ _ _ _ _ _ _ _ (by decide)) t1 hs).trans ht1.1,
      (State.each_of_kept State.mem (fun t h => State.wr_mem ..) t1 hs).trans ht1.2⟩
  · exact ht1

/-- Settles O30: a decoded tile is seen by its reader, a fault latched, and the ratio computed once both halves are done. -/
theorem decodingAndRatio : Obligations.DecodingAndRatio := by
  refine ⟨fun h e serial s => ⟨fun rec payload hd hh hw => ?_, fun rec payload x hd hw hv => ?_, fun f a b z hf hz ha hb hdone hdry h0 h1 hp => ?_⟩,
    fun e serial f s hf => ⟨fun hr => ?_, fun hr => ?_⟩⟩
  · refine Does.of_exec (exec_tileDecode hw) ?_
    rw [State.playbackTile_of_good hd, State.playbackSeen]
    obtain ⟨hpack, honly⟩ := State.tileSeen_spec (s.tileDecoded h rec payload) .playback h (framePayload e serial 0) rec
      (recPresent rec && !recDamaged rec && recDamaged (decodeTile rec payload).1)
    refine ⟨?_, State.Only.trans (State.Only.same (State.Only.refl s _)) honly⟩
    rw [State.packOf, hpack]
    exact congrArg PackSt.decoded (updAt_getD_self _ _ _ _ hh)
  · refine Does.of_exec (exec_tileDecode hw) ?_
    rw [State.playbackTile_of_fault hd]
    have hspec := State.decodeFault_spec (s := s.tileDecoded h rec payload) e serial (recIndex rec) x.1 x.2 hv
    cases recDamaged rec
    · exact hspec
    · exact hspec
  · have hser := State.serial_of_frame hf
    have ha' : s.packSumOf 0 e f.serial = a := by rw [hser, ← ha, hz]; rfl
    have hb' : s.packSumOf 1 e f.serial = b := by rw [hser, ← hb, hz]; rfl
    have hready : s.ratioReady e f = true := by
      simp only [State.ratioReady, ha', hb', Bool.and_eq_true, decide_eq_true_eq, beq_iff_eq]
      exact ⟨⟨⟨hdone, hdry⟩, h0⟩, h1⟩
    have hspec := State.ratioDone_spec (s := s) (e := e) (f := f) rfl (by rw [ha', hb']; exact hp)
    refine Does.of_exec (exec_frameRatioCompute hf) ?_
    rw [if_pos hready]
    rw [ha', hb'] at hspec
    exact hspec
  · rw [exec_frameRatioCompute hf, if_pos hr]
  · rw [exec_frameRatioCompute hf, if_neg (Bool.eq_false_iff.mp hr)]

end Sys2Proof.Machine
end

section
/-! PROOFS. The HBM stacks: service, refresh, alerts, bad reads and hammered rows (spec/08, R268 to R274). -/
namespace Sys2Proof.Machine

set_option Elab.async false

/-! ### Stacks and pseudo-channels -/

theorem State.stack_updStack_self {s : State} {k : Nat} (f : StackSt → StackSt) (h : k < s.hbm.stackSts.length) :
    (s.updStack k f).stack k = f (s.stack k) := updAt_getD_self _ _ _ _ h

@[simp] theorem State.updStack_length (s : State) (k : Nat) (f : StackSt → StackSt) :
    (s.updStack k f).hbm.stackSts.length = s.hbm.stackSts.length := updAt_length ..

theorem State.stack_congr {s t : State} (h : t.hbm = s.hbm) (k : Nat) : t.stack k = s.stack k := by
  rw [State.stack, State.stack, h]

theorem State.stack_updPc_self {s : State} {k pc : Nat} (f : PcSt → PcSt) (h : k < s.hbm.stackSts.length) :
    (s.updPc k pc f).stack k = { s.stack k with pcs := updAt (s.stack k).pcs pc f } := State.stack_updStack_self _ h

/-- Requests that waited for a stack are only written, so with none waiting nothing is done. -/
theorem State.only_hbmFlush {s : State} (h : s.hbm.held = []) (l : List (Fld × Nat)) : s.Only s.hbmFlush l := by
  rw [State.hbmFlush, h]
  exact (State.Only.refl s l).same

theorem State.hbmFlush_of_idle {s : State} (h : s.hbm.held = []) : s.hbmFlush = s.updHbm fun h => { h with held := [] } := by
  rw [State.hbmFlush, h]
  rfl

theorem bandOf_lt (t : Int) : bandOf t < 8 :=
  Nat.lt_of_le_of_lt (List.length_filter_le ..) (by decide)

/-! ### Refresh -/

theorem exec_hbmAllBankRefresh_of_band {k pc b : Nat} {done : List Nat} {s : State} (hb : (s.stack k).newBand = some (b, done))
    (ha : s.alertOn k = false) : exec (.hbmAllBankRefresh k pc) s = .next (
      let t := s.updPc k pc fun p => p.issue [.refresh]
      if (List.range 32).all (pc :: done.filter (· ≠ pc)).contains then
        ((((t.updStack k fun x => { x with newBand := none }).wr F.HBM_STACK_STATUS_band b k).wr F.HBM_FLAGS_band_change 1 k).raise k Ev.HBM_BAND [])
      else t.updStack k fun x => { x with newBand := some (b, pc :: done.filter (· ≠ pc)) }) := by
  change execHbmAllBankRefresh k pc s = _
  simp only [execHbmAllBankRefresh, ha, hb, Bool.false_eq_true, if_false]
  split <;> rfl

/-! ### Alerts -/

/-- The alert is taken by its pseudo-channel, counted and reported (R271). -/
def State.alertTaken (s : State) (k pc n : Nat) : State :=
  (((s.updPc k pc fun p => { p with alert := true }).updStack k fun x => { x with alerts := n }).flagCount F.HBM_FLAGS_ca_alert
    F.HBM_CNT_ca_alert k).raise k Ev.HBM_CA_ALERT []

theorem State.caAlert_eq (s : State) (k pc n : Nat) : s.caAlert k pc n = if 4 ≤ n then ((((s.alertTaken k pc n).wr F.HBM_STACK_STATUS_state 3 k).wr
    F.HBM_FLAGS_ca_fail 1 k).raise k Ev.HBM_CA_FAIL []).hbmDrop k else s.alertTaken k pc n := rfl

theorem exec_hbmCaAlert {k pc : Nat} {replaying : Bool} {s : State} (h : s.rd F.HBM_STACK_STATUS_state k = 2) :
    exec (.hbmCaAlert k pc replaying) s = .next (s.caAlert k pc (if replaying || s.alertOn k then (s.stack k).alerts + 1 else 1)) := by
  change execHbmCaAlert k pc replaying s = _
  rw [execHbmCaAlert, if_pos h]

theorem State.alertTaken_spec (s : State) (k pc n : Nat) : (s.alertTaken k pc n).rd F.HBM_STACK_STATUS_state k = s.rd F.HBM_STACK_STATUS_state k
    ∧ (s.alertTaken k pc n).rd F.HBM_FLAGS_ca_alert k = 1
    ∧ (k < s.hbm.stackSts.length → ((s.alertTaken k pc n).stack k).alerts = n) := by
  refine ⟨?_, ?_, fun hk => ?_⟩
  · rw [State.alertTaken, State.rd_raise_other _ _ _ _ _ _ _ (by decide), State.rd_flagCount_other _ _ _ _ _ _ _ (by decide)]
    rfl
  · rw [State.alertTaken, State.rd_raise_other _ _ _ _ _ _ _ (by decide), State.rd_flagCount_flag _ _ _ _ (by decide)]
    rfl
  · have hh : (s.alertTaken k pc n).hbm = ((s.updPc k pc fun p => { p with alert := true }).updStack k fun x => { x with alerts := n }).hbm :=
      (State.Apart.hbm.raise ..).trans ((State.wr_hbm ..).trans (State.wr_hbm ..))
    rw [State.stack_congr hh]
    exact congrArg StackSt.alerts (State.stack_updStack_self _ (by simpa [State.updPc] using hk))

/-- The end of an alert lets its pseudo-channel issue again (R271). -/
theorem caAlertClear_of_idle {k pc covered : Nat} {s : State} (ha : ((s.stack k).pcs.getD pc PcSt.init).alert = true) (hk : k < s.hbm.stackSts.length)
    (hp : pc < (s.stack k).pcs.length) (hh : s.hbm.held = []) : Does (.hbmCaAlertClear k pc covered) s fun t =>
      ((t.stack k).pcs.getD pc PcSt.init).alert = false ∧ s.Only t [] := by
  let p := (s.stack k).pcs.getD pc PcSt.init
  let u := (s.updPc k pc fun p => { p with alert := false }).each (p.retry.drop (p.retry.length - covered)) fun s c => s.emit (.hbmReissue k pc c)
  have hex : exec (.hbmCaAlertClear k pc covered) s = .next u.hbmFlush := by
    change execHbmCaAlertClear k pc covered s = _
    rw [execHbmCaAlertClear]
    exact if_pos ha
  have hhbm : u.hbm = (s.updPc k pc fun p => { p with alert := false }).hbm := 
    State.each_of_kept State.hbm (f := fun s c => s.emit (.hbmReissue k pc c)) (fun _ _ => rfl) _ _
  have hheld : u.hbm.held = [] := by rw [hhbm]; exact hh
  have honly : s.Only u [] := State.Only.each (fun _ _ h => h.same) ((State.Only.refl s []).same) _
  refine Does.of_exec hex ⟨?_, honly.trans (State.only_hbmFlush hheld [])⟩
  rw [State.hbmFlush_of_idle hheld, show (u.updHbm fun h => { h with held := [] }).stack k = u.stack k from rfl, State.stack_congr hhbm,
    State.stack_updPc_self _ hk]
  exact congrArg PcSt.alert (updAt_getD_self _ _ _ _ hp)

/-! ### Uncorrectable reads -/

/-- The address is poisoned, and the read flagged and counted (R272). -/
def State.poisoned (s : State) (addr : Nat) : State :=
  (s.updHbm fun h => { h with poison := addr :: h.poison.filter (· ≠ addr) }).flagCount F.HBM_FLAGS_ue F.HBM_CNT_ue (stackOf addr)

/-- The address is latched as well. -/
def State.poisonLatched (s : State) (addr : Nat) : State :=
  (((s.poisoned addr).wr F.HBM_UE_ADDR_LO_value addr (stackOf addr)).wr F.HBM_UE_ADDR_HI_value (addr / 4294967296) (stackOf addr)).updStack
    (stackOf addr) fun x => { x with latched := true }

theorem exec_hbmUncorrRead (addr : Nat) (s : State) : exec (.hbmUncorrRead addr) s = .next
    ((if (s.stack (stackOf addr)).latched then s.poisoned addr else s.poisonLatched addr).raise (stackOf addr) Ev.HBM_UNCORR []) := rfl

theorem State.poisonLatched_spec (s : State) (addr : Nat) : (s.poisonLatched addr).rd F.HBM_FLAGS_ue (stackOf addr) = 1
    ∧ (s.poisonLatched addr).rd F.HBM_UE_ADDR_LO_value (stackOf addr) = addr % 2 ^ F.HBM_UE_ADDR_LO_value.width
    ∧ addr ∈ (s.poisonLatched addr).hbm.poison ∧ (s.poisonLatched addr).mem = s.mem := by
  refine ⟨?_, ?_, ?_, ?_⟩
  · rw [State.poisonLatched, State.updStack, State.updHbm_rd, State.rd_wr_other _ _ _ _ _ _ _ _ (by decide),
      State.rd_wr_other _ _ _ _ _ _ _ _ (by decide), State.poisoned, State.rd_flagCount_flag _ _ _ _ (by decide)]
    rfl
  · rw [State.poisonLatched, State.updStack, State.updHbm_rd, State.rd_wr_other _ _ _ _ _ _ _ _ (by decide), State.rd_wr_self]
  · have hp : (s.poisonLatched addr).hbm.poison = addr :: s.hbm.poison.filter (· ≠ addr) := by
      simp [State.poisonLatched, State.poisoned, State.updStack, State.flagCount, State.bump]
    rw [hp]
    exact List.mem_cons_self ..
  · simp [State.poisonLatched, State.poisoned, State.updStack]

/-! ### Hammered rows -/

/-- The row's count once an activation is taken, whether or not it reaches the threshold (R273). -/
theorem exec_hbmRowActivate {k pc bank row : Nat} {s : State} (h2 : s.rd F.HBM_STACK_STATUS_state k = 2) (ha : s.alertOn k = false) :
    exec (.hbmRowActivate k pc bank row) s = .next (
      let tab := activate ((s.stack k).pcs.getD pc PcSt.init).table bank row
      let hit := tab.any fun e => e.1 == bank && e.2.1 == row && decide (s.rd F.HBM_RH_CFG_threshold k ≤ e.2.2)
      let tab' := if hit then tab.map fun e => if e.1 = bank ∧ e.2.1 = row then (bank, row, 0) else e else tab
      let t := s.updPc k pc fun p => { p.issue [.activate bank row] with table := tab' }
      let near := nearRows row (s.rd F.HBM_RH_CFG_reach k)
      if hit then ((t.updPc k pc fun p => p.issue (near.map (.activate bank))).each near fun s r => s.emit (.rowRefresh k pc bank r)).flagCount
        F.HBM_FLAGS_rh_refresh F.HBM_CNT_RH_count k
      else t) := by
  change execHbmRowActivate k pc bank row s = _
  rw [execHbmRowActivate, if_neg (by simp [h2, ha])]
  dsimp only
  split <;> rfl

/-- Settles O31: each command of a stack changes that stack, its flags and counts, and nothing else. -/
theorem hbmStacks : Obligations.HbmStacks := by
  refine ⟨fun k pc s => ⟨fun temp h1 hh => ?_, fun b done hb h8 ha hall hk => ?_, fun b done hb ha hall hk => ?_, fun ha => ?_, fun h2 ha hk => ?_,
    fun h2 h3 => ?_, fun covered ha hk hp hh => caAlertClear_of_idle ha hk hp hh, fun addr hl => ?_, fun bank row h2 ha hit => ?_,
    fun bank row h2 ha hit => ?_, ?_⟩, fun k pc addr replaying s => ⟨exec_hbmCaAlert, rfl⟩⟩
  · have hex : exec (.hbmStackReady k temp) s
        = .next ((s.wr F.HBM_STACK_STATUS_state 2 k).wr F.HBM_STACK_STATUS_band (bandOf temp) k).hbmFlush := by
      change execHbmStackReady k temp s = _
      rw [execHbmStackReady, if_pos h1]
    have hheld : ((s.wr F.HBM_STACK_STATUS_state 2 k).wr F.HBM_STACK_STATUS_band (bandOf temp) k).hbm.held = [] := by
      rw [State.wr_hbm, State.wr_hbm, hh]
    refine Does.of_exec hex ⟨?_, ?_, State.Only.trans (((State.Only.refl s _).wr F.HBM_STACK_STATUS_state 2 k 0 (by simp)).wr
      F.HBM_STACK_STATUS_band (bandOf temp) k 0 (by simp)) (State.only_hbmFlush hheld _)⟩
    · rw [State.hbmFlush_of_idle hheld, State.updHbm_rd, State.rd_wr_other _ _ _ _ _ _ _ _ (by decide), State.rd_wr_self]
      rfl
    · rw [State.hbmFlush_of_idle hheld, State.updHbm_rd, State.rd_wr_self]
      exact Nat.mod_eq_of_lt (bandOf_lt temp)
  · refine Does.of_exec (exec_hbmAllBankRefresh_of_band hb ha) ?_
    simp only [hall, if_true]
    refine ⟨?_, ?_, ?_, ?_⟩
    · rw [State.rd_raise_other _ _ _ _ _ _ _ (by decide), State.rd_wr_other _ _ _ _ _ _ _ _ (by decide), State.rd_wr_self]
      exact Nat.mod_eq_of_lt h8
    · rw [State.rd_raise_other _ _ _ _ _ _ _ (by decide), State.rd_wr_self]
      rfl
    · rw [State.stack_congr ((State.Apart.hbm.raise ..).trans ((State.wr_hbm ..).trans (State.wr_hbm ..))),
        State.stack_updStack_self _ (by simpa [State.updPc] using hk)]
    · refine State.Raised.of_same ?_ (fun f hf => ?_) rfl
      · rw [State.wr_host, State.wr_host]
        rfl
      · rw [State.rd_wr_other _ _ _ _ _ _ _ _ (by revert f; decide), State.rd_wr_other _ _ _ _ _ _ _ _ (by revert f; decide)]
        rfl
  · refine Does.of_exec (exec_hbmAllBankRefresh_of_band hb ha) ?_
    simp only [hall, Bool.false_eq_true, if_false]
    exact ⟨congrArg StackSt.newBand (State.stack_updStack_self _ (by simpa [State.updPc] using hk)), (State.Only.refl s []).same⟩
  · change execHbmAllBankRefresh k pc s = _
    rw [execHbmAllBankRefresh, if_pos ha]
  · refine Does.of_exec (exec_hbmCaAlert h2) ?_
    obtain ⟨hst, hfl, hal⟩ := s.alertTaken_spec k pc 1
    rw [ha, Bool.or_self, if_neg (by decide), State.caAlert_eq, if_neg (by decide)]
    exact ⟨hst.trans h2, hfl, hal hk⟩
  · refine Does.of_exec (exec_hbmCaAlert h2) ?_
    rw [Bool.true_or, if_pos rfl, h3, State.caAlert_eq, if_pos (by decide)]
    refine ⟨?_, ?_⟩
    · rw [State.hbmDrop, State.updHbm_rd, State.rd_raise_other _ _ _ _ _ _ _ (by decide), State.rd_wr_other _ _ _ _ _ _ _ _ (by decide), State.rd_wr_self]
      rfl
    · rw [State.hbmDrop, State.updHbm_rd, State.rd_raise_other _ _ _ _ _ _ _ (by decide), State.rd_wr_self]
      rfl
  · refine Does.of_exec (exec_hbmUncorrRead addr s) ?_
    obtain ⟨hue, hlo, hpo, hmem⟩ := s.poisonLatched_spec addr
    rw [if_neg (Bool.eq_false_iff.mp hl)]
    refine ⟨?_, ?_, ?_, ?_⟩
    · rw [State.rd_raise_other _ _ _ _ _ _ _ (by decide), hue]
    · rw [State.rd_raise_other _ _ _ _ _ _ _ (by decide), hlo]
    · rw [State.Apart.hbm.raise]
      exact hpo
    · rw [State.raise_mem, hmem]
  · refine Does.of_exec (exec_hbmRowActivate h2 ha) ?_
    simp only [hit, Bool.false_eq_true, if_false]
    exact ⟨rfl, (State.Only.refl s []).same⟩
  · refine Does.of_exec (exec_hbmRowActivate h2 ha) ?_
    simp only [hit, if_true]
    refine ⟨(State.rd_flagCount_flag _ _ _ _ (by decide)).trans rfl, State.Only.flagCount ?_ F.HBM_FLAGS_rh_refresh F.HBM_CNT_RH_count k (by simp) (by simp)⟩
    exact State.Only.each (fun _ _ h => h.same) ((State.Only.refl s _).same) _
  · refine Does.of_exec (t := s.updHbm fun h => { h with stackSts := h.stackSts.map fun x =>
      { x with pcs := x.pcs.map fun p => { p with table := p.table.map fun e => (e.1, e.2.1, 0) } } }) rfl ⟨?_, (State.Only.refl s []).same⟩
    intro x hx p hp e he
    obtain ⟨y, -, rfl⟩ := List.mem_map.mp hx
    obtain ⟨q, -, rfl⟩ := List.mem_map.mp hp
    obtain ⟨d, -, rfl⟩ := List.mem_map.mp he
    rfl

end Sys2Proof.Machine
end

section
/-! PROOFS. Changes within a list of fields: the frame of a long change, by the fields that it may set at any index. -/
namespace Sys2Proof.Machine

set_option Elab.async false

/-- A field lies at the place of none of these. -/
abbrev Fld.Off (f : Fld) (l : List Fld) : Prop := ∀ x ∈ l, ¬ (f.base = x.base ∧ f.lo = x.lo)

/-- Every byte of HBM is unchanged, and every field but those listed, at every index. -/
structure State.Within (l : List Fld) (s t : State) : Prop where
  mem : t.mem = s.mem
  rd : ∀ (f : Fld) (i j : Nat), f.Off l → t.rd f i j = s.rd f i j

theorem Fld.Off.mono {f : Fld} {l m : List Fld} (h : f.Off m) (hl : ∀ x ∈ l, x ∈ m) : f.Off l := fun x hx => h x (hl x hx)

section
variable {l : List Fld} {s t u : State}

theorem State.Within.refl (l : List Fld) (s : State) : State.Within l s s := ⟨rfl, fun _ _ _ _ => rfl⟩

theorem State.Within.trans (h : State.Within l s t) (k : State.Within l t u) : State.Within l s u :=
  ⟨k.mem.trans h.mem, fun f i j hf => (k.rd f i j hf).trans (h.rd f i j hf)⟩

theorem State.Within.mono {m : List Fld} (h : State.Within l s t) (hl : ∀ x ∈ l, x ∈ m) : State.Within m s t :=
  ⟨h.mem, fun f i j hf => h.rd f i j (hf.mono hl)⟩

/-- A change of other parts of the state leaves the frame. -/
theorem State.Within.same (h : State.Within l s t) (hm : u.mem = t.mem := by rfl) (hc : u.cfg = t.cfg := by rfl) (hs : u.sts = t.sts := by rfl) :
    State.Within l s u :=
  ⟨hm.trans h.mem, fun f i j hf => (State.rd_congr hc hs f i j).trans (h.rd f i j hf)⟩

theorem State.Within.wr (h : State.Within l s t) {f : Fld} (hf : f ∈ l) (v i j : Nat) : State.Within l s (t.wr f v i j) :=
  ⟨(State.wr_mem ..).trans h.mem, fun g k m hg => (State.rd_wr_other _ _ _ _ _ _ _ _ (hg f hf)).trans (h.rd g k m hg)⟩

theorem State.Within.bump (h : State.Within l s t) {f : Fld} (hf : f ∈ l) (i j n : Nat) : State.Within l s (t.bump f i j n) := h.wr hf _ i j

theorem State.Within.flagCount (h : State.Within l s t) {a b : Fld} (ha : a ∈ l) (hb : b ∈ l) (i : Nat) : State.Within l s (t.flagCount a b i) :=
  (h.wr ha 1 i 0).bump hb i 0 1

theorem State.Within.ite {c : Prop} [Decidable c] (ht : State.Within l s t) (hu : State.Within l s u) : State.Within l s (if c then t else u) := by
  split
  · exact ht
  · exact hu

theorem State.Within.whenB {b : Bool} {f : State → State} (ht : State.Within l s t) (hf : State.Within l s (f t)) :
    State.Within l s (t.whenB b f) := by
  cases b
  · exact ht
  · exact hf

theorem State.Within.each {α : Type} {f : State → α → State} (h : State.Within l s t) (xs : List α)
    (hf : ∀ u x, State.Within l s u → State.Within l s (f u x)) : State.Within l s (t.each xs f) := by
  induction xs generalizing t with
  | nil => exact h
  | cons x xs ih => exact ih (hf t x h)

/-- The fields of an event. -/
def eventFlds : List Fld := [F.GLB_EV_SEQ_next, F.RING_EVQ_LOST_count, F.RING_FLAGS_evq_lost]

theorem Fld.Off.event {f : Fld} (h : f.Off eventFlds) : ∀ x ∈ eventFields, ¬ (f.base = x.1.base ∧ f.lo = x.1.lo) := by
  simp only [Fld.Off, eventFlds, eventFields, List.forall_mem_cons] at h ⊢
  obtain ⟨h1, h2, h3, -⟩ := h
  exact ⟨h1, h2, h3, by simp⟩

theorem State.Within.raise (h : State.Within l s t) (hl : ∀ x ∈ eventFlds, x ∈ l) (half code : Nat) (p : List Byte) :
    State.Within l s (t.raise half code p) :=
  ⟨(State.raise_mem ..).trans h.mem, fun f i j hf => (State.rd_raise_other _ _ _ _ _ _ _ (hf.mono hl).event).trans (h.rd f i j hf)⟩

theorem State.Within.post (h : State.Within l s t) (hl : ∀ x ∈ eventFlds, x ∈ l) (r : Rec) : State.Within l s (t.post r) := by
  refine ⟨(State.Apart.mem.post ..).trans h.mem, fun f i j hf => (State.rd_post_other _ _ _ _ _ fun x hx => ?_).trans (h.rd f i j hf)⟩
  refine hf x (hl x ?_)
  simp only [List.mem_cons, List.not_mem_nil, or_false] at hx
  rcases hx with rfl | rfl <;> decide

/-- The fields that the end of a command may set: those of a record, and the counts of outstanding commands. -/
def commandFlds : List Fld := eventFlds ++ [F.RING_OUTSTANDING_now, F.RING_OUTSTANDING_peak]

theorem State.Within.complete (h : State.Within l s t) (hl : ∀ x ∈ commandFlds, x ∈ l) (id status a b half : Nat) :
    State.Within l s (t.complete id status a b half) := by
  have hev : ∀ x ∈ eventFlds, x ∈ l := fun x hx => hl x (List.mem_append_left _ hx)
  have hnow := hl F.RING_OUTSTANDING_now (by decide)
  have hpeak := hl F.RING_OUTSTANDING_peak (by decide)
  unfold State.complete
  split
  · exact h
  · refine .ite h (.ite (.ite h.same ?_) (State.Within.post h.same hev _))
    have hd : State.Within l s (t.updHost fun h => { h with cmds := h.cmds.filter fun c => c.id ≠ id }) := h.same
    exact (hd.wr hnow _ 0 0).wr hpeak _ 0 0

end

/-- A frame without the quiet flags leaves both halves as quiet as they were. -/
theorem State.Within.quiet {l : List Fld} {s t : State} (h : State.Within l s t) (hq : F.AUTH_STATUS_quiet_w.Off l ∧ F.AUTH_STATUS_quiet_e.Off l)
    (f : Fld) (hf : f ∈ [F.AUTH_STATUS_quiet_w, F.AUTH_STATUS_quiet_e]) : t.rd f = s.rd f := by
  simp only [List.mem_cons, List.not_mem_nil, or_false] at hf
  rcases hf with rfl | rfl
  · exact h.rd _ _ _ hq.1
  · exact h.rd _ _ _ hq.2

end Sys2Proof.Machine
end

section
/-! PROOFS. A magazine port powers, initialises, halts and goes off (spec/09, R289 to R293). -/
namespace Sys2Proof.Machine

set_option Elab.async false

/-! ### A port that is cleared -/

/-- The fields that follow what a port holds. -/
def clearFlds : List Fld :=
  [F.MAG_OPS_now, F.MAG_OPS_peak, F.MAG_SCRUB_STATUS_running, F.MAG_SCRUB_STATUS_pending, F.REEL_STATUS_version, F.REEL_STATUS_mounted,
   F.REEL_STATUS_read_only, F.REEL_STATUS_encrypted, F.REEL_STATUS_pair_pending, F.STOR_ADMIN_STATUS_op, F.STOR_ADMIN_STATUS_phase,
   F.STOR_ADMIN_DONE_value, F.STOR_ADMIN_TOTAL_value, F.REEL_WIP_op, F.REEL_WIP_done, F.REEL_WIP_total, F.REEL_STATUS_wip,
   F.REEL_EXPOSURE_pfw_loss, F.REEL_EXPOSURE_cut_loss]

section
variable {l : List Fld} {s t : State}

theorem State.Within.opsStatus (h : State.Within l s t) (hl : ∀ x ∈ [F.MAG_OPS_now, F.MAG_OPS_peak, F.MAG_SCRUB_STATUS_running,
    F.MAG_SCRUB_STATUS_pending], x ∈ l) (p : Nat) : State.Within l s (t.opsStatus p) := by
  simp only [List.forall_mem_cons] at hl
  obtain ⟨h1, h2, h3, h4, -⟩ := hl
  exact (((h.wr h1 _ p 0).wr h2 _ p 0).wr h3 _ p 0).wr h4 _ p 0

theorem State.Within.reelStatus (h : State.Within l s t) (hl : ∀ x ∈ clearFlds, x ∈ l) (p : Nat) : State.Within l s (t.reelStatus p) := by
  have hm : ∀ x ∈ [F.REEL_STATUS_version, F.REEL_STATUS_mounted, F.REEL_STATUS_read_only, F.REEL_STATUS_encrypted, F.REEL_STATUS_pair_pending], x ∈ l :=
    fun x hx => hl x (by revert x; decide)
  simp only [List.forall_mem_cons] at hm
  obtain ⟨h1, h2, h3, h4, h5, -⟩ := hm
  unfold State.reelStatus
  split
  · exact (((h.wr h1 _ p 0).wr h2 _ p 0).wr h3 _ p 0).wr h4 _ p 0
  · exact ((((h.wr h1 _ p 0).wr h2 _ p 0).wr h3 _ p 0).wr h4 _ p 0).wr h5 _ p 0

theorem State.Within.adminStatus (h : State.Within l s t) (hl : ∀ x ∈ clearFlds, x ∈ l) (p : Nat) : State.Within l s (t.adminStatus p) := by
  have hm : ∀ x ∈ [F.STOR_ADMIN_STATUS_op, F.STOR_ADMIN_STATUS_phase, F.STOR_ADMIN_DONE_value, F.STOR_ADMIN_TOTAL_value, F.REEL_WIP_op,
      F.REEL_WIP_done, F.REEL_WIP_total, F.REEL_STATUS_wip], x ∈ l := fun x hx => hl x (by revert x; decide)
  simp only [List.forall_mem_cons] at hm
  obtain ⟨h1, h2, h3, h4, h5, h6, h7, h8, -⟩ := hm
  unfold State.adminStatus
  split
  · exact (((((((h.wr h1 _ p 0).wr h2 _ p 0).wr h3 _ p 0).wr h4 _ p 0).wr h5 _ p 0).wr h6 _ p 0).wr h7 _ p 0).wr h8 _ p 0
  · exact (((((h.wr h1 _ p 0).wr h2 _ p 0).wr h5 _ p 0).wr h8 _ p 0).wr h3 _ p 0).wr h4 _ p 0

theorem State.Within.exposure (h : State.Within l s t) (hl : ∀ x ∈ clearFlds, x ∈ l) (p : Nat) : State.Within l s (t.exposure p) := by
  have h1 := hl F.REEL_EXPOSURE_pfw_loss (by decide)
  have h2 := hl F.REEL_EXPOSURE_cut_loss (by decide)
  exact (((h.wr h1 _ p 0).wr h2 _ p 0).wr h1 _ (1 - p) 0).wr h2 _ (1 - p) 0

/-- Clearing a port on which no segment waits to be written. -/
theorem State.Within.clearPort (h : State.Within l s t) (hl : ∀ x ∈ clearFlds, x ∈ l) {p : Nat} (ht : (t.port p).tasks = []) (mag : Option Magazine) :
    State.Within l s (t.clearPort p mag) := by
  unfold State.clearPort
  rw [ht]
  have h0 : State.Within l s ((t.each [] State.freeSource).updPort p fun _ => { PortSt.init with mag := mag }) := h.same
  exact (((h0.opsStatus (fun x hx => hl x (by revert x; decide)) p).reelStatus hl p).adminStatus hl p).exposure hl p

end

theorem State.opsStatus_kept {α : Type} (π : State → α) (hw : ∀ (s : State) (f : Fld) (v i j : Nat), π (s.wr f v i j) = π s) (s : State) (p : Nat) :
    π (s.opsStatus p) = π s := by
  simp only [State.opsStatus, State.peak, hw]

theorem State.reelStatus_kept {α : Type} (π : State → α) (hw : ∀ (s : State) (f : Fld) (v i j : Nat), π (s.wr f v i j) = π s) (s : State) (p : Nat) :
    π (s.reelStatus p) = π s := by
  unfold State.reelStatus
  split <;> simp only [hw]

theorem State.adminStatus_kept {α : Type} (π : State → α) (hw : ∀ (s : State) (f : Fld) (v i j : Nat), π (s.wr f v i j) = π s) (s : State) (p : Nat) :
    π (s.adminStatus p) = π s := by
  unfold State.adminStatus
  split <;> simp only [hw]

/-- What field settings leave, the status of a port leaves. -/
theorem State.portStatus_kept {α : Type} (π : State → α) (hw : ∀ (s : State) (f : Fld) (v i j : Nat), π (s.wr f v i j) = π s) (s : State) (p : Nat) :
    π ((((s.opsStatus p).reelStatus p).adminStatus p).exposure p) = π s := by
  have he : ∀ u : State, π (u.exposure p) = π u := fun u => by simp only [State.exposure, State.exposureOf, hw]
  rw [he, State.adminStatus_kept π hw, State.reelStatus_kept π hw, State.opsStatus_kept π hw]

/-! ### A port that goes off with nothing in hand -/

/-- Nothing of a port is in hand: no take, no operation, no command and no segment; and no FLUSH waits. -/
structure State.Unused (s : State) (p : Nat) : Prop where
  takes : s.takesOn p = []
  ops : (s.port p).allOps = []
  sides : (s.port p).sides = []
  admin : (s.port p).admin = none
  mount : (s.port p).mount = none
  unmount : (s.port p).unmount = none
  tasks : (s.port p).tasks = []
  flushes : s.stor.flushes = []

theorem State.endPortCmds_of_none {s : State} {p : Nat} (ho : (s.port p).allOps = []) (hs : (s.port p).sides = []) (ha : (s.port p).admin = none)
    (hm : (s.port p).mount = none) (hu : (s.port p).unmount = none) (status : Nat) : s.endPortCmds p status = s := by
  simp only [State.endPortCmds, ho, hs, ha, hm, hu]
  rfl

theorem State.flushCheck_of_none {s : State} (h : s.stor.flushes = []) : s.flushCheck = s.updStor fun x => { x with flushes := [] } := by
  simp only [State.flushCheck, State.updStor, h, List.map_nil, List.filter_nil]
  rfl

theorem State.port_congr {s t : State} (h : t.stor = s.stor) (p : Nat) : t.port p = s.port p := by
  rw [State.port, State.port, h]

theorem State.takesOn_congr {s t : State} (hr : ∀ e, t.rd F.TAKE_STATUS_state e = s.rd F.TAKE_STATUS_state e) (hs : t.stor.takes = s.stor.takes)
    (p : Nat) : t.takesOn p = s.takesOn p := by
  simp only [State.takesOn, State.takeOpen, State.take, hr, hs]

theorem State.Unused.wr {s : State} {p : Nat} (h : s.Unused p) {f : Fld}
    (hf : ¬ (F.TAKE_STATUS_state.base = f.base ∧ F.TAKE_STATUS_state.lo = f.lo)) (v i j : Nat) : (s.wr f v i j).Unused p := by
  have hp : (s.wr f v i j).port p = s.port p := State.port_congr (State.wr_stor ..) p
  exact { takes := (State.takesOn_congr (fun e => State.rd_wr_other _ _ _ _ _ _ _ _ hf)
            (congrArg StoreSt.takes (State.wr_stor ..)) p).trans h.takes
          ops := hp ▸ h.ops, sides := hp ▸ h.sides, admin := hp ▸ h.admin, mount := hp ▸ h.mount, unmount := hp ▸ h.unmount
          tasks := hp ▸ h.tasks, flushes := (congrArg StoreSt.flushes (State.wr_stor ..)).trans h.flushes }

/-- The port once it is cleared, before the FLUSH commands are looked at. -/
def State.portDown (s : State) (p : Nat) (mag : Option Magazine) : State := ((s.clearPort p mag).setPort p 0).pwrEn p false

theorem State.portDown_stor {s : State} {p : Nat} (h : (s.port p).tasks = []) (mag : Option Magazine) :
    (s.portDown p mag).stor = (s.updPort p fun _ => { PortSt.init with mag := mag }).stor := by
  rw [State.portDown, State.pwrEn, State.emit_stor, State.wr_stor, State.setPort, State.wr_stor, State.clearPort,
    State.portStatus_kept State.stor State.wr_stor, h]
  rfl

theorem State.portOff_of_unused {s : State} {p : Nat} (h : s.Unused p) (status code : Nat) (mag : Option Magazine) :
    s.portOff p status code mag = (s.portDown p mag).updStor fun x => { x with flushes := [] } := by
  have he : s.endPortTakes p status code = s := by
    rw [State.endPortTakes, h.takes]
    rfl
  have hf : (s.portDown p mag).stor.flushes = [] := by
    rw [State.portDown_stor h.tasks]
    exact h.flushes
  rw [← State.flushCheck_of_none hf, State.portOff, he, State.endPortCmds_of_none h.ops h.sides h.admin h.mount h.unmount]
  rfl

/-- The fields of a port that goes off. -/
def portOffFlds : List Fld := clearFlds ++ [F.MAG_PORT_STATUS_state, F.MAG_PORT_STATUS_pwr_en]

theorem State.Unused.within {s : State} {p : Nat} (h : s.Unused p) (status code : Nat) (mag : Option Magazine) :
    State.Within portOffFlds s (s.portOff p status code mag) := by
  rw [State.portOff_of_unused h]
  have hc := (State.Within.refl portOffFlds s).clearPort (fun x hx => List.mem_append_left _ hx) h.tasks mag
  have hd : State.Within portOffFlds s (s.portDown p mag) :=
    State.Within.same ((hc.wr (f := F.MAG_PORT_STATUS_state) (by decide) 0 p 0).wr (f := F.MAG_PORT_STATUS_pwr_en) (by decide) (b2n false) p 0)
      (State.emit_mem ..) (State.emit_cfg ..) (State.emit_sts ..)
  exact hd.same (State.updStor_mem ..) (State.updStor_cfg ..) (State.updStor_sts ..)

theorem State.Unused.portState {s : State} {p : Nat} (h : s.Unused p) (status code : Nat) (mag : Option Magazine) :
    (s.portOff p status code mag).portState p = 0 ∧ (s.portOff p status code mag).rd F.MAG_PORT_STATUS_pwr_en p = 0 := by
  rw [State.portOff_of_unused h, State.portState, State.updStor_rd, State.updStor_rd, State.portDown, State.pwrEn, State.emit_rd, State.emit_rd, State.rd_wr_self,
    State.rd_wr_other _ _ _ _ _ _ _ _ (by decide), State.setPort, State.rd_wr_self]
  exact ⟨rfl, rfl⟩

theorem State.Unused.host {s : State} {p : Nat} (h : s.Unused p) (status code : Nat) (mag : Option Magazine) :
    (s.portOff p status code mag).host = s.host := by
  rw [State.portOff_of_unused h, State.updStor_host, State.portDown, State.pwrEn, State.emit_host, State.wr_host, State.setPort, State.wr_host, State.clearPort,
    State.portStatus_kept State.host State.wr_host, h.tasks]
  rfl

theorem State.port_updPort_self {s : State} {p : Nat} (f : PortSt → PortSt) (h : p < s.stor.ports.length) :
    (s.updPort p f).port p = f (s.port p) := updAt_getD_self _ _ _ _ h

theorem State.port_updPort_of_kept {β : Type} (π : PortSt → β) (s : State) (p k : Nat) (f : PortSt → PortSt) (h : ∀ x, π (f x) = π x) :
    π ((s.updPort p f).port k) = π (s.port k) := updAt_getD_of_kept π _ _ _ f _ h

theorem State.Unused.mag {s : State} {p : Nat} (h : s.Unused p) (status code : Nat) : ((s.portOff p status code none).port p).mag = none := by
  have hs : (s.portOff p status code none).port p = (s.updPort p fun _ => { PortSt.init with mag := none }).port p := by
    have hf : ((s.portDown p none).updStor fun x => { x with flushes := [] }).port p = (s.portDown p none).port p := rfl
    rw [State.portOff_of_unused h, hf]
    exact State.port_congr (State.portDown_stor h.tasks none) p
  rw [hs]
  by_cases hp : p < s.stor.ports.length
  · rw [State.port_updPort_self _ hp]
  · rw [State.port, getD_of_ge (by simpa [State.updPort] using hp)]
    rfl

/-! ### Power, initialisation and retry -/

theorem State.rd_nandInit_state (s : State) (p : Nat) : (s.nandInit p).portState p = 2 := by
  rw [State.nandInit, State.portState, State.emit_rd, State.setPort, State.rd_wr_self]
  rfl

/-- One port at the end of the power-fail warning. -/
theorem State.portState_recover_other {s : State} {p q : Nat} (h : p ≠ q) :
    (if s.portState q = 6 then s.nandInit q else s).portState p = s.portState p := by
  split
  · rw [State.nandInit, State.portState, State.emit_rd, State.setPort, State.rd_wr_inst _ _ _ _ _ _ _ _ (.inl h)]
    rfl
  · rfl

theorem exec_magInitDone {p : Nat} {g : Magazine} {s : State} (h2 : s.portState p = 2) (hg : (s.port p).mag = some g) :
    exec (.magInitDone p) s = .next (s.magReady p g.ident) := by
  change execMagInitDone p s = _
  rw [execMagInitDone, if_neg (not_not_intro h2), hg]

theorem State.nandTrain_kept {α : Type} (π : State → α) (h : ∀ (s : State) (x : Emit), π (s.emit x) = π s) (s : State) (p : Nat) (odt : Bool) :
    π (s.nandTrain p odt) = π s :=
  State.each_of_kept π (fun t _ => h t _) s _

/-- A magazine that meets every requirement is READY with its geometry and rate published (R291). -/
theorem State.magReady_of_good {s : State} {m : MagIdent} (p : Nat) (h : refuseCode m = 0) : (s.magReady p m).portState p = 3
    ∧ (s.magReady p m).rd F.MAG_PORT_STATUS_refuse_code p = 0 ∧ (s.magReady p m).rd F.MAG_RATE_rate p = magRate m % 2 ^ F.MAG_RATE_rate.width
    ∧ (s.magReady p m).rd F.MAG_GEOM_blocks p = m.blocks % 2 ^ F.MAG_GEOM_blocks.width := by
  simp (disch := decide) only [State.magReady, h, ne_eq, not_true, if_false, State.portState, State.setPort, State.rd_wr_self, State.rd_wr_other]
  exact ⟨rfl, rfl, trivial, trivial⟩

theorem refuseCode_lt (m : MagIdent) : refuseCode m < 16 := by
  unfold refuseCode
  repeat' split
  all_goals decide

/-- One that does not is refused with the number of the first requirement it fails (R291). -/
theorem State.magReady_of_refused {s : State} {m : MagIdent} (p : Nat) (h : refuseCode m ≠ 0) : (s.magReady p m).portState p = 7
    ∧ (s.magReady p m).rd F.MAG_PORT_STATUS_refuse_code p = refuseCode m ∧ (s.magReady p m).rd F.MAG_FLAGS_init_fail p = 1
    ∧ s.Raised (s.magReady p m) p Ev.MAG_INIT_FAIL [] := by
  have heq : s.magReady p m = ((((s.nandTrain p m.odt).wr F.MAG_PORT_STATUS_refuse_code (refuseCode m) p).setPort p 7).wr F.MAG_FLAGS_init_fail 1 p).raise p
      Ev.MAG_INIT_FAIL [] := by
    rw [State.magReady]
    exact if_pos h
  rw [heq]
  refine ⟨?_, ?_, ?_, State.Raised.of_same ?_ (fun f hf => ?_) rfl⟩
  · simp (disch := decide) only [State.portState, State.setPort, State.rd_raise_other, State.rd_wr_self, State.rd_wr_other]
    rfl
  · simp (disch := decide) only [State.setPort, State.rd_raise_other, State.rd_wr_self, State.rd_wr_other]
    exact Nat.mod_eq_of_lt (refuseCode_lt m)
  · simp (disch := decide) only [State.rd_raise_other, State.rd_wr_self]
    rfl
  · rw [State.wr_host, State.setPort, State.wr_host, State.wr_host, State.nandTrain_kept State.host (fun _ _ => rfl)]
  · rw [State.setPort, State.rd_wr_other _ _ _ _ _ _ _ _ (by revert f; decide), State.rd_wr_other _ _ _ _ _ _ _ _ (by revert f; decide),
      State.rd_wr_other _ _ _ _ _ _ _ _ (by revert f; decide), State.nandTrain_kept (fun t => t.rd f) (fun _ _ => rfl)]

/-- A seated magazine powers its port (R289). -/
theorem magInsertion_powers {p : Nat} {m : Magazine} {s : State} (hpres : s.on F.MAG_PORT_STATUS_pres p = false) (h0 : s.portState p = 0)
    (hfw : s.rd F.FW_STATUS_state ≠ 2) (hen : s.on F.MAG_PORT_CTRL_enable p = true) (hrel : s.released (22 + p) = true)
    (hup : s.blockUp (0x48 + p) = true) : exec (.magInsertion p m) s = .next
      (((((s.updPort p fun x => { x with mag := some m }).wr F.MAG_PORT_STATUS_pres 1 p).setPort p 1).pwrEn p true).raise p Ev.MAG_INSERTED []) := by
  let u := (s.updPort p fun x => { x with mag := some m }).wr F.MAG_PORT_STATUS_pres 1 p
  have hu : ∀ (f : Fld) (i j : Nat), f.Off [F.MAG_PORT_STATUS_pres] → u.rd f i j = s.rd f i j := fun f i j hf =>
    State.rd_wr_other _ _ _ _ _ _ _ _ (hf _ (List.mem_singleton_self _))
  have hon : u.on F.MAG_PORT_STATUS_pres p = true := by
    rw [State.on, State.rd_wr_self]
    rfl
  have hall : u.portState p = 0 ∧ u.rd F.FW_STATUS_state ≠ 2 ∧ u.on F.MAG_PORT_STATUS_pres p = true ∧ u.on F.MAG_PORT_CTRL_enable p = true
      ∧ u.released (22 + p) = true ∧ u.blockUp (0x48 + p) = true := by
    refine ⟨(hu _ _ _ (by decide)).trans h0, ?_, hon, ?_, ?_, ?_⟩
    · rw [hu _ _ _ (by decide)]
      exact hfw
    · rw [State.on, hu _ _ _ (by decide)]
      exact hen
    · rw [State.released, hu _ _ _ (by decide)]
      exact hrel
    · rw [State.blockUp, State.wr_sys]
      exact hup
  change execMagInsertion p m s = _
  rw [execMagInsertion, if_neg (Bool.eq_false_iff.mp hpres)]
  change Host.Outcome.next (u.portPower p) = _
  rw [State.portPower, if_pos hall]

/-- Settles O33: each move of a port is one equation; going off with nothing in hand touches the port's own fields alone. -/
theorem magazineBringUp : Obligations.MagazineBringUp := by
  refine ⟨fun p s => ⟨fun m hpres h0 hfw hen hrel hup => ?_, fun hpres h0 => ?_, fun hpres h3 ht ho hs ha hm hu htk hfl => ?_, fun h1 => ?_,
    fun g h2 hg hc => ⟨_, exec_magInitDone h2 hg, State.magReady_of_good p hc⟩, fun g h2 hg hc => ⟨_, exec_magInitDone h2 hg, State.magReady_of_refused p hc⟩,
    fun h7 => ?_, fun hp h6 => ?_, fun ht => ?_, fun ht h0 => ?_, fun h3 ht ho hs ha hm hu htk hfl => ?_⟩, fun p g s => exec_magInitDone, fun s => rfl⟩
  · refine Does.of_exec (magInsertion_powers hpres h0 hfw hen hrel hup) ⟨?_, ?_, ?_, State.Raised.of_same ?_ (fun f hf => ?_) rfl, ?_⟩
    · simp (disch := decide) only [State.pwrEn, State.setPort, State.rd_raise_other, State.emit_rd, State.rd_wr_self, State.rd_wr_other]
      rfl
    · simp (disch := decide) only [State.portState, State.pwrEn, State.setPort, State.rd_raise_other, State.emit_rd, State.rd_wr_self, State.rd_wr_other]
      rfl
    · simp (disch := decide) only [State.pwrEn, State.rd_raise_other, State.emit_rd, State.rd_wr_self]
      rfl
    · rw [State.pwrEn, State.emit_host, State.wr_host, State.setPort, State.wr_host, State.wr_host]
      rfl
    · rw [State.pwrEn, State.emit_rd, State.rd_wr_other _ _ _ _ _ _ _ _ (by revert f; decide), State.setPort,
        State.rd_wr_other _ _ _ _ _ _ _ _ (by revert f; decide), State.rd_wr_other _ _ _ _ _ _ _ _ (by revert f; decide)]
      rfl
    · refine State.Only.raise (State.Only.same (t := ((((s.updPort p fun x => { x with mag := some m }).wr F.MAG_PORT_STATUS_pres 1 p).setPort p 1).wr
        F.MAG_PORT_STATUS_pwr_en (b2n true) p)) ?_) p Ev.MAG_INSERTED [] fun _ hx => List.mem_append_right _ hx
      refine State.Only.wr (State.Only.wr (State.Only.wr ?_ F.MAG_PORT_STATUS_pres _ p 0 (by simp)) F.MAG_PORT_STATUS_state _ p 0 (by simp))
        F.MAG_PORT_STATUS_pwr_en _ p 0 (by simp)
      exact (State.Only.refl s _).same
  · have hex : exec (.magRemoval p) s = .next ((s.wr F.MAG_PORT_STATUS_pres 0 p).updPort p fun _ => PortSt.init) := by
      change execMagRemoval p s = _
      rw [execMagRemoval, if_neg (by simp [hpres])]
      exact if_pos h0
    exact Does.of_exec hex ⟨(State.rd_wr_self s F.MAG_PORT_STATUS_pres 0 p 0).trans (Nat.zero_mod _),
      State.Only.same ((State.Only.refl s _).wr F.MAG_PORT_STATUS_pres 0 p 0 (by simp))⟩
  · have hun : (s.wr F.MAG_PORT_STATUS_pres 0 p).Unused p := State.Unused.wr ⟨ht, ho, hs, ha, hm, hu, htk, hfl⟩ (by decide) 0 p 0
    have hex : exec (.magRemoval p) s = .next ((((s.wr F.MAG_PORT_STATUS_pres 0 p).portOff p St.MAG_REMOVED 4 none).wr F.MAG_PORT_STATUS_refuse_code 0
        p).raise p Ev.MAG_REMOVED []) := by
      change execMagRemoval p s = _
      rw [execMagRemoval, if_neg (by simp [hpres])]
      exact if_neg (by rw [h3]; decide)
    have hw := hun.within St.MAG_REMOVED 4 none
    have hst := hun.portState St.MAG_REMOVED 4 none
    refine Does.of_exec hex ⟨?_, ?_, ?_, ?_, ?_, State.Raised.of_same ?_ (fun f hf => ?_) rfl, ?_⟩
    · rw [State.rd_raise_other _ _ _ _ _ _ _ (by decide), State.rd_wr_other _ _ _ _ _ _ _ _ (by decide), hw.rd _ _ _ (by decide), State.rd_wr_self]
      rfl
    · rw [State.portState, State.rd_raise_other _ _ _ _ _ _ _ (by decide), State.rd_wr_other _ _ _ _ _ _ _ _ (by decide)]
      exact hst.1
    · rw [State.rd_raise_other _ _ _ _ _ _ _ (by decide), State.rd_wr_other _ _ _ _ _ _ _ _ (by decide)]
      exact hst.2
    · rw [State.rd_raise_other _ _ _ _ _ _ _ (by decide), State.rd_wr_self]
      rfl
    · rw [State.port_congr ((State.Apart.stor.raise ..).trans (State.wr_stor ..))]
      exact hun.mag _ _
    · rw [State.wr_host, hun.host, State.wr_host]
    · rw [State.rd_wr_other _ _ _ _ _ _ _ _ (by revert f; decide), hw.quiet (by decide) f hf, State.rd_wr_other _ _ _ _ _ _ _ _ (by revert f; decide)]
    · rw [State.raise_mem, State.wr_mem, hw.mem, State.wr_mem]
  · have hex : exec (.magRampDone p) s = .next (s.nandInit p) := by
      change execMagRampDone p s = _
      rw [execMagRampDone, if_pos h1]
    refine Does.of_exec hex ⟨State.rd_nandInit_state s p, ?_, State.Only.same ((State.Only.refl s _).wr F.MAG_PORT_STATUS_state 2 p 0 (by simp))⟩
    rw [State.nandInit, State.emit_out, State.setPort, State.wr_out]
  · have hex : exec (.magRetry p) s = .next (((s.pwrEn p false).pwrEn p true).setPort p 1) := by
      change execMagRetry p s = _
      rw [execMagRetry, if_pos h7]
    refine Does.of_exec hex ⟨State.rd_wr_self .., ?_, ?_⟩
    · simp (disch := decide) only [State.setPort, State.pwrEn, State.rd_wr_other, State.emit_rd, State.rd_wr_self]
      rfl
    · have h1 : s.Only (s.pwrEn p false) [(F.MAG_PORT_STATUS_state, p), (F.MAG_PORT_STATUS_pwr_en, p)] :=
        State.Only.same ((State.Only.refl s _).wr F.MAG_PORT_STATUS_pwr_en _ p 0 (by simp))
      have h2 : s.Only ((s.pwrEn p false).pwrEn p true) [(F.MAG_PORT_STATUS_state, p), (F.MAG_PORT_STATUS_pwr_en, p)] :=
        State.Only.same (h1.wr F.MAG_PORT_STATUS_pwr_en _ p 0 (by simp))
      exact h2.wr F.MAG_PORT_STATUS_state 1 p 0 (by simp)
  · have h01 : p = 0 ∨ p = 1 := by omega
    refine Does.of_exec (show exec .pfwNRecover s = _ from rfl) ?_
    simp only [State.each, List.foldl_cons, List.foldl_nil]
    rcases h01 with rfl | rfl
    · rw [State.portState_recover_other (by decide), if_pos h6, State.rd_nandInit_state]
    · rw [if_pos ((State.portState_recover_other (by decide)).trans h6), State.rd_nandInit_state]
  · have hex : exec (.magPortDisable p) s = .next (s.wr F.MAG_FLAGS_cfg_refused 1 p) := by
      change execMagPortDisable p s = _
      rw [execMagPortDisable, if_pos ht]
    exact Does.of_exec hex (s.refusal_flag _ p rfl)
  · have hex : exec (.magPortDisable p) s = .next (s.wr F.MAG_PORT_CTRL_enable 0 p) := by
      change execMagPortDisable p s = _
      rw [execMagPortDisable, if_neg (Bool.eq_false_iff.mp ht)]
      exact congrArg Host.Outcome.next (if_pos h0)
    exact Does.of_exec hex ⟨(State.rd_wr_self ..).trans (Nat.zero_mod _), (State.Only.refl s _).wr F.MAG_PORT_CTRL_enable 0 p 0 (by simp)⟩
  · have hun : (s.wr F.MAG_PORT_CTRL_enable 0 p).Unused p := State.Unused.wr ⟨ht, ho, hs, ha, hm, hu, htk, hfl⟩ (by decide) 0 p 0
    have hex : exec (.magPortDisable p) s = .next ((s.wr F.MAG_PORT_CTRL_enable 0 p).portOff p St.MAG_NOT_READY 4 (s.port p).mag) := by
      change execMagPortDisable p s = _
      rw [execMagPortDisable, if_neg (by rw [State.portTakeOpen, ht]; decide)]
      exact congrArg Host.Outcome.next (if_neg (by rw [h3]; decide))
    have hw := hun.within St.MAG_NOT_READY 4 (s.port p).mag
    obtain ⟨hst, hpw⟩ := hun.portState St.MAG_NOT_READY 4 (s.port p).mag
    refine Does.of_exec hex ⟨?_, hst, hpw, hw.mem.trans (State.wr_mem ..)⟩
    rw [hw.rd _ _ _ (by decide), State.rd_wr_self]
    rfl

end Sys2Proof.Machine
end

section
/-! PROOFS. The power-fail warning of a magazine port (spec/09, R323). -/
namespace Sys2Proof.Machine

set_option Elab.async false

/-- Looking at the FLUSH commands ends commands and does nothing else. -/
theorem State.Within.flushCheck {l : List Fld} {s t : State} (h : State.Within l s t) (hl : ∀ x ∈ commandFlds, x ∈ l) : State.Within l s t.flushCheck := by
  unfold State.flushCheck
  extract_lets live u ready
  have hu : State.Within l s u := h.same
  have he : State.Within l s (u.each ready fun s w => s.complete w.1 St.OK w.2.2.2) := hu.each _ fun v w hv => hv.complete hl _ _ _ _ _
  exact he.same

theorem State.passGroup_of_none {s : State} {p : Nat} (h : (s.port p).ledger.group = none) : s.passGroup p = s := by
  rw [State.passGroup, h]

theorem State.stepFour_of_no_reel {s : State} {p : Nat} (h : (s.port p).reel = none) (n : Nat) : s.stepFour p n = s := by
  cases n with
  | zero => rfl
  | succ n => rw [State.stepFour, h]

theorem exec_pfwProgramsDrained {p : Nat} {s : State} (hw : (s.port p).pfw = true) (ho : ((s.port p).ops.any fun o => o.running && o.programs) = false)
    (finished us : Nat) : exec (.pfwProgramsDrained p finished us) s = .next (s.pfwHalt p us) :=
  congrArg Host.Outcome.next (if_neg (by simp only [hw, ho]; decide))

/-- A port halts whose takes have ended and whose ledger holds nothing. -/
theorem State.pfwHalt_reads {s : State} {p : Nat} (hr : (s.port p).reel = none) (hg : (s.port p).ledger.group = none) (ht : s.takesOn p = []) (us : Nat) :
    (s.pfwHalt p us).portState p = 6
      ∧ (s.pfwHalt p us).rd F.MAG_PFW_STATUS_finished p = (s.port p).pfwEnded % 2 ^ F.MAG_PFW_STATUS_finished.width
      ∧ (s.pfwHalt p us).rd F.MAG_PFW_STATUS_time_us p = us % 2 ^ F.MAG_PFW_STATUS_time_us.width := by
  have hh : s.pfwHalt p us = (((((s.endPortCmds p St.MAG_HALTED).clearPort p (s.port p).mag).setPort p 6).wr F.MAG_PFW_STATUS_finished
      (s.port p).pfwEnded p).wr F.MAG_PFW_STATUS_time_us us p).flushCheck := by
    rw [State.pfwHalt, State.passGroup_of_none hg]
    simp only [State.stepFour_of_no_reel hr, ht, State.each, List.foldl_nil]
  rw [hh]
  generalize (s.endPortCmds p St.MAG_HALTED).clearPort p (s.port p).mag = u
  have hw := (State.Within.refl commandFlds (((u.setPort p 6).wr F.MAG_PFW_STATUS_finished (s.port p).pfwEnded p).wr
    F.MAG_PFW_STATUS_time_us us p)).flushCheck fun x hx => hx
  refine ⟨(hw.rd F.MAG_PORT_STATUS_state p 0 (by decide)).trans ?_, (hw.rd F.MAG_PFW_STATUS_finished p 0 (by decide)).trans ?_,
    (hw.rd F.MAG_PFW_STATUS_time_us p 0 (by decide)).trans (State.rd_wr_self ..)⟩
  · rw [State.rd_wr_other _ _ _ _ _ _ _ _ (by decide), State.rd_wr_other _ _ _ _ _ _ _ _ (by decide), State.setPort, State.rd_wr_self]
    rfl
  · rw [State.rd_wr_other _ _ _ _ _ _ _ _ (by decide), State.rd_wr_self]

/-- The fields of a port on which the warning begins. -/
def pfwFlds : List Fld :=
  [F.MAG_OPS_now, F.MAG_OPS_peak, F.MAG_SCRUB_STATUS_running, F.MAG_SCRUB_STATUS_pending, F.MAG_FLAGS_pfw] ++ eventFlds

theorem State.within_pfwStart (s : State) (p : Nat) : State.Within pfwFlds s (s.pfwStart p) := by
  unfold State.pfwStart
  extract_lets er s1 s2
  have h1 : State.Within pfwFlds s s1 := (State.Within.refl _ s).same
  have h2 : State.Within pfwFlds s s2 := h1.ite h1.same
  exact ((h2.opsStatus (by decide) p).wr (by decide) 1 p 0).raise (fun x hx => List.mem_append_right _ hx) _ _ _

theorem State.pfwStart_flag (s : State) (p : Nat) : (s.pfwStart p).rd F.MAG_FLAGS_pfw p = 1 := by
  unfold State.pfwStart
  extract_lets er s1 s2
  rw [State.rd_raise_other _ _ _ _ _ _ _ (by decide), State.rd_wr_self]
  rfl

/-- The erases that a power-fail warning breaks off (R323). -/
def State.erasing (s : State) (p : Nat) : List DieOp :=
  (s.port p).ops.filter fun o => o.running && (match o.kind with | .erase _ => true | _ => false)

theorem State.pfwStart_stor (s : State) (p : Nat) : (s.pfwStart p).stor =
    ((s.updMag p fun m => { m with torn := m.torn ++ (s.erasing p).map fun o => (o.die, o.block) }).updPort p fun x =>
      { x with pfw := true, pfwEnded := 0, ops := x.ops.filter fun o => !(s.erasing p).contains o }).stor := by
  unfold State.pfwStart
  extract_lets er s1 s2
  have h2 : s2.stor = s1.stor := by
    unfold s2
    split
    · rfl
    · rfl
  rw [State.Apart.stor.raise, State.wr_stor, State.opsStatus_kept State.stor State.wr_stor, h2]
  rfl

theorem State.pfwStart_port {s : State} {p : Nat} (hp : p < s.stor.ports.length) : ((s.pfwStart p).port p).pfw = true := by
  rw [State.port_congr (s.pfwStart_stor p), State.port_updPort_self _ (by simpa [State.updMag, State.updPort] using hp)]

/-- With nothing but port 0 in use and no take on it, the warning begins on port 0. -/
theorem exec_pfwNFall_of_port0 {s : State} (h0 : s.portState 0 = 3) (h1 : s.portState 1 = 0) (hw : (s.port 0).pfw = false)
    (ht : s.takesOn 0 = []) : exec .pfwNFall s = .next (s.pfwStart 0) := by
  have hp : s.pfwPorts = [0] := by simp [State.pfwPorts, h0, h1, hw]
  have hk : (s.pfwStart 0).takesOn 0 = [] :=
    (State.takesOn_congr (fun e => (s.within_pfwStart 0).rd _ _ _ (by decide)) (by rw [s.pfwStart_stor 0]; rfl) 0).trans ht
  change execPfwNFall s = _
  rw [execPfwNFall, hp]
  change Host.Outcome.next (State.each (s.pfwStart 0) (([0].flatMap (s.pfwStart 0).takesOn).filter _) _) = _
  rw [List.flatMap_cons, hk]
  rfl

/-- Settles O34: a port's warning and its halt, each by the fields that it sets last. -/
theorem powerFailWarning : Obligations.PowerFailWarning := by
  refine ⟨fun s hp => ⟨fun h0 h1 hw ht => ?_, fun finished us hw ho hr hg ht _ _ _ _ _ => ?_⟩, fun s => rfl, fun p finished us s hw ho =>
    exec_pfwProgramsDrained hw ho finished us⟩
  · exact Does.of_exec (exec_pfwNFall_of_port0 h0 h1 hw ht) ⟨State.pfwStart_port hp, s.pfwStart_flag 0, (s.within_pfwStart 0).mem⟩
  · exact Does.of_exec (exec_pfwProgramsDrained hw ho finished us) (State.pfwHalt_reads hr hg ht us)

end Sys2Proof.Machine
end

section
/-! PROOFS. What writing a record, holding a queue and the checks that follow leave (spec/11, R391 to R398, R433). -/
namespace Sys2Proof.Machine

set_option Elab.async false

/-- The fields that writing the records of a queue may set. -/
def recordFlds : List Fld := commandFlds ++ [F.RING_CQ_STATUS_tail, F.RING_FLAGS_cq_full, F.RING_CNT_cq_full]

section
variable {l : List Fld} {s t : State}

theorem State.Within.countOutstanding (h : State.Within l s t) (hl : ∀ x ∈ commandFlds, x ∈ l) : State.Within l s t.countOutstanding :=
  (h.wr (hl F.RING_OUTSTANDING_now (by decide)) _ 0 0).wr (hl F.RING_OUTSTANDING_peak (by decide)) _ 0 0

theorem State.Within.dropCmd (h : State.Within l s t) (hl : ∀ x ∈ commandFlds, x ∈ l) (id : Nat) : State.Within l s (t.dropCmd id) :=
  State.Within.countOutstanding (t := t.updHost fun h => { h with cmds := h.cmds.filter fun c => c.id ≠ id }) h.same hl

theorem State.Within.cmdRecorded (h : State.Within l s t) (hl : ∀ x ∈ commandFlds, x ∈ l) (id : Nat) : State.Within l s (t.cmdRecorded id) := by
  unfold State.cmdRecorded
  split
  · exact .ite (State.Within.countOutstanding (t := t.updCmd id fun c => { c with gone := true }) h.same hl) (h.dropCmd hl id)
  · exact h

theorem State.Within.finishQueueResets (h : State.Within l s t) (hl : ∀ x ∈ commandFlds, x ∈ l) : State.Within l s t.finishQueueResets :=
  h.each _ fun _ _ hu => .ite (hu.complete hl _ _ _ _ _) hu

theorem State.Within.writeRecord (h : State.Within l s t) (hl : ∀ x ∈ recordFlds, x ∈ l) (q : Nat) (r : Rec) : State.Within l s (t.writeRecord q r) := by
  have hc : ∀ x ∈ commandFlds, x ∈ l := fun x hx => hl x (List.mem_append_left _ hx)
  have ht := hl F.RING_CQ_STATUS_tail (by decide)
  unfold State.writeRecord
  extract_lets tail n a s1 s2
  have h1 : State.Within l s s1 := State.Within.whenB h.same h.same
  have h2 : State.Within l s s2 := (h1.wr ht _ q 0).same
  clear_value s2
  split
  · exact h2.cmdRecorded hc _
  · exact h2

theorem State.Within.dropRecord (h : State.Within l s t) (hl : ∀ x ∈ eventFlds, x ∈ l) : State.Within l s t.dropRecord :=
  State.Within.same ((h.wr (hl F.RING_FLAGS_evq_lost (by decide)) 1 0 0).bump (hl F.RING_EVQ_LOST_count (by decide)) 0 0 1)

theorem State.Within.checkLost (h : State.Within l s t) (hl : ∀ x ∈ recordFlds, x ∈ l) : State.Within l s t.checkLost := by
  have hn := hl F.GLB_EV_SEQ_next (by decide)
  have h1 : State.Within l s (((t.wr F.GLB_EV_SEQ_next (t.rd F.GLB_EV_SEQ_next + 1)).tick).updHost fun h => { h with lost := 0 }) :=
    (h.wr hn _ 0 0).same
  exact .ite (h1.writeRecord hl _ _) h

theorem State.Within.deliverEvent (h : State.Within l s t) (hl : ∀ x ∈ recordFlds, x ∈ l) (r : Rec) : State.Within l s (t.deliverEvent r) :=
  .ite (h.writeRecord hl _ r) (h.dropRecord fun x hx => hl x (by revert x; decide))

theorem State.Within.holdQueue (h : State.Within l s t) (hl : ∀ x ∈ recordFlds, x ∈ l) (q : Nat) : State.Within l s (t.holdQueue q) := by
  have hf := hl F.RING_FLAGS_cq_full (by decide)
  have hc := hl F.RING_CNT_cq_full (by decide)
  unfold State.holdQueue
  split
  · extract_lets u
    have hu : State.Within l s u := h.same
    exact .ite hu (State.Within.raise (State.Within.flagCount (t := u.updQueue q fun x => { x with episode := true }) hu.same hf hc 0)
      (fun x hx => hl x (by revert x; decide)) _ _ _)
  · exact h

theorem State.Within.writeCompletion (h : State.Within l s t) (hl : ∀ x ∈ recordFlds, x ∈ l) (q : Nat) : State.Within l s (t.writeCompletion q) := by
  have hc : ∀ x ∈ commandFlds, x ∈ l := fun x hx => hl x (List.mem_append_left _ hx)
  unfold State.writeCompletion
  split
  · exact h
  next r rest hp =>
    have h1 : State.Within l s (t.updHost fun h => { h with records := rest }) := h.same
    refine .ite ?_ (.ite (h.holdQueue hl q) ((h1.writeRecord hl q r).finishQueueResets hc))
    refine State.Within.finishQueueResets ?_ hc
    split
    · exact h1.cmdRecorded hc _
    · exact h1

theorem State.Within.writeHeld (h : State.Within l s t) (hl : ∀ x ∈ recordFlds, x ∈ l) (q n : Nat) : State.Within l s (t.writeHeld q n) := by
  induction n generalizing t with
  | zero => exact h
  | succ n ih => exact .ite (ih (h.writeCompletion hl q)) h

/-- The fields that the end of an UNMOUNT may set. -/
def unmountFlds : List Fld := clearFlds ++ (F.MAG_PORT_STATUS_state :: commandFlds)

/-- An UNMOUNT whose port is left with nothing ends. -/
theorem State.Within.unmountCheck (h : State.Within l s t) (hl : ∀ x ∈ unmountFlds, x ∈ l) (p : Nat) :
    State.Within l s (t.unmountCheck p) := by
  have hcl : ∀ x ∈ clearFlds, x ∈ l := fun x hx => hl x (List.mem_append_left _ hx)
  unfold State.unmountCheck
  extract_lets x
  split
  · extract_lets busy
    have h0 : State.Within l s (t.updPort p fun y => { PortSt.init with mag := y.mag }) := h.same
    have h1 := (h0.opsStatus (fun x hx => hcl x (by revert x; decide)) p).wr (hl F.MAG_PORT_STATUS_state (by decide)) 3 p 0
    exact .ite h (((h1.reelStatus hcl p).adminStatus hcl p).complete (fun x hx => hl x (List.mem_append_right _ (List.mem_cons_of_mem _ hx))) _ _ _ _ _)
  · exact h

theorem State.Within.recordsWritten (h : State.Within l s t) (hl : ∀ x ∈ unmountFlds, x ∈ l) : State.Within l s t.recordsWritten :=
  ((h.unmountCheck hl 0).unmountCheck hl 1).flushCheck fun x hx => hl x (List.mem_append_right _ (List.mem_cons_of_mem _ hx))

end

/-! ### What stands apart from the records -/

section
variable {α : Type} {π : State → α}

theorem State.Apart.updQueue (h : State.Apart π) (s : State) (q : Nat) (f : QueueSt → QueueSt) : π (s.updQueue q f) = π s := by
  rw [State.updQueue, h.host]
  exact fun _ => rfl

theorem State.Apart.setRecords (h : State.Apart π) (s : State) (f : List Rec → List Rec) :
    π (s.updHost fun x => { x with records := f x.records }) = π s := by
  rw [h.host]
  exact fun _ => rfl

theorem State.Apart.countOutstanding (h : State.Apart π) (s : State) : π s.countOutstanding = π s := by
  rw [State.countOutstanding, State.peak, h.wr, h.wr]

theorem State.Apart.cmdRecorded (h : State.Apart π) (s : State) (id : Nat) : π (s.cmdRecorded id) = π s := by
  unfold State.cmdRecorded
  split
  · split
    · exact (h.countOutstanding _).trans (h.host _ _ fun _ => rfl)
    · exact h.dropCmd ..
  · rfl

theorem State.Apart.finishQueueResets (h : State.Apart π) (s : State) : π s.finishQueueResets = π s :=
  State.each_of_kept π (fun t c => by
    split
    · exact h.complete ..
    · rfl) s _

/-- What is shown outside aside, a record's writing leaves what stands apart. -/
theorem State.Apart.writeRecord (h : State.Apart π) (he : ∀ (s : State) (x : Emit), π (s.emit x) = π s) (s : State) (q : Nat) (r : Rec) :
    π (s.writeRecord q r) = π s := by
  unfold State.writeRecord
  extract_lets tail n a s1 s2
  have h1 : π s1 = π s := by
    unfold s1
    cases r.stamp.isNone
    · exact he ..
    · exact (h.tick _).trans (he ..)
  have h2 : π s2 = π s := (h.updQueue ..).trans ((h.wr ..).trans h1)
  clear_value s2
  split
  · exact (h.cmdRecorded ..).trans h2
  · exact h2

theorem State.Apart.checkLost (h : State.Apart π) (he : ∀ (s : State) (x : Emit), π (s.emit x) = π s) (s : State) : π s.checkLost = π s := by
  unfold State.checkLost
  split
  · rw [h.writeRecord he, h.host, h.tick, h.wr]
    exact fun _ => rfl
  · rfl

theorem State.Apart.deliverEvent (h : State.Apart π) (he : ∀ (s : State) (x : Emit), π (s.emit x) = π s) (s : State) (r : Rec) :
    π (s.deliverEvent r) = π s := by
  unfold State.deliverEvent
  split
  · exact h.writeRecord he ..
  · exact h.dropRecord ..

theorem State.Apart.flushCheck (h : State.Apart π) (hs : ∀ (s : State) (f : StoreSt → StoreSt), π (s.updStor f) = π s) (s : State) :
    π s.flushCheck = π s := by
  unfold State.flushCheck
  extract_lets live t ready
  exact (hs ..).trans ((State.each_of_kept π (fun u w => h.complete ..) t ready).trans (hs ..))

theorem State.Apart.unmountCheck (h : State.Apart π) (hs : ∀ (s : State) (f : StoreSt → StoreSt), π (s.updStor f) = π s) (s : State) (p : Nat) :
    π (s.unmountCheck p) = π s := by
  have hr : ∀ u : State, π (u.reelStatus p) = π u := fun u => State.reelStatus_kept π h.wr u p
  have ha : ∀ u : State, π (u.adminStatus p) = π u := fun u => State.adminStatus_kept π h.wr u p
  unfold State.unmountCheck
  extract_lets x
  split
  · extract_lets busy
    split
    · rfl
    · rw [h.complete, ha, hr, State.setPort, h.wr, State.opsStatus_kept π h.wr, State.updPort, hs]
  · rfl

theorem State.Apart.recordsWritten (h : State.Apart π) (hs : ∀ (s : State) (f : StoreSt → StoreSt), π (s.updStor f) = π s) (s : State) :
    π s.recordsWritten = π s :=
  (h.flushCheck hs _).trans ((h.unmountCheck hs _ 1).trans (h.unmountCheck hs s 0))

end

end Sys2Proof.Machine
end

section
/-! PROOFS. Rings, completion queues and the event queue are enabled and disabled (spec/11, R382, R383, R391, R411, R670). -/
namespace Sys2Proof.Machine

set_option Elab.async false

/-- A field of a written word is read back from a register field of its width. -/
theorem bitsOf_mod {v hi lo w : Nat} (h : hi + 1 - lo ≤ w) : bitsOf v hi lo % 2 ^ w = bitsOf v hi lo :=
  Nat.mod_eq_of_lt (Nat.lt_of_lt_of_le (bitsOf_lt v hi lo) (Nat.pow_le_pow_right (by decide) h))

/-- What a ring is after an enabling write that is good. -/
def State.ringOpened (s : State) (n v : Nat) : State :=
  (((((((s.wr F.RING_SQ_CFG_depth_log2 (bitsOf v 7 4) n).wr F.RING_SQ_CFG_enable 1 n).wr F.RING_SQ_STATUS_head 0 n).wr
    F.RING_SQ_STATUS_role 0 n).wr F.RING_SQ_STATUS_state 1 n).updRing n fun _ => RingSt.init).updHost
    fun h => { h with page := h.page.set n 0, polls := h.polls.map fun l => l.filter (· ≠ n) })

theorem exec_ringEnable_new {n v : Nat} {s : State} (hb : s.sqDepthBad n v = false) (he : s.on F.RING_SQ_CFG_enable n = false) :
    exec (.ringEnable n v) s = .next (s.ringOpened n v) := by
  change execRingEnable n v s = _
  rw [execRingEnable, if_neg (Bool.eq_false_iff.mp hb), if_neg (Bool.eq_false_iff.mp he)]
  rfl

theorem State.ringOpened_rd (s : State) (n v : Nat) (f : Fld) (i j : Nat) : (s.ringOpened n v).rd f i j =
    (((((s.wr F.RING_SQ_CFG_depth_log2 (bitsOf v 7 4) n).wr F.RING_SQ_CFG_enable 1 n).wr F.RING_SQ_STATUS_head 0 n).wr
      F.RING_SQ_STATUS_role 0 n).wr F.RING_SQ_STATUS_state 1 n).rd f i j := rfl

theorem State.ringOpened_reads (s : State) (n v : Nat) : (s.ringOpened n v).rd F.RING_SQ_CFG_enable n = 1
    ∧ (s.ringOpened n v).rd F.RING_SQ_CFG_depth_log2 n = bitsOf v 7 4 ∧ (s.ringOpened n v).rd F.RING_SQ_STATUS_head n = 0
    ∧ (s.ringOpened n v).rd F.RING_SQ_STATUS_role n = 0 ∧ (s.ringOpened n v).rd F.RING_SQ_STATUS_state n = 1 := by
  simp (disch := decide) only [State.ringOpened_rd, State.rd_wr_other, State.rd_wr_self]
  exact ⟨rfl, bitsOf_mod (by decide), rfl, rfl, rfl⟩

theorem State.ringOpened_only (s : State) (n v : Nat) : s.Only (s.ringOpened n v) [(F.RING_SQ_CFG_enable, n), (F.RING_SQ_CFG_depth_log2, n),
    (F.RING_SQ_STATUS_head, n), (F.RING_SQ_STATUS_role, n), (F.RING_SQ_STATUS_state, n)] := by
  refine State.Only.same (State.Only.wr (State.Only.wr (State.Only.wr (State.Only.wr (State.Only.wr (State.Only.refl s _)
    F.RING_SQ_CFG_depth_log2 _ n 0 ?_) F.RING_SQ_CFG_enable _ n 0 ?_) F.RING_SQ_STATUS_head _ n 0 ?_) F.RING_SQ_STATUS_role _ n 0 ?_)
    F.RING_SQ_STATUS_state _ n 0 ?_)
  all_goals simp

/-- What a ring is after a disabling write with nothing outstanding. -/
def State.ringClosed (s : State) (n v : Nat) : State :=
  ((((s.wr F.RING_SQ_CFG_depth_log2 (bitsOf v 7 4) n).wr F.RING_SQ_CFG_enable 0 n).wr F.RING_SQ_STATUS_role 0 n).wr
    F.RING_SQ_STATUS_state 0 n).updRing n fun _ => RingSt.init

theorem exec_ringDisable_free {n v : Nat} {s : State} (hb : s.sqDepthBad n v = false) (ho : s.outstanding.any (fun c => c.ring == n) = false) :
    exec (.ringDisable n v) s = .next (s.ringClosed n v) := by
  change execRingDisable n v s = _
  rw [execRingDisable, if_neg (by rw [hb, ho]; decide)]
  rfl

theorem State.ringClosed_rd (s : State) (n v : Nat) (f : Fld) (i j : Nat) : (s.ringClosed n v).rd f i j =
    ((((s.wr F.RING_SQ_CFG_depth_log2 (bitsOf v 7 4) n).wr F.RING_SQ_CFG_enable 0 n).wr F.RING_SQ_STATUS_role 0 n).wr
      F.RING_SQ_STATUS_state 0 n).rd f i j := rfl

theorem State.ringClosed_reads (s : State) (n v : Nat) : (s.ringClosed n v).rd F.RING_SQ_CFG_enable n = 0
    ∧ (s.ringClosed n v).rd F.RING_SQ_STATUS_role n = 0 ∧ (s.ringClosed n v).rd F.RING_SQ_STATUS_state n = 0 := by
  simp (disch := decide) only [State.ringClosed_rd, State.rd_wr_other, State.rd_wr_self]
  exact ⟨rfl, rfl, rfl⟩

theorem State.ringClosed_only (s : State) (n v : Nat) : s.Only (s.ringClosed n v) [(F.RING_SQ_CFG_enable, n), (F.RING_SQ_CFG_depth_log2, n),
    (F.RING_SQ_STATUS_role, n), (F.RING_SQ_STATUS_state, n)] := by
  refine State.Only.same (State.Only.wr (State.Only.wr (State.Only.wr (State.Only.wr (State.Only.refl s _)
    F.RING_SQ_CFG_depth_log2 _ n 0 ?_) F.RING_SQ_CFG_enable _ n 0 ?_) F.RING_SQ_STATUS_role _ n 0 ?_) F.RING_SQ_STATUS_state _ n 0 ?_)
  all_goals simp

/-- What a completion queue is after an enabling write that is good. -/
def State.queueOpened (s : State) (n v : Nat) : State :=
  (((((s.cqFields n v).wr F.RING_CQ_CFG_enable 1 n).wr F.RING_CQ_STATUS_tail 0 n).wr F.RING_CQ_STATUS_head 0 n).updQueue n
    fun _ => QueueSt.init).updHost fun h => { h with page := h.page.set (16 + n) 0 }

theorem exec_cqEnable_new {n v : Nat} {s : State} (hb : s.cqCfgBad n v = false) (he : s.on F.RING_CQ_CFG_enable n = false) :
    exec (.cqEnable n v) s = .next (s.queueOpened n v) := by
  change execCqEnable n v s = _
  rw [execCqEnable, if_neg (Bool.eq_false_iff.mp hb), if_neg (Bool.eq_false_iff.mp he)]
  rfl

theorem State.queueOpened_rd (s : State) (n v : Nat) (f : Fld) (i j : Nat) : (s.queueOpened n v).rd f i j =
    ((((((((s.wr F.RING_CQ_CFG_coal_us (bitsOf v 31 24) n).wr F.RING_CQ_CFG_coal_count (bitsOf v 23 16) n).wr F.RING_CQ_CFG_vector (bitsOf v 13 8) n).wr
      F.RING_CQ_CFG_depth_log2 (bitsOf v 7 4) n).wr F.RING_CQ_CFG_enable 1 n).wr F.RING_CQ_STATUS_tail 0 n).wr F.RING_CQ_STATUS_head 0 n)).rd f i j := rfl

theorem State.queueOpened_reads (s : State) (n v : Nat) : (s.queueOpened n v).rd F.RING_CQ_CFG_enable n = 1
    ∧ (s.queueOpened n v).rd F.RING_CQ_CFG_depth_log2 n = bitsOf v 7 4 ∧ (s.queueOpened n v).rd F.RING_CQ_CFG_vector n = bitsOf v 13 8
    ∧ (s.queueOpened n v).rd F.RING_CQ_CFG_coal_count n = bitsOf v 23 16 ∧ (s.queueOpened n v).rd F.RING_CQ_CFG_coal_us n = bitsOf v 31 24
    ∧ (s.queueOpened n v).rd F.RING_CQ_STATUS_tail n = 0 ∧ (s.queueOpened n v).rd F.RING_CQ_STATUS_head n = 0 := by
  simp (disch := decide) only [State.queueOpened_rd, State.rd_wr_other, State.rd_wr_self]
  exact ⟨rfl, bitsOf_mod (by decide), bitsOf_mod (by decide), bitsOf_mod (by decide), bitsOf_mod (by decide), rfl, rfl⟩

theorem exec_cqDisable_free {n v : Nat} {s : State} (hb : s.cqCfgBad n v = false) (hn : s.queueNamed n = false ∨ s.on F.RING_CQ_CFG_enable n = false) :
    exec (.cqDisable n v) s = .next ((s.cqFields n v).wr F.RING_CQ_CFG_enable 0 n) := by
  change execCqDisable n v s = _
  rw [execCqDisable, if_neg]
  rcases hn with h | h
  · simp [hb, h]
  · simp [hb, h]

/-- The event queue's own fields as a write of them leaves them. -/
def State.evqFields (s : State) (v : Nat) : State := (s.wr F.RING_EVQ_CFG_cq (bitsOf v 7 4)).wr F.RING_EVQ_CFG_enable (bitsOf v 0 0)

theorem State.evqFields_rd (s : State) (v : Nat) :
    (s.evqFields v).rd F.RING_EVQ_CFG_enable = v % 2 ∧ (s.evqFields v).rd F.RING_EVQ_CFG_cq = bitsOf v 7 4 := by
  refine ⟨(State.rd_wr_self ..).trans ?_, ?_⟩
  · simp [bitsOf, F.RING_EVQ_CFG_enable]
  · rw [State.evqFields, State.rd_wr_other _ _ _ _ _ _ _ _ (by decide), State.rd_wr_self]
    exact bitsOf_mod (by decide)

/-- The records held are delivered and the holding ends (R670). -/
def State.holdingEnds (s : State) (l : List Rec) : State :=
  ((s.updHost fun h => { h with holding := false, held := [] }).each l State.deliverEvent).checkLost

theorem State.within_holdingEnds (s : State) (l : List Rec) : State.Within recordFlds s (s.holdingEnds l) :=
  State.Within.checkLost (State.Within.each (t := s.updHost fun h => { h with holding := false, held := [] }) (State.Within.refl _ s).same l
    fun _ r hu => hu.deliverEvent (fun _ hx => hx) r) fun _ hx => hx

theorem State.Apart.holdingFlags : State.Apart fun s => (s.host.holding, s.host.held) :=
  ⟨fun s f v i j => by rw [State.wr_host], fun _ => rfl, fun s f h =>
    have hf := congrArg (fun x : HostSt => (x.holding, x.held)) (h s.host)
    hf⟩

theorem State.holdingEnds_host (s : State) (l : List Rec) : (s.holdingEnds l).host.holding = false ∧ (s.holdingEnds l).host.held = [] := by
  have h : ((s.holdingEnds l).host.holding, (s.holdingEnds l).host.held) = (false, []) :=
    (State.Apart.holdingFlags.checkLost (fun _ _ => rfl) _).trans
      (State.each_of_kept (fun t => (t.host.holding, t.host.held)) (fun t r => State.Apart.holdingFlags.deliverEvent (fun _ _ => rfl) t r) _ l)
  exact Prod.mk.inj h

/-- Settles O40: an accepted write is one chain of field settings, and the rest of it touches no register. -/
theorem ringsAndQueuesOpenAndClose : Obligations.RingsAndQueuesOpenAndClose := by
  refine ⟨fun n v s => ⟨fun hb => ?_, fun hb he => Does.of_exec (exec_ringEnable_new hb he) ?_, fun ho => ?_,
    fun hb ho => Does.of_exec (exec_ringDisable_free hb ho) ?_, fun hb => ?_,
    fun hb he => Does.of_exec (exec_cqEnable_new hb he) (s.queueOpened_reads n v), fun he hn => ?_,
    fun hb hn => Does.of_exec (exec_cqDisable_free hb (.inl hn)) ⟨(State.rd_wr_self ..).trans (Nat.zero_mod _), ?_⟩, fun hv => ?_, fun hv => ?_⟩,
    fun n v s hb => ⟨fun he => exec_cqEnable_new hb he, fun he => ?_, fun h => exec_cqDisable_free hb h⟩⟩
  · change execRingEnable n v s = _
    rw [execRingEnable, if_pos hb]
  · obtain ⟨h1, h2, h3, h4, h5⟩ := s.ringOpened_reads n v
    exact ⟨h1, h2, h3, h4, h5, s.ringOpened_only n v⟩
  · change execRingDisable n v s = _
    rw [execRingDisable, if_pos (by rw [ho, Bool.or_true])]
  · obtain ⟨h1, h2, h3⟩ := s.ringClosed_reads n v
    exact ⟨h1, h2, h3, s.ringClosed_only n v⟩
  · change execCqEnable n v s = _
    rw [execCqEnable, if_pos hb]
  · change execCqDisable n v s = _
    rw [execCqDisable, if_pos (by rw [he, hn, Bool.and_true, Bool.or_true])]
  · rw [State.wr_mem, State.cqFields, State.wr_mem, State.wr_mem, State.wr_mem, State.wr_mem]
  · have hb : ¬ bitsOf v 0 0 = 0 := by simp [bitsOf, hv]
    have hex : exec (.evqEnable v) s = .next ((s.evqFields v).holdingEnds s.host.held) := by
      change execEvqEnable v s = _
      exact if_neg hb
    have hw := (s.evqFields v).within_holdingEnds s.host.held
    obtain ⟨hen, hcq⟩ := s.evqFields_rd v
    obtain ⟨hh, hd⟩ := (s.evqFields v).holdingEnds_host s.host.held
    refine Does.of_exec hex ⟨(hw.rd _ _ _ (by decide)).trans (hen.trans hv), (hw.rd _ _ _ (by decide)).trans hcq, hh, hd, hw.mem.trans ?_⟩
    rw [State.evqFields, State.wr_mem, State.wr_mem]
  · have hb : bitsOf v 0 0 = 0 := by simp [bitsOf, hv]
    have hex : exec (.evqEnable v) s = .next (s.evqFields v) := by
      change execEvqEnable v s = _
      exact if_pos hb
    obtain ⟨hen, hcq⟩ := s.evqFields_rd v
    refine Does.of_exec hex ⟨hen.trans hv, hcq, State.Only.wr (State.Only.wr (State.Only.refl s _) F.RING_EVQ_CFG_cq _ 0 0 ?_)
      F.RING_EVQ_CFG_enable _ 0 0 ?_⟩
    all_goals simp
  · change execCqEnable n v s = _
    rw [execCqEnable, if_neg (Bool.eq_false_iff.mp hb), if_pos he]

end Sys2Proof.Machine
end

section
/-! PROOFS. The doorbell page is polled and acted on, and descriptors are fetched (spec/11, R380, R381, R384, R385). -/
namespace Sys2Proof.Machine

set_option Elab.async false

theorem State.ring_updRing_self {s : State} {r : Nat} (f : RingSt → RingSt) (h : r < s.host.rings.length) : (s.updRing r f).ring r = f (s.ring r) :=
  updAt_getD_self _ _ _ _ h

theorem State.ring_updRing_of_kept {β : Type} (π : RingSt → β) (s : State) (r k : Nat) (f : RingSt → RingSt) (h : ∀ x, π (f x) = π x) :
    π ((s.updRing r f).ring k) = π (s.ring k) := updAt_getD_of_kept π _ _ _ f _ h

/-! ### The words of the page -/

/-- With no record waiting, a queue's word moves its head. -/
theorem pollQueue_of_no_records {s : State} (h : s.host.records = []) (p : List Nat) (q : Nat) : State.pollQueue p s q =
    if s.on F.RING_CQ_CFG_enable q then (s.wr F.RING_CQ_STATUS_head (p.getD (16 + q) 0 % 65536) q).updQueue q fun x => { x with episode := false }
    else s := by
  have hh : s.holdQueue q = s := by simp [State.holdQueue, h]
  have hn : s.queueHolds q = false := by simp [State.queueHolds, h]
  have hr : ((s.wr F.RING_CQ_STATUS_head (p.getD (16 + q) 0 % 65536) q).host.records).length = 0 := by rw [State.wr_host, h]; rfl
  unfold State.pollQueue
  split
  · simp only [hh, hn, Bool.not_false, State.whenB_true, hr]
    rfl
  · rfl

/-- What the words of the queues leave while no record waits. -/
structure State.Polled (s t : State) : Prop where
  within : State.Within [F.RING_CQ_STATUS_head] s t
  records : t.host.records = []
  lost : t.host.lost = s.host.lost
  beside : t.host.beside = s.host.beside

theorem State.Polled.pollQueue {s t : State} (h : State.Polled s t) (p : List Nat) (q : Nat) : State.Polled s (State.pollQueue p t q) := by
  rw [pollQueue_of_no_records h.records]
  split
  · have hh : ((t.wr F.RING_CQ_STATUS_head (p.getD (16 + q) 0 % 65536) q).updQueue q fun x => { x with episode := false }).host =
        { t.host with queues := updAt t.host.queues q fun x => { x with episode := false } } := by
      rw [State.updQueue, State.updHost_host, State.wr_host]
    have hw := h.within.wr (List.mem_singleton_self _) (p.getD (16 + q) 0 % 65536) q 0
    refine ⟨hw.same, ?_, ?_, ?_⟩
    · rw [hh]
      exact h.records
    · rw [hh]
      exact h.lost
    · rw [hh]
      exact h.beside
  · exact h

theorem State.Polled.each {s t : State} (h : State.Polled s t) (p : List Nat) (l : List Nat) : State.Polled s (t.each l (State.pollQueue p)) := by
  induction l generalizing t with
  | nil => exact h
  | cons q l ih => exact ih (h.pollQueue p q)

/-- The word of an enabled queue is its head. -/
theorem rd_each_pollQueue {s : State} (h : s.host.records = []) (p : List Nat) {q : Nat} (hq : s.on F.RING_CQ_CFG_enable q = true) (l : List Nat)
    (hl : q ∈ l ∨ s.rd F.RING_CQ_STATUS_head q = p.getD (16 + q) 0 % 65536) :
    (s.each l (State.pollQueue p)).rd F.RING_CQ_STATUS_head q = p.getD (16 + q) 0 % 65536 := by
  induction l generalizing s with
  | nil => exact hl.resolve_left List.not_mem_nil
  | cons k l ih =>
    have hp := (State.Polled.mk (.refl _ _) h rfl rfl).pollQueue p k
    refine ih hp.records ((congrArg (· == 1) (hp.within.rd _ _ _ (by decide))).trans hq) ?_
    rw [pollQueue_of_no_records h]
    by_cases hk : q = k
    · subst hk
      rw [if_pos hq]
      exact .inr ((State.rd_wr_self s F.RING_CQ_STATUS_head _ q 0).trans (Nat.mod_eq_of_lt (Nat.mod_lt _ (by decide))))
    · refine hl.imp (fun hm => (List.mem_cons.mp hm).resolve_left hk) fun hr => ?_
      split
      · exact (State.rd_wr_inst s F.RING_CQ_STATUS_head _ _ k 0 q 0 (.inl hk)).trans hr
      · exact hr

/-! ### The end of a page -/

/-- The barrow words, the page as acted on, and the checks that follow. -/
def State.pageEnds (s : State) (p page : List Nat) : State :=
  (((s.each (List.range 32) (State.pollBarrow p)).updHost fun h => { h with page := page }).checkLost).recordsWritten

/-- The fields that the end of a page may set. -/
def pageFlds : List Fld := unmountFlds ++ recordFlds

theorem State.within_pageEnds (s : State) (p page : List Nat) : State.Within pageFlds s (s.pageEnds p page) := by
  have hb : State.Within pageFlds s (s.each (List.range 32) (State.pollBarrow p)) :=
    State.Within.each (.refl _ s) _ fun u c hu => .ite hu.same hu
  have hp : State.Within pageFlds s ((s.each (List.range 32) (State.pollBarrow p)).updHost fun h => { h with page := page }) := hb.same
  exact (hp.checkLost fun x hx => List.mem_append_right _ hx).recordsWritten fun x hx => List.mem_append_left _ hx

theorem State.Apart.polls : State.Apart fun s => (s.host.polls, s.host.rings) :=
  ⟨fun s f v i j => by rw [State.wr_host], fun _ => rfl, fun s f h =>
    have hf := congrArg (fun x : HostSt => (x.polls, x.rings)) (h s.host)
    hf⟩

theorem pollBarrow_rings (p : List Nat) (s : State) (c : Nat) :
    ((State.pollBarrow p s c).host.polls, (State.pollBarrow p s c).host.rings) = (s.host.polls, s.host.rings) :=
  (apply_ite (fun t : State => (t.host.polls, t.host.rings)) _ _ _).trans (ite_self _)

theorem State.pageEnds_host (s : State) (p page : List Nat) : (s.pageEnds p page).host.polls = s.host.polls ∧ (s.pageEnds p page).host.rings = s.host.rings := by
  have hb : ((s.each (List.range 32) (State.pollBarrow p)).host.polls, (s.each (List.range 32) (State.pollBarrow p)).host.rings) =
      (s.host.polls, s.host.rings) :=
    State.each_of_kept (fun t => (t.host.polls, t.host.rings)) (pollBarrow_rings p) s _
  have h : ((s.pageEnds p page).host.polls, (s.pageEnds p page).host.rings) = (s.host.polls, s.host.rings) :=
    (State.Apart.polls.recordsWritten (fun _ _ => rfl) _).trans ((State.Apart.polls.checkLost (fun _ _ => rfl) _).trans hb)
  exact Prod.mk.inj h

theorem exec_doorbellPageReturn {rings : List Nat} {l : List (List Nat)} {s : State} (h : s.host.polls = rings :: l) (p : List Nat) :
    ∃ page, exec (.doorbellPageReturn (some p)) s = .next (State.pageEnds
      (((s.updHost fun h => { h with polls := l }).each (List.range 16) (State.pollQueue p)).each rings (State.pollRing p)) p page) := by
  have he : exec (.doorbellPageReturn (some p)) s = execDoorbellPageReturn (some p) s := rfl
  rw [he]
  unfold execDoorbellPageReturn
  rw [h]
  exact ⟨_, rfl⟩

/-- The word of a ring with a session moves its tail. -/
theorem pollRing_of_tail {p : List Nat} {r : Nat} {s : State} (he : s.on F.RING_SQ_CFG_enable r = true) (h2 : s.rd F.RING_SQ_STATUS_state r = 2)
    (hp : p.getD r 0 % 65536 ≠ s.host.page.getD r 0 % 65536) (ha : ahead (p.getD r 0 % 65536) (s.rd F.RING_SQ_STATUS_head r) ≤ s.ringDepth r) :
    State.pollRing p s r = s.updRing r fun x => { x with tail := p.getD r 0 % 65536 } := by
  unfold State.pollRing
  extract_lets t
  have hc : (s.on F.RING_SQ_CFG_enable r && s.rd F.RING_SQ_STATUS_state r != 3 && t != s.host.page.getD r 0 % 65536) = true := by
    rw [he, h2, Bool.and_eq_true, bne_iff_ne]
    exact ⟨rfl, hp⟩
  rw [if_pos hc, if_neg (Nat.not_lt.mpr ha)]

/-! ### Fetches -/

theorem exec_descriptorFetch {r : Nat} {s : State} (h : nextCyclic 16 s.host.fetchCursor s.fetchable = some r) {n : Nat}
    (hn : n = min (min 8 (ahead (s.ring r).tail (s.ring r).asked)) (s.ringDepth r - (s.ring r).asked % s.ringDepth r)) :
    exec .descriptorFetch s = .next (((s.updRing r fun x => { x with asked := (x.asked + n) % 65536, inFlight := some n }).updHost fun h =>
      { h with fetchCursor := r }).emit
      (.hostRead (s.pair F.RING_SQ_BASE_LO_value F.RING_SQ_BASE_HI_value r + (s.ring r).asked % s.ringDepth r * 64) (n * 64))) := by
  change execDescriptorFetch s = _
  unfold execDescriptorFetch
  rw [h]
  dsimp only
  rw [hn]

theorem exec_descriptorFetchReturn {r n : Nat} {s : State} (h : (s.ring r).inFlight = some n) (bs : List Byte) :
    exec (.descriptorFetchReturn r (some bs)) s = .next
      (s.updRing r fun x => { x with inFlight := none, fetched := x.fetched ++ pieces n 64 (padTo (64 * n) bs) }) := by
  change execDescriptorFetchReturn r (some bs) s = _
  unfold execDescriptorFetchReturn
  rw [h]

theorem exec_descriptorFetchReturn_fail {r n : Nat} {s : State} (h : (s.ring r).inFlight = some n) :
    exec (.descriptorFetchReturn r none) s =
      .next (((s.haltRing r).flagCount F.RING_FLAGS_host_err F.RING_CNT_host_err).raise 0 Ev.RING_HOST_ERR (le 1 r)) := by
  change execDescriptorFetchReturn r none s = _
  unfold execDescriptorFetchReturn
  rw [h]

theorem exec_doorbellPoll {s : State} (ha : s.anyEnabled = true) (hr : s.released 28 = true) : exec .doorbellPoll s = .next (
    let t := s.updHost fun h => { h with polls := h.polls ++ [(List.range 16).filter fun r => s.on F.RING_SQ_CFG_enable r] }
    let a := s.pair F.RING_DB_BASE_LO_value F.RING_DB_BASE_HI_value
    if Config.shortReads then (t.emit (.hostRead a 128)).emit (.hostRead (a + 128) 128) else t.emit (.hostRead a 256)) :=
  if_pos (by rw [ha, hr]; rfl)

/-- Settles O41: the words of the queues go before those of the rings, and the rest of a page reaches neither heads nor tails. -/
theorem doorbellsAndFetches : Obligations.DoorbellsAndFetches := by
  refine fun r q s => ⟨fun ha hr => ?_, fun rings l hl => ?_, fun l p hl hre hlo hq hen => ?_, fun l p hl hre hlo hr hen h2 hne hah => ?_,
    fun n hx hr hn => ?_, fun n bs hf hr => ?_, fun n hf => ?_⟩
  · refine Does.of_exec (exec_doorbellPoll ha hr) ?_
    cases Config.shortReads
    · exact ⟨rfl, (State.Only.refl s _).same, rfl⟩
    · exact ⟨rfl, (State.Only.refl s _).same, rfl⟩
  · have hex : exec (.doorbellPageReturn none) s = .next ((s.flagCount F.RING_FLAGS_host_err F.RING_CNT_host_err).updHost fun h => { h with polls := l }) := by
      change execDoorbellPageReturn none s = _
      unfold execDoorbellPageReturn
      rw [hl]
    exact Does.of_exec hex ⟨rfl, s.rd_flagCount_flag F.RING_FLAGS_host_err F.RING_CNT_host_err 0 (by decide),
      State.Only.same (State.Only.flagCount (State.Only.refl s _) F.RING_FLAGS_host_err F.RING_CNT_host_err 0 (by simp) (by simp))⟩
  · obtain ⟨page, hex⟩ := exec_doorbellPageReturn hl p
    have hp : State.Polled (s.updHost fun h => { h with polls := l }) _ := 
      (State.Polled.mk (s := s.updHost fun h => { h with polls := l }) (.refl _ _) hre rfl rfl).each p (List.range 16)
    have hq' := rd_each_pollQueue (s := s.updHost fun h => { h with polls := l }) hre p hen (List.range 16) (.inl (List.mem_range.mpr hq))
    generalize (s.updHost fun h => { h with polls := l }).each (List.range 16) (State.pollQueue p) = u at hex hp hq'
    have hu : u.host.polls = l := congrArg HostSt.polls hp.beside
    refine Does.of_exec hex ⟨?_, ?_, ?_⟩
    · rw [(State.within_pageEnds _ p page).rd _ _ _ (by decide)]
      exact hq'
    · rw [(State.pageEnds_host _ p page).1]
      exact hu
    · rw [(State.within_pageEnds _ p page).mem]
      exact hp.within.mem
  · obtain ⟨page, hex⟩ := exec_doorbellPageReturn hl p
    have hp : State.Polled (s.updHost fun h => { h with polls := l }) _ := 
      (State.Polled.mk (s := s.updHost fun h => { h with polls := l }) (.refl _ _) hre rfl rfl).each p (List.range 16)
    generalize (s.updHost fun h => { h with polls := l }).each (List.range 16) (State.pollQueue p) = u at hex hp
    have hrings := congrArg HostSt.rings hp.beside
    have hpage := congrArg HostSt.page hp.beside
    have hh : u.host.rings = s.host.rings ∧ u.host.page = s.host.page := ⟨hrings, hpage⟩
    have hu : State.pollRing p u r = u.updRing r fun x => { x with tail := p.getD r 0 % 65536 } := by
      refine pollRing_of_tail ?_ ((hp.within.rd _ _ _ (by decide)).trans h2) (hh.2 ▸ hne) ?_
      · rw [State.on, hp.within.rd _ _ _ (by decide)]
        exact hen
      · rw [State.ringDepth, hp.within.rd _ _ _ (by decide), hp.within.rd _ _ _ (by decide)]
        exact hah
    have hr' : r < u.host.rings.length := hh.1 ▸ hr
    refine Does.of_exec hex ⟨?_, ?_⟩
    · rw [State.ring, (State.pageEnds_host _ p page).2]
      change ((State.pollRing p u r).ring r).tail = _
      rw [hu, State.ring_updRing_self _ hr']
    · rw [(State.within_pageEnds _ p page).mem]
      change (State.pollRing p u r).mem = _
      rw [hu]
      exact hp.within.mem
  · refine Does.of_exec (exec_descriptorFetch hx hn) ⟨?_, (State.Only.refl s _).same, rfl⟩
    exact congrArg RingSt.inFlight (State.ring_updRing_self _ hr)
  · refine Does.of_exec (exec_descriptorFetchReturn hf bs) ⟨?_, (State.Only.refl s _).same, ?_⟩
    · exact congrArg RingSt.inFlight (State.ring_updRing_self _ hr)
    · exact congrArg RingSt.fetched (State.ring_updRing_self _ hr)
  · refine Does.of_exec (exec_descriptorFetchReturn_fail hf) ⟨?_, ?_, State.Raised.of_same ?_ (fun f hf => ?_) rfl, ?_⟩
    · rw [State.rd_raise_other _ _ _ _ _ _ _ (by decide), State.rd_flagCount_other _ _ _ _ _ _ _ (by decide)]
      exact (State.rd_wr_self s F.RING_SQ_STATUS_state 3 r 0).trans rfl
    · rw [State.rd_raise_other _ _ _ _ _ _ _ (by decide)]
      exact State.rd_flagCount_flag _ F.RING_FLAGS_host_err F.RING_CNT_host_err 0 (by decide)
    · rw [State.flagCount, State.bump, State.wr_host, State.wr_host, State.haltRing, State.updRing, State.updHost_host, State.wr_host]
    · rw [State.rd_flagCount_other _ _ _ _ _ _ _ (by revert f; decide)]
      exact State.rd_wr_other _ _ _ _ _ _ _ _ (by revert f; decide)
    · rw [State.raise_mem, State.flagCount, State.bump, State.wr_mem, State.wr_mem]
      exact State.wr_mem ..

end Sys2Proof.Machine
end

section
/-! PROOFS. Records are written or held, and messages are sent (spec/11, R391 to R399, R670). -/
namespace Sys2Proof.Machine

set_option Elab.async false

/-- What a record's writing shows and the tail that it leaves. -/
theorem State.writeRecord_reads (s : State) (q : Nat) (r : Rec) :
    (s.writeRecord q r).rd F.RING_CQ_STATUS_tail q = (s.rd F.RING_CQ_STATUS_tail q + 1) % 65536
      ∧ ∃ bs, (s.writeRecord q r).out = .hostWrite (s.pair F.RING_CQ_BASE_LO_value F.RING_CQ_BASE_HI_value q
        + s.rd F.RING_CQ_STATUS_tail q % s.queueDepth q * 32) bs :: s.out := by
  unfold State.writeRecord
  extract_lets tail n a s1 s2
  have ht : s2.rd F.RING_CQ_STATUS_tail q = (tail + 1) % 65536 := State.rd_wr_self s1 F.RING_CQ_STATUS_tail (tail + 1) q 0
  have ho : s2.out = .hostWrite a (recordBytes s r tail (s.queueDepth q) n) :: s.out := by
    refine Eq.trans (State.wr_out ..) ?_
    unfold s1
    cases r.stamp.isNone
    · rfl
    · rfl
  clear_value s2
  split
  · next id _ =>
    refine ⟨?_, _, (State.Apart.out.cmdRecorded s2 id).trans ho⟩
    rw [((State.Within.refl commandFlds s2).cmdRecorded (fun _ hx => hx) id).rd _ _ _ (by decide)]
    exact ht
  · exact ⟨ht, _, ho⟩

/-- Beside its queue, the record of no command leaves the records and the count of the lost. -/
theorem State.writeRecord_host {s : State} {q : Nat} {r : Rec} (h : r.cmd = none) :
    (s.writeRecord q r).host.records = s.host.records ∧ (s.writeRecord q r).host.lost = s.host.lost := by
  have hw : (s.writeRecord q r).host = { s.host with queues := updAt s.host.queues q fun x => { x with unsignalled := x.unsignalled + 1 } } := by
    unfold State.writeRecord
    rw [h]
    dsimp only
    rw [State.updQueue, State.updHost_host, State.wr_host]
    cases r.stamp.isNone
    · rfl
    · rfl
  rw [hw]
  exact ⟨rfl, rfl⟩

/-- The records left are records that waited before. -/
theorem mem_of_pickRecord {s : State} {want : Rec → Bool} {blocked : List Nat} {past l rest : List Rec} {r : Rec}
    (h : pickRecord s want blocked past l = some (r, rest)) : ∀ x ∈ rest, x ∈ past ∨ x ∈ l := by
  induction l generalizing blocked past with
  | nil => cases h
  | cons a l ih =>
    intro x hx
    rw [pickRecord] at h
    split at h
    · split at h
      · cases h
      · cases h
        simp only [List.mem_append, List.mem_reverse] at hx
        exact hx.imp_right (List.mem_cons_of_mem _)
    · rcases ih h x hx with hm | hm
      · exact (List.mem_cons.mp hm).elim (fun e => .inr (e ▸ List.mem_cons_self ..)) .inl
      · exact .inr (List.mem_cons_of_mem _ hm)

theorem exec_completionRecordWrite {q : Nat} {s : State} (hr : s.released 28 = true) :
    exec (.completionRecordWrite q) s = .next (s.writeCompletion q).recordsWritten :=
  congrArg Host.Outcome.next (if_pos hr)

section
variable {q : Nat} {r : Rec} {rest : List Rec} {s : State}

theorem State.writeCompletion_of_room (hp : pickRecord s (fun r => !r.event && r.cq == q) [] [] s.host.records = some (r, rest))
    (he : s.on F.RING_CQ_CFG_enable q = true) (hf : s.queueFull q = false) :
    s.writeCompletion q = ((s.updHost fun h => { h with records := rest }).writeRecord q r).finishQueueResets := by
  unfold State.writeCompletion
  rw [hp]
  dsimp only
  rw [if_neg (by simp [he]), if_neg (Bool.eq_false_iff.mp hf)]

theorem State.writeCompletion_of_full (hp : pickRecord s (fun r => !r.event && r.cq == q) [] [] s.host.records = some (r, rest))
    (he : s.on F.RING_CQ_CFG_enable q = true) (hf : s.queueFull q = true) : s.writeCompletion q = s.holdQueue q := by
  unfold State.writeCompletion
  rw [hp]
  dsimp only
  rw [if_neg (by simp [he]), if_pos hf]

theorem State.writeCompletion_of_off (hp : pickRecord s (fun r => !r.event && r.cq == q) [] [] s.host.records = some (r, rest))
    (he : s.on F.RING_CQ_CFG_enable q = false) : s.writeCompletion q =
      (match r.cmd with
        | some id => (s.updHost fun h => { h with records := rest }).cmdRecorded id
        | none => s.updHost fun h => { h with records := rest }).finishQueueResets := by
  unfold State.writeCompletion
  rw [hp]
  dsimp only
  refine (if_pos (by simp [he])).trans ?_
  cases r.cmd <;> rfl

end

/-- With no UNMOUNT and no FLUSH waiting, nothing is left to check after a record. -/
theorem State.recordsWritten_of_idle {s : State} (h0 : (s.port 0).unmount = none) (h1 : (s.port 1).unmount = none) (hf : s.stor.flushes = []) :
    s.recordsWritten = s.updStor fun x => { x with flushes := [] } := by
  have hu : ∀ p, (s.port p).unmount = none → s.unmountCheck p = s := fun p h => by
    unfold State.unmountCheck
    extract_lets x
    have hx : x.unmount = none := h
    rw [hx]
  rw [State.recordsWritten, hu 0 h0, hu 1 h1, State.flushCheck_of_none hf]

theorem State.holdQueue_first {s : State} {q : Nat} (hf : s.queueFull q = true) (hw : s.host.records.any (s.waitsOn q) = true)
    (he : (s.queue q).episode = false) : s.holdQueue q =
      ((((s.updHost fun h => { h with records := h.records.map fun r => if s.waitsOn q r then { r with full := true } else r }).updQueue q
        fun x => { x with episode := true }).flagCount F.RING_FLAGS_cq_full F.RING_CNT_cq_full).raise 0 Ev.RING_CQ_FULL (le 1 q)) := by
  unfold State.holdQueue
  rw [if_pos (by rw [hf, hw]; rfl)]
  exact if_neg (by rw [he]; decide)

/-- The event queue's writes. -/
theorem exec_eventRecordWrite {r : Rec} {rest : List Rec} {s : State} (hp : pickRecord s (fun r => r.event) [] [] s.host.records = some (r, rest)) :
    exec .eventRecordWrite s = .next (if s.host.holding then
      (if s.host.held.length < 256 then (s.updHost fun h => { h with records := rest }).updHost fun h => { h with held := h.held ++ [r] }
       else (s.updHost fun h => { h with records := rest }).dropRecord)
      else ((s.updHost fun h => { h with records := rest }).deliverEvent r).checkLost) := by
  change Host.Outcome.next s.writeEvent = _
  unfold State.writeEvent
  rw [hp]

theorem State.checkLost_of_none {s : State} (h : s.host.lost = 0 ∨ s.eventRoom = false) : s.checkLost = s := by
  refine if_neg ?_
  rcases h with h | h
  · simp [h]
  · simp [h]

/-- Fewer records leave the event queue's room. -/
theorem State.eventRoom_of_fewer {s : State} {rest : List Rec} (h : s.eventRoom = true) (hr : ∀ x ∈ rest, x ∈ s.host.records) :
    (s.updHost fun h => { h with records := rest }).eventRoom = true := by
  simp only [State.eventRoom, Bool.and_eq_true, Bool.not_eq_true', State.queueHolds, List.any_eq_false] at h ⊢
  obtain ⟨ha, hb⟩ := h
  exact ⟨ha, fun x hx => hb x (hr x hx)⟩

/-- The message of a queue, when its vector is not masked. -/
theorem State.signal_of_open {s : State} {q : Nat} (h : (s.host.msix.getD (s.rd F.RING_CQ_CFG_vector q) MsixSt.init).mask = false) :
    s.signal q = (s.updQueue q fun x => { x with unsignalled := 0 }).emit (.msix (s.rd F.RING_CQ_CFG_vector q)) :=
  if_neg (Bool.eq_false_iff.mp h)

theorem State.signal_of_masked {s : State} {q : Nat} (h : (s.host.msix.getD (s.rd F.RING_CQ_CFG_vector q) MsixSt.init).mask = true) :
    s.signal q = (s.updQueue q fun x => { x with unsignalled := 0 }).updHost fun h =>
      { h with msix := updAt h.msix (s.rd F.RING_CQ_CFG_vector q) fun m => { m with pending := true } } :=
  if_pos h

theorem State.queue_updQueue_self {s : State} {q : Nat} (f : QueueSt → QueueSt) (h : q < s.host.queues.length) :
    (s.updQueue q f).queue q = f (s.queue q) := updAt_getD_self _ _ _ _ h

theorem exec_msixMessageSend {q : Nat} {s : State} (h : s.rd F.RING_CQ_CFG_coal_count q ≤ (s.queue q).unsignalled) :
    exec (.msixMessageSend q) s = .next (s.signal q) := if_pos h

/-- Settles O43: each record command is one branch of its definition, and the checks after it reach neither a tail nor what was shown. -/
theorem recordsAndMessages : Obligations.RecordsAndMessages := by
  refine ⟨fun q r rest s => ⟨fun hr hp he hf => ?_, fun hr hp he hf hw hep hq h0 h1 hfl => ?_, fun hp hh hl hroom hc => ?_, fun hp hh hen => ?_,
    fun hp hh hl => ?_, fun hq => ⟨fun hn hm => ?_, fun hn hm hv => ?_, fun hu hc hm => ?_⟩, fun hq => ?_⟩, fun q r rest s hr hp =>
    ⟨fun he hf => ?_, fun he hf => ?_, fun he => ?_⟩⟩
  · refine Does.of_exec (exec_completionRecordWrite hr) ?_
    rw [State.writeCompletion_of_room hp he hf]
    obtain ⟨ht, bs, ho⟩ := State.writeRecord_reads (s.updHost fun h => { h with records := rest }) q r
    generalize (s.updHost fun h => { h with records := rest }).writeRecord q r = u at ht ho
    have hw := (State.Within.refl unmountFlds u).finishQueueResets (fun x hx => List.mem_append_right _ (List.mem_cons_of_mem _ hx))
    refine ⟨?_, bs, ?_⟩
    · rw [(hw.recordsWritten fun _ hx => hx).rd _ _ _ (by decide)]
      exact ht
    · rw [State.Apart.out.recordsWritten (fun _ _ => rfl), State.Apart.out.finishQueueResets]
      exact ho
  · refine Does.of_exec (exec_completionRecordWrite hr) ?_
    rw [State.writeCompletion_of_full hp he hf, State.holdQueue_first hf hw hep]
    let u := ((s.updHost fun h => { h with records := h.records.map fun r => if s.waitsOn q r then { r with full := true } else r }).updQueue q
      fun x => { x with episode := true }).flagCount F.RING_FLAGS_cq_full F.RING_CNT_cq_full
    change (u.raise 0 Ev.RING_CQ_FULL (le 1 q)).recordsWritten.out = _ ∧ (u.raise 0 Ev.RING_CQ_FULL (le 1 q)).recordsWritten.rd F.RING_FLAGS_cq_full = _ ∧ _
    have hstor : (u.raise 0 Ev.RING_CQ_FULL (le 1 q)).stor = s.stor := by
      rw [State.Apart.stor.raise]
      exact (State.wr_stor ..).trans (State.wr_stor ..)
    have hrec : u.host.records = s.host.records.map fun r => if s.waitsOn q r then { r with full := true } else r := by
      have hu : u.host = ((s.updHost fun h => { h with records := h.records.map fun r => if s.waitsOn q r then { r with full := true } else r }).updQueue q
        fun x => { x with episode := true }).host := (State.wr_host ..).trans (State.wr_host ..)
      rw [hu]
      rfl
    have hquiet : u.quiet 0 = false := by
      refine (State.quiet_of_rd (s := s) (fun f hf => ?_) 0).trans hq
      exact State.rd_flagCount_other _ _ _ _ _ _ _ (by revert f; decide)
    obtain ⟨e, he1, he2, he3, -⟩ := u.raise_awake 0 Ev.RING_CQ_FULL (le 1 q) hquiet
    rw [State.recordsWritten_of_idle (by rw [State.port_congr hstor]; exact h0) (by rw [State.port_congr hstor]; exact h1) (by rw [hstor]; exact hfl)]
    refine ⟨?_, ?_, e, ?_, he2, he3⟩
    · refine (State.raise_out ..).trans ?_
      exact (State.wr_out ..).trans (State.wr_out ..)
    · refine (State.rd_raise_other _ _ _ _ _ _ _ (by decide)).trans ?_
      exact State.rd_flagCount_flag _ F.RING_FLAGS_cq_full F.RING_CNT_cq_full 0 (by decide)
    · exact he1.trans (congrArg (· ++ [e]) hrec)
  · refine Does.of_exec (exec_eventRecordWrite hp) ?_
    have hroom' := State.eventRoom_of_fewer hroom fun x hx => (mem_of_pickRecord hp x hx).resolve_left List.not_mem_nil
    obtain ⟨hr1, hr2⟩ := State.writeRecord_host (s := s.updHost fun h => { h with records := rest }) (q := s.rd F.RING_EVQ_CFG_cq) hc
    have hd : (s.updHost fun h => { h with records := rest }).deliverEvent r =
        (s.updHost fun h => { h with records := rest }).writeRecord (s.rd F.RING_EVQ_CFG_cq) r := if_pos hroom'
    rw [if_neg (by rw [hh]; decide), hd, State.checkLost_of_none (.inl (hr2.trans hl))]
    exact ⟨hr1, (State.writeRecord_reads ..).1⟩
  · refine Does.of_exec (exec_eventRecordWrite hp) ?_
    have hroom : ∀ t : State, t.rd F.RING_EVQ_CFG_enable = s.rd F.RING_EVQ_CFG_enable → t.eventRoom = false := fun t ht => by
      simp [State.eventRoom, State.on, ht, show (s.rd F.RING_EVQ_CFG_enable == 1) = false from hen]
    have hd : (s.updHost fun h => { h with records := rest }).deliverEvent r = (s.updHost fun h => { h with records := rest }).dropRecord :=
      if_neg (Bool.eq_false_iff.mp (hroom (s.updHost fun h => { h with records := rest }) rfl))
    have ho : s.Only (s.updHost fun h => { h with records := rest }).dropRecord [(F.RING_FLAGS_evq_lost, 0), (F.RING_EVQ_LOST_count, 0)] :=
      State.Only.same (State.Only.bump (State.Only.wr (t := s.updHost fun h => { h with records := rest }) (State.Only.refl s _).same
        F.RING_FLAGS_evq_lost 1 0 0 (by simp)) F.RING_EVQ_LOST_count 0 0 1 (by simp))
    have hl : (s.updHost fun h => { h with records := rest }).dropRecord.host = { s.host with records := rest, lost := s.host.lost + 1 } := by
      rw [State.dropRecord, State.updHost_host, State.bump, State.wr_host, State.wr_host]
      rfl
    have hen' : (s.updHost fun h => { h with records := rest }).dropRecord.rd F.RING_EVQ_CFG_enable = s.rd F.RING_EVQ_CFG_enable :=
      ((State.Within.refl eventFlds _).dropRecord fun _ hx => hx).rd _ _ _ (by decide)
    rw [if_neg (by rw [hh]; decide), hd, State.checkLost_of_none (.inr (hroom _ hen'))]
    refine ⟨congrArg HostSt.records hl, State.Apart.out.dropRecord _, ?_, congrArg HostSt.lost hl, ho⟩
    exact (State.rd_bump_other _ F.RING_EVQ_LOST_count F.RING_FLAGS_evq_lost _ _ _ _ _ (by decide)).trans (State.rd_wr_self ..)
  · refine Does.of_exec (exec_eventRecordWrite hp) ?_
    rw [if_pos hh, if_pos hl]
    exact ⟨rfl, rfl, State.Only.same (State.Only.refl s _)⟩
  · refine Does.of_exec (exec_msixMessageSend hn) ?_
    rw [State.signal_of_open hm]
    exact ⟨rfl, congrArg QueueSt.unsignalled (State.queue_updQueue_self _ hq), State.Only.same (State.Only.refl s _)⟩
  · refine Does.of_exec (exec_msixMessageSend hn) ?_
    rw [State.signal_of_masked hm]
    exact ⟨rfl, congrArg MsixSt.pending (updAt_getD_self _ _ _ _ hv), State.Only.same (State.Only.refl s _)⟩
  · refine Does.of_exec (show exec (.msixCoalesceTimeout q) s = .next (s.signal q) from if_pos ⟨hu, hc⟩) ?_
    rw [State.signal_of_open hm]
    exact ⟨rfl, congrArg QueueSt.unsignalled (State.queue_updQueue_self _ hq), State.Only.same (State.Only.refl s _)⟩
  · refine Does.of_exec (show exec (.msixVectorUnmask q) s = .next (if (s.host.msix.getD q MsixSt.init).pending
      then (s.updHost fun h => { h with msix := updAt h.msix q fun m => { m with mask := false, pending := false } }).emit (.msix q)
      else s.updHost fun h => { h with msix := updAt h.msix q fun m => { m with mask := false, pending := false } }) from rfl) ?_
    have hm := updAt_getD_self s.host.msix q (fun m => { m with mask := false, pending := false }) MsixSt.init hq
    split
    · exact ⟨hm, rfl, State.Only.same (State.Only.refl s _)⟩
    · exact ⟨hm, rfl, State.Only.same (State.Only.refl s _)⟩
  · rw [exec_completionRecordWrite hr, State.writeCompletion_of_room hp he hf]
  · rw [exec_completionRecordWrite hr, State.writeCompletion_of_full hp he hf]
  · refine (exec_completionRecordWrite hr).trans (congrArg (fun u : State => Host.Outcome.next u.recordsWritten)
      ((State.writeCompletion_of_off hp he).trans ?_))
    cases r.cmd <;> rfl

end Sys2Proof.Machine
end

section
/-! PROOFS. The barrow channels (spec/11, R400 to R408). -/
namespace Sys2Proof.Machine

set_option Elab.async false

/-! ### The control word -/

theorem setBit_low (v : Nat) (b : Bool) : setBit v 0 b = v / 2 * 2 + b2n b := by
  unfold setBit bitOf
  rcases Nat.mod_two_eq_zero_or_one v with h | h
  · simp only [Nat.pow_zero, Nat.div_one, h, b2n]
    simp
    omega
  · simp only [Nat.pow_zero, Nat.div_one, h, b2n]
    simp
    omega

theorem setBit_low_mod (v : Nat) (b : Bool) : setBit v 0 b % 2 = b2n b := by
  rw [setBit_low]
  cases b
  · simp [b2n]
  · simp [b2n]

theorem bitsOf_setBit_low (v hi lo : Nat) (b : Bool) (h : 0 < lo) : bitsOf (setBit v 0 b) hi lo = bitsOf v hi lo := by
  obtain ⟨k, rfl⟩ : ∃ k, lo = k + 1 := ⟨lo - 1, by omega⟩
  have hb : b2n b < 2 := by cases b <;> decide
  unfold bitsOf
  rw [setBit_low, Nat.pow_succ', ← Nat.div_div_eq_div_mul, ← Nat.div_div_eq_div_mul]
  congr 2
  omega

theorem State.barrowCtrl_reads (s : State) (c v : Nat) : (s.barrowCtrl c v).rd F.BARROW_CH_CTRL_enable c = v % 2
    ∧ (s.barrowCtrl c v).rd F.BARROW_CH_CTRL_cq c = bitsOf v 7 4 ∧ (s.barrowCtrl c v).rd F.BARROW_CH_CTRL_dir c = bitsOf v 1 1 := by
  simp (disch := decide) only [State.barrowCtrl, State.rd_wr_other, State.rd_wr_self]
  exact ⟨Nat.mod_mod v 2, bitsOf_mod (by decide), bitsOf_mod (by decide)⟩

theorem State.within_barrowCtrl (s : State) (c v : Nat) :
    State.Within [F.BARROW_CH_CTRL_cq, F.BARROW_CH_CTRL_dir, F.BARROW_CH_CTRL_enable] s (s.barrowCtrl c v) :=
  (((State.Within.refl _ s).wr (by decide) _ c 0).wr (by decide) _ c 0).wr (by decide) _ c 0

theorem State.barrowCtrl_host (s : State) (c v : Nat) : (s.barrowCtrl c v).host = s.host := by
  rw [State.barrowCtrl, State.wr_host, State.wr_host, State.wr_host]

/-! ### What the operations of a channel leave -/

theorem State.barrow_updBarrow_self {s : State} {c : Nat} (f : BarrowSt → BarrowSt) (h : c < s.host.barrows.length) :
    (s.updBarrow c f).barrow c = f (s.barrow c) := updAt_getD_self _ _ _ _ h

theorem State.barrow_congr {s t : State} (h : t.host.barrows = s.host.barrows) (c : Nat) : t.barrow c = s.barrow c := by
  rw [State.barrow, State.barrow, h]

theorem State.updBarrow_length (s : State) (c : Nat) (f : BarrowSt → BarrowSt) : (s.updBarrow c f).host.barrows.length = s.host.barrows.length :=
  updAt_length ..

theorem State.Apart.barrows : State.Apart fun s => s.host.barrows :=
  ⟨fun s f v i j => by rw [State.wr_host], fun _ => rfl, fun s f h =>
    have hf := congrArg HostSt.barrows (h s.host)
    hf⟩

section
variable {l : List Fld} {s t : State}

/-- The fields that letting go of a channel's holds and chunks may set. -/
def releaseFlds : List Fld := [F.HBM_CANVAS_STATUS_free, F.BARROW_BUF_used, F.BARROW_BUF_peak]

theorem State.Within.releaseHold (h : State.Within l s t) (hl : F.HBM_CANVAS_STATUS_free ∈ l) (e k part : Nat) (x : Holder) :
    State.Within l s (t.releaseHold e k part x) := by
  have hu : ∀ (u : State) (f : Slot → Slot), State.Within l s u → State.Within l s (u.updSlot e k f) := fun u f hu =>
    State.Within.wr (t := u.updCanvas e fun c => { c with slots := updAt c.slots k f }) hu.same hl _ e 0
  exact hu _ _ (hu _ _ h)

theorem State.Within.barrowBuf (h : State.Within l s t) (hl : ∀ x ∈ releaseFlds, x ∈ l) : State.Within l s t.barrowBuf :=
  (h.wr (hl F.BARROW_BUF_used (by decide)) _ 0 0).wr (hl F.BARROW_BUF_peak (by decide)) _ 0 0

theorem State.Within.barrowRelease (h : State.Within l s t) (hl : ∀ x ∈ releaseFlds, x ∈ l) (c : Nat) : State.Within l s (t.barrowRelease c) := by
  unfold State.barrowRelease
  have hr : State.Within l s ((t.barrow c).holds.foldl (fun (s : State) h => s.releaseHold h.1 h.2.1 h.2.2 (.barrow c)) t) :=
    h.each _ fun u x hu => hu.releaseHold (hl _ (by decide)) _ _ _ _
  exact State.Within.barrowBuf (t := State.updBarrow _ c fun b => { b with holds := [], engine := false, chunks := 0 }) hr.same hl

theorem State.Within.barrowPost (h : State.Within l s t) (hl : ∀ x ∈ eventFlds, x ∈ l) (c tag status a b : Nat) :
    State.Within l s (t.barrowPost c tag status a b) := h.post hl _

end

theorem State.releaseHold_host (s : State) (e k part : Nat) (x : Holder) : (s.releaseHold e k part x).host = s.host := by
  rw [State.releaseHold, State.slotCheck, State.updSlot, State.canvasCount, State.wr_host, State.updCanvas, State.updHbm_host, State.updSlot,
    State.canvasCount, State.wr_host, State.updCanvas, State.updHbm_host]

/-- A channel that lets go of its holds has neither an engine nor chunks. -/
theorem State.barrowRelease_barrows (s : State) (c : Nat) : (s.barrowRelease c).host.barrows =
    updAt s.host.barrows c fun b => { b with holds := [], engine := false, chunks := 0 } := by
  have hr : ((s.barrow c).holds.foldl (fun (s : State) h => s.releaseHold h.1 h.2.1 h.2.2 (.barrow c)) s).host = s.host :=
    State.each_of_kept State.host (f := fun (s : State) (h : Nat × Nat × Nat) => s.releaseHold h.1 h.2.1 h.2.2 (.barrow c))
      (fun u x => State.releaseHold_host u _ _ _ _) s _
  rw [State.barrowRelease, State.barrowBuf, State.peak, State.wr_host, State.wr_host, State.updBarrow, State.updHost_host, hr]

/-- A fetch is due at an address. -/
theorem State.barrowGo_reads {s : State} {c a : Nat} (h : c < s.host.barrows.length) : (s.barrowGo c a).rd F.BARROW_CH_STATUS_state c = 1
    ∧ ((s.barrowGo c a).barrow c).fetch = true ∧ ((s.barrowGo c a).barrow c).reread = false := by
  have hb : (s.barrowGo c a).barrow c = { s.barrow c with fetch := true, cur := none, waits := [], reread := false } := by
    rw [State.barrowGo, State.barrow_updBarrow_self _ (by rwa [State.wr_host, State.wr_host, State.wr_host])]
    rw [State.barrow, State.wr_host, State.wr_host, State.wr_host]
    rfl
  refine ⟨?_, by rw [hb], by rw [hb]⟩
  exact (State.rd_wr_self (s.wr F.BARROW_CH_CUR_LO_value a c |>.wr F.BARROW_CH_CUR_HI_value (a / 4294967296) c) F.BARROW_CH_STATUS_state 1 c 0).trans rfl

theorem State.within_barrowGo (s : State) (c a : Nat) :
    State.Within [F.BARROW_CH_CUR_LO_value, F.BARROW_CH_CUR_HI_value, F.BARROW_CH_STATUS_state] s (s.barrowGo c a) :=
  State.Within.same ((((State.Within.refl _ s).wr (f := F.BARROW_CH_CUR_LO_value) (by decide) a c 0).wr (f := F.BARROW_CH_CUR_HI_value) (by decide)
    (a / 4294967296) c 0).wr (f := F.BARROW_CH_STATUS_state) (by decide) 1 c 0)

/-- A halt notes its cause. -/
theorem State.barrowHalt_reads (s : State) (c : Nat) : (s.barrowHalt c St.BARROW_HOST_ERR).rd F.BARROW_CH_STATUS_state c = 3
    ∧ (s.barrowHalt c St.BARROW_HOST_ERR).rd F.BARROW_CH_STATUS_fault c = St.BARROW_HOST_ERR
    ∧ (s.barrowHalt c St.BARROW_HOST_ERR).rd F.BARROW_FLAGS_host_err = 1 ∧ (s.barrowHalt c St.BARROW_HOST_ERR).mem = s.mem := by
  unfold State.barrowHalt
  extract_lets a tag t t1
  have ht1 : t1 = t.flagCount F.BARROW_FLAGS_host_err F.BARROW_CNT_host_err := if_pos rfl
  have ht : t.mem = s.mem := by
    refine (State.wr_mem ..).trans ((State.wr_mem ..).trans ?_)
    exact ((State.Within.refl releaseFlds s).barrowRelease (fun _ hx => hx) c).mem
  rw [ht1]
  clear_value t1 t
  have hp : ∀ u : State, State.Within eventFlds u ((u.barrowPost c tag St.BARROW_HOST_ERR a (a / 4294967296)).raise 0 Ev.BARROW_HALT
      (le 1 c ++ le 2 St.BARROW_HOST_ERR ++ le 8 a)) := fun u =>
    ((State.Within.refl eventFlds u).barrowPost (fun _ hx => hx) _ _ _ _ _).raise (fun _ hx => hx) _ _ _
  refine ⟨?_, ?_, ?_, ?_⟩
  · rw [(hp _).rd _ _ _ (by decide), State.rd_wr_other _ _ _ _ _ _ _ _ (by decide), State.rd_wr_self]
    rfl
  · rw [(hp _).rd _ _ _ (by decide), State.rd_wr_self]
    rfl
  · rw [(hp _).rd _ _ _ (by decide), State.rd_wr_other _ _ _ _ _ _ _ _ (by decide), State.rd_wr_other _ _ _ _ _ _ _ _ (by decide)]
    exact State.rd_flagCount_flag _ F.BARROW_FLAGS_host_err F.BARROW_CNT_host_err 0 (by decide)
  · rw [(hp _).mem, State.wr_mem, State.wr_mem, State.flagCount, State.bump, State.wr_mem, State.wr_mem, ht]

/-- A channel that is next of its direction takes one of the free engines (R400). -/
def State.engineGiven (s : State) (c : Nat) : State :=
  ((s.updHost fun h => { h with barrowTurn := h.barrowTurn.set (b2n (s.on F.BARROW_CH_CTRL_dir c)) c }).updBarrow c fun b =>
    { b with engine := true }).barrowTake c

theorem State.barrowEngine_of_free {s : State} {c : Nat} (hn : s.barrowNext (s.on F.BARROW_CH_CTRL_dir c) = some c)
    (hl : (s.barrowEngines (s.on F.BARROW_CH_CTRL_dir c)).length < 8) : s.barrowEngine c = some (s.engineGiven c) := by
  unfold State.barrowEngine
  extract_lets dir long give
  rw [if_neg (by simp [dir, hn]), if_pos hl]
  rfl

theorem State.only_barrowBuf (s : State) : s.Only s.barrowBuf [(F.BARROW_BUF_used, 0), (F.BARROW_BUF_peak, 0)] :=
  State.Only.wr (State.Only.wr (State.Only.refl s _) F.BARROW_BUF_used _ 0 0 (by simp)) F.BARROW_BUF_peak _ 0 0 (by simp)

theorem State.only_engineGiven (s : State) (c : Nat) : s.Only (s.engineGiven c) [(F.BARROW_BUF_used, 0), (F.BARROW_BUF_peak, 0)] := by
  unfold State.engineGiven State.barrowTake
  extract_lets free
  generalize hu : State.updBarrow _ c _ = u
  have h : s.Only u [(F.BARROW_BUF_used, 0), (F.BARROW_BUF_peak, 0)] := by
    rw [← hu]
    exact (State.Only.refl s _).same
  exact (h.trans u.only_barrowBuf).same

theorem State.engineGiven_out (s : State) (c : Nat) : (s.engineGiven c).out = s.out := by
  unfold State.engineGiven State.barrowTake State.barrowBuf
  extract_lets free
  exact (State.wr_out ..).trans (State.wr_out ..)

/-- An engine is given with at most 64 chunks of the buffer. -/
theorem State.engineGiven_barrow {s : State} {c : Nat} (h : c < s.host.barrows.length) :
    ∃ n ≤ 64, (s.engineGiven c).barrow c = { s.barrow c with engine := true, chunks := n } := by
  unfold State.engineGiven
  generalize hu : ((s.updHost fun h => { h with barrowTurn := h.barrowTurn.set (b2n (s.on F.BARROW_CH_CTRL_dir c)) c }).updBarrow c fun b =>
    { b with engine := true }) = u
  have hl : c < u.host.barrows.length := by rw [← hu, State.updBarrow_length]; exact h
  have hb : u.barrow c = { s.barrow c with engine := true } := by
    rw [← hu]
    exact State.barrow_updBarrow_self _ h
  unfold State.barrowTake
  extract_lets free
  refine ⟨min free (min 64 (Config.barrowChunks u.fresh)), by omega, ?_⟩
  refine (State.barrow_congr (s := u.updBarrow c fun b => { b with chunks := min free (min 64 (Config.barrowChunks u.fresh)) }) ?_ c).trans
    ((State.barrow_updBarrow_self _ hl).trans ?_)
  · rw [State.tick_host, State.barrowBuf, State.peak, State.wr_host, State.wr_host]
  · rw [hb]

theorem State.hbmRead_kept {α : Type} (π : State → α) (hw : ∀ (s : State) (f : Fld) (v i j : Nat), π (s.wr f v i j) = π s)
    (ht : ∀ s : State, π s.tick = π s) (hh : ∀ (s : State) (f : HbmSt → HbmSt), π (s.updHbm f) = π s) (s : State) (a n : Nat) :
    π (s.hbmRead a n) = π s := by
  have hi : π (s.issue .read a n) = π s := by
    unfold State.issue State.updStack
    exact hh ..
  unfold State.hbmRead
  extract_lets k c
  split
  · rfl
  · rw [ht]
    cases decide (0 < c)
    · exact hi
    · rw [State.whenB_true, State.bump, hw, hw, hi]

theorem State.barrowRelease_of_none {s : State} {c : Nat} (h : (s.barrow c).holds = []) :
    s.barrowRelease c = (s.updBarrow c fun b => { b with holds := [], engine := false, chunks := 0 }).barrowBuf := by
  rw [State.barrowRelease, h]
  rfl

theorem State.barrowBuf_kept {α : Type} (π : State → α) (hw : ∀ (s : State) (f : Fld) (v i j : Nat), π (s.wr f v i j) = π s) (s : State) :
    π s.barrowBuf = π s := by rw [State.barrowBuf, State.peak, hw, hw]

theorem State.barrowBytes_kept {α : Type} (π : State → α) (hw : ∀ (s : State) (f : Fld) (v i j : Nat), π (s.wr f v i j) = π s) (s : State) (c n : Nat) :
    π (s.barrowBytes c n) = π s := by rw [State.barrowBytes, hw, hw]

/-- A channel whose state is set anew from nothing has no descriptor in hand. -/
theorem State.cur_updBarrow {s : State} {c : Nat} {f : BarrowSt → BarrowSt} (hf : ∀ b, (f b).cur = none) : ((s.updBarrow c f).barrow c).cur = none := by
  by_cases h : c < s.host.barrows.length
  · rw [State.barrow_updBarrow_self _ h, hf]
  · rw [State.barrow, getD_of_ge (by rw [State.updBarrow_length]; omega)]
    rfl

theorem State.barrowBad_congr {s t : State} (c : Nat) (hr : t.rd F.BARROW_CH_CTRL_dir c = s.rd F.BARROW_CH_CTRL_dir c) (hh : t.hbm = s.hbm)
    (b : List Byte) (d : BarrowDesc) : t.barrowBad c b d = s.barrowBad c b d := by
  have hon : t.on F.BARROW_CH_CTRL_dir c = s.on F.BARROW_CH_CTRL_dir c := by rw [State.on, hr, State.on]
  have hin : ∀ a n k o, t.inRegion a n k o = s.inRegion a n k o := fun a n k o => by rw [State.inRegion, hh, State.inRegion]
  unfold State.barrowBad
  rw [hon, hin]

/-- A good descriptor of a channel to HBM is in hand. -/
theorem State.barrowRead_of_good {s : State} {c : Nat} {bs : List Byte} (hd : s.on F.BARROW_CH_CTRL_dir c = false)
    (h : s.barrowBad c (padTo 64 bs) (barrowDesc (s.barrowAt c) (padTo 64 bs)) = St.OK) :
    s.barrowRead c bs = (s.updBarrow c fun x => { x with cur := some (barrowDesc (s.barrowAt c) (padTo 64 bs)) }).updBarrow c fun x =>
      { x with holds := [], waits := [] } := by
  unfold State.barrowRead
  extract_lets dir b d t bad parts slot frames t1
  have hparts : parts = [] := if_neg (Bool.eq_false_iff.mp hd)
  have hbad : bad = 0 := (State.barrowBad_congr c rfl rfl b d).trans h
  have hframes : frames = [] := by simp [frames, hparts]
  rw [if_neg (not_not_intro hbad), if_neg (by simp [hframes])]
  simp only [t1, hparts, hframes]
  rfl

/-- What a channel without a descriptor leaves as it stops. -/
theorem State.barrowStop_of_none {s : State} {c : Nat} (h : (s.barrow c).cur = none) (moved : Nat) (data : List Byte) :
    s.barrowStop c moved data = (s.wr F.BARROW_CH_STATUS_state 0 c).updBarrow c fun b => { BarrowSt.init with known := b.known } := by
  unfold State.barrowStop
  rw [h]

/-- A channel that stops with a descriptor in hand lets go of it and records it (R407). -/
theorem State.barrowStop_of_some {s : State} {c : Nat} {d : BarrowDesc} (h : (s.barrow c).cur = some d) (moved : Nat) (data : List Byte) :
    ∃ r : State × Nat × Nat, s.barrowStop c moved data =
      ((((r.1.barrowRelease c).flagCount F.BARROW_FLAGS_stopped F.BARROW_CNT_stopped).barrowPost c d.tag St.BARROW_STOPPED r.2.1 r.2.2).wr
        F.BARROW_CH_STATUS_state 0 c).updBarrow c fun b => { BarrowSt.init with known := b.known } := by
  refine ⟨if (s.barrow c).waits.isEmpty && !s.barrowWaits c d then s.barrowMove c d (min moved d.length) data else (s, 0, 0), ?_⟩
  unfold State.barrowStop
  rw [h]

theorem State.barrowStop_reads {s : State} {c : Nat} {d : BarrowDesc} (h : (s.barrow c).cur = some d) (moved : Nat) (data : List Byte) :
    (s.barrowStop c moved data).rd F.BARROW_FLAGS_stopped = 1 ∧ (s.barrowStop c moved data).rd F.BARROW_CH_STATUS_state c = 0
      ∧ ((s.barrowStop c moved data).barrow c).cur = none := by
  obtain ⟨r, hr⟩ := State.barrowStop_of_some h moved data
  rw [hr]
  generalize hu : (((r.1.barrowRelease c).flagCount F.BARROW_FLAGS_stopped F.BARROW_CNT_stopped).barrowPost c d.tag St.BARROW_STOPPED r.2.1 r.2.2) = u
  refine ⟨?_, (State.rd_wr_self u F.BARROW_CH_STATUS_state 0 c 0).trans rfl, State.cur_updBarrow fun b => rfl⟩
  have hp : u.rd F.BARROW_FLAGS_stopped = 1 := by
    rw [← hu, ((State.Within.refl eventFlds _).barrowPost (fun _ hx => hx) _ _ _ _ _).rd _ _ _ (by decide)]
    exact State.rd_flagCount_flag _ F.BARROW_FLAGS_stopped F.BARROW_CNT_stopped 0 (by decide)
  exact (State.rd_wr_other u F.BARROW_CH_STATUS_state F.BARROW_FLAGS_stopped 0 c 0 0 0 (by decide)).trans hp

section
variable {c v : Nat} {s : State}

theorem exec_barrowChannelEnable (hb : s.barrowCtrlBad c v = false) : exec (.barrowChannelEnable c v) s = .next
    (if s.rd F.BARROW_CH_STATUS_state c = 0 then (s.barrowCtrl c (setBit v 0 true)).barrowBegin c else s.barrowCtrl c (setBit v 0 true)) :=
  if_neg (Bool.eq_false_iff.mp hb)

theorem exec_barrowChannelDisable (hb : s.barrowCtrlBad c v = false) (moved : Nat) (data : List Byte) :
    exec (.barrowChannelDisable c v moved data) s = .next ((s.barrowStop c moved data).barrowCtrl c (setBit v 0 false)) :=
  if_neg (Bool.eq_false_iff.mp hb)

theorem exec_barrowChannelRestart_on (hb : s.barrowCtrlBad c v = false) (hv : v % 2 = 1) : exec (.barrowChannelRestart c v) s = .next
    (if s.rd F.BARROW_CH_STATUS_state c = 3 ∨ s.rd F.BARROW_CH_STATUS_state c = 0 then (s.barrowCtrl c v).barrowBegin c else s.barrowCtrl c v) :=
  (if_neg (Bool.eq_false_iff.mp hb)).trans (if_neg (by omega))

theorem exec_barrowChannelRestart_off (hb : s.barrowCtrlBad c v = false) (hv : v % 2 = 0) :
    exec (.barrowChannelRestart c v) s = .next ((s.barrowStop c 0 []).barrowCtrl c v) :=
  (if_neg (Bool.eq_false_iff.mp hb)).trans (if_pos hv)

theorem exec_barrowDescFetch (hr : s.released 28 = true) (hw : s.takesWork 0x60 = true) (hf : (s.barrow c).fetch = true)
    (hn : s.barrowNext (s.on F.BARROW_CH_CTRL_dir c) = some c) (hl : (s.barrowEngines (s.on F.BARROW_CH_CTRL_dir c)).length < 8)
    (data : Option (List Byte)) {t : State}
    (ht : t = ((s.engineGiven c).emit (.hostRead (s.barrowAt c) 64)).updBarrow c fun b => { b with fetch := false, recorded := b.known }) :
    exec (.barrowDescFetch c data) s = .next (data.elim (t.barrowHalt c St.BARROW_HOST_ERR) (t.barrowRead c)) := by
  subst ht
  change execBarrowDescFetch c data s = _
  unfold execBarrowDescFetch
  rw [if_neg (by rw [hr, hw, hf]; decide), State.barrowEngine_of_free hn hl]
  cases data with
  | none => dsimp only [Option.elim]
  | some bs => dsimp only [Option.elim]

theorem exec_barrowDescEnd {d : BarrowDesc} (hd : (s.barrow c).cur = some d) (he : (s.barrow c).engine = true) (hwt : (s.barrow c).waits = [])
    (hw : s.barrowWaits c d = false) (data : List Byte) (err : Bool) :
    exec (.barrowDescEnd c data err) s = .next (if err && !s.on F.BARROW_CH_CTRL_dir c then
      (s.barrowMove c d (min d.length data.length) data).1.barrowHalt c St.BARROW_HOST_ERR
      else ((s.barrowMove c d d.length data).1.whenB (bitOf d.op 2) fun t => t.barrowPost c d.tag St.OK (s.barrowMove c d d.length data).2.1
        (s.barrowMove c d d.length data).2.2).barrowNextDesc c d) := by
  change execBarrowDescEnd c data err s = _
  unfold execBarrowDescEnd
  rw [if_pos he, hd]
  dsimp only
  rw [if_neg (by rw [hwt, hw]; decide)]
  split
  · rfl
  · rfl

theorem exec_barrowCtrlReread (h2 : s.rd F.BARROW_CH_STATUS_state c = 2) (hr : (s.barrow c).reread = true) (word : Option Nat) {t : State}
    (ht : t = (s.emit (.hostRead (s.barrowAt c) 8)).updBarrow c fun b => { b with reread := false, recorded := b.known }) :
    exec (.barrowCtrlReread c word) s = .next (word.elim (t.barrowHalt c St.BARROW_HOST_ERR) fun w =>
      if w % 2 = 1 then t else t.barrowGo c (w % 2 ^ 64 / 64 * 64)) := by
  subst ht
  change execBarrowCtrlReread c word s = _
  unfold execBarrowCtrlReread
  rw [if_neg (by rw [h2, hr]; decide)]
  cases word with
  | none => dsimp only [Option.elim]
  | some w =>
    dsimp only [Option.elim]
    split
    · rfl
    · rfl

end

/-- A channel to HBM reads a good descriptor (R404). -/
theorem barrowDescFetch_good {c : Nat} {s : State} {bs : List Byte} (hc : c < s.host.barrows.length) (hr : s.released 28 = true)
    (hdir : s.on F.BARROW_CH_CTRL_dir c = false) (hw : s.takesWork 0x60 = true) (hf : (s.barrow c).fetch = true)
    (hn : s.barrowNext false = some c) (hl : (s.barrowEngines false).length < 8)
    (hok : s.barrowBad c (padTo 64 bs) (barrowDesc (s.barrowAt c) (padTo 64 bs)) = St.OK) :
    Does (.barrowDescFetch c (some bs)) s fun t => (t.barrow c).cur = some (barrowDesc (s.barrowAt c) (padTo 64 bs))
      ∧ (t.barrow c).waits = [] ∧ (t.barrow c).fetch = false ∧ (t.barrow c).chunks ≤ 64 ∧ t.out = .hostRead (s.barrowAt c) 64 :: s.out
      ∧ s.Only t [(F.BARROW_BUF_used, 0), (F.BARROW_BUF_peak, 0)] := by
  obtain ⟨n, hn64, hbar⟩ := s.engineGiven_barrow hc
  have hon := s.only_engineGiven c
  have hout := s.engineGiven_out c
  have hhbm : (s.engineGiven c).hbm = s.hbm := by
    rw [State.engineGiven, State.barrowTake, State.tick_hbm, State.barrowBuf_kept State.hbm State.wr_hbm]
    rfl
  have hlen : c < (s.engineGiven c).host.barrows.length := by
    rw [State.engineGiven, State.barrowTake, State.tick_host, State.barrowBuf_kept State.host State.wr_host, State.updBarrow_length, State.updBarrow_length]
    exact hc
  refine Does.of_exec (exec_barrowDescFetch hr hw hf (hdir ▸ hn) (hdir ▸ hl) (some bs) rfl) ?_
  generalize s.engineGiven c = g at hbar hon hout hhbm hlen
  have hoff : ∀ f ∈ [F.BARROW_CH_CTRL_dir, F.BARROW_CH_CUR_LO_value, F.BARROW_CH_CUR_HI_value],
      ∀ x ∈ [(F.BARROW_BUF_used, 0), (F.BARROW_BUF_peak, 0)], ¬ (x.1.base = f.base ∧ x.1.lo = f.lo) := by decide
  have hrd : ∀ f ∈ [F.BARROW_CH_CTRL_dir, F.BARROW_CH_CUR_LO_value, F.BARROW_CH_CUR_HI_value], g.rd f c = s.rd f c := fun f hf =>
    hon.2 f c 0 fun x hx e => absurd ⟨e.1, e.2.1⟩ (hoff f hf x hx)
  generalize hu : (g.emit (.hostRead (s.barrowAt c) 64)).updBarrow c (fun b => { b with fetch := false, recorded := b.known }) = u
  have hb : u.barrow c = { s.barrow c with fetch := false, recorded := (s.barrow c).known, engine := true, chunks := n } := by
    have hg : ((g.emit (.hostRead (s.barrowAt c) 64)).updBarrow c fun b => { b with fetch := false, recorded := b.known }).barrow c =
        { g.barrow c with fetch := false, recorded := (g.barrow c).known } := State.barrow_updBarrow_self _ hlen
    rw [← hu, hg, hbar]
  have hlu : c < u.host.barrows.length := by rw [← hu, State.updBarrow_length]; exact hlen
  have hou : u.out = .hostRead (s.barrowAt c) 64 :: s.out := by rw [← hout, ← hu]; rfl
  have hgu : g.Only u [(F.BARROW_BUF_used, 0), (F.BARROW_BUF_peak, 0)] := by rw [← hu]; exact (State.Only.refl g _).same
  have hru : ∀ f ∈ [F.BARROW_CH_CTRL_dir, F.BARROW_CH_CUR_LO_value, F.BARROW_CH_CUR_HI_value], u.rd f c = s.rd f c := fun f hf => by
    rw [← hrd f hf, ← hu]
    rfl
  have hat : u.barrowAt c = s.barrowAt c := by rw [State.barrowAt, State.pair, hru _ (by decide), hru _ (by decide)]; rfl
  have hdu : u.on F.BARROW_CH_CTRL_dir c = false := by rw [State.on, hru _ (by decide)]; exact hdir
  have hhu : u.hbm = s.hbm := by rw [← hhbm, ← hu]; rfl
  have hread := State.barrowRead_of_good (bs := bs) hdu (by rw [State.barrowBad_congr c (hru _ (by decide)) hhu, hat]; exact hok)
  change ((u.barrowRead c bs).barrow c).cur = _ ∧ ((u.barrowRead c bs).barrow c).waits = _ ∧ ((u.barrowRead c bs).barrow c).fetch = _
    ∧ ((u.barrowRead c bs).barrow c).chunks ≤ 64 ∧ (u.barrowRead c bs).out = _ ∧ s.Only (u.barrowRead c bs) _
  have hbr : (u.barrowRead c bs).barrow c = { u.barrow c with cur := some (barrowDesc (s.barrowAt c) (padTo 64 bs)), holds := [], waits := [] } := by
    rw [hread, State.barrow_updBarrow_self _ (by rw [State.updBarrow_length]; exact hlu), State.barrow_updBarrow_self _ hlu, hat]
  rw [hbr, hb]
  refine ⟨rfl, rfl, rfl, hn64, ?_, ?_⟩
  · rw [hread, ← hou]
    rfl
  · rw [hread]
    exact (hon.trans hgu).same

/-- A fetch that fails halts the channel (R408). -/
theorem barrowDescFetch_fails {c : Nat} {s : State} (hr : s.released 28 = true) (hw : s.takesWork 0x60 = true) (hf : (s.barrow c).fetch = true)
    (hn : s.barrowNext (s.on F.BARROW_CH_CTRL_dir c) = some c) (hl : (s.barrowEngines (s.on F.BARROW_CH_CTRL_dir c)).length < 8) :
    Does (.barrowDescFetch c none) s fun t => t.rd F.BARROW_CH_STATUS_state c = 3 ∧ t.rd F.BARROW_CH_STATUS_fault c = St.BARROW_HOST_ERR
      ∧ t.rd F.BARROW_FLAGS_host_err = 1 ∧ t.mem = s.mem := by
  have hex := exec_barrowDescFetch hr hw hf hn hl none rfl
  dsimp only [Option.elim] at hex
  generalize hu : ((s.engineGiven c).emit (.hostRead (s.barrowAt c) 64)).updBarrow c (fun b => { b with fetch := false, recorded := b.known }) = u at hex
  have hmem : u.mem = s.mem := by
    rw [← hu]
    exact (s.only_engineGiven c).1
  obtain ⟨h1, h2, h3, h4⟩ := u.barrowHalt_reads c
  exact Does.of_exec hex ⟨h1, h2, h3, h4.trans hmem⟩

theorem State.put_host (s : State) (a : Nat) (bs : List Byte) : (s.put a bs).host = s.host := by
  unfold State.put
  split
  · rfl
  · split
    · rfl
    · rfl

/-- A channel to the host ends a descriptor without a link and parks (R403, R406). -/
theorem barrowDescEnd_parks {c : Nat} {s : State} {d : BarrowDesc} {data : List Byte}
    (hd : (s.barrow c).cur = some d) (he : (s.barrow c).engine = true) (hw : s.barrowWaits c d = false) (hwt : (s.barrow c).waits = [])
    (hh : (s.barrow c).holds = []) (hdir : s.on F.BARROW_CH_CTRL_dir c = true) (ht : d.tiles = false) (hop : bitOf d.op 2 = false)
    (hctl : d.ctl % 2 = 1) :
    Does (.barrowDescEnd c data false) s fun t => t.out = .hostWrite d.host (s.fetch d.hbm d.length) :: s.out ∧ t.mem = s.mem
      ∧ t.rd F.BARROW_CH_STATUS_state c = 2 ∧ (t.barrow c).cur = none := by
  have hex := exec_barrowDescEnd hd he hwt hw data false
  rw [if_neg (by rw [Bool.false_and]; decide), hop, State.whenB_false] at hex
  have hm : (s.barrowMove c d d.length data).1 =
      ((s.hbmRead d.hbm d.length).emit (.hostWrite d.host (s.fetch d.hbm d.length))).barrowBytes c d.length := by
    unfold State.barrowMove
    extract_lets up
    rw [if_neg (by rw [ht]; decide), if_pos hdir]
  rw [hm] at hex
  generalize hu : ((s.hbmRead d.hbm d.length).emit (.hostWrite d.host (s.fetch d.hbm d.length))).barrowBytes c d.length = u at hex
  have hhost : u.host = s.host := by
    rw [← hu, State.barrowBytes_kept State.host State.wr_host, State.emit_host, State.hbmRead_kept State.host State.wr_host (fun _ => rfl) (fun _ _ => rfl)]
  have hout : u.out = .hostWrite d.host (s.fetch d.hbm d.length) :: s.out := by
    rw [← hu, State.barrowBytes_kept State.out State.wr_out, State.emit_out, State.hbmRead_kept State.out State.wr_out (fun _ => rfl) (fun _ _ => rfl)]
  have hmem : u.mem = s.mem := by
    rw [← hu, State.barrowBytes_kept State.mem State.wr_mem, State.emit_mem, State.hbmRead_kept State.mem State.wr_mem (fun _ => rfl) (fun _ _ => rfl)]
  have hnone : (u.barrow c).holds = [] := by rw [State.barrow_congr (congrArg HostSt.barrows hhost)]; exact hh
  have hnext : u.barrowNextDesc c d = ((u.barrowRelease c).wr F.BARROW_CH_STATUS_state 2 c).updBarrow c fun b =>
      { b with fetch := false, cur := none, waits := [], reread := b.known != b.recorded } := by
    unfold State.barrowNextDesc
    exact if_neg (by rw [hctl]; decide)
  refine Does.of_exec (hex.trans (congrArg Host.Outcome.next hnext)) ⟨?_, ?_, ?_, State.cur_updBarrow fun _ => rfl⟩
  · refine (State.wr_out ..).trans ?_
    rw [State.barrowRelease_of_none hnone, State.barrowBuf_kept State.out State.wr_out]
    exact hout
  · exact (State.wr_mem ..).trans (((State.Within.refl releaseFlds u).barrowRelease (fun _ hx => hx) c).mem.trans hmem)
  · exact (State.rd_wr_self (u.barrowRelease c) F.BARROW_CH_STATUS_state 2 c 0).trans rfl

theorem barrowDescEnd_links {c : Nat} {s : State} {d : BarrowDesc} {data : List Byte} (hc : c < s.host.barrows.length)
    (hd : (s.barrow c).cur = some d) (he : (s.barrow c).engine = true) (hw : s.barrowWaits c d = false) (hwt : (s.barrow c).waits = [])
    (hh : (s.barrow c).holds = []) (hdir : s.on F.BARROW_CH_CTRL_dir c = false) (ht : d.tiles = false) (hop : bitOf d.op 2 = false)
    (hctl : d.ctl % 2 = 0) :
    Does (.barrowDescEnd c data false) s fun t => t.mem = (s.put d.hbm (padTo d.length (data.take d.length))).mem
      ∧ t.hbm.held = (s.put d.hbm (padTo d.length (data.take d.length))).hbm.held
      ∧ t.rd F.BARROW_CH_STATUS_state c = 1 ∧ (t.barrow c).fetch = true := by
  have hex := exec_barrowDescEnd hd he hwt hw data false
  rw [if_neg (by rw [Bool.false_and]; decide), hop, State.whenB_false] at hex
  have hm : (s.barrowMove c d d.length data).1 = (s.put d.hbm (padTo d.length (data.take d.length))).barrowBytes c d.length := by
    unfold State.barrowMove
    extract_lets up
    rw [if_neg (by rw [ht]; decide), if_neg (Bool.eq_false_iff.mp hdir)]
  rw [hm] at hex
  generalize hv : s.put d.hbm (padTo d.length (data.take d.length)) = v at hex ⊢
  have hvh : v.host = s.host := by rw [← hv, State.put_host]
  generalize hu : v.barrowBytes c d.length = u at hex
  have hhost : u.host = s.host := by rw [← hu, State.barrowBytes_kept State.host State.wr_host, hvh]
  have hnone : (u.barrow c).holds = [] := by rw [State.barrow_congr (congrArg HostSt.barrows hhost)]; exact hh
  have hnext : u.barrowNextDesc c d = (u.barrowRelease c).barrowGo c (d.ctl / 64 * 64) := by
    unfold State.barrowNextDesc
    exact if_pos hctl
  have hlen : c < (u.barrowRelease c).host.barrows.length := by rw [State.barrowRelease_barrows, updAt_length, hhost]; exact hc
  obtain ⟨h1, hf, -⟩ := State.barrowGo_reads (a := d.ctl / 64 * 64) hlen
  refine Does.of_exec (hex.trans (congrArg Host.Outcome.next hnext)) ⟨?_, ?_, h1, hf⟩
  · rw [(State.within_barrowGo ..).mem, ((State.Within.refl releaseFlds u).barrowRelease (fun _ hx => hx) c).mem, ← hu,
      State.barrowBytes_kept State.mem State.wr_mem]
  · have hg : ((u.barrowRelease c).barrowGo c (d.ctl / 64 * 64)).hbm = (u.barrowRelease c).hbm :=
      (State.wr_hbm ..).trans ((State.wr_hbm ..).trans (State.wr_hbm ..))
    have hr : (u.barrowRelease c).hbm = u.hbm := by
      rw [State.barrowRelease_of_none hnone, State.barrowBuf_kept State.hbm State.wr_hbm]
      rfl
    rw [hg, hr, ← hu, State.barrowBytes_kept State.hbm State.wr_hbm]

theorem barrowCtrlReread_word {c w : Nat} {s : State} (hc : c < s.host.barrows.length) (h2 : s.rd F.BARROW_CH_STATUS_state c = 2)
    (hre : (s.barrow c).reread = true) :
    Does (.barrowCtrlReread c (some w)) s fun t => t.rd F.BARROW_CH_STATUS_state c = (if w % 2 = 1 then 2 else 1) ∧ (t.barrow c).reread = false
      ∧ (w % 2 = 0 → (t.barrow c).fetch = true) ∧ t.out = .hostRead (s.barrowAt c) 8 :: s.out ∧ t.mem = s.mem := by
  refine Does.of_exec (exec_barrowCtrlReread h2 hre (some w) rfl) ?_
  generalize hu : (s.emit (.hostRead (s.barrowAt c) 8)).updBarrow c (fun b => { b with reread := false, recorded := b.known }) = u
  have hb : u.barrow c = { s.barrow c with reread := false, recorded := (s.barrow c).known } := by
    rw [← hu]
    exact State.barrow_updBarrow_self _ hc
  have hlen : c < u.host.barrows.length := by
    rw [← hu, State.updBarrow_length]
    exact hc
  have hout : u.out = .hostRead (s.barrowAt c) 8 :: s.out := by rw [← hu]; rfl
  have hmem : u.mem = s.mem := by rw [← hu]; rfl
  have hst : u.rd F.BARROW_CH_STATUS_state c = 2 := by
    rw [← hu]
    exact h2
  by_cases hw : w % 2 = 1
  · simp only [Option.elim, if_pos hw]
    exact ⟨hst, by rw [hb], fun h => absurd (hw.symm.trans h) (by decide), hout, hmem⟩
  · simp only [Option.elim, if_neg hw]
    obtain ⟨h1, hf, hr⟩ := State.barrowGo_reads (a := w % 2 ^ 64 / 64 * 64) hlen
    refine ⟨h1, hr, fun _ => hf, ?_, (State.within_barrowGo ..).mem.trans hmem⟩
    rw [← hout]
    exact (State.wr_out ..).trans ((State.wr_out ..).trans (State.wr_out ..))

/-- Settles O44: each command of a channel is one branch, and what it lets go of reaches neither its state nor its bytes. -/
theorem barrowChannels : Obligations.BarrowChannels := by
  refine ⟨fun c v s hc => ⟨fun hb => ?_, fun hb h0 => ?_, fun hb hn => ?_, fun d hb hd => ?_, fun hb h3 hv => ?_,
    fun bs hr hdir hw hf hn hl hok => ?_, fun hr hw hf hn hl => ?_, fun d data hd he hw hwt hh hdir ht hop hctl => ?_,
    fun d data hd he hw hwt hh hdir ht hop hctl => ?_, fun w h2 hre => ?_⟩, fun c v moved data s =>
    ⟨fun hb => ⟨?_, ?_, fun hv => ?_, fun hv => ?_⟩, fun d err hd he hwt hw => ⟨fun herr hdir => ?_, fun herr => ?_⟩, fun word h2 hre => ?_⟩⟩
  · change execBarrowChannelEnable c v s = _
    exact if_pos hb
  · have hex := exec_barrowChannelEnable hb
    rw [if_pos h0] at hex
    obtain ⟨hen, hcq, hdir⟩ := s.barrowCtrl_reads c (setBit v 0 true)
    have hw := (s.barrowCtrl c (setBit v 0 true)).within_barrowGo c ((s.barrowCtrl c (setBit v 0 true)).pair F.BARROW_CH_HEAD_LO_value
      F.BARROW_CH_HEAD_HI_value c)
    obtain ⟨hst, hf, -⟩ := State.barrowGo_reads (s := s.barrowCtrl c (setBit v 0 true)) (c := c) (a := (s.barrowCtrl c (setBit v 0 true)).pair
      F.BARROW_CH_HEAD_LO_value F.BARROW_CH_HEAD_HI_value c) (by rwa [State.barrowCtrl_host])
    refine Does.of_exec hex ⟨hst, ?_, ?_, ?_, hf, hw.mem.trans (s.within_barrowCtrl c _).mem⟩
    · exact (hw.rd _ _ _ (by decide)).trans (hen.trans (setBit_low_mod v true))
    · exact (hw.rd _ _ _ (by decide)).trans (hcq.trans (bitsOf_setBit_low v 7 4 true (by decide)))
    · exact (hw.rd _ _ _ (by decide)).trans (hdir.trans (bitsOf_setBit_low v 1 1 true (by decide)))
  · refine Does.of_exec (exec_barrowChannelDisable hb 0 []) ?_
    rw [State.barrowStop_of_none hn]
    have hw := ((s.wr F.BARROW_CH_STATUS_state 0 c).updBarrow c fun b => { BarrowSt.init with known := b.known }).within_barrowCtrl c (setBit v 0 false)
    refine ⟨(hw.rd _ _ _ (by decide)).trans ((State.rd_wr_self s F.BARROW_CH_STATUS_state 0 c 0).trans rfl),
      (State.barrowCtrl_reads ..).1.trans (setBit_low_mod v false), ?_, hw.mem.trans (State.wr_mem ..)⟩
    rw [State.barrow, State.barrowCtrl_host]
    exact congrArg BarrowSt.fetch (State.barrow_updBarrow_self _ (by rwa [State.wr_host]))
  · obtain ⟨hs, hst, hcur⟩ := State.barrowStop_reads hd 0 []
    have hw := (s.barrowStop c 0 []).within_barrowCtrl c (setBit v 0 false)
    refine Does.of_exec (exec_barrowChannelDisable hb 0 []) ⟨(hw.rd _ _ _ (by decide)).trans hs, (hw.rd _ _ _ (by decide)).trans hst, ?_⟩
    rw [State.barrow_congr (s := s.barrowStop c 0 []) (by rw [State.barrowCtrl_host])]
    exact hcur
  · have hex := exec_barrowChannelRestart_on hb hv
    rw [if_pos (.inl h3)] at hex
    obtain ⟨hst, hf, -⟩ := State.barrowGo_reads (s := s.barrowCtrl c v) (c := c) (a := (s.barrowCtrl c v).pair
      F.BARROW_CH_HEAD_LO_value F.BARROW_CH_HEAD_HI_value c) (by rwa [State.barrowCtrl_host])
    exact Does.of_exec hex ⟨hst, hf, (State.within_barrowGo ..).mem.trans (s.within_barrowCtrl c v).mem⟩
  · exact barrowDescFetch_good hc hr hdir hw hf hn hl hok
  · exact barrowDescFetch_fails hr hw hf hn hl
  · exact barrowDescEnd_parks hd he hw hwt hh hdir ht hop hctl
  · exact barrowDescEnd_links hc hd he hw hwt hh hdir ht hop hctl
  · exact barrowCtrlReread_word hc h2 hre
  · exact exec_barrowChannelEnable hb
  · exact exec_barrowChannelDisable hb moved data
  · exact exec_barrowChannelRestart_on hb hv
  · exact exec_barrowChannelRestart_off hb hv
  · rw [exec_barrowDescEnd hd he hwt hw, if_pos (by rw [herr, hdir]; rfl)]
  · refine (exec_barrowDescEnd hd he hwt hw data err).trans (congrArg Host.Outcome.next (if_neg ?_))
    rcases herr with h | h
    · rw [h, Bool.false_and]
      decide
    · rw [h, Bool.not_true, Bool.and_false]
      decide
  · have hex := exec_barrowCtrlReread h2 hre word rfl
    cases word with
    | none =>
      dsimp only [Option.elim] at hex
      exact hex
    | some w =>
      dsimp only [Option.elim] at hex
      exact hex

end Sys2Proof.Machine
end

section
/-! PROOFS. Aborts, queue resets and the function-level reset (spec/11, R378, R429 to R433). -/
namespace Sys2Proof.Machine

set_option Elab.async false

/-! ### What the end of a command leaves -/

theorem State.post_cmds (s : State) (r : Rec) : (s.post r).host.cmds = s.host.cmds := by
  obtain ⟨t, r', ht, -, -, e⟩ := s.post_eq r
  have hts : t.host.cmds = s.host.cmds := by
    rcases ht with rfl | rfl
    · rfl
    · rfl
  rw [e]
  split
  · rw [State.dropRecord, State.updHost_host, State.bump, State.wr_host, State.wr_host, ← hts]
  · rw [← hts]
    rfl

theorem State.post_records (s : State) (r : Rec) : s.host.records ⊆ (s.post r).host.records := by
  obtain ⟨t, r', ht, -, -, e⟩ := s.post_eq r
  have hts : t.host.records = s.host.records := by
    rcases ht with rfl | rfl
    · rfl
    · rfl
  rw [e, ← hts]
  split
  · rw [State.dropRecord, State.updHost_host, State.bump, State.wr_host, State.wr_host]
    exact List.Subset.refl _
  · exact List.subset_append_left _ _

theorem State.dropCmd_host (s : State) (id : Nat) : (s.dropCmd id).host = { s.host with cmds := s.host.cmds.filter fun c => c.id ≠ id } := by
  rw [State.dropCmd, State.countOutstanding, State.peak, State.wr_host, State.wr_host, State.updHost_host]

/-- The end of a command adds records and takes none away. -/
theorem State.complete_records (s : State) (id status a b half : Nat) : s.host.records ⊆ (s.complete id status a b half).host.records := by
  unfold State.complete
  split
  · exact List.Subset.refl _
  · split
    · exact List.Subset.refl _
    · split
      · split
        · exact List.Subset.refl _
        · rw [State.dropCmd_host]
          exact List.Subset.refl _
      · exact State.post_records (s.updCmd id fun c => { c with stage := .ended }) _

/-- The end of one command leaves what is found under another number. -/
theorem State.cmd_complete_ne {s : State} {id k : Nat} (h : k ≠ id) (status a b half : Nat) : (s.complete id status a b half).cmd k = s.cmd k := by
  have hu : ∀ f : Cmd → Cmd, (∀ c, (f c).id = c.id) → (s.updCmd id f).cmd k = s.cmd k := fun f hf => by rw [State.cmd_updCmd _ _ _ _ hf, if_neg h]
  unfold State.complete
  split
  · rfl
  · split
    · rfl
    · split
      · split
        · exact hu _ fun _ => rfl
        · rw [State.cmd, State.dropCmd_host, List.find?_filter, State.cmd]
          congr 1
          funext c
          by_cases hc : c.id = k
          · simp [hc, h]
          · simp [hc]
      · rw [State.cmd, State.post_cmds]
        exact hu _ fun _ => rfl

/-- The end of a command makes no command outstanding. -/
theorem State.outstanding_complete {s : State} {id status a b half : Nat} {p : Nat → Nat → Bool}
    (h : (s.outstanding.any fun o => p o.ring o.id) = false) : ((s.complete id status a b half).outstanding.any fun o => p o.ring o.id) = false := by
  have hl : ∀ l : List Cmd, (∀ c ∈ l, ∃ o ∈ s.host.cmds, o.ring = c.ring ∧ o.id = c.id ∧ o.gone = c.gone) →
      ((l.filter fun c => !c.gone).any fun o => p o.ring o.id) = false := by
    intro l hl
    rw [List.any_eq_false] at h ⊢
    intro c hc
    obtain ⟨hm, hg⟩ := List.mem_filter.mp hc
    obtain ⟨o, ho, hr, hi, hgo⟩ := hl c hm
    rw [← hr, ← hi]
    exact h o (List.mem_filter.mpr ⟨ho, hgo ▸ hg⟩)
  have hu : ∀ c ∈ (s.updCmd id fun c => { c with stage := .ended }).host.cmds, ∃ o ∈ s.host.cmds, o.ring = c.ring ∧ o.id = c.id ∧ o.gone = c.gone := by
    intro c hc
    obtain ⟨o, ho, rfl⟩ := List.mem_map.mp hc
    refine ⟨o, ho, ?_⟩
    split
    · exact ⟨rfl, rfl, rfl⟩
    · exact ⟨rfl, rfl, rfl⟩
  have hs : ∀ c ∈ s.host.cmds, ∃ o ∈ s.host.cmds, o.ring = c.ring ∧ o.id = c.id ∧ o.gone = c.gone := fun c hc => ⟨c, hc, rfl, rfl, rfl⟩
  unfold State.complete
  split
  · exact hl _ hs
  · split
    · exact hl _ hs
    · split
      · split
        · exact hl _ hu
        · rw [State.outstanding, State.dropCmd_host]
          exact hl _ fun c hc => hs c (List.mem_filter.mp hc).1
      · rw [State.outstanding, State.post_cmds]
        exact hl _ hu

/-! ### Queue resets -/

/-- One queue reset ends when nothing before it is outstanding on its ring (R433). -/
def resetEnd (s : State) (c : Cmd) : State :=
  if c.opcode = 0x17 ∧ c.stage = .running ∧ ¬ (s.outstanding.any fun o => o.ring == c.b 16 % 16 && decide (o.id < c.id)) then
    s.complete c.id St.OK c.units else s

theorem State.finishQueueResets_eq (s : State) : s.finishQueueResets = s.each s.host.cmds resetEnd := rfl

theorem resetEnd_records (s : State) (c : Cmd) : s.host.records ⊆ (resetEnd s c).host.records := by
  unfold resetEnd
  split
  · exact s.complete_records ..
  · exact List.Subset.refl _

theorem each_resetEnd_records (s : State) (l : List Cmd) : s.host.records ⊆ (s.each l resetEnd).host.records := by
  induction l generalizing s with
  | nil => exact List.Subset.refl _
  | cons c l ih => exact List.Subset.trans (resetEnd_records s c) (ih (resetEnd s c))

/-- A queue reset with nothing before it on its ring is answered with its count. -/
theorem each_resetEnd_answers {s : State} {c : Cmd} {l : List Cmd} (hl : l.find? (fun x => x.id == c.id) = some c) (hc : s.cmd c.id = some c)
    (ho : c.opcode = 0x17) (hr : c.stage = .running) (hm : c.mute = false)
    (hn : (s.outstanding.any fun o => o.ring == c.b 16 % 16 && decide (o.id < c.id)) = false) : (s.each l resetEnd).Answered c St.OK c.units 0 := by
  induction l generalizing s with
  | nil => cases hl
  | cons x l ih =>
    by_cases hx : x.id = c.id
    · have hxc : x = c := Option.some.inj ((List.find?_cons_of_pos (by simp [hx])).symm.trans hl)
      subst hxc
      have he : resetEnd s x = s.complete x.id St.OK x.units := if_pos ⟨ho, hr, Bool.eq_false_iff.mp hn⟩
      have ha : (resetEnd s x).Answered x St.OK x.units 0 := he ▸ State.complete_answered _ _ _ _ hc (by simp [hr]) hm
      exact ha.mono (each_resetEnd_records _ l)
    · have hl' : l.find? (fun x => x.id == c.id) = some c := (List.find?_cons_of_neg (by simp [hx])).symm.trans hl
      have hs : (resetEnd s x).cmd c.id = s.cmd c.id ∧
          ((resetEnd s x).outstanding.any fun o => o.ring == c.b 16 % 16 && decide (o.id < c.id)) = false := by
        unfold resetEnd
        split
        · exact ⟨State.cmd_complete_ne (Ne.symm hx) .., State.outstanding_complete (p := fun r i => r == c.b 16 % 16 && decide (i < c.id)) hn⟩
        · exact ⟨rfl, hn⟩
      exact ih hl' (hs.1.trans hc) hs.2

theorem State.finishQueueResets_answers {s : State} {c : Cmd} (hc : s.cmd c.id = some c) (ho : c.opcode = 0x17) (hr : c.stage = .running)
    (hm : c.mute = false) (hn : (s.outstanding.any fun o => o.ring == c.b 16 % 16 && decide (o.id < c.id)) = false) :
    s.finishQueueResets.Answered c St.OK c.units 0 :=
  each_resetEnd_answers hc hc ho hr hm hn

/-! ### Commands that are caught before they begin -/

theorem State.pastPoint_of_ready {s : State} {o : Cmd} (hr : o.stage = .ready) (hp : o.past = false) (hl : lateOpcode o.opcode = true) :
    s.pastPoint o = false := by
  unfold State.pastPoint
  rw [if_neg (by simp [hp, hl]), if_pos (by simp [hr])]

theorem State.stopWork_of_ready {s : State} {o : Cmd} (hr : o.stage = .ready) (status : Nat) : s.stopWork o status = s := by
  unfold State.stopWork State.storStop
  rw [if_neg (by simp [hr]), if_neg (by simp [hr]), if_pos (by simp [hr])]

section
variable {id : Nat} {c : Cmd} {s : State}

theorem State.targetStatus_begun (s : State) (id : Nat) (c : Cmd) : (s.begun id).targetStatus c = s.targetStatus c := rfl

/-- What an ABORT does with the command that it names (R430, R431). -/
def State.abortNamed (s : State) (id : Nat) : Option Cmd → State
  | none => s.complete id St.OK 0
  | some o =>
    if o.stage == .ended || o.mute || s.pastPoint o then s.complete id St.OK 0
    else ((s.stopWork o St.ABORTED).complete o.id St.ABORTED 0 o.units).complete id St.OK 1

/-- An ABORT that may target its ring looks for the command that it names. -/
theorem exec_abort_named (hu : s.afterUnmount id = false) (h : s.Waits id 0x16 c) (h16 : c.b 16 < 16) (h17 : c.b 17 = 0)
    (hz : zeroBytes c.desc 20 64 = true) (ht : s.targetStatus c = St.OK) (hd : s.ringDepth (c.b 16) ≤ 256) :
    exec (.abort id) s = .next ((s.begun id).abortNamed id
      ((s.begun id).outstanding.find? fun o => o.ring == c.b 16 && decide (o.id < id) && o.tag == c.h 18)) := by
  change execAbort id s = _
  unfold execAbort
  rw [State.storCmd_of_waits _ hu h, if_pos (by simp [h16, h17, hz])]
  dsimp only
  rw [State.targetStatus_begun, if_neg (not_not_intro ht), if_neg (show ¬ 256 < (s.begun id).ringDepth (c.b 16) from Nat.not_lt.mpr hd)]
  split
  · next hx => rw [hx, State.abortNamed]
  · next o hx => rw [hx, State.abortNamed]

/-- A command that has begun keeps its place among the outstanding ones. -/
theorem State.outstanding_begun (s : State) (id : Nat) :
    (s.begun id).outstanding = s.outstanding.map fun c => if c.id = id then c.begun else c := by
  rw [State.outstanding, State.outstanding, State.begun, State.updCmd, State.updHost_host]
  rw [List.filter_map]
  congr 1
  refine List.filter_congr fun c _ => ?_
  by_cases hc : c.id = id
  · simp [hc, Cmd.begun]
  · simp [hc]

/-- Among the commands before it, the beginning of a command is not seen. -/
theorem State.find_outstanding_begun (s : State) (id : Nat) (p : Cmd → Bool) (hp : ∀ c, p c = true → c.id < id) :
    (s.begun id).outstanding.find? p = s.outstanding.find? p := by
  rw [State.outstanding_begun]
  induction s.outstanding with
  | nil => rfl
  | cons x l ih =>
    by_cases hx : x.id = id
    · have h1 : p x = false := Bool.eq_false_iff.mpr fun h => absurd (hp x h) (by omega)
      have h2 : p x.begun = false := Bool.eq_false_iff.mpr fun h => absurd (hp x.begun h) (by simp [Cmd.begun]; omega)
      rw [List.map_cons, if_pos hx, List.find?_cons_of_neg (by simp [h2]), List.find?_cons_of_neg (by simp [h1]), ih]
    · rw [List.map_cons, if_neg hx, List.find?_cons, List.find?_cons, ih]

theorem State.filter_outstanding_begun (s : State) (id : Nat) (p : Cmd → Bool) (hp : ∀ c, p c = true → c.id < id) :
    (s.begun id).outstanding.filter p = s.outstanding.filter p := by
  rw [State.outstanding_begun]
  induction s.outstanding with
  | nil => rfl
  | cons x l ih =>
    by_cases hx : x.id = id
    · have h1 : p x = false := Bool.eq_false_iff.mpr fun h => absurd (hp x h) (by omega)
      have h2 : p x.begun = false := Bool.eq_false_iff.mpr fun h => absurd (hp x.begun h) (by simp [Cmd.begun]; omega)
      rw [List.map_cons, if_pos hx, List.filter_cons_of_neg (by simp [h2]), List.filter_cons_of_neg (by simp [h1]), ih]
    · rw [List.map_cons, if_neg hx, List.filter_cons, List.filter_cons, ih]

end

/-- The function-level reset lists no field of RING or BARROW. -/
theorem RegStore.get_filter_of_none {l : RegStore} {p : RegKey → Bool} {k : RegKey} (h : p k = false) (d : Nat) :
    RegStore.get (l.filter fun x => p x.1) k d = d := by
  induction l with
  | nil => rfl
  | cons x l ih =>
    rw [List.filter_cons]
    split
    · next hx => rw [RegStore.get, if_neg (fun e => by rw [e, h] at hx; cases hx), ih]
    · exact ih

theorem State.hostCleared_rd (s : State) {f : Fld} (h1 : 0x100000 ≤ f.base) (h2 : f.base < 0x300000) (i j : Nat) :
    s.hostCleared.rd f i j = f.reset := by
  have hk : (!hostReg ⟨f.base, f.lo, i, j⟩) = false := by simp [hostReg, h1, h2]
  have hc := RegStore.get_filter_of_none (l := s.cfg) (p := fun k => !hostReg k) hk f.reset
  have hs := RegStore.get_filter_of_none (l := s.sts) (p := fun k => !hostReg k) hk f.reset
  unfold State.rd
  split
  · exact hc
  · exact hs

theorem State.causesDue_kept {α : Type} (π : State → α) (ht : ∀ s : State, π s.tick = π s) (hl : ∀ (s : State) (k n : Nat) (l : List Nat), π (s.ledgerAdd k n l) = π s)
    (hu : ∀ (s : State) (f : SysSt → SysSt), π (s.updSys f) = π s) (s : State) : π s.causesDue = π s := by
  unfold State.causesDue
  split
  · rw [hu]
    exact State.each_of_kept π (f := fun (s : State) c =>
      s.tick.ledgerAdd 4 0 [s.causeWord, c, s.rd F.AGE_HOURS_hours, ptpSeconds s.now, ptpNanos s.now, b2n s.ptpUnlocked]) (fun t c => (hl ..).trans (ht _)) s _
  · rfl

theorem State.functionReset_kept {α : Type} (π : State → α) (hw : ∀ (s : State) (f : Fld) (v i j : Nat), π (s.wr f v i j) = π s)
    (ht : ∀ s : State, π s.tick = π s) (hl : ∀ (s : State) (k n : Nat) (l : List Nat), π (s.ledgerAdd k n l) = π s)
    (hu : ∀ (s : State) (f : SysSt → SysSt), π (s.updSys f) = π s) (s : State) (v : Nat) :
    π ((s.countOutstanding.wr F.RST_CAUSE_flr v).resetDone 2) = π s := by
  rw [State.resetDone, State.causesDue_kept π ht hl hu, hu, hw, State.countOutstanding, State.peak, hw, hw]

theorem State.resetDone_rd (s : State) (n : Nat) (f : Fld) (i j : Nat) : (s.resetDone n).rd f i j = s.rd f i j := by
  rw [State.resetDone, State.causesDue_kept (fun t => t.rd f i j) (fun _ => rfl) (fun _ _ _ _ => rfl) fun _ _ => rfl]
  rfl

theorem functionLevelReset_reads (moved : List (Nat × List Byte)) (s : State) :
    Does (.functionLevelReset moved) s fun t => t.host.records = [] ∧ t.host.rings = HostSt.init.rings ∧ t.sec.nonce = none
      ∧ ∀ (f : Fld) (i j : Nat), 0x100000 ≤ f.base → f.base < 0x300000 → f.base ≠ F.RING_OUTSTANDING_now.base → t.rd f i j = f.reset := by
  let u := (s.barrowsCut moved).hostCleared.updSec fun x => { x with nonce := none }
  have hh : ((u.countOutstanding.wr F.RST_CAUSE_flr 1).resetDone 2).host = u.host :=
    State.functionReset_kept State.host State.wr_host (fun _ => rfl) (fun _ _ _ _ => rfl) (fun _ _ => rfl) u 1
  have hs : ((u.countOutstanding.wr F.RST_CAUSE_flr 1).resetDone 2).sec = u.sec :=
    State.functionReset_kept State.sec State.wr_sec (fun _ => rfl) (fun _ _ _ _ => rfl) (fun _ _ => rfl) u 1
  refine Does.of_exec (show exec (.functionLevelReset moved) s = .next ((u.countOutstanding.wr F.RST_CAUSE_flr 1).resetDone 2) from rfl)
    ⟨?_, ?_, ?_, fun f i j h1 h2 h3 => ?_⟩
  · rw [hh]
    rfl
  · rw [hh]
    rfl
  · rw [hs]
    rfl
  · have hb : f.base ≠ F.RST_CAUSE_flr.base := fun e => absurd (lt_of_eq_of_lt e.symm h2) (by decide)
    rw [State.resetDone_rd, State.rd_wr_other _ _ _ _ _ _ _ _ fun e => hb e.1, State.countOutstanding, State.peak,
      State.rd_wr_other _ F.RING_OUTSTANDING_peak _ _ _ _ _ _ fun e => h3 e.1, State.rd_wr_other _ _ _ _ _ _ _ _ fun e => h3 e.1,
      State.updSec_rd, State.hostCleared_rd _ h1 h2]

/-- A QUEUE_RESET that knows how many commands it has caught. -/
def Cmd.counted (n : Nat) (c : Cmd) : Cmd := { c with units := n }

/-- A change that keeps a command's number and ring leaves which commands are outstanding on which ring. -/
theorem State.outstanding_updCmd {s : State} {id : Nat} {f : Cmd → Cmd} (hf : ∀ c, (f c).id = c.id ∧ (f c).ring = c.ring ∧ (f c).gone = c.gone)
    (p : Nat → Nat → Bool) : ((s.updCmd id f).outstanding.any fun o => p o.ring o.id) = s.outstanding.any fun o => p o.ring o.id := by
  have hc : ∀ c : Cmd, (if c.id = id then f c else c).id = c.id ∧ (if c.id = id then f c else c).ring = c.ring
      ∧ (if c.id = id then f c else c).gone = c.gone := by
    intro c
    split
    · exact hf c
    · exact ⟨rfl, rfl, rfl⟩
  rw [State.outstanding, State.updCmd, State.updHost_host, State.outstanding, List.any_filter, List.any_filter, List.any_map]
  congr 1
  funext c
  obtain ⟨h1, h2, h3⟩ := hc c
  simp only [Function.comp_apply, h1, h2, h3]

/-- The commands that a QUEUE_RESET catches are ended one by one (R432). -/
def State.resetAll (s : State) (l : List Nat) : State :=
  s.each l fun s k => match s.cmd k with
    | some o => if o.stage == .ended || o.mute then s else s.resetCmd o
    | none => s

theorem exec_queueReset {id : Nat} {c : Cmd} {s : State} (h : s.Waits id 0x17 c) (hu : s.afterUnmount id = false) (h16 : c.b 16 < 16)
    (hz : zeroBytes c.desc 17 64 = true) (ht : s.targetStatus c = St.OK)
    (hn : (s.outstanding.any fun o => o.opcode == 0x17 && o.stage != .ended && decide (o.id < id) && o.b 16 % 16 == c.b 16 % 16) = false)
    {l : List Cmd} (hl : l = (s.begun id).outstanding.filter fun o => o.ring == c.b 16 && decide (o.id < id) && o.stage != .ended && !o.mute) :
    exec (.queueReset id) s = .next ((((s.begun id).resetAll (l.map Cmd.id)).updCmd id (Cmd.counted l.length)).finishQueueResets) := by
  subst hl
  change execQueueReset id s = _
  unfold execQueueReset
  rw [h.1]
  dsimp only
  rw [if_neg (Bool.eq_false_iff.mp hn), State.storCmd_of_waits _ hu h, if_pos (by simp [h16, hz])]
  rw [State.targetStatus_begun, if_neg (not_not_intro ht)]
  rfl

/-- Settles O45: a command that is caught before it begins is withdrawn by its record alone, and a reset of the function clears the host's part. -/
theorem abortsAndHostResets : Obligations.AbortsAndHostResets := by
  refine ⟨fun id c s hm hu => ⟨fun h h16 h17 hz ht hd => ⟨fun hf => ?_, fun o hf ho hom hor hop hol => ?_⟩, fun h h16 hz ht hn => ⟨fun hb => ?_,
    fun o hf ho ho17 hom hor hop hol => ?_⟩, fun moved => functionLevelReset_reads moved s⟩,
    fun id c s h hu h16 hz ht hn => exec_queueReset h hu h16 hz ht hn rfl, fun moved s => rfl⟩
  · have hex := exec_abort_named hu h h16 h17 hz ht hd
    rw [State.find_outstanding_begun _ _ _ fun o ho => by simp at ho; exact ho.1.2, hf, State.abortNamed] at hex
    obtain ⟨ha, ho⟩ := State.complete_begun h hm St.OK 0 0 0
    exact Does.of_exec hex ⟨ha, ho []⟩
  · have hid : o.id < id := by
      have hp := List.find?_some hf
      simp at hp
      exact hp.1.2
    have hc := State.cmd_begun_self h
    have hco : (s.begun id).cmd o.id = some o := (s.cmd_begun_ne (by omega)).trans ho
    have hex := exec_abort_named hu h h16 h17 hz ht hd
    rw [State.find_outstanding_begun _ _ _ fun o ho => by simp at ho; exact ho.1.2, hf, State.abortNamed,
      if_neg (by simp [hor, hom, State.pastPoint_of_ready hor hop hol]), State.stopWork_of_ready hor] at hex
    have hc1 : ((s.begun id).complete o.id St.ABORTED 0 o.units).cmd id = some c.begun :=
      (State.cmd_complete_ne (by omega) ..).trans hc
    have hao : ((s.begun id).complete o.id St.ABORTED 0 o.units).Answered o St.ABORTED 0 o.units :=
      State.complete_answered _ _ _ _ hco (by simp [hor]) hom
    have hac : (((s.begun id).complete o.id St.ABORTED 0 o.units).complete id St.OK 1).Answered c St.OK 1 0 :=
      State.complete_answered (c := c.begun) _ _ _ _ hc1 (by simp [Cmd.begun]) hm
    refine Does.of_exec hex ⟨hao.mono (State.complete_records ..), hac, ?_⟩
    exact ((s.only_begun id []).complete hco (by simp [hor]) hom ..).complete hc1 (by simp [Cmd.begun]) hm _ _ _ _
  · have hl : ((s.begun id).outstanding.filter fun o => o.ring == c.b 16 && decide (o.id < id) && o.stage != .ended && !o.mute) = [] := by
      rw [State.filter_outstanding_begun _ _ _ fun o ho => by simp at ho; exact ho.1.1.2, List.filter_eq_nil_iff]
      intro o ho hp
      exact absurd (List.any_eq_false.mp hb o ho) (by simp at hp ⊢; exact hp.1.1)
    refine Does.of_exec (exec_queueReset h hu h16 hz ht hn rfl) ?_
    rw [hl]
    have hcid : c.id = id := State.id_of_cmd h.1
    have hcu : ((s.begun id).updCmd id (Cmd.counted 0)).cmd (c.begun.counted 0).id = some (c.begun.counted 0) := by
      rw [show (c.begun.counted 0).id = id from hcid, State.cmd_updCmd _ _ _ (Cmd.counted 0) fun _ => rfl, if_pos rfl, State.cmd_begun_self h]
      rfl
    refine State.finishQueueResets_answers (c := c.begun.counted 0) hcu h.2.1 rfl hm ?_
    have hmod : c.b 16 % 16 = c.b 16 := Nat.mod_eq_of_lt h16
    change (((s.begun id).updCmd id (Cmd.counted 0)).outstanding.any fun o => o.ring == c.b 16 % 16 && decide (o.id < c.id)) = false
    rw [State.outstanding_updCmd (f := Cmd.counted 0) (fun _ => ⟨rfl, rfl, rfl⟩) fun r i => r == c.b 16 % 16 && decide (i < c.id), State.begun,
      State.outstanding_updCmd (f := Cmd.begun) (fun _ => ⟨rfl, rfl, rfl⟩) fun r i => r == c.b 16 % 16 && decide (i < c.id), hmod, hcid]
    exact hb
  · have hid : o.id < id := by
      have ho := (List.mem_filter.mp (hf ▸ List.mem_singleton_self o)).2
      simp at ho
      exact ho.2
    have hl : ((s.begun id).outstanding.filter fun o => o.ring == c.b 16 && decide (o.id < id) && o.stage != .ended && !o.mute) = [o] := by
      rw [State.filter_outstanding_begun _ _ _ fun o ho => by simp at ho; exact ho.1.1.2]
      have hsplit : (fun o : Cmd => o.ring == c.b 16 && decide (o.id < id) && o.stage != Stage.ended && !o.mute) =
          fun o : Cmd => (o.stage != Stage.ended && !o.mute) && (o.ring == c.b 16 && decide (o.id < id)) := by
        funext o
        rw [Bool.and_assoc, Bool.and_comm]
      rw [hsplit, ← List.filter_filter, hf]
      simp [hor, hom]
    have hco : (s.begun id).cmd o.id = some o := (s.cmd_begun_ne (by omega)).trans ho
    have hr : (s.begun id).resetAll ([o].map Cmd.id) = (s.begun id).complete o.id St.ABORTED_BY_RESET 0 o.units := by
      simp only [State.resetAll, List.map_cons, List.map_nil, State.each, List.foldl_cons, List.foldl_nil, hco]
      rw [if_neg (by simp [hor, hom]), State.resetCmd, if_neg (by simp [State.pastPoint_of_ready hor hop hol]), State.stopWork_of_ready hor]
    have ha : ((s.begun id).complete o.id St.ABORTED_BY_RESET 0 o.units).Answered o St.ABORTED_BY_RESET 0 o.units :=
      State.complete_answered _ _ _ _ hco (by simp [hor]) hom
    refine Does.of_exec (exec_queueReset h hu h16 hz ht hn rfl) ?_
    rw [hl, hr]
    exact ha.mono (each_resetEnd_records (((s.begun id).complete o.id St.ABORTED_BY_RESET 0 o.units).updCmd id (Cmd.counted 1)) _)

end Sys2Proof.Machine
end

section
/-! PROOFS. Takes open and close (spec/12, R415 to R419). -/
namespace Sys2Proof.Machine

set_option Elab.async false

/-- The fields that follow the operations of a port. -/
def opsFlds : List Fld := [F.MAG_OPS_now, F.MAG_OPS_peak, F.MAG_SCRUB_STATUS_running, F.MAG_SCRUB_STATUS_pending]

theorem State.Within.refill {l : List Fld} {s t : State} (h : State.Within l s t) (hl : ∀ x ∈ opsFlds, x ∈ l) (p : Nat) :
    State.Within l s (t.refill p) :=
  State.Within.opsStatus (t := t.updPort p fun x => x.refill (t.mayIssue p)) h.same hl p

theorem State.only_opsStatus (s : State) (p : Nat) : s.Only (s.opsStatus p) [(F.MAG_OPS_now, p), (F.MAG_OPS_peak, p), (F.MAG_SCRUB_STATUS_running, p),
    (F.MAG_SCRUB_STATUS_pending, p)] :=
  State.Only.wr (State.Only.wr (State.Only.wr (State.Only.wr (State.Only.refl s _) F.MAG_OPS_now _ p 0 (by simp)) F.MAG_OPS_peak _ p 0 (by simp))
    F.MAG_SCRUB_STATUS_running _ p 0 (by simp)) F.MAG_SCRUB_STATUS_pending _ p 0 (by simp)

theorem State.take_updTake_self {s : State} {e : Nat} (f : TakeSt → TakeSt) (h : e < s.stor.takes.length) : (s.updTake e f).take e = f (s.take e) :=
  updAt_getD_self _ _ _ _ h

theorem State.openStatus_begun (s : State) (id e placement : Nat) (packed : Bool) :
    (s.begun id).openStatus e placement packed = s.openStatus e placement packed := rfl

/-- A take that opens shows its placement and has no frame. -/
theorem State.openTake_reads (s : State) (id e : Nat) {placement : Nat} (hp : placement < 4) (packed : Bool) (limit : Nat) :
    (s.openTake id e placement packed limit).rd F.TAKE_STATUS_state e = 1
      ∧ (s.openTake id e placement packed limit).rd F.TAKE_STATUS_placement e = placement
      ∧ (s.openTake id e placement packed limit).rd F.TAKE_STATUS_packed e = b2n packed
      ∧ (s.openTake id e placement packed limit).rd F.TAKE_FRAMES_value e = 0
      ∧ (s.openTake id e placement packed limit).rd F.TAKE_SCRAPED_value e = 0
      ∧ (s.openTake id e placement packed limit).mem = s.mem := by
  unfold State.openTake
  extract_lets ps roll n s1 s2 x s3
  have hw : State.Within opsFlds s3 ((ps.foldl (fun (s : State) p => (s.ledgerPut p [s.takeEntry e p 0]).refill p) s3).tick) := by
    have hf : State.Within opsFlds s3 (ps.foldl (fun (s : State) p => (s.ledgerPut p [s.takeEntry e p 0]).refill p) s3) :=
      State.Within.each (f := fun (s : State) p => (s.ledgerPut p [s.takeEntry e p 0]).refill p) (.refl _ _) ps fun u p hu =>
        State.Within.refill (t := u.ledgerPut p [u.takeEntry e p 0]) hu.same (fun _ hx => hx) p
    exact hf.same
  have h3 : ∀ (f : Fld), s3.rd f e = s2.rd f e := fun f => rfl
  have hm1 : s1.mem = s.mem := rfl
  have hm : s2.mem = s1.mem := by simp only [s2, State.wr_mem]
  refine ⟨(hw.rd _ _ _ (by decide)).trans ?_, (hw.rd _ _ _ (by decide)).trans ?_, (hw.rd _ _ _ (by decide)).trans ?_,
    (hw.rd _ _ _ (by decide)).trans ?_, (hw.rd _ _ _ (by decide)).trans ?_, hw.mem.trans (hm.trans hm1)⟩
  · rw [h3]
    simp (disch := decide) only [s2, State.rd_wr_other, State.rd_wr_self]
    rfl
  · rw [h3]
    simp (disch := decide) only [s2, State.rd_wr_other, State.rd_wr_self]
    exact Nat.mod_eq_of_lt hp
  · rw [h3]
    simp (disch := decide) only [s2, State.rd_wr_other, State.rd_wr_self]
    cases packed
    · rfl
    · rfl
  · rw [h3]
    simp (disch := decide) only [s2, State.rd_wr_other, State.rd_wr_self]
    rfl
  · rw [h3]
    simp (disch := decide) only [s2, State.rd_wr_self]
    rfl

section
variable {id : Nat} {c : Cmd} {s : State}

theorem exec_takeOpen_good (ht : s.takeTurn id = true) (hp : s.planPending = false) (hu : s.afterUnmount id = false) (h : s.Waits id 0x10 c)
    (hok : takeOpenOk c = true) : exec (.takeOpen id) s = .next (takeOpenBegun id c (s.begun id)) := by
  rw [exec_takeOpen_of_turn ht hp, State.storCmd_of_waits _ hu h, if_pos hok]

theorem exec_takeClose_good (ht : s.takeTurn id = true) (hu : s.afterUnmount id = false) (h : s.Waits id 0x11 c) (hok : takeCloseOk c = true) :
    exec (.takeClose id) s = .next (takeCloseBegun id c (s.begun id)) := by
  rw [exec_takeClose_of_turn ht, State.storCmd_of_waits _ hu h, if_pos hok]

/-- The take notes a TAKE_CLOSE of its number. -/
def State.closeNoted (s : State) (id e : Nat) : State := s.updTake e fun x => { x with closeCmds := x.closeCmds ++ [id] }

theorem takeCloseBegun_known (hs : s.rd F.TAKE_STATUS_state (c.b 16) ≠ 0) (hn : s.rd F.TAKE_NUMBER_value (c.b 16) = c.w 20)
    (hc : (s.take (c.b 16)).closeCmds.contains id = false) : takeCloseBegun id c (s.begun id) =
      if s.rd F.TAKE_STATUS_state (c.b 16) = 2 then ((s.begun id).closeNoted id (c.b 16)).startClose (c.b 16)
      else if s.rd F.TAKE_STATUS_state (c.b 16) = 4 then
        ((s.begun id).closeNoted id (c.b 16)).closeTake (c.b 16) (s.rd F.TAKE_STATUS_end_status (c.b 16))
      else (s.begun id).closeNoted id (c.b 16) := by
  unfold takeCloseBegun
  extract_lets e st t
  rw [if_neg (fun h => h.elim hs fun h => h hn), if_neg (show ¬ ((s.begun id).take e).closeCmds.contains id = true from Bool.eq_false_iff.mp hc)]
  rfl

theorem State.cmd_closeNoted (s : State) (id e k : Nat) : (s.closeNoted id e).cmd k = s.cmd k := rfl

/-- A take with frames still to commit is closing. -/
theorem State.startClose_of_frames {e : Nat} (hf : (s.take e).frames ≠ []) : s.startClose e = s.wr F.TAKE_STATUS_state 3 e := by
  have ht : (s.wr F.TAKE_STATUS_state 3 e).take e = s.take e := by rw [State.take, State.wr_stor, State.take]
  unfold State.startClose State.takeCheck
  extract_lets t st full ending
  refine if_pos ?_
  have h1 : t.frames.isEmpty = false := by
    rw [show t = s.take e from ht]
    simpa using hf
  rw [h1]
  simp

/-- A take that has ended and waits for one command closes with its status. -/
theorem State.closeTake_of_one {e status : Nat} (hc : (s.take e).closeCmds = [id]) : s.closeTake e status =
    ((((s.complete id status (s.rd F.TAKE_FRAMES_value e) (s.rd F.TAKE_SCRAPED_value e)).wr F.TAKE_STATUS_state 0 e).wr
      F.TAKE_STATUS_end_status status e).updTake e fun _ => TakeSt.init).each (s.take e).ports State.opsStatus := by
  unfold State.closeTake
  extract_lets t s1
  rw [show s1 = s.complete id status (s.rd F.TAKE_FRAMES_value e) (s.rd F.TAKE_SCRAPED_value e) by simp only [s1, t, hc]; rfl]

end

theorem State.Only.each_opsStatus {s t : State} {l : List (Fld × Nat)} (h : s.Only t l) (ps : List Nat)
    (hl : ∀ p ∈ ps, ∀ x ∈ [(F.MAG_OPS_now, p), (F.MAG_OPS_peak, p), (F.MAG_SCRUB_STATUS_running, p), (F.MAG_SCRUB_STATUS_pending, p)], x ∈ l) :
    s.Only (t.each ps State.opsStatus) l := by
  induction ps generalizing t with
  | nil => exact h
  | cons p ps ih =>
    exact ih (h.trans ((t.only_opsStatus p).mono (hl p (List.mem_cons_self ..)))) fun q hq => hl q (List.mem_cons_of_mem _ hq)

/-- Settles O47: an opening take is a chain of field settings, and a TAKE_CLOSE finds the take in one of its states. -/
theorem takesOpenAndClose : Obligations.TakesOpenAndClose := by
  rintro id e c s ht hu rfl hc
  refine ⟨fun h hp hok hst => ?_, fun st h hm hp hok hst hne => ?_, fun h hm hok hk => ?_, fun h hok h1 hn he => ?_, fun h hok h2 hn he hf => ?_,
    fun h hm hok h4 hn he hcl => ?_⟩
  · have hex := exec_takeOpen_good ht hp hu h hok
    rw [takeOpenBegun] at hex
    rw [State.openStatus_begun, if_pos hst] at hex
    exact Does.of_exec hex ((s.begun id).openTake_reads id (c.b 16) (Nat.lt_of_lt_of_le (Nat.mod_lt _ (by decide)) (Nat.le_refl _)) _ _)
  · have hex := exec_takeOpen_good ht hp hu h hok
    rw [takeOpenBegun] at hex
    rw [State.openStatus_begun, hst, if_neg hne] at hex
    obtain ⟨ha, ho⟩ := State.complete_begun h hm st 0 0 0
    exact Does.of_exec hex ⟨ha, ho []⟩
  · have hex := exec_takeClose_good ht hu h hok
    rw [takeCloseBegun] at hex
    dsimp only at hex
    rw [State.begun_rd, State.begun_rd, if_pos hk] at hex
    obtain ⟨ha, ho⟩ := State.complete_begun h hm St.TAKE_UNKNOWN 0 0 0
    exact Does.of_exec hex ⟨ha, ho []⟩
  · have hex := exec_takeClose_good ht hu h hok
    rw [takeCloseBegun_known (by rw [h1]; decide) hn hc, if_neg (by rw [h1]; decide), if_neg (by rw [h1]; decide)] at hex
    exact Does.of_exec hex ⟨congrArg TakeSt.closeCmds (State.take_updTake_self _ he), rfl, (s.only_begun id []).same⟩
  · have hex := exec_takeClose_good ht hu h hok
    have htk : ((s.begun id).closeNoted id (c.b 16)).take (c.b 16) = { s.take (c.b 16) with closeCmds := (s.take (c.b 16)).closeCmds ++ [id] } :=
      State.take_updTake_self _ he
    rw [takeCloseBegun_known (by rw [h2]; decide) hn hc, if_pos h2, State.startClose_of_frames (by rw [htk]; exact hf)] at hex
    refine Does.of_exec hex ⟨(State.rd_wr_self _ F.TAKE_STATUS_state 3 (c.b 16) 0).trans rfl, ?_, ?_,
      State.Only.wr (State.Only.same (s.only_begun id _)) F.TAKE_STATUS_state 3 (c.b 16) 0 (by simp)⟩
    · rw [State.take, State.wr_stor]
      exact congrArg TakeSt.closeCmds htk
    · rw [State.wr_host]
      rfl
  · have hex := exec_takeClose_good ht hu h hok
    have htk : ((s.begun id).closeNoted id (c.b 16)).take (c.b 16) = { s.take (c.b 16) with closeCmds := (s.take (c.b 16)).closeCmds ++ [id] } :=
      State.take_updTake_self _ he
    rw [takeCloseBegun_known (by rw [h4]; decide) hn hc, if_neg (by rw [h4]; decide), if_pos h4,
      State.closeTake_of_one (id := id) (by rw [htk, hcl]; rfl), htk] at hex
    generalize hu : (s.begun id).closeNoted id (c.b 16) = u at hex
    have hcmd : u.cmd id = some c.begun := by
      rw [← hu]
      exact State.cmd_begun_self h
    have hrd : ∀ (f : Fld) (i : Nat), u.rd f i = s.rd f i := fun f i => by rw [← hu]; rfl
    have hsu : s.Only u [] := by rw [← hu]; exact (s.only_begun id []).same
    rw [hrd, hrd] at hex
    have hrun : u.Runs id 0x11 c.begun := ⟨hcmd, h.2.1, rfl⟩
    obtain ⟨ha, ho⟩ := State.complete_running hrun hm (s.rd F.TAKE_STATUS_end_status (c.b 16)) (s.rd F.TAKE_FRAMES_value (c.b 16))
      (s.rd F.TAKE_SCRAPED_value (c.b 16)) 0
    generalize u.complete id (s.rd F.TAKE_STATUS_end_status (c.b 16)) (s.rd F.TAKE_FRAMES_value (c.b 16)) (s.rd F.TAKE_SCRAPED_value (c.b 16)) = v
      at hex ha ho
    let w := ((v.wr F.TAKE_STATUS_state 0 (c.b 16)).wr F.TAKE_STATUS_end_status (s.rd F.TAKE_STATUS_end_status (c.b 16)) (c.b 16)).updTake (c.b 16)
      fun _ => TakeSt.init
    have hwin : State.Within opsFlds w (w.each (s.take (c.b 16)).ports State.opsStatus) :=
      State.Within.each (.refl _ _) _ fun x p hx => hx.opsStatus (fun _ hy => hy) p
    refine Does.of_exec hex ⟨(hwin.rd _ _ _ (by decide)).trans ?_, State.Answered.congr ha ?_, ?_⟩
    · refine Eq.trans ?_ ((State.rd_wr_self v F.TAKE_STATUS_state 0 (c.b 16) 0).trans rfl)
      exact State.rd_wr_other _ F.TAKE_STATUS_end_status F.TAKE_STATUS_state _ _ _ _ _ (by decide)
    · have hh : (w.each (s.take (c.b 16)).ports State.opsStatus).host = w.host :=
        State.each_of_kept State.host (fun x p => State.opsStatus_kept State.host State.wr_host x p) w _
      exact congrArg HostSt.records (hh.trans ((State.wr_host ..).trans (State.wr_host ..)))
    · have hsv : s.Only v ([(F.TAKE_STATUS_state, c.b 16), (F.TAKE_STATUS_end_status, c.b 16)] ++ (s.take (c.b 16)).ports.flatMap fun p =>
          [(F.MAG_OPS_now, p), (F.MAG_OPS_peak, p), (F.MAG_SCRUB_STATUS_running, p), (F.MAG_SCRUB_STATUS_pending, p)]) :=
        (hsu.trans (ho [])).mono fun x hx => absurd hx List.not_mem_nil
      have hsw := State.Only.same (u := w) ((hsv.wr F.TAKE_STATUS_state 0 (c.b 16) 0 (by simp)).wr F.TAKE_STATUS_end_status
        (s.rd F.TAKE_STATUS_end_status (c.b 16)) (c.b 16) 0 (by simp))
      exact hsw.each_opsStatus _ fun p hp x hx => List.mem_append_right _ (List.mem_flatMap.mpr ⟨p, hp, hx⟩)

end Sys2Proof.Machine
end

section
/-! PROOFS. Mount, unmount, format, sanitize and flush (spec/12, R428, R436 to R438). -/
namespace Sys2Proof.Machine

set_option Elab.async false

section
variable {id p : Nat} {c : Cmd} {s : State}

/-- A port whose UNMOUNT has still to wait for something. -/
theorem State.unmountCheck_of_running {o : DieOp} {ops : List DieOp} (hu : (s.port p).unmount = some id) (ho : (s.port p).ops = o :: ops)
    (hr : o.running = true) : s.unmountCheck p = s := by
  unfold State.unmountCheck
  extract_lets x
  rw [show x.unmount = some id from hu]
  dsimp only
  exact if_pos (by simp [show x.ops = o :: ops from ho, hr])

/-- A port of which nothing is left is READY again, and its UNMOUNT ends. -/
def State.unmounted (s : State) (p : Nat) : State :=
  ((((s.updPort p fun y => { PortSt.init with mag := y.mag }).opsStatus p).setPort p 3).reelStatus p).adminStatus p

theorem State.unmountCheck_of_empty (hu : (s.port p).unmount = some id) (ha : (s.port p).allOps = []) (hpend : (s.port p).ledger.pend = [])
    (hg : (s.port p).ledger.group = none) (ht : (s.port p).tasks = []) (hc : ∀ o ∈ s.host.cmds, id ≤ o.id) :
    s.unmountCheck p = (s.unmounted p).complete id St.OK := by
  have hops : (s.port p).ops = [] := by
    have h := ha
    simp only [PortSt.allOps, List.append_eq_nil_iff] at h
    exact h.1
  unfold State.unmountCheck
  extract_lets x fixed
  have hf : fixed = [] := by simp [fixed, x, ha]
  rw [show x.unmount = some id from hu]
  dsimp only
  rw [if_neg]
  · rfl
  · have hb : (s.host.cmds.any fun c => decide (c.id < id) && c.opcode != 0x10 && s.namesPort c p) = false := by
      rw [List.any_eq_false]
      intro o ho
      simp [Nat.not_lt.mpr (hc o ho)]
    rw [hb, hf, show x.ops = [] from hops, show x.ledger.pend = [] from hpend, show x.ledger.group = none from hg,
      show x.tasks = [] from ht]
    decide

/-- An UNMOUNT that begins is shown before the port is looked at. -/
def State.unmountBegun (s : State) (id p : Nat) : State :=
  ((((s.updPort p fun x => { x with unmount := some id }).wr F.STOR_ADMIN_STATUS_op 2 p).wr F.STOR_ADMIN_STATUS_phase 1 p).wr
    F.STOR_ADMIN_DONE_value 0 p).wr F.STOR_ADMIN_TOTAL_value (s.port p).allOps.length p

theorem exec_unmount_good (hu : s.afterUnmount id = false) (h : s.Waits id 0x19 c) (hok : unmountOk c = true) (hus : s.portUsable (c.b 16) = true) :
    exec (.unmount id) s = .next (if s.portTakeOpen (c.b 16) then (s.begun id).complete id St.PORT_BUSY
      else ((s.begun id).unmountBegun id (c.b 16)).unmountCheck (c.b 16)) := by
  change Host.Outcome.next (s.storCmd id 0x19 unmountOk _) = _
  rw [State.storCmd_of_waits _ hu h, if_pos hok]
  dsimp only
  rw [if_neg (by rw [show (s.begun id).portUsable (c.b 16) = true from hus]; decide)]
  rfl

theorem State.unmountBegun_port (hp : p < s.stor.ports.length) : (s.unmountBegun id p).port p = { s.port p with unmount := some id } := by
  rw [State.port_congr (t := s.unmountBegun id p) (s := s.updPort p fun x => { x with unmount := some id })
    (by rw [State.unmountBegun, State.wr_stor, State.wr_stor, State.wr_stor, State.wr_stor])]
  exact State.port_updPort_self _ hp

theorem State.unmountBegun_host : (s.unmountBegun id p).host = s.host := by
  rw [State.unmountBegun, State.wr_host, State.wr_host, State.wr_host, State.wr_host]
  rfl

theorem State.unmountBegun_mem : (s.unmountBegun id p).mem = s.mem := by
  rw [State.unmountBegun, State.wr_mem, State.wr_mem, State.wr_mem, State.wr_mem]
  rfl

/-- What an UNMOUNT leaves of its port. -/
theorem State.unmounted_reads (hp : p < s.stor.ports.length) : (s.unmounted p).portState p = 3 ∧ (s.unmounted p).mem = s.mem
    ∧ (s.unmounted p).host = s.host ∧ ((s.unmounted p).port p).reel = none ∧ ((s.unmounted p).port p).mag = (s.port p).mag := by
  have hst : (s.unmounted p).stor = (s.updPort p fun y => { PortSt.init with mag := y.mag }).stor := by
    rw [State.unmounted, State.adminStatus_kept State.stor State.wr_stor, State.reelStatus_kept State.stor State.wr_stor, State.setPort, State.wr_stor,
      State.opsStatus_kept State.stor State.wr_stor]
  have hport : (s.unmounted p).port p = { PortSt.init with mag := (s.port p).mag } := (State.port_congr hst p).trans (State.port_updPort_self _ hp)
  refine ⟨?_, ?_, ?_, by rw [hport]; rfl, by rw [hport]⟩
  · have hw := ((State.Within.refl clearFlds (((s.updPort p fun y => { PortSt.init with mag := y.mag }).opsStatus p).setPort p 3)).reelStatus
      (fun _ hx => hx) p).adminStatus (fun _ hx => hx) p
    exact (hw.rd F.MAG_PORT_STATUS_state p 0 (by decide)).trans ((State.rd_wr_self _ F.MAG_PORT_STATUS_state 3 p 0).trans rfl)
  · rw [State.unmounted, State.adminStatus_kept State.mem State.wr_mem, State.reelStatus_kept State.mem State.wr_mem, State.setPort, State.wr_mem,
      State.opsStatus_kept State.mem State.wr_mem]
    rfl
  · rw [State.unmounted, State.adminStatus_kept State.host State.wr_host, State.reelStatus_kept State.host State.wr_host, State.setPort, State.wr_host,
      State.opsStatus_kept State.host State.wr_host]
    rfl

/-- Taking up operations leaves a port's administration. -/
theorem PortSt.refill_admin (x : PortSt) (may : DieOp → Bool) : (x.refill may).admin = x.admin := by
  have hf : ∀ (l : List DieOp) (y : PortSt), (l.foldl (fun y o => if may o && y.opFits o then { y with ops := y.ops ++ [o] }
      else { y with held := y.held ++ [o] }) y).admin = y.admin := by
    intro l
    induction l with
    | nil => exact fun _ => rfl
    | cons o l ih =>
      intro y
      rw [List.foldl_cons, ih]
      split
      · rfl
      · rfl
  exact hf _ _

/-- The operations of an administration leave the port in it. -/
theorem State.adminOps_admin (s : State) (p step : Nat) (l : List DieOp) :
    ((s.adminOps p step l).port p).admin.isSome = (s.port p).admin.isSome := by
  have hu : ∀ (u : State) (f : PortSt → PortSt), (∀ x, (f x).admin.isSome = x.admin.isSome) →
      ((u.updPort p f).port p).admin.isSome = (u.port p).admin.isSome := fun u f hf =>
    State.port_updPort_of_kept (fun x => x.admin.isSome) u p p f hf
  unfold State.adminOps State.addOps State.refill State.updAdmin
  rw [State.port_congr ((State.adminStatus_kept State.stor State.wr_stor ..).trans (State.opsStatus_kept State.stor State.wr_stor ..)),
    hu, hu, hu]
  · exact fun x => by rw [Option.isSome_map]
  · exact fun x => rfl
  · exact fun x => by rw [PortSt.refill_admin]

theorem State.within_adminOps (s : State) (p step : Nat) (l : List DieOp) : State.Within clearFlds s (s.adminOps p step l) := by
  have h0 : State.Within clearFlds s ((s.updAdmin p fun a => { a with step := step, left := l.length }).updPort p fun x => { x with held := x.held ++ l }) :=
    (State.Within.refl _ s).same
  exact (h0.refill (fun x hx => by revert x; decide) p).adminStatus (fun _ hx => hx) p

/-- A FORMAT or SANITIZE that starts puts its port in ADMIN. -/
theorem State.adminStart_reads (hp : p < s.stor.ports.length) (sanitise : Bool) (hdr : ReelHeader) (m : Magazine) (bad : List Retired) :
    (s.adminStart p id sanitise hdr m bad).portState p = 5 ∧ ((s.adminStart p id sanitise hdr m bad).port p).admin.isSome = true
      ∧ (s.adminStart p id sanitise hdr m bad).mem = s.mem := by
  unfold State.adminStart
  extract_lets ctl a
  generalize hu : (s.updPort p fun x => { x with admin := some a }).setPort p 5 = u
  have hst : u.portState p = 5 := by rw [← hu]; exact (State.rd_wr_self _ F.MAG_PORT_STATUS_state 5 p 0).trans rfl
  have hmem : u.mem = s.mem := by rw [← hu]; exact State.wr_mem ..
  have hport : (u.port p).admin = some a := by
    rw [← hu, State.setPort, State.port_congr (State.wr_stor ..), State.port_updPort_self _ hp]
  have hw := u.within_adminOps p 1 (adminErases a.blocks)
  exact ⟨(hw.rd _ _ _ (by decide)).trans hst, by rw [State.adminOps_admin, hport]; rfl, hw.mem.trans hmem⟩

/-- A FORMAT without a key of its own starts on a READY port. -/
theorem exec_format_plain {m : Magazine} (hu : s.afterUnmount id = false) (h : s.Waits id 0x1A c) (hok : formatOk c = true)
    (hm : (s.port (c.b 16)).mag = some m) (hr : s.portReady (c.b 16) = true) (h17 : c.b 17 = 0) (h20 : c.d 20 ≠ 0) :
    ∃ hdr, exec (.format id) s = .next ((s.begun id).tick.adminStart (c.b 16) id false hdr m (formatBase m).2) := by
  have he : bitOf (c.b 17) 0 = false := by rw [h17]; decide
  have hv : bitOf (c.b 17) 1 = false := by rw [h17]; decide
  have hm' : ((s.begun id).port (c.b 16)).mag = some m := hm
  have hr' : (s.begun id).portReady (c.b 16) = true := hr
  have hex : exec (.format id) s = .next (s.storCmd id 0x1A formatOk _) := rfl
  rw [State.storCmd_of_waits _ hu h, if_pos hok] at hex
  dsimp only at hex
  rw [hm', hr', he, hv] at hex
  simp only [Bool.not_true, Bool.false_eq_true, if_false, Bool.false_and, Bool.not_false, Bool.true_and, Bool.or_false, Bool.false_or, beq_iff_eq, h20] at hex
  exact ⟨_, hex⟩

theorem exec_sanitize_ready {m : Magazine} (hu : s.afterUnmount id = false) (h : s.Waits id 0x1B c) (hok : sanitizeOk c = true)
    (hm : (s.port (c.b 16)).mag = some m) (hr : s.portReady (c.b 16) = true) :
    ∃ hdr, exec (.sanitize id) s = .next ((s.begun id).adminStart (c.b 16) id true hdr m (formatBase m).2) := by
  have hm' : ((s.begun id).port (c.b 16)).mag = some m := hm
  have hr' : (s.begun id).portReady (c.b 16) = true := hr
  have hex : exec (.sanitize id) s = .next (s.storCmd id 0x1B sanitizeOk _) := rfl
  rw [State.storCmd_of_waits _ hu h, if_pos hok] at hex
  dsimp only at hex
  rw [hm', hr'] at hex
  simp only [Bool.not_true, Bool.false_eq_true, if_false] at hex
  exact ⟨_, hex⟩

/-- What a FLUSH notes, and the ports whose stripes it closes. -/
def State.flushNoted (s : State) (id : Nat) (c : Cmd) (ps : List Nat) : State :=
  s.updStor fun x => { x with
    flushes := x.flushes ++ [(id, (match c.seen with | .flush f n => (f, n) | _ => ([], [])).1, (match c.seen with | .flush f n => (f, n) | _ => ([], [])).2, 0)],
    ports := (withIndex x.ports).map fun y => if ps.contains y.1 then { y.2 with pad := true } else y.2 }

theorem exec_flush_port0 (hu : s.afterUnmount id = false) (h : s.Waits id 0x15 c) (hok : flushOk c = true) (h1 : c.b 16 = 1) :
    exec (.flush id) s = .next ((if s.portFor id 0 then (s.begun id).flushNoted id c [0] else (s.begun id).complete id St.MAG_NOT_READY).flushCheck) := by
  have hps : ([0, 1].filter fun p => if c.b 16 = 0 then (s.begun id).mounted p else bitOf (c.b 16) p) = [0] := by
    rw [h1]
    rfl
  refine congrArg (fun t : State => Host.Outcome.next t.flushCheck) ((State.storCmd_of_waits _ hu h).trans ((if_pos hok).trans ?_))
  dsimp only
  rw [hps, List.all_cons, List.all_nil, Bool.and_true, show (s.begun id).portFor id 0 = s.portFor id 0 from rfl]
  cases s.portFor id 0
  · rfl
  · rfl

/-- One FLUSH with nothing to wait for and no other command ends. -/
theorem State.flushCheck_of_one (hf : s.stor.flushes = [(id, [], [], 0)]) (hc : s.host.cmds = [c]) (hid : c.id = id) :
    ∃ f g, s.flushCheck = ((s.updStor f).complete id St.OK 0).updStor g := by
  unfold State.flushCheck
  extract_lets live t ready
  have ht : t.stor.flushes = [(id, [], [], 0)] := by simp [t, State.updStor, hf]
  have hcmds : t.host.cmds = [c] := hc
  have hcmd : t.cmd id = some c := by simp [State.cmd, hcmds, hid]
  have hready : ready = [(id, [], [], 0)] := by
    have ho : (t.outstanding.any fun o => o.ring == c.ring && decide (o.id < c.id)) = false := by
      rw [State.outstanding, hcmds, List.any_eq_false]
      intro o ho
      rw [List.mem_singleton.mp (List.mem_filter.mp ho).1]
      simp
    simp only [ready, ht, List.filter_cons, List.filter_nil, hcmd, ho]
    rfl
  rw [hready]
  exact ⟨_, _, rfl⟩

end

/-- Settles O49: each command is a storage command with one branch for a port that can serve it. -/
theorem mountsFormatsAndFlushes : Obligations.MountsFormatsAndFlushes := by
  rintro id p c s rfl hm hu hp
  refine ⟨fun h hok hr => ?_, fun h hok hr => ?_, fun h hok hus ht => ?_, fun o ops h hok hus ht ho hrun => ?_,
    fun h hok hus ht ha hpend hg htk hc => ?_, fun m h hok hmag hr h17 h20 => ?_, fun m h hok hmag hr => ?_, fun h hok h1 hf hfl => ?_,
    fun h hok h1 hf hfl hc hs => ?_⟩
  · have hex : exec (.mount id) s = .next ((s.begun id).complete id St.MAG_NOT_READY) := by
      refine congrArg Host.Outcome.next ((State.storCmd_of_waits _ hu h).trans ((if_pos hok).trans (if_neg ?_)))
      exact Bool.eq_false_iff.mp hr
    obtain ⟨ha, ho⟩ := State.complete_begun h hm St.MAG_NOT_READY 0 0 0
    exact Does.of_exec hex ⟨ha, ho []⟩
  · refine congrArg Host.Outcome.next ((State.storCmd_of_waits _ hu h).trans ((if_pos hok).trans (if_pos ?_)))
    exact hr
  · have hex := exec_unmount_good hu h hok hus
    rw [if_pos ht] at hex
    obtain ⟨ha, ho⟩ := State.complete_begun h hm St.PORT_BUSY 0 0 0
    exact Does.of_exec hex ⟨ha, ho []⟩
  · have hex := exec_unmount_good hu h hok hus
    have hport : ((s.begun id).unmountBegun id (c.b 16)).port (c.b 16) = { s.port (c.b 16) with unmount := some id } := State.unmountBegun_port hp
    rw [if_neg (Bool.eq_false_iff.mp ht), State.unmountCheck_of_running (id := id) (by rw [hport]) (by rw [hport]; exact ho) hrun] at hex
    refine Does.of_exec hex ⟨by rw [hport], ?_, State.unmountBegun_mem⟩
    simp (disch := decide) only [State.unmountBegun, State.rd_wr_other, State.rd_wr_self]
    rfl
  · have hex := exec_unmount_good hu h hok hus
    have hport : ((s.begun id).unmountBegun id (c.b 16)).port (c.b 16) = { s.port (c.b 16) with unmount := some id } := State.unmountBegun_port hp
    have hcmds : ∀ o ∈ ((s.begun id).unmountBegun id (c.b 16)).host.cmds, id ≤ o.id := by
      rw [State.unmountBegun_host]
      change ∀ o ∈ s.host.cmds.map fun c => if c.id = id then c.begun else c, id ≤ o.id
      rw [hc]
      intro o ho
      have hid := State.id_of_cmd h.1
      rw [List.map_singleton, List.mem_singleton, if_pos hid] at ho
      rw [ho]
      exact Nat.le_of_eq hid.symm
    rw [if_neg (Bool.eq_false_iff.mp ht), State.unmountCheck_of_empty (by rw [hport]) (by rw [hport]; exact ha) (by rw [hport]; exact hpend)
      (by rw [hport]; exact hg) (by rw [hport]; exact htk) hcmds] at hex
    have hlen : c.b 16 < ((s.begun id).unmountBegun id (c.b 16)).stor.ports.length := by
      rw [State.unmountBegun, State.wr_stor, State.wr_stor, State.wr_stor, State.wr_stor]
      exact lt_of_lt_of_eq hp (updAt_length s.stor.ports (c.b 16) _).symm
    obtain ⟨h1, h2, h3, h4, h5⟩ := State.unmounted_reads hlen
    have hrun : (((s.begun id).unmountBegun id (c.b 16)).unmounted (c.b 16)).Runs id 0x19 c.begun := by
      refine ⟨?_, h.2.1, rfl⟩
      rw [State.cmd, h3, State.unmountBegun_host]
      exact State.cmd_begun_self h
    obtain ⟨hans, honly⟩ := State.complete_running hrun hm St.OK 0 0 0
    refine Does.of_exec hex ⟨hans, ?_, ?_, ?_, ?_⟩
    · exact ((honly []).2 F.MAG_PORT_STATUS_state _ 0 (by simp)).trans h1
    · rw [State.port_congr (State.Apart.stor.complete ..)]
      exact h4
    · rw [State.port_congr (State.Apart.stor.complete ..), h5, hport]
    · rw [State.Apart.mem.complete, h2]
      exact State.unmountBegun_mem
  · obtain ⟨hdr, hex⟩ := exec_format_plain hu h hok hmag hr h17 h20
    exact Does.of_exec hex (State.adminStart_reads (s := (s.begun id).tick) hp _ _ _ _)
  · obtain ⟨hdr, hex⟩ := exec_sanitize_ready hu h hok hmag hr
    exact Does.of_exec hex (State.adminStart_reads (s := s.begun id) hp _ _ _ _)
  · have hex := exec_flush_port0 hu h hok h1
    obtain ⟨ha, ho⟩ := State.complete_begun h hm St.MAG_NOT_READY 0 0 0
    rw [if_neg (Bool.eq_false_iff.mp hf), State.flushCheck_of_none (by rw [State.Apart.stor.complete]; exact hfl)] at hex
    exact Does.of_exec hex ⟨ha.congr rfl, (ho []).same⟩
  · have hex := exec_flush_port0 hu h hok h1
    have hid := State.id_of_cmd h.1
    have hfn : ((s.begun id).flushNoted id c [0]).stor.flushes = [(id, [], [], 0)] := by
      rw [State.flushNoted, hs]
      simp only [State.updStor_stor, show (s.begun id).stor.flushes = [] from hfl, List.nil_append]
    have hcmds : ((s.begun id).flushNoted id c [0]).host.cmds = [c.begun] := by
      change (s.host.cmds.map fun c => if c.id = id then c.begun else c) = _
      rw [hc, List.map_singleton, if_pos hid]
    obtain ⟨f, g, hfc⟩ := State.flushCheck_of_one hfn hcmds hid
    rw [if_pos hf, hfc] at hex
    have hrun : (((s.begun id).flushNoted id c [0]).updStor f).Runs id 0x15 c.begun := ⟨State.cmd_begun_self h, h.2.1, rfl⟩
    obtain ⟨ha, ho⟩ := State.complete_running hrun hm St.OK 0 0 0
    have hsu : s.Only (((s.begun id).flushNoted id c [0]).updStor f) [] := (s.only_begun id []).same
    exact Does.of_exec hex ⟨ha.congr rfl, (hsu.trans (ho [])).same⟩

end Sys2Proof.Machine
end

section
/-! PROOFS. Region pushes and DCS commands of the viewfinder panels (spec/14, R499, R500). -/
namespace Sys2Proof.Machine

set_option Elab.async false

theorem State.Apart.outs : State.Apart State.outs := ⟨State.wr_outs, fun _ => rfl, fun _ _ _ => rfl⟩

theorem State.outp_congr {s t : State} (h : t.outs = s.outs) (o : Nat) : t.outp o = s.outp o := by rw [State.outp, State.outp, h]

theorem State.outp_updOut_self {s : State} {o : Nat} (f : OutSt → OutSt) (h : o < s.outs.length) : (s.updOut o f).outp o = f (s.outp o) :=
  updAt_getD_self _ _ _ _ h

section
variable {id : Nat} {c : Cmd} {s : State}

/-- A push on a free port is sent and waits for its end. -/
theorem State.dsiJoin_push {o : Nat} (px : List Byte) (hq : (s.outp o).queue = []) (hc : s.cmd id = some c) (ho : c.opcode = 0x30) :
    s.dsiJoin id o px = (s.each (pushCommands c px) fun s b => s.emit (.dsi (o - 4) false b)).updOut o fun x => { x with queue := [(id, px)] } := by
  rw [State.dsiJoin, hq]
  dsimp only [List.isEmpty_nil]
  rw [if_pos rfl, State.dsiRun, hc]
  dsimp only
  rw [if_pos ho]

/-- A DCS write on a free port is sent and completes. -/
theorem State.dsiJoin_write {o : Nat} (hq : (s.outp o).queue = []) (hc : s.cmd id = some c) (ho : c.opcode = 0x31) (h17 : c.b 17 = 0) :
    s.dsiJoin id o [] = ((s.emit (.dsi (o - 4) false (bytesAt c.desc 36 (c.h 18)))).complete id St.OK).updOut o fun x => { x with queue := [] } := by
  rw [State.dsiJoin, hq]
  dsimp only [List.isEmpty_nil]
  rw [if_pos rfl, State.dsiRun, hc]
  dsimp only
  rw [if_neg (by rw [ho]; decide), h17]
  rfl

/-- A DCS read on a free port is sent and waits for its reply. -/
theorem State.dsiJoin_read {o : Nat} (hq : (s.outp o).queue = []) (hc : s.cmd id = some c) (ho : c.opcode = 0x31) (h17 : c.b 17 = 1) :
    s.dsiJoin id o [] = (s.emit (.dsi (o - 4) true (bytesAt c.desc 36 (c.h 18)))).updOut o fun x => { x with queue := [(id, [])], reading := some id } := by
  rw [State.dsiJoin, hq]
  dsimp only [List.isEmpty_nil]
  rw [if_pos rfl, State.dsiRun, hc]
  dsimp only
  rw [if_neg (by rw [ho]; decide), h17]
  rfl

/-- The read that a port waits for ends, with nothing after it. -/
theorem State.dcsEnd_of_last {o : Nat} (hr : (s.outp o).reading = some id) (hq : (s.outp o).queue.tail = []) (status spec0 : Nat) :
    s.dcsEnd o status spec0 = ((s.complete id status spec0).updOut o fun x => { x with reading := none }).updOut o fun x => { x with queue := [] } := by
  rw [State.dcsEnd, hr]
  dsimp only
  rw [hq, State.dsiRun]

/-- The answer to a read that ends, what the port waits for then, and nothing else. -/
theorem State.dcsEnd_reads {o : Nat} (ho : o < s.outs.length) (h : s.Runs id 0x31 c) (hm : c.mute = false) (hr : (s.outp o).reading = some id)
    (hq : (s.outp o).queue.tail = []) (status spec0 : Nat) :
    (s.dcsEnd o status spec0).Answered c status spec0 0 ∧ ((s.dcsEnd o status spec0).outp o).reading = none ∧ s.Only (s.dcsEnd o status spec0) [] := by
  obtain ⟨ha, hon⟩ := State.complete_running h hm status spec0 0 0
  have hlen : o < (s.complete id status spec0 0 0).outs.length := by rwa [State.Apart.outs.complete]
  rw [State.dcsEnd_of_last hr hq]
  refine ⟨ha.congr rfl, ?_, (hon []).same⟩
  rw [State.outp_updOut_self _ (lt_of_lt_of_eq hlen (updAt_length ..).symm), State.outp_updOut_self _ hlen]

theorem exec_rasRegionPush {px : List Byte} (h : s.Waits id 0x30 c) : exec (.rasRegionPush id px) s = .next
    (if !s.pushOk c then (s.begun id).complete id St.RAS_BAD_REQ
      else if s.rd F.RAS_OUT_STATUS_dsi_mode (4 + c.b 16) ≠ 2 then (s.begun id).complete id St.RAS_STATE
      else (s.begun id).dsiJoin id (4 + c.b 16) px) :=
  congrArg Host.Outcome.next (State.startCmd_eq_begun _ h)

theorem exec_rasDcs (h : s.Waits id 0x31 c) : exec (.rasDcs id) s = .next
    (if !dcsOk c then (s.begun id).complete id St.RAS_BAD_REQ
      else if s.rd F.RAS_OUT_STATUS_dsi_mode (4 + c.b 16) ≠ 2 then (s.begun id).complete id St.RAS_STATE
      else (s.begun id).dsiJoin id (4 + c.b 16) []) :=
  congrArg Host.Outcome.next (State.startCmd_eq_begun _ h)

end

theorem State.each_emit_out (s : State) (l : List (List Byte)) (f : List Byte → Emit) : (s.each l fun s b => s.emit (f b)).out.length = s.out.length + l.length := by
  induction l generalizing s with
  | nil => rfl
  | cons b l ih =>
    refine (ih (s.emit (f b))).trans ?_
    rw [State.emit_out, List.length_cons, List.length_cons]
    omega

theorem exec_dsiSetupSent {o : Nat} {s : State} (hd : isDsi o = true) (h1 : s.rd F.RAS_OUT_STATUS_dsi_mode o = 1) (hb : s.blockUp (0x70 + o) = true) :
    exec (.dsiSetupSent o) s = .next ((if boardOk s.sec.board then
        (boardDsi s.sec.board (o - 4)).foldl (fun (t : State) d => t.emit (.dsi (o - 4) false d)) s
      else (s.wr F.FW_FLAGS_board_cfg_bad 1).raise s.holder Ev.FW_BOARD_CFG_BAD []).dsiMode o 2) :=
  if_pos (by rw [hd, h1, hb]; rfl)

/-- Settles O53: a command of a panel is refused, or joins an empty queue and runs; the end of a port's command touches no register. -/
theorem viewfinderPanels : Obligations.ViewfinderPanels := by
  refine ⟨fun id d c s hd hlen hm => ⟨fun px h hok => ?_, fun px h hok he hmode => ?_, fun px h hok he hmode hq => ?_, fun h hok => ?_,
    fun h hok he hmode hq h17 => ?_, fun h hok he hmode hq h17 => ?_, fun data h hr hq => ?_, fun h hr hq => ?_, fun px h hr hq => ?_,
    fun h1 hb => ?_⟩, fun o s hd h1 hb => exec_dsiSetupSent hd h1 hb⟩
  · have hex := exec_rasRegionPush (px := px) h
    rw [hok, Bool.not_false, if_pos rfl] at hex
    obtain ⟨ha, ho⟩ := State.complete_begun h hm St.RAS_BAD_REQ 0 0 0
    exact Does.of_exec hex ⟨ha, ho []⟩
  · have hex := exec_rasRegionPush (px := px) h
    rw [hok, he, Bool.not_true, if_neg Bool.false_ne_true, if_pos hmode] at hex
    obtain ⟨ha, ho⟩ := State.complete_begun h hm St.RAS_STATE 0 0 0
    exact Does.of_exec hex ⟨ha, ho []⟩
  · have hex := exec_rasRegionPush (px := px) h
    rw [hok, he, Bool.not_true, if_neg Bool.false_ne_true, if_neg (not_not_intro hmode), 
      State.dsiJoin_push (s := s.begun id) (c := c.begun) px hq (State.cmd_begun_self h) h.2.1] at hex
    have hcong : ((s.begun id).each (pushCommands c px) fun s b => s.emit (.dsi (4 + d - 4) false b)).outs = s.outs :=
      State.each_of_kept State.outs (f := fun (s : State) b => s.emit (.dsi (4 + d - 4) false b)) (fun _ _ => rfl) (s.begun id) _
    have hw : s.Only ((s.begun id).each (pushCommands c px) fun s b => s.emit (.dsi (4 + d - 4) false b)) [] :=
      State.Only.each (fun t x ht => ht.same) (s.only_begun id []) _
    have hout := (s.begun id).each_emit_out (pushCommands c px) fun b => .dsi (4 + d - 4) false b
    refine Does.of_exec hex ⟨?_, hout, hw.same⟩
    exact congrArg OutSt.queue (State.outp_updOut_self _ (hcong ▸ hlen))
  · have hex := exec_rasDcs h
    rw [hok, Bool.not_false, if_pos rfl] at hex
    obtain ⟨ha, ho⟩ := State.complete_begun h hm St.RAS_BAD_REQ 0 0 0
    exact Does.of_exec hex ⟨ha, ho []⟩
  · have hex := exec_rasDcs h
    rw [hok, he, Bool.not_true, if_neg Bool.false_ne_true, if_neg (not_not_intro hmode), 
      State.dsiJoin_write (s := s.begun id) (c := c.begun) hq (State.cmd_begun_self h) h.2.1 h17] at hex
    rw [Nat.add_sub_cancel_left] at hex
    generalize hu : (s.begun id).emit (.dsi d false (bytesAt c.begun.desc 36 (c.begun.h 18))) = u at hex
    have hrun : u.Runs id 0x31 c.begun := ⟨by rw [← hu]; exact State.cmd_begun_self h, h.2.1, rfl⟩
    have hsu : s.Only u [] := by rw [← hu]; exact (s.only_begun id []).same
    obtain ⟨ha, ho⟩ := State.complete_running hrun hm St.OK 0 0 0
    refine Does.of_exec hex ⟨ha.congr rfl, ?_, (hsu.trans (ho [])).same⟩
    exact (State.Apart.out.complete ..).trans (by rw [← hu]; rfl)
  · have hex := exec_rasDcs h
    rw [hok, he, Bool.not_true, if_neg Bool.false_ne_true, if_neg (not_not_intro hmode), 
      State.dsiJoin_read (s := s.begun id) (c := c.begun) hq (State.cmd_begun_self h) h.2.1 h17] at hex
    refine Does.of_exec hex ⟨congrArg OutSt.reading (State.outp_updOut_self _ hlen), rfl, ?_, (s.only_begun id []).same⟩
    rw [Nat.add_sub_cancel_left]
    rfl
  · exact Does.of_exec rfl (State.dcsEnd_reads hlen h hm hr hq St.OK _)
  · exact Does.of_exec rfl (State.dcsEnd_reads hlen h hm hr hq St.RAS_NO_REPLY 0)
  · have hex : exec (.rasPushDone (4 + d)) s = .next ((s.complete id St.OK).updOut (4 + d) fun x => { x with queue := [] }) := by
      change execRasPushDone (4 + d) s = _
      unfold execRasPushDone
      rw [hq]
      dsimp only
      rw [hr]
      rfl
    obtain ⟨ha, ho⟩ := State.complete_running h hm St.OK 0 0 0
    exact Does.of_exec hex ⟨ha.congr rfl, congrArg OutSt.queue (State.outp_updOut_self _ (by rwa [State.Apart.outs.complete])), (ho []).same⟩
  · have hd4 : isDsi (4 + d) = true := by simp [isDsi]
    refine Does.of_exec (exec_dsiSetupSent hd4 h1 (by rw [← Nat.add_assoc]; exact hb)) ?_
    generalize hu : (if boardOk s.sec.board then (boardDsi s.sec.board (4 + d - 4)).foldl (fun (t : State) x => t.emit (.dsi (4 + d - 4) false x)) s
      else (s.wr F.FW_FLAGS_board_cfg_bad 1).raise s.holder Ev.FW_BOARD_CFG_BAD []) = u
    have hmem : u.mem = s.mem := by
      rw [← hu]
      split
      · exact State.each_of_kept State.mem (f := fun (t : State) x => t.emit (.dsi (4 + d - 4) false x)) (fun _ _ => rfl) s _
      · rw [State.raise_mem, State.wr_mem]
    refine ⟨?_, (State.raise_mem ..).trans ((State.wr_mem ..).trans hmem)⟩
    rw [State.dsiMode, State.rd_raise_other _ _ _ _ _ _ _ (by decide), State.rd_wr_self]
    rfl

end Sys2Proof.Machine
end

section
/-! PROOFS. The time base and timecode: what a change of the PTP state sets, and the Sync, announce and LTC commands. -/
namespace Sys2Proof.Machine

set_option Elab.async false

/-- The fields of a locked output and of the audio master that a loss or a return of PTP sets. -/
def followFlds : List Fld :=
  F.RAS_OUT_STATUS_lock_state :: F.RAS_OUT_FLAGS_rephase :: F.RAS_OUT_CNT2_rephase :: F.RAS_OUT_FLAGS_lock_lost
    :: F.RAS_OUT_CNT2_lock_lost :: F.AUD_MASTER_STATUS_state :: F.AUD_FLAGS_master_lost :: F.AUD_CNT_master_lost :: eventFlds

/-- The fields that a change of the PTP state may set (R488, R520, R529). -/
def ptpFlds : List Fld := F.NET_PTP_STATUS_state :: followFlds

theorem State.Apart.net : State.Apart State.net := ⟨State.wr_net, fun _ => rfl, fun _ _ _ => rfl⟩

section
variable {s t : State} {l : List Fld}

theorem State.Within.outAcquire (h : State.Within l s t) (hl : ∀ x ∈ followFlds, x ∈ l) (o : Nat) : State.Within l s (t.outAcquire o) := by
  have hw := (h.wr (f := F.RAS_OUT_STATUS_lock_state) (hl _ (by decide)) 2 o 0).same (u := (t.wr F.RAS_OUT_STATUS_lock_state 2 o).updOut o
    fun x => { x with starts := 0, pulses := 0 })
  exact .ite hw ((hw.flagCount (a := F.RAS_OUT_FLAGS_rephase) (b := F.RAS_OUT_CNT2_rephase) (hl _ (by decide)) (hl _ (by decide)) o).raise
    (fun x hx => hl x (by revert x; decide)) ..)

theorem State.Within.outLost (h : State.Within l s t) (hl : ∀ x ∈ followFlds, x ∈ l) (o : Nat) : State.Within l s (t.outLost o) :=
  .ite (((h.wr (f := F.RAS_OUT_STATUS_lock_state) (hl _ (by decide)) 4 o 0).flagCount (a := F.RAS_OUT_FLAGS_lock_lost)
    (b := F.RAS_OUT_CNT2_lock_lost) (hl _ (by decide)) (hl _ (by decide)) o).raise (fun x hx => hl x (by revert x; decide)) ..) h

theorem State.Within.rasPtp (h : State.Within l s t) (hl : ∀ x ∈ followFlds, x ∈ l) (locked : Bool) : State.Within l s (t.rasPtp locked) :=
  h.each _ fun _ _ hu => .ite (.ite (hu.outAcquire hl _) hu) (hu.outLost hl _)

theorem State.Within.masterFound (h : State.Within l s t) (hl : ∀ x ∈ followFlds, x ∈ l) : State.Within l s t.masterFound :=
  .ite ((h.wr (f := F.AUD_MASTER_STATUS_state) (hl _ (by decide)) 2 0 0).same) h

theorem State.Within.masterLost (h : State.Within l s t) (hl : ∀ x ∈ followFlds, x ∈ l) : State.Within l s t.masterLost :=
  .ite (((h.wr (f := F.AUD_MASTER_STATUS_state) (hl _ (by decide)) 4 0 0).flagCount (a := F.AUD_FLAGS_master_lost) (b := F.AUD_CNT_master_lost)
    (hl _ (by decide)) (hl _ (by decide)) 0).raise (fun x hx => hl x (by revert x; decide)) ..) h

theorem State.Within.audPtp (h : State.Within l s t) (hl : ∀ x ∈ followFlds, x ∈ l) (locked : Bool) : State.Within l s (t.audPtp locked) :=
  .ite (.ite (h.masterFound hl) (h.masterLost hl)) h

theorem State.net_outAcquire (s : State) (o : Nat) : (s.outAcquire o).net = s.net := by
  unfold State.outAcquire
  extract_lets t
  have ht : t.net = s.net := State.wr_net ..
  split
  · exact ht
  · rw [State.Apart.net.raise, State.flagCount, State.bump, State.wr_net, State.wr_net, ht]

theorem State.net_outLost (s : State) (o : Nat) : (s.outLost o).net = s.net := by
  unfold State.outLost
  split
  · rw [State.Apart.net.raise, State.flagCount, State.bump, State.wr_net, State.wr_net, State.wr_net]
  · rfl

theorem State.net_rasPtp (s : State) (locked : Bool) : (s.rasPtp locked).net = s.net :=
  State.each_of_kept State.net
    (f := fun s o => if locked then (if s.lockState o = 1 ∨ s.lockState o = 4 then s.outAcquire o else s) else s.outLost o)
    (fun t o => by
      cases locked
      · exact t.net_outLost o
      · rw [if_pos rfl]
        split
        · exact t.net_outAcquire o
        · rfl) s _

theorem State.net_audPtp (s : State) (locked : Bool) : (s.audPtp locked).net = s.net := by
  unfold State.audPtp State.masterFound State.masterLost
  split
  · split
    · split
      · exact State.wr_net ..
      · rfl
    · split
      · rw [State.Apart.net.raise, State.flagCount, State.bump, State.wr_net, State.wr_net, State.wr_net]
      · rfl
  · rfl

/-- A change of the PTP state sets the state and what follows it: the outputs and the master that are locked to PTP. -/
theorem State.ptpTo_reads (s : State) (n : Nat) (hn : n % 2 ^ F.NET_PTP_STATUS_state.width = n) :
    State.Within ptpFlds s (s.ptpTo n) ∧ (s.ptpTo n).ptpState = n ∧ (s.ptpTo n).net = { s.net with offsets := [], syncs := 0 } := by
  unfold State.ptpTo
  extract_lets t
  have ht : State.Within ptpFlds s t := ((State.Within.refl ptpFlds s).wr (f := F.NET_PTP_STATUS_state) (by decide) n 0 0).same
  have hs : t.ptpState = n := (State.rd_wr_self s F.NET_PTP_STATUS_state n 0 0).trans hn
  have hnet : t.net = { s.net with offsets := [], syncs := 0 } :=
    congrArg (fun x : NetSt => { x with offsets := [], syncs := 0 }) (State.wr_net s F.NET_PTP_STATUS_state n 0 0)
  clear_value t
  split
  · exact ⟨ht, hs, hnet⟩
  · refine ⟨(ht.rasPtp (by decide) _).audPtp (by decide) _, ?_, ?_⟩
    · have hw := (((State.Within.refl followFlds t).rasPtp (fun _ h => h) (n == 3)).audPtp (fun _ h => h) (n == 3)).rd F.NET_PTP_STATUS_state 0 0
        (by decide)
      exact hw.trans hs
    · rw [State.net_audPtp, State.net_rasPtp, hnet]

end

section
variable {s : State} {offset : Int}

/-- The state a Sync is judged on: the offset is published before anything else (R529). -/
def State.synced (s : State) (offset : Int) : State := s.wr F.NET_PTP_OFFSET_value (ofSigned 32 offset)

theorem exec_ptpSyncReceive_listening (h0 : s.ptpState = 1 ∨ s.ptpState = 4) (hm : s.net.master.isSome = true) (hl : 3 ≤ s.net.offsets.length) :
    exec (.ptpSyncReceive offset) s = if s.ptpState = 1 ∧ s.net.armed = true ∧ 2000 < (middle2 (s.net.offsets ++ [offset])).natAbs then
        .next (((((((s.synced offset).ptpStep (openRound 15 (middle2 (s.net.offsets ++ [offset]), 2))).updNet fun x => { x with armed := false }).wr
          F.NET_PTP_STATUS_stepped 1).wr F.NET_FLAGS_step 1).raise 1 Ev.PTP_STEP []).ptpTo 2)
      else .next ((s.synced offset).ptpTo 2) := by
  change execPtpSyncReceive offset s = _
  unfold execPtpSyncReceive
  extract_lets st w s1 l
  have hlen : ¬ l.length < 4 := by simp only [l, List.length_append, List.length_singleton]; omega
  rw [if_neg (show ¬ st = 0 by rcases h0 with h | h <;> simp [st, h]), if_pos h0,
    if_neg (by rw [Option.isNone_eq_false_iff.mpr hm]; exact Bool.false_ne_true), if_neg hlen]
  rfl

theorem exec_ptpSyncReceive_tracking (h : s.ptpState = 2) : exec (.ptpSyncReceive offset) s =
    if 16 ≤ (if offset.natAbs ≤ s.rd F.NET_PTP_SERVO_lock_ns then s.net.syncs + 1 else 0) then
      .next (((s.synced offset).ptpTo 3).raise 1 Ev.PTP_LOCKED [])
    else .next ((s.synced offset).updNet fun x =>
      { x with syncs := if offset.natAbs ≤ s.rd F.NET_PTP_SERVO_lock_ns then s.net.syncs + 1 else 0 }) := by
  change execPtpSyncReceive offset s = _
  unfold execPtpSyncReceive
  extract_lets st w s1 l n
  have hst : st = 2 := h
  rw [if_neg (by rw [hst]; decide), if_neg (by rw [hst]; decide), if_pos hst]
  rfl

theorem exec_ptpSyncReceive_locked (h : s.ptpState = 3) : exec (.ptpSyncReceive offset) s =
    if 4 ≤ (if 4 * s.rd F.NET_PTP_SERVO_lock_ns < offset.natAbs then s.net.syncs + 1 else 0) then
      .next (((s.synced offset).ptpTo 2).raise 1 Ev.PTP_OFFSET [])
    else .next ((s.synced offset).updNet fun x =>
      { x with syncs := if 4 * s.rd F.NET_PTP_SERVO_lock_ns < offset.natAbs then s.net.syncs + 1 else 0 }) := by
  change execPtpSyncReceive offset s = _
  unfold execPtpSyncReceive
  extract_lets st w s1 l _ n
  have hst : st = 3 := h
  rw [if_neg (by rw [hst]; decide), if_neg (by rw [hst]; decide), if_neg (by rw [hst]; decide)]
  rfl

end

/-- The step that R530 takes while armed, before the state changes. -/
def State.ptpStepped (s : State) (offset : Int) (n : Int) : State :=
  (((((s.synced offset).ptpStep n).updNet fun x => { x with armed := false }).wr F.NET_PTP_STATUS_stepped 1).wr F.NET_FLAGS_step 1).raise 1
    Ev.PTP_STEP []

theorem State.ptpStepped_reads (s : State) (offset n : Int) : State.Within (F.NET_PTP_OFFSET_value :: F.NET_PTP_STATUS_stepped :: F.NET_FLAGS_step
      :: eventFlds) s (s.ptpStepped offset n) ∧ (s.ptpStepped offset n).rd F.NET_PTP_OFFSET_value = ofSigned 32 offset % 2 ^ F.NET_PTP_OFFSET_value.width
    ∧ (s.ptpStepped offset n).rd F.NET_PTP_STATUS_stepped = 1 ∧ (s.ptpStepped offset n).rd F.NET_FLAGS_step = 1
    ∧ (s.ptpStepped offset n).net.armed = false := by
  unfold State.ptpStepped
  have h1 : State.Within (F.NET_PTP_OFFSET_value :: F.NET_PTP_STATUS_stepped :: F.NET_FLAGS_step :: eventFlds) s (((s.synced offset).ptpStep n).updNet
      fun x => { x with armed := false }) := ((State.Within.refl _ s).wr (f := F.NET_PTP_OFFSET_value) (by decide) _ 0 0).same
  have ho : (((s.synced offset).ptpStep n).updNet fun x => { x with armed := false }).rd F.NET_PTP_OFFSET_value
      = ofSigned 32 offset % 2 ^ F.NET_PTP_OFFSET_value.width := State.rd_wr_self s F.NET_PTP_OFFSET_value _ 0 0
  have hnet : (((s.synced offset).ptpStep n).updNet fun x => { x with armed := false }).net.armed = false := rfl
  generalize ((s.synced offset).ptpStep n).updNet (fun x => { x with armed := false }) = u at h1 ho hnet
  refine ⟨((h1.wr (f := F.NET_PTP_STATUS_stepped) (by decide) 1 0 0).wr (f := F.NET_FLAGS_step) (by decide) 1 0 0).raise (by decide) .., ?_, ?_, ?_, ?_⟩
  · simp (disch := decide) only [State.rd_raise_other, State.rd_wr_other]
    exact ho
  · simp (disch := decide) only [State.rd_raise_other, State.rd_wr_other]
    exact State.rd_wr_self u F.NET_PTP_STATUS_stepped 1 0 0
  · rw [State.rd_raise_other _ _ _ _ _ _ _ (by decide)]
    exact State.rd_wr_self _ F.NET_FLAGS_step 1 0 0
  · rw [State.Apart.net.raise, State.wr_net, State.wr_net]
    exact hnet

/-- The fourth offset of a listening time base ends in TRACK, with or without the step. -/
theorem ptpSync_listening {s : State} {offset : Int} (h0 : s.ptpState = 1 ∨ s.ptpState = 4) (hm : s.net.master.isSome = true)
    (hl : 3 ≤ s.net.offsets.length) : Does (.ptpSyncReceive offset) s fun t => t.ptpState = 2
      ∧ t.rd F.NET_PTP_OFFSET_value = ofSigned 32 offset % 2 ^ F.NET_PTP_OFFSET_value.width ∧ t.mem = s.mem := by
  by_cases hc : s.ptpState = 1 ∧ s.net.armed = true ∧ 2000 < (middle2 (s.net.offsets ++ [offset])).natAbs
  · refine Does.of_exec ((exec_ptpSyncReceive_listening h0 hm hl).trans (if_pos hc)) ?_
    obtain ⟨hw, ho, -⟩ := s.ptpStepped_reads offset (openRound 15 (middle2 (s.net.offsets ++ [offset]), 2))
    obtain ⟨hp, hs, -⟩ := (s.ptpStepped offset (openRound 15 (middle2 (s.net.offsets ++ [offset]), 2))).ptpTo_reads 2 (by decide)
    exact ⟨hs, (hp.rd _ _ _ (by decide)).trans ho, hp.mem.trans hw.mem⟩
  · refine Does.of_exec ((exec_ptpSyncReceive_listening h0 hm hl).trans (if_neg hc)) ?_
    obtain ⟨hp, hs, -⟩ := (s.synced offset).ptpTo_reads 2 (by decide)
    exact ⟨hs, (hp.rd _ _ _ (by decide)).trans (State.rd_wr_self s F.NET_PTP_OFFSET_value _ 0 0), hp.mem.trans (State.wr_mem ..)⟩

theorem ptpSync_steps {s : State} {offset : Int} (h1 : s.ptpState = 1) (hm : s.net.master.isSome = true) (ha : s.net.armed = true)
    (hb : 2000 < (middle2 (s.net.offsets ++ [offset])).natAbs) (hl : s.net.offsets.length = 3) : Does (.ptpSyncReceive offset) s fun t =>
      t.rd F.NET_PTP_STATUS_stepped = 1 ∧ t.rd F.NET_FLAGS_step = 1 ∧ t.net.armed = false := by
  refine Does.of_exec ((exec_ptpSyncReceive_listening (.inl h1) hm (Nat.le_of_eq hl.symm)).trans (if_pos ⟨h1, ha, hb⟩)) ?_
  obtain ⟨-, -, hstep, hflag, harm⟩ := s.ptpStepped_reads offset (openRound 15 (middle2 (s.net.offsets ++ [offset]), 2))
  obtain ⟨hp, -, hnet⟩ := (s.ptpStepped offset (openRound 15 (middle2 (s.net.offsets ++ [offset]), 2))).ptpTo_reads 2 (by decide)
  exact ⟨(hp.rd _ _ _ (by decide)).trans hstep, (hp.rd _ _ _ (by decide)).trans hflag, (congrArg NetSt.armed hnet).trans harm⟩

/-- A change of the PTP state reported by an event, on a state whose half is awake. -/
theorem State.ptpTo_reported {s u : State} (hu : State.Within (F.NET_PTP_OFFSET_value :: eventFlds) s u) (n code : Nat)
    (hn : n % 2 ^ F.NET_PTP_STATUS_state.width = n) :
    ((u.ptpTo n).raise 1 code []).ptpState = n ∧ ((u.ptpTo n).raise 1 code []).mem = s.mem
      ∧ (s.quiet 1 = false → ∃ r ∈ ((u.ptpTo n).raise 1 code []).host.records, r.event = true ∧ r.tag = code) := by
  obtain ⟨hp, hs, -⟩ := u.ptpTo_reads n hn
  refine ⟨(State.rd_raise_other _ _ _ _ _ _ _ (by decide)).trans hs, (State.raise_mem ..).trans (hp.mem.trans hu.mem), fun hq => ?_⟩
  have hq' : (u.ptpTo n).quiet 1 = false :=
    (State.quiet_of_rd (hp.quiet (by decide)) 1).trans ((State.quiet_of_rd (hu.quiet (by decide)) 1).trans hq)
  obtain ⟨r, hr, he, ht, -⟩ := (u.ptpTo n).raise_awake 1 code [] hq'
  exact ⟨r, by rw [hr]; exact List.mem_append_right _ (List.mem_singleton_self r), he, ht⟩

theorem State.synced_within (s : State) (offset : Int) : State.Within (F.NET_PTP_OFFSET_value :: eventFlds) s (s.synced offset) :=
  (State.Within.refl _ s).wr (f := F.NET_PTP_OFFSET_value) (by decide) _ 0 0

/-- Settles O55: each clause is a branch of its command, read through what a change of the PTP state sets. -/
theorem timeBaseAndTimecode : Obligations.TimeBaseAndTimecode := by
  unfold Obligations.TimeBaseAndTimecode
  refine ⟨fun s => ⟨fun offset h0 hm hl => ptpSync_listening h0 hm hl, fun offset h1 hm hl ha hb hl' => ptpSync_steps h1 hm ha hb hl',
    fun offset h hw hn hq => ?_, fun offset h hw => ?_, fun offset h hw hn => ?_, fun a h hd hm => ?_, fun a m h hd hm hi hb => ?_,
    fun h hq => ?_, fun h => ?_, fun hk ho hl hs => ?_, fun count hs hr hw => ?_, fun hs hh => ?_, fun hr hw => ?_⟩,
    fun s => ⟨fun h => if_pos h, fun h2 h3 => if_neg (by rintro (h | h) <;> contradiction), fun hk ho hl => ?_, fun hs hh => if_pos ⟨hs, hh⟩⟩⟩
  · refine Does.of_exec ((exec_ptpSyncReceive_tracking h).trans (if_pos (by rw [if_pos hw]; omega))) ?_
    obtain ⟨hst, hmem, hrec⟩ := State.ptpTo_reported (s.synced_within offset) 3 Ev.PTP_LOCKED (by decide)
    exact ⟨hst, hrec hq, hmem⟩
  · have hw' : ¬ offset.natAbs ≤ s.rd F.NET_PTP_SERVO_lock_ns := Nat.not_le.mpr hw
    refine Does.of_exec ((exec_ptpSyncReceive_tracking h).trans (if_neg (by rw [if_neg hw']; decide))) ?_
    refine ⟨?_, if_neg hw', ((State.Only.refl s _).wr F.NET_PTP_OFFSET_value _ 0 0 (by decide)).same⟩
    exact (State.rd_wr_other s F.NET_PTP_OFFSET_value F.NET_PTP_STATUS_state _ 0 0 0 0 (by decide)).trans h
  · refine Does.of_exec ((exec_ptpSyncReceive_locked h).trans (if_pos (by rw [if_pos hw]; omega))) ?_
    obtain ⟨hst, hmem, -⟩ := State.ptpTo_reported (s.synced_within offset) 2 Ev.PTP_OFFSET (by decide)
    exact ⟨hst, hmem⟩
  · refine Does.of_exec (t := s.updNet fun x => { x with master := some (dataset a), utc := a.utcOffset, tlv := a.tlv }) ?_
      ⟨rfl, rfl, rfl, (State.Only.refl s _).same⟩
    change execPtpAnnounceReceive a s = _
    unfold execPtpAnnounceReceive
    rw [if_neg (by rintro (h' | h') <;> contradiction), hm]
    rfl
  · change execPtpAnnounceReceive a s = _
    unfold execPtpAnnounceReceive
    rw [if_neg (by rintro (h' | h') <;> contradiction), hm]
    dsimp only
    rw [beq_eq_false_iff_ne.mpr hi, hb]
    rfl
  · refine Does.of_exec (show exec .ptpAnnounceTimeout s = .next (((s.updNet fun x => { x with master := none, tlv := none }).ptpTo 4).raise 1
      Ev.PTP_HOLDOVER []) from if_pos h) ?_
    obtain ⟨hst, hmem, hrec⟩ := State.ptpTo_reported (s := s) (u := s.updNet fun x => { x with master := none, tlv := none })
      (State.Within.refl _ s).same 4 Ev.PTP_HOLDOVER (by decide)
    refine ⟨hst, ?_, hrec hq, hmem⟩
    rw [State.Apart.net.raise, (State.ptpTo_reads _ 4 (by decide)).2.2]
    rfl
  · exact if_pos (by rw [h]; rfl)
  · refine Does.of_exec (t := ((s.updNet fun x => { x with armed := true }).wr F.NET_PTP_STATUS_stepped 0).ptpTo 1) ?_ ?_
    · refine (if_neg (by rw [hk, ho, beq_eq_false_iff_ne.mpr hl]; decide)).trans (congrArg Host.Outcome.next ?_)
      exact if_neg hs
    · obtain ⟨hp, hst, hnet⟩ := ((s.updNet fun x => { x with armed := true }).wr F.NET_PTP_STATUS_stepped 0).ptpTo_reads 1 (by decide)
      refine ⟨hst, ?_, (hp.rd _ _ _ (by decide)).trans (State.rd_wr_self _ F.NET_PTP_STATUS_stepped 0 0 0), hp.mem.trans (State.wr_mem ..)⟩
      rw [hnet, State.wr_net]
      rfl
  · exact Does.of_exec (show exec (.netLtcFrameReceive count true) s = .next (s.updNet fun x =>
      { x with tcCount := count % tcDay (s.rd F.NET_TC_CFG_rate), tcHeld := false }) from if_pos ⟨hs, rfl, hr, hw⟩)
      ⟨rfl, rfl, (State.Only.refl s _).same⟩
  · refine Does.of_exec (show exec .netLtcFreewheelExpire s = .next (((s.updNet fun x => { x with tcHeld := true }).flagCount F.NET_FLAGS_ltc_lost
      F.NET_CNT_ltc_lost).raise 1 Ev.NET_LTC_LOST []) from if_pos ⟨hs, hh⟩) ?_
    generalize hu : s.updNet (fun x => { x with tcHeld := true }) = u
    have hn : u.net.tcHeld = true := by rw [← hu]; rfl
    have hw : State.Within (F.NET_FLAGS_ltc_lost :: F.NET_CNT_ltc_lost :: eventFlds) s u := by rw [← hu]; exact (State.Within.refl _ s).same
    have hr : u.host.records = s.host.records := by rw [← hu]; rfl
    have hf := hw.flagCount (a := F.NET_FLAGS_ltc_lost) (b := F.NET_CNT_ltc_lost) (by decide) (by decide) 0
    refine ⟨?_, ?_, ?_, ?_⟩
    · rw [State.Apart.net.raise, State.flagCount, State.bump, State.wr_net, State.wr_net]
      exact hn
    · rw [State.rd_raise_other _ _ _ _ _ _ _ (by decide)]
      exact State.rd_flagCount_flag u _ _ 0 (by decide)
    · exact State.Raised.of_same (t := u.flagCount F.NET_FLAGS_ltc_lost F.NET_CNT_ltc_lost)
        ((congrArg HostSt.records (by rw [State.flagCount, State.bump, State.wr_host, State.wr_host])).trans hr) (hf.quiet (by decide)) rfl
    · exact (State.raise_mem ..).trans hf.mem
  · exact Does.of_exec (show exec .ltcOutFrameStart s = .next ((s.emit (.ltcFrame (tcBcd (tcLabel (s.rd F.NET_TC_CFG_rate) s.timecode)))).tick) from
      if_pos (by rw [hr, hw]; rfl)) ⟨rfl, (State.Only.refl s _).same⟩
  · exact if_neg (by rw [hk, ho, beq_eq_false_iff_ne.mpr hl]; decide)

end Sys2Proof.Machine
end

section
/-! PROOFS. Network frames and senders: the end of a frame, the link, and what a sender's packet and its set touch. -/
namespace Sys2Proof.Machine

set_option Elab.async false

/-! ### Frames of the host -/

theorem State.raise_cmds (s : State) (half code : Nat) (p : List Byte) : (s.raise half code p).host.cmds = s.host.cmds := by
  obtain ⟨r, -, e⟩ := s.raise_eq half code p
  rw [e]
  split
  · rw [State.dropRecord, State.updHost_host, State.bump, State.wr_host, State.wr_host, State.tick_host, State.wr_host]
  · rw [State.updHost_host, State.tick_host, State.wr_host]

theorem State.raise_cmd (s : State) (half code : Nat) (p : List Byte) (id : Nat) : (s.raise half code p).cmd id = s.cmd id := by
  rw [State.cmd, State.raise_cmds, State.cmd]

/-- The queue of NET_SEND has no place, or the command may begin (R531). -/
theorem exec_netSend {s : State} {id : Nat} {c : Cmd} (data : List Byte) (h : s.Waits id 0x38 c)
    (hw : (sendOk c && !(bitOf (c.b 17) 1 && decide (s.now + 1000000000 < c.launch)) && s.on F.NET_PORT_STATUS_link (c.b 16)
      && decide (64 ≤ (s.awaiting (c.b 16)).length)) = false) :
    exec (.netSend id data) s = .next (
      if !sendOk c then (s.begun id).complete id St.NET_BAD_REQ 0 0 1
      else if !s.on F.NET_PORT_STATUS_link (c.b 16) then (s.begun id).complete id St.NET_LINK_DOWN 0 0 1
      else if bitOf (c.b 17) 1 && decide (s.now + 1000000000 < c.launch) then (s.begun id).tick.complete id St.NET_TOO_FAR 0 0 1
      else (s.begun id).tick.updNet fun x => { x with frames := x.frames ++
        [{ cmd := id, port := c.b 16, stamped := bitOf (c.b 17) 0, stampId := c.h 18, launch := bitOf (c.b 17) 1,
           data := bytesAt data 0 (c.w 20), started := false, late := false }] }) := by
  change execNetSend id data s = _
  unfold execNetSend
  rw [h.1]
  dsimp only
  rw [hw, if_neg Bool.false_ne_true, State.startCmd_eq_begun _ h]
  rfl

theorem exec_netFrameLaunch {s : State} {id : Nat} {f : TxFrame} (late : Bool) (hf : s.net.frames.find? (fun f => f.cmd == id && !f.started) = some f)
    (hb : s.net.frames.any (fun g => g.port == f.port && g.started) = false)
    (hfirst : (f.launch || ((s.awaiting f.port).find? fun g => !g.launch).map TxFrame.cmd == some id) = true) (hw : s.takesWork (0x78 + f.port) = true) :
    exec (.netFrameLaunch id late) s = .next ((s.updNet fun x => { x with frames := x.frames.map fun g =>
      if g.cmd = id then { g with started := true, late := late && f.launch } else g }).emit (.netFrame f.port (f.data ++ le 4 (fcs f.data)))) := by
  change execNetFrameLaunch id late s = _
  unfold execNetFrameLaunch
  rw [hf]
  dsimp only
  rw [hb, hfirst, hw]
  rfl

/-- The frame taken from those waiting, and its stamp queued, or counted as lost (R534). -/
def State.frameStamped (s : State) (f : TxFrame) : State :=
  let t := s.updNet fun x => { x with frames := x.frames.filter fun g => g.cmd ≠ f.cmd }
  if !f.stamped then t
  else if t.net.txts.length < 64 then (t.updNet fun x => { x with txts := x.txts ++ [(f.port, f.stampId, s.now)] }).tick
  else (t.flagCount F.NET_FLAGS_txts_overflow F.NET_CNT_txts_overflow).raise 1 Ev.NET_TXTS_OVERFLOW (le 1 f.port ++ le 2 f.stampId)

theorem State.frameSent_eq (s : State) (f : TxFrame) : s.frameSent f = (s.frameStamped f).complete f.cmd St.OK (b2n f.late) 0 1 := rfl

theorem State.frameStamped_reads (s : State) (f : TxFrame) : (s.frameStamped f).net.frames = s.net.frames.filter (fun g => g.cmd ≠ f.cmd)
    ∧ (s.frameStamped f).mem = s.mem ∧ (s.frameStamped f).host.cmds = s.host.cmds := by
  unfold State.frameStamped
  extract_lets t
  have hn : t.net.frames = s.net.frames.filter (fun g => g.cmd ≠ f.cmd) := rfl
  have hm : t.mem = s.mem := rfl
  have hc : t.host.cmds = s.host.cmds := rfl
  clear_value t
  split
  · exact ⟨hn, hm, hc⟩
  · split
    · exact ⟨hn, hm, hc⟩
    · refine ⟨?_, ?_, ?_⟩
      · rw [State.Apart.net.raise, State.flagCount, State.bump, State.wr_net, State.wr_net, hn]
      · rw [State.raise_mem, State.flagCount, State.bump, State.wr_mem, State.wr_mem, hm]
      · rw [State.raise_cmds, State.flagCount, State.bump, State.wr_host, State.wr_host, hc]

theorem netFrameTxDone_answers {s : State} {id : Nat} {c : Cmd} {f : TxFrame} (hm : c.mute = false)
    (hf : s.net.frames.find? (fun f => f.cmd == id && f.started) = some f) (h : s.Runs id 0x38 c) :
    Does (.netFrameTxDone id) s fun t => t.Answered c St.OK (b2n f.late) 0 ∧ t.net.frames = s.net.frames.filter (fun g => g.cmd ≠ id) ∧ t.mem = s.mem := by
  have hid : f.cmd = id := by simpa using (Bool.and_eq_true_iff.mp (List.find?_some (p := fun f : TxFrame => f.cmd == id && f.started) hf)).1
  obtain ⟨hfr, hmem, hcmds⟩ := s.frameStamped_reads f
  have hex : exec (.netFrameTxDone id) s = .next (s.frameSent f) := by
    change execNetFrameTxDone id s = _
    unfold execNetFrameTxDone
    rw [hf]
  have hrun : (s.frameStamped f).Runs id 0x38 c := ⟨by rw [State.cmd, hcmds]; exact h.1, h.2⟩
  obtain ⟨ha, ho⟩ := State.complete_running hrun hm St.OK (b2n f.late) 0 1
  refine Does.of_exec hex ?_
  rw [State.frameSent_eq, hid]
  exact ⟨ha, (congrArg NetSt.frames (State.Apart.net.complete ..)).trans (by rw [hfr, hid]), (ho []).1.trans hmem⟩

/-- A link change is published, counted and reported, and a link that went down ends the frames that wait for it (R532). -/
theorem State.linkChanged_reads (s : State) (port : Nat) (up : Bool) : (s.linkChanged port up).rd F.NET_PORT_STATUS_link port = b2n up
    ∧ (s.linkChanged port up).rd F.NET_FLAGS_link_change = 1
    ∧ (up = false → (s.linkChanged port up).net.frames = s.net.frames.filter fun f => f.port ≠ port || f.started)
    ∧ (s.linkChanged port up).mem = s.mem := by
  unfold State.linkChanged
  extract_lets t
  have hlink : t.rd F.NET_PORT_STATUS_link port = b2n up := by
    simp only [t]
    rw [State.rd_raise_other _ _ _ _ _ _ _ (by decide), State.rd_flagCount_other _ _ _ _ _ _ _ (by decide),
      State.rd_wr_self s F.NET_PORT_STATUS_link _ port 0]
    cases up <;> rfl
  have hflag : t.rd F.NET_FLAGS_link_change = 1 := by
    simp only [t]
    rw [State.rd_raise_other _ _ _ _ _ _ _ (by decide)]
    exact State.rd_flagCount_flag _ _ _ 0 (by decide)
  have hnet : t.net = s.net := by
    simp only [t]
    rw [State.Apart.net.raise, State.flagCount, State.bump, State.wr_net, State.wr_net, State.wr_net]
  have hmem : t.mem = s.mem := by
    simp only [t]
    rw [State.raise_mem, State.flagCount, State.bump, State.wr_mem, State.wr_mem, State.wr_mem]
  clear_value t
  cases up with
  | true => exact ⟨hlink, hflag, fun h => absurd h (by decide), hmem⟩
  | false =>
    rw [if_neg Bool.false_ne_true]
    have hw : State.Within commandFlds t (((s.awaiting port).foldl (fun (s : State) f => s.complete f.cmd St.NET_LINK_DOWN 0 0 1)
        (t.updNet fun x => { x with frames := x.frames.filter fun f => f.port ≠ port || f.started }))) :=
      State.Within.each (f := fun (s : State) (f : TxFrame) => s.complete f.cmd St.NET_LINK_DOWN 0 0 1) (State.Within.refl commandFlds t).same _
        fun _ _ hu => hu.complete (fun _ h => h) ..
    refine ⟨(hw.rd _ _ _ (by decide)).trans hlink, (hw.rd _ _ _ (by decide)).trans hflag, fun _ => ?_, hw.mem.trans hmem⟩
    have hk := State.each_of_kept State.net (f := fun (s : State) (f : TxFrame) => s.complete f.cmd St.NET_LINK_DOWN 0 0 1)
      (fun _ _ => State.Apart.net.complete ..) (t.updNet fun x => { x with frames := x.frames.filter fun f => f.port ≠ port || f.started })
      (s.awaiting port)
    exact (congrArg NetSt.frames hk).trans (congrArg (fun x : NetSt => x.frames.filter fun f : TxFrame => decide (f.port ≠ port) || f.started) hnet)

theorem exec_netLinkChange {s : State} {port : Nat} {up : Bool} (h : s.on F.NET_PORT_STATUS_link port ≠ up)
    (hup : up = true → s.on F.NET_PORT_CFG_enable port = true ∧ s.takesWork (0x78 + port) = true) :
    exec (.netLinkChange port up) s = .next (s.linkChanged port up) := by
  refine congrArg Host.Outcome.next (if_neg ?_)
  cases up with
  | false => simpa using h
  | true =>
    obtain ⟨he, hw⟩ := hup rfl
    simpa [he, hw] using h

/-! ### Senders -/

section
variable {s : State} {n : Nat}

theorem State.snd_updSnd_self (s : State) {n : Nat} (f : SndSt → SndSt) (h : n < s.net.snds.length) : (s.updSnd n f).snd n = f (s.snd n) :=
  updAt_getD_self s.net.snds n f SndSt.init h

/-- A packet moves only the sequence number, and shows the packet on each of the sender's ports (R540). -/
theorem State.sendPacket_reads (hn : n < s.net.snds.length) (ts : Nat) (m : Bool) (data : List Byte) (l : List (Fld × Nat)) :
    s.Only (s.sendPacket n ts m data) l ∧ (s.sendPacket n ts m data).snd n = { s.snd n with seq := (s.snd n).seq + 1 }
      ∧ (s.sendPacket n ts m data).net.snds.length = s.net.snds.length := by
  unfold State.sendPacket
  extract_lets q t
  have hnet : t.net = s.net := State.each_of_kept State.net (f := fun s p =>
    s.emit (.mediaPacket n p (groupMac (regOf (s.snd n).inForce F.NET_SND_DST_value n)) (q % 65536) ts m (s.packetHead n p) data)) (fun _ _ => rfl) s _
  have ho : s.Only t l := State.Only.each (fun _ _ h => h.same) (State.Only.refl s l) _
  clear_value t
  refine ⟨ho.same, ?_, ?_⟩
  · rw [State.snd_updSnd_self t _ (hnet ▸ hn), State.snd, hnet]
    rfl
  · exact (updAt_length ..).trans (congrArg (fun x : NetSt => x.snds.length) hnet)

/-- Letting the picture go keeps everything of the sender but the hold. -/
theorem State.sndRelease_reads (s : State) (n : Nat) (l : List (Fld × Nat)) : s.Only (s.sndRelease n) l
    ∧ ((s.sndRelease n).snd n).packet = (s.snd n).packet ∧ ((s.sndRelease n).snd n).seq = (s.snd n).seq
    ∧ (s.sndRelease n).net.snds.length = s.net.snds.length := by
  unfold State.sndRelease
  split
  · exact ⟨State.Only.refl s l, rfl, rfl, rfl⟩
  · next p _ =>
    split
    · exact ⟨(State.Only.refl s l).same, updAt_getD_of_kept SndSt.packet s.net.snds n n _ SndSt.init fun _ => rfl,
        updAt_getD_of_kept SndSt.seq s.net.snds n n _ SndSt.init fun _ => rfl, updAt_length ..⟩
    · exact ⟨State.Only.refl s l, rfl, rfl, rfl⟩

theorem State.videoPacket_reads (hn : n < s.net.snds.length) (hc : (s.snd n).cut = false)
    (hp : (s.snd n).packet < (formatOf (sndFormat (s.snd n).inForce n)).2.1 * sndLinePackets (s.snd n).inForce n) :
    ((s.videoPacket n).snd n).packet = (s.snd n).packet + 1 ∧ ((s.videoPacket n).snd n).seq = (s.snd n).seq + 1
      ∧ s.Only (s.videoPacket n) [(F.NET_SND_CNT_frames, n)] := by
  unfold State.videoPacket
  extract_lets d r g per pkt total k y off body head t
  rw [if_neg (show ¬ (total ≤ k ∨ d.cut = true) from by rw [show d.cut = false from hc, show k = (s.snd n).packet from rfl]; simpa [total] using hp)]
  obtain ⟨ho, hs, hlen⟩ := State.sendPacket_reads (s := s) hn (ts90 d.stamp) (k + 1 == total) (head ++ body) [(F.NET_SND_CNT_frames, n)]
  have ht : t.snd n = { s.snd n with seq := (s.snd n).seq + 1, packet := k + 1 } := by
    simp only [t]
    rw [State.snd_updSnd_self _ _ (hlen ▸ hn), hs]
  have hot : s.Only t [(F.NET_SND_CNT_frames, n)] := ho.same
  clear_value t
  split
  · obtain ⟨hro, hrp, hrs, -⟩ := (t.bump F.NET_SND_CNT_frames n).sndRelease_reads n [(F.NET_SND_CNT_frames, n)]
    have hb : (t.bump F.NET_SND_CNT_frames n).snd n = t.snd n := by rw [State.snd, State.bump, State.wr_net, State.snd]
    exact ⟨hrp.trans (by rw [hb, ht]), hrs.trans (by rw [hb, ht]), (hot.bump F.NET_SND_CNT_frames n 0 1 (by simp)).trans hro⟩
  · exact ⟨by rw [ht], by rw [ht], hot⟩

theorem State.nalPacket_reads (hn : n < s.net.snds.length) {u : ScNal}
    (hu : (s.sc (regOf (s.snd n).inForce F.NET_SND_CTRL_source n)).nals.find? (fun u => u.live.contains n) = some u) :
    ((s.nalPacket n).snd n).seq = (s.snd n).seq + 1 ∧ s.Only (s.nalPacket n) [(F.NET_SND_CNT_frames, n)] := by
  have keep : ∀ (t : State) (f : SndSt → SndSt), (∀ x, (f x).seq = x.seq) → ((t.updSnd n f).snd n).seq = (t.snd n).seq := fun t f hf =>
    updAt_getD_of_kept SndSt.seq t.net.snds n n f SndSt.init hf
  generalize hv : s.nalPacket n = v
  unfold State.nalPacket at hv
  extract_lets d x pkt at hv
  rw [hu] at hv
  dsimp -zeta only at hv
  extract_lets nal single body piece fin kind fu t t1 at hv
  obtain ⟨ho, hs, -⟩ := State.sendPacket_reads (s := s) hn (ts90 u.stamp) (fin && u.last) (if single then nal else fu ++ piece) [(F.NET_SND_CNT_frames, n)]
  have hot : s.Only t [(F.NET_SND_CNT_frames, n)] := ho
  have hst : (t.snd n).seq = (s.snd n).seq + 1 := congrArg SndSt.seq hs
  have ht1 : (t1.snd n).seq = (s.snd n).seq + 1 := (keep t (fun d => { d with sent := 0 }) fun _ => rfl).trans hst
  have hot1 : s.Only t1 [(F.NET_SND_CNT_frames, n)] := hot.same
  clear_value t1 t
  subst hv
  split
  · split
    · exact ⟨(congrArg (fun x : NetSt => (x.snds.getD n SndSt.init).seq) (State.wr_net ..)).trans ht1, hot1.bump F.NET_SND_CNT_frames n 0 1 (by simp)⟩
    · exact ⟨ht1, hot1⟩
  · exact ⟨(keep t (fun d => { d with sent := d.sent + piece.length }) fun _ => rfl).trans hst, hot.same⟩

theorem State.soundPacket_reads (hn : n < s.net.snds.length) (hm : (s.snd n).stamp + sndSamples (s.snd n).inForce n + 16 ≤ s.aud.count) :
    ((s.soundPacket n).snd n).seq = (s.snd n).seq + 1
      ∧ ((s.soundPacket n).snd n).stamp = (s.snd n).stamp + sndSamples (s.snd n).inForce n ∧ s.Only (s.soundPacket n) [(F.NET_SND_STATUS_unlocked, n)] := by
  unfold State.soundPacket
  extract_lets d r m t data
  rw [if_pos (show d.stamp + m + 16 ≤ s.aud.count from hm)]
  have hnet : t.net = s.net := State.wr_net ..
  have hot : s.Only t [(F.NET_SND_STATUS_unlocked, n)] := (State.Only.refl s _).wr F.NET_SND_STATUS_unlocked _ n 0 (by simp)
  clear_value t
  obtain ⟨ho, hs, hlen⟩ := State.sendPacket_reads (s := t) (hnet ▸ hn) (Config.sampleTime d.stamp).toNat false data [(F.NET_SND_STATUS_unlocked, n)]
  have ht : t.snd n = s.snd n := congrArg (fun x : NetSt => x.snds.getD n SndSt.init) hnet
  have he : ((t.sendPacket n (Config.sampleTime d.stamp).toNat false data).updSnd n fun d => { d with stamp := d.stamp + m }).snd n
      = { s.snd n with seq := (s.snd n).seq + 1, stamp := (s.snd n).stamp + m } := by
    rw [State.snd_updSnd_self _ _ (by rw [hlen, hnet]; exact hn), hs, ht]
  exact ⟨by rw [he], by rw [he], (hot.trans ho).same⟩

/-- Stopping a sender ends its packets and its picture, and no other sender's. -/
theorem State.sndStop_reads (s : State) (n : Nat) : (s.sndStop n).rd F.NET_SND_STATUS_running n = 0
    ∧ (s.sndStop n).net.snds.length = s.net.snds.length ∧ (s.sndStop n).mem = s.mem := by
  unfold State.sndStop
  extract_lets x t
  obtain ⟨ho, -, -, hlen⟩ := s.sndRelease_reads n []
  have hrd : t.rd F.NET_SND_STATUS_running n = 0 := State.rd_wr_self (s.sndRelease n) F.NET_SND_STATUS_running 0 n 0
  have hl : t.net.snds.length = s.net.snds.length :=
    (updAt_length ..).trans ((congrArg (fun x : NetSt => x.snds.length) (State.wr_net ..)).trans hlen)
  have hm : t.mem = s.mem := (State.wr_mem ..).trans ho.1
  clear_value t
  split
  · exact ⟨hrd, hl, hm⟩
  · exact ⟨hrd, hl, hm⟩

/-- A set that does not enable its sender is in force and leaves it stopped. -/
theorem State.sndApply_reads (hn : n < s.net.snds.length) {r : RegStore} (he : regOn r F.NET_SND_CTRL_enable n = false) :
    ((s.sndApply n r).snd n).inForce = r ∧ (s.sndApply n r).rd F.NET_SND_STATUS_running n = 0 ∧ (s.sndApply n r).mem = s.mem := by
  unfold State.sndApply
  extract_lets held s1 t
  have h1 : s1.net.snds.length = s.net.snds.length := congrArg (fun x : NetSt => x.snds.length) (State.wr_net ..)
  have hm1 : s1.mem = s.mem := State.wr_mem ..
  clear_value s1
  obtain ⟨hrun, hlen, hmem⟩ := s1.sndStop_reads n
  rw [he, Bool.false_and, Bool.false_and, if_neg Bool.false_ne_true]
  refine ⟨?_, ?_, (State.wr_mem ..).trans (hmem.trans hm1)⟩
  · refine congrArg SndSt.inForce (State.snd_updSnd_self _ _ ?_)
    rw [State.wr_net, hlen, h1]
    exact hn
  · exact (State.rd_wr_other (s1.sndStop n) F.NET_SND_COMMIT_pending F.NET_SND_STATUS_running 0 n 0 n 0 (by decide)).trans hrun

end

/-- The state a sender of pictures is aligned on: the picture of before is let go. -/
def State.sndAligned (s : State) (n : Nat) : State :=
  (s.updSnd n fun d => { d with pic := none, packet := 0, cut := false, stamp := s.now }).tick

theorem exec_netSndFrameAlignment {s : State} {n k count : Nat} {again : Bool} {passed : Nat} (hr : (s.snd n).ready = none)
    (hrun : s.on F.NET_SND_STATUS_running n = true) (hp : (s.snd n).pic = none) (hk : regOf (s.snd n).inForce F.NET_SND_CTRL_kind n = 0)
    (hc : s.chooseSlot (regOf (s.snd n).inForce F.NET_SND_CTRL_source n) (!regOn (s.snd n).inForce F.NET_SND_CTRL_live n) (s.snd n).last
      = some (k, count, again, passed)) :
    exec (.netSndFrameAlignment n) s = .next (
      let p := s.picOf (regOf (s.snd n).inForce F.NET_SND_CTRL_source n) k again true
      let t := ((s.sndAligned n).takeViewHold (regOf (s.snd n).inForce F.NET_SND_CTRL_source n) k (.snd n)).updSnd n fun d =>
        { d with pic := some p, last := some (regOf (s.snd n).inForce F.NET_SND_CTRL_source n, count) }
      if p.wet then t.bump F.NET_SND_CNT_wet n else t) := by
  change execNetSndFrameAlignment n s = _
  unfold execNetSndFrameAlignment
  rw [hr]
  extract_lets t r v t0
  rw [if_neg (by rw [show t = s from rfl, hrun, show r = (s.snd n).inForce from rfl, hk]; decide)]
  have h0 : t0 = s.sndAligned n := by simp only [t0, t, State.sndRelease, hp]; rfl
  have hc0 : t0.chooseSlot v (!regOn r F.NET_SND_CTRL_live n) (t.snd n).last = some (k, count, again, passed) := by rw [h0]; exact hc
  rw [hc0, h0]
  rfl

theorem netSndFrameAlignment_picks {s : State} {n k count : Nat} {again : Bool} {passed : Nat} (hn : n < s.net.snds.length) (hr : (s.snd n).ready = none)
    (hrun : s.on F.NET_SND_STATUS_running n = true) (hp : (s.snd n).pic = none) (hk : regOf (s.snd n).inForce F.NET_SND_CTRL_kind n = 0)
    (hc : s.chooseSlot (regOf (s.snd n).inForce F.NET_SND_CTRL_source n) (!regOn (s.snd n).inForce F.NET_SND_CTRL_live n) (s.snd n).last
      = some (k, count, again, passed)) :
    Does (.netSndFrameAlignment n) s fun t => (t.snd n).pic = some (s.picOf (regOf (s.snd n).inForce F.NET_SND_CTRL_source n) k again true)
      ∧ (t.snd n).packet = 0 ∧ (t.snd n).cut = false ∧ s.Only t [(F.NET_SND_CNT_wet, n)] := by
  refine Does.of_exec (exec_netSndFrameAlignment hr hrun hp hk hc) ?_
  extract_lets p t
  have hn1 : n < (s.sndAligned n).net.snds.length := (updAt_length ..).symm ▸ hn
  have h1 : (s.sndAligned n).snd n = { s.snd n with pic := none, packet := 0, cut := false, stamp := s.now } := s.snd_updSnd_self _ hn
  have ht : t.snd n = { (s.sndAligned n).snd n with pic := some p, last := some (regOf (s.snd n).inForce F.NET_SND_CTRL_source n, count) } :=
    State.snd_updSnd_self ((s.sndAligned n).takeViewHold _ k (.snd n)) _ hn1
  rw [h1] at ht
  have ho : s.Only t [(F.NET_SND_CNT_wet, n)] := (State.Only.refl s _).same
  clear_value t
  split
  · have hb : (t.bump F.NET_SND_CNT_wet n).snd n = t.snd n := congrArg (fun x : NetSt => x.snds.getD n SndSt.init) (State.wr_net ..)
    rw [hb, ht]
    exact ⟨rfl, rfl, rfl, ho.bump F.NET_SND_CNT_wet n 0 1 (by simp)⟩
  · rw [ht]
    exact ⟨rfl, rfl, rfl, ho⟩

theorem exec_netSenderPacket {s : State} {n : Nat} (hr : s.on F.NET_SND_STATUS_running n = true) (hd : s.released 30 = true)
    (hw : s.takesWork 0x7B = true) : exec (.netSenderPacket n) s = .next (
      if regOf (s.snd n).inForce F.NET_SND_CTRL_kind n = 0 then s.videoPacket n
      else if regOf (s.snd n).inForce F.NET_SND_CTRL_kind n = 1 then s.nalPacket n else s.soundPacket n) :=
  if_neg (by rw [hr, hd, hw]; decide)

/-! ### The receive ring -/

theorem State.rxFrame_of_full {s : State} (port : Nat) (data : List Byte)
    (h : s.rd F.NET_RX_CFG_slots ≤ (s.net.rxCount + 4294967296 - s.rd F.NET_RX_HEAD_value) % 4294967296) :
    (s.rxFrame port data).net.rxCount = s.net.rxCount ∧ (s.rxFrame port data).rd F.NET_FLAGS_rx_drop = 1
      ∧ s.Raised (s.rxFrame port data) 1 Ev.NET_RX_DROP (le 1 port) ∧ (s.rxFrame port data).mem = s.mem := by
  have he : s.rxFrame port data = (s.flagCount F.NET_FLAGS_rx_drop F.NET_CNT_rx_drop).raise 1 Ev.NET_RX_DROP (le 1 port) := if_pos h
  have hw : State.Within [F.NET_FLAGS_rx_drop, F.NET_CNT_rx_drop] s (s.flagCount F.NET_FLAGS_rx_drop F.NET_CNT_rx_drop) :=
    (State.Within.refl _ s).flagCount (by decide) (by decide) 0
  rw [he]
  refine ⟨?_, ?_, ?_, (State.raise_mem ..).trans hw.mem⟩
  · rw [State.Apart.net.raise, State.flagCount, State.bump, State.wr_net, State.wr_net]
  · rw [State.rd_raise_other _ _ _ _ _ _ _ (by decide)]
    exact State.rd_flagCount_flag s _ _ 0 (by decide)
  · exact State.Raised.of_same (t := s.flagCount F.NET_FLAGS_rx_drop F.NET_CNT_rx_drop)
      (congrArg HostSt.records (by rw [State.flagCount, State.bump, State.wr_host, State.wr_host])) (hw.quiet (by decide)) rfl

theorem State.rxFrame_of_room {s : State} (port : Nat) (data : List Byte)
    (h : (s.net.rxCount + 4294967296 - s.rd F.NET_RX_HEAD_value) % 4294967296 < s.rd F.NET_RX_CFG_slots) :
    (s.rxFrame port data).net.rxCount = (s.net.rxCount + 1) % 4294967296 ∧ (s.rxFrame port data).mem = s.mem
      ∧ ∃ head, (s.rxFrame port data).out = .hostWrite (s.pair F.NET_RX_BASE_LO_value F.NET_RX_BASE_HI_value + s.net.rxCount % s.rd F.NET_RX_CFG_slots * 2048)
          (head ++ data) :: s.out := by
  unfold State.rxFrame
  extract_lets n slots t head a
  rw [if_neg (Nat.not_le.mpr h)]
  refine ⟨?_, ?_, head, ?_⟩
  · exact congrArg NetSt.rxCount (State.Apart.net.post ..)
  · exact State.Apart.mem.post ..
  · exact State.Apart.out.post ..

theorem sndRefused_false {s : State} {n : Nat} (hp : s.on F.NET_SND_COMMIT_pending n = false) (hw : s.wireOk (s.shadow 0x1301000 0x1301020 n) n = true)
    (he : regOn (s.shadow 0x1301000 0x1301020 n) F.NET_SND_CTRL_enable n = false) : s.sndRefused n = false := by
  simp [State.sndRefused, hp, hw, he]

theorem exec_netSndCommit_stopped {s : State} {n : Nat} (h : s.sndRefused n = false) (hr : s.on F.NET_SND_STATUS_running n = false) :
    exec (.netSndCommit n) s = .next (s.sndApply n (s.shadow 0x1301000 0x1301020 n)) :=
  congrArg Host.Outcome.next ((if_neg (Bool.eq_false_iff.mp h)).trans (if_neg (Bool.eq_false_iff.mp hr)))

theorem exec_netSndCommit_running {s : State} {n : Nat} (h : s.sndRefused n = false) (hr : s.on F.NET_SND_STATUS_running n = true) :
    exec (.netSndCommit n) s = .next ((s.wr F.NET_SND_COMMIT_pending 1 n).updSnd n fun d => { d with ready := some (s.shadow 0x1301000 0x1301020 n) }) :=
  congrArg Host.Outcome.next ((if_neg (Bool.eq_false_iff.mp h)).trans (if_pos hr))

theorem netSndCommit_taken {s : State} {n : Nat} (hn : n < s.net.snds.length) (hp : s.on F.NET_SND_COMMIT_pending n = false)
    (hw : s.wireOk (s.shadow 0x1301000 0x1301020 n) n = true) (he : regOn (s.shadow 0x1301000 0x1301020 n) F.NET_SND_CTRL_enable n = false) :
    Does (.netSndCommit n) s fun t =>
      (s.on F.NET_SND_STATUS_running n = false → (t.snd n).inForce = s.shadow 0x1301000 0x1301020 n ∧ t.rd F.NET_SND_STATUS_running n = 0)
      ∧ (s.on F.NET_SND_STATUS_running n = true → (t.snd n).ready = some (s.shadow 0x1301000 0x1301020 n) ∧ t.rd F.NET_SND_COMMIT_pending n = 1)
      ∧ t.mem = s.mem := by
  have href := sndRefused_false hp hw he
  cases hr : s.on F.NET_SND_STATUS_running n with
  | false =>
    refine Does.of_exec (exec_netSndCommit_stopped href hr) ?_
    obtain ⟨hf, h0, hm⟩ := State.sndApply_reads (s := s) hn he
    exact ⟨fun _ => ⟨hf, h0⟩, fun h => absurd h Bool.false_ne_true, hm⟩
  | true =>
    refine Does.of_exec (exec_netSndCommit_running href hr) ⟨fun h => absurd h.symm Bool.false_ne_true, fun _ => ⟨?_, ?_⟩, State.wr_mem ..⟩
    · exact congrArg SndSt.ready (State.snd_updSnd_self (s.wr F.NET_SND_COMMIT_pending 1 n) _ (by rw [State.wr_net]; exact hn))
    · exact State.rd_wr_self s F.NET_SND_COMMIT_pending 1 n 0

/-- Settles O56: each command by the branch it takes, with what a sender's packet and its set touch. -/
theorem networkFramesAndSenders : Obligations.NetworkFramesAndSenders := by
  unfold Obligations.NetworkFramesAndSenders
  refine ⟨fun id n port c s hm hn => ⟨fun data h hok => ?_, fun data h hok hl => ?_, fun data h hok hl hq hb => ?_, fun f late hf hb hlaunch hw => ?_,
    fun f late hf hb hfirst hw => ?_, fun f hf h => netFrameTxDone_answers hm hf h, fun e rest ht => ?_, fun ht => ?_,
    fun data hl hp ha he hlen => ⟨fun hfull => ?_, fun hroom => ?_⟩, fun up hne hup => ?_, fun hp => ?_,
    fun hp hw he => netSndCommit_taken hn hp hw he,
    fun k count again passed hr hrun hp hk hc => netSndFrameAlignment_picks hn hr hrun hp hk hc,
    fun hr hd hw => ⟨fun hk hcut hlt => ?_, fun u hk hu => ?_, fun hk hstamp => ?_⟩⟩,
    fun id port n s => ⟨fun f hf => ?_, fun data h => ?_, fun up hne hup => exec_netLinkChange hne hup,
      fun h hr => exec_netSndCommit_stopped h hr, fun h hr => exec_netSndCommit_running h hr⟩⟩
  · refine Does.of_exec ((exec_netSend data h (by rw [hok]; rfl)).trans (congrArg Host.Outcome.next (if_pos (by rw [hok]; rfl)))) ?_
    obtain ⟨ha, ho⟩ := State.complete_begun h hm St.NET_BAD_REQ 0 0 1
    exact ⟨ha, ho []⟩
  · refine Does.of_exec ((exec_netSend data h (by rw [hl, Bool.and_false, Bool.false_and])).trans (congrArg Host.Outcome.next
      ((if_neg (by rw [hok]; decide)).trans (if_pos (by rw [hl]; rfl))))) ?_
    obtain ⟨ha, ho⟩ := State.complete_begun h hm St.NET_LINK_DOWN 0 0 1
    exact ⟨ha, ho []⟩
  · refine Does.of_exec ((exec_netSend data h (by rw [decide_eq_false (Nat.not_le.mpr hq), Bool.and_false])).trans (congrArg Host.Outcome.next
      ((if_neg (by rw [hok]; decide)).trans ((if_neg (by rw [hl]; decide)).trans (if_neg (by rw [hb, Bool.false_and]; decide)))))) ?_
    exact ⟨⟨_, rfl, rfl, rfl, rfl, rfl⟩, rfl, (s.only_begun id []).same⟩
  · exact Does.of_exec (exec_netFrameLaunch late hf hb (by rw [hlaunch]; rfl) hw) ⟨rfl, (State.Only.refl s _).same⟩
  · exact Does.of_exec (exec_netFrameLaunch late hf hb (by rw [hfirst]; simp) hw) ⟨rfl, (State.Only.refl s _).same⟩
  · change ∃ t, execNetTxtsRead s = .next t ∧ _
    unfold execNetTxtsRead
    rw [ht]
    exact ⟨_, rfl, rfl, rfl, (State.Only.refl s _).same⟩
  · change ∃ t, execNetTxtsRead s = .next t ∧ _
    unfold execNetTxtsRead
    rw [ht]
    exact ⟨_, rfl, ht, rfl, (State.Only.refl s _).same⟩
  · exact Does.of_exec (congrArg Host.Outcome.next (if_pos (by simp [State.rxTakes, hl, hp, ha, he, hlen]))) (State.rxFrame_of_full port data hfull)
  · exact Does.of_exec (congrArg Host.Outcome.next (if_pos (by simp [State.rxTakes, hl, hp, ha, he, hlen]))) (State.rxFrame_of_room port data hroom)
  · exact Does.of_exec (exec_netLinkChange hne hup) (s.linkChanged_reads port up)
  · exact congrArg Host.Outcome.next (if_pos (by rw [State.sndRefused, hp]; rfl))
  · exact Does.of_exec ((exec_netSenderPacket hr hd hw).trans (congrArg Host.Outcome.next (if_pos hk))) (State.videoPacket_reads hn hcut hlt)
  · exact Does.of_exec ((exec_netSenderPacket hr hd hw).trans (congrArg Host.Outcome.next
      ((if_neg (by rw [hk]; decide)).trans (if_pos hk)))) (State.nalPacket_reads hn hu)
  · exact Does.of_exec ((exec_netSenderPacket hr hd hw).trans (congrArg Host.Outcome.next
      ((if_neg (by rw [hk]; decide)).trans (if_neg (by rw [hk]; decide))))) (State.soundPacket_reads hn hstamp)
  · change execNetFrameTxDone id s = _
    unfold execNetFrameTxDone
    rw [hf]
  · exact congrArg Host.Outcome.next (if_pos h)

end Sys2Proof.Machine
end

section
/-! PROOFS. The domains: bits set and cleared in a word, what going down and coming up keeps of the registers of power, reset and authority, and
which domains are released afterwards. -/
namespace Sys2Proof.Machine

set_option Elab.async false

/-! ### One bit of a word -/

theorem bitOf_eq_testBit (n k : Nat) : bitOf n k = n.testBit k := by
  rw [Nat.testBit_eq_decide_div_mod_eq]
  rfl

theorem bitOf_mod_two_pow (n w k : Nat) : bitOf (n % 2 ^ w) k = (decide (k < w) && bitOf n k) := by
  rw [bitOf_eq_testBit, bitOf_eq_testBit, Nat.testBit_mod_two_pow]

/-- Setting a bit writes its digit between the higher and the lower ones. -/
theorem setBit_eq (n k : Nat) (v : Bool) : setBit n k v = (n / 2 ^ (k + 1) * 2 + b2n v) * 2 ^ k + n % 2 ^ k := by
  have hb : b2n (bitOf n k) = n / 2 ^ k % 2 := by
    unfold bitOf b2n
    rcases Nat.mod_two_eq_zero_or_one (n / 2 ^ k) with h | h <;> simp [h]
  have hn := Nat.div_add_mod n (2 ^ k)
  have hq := Nat.div_add_mod (n / 2 ^ k) 2
  rw [Nat.div_div_eq_div_mul, ← Nat.pow_succ] at hq
  unfold setBit
  rw [hb]
  generalize n / 2 ^ k % 2 = b at hq
  generalize n / 2 ^ (k + 1) = q at hq
  have hn' : n = (q * 2 + b) * 2 ^ k + n % 2 ^ k := by rw [Nat.mul_comm q 2, hq, Nat.mul_comm]; exact hn.symm
  have hs : n - b * 2 ^ k = q * 2 * 2 ^ k + n % 2 ^ k := by
    have hsplit := Nat.add_mul (q * 2) b (2 ^ k)
    omega
  rw [hs, Nat.add_mul]
  omega

theorem bitOf_setBit (n k : Nat) (v : Bool) (e : Nat) : bitOf (setBit n k v) e = if e = k then v else bitOf n e := by
  have hr : n % 2 ^ k < 2 ^ k := Nat.mod_lt _ (Nat.two_pow_pos k)
  have hd : setBit n k v / 2 ^ k = n / 2 ^ (k + 1) * 2 + b2n v := by
    rw [setBit_eq, Nat.mul_comm, Nat.mul_add_div (Nat.two_pow_pos k), Nat.div_eq_of_lt hr, Nat.add_zero]
  have hm : setBit n k v % 2 ^ k = n % 2 ^ k := by rw [setBit_eq, Nat.mul_add_mod', Nat.mod_eq_of_lt hr]
  rcases Nat.lt_trichotomy e k with h | rfl | h
  · have hlow : ∀ x : Nat, bitOf x e = bitOf (x % 2 ^ k) e := fun x => by rw [bitOf_mod_two_pow, decide_eq_true h, Bool.true_and]
    rw [if_neg (Nat.ne_of_lt h), hlow, hm, ← hlow]
  · rw [if_pos rfl]
    unfold bitOf
    rw [hd]
    cases v <;> simp [b2n]
  · rw [if_neg (Nat.ne_of_gt h)]
    obtain ⟨m, rfl⟩ := Nat.exists_eq_add_of_lt h
    have hsplit : ∀ x : Nat, x / 2 ^ (k + m + 1) = x / 2 ^ k / 2 / 2 ^ m := fun x => by
      rw [Nat.div_div_eq_div_mul, Nat.div_div_eq_div_mul, ← Nat.mul_assoc, ← Nat.pow_succ, ← Nat.pow_add, show k + 1 + m = k + m + 1 by omega]
    unfold bitOf
    rw [hsplit, hsplit, hd, Nat.div_div_eq_div_mul n, ← Nat.pow_succ]
    have hh : (n / 2 ^ (k + 1) * 2 + b2n v) / 2 = n / 2 ^ (k + 1) := by
      cases v
      · simp [b2n]
      · simp only [b2n, if_true]
        omega
    rw [hh]

/-! ### What going down and coming up keep -/

/-- The blocks that wait for clock-good or are in HELD_FAULT left out of the part's own state. -/
def SysSt.beside (x : SysSt) : SysSt := { x with waiting := [], fault := [] }

/-- HBM, the part's own state but for the blocks that wait, and every register of sessions, power and reset, heat and authority but those
listed are as they were. -/
structure State.CentralKept (l : List Fld) (s t : State) : Prop where
  mem : t.mem = s.mem
  sys : t.sys.beside = s.sys.beside
  rd : ∀ (f : Fld) (i j : Nat), f.Central → f.Off l → t.rd f i j = s.rd f i j

section
variable {l : List Fld} {s t u : State}

theorem State.CentralKept.refl (l : List Fld) (s : State) : State.CentralKept l s s := ⟨rfl, rfl, fun _ _ _ _ _ => rfl⟩

theorem State.CentralKept.trans (h : State.CentralKept l s t) (k : State.CentralKept l t u) : State.CentralKept l s u :=
  ⟨k.mem.trans h.mem, k.sys.trans h.sys, fun f i j hc hf => (k.rd f i j hc hf).trans (h.rd f i j hc hf)⟩

theorem State.CentralKept.mono {m : List Fld} (h : State.CentralKept l s t) (hl : ∀ x ∈ l, x ∈ m) : State.CentralKept m s t :=
  ⟨h.mem, h.sys, fun f i j hc hf => h.rd f i j hc (hf.mono hl)⟩

theorem State.CentralKept.wr (h : State.CentralKept l s t) {f : Fld} (hf : f ∈ l) (v i j : Nat) : State.CentralKept l s (t.wr f v i j) :=
  ⟨(State.wr_mem ..).trans h.mem, (congrArg SysSt.beside (State.wr_sys ..)).trans h.sys,
    fun g a b hc hg => (State.rd_wr_other _ _ _ _ _ _ _ _ (hg f hf)).trans (h.rd g a b hc hg)⟩

theorem State.CentralKept.updSys (h : State.CentralKept l s t) {f : SysSt → SysSt} (hf : (f t.sys).beside = t.sys.beside) :
    State.CentralKept l s (t.updSys f) := ⟨h.mem, hf.trans h.sys, h.rd⟩

theorem regDomain_of_central {f : Fld} (hc : f.Central) (i j : Nat) : regDomain ⟨f.base, f.lo, i, j⟩ = none := by
  simp only [Fld.Central, List.mem_cons, List.not_mem_nil, or_false] at hc
  have h : ∀ lo hi : Nat, 0x600000 ≤ lo → hi ≤ 0x1400000 → ¬ (lo ≤ f.base ∧ f.base < hi) := by omega
  exact (if_neg (h 0xC00000 0xC80000 (by decide) (by decide))).trans ((if_neg (h 0xD00000 0xD80000 (by decide) (by decide))).trans
    ((if_neg (h 0x1010000 0x1020000 (by decide) (by decide))).trans ((if_neg (h 0x1100000 0x1200000 (by decide) (by decide))).trans
    ((if_neg (h 0x1200000 0x1300000 (by decide) (by decide))).trans (if_neg (h 0x1300000 0x1400000 (by decide) (by decide)))))))

theorem RegStore.get_filter_of_some {l : RegStore} {p : RegKey → Bool} {k : RegKey} (h : p k = true) (d : Nat) :
    RegStore.get (l.filter fun x => p x.1) k d = RegStore.get l k d := by
  induction l with
  | nil => rfl
  | cons x l ih =>
    by_cases hx : x.1 = k
    · rw [List.filter_cons_of_pos (by rw [hx]; exact h), RegStore.get, RegStore.get, if_pos hx, if_pos hx]
    · rw [List.filter_cons]
      split
      · rw [RegStore.get, RegStore.get, if_neg hx, if_neg hx, ih]
      · rw [ih, RegStore.get, if_neg hx]

/-- The end of a domain clears no register of the central blocks. -/
theorem State.CentralKept.clearSts (h : State.CentralKept l s t) (d : Nat) : State.CentralKept l s (t.clearSts d) := by
  refine ⟨h.mem, h.sys, fun f i j hc hf => Eq.trans ?_ (h.rd f i j hc hf)⟩
  have hk := RegStore.get_filter_of_some (l := t.sts) (p := fun k => decide (regDomain k ≠ some d)) (k := ⟨f.base, f.lo, i, j⟩)
    (by rw [regDomain_of_central hc]; rfl) f.reset
  unfold State.rd
  split
  · rfl
  · exact hk

theorem State.CentralKept.frame (l : List Fld) (s : State) : State.Framed (State.CentralKept l s) where
  wr h f v i j hf := ⟨(State.wr_mem ..).trans h.mem, (congrArg SysSt.beside (State.wr_sys ..)).trans h.sys, fun g a b hc hg =>
    (State.rd_wr_other _ _ _ _ _ _ _ _ fun e => hf (by rw [Fld.Central, ← e.1]; exact hc)).trans (h.rd g a b hc hg)⟩
  emit h _ := ⟨h.mem, h.sys, h.rd⟩
  tick h := ⟨h.mem, h.sys, h.rd⟩
  same h _ _ _ hm hc hs _ hsys _ := ⟨hm.trans h.mem, (congrArg SysSt.beside hsys).trans h.sys,
    fun f i j hf ho => (State.rd_congr hc hs f i j).trans (h.rd f i j hf ho)⟩

theorem State.CentralKept.blockRelease (h : State.CentralKept l s t) (b : Nat) : State.CentralKept l s (t.blockRelease b) := by
  have fr := State.CentralKept.frame l s
  unfold State.blockRelease
  extract_lets t0 u
  have h0 : State.CentralKept l s t0 := h.updSys rfl
  have hu : State.CentralKept l s u := fr.whenB h0 _ _ fun _ hx => fr.groupStart hx _
  exact fr.ite (hu.updSys rfl) (fr.blockStart hu _)

/-- A domain that comes up sets nothing of the central registers but its own bit. -/
theorem State.centralKept_domainUp (s : State) (d : Nat) : State.CentralKept [F.PWR_STATE_released] s (s.domainUp d) := by
  have fr := State.CentralKept.frame [F.PWR_STATE_released] s
  have h := State.CentralKept.refl [F.PWR_STATE_released] s
  unfold State.domainUp
  extract_lets t t1
  have ht : State.CentralKept [F.PWR_STATE_released] s t := h.wr (f := F.PWR_STATE_released) (by decide) _ 0 0
  have h1 : State.CentralKept [F.PWR_STATE_released] s t1 := fr.ite (fr.masterStart ht) (fr.ite (fr.shedMarks ht) ht)
  exact fr.ite h (fr.foldl h1 _ _ fun _ _ hx => hx.blockRelease _)

/-- The fields that a domain's going down sets among the central registers. -/
def downFlds : List Fld := [F.PWR_STATE_released, F.RST_BLOCK_STATUS_fault]

/-- What is stopped where a domain goes down. -/
def State.domainStopped (s : State) (d status : Nat) : State :=
  if d = 20 ∨ d = 21 then s.vcdReset (d - 20) status
  else if d = 29 then s.rasReset status
  else if d = 30 then s.netReset status
  else if d = 31 then s.audReset
  else if 10 ≤ d ∧ d < 18 then s.brushesDown (halfOf d)
  else (domainBlocks d).foldl (fun (s : State) b => s.blockStop b status) s

theorem State.CentralKept.domainStopped (h : State.CentralKept l s t) (d status : Nat) : State.CentralKept l s (t.domainStopped d status) := by
  have fr := State.CentralKept.frame l s
  exact fr.ite (fr.vcdReset h ..) (fr.ite (fr.rasReset h _) (fr.ite (fr.netReset h _) (fr.ite (fr.audReset h) (fr.ite (fr.brushesDown h _)
    (fr.foldl h _ _ fun _ _ hx => fr.blockStop hx ..)))))

theorem State.domainDown_of_released (d status : Nat) (h : s.released d = true) : s.domainDown d status =
    ((((s.wr F.PWR_STATE_released (setBit (s.rd F.PWR_STATE_released) d false)).domainStopped d status).clearSts d).updSys fun x =>
      { x with waiting := x.waiting.filter fun b => blockDomain b ≠ some d, fault := x.fault.filter fun b => blockDomain b ≠ some d }).blockStatus :=
  if_pos h

/-- What a domain that goes down leaves of the state with its bit cleared. -/
theorem State.centralKept_stopped (t : State) (d status : Nat) : State.CentralKept [F.RST_BLOCK_STATUS_fault] t
    (((((t.domainStopped d status).clearSts d).updSys fun x =>
      { x with waiting := x.waiting.filter fun b => blockDomain b ≠ some d, fault := x.fault.filter fun b => blockDomain b ≠ some d }).blockStatus)) := by
  have h := ((State.CentralKept.refl [F.RST_BLOCK_STATUS_fault] t).domainStopped d status).clearSts d
  exact (h.updSys (f := fun x => { x with waiting := x.waiting.filter fun b => blockDomain b ≠ some d,
                                          fault := x.fault.filter fun b => blockDomain b ≠ some d }) rfl).wr (f := F.RST_BLOCK_STATUS_fault) (by decide) _ 0 0

theorem State.centralKept_domainDown (s : State) (d status : Nat) : State.CentralKept downFlds s (s.domainDown d status) := by
  by_cases h : s.released d = true
  · rw [State.domainDown_of_released d status h]
    exact ((State.CentralKept.refl downFlds s).wr (f := F.PWR_STATE_released) (by decide) _ 0 0).trans
      ((State.centralKept_stopped _ d status).mono (by decide))
  · rw [State.domainDown, if_neg h]
    exact State.CentralKept.refl downFlds s

theorem State.CentralKept.each {α : Type} {f : State → α → State} (h : State.CentralKept l s t) (xs : List α)
    (hf : ∀ u x, State.CentralKept l u (f u x)) : State.CentralKept l s (t.each xs f) :=
  (State.CentralKept.frame l s).each h xs f fun u x hu => hu.trans (hf u x)

/-! ### Which domains are released -/

theorem State.released_setBit (s : State) (d : Nat) (v : Bool) {e : Nat} (he : e < 32) :
    (s.wr F.PWR_STATE_released (setBit (s.rd F.PWR_STATE_released) d v)).released e = if e = d then v else s.released e := by
  rw [State.released, State.rd_wr_self s F.PWR_STATE_released _ 0 0]
  change bitOf (_ % 2 ^ 32) e = _
  rw [bitOf_mod_two_pow, decide_eq_true he, Bool.true_and, bitOf_setBit]
  rfl

theorem State.released_kept (h : State.CentralKept l s t) (hl : F.PWR_STATE_released.Off l) (e : Nat) : t.released e = s.released e :=
  congrArg (fun n => bitOf n e) (h.rd F.PWR_STATE_released 0 0 (by decide) hl)

theorem State.released_domainDown (s : State) (d status : Nat) {e : Nat} (he : e < 32) :
    (s.domainDown d status).released e = (s.released e && decide (e ≠ d)) := by
  by_cases h : s.released d = true
  · rw [State.domainDown_of_released d status h, State.released_kept (State.centralKept_stopped _ d status) (by decide), State.released_setBit s d _ he]
    by_cases hed : e = d <;> simp [hed]
  · rw [State.domainDown, if_neg h]
    by_cases hed : e = d
    · simp [hed, h]
    · simp [hed]

theorem State.released_each_domainDown (s : State) (l : List Nat) (status : Nat → Nat) {e : Nat} (he : e < 32) :
    (s.each l fun s d => s.domainDown d (status d)).released e = (s.released e && !l.contains e) := by
  induction l generalizing s with
  | nil => simp [State.each]
  | cons d l ih =>
    refine (ih (s.domainDown d (status d))).trans ?_
    rw [State.released_domainDown _ _ _ he, List.contains_cons]
    by_cases hed : e = d
    · simp [hed]
    · simp [hed, beq_eq_false_iff_ne.mpr hed]

/-- Whether a domain is held is read from registers and state that coming up keeps. -/
theorem State.domainHeld_congr (hs : t.sys.beside = s.sys.beside) (ho : t.rd F.PWR_ON_on = s.rd F.PWR_ON_on)
    (hh : t.rd F.RST_DOMAIN_hold = s.rd F.RST_DOMAIN_hold) (d : Nat) : t.domainHeld d = s.domainHeld d := by
  have hdev : t.deviceHeld = s.deviceHeld := congrArg (fun x : SysSt => x.por || x.pin || x.trip) (a₁ := t.sys.beside) (a₂ := s.sys.beside) hs
  have hhalf : t.sys.halves = s.sys.halves := congrArg SysSt.halves (a₁ := t.sys.beside) (a₂ := s.sys.beside) hs
  unfold State.domainHeld
  rw [hdev, hhalf, ho, hh]

theorem State.domainHeld_kept (h : State.CentralKept [F.PWR_STATE_released] s t) (d : Nat) : t.domainHeld d = s.domainHeld d :=
  State.domainHeld_congr h.sys (h.rd _ _ _ (by decide) (by decide)) (h.rd _ _ _ (by decide) (by decide)) d

theorem State.released_domainUp (s : State) (d : Nat) {e : Nat} (he : e < 32) :
    (s.domainUp d).released e = (s.released e || (decide (e = d) && !s.domainHeld d)) := by
  unfold State.domainUp
  extract_lets t t1
  have fr := State.CentralKept.frame [] t
  have ht := State.CentralKept.refl [] t
  have h1 : State.CentralKept [] t t1 := fr.ite (fr.masterStart ht) (fr.ite (fr.shedMarks ht) ht)
  have h2 : State.CentralKept [] t ((domainBlocks d).foldl State.blockRelease t1) := fr.foldl h1 _ _ fun _ _ hx => hx.blockRelease _
  have hrel : ((domainBlocks d).foldl State.blockRelease t1).released e = if e = d then true else s.released e :=
    (State.released_kept h2 (by decide) e).trans (State.released_setBit s d true he)
  split
  · next h =>
    by_cases hed : e = d
    · subst hed
      cases hr : s.released e <;> cases hd : s.domainHeld e <;> simp [hr, hd] at h ⊢
    · simp [hed]
  · next h =>
    rw [hrel]
    by_cases hed : e = d
    · subst hed
      cases hr : s.released e <;> cases hd : s.domainHeld e <;> simp [hr, hd] at h ⊢
    · simp [hed]

theorem State.centralKept_foldl_domainUp (s : State) (l : List Nat) : State.CentralKept [F.PWR_STATE_released] s (l.foldl State.domainUp s) :=
  (State.CentralKept.refl _ s).each l fun u d => u.centralKept_domainUp d

theorem State.released_foldl_domainUp (s : State) (l : List Nat) {e : Nat} (he : e < 32) :
    (l.foldl State.domainUp s).released e = (s.released e || (l.contains e && !s.domainHeld e)) := by
  induction l generalizing s with
  | nil => simp
  | cons d l ih =>
    rw [List.foldl_cons, ih, State.released_domainUp _ _ he, State.domainHeld_kept (s.centralKept_domainUp d), List.contains_cons]
    by_cases hed : e = d
    · subst hed
      cases s.released e <;> cases s.domainHeld e <;> simp
    · simp [hed, beq_eq_false_iff_ne.mpr hed]

end

end Sys2Proof.Machine
end

section
/-! PROOFS. Power and reset: the device reset, a half's reset, the release sequence, and writes of PWR_ON and RST_DOMAIN (spec/17). -/
namespace Sys2Proof.Machine

set_option Elab.async false

section
variable {s : State} {h v : Nat}

/-! ### The device -/

/-- A device reset keeps the causes of before unless it is a power-on, and the three sources that assert it (R555, R563). -/
theorem State.deviceReset_reads (s : State) (por : Bool) :
    (s.deviceReset por).sys.por = s.sys.por ∧ (s.deviceReset por).sys.pin = s.sys.pin ∧ (s.deviceReset por).sys.trip = s.sys.trip
      ∧ (s.deviceReset por).mem = (if por then [] else s.mem) ∧ (s.deviceReset por).host.cmds = []
      ∧ ∀ f : Fld, f.base = F.RST_CAUSE_por.base → f.acc.isCfg = false → (s.deviceReset por).rd f = if por then f.reset else s.rd f := by
  unfold State.deviceReset
  extract_lets r causes _ _ _ _ keep fuses
  have hk : ∀ f : Fld, f.base = F.RST_CAUSE_por.base → f.acc.isCfg = false → keep.rd f = if por then f.reset else s.rd f := by
    intro f hb ha
    unfold State.rd
    rw [if_neg (Bool.eq_false_iff.mp ha), if_neg (Bool.eq_false_iff.mp ha)]
    cases por with
    | true => rfl
    | false =>
      exact RegStore.get_filter_of_some (l := s.sts) (p := fun k => k.base == F.RST_CAUSE_por.base) (k := ⟨f.base, f.lo, 0, 0⟩) (by rw [hb]; rfl) f.reset
  have h0 : keep.sys.por = s.sys.por ∧ keep.sys.pin = s.sys.pin ∧ keep.sys.trip = s.sys.trip ∧ keep.mem = (if por then [] else s.mem)
      ∧ keep.host.cmds = [] := ⟨rfl, rfl, rfl, rfl, rfl⟩
  obtain ⟨hpor, hpin, htrip, hmem, hcmds⟩ := h0
  have hsys : fuses.sys = keep.sys := (State.wr_sys ..).trans (State.wr_sys ..)
  have hm : fuses.mem = keep.mem := (State.wr_mem ..).trans (State.wr_mem ..)
  have hh : fuses.host = keep.host := (State.wr_host ..).trans (State.wr_host ..)
  have hf : ∀ f : Fld, f.base = F.RST_CAUSE_por.base → fuses.rd f = keep.rd f := fun f hb =>
    (State.rd_wr_other _ _ _ _ _ _ _ _ fun e => by rw [hb] at e; exact absurd e.1 (by decide)).trans
      (State.rd_wr_other _ _ _ _ _ _ _ _ fun e => by rw [hb] at e; exact absurd e.1 (by decide))
  clear_value fuses keep
  have hseen : ∀ (α : Type) (π : State → α), (∀ (t : State) (v i j : Nat), π (t.wr F.MAG_PORT_STATUS_pres v i j) = π t) →
      π (fuses.each [0, 1] fun (t : State) (p : Nat) => if ((t.stor.ports.getD p PortSt.init).mag).isSome then t.wr F.MAG_PORT_STATUS_pres 1 p else t)
        = π fuses := fun α π hw => State.each_of_kept π
    (f := fun (t : State) (p : Nat) => if ((t.stor.ports.getD p PortSt.init).mag).isSome then t.wr F.MAG_PORT_STATUS_pres 1 p else t)
    (fun t p => by
      split
      · exact hw ..
      · rfl) fuses _
  have hs := (hseen _ State.sys fun _ _ _ _ => State.wr_sys ..).trans hsys
  refine ⟨(congrArg SysSt.por hs).trans hpor, (congrArg SysSt.pin hs).trans hpin, (congrArg SysSt.trip hs).trans htrip,
    ((hseen _ State.mem fun _ _ _ _ => State.wr_mem ..).trans hm).trans hmem,
    (congrArg HostSt.cmds ((hseen _ State.host fun _ _ _ _ => State.wr_host ..).trans hh)).trans hcmds, fun f hb ha => ?_⟩
  exact ((hseen _ (fun t => t.rd f) fun t v i j => State.rd_wr_other t F.MAG_PORT_STATUS_pres f v i j 0 0 fun e => by
    rw [hb] at e; exact absurd e.1 (by decide)).trans (hf f hb)).trans (hk f hb ha)

/-- A power-on and a rail out of range alike: the reset that clears every cause, and por set (R563). -/
def State.powerReset (s : State) : State := ((s.updSys fun x => { x with por := true }).deviceReset true).wr F.RST_CAUSE_por 1

theorem State.powerReset_reads (s : State) : s.powerReset.sys.por = true ∧ s.powerReset.rd F.RST_CAUSE_por = 1 ∧ s.powerReset.rd F.RST_CAUSE_pin = 0
    ∧ s.powerReset.rd F.RST_CAUSE_trip = 0 ∧ s.powerReset.mem = [] ∧ s.powerReset.host.cmds = [] := by
  obtain ⟨hpor, -, -, hmem, hcmds, hrd⟩ := (s.updSys fun x => { x with por := true }).deviceReset_reads true
  refine ⟨(congrArg SysSt.por (State.wr_sys ..)).trans hpor, State.rd_wr_self _ F.RST_CAUSE_por 1 0 0, ?_, ?_, (State.wr_mem ..).trans hmem,
    (congrArg HostSt.cmds (State.wr_host ..)).trans hcmds⟩
  · exact (State.rd_wr_other _ F.RST_CAUSE_por F.RST_CAUSE_pin 1 0 0 0 0 (by decide)).trans (hrd F.RST_CAUSE_pin rfl rfl)
  · exact (State.rd_wr_other _ F.RST_CAUSE_por F.RST_CAUSE_trip 1 0 0 0 0 (by decide)).trans (hrd F.RST_CAUSE_trip rfl rfl)

/-- With the last source gone the device's sequence begins (R552). -/
theorem State.deviceRelease_reads {t : State} (h0 : t.deviceHeld = false) (hl : 0 < t.sys.seqs.length) :
    t.deviceRelease.sys.seqs.getD 0 none = some 1 ∧ t.deviceRelease.rd F.PWR_SEQ_STATUS_step = 1 ∧ t.deviceRelease.rd F.PWR_SEQ_STATUS_busy = 1
      ∧ t.deviceRelease.sys.por = t.sys.por ∧ t.deviceRelease.sys.pin = t.sys.pin ∧ t.deviceRelease.sys.trip = t.sys.trip
      ∧ t.Only t.deviceRelease [(F.PWR_SEQ_STATUS_step, 0), (F.PWR_SEQ_STATUS_busy, 0)] := by
  have he : t.deviceRelease = ((t.updSys fun x => { x with seqs := updAt x.seqs 0 fun _ => some 1 }).wr F.PWR_SEQ_STATUS_step 1).wr
      F.PWR_SEQ_STATUS_busy 1 := if_neg (Bool.eq_false_iff.mp h0)
  have hsys : t.deviceRelease.sys = { t.sys with seqs := updAt t.sys.seqs 0 fun _ => some 1 } := by rw [he, State.wr_sys, State.wr_sys]; rfl
  refine ⟨(congrArg (fun x : SysSt => x.seqs.getD 0 none) hsys).trans (updAt_getD_self _ _ _ _ hl), ?_, ?_,
    (congrArg SysSt.por hsys).trans rfl, (congrArg SysSt.pin hsys).trans rfl, (congrArg SysSt.trip hsys).trans rfl, ?_⟩
  · rw [he, State.rd_wr_other _ _ _ _ _ _ _ _ (by decide)]
    exact State.rd_wr_self _ F.PWR_SEQ_STATUS_step 1 0 0
  · rw [he]
    exact State.rd_wr_self _ F.PWR_SEQ_STATUS_busy 1 0 0
  · rw [he]
    exact (((State.Only.refl t _).same (u := t.updSys fun x => { x with seqs := updAt x.seqs 0 fun _ => some 1 })).wr F.PWR_SEQ_STATUS_step 1 0 0
      (by simp)).wr F.PWR_SEQ_STATUS_busy 1 0 0 (by simp)

theorem State.thermalTrip_reads (s : State) : s.thermalTrip.sys.trip = true ∧ s.thermalTrip.rd F.RST_CAUSE_trip = 1 ∧ s.thermalTrip.mem = s.mem := by
  obtain ⟨-, -, htrip, hmem, -⟩ := (s.updSys fun x => { x with trip := true }).deviceReset_reads false
  exact ⟨(congrArg SysSt.trip (State.wr_sys ..)).trans htrip, State.rd_wr_self _ F.RST_CAUSE_trip 1 0 0, (State.wr_mem ..).trans hmem⟩

theorem resetNAssert_does : Does .resetNAssert s fun t => t.sys.pin = true ∧ t.rd F.RST_CAUSE_pin = 1 ∧ t.rd F.RST_CAUSE_por = s.rd F.RST_CAUSE_por
    ∧ t.host.cmds = [] ∧ t.mem = s.mem := by
  refine ⟨_, rfl, ?_⟩
  obtain ⟨-, hpin, -, hmem, hcmds, hrd⟩ := (s.updSys fun x => { x with pin := true }).deviceReset_reads false
  refine ⟨?_, ?_, ?_, ?_, ?_⟩
  · rw [State.wr_sys, State.wr_sys, hpin]
    rfl
  · rw [State.rd_wr_other _ _ _ _ _ _ _ _ (by decide)]
    exact State.rd_wr_self _ F.RST_CAUSE_pin 1 0 0
  · rw [State.rd_wr_other _ _ _ _ _ _ _ _ (by decide), State.rd_wr_other _ _ _ _ _ _ _ _ (by decide), hrd F.RST_CAUSE_por rfl rfl]
    rfl
  · rw [State.wr_host, State.wr_host, hcmds]
  · rw [State.wr_mem, State.wr_mem, hmem]
    rfl

/-! ### The release sequence -/

theorem stepDomains_lt {k : Nat} (hk : k < 20) : ∀ d ∈ stepDomains k, d < 32 :=
  (by decide : ∀ k < 20, ∀ d ∈ stepDomains k, d < 32) k hk

theorem nextStep_lt {p : Nat → Bool} {n k : Nat} (h : nextStep p n = some k) : k < 20 :=
  List.mem_range.mp ((List.mem_filter.mp (List.mem_of_find?_eq_some h)).1)

/-- The registers a step sets before its domains come up. -/
def stepFlds : List Fld := [F.PWR_SEQ_STATUS_step, F.PWR_SEQ_STATUS_busy, F.AUTH_STATUS_lead_sel, F.AUTH_STATUS_holder, F.AGE_VNOW_mv]

/-- The state a step lets its domains come up on. -/
def State.stepSet (s : State) (src k : Nat) : State :=
  let done := (nextStep (seqCovers src) k).isNone
  let t := (s.updSys fun x => { x with seqs := updAt x.seqs src fun _ => if done then none else some k }).wr F.PWR_SEQ_STATUS_step k
  let t1 := t.wr F.PWR_SEQ_STATUS_busy (b2n (t.sys.seqs.any Option.isSome))
  let t2 := if k = 2 then (t1.wr F.AUTH_STATUS_lead_sel (b2n Config.leadSel)).wr F.AUTH_STATUS_holder (b2n Config.leadSel) else t1
  if k = 2 ∧ src = 0 ∧ s.sys.cold = false then (t2.wr F.AGE_VNOW_mv (min (Config.railMv t2.fresh 0) (Config.railMv t2.fresh 1))).tick else t2

theorem State.seqStep_eq (s : State) (src k : Nat) : s.seqStep src k = ((stepDomains k).filter (seqCovers src)).foldl State.domainUp (s.stepSet src k) := rfl

theorem State.stepSet_reads (s : State) (src : Nat) {k : Nat} (hk : k < 20) : (s.stepSet src k).rd F.PWR_SEQ_STATUS_step = k
    ∧ ∀ d, (s.stepSet src k).domainHeld d = s.domainHeld d := by
  unfold State.stepSet
  extract_lets done t t1 t2
  have ht : t.rd F.PWR_SEQ_STATUS_step = k := (State.rd_wr_self _ F.PWR_SEQ_STATUS_step k 0 0).trans (Nat.mod_eq_of_lt (by
    change k < 32
    omega))
  have hts : t.sys = { s.sys with seqs := updAt s.sys.seqs src fun _ => if done then none else some k } := State.wr_sys ..
  have hto : ∀ d, t.domainHeld d = s.domainHeld d := fun d => by
    have h1 : t.rd F.PWR_ON_on = s.rd F.PWR_ON_on := State.rd_wr_other _ F.PWR_SEQ_STATUS_step F.PWR_ON_on k 0 0 0 0 (by decide)
    have h2 : t.rd F.RST_DOMAIN_hold = s.rd F.RST_DOMAIN_hold := State.rd_wr_other _ F.PWR_SEQ_STATUS_step F.RST_DOMAIN_hold k 0 0 0 0 (by decide)
    unfold State.domainHeld State.deviceHeld
    rw [hts, h1, h2]
  clear_value t
  have fr := State.CentralKept.refl [F.PWR_SEQ_STATUS_busy, F.AUTH_STATUS_lead_sel, F.AUTH_STATUS_holder, F.AGE_VNOW_mv] t
  have h1 := fr.wr (f := F.PWR_SEQ_STATUS_busy) (by decide) (b2n (t.sys.seqs.any Option.isSome)) 0 0
  have h2 : State.CentralKept _ t t2 := (State.CentralKept.frame _ t).ite
    ((h1.wr (f := F.AUTH_STATUS_lead_sel) (by decide) (b2n Config.leadSel) 0 0).wr (f := F.AUTH_STATUS_holder) (by decide) (b2n Config.leadSel) 0 0) h1
  have h3 := (State.CentralKept.frame _ t).ite (c := k = 2 ∧ src = 0 ∧ s.sys.cold = false)
    ((State.CentralKept.frame _ t).tick (h2.wr (f := F.AGE_VNOW_mv) (by decide) (min (Config.railMv t2.fresh 0) (Config.railMv t2.fresh 1)) 0 0)) h2
  exact ⟨(h3.rd _ 0 0 (by decide) (by decide)).trans ht, fun d => (State.domainHeld_congr h3.sys (h3.rd _ 0 0 (by decide) (by decide))
    (h3.rd _ 0 0 (by decide) (by decide)) d).trans (hto d)⟩

theorem exec_resetSequenceStep {k : Nat} (hh : h < 3) (h0 : s.deviceHeld = false) (hk : (s.sys.seqs.getD h none).bind (nextStep (seqCovers h)) = some k) :
    exec (.resetSequenceStep h) s = .next (s.seqStep h k) := by
  change execResetSequenceStep h s = _
  unfold execResetSequenceStep
  rw [if_neg (Bool.eq_false_iff.mp h0), if_neg (by omega), hk]

theorem resetSequenceStep_releases {n k : Nat} (h0 : s.deviceHeld = false) (hn : s.sys.seqs.getD 0 none = some n)
    (hk : nextStep (fun _ => true) n = some k) : Does (.resetSequenceStep 0) s fun t => t.rd F.PWR_SEQ_STATUS_step = k
      ∧ ∀ d ∈ stepDomains k, s.domainHeld d = false → t.released d = true := by
  have hall : seqCovers 0 = fun _ => true := funext fun _ => rfl
  refine Does.of_exec (exec_resetSequenceStep (by decide) h0 (by rw [hn, hall]; exact hk)) ?_
  obtain ⟨hstep, hheld⟩ := s.stepSet_reads 0 (nextStep_lt hk)
  rw [State.seqStep_eq, hall, List.filter_eq_self.mpr fun _ _ => rfl]
  refine ⟨((State.centralKept_foldl_domainUp _ _).rd F.PWR_SEQ_STATUS_step 0 0 (by decide) (by decide)).trans hstep, fun d hd hf => ?_⟩
  rw [State.released_foldl_domainUp _ _ (stepDomains_lt (nextStep_lt hk) d hd), hheld, hf, List.contains_iff_mem.mpr hd]
  simp

/-- The entry of a reset for the device ledger touches nothing of the part's own state but the entries that wait. -/
theorem State.causesDue_sys (s : State) : ∃ l, s.causesDue.sys = { s.sys with causes := l } := by
  unfold State.causesDue
  split
  · refine ⟨[], congrArg (fun x : SysSt => { x with causes := [] }) (State.each_of_kept State.sys (f := fun (s : State) c =>
      s.tick.ledgerAdd 4 0 [s.causeWord, c, s.rd F.AGE_HOURS_hours, ptpSeconds s.now, ptpNanos s.now, b2n s.ptpUnlocked]) (fun _ _ => rfl) s _)⟩
  · exact ⟨s.sys.causes, rfl⟩

theorem State.resetDone_sys (s : State) (n : Nat) : ∃ l, (s.resetDone n).sys = { s.sys with causes := l } := by
  obtain ⟨l, hl⟩ := (s.updSys fun x => { x with causes := x.causes ++ [n] }).causesDue_sys
  exact ⟨l, hl⟩

theorem exec_resetSequenceStep_gap {d : Nat} (h0 : s.deviceHeld = false) (hg : s.sys.gaps.contains d = true) : exec (.resetSequenceStep (3 + d)) s =
    .next (((s.updSys fun x => { x with gaps := x.gaps.filter (· ≠ d) }).domainUp d).resetDone 3) := by
  change execResetSequenceStep (3 + d) s = _
  unfold execResetSequenceStep
  rw [if_neg (Bool.eq_false_iff.mp h0), if_pos (by omega)]
  dsimp only
  rw [Nat.add_sub_cancel_left, if_pos hg]

theorem gap_ends {d : Nat} (hd : d < 32) (h0 : s.deviceHeld = false) (hg : s.sys.gaps.contains d = true) (hf : s.domainHeld d = false) :
    Does (.resetSequenceStep (3 + d)) s fun t => t.released d = true ∧ t.sys.gaps.contains d = false := by
  refine Does.of_exec (exec_resetSequenceStep_gap h0 hg) ?_
  generalize hu : s.updSys (fun x => { x with gaps := x.gaps.filter (· ≠ d) }) = u
  have hheld : u.domainHeld d = false := by rw [← hu]; exact hf
  have hgaps : u.sys.gaps.contains d = false := by rw [← hu]; simp [State.updSys]
  refine ⟨?_, ?_⟩
  · rw [State.released, State.resetDone_rd]
    exact (State.released_domainUp u d hd).trans (by rw [hheld]; simp)
  · obtain ⟨l, hl⟩ := (u.domainUp d).resetDone_sys 3
    have hup : (u.domainUp d).sys.gaps = u.sys.gaps :=
      congrArg SysSt.gaps (a₁ := (u.domainUp d).sys.beside) (a₂ := u.sys.beside) (u.centralKept_domainUp d).sys
    rw [hl]
    exact (congrArg (fun l : List Nat => l.contains d) hup).trans hgaps

/-! ### A half's reset -/

/-- The cause that a half's reset sets, by its source (R563). -/
def causeFld (cause : Nat) : Fld := [F.RST_CAUSE_wdt_w, F.RST_CAUSE_wdt_e, F.RST_CAUSE_hreq_w, F.RST_CAUSE_hreq_e].getD (cause - 2) F.RST_CAUSE_wdt_w

/-- The reset of a half up to its domains' going down: what runs on it is ended. -/
def State.halfEnded (s : State) (h cause : Nat) : State :=
  let t := s.updSys fun x => { x with halves := updAt x.halves h fun l => l ++ [cause] }
  let t1 := (t.wr (causeFld cause) 1).bump F.RST_CNT_half
  let t2 := t1.each (List.range 4) fun s e => (s.scrapeAll e).closeIfDone e
  ((t2.dropActivation St.HALF_RESET).calAborted h).intakeReset h

theorem State.halfAssert_eq (s : State) (h cause : Nat) : s.halfAssert h cause =
    (((s.halfEnded h cause).each (halfDomains h) fun s d => s.domainDown d St.HALF_RESET).updKeeper h fun k =>
      { k with up := false, beaten := false, notice := false }).updSys fun x => { x with seqs := updAt x.seqs (h + 1) fun _ => none } := rfl

theorem causeFld_mem (cause : Nat) : causeFld cause ∈ [F.RST_CAUSE_wdt_w, F.RST_CAUSE_wdt_e, F.RST_CAUSE_hreq_w, F.RST_CAUSE_hreq_e] := by
  unfold causeFld
  rw [List.getD_eq_getElem?_getD]
  cases hx : [F.RST_CAUSE_wdt_w, F.RST_CAUSE_wdt_e, F.RST_CAUSE_hreq_w, F.RST_CAUSE_hreq_e][cause - 2]? with
  | none => simp
  | some x => exact List.mem_of_getElem? hx

theorem State.halfEnded_reads (s : State) (h cause : Nat) : (s.halfEnded h cause).rd (causeFld cause) = 1
    ∧ (s.halfEnded h cause).sys.beside = { s.sys.beside with halves := updAt s.sys.halves h fun l => l ++ [cause] } := by
  unfold State.halfEnded
  extract_lets t t1 t2
  have hc : t1.rd (causeFld cause) = 1 := by
    have hoff := (by decide : ∀ f ∈ [F.RST_CAUSE_wdt_w, F.RST_CAUSE_wdt_e, F.RST_CAUSE_hreq_w, F.RST_CAUSE_hreq_e],
        ¬ (f.base = F.RST_CNT_half.base ∧ f.lo = F.RST_CNT_half.lo) ∧ 1 % 2 ^ f.width = 1) _ (causeFld_mem cause)
    exact (State.rd_wr_other _ F.RST_CNT_half (causeFld cause) _ 0 0 0 0 hoff.1).trans ((State.rd_wr_self t (causeFld cause) 1 0 0).trans hoff.2)
  have h1 : t1.sys = t.sys := (State.wr_sys ..).trans (State.wr_sys ..)
  have hts : t.sys.beside = { s.sys.beside with halves := updAt s.sys.halves h fun l => l ++ [cause] } := rfl
  clear_value t1 t
  have fr := State.CentralKept.frame [] t1
  have h2 : State.CentralKept [] t1 t2 := fr.each (State.CentralKept.refl [] t1) _ _ fun _ _ hx => fr.closeIfDone (fr.scrapeAll hx _) _
  have h3 := fr.intakeReset (fr.calAborted (fr.dropActivation h2 St.HALF_RESET) h) h
  have hcentral : (causeFld cause).Central := by
    have hm := causeFld_mem cause
    generalize causeFld cause = f at hm
    exact (by decide : ∀ f ∈ [F.RST_CAUSE_wdt_w, F.RST_CAUSE_wdt_e, F.RST_CAUSE_hreq_w, F.RST_CAUSE_hreq_e], f.Central) f hm
  exact ⟨(h3.rd _ 0 0 hcentral fun _ hx => nomatch hx).trans hc, h3.sys.trans ((congrArg SysSt.beside h1).trans hts)⟩

theorem halfDomains_lt {d : Nat} (hd : d ∈ halfDomains h) : d < 32 := List.mem_range.mp (List.mem_filter.mp hd).1

/-- A half's reset takes its keeper and its domains down, with the cause set and its source noted (R558, R563). -/
theorem State.halfAssert_reads (s : State) {h : Nat} (cause : Nat) (hh : h < s.sys.halves.length) (hk : h < s.sys.keepers.length) :
    ((s.halfAssert h cause).keeper h).up = false ∧ (∀ d ∈ halfDomains h, (s.halfAssert h cause).released d = false)
      ∧ ((s.halfAssert h cause).sys.halves.getD h []).contains cause = true ∧ (s.halfAssert h cause).rd (causeFld cause) = 1
      ∧ (s.halfAssert h cause).sys.reqs = s.sys.reqs := by
  obtain ⟨hcause, hsys⟩ := s.halfEnded_reads h cause
  rw [State.halfAssert_eq]
  generalize hu : s.halfEnded h cause = u at hcause hsys
  generalize hv : (u.each (halfDomains h) fun s d => s.domainDown d St.HALF_RESET) = v
  have hrel : ∀ d ∈ halfDomains h, v.released d = false := fun d hd => by
    rw [← hv, State.released_each_domainDown u _ (fun _ => St.HALF_RESET) (halfDomains_lt hd), List.contains_iff_mem.mpr hd]
    simp
  have hkept : State.CentralKept downFlds u v := hv ▸ (State.CentralKept.refl downFlds u).each _ fun t d => t.centralKept_domainDown d _
  have hb := hkept.sys.trans hsys
  have hkeep : v.sys.keepers = s.sys.keepers := (congrArg SysSt.keepers (a₁ := v.sys.beside) hb).trans rfl
  have hhal : v.sys.halves = updAt s.sys.halves h fun l => l ++ [cause] := (congrArg SysSt.halves (a₁ := v.sys.beside) hb).trans rfl
  have hreq : v.sys.reqs = s.sys.reqs := (congrArg SysSt.reqs (a₁ := v.sys.beside) hb).trans rfl
  refine ⟨?_, hrel, ?_, ?_, hreq⟩
  · have hself := updAt_getD_self v.sys.keepers h (fun k => { k with up := false, beaten := false, notice := false }) KeeperSt.init (hkeep ▸ hk)
    exact congrArg KeeperSt.up hself
  · have hself := updAt_getD_self s.sys.halves h (fun l => l ++ [cause]) [] hh
    rw [show (((v.updKeeper h fun k => { k with up := false, beaten := false, notice := false }).updSys fun x =>
      { x with seqs := updAt x.seqs (h + 1) fun _ => none }).sys.halves) = v.sys.halves from rfl, hhal, hself]
    simp
  · refine Eq.trans ?_ hcause
    have hm := causeFld_mem cause
    generalize causeFld cause = f at hm
    have hoff : ∀ f ∈ [F.RST_CAUSE_wdt_w, F.RST_CAUSE_wdt_e, F.RST_CAUSE_hreq_w, F.RST_CAUSE_hreq_e], f.Central ∧ f.Off downFlds := by decide
    exact hkept.rd f 0 0 (hoff f hm).1 (hoff f hm).2

theorem exec_halfResetAssert (hr : s.sys.reqs.contains h = true) (hu : (s.keeper s.holder).up = true) (hb : (s.keeper s.holder).beaten = true)
    (hq : s.quiet s.holder = false) (h0 : s.deviceHeld = false) :
    exec (.halfResetAssert h) s = .next ((s.updSys fun x => { x with reqs := x.reqs.filter (· ≠ h) }).halfAssert h (4 + h)) :=
  if_pos (by rw [hr, hu, hb, hq, h0]; rfl)

theorem exec_keeperWatchdogExpire (hu : (s.keeper h).up = true) (hb : (s.keeper h).beaten = true) (h0 : s.deviceHeld = false) :
    exec (.keeperWatchdogExpire h) s = .next (s.halfAssert h (2 + h)) := if_pos (by rw [hu, hb, h0]; rfl)

theorem exec_halfResetRelease {c : Nat} {l : List Nat} (hl : s.sys.halves.getD h [] = c :: l) (h0 : s.deviceHeld = false) :
    exec (.halfResetRelease h) s = .next (
      let t := (s.updSys fun x => { x with halves := updAt x.halves h fun _ => [] })
      let t1 := (t.updSys fun x => { x with seqs := updAt x.seqs (h + 1) fun _ => some 2, causes := x.causes ++ [1] }).wr F.PWR_SEQ_STATUS_busy 1
      (t1.raise h Ev.RST_HALF (le 1 h ++ le 1 (listMin (c :: l)))).causesDue) := by
  change execHalfResetRelease h s = _
  unfold execHalfResetRelease
  rw [hl]
  exact if_neg (Bool.eq_false_iff.mp h0)

theorem halfResetRelease_does (hh : h < s.sys.halves.length) (hs : h + 1 < s.sys.seqs.length) (hl : s.sys.halves.getD h [] ≠ []) (h0 : s.deviceHeld = false) :
    Does (.halfResetRelease h) s fun t => t.sys.halves.getD h [] = [] ∧ t.sys.seqs.getD (h + 1) none = some 2 ∧ t.rd F.PWR_SEQ_STATUS_busy = 1
      ∧ t.mem = s.mem := by
  obtain ⟨c, l, hcl⟩ := List.exists_cons_of_ne_nil hl
  refine Does.of_exec (exec_halfResetRelease hcl h0) ?_
  extract_lets t t1
  have hsys : t1.sys = { s.sys with halves := updAt s.sys.halves h fun _ => [], seqs := updAt s.sys.seqs (h + 1) fun _ => some 2,
                                    causes := s.sys.causes ++ [1] } := State.wr_sys ..
  have hbusy : t1.rd F.PWR_SEQ_STATUS_busy = 1 := State.rd_wr_self _ F.PWR_SEQ_STATUS_busy 1 0 0
  have hmem : t1.mem = s.mem := State.wr_mem ..
  clear_value t1
  obtain ⟨cs, hcs⟩ := (t1.raise h Ev.RST_HALF (le 1 h ++ le 1 (listMin (c :: l)))).causesDue_sys
  rw [State.Apart.sys.raise, hsys] at hcs
  refine ⟨?_, ?_, ?_, ?_⟩
  · rw [hcs]
    exact updAt_getD_self _ _ _ _ hh
  · rw [hcs]
    exact updAt_getD_self _ _ _ _ hs
  · rw [State.causesDue_kept (fun t => t.rd F.PWR_SEQ_STATUS_busy) (fun _ => rfl) (fun _ _ _ _ => rfl) fun _ _ => rfl,
      State.rd_raise_other _ _ _ _ _ _ _ (by decide), hbusy]
  · rw [State.causesDue_kept State.mem (fun _ => rfl) (fun _ _ _ _ => rfl) fun _ _ => rfl, State.raise_mem, hmem]

/-! ### The domains' power and reset bits -/

theorem bitOf_foldl_setBit (l : List Nat) (n d : Nat) : bitOf (l.foldl (fun a d => setBit a d true) n) d = (l.contains d || bitOf n d) := by
  induction l generalizing n with
  | nil => rfl
  | cons x l ih =>
    rw [List.foldl_cons, ih, bitOf_setBit, List.contains_cons]
    by_cases hd : d = x
    · simp [hd]
    · simp [hd, beq_eq_false_iff_ne.mpr hd]

/-- A bit of PWR_ON as a write sets it: the fixed domains stay on (R549). -/
theorem bitOf_pwrOn {d : Nat} (hd : d < 32) :
    bitOf (fixedDomains.foldl (fun a d => setBit a d true) (v % 4294967296)) d = (fixedDomains.contains d || bitOf v d) := by
  rw [bitOf_foldl_setBit, show v % 4294967296 = v % 2 ^ 32 from rfl, bitOf_mod_two_pow, decide_eq_true hd, Bool.true_and]

theorem mem_pwrGone {d : Nat} (hd : d < 32) (hon : bitOf (s.rd F.PWR_ON_on) d = true) (hv : bitOf v d = false) (hf : fixedDomains.contains d = false) :
    d ∈ s.pwrGone v := by
  refine List.mem_filter.mpr ⟨List.mem_range.mpr hd, ?_⟩
  rw [hon, bitOf_pwrOn hd, hf, hv]
  rfl

theorem exec_pwrOnWrite (hc : s.capturing = false) : exec (.pwrOnWrite v) s = .next (s.pwrOn v) :=
  congrArg Host.Outcome.next (if_neg (by rw [hc, Bool.and_false]; exact Bool.false_ne_true))

/-- What a write of PWR_ON leaves: its bits, the domains switched off in reset, and their switches to open (R549 to R551). -/
theorem State.pwrOn_reads (s : State) (v : Nat) : (∀ d, d < 32 → bitOf ((s.pwrOn v).rd F.PWR_ON_on) d = (fixedDomains.contains d || bitOf v d))
    ∧ ∀ d ∈ s.pwrGone v, d < 32 → (s.pwrOn v).released d = false ∧ (s.pwrOn v).rd F.RST_CAUSE_pwr_off = 1 ∧ (s.pwrOn v).sys.opening.contains d = true := by
  unfold State.pwrOn
  extract_lets new off on t
  have hon : t.rd F.PWR_ON_on = new % 2 ^ 32 := by
    have h0 := State.rd_wr_self s F.PWR_ON_on new 0 0
    simp only [t]
    cases (!off.isEmpty)
    · exact h0
    · exact (State.rd_wr_other _ F.RST_CAUSE_pwr_off F.PWR_ON_on 1 0 0 0 0 (by decide)).trans h0
  have hcause : off ≠ [] → t.rd F.RST_CAUSE_pwr_off = 1 := fun hne => by
    simp only [t]
    rw [show (!off.isEmpty) = true by simpa using hne]
    exact State.rd_wr_self _ F.RST_CAUSE_pwr_off 1 0 0
  have hnew : ∀ d, d < 32 → bitOf new d = (fixedDomains.contains d || bitOf v d) := fun d hd => bitOf_pwrOn hd
  have hgone : off = s.pwrGone v := rfl
  clear_value t new off
  have hw : State.CentralKept downFlds t (off.foldl (fun (s : State) d => s.domainDown d (downStatus d)) t) :=
    (State.CentralKept.refl downFlds t).each off fun u d => u.centralKept_domainDown d _
  refine ⟨fun d hd => ?_, fun d hd h32 => ⟨?_, ?_, ?_⟩⟩
  · have hr : (off.foldl (fun (s : State) d => s.domainDown d (downStatus d)) t).rd F.PWR_ON_on = new % 2 ^ 32 :=
      (hw.rd F.PWR_ON_on 0 0 (by decide) (by decide)).trans hon
    refine (congrArg (fun n => bitOf n d) hr).trans ?_
    rw [bitOf_mod_two_pow, decide_eq_true hd, Bool.true_and, hnew d hd]
  · have hr := State.released_each_domainDown t off downStatus h32
    rw [List.contains_iff_mem.mpr (hgone ▸ hd), Bool.not_true, Bool.and_false] at hr
    exact hr
  · exact (hw.rd F.RST_CAUSE_pwr_off 0 0 (by decide) (by decide)).trans (hcause (List.ne_nil_of_mem (hgone ▸ hd)))
  · exact List.contains_iff_mem.mpr (List.mem_append_right _ (hgone ▸ hd))

theorem exec_rstDomainWrite (hc : s.capturing = false) (hf : (List.range 32).any (fun d => bitOf v d && fixedDomains.contains d) = false) :
    exec (.rstDomainWrite v) s = .next (s.domainHold v) :=
  congrArg Host.Outcome.next (if_neg (by rw [hc, hf, Bool.and_false, Bool.or_false]; exact Bool.false_ne_true))

theorem State.domainHold_reads (s : State) {v d : Nat} (hd : d < 32) (hv : bitOf v d = true) (hh : bitOf (s.rd F.RST_DOMAIN_hold) d = false) :
    (s.domainHold v).released d = false ∧ (s.domainHold v).rd F.RST_DOMAIN_hold = v % 4294967296 ∧ (s.domainHold v).rd F.RST_CAUSE_domain = 1 := by
  have hmem : d ∈ s.heldNow v := List.mem_filter.mpr ⟨List.mem_range.mpr hd, by rw [hv, hh]; rfl⟩
  unfold State.domainHold
  extract_lets set clear t
  have hne : (!set.isEmpty) = true := by simpa using List.ne_nil_of_mem hmem
  have ht : t = (s.wr F.RST_DOMAIN_hold v).wr F.RST_CAUSE_domain 1 := by simp only [t]; rw [hne]; rfl
  have hhold : t.rd F.RST_DOMAIN_hold = v % 4294967296 := by
    rw [ht]
    exact (State.rd_wr_other _ F.RST_CAUSE_domain F.RST_DOMAIN_hold 1 0 0 0 0 (by decide)).trans (State.rd_wr_self s F.RST_DOMAIN_hold v 0 0)
  have hcause : t.rd F.RST_CAUSE_domain = 1 := by rw [ht]; exact State.rd_wr_self _ F.RST_CAUSE_domain 1 0 0
  have hset : d ∈ set := hmem
  clear_value t set
  have hw : State.CentralKept downFlds t (set.foldl (fun (s : State) d => s.domainDown d St.DOMAIN_RESET) t) :=
    (State.CentralKept.refl downFlds t).each set fun u d => u.centralKept_domainDown d _
  refine ⟨?_, (hw.rd F.RST_DOMAIN_hold 0 0 (by decide) (by decide)).trans hhold, (hw.rd F.RST_CAUSE_domain 0 0 (by decide) (by decide)).trans hcause⟩
  have hr := State.released_each_domainDown t set (fun _ => St.DOMAIN_RESET) hd
  rw [List.contains_iff_mem.mpr hset, Bool.not_true, Bool.and_false] at hr
  exact hr

/-! ### The other commands -/

theorem diodeComparatorRead_trips {hot cool : List Bool} {d : Nat} (hd : d < 16) (hh : hot.getD d false = true) (hm : s.on F.THM_DIODE_masked d = false)
    (h1 : 1 ≤ s.sys.hot.getD d 0) (h0 : s.deviceHeld = false) :
    Does (.diodeComparatorRead hot cool) s fun t => t.sys.trip = true ∧ t.rd F.RST_CAUSE_trip = 1 ∧ t.mem = s.mem := by
  change ∃ t, execDiodeComparatorRead hot cool s = .next t ∧ _
  unfold execDiodeComparatorRead
  extract_lets n t
  have hany : n.any (fun k => decide (2 ≤ k)) = true := by
    refine List.any_eq_true.mpr ⟨s.sys.hot.getD d 0 + 1, List.mem_map.mpr ⟨d, List.mem_range.mpr hd, ?_⟩, decide_eq_true (by omega)⟩
    rw [hh, hm]
    rfl
  refine ⟨t.thermalTrip, congrArg Host.Outcome.next (if_pos (by rw [hany, h0]; rfl)), ?_⟩
  exact t.thermalTrip_reads

theorem diodeComparatorRead_cool (cool : List Bool) : Does (.diodeComparatorRead [] cool) s fun t => t.sys.hot = List.replicate 16 0 ∧ s.Only t [] :=
  ⟨s.updSys fun x => { x with hot := List.replicate 16 0, cool := (List.range 16).all fun d => cool.getD d false }, rfl, rfl, (State.Only.refl s _).same⟩

theorem sourceGone {f : SysSt → SysSt} {i : Instr} (hf : exec i s = .next (s.updSys f).deviceRelease) (h0 : (s.updSys f).deviceHeld = false)
    (hs : (s.updSys f).sys.seqs = s.sys.seqs) (hl : h + 1 < s.sys.seqs.length) :
    Does i s fun t => t.sys.por = (f s.sys).por ∧ t.sys.pin = (f s.sys).pin ∧ t.sys.trip = (f s.sys).trip ∧ t.sys.seqs.getD 0 none = some 1
      ∧ t.rd F.PWR_SEQ_STATUS_step = 1 ∧ t.rd F.PWR_SEQ_STATUS_busy = 1 ∧ s.Only t [(F.PWR_SEQ_STATUS_step, 0), (F.PWR_SEQ_STATUS_busy, 0)] := by
  obtain ⟨hseq, hstep, hbusy, hpor, hpin, htrip, honly⟩ := State.deviceRelease_reads h0 (by rw [hs]; omega)
  exact Does.of_exec hf ⟨hpor, hpin, htrip, hseq, hstep, hbusy, (State.Only.refl s _).same.trans honly⟩

end

/-- Settles O57: the device, the halves and the domains, each by what its reset and its release leave. -/
theorem powerAndReset : Obligations.PowerAndReset := by
  unfold Obligations.PowerAndReset
  refine ⟨fun h v s h2 hh hs hk => ⟨?_, ?_, fun hp hi ht => ?_, resetNAssert_does, fun hi hp ht => ?_, fun cool => diodeComparatorRead_cool cool,
    fun hot cool d hd hh hm h1 h0 => diodeComparatorRead_trips hd hh hm h1 h0, fun ht hc hp hi => ?_, fun n k h0 hn hk => resetSequenceStep_releases h0 hn hk,
    fun d hd h0 hg hf => gap_ends hd h0 hg hf, fun hv hq => ?_, fun hv hq hu hb => ?_, fun hr hu hb hq h0 => ?_, fun hu hb h0 => ?_,
    fun hl h0 => halfResetRelease_does hh hs hl h0, fun d hc hb hd hon hv hf => ?_, fun hc => ?_, fun d hc hd hon hv hf => ?_, fun d ho => ?_,
    fun d hf hv => ?_, fun d hc hany hd hv hh => ?_⟩,
    fun h v s => ⟨exec_pwrOnWrite, exec_rstDomainWrite, fun k hh h0 hk => exec_resetSequenceStep hh h0 hk, fun h0 hg => exec_resetSequenceStep_gap h0 hg,
      rfl, rfl, rfl, exec_keeperWatchdogExpire, exec_halfResetAssert, fun c l hl h0 => exec_halfResetRelease hl h0⟩⟩
  · exact ⟨_, rfl, s.powerReset_reads⟩
  · obtain ⟨hpor, hcp, hci, -, hmem, hcmds⟩ := s.powerReset_reads
    exact ⟨_, rfl, hpor, hcp, hci, hmem, hcmds⟩
  · obtain ⟨t, hex, hpor, -, -, hseq, hstep, hbusy, honly⟩ := sourceGone (s := s) (f := fun x => { x with por := false }) (i := .railsInRange)
      (if_pos hp) (by simp [State.deviceHeld, State.updSys, hi, ht]) rfl hs
    exact ⟨t, hex, hpor, hseq, hstep, hbusy, honly⟩
  · obtain ⟨t, hex, -, hpin, -, hseq, hstep, -, honly⟩ := sourceGone (s := s) (f := fun x => { x with pin := false }) (i := .resetNRelease)
      (if_pos hi) (by simp [State.deviceHeld, State.updSys, hp, ht]) rfl hs
    exact ⟨t, hex, hpin, hseq, hstep, honly⟩
  · obtain ⟨t, hex, -, -, htrip, hseq, hstep, -, honly⟩ := sourceGone (s := s) (f := fun x => { x with trip := false }) (i := .thermalTripRelease)
      (if_pos (by rw [ht, hc]; rfl)) (by simp [State.deviceHeld, State.updSys, hp, hi]) rfl hs
    exact ⟨t, hex, htrip, hseq, hstep, honly⟩
  · exact (if_neg hv).trans (if_pos (by rw [hq]; rfl))
  · exact Does.of_exec ((if_neg hv).trans (if_neg (by rw [hq, hu, hb]; decide))) ⟨rfl, (State.Only.refl s _).same⟩
  · obtain ⟨hkeep, hrel, hcont, hcause, hreq⟩ := (s.updSys fun x => { x with reqs := x.reqs.filter (· ≠ h) }).halfAssert_reads (4 + h) hh hk
    refine Does.of_exec (exec_halfResetAssert hr hu hb hq h0) ⟨hkeep, ?_, hrel, hcont, ?_⟩
    · rw [hreq]
      simp [State.updSys]
    · rcases (by omega : h = 0 ∨ h = 1) with rfl | rfl
      · exact hcause
      · exact hcause
  · obtain ⟨hkeep, hrel, -, hcause, -⟩ := s.halfAssert_reads (2 + h) hh hk
    refine Does.of_exec (exec_keeperWatchdogExpire hu hb h0) ⟨hkeep, hrel, ?_⟩
    rcases (by omega : h = 0 ∨ h = 1) with rfl | rfl
    · exact hcause
    · exact hcause
  · exact congrArg Host.Outcome.next (if_pos (by rw [hc, List.any_eq_true.mpr ⟨d, mem_pwrGone hd hon hv hf, hb⟩]; rfl))
  · exact Does.of_exec (exec_pwrOnWrite hc) (s.pwrOn_reads v).1
  · exact Does.of_exec (exec_pwrOnWrite hc) ((s.pwrOn_reads v).2 d (mem_pwrGone hd hon hv hf) hd)
  · refine Does.of_exec (t := s.updSys fun x => { x with opening := x.opening.filter (· ≠ d), openSw := x.openSw ++ [d] }) (if_pos ho)
      ⟨?_, ?_, (State.Only.refl s _).same⟩
    · simp [State.updSys]
    · simp [State.updSys]
  · have h32 : d < 32 := (by decide : ∀ d ∈ fixedDomains, d < 32) d (List.contains_iff_mem.mp hf)
    exact congrArg Host.Outcome.next (if_pos (by
      rw [List.any_eq_true.mpr ⟨d, List.mem_range.mpr h32, by rw [hv, hf]; rfl⟩]; rfl))
  · exact Does.of_exec (exec_rstDomainWrite hc hany) (s.domainHold_reads hd hv hh)

end Sys2Proof.Machine
end

section
/-! PROOFS. Block resets, clock-good, the keepers' heartbeats and the bell (spec/17). -/
namespace Sys2Proof.Machine

set_option Elab.async false

/-! ### Blocks -/

section
variable {s : State} {b d : Nat}

/-- The part's own state is the same whatever else a function changes. -/
theorem State.sys_frame (x : SysSt) : State.Framed fun t => t.sys = x where
  wr h _ _ _ _ _ := (State.wr_sys ..).trans h
  emit h _ := h
  tick h := h
  same h _ _ _ _ _ _ _ h8 _ := h8.trans h

/-- A block's release takes it from those that wait and from HELD_FAULT, and where its clock is good it starts. -/
theorem State.blockRelease_sys (hb : s.sys.good.contains b = true) :
    (s.blockRelease b).sys = { s.sys with fault := s.sys.fault.filter (· ≠ b), waiting := s.sys.waiting.filter (· ≠ b) } := by
  unfold State.blockRelease
  extract_lets t0 t
  have fr := State.sys_frame t0.sys
  have ht : t.sys = t0.sys := fr.whenB (s := t0) rfl _ _ fun _ hx => fr.groupStart hx _
  rw [hb, Bool.not_true, Bool.and_false, if_neg Bool.false_ne_true]
  exact (fr.blockStart ht b).trans rfl

theorem exec_blockIdleReport (h : s.sys.block = some (b, false)) : exec .blockIdleReport s = .next (s.blockReset b) := by
  change execBlockIdleReport s = _
  unfold execBlockIdleReport
  rw [h]

/-- The half whose event a block's time-out is: West for a block of no domain (R566). -/
def blockHalf (b : Nat) : Nat := match blockDomain b with | some d => halfOf d | none => 0

theorem exec_blockIdleTimeout (h : s.sys.block = some (b, false)) : exec .blockIdleTimeout s =
    .next ((((s.wr F.RST_CAUSE_idle_timeout 1).flagCount F.RST_FLAGS_idle_timeout F.RST_CNT_idle_timeout).raise (blockHalf b)
      Ev.RST_IDLE_TIMEOUT (le 1 b)).blockReset b) := by
  change execBlockIdleTimeout s = _
  unfold execBlockIdleTimeout blockHalf
  cases hb : blockDomain b with
  | none => simp only [h, hb]
  | some d => simp only [h, hb]

theorem State.blockReset_rd (s : State) (b : Nat) {f : Fld} (hf : f.Central) (i j : Nat) : (s.blockReset b).rd f i j = s.rd f i j :=
  ((State.CentralKept.frame [] s).blockStop (State.CentralKept.refl [] s) b St.BLOCK_RESET).rd f i j hf fun _ hx => nomatch hx

theorem blockIdleTimeout_does (h : s.sys.block = some (b, false)) : Does .blockIdleTimeout s fun t => t.sys.block = some (b, true)
    ∧ t.rd F.RST_CAUSE_idle_timeout = 1 ∧ t.rd F.RST_FLAGS_idle_timeout = 1 := by
  refine Does.of_exec (exec_blockIdleTimeout h) ⟨rfl, ?_, ?_⟩
  · rw [State.blockReset_rd _ _ (by decide), State.rd_raise_other _ _ _ _ _ _ _ (by decide), State.rd_flagCount_other _ _ _ _ _ _ _ (by decide)]
    exact State.rd_wr_self s F.RST_CAUSE_idle_timeout 1 0 0
  · rw [State.blockReset_rd _ _ (by decide), State.rd_raise_other _ _ _ _ _ _ _ (by decide)]
    exact State.rd_flagCount_flag _ _ _ 0 (by decide)

/-- The state a block's release starts from: no block is in reset (R565). -/
def State.blockFreed (s : State) : State := (s.updSys fun x => { x with block := none }).wr F.RST_BLOCK_STATUS_busy 0

theorem exec_blockResetRelease (h : s.sys.block = some (b, true)) : exec .blockResetRelease s =
    .next ((if (blockDomain b).elim false s.blockFreed.released then (s.blockFreed.blockRelease b).blockStatus else s.blockFreed).resetDone 4) := by
  change execBlockResetRelease s = _
  unfold execBlockResetRelease
  rw [h]
  dsimp only
  cases blockDomain b <;> rfl

theorem State.blockFreed_sys (s : State) : s.blockFreed.sys = { s.sys with block := none } := State.wr_sys ..

theorem blockResetRelease_does (h : s.sys.block = some (b, true)) : Does .blockResetRelease s fun t => t.sys.block = none
    ∧ t.rd F.RST_BLOCK_STATUS_busy = 0 ∧ t.mem = s.mem := by
  refine Does.of_exec (exec_blockResetRelease h) ?_
  generalize hu : (if (blockDomain b).elim false s.blockFreed.released then (s.blockFreed.blockRelease b).blockStatus else s.blockFreed) = u
  have hk : State.CentralKept [F.RST_BLOCK_STATUS_fault] s.blockFreed u := by
    rw [← hu]
    exact (State.CentralKept.frame _ _).ite (((State.CentralKept.refl _ _).blockRelease b).wr (f := F.RST_BLOCK_STATUS_fault) (by decide) _ 0 0)
      (State.CentralKept.refl _ _)
  obtain ⟨l, hl⟩ := u.resetDone_sys 4
  refine ⟨?_, ?_, ?_⟩
  · rw [hl]
    exact (congrArg SysSt.block (a₁ := u.sys.beside) (a₂ := s.blockFreed.sys.beside) hk.sys).trans (congrArg SysSt.block s.blockFreed_sys)
  · rw [State.resetDone_rd]
    exact (hk.rd F.RST_BLOCK_STATUS_busy 0 0 (by decide) (by decide)).trans (State.rd_wr_self _ F.RST_BLOCK_STATUS_busy 0 0 0)
  · rw [State.resetDone, State.causesDue_kept State.mem (fun _ => rfl) (fun _ _ _ _ => rfl) fun _ _ => rfl]
    exact hk.mem.trans (State.wr_mem ..)

theorem exec_blockForceRelease (hlt : b < 256) (hd : blockDomain b = some d) (hw : s.sys.waiting.contains b = true) (hr : s.released d = true) :
    exec (.blockForceRelease b) s = .next ((s.wr F.RST_BLOCK_CTRL_block b).forceRelease b d) := by
  change execBlockForceRelease b s = _
  unfold execBlockForceRelease
  rw [Nat.mod_eq_of_lt hlt]
  dsimp only
  rw [hd]
  exact congrArg Host.Outcome.next (if_pos (by rw [hw, hr]; rfl))

/-- A block forced without clock-good is in HELD_FAULT (R569). -/
theorem State.forceRelease_reads (s : State) (hlt : b < 256) (d : Nat) (hg : s.sys.good.contains b = false) :
    (s.forceRelease b d).sys.fault.contains b = true ∧ (s.forceRelease b d).sys.waiting.contains b = false
      ∧ (s.forceRelease b d).rd F.RST_BLOCK_STATUS_held_fault = b ∧ (s.forceRelease b d).rd F.RST_CAUSE_clk_unstable = 1
      ∧ (s.forceRelease b d).rd F.RST_FLAGS_clk_unstable = 1 ∧ (s.forceRelease b d).mem = s.mem := by
  unfold State.forceRelease
  extract_lets t1
  rw [if_neg (Bool.eq_false_iff.mp hg)]
  generalize hu : ((t1.updSys fun x => { x with fault := x.fault ++ [b] }).blockStatus.wr F.RST_BLOCK_STATUS_held_fault b) = u
  have hsys : u.sys = { s.sys with waiting := s.sys.waiting.filter (· ≠ b), fault := s.sys.fault ++ [b] } := by
    rw [← hu, State.wr_sys, State.blockStatus, State.wr_sys]
    rfl
  have hheld : u.rd F.RST_BLOCK_STATUS_held_fault = b := by
    rw [← hu]
    exact (State.rd_wr_self _ F.RST_BLOCK_STATUS_held_fault b 0 0).trans (Nat.mod_eq_of_lt hlt)
  have hmem : u.mem = s.mem := by
    rw [← hu, State.wr_mem, State.blockStatus, State.wr_mem]
    rfl
  have hfin : (((u.wr F.RST_CAUSE_clk_unstable 1).flagCount F.RST_FLAGS_clk_unstable F.RST_CNT_clk_unstable).raise (halfOf d) Ev.RST_CLK_UNSTABLE
      (le 1 b)).sys = u.sys := by
    rw [State.Apart.sys.raise, State.flagCount, State.bump, State.wr_sys, State.wr_sys, State.wr_sys]
  refine ⟨?_, ?_, ?_, ?_, ?_, ?_⟩
  · rw [hfin, hsys]
    simp
  · rw [hfin, hsys]
    simp
  · simp (disch := decide) only [State.rd_raise_other, State.rd_flagCount_other, State.rd_wr_other]
    exact hheld
  · simp (disch := decide) only [State.rd_raise_other, State.rd_flagCount_other]
    exact State.rd_wr_self u F.RST_CAUSE_clk_unstable 1 0 0
  · rw [State.rd_raise_other _ _ _ _ _ _ _ (by decide)]
    exact State.rd_flagCount_flag _ _ _ 0 (by decide)
  · rw [State.raise_mem, State.flagCount, State.bump, State.wr_mem, State.wr_mem, State.wr_mem, hmem]

theorem clockGoodRise_does : Does (.clockGoodRise b) s fun t => t.sys.good.contains b = true ∧ t.sys.waiting.contains b = false := by
  change ∃ t, execClockGoodRise b s = .next t ∧ _
  unfold execClockGoodRise
  extract_lets t
  have hg : t.sys.good.contains b = true := List.contains_iff_mem.mpr List.mem_cons_self
  have hw : t.sys.waiting = s.sys.waiting := rfl
  clear_value t
  refine ⟨_, rfl, ?_⟩
  split
  · rw [State.blockRelease_sys hg]
    exact ⟨hg, by simp⟩
  · next h => exact ⟨hg, by rw [hw]; exact Bool.eq_false_iff.mpr h⟩

theorem exec_blockResetRequest (hlt : b < 256) (hd : blockDomain b = some d) (hb : s.sys.block = none) : exec (.blockResetRequest b) s =
    if s.released d then .next ((((s.wr F.RST_BLOCK_CTRL_block b).wr F.RST_BLOCK_STATUS_busy 1).wr F.RST_CAUSE_block 1).updSys fun x =>
      { x with block := some (b, false) })
    else .next (s.wr F.RST_BLOCK_CTRL_block b) := by
  change execBlockResetRequest b s = _
  unfold execBlockResetRequest
  rw [Nat.mod_eq_of_lt hlt]
  dsimp only
  rw [hd]
  exact if_neg (by rw [hb]; exact Bool.false_ne_true)

theorem blockResetRequest_begins (hlt : b < 256) (hd : blockDomain b = some d) (hb : s.sys.block = none) (hr : s.released d = true) :
    Does (.blockResetRequest b) s fun t => t.sys.block = some (b, false) ∧ t.rd F.RST_BLOCK_STATUS_busy = 1 ∧ t.rd F.RST_CAUSE_block = 1
      ∧ s.Only t [(F.RST_BLOCK_CTRL_block, 0), (F.RST_BLOCK_STATUS_busy, 0), (F.RST_CAUSE_block, 0)] := by
  refine Does.of_exec ((exec_blockResetRequest hlt hd hb).trans (if_pos hr)) ⟨rfl, ?_, ?_, ?_⟩
  · exact (State.rd_wr_other _ F.RST_CAUSE_block F.RST_BLOCK_STATUS_busy 1 0 0 0 0 (by decide)).trans
      (State.rd_wr_self (s.wr F.RST_BLOCK_CTRL_block b) F.RST_BLOCK_STATUS_busy 1 0 0)
  · exact State.rd_wr_self ((s.wr F.RST_BLOCK_CTRL_block b).wr F.RST_BLOCK_STATUS_busy 1) F.RST_CAUSE_block 1 0 0
  · exact ((((State.Only.refl s _).wr F.RST_BLOCK_CTRL_block b 0 0 (by simp)).wr F.RST_BLOCK_STATUS_busy 1 0 0 (by simp)).wr F.RST_CAUSE_block 1 0 0
      (by simp)).same

theorem blockResetRequest_refused (hlt : b < 256) (h : blockDomain b = none ∨ s.sys.block.isSome = true) :
    exec (.blockResetRequest b) s = .next (s.flagCount F.RST_FLAGS_cfg_refused F.RST_CNT_cfg_refused) := by
  change execBlockResetRequest b s = _
  unfold execBlockResetRequest
  rw [Nat.mod_eq_of_lt hlt]
  dsimp only
  cases hd : blockDomain b with
  | none => rfl
  | some d =>
    rcases h with h | h
    · rw [h] at hd
      cases hd
    · exact if_pos h

end

/-! ### Quiet and the bell -/

section
variable {s : State} {h : Nat}

/-- The fields of the ageing trend, which a settled sample sets. -/
def trendFlds : List Fld := [F.AGE_TREND_a_last, F.AGE_TREND_k]

/-- The fields that a half's leaving quiet may set. -/
def settleFlds : List Fld := F.AUTH_STATUS_quiet_w :: F.AUTH_STATUS_quiet_e :: (trendFlds ++ eventFlds)

theorem State.within_sampleSettle (s : State) : State.Within trendFlds s s.sampleSettle := by
  unfold State.sampleSettle
  split
  · split
    · exact .refl _ _
    · extract_lets a hours t
      have ht : State.Within trendFlds s t := (State.Within.refl trendFlds s).same
      exact (ht.wr (f := F.AGE_TREND_a_last) (by decide) _ 0 0).wr (f := F.AGE_TREND_k) (by decide) _ 0 0
  · exact .refl _ _

theorem State.quiet_sampleSettle (s : State) (h : Nat) : s.sampleSettle.quiet h = s.quiet h :=
  State.quiet_of_rd (s.within_sampleSettle.quiet (by decide)) h

theorem State.sampleSettle_keepers (s : State) : s.sampleSettle.sys.keepers = s.sys.keepers := by
  unfold State.sampleSettle
  split
  · split
    · rfl
    · rw [State.wr_sys, State.wr_sys]
      rfl
  · rfl

theorem State.within_causesDue (l : List Fld) (s : State) : State.Within l s s.causesDue :=
  ⟨State.causesDue_kept State.mem (fun _ => rfl) (fun _ _ _ _ => rfl) (fun _ _ => rfl) s,
    fun f i j _ => State.causesDue_kept (fun t => t.rd f i j) (fun _ => rfl) (fun _ _ _ _ => rfl) (fun _ _ => rfl) s⟩

theorem State.causesDue_keepers (s : State) : s.causesDue.sys.keepers = s.sys.keepers := by
  obtain ⟨l, hl⟩ := s.causesDue_sys
  rw [hl]

theorem State.quiet_eq (s : State) (h : Nat) : s.quiet h = (s.rd (quietFld h) == 1) := by
  unfold State.quiet State.on quietFld
  split <;> rfl

theorem quietFld_mem (h : Nat) : quietFld h ∈ [F.AUTH_STATUS_quiet_w, F.AUTH_STATUS_quiet_e] := by
  unfold quietFld
  split <;> simp

theorem State.quiet_wr_self (s : State) (h v : Nat) (hv : v < 2) : (s.wr (quietFld h) v).quiet h = (v == 1) := by
  have hw := (by decide : ∀ f ∈ [F.AUTH_STATUS_quiet_w, F.AUTH_STATUS_quiet_e], f.width = 1) _ (quietFld_mem h)
  rw [State.quiet_eq, State.rd_wr_self, hw, Nat.pow_one, Nat.mod_eq_of_lt hv]

/-- A half that leaves quiet or was not in it is not in quiet, and no keeper changes. -/
theorem State.leaveQuiet_reads (s : State) (h : Nat) : (s.leaveQuiet h).quiet h = false ∧ (s.leaveQuiet h).sys.keepers = s.sys.keepers
    ∧ State.Within settleFlds s (s.leaveQuiet h) := by
  unfold State.leaveQuiet
  split
  · have hw : State.Within settleFlds s ((s.wr (quietFld h) 0).raise h Ev.AUTH_SETTLED (le 1 h)) :=
      ((State.Within.refl settleFlds s).wr (f := quietFld h)
        ((by decide : ∀ f ∈ [F.AUTH_STATUS_quiet_w, F.AUTH_STATUS_quiet_e], f ∈ settleFlds) _ (quietFld_mem h)) 0 0 0).raise (by decide) ..
    refine ⟨?_, ?_, (hw.trans (State.within_causesDue _ _)).trans ((State.within_sampleSettle _).mono (by decide))⟩
    · have hq : ((s.wr (quietFld h) 0).raise h Ev.AUTH_SETTLED (le 1 h)).quiet h = false :=
        (State.quiet_of_rd ((State.Within.refl eventFlds (s.wr (quietFld h) 0)).raise (fun _ hx => hx) h Ev.AUTH_SETTLED (le 1 h) |>.quiet (by decide))
          h).trans (s.quiet_wr_self h 0 (by decide))
      rw [State.quiet_sampleSettle]
      exact (State.quiet_of_rd ((State.within_causesDue [] _).quiet (by decide)) h).trans hq
    · rw [State.sampleSettle_keepers, State.causesDue_keepers, State.Apart.sys.raise, State.wr_sys]
  · next hq => exact ⟨Bool.eq_false_iff.mpr hq, rfl, .refl _ _⟩

/-- The fields that a half's entering quiet may set. -/
def conflictFlds : List Fld :=
  F.AUTH_STATUS_quiet_w :: F.AUTH_STATUS_quiet_e :: F.AUTH_FLAGS_conflict :: F.AUTH_CNT_conflict :: commandFlds

theorem State.Within.endCmds {l : List Fld} {s t : State} (h : State.Within l s t) (hl : ∀ x ∈ commandFlds, x ∈ l) (mine : Cmd → Bool)
    (status half : Nat) : State.Within l s (t.endCmds mine status half) :=
  State.Within.each (f := fun (s : State) (c : Cmd) => s.complete c.id status 0 0 half) h _ fun _ _ hu => hu.complete hl ..

/-- A half that enters quiet is in quiet, and its keeper stays as it is but for what it has heard (R575). -/
theorem State.enterQuiet_reads (s : State) (h : Nat) : (s.enterQuiet h).quiet h = true ∧ ((s.enterQuiet h).keeper h).up = (s.keeper h).up
    ∧ (s.enterQuiet h).mem = s.mem := by
  unfold State.enterQuiet
  split
  · next hq => exact ⟨hq, rfl, rfl⟩
  · extract_lets t
    have hq : t.quiet h = true := s.quiet_wr_self h 1 (by decide)
    have hup : (t.keeper h).up = (s.keeper h).up := (updAt_getD_of_kept KeeperSt.up (s.wr (quietFld h) 1).sys.keepers h h
      (fun k => { k with heard := false, run := 0 }) KeeperSt.init fun _ => rfl).trans
      (congrArg (fun x : SysSt => (x.keepers.getD h KeeperSt.init).up) (State.wr_sys ..))
    have hm : t.mem = s.mem := State.wr_mem ..
    clear_value t
    have hw : State.Within (F.AUTH_FLAGS_conflict :: F.AUTH_CNT_conflict :: commandFlds) t
        ((((t.flagCount F.AUTH_FLAGS_conflict F.AUTH_CNT_conflict).raise h Ev.AUTH_CONFLICT (le 1 h)).dropActivation St.AUTH_UNSETTLED)) :=
      (((State.Within.refl _ t).flagCount (a := F.AUTH_FLAGS_conflict) (b := F.AUTH_CNT_conflict) (by decide) (by decide) 0).raise (by decide) ..).endCmds
        (by decide) ..
    refine ⟨(State.quiet_of_rd (hw.quiet (by decide)) h).trans hq, Eq.trans ?_ hup, hw.mem.trans hm⟩
    have fr := State.sys_frame t.sys
    refine congrArg (fun x : SysSt => (x.keepers.getD h KeeperSt.init).up) (fr.dropActivation (fr.raise ?_ ..) _)
    rw [State.flagCount, State.bump, State.wr_sys, State.wr_sys]

theorem State.bellTo_reads (s : State) (hh : h < 2) : (s.bellTo h).holder = h ∧ (s.bellTo h).rd F.AUTH_FLAGS_transfer = 1
    ∧ State.Within (F.AUTH_STATUS_holder :: F.AUTH_FLAGS_transfer :: F.AUTH_CNT_transfer :: eventFlds) s (s.bellTo h)
    ∧ (s.bellTo h).sys = s.sys := by
  unfold State.bellTo
  refine ⟨?_, ?_, (((State.Within.refl _ s).wr (f := F.AUTH_STATUS_holder) (by decide) h 0 0).flagCount (a := F.AUTH_FLAGS_transfer)
    (b := F.AUTH_CNT_transfer) (by decide) (by decide) 0).raise (by decide) .., ?_⟩
  · rw [State.holder, State.rd_raise_other _ _ _ _ _ _ _ (by decide), State.rd_flagCount_other _ _ _ _ _ _ _ (by decide)]
    exact (State.rd_wr_self s F.AUTH_STATUS_holder h 0 0).trans (Nat.mod_eq_of_lt hh)
  · rw [State.rd_raise_other _ _ _ _ _ _ _ (by decide)]
    exact State.rd_flagCount_flag _ _ _ 0 (by decide)
  · rw [State.Apart.sys.raise, State.flagCount, State.bump, State.wr_sys, State.wr_sys, State.wr_sys]

theorem State.keeper_updKeeper_self (s : State) {h : Nat} (f : KeeperSt → KeeperSt) (hh : h < s.sys.keepers.length) :
    (s.updKeeper h f).keeper h = f (s.keeper h) := updAt_getD_self s.sys.keepers h f KeeperSt.init hh

theorem State.keeper_updKeeper_ne (s : State) {h o : Nat} (f : KeeperSt → KeeperSt) (ho : o ≠ h) : (s.updKeeper h f).keeper o = s.keeper o :=
  updAt_getD_ne s.sys.keepers h o f KeeperSt.init ho

/-- A keeper's read is of the part's own state. -/
theorem State.keeper_congr {s t : State} (h : t.sys.keepers = s.sys.keepers) (o : Nat) : t.keeper o = s.keeper o :=
  congrArg (fun l : List KeeperSt => l.getD o KeeperSt.init) h

/-- A half that fences its neighbour's keeper holds the bell (R573). -/
theorem State.fencePartner_reads (s : State) (hh : h < 2) (hk : 1 - h < s.sys.keepers.length) (hq : s.quiet h = false) :
    (s.fencePartner h).holder = h ∧ ((s.fencePartner h).keeper (1 - h)).up = false ∧ ((s.fencePartner h).keeper (1 - h)).held = true
      ∧ (if h = 0 then (s.fencePartner h).rd F.RST_CAUSE_fence_e else (s.fencePartner h).rd F.RST_CAUSE_fence_w) = 1
      ∧ (s.fencePartner h).rd F.AUTH_FLAGS_transfer = 1 ∧ (s.fencePartner h).mem = s.mem := by
  unfold State.fencePartner
  extract_lets o t
  have ho : o ≠ h := by simp only [o]; omega
  have hkeep : t.keeper o = { s.keeper o with up := false, beaten := false, held := true, fenced := true, notice := false } :=
    (State.keeper_congr (congrArg SysSt.keepers (State.wr_sys ..)) o).trans (s.keeper_updKeeper_self _ hk)
  have hw : State.Within [F.RST_CAUSE_fence_w, F.RST_CAUSE_fence_e] s t := by
    have h0 := (State.Within.refl [F.RST_CAUSE_fence_w, F.RST_CAUSE_fence_e] s).same
      (u := s.updKeeper o fun k => { k with up := false, beaten := false, held := true, fenced := true, notice := false })
    simp only [t]
    split
    · exact h0.wr (f := F.RST_CAUSE_fence_w) (by decide) 1 0 0
    · exact h0.wr (f := F.RST_CAUSE_fence_e) (by decide) 1 0 0
  have hc : (if h = 0 then t.rd F.RST_CAUSE_fence_e else t.rd F.RST_CAUSE_fence_w) = 1 := by
    simp only [t, o]
    generalize s.updKeeper (1 - h) _ = u
    rcases (by omega : h = 0 ∨ h = 1) with rfl | rfl
    · exact State.rd_wr_self u F.RST_CAUSE_fence_e 1 0 0
    · exact State.rd_wr_self u F.RST_CAUSE_fence_w 1 0 0
  clear_value t
  obtain ⟨hhold, hflag, hbell, hsys⟩ := t.bellTo_reads hh
  have hqu : ((t.bellTo h).updKeeper h fun k => { k with notice := false }).quiet h = false :=
    (State.quiet_of_rd (hbell.quiet (by decide)) h).trans ((State.quiet_of_rd (hw.quiet (by decide)) h).trans hq)
  have hku : ((t.bellTo h).updKeeper h fun k => { k with notice := false }).keeper o = t.keeper o :=
    (State.keeper_updKeeper_ne _ _ ho).trans (State.keeper_congr (congrArg SysSt.keepers hsys) o)
  have hwu : State.Within (F.AUTH_STATUS_holder :: F.AUTH_FLAGS_transfer :: F.AUTH_CNT_transfer :: eventFlds) t
    ((t.bellTo h).updKeeper h fun k => { k with notice := false }) := hbell.same
  have hhu : ((t.bellTo h).updKeeper h fun k => { k with notice := false }).holder = h := hhold
  have hfu : ((t.bellTo h).updKeeper h fun k => { k with notice := false }).rd F.AUTH_FLAGS_transfer = 1 := hflag
  generalize (t.bellTo h).updKeeper h (fun k => { k with notice := false }) = u at hqu hku hwu hhu hfu
  rw [State.leaveQuiet, if_neg (Bool.eq_false_iff.mp hqu)]
  have hd := State.within_causesDue [] u
  have hkd : u.causesDue.keeper (1 - h) = t.keeper o := (State.keeper_congr u.causesDue_keepers _).trans hku
  refine ⟨(hd.rd F.AUTH_STATUS_holder 0 0 (by decide)).trans hhu, by rw [hkd, hkeep], by rw [hkd, hkeep], ?_,
    (hd.rd F.AUTH_FLAGS_transfer 0 0 (by decide)).trans hfu, hd.mem.trans (hwu.mem.trans hw.mem)⟩
  rw [hd.rd F.RST_CAUSE_fence_e 0 0 (by decide), hd.rd F.RST_CAUSE_fence_w 0 0 (by decide), hwu.rd F.RST_CAUSE_fence_e 0 0 (by decide),
    hwu.rd F.RST_CAUSE_fence_w 0 0 (by decide)]
  exact hc

/-- A keeper that starts is up, and its half in quiet only where it was fenced and does not hold the bell (R574, R575). -/
theorem State.keeperUp_reads (s : State) {h : Nat} (hk : h < s.sys.keepers.length) : ((s.keeperUp h).keeper h).up = true
    ∧ (s.holder = h → (s.keeperUp h).quiet h = false) ∧ (s.holder ≠ h → (s.keeper h).fenced = true → (s.keeperUp h).quiet h = true)
    ∧ (s.holder ≠ h → (s.keeper h).fenced = false → (s.keeperUp h).quiet h = false) ∧ (s.keeperUp h).mem = s.mem := by
  unfold State.keeperUp
  extract_lets _ t
  have hup : (t.keeper h).up = true := congrArg KeeperSt.up (s.keeper_updKeeper_self _ hk)
  have hm : t.mem = s.mem := rfl
  have hq : t.quiet h = s.quiet h := rfl
  clear_value t
  split
  · next hh =>
    obtain ⟨hquiet, hkeep, hw⟩ := t.leaveQuiet_reads h
    have hd := State.within_causesDue [] (t.leaveQuiet h)
    refine ⟨?_, fun _ => (State.quiet_of_rd (hd.quiet (by decide)) h).trans hquiet, fun hn => absurd hh hn, fun hn => absurd hh hn,
      hd.mem.trans (hw.mem.trans hm)⟩
    rw [State.keeper_congr (State.causesDue_keepers _), State.keeper_congr hkeep, hup]
  · next hh =>
    split
    · next hf =>
      obtain ⟨hquiet, hkeep, hmem⟩ := t.enterQuiet_reads h
      exact ⟨hkeep.trans hup, fun e => absurd e hh, fun _ _ => hquiet, fun _ hf' => absurd (hf.symm.trans hf') (by decide), hmem.trans hm⟩
    · next hf =>
      have hff : (s.keeper h).fenced = false := Bool.eq_false_iff.mpr hf
      split
      · have hd := State.within_causesDue [] (t.wr (quietFld h) 0)
        have hs := (t.wr (quietFld h) 0).causesDue.within_sampleSettle
        have hqw : (t.wr (quietFld h) 0).quiet h = false := t.quiet_wr_self h 0 (by decide)
        have hquiet : (t.wr (quietFld h) 0).causesDue.sampleSettle.quiet h = false := by
          rw [State.quiet_sampleSettle, State.quiet_of_rd (hd.quiet (by decide)) h, hqw]
        refine ⟨?_, fun e => absurd e hh, fun _ hf' => absurd hf' hf, fun _ _ => hquiet, hs.mem.trans (hd.mem.trans ((State.wr_mem ..).trans hm))⟩
        rw [State.keeper_congr (State.sampleSettle_keepers _), State.keeper_congr (State.causesDue_keepers _),
          State.keeper_congr (congrArg SysSt.keepers (State.wr_sys ..)), hup]
      · next hn => exact ⟨hup, fun e => absurd e hh, fun _ hf' => absurd hf' hf, fun _ _ => hq.trans (Bool.eq_false_iff.mpr hn), hm⟩

/-! ### Heartbeats -/

theorem exec_keeperHeartbeatReceive {path c : Nat} (hu : (s.keeper h).up = true) (hb : s.beatTo h path = some c) :
    exec (.keeperHeartbeatReceive h path) s = .next ((s.whenB (path == 0) fun s => s.class0Take h).beatTaken h path c) := by
  change execKeeperHeartbeatReceive h path s = _
  unfold execKeeperHeartbeatReceive
  rw [hb]
  exact congrArg Host.Outcome.next (if_pos hu)

/-- The run of heartbeats after one of count c (R572): begun anew, counted once, or gone on by one. -/
theorem State.beatRun_reads (s : State) (h c : Nat) : ((s.keeper h).run = 0 → (s.beatRun h c).1 = 1)
    ∧ (0 < (s.keeper h).run → c = (s.keeper h).seen → (s.beatRun h c).1 = (s.keeper h).run)
    ∧ (0 < (s.keeper h).run → c = ((s.keeper h).seen + 1) % 2 ^ 32 → (s.beatRun h c).1 = (s.keeper h).run + 1) := by
  unfold State.beatRun
  extract_lets k
  refine ⟨fun h0 => by rw [if_pos h0], fun h0 hc => ?_, fun h0 hc => ?_⟩
  · have hk : k.run ≠ 0 := Nat.pos_iff_ne_zero.mp h0
    have hc' : c = k.seen := hc
    rw [if_neg hk, if_neg (by omega), if_pos (by omega)]
  · have hk : k.run ≠ 0 := Nat.pos_iff_ne_zero.mp h0
    rw [if_neg hk, if_pos (show c = (k.seen + 1) % 4294967296 from hc)]

theorem beatFld_mem (h path : Nat) : beatFld h path ∈ [F.AUTH_STATUS_hb_brg_e, F.AUTH_STATUS_hb_side_e, F.AUTH_STATUS_hb_brg_w, F.AUTH_STATUS_hb_side_w] := by
  unfold beatFld
  split <;> split <;> simp

/-- A heartbeat heard: its bit, the run, and the half settled at the third in a row (R572, R576). -/
theorem State.beatTaken_reads (s : State) {h : Nat} (path c : Nat) (hk : h < s.sys.keepers.length) : ((s.beatTaken h path c).keeper h).heard = true
    ∧ (s.beatTaken h path c).rd (beatFld h path) = 1 ∧ ((s.beatTaken h path c).keeper h).run = (s.beatRun h c).1
    ∧ (s.quiet h = true → s.holder ≠ h → 3 ≤ (s.beatRun h c).1 → (s.beatTaken h path c).quiet h = false)
    ∧ (s.quiet h = true → (s.beatRun h c).1 < 3 → (s.beatTaken h path c).quiet h = true) ∧ (s.beatTaken h path c).mem = s.mem := by
  obtain ⟨hoffq, hoffs, hone⟩ := (by decide : ∀ f ∈ [F.AUTH_STATUS_hb_brg_e, F.AUTH_STATUS_hb_side_e, F.AUTH_STATUS_hb_brg_w, F.AUTH_STATUS_hb_side_w],
    (F.AUTH_STATUS_quiet_w.Off [f] ∧ F.AUTH_STATUS_quiet_e.Off [f]) ∧ f.Off settleFlds ∧ 1 % 2 ^ f.width = 1) _ (beatFld_mem h path)
  unfold State.beatTaken
  extract_lets n t
  have hkeep : t.keeper h = { s.keeper h with notice := false, heard := true, run := n.1, seen := n.2 } := by
    have hw : (s.wr (beatFld h path) 1).sys = s.sys := State.wr_sys ..
    refine (State.keeper_updKeeper_self _ _ (by rw [hw]; exact hk)).trans ?_
    rw [State.keeper_congr (congrArg SysSt.keepers hw)]
  have hrd : t.rd (beatFld h path) = 1 := (State.rd_wr_self s (beatFld h path) 1 0 0).trans hone
  have hq : t.quiet h = s.quiet h := State.quiet_of_rd
    (((State.Within.refl [beatFld h path] s).wr (f := beatFld h path) (List.mem_singleton_self _) 1 0 0).quiet hoffq) h
  have hm : t.mem = s.mem := State.wr_mem ..
  have hn : n = s.beatRun h c := rfl
  clear_value t n
  subst hn
  split
  · next hc =>
    simp only [Bool.and_eq_true, decide_eq_true_eq, bne_iff_ne] at hc
    obtain ⟨⟨-, h3⟩, -⟩ := hc
    obtain ⟨hquiet, hkk, hw⟩ := t.leaveQuiet_reads h
    have hkh : (t.leaveQuiet h).keeper h = t.keeper h := State.keeper_congr hkk h
    exact ⟨by rw [hkh, hkeep], (hw.rd (beatFld h path) 0 0 hoffs).trans hrd, by rw [hkh, hkeep], fun _ _ _ => hquiet,
      fun _ hlt => absurd h3 (Nat.not_le.mpr hlt), hw.mem.trans hm⟩
  · next hc =>
    refine ⟨by rw [hkeep], hrd, by rw [hkeep], fun hq1 hh h3 => absurd ?_ hc, fun hq1 _ => hq.trans hq1, hm⟩
    rw [hq1, decide_eq_true h3, bne_iff_ne.mpr hh]
    rfl

theorem keeperHeartbeatReceive_does {path c : Nat} (hk : h < s.sys.keepers.length) (hu : (s.keeper h).up = true) (hb : s.beatTo h path = some c) :
    Does (.keeperHeartbeatReceive h path) s fun t => (t.keeper h).heard = true ∧ t.rd (beatFld h path) = 1
      ∧ ((s.keeper h).run = 0 → (t.keeper h).run = 1)
      ∧ (0 < (s.keeper h).run → c = (s.keeper h).seen → (t.keeper h).run = (s.keeper h).run)
      ∧ (0 < (s.keeper h).run → c = ((s.keeper h).seen + 1) % 2 ^ 32 → (s.keeper h).seen < 2 ^ 32 → (t.keeper h).run = (s.keeper h).run + 1)
      ∧ (s.quiet h = true → s.holder ≠ h → 3 ≤ (t.keeper h).run → t.quiet h = false)
      ∧ (s.quiet h = true → (t.keeper h).run < 3 → t.quiet h = true) ∧ t.mem = s.mem := by
  refine Does.of_exec (exec_keeperHeartbeatReceive hu hb) ?_
  generalize ht : (s.whenB (path == 0) fun s => s.class0Take h) = t
  have h0 : t.keeper h = s.keeper h ∧ t.quiet h = s.quiet h ∧ t.holder = s.holder ∧ t.mem = s.mem ∧ t.sys.keepers.length = s.sys.keepers.length := by
    rw [← ht]
    cases path == 0 <;> exact ⟨rfl, rfl, rfl, rfl, rfl⟩
  obtain ⟨hkeep, hq, hhold, hm, hlen⟩ := h0
  obtain ⟨hz, hsame, hnext⟩ := t.beatRun_reads h c
  rw [hkeep] at hz hsame hnext
  obtain ⟨hheard, hrd, hrun, hleave, hstay, hmem⟩ := t.beatTaken_reads path c (by rw [hlen]; exact hk)
  rw [hq, hhold, ← hrun] at hleave
  rw [hq, ← hrun] at hstay
  rw [← hrun] at hz hsame hnext
  exact ⟨hheard, hrd, hz, hsame, fun h1 h2 _ => hnext h1 h2, hleave, hstay, hmem.trans hm⟩

/-- The state an absence of heartbeats is judged on: both bits down and the run begun anew (R573). -/
def State.beatsMissed (s : State) (h : Nat) : State := ((s.wr (beatFld h 0) 0).wr (beatFld h 1) 0).updKeeper h fun k => { k with run := 0 }

theorem exec_heartbeatAbsenceTimeout (hu : (s.keeper h).up = true) (hh : s.holder ≠ h) (hq : s.quiet h = false) :
    exec (.heartbeatAbsenceTimeout h) s = .next ((s.beatsMissed h).fencePartner h) :=
  congrArg Host.Outcome.next (if_neg (by rw [hu, hq, beq_eq_false_iff_ne.mpr hh]; exact Bool.false_ne_true))

theorem heartbeatAbsenceTimeout_does (h2 : h < 2) (hk : 1 - h < s.sys.keepers.length) (hu : (s.keeper h).up = true) (hh : s.holder = 1 - h)
    (hq : s.quiet h = false) : Does (.heartbeatAbsenceTimeout h) s fun t => t.holder = h ∧ (t.keeper (1 - h)).up = false
      ∧ (t.keeper (1 - h)).held = true ∧ (if h = 0 then t.rd F.RST_CAUSE_fence_e else t.rd F.RST_CAUSE_fence_w) = 1
      ∧ t.rd F.AUTH_FLAGS_transfer = 1 ∧ t.mem = s.mem := by
  refine Does.of_exec (exec_heartbeatAbsenceTimeout hu (by omega) hq) ?_
  have hw : State.Within [F.AUTH_STATUS_hb_brg_e, F.AUTH_STATUS_hb_side_e, F.AUTH_STATUS_hb_brg_w, F.AUTH_STATUS_hb_side_w] s (s.beatsMissed h) :=
    (((State.Within.refl _ s).wr (beatFld_mem h 0) 0 0 0).wr (beatFld_mem h 1) 0 0 0).same
  have hlen : (s.beatsMissed h).sys.keepers.length = s.sys.keepers.length :=
    (updAt_length ..).trans (congrArg (fun x : SysSt => x.keepers.length) ((State.wr_sys ..).trans (State.wr_sys ..)))
  obtain ⟨hhold, hup, hheld, hcause, hflag, hmem⟩ := (s.beatsMissed h).fencePartner_reads h2 (by rw [hlen]; exact hk)
    ((State.quiet_of_rd (hw.quiet (by decide)) h).trans hq)
  exact ⟨hhold, hup, hheld, hcause, hflag, hmem.trans hw.mem⟩

theorem keeperHeartbeatSend_does (hk : h < s.sys.keepers.length) (hu : (s.keeper h).up = true) : Does (.keeperHeartbeatSend h) s fun t =>
    t.rd F.AUTH_HB_COUNT_count h = (s.rd F.AUTH_HB_COUNT_count h + 1) % 4294967296 ∧ (t.keeper h).beaten = true
      ∧ t.out = .heartbeat h ((s.rd F.AUTH_HB_COUNT_count h + 1) % 4294967296) :: s.out ∧ s.Only t [(F.AUTH_HB_COUNT_count, h)] := by
  refine Does.of_exec (if_pos hu) ⟨?_, ?_, ?_, ?_⟩
  · exact (State.rd_wr_self s F.AUTH_HB_COUNT_count _ h 0).trans (Nat.mod_mod _ _)
  · refine congrArg KeeperSt.beaten (State.keeper_updKeeper_self _ _ ?_)
    rw [State.wr_sys]
    exact hk
  · exact congrArg (List.cons _) (State.wr_out ..)
  · exact ((State.Only.refl s _).wr F.AUTH_HB_COUNT_count _ h 0 (by simp)).same

theorem exec_keeperStart (hm : s.keeperMay h = true) : exec (.keeperStart h) s = .next (s.keeperUp h) := congrArg Host.Outcome.next (if_pos hm)

theorem exec_bellConfirm (hh : s.holder ≠ h) (hu : (s.keeper h).up = true) : exec (.bellConfirm h) s = .next (s.enterQuiet h) :=
  congrArg Host.Outcome.next (if_neg fun h => h.elim hh fun e => absurd (hu.symm.trans e) (by decide))

theorem exec_bellHandover (ht : s.anyTakeOpen = false) (hp : [0, 1].any (fun p => s.portState p == 5) = false) (hq : s.anyQuiet = false) :
    exec .bellHandover s = .next ((s.bellTo (1 - s.holder)).causesDue) := if_neg (by rw [ht, hp, hq]; decide)

theorem exec_fenceResetRelease (hh : (s.keeper h).held = true) :
    exec (.fenceResetRelease h) s = .next ((s.updKeeper h fun k => { k with held := false }).resetDone 4) := if_pos hh

theorem fenceResetRelease_does (hk : h < s.sys.keepers.length) (hh : (s.keeper h).held = true) :
    Does (.fenceResetRelease h) s fun t => (t.keeper h).held = false ∧ t.mem = s.mem := by
  refine Does.of_exec (exec_fenceResetRelease hh) ?_
  obtain ⟨l, hl⟩ := (s.updKeeper h fun k => { k with held := false }).resetDone_sys 4
  have hkeep : ((s.updKeeper h fun k => { k with held := false }).resetDone 4).sys.keepers = (s.updKeeper h fun k => { k with held := false }).sys.keepers :=
    (congrArg SysSt.keepers hl).trans rfl
  refine ⟨?_, State.causesDue_kept State.mem (fun _ => rfl) (fun _ _ _ _ => rfl) (fun _ _ => rfl) _⟩
  rw [State.keeper_congr hkeep]
  exact congrArg KeeperSt.held (s.keeper_updKeeper_self _ hk)

end

/-- Settles O58: blocks by what their release and their reset keep, the bell by what entering and leaving quiet set. -/
theorem blocksAndTheBell : Obligations.BlocksAndTheBell := by
  unfold Obligations.BlocksAndTheBell
  refine ⟨fun h b d s h2 hk ho hb => ⟨fun hd => blockResetRequest_refused hb (.inl hd), fun hs => blockResetRequest_refused hb (.inr hs),
    fun hd hs hr => blockResetRequest_begins hb hd hs hr, fun hd hs hr => (exec_blockResetRequest hb hd hs).trans (if_neg (Bool.eq_false_iff.mp hr)),
    fun hs => Does.of_exec (exec_blockIdleReport hs) rfl, blockIdleTimeout_does, blockResetRelease_does,
    fun hd hw hr hg => Does.of_exec (exec_blockForceRelease hb hd hw hr) ?_, clockGoodRise_does, ?_, keeperHeartbeatSend_does hk,
    fun path c hu hc => keeperHeartbeatReceive_does hk hu hc, fun hu hh hq => heartbeatAbsenceTimeout_does h2 ho hu hh hq,
    fenceResetRelease_does hk, fun hh hl hr hu hf => Does.of_exec (exec_keeperStart ?_) (s.keeperUp_reads hk),
    fun hh hu => Does.of_exec (exec_bellConfirm hh hu) ?_, fun ht => if_pos (by rw [ht]; rfl), fun ht hp hq => Does.of_exec (exec_bellHandover ht hp hq) ?_⟩,
    fun h b d s => ⟨exec_blockIdleReport, fun hs hd => ?_, fun hs hd => ?_, exec_blockForceRelease, rfl,
      fun path c hu hc => exec_keeperHeartbeatReceive hu hc, exec_heartbeatAbsenceTimeout, exec_fenceResetRelease, exec_keeperStart, exec_bellConfirm,
      exec_bellHandover⟩⟩
  · obtain ⟨hfault, hwait, hheld, hcause, hflag, hmem⟩ := (s.wr F.RST_BLOCK_CTRL_block b).forceRelease_reads hb d (by rw [State.wr_sys]; exact hg)
    exact ⟨hfault, hwait, hheld, hcause, hflag, hmem.trans (State.wr_mem ..)⟩
  · refine Does.of_exec (t := s.updSys fun x => { x with good := x.good.filter (· ≠ b) }) rfl ⟨?_, (State.Only.refl s _).same⟩
    simp [State.updSys]
  · unfold State.keeperMay
    rw [hh, hl, hr, hu, bne_iff_ne.mpr hf]
    rfl
  · obtain ⟨hquiet, -, hmem⟩ := s.enterQuiet_reads h
    exact ⟨hquiet, hmem⟩
  · obtain ⟨hhold, hflag, hw, -⟩ := s.bellTo_reads (h := 1 - s.holder) (by omega)
    have hd := State.within_causesDue [] (s.bellTo (1 - s.holder))
    exact ⟨(hd.rd F.AUTH_STATUS_holder 0 0 (by decide)).trans hhold, (hd.rd F.AUTH_FLAGS_transfer 0 0 (by decide)).trans hflag, hd.mem.trans hw.mem⟩
  · have he := exec_blockIdleTimeout hs
    unfold blockHalf at he
    rw [hd] at he
    exact he
  · have he := exec_blockResetRelease hs
    rw [hd] at he
    exact he

end Sys2Proof.Machine
end

section
/-! PROOFS. Heat and ageing: the thermal sample and stages, the shed levels, the ageing samples, the voltage plan and the deadline (spec/18). -/
namespace Sys2Proof.Machine

set_option Elab.async false

section
variable {s : State} {h : Nat}

/-! ### Shedding -/

theorem State.Framed.outShed {P : State → Prop} (fr : State.Framed P) (hs : P s) (o : Nat) (b : Bool) : P (s.outShed o b) :=
  fr.ite (fr.wr (fr.outOff hs o) ..) (fr.outOn (fr.wr hs ..) o)

theorem State.Framed.sndShed {P : State → Prop} (fr : State.Framed P) (hs : P s) (n : Nat) (b : Bool) : P (s.sndShed n b) :=
  fr.ite (fr.wr (fr.sndStop hs n) ..) (fr.ite (fr.wr (fr.wr hs ..) ..) (fr.wr hs ..))

theorem State.Framed.liveStop {P : State → Prop} (fr : State.Framed P) (hs : P s) (h : Nat) : P (s.liveStop h) :=
  fr.each (fr.each hs _ _ fun _ _ ht => fr.scRelease (fr.updSc ht ..) _) _ _ fun _ _ ht => fr.updSnd ht ..

/-- The level that a half has carried out, before its outputs and senders follow. -/
def State.shedNoted (s : State) (h n : Nat) : State := s.updSys fun x => { x with shed := updAt x.shed h fun _ => n }

theorem State.Framed.shedTo {P : State → Prop} (fr : State.Framed P) {h n : Nat} (hs : P (s.shedNoted h n)) : P (s.shedTo h n) := by
  unfold State.shedTo
  extract_lets old t
  refine fr.ite (fr.ite (fr.each hs _ _ fun _ _ ht => fr.outShed ht ..) (fr.each hs _ _ fun _ _ ht => fr.sndShed ht ..))
    (fr.each hs _ _ fun u k hu => fr.ite (fr.liveStop hu _) (fr.ite (fr.each hu _ _ fun _ _ ht => fr.outShed ht ..) (fr.ite (fr.each hu _ _
      fun _ _ ht => fr.sndShed ht ..) hu)))

/-- A half that carries out a level keeps HBM and every central register, and notes the level. -/
theorem State.shedTo_reads (s : State) (h n : Nat) : (s.shedTo h n).mem = s.mem ∧ (s.shedTo h n).sys = (s.shedNoted h n).sys
    ∧ ∀ (f : Fld) (i j : Nat), f.Central → (s.shedTo h n).rd f i j = s.rd f i j := by
  have hk := (State.CentralKept.frame [] (s.shedNoted h n)).shedTo (State.CentralKept.refl [] (s.shedNoted h n))
  exact ⟨hk.mem, (State.sys_frame (s.shedNoted h n).sys).shedTo rfl, fun f i j hf => hk.rd f i j hf fun _ hx => nomatch hx⟩

/-- The bell holder's level is published, and nothing of HBM or of the other central registers changes. -/
theorem State.shedLevel_reads (s : State) {n : Nat} (hn : n ≤ 6) : (s.shedLevel n).rd F.THM_STATUS_level = n ∧ (s.shedLevel n).mem = s.mem
    ∧ ∀ (f : Fld) (i j : Nat), f.Central → f.Off [F.THM_STATUS_level] → (s.shedLevel n).rd f i j = s.rd f i j := by
  unfold State.shedLevel
  extract_lets h t
  have ht : t.mem = s.mem ∧ t.rd F.THM_STATUS_level = n ∧ ∀ (f : Fld) (i j : Nat), f.Central → f.Off [F.THM_STATUS_level] → t.rd f i j = s.rd f i j := by
    obtain ⟨hm, -, hr⟩ := (s.wr F.THM_STATUS_level n).shedTo_reads h n
    refine ⟨hm.trans (State.wr_mem ..), ?_, fun f i j hc ho => ?_⟩
    · refine (hr F.THM_STATUS_level 0 0 (by decide)).trans ((State.rd_wr_self s F.THM_STATUS_level n 0 0).trans (Nat.mod_eq_of_lt ?_))
      change n < 16
      omega
    · exact (hr f i j hc).trans (State.rd_wr_other _ _ _ _ _ _ _ _ (ho _ (List.mem_singleton_self _)))
  clear_value t
  obtain ⟨hm, hl, hr⟩ := ht
  have hk : State.CentralKept [] t (if n = 6 then t.each ((List.range 4).filter fun e => s.rd F.TAKE_STATUS_state e == 2) fun s e =>
      s.endTake e St.THERMAL_SHED 1 fun _ => true else t) :=
    (State.CentralKept.frame [] t).ite ((State.CentralKept.frame [] t).each (State.CentralKept.refl [] t) _ _ fun _ _ hx =>
      (State.CentralKept.frame [] t).endTake hx ..) (State.CentralKept.refl [] t)
  exact ⟨(hk.rd _ 0 0 (by decide) fun _ hx => nomatch hx).trans hl, hk.mem.trans hm,
    fun f i j hc ho => (hk.rd f i j hc fun _ hx => nomatch hx).trans (hr f i j hc ho)⟩

/-- The level as an event reports it. -/
theorem State.shedLevel_reported (s : State) {n : Nat} (hn : n ≤ 6) (half code : Nat) (p : List Byte) :
    ((s.shedLevel n).raise half code p).rd F.THM_STATUS_level = n ∧ ((s.shedLevel n).raise half code p).rd F.THM_STATUS_stage = s.rd F.THM_STATUS_stage
      ∧ ((s.shedLevel n).raise half code p).mem = s.mem := by
  obtain ⟨hl, hm, hr⟩ := s.shedLevel_reads hn
  exact ⟨(State.rd_raise_other _ _ _ _ _ _ _ (by decide)).trans hl,
    (State.rd_raise_other _ _ _ _ _ _ _ (by decide)).trans (hr F.THM_STATUS_stage 0 0 (by decide) (by decide)), (State.raise_mem ..).trans hm⟩

theorem State.enforce_reads (s : State) : s.enforce.rd F.THM_STATUS_stage = 3 ∧ s.enforce.rd F.THM_STATUS_level = 1 ∧ s.enforce.mem = s.mem := by
  obtain ⟨hl, hst, hm⟩ := ((s.wr F.THM_STATUS_stage 3).flagCount F.THM_FLAGS_enforce F.THM_CNT_enforce).shedLevel_reported (n := 1) (by decide)
    s.holder Ev.THM_ENFORCE (le 1 1)
  refine ⟨hst.trans ?_, hl, hm.trans ?_⟩
  · rw [State.rd_flagCount_other _ _ _ _ _ _ _ (by decide)]
    exact State.rd_wr_self s F.THM_STATUS_stage 3 0 0
  · rw [State.flagCount, State.bump, State.wr_mem, State.wr_mem, State.wr_mem]

theorem shedCommandReceive_does {n : Nat} (hh : h < s.sys.shed.length) (hc : s.class0To h = some (.shed h n)) :
    Does (.shedCommandReceive h) s fun t => t.sys.shed.getD h 0 = n ∧ t.sys.class0 = s.sys.class0.eraseP (fun m => m.half == h) ∧ t.mem = s.mem := by
  have hex : exec (.shedCommandReceive h) s = .next ((s.class0Take h).shedTo h n) := by
    change execShedCommandReceive h s = _
    unfold execShedCommandReceive
    rw [hc]
  obtain ⟨hm, hsys, -⟩ := (s.class0Take h).shedTo_reads h n
  refine Does.of_exec hex ⟨?_, congrArg SysSt.class0 hsys, hm⟩
  rw [hsys]
  exact updAt_getD_self _ _ _ _ hh

/-! ### The sample -/

theorem getD_replicate {n d : Nat} (v : Int) (hd : d < n) : (List.replicate n v).getD d 0 = v := by
  simp [List.getD_eq_getElem?_getD, hd]

/-- A sum of differences that are all 0 rounds to no shift. -/
theorem State.modelShift_even (s : State) (v : Int) {k : Nat} (hk : k < 2) : s.modelShift (List.replicate 64 v) (List.replicate 16 v) k = 0 := by
  unfold State.modelShift
  have hdiff : ∀ d < 16, (List.replicate 16 v).getD d 0 - (List.replicate 64 v).getD (diodeNode d) 0 = 0 := by
    intro d hd
    have hnode : diodeNode d < 64 := by unfold diodeNode; omega
    rw [getD_replicate v hd, getD_replicate v hnode, Int.sub_self]
  have hmem : ∀ d ∈ ((List.range 8).map fun i => 8 * k + i).filter fun d => !s.on F.THM_DIODE_fault d, d < 16 := by
    intro d hd
    obtain ⟨i, hi, rfl⟩ := List.mem_map.mp (List.mem_filter.mp hd).1
    have := List.mem_range.mp hi
    omega
  generalize ((List.range 8).map fun i => 8 * k + i).filter (fun d => !s.on F.THM_DIODE_fault d) = l at hmem
  have hz : l.map (fun d => (List.replicate 16 v).getD d 0 - (List.replicate 64 v).getD (diodeNode d) 0) = List.replicate l.length 0 := by
    refine List.eq_replicate_iff.mpr ⟨List.length_map .., fun x hx => ?_⟩
    obtain ⟨d, hd, rfl⟩ := List.mem_map.mp hx
    exact hdiff d (hmem d hd)
  have hsum : ∀ n : Nat, sumInt (List.replicate n 0) = 0 := by
    intro n
    unfold sumInt
    induction n with
    | zero => rfl
    | succ n ih => rw [List.replicate_succ, List.foldl_cons]; exact ih
  cases l with
  | nil => rfl
  | cons a l =>
    change openRound 13 (sumInt ((a :: l).map fun d => (List.replicate 16 v).getD d 0 - (List.replicate 64 v).getD (diodeNode d) 0), (a :: l).length) = 0
    rw [hz, hsum]
    simp [openRound, Frac.floor]

theorem foldl_max_replicate (v : Int) (n : Nat) : (List.replicate n v).foldl max v = v := by
  induction n with
  | zero => rfl
  | succ n ih => rw [List.replicate_succ, List.foldl_cons, Int.max_self, ih]

/-- The registers that show a sample, before the stages are judged. -/
def sampleFlds : List Fld := [F.THM_DIODE_reading, F.THM_STATUS_tj, F.THM_STATUS_fast, F.THM_HOT_node, F.THM_HOT_tj_peak]

/-- What follows the published sample: the rise, the stages, the stacks' bands and the calibration triggers. -/
def State.afterSample (s : State) (v : Int) : State :=
  let s6 := (s.updSys fun x => { x with rising := false }).stages v false [] 5
  let s7 := s6.each [0, 1] fun s k => s.bandReading k (List.getD [] k 0)
  s7.each (List.range 4) fun s e => s.calTriggers [] [] e

theorem State.thermalRead_even (s : State) (v : Int) : ∃ u : State, s.thermalRead (List.replicate 64 v) (List.replicate 16 v) none [] [] [] false
      = (if 1100 ≤ v ∧ s.deviceHeld = false then u.thermalTrip else u.afterSample v)
    ∧ u.rd F.THM_STATUS_tj = ofSigned 16 v ∧ u.rd F.THM_STATUS_fast = b2n (decide (890 ≤ v)) ∧ u.rd F.THM_STATUS_stage = s.rd F.THM_STATUS_stage
    ∧ u.mem = s.mem := by
  unfold State.thermalRead
  extract_lets model at' stood far odd s1 shown all tj s2 top s3 s4 steep s5 s6 s7 s8
  have hmodel : model = List.replicate 64 v := by
    refine List.eq_replicate_iff.mpr ⟨by simp [model], fun x hx => ?_⟩
    obtain ⟨k, hk, rfl⟩ := List.mem_map.mp hx
    have hk' : k < 64 := List.mem_range.mp hk
    rw [s.modelShift_even v (by omega), getD_replicate v hk', Int.add_zero]
  have hat : ∀ d < 16, at' d = v := by
    intro d hd
    have hnode : diodeNode d < 64 := by unfold diodeNode; omega
    simp only [at', hmodel]
    exact getD_replicate v hnode
  have hdiode : ∀ d < 16, (List.replicate 16 v).getD d 0 = v := fun _ hd => getD_replicate v hd
  have hfar : ∀ d < 16, far d = false := fun d hd => by
    simp only [far, List.all_cons, hat d hd, hdiode d hd, Int.sub_self]
    simp
  have hodd : ∀ d, odd.getD d 0 = 0 := by
    intro d
    rw [List.getD_eq_getElem?_getD, List.getElem?_map]
    cases hr : (List.range 16)[d]? with
    | none => rfl
    | some k =>
      have hk : k < 16 := List.mem_range.mp (List.mem_of_getElem? hr)
      simp [hfar k hk]
  have hs1 : s1 = s.updSys fun x => { x with odd := odd } := by
    simp only [s1, hodd]
    rfl
  have hshown : ∀ d < 16, shown d = v := fun d hd => by
    simp only [shown, hat d hd, hdiode d hd, ite_self]
  have hall : all = List.replicate 80 v := by
    refine List.eq_replicate_iff.mpr ⟨by simp [all, hmodel], fun x hx => ?_⟩
    rcases List.mem_append.mp hx with hx | hx
    · rw [hmodel] at hx
      exact List.eq_of_mem_replicate hx
    · obtain ⟨d, hd, rfl⟩ := List.mem_map.mp hx
      exact hshown d (List.mem_range.mp hd)
  have htj : tj = v := by
    simp only [tj, hall]
    exact foldl_max_replicate v 80
  have hw1 : State.Within sampleFlds s s1 := by rw [hs1]; exact (State.Within.refl sampleFlds s).same
  have hw2 : State.Within [F.THM_DIODE_reading] s1 (s1.each (List.range 16) fun s d => s.wr F.THM_DIODE_reading (ofSigned 16 (shown d)) d) :=
    (State.Within.refl _ s1).each _ fun _ d hx => hx.wr (f := F.THM_DIODE_reading) (by decide) _ d 0
  have hs2 : s2.rd F.THM_STATUS_tj = ofSigned 16 v := by
    refine (State.rd_wr_self _ F.THM_STATUS_tj _ 0 0).trans ?_
    rw [htj]
    refine Nat.mod_eq_of_lt ?_
    unfold ofSigned
    have := Int.emod_nonneg v (show ((2 ^ 16 : Nat) : Int) ≠ 0 by decide)
    have := Int.emod_lt_of_pos v (show (0 : Int) < ((2 ^ 16 : Nat) : Int) by decide)
    change (v % ((2 ^ 16 : Nat) : Int)).toNat < 2 ^ 16
    omega
  have hwt : State.Within sampleFlds s s2 := (hw1.trans (hw2.mono (by decide))).wr (f := F.THM_STATUS_tj) (by decide) _ 0 0
  have hs3 : s3.rd F.THM_STATUS_tj = ofSigned 16 v ∧ s3.rd F.THM_STATUS_fast = b2n (decide (890 ≤ v)) := by
    constructor
    · refine (State.rd_wr_other _ F.THM_HOT_node F.THM_STATUS_tj _ 0 0 0 0 (by decide)).trans
        ((State.rd_wr_other _ F.THM_STATUS_fast F.THM_STATUS_tj _ 0 0 0 0 (by decide)).trans hs2)
    · refine (State.rd_wr_other _ F.THM_HOT_node F.THM_STATUS_fast _ 0 0 0 0 (by decide)).trans ((State.rd_wr_self _ F.THM_STATUS_fast _ 0 0).trans ?_)
      rw [htj]
      cases decide (890 ≤ v) <;> rfl
  have hw3 : State.Within sampleFlds s s3 := (hwt.wr (f := F.THM_STATUS_fast) (by decide) _ 0 0).wr (f := F.THM_HOT_node) (by decide) _ 0 0
  have hw4 : State.Within sampleFlds s s4 := .ite (hw3.wr (f := F.THM_HOT_tj_peak) (by decide) _ 0 0) hw3
  have hs4 : State.Within [F.THM_HOT_tj_peak] s3 s4 := .ite ((State.Within.refl _ s3).wr (f := F.THM_HOT_tj_peak) (by decide) _ 0 0) (.refl _ s3)
  refine ⟨s4, ?_, (hs4.rd _ 0 0 (by decide)).trans hs3.1, (hs4.rd _ 0 0 (by decide)).trans hs3.2, hw4.rd _ 0 0 (by decide), hw4.mem⟩
  have h8 : s8 = s4.afterSample v := by
    simp only [s8, s7, s6, s5, steep, htj]
    rfl
  rw [h8, htj]
  cases (s4.afterSample v).sys.asked <;> rfl

theorem State.Framed.bandReading {P : State → Prop} (fr : State.Framed P) (hs : P s) (k : Nat) (t : Int) : P (s.bandReading k t) :=
  fr.ite (fr.ite (fr.same hs) (fr.same hs)) hs

theorem State.Framed.calTriggers {P : State → Prop} (fr : State.Framed P) (hs : P s) (halves : List Int) (recent : List Bool) (e : Nat) :
    P (s.calTriggers halves recent e) := by
  unfold State.calTriggers
  extract_lets sensor t lim
  refine fr.ite hs (fr.each (fr.updCond hs ..) _ _ fun u k hu => ?_)
  split
  · exact fr.ite (fr.calDue hu ..) hu
  · exact hu

/-- The bands and the triggers keep what the stages have left. -/
theorem State.afterSample_kept (s : State) (v : Int) :
    State.CentralKept [] ((s.updSys fun x => { x with rising := false }).stages v false [] 5) (s.afterSample v) := by
  unfold State.afterSample
  extract_lets s6 s7
  have fr := State.CentralKept.frame [] s6
  exact fr.each (fr.each (State.CentralKept.refl [] s6) _ _ fun _ _ hx => fr.bandReading hx ..) _ _ fun _ _ hx => fr.calTriggers hx ..

/-- Below 95 °C no row leaves NORMAL. -/
theorem State.stages_cool (s : State) {v : Int} (hv : v < 950) (h0 : s.rd F.THM_STATUS_stage = 0) : s.stages v false [] 5 = s := by
  have hnone : (withIndex (stageRows v false)).find? (fun r => r.2.1 == s.rd F.THM_STATUS_stage && r.2.2.1 && !([] : List Nat).contains r.1) = none := by
    rw [h0]
    simp [withIndex, stageRows, List.range_succ, hv]
  unfold State.stages
  rw [hnone]

/-- From 95 °C and below 100 °C NORMAL becomes WARN, and no row leaves WARN (R591). -/
theorem State.stages_warm (s : State) {v : Int} (hv : 950 ≤ v) (hv' : v < 1000) (h0 : s.rd F.THM_STATUS_stage = 0) :
    s.stages v false [] 5 = ((s.wr F.THM_STATUS_stage 1).wr F.THM_FLAGS_warn 1).raise s.holder Ev.THM_WARN [] := by
  have hfirst : (withIndex (stageRows v false)).find? (fun r => r.2.1 == s.rd F.THM_STATUS_stage && r.2.2.1 && !([] : List Nat).contains r.1)
      = some (0, (stageRows v false).getD 0 (0, false, id)) := by
    rw [h0]
    simp [withIndex, stageRows, List.range_succ, hv]
  have h1 : (((s.wr F.THM_STATUS_stage 1).wr F.THM_FLAGS_warn 1).raise s.holder Ev.THM_WARN []).rd F.THM_STATUS_stage = 1 := by
    rw [State.rd_raise_other _ _ _ _ _ _ _ (by decide), State.rd_wr_other _ _ _ _ _ _ _ _ (by decide)]
    exact State.rd_wr_self s F.THM_STATUS_stage 1 0 0
  rw [State.stages, hfirst]
  change ((((s.wr F.THM_STATUS_stage 1).wr F.THM_FLAGS_warn 1).raise s.holder Ev.THM_WARN []).stages v false [0] 4) = _
  generalize ((s.wr F.THM_STATUS_stage 1).wr F.THM_FLAGS_warn 1).raise s.holder Ev.THM_WARN [] = u at h1
  have hnone : (withIndex (stageRows v false)).find? (fun r => r.2.1 == u.rd F.THM_STATUS_stage && r.2.2.1 && !([0] : List Nat).contains r.1) = none := by
    rw [h1]
    simp [withIndex, stageRows, List.range_succ, hv']
    omega
  rw [State.stages, hnone]

theorem exec_thermalSample (nodes diodes : List Int) (past : Option Int) (hbms halves : List Int) (recent : List Bool) (late : Bool)
    (hu : (s.keeper s.holder).up = true) : exec (.thermalSample nodes diodes past hbms halves recent late) s =
      .next (s.thermalRead nodes diodes past hbms halves recent late) := congrArg Host.Outcome.next (if_pos hu)

theorem thermalSample_cool {v : Int} (hv : v < 950) (h0 : s.rd F.THM_STATUS_stage = 0) (hu : (s.keeper s.holder).up = true) :
    Does (.thermalSample (List.replicate 64 v) (List.replicate 16 v) none [] [] [] false) s fun t =>
      t.rd F.THM_STATUS_tj = ofSigned 16 v ∧ t.rd F.THM_STATUS_stage = 0 ∧ t.rd F.THM_STATUS_fast = b2n (decide (890 ≤ v)) ∧ t.mem = s.mem := by
  obtain ⟨u, he, htj, hfast, hst, hm⟩ := s.thermalRead_even v
  refine Does.of_exec ((exec_thermalSample _ _ _ _ _ _ _ hu).trans (congrArg Host.Outcome.next (he.trans (if_neg (by omega))))) ?_
  have hk := u.afterSample_kept v
  rw [State.stages_cool (u.updSys fun x => { x with rising := false }) hv (hst.trans h0)] at hk
  have hr : ∀ f : Fld, f.Central → (u.afterSample v).rd f = u.rd f := fun f hf => hk.rd f 0 0 hf fun _ hx => nomatch hx
  exact ⟨(hr _ (by decide)).trans htj, (hr _ (by decide)).trans (hst.trans h0), (hr _ (by decide)).trans hfast, hk.mem.trans hm⟩

theorem thermalSample_warm {v : Int} (hv : 950 ≤ v) (hv' : v < 1000) (h0 : s.rd F.THM_STATUS_stage = 0) (hu : (s.keeper s.holder).up = true) :
    Does (.thermalSample (List.replicate 64 v) (List.replicate 16 v) none [] [] [] false) s fun t =>
      t.rd F.THM_STATUS_tj = ofSigned 16 v ∧ t.rd F.THM_STATUS_stage = 1 ∧ t.rd F.THM_FLAGS_warn = 1 := by
  obtain ⟨u, he, htj, -, hst, -⟩ := s.thermalRead_even v
  refine Does.of_exec ((exec_thermalSample _ _ _ _ _ _ _ hu).trans (congrArg Host.Outcome.next (he.trans (if_neg (by omega))))) ?_
  have hk := u.afterSample_kept v
  generalize hw : (u.updSys fun x => { x with rising := false }) = w at hk
  have hrd : ∀ f : Fld, w.rd f = u.rd f := fun f => by rw [← hw]; rfl
  rw [State.stages_warm w hv hv' ((hrd _).trans (hst.trans h0))] at hk
  have hr : ∀ f : Fld, f.Central → (u.afterSample v).rd f = (((w.wr F.THM_STATUS_stage 1).wr F.THM_FLAGS_warn 1).raise w.holder Ev.THM_WARN []).rd f :=
    fun f hf => hk.rd f 0 0 hf fun _ hx => nomatch hx
  refine ⟨(hr _ (by decide)).trans ?_, (hr _ (by decide)).trans ?_, (hr _ (by decide)).trans ?_⟩
  · simp (disch := decide) only [State.rd_raise_other, State.rd_wr_other]
    exact (hrd _).trans htj
  · simp (disch := decide) only [State.rd_raise_other, State.rd_wr_other]
    exact State.rd_wr_self w F.THM_STATUS_stage 1 0 0
  · simp (disch := decide) only [State.rd_raise_other]
    exact State.rd_wr_self _ F.THM_FLAGS_warn 1 0 0

theorem thermalSample_hot {v : Int} (hv : 1100 ≤ v) (hu : (s.keeper s.holder).up = true) (h0 : s.deviceHeld = false) :
    Does (.thermalSample (List.replicate 64 v) (List.replicate 16 v) none [] [] [] false) s fun t => t.sys.trip = true ∧ t.rd F.RST_CAUSE_trip = 1 := by
  obtain ⟨u, he, -⟩ := s.thermalRead_even v
  refine Does.of_exec ((exec_thermalSample _ _ _ _ _ _ _ hu).trans (congrArg Host.Outcome.next (he.trans (if_pos ⟨hv, h0⟩)))) ?_
  obtain ⟨htrip, hcause, -⟩ := u.thermalTrip_reads
  exact ⟨htrip, hcause⟩

/-! ### The stages' timers -/

theorem exec_thermalGraceExpire (h2 : s.rd F.THM_STATUS_stage = 2) (ht : 1000 ≤ s.tj) : exec .thermalGraceExpire s = .next s.enforce :=
  congrArg Host.Outcome.next (if_pos ⟨h2, ht⟩)

theorem exec_thermalShedStepExpire (h3 : s.rd F.THM_STATUS_stage = 3) (ht : 1000 ≤ s.tj) (hl : s.rd F.THM_STATUS_level < 6) :
    exec .thermalShedStepExpire s = .next ((s.shedLevel (s.rd F.THM_STATUS_level + 1)).raise s.holder Ev.THM_ENFORCE
      (le 1 (s.rd F.THM_STATUS_level + 1))) := congrArg Host.Outcome.next (if_pos ⟨h3, ht, hl⟩)

theorem exec_thermalReleaseExpire (h3 : s.rd F.THM_STATUS_stage = 3) (ht : s.tj < 950) : exec .thermalReleaseExpire s =
    .next (((s.wr F.THM_STATUS_stage 0).shedLevel 0).raise s.holder Ev.THM_CLEAR []) := congrArg Host.Outcome.next (if_pos ⟨h3, ht⟩)

theorem thermalRelease_does (h3 : s.rd F.THM_STATUS_stage = 3) (ht : s.tj < 950) :
    Does .thermalReleaseExpire s fun t => t.rd F.THM_STATUS_stage = 0 ∧ t.rd F.THM_STATUS_level = 0 ∧ t.mem = s.mem := by
  obtain ⟨hl, hst, hm⟩ := (s.wr F.THM_STATUS_stage 0).shedLevel_reported (n := 0) (by decide) s.holder Ev.THM_CLEAR []
  exact Does.of_exec (exec_thermalReleaseExpire h3 ht) ⟨hst.trans (State.rd_wr_self s F.THM_STATUS_stage 0 0 0), hl, hm.trans (State.wr_mem ..)⟩

/-! ### Hours and samples -/

theorem agePoweredHour_does (s : State) :
    Does .agePoweredHour s fun t => t.rd F.AGE_HOURS_hours = min 4294967295 (s.rd F.AGE_HOURS_hours + 1) ∧ s.Only t [(F.AGE_HOURS_hours, 0)] := by
  have ho := (State.Only.refl s [(F.AGE_HOURS_hours, 0)]).wr F.AGE_HOURS_hours (min 4294967295 (s.rd F.AGE_HOURS_hours + 1)) 0 0 (by simp)
  have hr : (s.wr F.AGE_HOURS_hours (min 4294967295 (s.rd F.AGE_HOURS_hours + 1))).rd F.AGE_HOURS_hours
      = min 4294967295 (s.rd F.AGE_HOURS_hours + 1) := by
    refine (State.rd_wr_self s F.AGE_HOURS_hours _ 0 0).trans (Nat.mod_eq_of_lt ?_)
    change _ < 4294967296
    omega
  by_cases hp : s.ptpUnlocked = true
  · exact Does.of_exec (if_pos hp) ⟨hr, ho.same⟩
  · exact Does.of_exec (if_neg hp) ⟨hr, ho.same⟩

/-- While a half's sample is missing there is nothing to settle. -/
theorem State.sampleSettle_of_none {w e : Option Frac} (hd : s.sys.daily = [w, e]) (hn : w = none ∨ e = none) : s.sampleSettle = s := by
  unfold State.sampleSettle
  rw [hd]
  rcases hn with rfl | rfl
  · cases e <;> rfl
  · cases w <;> rfl

theorem ageSample_kept (hh : h < 2) (hd : s.sys.daily = [none, none]) (hu : (s.keeper h).up = true) (ht : 400 ≤ s.tj) (ht' : s.tj ≤ 900)
    (hc : 8 ≤ (if h = 0 then s.rd F.GLB_PACE_STATUS_counted_w else s.rd F.GLB_PACE_STATUS_counted_e)) :
    Does (.ageSample h true) s fun t => t.sys.daily.getD h none = some (s.drift h) ∧ s.Only t [] := by
  have hex : exec (.ageSample h true) s = .next
      (s.updSys fun x => { x with daily := updAt x.daily h fun _ => some (s.drift h), tries := updAt x.tries h fun _ => 0 }).sampleSettle := by
    change execAgeSample h true s = _
    unfold execAgeSample
    rw [hu]
    have hjudge : (true && decide (400 ≤ toSigned 16 (s.rd F.THM_STATUS_tj)) && decide (toSigned 16 (s.rd F.THM_STATUS_tj) ≤ 900)
        && decide (8 ≤ if h = 0 then s.rd F.GLB_PACE_STATUS_counted_w else s.rd F.GLB_PACE_STATUS_counted_e)) = true := by
      exact Bool.and_eq_true_iff.mpr ⟨Bool.and_eq_true_iff.mpr ⟨decide_eq_true ht, decide_eq_true ht'⟩, decide_eq_true hc⟩
    exact if_pos hjudge
  have hday : (updAt s.sys.daily h fun _ => some (s.drift h)) = if h = 0 then [some (s.drift h), none] else [none, some (s.drift h)] := by
    rw [hd]
    obtain rfl | rfl : h = 0 ∨ h = 1 := by omega
    · rfl
    · rfl
  refine Does.of_exec hex ?_
  generalize hw : (s.updSys fun x => { x with daily := updAt x.daily h fun _ => some (s.drift h), tries := updAt x.tries h fun _ => 0 }) = w
  have hwd : w.sys.daily = if h = 0 then [some (s.drift h), none] else [none, some (s.drift h)] := by rw [← hw]; exact hday
  have hwo : s.Only w [] := by rw [← hw]; exact (State.Only.refl s []).same
  obtain rfl | rfl : h = 0 ∨ h = 1 := by omega
  · rw [State.sampleSettle_of_none hwd (.inr rfl)]
    exact ⟨by rw [hwd]; rfl, hwo⟩
  · rw [State.sampleSettle_of_none hwd (.inl rfl)]
    exact ⟨by rw [hwd]; rfl, hwo⟩

theorem ageSample_again (hh : h < s.sys.tries.length) (hu : (s.keeper h).up = true) (hn : s.sys.tries.getD h 0 < 23) :
    Does (.ageSample h false) s fun t => t.sys.tries.getD h 0 = s.sys.tries.getD h 0 + 1 ∧ s.Only t [] := by
  have hex : exec (.ageSample h false) s =
      .next (s.updSys fun x => { x with tries := updAt x.tries h fun _ => s.sys.tries.getD h 0 + 1 }) := by
    change execAgeSample h false s = _
    unfold execAgeSample
    rw [hu]
    exact if_pos (by omega : s.sys.tries.getD h 0 + 1 < 24)
  exact Does.of_exec hex ⟨updAt_getD_self _ _ _ _ hh, (State.Only.refl s []).same⟩

theorem ageSample_skipped (hu : (s.keeper h).up = true) (hn : 23 ≤ s.sys.tries.getD h 0) :
    Does (.ageSample h false) s fun t => t.sys.daily = [none, none] ∧ t.rd F.AGE_FLAGS_sample_skipped = 1
      ∧ s.Raised t s.holder Ev.AGE_SAMPLE_SKIPPED [] ∧ t.mem = s.mem := by
  have hex : exec (.ageSample h false) s =
      .next (((s.updSys fun x => { x with tries := updAt x.tries h fun _ => 0, daily := [none, none] }).flagCount F.AGE_FLAGS_sample_skipped
        F.AGE_CNT_sample_skipped).raise s.holder Ev.AGE_SAMPLE_SKIPPED []) := by
    change execAgeSample h false s = _
    unfold execAgeSample
    rw [hu]
    exact if_neg (by omega : ¬ s.sys.tries.getD h 0 + 1 < 24)
  refine Does.of_exec hex ⟨?_, ?_, ?_, ?_⟩
  · rw [State.Apart.sys.raise, State.flagCount, State.bump, State.wr_sys, State.wr_sys]
    rfl
  · rw [State.rd_raise_other _ _ _ _ _ _ _ (by decide)]
    exact State.rd_flagCount_flag _ _ _ 0 (by decide)
  · refine State.Raised.of_same (t := (s.updSys fun x => { x with tries := updAt x.tries h fun _ => 0, daily := [none, none] }).flagCount
      F.AGE_FLAGS_sample_skipped F.AGE_CNT_sample_skipped) ?_ (fun f hf => ?_) rfl
    · simp only [State.flagCount, State.bump, State.wr_host]
      rfl
    · simp only [List.mem_cons, List.not_mem_nil, or_false] at hf
      rcases hf with rfl | rfl
      · exact (State.rd_flagCount_other _ _ _ _ _ _ _ (by decide)).trans rfl
      · exact (State.rd_flagCount_other _ _ _ _ _ _ _ (by decide)).trans rfl
  · rw [State.raise_mem, State.flagCount, State.bump, State.wr_mem, State.wr_mem]
    rfl

/-! ### The plan and the mode table -/

/-- The fields that a plan run sets. -/
def planFlds : List Fld := [F.AGE_FORECAST_duty, F.AGE_TREND_k, F.AGE_MODE0_offered, F.AGE_MODE1_offered, F.AGE_MODE2_offered, F.AGE_FLAGS_withdrawn,
  F.AGE_PLAN_plan_mv, F.AGE_PLAN_plan_code, F.AGE_FORECAST_months, F.AGE_FLAGS_forecast] ++ eventFlds

theorem State.Within.setOffered {l : List Fld} {s t : State} (h : State.Within l s t)
    (hl : ∀ x ∈ [F.AGE_MODE0_offered, F.AGE_MODE1_offered, F.AGE_MODE2_offered], x ∈ l) (m : Nat) (b : Bool) : State.Within l s (t.setOffered m b) :=
  .ite (h.wr (hl _ (by simp)) ..) (.ite (h.wr (hl _ (by simp)) ..) (h.wr (hl _ (by simp)) ..))

theorem State.within_offer (s : State) : State.Within planFlds s s.offer := by
  unfold State.offer
  refine (State.Within.refl planFlds s).each _ fun u m hu => ?_
  extract_lets old new t t1
  have ht : State.Within planFlds s t := hu.setOffered (by decide) m new
  have ht1 : State.Within planFlds s t1 := .ite ht ht.same
  exact .ite ((ht1.wr (f := F.AGE_FLAGS_withdrawn) (by decide) ..).raise (by decide) ..) ht1

theorem State.offer_planned (s : State) : s.offer.sys.planned = s.sys.planned := by
  unfold State.offer
  refine State.each_of_kept (fun u => u.sys.planned) (fun u m => ?_) _ _
  extract_lets old new t t1
  have ht : t.sys = u.sys := by
    simp only [t, State.setOffered]
    split
    · exact State.wr_sys ..
    · split
      · exact State.wr_sys ..
      · exact State.wr_sys ..
  have ht1 : t1.sys.planned = u.sys.planned := by
    simp only [t1]
    split
    · rw [ht]
    · exact (congrArg SysSt.planned ht :)
  split
  · rw [State.Apart.sys.raise, State.wr_sys, ht1]
  · exact ht1

theorem State.voltFollow_reads (s : State) : State.Within [] s s.voltFollow ∧ s.voltFollow.sys.planned = s.sys.planned := by
  unfold State.voltFollow
  split
  · exact ⟨(State.Within.refl [] s).same, rfl⟩
  · split
    · split
      · exact ⟨(State.Within.refl [] s).same, rfl⟩
      · exact ⟨(State.Within.refl [] s).same, rfl⟩
    · exact ⟨(State.Within.refl [] s).same, rfl⟩

/-- The fields of the forecast. -/
def forecastFlds : List Fld := [F.AGE_FORECAST_months, F.AGE_FLAGS_forecast] ++ eventFlds

theorem State.forecastShow_reads (s : State) : State.Within forecastFlds s s.forecastShow ∧ s.forecastShow.sys.planned = s.sys.planned := by
  unfold State.forecastShow
  split
  · exact ⟨.refl _ _, rfl⟩
  · extract_lets months t due
    have ht : State.Within forecastFlds s t := (State.Within.refl forecastFlds s).wr (f := F.AGE_FORECAST_months) (by decide) ..
    have hp : t.sys = s.sys := State.wr_sys ..
    split
    · refine ⟨((State.Within.same ht).wr (f := F.AGE_FLAGS_forecast) (by decide) ..).raise (by decide) .., ?_⟩
      rw [State.Apart.sys.raise, State.wr_sys]
      exact (congrArg SysSt.planned hp :)
    · exact ⟨ht, congrArg SysSt.planned hp⟩

/-- The plan voltage is a step of the regulator from 620 to 820 mV. -/
theorem State.planVoltage_step (s : State) : ∃ k < 41, s.planVoltage = 620 + 5 * k := by
  unfold State.planVoltage
  extract_lets req
  cases hf : ((List.range 41).map fun k => 620 + 5 * k).find? fun mv => withinCode (s.sys.worst mv s.sys.horizon) req with
  | none => exact ⟨40, by decide, rfl⟩
  | some mv =>
    obtain ⟨k, hk, rfl⟩ := List.mem_map.mp (List.mem_of_find?_eq_some hf)
    exact ⟨k, List.mem_range.mp hk, rfl⟩

/-- What a plan run sets, the voltage it has chosen, and that a plan has run. -/
theorem State.planRun_reads (s : State) : State.Within planFlds s s.planRun ∧ (∃ k < 41, s.planRun.rd F.AGE_PLAN_plan_mv = 620 + 5 * k)
    ∧ s.planRun.sys.planned = true := by
  unfold State.planRun
  extract_lets now hours d t t1 t2 t3
  have ht : State.Within planFlds s t := (State.Within.refl planFlds s).same
  have ht1 : State.Within planFlds s t1 := (ht.wr (f := F.AGE_FORECAST_duty) (by decide) ..).wr (f := F.AGE_TREND_k) (by decide) ..
  have hp1 : t1.sys.planned = true := by simp only [t1, State.wr_sys]; rfl
  have ht2 : State.Within planFlds s t2 := .ite ht1 (ht1.trans t1.within_offer)
  have hp2 : t2.sys.planned = true := by
    simp only [t2]
    split
    · exact hp1
    · exact t1.offer_planned.trans hp1
  clear_value t2
  have ht3 : State.Within planFlds s t3 := ht2.wr (f := F.AGE_PLAN_plan_mv) (by decide) ..
  obtain ⟨k, hk, hv⟩ := t2.planVoltage_step
  have hr3 : t3.rd F.AGE_PLAN_plan_mv = 620 + 5 * k := by
    refine (State.rd_wr_self t2 F.AGE_PLAN_plan_mv _ 0 0).trans ?_
    rw [hv]
    refine Nat.mod_eq_of_lt ?_
    exact Nat.lt_of_lt_of_le (by omega : 620 + 5 * k < 1024) (by decide)
  have hp3 : t3.sys.planned = true := (congrArg SysSt.planned (State.wr_sys ..)).trans hp2
  clear_value t3
  generalize hw : t3.wr F.AGE_PLAN_plan_code (t3.planCode (t3.rd F.AGE_VNOW_mv)) = w
  have hw3 : State.Within planFlds s w := by rw [← hw]; exact ht3.wr (f := F.AGE_PLAN_plan_code) (by decide) ..
  have hwr : w.rd F.AGE_PLAN_plan_mv = 620 + 5 * k := by
    rw [← hw, State.rd_wr_other _ _ _ _ _ _ _ _ (by decide), hr3]
  have hwp : w.sys.planned = true := by rw [← hw, State.wr_sys, hp3]
  obtain ⟨hf, hfp⟩ := w.voltFollow_reads
  obtain ⟨hg, hgp⟩ := w.voltFollow.forecastShow_reads
  exact ⟨(hw3.trans (hf.mono (by decide))).trans (hg.mono (by decide)),
    ⟨k, hk, (hg.rd _ 0 0 (by decide)).trans ((hf.rd _ 0 0 (by decide)).trans hwr)⟩, hgp.trans (hfp.trans hwp)⟩

theorem agePlanRun_does (hu : (s.keeper s.holder).up = true) :
    Does .agePlanRun s fun t => 620 ≤ t.rd F.AGE_PLAN_plan_mv ∧ t.rd F.AGE_PLAN_plan_mv ≤ 820 ∧ t.rd F.AGE_PLAN_plan_mv % 5 = 0
      ∧ t.sys.planned = true ∧ t.mem = s.mem := by
  obtain ⟨hw, ⟨k, hk, hv⟩, hp⟩ := s.planRun_reads
  refine Does.of_exec (congrArg Host.Outcome.next (if_pos hu)) ⟨?_, ?_, ?_, hp, hw.mem⟩
  all_goals rw [hv]
  all_goals omega

theorem State.modeDefined_congr {s t : State} {l : List Fld} (hw : State.Within l s t)
    (hl : ∀ f ∈ [F.AGE_MODE0_defined, F.AGE_MODE1_defined, F.AGE_MODE2_defined], f.Off l) (m : Nat) : t.modeDefined m = s.modeDefined m := by
  unfold State.modeDefined State.on
  rw [hw.rd _ 0 0 (hl F.AGE_MODE0_defined (by simp)), hw.rd _ 0 0 (hl F.AGE_MODE1_defined (by simp)), hw.rd _ _ 0 (hl F.AGE_MODE2_defined (by simp))]

theorem State.modeReq_congr {s t : State} {l : List Fld} (hw : State.Within l s t)
    (hl : ∀ f ∈ [F.AGE_MODE0_req_code, F.AGE_MODE1_req_code, F.AGE_MODE2_req_code], f.Off l) (m : Nat) : t.modeReq m = s.modeReq m := by
  unfold State.modeReq
  rw [hw.rd _ 0 0 (hl F.AGE_MODE0_req_code (by simp)), hw.rd _ 0 0 (hl F.AGE_MODE1_req_code (by simp)),
    hw.rd _ _ 0 (hl F.AGE_MODE2_req_code (by simp))]

theorem State.setMode_reads (s : State) (m : Nat) (b : Bool) (v : Nat) :
    (s.setMode m b (v % 65536)).modeDefined m = b ∧ (s.setMode m b (v % 65536)).modeReq m = v % 65536
      ∧ (s.setMode m b (v % 65536)).mem = s.mem := by
  have hb : b2n b % 2 = b2n b := by cases b <;> rfl
  have hv : v % 65536 % 65536 = v % 65536 := Nat.mod_mod _ _
  have hon : (b2n b == 1) = b := by cases b <;> rfl
  unfold State.setMode State.modeDefined State.modeReq State.on
  by_cases h0 : m = 0
  · simp only [if_pos h0]
    refine ⟨?_, (State.rd_wr_self _ F.AGE_MODE0_req_code _ 0 0).trans hv, by rw [State.wr_mem, State.wr_mem]⟩
    rw [State.rd_wr_other _ _ _ _ _ _ _ _ (by decide), (State.rd_wr_self s F.AGE_MODE0_defined _ 0 0).trans hb, hon]
  · by_cases h1 : m = 1
    · simp only [if_neg h0, if_pos h1]
      refine ⟨?_, (State.rd_wr_self _ F.AGE_MODE1_req_code _ 0 0).trans hv, by rw [State.wr_mem, State.wr_mem]⟩
      rw [State.rd_wr_other _ _ _ _ _ _ _ _ (by decide), (State.rd_wr_self s F.AGE_MODE1_defined _ 0 0).trans hb, hon]
    · simp only [if_neg h0, if_neg h1]
      refine ⟨?_, (State.rd_wr_self _ F.AGE_MODE2_req_code _ (m - 2) 0).trans hv, by rw [State.wr_mem, State.wr_mem]⟩
      rw [State.rd_wr_other _ _ _ _ _ _ _ _ (by decide), (State.rd_wr_self s F.AGE_MODE2_defined _ (m - 2) 0).trans hb, hon]

theorem ageModeWrite_does (m v : Nat) (s : State) :
    Does (.ageModeWrite m v) s fun t => t.modeDefined m = bitOf v 30 ∧ t.modeReq m = v % 65536 ∧ t.mem = s.mem := by
  obtain ⟨hd, hr, hm⟩ := s.setMode_reads m (bitOf v 30) v
  generalize hw : s.setMode m (bitOf v 30) (v % 65536) = w at hd hr hm
  have hk : State.Within planFlds w (((if bitOf v 30 && !s.modeDefined m then w.setOffered m false else w).modeRecord m).planRun) :=
    State.Within.trans (State.Within.same (.ite ((State.Within.refl planFlds w).setOffered (by decide) m false) (.refl planFlds w)))
      (State.planRun_reads _).1
  refine Does.of_exec (t := ((if bitOf v 30 && !s.modeDefined m then w.setOffered m false else w).modeRecord m).planRun) (by rw [← hw]; rfl)
    ⟨(State.modeDefined_congr hk (by decide) m).trans hd, (State.modeReq_congr hk (by decide) m).trans hr, hk.mem.trans hm⟩

/-! ### The core voltage -/

theorem ageVoltageLower_does (hl : s.sys.lower = true) (ht : s.anyTakeOpen = false) (hv : s.voltWanted < s.voltAsked) :
    Does .ageVoltageLower s fun t => t.sys.asked = some s.voltWanted ∧ t.sys.lower = false ∧ t.out = .avs s.voltWanted :: s.out ∧ s.Only t [] := by
  have hex : exec .ageVoltageLower s = .next (s.voltWrite s.voltWanted) := by
    change execAgeVoltageLower s = _
    unfold execAgeVoltageLower
    rw [hl, ht]
    refine congrArg Host.Outcome.next ?_
    change s.voltFollow = _
    unfold State.voltFollow
    rw [if_neg (by omega), if_pos hv, ht]
    rfl
  exact Does.of_exec hex ⟨rfl, rfl, rfl, (State.Only.refl s []).same⟩

theorem State.voltFollow_boostMv (s : State) : s.voltFollow.sys.boostMv = s.sys.boostMv := by
  unfold State.voltFollow
  split
  · rfl
  · split
    · split <;> rfl
    · rfl

theorem ageBoostEnd_does (hb : s.on F.AGE_VNOW_boost = true) (ho : s.openEasels = []) :
    Does .ageBoostEnd s fun t => t.rd F.AGE_VNOW_boost = 0 ∧ t.sys.boostMv = 0 ∧ s.Only t [(F.AGE_VNOW_boost, 0)] := by
  have hex : exec .ageBoostEnd s = .next ((s.wr F.AGE_VNOW_boost 0).updSys fun x => { x with boostMv := 0 }).voltFollow := by
    change execAgeBoostEnd s = _
    have hnone : s.openCode = none := by
      unfold State.openCode
      rw [ho]
      rfl
    unfold execAgeBoostEnd
    rw [hnone, hb]
    rfl
  obtain ⟨hf, -⟩ := ((s.wr F.AGE_VNOW_boost 0).updSys fun x => { x with boostMv := 0 }).voltFollow_reads
  refine Does.of_exec hex ⟨(hf.rd _ 0 0 (by decide)).trans (State.rd_wr_self s F.AGE_VNOW_boost 0 0 0), State.voltFollow_boostMv _,
    hf.mem.trans (State.wr_mem ..), fun f i j hfl => (hf.rd f i j (by simp [Fld.Off])).trans ?_⟩
  exact ((State.Only.refl s [(F.AGE_VNOW_boost, 0)]).wr F.AGE_VNOW_boost 0 0 0 (by simp)).2 f i j hfl

theorem exec_avsVoltageReport {v : Nat} (ha : s.sys.asked = some v) : exec (.avsVoltageReport v) s = .next (
    let t := (s.wr F.AGE_VNOW_mv v).updSys fun x => { x with asked := none, avsWait := [] }
    let t1 := t.wr F.AGE_PLAN_plan_code (t.planCode v)
    t1.each s.sys.avsWait fun s e =>
      if s.planPending then s.waitPlan (.easelAdmissionCheck e) else s.admission e (s.rd F.AGE_PLAN_plan_code)) := if_pos ha

theorem avsVoltageReport_does {v : Nat} (ha : s.sys.asked = some v) :
    Does (.avsVoltageReport v) s fun t => t.rd F.AGE_VNOW_mv = v % 2 ^ F.AGE_VNOW_mv.width ∧ t.sys.asked = none ∧ t.mem = s.mem := by
  refine Does.of_exec (exec_avsVoltageReport ha) ?_
  extract_lets t t1
  have h1 : t1.rd F.AGE_VNOW_mv = v % 2 ^ F.AGE_VNOW_mv.width :=
    (State.rd_wr_other t _ _ _ _ _ _ _ (by decide)).trans (State.rd_wr_self s F.AGE_VNOW_mv v 0 0)
  have h2 : t1.sys.asked = none := congrArg SysSt.asked (State.wr_sys t F.AGE_PLAN_plan_code _ 0 0)
  have h3 : t1.mem = s.mem := (State.wr_mem t _ _ 0 0).trans (State.wr_mem s _ _ 0 0)
  clear_value t1
  have fr := State.CentralKept.frame [] t1
  have hk : State.CentralKept [] t1 (t1.each s.sys.avsWait fun s e =>
      if s.planPending then s.waitPlan (.easelAdmissionCheck e) else s.admission e (s.rd F.AGE_PLAN_plan_code)) :=
    fr.each (.refl [] t1) _ _ fun _ _ hx => fr.ite (fr.same hx) (fr.admission hx ..)
  exact ⟨(hk.rd _ 0 0 (by decide) fun _ hx => nomatch hx).trans h1, (congrArg SysSt.asked (a₁ := _) hk.sys |>.trans h2), hk.mem.trans h3⟩

/-- An admission that runs opens the easel or closes it. -/
theorem State.admission_state {e : Nat} (plan : Nat) (h3 : s.rd F.EASEL_STATUS_state e = 3) :
    (s.admission e plan).rd F.EASEL_STATUS_state e = 0 ∨ (s.admission e plan).rd F.EASEL_STATUS_state e = 1 := by
  by_cases hc : s.admitCause e plan (s.reqCode (s.openEasels ++ [e])) = 0
  · refine .inr ?_
    rw [State.admission_of_passed h3 hc]
    simp (disch := decide) only [State.rd_canvasOpen_other, State.rd_condOpen, State.updEasel_rd, State.rd_wr_self]
    rfl
  · refine .inl ?_
    rw [State.admission_of_refused h3 rfl hc]
    simp (disch := decide) only [State.rd_raise_other, State.refused, State.rd_wr_other, State.rd_wr_self]
    rfl

theorem exec_avsReportTimeout {e : Nat} (hw : s.sys.avsWait.contains e = true) (hp : s.planPending = false) : exec (.avsReportTimeout e) s = .next (
    let t := s.updSys fun x => { x with avsWait := x.avsWait.filter (· ≠ e) }
    t.admission e (max (s.rd F.AGE_PLAN_plan_code) (s.planCode s.voltAsked))) := (if_pos hw).trans (if_neg (by rw [hp]; exact Bool.false_ne_true))

theorem avsReportTimeout_does {e : Nat} (hw : s.sys.avsWait.contains e = true) (hp : s.planPending = false) (h3 : s.rd F.EASEL_STATUS_state e = 3) :
    Does (.avsReportTimeout e) s fun t => t.sys.avsWait.contains e = false ∧ (t.rd F.EASEL_STATUS_state e = 0 ∨ t.rd F.EASEL_STATUS_state e = 1)
      ∧ t.mem = s.mem := by
  refine Does.of_exec (exec_avsReportTimeout hw hp) ?_
  extract_lets t
  have hk := (State.CentralKept.frame [] t).admission (.refl [] t) e (max (s.rd F.AGE_PLAN_plan_code) (s.planCode s.voltAsked))
  refine ⟨?_, State.admission_state _ h3, hk.mem⟩
  have hs : (t.admission e (max (s.rd F.AGE_PLAN_plan_code) (s.planCode s.voltAsked))).sys.avsWait = s.sys.avsWait.filter (· ≠ e) :=
    congrArg SysSt.avsWait hk.sys
  rw [hs]
  simp

/-! ### Deadlines -/

theorem State.easel_lt_of_frame {e serial : Nat} {f : Frame} (hf : s.frame e serial = some f) : e < s.easels.length := by
  refine Nat.lt_of_not_le fun hn => ?_
  unfold State.frame State.easel at hf
  rw [getD_of_ge hn] at hf
  cases hf

/-- A change of a frame that keeps its number, read back. -/
theorem State.frame_updFrame_map {e serial : Nat} (u : Frame → Frame) (he : e < s.easels.length) (hu : ∀ f, (u f).serial = f.serial) :
    (s.updFrame e serial u).frame e serial = (s.frame e serial).map u := by
  rw [State.frame, State.updFrame, State.easel_updEasel_self _ he, State.frame]
  change ((s.easel e).frames.map fun y => if y.serial = serial then u y else y).find? (fun f => f.serial == serial) = _
  generalize (s.easel e).frames = l
  have hp : ((fun f : Frame => f.serial == serial) ∘ fun y => if y.serial = serial then u y else y) = fun f => f.serial == serial := by
    funext y
    simp only [Function.comp_apply]
    split <;> simp [hu]
  rw [List.find?_map, hp]
  cases hf : l.find? fun f => f.serial == serial with
  | none => rfl
  | some f => exact congrArg some (if_pos (by simpa using List.find?_some hf))

theorem exec_frameDeadline {e serial : Nat} {f : Frame} (hf : s.frame e serial = some f) (hs : f.st ≠ .scraped) (hd : f.deadline = false)
    (ho : s.onTime e f = false) : exec (.frameDeadline e serial) s = .next (s.deadlineMissed e f) := by
  change execFrameDeadline e serial s = _
  unfold execFrameDeadline
  rw [hf]
  dsimp only
  rw [hd, ho, if_neg (by simp [hs])]

theorem frameDeadline_does {e serial : Nat} {f : Frame} (hf : s.frame e serial = some f) (hs : f.st ≠ .scraped) (hd : f.deadline = false)
    (ho : s.onTime e f = false) :
    Does (.frameDeadline e serial) s fun t => t.rd F.AGE_FLAGS_deadline = 1 ∧ t.mem = s.mem
      ∧ ∃ g, t.frame e serial = some g ∧ g.deadline = true ∧ g.fault = setFault f.fault 6 ∧ g.st = (if f.st = .dry then .damaged else f.st) := by
  obtain rfl : f.serial = serial := by simpa using List.find?_some hf
  have he := State.easel_lt_of_frame hf
  refine Does.of_exec (exec_frameDeadline hf hs hd ho) ?_
  unfold State.deadlineMissed
  extract_lets word t t1 t2 t3
  have ht : t.frame e f.serial = some { f with fault := word, deadline := true } := by
    have h1 : (s.lateFault e f.serial 6).frame e f.serial = some { f with fault := word } := by
      change (s.updFrame e f.serial fun x => { x with fault := setFault x.fault 6 }).frame e f.serial = _
      refine (State.frame_updFrame_map (fun f => { f with fault := setFault f.fault 6 }) he fun _ => rfl).trans ?_
      rw [hf]
      rfl
    simp only [t]
    refine (State.frame_updFrame_map (fun x => { x with deadline := true }) (State.easel_lt_of_frame h1) fun _ => rfl).trans ?_
    rw [h1]
    rfl
  have ht1 : t1.frame e f.serial = some { f with fault := word, deadline := true } :=
    (State.frame_congr (by simp only [t1, State.Apart.easels.raise, State.flagCount, State.bump, State.wr_easels]) e f.serial).trans ht
  have hr1 : t1.rd F.AGE_FLAGS_deadline = 1 :=
    (State.rd_raise_other _ _ _ _ _ _ _ (by decide)).trans (State.rd_flagCount_flag t F.AGE_FLAGS_deadline F.AGE_CNT_deadline 0 (by decide))
  have hm1 : t1.mem = s.mem := by
    simp only [t1, State.raise_mem, State.flagCount, State.bump, State.wr_mem]
    rfl
  clear_value t1
  by_cases hdry : f.st = .dry
  · rw [if_pos hdry, if_pos hdry]
    have ht3 : t3.frame e f.serial = some { f with fault := word, deadline := true, st := .damaged } := by
      refine (State.frame_congr (t := t3) (s := t1.updFrame e f.serial fun x => { x with st := .damaged }) ?_ e f.serial).trans ?_
      · simp only [t3, t2, State.Apart.easels.raise, State.flagCount, State.bump, State.wr_easels]
      · refine (State.frame_updFrame_map (fun x => { x with st := .damaged }) (State.easel_lt_of_frame ht1) fun _ => rfl).trans ?_
        rw [ht1]
        rfl
    refine ⟨?_, ?_, _, ht3, rfl, rfl, rfl⟩
    · refine (State.rd_raise_other _ _ _ _ _ _ _ (by decide)).trans ((State.rd_flagCount_other _ _ _ _ _ _ _ (by decide)).trans hr1)
    · change t3.mem = _
      simp only [t3, t2, State.raise_mem, State.flagCount, State.bump, State.wr_mem]
      exact hm1
  · rw [if_neg hdry, if_neg hdry]
    exact ⟨hr1, hm1, _, ht1, rfl, rfl, rfl⟩

/-- Settles O59: the sample and its stages, the shed levels, the ageing samples and the plan, the core voltage and the deadline. -/
theorem heatAndAgeing : Obligations.HeatAndAgeing := by
  refine ⟨fun h s hh => ⟨fun v _ hv h0 hu => thermalSample_cool hv h0 hu, fun v hv hv' h0 hu => thermalSample_warm hv hv' h0 hu,
    fun v hv _ hu h0 => thermalSample_hot hv hu h0, fun h2 ht => Does.of_exec (exec_thermalGraceExpire h2 ht) s.enforce_reads,
    fun h2 ht => congrArg Host.Outcome.next (if_neg (by omega)), fun h3 ht hl => ?_, thermalRelease_does, fun n => shedCommandReceive_does,
    agePoweredHour_does s, ageSample_kept hh, ageSample_again, ageSample_skipped, agePlanRun_does, fun m v _ => ageModeWrite_does m v s,
    ageVoltageLower_does, ageBoostEnd_does, fun mv => avsVoltageReport_does, fun e => avsReportTimeout_does, fun e serial f => frameDeadline_does⟩,
    fun h m v s => ⟨fun nodes diodes past hbms halves recent late hu => exec_thermalSample nodes diodes past hbms halves recent late hu,
    exec_thermalGraceExpire, exec_thermalShedStepExpire, exec_thermalReleaseExpire, fun h' n hc => ?_, fun hu => congrArg Host.Outcome.next (if_pos hu),
    rfl, exec_avsVoltageReport, fun e => exec_avsReportTimeout, fun e hw hp => (if_pos hw).trans (if_pos hp), fun e serial f => exec_frameDeadline⟩⟩
  · obtain ⟨hr, hst, -⟩ := s.shedLevel_reported (n := s.rd F.THM_STATUS_level + 1) (by omega) s.holder Ev.THM_ENFORCE
      (le 1 (s.rd F.THM_STATUS_level + 1))
    exact Does.of_exec (exec_thermalShedStepExpire h3 ht hl) ⟨hr, hst.trans h3⟩
  · change execShedCommandReceive h s = _
    unfold execShedCommandReceive
    rw [hc]

end

end Sys2Proof.Machine
end

section
/-! PROOFS. Sessions and keys: the challenge, the answer and the close of a session, and the key commands (spec/19). -/
namespace Sys2Proof.Machine

set_option Elab.async false

section
variable {s : State} {id : Nat} {c : Cmd}

theorem State.Apart.sec : State.Apart State.sec := ⟨State.wr_sec, fun _ => rfl, fun _ _ _ => rfl⟩
theorem State.Apart.prodKeys : State.Apart State.prodKeys := ⟨State.wr_prodKeys, fun _ => rfl, fun _ _ _ => rfl⟩

/-- A command that has begun ends with its record, whatever else has been done, and its end touches no register and no byte of HBM. -/
theorem State.complete_of_begun {u : State} (hc : u.cmd id = some c.begun) (hm : c.mute = false) (status a b half : Nat) :
    (u.complete id status a b half).Answered c status a b ∧ ∀ l, u.Only (u.complete id status a b half) l := by
  have hne : c.begun.stage ≠ .ended := by simp [Cmd.begun]
  exact ⟨State.complete_answered (c := c.begun) status a b half hc hne hm, fun l => (State.Only.refl u l).complete hc hne hm status a b half⟩

theorem State.cmd_congr {s t : State} (h : t.host = s.host) (k : Nat) : t.cmd k = s.cmd k := by
  unfold State.cmd
  rw [h]

/-! ### The request register -/

/-- At most one of the request's three acts is set (R671). -/
abbrev oneAct (v : Nat) : Prop := b2n (bitOf v 8) + b2n (bitOf v 9) + b2n (bitOf v 10) ≤ 1

/-- The fields of the request as written. -/
def State.sesWritten (s : State) (v : Nat) : State := (s.wr F.SES_REQ_ring (v % 16)).wr F.SES_REQ_role (bitsOf v 5 4)

theorem State.sesWrite_of_one {v : Nat} (h : oneAct v) (f : State → Nat → Nat → State) :
    s.sesWrite v f = f (s.sesWritten v) (v % 16) (bitsOf v 5 4) := if_neg (Nat.not_lt.mpr h)

theorem State.sesWritten_within (s : State) (v : Nat) : State.Within [F.SES_REQ_ring, F.SES_REQ_role] s (s.sesWritten v) :=
  ((State.Within.refl _ s).wr (f := F.SES_REQ_ring) (by decide) ..).wr (f := F.SES_REQ_role) (by decide) ..

theorem State.sesWritten_sec (s : State) (v : Nat) : (s.sesWritten v).sec = s.sec := (State.wr_sec ..).trans (State.wr_sec ..)

theorem State.sesWritten_fresh (s : State) (v : Nat) : (s.sesWritten v).fresh = s.fresh := (State.wr_fresh ..).trans (State.wr_fresh ..)

theorem State.sessionKey_congr {s t : State} (h : t.sec = s.sec) (role : Nat) : t.sessionKey role = s.sessionKey role := by
  unfold State.sessionKey State.roleKey
  rw [h]

theorem State.macBytes_congr {s t : State} (h : ∀ w, t.rd F.SES_MAC_value w = s.rd F.SES_MAC_value w) : t.macBytes = s.macBytes := by
  unfold State.macBytes
  simp only [h]

theorem State.random_congr {s t : State} (h : t.fresh = s.fresh) (n : Nat) : t.random n = s.random n := by
  unfold State.random
  rw [h]

/-! ### The challenge -/

/-- A ring may be opened for a role: it is enabled and without a session, the role is one, and it has a key. -/
structure State.Openable (s : State) (ring role : Nat) : Prop where
  enabled : s.on F.RING_SQ_CFG_enable ring = true
  closed : s.rd F.RING_SQ_STATUS_role ring = 0
  proper : role ≠ 0
  key : (s.sessionKey role).isSome = true

theorem State.Openable.sesWritten {ring role : Nat} (h : s.Openable ring role) (v : Nat) : (s.sesWritten v).Openable ring role where
  enabled := by
    unfold State.on
    rw [(s.sesWritten_within v).rd _ _ _ (by decide)]
    exact h.enabled
  closed := ((s.sesWritten_within v).rd _ _ _ (by decide)).trans h.closed
  proper := h.proper
  key := by
    rw [State.sessionKey_congr (s.sesWritten_sec v)]
    exact h.key

theorem State.Openable.not_refused {ring role : Nat} (h : s.Openable ring role) :
    ¬ (s.on F.RING_SQ_CFG_enable ring = false ∨ s.rd F.RING_SQ_STATUS_role ring ≠ 0 ∨ role = 0) := by
  rintro (he | hr | h0)
  · rw [h.enabled] at he
    cases he
  · exact hr h.closed
  · exact h.proper h0

theorem State.Openable.has_key {ring role : Nat} (h : s.Openable ring role) : ¬ (s.sessionKey role).isNone = true := by
  rw [Option.isNone_iff_eq_none]
  exact Option.isSome_iff_ne_none.mp h.key

/-- A challenge that the rules allow is answered with a fresh nonce (R613). -/
theorem State.challenge_granted {elapsed ring role : Nat} (h : s.Openable ring role) (hl : lockSeconds (s.sec.fails.getD (role - 1) 0) ≤ elapsed)
    (hg : s.on F.SES_STATUS_rng_fail = false) : (s.challenge elapsed ring role).rd F.SES_RESULT_result = 1
      ∧ (s.challenge elapsed ring role).sec.nonce = some (s.random 32, ring, role) ∧ (s.challenge elapsed ring role).mem = s.mem := by
  unfold State.challenge
  extract_lets t left n t1
  rw [if_neg h.not_refused, if_neg h.has_key, if_neg (by omega), if_neg (by rw [hg]; exact Bool.false_ne_true)]
  have hkept : ∀ {β : Type} (π : State → β), (∀ (u : State) (w : Nat), π (u.wr F.SES_NONCE_value (wordAt n w) w) = π u) →
      π (t1.each (List.range 8) fun s w => s.wr F.SES_NONCE_value (wordAt n w) w) = π t1 := fun π hπ => State.each_of_kept π hπ t1 _
  refine ⟨State.rd_wr_self _ F.SES_RESULT_result 1 0 0, ?_, ?_⟩
  · rw [State.wr_sec]
    exact congrArg SecSt.nonce (hkept State.sec fun u w => State.wr_sec ..)
  · rw [State.wr_mem]
    exact (hkept State.mem fun u w => State.wr_mem ..).trans (State.wr_mem t F.SES_LOCK_remain_s 0 (role - 1) 0)

/-- A challenge of a locked role is refused (R616). -/
theorem State.challenge_locked {elapsed ring role : Nat} (h : s.Openable ring role) (hl : elapsed < lockSeconds (s.sec.fails.getD (role - 1) 0)) :
    (s.challenge elapsed ring role).rd F.SES_RESULT_result = 4 ∧ (s.challenge elapsed ring role).sec.nonce = none
      ∧ (s.challenge elapsed ring role).mem = s.mem := by
  unfold State.challenge
  extract_lets t left n t1
  rw [if_neg h.not_refused, if_neg h.has_key, if_pos (by omega)]
  refine ⟨State.rd_wr_self _ F.SES_RESULT_result 4 0 0, ?_, ?_⟩
  · rw [State.wr_sec, State.wr_sec]
    rfl
  · rw [State.wr_mem, State.wr_mem]
    exact rfl

theorem exec_sesChallenge {v : Nat} (h : oneAct v) (elapsed : Nat) : exec (.sesChallenge v elapsed) s =
    .next ((s.sesWritten v).challenge elapsed (v % 16) (bitsOf v 5 4)) := congrArg Host.Outcome.next (State.sesWrite_of_one h _)

theorem sesChallenge_granted {v elapsed : Nat} (hv : oneAct v) (h : s.Openable (v % 16) (bitsOf v 5 4))
    (hl : lockSeconds (s.sec.fails.getD (bitsOf v 5 4 - 1) 0) ≤ elapsed) (hg : s.on F.SES_STATUS_rng_fail = false) :
    Does (.sesChallenge v elapsed) s fun t => t.rd F.SES_RESULT_result = 1 ∧ t.sec.nonce = some (s.random 32, v % 16, bitsOf v 5 4)
      ∧ t.mem = s.mem := by
  have hw := s.sesWritten_within v
  obtain ⟨hr, hn, hm⟩ := State.challenge_granted (elapsed := elapsed) (h.sesWritten v) (by rw [s.sesWritten_sec v]; exact hl) (by
    unfold State.on
    rw [hw.rd _ _ _ (by decide)]
    exact hg)
  exact Does.of_exec (exec_sesChallenge hv elapsed)
    ⟨hr, hn.trans (by rw [State.random_congr (s.sesWritten_fresh v)]), hm.trans hw.mem⟩

theorem sesChallenge_locked {v elapsed : Nat} (hv : oneAct v) (h : s.Openable (v % 16) (bitsOf v 5 4))
    (hl : elapsed < lockSeconds (s.sec.fails.getD (bitsOf v 5 4 - 1) 0)) :
    Does (.sesChallenge v elapsed) s fun t => t.rd F.SES_RESULT_result = 4 ∧ t.sec.nonce = none ∧ t.mem = s.mem := by
  obtain ⟨hr, hn, hm⟩ := State.challenge_locked (h.sesWritten v) (by rw [s.sesWritten_sec v]; exact hl)
  exact Does.of_exec (exec_sesChallenge hv elapsed) ⟨hr, hn, hm.trans (s.sesWritten_within v).mem⟩

/-! ### The answer -/

theorem State.setFails_within {l : List Fld} {t : State} (h : State.Within l s t) (hf : F.SES_LOCK_f ∈ l) (hr : F.SES_LOCK_remain_s ∈ l)
    (role f : Nat) : State.Within l s (t.setFails role f) := (((State.Within.same h).wr hf ..).wr hr ..).same

theorem State.setFails_sec (s : State) (role f : Nat) : (s.setFails role f).sec = { s.sec with fails := updAt s.sec.fails (role - 1) fun _ => f } :=
  (State.wr_sec ..).trans (State.wr_sec ..)

/-- The nonce in force is this one, for this ring and role, which may be opened under this key. -/
structure State.Challenged (s : State) (n : List Byte) (r k : Nat) (key : List Byte) : Prop where
  nonce : s.sec.nonce = some (n, r, k)
  enabled : s.on F.RING_SQ_CFG_enable r = true
  closed : s.rd F.RING_SQ_STATUS_role r = 0
  key : s.sessionKey k = some key

theorem State.Challenged.sesWritten {n key : List Byte} {r k : Nat} (h : s.Challenged n r k key) (v : Nat) :
    (s.sesWritten v).Challenged n r k key where
  nonce := by rw [s.sesWritten_sec v, h.nonce]
  enabled := by
    unfold State.on
    rw [(s.sesWritten_within v).rd _ _ _ (by decide)]
    exact h.enabled
  closed := ((s.sesWritten_within v).rd _ _ _ (by decide)).trans h.closed
  key := (State.sessionKey_congr (s.sesWritten_sec v) k).trans h.key

theorem State.Challenged.not_refused {n key : List Byte} {r k : Nat} (h : s.Challenged n r k key) :
    ¬ (r ≠ r ∨ k ≠ k ∨ s.on F.RING_SQ_CFG_enable r = false ∨ s.rd F.RING_SQ_STATUS_role r ≠ 0) := by
  rintro (hr | hk | he | hc)
  · exact hr rfl
  · exact hk rfl
  · rw [h.enabled] at he
    cases he
  · exact hc h.closed

theorem State.answer_late {n key : List Byte} {r k : Nat} (h : s.Challenged n r k key) :
    (s.answer true r k).rd F.SES_RESULT_result = 6 ∧ (s.answer true r k).sec.nonce = none ∧ (s.answer true r k).mem = s.mem := by
  have he : s.answer true r k = (s.updSec fun x => { x with nonce := none }).wr F.SES_RESULT_result 6 := by
    unfold State.answer
    rw [h.nonce]
    exact (if_neg h.not_refused).trans (if_pos rfl)
  rw [he]
  exact ⟨State.rd_wr_self _ F.SES_RESULT_result 6 0 0, by rw [State.wr_sec]; rfl, State.wr_mem ..⟩

/-- A session that opens: its role, and the ring that waited for it runs (R383, R613). -/
def State.opened (s : State) (r k : Nat) : State :=
  let t1 := ((s.updSec fun x => { x with nonce := none }).wr F.SES_RESULT_result 2).wr F.RING_SQ_STATUS_role k r
  if s.rd F.RING_SQ_STATUS_state r = 1 then t1.wr F.RING_SQ_STATUS_state 2 r else t1

theorem State.answer_of_right {n key : List Byte} {r k : Nat} (h : s.Challenged n r k key) (hmac' : hmac key (n ++ le 1 r ++ le 1 k) = s.macBytes) :
    s.answer false r k = if s.sec.fails.getD (k - 1) 0 = 0 then s.opened r k else (s.opened r k).setFails k 0 := by
  unfold State.answer
  rw [h.nonce]
  refine (if_neg h.not_refused).trans ((if_neg Bool.false_ne_true).trans ?_)
  rw [h.key]
  exact if_pos hmac'

theorem State.opened_reads {r k : Nat} (hk : k < 4) : (s.opened r k).rd F.SES_RESULT_result = 2 ∧ (s.opened r k).rd F.RING_SQ_STATUS_role r = k
    ∧ (s.opened r k).sec.nonce = none ∧ (s.rd F.RING_SQ_STATUS_state r = 1 → (s.opened r k).rd F.RING_SQ_STATUS_state r = 2)
    ∧ (s.opened r k).mem = s.mem := by
  unfold State.opened
  extract_lets t1
  have h1 : t1.rd F.SES_RESULT_result = 2 := by
    refine (State.rd_wr_other _ _ _ _ _ _ _ _ (by decide)).trans ?_
    exact State.rd_wr_self _ F.SES_RESULT_result 2 0 0
  have h2 : t1.rd F.RING_SQ_STATUS_role r = k := (State.rd_wr_self _ F.RING_SQ_STATUS_role k r 0).trans (Nat.mod_eq_of_lt hk)
  have h3 : t1.sec.nonce = none := by
    simp only [t1, State.wr_sec]
    rfl
  have h4 : t1.mem = s.mem := (State.wr_mem ..).trans (State.wr_mem ..)
  split
  · refine ⟨?_, ?_, ?_, fun _ => State.rd_wr_self t1 F.RING_SQ_STATUS_state 2 r 0, (State.wr_mem ..).trans h4⟩
    · rw [State.rd_wr_other _ _ _ _ _ _ _ _ (by decide), h1]
    · rw [State.rd_wr_other _ _ _ _ _ _ _ _ (by decide), h2]
    · rw [State.wr_sec, h3]
  · next hs => exact ⟨h1, h2, h3, fun h => absurd h hs, h4⟩

/-- The right answer opens the session, and the role's failures are forgotten (R613, R616). -/
theorem State.answer_right {n key : List Byte} {r k : Nat} (hk : k < 4) (h : s.Challenged n r k key)
    (hmac' : hmac key (n ++ le 1 r ++ le 1 k) = s.macBytes) : (s.answer false r k).rd F.SES_RESULT_result = 2
      ∧ (s.answer false r k).rd F.RING_SQ_STATUS_role r = k ∧ (s.answer false r k).sec.nonce = none
      ∧ (s.rd F.RING_SQ_STATUS_state r = 1 → (s.answer false r k).rd F.RING_SQ_STATUS_state r = 2) ∧ (s.answer false r k).mem = s.mem := by
  obtain ⟨h1, h2, h3, h4, h5⟩ := s.opened_reads (r := r) hk
  rw [State.answer_of_right h hmac']
  split
  · exact ⟨h1, h2, h3, h4, h5⟩
  · have hw : State.Within [F.SES_LOCK_f, F.SES_LOCK_remain_s] (s.opened r k) ((s.opened r k).setFails k 0) :=
      State.setFails_within (.refl _ _) (by decide) (by decide) k 0
    refine ⟨(hw.rd _ _ _ (by decide)).trans h1, (hw.rd _ _ _ (by decide)).trans h2, ?_, fun h => (hw.rd _ _ _ (by decide)).trans (h4 h),
      hw.mem.trans h5⟩
    rw [State.setFails_sec]
    exact h3

/-- A wrong answer, with the failure counted and reported, before a lockout is. -/
def State.failed (s : State) (r k : Nat) : State :=
  ((((s.updSec fun x => { x with nonce := none }).wr F.SES_RESULT_result 3).setFails k (min 255 (s.sec.fails.getD (k - 1) 0 + 1))).flagCount
    F.SES_FLAGS_open_fail F.SES_CNT_open_fail).raise 0 Ev.SES_OPEN_FAIL (le 1 r ++ le 1 k)

theorem State.answer_of_wrong {n key : List Byte} {r k : Nat} (h : s.Challenged n r k key) (hmac' : hmac key (n ++ le 1 r ++ le 1 k) ≠ s.macBytes) :
    s.answer false r k = if s.sec.fails.getD (k - 1) 0 + 1 = 5 then
      ((s.failed r k).flagCount F.SES_FLAGS_lockout F.SES_CNT_lockout).raise 0 Ev.SES_LOCKOUT (le 1 k) else s.failed r k := by
  unfold State.answer
  rw [h.nonce]
  refine (if_neg h.not_refused).trans ((if_neg Bool.false_ne_true).trans ?_)
  rw [h.key]
  exact if_neg hmac'

theorem State.failed_reads {r k : Nat} (hk : k - 1 < s.sec.fails.length) (hc : s.rd F.RING_SQ_STATUS_role r = 0) :
    (s.failed r k).rd F.SES_RESULT_result = 3 ∧ (s.failed r k).rd F.RING_SQ_STATUS_role r = 0 ∧ (s.failed r k).rd F.SES_FLAGS_open_fail = 1
      ∧ (s.failed r k).sec.fails.getD (k - 1) 0 = min 255 (s.sec.fails.getD (k - 1) 0 + 1) ∧ (s.failed r k).mem = s.mem := by
  have hw : State.Within [F.SES_LOCK_f, F.SES_LOCK_remain_s] ((s.updSec fun x => { x with nonce := none }).wr F.SES_RESULT_result 3)
      (((s.updSec fun x => { x with nonce := none }).wr F.SES_RESULT_result 3).setFails k (min 255 (s.sec.fails.getD (k - 1) 0 + 1))) :=
    State.setFails_within (.refl _ _) (by decide) (by decide) k _
  unfold State.failed
  refine ⟨?_, ?_, ?_, ?_, ?_⟩
  · rw [State.rd_raise_other _ _ _ _ _ _ _ (by decide), State.rd_flagCount_other _ _ _ _ _ _ _ (by decide), hw.rd _ _ _ (by decide)]
    exact State.rd_wr_self _ F.SES_RESULT_result 3 0 0
  · rw [State.rd_raise_other _ _ _ _ _ _ _ (by decide), State.rd_flagCount_other _ _ _ _ _ _ _ (by decide), hw.rd _ _ _ (by decide),
      State.rd_wr_other _ _ _ _ _ _ _ _ (by decide)]
    exact hc
  · rw [State.rd_raise_other _ _ _ _ _ _ _ (by decide)]
    exact State.rd_flagCount_flag _ _ _ 0 (by decide)
  · rw [State.Apart.sec.raise, State.flagCount, State.bump, State.wr_sec, State.wr_sec, State.setFails_sec, State.wr_sec]
    exact updAt_getD_self _ _ _ _ hk
  · rw [State.raise_mem, State.flagCount, State.bump, State.wr_mem, State.wr_mem, hw.mem, State.wr_mem]
    rfl

/-- A wrong answer counts a failure of the role, and the ring stays without a session (R616). -/
theorem State.answer_wrong {n key : List Byte} {r k : Nat} (h : s.Challenged n r k key) (hk : k - 1 < s.sec.fails.length)
    (hmac' : hmac key (n ++ le 1 r ++ le 1 k) ≠ s.macBytes) : (s.answer false r k).rd F.SES_RESULT_result = 3
      ∧ (s.answer false r k).rd F.RING_SQ_STATUS_role r = 0 ∧ (s.answer false r k).rd F.SES_FLAGS_open_fail = 1
      ∧ (s.answer false r k).sec.fails.getD (k - 1) 0 = min 255 (s.sec.fails.getD (k - 1) 0 + 1) ∧ (s.answer false r k).mem = s.mem := by
  obtain ⟨h1, h2, h3, h4, h5⟩ := State.failed_reads hk h.closed
  rw [State.answer_of_wrong h hmac']
  generalize s.failed r k = u at h1 h2 h3 h4 h5
  split
  · have hw : State.Within (F.SES_FLAGS_lockout :: F.SES_CNT_lockout :: eventFlds) u
        ((u.flagCount F.SES_FLAGS_lockout F.SES_CNT_lockout).raise 0 Ev.SES_LOCKOUT (le 1 k)) :=
      ((State.Within.refl _ u).flagCount (by decide) (by decide) 0).raise (by decide) ..
    refine ⟨(hw.rd _ _ _ (by decide)).trans h1, (hw.rd _ _ _ (by decide)).trans h2, (hw.rd _ _ _ (by decide)).trans h3, ?_, hw.mem.trans h5⟩
    rw [State.Apart.sec.raise, State.flagCount, State.bump, State.wr_sec, State.wr_sec]
    exact h4
  · exact ⟨h1, h2, h3, h4, h5⟩

theorem exec_sesAnswer {v : Nat} (h : oneAct v) (late : Bool) : exec (.sesAnswer v late) s =
    .next ((s.sesWritten v).answer late (v % 16) (bitsOf v 5 4)) := congrArg Host.Outcome.next (State.sesWrite_of_one h _)

theorem bitsOf_role_lt (v : Nat) : bitsOf v 5 4 < 4 := Nat.mod_lt _ (by decide)

theorem sesAnswer_does {v : Nat} {n key : List Byte} (hv : oneAct v) (h : s.Challenged n (v % 16) (bitsOf v 5 4) key) :
    (Does (.sesAnswer v true) s fun t => t.rd F.SES_RESULT_result = 6 ∧ t.sec.nonce = none ∧ t.mem = s.mem)
      ∧ (hmac key (n ++ le 1 (v % 16) ++ le 1 (bitsOf v 5 4)) = s.macBytes →
        Does (.sesAnswer v false) s fun t => t.rd F.SES_RESULT_result = 2 ∧ t.rd F.RING_SQ_STATUS_role (v % 16) = bitsOf v 5 4 ∧ t.sec.nonce = none
          ∧ (s.rd F.RING_SQ_STATUS_state (v % 16) = 1 → t.rd F.RING_SQ_STATUS_state (v % 16) = 2) ∧ t.mem = s.mem)
      ∧ (hmac key (n ++ le 1 (v % 16) ++ le 1 (bitsOf v 5 4)) ≠ s.macBytes → 0 < bitsOf v 5 4 → bitsOf v 5 4 - 1 < s.sec.fails.length →
        Does (.sesAnswer v false) s fun t => t.rd F.SES_RESULT_result = 3 ∧ t.rd F.RING_SQ_STATUS_role (v % 16) = 0 ∧ t.rd F.SES_FLAGS_open_fail = 1
          ∧ t.sec.fails.getD (bitsOf v 5 4 - 1) 0 = min 255 (s.sec.fails.getD (bitsOf v 5 4 - 1) 0 + 1) ∧ t.mem = s.mem) := by
  have hw := s.sesWritten_within v
  have hm : (s.sesWritten v).macBytes = s.macBytes := State.macBytes_congr fun w => hw.rd _ _ _ (by decide)
  refine ⟨?_, fun hr => ?_, fun hr _ hk => ?_⟩
  · obtain ⟨h1, h2, h3⟩ := State.answer_late (h.sesWritten v)
    exact Does.of_exec (exec_sesAnswer hv true) ⟨h1, h2, h3.trans hw.mem⟩
  · obtain ⟨h1, h2, h3, h4, h5⟩ := State.answer_right (bitsOf_role_lt v) (h.sesWritten v) (hr.trans hm.symm)
    exact Does.of_exec (exec_sesAnswer hv false) ⟨h1, h2, h3, fun he => h4 ((hw.rd _ _ _ (by decide)).trans he), h5.trans hw.mem⟩
  · obtain ⟨h1, h2, h3, h4, h5⟩ := State.answer_wrong (h.sesWritten v) (by rw [s.sesWritten_sec v]; exact hk) (by rw [hm]; exact hr)
    exact Does.of_exec (exec_sesAnswer hv false) ⟨h1, h2, h3, h4.trans (by rw [s.sesWritten_sec v]), h5.trans hw.mem⟩

/-! ### The close, and the random source -/

theorem State.closeSession_sec (s : State) (r : Nat) : (s.closeSession r).sec = s.sec := by
  unfold State.closeSession
  extract_lets t
  split
  · exact (State.wr_sec ..).trans (State.wr_sec ..)
  · exact State.wr_sec ..

theorem exec_sesClose {v : Nat} (h : oneAct v) : exec (.sesClose v) s = .next ((s.sesWritten v).closeSession (v % 16)) :=
  congrArg Host.Outcome.next (State.sesWrite_of_one h _)

theorem sesClose_does {v : Nat} (hv : oneAct v) (h2 : s.rd F.RING_SQ_STATUS_state (v % 16) = 2) :
    Does (.sesClose v) s fun t => t.rd F.RING_SQ_STATUS_role (v % 16) = 0 ∧ t.rd F.RING_SQ_STATUS_state (v % 16) = 1 ∧ t.mem = s.mem := by
  have hw := s.sesWritten_within v
  refine Does.of_exec (exec_sesClose hv) ?_
  rw [State.closeSession, if_pos ((hw.rd _ _ _ (by decide)).trans h2)]
  refine ⟨?_, State.rd_wr_self _ F.RING_SQ_STATUS_state 1 _ 0, by rw [State.wr_mem, State.wr_mem, hw.mem]⟩
  rw [State.rd_wr_other _ _ _ _ _ _ _ _ (by decide)]
  exact State.rd_wr_self _ F.RING_SQ_STATUS_role 0 _ 0

theorem exec_rngHealthFail (h : s.on F.SES_STATUS_rng_fail = false) :
    exec .rngHealthFail s = .next ((s.wr F.SES_STATUS_rng_fail 1).raise 0 Ev.SES_RNG_FAIL []) :=
  congrArg Host.Outcome.next (if_neg (Bool.eq_false_iff.mp h))

theorem rngHealthFail_does (h : s.on F.SES_STATUS_rng_fail = false) :
    Does .rngHealthFail s fun t => t.rd F.SES_STATUS_rng_fail = 1 ∧ s.Raised t 0 Ev.SES_RNG_FAIL [] ∧ t.mem = s.mem := by
  refine Does.of_exec (exec_rngHealthFail h) ⟨?_, ?_, by rw [State.raise_mem, State.wr_mem]⟩
  · rw [State.rd_raise_other _ _ _ _ _ _ _ (by decide)]
    exact State.rd_wr_self s F.SES_STATUS_rng_fail 1 0 0
  · refine State.Raised.of_same (t := s.wr F.SES_STATUS_rng_fail 1) (by rw [State.wr_host]) (fun f hf => ?_) rfl
    simp only [List.mem_cons, List.not_mem_nil, or_false] at hf
    rcases hf with rfl | rfl
    · exact State.rd_wr_other _ _ _ _ _ _ _ _ (by decide)
    · exact State.rd_wr_other _ _ _ _ _ _ _ _ (by decide)

/-! ### The key commands -/

theorem State.keyCmd_eq_begun {opcode : Nat} (f : Cmd → State → State) (hq : s.anyQuiet = false) (h : s.Waits id opcode c) :
    s.keyCmd id opcode f = f c (s.begun id) := (if_neg (Bool.eq_false_iff.mp hq)).trans (State.startCmd_eq_begun f h)

theorem State.keyStatus_beside (s : State) : s.keyStatus.sec = s.sec ∧ s.keyStatus.host = s.host ∧ s.keyStatus.mem = s.mem
    ∧ s.keyStatus.prodKeys = s.prodKeys := by
  unfold State.keyStatus
  simp only [State.wr_sec, State.wr_host, State.wr_mem, State.wr_prodKeys, and_self]

/-- A role key that has been set is the one in force; the commands and HBM are as they were. -/
theorem State.putRoleKey_reads (s : State) (role ring : Nat) (key : List Byte) : (s.putRoleKey role ring key).roleKey role = some key
    ∧ (s.putRoleKey role ring key).host = s.host ∧ (s.putRoleKey role ring key).mem = s.mem := by
  unfold State.putRoleKey
  extract_lets had t
  obtain ⟨hs, hh, hm, -⟩ := ((s.updSec fun x => { x with roleKeys := (role, key) :: x.roleKeys.filter fun k => k.1 ≠ role }).ledgerAdd 5 role
    (storedKey key)).keyStatus_beside
  have h1 : t.roleKey role = some key := by
    unfold State.roleKey
    rw [show t.sec = _ from hs]
    simp [State.ledgerAdd, State.updSec]
  have hclose : ∀ u : State, ∀ r, (u.closeSession r).host = u.host ∧ (u.closeSession r).mem = u.mem := by
    intro u r
    unfold State.closeSession
    extract_lets w
    split
    · exact ⟨(State.wr_host ..).trans (State.wr_host ..), (State.wr_mem ..).trans (State.wr_mem ..)⟩
    · exact ⟨State.wr_host .., State.wr_mem ..⟩
  split
  · refine ⟨?_, (State.each_of_kept State.host (fun u r => (hclose u r).1) t _).trans hh,
      (State.each_of_kept State.mem (fun u r => (hclose u r).2) t _).trans hm⟩
    unfold State.roleKey at h1 ⊢
    rw [State.each_of_kept State.sec (fun u r => u.closeSession_sec r) t _]
    exact h1
  · exact ⟨h1, hh, hm⟩

theorem keySet_badFields (hm : c.mute = false) (hq : s.anyQuiet = false) (h : s.Waits id 0x40 c) (hf : keyFields c [1, 2, 3] = false) :
    Does (.keySet id) s fun t => t.Answered c St.SES_BAD_REQ 0 0 ∧ s.Only t [] := by
  refine Does.of_exec (congrArg Host.Outcome.next (State.keyCmd_eq_begun _ hq h)) ?_
  rw [if_pos (by rw [hf]; rfl)]
  obtain ⟨ha, ho⟩ := State.complete_begun h hm St.SES_BAD_REQ 0 0 0
  exact ⟨ha, ho []⟩

theorem keySet_badKey (hm : c.mute = false) (hq : s.anyQuiet = false) (h : s.Waits id 0x40 c) (hf : keyFields c [1, 2, 3] = true)
    (hk : keyUnwrap ((s.sessionKey 2).getD zeroKey) (bytesAt c.desc 24 40) = none) :
    Does (.keySet id) s fun t => t.Answered c St.KEY_BAD 0 0 ∧ s.Only t [] := by
  refine Does.of_exec (congrArg Host.Outcome.next (State.keyCmd_eq_begun _ hq h)) ?_
  rw [if_neg (by rw [hf]; exact Bool.false_ne_true)]
  rw [show keyUnwrap (((s.begun id).sessionKey 2).getD zeroKey) (bytesAt c.desc 24 40) = none from hk]
  obtain ⟨ha, ho⟩ := State.complete_begun h hm St.KEY_BAD 0 0 0
  exact ⟨ha, ho []⟩

theorem keySet_role {key : List Byte} (hm : c.mute = false) (hq : s.anyQuiet = false) (h : s.Waits id 0x40 c) (hf : keyFields c [1, 2, 3] = true)
    (hk : keyUnwrap ((s.sessionKey 2).getD zeroKey) (bytesAt c.desc 24 40) = some key) (h1 : c.b 16 = 1) :
    Does (.keySet id) s fun t => t.Answered c St.OK 0 0 ∧ t.roleKey (c.b 17) = some key ∧ t.mem = s.mem := by
  refine Does.of_exec (congrArg Host.Outcome.next (State.keyCmd_eq_begun _ hq h)) ?_
  rw [if_neg (by rw [hf]; exact Bool.false_ne_true), show keyUnwrap (((s.begun id).sessionKey 2).getD zeroKey) (bytesAt c.desc 24 40) = some key from hk]
  dsimp only
  rw [if_pos h1]
  obtain ⟨hr, hh, hmem⟩ := (s.begun id).putRoleKey_reads (c.b 17) c.ring key
  obtain ⟨ha, ho⟩ := State.complete_of_begun ((State.cmd_congr hh id).trans (State.cmd_begun_self h)) hm St.OK 0 0 0
  refine ⟨ha, ?_, (ho []).1.trans hmem⟩
  unfold State.roleKey at hr ⊢
  rw [State.Apart.sec.complete]
  exact hr

theorem keySet_prod {key : List Byte} (hm : c.mute = false) (hq : s.anyQuiet = false) (h : s.Waits id 0x40 c) (hf : keyFields c [1, 2, 3] = true)
    (hk : keyUnwrap ((s.sessionKey 2).getD zeroKey) (bytesAt c.desc 24 40) = some key) (h2 : c.b 16 = 2)
    (hn : (s.prodKeys.filter fun k => k.1 ≠ c.w 20).length < 16) :
    Does (.keySet id) s fun t => t.Answered c St.OK 0 0 ∧ (c.w 20, key) ∈ t.prodKeys ∧ t.mem = s.mem := by
  refine Does.of_exec (congrArg Host.Outcome.next (State.keyCmd_eq_begun _ hq h)) ?_
  rw [if_neg (by rw [hf]; exact Bool.false_ne_true), show keyUnwrap (((s.begun id).sessionKey 2).getD zeroKey) (bytesAt c.desc 24 40) = some key from hk]
  dsimp only
  rw [if_neg (by omega), if_neg (show ¬ 16 ≤ ((s.begun id).prodKeys.filter fun k => k.1 ≠ c.w 20).length from Nat.not_le.mpr hn)]
  generalize hu : ({ s.begun id with prodKeys := ((s.begun id).prodKeys.filter fun k => k.1 ≠ c.w 20) ++ [(c.w 20, key)] } : State).ledgerAdd 6
    (c.w 20) (storedKey key) = u
  obtain ⟨-, hh, hmem, hp⟩ := u.keyStatus_beside
  have huh : u.host = (s.begun id).host := by rw [← hu]; rfl
  have hum : u.mem = s.mem := by rw [← hu]; rfl
  have hup : (c.w 20, key) ∈ u.prodKeys := by
    rw [← hu]
    exact List.mem_append_right _ (List.mem_singleton_self _)
  obtain ⟨ha, ho⟩ := State.complete_of_begun ((State.cmd_congr (hh.trans huh) id).trans (State.cmd_begun_self h)) hm St.OK 0 0 0
  refine ⟨ha, ?_, (ho []).1.trans (hmem.trans hum)⟩
  rw [State.Apart.prodKeys.complete, hp]
  exact hup

theorem exec_keyErase (hq : s.anyQuiet = false) (h : s.Waits id 0x41 c) : exec (.keyErase id) s = .next ((s.begun id).eraseKey c) :=
  congrArg Host.Outcome.next (State.keyCmd_eq_begun _ hq h)

theorem State.eraseKey_good (s : State) (hf : keyFields c [1, 3] = true) (hz : zeroBytes c.desc 24 64 = true) : s.eraseKey c =
    if c.b 16 = 1 then
      if (s.roleKey (c.b 17)).isNone then s.complete c.id St.OK 0
      else
        (((s.updSec fun x => { x with roleKeys := x.roleKeys.filter fun k => k.1 ≠ c.b 17 }).ledgerAdd 5 (c.b 17) []).keyStatus).complete c.id St.OK 1
    else if s.prodKeys.any fun k => k.1 == c.w 20 then
      ((({ s with prodKeys := s.prodKeys.filter fun k => k.1 ≠ c.w 20 } : State).ledgerAdd 6 (c.w 20) []).keyStatus).complete c.id St.OK 1
    else s.complete c.id St.OK 0 :=
  if_neg (by rw [hf, hz]; exact Bool.false_ne_true)

theorem keyErase_role (hm : c.mute = false) (hq : s.anyQuiet = false) (h : s.Waits id 0x41 c) (hf : keyFields c [1, 3] = true)
    (hz : zeroBytes c.desc 24 64 = true) (h1 : c.b 16 = 1) :
    Does (.keyErase id) s fun t => t.Answered c St.OK (b2n (s.roleKey (c.b 17)).isSome) 0 ∧ t.roleKey (c.b 17) = none ∧ t.mem = s.mem := by
  refine Does.of_exec (exec_keyErase hq h) ?_
  rw [State.eraseKey_good _ hf hz, if_pos h1, State.id_of_cmd h.1]
  change State.Answered (if (s.roleKey (c.b 17)).isNone then _ else _) c St.OK _ 0 ∧ State.roleKey (if (s.roleKey (c.b 17)).isNone then _ else _) _ = none
    ∧ State.mem (if (s.roleKey (c.b 17)).isNone then _ else _) = s.mem
  cases hr : s.roleKey (c.b 17) with
  | none =>
    obtain ⟨ha, ho⟩ := State.complete_begun h hm St.OK 0 0 0
    refine ⟨ha, ?_, (ho []).1⟩
    unfold State.roleKey at hr ⊢
    rw [if_pos Option.isNone_none, State.Apart.sec.complete]
    exact hr
  | some key =>
    rw [if_neg (show ¬ (some key).isNone = true from Bool.false_ne_true)]
    generalize hu : ((s.begun id).updSec fun x => { x with roleKeys := x.roleKeys.filter fun k => k.1 ≠ c.b 17 }).ledgerAdd 5 (c.b 17) [] = u
    obtain ⟨hs, hh, hmem, -⟩ := u.keyStatus_beside
    have huh : u.host = (s.begun id).host := by rw [← hu]; rfl
    have hum : u.mem = s.mem := by rw [← hu]; rfl
    have hus : u.sec.roleKeys = s.sec.roleKeys.filter fun k => k.1 ≠ c.b 17 := by rw [← hu]; rfl
    obtain ⟨ha, ho⟩ := State.complete_of_begun ((State.cmd_congr (hh.trans huh) id).trans (State.cmd_begun_self h)) hm St.OK 1 0 0
    refine ⟨ha, ?_, (ho []).1.trans (hmem.trans hum)⟩
    unfold State.roleKey
    rw [State.Apart.sec.complete, hs, hus]
    simp [List.find?_filter]

theorem keyErase_prod (hm : c.mute = false) (hq : s.anyQuiet = false) (h : s.Waits id 0x41 c) (hf : keyFields c [1, 3] = true)
    (hz : zeroBytes c.desc 24 64 = true) (h2 : c.b 16 = 2) :
    Does (.keyErase id) s fun t => t.Answered c St.OK (b2n (s.prodKeys.any fun k => k.1 == c.w 20)) 0
      ∧ t.prodKeys = s.prodKeys.filter (fun k => k.1 ≠ c.w 20) ∧ t.mem = s.mem := by
  refine Does.of_exec (exec_keyErase hq h) ?_
  rw [State.eraseKey_good _ hf hz, if_neg (by omega), State.id_of_cmd h.1]
  by_cases ha : (s.prodKeys.any fun k => k.1 == c.w 20) = true
  · rw [if_pos (show ((s.begun id).prodKeys.any fun k => k.1 == c.w 20) = true from ha), ha]
    generalize hu : ({ s.begun id with prodKeys := (s.begun id).prodKeys.filter fun k => k.1 ≠ c.w 20 } : State).ledgerAdd 6 (c.w 20) [] = u
    obtain ⟨-, hh, hmem, hp⟩ := u.keyStatus_beside
    have huh : u.host = (s.begun id).host := by rw [← hu]; rfl
    have hum : u.mem = s.mem := by rw [← hu]; rfl
    have hup : u.prodKeys = s.prodKeys.filter fun k => k.1 ≠ c.w 20 := by rw [← hu]; rfl
    obtain ⟨ha, ho⟩ := State.complete_of_begun ((State.cmd_congr (hh.trans huh) id).trans (State.cmd_begun_self h)) hm St.OK 1 0 0
    exact ⟨ha, (State.Apart.prodKeys.complete ..).trans (hp.trans hup), (ho []).1.trans (hmem.trans hum)⟩
  · have hn : (s.prodKeys.any fun k => k.1 == c.w 20) = false := Bool.eq_false_iff.mpr ha
    rw [if_neg (show ¬ ((s.begun id).prodKeys.any fun k => k.1 == c.w 20) = true from ha), hn]
    obtain ⟨hans, ho⟩ := State.complete_begun h hm St.OK 0 0 0
    refine ⟨hans, (State.Apart.prodKeys.complete ..).trans ?_, (ho []).1⟩
    refine (List.filter_eq_self.mpr fun k hk => ?_).symm
    have hkn := List.any_eq_false.mp hn k hk
    simpa using hkn

theorem keyList_does (hm : c.mute = false) (h : s.Waits id 0x42 c) (hd : c.d 24 % 64 = 0) (hz : zeroBytes c.desc 16 24 = true)
    (hz' : zeroBytes c.desc 32 64 = true) :
    Does (.keyList id) s fun t => t.Answered c St.OK s.prodKeys.length 0 ∧ s.Only t []
      ∧ t.out = .hostWrite (c.d 24) (padTo 128 (s.prodKeys.flatMap fun k => le 4 k.1 ++ le 4 1)) :: s.out := by
  refine Does.of_exec (congrArg Host.Outcome.next (State.startCmd_eq_begun _ h)) ?_
  rw [if_neg (by rw [hd, hz, hz']; decide)]
  obtain ⟨ha, ho⟩ := State.complete_of_begun (u := (s.begun id).emit (.hostWrite (c.d 24) (padTo 128 (s.prodKeys.flatMap fun k => le 4 k.1 ++ le 4 1))))
    (State.cmd_begun_self h) hm St.OK s.prodKeys.length 0 0
  exact ⟨ha, ho [], State.Apart.out.complete ..⟩

end

end Sys2Proof.Machine
end

section
/-! PROOFS. Firmware: staging, activation, confirmation and boot of an image, the board area, and the device ledger (spec/19). -/
namespace Sys2Proof.Machine

set_option Elab.async false

section
variable {s : State} {id : Nat} {c : Cmd}

/-! ### What a command finds before it -/

/-- Another firmware command, decoded earlier, is outstanding (R621). -/
def State.fwBusy (s : State) (id : Nat) : Bool :=
  s.outstanding.any fun o => decide (o.id < id) && o.stage != .ended && (o.opcode == 0x44 || o.opcode == 0x45 || o.opcode == 0x46 || o.opcode == 0x49)

/-- The beginning of a command changes nothing of those before it. -/
theorem State.fwBusy_begun (s : State) (id : Nat) : (s.begun id).fwBusy id = s.fwBusy id := by
  unfold State.fwBusy State.outstanding
  change ((s.host.cmds.map fun c => if c.id = id then c.begun else c).filter fun c => !c.gone).any _ = _
  rw [List.any_filter, List.any_map, List.any_filter]
  refine congrArg (fun f => s.host.cmds.any f) (funext fun o => ?_)
  simp only [Function.comp_apply]
  by_cases ho : o.id = id
  · rw [if_pos ho]
    simp [Cmd.begun, ho]
  · rw [if_neg ho]

theorem State.fwCmd_eq_begun {opcode : Nat} {ok : Cmd → Bool} (f : Cmd → State → State) (h : s.Waits id opcode c) (hok : ok c = true)
    (hq : s.anyQuiet = false) (hb : s.fwBusy id = false) : s.fwCmd id opcode ok f = f c (s.begun id) := by
  refine (State.startCmd_eq_begun _ h).trans ?_
  rw [if_neg (by rw [hok]; exact Bool.false_ne_true), if_neg (show ¬ (s.begun id).anyQuiet = true from Bool.eq_false_iff.mp hq)]
  exact if_neg (Bool.eq_false_iff.mp ((s.fwBusy_begun id).trans hb))

/-- A command that ends on a state like the one it began on touches nothing. -/
theorem State.Only.complete_of_begun {u : State} (hu : s.Only u []) (hc : u.cmd id = some c.begun) (hm : c.mute = false) (status a b half : Nat) :
    s.Only (u.complete id status a b half) [] := by
  have ho := (State.complete_of_begun hc hm status a b half).2 []
  exact ⟨ho.1.trans hu.1, fun f i j hf => (ho.2 f i j hf).trans (hu.2 f i j hf)⟩

/-! ### Staging -/

theorem State.imageStatus_congr {s t : State} (hr : t.sec.revoked = s.sec.revoked) (hv : t.sec.fuseSv = s.sec.fuseSv) (img : List Byte) :
    t.imageStatus img = s.imageStatus img := by
  unfold State.imageStatus
  rw [hr, hv]

/-- The state in which the image in host memory has been read. -/
def State.imageRead (s : State) (id : Nat) (c : Cmd) : State := (s.begun id).emit (.hostRead (c.d 24) (c.w 32))

/-- The inactive slot has been written, and nothing is staged yet (R626). -/
def State.slotWritten (s : State) (id : Nat) (c : Cmd) (nor : List Byte) : State :=
  ((s.imageRead id c).updSec fun x => { x with slots := updAt x.slots (1 - s.rd F.FW_STATUS_slot) fun _ => nor }).wr F.FW_STATUS_staged 0

/-- The fields of FW_STAGE are in range (R620). -/
def stageOk (c : Cmd) : Bool :=
  zeroBytes c.desc 16 24 && c.d 24 % 64 == 0 && c.w 32 % 64 == 0 && decide (8256 ≤ c.w 32) && decide (c.w 32 ≤ 25165824) && zeroBytes c.desc 36 64

theorem exec_fwStage {data nor : List Byte} (h : s.Waits id 0x44 c) (hok : stageOk c = true) (hq : s.anyQuiet = false) (hb : s.fwBusy id = false)
    (ht : s.on F.FW_STATUS_trial = false) (hl : 8192 + imageBody (data.take (c.w 32)) = (data.take (c.w 32)).length) :
    exec (.fwStage id data nor) s = .next (
      if s.imageStatus (data.take (c.w 32)) ≠ St.OK then (s.imageRead id c).complete id (s.imageStatus (data.take (c.w 32)))
      else if s.imageStatus nor = St.OK then (((s.slotWritten id c nor).wr F.FW_STATUS_staged 1).fwRecord 1 nor).complete id St.OK (fieldAt nor 20 4)
      else (s.slotWritten id c nor).complete id (s.imageStatus nor)) := by
  refine congrArg Host.Outcome.next ((State.fwCmd_eq_begun _ h hok hq hb).trans ?_)
  have hn : (s.slotWritten id c nor).imageStatus nor = s.imageStatus nor := by
    refine State.imageStatus_congr ?_ ?_ nor
    · simp only [State.slotWritten, State.wr_sec]
      rfl
    · simp only [State.slotWritten, State.wr_sec]
      rfl
  rw [← hn]
  exact (if_neg (Bool.eq_false_iff.mp ht)).trans (if_neg (not_not_intro hl))

theorem State.slotWritten_reads (h : s.Waits id 0x44 c) (nor : List Byte) : (s.slotWritten id c nor).cmd id = some c.begun
    ∧ (s.slotWritten id c nor).mem = s.mem ∧ (s.slotWritten id c nor).out = .hostRead (c.d 24) (c.w 32) :: s.out
    ∧ (s.slotWritten id c nor).rd F.FW_STATUS_staged = 0 := by
  refine ⟨?_, State.wr_mem .., State.wr_out .., State.rd_wr_self _ F.FW_STATUS_staged 0 0 0⟩
  refine (State.cmd_congr (s := s.begun id) ?_ id).trans (State.cmd_begun_self h)
  rw [State.slotWritten, State.wr_host]
  rfl

theorem fwStage_does {data nor : List Byte} (hm : c.mute = false) (h : s.Waits id 0x44 c) (hok : stageOk c = true) (hq : s.anyQuiet = false)
    (hb : s.fwBusy id = false) (ht : s.on F.FW_STATUS_trial = false)
    (hl : 8192 + imageBody (data.take (c.w 32)) = (data.take (c.w 32)).length) :
    Does (.fwStage id data nor) s fun t => t.mem = s.mem ∧ .hostRead (c.d 24) (c.w 32) ∈ t.out ∧
      (if s.imageStatus (data.take (c.w 32)) ≠ St.OK then t.Answered c (s.imageStatus (data.take (c.w 32))) 0 0 ∧ s.Only t []
       else if s.imageStatus nor = St.OK then t.Answered c St.OK (fieldAt nor 20 4) 0 ∧ t.rd F.FW_STATUS_staged = 1
       else t.Answered c (s.imageStatus nor) 0 0 ∧ t.rd F.FW_STATUS_staged = 0) := by
  refine Does.of_exec (exec_fwStage h hok hq hb ht hl) ?_
  obtain ⟨hc, hmem, hout, hst⟩ := State.slotWritten_reads h nor
  by_cases hi : s.imageStatus (data.take (c.w 32)) ≠ St.OK
  · rw [if_pos hi, if_pos hi]
    have hcr : (s.imageRead id c).cmd id = some c.begun := State.cmd_begun_self h
    have ho : s.Only (s.imageRead id c) [] := (s.only_begun id []).same
    obtain ⟨ha, hk⟩ := State.complete_of_begun hcr hm (s.imageStatus (data.take (c.w 32))) 0 0 0
    refine ⟨(hk []).1, ?_, ha, ho.complete_of_begun hcr hm ..⟩
    rw [State.Apart.out.complete]
    exact List.mem_cons_self
  · rw [if_neg hi, if_neg hi]
    by_cases hn : s.imageStatus nor = St.OK
    · rw [if_pos hn, if_pos hn]
      generalize hu : ((s.slotWritten id c nor).wr F.FW_STATUS_staged 1).fwRecord 1 nor = u
      have huc : u.cmd id = some c.begun := by
        rw [← hu]
        exact (State.cmd_congr (s := s.slotWritten id c nor) (State.wr_host ..) id).trans hc
      have hum : u.mem = s.mem := by rw [← hu]; exact (State.wr_mem ..).trans hmem
      have huo : u.out = .hostRead (c.d 24) (c.w 32) :: s.out := by rw [← hu]; exact (State.wr_out ..).trans hout
      have hur : u.rd F.FW_STATUS_staged = 1 := by rw [← hu]; exact State.rd_wr_self _ F.FW_STATUS_staged 1 0 0
      obtain ⟨ha, hk⟩ := State.complete_of_begun huc hm St.OK (fieldAt nor 20 4) 0 0
      refine ⟨(hk []).1.trans hum, ?_, ha, ((hk []).2 _ 0 0 fun _ hx => nomatch hx).trans hur⟩
      rw [State.Apart.out.complete, huo]
      exact List.mem_cons_self
    · rw [if_neg hn, if_neg hn]
      obtain ⟨ha, hk⟩ := State.complete_of_begun hc hm (s.imageStatus nor) 0 0 0
      refine ⟨(hk []).1.trans hmem, ?_, ha, ((hk []).2 _ 0 0 fun _ hx => nomatch hx).trans hst⟩
      rw [State.Apart.out.complete, hout]
      exact List.mem_cons_self

/-! ### Activation -/

theorem exec_fwActivate_staged (h : s.Waits id 0x45 c) (hd : c.h 16 ≤ 60000) (hz : zeroBytes c.desc 18 64 = true) (hq : s.anyQuiet = false)
    (hb : s.fwBusy id = false) (hs : s.on F.FW_STATUS_staged = true) : exec (.fwActivate id) s = .next (s.begun id) :=
  congrArg Host.Outcome.next ((State.fwCmd_eq_begun _ h (by rw [hz, decide_eq_true hd]; rfl) hq hb).trans (if_pos hs))

theorem fwActivate_unstaged (hm : c.mute = false) (h : s.Waits id 0x45 c) (hd : c.h 16 ≤ 60000) (hz : zeroBytes c.desc 18 64 = true)
    (hq : s.anyQuiet = false) (hb : s.fwBusy id = false) (hs : s.on F.FW_STATUS_staged = false) :
    Does (.fwActivate id) s fun t => t.Answered c St.FW_NOT_STAGED 0 0 ∧ s.Only t [] := by
  obtain ⟨ha, ho⟩ := State.complete_begun h hm St.FW_NOT_STAGED 0 0 0
  exact Does.of_exec (congrArg Host.Outcome.next ((State.fwCmd_eq_begun _ h (by rw [hz, decide_eq_true hd]; rfl) hq hb).trans
    (if_neg (Bool.eq_false_iff.mp hs)))) ⟨ha, ho []⟩

theorem State.activation_runs (h : s.activation = some c) (hc : s.cmd c.id = some c) : s.Runs c.id 0x45 c := by
  have hp := List.find?_some h
  simp only [Bool.and_eq_true, beq_iff_eq] at hp
  exact ⟨hc, hp.1, hp.2⟩

theorem exec_fwDrainDone (h : s.activation = some c) (hd : s.drained c.id = true) : exec .fwDrainDone s = .next (s.activated c) := by
  change execFwDrainDone s = _
  unfold execFwDrainDone
  rw [h]
  exact congrArg Host.Outcome.next (if_pos hd)

theorem fwDrainTimeout_does (hm : c.mute = false) (h : s.activation = some c) (hc : s.cmd c.id = some c) (hp : c.past = false) :
    Does .fwDrainTimeout s fun t => t.Answered c St.DRAIN_TIMEOUT 0 0 ∧ s.Only t [] := by
  have hex : exec .fwDrainTimeout s = .next (s.complete c.id St.DRAIN_TIMEOUT) := by
    change execFwDrainTimeout s = _
    unfold execFwDrainTimeout
    rw [h]
    exact congrArg Host.Outcome.next (if_neg (Bool.eq_false_iff.mp hp))
  obtain ⟨ha, ho⟩ := State.complete_running (State.activation_runs h hc) hm St.DRAIN_TIMEOUT 0 0 0
  exact Does.of_exec hex ⟨ha, ho []⟩

/-- FW_STATUS and FW_BUILD show an image; the rest is as it was. -/
theorem State.fwShow_reads (s : State) (k : Nat) (trial : Bool) (boots : Nat) (hk : k < 2) : (s.fwShow k trial boots).rd F.FW_STATUS_state = 1
    ∧ (s.fwShow k trial boots).rd F.FW_STATUS_slot = k ∧ (s.fwShow k trial boots).rd F.FW_STATUS_trial = b2n trial
    ∧ State.Within [F.FW_STATUS_state, F.FW_STATUS_slot, F.FW_STATUS_trial, F.FW_STATUS_boots, F.FW_STATUS_sv, F.FW_BUILD_LO_value,
      F.FW_BUILD_HI_value] s (s.fwShow k trial boots)
    ∧ (s.fwShow k trial boots).sec = s.sec ∧ (s.fwShow k trial boots).host = s.host := by
  unfold State.fwShow
  extract_lets img
  have htrial : b2n trial % 2 ^ F.FW_STATUS_trial.width = b2n trial := by cases trial <;> rfl
  refine ⟨?_, ?_, ?_, ?_, by simp only [State.wr_sec], by simp only [State.wr_host]⟩
  · simp (disch := decide) only [State.rd_wr_other]
    exact State.rd_wr_self s F.FW_STATUS_state 1 0 0
  · simp (disch := decide) only [State.rd_wr_other]
    exact (State.rd_wr_self _ F.FW_STATUS_slot k 0 0).trans (Nat.mod_eq_of_lt hk)
  · simp (disch := decide) only [State.rd_wr_other]
    exact (State.rd_wr_self _ F.FW_STATUS_trial _ 0 0).trans htrial
  · exact (((((((State.Within.refl _ s).wr (f := F.FW_STATUS_state) (by decide) ..).wr (f := F.FW_STATUS_slot) (by decide) ..).wr
      (f := F.FW_STATUS_trial) (by decide) ..).wr (f := F.FW_STATUS_boots) (by decide) ..).wr (f := F.FW_STATUS_sv) (by decide) ..).wr
      (f := F.FW_BUILD_LO_value) (by decide) ..).wr (f := F.FW_BUILD_HI_value) (by decide) ..

theorem State.portPower_cmds (s : State) (p : Nat) : (s.portPower p).host.cmds = s.host.cmds := by
  unfold State.portPower
  split
  · rw [State.raise_cmds, State.pwrEn, State.emit_host, State.wr_host, State.setPort, State.wr_host]
  · rfl

/-- The trial image has been put in force, before its event and its answer (R630, R631). -/
def State.trialBegun (s : State) (c : Cmd) : State :=
  let k := 1 - s.rd F.FW_STATUS_slot
  let h := s.holder
  let t := (s.passPoint c.id).bootWrite { slot := k, trial := true, boots := 0 }
  let t1 := ((t.reload (1 - h)).reload h).updKeeper (1 - h) fun x => { x with notice := true }
  let t2 := (((t1.wr F.FW_STATUS_staged 0).fwShow k true 0).bump F.FW_CNT_activations).fwRecord 2 (s.slot k)
  if s.rd F.FW_STATUS_state = 2 then t2.each [0, 1] State.portPower else t2

theorem State.activated_eq (s : State) (c : Cmd) : s.activated c = ((s.trialBegun c).raise s.holder Ev.FW_ACTIVATED
    (le 8 (fieldAt (s.slot (1 - s.rd F.FW_STATUS_slot)) 20 8))).complete c.id St.OK (fieldAt (s.slot (1 - s.rd F.FW_STATUS_slot)) 20 4) := rfl

/-- A command past its point of no return. -/
def Cmd.atPast (c : Cmd) : Cmd := { c with past := true }

theorem State.trialBegun_reads (hc : s.cmd c.id = some c) : (s.trialBegun c).rd F.FW_STATUS_slot = 1 - s.rd F.FW_STATUS_slot
    ∧ (s.trialBegun c).rd F.FW_STATUS_trial = 1 ∧ (s.trialBegun c).rd F.FW_STATUS_staged = 0
    ∧ (s.trialBegun c).sec.boots = List.replicate 2 (BootRec.bytes { slot := 1 - s.rd F.FW_STATUS_slot, trial := true, boots := 0 } s.bootSeq)
    ∧ (s.trialBegun c).mem = s.mem ∧ (s.trialBegun c).cmd c.id = some c.atPast := by
  unfold State.trialBegun
  extract_lets k h t t1 t2
  have hk : k < 2 := Nat.lt_of_le_of_lt (Nat.sub_le 1 _) (by decide)
  have h1 : t1.sec.boots = List.replicate 2 (BootRec.bytes { slot := k, trial := true, boots := 0 } s.bootSeq) := rfl
  have h1m : t1.mem = s.mem := rfl
  have h1c : t1.cmd c.id = some c.atPast := by
    refine (State.cmd_updCmd s c.id c.id Cmd.atPast fun _ => rfl).trans ?_
    rw [if_pos rfl, hc]
    rfl
  clear_value t1
  obtain ⟨-, hslot, htrial, hw, hsec, hhost⟩ := (t1.wr F.FW_STATUS_staged 0).fwShow_reads k true 0 hk
  generalize hu : ((t1.wr F.FW_STATUS_staged 0).fwShow k true 0) = u at hslot htrial hw hsec hhost
  have ht2 : t2 = (u.bump F.FW_CNT_activations).fwRecord 2 (s.slot k) := by rw [← hu]
  clear_value t2
  have hb : State.Within [F.FW_CNT_activations] u t2 := by
    rw [ht2]
    exact ((State.Within.refl _ u).bump (f := F.FW_CNT_activations) (by decide) ..).same
  have h2 : t2.rd F.FW_STATUS_slot = k := (hb.rd _ 0 0 (by decide)).trans hslot
  have h3 : t2.rd F.FW_STATUS_trial = 1 := (hb.rd _ 0 0 (by decide)).trans htrial
  have h4 : t2.rd F.FW_STATUS_staged = 0 :=
    (hb.rd _ 0 0 (by decide)).trans ((hw.rd _ 0 0 (by decide)).trans (State.rd_wr_self t1 F.FW_STATUS_staged 0 0 0))
  have h5 : t2.sec.boots = List.replicate 2 (BootRec.bytes { slot := k, trial := true, boots := 0 } s.bootSeq) := by
    have hs : t2.sec = u.sec := by
      rw [ht2]
      exact State.wr_sec ..
    rw [hs, hsec, State.wr_sec, h1]
  have h6 : t2.mem = s.mem := hb.mem.trans (hw.mem.trans ((State.wr_mem ..).trans h1m))
  have h7 : t2.cmd c.id = some c.atPast := by
    have hh : t2.host = u.host := by
      rw [ht2]
      exact State.wr_host ..
    rw [State.cmd_congr (hh.trans (hhost.trans (State.wr_host ..))) c.id, h1c]
  split
  · have fr := State.CentralKept.frame [] t2
    have hp : State.CentralKept [] t2 (t2.each [0, 1] State.portPower) := fr.each (.refl [] t2) _ _ fun _ _ hx => fr.portPower hx _
    have hr : ∀ f : Fld, f.Central → (t2.each [0, 1] State.portPower).rd f = t2.rd f := fun f hf => hp.rd f 0 0 hf fun _ hx => nomatch hx
    have hs : (t2.each [0, 1] State.portPower).sec = t2.sec := by
      have hp1 : ∀ (u : State) (p : Nat), (u.portPower p).sec = u.sec := by
        intro u p
        unfold State.portPower
        split
        · rw [State.Apart.sec.raise, State.pwrEn, State.emit_sec, State.wr_sec, State.setPort, State.wr_sec]
        · rfl
      exact State.each_of_kept State.sec hp1 t2 _
    refine ⟨(hr _ (by decide)).trans h2, (hr _ (by decide)).trans h3, (hr _ (by decide)).trans h4, (congrArg SecSt.boots hs).trans h5,
      hp.mem.trans h6, ?_⟩
    rw [State.cmd, State.each_of_kept (fun u : State => u.host.cmds) (fun u p => u.portPower_cmds p) t2 [0, 1]]
    exact h7
  · exact ⟨h2, h3, h4, h5, h6, h7⟩

theorem fwDrainDone_does (hm : c.mute = false) (h : s.activation = some c) (hc : s.cmd c.id = some c) (hd : s.drained c.id = true) :
    Does .fwDrainDone s fun t => t.Answered c St.OK (fieldAt (s.slot (1 - s.rd F.FW_STATUS_slot)) 20 4) 0
      ∧ t.rd F.FW_STATUS_slot = 1 - s.rd F.FW_STATUS_slot ∧ t.rd F.FW_STATUS_trial = 1 ∧ t.rd F.FW_STATUS_staged = 0
      ∧ t.sec.boots = List.replicate 2 (BootRec.bytes { slot := 1 - s.rd F.FW_STATUS_slot, trial := true, boots := 0 } s.bootSeq)
      ∧ t.mem = s.mem := by
  refine Does.of_exec (exec_fwDrainDone h hd) ?_
  rw [State.activated_eq]
  obtain ⟨h1, h2, h3, h4, h5, h6⟩ := State.trialBegun_reads hc
  generalize s.trialBegun c = u at h1 h2 h3 h4 h5 h6
  have hw : State.Within eventFlds u (u.raise s.holder Ev.FW_ACTIVATED (le 8 (fieldAt (s.slot (1 - s.rd F.FW_STATUS_slot)) 20 8))) :=
    (State.Within.refl _ u).raise (fun _ hx => hx) ..
  have hs := State.Apart.sec.raise u s.holder Ev.FW_ACTIVATED (le 8 (fieldAt (s.slot (1 - s.rd F.FW_STATUS_slot)) 20 8))
  have hcu : (u.raise s.holder Ev.FW_ACTIVATED (le 8 (fieldAt (s.slot (1 - s.rd F.FW_STATUS_slot)) 20 8))).cmd c.id = some c.atPast :=
    (State.raise_cmd ..).trans h6
  generalize u.raise s.holder Ev.FW_ACTIVATED (le 8 (fieldAt (s.slot (1 - s.rd F.FW_STATUS_slot)) 20 8)) = w at hw hs hcu
  have hrun : w.Runs c.id 0x45 c.atPast := ⟨hcu, (State.activation_runs h hc).2⟩
  obtain ⟨ha, ho⟩ := State.complete_running hrun hm St.OK (fieldAt (s.slot (1 - s.rd F.FW_STATUS_slot)) 20 4) 0 0
  have hr : ∀ f : Fld, f.Off eventFlds → (w.complete c.id St.OK (fieldAt (s.slot (1 - s.rd F.FW_STATUS_slot)) 20 4)).rd f = u.rd f :=
    fun f hf => ((ho []).2 f 0 0 fun _ hx => nomatch hx).trans (hw.rd f 0 0 hf)
  refine ⟨ha, (hr _ (by decide)).trans h1, (hr _ (by decide)).trans h2, (hr _ (by decide)).trans h3, ?_, (ho []).1.trans (hw.mem.trans h5)⟩
  rw [State.Apart.sec.complete, hs, h4]

/-! ### Confirmation and the board area -/

theorem State.trialConfirmed_reads (s : State) : s.trialConfirmed.rd F.FW_STATUS_trial = 0
    ∧ s.trialConfirmed.sec.fuseSv = max s.sec.fuseSv (fieldAt (s.slot (s.rd F.FW_STATUS_slot)) 12 1)
    ∧ s.trialConfirmed.sec.boots = List.replicate 2 (BootRec.bytes { slot := s.rd F.FW_STATUS_slot, trial := false, boots := 0 } s.bootSeq)
    ∧ s.trialConfirmed.mem = s.mem ∧ s.trialConfirmed.host = s.host := by
  unfold State.trialConfirmed
  extract_lets k img burn t t1
  have hsec : t1.sec = (t.bootWrite { slot := k, trial := false, boots := 0 }).sec := by simp only [t1, State.wr_sec]
  refine ⟨?_, congrArg SecSt.fuseSv hsec, congrArg SecSt.boots hsec, ?_, ?_⟩
  · refine (State.rd_wr_other _ F.FW_STATUS_boots F.FW_STATUS_trial _ 0 0 0 0 (by decide)).trans ?_
    exact State.rd_wr_self _ F.FW_STATUS_trial 0 0 0
  · change t1.mem = _
    simp only [t1, State.wr_mem]
    rfl
  · change t1.host = _
    simp only [t1, State.wr_host]
    rfl

theorem exec_fwConfirm (h : s.Waits id 0x46 c) (hz : zeroBytes c.desc 16 64 = true) (hq : s.anyQuiet = false) (hb : s.fwBusy id = false)
    (ht : s.rd F.FW_STATUS_trial = 1) : exec (.fwConfirm id) s = .next ((s.begun id).trialConfirmed.complete id St.OK 1) :=
  congrArg Host.Outcome.next ((State.fwCmd_eq_begun _ h hz hq hb).trans (if_neg (show ¬ s.rd F.FW_STATUS_trial = 0 by omega)))

theorem fwConfirm_does (hm : c.mute = false) (h : s.Waits id 0x46 c) (hz : zeroBytes c.desc 16 64 = true) (hq : s.anyQuiet = false)
    (hb : s.fwBusy id = false) (ht : s.rd F.FW_STATUS_trial = 1) :
    Does (.fwConfirm id) s fun t => t.Answered c St.OK 1 0 ∧ t.rd F.FW_STATUS_trial = 0
      ∧ t.sec.fuseSv = max s.sec.fuseSv (fieldAt (s.slot (s.rd F.FW_STATUS_slot)) 12 1)
      ∧ t.sec.boots = List.replicate 2 (BootRec.bytes { slot := s.rd F.FW_STATUS_slot, trial := false, boots := 0 } s.bootSeq) ∧ t.mem = s.mem := by
  obtain ⟨h1, h2, h3, h4, h5⟩ := (s.begun id).trialConfirmed_reads
  obtain ⟨ha, ho⟩ := State.complete_of_begun ((State.cmd_congr h5 id).trans (State.cmd_begun_self h)) hm St.OK 1 0 0
  refine Does.of_exec (exec_fwConfirm h hz hq hb ht) ⟨ha, ((ho []).2 _ 0 0 fun _ hx => nomatch hx).trans h1, ?_, ?_, (ho []).1.trans h4⟩
  · rw [State.Apart.sec.complete]
    exact h2
  · rw [State.Apart.sec.complete]
    exact h3

theorem boardCfgWrite_does {data : List Byte} (hm : c.mute = false) (h : s.Waits id 0x49 c) (hz : zeroBytes c.desc 16 24 = true)
    (hl : 64 ≤ c.w 32) (hl' : c.w 32 ≤ 4190208) (hz' : zeroBytes c.desc 36 64 = true) (hq : s.anyQuiet = false) (hb : s.fwBusy id = false) :
    Does (.boardCfgWrite id data) s fun t => t.Answered c St.OK 0 0 ∧ t.sec.board = padTo (c.w 32) (data.take (c.w 32))
      ∧ t.out = .hostRead (c.d 24) (c.w 32) :: s.out ∧ s.Only t [] := by
  refine Does.of_exec (congrArg Host.Outcome.next (State.fwCmd_eq_begun _ h
    (by rw [hz, hz', decide_eq_true hl, decide_eq_true hl']; rfl) hq hb)) ?_
  generalize hu : ((s.begun id).emit (.hostRead (c.d 24) (c.w 32))).updSec (fun x => { x with board := padTo (c.w 32) (data.take (c.w 32)) }) = u
  have huc : u.cmd id = some c.begun := by rw [← hu]; exact State.cmd_begun_self h
  have huo : s.Only u [] := by rw [← hu]; exact (s.only_begun id []).same
  refine ⟨(State.complete_of_begun huc hm St.OK 0 0 0).1, ?_, ?_, huo.complete_of_begun huc hm ..⟩
  · rw [State.Apart.sec.complete, ← hu]
    rfl
  · rw [State.Apart.out.complete, ← hu]
    rfl

/-! ### The device ledger -/

theorem ledgerRead_does (hm : c.mute = false) (h : s.Waits id 0x48 c) (hk : c.b 16 ≤ 11) (hz : zeroBytes c.desc 17 20 = true)
    (hl : c.w 40 % 256 = 0) (hz' : zeroBytes c.desc 44 64 = true) :
    Does (.ledgerRead id) s fun t => t.Answered c St.OK (min (min (c.w 28) (c.w 40 / 256))
      (s.sec.ledger.filter fun r => (c.b 16 == 0 || r.kind == c.b 16) && decide (c.d 20 ≤ r.seq)).length) 0 ∧ s.Only t [] := by
  refine Does.of_exec (congrArg Host.Outcome.next (State.startCmd_eq_begun _ h)) ?_
  rw [if_neg (by rw [hz, hz', hl]; simp; omega)]
  extract_lets l out t
  have hlen : out.length = min (min (c.w 28) (c.w 40 / 256))
      (s.sec.ledger.filter fun r => (c.b 16 == 0 || r.kind == c.b 16) && decide (c.d 20 ≤ r.seq)).length := List.length_take ..
  have ht : t.cmd id = some c.begun ∧ s.Only t [] := by
    simp only [t]
    split
    · exact ⟨State.cmd_begun_self h, s.only_begun id []⟩
    · exact ⟨State.cmd_begun_self h, (s.only_begun id []).same⟩
  rw [← hlen]
  exact ⟨(State.complete_of_begun ht.1 hm St.OK out.length 0 0).1, ht.2.complete_of_begun ht.1 hm ..⟩

theorem State.norStatus_beside (s : State) : s.norStatus.sec = s.sec ∧ s.norStatus.mem = s.mem ∧ s.norStatus.ledgerWait = s.ledgerWait := by
  unfold State.norStatus
  simp only [State.wr_sec, State.wr_mem, State.wr_ledgerWait, and_self]

theorem State.ledgerPutNor_reads (s : State) (r : LedgerRec) (fail : List Nat) :
    (s.ledgerPutNor r fail).sec.ledger = s.sec.ledger ++ [{ r with seq := s.sec.seq }] ∧ (s.ledgerPutNor r fail).sec.seq = s.sec.seq + 1
    ∧ (s.ledgerPutNor r fail).mem = s.mem ∧ (s.ledgerPutNor r fail).ledgerWait = s.ledgerWait := by
  unfold State.ledgerPutNor
  extract_lets n put
  obtain ⟨hs, hm, hl⟩ := (s.updSec fun x => { x with
    ledger := x.ledger ++ [{ r with seq := n }], seq := n + 1, areas := [put 0 (x.areas.getD 0 []), put 1 (x.areas.getD 1 [])] }).norStatus_beside
  exact ⟨congrArg SecSt.ledger hs, congrArg SecSt.seq hs, hm, hl⟩

theorem exec_deviceLedgerWrite {r : LedgerRec} (fail0 fail1 : Nat) (hr : s.ledgerWait.find? (fun r => !s.norHeld r) = some r) (ho : s.norOpen = true) :
    exec (.deviceLedgerWrite fail0 fail1) s = .next (({ s with ledgerWait := s.ledgerWait.erase r } : State).ledgerPutNor r [fail0, fail1]) := by
  change execDeviceLedgerWrite fail0 fail1 s = _
  unfold execDeviceLedgerWrite
  rw [hr]
  exact congrArg Host.Outcome.next (if_pos ho)

theorem deviceLedgerWrite_does {r : LedgerRec} (fail0 fail1 : Nat) (hr : s.ledgerWait.find? (fun r => !s.norHeld r) = some r)
    (ho : s.norOpen = true) :
    Does (.deviceLedgerWrite fail0 fail1) s fun t => t.ledgerWait = s.ledgerWait.erase r ∧ t.sec.ledger = s.sec.ledger ++ [{ r with seq := s.sec.seq }]
      ∧ t.sec.seq = s.sec.seq + 1 ∧ t.mem = s.mem := by
  obtain ⟨h1, h2, h3, h4⟩ := ({ s with ledgerWait := s.ledgerWait.erase r } : State).ledgerPutNor_reads r [fail0, fail1]
  exact Does.of_exec (exec_deviceLedgerWrite fail0 fail1 hr ho) ⟨h4, h1, h2, h3⟩

/-- Records written one after another leave those before them. -/
theorem State.foldl_ledgerPutNor (s : State) (l : List LedgerRec) :
    (∃ m, (l.foldl (fun (s : State) r => s.ledgerPutNor r []) s).sec.ledger = s.sec.ledger ++ m)
    ∧ (l.foldl (fun (s : State) r => s.ledgerPutNor r []) s).mem = s.mem := by
  induction l generalizing s with
  | nil => exact ⟨⟨[], (List.append_nil _).symm⟩, rfl⟩
  | cons r l ih =>
    obtain ⟨h1, -, h3, -⟩ := s.ledgerPutNor_reads r []
    obtain ⟨⟨m, hm⟩, hmem⟩ := ih (s.ledgerPutNor r [])
    refine ⟨⟨[{ r with seq := s.sec.seq }] ++ m, ?_⟩, hmem.trans h3⟩
    rw [List.foldl_cons, hm, h1, List.append_assoc]

theorem exec_deviceLedgerReclaim (ho : s.norOpen = true) (ha : (s.sec.areas.all fun l => decide (l.length ≤ 60)) = false) :
    exec .deviceLedgerReclaim s = .next s.ledgerReclaim := by
  refine congrArg Host.Outcome.next (if_neg ?_)
  rw [ho, ha]
  exact Bool.false_ne_true

theorem deviceLedgerReclaim_does {seqs : List Nat} (ho : s.norOpen = true) (ha : (s.sec.areas.all fun l => decide (l.length ≤ 60)) = false)
    (hs : seqs = ((s.sec.areas.getD 0 []).headD []).filterMap (fun x => x)) :
    Does .deviceLedgerReclaim s fun t => (∀ r ∈ t.sec.ledger, r.seq ∉ seqs) ∧ (∀ r ∈ s.sec.ledger, r.seq ∉ seqs → r ∈ t.sec.ledger) ∧ t.mem = s.mem := by
  refine Does.of_exec (exec_deviceLedgerReclaim ho ha) ?_
  unfold State.ledgerReclaim
  extract_lets seqs' old governs ages fit t t1 a
  have hseqs : seqs' = seqs := hs.symm
  obtain ⟨⟨m, hm⟩, hmem⟩ := s.foldl_ledgerPutNor (fit ++ old.filter governs)
  obtain ⟨hsec, hnm, -⟩ := (t1.updSys fun x => { x with fit := a.1, samples := a.2 }).norStatus_beside
  have hl : ((t1.updSys fun x => { x with fit := a.1, samples := a.2 }).norStatus).sec.ledger = (s.sec.ledger ++ m).filter fun r => !seqs.contains r.seq := by
    rw [hsec, ← hm, ← hseqs]
    rfl
  refine ⟨fun r hr => ?_, fun r hr hn => ?_, hnm.trans hmem⟩
  · rw [hl] at hr
    simpa using (List.mem_filter.mp hr).2
  · rw [hl]
    exact List.mem_filter.mpr ⟨List.mem_append_left _ hr, by simpa using hn⟩

end

end Sys2Proof.Machine
end

section
/-! PROOFS. The boot of the firmware, and the statement on sessions and firmware (spec/19). -/
namespace Sys2Proof.Machine

set_option Elab.async false

section
variable {s : State}

/-- What a boot judges images by, and HBM. -/
def State.images (s : State) : List (List Byte) × Nat × Nat × Memory := (s.sec.slots, s.sec.revoked, s.sec.fuseSv, s.mem)

theorem State.Apart.images : State.Apart State.images where
  wr s f v i j := by rw [State.images, State.wr_sec, State.wr_mem, State.images]
  tick _ := rfl
  host _ _ _ := rfl

theorem State.images_setMode (s : State) (m : Nat) (b : Bool) (v : Nat) : (s.setMode m b v).images = s.images := by
  unfold State.setMode
  split
  · rw [State.Apart.images.wr, State.Apart.images.wr]
  · split
    · rw [State.Apart.images.wr, State.Apart.images.wr]
    · rw [State.Apart.images.wr, State.Apart.images.wr]

theorem State.images_setOffered (s : State) (m : Nat) (b : Bool) : (s.setOffered m b).images = s.images := by
  unfold State.setOffered
  split
  · exact State.Apart.images.wr ..
  · split
    · exact State.Apart.images.wr ..
    · exact State.Apart.images.wr ..

/-- A record replayed touches no image, no fuse and no byte of HBM. -/
theorem State.images_replayRec (s : State) (r : LedgerRec) : (s.replayRec r).images = s.images := by
  have hw := fun (u : State) (f : Fld) (v i j : Nat) => State.Apart.images.wr u f v i j
  unfold State.replayRec
  extract_lets v
  split
  · exact hw ..
  · split
    · simp only [hw]
    · simp only [hw]
  · rfl
  · rfl
  · exact (State.images_setOffered ..).trans (State.images_setMode ..)
  · rfl
  · exact (hw ..).trans (hw ..)
  · rfl
  · rfl

theorem State.images_ledgerReplay (s : State) (single bad : List Nat) : (s.ledgerReplay single bad).images = s.images := by
  unfold State.ledgerReplay
  extract_lets l t a t1 t2
  have ht : t.images = s.images := State.each_of_kept State.images (fun u r => u.images_replayRec r) _ l
  have ht2 : t2.images = s.images := by
    refine Eq.trans ?_ ht
    simp only [t2]
    cases a.2.getLast? with
    | none => rfl
    | some p => exact State.Apart.images.wr t1 F.AGE_TREND_a_last _ 0 0
  clear_value t2
  have hshow : ∀ u : State, u.keyStatus.norStatus.images = u.images := fun u => by
    simp only [State.norStatus, State.keyStatus, State.Apart.images.wr]
  rw [hshow]
  refine (State.each_of_kept State.images (fun u r => ?_) t2 _).trans ht2
  rw [State.Apart.images.raise, State.flagCount, State.bump, State.Apart.images.wr, State.Apart.images.wr]

theorem State.imageStatus_of_images {t : State} (h : t.images = s.images) (k : Nat) : t.imageStatus (t.slot k) = s.imageStatus (s.slot k) := by
  have hs : t.sec.slots = s.sec.slots := congrArg Prod.fst h
  have hr : t.sec.revoked = s.sec.revoked := congrArg (fun x => x.2.1) h
  have hv : t.sec.fuseSv = s.sec.fuseSv := congrArg (fun x => x.2.2.1) h
  rw [State.slot, hs]
  exact State.imageStatus_congr hr hv _

/-- A boot without a boot record tries slot 0, and falls back to slot 1 (R628). -/
theorem State.fwBoot_of_none (hb : s.bootRecord = none) (single bad : List Nat) : s.fwBoot single bad =
    if s.imageStatus (s.slot 0) = St.OK then (s.ledgerReplay single bad).fwShow 0 false 0
    else if s.imageStatus (s.slot 1) = St.OK then ((s.ledgerReplay single bad).fallback 1).fwShow 1 false 0
    else (s.ledgerReplay single bad).wr F.FW_STATUS_state 2 := by
  have hi := State.imageStatus_of_images (s.images_ledgerReplay single bad)
  rw [← hi 0, ← hi 1]
  unfold State.fwBoot
  rw [hb]
  extract_lets r t spent k t1
  have hk : k = 0 := rfl
  have ht1 : t1 = t := (if_neg Bool.false_ne_true).trans (if_neg Bool.false_ne_true)
  have htrial : (r.trial && !spent) = false := rfl
  have hboots : (if spent = true then 0 else if r.trial = true then r.boots + 1 else 0) = 0 := rfl
  rw [ht1, hk, htrial, hboots]

theorem State.fallback_reads (s : State) (k : Nat) : (s.fallback k).rd F.FW_FLAGS_fallback = 1 ∧ (s.fallback k).mem = s.mem := by
  unfold State.fallback
  refine ⟨?_, ?_⟩
  · refine (State.rd_raise_other _ _ _ _ _ _ _ (by decide)).trans ?_
    exact State.rd_flagCount_flag _ F.FW_FLAGS_fallback F.FW_CNT_fallback 0 (by decide)
  · refine (State.raise_mem ..).trans ?_
    rw [State.flagCount, State.bump, State.wr_mem, State.wr_mem]
    rfl

theorem exec_firmwareBoot {d : Nat} (single bad : List Nat) (h0 : s.rd F.FW_STATUS_state = 0) (hd : b2n Config.leadSel = d) (hr : s.released d = true) :
    exec (.firmwareBoot single bad) s = .next (s.fwBoot single bad) := by
  refine congrArg Host.Outcome.next (if_neg ?_)
  rw [hd, hr, h0]
  simp

theorem firmwareBoot_does (single bad : List Nat) (h0 : s.rd F.FW_STATUS_state = 0) (hr0 : s.released 0 = true) (hr1 : s.released 1 = true)
    (hb : s.bootRecord = none) :
    Does (.firmwareBoot single bad) s fun t => t.mem = s.mem ∧
      (if s.imageStatus (s.slot 0) = St.OK then t.rd F.FW_STATUS_state = 1 ∧ t.rd F.FW_STATUS_slot = 0
       else if s.imageStatus (s.slot 1) = St.OK then t.rd F.FW_STATUS_state = 1 ∧ t.rd F.FW_STATUS_slot = 1 ∧ t.rd F.FW_FLAGS_fallback = 1
       else t.rd F.FW_STATUS_state = 2) := by
  have hlead : s.released (b2n Config.leadSel) = true := by
    cases Config.leadSel
    · exact hr0
    · exact hr1
  have hm : (s.ledgerReplay single bad).mem = s.mem := congrArg (fun x => x.2.2.2) (s.images_ledgerReplay single bad)
  refine Does.of_exec (exec_firmwareBoot single bad h0 rfl hlead) ?_
  rw [State.fwBoot_of_none hb]
  by_cases hi0 : s.imageStatus (s.slot 0) = St.OK
  · simp only [if_pos hi0]
    obtain ⟨h1, h2, -, hw, -, -⟩ := (s.ledgerReplay single bad).fwShow_reads 0 false 0 (by decide)
    exact ⟨hw.mem.trans hm, h1, h2⟩
  · simp only [if_neg hi0]
    by_cases hi1 : s.imageStatus (s.slot 1) = St.OK
    · simp only [if_pos hi1]
      obtain ⟨hf, hfm⟩ := (s.ledgerReplay single bad).fallback_reads 1
      obtain ⟨h1, h2, -, hw, -, -⟩ := ((s.ledgerReplay single bad).fallback 1).fwShow_reads 1 false 0 (by decide)
      exact ⟨hw.mem.trans (hfm.trans hm), h1, h2, (hw.rd _ 0 0 (by decide)).trans hf⟩
    · simp only [if_neg hi1]
      exact ⟨(State.wr_mem ..).trans hm, State.rd_wr_self _ F.FW_STATUS_state 2 0 0⟩

end

/-- Settles O60: the session's request, the key commands, the firmware commands, the boot, and the device ledger. -/
theorem sessionsAndFirmware : Obligations.SessionsAndFirmware := by
  refine ⟨fun id c s hm => ⟨fun v elapsed hv he hc h0 hk => ?_, fun v n r k key hv hn hr hk he hc hkey => ?_, fun v => sesClose_does,
    rngHealthFail_does, fun hq => ⟨keySet_badFields hm hq, keySet_badKey hm hq, fun key h hf hk => ⟨keySet_role hm hq h hf hk, keySet_prod hm hq h hf hk⟩,
      keyErase_role hm hq, keyErase_prod hm hq⟩, keyList_does hm,
    fun hq hb => ⟨fun data nor h hz hd hw hl hl' hz' ht hi => fwStage_does hm h ?_ hq hb ht hi,
      fun h hd hz hs => exec_fwActivate_staged h hd hz hq hb hs, fun h hd hz hs => fwActivate_unstaged hm h hd hz hq hb hs,
      fun h hz ht => fwConfirm_does hm h hz hq hb ht, fun data h hz hl hl' hz' => boardCfgWrite_does hm h hz hl hl' hz' hq hb⟩,
    fwDrainDone_does hm, fwDrainTimeout_does hm, ledgerRead_does hm, firmwareBoot_does, fun r => deviceLedgerWrite_does,
    fun seqs => deviceLedgerReclaim_does⟩,
    fun id v c s => ⟨fun elapsed hv => exec_sesChallenge hv elapsed, fun late hv => exec_sesAnswer hv late, exec_sesClose, exec_rngHealthFail,
      fun h hq => exec_keyErase hq h, fun h hz hq hb => exec_fwConfirm h hz hq hb, exec_fwDrainDone,
      fun single bad h0 => exec_firmwareBoot single bad h0 rfl, fun r => exec_deviceLedgerWrite, exec_deviceLedgerReclaim⟩⟩
  · have ho : s.Openable (v % 16) (bitsOf v 5 4) := ⟨he, hc, h0, hk⟩
    exact ⟨sesChallenge_granted hv ho, sesChallenge_locked hv ho⟩
  · subst hr hk
    exact sesAnswer_does hv ⟨hn, he, hc, hkey⟩
  · simp [stageOk, hz, hd, hw, hl, hl', hz']

end Sys2Proof.Machine
end

section
/-! PROOFS. The audio ports: what they set, and that the master's count, its recorded words and the receivers' frames are not theirs (spec/15). -/
namespace Sys2Proof.Machine

set_option Elab.async false

/-! ### What the ports leave -/

/-- The fields that the ports and the receivers set. -/
def portFlds : List Fld := [F.AUD_TPORT_STATUS_state, F.AUD_APORT_STATUS_state, F.AUD_TPORT_RATIO_ratio, F.AUD_GRP_RATIO_ratio,
  F.AUD_TPORT_MASK_mask, F.AUD_APORT_MASK_mask, F.AUD_TPORT_FLAGS_arm_pending, F.AUD_APORT_FLAGS_arm_pending,
  F.AUD_TPORT_FLAGS_unlock, F.AUD_TPORT_CNT_unlock, F.AUD_APORT_FLAGS_unlock, F.AUD_APORT_CNT_unlock,
  F.AUD_TPORT_FLAGS_overrun, F.AUD_TPORT_CNT_overrun, F.AUD_APORT_FLAGS_overrun, F.AUD_APORT_CNT_overrun,
  F.AUD_TPORT_FLAGS_underrun, F.AUD_TPORT_CNT_underrun, F.AUD_APORT_FLAGS_underrun, F.AUD_APORT_CNT_underrun,
  F.AUD_APORT_FLAGS_cs_crc, F.AUD_APORT_CNT_cs_crc, F.AUD_AES_CS_A_value, F.AUD_AES_CS_B_value, F.AUD_APORT_FLAGS_cs_change,
  F.AUD_APORT_FLAGS_nonaudio] ++ eventFlds

/-- The master's count, the recorded words, and the frame each receiver holds. -/
def AudSt.beside (a : AudSt) : Nat × List (List Nat) × List (Option (List Int × List Bool × Bool × Bool)) :=
  (a.count, a.hist, a.units.map AudUnit.frame)

/-- HBM and every field but those of the ports are as they were, and so are the master's count, the recorded words and the receivers' frames. -/
structure State.PortsKept (s t : State) : Prop where
  within : State.Within portFlds s t
  aud : t.aud.beside = s.aud.beside

section
variable {s t : State}

theorem map_updAt_of_kept {α β : Type} {f : α → α} {g : α → β} (hf : ∀ a, g (f a) = g a) (l : List α) (i : Nat) : (updAt l i f).map g = l.map g := by
  unfold updAt
  induction l generalizing i with
  | nil => cases i <;> rfl
  | cons a l ih =>
    cases i with
    | zero => simp [hf]
    | succ i => simpa using ih i

namespace State.PortsKept

theorem refl (s : State) : State.PortsKept s s := ⟨.refl _ s, rfl⟩

theorem trans {u : State} (h : State.PortsKept s t) (k : State.PortsKept t u) : State.PortsKept s u := ⟨h.within.trans k.within, k.aud.trans h.aud⟩

theorem wr (h : State.PortsKept s t) {f : Fld} (hf : f ∈ portFlds) (v i j : Nat) : State.PortsKept s (t.wr f v i j) :=
  ⟨h.within.wr hf v i j, (congrArg AudSt.beside (State.wr_aud ..)).trans h.aud⟩

theorem flagCount (h : State.PortsKept s t) {a b : Fld} (ha : a ∈ portFlds) (hb : b ∈ portFlds) (i : Nat) : State.PortsKept s (t.flagCount a b i) :=
  (h.wr ha 1 i 0).wr hb _ i 0

theorem raise (h : State.PortsKept s t) (half code : Nat) (p : List Byte) : State.PortsKept s (t.raise half code p) :=
  ⟨h.within.raise (by decide) .., (congrArg AudSt.beside (State.Apart.raise ⟨State.wr_aud, fun _ => rfl, fun _ _ _ => rfl⟩ t half code p)).trans h.aud⟩

theorem emit (h : State.PortsKept s t) (e : Emit) : State.PortsKept s (t.emit e) := ⟨h.within.same, h.aud⟩

theorem updAud (h : State.PortsKept s t) (f : AudSt → AudSt) (hf : (f t.aud).beside = t.aud.beside := by rfl) : State.PortsKept s (t.updAud f) :=
  ⟨h.within.same, hf.trans h.aud⟩

theorem updAport (h : State.PortsKept s t) (p : Nat) (f : AudPort → AudPort) : State.PortsKept s (t.updAport p f) := h.updAud _

theorem updAunit (h : State.PortsKept s t) (u : Nat) (f : AudUnit → AudUnit) (hf : ∀ y, (f y).frame = y.frame := by exact fun _ => rfl) :
    State.PortsKept s (t.updAunit u f) :=
  h.updAud _ (congrArg (fun l => (t.aud.count, t.aud.hist, l)) (map_updAt_of_kept hf t.aud.units u))

theorem ite {u : State} {c : Prop} [Decidable c] (h : State.PortsKept s t) (k : State.PortsKept s u) : State.PortsKept s (if c then t else u) := by
  split
  · exact h
  · exact k

theorem each {α : Type} {f : State → α → State} (h : State.PortsKept s t) (l : List α) (hf : ∀ u x, State.PortsKept s u → State.PortsKept s (f u x)) :
    State.PortsKept s (t.each l f) := by
  induction l generalizing t with
  | nil => exact h
  | cons x l ih => exact ih (hf _ _ h)

/-! ### The ports' functions -/

theorem portShow (h : State.PortsKept s t) (p : Nat) : State.PortsKept s (t.portShow p) := by
  unfold State.portShow
  extract_lets st
  exact .ite (h.wr (by decide) ..) (h.each _ fun _ _ hx => hx.wr (by decide) ..)

theorem portTo (h : State.PortsKept s t) (p st : Nat) : State.PortsKept s (t.portTo p st) := (h.updAport p _).portShow p

theorem portFault (h : State.PortsKept s t) (p : Nat) {ft ct fa ca : Fld} (hft : ft ∈ portFlds) (hct : ct ∈ portFlds) (hfa : fa ∈ portFlds)
    (hca : ca ∈ portFlds) (ev : Nat) : State.PortsKept s (t.portFault p ft ct fa ca ev) :=
  (ite (h.flagCount hft hct p) (h.each _ fun _ _ hx => hx.flagCount hfa hca _)).raise ..

theorem markPort (h : State.PortsKept s t) (p : Nat) : State.PortsKept s (t.markPort p) := .ite (h.each _ fun _ _ hx => hx.updAunit ..) h

theorem setArm (h : State.PortsKept s t) (u : Nat) (v : Bool) : State.PortsKept s (t.setArm u v) := .ite (h.wr (by decide) ..) (h.wr (by decide) ..)

theorem setMask (h : State.PortsKept s t) (u m : Nat) : State.PortsKept s (t.setMask u m) := .ite (h.wr (by decide) ..) (h.wr (by decide) ..)

theorem fillCheck (h : State.PortsKept s t) (p : Nat) : State.PortsKept s (t.fillCheck p) := by
  unfold State.fillCheck
  extract_lets x f t'
  have ht : State.PortsKept s t' := (h.updAport p _).portTo p 3
  exact .ite ((ht.each _ fun _ _ hx => ((hx.setMask ..).setArm ..).updAunit ..).markPort p) h

theorem portUnlock (h : State.PortsKept s t) (p : Nat) : State.PortsKept s (t.portUnlock p) := by
  unfold State.portUnlock
  extract_lets st t' t1
  have ht : State.PortsKept s t' := h.portFault p (by decide) (by decide) (by decide) (by decide) _
  exact .ite ((ht.updAport p _).portTo ..) h

theorem applyArms (h : State.PortsKept s t) (p : Nat) : State.PortsKept s (t.applyArms p) := by
  unfold State.applyArms
  extract_lets x
  exact .ite (h.each _ fun _ _ hx => ((hx.setMask ..).setArm ..).updAunit ..) h

theorem portFrame (h : State.PortsKept s t) (p : Nat) (f : AudFrame) (ok : Bool) (ratio : Nat) : State.PortsKept s (t.portFrame p f ok ratio) := by
  unfold State.portFrame
  extract_lets r s0 s1 x s2
  have h0 : State.PortsKept s s0 := .ite (h.wr (by decide) ..) (h.wr (by decide) ..)
  have h1 : State.PortsKept s s1 := (h0.applyArms p).updAport p _
  have h2 : State.PortsKept s s2 := .ite (h1.updAport p _) h1
  have hfault : State.PortsKept s (s2.portFault p F.AUD_TPORT_FLAGS_overrun F.AUD_TPORT_CNT_overrun F.AUD_APORT_FLAGS_overrun
    F.AUD_APORT_CNT_overrun Ev.AUD_OVERRUN) := h2.portFault p (by decide) (by decide) (by decide) (by decide) _
  exact .ite h (.ite (.ite ((h1.updAport p _).portTo ..) h1) (.ite (h2.portUnlock p) (.ite ((hfault.updAport p _).portTo ..) (h2.fillCheck p))))

theorem csBlock (h : State.PortsKept s t) (a : Nat) {reg : Fld} (hr : reg ∈ portFlds) (bits : List Bool) : State.PortsKept s (t.csBlock a reg bits) := by
  unfold State.csBlock
  extract_lets words held t'
  have ht : State.PortsKept s t' := State.PortsKept.each (f := fun (s : State) (w : Nat × Nat) => s.wr reg w.2 a w.1) h _ fun _ _ hx => hx.wr hr ..
  exact .ite h (.ite (h.flagCount (by decide) (by decide) a) (.ite ht ((ht.wr (by decide) ..).raise ..)))

theorem csCapture (h : State.PortsKept s t) (a : Nat) (f : AesFrame) : State.PortsKept s (t.csCapture a f) := by
  unfold State.csCapture
  extract_lets u x t'
  have ht : State.PortsKept s t' := .ite ((h.csBlock a (by decide) _).csBlock a (by decide) _) h
  refine ht.updAunit u _ fun y => ?_
  split
  · rfl
  · split <;> rfl

theorem naDetect (h : State.PortsKept s t) (a : Nat) (f : AesFrame) : State.PortsKept s (t.naDetect a f).1 := by
  unfold State.naDetect
  extract_lets u x sync hit left still t' near
  split
  · exact h
  · have ht : State.PortsKept s t' := h.updAunit u _
    split
    · exact (ht.wr (by decide) ..).raise ..
    · exact ht

theorem portSample (h : State.PortsKept s t) (p : Nat) : State.PortsKept s (t.portSample p) := by
  unfold State.portSample
  extract_lets x owed n starve s1 k width s2 s3 y t1 t2
  have h1 : State.PortsKept s s1 := by
    have hf := h.portFault p (ft := F.AUD_TPORT_FLAGS_underrun) (ct := F.AUD_TPORT_CNT_underrun) (fa := F.AUD_APORT_FLAGS_underrun)
      (ca := F.AUD_APORT_CNT_underrun) (by decide) (by decide) (by decide) (by decide) Ev.AUD_UNDERRUN
    exact .ite ((hf.updAport p _).portTo p 5) h
  have h2 : State.PortsKept s s2 := h1.updAport p _
  have hmute : ∀ (u : Nat) (w : List AudFrame) (y : AudUnit), (muteStep w u (advanceMask k y)).frame = y.frame := by
    intro u w y
    have hadv : (advanceMask k y).frame = y.frame := by
      unfold advanceMask
      split
      · rfl
      · split
        · rfl
        · split <;> rfl
    unfold muteStep
    split
    · exact hadv
    · split
      · exact hadv
      · split
        · exact hadv
        · exact hadv
  clear_value s2
  have h3 : State.PortsKept s s3 := by
    refine State.PortsKept.markPort (State.PortsKept.each h2 _ fun v u hv => ?_) p
    exact hv.updAunit u _ fun y => hmute ..
  clear_value s3
  have ht1 : State.PortsKept s t1 := h3.updAport p _
  have ht2 : State.PortsKept s t2 := h3.updAport p _
  clear_value t1 t2
  split
  · exact h.fillCheck p
  · split
    · split
      · split
        · exact (ht1.updAport p _).portTo p 1
        · exact ((ht1.updAport p _).portTo p 2).fillCheck p
      · exact ht1
    · split
      · exact ht2.portTo p 4
      · exact ht2

theorem monitor (h : State.PortsKept s t) (now before : List Nat) : State.PortsKept s (t.monitor now before) := by
  refine State.PortsKept.each h _ fun u k hu => State.PortsKept.each hu _ fun u i hu => ?_
  extract_lets cur want watch go next t' line t1 v word
  have ht' : State.PortsKept s t' := .ite (hu.updAud _) hu
  have ht1 : State.PortsKept s t1 := ht'.updAud _
  exact .ite (ht1.emit _) ht1

end State.PortsKept

end
end Sys2Proof.Machine
end

section
/-! PROOFS. Audio: ports enabled and disabled, input frames, masks, recording, the master sample and the output slots (spec/15). -/
namespace Sys2Proof.Machine

set_option Elab.async false

section
variable {s : State} {u p v : Nat}

theorem State.Apart.aud : State.Apart State.aud := ⟨State.wr_aud, fun _ => rfl, fun _ _ _ => rfl⟩

theorem State.aport_updAport_self (h : p < s.aud.ports.length) (f : AudPort → AudPort) : (s.updAport p f).aport p = f (s.aport p) :=
  updAt_getD_self _ _ _ _ h

theorem State.aport_congr {t : State} (h : t.aud = s.aud) (p : Nat) : t.aport p = s.aport p := by
  unfold State.aport
  rw [h]

/-! ### Ports on and off -/

theorem State.portOn_tdm (hp : p < 4) : s.portOn p = s.on F.AUD_TPORT_CTRL_enable p := by
  rw [State.portOn, if_pos hp, State.unitOn, if_pos hp]

/-- A TDM port that takes a state shows it. -/
theorem State.portTo_tdm (hp : p < 4) (hl : p < s.aud.ports.length) (st : Nat) :
    s.portTo p st = (s.updAport p fun x => { x with state := st }).wr F.AUD_TPORT_STATUS_state st p := by
  unfold State.portTo State.portShow
  rw [if_pos hp, State.aport_updAport_self hl]

theorem State.portTo_reads (hp : p < 4) (hl : p < s.aud.ports.length) {st : Nat} (hst : st < 2 ^ F.AUD_TPORT_STATUS_state.width) : (s.portTo p st).rd F.AUD_TPORT_STATUS_state p = st
    ∧ ((s.portTo p st).aport p).state = st ∧ s.Only (s.portTo p st) [(F.AUD_TPORT_STATUS_state, p)] := by
  rw [State.portTo_tdm hp hl]
  refine ⟨(State.rd_wr_self _ F.AUD_TPORT_STATUS_state st p 0).trans (Nat.mod_eq_of_lt hst), ?_, ?_⟩
  · rw [State.aport_congr (State.wr_aud ..), State.aport_updAport_self hl]
  · exact (State.Only.same (State.Only.refl s _)).wr F.AUD_TPORT_STATUS_state st p 0 (by simp)

theorem exec_audPortEnable_tdm (hu : u < 4) : exec (.audPortEnable u v) s = .next (
    let t := s.wr F.AUD_TPORT_CTRL_enable (v % 2) u
    if t.portOn u = true ∧ (t.aport u).state = 0 ∧ t.released 31 = true ∧ t.takesWork (0x80 + u) = true then
      (t.updAport u fun _ => AudPort.init).portTo u 1
    else if t.portOn u then t.portShow u else (t.updAport u fun _ => AudPort.init).portTo u 0) := by
  have hp : unitPort u = u := if_pos hu
  change execAudPortEnable u v s = _
  unfold execAudPortEnable
  rw [hp]
  simp only [hu, if_true, decide_true, Bool.or_true]

theorem audPortEnable_on (hu : u < 4) (hl : u < s.aud.ports.length) (hv : v % 2 = 1) (h0 : (s.aport u).state = 0) (hr : s.released 31 = true)
    (hw : s.takesWork (0x80 + u) = true) :
    Does (.audPortEnable u v) s fun t => t.rd F.AUD_TPORT_CTRL_enable u = 1 ∧ t.rd F.AUD_TPORT_STATUS_state u = 1 ∧ (t.aport u).state = 1
      ∧ s.Only t [(F.AUD_TPORT_CTRL_enable, u), (F.AUD_TPORT_STATUS_state, u)] := by
  refine Does.of_exec (exec_audPortEnable_tdm hu) ?_
  extract_lets t
  have hen : t.rd F.AUD_TPORT_CTRL_enable u = 1 := (State.rd_wr_self s F.AUD_TPORT_CTRL_enable (v % 2) u 0).trans (by rw [hv]; rfl)
  have hon : t.portOn u = true := by
    rw [State.portOn_tdm hu, State.on, hen]
    rfl
  have hrel : t.released 31 = true := by
    rw [State.released, State.rd_wr_other _ _ _ _ _ _ _ _ (by decide)]
    exact hr
  have hwork : t.takesWork (0x80 + u) = true := by
    unfold State.takesWork State.blockUp
    rw [State.wr_sys]
    exact hw
  have hs0 : (t.aport u).state = 0 := by rw [State.aport_congr (State.wr_aud ..), h0]
  have hlt : u < t.aud.ports.length := by rw [State.wr_aud]; exact hl
  have ho : s.Only t [(F.AUD_TPORT_CTRL_enable, u), (F.AUD_TPORT_STATUS_state, u)] := (State.Only.refl s _).wr F.AUD_TPORT_CTRL_enable _ u 0 (by simp)
  clear_value t
  rw [if_pos ⟨hon, hs0, hrel, hwork⟩]
  rw [State.portTo_tdm hu (by simpa [State.updAport, State.updAud, updAt] using hlt)]
  refine ⟨(State.rd_wr_other _ _ _ _ _ _ _ _ (by decide)).trans hen, State.rd_wr_self _ F.AUD_TPORT_STATUS_state 1 u 0, ?_, ?_⟩
  · rw [State.aport_congr (State.wr_aud ..), State.aport_updAport_self (by simpa [State.updAport, State.updAud, updAt] using hlt)]
  · exact (State.Only.same ho).wr F.AUD_TPORT_STATUS_state 1 u 0 (by simp)

theorem audPortEnable_off (hu : u < 4) (hl : u < s.aud.ports.length) (hv : v % 2 = 0) :
    Does (.audPortEnable u v) s fun t => t.rd F.AUD_TPORT_CTRL_enable u = 0 ∧ t.rd F.AUD_TPORT_STATUS_state u = 0 ∧ (t.aport u).state = 0
      ∧ s.Only t [(F.AUD_TPORT_CTRL_enable, u), (F.AUD_TPORT_STATUS_state, u)] := by
  refine Does.of_exec (exec_audPortEnable_tdm hu) ?_
  extract_lets t
  have hen : t.rd F.AUD_TPORT_CTRL_enable u = 0 := (State.rd_wr_self s F.AUD_TPORT_CTRL_enable (v % 2) u 0).trans (by rw [hv]; rfl)
  have hoff : t.portOn u = false := by
    rw [State.portOn_tdm hu, State.on, hen]
    rfl
  have hlt : u < t.aud.ports.length := by rw [State.wr_aud]; exact hl
  have ho : s.Only t [(F.AUD_TPORT_CTRL_enable, u), (F.AUD_TPORT_STATUS_state, u)] := (State.Only.refl s _).wr F.AUD_TPORT_CTRL_enable _ u 0 (by simp)
  clear_value t
  rw [hoff, if_neg (fun h => Bool.false_ne_true h.1), if_neg Bool.false_ne_true]
  rw [State.portTo_tdm hu (by simpa [State.updAport, State.updAud, updAt] using hlt)]
  refine ⟨(State.rd_wr_other _ _ _ _ _ _ _ _ (by decide)).trans hen, State.rd_wr_self _ F.AUD_TPORT_STATUS_state 0 u 0, ?_, ?_⟩
  · rw [State.aport_congr (State.wr_aud ..), State.aport_updAport_self (by simpa [State.updAport, State.updAud, updAt] using hlt)]
  · exact (State.Only.same ho).wr F.AUD_TPORT_STATUS_state 0 u 0 (by simp)

/-- An AES3 receiver with its enable bit as written, which forgets its input when it goes off. -/
def State.aesSwitched (s : State) (u v : Nat) : State :=
  let t := s.wr F.AUD_APORT_CTRL_enable (v % 2) (u - 4)
  if v % 2 == 1 then t else t.updAunit u fun x => { x with frame := none, inBlock := false, na := false, naLeft := 0, mute := false }

theorem exec_audPortEnable_aes (hu : ¬ u < 4) : exec (.audPortEnable u v) s = .next (
    let t := s.aesSwitched u v
    let p := unitPort u
    if t.portOn p = true ∧ (t.aport p).state = 0 ∧ t.released 31 = true ∧ t.takesWork (0x80 + p) = true then
      (t.updAport p fun _ => AudPort.init).portTo p 1
    else if t.portOn p then t.portShow p else (t.updAport p fun _ => AudPort.init).portTo p 0) := by
  change execAudPortEnable u v s = _
  unfold execAudPortEnable State.aesSwitched
  simp only [hu, if_false, decide_false, Bool.or_false]

theorem audPortEnable_aes (hu : 4 ≤ u) :
    Does (.audPortEnable u v) s fun t => t.rd F.AUD_APORT_CTRL_enable (u - 4) = v % 2 ∧ t.mem = s.mem := by
  refine Does.of_exec (exec_audPortEnable_aes (Nat.not_lt.mpr hu)) ?_
  extract_lets t p
  have hen : t.rd F.AUD_APORT_CTRL_enable (u - 4) = v % 2 ∧ t.mem = s.mem := by
    have hr := (State.rd_wr_self s F.AUD_APORT_CTRL_enable (v % 2) (u - 4) 0).trans (Nat.mod_eq_of_lt (Nat.mod_lt v (by decide)))
    simp only [t, State.aesSwitched]
    split
    · exact ⟨hr, State.wr_mem ..⟩
    · exact ⟨hr, State.wr_mem ..⟩
  clear_value t
  have hinit : State.PortsKept t (t.updAport p fun _ => AudPort.init) := (State.PortsKept.refl t).updAport p _
  have hk : State.PortsKept t (if t.portOn p = true ∧ (t.aport p).state = 0 ∧ t.released 31 = true ∧ t.takesWork (0x80 + p) = true then
      (t.updAport p fun _ => AudPort.init).portTo p 1
    else if t.portOn p then t.portShow p else (t.updAport p fun _ => AudPort.init).portTo p 0) :=
    .ite (hinit.portTo p 1) (.ite ((State.PortsKept.refl t).portShow p) (hinit.portTo p 0))
  exact ⟨(hk.within.rd _ _ _ (by decide)).trans hen.1, hk.within.mem.trans hen.2⟩

/-! ### Masks -/

theorem audMaskArm_pending (h : s.armPending u = true) : exec (.audMaskArm u v) s = .next (s.wr F.AUD_FLAGS_cfg_refused 1) := by
  change execAudMaskArm u v s = _
  exact if_pos (by rw [h, Bool.true_or, Bool.true_or])

theorem audMaskArm_does (h : s.armPending u = false) (hn : (maskBits (if u < 4 then 16 else 2) (s.unitNext u)).length ≤ s.unitSpan u)
    (hm : s.mapBad = false) :
    Does (.audMaskArm u v) s fun t => t.armPending u = true
      ∧ s.Only t [(F.AUD_TPORT_FLAGS_arm_pending, u), (F.AUD_APORT_FLAGS_arm_pending, u - 4)] := by
  have hex : exec (.audMaskArm u v) s = .next (s.setArm u true) := by
    change execAudMaskArm u v s = _
    unfold execAudMaskArm
    refine if_neg ?_
    rw [h, hm, decide_eq_false (Nat.not_lt.mpr hn)]
    exact Bool.false_ne_true
  refine Does.of_exec hex ?_
  unfold State.setArm State.armPending State.on
  by_cases hu : u < 4
  · simp only [if_pos hu]
    refine ⟨?_, (State.Only.refl s _).wr F.AUD_TPORT_FLAGS_arm_pending _ u 0 (by simp)⟩
    rw [State.rd_wr_self s F.AUD_TPORT_FLAGS_arm_pending _ u 0]
    rfl
  · simp only [if_neg hu]
    refine ⟨?_, (State.Only.refl s _).wr F.AUD_APORT_FLAGS_arm_pending _ (u - 4) 0 (by simp)⟩
    rw [State.rd_wr_self s F.AUD_APORT_FLAGS_arm_pending _ (u - 4) 0]
    rfl

/-! ### Input frames -/

/-- The frame that a TDM port takes from its slots (R506, R517). -/
def State.tdmFrame (s : State) (p : Nat) (ok : Bool) (slots : List Nat) : AudFrame :=
  { samples := (List.range (s.rd F.AUD_TDM_CFG_slots p + 1)).map fun k => if ok then s.slotSample p (slots.getD k 0) else 0, valid := [],
    subst := !ok, here := [], z := [], na := [] }

theorem exec_audTdmFrameReceive {bits : Nat} {ok : Bool} (slots : List Nat) (ratio : Nat) (hr : s.released 31 = true) (hon : s.portOn p = true)
    (hok : (bits == (s.rd F.AUD_TDM_CFG_slots p + 1) * s.slotBits p) = ok) : exec (.audTdmFrameReceive p bits slots ratio) s =
      .next ((if ok then s else s.flagCount F.AUD_TPORT_FLAGS_frame_err F.AUD_TPORT_CNT_frame_err p).portFrame p (s.tdmFrame p ok slots) ok ratio) := by
  change execAudTdmFrameReceive p bits slots ratio s = _
  unfold execAudTdmFrameReceive
  subst hok
  rw [hr, hon]
  rfl

/-- The 64th good frame of an UNLOCKED TDM port at a ratio in range takes it to FILL (R510). -/
theorem State.portFrame_locks (hp : p < 4) (hl : p < s.aud.ports.length) (hm : s.portMaster p = false) (h1 : (s.aport p).state = 1)
    (hg : 63 ≤ (s.aport p).good) {ratio : Nat} (hr : ratioOk ratio = true) (f : AudFrame) : s.portFrame p f true ratio =
      (((s.wr F.AUD_TPORT_RATIO_ratio ratio p).updAport p fun x => { x with good := x.good + 1, bad := 0 }).updAport p fun x =>
        { x with fifo := [], window := [] }).portTo p 2 := by
  unfold State.portFrame
  extract_lets r s0 s1 x s2
  have hrat : r = ratio := if_neg (Bool.eq_false_iff.mp hm)
  have hs0 : s0 = s.wr F.AUD_TPORT_RATIO_ratio ratio p := (if_pos hp).trans (by rw [hrat])
  clear_value r s0
  have haud : s0.aud = s.aud := by rw [hs0, State.wr_aud]
  have h0 : s0.aport p = s.aport p := State.aport_congr haud p
  have harms : s0.applyArms p = s0 := by
    refine if_neg ?_
    rw [h0, h1]
    decide
  have hs1 : s1 = s0.updAport p fun x => { x with good := x.good + 1, bad := 0 } := by
    simp only [s1, harms]
    rfl
  have hx : x = { s.aport p with good := (s.aport p).good + 1, bad := 0 } := by
    simp only [x, hs1]
    rw [State.aport_updAport_self (by rw [haud]; exact hl), h0]
  rw [if_neg (by rw [hx, h1]; decide), if_pos (by rw [hx, h1]), if_pos ⟨by rw [hx]; exact Nat.succ_le_succ hg, by rw [hrat]; exact hr⟩, hs1, hs0]

theorem audTdmFrame_locks {bits ratio : Nat} (slots : List Nat) (hp : p < 4) (hl : p < s.aud.ports.length) (hr : s.released 31 = true)
    (hon : s.portOn p = true) (hm : s.portMaster p = false) (h1 : (s.aport p).state = 1) (hg : 63 ≤ (s.aport p).good)
    (hb : bits = (s.rd F.AUD_TDM_CFG_slots p + 1) * s.slotBits p) (hok : ratioOk ratio = true) :
    Does (.audTdmFrameReceive p bits slots ratio) s fun t => (t.aport p).state = 2 ∧ t.rd F.AUD_TPORT_STATUS_state p = 2
      ∧ s.Only t [(F.AUD_TPORT_RATIO_ratio, p), (F.AUD_TPORT_STATUS_state, p)] := by
  refine Does.of_exec (exec_audTdmFrameReceive slots ratio hr hon (beq_iff_eq.mpr hb)) ?_
  rw [if_pos rfl, State.portFrame_locks hp hl hm h1 hg hok]
  have hlen : p < (((s.wr F.AUD_TPORT_RATIO_ratio ratio p).updAport p fun x => { x with good := x.good + 1, bad := 0 }).updAport p fun x =>
      { x with fifo := [], window := [] }).aud.ports.length := by
    simpa [State.updAport, State.updAud, updAt] using hl
  obtain ⟨hst, hsp, ho⟩ := State.portTo_reads hp hlen (st := 2) (by decide)
  refine ⟨hsp, hst, ho.1.trans (State.wr_mem ..), fun f i j hf => (ho.2 f i j ?_).trans ?_⟩
  · exact fun x hx => hf x (List.mem_cons_of_mem _ hx)
  · exact ((State.Only.refl s [(F.AUD_TPORT_RATIO_ratio, p)]).wr F.AUD_TPORT_RATIO_ratio ratio p 0 (by simp)).2 f i j fun x hx =>
      hf x (List.mem_cons.mpr (.inl (List.mem_singleton.mp hx)))

theorem audTdmFrame_short {bits ratio : Nat} (slots : List Nat) (hr : s.released 31 = true) (hon : s.portOn p = true)
    (hb : bits ≠ (s.rd F.AUD_TDM_CFG_slots p + 1) * s.slotBits p) :
    Does (.audTdmFrameReceive p bits slots ratio) s fun t => t.rd F.AUD_TPORT_FLAGS_frame_err p = 1 ∧ t.mem = s.mem := by
  refine Does.of_exec (exec_audTdmFrameReceive slots ratio hr hon (beq_eq_false_iff_ne.mpr hb)) ?_
  rw [if_neg Bool.false_ne_true]
  have hk := (State.PortsKept.refl (s.flagCount F.AUD_TPORT_FLAGS_frame_err F.AUD_TPORT_CNT_frame_err p)).portFrame p (s.tdmFrame p false slots) false ratio
  refine ⟨(hk.within.rd _ _ _ (by decide)).trans (State.rd_flagCount_flag _ _ _ _ (by decide)), hk.within.mem.trans ?_⟩
  rw [State.flagCount, State.bump, State.wr_mem, State.wr_mem]

theorem exec_audAesFrameReceive {a : Nat} (f : AesFrame) (hr : s.released 31 = true) (hon : s.unitOn (4 + a) = true) :
    exec (.audAesFrameReceive a f) s = .next (s.aesTaken a f) := by
  refine congrArg Host.Outcome.next (if_pos ?_)
  rw [hr, hon]
  rfl

/-- A receiver holds the frame when its rate is right (R508). -/
theorem State.aesTaken_reads {a : Nat} (f : AesFrame) (hl : 4 + a < s.aud.units.length) :
    ((s.aesTaken a f).aunit (4 + a)).frame.isSome = f.rateOk ∧ (s.aesTaken a f).mem = s.mem := by
  unfold State.aesTaken
  extract_lets u d here t p
  have hd : State.PortsKept s d.1 := ((State.PortsKept.refl s).csCapture a f).naDetect a f
  have hlen : u < d.1.aud.units.length := by
    have h := congrArg (fun x => x.2.2.length) hd.aud
    simp only [AudSt.beside, List.length_map] at h
    omega
  have ht : (t.aunit u).frame = here := congrArg AudUnit.frame (updAt_getD_self _ _ _ _ hlen)
  have htm : t.mem = s.mem := hd.within.mem
  have hk : State.PortsKept t ((if u = t.refUnit p then t.portFrame p (t.groupFrame p) f.rateOk f.ratio else t).portShow p) :=
    (State.PortsKept.ite ((State.PortsKept.refl t).portFrame ..) (.refl t)).portShow p
  refine ⟨?_, hk.within.mem.trans htm⟩
  have hf : ∀ x : State, (x.aunit u).frame = (x.aud.units.map AudUnit.frame).getD u AudUnit.init.frame := by
    intro x
    exact (getD_map_of AudUnit.frame).symm
  have hfr := congrArg (fun x => x.2.2.getD u AudUnit.init.frame) hk.aud
  rw [hf]
  refine (congrArg Option.isSome hfr).trans ?_
  change ((t.aud.units.map AudUnit.frame).getD u AudUnit.init.frame).isSome = _
  rw [← hf, ht]
  simp only [here]
  cases f.rateOk <;> rfl

/-! ### Recording -/

theorem audRecRunStart_does (hrun : s.on F.AUD_REC_CTRL_run = false) (hp : s.planPending = false)
    (hb : s.pair F.AUD_RING_BASE_LO_value F.AUD_RING_BASE_HI_value % 64 = 0)
    (hr : s.inRegion (s.pair F.AUD_RING_BASE_LO_value F.AUD_RING_BASE_HI_value) (s.rd F.AUD_RING_BLOCKS_value * s.blockBytes) 8 0 = true) :
    Does .audRecRunStart s fun t => t.rd F.AUD_REC_CTRL_run = 1 ∧ (s.aud.block = none → t.rd F.AUD_RING_SERIAL_value = 0)
      ∧ s.Only t [(F.AUD_REC_CTRL_run, 0), (F.AUD_RING_SERIAL_value, 0)] := by
  have hex : exec .audRecRunStart s = .next (((s.wr F.AUD_REC_CTRL_run 1).whenB s.aud.block.isNone fun s => s.wr F.AUD_RING_SERIAL_value 0).updAud
      fun a => { a with live := false }) := by
    refine (if_neg (Bool.eq_false_iff.mp hrun)).trans ((if_neg (Bool.eq_false_iff.mp hp)).trans (if_pos ?_))
    rw [hb, hr]
    rfl
  refine Does.of_exec hex ?_
  have hw1 : (s.wr F.AUD_REC_CTRL_run 1).rd F.AUD_REC_CTRL_run = 1 := State.rd_wr_self s F.AUD_REC_CTRL_run 1 0 0
  have ho : s.Only (s.wr F.AUD_REC_CTRL_run 1) [(F.AUD_REC_CTRL_run, 0), (F.AUD_RING_SERIAL_value, 0)] :=
    (State.Only.refl s _).wr F.AUD_REC_CTRL_run 1 0 0 (by simp)
  cases hblock : s.aud.block with
  | none =>
    refine ⟨(State.rd_wr_other _ F.AUD_RING_SERIAL_value F.AUD_REC_CTRL_run 0 0 0 0 0 (by decide)).trans hw1, fun _ => ?_, ?_⟩
    · exact State.rd_wr_self _ F.AUD_RING_SERIAL_value 0 0 0
    · exact (ho.wr F.AUD_RING_SERIAL_value 0 0 0 (by simp)).same
  | some b => exact ⟨hw1, nofun, ho.same⟩

theorem audRecRunStart_refused (hrun : s.on F.AUD_REC_CTRL_run = false) (hp : s.planPending = false)
    (hr : s.inRegion (s.pair F.AUD_RING_BASE_LO_value F.AUD_RING_BASE_HI_value) (s.rd F.AUD_RING_BLOCKS_value * s.blockBytes) 8 0 = false) :
    exec .audRecRunStart s = .next (s.wr F.AUD_FLAGS_cfg_refused 1) := by
  refine (if_neg (Bool.eq_false_iff.mp hrun)).trans ((if_neg (Bool.eq_false_iff.mp hp)).trans (if_neg ?_))
  rw [hr, Bool.and_false]
  exact Bool.false_ne_true

/-- The fields that the recording sets. -/
def blockFlds : List Fld := [F.AUD_RING_SERIAL_value, F.AUD_FLAGS_ring_drop, F.AUD_CNT_ring_drop] ++ eventFlds

/-- Every field but those listed, and the master's count and the recorded words, are as they were. -/
structure State.MasterKept (l : List Fld) (s t : State) : Prop where
  rd : ∀ (f : Fld) (i j : Nat), f.Off l → t.rd f i j = s.rd f i j
  count : t.aud.count = s.aud.count
  hist : t.aud.hist = s.aud.hist

theorem State.put_aud (s : State) (a : Nat) (bs : List Byte) : (s.put a bs).aud = s.aud := by
  unfold State.put
  split
  · rfl
  · split
    · rfl
    · rfl

theorem State.blockDone_kept (s : State) (b : AudBlock) : State.MasterKept blockFlds s (s.blockDone b) := by
  unfold State.blockDone
  extract_lets n blocks t off data
  have hw : State.Within blockFlds s t := ((State.Within.refl _ s).wr (f := F.AUD_RING_SERIAL_value) (by decide) ..).same
  have ht : t.aud = { s.aud with block := none } := by
    simp only [t, State.updAud, State.wr_aud]
  clear_value t
  split
  · have hk : State.Within blockFlds s ((t.flagCount F.AUD_FLAGS_ring_drop F.AUD_CNT_ring_drop).raise 1 Ev.AUD_RING_DROP (le 4 n)) :=
      (hw.flagCount (by decide) (by decide) 0).raise (by decide) ..
    have ha : ((t.flagCount F.AUD_FLAGS_ring_drop F.AUD_CNT_ring_drop).raise 1 Ev.AUD_RING_DROP (le 4 n)).aud = t.aud := by
      rw [State.Apart.aud.raise, State.flagCount, State.bump, State.wr_aud, State.wr_aud]
    exact ⟨fun f i j hf => hk.rd f i j hf, by rw [ha, ht], by rw [ha, ht]⟩
  · generalize hu : t.put (s.pair F.AUD_RING_BASE_LO_value F.AUD_RING_BASE_HI_value + off) data = u
    have hua : u.aud = t.aud := by rw [← hu, State.put_aud]
    have hp : (u.postUnsolicited 1 (s.rd F.AUD_REC_CFG_cq) 31 St.OK n off).aud = t.aud := (State.Apart.aud.post ..).trans hua
    refine ⟨fun f i j hf => ?_, by rw [hp, ht], by rw [hp, ht]⟩
    have hpost : State.Within eventFlds u (u.postUnsolicited 1 (s.rd F.AUD_REC_CFG_cq) 31 St.OK n off) :=
      (State.Within.refl _ u).post (fun _ hx => hx) _
    refine (hpost.rd f i j (hf.mono (by decide))).trans ?_
    rw [← hu, State.put_rd]
    exact hw.rd f i j hf

theorem State.record_kept (s : State) (words : List Nat) (start : Bool) : State.MasterKept blockFlds s (s.record words start) := by
  unfold State.record
  extract_lets s1
  have h1 : State.MasterKept blockFlds s s1 := by
    simp only [s1]
    split
    · exact ⟨fun _ _ _ _ => rfl, rfl, rfl⟩
    · split
      · generalize hu : (s.whenB (!s.aud.live) fun s => s.wr F.AUD_RING_SERIAL_value 0) = u
        have hk : State.Within blockFlds s u := by
          rw [← hu]
          exact (State.Within.refl _ s).whenB ((State.Within.refl _ s).wr (f := F.AUD_RING_SERIAL_value) (by decide) ..)
        have ha : u.aud = s.aud := by
          rw [← hu]
          cases !s.aud.live
          · rfl
          · exact State.wr_aud s F.AUD_RING_SERIAL_value 0 0 0
        exact ⟨fun f i j hf => hk.rd f i j hf, (congrArg AudSt.count ha :), (congrArg AudSt.hist ha :)⟩
      · exact ⟨fun _ _ _ _ => rfl, rfl, rfl⟩
  clear_value s1
  split
  · exact h1
  · extract_lets flags b'
    split
    · have hk := s1.blockDone_kept b'
      exact ⟨fun f i j hf => (hk.rd f i j hf).trans (h1.rd f i j hf), hk.count.trans h1.count, hk.hist.trans h1.hist⟩
    · exact ⟨fun f i j hf => h1.rd f i j hf, h1.count, h1.hist⟩

/-! ### The master sample -/

theorem exec_audioMasterSample (err : Int) (boundary : Bool) (hm : s.masterState ≠ 0) (hr : s.released 31 = true) :
    exec (.audioMasterSample err boundary) s = .next (s.masterSample err boundary) := by
  refine congrArg Host.Outcome.next (if_neg ?_)
  rw [hr]
  simp [hm]

/-- The phase error is published, and the 16th instant within one period of a master in ACQUIRE locks it (R505). -/
theorem State.masterLock_reads (s : State) (err : Int) :
    (s.masterLock err).rd F.AUD_MASTER_STATUS_phase_err = ofSigned 16 err % 2 ^ F.AUD_MASTER_STATUS_phase_err.width
    ∧ (s.masterState = 2 → err.natAbs * s.masterRate ≤ 1000000000 → 15 ≤ s.aud.starts → (s.masterLock err).masterState = 3)
    ∧ (s.masterState ≠ 2 → (s.masterLock err).masterState = s.masterState)
    ∧ (s.masterLock err).rd F.AUD_REC_CFG_channels = s.rd F.AUD_REC_CFG_channels
    ∧ (s.masterLock err).aud.count = s.aud.count ∧ (s.masterLock err).aud.hist = s.aud.hist := by
  unfold State.masterLock
  extract_lets t n t1
  have h1 : t.rd F.AUD_MASTER_STATUS_phase_err = ofSigned 16 err % 2 ^ F.AUD_MASTER_STATUS_phase_err.width :=
    State.rd_wr_self s F.AUD_MASTER_STATUS_phase_err _ 0 0
  have h2 : t.masterState = s.masterState := State.rd_wr_other _ _ _ _ _ _ _ _ (by decide)
  have h3 : t.rd F.AUD_REC_CFG_channels = s.rd F.AUD_REC_CFG_channels := State.rd_wr_other _ _ _ _ _ _ _ _ (by decide)
  have h4 : t.aud = s.aud := State.wr_aud ..
  clear_value t
  by_cases hm : s.masterState = 2
  · rw [if_pos hm]
    by_cases hn : 16 ≤ n
    · rw [if_pos hn]
      refine ⟨(State.rd_wr_other _ _ _ _ _ _ _ _ (by decide)).trans h1, fun _ _ _ => State.rd_wr_self _ F.AUD_MASTER_STATUS_state 3 0 0,
        fun h => absurd hm h, (State.rd_wr_other _ _ _ _ _ _ _ _ (by decide)).trans h3, ?_, ?_⟩
      · rw [State.wr_aud]
        exact (congrArg AudSt.count h4 :)
      · rw [State.wr_aud]
        exact (congrArg AudSt.hist h4 :)
    · rw [if_neg hn]
      refine ⟨h1, fun _ he hs => absurd ?_ hn, fun h => absurd hm h, h3, (congrArg AudSt.count h4 :), (congrArg AudSt.hist h4 :)⟩
      simp only [n, if_pos he]
      omega
  · rw [if_neg hm]
    exact ⟨h1, fun h => absurd h hm, fun _ => h2, h3, congrArg AudSt.count h4, congrArg AudSt.hist h4⟩

theorem audioMasterSample_does (err : Int) (boundary : Bool) (hm : s.masterState ≠ 0) (hr : s.released 31 = true) :
    Does (.audioMasterSample err boundary) s fun t => t.aud.count = s.aud.count + 1
      ∧ t.rd F.AUD_MASTER_STATUS_phase_err = ofSigned 16 err % 2 ^ F.AUD_MASTER_STATUS_phase_err.width
      ∧ (∃ w, w.length = s.rd F.AUD_REC_CFG_channels ∧ t.aud.hist = (w :: s.aud.hist).take 1024)
      ∧ (s.masterState = 2 → err.natAbs * s.masterRate ≤ 1000000000 → 15 ≤ s.aud.starts → t.masterState = 3)
      ∧ (s.masterState ≠ 2 → t.masterState = s.masterState) := by
  refine Does.of_exec (exec_audioMasterSample err boundary hm hr) ?_
  obtain ⟨hphase, hlock, hstay, hch, hcount, hhist⟩ := s.masterLock_reads err
  unfold State.masterSample
  extract_lets s2 words start
  have h2 : State.PortsKept (s.masterLock err) s2 :=
    State.PortsKept.each (f := State.portSample) (.refl _) (List.range 6) fun _ _ hx => hx.portSample _
  have hw : words.length = s.rd F.AUD_REC_CFG_channels := by
    rw [List.length_map, List.length_range, h2.within.rd _ _ _ (by decide), hch]
  clear_value s2 words
  have hmon := h2.monitor words (s2.aud.hist.headD [])
  generalize s2.monitor words (s2.aud.hist.headD []) = m at hmon
  have hrec := m.record_kept words start
  generalize m.record words start = u at hrec
  have hrd : ∀ f : Fld, f.Off blockFlds → f.Off portFlds → u.rd f = (s.masterLock err).rd f :=
    fun f hb hp => (hrec.rd f 0 0 hb).trans (hmon.within.rd f 0 0 hp)
  have hc : u.aud.count = s.aud.count := hrec.count.trans ((congrArg Prod.fst hmon.aud).trans hcount)
  have hh : u.aud.hist = s.aud.hist := hrec.hist.trans ((congrArg (fun x => x.2.1) hmon.aud).trans hhist)
  have hst : u.masterState = (s.masterLock err).masterState := hrd _ (by decide) (by decide)
  refine ⟨congrArg (· + 1) hc, (hrd _ (by decide) (by decide)).trans hphase, ⟨words, hw, ?_⟩, fun h he hn => hst.trans (hlock h he hn),
    fun h => hst.trans (hstay h)⟩
  exact congrArg (fun l => (words :: l).take 1024) hh

theorem audMasterReferenceLoss_does (h3 : s.masterState = 3) :
    Does .audMasterReferenceLoss s fun t => t.masterState = 4 ∧ t.rd F.AUD_FLAGS_master_lost = 1 ∧ s.Raised t 1 Ev.AUD_MASTER_LOST []
      ∧ t.mem = s.mem := by
  generalize hv : ((s.updAud fun a => { a with pulses := 0 }).wr F.AUD_MASTER_STATUS_state 4).flagCount F.AUD_FLAGS_master_lost F.AUD_CNT_master_lost = v
  have hex : exec .audMasterReferenceLoss s = .next (v.raise 1 Ev.AUD_MASTER_LOST []) := by
    rw [← hv]
    exact congrArg Host.Outcome.next (if_pos h3)
  have hm : v.mem = s.mem := by
    rw [← hv, State.flagCount, State.bump, State.wr_mem, State.wr_mem, State.wr_mem]
    rfl
  refine Does.of_exec hex ⟨?_, ?_, State.Raised.of_same (t := v) ?_ (fun f hf => ?_) rfl, (State.raise_mem ..).trans hm⟩
  · refine (State.rd_raise_other _ _ _ _ _ _ _ (by decide)).trans ?_
    rw [← hv, State.rd_flagCount_other _ _ _ _ _ _ _ (by decide)]
    exact State.rd_wr_self _ F.AUD_MASTER_STATUS_state 4 0 0
  · refine (State.rd_raise_other _ _ _ _ _ _ _ (by decide)).trans ?_
    rw [← hv]
    exact State.rd_flagCount_flag _ _ _ 0 (by decide)
  · rw [← hv]
    simp only [State.flagCount, State.bump, State.wr_host]
    rfl
  · rw [← hv]
    simp only [List.mem_cons, List.not_mem_nil, or_false] at hf
    rcases hf with rfl | rfl
    · simp (disch := decide) only [State.rd_flagCount_other, State.rd_wr_other]
      rfl
    · simp (disch := decide) only [State.rd_flagCount_other, State.rd_wr_other]
      rfl

/-! ### The output slots -/

theorem exec_audZcTimeout {k slot : Nat} (h : (s.aud.outs.getD k []).getD slot none ≠ s.slotWant k slot) :
    exec (.audZcTimeout k slot) s = .next (((s.updAud fun a => { a with
      outs := updAt a.outs k fun l => updAt l slot fun _ => s.slotWant k slot }).flagCount F.AUD_FLAGS_zc_timeout F.AUD_CNT_zc_timeout).raise 1
        Ev.AUD_ZC_TIMEOUT (le 1 k ++ le 1 slot)) := if_neg h

theorem audZcTimeout_does {k slot : Nat} {l : List (Option Nat)} (hk : s.aud.outs[k]? = some l) (hl : slot < l.length)
    (h : (s.aud.outs.getD k []).getD slot none ≠ s.slotWant k slot) :
    Does (.audZcTimeout k slot) s fun t => (t.aud.outs.getD k []).getD slot none = s.slotWant k slot ∧ t.rd F.AUD_FLAGS_zc_timeout = 1
      ∧ s.Raised t 1 Ev.AUD_ZC_TIMEOUT (le 1 k ++ le 1 slot) ∧ t.mem = s.mem := by
  have hlen : k < s.aud.outs.length := (List.getElem?_eq_some_iff.mp hk).1
  have hget : s.aud.outs.getD k [] = l := by rw [List.getD_eq_getElem?_getD, hk, Option.getD_some]
  refine Does.of_exec (exec_audZcTimeout h) ?_
  generalize hu : (s.updAud fun a => { a with outs := updAt a.outs k fun l => updAt l slot fun _ => s.slotWant k slot }) = u
  have huo : (u.aud.outs.getD k []).getD slot none = s.slotWant k slot := by
    rw [← hu]
    change ((updAt s.aud.outs k fun l => updAt l slot fun _ => s.slotWant k slot).getD k []).getD slot none = _
    rw [updAt_getD_self _ _ _ _ hlen, hget]
    exact updAt_getD_self _ _ _ _ hl
  have hum : u.mem = s.mem := by rw [← hu]; rfl
  have huh : u.host = s.host := by rw [← hu]; rfl
  have hur : ∀ f : Fld, u.rd f = s.rd f := fun f => by rw [← hu]; rfl
  refine ⟨?_, ?_, State.Raised.of_same (t := u.flagCount F.AUD_FLAGS_zc_timeout F.AUD_CNT_zc_timeout) ?_ (fun f hf => ?_) rfl, ?_⟩
  · rw [State.Apart.aud.raise, State.flagCount, State.bump, State.wr_aud, State.wr_aud, huo]
  · refine (State.rd_raise_other _ _ _ _ _ _ _ (by decide)).trans ?_
    exact State.rd_flagCount_flag _ _ _ 0 (by decide)
  · simp only [State.flagCount, State.bump, State.wr_host, huh]
  · simp only [List.mem_cons, List.not_mem_nil, or_false] at hf
    rcases hf with rfl | rfl
    · exact (State.rd_flagCount_other _ _ _ _ _ _ _ (by decide)).trans (hur _)
    · exact (State.rd_flagCount_other _ _ _ _ _ _ _ (by decide)).trans (hur _)
  · rw [State.raise_mem, State.flagCount, State.bump, State.wr_mem, State.wr_mem, hum]

end

/-- Settles O54: the ports by their functions, the masks, the recording, the master sample and the output slots. -/
theorem audioPortsAndRecording : Obligations.AudioPortsAndRecording := by
  refine ⟨fun u p s hu hul hpl hp hpp => ⟨fun v hu4 hv h0 hr hw => audPortEnable_on hu4 ?_ hv h0 hr hw, fun v hu4 hv => audPortEnable_off hu4 ?_ hv,
    fun v => audPortEnable_aes, fun v => audMaskArm_pending, fun v => audMaskArm_does,
    fun bits slots ratio hr hon hm h1 hg hb hok => audTdmFrame_locks slots hp hpp hr hon hm h1 hg hb hok,
    fun bits slots ratio hr hon _ hb => audTdmFrame_short slots hr hon hb, fun f hu4 hr hon => ?_, audRecRunStart_does, audRecRunStart_refused,
    ⟨_, rfl, State.rd_wr_self s F.AUD_REC_CTRL_run 0 0 0, (State.Only.refl s _).wr F.AUD_REC_CTRL_run 0 0 0 (by simp)⟩,
    audioMasterSample_does, audMasterReferenceLoss_does, fun k slot l => audZcTimeout_does⟩,
    fun a k slot f err boundary s => ⟨exec_audioMasterSample err boundary, exec_audAesFrameReceive f, exec_audZcTimeout, rfl⟩⟩
  · rw [unitPort, if_pos hu4] at hpl
    exact hpl
  · rw [unitPort, if_pos hu4] at hpl
    exact hpl
  · have hsum : 4 + (u - 4) = u := by omega
    have hex := exec_audAesFrameReceive (a := u - 4) f hr (by rw [hsum]; exact hon)
    have hread := s.aesTaken_reads (a := u - 4) f (by rw [hsum]; exact hul)
    rw [hsum] at hread
    exact Does.of_exec hex hread

end Sys2Proof.Machine
end

section
/-! PROOFS. Raster outputs: what an output's pictures, lock states and lines leave unchanged, and its commands. -/
namespace Sys2Proof.Machine

set_option Elab.async false

/-! ### An output's picture, its start and its end -/

section
variable {l : List Fld} {s t : State} {o : Nat}

theorem State.updOut_outs_length (s : State) (o : Nat) (f : OutSt → OutSt) : (s.updOut o f).outs.length = s.outs.length := updAt_length ..

theorem State.outp_updOut_of_kept {α : Type} (π : OutSt → α) {f : OutSt → OutSt} (hf : ∀ x, π (f x) = π x) (s : State) (o p : Nat) :
    π ((s.updOut o f).outp p) = π (s.outp p) := updAt_getD_of_kept π _ _ _ _ _ hf

theorem State.Within.outRelease (h : State.Within l s t) (o : Nat) : State.Within l s (t.outRelease o) := by
  unfold State.outRelease
  split
  · exact h
  · exact .ite h.same h

theorem State.outRelease_length (s : State) (o : Nat) : (s.outRelease o).outs.length = s.outs.length := by
  unfold State.outRelease
  split
  · rfl
  · split
    · exact State.updOut_outs_length ..
    · rfl

theorem State.outRelease_out (s : State) (o : Nat) : (s.outRelease o).out = s.out := by
  unfold State.outRelease
  split
  · rfl
  · split <;> rfl

theorem State.outRelease_outp {α : Type} (π : OutSt → α) (hp : ∀ x p, π { x with pic := p } = π x) (s : State) (o p : Nat) :
    π ((s.outRelease o).outp p) = π (s.outp p) := by
  unfold State.outRelease
  split
  · rfl
  · split
    · exact State.outp_updOut_of_kept π (fun x => hp x _) (s.dropViewHold _ _ _) o p
    · rfl

/-- The fields of an output that its start and its end may set. -/
def displayFlds : List Fld := F.RAS_OUT_STATUS_wet :: F.RAS_OUT_STATUS_shed :: followFlds

theorem State.Within.outOff (h : State.Within l s t) (hl : ∀ x ∈ displayFlds, x ∈ l) (o : Nat) : State.Within l s (t.outOff o) :=
  State.Within.wr (State.Within.same ((h.outRelease o).wr (f := F.RAS_OUT_STATUS_lock_state) (hl _ (by decide)) 0 o 0))
    (f := F.RAS_OUT_STATUS_wet) (hl _ (by decide)) 0 o 0

theorem State.Within.outOn (h : State.Within l s t) (hl : ∀ x ∈ displayFlds, x ∈ l) (o : Nat) : State.Within l s (t.outOn o) := by
  have hlock : State.Within l s (t.wr F.RAS_OUT_STATUS_lock_state 1 o) := h.wr (hl _ (by decide)) 1 o 0
  unfold State.outOn
  refine .ite ((h.outOff hl 0).wr (hl _ (by decide)) 1 0 0) (.ite (.ite (h.wr (hl _ (by decide)) 5 o 0) ?_) h)
  exact .ite (hlock.outAcquire (fun x hx => hl x (by revert x; decide)) o) hlock

/-- What an output holds beside its picture, its lines and its count of starts stays through its start and its end. -/
theorem State.outAcquire_outp {α : Type} (π : OutSt → α) (hp : ∀ x m n, π { x with starts := m, pulses := n } = π x) (s : State) (o p : Nat) :
    π ((s.outAcquire o).outp p) = π (s.outp p) := by
  have h : π (((s.wr F.RAS_OUT_STATUS_lock_state 2 o).updOut o fun x => { x with starts := 0, pulses := 0 }).outp p) = π (s.outp p) :=
    (State.outp_updOut_of_kept π (fun x => hp x 0 0) _ o p).trans (congrArg π (State.outp_congr (State.wr_outs ..) p))
  unfold State.outAcquire
  extract_lets t
  split
  · exact h
  · refine (congrArg π (State.outp_congr (t := State.raise ..) (s := t) ?_ p)).trans h
    rw [State.Apart.outs.raise, State.flagCount, State.bump, State.wr_outs, State.wr_outs]

theorem State.outOff_inForce (s : State) (o : Nat) : ((s.outOff o).outp o).inForce = (s.outp o).inForce := by
  unfold State.outOff
  rw [State.outp_congr (State.wr_outs ..), State.outp_updOut_of_kept OutSt.inForce, State.outp_congr (State.wr_outs ..),
    State.outRelease_outp OutSt.inForce (fun _ _ => rfl)]
  exact fun _ => rfl

theorem State.outOn_inForce (s : State) (o : Nat) : ((s.outOn o).outp o).inForce = (s.outp o).inForce := by
  unfold State.outOn
  split
  · next h =>
    rw [State.outp_congr (State.wr_outs ..), h.1, State.outOff_inForce]
  · split
    · split
      · rw [State.outp_congr (State.wr_outs ..)]
      · extract_lets t
        have ht : t.outp o = s.outp o := State.outp_congr (State.wr_outs ..) o
        split
        · rw [State.outAcquire_outp OutSt.inForce (fun _ _ _ => rfl), ht]
        · rw [ht]
    · rfl

/-- A set that takes effect is in force, and no commit is pending any longer. -/
theorem State.outApply_reads (h : o < s.outs.length) (r : RegStore) :
    ((s.outApply o r).outp o).inForce = r ∧ (s.outApply o r).rd F.RAS_OUT_COMMIT_pending o = 0 ∧ (s.outApply o r).mem = s.mem := by
  unfold State.outApply
  extract_lets t
  have hin : (t.outp o).inForce = r := congrArg OutSt.inForce (State.outp_updOut_self _ (by rwa [State.wr_outs]))
  have hp : t.rd F.RAS_OUT_COMMIT_pending o = 0 := State.rd_wr_self s F.RAS_OUT_COMMIT_pending 0 o 0
  have hm : t.mem = s.mem := State.wr_mem ..
  clear_value t
  split
  · have hw := (State.Within.refl displayFlds t).outOn (fun _ hx => hx) o
    exact ⟨(t.outOn_inForce o).trans hin, (hw.rd _ _ _ (by decide)).trans hp, hw.mem.trans hm⟩
  · have hw := (State.Within.refl displayFlds t).outOff (fun _ hx => hx) o
    exact ⟨(t.outOff_inForce o).trans hin, (hw.rd _ _ _ (by decide)).trans hp, hw.mem.trans hm⟩

end

/-! ### Commits -/

section
variable {s : State} {o : Nat}

theorem rasOutCommit_taken (ho : o < s.outs.length) (hp : s.on F.RAS_OUT_COMMIT_pending o = false)
    (he : regOn (s.outp o).inForce F.RAS_OUT_CTRL_enable o = false) : Does (.rasOutCommit o) s fun t => t.rd F.RAS_OUT_COMMIT_pending o = 1
      ∧ (t.outp o).check = some (s.outShadow o) ∧ s.Only t [(F.RAS_OUT_COMMIT_pending, o)] := by
  refine Does.of_exec (t := (s.wr F.RAS_OUT_COMMIT_pending 1 o).updOut o fun x => { x with check := some (s.outShadow o) }) ?_
    ⟨State.rd_wr_self s F.RAS_OUT_COMMIT_pending 1 o 0, congrArg OutSt.check (State.outp_updOut_self _ (by rwa [State.wr_outs])),
      ((State.Only.refl s _).wr F.RAS_OUT_COMMIT_pending 1 o 0 (by simp)).same⟩
  change execRasOutCommit o s = _
  unfold execRasOutCommit
  extract_lets r old moved
  exact if_neg (by rw [hp, show regOn old F.RAS_OUT_CTRL_enable o = false from he]; simp)

theorem rasOutCommit_refused (hp : s.on F.RAS_OUT_COMMIT_pending o = true) :
    exec (.rasOutCommit o) s = .next (s.wr F.RAS_OUT_FLAGS_cfg_refused 1 o) := if_pos (by rw [hp]; rfl)

/-- The state at the end of a check, which is no longer under way. -/
def State.outChecked (s : State) (o : Nat) : State := s.updOut o fun x => { x with check := none }

theorem State.outChecked_inForce (s : State) (o : Nat) : ((s.outChecked o).outp o).inForce = (s.outp o).inForce := by
  rw [State.outChecked, State.outp_updOut_of_kept OutSt.inForce]
  exact fun _ => rfl

theorem exec_rasOutCommitCheckDone {r : RegStore} (hc : (s.outp o).check = some r) : exec (.rasOutCommitCheckDone o) s =
    if s.outLink r o && s.outFits r o then
      .next (if s.lockState o = 0 then (s.outChecked o).outApply o r else (s.outChecked o).updOut o fun x => { x with ready := some r })
    else .next (((s.outChecked o).wr F.RAS_OUT_FLAGS_cfg_bad 1 o).wr F.RAS_OUT_COMMIT_pending 0 o) := by
  change execRasOutCommitCheckDone o s = _
  simp only [execRasOutCommitCheckDone, hc]
  rfl

theorem rasOutCheck_applied {r : RegStore} (ho : o < s.outs.length) (hc : (s.outp o).check = some r) (hg : (s.outLink r o && s.outFits r o) = true)
    (hl : s.lockState o = 0) : Does (.rasOutCommitCheckDone o) s fun t =>
      (t.outp o).inForce = r ∧ t.rd F.RAS_OUT_COMMIT_pending o = 0 ∧ t.mem = s.mem := by
  refine Does.of_exec ((exec_rasOutCommitCheckDone hc).trans (if_pos hg)) ?_
  rw [if_pos hl]
  exact State.outApply_reads (s := s.outChecked o) (by rwa [State.outChecked, State.updOut_outs_length]) r

theorem rasOutCheck_waiting {r : RegStore} (ho : o < s.outs.length) (hc : (s.outp o).check = some r) (hg : (s.outLink r o && s.outFits r o) = true)
    (hl : s.lockState o ≠ 0) : Does (.rasOutCommitCheckDone o) s fun t =>
      (t.outp o).ready = some r ∧ (t.outp o).inForce = (s.outp o).inForce ∧ s.Only t [] := by
  refine Does.of_exec ((exec_rasOutCommitCheckDone hc).trans (if_pos hg)) ?_
  rw [if_neg hl]
  refine ⟨congrArg OutSt.ready (State.outp_updOut_self _ (by rwa [State.outChecked, State.updOut_outs_length])), ?_, (State.Only.refl s _).same⟩
  rw [State.outp_updOut_of_kept OutSt.inForce, State.outChecked_inForce]
  exact fun _ => rfl

theorem rasOutCheck_bad {r : RegStore} (hc : (s.outp o).check = some r) (hg : (s.outLink r o && s.outFits r o) = false) :
    Does (.rasOutCommitCheckDone o) s fun t => t.rd F.RAS_OUT_FLAGS_cfg_bad o = 1 ∧ t.rd F.RAS_OUT_COMMIT_pending o = 0
      ∧ (t.outp o).inForce = (s.outp o).inForce ∧ s.Only t [(F.RAS_OUT_FLAGS_cfg_bad, o), (F.RAS_OUT_COMMIT_pending, o)] := by
  refine Does.of_exec ((exec_rasOutCommitCheckDone hc).trans (if_neg (by rw [hg]; exact Bool.false_ne_true))) ⟨?_, State.rd_wr_self .., ?_, ?_⟩
  · rw [State.rd_wr_other _ _ _ _ _ _ _ _ (by decide)]
    exact State.rd_wr_self _ F.RAS_OUT_FLAGS_cfg_bad 1 o 0
  · rw [State.outp_congr (State.wr_outs ..), State.outp_congr (State.wr_outs ..)]
    exact s.outChecked_inForce o
  · have h : s.Only (s.outChecked o) [(F.RAS_OUT_FLAGS_cfg_bad, o), (F.RAS_OUT_COMMIT_pending, o)] := (State.Only.refl s _).same
    exact (h.wr F.RAS_OUT_FLAGS_cfg_bad 1 o 0 (by simp)).wr F.RAS_OUT_COMMIT_pending 0 o 0 (by simp)

/-! ### Frame starts -/

theorem exec_rasFrameStart_acquiring {err : Int} (ho : o < 4) (hl : s.lockState o = 2) (he : err.natAbs ≤ 1) :
    exec (.rasFrameStart o err) s = .next (
      let u := s.wr F.RAS_OUT_STATUS_phase_err (ofSigned 16 err) o
      let t := u.updOut o fun x => { x with starts := (u.outp o).starts + 1 }
      if 16 ≤ (u.outp o).starts + 1 then (t.wr F.RAS_OUT_STATUS_lock_state 3 o).raise 0 Ev.RAS_LOCKED (le 1 o) else t) := by
  change execRasFrameStart o err s = _
  unfold execRasFrameStart
  extract_lets l s1 n t s2 u t'
  have hd : isDsi o = false := decide_eq_false (by omega)
  have hl2 : l = 2 := hl
  have h1 : s1 = u := if_neg (by rw [hl2]; decide)
  have hn : n = (u.outp o).starts + 1 := (if_pos he).trans (by rw [h1])
  have ht : t = t' := by
    simp only [t, t', hn, h1]
  have h2 : s2 = if 16 ≤ n then (t.wr F.RAS_OUT_STATUS_lock_state 3 o).raise 0 Ev.RAS_LOCKED (le 1 o) else t := if_pos hl2
  rw [hd, if_neg Bool.false_ne_true, h2, ht, hn]

theorem rasFrameStart_locks {err : Int} (ho : o < 4) (hl : s.lockState o = 2) (he : err.natAbs ≤ 1) (hn : 15 ≤ (s.outp o).starts) :
    Does (.rasFrameStart o err) s fun t => t.lockState o = 3 ∧ s.Raised t 0 Ev.RAS_LOCKED (le 1 o) ∧ t.mem = s.mem := by
  refine Does.of_exec (exec_rasFrameStart_acquiring ho hl he) ?_
  extract_lets u t
  have hu : u.outp o = s.outp o := State.outp_congr (State.wr_outs ..) o
  have ht : State.Within [F.RAS_OUT_STATUS_phase_err, F.RAS_OUT_STATUS_lock_state] s t :=
    ((State.Within.refl _ s).wr (f := F.RAS_OUT_STATUS_phase_err) (by decide) _ o 0).same
  have hr : t.host.records = s.host.records := congrArg HostSt.records (State.wr_host ..)
  clear_value t
  rw [if_pos (by rw [hu]; omega)]
  have hw := ht.wr (f := F.RAS_OUT_STATUS_lock_state) (by decide) 3 o 0
  refine ⟨?_, ?_, (State.raise_mem ..).trans hw.mem⟩
  · rw [State.lockState, State.rd_raise_other _ _ _ _ _ _ _ (by decide)]
    exact State.rd_wr_self t F.RAS_OUT_STATUS_lock_state 3 o 0
  · exact State.Raised.of_same (t := t.wr F.RAS_OUT_STATUS_lock_state 3 o) ((congrArg HostSt.records (State.wr_host ..)).trans hr)
      (hw.quiet (by decide)) rfl

theorem rasFrameStart_counts {err : Int} (hlen : o < s.outs.length) (ho : o < 4) (hl : s.lockState o = 2) (he : err.natAbs ≤ 1)
    (hn : (s.outp o).starts < 15) : Does (.rasFrameStart o err) s fun t => t.lockState o = 2 ∧ (t.outp o).starts = (s.outp o).starts + 1
      ∧ s.Only t [(F.RAS_OUT_STATUS_phase_err, o)] := by
  refine Does.of_exec (exec_rasFrameStart_acquiring ho hl he) ?_
  extract_lets u t
  have hu : u.outp o = s.outp o := State.outp_congr (State.wr_outs ..) o
  rw [if_neg (by rw [hu]; omega)]
  refine ⟨?_, ?_, ((State.Only.refl s _).wr F.RAS_OUT_STATUS_phase_err _ o 0 (by simp)).same⟩
  · exact (State.rd_wr_other s F.RAS_OUT_STATUS_phase_err F.RAS_OUT_STATUS_lock_state _ o 0 o 0 (by decide)).trans hl
  · exact (congrArg OutSt.starts (State.outp_updOut_self _ (by rwa [State.wr_outs]))).trans (by rw [hu])

end

/-! ### V pulses and the loss of a reference -/

/-- Output o and its lock state stand as they stood, and so does HBM. -/
structure State.OutKept (o : Nat) (s t : State) : Prop where
  outp : t.outp o = s.outp o
  lock : t.lockState o = s.lockState o
  mem : t.mem = s.mem
  length : t.outs.length = s.outs.length

section
variable {s t u : State} {o p : Nat}

theorem State.OutKept.refl (o : Nat) (s : State) : State.OutKept o s s := ⟨rfl, rfl, rfl, rfl⟩

theorem State.OutKept.trans (h : State.OutKept o s t) (k : State.OutKept o t u) : State.OutKept o s u :=
  ⟨k.outp.trans h.outp, k.lock.trans h.lock, k.mem.trans h.mem, k.length.trans h.length⟩

theorem State.OutKept.updOut (h : State.OutKept o s t) (hp : o ≠ p) (f : OutSt → OutSt) : State.OutKept o s (t.updOut p f) :=
  h.trans ⟨updAt_getD_ne _ _ _ _ _ hp, rfl, rfl, State.updOut_outs_length ..⟩

theorem State.OutKept.wr (h : State.OutKept o s t) (hp : o ≠ p) (f : Fld) (v j : Nat) : State.OutKept o s (t.wr f v p j) :=
  h.trans ⟨State.outp_congr (State.wr_outs ..) o, State.rd_wr_inst _ _ _ _ _ _ _ _ (.inl hp), State.wr_mem .., by rw [State.wr_outs]⟩

theorem State.OutKept.flagCount (h : State.OutKept o s t) (hp : o ≠ p) (a b : Fld) : State.OutKept o s (t.flagCount a b p) :=
  (h.wr hp a 1 0).wr hp b _ 0

theorem State.OutKept.raise (h : State.OutKept o s t) (half code : Nat) (q : List Byte) : State.OutKept o s (t.raise half code q) :=
  h.trans ⟨State.outp_congr (State.Apart.outs.raise ..) o, State.rd_raise_other _ _ _ _ _ _ _ (by decide), State.raise_mem ..,
    by rw [State.Apart.outs.raise]⟩

theorem State.OutKept.ite {c : Prop} [Decidable c] (ht : State.OutKept o s t) (hu : State.OutKept o s u) : State.OutKept o s (if c then t else u) := by
  split
  · exact ht
  · exact hu

theorem State.OutKept.outLost (h : State.OutKept o s t) (hp : o ≠ p) : State.OutKept o s (t.outLost p) :=
  .ite (((h.wr hp F.RAS_OUT_STATUS_lock_state 4 0).flagCount hp ..).raise ..) h

theorem State.OutKept.outAcquire (h : State.OutKept o s t) (hp : o ≠ p) : State.OutKept o s (t.outAcquire p) := by
  have hw := (h.wr hp F.RAS_OUT_STATUS_lock_state 2 0).updOut hp fun x => { x with starts := 0, pulses := 0 }
  exact .ite hw ((hw.flagCount hp ..).raise ..)

theorem State.outAcquire_reads (s : State) (o : Nat) : (s.outAcquire o).lockState o = 2 ∧ (s.outAcquire o).mem = s.mem := by
  refine ⟨?_, (State.Within.refl followFlds s).outAcquire (fun _ h => h) o |>.mem⟩
  have h : ((s.wr F.RAS_OUT_STATUS_lock_state 2 o).updOut o fun x => { x with starts := 0, pulses := 0 }).lockState o = 2 :=
    State.rd_wr_self s F.RAS_OUT_STATUS_lock_state 2 o 0
  unfold State.outAcquire
  extract_lets t
  split
  · exact h
  · rw [State.lockState, State.rd_raise_other _ _ _ _ _ _ _ (by decide), State.rd_flagCount_other _ _ _ _ _ _ _ (by decide)]
    exact h

/-- What a V pulse does at one output. -/
def State.rasPulseAt (s : State) (period o : Nat) : State :=
  let s := s.updOut o fun x => { x with period := period }
  if s.outLock o = 0 then
    let k := pulseHalves (regOf (s.outp o).inForce F.RAS_OUT_FMT_rate o) period
    let l := s.lockState o
    if k = 0 then (s.updOut o fun x => { x with pulses := 0 }).outLost o
    else if l = 1 ∨ l = 4 then
      let t := s.updOut o fun x => { x with pulses := x.pulses + k }
      if 4 ≤ (t.outp o).pulses then t.outAcquire o else t
    else s
  else s

theorem State.rasPulse_eq_each (s : State) (period : Nat) : s.rasPulse period = s.each (List.range 6) fun s o => s.rasPulseAt period o := rfl

theorem State.OutKept.rasPulseAt (h : State.OutKept o s t) (hp : o ≠ p) (period : Nat) : State.OutKept o s (t.rasPulseAt period p) := by
  have hs := h.updOut hp fun x => { x with period := period }
  unfold State.rasPulseAt
  extract_lets s' k l t'
  have ht : State.OutKept o s t' := hs.updOut hp _
  exact .ite (.ite ((hs.updOut hp _).outLost hp) (.ite (.ite (ht.outAcquire hp) ht) hs)) hs

/-- The pulse that completes an output's count brings it to ACQUIRE. -/
theorem State.rasPulseAt_acquires {period : Nat} (ho : o < s.outs.length) (hk : s.outLock o = 0) (hl : s.lockState o = 1 ∨ s.lockState o = 4)
    (hn : pulseHalves (regOf (s.outp o).inForce F.RAS_OUT_FMT_rate o) period ≠ 0)
    (hp : 4 ≤ (s.outp o).pulses + pulseHalves (regOf (s.outp o).inForce F.RAS_OUT_FMT_rate o) period) :
    (s.rasPulseAt period o).lockState o = 2 ∧ (s.rasPulseAt period o).mem = s.mem := by
  unfold State.rasPulseAt
  extract_lets s' k l t
  have hs : s'.outp o = { s.outp o with period := period } := State.outp_updOut_self _ ho
  have hk' : k = pulseHalves (regOf (s.outp o).inForce F.RAS_OUT_FMT_rate o) period := by simp only [k, hs]
  have ht : (t.outp o).pulses = (s.outp o).pulses + k := by
    rw [show t.outp o = { s'.outp o with pulses := (s'.outp o).pulses + k } from
      State.outp_updOut_self _ (by rwa [State.updOut_outs_length]), hs]
  have hlock : s'.outLock o = 0 := by rw [State.outLock, hs]; exact hk
  rw [if_pos hlock, if_neg (by rw [hk']; exact hn), if_pos (show l = 1 ∨ l = 4 from hl), if_pos (by rw [ht, hk']; exact hp)]
  exact t.outAcquire_reads o

theorem State.OutKept.each_rasPulseAt (h : State.OutKept o s t) (period : Nat) {l : List Nat} (hl : o ∉ l) :
    State.OutKept o s (t.each l fun s p => s.rasPulseAt period p) := by
  induction l generalizing t with
  | nil => exact h
  | cons p l ih =>
    obtain ⟨hp, hl⟩ := not_or.mp (fun hm => hl (List.mem_cons.mpr hm))
    exact ih (h.rasPulseAt hp period) hl

/-- The fields that the audio master sets as it finds or loses its source. -/
def masterFlds : List Fld := F.AUD_MASTER_STATUS_state :: F.AUD_FLAGS_master_lost :: F.AUD_CNT_master_lost :: eventFlds

theorem State.audPulse_within (s : State) (period : Nat) : State.Within masterFlds s (s.audPulse period) := by
  have hs : State.Within masterFlds s s := .refl ..
  have hfound : ∀ t : State, State.Within masterFlds s t → State.Within masterFlds s t.masterFound := fun t h =>
    .ite ((h.wr (f := F.AUD_MASTER_STATUS_state) (by decide) 2 0 0).same) h
  have hlost : ∀ t : State, State.Within masterFlds s t → State.Within masterFlds s t.masterLost := fun t h =>
    .ite (((h.wr (f := F.AUD_MASTER_STATUS_state) (by decide) 4 0 0).flagCount (a := F.AUD_FLAGS_master_lost) (b := F.AUD_CNT_master_lost)
      (by decide) (by decide) 0).raise (by decide) ..) h
  exact .ite (.ite (.ite (hfound _ hs.same) hs.same) (hlost _ hs.same)) hs

theorem vrefPulse_acquires {period : Nat} (h6 : o < 6) (ho : o < s.outs.length) (hk : s.outLock o = 0)
    (hl : s.lockState o = 1 ∨ s.lockState o = 4) (hn : pulseHalves (regOf (s.outp o).inForce F.RAS_OUT_FMT_rate o) period ≠ 0)
    (hp : 4 ≤ (s.outp o).pulses + pulseHalves (regOf (s.outp o).inForce F.RAS_OUT_FMT_rate o) period) :
    Does (.vrefPulse period) s fun t => t.lockState o = 2 ∧ t.mem = s.mem := by
  refine Does.of_exec (t := (s.rasPulse period).audPulse period) rfl ?_
  have hras : (s.rasPulse period).lockState o = 2 ∧ (s.rasPulse period).mem = s.mem := by
    obtain ⟨a, b, hab⟩ := List.append_of_mem (List.mem_range.mpr h6)
    have hnd : (a ++ o :: b).Nodup := hab ▸ List.nodup_range
    obtain ⟨hob, hoa⟩ : o ∉ b ∧ o ∉ a := by
      obtain ⟨-, hb, hd⟩ := List.nodup_append.mp hnd
      exact ⟨(List.nodup_cons.mp hb).1, fun hm => hd o hm o List.mem_cons_self rfl⟩
    rw [State.rasPulse_eq_each, hab, State.each, List.foldl_append, List.foldl_cons]
    have ha : State.OutKept o s (a.foldl (fun s p => s.rasPulseAt period p) s) := (State.OutKept.refl o s).each_rasPulseAt period hoa
    generalize a.foldl (fun s p => s.rasPulseAt period p) s = t at ha
    obtain ⟨hlock, hmem⟩ := State.rasPulseAt_acquires (s := t) (period := period) (by rw [ha.length]; exact ho)
      (by rw [State.outLock, ha.outp]; exact hk) (by rw [ha.lock]; exact hl) (by rw [ha.outp]; exact hn) (by rw [ha.outp]; exact hp)
    have hb := (State.OutKept.refl o (t.rasPulseAt period o)).each_rasPulseAt period hob
    exact ⟨hb.lock.trans hlock, hb.mem.trans (hmem.trans ha.mem)⟩
  have hw := (s.rasPulse period).audPulse_within period
  exact ⟨(hw.rd _ _ _ (by decide)).trans hras.1, hw.mem.trans hras.2⟩

theorem exec_rasReferenceLoss (hk : s.outLock o = 0) :
    exec (.rasReferenceLoss o) s = .next ((s.updOut o fun x => { x with pulses := 0 }).outLost o) := congrArg Host.Outcome.next (if_pos hk)

theorem rasReferenceLoss_holds_over (hk : s.outLock o = 0) (hl : s.lockState o = 3) : Does (.rasReferenceLoss o) s fun t =>
    t.lockState o = 4 ∧ t.rd F.RAS_OUT_FLAGS_lock_lost o = 1 ∧ s.Raised t 0 Ev.RAS_LOCK_LOST (le 1 o) ∧ t.mem = s.mem := by
  refine Does.of_exec (exec_rasReferenceLoss hk) ?_
  rw [State.outLost, if_pos (show (s.updOut o _).lockState o = 3 from hl)]
  generalize hu : (s.updOut o fun x => { x with pulses := 0 }).wr F.RAS_OUT_STATUS_lock_state 4 o = u
  have hlock : u.lockState o = 4 := by rw [← hu]; exact State.rd_wr_self (s.updOut o _) F.RAS_OUT_STATUS_lock_state 4 o 0
  have hr : u.host.records = s.host.records := by rw [← hu]; exact congrArg HostSt.records (State.wr_host ..)
  have hw : State.Within [F.RAS_OUT_STATUS_lock_state, F.RAS_OUT_FLAGS_lock_lost, F.RAS_OUT_CNT2_lock_lost] s u := by
    rw [← hu]
    exact State.Within.wr ((State.Within.refl _ s).same) (by decide) 4 o 0
  have hf := hw.flagCount (a := F.RAS_OUT_FLAGS_lock_lost) (b := F.RAS_OUT_CNT2_lock_lost) (by decide) (by decide) o
  refine ⟨?_, ?_, ?_, (State.raise_mem ..).trans hf.mem⟩
  · rw [State.lockState, State.rd_raise_other _ _ _ _ _ _ _ (by decide), State.rd_flagCount_other _ _ _ _ _ _ _ (by decide)]
    exact hlock
  · rw [State.rd_raise_other _ _ _ _ _ _ _ (by decide)]
    exact State.rd_flagCount_flag u _ _ o (by decide)
  · exact State.Raised.of_same (t := u.flagCount F.RAS_OUT_FLAGS_lock_lost F.RAS_OUT_CNT2_lock_lost o)
      ((congrArg HostSt.records (by rw [State.flagCount, State.bump, State.wr_host, State.wr_host])).trans hr) (hf.quiet (by decide)) rfl

end

/-! ### Select points and line fetches -/

section
variable {s : State} {o n : Nat}

theorem State.outRelease_of_none (h : (s.outp o).pic = none) : s.outRelease o = s := by
  unfold State.outRelease
  rw [h]

theorem exec_rasSelectPoint (s : State) (o : Nat) : exec (.rasSelectPoint o) s = .next (
    let t := match (s.outp o).ready with | some r => s.outApply o r | none => s
    if t.sending o && t.takesWork (0x70 + o) && t.viewOn (t.outView o) then (if t.outLive o then t.livePick o else t.ringPick o) else t) := by
  change execRasSelectPoint o s = _
  unfold execRasSelectPoint
  cases (s.outp o).ready <;> rfl

/-- A ring-mode choice on an output without a picture takes the chosen slot, with the first lines to be fetched. -/
theorem State.ringPick_takes {k count passed : Nat} {again : Bool} (ho : o < s.outs.length) (hp : (s.outp o).pic = none)
    (hc : s.chooseSlot (s.outView o) (regOn (s.outp o).inForce F.RAS_OUT_CTRL_dry_only o) (s.outp o).last = some (k, count, again, passed)) :
    ((s.ringPick o).outp o).pic = some (s.picOf (s.outView o) k again true) ∧ ((s.ringPick o).outp o).last = some (s.outView o, count)
      ∧ ((s.ringPick o).outp o).issued = List.range (min (s.outPrimer o) (s.viewHeight (s.outView o))) ∧ (s.ringPick o).mem = s.mem := by
  unfold State.ringPick
  rw [State.outRelease_of_none hp]
  extract_lets v s0
  split
  · next hn => cases hn.symm.trans (show s0.chooseSlot v _ _ = _ from hc)
  · next k' count' again' passed' hs =>
    obtain ⟨rfl, rfl, rfl, rfl⟩ : k' = k ∧ count' = count ∧ again' = again ∧ passed' = passed := by
      simpa only [Option.some.injEq, Prod.mk.injEq] using hs.symm.trans (show s0.chooseSlot v _ _ = _ from hc)
    extract_lets p t t1
    have hlen : o < (s0.takeViewHold v k' (.out o)).outs.length := lt_of_lt_of_eq ho (s.updOut_outs_length o _).symm
    have htp := State.outp_updOut_self (s := s0.takeViewHold v k' (.out o)) (fun x =>
      { x with pic := some p, last := some (v, count'), issued := List.range (min (s.outPrimer o) (s.viewHeight v)) }) hlen
    have hpic : (t.outp o).pic = some p := congrArg OutSt.pic htp
    have hlast : (t.outp o).last = some (v, count') := congrArg OutSt.last htp
    have hiss : (t.outp o).issued = List.range (min (s.outPrimer o) (s.viewHeight v)) := congrArg OutSt.issued htp
    have hmem : t.mem = s.mem := rfl
    clear_value t
    have h1 : t1.outs = t.outs := (State.wr_outs ..).trans (State.wr_outs ..)
    have h1m : t1.mem = s.mem := ((State.wr_mem ..).trans (State.wr_mem ..)).trans hmem
    clear_value t1
    have h2 : (if again' = true then t1.bump F.RAS_OUT_CNT_repeat o else t1).outs = t.outs := by
      split
      · exact (State.wr_outs ..).trans h1
      · exact h1
    have h2m : (if again' = true then t1.bump F.RAS_OUT_CNT_repeat o else t1).mem = s.mem := by
      split
      · exact (State.wr_mem ..).trans h1m
      · exact h1m
    rw [State.outp_congr h2]
    exact ⟨hpic, hlast, hiss, h2m⟩

theorem rasSelectPoint_takes {k count passed : Nat} {again : Bool} (ho : o < s.outs.length) (hr : (s.outp o).ready = none)
    (hp : (s.outp o).pic = none) (hs : s.sending o = true) (ht : s.takesWork (0x70 + o) = true) (hv : s.viewOn (s.outView o) = true)
    (hl : s.outLive o = false)
    (hc : s.chooseSlot (s.outView o) (regOn (s.outp o).inForce F.RAS_OUT_CTRL_dry_only o) (s.outp o).last = some (k, count, again, passed)) :
    Does (.rasSelectPoint o) s fun t => (t.outp o).pic = some (s.picOf (s.outView o) k again true) ∧ (t.outp o).last = some (s.outView o, count)
      ∧ (t.outp o).issued = List.range (min (s.outPrimer o) (s.viewHeight (s.outView o))) ∧ t.mem = s.mem := by
  refine Does.of_exec (t := s.ringPick o) ?_ (State.ringPick_takes ho hp hc)
  rw [exec_rasSelectPoint, hr]
  dsimp only
  rw [hs, ht, hv, hl, Bool.and_self, Bool.and_self, if_pos rfl, if_neg Bool.false_ne_true]

theorem exec_rasLineFetchDone {p : OutPic} (hp : (s.outp o).pic = some p) (hi : (s.outp o).issued.contains n = true)
    (hr : s.released (24 + stackOf (s.viewBase p.view)) = true) (hw : s.stackWaits (stackOf (s.viewBase p.view)) = false) :
    exec (.rasLineFetchDone o n) s = .next (
      let t := ((s.updOut o fun x => { x with issued := x.issued.filter (· ≠ n) }).hbmRead (s.slotLineAddr p.view p.slot 0 n)
        (2 * s.viewWidth p.view)).bufferLine o n (s.fetchLine p.view p.slot n)
      if n + 1 = s.viewHeight p.view then t.outRelease o else t) := by
  change execRasLineFetchDone o n s = _
  simp only [execRasLineFetchDone, hp, hr, hw, hi, Bool.and_false, Bool.false_eq_true, if_false, if_true]

theorem State.hbmRead_outs (s : State) (a n : Nat) : (s.hbmRead a n).outs = s.outs :=
  State.hbmRead_kept State.outs State.wr_outs (fun _ => rfl) (fun _ _ => rfl) s a n

/-- A read of HBM sets the corrected-error flag and count of its own stack alone. -/
theorem State.only_hbmRead (s : State) (a n : Nat) :
    s.Only (s.hbmRead a n) [(F.HBM_FLAGS_ce, stackOf a), (F.HBM_CNT_ce, stackOf a)] := by
  unfold State.hbmRead
  extract_lets k c
  have hi : s.Only (s.issue .read a n) [(F.HBM_FLAGS_ce, stackOf a), (F.HBM_CNT_ce, stackOf a)] := (State.Only.refl s _).same
  exact .ite (.refl s _) (State.Only.same (.whenB hi ((hi.wr F.HBM_FLAGS_ce 1 k 0 (by simp [k])).bump F.HBM_CNT_ce k 0 c (by simp [k]))))

theorem rasLineFetchDone_buffers {p : OutPic} (ho : o < s.outs.length) (hp : (s.outp o).pic = some p) (hi : (s.outp o).issued.contains n = true)
    (hr : s.released (24 + stackOf (s.viewBase p.view)) = true) (hw : s.stackWaits (stackOf (s.viewBase p.view)) = false)
    (hn : n + 1 ≠ s.viewHeight p.view) (hd : (s.outp o).line ≤ s.rasterLine o n) : Does (.rasLineFetchDone o n) s fun t =>
      (t.outp o).buffer = (n, s.fetchLine p.view p.slot n) :: (s.outp o).buffer ∧ (t.outp o).issued = (s.outp o).issued.filter (· ≠ n)
        ∧ s.Only t [(F.HBM_FLAGS_ce, stackOf (s.slotLineAddr p.view p.slot 0 n)), (F.HBM_CNT_ce, stackOf (s.slotLineAddr p.view p.slot 0 n))] := by
  refine Does.of_exec (exec_rasLineFetchDone hp hi hr hw) ?_
  dsimp only
  rw [if_neg hn]
  generalize hu : (s.updOut o fun x => { x with issued := x.issued.filter (· ≠ n) }).hbmRead (s.slotLineAddr p.view p.slot 0 n)
    (2 * s.viewWidth p.view) = u
  have houts : u.outs = (s.updOut o fun x => { x with issued := x.issued.filter (· ≠ n) }).outs := by rw [← hu]; exact State.hbmRead_outs ..
  have hup : u.outp o = { s.outp o with issued := (s.outp o).issued.filter (· ≠ n) } :=
    (State.outp_congr houts o).trans (State.outp_updOut_self _ ho)
  have hlen : o < u.outs.length := by rw [houts]; exact lt_of_lt_of_eq ho (s.updOut_outs_length o _).symm
  have honly : s.Only u [(F.HBM_FLAGS_ce, stackOf (s.slotLineAddr p.view p.slot 0 n)), (F.HBM_CNT_ce, stackOf (s.slotLineAddr p.view p.slot 0 n))] := by
    rw [← hu]
    exact State.Only.trans ((State.Only.refl s _).same) (State.only_hbmRead ..)
  have hline : ¬ u.rasterLine o n < (u.outp o).line := by
    rw [State.rasterLine, hup]
    exact Nat.not_lt.mpr hd
  rw [State.bufferLine, if_neg hline]
  have hb := State.outp_updOut_self (fun x => { x with buffer := (n, s.fetchLine p.view p.slot n) :: x.buffer }) hlen
  exact ⟨(congrArg OutSt.buffer hb).trans (by rw [hup]), (congrArg OutSt.issued hb).trans (by rw [hup]), honly.same⟩

end

/-! ### The line that is due -/

section
variable {l : List Fld} {s t : State} {o : Nat}

theorem State.Within.only (h : State.Within [] s t) (l : List (Fld × Nat)) : s.Only t l :=
  ⟨h.mem, fun f i j _ => h.rd f i j fun _ hx => absurd hx List.not_mem_nil⟩

theorem State.Within.outFrameEnd (h : State.Within l s t) (o : Nat) : State.Within l s (t.outFrameEnd o) := (h.outRelease o).same

/-- After a line the output counts on, and after the last one its frame ends: nothing more is shown. -/
theorem State.lineOver_reads (h : State.Within l s t) (c : Prop) [Decidable c] (f : OutSt → OutSt) :
    State.Within l s (if c then (t.updOut o f).outFrameEnd o else t.updOut o f)
      ∧ (if c then (t.updOut o f).outFrameEnd o else t.updOut o f).out = t.out :=
  ⟨.ite (State.Within.outFrameEnd h.same o) h.same, by
    split
    · exact State.outRelease_out (t.updOut o f) o
    · rfl⟩

theorem exec_rasLineDue (ho : o < 4) (hl : s.lockState o ≠ 0) : exec (.rasLineDue o false) s = .next (s.dueLine o) := by
  have hd : isDsi o = false := decide_eq_false (by omega)
  refine (if_neg ?_).trans (if_neg Bool.false_ne_true)
  rintro (h | ⟨h, -⟩)
  · exact hl h
  · rw [hd] at h
    exact Bool.false_ne_true h

/-- The fields that a missing line sets. -/
def underflowFlds : List Fld := F.RAS_OUT_FLAGS_underflow :: F.RAS_OUT_CNT_underflow :: eventFlds

theorem State.lineMissing_reads (s : State) (o : Nat) : (s.lineMissing o).out = .rasterLine o (s.outp o).line (s.activeLine o []) :: s.out
    ∧ (s.lineMissing o).rd F.RAS_OUT_FLAGS_underflow o = 1 ∧ (s.lineMissing o).mem = s.mem := by
  unfold State.lineMissing
  extract_lets t
  have hout : t.out = .rasterLine o (s.outp o).line (s.activeLine o []) :: s.out :=
    (State.wr_out ..).trans (State.wr_out ..)
  have hrd : t.rd F.RAS_OUT_FLAGS_underflow o = 1 := State.rd_flagCount_flag (s.emit _) _ _ o (by decide)
  have hmem : t.mem = s.mem := (State.wr_mem ..).trans (State.wr_mem ..)
  clear_value t
  split
  · exact ⟨hout, hrd, hmem⟩
  · exact ⟨(State.raise_out ..).trans hout, (State.rd_raise_other _ _ _ _ _ _ _ (by decide)).trans hrd, (State.raise_mem ..).trans hmem⟩

/-- A line that is missing where one is due: it goes out black and counts. -/
theorem State.dueLine_missing (h : ((s.outp o).pic = none ∧ (s.outLive o && s.sending o && !(s.outp o).cut
        && decide (regOf (s.outp o).inForce F.RAS_OUT_POS_y o ≤ (s.outp o).line)
        && decide ((s.outp o).line < regOf (s.outp o).inForce F.RAS_OUT_POS_y o + s.viewHeight (s.outView o))) = true)
      ∨ ∃ p, (s.outp o).pic = some p ∧ (!s.sending o || (s.outp o).cut || decide ((s.outp o).line < regOf (s.outp o).inForce F.RAS_OUT_POS_y o)
        || decide (regOf (s.outp o).inForce F.RAS_OUT_POS_y o + s.viewHeight p.view ≤ (s.outp o).line)) = false
        ∧ s.sendLine o ((s.outp o).line - regOf (s.outp o).inForce F.RAS_OUT_POS_y o) p = none) :
    (s.dueLine o).out = .rasterLine o (s.outp o).line (s.activeLine o []) :: s.out ∧ (s.dueLine o).rd F.RAS_OUT_FLAGS_underflow o = 1
      ∧ (s.dueLine o).mem = s.mem := by
  obtain ⟨hout, hrd, hmem⟩ := s.lineMissing_reads o
  unfold State.dueLine
  extract_lets x r y0 n black next t t1
  have ht : State.Within [] (s.lineMissing o) t ∧ t.out = (s.lineMissing o).out := by
    obtain ⟨hp, hc⟩ | ⟨p, hp, hc, hs⟩ := h
    · simp only [t, show x.pic = none from hp]
      rw [if_pos hc]
      exact ⟨.refl _ _, rfl⟩
    · simp only [t, show x.pic = some p from hp]
      rw [if_neg (by rw [hc]; exact Bool.false_ne_true), show s.sendLine o n p = none from hs]
      dsimp only
      split
      · exact ⟨(State.Within.refl _ _).same, rfl⟩
      · exact ⟨.refl _ _, rfl⟩
  obtain ⟨htw, hto⟩ := ht
  clear_value t
  obtain ⟨hw, ho⟩ := State.lineOver_reads (o := o) htw ((rasterOf x.inForce o).2.1 ≤ r + 1)
    fun x => { x with line := r + 1, buffer := x.buffer.filter fun e => decide (n < e.1 + 2) }
  exact ⟨(ho.trans hto).trans hout, (hw.rd _ _ _ fun _ hx => absurd hx List.not_mem_nil).trans hrd, hw.mem.trans hmem⟩

/-- A line that is sent with what it has to show. -/
theorem State.dueLine_shows {d : List (List Nat)} (h : ((s.outp o).pic = none ∧ (s.outLive o = false ∨ s.sending o = false) ∧ d = [])
      ∨ ∃ p, (s.outp o).pic = some p ∧ (!s.sending o || (s.outp o).cut || decide ((s.outp o).line < regOf (s.outp o).inForce F.RAS_OUT_POS_y o)
        || decide (regOf (s.outp o).inForce F.RAS_OUT_POS_y o + s.viewHeight p.view ≤ (s.outp o).line)) = false
        ∧ s.sendLine o ((s.outp o).line - regOf (s.outp o).inForce F.RAS_OUT_POS_y o) p = some d) :
    (s.dueLine o).out = .rasterLine o (s.outp o).line (s.activeLine o d) :: s.out ∧ s.Only (s.dueLine o) [] := by
  unfold State.dueLine
  extract_lets x r y0 n black next t t1
  have ht : State.Within [] s t ∧ t.out = .rasterLine o (s.outp o).line (s.activeLine o d) :: s.out := by
    obtain ⟨hp, hc, rfl⟩ | ⟨p, hp, hc, hs⟩ := h
    · simp only [t, show x.pic = none from hp]
      rw [if_neg (by rcases hc with hc | hc <;> simp [hc])]
      exact ⟨(State.Within.refl _ s).same, rfl⟩
    · simp only [t, show x.pic = some p from hp]
      rw [if_neg (by rw [hc]; exact Bool.false_ne_true), show s.sendLine o n p = some d from hs]
      dsimp only
      split
      · exact ⟨(State.Within.refl _ s).same, rfl⟩
      · exact ⟨(State.Within.refl _ s).same, rfl⟩
  obtain ⟨htw, hto⟩ := ht
  clear_value t
  obtain ⟨hw, ho⟩ := State.lineOver_reads (o := o) htw ((rasterOf x.inForce o).2.1 ≤ r + 1)
    fun x => { x with line := r + 1, buffer := x.buffer.filter fun e => decide (n < e.1 + 2) }
  exact ⟨ho.trans hto, hw.only []⟩

/-- Within the picture's rows a line of an output that sends it is not black. -/
theorem State.pictureLine_due {y h : Nat} (hs : s.sending o = true) (hc : (s.outp o).cut = false) (hy : y ≤ (s.outp o).line)
    (hh : (s.outp o).line < y + h) :
    (!s.sending o || (s.outp o).cut || decide ((s.outp o).line < y) || decide (y + h ≤ (s.outp o).line)) = false := by
  rw [hs, hc, decide_eq_false (Nat.not_lt.mpr hy), decide_eq_false (Nat.not_le.mpr hh)]
  rfl

end

/-! ### Live lines -/

section
variable {s : State} {o n k : Nat} {f : Frame} {g : StatFrame}

theorem State.livePick_mem (s : State) (o : Nat) : (s.livePick o).mem = s.mem := by
  unfold State.livePick
  split
  · extract_lets p
    split
    · rfl
    · exact State.wr_mem ..
  · rfl

theorem State.bufferLine_mem (s : State) (o n : Nat) (d : List (List Nat)) : (s.bufferLine o n d).mem = s.mem := by
  unfold State.bufferLine
  split <;> rfl

theorem State.liveLine_mem (s : State) (o n k : Nat) (f : Frame) : (s.liveLine o n k f).mem = s.mem := by
  unfold State.liveLine
  extract_lets v x t ps row data
  have ht : t.mem = s.mem := State.viewsRun_mem _
  clear_value t
  split
  · rw [State.bufferLine_mem, State.livePick_mem, ht]
  · exact ht

theorem exec_rasLiveLineArrive (hl : s.outLive o = true) (hn : n < s.viewHeight (s.outView o)) (hk : s.writingSlot (s.outView o) = some k)
    (hf : s.frame (s.ringSlot (s.outView o) k).easel (s.ringSlot (s.outView o) k).serial = some f)
    (hg : s.statFrame (s.ringSlot (s.outView o) k).easel (s.ringSlot (s.outView o) k).serial = some g)
    (hi : s.lineIn (s.outView o) (s.ringSlot (s.outView o) k) f g n = true) (hb : s.bufferFull o (s.outView o) = false)
    (hh : n < (s.ringSlot (s.outView o) k).lines ∨ s.viewHeld (s.outView o) = false) :
    exec (.rasLiveLineArrive o n) s = .next (s.liveLine o n k f) := by
  have hlast : (decide (n < (s.ringSlot (s.outView o) k).lines) || !s.viewHeld (s.outView o)) = true := by
    rcases hh with h | h <;> simp [h]
  change execRasLiveLineArrive o n s = _
  simp only [execRasLiveLineArrive, hk, hf, hg, hl, hi, hb, hlast, decide_eq_true hn, Bool.not_false, Bool.and_self, if_true]

end

/-- Settles O52: the commits by what a set's start and its end leave, the V pulse output by output, and the lines by what each shows. -/
theorem rasterOutputs : Obligations.RasterOutputs := by
  unfold Obligations.RasterOutputs
  refine ⟨fun o n s h6 hlen => ⟨rasOutCommit_refused, rasOutCommit_taken hlen, fun r hc hg hl => rasOutCheck_applied hlen hc hg hl,
    fun r hc hg hl => rasOutCheck_waiting hlen hc hg hl, fun r hc hg => rasOutCheck_bad hc hg,
    fun err ho hl he hn => rasFrameStart_locks ho hl he hn, fun err ho hl he hn => rasFrameStart_counts hlen ho hl he hn,
    fun period hk hl hn hp => vrefPulse_acquires h6 hlen hk hl hn hp, rasReferenceLoss_holds_over,
    fun k count again passed hr hp hs ht hv hl hc => rasSelectPoint_takes hlen hr hp hs ht hv hl hc,
    fun p hp hi hr hw hn hd => rasLineFetchDone_buffers hlen hp hi hr hw hn hd, fun ho hl hp hv hs hc hy hh => ?_, fun ho hl hp hv => ?_,
    fun p d ho hl hp hs hc hy hh hd => ?_, fun p ho hl hp hs hc hy hh hd => ?_,
    fun k f g hl hn hk hf hg hi hb hh => ⟨exec_rasLiveLineArrive hl hn hk hf hg hi hb hh, State.liveLine_mem ..⟩⟩,
    fun o n period s => ⟨exec_rasSelectPoint s o, rfl, exec_rasReferenceLoss, fun p hp hi hr hw => exec_rasLineFetchDone hp hi hr hw⟩⟩
  · refine Does.of_exec (exec_rasLineDue ho hl) (State.dueLine_missing (.inl ⟨hp, ?_⟩))
    rw [hv, hs, hc, decide_eq_true hy, decide_eq_true hh]
    rfl
  · exact Does.of_exec (exec_rasLineDue ho hl) (State.dueLine_shows (.inl ⟨hp, hv, rfl⟩))
  · exact Does.of_exec (exec_rasLineDue ho hl) (State.dueLine_shows (.inr ⟨p, hp, State.pictureLine_due hs hc hy hh, hd⟩))
  · exact Does.of_exec (exec_rasLineDue ho hl) (State.dueLine_missing (.inr ⟨p, hp, State.pictureLine_due hs hc hy hh, hd⟩))

end Sys2Proof.Machine
end

section
/-! PROOFS. Sketch pictures and decoding: what the pool, the cores and the ring of a context leave unchanged, and the commands of both kinds of core. -/
namespace Sys2Proof.Machine

set_option Elab.async false

/-! ### The stream engine -/

theorem State.Apart.vcd : State.Apart State.vcd := ⟨State.wr_vcd, fun _ => rfl, fun _ _ _ => rfl⟩

/-- The fields that a context's pool, its pictures and its close may set. -/
def sketchFlds : List Fld := F.VCD_POOL_STATUS_held :: F.VCD_POOL_STATUS_run_4k :: F.VCD_SC_STATUS_buffers :: F.VCD_SC_STATUS_state
  :: F.VCD_SC_STATUS_sweep :: F.VCD_SC_FLAGS_sweep_repeat :: F.VCD_SC_CNT2_sweep_repeat :: commandFlds

section
variable {l : List Fld} {s t : State}

theorem State.sc_updSc_self {x : Nat} (h : x < s.vcd.ctx.length) (f : ScSt → ScSt) : (s.updSc x f).sc x = f (s.sc x) := updAt_getD_self _ _ _ _ h

theorem State.sc_updSc_of_kept {α : Type} (π : ScSt → α) {f : ScSt → ScSt} (s : State) (x y : Nat) (hf : ∀ c, π (f c) = π c) :
    π ((s.updSc x f).sc y) = π (s.sc y) := updAt_getD_of_kept π _ _ _ _ _ hf

theorem State.updSc_ctx_length (s : State) (x : Nat) (f : ScSt → ScSt) : (s.updSc x f).vcd.ctx.length = s.vcd.ctx.length := updAt_length ..

theorem State.sc_congr {s t : State} (h : t.vcd.ctx = s.vcd.ctx) (x : Nat) : t.sc x = s.sc x := by rw [State.sc, State.sc, h]

theorem State.poolStatus_vcd (s : State) (h : Nat) : (s.poolStatus h).vcd = s.vcd := by
  unfold State.poolStatus
  extract_lets b runs t
  have ht : t.vcd = s.vcd := (State.wr_vcd ..).trans (State.wr_vcd ..)
  clear_value t
  refine (State.each_of_kept State.vcd (fun u x => ?_) t _).trans ht
  split
  · exact State.wr_vcd ..
  · rfl

theorem State.updPool_vcd (s : State) (h : Nat) (f : List PoolBuf → List PoolBuf) :
    (s.updPool h f).vcd = { s.vcd with pool := updAt s.vcd.pool h f } := State.poolStatus_vcd ..

theorem State.Within.poolStatus (h : State.Within l s t) (hl : ∀ x ∈ sketchFlds, x ∈ l) (half : Nat) : State.Within l s (t.poolStatus half) := by
  have hw := (h.wr (f := F.VCD_POOL_STATUS_held) (hl _ (by decide)) (t.poolOf half).length half 0).wr (f := F.VCD_POOL_STATUS_run_4k)
    (hl _ (by decide)) (listMax ((freeRuns (t.pair F.VCD_POOL_BASE_LO_value F.VCD_POOL_BASE_HI_value half)
      (t.rd F.VCD_POOL_SIZE_value half * 4096) (t.poolOf half)).map Prod.snd) / 4096) half 0
  exact hw.each _ fun u x hu => .ite (hu.wr (f := F.VCD_SC_STATUS_buffers) (hl _ (by decide)) ..) hu

theorem State.Within.updPool (h : State.Within l s t) (hl : ∀ x ∈ sketchFlds, x ∈ l) (half : Nat) (f : List PoolBuf → List PoolBuf) :
    State.Within l s (t.updPool half f) := State.Within.poolStatus h.same hl half

theorem State.Within.updBuf (h : State.Within l s t) (hl : ∀ x ∈ sketchFlds, x ∈ l) (x addr : Nat) (f : PoolBuf → PoolBuf) :
    State.Within l s (t.updBuf x addr f) := h.updPool hl ..

theorem State.Within.scDrop (h : State.Within l s t) (x slot e serial : Nat) : State.Within l s (t.scDrop x slot e serial) := .whenB h h.same

theorem State.Within.foldl {α : Type} {f : State → α → State} (h : State.Within l s t) (xs : List α)
    (hf : ∀ u x, State.Within l s u → State.Within l s (f u x)) : State.Within l s (xs.foldl f t) := h.each xs hf

theorem State.Within.scClosed (h : State.Within l s t) (hl : ∀ x ∈ sketchFlds, x ∈ l) (x : Nat) : State.Within l s (t.scClosed x) := by
  unfold State.scClosed
  extract_lets half u u1 fresh u2
  have hu : State.Within l s u := h.foldl _ fun _ _ hv => hv.scDrop ..
  have hu1 : State.Within l s u1 := by
    simp only [u1]
    split
    · exact hu.scDrop ..
    · exact hu
  have hu2 : State.Within l s u2 := hu1.same
  exact ((hu2.wr (f := F.VCD_SC_STATUS_state) (hl _ (by decide)) 0 x 0).wr (f := F.VCD_SC_STATUS_sweep) (hl _ (by decide)) 0 x 0).updPool hl half _

theorem State.Within.closeCheck (h : State.Within l s t) (hl : ∀ x ∈ sketchFlds, x ∈ l) (x : Nat) : State.Within l s (t.closeCheck x) := by
  unfold State.closeCheck
  extract_lets c
  split
  · exact .ite (State.Within.scClosed (h.complete (fun y hy => hl y (by revert y; decide)) ..) hl x) h
  · exact h

/-- What else a context's close does, it takes no record away. -/
theorem State.scClosed_host (s : State) (x : Nat) : (s.scClosed x).host = s.host := by
  have hdrop : ∀ (u : State) (q : Nat × Nat × Nat × Nat), (u.scDrop x q.2.2.1 q.1 q.2.1).host = u.host := fun u q => by
    unfold State.scDrop
    cases (u.scSlot x q.2.2.1 q.1 q.2.1).isSome <;> rfl
  have hpool : ∀ (u : State) (h : Nat) (f : List PoolBuf → List PoolBuf), (u.updPool h f).host = u.host := fun u h f => by
    unfold State.updPool State.poolStatus
    refine (State.each_of_kept State.host (fun v y => ?_) _ _).trans ((State.wr_host ..).trans (State.wr_host ..))
    split
    · exact State.wr_host ..
    · rfl
  unfold State.scClosed
  extract_lets half u u1 fresh u2
  have hu : u.host = s.host := State.each_of_kept State.host (f := fun (s : State) (q : Nat × Nat × Nat × Nat) => s.scDrop x q.2.2.1 q.1 q.2.1) hdrop s _
  have hu1 : u1.host = s.host := by
    simp only [u1]
    split
    · next p _ => exact (hdrop u (p.easel, p.serial, p.slot, 0)).trans hu
    · exact hu
  have hu2 : u2.host = s.host := hu1
  rw [hpool, State.wr_host, State.wr_host, hu2]

theorem State.closeCheck_records (s : State) (x : Nat) : s.host.records ⊆ (s.closeCheck x).host.records := by
  unfold State.closeCheck
  extract_lets c
  split
  · split
    · rw [State.scClosed_host]
      exact State.complete_records ..
    · exact List.Subset.refl _
  · exact List.Subset.refl _

end

/-! ### Pictures -/

section
variable {s : State} {k x : Nat}

theorem listMin_eq_of_least {l : List Nat} {m : Nat} (hm : m ∈ l) (hl : ∀ b ∈ l, m ≤ b) : listMin l = m := by
  cases l with
  | nil => exact absurd hm List.not_mem_nil
  | cons a as => exact Option.some.inj (List.min?_cons'.symm.trans (List.min?_eq_some_iff.mpr ⟨hm, hl⟩))

/-- A context ready before every other, or as soon as and lower than them, is picked (R450). -/
theorem State.scPick_of_first {a : Nat} (hx : x < 16) (ha : s.scReady x k = some a)
    (hmin : ∀ y a', y < 16 → s.scReady y k = some a' → a * 16 + x ≤ a' * 16 + y) : s.scPick k = some x := by
  have hmem : a * 16 + x ∈ (List.range 16).filterMap fun x => (s.scReady x k).map fun a => a * 16 + x :=
    List.mem_filterMap.mpr ⟨x, List.mem_range.mpr hx, by rw [ha]; rfl⟩
  have hleast : ∀ b ∈ (List.range 16).filterMap (fun x => (s.scReady x k).map fun a => a * 16 + x), a * 16 + x ≤ b := by
    intro b hb
    obtain ⟨y, hy, hb⟩ := List.mem_filterMap.mp hb
    obtain ⟨a', ha', rfl⟩ := Option.map_eq_some_iff.mp hb
    exact hmin y a' (List.mem_range.mp hy) ha'
  have hlm := listMin_eq_of_least hmem hleast
  unfold State.scPick
  split
  · next hn =>
    rw [hn] at hmem
    exact absurd hmem List.not_mem_nil
  · next b bs hb =>
    rw [← hb, hlm]
    exact congrArg some (by omega)

theorem exec_sketchPictureStart (hf : s.vcd.cores.getD k none = none) (hp : s.powered (20 + k / 4) = true) (hw : s.takesWork (0x38 + k) = true)
    (hx : s.scPick k = some x) : exec (.sketchPictureStart k) s = .next (s.pictureTaken k x) := by
  change execSketchPictureStart k s = _
  simp only [execSketchPictureStart, hf, hp, hw, hx]
  rfl

theorem List.getD_set_self {α : Type} {l : List α} {n : Nat} (h : n < l.length) (a d : α) : (l.set n a).getD n d = a := by
  rw [List.getD_eq_getElem?_getD, List.getElem?_set_self h]
  rfl

theorem sketchPictureStart_begins {a : Nat} {q : Nat × Nat × Nat × Nat} {rest : List (Nat × Nat × Nat × Nat)} {b : PoolBuf} (hx : x < 16)
    (hc : x < s.vcd.ctx.length) (hk : k < s.vcd.cores.length) (hf : s.vcd.cores.getD k none = none) (hp : s.powered (20 + k / 4) = true)
    (hw : s.takesWork (0x38 + k) = true) (ha : s.scReady x k = some a)
    (hmin : ∀ y a', y < 16 → s.scReady y k = some a' → a * 16 + x ≤ a' * 16 + y) (hpic : (s.sc x).pic = none) (hq : (s.sc x).queue = q :: rest)
    (hb : (s.scBufs x).find? (fun b => b.mark == 0) = some b) : Does (.sketchPictureStart k) s fun t =>
      t.vcd.cores.getD k none = some (x, none) ∧ (t.sc x).queue = rest
        ∧ (∃ p, (t.sc x).pic = some p ∧ p.easel = q.1 ∧ p.serial = q.2.1 ∧ p.buf = b.addr ∧ p.begun = false) ∧ t.mem = s.mem := by
  refine Does.of_exec (exec_sketchPictureStart hf hp hw (State.scPick_of_first hx ha hmin)) ?_
  unfold State.pictureTaken
  extract_lets t
  simp only [hpic, hq, hb]
  generalize hu : t.updBuf x b.addr (fun y => { y with mark := 1, easel := q.1, serial := q.2.1 }) = u
  have hv : u.vcd.ctx = s.vcd.ctx ∧ u.vcd.cores = s.vcd.cores.set k (some (x, none)) := by
    rw [← hu, State.updBuf, State.updPool_vcd]
    exact ⟨rfl, rfl⟩
  have hm : u.mem = s.mem := by
    have htw : State.Within sketchFlds s t := (State.Within.refl _ s).same
    rw [← hu]
    exact (htw.updBuf (fun _ h => h) x b.addr _).mem
  have hs := State.sc_updSc_self (s := u) (x := x) (by rw [hv.1]; exact hc)
  refine ⟨?_, congrArg ScSt.queue (hs _), ⟨_, congrArg ScSt.pic (hs _), rfl, rfl, rfl, rfl⟩, hm⟩
  exact (congrArg (fun l => List.getD l k none) hv.2).trans (List.getD_set_self hk _ _)

/-! ### Rows -/

theorem exec_sketchRowStart {p : ScPic} {i j : Nat} {q : ScPart} (hk : s.vcd.cores.getD k none = some (x, none)) (hp : (s.sc x).pic = some p)
    (hr : s.coreRow x k p = some (i, j)) (hq : p.parts[i]? = some q) (hw : s.rowWritten x p q j = true) :
    exec (.sketchRowStart k) s = .next (s.rowStarted x k i j p q) := by
  change execSketchRowStart k s = _
  simp only [execSketchRowStart, hk, hp, hr, hq, hw, if_true]

/-- The first CTU of a picture changes neither the cores nor HBM. -/
theorem State.picBegin_reads (s : State) (x : Nat) (p : ScPic) : (s.picBegin x p).vcd.cores = s.vcd.cores ∧ (s.picBegin x p).mem = s.mem := by
  unfold State.picBegin
  extract_lets +onlyGivenNames s1 _ _ _ _ _ _ _ _ _ _ _ _ _ _ _ _ _ _ _ _ _ _ _ t t1 t2
  have ht : t.vcd = s1.vcd ∧ t.mem = s1.mem :=
    ⟨State.each_of_kept State.vcd (f := fun (s : State) id => s.complete id St.OK (p.serial % 4294967296)) (fun _ _ => State.Apart.vcd.complete ..) s1 _,
      State.each_of_kept State.mem (f := fun (s : State) id => s.complete id St.OK (p.serial % 4294967296)) (fun _ _ => State.Apart.mem.complete ..) s1 _⟩
  have h1 : t1.vcd.cores = s.vcd.cores ∧ t1.mem = s.mem := ⟨(congrArg VcdSt.cores ht.1 :), ht.2⟩
  clear_value t1
  have h2 : t2.vcd.cores = s.vcd.cores ∧ t2.mem = s.mem := by
    have hw : State.Within sketchFlds t1 t2 :=
      ((State.Within.refl sketchFlds t1).wr (f := F.VCD_SC_STATUS_sweep) (by decide) ..).updBuf (fun _ h => h) ..
    refine ⟨?_, hw.mem.trans h1.2⟩
    simp only [t2]
    rw [State.updBuf, State.updPool_vcd, State.wr_vcd]
    exact h1.1
  clear_value t2
  split
  · rw [State.Apart.vcd.raise, State.raise_mem, State.flagCount, State.bump, State.wr_vcd, State.wr_vcd, State.wr_mem, State.wr_mem]
    exact h2
  · exact h2

theorem State.rowStarted_reads (hk : k < s.vcd.cores.length) (i j : Nat) (p : ScPic) (q : ScPart) :
    (s.rowStarted x k i j p q).vcd.cores.getD k none = some (x, some j) ∧ (s.rowStarted x k i j p q).mem = s.mem := by
  have h : (if p.begun then s else s.picBegin x p).vcd.cores = s.vcd.cores ∧ (if p.begun then s else s.picBegin x p).mem = s.mem := by
    split
    · exact ⟨rfl, rfl⟩
    · exact s.picBegin_reads x p
  unfold State.rowStarted
  generalize (if p.begun then s else s.picBegin x p) = u at h
  exact ⟨List.getD_set_self (by rw [State.updPic, State.updSc]; exact lt_of_lt_of_eq hk (congrArg List.length h.1.symm)) _ _, h.2⟩

theorem exec_sketchRowDone {j : Nat} {p : ScPic} {q : ScPart} {row floor : List ScCtu} (hk : s.vcd.cores.getD k none = some (x, some j))
    (hp : (s.sc x).pic = some p) (hq : p.parts[s.partOf x k]? = some q) (hl : s.rowLegal x k j p q row floor = true) :
    exec (.sketchRowDone k row floor) s = .next (s.rowCoded x k (s.partOf x k) j p q row floor) := by
  change execSketchRowDone k row floor s = _
  simp only [execSketchRowDone, hk, hp, hq, hl, if_true]

theorem State.scStall_reads (hc : x < s.vcd.ctx.length) (need : Nat) : ((s.scStall x k need).sc x).stalled = (s.sc x).stalled ++ [(k, need)]
    ∧ (s.scStall x k need).vcd.cores = s.vcd.cores ∧ (s.scStall x k need).rd F.VCD_SC_FLAGS_stall x = 1
    ∧ s.Raised (s.scStall x k need) (s.scHalf x) Ev.VCD_STALL (le 1 x) ∧ (s.scStall x k need).mem = s.mem := by
  unfold State.scStall
  generalize hu : s.updSc x (fun c => { c with stalled := c.stalled ++ [(k, need)] }) = u
  have hsc : (u.sc x).stalled = (s.sc x).stalled ++ [(k, need)] := by
    rw [← hu]
    exact congrArg ScSt.stalled (State.sc_updSc_self hc _)
  have hcore : u.vcd.cores = s.vcd.cores := by rw [← hu]; rfl
  have hr : u.host.records = s.host.records := by rw [← hu]; rfl
  have hw : State.Within [F.VCD_SC_FLAGS_stall, F.VCD_SC_CNT2_stall] s u := by
    rw [← hu]
    exact (State.Within.refl _ s).same
  have hf := hw.flagCount (a := F.VCD_SC_FLAGS_stall) (b := F.VCD_SC_CNT2_stall) (by decide) (by decide) x
  have hv : (u.flagCount F.VCD_SC_FLAGS_stall F.VCD_SC_CNT2_stall x).vcd = u.vcd := (State.wr_vcd ..).trans (State.wr_vcd ..)
  have hrv : ∀ (h c : Nat) (b : List Byte), ((u.flagCount F.VCD_SC_FLAGS_stall F.VCD_SC_CNT2_stall x).raise h c b).vcd = u.vcd := fun h c b =>
    (State.Apart.vcd.raise ..).trans hv
  refine ⟨?_, ?_, ?_, ?_, (State.raise_mem ..).trans hf.mem⟩
  · rw [State.sc_congr (congrArg VcdSt.ctx (hrv _ _ _)), hsc]
  · rw [hrv, hcore]
  · rw [State.rd_raise_other _ _ _ _ _ _ _ (by decide)]
    exact State.rd_flagCount_flag u _ _ x (by decide)
  · exact State.Raised.of_same (t := u.flagCount F.VCD_SC_FLAGS_stall F.VCD_SC_CNT2_stall x)
      ((congrArg HostSt.records (by rw [State.flagCount, State.bump, State.wr_host, State.wr_host])).trans hr) (hf.quiet (by decide)) rfl

/-- A row that ends frees its core of the row or of the picture, and sets no register. -/
theorem State.rowEnd_reads (hk : k < s.vcd.cores.length) (i : Nat) (p : ScPic) (f : ScPart → ScPart) :
    ((s.rowEnd x k i p f).vcd.cores.getD k none = none ∨ (s.rowEnd x k i p f).vcd.cores.getD k none = some (x, none))
      ∧ s.Only (s.rowEnd x k i p f) [] := by
  unfold State.rowEnd
  extract_lets p1 t more t1 t2
  have h1 : (t1.vcd.cores.getD k none = none ∨ t1.vcd.cores.getD k none = some (x, none)) ∧ State.Within [] s t1 := by
    refine ⟨?_, (State.Within.refl _ s).same⟩
    have hset : t1.vcd.cores.getD k none = if more then some (x, none) else none := List.getD_set_self hk _ _
    rw [hset]
    cases more
    · exact .inl rfl
    · exact .inr rfl
  clear_value t1
  have h2 : t2.vcd.cores = t1.vcd.cores ∧ State.Within [] s t2 := by
    simp only [t2]
    split
    · exact ⟨rfl, h1.2⟩
    · exact ⟨rfl, h1.2.same⟩
  clear_value t2
  have hd : ∀ u : State, (u.scDrop x p.slot p.easel p.serial).vcd = u.vcd := fun u => by
    unfold State.scDrop
    cases (u.scSlot x p.slot p.easel p.serial).isSome <;> rfl
  have hcores : (t2.whenB (p1.parts.all fun q => q.next == q.rows) fun s => s.scDrop x p.slot p.easel p.serial).vcd.cores = t1.vcd.cores := by
    cases p1.parts.all fun q => q.next == q.rows
    · exact h2.1
    · exact (congrArg VcdSt.cores (hd t2)).trans h2.1
  rw [hcores]
  exact ⟨h1.1, State.Within.only (.whenB h2.2 (h2.2.scDrop ..)) []⟩

theorem State.rowCoded_stalls {i j need : Nat} {p : ScPic} {q : ScPart} {row floor : List ScCtu} (hq : q.floor = false) (hp : p.scraped = false)
    (hr : pastRoom ((s.sc x).fits x) p.loose row = some need) : s.rowCoded x k i j p q row floor = s.scStall x k need := by
  simp only [State.rowCoded, hq, hp, hr, Bool.or_self, Bool.false_eq_true, if_false]

theorem State.rowCoded_ends {i j : Nat} {p : ScPic} {q : ScPart} {row floor : List ScCtu} (hq : q.floor = false) (hp : p.scraped = false)
    (hr : pastRoom ((s.sc x).fits x) p.loose row = none) (hf : pastRoom ((s.sc x).fits x) p.loose floor = none) : s.rowCoded x k i j p q row floor
      = s.rowEnd x k i p fun q => ScPart.decide { q with ahead := q.ahead ++ [(j, rowBytes row, rowBytes floor)] } p.scraped q.rows := by
  simp only [State.rowCoded, hq, hp, hr, hf, Bool.or_self, Bool.false_eq_true, ite_self]

/-! ### NAL units and the ring -/

theorem exec_sketchNalCommit {p : ScPic} {au : ScAu} {n : NalSays} {head : List Byte} {part : Option Nat} {last : Bool} (hp : (s.sc x).pic = some p)
    (ha : (s.sc x).aus.getLast? = some au) (hn : (s.nalPlan x p)[p.nals]? = some n) (hl : s.nalLegal x p n head part last = true) :
    exec (.sketchNalCommit x head part last) s = .next (s.nalCommitted x p au n head last) := by
  change execSketchNalCommit x head part last s = _
  simp only [execSketchNalCommit, hp, ha, hn, hl, if_true]

theorem State.nalCommitted_reads (s : State) (x : Nat) (p : ScPic) (au : ScAu) (n : NalSays) (head : List Byte) :
    (s.nalCommitted x p au n head false).mem = (s.scPut x (s.nalBytesOf x p n head)).mem
      ∧ ((s.nalCommitted x p au n head false).sc x).put = ((s.scPut x (s.nalBytesOf x p n head)).sc x).put := by
  unfold State.nalCommitted
  extract_lets r data p1 live u au1 t
  have ht : (t.sc x).put = ((s.scPut x data).sc x).put := by
    simp only [t]
    rw [State.sc_updSc_of_kept ScSt.put]
    exact fun _ => rfl
  have hm : t.mem = (s.scPut x data).mem := rfl
  clear_value t
  rw [if_neg Bool.false_ne_true]
  refine ⟨hm, Eq.trans ?_ ht⟩
  rw [State.scRelease, State.sc_updSc_of_kept ScSt.put]
  exact fun _ => rfl

theorem sketchRingResume_resumes (hc : x < s.vcd.ctx.length) : Does (.sketchRingResume x) s fun t =>
    (t.sc x).stalled = (s.sc x).stalled.filter (fun y => !((s.scRelease x).sc x).fits x y.2) ∧ s.Only t [] := by
  refine Does.of_exec (t := (s.scRelease x).updSc x fun c => { c with stalled := c.stalled.filter fun y => !c.fits x y.2 }) rfl
    ⟨?_, (State.Only.refl s _).same⟩
  have hst : ((s.scRelease x).sc x).stalled = (s.sc x).stalled := by
    rw [State.scRelease, State.sc_updSc_of_kept ScSt.stalled]
    exact fun _ => rfl
  have hlen : x < (s.scRelease x).vcd.ctx.length := lt_of_lt_of_eq hc (State.updSc_ctx_length ..).symm
  rw [← hst]
  exact congrArg ScSt.stalled (State.sc_updSc_self hlen _)

/-! ### Publishing -/

theorem exec_sketchPublish_of_head {a : ScAu} {as : List ScAu} (ha : ((s.scDead x).sc x).aus = a :: as) (hc : a.coded = true) (hs : a.state ≠ 0)
    (hr : (s.scDead x).auRoom x a = true) : exec (.sketchPublish x) s = .next ((s.scDead x).auPublished x a) := by
  have hs' : (a.state != 0) = true := bne_iff_ne.mpr hs
  change execSketchPublish x s = _
  simp only [execSketchPublish, ha, hc, hs', hr, Bool.and_self, if_true]

theorem exec_sketchPublish_of_nil (ha : ((s.scDead x).sc x).aus = []) : exec (.sketchPublish x) s = .next ((s.scDead x).closeCheck x) := by
  change execSketchPublish x s = _
  simp only [execSketchPublish, ha]

theorem State.scDead_of_live {a : ScAu} {as : List ScAu} (ha : (s.sc x).aus = a :: as) (hs : a.state ≠ 3) : s.scDead x = s := by
  have hb : (a.coded && a.state == 3) = false := by rw [beq_eq_false_iff_ne.mpr hs, Bool.and_false]
  simp only [State.scDead, ha, List.takeWhile_cons, hb, Bool.false_eq_true, if_false, List.map_nil, List.foldl_nil]

theorem sketchPublish_publishes {a : ScAu} {as : List ScAu} (ha : (s.sc x).aus = a :: as) (hc : a.coded = true) (hs : a.state = 1 ∨ a.state = 2)
    (hr : s.auRoom x a = true) (hq : s.quiet (s.scHalf x) = false) : Does (.sketchPublish x) s fun t =>
      t.rd F.VCD_SC_HOST_TAIL_value x = (s.rd F.VCD_SC_HOST_TAIL_value x + (auBytes x a).length)
        % max 1 (regOf (s.sc x).inForce F.VCD_SC_HOST_SIZE_value x * 4096) % 2 ^ F.VCD_SC_HOST_TAIL_value.width ∧ t.mem = s.mem
      ∧ ∃ q ∈ t.host.records, q.event = false ∧ q.source = 136 + x ∧ q.status = St.OK ∧ q.spec0 = s.rd F.VCD_SC_HOST_TAIL_value x
        ∧ q.spec1 = (auBytes x a).length ∧ q.cq = regOf (s.sc x).inForce F.VCD_SC_WIN_cq x := by
  have hd : s.scDead x = s := State.scDead_of_live ha (by omega)
  have hex := exec_sketchPublish_of_head (s := s) (x := x) (by rw [hd]; exact ha) hc (by omega) (by rw [hd]; exact hr)
  rw [hd] at hex
  refine Does.of_exec hex ?_
  unfold State.auPublished
  extract_lets r size tail bs base t
  obtain ⟨u, hu⟩ : ∃ u, (s.hostRing base size tail bs).wr F.VCD_SC_HOST_TAIL_value ((tail + bs.length) % max 1 size) x = u := ⟨_, rfl⟩
  have ht : t = u.postUnsolicited (s.scHalf x) (regOf r F.VCD_SC_WIN_cq x) (8 + x) St.OK tail bs.length := by rw [← hu]
  have hring : (s.hostRing base size tail bs).host = s.host ∧ State.Within [F.VCD_SC_HOST_TAIL_value] s (s.hostRing base size tail bs) := by
    unfold State.hostRing
    extract_lets w
    split
    · exact ⟨rfl, (State.Within.refl _ s).same⟩
    · exact ⟨rfl, (State.Within.refl _ s).same⟩
  have hw : State.Within [F.VCD_SC_HOST_TAIL_value] s u := by
    rw [← hu]
    exact hring.2.wr (by decide) ..
  have hrd : u.rd F.VCD_SC_HOST_TAIL_value x = (tail + bs.length) % max 1 size % 2 ^ F.VCD_SC_HOST_TAIL_value.width := by
    rw [← hu]
    exact State.rd_wr_self ..
  have hqu : u.quiet (s.scHalf x) = false := (State.quiet_of_rd (hw.quiet (by decide)) _).trans hq
  have htw : State.Within sketchFlds u t := by
    rw [ht]
    exact (State.Within.refl sketchFlds u).post (by decide) _
  obtain ⟨q, hqm, hqr⟩ : ∃ q ∈ t.host.records, q.event = false ∧ q.source = 136 + x ∧ q.status = St.OK ∧ q.spec0 = tail ∧ q.spec1 = bs.length
      ∧ q.cq = regOf r F.VCD_SC_WIN_cq x := by
    rw [ht, State.postUnsolicited, State.post_awake _ _ hqu]
    exact ⟨_, List.mem_append_right _ (List.mem_singleton_self _), rfl, by dsimp only; omega, rfl, rfl, rfl, rfl⟩
  clear_value t
  have hdone : State.Within sketchFlds u ((t.updSc x fun c => { c with published := c.published + 1 }).auDone x a.id) := htw.same
  have hfin := hdone.closeCheck (fun _ h => h) x
  exact ⟨(hfin.rd _ _ _ (by decide)).trans hrd, hfin.mem.trans hw.mem, q, State.closeCheck_records _ x hqm, hqr⟩

end

/-! ### Reading cores -/

/-- The fields of a reading core's status. -/
def rcFlds : List Fld := [F.VCD_RC_STATUS_fault, F.VCD_RC_STATUS_active]

/-- Decode contexts alone differ, and the status that follows them. -/
structure State.DecKept (s t : State) : Prop where
  host : t.host = s.host
  out : t.out = s.out
  dec : t.vcd.dec.length = s.vcd.dec.length
  within : State.Within rcFlds s t

section
variable {s t : State} {d : Nat}

theorem State.DecKept.refl (s : State) : State.DecKept s s := ⟨rfl, rfl, rfl, .refl ..⟩

theorem State.DecKept.trans {u : State} (h : State.DecKept s t) (k : State.DecKept t u) : State.DecKept s u :=
  ⟨k.host.trans h.host, k.out.trans h.out, k.dec.trans h.dec, h.within.trans k.within⟩

theorem State.rcStatus_vcd (s : State) (core : Nat) : (s.rcStatus core).vcd = s.vcd := (State.wr_vcd ..).trans (State.wr_vcd ..)

theorem State.updDec_kept (s : State) (d : Nat) (f : RcSt → RcSt) : State.DecKept s (s.updDec d f) := by
  refine ⟨(State.wr_host ..).trans (State.wr_host ..), (State.wr_out ..).trans (State.wr_out ..), ?_, ?_⟩
  · rw [State.updDec, State.rcStatus_vcd]
    exact updAt_length ..
  · have h : State.Within rcFlds s (s.updVcd fun v => { v with dec := updAt v.dec d f }) := (State.Within.refl _ s).same
    exact (h.wr (f := F.VCD_RC_STATUS_fault) (by decide) ..).wr (f := F.VCD_RC_STATUS_active) (by decide) ..

theorem State.dec_updDec_self (h : d < s.vcd.dec.length) (f : RcSt → RcSt) :
    (s.updDec d f).vcd.dec.getD d RcSt.init = f (s.vcd.dec.getD d RcSt.init) := by
  rw [State.updDec, State.rcStatus_vcd]
  exact updAt_getD_self _ _ _ _ h

theorem State.rcOutput_nil (s : State) (d slot n a : Nat) : s.rcOutput d slot n a [] = (s, 0, false, []) := by
  cases n <;> rfl

/-- A context with no picture waiting writes none. -/
theorem State.rcWrite_of_empty {v : RcWork} (c : Cmd) (hd : d < s.vcd.dec.length) (hh : (s.vcd.dec.getD d RcSt.init).held = [])
    (hw : (s.vcd.dec.getD d RcSt.init).work = some v) : (s.rcWrite d c w).2 = false ∧ State.DecKept s (s.rcWrite d c w).1
      ∧ ((s.rcWrite d c w).1.vcd.dec.getD d RcSt.init).work = some v := by
  unfold State.rcWrite
  extract_lets x r
  have hr : r = (s, 0, false, []) := by
    simp only [r, show x.held = [] from hh]
    exact State.rcOutput_nil ..
  rw [hr]
  refine ⟨rfl, s.updDec_kept d _, ?_⟩
  rw [State.dec_updDec_self hd, hw]
  rfl

/-- A command with no picture to decode and none waiting ends with its bytes consumed. -/
theorem State.rcGo_of_done {c : Cmd} {w : RcWork} (hd : d < s.vcd.dec.length) (hs : w.steps = []) (hf : w.fault = none)
    (hw : (s.vcd.dec.getD d RcSt.init).work = some w) (hb : (s.vcd.dec.getD d RcSt.init).dpb = []) (hh : (s.vcd.dec.getD d RcSt.init).held = []) :
    ∃ u, State.DecKept s u ∧ s.rcGo c d w = u.complete c.id St.OK w.written w.used := by
  unfold State.rcGo
  extract_lets a ends t t1 r
  have ha : a = (s, true) := by simp only [a, hs]
  have he : ends = true := by simp only [ends, hs]; rfl
  have ht : State.DecKept s t ∧ (t.vcd.dec.getD d RcSt.init).work = some w ∧ (t.vcd.dec.getD d RcSt.init).held = [] := by
    simp only [t, ha, he, hf, Option.isNone_none, Bool.and_self, Bool.true_and]
    cases bitOf (c.b 17) 1
    · exact ⟨.refl s, hw, hh⟩
    · refine ⟨s.updDec_kept d _, ?_⟩
      rw [State.whenB_true, State.dec_updDec_self hd, hb, hh]
      exact ⟨hw, rfl⟩
  obtain ⟨hkt, hwt, hht⟩ := ht
  clear_value t
  have hdt : d < t.vcd.dec.length := by rw [hkt.dec]; exact hd
  have ht1 : State.DecKept s t1 ∧ (t1.vcd.dec.getD d RcSt.init).work = some { w with done := w.used } ∧ (t1.vcd.dec.getD d RcSt.init).held = [] := by
    simp only [t1, he, hf, Option.isNone_none, Bool.and_self, State.whenB_true]
    refine ⟨hkt.trans (t.updDec_kept d _), ?_⟩
    rw [State.dec_updDec_self hdt, hwt]
    exact ⟨by rw [← hf]; rfl, hht⟩
  obtain ⟨hk1, hw1, hh1⟩ := ht1
  clear_value t1
  obtain ⟨hr, hkr, hwr⟩ := State.rcWrite_of_empty c (by rw [hk1.dec]; exact hd) hh1 hw1
  refine ⟨r.1.rcEnd d, (hk1.trans hkr).trans (r.1.updDec_kept d _), ?_⟩
  rw [ha, if_neg (show ¬ (!(s, true).2) = true from Bool.false_ne_true), show (r.1.vcd.dec.getD d RcSt.init).work = some { w with done := w.used } from hwr]
  dsimp only
  rw [show r.2 = false from hr, if_neg Bool.false_ne_true, he, if_neg (by decide), hf]

end

section
variable {s : State} {id : Nat} {c : Cmd} {data : List Byte}

theorem exec_rcDecode_fresh (h : s.Waits id 0x28 c) (hp : s.planPending = false) (hw : (s.vcd.dec.getD (c.b 16) RcSt.init).work = none)
    (ht : rcBad c = false → s.takesWork (0x40 + c.b 16 / 4) = true) :
    exec (.rcDecode id data) s = .next (if rcBad c then (s.begun id).complete id St.VC_BAD_REQ else (s.begun id).rcBegin c data) := by
  have hg : (!rcBad c && !s.takesWork (0x40 + c.b 16 / 4)) = false := by
    cases hb : rcBad c with
    | true => rfl
    | false => rw [ht hb]; rfl
  change execRcDecode id data s = _
  simp only [execRcDecode, h.1, hw, hp, hg, Bool.false_eq_true, if_false]
  exact congrArg Host.Outcome.next (State.startCmd_eq_begun _ h)

theorem exec_rcDecode_going {w : RcWork} (h : s.Runs id 0x28 c) (hw : (s.vcd.dec.getD (c.b 16) RcSt.init).work = some w) (hi : w.cmd = id) :
    exec (.rcDecode id data) s = .next (s.rcGo c (c.b 16) w) := by
  obtain ⟨hc, ho, hst⟩ := h
  change execRcDecode id data s = _
  simp only [execRcDecode, hc, hw, hi, ho, hst, and_self, if_true]

theorem State.rcBegin_of_fault (hr : bitOf (c.b 17) 0 = false) (hf : (s.vcd.dec.getD (c.b 16) RcSt.init).fault = true) :
    s.rcBegin c data = s.complete c.id St.VC_CTX_FAULT := by
  simp only [State.rcBegin, hr, hf, Bool.false_eq_true, if_false, if_true]

/-- A buffer that decodes to no picture is read, and the command ends with OK and its bytes consumed. -/
theorem rcDecode_without_picture {x : RcSt} {bs : List Byte} {used : Nat} {o : HevcOut} (h : s.Waits id 0x28 c)
    (hm : c.mute = false) (hp : s.planPending = false)
    (hw : (s.vcd.dec.getD (c.b 16) RcSt.init).work = none) (hg : rcBad c = false) (ht : s.takesWork (0x40 + c.b 16 / 4) = true)
    (hr : bitOf (c.b 17) 0 = false) (hx : x = s.vcd.dec.getD (c.b 16) RcSt.init) (hf : x.fault = false) (hb : x.dpb = []) (hh : x.held = [])
    (hd : c.b 16 < s.vcd.dec.length) (hbs : bs = padTo (c.w 20) (data.take (c.w 20)))
    (hu : used = (if bitOf (c.b 17) 1 = true then bs.length else startsEnd bs)) (ho : o = Config.hevc x.history (bs.take used))
    (hs : o.steps = []) (hof : o.fault = none) : Does (.rcDecode id data) s fun t =>
      t.Answered c St.OK 0 used ∧ .hostRead (c.d 24) (c.w 20) ∈ t.out ∧ t.mem = s.mem := by
  have hid : c.id = id := State.id_of_cmd h.1
  refine Does.of_exec ((exec_rcDecode_fresh h hp hw fun _ => ht).trans (congrArg Host.Outcome.next (if_neg (by rw [hg]; exact Bool.false_ne_true)))) ?_
  have hx' : (s.begun id).vcd.dec.getD (c.b 16) RcSt.init = x := hx.symm
  unfold State.rcBegin
  extract_lets d u x1 bs1 used1 o1 w
  have hus : u = s.begun id := if_neg (by rw [hr]; exact Bool.false_ne_true)
  have hx1 : x1 = x := by simp only [x1, hus]; exact hx'
  have hbs1 : bs1 = bs := hbs.symm
  have hused : used1 = used := by simp only [used1, hbs1]; exact hu.symm
  have ho1 : o1 = o := by simp only [o1, hx1, hbs1, hused]; exact ho.symm
  have hws : w.steps = [] := (congrArg HevcOut.steps ho1).trans hs
  have hwf : w.fault = none := (congrArg HevcOut.fault ho1).trans hof
  rw [hx1, if_neg (by rw [hf]; exact Bool.false_ne_true)]
  have hdu : d < (u.emit (.hostRead (c.d 24) (c.w 20))).vcd.dec.length := by rw [hus]; exact hd
  have hkept := (u.emit (.hostRead (c.d 24) (c.w 20))).updDec_kept d fun x => { x with work := some w }
  have hdec : ((u.emit (.hostRead (c.d 24) (c.w 20))).updDec d fun x => { x with work := some w }).vcd.dec.getD d RcSt.init = { x with work := some w } :=
    (State.dec_updDec_self hdu _).trans (congrArg (fun y : RcSt => { y with work := some w }) hx1)
  generalize (u.emit (.hostRead (c.d 24) (c.w 20))).updDec d (fun x => { x with work := some w }) = v at hkept hdec
  obtain ⟨z, hz, hgo⟩ := State.rcGo_of_done (s := v) (c := c) (d := d) (w := w) (by rw [hkept.dec]; exact hdu) hws hwf (by rw [hdec])
    (by rw [hdec]; exact hb) (by rw [hdec]; exact hh)
  rw [hgo, hid]
  have hzu := hkept.trans hz
  have hcz : z.cmd id = some c.begun := (State.cmd_congr hzu.host id).trans (by rw [hus]; exact State.cmd_begun_self h)
  obtain ⟨hans, hon⟩ := State.complete_of_begun hcz hm St.OK 0 used1 0
  refine ⟨hused ▸ hans, ?_, (hon []).1.trans (hzu.within.mem.trans (by rw [hus]; rfl))⟩
  rw [show w.written = 0 from rfl, State.Apart.out.complete, hzu.out]
  exact List.mem_cons_self

end

/-- Settles O51: the cores' commands by what a picture's start, a row and a NAL unit change, the ring by what its release leaves, and RC_DECODE by
its begin and its end. -/
theorem sketchPicturesAndDecoding : Obligations.SketchPicturesAndDecoding := by
  unfold Obligations.SketchPicturesAndDecoding
  refine ⟨fun k x s hx hc hk => ⟨fun a q rest b hf hp hw ha hmin hpic hq hb => sketchPictureStart_begins hx hc hk hf hp hw ha hmin hpic hq hb,
    fun p i j q hcore hp hr hq hw => ⟨exec_sketchRowStart hcore hp hr hq hw, State.rowStarted_reads hk i j p q⟩,
    fun p j q row floor hcore hp hq hl => ⟨exec_sketchRowDone hcore hp hq hl, fun need hqf hps hn => ?_, fun hqf hps hr hf => ?_⟩,
    fun p au n head part last hp ha hn hl => ⟨exec_sketchNalCommit hp ha hn hl, fun hlast => ?_⟩,
    sketchRingResume_resumes hc, fun a as ha hcd hs hr hq => sketchPublish_publishes ha hcd hs hr hq,
    fun id c data h hm hp hw => ⟨fun hb => ?_, fun hb ht hr hf => ?_, fun hb ht => ?_,
      fun x bs used o hb ht hr hx hf hd hh hlen hbs hu ho => ?_⟩, fun id c data w h hw hi => exec_rcDecode_going h hw hi⟩,
    fun k x s => ⟨fun hf hp hw hx => exec_sketchPictureStart hf hp hw hx, fun a as ha hc hs hr => exec_sketchPublish_of_head ha hc hs hr,
      exec_sketchPublish_of_nil⟩⟩
  · refine Does.of_exec ((exec_sketchRowDone hcore hp hq hl).trans (congrArg Host.Outcome.next (State.rowCoded_stalls hqf hps hn))) ?_
    exact State.scStall_reads hc need
  · refine Does.of_exec ((exec_sketchRowDone hcore hp hq hl).trans (congrArg Host.Outcome.next (State.rowCoded_ends hqf hps hr hf))) ?_
    exact State.rowEnd_reads hk _ p _
  · subst hlast
    exact Does.of_exec (exec_sketchNalCommit hp ha hn hl) (s.nalCommitted_reads x p au n head)
  · have hex := exec_rcDecode_fresh (data := data) h hp hw fun hg => absurd (hb.symm.trans hg) (by decide)
    rw [hb, if_pos rfl] at hex
    obtain ⟨ha, ho⟩ := State.complete_begun h hm St.VC_BAD_REQ 0 0 0
    exact Does.of_exec hex ⟨ha, ho []⟩
  · have hex := exec_rcDecode_fresh (data := data) h hp hw fun _ => ht
    rw [hb, if_neg Bool.false_ne_true, State.rcBegin_of_fault (s := s.begun id) hr hf, State.id_of_cmd h.1] at hex
    obtain ⟨ha, ho⟩ := State.complete_begun h hm St.VC_CTX_FAULT 0 0 0
    exact Does.of_exec hex ⟨ha, ho []⟩
  · have hex := exec_rcDecode_fresh (data := data) h hp hw fun _ => ht
    rw [hb, if_neg Bool.false_ne_true] at hex
    exact hex
  · by_cases hn : o.steps = [] ∧ o.fault = none
    · obtain ⟨t, hex, hP⟩ := rcDecode_without_picture h hm hp hw hb ht hr hx hf hd hh hlen hbs hu ho hn.1 hn.2
      exact ⟨t, hex, fun _ _ => hP⟩
    · exact Does.of_exec (exec_rcDecode_fresh h hp hw fun _ => ht) fun hs hfl => absurd ⟨hs, hfl⟩ hn

end Sys2Proof.Machine
end

section
/-! PROOFS. Die operations, segments and the ledger: what a die's start and the end of an erase leave of a port, and the moves of the ledger. -/
namespace Sys2Proof.Machine

set_option Elab.async false

/-! ### Ports beyond the two

A mount that goes on reads and writes the two ports alone, whatever the list of ports holds beside them. -/

structure State.FarKept (s t : State) : Prop where
  port : ∀ p, 2 ≤ p → t.port p = s.port p

section
variable {s t : State} {q : Nat}

theorem State.FarKept.stor (h : s.FarKept t) {u : State} (hu : u.stor = t.stor) : s.FarKept u :=
  ⟨fun p hp => (State.port_congr hu p).trans (h.port p hp)⟩

theorem State.FarKept.wr (h : s.FarKept t) (f : Fld) (v i j : Nat) : s.FarKept (t.wr f v i j) := h.stor (State.wr_stor ..)

theorem State.FarKept.raise (h : s.FarKept t) (half code : Nat) (b : List Byte) : s.FarKept (t.raise half code b) :=
  h.stor (State.Apart.stor.raise ..)

theorem State.FarKept.updPort (h : s.FarKept t) (hq : q < 2) (f : PortSt → PortSt) : s.FarKept (t.updPort q f) :=
  ⟨fun p hp => Eq.trans (updAt_getD_ne _ _ _ _ _ (by omega)) (h.port p hp)⟩

theorem State.FarKept.ite {c : Prop} [Decidable c] {u : State} (ht : s.FarKept t) (hu : s.FarKept u) : s.FarKept (if c then t else u) := by
  split
  · exact ht
  · exact hu

theorem State.FarKept.whenB {b : Bool} {f : State → State} (ht : s.FarKept t) (hf : s.FarKept (f t)) : s.FarKept (t.whenB b f) := by
  cases b
  · exact ht
  · exact hf

theorem State.FarKept.foldl {α : Type} {f : State → α → State} {l : List α} (h : s.FarKept t)
    (hf : ∀ u, ∀ x ∈ l, s.FarKept u → s.FarKept (f u x)) : s.FarKept (l.foldl f t) := by
  induction l generalizing t with
  | nil => exact h
  | cons x l ih => exact ih (hf t x List.mem_cons_self h) fun u y hy => hf u y (List.mem_cons_of_mem _ hy)

theorem State.FarKept.each {α : Type} {f : State → α → State} {l : List α} (h : s.FarKept t)
    (hf : ∀ u, ∀ x ∈ l, s.FarKept u → s.FarKept (f u x)) : s.FarKept (t.each l f) := h.foldl hf

theorem State.FarKept.foldl_fst {α β : Type} {f : State × β → α → State × β} {l : List α} {a : State × β} (h : s.FarKept a.1)
    (hf : ∀ b, ∀ x ∈ l, s.FarKept b.1 → s.FarKept (f b x).1) : s.FarKept (l.foldl f a).1 := by
  induction l generalizing a with
  | nil => exact h
  | cons x l ih => exact ih (hf a x List.mem_cons_self h) fun b y hy => hf b y (List.mem_cons_of_mem _ hy)

theorem State.FarKept.opsStatus (h : s.FarKept t) (p : Nat) : s.FarKept (t.opsStatus p) := h.stor (State.opsStatus_kept State.stor State.wr_stor ..)

theorem State.FarKept.addOps (h : s.FarKept t) (hq : q < 2) (l : List DieOp) : s.FarKept (t.addOps q l) :=
  State.FarKept.opsStatus ((h.updPort hq _).updPort hq _) q

theorem State.segSound_stor (s : State) (p : Nat) (g : Segment) : (s.segSound p g).1.stor = s.stor := by
  have hfault : ∀ (u : State) (h e serial tile code bit : Nat), (u.decodeFault h e serial tile code bit).stor = u.stor := by
    intro u h e serial tile code bit
    unfold State.decodeFault
    extract_lets t t1
    have ht : t.stor = u.stor := (State.wr_stor ..).trans (State.wr_stor ..)
    have h1 : t1.stor = u.stor := by
      simp only [t1]
      split
      · exact ht
      · simp only [State.wr_stor, ht]
    rw [State.Apart.stor.raise, h1]
  unfold State.segSound
  split
  · rfl
  · refine State.each_of_kept State.stor (fun u t => ?_) s _
    split
    · exact hfault ..
    · rfl

theorem State.FarKept.glean (h : s.FarKept t) (k : TakeEntry) {ports : List Nat} (hp : ∀ q ∈ ports, q < 2) (n : Nat)
    (l : List (Nat × Nat × Nat × Nat × Nat)) : s.FarKept (t.glean k ports n l).1 := by
  induction n generalizing t l with
  | zero => cases l <;> exact h
  | succ n ih =>
    cases l with
    | nil => exact h
    | cons v vs =>
      unfold State.glean
      extract_lets parts all has check index ix s1 r
      have hparts : ∀ x ∈ parts, x.1 < 2 := by
        intro x hx
        obtain ⟨q, hq, rfl⟩ := List.mem_map.mp hx
        exact hp q hq
      have hcheck : s.FarKept check.1 := State.FarKept.foldl_fst h fun b x _ hb => State.FarKept.foldl_fst hb fun c g _ hc => by
        split
        · exact hc.stor (State.segSound_stor ..)
        · exact hc
      split
      · exact hcheck
      · refine ih (State.FarKept.foldl hcheck fun u x hx hu => ?_) _
        have hx2 := hparts x (List.mem_filter.mp hx).1
        exact ((hu.updPort hx2 _).updPort hx2 _).updPort hx2 _

theorem State.FarKept.recover (h : s.FarKept t) (p : Nat) (k : TakeEntry) {ports : List Nat} (hp : ∀ q ∈ ports, q < 2) :
    s.FarKept (t.recover p k ports).1 := by
  unfold State.recover
  extract_lets l v2 g s1 s2
  have hg : s.FarKept g.1 := by
    simp only [g]
    split
    · exact h
    · exact h.glean k hp _ _
  have hs1 : s.FarKept s1 := (hg.wr ..).wr ..
  have hs2 : s.FarKept s2 := .ite hs1 ((hs1.wr ..).raise ..)
  refine State.FarKept.each hs2 fun u q hq hu => ?_
  split
  · exact hu
  · exact (hu.updPort (hp q hq) _).updPort (hp q hq) _

theorem State.FarKept.wearStatus (h : s.FarKept t) (hq : q < 2) : s.FarKept (t.wearStatus q) := by
  unfold State.wearStatus
  split
  · extract_lets counts spare u
    have hu : s.FarKept u := (((h.wr ..).wr ..).wr ..).wr ..
    exact .ite (((hu.updPort hq _).wr ..).raise ..) hu
  · exact h

theorem State.FarKept.mountEnd (h : s.FarKept t) (hq : q < 2) : s.FarKept (t.mountEnd q) := by
  unfold State.mountEnd
  extract_lets l g u t1 t2
  have hl : ∀ x ∈ l, ∀ k ∈ x.2, k < 2 := by
    intro x hx k hk
    simp only [l, State.gleaned, List.mem_append, List.mem_map] at hx
    rcases hx with hx | ⟨y, -, rfl⟩
    · split at hx
      · exact absurd hx List.not_mem_nil
      · obtain ⟨y, -, rfl⟩ := List.mem_map.mp hx
        obtain rfl := List.mem_singleton.mp hk
        exact hq
    · simp only [List.mem_cons, List.not_mem_nil, or_false] at hk
      omega
  have hg : s.FarKept g.1 := State.FarKept.foldl_fst h fun b x hx hb => by
    have hr := hb.recover q x.1 (hl x hx)
    dsimp only
    exact State.FarKept.whenB hr ((hr.wr ..).raise ..)
  have hu : s.FarKept u := (hg.wr ..).wr ..
  clear_value u
  have h1 : s.FarKept t1 := (hu.updPort hq _).wr ..
  clear_value t1
  have hscrub : s.FarKept (t1.queueScrub q) := by
    unfold State.queueScrub
    split
    · exact State.FarKept.foldl h1 fun v x _ hv => (hv.updPort hq _).wr ..
    · exact h1
  have hpool : s.FarKept ((t1.queueScrub q).erasePool q) := by
    unfold State.erasePool
    split
    · exact hscrub.addOps hq _
    · exact hscrub
  have h2 : s.FarKept t2 := .ite h1 hpool
  exact (h2.wearStatus hq).opsStatus q

theorem State.FarKept.mountEnter (h : s.FarKept t) (hq : q < 2) : s.FarKept (t.mountEnter q) := by
  have hglean : ∀ u : State, s.FarKept u → s.FarKept (u.mountGlean q) := by
    intro u hu
    unfold State.mountGlean
    split
    · extract_lets refs notes v l checked
      have hv : s.FarKept v := hu.updPort hq _
      refine .ite (hv.mountEnd hq) (State.FarKept.each ?_ fun w x hx hw => hw.addOps (by simp only [List.mem_cons, List.not_mem_nil, or_false] at hx; omega) _)
      exact ((((hv.updPort hq _).wr ..).wr ..).wr ..).wr ..
    · exact hu
  unfold State.mountEnter
  split
  · extract_lets p mates
    exact .ite h (hglean _ (h.updPort hq _))
  · exact h

end

/-! ### A port with nothing but its operations -/

/-- A port with these operations queued, and no reel, administrative command, mount or unmount. -/
structure PortSt.Bare (l : List DieOp) (x : PortSt) : Prop where
  ops : x.ops = l
  admin : x.admin = none
  reel : x.reel = none
  mount : x.mount = none
  unmount : x.unmount = none

/-- The port stands in the list of ports, and is bare. -/
structure State.BarePort (p : Nat) (l : List DieOp) (s : State) : Prop where
  lt : p < s.stor.ports.length
  bare : (s.port p).Bare l

section
variable {s t : State} {p q : Nat} {l : List DieOp}

theorem State.BarePort.stor (h : s.BarePort p l) (ht : t.stor = s.stor) : t.BarePort p l :=
  ⟨by rw [ht]; exact h.lt, by rw [State.port_congr ht]; exact h.bare⟩

theorem State.BarePort.updPort (h : s.BarePort p l) {f : PortSt → PortSt} (hf : ∀ x, x.Bare l → (f x).Bare l) : (s.updPort p f).BarePort p l :=
  ⟨lt_of_lt_of_eq h.lt (updAt_length ..).symm, by rw [State.port_updPort_self f h.lt]; exact hf _ h.bare⟩

theorem State.BarePort.adminNext (h : s.BarePort p l) : s.adminNext p = s := by
  simp only [State.adminNext, h.bare.admin]

theorem State.BarePort.adminFails (h : s.BarePort p l) (die block cause left : Nat) (again : List DieOp) :
    (s.adminFails p die block cause left again).BarePort p l := by
  have hu : ∀ f : AdminWork → AdminWork, (s.updAdmin p f).BarePort p l := fun f => h.updPort fun x hx => ⟨hx.ops, by rw [hx.admin]; rfl, hx.reel,
    hx.mount, hx.unmount⟩
  unfold State.adminFails
  extract_lets x t
  have ht : t.BarePort p l := hu _
  split
  · next a m ha _ => cases ht.bare.admin.symm.trans ha
  · exact ht

theorem State.BarePort.blockGone (h : s.BarePort p l) (die block : Nat) : (s.blockGone p die block).BarePort p l := by
  unfold State.blockGone
  extract_lets t t1 t2
  have ht : t.BarePort p l := h.updPort fun x hx => ⟨hx.ops, hx.admin, hx.reel, hx.mount, hx.unmount⟩
  have h1 : t1.BarePort p l := ht.updPort fun x hx => ⟨hx.ops, hx.admin, hx.reel, hx.mount, hx.unmount⟩
  have h2 : t2.BarePort p l := h1.updPort fun x hx => ⟨hx.ops, hx.admin, by rw [hx.reel]; rfl, hx.mount, hx.unmount⟩
  split
  · next r hr => cases h.bare.reel.symm.trans hr
  · exact h2

theorem State.BarePort.eraseEnded (h : s.BarePort p l) (die block : Nat) (ok : Bool) : (s.eraseEnded p die block true ok).BarePort p l := by
  unfold State.eraseEnded
  extract_lets t
  rw [if_pos rfl]
  cases ok
  · have ht : t.BarePort p l := h.stor ((State.Apart.stor.raise ..).trans ((State.wr_stor ..).trans (State.wr_stor ..)))
    rw [if_neg Bool.false_ne_true]
    exact ht.adminFails ..
  · have ht : t.BarePort p l := h.blockGone die block
    have hu : (t.updAdmin p fun a => { a with left := a.left - 1 }).BarePort p l := ht.updPort fun x hx => ⟨hx.ops, by rw [hx.admin]; rfl, hx.reel,
      hx.mount, hx.unmount⟩
    rw [if_pos rfl, hu.adminNext]
    exact hu

/-- A mount that completes on one of the two ports leaves every port without a mount of its own. -/
theorem State.mountCheck_port (hq : q < 2) (hm : (s.port p).mount = none) : (s.mountCheck q).port p = s.port p := by
  unfold State.mountCheck
  split
  · next w hw =>
    have hne : p ≠ q := by
      rintro rfl
      cases hm.symm.trans hw
    split
    · generalize hu : ((((s.updPort q fun x => { x with mount := none }).setPort q 4).reelStatus q).adminStatus q).complete w.cmd w.status w.gleaned
        w.recovered = u
      have hstor : u.stor = (s.updPort q fun x => { x with mount := none }).stor := by
        rw [← hu, State.Apart.stor.complete, State.adminStatus_kept State.stor State.wr_stor, State.reelStatus_kept State.stor State.wr_stor,
          State.setPort, State.wr_stor]
      have hport : u.port p = s.port p := (State.port_congr hstor p).trans (updAt_getD_ne _ _ _ _ _ hne)
      by_cases hp : p < 2
      · have hp1 : 1 - q = p := by omega
        rw [hp1, ← hport]
        simp only [State.mountEnter, hport, hm]
      · exact (((⟨fun _ _ => rfl⟩ : u.FarKept u).mountEnter (q := 1 - q) (by omega)).port p (by omega)).trans hport
    · rfl
  · rfl

theorem State.mountChecks_port (hm : (s.port p).mount = none) : s.mountChecks.port p = s.port p := by
  have h0 : (s.mountCheck 0).port p = s.port p := State.mountCheck_port (by decide) hm
  have h1 : ((s.mountCheck 0).mountCheck 1).port p = s.port p := (State.mountCheck_port (by decide) (by rw [h0]; exact hm)).trans h0
  exact (State.mountCheck_port (by decide) (by rw [h1]; exact hm)).trans h1

theorem State.BarePort.reclaim (h : s.BarePort p l) : s.reclaim p = s := by
  simp only [State.reclaim, h.bare.reel]

theorem State.BarePort.adminGroups (h : s.BarePort p l) : s.adminGroups p = s := by
  simp only [State.adminGroups, h.bare.admin]

/-! ### Operations that wait -/

/-- With nothing that waits for room, and every operation one that may be issued, the queue stands. -/
theorem PortSt.refill_of_may {x : PortSt} {may : DieOp → Bool} (hh : x.held = []) (hm : x.ops.all may = true) : x.refill may = x := by
  have hall : ∀ o ∈ x.ops, may o = true := List.all_eq_true.mp hm
  have hwait : x.ops.filter (fun o => !o.running && !may o) = [] := List.filter_eq_nil_iff.mpr fun o ho => by rw [hall o ho]; simp
  have hstay : x.ops.filter (fun o => o.running || may o) = x.ops := List.filter_eq_self.mpr fun o ho => by rw [hall o ho, Bool.or_true]
  rw [PortSt.refill, hwait, hstay, hh]
  exact congrArg (fun held => { x with held := held }) hh.symm

theorem updAt_of_fixed {α : Type} {l : List α} {n : Nat} {f : α → α} {d : α} (hn : n < l.length)
    (hf : f (l.getD n d) = l.getD n d) : updAt l n f = l := by
  refine List.ext_getElem? fun k => ?_
  rw [updAt_getElem?]
  split
  · next hk =>
    rw [hk, List.getElem?_eq_getElem hn, Option.map_some]
    rw [getD_of_lt hn] at hf
    rw [hf]
  · rfl

theorem State.refill_stor (hp : p < s.stor.ports.length) (hh : (s.port p).held = []) (hm : ((s.port p).ops.all fun o => s.mayIssue p o) = true) :
    (s.refill p).stor = s.stor := by
  rw [State.refill, State.opsStatus_kept State.stor State.wr_stor]
  exact congrArg (fun l => { s.stor with ports := l }) (updAt_of_fixed (d := PortSt.init)
    (f := fun x => x.refill (s.mayIssue p)) hp (PortSt.refill_of_may hh hm))

theorem State.mayIssue_congr (hr : ∀ e, t.rd F.TAKE_STATUS_state e = s.rd F.TAKE_STATUS_state e) (hs : t.stor.takes = s.stor.takes)
    (hf : t.stor.flushes = s.stor.flushes) (o : DieOp) : t.mayIssue p o = s.mayIssue p o := by
  simp only [State.mayIssue, State.portTakeOpen, State.draining, State.takesOn_congr hr hs, hr, hf]

theorem exec_dieOpComplete {die : Nat} {o : DieOp} (r : DieResult) (h : s.runningOp p die = some o) :
    exec (.dieOpComplete p die r) s = .next (s.opEnded p o r) := by
  change execDieOpComplete p die r s = _
  simp only [execDieOpComplete, h]

/-- The end of an erase on a bare port takes it from the queue. -/
theorem dieOpComplete_erase {die : Nat} {o : DieOp} {r : DieResult} (hp : p < s.stor.ports.length)
    (ho : (s.port p).ops.find? (fun o => o.die == die && o.running) = some o) (hk : o.kind = .erase true) (ha : (s.port p).admin = none)
    (hr : (s.port p).reel = none) (hm : (s.port p).mount = none) (hu : (s.port p).unmount = none) (hh : (s.port p).held = [])
    (hmay : ((s.port p).ops.all fun x => s.mayIssue p x) = true) : Does (.dieOpComplete p die r) s fun t =>
      (t.port p).ops = (s.port p).ops.filter fun o => !(o.die == die && o.running) := by
  refine Does.of_exec (exec_dieOpComplete r ho) ?_
  have hdie : o.die = die := by
    have h := List.find?_some ho
    exact eq_of_beq (Bool.and_eq_true_iff.mp h).1
  obtain ⟨v, hv⟩ : ∃ v, s.updPort p (fun x => { x with
    ops := x.ops.filter (fun y => !(y.die == o.die && y.running)), pfwEnded := x.pfwEnded + b2n (x.pfw && o.programs) }) = v := ⟨_, rfl⟩
  have hvlt : p < v.stor.ports.length := by rw [← hv]; exact lt_of_lt_of_eq hp (updAt_length ..).symm
  have hvp : v.port p = { s.port p with
      ops := (s.port p).ops.filter (fun y => !(y.die == o.die && y.running)), pfwEnded := (s.port p).pfwEnded + b2n ((s.port p).pfw && o.programs) } := by
    rw [← hv]
    exact State.port_updPort_self _ hp
  have hvmay : ((v.port p).ops.all fun x => v.mayIssue p x) = true := by
    rw [hvp, List.all_eq_true]
    intro x hx
    rw [State.mayIssue_congr (s := s) (t := v) (fun e => by rw [← hv]; rfl) (by rw [← hv]; rfl) (by rw [← hv]; rfl)]
    exact List.all_eq_true.mp hmay x (List.mem_filter.mp hx).1
  have hvb : v.BarePort p ((s.port p).ops.filter fun o => !(o.die == die && o.running)) := by
    refine ⟨hvlt, ?_⟩
    rw [hvp, hdie]
    exact ⟨rfl, ha, hr, hm, hu⟩
  have hb := (hvb.stor (State.refill_stor hvlt (by rw [hvp]; exact hh) hvmay)).eraseEnded o.die o.block (decide (r ≠ .failed))
  unfold State.opEnded
  extract_lets ok t read t1 t2
  have h1 : t1 = t.eraseEnded p o.die o.block true (decide (r ≠ .failed)) := by
    simp only [t1, hk]
    rfl
  have ht : t = v.refill p := by rw [← hv]
  have hb1 : t1.BarePort p ((s.port p).ops.filter fun o => !(o.die == die && o.running)) := by
    rw [h1, ht]
    exact hb
  clear_value t1
  have h2 : t2 = t1 := by
    simp only [t2]
    rw [hb1.adminGroups, hu]
    rfl
  rw [h2, hb1.reclaim]
  have hmc : t1.mountChecks.port p = t1.port p := State.mountChecks_port hb1.bare.mount
  have hun : t1.mountChecks.unmountCheck p = t1.mountChecks := by
    simp only [State.unmountCheck, hmc, hb1.bare.unmount]
  rw [hun, State.port_congr (State.opsStatus_kept State.stor State.wr_stor ..), hmc]
  exact hb1.bare.ops

end

end Sys2Proof.Machine
end

section
/-! PROOFS. The commands of die operations, segments and the ledger (spec/09 R297 to R312, spec/10 R339 to R346). -/
namespace Sys2Proof.Machine

set_option Elab.async false

/-! ### DIE_OP_ISSUE -/

section
variable {s t : State} {p die : Nat}

theorem exec_dieOpIssue {k : Nat} {o : DieOp} (hf : s.dieFree p die = true) (hn : (s.dieReady p die).dieNext p die = some (k, o)) :
    exec (.dieOpIssue p die) s = .next ((s.dieReady p die).dieStart p k o) := by
  change execDieOpIssue p die s = _
  simp only [execDieOpIssue, hf, hn, Bool.not_true, Bool.false_eq_true, if_false]

/-- On a READY port without segments, units or padding a die only queues what waits. -/
theorem State.dieReady_of_ready (h3 : s.portState p = 3) (hs : (s.refill p).stor = s.stor) (ht : (s.port p).tasks = []) (hp : (s.port p).pad = false)
    (hu : (s.port p).units = []) : s.dieReady p die = s.refill p := by
  have hport : (s.refill p).port p = s.port p := State.port_congr hs p
  have h4 : ¬ s.portState p = 4 := by rw [h3]; decide
  have h4b : (s.portState p == 4) = false := beq_eq_false_iff_ne.mpr h4
  simp only [State.dieReady, h4, false_and, if_false, hport, ht, hp, hu, h4b, List.any_nil, Bool.not_false, Bool.false_and, Bool.or_self, Bool.and_false,
    Bool.false_eq_true]

/-- The one operation that waits for a die is its next. -/
theorem State.dieNext_of_single {o : DieOp} (ho : (s.port p).ops = [o]) (hd : o.die = die) (hi : s.issuable p o = true) :
    s.dieNext p die = some (0, o) := by
  have hdie : (o.die == die) = true := beq_iff_eq.mpr hd
  have hl : (withIndex (s.port p).ops).filter (fun o => o.2.die == die && s.issuable p o.2) = [(0, o)] := by
    rw [ho]
    exact List.filter_eq_self.mpr fun x hx => by
      obtain rfl : x = (0, o) := List.mem_singleton.mp hx
      rw [hdie, hi]
      rfl
  have hmin : listMin ([(0, o)].map fun o : Nat × DieOp => o.2.cls) = o.cls := rfl
  simp only [State.dieNext, hl, hmin, List.find?_cons, beq_self_eq_true]

theorem State.only_exposure (s : State) (p : Nat) : s.Only (s.exposure p) [(F.REEL_EXPOSURE_pfw_loss, p), (F.REEL_EXPOSURE_cut_loss, p),
    (F.REEL_EXPOSURE_pfw_loss, 1 - p), (F.REEL_EXPOSURE_cut_loss, 1 - p)] :=
  State.Only.wr (State.Only.wr (State.Only.wr (State.Only.wr (State.Only.refl s _) F.REEL_EXPOSURE_pfw_loss _ p 0 (by simp)) F.REEL_EXPOSURE_cut_loss _ p 0
    (by simp)) F.REEL_EXPOSURE_pfw_loss _ (1 - p) 0 (by simp)) F.REEL_EXPOSURE_cut_loss _ (1 - p) 0 (by simp)

theorem State.exposure_kept {α : Type} (π : State → α) (hw : ∀ (s : State) (f : Fld) (v i j : Nat), π (s.wr f v i j) = π s) (s : State) (p : Nat) :
    π (s.exposure p) = π s := by simp only [State.exposure, State.exposureOf, hw]

/-- The mode a program needs is sent to its die, and nothing else changes. -/
theorem State.programMode_reads (s : State) (p : Nat) (o : DieOp) : (s.programMode p o).stor = s.stor ∧ s.Only (s.programMode p o) []
    ∧ ∃ l, ∀ t : State, (t.programMode p o).out = l ++ t.out := by
  have h : ∃ l, ∀ t : State, t.programMode p o = { t with out := l ++ t.out } := by
    cases hk : o.kind with
    | ledger => exact ⟨[_], fun t => by simp only [State.programMode, hk]; rfl⟩
    | slc => exact ⟨[_], fun t => by simp only [State.programMode, hk]; rfl⟩
    | unit => exact ⟨[_], fun t => by simp only [State.programMode, hk]; rfl⟩
    | erase => exact ⟨[], fun t => by simp only [State.programMode, hk]; rfl⟩
    | read => exact ⟨[], fun t => by simp only [State.programMode, hk]; rfl⟩
    | fetch => exact ⟨[], fun t => by simp only [State.programMode, hk]; rfl⟩
    | look => exact ⟨[], fun t => by simp only [State.programMode, hk]; rfl⟩
  obtain ⟨l, hl⟩ := h
  rw [hl s]
  exact ⟨rfl, (State.Only.refl s _).same, l, fun t => by rw [hl t]⟩

theorem dieOpIssue_starts {o : DieOp} (hp : p < s.stor.ports.length) (h3 : s.portState p = 3) (hm : (s.port p).mag.isSome = true)
    (hw : (s.port p).pfw = false) (ht : (s.port p).tasks = []) (hpad : (s.port p).pad = false) (hu : (s.port p).units = [])
    (hh : (s.port p).held = []) (ho : (s.port p).ops = [o]) (hd : o.die = die) (hr : o.running = false) (hi : s.issuable p o = true)
    (htw : s.takesWork (0x48 + p) = true) : Does (.dieOpIssue p die) s fun t => (t.port p).ops = [{ o with running := true }]
      ∧ (∃ bs, t.out = .dieOp p die o.cls o.block o.kind.page bs :: (s.programMode p o).out)
      ∧ s.Only t [(F.MAG_OPS_now, p), (F.MAG_OPS_peak, p), (F.MAG_SCRUB_STATUS_running, p), (F.MAG_SCRUB_STATUS_pending, p),
        (F.REEL_EXPOSURE_pfw_loss, p), (F.REEL_EXPOSURE_cut_loss, p), (F.REEL_EXPOSURE_pfw_loss, 1 - p), (F.REEL_EXPOSURE_cut_loss, 1 - p)] := by
  subst hd
  have hmay : s.mayIssue p o = true := by
    simp only [State.issuable, Bool.and_eq_true] at hi
    exact hi.1.2
  have hst : (s.refill p).stor = s.stor := State.refill_stor hp hh (by rw [ho, List.all_cons, hmay]; rfl)
  have hready : s.dieReady p o.die = s.refill p := State.dieReady_of_ready h3 hst ht hpad hu
  have hfree : s.dieFree p o.die = true := by
    simp only [State.dieFree, hm, hw, htw, h3, ho, List.any_cons, List.any_nil, hr, Bool.and_false, Bool.or_self]
    rfl
  have hout : (s.refill p).out = s.out := State.opsStatus_kept State.out State.wr_out ..
  have honly : s.Only (s.refill p) [(F.MAG_OPS_now, p), (F.MAG_OPS_peak, p), (F.MAG_SCRUB_STATUS_running, p), (F.MAG_SCRUB_STATUS_pending, p)] :=
    State.Only.trans (State.Only.same (State.Only.refl s _)) (State.only_opsStatus (s.updPort p fun x => x.refill (s.mayIssue p)) p)
  have hwin : State.Within opsFlds s (s.refill p) := (State.Within.refl _ s).refill (fun _ hx => hx) p
  generalize hq : s.refill p = u at hst hready hout honly hwin
  have hport : u.port p = s.port p := State.port_congr hst p
  have hiu : u.issuable p o = true := by
    have hmayu : u.mayIssue p o = s.mayIssue p o := State.mayIssue_congr (fun e => hwin.rd _ _ _ (by decide)) (by rw [hst]) (by rw [hst]) o
    rw [State.issuable, hmayu, hport]
    exact hi
  have hnext : (s.dieReady p o.die).dieNext p o.die = some (0, o) := by rw [hready]; exact State.dieNext_of_single (by rw [hport]; exact ho) rfl hiu
  refine Does.of_exec (exec_dieOpIssue hfree hnext) ?_
  rw [hready, State.dieStart]
  obtain ⟨hps, hpo, l, hl⟩ := (u.updPort p fun x => { x with ops := x.ops.set 0 { o with running := true } }).programMode_reads p o
  refine ⟨?_, ⟨u.opBytes p o, ?_⟩, ?_⟩
  · rw [State.port_congr (State.exposure_kept State.stor State.wr_stor _ p)]
    refine (congrArg PortSt.ops (State.port_congr (t := State.emit _ _) hps p)).trans ?_
    rw [State.port_updPort_self _ (by rw [hst]; exact hp), hport, ho]
    rfl
  · rw [State.exposure_kept State.out State.wr_out]
    refine congrArg (Emit.dieOp p o.die o.cls o.block o.kind.page (u.opBytes p o) :: ·) ?_
    rw [hl, hl]
    exact congrArg (l ++ ·) hout
  · have h1 : s.Only ((u.updPort p fun x => { x with ops := x.ops.set 0 { o with running := true } }).programMode p o) [(F.MAG_OPS_now, p),
        (F.MAG_OPS_peak, p), (F.MAG_SCRUB_STATUS_running, p), (F.MAG_SCRUB_STATUS_pending, p)] :=
      State.Only.trans honly.same (hpo.mono (by simp))
    exact (State.Only.mono h1.same (by simp)).trans ((State.only_exposure _ p).mono (by simp))

end

/-! ### SEGMENT_CLOSE and ELASTIC_SPILL -/

section
variable {s : State} {e serial h : Nat} {f : Frame} {tf : TakeFrame}

theorem exec_segmentClose_of_closed (hf : s.frame e serial = some f) (ht : (s.take e).frames.find? (fun f => f.serial == serial) = some tf)
    (hc : tf.closed.contains h = true) : exec (.segmentClose e serial h) s = .next s := by
  change Host.Outcome.next (s.segmentClose e serial h) = _
  simp only [State.segmentClose, hf, ht, hc, Bool.true_or, if_true]

/-- The tiles of a run as the canvas, or nothing, gives them. -/
theorem exec_segmentClose_of_run {k : Nat} {run : List Nat} (hf : s.frame e serial = some f)
    (ht : (s.take e).frames.find? (fun f => f.serial == serial) = some tf) (hc : tf.closed.contains h = false) (hopen : s.takeOpen e = true)
    (hm : ((s.take e).ports.all s.mounted) = true) (hp : s.on F.TAKE_STATUS_packed e = false) (hk : s.slotOf e serial = some k)
    (hr : run = ((s.halfTiles e h f).drop (tf.tiles.getD h 0)).take (if s.reelVersion (s.segPort e h) = 2 then 255 else 254)) (hne : run ≠ [])
    (hh : (run.all fun t => s.brush.readable.contains (e, serial, t) || s.tileAbsent e f t) = true) :
    exec (.segmentClose e serial h) s = .next (s.sendSeg e h tf .canvas
      (run.length == ((s.halfTiles e h f).drop (tf.tiles.getD h 0)).length)
      (run.map fun t => if s.brush.readable.contains (e, serial, t) then ((s.canvasTile e k t).1, (s.canvasTile e k t).2.1)
        else (tileRecord 0 0 t 0, if s.reelVersion (s.segPort e h) = 2 then List.replicate 4096 (0 : Byte) else []))) := by
  have hemp : run.isEmpty = false := List.isEmpty_eq_false_iff.mpr hne
  change Host.Outcome.next (s.segmentClose e serial h) = _
  simp only [State.segmentClose, hf, ht, hc, hopen, hm, hp, hk, ← hr, hh, hemp, Bool.not_true, Bool.or_self, Bool.false_eq_true, if_false]

/-- The first entry that gives something gives what the first found gives. -/
theorem findSome?_of_find? {α β : Type} {g : α → Option β} {l : List α} {a : α} (h : l.find? (fun y => (g y).isSome) = some a) :
    l.findSome? g = g a := by
  induction l with
  | nil => cases h
  | cons y l ih =>
    rw [List.find?_cons] at h
    rw [List.findSome?_cons]
    cases hy : g y with
    | none =>
      rw [hy] at h
      exact ih h
    | some b =>
      rw [hy] at h
      obtain rfl : y = a := Option.some.inj h
      exact hy.symm

theorem exec_elasticSpill {x : State × List (Nat × SegTask)} (he : (List.range 4).find? (fun e =>
      decide (s.rd F.HBM_CANVAS_STATUS_free e ≤ s.rd F.MAG_ELASTIC_CFG_canvas_lo h) && s.takeOpen e && !s.on F.TAKE_STATUS_packed e
        && (s.partSpill h e).isSome) = some e) (hx : s.partSpill h e = some x) :
    exec (.elasticSpill h) s = .next (x.1.spillAll h x.2) := by
  have hcond := List.find?_some he
  have hparts : s.spillParts h = some x := by
    have hfun : (fun e => decide (s.rd F.HBM_CANVAS_STATUS_free e ≤ s.rd F.MAG_ELASTIC_CFG_canvas_lo h) && s.takeOpen e
          && !s.on F.TAKE_STATUS_packed e && (s.partSpill h e).isSome)
        = fun e => (if s.rd F.HBM_CANVAS_STATUS_free e ≤ s.rd F.MAG_ELASTIC_CFG_canvas_lo h ∧ s.takeOpen e = true ∧ s.on F.TAKE_STATUS_packed e = false
          then s.partSpill h e else none).isSome := by
      funext y
      by_cases hc : s.rd F.HBM_CANVAS_STATUS_free y ≤ s.rd F.MAG_ELASTIC_CFG_canvas_lo h ∧ s.takeOpen y = true ∧ s.on F.TAKE_STATUS_packed y = false
      · rw [if_pos hc, decide_eq_true hc.1, hc.2.1, hc.2.2]
        rfl
      · rw [if_neg hc]
        refine Bool.eq_false_iff.mpr fun hy => hc ?_
        simp only [Bool.and_eq_true, decide_eq_true_eq, Bool.not_eq_true'] at hy
        obtain ⟨⟨⟨h1, h2⟩, h3⟩, -⟩ := hy
        exact ⟨h1, h2, h3⟩
    rw [hfun] at he
    have hsome := findSome?_of_find? he
    simp only [Bool.and_eq_true, decide_eq_true_eq, Bool.not_eq_true'] at hcond
    obtain ⟨⟨⟨h1, h2⟩, h3⟩, -⟩ := hcond
    rw [if_pos ⟨h1, h2, h3⟩, hx] at hsome
    simp only [State.spillParts, hsome]
  change execElasticSpill h s = _
  simp only [execElasticSpill, hparts]

end

/-! ### The ledger -/

section
variable {s : State} {p : Nat} {r : Reel}

theorem exec_ledgerGroupIssue_of_snap {g : List LRecord} {gs : List (List LRecord)} (hr : (s.port p).reel = some r) (hl : s.ledgerLive p = true)
    (hg : (s.port p).ledger.group = none) (hs : (s.port p).ledger.snap = g :: gs) (hq : s.quiet p = false)
    (hroom : (s.port p).ledger.room (s.slcPages p) g.length false = true) (hf : (s.port p).ledger.fullEnds = []) :
    exec (.ledgerGroupIssue p) s = .next ((s.updLedger p fun y => { y with snap := gs }).issueGroup p
      (g.map fun q => { q with seq := (s.port p).ledger.seq + (q.seq - q.first), first := (s.port p).ledger.seq }) false) := by
  change execLedgerGroupIssue p s = _
  simp only [execLedgerGroupIssue, hr, hl, hg, hs, hq, hroom, hf, Bool.not_true, Option.isSome_none, List.isEmpty_nil, Bool.or_self,
    Bool.false_eq_true, if_false]

theorem exec_ledgerGroupIssue_of_own (hr : (s.port p).reel = some r) (hl : s.ledgerLive p = true) (hg : (s.port p).ledger.group = none)
    (h : (s.port p).ledger.snap = [] ∨ s.quiet p = true ∨ (s.port p).ledger.fullEnds ≠ []) :
    exec (.ledgerGroupIssue p) s = .next (s.ownGroup p r) := by
  change execLedgerGroupIssue p s = _
  simp only [execLedgerGroupIssue, hr, hl, hg, Bool.not_true, Option.isSome_none, Bool.or_self, Bool.false_eq_true, if_false]
  cases hs : (s.port p).ledger.snap with
  | nil => rfl
  | cons g gs =>
    refine if_pos ?_
    rcases h with h | h | h
    · cases hs.symm.trans h
    · rw [h]
      rfl
    · rw [List.isEmpty_eq_false_iff.mpr h, Bool.not_false, Bool.or_true]

/-- With no take ended for want of room, and room for the ordinary group, that group is issued. -/
theorem State.ownGroup_of_room {g : List (Nat × List LEntry × List Byte) × List LEntry × State} (hf : (s.port p).ledger.fullEnds = [])
    (hg : g = s.nextGroup p) (hne : g.1 ≠ []) (hroom : (s.port p).ledger.room (s.slcPages p) g.1.length false = true) :
    s.ownGroup p r = ((g.2.2.dropSnap p).updLedger p fun y => { y with pend := g.2.1 }).issueGroup p
      (numberRecords (s.port p).ledger.seq r.hdr.version r.hdr.id true g.1) false := by
  have hemp : g.1.isEmpty = false := List.isEmpty_eq_false_iff.mpr hne
  simp only [State.ownGroup, hf, ← hg, hemp, hroom, List.take_nil, List.isEmpty_nil, Bool.not_true, Bool.false_and, Bool.false_eq_true, if_false]

/-- The groups that restate a reel, their records numbered from 0 (R346). -/
def Reel.snapMade (r : Reel) : List (List LRecord) :=
  let gs := packGroups (snapBodies r.restate) []
  (withIndex gs).map fun g => numberRecords 0 3 r.hdr.id (g.1 + 1 == gs.length) (g.2.map fun q => (11, q.1, q.2))

theorem Reel.snapMade_length (r : Reel) : r.snapMade.length = (packGroups (snapBodies r.restate) []).length := by
  rw [Reel.snapMade, List.length_map, withIndex, List.length_zip, List.length_range, Nat.min_self]

theorem ledgerSnapshot_restates (hp : p < s.stor.ports.length) (hr : (s.port p).reel = some r) (hm : s.mounted p = true) (h3 : r.hdr.version = 3)
    (hro : r.readOnly = false) (ht : s.portTakeOpen p = false)
    (hfree : (sumOver ((s.port p).ledger.free.map List.length) fun n => n) * 4 < (sumOver (r.ledger.map List.length) fun n => n))
    (hs : (s.port p).ledger.snap = []) (hsf : (s.port p).ledger.snapFirst = none) (hg : (s.port p).ledger.group = none) (hq : s.quiet p = false) :
    Does (.ledgerSnapshot p) s fun t => (t.port p).ledger.snapFirst = some (s.port p).ledger.seq
      ∧ (t.port p).ledger.snap.length = (packGroups (snapBodies r.restate) []).length ∧ s.Only t [] := by
  have hv : (r.hdr.version == 3) = true := beq_iff_eq.mpr h3
  have hex : exec (.ledgerSnapshot p) s = .next (s.updLedger p fun y => { y with snap := r.snapMade, snapFirst := some y.seq }) := by
    change execLedgerSnapshot p s = _
    simp only [execLedgerSnapshot, hr, hm, hv, hro, ht, decide_eq_true hfree, hs, hsf, hg, hq, Bool.not_false, List.isEmpty_nil, Option.isNone_none,
      Bool.and_self, if_true]
    rfl
  refine Does.of_exec hex ?_
  have hport := State.port_updPort_self (s := s) (p := p)
    (fun x => { x with ledger := { x.ledger with snap := r.snapMade, snapFirst := some x.ledger.seq } }) hp
  exact ⟨congrArg (fun x : PortSt => x.ledger.snapFirst) hport, (congrArg (fun x : PortSt => x.ledger.snap.length) hport).trans r.snapMade_length,
    (State.Only.refl s _).same⟩

end

/-- Settles O35: a die's start and the end of an erase by what they leave of the port, the other commands by the branch each takes. -/
theorem dieOperationsAndSegments : Obligations.DieOperationsAndSegments := by
  unfold Obligations.DieOperationsAndSegments
  refine ⟨fun p die s hp => ⟨fun o h3 hm hw ht hpad hu hh ho hd hr hi htw => dieOpIssue_starts hp h3 hm hw ht hpad hu hh ho hd hr hi htw,
    fun k o hf hn => exec_dieOpIssue hf hn, fun o r ho hk ha hr hm hu hh hmay => dieOpComplete_erase hp ho hk ha hr hm hu hh hmay,
    fun e serial h f tf hf ht hc => exec_segmentClose_of_closed hf ht hc,
    fun e serial h f tf k run hf ht hc ho hm hpk hk hr hne hh => exec_segmentClose_of_run hf ht hc ho hm hpk hk hr hne hh,
    fun r g gs hr hl hg hs hq hroom hf => exec_ledgerGroupIssue_of_snap hr hl hg hs hq hroom hf,
    fun r g hr hl hgr hs hf hg hne hroom => (exec_ledgerGroupIssue_of_own hr hl hgr (.inl hs)).trans
      (congrArg Host.Outcome.next (State.ownGroup_of_room hf hg hne hroom)),
    fun r hr hm h3 hro ht hfree hs hsf hg hq => ledgerSnapshot_restates hp hr hm h3 hro ht hfree hs hsf hg hq,
    fun h e x he hx => exec_elasticSpill he hx⟩,
    fun p die o r s h => exec_dieOpComplete r h, fun p r s hr hl hg h => exec_ledgerGroupIssue_of_own hr hl hg h⟩

end Sys2Proof.Machine
end
